-- ==== Sys2Proof/Word.lean ====
section
/-!
DEFINITION. The machine's words: a byte and the 32-bit register word (R8).
-/
namespace Sys2Proof

/-- One byte. -/
abbrev Byte := BitVec 8

/-- One control-space register word, 32 bits (R8). -/
abbrev Word := BitVec 32

end Sys2Proof
end

