-- ==== Sys2Proof/Syntax.lean ====
section
/-!
DEFINITION. The commands and events of the block, one constructor per row of the table of operations,
with the operand types they carry. A command brings with it whatever comes from outside the device:
the bytes of a frame, the outcome of a check made by the outside world, the value a master writes.
-/
namespace Sys2Proof

/-- Masters and originators that issue control-space accesses (R15, R327, R446): the safety pair, a
general core, the PCIe host, the SPI management port and the debug port. -/
inductive Master where
  | sp
  | gc (c : Fin 4)
  | host
  | spi
  | dbg
deriving DecidableEq, Repr

/-- The two gPTP domains (R31): the working clock and global time. -/
inductive Domain where
  | wc
  | gt
deriving DecidableEq, Repr

/-- Kinds of budgeted firmware job (R46). A scoresheet append carries its entry's type and body. -/
inductive JobKind where
  | sbAppend (type : Nat) (body : List Byte)
  | sbSeal (type : Nat) (body : List Byte)
  | prepare
  | castlingPrepare
  | handover
  | fvSave
  | retentionSave
  | attest
  | dump
  | gateCompile
  | keyDerive
  | other
deriving DecidableEq, Repr

/-- A frame as it arrives at a port: its bytes from the destination address up to, but without, the
FCS, and how it came. `preemptable`: it came as preemptable fragments (R94). `directed`: the port a
frame sent by the general cluster through P49 is directed to (R19). `mgmt`: a frame the general
cluster marks as a management frame. `tsReq`: the sender wants the egress timestamp (R91). `verify`: it is no frame but a verify mPacket of Clause 99 (R92). -/
structure WireFrame where
  bytes : List Byte
  preemptable : Bool
  directed : Option (Fin 48)
  mgmt : Bool
  tsReq : Bool
  verify : Bool := false
deriving DecidableEq, Repr

/-- Where the pipeline takes a unit from for one slot (R22): a port's ingress staging FIFO, an edge
channel's engine, a packed ACF frame of a binding, or the recirculation port. -/
inductive UnitSource where
  | port (p : Fin 50)
  | channel (n : Fin 256)
  | packed (b : Fin 64)
  | recirc
deriving DecidableEq, Repr

/-- What the pipeline's memory reads met for one decision: nothing, an uncorrectable error in Bank T at
an offset (R314), an uncorrectable error in a buffer cell (R125), one in the shadow table (R145), or an
error that was corrected in a buffer cell (R125) or in Bank T (R314). -/
inductive DecisionEcc where
  | clean
  | tableError (off : Nat)
  | cellError (cell : Nat)
  | shadowError
  | cellCorrected
  | tableCorrected
deriving DecidableEq, Repr

/-- What ECC found in the cells of a frame (R125). -/
inductive EccKind where
  | clean
  | corrected
  | uncorrectable
deriving DecidableEq, Repr

/-- What ECC found in the 64-bit words of a bank access (R314): nothing, a corrected error, or an uncorrectable one in a
word, counted from the first the access touches. -/
inductive BankEcc where
  | clean
  | corrected
  | uncorrectable (word : Nat)
deriving DecidableEq, Repr

/-- The two MACs of a preempting port (R92). -/
inductive MacKind where
  | express
  | preemptable
deriving DecidableEq, Repr

/-- What a timing-wheel entry belongs to (R190): a leaf's shaper or a port's. -/
inductive WheelTarget where
  | leaf (p : Fin 50) (q : Fin 64)
  | port (p : Fin 50)
deriving DecidableEq, Repr

/-- Frame formats of an edge message (R208). -/
inductive EdgeFormat where
  | cc
  | fd
  | xl
  | lin
deriving DecidableEq, Repr

/-- A message on an edge bus: format, identifier with its extended flag, bit-rate switch and error
state flags, remote flag, the CAN XL header fields, and the payload (R208, R212). -/
structure BusMsg where
  format : EdgeFormat
  id : Nat
  ext : Bool
  rtr : Bool
  brs : Bool
  esi : Bool
  sdt : Nat
  vcid : Nat
  af : Nat
  sec : Bool
  payload : List Byte
deriving DecidableEq, Repr

/-- How an error on a CAN bus counts under ISO 11898-1 (R213). -/
inductive CanError where
  | receive
  | receiveDominant
  | transmit
deriving DecidableEq, Repr

/-- Causes of a tamper response (R265). -/
inductive TamperCause where
  | pin
  | voltage
  | clock
deriving DecidableEq, Repr

/-- What a selective-wake decoder saw (R287): phases of the bus, dominant or recessive, each with its length in ns; a frame;
or its error counter above 31. -/
inductive SwKind where
  | wup (phases : List (Bool × Nat))
  | wuf (msg : BusMsg)
  | errCount
deriving DecidableEq, Repr

/-- The four memory banks (R311). -/
inductive Bank where
  | s
  | g
  | h
  | t
deriving DecidableEq, Repr

/-- A word met by a scrub pass: its bank, its offset, and whether it could not be corrected (R314). -/
structure ScrubError where
  bank : Bank
  off : Nat
  uncorrectable : Bool
deriving DecidableEq, Repr

/-- An ECC error met in a word retained in Moored (R273): a word of a bank, or of the retention registers where no bank
is named. -/
structure RetError where
  bank : Option Bank
  off : Nat
  uncorrectable : Bool
deriving DecidableEq, Repr

/-- Faults of the safety pair's lockstep (R301, R303, R304). -/
inductive MismatchKind where
  | mismatch (bit : Fin 384)
  | comparator
  | delay (stage : Nat)
deriving DecidableEq, Repr

/-- Masters of the memory banks (R316), with the outlet of the safety pair and the cores. -/
inductive BusMaster where
  | sp
  | gc (c : Fin 4)
  | hb
  | dma
  | mc
  | ec
  | dbg
deriving DecidableEq, Repr

/-- A bank access: a read of some bytes, a write of bytes, or one of two requests that are never served: a compare and
swap (R315) and a locked read (R321). -/
inductive BankOp where
  | read (n : Nat)
  | write (data : List Byte)
  | cas (n : Nat)
  | lockedRead (n : Nat)
deriving DecidableEq, Repr

/-- An access to a bank as it is granted: what it brings, what ECC found in its words, and the masters that ask in its
cycle and wait (R314, R316). -/
structure Granted (α : Type) where
  arg : α
  ecc : BankEcc
  waiting : List BusMaster
deriving DecidableEq, Repr

/-- A request of a core to the host: what it brings, and whether it has to yield (R331). -/
structure Yielding (α : Type) where
  arg : α
  stalled : Bool
deriving DecidableEq, Repr

/-- A control-space access as its block grants it: the master, and the masters that ask for the block in the same cycle
and wait (R448). -/
structure Asking where
  m : Master
  waiting : List Master
deriving DecidableEq, Repr

/-- What the end of a bulk job brings: its master, and what ECC found in the words of Bank H it read since its start or
last suspension, counted from there (R261, R314). -/
structure Checked (α : Type) where
  arg : α
  ecc : BankEcc
deriving DecidableEq, Repr

/-- A configuration write of the power management control and status register (R342): PME_En, and whether it clears
PME_Status. -/
structure PmWrite where
  pmeEn : Bool
  clearStatus : Bool
deriving DecidableEq, Repr

/-- Resets of the host interface (R323). -/
inductive HostResetKind where
  | perst
  | hotReset
  | flr
deriving DecidableEq, Repr

/-- The PCIe link and function as HB sees them (R324, R353). -/
structure LinkState where
  dlActive : Bool
  rate : Fin 5
  width : Fin 5
  bme : Bool
deriving DecidableEq, Repr

/-- Outcome of the host reads of a transmit fetch (R339): the frame's bytes, or an error. -/
inductive FetchResult where
  | frame (bytes : List Byte)
  | descError
  | frameError
deriving DecidableEq, Repr

/-- Outcome of an outbound read's completion (R329). -/
inductive ReadCompletion where
  | data (bytes : List Byte)
  | error
  | timeout
deriving DecidableEq, Repr

/-- The write a broken-off SPI transaction was carrying: to control space or to Bank H (R346). -/
structure SpiWriteOp where
  toBankH : Bool
  addr : Nat
  words : List Word
deriving DecidableEq, Repr

/-- The straps sampled at the release of the switch die (R404). -/
structure Straps where
  bootSel : Fin 4
  recoveryN : Bool
deriving DecidableEq, Repr

/-- How memory initialisation ended (R402, R403). -/
inductive MemInitFail where
  | ok
  | corePll
  | memory
deriving DecidableEq, Repr

/-- A receive or transmit descriptor as the host left it in its memory: 32 bytes (R336). -/
abbrev Descriptor := List Byte

/-- The commands of the block, one constructor per row of the table of operations. [DEDUCED, log 13] -/
inductive Instr where
  /-- TEMPO_BOUNDARY (R39). The tempo generator cuts a boundary from the working clock and distributes the strobe and the tempo number; it realigns after a step. -/
  | tempoBoundary
  /-- JOB_REQUEST (R48). A budgeted firmware job is requested; it is rejected with JOB_TOO_LARGE when it exceeds its core's whole budget, and otherwise queued. -/
  | jobRequest (core : Fin 5) (kind : JobKind) (cost : Nat)
  /-- JOB_START (R47). A queued job starts when its cost bound fits the remaining budget and time; otherwise it is deferred whole and OVERRUNS counts it. -/
  | jobStart (core : Fin 5)
  /-- JOB_COMPLETE (R47). A started job ends on its core, and its core time is charged to the budget. -/
  | jobComplete (core : Fin 5)
  /-- ACCEPT_SYNC (R34). An accepted Sync disciplines a domain, ending holdover, and slewing or stepping its time. -/
  | acceptSync (dom : Domain) (gm : Nat) (offset : Int) (rate : Int)
  /-- GRANDMASTER_LOSS (R33). A locked domain loses its grandmaster, keeps running at the last rate ratio and sets its holdover bit. -/
  | grandmasterLoss (dom : Domain)
  /-- PPS_IN_EDGE (R37). A PPS_IN edge of the selected polarity is captured and judged as candidate, valid or ignored. -/
  | ppsInEdge (rising : Bool)
  /-- PPS_IN_MISSING (R37). After two consecutive expected edges are missing, PPS_IN_VALID clears and the search for a candidate restarts. -/
  | ppsInMissing
  /-- PPS_OUT_RISE (R38). PPS_OUT rises at each whole second of the selected domain. -/
  | ppsOutRise
  /-- PPS_OUT_FALL (R38). PPS_OUT falls when PPS_OUT_WIDTH ms have passed. -/
  | ppsOutFall
  /-- TIME_SNAP (R32). A write of TIME_SNAP captures the local clock, working clock and global time at one instant into SNAP[0] to SNAP[8]. -/
  | timeSnap (m : Master)
  /-- GT_SET (R36). A write of GT_SET arms the loading of GT_SET_SEC when Karlasin is grandmaster of global time. -/
  | gtSet (m : Master)
  /-- GT_SET_LOAD (R36). At the next valid PPS_IN edge or whole local second, the armed seconds load into global time and the setting is journaled. -/
  | gtSetLoad
  /-- FRAME_ARRIVAL (R126). A frame arrives at a port's ingress staging FIFO and is timestamped, or dropped whole when the FIFO is full. -/
  | frameArrival (p : Fin 50) (f : WireFrame)
  /-- CELL_WRITE (R117). Data of an arriving frame is written into cells, taking further cells beyond the reservation or overflowing. -/
  | cellWrite (p : Fin 52)
  /-- MACSEC_ICV_CHECK (R97). The MAC cluster completes the ICV check of a held received frame, which is accepted or dropped. -/
  | macsecIcvCheck (p : Fin 48)
  /-- UNIT_DECISION (R149). A unit granted a pipeline slot is parsed, classified, shadow-checked and firewalled, and its destinations are admitted. -/
  | unitDecision (src : UnitSource) (ecc : DecisionEcc)
  /-- FRAME_TAIL (R123). The tail of a frame arrives; spare cells return, lengths are corrected, and a bad frame is dropped or stomped. -/
  | frameTail (p : Fin 52) (fcsOk : Bool) (asmErr : Bool)
  /-- FRAME_SELECT (R189). A free MAC selects the next frame by gates, shapers and weighted fair queueing, after the containment check. -/
  | frameSelect (p : Fin 52) (mac : MacKind) (ecc : EccKind)
  /-- FRAME_TRANSMIT_END (R116). A replica finishes transmission; the frame's cells are freed when its last replica has left, and its in-flight count falls. -/
  | frameTransmitEnd (p : Fin 52) (mac : MacKind)
  /-- LINK_ESTABLISHED (R85). A training T1 port establishes its link and goes UP. -/
  | linkEstablished (p : Fin 48) (signature : Nat)
  /-- RETAINED_TRAIN_TIMEOUT (R85). Retained training fails within its bound, COEF_VALID clears and full training starts. -/
  | retainedTrainTimeout (p : Fin 48)
  /-- FULL_TRAIN_TIMEOUT (R85). Full training does not establish the link within 100 ms; TRAIN_FAILS counts it and training restarts. -/
  | fullTrainTimeout (p : Fin 48)
  /-- PARTNER_SIGNATURE_CHANGE (R86). Retained training finds a different partner signature and goes straight to FULL_TRAIN. -/
  | partnerSignatureChange (p : Fin 48) (signature : Nat)
  /-- LINK_LOSS (R85). An UP port's link status turns false; queued frames are discarded and retained training starts. -/
  | linkLoss (p : Fin 48)
  /-- SERDES_LINK_UP (R87). A SerDes lane reaches block lock or completes in-band auto-negotiation and goes UP. -/
  | serdesLinkUp (k : Fin 4) (speed : Nat)
  /-- SERDES_LINK_DOWN (R87). A SerDes lane loses lock or negotiation and goes down. -/
  | serdesLinkDown (k : Fin 4)
  /-- PLCA_STATUS_CHANGE (R89). PLCA status changes on a 10BASE-T1S port, switching it between PLCA and CSMA/CD. -/
  | plcaStatusChange (p : Fin 8) (active : Bool)
  /-- BEACON_TIMEOUT (R89). A follower's beacon is absent past the Clause 148 timeout and the port falls back to CSMA/CD. -/
  | beaconTimeout (p : Fin 8)
  /-- VERIFY_RESPONSE (R93). A preemption verify response arrives and verification succeeds. -/
  | verifyResponse (p : Fin 48)
  /-- VERIFY_TIMEOUT (R93). verifyTime expires without a response; after three unanswered verify frames, verification fails. -/
  | verifyTimeout (p : Fin 48)
  /-- PORT_EVENTS_CLEAR (R361). A W1C write clears PORT_EVENTS bits and lowers the port's level source. -/
  | portEventsClear (m : Master) (p : Fin 48) (w : Word)
  /-- FDB_FLUSH (R111). A write of FDB_CTL.FLUSH starts removing learned entries, optionally matching a port and FID. -/
  | fdbFlush (m : Master) (w : Word)
  /-- FDB_FLUSH_DONE (R111). The flush completes and FLUSH_BUSY clears. -/
  | fdbFlushDone
  /-- FDB_AGEING (R111). A learned entry not hit for AGE_TIME seconds is removed. -/
  | fdbAgeing (entry : Fin 32768)
  /-- FDB_ACC_READ (R78). A write of READ reads one FDB storage entry in the selected view. -/
  | fdbAccRead (m : Master) (w : Word)
  /-- CLS_ACC_READ (R78). A write of READ reads a classifier table entry in the selected view. -/
  | clsAccRead (m : Master) (w : Word)
  /-- PROBE (R154). A write of PROBE requests a lookup of a key against RULES in the selected view. -/
  | probe (m : Master) (w : Word)
  /-- PROBE_LOOKUP (R154). The probe takes the next unfilled slot, or returns BUSY after 10 µs, and reports the winning rule. -/
  | probeLookup (slotFree : Bool)
  /-- FRAG_EXPIRY (R143). A fragment-follow entry's 50 ms lifetime ends and its storage is released. -/
  | fragExpiry (entry : Fin 2048)
  /-- SHADOW_SELFTEST (R147). In the first idle cycle after a boundary, or a withheld 256th cycle, the shadow comparator is tested. -/
  | shadowSelftest (idle : Bool) (flagged : Bool)
  /-- SHADOW_STATUS_CLEAR (R147). SP writes CLEAR to clear SELFTEST_FAULT. -/
  | shadowStatusClear (m : Master)
  /-- CONV_EXPIRY (R165). A conversation idle longer than its state's timeout is removed. -/
  | convExpiry (entry : Fin 65536)
  /-- CONV_ACC_READ (R165). A write of READ reads one conversation entry. -/
  | convAccRead (m : Master) (w : Word)
  /-- CONV_FLUSH (R165). A write of FLUSH starts emptying the conversation table; lookups return code 0 meanwhile. -/
  | convFlush (m : Master) (w : Word)
  /-- CONV_FLUSH_DONE (R165). The conversation flush completes, the table is empty and DONE sets. -/
  | convFlushDone
  /-- CONT_ACT (R169). A write of CONT_ACT with GO activates a profile, adds a cause, or is refused. -/
  | contAct (m : Master) (w : Word)
  /-- CONT_REL_RELEASE (R172). SP writes RELEASE to request a profile's release at the next boundary. -/
  | contRelRelease (m : Master) (w : Word)
  /-- CONT_REL_DENY (R172). SP writes DENY to clear REL_PEND without a release. -/
  | contRelDeny (m : Master) (w : Word)
  /-- CONT_REL_REQ (R172). A master asks for a release; REL_PEND is set and the containment-release doorbell is raised to SP. -/
  | contRelReq (m : Master) (w : Word)
  /-- RIPCORD_N_ASSERT (R169). RIPCORD_N low for more than 700 ns activates profile 0 from the ripcord latches. -/
  | ripcordNAssert (ns : Nat)
  /-- RIPCORD_N_DEASSERT (R172). RIPCORD_N returns high and the 1 ms hold begins. -/
  | ripcordNDeassert
  /-- RIPCORD_HOLD_EXPIRY (R172). RIPCORD_N has been high for 1 ms; RIPCORD_HELD clears and the RIPCORD_N cause permits release. -/
  | ripcordHoldExpiry
  /-- STREAM_FILTER_UNBLOCK (R182). A write of UNBLOCK clears a stream filter's BLOCKED state. -/
  | streamFilterUnblock (m : Master) (f : Fin 8192)
  /-- FLOW_GATE_REOPEN (R185). A write of REOPEN clears a flow gate's sticky closes. -/
  | flowGateReopen (m : Master) (g : Fin 1024)
  /-- FLOW_GATE_ENTRY (R185). A flow gate's interval ends, the next entry takes effect and the octet count restarts. -/
  | flowGateEntry (g : Fin 1024)
  /-- TIMING_WHEEL_FIRE (R190). A wheel entry's rounds count reaches 0 and its shaper becomes eligible. -/
  | timingWheelFire (t : WheelTarget)
  /-- GATE_ENTRY_CHANGE (R195). A gate list interval ends and the next entry sets the gate states. -/
  | gateEntryChange (p : Fin 50)
  /-- MAC_HOLD_ISSUE (R200). HOLD_ADV before a Set-And-Hold-MAC entry, the preemptable MAC is held. -/
  | macHoldIssue (p : Fin 50)
  /-- GATE_SWITCH (R198). At its switch instant, the pending list replaces the operating list. -/
  | gateSwitch (p : Fin 50)
  /-- CAN_FRAME_RECEIVE (R211). A channel engine assembles a received message, which is tagged, filtered, rate-limited and listed for P50. -/
  | canFrameReceive (ch : Fin 16) (msg : BusMsg)
  /-- SECOC_VERIFY_DONE (R236). The CMAC of a held message completes, and the message is released with SEC_OK or dropped. -/
  | secocVerifyDone (ch : Fin 256)
  /-- SECOC_GENERATE_DONE (R237). The CMAC of a secured PDU completes, and the PDU is queued or discarded under revocation. -/
  | secocGenerateDone
  /-- CAN_BUS_INTEGRATED (R213). After 11 recessive bits, an enabled CAN controller joins its bus. -/
  | canBusIntegrated (ch : Fin 16)
  /-- CAN_ARBITRATION (R214). Before an arbitration attempt, the engine offers the eligible queued message with the lowest ORDER. -/
  | canArbitration (ch : Fin 16)
  /-- CAN_ARBITRATION_LOST (R214). The offered message loses arbitration and returns to the queue. -/
  | canArbitrationLost (ch : Fin 16)
  /-- CAN_BUS_ERROR (R213). A bus error updates TEC and REC and may change the error state or enter BUS_OFF. -/
  | canBusError (ch : Fin 16) (err : CanError)
  /-- CAN_TX_COMPLETE (R214). A transmitted CAN frame completes and TX_FRAMES counts it. -/
  | canTxComplete (ch : Fin 16)
  /-- RECOVER (R213). A write of RECOVER starts bus-off recovery, or is ignored outside BUS_OFF. -/
  | recover (m : Master) (ch : Fin 256)
  /-- CAN_RECOVERY_COMPLETE (R213). The 128th sequence of 11 recessive bits completes and the channel returns to ERROR_ACTIVE. -/
  | canRecoveryComplete (ch : Fin 16)
  /-- LIN_SLOT_START (R218). A LIN schedule slot begins at its first boundary; the header is sent or the empty-slot rule applies. -/
  | linSlotStart (l : Fin 8)
  /-- LIN_RESPONSE (R220). A LIN response completes and becomes an edge message, or is counted as a checksum error. -/
  | linResponse (l : Fin 8) (data : List Byte) (csum : Byte)
  /-- LIN_NO_RESP (R220). No complete response arrives within the response time; LIN_NO_RESP counts it. -/
  | linNoResp (l : Fin 8)
  /-- LIN_READBACK_MISMATCH (R220). A readback mismatch while Karlasin transmits aborts the frame. -/
  | linReadbackMismatch (l : Fin 8)
  /-- TX_TIMEOUT (R234). A queued message older than TX_TIMEOUT is discarded and the event is raised. -/
  | txTimeout (ch : Fin 256)
  /-- CH_EVENTS_CLEAR (R361). A W1C write clears CH_EVENTS bits and lowers the channel's level source. -/
  | chEventsClear (m : Master) (ch : Fin 256) (w : Word)
  /-- ACF_TUNNEL_ENDPOINT (R224). The tunnel endpoint checks a tunnel frame's sequence and walks its ACF messages into their channels. -/
  | acfTunnelEndpoint
  /-- PACKER_OPEN (R225). A free packer opens an ACF frame and takes eligible messages in ORDER. -/
  | packerOpen (b : Fin 64)
  /-- PACK_WAIT_EXPIRY (R225). PACK_WAIT passes with no eligible message, and the frame closes and takes a P50 slot. -/
  | packWaitExpiry (b : Fin 64)
  /-- BRIDGE_LOST (R227). No tunnel frame arrives on a binding for TIMEOUT ms, and its channels show BRIDGE_LOST. -/
  | bridgeLost (b : Fin 64)
  /-- FV_SAVE (R239). Every 60 s while Aloft, firmware writes the sealed freshness values to the vault blob region. -/
  | fvSave (blocks : List (Fin 64))
  /-- SEC_EVENTS_CLEAR (R361). A W1C write clears SEC_EVENTS bits and lowers its level source. -/
  | secEventsClear (m : Master) (w : Word)
  /-- EDGE_ACC_READ (R78). A write of READ reads a part of an edge policy or SECOC entry in the selected view. -/
  | edgeAccRead (m : Master) (w : Word)
  /-- REVOKE (R252). A write of REVOKE with GO is judged as DENIED, EMPTY, ACCEPTED or BUSY. -/
  | revoke (m : Master) (w : Word)
  /-- IMPORT (R251). A write of IMPORT GO verifies the tag over the shares and fills the slot, or reports the failure. -/
  | importKey (m : Master) (w : Word)
  /-- REMASK (R254). Once every REMASK_PERIOD, every READY slot's shares are re-masked with a fresh DRBG mask. -/
  | remask
  /-- ENTROPY_FAILURE (R254). An entropy-source health failure stops re-masking and reports the entropy source fault. -/
  | entropyFailure
  /-- MCJ_GO (R261). A master starts a bulk MAC job on a Bank H source range through its MCJ bank. -/
  | mcjGo (m : Master) (w : Word)
  /-- MCJ_SUSPEND (R259). A bulk job is suspended at a block boundary when higher-class work waits for its core. -/
  | mcjSuspend (m : Master)
  /-- MCJ_DONE (R261). A bulk job completes and reports its tag or its pass or fail result. -/
  | mcjDone (m : Checked Master)
  /-- ATT_GO (R262). A write of ATT_CTL.GO requests an attestation message over the nonce. -/
  | attGo (m : Master) (w : Word)
  /-- ATTESTATION_DONE (R262). The 168-byte attestation result appears in ATT_RESP. -/
  | attestationDone
  /-- LC_REQ (R263). A life-cycle change request is refused, or journaled, fused and followed by a wipe and a life-cycle reset. -/
  | lcReq (m : Master) (w : Word)
  /-- VK_REVOKE (R243). SP sets the revoke fuse of one envelope verification key on a host request, unless none would remain. -/
  | vkRevoke (m : Master) (key : Fin 4)
  /-- TAMPER (R265). TAMPER_N or a glitch detector zeroes every key share and the secure sub-bank and sets TAMPER_LATCH. -/
  | tamper (cause : TamperCause) (ns : Nat)
  /-- TAMPER_CLR (R265). SP writes TAMPER_CLR and firmware restores the vault as at cold boot. -/
  | tamperClr (m : Master) (w : Word)
  /-- SB_RETIRE (R270). A retire of the oldest full block is checked against SB_RETIRE_HASH, and the block is erased and RETIRE appended. -/
  | sbRetire (m : Master) (w : Word)
  /-- SB_READ (R266). A write of GO requests the scoresheet entry RD_SEQ. -/
  | sbRead (m : Master) (w : Word)
  /-- SB_READ_DONE (R266). The requested entry is in RD_DATA with its status, and DONE sets. -/
  | sbReadDone
  /-- DESCENT_REQ (R277). A write of DESCENT_REQ asks for descent, optionally with REQ_PARKED or FORCE. -/
  | descentReq (m : Master) (w : Word)
  /-- HOST_HOLD (R277). A write of HOST_HOLD blocks the agreement, and writing 1 during descent aborts it. -/
  | hostHold (m : Master) (hold : Bool)
  /-- NETWORK_IDLE (R276). No keep-awake filter of a network has matched for NM_TIMEOUT; the network turns idle and any suppression ends. -/
  | networkIdle (n : Fin 32)
  /-- MAX_AWAKE (R278). A network's awake episode reaches MAX_AWAKE; it becomes suppressed and a MAX_AWAKE entry is journaled. -/
  | maxAwake (n : Fin 32)
  /-- NET_CLR (R278). A write of NET_CLR ends the suppression of the named networks. -/
  | netClr (m : Master) (w : Word)
  /-- DESCENT_DRAIN (R280). NOTIFY_TEMPOS elapse, DRAIN starts and ingress is closed. -/
  | descentDrain
  /-- DESCENT_LINKS (R281). Queues drain or DRAIN_TEMPOS elapse; TC10 sleep is requested, engines leave their buses and decoders are armed. -/
  | descentLinks
  /-- TC10_SLEEP_ACK (R281). A port acknowledges the TC10 sleep request and enters TC10 sleep. -/
  | tc10SleepAck (p : Fin 48)
  /-- DESCENT_SAVE (R282). Acknowledgements are in, or the LINKS bound elapses; the save jobs are requested. -/
  | descentSave
  /-- SAVE_TIMEOUT (R279). SAVE_LIMIT elapses in SAVE and the descent aborts. -/
  | saveTimeout
  /-- CUTOFF (R283). With the save jobs complete, the switch die presents CUTOFF and the arbiter refuses it or accepts the point of no return. -/
  | cutoff
  /-- DESCENT_ABORT (R284). At the boundary after an abort cause, ingress reopens, engines rejoin and ports wake. -/
  | descentAbort
  /-- CUTOFF_COMPLETE (R285). The rails are down and the device enters Moored or Parked, or wakes at once if the wake latch is set. -/
  | cutoffComplete
  /-- SELECTIVE_WAKE (R287). A decoder detects a WUP, a matching WUF or an error count above 31 and registers a wake event. -/
  | selectiveWake (ch : Fin 16) (kind : SwKind)
  /-- LIN_WAKE (R288). A LIN wake detector sees a dominant level over 150 µs and registers a wake event. -/
  | linWake (l : Fin 8)
  /-- WAKE_PIN (R286). A WAKE pin edge to its active level, stable for 61 µs, registers a wake event. -/
  | wakePin (pin : Fin 4)
  /-- TC10_WAKE (R289). A TC10 wake-up pulse or request on a port registers a wake event. -/
  | tc10Wake (p : Fin 48)
  /-- PARK_TIMER (R292). The Parked timer fires and wakes the device by cold boot. -/
  | parkTimer
  /-- EXCURSION (R292). MOORED_LIMIT elapses; the switch die is powered, SAVE runs with a Parked target and the device enters Parked. -/
  | excursion
  /-- WAKE_LATCH (R293). A wake event registers in the always-on domain, sets the wake latch and WAKE_CAUSE, and restarts the pre-regulator. -/
  | wakeLatch
  /-- SWITCH_DIE_RELEASE (R293). All rails are good and the switch die is released; ports start training, TC10 WUP and PE_WAKE_N are sent. -/
  | switchDieRelease
  /-- WAKE_CHECK (R415). ROM recomputes the WAKE_CHECK tags of the resident code areas, and the wake proceeds or a device reset follows. -/
  | wakeCheck
  /-- FORWARDING_READY (R293). At the first boundary after wake, forwarding starts, CAN integrates, LIN starts and captured WUF frames are presented. -/
  | forwardingReady
  /-- MOORED_SCRUB (R273). A retention scrub pass reads, corrects and rewrites retained words in Moored. -/
  | mooredScrub (errs : List RetError)
  /-- VBAT_LOSS (R274). VBAT below 6 V for over 10 µs puts the device Off. -/
  | vbatLoss
  /-- VBAT_LEVEL_CHANGE (R430). VBAT crosses 9 V or 60 V, and LOW_VBAT or HIGH_VBAT changes. -/
  | vbatLevelChange (cv : Nat)
  /-- LOCKSTEP_INJECTION (R302). In the first 64 cycles after a boundary, one checker bit is inverted to test the comparator. -/
  | lockstepInjection (flagged : Bool)
  /-- CORE_MISMATCH (R304). A lockstep mismatch, comparator fault or delay-register fault fences and holds the safety pair. -/
  | coreMismatch (kind : MismatchKind)
  /-- SP_WATCHDOG (R305). SP has not serviced its watchdog for 4 tempos and a SAFE_STATE fault is recorded. -/
  | spWatchdog
  /-- GC_WATCHDOG (R306). A general core's watchdog expires; the core is held and its jobs move at the next boundary. -/
  | gcWatchdog (c : Fin 4)
  /-- CORE_CTL_RELEASE (R306). SP writes RELEASE for a held general core with an acknowledged record, and the core restarts. -/
  | coreCtlRelease (m : Master) (w : Word)
  /-- BANK_ACCESS (R316). A master's bank access is granted, checked against the BANKS regions and performed. -/
  | bankAccess (m : BusMaster) (bank : Bank) (off : Nat) (op : BankOp) (ecc : BankEcc) (waiting : List BusMaster)
  /-- ATOMIC_ADD (R315). An atomic add writes the wrapped sum over two bank cycles and returns the old value. -/
  | atomicAdd (m : BusMaster) (bank : Bank) (off : Nat) (wide : Bool) (v : Granted (BitVec 64))
  /-- ATOMIC_SWAP (R315). An atomic swap writes the operand over two bank cycles and returns the old value. -/
  | atomicSwap (m : BusMaster) (bank : Bank) (off : Nat) (wide : Bool) (v : Granted (BitVec 64))
  /-- PATROL_SCRUB (R314). A patrol scrub pass reads, corrects and rewrites every bank word while Aloft. -/
  | patrolScrub (bank : Bank) (errs : List ScrubError)
  /-- DBG_POLL (R350). A DBG_ACCESS poll returns the outcome of the previous request. -/
  | dbgPoll
  /-- DBG_READ (R350). A DBG_ACCESS read of control space, allowed by life-cycle state. -/
  | dbgRead (addr : Nat)
  /-- DBG_WRITE (R350). A DBG_ACCESS write of control space, logged for replay while halted. -/
  | dbgWrite (addr : Nat) (v : Word)
  /-- DBG_HALT (R307). A core control halt stops a core or the safety pair after the same instruction. -/
  | dbgHalt (c : Fin 5)
  /-- DBG_RESUME (R307). A core control resume replays the log into the checker and resumes execution. -/
  | dbgResume (c : Fin 5)
  /-- DBG_STEP (R307). A core control step halts after one instruction. -/
  | dbgStep (c : Fin 5)
  /-- TAP_RESET (R349). TRST_N, or five TCK cycles with TMS high, resets the TAP. -/
  | tapReset
  /-- EXTEST (R349). The EXTEST instruction drives the boundary-scan cells. -/
  | extest
  /-- IDCODE (R349). The IDCODE instruction selects the identity register. -/
  | idcode
  /-- SAMPLE_PRELOAD (R349). The SAMPLE/PRELOAD instruction samples or preloads the boundary-scan chain. -/
  | samplePreload
  /-- BYPASS (R349). The BYPASS instruction, or a forbidden one, selects the bypass register. -/
  | bypass
  /-- HOST_INTERFACE_RESET (R323). PERST_N assertion, hot reset or FLR resets the ring registers, MSI-X and host semaphores, and ends host staging ownership. -/
  | hostInterfaceReset (kind : HostResetKind)
  /-- PERST_N_RISE (R407). PERST_N rises; link training starts, and the device wakes when PERST_WAKE is set. -/
  | perstNRise
  /-- P48_STATE_CHANGE (R324). Link, D-state or Bus Master Enable changes make P48 UP or not UP. -/
  | p48StateChange (st : LinkState)
  /-- D3HOT_ENTRY (R342). The configuration write to D3hot stops fetching, completes writes begun and then completes. -/
  | d3hotEntry (pm : PmWrite)
  /-- D0_RETURN (R342). The return to D0 sends every unmasked pending vector within 1 µs. -/
  | d0Return
  /-- MSIX_ENABLE (R359). MSI-X becomes enabled and pending host-target sources send their vectors. -/
  | msixEnable
  /-- REGISTER_WRITE (R447). A control-space write to a register with no row of its own is checked for size, reach, partition and reserved offset, then performed. -/
  | registerWrite (m : Asking) (addr : Nat) (size : Nat) (v : Word)
  /-- CMT_WRITE (R66). A write to a CMT field goes into the staging set, or is refused from a non-owner. -/
  | cmtWrite (m : Master) (addr : Nat) (v : Word)
  /-- STAGE_CLAIM (R66). A write of CLAIM makes the originator the owner when there is none. -/
  | stageClaim (m : Master)
  /-- STAGE_RELEASE (R66). The owner ends ownership and keeps the set. -/
  | stageRelease (m : Master)
  /-- STAGE_DISCARD (R66). The owner empties the set and ends ownership. -/
  | stageDiscard (m : Master)
  /-- STAGE_PUSH (R67). A push registers one item with its CRC, or is refused. -/
  | stagePush (m : Master) (kind : Fin 4)
  /-- CMT_PEEK (R69). A read through CMT_PEEK returns the staged or current value of a field without changing it. -/
  | cmtPeek (m : Master) (addr : Nat)
  /-- COMMIT_REQ (R70). A commit request is refused with BUSY or EMPTY, or locks the set and takes a free slot or waits. -/
  | commitReq (m : Master)
  /-- COMMIT_ARM (R72). Preparation completes with its journal entry, the commit is armed and its T+0 is fixed; a failure frees the slot. -/
  | commitArm
  /-- COMMIT_CANCEL (R73). A CANCEL ends the commit with CANCELLED, or is ignored and sets LATE_CANCEL. -/
  | commitCancel (m : Master)
  /-- EPOCH_LATCH (R78). A master latches the current slot for its table reads. -/
  | epochLatch (m : Master)
  /-- EPOCH_LATCH_RELEASE (R78). A master releases its latch, which may free the slot. -/
  | epochLatchRelease (m : Master)
  /-- SLOT_FREE (R76). A draining slot reaches count zero with no latch and frees; a waiting commit begins preparation. -/
  | slotFree (slot : Fin 4)
  /-- DRAIN_LIMIT (R76). A slot has drained for DRAIN_LIMIT tempos; its units are discarded, latches released and the slot freed. -/
  | drainLimit (slot : Fin 4)
  /-- GC_OUTBOUND_WRITE (R329). A GC write through an outbound window is posted or acknowledged, or refused into the ledger. -/
  | gcOutboundWrite (c : Fin 4) (addr : Nat) (data : List Byte) (stalled : Bool)
  /-- GC_OUTBOUND_READ (R328). A GC read of host memory through a window is sent, or refused with a bus error. -/
  | gcOutboundRead (c : Fin 4) (addr len : Nat) (stalled : Bool)
  /-- STALEMATE_RETRY (R331). A yielded device non-posted request is retried after 1 µs. -/
  | stalemateRetry (c : Fin 5) (stalled : Bool)
  /-- SEM_EXCLUSIVE_LOAD (R332). A GC exclusive load through a window takes SEM[s], or waits for it. -/
  | semExclusiveLoad (c : Fin 4) (addr : Nat) (len : Yielding Nat)
  /-- SEM_EXCLUSIVE_STORE (R332). The matching exclusive store succeeds as an acknowledged write if the core holds SEM[s], and releases it. -/
  | semExclusiveStore (c : Fin 4) (addr : Nat) (data : Yielding (List Byte))
  /-- SEM_WAIT_TIMEOUT (R332). After 10 µs of waiting, the load completes and its store fails. -/
  | semWaitTimeout (c : Yielding (Fin 4))
  /-- SEM_HOLD_TIMEOUT (R332). A GC core holding SEM[s] for 10 µs without storing loses it. -/
  | semHoldTimeout (c : Fin 4)
  /-- SEM_TAKE (R333). The host or SPI port takes SEM[s] if it is free. -/
  | semTake (m : Master) (sem : Fin 32)
  /-- SEM_RELEASE (R333). The holder frees SEM[s]. -/
  | semRelease (m : Master) (sem : Fin 32)
  /-- LEDGER_READ (R334). A read of the ledger CODE register returns and removes the originator's oldest entry. -/
  | ledgerRead (m : Master)
  /-- RING_ENABLE (R337). A write of EN 0 to 1 resets HEAD, TAIL, PHASE and the count and clears STOPPED. -/
  | ringEnable (m : Master) (r : Fin 64) (w : Word)
  /-- RING_TAIL (R337). A write of TAIL posts descriptors, read modulo the ring size. -/
  | ringTail (m : Master) (r : Fin 64) (w : Word) (descs : List Descriptor)
  /-- TX_FETCH (R339). HB fetches a transmit descriptor and frame by weighted round-robin when the P48 staging FIFO has room. -/
  | txFetch (stalled : Bool)
  /-- TX_FETCH_DONE (R339). The descriptor and frame read complete; the frame enters P48, or the descriptor is consumed with BAD_DESC or READ_ERR. -/
  | txFetchDone (result : FetchResult)
  /-- TX_COMPLETION (R339). A transmit completion is written after the fetch, or after the cells free when TS_REQ is set. -/
  | txCompletion (r : Fin 64)
  /-- MOD_TIMER (R340). MOD_TIMER µs pass after a ring's first unsignalled completion and its vector falls due, leaving L1 if needed. -/
  | modTimer (r : Fin 64)
  /-- PE_WAKE_RELEASE (R344). PE_WAKE_N is released 1 s after assertion, or at DL_Active or a falling PERST_N. -/
  | peWakeRelease
  /-- SPI_WRITE (R346). The SPI WRITE opcode writes words to control space. -/
  | spiWrite (addr : Nat) (words : List Word)
  /-- SPI_READ (R347). The SPI READ opcode returns a sync and words of control space, or an error sync. -/
  | spiRead (addr : Nat) (n : Nat)
  /-- H_WRITE (R345). The SPI H_WRITE opcode writes words to Bank H. -/
  | hWrite (off : Nat) (words : Granted (List Word))
  /-- H_READ (R345). The SPI H_READ opcode returns a sync and words of Bank H. -/
  | hRead (off : Nat) (n : Granted Nat)
  /-- STATUS (R345). The SPI STATUS opcode returns READY, interrupt, LAST_ERR and recovery bits and clears LAST_ERR. -/
  | spiStatus
  /-- SPI_UNKNOWN_OPCODE (R345). An unknown or disabled opcode is ignored until MSPI_CS_N rises. -/
  | spiUnknownOpcode (op : Byte)
  /-- SPI_ABORT (R346). MSPI_CS_N rises before the last byte; whole words are performed and ABORTS counts the transaction. -/
  | spiAbort (w : Option SpiWriteOp) (whole : Nat)
  /-- DOORBELL (R354). A write of DOORBELL raises a permitted source, or is refused. -/
  | doorbell (m : Master) (w : Word)
  /-- CLAIM_N (R360). A read of CLAIM_N returns and activates the lowest enabled pending normal source. -/
  | claimN (m : Master)
  /-- CLAIM_F (R360). A read of CLAIM_F returns and activates the lowest enabled pending fast source. -/
  | claimF (m : Master)
  /-- COMPLETE_N (R357). A write of COMPLETE_N completes a normal source, and the level relay rechecks its level. -/
  | completeN (m : Master) (w : Word)
  /-- COMPLETE_F (R357). A write of COMPLETE_F completes a fast source. -/
  | completeF (m : Master) (w : Word)
  /-- SRC_CFG_EN (R356). The source's target writes EN, and setting it delivers a pending source. -/
  | srcCfgEn (m : Master) (n : Fin 2048) (en : Bool)
  /-- FC_ACK (R366). SP acknowledges a record, which is removed while the records behind it move up. -/
  | fcAck (m : Master) (w : Word)
  /-- OVF_ACK (R366). SP clears the overflow state of the fault collector. -/
  | ovfAck (m : Master)
  /-- FAULT_ESCALATION (R367). A CONTAIN record or overflow reaches its deadline unacknowledged and escalates to SAFE_STATE. -/
  | faultEscalation
  /-- SNAP_CTL_REQ (R378). A write of REQ requests a freeze at the next boundary, joining one already pending. -/
  | snapCtlReq (m : Master)
  /-- DUMP_CAPTURE (R380). At a boundary whose number is a multiple of DUMP_PERIOD, a dump is captured or skipped. -/
  | dumpCapture
  /-- DUMP_WRITE_DONE (R380). The last dump record and its completion are written to DUMP_RING. -/
  | dumpWriteDone
  /-- CR_CTL_NOW (R382). SP writes NOW to request a central reader copy at the next boundary. -/
  | crCtlNow (m : Master)
  /-- IMG_ERASE (R389). An ERASE of the inactive slot starts. -/
  | imgErase (m : Master)
  /-- IMG_ERASE_DONE (R389). The erase of the inactive slot completes. -/
  | imgEraseDone
  /-- IMG_WRITE (R389). A WRITE programs bytes from Bank H into the inactive slot, or is refused. -/
  | imgWrite (m : Master)
  /-- IMG_WRITE_DONE (R389). The flash programming of a WRITE completes. -/
  | imgWriteDone
  /-- IMG_VERIFY (R390). VERIFY checks the inactive slot's header, digest, signature, envelope and compatibility. -/
  | imgVerify (m : Master)
  /-- IMG_VERIFY_DONE (R390). The verification completes and sets VERIFIED, or reports the failing check. -/
  | imgVerifyDone
  /-- CASTLE (R392). CASTLE is accepted or refused, and an accepted castling enters SPLIT at its T+0. -/
  | castle (m : Master)
  /-- CASTLING_LOAD_DONE (R392). The new parts are copied with matching digests, and new firmware starts on GC[2] and GC[3]. -/
  | castlingLoadDone (digestsOk : Bool)
  /-- SP_WINDOW_START (R392). At the boundary after the flip, GC[0] and GC[1] start the new image and the safety pair stops its old code. -/
  | spWindowStart
  /-- SP_READY (R395). New SP firmware signals ready; at the next boundary PREFER is programmed and the CASTLING entry written. -/
  | spReady
  /-- SP_WINDOW_EXPIRY (R395). The eighth boundary of the SP window passes without ready, and the SP watchdog starts counting. -/
  | spWindowExpiry
  /-- CASTLING_TIMEOUT (R396). 4,096 tempos pass from SPLIT without a flip, and the castling is abandoned. -/
  | castlingTimeout
  /-- IMG_ABORT (R396). ABORT abandons a castling before its flip, or is refused after it. -/
  | imgAbort (m : Master)
  /-- IMG_RECOVER (R389). HB or SP requests the recovery reset at the next boundary. -/
  | imgRecover (m : Master)
  /-- RECOVERY_ERASE (R399). The mailbox ERASE command erases the named slot. -/
  | recoveryErase (slotB : Bool)
  /-- RECOVERY_WRITE (R399). The mailbox WRITE command programs the data buffer into the named slot. -/
  | recoveryWrite (slotB : Bool) (off : Nat) (len : Nat)
  /-- RECOVERY_VERIFY (R399). The mailbox VERIFY command verifies the named slot without the compatibility check. -/
  | recoveryVerify (slotB : Bool)
  /-- RECOVERY_BOOT (R399). The mailbox BOOT command programs PREFER of a verified slot and cold boots, or returns NOT_VERIFIED. -/
  | recoveryBoot (slotB : Bool)
  /-- POWER_ON (R401). VBAT becomes valid and the always-on domain and pre-regulator start. -/
  | powerOn
  /-- RAILS_GOOD (R434). The supply rails come up in order and the switch die is released with the straps sampled. -/
  | railsGood (straps : Straps)
  /-- MEMORY_INIT_DONE (R402). Core PLLs lock and memories are zeroed, so ROM starts the image pass; a failure halts the switch die. -/
  | memoryInitDone (fail : MemInitFail)
  /-- IMAGE_PASS_DONE (R406). An image pass over one slot completes; the image is accepted, or the next pass or recovery mode follows. -/
  | imagePassDone (keyCopies : List (Fin 2)) (saves : List (Fin 64))
  /-- CALIBRATION_DONE (R403). Self-calibration completes, and a port or channel that failed stays DISABLED. -/
  | calibrationDone (ports : List (Fin 48)) (channels : List (Fin 16))
  /-- RESET_N_ASSERT (R411). RESET_N low holds the switch die in reset, with the pins in reset states and wakes latched. -/
  | resetNAssert (ns : Nat)
  /-- RESET_N_RELEASE (R411). RESET_N rises and a cold boot follows from the release of the switch die. -/
  | resetNRelease (straps : Straps)
  /-- RESET_REQ (R413). A write of 0xB007 to RESET_REQ.KEY by a permitted master starts a software reset. -/
  | resetReq (m : Master) (w : Word)
  /-- THERMAL_TRIP (R443). A sensor reads 165 °C or more for 100 µs, and the device is held as under RESET_N. -/
  | thermalTrip
  /-- THERMAL_TRIP_CLEAR (R443). Every sensor has read 130 °C or less for 1 s, and the device cold boots. -/
  | thermalTripClear
  /-- REGISTER_READ (R11). A control-space read with behaviour of its own: an RC field is returned and zeroed, a low-word read captures the high word (R9), and min and max registers reload. -/
  | registerRead (m : Asking) (addr : Nat) (size : Nat)
  /-- THERMAL_WARNING (R443). A sensor reading crosses 140 °C, setting or clearing THERM_WARN and setting THERM_SEEN. -/
  | thermalWarning (sensor : Fin 4) (temp : Int)
  /-- WAKE_PIN_RELEASE (R277). A WAKE pin with HOLD leaves its active level, removing the WAKE pin hold blocker of the sleep agreement. -/
  | wakePinRelease (pin : Fin 4)
  /-- OUTBOUND_READ_COMPLETION (R329). The completion of a GC outbound read, or of the closing read of an acknowledged write, arrives or times out, completing the core's access or returning a bus error. -/
  | outboundReadCompletion (c : Fin 4) (res : ReadCompletion)
  /-- ASPM_L1_ENTRY (R341). The idle PCIe link enters ASPM L1 or one of its substates, and HB_STATUS.ASPM changes. -/
  | aspmL1Entry (st : Fin 4)
  /-- MSIX_VECTOR_UNMASK (R340). The host clears the mask of an MSI-X vector whose pending bit is set, and the vector is sent. -/
  | msixVectorUnmask (v : Fin 80)
  /-- RECOVERY_COMMAND_DONE (R399). A recovery mailbox ERASE, WRITE or VERIFY finishes, and ROM writes STATUS done with its RESULT. -/
  | recoveryCommandDone
  /-- SYNC_INTERVAL (R31). At each logSyncInterval, on a master port or as grandmaster, firmware sends a two-step Sync and Follow_Up through P49. -/
  | syncInterval (dom : Domain) (p : Fin 48) (asGm : Bool)
  /-- DECODER_FRAME (R287). An armed selective-wake decoder sees a non-matching frame, and its error counter rises on a decoding error or falls on an error-free frame. -/
  | decoderFrame (ch : Fin 16) (err : Bool)
deriving DecidableEq, Repr

end Sys2Proof
end

