-- ==== Sys2Proof/Decode.lean ====
section
/-!
DEFINITION. The command that a word spells. Commands reach the block as events, accesses and pins, not as encoded
words: no row of the table of operations gives any bits, so no word spells a command.
-/
namespace Sys2Proof

/-- The command of an `nbits`-bit word `w`, for the rows of the table that give bits: there are none. -/
def decodeTableWord (_nbits _w : Nat) : Option Instr := none

end Sys2Proof
end

