-- ==== Sys2Proof/Config.lean ====
section
/-!
DEFINITION. What an implementation or a cited standard fixes and this manual does not restate: the
cryptographic functions, factory data, firmware cost bounds, and the free values the manual leaves
open. Every constant is opaque, so no proof can see a value, and a statement holds for all of them.
-/
namespace Sys2Proof.Config

/-- Fresh values the manual leaves open, numbered by the state's counter. [DESIGN CHOICE, log 4] -/
opaque free : Nat → Nat

/-- SHA-256 (FIPS 180-4, cited by R51). [DESIGN CHOICE, log 6] -/
opaque sha256 : List Byte → List Byte

/-- AES-CMAC under a key (NIST SP 800-38B, cited by R4). [DESIGN CHOICE, log 6] -/
opaque cmac : (key : List Byte) → (msg : List Byte) → List Byte

/-- HMAC-SHA-256 under a key. [DESIGN CHOICE, log 6] -/
opaque hmac : (key : List Byte) → (msg : List Byte) → List Byte

/-- AES-GCM protection of a MACsec frame (IEEE 802.1AE-2018): secured bytes and ICV from key, nonce,
associated data and plain text. [DESIGN CHOICE, log 6] -/
opaque gcmSeal : (key nonce aad plain : List Byte) → List Byte × List Byte

/-- AES-GCM opening: the plain text when the ICV verifies. [DESIGN CHOICE, log 6] -/
opaque gcmOpen : (key nonce aad secured icv : List Byte) → Option (List Byte)

/-- ECDSA P-256 verification (FIPS 186-4, cited by R51): public key number, digest, signature. [DESIGN CHOICE, log 6] -/
opaque ecdsaVerify : (keyId : Nat) → (digest sig : List Byte) → Bool

/-- Verification of a firmware signature under the ROM key FK0 or FK1 (R405). [DESIGN CHOICE, log 6] -/
opaque fwVerify : (keyId : Nat) → (digest sig : List Byte) → Bool

/-- The device root key in OTP (R242). [DESIGN CHOICE, log 7] -/
opaque rootDev : List Byte

/-- The customer root key in OTP, when programmed (R242). [DESIGN CHOICE, log 7] -/
opaque rootCust : List Byte

/-- The bound firmware computes for a job's core time from its kind and size (R46). [DESIGN CHOICE, log 7] -/
opaque jobCost : JobKind → (size : Nat) → Nat

/-- The code of JOB_TOO_LARGE in ATT_CTL.RESULT (R353), whose table gives none. [DEDUCED, log 120] -/
opaque attTooLarge : Nat

/-- The state that old firmware carries over to new firmware at a castling (R393), by the number of the castling.
[DEDUCED, log 111] -/
opaque carriedState : Nat → List Byte

/-- How many ns a DBG_ACCESS request made at a local instant is in progress for (R350). [DEDUCED, log 29] -/
opaque dbgTime : Nat → Nat

/-- How many cells the boundary-scan register has (R349). [DEDUCED, log 29] -/
opaque scanCells : Nat

/-- The manufacturer identity held in factory OTP (R349). [DESIGN CHOICE, log 7] -/
opaque manufacturerId : Nat

/-- The body of a gPTP message firmware sends (IEEE 802.1AS-2020, cited by R31), from the port, the domain, the
sequence number, whether it is the Follow_Up, and the local time at which it is sent. [PRESUMED, log 8] -/
opaque gptpBody : (port dom seq : Nat) → (followUp : Bool) → (time : Nat) → List Byte

/-- The pad that blinds an imported slot's two shares in flash, derived from BLOB_SEAL by slot and GEN (R256).
[DESIGN CHOICE, log 135] -/
opaque blobPad : (key : List Byte) → (slot gen : Nat) → List Byte

/-- The 16-byte device UID in OTP (R243). [DESIGN CHOICE, log 7] -/
opaque uid : List Byte

end Sys2Proof.Config
end

