-- ==== Sys2Proof/Machine/Bits.lean ====
section
/-!
DEFINITION. Bit fields, byte orders and small arithmetic shared by every chapter's meanings.
Control-space registers, ring descriptors and the envelope are little-endian (R6, R50); multi-byte
fields on the wire are in network byte order (R6).
-/
namespace Sys2Proof.Machine

/-- The `w`-bit field of `v` whose least significant bit is `lsb`. -/
def bitsAt (v lsb w : Nat) : Nat := (v >>> lsb) % 2 ^ w

/-- Bit `i` of `v`. -/
def bitAt (v i : Nat) : Bool := v.testBit i

/-- `v` with its `w`-bit field at `lsb` replaced by `x`. -/
def setBits (v lsb w x : Nat) : Nat :=
  v - (bitsAt v lsb w) * 2 ^ lsb + (x % 2 ^ w) * 2 ^ lsb

/-- A truth value as a register bit. -/
def b2n (b : Bool) : Nat := if b then 1 else 0

/-- Little-endian value of a byte string. -/
def leNat : List Byte → Nat
  | [] => 0
  | b :: bs => b.toNat + 256 * leNat bs

/-- Big-endian value of a byte string. -/
def beNat (bs : List Byte) : Nat := leNat bs.reverse

/-- The low `n` bytes of `v`, least significant first. -/
def leBytes : Nat → Nat → List Byte
  | 0, _ => []
  | n + 1, v => BitVec.ofNat 8 v :: leBytes n (v / 256)

/-- The low `n` bytes of `v`, most significant first. -/
def beBytes (n v : Nat) : List Byte := (leBytes n v).reverse

/-- `n` bytes of a string from offset `o`; bytes past its end read as zero. -/
def slice (bs : List Byte) (o n : Nat) : List Byte :=
  (List.range n).map fun i => (bs[o + i]?).getD 0

/-- Little-endian field of a byte string. -/
def leAt (bs : List Byte) (o n : Nat) : Nat := leNat (slice bs o n)

/-- Big-endian field of a byte string. -/
def beAt (bs : List Byte) (o n : Nat) : Nat := beNat (slice bs o n)

/-- One byte of a byte string as a number. -/
def u8 (bs : List Byte) (o : Nat) : Nat := ((bs[o]?).getD 0).toNat

/-- Are the `n` bytes from `o` all zero? -/
def allZero (bs : List Byte) (o n : Nat) : Bool := (slice bs o n).all (· == 0)

/-- `n` zero bytes. -/
def zeros (n : Nat) : List Byte := List.replicate n 0

/-- The two's complement value of a `w`-bit number. -/
def signed (w v : Nat) : Int := if v % 2 ^ w < 2 ^ (w - 1) then (v % 2 ^ w : Int) else (v % 2 ^ w : Int) - 2 ^ w

/-- A signed value kept in a `w`-bit field. -/
def unsigned (w : Nat) (i : Int) : Nat := (i % (2 ^ w : Int)).toNat

/-- A signed value held within a bound. -/
def clampInt (lo hi i : Int) : Int := if i < lo then lo else if hi < i then hi else i

/-- Divide rounding up. -/
def divUp (a b : Nat) : Nat := (a + b - 1) / b

/-- Round up to a multiple. -/
def roundUp (a m : Nat) : Nat := divUp a m * m

/-- The indices of the bits of `v` set below `n`. -/
def bitList (v n : Nat) : List Nat := (List.range n).filter fun i => v.testBit i

/-- The last element of a list that meets a test, if any. -/
def findLast? {α : Type} (p : α → Bool) (l : List α) : Option α := l.reverse.find? p

/-- The entry of a list with the least key, the first of equal ones. -/
def minBy {α : Type} (key : α → Nat) : List α → Option α
  | [] => none
  | x :: xs =>
    match minBy key xs with
    | none => some x
    | some y => if key y < key x then some y else some x

/-- Replace the element at a position. -/
def setAt {α : Type} : List α → Nat → α → List α
  | [], _, _ => []
  | _ :: xs, 0, v => v :: xs
  | x :: xs, n + 1, v => x :: setAt xs n v

/-- Remove the element at a position. -/
def removeAt {α : Type} : List α → Nat → List α
  | [], _ => []
  | _ :: xs, 0 => xs
  | x :: xs, n + 1 => x :: removeAt xs n

/-- `n` times `f` applied to each index in turn, from index `i` up. -/
def forIdx {σ : Type} (n : Nat) (f : Nat → σ → σ) (s : σ) : σ :=
  (List.range n).foldl (fun st i => f i st) s

/-- `f` applied when `c` holds. -/
def when {σ : Type} (c : Bool) (f : σ → σ) (s : σ) : σ := if c then f s else s

/-- One step of CRC-32 over a byte, least significant bit first (R453). -/
def crc32Bits : Nat → Nat → Nat
  | 0, c => c
  | n + 1, c => crc32Bits n (if c % 2 = 1 then (c >>> 1) ^^^ 0xEDB88320 else c >>> 1)

/-- The register of the reflected CRC-32 of polynomial 0x04C1_1DB7 run over bytes from `c`. -/
def crc32From (c : Nat) (bs : List Byte) : Nat :=
  bs.foldl (fun c b => crc32Bits 8 (c ^^^ b.toNat)) c

/-- The CRC-32 of a byte string: initial value and final inversion all ones (R453). -/
def crc32 (bs : List Byte) : Nat := crc32From 0xFFFFFFFF bs ^^^ 0xFFFFFFFF

end Sys2Proof.Machine
end

