-- ==== Sys2Proof/Machine/RegMap.lean ====
section
/-!
DEFINITION. The control-space register map: every register field the manual's field tables list, each
with its offset, bit range, access type and Reset value (R11, R12). A field of 64 or 96 bits occupies
consecutive registers, low word first (R9).
-/
namespace Sys2Proof.Machine

/-- Access types of a register field (R11). -/
inductive FTy where
  | ro | rw | wo | w1c | rc | sp | cmt
deriving DecidableEq, Repr

/-- A register field. `bank` is the accessing master's or originator's number for a banked register
and 0 elsewhere; `addr` is the control-space offset of its (first) register. -/
structure Fld where
  bank : Nat
  addr : Nat
  lsb : Nat
  width : Nat
  ty : FTy
  reset : Nat
deriving DecidableEq, Repr

/-- The number a field is stored under. -/
def Fld.key (f : Fld) : Nat := (f.bank * 2 ^ 24 + f.addr) * 32 + f.lsb

/-- PORT_MODE.TYPE of a port, fixed by the silicon (R18, R104). -/
def portTypeCode (p : Nat) : Nat :=
  if p < 12 then 0 else if p < 16 then 1 else if p < 32 then 2 else if p < 40 then 3 else 4

/-- Size of bank `k` in KiB: S, G, H, T (R311). -/
def bankSizeKiB (k : Nat) : Nat :=
  if k = 0 then 2048 else if k = 1 then 8192 else if k = 2 then 4096 else 12288

/-- Sources the manual uses (R355). -/
def srcUsed (n : Nat) : Bool :=
  n == 0 || n == 2 || n == 3 || n == 8 || n == 9 || (16 ≤ n && n ≤ 21) || (24 ≤ n && n ≤ 34) ||
    (64 ≤ n && n ≤ 367) || (1024 ≤ n && n ≤ 2047)

/-- Firmware doorbells, which FAULT does not route (R355). -/
def srcFirmware (n : Nat) : Bool := 1024 ≤ n && n ≤ 2031

/-- Sources whose routing is fixed (R355). -/
def srcFixed (n : Nat) : Bool := n == 0 || n == 2 || n == 3 || (24 ≤ n && n ≤ 34)

/-- Level sources (R355, R361). -/
def srcLevel (n : Nat) : Bool := n == 19 || (64 ≤ n && n ≤ 367)

/-- Reset value of EN: a used source is enabled; a firmware doorbell is set by firmware. [DESIGN CHOICE, log 80] -/
def srcEnReset (n : Nat) : Nat := b2n (srcUsed n && !srcFirmware n)

/-- Default class: 1 fast for sources 0 and 9 (R355). [DESIGN CHOICE, log 80] -/
def srcClassReset (n : Nat) : Nat := b2n (n == 0 || n == 9)

/-- Default target, coded as the FAULT source routing; 7 none (R355). [DESIGN CHOICE, log 80] -/
def srcTargetReset (n : Nat) : Nat :=
  if !srcUsed n || srcFirmware n then 7
  else if n == 0 || n == 2 || n == 3 then 0
  else if n == 25 then 6
  else if 26 ≤ n && n ≤ 29 then n - 25
  else if 31 ≤ n && n ≤ 34 then n - 30
  else 5

/-- Default event vector above 64 for the host target (R355). -/
def srcVectorReset (n : Nat) : Nat :=
  if n == 8 then 0 else if n == 9 then 1 else if 16 ≤ n && n ≤ 21 then n - 14
  else if n == 24 then 8 else if n == 30 then 9
  else if 64 ≤ n && n ≤ 111 then 10 else if 112 ≤ n && n ≤ 367 then 11
  else if 2032 ≤ n && n ≤ 2047 then 15 else 0

/-- SRC_CFG.FIXED of a source. -/
def srcFixedReset (n : Nat) : Nat := b2n (srcFixed n)

namespace Reg


/-! TB_CTL, offset 0x002_0000 (R452). -/

/-- TIME_SNAP, bits [0], WO. -/
def tbCtlTimeSnap : Fld := ⟨0, 0x20000, 0, 1, .wo, 0⟩
/-- GT_SET, bits [1], WO. -/
def tbCtlGtSet : Fld := ⟨0, 0x20000, 1, 1, .wo, 0⟩

/-! TB_STATUS, offset 0x002_0004 (R452). -/

/-- WC_LOCKED, bits [0], RO. -/
def tbStatusWcLocked : Fld := ⟨0, 0x20004, 0, 1, .ro, 0⟩
/-- GT_LOCKED, bits [1], RO. -/
def tbStatusGtLocked : Fld := ⟨0, 0x20004, 1, 1, .ro, 0⟩
/-- WC_GM, bits [2], RO. -/
def tbStatusWcGm : Fld := ⟨0, 0x20004, 2, 1, .ro, 0⟩
/-- GT_GM, bits [3], RO. -/
def tbStatusGtGm : Fld := ⟨0, 0x20004, 3, 1, .ro, 0⟩
/-- WC_HOLDOVER, bits [4], RO. -/
def tbStatusWcHoldover : Fld := ⟨0, 0x20004, 4, 1, .ro, 0⟩
/-- GT_HOLDOVER, bits [5], RO. -/
def tbStatusGtHoldover : Fld := ⟨0, 0x20004, 5, 1, .ro, 0⟩
/-- PPS_IN_VALID, bits [6], RO. -/
def tbStatusPpsInValid : Fld := ⟨0, 0x20004, 6, 1, .ro, 0⟩
/-- GT_SET_PEND, bits [7], RO. -/
def tbStatusGtSetPend : Fld := ⟨0, 0x20004, 7, 1, .ro, 0⟩
/-- WC_OFFSET, bits [31:16], RO. -/
def tbStatusWcOffset : Fld := ⟨0, 0x20004, 16, 16, .ro, 0⟩

/-! TEMPO_CFG, offset 0x002_0008 (R452). -/

/-- K, bits [2:0], RO. -/
def tempoCfgK : Fld := ⟨0, 0x20008, 0, 3, .ro, 2⟩
/-- WC_DOMAIN, bits [15:8], RO. -/
def tempoCfgWcDomain : Fld := ⟨0, 0x20008, 8, 8, .ro, 1⟩
/-- GT_DOMAIN, bits [23:16], RO. -/
def tempoCfgGtDomain : Fld := ⟨0, 0x20008, 16, 8, .ro, 0⟩

/-! TEMPO_BUDGET, offset 0x002_000C (R452). -/

/-- SP_FRAC, bits [7:0], RO. -/
def tempoBudgetSpFrac : Fld := ⟨0, 0x2000c, 0, 8, .ro, 160⟩
/-- GC_FRAC, bits [15:8], RO. -/
def tempoBudgetGcFrac : Fld := ⟨0, 0x2000c, 8, 8, .ro, 192⟩

/-! TEMPO_NUM_LO and TEMPO_NUM_HI, offsets 0x002_0010 and 0x002_0014 (R452). -/

/-- TEMPO_NUM, bits [31:0], RO. -/
def tempoNum : Fld := ⟨0, 0x20010, 0, 64, .ro, 0⟩

/-! TEMPO_STATS, offset 0x002_0018 (R452). -/

/-- OVERRUNS, bits [15:0], RC. -/
def tempoStatsOverruns : Fld := ⟨0, 0x20018, 0, 16, .rc, 0⟩
/-- MAX_DEFER, bits [23:16], RC. -/
def tempoStatsMaxDefer : Fld := ⟨0, 0x20018, 16, 8, .rc, 0⟩
/-- REALIGN, bits [31:24], RC. -/
def tempoStatsRealign : Fld := ⟨0, 0x20018, 24, 8, .rc, 0⟩

/-! LOG_THRESH, offset 0x002_001C, and WC_STEP_LIMIT, offset 0x002_0020 (R452). -/

/-- LOG_THRESH, bits [23:0], RO. -/
def logThresh : Fld := ⟨0, 0x2001c, 0, 24, .ro, 1000⟩
/-- WC_STEP_LIMIT, bits [23:0], RO. -/
def wcStepLimit : Fld := ⟨0, 0x20020, 0, 24, .ro, 10000⟩

/-! PPS_CFG, offset 0x002_0024 (R452). -/

/-- PPS_OUT_EN, bits [0], CMT. -/
def ppsCfgPpsOutEn : Fld := ⟨0, 0x20024, 0, 1, .cmt, 0⟩
/-- PPS_OUT_DOMAIN, bits [1], CMT. -/
def ppsCfgPpsOutDomain : Fld := ⟨0, 0x20024, 1, 1, .cmt, 0⟩
/-- PPS_OUT_WIDTH, bits [9:2], CMT. -/
def ppsCfgPpsOutWidth : Fld := ⟨0, 0x20024, 2, 8, .cmt, 100⟩
/-- PPS_IN_EN, bits [10], CMT. -/
def ppsCfgPpsInEn : Fld := ⟨0, 0x20024, 10, 1, .cmt, 0⟩
/-- PPS_IN_EDGE, bits [11], CMT. -/
def ppsCfgPpsInEdge : Fld := ⟨0, 0x20024, 11, 1, .cmt, 0⟩

/-! PPS_IN_NS, PPS_IN_SEC_LO and PPS_IN_SEC_HI, offsets 0x002_0028 to 0x002_0030 (R452). -/

/-- PPS_IN_NS, bits [29:0], RO. -/
def ppsInNs : Fld := ⟨0, 0x20028, 0, 30, .ro, 0⟩
/-- PPS_IN_SEC_LO, bits [31:0], RO. -/
def ppsInSecLo : Fld := ⟨0, 0x2002c, 0, 32, .ro, 0⟩
/-- PPS_IN_SEC_HI, bits [15:0], RO. -/
def ppsInSecHi : Fld := ⟨0, 0x20030, 0, 16, .ro, 0⟩

/-! GT_SET_SEC_LO and GT_SET_SEC_HI, offsets 0x002_0034 and 0x002_0038 (R452). -/

/-- GT_SET_SEC_LO, bits [31:0], RW. -/
def gtSetSecLo : Fld := ⟨0, 0x20034, 0, 32, .rw, 0⟩
/-- GT_SET_SEC_HI, bits [15:0], RW. -/
def gtSetSecHi : Fld := ⟨0, 0x20038, 0, 16, .rw, 0⟩

/-! SNAP[m], offsets 0x002_0040 + 4 * m for m = 0 to 8 (R452). -/

/-- NS, bits [29:0], RO. -/
def snapWcNsNs : Fld := ⟨0, 0x20040, 0, 30, .ro, 0⟩
/-- LOCKED, bits [31], RO. -/
def snapWcNsLocked : Fld := ⟨0, 0x20040, 31, 1, .ro, 0⟩
/-- SEC_LO, bits [31:0], RO. -/
def snapWcSecLo : Fld := ⟨0, 0x20044, 0, 32, .ro, 0⟩
/-- SEC_HI, bits [15:0], RO. -/
def snapWcSecHi : Fld := ⟨0, 0x20048, 0, 16, .ro, 0⟩
/-- NS, bits [29:0], RO. -/
def snapGtNsNs : Fld := ⟨0, 0x2004c, 0, 30, .ro, 0⟩
/-- LOCKED, bits [31], RO. -/
def snapGtNsLocked : Fld := ⟨0, 0x2004c, 31, 1, .ro, 0⟩
/-- SEC_LO, bits [31:0], RO. -/
def snapGtSecLo : Fld := ⟨0, 0x20050, 0, 32, .ro, 0⟩
/-- SEC_HI, bits [15:0], RO. -/
def snapGtSecHi : Fld := ⟨0, 0x20054, 0, 16, .ro, 0⟩
/-- TEMPO, bits [31:0], RO. -/
def snapTempo : Fld := ⟨0, 0x20058, 0, 32, .ro, 0⟩
/-- LOCAL, bits [31:0], RO. -/
def snapLocal : Fld := ⟨0, 0x2005c, 0, 64, .ro, 0⟩

/-! ENV_ID, offset 0x004_0000 (R79). -/

/-- ENV_SERIAL, bits [31:0], RO. -/
def envId : Fld := ⟨0, 0x40000, 0, 32, .ro, 0⟩

/-! ENV_INFO, offset 0x004_0004 (R79). -/

/-- MIN_STEP, bits [15:0], RO. -/
def envInfoMinStep : Fld := ⟨0, 0x40004, 0, 16, .ro, 0⟩
/-- SLOT_B, bits [16], RO. -/
def envInfoSlotB : Fld := ⟨0, 0x40004, 16, 1, .ro, 0⟩
/-- KEY_ID, bits [18:17], RO. -/
def envInfoKeyId : Fld := ⟨0, 0x40004, 17, 2, .ro, 0⟩
/-- LOAD_RESULT, bits [27:24], RO. -/
def envInfoLoadResult : Fld := ⟨0, 0x40004, 24, 4, .ro, 0⟩

/-! ENV_DIGEST[m], offsets 0x004_0008 + 4 * m for m = 0 to 7 (R79). -/

/-- DIGEST, bits [31:0], RO. -/
def envDigest (m : Nat) : Fld := ⟨0, 0x40008 + 0x4 * m, 0, 32, .ro, 0⟩

/-! EPOCH_STATUS, offset 0x004_0030 (R79). -/

/-- CUR, bits [1:0], RO. -/
def epochStatusCur : Fld := ⟨0, 0x40030, 0, 2, .ro, 0⟩
/-- SLOT_ST, bits [15:8], RO. -/
def epochStatusSlotSt : Fld := ⟨0, 0x40030, 8, 8, .ro, 0⟩
/-- LATCHED, bits [19:16], RO. -/
def epochStatusLatched : Fld := ⟨0, 0x40030, 16, 4, .ro, 0⟩

/-! EPOCH_SEQ, offset 0x004_0034 (R79). -/

/-- SEQ, bits [31:0], RO. -/
def epochSeq : Fld := ⟨0, 0x40034, 0, 32, .ro, 0⟩

/-! INFLIGHT[m], offsets 0x004_0040 + 4 * m for m = 0 to 3 (R79). -/

/-- COUNT, bits [19:0], RO. -/
def inflightCount (m : Nat) : Fld := ⟨0, 0x40040 + 0x4 * m, 0, 20, .ro, 0⟩
/-- DRAIN_AGE, bits [31:20], RO. -/
def inflightDrainAge (m : Nat) : Fld := ⟨0, 0x40040 + 0x4 * m, 20, 12, .ro, 0⟩

/-! STAGE_CTL, offset 0x004_0050 (R79). -/

/-- CLAIM, bits [0], WO. -/
def stageCtlClaim : Fld := ⟨0, 0x40050, 0, 1, .wo, 0⟩
/-- RELEASE, bits [1], WO. -/
def stageCtlRelease : Fld := ⟨0, 0x40050, 1, 1, .wo, 0⟩
/-- DISCARD, bits [2], WO. -/
def stageCtlDiscard : Fld := ⟨0, 0x40050, 2, 1, .wo, 0⟩
/-- PUSH, bits [3], WO. -/
def stageCtlPush : Fld := ⟨0, 0x40050, 3, 1, .wo, 0⟩
/-- KIND, bits [5:4], WO. -/
def stageCtlKind : Fld := ⟨0, 0x40050, 4, 2, .wo, 0⟩

/-! STAGE_STATUS, offset 0x004_0054 (R79). -/

/-- OWNER, bits [2:0], RO. -/
def stageStatusOwner : Fld := ⟨0, 0x40054, 0, 3, .ro, 0⟩
/-- LOCKED, bits [3], RO. -/
def stageStatusLocked : Fld := ⟨0, 0x40054, 3, 1, .ro, 0⟩
/-- ITEMS, bits [10:4], RO. -/
def stageStatusItems : Fld := ⟨0, 0x40054, 4, 7, .ro, 0⟩
/-- CMT_DIRTY, bits [11], RO. -/
def stageStatusCmtDirty : Fld := ⟨0, 0x40054, 11, 1, .ro, 0⟩
/-- REJECTS, bits [31:16], RC. -/
def stageStatusRejects : Fld := ⟨0, 0x40054, 16, 16, .rc, 0⟩

/-! STAGE_ADDR and STAGE_LEN, offsets 0x004_0058 and 0x004_005C (R79). -/

/-- ADDR, bits [20:0], RW. -/
def stageAddr : Fld := ⟨0, 0x40058, 0, 21, .rw, 0⟩
/-- LEN, bits [21:0], RW. -/
def stageLen : Fld := ⟨0, 0x4005c, 0, 22, .rw, 0⟩

/-! CMT_PEEK_ADDR and CMT_PEEK_DATA, offsets 0x004_0060 and 0x004_0064 (R79). -/

/-- ADDR, bits [23:2], RW. -/
def cmtPeekAddr : Fld := ⟨0, 0x40060, 2, 22, .rw, 0⟩
/-- DATA, bits [31:0], RO. -/
def cmtPeekData : Fld := ⟨0, 0x40064, 0, 32, .ro, 0⟩

/-! COMMIT_CTL, offset 0x004_0070 (R79). -/

/-- REQ, bits [0], WO. -/
def commitCtlReq : Fld := ⟨0, 0x40070, 0, 1, .wo, 0⟩
/-- CANCEL, bits [1], WO. -/
def commitCtlCancel : Fld := ⟨0, 0x40070, 1, 1, .wo, 0⟩

/-! COMMIT_AT_LO and COMMIT_AT_HI, offsets 0x004_0074 and 0x004_0078 (R79). -/

/-- COMMIT_AT, bits [31:0], RW. -/
def commitAt : Fld := ⟨0, 0x40074, 0, 64, .rw, 0⟩

/-! COMMIT_STATUS, offset 0x004_007C (R79). -/

/-- STATE, bits [2:0], RO. -/
def commitStatusState : Fld := ⟨0, 0x4007c, 0, 3, .ro, 0⟩
/-- LATE_CANCEL, bits [3], RO. -/
def commitStatusLateCancel : Fld := ⟨0, 0x4007c, 3, 1, .ro, 0⟩
/-- RESULT, bits [7:4], RO. -/
def commitStatusResult : Fld := ⟨0, 0x4007c, 4, 4, .ro, 0⟩
/-- SLOT, bits [9:8], RO. -/
def commitStatusSlot : Fld := ⟨0, 0x4007c, 8, 2, .ro, 0⟩
/-- ITEM, bits [15:10], RO. -/
def commitStatusItem : Fld := ⟨0, 0x4007c, 10, 6, .ro, 0⟩
/-- DETAIL, bits [31:16], RO. -/
def commitStatusDetail : Fld := ⟨0, 0x4007c, 16, 16, .ro, 0⟩

/-! COMMIT_T0_LO and COMMIT_T0_HI, offsets 0x004_0080 and 0x004_0084 (R79). -/

/-- T0, bits [31:0], RO. -/
def commitT0 : Fld := ⟨0, 0x40080, 0, 64, .ro, 0⟩

/-! COMMIT_STATS, offset 0x004_0088 (R79). -/

/-- WAITS, bits [11:0], RC. -/
def commitStatsWaits : Fld := ⟨0, 0x40088, 0, 12, .rc, 0⟩
/-- FAILS, bits [23:12], RC. -/
def commitStatsFails : Fld := ⟨0, 0x40088, 12, 12, .rc, 0⟩
/-- MAX_WAIT, bits [31:24], RC. -/
def commitStatsMaxWait : Fld := ⟨0, 0x40088, 24, 8, .rc, 0⟩

/-! EPOCH_CFG, offset 0x004_008C (R79). -/

/-- DRAIN_LIMIT, bits [15:0], CMT. -/
def epochCfg : Fld := ⟨0, 0x4008c, 0, 16, .cmt, 8192⟩

/-! EPOCH_LATCH, offset 0x004_0090, banked per master (R79). -/

/-- LATCH, bits [0], WO. -/
def epochLatchLatch (b : Nat) : Fld := ⟨b, 0x40090, 0, 1, .wo, 0⟩
/-- RELEASE, bits [1], WO. -/
def epochLatchRelease (b : Nat) : Fld := ⟨b, 0x40090, 1, 1, .wo, 0⟩
/-- SLOT, bits [3:2], RO. -/
def epochLatchSlot (b : Nat) : Fld := ⟨b, 0x40090, 2, 2, .ro, 0⟩
/-- VALID, bits [4], RO. -/
def epochLatchValid (b : Nat) : Fld := ⟨b, 0x40090, 4, 1, .ro, 0⟩

/-! DRAIN_DISCARDS, offset 0x004_0094 (R79). -/

/-- COUNT, bits [31:0], RC. -/
def drainDiscards : Fld := ⟨0, 0x40094, 0, 32, .rc, 0⟩

/-! PORT_MODE, offset B + 0x0000 (R104). -/

/-- TYPE, bits [2:0], RO. -/
def portModeType (p : Nat) : Fld := ⟨0, 0x200000 + 0x10000 * p, 0, 3, .ro, portTypeCode p⟩
/-- MODE, bits [5:3], RO. -/
def portModeMode (p : Nat) : Fld := ⟨0, 0x200000 + 0x10000 * p, 3, 3, .ro, 0⟩
/-- LEADER, bits [6], RO. -/
def portModeLeader (p : Nat) : Fld := ⟨0, 0x200000 + 0x10000 * p, 6, 1, .ro, 0⟩
/-- PREEMPT_CAP, bits [7], RO. -/
def portModePreemptCap (p : Nat) : Fld := ⟨0, 0x200000 + 0x10000 * p, 7, 1, .ro, 0⟩
/-- MACSEC_CAP, bits [8], RO. -/
def portModeMacsecCap (p : Nat) : Fld := ⟨0, 0x200000 + 0x10000 * p, 8, 1, .ro, 0⟩

/-! PORT_CTL, offset B + 0x0004 (R104). -/

/-- ADMIN_EN, bits [0], CMT. -/
def portCtlAdminEn (p : Nat) : Fld := ⟨0, 0x200004 + 0x10000 * p, 0, 1, .cmt, 0⟩
/-- PREEMPT_EN, bits [1], CMT. -/
def portCtlPreemptEn (p : Nat) : Fld := ⟨0, 0x200004 + 0x10000 * p, 1, 1, .cmt, 0⟩

/-! PORT_STATUS, offset B + 0x0008 (R104). -/

/-- LINK, bits [0], RO. -/
def portStatusLink (p : Nat) : Fld := ⟨0, 0x200008 + 0x10000 * p, 0, 1, .ro, 0⟩
/-- STATE, bits [2:1], RO. -/
def portStatusState (p : Nat) : Fld := ⟨0, 0x200008 + 0x10000 * p, 1, 2, .ro, 0⟩
/-- SPEED, bits [6:3], RO. -/
def portStatusSpeed (p : Nat) : Fld := ⟨0, 0x200008 + 0x10000 * p, 3, 4, .ro, 0⟩
/-- PLCA_ACTIVE, bits [7], RO. -/
def portStatusPlcaActive (p : Nat) : Fld := ⟨0, 0x200008 + 0x10000 * p, 7, 1, .ro, 0⟩

/-! PORT_EVENTS, offset B + 0x000C (R104). -/

/-- LINK_CHANGE, bits [0], W1C. -/
def portEventsLinkChange (p : Nat) : Fld := ⟨0, 0x20000c + 0x10000 * p, 0, 1, .w1c, 0⟩
/-- TRAIN_FAIL, bits [1], W1C. -/
def portEventsTrainFail (p : Nat) : Fld := ⟨0, 0x20000c + 0x10000 * p, 1, 1, .w1c, 0⟩
/-- PLCA, bits [2], W1C. -/
def portEventsPlca (p : Nat) : Fld := ⟨0, 0x20000c + 0x10000 * p, 2, 1, .w1c, 0⟩
/-- VERIFY_FAIL, bits [3], W1C. -/
def portEventsVerifyFail (p : Nat) : Fld := ⟨0, 0x20000c + 0x10000 * p, 3, 1, .w1c, 0⟩
/-- PN_THRESH, bits [4], W1C. -/
def portEventsPnThresh (p : Nat) : Fld := ⟨0, 0x20000c + 0x10000 * p, 4, 1, .w1c, 0⟩
/-- PN_EXHAUSTED, bits [5], W1C. -/
def portEventsPnExhausted (p : Nat) : Fld := ⟨0, 0x20000c + 0x10000 * p, 5, 1, .w1c, 0⟩

/-! TRAIN_STATUS, offset B + 0x0010 (R104). -/

/-- COEF_VALID, bits [0], RO. -/
def trainStatusCoefValid (p : Nat) : Fld := ⟨0, 0x200010 + 0x10000 * p, 0, 1, .ro, 0⟩
/-- LAST_TRAIN, bits [2:1], RO. -/
def trainStatusLastTrain (p : Nat) : Fld := ⟨0, 0x200010 + 0x10000 * p, 1, 2, .ro, 0⟩
/-- TRAIN_TIME, bits [23:8], RO. -/
def trainStatusTrainTime (p : Nat) : Fld := ⟨0, 0x200010 + 0x10000 * p, 8, 16, .ro, 0⟩
/-- TRAIN_FAILS, bits [31:24], RC. -/
def trainStatusTrainFails (p : Nat) : Fld := ⟨0, 0x200010 + 0x10000 * p, 24, 8, .rc, 0⟩

/-! PLCA_CFG, offset B + 0x0014 (P40–P47; reads zero elsewhere) (R104). -/

/-- PLCA_ID, bits [7:0], RO. -/
def plcaCfgPlcaId (l : Nat) : Fld := ⟨0, 0x480014 + 0x10000 * l, 0, 8, .ro, 0⟩
/-- PLCA_COUNT, bits [15:8], RO. -/
def plcaCfgPlcaCount (l : Nat) : Fld := ⟨0, 0x480014 + 0x10000 * l, 8, 8, .ro, 8⟩
/-- PLCA_TO, bits [23:16], RO. -/
def plcaCfgPlcaTo (l : Nat) : Fld := ⟨0, 0x480014 + 0x10000 * l, 16, 8, .ro, 32⟩
/-- BURST_CNT, bits [31:24], RO. -/
def plcaCfgBurstCnt (l : Nat) : Fld := ⟨0, 0x480014 + 0x10000 * l, 24, 8, .ro, 0⟩

/-! PREEMPT_CFG, offset B + 0x001C (R104). -/

/-- PREEMPTABLE, bits [7:0], CMT. -/
def preemptCfgPreemptable (p : Nat) : Fld := ⟨0, 0x20001c + 0x10000 * p, 0, 8, .cmt, 0⟩
/-- ADD_FRAG, bits [9:8], CMT. -/
def preemptCfgAddFrag (p : Nat) : Fld := ⟨0, 0x20001c + 0x10000 * p, 8, 2, .cmt, 0⟩
/-- VERIFY_DIS, bits [10], CMT. -/
def preemptCfgVerifyDis (p : Nat) : Fld := ⟨0, 0x20001c + 0x10000 * p, 10, 1, .cmt, 0⟩
/-- VERIFY_TIME, bits [23:16], CMT. -/
def preemptCfgVerifyTime (p : Nat) : Fld := ⟨0, 0x20001c + 0x10000 * p, 16, 8, .cmt, 10⟩

/-! PREEMPT_STATUS, offset B + 0x0020 (R104). -/

/-- VERIFY_ST, bits [2:0], RO. -/
def preemptStatusVerifySt (p : Nat) : Fld := ⟨0, 0x200020 + 0x10000 * p, 0, 3, .ro, 0⟩
/-- ACTIVE, bits [3], RO. -/
def preemptStatusActive (p : Nat) : Fld := ⟨0, 0x200020 + 0x10000 * p, 3, 1, .ro, 0⟩
/-- ASM_ERRORS, bits [31:16], RC. -/
def preemptStatusAsmErrors (p : Nat) : Fld := ⟨0, 0x200020 + 0x10000 * p, 16, 16, .rc, 0⟩

/-! MACSEC_CFG, offset B + 0x0024 (R104). -/

/-- TX_EN, bits [0], CMT. -/
def macsecCfgTxEn (p : Nat) : Fld := ⟨0, 0x200024 + 0x10000 * p, 0, 1, .cmt, 0⟩
/-- RX_EN, bits [1], CMT. -/
def macsecCfgRxEn (p : Nat) : Fld := ⟨0, 0x200024 + 0x10000 * p, 1, 1, .cmt, 0⟩
/-- SUITE, bits [3:2], CMT. -/
def macsecCfgSuite (p : Nat) : Fld := ⟨0, 0x200024 + 0x10000 * p, 2, 2, .cmt, 0⟩
/-- TX_AN, bits [5:4], CMT. -/
def macsecCfgTxAn (p : Nat) : Fld := ⟨0, 0x200024 + 0x10000 * p, 4, 2, .cmt, 0⟩
/-- INCLUDE_SCI, bits [6], CMT. -/
def macsecCfgIncludeSci (p : Nat) : Fld := ⟨0, 0x200024 + 0x10000 * p, 6, 1, .cmt, 1⟩
/-- BYPASS_PTP, bits [7], CMT. -/
def macsecCfgBypassPtp (p : Nat) : Fld := ⟨0, 0x200024 + 0x10000 * p, 7, 1, .cmt, 1⟩
/-- REPLAY_EN, bits [8], CMT. -/
def macsecCfgReplayEn (p : Nat) : Fld := ⟨0, 0x200024 + 0x10000 * p, 8, 1, .cmt, 1⟩
/-- RX_SC_EN, bits [23:16], CMT. -/
def macsecCfgRxScEn (p : Nat) : Fld := ⟨0, 0x200024 + 0x10000 * p, 16, 8, .cmt, 1⟩

/-! PN_THRESH_LO, PN_THRESH_HI and REPLAY_WIN, offsets B + 0x0028, B + 0x002C and B + 0x0030 (R104). -/

/-- PN_THRESH, bits [31:0], CMT. -/
def pnThresh (p : Nat) : Fld := ⟨0, 0x200028 + 0x10000 * p, 0, 64, .cmt, 3221225472⟩
/-- REPLAY_WIN, bits [31:0], CMT. -/
def replayWin (p : Nat) : Fld := ⟨0, 0x200030 + 0x10000 * p, 0, 32, .cmt, 0⟩

/-! Port drop counters, offsets B + 0x0034 to B + 0x0048 (R104). -/

/-- TX_SA_DROPS, bits [31:0], RC. -/
def portTxSaDrops (p : Nat) : Fld := ⟨0, 0x200034 + 0x10000 * p, 0, 32, .rc, 0⟩
/-- RX_ICV_FAIL, bits [31:0], RC. -/
def portRxIcvFail (p : Nat) : Fld := ⟨0, 0x200038 + 0x10000 * p, 0, 32, .rc, 0⟩
/-- RX_NO_SA, bits [31:0], RC. -/
def portRxNoSa (p : Nat) : Fld := ⟨0, 0x20003c + 0x10000 * p, 0, 32, .rc, 0⟩
/-- RX_REPLAY, bits [31:0], RC. -/
def portRxReplay (p : Nat) : Fld := ⟨0, 0x200040 + 0x10000 * p, 0, 32, .rc, 0⟩
/-- RX_UNSUPPORTED, bits [31:0], RC. -/
def portRxUnsupported (p : Nat) : Fld := ⟨0, 0x200044 + 0x10000 * p, 0, 32, .rc, 0⟩
/-- LINKDOWN_DISCARDS, bits [31:0], RC. -/
def portLinkdownDiscards (p : Nat) : Fld := ⟨0, 0x200048 + 0x10000 * p, 0, 32, .rc, 0⟩

/-! SCI registers, offsets B + 0x0800 + 8 * c for c = 0 to 7, and B + 0x0840 (R104). -/

/-- SCI_LO, bits [31:0], CMT. -/
def sciRx (p c : Nat) : Fld := ⟨0, 0x200800 + 0x10000 * p + 0x8 * c, 0, 64, .cmt, 0⟩
/-- SCI_LO, bits [31:0], CMT. -/
def sciTx (p : Nat) : Fld := ⟨0, 0x200840 + 0x10000 * p, 0, 64, .cmt, 0⟩

/-! SA[i], offsets B + 0x1000 + 0x40 * i for i = 0 to 35; i = 0 to 3 is transmit AN i, i = 4 + 4 * c + a is receive SC c, AN a (R104). -/

/-- VALID, bits [0], CMT. -/
def saKeyValid (p i : Nat) : Fld := ⟨0, 0x201000 + 0x10000 * p + 0x40 * i, 0, 1, .cmt, 0⟩
/-- KEY_SLOT, bits [12:4], CMT. -/
def saKeyKeySlot (p i : Nat) : Fld := ⟨0, 0x201000 + 0x10000 * p + 0x40 * i, 4, 9, .cmt, 0⟩
/-- SSCI, bits [31:0], CMT. -/
def saSsci (p i : Nat) : Fld := ⟨0, 0x201004 + 0x10000 * p + 0x40 * i, 0, 32, .cmt, 0⟩
/-- SALT, bits [31:0], CMT. -/
def saSalt (p i : Nat) : Fld := ⟨0, 0x201008 + 0x10000 * p + 0x40 * i, 0, 96, .cmt, 0⟩
/-- INIT_PN, bits [31:0], CMT. -/
def saInitPn (p i : Nat) : Fld := ⟨0, 0x201014 + 0x10000 * p + 0x40 * i, 0, 64, .cmt, 1⟩
/-- NEXT_PN, bits [31:0], RO. -/
def saNextPn (p i : Nat) : Fld := ⟨0, 0x201020 + 0x10000 * p + 0x40 * i, 0, 64, .ro, 0⟩
/-- EXHAUSTED, bits [0], RO. -/
def saStatExhausted (p i : Nat) : Fld := ⟨0, 0x201028 + 0x10000 * p + 0x40 * i, 0, 1, .ro, 0⟩
/-- THRESH_HIT, bits [1], RO. -/
def saStatThreshHit (p i : Nat) : Fld := ⟨0, 0x201028 + 0x10000 * p + 0x40 * i, 1, 1, .ro, 0⟩
/-- KEY_REVOKED, bits [2], RO. -/
def saStatKeyRevoked (p i : Nat) : Fld := ⟨0, 0x201028 + 0x10000 * p + 0x40 * i, 2, 1, .ro, 0⟩
/-- FRAMES, bits [31:0], RC. -/
def saFrames (p i : Nat) : Fld := ⟨0, 0x20102c + 0x10000 * p + 0x40 * i, 0, 32, .rc, 0⟩

/-! BUF_SHARED, offset 0x050_0000 (R128). -/

/-- SHARED_FREE, bits [16:0], RO. -/
def bufShared : Fld := ⟨0, 0x500000, 0, 17, .ro, 97280⟩

/-! BUF_MGMT, offset 0x050_0004 (R128). -/

/-- MGMT_FREE, bits [10:0], RO. -/
def bufMgmt : Fld := ⟨0, 0x500004, 0, 11, .ro, 1024⟩

/-! BUF_MIN, offset 0x050_0008 (R128). -/

/-- SHARED_MIN, bits [16:0], RC. -/
def bufMin : Fld := ⟨0, 0x500008, 0, 17, .rc, 97280⟩

/-! FDB_STATUS, offset 0x050_000C (R128). -/

/-- LEARNED, bits [15:0], RO. -/
def fdbStatusLearned : Fld := ⟨0, 0x50000c, 0, 16, .ro, 0⟩
/-- STATIC, bits [28:16], RO. -/
def fdbStatusStatic : Fld := ⟨0, 0x50000c, 16, 13, .ro, 0⟩
/-- FLUSH_BUSY, bits [31], RO. -/
def fdbStatusFlushBusy : Fld := ⟨0, 0x50000c, 31, 1, .ro, 0⟩

/-! FDB_CTL, offset 0x050_0010 (R128). -/

/-- FLUSH, bits [0], WO. -/
def fdbCtlFlush : Fld := ⟨0, 0x500010, 0, 1, .wo, 0⟩
/-- MATCH_PORT, bits [1], WO. -/
def fdbCtlMatchPort : Fld := ⟨0, 0x500010, 1, 1, .wo, 0⟩
/-- MATCH_FID, bits [2], WO. -/
def fdbCtlMatchFid : Fld := ⟨0, 0x500010, 2, 1, .wo, 0⟩
/-- PORT, bits [8:3], WO. -/
def fdbCtlPort : Fld := ⟨0, 0x500010, 3, 6, .wo, 0⟩
/-- FID, bits [23:12], WO. -/
def fdbCtlFid : Fld := ⟨0, 0x500010, 12, 12, .wo, 0⟩

/-! SW_CFG, offset 0x050_0014 (R128). -/

/-- AGE_TIME, bits [19:0], RO. -/
def swCfgAgeTime : Fld := ⟨0, 0x500014, 0, 20, .ro, 300⟩
/-- RECIRC_MAX, bits [26:24], RO. -/
def swCfgRecircMax : Fld := ⟨0, 0x500014, 24, 3, .ro, 3⟩

/-! Switch-level drop counters, offsets 0x050_0018 to 0x050_0024 (R128). -/

/-- LEARN_FULL, bits [15:0], RC. -/
def swLearnLearnFull : Fld := ⟨0, 0x500018, 0, 16, .rc, 0⟩
/-- SA_BIND_VIOL, bits [31:16], RC. -/
def swLearnSaBindViol : Fld := ⟨0, 0x500018, 16, 16, .rc, 0⟩
/-- ATOMIC_ABORTS, bits [31:0], RC. -/
def swAtomicAborts : Fld := ⟨0, 0x50001c, 0, 32, .rc, 0⟩
/-- RECIRC_LIMIT_DROPS, bits [31:0], RC. -/
def swRecircLimitDrops : Fld := ⟨0, 0x500020, 0, 32, .rc, 0⟩
/-- CORRECTED, bits [15:0], RC. -/
def swEccCorrected : Fld := ⟨0, 0x500024, 0, 16, .rc, 0⟩
/-- UNCORRECTED, bits [31:16], RC. -/
def swEccUncorrected : Fld := ⟨0, 0x500024, 16, 16, .rc, 0⟩

/-! RECIRC_STATUS, offset 0x050_0028 (R128). -/

/-- DEPTH, bits [12:0], RO. -/
def recircStatusDepth : Fld := ⟨0, 0x500028, 0, 13, .ro, 0⟩
/-- HIGH_WATER, bits [28:16], RC. -/
def recircStatusHighWater : Fld := ⟨0, 0x500028, 16, 13, .rc, 0⟩

/-! FDB_ACC_CTL, offset 0x050_0040 (R128). -/

/-- READ, bits [0], WO. -/
def fdbAccCtlRead : Fld := ⟨0, 0x500040, 0, 1, .wo, 0⟩
/-- INDEX, bits [15:1], RW. -/
def fdbAccCtlIndex : Fld := ⟨0, 0x500040, 1, 15, .rw, 0⟩
/-- VIEW, bits [17:16], RW. -/
def fdbAccCtlView : Fld := ⟨0, 0x500040, 16, 2, .rw, 0⟩
/-- SLOT, bits [19:18], RW. -/
def fdbAccCtlSlot : Fld := ⟨0, 0x500040, 18, 2, .rw, 0⟩
/-- DONE, bits [31], RO. -/
def fdbAccCtlDone : Fld := ⟨0, 0x500040, 31, 1, .ro, 0⟩

/-! FDB_ACC_MAC_LO, FDB_ACC_MAC_HI, FDB_ACC_INFO and FDB_ACC_AGE, offsets 0x050_0044 to 0x050_0050 (R128). -/

/-- MAC_LO, bits [31:0], RO. -/
def fdbAccMacLo : Fld := ⟨0, 0x500044, 0, 32, .ro, 0⟩
/-- MAC_HI, bits [15:0], RO. -/
def fdbAccMacHi : Fld := ⟨0, 0x500048, 0, 16, .ro, 0⟩
/-- FID, bits [11:0], RO. -/
def fdbAccInfoFid : Fld := ⟨0, 0x50004c, 0, 12, .ro, 0⟩
/-- VALID, bits [12], RO. -/
def fdbAccInfoValid : Fld := ⟨0, 0x50004c, 12, 1, .ro, 0⟩
/-- STATIC, bits [13], RO. -/
def fdbAccInfoStatic : Fld := ⟨0, 0x50004c, 13, 1, .ro, 0⟩
/-- GROUP, bits [14], RO. -/
def fdbAccInfoGroup : Fld := ⟨0, 0x50004c, 14, 1, .ro, 0⟩
/-- DISCARD, bits [15], RO. -/
def fdbAccInfoDiscard : Fld := ⟨0, 0x50004c, 15, 1, .ro, 0⟩
/-- DEST, bits [30:16], RO. -/
def fdbAccInfoDest : Fld := ⟨0, 0x50004c, 16, 15, .ro, 0⟩
/-- SRC_BIND, bits [31], RO. -/
def fdbAccInfoSrcBind : Fld := ⟨0, 0x50004c, 31, 1, .ro, 0⟩
/-- AGE, bits [19:0], RO. -/
def fdbAccAgeAge : Fld := ⟨0, 0x500050, 0, 20, .ro, 0⟩
/-- MASK, bits [23:20], RO. -/
def fdbAccAgeMask : Fld := ⟨0, 0x500050, 20, 4, .ro, 0⟩
/-- STATUS, bits [27:24], RO. -/
def fdbAccAgeStatus : Fld := ⟨0, 0x500050, 24, 4, .ro, 0⟩

/-! Per-port counters, offsets 0x050_1000 + 0x40 * p for p = 0 to 51 (R128). -/

/-- ADMIT_DROPS, bits [31:0], RC. -/
def swAdmitDrops (p : Nat) : Fld := ⟨0, 0x501000 + 0x40 * p, 0, 32, .rc, 0⟩
/-- WRED_DROPS, bits [31:0], RC. -/
def swWredDrops (p : Nat) : Fld := ⟨0, 0x501004 + 0x40 * p, 0, 32, .rc, 0⟩
/-- ATOMIC_REFUSED, bits [31:0], RC. -/
def swAtomicRefused (p : Nat) : Fld := ⟨0, 0x501008 + 0x40 * p, 0, 32, .rc, 0⟩
/-- ATOMIC_LATE_DROPS, bits [31:0], RC. -/
def swAtomicLateDrops (p : Nat) : Fld := ⟨0, 0x50100c + 0x40 * p, 0, 32, .rc, 0⟩
/-- CT_STOMPED, bits [31:0], RC. -/
def swCtStomped (p : Nat) : Fld := ⟨0, 0x501010 + 0x40 * p, 0, 32, .rc, 0⟩
/-- CT_BAD_RX, bits [31:0], RC. -/
def swCtBadRx (p : Nat) : Fld := ⟨0, 0x501014 + 0x40 * p, 0, 32, .rc, 0⟩
/-- OVERFLOW_DROPS, bits [31:0], RC. -/
def swOverflowDrops (p : Nat) : Fld := ⟨0, 0x501018 + 0x40 * p, 0, 32, .rc, 0⟩
/-- VLAN_DROPS, bits [31:0], RC. -/
def swVlanDrops (p : Nat) : Fld := ⟨0, 0x50101c + 0x40 * p, 0, 32, .rc, 0⟩
/-- STAGING_DROPS, bits [31:0], RC. -/
def swStagingDrops (p : Nat) : Fld := ⟨0, 0x501020 + 0x40 * p, 0, 32, .rc, 0⟩
/-- NO_DEST, bits [31:0], RC. -/
def swNoDest (p : Nat) : Fld := ⟨0, 0x501024 + 0x40 * p, 0, 32, .rc, 0⟩
/-- FDB_DISCARDS, bits [31:0], RC. -/
def swFdbDiscards (p : Nat) : Fld := ⟨0, 0x501028 + 0x40 * p, 0, 32, .rc, 0⟩
/-- MGMT_DROPS, bits [31:0], RC. -/
def swMgmtDrops (p : Nat) : Fld := ⟨0, 0x50102c + 0x40 * p, 0, 32, .rc, 0⟩
/-- USED, bits [16:0], RO. -/
def swUsed (p : Nat) : Fld := ⟨0, 0x501030 + 0x40 * p, 0, 17, .ro, 0⟩
/-- CT_FRAMES, bits [31:0], RC. -/
def swCtFrames (p : Nat) : Fld := ⟨0, 0x501034 + 0x40 * p, 0, 32, .rc, 0⟩

/-! CLS_ACC_CTL, offset 0x060_0000 (R154). -/

/-- READ, bits [0], WO. -/
def clsAccCtlRead : Fld := ⟨0, 0x600000, 0, 1, .wo, 0⟩
/-- PROBE, bits [1], WO. -/
def clsAccCtlProbe : Fld := ⟨0, 0x600000, 1, 1, .wo, 0⟩
/-- TABLE, bits [4:2], RW. -/
def clsAccCtlTable : Fld := ⟨0, 0x600000, 2, 3, .rw, 0⟩
/-- INDEX, bits [19:5], RW. -/
def clsAccCtlIndex : Fld := ⟨0, 0x600000, 5, 15, .rw, 0⟩
/-- VIEW, bits [21:20], RW. -/
def clsAccCtlView : Fld := ⟨0, 0x600000, 20, 2, .rw, 0⟩
/-- SLOT, bits [23:22], RW. -/
def clsAccCtlSlot : Fld := ⟨0, 0x600000, 22, 2, .rw, 0⟩
/-- DONE, bits [31], RO. -/
def clsAccCtlDone : Fld := ⟨0, 0x600000, 31, 1, .ro, 0⟩

/-! CLS_ACC_STATUS, offset 0x060_0004 (R154). -/

/-- STATUS, bits [3:0], RO. -/
def clsAccStatusStatus : Fld := ⟨0, 0x600004, 0, 4, .ro, 0⟩
/-- MASK, bits [7:4], RO. -/
def clsAccStatusMask : Fld := ⟨0, 0x600004, 4, 4, .ro, 0⟩
/-- RESULT_RULE, bits [23:8], RO. -/
def clsAccStatusResultRule : Fld := ⟨0, 0x600004, 8, 16, .ro, 0⟩

/-! CLS_ACC_DATA[m], offsets 0x060_0040 + 4 * m for m = 0 to 47 (R154). -/

/-- DATA, bits [31:0], RW. -/
def clsAccData (m : Nat) : Fld := ⟨0, 0x600040 + 0x4 * m, 0, 32, .rw, 0⟩

/-! Classifier counters and status, offsets 0x060_0100 to 0x060_019C (R154). -/

/-- MAL_COUNT[r], bits [31:0], RC. -/
def malCount (r1 : Nat) : Fld := ⟨0, 0x600104 + 0x4 * r1, 0, 32, .rc, 0⟩
/-- EXH_DROPS, bits [15:0], RC. -/
def clsExhExhDrops : Fld := ⟨0, 0x600180, 0, 16, .rc, 0⟩
/-- EXH_CLASSIFIED, bits [31:16], RC. -/
def clsExhExhClassified : Fld := ⟨0, 0x600180, 16, 16, .rc, 0⟩
/-- FRAG_UNMATCHED, bits [31:0], RC. -/
def fragUnmatched : Fld := ⟨0, 0x600184, 0, 32, .rc, 0⟩
/-- FRAG_FULL, bits [15:0], RC. -/
def fragStatsFragFull : Fld := ⟨0, 0x600188, 0, 16, .rc, 0⟩
/-- FRAG_EXPIRED, bits [31:16], RC. -/
def fragStatsFragExpired : Fld := ⟨0, 0x600188, 16, 16, .rc, 0⟩
/-- FRAG_ENTRIES, bits [11:0], RO. -/
def fragEntriesFragEntries : Fld := ⟨0, 0x60018c, 0, 12, .ro, 0⟩
/-- FRAG_HIGH, bits [27:16], RC. -/
def fragEntriesFragHigh : Fld := ⟨0, 0x60018c, 16, 12, .rc, 0⟩
/-- RULES_USED, bits [14:0], RO. -/
def clsUsedRulesUsed : Fld := ⟨0, 0x600190, 0, 15, .ro, 0⟩
/-- RANGES_USED, bits [25:16], RO. -/
def clsUsedRangesUsed : Fld := ⟨0, 0x600190, 16, 10, .ro, 0⟩
/-- STREAMS_USED, bits [10:0], RO. -/
def streamsUsed : Fld := ⟨0, 0x600194, 0, 11, .ro, 0⟩
/-- TRAP_COUNT, bits [31:0], RC. -/
def trapCount : Fld := ⟨0, 0x600198, 0, 32, .rc, 0⟩
/-- TUNNEL_FRAMES, bits [31:0], RC. -/
def tunnelFrames : Fld := ⟨0, 0x60019c, 0, 32, .rc, 0⟩

/-! SHADOW_STATUS, offset 0x060_0F00 (R154). -/

/-- ACTIVE, bits [0], RO. -/
def shadowStatusActive : Fld := ⟨0, 0x600f00, 0, 1, .ro, 0⟩
/-- SELFTEST_LAST, bits [1], RO. -/
def shadowStatusSelftestLast : Fld := ⟨0, 0x600f00, 1, 1, .ro, 0⟩
/-- SELFTEST_FAULT, bits [2], RO. -/
def shadowStatusSelftestFault : Fld := ⟨0, 0x600f00, 2, 1, .ro, 0⟩
/-- CLEAR, bits [3], SP. -/
def shadowStatusClear : Fld := ⟨0, 0x600f00, 3, 1, .sp, 0⟩

/-! CONT_STATUS, offset 0x061_0000 (R177). -/

/-- ACTIVE, bits [7:0], RO. -/
def contStatusActive : Fld := ⟨0, 0x610000, 0, 8, .ro, 0⟩
/-- RIPCORD_IN, bits [8], RO. -/
def contStatusRipcordIn : Fld := ⟨0, 0x610000, 8, 1, .ro, 0⟩
/-- RIPCORD_HELD, bits [9], RO. -/
def contStatusRipcordHeld : Fld := ⟨0, 0x610000, 9, 1, .ro, 0⟩
/-- REL_PEND, bits [23:16], RO. -/
def contStatusRelPend : Fld := ⟨0, 0x610000, 16, 8, .ro, 0⟩
/-- VALID, bits [31:24], RO. -/
def contStatusValid : Fld := ⟨0, 0x610000, 24, 8, .ro, 1⟩

/-! CONT_ACT, offset 0x061_0004 (R177). -/

/-- PROFILE, bits [2:0], WO. -/
def contActProfile : Fld := ⟨0, 0x610004, 0, 3, .wo, 0⟩
/-- GO, bits [3], WO. -/
def contActGo : Fld := ⟨0, 0x610004, 3, 1, .wo, 0⟩

/-! CONT_REL, offset 0x061_0008 (R177). -/

/-- RELEASE, bits [7:0], SP. -/
def contRelRelease : Fld := ⟨0, 0x610008, 0, 8, .sp, 0⟩
/-- DENY, bits [15:8], SP. -/
def contRelDeny : Fld := ⟨0, 0x610008, 8, 8, .sp, 0⟩

/-! CONT_REL_REQ, offset 0x061_000C (R177). -/

/-- REQ, bits [7:0], WO. -/
def contRelReq : Fld := ⟨0, 0x61000c, 0, 8, .wo, 0⟩

/-! CONT_STATS, offset 0x061_0010 (R177). -/

/-- REFUSED, bits [15:0], RC. -/
def contStatsRefused : Fld := ⟨0, 0x610010, 0, 16, .rc, 0⟩
/-- REL_REFUSED, bits [31:16], RC. -/
def contStatsRelRefused : Fld := ⟨0, 0x610010, 16, 16, .rc, 0⟩

/-! CONT_CAUSE[p], offsets 0x061_0020 + 4 * p for p = 0 to 7 (R177). -/

/-- CAUSE, bits [4:0], RO. -/
def contCauseCause (q : Nat) : Fld := ⟨0, 0x610020 + 0x4 * q, 0, 5, .ro, 0⟩
/-- ACTIVATIONS, bits [31:16], RC. -/
def contCauseActivations (q : Nat) : Fld := ⟨0, 0x610020 + 0x4 * q, 16, 16, .rc, 0⟩

/-! Conversation counters, offsets 0x061_0080 to 0x061_008C (R177). -/

/-- CONV_USED, bits [16:0], RO. -/
def convUsed : Fld := ⟨0, 0x610080, 0, 17, .ro, 0⟩
/-- CONV_FULL, bits [15:0], RC. -/
def convFullConvFull : Fld := ⟨0, 0x610084, 0, 16, .rc, 0⟩
/-- CONV_EVICT, bits [31:16], RC. -/
def convFullConvEvict : Fld := ⟨0, 0x610084, 16, 16, .rc, 0⟩
/-- CONV_EXPIRED, bits [31:0], RC. -/
def convExpired : Fld := ⟨0, 0x610088, 0, 32, .rc, 0⟩
/-- CONV_NOCREATE, bits [15:0], RC. -/
def convNoCreateConvNocreate : Fld := ⟨0, 0x61008c, 0, 16, .rc, 0⟩
/-- ACTION_KIND_DROPS, bits [31:16], RC. -/
def convNoCreateActionKindDrops : Fld := ⟨0, 0x61008c, 16, 16, .rc, 0⟩

/-! CONV_ACC_CTL, offset 0x061_0100 (R177). -/

/-- READ, bits [0], WO. -/
def convAccCtlRead : Fld := ⟨0, 0x610100, 0, 1, .wo, 0⟩
/-- FLUSH, bits [1], WO. -/
def convAccCtlFlush : Fld := ⟨0, 0x610100, 1, 1, .wo, 0⟩
/-- INDEX, bits [17:2], RW. -/
def convAccCtlIndex : Fld := ⟨0, 0x610100, 2, 16, .rw, 0⟩
/-- DONE, bits [31], RO. -/
def convAccCtlDone : Fld := ⟨0, 0x610100, 31, 1, .ro, 0⟩

/-! CONV_ACC_DATA[m], offsets 0x061_0140 + 4 * m for m = 0 to 11 (R177). -/

/-- DATA, bits [31:0], RO. -/
def convAccData (m : Nat) : Fld := ⟨0, 0x610140 + 0x4 * m, 0, 32, .ro, 0⟩

/-! Containment drop counters, offsets 0x061_0200 + 8 * p for p = 0 to 49, and 0x061_0400 + 4 * n for n = 0 to 255 (R177). -/

/-- CONT_IN_DROPS, bits [31:0], RC. -/
def contInDrops (p : Nat) : Fld := ⟨0, 0x610200 + 0x8 * p, 0, 32, .rc, 0⟩
/-- CONT_OUT_DROPS, bits [31:0], RC. -/
def contOutDrops (p : Nat) : Fld := ⟨0, 0x610204 + 0x8 * p, 0, 32, .rc, 0⟩
/-- CONT_CHAN_DROPS, bits [31:0], RC. -/
def contChanDrops (n : Nat) : Fld := ⟨0, 0x610400 + 0x4 * n, 0, 32, .rc, 0⟩

/-! WHEEL_STATUS, offset 0x080_0000 (R206). -/

/-- WHEEL_USED, bits [11:0], RO. -/
def wheelStatus : Fld := ⟨0, 0x800000, 0, 12, .ro, 0⟩

/-! WHEEL_ROUNDS, offset 0x080_0004 (R206). -/

/-- MAX_ROUNDS, bits [19:0], RC. -/
def wheelRounds : Fld := ⟨0, 0x800004, 0, 20, .rc, 0⟩

/-! TM_ACC_CTL, offset 0x080_0008 (R206). -/

/-- READ, bits [0], WO. -/
def tmAccCtlRead : Fld := ⟨0, 0x800008, 0, 1, .wo, 0⟩
/-- TABLE, bits [3:1], RW. -/
def tmAccCtlTable : Fld := ⟨0, 0x800008, 1, 3, .rw, 0⟩
/-- INDEX, bits [16:4], RW. -/
def tmAccCtlIndex : Fld := ⟨0, 0x800008, 4, 13, .rw, 0⟩
/-- ENTRY, bits [24:17], RW. -/
def tmAccCtlEntry : Fld := ⟨0, 0x800008, 17, 8, .rw, 0⟩
/-- LIST, bits [25], RW. -/
def tmAccCtlList : Fld := ⟨0, 0x800008, 25, 1, .rw, 0⟩
/-- VIEW, bits [27:26], RW. -/
def tmAccCtlView : Fld := ⟨0, 0x800008, 26, 2, .rw, 0⟩
/-- SLOT, bits [29:28], RW. -/
def tmAccCtlSlot : Fld := ⟨0, 0x800008, 28, 2, .rw, 0⟩
/-- DONE, bits [31], RO. -/
def tmAccCtlDone : Fld := ⟨0, 0x800008, 31, 1, .ro, 0⟩

/-! TM_ACC_STATUS, offset 0x080_000C (R206). -/

/-- STATUS, bits [3:0], RO. -/
def tmAccStatusStatus : Fld := ⟨0, 0x80000c, 0, 4, .ro, 0⟩
/-- MASK, bits [7:4], RO. -/
def tmAccStatusMask : Fld := ⟨0, 0x80000c, 4, 4, .ro, 0⟩

/-! TM_ACC_DATA[m], offsets 0x080_0040 + 4 * m for m = 0 to 39 (R206). -/

/-- DATA, bits [31:0], RO. -/
def tmAccData (m : Nat) : Fld := ⟨0, 0x800040 + 0x4 * m, 0, 32, .ro, 0⟩

/-! Port scheduling registers, base Q = 0x081_0000 + 0x800 * p for p = 0 to 49 (R206). -/

/-- GATES_EN, bits [0], RO. -/
def tmGateGatesEn (p : Nat) : Fld := ⟨0, 0x810000 + 0x800 * p, 0, 1, .ro, 0⟩
/-- PENDING, bits [1], RO. -/
def tmGatePending (p : Nat) : Fld := ⟨0, 0x810000 + 0x800 * p, 1, 1, .ro, 0⟩
/-- OPER_STATES, bits [9:2], RO. -/
def tmGateOperStates (p : Nat) : Fld := ⟨0, 0x810000 + 0x800 * p, 2, 8, .ro, 255⟩
/-- ENTRY, bits [17:10], RO. -/
def tmGateEntry (p : Nat) : Fld := ⟨0, 0x810000 + 0x800 * p, 10, 8, .ro, 0⟩
/-- HELD, bits [18], RO. -/
def tmGateHeld (p : Nat) : Fld := ⟨0, 0x810000 + 0x800 * p, 18, 1, .ro, 0⟩
/-- SWITCH_AT, bits [31:0], RO. -/
def tmSwitchAt (p : Nat) : Fld := ⟨0, 0x810004 + 0x800 * p, 0, 64, .ro, 0⟩
/-- TX_OVERRUN, bits [15:0], RC. -/
def tmTxTxOverrun (p : Nat) : Fld := ⟨0, 0x81000c + 0x800 * p, 0, 16, .rc, 0⟩
/-- TAKEOVERS, bits [31:16], RC. -/
def tmTxTakeovers (p : Nat) : Fld := ⟨0, 0x81000c + 0x800 * p, 16, 16, .rc, 0⟩
/-- NEVER_FIT, bits [15:0], RC. -/
def tmFitNeverFit (p : Nat) : Fld := ⟨0, 0x810010 + 0x800 * p, 0, 16, .rc, 0⟩
/-- SUPERSEDED, bits [31:16], RC. -/
def tmFitSuperseded (p : Nat) : Fld := ⟨0, 0x810010 + 0x800 * p, 16, 16, .rc, 0⟩
/-- PORT_TOKENS, bits [31:0], RO. -/
def tmPortTokens (p : Nat) : Fld := ⟨0, 0x810014 + 0x800 * p, 0, 32, .ro, 0⟩
/-- LEAF_TOKENS, bits [31:0], RO. -/
def tmLeafTokens (p q : Nat) : Fld := ⟨0, 0x810100 + 0x800 * p + 0x8 * q, 0, 32, .ro, 0⟩
/-- DEPTH, bits [15:0], RO. -/
def tmLeafDepth (p q : Nat) : Fld := ⟨0, 0x810104 + 0x800 * p + 0x8 * q, 0, 16, .ro, 0⟩
/-- ON_WHEEL, bits [16], RO. -/
def tmLeafOnWheel (p q : Nat) : Fld := ⟨0, 0x810104 + 0x800 * p + 0x8 * q, 16, 1, .ro, 0⟩

/-! Stream filter registers, offsets F = 0x090_0000 + 16 * f for f = 0 to 8,191 (R206). -/

/-- MATCHED, bits [31:0], RC. -/
def sfMatched (f : Nat) : Fld := ⟨0, 0x900000 + 0x10 * f, 0, 32, .rc, 0⟩
/-- PASSED, bits [31:0], RC. -/
def sfPassed (f : Nat) : Fld := ⟨0, 0x900004 + 0x10 * f, 0, 32, .rc, 0⟩
/-- SDU_DROPS, bits [15:0], RC. -/
def sfDropsSduDrops (f : Nat) : Fld := ⟨0, 0x900008 + 0x10 * f, 0, 16, .rc, 0⟩
/-- GATE_DROPS, bits [31:16], RC. -/
def sfDropsGateDrops (f : Nat) : Fld := ⟨0, 0x900008 + 0x10 * f, 16, 16, .rc, 0⟩
/-- BLOCKED, bits [0], RO. -/
def sfStateBlocked (f : Nat) : Fld := ⟨0, 0x90000c + 0x10 * f, 0, 1, .ro, 0⟩
/-- UNBLOCK, bits [1], WO. -/
def sfStateUnblock (f : Nat) : Fld := ⟨0, 0x90000c + 0x10 * f, 1, 1, .wo, 0⟩
/-- SDU_LATE, bits [31:16], RC. -/
def sfStateSduLate (f : Nat) : Fld := ⟨0, 0x90000c + 0x10 * f, 16, 16, .rc, 0⟩

/-! Flow meter registers, offsets M = 0x092_0000 + 16 * m for m = 0 to 8,191 (R206). -/

/-- GREEN, bits [31:0], RC. -/
def fmGreen (f : Nat) : Fld := ⟨0, 0x920000 + 0x10 * f, 0, 32, .rc, 0⟩
/-- YELLOW, bits [31:0], RC. -/
def fmYellow (f : Nat) : Fld := ⟨0, 0x920004 + 0x10 * f, 0, 32, .rc, 0⟩
/-- RED, bits [31:0], RC. -/
def fmRed (f : Nat) : Fld := ⟨0, 0x920008 + 0x10 * f, 0, 32, .rc, 0⟩
/-- YELLOW_DROPS, bits [31:0], RC. -/
def fmYellowDrops (f : Nat) : Fld := ⟨0, 0x92000c + 0x10 * f, 0, 32, .rc, 0⟩

/-! Flow gate registers, offsets G = 0x094_0000 + 8 * g for g = 0 to 1,023 (R206). -/

/-- OPEN, bits [0], RO. -/
def fgStateOpen (g : Nat) : Fld := ⟨0, 0x940000 + 0x8 * g, 0, 1, .ro, 0⟩
/-- IPV, bits [3:1], RO. -/
def fgStateIpv (g : Nat) : Fld := ⟨0, 0x940000 + 0x8 * g, 1, 3, .ro, 0⟩
/-- IPV_VALID, bits [4], RO. -/
def fgStateIpvValid (g : Nat) : Fld := ⟨0, 0x940000 + 0x8 * g, 4, 1, .ro, 0⟩
/-- CLOSED_INVALID_RX, bits [5], RO. -/
def fgStateClosedInvalidRx (g : Nat) : Fld := ⟨0, 0x940000 + 0x8 * g, 5, 1, .ro, 0⟩
/-- CLOSED_OCTETS, bits [6], RO. -/
def fgStateClosedOctets (g : Nat) : Fld := ⟨0, 0x940000 + 0x8 * g, 6, 1, .ro, 0⟩
/-- ENTRY, bits [10:8], RO. -/
def fgStateEntry (g : Nat) : Fld := ⟨0, 0x940000 + 0x8 * g, 8, 3, .ro, 0⟩
/-- REOPEN, bits [0], WO. -/
def fgReopen (g : Nat) : Fld := ⟨0, 0x940004 + 0x8 * g, 0, 1, .wo, 0⟩

/-! CH_INFO, offset C + 0x000 (R241). -/

/-- KIND, bits [1:0], RO. -/
def chInfoKind (n : Nat) : Fld := ⟨0, 0xa00000 + 0x1000 * n, 0, 2, .ro, 0⟩
/-- TETHERED, bits [2], RO. -/
def chInfoTethered (n : Nat) : Fld := ⟨0, 0xa00000 + 0x1000 * n, 2, 1, .ro, (if n < 24 then 0 else 1)⟩
/-- FLAGS, bits [7:3], RO. -/
def chInfoFlags (n : Nat) : Fld := ⟨0, 0xa00000 + 0x1000 * n, 3, 5, .ro, 0⟩
/-- BIND, bits [13:8], RO. -/
def chInfoBind (n : Nat) : Fld := ⟨0, 0xa00000 + 0x1000 * n, 8, 6, .ro, 0⟩
/-- BUS_ID, bits [20:16], RO. -/
def chInfoBusId (n : Nat) : Fld := ⟨0, 0xa00000 + 0x1000 * n, 16, 5, .ro, 0⟩

/-! CH_CTL, offset C + 0x004 (R241). -/

/-- ADMIN_EN, bits [0], CMT. -/
def chCtlAdminEn (n : Nat) : Fld := ⟨0, 0xa00004 + 0x1000 * n, 0, 1, .cmt, 0⟩
/-- RECOVER, bits [1], WO. -/
def chCtlRecover (n : Nat) : Fld := ⟨0, 0xa00004 + 0x1000 * n, 1, 1, .wo, 0⟩
/-- LIN_TABLE, bits [7:4], CMT. -/
def chCtlLinTable (n : Nat) : Fld := ⟨0, 0xa00004 + 0x1000 * n, 4, 4, .cmt, 15⟩

/-! CH_STATUS, offset C + 0x008 (R241). -/

/-- STATE, bits [2:0], RO. -/
def chStatusState (n : Nat) : Fld := ⟨0, 0xa00008 + 0x1000 * n, 0, 3, .ro, 0⟩
/-- BRIDGE_LOST, bits [3], RO. -/
def chStatusBridgeLost (n : Nat) : Fld := ⟨0, 0xa00008 + 0x1000 * n, 3, 1, .ro, 0⟩
/-- TXQ_DEPTH, bits [10:4], RO. -/
def chStatusTxqDepth (n : Nat) : Fld := ⟨0, 0xa00008 + 0x1000 * n, 4, 7, .ro, 0⟩
/-- RXL_DEPTH, bits [15:11], RO. -/
def chStatusRxlDepth (n : Nat) : Fld := ⟨0, 0xa00008 + 0x1000 * n, 11, 5, .ro, 0⟩
/-- LIN_RUN, bits [19:16], RO. -/
def chStatusLinRun (n : Nat) : Fld := ⟨0, 0xa00008 + 0x1000 * n, 16, 4, .ro, 15⟩
/-- LIN_SLOT, bits [25:20], RO. -/
def chStatusLinSlot (n : Nat) : Fld := ⟨0, 0xa00008 + 0x1000 * n, 20, 6, .ro, 0⟩

/-! CAN_ERR, offset C + 0x00C (R241). -/

/-- TEC, bits [7:0], RO. -/
def canErrTec (n : Nat) : Fld := ⟨0, 0xa0000c + 0x1000 * n, 0, 8, .ro, 0⟩
/-- REC, bits [15:8], RO. -/
def canErrRec (n : Nat) : Fld := ⟨0, 0xa0000c + 0x1000 * n, 8, 8, .ro, 0⟩
/-- BUS_OFFS, bits [31:16], RC. -/
def canErrBusOffs (n : Nat) : Fld := ⟨0, 0xa0000c + 0x1000 * n, 16, 16, .rc, 0⟩

/-! CH_EVENTS, offset C + 0x010 (R241). -/

/-- BUS_OFF, bits [0], W1C. -/
def chEventsBusOff (n : Nat) : Fld := ⟨0, 0xa00010 + 0x1000 * n, 0, 1, .w1c, 0⟩
/-- ERR_PASSIVE, bits [1], W1C. -/
def chEventsErrPassive (n : Nat) : Fld := ⟨0, 0xa00010 + 0x1000 * n, 1, 1, .w1c, 0⟩
/-- BRIDGE_LOST, bits [2], W1C. -/
def chEventsBridgeLost (n : Nat) : Fld := ⟨0, 0xa00010 + 0x1000 * n, 2, 1, .w1c, 0⟩
/-- LIN_NO_RESP, bits [3], W1C. -/
def chEventsLinNoResp (n : Nat) : Fld := ⟨0, 0xa00010 + 0x1000 * n, 3, 1, .w1c, 0⟩
/-- TX_TIMEOUT, bits [4], W1C. -/
def chEventsTxTimeout (n : Nat) : Fld := ⟨0, 0xa00010 + 0x1000 * n, 4, 1, .w1c, 0⟩
/-- NEVER_FIT, bits [5], W1C. -/
def chEventsNeverFit (n : Nat) : Fld := ⟨0, 0xa00010 + 0x1000 * n, 5, 1, .w1c, 0⟩

/-! Channel counters, offsets C + 0x040 to C + 0x07C (R241). -/

/-- RX_FRAMES, bits [31:0], RC. -/
def chRxFrames (n : Nat) : Fld := ⟨0, 0xa00040 + 0x1000 * n, 0, 32, .rc, 0⟩
/-- TX_FRAMES, bits [31:0], RC. -/
def chTxFrames (n : Nat) : Fld := ⟨0, 0xa00044 + 0x1000 * n, 0, 32, .rc, 0⟩
/-- BUS_ERRORS, bits [31:0], RC. -/
def chBusErrors (n : Nat) : Fld := ⟨0, 0xa00048 + 0x1000 * n, 0, 32, .rc, 0⟩
/-- FILTER_DROPS, bits [31:0], RC. -/
def chFilterDrops (n : Nat) : Fld := ⟨0, 0xa0004c + 0x1000 * n, 0, 32, .rc, 0⟩
/-- RATE_DROPS, bits [31:0], RC. -/
def chRateDrops (n : Nat) : Fld := ⟨0, 0xa00050 + 0x1000 * n, 0, 32, .rc, 0⟩
/-- RX_OVERRUN, bits [31:0], RC. -/
def chRxOverrun (n : Nat) : Fld := ⟨0, 0xa00054 + 0x1000 * n, 0, 32, .rc, 0⟩
/-- QUEUE_DROPS, bits [31:0], RC. -/
def chQueueDrops (n : Nat) : Fld := ⟨0, 0xa00058 + 0x1000 * n, 0, 32, .rc, 0⟩
/-- QUEUE_EVICT, bits [15:0], RC. -/
def chQueueQueueEvict (n : Nat) : Fld := ⟨0, 0xa0005c + 0x1000 * n, 0, 16, .rc, 0⟩
/-- REPLACED, bits [31:16], RC. -/
def chQueueReplaced (n : Nat) : Fld := ⟨0, 0xa0005c + 0x1000 * n, 16, 16, .rc, 0⟩
/-- TX_TIMEOUT_DROPS, bits [31:0], RC. -/
def chTxTimeoutDrops (n : Nat) : Fld := ⟨0, 0xa00060 + 0x1000 * n, 0, 32, .rc, 0⟩
/-- CONVERT_DROPS, bits [15:0], RC. -/
def chConvertConvertDrops (n : Nat) : Fld := ⟨0, 0xa00064 + 0x1000 * n, 0, 16, .rc, 0⟩
/-- NEVER_FIT, bits [31:16], RC. -/
def chConvertNeverFit (n : Nat) : Fld := ⟨0, 0xa00064 + 0x1000 * n, 16, 16, .rc, 0⟩
/-- SEC_MAC_FAIL, bits [31:0], RC. -/
def chSecMacFail (n : Nat) : Fld := ⟨0, 0xa00068 + 0x1000 * n, 0, 32, .rc, 0⟩
/-- SEC_FRESH_FAIL, bits [31:0], RC. -/
def chSecFreshFail (n : Nat) : Fld := ⟨0, 0xa0006c + 0x1000 * n, 0, 32, .rc, 0⟩
/-- SEC_LEN_DROPS, bits [15:0], RC. -/
def chSecSecLenDrops (n : Nat) : Fld := ⟨0, 0xa00070 + 0x1000 * n, 0, 16, .rc, 0⟩
/-- SEC_KEY_DROPS, bits [31:16], RC. -/
def chSecSecKeyDrops (n : Nat) : Fld := ⟨0, 0xa00070 + 0x1000 * n, 16, 16, .rc, 0⟩
/-- SEC_BLOCKED, bits [15:0], RC. -/
def chSecFmtSecBlocked (n : Nat) : Fld := ⟨0, 0xa00074 + 0x1000 * n, 0, 16, .rc, 0⟩
/-- FORMAT_DROPS, bits [31:16], RC. -/
def chSecFmtFormatDrops (n : Nat) : Fld := ⟨0, 0xa00074 + 0x1000 * n, 16, 16, .rc, 0⟩
/-- LIN_NO_RESP, bits [15:0], RC. -/
def chLinLinNoResp (n : Nat) : Fld := ⟨0, 0xa00078 + 0x1000 * n, 0, 16, .rc, 0⟩
/-- LIN_CSUM_ERR, bits [31:16], RC. -/
def chLinLinCsumErr (n : Nat) : Fld := ⟨0, 0xa00078 + 0x1000 * n, 16, 16, .rc, 0⟩
/-- ADMIN_DROPS, bits [15:0], RC. -/
def chAdmin (n : Nat) : Fld := ⟨0, 0xa0007c + 0x1000 * n, 0, 16, .rc, 0⟩

/-! EDGE_ACC_CTL, offset 0x0B0_0000 (R241). -/

/-- READ, bits [0], WO. -/
def edgeAccCtlRead : Fld := ⟨0, 0xb00000, 0, 1, .wo, 0⟩
/-- TABLE, bits [3:1], RW. -/
def edgeAccCtlTable : Fld := ⟨0, 0xb00000, 1, 3, .rw, 0⟩
/-- INDEX, bits [16:4], RW. -/
def edgeAccCtlIndex : Fld := ⟨0, 0xb00000, 4, 13, .rw, 0⟩
/-- PART, bits [22:17], RW. -/
def edgeAccCtlPart : Fld := ⟨0, 0xb00000, 17, 6, .rw, 0⟩
/-- VIEW, bits [24:23], RW. -/
def edgeAccCtlView : Fld := ⟨0, 0xb00000, 23, 2, .rw, 0⟩
/-- SLOT, bits [26:25], RW. -/
def edgeAccCtlSlot : Fld := ⟨0, 0xb00000, 25, 2, .rw, 0⟩
/-- STATUS, bits [30:27], RO. -/
def edgeAccCtlStatus : Fld := ⟨0, 0xb00000, 27, 4, .ro, 0⟩
/-- DONE, bits [31], RO. -/
def edgeAccCtlDone : Fld := ⟨0, 0xb00000, 31, 1, .ro, 0⟩

/-! EDGE_ACC_DATA[m] and SEC_FV, offsets 0x0B0_0100 + 4 * m for m = 0 to 63, and 0x0B0_0200 to 0x0B0_0208 (R241). -/

/-- DATA, bits [31:0], RO. -/
def edgeAccData (m : Nat) : Fld := ⟨0, 0xb00100 + 0x4 * m, 0, 32, .ro, 0⟩
/-- FV, bits [31:0], RO. -/
def secFv : Fld := ⟨0, 0xb00200, 0, 64, .ro, 0⟩
/-- BLOCKED, bits [0], RO. -/
def secFvBlocked : Fld := ⟨0, 0xb00208, 0, 1, .ro, 0⟩

/-! SEC_EVENTS and tunnel counters, offsets 0x0B0_0300 to 0x0B0_0310 (R241). -/

/-- FV_EXHAUSTED, bits [0], W1C. -/
def secEventsFvExhausted : Fld := ⟨0, 0xb00300, 0, 1, .w1c, 0⟩
/-- RESTORE_FAIL, bits [1], W1C. -/
def secEventsRestoreFail : Fld := ⟨0, 0xb00300, 1, 1, .w1c, 0⟩
/-- LAST_BLOCKED, bits [11:0], RO. -/
def secLastBlocked : Fld := ⟨0, 0xb00304, 0, 12, .ro, 0⟩
/-- UNKNOWN_BUS, bits [31:0], RC. -/
def edgeUnknownBus : Fld := ⟨0, 0xb00308, 0, 32, .rc, 0⟩
/-- ACF_UNSUPPORTED, bits [15:0], RC. -/
def edgeAcfAcfUnsupported : Fld := ⟨0, 0xb0030c, 0, 16, .rc, 0⟩
/-- ACF_LEN, bits [31:16], RC. -/
def edgeAcfAcfLen : Fld := ⟨0, 0xb0030c, 16, 16, .rc, 0⟩
/-- ROUTE_SHORT, bits [31:0], RC. -/
def edgeRouteShort : Fld := ⟨0, 0xb00310, 0, 32, .rc, 0⟩

/-! Binding registers, offsets 0x0B0_1000 + 16 * b for b = 0 to 63 (R241). -/

/-- RX_TUNNEL, bits [31:0], RC. -/
def bindRxTunnel (b : Nat) : Fld := ⟨0, 0xb01000 + 0x10 * b, 0, 32, .rc, 0⟩
/-- TX_TUNNEL, bits [31:0], RC. -/
def bindTxTunnel (b : Nat) : Fld := ⟨0, 0xb01004 + 0x10 * b, 0, 32, .rc, 0⟩
/-- SEQ_GAPS, bits [15:0], RC. -/
def bindSeqSeqGaps (b : Nat) : Fld := ⟨0, 0xb01008 + 0x10 * b, 0, 16, .rc, 0⟩
/-- TX_SEQ, bits [23:16], RO. -/
def bindSeqTxSeq (b : Nat) : Fld := ⟨0, 0xb01008 + 0x10 * b, 16, 8, .ro, 0⟩
/-- LOST, bits [0], RO. -/
def bindLost (b : Nat) : Fld := ⟨0, 0xb0100c + 0x10 * b, 0, 1, .ro, 0⟩

/-! VAULT_STATUS, offset 0x00C_0000 (R271). -/

/-- SLOTS_READY, bits [9:0], RO. -/
def vaultStatusSlotsReady : Fld := ⟨0, 0xc0000, 0, 10, .ro, 0⟩
/-- TAMPER_LATCH, bits [10], RO. -/
def vaultStatusTamperLatch : Fld := ⟨0, 0xc0000, 10, 1, .ro, 0⟩
/-- TAMPER_CAUSE, bits [13:11], RO. -/
def vaultStatusTamperCause : Fld := ⟨0, 0xc0000, 11, 3, .ro, 0⟩
/-- DRBG_FAULT, bits [14], RO. -/
def vaultStatusDrbgFault : Fld := ⟨0, 0xc0000, 14, 1, .ro, 0⟩

/-! LC_STATUS, offset 0x00C_0004 (R271). -/

/-- STATE, bits [2:0], RO. -/
def lcStatusState : Fld := ⟨0, 0xc0004, 0, 3, .ro, 0⟩
/-- LC_BUSY, bits [3], RO. -/
def lcStatusLcBusy : Fld := ⟨0, 0xc0004, 3, 1, .ro, 0⟩
/-- VK_PROG, bits [7:4], RO. -/
def lcStatusVkProg : Fld := ⟨0, 0xc0004, 4, 4, .ro, 0⟩
/-- VK_REVOKED, bits [11:8], RO. -/
def lcStatusVkRevoked : Fld := ⟨0, 0xc0004, 8, 4, .ro, 0⟩
/-- ROOT_CUST_PROG, bits [12], RO. -/
def lcStatusRootCustProg : Fld := ⟨0, 0xc0004, 12, 1, .ro, 0⟩

/-! LC_REQ, offset 0x00C_0008, and LC_AUTH[m], offsets 0x00C_0010 + 4 * m for m = 0 to 3 (R271). -/

/-- TARGET, bits [2:0], WO. -/
def lcReqTarget : Fld := ⟨0, 0xc0008, 0, 3, .wo, 0⟩
/-- GO, bits [3], WO. -/
def lcReqGo : Fld := ⟨0, 0xc0008, 3, 1, .wo, 0⟩
/-- RESULT, bits [7:4], RO. -/
def lcReqResult : Fld := ⟨0, 0xc0008, 4, 4, .ro, 0⟩
/-- AUTH, bits [31:0], RW. -/
def lcAuth (m : Nat) : Fld := ⟨0, 0xc0010 + 0x4 * m, 0, 32, .rw, 0⟩

/-! Slot inspection, offsets 0x00C_0020 to 0x00C_0030 (R271). -/

/-- SLOT, bits [8:0], RW. -/
def slotSel : Fld := ⟨0, 0xc0020, 0, 9, .rw, 0⟩
/-- STATE, bits [1:0], RO. -/
def slotStateState : Fld := ⟨0, 0xc0024, 0, 2, .ro, 0⟩
/-- LEN256, bits [2], RO. -/
def slotStateLen256 : Fld := ⟨0, 0xc0024, 2, 1, .ro, 0⟩
/-- ORIGIN, bits [4:3], RO. -/
def slotStateOrigin : Fld := ⟨0, 0xc0024, 3, 2, .ro, 0⟩
/-- DEPTH, bits [7:5], RO. -/
def slotStateDepth : Fld := ⟨0, 0xc0024, 5, 3, .ro, 0⟩
/-- PARENT, bits [16:8], RO. -/
def slotStateParent : Fld := ⟨0, 0xc0024, 8, 9, .ro, 0⟩
/-- MASTERS, bits [4:0], RO. -/
def slotAttrMasters : Fld := ⟨0, 0xc0028, 0, 5, .ro, 0⟩
/-- SECURE, bits [5], RO. -/
def slotAttrSecure : Fld := ⟨0, 0xc0028, 5, 1, .ro, 0⟩
/-- LC, bits [10:6], RO. -/
def slotAttrLc : Fld := ⟨0, 0xc0028, 6, 5, .ro, 0⟩
/-- USAGE, bits [13:11], RO. -/
def slotAttrUsage : Fld := ⟨0, 0xc0028, 11, 3, .ro, 0⟩
/-- REVOKE_BY, bits [15:14], RO. -/
def slotAttrRevokeBy : Fld := ⟨0, 0xc0028, 14, 2, .ro, 0⟩
/-- GEN, bits [15:0], RO. -/
def slotGen : Fld := ⟨0, 0xc002c, 0, 16, .ro, 0⟩
/-- USES, bits [31:0], RC. -/
def slotUses : Fld := ⟨0, 0xc0030, 0, 32, .rc, 0⟩

/-! REVOKE, offset 0x00C_0034, and REVOKE_STATUS, offset 0x00C_0038 (R271). -/

/-- SLOT, bits [8:0], WO. -/
def revokeSlot : Fld := ⟨0, 0xc0034, 0, 9, .wo, 0⟩
/-- GO, bits [9], WO. -/
def revokeGo : Fld := ⟨0, 0xc0034, 9, 1, .wo, 0⟩
/-- PENDING, bits [3:0], RO. -/
def revokeStatusPending : Fld := ⟨0, 0xc0038, 0, 4, .ro, 0⟩
/-- LAST_SLOT, bits [12:4], RO. -/
def revokeStatusLastSlot : Fld := ⟨0, 0xc0038, 4, 9, .ro, 0⟩
/-- RESULT, bits [15:13], RO. -/
def revokeStatusResult : Fld := ⟨0, 0xc0038, 13, 3, .ro, 0⟩

/-! REMASK_STATUS, KEY_STATS and TAMPER_CLR, offsets 0x00C_003C to 0x00C_0044 (R271). -/

/-- PERIOD, bits [5:0], RO. -/
def remaskStatusPeriod : Fld := ⟨0, 0xc003c, 0, 6, .ro, 10⟩
/-- PASSES, bits [31:8], RC. -/
def remaskStatusPasses : Fld := ⟨0, 0xc003c, 8, 24, .rc, 0⟩
/-- DENIED, bits [15:0], RC. -/
def keyStatsDenied : Fld := ⟨0, 0xc0040, 0, 16, .rc, 0⟩
/-- REVOKED_ABORTS, bits [31:16], RC. -/
def keyStatsRevokedAborts : Fld := ⟨0, 0xc0040, 16, 16, .rc, 0⟩
/-- CLEAR, bits [0], SP. -/
def tamperClr : Fld := ⟨0, 0xc0044, 0, 1, .sp, 0⟩

/-! Import registers, offsets 0x00C_0050 to 0x00C_00AC (R271). -/

/-- SLOT, bits [8:0], WO. -/
def importCtlSlot : Fld := ⟨0, 0xc0050, 0, 9, .wo, 0⟩
/-- GO, bits [9], WO. -/
def importCtlGo : Fld := ⟨0, 0xc0050, 9, 1, .wo, 0⟩
/-- RESULT, bits [13:10], RO. -/
def importCtlResult : Fld := ⟨0, 0xc0050, 10, 4, .ro, 0⟩
/-- SHARE0, bits [31:0], WO. -/
def importShare0 (m : Nat) : Fld := ⟨0, 0xc0060 + 0x4 * m, 0, 32, .wo, 0⟩
/-- SHARE1, bits [31:0], WO. -/
def importShare1 (m : Nat) : Fld := ⟨0, 0xc0080 + 0x4 * m, 0, 32, .wo, 0⟩
/-- TAG, bits [31:0], WO. -/
def importTag (m : Nat) : Fld := ⟨0, 0xc00a0 + 0x4 * m, 0, 32, .wo, 0⟩

/-! MAC cluster status, offsets 0x00C_0100 and 0x00C_0104 (R271). -/

/-- CORES_BUSY, bits [7:0], RO. -/
def macStatusCoresBusy : Fld := ⟨0, 0xc0100, 0, 8, .ro, 0⟩
/-- SUSPENDED, bits [13:8], RO. -/
def macStatusSuspended : Fld := ⟨0, 0xc0100, 8, 6, .ro, 0⟩
/-- MAX_LINE_WAIT, bits [31:16], RC. -/
def macStatusMaxLineWait : Fld := ⟨0, 0xc0100, 16, 16, .rc, 0⟩
/-- SUSPENDS, bits [31:0], RC. -/
def macSuspends : Fld := ⟨0, 0xc0104, 0, 32, .rc, 0⟩

/-! MCJ registers, offsets 0x00C_0180 to 0x00C_01BC, banked per master (R271). -/

/-- OP, bits [2:0], RW. -/
def mcjCtlOp (b : Nat) : Fld := ⟨b, 0xc0180, 0, 3, .rw, 0⟩
/-- SLOT, bits [11:3], RW. -/
def mcjCtlSlot (b : Nat) : Fld := ⟨b, 0xc0180, 3, 9, .rw, 0⟩
/-- GO, bits [12], WO. -/
def mcjCtlGo (b : Nat) : Fld := ⟨b, 0xc0180, 12, 1, .wo, 0⟩
/-- SRC, bits [21:0], RW. -/
def mcjSrc (b : Nat) : Fld := ⟨b, 0xc0184, 0, 22, .rw, 0⟩
/-- LEN, bits [20:0], RW. -/
def mcjLen (b : Nat) : Fld := ⟨b, 0xc0188, 0, 21, .rw, 0⟩
/-- STATE, bits [2:0], RO. -/
def mcjStatusState (b : Nat) : Fld := ⟨b, 0xc018c, 0, 3, .ro, 0⟩
/-- RESULT, bits [7:4], RO. -/
def mcjStatusResult (b : Nat) : Fld := ⟨b, 0xc018c, 4, 4, .ro, 0⟩
/-- TAG, bits [31:0], RW. -/
def mcjTag (b m : Nat) : Fld := ⟨b, 0xc01a0 + 0x4 * m, 0, 32, .rw, 0⟩

/-! Attestation registers, offsets 0x00C_0200 to 0x00C_02E4 (R271). -/

/-- NONCE, bits [31:0], RW. -/
def attNonce (m : Nat) : Fld := ⟨0, 0xc0200 + 0x4 * m, 0, 32, .rw, 0⟩
/-- GO, bits [0], WO. -/
def attCtlGo : Fld := ⟨0, 0xc0210, 0, 1, .wo, 0⟩
/-- STATE, bits [2:1], RO. -/
def attCtlState : Fld := ⟨0, 0xc0210, 1, 2, .ro, 0⟩
/-- RESULT, bits [6:3], RO. -/
def attCtlResult : Fld := ⟨0, 0xc0210, 3, 4, .ro, 0⟩
/-- RESP, bits [31:0], RO. -/
def attResp (m : Nat) : Fld := ⟨0, 0xc0240 + 0x4 * m, 0, 32, .ro, 0⟩

/-! Scoresheet status and head, offsets 0x00E_0000 to 0x00E_0034 (R271). -/

/-- WRITABLE, bits [0], RO. -/
def sbStatusWritable : Fld := ⟨0, 0xe0000, 0, 1, .ro, 0⟩
/-- READ_ONLY_FULL, bits [1], RO. -/
def sbStatusReadOnlyFull : Fld := ⟨0, 0xe0000, 1, 1, .ro, 0⟩
/-- READ_ONLY_KEY, bits [2], RO. -/
def sbStatusReadOnlyKey : Fld := ⟨0, 0xe0000, 2, 1, .ro, 0⟩
/-- ANCHORS_EXH, bits [3], RO. -/
def sbStatusAnchorsExh : Fld := ⟨0, 0xe0000, 3, 1, .ro, 0⟩
/-- OLDEST, bits [11:4], RO. -/
def sbStatusOldest : Fld := ⟨0, 0xe0000, 4, 8, .ro, 0⟩
/-- NEWEST, bits [19:12], RO. -/
def sbStatusNewest : Fld := ⟨0, 0xe0000, 12, 8, .ro, 0⟩
/-- FILL, bits [29:20], RO. -/
def sbStatusFill : Fld := ⟨0, 0xe0000, 20, 10, .ro, 0⟩
/-- SEQ, bits [31:0], RO. -/
def sbHeadSeq : Fld := ⟨0, 0xe0004, 0, 64, .ro, 0⟩
/-- HEAD, bits [31:0], RO. -/
def sbHead (m : Nat) : Fld := ⟨0, 0xe0010 + 0x4 * m, 0, 32, .ro, 0⟩
/-- FIRST, bits [31:0], RO. -/
def sbFirst : Fld := ⟨0, 0xe0030, 0, 64, .ro, 0⟩

/-! Scoresheet reading, offsets 0x00E_0040 to 0x00E_00FC (R271). -/

/-- RD_SEQ, bits [31:0], RW. -/
def sbRdSeq : Fld := ⟨0, 0xe0040, 0, 64, .rw, 0⟩
/-- GO, bits [0], WO. -/
def sbRdGo : Fld := ⟨0, 0xe0048, 0, 1, .wo, 0⟩
/-- STATUS, bits [3:1], RO. -/
def sbRdStatus : Fld := ⟨0, 0xe0048, 1, 3, .ro, 0⟩
/-- DONE, bits [31], RO. -/
def sbRdDone : Fld := ⟨0, 0xe0048, 31, 1, .ro, 0⟩
/-- RD_DATA, bits [31:0], RO. -/
def sbRdData (m : Nat) : Fld := ⟨0, 0xe0080 + 0x4 * m, 0, 32, .ro, 0⟩

/-! Retiring and statistics, offsets 0x00E_0100 to 0x00E_0124 (R271). -/

/-- BLOCK, bits [7:0], WO. -/
def sbRetireBlock : Fld := ⟨0, 0xe0100, 0, 8, .wo, 0⟩
/-- GO, bits [8], WO. -/
def sbRetireGo : Fld := ⟨0, 0xe0100, 8, 1, .wo, 0⟩
/-- RESULT, bits [11:9], RO. -/
def sbRetireResult : Fld := ⟨0, 0xe0100, 9, 3, .ro, 0⟩
/-- RETIRE_HASH, bits [31:0], WO. -/
def sbRetireHash (m : Nat) : Fld := ⟨0, 0xe0110 + 0x4 * m, 0, 32, .wo, 0⟩
/-- LOST, bits [15:0], RC. -/
def sbStatsLost : Fld := ⟨0, 0xe0120, 0, 16, .rc, 0⟩
/-- BREAKS, bits [31:16], RC. -/
def sbStatsBreaks : Fld := ⟨0, 0xe0120, 16, 16, .rc, 0⟩
/-- ANCHORS, bits [8:0], RO. -/
def sbAnchors : Fld := ⟨0, 0xe0124, 0, 9, .ro, 0⟩

/-! PWR_STATUS, offset 0x001_0000 (R297). -/

/-- PHASE, bits [2:0], RO. -/
def pwrStatusPhase : Fld := ⟨0, 0x10000, 0, 3, .ro, 0⟩
/-- TARGET, bits [3], RO. -/
def pwrStatusTarget : Fld := ⟨0, 0x10000, 3, 1, .ro, 0⟩
/-- FORCED, bits [4], RO. -/
def pwrStatusForced : Fld := ⟨0, 0x10000, 4, 1, .ro, 0⟩
/-- BLOCKERS, bits [13:8], RO. -/
def pwrStatusBlockers : Fld := ⟨0, 0x10000, 8, 6, .ro, 32⟩

/-! PWR_CTL, offset 0x001_0004 (R297). -/

/-- DESCENT_REQ, bits [0], WO. -/
def pwrCtlDescentReq : Fld := ⟨0, 0x10004, 0, 1, .wo, 0⟩
/-- REQ_PARKED, bits [1], WO. -/
def pwrCtlReqParked : Fld := ⟨0, 0x10004, 1, 1, .wo, 0⟩
/-- FORCE, bits [2], WO. -/
def pwrCtlForce : Fld := ⟨0, 0x10004, 2, 1, .wo, 0⟩
/-- HOST_HOLD, bits [3], RW. -/
def pwrCtlHostHold : Fld := ⟨0, 0x10004, 3, 1, .rw, 0⟩

/-! WAKE_CAUSE, offset 0x001_0008 (R297). -/

/-- SW_MATCH, bits [0], W1C. -/
def wakeCauseSwMatch : Fld := ⟨0, 0x10008, 0, 1, .w1c, 0⟩
/-- SW_ERRCNT, bits [1], W1C. -/
def wakeCauseSwErrcnt : Fld := ⟨0, 0x10008, 1, 1, .w1c, 0⟩
/-- SW_WUP, bits [2], W1C. -/
def wakeCauseSwWup : Fld := ⟨0, 0x10008, 2, 1, .w1c, 0⟩
/-- LIN, bits [3], W1C. -/
def wakeCauseLin : Fld := ⟨0, 0x10008, 3, 1, .w1c, 0⟩
/-- PIN, bits [4], W1C. -/
def wakeCausePin : Fld := ⟨0, 0x10008, 4, 1, .w1c, 0⟩
/-- TC10, bits [5], W1C. -/
def wakeCauseTc10 : Fld := ⟨0, 0x10008, 5, 1, .w1c, 0⟩
/-- PERST, bits [6], W1C. -/
def wakeCausePerst : Fld := ⟨0, 0x10008, 6, 1, .w1c, 0⟩
/-- TIMER, bits [7], W1C. -/
def wakeCauseTimer : Fld := ⟨0, 0x10008, 7, 1, .w1c, 0⟩
/-- LATCHED, bits [8], W1C. -/
def wakeCauseLatched : Fld := ⟨0, 0x10008, 8, 1, .w1c, 0⟩
/-- RETENTION_LOST, bits [9], W1C. -/
def wakeCauseRetentionLost : Fld := ⟨0, 0x10008, 9, 1, .w1c, 0⟩
/-- SOURCE, bits [23:16], RO. -/
def wakeCauseSource : Fld := ⟨0, 0x10008, 16, 8, .ro, 0⟩
/-- FROM, bits [25:24], RO. -/
def wakeCauseFrom : Fld := ⟨0, 0x10008, 24, 2, .ro, 0⟩

/-! Descent and wake statistics, offsets 0x001_000C to 0x001_0020 (R297). -/

/-- ASLEEP_TIME, bits [31:0], RO. -/
def asleepTime : Fld := ⟨0, 0x1000c, 0, 32, .ro, 0⟩
/-- DESCENTS, bits [15:0], RC. -/
def descentsDescents : Fld := ⟨0, 0x10010, 0, 16, .rc, 0⟩
/-- ABORTS, bits [31:16], RC. -/
def descentsAborts : Fld := ⟨0, 0x10010, 16, 16, .rc, 0⟩
/-- PHASE, bits [2:0], RO. -/
def abortInfoPhase : Fld := ⟨0, 0x10014, 0, 3, .ro, 0⟩
/-- CAUSE, bits [6:3], RO. -/
def abortInfoCause : Fld := ⟨0, 0x10014, 3, 4, .ro, 0⟩
/-- SOURCE, bits [15:8], RO. -/
def abortInfoSource : Fld := ⟨0, 0x10014, 8, 8, .ro, 0⟩
/-- DESCENT_DISCARDS, bits [31:0], RC. -/
def descentDiscards : Fld := ⟨0, 0x10018, 0, 32, .rc, 0⟩
/-- TC10_NOACK, bits [15:0], RC. -/
def pwrNetTc10Noack : Fld := ⟨0, 0x1001c, 0, 16, .rc, 0⟩
/-- NM_SUPPRESSED, bits [31:16], RC. -/
def pwrNetNmSuppressed : Fld := ⟨0, 0x1001c, 16, 16, .rc, 0⟩
/-- CORRECTED, bits [15:0], RC. -/
def pwrScrubCorrected : Fld := ⟨0, 0x10020, 0, 16, .rc, 0⟩
/-- PASSES, bits [31:16], RC. -/
def pwrScrubPasses : Fld := ⟨0, 0x10020, 16, 16, .rc, 0⟩

/-! NET_STATUS[n], offsets 0x001_0100 + 4 * n for n = 0 to 31, and NET_CLR, offset 0x001_0180 (R297). -/

/-- AWAKE, bits [0], RO. -/
def netStatusAwake (n : Nat) : Fld := ⟨0, 0x10100 + 0x4 * n, 0, 1, .ro, 0⟩
/-- SUPPRESSED, bits [1], RO. -/
def netStatusSuppressed (n : Nat) : Fld := ⟨0, 0x10100 + 0x4 * n, 1, 1, .ro, 0⟩
/-- EPISODE, bits [31:8], RO. -/
def netStatusEpisode (n : Nat) : Fld := ⟨0, 0x10100 + 0x4 * n, 8, 24, .ro, 0⟩
/-- CLR, bits [31:0], WO. -/
def netClr : Fld := ⟨0, 0x10180, 0, 32, .wo, 0⟩

/-! Per-bank registers, base K (R320). -/

/-- SIZE_KIB, bits [15:0], RO. -/
def bankSizeSizeKib (k : Nat) : Fld := ⟨0, 0xe00000 + 0x100 * k, 0, 16, .ro, bankSizeKiB k⟩
/-- RETAINED, bits [16], RO. -/
def bankSizeRetained (k : Nat) : Fld := ⟨0, 0xe00000 + 0x100 * k, 16, 1, .ro, (if k < 2 ∨ k = 3 then 1 else 0)⟩
/-- ECC_CORR, bits [15:0], RC. -/
def bankEccEccCorr (k : Nat) : Fld := ⟨0, 0xe00004 + 0x100 * k, 0, 16, .rc, 0⟩
/-- ECC_UNCORR, bits [31:16], RC. -/
def bankEccEccUncorr (k : Nat) : Fld := ⟨0, 0xe00004 + 0x100 * k, 16, 16, .rc, 0⟩
/-- ECC_LAST_ADDR, bits [23:0], RO. -/
def bankEccLastAddr (k : Nat) : Fld := ⟨0, 0xe00008 + 0x100 * k, 0, 24, .ro, 0⟩
/-- SCRUB_PASSES, bits [15:0], RC. -/
def bankScrub (k : Nat) : Fld := ⟨0, 0xe0000c + 0x100 * k, 0, 16, .rc, 0⟩
/-- CONFLICT[m], bits [31:0], RC. -/
def bankConflict (k m : Nat) : Fld := ⟨0, 0xe00010 + 0x100 * k + 0x4 * m, 0, 32, .rc, 0⟩
/-- ATOMIC_OPS, bits [31:0], RC. -/
def bankAtomicOps (k : Nat) : Fld := ⟨0, 0xe00038 + 0x100 * k, 0, 32, .rc, 0⟩

/-! LOCKSTEP_STATUS, offset 0x0E0_0800 (R320). -/

/-- INJ_LAST, bits [0], RO. -/
def lockstepStatusInjLast : Fld := ⟨0, 0xe00800, 0, 1, .ro, 0⟩
/-- CMP_FAULT, bits [1], RO. -/
def lockstepStatusCmpFault : Fld := ⟨0, 0xe00800, 1, 1, .ro, 0⟩
/-- DLY_FAULT, bits [2], RO. -/
def lockstepStatusDlyFault : Fld := ⟨0, 0xe00800, 2, 1, .ro, 0⟩
/-- MISMATCH, bits [3], RO. -/
def lockstepStatusMismatch : Fld := ⟨0, 0xe00800, 3, 1, .ro, 0⟩
/-- INJ_BIT, bits [12:4], RO. -/
def lockstepStatusInjBit : Fld := ⟨0, 0xe00800, 4, 9, .ro, 0⟩

/-! Lockstep counters and mismatch record, offsets 0x0E0_0804 to 0x0E0_080C (R320). -/

/-- INJ_PASSES, bits [31:0], RC. -/
def injPasses : Fld := ⟨0, 0xe00804, 0, 32, .rc, 0⟩
/-- FIRST_BIT, bits [8:0], RO. -/
def mismatchBit : Fld := ⟨0, 0xe00808, 0, 9, .ro, 0⟩
/-- MISMATCH_TEMPO, bits [31:0], RO. -/
def mismatchTempo : Fld := ⟨0, 0xe0080c, 0, 32, .ro, 0⟩

/-! CORE_CTL, offset 0x0E0_0810 (R320). -/

/-- HELD, bits [3:0], RO. -/
def coreCtlHeld : Fld := ⟨0, 0xe00810, 0, 4, .ro, 0⟩
/-- RELEASE, bits [7:4], SP. -/
def coreCtlRelease : Fld := ⟨0, 0xe00810, 4, 4, .sp, 0⟩

/-! Guard registers, offsets 0x0E0_0900 to 0x0E0_090C (R320). -/

/-- GUARD_VIOL, bits [15:0], RC. -/
def guardViol : Fld := ⟨0, 0xe00900, 0, 16, .rc, 0⟩
/-- OFFSET, bits [23:2], RO. -/
def guardLastOffset : Fld := ⟨0, 0xe00904, 2, 22, .ro, 0⟩
/-- MASTER, bits [27:24], RO. -/
def guardLastMaster : Fld := ⟨0, 0xe00904, 24, 4, .ro, 0⟩
/-- H_VIOL, bits [15:0], RC. -/
def hViol : Fld := ⟨0, 0xe00908, 0, 16, .rc, 0⟩
/-- OFFSET, bits [21:0], RO. -/
def hLastOffset : Fld := ⟨0, 0xe0090c, 0, 22, .ro, 0⟩
/-- MASTER, bits [25:22], RO. -/
def hLastMaster : Fld := ⟨0, 0xe0090c, 22, 4, .ro, 0⟩
/-- WRITE, bits [26], RO. -/
def hLastWrite : Fld := ⟨0, 0xe0090c, 26, 1, .ro, 0⟩

/-! HB_STATUS, offset 0x010_0000 (R353). -/

/-- DL_ACTIVE, bits [0], RO. -/
def hbStatusDlActive : Fld := ⟨0, 0x100000, 0, 1, .ro, 0⟩
/-- RATE, bits [3:1], RO. -/
def hbStatusRate : Fld := ⟨0, 0x100000, 1, 3, .ro, 0⟩
/-- WIDTH, bits [6:4], RO. -/
def hbStatusWidth : Fld := ⟨0, 0x100000, 4, 3, .ro, 0⟩
/-- DSTATE, bits [8:7], RO. -/
def hbStatusDstate : Fld := ⟨0, 0x100000, 7, 2, .ro, 0⟩
/-- BME, bits [9], RO. -/
def hbStatusBme : Fld := ⟨0, 0x100000, 9, 1, .ro, 0⟩
/-- P48_UP, bits [10], RO. -/
def hbStatusP48Up : Fld := ⟨0, 0x100000, 10, 1, .ro, 0⟩
/-- ASPM, bits [12:11], RO. -/
def hbStatusAspm : Fld := ⟨0, 0x100000, 11, 2, .ro, 0⟩
/-- PE_WAKE, bits [13], RO. -/
def hbStatusPeWake : Fld := ⟨0, 0x100000, 13, 1, .ro, 0⟩

/-! Bridge counters, offsets 0x010_0004 to 0x010_0010 (R353). -/

/-- STALEMATE_RETRIES, bits [15:0], RC. -/
def brRetriesStalemateRetries : Fld := ⟨0, 0x100004, 0, 16, .rc, 0⟩
/-- L1_EXITS, bits [31:16], RC. -/
def brRetriesL1Exits : Fld := ⟨0, 0x100004, 16, 16, .rc, 0⟩
/-- P48_LINKDOWN, bits [31:0], RC. -/
def brP48Linkdown : Fld := ⟨0, 0x100008, 0, 32, .rc, 0⟩
/-- SEM_TIMEOUTS, bits [15:0], RC. -/
def brSemSemTimeouts : Fld := ⟨0, 0x10000c, 0, 16, .rc, 0⟩
/-- SEM_WAIT_FAILS, bits [31:16], RC. -/
def brSemSemWaitFails : Fld := ⟨0, 0x10000c, 16, 16, .rc, 0⟩
/-- ABORTS, bits [15:0], RC. -/
def brSpiAborts : Fld := ⟨0, 0x100010, 0, 16, .rc, 0⟩
/-- ERRORS, bits [31:16], RC. -/
def brSpiErrors : Fld := ⟨0, 0x100010, 16, 16, .rc, 0⟩

/-! Ledger registers, offsets 0x010_0020 to 0x010_002C, banked per originator (R353). -/

/-- COUNT, bits [6:0], RO. -/
def ledgerCount (b : Nat) : Fld := ⟨b, 0x100020, 0, 7, .ro, 0⟩
/-- OVERFLOW, bits [31:16], RC. -/
def ledgerOvf : Fld := ⟨0, 0x100020, 16, 16, .rc, 0⟩
/-- ADDR, bits [31:0], RO. -/
def ledgerAddr (b : Nat) : Fld := ⟨b, 0x100024, 0, 64, .ro, 0⟩
/-- CODE, bits [3:0], RC. -/
def ledgerInfoCode (b : Nat) : Fld := ⟨b, 0x10002c, 0, 4, .rc, 0⟩
/-- ORIGIN, bits [7:4], RC. -/
def ledgerInfoOrigin (b : Nat) : Fld := ⟨b, 0x10002c, 4, 4, .rc, 0⟩
/-- SPACE, bits [9:8], RC. -/
def ledgerInfoSpace (b : Nat) : Fld := ⟨b, 0x10002c, 8, 2, .rc, 0⟩
/-- VALID, bits [10], RC. -/
def ledgerInfoValid (b : Nat) : Fld := ⟨b, 0x10002c, 10, 1, .rc, 0⟩
/-- TEMPO, bits [31:16], RC. -/
def ledgerInfoTempo (b : Nat) : Fld := ⟨b, 0x10002c, 16, 16, .rc, 0⟩

/-! SEM[s], offsets 0x010_0100 + 4 * s for s = 0 to 31 (R353). -/

/-- TAKE, bits [0], WO. -/
def semTake (s : Nat) : Fld := ⟨0, 0x100100 + 0x4 * s, 0, 1, .wo, 0⟩
/-- RELEASE, bits [1], WO. -/
def semRelease (s : Nat) : Fld := ⟨0, 0x100100 + 0x4 * s, 1, 1, .wo, 0⟩
/-- OWNER, bits [5:2], RO. -/
def semOwner (s : Nat) : Fld := ⟨0, 0x100100 + 0x4 * s, 2, 4, .ro, 0⟩
/-- MINE, bits [6], RO. -/
def semMine (s : Nat) : Fld := ⟨0, 0x100100 + 0x4 * s, 6, 1, .ro, 0⟩

/-! OUTWIN[w], offsets 0x010_0200 + 16 * w for w = 0 to 7 (R353). -/

/-- BASE, bits [31:0], RO. -/
def outwinBase (w : Nat) : Fld := ⟨0, 0x100200 + 0x10 * w, 0, 64, .ro, 0⟩
/-- SIZE, bits [18:0], RO. -/
def outwinSize (w : Nat) : Fld := ⟨0, 0x100208 + 0x10 * w, 0, 19, .ro, 0⟩
/-- FLAGS, bits [2:0], RO. -/
def outwinFlags (w : Nat) : Fld := ⟨0, 0x10020c + 0x10 * w, 0, 3, .ro, 0⟩

/-! Ring registers, base N = 0x010_1000 + 0x40 * r for r = 0 to 63 (R353). -/

/-- DESC_BASE, bits [31:0], RW. -/
def ringDescBase (r : Nat) : Fld := ⟨0, 0x101000 + 0x40 * r, 0, 64, .rw, 0⟩
/-- CPL_BASE, bits [31:0], RW. -/
def ringCplBase (r : Nat) : Fld := ⟨0, 0x101008 + 0x40 * r, 0, 64, .rw, 0⟩
/-- SIZE_LOG2, bits [3:0], RW. -/
def ringCfgSizeLog2 (r : Nat) : Fld := ⟨0, 0x101010 + 0x40 * r, 0, 4, .rw, 4⟩
/-- EN, bits [4], RW. -/
def ringCfgEn (r : Nat) : Fld := ⟨0, 0x101010 + 0x40 * r, 4, 1, .rw, 0⟩
/-- TS, bits [5], RW. -/
def ringCfgTs (r : Nat) : Fld := ⟨0, 0x101010 + 0x40 * r, 5, 1, .rw, 0⟩
/-- TAIL, bits [15:0], RW. -/
def ringTail (r : Nat) : Fld := ⟨0, 0x101014 + 0x40 * r, 0, 16, .rw, 0⟩
/-- HEAD, bits [15:0], RO. -/
def ringHeadHead (r : Nat) : Fld := ⟨0, 0x101018 + 0x40 * r, 0, 16, .ro, 0⟩
/-- STOPPED, bits [16], RO. -/
def ringHeadStopped (r : Nat) : Fld := ⟨0, 0x101018 + 0x40 * r, 16, 1, .ro, 0⟩
/-- MOD_TIMER, bits [9:0], RW. -/
def ringModModTimer (r : Nat) : Fld := ⟨0, 0x10101c + 0x40 * r, 0, 10, .rw, 0⟩
/-- MOD_COUNT, bits [25:16], RW. -/
def ringModModCount (r : Nat) : Fld := ⟨0, 0x10101c + 0x40 * r, 16, 10, .rw, 0⟩
/-- FRAMES, bits [31:0], RC. -/
def ringFrames (r : Nat) : Fld := ⟨0, 0x101020 + 0x40 * r, 0, 32, .rc, 0⟩
/-- FULL_DROPS, bits [31:0], RC. -/
def ringFullDrops (r : Nat) : Fld := ⟨0, 0x101024 + 0x40 * r, 0, 32, .rc, 0⟩
/-- TOO_BIG, bits [15:0], RC. -/
def ringErrTooBig (r : Nat) : Fld := ⟨0, 0x101028 + 0x40 * r, 0, 16, .rc, 0⟩
/-- BAD_DESC, bits [31:16], RC. -/
def ringErrBadDesc (r : Nat) : Fld := ⟨0, 0x101028 + 0x40 * r, 16, 16, .rc, 0⟩

/-! Interrupt controller registers, offsets 0x008_0000 to 0x008_0020 (R372). -/

/-- SOURCE, bits [10:0], WO. -/
def doorbell : Fld := ⟨0, 0x80000, 0, 11, .wo, 0⟩
/-- SPURIOUS, bits [15:0], RC. -/
def intStatsSpurious : Fld := ⟨0, 0x80004, 0, 16, .rc, 0⟩
/-- COMPLETE_ERR, bits [31:16], RC. -/
def intStatsCompleteErr : Fld := ⟨0, 0x80004, 16, 16, .rc, 0⟩
/-- DB_REFUSED, bits [15:0], RC. -/
def intRefusedDbRefused : Fld := ⟨0, 0x80008, 0, 16, .rc, 0⟩
/-- EN_REFUSED, bits [31:16], RC. -/
def intRefusedEnRefused : Fld := ⟨0, 0x80008, 16, 16, .rc, 0⟩
/-- RESTORED, bits [0], RO. -/
def intRestoreRestored : Fld := ⟨0, 0x8000c, 0, 1, .ro, 0⟩
/-- REPENDED, bits [27:16], RO. -/
def intRestoreRepended : Fld := ⟨0, 0x8000c, 16, 12, .ro, 0⟩
/-- SOURCE, bits [10:0], RC. -/
def claimNSource (b : Nat) : Fld := ⟨b, 0x80010, 0, 11, .rc, 0⟩
/-- VALID, bits [31], RC. -/
def claimNValid (b : Nat) : Fld := ⟨b, 0x80010, 31, 1, .rc, 0⟩
/-- SOURCE, bits [10:0], WO. -/
def completeN (b : Nat) : Fld := ⟨b, 0x80014, 0, 11, .wo, 0⟩
/-- SOURCE, bits [10:0], RC. -/
def claimFSource (b : Nat) : Fld := ⟨b, 0x80018, 0, 11, .rc, 0⟩
/-- VALID, bits [31], RC. -/
def claimFValid (b : Nat) : Fld := ⟨b, 0x80018, 31, 1, .rc, 0⟩
/-- SOURCE, bits [10:0], WO. -/
def completeF (b : Nat) : Fld := ⟨b, 0x8001c, 0, 11, .wo, 0⟩
/-- N_PEND, bits [0], RO. -/
def tgtStatusNPend (b : Nat) : Fld := ⟨b, 0x80020, 0, 1, .ro, 0⟩
/-- F_PEND, bits [1], RO. -/
def tgtStatusFPend (b : Nat) : Fld := ⟨b, 0x80020, 1, 1, .ro, 0⟩
/-- ACT_N, bits [12:2], RO. -/
def tgtStatusActN (b : Nat) : Fld := ⟨b, 0x80020, 2, 11, .ro, 2047⟩
/-- ACT_F, bits [23:13], RO. -/
def tgtStatusActF (b : Nat) : Fld := ⟨b, 0x80020, 13, 11, .ro, 2047⟩

/-! SRC_CFG[n], offsets 0x008_2000 + 4 * n for n = 0 to 2047 (R372). -/

/-- EN, bits [0], RW. -/
def srcCfgEn (n : Nat) : Fld := ⟨0, 0x82000 + 0x4 * n, 0, 1, .rw, srcEnReset n⟩
/-- CLASS, bits [1], CMT. -/
def srcCfgClass (n : Nat) : Fld := ⟨0, 0x82000 + 0x4 * n, 1, 1, .cmt, srcClassReset n⟩
/-- TARGET, bits [4:2], CMT. -/
def srcCfgTarget (n : Nat) : Fld := ⟨0, 0x82000 + 0x4 * n, 2, 3, .cmt, srcTargetReset n⟩
/-- VECTOR, bits [8:5], CMT. -/
def srcCfgVector (n : Nat) : Fld := ⟨0, 0x82000 + 0x4 * n, 5, 4, .cmt, srcVectorReset n⟩
/-- STATE, bits [10:9], RO. -/
def srcCfgState (n : Nat) : Fld := ⟨0, 0x82000 + 0x4 * n, 9, 2, .ro, 0⟩
/-- LEVEL, bits [11], RO. -/
def srcCfgLevel (n : Nat) : Fld := ⟨0, 0x82000 + 0x4 * n, 11, 1, .ro, 0⟩
/-- FIXED, bits [12], RO. -/
def srcCfgFixed (n : Nat) : Fld := ⟨0, 0x82000 + 0x4 * n, 12, 1, .ro, srcFixedReset n⟩

/-! Fault collector registers, offsets 0x00A_0000 to 0x00A_001C (R373). -/

/-- RECORDS, bits [4:0], RO. -/
def fcStatusRecords : Fld := ⟨0, 0xa0000, 0, 5, .ro, 0⟩
/-- SAFE_STATE, bits [5], RO. -/
def fcStatusSafeState : Fld := ⟨0, 0xa0000, 5, 1, .ro, 0⟩
/-- FAULT_N, bits [6], RO. -/
def fcStatusFaultN : Fld := ⟨0, 0xa0000, 6, 1, .ro, 0⟩
/-- MAX_SEV_OVF, bits [8:7], RO. -/
def fcStatusMaxSevOvf : Fld := ⟨0, 0xa0000, 7, 2, .ro, 0⟩
/-- OVF_DUE_SET, bits [9], RO. -/
def fcStatusOvfDueSet : Fld := ⟨0, 0xa0000, 9, 1, .ro, 0⟩
/-- OVERFLOW, bits [31:16], RO. -/
def fcStatusOverflow : Fld := ⟨0, 0xa0000, 16, 16, .ro, 0⟩
/-- INDEX, bits [3:0], SP. -/
def fcAckIndex : Fld := ⟨0, 0xa0004, 0, 4, .sp, 0⟩
/-- GO, bits [4], SP. -/
def fcAckGo : Fld := ⟨0, 0xa0004, 4, 1, .sp, 0⟩
/-- OVF_ACK, bits [5], SP. -/
def fcAckOvfAck : Fld := ⟨0, 0xa0004, 5, 1, .sp, 0⟩
/-- CODE, bits [15:0], RO. -/
def fcSafeCode : Fld := ⟨0, 0xa0008, 0, 16, .ro, 0⟩
/-- BY_ESC, bits [16], RO. -/
def fcSafeByEsc : Fld := ⟨0, 0xa0008, 16, 1, .ro, 0⟩
/-- TEMPO, bits [31:0], RO. -/
def fcSafeTempo : Fld := ⟨0, 0xa000c, 0, 32, .ro, 0⟩
/-- ESCALATIONS, bits [15:0], RC. -/
def fcStatsEscalations : Fld := ⟨0, 0xa0010, 0, 16, .rc, 0⟩
/-- RECORDED, bits [31:16], RC. -/
def fcStatsRecorded : Fld := ⟨0, 0xa0010, 16, 16, .rc, 0⟩
/-- OVF_DUE, bits [31:0], RO. -/
def fcOvfDue : Fld := ⟨0, 0xa0014, 0, 32, .ro, 0⟩
/-- OVF_CODE, bits [15:0], RO. -/
def fcOvfCode : Fld := ⟨0, 0xa0018, 0, 16, .ro, 0⟩
/-- OVF_TEMPO, bits [31:0], RO. -/
def fcOvfTempo : Fld := ⟨0, 0xa001c, 0, 32, .ro, 0⟩

/-! FC_REC[i], offsets 0x00A_0100 + 16 * i for i = 0 to 15 (R373). -/

/-- CODE, bits [15:0], RO. -/
def fcRecCode (i : Nat) : Fld := ⟨0, 0xa0100 + 0x10 * i, 0, 16, .ro, 0⟩
/-- SEV, bits [17:16], RO. -/
def fcRecSev (i : Nat) : Fld := ⟨0, 0xa0100 + 0x10 * i, 16, 2, .ro, 0⟩
/-- VALID, bits [18], RO. -/
def fcRecValid (i : Nat) : Fld := ⟨0, 0xa0100 + 0x10 * i, 18, 1, .ro, 0⟩
/-- REPEATS, bits [31:24], RO. -/
def fcRecRepeats (i : Nat) : Fld := ⟨0, 0xa0100 + 0x10 * i, 24, 8, .ro, 0⟩
/-- UNIT, bits [15:0], RO. -/
def fcRecUnitUnit (i : Nat) : Fld := ⟨0, 0xa0104 + 0x10 * i, 0, 16, .ro, 0⟩
/-- DEADLINE_LEFT, bits [23:16], RO. -/
def fcRecUnitDeadlineLeft (i : Nat) : Fld := ⟨0, 0xa0104 + 0x10 * i, 16, 8, .ro, 0⟩
/-- TEMPO, bits [31:0], RO. -/
def fcRecTempo (i : Nat) : Fld := ⟨0, 0xa0108 + 0x10 * i, 0, 32, .ro, 0⟩
/-- DETAIL, bits [31:0], RO. -/
def fcRecDetail (i : Nat) : Fld := ⟨0, 0xa010c + 0x10 * i, 0, 32, .ro, 0⟩

/-! Freeze and dump registers, offsets 0x0C0_0000 to 0x0C0_0064 (R385). -/

/-- REQ, bits [0], WO. -/
def snapCtl : Fld := ⟨0, 0xc00000, 0, 1, .wo, 0⟩
/-- PENDING, bits [0], RO. -/
def snapStatusPending : Fld := ⟨0, 0xc00004, 0, 1, .ro, 0⟩
/-- VALID, bits [1], RO. -/
def snapStatusValid : Fld := ⟨0, 0xc00004, 1, 1, .ro, 0⟩
/-- SNAP_TEMPO, bits [31:0], RO. -/
def snapTempoNum : Fld := ⟨0, 0xc00008, 0, 64, .ro, 0⟩
/-- OFFSET, bits [23:2], RW. -/
def frzSelOffset : Fld := ⟨0, 0xc00010, 2, 22, .rw, 0⟩
/-- LSB, bits [28:24], RW. -/
def frzSelLsb : Fld := ⟨0, 0xc00010, 24, 5, .rw, 0⟩
/-- FRZ_DATA, bits [31:0], RO. -/
def frzData : Fld := ⟨0, 0xc00014, 0, 64, .ro, 0⟩
/-- FRZ_STATUS, bits [1:0], RO. -/
def frzStatus : Fld := ⟨0, 0xc0001c, 0, 2, .ro, 0⟩
/-- SLOT_TOTAL, bits [31:0], RO. -/
def slotTotal : Fld := ⟨0, 0xc00020, 0, 64, .ro, 0⟩
/-- RETIRED, bits [31:0], RO. -/
def slotRetired : Fld := ⟨0, 0xc00028, 0, 64, .ro, 0⟩
/-- WASTED, bits [31:0], RO. -/
def slotWasted : Fld := ⟨0, 0xc00030, 0, 64, .ro, 0⟩
/-- FRONT, bits [31:0], RO. -/
def slotFront : Fld := ⟨0, 0xc00038, 0, 64, .ro, 0⟩
/-- BACK, bits [31:0], RO. -/
def slotBack : Fld := ⟨0, 0xc00040, 0, 64, .ro, 0⟩
/-- WASTED_SHADOW, bits [31:0], RC. -/
def wastedShadow : Fld := ⟨0, 0xc00048, 0, 32, .rc, 0⟩
/-- WASTED_TAIL, bits [31:0], RC. -/
def wastedTail : Fld := ⟨0, 0xc0004c, 0, 32, .rc, 0⟩
/-- WASTED_TABLE_ECC, bits [15:0], RC. -/
def wastedTableEcc : Fld := ⟨0, 0xc00050, 0, 16, .rc, 0⟩
/-- WRITING, bits [0], RO. -/
def dumpStatusWriting : Fld := ⟨0, 0xc00060, 0, 1, .ro, 0⟩
/-- MISSED, bits [31:16], RC. -/
def dumpStatusMissed : Fld := ⟨0, 0xc00060, 16, 16, .rc, 0⟩
/-- DUMP_SEQ, bits [31:0], RO. -/
def dumpSeq : Fld := ⟨0, 0xc00064, 0, 32, .ro, 0⟩

/-! Central reader control, offsets 0x0C0_0080 and 0x0C0_0084 (R385). -/

/-- NOW, bits [0], SP. -/
def crCtlNow : Fld := ⟨0, 0xc00080, 0, 1, .sp, 0⟩
/-- EXPOSE, bits [7:4], SP. -/
def crCtlExpose : Fld := ⟨0, 0xc00080, 4, 4, .sp, 0⟩
/-- CR_TEMPO, bits [31:0], RO. -/
def crTempo : Fld := ⟨0, 0xc00084, 0, 32, .ro, 0⟩

/-! Core counter registers, base U = 0x0C0_1000 + 0x100 * c for c = 0 to 4 (R385). -/

/-- CYCLES, bits [31:0], RO. -/
def coreCycles (c : Nat) : Fld := ⟨0, 0xc01000 + 0x100 * c, 0, 64, .ro, 0⟩
/-- PMC[i], bits [31:0], RO. -/
def corePmc (c i : Nat) : Fld := ⟨0, 0xc01008 + 0x100 * c + 0x8 * i, 0, 64, .ro, 0⟩
/-- SEL_LO, bits [31:0], RO. -/
def coreSelLo (c : Nat) : Fld := ⟨0, 0xc01048 + 0x100 * c, 0, 32, .ro, 0⟩
/-- SEL_HI, bits [31:0], RO. -/
def coreSelHi (c : Nat) : Fld := ⟨0, 0xc0104c + 0x100 * c, 0, 32, .ro, 0⟩

/-! Image registers, offsets 0x000_1000 to 0x000_1024 (R400). -/

/-- OP, bits [3:0], WO. -/
def imgCtlOp (b : Nat) : Fld := ⟨b, 0x1000, 0, 4, .wo, 0⟩
/-- GO, bits [4], WO. -/
def imgCtlGo (b : Nat) : Fld := ⟨b, 0x1000, 4, 1, .wo, 0⟩
/-- DST, bits [25:0], RW. -/
def imgDst (b : Nat) : Fld := ⟨b, 0x1004, 0, 26, .rw, 0⟩
/-- SRC, bits [21:0], RW. -/
def imgSrc (b : Nat) : Fld := ⟨b, 0x1008, 0, 22, .rw, 0⟩
/-- LEN, bits [20:0], RW. -/
def imgLen (b : Nat) : Fld := ⟨b, 0x100c, 0, 21, .rw, 0⟩
/-- STATE, bits [1:0], RO. -/
def imgStatusState : Fld := ⟨0, 0x1010, 0, 2, .ro, 0⟩
/-- INACTIVE_B, bits [2], RO. -/
def imgStatusInactiveB : Fld := ⟨0, 0x1010, 2, 1, .ro, 0⟩
/-- VERIFIED, bits [3], RO. -/
def imgStatusVerified : Fld := ⟨0, 0x1010, 3, 1, .ro, 0⟩
/-- RESULT, bits [7:4], RO. -/
def imgStatusResult : Fld := ⟨0, 0x1010, 4, 4, .ro, 0⟩
/-- PHASE, bits [10:8], RO. -/
def imgStatusPhase : Fld := ⟨0, 0x1010, 8, 3, .ro, 0⟩
/-- CASTLINGS, bits [15:0], RC. -/
def imgStatsCastlings : Fld := ⟨0, 0x1014, 0, 16, .rc, 0⟩
/-- ABANDONED, bits [31:16], RC. -/
def imgStatsAbandoned : Fld := ⟨0, 0x1014, 16, 16, .rc, 0⟩
/-- PREFER_A, bits [31:0], RO. -/
def imgPreferA : Fld := ⟨0, 0x1018, 0, 32, .ro, 0⟩
/-- PREFER_B, bits [31:0], RO. -/
def imgPreferB : Fld := ⟨0, 0x101c, 0, 32, .ro, 0⟩
/-- FLIP_TEMPO, bits [31:0], RO. -/
def imgFlipTempo : Fld := ⟨0, 0x1020, 0, 32, .ro, 0⟩
/-- IMG_SERIAL, bits [31:0], RO. -/
def imgSerial : Fld := ⟨0, 0x1024, 0, 32, .ro, 0⟩

/-! BOOT_STATUS, offset 0x000_0004 (R419). -/

/-- READY, bits [0], RO. -/
def bootStatusReady : Fld := ⟨0, 0x4, 0, 1, .ro, 0⟩
/-- CAUSE, bits [3:1], RO. -/
def bootStatusCause : Fld := ⟨0, 0x4, 1, 3, .ro, 0⟩
/-- BOOT_SEL, bits [5:4], RO. -/
def bootStatusBootSel : Fld := ⟨0, 0x4, 4, 2, .ro, 0⟩
/-- RECOVERY, bits [6], RO. -/
def bootStatusRecovery : Fld := ⟨0, 0x4, 6, 1, .ro, 0⟩
/-- FALLBACK, bits [7], RO. -/
def bootStatusFallback : Fld := ⟨0, 0x4, 7, 1, .ro, 0⟩
/-- RESULT_A, bits [11:8], RO. -/
def bootStatusResultA : Fld := ⟨0, 0x4, 8, 4, .ro, 0⟩
/-- RESULT_B, bits [15:12], RO. -/
def bootStatusResultB : Fld := ⟨0, 0x4, 12, 4, .ro, 0⟩
/-- HALT, bits [17:16], RO. -/
def bootStatusHalt : Fld := ⟨0, 0x4, 16, 2, .ro, 0⟩

/-! CAL_FAIL_LO and CAL_FAIL_HI, offsets 0x000_0008 and 0x000_000C (R419). -/

/-- PORTS_LO, bits [31:0], RO. -/
def calFailLo : Fld := ⟨0, 0x8, 0, 32, .ro, 0⟩
/-- PORTS_HI, bits [15:0], RO. -/
def calFailHiPortsHi : Fld := ⟨0, 0xc, 0, 16, .ro, 0⟩
/-- CHANNELS, bits [31:16], RO. -/
def calFailHiChannels : Fld := ⟨0, 0xc, 16, 16, .ro, 0⟩

/-! RESET_REQ, offset 0x000_0010 (R419). -/

/-- KEY, bits [15:0], WO. -/
def resetReq : Fld := ⟨0, 0x10, 0, 16, .wo, 0⟩

/-! SUPPLY_STATUS, offset 0x000_2000 (R444). -/

/-- VMID_OK, bits [0], RO. -/
def supplyStatusVmidOk : Fld := ⟨0, 0x2000, 0, 1, .ro, 1⟩
/-- RAILS_OK, bits [1], RO. -/
def supplyStatusRailsOk : Fld := ⟨0, 0x2000, 1, 1, .ro, 1⟩
/-- LOW_VBAT, bits [2], RO. -/
def supplyStatusLowVbat : Fld := ⟨0, 0x2000, 2, 1, .ro, 0⟩
/-- HIGH_VBAT, bits [3], RO. -/
def supplyStatusHighVbat : Fld := ⟨0, 0x2000, 3, 1, .ro, 0⟩
/-- THERM_WARN, bits [4], RO. -/
def supplyStatusThermWarn : Fld := ⟨0, 0x2000, 4, 1, .ro, 0⟩
/-- VBAT, bits [27:16], RO. -/
def supplyStatusVbat : Fld := ⟨0, 0x2000, 16, 12, .ro, 0⟩

/-! SUPPLY_EVENTS, offset 0x000_2004 (R444). -/

/-- LOW_SEEN, bits [0], W1C. -/
def supplyEventsLowSeen : Fld := ⟨0, 0x2004, 0, 1, .w1c, 0⟩
/-- HIGH_SEEN, bits [1], W1C. -/
def supplyEventsHighSeen : Fld := ⟨0, 0x2004, 1, 1, .w1c, 0⟩
/-- THERM_SEEN, bits [2], W1C. -/
def supplyEventsThermSeen : Fld := ⟨0, 0x2004, 2, 1, .w1c, 0⟩

/-! VBAT_RANGE, offset 0x000_2008 (R444). -/

/-- VBAT_MIN, bits [11:0], RC. -/
def vbatRangeVbatMin : Fld := ⟨0, 0x2008, 0, 12, .rc, 0⟩
/-- VBAT_MAX, bits [27:16], RC. -/
def vbatRangeVbatMax : Fld := ⟨0, 0x2008, 16, 12, .rc, 0⟩

/-! TEMP[s], offsets 0x000_2010 + 4 * s for s = 0 to 3 (R444). -/

/-- TEMP, bits [10:0], RO. -/
def tempTemp (s : Nat) : Fld := ⟨0, 0x2010 + 0x4 * s, 0, 11, .ro, 0⟩
/-- PEAK, bits [26:16], RC. -/
def tempPeak (s : Nat) : Fld := ⟨0, 0x2010 + 0x4 * s, 16, 11, .rc, 0⟩

/-! IDENT, offset 0x000_0000 (R448). -/

/-- STEP_MINOR, bits [7:0], RO. -/
def identStepMinor : Fld := ⟨0, 0x0, 0, 8, .ro, 1⟩
/-- STEP_MAJOR, bits [15:8], RO. -/
def identStepMajor : Fld := ⟨0, 0x0, 8, 8, .ro, 1⟩
/-- PART, bits [31:16], RO. -/
def identPart : Fld := ⟨0, 0x0, 16, 16, .ro, 27429⟩

/-! BURST_TMR, offset B + 0x0018 of P40 to P47, and the central reader's mirrors (R104, R382). -/

/-- BURST_TMR, bits [7:0], RO. -/
def plcaBurstTmr (l : Nat) : Fld := ⟨0, 0x480018 + 0x10000 * l, 0, 8, .ro, 0⟩
/-- Mirror register i of the central reader, bits [31:0], RO. -/
def crMirror (i : Nat) : Fld := ⟨0, 0xc00100 + 0x4 * i, 0, 32, .ro, 0⟩

end Reg

/-- One register, or an array of like registers over one or two indices: base offset, counts and strides,
the number of 32-bit words each occupies, and its fields for the bank and indices. -/
structure RegArr where
  base : Nat
  n1 : Nat
  s1 : Nat
  n2 : Nat
  s2 : Nat
  words : Nat
  banked : Bool
  flds : Nat → Nat → Nat → List Fld

/-- Part 0 of the register map. -/
def regMap0 : List RegArr := [
  ⟨0x20000, 1, 0x4, 1, 0x4, 1, false, fun _ _ _ => [Reg.tbCtlTimeSnap, Reg.tbCtlGtSet]⟩,
  ⟨0x20004, 1, 0x4, 1, 0x4, 1, false, fun _ _ _ => [Reg.tbStatusWcLocked, Reg.tbStatusGtLocked, Reg.tbStatusWcGm, Reg.tbStatusGtGm, Reg.tbStatusWcHoldover, Reg.tbStatusGtHoldover, Reg.tbStatusPpsInValid, Reg.tbStatusGtSetPend, Reg.tbStatusWcOffset]⟩,
  ⟨0x20008, 1, 0x4, 1, 0x4, 1, false, fun _ _ _ => [Reg.tempoCfgK, Reg.tempoCfgWcDomain, Reg.tempoCfgGtDomain]⟩,
  ⟨0x2000c, 1, 0x4, 1, 0x4, 1, false, fun _ _ _ => [Reg.tempoBudgetSpFrac, Reg.tempoBudgetGcFrac]⟩,
  ⟨0x20010, 1, 0x4, 1, 0x4, 2, false, fun _ _ _ => [Reg.tempoNum]⟩,
  ⟨0x20018, 1, 0x4, 1, 0x4, 1, false, fun _ _ _ => [Reg.tempoStatsOverruns, Reg.tempoStatsMaxDefer, Reg.tempoStatsRealign]⟩,
  ⟨0x2001c, 1, 0x4, 1, 0x4, 1, false, fun _ _ _ => [Reg.logThresh]⟩,
  ⟨0x20020, 1, 0x4, 1, 0x4, 1, false, fun _ _ _ => [Reg.wcStepLimit]⟩,
  ⟨0x20024, 1, 0x4, 1, 0x4, 1, false, fun _ _ _ => [Reg.ppsCfgPpsOutEn, Reg.ppsCfgPpsOutDomain, Reg.ppsCfgPpsOutWidth, Reg.ppsCfgPpsInEn, Reg.ppsCfgPpsInEdge]⟩,
  ⟨0x20028, 1, 0x4, 1, 0x4, 1, false, fun _ _ _ => [Reg.ppsInNs]⟩,
  ⟨0x2002c, 1, 0x4, 1, 0x4, 1, false, fun _ _ _ => [Reg.ppsInSecLo]⟩,
  ⟨0x20030, 1, 0x4, 1, 0x4, 1, false, fun _ _ _ => [Reg.ppsInSecHi]⟩,
  ⟨0x20034, 1, 0x4, 1, 0x4, 1, false, fun _ _ _ => [Reg.gtSetSecLo]⟩,
  ⟨0x20038, 1, 0x4, 1, 0x4, 1, false, fun _ _ _ => [Reg.gtSetSecHi]⟩,
  ⟨0x20040, 1, 0x4, 1, 0x4, 1, false, fun _ _ _ => [Reg.snapWcNsNs, Reg.snapWcNsLocked]⟩,
  ⟨0x20044, 1, 0x4, 1, 0x4, 1, false, fun _ _ _ => [Reg.snapWcSecLo]⟩,
  ⟨0x20048, 1, 0x4, 1, 0x4, 1, false, fun _ _ _ => [Reg.snapWcSecHi]⟩,
  ⟨0x2004c, 1, 0x4, 1, 0x4, 1, false, fun _ _ _ => [Reg.snapGtNsNs, Reg.snapGtNsLocked]⟩,
  ⟨0x20050, 1, 0x4, 1, 0x4, 1, false, fun _ _ _ => [Reg.snapGtSecLo]⟩,
  ⟨0x20054, 1, 0x4, 1, 0x4, 1, false, fun _ _ _ => [Reg.snapGtSecHi]⟩,
  ⟨0x20058, 1, 0x4, 1, 0x4, 1, false, fun _ _ _ => [Reg.snapTempo]⟩,
  ⟨0x2005c, 1, 0x4, 1, 0x4, 2, false, fun _ _ _ => [Reg.snapLocal]⟩,
  ⟨0x40000, 1, 0x4, 1, 0x4, 1, false, fun _ _ _ => [Reg.envId]⟩,
  ⟨0x40004, 1, 0x4, 1, 0x4, 1, false, fun _ _ _ => [Reg.envInfoMinStep, Reg.envInfoSlotB, Reg.envInfoKeyId, Reg.envInfoLoadResult]⟩]

/-- Part 1 of the register map. -/
def regMap1 : List RegArr := [
  ⟨0x40008, 8, 0x4, 1, 0x4, 1, false, fun _ m _ => [Reg.envDigest m]⟩,
  ⟨0x40030, 1, 0x4, 1, 0x4, 1, false, fun _ _ _ => [Reg.epochStatusCur, Reg.epochStatusSlotSt, Reg.epochStatusLatched]⟩,
  ⟨0x40034, 1, 0x4, 1, 0x4, 1, false, fun _ _ _ => [Reg.epochSeq]⟩,
  ⟨0x40040, 4, 0x4, 1, 0x4, 1, false, fun _ m _ => [Reg.inflightCount m, Reg.inflightDrainAge m]⟩,
  ⟨0x40050, 1, 0x4, 1, 0x4, 1, false, fun _ _ _ => [Reg.stageCtlClaim, Reg.stageCtlRelease, Reg.stageCtlDiscard, Reg.stageCtlPush, Reg.stageCtlKind]⟩,
  ⟨0x40054, 1, 0x4, 1, 0x4, 1, false, fun _ _ _ => [Reg.stageStatusOwner, Reg.stageStatusLocked, Reg.stageStatusItems, Reg.stageStatusCmtDirty, Reg.stageStatusRejects]⟩,
  ⟨0x40058, 1, 0x4, 1, 0x4, 1, false, fun _ _ _ => [Reg.stageAddr]⟩,
  ⟨0x4005c, 1, 0x4, 1, 0x4, 1, false, fun _ _ _ => [Reg.stageLen]⟩,
  ⟨0x40060, 1, 0x4, 1, 0x4, 1, false, fun _ _ _ => [Reg.cmtPeekAddr]⟩,
  ⟨0x40064, 1, 0x4, 1, 0x4, 1, false, fun _ _ _ => [Reg.cmtPeekData]⟩,
  ⟨0x40070, 1, 0x4, 1, 0x4, 1, false, fun _ _ _ => [Reg.commitCtlReq, Reg.commitCtlCancel]⟩,
  ⟨0x40074, 1, 0x4, 1, 0x4, 2, false, fun _ _ _ => [Reg.commitAt]⟩,
  ⟨0x4007c, 1, 0x4, 1, 0x4, 1, false, fun _ _ _ => [Reg.commitStatusState, Reg.commitStatusLateCancel, Reg.commitStatusResult, Reg.commitStatusSlot, Reg.commitStatusItem, Reg.commitStatusDetail]⟩,
  ⟨0x40080, 1, 0x4, 1, 0x4, 2, false, fun _ _ _ => [Reg.commitT0]⟩,
  ⟨0x40088, 1, 0x4, 1, 0x4, 1, false, fun _ _ _ => [Reg.commitStatsWaits, Reg.commitStatsFails, Reg.commitStatsMaxWait]⟩,
  ⟨0x4008c, 1, 0x4, 1, 0x4, 1, false, fun _ _ _ => [Reg.epochCfg]⟩,
  ⟨0x40090, 1, 0x4, 1, 0x4, 1, true, fun b _ _ => [Reg.epochLatchLatch b, Reg.epochLatchRelease b, Reg.epochLatchSlot b, Reg.epochLatchValid b]⟩,
  ⟨0x40094, 1, 0x4, 1, 0x4, 1, false, fun _ _ _ => [Reg.drainDiscards]⟩,
  ⟨0x200000, 48, 0x10000, 1, 0x4, 1, false, fun _ p _ => [Reg.portModeType p, Reg.portModeMode p, Reg.portModeLeader p, Reg.portModePreemptCap p, Reg.portModeMacsecCap p]⟩,
  ⟨0x200004, 48, 0x10000, 1, 0x4, 1, false, fun _ p _ => [Reg.portCtlAdminEn p, Reg.portCtlPreemptEn p]⟩,
  ⟨0x200008, 48, 0x10000, 1, 0x4, 1, false, fun _ p _ => [Reg.portStatusLink p, Reg.portStatusState p, Reg.portStatusSpeed p, Reg.portStatusPlcaActive p]⟩,
  ⟨0x20000c, 48, 0x10000, 1, 0x4, 1, false, fun _ p _ => [Reg.portEventsLinkChange p, Reg.portEventsTrainFail p, Reg.portEventsPlca p, Reg.portEventsVerifyFail p, Reg.portEventsPnThresh p, Reg.portEventsPnExhausted p]⟩,
  ⟨0x200010, 48, 0x10000, 1, 0x4, 1, false, fun _ p _ => [Reg.trainStatusCoefValid p, Reg.trainStatusLastTrain p, Reg.trainStatusTrainTime p, Reg.trainStatusTrainFails p]⟩,
  ⟨0x480014, 8, 0x10000, 1, 0x4, 1, false, fun _ l _ => [Reg.plcaCfgPlcaId l, Reg.plcaCfgPlcaCount l, Reg.plcaCfgPlcaTo l, Reg.plcaCfgBurstCnt l]⟩]

/-- Part 2 of the register map. -/
def regMap2 : List RegArr := [
  ⟨0x20001c, 48, 0x10000, 1, 0x4, 1, false, fun _ p _ => [Reg.preemptCfgPreemptable p, Reg.preemptCfgAddFrag p, Reg.preemptCfgVerifyDis p, Reg.preemptCfgVerifyTime p]⟩,
  ⟨0x200020, 48, 0x10000, 1, 0x4, 1, false, fun _ p _ => [Reg.preemptStatusVerifySt p, Reg.preemptStatusActive p, Reg.preemptStatusAsmErrors p]⟩,
  ⟨0x200024, 48, 0x10000, 1, 0x4, 1, false, fun _ p _ => [Reg.macsecCfgTxEn p, Reg.macsecCfgRxEn p, Reg.macsecCfgSuite p, Reg.macsecCfgTxAn p, Reg.macsecCfgIncludeSci p, Reg.macsecCfgBypassPtp p, Reg.macsecCfgReplayEn p, Reg.macsecCfgRxScEn p]⟩,
  ⟨0x200028, 48, 0x10000, 1, 0x4, 2, false, fun _ p _ => [Reg.pnThresh p]⟩,
  ⟨0x200030, 48, 0x10000, 1, 0x4, 1, false, fun _ p _ => [Reg.replayWin p]⟩,
  ⟨0x200034, 48, 0x10000, 1, 0x4, 1, false, fun _ p _ => [Reg.portTxSaDrops p]⟩,
  ⟨0x200038, 48, 0x10000, 1, 0x4, 1, false, fun _ p _ => [Reg.portRxIcvFail p]⟩,
  ⟨0x20003c, 48, 0x10000, 1, 0x4, 1, false, fun _ p _ => [Reg.portRxNoSa p]⟩,
  ⟨0x200040, 48, 0x10000, 1, 0x4, 1, false, fun _ p _ => [Reg.portRxReplay p]⟩,
  ⟨0x200044, 48, 0x10000, 1, 0x4, 1, false, fun _ p _ => [Reg.portRxUnsupported p]⟩,
  ⟨0x200048, 48, 0x10000, 1, 0x4, 1, false, fun _ p _ => [Reg.portLinkdownDiscards p]⟩,
  ⟨0x200800, 48, 0x10000, 8, 0x8, 2, false, fun _ p c => [Reg.sciRx p c]⟩,
  ⟨0x200840, 48, 0x10000, 1, 0x4, 2, false, fun _ p _ => [Reg.sciTx p]⟩,
  ⟨0x201000, 48, 0x10000, 36, 0x40, 1, false, fun _ p i => [Reg.saKeyValid p i, Reg.saKeyKeySlot p i]⟩,
  ⟨0x201004, 48, 0x10000, 36, 0x40, 1, false, fun _ p i => [Reg.saSsci p i]⟩,
  ⟨0x201008, 48, 0x10000, 36, 0x40, 3, false, fun _ p i => [Reg.saSalt p i]⟩,
  ⟨0x201014, 48, 0x10000, 36, 0x40, 2, false, fun _ p i => [Reg.saInitPn p i]⟩,
  ⟨0x201020, 48, 0x10000, 36, 0x40, 2, false, fun _ p i => [Reg.saNextPn p i]⟩,
  ⟨0x201028, 48, 0x10000, 36, 0x40, 1, false, fun _ p i => [Reg.saStatExhausted p i, Reg.saStatThreshHit p i, Reg.saStatKeyRevoked p i]⟩,
  ⟨0x20102c, 48, 0x10000, 36, 0x40, 1, false, fun _ p i => [Reg.saFrames p i]⟩,
  ⟨0x500000, 1, 0x4, 1, 0x4, 1, false, fun _ _ _ => [Reg.bufShared]⟩,
  ⟨0x500004, 1, 0x4, 1, 0x4, 1, false, fun _ _ _ => [Reg.bufMgmt]⟩,
  ⟨0x500008, 1, 0x4, 1, 0x4, 1, false, fun _ _ _ => [Reg.bufMin]⟩,
  ⟨0x50000c, 1, 0x4, 1, 0x4, 1, false, fun _ _ _ => [Reg.fdbStatusLearned, Reg.fdbStatusStatic, Reg.fdbStatusFlushBusy]⟩]

/-- Part 3 of the register map. -/
def regMap3 : List RegArr := [
  ⟨0x500010, 1, 0x4, 1, 0x4, 1, false, fun _ _ _ => [Reg.fdbCtlFlush, Reg.fdbCtlMatchPort, Reg.fdbCtlMatchFid, Reg.fdbCtlPort, Reg.fdbCtlFid]⟩,
  ⟨0x500014, 1, 0x4, 1, 0x4, 1, false, fun _ _ _ => [Reg.swCfgAgeTime, Reg.swCfgRecircMax]⟩,
  ⟨0x500018, 1, 0x4, 1, 0x4, 1, false, fun _ _ _ => [Reg.swLearnLearnFull, Reg.swLearnSaBindViol]⟩,
  ⟨0x50001c, 1, 0x4, 1, 0x4, 1, false, fun _ _ _ => [Reg.swAtomicAborts]⟩,
  ⟨0x500020, 1, 0x4, 1, 0x4, 1, false, fun _ _ _ => [Reg.swRecircLimitDrops]⟩,
  ⟨0x500024, 1, 0x4, 1, 0x4, 1, false, fun _ _ _ => [Reg.swEccCorrected, Reg.swEccUncorrected]⟩,
  ⟨0x500028, 1, 0x4, 1, 0x4, 1, false, fun _ _ _ => [Reg.recircStatusDepth, Reg.recircStatusHighWater]⟩,
  ⟨0x500040, 1, 0x4, 1, 0x4, 1, false, fun _ _ _ => [Reg.fdbAccCtlRead, Reg.fdbAccCtlIndex, Reg.fdbAccCtlView, Reg.fdbAccCtlSlot, Reg.fdbAccCtlDone]⟩,
  ⟨0x500044, 1, 0x4, 1, 0x4, 1, false, fun _ _ _ => [Reg.fdbAccMacLo]⟩,
  ⟨0x500048, 1, 0x4, 1, 0x4, 1, false, fun _ _ _ => [Reg.fdbAccMacHi]⟩,
  ⟨0x50004c, 1, 0x4, 1, 0x4, 1, false, fun _ _ _ => [Reg.fdbAccInfoFid, Reg.fdbAccInfoValid, Reg.fdbAccInfoStatic, Reg.fdbAccInfoGroup, Reg.fdbAccInfoDiscard, Reg.fdbAccInfoDest, Reg.fdbAccInfoSrcBind]⟩,
  ⟨0x500050, 1, 0x4, 1, 0x4, 1, false, fun _ _ _ => [Reg.fdbAccAgeAge, Reg.fdbAccAgeMask, Reg.fdbAccAgeStatus]⟩,
  ⟨0x501000, 52, 0x40, 1, 0x4, 1, false, fun _ p _ => [Reg.swAdmitDrops p]⟩,
  ⟨0x501004, 52, 0x40, 1, 0x4, 1, false, fun _ p _ => [Reg.swWredDrops p]⟩,
  ⟨0x501008, 52, 0x40, 1, 0x4, 1, false, fun _ p _ => [Reg.swAtomicRefused p]⟩,
  ⟨0x50100c, 52, 0x40, 1, 0x4, 1, false, fun _ p _ => [Reg.swAtomicLateDrops p]⟩,
  ⟨0x501010, 52, 0x40, 1, 0x4, 1, false, fun _ p _ => [Reg.swCtStomped p]⟩,
  ⟨0x501014, 52, 0x40, 1, 0x4, 1, false, fun _ p _ => [Reg.swCtBadRx p]⟩,
  ⟨0x501018, 52, 0x40, 1, 0x4, 1, false, fun _ p _ => [Reg.swOverflowDrops p]⟩,
  ⟨0x50101c, 52, 0x40, 1, 0x4, 1, false, fun _ p _ => [Reg.swVlanDrops p]⟩,
  ⟨0x501020, 52, 0x40, 1, 0x4, 1, false, fun _ p _ => [Reg.swStagingDrops p]⟩,
  ⟨0x501024, 52, 0x40, 1, 0x4, 1, false, fun _ p _ => [Reg.swNoDest p]⟩,
  ⟨0x501028, 52, 0x40, 1, 0x4, 1, false, fun _ p _ => [Reg.swFdbDiscards p]⟩,
  ⟨0x50102c, 52, 0x40, 1, 0x4, 1, false, fun _ p _ => [Reg.swMgmtDrops p]⟩]

/-- Part 4 of the register map. -/
def regMap4 : List RegArr := [
  ⟨0x501030, 52, 0x40, 1, 0x4, 1, false, fun _ p _ => [Reg.swUsed p]⟩,
  ⟨0x501034, 52, 0x40, 1, 0x4, 1, false, fun _ p _ => [Reg.swCtFrames p]⟩,
  ⟨0x600000, 1, 0x4, 1, 0x4, 1, false, fun _ _ _ => [Reg.clsAccCtlRead, Reg.clsAccCtlProbe, Reg.clsAccCtlTable, Reg.clsAccCtlIndex, Reg.clsAccCtlView, Reg.clsAccCtlSlot, Reg.clsAccCtlDone]⟩,
  ⟨0x600004, 1, 0x4, 1, 0x4, 1, false, fun _ _ _ => [Reg.clsAccStatusStatus, Reg.clsAccStatusMask, Reg.clsAccStatusResultRule]⟩,
  ⟨0x600040, 48, 0x4, 1, 0x4, 1, false, fun _ m _ => [Reg.clsAccData m]⟩,
  ⟨0x600104, 18, 0x4, 1, 0x4, 1, false, fun _ r1 _ => [Reg.malCount r1]⟩,
  ⟨0x600180, 1, 0x4, 1, 0x4, 1, false, fun _ _ _ => [Reg.clsExhExhDrops, Reg.clsExhExhClassified]⟩,
  ⟨0x600184, 1, 0x4, 1, 0x4, 1, false, fun _ _ _ => [Reg.fragUnmatched]⟩,
  ⟨0x600188, 1, 0x4, 1, 0x4, 1, false, fun _ _ _ => [Reg.fragStatsFragFull, Reg.fragStatsFragExpired]⟩,
  ⟨0x60018c, 1, 0x4, 1, 0x4, 1, false, fun _ _ _ => [Reg.fragEntriesFragEntries, Reg.fragEntriesFragHigh]⟩,
  ⟨0x600190, 1, 0x4, 1, 0x4, 1, false, fun _ _ _ => [Reg.clsUsedRulesUsed, Reg.clsUsedRangesUsed]⟩,
  ⟨0x600194, 1, 0x4, 1, 0x4, 1, false, fun _ _ _ => [Reg.streamsUsed]⟩,
  ⟨0x600198, 1, 0x4, 1, 0x4, 1, false, fun _ _ _ => [Reg.trapCount]⟩,
  ⟨0x60019c, 1, 0x4, 1, 0x4, 1, false, fun _ _ _ => [Reg.tunnelFrames]⟩,
  ⟨0x600f00, 1, 0x4, 1, 0x4, 1, false, fun _ _ _ => [Reg.shadowStatusActive, Reg.shadowStatusSelftestLast, Reg.shadowStatusSelftestFault, Reg.shadowStatusClear]⟩,
  ⟨0x610000, 1, 0x4, 1, 0x4, 1, false, fun _ _ _ => [Reg.contStatusActive, Reg.contStatusRipcordIn, Reg.contStatusRipcordHeld, Reg.contStatusRelPend, Reg.contStatusValid]⟩,
  ⟨0x610004, 1, 0x4, 1, 0x4, 1, false, fun _ _ _ => [Reg.contActProfile, Reg.contActGo]⟩,
  ⟨0x610008, 1, 0x4, 1, 0x4, 1, false, fun _ _ _ => [Reg.contRelRelease, Reg.contRelDeny]⟩,
  ⟨0x61000c, 1, 0x4, 1, 0x4, 1, false, fun _ _ _ => [Reg.contRelReq]⟩,
  ⟨0x610010, 1, 0x4, 1, 0x4, 1, false, fun _ _ _ => [Reg.contStatsRefused, Reg.contStatsRelRefused]⟩,
  ⟨0x610020, 8, 0x4, 1, 0x4, 1, false, fun _ q _ => [Reg.contCauseCause q, Reg.contCauseActivations q]⟩,
  ⟨0x610080, 1, 0x4, 1, 0x4, 1, false, fun _ _ _ => [Reg.convUsed]⟩,
  ⟨0x610084, 1, 0x4, 1, 0x4, 1, false, fun _ _ _ => [Reg.convFullConvFull, Reg.convFullConvEvict]⟩,
  ⟨0x610088, 1, 0x4, 1, 0x4, 1, false, fun _ _ _ => [Reg.convExpired]⟩]

/-- Part 5 of the register map. -/
def regMap5 : List RegArr := [
  ⟨0x61008c, 1, 0x4, 1, 0x4, 1, false, fun _ _ _ => [Reg.convNoCreateConvNocreate, Reg.convNoCreateActionKindDrops]⟩,
  ⟨0x610100, 1, 0x4, 1, 0x4, 1, false, fun _ _ _ => [Reg.convAccCtlRead, Reg.convAccCtlFlush, Reg.convAccCtlIndex, Reg.convAccCtlDone]⟩,
  ⟨0x610140, 12, 0x4, 1, 0x4, 1, false, fun _ m _ => [Reg.convAccData m]⟩,
  ⟨0x610200, 50, 0x8, 1, 0x4, 1, false, fun _ p _ => [Reg.contInDrops p]⟩,
  ⟨0x610204, 50, 0x8, 1, 0x4, 1, false, fun _ p _ => [Reg.contOutDrops p]⟩,
  ⟨0x610400, 256, 0x4, 1, 0x4, 1, false, fun _ n _ => [Reg.contChanDrops n]⟩,
  ⟨0x800000, 1, 0x4, 1, 0x4, 1, false, fun _ _ _ => [Reg.wheelStatus]⟩,
  ⟨0x800004, 1, 0x4, 1, 0x4, 1, false, fun _ _ _ => [Reg.wheelRounds]⟩,
  ⟨0x800008, 1, 0x4, 1, 0x4, 1, false, fun _ _ _ => [Reg.tmAccCtlRead, Reg.tmAccCtlTable, Reg.tmAccCtlIndex, Reg.tmAccCtlEntry, Reg.tmAccCtlList, Reg.tmAccCtlView, Reg.tmAccCtlSlot, Reg.tmAccCtlDone]⟩,
  ⟨0x80000c, 1, 0x4, 1, 0x4, 1, false, fun _ _ _ => [Reg.tmAccStatusStatus, Reg.tmAccStatusMask]⟩,
  ⟨0x800040, 40, 0x4, 1, 0x4, 1, false, fun _ m _ => [Reg.tmAccData m]⟩,
  ⟨0x810000, 50, 0x800, 1, 0x4, 1, false, fun _ p _ => [Reg.tmGateGatesEn p, Reg.tmGatePending p, Reg.tmGateOperStates p, Reg.tmGateEntry p, Reg.tmGateHeld p]⟩,
  ⟨0x810004, 50, 0x800, 1, 0x4, 2, false, fun _ p _ => [Reg.tmSwitchAt p]⟩,
  ⟨0x81000c, 50, 0x800, 1, 0x4, 1, false, fun _ p _ => [Reg.tmTxTxOverrun p, Reg.tmTxTakeovers p]⟩,
  ⟨0x810010, 50, 0x800, 1, 0x4, 1, false, fun _ p _ => [Reg.tmFitNeverFit p, Reg.tmFitSuperseded p]⟩,
  ⟨0x810014, 50, 0x800, 1, 0x4, 1, false, fun _ p _ => [Reg.tmPortTokens p]⟩,
  ⟨0x810100, 50, 0x800, 64, 0x8, 1, false, fun _ p q => [Reg.tmLeafTokens p q]⟩,
  ⟨0x810104, 50, 0x800, 64, 0x8, 1, false, fun _ p q => [Reg.tmLeafDepth p q, Reg.tmLeafOnWheel p q]⟩,
  ⟨0x900000, 8192, 0x10, 1, 0x4, 1, false, fun _ f _ => [Reg.sfMatched f]⟩,
  ⟨0x900004, 8192, 0x10, 1, 0x4, 1, false, fun _ f _ => [Reg.sfPassed f]⟩,
  ⟨0x900008, 8192, 0x10, 1, 0x4, 1, false, fun _ f _ => [Reg.sfDropsSduDrops f, Reg.sfDropsGateDrops f]⟩,
  ⟨0x90000c, 8192, 0x10, 1, 0x4, 1, false, fun _ f _ => [Reg.sfStateBlocked f, Reg.sfStateUnblock f, Reg.sfStateSduLate f]⟩,
  ⟨0x920000, 8192, 0x10, 1, 0x4, 1, false, fun _ f _ => [Reg.fmGreen f]⟩,
  ⟨0x920004, 8192, 0x10, 1, 0x4, 1, false, fun _ f _ => [Reg.fmYellow f]⟩]

/-- Part 6 of the register map. -/
def regMap6 : List RegArr := [
  ⟨0x920008, 8192, 0x10, 1, 0x4, 1, false, fun _ f _ => [Reg.fmRed f]⟩,
  ⟨0x92000c, 8192, 0x10, 1, 0x4, 1, false, fun _ f _ => [Reg.fmYellowDrops f]⟩,
  ⟨0x940000, 1024, 0x8, 1, 0x4, 1, false, fun _ g _ => [Reg.fgStateOpen g, Reg.fgStateIpv g, Reg.fgStateIpvValid g, Reg.fgStateClosedInvalidRx g, Reg.fgStateClosedOctets g, Reg.fgStateEntry g]⟩,
  ⟨0x940004, 1024, 0x8, 1, 0x4, 1, false, fun _ g _ => [Reg.fgReopen g]⟩,
  ⟨0xa00000, 256, 0x1000, 1, 0x4, 1, false, fun _ n _ => [Reg.chInfoKind n, Reg.chInfoTethered n, Reg.chInfoFlags n, Reg.chInfoBind n, Reg.chInfoBusId n]⟩,
  ⟨0xa00004, 256, 0x1000, 1, 0x4, 1, false, fun _ n _ => [Reg.chCtlAdminEn n, Reg.chCtlRecover n, Reg.chCtlLinTable n]⟩,
  ⟨0xa00008, 256, 0x1000, 1, 0x4, 1, false, fun _ n _ => [Reg.chStatusState n, Reg.chStatusBridgeLost n, Reg.chStatusTxqDepth n, Reg.chStatusRxlDepth n, Reg.chStatusLinRun n, Reg.chStatusLinSlot n]⟩,
  ⟨0xa0000c, 256, 0x1000, 1, 0x4, 1, false, fun _ n _ => [Reg.canErrTec n, Reg.canErrRec n, Reg.canErrBusOffs n]⟩,
  ⟨0xa00010, 256, 0x1000, 1, 0x4, 1, false, fun _ n _ => [Reg.chEventsBusOff n, Reg.chEventsErrPassive n, Reg.chEventsBridgeLost n, Reg.chEventsLinNoResp n, Reg.chEventsTxTimeout n, Reg.chEventsNeverFit n]⟩,
  ⟨0xa00040, 256, 0x1000, 1, 0x4, 1, false, fun _ n _ => [Reg.chRxFrames n]⟩,
  ⟨0xa00044, 256, 0x1000, 1, 0x4, 1, false, fun _ n _ => [Reg.chTxFrames n]⟩,
  ⟨0xa00048, 256, 0x1000, 1, 0x4, 1, false, fun _ n _ => [Reg.chBusErrors n]⟩,
  ⟨0xa0004c, 256, 0x1000, 1, 0x4, 1, false, fun _ n _ => [Reg.chFilterDrops n]⟩,
  ⟨0xa00050, 256, 0x1000, 1, 0x4, 1, false, fun _ n _ => [Reg.chRateDrops n]⟩,
  ⟨0xa00054, 256, 0x1000, 1, 0x4, 1, false, fun _ n _ => [Reg.chRxOverrun n]⟩,
  ⟨0xa00058, 256, 0x1000, 1, 0x4, 1, false, fun _ n _ => [Reg.chQueueDrops n]⟩,
  ⟨0xa0005c, 256, 0x1000, 1, 0x4, 1, false, fun _ n _ => [Reg.chQueueQueueEvict n, Reg.chQueueReplaced n]⟩,
  ⟨0xa00060, 256, 0x1000, 1, 0x4, 1, false, fun _ n _ => [Reg.chTxTimeoutDrops n]⟩,
  ⟨0xa00064, 256, 0x1000, 1, 0x4, 1, false, fun _ n _ => [Reg.chConvertConvertDrops n, Reg.chConvertNeverFit n]⟩,
  ⟨0xa00068, 256, 0x1000, 1, 0x4, 1, false, fun _ n _ => [Reg.chSecMacFail n]⟩,
  ⟨0xa0006c, 256, 0x1000, 1, 0x4, 1, false, fun _ n _ => [Reg.chSecFreshFail n]⟩,
  ⟨0xa00070, 256, 0x1000, 1, 0x4, 1, false, fun _ n _ => [Reg.chSecSecLenDrops n, Reg.chSecSecKeyDrops n]⟩,
  ⟨0xa00074, 256, 0x1000, 1, 0x4, 1, false, fun _ n _ => [Reg.chSecFmtSecBlocked n, Reg.chSecFmtFormatDrops n]⟩,
  ⟨0xa00078, 256, 0x1000, 1, 0x4, 1, false, fun _ n _ => [Reg.chLinLinNoResp n, Reg.chLinLinCsumErr n]⟩]

/-- Part 7 of the register map. -/
def regMap7 : List RegArr := [
  ⟨0xa0007c, 256, 0x1000, 1, 0x4, 1, false, fun _ n _ => [Reg.chAdmin n]⟩,
  ⟨0xb00000, 1, 0x4, 1, 0x4, 1, false, fun _ _ _ => [Reg.edgeAccCtlRead, Reg.edgeAccCtlTable, Reg.edgeAccCtlIndex, Reg.edgeAccCtlPart, Reg.edgeAccCtlView, Reg.edgeAccCtlSlot, Reg.edgeAccCtlStatus, Reg.edgeAccCtlDone]⟩,
  ⟨0xb00100, 64, 0x4, 1, 0x4, 1, false, fun _ m _ => [Reg.edgeAccData m]⟩,
  ⟨0xb00200, 1, 0x4, 1, 0x4, 2, false, fun _ _ _ => [Reg.secFv]⟩,
  ⟨0xb00208, 1, 0x4, 1, 0x4, 1, false, fun _ _ _ => [Reg.secFvBlocked]⟩,
  ⟨0xb00300, 1, 0x4, 1, 0x4, 1, false, fun _ _ _ => [Reg.secEventsFvExhausted, Reg.secEventsRestoreFail]⟩,
  ⟨0xb00304, 1, 0x4, 1, 0x4, 1, false, fun _ _ _ => [Reg.secLastBlocked]⟩,
  ⟨0xb00308, 1, 0x4, 1, 0x4, 1, false, fun _ _ _ => [Reg.edgeUnknownBus]⟩,
  ⟨0xb0030c, 1, 0x4, 1, 0x4, 1, false, fun _ _ _ => [Reg.edgeAcfAcfUnsupported, Reg.edgeAcfAcfLen]⟩,
  ⟨0xb00310, 1, 0x4, 1, 0x4, 1, false, fun _ _ _ => [Reg.edgeRouteShort]⟩,
  ⟨0xb01000, 64, 0x10, 1, 0x4, 1, false, fun _ b _ => [Reg.bindRxTunnel b]⟩,
  ⟨0xb01004, 64, 0x10, 1, 0x4, 1, false, fun _ b _ => [Reg.bindTxTunnel b]⟩,
  ⟨0xb01008, 64, 0x10, 1, 0x4, 1, false, fun _ b _ => [Reg.bindSeqSeqGaps b, Reg.bindSeqTxSeq b]⟩,
  ⟨0xb0100c, 64, 0x10, 1, 0x4, 1, false, fun _ b _ => [Reg.bindLost b]⟩,
  ⟨0xc0000, 1, 0x4, 1, 0x4, 1, false, fun _ _ _ => [Reg.vaultStatusSlotsReady, Reg.vaultStatusTamperLatch, Reg.vaultStatusTamperCause, Reg.vaultStatusDrbgFault]⟩,
  ⟨0xc0004, 1, 0x4, 1, 0x4, 1, false, fun _ _ _ => [Reg.lcStatusState, Reg.lcStatusLcBusy, Reg.lcStatusVkProg, Reg.lcStatusVkRevoked, Reg.lcStatusRootCustProg]⟩,
  ⟨0xc0008, 1, 0x4, 1, 0x4, 1, false, fun _ _ _ => [Reg.lcReqTarget, Reg.lcReqGo, Reg.lcReqResult]⟩,
  ⟨0xc0010, 4, 0x4, 1, 0x4, 1, false, fun _ m _ => [Reg.lcAuth m]⟩,
  ⟨0xc0020, 1, 0x4, 1, 0x4, 1, false, fun _ _ _ => [Reg.slotSel]⟩,
  ⟨0xc0024, 1, 0x4, 1, 0x4, 1, false, fun _ _ _ => [Reg.slotStateState, Reg.slotStateLen256, Reg.slotStateOrigin, Reg.slotStateDepth, Reg.slotStateParent]⟩,
  ⟨0xc0028, 1, 0x4, 1, 0x4, 1, false, fun _ _ _ => [Reg.slotAttrMasters, Reg.slotAttrSecure, Reg.slotAttrLc, Reg.slotAttrUsage, Reg.slotAttrRevokeBy]⟩,
  ⟨0xc002c, 1, 0x4, 1, 0x4, 1, false, fun _ _ _ => [Reg.slotGen]⟩,
  ⟨0xc0030, 1, 0x4, 1, 0x4, 1, false, fun _ _ _ => [Reg.slotUses]⟩,
  ⟨0xc0034, 1, 0x4, 1, 0x4, 1, false, fun _ _ _ => [Reg.revokeSlot, Reg.revokeGo]⟩]

/-- Part 8 of the register map. -/
def regMap8 : List RegArr := [
  ⟨0xc0038, 1, 0x4, 1, 0x4, 1, false, fun _ _ _ => [Reg.revokeStatusPending, Reg.revokeStatusLastSlot, Reg.revokeStatusResult]⟩,
  ⟨0xc003c, 1, 0x4, 1, 0x4, 1, false, fun _ _ _ => [Reg.remaskStatusPeriod, Reg.remaskStatusPasses]⟩,
  ⟨0xc0040, 1, 0x4, 1, 0x4, 1, false, fun _ _ _ => [Reg.keyStatsDenied, Reg.keyStatsRevokedAborts]⟩,
  ⟨0xc0044, 1, 0x4, 1, 0x4, 1, false, fun _ _ _ => [Reg.tamperClr]⟩,
  ⟨0xc0050, 1, 0x4, 1, 0x4, 1, false, fun _ _ _ => [Reg.importCtlSlot, Reg.importCtlGo, Reg.importCtlResult]⟩,
  ⟨0xc0060, 8, 0x4, 1, 0x4, 1, false, fun _ m _ => [Reg.importShare0 m]⟩,
  ⟨0xc0080, 8, 0x4, 1, 0x4, 1, false, fun _ m _ => [Reg.importShare1 m]⟩,
  ⟨0xc00a0, 4, 0x4, 1, 0x4, 1, false, fun _ m _ => [Reg.importTag m]⟩,
  ⟨0xc0100, 1, 0x4, 1, 0x4, 1, false, fun _ _ _ => [Reg.macStatusCoresBusy, Reg.macStatusSuspended, Reg.macStatusMaxLineWait]⟩,
  ⟨0xc0104, 1, 0x4, 1, 0x4, 1, false, fun _ _ _ => [Reg.macSuspends]⟩,
  ⟨0xc0180, 1, 0x4, 1, 0x4, 1, true, fun b _ _ => [Reg.mcjCtlOp b, Reg.mcjCtlSlot b, Reg.mcjCtlGo b]⟩,
  ⟨0xc0184, 1, 0x4, 1, 0x4, 1, true, fun b _ _ => [Reg.mcjSrc b]⟩,
  ⟨0xc0188, 1, 0x4, 1, 0x4, 1, true, fun b _ _ => [Reg.mcjLen b]⟩,
  ⟨0xc018c, 1, 0x4, 1, 0x4, 1, true, fun b _ _ => [Reg.mcjStatusState b, Reg.mcjStatusResult b]⟩,
  ⟨0xc01a0, 8, 0x4, 1, 0x4, 1, true, fun b m _ => [Reg.mcjTag b m]⟩,
  ⟨0xc0200, 4, 0x4, 1, 0x4, 1, false, fun _ m _ => [Reg.attNonce m]⟩,
  ⟨0xc0210, 1, 0x4, 1, 0x4, 1, false, fun _ _ _ => [Reg.attCtlGo, Reg.attCtlState, Reg.attCtlResult]⟩,
  ⟨0xc0240, 42, 0x4, 1, 0x4, 1, false, fun _ m _ => [Reg.attResp m]⟩,
  ⟨0xe0000, 1, 0x4, 1, 0x4, 1, false, fun _ _ _ => [Reg.sbStatusWritable, Reg.sbStatusReadOnlyFull, Reg.sbStatusReadOnlyKey, Reg.sbStatusAnchorsExh, Reg.sbStatusOldest, Reg.sbStatusNewest, Reg.sbStatusFill]⟩,
  ⟨0xe0004, 1, 0x4, 1, 0x4, 2, false, fun _ _ _ => [Reg.sbHeadSeq]⟩,
  ⟨0xe0010, 8, 0x4, 1, 0x4, 1, false, fun _ m _ => [Reg.sbHead m]⟩,
  ⟨0xe0030, 1, 0x4, 1, 0x4, 2, false, fun _ _ _ => [Reg.sbFirst]⟩,
  ⟨0xe0040, 1, 0x4, 1, 0x4, 2, false, fun _ _ _ => [Reg.sbRdSeq]⟩,
  ⟨0xe0048, 1, 0x4, 1, 0x4, 1, false, fun _ _ _ => [Reg.sbRdGo, Reg.sbRdStatus, Reg.sbRdDone]⟩]

/-- Part 9 of the register map. -/
def regMap9 : List RegArr := [
  ⟨0xe0080, 32, 0x4, 1, 0x4, 1, false, fun _ m _ => [Reg.sbRdData m]⟩,
  ⟨0xe0100, 1, 0x4, 1, 0x4, 1, false, fun _ _ _ => [Reg.sbRetireBlock, Reg.sbRetireGo, Reg.sbRetireResult]⟩,
  ⟨0xe0110, 4, 0x4, 1, 0x4, 1, false, fun _ m _ => [Reg.sbRetireHash m]⟩,
  ⟨0xe0120, 1, 0x4, 1, 0x4, 1, false, fun _ _ _ => [Reg.sbStatsLost, Reg.sbStatsBreaks]⟩,
  ⟨0xe0124, 1, 0x4, 1, 0x4, 1, false, fun _ _ _ => [Reg.sbAnchors]⟩,
  ⟨0x10000, 1, 0x4, 1, 0x4, 1, false, fun _ _ _ => [Reg.pwrStatusPhase, Reg.pwrStatusTarget, Reg.pwrStatusForced, Reg.pwrStatusBlockers]⟩,
  ⟨0x10004, 1, 0x4, 1, 0x4, 1, false, fun _ _ _ => [Reg.pwrCtlDescentReq, Reg.pwrCtlReqParked, Reg.pwrCtlForce, Reg.pwrCtlHostHold]⟩,
  ⟨0x10008, 1, 0x4, 1, 0x4, 1, false, fun _ _ _ => [Reg.wakeCauseSwMatch, Reg.wakeCauseSwErrcnt, Reg.wakeCauseSwWup, Reg.wakeCauseLin, Reg.wakeCausePin, Reg.wakeCauseTc10, Reg.wakeCausePerst, Reg.wakeCauseTimer, Reg.wakeCauseLatched, Reg.wakeCauseRetentionLost, Reg.wakeCauseSource, Reg.wakeCauseFrom]⟩,
  ⟨0x1000c, 1, 0x4, 1, 0x4, 1, false, fun _ _ _ => [Reg.asleepTime]⟩,
  ⟨0x10010, 1, 0x4, 1, 0x4, 1, false, fun _ _ _ => [Reg.descentsDescents, Reg.descentsAborts]⟩,
  ⟨0x10014, 1, 0x4, 1, 0x4, 1, false, fun _ _ _ => [Reg.abortInfoPhase, Reg.abortInfoCause, Reg.abortInfoSource]⟩,
  ⟨0x10018, 1, 0x4, 1, 0x4, 1, false, fun _ _ _ => [Reg.descentDiscards]⟩,
  ⟨0x1001c, 1, 0x4, 1, 0x4, 1, false, fun _ _ _ => [Reg.pwrNetTc10Noack, Reg.pwrNetNmSuppressed]⟩,
  ⟨0x10020, 1, 0x4, 1, 0x4, 1, false, fun _ _ _ => [Reg.pwrScrubCorrected, Reg.pwrScrubPasses]⟩,
  ⟨0x10100, 32, 0x4, 1, 0x4, 1, false, fun _ n _ => [Reg.netStatusAwake n, Reg.netStatusSuppressed n, Reg.netStatusEpisode n]⟩,
  ⟨0x10180, 1, 0x4, 1, 0x4, 1, false, fun _ _ _ => [Reg.netClr]⟩,
  ⟨0xe00000, 4, 0x100, 1, 0x4, 1, false, fun _ k _ => [Reg.bankSizeSizeKib k, Reg.bankSizeRetained k]⟩,
  ⟨0xe00004, 4, 0x100, 1, 0x4, 1, false, fun _ k _ => [Reg.bankEccEccCorr k, Reg.bankEccEccUncorr k]⟩,
  ⟨0xe00008, 4, 0x100, 1, 0x4, 1, false, fun _ k _ => [Reg.bankEccLastAddr k]⟩,
  ⟨0xe0000c, 4, 0x100, 1, 0x4, 1, false, fun _ k _ => [Reg.bankScrub k]⟩,
  ⟨0xe00010, 4, 0x100, 10, 0x4, 1, false, fun _ k m => [Reg.bankConflict k m]⟩,
  ⟨0xe00038, 4, 0x100, 1, 0x4, 1, false, fun _ k _ => [Reg.bankAtomicOps k]⟩,
  ⟨0xe00800, 1, 0x4, 1, 0x4, 1, false, fun _ _ _ => [Reg.lockstepStatusInjLast, Reg.lockstepStatusCmpFault, Reg.lockstepStatusDlyFault, Reg.lockstepStatusMismatch, Reg.lockstepStatusInjBit]⟩,
  ⟨0xe00804, 1, 0x4, 1, 0x4, 1, false, fun _ _ _ => [Reg.injPasses]⟩]

/-- Part 10 of the register map. -/
def regMap10 : List RegArr := [
  ⟨0xe00808, 1, 0x4, 1, 0x4, 1, false, fun _ _ _ => [Reg.mismatchBit]⟩,
  ⟨0xe0080c, 1, 0x4, 1, 0x4, 1, false, fun _ _ _ => [Reg.mismatchTempo]⟩,
  ⟨0xe00810, 1, 0x4, 1, 0x4, 1, false, fun _ _ _ => [Reg.coreCtlHeld, Reg.coreCtlRelease]⟩,
  ⟨0xe00900, 1, 0x4, 1, 0x4, 1, false, fun _ _ _ => [Reg.guardViol]⟩,
  ⟨0xe00904, 1, 0x4, 1, 0x4, 1, false, fun _ _ _ => [Reg.guardLastOffset, Reg.guardLastMaster]⟩,
  ⟨0xe00908, 1, 0x4, 1, 0x4, 1, false, fun _ _ _ => [Reg.hViol]⟩,
  ⟨0xe0090c, 1, 0x4, 1, 0x4, 1, false, fun _ _ _ => [Reg.hLastOffset, Reg.hLastMaster, Reg.hLastWrite]⟩,
  ⟨0x100000, 1, 0x4, 1, 0x4, 1, false, fun _ _ _ => [Reg.hbStatusDlActive, Reg.hbStatusRate, Reg.hbStatusWidth, Reg.hbStatusDstate, Reg.hbStatusBme, Reg.hbStatusP48Up, Reg.hbStatusAspm, Reg.hbStatusPeWake]⟩,
  ⟨0x100004, 1, 0x4, 1, 0x4, 1, false, fun _ _ _ => [Reg.brRetriesStalemateRetries, Reg.brRetriesL1Exits]⟩,
  ⟨0x100008, 1, 0x4, 1, 0x4, 1, false, fun _ _ _ => [Reg.brP48Linkdown]⟩,
  ⟨0x10000c, 1, 0x4, 1, 0x4, 1, false, fun _ _ _ => [Reg.brSemSemTimeouts, Reg.brSemSemWaitFails]⟩,
  ⟨0x100010, 1, 0x4, 1, 0x4, 1, false, fun _ _ _ => [Reg.brSpiAborts, Reg.brSpiErrors]⟩,
  ⟨0x100020, 1, 0x4, 1, 0x4, 1, true, fun b _ _ => [Reg.ledgerCount b]⟩,
  ⟨0x100020, 1, 0x4, 1, 0x4, 1, false, fun _ _ _ => [Reg.ledgerOvf]⟩,
  ⟨0x100024, 1, 0x4, 1, 0x4, 2, true, fun b _ _ => [Reg.ledgerAddr b]⟩,
  ⟨0x10002c, 1, 0x4, 1, 0x4, 1, true, fun b _ _ => [Reg.ledgerInfoCode b, Reg.ledgerInfoOrigin b, Reg.ledgerInfoSpace b, Reg.ledgerInfoValid b, Reg.ledgerInfoTempo b]⟩,
  ⟨0x100100, 32, 0x4, 1, 0x4, 1, false, fun _ s _ => [Reg.semTake s, Reg.semRelease s, Reg.semOwner s, Reg.semMine s]⟩,
  ⟨0x100200, 8, 0x10, 1, 0x4, 2, false, fun _ w _ => [Reg.outwinBase w]⟩,
  ⟨0x100208, 8, 0x10, 1, 0x4, 1, false, fun _ w _ => [Reg.outwinSize w]⟩,
  ⟨0x10020c, 8, 0x10, 1, 0x4, 1, false, fun _ w _ => [Reg.outwinFlags w]⟩,
  ⟨0x101000, 64, 0x40, 1, 0x4, 2, false, fun _ r _ => [Reg.ringDescBase r]⟩,
  ⟨0x101008, 64, 0x40, 1, 0x4, 2, false, fun _ r _ => [Reg.ringCplBase r]⟩,
  ⟨0x101010, 64, 0x40, 1, 0x4, 1, false, fun _ r _ => [Reg.ringCfgSizeLog2 r, Reg.ringCfgEn r, Reg.ringCfgTs r]⟩,
  ⟨0x101014, 64, 0x40, 1, 0x4, 1, false, fun _ r _ => [Reg.ringTail r]⟩]

/-- Part 11 of the register map. -/
def regMap11 : List RegArr := [
  ⟨0x101018, 64, 0x40, 1, 0x4, 1, false, fun _ r _ => [Reg.ringHeadHead r, Reg.ringHeadStopped r]⟩,
  ⟨0x10101c, 64, 0x40, 1, 0x4, 1, false, fun _ r _ => [Reg.ringModModTimer r, Reg.ringModModCount r]⟩,
  ⟨0x101020, 64, 0x40, 1, 0x4, 1, false, fun _ r _ => [Reg.ringFrames r]⟩,
  ⟨0x101024, 64, 0x40, 1, 0x4, 1, false, fun _ r _ => [Reg.ringFullDrops r]⟩,
  ⟨0x101028, 64, 0x40, 1, 0x4, 1, false, fun _ r _ => [Reg.ringErrTooBig r, Reg.ringErrBadDesc r]⟩,
  ⟨0x80000, 1, 0x4, 1, 0x4, 1, false, fun _ _ _ => [Reg.doorbell]⟩,
  ⟨0x80004, 1, 0x4, 1, 0x4, 1, false, fun _ _ _ => [Reg.intStatsSpurious, Reg.intStatsCompleteErr]⟩,
  ⟨0x80008, 1, 0x4, 1, 0x4, 1, false, fun _ _ _ => [Reg.intRefusedDbRefused, Reg.intRefusedEnRefused]⟩,
  ⟨0x8000c, 1, 0x4, 1, 0x4, 1, false, fun _ _ _ => [Reg.intRestoreRestored, Reg.intRestoreRepended]⟩,
  ⟨0x80010, 1, 0x4, 1, 0x4, 1, true, fun b _ _ => [Reg.claimNSource b, Reg.claimNValid b]⟩,
  ⟨0x80014, 1, 0x4, 1, 0x4, 1, true, fun b _ _ => [Reg.completeN b]⟩,
  ⟨0x80018, 1, 0x4, 1, 0x4, 1, true, fun b _ _ => [Reg.claimFSource b, Reg.claimFValid b]⟩,
  ⟨0x8001c, 1, 0x4, 1, 0x4, 1, true, fun b _ _ => [Reg.completeF b]⟩,
  ⟨0x80020, 1, 0x4, 1, 0x4, 1, true, fun b _ _ => [Reg.tgtStatusNPend b, Reg.tgtStatusFPend b, Reg.tgtStatusActN b, Reg.tgtStatusActF b]⟩,
  ⟨0x82000, 2048, 0x4, 1, 0x4, 1, false, fun _ n _ => [Reg.srcCfgEn n, Reg.srcCfgClass n, Reg.srcCfgTarget n, Reg.srcCfgVector n, Reg.srcCfgState n, Reg.srcCfgLevel n, Reg.srcCfgFixed n]⟩,
  ⟨0xa0000, 1, 0x4, 1, 0x4, 1, false, fun _ _ _ => [Reg.fcStatusRecords, Reg.fcStatusSafeState, Reg.fcStatusFaultN, Reg.fcStatusMaxSevOvf, Reg.fcStatusOvfDueSet, Reg.fcStatusOverflow]⟩,
  ⟨0xa0004, 1, 0x4, 1, 0x4, 1, false, fun _ _ _ => [Reg.fcAckIndex, Reg.fcAckGo, Reg.fcAckOvfAck]⟩,
  ⟨0xa0008, 1, 0x4, 1, 0x4, 1, false, fun _ _ _ => [Reg.fcSafeCode, Reg.fcSafeByEsc]⟩,
  ⟨0xa000c, 1, 0x4, 1, 0x4, 1, false, fun _ _ _ => [Reg.fcSafeTempo]⟩,
  ⟨0xa0010, 1, 0x4, 1, 0x4, 1, false, fun _ _ _ => [Reg.fcStatsEscalations, Reg.fcStatsRecorded]⟩,
  ⟨0xa0014, 1, 0x4, 1, 0x4, 1, false, fun _ _ _ => [Reg.fcOvfDue]⟩,
  ⟨0xa0018, 1, 0x4, 1, 0x4, 1, false, fun _ _ _ => [Reg.fcOvfCode]⟩,
  ⟨0xa001c, 1, 0x4, 1, 0x4, 1, false, fun _ _ _ => [Reg.fcOvfTempo]⟩,
  ⟨0xa0100, 16, 0x10, 1, 0x4, 1, false, fun _ i _ => [Reg.fcRecCode i, Reg.fcRecSev i, Reg.fcRecValid i, Reg.fcRecRepeats i]⟩]

/-- Part 12 of the register map. -/
def regMap12 : List RegArr := [
  ⟨0xa0104, 16, 0x10, 1, 0x4, 1, false, fun _ i _ => [Reg.fcRecUnitUnit i, Reg.fcRecUnitDeadlineLeft i]⟩,
  ⟨0xa0108, 16, 0x10, 1, 0x4, 1, false, fun _ i _ => [Reg.fcRecTempo i]⟩,
  ⟨0xa010c, 16, 0x10, 1, 0x4, 1, false, fun _ i _ => [Reg.fcRecDetail i]⟩,
  ⟨0xc00000, 1, 0x4, 1, 0x4, 1, false, fun _ _ _ => [Reg.snapCtl]⟩,
  ⟨0xc00004, 1, 0x4, 1, 0x4, 1, false, fun _ _ _ => [Reg.snapStatusPending, Reg.snapStatusValid]⟩,
  ⟨0xc00008, 1, 0x4, 1, 0x4, 2, false, fun _ _ _ => [Reg.snapTempoNum]⟩,
  ⟨0xc00010, 1, 0x4, 1, 0x4, 1, false, fun _ _ _ => [Reg.frzSelOffset, Reg.frzSelLsb]⟩,
  ⟨0xc00014, 1, 0x4, 1, 0x4, 2, false, fun _ _ _ => [Reg.frzData]⟩,
  ⟨0xc0001c, 1, 0x4, 1, 0x4, 1, false, fun _ _ _ => [Reg.frzStatus]⟩,
  ⟨0xc00020, 1, 0x4, 1, 0x4, 2, false, fun _ _ _ => [Reg.slotTotal]⟩,
  ⟨0xc00028, 1, 0x4, 1, 0x4, 2, false, fun _ _ _ => [Reg.slotRetired]⟩,
  ⟨0xc00030, 1, 0x4, 1, 0x4, 2, false, fun _ _ _ => [Reg.slotWasted]⟩,
  ⟨0xc00038, 1, 0x4, 1, 0x4, 2, false, fun _ _ _ => [Reg.slotFront]⟩,
  ⟨0xc00040, 1, 0x4, 1, 0x4, 2, false, fun _ _ _ => [Reg.slotBack]⟩,
  ⟨0xc00048, 1, 0x4, 1, 0x4, 1, false, fun _ _ _ => [Reg.wastedShadow]⟩,
  ⟨0xc0004c, 1, 0x4, 1, 0x4, 1, false, fun _ _ _ => [Reg.wastedTail]⟩,
  ⟨0xc00050, 1, 0x4, 1, 0x4, 1, false, fun _ _ _ => [Reg.wastedTableEcc]⟩,
  ⟨0xc00060, 1, 0x4, 1, 0x4, 1, false, fun _ _ _ => [Reg.dumpStatusWriting, Reg.dumpStatusMissed]⟩,
  ⟨0xc00064, 1, 0x4, 1, 0x4, 1, false, fun _ _ _ => [Reg.dumpSeq]⟩,
  ⟨0xc00080, 1, 0x4, 1, 0x4, 1, false, fun _ _ _ => [Reg.crCtlNow, Reg.crCtlExpose]⟩,
  ⟨0xc00084, 1, 0x4, 1, 0x4, 1, false, fun _ _ _ => [Reg.crTempo]⟩,
  ⟨0xc01000, 5, 0x100, 1, 0x4, 2, false, fun _ c _ => [Reg.coreCycles c]⟩,
  ⟨0xc01008, 5, 0x100, 8, 0x8, 2, false, fun _ c i => [Reg.corePmc c i]⟩,
  ⟨0xc01048, 5, 0x100, 1, 0x4, 1, false, fun _ c _ => [Reg.coreSelLo c]⟩]

/-- Part 13 of the register map. -/
def regMap13 : List RegArr := [
  ⟨0xc0104c, 5, 0x100, 1, 0x4, 1, false, fun _ c _ => [Reg.coreSelHi c]⟩,
  ⟨0x1000, 1, 0x4, 1, 0x4, 1, true, fun b _ _ => [Reg.imgCtlOp b, Reg.imgCtlGo b]⟩,
  ⟨0x1004, 1, 0x4, 1, 0x4, 1, true, fun b _ _ => [Reg.imgDst b]⟩,
  ⟨0x1008, 1, 0x4, 1, 0x4, 1, true, fun b _ _ => [Reg.imgSrc b]⟩,
  ⟨0x100c, 1, 0x4, 1, 0x4, 1, true, fun b _ _ => [Reg.imgLen b]⟩,
  ⟨0x1010, 1, 0x4, 1, 0x4, 1, false, fun _ _ _ => [Reg.imgStatusState, Reg.imgStatusInactiveB, Reg.imgStatusVerified, Reg.imgStatusResult, Reg.imgStatusPhase]⟩,
  ⟨0x1014, 1, 0x4, 1, 0x4, 1, false, fun _ _ _ => [Reg.imgStatsCastlings, Reg.imgStatsAbandoned]⟩,
  ⟨0x1018, 1, 0x4, 1, 0x4, 1, false, fun _ _ _ => [Reg.imgPreferA]⟩,
  ⟨0x101c, 1, 0x4, 1, 0x4, 1, false, fun _ _ _ => [Reg.imgPreferB]⟩,
  ⟨0x1020, 1, 0x4, 1, 0x4, 1, false, fun _ _ _ => [Reg.imgFlipTempo]⟩,
  ⟨0x1024, 1, 0x4, 1, 0x4, 1, false, fun _ _ _ => [Reg.imgSerial]⟩,
  ⟨0x4, 1, 0x4, 1, 0x4, 1, false, fun _ _ _ => [Reg.bootStatusReady, Reg.bootStatusCause, Reg.bootStatusBootSel, Reg.bootStatusRecovery, Reg.bootStatusFallback, Reg.bootStatusResultA, Reg.bootStatusResultB, Reg.bootStatusHalt]⟩,
  ⟨0x8, 1, 0x4, 1, 0x4, 1, false, fun _ _ _ => [Reg.calFailLo]⟩,
  ⟨0xc, 1, 0x4, 1, 0x4, 1, false, fun _ _ _ => [Reg.calFailHiPortsHi, Reg.calFailHiChannels]⟩,
  ⟨0x10, 1, 0x4, 1, 0x4, 1, false, fun _ _ _ => [Reg.resetReq]⟩,
  ⟨0x2000, 1, 0x4, 1, 0x4, 1, false, fun _ _ _ => [Reg.supplyStatusVmidOk, Reg.supplyStatusRailsOk, Reg.supplyStatusLowVbat, Reg.supplyStatusHighVbat, Reg.supplyStatusThermWarn, Reg.supplyStatusVbat]⟩,
  ⟨0x2004, 1, 0x4, 1, 0x4, 1, false, fun _ _ _ => [Reg.supplyEventsLowSeen, Reg.supplyEventsHighSeen, Reg.supplyEventsThermSeen]⟩,
  ⟨0x2008, 1, 0x4, 1, 0x4, 1, false, fun _ _ _ => [Reg.vbatRangeVbatMin, Reg.vbatRangeVbatMax]⟩,
  ⟨0x2010, 4, 0x4, 1, 0x4, 1, false, fun _ s _ => [Reg.tempTemp s, Reg.tempPeak s]⟩,
  ⟨0x0, 1, 0x4, 1, 0x4, 1, false, fun _ _ _ => [Reg.identStepMinor, Reg.identStepMajor, Reg.identPart]⟩,
  ⟨0x480018, 8, 0x10000, 1, 0x4, 1, false, fun _ l _ => [Reg.plcaBurstTmr l]⟩,
  ⟨0xc00100, 10, 0x4, 1, 0x4, 1, false, fun _ i _ => [Reg.crMirror i]⟩]

/-- The whole register map (R445). -/
def regMap : List RegArr :=
  regMap0 ++ regMap1 ++ regMap2 ++ regMap3 ++ regMap4 ++ regMap5 ++ regMap6 ++ regMap7 ++ regMap8 ++ regMap9 ++ regMap10 ++ regMap11 ++ regMap12 ++ regMap13

/-- Word index of offset `a` within a register of the array, with the two indices, if `a` is one of its words. -/
def RegArr.locate (r : RegArr) (a : Nat) : Option (Nat × Nat × Nat) :=
  if a < r.base then none
  else
    let d := a - r.base
    let i := if r.n1 = 1 then 0 else d / r.s1
    let e := d - i * r.s1
    let j := if r.n2 = 1 then 0 else e / r.s2
    let o := e - j * r.s2
    if i < r.n1 ∧ j < r.n2 ∧ o < 4 * r.words ∧ o % 4 = 0 then some (i, j, o / 4) else none

/-- The fields of the register at an offset as the accessor numbered `b` sees it, with the index of the
32-bit word read within each field's span. Empty at a reserved offset. -/
def fieldsAt (b a : Nat) : List (Fld × Nat) :=
  (regMap.filterMap fun r =>
    match r.locate a with
    | some (i, j, k) => some ((r.flds (if r.banked then b else 0) i j).map fun f => (f, k))
    | none => none).flatten

/-- Is the offset one that no chapter lists (R10, R445)? Offsets 0x0F0_0000 to 0x0FF_FFFF are the debug
and test block, whose registers are a halted core's (R350). -/
def reservedOffset (a : Nat) : Bool := (fieldsAt 0 a).isEmpty

/-- The block ranges of control space (R445). -/
def blockAt (a : Nat) : Option Nat :=
  [(0x000000, 0x13), (0x001000, 0x1027), (0x002000, 0x201F), (0x010000, 0x10183), (0x020000, 0x20063),
   (0x040000, 0x40097), (0x080000, 0x83FFF), (0x0A0000, 0xBFFFF), (0x0C0000, 0xC02FF), (0x0E0000, 0xE0127),
   (0x100000, 0x101FFF), (0x200000, 0x4FFFFF), (0x500000, 0x501CFF), (0x600000, 0x600FFF),
   (0x610000, 0x6107FF), (0x800000, 0x95FFFF), (0xA00000, 0xAFFFFF), (0xB00000, 0xB013FF),
   (0xC00000, 0xC014FF), (0xE00000, 0xE0090F), (0xF00000, 0xFFFFFF)].findIdx?
    fun r => r.1 ≤ a && a ≤ r.2

end Sys2Proof.Machine
end

