-- ==== Sys2Proof/Machine/Sparse.lean ====
section
/-!
DEFINITION. Sparse maps and byte memories kept in one canonical form: keys strictly rising, so that
equal contents are equal data. Every table, register store and memory of the state is one of these.
-/
namespace Sys2Proof.Machine

/-- A sparse table: pairs of a key and an entry, keys strictly rising. -/
abbrev SMap (α : Type) := List (Nat × α)

/-- The entry under a key, if there is one. -/
def SMap.find {α : Type} : SMap α → Nat → Option α
  | [], _ => none
  | (k, v) :: m, j => if j = k then some v else SMap.find m j

/-- The table with `v` under key `j`, in place of what was there. -/
def SMap.set {α : Type} : SMap α → Nat → α → SMap α
  | [], j, v => [(j, v)]
  | (k, w) :: m, j, v =>
    if j < k then (j, v) :: (k, w) :: m
    else if j = k then (j, v) :: m
    else (k, w) :: SMap.set m j v

/-- The table without key `j`. -/
def SMap.del {α : Type} (m : SMap α) (j : Nat) : SMap α := m.filter fun e => e.1 != j

/-- The table with key `j` set, or removed when there is nothing to hold. -/
def SMap.put {α : Type} (m : SMap α) (j : Nat) : Option α → SMap α
  | some v => m.set j v
  | none => m.del j

/-- Is there an entry under the key? -/
def SMap.has {α : Type} (m : SMap α) (j : Nat) : Bool := (m.find j).isSome

/-- The entries for which `p` holds. -/
def SMap.keep {α : Type} (m : SMap α) (p : Nat → α → Bool) : SMap α :=
  m.filter fun e => p e.1 e.2

/-- The table with every entry changed by `f`. -/
def SMap.mapVals {α : Type} (m : SMap α) (f : Nat → α → α) : SMap α :=
  m.map fun e => (e.1, f e.1 e.2)

/-- The smallest key at or above `n` that is not in use, for a table whose keys below it are
counted by `fuel`. -/
def SMap.freshFrom {α : Type} (m : SMap α) : Nat → Nat → Nat
  | 0, n => n
  | fuel + 1, n => if m.has n then SMap.freshFrom m fuel (n + 1) else n

/-- The canonical form of a sparse table: keys strictly rising. -/
def SMap.wf {α : Type} (m : SMap α) : Bool :=
  decide (m.Pairwise fun a b => a.1 < b.1)

/-- A byte memory whose unlisted addresses read as the memory's own filler byte. -/
abbrev Mem := SMap Byte

/-- One byte of a memory with filler `d`. -/
def Mem.read (m : Mem) (d : Byte) (a : Nat) : Byte := (SMap.find m a).getD d

/-- One byte written; writing the filler byte removes the entry, which keeps the canonical form. -/
def Mem.write (m : Mem) (d : Byte) (a : Nat) (v : Byte) : Mem :=
  if v = d then SMap.del m a else SMap.set m a v

/-- `n` bytes from address `a` up. -/
def Mem.readBytes (m : Mem) (d : Byte) (a n : Nat) : List Byte :=
  (List.range n).map fun i => Mem.read m d (a + i)

/-- The bytes of a list stored from address `a` up. -/
def Mem.writeBytes (m : Mem) (d : Byte) (a : Nat) : List Byte → Mem
  | [] => m
  | b :: bs => Mem.writeBytes (Mem.write m d a b) d (a + 1) bs

/-- The canonical form of a memory: addresses strictly rising and no entry equal to the filler. -/
def Mem.wf (m : Mem) (d : Byte) : Bool := SMap.wf m && m.all fun e => e.2 != d

end Sys2Proof.Machine
end

