-- ==== Sys2Proof/Machine/State.lean ====
section
/-!
DEFINITION. The state of the block as plain data: every register, table, queue, counter, mode and pin
the manual gives it, and the queue of waiting commands. Registers are held as fields under the numbers
of the register map; a field that is not listed holds its Reset value. State.reset is the machine
before its supply comes up (Off).
-/
namespace Sys2Proof.Machine

/-- Reasons for a fault. The manual gives an effect to every command in every state, so no meaning of
this model raises one; the type is kept for the interface. `none` is raised by nobody. Safe. -/
inductive Fault where
  | none
deriving DecidableEq, Repr

/-- Reasons for a refusal. `notModelled` is raised by an arm of `exec` whose command has no meaning
yet. Safe: nothing is claimed of that command. -/
inductive Refusal where
  | notModelled (mnemonic : String)
deriving DecidableEq, Repr

/-- How an access ended for its master (R309, R335, R347, R350). -/
inductive Resp where
  | done
  | data (v : Nat)
  | words (ws : List Nat)
  | busError
  | completerAbort
  | unsupportedRequest
  | crs
  | errorSync (code : Nat)
  | exclFailed
  | jobTooLarge
  | dbg (status : Nat) (data : Nat)
  | ignored
deriving DecidableEq, Repr

/-- How an mPacket of Clause 99 begins (R92): the first fragment of a frame, a later one, a verify frame or a
response. -/
inductive Smd where
  | start
  | cont
  | verify
  | response
deriving DecidableEq, Repr

/-- What leaves the device at its pins and links. Newest first in `IoSt.out`. A frame leaves with the timestamp it is
delivered with; `mpacket` is one fragment of a preemptable frame, with the frame's number and the fragment's count,
each modulo 4; `capture` is an egress timestamp returned to general-cluster firmware (R91). -/
inductive Out where
  | frame (port : Nat) (preemptable : Bool) (bytes : List Byte) (stomped : Bool) (time : Nat)
  | mpacket (port : Nat) (smd : Smd) (number count : Nat) (bytes : List Byte)
  | capture (port : Nat) (time : Nat) (bytes : List Byte)
  | beacon (port : Nat)
  | can (ch : Nat) (msg : BusMsg)
  | linHeader (l : Nat) (id : Nat)
  | linFrame (l : Nat) (id : Nat) (data : List Byte) (csum : Byte)
  | vector (v : Nat)
  | pme
  | hostWrite (addr : Nat) (bytes : List Byte)
  | hostRead (addr len : Nat)
  | tc10Sleep (port : Nat)
  | tc10Wake (port : Nat)
  | coreInterrupt (core : Nat) (fast : Bool)
deriving DecidableEq, Repr

/-- A domain's time: the local clock corrected by a rate ratio and an offset (R32). At local time
`anchorLocal` the domain read `anchorTime` ns; it runs `rate` parts per 10^9 fast, and `slew` ns are
still to be removed by slewing (R34, R35). `gm` is the grandmaster Sync was last accepted from: none before the first
one, and none once Karlasin is grandmaster itself. -/
structure DomSt where
  anchorLocal : Nat
  anchorTime : Int
  rate : Int
  slew : Int
  everLocked : Bool
  gm : Option Nat
deriving DecidableEq, Repr

/-- The time base: the local clock in ns, the two domains, the tempo in progress, and the local instant at which a pulse
of PPS_OUT ends. -/
structure TimeSt where
  now : Nat
  wc : DomSt
  gt : DomSt
  tempoLocal : Nat
  tempoMark : Int
  realign : Bool
  ppsCand : Option Nat
  ppsLast : Option Nat
  ppsOutUntil : Option Nat
  ppsOutHigh : Bool
  gtSetAt : Nat
  syncSent : SMap Nat
deriving DecidableEq, Repr

/-- A budgeted job (R46, R47): its core (0 the safety pair, 1 to 4 GC[0] to GC[3]), kind, cost bound in
ns, the deferrals it has suffered, the order of its request and the tempo it was last deferred in. -/
structure Job where
  core : Nat
  kind : JobKind
  cost : Nat
  deferrals : Nat
  order : Nat
  deferTempo : Option Nat
deriving DecidableEq, Repr

/-- Job queues of the budgeted cores, in order of request with deferred jobs ahead; the job running on
each core with its start on the local clock; and the budget each has left in the tempo. -/
structure JobSt where
  queue : List Job
  running : SMap Job
  startedAt : SMap Nat
  budget : SMap Nat
  order : Nat
deriving DecidableEq, Repr

/-- An item of the staging set (R67). -/
structure StageItem where
  kind : Nat
  addr : Nat
  len : Nat
  crc : Nat
deriving DecidableEq, Repr

/-- The envelope and the commit in progress, beyond their registers. `entryDone`: the commit's scoresheet entry is sealed
and appended (R71). `touched` lists the vault slots whose KEYS recipe the commit in preparation adds or replaces
(R250). -/
structure EnvSt where
  loaded : Bool
  items : List StageItem
  staged : SMap Nat
  latches : SMap Nat
  drainStart : SMap Nat
  commitOwner : Nat
  commitAt : Nat
  waitStart : Nat
  t0 : Nat
  prepFail : Option (Nat × Nat × Nat)
  prepDone : Bool
  entryDone : Bool
  handover : Bool
  sealed : List Nat
  structural : SMap (List Byte)
  policy : SMap (List Byte)
  cmt : SMap Nat
  touched : List Nat
deriving DecidableEq, Repr

/-- A recorded fault (R363). -/
structure FaultRec where
  code : Nat
  sev : Nat
  unit : Nat
  tempo : Nat
  detail : Nat
  repeats : Nat
  deadline : Nat
  profile : Nat
deriving DecidableEq, Repr

/-- The fault collector: its records in arrival order, the severity limits of an overflow, and the
registers the always-on domain keeps across resets. -/
structure FaultSt where
  recs : List FaultRec
  ovfDue : Option Nat
  ovfTempo : Nat
  toJournal : Bool
deriving DecidableEq, Repr

/-- The interrupt controller: for each active source the target and class that claimed it, whether its
level was low at the claim, whether the claimer has cleared its status since, whether it fell, and whether SAVE has
armed the retention copy; and for each source the class and the event
vector it became pending under (R356). -/
structure IntSt where
  claimedBy : SMap Nat
  lowAtClaim : List Nat
  cleared : List Nat
  fell : List Nat
  armed : Bool
  pendRoute : SMap (Nat × Nat)
deriving DecidableEq, Repr

/-- An entry of the posted-error ledger (R334). -/
structure LedgerEntry where
  addr : Nat
  code : Nat
  origin : Nat
  space : Nat
  tempo : Nat
deriving DecidableEq, Repr

/-- A write waiting in the outbound posted buffer (R329): the core it came from. -/
structure Outbound where
  core : Nat
  addr : Nat
  data : List Byte
deriving DecidableEq, Repr

/-- What a GC core's open outbound access is (R329, R332); of the closing read of a write, the last DW written. -/
inductive OpenRead where
  | read (addr len : Nat)
  | ackWrite (addr : Nat)
  | exclLoad (addr len : Nat)
  | exclStore (addr : Nat)
deriving DecidableEq, Repr

/-- A transmit completion in descriptor order (R339): its descriptor index, cookie and status, the egress
timestamp, whether it may be written, and the unit whose cells it waits for. -/
structure TxWait where
  idx : Nat
  cookie : List Byte
  status : Nat
  time : Option Nat
  ready : Bool
  unit : Option Nat
deriving DecidableEq, Repr

/-- One DMA ring beyond its registers (R336 to R340). -/
structure RingSt where
  phase : Bool
  unsignalled : Nat
  firstAt : Option Nat
  descs : SMap (List Byte)
  waiting : List TxWait
deriving DecidableEq, Repr

/-- The host bridge: the function's identity and its Max payload and Max read request sizes (R321), link and power state
with PME_En and PME_Status (R342), the MSI-X table's addresses and data by vector
with its masks and pending bits (R322), semaphores with the time each was taken (R332), ledger, outbound traffic, rings,
a fetch in hand or withdrawn to be retried (R331), SPI. [PRESUMED, log 144] -/
structure HostSt where
  deviceId : Nat
  vendorId : Nat
  subVendorId : Nat
  subsystemId : Nat
  maxPayload : Nat
  maxReadReq : Nat
  revision : Nat
  classCode : Nat
  perstN : Bool
  msixEn : Bool
  msixTab : SMap (List Byte)
  msixMask : List Nat
  msixPend : List Nat
  pmeEn : Bool
  pmeStatus : Bool
  peWakeAt : Option Nat
  d3cold : Bool
  semSince : SMap Nat
  ledger : List LedgerEntry
  posted : List Outbound
  openReads : SMap OpenRead
  semWait : SMap (Nat × Nat × Nat × Nat)
  retry : SMap Nat
  rings : SMap RingSt
  fetching : Option (Nat × Nat)
  fetchRetry : Option (Nat × Nat)
  wrrRing : Nat
  wrrLeft : Nat
  lastErr : Bool
deriving DecidableEq, Repr

/-- The processors: whether the safety pair is held, which cores are halted by the debugger, when held general
cores were released, the castling window, the replay log, words a scrub has marked, a wipe in progress, the last
grants of the banks, and the debug port: the TAP's instruction, its boundary-scan register (R349), the outcome of the
last DBG_ACCESS request and the instant of that request (R350). -/
structure CpuSt where
  spHeld : Bool
  halted : List Nat
  heldAt : SMap Nat
  injected : Bool
  spWindow : Bool
  replay : List (Nat × Nat)
  lastBankGrant : SMap Nat
  badWords : SMap (List Nat)
  wipeUntil : Nat
  coreRegs : SMap Nat
  tapInstr : Nat
  boundaryScan : Nat
  dbgStatus : Nat
  dbgData : Nat
  dbgAt : Option Nat
deriving DecidableEq, Repr

/-- The memory banks S, G, H and T as byte memories, and the packet buffers' neighbours in flash: the two
firmware slots (R386), with erased bytes reading 0xFF. -/
structure MemSt where
  bankS : Mem
  bankG : Mem
  bankH : Mem
  bankT : Mem
  flashA : Mem
  flashB : Mem
deriving DecidableEq, Repr

/-- Containment beyond its registers (R166 to R173): when each active profile was first activated, the
modes kept for an active profile that is no longer VALID, the profile 0 record in the ripcord latches,
the pin's edges and its hold, and the releases written, as pairs of a profile and the number of its boundary. -/
structure ContSt where
  since : SMap Nat
  kept : SMap (List Byte)
  latch0 : List Byte
  pinLow : Bool
  fellAt : Nat
  roseAt : Nat
  pinLatched : Bool
  relAt : List (Nat × Nat)
  faultOpen : SMap (List (Nat × Nat))
deriving DecidableEq, Repr

/-- Where the device stands between Off and forwarding (R272, R401, R410, R416): no supply; the
always-on domain up and the rails rising; the switch die in reset; memory being initialised; an image
pass running; the image accepted and firmware starting; halted by a core fault; ROM recovery mode;
forwarding; powering down after the point of no return; Moored; Parked; and the wake from Moored up to
forwarding. -/
inductive Phase where
  | off
  | rising
  | inReset
  | memInit
  | imagePass
  | starting
  | halted
  | recovery
  | aloft
  | cutoff
  | moored
  | parked
  | wakeRising
  | wakeCheck
  | wakeTrain
deriving DecidableEq, Repr

/-- Start-up: the phase and when it began, the cause of the boot, RESET_N, a thermal trip, the straps as last
seen, the slot the image was accepted from, the slots whose passes are to come, whether calibration is complete,
the code areas in use of the safety pair and of the general cluster (R387): 0 the first, 1 the second, and a
life-cycle request that waits for the safety pair (R298): its target and who asked. -/
structure BootSt where
  phase : Phase
  phaseAt : Nat
  cause : Nat
  resetPin : Bool
  thermalHeld : Bool
  straps : Straps
  slotB : Bool
  passes : List Bool
  calDone : Bool
  spArea : Nat
  gcArea : Nat
  lcPend : Option (Nat × Master)
deriving DecidableEq, Repr

/-- Castling and recovery (chapter 16): the image operation in hand as OP, DST and the bytes it programs, slots
whose erase or write was cut short, the tempo of SPLIT's T+0, whether the new parts are loaded, the result an
abandon is due with, whether new safety-pair firmware is ready, the tempo its window began, a recovery reset that
is due, the mailbox command in hand (OP, slot B, OFFSET and LEN), the slots the mailbox has verified, the envelope keys
that were revoked when the handover commit was checked, the tempo the carried state was written for (R393), and the tempo
of the last abandon. -/
structure ImgSt where
  op : Option (Nat × Nat × List Byte)
  spoiled : List Bool
  castAt : Nat
  loaded : Bool
  failDue : Option Nat
  spReady : Bool
  windowAt : Nat
  recoverDue : Bool
  rom : Option (Nat × Bool × Nat × Nat)
  romVerified : List Bool
  vkSeen : Nat
  carried : Option Nat
  abandonAt : Option Nat
deriving DecidableEq, Repr

/-- A vault slot (R242, R244, R254): 1 READY or 2 REVOKED (an EMPTY slot is not listed), the two shares
whose XOR is the key, and the attributes it was filled with. -/
structure VSlot where
  state : Nat
  shareA : List Byte
  shareB : List Byte
  origin : Nat
  depth : Nat
  parent : Nat
  len256 : Bool
  masters : Nat
  secure : Bool
  lc : Nat
  usage : Nat
  revokeBy : Nat
deriving DecidableEq, Repr

/-- A revocation waiting for its boundary (R252): the slot, who asked, and when it was accepted. -/
structure RevPend where
  slot : Nat
  master : Nat
  at_ : Nat
deriving DecidableEq, Repr

/-- A bulk MAC job of a master (R261): the slot and the generation of the key it was started under, the bytes of its
source it has read so far, and when it was started. -/
structure McjJob where
  op : Nat
  slot : Nat
  gen : Nat
  src : Nat
  len : Nat
  read : List Byte
  since : Nat
deriving DecidableEq, Repr

/-- The Hash_DRBG that gives the vault its masks (R254): its 440-bit V and C, and its requests since it was seeded, 0
before it is. -/
structure Drbg where
  v : Nat
  c : Nat
  count : Nat
deriving DecidableEq, Repr

/-- A copy of the key record in flash (R256): its save counter, each slot's GEN, the slots that have held a key and
those that are REVOKED, the imported slots' two shares blinded, and its seal. -/
structure KeyCopy where
  counter : Nat
  gen : SMap Nat
  held : List Nat
  revoked : List Nat
  imported : SMap (List Byte)
  mac : List Byte
deriving DecidableEq, Repr

/-- A save of SecOC freshness values in flash (R256): its save counter, the values, and its seal. -/
structure FvSave where
  counter : Nat
  values : SMap Nat
  mac : List Byte
deriving DecidableEq, Repr

/-- The vault (R242 to R265). `gen`, `held`, `imported` (blinded) and `revoked` (the slots whose state is REVOKED) are the
key record as firmware holds it, and `copies` the copies of it in blocks 0 and 1 of the blob region in flash;
`badBlocks` are the blocks of that region that failed to program (R256). `suspCores` are the cores whose running job's
bulk work is suspended (R259). -/
structure VaultSt where
  slots : SMap VSlot
  gen : SMap Nat
  held : List Nat
  imported : SMap (List Byte)
  revoked : List Nat
  badBlocks : List Nat
  revPend : List RevPend
  mcj : SMap McjJob
  lastRemask : Nat
  tamperPower : Nat
  tamperUnreported : Bool
  entropyUnreported : Bool
  drbg : Drbg
  copies : SMap KeyCopy
  suspCores : List Nat
deriving DecidableEq, Repr

/-- One-time-programmable fuses of the anchor die (R243, R263, R268): the life-cycle state, programmed
and revoked envelope keys, ROOT_CUST, and the anchors as pairs of a SEQ and a hash. -/
structure OtpSt where
  lc : Nat
  vkProg : Nat
  vkRevoked : Nat
  rootCust : Bool
  anchors : List (Nat × List Byte)
deriving DecidableEq, Repr

/-- The scoresheet region of flash (R266): entries under their position from the first ever written,
the oldest position present and the next to be written, SEQ and hash of the head, events not journaled
since the last LOST entry, and a read in hand. -/
structure SheetSt where
  entries : SMap (List Byte)
  oldest : Nat
  next : Nat
  nextSeq : Nat
  headHash : List Byte
  lost : Nat
  reading : Bool
deriving DecidableEq, Repr

/-- A learned entry of the forwarding database (R109, R111): `hitAt` is the local time of its last hit
as a source. -/
structure Learned where
  fid : Nat
  mac : List Byte
  port : Nat
  hitAt : Nat
deriving DecidableEq, Repr

/-- A conversation (R159 to R163): IP version, VID, protocol, the two endpoints as the byte strings of
R159 (address then port) in rising order, whether the lower one is the originator, the state as the
entry layout codes it (1 SYN_SENT to 6 UDP_REPLIED), DoIP tracking (0 off, 1 open, 2 bound), the
recorded source address or service ID, its timeout class and the local time of its last unit. -/
structure Conv where
  ver : Nat
  vid : Nat
  proto : Nat
  lo : List Byte
  hi : List Byte
  origLo : Bool
  st : Nat
  doip : Nat
  mark : Option Nat
  cls : Nat
  hitAt : Nat
deriving DecidableEq, Repr

/-- A fragment-follow entry (R141 to R143). -/
structure Frag where
  v6 : Bool
  sip : List Byte
  dip : List Byte
  proto : Nat
  ident : Nat
  port : Nat
  slot : Nat
  rule : Nat
  sport : Nat
  dport : Nat
  madeAt : Nat
deriving DecidableEq, Repr

/-- A receive SA as a slot has it: VALID, its key's slot, its SSCI and its salt. -/
structure RxSa where
  valid : Bool
  key : Nat
  ssci : Nat
  salt : Nat
deriving DecidableEq, Repr

/-- What a SecY verifies a frame by (R97), as the slot current at the frame's first byte has it: BYPASS_PTP, the suite,
the replay window where replay is checked, and the enabled receive SCs, each with its number, its SCI and its SAs. -/
structure RxCfg where
  bypass : Bool
  suite : Nat
  win : Option Nat
  scs : List (Nat × Nat × List RxSa)
deriving DecidableEq, Repr

/-- A received frame held for its ICV check (R97): the number of its SA in the port's SA table, its packet
number, the vault slot and generation of the key it was submitted under, its nonce, the replay window if
replay is checked, whether the suite is an XPN one, the SecTAG's length and the length of the user data. -/
structure RxHold where
  sa : Nat
  pn : Nat
  key : Nat
  gen : Nat
  nonce : List Byte
  win : Option Nat
  xpn : Bool
  tagLen : Nat
  dataLen : Nat
deriving DecidableEq, Repr

/-- A frame in the device, from its arrival to its last replica's departure. `bytes` run from the
destination address to the last byte before the FCS, as the edits so far left them; `rxLen` is the length of R82,
with SecTAG, ICV and FCS, `popped` the bytes that POP edits have taken off since, and `dei` the DEI of the tag it
arrived with (R183); `port` is the
ingress port (R20), 50 for an ACF frame built by the edge complex. `tail`: 0 not judged, 1 good, 2 bad; `come`: all of
it has arrived. `sec`: what its SecY is to verify it by once its tail is in (R94, R97). `ends`: its reception ends at its
tail as 0 a MAC control frame (R105), 1 one of a suppressed network (R278), 2 one of a closed ingress (R280).
`prov` is the provisional length it was charged by (R180), `filter` the stream filter it passed with that filter's record
(R182), and `charged` the meter bucket that took it,
true for the committed one. `pool`: 0 none, 1 management, 2 guaranteed to `poolPort`, 3 shared. `marked`: its action has MGMT. `refs`
counts replicas that have not left; `sent` holds once one has completed; `slotCounted` while the slot of
its latest pass stands in RETIRED and R376 may move it. `needEnd` and `avtpEnd` are the ends R134 tests, and `decidedAt` is the instant of its last decision (R234). `ownMac`:
each replica leaves with the address of its own port as SMAC (R231). -/
structure Packet where
  bytes : List Byte
  rxLen : Nat
  popped : Nat
  dei : Bool
  port : Nat
  slot : Option Nat
  stamp : Nat
  written : Nat
  tail : Nat
  come : Bool
  sec : Option RxCfg
  ends : Option Nat
  hold : Option RxHold
  whole : Bool
  preempt : Bool
  directed : Option Nat
  mgmtReq : Bool
  tsReq : Bool
  passes : Nat
  decided : Bool
  decidedAt : Nat
  safety : Bool
  mgmt : Bool
  marked : Bool
  fixed : Bool
  tunnel : Option Nat
  vid : Nat
  prio : Nat
  prov : Nat
  filter : Option (Nat × List Byte)
  charged : Option (Nat × Bool)
  pool : Nat
  poolPort : Nat
  cells : Nat
  refs : Nat
  sent : Bool
  slotCounted : Bool
  route : Option Nat
  routeOff : Nat
  needEnd : Nat
  avtpEnd : Nat
  ownMac : Bool
  dropped : Bool
deriving DecidableEq, Repr

/-- A replica waiting on a leaf queue: its frame, cut-through, member of an atomic flow, whether its
cells are charged to the leaf's share of the shared pool, and its finish tag once given (R187). -/
structure Replica where
  uid : Nat
  ct : Bool
  atomic : Bool
  shared : Bool
  ftag : Option Nat
deriving DecidableEq, Repr

/-- A frame in transmission on a MAC: its replica and leaf, the bytes it sends, the wire length it was
charged by, its egress timestamp, the line time in ns left
when it last started or resumed, the vault slot and generation of the key that protects it, whether its gate closed under it, whether its
end is to be stomped, and whether it was selected before its tail had arrived. On the preemptable MAC: its frame
number, the fragments and the bytes that have left before the one on the line, and the instant that one is to end at
(R92). -/
structure Tx where
  rep : Replica
  leaf : Nat
  bytes : List Byte
  charged : Nat
  egress : Nat
  rest : Nat
  startAt : Nat
  running : Bool
  key : Option (Nat × Nat)
  overrun : Bool
  stomp : Bool
  early : Bool
  number : Nat
  frags : Nat
  sent : Nat
  cutAt : Option Nat
deriving DecidableEq, Repr

/-- A secure association's packet number under a key its current entry no longer names, which a draining slot may
still use (R98, R99). -/
structure FormerSa where
  pn : Nat
  exhausted : Bool
  thresh : Bool
deriving DecidableEq, Repr

/-- The switch core and classifier's state: frames by number, leaf queues under port * 64 + leaf, the
P51 queue, MACs under port * 2 (express) and port * 2 + 1, WRED averages with 8 fractional bits, cells
in use of each pool, learned and static ways of the forwarding database, conversations, fragments, a
flush or a probe in hand, the slot clock and the staging source served last (R22), training and verification of the
links, the number of each port's next preemptable frame, packet numbers kept for draining slots under
(port * 36 + SA) * 512 + key slot, and the statistics
of R380: port objects under port * 32 + index, and leaf frames and octets under (port * 64 + leaf) * 2. -/
structure NetSt where
  packets : SMap Packet
  nextUid : Nat
  queues : SMap (List Replica)
  recirc : List Nat
  macs : SMap Tx
  avg : SMap Nat
  sharedUsed : Nat
  mgmtUsed : Nat
  guarUsed : SMap Nat
  learned : SMap Learned
  static : SMap (Nat × List Byte)
  convs : SMap Conv
  frags : SMap Frag
  convFlushing : Bool
  probing : Option (Nat × Nat)
  slotUsed : Nat
  lastServed : Nat
  selftestTempo : Option Nat
  partnerSig : SMap Nat
  trainedAs : SMap Nat
  linkSince : SMap Nat
  verifySent : SMap Nat
  verifyAt : SMap Nat
  frameNo : SMap Nat
  formerSa : SMap FormerSa
  mib : SMap Nat
  leafTx : SMap Nat
deriving DecidableEq, Repr

/-- A token bucket in units of 1/8,000,000 byte at a local instant, with the instant its wheel entry
fires (R186, R190). -/
structure Bucket where
  tok : Int
  asOf : Nat
  wheel : Option Nat
deriving DecidableEq, Repr

/-- The two buckets of a flow meter (R183), in the units of Bucket. -/
structure Meter where
  c : Int
  e : Int
  asOf : Nat
deriving DecidableEq, Repr

/-- The gate lists of a port (R194 to R200): the operating and the pending list, the pending list's
switch instant, and whether a Set-And-Hold-MAC operation holds the preemptable MAC. -/
structure Gates where
  oper : Option (List Byte)
  pend : Option (List Byte)
  switchAt : Int
  hold : Bool
deriving DecidableEq, Repr

/-- The traffic manager: leaf buckets under port * 64 + leaf, port buckets, last finish tags of leaves,
virtual times under port * 8 + node, meters, gate lists, and the octets of flow gates with the start of the
interval they were counted in. -/
structure TmSt where
  leafTok : SMap Bucket
  portTok : SMap Bucket
  fprev : SMap Nat
  vtime : SMap Nat
  meters : SMap Meter
  gates : SMap Gates
  octets : SMap Nat
  flowAt : SMap Int
deriving DecidableEq, Repr

/-- A received edge message (R208): its channel, epoch tag, working-clock time of reception, SEC_OK, the port of
its tunnel frame, its cells and whether they come from the P50 guarantee, whether it may be presented, and the
SecOC entry, freshness value and key generation it waits on. -/
structure EdgeMsg where
  msg : BusMsg
  ch : Nat
  slot : Nat
  stamp : Nat
  secOk : Bool
  inPort : Option Nat
  cells : Nat
  guar : Bool
  ready : Bool
  wait : Option (Nat × Nat × Nat)
deriving DecidableEq, Repr

/-- An output message on its way to a channel (R229, R232): epoch tag, working-clock time of reception at its
source, decision instant, the route it came from, whether its unit was agreed safety, its cells, and, while its secured PDU
is being made, the SecOC entry and freshness value of that PDU (R237). -/
structure QMsg where
  msg : BusMsg
  slot : Nat
  stamp : Nat
  decidedAt : Nat
  route : Nat
  safety : Bool
  cells : Nat
  guar : Bool
  made : Option (Nat × Nat)
deriving DecidableEq, Repr

/-- An output whose secured PDU is being made (R237): the SecOC entry, the freshness value, the generation of
the key, the message with its authentic part, and its target channels. -/
structure SecJob where
  entry : Nat
  fv : Nat
  gen : Nat
  out : QMsg
  targets : List Nat
deriving DecidableEq, Repr

/-- An ACF frame of a packer (R225): when it opened, its epoch, and its ACF messages. -/
structure Packer where
  openedAt : Nat
  slot : Nat
  acf : List Byte
deriving DecidableEq, Repr

/-- A LIN channel's schedule (R218): the table running and its content as of its cycle's start, the slot
running, the tempo at which it ends, when its header began, the frame ID and length of a response awaited, and
the frame ID, payload and message being sent. -/
structure LinRun where
  table : Nat
  body : List Byte
  slotIdx : Nat
  endTempo : Nat
  sentAt : Nat
  waiting : Option (Nat × Nat)
  sending : Option (Nat × List Byte × Option QMsg)
deriving DecidableEq, Repr

/-- The edge complex: receive lists and transmit queues by channel, CAN channels that have joined their bus, the
message offered to or on each CAN bus, messages taken that are to be offered again, rate buckets in 1/10^9
frame, PDUs being secured, packers by binding with the frames closed that wait for a slot (each with its
sequence number), LIN schedules, last LIN payloads under channel * 64 + frame ID, freshness values and blocked
entries, the last sequence number and instant of each binding's tunnel frames, the sequence numbers of routes
with ETH_OUT, tunnel frames at P50, and the saves of freshness values in flash under their blocks (R256), with when the last was made. -/
structure EdgeSt where
  rxList : SMap (List EdgeMsg)
  txq : SMap (List QMsg)
  joined : List Nat
  offered : SMap QMsg
  again : SMap (List QMsg)
  rate : SMap (Nat × Nat)
  secJobs : List SecJob
  packers : SMap Packer
  packed : SMap (List (Packer × Nat))
  lin : SMap LinRun
  linLast : SMap (List Byte)
  fv : SMap Nat
  blocked : List Nat
  lastSeq : SMap Nat
  heardAt : SMap Nat
  ethSeq : SMap Nat
  tunnelIn : List Nat
  fvSaves : SMap FvSave
  savedAt : Nat
deriving DecidableEq, Repr

/-- A keep-awake match (R276, R278): the identity, the channel or port it was received on, the ID_KIND and
NID_OFFSET of its filter, and when. -/
structure NetHit where
  ident : Nat
  source : Nat
  kind : Nat
  nid : Nat
  hitAt : Nat
deriving DecidableEq, Repr

/-- Networks, descent and wake (chapter 11) beyond their registers: by network the matches of the last
NM_TIMEOUT newest first, the last match of any kind, the start of its awake episode, and the identities logged
when it was suppressed; the descent request; the tempo of the phase's start; the event a descent is to abort
for (its instant, cause and source); the wake latch; whether decoders and detectors are armed, with the WAKE
globals and the selective-wake entries by channel in force for them, and the entries of the last power-state
transition; frames captured by decoders and their error
counters; ports asked for and in TC10 sleep; WAKE pins at their active level; the WAKE_CHECK tags of R415; the
instants of entering sleep, of the wake event, of the last cutoff and of the Parked timer; an uncorrectable word
met in Moored; and an excursion in progress. -/
structure WakeSt where
  hits : SMap (List NetHit)
  seen : SMap Nat
  awakeSince : SMap Nat
  suppressed : SMap (List NetHit)
  requested : Bool
  reqParked : Bool
  reqForce : Bool
  phaseTempo : Nat
  abortFor : Option (Nat × Nat × Nat)
  latch : Bool
  armed : Bool
  globals : List Byte
  decoders : SMap (List Byte)
  sleepDecoders : SMap (List Byte)
  captured : SMap BusMsg
  decoderErr : SMap Nat
  tc10Asked : List Nat
  tc10Asleep : List Nat
  pinsActive : List Nat
  tags : List (List Byte)
  sleptAt : Nat
  wokeAt : Nat
  cutoffAt : Nat
  parkAt : Option Nat
  retentionBad : Bool
  excursion : Bool
deriving DecidableEq, Repr

/-- Counters (chapter 15) beyond their registers: when a freeze was first requested and when each central reader copy was, the
frozen copies of the register fields and of the accumulators, the counter page with its generation, the records of
the dump being written with their ring and the dumps skipped before it, dumps skipped since the last delivered one, the
boundary last judged for a dump, and the level of each core event when it was last sampled, under core * 16 + event
(R383). -/
structure CntSt where
  snapAt : Option Nat
  crAt : List Nat
  frzRegs : SMap Nat
  frzAccum : SMap Nat
  page : Mem
  pageGen : Nat
  dump : List (List Byte)
  dumpRing : Nat
  dumpMissed : Nat
  missed : Nat
  dumpAt : Option Nat
  evLevel : SMap Nat
deriving DecidableEq, Repr

/-- Ports to the outside: the last completed access of each master, the high words captured by low-word reads (R9), the
AER uncorrectable error status of the PCIe function (R321), what left the device, the master granted last by each block
of the control space (R448), and the events of the cores since their counters last sampled them, under core * 16 + event
(R383). -/
structure IoSt where
  resp : SMap Resp
  capture : SMap Nat
  aer : Nat
  out : List Out
  granted : SMap Nat
  pulse : SMap Nat
deriving DecidableEq, Repr

/-- The whole state of the block. `pending` is the queue of waiting commands, first in first out.
`regs` holds the register fields that differ from their Reset values, under their numbers in the
register map; `accum` the 64-bit accumulators behind the counters (R374). `freeCtr` is the model's own
field: it numbers the values the manual leaves open, so that each is fresh. -/
structure State where
  pending : List Instr
  regs : SMap Nat
  accum : SMap Nat
  time : TimeSt
  jobs : JobSt
  env : EnvSt
  fault : FaultSt
  intc : IntSt
  host : HostSt
  cpu : CpuSt
  mem : MemSt
  cont : ContSt
  boot : BootSt
  img : ImgSt
  vault : VaultSt
  otp : OtpSt
  sheet : SheetSt
  net : NetSt
  tm : TmSt
  edge : EdgeSt
  wake : WakeSt
  cnt : CntSt
  io : IoSt
  freeCtr : Nat
deriving DecidableEq, Repr

/-- The machine before VBAT becomes valid: Off (R274). Registers hold their Reset values, nothing is listed in any
memory or table, and every pin is as the manual leaves it without supply. Values the manual gives no reset for are
named in the assumption log.
[DESIGN CHOICE, log 3; DESIGN CHOICE, log 4; DESIGN CHOICE, log 10; DESIGN CHOICE, log 11] -/
def State.reset : State :=
  { pending := []
    regs := []
    accum := []
    time :=
      { now := 0, wc := ⟨0, 0, 0, 0, false, none⟩, gt := ⟨0, 0, 0, 0, false, none⟩, tempoLocal := 0, tempoMark := 0,
        realign := false, ppsCand := none, ppsLast := none, ppsOutUntil := none,
        ppsOutHigh := false, gtSetAt := 0, syncSent := [] }
    jobs := { queue := [], running := [], startedAt := [], budget := [], order := 0 }
    env :=
      { loaded := false, items := [], staged := [], latches := [], drainStart := [], commitOwner := 0,
        commitAt := 0, waitStart := 0, t0 := 0, prepFail := none,
        prepDone := false, entryDone := false, handover := false, sealed := [], structural := [], policy := [], cmt := [],
        touched := [] }
    fault := { recs := [], ovfDue := none, ovfTempo := 0, toJournal := false }
    intc := { claimedBy := [], lowAtClaim := [], cleared := [], fell := [], armed := false, pendRoute := [] }
    host :=
      { deviceId := 0x6B25, vendorId := 0, subVendorId := 0, subsystemId := 0, maxPayload := 128, maxReadReq := 512,
        revision := 0x11, classCode := 0x020000, perstN := false, msixEn := false, msixTab := [],
        msixMask := List.range 80, msixPend := [], pmeEn := false, pmeStatus := false, peWakeAt := none, d3cold := false,
        semSince := [], ledger := [], posted := [], openReads := [], semWait := [], retry := [], rings := [],
        fetching := none, fetchRetry := none, wrrRing := 32, wrrLeft := 0, lastErr := false }
    cpu :=
      { spHeld := false, halted := [], heldAt := [], injected := false, spWindow := false, replay := [],
        lastBankGrant := [], badWords := [], wipeUntil := 0, coreRegs := [], tapInstr := 1, boundaryScan := 0,
        dbgStatus := 0, dbgData := 0, dbgAt := none }
    mem := { bankS := [], bankG := [], bankH := [], bankT := [], flashA := [], flashB := [] }
    cont :=
      { since := [], kept := [], latch0 := [], pinLow := false, fellAt := 0, roseAt := 0, pinLatched := false,
        relAt := [], faultOpen := [] }
    boot :=
      { phase := .off, phaseAt := 0, cause := 0, resetPin := false, thermalHeld := false, straps := ⟨0, true⟩,
        slotB := false, passes := [], calDone := false, spArea := 0, gcArea := 0, lcPend := none }
    img :=
      { op := none, spoiled := [], castAt := 0, loaded := false, failDue := none, spReady := false, windowAt := 0,
        recoverDue := false, rom := none, romVerified := [],
        vkSeen := 0, carried := none, abandonAt := none }
    vault :=
      { slots := [], gen := [], held := [], imported := [], revoked := [], badBlocks := [], revPend := [], mcj := [],
        lastRemask := 0, tamperPower := 0, tamperUnreported := false, entropyUnreported := false, drbg := ⟨0, 0, 0⟩,
        copies := [], suspCores := [] }
    otp := { lc := 0, vkProg := 15, vkRevoked := 0, rootCust := true, anchors := [] }
    sheet := { entries := [], oldest := 0, next := 0, nextSeq := 0, headHash := [], lost := 0, reading := false }
    net :=
      { packets := [], nextUid := 0, queues := [], recirc := [], macs := [], avg := [], sharedUsed := 0,
        mgmtUsed := 0, guarUsed := [], learned := [], static := [], convs := [], frags := [],
        convFlushing := false, probing := none, slotUsed := 0, lastServed := 50, selftestTempo := none,
        partnerSig := [], trainedAs := [], linkSince := [], verifySent := [], verifyAt := [], frameNo := [],
        formerSa := [], mib := [], leafTx := [] }
    tm := { leafTok := [], portTok := [], fprev := [], vtime := [], meters := [], gates := [], octets := [], flowAt := [] }
    edge :=
      { rxList := [], txq := [], joined := [], offered := [], again := [], rate := [], secJobs := [], packers := [],
        packed := [], lin := [], linLast := [], fv := [], blocked := [], lastSeq := [], heardAt := [], ethSeq := [],
        tunnelIn := [], fvSaves := [], savedAt := 0 }
    wake :=
      { hits := [], seen := [], awakeSince := [], suppressed := [], requested := false, reqParked := false,
        reqForce := false, phaseTempo := 0, abortFor := none, latch := false, armed := false, globals := [],
        decoders := [], sleepDecoders := [], captured := [], decoderErr := [], tc10Asked := [], tc10Asleep := [], pinsActive := [],
        tags := [], sleptAt := 0, wokeAt := 0, cutoffAt := 0, parkAt := none, retentionBad := false,
        excursion := false }
    cnt :=
      { snapAt := none, crAt := [], frzRegs := [], frzAccum := [], page := [], pageGen := 0, dump := [], dumpRing := 0,
        dumpMissed := 0, missed := 0, dumpAt := none, evLevel := [] }
    io := { resp := [], capture := [], aer := 0, out := [], granted := [], pulse := [] }
    freeCtr := 0 }

end Sys2Proof.Machine
end

