-- ==== Sys2Proof/Machine/Ops.lean ====
section
/-!
DEFINITION. The named operations every meaning is written with: register fields and counters, epoch
slots and policy records, time, firmware jobs and scoresheet appends, interrupt sources, the
posted-error ledger, containment activation, fault recording, and the checks of a control-space access.
-/
namespace Sys2Proof.Machine

/-! Register fields. -/

/-- The value a stored register field holds; unlisted fields hold their Reset value (R12). -/
def get (s : State) (f : Fld) : Nat := (s.regs.find f.key).getD f.reset

/-- The register store with a field set, its value cut to the field's width. -/
def putRegs (m : SMap Nat) (f : Fld) (v : Nat) : SMap Nat :=
  if v % 2 ^ f.width = f.reset then m.del f.key else m.set f.key (v % 2 ^ f.width)

/-- A register field set. -/
def put (s : State) (f : Fld) (v : Nat) : State := { s with regs := putRegs s.regs f v }

/-- A one-bit field as a truth value. -/
def flag (s : State) (f : Fld) : Bool := get s f != 0

/-- A one-bit field set from a truth value. -/
def putFlag (s : State) (f : Fld) (b : Bool) : State := put s f (b2n b)

/-- A counter raised by `n`: the field saturates at its width, the 64-bit accumulator behind it does
not (R374). [DESIGN CHOICE, log 24] -/
def bumpBy (s : State) (f : Fld) (n : Nat) : State :=
  let s1 := put s f (min (2 ^ f.width - 1) (get s f + n))
  { s1 with accum := s1.accum.set f.key (((s1.accum.find f.key).getD 0 + n) % 2 ^ 64) }

/-- A counter raised by one. -/
def bump (s : State) (f : Fld) : State := bumpBy s f 1

/-- The accumulator behind a counter field (R374). [DESIGN CHOICE, log 24] -/
def accumOf (s : State) (f : Fld) : Nat := (s.accum.find f.key).getD 0

/-- A high-water field raised to at least `v`, within its width. -/
def raiseTo (s : State) (f : Fld) (v : Nat) : State :=
  if get s f < v then put s f (min (2 ^ f.width - 1) v) else s

/-- A fresh free value, below a bound. [DESIGN CHOICE, log 4; DESIGN CHOICE, log 5] -/
def draw (s : State) (bound : Nat) : Nat × State :=
  (Config.free s.freeCtr % bound, { s with freeCtr := s.freeCtr + 1 })

/-! Epoch slots, CMT fields and policy records. -/

/-- The current epoch slot (R60). -/
def curSlot (s : State) : Nat := get s Reg.epochStatusCur

/-- State of an epoch slot: 0 FREE, 1 BUILDING, 2 CURRENT, 3 DRAINING. -/
def slotState (s : State) (i : Nat) : Nat := bitsAt (get s Reg.epochStatusSlotSt) (2 * i) 2

/-- An epoch slot's state set. -/
def setSlotState (s : State) (i v : Nat) : State :=
  put s Reg.epochStatusSlotSt (setBits (get s Reg.epochStatusSlotSt) (2 * i) 2 v)

/-- The number a CMT field's value of a slot is stored under. -/
def slotKey (slot : Nat) (f : Fld) : Nat := f.key * 4 + slot

/-- A CMT field's value in an epoch slot (R63). -/
def cmtOf (s : State) (slot : Nat) (f : Fld) : Nat := (s.env.cmt.find (slotKey slot f)).getD f.reset

/-- A CMT field's value in an epoch slot set. -/
def putCmt (s : State) (slot : Nat) (f : Fld) (v : Nat) : State :=
  let k := slotKey slot f
  let m := if v % 2 ^ f.width = f.reset then s.env.cmt.del k else s.env.cmt.set k (v % 2 ^ f.width)
  { s with env.cmt := m }

/-- A CMT field's value in the current slot. -/
def cur (s : State) (f : Fld) : Nat := cmtOf s (curSlot s) f

/-- The number a policy record is stored under: slot, section type and INDEX. [DESIGN CHOICE, log 45] -/
def recKey (slot sect index : Nat) : Nat := (slot * 2 ^ 16 + sect) * 2 ^ 32 + index

/-- A policy record of a slot: its body as stored. [DESIGN CHOICE, log 45] -/
def recOf (s : State) (slot sect index : Nat) : Option (List Byte) := s.env.policy.find (recKey slot sect index)

/-- The records of a section in a slot, with their indices, in index order. -/
def recsOf (s : State) (slot sect : Nat) : List (Nat × List Byte) :=
  s.env.policy.filterMap fun e =>
    if e.1 / 2 ^ 32 = slot * 2 ^ 16 + sect then some (e.1 % 2 ^ 32, e.2) else none

/-- A structural section's body in force. -/
def structOf (s : State) (code : Nat) : List Byte := (s.env.structural.find code).getD []

/-! Where the device stands. -/

/-- Forwarding is on: READY has been asserted and no point of no return has passed (R401, R409). -/
def aloft (s : State) : Bool := s.boot.phase == .aloft

/-- The switch die is powered and out of reset. -/
def dieRuns (s : State) : Bool :=
  match s.boot.phase with
  | .off => false
  | .rising => false
  | .inReset => false
  | .cutoff => false
  | .moored => false
  | .parked => false
  | .wakeRising => false
  | _ => true

/-- The life-cycle state: 0 MANUFACTURE, 1 PROVISIONED, 2 FIELD, 3 RETURN, 4 SCRAPPED. -/
def lifeCycle (s : State) : Nat := s.otp.lc

/-! Time. -/

/-- A domain's time at a local-clock instant: rate, then the part of the offset slewed away so far at
`ppm` parts per million (R32, R34, R35). [DESIGN CHOICE, log 38] -/
def domAt (d : DomSt) (ppm : Nat) (t : Nat) : Int :=
  let dt : Int := (t : Int) - d.anchorLocal
  let most : Int := if dt < 0 then 0 else dt * ppm / 1000000
  d.anchorTime + dt + dt * d.rate / 1000000000 + clampInt (-most) most d.slew

/-- The working clock now, in ns. -/
def wcNow (s : State) : Int := domAt s.time.wc 50 s.time.now

/-- Global time now, in ns. -/
def gtNow (s : State) : Int := domAt s.time.gt 100 s.time.now

/-- Global time at a local instant. -/
def gtAt (s : State) (t : Nat) : Int := domAt s.time.gt 100 t

/-- The tempo period in ns: 31.25 us * 2^k (R39). -/
def period (s : State) : Nat := 31250 * 2 ^ get s Reg.tempoCfgK

/-- The tempo number (R41). -/
def tempoNo (s : State) : Nat := get s Reg.tempoNum

/-- The multiple of the period that is not below a working-clock time. -/
def nextMultiple (p w : Int) : Int := if w % p = 0 then w else w + (p - w % p)

/-- The working-clock time of the boundary that ends the tempo in progress (R39, R40): one period after it began, or
after a step the first multiple met once a full period has elapsed on the local clock. [DEDUCED, log 42] -/
def nextMark (s : State) : Int :=
  if s.time.realign then
    nextMultiple (period s) (domAt s.time.wc 50 (max (s.time.tempoLocal + period s) s.time.wc.anchorLocal))
  else s.time.tempoMark + period s

/-- Is a domain locked, as TB_STATUS shows it? -/
def lockedFld : Domain → Fld
  | .wc => Reg.tbStatusWcLocked
  | .gt => Reg.tbStatusGtLocked

/-- The grandmaster bit of a domain. -/
def gmFld : Domain → Fld
  | .wc => Reg.tbStatusWcGm
  | .gt => Reg.tbStatusGtGm

/-- The holdover bit of a domain. -/
def holdoverFld : Domain → Fld
  | .wc => Reg.tbStatusWcHoldover
  | .gt => Reg.tbStatusGtHoldover

/-- A domain's state. -/
def domOf (s : State) : Domain → DomSt
  | .wc => s.time.wc
  | .gt => s.time.gt

/-- A domain's state set. -/
def setDom (s : State) (d : Domain) (x : DomSt) : State :=
  match d with
  | .wc => { s with time.wc := x }
  | .gt => { s with time.gt := x }

/-! Outputs and answers. -/

/-- Something left the device. [DESIGN CHOICE, log 12] -/
def emit (s : State) (o : Out) : State := { s with io.out := o :: s.io.out }

/-- The number of a master or originator. -/
def mcode : Master → Nat
  | .sp => 0
  | .gc c => c.val + 1
  | .host => 5
  | .spi => 6
  | .dbg => 9

/-- A master coded as CONFLICT[m] (R320, R455): HB covers the PCIe host and the SPI port. -/
def conflictCode : Master → Nat
  | .sp => 0
  | .gc c => c.val + 1
  | .host => 5
  | .spi => 5
  | .dbg => 9

/-- The bits an answer to a request of the host sets in the AER Uncorrectable Error Status (PCI Express 4.0): bit 20
Unsupported Request, bit 15 Completer Abort. [PRESUMED, log 137] -/
def aerBits (m : Master) (r : Resp) : Nat :=
  match m, r with
  | .host, .unsupportedRequest => 2 ^ 20
  | .host, .completerAbort => 2 ^ 15
  | _, _ => 0

/-- An event of a core in this cycle, for its counters (R383); `n` is core * 16 + event. Masters from 5 on are no
cores. [DESIGN CHOICE, log 118] -/
def pulse (s : State) (n k : Nat) : State :=
  if n < 80 then { s with io.pulse := s.io.pulse.set n ((s.io.pulse.find n).getD 0 + k) } else s

/-- A bus error answered to a core is an event of it (R383). -/
def noteBusError (s : State) (code : Nat) (r : Resp) : State := if r = .busError then pulse s (code * 16 + 12) 1 else s

/-- The outcome and data of a DBG_ACCESS request, as the next Capture-DR returns them (R350): one that is not answered is
an error. -/
def dbgResult : Resp → Nat × Nat
  | .dbg st d => (st, d)
  | .data v => (0, v)
  | .done => (0, 0)
  | _ => (3, 0)

/-- The answer to a master's access. For the debug port it is also the outcome that the next Capture-DR returns once the
request has ended (R350). [DESIGN CHOICE, log 12] -/
def answer (s : State) (m : Master) (r : Resp) : State :=
  let s1 := noteBusError { s with io.resp := s.io.resp.set (mcode m) r, io.aer := s.io.aer ||| aerBits m r } (mcode m) r
  match m with
  | .dbg => { s1 with cpu.dbgStatus := (dbgResult r).1, cpu.dbgData := (dbgResult r).2, cpu.dbgAt := some s1.time.now }
  | _ => s1

/-- Is the last DBG_ACCESS request still in progress, so that the outcome is BUSY and a request shifted in is ignored
(R350)? How long one takes is not stated. [DEDUCED, log 29] -/
def dbgBusy (s : State) : Bool := s.cpu.dbgAt.any fun t => decide (s.time.now < t + Config.dbgTime t)

/-! Firmware jobs and the scoresheet. -/

/-- Is this the tempo that ends at the flip of a castling: is its handover commit armed for the next boundary (R393)? -/
def handoverTempo (s : State) : Bool :=
  get s Reg.imgStatusPhase == 4 && get s Reg.commitStatusState == 4 && decide (s.env.t0 ≤ tempoNo s + 1)

/-- The core that runs a job while a castling is in progress (R392): from LOAD to HANDOVER the old firmware has GC[0]
and GC[1] alone, in OWNED the new firmware has GC[2] and GC[3], to whose queue the jobs of the tempo before go already (R393).
[DEDUCED, log 111] -/
def activeCore (s : State) (core : Nat) : Nat :=
  let ph := get s Reg.imgStatusPhase
  if handoverTempo s then (if core = 1 then 3 else if core = 2 then 4 else core)
  else if 2 ≤ ph ∧ ph ≤ 4 then (if core = 3 then 1 else if core = 4 then 2 else core)
  else if ph = 5 then (if core = 1 then 3 else if core = 2 then 4 else core)
  else core

/-- A job queued behind the others of one core (R47). -/
def enqueueOn (s : State) (core : Nat) (kind : JobKind) (cost : Nat) : State :=
  { s with jobs.queue := s.jobs.queue ++ [⟨core, kind, cost, 0, s.jobs.order, none⟩]
           jobs.order := s.jobs.order + 1 }

/-- A job queued for the core that runs jobs of the one it names. -/
def enqueueJob (s : State) (core : Nat) (kind : JobKind) (cost : Nat) : State :=
  enqueueOn s (activeCore s core) kind cost

/-- Budget of a core in a tempo, in ns (R46). -/
def coreBudget (s : State) (core : Nat) : Nat :=
  (if core = 0 then get s Reg.tempoBudgetSpFrac else get s Reg.tempoBudgetGcFrac) * period s / 256

/-- The general core firmware gives a job to: the lowest-numbered one that is not held (R298). [DEDUCED, log 120] -/
def someGc (s : State) : Nat :=
  ((List.range 4).find? fun c => !(bitAt (get s Reg.coreCtlHeld) c)).getD 0 + 1

/-- An event that is not journaled is counted (R266, R271). -/
def sheetLose (s : State) : State :=
  { bump s Reg.sbStatsLost with sheet.lost := s.sheet.lost + 1 }

/-- Is a cost bound more than the whole budget of its core, once jobs are budgeted (R41, R48)? -/
def tooLarge (s : State) (core cost : Nat) : Bool := aloft s && decide (coreBudget s core < cost)

/-- Size of what a job works on, in bytes, for its cost bound: the body of an entry, or the staged items of a commit in
preparation. -/
def jobSize (s : State) (kind : JobKind) : Nat :=
  match kind with
  | .sbAppend _ body => body.length
  | .sbSeal _ body => body.length
  | .prepare => (s.env.items.map fun it => it.len).sum
  | _ => 0

/-- The bound firmware computes for a job of its own. [DEDUCED, log 120] -/
def jobBound (s : State) (kind : JobKind) : Nat := Config.jobCost kind (jobSize s kind)

/-- A job that was rejected as too large (R48): the event of an entry that cannot be appended is counted as lost.
[DEDUCED, log 120] -/
def jobRejected (s : State) (kind : JobKind) : State :=
  match kind with
  | .sbAppend _ _ => sheetLose s
  | .sbSeal _ _ => sheetLose s
  | _ => s

/-- A job firmware requests of itself on a core: rejected where its bound exceeds the core's whole budget (R48).
[DEDUCED, log 120] -/
def requestOn (s : State) (core : Nat) (kind : JobKind) : State :=
  if tooLarge s core (jobBound s kind) then jobRejected s kind else enqueueJob s core kind (jobBound s kind)

/-- A job firmware requests of itself on the general cluster. -/
def requestGc (s : State) (kind : JobKind) : State := requestOn s (someGc s) kind

/-- A job firmware requests of itself on the safety pair. -/
def requestSp (s : State) (kind : JobKind) : State := requestOn s 0 kind

/-- An event's scoresheet entry is requested; the event never waits for it (R267). -/
def journal (s : State) (type : Nat) (body : List Byte) : State :=
  requestGc s (.sbAppend type body)

/-! Interrupt sources. -/

/-- Is P48 UP (R324)? -/
def p48Up (s : State) : Bool := flag s Reg.hbStatusP48Up

/-- The link leaves L1 or one of its substates for something to be sent. [DESIGN CHOICE, log 116] -/
def leaveL1 (s : State) : State := if get s Reg.hbStatusAspm = 0 then s else put s Reg.hbStatusAspm 0

/-- The link leaves L1 or one of its substates to send an interrupt, which counts (R341). [DESIGN CHOICE, log 116] -/
def exitL1 (s : State) : State := if get s Reg.hbStatusAspm = 0 then s else bump (leaveL1 s) Reg.brRetriesL1Exits

/-- PE_WAKE_N asserted (R343, R291). -/
def assertPeWake (s : State) : State :=
  { put s Reg.hbStatusPeWake 1 with host.peWakeAt := some s.time.now }

/-- A vector falls due (R340 to R343, R359): sent when it is not masked and P48 is UP, otherwise its
pending bit is set; D3hot sends PM_PME, once until the host clears PME_Status, D3cold asserts PE_WAKE_N.
[DEDUCED, log 114] -/
def vectorDue (s : State) (v : Nat) : State :=
  if !s.host.msixEn ∧ !s.host.d3cold ∧ get s Reg.hbStatusDstate = 0 then
    { s with host.msixPend := if s.host.msixPend.contains v then s.host.msixPend else v :: s.host.msixPend }
  else if p48Up s ∧ !(s.host.msixMask.contains v) then emit (exitL1 s) (.vector v)
  else
    let s1 := { s with host.msixPend :=
      if s.host.msixPend.contains v then s.host.msixPend else v :: s.host.msixPend }
    if s.host.d3cold then (if s.host.pmeEn then assertPeWake s1 else s1)
    else if get s Reg.hbStatusDstate = 3 ∧ s.host.pmeEn ∧ !s.host.pmeStatus then
      emit { s1 with host.pmeStatus := true } .pme
    else s1

/-- State of an interrupt source: 0 inactive, 1 pending, 2 active, 3 active-and-pending (R357). -/
def srcState (s : State) (n : Nat) : Nat := get s (Reg.srcCfgState n)

/-- Target of a source in the current slot; fixed sources keep their routing (R355, R356). [DEDUCED, log 141] -/
def srcTarget (s : State) (n : Nat) : Nat :=
  if srcFixed n then srcTargetReset n else cur s (Reg.srcCfgTarget n)

/-- Class of a source: 0 normal, 1 fast. [DEDUCED, log 141] -/
def srcClass (s : State) (n : Nat) : Nat :=
  if srcFixed n then srcClassReset n else cur s (Reg.srcCfgClass n)

/-- Event vector of a source for the host target. -/
def srcVector (s : State) (n : Nat) : Nat :=
  64 + (if srcFixed n then srcVectorReset n else cur s (Reg.srcCfgVector n))

/-- Is the source enabled? A fixed source always is (R356). -/
def srcEn (s : State) (n : Nat) : Bool := srcFixed n || flag s (Reg.srcCfgEn n)

/-- The class a pending source has: that of its last transition to pending, which a commit does not change (R356).
[DEDUCED, log 141] -/
def pendClass (s : State) (n : Nat) : Nat := ((s.intc.pendRoute.find n).map fun r => r.1).getD (srcClass s n)

/-- The event vector a pending source has: that of its last transition to pending or of its move to the host (R356).
[DEDUCED, log 141] -/
def pendVector (s : State) (n : Nat) : Nat := ((s.intc.pendRoute.find n).map fun r => r.2).getD (srcVector s n)

/-- May a core be interrupted in a class (R358): by a fast source while no fast one is active there, by a normal one
while none is? The safety pair is core 0. -/
def coreMay (s : State) (core : Nat) (fast : Bool) : Bool :=
  !(s.intc.claimedBy.any fun e => if fast then e.2 == core * 2 + 1 else e.2 / 2 == core)

/-- A core's interruption by a pending source of its own (R358). [DEDUCED, log 141] -/
def interruptCore (s : State) (core cls : Nat) : State :=
  if coreMay s core (cls == 1) then emit s (.coreInterrupt core (cls == 1)) else s

/-- A source that became pending is delivered: a host target sends its event vector (R359); a processor
target is interrupted as R358 allows. -/
def deliver (s : State) (n : Nat) : State :=
  if !srcEn s n then s
  else if srcTarget s n = 5 then vectorDue s (pendVector s n)
  else if srcTarget s n < 5 then interruptCore s (srcTarget s n) (pendClass s n)
  else s

/-- A source's transition to pending: its routing is now the one committed (R356). [DEDUCED, log 141] -/
def becomePending (s : State) (n st : Nat) : State :=
  { put s (Reg.srcCfgState n) st with intc.pendRoute := s.intc.pendRoute.set n (srcClass s n, srcVector s n) }

/-- A source is raised (R357). A not-used source never becomes pending (R355). -/
def raiseSource (s : State) (n : Nat) : State :=
  if !srcUsed n then s
  else match srcState s n with
    | 0 => deliver (becomePending s n 1) n
    | 2 => put s (Reg.srcCfgState n) 3
    | _ => s

/-- The relay of a level source sees its level (R361): a rising level raises the source; a falling one
is remembered for the claim in hand. -/
def setLevel (s : State) (n : Nat) (high : Bool) : State :=
  let was := flag s (Reg.srcCfgLevel n)
  let s1 := putFlag s (Reg.srcCfgLevel n) high
  if high ∧ !was then raiseSource s1 n
  else if !high ∧ was ∧ srcState s n ≥ 2 then { s1 with intc.fell := n :: s1.intc.fell }
  else s1

/-- Bits [7:0] of TB_STATUS, whose changes raise source 18 (R355). -/
def tbLow (s : State) : Nat :=
  b2n (flag s Reg.tbStatusWcLocked) + 2 * b2n (flag s Reg.tbStatusGtLocked) +
  4 * b2n (flag s Reg.tbStatusWcGm) + 8 * b2n (flag s Reg.tbStatusGtGm) +
  16 * b2n (flag s Reg.tbStatusWcHoldover) + 32 * b2n (flag s Reg.tbStatusGtHoldover) +
  64 * b2n (flag s Reg.tbStatusPpsInValid) + 128 * b2n (flag s Reg.tbStatusGtSetPend)

/-- Source 18 raised when any bit of TB_STATUS [7:0] differs from what it was. -/
def noteTb (before after : State) : State :=
  if tbLow before = tbLow after then after else raiseSource after 18

/-! The posted-error ledger. -/

/-- Originator codes of the ledger and the semaphores (R334, R353): 1 PCIe host, 2 SPI, 3 + c GC[c]. -/
def origin : Master → Nat
  | .host => 1
  | .spi => 2
  | .gc c => 3 + c.val
  | _ => 0

/-- The posted-error source of an originator (R355). -/
def ledgerSource (org : Nat) : Nat := if org = 1 then 24 else if org = 2 then 25 else 23 + org

/-- A failed posted write (R334): entered while fewer than 64 entries are held, otherwise counted; its
event is raised either way. The ledger records nothing before READY. -/
def ledgerAdd (s : State) (org addr code space : Nat) : State :=
  if !aloft s then s
  else
    let s1 :=
      if s.host.ledger.length < 64 then
        { s with host.ledger := s.host.ledger ++ [⟨addr, code, org, space, tempoNo s % 2 ^ 16⟩] }
      else bump s Reg.ledgerOvf
    raiseSource s1 (ledgerSource org)

/-! Containment activation. -/

/-- The built-in profile 0 (R177): VALID, HOLD 0, every external port and channel SAFETY_ONLY, P48 and
P49 MGMT_ONLY. -/
def defaultProfile0 : List Byte :=
  [0, 1, 0, 0, 0, 0, 0, 0] ++ List.replicate 12 0x55 ++ [0x0A] ++ zeros 3 ++ List.replicate 64 0x55 ++ zeros 8

/-- The record of a containment profile in a slot, if the slot has it VALID (R176, R177). -/
def profileRec (s : State) (slot p : Nat) : Option (List Byte) :=
  match recOf s slot 0x0150 p with
  | some b => if bitAt (u8 b 1) 0 then some b else none
  | none => if p = 0 then some defaultProfile0 else none

/-- Is a profile active (R166)? -/
def profileActive (s : State) (p : Nat) : Bool := bitAt (get s Reg.contStatusActive) p

/-- A profile is activated with a cause (R169, R171): causes are bits of CONT_CAUSE, 0 RIPCORD_N,
1 fault, 2 SP, 3 HB, 4 GC or DBG. An entry is appended when the profile becomes active or gains the
cause. `master` is the master byte of R455. -/
def contActivate (s : State) (p cause master : Nat) : State :=
  let f := Reg.contCauseCause p
  let was := profileActive s p
  let had := was ∧ bitAt (get s f) cause
  let s1 := bump s (Reg.contCauseActivations p)
  let s2 :=
    if was then s1
    else
      { put s1 Reg.contStatusActive (get s1 Reg.contStatusActive ||| 2 ^ p) with
        cont.since := s1.cont.since.set p (tempoNo s1)
        cont.kept := s1.cont.kept.put p (profileRec s1 (curSlot s1) p) }
  let s3 := put s2 f ((if was then get s2 f else 0) ||| 2 ^ cause)
  if had then s3 else journal s3 0x0030 (leBytes 1 p ++ leBytes 1 cause ++ leBytes 1 master)

/-! The phase of descent (R279). -/

/-- PWR_STATUS.PHASE: 0 ALOFT, 1 NOTIFY, 2 DRAIN, 3 LINKS, 4 SAVE, 5 WAKING. -/
def descentPhase (s : State) : Nat := get s Reg.pwrStatusPhase

/-- A descent is in progress before its point of no return. -/
def descending (s : State) : Bool := 1 ≤ descentPhase s && descentPhase s ≤ 4

/-- The event that a descent in progress is to abort for: the first one stands. Causes as ABORT_INFO codes them.
[DEDUCED, log 101] -/
def requestAbort (s : State) (cause source : Nat) : State :=
  if descending s ∧ s.wake.abortFor.isNone then { s with wake.abortFor := some (s.time.now, cause, source) } else s

/-! The fault collector. -/

/-- Default severity of a fault code (R364): 0 INFO, 1 RECOVERABLE, 2 CONTAIN, 3 SAFE_STATE. -/
def defaultSev (code : Nat) : Nat :=
  if code ∈ [0x0001, 0x0002, 0x0003, 0x0004, 0x0010] then 3
  else if code ∈ [0x0005, 0x0011, 0x0013, 0x0020, 0x0021, 0x0031] then 2
  else if code ∈ [0x0014, 0x0015] then 0
  else 1

/-- Fault codes of R364. -/
def faultCodes : List Nat :=
  [0x0001, 0x0002, 0x0003, 0x0004, 0x0005, 0x0010, 0x0011, 0x0012, 0x0013, 0x0014, 0x0015, 0x0020,
   0x0021, 0x0022, 0x0030, 0x0031, 0x0032, 0x0033, 0x0034]

/-- Codes whose severity is fixed (R364). -/
def fixedSev (code : Nat) : Bool := code ∈ [0x0001, 0x0002, 0x0003, 0x0004, 0x0010]

/-- Severity, profile (0xFF none) and deadline of a fault under the FAULT section of the current slot
(R370, R371). -/
def faultPolicy (s : State) (code : Nat) : Nat × Nat × Nat :=
  if fixedSev code then (3, 0xFF, 0)
  else match recOf s (curSlot s) 0x0800 (2 ^ 24 + code) with
    | some b => (u8 b 0, u8 b 1, u8 b 2)
    | none => (defaultSev code, 0xFF, 8)

/-- SAFE_PROFILE and FAULTN_LEVEL of the current slot (R370, R371). -/
def faultGlobals (s : State) : Nat × Nat :=
  match recOf s (curSlot s) 0x0800 0 with
  | some b => (u8 b 0, u8 b 1)
  | none => (0, 2)

/-- FAULT_N as R369 gives it from READY on. -/
def refreshFaultN (s : State) : State :=
  if !aloft s then s
  else
    let lvl := (faultGlobals s).2
    let on := flag s Reg.fcStatusSafeState || (s.fault.recs.any fun r => lvl ≤ r.sev) ||
      (get s Reg.fcStatusOverflow != 0 && lvl ≤ get s Reg.fcStatusMaxSevOvf)
    putFlag s Reg.fcStatusFaultN on

/-- The record whose acknowledgement a profile's fault cause waits for (R172): unit 0xFFFF stands for
SAFE_STATE, and a unit from 65536 on for a fault that overflowed the records. -/
def holdFault (s : State) (p code unit : Nat) : State :=
  { s with cont.faultOpen := s.cont.faultOpen.set p ((code, unit) :: (s.cont.faultOpen.find p).getD []) }

/-- SAFE_STATE is entered (R368): SAFE_PROFILE activated with cause fault, source 9 raised, FC_SAFE
loaded, FAULT_N asserted, and the FAULT_ESC entry requested. While it already holds, only the profile's
activation is repeated. [DEDUCED, log 78] -/
def enterSafe (s : State) (code : Nat) (byEsc : Bool) (fromSev firstTempo : Nat) : State :=
  if flag s Reg.fcStatusSafeState then
    holdFault (contActivate s (faultGlobals s).1 1 0xFF) (faultGlobals s).1 code 0xFFFF
  else
  let s1 := putFlag (put s Reg.fcSafeCode code) Reg.fcSafeByEsc byEsc
  let s2 := put s1 Reg.fcSafeTempo (tempoNo s % 2 ^ 32)
  let s3 := put (put s2 Reg.fcStatusSafeState 1) Reg.fcStatusFaultN 1
  let s4 := contActivate s3 (faultGlobals s3).1 1 0xFF
  let s5 := holdFault (raiseSource s4 9) (faultGlobals s3).1 code 0xFFFF
  if s5.cpu.spHeld then { s5 with fault.toJournal := true }
  else requestSp s5 (.sbSeal 0x0050
    (leBytes 2 code ++ leBytes 1 fromSev ++ leBytes 1 3 ++ leBytes 8 firstTempo))

/-- The reaction of a severity (R365). A fault of CONTAIN or higher aborts a descent in progress (R279). -/
def faultReact (s : State) (code unit sev profile : Nat) : State :=
  match sev with
  | 2 =>
    let s1 := requestAbort s 5 0
    if profile = 0xFF then s1 else holdFault (contActivate s1 profile 1 0xFF) profile code unit
  | 3 => enterSafe (requestAbort s 5 0) code false 3 (tempoNo s)
  | _ => s

/-- A repeat of a held record: its count, no new record, no source (R363 step 1). -/
def repeatRecord (code unit : Nat) (recs : List FaultRec) : List FaultRec :=
  recs.map fun r => if r.code = code ∧ r.unit = unit then { r with repeats := min 255 (r.repeats + 1) } else r

/-- Does an overflowed CONTAIN fault set OVF_DUE: none waits there, or its deadline is the earlier one (R363)? An
overflow that has escalated stays there until OVF_ACK. -/
def ovfSooner (s : State) (due : Nat) : Bool :=
  match s.fault.ovfDue with
  | some d => decide (due < d)
  | none => !flag s Reg.fcStatusOvfDueSet

/-- A fault is recorded, repeated or overflowed, and its reaction applied (R363, R365). -/
def recordFault (s : State) (code unit detail : Nat) : State :=
  match s.fault.recs.find? fun r => r.code = code ∧ r.unit = unit with
  | some r =>
    let s1 := { s with fault.recs := repeatRecord code unit s.fault.recs }
    refreshFaultN (faultReact s1 code unit r.sev r.profile)
  | none =>
    let (sev, prof, dl) := faultPolicy s code
    let s1 :=
      if s.fault.recs.length < 16 then
        bump { s with fault.recs := s.fault.recs ++
          [⟨code, sev, unit, tempoNo s, detail % 2 ^ 32, 0, if sev = 2 then dl else 0, prof⟩] }
          Reg.fcStatsRecorded
      else
        let s2 := put s Reg.fcStatusOverflow (min 65535 (get s Reg.fcStatusOverflow + 1))
        let s3 := put s2 Reg.fcStatusMaxSevOvf (max sev (get s2 Reg.fcStatusMaxSevOvf))
        let due := tempoNo s + dl
        if sev = 2 ∧ ovfSooner s3 due then
          let s4 := put (put s3 Reg.fcOvfCode code) Reg.fcOvfTempo (tempoNo s % 2 ^ 32)
          { put (put s4 Reg.fcOvfDue (due % 2 ^ 32)) Reg.fcStatusOvfDueSet 1 with
            fault.ovfDue := some due, fault.ovfTempo := tempoNo s }
        else s3
    let s5 := raiseSource (raiseSource s1 0) 8
    refreshFaultN (faultReact s5 code (if s.fault.recs.length < 16 then unit else unit + 65536) sev prof)

/-- Unit of a fault (R364): kind 0 none, 1 port, 2 channel, 3 master, 4 bank, 5 core. -/
def faultUnit (kind index : Nat) : Nat := kind * 4096 + index

/-! Checks of a control-space access (R447). -/

/-- The debug and test block (R445). -/
def inDebugBlock (a : Nat) : Bool := 0xF00000 ≤ a

/-- The fault collector block of the safety partition (R308). -/
def inFaultBlock (a : Nat) : Bool := 0xA0000 ≤ a && a ≤ 0xBFFFF

/-- Does the register at an offset hold a field that only the safety partition writes (R309)? -/
def holdsSp (a : Nat) : Bool := (fieldsAt 0 a).any fun e => e.1.ty == .sp

/-- Does an offset lie in the safety partition, its fault collector block or a register only it writes (R308, R309)? -/
def inPartition (a : Nat) : Bool := inFaultBlock a || holdsSp a

/-- What DBG_ACCESS may reach in each life-cycle state (R349). -/
def dbgReach (s : State) (a : Nat) (write : Bool) : Bool :=
  match lifeCycle s with
  | 0 => true
  | 1 => !write && (a ≤ 0x13 || inFaultBlock a)
  | 2 => !write && (a ≤ 0x13 || inFaultBlock a)
  | 3 => !inPartition a
  | _ => false

/-- Reach of a master (R446); the number is the ledger code of a refusal. -/
def reach (s : State) (m : Master) (a : Nat) (write : Bool) : Option Nat :=
  match m with
  | .sp => if inDebugBlock a then some 6 else none
  | .gc _ => if inDebugBlock a then some 6 else none
  | .host => if inDebugBlock a && !(lifeCycle s == 0 || lifeCycle s == 3) then some 6 else none
  | .spi =>
    if inDebugBlock a then some 6
    else if write && (match recOf s (curSlot s) 0x0700 0 with | some b => bitAt (u8 b 8) 1 | none => false)
    then some 9 else none
  | .dbg => if dbgReach s a write then none else some 6

/-- Only SP, and DBG in MANUFACTURE, writes the safety partition; nobody writes a reserved offset of the
fault collector block (R309, R310). -/
def partitionRefuses (s : State) (m : Master) (a : Nat) : Bool :=
  let may := match m with
    | .sp => true
    | .dbg => lifeCycle s == 0
    | _ => false
  (inFaultBlock a && reservedOffset a) || (inPartition a && !may)

/-- The first check of R447 that refuses a write, as a ledger code. [DEDUCED, log 35] -/
def writeRefusal (s : State) (m : Master) (a size : Nat) : Option Nat :=
  if size ≠ 4 ∨ a % 4 ≠ 0 then some 1
  else match reach s m a true with
    | some c => some c
    | none => if partitionRefuses s m a then some 2 else none

/-- The first check of R447 that refuses a read, as a ledger code. -/
def readRefusal (s : State) (m : Master) (a size : Nat) : Option Nat :=
  if size ≠ 4 ∨ a % 4 ≠ 0 then some 1 else reach s m a false

/-- How a refused write is reported to its master (R309, R334, R350). -/
def reportWrite (s : State) (m : Master) (a code : Nat) : State :=
  match m with
  | .sp => answer s m .busError
  | .gc _ => answer s m .busError
  | .host => ledgerAdd (answer s m (if aloft s then .done else .unsupportedRequest)) 1 a code 0
  | .spi => { ledgerAdd (answer s m .done) 2 a code 0 with host.lastErr := true }
  | .dbg => answer s m (.dbg (if code = 6 then 2 else 3) 0)

/-- How a refused read is reported to its master (R309, R335, R347, R350). -/
def reportRead (s : State) (m : Master) (code : Nat) : State :=
  match m with
  | .sp => answer s m .busError
  | .gc _ => answer s m .busError
  | .host => answer s m (if code = 1 then .unsupportedRequest else .completerAbort)
  | .spi => bump (answer s m (.errorSync code)) Reg.brSpiErrors
  | .dbg => answer s m (.dbg (if code = 6 then 2 else 3) 0)

/-- A refused write of the partition is logged and reported as a fault (R309, R310). -/
def guardViolation (s : State) (m : Master) (a : Nat) : State :=
  let s1 := bump s Reg.guardViol
  let s2 := put (put s1 Reg.guardLastOffset (a / 4)) Reg.guardLastMaster (conflictCode m)
  recordFault s2 0x0014 (faultUnit 3 (conflictCode m)) a

/-- A refused write, with its log and its report. -/
def refuseWrite (s : State) (m : Master) (a code : Nat) : State :=
  reportWrite (if code = 2 then guardViolation s m a else s) m a code

/-- Does a master's control-space write reach the device at all? Before READY the endpoint and the SPI
port refuse (R407, R408); recovery mode has its own mailbox (R397); in reset and without supply
nothing answers. -/
def writesAnswered (s : State) : Bool := aloft s

/-- Does a master issue accesses at all: the safety pair while it runs firmware (R304, R307, R395), a general core
while it is neither held nor halted (R306, R307) nor in reset for the LOAD of a castling (R392), the debug port while its
last request has ended (R350)? The host and the SPI port always may. [DEDUCED, log 30] -/
def masterRuns (s : State) (m : Master) : Bool :=
  match m with
  | .sp => !s.cpu.spHeld && get s Reg.imgStatusPhase != 6 && !s.cpu.halted.contains 0
  | .gc c => !bitAt (get s Reg.coreCtlHeld) c && !s.cpu.halted.contains (c.val + 1) &&
      !(get s Reg.imgStatusPhase == 2 && 2 ≤ c.val)
  | .dbg => !dbgBusy s
  | _ => true

/-- A DBG_ACCESS request that the control space does not answer yet: one that the life-cycle state forbids is REFUSED, any
other an ERROR (R350). -/
def dbgUnanswered (s : State) (a : Nat) (write : Bool) : State := answer s .dbg (.dbg (if dbgReach s a write then 3 else 2) 0)

/-- A write before READY: the SPI port notes it in LAST_ERR, the endpoint answers Unsupported Request (R407, R408); in
recovery mode writes have no effect (R397). -/
def writeUnanswered (s : State) (m : Master) (a : Nat) : State :=
  if !dieRuns s then answer s m .ignored
  else if s.boot.phase = .recovery then answer s m .done
  else match m with
    | .spi => { answer s m .ignored with host.lastErr := true }
    | .host => answer s m .unsupportedRequest
    | .dbg => dbgUnanswered s a true
    | _ => answer s m .ignored

/-- MSPI_EN of the HOST globals, set without them (R348, R352): with it clear the SPI port answers STATUS alone, and its
accesses never reach the control space. -/
def mspiOn (s : State) : Bool := (recOf s (curSlot s) 0x0700 0).all fun b => bitAt (u8 b 8) 0

/-- Is a master's access heard at all (R348)? [DEDUCED, log 30] -/
def masterHeard (s : State) (m : Master) : Bool := masterRuns s m && (m != .spi || !aloft s || mspiOn s)

/-- The blocks of the control space, each of 64 KiB, as the interconnect grants them (R448). [DESIGN CHOICE, log 142] -/
def blockOf (a : Nat) : Nat := a / 65536

/-- A master's place in the round of R448: SP, GC[0] to GC[3], HB, DBG. PCIe and SPI requests share HB. -/
def grantPlace : Master → Nat
  | .sp => 0
  | .gc c => c.val + 1
  | .host => 5
  | .spi => 5
  | .dbg => 6

/-- Is a master the one a block grants, of those that ask in one cycle: the first after the master granted last (R448)?
Before the first grant the round starts at SP. [DESIGN CHOICE, log 142] -/
def grantedNext (s : State) (a : Nat) (m : Master) (waiting : List Master) : Bool :=
  let last := (s.io.granted.find (blockOf a)).getD 6
  let turn := fun (w : Master) => (grantPlace w + 13 - last) % 7
  waiting.all fun w => turn m ≤ turn w

/-- A grant noted (R448). [DESIGN CHOICE, log 142] -/
def noteGrant (s : State) (a : Nat) (m : Master) : State :=
  { s with io.granted := s.io.granted.set (blockOf a) (grantPlace m) }

/-- A control-space write that its block grants (R447): the checks, then the effect. -/
def performWrite (s : State) (m : Master) (a : Nat) (effect : State → State) : State :=
  if !writesAnswered s then writeUnanswered s m a
  else match writeRefusal s m a 4 with
    | some c => refuseWrite s m a c
    | none => answer (effect s) m .done

/-- A control-space write to the register at an offset by a master, granted and performed (R447, R448).
[DEDUCED, log 29] -/
def accessWrite (s : State) (m : Master) (a : Nat) (effect : State → State) : State :=
  if masterHeard s m then noteGrant (performWrite s m a effect) a m else s

/-- Reads a device answers before READY: the SPI port's READ of the identity block (R408). -/
def earlyRead (m : Master) (a : Nat) : Bool := m == .spi && a ≤ 0x1F

/-- Does the device answer control-space reads of a master at this offset now (R407, R408, R449)? In recovery mode
IDENT alone reads as it is (R397). -/
def readsAnswered (s : State) (m : Master) (a : Nat) : Bool :=
  aloft s || (earlyRead m a && dieRuns s && s.boot.phase != .recovery) || (s.boot.phase == .recovery && a == 0)

/-- An access of recovery mode that fails the first check of R447: its size or alignment (R8). -/
def recoverySize (s : State) (a size : Nat) : Bool := s.boot.phase == .recovery && (size != 4 || a % 4 != 0)

/-- A read the device does not answer in this phase; in recovery mode it returns zero (R397). -/
def unanswered (s : State) (m : Master) (a : Nat) : State :=
  if !dieRuns s then answer s m .ignored
  else if s.boot.phase = .recovery then answer s m (.data 0)
  else match m with
    | .spi => bump (answer s m (.errorSync 1)) Reg.brSpiErrors
    | .host => answer s m .unsupportedRequest
    | .dbg => dbgUnanswered s a false
    | _ => answer s m .ignored

/-- A control-space read that its block grants (R447): the checks, then the value and what reading it does. -/
def performRead (s : State) (m : Master) (a : Nat) (effect : State → Nat × State) : State :=
  if !readsAnswered s m a then unanswered s m a
  else match readRefusal s m a 4 with
    | some c => reportRead s m c
    | none =>
      let r := effect s
      answer r.2 m (.data r.1)

/-- A control-space read by a master at an offset, granted and performed (R447, R448). [DEDUCED, log 29] -/
def accessRead (s : State) (m : Master) (a : Nat) (effect : State → Nat × State) : State :=
  if masterHeard s m then noteGrant (performRead s m a effect) a m else s

end Sys2Proof.Machine
end

