-- ==== Sys2Proof/Machine/Operands.lean ====
section
/-!
DEFINITION. The operand forms of the block: the layouts of the envelope's sections and of the policy
records, and the content rules each owning chapter gives them. A View is one configuration: structural
sections under their codes and policy records under section and INDEX.
-/
namespace Sys2Proof.Machine

/-! A configuration. -/

/-- One configuration: the structural sections, and the policy records keyed by section * 2^32 + INDEX. -/
structure View where
  str : SMap (List Byte)
  pol : SMap (List Byte)
deriving DecidableEq, Repr

/-- A structural section of a view. -/
def View.sect (v : View) (code : Nat) : List Byte := (SMap.find v.str code).getD []

/-- A policy record of a view. -/
def View.entry (v : View) (sect idx : Nat) : Option (List Byte) := SMap.find v.pol (sect * 2 ^ 32 + idx)

/-- The records of a section with their INDEX. -/
def View.recs (v : View) (sect : Nat) : List (Nat × List Byte) :=
  v.pol.filterMap fun e => if e.1 / 2 ^ 32 = sect then some (e.1 % 2 ^ 32, e.2) else none

/-- The records of one table of a section: INDEX[31:24] selects it, INDEX[23:0] is returned. -/
def View.table (v : View) (sect tab : Nat) : List (Nat × List Byte) :=
  (v.recs sect).filterMap fun e => if e.1 / 2 ^ 24 = tab then some (e.1 % 2 ^ 24, e.2) else none

/-- The configuration of an epoch slot. [DEDUCED, log 75] -/
def slotView (s : State) (slot : Nat) : View :=
  { str := s.env.structural
    pol := s.env.policy.filterMap fun e =>
      if e.1 / 2 ^ 48 = slot then some (e.1 % 2 ^ 48, e.2) else none }

/-- A number within a range. -/
def inR (x lo hi : Nat) : Bool := lo ≤ x && x ≤ hi

/-- Every byte string of a list has the property at its position. -/
def allIdx (n : Nat) (p : Nat → Bool) : Bool := (List.range n).all p

/-! PORTS and SERDES (R83, R84). -/

/-- The PORTS entry of a port. -/
def portEntry (v : View) (p : Nat) : List Byte := slice (v.sect 0x0010) (48 * p) 48

/-- MODE of a port. -/
def View.portMode (v : View) (p : Nat) : Nat := u8 (portEntry v p) 1

/-- The SERDES entry of a lane. -/
def laneEntry (v : View) (k : Nat) : List Byte := slice (v.sect 0x0011) (16 * k) 16

/-- An initial key slot: a vault slot or none. -/
def keySlotOk (x : Nat) : Bool := x ≤ 511 || x == 0xFFFF

/-- The content rule of a PORTS entry (R83). -/
def portEntryOk (v : View) (p : Nat) : Bool :=
  let b := portEntry v p
  let mode := u8 b 1
  let fl := u8 b 2
  let cap := bitAt fl 3
  let init := leAt b 16 4
  u8 b 0 == p &&
  (if p < 12 then mode ≤ 3 else mode ≤ 1) &&
  (if 12 ≤ p && p < 16 then (mode == 1) == (u8 (laneEntry v (p - 12)) 0 != 0) else true) &&
  fl / 32 == 0 && (!bitAt fl 1 || 40 ≤ p) && (!bitAt fl 2 || inR p 16 39) &&
  u8 b 3 ≤ 254 && inR (u8 b 4) 1 255 && inR (u8 b 5) 1 255 && allZero b 14 2 &&
  (if cap then bitsAt init 2 2 ≤ 1 else init == 0) &&
  keySlotOk (leAt b 20 2) && keySlotOk (leAt b 22 2) && allZero b 40 8

/-- The content rule of a SERDES entry (R84). -/
def laneEntryOk (v : View) (k : Nat) : Bool :=
  let b := laneEntry v k
  let mode := u8 b 0
  let fec := u8 b 1
  let fl := u8 b 2
  let speed := bitsAt fl 3 3
  mode ≤ 4 && fec ≤ 2 && (!(mode == 3 || mode == 4) || fec == 0) && !(mode == 2 && fec == 2) &&
  fl / 64 == 0 &&
  (if mode ≤ 2 || bitAt fl 2 then speed == 0 else if mode == 4 then speed ≤ 2 else speed ≤ 5) &&
  u8 b 3 ≤ 15 && allZero b 8 8

/-! EDGES (R207, R208). -/

/-- The EDGES entry of a channel. -/
def chanEntry (v : View) (n : Nat) : List Byte := slice (v.sect 0x0020) (16 * n) 16

/-- KIND of a channel: 0 absent, 1 CAN, 2 LIN. -/
def View.chanKind (v : View) (n : Nat) : Nat := u8 (chanEntry v n) 1

/-- FLAGS of a channel. -/
def View.chanFlags (v : View) (n : Nat) : Nat := leAt (chanEntry v n) 2 2

/-- A binding entry. -/
def bindEntry (v : View) (b : Nat) : List Byte := slice (v.sect 0x0020) (4096 + 48 * b) 48

/-- Is a channel declared? -/
def View.declared (v : View) (n : Nat) : Bool := n < 256 && v.chanKind n != 0

/-- The content rule of a channel entry (R207). -/
def chanEntryOk (v : View) (n : Nat) : Bool :=
  let b := chanEntry v n
  let kind := u8 b 1
  let fl := leAt b 2 2
  let nom := leAt b 4 4
  let dat := leAt b 8 4
  let loc := n < 24
  if kind == 0 then u8 b 0 == n && allZero b 1 15
  else
    u8 b 0 == n && kind ≤ 2 && (if n < 16 then kind == 1 else if n < 24 then kind == 2 else true) &&
    fl / 32 == 0 && (kind == 1 || fl % 16 == 0) &&
    (!bitAt fl 3 || (bitAt fl 1 && n < 16)) && (!(bitAt fl 2 || bitAt fl 4) || n < 16) &&
    (if n < 16 then inR nom 20000 1000000 else if n < 24 then inR nom 1000 20000 else nom == 0) &&
    (if n < 16 && (bitAt fl 0 || bitAt fl 1)
      then inR dat 1000000 (if bitAt fl 3 then 20000000 else 8000000) else dat == 0) &&
    (if loc then inR (u8 b 12) 50 90 else u8 b 12 == 0) &&
    (if dat != 0 then inR (u8 b 13) 50 90 else u8 b 13 == 0) &&
    (if loc then u8 b 14 == 0xFF && u8 b 15 == 0 else u8 b 14 ≤ 63 && u8 b 15 ≤ 31)

/-- The content rule of a binding entry (R207). -/
def bindEntryOk (v : View) (i : Nat) : Bool :=
  let b := bindEntry v i
  let fl := leAt b 0 2
  if bitAt fl 0 then
    fl / 8 == 0 && u8 b 2 ≤ 47 && v.portMode (u8 b 2) != 0 && u8 b 3 ≤ 62 && inR (leAt b 4 2) 1 4094 &&
    u8 b 6 ≤ 7 && u8 b 7 ≤ 100 && inR (leAt b 30 2) 64 8192 && inR (leAt b 32 2) 1 65535 && allZero b 34 14
  else allZero b 0 48

/-- Is a binding VALID? -/
def View.bindValid (v : View) (i : Nat) : Bool := bitAt (leAt (bindEntry v i) 0 2) 0

/-- The channels that name a binding. -/
def View.bindChans (v : View) (i : Nat) : List Nat :=
  (List.range 232).filterMap fun k =>
    if v.declared (k + 24) && u8 (chanEntry v (k + 24)) 14 == i then some (k + 24) else none

/-- No value twice in a list of numbers. -/
def noDup (l : List Nat) : Bool := decide l.Nodup

/-- The rules of the EDGES section beyond its entries (R208). -/
def edgesOk (v : View) : Bool :=
  let teth := (List.range 232).filterMap fun k => if v.declared (k + 24) then some (k + 24) else none
  let named := (List.range 64).filter fun i => v.bindValid i && !(v.bindChans i).isEmpty
  (v.sect 0x0020).length == 7168 && allIdx 256 (chanEntryOk v) && allIdx 64 (bindEntryOk v) &&
  (teth.all fun n => v.bindValid (u8 (chanEntry v n) 14) &&
    (!bitAt (v.chanFlags n) 1 || bitAt (leAt (bindEntry v (u8 (chanEntry v n) 14)) 0 2) 1)) &&
  noDup (teth.map fun n => u8 (chanEntry v n) 14 * 256 + u8 (chanEntry v n) 15) &&
  noDup (named.map fun i => u8 (bindEntry v i) 2 * 2 ^ 64 + leAt (bindEntry v i) 8 8)

/-! BANKS (R318). -/

/-- A BANKS region entry. -/
def bankRegion (v : View) (i : Nat) : List Byte := slice (v.sect 0x0030) (32 + 16 * i) 16

/-- Do the spans of a list, as pairs of start and end, overlap? -/
def spansApart : List (Nat × Nat) → Bool
  | [] => true
  | a :: r => (r.all fun b => a.2 ≤ b.1 || b.2 ≤ a.1) && spansApart r

/-- The content rule of BANKS. -/
def banksOk (v : View) : Bool :=
  let b := v.sect 0x0030
  let n := u8 b 1
  let reg := fun i => bankRegion v i
  b.length == 160 && inR (u8 b 0) 16 64 && inR n 1 8 && allZero b 2 30 &&
  allIdx 8 (fun i =>
    if i < n then
      leAt (reg i) 0 2 ≤ 63 && 1 ≤ leAt (reg i) 2 2 && leAt (reg i) 0 2 + leAt (reg i) 2 2 ≤ 64 &&
      u8 (reg i) 4 / 16 == 0 && u8 (reg i) 5 / 8 == 0 && allZero (reg i) 6 10
    else allZero (reg i) 0 16) &&
  spansApart ((List.range n).map fun i => (leAt (reg i) 0 2, leAt (reg i) 0 2 + leAt (reg i) 2 2)) &&
  ((List.range n).any fun i => bitAt (u8 (reg i) 4) 0 && bitAt (u8 (reg i) 5) 0)

/-- Is a byte range of Bank H inside one region that grants what `p` asks of READ and WRITE? -/
def inRegion (v : View) (base size : Nat) (p : Nat → Nat → Bool) : Bool :=
  (List.range (u8 (v.sect 0x0030) 1)).any fun i =>
    let r := bankRegion v i
    p (u8 r 4) (u8 r 5) && leAt r 0 2 * 65536 ≤ base && base + size ≤ (leAt r 0 2 + leAt r 2 2) * 65536

/-! TIME (R452). -/

/-- The content rule of a TIME domain block. -/
def domBlockOk (b : List Byte) : Bool :=
  u8 b 0 / 4 == 0 && (u8 b 5 == 0 || inR (u8 b 5) 251 255) && allZero b 10 14

/-- The content rule of the TIME section. -/
def timeOk (v : View) : Bool :=
  let b := v.sect 0x0040
  let blk := fun d => slice b (16 + 24 * d) 24
  let ent := fun p => slice b (64 + 8 * p) 8
  let en := fun d p => bitAt (u8 (ent p) 1) d
  let ext := fun d => bitAt (u8 (blk d) 0) 1
  let role := fun d p => u8 (ent p) (2 + d)
  b.length == 448 && u8 b 0 ≤ 5 && u8 b 1 != 0 && u8 b 2 != 0 && u8 b 3 == 0 && u8 b 4 ≤ 127 &&
  u8 b 5 ≤ 127 && u8 b 4 != u8 b 5 && allZero b 6 2 && leAt b 8 4 ≤ 16777215 &&
  inR (leAt b 12 4) 1 16777215 && domBlockOk (blk 0) && domBlockOk (blk 1) &&
  allIdx 48 (fun p =>
    let e := ent p
    u8 e 0 == p && u8 e 1 / 4 == 0 && (v.portMode p != 0 || u8 e 1 == 0) && allZero e 6 2 &&
    (leAt e 4 2 == 0 || (40 ≤ p && u8 e 1 != 0)) &&
    allIdx 2 (fun d =>
      if ext d && en d p then inR (role d p) 1 3 && (p < 40 || role d p == 1) else role d p == 0)) &&
  allIdx 2 (fun d =>
    !ext d ||
      (let slaves := ((List.range 48).filter fun p => role d p == 2).length
       slaves == 1 || (slaves == 0 && bitAt (u8 (blk d) 0) 0)))

/-- The IDENT section (R55). -/
def identOk (b : List Byte) (minStep : Nat) : Bool :=
  let name := (slice b 16 32)
  let text := name.reverse.dropWhile (· == 0)
  b.length == 48 && leAt b 0 2 == 0x6B25 && leAt b 2 2 == minStep &&
  text.all (fun c => c != 0 && c.toNat < 128)

/-! Action blocks (R155). -/

/-- The content rule of an action block of 16 bytes. -/
def actionOk (a : List Byte) : Bool :=
  let verdict := u8 a 0
  let fl := u8 a 1
  let tgt := leAt a 2 2
  let edit := u8 a 6
  verdict ≤ 4 && fl / 16 == 0 &&
  (if verdict == 2 then (if bitAt tgt 15 then tgt % 32768 ≤ 4095 else tgt ≤ 49)
   else if verdict == 4 then tgt ≤ 8191 else tgt == 0) &&
  (if bitAt fl 2 then inR (leAt a 4 2) 1 4094 else leAt a 4 2 == 0) &&
  (bitAt fl 3 || edit % 8 == 0) && !bitAt edit 3 && edit / 64 == 0 &&
  (if verdict == 3 then bitsAt edit 4 2 ≤ 2 else bitsAt edit 4 2 == 0) &&
  (u8 a 7 ≤ 63 || u8 a 7 == 0xFF) && (leAt a 8 2 ≤ 8191 || leAt a 8 2 == 0xFFFF) &&
  u8 a 10 / 8 == 0 && (verdict != 0 || u8 a 10 == 0) &&
  (if bitAt (u8 a 10) 2 then u8 a 11 ≤ 47 else u8 a 11 == 0) && u8 a 12 ≤ 62 &&
  u8 a 13 % 4 != 3 && bitsAt (u8 a 13) 2 2 == 0 && allZero a 14 2

/-! RULES, RANGES, SAFETY_STREAMS and PARSER (R137, R150, R151). -/

/-- A 640-bit key or mask as a number: byte i holds bits [639 - 8i : 632 - 8i]. -/
def keyNum (b : List Byte) : Nat := beNat b

/-- A run of key bits as a mask. -/
def keyBits (hi lo : Nat) : Nat := (2 ^ (hi + 1 - lo) - 1) * 2 ^ lo

/-- Key bits common to both layouts (R137). -/
def keyCommon : Nat :=
  keyBits 639 638 + keyBits 637 635 + keyBits 634 629 + keyBits 628 616 + keyBits 615 608 +
  keyBits 143 80 + keyBits 7 0

/-- Key bits of the Ethernet layout. -/
def keyEth : Nat :=
  keyCommon + keyBits 607 596 + keyBits 595 593 + keyBits 592 588 + keyBits 583 536 + keyBits 535 488 +
  keyBits 487 472 + keyBits 471 460 + keyBits 455 448 + keyBits 447 442 + keyBits 441 440 +
  keyBits 439 432 + keyBits 431 304 + keyBits 303 176 + keyBits 175 160 + keyBits 159 144 +
  keyBits 79 16 + keyBits 15 12 + keyBits 11 8

/-- Key bits of the edge layout; of FLAGS only [628:621] are listed there. -/
def keyEdge : Nat :=
  keyCommon - keyBits 620 616 + keyBits 607 600 + keyBits 599 571 + keyBits 570 560 + keyBits 559 542 +
  keyBits 541 534 + keyBits 533 526 + keyBits 525 523 + keyBits 522 515 + keyBits 514 507 +
  keyBits 506 475 + keyBits 474 219

/-- The key bits a rule may compare with 1: those of the layout its KIND selects, or of either when KIND
is not compared whole. -/
def keyDefined (key mask : Nat) : Nat :=
  if bitsAt mask 638 2 = 3 ∧ bitsAt key 638 2 = 0 then keyEth
  else if bitsAt mask 638 2 = 3 ∧ bitsAt key 638 2 = 1 then keyEdge
  else keyEth ||| keyEdge

/-- The content rule of a RULES entry. -/
def ruleOk (b : List Byte) : Bool :=
  let key := keyNum (slice b 0 80)
  let mask := keyNum (slice b 80 80)
  let fl := leAt b 162 2
  (key &&& mask) == key && (key ||| keyDefined key mask) == keyDefined key mask && fl / 4 == 0 &&
  (if bitAt fl 1 then leAt b 164 2 ≤ 1023 else leAt b 164 2 == 0xFFFF) && allZero b 166 2 &&
  actionOk (slice b 168 16)

/-- The content rule of a RANGES entry. -/
def rangeOk (b : List Byte) : Bool :=
  let f := u8 b 0
  inR f 1 6 && u8 b 1 ≤ 63 && leAt b 2 2 / 2 == 0 && leAt b 4 4 ≤ leAt b 8 4 &&
  leAt b 8 4 ≤ (if f = 3 then 0x1FFFFFFF else if f = 4 then 0x3FFFF else 0xFFFF) && allZero b 12 4

/-- The content rule of a SAFETY_STREAMS entry. -/
def streamOk (b : List Byte) : Bool :=
  let form := u8 b 0
  let fl := u8 b 1
  let eth := form != 4
  let ip := form == 2 || form == 3
  inR form 1 4 && fl / 8 == 0 && (eth || !bitAt fl 1) && (!eth || !bitAt fl 2) &&
  (!eth || u8 b 2 ≤ 49) &&
  (if ip then u8 b 3 == 6 || u8 b 3 == 17 else u8 b 3 == 0) &&
  (if bitAt fl 1 then inR (leAt b 4 2) 1 4094 else leAt b 4 2 == 0) &&
  (if form == 1 then leAt b 6 2 != 0x0800 && leAt b 6 2 != 0x86DD else leAt b 6 2 == 0) &&
  (ip || (leAt b 8 2 == 0 && leAt b 10 2 == 0)) &&
  (if form == 4 then leAt b 12 4 < (if bitAt fl 2 then 2 ^ 29 else 2 ^ 11) else leAt b 12 4 == 0) &&
  (ip || allZero b 16 16) && (form != 2 || (allZero b 20 12 && allZero b 36 12)) &&
  (form != 1 || allZero b 38 10) && (form != 4 || allZero b 32 16) && actionOk (slice b 48 16)

/-- EtherTypes the parser follows (R130). -/
def followedEtypes : List Nat := [0x8100, 0x88A8, 0x88E5, 0x0806, 0x0800, 0x86DD, 0x22F0, 0x88F7]

/-- The SOME/IP ports of a PARSER body. -/
def someipPorts (b : List Byte) : List Nat :=
  ((List.range 8).map fun i => leAt b (40 + 2 * i) 2).filter (· != 0)

/-- The content rule of the PARSER body (R150). -/
def parserOk (b : List Byte) : Bool :=
  let mal := leAt b 36 4
  let ports := someipPorts b
  b.length == 400 && actionOk (slice b 0 16) && actionOk (slice b 16 16) && leAt b 32 4 / 4 == 0 &&
  !bitAt mal 0 && !bitAt mal 13 && mal / 2 ^ 19 == 0 && noDup ports && !ports.contains 13400 &&
  allIdx 4 (fun i =>
    let h := slice b (56 + 8 * i) 8
    let kind := u8 h 0
    kind ≤ 2 && u8 h 1 ≤ 248 && allZero h 4 4 &&
    !(kind == 1 && followedEtypes.contains (leAt h 2 2)) &&
    !(kind == 2 && (ports.contains (leAt h 2 2) || leAt h 2 2 == 13400))) &&
  allZero b 140 4

/-! FORWARDING (R127). -/

/-- The content rule of a FORWARDING record. -/
def forwardingOk (idx : Nat) (b : List Byte) : Bool :=
  let n := idx % 2 ^ 24
  match idx / 2 ^ 24 with
  | 0 => n ≤ 49 && b.length == 48 && u8 b 0 == n && u8 b 1 % 4 != 3 && u8 b 1 / 32 == 0 &&
      inR (leAt b 2 2) 1 4094 && u8 b 4 ≤ 7 && u8 b 5 ≤ 7 && inR (u8 b 6) 1 40 && u8 b 7 == 0 &&
      leAt b 8 4 ≤ 16384 && allZero b 12 4
  | 1 => inR n 1 4094 && b.length == 24 && inR (leAt b 0 2) 1 4094 && leAt b 2 2 / 16 == 0 &&
      allZero b 4 4 && leAt b 8 8 / 2 ^ 50 == 0 && (leAt b 8 8 ||| leAt b 16 8) == leAt b 8 8
  | 2 => n ≤ 4095 && b.length == 16 && inR (leAt b 6 2) 1 4094 &&
      (if bitAt (leAt b 8 2) 15 then leAt b 8 2 % 32768 ≤ 4095 else leAt b 8 2 ≤ 49) &&
      leAt b 10 2 / 8 == 0 && !(bitAt (leAt b 8 2) 15 && bitAt (leAt b 10 2) 2) && allZero b 12 4
  | 3 => n ≤ 4095 && b.length == 16 && leAt b 0 8 / 2 ^ 50 == 0 && leAt b 8 2 / 4 == 0 && allZero b 10 6
  | 4 => n ≤ 15 && b.length == 16 && leAt b 0 2 ≤ leAt b 2 2 && leAt b 2 2 ≤ 16384 &&
      leAt b 6 2 ≤ leAt b 8 2 && leAt b 8 2 ≤ 16384 && u8 b 10 ≤ 15 && allZero b 11 5
  | 5 => n == 0 && b.length == 16 && (leAt b 0 4 == 0 || inR (leAt b 0 4) 10 1000000) &&
      inR (u8 b 4) 1 7 && u8 b 5 == 0 && leAt b 6 2 ≤ 16384 && leAt b 8 2 ≤ 16384 && allZero b 10 6
  | _ => false

/-! STATEFUL and CONTAINMENT (R176, R177). -/

/-- The content rule of a STATEFUL record. -/
def statefulOk (idx : Nat) (b : List Byte) : Bool :=
  b.length == 16 &&
  (if idx ≤ 15 then allIdx 6 (fun i => leAt b (2 * i) 2 != 0) && allZero b 12 4
   else idx == 16 && leAt b 0 4 ≤ 1 && allZero b 4 12)

/-- The content rule of a CONTAINMENT record. -/
def containmentOk (idx : Nat) (b : List Byte) : Bool :=
  idx ≤ 7 && b.length == 96 && u8 b 0 == idx && u8 b 1 / 8 == 0 && (idx != 0 || bitAt (u8 b 1) 0) &&
  allZero b 4 4 && leAt b 8 16 / 2 ^ 100 == 0 && allZero b 88 8

/-! TM, POLICERS and GATES (R202 to R204). -/

/-- The content rule of a TM record. -/
def tmOk (idx : Nat) (b : List Byte) : Bool :=
  let n := idx % 2 ^ 24
  match idx / 2 ^ 24 with
  | 0 => n ≤ 49 && b.length == 32 && u8 b 0 == n && u8 b 1 ≤ 1 && u8 b 2 ≤ 32 && u8 b 3 == 0 &&
      leAt b 4 4 ≤ 100000000 && leAt b 8 4 ≤ 16777215 && allIdx 8 (fun i => u8 b (12 + i) ≤ 62) &&
      allZero b 20 12
  | 1 => n < 3200 && b.length == 16 && u8 b 0 ≤ 7 && (n % 64 != 63 || u8 b 0 == 7) && u8 b 1 != 0 &&
      u8 b 2 ≤ 1 && u8 b 3 == 0 && leAt b 4 4 ≤ 100000000 && leAt b 8 4 ≤ 16777215 && allZero b 12 4
  | _ => false

/-- The sum of the INTERVAL fields of a list of entries. -/
def sumIntervals (b : List Byte) (base step off n : Nat) : Nat :=
  ((List.range n).map fun i => leAt b (base + step * i + off) 4).sum

/-- The content rule of a POLICERS record. -/
def policersOk (idx : Nat) (b : List Byte) : Bool :=
  let n := idx % 2 ^ 24
  match idx / 2 ^ 24 with
  | 0 => n ≤ 8191 && b.length == 16 && leAt b 0 2 / 4 == 0 &&
      (leAt b 2 2 == 0 || inR (leAt b 2 2) 64 10240) && (leAt b 4 2 ≤ 8191 || leAt b 4 2 == 0xFFFF) &&
      (leAt b 6 2 ≤ 1023 || leAt b 6 2 == 0xFFFF) && allZero b 8 8
  | 1 => n ≤ 8191 && b.length == 32 && leAt b 0 2 / 32 == 0 && allZero b 2 2 &&
      leAt b 4 4 ≤ 100000000 && leAt b 8 4 ≤ 16777215 && leAt b 12 4 ≤ 100000000 &&
      leAt b 16 4 ≤ 16777215 && allZero b 20 12
  | 2 =>
      let c := u8 b 2
      n ≤ 1023 && leAt b 0 2 / 8 == 0 && inR c 1 8 && b.length == 32 + 16 * c && u8 b 3 == 0 &&
      inR (leAt b 4 4) 1 125000000 && leAt b 4 4 == sumIntervals b 32 16 4 c && allZero b 16 16 &&
      allIdx c (fun i =>
        let e := slice b (32 + 16 * i) 16
        u8 e 0 ≤ 1 && (u8 e 1 ≤ 7 || u8 e 1 == 0xFF) && allZero e 2 2 && leAt e 4 4 != 0 && allZero e 12 4)
  | _ => false

/-- The content rule of a GATES record. -/
def gatesOk (idx : Nat) (b : List Byte) : Bool :=
  let c := leAt b 2 2
  let fl := leAt b 0 2
  idx ≤ 47 && inR c 1 256 && b.length == 32 + 8 * c && fl / 8 == 0 && (bitAt fl 0 || fl == 0) &&
  inR (leAt b 4 4) 1 125000000 && leAt b 4 4 == sumIntervals b 32 8 4 c && leAt b 16 2 ≤ 256 &&
  allZero b 18 14 &&
  allIdx c (fun i =>
    let e := slice b (32 + 8 * i) 8
    u8 e 1 ≤ 2 && allZero e 2 2 && leAt e 4 4 != 0) &&
  (!bitAt fl 0 || (List.range c).any (fun i => bitAt (u8 b (32 + 8 * i)) 7))

/-! EDGE_POLICY and SECOC (R211, R215, R218, R221, R228, R235). -/

/-- Do two identifiers with EXT in bit 29 have the same EXT? -/
def sameExt (a b : Nat) : Bool := bitAt a 29 == bitAt b 29

/-- Least length of a LIN slot, as numerator over 10 * NOM_RATE seconds: 14 * (34 + 10 * (LEN + 1))
bit times over 10 (R221). `per` is the tempo period in ns. -/
def linSlotOk (nom per tempos len : Nat) : Bool :=
  14 * (34 + 10 * (len + 1)) * 1000000000 ≤ tempos * per * nom * 10

/-- The content rule of a LIN table. -/
def linTableOk (v : View) (n : Nat) (b : List Byte) : Bool :=
  let c := leAt b 0 2
  let ch := 16 + n / 8
  let nom := leAt (chanEntry v ch) 4 4
  let per := 31250 * 2 ^ u8 (v.sect 0x0040) 0
  n < 64 && inR c 1 64 && b.length == 16 + 8 * c && allZero b 2 14 &&
  allIdx c (fun i =>
    let e := slice b (16 + 8 * i) 8
    let id := u8 e 0
    (match u8 e 1 with
     | 0 => id ≤ 59
     | 1 => id ≤ 59
     | 2 => id == 60
     | 3 => id == 61
     | _ => false) &&
    inR (u8 e 2) 1 8 && u8 e 3 / 4 == 0 && leAt e 4 2 != 0 && allZero e 6 2 &&
    linSlotOk nom per (leAt e 4 2) (u8 e 2))

/-- A channel a route may name: declared and not LISTEN_ONLY (R213, R228), or none. -/
def routeChanOk (v : View) (c : Nat) : Bool :=
  c == 0xFFFF || (v.declared c && !bitAt (v.chanFlags c) 2)

/-- Is a word an identifier with EXT in bit 29: 29 bits with it, 11 without (R216, R228, R235)? -/
def idOk (w : Nat) : Bool := decide (w < 2 ^ 30) && (bitAt w 29 || decide (w < 0x800))

/-- The content rule of a route entry (R228). Masked, OUT_ID has no EXT to hold it to. -/
def routeOk (v : View) (b : List Byte) : Bool :=
  let fl := leAt b 0 2
  let mode := u8 b 2
  let fmt := u8 b 3
  let out := leAt b 4 4
  let eth := bitAt fl 2
  let len := leAt b 24 2
  b.length == 64 && fl / 16 == 0 && mode ≤ 2 && fmt ≤ 4 && (if mode == 2 then decide (out < 2 ^ 30) else idOk out) &&
  (fmt != 4 || out ≤ 59) && (if mode == 2 then leAt b 8 4 / 2 ^ 29 == 0 else leAt b 8 4 == 0) &&
  allIdx 4 (fun i => routeChanOk v (leAt b (12 + 2 * i) 2)) &&
  (leAt b 20 2 ≤ 4095 || leAt b 20 2 == 0xFFFF) && leAt b 22 2 ≤ 2047 && len ≤ 2048 &&
  (!eth || (leAt b 26 2 ≤ (if bitAt fl 3 then 4095 else 49) && inR (leAt b 28 2) 1 4094)) &&
  u8 b 30 ≤ 7 && u8 b 31 ≤ 62 && allZero b 38 2 && allZero b 50 2 && allZero b 56 8 &&
  (len == 0 || (mode == 1 && inR fmt 1 4)) && (fmt != 4 || mode == 1)

/-- The content rule of an EDGE_POLICY record. -/
def edgePolicyOk (v : View) (idx : Nat) (b : List Byte) : Bool :=
  let n := idx % 2 ^ 24
  match idx / 2 ^ 24 with
  | 0 => n ≤ 255 && b.length == 96 && leAt b 0 2 / 8 == 0 && (!bitAt (leAt b 0 2) 2 || n < 16) &&
      allZero b 2 2 && leAt b 4 4 ≤ 100000 && inR (leAt b 8 2) 1 1024 && allZero b 12 4 &&
      allIdx 8 (fun i => bitsAt (leAt b (20 + 8 * i) 4) 30 2 == 0) && allZero b 80 16
  | 1 => n ≤ 8191 && routeOk v b
  | 2 =>
      let c := leAt b 0 2
      let cyc := leAt b 2 2
      n ≤ 15 && inR c 1 16 && b.length == 16 + 16 * c && cyc != 0 && allZero b 4 12 &&
      allIdx c (fun i =>
        let e := slice b (16 + 16 * i) 16
        leAt e 0 2 < cyc && leAt e 2 2 != 0 && leAt e 0 2 + leAt e 2 2 ≤ cyc &&
        idOk (leAt e 4 4) && idOk (leAt e 8 4) && leAt e 4 4 ≤ leAt e 8 4 && sameExt (leAt e 4 4) (leAt e 8 4) && allZero e 12 4)
  | 3 => linTableOk v n b
  | _ => false

/-- The content rule of a SECOC entry (R235). -/
def secocOk (v : View) (idx : Nat) (b : List Byte) : Bool :=
  let fl := leAt b 0 2
  let gen := bitAt fl 1
  idx ≤ 4095 && b.length == 48 && fl / 8 == 0 && !(gen && bitAt fl 2) && leAt b 4 2 ≤ 511 &&
  (if gen then leAt b 6 2 == 0 && leAt b 8 4 == 0 else v.declared (leAt b 6 2) && idOk (leAt b 8 4)) &&
  inR (leAt b 12 2) 1 2040 && u8 b 14 ≤ 64 && u8 b 14 % 8 == 0 && inR (u8 b 15) 24 128 &&
  u8 b 15 % 8 == 0 && leAt b 16 8 != 0 && (gen || leAt b 24 4 != 0) && (!gen || leAt b 28 4 != 0) &&
  allZero b 32 16 && leAt b 12 2 + u8 b 14 / 8 + u8 b 15 / 8 ≤ 2048

/-! WAKE (R295). -/

/-- The ports with TC10 (R80). -/
def tc10Port (p : Nat) : Bool := p < 12 || (16 ≤ p && p < 40)

/-- Bits of a port mask that TC10 ports may set. -/
def tc10Only (m : Nat) : Bool := allIdx 64 fun p => !bitAt m p || tc10Port p

/-- The content rule of a WAKE record. -/
def wakeOk (v : View) (idx : Nat) (b : List Byte) : Bool :=
  let n := idx % 2 ^ 24
  match idx / 2 ^ 24 with
  | 0 => n == 0 && b.length == 64 && leAt b 0 2 / 16 == 0 && leAt b 4 2 != 0 && leAt b 6 2 != 0 &&
      bitsAt (u8 b 8) 0 2 ≤ 2 && bitsAt (u8 b 8) 2 2 ≤ 2 && u8 b 8 / 16 == 0 &&
      allIdx 4 (fun i => u8 b (9 + i) / 8 == 0) &&
      allIdx 8 (fun i => !bitAt (u8 b 13) i || v.declared (16 + i)) && allZero b 14 2 &&
      tc10Only (leAt b 16 8) && tc10Only (leAt b 24 8) && tc10Only (leAt b 32 8) &&
      leAt b 40 8 ≤ 2 ^ 32 && (leAt b 48 4 == 0 || 60 ≤ leAt b 48 4) && allZero b 52 12
  | 1 => n ≤ 31 && b.length == 48 && leAt b 0 2 ≤ 1 && 10 ≤ leAt b 2 2 &&
      (leAt b 4 4 == 0 || 60 ≤ leAt b 4 4) &&
      allIdx 256 (fun i => !bitAt (leAt b 8 32) i || v.declared i) && allZero b 40 8
  | 2 =>
      let kind := u8 b 1
      let idk := u8 b 12
      n ≤ 255 && b.length == 16 && u8 b 0 ≤ 31 && inR kind 1 2 &&
      (kind == 1 || (leAt b 2 2 ≤ 47 && leAt b 4 4 ≤ 0xFFFF && leAt b 8 4 == 0)) &&
      (kind == 2 || (leAt b 4 4 / 2 ^ 30 == 0 && leAt b 8 4 / 2 ^ 30 == 0)) &&
      idk ≤ 3 && (idk != 1 || (kind == 1 && v.chanKind (leAt b 2 2) == 1)) && (idk != 3 || kind == 2) &&
      (if idk == 2 then u8 b 13 ≤ 63 else u8 b 13 == 0) && allZero b 14 2
  | 3 =>
      let ext := bitAt (u8 b 1) 0
      let top := if ext then 2 ^ 29 else 2 ^ 11
      n ≤ 15 && b.length == 24 && u8 b 0 ≤ 2 && v.chanKind n == 1 &&
      (u8 b 0 != 2 || 50000 ≤ leAt (chanEntry v n) 4 4) && u8 b 1 ≤ 1 && inR (u8 b 2) 5 50 &&
      u8 b 3 ≤ 8 && leAt b 4 4 < top && leAt b 8 4 < top && allZero b 20 4
  | _ => false

/-! KEYS, COUNTERS, HOST and FAULT (R246, R384, R351, R370). -/

/-- The content rule of a KEYS record. -/
def keysOk (idx : Nat) (b : List Byte) : Bool :=
  if idx = 0 then b.length == 64 && inR (u8 b 0) 1 60 && allZero b 1 63
  else
    let fl := leAt b 0 2
    let par := leAt b 2 2
    inR idx 8 511 && b.length == 64 && fl / 8 == 0 &&
    (if bitAt fl 1 then inR par 8 511 else par == 1 || inR par 8 511) &&
    (leAt b 4 2 == 128 || leAt b 4 2 == 256) && u8 b 6 / 32 == 0 && u8 b 8 / 8 == 0 && u8 b 8 != 0 &&
    u8 b 9 ≤ 16 && u8 b 10 ≤ 24 && allZero b 11 13 && allZero b (24 + u8 b 9) (16 - u8 b 9) &&
    allZero b (40 + u8 b 10) (24 - u8 b 10) && (!bitAt fl 1 || allZero b 40 24)

/-- The content rule of a COUNTERS record. -/
def countersOk (idx : Nat) (b : List Byte) : Bool :=
  let n := idx % 2 ^ 24
  match idx / 2 ^ 24 with
  | 0 => n == 0 && b.length == 16 && u8 b 2 ≤ 31 && u8 b 3 / 16 == 0 &&
      (!bitAt (u8 b 3) 1 || bitAt (u8 b 3) 0) && allZero b 4 12
  | 1 => n ≤ 4 && b.length == 16 && allIdx 8 (fun i => u8 b i % 128 ≤ 0x0C) && allZero b 8 8
  | _ => false

/-- The content rule of a HOST record. -/
def hostOk (idx : Nat) (b : List Byte) : Bool :=
  let n := idx % 2 ^ 24
  match idx / 2 ^ 24 with
  | 0 => n == 0 && b.length == 112 && leAt b 0 4 % 65536 == 0 && inR (leAt b 4 4) 65536 2097152 &&
      leAt b 4 4 % 65536 == 0 && leAt b 8 2 / 4 == 0 && allZero b 10 6 &&
      allIdx 64 (fun i => u8 b (16 + i) ≤ 31) && allIdx 32 (fun i => u8 b (80 + i) != 0)
  | 1 => n ≤ 7 && b.length == 16 && leAt b 0 8 % 4096 == 0 && inR (leAt b 8 4) 1 262144 &&
      leAt b 12 2 / 8 == 0 && allZero b 14 2
  | _ => false

/-- The content rule of a FAULT record. -/
def faultOk (idx : Nat) (b : List Byte) : Bool :=
  let n := idx % 2 ^ 24
  match idx / 2 ^ 24 with
  | 0 => n == 0 && b.length == 16 && u8 b 0 ≤ 7 && inR (u8 b 1) 1 3 && allZero b 2 14
  | 1 => faultCodes.contains n && b.length == 8 && !fixedSev n && u8 b 0 ≤ 3 &&
      (u8 b 1 == 0xFF || (u8 b 1 ≤ 7 && u8 b 0 == 2)) &&
      (if u8 b 0 == 2 then u8 b 2 != 0 else u8 b 2 == 0) && allZero b 3 5
  | 2 => inR n 8 2047 && srcUsed n && !srcFixed n && !srcFirmware n && b.length == 8 && u8 b 0 ≤ 1 &&
      u8 b 1 ≤ 1 && u8 b 2 ≤ 6 && (if u8 b 2 == 5 then u8 b 3 ≤ 15 else u8 b 3 == 0) && allZero b 4 4
  | _ => false

/-! Any policy record, and the checks over a whole configuration. -/

/-- Structural section codes (R53). -/
def structuralCodes : List Nat := [0x0001, 0x0010, 0x0011, 0x0020, 0x0030, 0x0040]

/-- Policy section codes (R53). -/
def policyCodes : List Nat :=
  [0x0100, 0x0110, 0x0120, 0x0121, 0x0130, 0x0140, 0x0150, 0x0200, 0x0210, 0x0220, 0x0300, 0x0310,
   0x0400, 0x0500, 0x0600, 0x0700, 0x0800]

/-- The content rule of one policy record under its section. -/
def recordOk (v : View) (sect idx : Nat) (b : List Byte) : Bool :=
  match sect with
  | 0x0100 => forwardingOk idx b
  | 0x0110 => idx == 0 && parserOk b
  | 0x0120 => idx ≤ 16383 && b.length == 184 && ruleOk b
  | 0x0121 => idx ≤ 511 && b.length == 16 && rangeOk b
  | 0x0130 => statefulOk idx b
  | 0x0140 => idx ≤ 1023 && b.length == 64 && streamOk b
  | 0x0150 => containmentOk idx b
  | 0x0200 => tmOk idx b
  | 0x0210 => policersOk idx b
  | 0x0220 => gatesOk idx b
  | 0x0300 => edgePolicyOk v idx b
  | 0x0310 => secocOk v idx b
  | 0x0400 => wakeOk v idx b
  | 0x0500 => keysOk idx b
  | 0x0600 => countersOk idx b
  | 0x0700 => hostOk idx b
  | 0x0800 => faultOk idx b
  | _ => false

/-- Is a flag bit of a record set, the record being there? -/
def recBit (v : View) (sect idx off bit : Nat) : Bool :=
  match v.entry sect idx with
  | some b => bitAt (leAt b off 2) bit
  | none => false

/-- The action blocks of a configuration, each with the section it stands in. -/
def actionsOf (v : View) : List (Nat × List Byte) :=
  (v.recs 0x0110).flatMap (fun e => [(0x0110, slice e.2 0 16), (0x0110, slice e.2 16 16)]) ++
  (v.recs 0x0120).map (fun e => (0x0120, slice e.2 168 16)) ++
  (v.recs 0x0140).map (fun e => (0x0140, slice e.2 48 16))

/-- The cells that a configuration's FORWARDING guarantees (R114). -/
def guaranteed (v : View) : Nat :=
  ((v.table 0x0100 0).map fun e => leAt e.2 8 4).sum +
  ((v.table 0x0100 5).map fun e => leAt e.2 6 2 + leAt e.2 8 2).sum

/-- The largest sum of guarantees of any slot that is not free. -/
def guarSum (s : State) : Nat :=
  ((List.range 4).map fun i => if slotState s i = 0 then 0 else guaranteed (slotView s i)).foldl max 0

/-- Free cells of the shared pool. -/
def sharedFree (s : State) : Nat := 97280 - guarSum s - s.net.sharedUsed

/-- Free cells of the management pool. -/
def mgmtFree (s : State) : Nat := 1024 - s.net.mgmtUsed

/-- The pool registers; SHARED_MIN is the lowest SHARED_FREE since its last read. -/
def showPools (s : State) : State :=
  let f := sharedFree s
  let s1 := put (put s Reg.bufShared f) Reg.bufMgmt (mgmtFree s)
  if f < get s1 Reg.bufMin then put s1 Reg.bufMin f else s1

/-- The shadow key of a stream entry (R454): its bytes 0 to 47 with VALID clear. -/
def streamKey (b : List Byte) : List Byte :=
  slice b 0 1 ++ [BitVec.ofNat 8 (setBits (u8 b 1) 0 1 0)] ++ slice b 2 46

/-- Is a mask all ones over some key bits, with the value given? -/
def pinned (key mask hi lo val : Nat) : Bool :=
  bitsAt mask lo (hi + 1 - lo) == 2 ^ (hi + 1 - lo) - 1 && bitsAt key lo (hi + 1 - lo) == val

/-- The rule of R152 on one rule with SAFETY set. -/
def safetyRuleOk (v : View) (b : List Byte) : Bool :=
  let key := keyNum (slice b 0 80)
  let mask := keyNum (slice b 80 80)
  let kind := bitsAt key 638 2
  bitsAt mask 638 2 == 3 && pinned key mask 637 635 0 && pinned key mask 621 621 0 &&
  (kind != 0 || (pinned key mask 622 622 0 && pinned key mask 624 624 0 && pinned key mask 623 623 0)) &&
  (match v.entry 0x0140 (leAt b 164 2) with
   | some st => bitAt (u8 st 1) 0 && slice st 48 16 == slice b 168 16
   | none => false)

/-- The depth of a vault slot under a configuration's recipes, following parents at most `fuel` times:
none when the chain breaks or does not end (R248). -/
def recipeDepth (v : View) (i : Nat) : Nat → Option Nat
  | 0 => none
  | fuel + 1 =>
    if i = 1 then some 0
    else match v.entry 0x0500 i with
      | some b => if bitAt (leAt b 0 2) 0 then (recipeDepth v (leAt b 2 2) fuel).map (· + 1) else none
      | none => none

/-- USAGE a recipe's parent must have: DERIVE, or VERIFY for an import (R246). -/
def recipeParentOk (v : View) (b : List Byte) : Bool :=
  let imp := bitAt (leAt b 0 2) 1
  let par := leAt b 2 2
  if par = 1 then !imp
  else match v.entry 0x0500 par with
    | some pb => bitAt (leAt pb 0 2) 0 && bitAt (u8 pb 8) (if imp then 1 else 2)
    | none => false

/-- MASTERS and USAGE of a vault slot as a configuration or the fixed attributes give them (R245,
R456). -/
def slotUse (v : View) (i : Nat) : Nat × Nat :=
  match v.entry 0x0500 i with
  | some b => if bitAt (leAt b 0 2) 0 ∧ i ≠ 0 then (u8 b 6, u8 b 8) else (0, 0)
  | none => (0, 0)

/-- LENGTH of a vault slot in a configuration, in bits; the fixed slots have 256. -/
def slotBits (v : View) (i : Nat) : Nat :=
  if i < 8 then 256 else match v.entry 0x0500 i with
    | some b => leAt b 4 2
    | none => 0

/-- May a consumer use a slot: its bit of MASTERS and a bit of USAGE. -/
def slotServes (v : View) (i master use : Nat) : Bool :=
  bitAt (slotUse v i).1 master && bitAt (slotUse v i).2 use

/-- A SECOC entry's rules that look at other entries (R235, R238, R245). -/
def secocCross (v : View) : Bool :=
  let es := (v.recs 0x0310).filter fun e => bitAt (leAt e.2 0 2) 0
  let ver := es.filter fun e => !bitAt (leAt e.2 0 2) 1
  let gen := es.filter fun e => bitAt (leAt e.2 0 2) 1
  let pair := fun (e : Nat × List Byte) => leAt e.2 4 2 * 65536 + leAt e.2 2 2
  noDup (ver.map fun e => leAt e.2 6 2 * 2 ^ 32 + leAt e.2 8 4) &&
  (es.all fun e => slotServes v (leAt e.2 4 2) 4 (if bitAt (leAt e.2 0 2) 1 then 0 else 1)) &&
  (gen.all fun g => ver.all fun e => pair g != pair e)

/-- The staging window a configuration gives (R351, R352). -/
def viewStage (v : View) : Option (Nat × Nat) := (v.entry 0x0700 0).map fun b => (leAt b 0 4, leAt b 4 4)

/-- A profile VALID in a configuration (R177). -/
def View.profValid (v : View) (p : Nat) : Bool :=
  match v.entry 0x0150 p with
  | some b => bitAt (u8 b 1) 0
  | none => p == 0

/-- The checks over a whole configuration (R71): the first section whose check fails. -/
def crossCheck (v : View) : Option Nat :=
  let fdb := (v.table 0x0100 2).filter fun e => bitAt (leAt e.2 10 2) 0
  let acts := actionsOf v
  let streams := (v.recs 0x0140).filter fun e => bitAt (u8 e.2 1) 0
  let safety := (v.recs 0x0120).filter fun e => bitAt (leAt e.2 162 2) 1
  let named := (safety.filter fun e => bitAt (leAt e.2 162 2) 0).map fun e => leAt e.2 164 2
  let nets := (v.table 0x0400 1)
  if 97280 < guaranteed v + 2048 then some 0x0100
  else if !noDup (fdb.map fun e => leAt e.2 0 8) then some 0x0100
  else match acts.find? fun a =>
      (leAt a.2 8 2 != 0xFFFF && !recBit v 0x0210 (leAt a.2 8 2) 0 0) ||
      (u8 a.2 0 == 4 && !recBit v 0x0300 (2 ^ 24 + leAt a.2 2 2) 0 0) with
  | some a => some a.1
  | none =>
    if !(safety.all fun e => safetyRuleOk v e.2) then some 0x0120
    else if !(streams.all fun e => named.contains e.1) then some 0x0140
    else if !noDup (streams.map fun e => beNat (streamKey e.2)) then some 0x0140
    else if !((v.table 0x0210 0).all fun e =>
        (leAt e.2 4 2 == 0xFFFF || recBit v 0x0210 (2 ^ 24 + leAt e.2 4 2) 0 0) &&
        (leAt e.2 6 2 == 0xFFFF || recBit v 0x0210 (2 * 2 ^ 24 + leAt e.2 6 2) 0 0)) then some 0x0210
    else if !secocCross v then some 0x0310
    else if !((v.table 0x0400 2).all fun e =>
        match v.entry 0x0400 (2 ^ 24 + u8 e.2 0) with
        | some nb => bitAt (leAt nb 0 2) 0 &&
            (u8 e.2 1 == 2 || (leAt e.2 2 2 < 256 && bitAt (leAt nb 8 32) (leAt e.2 2 2)))
        | none => false) then some 0x0400
    else if !(allIdx 256 fun n => (nets.filter fun e => bitAt (leAt e.2 8 32) n).length ≤ 1) then some 0x0400
    else if !((v.recs 0x0500).all fun e => e.1 == 0 || !bitAt (leAt e.2 0 2) 0 ||
        (recipeParentOk v e.2 && (recipeDepth v e.1 512).any (· ≤ 4))) then some 0x0500
    else if !(match v.entry 0x0600 0 with
        | some b =>
          (match v.entry 0x0700 0 with
           | some h => allIdx 64 fun q => u8 h (16 + q) != u8 b 2
           | none => allIdx 64 fun q => q / 2 != u8 b 2)
        | none => true) then some 0x0600
    else if !(match viewStage v with
        | some (base, size) => inRegion v base size fun r w => bitAt w 0 && bitAt r 2
        | none => true) then some 0x0700
    else if !spansApart (((v.table 0x0700 1).filter fun e => bitAt (leAt e.2 12 2) 0).map fun e =>
        (leAt e.2 0 8, leAt e.2 0 8 + leAt e.2 8 4 * 4096)) then some 0x0700
    else if !(v.profValid (match v.entry 0x0800 0 with | some b => u8 b 0 | none => 0)) then some 0x0800
    else if !((v.table 0x0800 1).all fun e => u8 e.2 1 == 0xFF || v.profValid (u8 e.2 1)) then some 0x0800
    else none

end Sys2Proof.Machine
end

