-- ==== Sys2Proof/Machine/Gates.lean ====
section
/-!
DEFINITION. What the traffic manager does by time (chapter 8): gate lists and flow gates on the working
clock, and the token buckets of shapers and meters. A token is held as 1/8,000,000 byte, so that a rate
of 1 kbit/s adds one per ns.
-/
namespace Sys2Proof.Machine

/-! Link speed and preemption of a port. -/

/-- Line rate of a SPEED code in Mbit/s (R104); 0 where nothing limits the port (P48, P49). -/
def speedMbps (code : Nat) : Nat :=
  match code with
  | 1 => 10
  | 2 => 100
  | 3 => 1000
  | 4 => 2500
  | 5 => 5000
  | 6 => 10000
  | 7 => 25000
  | _ => 0

/-- Line rate of a port now. -/
def portMbps (s : State) (p : Nat) : Nat := if p < 48 then speedMbps (get s (Reg.portStatusSpeed p)) else 0

/-- Line time of some bytes on a port, in ns rounded up. [DEDUCED, log 72] -/
def wireNs (s : State) (p bytes : Nat) : Nat :=
  if portMbps s p = 0 then 0 else divUp (bytes * 8000) (portMbps s p)

/-- Is a port UP: P0 to P47 by their link, P48 by R324, P49 always while the device forwards? -/
def portUp (s : State) (p : Nat) : Bool :=
  if p < 48 then flag s (Reg.portStatusLink p) else if p = 48 then p48Up s else aloft s

/-- Has the port frame preemption: P16 to P39 with PREEMPT_CAP (R92)? -/
def preemptCap (s : State) (p : Nat) : Bool := 16 ≤ p && p < 40 && flag s (Reg.portModePreemptCap p)

/-- Preemption is active: enabled, the port UP, and verification passed or disabled (R93). -/
def preemptActive (s : State) (p : Nat) : Bool :=
  preemptCap s p && cur s (Reg.portCtlPreemptEn p) == 1 && portUp s p &&
    (cur s (Reg.preemptCfgVerifyDis p) == 1 || get s (Reg.preemptStatusVerifySt p) == 3)

/-- Does a service node use the preemptable MAC now (R92, R93)? -/
def nodePreemptable (s : State) (p node : Nat) : Bool :=
  preemptActive s p && bitAt (cur s (Reg.preemptCfgPreemptable p)) node

/-- Smallest non-final fragment of a port: 64 * (1 + addFragSize) (R196). -/
def fragMin (s : State) (p : Nat) : Nat := 64 * (1 + cur s (Reg.preemptCfgAddFrag p))

/-! TM entries in a slot, with the defaults of R205. -/

/-- The TM port entry of a port. -/
def tmPortRec (s : State) (slot p : Nat) : List Byte :=
  (recOf s slot 0x0200 p).getD
    ([BitVec.ofNat 8 p, 0, 20, 0] ++ zeros 8 ++ ((List.range 8).map fun i => BitVec.ofNat 8 (8 * i)) ++ zeros 12)

/-- The TM leaf entry of a leaf. -/
def tmLeafRec (s : State) (slot p q : Nat) : List Byte :=
  (recOf s slot 0x0200 (2 ^ 24 + 64 * p + q)).getD ([BitVec.ofNat 8 (q / 8), 1] ++ zeros 14)

/-- OVH of a port (R191). -/
def ovhOf (s : State) (p : Nat) : Nat := u8 (tmPortRec s (curSlot s) p) 2

/-- Service node of a leaf. -/
def leafNode (s : State) (p q : Nat) : Nat := if q = 63 then 7 else u8 (tmLeafRec s (curSlot s) p q) 0

/-- Tokens of one byte. -/
def tokByte : Int := 8000000

/-- RATE and BURST of a leaf and of a port in a slot. -/
def leafShape (s : State) (slot p q : Nat) : Nat × Nat :=
  let b := tmLeafRec s slot p q
  (leAt b 4 4, leAt b 8 4)

/-- RATE and BURST of a port's shaper. -/
def portShape (s : State) (slot p : Nat) : Nat × Nat :=
  let b := tmPortRec s slot p
  (leAt b 4 4, leAt b 8 4)

/-- Tokens of a bucket at an instant: refilled at RATE and capped at BURST; one not yet used is full
(R186, R193). -/
def tokAt (shape : Nat × Nat) (b : Option Bucket) (now : Nat) : Int :=
  let cap : Int := shape.2 * tokByte
  match b with
  | none => cap
  | some x => min cap (x.tok + (shape.1 : Int) * ((now : Int) - x.asOf))

/-- Tokens of a leaf now. -/
def leafTok (s : State) (p q : Nat) : Int :=
  tokAt (leafShape s (curSlot s) p q) (s.tm.leafTok.find (64 * p + q)) s.time.now

/-- Tokens of a port's shaper now. -/
def portTok (s : State) (p : Nat) : Int := tokAt (portShape s (curSlot s) p) (s.tm.portTok.find p) s.time.now

/-- Whole signed bytes of a token count, as the registers show them. [DEDUCED, log 71] -/
def tokBytes (t : Int) : Nat := unsigned 32 (t / tokByte)

/-- Ns until negative tokens return to 0. -/
def tokWait (rate : Nat) (t : Int) : Nat := if t < 0 ∧ rate ≠ 0 then divUp (-t).toNat rate else 0

/-- A wheel entry for negative tokens: the instant they return to 0; the rounds count is noted in
MAX_ROUNDS (R190). -/
def placeOnWheel (s : State) (rate : Nat) (t : Int) : Option Nat × State :=
  let d := tokWait rate t
  if d = 0 then (none, s)
  else (some (s.time.now + d), raiseTo s Reg.wheelRounds (divUp d 64 / 4096))

/-- Is a leaf's queue empty? -/
def leafEmpty (s : State) (p q : Nat) : Bool := ((s.net.queues.find (64 * p + q)).getD []).isEmpty

/-- Is every leaf queue of a port empty? -/
def portEmpty (s : State) (p : Nat) : Bool := s.net.queues.all fun e => e.1 / 64 != p || e.2.isEmpty

/-- A leaf's bucket charged; it goes on the wheel when negative with frames waiting (R186). -/
def chargeLeaf (s : State) (p q : Nat) (bytes : Int) : State :=
  let sh := leafShape s (curSlot s) p q
  if sh.1 = 0 then s
  else
    let t := leafTok s p q - bytes * tokByte
    let w := if leafEmpty s p q then (none, s) else placeOnWheel s sh.1 t
    { w.2 with tm.leafTok := w.2.tm.leafTok.set (64 * p + q) ⟨t, s.time.now, w.1⟩ }

/-- A port's bucket charged; like a leaf's it goes on the wheel when negative with frames waiting (R188). -/
def chargePort (s : State) (p : Nat) (bytes : Int) : State :=
  let sh := portShape s (curSlot s) p
  if sh.1 = 0 then s
  else
    let t := portTok s p - bytes * tokByte
    let w := if portEmpty s p then (none, s) else placeOnWheel s sh.1 t
    { w.2 with tm.portTok := w.2.tm.portTok.set p ⟨t, s.time.now, w.1⟩ }

/-- A leaf that gains a frame while its tokens are negative goes on the wheel, unless it is there. -/
def wheelIfNegative (s : State) (p q : Nat) : State :=
  let sh := leafShape s (curSlot s) p q
  match s.tm.leafTok.find (64 * p + q) with
  | some b =>
    if b.wheel.isSome ∨ sh.1 = 0 then s
    else
      let w := placeOnWheel s sh.1 (leafTok s p q)
      { w.2 with tm.leafTok := w.2.tm.leafTok.set (64 * p + q) { b with wheel := w.1 } }
  | none => s

/-- A port that gains a frame while its shaper's tokens are negative goes on the wheel, unless it is there.
[DEDUCED, log 71] -/
def portIfNegative (s : State) (p : Nat) : State :=
  let sh := portShape s (curSlot s) p
  match s.tm.portTok.find p with
  | some b =>
    if b.wheel.isSome ∨ sh.1 = 0 then s
    else
      let w := placeOnWheel s sh.1 (portTok s p)
      { w.2 with tm.portTok := w.2.tm.portTok.set p { b with wheel := w.1 } }
  | none => s

/-- Is a leaf's shaper eligible: unshaped, or tokens at least 0 and no entry on the wheel (R186)? [DEDUCED, log 71] -/
def leafEligible (s : State) (p q : Nat) : Bool :=
  (leafShape s (curSlot s) p q).1 == 0 ||
    (decide (0 ≤ leafTok s p q) && ((s.tm.leafTok.find (64 * p + q)).all fun b => b.wheel.isNone))

/-- Does the port shaper let a frame start (R188)? -/
def portEligible (s : State) (p : Nat) : Bool :=
  (portShape s (curSlot s) p).1 == 0 ||
    (decide (0 ≤ portTok s p) && ((s.tm.portTok.find p).all fun b => b.wheel.isNone))

/-- A shaper's wheel entry fires when its tokens have returned to 0 (R190). [DEDUCED, log 71] -/
def wheelFire (s : State) (t : WheelTarget) : State :=
  let fire := fun (m : SMap Bucket) (k : Nat) =>
    match m.find k with
    | some b => if b.wheel.any (fun d => decide (d ≤ s.time.now)) then m.set k { b with wheel := none } else m
    | none => m
  match t with
  | .leaf p q => { s with tm.leafTok := fire s.tm.leafTok (64 * p.val + q.val) }
  | .port p => { s with tm.portTok := fire s.tm.portTok p.val }

/-- A bucket reset by a commit: full, or empty with RESET_ZERO, and off the wheel (R192). -/
def reseed (s : State) (burst : Nat) (zero : Bool) : Bucket := ⟨if zero then 0 else burst * tokByte, s.time.now, none⟩

/-- Shaper reconfiguration at T+0 (R192), from the former slot to the current one. -/
def reshapePort (old : Nat) (p : Nat) (s : State) : State :=
  let c := curSlot s
  let a := tmPortRec s old p
  let b := tmPortRec s c p
  let s1 := if slice a 4 8 ≠ slice b 4 8 ∨ u8 a 2 ≠ u8 b 2 then
      { s with tm.portTok := s.tm.portTok.set p (reseed s (leAt b 8 4) (bitAt (u8 b 1) 0)) } else s
  forIdx 64 (fun q st =>
    let x := tmLeafRec s old p q
    let y := tmLeafRec s c p q
    if slice x 4 8 ≠ slice y 4 8 then
      { st with tm.leafTok := st.tm.leafTok.set (64 * p + q) (reseed s (leAt y 8 4) (bitAt (u8 y 2) 0)) }
    else st) s1

/-! Flow meters (R183, R184). -/

/-- Colours: green, yellow, red. -/
inductive Colour where
  | green | yellow | red
deriving DecidableEq, Repr

/-- A meter's buckets refilled to an instant; with COUPLE, what C cannot hold goes into E. -/
def refill (b : List Byte) (m : Option Meter) (now : Nat) : Meter :=
  let capC : Int := leAt b 8 4 * tokByte
  let capE : Int := leAt b 16 4 * tokByte
  match m with
  | none => ⟨capC, capE, now⟩
  | some x =>
    let dt : Int := (now : Int) - x.asOf
    let c := x.c + leAt b 4 4 * dt
    let spill := if bitAt (leAt b 0 2) 2 ∧ capC < c then c - capC else 0
    ⟨min capC c, min capE (x.e + leAt b 12 4 * dt + spill), now⟩

/-- A frame of `l` bytes coloured, and the bucket charged: true for C (R183). A meter with CIR 0 and EIR
0 colours every frame red. -/
def colourOf (b : List Byte) (m : Meter) (yellowIn : Bool) (l : Nat) : Colour × Option Bool × Meter :=
  let n : Int := l * tokByte
  if leAt b 4 4 = 0 ∧ leAt b 12 4 = 0 then (.red, none, m)
  else if !(yellowIn && bitAt (leAt b 0 2) 1) ∧ n ≤ m.c then (.green, some true, { m with c := m.c - n })
  else if n ≤ m.e then (.yellow, some false, { m with e := m.e - n })
  else (.red, none, m)

/-- Meters whose CIR, CBS, EIR or EBS changes are set at T+0: full, or empty with RESET_ZERO (R184). -/
def remeter (old : Nat) (s : State) : State :=
  let c := curSlot s
  let ids := (recsOf s c 0x0210).filterMap fun e => if e.1 / 2 ^ 24 = 1 then some e else none
  ids.foldl (fun st e =>
    let was := (recOf s old 0x0210 e.1).map fun b => slice b 4 16
    if was = some (slice e.2 4 16) then st
    else
      let z := bitAt (leAt e.2 0 2) 4
      let m : Meter := ⟨if z then 0 else leAt e.2 8 4 * tokByte, if z then 0 else leAt e.2 16 4 * tokByte, s.time.now⟩
      { st with tm.meters := st.tm.meters.set (e.1 % 2 ^ 24) m }) s

/-! Positions in a list of intervals. -/

/-- The entry in force at a position of a cycle, and the position inside it. -/
def entryAt : List Nat → Nat → Nat × Nat
  | [], _ => (0, 0)
  | d :: ds, pos =>
    if pos < d then (0, pos)
    else
      let r := entryAt ds (pos - d)
      (r.1 + 1, r.2)

/-- INTERVAL fields in ns: of a gate list (8-byte entries) or a flow gate (16-byte entries). -/
def intervals (b : List Byte) (count step : Nat) : List Nat :=
  (List.range count).map fun i => 8 * leAt b (32 + step * i + 4) 4

/-- Position in a cycle that starts at BASE_TIME + N * CYCLE, and the cycle's start. -/
def cyclePos (b : List Byte) (w : Int) : Nat × Int :=
  let cyc : Int := 8 * leAt b 4 4
  let pos := if cyc = 0 then 0 else ((w - leAt b 8 8) % cyc).toNat
  (pos, w - pos)

/-! Flow gates (R185). -/

/-- A flow gate's list in the current slot. -/
def flowList (s : State) (g : Nat) : List Byte := (recOf s (curSlot s) 0x0210 (2 * 2 ^ 24 + g)).getD []

/-- The entry in force of a flow gate and the working-clock start of its interval. -/
def flowEntry (s : State) (g : Nat) : Nat × Int :=
  let b := flowList s g
  let w := wcNow s
  let c := cyclePos b w
  let e := entryAt (intervals b (u8 b 2) 16) c.1
  (e.1, w - e.2)

/-- Sticky closes of a flow gate. -/
def flowSticky (s : State) (g : Nat) : Bool :=
  flag s (Reg.fgStateClosedInvalidRx g) || flag s (Reg.fgStateClosedOctets g)

/-- A flow gate brought to the entry in force now; the octet count restarts with each interval. -/
def flowSync (s : State) (g : Nat) : State :=
  let b := flowList s g
  if b.isEmpty then s
  else
    let e := flowEntry s g
    let x := slice b (32 + 16 * e.1) 16
    let s1 := if s.tm.flowAt.find g = some e.2 then s
      else { s with tm.flowAt := s.tm.flowAt.set g e.2, tm.octets := s.tm.octets.del g }
    let s2 := put (put s1 (Reg.fgStateEntry g) e.1) (Reg.fgStateIpv g) (if u8 x 1 = 0xFF then 0 else u8 x 1)
    putFlag (putFlag s2 (Reg.fgStateIpvValid g) (u8 x 1 != 0xFF)) (Reg.fgStateOpen g) (u8 x 0 == 1 && !flowSticky s g)

/-- REOPEN clears both sticky closes. -/
def flowReopen (s : State) (g : Nat) : State :=
  flowSync (put (put s (Reg.fgStateClosedInvalidRx g) 0) (Reg.fgStateClosedOctets g) 0) g

/-! Gate lists (R194 to R201). -/

/-- The gate lists of a port. -/
def gatesOf (s : State) (p : Nat) : Gates := (s.tm.gates.find p).getD ⟨none, none, 0, false⟩

/-- A gate list's entries: gates and ns. -/
def gateEntries (b : List Byte) : List (Nat × Nat) :=
  (List.range (leAt b 2 2)).map fun i => (u8 b (32 + 8 * i), 8 * leAt b (32 + 8 * i + 4) 4)

/-- Entry in force of a gate list at a working-clock time, with the ns since it began. -/
def gateEntry (b : List Byte) (w : Int) : Nat × Nat :=
  entryAt (intervals b (leAt b 2 2) 8) (cyclePos b w).1

/-- Gate states of a port now (R195): all open without an operating list. -/
def gateStates (s : State) (p : Nat) : Nat :=
  match (gatesOf s p).oper with
  | some b => u8 b (32 + 8 * (gateEntry b (wcNow s)).1)
  | none => 255

/-- Transmissions on a port: each MAC with the service node of its frame. -/
def transmitting (s : State) (p : Nat) : List (Nat × Tx) :=
  [2 * p, 2 * p + 1].filterMap fun k => (s.net.macs.find k).map fun t => (k, t)

/-- A frame whose gate closes under it: counted once in TX_OVERRUN (R196, R198); on the preemptable MAC
with preemption active it is preempted instead. -/
def gateClosesOn (s : State) (p closed : Nat) : State :=
  (transmitting s p).foldl (fun st e =>
    if bitAt closed (leafNode s p e.2.leaf) ∧ !e.2.overrun ∧ !(e.1 % 2 = 1 ∧ preemptActive s p) then
      bump { st with net.macs := st.net.macs.set e.1 { e.2 with overrun := true } } (Reg.tmTxTxOverrun p)
    else st) s

/-- Is the preemptable MAC held: by a Set-And-Hold-MAC operation, or because the gate of a preemptable node is closed
(R196, R200)? -/
def macHeld (s : State) (p : Nat) : Bool :=
  preemptActive s p &&
    ((gatesOf s p).hold ||
      (List.range 8).any fun n => bitAt (cur s (Reg.preemptCfgPreemptable p)) n && !bitAt (gateStates s p) n)

/-! The preemptable MAC (R92, R188, R196). -/

/-- Bytes of the frame on the preemptable MAC that have left by an instant: those of its fragments so far, and what of
the one on the line has followed its preamble. [DEDUCED, log 126] -/
def sentBy (s : State) (p : Nat) (t : Tx) (at_ : Nat) : Nat :=
  min t.bytes.length (t.sent + ((at_ - t.startAt) * portMbps s p / 8000 - 8))

/-- The next permitted point of the fragment on the line: it carries 64 * (1 + addFragSize) - 4 bytes or more, and what
is left makes a last fragment of 64 bytes; none where the frame runs to its end. [DEDUCED, log 126] -/
def cutInstant (s : State) (p : Nat) (t : Tx) : Option Nat :=
  let c := max s.time.now (t.startAt + wireNs s p (8 + (fragMin s p - 4)))
  if sentBy s p t c + 60 ≤ t.bytes.length then some c else none

/-- The fragment on the line ends at an instant: it leaves with its frame's number and its count, and the line time of
the rest of the frame is that of a further fragment. [DEDUCED, log 126] -/
def endFragment (s : State) (p : Nat) (t : Tx) (c : Nat) : State :=
  let n := sentBy s p t c
  let t1 := { t with running := false, sent := n, frags := t.frags + 1, cutAt := none,
                     rest := wireNs s p (t.bytes.length - n + 24) }
  emit { s with net.macs := s.net.macs.set (2 * p + 1) t1 }
    (.mpacket p (if t.frags = 0 then .start else .cont) t.number ((t.frags - 1) % 4) (slice t.bytes t.sent (n - t.sent)))

/-- A fragment whose end was due by now has ended. -/
def reachCut (s : State) (p : Nat) : State :=
  match s.net.macs.find (2 * p + 1) with
  | some t =>
    (match t.cutAt with
     | some c => if t.running ∧ c ≤ s.time.now then endFragment s p t c else s
     | none => s)
  | none => s

/-- The egress timestamp of a frame that starts now (R90): that of the first bit after its preamble and SFD.
[DEDUCED, log 56] -/
def egressStamp (s : State) (p : Nat) : Nat :=
  let t := s.time.now + wireNs s p 8
  if 12 ≤ p ∧ p ≤ 15 then t - leAt (laneEntry (slotView s (curSlot s)) (p - 12)) 6 2 else t

/-- The frame on the preemptable MAC starts or goes on; its timestamp is taken at its first fragment (R90). -/
def runPreemptable (s : State) (p : Nat) (t : Tx) : State :=
  let t1 := if t.running then { t with cutAt := none }
    else { t with running := true, startAt := s.time.now, egress := if t.frags = 0 then egressStamp s p else t.egress }
  { s with net.macs := s.net.macs.set (2 * p + 1) t1 }

/-- The frame on the preemptable MAC is to stop: now, at its next permitted point, or not before its end. -/
def stopPreemptable (s : State) (p : Nat) (t : Tx) : State :=
  if !t.running ∨ t.cutAt.isSome then s
  else match cutInstant s p t with
    | some c =>
      if c ≤ s.time.now then endFragment s p t c
      else { s with net.macs := s.net.macs.set (2 * p + 1) { t with cutAt := some c } }
    | none => s

/-- The frame on the preemptable MAC runs only while the MAC is not held and the express MAC is quiet (R188, R196). -/
def settlePreempt (s : State) (p : Nat) : State :=
  let s1 := reachCut s p
  match s1.net.macs.find (2 * p + 1) with
  | none => s1
  | some t => if macHeld s1 p || s1.net.macs.has (2 * p) then stopPreemptable s1 p t else runPreemptable s1 p t

/-- May an express frame start now: the preemptable MAC is quiet, or its frame may be interrupted now?
[DEDUCED, log 126] -/
def mayInterrupt (s : State) (p : Nat) : Bool :=
  (s.net.macs.find (2 * p + 1)).all fun t =>
    !t.running || (preemptActive s p && (cutInstant s p t).any fun c => decide (c ≤ s.time.now))

/-- The registers that show a port's gates. -/
def showGates (s : State) (p : Nat) : State :=
  let g := gatesOf s p
  let s1 := putFlag (putFlag s (Reg.tmGateGatesEn p) g.oper.isSome) (Reg.tmGatePending p) g.pend.isSome
  let s2 := put s1 (Reg.tmSwitchAt p) (if g.pend.isSome then g.switchAt.toNat else 0)
  let e := match g.oper with
    | some b => (gateEntry b (wcNow s)).1
    | none => 0
  putFlag (put (put s2 (Reg.tmGateOperStates p) (gateStates s p)) (Reg.tmGateEntry p) e) (Reg.tmGateHeld p) (macHeld s p)

/-- Does an entry with OP 1 begin within `adv` ns, and before `lim`, among entries of OP and ns of which the first
begins in `ahead` ns? -/
def holdAhead (adv lim : Nat) : Nat → List (Nat × Nat) → Bool
  | _, [] => false
  | ahead, (op, d) :: r => decide (ahead ≤ adv ∧ ahead < lim) && (op == 1 || holdAhead adv lim (ahead + d) r)

/-- A gate list's entries: OP and ns. -/
def gateOps (b : List Byte) : List (Nat × Nat) :=
  (List.range (leAt b 2 2)).map fun i => (u8 b (32 + 8 * i + 1), 8 * leAt b (32 + 8 * i + 4) 4)

/-- HOLD_ADV of a gate list in ns. -/
def holdAdv (b : List Byte) : Nat := 8 * leAt b 16 2

/-- Is a hold to be issued by now for an entry that is yet to begin, in the operating list or from the takeover on in
the pending one (R200)? -/
def holdDue (s : State) (p : Nat) : Bool :=
  let g := gatesOf s p
  let till := (g.switchAt - wcNow s).toNat
  (g.oper.any fun b =>
    let e := gateEntry b (wcNow s)
    let ops := gateOps b
    let left := 8 * leAt b (32 + 8 * e.1 + 4) 4 - e.2
    holdAhead (holdAdv b) (if g.pend.isSome then till else left + holdAdv b + 1) left (ops.drop (e.1 + 1) ++ ops.take (e.1 + 1))) ||
  (g.pend.any fun b => holdAhead (holdAdv b) (holdAdv b + 1) till (gateOps b))

/-- The hold or release operation of the entry in force, on a port with preemption active (R200). -/
def gateOp (s : State) (p : Nat) : State :=
  let g := gatesOf s p
  match g.oper with
  | none => { s with tm.gates := s.tm.gates.set p { g with hold := false } }
  | some b =>
    let op := u8 b (32 + 8 * (gateEntry b (wcNow s)).1 + 1)
    if !preemptActive s p ∨ op = 0 then s
    else { s with tm.gates := s.tm.gates.set p { g with hold := op == 1 || holdDue s p } }

/-- A port's gates brought to the entry in force now: the pending list takes over at its switch instant
(R198), closing gates act on frames in transmission, and the hold operation of the entry is done. [DEDUCED, log 72] -/
def gateSync (s : State) (p : Nat) : State :=
  let g := gatesOf s p
  let due := g.pend.isSome && decide (g.switchAt ≤ wcNow s)
  if g.oper.isNone ∧ !due then s
  else
    let s1 := if due then
        bump { s with tm.gates := s.tm.gates.set p { g with oper := g.pend, pend := none } } (Reg.tmTxTakeovers p)
      else s
    let was := get s (Reg.tmGateOperStates p)
    let now := gateStates s1 p
    let newEntry := due || (match g.oper with
      | some b => (gateEntry b (wcNow s)).1 != get s (Reg.tmGateEntry p)
      | none => true)
    let s2 := gateClosesOn s1 p (was - (was &&& now))
    showGates (settlePreempt (if newEntry then gateOp s2 p else s2) p) p

/-- MAC_HOLD_ISSUE (R200): HOLD_ADV before a Set-And-Hold-MAC entry begins, the hold is issued. -/
def macHoldIssue (s : State) (p : Nat) : State :=
  let s1 := gateSync s p
  if preemptActive s1 p ∧ holdDue s1 p then
    showGates (settlePreempt { s1 with tm.gates := s1.tm.gates.set p { gatesOf s1 p with hold := true } } p) p
  else s1

/-- The switch instant of a list installed at T+0 on the working clock (R198). -/
def switchInstant (b : List Byte) (t0 : Int) : Int :=
  let base : Int := leAt b 8 8
  let cyc : Int := 8 * leAt b 4 4
  if !bitAt (leAt b 0 2) 2 ∧ base ≤ t0 then t0
  else if t0 ≤ base ∨ cyc = 0 then base
  else base + (t0 - base + cyc - 1) / cyc * cyc

/-- Gate list install at T+0 (R198, R199): an enabled list becomes the pending one; a list that is not
enabled, or none, discards what is pending and opens every gate. -/
def installGates (s : State) (p : Nat) (b : Option (List Byte)) (t0 : Int) : State :=
  let g := gatesOf s p
  match b with
  | some x =>
    if bitAt (leAt x 0 2) 0 then
      let s1 := if g.pend.isSome then bump s (Reg.tmFitSuperseded p) else s
      let s2 := { s1 with tm.gates := s1.tm.gates.set p { g with pend := some x, switchAt := switchInstant x t0 } }
      gateSync (showGates s2 p) p
    else showGates (settlePreempt { s with tm.gates := s.tm.gates.del p } p) p
  | none => showGates (settlePreempt { s with tm.gates := s.tm.gates.del p } p) p

/-- The lists a commit changes, installed at T+0. -/
def installChanged (s : State) (old : Nat) (t0 : Int) : State :=
  forIdx 48 (fun p st =>
    let b := recOf s (curSlot s) 0x0220 p
    if recOf s old 0x0220 p = b then st else installGates st p b t0) s

/-! Length-aware admission (R196, R197). -/

/-- Ns the gate stays open from the head of a list of open times on, and whether it never closes in it. -/
def openLead : List (Bool × Nat) → Nat × Bool
  | [] => (0, true)
  | (o, d) :: es =>
    if o then
      let r := openLead es
      (d + r.1, r.2)
    else (0, false)

/-- Ns until a node's gate next closes; none where nothing closes it. The operating list governs up to the takeover
instant of a pending list, and from there the pending list from its first entry. [DEDUCED, log 72] -/
def untilClose (s : State) (p node : Nat) : Option Nat :=
  let g := gatesOf s p
  let own := match g.oper with
    | none => none
    | some b =>
      let es := (gateEntries b).map fun e => (bitAt e.1 node, e.2)
      let e := gateEntry b (wcNow s)
      let r := openLead (es.drop e.1 ++ es.take e.1)
      if r.2 then none else some (r.1 - e.2)
  match g.pend with
  | none => own
  | some b =>
    let d := (g.switchAt - wcNow s).toNat
    let r := openLead ((gateEntries b).map fun e => (bitAt e.1 node, e.2))
    let after := if r.2 then none else some (d + r.1)
    match own with
    | some a => if a < d then some a else after
    | none => after

/-- The longest unbroken open time of a node's gate in the operating list; none if it never closes. -/
def longestOpen (s : State) (p node : Nat) : Option Nat :=
  match (gatesOf s p).oper with
  | none => none
  | some b =>
    let es := (gateEntries b).map fun e => (bitAt e.1 node, e.2)
    if es.all fun e => e.1 then none
    else some (((List.range es.length).map fun i => (openLead (es.drop i ++ es.take i)).1).foldl max 0)

/-- LENGTH_AWARE of the list that governs: the operating one, or the pending one before any operates. -/
def lengthAware (s : State) (p : Nat) : Bool :=
  let g := gatesOf s p
  match g.oper, g.pend with
  | some b, _ => bitAt (leAt b 0 2) 1
  | none, some b => bitAt (leAt b 0 2) 1
  | none, none => false

/-- Line time that must fit before the gate closes: the whole frame, or one smallest fragment where the
node is preemptable (R196). -/
def fitNs (s : State) (p node wire : Nat) : Nat :=
  wireNs s p (if nodePreemptable s p node then min wire (fragMin s p + ovhOf s p) else wire)

/-- Does a head of `wire` bytes fit before its gate closes? -/
def fits (s : State) (p node wire : Nat) : Bool :=
  !lengthAware s p || (untilClose s p node).all fun t => decide (fitNs s p node wire ≤ t)

/-- Can a head of `wire` bytes never fit (R197)? -/
def neverFits (s : State) (p node wire : Nat) : Bool :=
  lengthAware s p && (longestOpen s p node).any fun t => decide (t < wireNs s p wire)

/-! Meanings. -/

/-- FLOW_GATE_ENTRY. -/
def execFlowGateEntry (g : Fin 1024) (s : State) : Host.Outcome State Fault Refusal := .next (flowSync s g)

/-- FLOW_GATE_REOPEN. -/
def execFlowGateReopen (m : Master) (g : Fin 1024) (s : State) : Host.Outcome State Fault Refusal :=
  .next (accessWrite s m (0x940004 + 8 * g.val) fun st => flowReopen st g)

/-- STREAM_FILTER_UNBLOCK. -/
def execStreamFilterUnblock (m : Master) (f : Fin 8192) (s : State) : Host.Outcome State Fault Refusal :=
  .next (accessWrite s m (0x90000C + 16 * f.val) fun st => put st (Reg.sfStateBlocked f) 0)

/-- GATE_ENTRY_CHANGE. -/
def execGateEntryChange (p : Fin 50) (s : State) : Host.Outcome State Fault Refusal := .next (gateSync s p)

/-- MAC_HOLD_ISSUE. -/
def execMacHoldIssue (p : Fin 50) (s : State) : Host.Outcome State Fault Refusal := .next (macHoldIssue s p)

/-- GATE_SWITCH. -/
def execGateSwitch (p : Fin 50) (s : State) : Host.Outcome State Fault Refusal := .next (gateSync s p)

end Sys2Proof.Machine
end

