-- ==== Sys2Proof/Machine/Cells.lean ====
section
/-!
DEFINITION. The cell buffer (R114 to R117), the frames in it and their in-flight counts (R75), and the
pipeline slot accounting (R375, R376).
-/
namespace Sys2Proof.Machine

/-! Pipeline slots. -/

/-- A 64-bit count raised by one. -/
def count64 (s : State) (f : Fld) : State := put s f (get s f + 1)

/-- A 64-bit count lowered by one. -/
def uncount64 (s : State) (f : Fld) : State := put s f (get s f + (2 ^ 64 - 1))

/-- One pipeline cycle counted in SLOT_TOTAL and in one of the four classes (R375). [DESIGN CHOICE, log 60] -/
def countSlot (s : State) (cls : Fld) : State := count64 (count64 s Reg.slotTotal) cls

/-- A slot granted to a unit, retired. -/
def slotRetire (s : State) : State := { countSlot s Reg.slotRetired with net.slotUsed := s.net.slotUsed + 1 }

/-- A slot granted to a unit, wasted. -/
def slotWaste (s : State) : State := { countSlot s Reg.slotWasted with net.slotUsed := s.net.slotUsed + 1 }

/-- Units dropped under R146; a privileged counter (R382). -/
def cntShadowMismatch : Fld := ⟨15, 0xC00100, 0, 32, .rc, 0⟩

/-- Injected shadow pairs flagged (R147); a privileged counter (R382). -/
def cntSelftestPasses : Fld := ⟨15, 0xC00104, 0, 32, .rc, 0⟩

/-! Port statistics (R380). -/

/-- An object of the port statistics raised; 64 bits, under port * 32 + index. -/
def mib (s : State) (p i n : Nat) : State :=
  { s with net.mib := s.net.mib.set (32 * p + i) (((s.net.mib.find (32 * p + i)).getD 0 + n) % 2 ^ 64) }

/-- A counter of what a port receives; the ingress counters of P49 to P51 read zero (chapter 5). -/
def countIn (s : State) (p : Nat) (f : Fld) : State :=
  let o := (f.addr - 0x501000) % 0x40
  if 49 ≤ p ∧ 0x501000 ≤ f.addr ∧ f.addr < 0x501D00 ∧ 0x14 ≤ o ∧ o ≤ 0x28 then s else bump s f

/-! FORWARDING entries in a slot, with the defaults of R128. -/

/-- The port entry of a port. -/
def fwdPort (s : State) (slot p : Nat) : List Byte :=
  (recOf s slot 0x0100 p).getD
    ([BitVec.ofNat 8 p, 0x0C, 1, 0, 0, 4, 40, 0] ++ zeros 40)

/-- The globals; absent ones guarantee nothing. -/
def fwdGlobals (s : State) (slot : Nat) : List Byte :=
  (recOf s slot 0x0100 (5 * 2 ^ 24)).getD (leBytes 4 300 ++ leBytes 1 3 ++ zeros 11)

/-- The VLAN entry of a VID, if it is valid. -/
def vlanOf (s : State) (slot vid : Nat) : Option (List Byte) :=
  match recOf s slot 0x0100 (2 ^ 24 + vid) with
  | some b => if bitAt (leAt b 2 2) 0 then some b else none
  | none => none

/-- A replication group, if it is valid: its ports and whether it is ATOMIC. -/
def groupOf (s : State) (slot g : Nat) : Option (Nat × Bool) :=
  match recOf s slot 0x0100 (3 * 2 ^ 24 + g) with
  | some b => if bitAt (leAt b 8 2) 0 then some (leAt b 0 8, bitAt (leAt b 8 2) 1) else none
  | none => none

/-- Guaranteed cells of a port in a slot: GUAR, P50_GUAR or P51_GUAR. -/
def guarOf (s : State) (slot p : Nat) : Nat :=
  if p = 50 then leAt (fwdGlobals s slot) 6 2
  else if p = 51 then leAt (fwdGlobals s slot) 8 2
  else leAt (fwdPort s slot p) 8 4

/-! Pools (R114). -/

/-- Cells of a port's guarantee in use. -/
def guarUsed (s : State) (p : Nat) : Nat := (s.net.guarUsed.find p).getD 0

/-- Cells taken from a pool: 1 management, 2 guaranteed to a port, 3 shared. -/
def takeCells (s : State) (pool port n : Nat) : State :=
  showPools (match pool with
    | 1 => { s with net.mgmtUsed := s.net.mgmtUsed + n }
    | 2 => { s with net.guarUsed := s.net.guarUsed.set port (guarUsed s port + n) }
    | 3 => { s with net.sharedUsed := s.net.sharedUsed + n }
    | _ => s)

/-- Cells returned to a pool. -/
def giveCells (s : State) (pool port n : Nat) : State :=
  showPools (match pool with
    | 1 => { s with net.mgmtUsed := s.net.mgmtUsed - n }
    | 2 =>
      let left := if guarUsed s port ≤ n then none else some (guarUsed s port - n)
      { s with net.guarUsed := s.net.guarUsed.put port left }
    | 3 => { s with net.sharedUsed := s.net.sharedUsed - n }
    | _ => s)

/-- The slot a frame grows under: its own, or the current one once the drain limit has freed that. -/
def growSlot (s : State) (pk : Packet) : Nat :=
  match pk.slot with
  | some i => if i < 4 then i else curSlot s
  | none => curSlot s

/-- Has the pool a frame was admitted to some more cells for it (R117)? -/
def poolHas (s : State) (pk : Packet) (n : Nat) : Bool :=
  match pk.pool with
  | 1 => n ≤ mgmtFree s
  | 2 => guarUsed s pk.poolPort + n ≤ guarOf s (growSlot s pk) pk.poolPort
  | 3 => n ≤ sharedFree s
  | _ => true

/-! In-flight counts (R75). -/

/-- A unit is tagged with a slot. -/
def tagUnit (s : State) (slot : Nat) : State :=
  put s (Reg.inflightCount slot) (get s (Reg.inflightCount slot) + 1)

/-- A unit of a slot has left or is discarded. A number of 4 or more stands for a slot that has been freed under the
drain limit. -/
def untagUnit (s : State) (slot : Nat) : State :=
  if slot < 4 then put s (Reg.inflightCount slot) (get s (Reg.inflightCount slot) - 1) else s

/-! Frames. -/

/-- The frame under a number. -/
def packetOf (s : State) (u : Nat) : Option Packet := s.net.packets.find u

/-- A frame changed. -/
def setPacket (s : State) (u : Nat) (pk : Packet) : State :=
  { s with net.packets := s.net.packets.set u pk }

/-- Length of a frame as R82 counts it: destination address to FCS. -/
def frameLen (pk : Packet) : Nat := pk.bytes.length + 4

/-- Cells of a length (R116). [DEDUCED, log 66] -/
def cellsFor (len : Nat) : Nat := divUp len 256

/-- The first frame, in order of arrival, with a property. -/
def firstPacket (s : State) (p : Packet → Bool) : Option (Nat × Packet) :=
  s.net.packets.find? fun e => p e.2

/-- Completions waiting for a frame's cells fall ready when they free (R339). -/
def cellsFreed (s : State) (u : Nat) : State :=
  { s with host.rings := s.host.rings.mapVals fun _ r =>
      { r with waiting := r.waiting.map fun w => if w.unit = some u then { w with ready := true, unit := none } else w } }

/-- A frame has no replica left or is dropped: its cells free and its in-flight count falls; what is
still arriving of it is absorbed (R75, R116). -/
def freePacket (s : State) (u : Nat) : State :=
  match packetOf s u with
  | none => s
  | some pk =>
    if pk.dropped then (if pk.come then { s with net.packets := s.net.packets.del u } else s)
    else
      let s1 := giveCells s pk.pool pk.poolPort pk.cells
      let s2 := match pk.slot with
        | some i => untagUnit s1 i
        | none => s1
      let s3 := if pk.come then { s2 with net.packets := s2.net.packets.del u }
        else setPacket s2 u { pk with dropped := true, decided := true, pool := 0, cells := 0, refs := 0, hold := none }
      cellsFreed s3 u

/-- A frame dropped by what counts as policy after its decision: its slot never moves (R376). -/
def dropPolicy (s : State) (u : Nat) : State :=
  match packetOf s u with
  | none => s
  | some pk => freePacket (setPacket s u { pk with slotCounted := false }) u

/-- One replica of a frame has left or is discarded. -/
def releaseRef (s : State) (u : Nat) : State :=
  match packetOf s u with
  | none => s
  | some pk => if pk.refs ≤ 1 then freePacket s u else setPacket s u { pk with refs := pk.refs - 1 }

/-- One replica of a frame is discarded by egress containment (R376). -/
def releasePolicy (s : State) (u : Nat) : State :=
  match packetOf s u with
  | none => s
  | some pk => if pk.refs ≤ 1 then dropPolicy s u else releaseRef s u

/-- A unit found bad after its decision: its slot moves from RETIRED to WASTED, once, unless one of its
replicas has completed transmission (R376). -/
def moveWasted (s : State) (u : Nat) : State :=
  match packetOf s u with
  | none => s
  | some pk =>
    if pk.slotCounted ∧ !pk.sent then
      let s1 := setPacket s u { pk with slotCounted := false }
      bump (count64 (uncount64 s1 Reg.slotRetired) Reg.slotWasted) Reg.wastedTail
    else s

/-! Leaf queues. -/

/-- The queue of a leaf. -/
def queueOf (s : State) (p q : Nat) : List Replica := (s.net.queues.find (64 * p + q)).getD []

/-- A leaf's queue set. -/
def setQueue (s : State) (p q : Nat) (l : List Replica) : State :=
  { s with net.queues := s.net.queues.put (64 * p + q) (if l.isEmpty then none else some l) }

/-- Replicas on a leaf: queued, and in transmission from it. [DEDUCED, log 69] -/
def leafReplicas (s : State) (p q : Nat) : List Replica :=
  queueOf s p q ++ ((transmitting s p).filterMap fun e => if e.2.leaf = q then some e.2.rep else none)

/-- Cells of the frame of a replica. -/
def repCells (s : State) (r : Replica) : Nat := ((packetOf s r.uid).map fun pk => pk.cells).getD 0

/-- Occupancy of a leaf in cells (R118). -/
def leafCells (s : State) (p q : Nat) : Nat := ((leafReplicas s p q).map (repCells s)).sum

/-- Cells of the shared pool charged to a leaf (R116). [DEDUCED, log 69] -/
def leafShared (s : State) (p q : Nat) : Nat :=
  (((leafReplicas s p q).filter fun r => r.shared).map (repCells s)).sum

/-- Cells of a frame, but for those of the management pool. -/
def chargedCells (s : State) (u : Nat) : Nat :=
  match packetOf s u with
  | some pk => if pk.pool = 1 then 0 else pk.cells
  | none => 0

/-- Cells of the edge messages received, queued or on their bus, all of them charged to P50 (R208). -/
def edgeCellsHeld (s : State) : Nat :=
  let q := fun (m : SMap (List QMsg)) => (m.map fun e => (e.2.map fun x => x.cells).sum).sum
  (s.edge.rxList.map fun e => (e.2.map fun x => x.cells).sum).sum + q s.edge.txq + q s.edge.again +
    (s.edge.offered.map fun e => e.2.cells).sum +
    (s.edge.lin.map fun e => match e.2.sending with
      | some (_, _, some x) => x.cells
      | _ => 0).sum

/-- Cells charged to a port, guaranteed and shared together: USED (R127). P50's are those of tunnel frames and edge messages,
P51's those of the frames that wait there. -/
def portUsed (s : State) (p : Nat) : Nat :=
  if p = 50 then (s.edge.tunnelIn.map (chargedCells s)).sum + edgeCellsHeld s
  else if p = 51 then (s.net.recirc.map (chargedCells s)).sum
  else ((List.range 64).map fun q => ((leafReplicas s p q).map fun r => chargedCells s r.uid).sum).sum

/-- A discarded replica of a port whose link is down: an atomic flow's in ATOMIC_LATE_DROPS, P48's in
P48_LINKDOWN, others in LINKDOWN_DISCARDS (R88, R120, R324). -/
def linkDownDrop (s : State) (p : Nat) (r : Replica) : State :=
  let f := if r.atomic then Reg.swAtomicLateDrops p
    else if p = 48 then Reg.brP48Linkdown else Reg.portLinkdownDiscards p
  releaseRef (bump s f) r.uid

/-- The frame on P48's MAC is in its ring already: it has been sent, and P48_LINKDOWN does not count it (R324, R338). -/
def deliveredUp (s : State) (u : Nat) : State :=
  match packetOf s u with
  | some pk => releaseRef (setPacket s u { pk with sent := true }) u
  | none => s

/-- Every frame queued on a port or in transmission there is discarded (R88). -/
def flushPort (s : State) (p : Nat) : State :=
  let s1 := forIdx 64 (fun q st =>
    (queueOf st p q).foldl (fun t r => linkDownDrop t p r) (setQueue st p q [])) s
  (transmitting s1 p).foldl (fun st e =>
    let t := { st with net.macs := st.net.macs.del e.1 }
    if p = 48 then deliveredUp t e.2.rep.uid else linkDownDrop t p e.2.rep) s1

/-! Frames that prove bad (R122, R123). -/

/-- Queued replicas of a frame taken off every leaf, P50 and P51. -/
def unqueue (s : State) (u : Nat) : State :=
  let drop := fun (m : SMap (List Replica)) =>
    m.filterMap fun e =>
      let l := e.2.filter fun r => r.uid != u
      if l.isEmpty then none else some (e.1, l)
  let s1 := { s with net.queues := drop s.net.queues, net.recirc := s.net.recirc.filter (· != u),
                     edge.tunnelIn := s.edge.tunnelIn.filter (· != u) }
  put s1 Reg.recircStatusDepth s1.net.recirc.length

/-- A frame on a MAC that is to end after its byte number `n` with a stomped FCS: the line time left is that of the bytes of
its last fragment. [DEDUCED, log 126] -/
def cutTx (s : State) (p : Nat) (t : Tx) (n : Nat) : Tx :=
  { t with stomp := true, bytes := t.bytes.take n, rest := wireNs s p (n - t.sent + 24) }

/-- A frame in transmission is to end with a stomped FCS (R123). Of one that started before its tail only the bytes that have
arrived are sent: what is still to come of it, of `missing` bytes, and the ICV behind that are not. -/
def stompOn (s : State) (u missing : Nat) : State :=
  s.net.macs.foldl (fun st e =>
    if e.2.rep.uid = u ∧ !e.2.stomp then
      let n := e.2.bytes.length - (missing + if e.2.key.isSome then 16 else 0)
      let t := if e.2.early ∧ missing ≠ 0 then cutTx st (e.1 / 2) e.2 n else { e.2 with stomp := true }
      bump { st with net.macs := st.net.macs.set e.1 t } (Reg.swCtStomped (e.1 / 2))
    else st) s

/-- A frame proves bad (R123): replicas in transmission are stomped, those not yet begun are dropped, and
its slot moves under R376. A frame no head of which has left is dropped whole (R122). [DEDUCED, log 64] -/
def proveBad (s : State) (u : Nat) : State :=
  match packetOf s u with
  | none => s
  | some pk =>
    let begun := (s.net.macs.filter fun e => e.2.rep.uid == u).length
    let s1 := moveWasted s u
    let s2 := match packetOf s1 u with
      | some x => setPacket s1 u { x with tail := 2, refs := begun }
      | none => s1
    let s3 := stompOn (unqueue s2 u) u (pk.bytes.length - pk.written)
    let s4 := if 0 < begun ∨ pk.sent then countIn s3 pk.port (Reg.swCtBadRx pk.port) else s3
    if begun = 0 then freePacket s4 u else s4

/-- Has a replica's head left? -/
def headLeft (s : State) (u : Nat) (pk : Packet) : Bool := pk.sent || s.net.macs.any fun e => e.2.rep.uid == u

/-- A frame the rest of which will not come, for loss of its ingress link (R123). -/
def loseFrame (s : State) (u : Nat) (pk : Packet) : State :=
  if pk.dropped then
    let s1 := moveWasted s u
    { s1 with net.packets := s1.net.packets.del u }
  else if pk.slot.isNone then { s with net.packets := s.net.packets.del u }
  else if pk.tail ≠ 0 then setPacket s u { pk with come := true }
  else proveBad (setPacket (if headLeft s u pk then s else mib s pk.port 2 1) u { pk with come := true }) u

/-- Loss of an ingress link: what is still arriving on the port is bad; what no cell was written of is
gone (R123). A frame no head of which has left counts in the port's Clause 30 errors, as one whose FCS fails (R122).
[DEDUCED, log 127] -/
def loseIngress (s : State) (p : Nat) : State :=
  (s.net.packets.filter fun e => e.2.port == p && !e.2.come).foldl (fun st e => loseFrame st e.1 e.2) s

end Sys2Proof.Machine
end

