-- ==== Sys2Proof/Machine/Interrupts.lean ====
section
/-!
DEFINITION. The interrupt controller and the fault collector's commands (R354 to R373): doorbells,
claims, completions and the level relay; acknowledgement and escalation of fault records.
-/
namespace Sys2Proof.Machine

/-- Interrupt target a master stands for: SP 0, GC[c] 1 + c, the host 5, the SPI port's MSPI_INT_N 6;
the debug port stands for none (R356, R360). -/
def targetOf : Master → Nat
  | .sp => 0
  | .gc c => c.val + 1
  | .host => 5
  | .spi => 6
  | .dbg => 8

/-- Which sources a master may raise by DOORBELL (R354). -/
def doorbellMay (s : State) (m : Master) (n : Nat) : Bool :=
  match m with
  | .sp => 1024 ≤ n && n ≤ 2047
  | .gc _ => 1024 ≤ n && n ≤ 2047
  | .host => 2032 ≤ n && n ≤ 2047
  | .spi => 2032 ≤ n && n ≤ 2047
  | .dbg => lifeCycle s == 0 && 1024 ≤ n && n ≤ 2047

/-- A DOORBELL write: a permitted source is raised, any other write is counted (R354). -/
def doorbellWrite (s : State) (m : Master) (w : Nat) : State :=
  let n := bitsAt w 0 11
  if doorbellMay s m n then raiseSource s n else bump s Reg.intRefusedDbRefused

/-- Is the source pending, enabled, and of this class at this target (R360)? -/
def claimable (s : State) (t cls n : Nat) : Bool :=
  srcState s n == 1 && srcEn s n && srcTarget s n == t && pendClass s n == cls

/-- The lowest-numbered source a target can claim in a class (R360). -/
def claimNext (s : State) (t cls : Nat) : Option Nat :=
  (List.range 2048).find? fun n => srcUsed n && claimable s t cls n

/-- A claim: the source becomes active for the target and class that claimed it; the relay remembers
whether its level was low (R360, R361). -/
def claim (s : State) (t cls : Nat) : Nat × State :=
  match claimNext s t cls with
  | none => (0, s)
  | some n =>
    let low := srcLevel n && !flag s (Reg.srcCfgLevel n)
    let s1 := put s (Reg.srcCfgState n) 2
    (n + 2 ^ 31,
     { s1 with intc.claimedBy := s1.intc.claimedBy.set n (t * 2 + cls)
               intc.lowAtClaim := if low then n :: s1.intc.lowAtClaim.erase n else s1.intc.lowAtClaim.erase n
               intc.cleared := s1.intc.cleared.erase n
               intc.fell := s1.intc.fell.erase n })

/-- A completion in the claiming class by the claiming target is spurious when the level was low at the
claim, or fell without a clearing access by the claimer (R361). -/
def spurious (s : State) (n : Nat) : Bool :=
  srcLevel n && (s.intc.lowAtClaim.contains n || (s.intc.fell.contains n && !s.intc.cleared.contains n))

/-- What a completion lets through to a core (R358): a source that waited there pending, of the fast class or else of the
normal one; one delivered already is `done`. -/
def takeWaiting (s : State) (t : Nat) (done : Option Nat) : State :=
  if 5 ≤ t ∨ done.isSome then s
  else if (claimNext s t 1).isSome then interruptCore s t 1
  else if (claimNext s t 0).isSome then interruptCore s t 0
  else s

/-- A completion (R357, R361): an active source returns to inactive, or to pending when it was raised
meanwhile, and the relay raises a level source again whose level is still high. Any other completion is
an error. -/
def complete (s : State) (t cls n : Nat) : State :=
  if srcState s n < 2 ∨ s.intc.claimedBy.find n ≠ some (t * 2 + cls) then bump s Reg.intStatsCompleteErr
  else
    let again := srcState s n == 3
    let s1 := if spurious s n then bump s Reg.intStatsSpurious else s
    let s2 := { (if again then becomePending s1 n 1 else put s1 (Reg.srcCfgState n) 0) with
      intc.claimedBy := s1.intc.claimedBy.del n
      intc.lowAtClaim := s1.intc.lowAtClaim.erase n
      intc.cleared := s1.intc.cleared.erase n
      intc.fell := s1.intc.fell.erase n }
    let s3 := if again then deliver s2 n
      else if srcLevel n ∧ flag s2 (Reg.srcCfgLevel n) then raiseSource s2 n
      else s2
    takeWaiting s3 t (if again then some n else none)

/-- A write of EN (R356): the source's target alone; setting it delivers a pending source. -/
def srcCfgEn (s : State) (m : Master) (n : Nat) (en : Bool) : State :=
  if targetOf m ≠ srcTarget s n then bump s Reg.intRefusedEnRefused
  else if srcFixed n then s
  else
    let was := srcEn s n
    let s1 := putFlag s (Reg.srcCfgEn n) en
    if en ∧ !was ∧ srcState s1 n = 1 then deliver s1 n else s1

/-- Control-space offset of SRC_CFG[n]. -/
def srcCfgAddr (n : Nat) : Nat := 0x82000 + 4 * n

/-- A clearing access by the claiming master to a level source's status register (R361). -/
def noteClear (s : State) (m : Master) (n : Nat) : State :=
  match s.intc.claimedBy.find n with
  | some c => if c / 2 = targetOf m then { s with intc.cleared := n :: s.intc.cleared.erase n } else s
  | none => s

/-- Bits of a W1C register cleared by a written word (R11). -/
def w1c (s : State) (fs : List Fld) (w : Nat) : State :=
  fs.foldl (fun st f => if bitAt w f.lsb then put st f 0 else st) s

/-- Event fields of a port (R104). -/
def portEventFlds (p : Nat) : List Fld :=
  [Reg.portEventsLinkChange p, Reg.portEventsTrainFail p, Reg.portEventsPlca p, Reg.portEventsVerifyFail p,
   Reg.portEventsPnThresh p, Reg.portEventsPnExhausted p]

/-- Event fields of a channel (R241). -/
def chEventFlds (n : Nat) : List Fld :=
  [Reg.chEventsBusOff n, Reg.chEventsErrPassive n, Reg.chEventsBridgeLost n, Reg.chEventsLinNoResp n,
   Reg.chEventsTxTimeout n, Reg.chEventsNeverFit n]

/-- SEC_EVENTS fields (R241). -/
def secEventFlds : List Fld := [Reg.secEventsFvExhausted, Reg.secEventsRestoreFail]

/-- Any of the fields set? -/
def anySet (s : State) (fs : List Fld) : Bool := fs.any fun f => flag s f

/-- A W1C write to an event register with its level source: bits clear, and the level follows. -/
def eventsClear (s : State) (m : Master) (fs : List Fld) (src w : Nat) : State :=
  let s1 := w1c (noteClear s m src) fs w
  setLevel s1 src (anySet s1 fs)

/-- An event bit of a port sets, and the port's level source rises. -/
def portEvent (s : State) (p : Nat) (f : Fld) : State := setLevel (put s f 1) (64 + p) true

/-- An event bit of a channel sets, and the channel's level source rises. -/
def chEvent (s : State) (n : Nat) (f : Fld) : State := setLevel (put s f 1) (112 + n) true

/-- A SEC_EVENTS bit sets, and source 19 rises. -/
def secEvent (s : State) (f : Fld) : State := setLevel (put s f 1) 19 true

/-! The fault collector. -/

/-- Is a CONTAIN record at its deadline? -/
def recordDue (r : FaultRec) : Bool := r.sev == 2 && r.deadline == 0

/-- An overflowed CONTAIN fault at its deadline. -/
def overflowDue (s : State) : Bool := s.fault.ovfDue.any fun d => decide (d ≤ tempoNo s)

/-- The first record at its deadline escalates (R367). -/
def escalateRecord (s : State) : State :=
  match s.fault.recs.find? recordDue with
  | none => s
  | some r =>
    let recs := s.fault.recs.map fun x =>
      if x.code = r.code ∧ x.unit = r.unit then { x with sev := 3 } else x
    bump (enterSafe { s with fault.recs := recs } r.code true 2 r.tempo) Reg.fcStatsEscalations

/-- The overflow escalates at OVF_DUE (R367). -/
def escalateOverflow (s : State) : State :=
  if overflowDue s then
    let s1 := put { s with fault.ovfDue := none } Reg.fcStatusMaxSevOvf 3
    bump (enterSafe s1 (get s Reg.fcOvfCode) true 2 s.fault.ovfTempo) Reg.fcStatsEscalations
  else s

/-- FAULT_ESCALATION: every record and overflow at its deadline escalates. -/
def faultEscalation (s : State) : State :=
  refreshFaultN (escalateOverflow (forIdx 16 (fun _ st => escalateRecord st) s))

/-- An acknowledgement later than the collector's cycle at the boundary counts as after it (R367): what
was due there has escalated. [DEDUCED, log 79] -/
def escalateOverdue (s : State) : State :=
  if s.time.tempoLocal + 24 < s.time.now then faultEscalation s else s

/-- Acknowledged faults no longer keep a profile's fault cause from permitting its release (R172, R366). -/
def settleFaults (s : State) (acked : Nat × Nat → Bool) : State :=
  { s with cont.faultOpen := s.cont.faultOpen.mapVals fun _ l => l.filter fun e => !acked e }

/-- The record at an index acknowledged: it is removed and the records behind it move up (R366). [DEDUCED, log 76] -/
def ackRecord (s : State) (i : Nat) : State :=
  match s.fault.recs[i]? with
  | none => s
  | some r =>
    let s1 := settleFaults s fun e => e.1 == r.code && e.2 == r.unit
    refreshFaultN { s1 with fault.recs := removeAt s1.fault.recs i }

/-- A write of FC_ACK: with GO, an acknowledgement of the record at INDEX (R366). -/
def fcAckWrite (s : State) (w : Nat) : State :=
  let s0 := escalateOverdue s
  let i := bitsAt w 0 4
  let s1 := put s0 Reg.fcAckIndex i
  if bitAt w 4 then ackRecord s1 i else s1

/-- OVF_ACK clears the overflow state (R366). -/
def ovfAckWrite (s : State) : State :=
  let s0 := escalateOverdue s
  let s1 := put (put (put s0 Reg.fcStatusOverflow 0) Reg.fcStatusMaxSevOvf 0) Reg.fcStatusOvfDueSet 0
  let s2 := put (put (put s1 Reg.fcOvfDue 0) Reg.fcOvfCode 0) Reg.fcOvfTempo 0
  refreshFaultN (settleFaults { s2 with fault.ovfDue := none, fault.ovfTempo := 0 } fun e => decide (65536 ≤ e.2))

/-- The overflow falls due one boundary later, where one waits (R367). [DEDUCED, log 79] -/
def delayOverflow (s : State) : State :=
  match s.fault.ovfDue with
  | some d => { put s Reg.fcOvfDue ((d + 1) % 2 ^ 32) with fault.ovfDue := some (d + 1) }
  | none => s

/-- Deadlines count one boundary, unless the safety pair is halted by the debugger or in its castling
window; the overflow's then moves on (R367). -/
def countDeadlines (s : State) (stopped : Bool) : State :=
  if stopped then delayOverflow s
  else { s with fault.recs := s.fault.recs.map fun r => if r.sev = 2 then { r with deadline := r.deadline - 1 } else r }

/-! Retention (R362). -/

/-- One source restored after Moored: active sources become pending, and a level source whose level is
low returns to inactive. -/
def restoreSource (n : Nat) (s : State) : State :=
  let st := srcState s n
  if st = 0 then s
  else
    let s1 := if st ≥ 2 then put (becomePending s n 1) Reg.intRestoreRepended
        (get s Reg.intRestoreRepended + 1) else s
    if srcLevel n ∧ !flag s1 (Reg.srcCfgLevel n) then put s1 (Reg.srcCfgState n) 0 else s1

/-- INTERRUPT_RESTORE: the retention copy restored before forwarding ready. -/
def restoreInterrupts (s : State) : State :=
  let s1 := put { s with intc.claimedBy := [], intc.lowAtClaim := [], intc.cleared := [], intc.fell := [] }
    Reg.intRestoreRepended 0
  put (forIdx 2048 restoreSource s1) Reg.intRestoreRestored 1

/-! Meanings. -/

/-- DOORBELL. -/
def execDoorbell (m : Master) (w : Word) (s : State) : Host.Outcome State Fault Refusal :=
  .next (accessWrite s m 0x80000 fun st => doorbellWrite st m w.toNat)

/-- CLAIM_N. -/
def execClaimN (m : Master) (s : State) : Host.Outcome State Fault Refusal :=
  .next (accessRead s m 0x80010 fun st => claim st (targetOf m) 0)

/-- CLAIM_F. -/
def execClaimF (m : Master) (s : State) : Host.Outcome State Fault Refusal :=
  .next (accessRead s m 0x80018 fun st => claim st (targetOf m) 1)

/-- COMPLETE_N. -/
def execCompleteN (m : Master) (w : Word) (s : State) : Host.Outcome State Fault Refusal :=
  .next (accessWrite s m 0x80014 fun st => complete st (targetOf m) 0 (bitsAt w.toNat 0 11))

/-- COMPLETE_F. -/
def execCompleteF (m : Master) (w : Word) (s : State) : Host.Outcome State Fault Refusal :=
  .next (accessWrite s m 0x8001C fun st => complete st (targetOf m) 1 (bitsAt w.toNat 0 11))

/-- SRC_CFG_EN. -/
def execSrcCfgEn (m : Master) (n : Fin 2048) (en : Bool) (s : State) : Host.Outcome State Fault Refusal :=
  .next (accessWrite s m (srcCfgAddr n) fun st => srcCfgEn st m n en)

/-- FC_ACK. -/
def execFcAck (m : Master) (w : Word) (s : State) : Host.Outcome State Fault Refusal :=
  .next (accessWrite s m 0xA0004 fun st => fcAckWrite st w.toNat)

/-- OVF_ACK. -/
def execOvfAck (m : Master) (s : State) : Host.Outcome State Fault Refusal :=
  .next (accessWrite s m 0xA0004 ovfAckWrite)

/-- FAULT_ESCALATION. -/
def execFaultEscalation (s : State) : Host.Outcome State Fault Refusal := .next (faultEscalation s)

/-- PORT_EVENTS_CLEAR. -/
def execPortEventsClear (m : Master) (p : Fin 48) (w : Word) (s : State) : Host.Outcome State Fault Refusal :=
  .next (accessWrite s m (0x20000C + 0x10000 * p.val) fun st =>
    eventsClear st m (portEventFlds p) (64 + p.val) w.toNat)

/-- CH_EVENTS_CLEAR. -/
def execChEventsClear (m : Master) (ch : Fin 256) (w : Word) (s : State) : Host.Outcome State Fault Refusal :=
  .next (accessWrite s m (0xA00010 + 0x1000 * ch.val) fun st =>
    eventsClear st m (chEventFlds ch) (112 + ch.val) w.toNat)

/-- SEC_EVENTS_CLEAR. -/
def execSecEventsClear (m : Master) (w : Word) (s : State) : Host.Outcome State Fault Refusal :=
  .next (accessWrite s m 0xB00300 fun st => eventsClear st m secEventFlds 19 w.toNat)

end Sys2Proof.Machine
end

