-- ==== Sys2Proof/Machine/Processors.lean ====
section
/-!
DEFINITION. The control processors and the memory banks (R298 to R320): the lockstep of the safety
pair, watchdogs, bank accesses under the BANKS regions, ECC, atomics, and the debug port's core control
and test access port (R307, R349, R350).
-/
namespace Sys2Proof.Machine

/-! Lockstep (R299 to R304). -/

/-- Is a job the sealing of a scoresheet entry? -/
def sealJob (k : JobKind) : Bool :=
  match k with
  | .sbSeal _ _ => true
  | _ => false

/-- The entries the pair had to seal are lost with it, and no more can be appended (R304, R368): WRITABLE clears, which
raises source 21. -/
def dropSeals (s : State) : State :=
  let gone := (s.jobs.queue.filter fun j => sealJob j.kind).length + (s.jobs.running.filter fun e => sealJob e.2.kind).length
  let s1 := forIdx gone (fun _ st => sheetLose st) { s with
    jobs.queue := s.jobs.queue.filter fun j => !sealJob j.kind
    jobs.running := s.jobs.running.filter fun e => !sealJob e.2.kind }
  if flag s1 Reg.sbStatusWritable then raiseSource (put s1 Reg.sbStatusWritable 0) 21 else s1

/-- A fault of the pair's lockstep (R304): both cores held until the next device reset, the fault
recorded with the tempo number. [DEDUCED, log 120] -/
def fencePair (s : State) (code detail : Nat) : State :=
  recordFault (dropSeals { s with cpu.spHeld := true }) code 0 detail

/-- The pair runs: the device forwards and the pair is neither held nor halted. -/
def pairRuns (s : State) : Bool := aloft s && !s.cpu.spHeld && !s.cpu.halted.contains 0

/-- Does the pair execute, ROM or firmware: from the release of the switch die on, while it has its supply?
[DEDUCED, log 30] -/
def pairPowered (s : State) : Bool :=
  match s.boot.phase with
  | .memInit => true
  | .imagePass => true
  | .starting => true
  | .recovery => true
  | .aloft => true
  | .wakeCheck => true
  | .wakeTrain => true
  | _ => false

/-- CORE_MISMATCH (R304): the matching LOCKSTEP_STATUS bit is set and stays set until a cold boot. -/
def coreMismatch (s : State) (k : MismatchKind) : State :=
  if !pairPowered s ∨ s.cpu.spHeld then s
  else
    let s0 := put s Reg.mismatchTempo (tempoNo s)
    match k with
    | .mismatch b => fencePair (put (put s0 Reg.lockstepStatusMismatch 1) Reg.mismatchBit b.val) 0x0001 b.val
    | .comparator => fencePair (put s0 Reg.lockstepStatusCmpFault 1) 0x0002 (get s Reg.lockstepStatusInjBit)
    | .delay st => fencePair (put s0 Reg.lockstepStatusDlyFault 1) 0x0003 st

/-- LOCKSTEP_INJECTION (R302): once after each boundary, bit INJ_BIT is inverted; a flagged test counts,
one that is not flagged is the comparator fault. INJ_BIT then advances, wrapping from 383 to 0. -/
def lockstepInjection (s : State) (flagged : Bool) : State :=
  if !pairRuns s ∨ s.cpu.injected then s
  else
    let b := get s Reg.lockstepStatusInjBit
    let s1 := put { s with cpu.injected := true } Reg.lockstepStatusInjBit (if b = 383 then 0 else b + 1)
    if flagged then bump (put s1 Reg.lockstepStatusInjLast 1) Reg.injPasses
    else
      let s2 := put (put s1 Reg.lockstepStatusInjLast 0) Reg.lockstepStatusCmpFault 1
      fencePair (put s2 Reg.mismatchTempo (tempoNo s)) 0x0002 b

/-- Do the masters' programs run: firmware from the acceptance of an image on? [DEDUCED, log 30] -/
def firmwareRuns (s : State) : Bool :=
  match s.boot.phase with
  | .starting => true
  | .aloft => true
  | .wakeCheck => true
  | .wakeTrain => true
  | _ => false

/-- Does the watchdog of the safety pair count and run out here (R305, R395)? Not in the castling window of the pair, at whose
eighth boundary it starts to count, for four tempos. [DEDUCED, log 111] -/
def spWatched (s : State) : Bool :=
  !s.cpu.spWindow && (get s Reg.imgStatusPhase != 6 || decide (s.img.windowAt + 12 ≤ tempoNo s))

/-- SP_WATCHDOG (R305): not while the pair is halted by the debugger or in its castling window. -/
def spWatchdog (s : State) : State :=
  if !pairRuns s ∨ !spWatched s then s
  else fencePair (put s Reg.mismatchTempo (tempoNo s)) 0x0004 0

/-- Is a general core held after its watchdog expired (R306)? -/
def gcHeld (s : State) (c : Nat) : Bool := bitAt (get s Reg.coreCtlHeld) c

/-- GC_WATCHDOG (R306): the core is held and takes no job; the fault is recorded. -/
def gcWatchdog (s : State) (c : Nat) : State :=
  if !aloft s ∨ gcHeld s c ∨ s.cpu.halted.contains (c + 1) then s
  else
    let s1 := put s Reg.coreCtlHeld (get s Reg.coreCtlHeld ||| 2 ^ c)
    recordFault s1 0x0005 (faultUnit 5 c) 0

/-- A held core restarts when SP releases it after its record has been acknowledged; it takes jobs from
the next boundary on (R306). -/
def releaseCore (c : Nat) (s : State) : State :=
  let open_ := s.fault.recs.any fun r => r.code == 0x0005 && r.unit == faultUnit 5 c
  if gcHeld s c ∧ !open_ then
    { put s Reg.coreCtlHeld (get s Reg.coreCtlHeld - 2 ^ c) with cpu.heldAt := s.cpu.heldAt.set c (tempoNo s) }
  else s

/-- CORE_CTL.RELEASE bits written (R306). -/
def coreCtlRelease (s : State) (w : Nat) : State :=
  forIdx 4 (fun c st => if bitAt w (4 + c) then releaseCore c st else st) s

/-! Banks. -/

/-- Number of a bank in fault units and registers. -/
def bankIdx : Bank → Nat
  | .s => 0
  | .g => 1
  | .h => 2
  | .t => 3

/-- Size of a bank in bytes (R311). -/
def bankBytes (b : Bank) : Nat := bankSizeKiB (bankIdx b) * 1024

/-- A bank's memory. [DESIGN CHOICE, log 9] -/
def bankMem (s : State) : Bank → Mem
  | .s => s.mem.bankS
  | .g => s.mem.bankG
  | .h => s.mem.bankH
  | .t => s.mem.bankT

/-- Words a scrub has marked in a bank. [DEDUCED, log 81] -/
def marked (s : State) (b : Bank) : List Nat := (s.cpu.badWords.find (bankIdx b)).getD []

/-- Does an access touch a marked word? [DEDUCED, log 81] -/
def hitsMark (s : State) (b : Bank) (off n : Nat) : Option Nat :=
  (marked s b).find? fun w => w < off + n && off < w + 8

/-- Of `n` bytes from an offset on, those before the first word that a scrub has marked. -/
def beforeMark (s : State) (b : Bank) (off n : Nat) : Nat :=
  ((marked s b).filter fun w => w < off + n && off < w + 8).foldl (fun m w => min m (w - off)) n

/-- How far a running bulk job has come when Bank H is about to change: it reads each byte of its source once, in order,
and its pace is not stated (R261); it reads no word that a scrub has marked (R314). [DEDUCED, log 94] -/
def jobReach (b : Nat) (s : State) : State :=
  match s.vault.mcj.find b with
  | some j =>
    if get s (Reg.mcjStatusState b) = 2 then
      let d := draw s (j.len - j.read.length + 1)
      let off := j.src + j.read.length
      let x := { j with read := j.read ++ Mem.readBytes s.mem.bankH 0 off (beforeMark s .h off d.1) }
      { d.2 with vault.mcj := d.2.vault.mcj.set b x }
    else s
  | none => s

/-- Bank H set. -/
def setBankH (s : State) (m : Mem) : State := { forIdx 6 jobReach s with mem.bankH := m }

/-- A bank's memory set. -/
def setBank (s : State) (b : Bank) (m : Mem) : State :=
  match b with
  | .s => { s with mem.bankS := m }
  | .g => { s with mem.bankG := m }
  | .h => setBankH s m
  | .t => { s with mem.bankT := m }

/-- A bus master coded as CONFLICT[m] (R320). -/
def busCode : BusMaster → Nat
  | .sp => 0
  | .gc c => c.val + 1
  | .hb => 5
  | .dma => 6
  | .mc => 7
  | .ec => 8
  | .dbg => 9

/-- The bit of a BANKS READ or WRITE byte that grants a master (R318); none for the others. -/
def regionBit : BusMaster → Option Nat
  | .hb => some 0
  | .dma => some 1
  | .gc _ => some 2
  | .mc => some 3
  | _ => none

/-- The BANKS regions in use: base and size in bytes, READ and WRITE (R318). -/
def regions (s : State) : List (Nat × Nat × Nat × Nat) :=
  let b := structOf s 0x0030
  (List.range (min 8 (u8 b 1))).map fun i =>
    let o := 32 + 16 * i
    (leAt b o 2 * 65536, leAt b (o + 2) 2 * 65536, u8 b (o + 4), u8 b (o + 5))

/-- Do the regions of a list cover every offset from `off` to `stop`, through at most `fuel` of them? -/
def covered (rs : List (Nat × Nat × Nat × Nat)) (stop : Nat) : Nat → Nat → Bool
  | 0, off => decide (stop ≤ off)
  | fuel + 1, off =>
    decide (stop ≤ off) ||
    match rs.find? fun r => r.1 ≤ off && off < r.1 + r.2.1 with
    | some r => covered rs stop fuel (r.1 + r.2.1)
    | none => false

/-- Do the regions that grant master bit `k` an access hold each of the `n` bytes from Bank H offset `off` (R313)? -/
def regionGrants (s : State) (k off n : Nat) (write : Bool) : Bool :=
  covered ((regions s).filter fun r => bitAt (if write then r.2.2.2 else r.2.2.1) k) (off + n) 8 off

/-- May a master reach a bank at all (R311)? -/
def bankReach (m : BusMaster) (b : Bank) : Bool :=
  match m, b with
  | .sp, .s => true
  | .gc _, .g => true
  | .hb, .h => true
  | .dma, .h => true
  | .gc _, .h => true
  | .mc, .h => true
  | _, _ => false

/-- Does an access to Bank H pass the regions (R313)? Banks S and G have none. -/
def regionOk (s : State) (m : BusMaster) (b : Bank) (off n : Nat) (write : Bool) : Bool :=
  match b with
  | .h => (match regionBit m with | some k => regionGrants s k off n write | none => false)
  | _ => true

/-- Offset 0x18_0000 upwards of Bank S is the secure sub-bank, which reads zero and discards writes while
a wipe runs (R312). -/
def wiping (s : State) (b : Bank) (off : Nat) : Bool :=
  b == .s && 0x180000 ≤ off && s.time.now < s.cpu.wipeUntil

/-- The bytes an access from `off` moves outside a secure sub-bank being wiped. -/
def openBytes (s : State) (b : Bank) (off n : Nat) : Nat := if wiping s b (off + n - 1) then min n (0x180000 - off) else n

/-- The secure sub-bank zeroed, over the 5 us a wipe takes at most (R312). -/
def wipeSecure (s : State) : State :=
  { s with mem.bankS := SMap.keep s.mem.bankS fun a _ => decide (a < 0x180000)
           cpu.wipeUntil := s.time.now + 5000 }

/-- An answer to a bank master. -/
def answerBus (s : State) (m : BusMaster) (r : Resp) : State :=
  noteBusError { s with io.resp := s.io.resp.set (busCode m) r } (busCode m) r

/-- A refused bank access as its master sees it (R309, R313, R334, R335): an HB write is posted and goes
to the ledger, an HB read gets Completer Abort, every other master a bus error. -/
def refuseBank (s : State) (m : BusMaster) (off code : Nat) (write : Bool) : State :=
  match m with
  | .hb => if write then ledgerAdd (answer s .host .done) 1 off code 1 else answer s .host .completerAbort
  | _ => answerBus s m .busError

/-- A refused Bank H access is counted, shown and reported as a fault (R313). -/
def regionViolation (s : State) (m : BusMaster) (off : Nat) (write : Bool) : State :=
  let s1 := bump s Reg.hViol
  let s2 := put (put s1 Reg.hLastOffset off) Reg.hLastMaster (busCode m)
  recordFault (putFlag s2 Reg.hLastWrite write) 0x0015 (faultUnit 3 (busCode m)) off

/-- The word of an access that ECC names. -/
def badWord (off w : Nat) : Nat := off / 8 * 8 + 8 * w

/-- An uncorrectable error: counted, its word shown, and the bank's ECC fault reported (R314). -/
def eccError (s : State) (b : Bank) (off : Nat) : State :=
  let k := bankIdx b
  let s1 := put (bump s (Reg.bankEccEccUncorr k)) (Reg.bankEccLastAddr k) (off / 8 * 8)
  recordFault s1 (0x0010 + k) (faultUnit 4 k) off

/-- A mark removed. [DEDUCED, log 81] -/
def unmark (s : State) (b : Bank) (w : Nat) : State :=
  let left := match (marked s b).erase w with
    | [] => none
    | l => some l
  { s with cpu.badWords := s.cpu.badWords.put (bankIdx b) left }

/-- Bytes an access covers. -/
def opLen : BankOp → Nat
  | .read n => n
  | .write d => d.length
  | .cas n => n
  | .lockedRead n => n

/-- Is it a write? -/
def opWrite : BankOp → Bool
  | .read _ => false
  | .write _ => true
  | .cas _ => true
  | .lockedRead _ => false

/-- An access performed on a bank (R312 for the secure sub-bank during a wipe); the controllers perform no compare and
swap and no locked read (R315, R321). -/
def performBank (s : State) (m : BusMaster) (b : Bank) (off : Nat) (op : BankOp) : State :=
  match op with
  | .read n => answerBus s m (.data (leNat (Mem.readBytes (bankMem s b) 0 off (openBytes s b off n))))
  | .write d => answerBus (setBank s b (Mem.writeBytes (bankMem s b) 0 off (d.take (openBytes s b off d.length)))) m .done
  | .cas _ => answerBus s m .busError
  | .lockedRead _ => answerBus s m .busError

/-- Waits counted: each master that can reach the bank and waited while another was granted, for the `cycles` it took
(R317). [DEDUCED, log 124] -/
def countWaits (s : State) (b : Bank) (waiting : List BusMaster) (cycles : Nat) : State :=
  waiting.foldl (fun st w =>
    if bankReach w b then bumpBy st (Reg.bankConflict (bankIdx b) (busCode w)) cycles else st) s

/-- Is a master the one granted, of those that ask in one cycle: the first in the order SP, GC[0] to GC[3], HB, DMA, MC
after the master granted last (R316)? Before the first grant the order starts at SP. [DEDUCED, log 124] -/
def isNext (s : State) (m : BusMaster) (b : Bank) (waiting : List BusMaster) : Bool :=
  let last := (s.cpu.lastBankGrant.find (bankIdx b)).getD 7
  let place := fun (w : BusMaster) => (busCode w + 15 - last) % 8
  (waiting.filter fun w => bankReach w b).all fun w => place m < place w

/-- A grant noted, an event of the core that gets it (R383), with the waits it makes. [DEDUCED, log 124] -/
def grantBank (s : State) (m : BusMaster) (b : Bank) (waiting : List BusMaster) (cycles : Nat) : State :=
  let s1 := { s with cpu.lastBankGrant := s.cpu.lastBankGrant.set (bankIdx b) (busCode m) }
  countWaits (pulse s1 (busCode m * 16 + 3) 1) b waiting cycles

/-- What ECC makes of an access granted (R314): refused for a word that a scrub has marked or that is met bad, else
carried out by `f`. [DEDUCED, log 81] -/
def eccGate (s : State) (m : BusMaster) (b : Bank) (off n : Nat) (write : Bool) (ecc : BankEcc) (f : State → State) : State :=
  match hitsMark s b off n with
  | some w => refuseBank (unmark s b w) m off 5 write
  | none => match ecc with
    | .uncorrectable w => refuseBank (eccError s b (badWord off w)) m off 5 write
    | .corrected => f (bump s (Reg.bankEccEccCorr (bankIdx b)))
    | .clean => f s

/-- A bank access: granted, checked and performed (R311 to R314, R316). One of a master that is not the next is not
granted: the next one's access is the command to come. [DEDUCED, log 124] -/
def bankAccess (s : State) (m : BusMaster) (b : Bank) (off : Nat) (op : BankOp) (ecc : BankEcc)
    (waiting : List BusMaster) : State :=
  let n := opLen op
  if !bankReach m b then answerBus s m .busError
  else if !isNext s m b waiting then s
  else
    let s0 := grantBank s m b waiting 1
    if b ≠ .h ∧ bankBytes b < off + n then answerBus s0 m .busError
    else if !regionOk s0 m b off n (opWrite op) then
      refuseBank (regionViolation s0 m off (opWrite op)) m off 3 (opWrite op)
    else eccGate s0 m b off n (opWrite op) ecc fun t => performBank t m b off op

/-- Who issues atomics to which bank (R315). -/
def atomicReach (m : BusMaster) (b : Bank) : Bool :=
  match m, b with
  | .sp, .s => true
  | .gc _, .g => true
  | .gc _, .h => true
  | .hb, .h => true
  | _, _ => false

/-- The two cycles of an atomic: the old value is returned and `f` of it written; it is an event of its core (R383).
[DEDUCED, log 32] -/
def performAtomic (s : State) (m : BusMaster) (b : Bank) (off n : Nat) (f : Nat → Nat) : State :=
  let old := if wiping s b off then 0 else leNat (Mem.readBytes (bankMem s b) 0 off n)
  let s1 := if wiping s b off then s
    else setBank s b (Mem.writeBytes (bankMem s b) 0 off (leBytes n (f old % 2 ^ (8 * n))))
  bump (pulse (answerBus s1 m (.data old)) (busCode m * 16 + 10) 1) (Reg.bankAtomicOps (bankIdx b))

/-- An atomic that no bank takes: a host's gets Unsupported Request, any other a bus error (R315, R335). -/
def refuseAtomic (s : State) (m : BusMaster) : State :=
  match m with
  | .hb => answer s .host .unsupportedRequest
  | _ => answerBus s m .busError

/-- An atomic on a naturally aligned 32- or 64-bit word, over two bank cycles; an unaligned one is refused and performs
nothing (R315, R316, R335). [DEDUCED, log 32; DEDUCED, log 124] -/
def atomic (s : State) (m : BusMaster) (b : Bank) (off : Nat) (wide : Bool) (f : Nat → Nat) (ecc : BankEcc)
    (waiting : List BusMaster) : State :=
  let n := if wide then 8 else 4
  if !atomicReach m b ∨ off % n ≠ 0 then refuseAtomic s m
  else if !isNext s m b waiting then s
  else
    let s0 := grantBank s m b waiting 2
    if b ≠ .h ∧ bankBytes b < off + n then answerBus s0 m .busError
    else if !(regionOk s0 m b off n true && regionOk s0 m b off n false) then
      refuseBank (regionViolation s0 m off true) m off 3 false
    else eccGate s0 m b off n false ecc fun t => performAtomic t m b off n f

/-- One word a scrub met (R314): corrected, or counted, reported and marked, once. -/
def scrubWord (s : State) (e : ScrubError) : State :=
  let k := bankIdx e.bank
  if e.uncorrectable then
    let s1 := eccError s e.bank e.off
    { s1 with cpu.badWords := s1.cpu.badWords.set k (e.off / 8 * 8 :: (marked s1 e.bank).erase (e.off / 8 * 8)) }
  else bump s (Reg.bankEccEccCorr k)

/-- PATROL_SCRUB (R314): a pass over a bank while Aloft. -/
def patrolScrub (s : State) (b : Bank) (errs : List ScrubError) : State :=
  if !aloft s then s
  else bump ((errs.filter fun e => e.bank == b).foldl scrubWord s) (Reg.bankScrub (bankIdx b))

/-! Debug port: core control and the test access port (R307, R349, R350). -/

/-- Is a TAP instruction permitted by the life-cycle state (R349)? -/
def tapAllowed (s : State) (i : Nat) : Bool :=
  match lifeCycle s with
  | 0 => true
  | 1 => true
  | 2 => i == 0x01 || i == 0x02 || i == 0x10 || i == 0x3F
  | 3 => true
  | _ => i == 0x01 || i == 0x3F

/-- An instruction selected in the TAP; one that is not permitted selects the bypass register (R349). -/
def tapSelect (s : State) (i : Nat) : State :=
  { s with cpu.tapInstr := if tapAllowed s i then i else 0x3F }

/-- The boundary-scan register at SAMPLE/PRELOAD (IEEE 1149.1, cited by R349): it captures its pins, and what is shifted in
is preloaded; the manual lists neither its cells nor the pins' levels there. [DEDUCED, log 29] -/
def scanPins (s : State) : State :=
  let d := draw s (2 ^ Config.scanCells)
  { d.2 with cpu.boundaryScan := d.1 }

/-- Does EXTEST drive the switch-die pins from the boundary-scan register (R349)? -/
def scanDrives (s : State) : Bool := dieRuns s && s.cpu.tapInstr == 0x00

/-- What a scan through the TAP does while the switch die runs; without it the TAP has no supply or is in reset, and TDO
is high-impedance (R272, R416). [DEDUCED, log 29] -/
def whileTap (s : State) (f : State → State) : State := if dieRuns s then f s else s

/-- May DBG halt a core in this life-cycle state (R307, R349)? -/
def haltAllowed (s : State) : Bool := lifeCycle s == 0 || lifeCycle s == 3

/-- The outcome of a DBG_ACCESS request, which the next Capture-DR returns (R350). [DEDUCED, log 29] -/
def dbgOutcome (s : State) (status data : Nat) : State :=
  tapSelect (answer s .dbg (.dbg status data)) 0x10

/-- DBG_HALT (R307): a halt passes through the input agreement unit, so both cores of the pair halt after
the same instruction, with an empty replay log. -/
def dbgHalt (s : State) (c : Nat) : State :=
  if !dieRuns s ∨ dbgBusy s then s
  else if !haltAllowed s then dbgOutcome s 2 0
  else if s.cpu.halted.contains c then dbgOutcome s 0 0
  else
    let s1 := { s with cpu.halted := c :: s.cpu.halted, cpu.coreRegs := [] }
    dbgOutcome (if c = 0 then { s1 with cpu.replay := [] } else s1) 0 0

/-- DBG_RESUME (R307): the log is replayed into the checker before either core executes. -/
def dbgResume (s : State) (c : Nat) : State :=
  if !dieRuns s ∨ dbgBusy s then s
  else if !haltAllowed s then dbgOutcome s 2 0
  else
    let s1 := { s with cpu.halted := s.cpu.halted.erase c }
    dbgOutcome (if c = 0 then { s1 with cpu.replay := [] } else s1) 0 0

/-- DBG_STEP (R307): a halt after one instruction, under the same rules. -/
def dbgStep (s : State) (c : Nat) : State :=
  if !dieRuns s ∨ dbgBusy s then s
  else if !haltAllowed s then dbgOutcome s 2 0
  else if !s.cpu.halted.contains c then dbgOutcome s 0 0
  else dbgOutcome (if c = 0 then { s with cpu.replay := [], cpu.coreRegs := [] } else { s with cpu.coreRegs := [] }) 0 0

/-- The IDCODE register: stepping major, part, manufacturer identity, 1 (R349, R450). -/
def idcodeValue (s : State) : Nat :=
  get s Reg.identStepMajor % 16 * 2 ^ 28 + get s Reg.identPart * 2 ^ 12 +
    Config.manufacturerId % 2 ^ 11 * 2 + 1

/-! Meanings. -/

/-- LOCKSTEP_INJECTION. -/
def execLockstepInjection (flagged : Bool) (s : State) : Host.Outcome State Fault Refusal :=
  .next (lockstepInjection s flagged)

/-- CORE_MISMATCH. -/
def execCoreMismatch (kind : MismatchKind) (s : State) : Host.Outcome State Fault Refusal :=
  .next (coreMismatch s kind)

/-- SP_WATCHDOG. -/
def execSpWatchdog (s : State) : Host.Outcome State Fault Refusal := .next (spWatchdog s)

/-- GC_WATCHDOG. -/
def execGcWatchdog (c : Fin 4) (s : State) : Host.Outcome State Fault Refusal := .next (gcWatchdog s c)

/-- CORE_CTL_RELEASE. -/
def execCoreCtlRelease (m : Master) (w : Word) (s : State) : Host.Outcome State Fault Refusal :=
  .next (accessWrite s m 0xE00810 fun st => coreCtlRelease st w.toNat)

/-- PATROL_SCRUB. -/
def execPatrolScrub (bank : Bank) (errs : List ScrubError) (s : State) : Host.Outcome State Fault Refusal :=
  .next (patrolScrub s bank errs)

/-- DBG_POLL returns the outcome of the previous request, or BUSY while it is in progress (R350). -/
def dbgPoll (s : State) : State :=
  let r : Resp := if dbgBusy s then .dbg 1 0 else .dbg s.cpu.dbgStatus s.cpu.dbgData
  { s with io.resp := s.io.resp.set (mcode .dbg) r }

/-- DBG_POLL. -/
def execDbgPoll (s : State) : Host.Outcome State Fault Refusal := .next (whileTap s dbgPoll)

/-- DBG_HALT. -/
def execDbgHalt (c : Fin 5) (s : State) : Host.Outcome State Fault Refusal := .next (dbgHalt s c)

/-- DBG_RESUME. -/
def execDbgResume (c : Fin 5) (s : State) : Host.Outcome State Fault Refusal := .next (dbgResume s c)

/-- DBG_STEP. -/
def execDbgStep (c : Fin 5) (s : State) : Host.Outcome State Fault Refusal := .next (dbgStep s c)

/-- TAP_RESET: the TAP's reset selects the identity register (IEEE 1149.1, cited by R349). -/
def execTapReset (s : State) : Host.Outcome State Fault Refusal :=
  .next (whileTap s fun t => { t with cpu.tapInstr := 0x01 })

/-- EXTEST. -/
def execExtest (s : State) : Host.Outcome State Fault Refusal := .next (whileTap s fun t => tapSelect t 0x00)

/-- IDCODE: the selected register returns the identity. -/
def execIdcode (s : State) : Host.Outcome State Fault Refusal :=
  .next (whileTap s fun t => answerBus (tapSelect t 0x01) .dbg (.data (idcodeValue t)))

/-- SAMPLE_PRELOAD, where the life-cycle state permits it. -/
def execSamplePreload (s : State) : Host.Outcome State Fault Refusal :=
  .next (whileTap s fun t => if tapAllowed t 0x02 then scanPins (tapSelect t 0x02) else tapSelect t 0x02)

/-- BYPASS. -/
def execBypass (s : State) : Host.Outcome State Fault Refusal := .next (whileTap s fun t => tapSelect t 0x3F)

end Sys2Proof.Machine
end

