-- ==== Sys2Proof/Machine/HostIf.lean ====
section
/-!
DEFINITION. The host bridge (R321 to R344): link and power states, MSI-X, the outbound windows and the
stalemate rule, semaphores, the ledger's read side, ring registers and moderation.
-/
namespace Sys2Proof.Machine

/-! The HOST section (R351, R352). -/

/-- The HOST globals of a slot, if the slot holds them. -/
def hostGlobals (s : State) (slot : Nat) : Option (List Byte) := recOf s slot 0x0700 0

/-- The lowest-based BANKS region that grants HB write and GC read (R352). -/
def defaultWindow (s : State) : Option (Nat × Nat) :=
  match minBy (fun r => r.1) ((regions s).filter fun r => bitAt r.2.2.2 0 && bitAt r.2.2.1 2) with
  | some r => some (r.1, min r.2.1 0x200000)
  | none => none

/-- The staging window in force: base and size in Bank H (R66, R351, R352). -/
def stageWindow (s : State) : Option (Nat × Nat) :=
  match hostGlobals s (curSlot s) with
  | some b => some (leAt b 0 4, leAt b 4 4)
  | none => defaultWindow s

/-- The receive ring of leaf `q` of P48 in a slot (R338, R352). -/
def rxMap (s : State) (slot q : Nat) : Nat :=
  match hostGlobals s slot with
  | some b => u8 b (16 + q)
  | none => q / 2

/-- Weight of a transmit ring (R339, R352). -/
def txWeight (s : State) (r : Nat) : Nat :=
  match hostGlobals s (curSlot s) with
  | some b => u8 b (80 + (r - 32))
  | none => 1

/-- Outbound window `w` of the current slot: base, size in bytes, flags (R328, R351). -/
def outWindow (s : State) (w : Nat) : Option (Nat × Nat × Nat) :=
  match recOf s (curSlot s) 0x0700 (2 ^ 24 + w) with
  | some b => some (leAt b 0 8, leAt b 8 4 * 4096, leAt b 12 2)
  | none => none

/-- The VALID window that holds a host access, by its flags (R328). -/
def findWindow (s : State) (addr len : Nat) : Option Nat :=
  (List.range 8).findSome? fun w =>
    match outWindow s w with
    | some (b, z, f) => if bitAt f 0 ∧ b ≤ addr ∧ addr + len ≤ b + z then some f else none
    | none => none

/-! MSI-X and power states (R340 to R344, R359). -/

/-- Pending vectors that are not masked are sent once P48 is UP and MSI-X enabled. -/
def flushVectors (s : State) : State :=
  if p48Up s ∧ s.host.msixEn then
    let go := s.host.msixPend.filter fun v => !s.host.msixMask.contains v
    let s1 := { s with host.msixPend := s.host.msixPend.filter fun v => s.host.msixMask.contains v }
    go.foldl (fun st v => emit st (.vector v)) (if go.isEmpty then s1 else exitL1 s1)
  else s

/-- P48_UP as R324 gives it. -/
def refreshP48 (s : State) : State :=
  putFlag s Reg.hbStatusP48Up
    (flag s Reg.hbStatusDlActive && get s Reg.hbStatusDstate == 0 && flag s Reg.hbStatusBme)

/-- Posted writes whose TLP can no longer be sent are discarded into the ledger (R329). [DEDUCED, log 114] -/
def dropPosted (s : State) : State :=
  let s1 := s.host.posted.foldl (fun st o => ledgerAdd st (3 + o.core) o.addr 8 2) s
  { s1 with host.posted := [] }

/-- The endpoint is powered: the switch die is released and PERST_N high (R344, R407). [DEDUCED, log 30] -/
def endpointOn (s : State) : Bool :=
  s.host.perstN && (match s.boot.phase with
    | .memInit | .imagePass | .starting | .recovery | .aloft | .wakeTrain | .wakeCheck => true
    | _ => false)

/-- Does the endpoint take configuration requests: powered, and past READY, until which it answers each with a retry status
(R407)? Recovery mode, in which the host reaches Bank H, serves them (R397). -/
def configServed (s : State) : Bool := endpointOn s && (aloft s || s.boot.phase == .recovery)

/-- PE_WAKE_N released (R344). -/
def releasePeWake (s : State) : State := { put s Reg.hbStatusPeWake 0 with host.peWakeAt := none }

/-- P48_STATE_CHANGE (R324): the link and Bus Master Enable as they now are. Bus Master Enable is a bit of the
configuration space: it stays while no configuration request is served (R407). -/
def p48StateChange (s : State) (l : LinkState) : State :=
  if !endpointOn s then s
  else
    let s1 := putFlag s Reg.hbStatusDlActive l.dlActive
    let s2 := put (put s1 Reg.hbStatusRate (if l.dlActive then l.rate.val else 0)) Reg.hbStatusWidth
      (if l.dlActive then l.width.val else 0)
    let bme := if configServed s then l.bme else flag s Reg.hbStatusBme
    let s3 := refreshP48 (putFlag s2 Reg.hbStatusBme (bme && l.dlActive))
    let s4 := if l.dlActive then releasePeWake s3 else put s3 Reg.hbStatusAspm 0
    if p48Up s4 then flushVectors s4 else dropPosted s4

/-- PME_En and PME_Status as a write of the power management register leaves them. [DEDUCED, log 114] -/
def pmWritten (s : State) (pm : PmWrite) : State :=
  { s with host.pmeEn := pm.pmeEn, host.pmeStatus := s.host.pmeStatus && !pm.clearStatus }

/-- D3HOT_ENTRY (R342). A write that finds the function in D3hot moves PME_En and PME_Status alone. -/
def d3hotEntry (s : State) (pm : PmWrite) : State :=
  if !configServed s then s
  else if get s Reg.hbStatusDstate = 3 then pmWritten s pm
  else
    let s1 := { put (pmWritten s pm) Reg.hbStatusDstate 3 with host.fetching := none, host.fetchRetry := none }
    dropPosted (refreshP48 s1)

/-- D0_RETURN (R342): every unmasked pending vector is sent. -/
def d0Return (s : State) : State :=
  if get s Reg.hbStatusDstate ≠ 3 ∨ !configServed s then s
  else flushVectors (refreshP48 (put s Reg.hbStatusDstate 0))

/-- A vector's pending bit. -/
def markVector (s : State) (v : Nat) : State :=
  { s with host.msixPend := if s.host.msixPend.contains v then s.host.msixPend else v :: s.host.msixPend }

/-- MSIX_ENABLE (R359): sources pending at that instant send their vectors. -/
def msixEnable (s : State) : State :=
  if !configServed s then s
  else
    let s1 := { s with host.msixEn := true }
    flushVectors (forIdx 2048 (fun n st =>
      if srcState st n = 1 ∧ srcEn st n ∧ srcTarget st n = 5 then markVector st (pendVector st n) else st) s1)

/-- MSIX_VECTOR_UNMASK (R340): a pending vector is sent when its mask clears. The table lies in BAR0, which answers from READY
on (R407). -/
def msixUnmask (s : State) (v : Nat) : State :=
  if !endpointOn s ∨ !aloft s then s
  else flushVectors { s with host.msixMask := s.host.msixMask.erase v }

/-- ASPM_L1_ENTRY (R341): an idle link enters L1 or a substate. -/
def aspmEntry (s : State) (st : Nat) : State :=
  if flag s Reg.hbStatusDlActive ∧ st ≠ 0 then put s Reg.hbStatusAspm st else s

/-- PE_WAKE_RELEASE (R344): one second after assertion. -/
def peWakeTimeout (s : State) : State :=
  match s.host.peWakeAt with
  | some t => if t + 1000000000 ≤ s.time.now then releasePeWake s else s
  | none => s

/-! Semaphores and outbound accesses (R328 to R333). -/

/-- Owner of a semaphore: 0 free, 1 host, 2 SPI, 3 + c GC[c]. -/
def semOwner (s : State) (i : Nat) : Nat := get s (Reg.semOwner i)

/-- A write or read request to the host goes out; a link in L1 leaves it for that, with no count in L1_EXITS, which counts
exits for interrupts alone (R341). [DESIGN CHOICE, log 116] -/
def sendToHost (s : State) (o : Out) : State := emit (leaveL1 s) o

/-- An outbound read, or the closing read of an acknowledged write, goes to the link. -/
def openRead (s : State) (c : Nat) (o : OpenRead) (addr len : Nat) : State :=
  sendToHost { s with host.openReads := s.host.openReads.set c o } (.hostRead addr len)

/-- A non-posted request that finds all 256 tags in use while the inbound non-posted buffers are full yields, and is
retried after 1 us (R331). -/
def yieldRequest (s : State) (c : Nat) (o : OpenRead) : State :=
  bump { s with host.retry := s.host.retry.set c s.time.now, host.openReads := s.host.openReads.set c o }
    Reg.brRetriesStalemateRetries

/-- A non-posted request sent, or yielded where it meets R331's condition (`stalled`).
[DEDUCED, log 114; DESIGN CHOICE, log 116] -/
def requestRead (s : State) (c : Nat) (o : OpenRead) (addr len : Nat) (stalled : Bool) : State :=
  if stalled then yieldRequest s c o else openRead s c o addr len

/-- Writes of the posted buffer sent, oldest first (R329). [DEDUCED, log 114] -/
def drainPosted (s : State) : State :=
  if s.host.posted.isEmpty ∨ !p48Up s then s
  else s.host.posted.foldl (fun st o => sendToHost st (.hostWrite o.addr o.data)) { s with host.posted := [] }

/-- The oldest write of the posted buffer sent. [DESIGN CHOICE, log 116] -/
def sendPosted (s : State) : State :=
  match s.host.posted with
  | [] => s
  | o :: os => if p48Up s then sendToHost { s with host.posted := os } (.hostWrite o.addr o.data) else s

/-- The DW that holds the last byte of a write (R329). [DEDUCED, log 114] -/
def lastDw (addr len : Nat) : Nat := (addr + len - 1) / 4 * 4

/-- A semaphore given to a core, whose exclusive load then goes out (R332); one it holds already keeps the time it was
taken. -/
def semGive (s : State) (c i addr len : Nat) (stalled : Bool) : State :=
  let s1 := if semOwner s i = 3 + c then s
    else { put s (Reg.semOwner i) (3 + c) with host.semSince := s.host.semSince.set i s.time.now }
  requestRead (drainPosted s1) c (.exclLoad addr len) addr len stalled

/-- The core that has waited longest for a semaphore. -/
def semWaiter (s : State) (i : Nat) : Option (Nat × Nat × Nat × Nat) :=
  match minBy (fun e => e.2.2.2.2) (s.host.semWait.filter fun e => e.2.2.2.1 == i) with
  | some (c, a, l, _, t) => some (c, a, l, t)
  | none => none

/-- A semaphore freed; a waiting load takes it (R332). Whether its request then meets R331's condition, the state of the link,
is free. [DESIGN CHOICE, log 116] -/
def semFree (s : State) (i : Nat) : State :=
  let s1 := put s (Reg.semOwner i) 0
  match semWaiter s1 i with
  | some (c, a, l, _) =>
    let d := draw { s1 with host.semWait := s1.host.semWait.del c } 2
    semGive d.2 c i a l (d.1 == 1)
  | none => s1

/-- The semaphore of a host address: bits [10:6] (R332). -/
def semOf (addr : Nat) : Nat := bitsAt addr 6 5

/-- SEM_TAKE by the host or the SPI port (R333). -/
def semTake (s : State) (m : Master) (i : Nat) : State :=
  if (m = .host ∨ m = .spi) ∧ semOwner s i = 0 then put s (Reg.semOwner i) (origin m) else s

/-- SEM_RELEASE by the holder (R333). -/
def semRelease (s : State) (m : Master) (i : Nat) : State :=
  if origin m ≠ 0 ∧ semOwner s i = origin m then semFree s i else s

/-- Every semaphore an originator holds is freed (R323). -/
def semFreeAll (s : State) (org : Nat) : State :=
  forIdx 32 (fun i st => if semOwner st i = org then semFree st i else st) s

/-- An answer to a general core. -/
def answerGc (s : State) (c : Nat) (r : Resp) : State :=
  noteBusError { s with io.resp := s.io.resp.set (c + 1) r } (c + 1) r

/-- GC_OUTBOUND_WRITE (R328, R329). A posted write that cannot go at once waits in the 64-entry buffer; into a full one it
is not accepted. An acknowledged write and its closing read follow the posted ones.
[DEDUCED, log 114; DESIGN CHOICE, log 116] -/
def gcOutboundWrite (s : State) (c addr : Nat) (data : List Byte) (stalled : Bool) : State :=
  if !aloft s ∨ gcHeld s c then s
  else match findWindow s addr data.length with
    | none => ledgerAdd (answerGc s c .done) (3 + c) addr 7 2
    | some f =>
      if !bitAt f 2 then ledgerAdd (answerGc s c .done) (3 + c) addr 7 2
      else if bitAt f 1 then
        if p48Up s then
          requestRead (sendToHost (drainPosted s) (.hostWrite addr data)) c (.ackWrite (lastDw addr data.length))
            (lastDw addr data.length) 0 stalled
        else answerGc s c .busError
      else if !p48Up s then ledgerAdd (answerGc s c .done) (3 + c) addr 8 2
      else if stalled then
        if 64 ≤ s.host.posted.length then s
        else answerGc { s with host.posted := s.host.posted ++ [⟨c, addr, data⟩] } c .done
      else sendToHost (answerGc (drainPosted s) c .done) (.hostWrite addr data)

/-- GC_OUTBOUND_READ (R328). [DESIGN CHOICE, log 116] -/
def gcOutboundRead (s : State) (c addr len : Nat) (stalled : Bool) : State :=
  if !aloft s ∨ gcHeld s c then s
  else match findWindow s addr len with
    | none => answerGc s c .busError
    | some _ =>
      if p48Up s then requestRead (drainPosted s) c (.read addr len) addr len stalled else answerGc s c .busError

/-- Host address and length of an open outbound access. -/
def openAddr : OpenRead → Nat × Nat
  | .read a l => (a, l)
  | .ackWrite a => (a, 0)
  | .exclLoad a l => (a, l)
  | .exclStore a => (a, 0)

/-- STALEMATE_RETRY (R331): after 1 us HB retries the withdrawn request. [DESIGN CHOICE, log 116] -/
def stalemateRetry (s : State) (c : Nat) (stalled : Bool) : State :=
  match s.host.retry.find c, s.host.openReads.find c with
  | some t, some o =>
    if s.time.now < t + 1000 then s
    else requestRead { s with host.retry := s.host.retry.del c } c o (openAddr o).1 (openAddr o).2 stalled
  | _, _ => s

/-- OUTBOUND_READ_COMPLETION (R329, R335). A timeout sets bit 14 of the AER status.
[DEDUCED, log 114; PRESUMED, log 137] -/
def readCompletion (s : State) (c : Nat) (res : ReadCompletion) : State :=
  match s.host.openReads.find c with
  | none => s
  | some o =>
    if s.host.retry.has c then s
    else
      let s1 := { s with host.openReads := s.host.openReads.del c }
      match res, o with
      | .data b, .read _ _ => answerGc s1 c (.data (leNat b))
      | .data b, .exclLoad _ _ => answerGc s1 c (.data (leNat b))
      | .data _, .ackWrite _ => answerGc s1 c .done
      | .data _, .exclStore _ => answerGc s1 c .done
      | .timeout, _ => answerGc { s1 with io.aer := s1.io.aer ||| 2 ^ 14 } c .busError
      | .error, _ => answerGc s1 c .busError

/-- SEM_EXCLUSIVE_LOAD (R332): takes the semaphore of the address, or waits for it. [DESIGN CHOICE, log 116] -/
def exclLoad (s : State) (c addr len : Nat) (stalled : Bool) : State :=
  if !aloft s ∨ gcHeld s c then s
  else match findWindow s addr len with
    | none => answerGc s c .busError
    | some _ =>
      if !p48Up s then answerGc s c .busError
      else
        let i := semOf addr
        if semOwner s i = 0 ∨ semOwner s i = 3 + c then semGive s c i addr len stalled
        else { s with host.semWait := s.host.semWait.set c (addr, len, i, s.time.now) }

/-- SEM_EXCLUSIVE_STORE (R332): succeeds as an acknowledged write while the core holds the semaphore, and
releases it; its closing read may yield. [DESIGN CHOICE, log 116] -/
def exclStore (s : State) (c addr : Nat) (data : List Byte) (stalled : Bool) : State :=
  if !aloft s ∨ gcHeld s c then s
  else match findWindow s addr data.length with
    | none => ledgerAdd (answerGc s c .done) (3 + c) addr 7 2
    | some f =>
      if !bitAt f 2 then ledgerAdd (answerGc s c .done) (3 + c) addr 7 2
      else if semOwner s (semOf addr) ≠ 3 + c then answerGc s c .exclFailed
      else if !p48Up s then answerGc (semFree s (semOf addr)) c .busError
      else
        let s1 := requestRead (sendToHost (drainPosted s) (.hostWrite addr data)) c (.exclStore (lastDw addr data.length))
          (lastDw addr data.length) 0 stalled
        semFree s1 (semOf addr)

/-- SEM_WAIT_TIMEOUT (R332): after 10 us the load completes and its store will fail. -/
def semWaitTimeout (s : State) (c : Nat) (stalled : Bool) : State :=
  match s.host.semWait.find c with
  | some (a, l, _, t) =>
    if s.time.now < t + 10000 then s
    else bump (requestRead { s with host.semWait := s.host.semWait.del c } c (.exclLoad a l) a l stalled) Reg.brSemSemWaitFails
  | none => s

/-- SEM_HOLD_TIMEOUT (R332): a core that held a semaphore for 10 us without storing loses it. -/
def semHoldTimeout (s : State) (c : Nat) : State :=
  match (List.range 32).find? fun i => semOwner s i == 3 + c &&
      (s.host.semSince.find i).all fun t => decide (t + 10000 ≤ s.time.now) with
  | some i => bump (semFree s i) Reg.brSemSemTimeouts
  | none => s

/-! The ledger's read side (R334). -/

/-- The oldest entry of an originator. -/
def ledgerOldest (s : State) (org : Nat) : Option LedgerEntry := s.host.ledger.find? fun e => e.origin == org

/-- An originator's oldest entry removed. -/
def ledgerRemove (org : Nat) : List LedgerEntry → List LedgerEntry
  | [] => []
  | e :: l => if e.origin = org then l else e :: ledgerRemove org l

/-- A read of the ledger's CODE register returns and removes the originator's oldest entry. -/
def ledgerTake (s : State) (org : Nat) : Nat × State :=
  match ledgerOldest s org with
  | none => (0, s)
  | some e =>
    (e.code + e.origin * 2 ^ 4 + e.space * 2 ^ 8 + 2 ^ 10 + e.tempo * 2 ^ 16,
     { s with host.ledger := ledgerRemove org s.host.ledger })

/-! Rings (R336 to R340). -/

/-- A ring beyond its registers, as EN's rise leaves it. -/
def freshRing : RingSt := ⟨true, 0, none, [], []⟩

/-- A ring's state. -/
def ringOf (s : State) (r : Nat) : RingSt := (s.host.rings.find r).getD freshRing

/-- A ring's state set. -/
def setRing (s : State) (r : Nat) (x : RingSt) : State := { s with host.rings := s.host.rings.set r x }

/-- Entries of a ring; a SIZE_LOG2 below 4 acts as 4 (R353). -/
def ringSize (s : State) (r : Nat) : Nat := 2 ^ max 4 (get s (Reg.ringCfgSizeLog2 r))

/-- Descriptors posted and not consumed: TAIL is read modulo the ring's size (R337). -/
def ringPosted (s : State) (r : Nat) : Nat :=
  let n := ringSize s r
  (get s (Reg.ringTail r) % n + n - get s (Reg.ringHeadHead r) % n) % n

/-- A write of a ring's configuration word (R353): EN's rise sets HEAD, TAIL, PHASE and the count anew
and clears STOPPED; SIZE_LOG2 is ignored while EN is 1. -/
def ringConfig (s : State) (r w : Nat) : State :=
  let was := flag s (Reg.ringCfgEn r)
  let s1 := if was then s else put s (Reg.ringCfgSizeLog2 r) (bitsAt w 0 4)
  let s2 := putFlag (putFlag s1 (Reg.ringCfgTs r) (bitAt w 5)) (Reg.ringCfgEn r) (bitAt w 4)
  if bitAt w 4 ∧ !was then
    setRing (put (put (put s2 (Reg.ringHeadHead r) 0) (Reg.ringTail r) 0) (Reg.ringHeadStopped r) 0) r freshRing
  else s2

/-- Descriptors the host filled, kept at the ring indices they were posted at. -/
def postDescs (m : SMap (List Byte)) (n i : Nat) : List (List Byte) → SMap (List Byte)
  | [] => m
  | d :: ds => postDescs (m.set (i % n) d) n (i + 1) ds

/-- RING_TAIL (R337, R353): ignored while EN is 0; the descriptors from the old TAIL on are posted. -/
def ringTailWrite (s : State) (r w : Nat) (descs : List (List Byte)) : State :=
  if !flag s (Reg.ringCfgEn r) then s
  else
    let n := ringSize s r
    let x := ringOf s r
    let s1 := setRing s r { x with descs := postDescs x.descs n (get s (Reg.ringTail r) % n) descs }
    put s1 (Reg.ringTail r) (bitsAt w 0 16)

/-- Vector `r` falls due and the count restarts (R340). -/
def ringVector (s : State) (r : Nat) : State :=
  vectorDue (setRing s r { ringOf s r with unsignalled := 0, firstAt := none }) r

/-- A completion was written: moderation (R340). -/
def moderate (s : State) (r : Nat) : State :=
  let x := ringOf s r
  let s1 := setRing s r { x with unsignalled := x.unsignalled + 1, firstAt := some (x.firstAt.getD s.time.now) }
  let c := get s (Reg.ringModModCount r)
  if (c = 0 ∧ get s (Reg.ringModModTimer r) = 0) ∨ (c ≠ 0 ∧ c ≤ x.unsignalled + 1) then ringVector s1 r else s1

/-- MOD_TIMER (R340): values above 1,000 act as 1,000. -/
def modTimer (s : State) (r : Nat) : State :=
  let t := min 1000 (get s (Reg.ringModModTimer r))
  match (ringOf s r).firstAt with
  | some t0 => if t ≠ 0 ∧ t0 + t * 1000 ≤ s.time.now then ringVector s r else s
  | none => s

/-- The entry at HEAD is consumed: HEAD advances and PHASE inverts at the wrap (R336). -/
def consume (s : State) (r : Nat) : State :=
  let h := get s (Reg.ringHeadHead r)
  let n := ringSize s r
  let x := ringOf s r
  if h + 1 = n then setRing (put s (Reg.ringHeadHead r) 0) r { x with phase := !x.phase }
  else put s (Reg.ringHeadHead r) (h + 1)

/-- A completion entry written at an index of the completion ring. -/
def writeCpl (s : State) (r idx : Nat) (entry : List Byte) : State :=
  sendToHost s (.hostWrite (get s (Reg.ringCplBase r) + 16 * idx) entry)

/-- RX_DELIVER (R338): the frame without its FCS, then its completion entry, then moderation; a frame the
ring cannot take is dropped and leaves the descriptor. [DEDUCED, log 73] -/
def rxDeliver (s : State) (r : Nat) (bytes : List Byte) (time port epoch : Nat) (mgmt : Bool) : Bool × State :=
  if !flag s (Reg.ringCfgEn r) ∨ flag s (Reg.ringHeadStopped r) ∨ ringPosted s r = 0 then
    (false, bump s (Reg.ringFullDrops r))
  else
    let h := get s (Reg.ringHeadHead r)
    let x := ringOf s r
    let d := (x.descs.find h).getD []
    if leAt d 8 2 < bytes.length then (false, bump s (Reg.ringErrTooBig r))
    else
      let entry := leBytes 8 (if flag s (Reg.ringCfgTs r) then time else 0) ++ leBytes 2 bytes.length ++
        leBytes 2 h ++ leBytes 1 port ++ leBytes 1 (epoch % 4 + 4 * b2n mgmt + 128 * b2n x.phase) ++ zeros 2
      let s1 := writeCpl (sendToHost s (.hostWrite (leAt d 0 8) bytes)) r h entry
      (true, moderate (bump (consume s1 r) (Reg.ringFrames r)) r)

/-- Staging ownership ends; the set is kept (R66). -/
def endOwnership (s : State) : State := put s Reg.stageStatusOwner 0

/-- Register fields below an offset and at or above another take their Reset values. -/
def resetRange (s : State) (lo hi : Nat) : State :=
  { s with regs := SMap.keep s.regs fun k _ => !(decide (lo ≤ k / 32 % 2 ^ 24) && decide (k / 32 % 2 ^ 24 < hi)) }

/-- The host interface's own state as after a reset of it (R323): rings, the MSI-X table, pending bits. -/
def resetHostIf (s : State) : State :=
  let s1 := resetRange s 0x101000 0x102000
  { s1 with host.rings := [], host.msixEn := false, host.msixMask := List.range 80, host.msixPend := []
            host.fetching := none, host.fetchRetry := none, host.msixTab := [], host.wrrRing := 32, host.wrrLeft := 0 }

/-- HOST_INTERFACE_RESET (R323, R343): nothing else in the device is reset, and ledger entries persist. -/
def hostReset (s : State) (k : HostResetKind) : State :=
  let was := get s Reg.hbStatusDstate = 3
  let pend := s.host.msixPend != []
  let s1 := semFreeAll (resetHostIf s) 1
  let s2 := if get s1 Reg.stageStatusOwner = 1 then endOwnership s1 else s1
  let s3 := put (put (put s2 Reg.hbStatusP48Up 0) Reg.hbStatusBme 0) Reg.hbStatusDstate 0
  let s4 := match k with
    | .flr => s3
    | _ => put (put (put (put s3 Reg.hbStatusDlActive 0) Reg.hbStatusRate 0) Reg.hbStatusWidth 0) Reg.hbStatusAspm 0
  let s5 := dropPosted s4
  match k with
  | .perst =>
    let s6 := releasePeWake { s5 with host.perstN := false, host.d3cold := was, host.pmeStatus := false }
    if was ∧ s6.host.pmeEn ∧ pend then assertPeWake s6 else s6
  | _ => { s5 with host.pmeEn := false, host.pmeStatus := false }

/-! Meanings. -/

/-- D0_RETURN. -/
def execD0Return (s : State) : Host.Outcome State Fault Refusal := .next (d0Return s)

/-- MSIX_ENABLE. -/
def execMsixEnable (s : State) : Host.Outcome State Fault Refusal := .next (msixEnable s)

/-- MSIX_VECTOR_UNMASK. -/
def execMsixVectorUnmask (v : Fin 80) (s : State) : Host.Outcome State Fault Refusal := .next (msixUnmask s v)

/-- ASPM_L1_ENTRY. -/
def execAspmL1Entry (st : Fin 4) (s : State) : Host.Outcome State Fault Refusal := .next (aspmEntry s st)

/-- PE_WAKE_RELEASE. -/
def execPeWakeRelease (s : State) : Host.Outcome State Fault Refusal := .next (peWakeTimeout s)

/-- GC_OUTBOUND_WRITE. -/
def execGcOutboundWrite (c : Fin 4) (addr : Nat) (data : List Byte) (stalled : Bool) (s : State) :
    Host.Outcome State Fault Refusal := .next (gcOutboundWrite s c addr data stalled)

/-- GC_OUTBOUND_READ. -/
def execGcOutboundRead (c : Fin 4) (addr len : Nat) (stalled : Bool) (s : State) :
    Host.Outcome State Fault Refusal := .next (gcOutboundRead s c addr len stalled)

/-- OUTBOUND_READ_COMPLETION. -/
def execOutboundReadCompletion (c : Fin 4) (res : ReadCompletion) (s : State) : Host.Outcome State Fault Refusal :=
  .next (readCompletion s c res)

/-- SEM_EXCLUSIVE_LOAD. -/
def execSemExclusiveLoad (c : Fin 4) (addr : Nat) (len : Yielding Nat) (s : State) : Host.Outcome State Fault Refusal :=
  .next (exclLoad s c addr len.arg len.stalled)

/-- SEM_EXCLUSIVE_STORE. -/
def execSemExclusiveStore (c : Fin 4) (addr : Nat) (data : Yielding (List Byte)) (s : State) :
    Host.Outcome State Fault Refusal := .next (exclStore s c addr data.arg data.stalled)

/-- SEM_WAIT_TIMEOUT. -/
def execSemWaitTimeout (c : Yielding (Fin 4)) (s : State) : Host.Outcome State Fault Refusal :=
  .next (semWaitTimeout s c.arg c.stalled)

/-- SEM_HOLD_TIMEOUT. -/
def execSemHoldTimeout (c : Fin 4) (s : State) : Host.Outcome State Fault Refusal := .next (semHoldTimeout s c)

/-- SEM_TAKE. -/
def execSemTake (m : Master) (sem : Fin 32) (s : State) : Host.Outcome State Fault Refusal :=
  .next (accessWrite s m (0x100100 + 4 * sem.val) fun st => semTake st m sem)

/-- SEM_RELEASE. -/
def execSemRelease (m : Master) (sem : Fin 32) (s : State) : Host.Outcome State Fault Refusal :=
  .next (accessWrite s m (0x100100 + 4 * sem.val) fun st => semRelease st m sem)

/-- LEDGER_READ. -/
def execLedgerRead (m : Master) (s : State) : Host.Outcome State Fault Refusal :=
  .next (accessRead s m 0x10002C fun st => ledgerTake st (origin m))

/-- RING_ENABLE. -/
def execRingEnable (m : Master) (r : Fin 64) (w : Word) (s : State) : Host.Outcome State Fault Refusal :=
  .next (accessWrite s m (0x101010 + 0x40 * r.val) fun st => ringConfig st r w.toNat)

/-- RING_TAIL. -/
def execRingTail (m : Master) (r : Fin 64) (w : Word) (descs : List Descriptor) (s : State) :
    Host.Outcome State Fault Refusal :=
  .next (accessWrite s m (0x101014 + 0x40 * r.val) fun st => ringTailWrite st r w.toNat descs)

/-- MOD_TIMER. -/
def execModTimer (r : Fin 64) (s : State) : Host.Outcome State Fault Refusal := .next (modTimer s r)

end Sys2Proof.Machine
end

