-- ==== Sys2Proof/Machine/Scoresheet.lean ====
section
/-!
DEFINITION. Keys as the MAC cluster checks them (R244, R245), and the scoresheet (R266 to R271): sealed,
chained entries in flash, reading, and the retiring of blocks.
-/
namespace Sys2Proof.Machine

/-! Keys at use. -/

/-- Byte strings XORed. -/
def xorBytes : List Byte → List Byte → List Byte
  | a :: as, b :: bs => (a ^^^ b) :: xorBytes as bs
  | _, _ => []

/-- A vault slot, when it is not EMPTY. -/
def slotOf (s : State) (i : Nat) : Option VSlot := s.vault.slots.find i

/-- Is the slot READY? -/
def slotReady (s : State) (i : Nat) : Bool := (slotOf s i).any fun v => v.state == 1

/-- The key of a slot: the XOR of its two 256-bit shares, of which a 128-bit key is the first half (R254). -/
def keyOf (s : State) (i : Nat) : List Byte :=
  match slotOf s i with
  | some v => (xorBytes v.shareA v.shareB).take (if v.len256 then 32 else 16)
  | none => []

/-- Generation of a slot (R249). -/
def genOf (s : State) (i : Nat) : Nat := (s.vault.gen.find i).getD 0

/-- The check of a request against the slot it names (R245): requester bit, whether it is secure, and
usage bit; 0 permitted, 1 KEY_EMPTY, 2 KEY_REVOKED, 3 KEY_DENIED. [DEDUCED, log 93] -/
def keyCheck (s : State) (i req : Nat) (secure : Bool) (use : Nat) : Nat :=
  match slotOf s i with
  | none => 1
  | some v =>
    if v.state ≠ 1 then 2
    else if !bitAt v.masters req || (v.secure && !secure) || !bitAt v.lc (lifeCycle s) || !bitAt v.usage use then 3
    else 0

/-- Failures of checks 2 to 5 are counted (R245). -/
def countDenied (s : State) (code : Nat) : State := if code = 3 then bump s Reg.keyStatsDenied else s

/-- MAC cluster work that completes under a key that serves no longer: a denied key counts as such (R245), any other was
revoked or wiped after the work began (R253). [DEDUCED, log 129] -/
def countAborted (s : State) (chk : Nat) : State :=
  if chk = 3 then countDenied s chk else bump s Reg.keyStatsRevokedAborts

/-- The use counter of a slot, kept under the slot's own number. -/
def usesFld (i : Nat) : Fld := { Reg.slotUses with bank := 16 + i }

/-! The scoresheet. -/

/-- Are appends possible (R271)? While the safety pair is held no entry can be sealed (R368). -/
def sheetWritable (s : State) : Bool := slotReady s 3 && !flag s Reg.sbStatusReadOnlyFull && !s.cpu.spHeld

/-- The entries of a block. A position that an append cut short has left behind holds none (R414). -/
def blockEntries (s : State) (b : Nat) : List (Nat × List Byte) := s.sheet.entries.filter fun e => e.1 / 512 == b

/-- SEQ of the oldest entry present, 0 where there is none. -/
def firstSeq (s : State) : Nat :=
  match s.sheet.entries with
  | e :: _ => leAt e.2 0 8
  | [] => 0

/-- Status and head registers brought up to date; a change of the status bits raises source 21. -/
def refreshSheet (s : State) : State :=
  let old := (flag s Reg.sbStatusWritable, flag s Reg.sbStatusReadOnlyFull, flag s Reg.sbStatusReadOnlyKey,
    flag s Reg.sbStatusAnchorsExh)
  let full := s.sheet.oldest + 131072 ≤ s.sheet.next
  let s1 := putFlag (putFlag s Reg.sbStatusReadOnlyFull full) Reg.sbStatusReadOnlyKey (!slotReady s 3)
  let s2 := putFlag (putFlag s1 Reg.sbStatusWritable (sheetWritable s1)) Reg.sbStatusAnchorsExh
    (256 ≤ s.otp.anchors.length)
  let last := if s.sheet.next = 0 then 0 else s.sheet.next - 1
  let s3 := put (put s2 Reg.sbStatusOldest (s.sheet.oldest / 512 % 256)) Reg.sbStatusNewest (last / 512 % 256)
  let s4 := put s3 Reg.sbStatusFill (blockEntries s (last / 512)).length
  let s5 := put s4 Reg.sbHeadSeq (s.sheet.nextSeq - 1)
  let s6 := forIdx 8 (fun m st => put st (Reg.sbHead m) (leAt s.sheet.headHash (4 * m) 4)) s5
  let s7 := put s6 Reg.sbFirst (firstSeq s)
  let new := (flag s7 Reg.sbStatusWritable, flag s7 Reg.sbStatusReadOnlyFull, flag s7 Reg.sbStatusReadOnlyKey,
    flag s7 Reg.sbStatusAnchorsExh)
  if old = new then s7 else raiseSource s7 21

/-- The 128 bytes of an entry (R266), sealed under slot 3. -/
def sheetEntry (s : State) (type : Nat) (body : List Byte) : List Byte :=
  let head := leBytes 8 s.sheet.nextSeq ++ leBytes 8 (tempoNo s) ++ leBytes 8 (gtNow s).toNat ++ leBytes 2 type ++
    leBytes 1 (min 64 body.length) ++ leBytes 1 (b2n (flag s Reg.tbStatusGtLocked)) ++ zeros 4 ++ slice body 0 64 ++
    (if s.sheet.nextSeq = 0 then zeros 16 else slice s.sheet.headHash 0 16)
  head ++ slice (Config.cmac (keyOf s 3) head) 0 16

/-- One entry written (R266, R267): the head moves to it, and the chain continues from its hash. -/
def sheetWrite (s : State) (type : Nat) (body : List Byte) : State :=
  let e := sheetEntry s type body
  let s1 := { s with
    sheet.entries := s.sheet.entries.set s.sheet.next e
    sheet.next := s.sheet.next + 1
    sheet.nextSeq := s.sheet.nextSeq + 1
    sheet.headHash := Config.sha256 e }
  let s2 := if type = 0x0072 then bump s1 Reg.sbStatsBreaks else s1
  let s3 := bump s2 (usesFld 3)
  if s3.sheet.oldest + 131072 ≤ s3.sheet.next ∧ !flag s Reg.sbStatusReadOnlyFull then
    recordFault (refreshSheet s3) 0x0034 0 0
  else refreshSheet s3

/-- An anchor at each 2^20 SEQ, up to 256, with its ANCHOR entry (R268). -/
def sheetAnchor (s : State) : State :=
  let q := s.sheet.nextSeq - 1
  if q ≠ 0 ∧ q % 2 ^ 20 = 0 ∧ q / 2 ^ 20 ≤ 256 ∧ s.otp.anchors.length < 256 then
    let i := q / 2 ^ 20 - 1
    let s1 := { s with otp.anchors := s.otp.anchors ++ [(q, s.sheet.headHash)] }
    if sheetWritable s1 then sheetWrite s1 0x0073 (leBytes 2 i) else sheetLose s1
  else s

/-- Numbering resumes above the newest anchor for a BREAK of reason 2 (R269). -/
def resumeAtAnchor (s : State) (type : Nat) (body : List Byte) : State :=
  if type = 0x0072 ∧ u8 body 8 = 2 then
    match s.otp.anchors.getLast? with
    | some a => { s with sheet.nextSeq := a.1 + 1, sheet.headHash := a.2 }
    | none => s
  else s

/-- SCORESHEET_APPEND (R266 to R268, R271): the entry is written while appends are possible, and counted
as lost otherwise; nothing but a BREAK precedes the first BOOT entry, and a LOST entry follows that one or a RETIRE entry
when events were lost. TEMPO and GT are those of the append. [DESIGN CHOICE, log 138] -/
def sheetAppend (s : State) (type : Nat) (body : List Byte) : State :=
  if !sheetWritable s ∨ (s.sheet.nextSeq = 0 ∧ type ≠ 0x0001 ∧ type ≠ 0x0072) then sheetLose s
  else
    let s1 := sheetAnchor (sheetWrite (resumeAtAnchor s type body) type body)
    if s1.sheet.lost ≠ 0 ∧ (s.sheet.nextSeq = 0 ∨ type = 0x0070) ∧ sheetWritable s1 then
      sheetAnchor (sheetWrite { s1 with sheet.lost := 0 } 0x0071 (leBytes 4 s1.sheet.lost))
    else s1

/-- SB_READ: RD_SEQ is asked for, and DONE clears. -/
def sheetRead (s : State) (w : Nat) : State :=
  if bitAt w 0 then { put s Reg.sbRdDone 0 with sheet.reading := true } else s

/-- The entry with a SEQ, if it is present: the newest, where a BREAK took the numbers of entries before it. -/
def sheetFind (s : State) (q : Nat) : Option (List Byte) :=
  match findLast? (fun (e : Nat × List Byte) => leAt e.2 0 8 == q) s.sheet.entries with
  | some e => some e.2
  | none => none

/-- Does an entry's seal verify (R267)? -/
def sealOk (s : State) (e : List Byte) : Bool := slice (Config.cmac (keyOf s 3) (e.take 112)) 0 16 == slice e 112 16

/-- SB_READ_DONE: the entry and its status, and DONE sets (R271's register table): 0 OK, 1 RETIRED,
2 NOT_YET, 3 SEAL_FAIL. Without an entry RD_DATA keeps what it held. [DEDUCED, log 95] -/
def sheetReadDone (s : State) : State :=
  if !s.sheet.reading then s
  else
    let q := get s Reg.sbRdSeq
    let s1 := put { s with sheet.reading := false } Reg.sbRdDone 1
    match sheetFind s q with
    | some e =>
      let s2 := forIdx 32 (fun m st => put st (Reg.sbRdData m) (leAt e (4 * m) 4)) s1
      put s2 Reg.sbRdStatus (if sealOk s e then 0 else 3)
    | none => put s1 Reg.sbRdStatus (if q < s.sheet.nextSeq then 1 else 2)

/-- The last entry of the oldest block, when the block is full and not the newest. -/
def oldestLast (s : State) : Option (List Byte) :=
  if s.sheet.oldest / 512 = (s.sheet.next - 1) / 512 then none
  else (blockEntries s (s.sheet.oldest / 512)).getLast?.map fun e => e.2

/-- A retire of a block (R270), judged in the order of its result codes: 2 NOT_OLDEST, 3 NOT_FULL,
4 HASH_MISMATCH, 1 DONE. -/
def sheetRetire (s : State) (m : Master) (w : Nat) : State :=
  if !bitAt w 8 ∨ !(m == .sp || m == .host || m == .spi) then s
  else
    let b := bitsAt w 0 8
    let hash := (List.range 4).flatMap fun i => leBytes 4 (get s (Reg.sbRetireHash i))
    if b ≠ s.sheet.oldest / 512 % 256 then put s Reg.sbRetireResult 2
    else match oldestLast s with
      | none => put s Reg.sbRetireResult 3
      | some e =>
        if slice (Config.sha256 e) 0 16 ≠ hash then put s Reg.sbRetireResult 4
        else
          let lo := s.sheet.oldest
          let hi := lo / 512 * 512 + 512
          let first := firstSeq s
          let s1 := { s with
            sheet.entries := SMap.keep s.sheet.entries fun k _ => decide (hi ≤ k)
            sheet.oldest := hi }
          let s2 := put (refreshSheet s1) Reg.sbRetireResult 1
          journal s2 0x0070 (leBytes 1 b ++ zeros 7 ++ leBytes 8 first ++ leBytes 8 (leAt e 0 8) ++
            slice (Config.sha256 e) 0 32)

/-! Meanings. -/

/-- SB_READ. -/
def execSbRead (m : Master) (w : Word) (s : State) : Host.Outcome State Fault Refusal :=
  .next (accessWrite s m 0xE0048 fun st => sheetRead st w.toNat)

/-- SB_READ_DONE. -/
def execSbReadDone (s : State) : Host.Outcome State Fault Refusal := .next (sheetReadDone s)

/-- SB_RETIRE. -/
def execSbRetire (m : Master) (w : Word) (s : State) : Host.Outcome State Fault Refusal :=
  .next (accessWrite s m 0xE0100 fun st => sheetRetire st m w.toNat)

end Sys2Proof.Machine
end

