-- ==== Sys2Proof/Machine/Vault.lean ====
section
/-!
DEFINITION. The key vault and the MAC cluster's bulk work (R242 to R262, R265, R456): derivation,
import, revocation, re-masking, bulk MAC jobs, attestation and the tamper response.
-/
namespace Sys2Proof.Machine

/-! Derivation (R246 to R250). -/

/-- ASCII bytes of a label. -/
def ascii (t : String) : List Byte := t.toList.map fun c => BitVec.ofNat 8 c.toNat

/-- The counter-mode KDF (R247): blocks of CMAC under the parent over the counter, label, a zero byte,
context, generation and, when bound, the UID. -/
def kdf (parent label context : List Byte) (gen : Nat) (bindUid : Bool) (blocks : Nat) : List Byte :=
  (List.range blocks).flatMap fun i =>
    slice (Config.cmac parent (beBytes 4 (i + 1) ++ label ++ [0] ++ context ++ beBytes 2 gen ++
      (if bindUid then slice Config.uid 0 16 else []))) 0 16

/-! The masks (R254). -/

/-- Hash_df of SP 800-90A to 440 bits. [PRESUMED, log 136] -/
def hashDf (input : List Byte) : Nat :=
  let part := fun (i : Nat) => slice (Config.sha256 (beBytes 1 i ++ beBytes 4 440 ++ input)) 0 32
  beNat ((part 1 ++ part 2).take 55)

/-- The DRBG seeded, or seeded anew, from the entropy source. [PRESUMED, log 136] -/
def drbgSeed (s : State) (before : List Byte) : State :=
  let d := draw s (2 ^ 512)
  let v := hashDf (before ++ beBytes 64 d.1)
  { d.2 with vault.drbg := ⟨v, hashDf (0 :: beBytes 55 v), 1⟩ }

/-- One request to the DRBG: 32 bytes. It is seeded before its first request and after every 2^20.
[PRESUMED, log 136] -/
def drbgNext (s : State) : List Byte × State :=
  let s1 := if s.vault.drbg.count = 0 then drbgSeed s []
    else if 2 ^ 20 < s.vault.drbg.count then drbgSeed s (1 :: beBytes 55 s.vault.drbg.v) else s
  let g := s1.vault.drbg
  let h := beNat (slice (Config.sha256 (3 :: beBytes 55 g.v)) 0 32)
  (slice (Config.sha256 (beBytes 55 g.v)) 0 32,
   { s1 with vault.drbg := ⟨(g.v + h + g.c + g.count) % 2 ^ 440, g.c, g.count + 1⟩ })

/-! Slots. -/

/-- A slot with its attributes and no key. -/
def keyless (origin depth parent : Nat) (len256 : Bool) (masters : Nat) (secure : Bool) (lc usage revokeBy : Nat) : VSlot :=
  ⟨0, [], [], origin, depth, parent, len256, masters, secure, lc, usage, revokeBy⟩

/-- A slot set. -/
def setSlot (s : State) (i : Nat) (v : VSlot) : State := { s with vault.slots := s.vault.slots.set i v }

/-- A slot READY with a key, which is held as two shares from the start (R254). [DEDUCED, log 93] -/
def installKey (s : State) (i : Nat) (v : VSlot) (key : List Byte) : State :=
  let d := drbgNext s
  setSlot d.2 i { v with state := 1, shareA := xorBytes (slice key 0 32) d.1, shareB := d.1 }

/-- A slot filled at a generation: it has held a key from now on (R249). -/
def fillSlot (s : State) (i : Nat) (v : VSlot) (key : List Byte) (gen : Nat) : State :=
  let s1 := installKey s i v key
  { s1 with vault.gen := s1.vault.gen.set i gen
            vault.held := if s1.vault.held.contains i then s1.vault.held else i :: s1.vault.held }

/-- The attributes of the fixed slots 0 to 6 (R242, R456). -/
def fixedAttrs (i : Nat) : Option VSlot :=
  match i with
  | 0 => some (keyless 0 0 0 true 0 true 31 4 0)
  | 1 => some (keyless 0 0 0 true 3 true 31 4 0)
  | 2 => some (keyless 1 1 1 true 3 true 31 1 0)
  | 3 => some (keyless 1 1 1 true 3 true 31 3 0)
  | 4 => some (keyless 1 1 0 true 3 true 31 7 0)
  | 5 => some (keyless 1 1 0 true 1 true 31 3 0)
  | 6 => some (keyless 1 1 0 true 1 true 31 2 0)
  | _ => none

/-- BLOB_SEAL at a generation of slot 4 (R242). -/
def blobKeyAt (gen : Nat) : List Byte := kdf (slice Config.rootDev 0 32) (ascii "GK-BLOB") [] gen false 2

/-- The key of a fixed slot at a generation, where the life-cycle state leaves it one (R242, R263). -/
def fixedKey (s : State) (i gen : Nat) : Option (List Byte) :=
  let der (par : Nat) (label : String) : List Byte := kdf (keyOf s par) (ascii label) [] gen true 2
  if i ∈ [1, 2, 3] ∧ (!s.otp.rootCust ∨ lifeCycle s = 3) then none
  else if lifeCycle s = 4 then none
  else match i with
    | 0 => some (slice Config.rootDev 0 32)
    | 1 => some (slice Config.rootCust 0 32)
    | 2 => some (der 1 "GK-ATTEST")
    | 3 => some (der 1 "GK-SCORE")
    | 4 => some (blobKeyAt gen)
    | 5 => some (kdf (keyOf s 0) (ascii "GK-WAKE") [] gen false 2)
    | 6 => some (der 0 "GK-RETURN")
    | _ => none

/-- A fixed slot filled at a generation; one past 0xFFFF leaves it EMPTY (R249). -/
def fillFixed (s : State) (i gen : Nat) : State :=
  match fixedAttrs i, fixedKey s i gen with
  | some v, some k => if 0xFFFF < gen then s else fillSlot s i v k gen
  | _, _ => s

/-- The KEYS recipe of a slot in an epoch slot, when it is VALID (R246). -/
def recipe (s : State) (e i : Nat) : Option (List Byte) :=
  match recOf s e 0x0500 i with
  | some b => if bitAt (u8 b 0) 0 ∧ 8 ≤ i then some b else none
  | none => none

/-- Is it an IMPORT recipe? -/
def isImport (b : List Byte) : Bool := bitAt (u8 b 0) 1

/-- PARENT of a recipe. -/
def parentOf (b : List Byte) : Nat := leAt b 2 2

/-- Depth of a slot's recipe: its parent's plus 1 (R248), counted through at most `fuel` parents. -/
def depthOf (s : State) (e : Nat) : Nat → Nat → Nat
  | 0, _ => 5
  | fuel + 1, i =>
    if i < 2 then 0
    else if i < 8 then 1
    else match recipe s e i with
      | some b => 1 + depthOf s e fuel (parentOf b)
      | none => 0

/-- Attributes of a slot by its recipe (R244, R246). -/
def recipeAttrs (b : List Byte) (origin depth : Nat) : VSlot :=
  let a := u8 b 7
  keyless origin depth (parentOf b) (leAt b 4 2 == 256) (bitsAt (u8 b 6) 0 5) (bitAt a 0) (bitsAt a 1 5)
    (bitsAt (u8 b 8) 0 3) (bitsAt a 6 2)

/-- A slot with the attributes it carries: those it was filled with, or, EMPTY, those of its recipe in the current slot or
the fixed ones (R244). [DEDUCED, log 93] -/
def slotAttrs (s : State) (i : Nat) : Option VSlot :=
  match slotOf s i with
  | some v => some v
  | none =>
    if i < 8 then fixedAttrs i
    else (recipe s (curSlot s) i).map fun b => recipeAttrs b (if isImport b then 3 else 2) (depthOf s (curSlot s) 6 i)

/-- The key a derivation recipe gives under its parent (R247). -/
def recipeKey (s : State) (b : List Byte) (gen : Nat) : List Byte :=
  kdf (keyOf s (parentOf b)) (slice b 24 (u8 b 9)) (slice b 40 (u8 b 10)) gen (bitAt (u8 b 0) 2) (leAt b 4 2 / 128)

/-- A REVOKED slot of a recipe, with no key. -/
def revokedSlot (b : List Byte) (origin depth : Nat) : VSlot :=
  { recipeAttrs b origin depth with state := 2, shareA := zeros 32, shareB := zeros 32 }

/-- The key record's state of a slot: REVOKED until an import or a commit refills it, or a commit deletes its recipe
(R253, R256). -/
def noteRevoked (s : State) (i : Nat) (on : Bool) : State :=
  let rest := s.vault.revoked.filter fun j => j != i
  { s with vault.revoked := if on then i :: rest else rest }

/-- A slot installed REVOKED under its recipe. -/
def installRevoked (s : State) (i : Nat) (b : List Byte) (origin depth : Nat) : State :=
  noteRevoked (setSlot s i (revokedSlot b origin depth)) i true

/-- A slot EMPTY. -/
def emptySlot (s : State) (i : Nat) : State := noteRevoked { s with vault.slots := s.vault.slots.del i } i false

/-- One derivation recipe derived (R250): an EMPTY parent leaves the slot EMPTY, a REVOKED parent installs it REVOKED
with no key, and a generation past 0xFFFF leaves it EMPTY (R249). The derivation is a secure request of a general core
for DERIVE: a parent that denies it leaves the slot EMPTY, and the denial counts (R244, R245). [DEDUCED, log 93] -/
def derive (s : State) (e i : Nat) (gen : Nat) : State :=
  match recipe s e i with
  | none => s
  | some b =>
    if isImport b then s
    else
      let d := depthOf s e 6 i
      match slotOf s (parentOf b) with
      | none => emptySlot s i
      | some v =>
        if v.state ≠ 1 then installRevoked s i b 2 d
        else if keyCheck s (parentOf b) 1 true 2 ≠ 0 then emptySlot (countDenied s 3) i
        else if 0xFFFF < gen then emptySlot s i
        else noteRevoked (fillSlot s i (recipeAttrs b 2 d) (recipeKey s b gen) gen) i false

/-- Slots with a VALID recipe in an epoch slot. -/
def recipeSlots (s : State) (e : Nat) : List Nat :=
  ((recsOf s e 0x0500).map fun r => r.1).filter fun i => (recipe s e i).isSome

/-- Generation of a slot's next fill: one more once it has held a key (R249). [DEDUCED, log 93] -/
def nextGen (s : State) (i : Nat) : Nat := if s.vault.held.contains i then genOf s i + 1 else genOf s i

/-! The key record in flash (R256). -/

/-- A slot's two shares blinded for flash, or those in flash unblinded: XOR with the pad of the slot at its generation,
under BLOB_SEAL at its own. [DESIGN CHOICE, log 135] -/
def blind (s : State) (i : Nat) (shares : List Byte) : List Byte :=
  xorBytes (slice shares 0 64) (slice (Config.blobPad (blobKeyAt (genOf s 4)) i (genOf s i)) 0 64)

/-- An imported slot's shares noted, blinded, in the key record. -/
def noteImported (s : State) (i : Nat) : State :=
  match slotOf s i with
  | some v => { s with vault.imported := s.vault.imported.set i (blind s i (v.shareA ++ v.shareB)) }
  | none => s

/-- The bytes of a copy of the key record that its seal covers: its counter and 512 entries of 128 bytes.
[DEDUCED, log 122] -/
def copyBytes (c : KeyCopy) : List Byte :=
  leBytes 8 c.counter ++ (List.range 512).flatMap fun i =>
    let state := if c.revoked.contains i then 2 else if c.held.contains i then 1 else 0
    leBytes 2 ((c.gen.find i).getD 0) ++ leBytes 1 state ++ zeros 13 ++ slice ((c.imported.find i).getD []) 0 64 ++ zeros 48

/-- The seal of a copy under a key. -/
def copySeal (key : List Byte) (c : KeyCopy) : List Byte := slice (Config.cmac key (copyBytes c)) 0 16

/-- Does a copy verify under BLOB_SEAL, at the generation it gives slot 4? [DEDUCED, log 122] -/
def copyOk (c : KeyCopy) : Bool := copySeal (blobKeyAt ((c.gen.find 4).getD 0)) c == c.mac

/-- The copy with the highest save counter. -/
def newestCopy (m : SMap KeyCopy) : Option KeyCopy :=
  m.foldl (fun a e => if a.all fun c => decide (c.counter < e.2.counter) then some e.2 else a) none

/-- The key record as it is now, under a save counter and not sealed. -/
def keyRecord (s : State) (n : Nat) : KeyCopy :=
  ⟨n, s.vault.gen, s.vault.held, s.vault.revoked, s.vault.imported, []⟩

/-- The key record written over the older of its copies (R256). [DEDUCED, log 93; DEDUCED, log 122] -/
def saveKeys (s : State) : State :=
  let n := ((newestCopy s.vault.copies).map fun c => c.counter).getD 0 + 1
  let c := keyRecord s n
  { s with vault.copies := s.vault.copies.set (n % 2) { c with mac := copySeal (keyOf s 4) c } }

/-- The key record written when it has changed. [DEDUCED, log 122] -/
def writeKeys (s : State) : State :=
  let c := keyRecord s 0
  let same := (newestCopy s.vault.copies).any fun o =>
    o.gen == c.gen && o.held == c.held && o.revoked == c.revoked && o.imported == c.imported
  if same then s else saveKeys s

/-- Both copies of the key record fail their seals (R256): imported slots start EMPTY, and GEN of every slot is the higher
value found, plus 1. Where no copy has ever been written there is none to fail, and GEN starts at 0 (R249).
[DEDUCED, log 122] -/
def keysLost (s : State) : State :=
  let found := fun (i : Nat) => s.vault.copies.foldl (fun g e => max g ((e.2.gen.find i).getD 0)) 0
  let held := (List.range 512).filter fun i => s.vault.copies.any fun e => e.2.held.contains i
  { s with vault.imported := [], vault.revoked := [], vault.held := held
           vault.gen := if s.vault.copies.isEmpty then []
             else (List.range 512).map fun i => (i, min 0xFFFF (found i + 1)) }

/-- The key record at a cold boot: the valid copy with the higher save counter. The blocks `damaged` do not read as they
were written. [DEDUCED, log 122] -/
def readKeys (s : State) (damaged : List Nat) : State :=
  let good := s.vault.copies.filter fun e => !damaged.contains e.1 && copyOk e.2
  match newestCopy good with
  | some c =>
    { s with vault.gen := c.gen, vault.held := c.held, vault.revoked := c.revoked, vault.imported := c.imported
             vault.copies := good }
  | none => { keysLost s with vault.copies := [] }

/-- The slot of an IMPORT recipe restored from the key record (R256): its imported key, or REVOKED as it was; `old` is the
state whose record is read, at whose generations the shares are blinded. [DEDUCED, log 93] -/
def restoreImport (old s : State) (e i gen : Nat) : State :=
  match recipe s e i with
  | none => s
  | some b =>
    if !isImport b then s
    else if s.vault.revoked.contains i then setSlot s i (revokedSlot b 3 (depthOf s e 6 i))
    else match old.vault.imported.find i with
      | some x =>
        if 0xFFFF < gen then s
        else
          let sh := blind old i x
          noteImported (fillSlot s i (recipeAttrs b 3 (depthOf s e 6 i)) (xorBytes (sh.take 32) (sh.drop 32)) gen) i
      | none => s

/-- The slot of a derivation recipe at load: derived, or REVOKED as it was (R250, R253). [DEDUCED, log 93] -/
def restoreKey (s : State) (e i gen : Nat) : State :=
  match recipe s e i with
  | none => s
  | some b =>
    if !isImport b ∧ s.vault.revoked.contains i then setSlot s i (revokedSlot b 2 (depthOf s e 6 i)) else derive s e i gen

/-- Every key of an epoch slot's KEYS built in order of depth, at the generation `g` gives: at load, the
persisted one (R250). In RETURN and SCRAPPED the customer slots stay wiped (R263). -/
def buildKeys (s : State) (e : Nat) (g : State → Nat → Nat) : State :=
  let s0 := { s with vault.slots := [] }
  let s1 := forIdx 7 (fun i st => fillFixed st i (g st i)) s0
  if lifeCycle s ≥ 3 then s1
  else
    let l := recipeSlots s1 e
    let s2 := l.foldl (fun st i => restoreImport s st e i (g st i)) s1
    forIdx 5 (fun d st => l.foldl (fun st i => if depthOf st e 6 i = d then restoreKey st e i (g st i) else st) st) s2

/-- Keys at envelope load, and as at cold boot after a wake from Parked (R250, R255). The flash takes no write before READY
(R405): the key record follows then. -/
def loadKeys (s : State) (e : Nat) : State :=
  if flag s Reg.vaultStatusTamperLatch then { s with vault.slots := [] } else buildKeys s e genOf

/-- Is `i` a descendant of `a`, through at most `fuel` parents? -/
def descends (s : State) (a : Nat) : Nat → Nat → Bool
  | 0, _ => false
  | fuel + 1, i =>
    match slotOf s i with
    | some v => i ≥ 2 && (v.parent == a || descends s a fuel v.parent) && v.origin != 3
    | none => false

/-- READY descendants of a slot. -/
def descendants (s : State) (a : Nat) : List Nat :=
  (s.vault.slots.map fun e => e.1).filter fun i => i != a && slotReady s i && descends s a 5 i

/-- A slot REVOKED, its shares zeroed (R252). -/
def zeroSlot (s : State) (i : Nat) : State :=
  match slotOf s i with
  | some v =>
    let s1 := setSlot s i { v with state := 2, shareA := zeros 32, shareB := zeros 32 }
    noteRevoked { s1 with vault.imported := s1.vault.imported.del i } i true
  | none => s

/-- A slot and every descendant revoked at one boundary, and the KEY_REVOKE entry with their number
(R252, R250). -/
def revokeTree (s : State) (i master : Nat) : State :=
  let ds := descendants s i
  let s1 := (i :: ds).foldl zeroSlot s
  journal s1 0x0011 (leBytes 2 i ++ leBytes 1 master ++ zeros 1 ++ leBytes 2 ds.length ++ zeros 2 ++ leBytes 8 (tempoNo s))

/-- REVOKE_STATUS.RESULT set; source 20 is raised when it changes. -/
def revokeResult (s : State) (r : Nat) : State :=
  let s1 := put s Reg.revokeStatusResult r
  if get s Reg.revokeStatusResult = r then s1 else raiseSource s1 20

/-- May this master revoke the slot, by the attributes it carries (R244, R252)? -/
def revokeMay (s : State) (m : Master) (i : Nat) : Bool :=
  match m with
  | .sp => true
  | .host => (slotAttrs s i).all fun v => bitAt v.revokeBy 0
  | .spi => (slotAttrs s i).all fun v => bitAt v.revokeBy 0
  | .gc _ => (slotAttrs s i).all fun v => bitAt v.revokeBy 1
  | .dbg => false

/-- A REVOKE judged in the order of R252. -/
def revokeWrite (s : State) (m : Master) (w : Nat) : State :=
  let i := bitsAt w 0 9
  if !bitAt w 9 then s
  else
    let s0 := put s Reg.revokeStatusLastSlot i
    if i < 8 ∨ !revokeMay s m i then revokeResult s0 3
    else if !slotReady s i then revokeResult s0 4
    else if s.vault.revPend.any fun r => r.slot == i then revokeResult s0 1
    else if 8 ≤ s.vault.revPend.length then revokeResult s0 5
    else revokeResult (put { s0 with vault.revPend := s0.vault.revPend ++ [⟨i, conflictCode m, s.time.now⟩] }
      Reg.revokeStatusPending (s.vault.revPend.length + 1)) 1

/-- KEY_REVOCATION at a boundary: every revocation accepted at least 2 us before it (R252, R253). A slot that a tamper
has emptied meanwhile is not revoked. RESULT is DONE once the last accepted request has been carried out.
[DEDUCED, log 93] -/
def revokeDue (s : State) (boundary : Nat) : State :=
  let due := s.vault.revPend.filter fun r => decide (r.at_ + 2000 ≤ boundary)
  if due.isEmpty then s
  else
    let s1 := due.foldl (fun st r => if (slotOf st r.slot).isSome then revokeTree st r.slot r.master else st) s
    let rest := s.vault.revPend.filter fun r => !decide (r.at_ + 2000 ≤ boundary)
    let s2 := put { writeKeys s1 with vault.revPend := rest } Reg.revokeStatusPending rest.length
    if get s Reg.revokeStatusResult = 1 ∧ (due.any fun r => r.slot == get s Reg.revokeStatusLastSlot) then revokeResult s2 2
    else s2

/-- The slot a VALID derivation recipe derives from, the records of KEYS being given. -/
def derivedFrom (recs : Nat → Option (List Byte)) (i : Nat) : Option Nat :=
  match recs i with
  | some b => if 8 ≤ i ∧ bitAt (u8 b 0) 0 ∧ !isImport b then some (parentOf b) else none
  | none => none

/-- Does a recipe derive from slot `a` through at most `fuel` parents? -/
def recipeUnder (recs : Nat → Option (List Byte)) (a : Nat) : Nat → Nat → Bool
  | 0, _ => false
  | fuel + 1, i =>
    match derivedFrom recs i with
    | some p => p == a || recipeUnder recs a fuel p
    | none => false

/-- A slot that a commit gives an IMPORT recipe: EMPTY, or REVOKED with the attributes of that recipe (R244, R250). -/
def reimport (e : Nat) (s : State) (i : Nat) : State :=
  match recipe s e i with
  | some b => if isImport b ∧ (slotOf s i).isSome then installRevoked s i b 3 (depthOf s e 6 i) else s
  | none => s

/-- Keys changed by a commit at its T+0 (R250): slots whose recipe went or changed are revoked with their
descendants, then new recipes and descendants are derived, and deleted slots become EMPTY. `old` and
`new` are the epoch slots. [DEDUCED, log 93] -/
def commitKeys (s : State) (old new : Nat) : State :=
  if flag s Reg.vaultStatusTamperLatch then s
  else
    let ol := recipeSlots s old
    let nl := recipeSlots s new
    let gone := ol.filter fun i => (recipe s new i) != (recipe s old i) || s.env.touched.contains i
    let fresh := nl.filter fun i => (recipe s new i) != (recipe s old i) || s.env.touched.contains i
    let desc := nl.filter fun i => !fresh.contains i && fresh.any fun g => recipeUnder (recipe s new) g 5 i
    let s1 := (gone.filter (slotReady s)).foldl (fun st i => revokeTree st i 0xFF) s
    let s2 := (gone.filter fun i => (recipe s new i).isNone).foldl
      emptySlot s1
    let s3 := fresh.foldl (reimport new) s2
    writeKeys <| forIdx 5 (fun d st => (fresh ++ desc).foldl (fun st i =>
      if depthOf st new 6 i = d ∧ !((recipe st new i).any isImport) then
        let st1 := derive st new i (nextGen st i)
        if slotReady st1 i then
          journal st1 0x0010 (leBytes 2 i ++ leBytes 2 (genOf st1 i) ++ leBytes 2 (((recipe st new i).map parentOf).getD 0) ++
            leBytes 1 (depthOf st new 6 i) ++ leBytes 1 (if fresh.contains i then 1 else 2))
        else st1
      else st) st) s3

/-! Import (R251). -/

/-- Requester bit and world of a master (R244). -/
def requester : Master → Nat × Bool
  | .sp => (0, true)
  | .gc _ => (1, false)
  | .host => (2, false)
  | .spi => (2, false)
  | .dbg => (7, false)

/-- Bytes of the WO words of a register array. -/
def regBytes (s : State) (n : Nat) (f : Nat → Fld) : List Byte := (List.range n).flatMap fun i => leBytes 4 (get s (f i))

/-- Share and tag registers read zero after GO. -/
def clearImport (s : State) : State :=
  let s1 := forIdx 8 (fun i st => put (put st (Reg.importShare0 i) 0) (Reg.importShare1 i) 0) s
  forIdx 4 (fun i st => put st (Reg.importTag i) 0) s1

/-- The outcome of an import: 1 DONE, 2 AUTH_FAIL, 3 NOT_IMPORT, 4 OCCUPIED, 5 DENIED, 6 GEN_EXHAUSTED,
with the key. [DEDUCED, log 93] -/
def importJudge (s : State) (m : Master) (i : Nat) : Nat × List Byte :=
  match recipe s (curSlot s) i with
  | none => (3, [])
  | some b =>
    let len := leAt b 4 2
    let key := (xorBytes (regBytes s 8 Reg.importShare0) (regBytes s 8 Reg.importShare1)).take (len / 8)
    let msg := [0x4B] ++ beBytes 2 i ++ beBytes 2 (genOf s i + 1) ++ beBytes 2 len ++ key
    if !isImport b then (3, [])
    else if flag s Reg.vaultStatusTamperLatch ∨ !bitAt (u8 b 6) (requester m).1 then (5, [])
    else if slotReady s i then (4, [])
    else if genOf s i = 0xFFFF then (6, [])
    else if keyCheck s (parentOf b) (requester m).1 (requester m).2 1 ≠ 0 then (5, [])
    else if slice (Config.cmac (keyOf s (parentOf b)) msg) 0 16 ≠ regBytes s 4 Reg.importTag then (2, [])
    else (1, key)

/-- Does an import get as far as the check of its PARENT key? -/
def importAsksParent (s : State) (m : Master) (i : Nat) : Bool :=
  (recipe s (curSlot s) i).any fun b => isImport b && !flag s Reg.vaultStatusTamperLatch &&
    bitAt (u8 b 6) (requester m).1 && !slotReady s i && genOf s i != 0xFFFF

/-- An IMPORT GO (R251), by HB, SP or GC. [DEDUCED, log 93] -/
def importWrite (s : State) (m : Master) (w : Nat) : State :=
  if !bitAt w 9 ∨ m = .dbg then s
  else
    let i := bitsAt w 0 9
    let r := importJudge s m i
    let parent := ((recipe s (curSlot s) i).map parentOf).getD 0
    let s0 := if importAsksParent s m i then countDenied s (keyCheck s parent (requester m).1 (requester m).2 1) else s
    let s1 := put (clearImport s0) Reg.importCtlResult r.1
    let s2 :=
      if r.1 = 1 then
        match recipe s (curSlot s) i with
        | some b =>
          let v := recipeAttrs b 3 (depthOf s1 (curSlot s1) 6 i)
          writeKeys (noteImported (noteRevoked (fillSlot s1 i v r.2 (genOf s i + 1)) i false) i)
        | none => s1
      else s1
    journal s2 0x0012 (leBytes 2 i ++ leBytes 2 (genOf s2 i) ++ leBytes 1 (conflictCode m) ++ leBytes 1 r.1)

/-! Re-masking (R254, R255). -/

/-- One slot's shares re-masked: the key is unchanged. -/
def remaskSlot (s : State) (i : Nat) : State :=
  match slotOf s i with
  | some v =>
    if v.state = 1 then
      let d := drbgNext s
      setSlot d.2 i { v with shareA := xorBytes v.shareA (slice d.1 0 v.shareA.length)
                             shareB := xorBytes v.shareB (slice d.1 0 v.shareB.length) }
    else s
  | none => s

/-- REMASK (R254, R255): in Aloft and in Moored, unless the entropy source has failed. -/
def remask (s : State) : State :=
  if (aloft s ∨ s.boot.phase = .moored) ∧ !flag s Reg.vaultStatusDrbgFault then
    let s1 := (s.vault.slots.map fun e => e.1).foldl remaskSlot s
    bump { s1 with vault.lastRemask := s.time.now } Reg.remaskStatusPasses
  else s

/-- Has the vault its supply: the switch die runs, or the device is Moored or on its way there or back (R272)? -/
def vaultPowered (s : State) : Bool :=
  dieRuns s || s.boot.phase == .cutoff || s.boot.phase == .moored || s.boot.phase == .wakeRising

/-- ENTROPY_FAILURE (R254). Outside Aloft no firmware has the fault collector, and the fault is reported when forwarding
starts. [DEDUCED, log 98] -/
def entropyFailure (s : State) : State :=
  if aloft s then recordFault (put s Reg.vaultStatusDrbgFault 1) 0x0030 0 0
  else if vaultPowered s then { put s Reg.vaultStatusDrbgFault 1 with vault.entropyUnreported := true } else s

/-! Bulk MAC jobs (R259, R261). -/

/-- Usage bit an MCJ operation needs: generate or verify. [DEDUCED, log 94] -/
def mcjUsage (op : Nat) : Nat := if op = 1 ∨ op = 3 then 0 else if op = 2 ∨ op = 4 then 1 else 7

/-- The master number an MCJ bank belongs to: HB's one bank serves the PCIe host and the SPI port. -/
def mcjBank (m : Master) : Option Nat :=
  match m with
  | .gc c => some (c.val + 1)
  | .host => some 5
  | .spi => some 5
  | _ => none

/-- Region check of a job's source (R319): MC read and the master's write. [DEDUCED, log 94] -/
def mcjSourceOk (s : State) (b src len : Nat) : Bool :=
  1 ≤ len && len ≤ 0x100000 &&
    ((regions s).any fun r => r.1 ≤ src && src + len ≤ r.1 + r.2.1 && bitAt r.2.2.1 3 &&
      bitAt r.2.2.2 (if b = 5 then 0 else 2))

/-- A bulk job ended with a result; its master's interrupt is raised (R355). -/
def mcjEnd (s : State) (b r : Nat) : State :=
  let s1 := put (put s (Reg.mcjStatusState b) 4) (Reg.mcjStatusResult b) r
  raiseSource s1 (if b = 5 then 30 else 30 + b)

/-- Is line work in the MAC cluster: a frame held for its ICV check, or one leaving under a key (R258)? -/
def lineWork (s : State) : Bool :=
  (s.net.packets.any fun e => e.2.hold.isSome) || s.net.macs.any fun e => e.2.key.isSome

/-- Is edge work in the MAC cluster: a message waiting for its tag, or a PDU being secured (R258)? -/
def edgeWork (s : State) : Bool :=
  !s.edge.secJobs.isEmpty || s.edge.rxList.any fun e => e.2.any fun x => x.wait.isSome

/-- Does a job run on a SHA-256 core? -/
def onSha (j : McjJob) : Bool := decide (3 ≤ j.op)

/-- The digest of an image stands among the bulk jobs under a number that no master's bank has (R258). -/
def digestJob : Nat := 6

/-- Rank of a bank's jobs, the lower the higher: firmware's jobs before the host's and the digest of an image (R259). -/
def mcjRank (b : Nat) : Nat := if b = 5 ∨ b = digestJob then 1 else 0

/-- STATE of a bank's job. -/
def mcjState (s : State) (b : Nat) : Nat := get s (Reg.mcjStatusState b)

/-- Jobs running on the two SHA-256 cores. -/
def shaRunning (s : State) : Nat := (s.vault.mcj.filter fun e => onSha e.2 && mcjState s e.1 == 2).length

/-- Contexts in use by suspended jobs. -/
def suspended (s : State) : Nat := get s Reg.macStatusSuspended

/-- A waiting job runs, or runs on from its context. -/
def mcjRun (s : State) (b : Nat) : State :=
  let s1 := if mcjState s b = 3 then put s Reg.macStatusSuspended (suspended s - 1) else s
  put s1 (Reg.mcjStatusState b) 2

/-- The place of a waiting job among those that wait for one kind of core: by rank, suspended jobs ahead of newer ones of
their rank, then by age (R259). -/
def mcjPlace (s : State) (b : Nat) (j : McjJob) : Nat :=
  (2 * mcjRank b + if mcjState s b = 3 then 0 else 1) * 2 ^ 64 + j.since % 2 ^ 64

/-- The next waiting job that a core is free for. A job on an AES core finds one among those that line and edge work leave
free. [DEDUCED, log 94] -/
def mcjNext (s : State) : Option (Nat × McjJob) :=
  minBy (fun e => mcjPlace s e.1 e.2)
    (s.vault.mcj.filter fun e => (mcjState s e.1 == 1 || mcjState s e.1 == 3) && (!onSha e.2 || decide (shaRunning s < 2)))

/-- Waiting jobs taken up while cores are free; there are five banks, and a digest of an image. -/
def mcjServe (s : State) : State :=
  forIdx 6 (fun _ st => match mcjNext st with | some e => mcjRun st e.1 | none => st) s

/-- The digest of an image asked for: it waits for a SHA-256 core (R258, R259). [DEDUCED, log 94] -/
def digestStart (s : State) : State :=
  mcjServe (put { s with vault.mcj := s.vault.mcj.set digestJob ⟨7, 0, 0, 0, 0, [], s.time.now⟩ }
    (Reg.mcjStatusState digestJob) 1)

/-- The digest of an image is over, or given up: its core and its context are free again. [DEDUCED, log 94] -/
def digestEnd (s : State) : State :=
  let s1 := if mcjState s digestJob = 3 then put s Reg.macStatusSuspended (suspended s - 1) else s
  mcjServe (put { s1 with vault.mcj := s1.vault.mcj.del digestJob } (Reg.mcjStatusState digestJob) 0)

/-- Has the digest of an image its core, or does none wait for one? [DEDUCED, log 94] -/
def digestMay (s : State) : Bool := !s.vault.mcj.has digestJob || mcjState s digestJob == 2

/-- MCJ_GO (R261, R319). [DEDUCED, log 94] -/
def mcjGo (s : State) (m : Master) (w : Nat) : State :=
  match mcjBank m with
  | none => s
  | some b =>
    let busy := (s.vault.mcj.find b).isSome
    if busy then (if bitAt w 12 then put s (Reg.mcjStatusResult b) 5 else s)
    else
      let s1 := put (put s (Reg.mcjCtlOp b) (bitsAt w 0 3)) (Reg.mcjCtlSlot b) (bitsAt w 3 9)
      if !bitAt w 12 then s1
      else
        let op := bitsAt w 0 3
        let i := bitsAt w 3 9
        let src := get s1 (Reg.mcjSrc b)
        let len := get s1 (Reg.mcjLen b)
        let k := keyCheck s1 i (requester m).1 (requester m).2 (mcjUsage op)
        if !mcjSourceOk s1 b src len then mcjEnd s1 b 5
        else if k = 1 then mcjEnd s1 b 4
        else if k = 2 then mcjEnd s1 b 2
        else if k = 3 then mcjEnd (countDenied s1 3) b 3
        else mcjServe (put (put { s1 with vault.mcj := s1.vault.mcj.set b ⟨op, i, genOf s1 i, src, len, [], s1.time.now⟩ }
          (Reg.mcjStatusState b) 1) (Reg.mcjStatusResult b) 0)

/-- Is there work that a running job makes way for: line or edge work waiting for its AES core, a waiting job of higher
rank for its SHA-256 core (R259)? [DEDUCED, log 94] -/
def mcjYields (s : State) (b : Nat) (j : McjJob) : Bool :=
  if onSha j then s.vault.mcj.any fun e => onSha e.2 && (mcjState s e.1 == 1 || mcjState s e.1 == 3) &&
    decide (mcjRank e.1 < mcjRank b)
  else lineWork s || edgeWork s

/-- Bytes of a block of a job's core. -/
def mcjBlock (j : McjJob) : Nat := if onSha j then 64 else 16

/-- One more context in use. -/
def takeContext (s : State) : State := bump (put s Reg.macStatusSuspended (suspended s + 1)) Reg.macSuspends

/-- Is a core's running job bulk MAC work? [DEDUCED, log 94] -/
def bulkKind (k : JobKind) : Bool :=
  match k with
  | .sbSeal _ _ => true
  | .attest => true
  | .keyDerive => true
  | .prepare => true
  | .castlingPrepare => true
  | .fvSave => true
  | _ => false

/-- The core of a master, 0 for the safety pair. -/
def coreOf (m : Master) : Option Nat :=
  match m with
  | .sp => some 0
  | .gc c => some (c.val + 1)
  | _ => none

/-- The digest of an image makes way, while a context is free (R259). -/
def digestSuspend (s : State) : State :=
  match s.vault.mcj.find digestJob with
  | some j =>
    if mcjState s digestJob = 2 ∧ suspended s < 32 ∧ mcjYields s digestJob j then
      mcjServe (takeContext (put s (Reg.mcjStatusState digestJob) 3))
    else s
  | none => s

/-- The bulk work of a master's core makes way; where there is none, the digest of an image does (R259). -/
def coreSuspend (s : State) (m : Master) : State :=
  match coreOf m with
  | some c =>
    if (s.jobs.running.find c).any (fun j => bulkKind j.kind) ∧ !s.vault.suspCores.contains c ∧ suspended s < 32 ∧
        (lineWork s ∨ edgeWork s) then
      takeContext { s with vault.suspCores := c :: s.vault.suspCores }
    else digestSuspend s
  | none => digestSuspend s

/-- A job whose source ECC cannot correct ends; no RESULT is stated for it (R314). -/
def mcjBroken (s : State) (b : Nat) : State :=
  let d := draw { s with vault.mcj := s.vault.mcj.del b } 16
  mcjServe (mcjEnd d.2 b d.1)

/-- A job reads its source on, up to its byte number `upto`, and `f` goes on with all it has read; a word that a scrub has
marked, or that is met bad, ends it (R261, R314). -/
def mcjRead (s : State) (b : Nat) (j : McjJob) (upto : Nat) (ecc : BankEcc) (f : State → List Byte → State) : State :=
  let off := j.src + j.read.length
  let n := min j.len upto - j.read.length
  let bytes := j.read ++ Mem.readBytes s.mem.bankH 0 off n
  if n = 0 then f s bytes
  else match hitsMark s .h off n with
    | some w => mcjBroken (unmark s .h w) b
    | none => match ecc with
      | .uncorrectable w => mcjBroken (eccError s .h (badWord off w)) b
      | .corrected => f (bump s (Reg.bankEccEccCorr 2)) bytes
      | .clean => f s bytes

/-- A job is suspended with what it has read. -/
def mcjPause (b : Nat) (j : McjJob) (s : State) (bytes : List Byte) : State :=
  let s1 := takeContext (put { s with vault.mcj := s.vault.mcj.set b { j with read := bytes } } (Reg.mcjStatusState b) 3)
  if onSha j then mcjServe s1 else s1

/-- MCJ_SUSPEND (R259): a job that makes way is suspended at its next block boundary, while a context is free; the
bytes up to that boundary have been read. Where the master's bank runs no job, the bulk work of its core's budgeted job
is. How far a job has come is not stated. -/
def mcjSuspend (s : State) (m : Master) : State :=
  match mcjBank m with
  | none => coreSuspend s m
  | some b =>
    match s.vault.mcj.find b with
    | none => coreSuspend s m
    | some j =>
      if mcjState s b = 2 ∧ suspended s < 32 ∧ mcjYields s b j then
        let k := mcjBlock j
        let d := draw s (j.len / k - divUp j.read.length k + 1)
        let upto := max j.read.length (k * (divUp j.read.length k + d.1))
        mcjRead d.2 b j upto .clean fun st bytes => mcjPause b j st bytes
      else s

/-- A core's suspended work resumes: its job completes. -/
def resumeCore (s : State) (c : Nat) : State :=
  if s.vault.suspCores.contains c then
    { put s Reg.macStatusSuspended (suspended s - 1) with vault.suspCores := s.vault.suspCores.filter (· ≠ c) }
  else s

/-- A job's output from the bytes it has read: the tag produced, or compared (R253, R261). -/
def mcjFinish (b : Nat) (j : McjJob) (s : State) (bytes : List Byte) : State :=
  let s1 := { s with vault.mcj := s.vault.mcj.del b }
  let tag := if onSha j then slice (Config.hmac (keyOf s1 j.slot) bytes) 0 32
    else slice (Config.cmac (keyOf s1 j.slot) bytes) 0 16
  let s2 := bump s1 (usesFld j.slot)
  mcjServe <|
    if j.op = 1 ∨ j.op = 3 then
      mcjEnd (forIdx (tag.length / 4) (fun i st => put st (Reg.mcjTag b i) (leAt tag (4 * i) 4)) s2) b 0
    else
      let want := (regBytes s2 8 (Reg.mcjTag b)).take tag.length
      mcjEnd s2 b (if want = tag then 0 else 1)

/-- MCJ_DONE (R253, R261): the rest of the source is read, and the tag produced or compared; a key revoked meanwhile
discards the output. A waiting job whose turn has come runs first; one whose turn has not come does not complete. A slot
that a tamper emptied answers EMPTY, any other that has gone was revoked. [DEDUCED, log 81; DEDUCED, log 94] -/
def mcjDone (s : State) (m : Master) (ecc : BankEcc) : State :=
  match mcjBank m with
  | none => s
  | some b =>
    match s.vault.mcj.find b with
    | none => s
    | some j =>
      let s0 := mcjServe s
      if mcjState s0 b ≠ 2 then s0
      else if !slotReady s0 j.slot ∨ genOf s0 j.slot ≠ j.gen then
        mcjServe (mcjEnd (bump { s0 with vault.mcj := s0.vault.mcj.del b } Reg.keyStatsRevokedAborts) b
          (if flag s0 Reg.vaultStatusTamperLatch then 4 else 2))
      else mcjRead s0 b j j.len ecc fun st bytes => mcjFinish b j st bytes

/-! Attestation (R262). -/

/-- ATT_CTL.RESULT set; source 20 is raised when it changes. -/
def attResult (s : State) (r : Nat) : State :=
  let s1 := put s Reg.attCtlResult r
  if get s Reg.attCtlResult = r then s1 else raiseSource s1 20

/-- RESULT of ATT_CTL for a job that no budget holds (R353): a code beside the three that the register's table gives. -/
def attTooLarge : Nat := 3 + Config.attTooLarge % 13

/-- ATT_GO (R262), by HB or SP. A job that no budget holds is not started, and RESULT says so (R48, R353).
[DEDUCED, log 120] -/
def attGo (s : State) (m : Master) (w : Nat) : State :=
  if !bitAt w 0 ∨ !(m == .sp || m == .host || m == .spi) then s
  else if get s Reg.attCtlState = 1 then attResult s 2
  else if keyCheck s 2 1 true 0 ≠ 0 then
    let s1 := forIdx 42 (fun i st => put st (Reg.attResp i) 0) s
    attResult (put s1 Reg.attCtlState 2) 1
  else if tooLarge s (someGc s) (jobBound s .attest) then attResult s attTooLarge
  else requestGc (put s Reg.attCtlState 1) .attest

/-- Is an attestation job still queued or running? -/
def attPending (s : State) : Bool :=
  (s.jobs.queue.any fun j => j.kind == .attest) || (s.jobs.running.any fun e => e.2.kind == .attest)

/-- SHA-256 of the running firmware image, from its header in the running slot (R386). -/
def fwDigest (s : State) : List Byte :=
  slice (Mem.readBytes (if s.boot.slotB then s.mem.flashB else s.mem.flashA) 0xFF 0 128) 0x20 32

/-- The 152 bytes of the attestation message (R262). -/
def attMessage (s : State) : List Byte :=
  regBytes s 4 Reg.attNonce ++
  leBytes 4 (get s Reg.identPart * 2 ^ 16 + get s Reg.identStepMajor * 2 ^ 8 + get s Reg.identStepMinor) ++
  slice Config.uid 0 16 ++ fwDigest s ++ regBytes s 8 Reg.envDigest ++
  leBytes 1 (lifeCycle s) ++ leBytes 1 (b2n s.boot.slotB) ++ zeros 2 ++
  leBytes 8 (s.sheet.nextSeq - 1) ++ slice s.sheet.headHash 0 32 ++ leBytes 8 (tempoNo s)

/-- ATTESTATION_DONE (R262): the message and its CMAC under slot 2. -/
def attestationDone (s : State) : State :=
  if get s Reg.attCtlState ≠ 1 ∨ attPending s then s
  else if !slotReady s 2 then
    attResult (put (forIdx 42 (fun i st => put st (Reg.attResp i) 0) s) Reg.attCtlState 2) 1
  else
    let msg := attMessage s
    let res := msg ++ slice (Config.cmac (keyOf s 2) msg) 0 16
    let s1 := forIdx 42 (fun i st => put st (Reg.attResp i) (leAt res (4 * i) 4)) s
    attResult (put (bump s1 (usesFld 2)) Reg.attCtlState 2) 0

/-! Envelope keys (R243) and tamper (R265). -/

/-- VK_REVOKE (R243): in PROVISIONED and FIELD, on a request of HB, unless none would remain. The safety pair programs the
fuse (R298), so it has to run firmware. -/
def vkRevoke (s : State) (m : Master) (k : Nat) : State :=
  let left := (List.range 4).any fun i => i != k && bitAt s.otp.vkProg i && !bitAt s.otp.vkRevoked i
  if aloft s ∧ masterRuns s .sp ∧ (m = .host ∨ m = .spi) ∧ (lifeCycle s = 1 ∨ lifeCycle s = 2) ∧
      bitAt s.otp.vkProg k ∧ !bitAt s.otp.vkRevoked k ∧ left then
    journal { s with otp.vkRevoked := s.otp.vkRevoked ||| 2 ^ k } 0x0013 (leBytes 1 k)
  else s

/-- Cause bit of a tamper. -/
def tamperBit : TamperCause → Nat
  | .pin => 0
  | .voltage => 1
  | .clock => 2

/-- Does the event act? A TAMPER_N pulse below 200 ns does not, one above 1 us does, and between the two
it may: a free value decides. -/
def tamperActs (s : State) (c : TamperCause) (ns : Nat) : Bool × State :=
  match c with
  | .pin =>
    if ns < 200 then (false, s)
    else if 1000 < ns then (true, s)
    else
      let d := draw s 2
      (d.1 == 1, d.2)
  | _ => (true, s)

/-- Power state at detection, for the TAMPER entry: 0 Aloft, 1 Moored, 2 Parked. -/
def powerCode (s : State) : Nat :=
  match s.boot.phase with
  | .moored => 1
  | .parked => 2
  | _ => 0

/-- TAMPER (R265): every share and the secure sub-bank zeroed, the latch and cause set, the fault
reported; in Parked only the always-on latch acts. [DEDUCED, log 98] -/
def tamper (s : State) (c : TamperCause) (ns : Nat) : State :=
  if s.boot.phase = .off then s
  else
    let a := tamperActs s c ns
    if !a.1 then a.2
    else
      let s0 := put (put a.2 Reg.vaultStatusTamperLatch 1) Reg.vaultStatusTamperCause
        (get a.2 Reg.vaultStatusTamperCause ||| 2 ^ tamperBit c)
      let s1 := wipeSecure { s0 with vault.slots := [], vault.tamperPower := powerCode s }
      if aloft s then recordFault (refreshSheet s1) 0x0031 0 (get s1 Reg.vaultStatusTamperCause)
      else { s1 with vault.tamperUnreported := true }

/-- TAMPER_CLR (R265): the vault as at cold boot, with GEN + 1 for every refilled slot, and the TAMPER
entry. -/
def tamperClear (s : State) (w : Nat) : State :=
  if !bitAt w 0 ∨ !flag s Reg.vaultStatusTamperLatch then s
  else
    let cause := get s Reg.vaultStatusTamperCause
    let s1 := put (put s Reg.vaultStatusTamperLatch 0) Reg.vaultStatusTamperCause 0
    let s2 := refreshSheet (writeKeys (buildKeys s1 (curSlot s1) nextGen))
    journal s2 0x0021 (leBytes 1 cause ++ leBytes 1 s.vault.tamperPower)

/-! Meanings. -/

/-- REVOKE. -/
def execRevoke (m : Master) (w : Word) (s : State) : Host.Outcome State Fault Refusal :=
  .next (accessWrite s m 0xC0034 fun st => revokeWrite st m w.toNat)

/-- IMPORT. -/
def execImportKey (m : Master) (w : Word) (s : State) : Host.Outcome State Fault Refusal :=
  .next (accessWrite s m 0xC0050 fun st => importWrite st m w.toNat)

/-- REMASK. -/
def execRemask (s : State) : Host.Outcome State Fault Refusal := .next (remask s)

/-- ENTROPY_FAILURE. -/
def execEntropyFailure (s : State) : Host.Outcome State Fault Refusal := .next (entropyFailure s)

/-- MCJ_GO. -/
def execMcjGo (m : Master) (w : Word) (s : State) : Host.Outcome State Fault Refusal :=
  .next (accessWrite s m 0xC0180 fun st => mcjGo st m w.toNat)

/-- MCJ_SUSPEND. -/
def execMcjSuspend (m : Master) (s : State) : Host.Outcome State Fault Refusal := .next (mcjSuspend s m)

/-- MCJ_DONE. -/
def execMcjDone (m : Checked Master) (s : State) : Host.Outcome State Fault Refusal := .next (mcjDone s m.arg m.ecc)

/-- ATT_GO. -/
def execAttGo (m : Master) (w : Word) (s : State) : Host.Outcome State Fault Refusal :=
  .next (accessWrite s m 0xC0210 fun st => attGo st m w.toNat)

/-- ATTESTATION_DONE. -/
def execAttestationDone (s : State) : Host.Outcome State Fault Refusal := .next (attestationDone s)

/-- VK_REVOKE. -/
def execVkRevoke (m : Master) (key : Fin 4) (s : State) : Host.Outcome State Fault Refusal :=
  .next (vkRevoke s m key)

/-- TAMPER. -/
def execTamper (cause : TamperCause) (ns : Nat) (s : State) : Host.Outcome State Fault Refusal :=
  .next (tamper s cause ns)

/-- TAMPER_CLR. -/
def execTamperClr (m : Master) (w : Word) (s : State) : Host.Outcome State Fault Refusal :=
  .next (accessWrite s m 0xC0044 fun st => tamperClear st w.toNat)

end Sys2Proof.Machine
end

