-- ==== Sys2Proof/Machine/Epochs.lean ====
section
/-!
DEFINITION. The envelope and epoch commits (chapter 3): image validation and loading, the staging set,
preparation of a commit in a free slot, arming, cancelling, latches and the freeing of slots.
-/
namespace Sys2Proof.Machine

/-! Records of R68. -/

/-- A record of R68: TABLE, OP, INDEX and body. -/
structure PolRec where
  table : Nat
  op : Nat
  index : Nat
  body : List Byte
deriving DecidableEq, Repr

/-- A sequence of R68 records, at most `fuel` of them, up to the first that is malformed: its header is, or its body runs
past the end. Then that record's TABLE stands beside them. [DESIGN CHOICE, log 48] -/
def parseRecs : Nat → List Byte → List PolRec × Option Nat
  | _, [] => ([], none)
  | 0, bs => ([], some (leAt bs 0 4))
  | fuel + 1, bs =>
    let len := leAt bs 12 4
    let op := u8 bs 4
    if bs.length < 16 + len ∨ !allZero bs 5 3 ∨ op < 1 ∨ 3 < op ∨ len % 8 ≠ 0 ∨ (op = 2 ∧ len ≠ 0) then ([], some (leAt bs 0 4))
    else
      let r := parseRecs fuel (bs.drop (16 + len))
      (⟨leAt bs 0 4, op, leAt bs 8 4, slice bs 16 len⟩ :: r.1, r.2)

/-- A configuration under construction: its view, the entries of every other slot that is not free, and
the vault slots whose recipe it has added or replaced. -/
structure Build where
  view : View
  others : List (Nat × List Byte)
  touched : List Nat
deriving DecidableEq, Repr

/-- Number of a versioned table: section * 256 + table selector. -/
def tableOf (key : Nat) : Nat := key / 2 ^ 24

/-- Capacity in storage entries of the versioned tables (R64, R108, R151, R203, R240). -/
def capacity (tid : Nat) : Option Nat :=
  match tid with
  | 0x12000 => some 16384
  | 0x12100 => some 512
  | 0x14000 => some 1024
  | 0x10002 => some 4096
  | 0x21000 => some 8192
  | 0x30001 => some 8192
  | 0x31000 => some 4096
  | _ => none

/-- The distinct entries of a table among lists of keyed entries: its storage entries in use (R64). -/
def storedOf (tid : Nat) (es : List (Nat × List Byte)) : List (Nat × List Byte) :=
  (es.filter fun e => tableOf e.1 == tid).dedup

/-- Does the table have room for what the build now holds? -/
def Build.fits (b : Build) (tid : Nat) : Bool :=
  match capacity tid with
  | none => true
  | some c => (storedOf tid (b.others ++ b.view.pol)).length ≤ c

/-- A record applied to a build (R68, R65): the commit result and DETAIL on failure. Results: 4 INVALID,
6 TABLE_FULL. -/
def applyRec (b : Build) (r : PolRec) : Except (Nat × Nat) Build :=
  let key := r.table * 2 ^ 32 + r.index
  let held := (SMap.find b.view.pol key).isSome
  let note := if r.table = 0x0500 ∧ r.op ≠ 2 ∧ 8 ≤ r.index then r.index :: b.touched else b.touched
  if r.op = 2 then
    if held then .ok { b with view.pol := SMap.del b.view.pol key } else .error (4, r.table)
  else if (r.op = 1) = held then .error (4, r.table)
  else if !recordOk b.view r.table r.index r.body then .error (4, r.table)
  else
    let b1 : Build := { b with view.pol := SMap.set b.view.pol key r.body, touched := note }
    if b1.fits (tableOf key) then .ok b1 else .error (6, r.table)

/-- A whole policy section put in place of what the build holds of it (R67): its records must all be
additions to the section's own table; PARSER is one block. -/
def applySection (b : Build) (type : Nat) (body : List Byte) : Except (Nat × Nat) Build :=
  let b0 : Build := { b with view.pol := SMap.keep b.view.pol fun k _ => k / 2 ^ 32 != type }
  if body.isEmpty then .ok b0
  else if type = 0x0110 then
    if parserOk body then .ok { b0 with view.pol := SMap.set b0.view.pol (type * 2 ^ 32) body }
    else .error (4, type)
  else
    let p := parseRecs body.length body
    match p.1.foldlM (fun (b : Build) (r : PolRec) => show Except (Nat × Nat) Build from
        if r.table == type && r.op == 1 then applyRec b r else .error (4, type)) b0 with
    | .error x => .error x
    | .ok b => if p.2.isSome then .error (4, type) else .ok b

/-! Placement in the shadow table and in the forwarding database (R108, R454). -/

/-- The two buckets of a stream's shadow key: bank 0 first. -/
def shadowBuckets (key : List Byte) : List Nat :=
  let h := crc32 key
  [h % 256, 256 + (h / 65536) % 256]

/-- One stream put into the shadow table, moving others between their two buckets where that makes room:
buckets tried so far, and the placement as pairs of a stream and its bucket. -/
def placeStream (keys : List (List Byte)) :
    Nat → List Nat × List (Nat × Nat) → Nat → List Nat × Option (List (Nat × Nat))
  | 0, (seen, _), _ => (seen, none)
  | fuel + 1, (seen, placed), i =>
    (shadowBuckets ((keys[i]?).getD [])).foldl (fun (acc : List Nat × Option (List (Nat × Nat))) bk =>
      match acc.2 with
      | some p => (acc.1, some p)
      | none =>
        if acc.1.contains bk then acc
        else
          let held := (placed.filter fun e => e.2 == bk).map fun e => e.1
          if held.length < 4 then (bk :: acc.1, some ((i, bk) :: placed))
          else held.foldl (fun (a : List Nat × Option (List (Nat × Nat))) j =>
            match a.2 with
            | some p => (a.1, some p)
            | none =>
              let r := placeStream keys fuel (a.1, placed.filter fun e => e.1 != j) j
              (r.1, r.2.map fun p => (i, bk) :: p)) (bk :: acc.1, none)) (seen, none)

/-- Does an arrangement of all these streams exist (R454)? -/
def placeable (keys : List (List Byte)) : Bool :=
  ((List.range keys.length).foldl (fun (acc : Option (List (Nat × Nat))) i =>
    match acc with
    | none => none
    | some p => (placeStream keys 513 ([], p) i).2) (some [])).isSome

/-- The bucket of (FID, address) in the forwarding database (R453). -/
def fdbBucket (fid : Nat) (mac : List Byte) : Nat := crc32 (beBytes 2 fid ++ mac) % 8192

/-- The bucket of a static entry's body. -/
def staticBucket (body : List Byte) : Nat := fdbBucket (leAt body 6 2) (slice body 0 6)

/-- The checks that need every slot that is not free (R108, R152): a section whose storage has no
arrangement. -/
def placementFails (b : Build) : Option Nat :=
  let st := storedOf 0x10002 (b.others ++ b.view.pol)
  let streams := (storedOf 0x14000 (b.others ++ b.view.pol)).filter fun e => bitAt (u8 e.2 1) 0
  if st.any fun e => 4 < (st.filter fun f => staticBucket f.2 == staticBucket e.2).length then some 0x0100
  else if !placeable (streams.map fun e => streamKey e.2) then some 0x0140
  else none

/-! MACsec SAs of a configuration (R96, R99, R245). -/

/-- The VALID SAs of a port under a valuation of CMT fields, with their key slots; none without
MACSEC_CAP. -/
def validSas (v : View) (cmt : Fld → Nat) (p : Nat) : List (Nat × Nat) :=
  if bitAt (u8 (portEntry v p) 2) 3 then
    (List.range 36).filterMap fun i =>
      if cmt (Reg.saKeyValid p i) = 1 then some (i, cmt (Reg.saKeyKeySlot p i)) else none
  else []

/-- The rules on SAs: distinct key slots on a port, no transmit key on two ports, length by suite, and
use by PORT permitted. -/
def sasOk (v : View) (cmt : Fld → Nat) : Bool :=
  let tx := (List.range 48).flatMap fun p => ((validSas v cmt p).filter fun a => a.1 < 4).map fun a => (p, a.2)
  allIdx 48 (fun p =>
    let l := validSas v cmt p
    let want := if cmt (Reg.macsecCfgSuite p) % 2 = 0 then 128 else 256
    noDup (l.map fun a => a.2) &&
    l.all fun a => slotBits v a.2 == want && slotServes v a.2 3 (if a.1 < 4 then 0 else 1)) &&
  (tx.all fun a => tx.all fun b => a.1 == b.1 || a.2 != b.2)

/-! Initial CMT values of a load (R83, R241, R356, R371). -/

/-- CMT fields that a structural section sets, with their values; every other CMT field starts at its
Reset value. -/
def initialCmt (v : View) : List (Fld × Nat) :=
  (List.range 48).flatMap (fun p =>
    let b := portEntry v p
    let fl := u8 b 2
    let m := leAt b 16 4
    [(Reg.portCtlAdminEn p, b2n (bitAt fl 4))] ++
    (if bitAt fl 3 then
      [(Reg.macsecCfgTxEn p, bitsAt m 0 1), (Reg.macsecCfgRxEn p, bitsAt m 1 1), (Reg.macsecCfgSuite p, bitsAt m 2 2),
       (Reg.macsecCfgTxAn p, bitsAt m 4 2), (Reg.macsecCfgIncludeSci p, bitsAt m 6 1),
       (Reg.macsecCfgBypassPtp p, bitsAt m 7 1), (Reg.macsecCfgReplayEn p, bitsAt m 8 1),
       (Reg.macsecCfgRxScEn p, bitsAt m 16 8), (Reg.sciTx p, leAt b 24 8), (Reg.sciRx p 0, leAt b 32 8)] ++
      (if leAt b 20 2 = 0xFFFF then []
       else [(Reg.saKeyValid p 0, 1), (Reg.saKeyKeySlot p 0, leAt b 20 2)]) ++
      (if leAt b 22 2 = 0xFFFF then []
       else [(Reg.saKeyValid p 4, 1), (Reg.saKeyKeySlot p 4, leAt b 22 2)])
     else [])) ++
  (List.range 256).filterMap (fun n => if v.declared n then some (Reg.chCtlAdminEn n, 1) else none)

/-- CLASS, TARGET and VECTOR of a source as FAULT gives them in a configuration (R370, R371). -/
def sourceCmt (v : View) (n : Nat) : List (Fld × Nat) :=
  match v.entry 0x0800 (2 * 2 ^ 24 + n) with
  | some b => [(Reg.srcCfgClass n, u8 b 1), (Reg.srcCfgTarget n, u8 b 2), (Reg.srcCfgVector n, u8 b 3)]
  | none => [(Reg.srcCfgClass n, srcClassReset n), (Reg.srcCfgTarget n, srcTargetReset n),
      (Reg.srcCfgVector n, srcVectorReset n)]

/-- A list of CMT fields as a valuation. -/
def valuation (l : List (Fld × Nat)) (f : Fld) : Nat :=
  match l.find? fun e => e.1 == f with
  | some e => e.2
  | none => f.reset

/-! Validation of an image (R56). -/

/-- What a valid envelope gives. -/
structure Loaded where
  view : View
  sealed : List Nat
  serial : Nat
  minStep : Nat
  keyId : Nat
  digest : List Byte
deriving DecidableEq, Repr

/-- The section table entries: TYPE, OFFSET, LENGTH and FLAGS. -/
def sectTable (env : List Byte) (n : Nat) : List (Nat × Nat × Nat × Nat) :=
  (List.range n).map fun i =>
    let o := 0x80 + 16 * i
    (leAt env o 4, leAt env (o + 4) 4, leAt env (o + 8) 4, leAt env (o + 12) 4)

/-- R52 and R53. -/
def sectTableOk (env : List Byte) (n : Nat) : Bool :=
  let t := sectTable env n
  inR n 6 64 && 0x80 + 16 * n ≤ env.length &&
  decide (t.Pairwise fun a b => a.1 < b.1) &&
  (t.all fun e =>
    (structuralCodes.contains e.1 || policyCodes.contains e.1) && e.2.1 % 8 == 0 && 8 ≤ e.2.2.1 &&
    0x80 + 16 * n ≤ e.2.1 && e.2.1 + e.2.2.1 ≤ env.length && e.2.2.2 ≤ 1 &&
    leAt env e.2.1 4 == e.1 && leAt env (e.2.1 + 4) 4 == e.2.2.1 - 8) &&
  spansApart (t.map fun e => (e.2.1, e.2.1 + e.2.2.1)) &&
  structuralCodes.all fun c => t.any fun e => e.1 == c

/-- The content rules of the structural sections, in ascending type: the first that fails. [DESIGN CHOICE, log 48] -/
def structuralFails (v : View) : Option Nat :=
  if !((v.sect 0x0010).length == 2304 && allIdx 48 (portEntryOk v)) then some 0x0010
  else if !((v.sect 0x0011).length == 64 && allIdx 4 (laneEntryOk v)) then some 0x0011
  else if !edgesOk v then some 0x0020
  else if !banksOk v then some 0x0030
  else if !timeOk v then some 0x0040
  else none

/-- The sections' content and then the capacities: a LOAD_RESULT of 8 BAD_SECTION or 9 CAPACITY with the
section, or the whole configuration. -/
def loadSections (env : List Byte) (t : List (Nat × Nat × Nat × Nat)) : Except (Nat × Nat) View :=
  let body := fun (e : Nat × Nat × Nat × Nat) => slice env (e.2.1 + 8) (e.2.2.1 - 8)
  let str := (t.filter fun e => structuralCodes.contains e.1).map fun e => (e.1, body e)
  let v0 : View := ⟨str, []⟩
  match structuralFails v0 with
  | some c => .error (8, c)
  | none =>
    let b0 : Build := ⟨v0, [], []⟩
    match (t.filter fun e => policyCodes.contains e.1).foldlM
        (fun b e => (applySection b e.1 (body e)).mapError fun x => (if x.1 = 6 then 9 else 8, e.1)) b0 with
    | .error x => .error x
    | .ok b =>
      match crossCheck b.view with
      | some c => .error (8, c)
      | none =>
        if !sasOk b.view (valuation (initialCmt b.view)) then .error (8, 0x0010)
        else match placementFails b with
          | some c => .error (9, c)
          | none => .ok b.view

/-- Is an envelope verification key programmed and not revoked (R243)? -/
def vkUsable (s : State) (k : Nat) : Bool := k ≤ 3 && bitAt s.otp.vkProg k && !bitAt s.otp.vkRevoked k

/-- The stepping of this device, IDENT[15:0] (R56, R451). -/
def stepping : Nat := Reg.identStepMajor.reset * 256 + Reg.identStepMinor.reset

/-- Validation of an envelope in the order of R56: `rd` reads the slot from the envelope's start, with
`space` bytes left in it. LOAD_RESULT and the failing section, or what the envelope gives. -/
def validateEnv (s : State) (rd : Nat → Nat → List Byte) (space : Nat) : Except (Nat × Nat) Loaded :=
  let h := rd 0 0x80
  let len := leAt h 8 4
  if leAt h 0 4 ≠ 0x56454B47 ∨ leAt h 4 2 ≠ 1 ∨ !allZero h 0x71 15 then .error (1, 0)
  else if 0x1000000 < len ∨ len % 8 ≠ 0 ∨ space < len then .error (2, 0)
  else
    let env := rd 0 len
    let digest := slice h 0x10 32
    if Config.sha256 (env.take 0x10 ++ env.drop 0x70) ≠ digest then .error (3, 0)
    else if !vkUsable s (u8 h 0x70) ∨ !Config.ecdsaVerify (u8 h 0x70) digest (slice h 0x30 64) then .error (4, 0)
    else if stepping < leAt h 12 2 then .error (5, 0)
    else if !sectTableOk env (leAt h 14 2) then .error (6, 0)
    else
      let t := sectTable env (leAt h 14 2)
      let ident := match t.find? fun e => e.1 == 0x0001 with
        | some e => slice env (e.2.1 + 8) (e.2.2.1 - 8)
        | none => []
      if !identOk ident (leAt h 12 2) then .error (7, 0x0001)
      else match loadSections env t with
        | .error x => .error x
        | .ok v => .ok ⟨v, (t.filter fun e => e.2.2.2 == 1 && policyCodes.contains e.1).map fun e => e.1,
            leAt ident 4 4, leAt h 12 2, u8 h 0x70, digest⟩

/-! Firmware slots (R386). -/

/-- The flash memory of slot A or B. [DESIGN CHOICE, log 9] -/
def slotMem (s : State) (b : Bool) : Mem := if b then s.mem.flashB else s.mem.flashA

/-- Bytes of a firmware slot; erased flash reads as all ones. -/
def slotBytes (s : State) (b : Bool) (off n : Nat) : List Byte := Mem.readBytes (slotMem s b) 0xFF off n

/-- The fields of a slot header up to FW_SIG. -/
def slotHeader (s : State) (b : Bool) : List Byte := slotBytes s b 0 0x80

/-- FW_LEN, ENV_OFFSET and SP_LEN of a header. -/
def fwLen (h : List Byte) : Nat := leAt h 0x8 4
def envOffset (h : List Byte) : Nat := leAt h 0xC 4
def spLen (h : List Byte) : Nat := leAt h 0x14 4

/-- The envelope of a slot, validated (R56): what it gives, or LOAD_RESULT and the failing section. -/
def slotEnvelope (s : State) (b : Bool) : Except (Nat × Nat) Loaded :=
  let o := envOffset (slotHeader s b)
  validateEnv s (fun off n => slotBytes s b (o + off) n) (0x3000000 - o)

/-! Storage of versioned entries. -/

/-- Slots that are not free. -/
def liveSlots (s : State) : List Nat := (List.range 4).filter fun i => slotState s i != 0

/-- The entries of every slot that is not free, but for one, keyed as in a View. -/
def otherEntries (s : State) (slot : Nat) : List (Nat × List Byte) :=
  s.env.policy.filterMap fun e =>
    let o := e.1 / 2 ^ 48
    if o ≠ slot ∧ slotState s o ≠ 0 then some (e.1 % 2 ^ 48, e.2) else none

/-- The entries of every slot that is not free. -/
def liveEntries (s : State) : List (Nat × List Byte) :=
  s.env.policy.filterMap fun e =>
    if slotState s (e.1 / 2 ^ 48) ≠ 0 then some (e.1 % 2 ^ 48, e.2) else none

/-- Membership mask of an entry: the slots, not free, that hold it with this body (R64). -/
def membership (s : State) (key : Nat) (body : List Byte) : Nat :=
  ((List.range 4).filter fun i => slotState s i != 0 &&
    (s.env.policy.find (i * 2 ^ 48 + key)) == some body).map (fun i => 2 ^ i) |>.sum

/-- The way a static entry takes in its bucket (R108): a free way, or the way of the learned entry longest
without a hit. -/
def staticWay (s : State) (b : Nat) : Option Nat :=
  let ways := (List.range 4).map fun w => 4 * b + w
  match ways.find? fun w => !s.net.static.has w && !s.net.learned.has w with
  | some w => some w
  | none => minBy (fun w => ((s.net.learned.find w).map fun e => e.hitAt).getD 0)
      (ways.filter fun w => !s.net.static.has w)

/-- A static entry given its way, displacing a learned entry if it must. -/
def placeStatic (s : State) (e : Nat × List Byte) : State :=
  match staticWay s (staticBucket e.2) with
  | some w => { s with net.static := s.net.static.set w e, net.learned := s.net.learned.del w }
  | none => s

/-- Storage brought in line with the slots that are not free, and the registers that count it. -/
def refreshStorage (s : State) : State :=
  let live := liveEntries s
  let st := storedOf 0x10002 live
  let s0 := { s with net.static := SMap.keep s.net.static fun _ e => st.contains e }
  let have_ := s0.net.static.map fun e => e.2
  let s1 := (st.filter fun e => !have_.contains e).foldl placeStatic s0
  let s2 := put (put s1 Reg.fdbStatusStatic st.length) Reg.fdbStatusLearned (min 65535 s1.net.learned.length)
  let s3 := put s2 Reg.clsUsedRulesUsed (storedOf 0x12000 live).length
  let s4 := put s3 Reg.clsUsedRangesUsed (storedOf 0x12100 live).length
  showPools (put s4 Reg.streamsUsed (storedOf 0x14000 live).length)

/-- Registers that show the current slot's policy: CONT_STATUS.VALID, SHADOW_STATUS.ACTIVE and SW_CFG. -/
def refreshCurrent (s : State) : State :=
  let v := slotView s (curSlot s)
  let valid := ((List.range 8).filter (v.profValid ·)).map (fun p => 2 ^ p) |>.sum
  let glob := (v.entry 0x0100 (5 * 2 ^ 24)).getD []
  let has := !glob.isEmpty
  let s1 := put s Reg.contStatusValid valid
  let s2 := putFlag s1 Reg.shadowStatusActive ((v.recs 0x0140).any fun e => bitAt (u8 e.2 1) 0)
  let s3 := put s2 Reg.swCfgAgeTime (if has then leAt glob 0 4 else 300)
  put s3 Reg.swCfgRecircMax (if has then u8 glob 4 else 3)

/-- A slot's policy replaced whole. -/
def setSlotPolicy (s : State) (slot : Nat) (pol : SMap (List Byte)) : State :=
  let base := SMap.keep s.env.policy fun k _ => k / 2 ^ 48 != slot
  { s with env.policy := pol.foldl (fun m e => SMap.set m (slot * 2 ^ 48 + e.1) e.2) base }

/-- A slot's CMT values replaced whole by those of a list; fields not listed take their Reset value. -/
def setSlotCmt (s : State) (slot : Nat) (l : List (Fld × Nat)) : State :=
  l.foldl (fun st e => putCmt st slot e.1 e.2)
    { s with env.cmt := SMap.keep s.env.cmt fun k _ => k % 4 != slot }

/-- A slot returned to FREE with its entries (R64, R73, R76). -/
def dropSlot (s : State) (slot : Nat) : State :=
  let s1 := setSlotState s slot 0
  let s2 := { s1 with
    env.policy := SMap.keep s1.env.policy fun k _ => k / 2 ^ 48 != slot
    env.cmt := SMap.keep s1.env.cmt fun k _ => k % 4 != slot
    env.drainStart := s1.env.drainStart.del slot }
  refreshStorage (put s2 (Reg.inflightDrainAge slot) 0)

/-! Loading (R58). -/

/-- The registers that show structural sections: time base, ports, channels. -/
def showStructural (s : State) (v : View) : State :=
  let t := v.sect 0x0040
  let s1 := put (put (put s Reg.tempoCfgK (u8 t 0)) Reg.tempoCfgWcDomain (u8 t 4)) Reg.tempoCfgGtDomain (u8 t 5)
  let s2 := put (put s1 Reg.tempoBudgetSpFrac (u8 t 1)) Reg.tempoBudgetGcFrac (u8 t 2)
  let s3 := put (put s2 Reg.logThresh (leAt t 8 4)) Reg.wcStepLimit (leAt t 12 4)
  let s4 := forIdx 48 (fun p st =>
    let b := portEntry v p
    let fl := u8 b 2
    let mode := if 12 ≤ p ∧ p < 16 then u8 (laneEntry v (p - 12)) 0 else u8 b 1
    let a := put (put st (Reg.portModeMode p) mode) (Reg.portModeLeader p) (bitsAt fl 0 1)
    let c := put (put a (Reg.portModePreemptCap p) (bitsAt fl 2 1)) (Reg.portModeMacsecCap p) (bitsAt fl 3 1)
    if 40 ≤ p then
      let l := p - 40
      let d := put (put c (Reg.plcaCfgPlcaId l) (u8 b 3)) (Reg.plcaCfgPlcaCount l) (u8 b 4)
      let e := put (put d (Reg.plcaCfgPlcaTo l) (u8 b 5)) (Reg.plcaCfgBurstCnt l) (u8 b 6)
      put e (Reg.plcaBurstTmr l) (u8 b 7)
    else c) s3
  forIdx 256 (fun n st =>
    let b := chanEntry v n
    let a := put (put st (Reg.chInfoKind n) (u8 b 1)) (Reg.chInfoFlags n) (leAt b 2 2)
    if 24 ≤ n then put (put a (Reg.chInfoBind n) (u8 b 14)) (Reg.chInfoBusId n) (u8 b 15) else a) s4

/-- The registers that identify the loaded envelope. -/
def showEnvelope (s : State) (l : Loaded) (slotB : Bool) : State :=
  let s1 := put (put s Reg.envId l.serial) Reg.envInfoMinStep l.minStep
  let s2 := put (putFlag s1 Reg.envInfoSlotB slotB) Reg.envInfoKeyId l.keyId
  forIdx 8 (fun m st => put st (Reg.envDigest m) (leAt l.digest (4 * m) 4)) (put s2 Reg.envInfoLoadResult 0)

/-- Every source's routing in a slot as its FAULT section gives it. -/
def routeSources (s : State) (slot : Nat) : State :=
  let v := slotView s slot
  forIdx 2048 (fun n st =>
    if srcUsed n ∧ !srcFixed n ∧ !srcFirmware n then (sourceCmt v n).foldl (fun t e => putCmt t slot e.1 e.2) st else st) s

/-- EN of every source that FAULT routes, at load (R370). -/
def initialEn (s : State) (slot : Nat) : State :=
  forIdx 2048 (fun n st =>
    match recOf s slot 0x0800 (2 * 2 ^ 24 + n) with
    | some b => put st (Reg.srcCfgEn n) (u8 b 0)
    | none => st) s

/-- The load of a validated envelope: structural sections in force, policy state in slot 0, EPOCH_SEQ 0,
slots 1 to 3 free (R58). -/
def loadEnvelope (s : State) (l : Loaded) (slotB : Bool) : State :=
  let s0 := { s with
    env.structural := l.view.str, env.sealed := l.sealed, env.policy := [], env.cmt := [], env.loaded := true,
    env.items := [], env.staged := [], env.latches := [], env.drainStart := [], net.static := [] }
  let s1 := setSlotPolicy (put (put (put s0 Reg.epochStatusCur 0) Reg.epochStatusSlotSt 2) Reg.epochSeq 0) 0 l.view.pol
  let s2 := setSlotCmt s1 0 (initialCmt l.view)
  let s3 := initialEn (routeSources s2 0) 0
  refreshCurrent (refreshStorage (showEnvelope (showStructural s3 l.view) l slotB))

/-! The staging set (R66 to R69). -/

/-- Code of an originator as STAGE_STATUS.OWNER gives it; SP is never an owner. [DEDUCED, log 21] -/
def ownerCode : Master → Nat
  | .host => 1
  | .spi => 2
  | .gc _ => 3
  | .dbg => 4
  | .sp => 0

/-- A staging access refused under R66: counted and reported to its originator. -/
def stageRefused (s : State) (m : Master) (a : Nat) : State := reportWrite (bump s Reg.stageStatusRejects) m a 4

/-- May this originator act on the staging set: it owns it or nobody does, and no commit has locked it?
[DEDUCED, log 21] -/
def stageMay (s : State) (m : Master) : Bool :=
  ownerCode m != 0 && (get s Reg.stageStatusOwner == 0 || get s Reg.stageStatusOwner == ownerCode m) &&
  !flag s Reg.stageStatusLocked

/-- Does this originator own the set? -/
def isOwner (s : State) (m : Master) : Bool := ownerCode m != 0 && get s Reg.stageStatusOwner == ownerCode m

/-- A write under R66: past the checks of a control-space access, it has its effect or is refused. -/
def stageAccess (s : State) (m : Master) (a : Nat) (may : Bool) (effect : State → State) : State :=
  if !masterHeard s m ∨ !writesAnswered s then accessWrite s m a id
  else match writeRefusal s m a 4 with
    | some c => noteGrant (refuseWrite s m a c) a m
    | none => noteGrant (if may then answer (effect s) m .done else stageRefused s m a) a m

/-- The originator becomes owner when there is none. -/
def takeOwnership (s : State) (m : Master) : State :=
  if get s Reg.stageStatusOwner = 0 then put s Reg.stageStatusOwner (ownerCode m) else s

/-- Is a CMT field there to be written: a port without the capability ignores writes to its preemption or
MACsec fields (R83, R92), and a fixed source to its CLASS and TARGET (R356)? -/
def cmtLive (s : State) (f : Fld) : Bool :=
  let a := f.addr
  if 0x200000 ≤ a ∧ a < 0x500000 then
    let p := (a - 0x200000) / 0x10000
    let o := a % 0x10000
    let fl := u8 (portEntry (slotView s (curSlot s)) p) 2
    if (o = 0x04 ∧ f.lsb = 1) ∨ o = 0x1C then bitAt fl 2
    else if 0x24 ≤ o ∧ (o ≤ 0x30 ∨ 0x800 ≤ o) then bitAt fl 3
    else true
  else if 0x82000 ≤ a ∧ a < 0x84000 then !srcFixed ((a - 0x82000) / 4) || f.lsb == 5
  else true

/-- The staged value of a CMT field, or its current value. -/
def stagedOr (s : State) (f : Fld) : Nat := (s.env.staged.find f.key).getD (cur s f)

/-- Word `k` of a CMT field staged. -/
def stageField (f : Fld) (k v : Nat) (s : State) : State :=
  if f.ty = .cmt ∧ cmtLive s f then
    let x := if f.width ≤ 32 then bitsAt v f.lsb f.width else setBits (stagedOr s f) (32 * k) 32 v
    { s with env.staged := s.env.staged.set f.key (x % 2 ^ f.width) }
  else s

/-- A value staged for every CMT field of the register at an offset. [DEDUCED, log 17] -/
def stageWrite (s : State) (a v : Nat) : State :=
  let s1 := (fieldsAt 0 a).foldl (fun st e => stageField e.1 e.2 v st) s
  putFlag s1 Reg.stageStatusCmtDirty (!s1.env.staged.isEmpty)

/-- Does the register at an offset hold a CMT field? -/
def hasCmt (a : Nat) : Bool := (fieldsAt 0 a).any fun e => e.1.ty == .cmt

/-- CMT_WRITE. -/
def cmtWrite (s : State) (m : Master) (a v : Nat) : State :=
  if hasCmt a then stageAccess s m a (stageMay s m) fun t => stageWrite (takeOwnership t m) a v
  else s

/-- Bytes of a memory bank H range. -/
def bankHBytes (s : State) (off n : Nat) : List Byte := Mem.readBytes s.mem.bankH 0 off n

/-- Does a range of Bank H hold a word that a scrub has marked (R314)? [DEDUCED, log 81] -/
def bankHMarked (s : State) (off n : Nat) : Bool := (hitsMark s .h off n).isSome

/-- The access of a range of Bank H that is refused for a word that a scrub has marked takes the mark (R314).
[DEDUCED, log 81] -/
def takeMark (s : State) (off n : Nat) : State :=
  match hitsMark s .h off n with
  | some w => unmark s .h w
  | none => s

/-- The range of Bank H a push names, when its form lets it be registered (R67). -/
def pushRange (s : State) (kind : Nat) : Option (Nat × Nat) :=
  let a := get s Reg.stageAddr
  let n := get s Reg.stageLen
  match stageWindow s with
  | some (base, size) =>
    if (kind = 1 ∨ kind = 2) ∧ s.env.items.length < 64 ∧ n ≠ 0 ∧ a % 8 = 0 ∧ n % 8 = 0 ∧ n ≤ 2097152 ∧ a + n ≤ size then
      some (base + a, n)
    else none
  | none => none

/-- The item a push registers: none while a scrub has marked a word of its bytes, whose CRC cannot be taken then (R314). -/
def pushItem (s : State) (kind : Nat) : Option StageItem :=
  match pushRange s kind with
  | some (off, n) => if bankHMarked s off n then none else some ⟨kind, off, n, crc32 (bankHBytes s off n)⟩
  | none => none

/-- Does a push come as far as its bytes: past the checks of a control-space access and of R66? -/
def pushReads (s : State) (m : Master) : Bool :=
  masterHeard s m && writesAnswered s && (writeRefusal s m 0x40050 4).isNone && stageMay s m

/-- STAGE_PUSH. The access of a marked word that a push made is the one refused (R314). -/
def stagePush (s : State) (m : Master) (kind : Nat) : State :=
  let s1 := stageAccess s m 0x40050 (stageMay s m && (pushItem s kind).isSome) fun t =>
    match pushItem t kind with
    | some it =>
      let t1 := takeOwnership t m
      put { t1 with env.items := t1.env.items ++ [it] } Reg.stageStatusItems (t1.env.items.length + 1)
    | none => t
  match pushRange s kind with
  | some (off, n) => if pushReads s m then takeMark s1 off n else s1
  | none => s1

/-- The staging set emptied. -/
def emptySet (s : State) : State :=
  put (put { s with env.items := [], env.staged := [] } Reg.stageStatusItems 0) Reg.stageStatusCmtDirty 0

/-- STAGE_CLAIM: taken when nobody owns the set; the owner's own claim changes nothing. [DEDUCED, log 19] -/
def stageClaim (s : State) (m : Master) : State :=
  stageAccess s m 0x40050 (stageMay s m || isOwner s m) fun t => takeOwnership t m

/-- STAGE_RELEASE: the owner's, outside a commit. [DEDUCED, log 20] -/
def stageRelease (s : State) (m : Master) : State :=
  stageAccess s m 0x40050 (isOwner s m && stageMay s m) fun t => put t Reg.stageStatusOwner 0

/-- STAGE_DISCARD: the owner's, outside a commit. [DEDUCED, log 20] -/
def stageDiscard (s : State) (m : Master) : State :=
  stageAccess s m 0x40050 (isOwner s m && stageMay s m) fun t => put (emptySet t) Reg.stageStatusOwner 0

/-! Commits (R70 to R74). -/

/-- COMMIT_STATUS.RESULT set; the commit event is raised when it changes (R355). [DEDUCED, log 47] -/
def commitResult (s : State) (r : Nat) : State :=
  let s1 := put s Reg.commitStatusResult r
  if get s Reg.commitStatusResult = r then s1 else raiseSource s1 16

/-- Is a job part of a commit's preparation: the firmware's work on its items, or the seal of its entry (R71, R298)? -/
def commitJob (k : JobKind) : Bool :=
  match k with
  | .prepare => true
  | .castlingPrepare => true
  | .sbSeal type _ => type == 0x0002
  | _ => false

/-- A commit ends: IDLE, the set unlocked, ownership over; its jobs no longer wait, and one that runs still takes its
time but prepares nothing more (R66, R70). A castling's handover
commit is nobody's set. [DEDUCED, log 47] -/
def commitIdle (s : State) : State :=
  let s0 := put s Reg.commitStatusState 0
  let s1 := if s.env.handover then s0 else put (put s0 Reg.stageStatusLocked 0) Reg.stageStatusOwner 0
  { s1 with
    env.prepFail := none, env.prepDone := false, env.entryDone := false
    jobs.queue := s1.jobs.queue.filter fun j => !commitJob j.kind
    jobs.running := s1.jobs.running.mapVals fun _ j => if commitJob j.kind then { j with kind := .other } else j }

/-- A commit ends other than DONE: its target slot, if it has one, returns to FREE (R73). A castling that has not
reached its flip is abandoned with ENVELOPE when its handover commit ends so (R396).
[DEDUCED, log 47; DESIGN CHOICE, log 48] -/
def commitFail (s : State) (result item detail : Nat) : State :=
  let st := get s Reg.commitStatusState
  let s1 := if st = 3 ∨ st = 4 then dropSlot s (get s Reg.commitStatusSlot)
    else if st = 2 then raiseTo s Reg.commitStatsMaxWait (min 255 (tempoNo s - s.env.waitStart)) else s
  let s2 := put (put s1 Reg.commitStatusItem item) Reg.commitStatusDetail detail
  let s3 := commitResult (bump (commitIdle s2) Reg.commitStatsFails) result
  if s.env.handover ∧ s3.img.failDue.isNone then { s3 with img.failDue := some 9 } else s3

/-- One item applied to a build in preparation (R67 to R69); `j` is its index. On failure: RESULT, ITEM and
DETAIL. An item with a word that a scrub has marked cannot be read, and fails as one that has changed (R314). -/
def applyItem (s : State) (b : Build) (j : Nat) (it : StageItem) : Except (Nat × Nat × Nat) Build :=
  let bs := bankHBytes s it.addr it.len
  let fail := fun (x : Nat × Nat) => (x.1, j, x.2)
  let guard := fun (type : Nat) =>
    if structuralCodes.contains type then some (4, 0xFFFD)
    else if !policyCodes.contains type then some (4, type % 65536)
    else if s.env.sealed.contains type then some (5, type)
    else none
  if bankHMarked s it.addr it.len ∨ crc32 bs ≠ it.crc then .error (4, j, 0xFFFE)
  else if it.kind = 1 then
    let type := leAt bs 0 4
    let len := leAt bs 4 4
    if it.len < 8 + len ∨ !allZero bs (8 + len) (it.len - 8 - len) then .error (4, j, type % 65536)
    else match guard type with
      | some x => .error (fail x)
      | none => (applySection b type (slice bs 8 len)).mapError fail
  else
    let p := parseRecs bs.length bs
    match p.1.foldlM (fun (b : Build) (r : PolRec) => show Except (Nat × Nat) Build from
        match guard r.table with
        | some x => .error x
        | none => if r.table = 0x0110 then .error (4, 0x0110) else applyRec b r) b with
    | .error x => .error (fail x)
    | .ok b1 => match p.2 with
      | some t => .error (4, j, t % 65536)
      | none => .ok b1

/-- Slots of the vault that a commit would fill, and whose generation has run out (R249): those whose recipe it adds or
replaces, and the recipes below them. -/
def genSpent (s : State) (b : Build) : Bool :=
  let all := b.view.recs 0x0500
  let own := (all.filter fun e => b.touched.contains e.1 || recOf s (curSlot s) 0x0500 e.1 != some e.2).map fun e => e.1
  let fills := all.filter fun e => (derivedFrom (b.view.entry 0x0500) e.1).isSome &&
    (own.contains e.1 || own.any fun t => recipeUnder (b.view.entry 0x0500) t 5 e.1)
  fills.any fun e => genOf s e.1 == 0xFFFF && s.vault.held.contains e.1

/-- The checks after the last item (R71): RESULT and DETAIL of the first that fails. [DESIGN CHOICE, log 48] -/
def finalFails (s : State) (slot : Nat) (b : Build) : Option (Nat × Nat) :=
  match crossCheck b.view with
  | some c => some (4, c)
  | none =>
    if !sasOk b.view (cmtOf s slot) then some (4, 0x0010)
    else if genSpent s b then some (4, 0x0500)
    else (placementFails b).map fun c => (6, c)

/-- Staged CMT values written into a slot. -/
def applyStaged (s : State) (slot : Nat) : State :=
  { s with env.cmt := s.env.staged.foldl (fun (m : SMap Nat) (e : Nat × Nat) => SMap.set m (e.1 * 4 + slot) e.2) s.env.cmt }

/-- Source routing that the items changed, written into the CMT fields of a slot (R356, R370). -/
def reroute (s : State) (base slot : Nat) : State :=
  let v := slotView s base
  let w := slotView s slot
  forIdx 2048 (fun n st =>
    if srcUsed n ∧ !srcFixed n ∧ !srcFirmware n ∧
        v.entry 0x0800 (2 * 2 ^ 24 + n) ≠ w.entry 0x0800 (2 * 2 ^ 24 + n) then
      (sourceCmt w n).foldl (fun t e => putCmt t slot e.1 e.2) st
    else st) s

/-- Marks of the words that reading items met taken (R314). -/
def takeMarks (s : State) (items : List StageItem) : State := items.foldl (fun st it => takeMark st it.addr it.len) s

/-- How many items a preparation has read: up to the first that failed. -/
def itemsRead (s : State) : Nat :=
  match s.env.prepFail with
  | some (_, j, _) => j + 1
  | none => s.env.items.length

/-- Preparation of a commit in a free slot (R65, R71): the base slot cloned, the items applied in push
order, the staged CMT values set, and the checks over the slot run. A failure is kept until preparation
ends. The firmware's work is queued as a budgeted job. [DESIGN CHOICE, log 46] -/
def commitPrepare (s : State) (slot : Nat) : State :=
  let base := curSlot s
  let s1 := put (put (setSlotState s slot 1) Reg.commitStatusSlot slot) Reg.commitStatusState 3
  let s2 := setSlotPolicy s1 slot (slotView s base).pol
  let s3 := { s2 with env.cmt := s2.env.cmt.foldl (fun (m : SMap Nat) (e : Nat × Nat) =>
    if e.1 % 4 = base then SMap.set m (e.1 / 4 * 4 + slot) e.2 else m) (SMap.keep s2.env.cmt fun k _ => k % 4 != slot) }
  let b0 : Build := ⟨slotView s base, otherEntries s slot, []⟩
  let items := (List.range s.env.items.length).zip s.env.items
  let s8 :=
    match items.foldlM (fun b (x : Nat × StageItem) => applyItem s b x.1 x.2) b0 with
    | .error e => { s3 with env.prepFail := some e }
    | .ok b =>
      let s4 := reroute (setSlotPolicy s3 slot b.view.pol) base slot
      let s5 := applyStaged s4 slot
      match finalFails s5 slot b with
      | some (r, d) => { s5 with env.prepFail := some (r, s.env.items.length - 1, d), env.touched := b.touched }
      | none => { refreshStorage s5 with env.prepFail := none, env.touched := b.touched }
  let s9 := takeMarks s8 (s8.env.items.take (itemsRead s8))
  enqueueJob { s9 with env.prepDone := false, env.entryDone := false } (someGc s9) .prepare (jobBound s9 .prepare)

/-- PORTS, SERDES and EDGES entries that differ between two configurations: the ports, then the channels (R394). -/
def changedPorts (v w : View) : List Nat :=
  (List.range 48).filter fun p => portEntry v p != portEntry w p ||
    (12 ≤ p && p < 16 && laneEntry v (p - 12) != laneEntry w (p - 12))
def changedChans (v w : View) : List Nat := (List.range 256).filter fun n => chanEntry v n != chanEntry w n

/-- Does a CMT field belong to a port or channel on one of these lists? -/
def cmtOfUnit (ports chans : List Nat) (f : Fld) : Bool :=
  (0x200000 ≤ f.addr && f.addr < 0x500000 && ports.contains ((f.addr - 0x200000) / 0x10000)) ||
  (0xA00000 ≤ f.addr && f.addr < 0xB00000 && chans.contains ((f.addr - 0xA00000) / 0x1000))

/-- The handover commit of a castling prepared in a free slot by the new firmware, on GC[2] (R58, R392): the base slot's CMT values with those that
the new envelope gives to changed ports and channels, and the new envelope's policy state, under the checks of any
commit. An envelope that fails validation shows its result in LOAD_RESULT (R57). -/
def handoverPrepare (s : State) (slot : Nat) : State :=
  let base := curSlot s
  let s1 := put (put (setSlotState s slot 1) Reg.commitStatusSlot slot) Reg.commitStatusState 3
  let s2 := { s1 with env.cmt := s1.env.cmt.foldl (fun (m : SMap Nat) (e : Nat × Nat) =>
    if e.1 % 4 = base then SMap.set m (e.1 / 4 * 4 + slot) e.2 else m) (SMap.keep s1.env.cmt fun k _ => k % 4 != slot) }
  let s8 :=
    match slotEnvelope s (!s.boot.slotB) with
    | .error e => put { s2 with env.prepFail := some (4, 0, e.2) } Reg.envInfoLoadResult e.1
    | .ok l =>
      let old := slotView s base
      let mine := cmtOfUnit (changedPorts old l.view) (changedChans old l.view)
      let s3 := setSlotPolicy { s2 with env.cmt := SMap.keep s2.env.cmt fun k _ =>
        !(k % 4 == slot && mine ⟨0, k / 4 / 32 % 2 ^ 24, k / 4 % 32, 0, .cmt, 0⟩) } slot l.view.pol
      let s4 := (initialCmt l.view).foldl
        (fun (st : State) (e : Fld × Nat) => if mine e.1 then putCmt st slot e.1 e.2 else st) s3
      let s5 := { reroute s4 base slot with img.vkSeen := s.otp.vkRevoked }
      let b : Build := ⟨l.view, otherEntries s slot, []⟩
      match [0x10002, 0x12000, 0x12100, 0x14000, 0x21000, 0x30001, 0x31000].find? fun t => !b.fits t with
      | some t => { s5 with env.prepFail := some (6, 0, t / 256) }
      | none =>
        match finalFails s5 slot b with
        | some (r, d) => { s5 with env.prepFail := some (r, 0, d) }
        | none => { refreshStorage s5 with env.prepFail := none }
  enqueueOn { s8 with env.touched := [], env.prepDone := false, env.entryDone := false } 3 .castlingPrepare (jobBound s8 .castlingPrepare)

/-- The lowest free slot. -/
def freeSlot (s : State) : Option Nat := (List.range 4).find? fun i => slotState s i == 0

/-- A commit takes a slot and begins preparation; a preparation job no budget could hold is rejected
(R48). [DESIGN CHOICE, log 46] -/
def commitBegin (s : State) (slot : Nat) : State :=
  let kind : JobKind := if s.env.handover then .castlingPrepare else .prepare
  let s1 := if s.env.handover then handoverPrepare s slot else commitPrepare s slot
  if tooLarge s (someGc s) (jobBound s kind) then commitFail s1 7 0 0 else s1

/-- COMMIT_REQ (R70). -/
def commitReq (s : State) (m : Master) : State :=
  stageAccess s m 0x40070 (isOwner s m) fun t =>
    if get t Reg.commitStatusState ≠ 0 ∨ t.env.handover then commitResult t 2
    else if t.env.items.isEmpty ∧ t.env.staged.isEmpty then commitResult t 3
    else
      let t1 := put (put t Reg.stageStatusLocked 1) Reg.commitStatusLateCancel 0
      let t2 := { t1 with
        env.commitAt := get t Reg.commitAt, env.commitOwner := ownerCode m, env.waitStart := tempoNo t }
      match freeSlot t2 with
      | some i => commitBegin t2 i
      | none => bump (put t2 Reg.commitStatusState 2) Reg.commitStatsWaits

/-- Working-clock time of the boundary of tempo number `n`: the tempo in progress ends as R40 says. -/
def boundaryTime (s : State) (n : Nat) : Int := nextMark s + ((n : Int) - tempoNo s - 1) * period s

/-- The number of the first boundary at least `lead` ns from now (R13, R72). -/
def boundaryAfter (s : State) (lead : Nat) : Nat :=
  let d := wcNow s + lead - nextMark s
  tempoNo s + 1 + (if d ≤ 0 then 0 else divUp d.toNat (period s))

/-- The items a commit stages: a castling's handover commit applies none of the host's set. [DEDUCED, log 47] -/
def commitItems (s : State) : List StageItem := if s.env.handover then [] else s.env.items

/-- The body of a commit's scoresheet entry (R71). [DEDUCED, log 47] -/
def commitEntry (s : State) : List Byte :=
  leBytes 4 ((get s Reg.epochSeq + 1) % 2 ^ 32) ++ leBytes 1 s.env.commitOwner ++ leBytes 1 (commitItems s).length ++
  zeros 2 ++ Config.sha256 ((commitItems s).flatMap fun it => bankHBytes s it.addr it.len)

/-- The first item of a commit that holds a word a scrub has marked since its preparation read it. [DEDUCED, log 81] -/
def itemMarked (s : State) : Option Nat := (commitItems s).findIdx? fun it => bankHMarked s it.addr it.len

/-- Firmware's work on the items is done (R71): the commit's entry goes to the safety pair, which seals it as a job of its
own (R298), unless the commit is to fail. Items that cannot be read for the entry's hash fail it (R314).
[DESIGN CHOICE, log 46] -/
def prepEnds (s : State) : State :=
  if get s Reg.commitStatusState ≠ 3 then s
  else
    let s1 := { s with env.prepDone := true }
    if s1.env.prepFail.isSome ∨ !sheetWritable s1 then s1
    else match itemMarked s1 with
      | some j => takeMarks { s1 with env.prepFail := some (4, j, 0xFFFE) } (commitItems s1)
      | none =>
        if tooLarge s1 0 (jobBound s1 (.sbSeal 0x0002 (commitEntry s1))) then { s1 with env.prepFail := some (7, 0, 0) }
        else requestSp s1 (.sbSeal 0x0002 (commitEntry s1))

/-- The entry of a commit in preparation sealed and appended (R71). [DESIGN CHOICE, log 46] -/
def commitSealed (s : State) (type : Nat) (body : List Byte) : State :=
  if type = 0x0002 ∧ get s Reg.commitStatusState = 3 ∧ s.env.prepDone ∧ body.take 8 = (commitEntry s).take 8 then
    { s with env.entryDone := true }
  else s

/-- COMMIT_ARM (R72): preparation is complete; a failure it met ends the commit, as does a read-only
scoresheet; otherwise, once its entry is appended, T+0 is fixed. A castling then stands in HANDOVER (R392).
[DESIGN CHOICE, log 46] -/
def commitArm (s : State) : State :=
  if get s Reg.commitStatusState ≠ 3 ∨ !s.env.prepDone then s
  else match s.env.prepFail with
    | some (r, j, d) => commitFail s r j d
    | none =>
      if !sheetWritable s then commitFail s 8 0 0
      else if !s.env.entryDone then s
      else
        let t0 := max (boundaryAfter s 2000) s.env.commitAt
        let s2 := put (put { s with env.t0 := t0 } Reg.commitT0 t0) Reg.commitStatusState 4
        if get s Reg.imgStatusPhase = 3 then put s2 Reg.imgStatusPhase 4 else s2

/-- COMMIT_CANCEL (R73). [DEDUCED, log 20] -/
def commitCancel (s : State) (m : Master) : State :=
  stageAccess s m 0x40070 (isOwner s m) fun t =>
    let st := get t Reg.commitStatusState
    if st = 0 ∨ t.env.handover then t
    else if st = 4 ∧ boundaryTime t t.env.t0 < wcNow t + 2000 then put t Reg.commitStatusLateCancel 1
    else commitFail t 9 0 0

/-- The configuration commit at T+0 (R72): the target slot becomes current, EPOCH_SEQ rises, the former
slot starts draining and RESULT is DONE. The set of a commit that took effect is empty. -/
def commitSwitch (s : State) : State :=
  let old := curSlot s
  let new := get s Reg.commitStatusSlot
  let s1 := setSlotState (setSlotState s old 3) new 2
  let s2 := put (put s1 Reg.epochStatusCur new) Reg.epochSeq ((get s Reg.epochSeq + 1) % 2 ^ 32)
  let s3 := { s2 with env.drainStart := s2.env.drainStart.set old (tempoNo s2) }
  refreshCurrent (commitResult (commitIdle (if s.env.handover then s3 else emptySet s3)) 1)

/-! Latches and slots (R76, R78). -/

/-- EPOCH_STATUS.LATCHED shows the slots latched by at least one master. -/
def showLatched (s : State) : State :=
  put s Reg.epochStatusLatched
    (((List.range 4).filter fun i => s.env.latches.any fun e => e.2 == i).map (fun i => 2 ^ i) |>.sum)

/-- EPOCH_LATCH, banked per master: the host and the SPI port are one, HB (R78, R327). -/
def epochLatch (s : State) (m : Master) : State :=
  let k := conflictCode m
  let s1 := { s with env.latches := s.env.latches.set k (curSlot s) }
  showLatched (put (put s1 (Reg.epochLatchSlot k) (curSlot s)) (Reg.epochLatchValid k) 1)

/-- EPOCH_LATCH_RELEASE. -/
def epochUnlatch (s : State) (m : Master) : State :=
  let k := conflictCode m
  showLatched (put { s with env.latches := s.env.latches.del k } (Reg.epochLatchValid k) 0)

/-- A slot frees: fragments that record it go (R143), its entries go, and a waiting commit begins (R71).
[DEDUCED, log 49] -/
def freeNow (s : State) (slot : Nat) : State :=
  let gone := s.net.frags.filter fun e => e.2.slot == slot
  let s1 := bumpBy { s with net.frags := SMap.keep s.net.frags fun _ f => f.slot != slot } Reg.fragStatsFragExpired gone.length
  let s2 := dropSlot (put s1 Reg.fragEntriesFragEntries s1.net.frags.length) slot
  if get s2 Reg.commitStatusState = 2 then
    commitBegin (raiseTo s2 Reg.commitStatsMaxWait (min 255 (tempoNo s2 - s2.env.waitStart))) slot
  else s2

/-- Latches on a slot released by the drain limit (R76): VALID clears, and the masters' reads stay STALE until they latch
anew (R78). -/
def releaseLatches (s : State) (slot : Nat) : State :=
  let s1 := (s.env.latches.filter fun e => e.2 == slot).foldl (fun st e => put st (Reg.epochLatchValid e.1) 0) s
  showLatched { s1 with env.latches := s1.env.latches.mapVals fun _ i => if i = slot then 4 + slot else i }

/-- SLOT_FREE (R76): a draining slot with count zero and no latch. [DEDUCED, log 49] -/
def slotFree (s : State) (slot : Nat) : State :=
  if slotState s slot = 3 ∧ get s (Reg.inflightCount slot) = 0 ∧ !(s.env.latches.any fun e => e.2 == slot) then
    freeNow s slot
  else s

/-! The commands. -/

/-- CMT_WRITE. -/
def execCmtWrite (m : Master) (addr : Nat) (v : Word) (s : State) : Host.Outcome State Fault Refusal :=
  .next (cmtWrite s m addr v.toNat)

/-- STAGE_CLAIM. -/
def execStageClaim (m : Master) (s : State) : Host.Outcome State Fault Refusal := .next (stageClaim s m)

/-- STAGE_RELEASE. -/
def execStageRelease (m : Master) (s : State) : Host.Outcome State Fault Refusal := .next (stageRelease s m)

/-- STAGE_DISCARD. -/
def execStageDiscard (m : Master) (s : State) : Host.Outcome State Fault Refusal := .next (stageDiscard s m)

/-- STAGE_PUSH. -/
def execStagePush (m : Master) (kind : Fin 4) (s : State) : Host.Outcome State Fault Refusal :=
  .next (stagePush s m kind)

/-- COMMIT_REQ. -/
def execCommitReq (m : Master) (s : State) : Host.Outcome State Fault Refusal := .next (commitReq s m)

/-- COMMIT_ARM. -/
def execCommitArm (s : State) : Host.Outcome State Fault Refusal := .next (commitArm s)

/-- COMMIT_CANCEL. -/
def execCommitCancel (m : Master) (s : State) : Host.Outcome State Fault Refusal := .next (commitCancel s m)

/-- EPOCH_LATCH. -/
def execEpochLatch (m : Master) (s : State) : Host.Outcome State Fault Refusal :=
  .next (accessWrite s m 0x40090 fun t => epochLatch t m)

/-- EPOCH_LATCH_RELEASE. -/
def execEpochLatchRelease (m : Master) (s : State) : Host.Outcome State Fault Refusal :=
  .next (accessWrite s m 0x40090 fun t => epochUnlatch t m)

/-- SLOT_FREE. -/
def execSlotFree (slot : Fin 4) (s : State) : Host.Outcome State Fault Refusal := .next (slotFree s slot)

end Sys2Proof.Machine
end

