-- ==== Sys2Proof/Machine/Parser.lean ====
section
/-!
DEFINITION. The header parser (R129 to R134): what it takes from the first 256 bytes of an Ethernet unit or
from an edge message, the malformed conditions, and the provisional length of R180.
-/
namespace Sys2Proof.Machine

/-- What the parser took from a unit. `count` is HDR_COUNT; `mal` the reason of R133 or 0; `ip` 4, 6 or 0,
its header at `ipOff` and its end at `ipEnd`; addresses in transmission order; `vid`, `pcp` and `dei` of the
tag directly after SMAC when `tagged`; `app` the APP overlay that `appKind`
selects; `avtpEnd` the end of the ACF data, 0 without one. -/
structure Hdr where
  count : Nat := 0
  exh : Bool := false
  mal : Nat := 0
  opaq : Bool := false
  tagged : Bool := false
  vid : Nat := 0
  pcp : Nat := 0
  dei : Bool := false
  tag2 : Bool := false
  tag2Vid : Nat := 0
  etype : Nat := 0
  ip : Nat := 0
  ipOff : Nat := 0
  ipEnd : Nat := 0
  sip : List Byte := []
  dip : List Byte := []
  proto : Nat := 0
  dscp : Nat := 0
  ecn : Nat := 0
  ttl : Nat := 0
  frag : Bool := false
  later : Bool := false
  first : Bool := false
  ident : Nat := 0
  l4 : Bool := false
  l4Off : Nat := 0
  l4End : Nat := 0
  sport : Nat := 0
  dport : Nat := 0
  syn : Bool := false
  ack : Bool := false
  fin : Bool := false
  rst : Bool := false
  appKind : Nat := 0
  app : Nat := 0
  avtpEnd : Nat := 0
deriving DecidableEq, Repr

/-- The next header to follow: by EtherType, an IPv6 extension, an upper-layer header, an application header
over UDP (`udp`) or TCP, a user hook at an offset, or nothing. -/
inductive NextHdr where
  | ether (etype off : Nat)
  | ext (nh off : Nat) (first : Bool)
  | upper (proto off : Nat)
  | app (udp : Bool) (off : Nat)
  | hook (off : Nat)
  | stop
deriving DecidableEq, Repr

/-- The unit under the parser: its bytes, whether it is wholly in the buffer, its PARSER body, and whether its
port has RX_EN. -/
structure ParseCtx where
  bs : List Byte
  whole : Bool
  cfg : List Byte
  rxEn : Bool
deriving DecidableEq, Repr

/-- Length of the unit. -/
def ParseCtx.n (c : ParseCtx) : Nat := c.bs.length

/-- The unit is malformed (R133): the parser stops. -/
def malformed (h : Hdr) (code : Nat) : Hdr × NextHdr := ({ h with mal := code }, .stop)

/-- The unit is malformed in a header it reached, which counts in HDR_COUNT. [DEDUCED, log 62] -/
def badHeader (h : Hdr) (code : Nat) : Hdr × NextHdr := malformed { h with count := h.count + 1 } code

/-- The bytes up to `e` are needed: beyond byte 255 the unit is parse-exhausted, past the end of a unit seen
whole in the window it is TRUNCATED (R131, R133). -/
def need (c : ParseCtx) (h : Hdr) (e : Nat) (k : Hdr × NextHdr) : Hdr × NextHdr :=
  if e ≤ min c.n 256 then k
  else if 256 < c.n then ({ h with exh := true }, .stop)
  else badHeader h 1

/-- Bytes of an upper-layer header are needed up to `e`: where the datagram ends before it, what follows in the frame is
padding and the header is cut (R133). [DEDUCED, log 62] -/
def needIp (c : ParseCtx) (h : Hdr) (e : Nat) (k : Hdr × NextHdr) : Hdr × NextHdr :=
  if h.ipEnd < e ∧ h.ipEnd ≤ 256 then badHeader h 1 else need c h e k

/-- A further header of the unit: a 17th is not followed (R131). -/
def header (h : Hdr) (k : Hdr × NextHdr) : Hdr × NextHdr :=
  if 16 ≤ h.count then ({ h with exh := true }, .stop) else k

/-- Length of an upper-layer header that a first fragment must hold (R133). -/
def upperLen (proto : Nat) : Nat := if proto = 6 then 20 else if proto = 17 ∨ proto = 1 ∨ proto = 58 then 8 else 0

/-- The fragment condition that is met, if any: FRAG_TINY, FRAG_OVERLAP or FRAG_SIZE. [DEDUCED, log 62] -/
def fragFault (proto off : Nat) (more : Bool) (payload : Nat) : Nat :=
  if off = 0 ∧ more ∧ payload < upperLen proto then 10
  else if off ≠ 0 ∧ off * 8 < upperLen proto then 11
  else if (more ∨ off ≠ 0) ∧ 65535 < off * 8 + payload then 12
  else 0

/-- The fragment fields of a unit (R141). -/
def setFrag (h : Hdr) (off : Nat) (more : Bool) (ident : Nat) : Hdr :=
  { h with frag := more || off != 0, later := off != 0, first := more && off == 0, ident := ident }

/-- The ones-complement sum over 16-bit words, folded. -/
def sum16 : List Byte → Nat
  | a :: b :: r => a.toNat * 256 + b.toNat + sum16 r
  | [a] => a.toNat * 256
  | [] => 0

/-- Does the IPv4 header checksum verify? -/
def csumOk (hd : List Byte) : Bool :=
  let x := sum16 hd
  let y := x % 65536 + x / 65536
  (y % 65536 + y / 65536) == 0xFFFF

/-- The IPv4 header at an offset. Its conditions are tested in the order of the bytes they look at, the checksum and the
fragment conditions last; the header that carries the fragment fields is the one that offends. [DEDUCED, log 62] -/
def parseIp4 (c : ParseCtx) (h : Hdr) (o : Nat) : Hdr × NextHdr :=
  header h (need c h (o + 20) (
    let ihl := u8 c.bs o % 16
    if u8 c.bs o / 16 ≠ 4 then badHeader h 5
    else if ihl < 5 then badHeader h 2
    else need c h (o + 4 * ihl) (
      let tl := beAt c.bs (o + 2) 2
      let proto := u8 c.bs (o + 9)
      let fl := beAt c.bs (o + 6) 2
      let fo := fl % 8192
      let more := bitAt fl 13
      let ff := fragFault proto fo more (tl - 4 * ihl)
      if tl < 4 * ihl ∨ (c.whole ∧ c.n - o < tl) then badHeader h 3
      else if bitAt (leAt c.cfg 32 4) 1 ∧ !csumOk (slice c.bs o (4 * ihl)) then badHeader h 4
      else if ff ≠ 0 then badHeader h ff
      else
        let h1 := { setFrag h fo more (beAt c.bs (o + 4) 2) with
          count := h.count + 1, ip := 4, ipOff := o, ipEnd := o + tl, sip := slice c.bs (o + 12) 4
          dip := slice c.bs (o + 16) 4, proto := proto, dscp := u8 c.bs (o + 1) / 4, ecn := u8 c.bs (o + 1) % 4
          ttl := u8 c.bs (o + 8) }
        (h1, if fo = 0 then .upper proto (o + 4 * ihl) else .stop))))

/-- Next headers that are IPv6 extension headers (R130). -/
def isExt (nh : Nat) : Bool := nh == 0 || nh == 43 || nh == 44 || nh == 60 || nh == 51

/-- What follows a next-header value. -/
def afterNext (nh off : Nat) (first : Bool) : NextHdr := if isExt nh then .ext nh off first else .upper nh off

/-- The IPv6 header at an offset. -/
def parseIp6 (c : ParseCtx) (h : Hdr) (o : Nat) : Hdr × NextHdr :=
  header h (need c h (o + 40) (
    let pl := beAt c.bs (o + 4) 2
    let tc := beAt c.bs o 2 / 16 % 256
    if u8 c.bs o / 16 ≠ 6 then badHeader h 5
    else if c.whole ∧ c.n - o - 40 < pl then badHeader h 6
    else
      ({ h with
        count := h.count + 1, ip := 6, ipOff := o, ipEnd := o + 40 + pl, sip := slice c.bs (o + 8) 16
        dip := slice c.bs (o + 24) 16, proto := u8 c.bs (o + 6), dscp := tc / 4, ecn := tc % 4
        ttl := u8 c.bs (o + 7) },
       afterNext (u8 c.bs (o + 6)) (o + 40) true)))

/-- An IPv6 extension header at an offset; where it is cut by the end of the frame, that comes first.
[DEDUCED, log 62] -/
def parseExt (c : ParseCtx) (h : Hdr) (nh o : Nat) (first : Bool) : Hdr × NextHdr :=
  header h (
    if nh = 0 ∧ !first then badHeader h 7
    else need c h (o + if nh = 44 then 8 else 2) (
      let size := if nh = 44 then 8 else if nh = 51 then (u8 c.bs (o + 1) + 2) * 4 else (u8 c.bs (o + 1) + 1) * 8
      let nxt := u8 c.bs o
      let h1 := { h with count := h.count + 1, proto := nxt }
      if c.n ≤ 256 ∧ c.n < o + size then badHeader h 1
      else if h.ipEnd < o + size then badHeader h 7
      else if nh = 44 then
        let fw := beAt c.bs (o + 2) 2
        let fo := fw / 8
        let more := bitAt fw 0
        let ff := fragFault nxt fo more (h.ipEnd - (o + 8))
        if ff ≠ 0 then badHeader h ff
        else (setFrag h1 fo more (beAt c.bs (o + 4) 4), if fo = 0 then afterNext nxt (o + 8) false else .stop)
      else (h1, afterNext nxt (o + size) false)))

/-- An upper-layer header at an offset: UDP, TCP, ICMP or ICMPv6; any other stops the parser. [DEDUCED, log 62] -/
def parseUpper (c : ParseCtx) (h : Hdr) (proto o : Nat) : Hdr × NextHdr :=
  let tiny := h.first && decide (h.ipEnd < o + upperLen proto)
  match proto with
  | 17 =>
    header h (need c h (o + 8) (
      let len := beAt c.bs (o + 4) 2
      if tiny then badHeader h 10
      else if len < 8 ∨ (!h.frag ∧ h.ipEnd < o + len) then badHeader h 8
      else
        ({ h with count := h.count + 1, l4 := true, l4Off := o + 8, l4End := o + len, sport := beAt c.bs o 2
                  dport := beAt c.bs (o + 2) 2 }, .app true (o + 8))))
  | 6 =>
    header h (need c h (o + 20) (
      let doff := u8 c.bs (o + 12) / 16
      let fl := u8 c.bs (o + 13)
      if tiny then badHeader h 10
      else if doff < 5 ∨ h.ipEnd < o + 4 * doff then badHeader h 9
      else
        ({ h with count := h.count + 1, l4 := true, l4Off := o + 4 * doff, l4End := h.ipEnd, sport := beAt c.bs o 2
                  dport := beAt c.bs (o + 2) 2, fin := bitAt fl 0, syn := bitAt fl 1, rst := bitAt fl 2
                  ack := bitAt fl 4 }, .app false (o + 4 * doff))))
  | _ =>
    if proto = 1 ∨ proto = 58 then
      header h ((if h.first then need c h (o + 4) else needIp c h (o + 4)) (
        if tiny then badHeader h 10
        else
          ({ h with count := h.count + 1, appKind := 4, app := u8 c.bs o * 2 ^ 56 + u8 c.bs (o + 1) * 2 ^ 48 }, .stop)))
    else (h, .stop)

/-- The hook of a PARSER body that names a value: its OFFSET. -/
def hookFor (cfg : List Byte) (kind value : Nat) : Option Nat :=
  ((List.range 4).find? fun i => u8 cfg (56 + 8 * i) == kind && leAt cfg (58 + 8 * i) 2 == value).map fun i =>
    u8 cfg (57 + 8 * i)

/-- An application header over UDP or TCP, when the payload is not empty: SOME/IP by destination port, DoIP by
either port, or a user hook by UDP destination port. [DEDUCED, log 62] -/
def parseApp (c : ParseCtx) (h : Hdr) (udp : Bool) (o : Nat) : Hdr × NextHdr :=
  if h.l4End ≤ o then (h, .stop)
  else if (someipPorts c.cfg).contains h.dport then
    header h (needIp c h (o + 16) (
      let len := beAt c.bs (o + 4) 4
      if len < 8 ∨ h.l4End < o + 8 + len then badHeader h 14
      else
        ({ h with
          count := h.count + 1, appKind := 1
          app := beAt c.bs o 4 * 2 ^ 32 + beAt c.bs (o + 8) 2 * 2 ^ 16 + u8 c.bs (o + 14) * 2 ^ 8 + u8 c.bs (o + 15) },
         .stop)))
  else if h.sport = 13400 ∨ h.dport = 13400 then
    header h (needIp c h (o + 8) (
      let ver := u8 c.bs o
      let ty := beAt c.bs (o + 2) 2
      let len := beAt c.bs (o + 4) 4
      if u8 c.bs (o + 1) ≠ 255 - ver ∨ h.l4End < o + 8 + len then badHeader h 15
      else
        let base := ver * 2 ^ 56 + ty * 2 ^ 40
        if ty = 0x8001 ∧ 4 ≤ len then
          needIp c h (o + 12) ({ h with
            count := h.count + 1, appKind := 2
            app := base + beAt c.bs (o + 8) 2 * 2 ^ 24 + beAt c.bs (o + 10) 2 * 2 ^ 8 }, .stop)
        else ({ h with count := h.count + 1, appKind := 2, app := base }, .stop)))
  else if udp then
    match hookFor c.cfg 2 h.dport with
    | some d => (h, .hook (o + d))
    | none => (h, .stop)
  else (h, .stop)

/-- The user hook whose bytes stand at an offset: 8 bytes, or none beyond byte 255 or the end (R131). -/
def parseHook (c : ParseCtx) (h : Hdr) (o : Nat) : Hdr × NextHdr :=
  header h (
    let h1 := { h with count := h.count + 1 }
    if o + 8 ≤ min c.n 256 ∧ (h.ip = 0 ∨ o + 8 ≤ h.ipEnd) then ({ h1 with appKind := 6, app := beAt c.bs o 8 }, .stop) else (h1, .stop))

/-- Data length of an AVTP header of ACF messages and the header's own length (NTSCF 0x82, TSCF 0x05). -/
def acfSpan (bs : List Byte) (o : Nat) : Nat × Nat :=
  if u8 bs o = 0x82 then (12, beAt bs (o + 1) 2 % 2048) else (24, beAt bs (o + 20) 2)

/-- An AVTP frame that carries ACF messages. -/
def parseAvtp (c : ParseCtx) (h : Hdr) (o : Nat) : Hdr × NextHdr :=
  if c.n ≤ o ∧ c.n ≤ 256 then malformed h 1
  else need c h (o + 1) (
    if u8 c.bs o ≠ 0x82 ∧ u8 c.bs o ≠ 0x05 then (h, .stop)
    else
      let l := acfSpan c.bs o
      header h (need c h (o + l.1) (
        if c.whole ∧ c.n < o + l.1 + l.2 then badHeader h 16
        else
          ({ h with
            count := h.count + 1, appKind := 3, app := beAt c.bs (o + 4) 8, avtpEnd := o + l.1 + l.2 }, .stop))))

/-- A VLAN tag at an offset: the one directly after SMAC gives VID and priority when it is a C-tag, and sets TAGGED even
where its VID is 0; any other, an S-tag directly after SMAC too, sets TAG2 and gives TAG2_VID if none is taken yet.
[DEDUCED, log 62] -/
def parseTag (c : ParseCtx) (h : Hdr) (etype o : Nat) : Hdr × NextHdr :=
  header h (need c h (o + 4) (
    let tci := beAt c.bs o 2
    let nxt := beAt c.bs (o + 2) 2
    let h1 := { h with count := h.count + 1, etype := nxt }
    let h2 :=
      if etype = 0x8100 ∧ o = 14 then
        { h1 with tagged := true, vid := tci % 4096, pcp := tci / 8192, dei := bitAt tci 12 }
      else { h1 with tag2 := true, tag2Vid := if h.tag2 then h.tag2Vid else tci % 4096 }
    (h2, .ether nxt (o + 4))))

/-- The header an EtherType names at an offset. -/
def parseEther (c : ParseCtx) (h : Hdr) (etype o : Nat) : Hdr × NextHdr :=
  match etype with
  | 0x8100 => parseTag c h etype o
  | 0x88A8 => parseTag c h etype o
  | 0x0800 => parseIp4 c h o
  | 0x86DD => parseIp6 c h o
  | 0x22F0 => parseAvtp c h o
  | 0x0806 => header h ({ h with count := h.count + 1 }, .stop)
  | 0x88F7 =>
    header h (need c h (o + 34)
      ({ h with count := h.count + 1, appKind := 5, app := u8 c.bs o % 16 * 2 ^ 60 + u8 c.bs (o + 4) * 2 ^ 48 }, .stop))
  | _ =>
    if etype = 0x88E5 then
      if c.rxEn then (h, .stop) else header h ({ h with count := h.count + 1, opaq := true }, .stop)
    else match hookFor c.cfg 1 etype with
      | some d => (h, .hook (o + d))
      | none => (h, .stop)

/-- One header followed. [DEDUCED, log 62] -/
def parseStep (c : ParseCtx) (h : Hdr) : NextHdr → Hdr × NextHdr
  | .ether e o => parseEther c h e o
  | .ext nh o f => parseExt c h nh o f
  | .upper p o => parseUpper c h p o
  | .app udp o => parseApp c h udp o
  | .hook o => parseHook c h o
  | .stop => (h, .stop)

/-- The header chain followed for at most `fuel` steps; every header followed is counted, and the 17th is
not, so 40 steps are more than any unit takes. -/
def parseChain (c : ParseCtx) : Nat → Hdr → NextHdr → Hdr
  | 0, h, _ => h
  | fuel + 1, h, nx =>
    if nx = .stop then h
    else
      let r := parseStep c h nx
      parseChain c fuel r.1 r.2

/-- An Ethernet unit parsed (R130). -/
def parseFrame (c : ParseCtx) : Hdr :=
  let r := need c {} 14 ({ count := 1, etype := beAt c.bs 12 2 }, .ether (beAt c.bs 12 2) 14)
  parseChain c 40 r.1 r.2

/-- Payload lengths of the CAN FD data length codes. -/
def fdLens : List Nat := [0, 1, 2, 3, 4, 5, 6, 7, 8, 12, 16, 20, 24, 32, 48, 64]

/-- The malformed reason of an edge message, or 0 (R133): EDGE_FORMAT before EDGE_LEN. -/
def edgeFault (m : BusMsg) : Nat :=
  let n := m.payload.length
  let fdOrXl := m.format == .fd || m.format == .xl
  if (m.rtr ∧ fdOrXl) ∨ (m.format = .xl ∧ 2048 ≤ m.id) then 18
  else
    let ok : Bool := match m.format with
      | .cc => decide (n ≤ 8)
      | .lin => decide (n ≤ 8)
      | .fd => fdLens.contains n
      | .xl => decide (n ≤ 2048)
    if ok then 0 else 17

/-- An edge message parsed: one header, none when it is malformed (R130). -/
def parseEdge (m : BusMsg) : Hdr :=
  let f := edgeFault m
  if f = 0 then { count := 1 } else { mal := f }

/-- PARSER of a slot; its empty form drops everything (R153). -/
def parserOf (s : State) (slot : Nat) : List Byte := (recOf s slot 0x0110 0).getD (zeros 400)

/-- Provisional length (R180): `reserve` cells are those of the ingress port. -/
def provLen (h : Hdr) (whole : Bool) (len reserve : Nat) : Nat :=
  if whole then len
  else if h.ip ≠ 0 ∧ h.mal = 0 then max 64 (h.ipEnd + 4)
  else reserve * 256

/-- The condition that R134 finds at the tail of a unit of `n` bytes: TAIL_SHORT or AVTP_LEN, or 0. [DEDUCED, log 64] -/
def tailFault (needEnd avtpEnd n : Nat) : Nat := if n < needEnd then 13 else if n < avtpEnd then 16 else 0

end Sys2Proof.Machine
end

