-- ==== Sys2Proof/Machine/Classifier.lean ====
section
/-!
DEFINITION. The classifier (chapter 6): ingress VLAN, the 640-bit key, range comparators, ternary rules, the
shadow lookup, fragment follow and conversations, and the access port that reads its tables.
-/
namespace Sys2Proof.Machine

/-! Table access ports (R78). -/

/-- The slot a table read names: by VIEW the master's latched slot, an explicit slot or the staged view. None
where that slot has freed. Without a latch the current slot is read, as is the staged view with no slot
being built. A latch the drain limit took is held as 4 + slot. [DESIGN CHOICE, log 25; DEDUCED, log 75] -/
def viewSlot (s : State) (m : Master) (view slot : Nat) : Option Nat :=
  match view with
  | 0 => match s.env.latches.find (conflictCode m) with
    | some i => if i < 4 then some i else none
    | none => some (curSlot s)
  | 1 => if slotState s slot = 0 then none else some slot
  | 2 => (match (List.range 4).find? fun i => slotState s i == 1 with
    | some i => some i
    | none => some (curSlot s))
  | _ => none

/-- A run of registers set to the words of a byte string. -/
def putWords (s : State) (f : Nat → Fld) (n : Nat) (bs : List Byte) : State :=
  forIdx n (fun i st => put st (f i) (leAt bs (4 * i) 4)) s

/-! Ingress VLAN (R106). -/

/-- Tag directly after SMAC: its TCI, when the frame carries a C-tag there. -/
def firstTag (bs : List Byte) : Option Nat := if beAt bs 12 2 = 0x8100 then some (beAt bs 14 2) else none

/-- VID, priority and `tagged` of a frame under the port entry of its ingress port in its slot; none where
the frame is dropped. -/
def ingressVlan (s : State) (slot p : Nat) (bs : List Byte) : Option (Nat × Nat × Bool) :=
  let e := fwdPort s slot p
  let tag := firstTag bs
  let vidIn := (tag.map fun t => t % 4096).getD 0
  if tag.isSome ∧ vidIn = 4095 then none
  else
    let tagged := tag.isSome && vidIn != 0
    let vid := if tagged then vidIn else leAt e 2 2
    let accept := u8 e 1 % 4
    match vlanOf s slot vid with
    | none => none
    | some v =>
      if (accept = 1 ∧ !tagged) ∨ (accept = 2 ∧ tagged) ∨ (bitAt (u8 e 1) 2 ∧ !bitAt (leAt v 8 8) p) then none
      else some (vid, (if tagged then (tag.getD 0) / 8192 else u8 e 4), tagged)

/-! The key (R137). -/

/-- A key field at its least significant bit. -/
def keyFld (lsb w v : Nat) : Nat := v % 2 ^ w * 2 ^ lsb

/-- A flag of the key. -/
def keyBit (lsb : Nat) (b : Bool) : Nat := if b then 2 ^ lsb else 0

/-- Fields common to both layouts, without RANGE_VEC. -/
def keyHead (kind pass inPort mal cls : Nat) : Nat :=
  keyFld 638 2 kind + keyFld 635 3 pass + keyFld 629 6 inPort + keyFld 608 8 mal + keyBit 621 (mal != 0) +
  keyFld 0 8 cls

/-- The key of an Ethernet unit. -/
def ethKey (h : Hdr) (bs : List Byte) (pass inPort cls vid prio conv : Nat) : Nat :=
  keyHead 0 pass inPort h.mal cls +
  keyBit 628 h.tagged + keyBit 627 h.tag2 + keyBit 626 (h.ip == 4) + keyBit 625 (h.ip == 6) +
  keyBit 624 h.frag + keyBit 623 h.later + keyBit 622 h.exh + keyBit 620 h.l4 + keyBit 619 h.syn +
  keyBit 618 h.ack + keyBit 617 (h.fin || h.rst) + keyBit 616 h.opaq +
  keyFld 596 12 vid + keyFld 593 3 prio + keyFld 588 5 h.count +
  (if bs.length < 14 then 0 else keyFld 536 48 (beAt bs 0 6) + keyFld 488 48 (beAt bs 6 6)) +
  keyFld 472 16 h.etype + keyFld 460 12 h.tag2Vid + keyFld 448 8 h.proto + keyFld 442 6 h.dscp +
  keyFld 440 2 h.ecn + keyFld 432 8 h.ttl + keyFld 304 128 (beNat h.sip) + keyFld 176 128 (beNat h.dip) +
  keyFld 160 16 h.sport + keyFld 144 16 h.dport + keyFld 16 64 h.app + keyFld 12 4 h.appKind + keyFld 8 4 conv

/-- PGN of a 29-bit identifier: PS counts only when PF is 240 or more. -/
def pgnOf (id : Nat) : Nat :=
  bitsAt id 24 2 * 2 ^ 16 + bitsAt id 16 8 * 2 ^ 8 + if 240 ≤ bitsAt id 16 8 then bitsAt id 8 8 else 0

/-- Does a message carry a 29-bit identifier of a CAN channel? -/
def isJ1939 (m : BusMsg) : Bool := m.ext && m.format != .lin

/-- The key of an edge message on a channel; a malformed one leaves the fields of its header zero. -/
def edgeKey (h : Hdr) (m : BusMsg) (ch cls : Nat) (secOk : Bool) : Nat :=
  keyHead 1 0 50 h.mal cls +
  if h.mal ≠ 0 then 0
  else
    keyBit 628 (24 ≤ ch) + keyBit 627 (m.format == .xl) + keyBit 626 (m.format == .fd) + keyBit 625 m.ext +
    keyBit 624 m.rtr + keyBit 623 (m.format == .lin) + keyBit 622 secOk + keyFld 600 8 ch +
    keyFld 571 29 (if m.ext then m.id else m.id % 2048) + keyFld 560 11 m.payload.length +
    (if isJ1939 m then
      keyFld 542 18 (pgnOf m.id) + keyFld 534 8 m.id +
      keyFld 526 8 (if bitsAt m.id 16 8 < 240 then bitsAt m.id 8 8 else 0xFF) + keyFld 523 3 (bitsAt m.id 26 3)
     else 0) +
    (if m.format = .xl then keyFld 515 8 m.sdt + keyFld 507 8 m.vcid + keyFld 475 32 m.af else 0) +
    keyFld 219 256 (beNat (slice m.payload 0 32))

/-! Range comparators (R138). -/

/-- The value a comparator's FIELD compares, when it applies to a unit with this key. -/
def rangeValue (key fld : Nat) : Option Nat :=
  let eth := bitsAt key 638 2 = 0
  let app1 := bitsAt key 12 4 = 1
  match fld with
  | 1 => if eth ∧ bitAt key 620 then some (bitsAt key 160 16) else none
  | 2 => if eth ∧ bitAt key 620 then some (bitsAt key 144 16) else none
  | 3 => if !eth ∧ !bitAt key 623 then some (bitsAt key 571 29) else none
  | 4 => if !eth ∧ bitAt key 625 ∧ !bitAt key 623 then some (bitsAt key 542 18) else none
  | 5 => if eth ∧ app1 then some (bitsAt key 64 16) else none
  | 6 => if eth ∧ app1 then some (bitsAt key 48 16) else none
  | _ => none

/-- Does a VALID comparator find its value in range? -/
def rangeHit (key : Nat) (b : List Byte) : Bool :=
  bitAt (leAt b 2 2) 0 && (rangeValue key (u8 b 0)).any fun v => leAt b 4 4 ≤ v && v ≤ leAt b 8 4

/-- RANGE_VEC of a key: the labels of the comparators that hit. -/
def rangeVec (s : State) (slot key : Nat) : Nat :=
  (recsOf s slot 0x0121).foldl (fun (v : Nat) (e : Nat × List Byte) =>
    if rangeHit key e.2 then v ||| 2 ^ (u8 e.2 1 % 64) else v) 0

/-- The key with its RANGE_VEC. -/
def withRanges (s : State) (slot key : Nat) : Nat := key + keyFld 80 64 (rangeVec s slot key)

/-! Ternary rules (R139, R140). -/

/-- Does a VALID rule match a key? -/
def ruleHit (key : Nat) (b : List Byte) : Bool :=
  bitAt (leAt b 162 2) 0 && (key &&& keyNum (slice b 80 80)) == keyNum (slice b 0 80)

/-- PRIO of a rule. -/
def rulePrio (b : List Byte) : Nat := leAt b 160 2

/-- The winning rule of a slot: highest PRIO, then lowest INDEX. -/
def winner (s : State) (slot key : Nat) : Option (Nat × List Byte) :=
  (recsOf s slot 0x0120).foldl (fun (best : Option (Nat × List Byte)) (e : Nat × List Byte) =>
    if ruleHit key e.2 && best.all (fun x =>
        rulePrio x.2 < rulePrio e.2 || (rulePrio x.2 == rulePrio e.2 && decide (e.1 < x.1))) then some e else best) none

/-- The rule and action of a key: the winner's, or 0xFFFF with the default action of its KIND. The last
component is the winner's STREAM when it is safety-marked. -/
def lookup (s : State) (slot key : Nat) (edge : Bool) : Nat × List Byte × Option Nat :=
  match winner s slot key with
  | some (i, b) => (i, slice b 168 16, if bitAt (leAt b 162 2) 1 then some (leAt b 164 2) else none)
  | none => (0xFFFF, slice (parserOf s slot) (if edge then 16 else 0) 16, none)

/-! The shadow engine (R144 to R146, R454). -/

/-- The shadow key of 48 bytes from its fields. -/
def shadowKeyOf (form flags inp proto vid ety sp dp canId : Nat) (sip dip : List Byte) : List Byte :=
  leBytes 1 form ++ leBytes 1 flags ++ leBytes 1 inp ++ leBytes 1 proto ++ leBytes 2 vid ++ leBytes 2 ety ++
  leBytes 2 sp ++ leBytes 2 dp ++ leBytes 4 canId ++ slice sip 0 16 ++ slice dip 0 16

/-- The shadow key the extractor reads from an Ethernet unit's bytes on pass 0; none where it has none. -/
def ethShadowKey (bs : List Byte) (inPort : Nat) : Option (List Byte) :=
  let e0 := beAt bs 12 2
  let tagged := e0 = 0x8100
  let o := if tagged then 18 else 14
  let e := beAt bs (o - 2) 2
  let vid := if tagged then beAt bs 14 2 % 4096 else 0
  let fl := if tagged then 2 else 0
  if e0 = 0x88A8 ∨ (tagged ∧ (e = 0x8100 ∨ e = 0x88A8)) then none
  else
    let p4 := u8 bs (o + 9)
    let p6 := u8 bs (o + 6)
    if e = 0x0800 ∧ u8 bs o % 16 = 5 ∧ beAt bs (o + 6) 2 % 16384 = 0 ∧ (p4 = 6 ∨ p4 = 17) then
      some (shadowKeyOf 2 fl inPort p4 vid 0 (beAt bs (o + 20) 2) (beAt bs (o + 22) 2) 0
        (slice bs (o + 12) 4) (slice bs (o + 16) 4))
    else if e = 0x86DD ∧ (p6 = 6 ∨ p6 = 17) then
      some (shadowKeyOf 3 fl inPort p6 vid 0 (beAt bs (o + 40) 2) (beAt bs (o + 42) 2) 0
        (slice bs (o + 8) 16) (slice bs (o + 24) 16))
    else some (shadowKeyOf 1 fl inPort 0 vid e 0 0 0 [] (slice bs 0 6))

/-- The shadow key of an edge message. -/
def edgeShadowKey (m : BusMsg) (ch : Nat) : List Byte :=
  shadowKeyOf 4 (if m.ext then 4 else 0) ch 0 0 0 0 0 m.id [] []

/-- The shadow result: the stream of a key in a slot with its ACTION, or none. -/
def shadowLookup (s : State) (slot : Nat) (key : Option (List Byte)) : Option (Nat × List Byte) :=
  match key with
  | none => none
  | some k => ((recsOf s slot 0x0140).find? fun e => bitAt (u8 e.2 1) 0 && streamKey e.2 == k).map fun e =>
      (e.1, slice e.2 48 16)

/-- Do the primary and the shadow agree (R145)? [DEDUCED, log 63] -/
def shadowAgrees (stream : Option Nat) (action : List Byte) (sh : Option (Nat × List Byte)) : Bool :=
  match stream, sh with
  | some n, some r => n == r.1 && action == r.2
  | none, none => true
  | _, _ => false

/-- A mismatch (R146): counted for the central reader and reported with rule, stream and unit. -/
def shadowMismatch (s : State) (rule : Nat) (sh : Option (Nat × List Byte)) (unit : Nat) : State :=
  recordFault (bump s cntShadowMismatch) 0x0020 unit (rule % 65536 + 65536 * ((sh.map fun r => r.1).getD 0xFFFF))

/-! Fragments (R141 to R143). -/

/-- Is a fragment-follow entry the one of a unit's key? -/
def fragMatches (h : Hdr) (port slot : Nat) (e : Frag) : Bool :=
  e.v6 == (h.ip == 6) && e.sip == h.sip && e.dip == h.dip && e.proto == h.proto && e.ident == h.ident &&
    e.port == port && e.slot == slot

/-- The entry a later fragment takes its rule from, within 50 ms of its making. -/
def fragLookup (s : State) (h : Hdr) (port slot : Nat) : Option Frag :=
  (s.net.frags.find? fun e => fragMatches h port slot e.2 && decide (s.time.now < e.2.madeAt + 50000000)).map fun e => e.2

/-- FRAG_ENTRIES and FRAG_HIGH brought in line. -/
def showFrags (s : State) : State :=
  raiseTo (put s Reg.fragEntriesFragEntries s.net.frags.length) Reg.fragEntriesFragHigh s.net.frags.length

/-- A first fragment's entry made or replaced; none when all 2,048 are in use. -/
def fragInsert (s : State) (h : Hdr) (port slot rule : Nat) : Option State :=
  let e : Frag := ⟨h.ip == 6, h.sip, h.dip, h.proto, h.ident, port, slot, rule, h.sport, h.dport, s.time.now⟩
  match s.net.frags.find? fun x => fragMatches h port slot x.2 with
  | some x => some { s with net.frags := s.net.frags.set x.1 e }
  | none =>
    let i := s.net.frags.freshFrom 2048 0
    if 2048 ≤ i then none else some (showFrags { s with net.frags := s.net.frags.set i e })

/-- FRAG_EXPIRY: an entry's storage is released from 50 ms on. [DEDUCED, log 74] -/
def fragExpiry (s : State) (i : Nat) : State :=
  match s.net.frags.find i with
  | some e =>
    if e.madeAt + 50000000 ≤ s.time.now then
      showFrags (bump { s with net.frags := s.net.frags.del i } Reg.fragStatsFragExpired)
    else s
  | none => s

/-- The fragment-follow table emptied, at the power-state transition of descent. -/
def clearFrags (s : State) : State := put { s with net.frags := [] } Reg.fragEntriesFragEntries 0

/-- The 48-byte layout of a fragment-follow entry (R154). [DEDUCED, log 62] -/
def fragBytes (s : State) (e : Frag) : List Byte :=
  slice e.sip 0 16 ++ slice e.dip 0 16 ++ leBytes 4 e.ident ++ leBytes 1 e.proto ++ leBytes 1 e.port ++
  leBytes 1 (1 + 2 * b2n e.v6 + 4 * e.slot) ++ [0] ++ leBytes 2 e.rule ++
  leBytes 2 (min 65535 ((s.time.now - e.madeAt) / 1000000)) ++ leBytes 2 e.sport ++ leBytes 2 e.dport

/-! Conversations (R159 to R165). -/

/-- An endpoint as the byte string of R159. -/
def endpoint (addr : List Byte) (port : Nat) : List Byte := slice addr 0 16 ++ beBytes 2 port

/-- Does a unit take part in conversations: an IP unit with a TCP or UDP header, not parse-exhausted? -/
def convUnit (h : Hdr) : Bool := h.l4 && !h.exh

/-- The key of a unit's conversation: E_lo, E_hi, and whether the unit comes from E_lo. -/
def convEnds (h : Hdr) : List Byte × List Byte × Bool :=
  let a := endpoint h.sip h.sport
  let b := endpoint h.dip h.dport
  if beNat a ≤ beNat b then (a, b, true) else (b, a, false)

/-- The entry of a unit's conversation with its way. -/
def convFind (s : State) (h : Hdr) (vid : Nat) : Option (Nat × Conv) :=
  let e := convEnds h
  s.net.convs.find? fun c =>
    c.2.ver == h.ip && c.2.vid == vid && c.2.proto == h.proto && c.2.lo == e.1 && c.2.hi == e.2.1

/-- Does a unit come from its entry's originator? -/
def fromOrig (h : Hdr) (c : Conv) : Bool := (convEnds h).2.2 == c.origLo

/-- Is a unit a DoIP diagnostic message, and from which source address (R163)? -/
def doipSa (h : Hdr) : Option Nat :=
  if h.appKind = 2 ∧ bitsAt h.app 40 16 = 0x8001 then some (bitsAt h.app 24 16) else none

/-- Is a TCP unit an illegal trigger for an entry's state (R161)? -/
def tcpIllegal (h : Hdr) (c : Conv) : Bool :=
  (c.st == 1 && !fromOrig h c && !(h.syn && h.ack)) || ((c.st == 3 || c.st == 4) && h.syn)

/-- The conversation code of an entry's state for a unit (R159). -/
def convCode (h : Hdr) (c : Conv) : Nat :=
  let o := fromOrig h c
  if c.proto = 6 then
    if tcpIllegal h c then 12
    else if c.st = 4 then 5
    else if c.st ≠ 3 then (if o then 1 else 2)
    else match c.doip with
      | 0 => if o then 3 else 4
      | 1 => 8
      | _ => if o && (doipSa h).any (fun a => c.mark != some a) then 10 else 9
  else if !o && h.appKind == 1 && c.mark.any (fun x => x != bitsAt h.app 48 16) then 11
  else if o then 6 else 7

/-- The lookup of R149: code 0 without an entry, for a unit that takes none, and during a flush. -/
def convLookup (s : State) (h : Hdr) (vid : Nat) : Nat :=
  if !convUnit h ∨ s.net.convFlushing then 0
  else ((convFind s h vid).map fun e => convCode h e.2).getD 0

/-- STATEFUL timeout class in the current slot, with the defaults of R176. -/
def timeoutClass (s : State) (c : Nat) : List Byte :=
  (recOf s (curSlot s) 0x0130 c).getD
    (leBytes 2 10 ++ leBytes 2 3600 ++ leBytes 2 10 ++ leBytes 2 30 ++ leBytes 2 120 ++ leBytes 2 2 ++ zeros 4)

/-- Timeout of an entry's state in seconds. -/
def convTimeout (s : State) (c : Conv) : Nat :=
  let b := timeoutClass s c.cls
  match c.st with
  | 3 => if c.doip = 1 then leAt b 10 2 else leAt b 2 2
  | 4 => leAt b 4 2
  | 5 => leAt b 6 2
  | 6 => leAt b 8 2
  | _ => leAt b 0 2

/-- EVICT_EN of a slot. -/
def evictEn (s : State) (slot : Nat) : Bool :=
  match recOf s slot 0x0130 16 with
  | some b => bitAt (leAt b 0 4) 0
  | none => true

/-- CONV_USED brought in line. -/
def showConvs (s : State) : State := put s Reg.convUsed s.net.convs.length

/-- The bucket of a conversation (R159). -/
def convBucket (h : Hdr) (vid : Nat) : Nat :=
  let e := convEnds h
  crc32 (beBytes 1 h.ip ++ beBytes 2 vid ++ beBytes 1 h.proto ++ e.1 ++ e.2.1) % 16384

/-- May an entry be evicted (R164)? -/
def evictable (c : Conv) : Bool := c.st == 1 || c.st == 2 || c.st == 4 || c.st == 5 || (c.st == 3 && c.doip == 1)

/-- The way a new entry takes: a free one, or the one of the entry evicted. -/
def convWay (s : State) (slot b : Nat) : Option (Nat × Bool) :=
  let ways := (List.range 4).map fun w => 4 * b + w
  match ways.find? fun w => !s.net.convs.has w with
  | some w => some (w, false)
  | none =>
    if !evictEn s slot then none
    else (minBy (fun w => ((s.net.convs.find w).map fun c => c.hitAt).getD 0)
      (ways.filter fun w => (s.net.convs.find w).any evictable)).map fun w => (w, true)

/-- A new entry for a unit in a state; none when it finds no way. -/
def convCreate (s : State) (slot : Nat) (h : Hdr) (vid st cls : Nat) (mark : Option Nat) : Option State :=
  let e := convEnds h
  match convWay s slot (convBucket h vid) with
  | none => none
  | some (w, ev) =>
    let c : Conv := ⟨h.ip, vid, h.proto, e.1, e.2.1, e.2.2, st, 0, mark, cls, s.time.now⟩
    let s1 := { s with net.convs := s.net.convs.set w c }
    some (showConvs (if ev then bump s1 Reg.convFullConvEvict else s1))

/-- An entry after a unit that neither removes it nor is illegal for it (R161 to R163). -/
def convNext (h : Hdr) (c : Conv) (now : Nat) : Conv :=
  let o := fromOrig h c
  let c0 := { c with hitAt := now }
  if c.proto = 6 then
    if tcpIllegal h c then c0
    else match c.st with
      | 1 => if !o && h.syn && h.ack then { c0 with st := 2 } else c0
      | 2 =>
        if o && h.ack && !h.syn then
          { c0 with st := 3, doip := if h.sport = 13400 ∨ h.dport = 13400 then 1 else 0 }
        else c0
      | 3 =>
        let c1 := match doipSa h with
          | some a => if o && c.doip == 1 then { c0 with doip := 2, mark := some a } else c0
          | none => c0
        if h.fin then { c1 with st := 4 } else c1
      | _ => c0
  else if !o && c.st == 5 then { c0 with st := 6 } else c0

/-- The update of R160 for a unit that has passed ingress containment; none where the unit is dropped with
CONV_FULL. -/
def convUpdate (s : State) (slot : Nat) (h : Hdr) (vid : Nat) (action : List Byte) : Option State :=
  let op := u8 action 13 % 4
  let cls := u8 action 13 / 16
  if !convUnit h ∨ s.net.convFlushing then some s
  else match convFind s h vid with
    | some (w, c) =>
      if (h.proto = 6 ∧ h.rst) ∨ op = 2 then some (showConvs { s with net.convs := s.net.convs.del w })
      else some { s with net.convs := s.net.convs.set w (convNext h c s.time.now) }
    | none =>
      if op ≠ 1 then some s
      else if h.proto = 6 then
        if h.syn ∧ h.rst then some s
        else if h.syn ∧ !h.ack then convCreate s slot h vid 1 cls none
        else some (bump s Reg.convNoCreateConvNocreate)
      else convCreate s slot h vid 5 cls
        (if h.appKind = 1 ∧ bitsAt h.app 8 8 = 0 then some (bitsAt h.app 48 16) else none)

/-- CONV_EXPIRY: an entry idle longer than its state's timeout is removed. [DEDUCED, log 74] -/
def convExpiry (s : State) (i : Nat) : State :=
  match s.net.convs.find i with
  | some c =>
    if !s.net.convFlushing ∧ convTimeout s c * 1000000000 < s.time.now - c.hitAt then
      showConvs (bump { s with net.convs := s.net.convs.del i } Reg.convExpired)
    else s
  | none => s

/-- The conversation table emptied. -/
def clearConvs (s : State) : State := showConvs { s with net.convs := [] }

/-- The 48-byte layout of a conversation entry. -/
def convBytes (s : State) (c : Conv) : List Byte :=
  c.lo.take 16 ++ c.hi.take 16 ++ leBytes 2 (beNat (c.lo.drop 16)) ++ leBytes 2 (beNat (c.hi.drop 16)) ++
  leBytes 2 c.vid ++ leBytes 1 c.proto ++ leBytes 1 (1 + 2 * b2n (c.ver == 6) + 4 * b2n c.origLo) ++
  leBytes 1 (c.st + if c.doip = 2 then 0x10 else 0) ++ leBytes 1 c.cls ++
  leBytes 2 (min 65535 ((s.time.now - c.hitAt) / 1000000000)) ++ leBytes 2 (c.mark.getD 0) ++ zeros 2

/-- A write of CONV_ACC_CTL: READ answers at once, FLUSH lasts until CONV_FLUSH_DONE. A flush in hand keeps
DONE clear. -/
def convCtl (s : State) (w : Nat) : State :=
  let s1 := put s Reg.convAccCtlIndex (bitsAt w 2 16)
  let s2 := if bitAt w 0 then
      let e := s1.net.convs.find (bitsAt w 2 16)
      put (putWords s1 Reg.convAccData 12 ((e.map (convBytes s1)).getD [])) Reg.convAccCtlDone (b2n (!s1.net.convFlushing))
    else s1
  if bitAt w 1 then put { s2 with net.convFlushing := true } Reg.convAccCtlDone 0 else s2

/-- CONV_FLUSH_DONE. -/
def convFlushDone (s : State) : State :=
  if s.net.convFlushing then put (clearConvs { s with net.convFlushing := false }) Reg.convAccCtlDone 1 else s

/-! The classifier's access port (R154). -/

/-- A table read: STATUS 0 OK, 1 STALE, 2 EMPTY, with the membership mask of the entry. -/
def clsResult (s : State) (status mask : Nat) (bs : List Byte) : State :=
  let s1 := put (put s Reg.clsAccStatusStatus status) Reg.clsAccStatusMask mask
  put (putWords s1 Reg.clsAccData 48 bs) Reg.clsAccCtlDone 1

/-- Section of a TABLE code of CLS_ACC_CTL. -/
def clsSection (t : Nat) : Option Nat :=
  match t with
  | 0 => some 0x0120
  | 1 => some 0x0121
  | 2 => some 0x0140
  | _ => none

/-- READ of CLS_ACC_CTL. A reserved TABLE has no entries. [DESIGN CHOICE, log 25] -/
def clsRead (s : State) (m : Master) : State :=
  let t := get s Reg.clsAccCtlTable
  let i := get s Reg.clsAccCtlIndex
  if t = 3 then
    match s.net.frags.find i with
    | some e => clsResult s 0 (2 ^ e.slot) (fragBytes s e)
    | none => clsResult s 2 0 []
  else match clsSection t with
    | none => clsResult s 2 0 []
    | some sect =>
      match viewSlot s m (get s Reg.clsAccCtlView) (get s Reg.clsAccCtlSlot) with
      | none => clsResult s 1 0 []
      | some e =>
        match recOf s e sect i with
        | some b => clsResult s 0 (membership s (sect * 2 ^ 32 + i) b) b
        | none => clsResult s 2 0 []

/-- PROBE of CLS_ACC_CTL: the request waits for a slot that no unit fills. -/
def probeRequest (s : State) (m : Master) : State :=
  match viewSlot s m (get s Reg.clsAccCtlView) (get s Reg.clsAccCtlSlot) with
  | none => put (put s Reg.clsAccStatusStatus 1) Reg.clsAccCtlDone 1
  | some e => put { s with net.probing := some (e, s.time.now) } Reg.clsAccCtlDone 0

/-- A write of CLS_ACC_CTL. -/
def clsCtl (s : State) (m : Master) (w : Nat) : State :=
  let s1 := put (put s Reg.clsAccCtlTable (bitsAt w 2 3)) Reg.clsAccCtlIndex (bitsAt w 5 15)
  let s2 := put (put s1 Reg.clsAccCtlView (bitsAt w 20 2)) Reg.clsAccCtlSlot (bitsAt w 22 2)
  let s3 := if bitAt w 0 then clsRead s2 m else s2
  if bitAt w 1 then probeRequest s3 m else s3

/-- The result of a probe. -/
def probeResult (s : State) (status rule : Nat) : State :=
  let s1 := put { s with net.probing := none } Reg.clsAccStatusStatus status
  put (put s1 Reg.clsAccStatusResultRule rule) Reg.clsAccCtlDone 1

/-- PROBE_LOOKUP: the probe takes a slot no unit fills, counted as front-starved, or ends BUSY after 10 us. -/
def probeLookup (s : State) (slotIsFree : Bool) : State :=
  match s.net.probing with
  | none => s
  | some (e, t) =>
    if slotState s e = 0 then probeResult s 1 0xFFFF
    else if t + 10000 < s.time.now then probeResult s 3 0xFFFF
    else if !slotIsFree then s
    else
      let key := beNat (regBytes s 20 Reg.clsAccData)
      let s1 := { countSlot s Reg.slotFront with net.slotUsed := s.net.slotUsed + 1 }
      probeResult s1 0 (((winner s e key).map fun x => x.1).getD 0xFFFF)

/-! The shadow self-test (R147). -/

/-- SHADOW_SELFTEST: once in every tempo; a withheld cycle counts as front-starved. -/
def shadowSelftest (s : State) (idle flagged : Bool) : State :=
  if !aloft s ∨ s.net.selftestTempo = some (tempoNo s) then s
  else
    let s1 := { s with net.selftestTempo := some (tempoNo s) }
    let s2 := if idle then s1 else { countSlot s1 Reg.slotFront with net.slotUsed := s1.net.slotUsed + 1 }
    let s3 := putFlag s2 Reg.shadowStatusSelftestLast flagged
    if flagged then bump s3 cntSelftestPasses
    else recordFault (put s3 Reg.shadowStatusSelftestFault 1) 0x0021 0 0

/-! Meanings. -/

/-- CLS_ACC_READ. -/
def execClsAccRead (m : Master) (w : Word) (s : State) : Host.Outcome State Fault Refusal :=
  .next (accessWrite s m 0x600000 fun t => clsCtl t m w.toNat)

/-- PROBE. -/
def execProbe (m : Master) (w : Word) (s : State) : Host.Outcome State Fault Refusal :=
  .next (accessWrite s m 0x600000 fun t => clsCtl t m w.toNat)

/-- PROBE_LOOKUP. -/
def execProbeLookup (slotFree : Bool) (s : State) : Host.Outcome State Fault Refusal := .next (probeLookup s slotFree)

/-- FRAG_EXPIRY. -/
def execFragExpiry (i : Fin 2048) (s : State) : Host.Outcome State Fault Refusal := .next (fragExpiry s i)

/-- SHADOW_SELFTEST. -/
def execShadowSelftest (idle flagged : Bool) (s : State) : Host.Outcome State Fault Refusal :=
  .next (shadowSelftest s idle flagged)

/-- SHADOW_STATUS_CLEAR. -/
def execShadowStatusClear (m : Master) (s : State) : Host.Outcome State Fault Refusal :=
  .next (accessWrite s m 0x600F00 fun t => put t Reg.shadowStatusSelftestFault 0)

/-- CONV_EXPIRY. -/
def execConvExpiry (i : Fin 65536) (s : State) : Host.Outcome State Fault Refusal := .next (convExpiry s i)

/-- CONV_ACC_READ. -/
def execConvAccRead (m : Master) (w : Word) (s : State) : Host.Outcome State Fault Refusal :=
  .next (accessWrite s m 0x610100 fun t => convCtl t w.toNat)

/-- CONV_FLUSH. -/
def execConvFlush (m : Master) (w : Word) (s : State) : Host.Outcome State Fault Refusal :=
  .next (accessWrite s m 0x610100 fun t => convCtl t w.toNat)

/-- CONV_FLUSH_DONE. -/
def execConvFlushDone (s : State) : Host.Outcome State Fault Refusal := .next (convFlushDone s)

end Sys2Proof.Machine
end

