-- ==== Sys2Proof/Machine/Firewall.lean ====
section
/-!
DEFINITION. The firewall (chapter 7): action blocks, containment at ingress and egress, its activation and
release, and the ripcord.
-/
namespace Sys2Proof.Machine

/-! Action blocks (R155). -/

/-- VERDICT: 0 DROP, 1 BRIDGE, 2 REDIRECT, 3 RECIRCULATE, 4 ROUTE. -/
def actVerdict (a : List Byte) : Nat := u8 a 0

/-- MGMT of an action block. -/
def actMgmt (a : List Byte) : Bool := bitAt (u8 a 1) 0

/-- TS_REQ of an action block. -/
def actTs (a : List Byte) : Bool := bitAt (u8 a 1) 1

/-- VID after SET_VID. -/
def actVid (a : List Byte) (vid : Nat) : Nat := if bitAt (u8 a 1) 2 then leAt a 4 2 else vid

/-- Priority after SET_PCP. -/
def actPrio (a : List Byte) (prio : Nat) : Nat := if bitAt (u8 a 1) 3 then u8 a 6 % 8 else prio

/-- Copy targets of an action block: P49, P48 and MIRROR. -/
def actCopies (a : List Byte) : List Nat :=
  (if bitAt (u8 a 10) 0 then [49] else []) ++ (if bitAt (u8 a 10) 1 then [48] else []) ++
  (if bitAt (u8 a 10) 2 then [u8 a 11] else [])

/-! Containment (R166, R167). -/

/-- The record an active profile acts by: the current slot's, or the one kept from the last slot in which it
was VALID (R173). -/
def activeProfile (s : State) (p : Nat) : List Byte :=
  (profileRec s (curSlot s) p).getD ((s.cont.kept.find p).getD [])

/-- Does a mode admit a unit: safety-marked and agreed, or of management? -/
def modeAdmits (mode : Nat) (safety mgmt : Bool) : Bool :=
  match mode with
  | 0 => true
  | 1 => safety
  | 2 => mgmt
  | _ => false

/-- The active profiles. -/
def activeList (s : State) : List Nat := bitList (get s Reg.contStatusActive) 8

/-- Does every active profile admit a unit at a port P0 to P49? [DEDUCED, log 63] -/
def admitsPort (s : State) (p : Nat) (safety mgmt : Bool) : Bool :=
  50 ≤ p || (activeList s).all fun i => modeAdmits (bitsAt (leAt (activeProfile s i) 8 16) (2 * p) 2) safety mgmt

/-- Does every active profile admit a message at an edge channel? -/
def admitsChan (s : State) (n : Nat) (safety : Bool) : Bool :=
  (activeList s).all fun i => modeAdmits (bitsAt (leAt (activeProfile s i) 24 64) (2 * n) 2) safety false

/-- Is a channel in BLOCKED (R168)? -/
def chanBlocked (s : State) (n : Nat) : Bool :=
  (activeList s).any fun i => bitsAt (leAt (activeProfile s i) 24 64) (2 * n) 2 == 3

/-- The port bound to a channel, for a tethered one. -/
def boundPort (s : State) (n : Nat) : Option Nat :=
  let v := slotView s (curSlot s)
  if 24 ≤ n ∧ v.declared n then some (u8 (bindEntry v (u8 (chanEntry v n) 14)) 2) else none

/-- Is a message admitted to a target channel, and to the port bound to it (R167)? -/
def admitsTarget (s : State) (n : Nat) (safety : Bool) : Bool :=
  admitsChan s n safety && (boundPort s n).all fun p => admitsPort s p safety false

/-! Activation (R169, R170). -/

/-- May a master's CONT_ACT activate a VALID profile? -/
def actMay (s : State) (m : Master) (b : List Byte) : Bool :=
  match m with
  | .sp => true
  | .gc _ => bitAt (u8 b 1) 2
  | .dbg => lifeCycle s == 0
  | .host => bitAt (u8 b 1) 1
  | .spi => bitAt (u8 b 1) 1

/-- The CONT_CAUSE bit of a master. -/
def causeBit : Master → Nat
  | .sp => 2
  | .gc _ => 4
  | .dbg => 4
  | .host => 3
  | .spi => 3

/-- A write of CONT_ACT. -/
def contActWrite (s : State) (m : Master) (w : Nat) : State :=
  if !bitAt w 3 then s
  else match profileRec s (curSlot s) (w % 8) with
    | some b => if actMay s m b then contActivate s (w % 8) (causeBit m) (conflictCode m) else bump s Reg.contStatsRefused
    | none => bump s Reg.contStatsRefused

/-- The ripcord latches and the kept modes after a change of the current slot (R170, R173). -/
def loadRipcord (s : State) : State :=
  let c := curSlot s
  let kept := (activeList s).foldl (fun (m : SMap (List Byte)) (p : Nat) =>
    match profileRec s c p with
    | some b => m.set p b
    | none => m) s.cont.kept
  { s with cont.latch0 := (profileRec s c 0).getD defaultProfile0, cont.kept := kept }

/-- CONT_STATUS.RIPCORD_IN: asserted, or its assertion latched. -/
def showRipcord (s : State) : State := putFlag s Reg.contStatusRipcordIn (s.cont.pinLow || s.cont.pinLatched)

/-- RIPCORD_N_ASSERT: the pin has been low for `ns`. Less than 300 ns is ignored, 300 to 700 ns may or may not
act, more always does. It activates profile 0 while the device forwards, and is latched otherwise (R169, R170); without supply there is no
latch, and the pin's level alone counts when forwarding starts. [DEDUCED, log 77] -/
def ripcordAssert (s : State) (ns : Nat) : State :=
  let d := draw s 2
  let (acts, s0) := if 700 < ns then (true, s) else if ns < 300 then (false, s) else (d.1 == 1, d.2)
  if !acts ∨ s0.cont.pinLow then s0
  else if s0.boot.phase == .off then { s0 with cont.pinLow := true, cont.fellAt := s0.time.now - ns }
  else
    let s1 := put { s0 with cont.pinLow := true, cont.fellAt := s0.time.now - ns } Reg.contStatusRipcordHeld 0
    showRipcord (if aloft s1 then contActivate s1 0 0 0xFF else { s1 with cont.pinLatched := true })

/-- RIPCORD_N_DEASSERT: the pin is high and its 1 ms hold begins (R172). -/
def ripcordDeassert (s : State) : State :=
  if !s.cont.pinLow then s
  else showRipcord (put { s with cont.pinLow := false, cont.roseAt := s.time.now } Reg.contStatusRipcordHeld 1)

/-- RIPCORD_N has been high without a break for 1 ms. -/
def ripcordHigh (s : State) : Bool := !s.cont.pinLow && decide (s.cont.roseAt + 1000000 ≤ s.time.now)

/-- RIPCORD_HOLD_EXPIRY. -/
def ripcordExpiry (s : State) : State := if ripcordHigh s then put s Reg.contStatusRipcordHeld 0 else s

/-- Forwarding starts: with RIPCORD_N low or a latched assertion, profile 0 is active from the first unit
(R170). [DEDUCED, log 77] -/
def ripcordAtStart (s : State) : State :=
  if s.cont.pinLow ∨ s.cont.pinLatched then
    showRipcord { contActivate s 0 0 0xFF with cont.pinLatched := false }
  else s

/-! Release (R172). -/

/-- A write of CONT_REL: RELEASE by SP asks for the first boundary at least 2 us away, each request at its own; DENY
clears REL_PEND. [DEDUCED, log 76] -/
def contRelWrite (s : State) (m : Master) (w : Nat) : State :=
  let n := boundaryAfter s 2000
  let ask := if m == .sp then (bitList (w % 256) 8).map (fun p => (p, n)) else []
  let deny := w / 256 % 256
  let pend := get s Reg.contStatusRelPend
  put { s with cont.relAt := s.cont.relAt ++ ask.filter (!s.cont.relAt.contains ·) } Reg.contStatusRelPend
    (pend - (pend &&& deny))

/-- A write of CONT_REL_REQ: REL_PEND set, and the containment-release doorbell to SP. -/
def contRelReqWrite (s : State) (w : Nat) : State :=
  let s1 := put s Reg.contStatusRelPend (get s Reg.contStatusRelPend ||| w % 256)
  if w % 256 = 0 then s1 else raiseSource s1 2

/-- Has a fault been acknowledged, so that no profile's fault cause waits for it (R172)? [DEDUCED, log 76] -/
def faultDone (s : State) (e : Nat × Nat) : Bool := !(s.cont.faultOpen.any fun l => l.2.contains e)

/-- Do all causes of an active profile permit its release at boundary number `n`? [DEDUCED, log 76] -/
def releaseMay (s : State) (p n : Nat) : Bool :=
  let cause := get s (Reg.contCauseCause p)
  decide (leAt (activeProfile s p) 2 2 + (s.cont.since.find p).getD 0 ≤ n) &&
  (!bitAt cause 0 || ripcordHigh s) &&
  (!bitAt cause 1 || ((s.cont.faultOpen.find p).getD []).isEmpty)

/-- A release decided at boundary number `n`. [DEDUCED, log 76] -/
def releaseProfile (n : Nat) (s : State) (p : Nat) : State :=
  let pend := get s Reg.contStatusRelPend
  let s1 := put { s with cont.relAt := s.cont.relAt.filter fun e => e.1 != p || n < e.2 } Reg.contStatusRelPend
    (pend - (pend &&& 2 ^ p))
  if !profileActive s1 p then s1
  else if !releaseMay s1 p n then bump s1 Reg.contStatsRelRefused
  else
    let cause := get s1 (Reg.contCauseCause p)
    let s2 := put (put s1 Reg.contStatusActive (get s1 Reg.contStatusActive - 2 ^ p)) (Reg.contCauseCause p) 0
    let s3 := { s2 with
      cont.since := s2.cont.since.del p, cont.kept := s2.cont.kept.del p, cont.faultOpen := s2.cont.faultOpen.del p }
    journal s3 0x0031 (leBytes 1 p ++ leBytes 1 cause ++ leBytes 1 0)

/-- Every release due at boundary number `n`, in profile order. -/
def releaseDue (s : State) (n : Nat) : State :=
  ((List.range 8).filter fun p => s.cont.relAt.any fun e => e.1 == p && decide (e.2 ≤ n)).foldl (releaseProfile n) s

/-! Meanings. -/

/-- CONT_ACT. -/
def execContAct (m : Master) (w : Word) (s : State) : Host.Outcome State Fault Refusal :=
  .next (accessWrite s m 0x610004 fun t => contActWrite t m w.toNat)

/-- CONT_REL_RELEASE. -/
def execContRelRelease (m : Master) (w : Word) (s : State) : Host.Outcome State Fault Refusal :=
  .next (accessWrite s m 0x610008 fun t => contRelWrite t m w.toNat)

/-- CONT_REL_DENY. -/
def execContRelDeny (m : Master) (w : Word) (s : State) : Host.Outcome State Fault Refusal :=
  .next (accessWrite s m 0x610008 fun t => contRelWrite t m w.toNat)

/-- CONT_REL_REQ. -/
def execContRelReq (m : Master) (w : Word) (s : State) : Host.Outcome State Fault Refusal :=
  .next (accessWrite s m 0x61000C fun t => contRelReqWrite t w.toNat)

/-- RIPCORD_N_ASSERT. -/
def execRipcordNAssert (ns : Nat) (s : State) : Host.Outcome State Fault Refusal := .next (ripcordAssert s ns)

/-- RIPCORD_N_DEASSERT. -/
def execRipcordNDeassert (s : State) : Host.Outcome State Fault Refusal := .next (ripcordDeassert s)

/-- RIPCORD_HOLD_EXPIRY. -/
def execRipcordHoldExpiry (s : State) : Host.Outcome State Fault Refusal := .next (ripcordExpiry s)

end Sys2Proof.Machine
end

