-- ==== Sys2Proof/Machine/Networks.lean ====
section
/-!
DEFINITION. Networks and their keep-awake messages (R276, R278): what a message or frame means to the wake
bookkeeping at its reception, before it takes its slot, and the requests to abort a descent (R279).
-/
namespace Sys2Proof.Machine

/-! WAKE entries in the current slot, with the empty form of R296. -/

/-- The WAKE globals. -/
def wakeGlobals (s : State) : List Byte :=
  (recOf s (curSlot s) 0x0400 0).getD (leBytes 2 0 ++ leBytes 2 8 ++ leBytes 2 80 ++ leBytes 2 64 ++ zeros 56)

/-- A VALID network. -/
def networkRec (s : State) (n : Nat) : Option (List Byte) :=
  match recOf s (curSlot s) 0x0400 (2 ^ 24 + n) with
  | some b => if bitAt (leAt b 0 2) 0 then some b else none
  | none => none

/-- NM_TIMEOUT of a network in ns. -/
def nmTimeout (b : List Byte) : Nat := leAt b 2 2 * 1000000

/-- The keep-awake filters. -/
def keepFilters (s : State) : List (List Byte) :=
  (recsOf s (curSlot s) 0x0400).filterMap fun e => if e.1 / 2 ^ 24 = 2 then some e.2 else none

/-! The phase of descent (R279), and its ingress. -/

/-- Ingress is closed (R280). -/
def ingressClosed (s : State) : Bool := 2 ≤ descentPhase s && descentPhase s ≤ 4

/-! Awake and suppressed networks. -/

/-- Is a network awake: has a message counted for it within NM_TIMEOUT? -/
def netAwake (s : State) (n : Nat) : Bool :=
  match networkRec s n with
  | some b => ((s.wake.hits.find n).getD []).any fun h => decide (s.time.now ≤ h.hitAt + nmTimeout b)
  | none => false

/-- Is a network suppressed? -/
def netSuppressed (s : State) (n : Nat) : Bool := s.wake.suppressed.has n

/-- A network as time has left it: an episode ends when it is idle, a suppression when nothing has matched for
NM_TIMEOUT. -/
def netSync (s : State) (n : Nat) : State :=
  let s1 := if netAwake s n then s
    else { s with wake.hits := s.wake.hits.del n, wake.awakeSince := s.wake.awakeSince.del n }
  match networkRec s n with
  | none => { s1 with wake.suppressed := s1.wake.suppressed.del n }
  | some b =>
    if aloft s ∧ (s.wake.seen.find n).getD 0 + nmTimeout b < s.time.now then
      { s1 with wake.suppressed := s1.wake.suppressed.del n }
    else s1

/-- A filter of a network has matched: it counts towards awake unless the network is suppressed. -/
def netHit (s : State) (n : Nat) (h : NetHit) : State :=
  let s1 := netSync s n
  let s2 := { s1 with wake.seen := s1.wake.seen.set n s.time.now }
  if netSuppressed s2 n then s2
  else
    let old := match networkRec s2 n with
      | some b => ((s2.wake.hits.find n).getD []).filter fun x => decide (s.time.now ≤ x.hitAt + nmTimeout b)
      | none => []
    let since := if s2.wake.awakeSince.has n then s2.wake.awakeSince else s2.wake.awakeSince.set n s.time.now
    { s2 with wake.hits := s2.wake.hits.set n (h :: old), wake.awakeSince := since }

/-- What the wake bookkeeping finds in a received unit: the filters it matches, each with the identity it yields;
an identity the unit does not hold is left free. [DEDUCED, log 58] -/
def noteHits (s : State) (source : Nat) (l : List (List Byte × Option Nat)) : State :=
  l.foldl (fun st e =>
    let (i, st1) := match e.2 with
      | some i => (i, st)
      | none => draw st (2 ^ 32)
    netHit st1 (u8 e.1 0) ⟨i, source, u8 e.1 12, u8 e.1 13, st.time.now⟩) s

/-- Why the reception of a unit ends: 0 a MAC control frame (R105), 1 a match of a suppressed network (R278), 2 closed ingress
(R280); each has its counter, of P0 to P49 for MAC control frames. -/
def countEnd (s : State) (p k : Nat) : State :=
  match k with
  | 0 => { s with net.mib := s.net.mib.set (32 * p + 18) (((s.net.mib.find (32 * p + 18)).getD 0 + 1) % 2 ^ 64) }
  | 1 => bump s Reg.pwrNetNmSuppressed
  | _ => bump s Reg.descentDiscards

/-- How reception judges a unit with the filters it matches: why it ends, if it does, with its state. A match of a
suppressed network drops it; with ingress closed it is discarded unless it is a keep-awake message in DRAIN. -/
def receiveUnit (s : State) (source : Nat) (l : List (List Byte × Option Nat)) : Option Nat × State :=
  let hit := l.filter fun e => (networkRec s (u8 e.1 0)).isSome
  let s1 := noteHits s source hit
  if hit.any fun e => netSuppressed s1 (u8 e.1 0) then (some 1, s1)
  else
    let s2 := if hit.isEmpty ∨ 3 ≤ descentPhase s1 then s1 else requestAbort s1 2 (source % 256)
    if ingressClosed s2 ∧ (hit.isEmpty ∨ descentPhase s2 ≠ 2) then (some 2, s2) else (none, s2)

/-! Edge messages and frames. -/

/-- An identifier as tables write it: EXT in bit 29 (R209). -/
def edgeId (m : BusMsg) : Nat := m.id + if m.ext then 2 ^ 29 else 0

/-- The identity an edge filter takes from a message (R278). [DEDUCED, log 58] -/
def edgeIdent (b : List Byte) (m : BusMsg) : Option Nat :=
  match u8 b 12 with
  | 0 => some (edgeId m)
  | 1 => some (m.id % 256)
  | 2 => (m.payload[u8 b 13]?).map fun x => x.toNat
  | _ => none

/-- Reception of a message on a channel: whether it goes on. -/
def receiveMsg (s : State) (ch : Nat) (m : BusMsg) : Bool × State :=
  let r := receiveUnit s ch ((keepFilters s).filterMap fun b =>
    if u8 b 1 = 1 ∧ leAt b 2 2 = ch ∧ edgeId m &&& leAt b 8 4 = leAt b 4 4 then some (b, edgeIdent b m) else none)
  match r.1 with
  | none => (true, r.2)
  | some k => (false, countEnd r.2 50 k)

/-- The identity a UDP filter takes from a frame. [DEDUCED, log 58] -/
def udpIdent (b : List Byte) (h : Hdr) (bs : List Byte) : Option Nat :=
  match u8 b 12 with
  | 2 => (bs[h.l4Off + u8 b 13]?).map fun x => x.toNat
  | 3 => if h.ip = 4 then some (beNat h.sip) else none
  | _ => none

/-- Reception of a frame on a port: why it ends there, if it does. -/
def receiveFrame (s : State) (p : Nat) (bs : List Byte) : Option Nat × State :=
  let fs := (keepFilters s).filter fun b => u8 b 1 == 2 && leAt b 2 2 == p
  let h := parseFrame ⟨bs, true, parserOf s (curSlot s), false⟩
  receiveUnit s p (fs.filterMap fun b =>
    if h.l4 ∧ h.proto = 17 ∧ h.dport = leAt b 4 2 then some (b, udpIdent b h bs) else none)

/-! The end of episodes (R276, R278). -/

/-- NETWORK_IDLE. -/
def networkIdle (s : State) (n : Nat) : State := netSync s n

/-- The distinct identities of a list of matches, most recent first, with the number of matches of each. -/
def distinctHits (l : List NetHit) : List (NetHit × Nat) :=
  let same := fun (a b : NetHit) => a.ident == b.ident && a.source == b.source && a.kind == b.kind
  (l.foldl (fun (acc : List NetHit) h => if acc.any (same h) then acc else acc ++ [h]) []).map fun h =>
    (h, (l.filter (same h)).length)

/-- The body of a MAX_AWAKE entry. -/
def maxAwakeEntry (n len : Nat) (l : List (NetHit × Nat)) : List Byte :=
  let ids := l.take 4
  leBytes 1 n ++ leBytes 1 ids.length ++ zeros 2 ++ leBytes 4 len ++
    ids.flatMap fun e => leBytes 4 e.1.ident ++ leBytes 2 e.1.source ++ leBytes 1 e.1.kind ++ leBytes 1 (min 255 e.2)

/-- Seconds of a network's awake episode. -/
def episodeSeconds (s : State) (n : Nat) : Nat :=
  match s.wake.awakeSince.find n with
  | some t => (s.time.now - t) / 1000000000
  | none => 0

/-- MAX_AWAKE: an episode that reaches its limit suppresses the network; the identities kept are those its entry logs.
[DEDUCED, log 58] -/
def maxAwake (s : State) (n : Nat) : State :=
  match networkRec s n with
  | none => s
  | some b =>
    let lim := leAt b 4 4
    if !aloft s ∨ !netAwake s n ∨ netSuppressed s n ∨ lim = 0 ∨ episodeSeconds s n < lim then s
    else
      let recent := ((s.wake.hits.find n).getD []).filter fun h => decide (s.time.now ≤ h.hitAt + nmTimeout b)
      let ids := distinctHits recent
      let s1 := { s with wake.suppressed := s.wake.suppressed.set n ((ids.take 4).map fun e => e.1) }
      journal s1 0x0060 (maxAwakeEntry n (episodeSeconds s n) ids)

/-- A write of NET_CLR ends the suppression of the networks named. -/
def netClrWrite (s : State) (w : Nat) : State :=
  { s with wake.suppressed := SMap.keep s.wake.suppressed fun n _ => !bitAt w n }

/-! Meanings. -/

/-- NETWORK_IDLE. -/
def execNetworkIdle (n : Fin 32) (s : State) : Host.Outcome State Fault Refusal := .next (networkIdle s n)

/-- MAX_AWAKE. -/
def execMaxAwake (n : Fin 32) (s : State) : Host.Outcome State Fault Refusal := .next (maxAwake s n)

/-- NET_CLR. -/
def execNetClr (m : Master) (w : Word) (s : State) : Host.Outcome State Fault Refusal :=
  .next (accessWrite s m 0x010180 fun t => netClrWrite t w.toNat)

end Sys2Proof.Machine
end

