-- ==== Sys2Proof/Machine/EdgeRx.lean ====
section
/-!
DEFINITION. Reception in the edge complex (chapter 9): the receive path of R211, SecOC verification (R236), the
ACF tunnel endpoint (R224) and the loss of a bridge (R227).
-/
namespace Sys2Proof.Machine

/-! Channels. -/

/-- The structural view the channels are read from; every slot has the same one. -/
def edges (s : State) : View := slotView s (curSlot s)

/-- Is a channel declared (R21)? -/
def chanDeclared (s : State) (n : Nat) : Bool := (edges s).declared n

/-- A flag of a channel's EDGES entry: 0 FD_EN, 1 XL_EN, 2 LISTEN_ONLY, 3 FAST_MODE, 4 AUTO_RECOVER. -/
def chanFlag (s : State) (n i : Nat) : Bool := bitAt ((edges s).chanFlags n) i

/-- NOM_RATE of a channel. -/
def nomRate (s : State) (n : Nat) : Nat := leAt (chanEntry (edges s) n) 4 4

/-- DATA_RATE of a channel. -/
def dataRate (s : State) (n : Nat) : Nat := leAt (chanEntry (edges s) n) 8 4

/-- Ns of some bits at a rate, rounded up. -/
def bitsNs (bits rate : Nat) : Nat := if rate = 0 then 0 else divUp (bits * 1000000000) rate

/-- Working-clock time at a local instant, as a 64-bit timestamp. -/
def wcStamp (s : State) (t : Nat) : Nat := unsigned 64 (domAt s.time.wc 50 t)

/-- The channel policy of a channel in a slot; one that is not VALID is no record (R211). [DEDUCED, log 91] -/
def chanPolicy (s : State) (slot n : Nat) : List Byte :=
  match recOf s slot 0x0300 n with
  | some b => if bitAt (leAt b 0 2) 0 then b else zeros 96
  | none => zeros 96

/-- RXL_DEPTH and TXQ_DEPTH brought in line. -/
def showDepths (s : State) (n : Nat) : State :=
  put (put s (Reg.chStatusRxlDepth n) ((s.edge.rxList.find n).getD []).length)
    (Reg.chStatusTxqDepth n) ((s.edge.txq.find n).getD []).length

/-! Cells of edge messages (R233). -/

/-- Cells of a message of a length. -/
def edgeCells (len : Nat) : Nat := divUp (32 + len) 256

/-- Cells for a message: from P50_GUAR of the current slot while it lasts, else from the shared pool; none where
they are refused. The answer says whether they are of the guarantee. [DEDUCED, log 84] -/
def takeEdge (s : State) (n : Nat) : Option (Bool × State) :=
  if guarUsed s 50 + n ≤ guarOf s (curSlot s) 50 then some (true, takeCells s 2 50 n)
  else if n ≤ sharedFree s then some (false, takeCells s 3 50 n)
  else none

/-- Cells of a message returned where they came from. [DEDUCED, log 84] -/
def giveEdge (s : State) (guar : Bool) (n : Nat) : State := giveCells s (if guar then 2 else 3) 50 n

/-! The receive path (R211). -/

/-- Does a VALID filter of a channel policy match? -/
def filterHit (b : List Byte) (id : Nat) : Bool :=
  (List.range 8).any fun i =>
    let v := leAt b (16 + 8 * i) 4
    bitAt v 31 && (id &&& leAt b (20 + 8 * i) 4) == v % 2 ^ 31

/-- One frame taken from a channel's bucket, if it holds one; RX_RATE 0 is no limit. The bucket starts full.
[DEDUCED, log 91] -/
def takeRate (s : State) (n : Nat) (b : List Byte) : Option State :=
  let rate := leAt b 4 4
  if rate = 0 then some s
  else
    let cap := leAt b 8 2 * 1000000000
    let tok := match s.edge.rate.find n with
      | some (t, a) => min cap (t + rate * (s.time.now - a))
      | none => cap
    if tok < 1000000000 then none
    else some { s with edge.rate := s.edge.rate.set n (tok - 1000000000, s.time.now) }

/-- The VALID verify entry of a channel and identifier in a slot. -/
def verifyEntry (s : State) (slot n id : Nat) : Option (Nat × List Byte) :=
  (recsOf s slot 0x0310).find? fun e =>
    leAt e.2 0 2 % 4 == 1 && leAt e.2 6 2 == n && leAt e.2 8 4 == id

/-- Freshness value of a SecOC entry. -/
def fvOf (s : State) (e : Nat) : Nat := (s.edge.fv.find e).getD 0

/-- Requester bit of EC in MASTERS (R244). -/
def edgeRequester : Nat := 4

/-- A message leaves its receive list without being presented: its cells and its in-flight count go. -/
def dropReceived (s : State) (x : EdgeMsg) (f : Fld) : State :=
  untagUnit (giveEdge (bump s f) x.guar x.cells) x.slot

/-- The check of a SecOC entry's key, for VERIFY (1) or GENERATE (0) (R245). -/
def ecCheck (s : State) (b : List Byte) (use : Nat) : Nat := keyCheck s (leAt b 4 2) edgeRequester true use

/-- The freshness value a secured PDU claims (R236). -/
def claimedFv (cur b t : Nat) : Nat :=
  if b = 0 then cur + 1
  else if b = 64 then t
  else if cur % 2 ^ b < t then cur - cur % 2 ^ b + t
  else cur - cur % 2 ^ b + 2 ^ b + t

/-- The checks of R236 before the CMAC: the counter that drops the message and the answer of its key's check, or the freshness value it is
submitted with. -/
def verifyStart (s : State) (e : Nat) (b : List Byte) (m : BusMsg) (ch : Nat) : Except (Fld × Nat) Nat :=
  let pl := leAt b 12 2
  let fb := u8 b 14 / 8
  let need := pl + fb + u8 b 15 / 8
  if m.payload.length < need ∨ !(m.payload.drop need).all (· == 0) then .error (Reg.chSecSecLenDrops ch, 0)
  else if ecCheck s b 1 ≠ 0 then .error (Reg.chSecSecKeyDrops ch, ecCheck s b 1)
  else
    let cur := fvOf s e
    let fv := claimedFv cur (u8 b 14) (beAt m.payload pl fb)
    if fv ≤ cur ∨ leAt b 24 4 < fv - cur ∨ leAt b 16 8 < fv then .error (Reg.chSecFreshFail ch, 0) else .ok fv

/-- What becomes of the first message of a receive list that is not ready: presented without verification,
dropped, with the answer of its key's check, or held while its tag is checked. -/
inductive RxNext where
  | ready (x : EdgeMsg)
  | drop (f : Fld) (chk : Nat)
  | hold (x : EdgeMsg)
deriving DecidableEq, Repr

/-- The judgement of a message whose turn it is. -/
def rxJudge (s : State) (x : EdgeMsg) : RxNext :=
  match verifyEntry s x.slot x.ch (edgeId x.msg) with
  | none => .ready { x with ready := true, secOk := false }
  | some (e, b) =>
    match verifyStart s e b x.msg x.ch with
    | .error (f, chk) => .drop f chk
    | .ok fv => .hold { x with wait := some (e, fv, genOf s (leAt b 4 2)) }

/-- The messages of a channel brought forward in order, up to one that waits for its tag. `done` are those that
are ready. -/
def advanceList (s : State) (done : List EdgeMsg) : List EdgeMsg → List EdgeMsg × State
  | [] => (done, s)
  | x :: xs =>
    if x.ready then advanceList s (done ++ [x]) xs
    else if x.wait.isSome then (done ++ x :: xs, s)
    else match rxJudge s x with
      | .ready y => advanceList s (done ++ [y]) xs
      | .drop f chk => advanceList (dropReceived (countDenied s chk) x f) done xs
      | .hold y => (done ++ y :: xs, s)

/-- A channel's receive list set. -/
def setRxList (s : State) (n : Nat) (l : List EdgeMsg) : State :=
  showDepths { s with edge.rxList := s.edge.rxList.put n (if l.isEmpty then none else some l) } n

/-- A channel's messages brought forward. -/
def advance (s : State) (n : Nat) : State :=
  let r := advanceList s [] ((s.edge.rxList.find n).getD [])
  setRxList r.2 n r.1

/-- A message received on a channel, under the slot it is tagged with (R211). `stamp` is the working-clock time of
its reception and `inPort` the port of its tunnel frame. [DEDUCED, log 91] -/
def receiveOn (s : State) (n : Nat) (m : BusMsg) (slot stamp : Nat) (inPort : Option Nat) : State :=
  let s1 := bump s (Reg.chRxFrames n)
  if m.format = .xl ∧ m.sec then bump s1 (Reg.chSecFmtFormatDrops n)
  else if 24 ≤ n ∧ cmtOf s1 slot (Reg.chCtlAdminEn n) = 0 then bump s1 (Reg.chAdmin n)
  else
    let r := receiveMsg s1 n m
    if !r.1 then r.2
    else
      let b := chanPolicy r.2 slot n
      if bitAt (leAt b 0 2) 1 ∧ !filterHit b (edgeId m) then bump r.2 (Reg.chFilterDrops n)
      else match takeRate r.2 n b with
        | none => bump r.2 (Reg.chRateDrops n)
        | some s2 =>
          let k := edgeCells m.payload.length
          if 16 ≤ ((s2.edge.rxList.find n).getD []).length then bump s2 (Reg.chRxOverrun n)
          else match takeEdge s2 k with
            | none => bump (bump s2 (Reg.chRxOverrun n)) (Reg.swAdmitDrops 50)
            | some (g, s3) =>
              let x : EdgeMsg := ⟨m, n, slot, stamp, false, inPort, k, g, false, none⟩
              advance (setRxList (tagUnit s3 slot) n ((s3.edge.rxList.find n).getD [] ++ [x])) n

/-- Is a channel of the kind and flags a message of a format needs (R224)? -/
def kindFits (s : State) (n : Nat) (m : BusMsg) : Bool :=
  match m.format with
  | .lin => (edges s).chanKind n == 2
  | .cc => (edges s).chanKind n == 1
  | .fd => (edges s).chanKind n == 1 && chanFlag s n 0
  | .xl => (edges s).chanKind n == 1 && chanFlag s n 1

/-! SecOC verification (R236). -/

/-- The MAC of an authentic part under a SecOC entry and freshness value (R235). -/
def secocMac (s : State) (b : List Byte) (auth : List Byte) (fv : Nat) : List Byte :=
  slice (Config.cmac (keyOf s (leAt b 4 2)) (beBytes 2 (leAt b 2 2) ++ auth ++ beBytes 8 fv)) 0 (u8 b 15 / 8)

/-- A key that a held message or output was submitted under still serves. -/
def keyServes (s : State) (b : List Byte) (gen use : Nat) : Bool := ecCheck s b use == 0 && genOf s (leAt b 4 2) == gen

/-- The message of a list that waits for its tag, with what precedes and follows it. -/
def waitingOf : List EdgeMsg → Option (List EdgeMsg × EdgeMsg × List EdgeMsg)
  | [] => none
  | x :: xs =>
    if x.wait.isSome then some ([], x, xs)
    else (waitingOf xs).map fun r => (x :: r.1, r.2.1, r.2.2)

/-- SECOC_VERIFY_DONE: the message that waits on a channel is released with SEC_OK or dropped. -/
def secocVerifyDone (s : State) (n : Nat) : State :=
  match waitingOf ((s.edge.rxList.find n).getD []) with
  | none => s
  | some (pre, x, post) =>
    match x.wait with
    | none => s
    | some (e, fv, gen) =>
      let b := (recOf s x.slot 0x0310 e).getD (zeros 48)
      let pl := leAt b 12 2
      let fb := u8 b 14 / 8
      let good := secocMac s b (x.msg.payload.take pl) fv == slice x.msg.payload (pl + fb) (u8 b 15 / 8)
      if !keyServes s b gen 1 then
        advance (setRxList (dropReceived (countAborted s (ecCheck s b 1)) x (Reg.chSecSecKeyDrops n)) n (pre ++ post)) n
      else
        let s1 := bump s (usesFld (leAt b 4 2))
        if !good then advance (setRxList (dropReceived s1 x (Reg.chSecMacFail n)) n (pre ++ post)) n
        else
          let m := if bitAt (leAt b 0 2) 2 then { x.msg with payload := x.msg.payload.take pl } else x.msg
          let y := { x with msg := m, secOk := true, ready := true, wait := none }
          advance (setRxList { s1 with edge.fv := s1.edge.fv.set e fv } n (pre ++ y :: post)) n

/-! Reception on a local CAN channel (R213). -/

/-- CH_STATUS.STATE of a channel. -/
def chanState (s : State) (n : Nat) : Nat := get s (Reg.chStatusState n)

/-- TEC and REC set, and the error state that follows (R213): AUTO_RECOVER takes a channel out of BUS_OFF at
once. [PRESUMED, log 86] -/
def setErrors (s : State) (n tec rec : Nat) : State :=
  let s1 := put (put s (Reg.canErrTec n) (min 255 tec)) (Reg.canErrRec n) (min 255 rec)
  let st := chanState s n
  if (st = 1 ∨ st = 2) ∧ 255 < tec then
    bump (chEvent (put s1 (Reg.chStatusState n) (if chanFlag s n 4 then 4 else 3)) n (Reg.chEventsBusOff n))
      (Reg.canErrBusOffs n)
  else if st = 1 ∧ (128 ≤ tec ∨ 128 ≤ rec) then
    chEvent (put s1 (Reg.chStatusState n) 2) n (Reg.chEventsErrPassive n)
  else if st = 2 ∧ tec < 128 ∧ rec < 128 then put s1 (Reg.chStatusState n) 1
  else s1

/-- Is a local CAN controller on its bus, able to receive? -/
def canOnBus (s : State) (n : Nat) : Bool :=
  aloft s && s.edge.joined.contains n && (chanState s n == 1 || chanState s n == 2)

/-- REC after an error-free reception (ISO 11898-1): one lower, or some value from 119 to 127 when it was above
127. [PRESUMED, log 86] -/
def recAfter (s : State) (rec : Nat) : Nat × State :=
  if rec ≤ 127 then (rec - 1, s)
  else
    let d := draw s 9
    (119 + d.1, d.2)

/-- CAN_FRAME_RECEIVE. -/
def canReceive (s : State) (n : Nat) (m : BusMsg) : State :=
  if !canOnBus s n ∨ m.format = .lin ∨ !kindFits s n m then s
  else
    let r := recAfter s (get s (Reg.canErrRec n))
    let s1 := setErrors r.2 n (get s (Reg.canErrTec n)) r.1
    receiveOn s1 n m (curSlot s1) (wcStamp s1 s1.time.now) none

/-! The tunnel endpoint (R222 to R224). -/

/-- Offset of the header after the VLAN tags of a frame, as many of them as the parser takes. [PRESUMED, log 82] -/
def afterTags (bs : List Byte) : Nat → Nat → Nat
  | 0, o => o + 2
  | fuel + 1, o =>
    if beAt bs o 2 = 0x8100 ∨ beAt bs o 2 = 0x88A8 then afterTags bs fuel (o + 4) else o + 2

/-- Offset of the AVTP header of a frame. -/
def avtpOff (bs : List Byte) : Nat := afterTags bs 15 12

/-- sequence_num of an AVTP header. -/
def avtpSeq (bs : List Byte) (o : Nat) : Nat := if u8 bs o = 0x82 then u8 bs (o + 3) else u8 bs (o + 2)

/-- Fixed part of an ACF message type, none for a type that is not supported (R222, R224). -/
def acfFixed (t : Nat) : Option Nat :=
  match t with
  | 0x01 => some 16
  | 0x02 => some 8
  | 0x03 => some 12
  | 0x7E => some 28
  | _ => none

/-- Length in bytes of the ACF message at the head of some bytes: none where it ends the walk. -/
def acfLen (bs : List Byte) : Option Nat :=
  let w := beAt bs 0 2
  let n := if w / 512 = 0x7E then (if bs.length < 6 then 0 else 4 * beAt bs 4 2) else 4 * (w % 512)
  if bs.length < 2 ∨ n = 0 ∨ bs.length < n then none else some n

/-- The bus number and the message of a supported ACF message (IEEE 1722-2016, R223). [PRESUMED, log 82] -/
def acfMsg (b : List Byte) : Nat × BusMsg :=
  let t := beAt b 0 2 / 512
  let f := u8 b 2
  let body := fun (o : Nat) => (b.drop o).take (b.length - o - f / 64)
  let can := fun (o : Nat) =>
    (u8 b 3 % 32,
     (⟨if bitAt f 1 then .fd else .cc, beAt b (o - 4) 4 % 2 ^ 29, bitAt f 3, bitAt f 4, bitAt f 2, bitAt f 0, 0, 0, 0,
       false, body o⟩ : BusMsg))
  match t with
  | 0x01 => can 16
  | 0x02 => can 8
  | 0x03 => (f % 32, ⟨.lin, u8 b 3 % 64, false, false, false, false, 0, 0, 0, false, body 12⟩)
  | _ => (f % 32, ⟨.xl, beAt b 16 2 % 2048, false, false, false, false, u8 b 18, u8 b 19, beAt b 20 4,
      bitAt (u8 b 3) 7, body 24⟩)

/-- One ACF message of a tunnel frame handed to its channel. -/
def tunnelMsg (s : State) (bind slot stamp port : Nat) (b : List Byte) : State :=
  match acfFixed (beAt b 0 2 / 512) with
  | none => bump s Reg.edgeAcfAcfUnsupported
  | some k =>
    if b.length < k then bump s Reg.edgeAcfAcfLen
    else
      let (bus, m) := acfMsg b
      match ((edges s).bindChans bind).find? fun n => u8 (chanEntry (edges s) n) 15 == bus with
      | none => bump s Reg.edgeUnknownBus
      | some n =>
        if !kindFits s n m then bump s (Reg.chSecFmtFormatDrops n)
        else receiveOn s n m slot stamp (some port)

/-- The ACF messages of a tunnel frame walked in order; each takes at least four bytes. -/
def tunnelWalk (bind slot stamp port : Nat) : Nat → State → List Byte → State
  | 0, s, _ => s
  | fuel + 1, s, bs =>
    if bs.isEmpty then s
    else match acfLen bs with
      | none => bump s Reg.edgeAcfAcfLen
      | some n => tunnelWalk bind slot stamp port fuel (tunnelMsg s bind slot stamp port (bs.take n)) (bs.drop n)

/-- A binding heard from: BRIDGE_LOST clears (R227). -/
def heard (s : State) (b : Nat) : State :=
  let s1 := put { s with edge.heardAt := s.edge.heardAt.set b s.time.now } (Reg.bindLost b) 0
  ((edges s).bindChans b).foldl (fun st n => put st (Reg.chStatusBridgeLost n) 0) s1

/-- sequence_num of a tunnel frame compared with the last one; the first has none to differ from. [DEDUCED, log 87] -/
def noteSeq (s : State) (b seq : Nat) : State :=
  let s1 := { s with edge.lastSeq := s.edge.lastSeq.set b seq }
  if (s.edge.lastSeq.find b).all fun l => (l + 1) % 256 == seq then s1 else bump s1 (Reg.bindSeqSeqGaps b)

/-- ACF_TUNNEL_ENDPOINT: the oldest tunnel frame at P50, once it is whole. -/
def tunnelEndpoint (s : State) : State :=
  match s.edge.tunnelIn with
  | [] => s
  | u :: us =>
    match packetOf s u with
    | none => { s with edge.tunnelIn := us }
    | some pk =>
      if pk.tail ≠ 1 then s
      else
        let b := pk.tunnel.getD 0
        let o := avtpOff pk.bytes
        let l := acfSpan pk.bytes o
        let acf := slice pk.bytes (o + l.1) l.2
        let s1 := bump { s with edge.tunnelIn := us } (Reg.bindRxTunnel b)
        let s2 := heard (noteSeq s1 b (avtpSeq pk.bytes o)) b
        let s3 := tunnelWalk b (pk.slot.getD (curSlot s)) (wcStamp s pk.stamp) pk.port acf.length s2 acf
        releaseRef s3 u

/-- BRIDGE_LOST: no tunnel frame on a binding for TIMEOUT ms. [DEDUCED, log 87] -/
def bridgeLost (s : State) (b : Nat) : State :=
  let chans := (edges s).bindChans b
  let limit := leAt (bindEntry (edges s) b) 32 2 * 1000000
  if !aloft s ∨ chans.isEmpty ∨ flag s (Reg.bindLost b) ∨ s.time.now < (s.edge.heardAt.find b).getD 0 + limit then s
  else chans.foldl (fun st n => chEvent (put st (Reg.chStatusBridgeLost n) 1) n (Reg.chEventsBridgeLost n))
    (put s (Reg.bindLost b) 1)

/-! Meanings. -/

/-- CAN_FRAME_RECEIVE. -/
def execCanFrameReceive (ch : Fin 16) (msg : BusMsg) (s : State) : Host.Outcome State Fault Refusal :=
  .next (canReceive s ch msg)

/-- SECOC_VERIFY_DONE. -/
def execSecocVerifyDone (ch : Fin 256) (s : State) : Host.Outcome State Fault Refusal := .next (secocVerifyDone s ch)

/-- ACF_TUNNEL_ENDPOINT. -/
def execAcfTunnelEndpoint (s : State) : Host.Outcome State Fault Refusal := .next (tunnelEndpoint s)

/-- BRIDGE_LOST. -/
def execBridgeLost (b : Fin 64) (s : State) : Host.Outcome State Fault Refusal := .next (bridgeLost s b)

end Sys2Proof.Machine
end

