-- ==== Sys2Proof/Machine/MacSec.lean ====
section
/-!
DEFINITION. Integrity-only MACsec on the external ports (R95 to R102): the checks of a received frame, the
ICV check, protection of a transmitted frame, packet numbers and their exhaustion.
-/
namespace Sys2Proof.Machine

/-- Two bytes of a frame as an EtherType. -/
def etypeAt (bs : List Byte) (o : Nat) : Nat := beAt bs o 2

/-- Requester bit of PORT in MASTERS (R244). -/
def portRequester : Nat := 3

/-- Is a SUITE one of the XPN suites? -/
def isXpn (suite : Nat) : Bool := 2 ≤ suite

/-- The highest PN of a suite (R101). -/
def pnMax (xpn : Bool) : Nat := if xpn then 2 ^ 64 - 1 else 2 ^ 32 - 1

/-- PN of a received SecTAG, extended for the XPN suites from the highest PN received, within 64 bits (R97). -/
def recoverPn (xpn : Bool) (next pn : Nat) : Nat :=
  if !xpn then pn
  else
    let top := next - 1
    let hi := top / 2 ^ 32
    if bitAt top 31 ∧ !bitAt pn 31 then (hi + 1) % 2 ^ 32 * 2 ^ 32 + pn else hi * 2 ^ 32 + pn

/-- The nonce of a frame: SCI and PN, or SSCI and PN exclusive-or the salt for the XPN suites. -/
def nonceOf (xpn : Bool) (sci ssci salt pn : Nat) : List Byte :=
  if xpn then xorBytes (beBytes 4 ssci ++ beBytes 8 pn) (beBytes 12 salt) else beBytes 8 sci ++ beBytes 4 pn

/-- A receive SA of a port as a slot has it. -/
def rxSaOf (s : State) (slot p i : Nat) : RxSa :=
  ⟨cmtOf s slot (Reg.saKeyValid p i) == 1, cmtOf s slot (Reg.saKeyKeySlot p i), cmtOf s slot (Reg.saSsci p i),
    cmtOf s slot (Reg.saSalt p i)⟩

/-- What a port's SecY verifies by in a slot (R97). A frame takes it along as its first byte comes, so that it is verified by
that slot's configuration whatever becomes of the slot meanwhile. [DEDUCED, log 53] -/
def rxCfg (s : State) (slot p : Nat) : RxCfg :=
  { bypass := cmtOf s slot (Reg.macsecCfgBypassPtp p) == 1
    suite := cmtOf s slot (Reg.macsecCfgSuite p)
    win := if cmtOf s slot (Reg.macsecCfgReplayEn p) = 1 then some (cmtOf s slot (Reg.replayWin p)) else none
    scs := ((List.range 8).filter fun c => bitAt (cmtOf s slot (Reg.macsecCfgRxScEn p)) c).map fun c =>
      (c, cmtOf s slot (Reg.sciRx p c), (List.range 4).map fun a => rxSaOf s slot p (4 + 4 * c + a)) }

/-- The receive SC a SecTAG names among those enabled: by its SCI, or SC 0 without one (R96). -/
def rxSc (cfg : RxCfg) (sci : Option Nat) : Option (Nat × Nat × List RxSa) :=
  cfg.scs.find? fun e => match sci with
    | some x => e.2.1 == x
    | none => e.1 == 0

/-! A secure association's packet number (R62, R99). -/

/-- Does the current slot hold an SA VALID with a key slot, so that its next PN runs in the registers? -/
def saLive (s : State) (p i key : Nat) : Bool :=
  cur s (Reg.saKeyValid p i) == 1 && cur s (Reg.saKeyKeySlot p i) == key

/-- The number a former SA is kept under. -/
def formerKey (p i key : Nat) : Nat := (p * 36 + i) * 512 + key % 512

/-- An SA as its registers have it. -/
def saRegs (s : State) (p i : Nat) : FormerSa :=
  ⟨get s (Reg.saNextPn p i), flag s (Reg.saStatExhausted p i), flag s (Reg.saStatThreshHit p i)⟩

/-- An SA's next PN, exhaustion and threshold under a key: the registers', or those kept since the commit that took the
key from it, for a unit of a draining slot. [DESIGN CHOICE, log 128] -/
def saState (s : State) (p i key : Nat) : FormerSa :=
  if saLive s p i key then saRegs s p i else (s.net.formerSa.find (formerKey p i key)).getD (saRegs s p i)

/-- An SA's next PN, exhaustion and threshold under a key set. [DESIGN CHOICE, log 128; DESIGN CHOICE, log 143] -/
def setSa (s : State) (p i key : Nat) (x : FormerSa) : State :=
  if saLive s p i key ∨ !s.net.formerSa.has (formerKey p i key) then
    putFlag (putFlag (put s (Reg.saNextPn p i) x.pn) (Reg.saStatExhausted p i) x.exhausted) (Reg.saStatThreshHit p i) x.thresh
  else { s with net.formerSa := s.net.formerSa.set (formerKey p i key) x }

/-- Does the replay check refuse a PN (R97)? -/
def replayed (next pn : Nat) (win : Option Nat) : Bool := win.any fun w => pn < next - w

/-- How the checks of R97 end before the MAC cluster: accepted as it is, dropped under a counter with what the check of
its key found (R245), or held. -/
inductive RxPre where
  | accept
  | drop (f : Fld) (chk : Nat)
  | hold (h : RxHold)
deriving DecidableEq, Repr

/-- The checks of R97 up to the submission, under the configuration of the slot that was current when the frame's first byte
came. A frame on an exhausted receive SA counts in RX_NO_SA. [DEDUCED, log 53] -/
def rxCheck (s : State) (cfg : RxCfg) (p : Nat) (bs : List Byte) : RxPre :=
  if etypeAt bs 12 ≠ 0x88E5 then
    if cfg.bypass ∧ etypeAt bs 12 = 0x88F7 then .accept
    else .drop (Reg.portRxNoSa p) 0
  else
    let tci := u8 bs 14
    let hasSci := bitAt tci 5
    let tagLen := if hasSci then 16 else 8
    if bitAt tci 3 ∨ bitAt tci 2 then .drop (Reg.portRxUnsupported p) 0
    else match rxSc cfg (if hasSci then some (beAt bs 20 8) else none) with
      | none => .drop (Reg.portRxNoSa p) 0
      | some (c, sci, sas) =>
        let i := 4 + 4 * c + tci % 4
        let x := (sas[tci % 4]?).getD ⟨false, 0, 0, 0⟩
        let xpn := isXpn cfg.suite
        let sa := saState s p i x.key
        let next := sa.pn
        let pn := recoverPn xpn next (beAt bs 16 4)
        let short := u8 bs 15 % 64
        let chk := keyCheck s x.key portRequester true 1
        if !x.valid ∨ sa.exhausted then .drop (Reg.portRxNoSa p) 0
        else if chk ≠ 0 then .drop (Reg.portRxNoSa p) chk
        else if pn = 0 ∨ replayed next pn cfg.win then .drop (Reg.portRxReplay p) 0
        else .hold ⟨i, pn, x.key, genOf s x.key, nonceOf xpn sci x.ssci x.salt pn, cfg.win, xpn, tagLen, if short = 0 then bs.length - (12 + tagLen + 16) else short⟩

/-- The ICV of a held frame verifies over its addresses, SecTAG and user data. -/
def icvGood (s : State) (h : RxHold) (bs : List Byte) : Bool :=
  let n := 12 + h.tagLen + h.dataLen
  n + 16 ≤ bs.length && 0 < h.dataLen &&
    (Config.gcmOpen (keyOf s h.key) h.nonce (bs.take n) [] (slice bs n 16)).isSome

/-- A frame without its SecTAG and ICV. -/
def stripTag (h : RxHold) (bs : List Byte) : List Byte := bs.take 12 ++ slice bs (12 + h.tagLen) h.dataLen

/-- A held frame is dropped under a counter. -/
def dropHeld (s : State) (u : Nat) (f : Fld) : State := bump { s with net.packets := s.net.packets.del u } f

/-- DEI of the tag a frame arrives with (R105, R183). -/
def arrivedDei (bs : List Byte) : Bool := etypeAt bs 12 == 0x8100 && bitAt (beAt bs 14 2) 12

/-- Bytes of a frame that have not been written into cells; the FCS counts with the last of them (R82). -/
def unwritten (pk : Packet) : Nat := if pk.bytes.length ≤ pk.written then 0 else frameLen pk - pk.written

/-- Bytes of a port's frames that wait in its ingress staging FIFO; frames before the SecY, and those whose reception ends,
are not there. [DEDUCED, log 55] -/
def stagingBytes (s : State) (p : Nat) : Nat :=
  ((s.net.packets.filter fun e => e.2.port == p && e.2.sec.isNone && e.2.hold.isNone && !e.2.dropped).map fun e =>
    unwritten e.2).sum

/-- Two maximum frames. [DEDUCED, log 55] -/
def stagingLimit : Nat := 20480

/-- A frame the SecY lets pass enters its port's staging FIFO, unless its reception ends there or the FIFO holds two maximum
frames (R126, R276, R280). [DEDUCED, log 53; DEDUCED, log 55] -/
def enterStaging (s : State) (u : Nat) (pk : Packet) : State :=
  let gone := fun (st : State) => { st with net.packets := st.net.packets.del u }
  if stagingLimit ≤ stagingBytes s pk.port then gone (countIn s pk.port (Reg.swStagingDrops pk.port))
  else
    let r := receiveFrame s pk.port pk.bytes
    match r.1 with
    | none => setPacket r.2 u { pk with dei := arrivedDei pk.bytes, sec := none, hold := none, whole := true, tail := 1 }
    | some k => gone (countEnd r.2 pk.port k)

/-- A frame whose tail is in and good comes before the SecY: dropped, passed as it is, or held for its ICV (R94, R97).
[DEDUCED, log 53] -/
def secEntry (s : State) (u : Nat) (pk : Packet) (cfg : RxCfg) : State :=
  match rxCheck s cfg pk.port pk.bytes with
  | .drop f chk => dropHeld (countDenied s chk) u f
  | .accept => enterStaging s u pk
  | .hold h => setPacket s u { pk with sec := none, hold := some h, tail := 1 }

/-- A held frame is accepted: its SA's next PN moves, it counts, and it goes on without its SecTAG. [DEDUCED, log 53] -/
def acceptHeld (s : State) (u : Nat) (pk : Packet) (h : RxHold) : State :=
  let p := pk.port
  let sa := saState s p h.sa h.key
  let s1 := setSa s p h.sa h.key { sa with pn := max sa.pn (h.pn + 1), exhausted := sa.exhausted || h.pn == pnMax h.xpn }
  enterStaging (bump (bump s1 (Reg.saFrames p h.sa)) (usesFld h.key)) u { pk with bytes := stripTag h pk.bytes }

/-- A line block has waited for an AES core, 16 ns or 12 cycles at most (R258); how long, the manual leaves open.
[DESIGN CHOICE, log 5] -/
def lineWait (s : State) : State :=
  let d := draw s 13
  raiseTo d.2 Reg.macStatusMaxLineWait d.1

/-- MACSEC_ICV_CHECK: the oldest held frame of a port is checked (R97, R102). [DEDUCED, log 53] -/
def macsecIcvCheck (s : State) (p : Nat) : State :=
  match firstPacket s fun pk => pk.port == p && pk.hold.isSome with
  | none => s
  | some (u, pk) =>
    match pk.hold with
    | none => s
    | some h =>
      let chk := keyCheck s h.key portRequester true 1
      if chk ≠ 0 ∨ genOf s h.key ≠ h.gen then dropHeld (countAborted s chk) u (Reg.portRxNoSa p)
      else if !icvGood s h pk.bytes then dropHeld (lineWait s) u (Reg.portRxIcvFail p)
      else if (saState s p h.sa h.key).exhausted then dropHeld (lineWait s) u (Reg.portRxNoSa p)
      else if replayed (saState s p h.sa h.key).pn h.pn h.win then dropHeld (lineWait s) u (Reg.portRxReplay p)
      else acceptHeld (lineWait s) u pk h

/-! Transmission (R98 to R101). -/

/-- Does a frame leave protected: TX_EN in its slot, and not an 802.1AS frame that BYPASS_PTP lets pass? -/
def txProtected (s : State) (slot p : Nat) (bs : List Byte) : Bool :=
  p < 48 && cmtOf s slot (Reg.macsecCfgTxEn p) == 1 &&
    !(cmtOf s slot (Reg.macsecCfgBypassPtp p) == 1 && etypeAt bs 12 == 0x88F7)

/-- Bytes MACsec adds to a frame: SecTAG and ICV. -/
def txOverhead (s : State) (slot p : Nat) (bs : List Byte) : Nat :=
  if txProtected s slot p bs then (if cmtOf s slot (Reg.macsecCfgIncludeSci p) = 1 then 32 else 24) else 0

/-- A transmit SA's next PN moves past the one just taken under a key: the threshold's event once per loading, and
exhaustion at the highest PN (R100, R101). -/
def txAdvance (s : State) (slot p an key : Nat) (sa : FormerSa) (xpn : Bool) : State :=
  let thr := cmtOf s slot (Reg.pnThresh p) % (if xpn then 2 ^ 64 else 2 ^ 32)
  let hit := decide (thr < sa.pn + 1) && !sa.thresh
  let last := sa.pn == pnMax xpn
  let s1 := bump (setSa s p an key ⟨sa.pn + 1, sa.exhausted || last, sa.thresh || hit⟩) (Reg.saFrames p an)
  let s2 := if hit then portEvent s1 p (Reg.portEventsPnThresh p) else s1
  if last then portEvent s2 p (Reg.portEventsPnExhausted p) else s2

/-- A frame protected under its slot's transmit SA; none where the SA does not serve (R98). The answer is
the secured frame and the key it was made under. [PRESUMED, log 52; DESIGN CHOICE, log 128] -/
def protectFrame (s : State) (slot p : Nat) (bs : List Byte) : Option (List Byte × Nat × Nat) × State :=
  let an := cmtOf s slot (Reg.macsecCfgTxAn p)
  let key := cmtOf s slot (Reg.saKeyKeySlot p an)
  let xpn := isXpn (cmtOf s slot (Reg.macsecCfgSuite p))
  let sa := saState s p an key
  let pn := sa.pn
  let chk := keyCheck s key portRequester true 0
  if cmtOf s slot (Reg.saKeyValid p an) = 0 ∨ sa.exhausted then (none, s)
  else if chk ≠ 0 then (none, countDenied s chk)
  else
    let sci := cmtOf s slot (Reg.sciTx p)
    let incl := cmtOf s slot (Reg.macsecCfgIncludeSci p) = 1
    let data := bs.drop 12
    let tag := beBytes 2 0x88E5 ++ beBytes 1 ((if incl then 32 else 0) + an) ++
      beBytes 1 (if data.length < 48 then data.length else 0) ++ beBytes 4 pn ++ (if incl then beBytes 8 sci else [])
    let aad := bs.take 12 ++ tag ++ data
    let icv := (Config.gcmSeal (keyOf s key)
      (nonceOf xpn sci (cmtOf s slot (Reg.saSsci p an)) (cmtOf s slot (Reg.saSalt p an)) pn) aad []).2
    (some (aad ++ slice icv 0 16, key, genOf s key), lineWait (bump (txAdvance s slot p an key sa xpn) (usesFld key)))

/-! At a commit and at a revocation boundary. -/

/-- What an SA's registers held under the key of the former slot, kept for the units of that slot when the current slot
no longer runs the SA under that key. [DESIGN CHOICE, log 128] -/
def keepFormer (o p i : Nat) (s : State) : State :=
  let key := cmtOf s o (Reg.saKeyKeySlot p i)
  if cmtOf s o (Reg.saKeyValid p i) = 1 ∧ !saLive s p i key then
    { s with net.formerSa := s.net.formerSa.set (formerKey p i key) (saRegs s p i) }
  else s

/-- An SA's next PN loaded from INIT_PN when a commit makes it VALID, changes its KEY_SLOT or refills the
slot's key; an SA no longer VALID is no longer exhausted (R99, R101, R250). `was` is the former slot, none
at a load. [DESIGN CHOICE, log 128] -/
def loadPn (refilled : Nat → Bool) (was : Option Nat) (p i : Nat) (s0 : State) : State :=
  let s := match was with
    | some o => keepFormer o p i s0
    | none => s0
  let c := curSlot s
  let key := fun e => cmtOf s e (Reg.saKeyKeySlot p i)
  let valid := fun e => cmtOf s e (Reg.saKeyValid p i) == 1
  if !valid c then put s (Reg.saStatExhausted p i) 0
  else if was.any (fun o => valid o && key o == key c) && !refilled (key c) then s
  else put (put (put s (Reg.saNextPn p i) (max 1 (cmtOf s c (Reg.saInitPn p i)))) (Reg.saStatExhausted p i) 0)
    (Reg.saStatThreshHit p i) 0

/-- Every SA of every port with MACSEC_CAP at a commit or load. -/
def loadPns (s : State) (refilled : Nat → Bool) (was : Option Nat) : State :=
  forIdx 48 (fun p st =>
    if flag st (Reg.portModeMacsecCap p) then forIdx 36 (fun i t => loadPn refilled was p i t) st else st) s

/-- Frames in transmission under a key that serves no longer, whose last block has not left by now, are cut short here with a
stomped FCS and counted (R102). -/
def cutRevoked (s : State) : State :=
  s.net.macs.foldl (fun st e =>
    match e.2.key with
    | some (k, g) =>
      let n := if e.2.running then sentBy st (e.1 / 2) e.2 st.time.now else e.2.sent
      if !e.2.stomp ∧ n < e.2.bytes.length ∧ (keyCheck st k portRequester true 0 ≠ 0 ∨ genOf st k ≠ g) then
        bump { countAborted st (keyCheck st k portRequester true 0) with
          net.macs := st.net.macs.set e.1 (cutTx st (e.1 / 2) e.2 n) } (Reg.portTxSaDrops (e.1 / 2))
      else st
    | none => st) s

/-! Meaning. -/

/-- MACSEC_ICV_CHECK. -/
def execMacsecIcvCheck (p : Fin 48) (s : State) : Host.Outcome State Fault Refusal := .next (macsecIcvCheck s p)

end Sys2Proof.Machine
end

