-- ==== Sys2Proof/Machine/Switch.lean ====
section
/-!
DEFINITION. The switch core (chapter 5) and the policer (R178 to R185): the forwarding database, the
destination set, stream filters, leaf choice, WRED, admission to the cell buffer and queueing.
-/
namespace Sys2Proof.Machine

/-! The forwarding database (R108 to R111). -/

/-- The VALID static entry of a slot for (FID, address). -/
def staticFor (s : State) (slot fid : Nat) (mac : List Byte) : Option (List Byte) :=
  ((recsOf s slot 0x0100).find? fun e =>
    e.1 / 2 ^ 24 == 2 && bitAt (leAt e.2 10 2) 0 && leAt e.2 6 2 == fid && slice e.2 0 6 == mac).map fun e => e.2

/-- The learned entry for (FID, address) with its way. -/
def learnedFor (s : State) (fid : Nat) (mac : List Byte) : Option (Nat × Learned) :=
  s.net.learned.find? fun e => e.2.fid == fid && e.2.mac == mac

/-- LEARNED brought in line. -/
def showLearned (s : State) : State := put s Reg.fdbStatusLearned (min 65535 s.net.learned.length)

/-- A source address learned, moved to its new port, or hit again (R109). -/
def learnMac (s : State) (fid : Nat) (mac : List Byte) (p : Nat) : State :=
  match learnedFor s fid mac with
  | some (w, e) =>
    { s with net.learned := s.net.learned.set w { e with port := p, hitAt := s.time.now } }
  | none =>
    let b := fdbBucket fid mac
    match ((List.range 4).map fun w => 4 * b + w).find? fun w => !s.net.static.has w && !s.net.learned.has w with
    | some w => showLearned { s with net.learned := s.net.learned.set w ⟨fid, mac, p, s.time.now⟩ }
    | none => bump s Reg.swLearnLearnFull

/-- Is an address a group address? -/
def isGroupMac (mac : List Byte) : Bool := bitAt (u8 mac 0) 0

/-- Learning for a frame whose verdict is not a drop: an entry is hit as a source only by a frame that learns; `vid` is the VID of R106.
[DEDUCED, log 74] -/
def learnFrame (s : State) (slot p passes vid : Nat) (bs : List Byte) : State :=
  let sa := slice bs 6 6
  match vlanOf s slot vid with
  | none => s
  | some v =>
    if p ≤ 48 ∧ passes = 0 ∧ !isGroupMac sa ∧ bitAt (u8 (fwdPort s slot p) 1) 3 ∧ bitAt (leAt v 2 2) 1 ∧
        (staticFor s slot (leAt v 0 2) sa).isNone then
      learnMac s (leAt v 0 2) sa p
    else s

/-- Does the source address violate a static entry with SRC_BIND (R110)? -/
def bindViolated (s : State) (slot p vid : Nat) (bs : List Byte) : Bool :=
  match vlanOf s slot vid with
  | none => false
  | some v => (staticFor s slot (leAt v 0 2) (slice bs 6 6)).any fun b =>
      bitAt (leAt b 10 2) 2 && leAt b 8 2 % 32768 != p

/-- FDB_CTL.FLUSH: the learned entries that match go at once; FLUSH_BUSY lasts until FDB_FLUSH_DONE. -/
def fdbFlush (s : State) (w : Nat) : State :=
  if !bitAt w 0 ∨ flag s Reg.fdbStatusFlushBusy then s
  else
    let hit := fun (e : Learned) =>
      (!bitAt w 1 || e.port == bitsAt w 3 6) && (!bitAt w 2 || e.fid == bitsAt w 12 12)
    showLearned (put { s with net.learned := SMap.keep s.net.learned fun _ e => !hit e } Reg.fdbStatusFlushBusy 1)

/-- FDB_AGEING: a learned entry not hit as a source for AGE_TIME seconds goes; not in Moored. [DEDUCED, log 74] -/
def fdbAgeing (s : State) (i : Nat) : State :=
  let age := get s Reg.swCfgAgeTime
  match s.net.learned.find i with
  | some e =>
    if aloft s ∧ age ≠ 0 ∧ e.hitAt + age * 1000000000 ≤ s.time.now then
      showLearned { s with net.learned := s.net.learned.del i }
    else s
  | none => s

/-- An entry read through the FDB access port. -/
def fdbResult (s : State) (status mask age : Nat) (mac : List Byte) (info : Nat) : State :=
  let s1 := put (put s Reg.fdbAccMacLo (leAt mac 0 4)) Reg.fdbAccMacHi (leAt mac 4 2)
  let s2 := put (put s1 Reg.fdbAccInfoFid (bitsAt info 0 12)) Reg.fdbAccInfoValid (bitsAt info 12 1)
  let s3 := put (put s2 Reg.fdbAccInfoStatic (bitsAt info 13 1)) Reg.fdbAccInfoGroup (bitsAt info 14 1)
  let s4 := put (put s3 Reg.fdbAccInfoDiscard (bitsAt info 15 1)) Reg.fdbAccInfoDest (bitsAt info 16 15)
  let s5 := put (put s4 Reg.fdbAccInfoSrcBind (bitsAt info 31 1)) Reg.fdbAccAgeAge age
  put (put (put s5 Reg.fdbAccAgeMask mask) Reg.fdbAccAgeStatus status) Reg.fdbAccCtlDone 1

/-- FDB_ACC_INFO of a static entry. -/
def staticInfo (b : List Byte) : Nat :=
  let d := leAt b 8 2
  let f := leAt b 10 2
  leAt b 6 2 + 2 ^ 12 * b2n (bitAt f 0) + 2 ^ 13 + 2 ^ 14 * b2n (bitAt d 15) + 2 ^ 15 * b2n (bitAt f 1) +
  2 ^ 16 * (d % 32768) + 2 ^ 31 * b2n (bitAt f 2)

/-- A write of FDB_ACC_CTL; learned entries read alike in every view. -/
def fdbAccCtl (s : State) (m : Master) (w : Nat) : State :=
  let i := bitsAt w 1 15
  let s1 := put (put s Reg.fdbAccCtlIndex i) Reg.fdbAccCtlView (bitsAt w 16 2)
  let s2 := put s1 Reg.fdbAccCtlSlot (bitsAt w 18 2)
  if !bitAt w 0 then s2
  else match viewSlot s2 m (bitsAt w 16 2) (bitsAt w 18 2) with
    | none => fdbResult s2 1 0 0 [] 0
    | some e =>
      match s2.net.learned.find i, s2.net.static.find i with
      | some l, _ =>
        fdbResult s2 0 0 (min (2 ^ 20 - 1) ((s2.time.now - l.hitAt) / 1000000000)) l.mac (l.fid + 2 ^ 12 + 2 ^ 16 * l.port)
      | none, some (k, b) =>
        if s2.env.policy.find (e * 2 ^ 48 + k) = some b then
          fdbResult s2 0 (membership s2 k b) 0 (slice b 0 6) (staticInfo b)
        else fdbResult s2 2 0 0 [] 0
      | none, none => fdbResult s2 2 0 0 [] 0

/-! The destination set (R112). -/

/-- What becomes of a frame: dropped under a counter, recirculated, or sent to targets and copies. -/
inductive Fate where
  | drop (f : Fld)
  | recirc
  | send (targets : List Nat) (atomic : Bool) (copies : List Nat)
deriving DecidableEq, Repr

/-- Is the port a forwarding destination: P48, P49 or an external port that is not absent (R83)? -/
def portPresent (s : State) (p : Nat) : Bool := 48 ≤ p || get s (Reg.portModeMode p) != 0

/-- A port or a group as a list of ports; none for a group that is not VALID. -/
def destOf (s : State) (slot dest : Nat) : Option (List Nat × Bool) :=
  if bitAt dest 15 then (groupOf s slot (dest % 32768)).map fun g => (bitList g.1 50, g.2)
  else some ([dest % 32768], false)

/-- RECIRC_MAX of a slot. -/
def recircMax (s : State) (slot : Nat) : Nat := u8 (fwdGlobals s slot) 4

/-- Ports a BRIDGE or ROUTE verdict sends to, before the member filter: by the forwarding database or by
flooding. -/
def bridgeTargets (s : State) (slot inPort : Nat) (v bs : List Byte) : Except Fld (List Nat × Bool) :=
  let fid := leAt v 0 2
  let da := slice bs 0 6
  let flood := fun (bit : Nat) => if bitAt (leAt v 2 2) bit then bitList (leAt v 8 8) 50 else []
  if beNat da / 16 = 0x0180C200000 then .ok ([], false)
  else match staticFor s slot fid da with
    | some b =>
      if bitAt (leAt b 10 2) 1 then .error (Reg.swFdbDiscards inPort)
      else match destOf s slot (leAt b 8 2) with
        | some t => .ok t
        | none => .error (Reg.swNoDest inPort)
    | none =>
      match learnedFor s fid da with
      | some (_, e) => .ok ([e.port], false)
      | none => .ok (flood (if isGroupMac da then 3 else 2), false)

/-- The destinations of a frame under a verdict; `vid` is the VID after the verdict. -/
def destinations (s : State) (slot inPort passes vid : Nat) (action bs : List Byte) : Fate :=
  if actVerdict action = 3 then
    if recircMax s slot ≤ passes then .drop Reg.swRecircLimitDrops else .recirc
  else
    let base : Except Fld (List Nat × Bool) :=
      if actVerdict action = 2 then
        match destOf s slot (leAt action 2 2) with
        | some t => .ok t
        | none => .error (Reg.swNoDest inPort)
      else match vlanOf s slot vid with
        | none => .ok ([], false)
        | some v => (bridgeTargets s slot inPort v bs).map fun t =>
            (t.1.filter fun p => bitAt (leAt v 8 8) p && p != inPort, t.2)
    match base with
    | .error f => .drop f
    | .ok t =>
      let set := t.1.filter (portPresent s)
      let copies := (actCopies action).filter (portPresent s)
      if set.isEmpty ∧ copies.isEmpty then .drop (Reg.swNoDest inPort) else .send set t.2 copies

/-! Policing (R182 to R185). -/

/-- The outcome of policing: passed with its colour and the flow gate's IPV, or dropped. -/
inductive Policed where
  | pass (yellow : Bool) (ipv : Option Nat)
  | drop
deriving DecidableEq, Repr

/-- The stream filter of a slot. -/
def filterRec (s : State) (slot f : Nat) : List Byte := (recOf s slot 0x0210 f).getD (zeros 4 ++ [0xFF, 0xFF, 0xFF, 0xFF] ++ zeros 8)

/-- A blocked filter stays blocked until UNBLOCK. -/
def blockFilter (s : State) (f : Nat) (b : List Byte) : State :=
  if bitAt (leAt b 0 2) 1 then put s (Reg.sfStateBlocked f) 1 else s

/-- The flow gate's part of policing: none where the frame is dropped, otherwise the gate's IPV. The list is the
current slot's (R184); whether a gate with no list there is open is left free. -/
def gatePolice (s : State) (g l : Nat) : Option (Option Nat) × State :=
  let s1 := flowSync s g
  let b := flowList s1 g
  if b.isEmpty then
    let d := draw s1 2
    ((if d.1 = 0 then none else some none), d.2)
  else
    let x := slice b (32 + 16 * (flowEntry s1 g).1) 16
    let oct := (s1.tm.octets.find g).getD 0
    if !(u8 x 0 == 1 && !flowSticky s1 g) then
      (none, if bitAt (leAt b 0 2) 1 then flowSync (put s1 (Reg.fgStateClosedInvalidRx g) 1) g else s1)
    else if leAt x 8 4 ≠ 0 ∧ leAt x 8 4 < oct + l then
      (none, if bitAt (leAt b 0 2) 2 then flowSync (put s1 (Reg.fgStateClosedOctets g) 1) g else s1)
    else
      (some (if u8 x 1 = 0xFF then none else some (u8 x 1)), { s1 with tm.octets := s1.tm.octets.set g (oct + l) })

/-- The meter's part of policing: its colour with the bucket charged. The parameters are the current slot's
(R184); the colour of a meter with no entry there is left free. -/
def meterPolice (s : State) (m l : Nat) (yellowIn : Bool) : Colour × Option Bool × State :=
  match recOf s (curSlot s) 0x0210 (2 ^ 24 + m) with
  | none =>
    let d := draw s 3
    ((if d.1 = 0 then .green else if d.1 = 1 then .yellow else .red), none, d.2)
  | some b =>
    let r := colourOf b (refill b (s.tm.meters.find m) s.time.now) yellowIn l
    (r.1, r.2.1, { s with tm.meters := s.tm.meters.set m r.2.2 })

/-- DROP_YELLOW of a meter. -/
def dropYellow (s : State) (m : Nat) : Bool :=
  match recOf s (curSlot s) 0x0210 (2 ^ 24 + m) with
  | some b => bitAt (leAt b 0 2) 3
  | none => false

/-- The filter a frame has passed and the bucket it was charged to noted, for its true length at the tail (R180, R182). -/
def noteCharge (s : State) (u : Nat) (passed : Option (Nat × List Byte)) (charged : Option (Nat × Bool)) : State :=
  match packetOf s u with
  | some pk => setPacket s u { pk with filter := passed, charged := charged }
  | none => s

/-- Policing of a frame of provisional length `l` under its filter (R182). [DEDUCED, log 66] -/
def police (s : State) (u slot f l : Nat) (yellowIn : Bool) : Policed × State :=
  if f = 0xFFFF then (.pass false none, s)
  else
    let b := filterRec s slot f
    let s1 := bump s (Reg.sfMatched f)
    let max := leAt b 2 2
    if flag s1 (Reg.sfStateBlocked f) then (.drop, bump s1 (Reg.sfDropsSduDrops f))
    else if max ≠ 0 ∧ max < l then (.drop, bump (blockFilter s1 f b) (Reg.sfDropsSduDrops f))
    else
      let g := leAt b 6 2
      let (ok, s2) := if g = 0xFFFF then (some none, s1) else gatePolice s1 g l
      match ok with
      | none => (.drop, bump s2 (Reg.sfDropsGateDrops f))
      | some ipv =>
        let m := leAt b 4 2
        if m = 0xFFFF then (.pass false ipv, noteCharge (bump s2 (Reg.sfPassed f)) u (some (f, b)) none)
        else
          let r := meterPolice s2 m l yellowIn
          let charged := r.2.1.map fun c => (m, c)
          let lost := r.1 == .red || (r.1 == .yellow && dropYellow r.2.2 m)
          let s3 := noteCharge r.2.2 u (if lost then none else some (f, b)) charged
          match r.1 with
          | .red => (.drop, bump s3 (Reg.fmRed m))
          | .yellow =>
            if lost then (.drop, bump s3 (Reg.fmYellowDrops m))
            else (.pass true ipv, bump (bump s3 (Reg.fmYellow m)) (Reg.sfPassed f))
          | .green => (.pass false ipv, bump (bump s3 (Reg.fmGreen m)) (Reg.sfPassed f))

/-! Leaf choice (R178). -/

/-- The leaf of a replica: `leaf` 0xFF asks for the priority mapping. -/
def leafOf (s : State) (slot p : Nat) (mgmt : Bool) (leaf pr : Nat) : Nat :=
  if mgmt then 63
  else
    let q := if leaf = 0xFF then u8 (tmPortRec s slot p) (12 + pr % 8) else leaf
    if q = 63 then 62 else q

/-! WRED (R118). -/

/-- The WRED profile of a leaf in a slot; all zero without an entry. -/
def wredOf (s : State) (slot p q : Nat) : List Byte :=
  let m := u8 (fwdPort s slot p) (16 + q / 2)
  (recOf s slot 0x0100 (4 * 2 ^ 24 + if q % 2 = 0 then m % 16 else m / 16)).getD (zeros 16)

/-- Average occupancy of a leaf, with 8 fractional bits. -/
def avgOf (s : State) (p q : Nat) : Nat := (s.net.avg.find (64 * p + q)).getD 0

/-- The average moved towards the leaf's occupancy, the difference divided with its fraction rounded down.
[DEDUCED, log 68] -/
def avgStep (s : State) (slot p q : Nat) : State :=
  let a : Int := avgOf s p q
  let o : Int := 256 * leafCells s p q
  let w := u8 (wredOf s slot p q) 10
  { s with net.avg := s.net.avg.set (64 * p + q) (a + (o - a) / (2 ^ w : Int)).toNat }

/-- Averages of every leaf at a tempo boundary, by the slot current after its commit. [DEDUCED, log 68] -/
def avgBoundary (s : State) : State :=
  (s.net.avg.map fun e => e.1).foldl (fun st k => avgStep st (curSlot st) (k / 64) (k % 64)) s

/-- Does WRED drop a replica of a colour? The 16-bit draw is a free value. P50 and P51, which have no port entry, have no
profile either. [DEDUCED, log 68] -/
def wredDrops (s : State) (slot p q : Nat) (yellow : Bool) : Bool × State :=
  let b := wredOf s slot p q
  let lo := if yellow then leAt b 6 2 else leAt b 0 2
  let hi := if yellow then leAt b 8 2 else leAt b 2 2
  let pm := if yellow then u8 b 5 else u8 b 4
  let a := avgOf s p q
  if 50 ≤ p ∨ hi = 0 ∨ a < 256 * lo then (false, s)
  else if 256 * hi ≤ a then (true, s)
  else
    let d := draw s 65536
    (decide (d.1 * (hi - lo) < pm * (a - 256 * lo)), d.2)

/-! A frame as it leaves (R107, R191). -/

/-- Does a frame leave a port untagged: is the port in the UNTAG bitmap of its VLAN? -/
def leavesUntagged (s : State) (slot p : Nat) (pk : Packet) : Bool :=
  match vlanOf s slot pk.vid with
  | some v => bitAt (leAt v 16 8) p
  | none => false

/-- The bytes that leave a port: the C-tag removed, written or inserted, and padded to the least size. -/
def egressBytes (s : State) (p : Nat) (pk : Packet) : List Byte :=
  let slot := pk.slot.getD (curSlot s)
  let body := if etypeAt pk.bytes 12 = 0x8100 then pk.bytes.drop 16 else pk.bytes.drop 12
  let tag := if leavesUntagged s slot p pk then [] else beBytes 2 0x8100 ++ beBytes 2 (pk.prio % 8 * 8192 + pk.vid % 4096)
  let own := if pk.ownMac ∧ p < 48 then slice (portEntry (slotView s (curSlot s)) p) 8 6 else slice pk.bytes 6 6
  let f := pk.bytes.take 6 ++ own ++ tag ++ body
  f ++ zeros (60 - f.length)

/-- Is the length of a frame known? -/
def lengthKnown (pk : Packet) : Bool := pk.tail != 0 || pk.whole || decide (48 ≤ pk.port) || pk.passes != 0

/-- Wire length of a frame on a port: its length as transmitted, by its provisional length before its tail, and
OVH. -/
def wireLen (s : State) (p : Nat) (pk : Packet) : Nat :=
  let slot := pk.slot.getD (curSlot s)
  let bs := egressBytes s p pk
  let sec := txOverhead s slot p pk.bytes
  if lengthKnown pk then bs.length + 4 + sec + ovhOf s p
  else pk.prov + bs.length - pk.bytes.length + sec + ovhOf s p

/-! Tags of weighted fair queueing (R187). -/

/-- The head of a leaf. -/
def headOf (s : State) (p q : Nat) : Option Replica := (queueOf s p q).head?

/-- The frame of a replica. -/
def repPacket (s : State) (r : Replica) : Option Packet := packetOf s r.uid

/-- Virtual time of a service node. -/
def vtimeOf (s : State) (p node : Nat) : Nat := (s.tm.vtime.find (8 * p + node)).getD 0

/-- How far a tag lies ahead of a virtual time, both of 64 bits (R187). [DEDUCED, log 132] -/
def tagAhead (v x : Nat) : Nat := (x + 2 ^ 64 - v) % 2 ^ 64

/-- The later of a virtual time and a tag: tags wrap at 64 bits, and one in the half behind it lies in the past.
[DEDUCED, log 132] -/
def laterTag (v x : Nat) : Nat := if tagAhead v x < 2 ^ 63 then x else v

/-- The head of an eligible leaf gets its finish tag, once: when it becomes eligible (R187). -/
def tagHead (p q : Nat) (s : State) : State :=
  match queueOf s p q with
  | [] => s
  | r :: rs =>
    if q = 63 ∨ r.ftag.isSome ∨ !leafEligible s p q then s
    else
      let l := ((repPacket s r).map fun pk => wireLen s p pk).getD 0
      let w := max 1 (u8 (tmLeafRec s (curSlot s) p q) 1)
      let st := laterTag (vtimeOf s p (leafNode s p q)) ((s.tm.fprev.find (64 * p + q)).getD 0)
      setQueue s p q ({ r with ftag := some ((st + l * 65536 / w) % 2 ^ 64) } :: rs)

/-- The heads of a port's leaves tagged. -/
def tagHeads (s : State) (p : Nat) : State := forIdx 64 (tagHead p) s

/-- The heads of every leaf with a queue tagged: where frames have left their queues otherwise than by selection, and
before a commit changes what they are tagged by. -/
def tagAll (s : State) : State :=
  (s.net.queues.map fun e => e.1).foldl (fun st k => tagHead (k / 64) (k % 64) st) s

/-- TIMING_WHEEL_FIRE: an entry fires, and the head of a leaf that is eligible again is tagged. [DEDUCED, log 71] -/
def timingWheelFire (s : State) (t : WheelTarget) : State :=
  match t with
  | .leaf p q => tagHead p q (wheelFire s t)
  | .port _ => wheelFire s t

/-! Admission (R115, R116, R119). -/

/-- How admission judges a replica: the pool that takes it, or the counter of its refusal. -/
inductive Judged where
  | pool (n : Nat)
  | refuse (f : Fld)
deriving DecidableEq, Repr

/-- ALPHA of a port; P50 and P51, which have no port entry, take its reset value. [DEDUCED, log 68] -/
def alphaOf (s : State) (slot p : Nat) : Nat := if p < 50 then u8 (fwdPort s slot p) 5 else 4

/-- Cells of the shared pool charged to a leaf, to the P51 queue or to the frames waiting at P50. -/
def sharedAt (s : State) (p q : Nat) : Nat :=
  let held := fun (l : List Nat) =>
    (l.map fun u => match packetOf s u with
      | some pk => if pk.pool = 3 then pk.cells else 0
      | none => 0).sum
  if p = 51 then held s.net.recirc else if p = 50 then held s.edge.tunnelIn else leafShared s p q

/-- One replica judged against the pools as they stand. -/
def judge (s : State) (slot p q n : Nat) (mgmt one yellow : Bool) : Judged × State :=
  if mgmt then (if n ≤ mgmtFree s then (.pool 1, s) else (.refuse (Reg.swMgmtDrops p), s))
  else
    let w := wredDrops s slot p q yellow
    if w.1 then (.refuse (Reg.swWredDrops p), w.2)
    else if one ∧ guarUsed s p + n ≤ guarOf s slot p then (.pool 2, w.2)
    else if 16 * (sharedAt s p q + n) ≤ 2 ^ alphaOf s slot p * sharedFree s ∧ n ≤ sharedFree s then (.pool 3, w.2)
    else (.refuse (Reg.swAdmitDrops p), w.2)

/-- Several replicas judged in order, against one set of pool and average values. -/
def judgeAll (s : State) (slot n : Nat) (mgmt one yellow : Bool) :
    List (Nat × Nat) → List ((Nat × Nat) × Judged) × State
  | [] => ([], s)
  | (p, q) :: r =>
    let j := judge s slot p q n mgmt one yellow
    let rest := judgeAll j.2 slot n mgmt one yellow r
    (((p, q), j.1) :: rest.1, rest.2)

/-- May a replica cut through (R121)? -/
def cutsThrough (s : State) (slot : Nat) (pk : Packet) (p : Nat) (atomic : Bool) : Bool :=
  pk.port < 48 && p < 48 && bitAt (u8 (fwdPort s slot pk.port) 1) 4 && bitAt (u8 (fwdPort s slot p) 1) 4 &&
  decide (portMbps s p ≤ portMbps s pk.port) && cmtOf s slot (Reg.macsecCfgRxEn pk.port) == 0 &&
  !pk.preempt && pk.passes == 0 && !atomic

/-- A replica queued on its leaf, or discarded at once on a port that is not UP (R88). -/
def enqueue (s : State) (slot u p q : Nat) (ct atomic shared : Bool) : State :=
  let r : Replica := ⟨u, ct, atomic, shared, none⟩
  if !portUp s p then linkDownDrop s p r
  else tagHead p q (portIfNegative (wheelIfNegative (avgStep (setQueue s p q (queueOf s p q ++ [r])) slot p q) p q) p)

/-- A frame with the pool, cells and replicas it was admitted with. -/
def admitted (s : State) (u pool port n refs : Nat) : State :=
  match packetOf s u with
  | some pk => setPacket s u { pk with pool := pool, poolPort := port, cells := n, refs := refs }
  | none => s

/-- The replicas of a frame admitted and queued; a frame none of whose replicas is admitted is dropped. With
`atomic`, one failing target fails all: refused by R116, not UP, or in `blocked` (R119). Replicas are pairs
of port and leaf. [DEDUCED, log 65] -/
def admitReplicas (s : State) (u : Nat) (pk : Packet) (n : Nat) (yellow atomic : Bool) (blocked : List Nat)
    (targets copies : List (Nat × Nat)) : State :=
  let slot := pk.slot.getD (curSlot s)
  let one := targets.length + copies.length == 1
  let (jt, s1) := judgeAll s slot n pk.mgmt one yellow targets
  let refused := fun (j : Judged) => match j with
    | .pool _ => false
    | .refuse _ => true
  let bad := if atomic then jt.filter fun j => refused j.2 || blocked.contains j.1.1 || !portUp s1 j.1.1 else []
  let s2 := if bad.isEmpty then s1
    else bad.foldl (fun st j => bump st (Reg.swAtomicRefused j.1.1)) (bump s1 Reg.swAtomicAborts)
  let (jc, s3) := judgeAll s2 slot n pk.mgmt one yellow copies
  let all := (if bad.isEmpty then jt.map fun j => (j, atomic) else []) ++ jc.map fun j => (j, false)
  let s4 := all.foldl (fun st j => match j.1.2 with
    | .refuse f => bump st f
    | .pool _ => st) s3
  let adm := all.filterMap fun j => match j.1.2 with
    | .pool k => some (j.1.1, k, j.2)
    | .refuse _ => none
  match adm with
  | [] => dropPolicy s4 u
  | ((p0, _), k0, _) :: _ =>
    let s5 := admitted (takeCells s4 k0 p0 n) u k0 p0 n adm.length
    adm.foldl (fun st a => enqueue st slot u a.1.1 a.1.2 (cutsThrough st slot pk a.1.1 atomic) a.2.2 (a.2.1 == 3)) s5

/-- A frame taken into a single queue that is not a leaf: P51, or P50 for a tunnel frame. -/
def admitOne (s : State) (u : Nat) (pk : Packet) (p n : Nat) : Option State :=
  match (judge s (pk.slot.getD (curSlot s)) p 0 n pk.mgmt true false).1 with
  | .pool k => some (admitted (takeCells s k p n) u k p n 1)
  | .refuse _ => none

/-- The counter of a frame that P50 or P51 refuses. -/
def refusedAt (pk : Packet) (p : Nat) : Fld := if pk.mgmt then Reg.swMgmtDrops p else Reg.swAdmitDrops p

/-! Meanings. -/

/-- TIMING_WHEEL_FIRE. -/
def execTimingWheelFire (t : WheelTarget) (s : State) : Host.Outcome State Fault Refusal := .next (timingWheelFire s t)

/-- FDB_FLUSH. -/
def execFdbFlush (m : Master) (w : Word) (s : State) : Host.Outcome State Fault Refusal :=
  .next (accessWrite s m 0x500010 fun t => fdbFlush t w.toNat)

/-- FDB_FLUSH_DONE. -/
def execFdbFlushDone (s : State) : Host.Outcome State Fault Refusal := .next (put s Reg.fdbStatusFlushBusy 0)

/-- FDB_AGEING. -/
def execFdbAgeing (i : Fin 32768) (s : State) : Host.Outcome State Fault Refusal := .next (fdbAgeing s i)

/-- FDB_ACC_READ. -/
def execFdbAccRead (m : Master) (w : Word) (s : State) : Host.Outcome State Fault Refusal :=
  .next (accessWrite s m 0x500040 fun t => fdbAccCtl t m w.toNat)

end Sys2Proof.Machine
end

