-- ==== Sys2Proof/Machine/EdgeTx.lean ====
section
/-!
DEFINITION. Transmission in the edge complex (chapter 9): gateway routes (R228 to R231), transmit queues (R232 to
R234), SecOC generation (R237), the tethered packers (R225) and the local CAN engines (R213 to R216).
-/
namespace Sys2Proof.Machine

/-! Arbitration order (R209). -/

/-- ORDER of a message. -/
def orderOf (m : BusMsg) : Nat :=
  if m.format = .lin then m.id
  else if m.ext then m.id / 2 ^ 18 * 2 ^ 19 + 2 ^ 18 + m.id % 2 ^ 18
  else m.id * 2 ^ 19 + 2 ^ 18 - 1

/-- Does a message stand before another in a queue: by ORDER and, within one ORDER, by decision (R232)? One that returns to
the queue (`first`) stands before those of its own instant. [DEDUCED, log 85] -/
def goesBefore (q x : QMsg) (first : Bool) : Bool :=
  orderOf q.msg < orderOf x.msg ||
    (orderOf q.msg == orderOf x.msg && (q.decidedAt < x.decidedAt || (first && q.decidedAt == x.decidedAt)))

/-- A message put before the first of a list that it stands before. [DEDUCED, log 67] -/
def insertOrder (q : QMsg) (first : Bool) : List QMsg → List QMsg
  | [] => [q]
  | x :: xs =>
    if goesBefore q x first then q :: x :: xs
    else x :: insertOrder q first xs

/-! Transmit queues (R232, R233). -/

/-- A channel's transmit queue. -/
def txqOf (s : State) (n : Nat) : List QMsg := (s.edge.txq.find n).getD []

/-- A list of messages as a channel holds it: none where it is empty. -/
def heldList (l : List QMsg) : Option (List QMsg) := if l.isEmpty then none else some l

/-- Messages that waited beside a full queue return to their places in it as it has room, in the order given: those that
still wait, and the queue. [DEDUCED, log 84] -/
def returnTo : List QMsg → List QMsg → List QMsg × List QMsg
  | [], l => ([], l)
  | q :: qs, l => if l.length < 64 then returnTo qs (insertOrder q true l) else (q :: qs, l)

/-- Messages that could not return to their queue, which was full (R214). [DEDUCED, log 84] -/
def againOf (s : State) (n : Nat) : List QMsg := (s.edge.again.find n).getD []

/-- The list of messages beside a full queue set. -/
def setAgain (s : State) (n : Nat) (l : List QMsg) : State := { s with edge.again := s.edge.again.put n (heldList l) }

/-- A channel's transmit queue set; what waited beside it enters it if there is room. -/
def setTxq (s : State) (n : Nat) (l : List QMsg) : State :=
  let r := returnTo (againOf s n) l
  showDepths (setAgain { s with edge.txq := s.edge.txq.put n (heldList r.2) } n r.1) n

/-- A message leaves the queue of its channel, or its place beside it. [DEDUCED, log 84] -/
def takeMsg (s : State) (n : Nat) (q : QMsg) : State :=
  if (againOf s n).contains q then setAgain s n ((againOf s n).erase q) else setTxq s n ((txqOf s n).erase q)

/-- A message that has left its queue returns its cells and its in-flight count (R75). -/
def releaseMsg (s : State) (q : QMsg) : State := untagUnit (giveEdge s q.guar q.cells) q.slot

/-- A queued message is discarded, and counted. -/
def dropQueued (s : State) (n : Nat) (q : QMsg) (f : Fld) : State := releaseMsg (bump (takeMsg s n q) f) q

/-- A message offered that was not sent returns to its place in the queue; it is kept beside it while the queue is full
(R214). [DEDUCED, log 84] -/
def putBack (s : State) (n : Nat) (q : QMsg) : State :=
  if (txqOf s n).length < 64 then setTxq s n (insertOrder q true (txqOf s n)) else setAgain s n (q :: againOf s n)

/-- The messages of a queue that may be offered: not one whose secured PDU is still being made, nor one of the same
ORDER behind it, so that decision order is kept (R210, R232). [DEDUCED, log 90] -/
def offerable (held : List Nat) : List QMsg → List QMsg
  | [] => []
  | q :: qs =>
    if q.made.isSome then offerable (orderOf q.msg :: held) qs
    else if held.contains (orderOf q.msg) then offerable held qs
    else q :: offerable held qs

/-- The message a new one replaces, queued or beside the full queue: same identifier, same route. -/
def replaces (s : State) (n : Nat) (q : QMsg) : Option QMsg :=
  (againOf s n ++ txqOf s n).find? fun x => x.route == q.route && x.msg.id == q.msg.id && x.msg.ext == q.msg.ext

/-- A message takes the place of another. -/
def putInPlace (s : State) (n : Nat) (x y : QMsg) : State :=
  let swap := fun (z : QMsg) => if z = x then y else z
  if (againOf s n).contains x then setAgain s n ((againOf s n).map swap) else setTxq s n ((txqOf s n).map swap)

/-- An output message enters a channel's transmit queue (R232). Its cells are taken before those of a message it
replaces or evicts return. -/
def enterQueue (s : State) (n : Nat) (q : QMsg) (replace : Bool) : State :=
  let l := txqOf s n
  let old := if replace then replaces s n q else none
  let top := (l.map fun x => orderOf x.msg).foldl max 0
  if old.isNone ∧ 64 ≤ l.length ∧ top ≤ orderOf q.msg then bump s (Reg.chQueueDrops n)
  else
    let k := edgeCells q.msg.payload.length
    match takeEdge s k with
    | none => bump s (Reg.swAdmitDrops 50)
    | some (g, s1) =>
      let y := { q with cells := k, guar := g }
      let s2 := tagUnit s1 q.slot
      match old with
      | some x => releaseMsg (bump (putInPlace s2 n x y) (Reg.chQueueReplaced n)) x
      | none =>
        match (if 64 ≤ l.length then findLast? (fun z => orderOf z.msg == top) l else none) with
        | some z => releaseMsg (bump (setTxq s2 n (insertOrder y false (l.erase z))) (Reg.chQueueQueueEvict n)) z
        | none => setTxq s2 n (insertOrder y false l)

/-- TX_TIMEOUT of a message on a channel in ns; 0 is none (R234). -/
def txLimit (s : State) (n : Nat) (q : QMsg) : Nat := leAt (chanPolicy s q.slot n) 10 2 * 1000000

/-- TX_TIMEOUT: every queued message, or one kept to be offered again, older than its limit is discarded.
[DEDUCED, log 85] -/
def txTimeout (s : State) (n : Nat) : State :=
  (againOf s n ++ txqOf s n).foldl (fun st q =>
    let lim := txLimit st n q
    if lim ≠ 0 ∧ q.decidedAt + lim < st.time.now then
      chEvent (dropQueued st n q (Reg.chTxTimeoutDrops n)) n (Reg.chEventsTxTimeout n)
    else st) s

/-! ACF messages and AVTP frames (R222, R223, R225). -/

/-- Zero bytes that bring a length to a multiple of 4. -/
def padTo4 (n : Nat) : Nat := (4 - n % 4) % 4

/-- The ACF message of a message on a bus number. [PRESUMED, log 82] -/
def acfPack (m : BusMsg) (stamp bus : Nat) (brief : Bool) : List Byte :=
  let d := m.payload
  match m.format with
  | .xl =>
    let pad := padTo4 d.length
    let quads := (24 + d.length + pad) / 4
    beBytes 2 (0x7E * 512 + if quads ≤ 511 then quads else 0) ++ beBytes 1 (pad * 64 + 32 + bus) ++
      beBytes 1 (128 * b2n m.sec) ++ beBytes 2 quads ++ zeros 2 ++ beBytes 8 stamp ++ beBytes 2 (m.id % 2048) ++
      beBytes 1 m.sdt ++ beBytes 1 m.vcid ++ beBytes 4 m.af ++ d ++ zeros pad
  | .lin =>
    let pad := padTo4 d.length
    beBytes 2 (0x03 * 512 + (12 + d.length + pad) / 4) ++ beBytes 1 (pad * 64 + 32 + bus) ++ beBytes 1 (m.id % 64) ++
      beBytes 8 stamp ++ d ++ zeros pad
  | _ =>
    let pad := padTo4 d.length
    let head := if brief then 8 else 16
    let fl := 16 * b2n m.rtr + 8 * b2n m.ext + 4 * b2n m.brs + 2 * b2n (m.format == .fd) + b2n m.esi
    beBytes 2 ((if brief then 0x02 else 0x01) * 512 + (head + d.length + pad) / 4) ++
      beBytes 1 (pad * 64 + (if brief then 0 else 32) + fl) ++ beBytes 1 bus ++
      (if brief then [] else beBytes 8 stamp) ++ beBytes 4 (m.id % 2 ^ 29) ++ d ++ zeros pad

/-- An AVTP frame of ACF messages without its VLAN tag, which the egress port inserts (R107).
[PRESUMED, log 82; DEDUCED, log 83] -/
def avtpFrame (dmac smac : List Byte) (tscf : Bool) (stream : List Byte) (seq : Nat) (acf : List Byte) : List Byte :=
  let n := acf.length
  let head := if tscf then
      beBytes 1 0x05 ++ beBytes 1 0x80 ++ beBytes 1 seq ++ zeros 1 ++ stream ++ zeros 8 ++ beBytes 2 n ++ zeros 2
    else beBytes 1 0x82 ++ beBytes 1 (0x80 + n / 256 % 8) ++ beBytes 1 n ++ beBytes 1 seq ++ stream
  let f := dmac ++ smac ++ beBytes 2 0x22F0 ++ head ++ acf
  f ++ zeros (60 - f.length)

/-- MAC_ADDR of an external port; the manual gives P48 and P49 none, and it is left free. [DESIGN CHOICE, log 89] -/
def macOf (s : State) (p : Nat) : List Byte × State :=
  if p < 48 then (slice (portEntry (edges s) p) 8 6, s)
  else
    let d := draw s (2 ^ 48)
    (beBytes 6 d.1, d.2)

/-- A frame the edge complex has built: whole, at port 50, under the slot of its messages. -/
def edgePacket (s : State) (bytes : List Byte) (slot vid prio : Nat) (safety : Bool) (bind : Option Nat) : Packet :=
  { bytes := bytes, rxLen := bytes.length + 4, popped := 0, dei := false, port := 50, slot := some slot,
    stamp := s.time.now, written := bytes.length, tail := 1, come := true, sec := none, ends := none, hold := none, whole := true, preempt := false, directed := none, mgmtReq := false, tsReq := false, passes := 0,
    decided := true, decidedAt := s.time.now, safety := safety, mgmt := false, marked := false, fixed := false, tunnel := bind, vid := vid, prio := prio,
    prov := bytes.length + 4, filter := none, charged := none, pool := 0, poolPort := 0, cells := 0,
    refs := 0, sent := false, slotCounted := false, route := none, routeOff := 0, needEnd := 0, avtpEnd := 0,
    ownMac := bind.isNone, dropped := false }

/-- A frame of the edge complex admitted to its target ports on one leaf (R179, R231): targets that containment
refuses are counted, and fail an atomic group as a whole. -/
def admitEdgeFrame (s : State) (pk : Packet) (ports : List Nat) (atomic : Bool) (leaf : Nat) : State :=
  let u := s.net.nextUid
  let slot := pk.slot.getD (curSlot s)
  let s1 := setPacket { tagUnit s slot with net.nextUid := u + 1 } u pk
  let set := ports.filter (portPresent s1)
  let safe := pk.safety || pk.tunnel.isSome
  let blocked := set.filter fun p => !admitsPort s1 p safe false
  let s2 := if atomic then s1 else blocked.foldl (fun st p => bump st (Reg.contOutDrops p)) s1
  let go := if atomic then set else set.filter fun p => !blocked.contains p
  if set.isEmpty then freePacket (bump s2 (Reg.swNoDest 50)) u
  else admitReplicas s2 u pk (cellsFor (frameLen pk)) false atomic blocked (go.map fun p => (p, leaf)) []

/-! Translation (R229). -/

/-- A route entry of a slot. -/
def routeRec (s : State) (slot r : Nat) : Option (List Byte) :=
  match recOf s slot 0x0300 (2 ^ 24 + r) with
  | some b => if bitAt (leAt b 0 2) 0 then some b else none
  | none => none

/-- The format of an output; none where an Ethernet unit has no format to keep. -/
def fmtOut (r : List Byte) (keep : Option EdgeFormat) : Option EdgeFormat :=
  match u8 r 3 with
  | 1 => some .cc
  | 2 => some .fd
  | 3 => some .xl
  | 4 => some .lin
  | _ => keep

/-- A message in its output format: converting to XL takes the route's header fields, converting from XL drops
them. -/
def toFormat (r : List Byte) (m : BusMsg) (f : EdgeFormat) : BusMsg :=
  if f = .xl then
    if m.format = .xl then m
    else { m with format := .xl, sdt := u8 r 48, vcid := u8 r 49, af := leAt r 52 4, sec := false }
  else { m with format := f, sdt := 0, vcid := 0, af := 0, sec := false }

/-- The output message a route builds from an edge message, before it is secured. -/
def translate (r : List Byte) (m : BusMsg) : BusMsg :=
  let out := leAt r 4 4
  let mask := leAt r 8 4
  let m1 := match u8 r 2 with
    | 1 => { m with id := out % 2 ^ 29, ext := bitAt out 29 }
    | 2 => { m with id := (m.id - (m.id &&& mask)) ||| (out &&& mask) }
    | _ => m
  toFormat r m1 ((fmtOut r (some m.format)).getD m.format)

/-- The message a route builds from bytes of an Ethernet unit (R230). -/
def fromBytes (r : List Byte) (bs : List Byte) : Option BusMsg :=
  let out := leAt r 4 4
  (fmtOut r none).map fun f =>
    toFormat r ⟨if f = .xl then .cc else f, out % 2 ^ 29, bitAt out 29, false, false, false, 0, 0, 0, false, bs⟩ f

/-- A payload padded to the next legal FD length. [DESIGN CHOICE, log 89] -/
def padFd (d : List Byte) : List Byte :=
  match fdLens.find? fun n => d.length ≤ n with
  | some n => d ++ zeros (n - d.length)
  | none => d

/-- Can a target channel not carry an output (R229)? -/
def convertFails (s : State) (n : Nat) (m : BusMsg) : Bool :=
  let k := m.payload.length
  (match m.format with
   | .cc => decide (8 < k)
   | .lin => decide (8 < k)
   | .fd => decide (64 < k) || !chanFlag s n 0
   | .xl => k == 0 || decide (2048 < k) || !chanFlag s n 1) ||
  (m.rtr && m.format != .cc) || ((m.format == .lin) != ((edges s).chanKind n == 2))

/-- An output as it enters a channel: an FD message is padded, and has BRS by the target's DATA_RATE. -/
def outFor (s : State) (n : Nat) (m : BusMsg) : BusMsg :=
  if m.format = .fd then { m with payload := padFd m.payload, brs := dataRate s n != 0 } else { m with brs := false }

/-! Packing (R225 to R227). -/

/-- Most ACF bytes of a frame of a binding (R226). -/
def acfLimit (b : List Byte) : Nat := if bitAt (leAt b 0 2) 1 then leAt b 30 2 else min (leAt b 30 2) 2047

/-- The head with the lowest ORDER across the channels of a binding: its channel and message. [DESIGN CHOICE, log 88] -/
def bindHead (s : State) (b : Nat) : Option (Nat × QMsg) :=
  minBy (fun e => orderOf e.2.msg)
    (((edges s).bindChans b).filterMap fun n => ((offerable [] (txqOf s n)).head?).map fun q => (n, q))

/-- A frame being packed is closed: it takes the binding's next sequence_num and waits for a slot. [DEDUCED, log 87] -/
def closePacker (s : State) (b : Nat) : State :=
  match s.edge.packers.find b with
  | none => s
  | some p =>
    let seq := get s (Reg.bindSeqTxSeq b)
    let s1 := { s with
      edge.packers := s.edge.packers.del b
      edge.packed := s.edge.packed.set b ((s.edge.packed.find b).getD [] ++ [(p, seq)]) }
    put s1 (Reg.bindSeqTxSeq b) (seq + 1)

/-- Messages taken in ORDER into a binding's frame, opened by the first, for as long as it has room and they are
of its epoch (R225); the containment check applies as each is taken (R167). A frame that closes ends the
taking. -/
def packLoop (b : Nat) : Nat → State → State
  | 0, s => s
  | fuel + 1, s =>
    let e := bindEntry (edges s) b
    match bindHead s b with
    | none => s
    | some (n, q) =>
      let a := acfPack q.msg q.stamp (u8 (chanEntry (edges s) n) 15) (bitAt (leAt e 0 2) 2)
      if acfLimit e < a.length then packLoop b fuel (dropQueued s n q (Reg.chConvertConvertDrops n))
      else if !admitsTarget s n q.safety then packLoop b fuel (dropQueued s n q (Reg.contChanDrops n))
      else
        let take := fun (st : State) (p : Packer) =>
          dropQueued { st with edge.packers := st.edge.packers.set b { p with acf := p.acf ++ a } } n q (Reg.chTxFrames n)
        match s.edge.packers.find b with
        | none => packLoop b fuel (take (tagUnit s q.slot) ⟨s.time.now, q.slot, []⟩)
        | some p =>
          if p.slot ≠ q.slot ∨ acfLimit e < p.acf.length + a.length then closePacker s b
          else packLoop b fuel (take s p)

/-- Do the packers run: forwarding, and not in LINKS or later of a descent (R281)? -/
def packersRun (s : State) : Bool := aloft s && decide (descentPhase s < 3)

/-- Messages queued on the channels of a binding. -/
def bindDepth (s : State) (b : Nat) : Nat := (((edges s).bindChans b).map fun n => (txqOf s n).length).sum

/-- What may be taken into a frame of a binding is taken. -/
def packMore (s : State) (b : Nat) : State := if packersRun s then packLoop b (bindDepth s b + 1) s else s

/-- PACKER_OPEN: a free packer with an eligible message. -/
def packerOpen (s : State) (b : Nat) : State := if s.edge.packers.has b then s else packMore s b

/-- PACK_WAIT_EXPIRY. -/
def packWaitExpiry (s : State) (b : Nat) : State :=
  let s1 := packMore s b
  match s1.edge.packers.find b with
  | some p => if p.openedAt + u8 (bindEntry (edges s) b) 7 * 1000 ≤ s1.time.now then closePacker s1 b else s1
  | none => s1

/-- A message entered the queue of a tethered channel: a frame being packed takes it if it may. -/
def afterEnter (s : State) (n : Nat) : State :=
  let b := u8 (chanEntry (edges s) n) 14
  if 24 ≤ n ∧ s.edge.packers.has b then packMore s b else s

/-! Outputs (R229, R231, R237). -/

/-- One target channel of an output: conversion, containment, queue. -/
def targetOut (s : State) (n : Nat) (q : QMsg) (replace : Bool) : State :=
  if convertFails s n q.msg then bump s (Reg.chConvertConvertDrops n)
  else if !admitsTarget s n q.safety then bump s (Reg.contChanDrops n)
  else afterEnter (enterQueue s n { q with msg := outFor s n q.msg } replace) n

/-- ETH_OUT: the output leaves as an Ethernet frame too (R231). A group's frame has the address of its lowest
external port. [DESIGN CHOICE, log 89] -/
def ethOut (s : State) (r : List Byte) (q : QMsg) : State :=
  let m := if q.msg.format = .fd then { q.msg with payload := padFd q.msg.payload } else q.msg
  let a := acfPack m q.stamp 0 false
  let group := bitAt (leAt r 0 2) 3
  let dest := match destOf s q.slot (leAt r 26 2 % 32768 + if group then 32768 else 0) with
    | some t => t
    | none => ([], false)
  let x := macOf s (((dest.1.filter (· < 48)).head?).getD (dest.1.head?.getD 48))
  let seq := (x.2.edge.ethSeq.find q.route).getD 0
  let s1 := { x.2 with edge.ethSeq := x.2.edge.ethSeq.set q.route ((seq + 1) % 256) }
  let f := avtpFrame (slice r 32 6) x.1 (decide (2047 < a.length)) (slice r 40 8).reverse seq a
  admitEdgeFrame s1 (edgePacket s1 f q.slot (leAt r 28 2) (u8 r 30) q.safety none) dest.1 dest.2 (u8 r 31)

/-- The Ethernet target of an output's route, where it has one. -/
def deliverEth (s : State) (r : List Byte) (q : QMsg) : State := if bitAt (leAt r 0 2) 2 then ethOut s r q else s

/-- An output entering the queues of the channels of its route. -/
def deliverChans (s : State) (r : List Byte) (q : QMsg) (targets : List Nat) : State :=
  targets.foldl (fun st n => targetOut st n q (bitAt (leAt r 0 2) 1)) s

/-- A counter of every target raised. -/
def countTargets (s : State) (targets : List Nat) (f : Nat → Fld) : State := targets.foldl (fun st n => bump st (f n)) s

/-- The targets of a route, but for the source channel. -/
def routeTargets (r : List Byte) (source : Option Nat) : List Nat :=
  ((List.range 4).map fun i => leAt r (12 + 2 * i) 2).filter fun n => n != 0xFFFF && some n != source

/-- FV of a generate entry reaches FV_MAX (R237): blocked, with its event, at once. -/
def fvExhausted (s : State) (e : Nat) : State :=
  secEvent (put { s with edge.blocked := e :: s.edge.blocked } Reg.secLastBlocked e) Reg.secEventsFvExhausted

/-- The secured PDU (R235). -/
def securedPdu (s : State) (b : List Byte) (auth : List Byte) (fv : Nat) : List Byte :=
  auth ++ beBytes (u8 b 14 / 8) fv ++ secocMac s b auth fv

/-- The room a secured PDU takes in its queue while it is made: its length, with no MAC yet. -/
def unmadePdu (b : List Byte) (auth : List Byte) (fv : Nat) : List Byte :=
  auth ++ beBytes (u8 b 14 / 8) fv ++ zeros (u8 b 15 / 8)

/-- The output of a route: delivered, or submitted to be secured (R237). The freshness value is consumed at the
submission, whether the key serves or not. An output to be secured enters its transmit queues at its decision like any
other (R232), and its Ethernet frame leaves when it is made. [DEDUCED, log 90] -/
def emitOut (s : State) (r : List Byte) (q : QMsg) (source : Option Nat) : State :=
  let ts := routeTargets r source
  let e := leAt r 20 2
  if e = 0xFFFF then deliverChans (deliverEth s r q) r q ts
  else
    let b := (recOf s q.slot 0x0310 e).getD (zeros 48)
    let fv := fvOf s e
    if leAt b 0 2 % 4 ≠ 3 then countTargets s ts Reg.chSecSecKeyDrops
    else if q.msg.payload.length ≠ leAt b 12 2 then countTargets s ts Reg.chSecSecLenDrops
    else if s.edge.blocked.contains e ∨ leAt b 16 8 ≤ fv then countTargets s ts Reg.chSecFmtSecBlocked
    else
      let s1 := { s with edge.fv := s.edge.fv.set e (fv + 1) }
      let s2 := if fv + 1 = leAt b 16 8 then fvExhausted s1 e else s1
      if ecCheck s b 0 ≠ 0 then countTargets (countDenied s2 (ecCheck s b 0)) ts Reg.chSecSecKeyDrops
      else
        let s3 := tagUnit { s2 with edge.secJobs := s2.edge.secJobs ++ [⟨e, fv + 1, genOf s (leAt b 4 2), q, ts⟩] } q.slot
        let m := { q.msg with payload := unmadePdu b q.msg.payload (fv + 1) }
        deliverChans s3 r { q with msg := m, made := some (e, fv + 1) } ts

/-- The places a job's outputs hold in a channel's queue. [DEDUCED, log 90] -/
def placesOf (s : State) (n : Nat) (j : SecJob) : List QMsg :=
  (txqOf s n).filter fun q => q.made == some (j.entry, j.fv)

/-- A made PDU takes the place held for it in a channel's queue. -/
def fillPlaces (s : State) (n : Nat) (j : SecJob) (m : BusMsg) : State :=
  afterEnter (setTxq s n ((txqOf s n).map fun q =>
    if q.made = some (j.entry, j.fv) then { q with msg := outFor s n m, made := none } else q)) n

/-- An output that is not made gives up its places. -/
def dropPlaces (s : State) (n : Nat) (j : SecJob) : State :=
  (placesOf s n j).foldl (fun st q => dropQueued st n q (Reg.chSecSecKeyDrops n)) s

/-- SECOC_GENERATE_DONE: the oldest PDU being made takes its places, or is discarded when its key serves no longer.
[DEDUCED, log 90] -/
def secocGenerateDone (s : State) : State :=
  match s.edge.secJobs with
  | [] => s
  | j :: js =>
    let b := (recOf s j.out.slot 0x0310 j.entry).getD (zeros 48)
    let s1 := { s with edge.secJobs := js }
    let s2 := if !keyServes s b j.gen 0 then
        j.targets.foldl (fun st n => dropPlaces st n j) (countAborted s1 (ecCheck s b 0))
      else
        let m := { j.out.msg with payload := securedPdu s b j.out.msg.payload j.fv }
        j.targets.foldl (fun st n => fillPlaces st n j m)
          (deliverEth (bump s1 (usesFld (leAt b 4 2))) ((routeRec s j.out.slot j.out.route).getD (zeros 64))
            { j.out with msg := m })
    untagUnit s2 j.out.slot

/-- A PDU that is given up while it is made: what it was to leave as an Ethernet frame is counted here, and its places
in queues are discarded and counted there. [DEDUCED, log 90] -/
def dropSecured (s : State) (j : SecJob) (f : Fld) : State :=
  let r := (routeRec s j.out.slot j.out.route).getD (zeros 64)
  untagUnit (if bitAt (leAt r 0 2) 2 then bump s f else s) j.out.slot

/-- The route of an edge message (R228). -/
def routeMsg (s : State) (slot route : Nat) (x : EdgeMsg) (safety : Bool) : State :=
  match routeRec s slot route with
  | none => s
  | some r => emitOut s r ⟨translate r x.msg, slot, x.stamp, s.time.now, route, safety, 0, false, none⟩ (some x.ch)

/-- The route of an Ethernet unit, once the frame is found good (R230): `off` is where SRC_OFFSET counts from, and the output is as
old as the unit's decision (R234). -/
def routeFrame (s : State) (slot route stamp decidedAt off : Nat) (bs : List Byte) (safety : Bool) : State :=
  match routeRec s slot route with
  | none => s
  | some r =>
    let o := off + leAt r 22 2
    let n := leAt r 24 2
    if bs.length < o + n then bump s Reg.edgeRouteShort
    else match fromBytes r (slice bs o n) with
      | none => s
      | some m => emitOut s r ⟨m, slot, wcStamp s stamp, decidedAt, route, safety, 0, false, none⟩ none

/-! Transmit windows (R215, R216). -/

/-- Worst-case duration of a message on a channel in ns, intermission included. -/
def canNs (s : State) (n : Nat) (m : BusMsg) : Nat :=
  let k := if m.rtr then 0 else m.payload.length
  let nom := nomRate s n
  let dat := dataRate s n
  match m.format with
  | .cc =>
    if m.ext then bitsNs (8 * k + 67 + (54 + 8 * k - 1) / 4) nom else bitsNs (8 * k + 47 + (34 + 8 * k - 1) / 4) nom
  | .fd =>
    let a := if m.ext then 36 else 17
    let d := 5 + 8 * k
    bitsNs (a + divUp a 4 + 13) nom +
      bitsNs (d + divUp d 4 + if k ≤ 16 then 27 else 32) (if m.brs ∧ dat ≠ 0 then dat else nom)
  | .xl => bitsNs 42 nom + bitsNs (112 + 8 * k + divUp (112 + 8 * k) 10) (if dat ≠ 0 then dat else nom)
  | .lin => 0

/-- The windows of a channel that cover a message, as START and LEN in tempos, with CYCLE_TEMPOS; none where no
list governs. The list is the current slot's. [DEDUCED, log 85] -/
def coverOf (s : State) (n : Nat) (m : BusMsg) : Option (Nat × List (Nat × Nat)) :=
  if !bitAt (leAt (chanPolicy s (curSlot s) n) 0 2) 2 then none
  else match recOf s (curSlot s) 0x0300 (2 * 2 ^ 24 + n) with
    | none => none
    | some b =>
      let ws := (List.range (leAt b 0 2)).filterMap fun i =>
        let o := 16 + 16 * i
        let lo := leAt b (o + 4) 4
        if bitAt lo 29 == m.ext && lo ≤ edgeId m && edgeId m ≤ leAt b (o + 8) 4 then some (leAt b o 2, leAt b (o + 2) 2)
        else none
      if ws.isEmpty then none else some (leAt b 2 2, ws)

/-- Can a message never start: longer than the longest window that covers it? -/
def neverStarts (s : State) (n : Nat) (m : BusMsg) : Bool :=
  (coverOf s n m).any fun c => decide ((c.2.map fun w => w.2 * period s).foldl max 0 < canNs s n m)

/-- May a message start now: not covered, or inside an open covering window that it ends before? [DEDUCED, log 85] -/
def mayStart (s : State) (n : Nat) (m : BusMsg) : Bool :=
  (coverOf s n m).all fun c =>
    let cyc := c.1 * period s
    let pos := (wcNow s % (cyc : Int)).toNat
    c.2.any fun w => decide (w.1 * period s ≤ pos) && decide (pos + canNs s n m ≤ (w.1 + w.2) * period s)

/-! Local CAN channels (R213, R214). -/

/-- The message with the lowest ORDER that may start is offered; on the way, those that can never start and those
containment refuses are discarded. -/
def canPick (n : Nat) : State → List QMsg → State
  | s, [] => s
  | s, q :: qs =>
    if neverStarts s n q.msg then
      canPick n (chEvent (releaseMsg (bump (takeMsg s n q) (Reg.chConvertNeverFit n)) q) n (Reg.chEventsNeverFit n)) qs
    else if !mayStart s n q.msg then canPick n s qs
    else if !admitsTarget s n q.safety then canPick n (releaseMsg (bump (takeMsg s n q) (Reg.contChanDrops n)) q) qs
    else
      let s1 := takeMsg s n q
      { s1 with edge.offered := s1.edge.offered.set n q }

/-- CAN_ARBITRATION: a LISTEN_ONLY engine transmits nothing. -/
def canArbitration (s : State) (n : Nat) : State :=
  if !canOnBus s n ∨ chanFlag s n 2 ∨ s.edge.offered.has n then s
  else
    let s1 := txTimeout s n
    canPick n s1 (offerable [] ((againOf s1 n).foldr (fun q l => insertOrder q true l) (txqOf s1 n)))

/-- The message on offer to a bus comes off it and goes back to its queue (R214). -/
def takeBack (s : State) (n : Nat) : State :=
  match s.edge.offered.find n with
  | none => s
  | some q => putBack { s with edge.offered := s.edge.offered.del n } n q

/-- CAN_ARBITRATION_LOST. [DEDUCED, log 84] -/
def canLost (s : State) (n : Nat) : State := takeBack s n

/-- CAN_BUS_ERROR: a message whose transmission meets an error returns to the queue (R214). [PRESUMED, log 86] -/
def canBusError (s : State) (n : Nat) (e : CanError) : State :=
  if !canOnBus s n then s
  else
    let s1 := bump s (Reg.chBusErrors n)
    let tec := get s (Reg.canErrTec n)
    let rxc := get s (Reg.canErrRec n)
    match e with
    | .receive => setErrors s1 n tec (rxc + 1)
    | .receiveDominant => setErrors s1 n tec (rxc + 8)
    | .transmit => setErrors (takeBack s1 n) n (tec + 8) rxc

/-- CAN_TX_COMPLETE. -/
def canTxComplete (s : State) (n : Nat) : State :=
  match s.edge.offered.find n with
  | none => s
  | some q =>
    let s1 := releaseMsg (bump { s with edge.offered := s.edge.offered.del n } (Reg.chTxFrames n)) q
    setErrors (emit s1 (.can n q.msg)) n (get s (Reg.canErrTec n) - 1) (get s (Reg.canErrRec n))

/-- CAN_BUS_INTEGRATED: an enabled controller joins its bus after 11 recessive bits; not once a descent has
taken the engines off their buses. -/
def canIntegrated (s : State) (n : Nat) : State :=
  if aloft s ∧ descentPhase s < 3 ∧ (chanState s n = 1 ∨ chanState s n = 2) ∧ !s.edge.joined.contains n then
    { s with edge.joined := n :: s.edge.joined }
  else s

/-- RECOVER: bus-off recovery starts; ignored outside BUS_OFF. -/
def canRecover (s : State) (n : Nat) : State := if n < 16 ∧ chanState s n = 3 then put s (Reg.chStatusState n) 4 else s

/-- CAN_RECOVERY_COMPLETE. -/
def canRecovered (s : State) (n : Nat) : State :=
  if chanState s n = 4 then put (put (put s (Reg.chStatusState n) 1) (Reg.canErrTec n) 0) (Reg.canErrRec n) 0 else s

/-! Meanings. -/

/-- SECOC_GENERATE_DONE. -/
def execSecocGenerateDone (s : State) : Host.Outcome State Fault Refusal := .next (secocGenerateDone s)

/-- CAN_BUS_INTEGRATED. -/
def execCanBusIntegrated (ch : Fin 16) (s : State) : Host.Outcome State Fault Refusal := .next (canIntegrated s ch)

/-- CAN_ARBITRATION. -/
def execCanArbitration (ch : Fin 16) (s : State) : Host.Outcome State Fault Refusal := .next (canArbitration s ch)

/-- CAN_ARBITRATION_LOST. -/
def execCanArbitrationLost (ch : Fin 16) (s : State) : Host.Outcome State Fault Refusal := .next (canLost s ch)

/-- CAN_BUS_ERROR. -/
def execCanBusError (ch : Fin 16) (err : CanError) (s : State) : Host.Outcome State Fault Refusal :=
  .next (canBusError s ch err)

/-- CAN_TX_COMPLETE. -/
def execCanTxComplete (ch : Fin 16) (s : State) : Host.Outcome State Fault Refusal := .next (canTxComplete s ch)

/-- RECOVER. -/
def execRecover (m : Master) (ch : Fin 256) (s : State) : Host.Outcome State Fault Refusal :=
  .next (accessWrite s m (0xA00004 + 0x1000 * ch.val) fun t => canRecover t ch)

/-- CAN_RECOVERY_COMPLETE. -/
def execCanRecoveryComplete (ch : Fin 16) (s : State) : Host.Outcome State Fault Refusal := .next (canRecovered s ch)

/-- TX_TIMEOUT. -/
def execTxTimeout (ch : Fin 256) (s : State) : Host.Outcome State Fault Refusal := .next (txTimeout s ch)

/-- PACKER_OPEN. -/
def execPackerOpen (b : Fin 64) (s : State) : Host.Outcome State Fault Refusal := .next (packerOpen s b)

/-- PACK_WAIT_EXPIRY. -/
def execPackWaitExpiry (b : Fin 64) (s : State) : Host.Outcome State Fault Refusal := .next (packWaitExpiry s b)

end Sys2Proof.Machine
end

