-- ==== Sys2Proof/Machine/EdgeLin.lean ====
section
/-!
DEFINITION. The local LIN channels (R217 to R221), the enabling of channels (R213), the keeping of freshness
values (R238, R239), and the edge complex's access port (R241).
-/
namespace Sys2Proof.Machine

/-! LIN checksums (R217). -/

/-- The protected identifier of a frame: its ID with two parity bits (ISO 17987). [PRESUMED, log 134] -/
def linPid (id : Nat) : Nat :=
  let b := fun (i : Nat) => b2n (bitAt id i)
  let p0 := (b 0 + b 1 + b 2 + b 4) % 2
  let p1 := 1 - (b 1 + b 3 + b 4 + b 5) % 2
  id % 64 + 64 * p0 + 128 * p1

/-- The checksum of a frame (ISO 17987): the inverted sum with carry of its bytes, the classic one without the
protected identifier, the enhanced one with it. [PRESUMED, log 134] -/
def linCsum (classic : Bool) (id : Nat) (data : List Byte) : Byte :=
  let add := fun (a x : Nat) => if 255 < a + x then a + x - 255 else a + x
  BitVec.ofNat 8 (255 - (data.map fun x => x.toNat).foldl add (if classic then 0 else linPid id))

/-- Does the entry of a run use the classic checksum: IDs 60 and 61 always, the others as FLAGS says (R217)? -/
def linClassic (r : LinRun) (id : Nat) : Bool := id == 60 || id == 61 || bitAt (u8 r.body (16 + 8 * r.slotIdx + 3)) 0

/-! LIN schedules (R218 to R220). -/

/-- Ns of a LIN header: 34 bits. -/
def linHeaderNs (s : State) (n : Nat) : Nat := bitsNs 34 (nomRate s n)

/-- Ns of a LIN frame of a length, header included. -/
def linFrameNs (s : State) (n len : Nat) : Nat := bitsNs (34 + 10 * (len + 1)) (nomRate s n)

/-- Ns from a header's start by which a response must be complete: 1.4 * 10 * (LEN + 1) bit times after it. -/
def linLimitNs (s : State) (n len : Nat) : Nat := bitsNs (34 + 14 * (len + 1)) (nomRate s n)

/-- The run of a LIN channel. -/
def linRun (s : State) (n : Nat) : Option LinRun := s.edge.lin.find n

/-- The run of a LIN channel set; LIN_RUN and LIN_SLOT follow. -/
def setLin (s : State) (n : Nat) (r : Option LinRun) : State :=
  let s1 := { s with edge.lin := s.edge.lin.put n r }
  match r with
  | some x => put (put s1 (Reg.chStatusLinRun n) x.table) (Reg.chStatusLinSlot n) x.slotIdx
  | none => put (put s1 (Reg.chStatusLinRun n) 15) (Reg.chStatusLinSlot n) 0

/-- A frame that Karlasin sends has left once its time is over: it is the last payload of its frame ID, and a
message it carried is sent. A repeat of a payload is no message and counts nothing. -/
def linFinish (s : State) (n : Nat) : State :=
  match linRun s n with
  | none => s
  | some r =>
    match r.sending with
    | none => s
    | some (id, data, q) =>
      if s.time.now < r.sentAt + linFrameNs s n data.length then s
      else
        let s1 := setLin (emit s (.linFrame (n - 16) id data (linCsum (linClassic r id) id data))) n (some { r with sending := none })
        let s2 := { s1 with edge.linLast := s1.edge.linLast.set (n * 64 + id) data }
        match q with
        | some x => releaseMsg (bump s2 (Reg.chTxFrames n)) x
        | none => s2

/-- The message a slot takes from the queue: the first of its frame ID that has the slot's length and that
containment admits; those before it that do not are discarded. [DEDUCED, log 92] -/
def linTake (n id len : Nat) : State → List QMsg → Option QMsg × State
  | s, [] => (none, s)
  | s, q :: qs =>
    if q.msg.id ≠ id then linTake n id len s qs
    else if q.msg.payload.length ≠ len then linTake n id len (dropQueued s n q (Reg.chConvertConvertDrops n)) qs
    else if !admitsTarget s n q.safety then linTake n id len (dropQueued s n q (Reg.contChanDrops n)) qs
    else (some q, takeMsg s n q)

/-- A header leaves, and the payload after it. -/
def linSend (s : State) (n : Nat) (r : LinRun) (id : Nat) (data : List Byte) (q : Option QMsg) : State :=
  setLin (emit s (.linHeader (n - 16) id)) n
    (some { r with sentAt := s.time.now, sending := some (id, data, q), waiting := none })

/-- A slot begins (R218, R219): `r` stands at its entry. [DEDUCED, log 92] -/
def linSlot (s : State) (n : Nat) (r : LinRun) : State :=
  let o := 16 + 8 * r.slotIdx
  let id := u8 r.body o
  let len := u8 r.body (o + 2)
  let x := { r with endTempo := tempoNo s + leAt r.body (o + 4) 2, waiting := none, sending := none }
  let s1 := setLin s n (some x)
  if u8 r.body (o + 1) % 2 = 1 then
    setLin (emit s1 (.linHeader (n - 16) id)) n (some { x with sentAt := s.time.now, waiting := some (id, len) })
  else
    let t := linTake n id len (txTimeout s1 n) (offerable [] (txqOf (txTimeout s1 n) n))
    match t.1 with
    | some q => linSend t.2 n x id q.msg.payload (some q)
    | none =>
      if u8 r.body (o + 1) = 2 ∨ bitAt (u8 r.body (o + 3)) 1 then t.2
      else match t.2.edge.linLast.find (n * 64 + id) with
        | some d => linSend t.2 n x id d none
        | none => t.2

/-- The table that a cycle starts with: the one LIN_TABLE selects in the current slot. -/
def linStart (s : State) (n : Nat) : Option LinRun :=
  let t := cur s (Reg.chCtlLinTable n)
  if t = 15 then none
  else (recOf s (curSlot s) 0x0300 (3 * 2 ^ 24 + 8 * (n - 16) + t)).map fun b => ⟨t, b, 0, 0, 0, none, none⟩

/-- The entry that follows the slot that has ended, or the first of the next cycle. [DEDUCED, log 92] -/
def linNext (s : State) (n : Nat) (r : LinRun) : Option LinRun :=
  if r.slotIdx + 1 < leAt r.body 0 2 then some { r with slotIdx := r.slotIdx + 1 } else linStart s n

/-- Is the instant a boundary of the tempo? -/
def atBoundary (s : State) : Bool := s.time.tempoLocal == s.time.now

/-- LIN_SLOT_START: at a boundary, once the slot before has ended. A channel in BLOCKED and a descent from LINKS
on start no slot (R168, R281). -/
def linSlotStart (s : State) (n : Nat) : State :=
  if !aloft s ∨ !atBoundary s ∨ 3 ≤ descentPhase s ∨ chanState s n ≠ 5 ∨ chanBlocked s n then s
  else
    let s1 := linFinish s n
    match linRun s1 n with
    | some r =>
      if tempoNo s1 < r.endTempo then s1
      else (match linNext s1 n r with
        | some x => linSlot s1 n x
        | none => setLin s1 n none)
    | none =>
      match linStart s1 n with
      | some x => linSlot s1 n x
      | none => s1

/-- A response awaited no longer. -/
def linStop (s : State) (n : Nat) (r : LinRun) : State := setLin s n (some { r with waiting := none })

/-- LIN_RESPONSE: a response that is complete in time, with its checksum byte. [DEDUCED, log 92] -/
def linResponse (s : State) (n : Nat) (data : List Byte) (csum : Byte) : State :=
  match linRun s n with
  | none => s
  | some r =>
    match r.waiting with
    | none => s
    | some (id, len) =>
      if data.length ≠ len ∨ r.sentAt + linLimitNs s n len < s.time.now then s
      else
        let s1 := linStop s n r
        if csum ≠ linCsum (linClassic r id) id data then bump s1 (Reg.chLinLinCsumErr n)
        else receiveOn s1 n ⟨.lin, id, false, false, false, false, 0, 0, 0, false, data⟩ (curSlot s1)
          (wcStamp s1 s1.time.now) none

/-- LIN_NO_RESP. -/
def linNoResp (s : State) (n : Nat) : State :=
  match linRun s n with
  | none => s
  | some r =>
    match r.waiting with
    | none => s
    | some (_, len) =>
      if s.time.now < r.sentAt + linLimitNs s n len then s
      else chEvent (bump (linStop s n r) (Reg.chLinLinNoResp n)) n (Reg.chEventsLinNoResp n)

/-- LIN_READBACK_MISMATCH: the frame is aborted, and a message it carried is gone. Of a frame that another node answers,
Karlasin transmits the header. [DEDUCED, log 92] -/
def linMismatch (s : State) (n : Nat) : State :=
  match linRun s n with
  | none => s
  | some r =>
    match r.sending with
    | none =>
      if r.waiting.isNone ∨ r.sentAt + linHeaderNs s n ≤ s.time.now then s
      else bump (setLin s n (some { r with waiting := none })) (Reg.chBusErrors n)
    | some (_, data, q) =>
      if r.sentAt + linFrameNs s n data.length ≤ s.time.now then s
      else
        let s1 := bump (setLin s n (some { r with sending := none })) (Reg.chBusErrors n)
        match q with
        | some x => releaseMsg s1 x
        | none => s1

/-- Every LIN frame that has left is brought up to date. -/
def linFinishAll (s : State) : State := forIdx 8 (fun l st => linFinish st (16 + l)) s

/-- A LIN run given up, with the message it was sending. -/
def linDrop (s : State) (n : Nat) : State :=
  match linRun s n with
  | none => s
  | some r =>
    let s1 := setLin s n none
    match r.sending with
    | some (_, _, some x) => releaseMsg s1 x
    | _ => s1

/-! Channels enabled and disabled (R213, R403). -/

/-- Did the channel fail calibration? It stays DISABLED. -/
def calChan (s : State) (n : Nat) : Bool := n < 16 && bitAt (get s Reg.calFailHiChannels) n

/-- ADMIN_EN of a channel as the current slot has it, at a boundary or at forwarding start. -/
def applyChan (n : Nat) (s : State) : State :=
  let on := chanDeclared s n && cur s (Reg.chCtlAdminEn n) == 1 && !calChan s n
  let st := chanState s n
  if on ∧ st = 0 then
    if n < 16 then put (put (put s (Reg.chStatusState n) 1) (Reg.canErrTec n) 0) (Reg.canErrRec n) 0
    else put s (Reg.chStatusState n) 5
  else if !on ∧ st ≠ 0 then
    linDrop (put { s with edge.joined := s.edge.joined.filter (· ≠ n) } (Reg.chStatusState n) 0) n
  else s

/-- Every channel brought in line with its ADMIN_EN. -/
def applyChans (s : State) : State := forIdx 256 applyChan s

/-- Forwarding starts: the bridges have until their TIMEOUT, and the next save of freshness values is due in
60 s. -/
def startEdge (s : State) : State :=
  let bs := (List.range 64).filter fun b => (edges s).bindValid b
  applyChans { s with
    edge.heardAt := bs.foldl (fun (m : SMap Nat) b => m.set b s.time.now) s.edge.heardAt, edge.savedAt := s.time.now }

/-- The engines leave their buses (R281). A frame on a bus completes. -/
def leaveBuses (s : State) : State := { s with edge.joined := [] }

/-! Freshness values (R238, R239, R250). -/

/-- A VALID SecOC entry's key slot. -/
def secocKey (b : Option (List Byte)) : Option Nat :=
  match b with
  | some x => if bitAt (leAt x 0 2) 0 then some (leAt x 4 2) else none
  | none => none

/-- A commit's T+0: entries that become VALID, change their key slot, or name a slot refilled at T+0 start at 0
and not blocked. -/
def fvCommit (s : State) (old new : Nat) (refilled : Nat → Bool) : State :=
  (recsOf s new 0x0310).foldl (fun st e =>
    match secocKey (some e.2) with
    | none => st
    | some k =>
      if secocKey (recOf s old 0x0310 e.1) = some k ∧ !refilled k then st
      else { st with edge.fv := st.edge.fv.del e.1, edge.blocked := st.edge.blocked.filter (· ≠ e.1) }) s

/-- A generate entry that starts blocked: the manual gives it no value. [DEDUCED, log 90] -/
def fvBlock (s : State) (e : Nat) : State :=
  let d := draw s (2 ^ 64)
  { d.2 with edge.fv := d.2.edge.fv.set e d.1, edge.blocked := e :: d.2.edge.blocked }

/-- The bytes of a save that its seal covers: a 16-byte header with the save counter, and 4,096 values (R256). -/
def saveBytes (n : Nat) (m : SMap Nat) : List Byte :=
  leBytes 8 n ++ zeros 8 ++ (List.range 4096).flatMap fun e => leBytes 8 ((m.find e).getD 0)

/-- The seal of a save under a key. -/
def saveSeal (key : List Byte) (n : Nat) (m : SMap Nat) : List Byte := slice (Config.cmac key (saveBytes n m)) 0 16

/-- The values of the valid save with the highest counter, if there is one (R256). [DEDUCED, log 122] -/
def newestFv (s : State) : Option (SMap Nat) :=
  let good := s.edge.fvSaves.filter fun e => saveSeal (blobKeyAt (genOf s 4)) e.2.counter e.2.values == e.2.mac
  (good.foldl (fun (a : Option FvSave) e =>
    if a.all fun c => decide (c.counter < e.2.counter) then some e.2 else a) none).map fun c => c.values

/-- Freshness values at cold boot (R239). [DEDUCED, log 90] -/
def fvRestore (s : State) : State :=
  let gens := (recsOf s (curSlot s) 0x0310).filter fun e => leAt e.2 0 2 % 4 == 3
  match newestFv s with
  | none =>
    secEvent (gens.foldl (fun st e => fvBlock st e.1) { s with edge.fv := [], edge.blocked := [] }) Reg.secEventsRestoreFail
  | some m =>
    gens.foldl (fun st e =>
      let v := fvOf st e.1 + leAt e.2 28 4
      if leAt e.2 16 8 < v then fvBlock st e.1 else { st with edge.fv := st.edge.fv.set e.1 v })
      { s with edge.fv := m, edge.blocked := [] }

/-- Blocks 2 to 57 that still program, themselves or by the spare that replaces them: of the six spares each goes to the
block that failed first (R256). -/
def fvBlocks (s : State) : List Nat :=
  let worn := s.vault.badBlocks.take (s.vault.badBlocks.length - 6)
  ((List.range 56).map (· + 2)).filter fun b => !worn.contains b

/-- The freshness values are written, sealed, to the next block in rotation (R256). [DEDUCED, log 122] -/
def fvWrite (s : State) : State :=
  let n := s.edge.fvSaves.foldl (fun a e => max a e.2.counter) 0 + 1
  let bs := fvBlocks s
  let s1 := { s with edge.savedAt := s.time.now }
  match bs[n % bs.length]? with
  | some b => { s1 with edge.fvSaves := s.edge.fvSaves.set b ⟨n, s.edge.fv, saveSeal (keyOf s 4) n s.edge.fv⟩ }
  | none => s1

/-- A block of the blob region failed to program (R256): a spare takes its place, or the region is worn.
[DEDUCED, log 122] -/
def blockFailed (s : State) (b : Nat) : State :=
  if s.vault.badBlocks.contains b then s
  else
    let s1 := { s with vault.badBlocks := b :: s.vault.badBlocks }
    if s.vault.badBlocks.length < 6 then s1 else recordFault s1 0x0032 0 b

/-- FV_SAVE: every 60 s while Aloft; `blocks` failed to program, and the save is in those that still do.
[DEDUCED, log 122] -/
def fvSave (s : State) (blocks : List Nat) : State :=
  if aloft s ∧ s.edge.savedAt + 60000000000 ≤ s.time.now then blocks.foldl blockFailed (fvWrite s) else s

/-! The access port (R241). -/

/-- A read through EDGE_ACC: STATUS 0 OK, 1 STALE, 2 EMPTY, with the part of the entry. -/
def edgeAccResult (s : State) (status : Nat) (bs : List Byte) : State :=
  put (putWords (put s Reg.edgeAccCtlStatus status) Reg.edgeAccData 64 bs) Reg.edgeAccCtlDone 1

/-- Section and INDEX[31:24] of a TABLE code; a reserved one has no entries. [DESIGN CHOICE, log 25] -/
def edgeTable (t : Nat) : Option (Nat × Nat) :=
  match t with
  | 0 => some (0x0300, 0)
  | 1 => some (0x0300, 1)
  | 2 => some (0x0300, 2)
  | 3 => some (0x0300, 3)
  | 4 => some (0x0310, 0)
  | _ => none

/-- READ of EDGE_ACC_CTL. A read of a SecOC entry also shows its freshness value. -/
def edgeRead (s : State) (m : Master) : State :=
  let i := get s Reg.edgeAccCtlIndex
  match edgeTable (get s Reg.edgeAccCtlTable) with
  | none => edgeAccResult s 2 []
  | some (sect, t) =>
    match viewSlot s m (get s Reg.edgeAccCtlView) (get s Reg.edgeAccCtlSlot) with
    | none => edgeAccResult s 1 []
    | some e =>
      match recOf s e sect (t * 2 ^ 24 + i) with
      | none => edgeAccResult s 2 []
      | some b =>
        let s1 := edgeAccResult s 0 (slice b (256 * get s Reg.edgeAccCtlPart) 256)
        if sect = 0x0310 then putFlag (put s1 Reg.secFv (fvOf s i)) Reg.secFvBlocked (s.edge.blocked.contains i) else s1

/-- A write of EDGE_ACC_CTL. -/
def edgeAccCtl (s : State) (m : Master) (w : Nat) : State :=
  let s1 := put (put s Reg.edgeAccCtlTable (bitsAt w 1 3)) Reg.edgeAccCtlIndex (bitsAt w 4 13)
  let s2 := put (put (put s1 Reg.edgeAccCtlPart (bitsAt w 17 6)) Reg.edgeAccCtlView (bitsAt w 23 2))
    Reg.edgeAccCtlSlot (bitsAt w 25 2)
  if bitAt w 0 then edgeRead s2 m else s2

/-! Meanings. -/

/-- LIN_SLOT_START. -/
def execLinSlotStart (l : Fin 8) (s : State) : Host.Outcome State Fault Refusal := .next (linSlotStart s (16 + l.val))

/-- LIN_RESPONSE. -/
def execLinResponse (l : Fin 8) (data : List Byte) (csum : Byte) (s : State) : Host.Outcome State Fault Refusal :=
  .next (linResponse s (16 + l.val) data csum)

/-- LIN_NO_RESP. -/
def execLinNoResp (l : Fin 8) (s : State) : Host.Outcome State Fault Refusal := .next (linNoResp s (16 + l.val))

/-- LIN_READBACK_MISMATCH. -/
def execLinReadbackMismatch (l : Fin 8) (s : State) : Host.Outcome State Fault Refusal :=
  .next (linMismatch s (16 + l.val))

/-- FV_SAVE. -/
def execFvSave (blocks : List (Fin 64)) (s : State) : Host.Outcome State Fault Refusal :=
  .next (fvSave s (blocks.map (·.val)))

/-- EDGE_ACC_READ. -/
def execEdgeAccRead (m : Master) (w : Word) (s : State) : Host.Outcome State Fault Refusal :=
  .next (accessWrite s m 0xB00000 fun t => edgeAccCtl t m w.toNat)

end Sys2Proof.Machine
end

