-- ==== Sys2Proof/Machine/Ports.lean ====
section
/-!
DEFINITION. The links of the external ports (R85 to R89) and verification of frame preemption (R93).
-/
namespace Sys2Proof.Machine

/-- Is the port a T1 port with training: P0 to P11 and P16 to P39 (R85)? -/
def t1Port (p : Nat) : Bool := tc10Port p

/-- SPEED code of a T1 or multidrop port in its MODE (R83, R104). -/
def modeSpeed (p mode : Nat) : Nat :=
  if p < 12 then 7 - mode else if p < 32 then 3 else if p < 40 then 2 else 1

/-- PORT_STATUS.STATE: 0 DISABLED, 1 RETAINED_TRAIN, 2 FULL_TRAIN, 3 UP. -/
def linkState (s : State) (p : Nat) : Nat := get s (Reg.portStatusState p)

/-- A port enters a link state, from whose entry its bounds are measured. -/
def enterLink (s : State) (p st : Nat) : State :=
  { put s (Reg.portStatusState p) st with net.linkSince := s.net.linkSince.set p s.time.now }

/-- Ns since the port entered its link state. [DEDUCED, log 51] -/
def linkAge (s : State) (p : Nat) : Nat := s.time.now - (s.net.linkSince.find p).getD 0

/-- Bound of retained training in ns (R85). -/
def retainedBound (p : Nat) : Nat := if p < 12 then 19600000 else 9600000

/-- MODE and LEADER a port's coefficients belong to (R86). -/
def trainKey (s : State) (p : Nat) : Nat := 2 * get s (Reg.portModeMode p) + get s (Reg.portModeLeader p)

/-! Verification of preemption (R93). -/

/-- verifyTime in ms; a value outside 1 to 128 is treated as 10 (R104). -/
def verifyTime (s : State) (p : Nat) : Nat :=
  let v := cur s (Reg.preemptCfgVerifyTime p)
  if 1 ≤ v ∧ v ≤ 128 then v else 10

/-- PREEMPT_STATUS.ACTIVE as R93 gives it. -/
def showPreempt (s : State) (p : Nat) : State := putFlag s (Reg.preemptStatusActive p) (preemptActive s p)

/-- VERIFY_ST set. -/
def setVerify (s : State) (p st : Nat) : State := showPreempt (put s (Reg.preemptStatusVerifySt p) st) p

/-- In SAVE of a descent every transmitter is silent (R281). [DEDUCED, log 102] -/
def silent (s : State) : Bool := descentPhase s == 4

/-- A verify frame is sent, unless the transmitter is silent. -/
def sendVerify (s : State) (p n : Nat) : State :=
  let s1 := { s with net.verifySent := s.net.verifySent.set p n, net.verifyAt := s.net.verifyAt.set p s.time.now }
  if silent s then s1 else emit s1 (.mpacket p .verify 0 0 [])

/-- A verify frame received on a port with a MAC Merge sublayer is answered (R92). [PRESUMED, log 130] -/
def answerVerify (s : State) (p : Nat) : State :=
  if preemptCap s p ∧ portUp s p ∧ !silent s then emit s (.mpacket p .response 0 0 []) else s

/-- Is verification called for: preemption enabled with verification on a port that has it? -/
def verifyWanted (s : State) (p : Nat) : Bool :=
  preemptCap s p && cur s (Reg.portCtlPreemptEn p) == 1 && cur s (Reg.preemptCfgVerifyDis p) == 0

/-- Verification starts, at a transition to UP or when it is enabled on a port that is UP. -/
def startVerify (s : State) (p : Nat) : State :=
  if verifyWanted s p ∧ portUp s p then sendVerify (setVerify s p 2) p 1
  else setVerify s p (if verifyWanted s p then 1 else 0)

/-- VERIFY_RESPONSE. -/
def verifyResponse (s : State) (p : Nat) : State :=
  if get s (Reg.preemptStatusVerifySt p) = 2 ∧ portUp s p then setVerify s p 3 else s

/-- VERIFY_TIMEOUT: after three unanswered verify frames verification fails. -/
def verifyTimeout (s : State) (p : Nat) : State :=
  let due := (s.net.verifyAt.find p).getD 0 + 1000000 * verifyTime s p
  if get s (Reg.preemptStatusVerifySt p) ≠ 2 ∨ !portUp s p ∨ s.time.now < due then s
  else if (s.net.verifySent.find p).getD 0 < 3 then sendVerify s p ((s.net.verifySent.find p).getD 0 + 1)
  else portEvent (setVerify s p 4) p (Reg.portEventsVerifyFail p)

/-! Links going up and down. -/

/-- PLCA_EN of a port (R83). -/
def plcaEn (s : State) (p : Nat) : Bool := bitAt (u8 (portEntry (slotView s (curSlot s)) p) 2) 1

/-- A coordinator, the port with PLCA_ID 0, begins to send the BEACON when it comes UP (R89). Its period is not modelled.
[DESIGN CHOICE, log 131] -/
def sendBeacon (s : State) (p : Nat) : State :=
  if 40 ≤ p ∧ plcaEn s p ∧ get s (Reg.plcaCfgPlcaId (p - 40)) = 0 ∧ !silent s then emit s (.beacon p) else s

/-- A port goes UP. -/
def goUp (s : State) (p speed : Nat) : State :=
  let s1 := put (put (enterLink s p 3) (Reg.portStatusLink p) 1) (Reg.portStatusSpeed p) speed
  sendBeacon (startVerify (portEvent s1 p (Reg.portEventsLinkChange p)) p) p

/-- PLCA status falls (R89): the port transmits under CSMA/CD and the event is raised. -/
def plcaDrop (s : State) (p : Nat) : State :=
  if flag s (Reg.portStatusPlcaActive p) then
    portEvent (put s (Reg.portStatusPlcaActive p) 0) p (Reg.portEventsPlca p)
  else s

/-- An UP port loses its link: frames queued there and arriving there are discarded (R85, R88, R123). -/
def goDown (s : State) (p next : Nat) : State :=
  let s1 := loseIngress (flushPort s p) p
  let s2 := plcaDrop (put (put (enterLink s1 p next) (Reg.portStatusLink p) 0) (Reg.portStatusSpeed p) 0) p
  setVerify (portEvent s2 p (Reg.portEventsLinkChange p)) p (if verifyWanted s p then 1 else 0)

/-- A T1 port starts training: retained when its coefficients are valid, else full (R85). -/
def startTraining (s : State) (p : Nat) : State :=
  showPreempt (enterLink s p (if flag s (Reg.trainStatusCoefValid p) then 1 else 2)) p

/-- Did the port fail calibration (R403)? It stays DISABLED. -/
def calPort (s : State) (p : Nat) : Bool := bitAt (get s Reg.calFailLo + get s Reg.calFailHiPortsHi * 2 ^ 32) p

/-- ADMIN_EN of a port as the current slot has it, at a boundary or at forwarding start (R85, R87). -/
def applyAdmin (p : Nat) (s : State) : State :=
  let on := cur s (Reg.portCtlAdminEn p) == 1 && get s (Reg.portModeMode p) != 0 && !calPort s p
  let st := linkState s p
  if on then
    if st ≠ 0 then s
    else if t1Port p then startTraining s p
    else if 40 ≤ p then goUp s p 1
    else s
  else if st = 0 then s
  else if st = 3 then goDown s p 0
  else enterLink s p 0

/-- Every port brought in line with its ADMIN_EN. [DEDUCED, log 44] -/
def applyAdmins (s : State) : State := forIdx 48 applyAdmin s

/-- Preemption settings changed by a commit: verification starts where it is newly called for, and stops
where it is not. -/
def applyPreempt (p : Nat) (s : State) : State :=
  let st := get s (Reg.preemptStatusVerifySt p)
  settlePreempt (if verifyWanted s p ∧ st = 0 then startVerify s p
    else if !verifyWanted s p then setVerify s p 0 else showPreempt s p) p

/-- A partner signature other than the retained one: full training at once (R86). -/
def partnerChange (s : State) (p sig : Nat) : State :=
  if linkState s p = 1 ∧ s.net.partnerSig.find p ≠ some sig then
    enterLink (put s (Reg.trainStatusCoefValid p) 0) p 2
  else s

/-- LINK_ESTABLISHED (R85): the duration of training goes to TRAIN_TIME in units of 10 us, and full
training stores its result. [DEDUCED, log 51] -/
def linkEstablished (s : State) (p sig : Nat) : State :=
  let st := linkState s p
  if !t1Port p ∨ (st ≠ 1 ∧ st ≠ 2) then s
  else if st = 1 ∧ s.net.partnerSig.find p ≠ some sig then partnerChange s p sig
  else
    let s1 := put (put s (Reg.trainStatusTrainTime p) (min 65535 (linkAge s p / 10000))) (Reg.trainStatusLastTrain p) st
    let s2 := if st = 2 then
        { put s1 (Reg.trainStatusCoefValid p) 1 with
          net.partnerSig := s1.net.partnerSig.set p sig, net.trainedAs := s1.net.trainedAs.set p (trainKey s p) }
      else s1
    goUp s2 p (modeSpeed p (get s (Reg.portModeMode p)))

/-- RETAINED_TRAIN_TIMEOUT (R85). -/
def retainedTimeout (s : State) (p : Nat) : State :=
  if linkState s p = 1 ∧ retainedBound p ≤ linkAge s p then enterLink (put s (Reg.trainStatusCoefValid p) 0) p 2
  else s

/-- FULL_TRAIN_TIMEOUT (R85). -/
def fullTimeout (s : State) (p : Nat) : State :=
  if linkState s p = 2 ∧ 100000000 ≤ linkAge s p then
    portEvent (enterLink (bump s (Reg.trainStatusTrainFails p)) p 2) p (Reg.portEventsTrainFail p)
  else s

/-- LINK_LOSS (R85). -/
def linkLoss (s : State) (p : Nat) : State :=
  if t1Port p ∧ linkState s p = 3 then goDown s p 1 else s

/-- The SPEED code a lane comes up with in its SERDES MODE (R81, R84); none where the partner's speed does
not fit the mode. -/
def laneSpeed (s : State) (k speed : Nat) : Option Nat :=
  let b := laneEntry (slotView s (curSlot s)) k
  let fl := u8 b 2
  match u8 b 0 with
  | 1 => some 7
  | 2 => some 6
  | 3 => if bitAt fl 2 then (if inR speed 1 6 then some speed else none) else some (bitsAt fl 3 3 + 1)
  | 4 => if bitAt fl 2 then (if inR speed 1 3 then some speed else none) else some (bitsAt fl 3 3 + 1)
  | _ => none

/-- SERDES_LINK_UP (R87). -/
def laneUp (s : State) (k speed : Nat) : State :=
  let p := 12 + k
  if cur s (Reg.portCtlAdminEn p) = 0 ∨ get s (Reg.portModeMode p) = 0 ∨ linkState s p = 3 ∨
      !(aloft s || s.boot.phase == .wakeCheck || s.boot.phase == .wakeTrain) ∨ calPort s p then s
  else match laneSpeed s k speed with
    | some v => goUp s p v
    | none => s

/-- SERDES_LINK_DOWN (R87). -/
def laneDown (s : State) (k : Nat) : State := if linkState s (12 + k) = 3 then goDown s (12 + k) 0 else s

/-- PLCA status of a multidrop port changes (R89). -/
def plcaStatus (s : State) (p : Nat) (active : Bool) : State :=
  if plcaEn s p ∧ linkState s p = 3 ∧ flag s (Reg.portStatusPlcaActive p) ≠ active then
    let s1 := portEvent (putFlag s (Reg.portStatusPlcaActive p) active) p (Reg.portEventsPlca p)
    if active then sendBeacon s1 p else s1
  else s

/-- BEACON_TIMEOUT (R89): a follower only. -/
def beaconTimeout (s : State) (p : Nat) : State :=
  if get s (Reg.plcaCfgPlcaId (p - 40)) = 0 then s else plcaStatus s p false

/-- Coefficients of a port whose MODE or LEADER a new envelope changes are no longer valid (R86). -/
def checkCoefs (s : State) : State :=
  forIdx 48 (fun p st =>
    if flag st (Reg.trainStatusCoefValid p) ∧ st.net.trainedAs.find p ≠ some (trainKey st p) then
      put st (Reg.trainStatusCoefValid p) 0 else st) s

/-! Meanings. -/

/-- LINK_ESTABLISHED. -/
def execLinkEstablished (p : Fin 48) (signature : Nat) (s : State) : Host.Outcome State Fault Refusal :=
  .next (linkEstablished s p signature)

/-- RETAINED_TRAIN_TIMEOUT. -/
def execRetainedTrainTimeout (p : Fin 48) (s : State) : Host.Outcome State Fault Refusal := .next (retainedTimeout s p)

/-- FULL_TRAIN_TIMEOUT. -/
def execFullTrainTimeout (p : Fin 48) (s : State) : Host.Outcome State Fault Refusal := .next (fullTimeout s p)

/-- PARTNER_SIGNATURE_CHANGE. -/
def execPartnerSignatureChange (p : Fin 48) (signature : Nat) (s : State) : Host.Outcome State Fault Refusal :=
  .next (partnerChange s p signature)

/-- LINK_LOSS. -/
def execLinkLoss (p : Fin 48) (s : State) : Host.Outcome State Fault Refusal := .next (linkLoss s p)

/-- SERDES_LINK_UP. -/
def execSerdesLinkUp (k : Fin 4) (speed : Nat) (s : State) : Host.Outcome State Fault Refusal :=
  .next (laneUp s k speed)

/-- SERDES_LINK_DOWN. -/
def execSerdesLinkDown (k : Fin 4) (s : State) : Host.Outcome State Fault Refusal := .next (laneDown s k)

/-- PLCA_STATUS_CHANGE. -/
def execPlcaStatusChange (i : Fin 8) (active : Bool) (s : State) : Host.Outcome State Fault Refusal :=
  .next (plcaStatus s (40 + i.val) active)

/-- BEACON_TIMEOUT. -/
def execBeaconTimeout (i : Fin 8) (s : State) : Host.Outcome State Fault Refusal :=
  .next (beaconTimeout s (40 + i.val))

/-- VERIFY_RESPONSE. -/
def execVerifyResponse (p : Fin 48) (s : State) : Host.Outcome State Fault Refusal := .next (verifyResponse s p)

/-- VERIFY_TIMEOUT. -/
def execVerifyTimeout (p : Fin 48) (s : State) : Host.Outcome State Fault Refusal := .next (verifyTimeout s p)

end Sys2Proof.Machine
end

