-- ==== Sys2Proof/Machine/TimeBase.lean ====
section
/-!
DEFINITION. The time base (R31 to R38, R452): disciplining the two domains, holdover, steps and slews,
the PPS pins, time snapshots and the setting of global time.
-/
namespace Sys2Proof.Machine

/-- Domain index of a scoresheet TIME_STEP entry (R36). -/
def domIndex : Domain → Nat
  | .wc => 0
  | .gt => 1

/-- Slew limit of a domain in parts per million (R34, R35). [DESIGN CHOICE, log 38] -/
def slewPpm : Domain → Nat
  | .wc => 50
  | .gt => 100

/-- A domain's time now. -/
def domNow (s : State) (d : Domain) : Int := domAt (domOf s d) (slewPpm d) s.time.now

/-- The domain block of the TIME section (R452). -/
def timeBlock (s : State) (d : Domain) : List Byte :=
  slice (structOf s 0x0040) (match d with | .wc => 16 | .gt => 40) 24

/-- The TIME port entry of a port (R452). -/
def timePort (s : State) (p : Nat) : List Byte := slice (structOf s 0x0040) (64 + 8 * p) 8

/-- External port configuration selected for the domain (R31). -/
def extPortCfg (s : State) (d : Domain) : Bool := bitAt (u8 (timeBlock s d) 0) 1

/-- Karlasin may be grandmaster of the domain (R452). -/
def gmCapable (s : State) (d : Domain) : Bool := bitAt (u8 (timeBlock s d) 0) 0

/-- Is the port a gPTP port of the domain (R452)? -/
def gptpPort (s : State) (d : Domain) (p : Nat) : Bool :=
  p < 48 && bitAt (u8 (timePort s p) 1) (domIndex d)

/-- The role external port configuration gives a port: 1 master, 2 slave, 3 passive. -/
def extRole (s : State) (d : Domain) (p : Nat) : Nat := u8 (timePort s p) (2 + domIndex d)

/-- Has the domain a slave port under external port configuration? -/
def extSlave (s : State) (d : Domain) : Bool :=
  (List.range 48).any fun p => gptpPort s d p && extRole s d p == 2

/-- Log of a step above LOG_THRESH, or of any setting of global time (R36). -/
def logStep (s : State) (d : Domain) (cause : Nat) (step : Int) : State :=
  if get s Reg.logThresh < step.natAbs ∨ cause = 3 then
    journal s 0x0040 (leBytes 1 (domIndex d) ++ leBytes 1 cause ++ zeros 2 ++ leBytes 8 (unsigned 64 step))
  else s

/-- Gate lists and flow gates take up the entry of a stepped working clock at once (R201). -/
def syncLists (s : State) : State :=
  (s.tm.flowAt.map fun e => e.1).foldl flowSync (forIdx 48 (fun p st => gateSync st p) s)

/-- A domain's time stepped by `step` at once; a stepped working clock makes the tempo generator
realign, and gates follow it (R34, R40, R201). -/
def stepDom (s : State) (d : Domain) (step rate : Int) (cause : Nat) : State :=
  let x := domOf s d
  let s1 := setDom s d { x with anchorLocal := s.time.now, anchorTime := domNow s d + step, rate := rate, slew := 0 }
  let s2 := match d with
    | .wc => syncLists { s1 with time.realign := true }
    | .gt => s1
  logStep s2 d cause step

/-- A domain's rate corrected and its offset left to slewing. -/
def slewDom (s : State) (d : Domain) (offset rate : Int) : State :=
  let x := domOf s d
  setDom s d { x with anchorLocal := s.time.now, anchorTime := domNow s d, rate := rate, slew := offset }

/-- Does an accepted Sync step the domain (R34, R35)? The working clock steps at its first lock and when
the offset to a new or returning grandmaster exceeds WC_STEP_LIMIT; global time whenever its offset
exceeds 1 us. [DEDUCED, log 36; DEDUCED, log 37] -/
def syncSteps (s : State) (d : Domain) (gm : Nat) (offset : Int) : Bool :=
  match d with
  | .wc => !s.time.wc.everLocked ||
      ((s.time.wc.gm != some gm || flag s Reg.tbStatusWcHoldover) && get s Reg.wcStepLimit < offset.natAbs)
  | .gt => 1000 < offset.natAbs

/-- Cause of a step at an accepted Sync (R36): 0 first lock, 1 grandmaster change, 2 offset limit.
[DEDUCED, log 36; DEDUCED, log 37] -/
def syncCause (x : DomSt) (gm : Nat) : Nat := if !x.everLocked then 0 else if x.gm ≠ some gm then 1 else 2

/-- ACCEPT_SYNC (R33 to R35). A domain that external port configuration makes grandmaster accepts none. -/
def acceptSync (s : State) (d : Domain) (gm : Nat) (offset rate : Int) : State :=
  if !aloft s ∨ (extPortCfg s d ∧ !extSlave s d) then s
  else
    let x := domOf s d
    let s1 := putFlag (putFlag (putFlag s (holdoverFld d) false) (gmFld d) false) (lockedFld d) true
    let stp := syncSteps s d gm offset
    let s2 := if stp then stepDom s1 d offset rate (syncCause x gm) else slewDom s1 d offset rate
    let s3 := setDom s2 d { domOf s2 d with everLocked := true, gm := some gm }
    let s4 := match d with
      | .wc => put s3 Reg.tbStatusWcOffset (if stp then 0 else unsigned 16 (clampInt (-32767) 32767 offset))
      | .gt => s3
    noteTb s s4

/-- The domain's time keeps running at its last rate ratio, with the holdover bit set (R33). [DEDUCED, log 37] -/
def grandmasterLoss (s : State) (d : Domain) : State :=
  if flag s (lockedFld d) ∧ !flag s (gmFld d) then
    noteTb s (putFlag (putFlag s (lockedFld d) false) (holdoverFld d) true)
  else s

/-- Karlasin becomes grandmaster of a domain: locked, no holdover, no offset (R31, R34). The grandmaster of before is one
that returns when its Sync is accepted again. [DEDUCED, log 37] -/
def becomeGm (s : State) (d : Domain) : State :=
  let s1 := putFlag (putFlag (putFlag s (gmFld d) true) (lockedFld d) true) (holdoverFld d) false
  let s2 := setDom s1 d { domOf s1 d with everLocked := true, gm := none }
  let s3 := match d with
    | .wc => put s2 Reg.tbStatusWcOffset 0
    | .gt => s2
  noteTb s s3

/-! PPS_IN (R37). -/

/-- An edge 1 s ± 100 us after another. -/
def ppsInWindow (prev t : Nat) : Bool := prev + 999900000 ≤ t && t ≤ prev + 1000100000

/-- The nearest whole second to a time, as an offset from it. -/
def toSecond (t : Int) : Int :=
  let r := t % 1000000000
  if r < 500000000 then -r else 1000000000 - r

/-- Global time disciplined to a valid edge while Karlasin is its grandmaster (R37, R35). [DEDUCED, log 39] -/
def disciplineGt (s : State) : State :=
  if flag s Reg.tbStatusGtGm then
    let off := toSecond (gtNow s)
    if 1000 < off.natAbs then stepDom s .gt off s.time.gt.rate 2 else slewDom s .gt off s.time.gt.rate
  else s

/-- A valid edge: its instant in global time is shown, and it becomes the edge the next is judged by.
[DEDUCED, log 39] -/
def ppsValidEdge (s : State) : State :=
  let g := (gtNow s).toNat
  let s1 := put s Reg.ppsInNs (g % 1000000000)
  let s2 := put (put s1 Reg.ppsInSecLo (g / 1000000000)) Reg.ppsInSecHi (g / 1000000000 / 2 ^ 32)
  disciplineGt { s2 with time.ppsLast := some s.time.now, time.ppsCand := none }

/-- PPS_IN_EN set: PPS_IN_VALID clears and the search for a candidate starts (R37). -/
def ppsSearch (s : State) : State :=
  noteTb s { putFlag s Reg.tbStatusPpsInValid false with time.ppsCand := none, time.ppsLast := none }

/-- PPS_IN_EDGE (R37). -/
def ppsInEdge (s : State) (rising : Bool) : State :=
  if !aloft s ∨ cur s Reg.ppsCfgPpsInEn = 0 ∨ (cur s Reg.ppsCfgPpsInEdge = 0) ≠ (rising = true) then s
  else
    let now := s.time.now
    if flag s Reg.tbStatusPpsInValid then
      (match s.time.ppsLast with
       | some l => if ppsInWindow l now then ppsValidEdge s else s
       | none => s)
    else match s.time.ppsCand with
      | some c =>
        if ppsInWindow c now then noteTb s (ppsValidEdge (putFlag s Reg.tbStatusPpsInValid true))
        else { s with time.ppsCand := some now }
      | none => { s with time.ppsCand := some now }

/-- PPS_IN_MISSING (R37): two consecutive expected edges have not come. -/
def ppsInMissing (s : State) : State :=
  match s.time.ppsLast with
  | some l =>
    if flag s Reg.tbStatusPpsInValid ∧ l + 2000100000 < s.time.now then
      noteTb s { putFlag s Reg.tbStatusPpsInValid false with time.ppsCand := none, time.ppsLast := none }
    else s
  | none => s

/-! PPS_OUT (R38). -/

/-- The domain PPS_OUT follows. -/
def ppsOutDomain (s : State) : Domain := if cur s Reg.ppsCfgPpsOutDomain = 0 then .wc else .gt

/-- May PPS_OUT rise: enabled, and its domain locked or in holdover? -/
def ppsOutMay (s : State) : Bool :=
  aloft s && cur s Reg.ppsCfgPpsOutEn != 0 &&
    (flag s (lockedFld (ppsOutDomain s)) || flag s (holdoverFld (ppsOutDomain s)))

/-- PPS_OUT_RISE: within 8 ns of a whole second of the selected domain, for PPS_OUT_WIDTH ms; a width
of 0 is treated as 1. [DEDUCED, log 39] -/
def ppsOutRise (s : State) : State :=
  let t := domNow s (ppsOutDomain s)
  if ppsOutMay s ∧ !s.time.ppsOutHigh ∧ (toSecond t).natAbs ≤ 8 then
    { s with time.ppsOutHigh := true
             time.ppsOutUntil :=
               some (s.time.now + toSecond t + 1000000 * (max 1 (cur s Reg.ppsCfgPpsOutWidth) : Nat)).toNat }
  else s

/-- PPS_OUT_FALL: the width has passed on the local clock, or the pulse is no longer enabled. [DEDUCED, log 39] -/
def ppsOutFall (s : State) : State :=
  if s.time.ppsOutHigh ∧ (!ppsOutMay s ∨ s.time.ppsOutUntil.all fun u => decide (u ≤ s.time.now)) then
    { s with time.ppsOutHigh := false, time.ppsOutUntil := none }
  else s

/-! Snapshots and setting of global time. -/

/-- A domain's time written into its three snapshot words. -/
def snapDom (s : State) (ns lo hi lk : Fld) (t : Int) (locked : Bool) : State :=
  let n := t.toNat
  putFlag (put (put (put s ns (n % 1000000000)) lo (n / 1000000000)) hi (n / 1000000000 / 2 ^ 32)) lk locked

/-- One 1 ns instant captured into SNAP[0] to SNAP[8] (R32, R452). -/
def timeSnapshot (s : State) : State :=
  let s1 := snapDom s Reg.snapWcNsNs Reg.snapWcSecLo Reg.snapWcSecHi Reg.snapWcNsLocked (wcNow s)
    (flag s Reg.tbStatusWcLocked)
  let s2 := snapDom s1 Reg.snapGtNsNs Reg.snapGtSecLo Reg.snapGtSecHi Reg.snapGtNsLocked (gtNow s)
    (flag s Reg.tbStatusGtLocked)
  put (put s2 Reg.snapTempo (tempoNo s)) Reg.snapLocal s.time.now

/-- A GT_SET arms the load; it is ignored unless Karlasin is grandmaster of global time, and changes nothing while a load
is armed. [DEDUCED, log 39] -/
def gtSetArm (s : State) : State :=
  if flag s Reg.tbStatusGtGm ∧ !flag s Reg.tbStatusGtSetPend then
    noteTb s { putFlag s Reg.tbStatusGtSetPend true with time.gtSetAt := s.time.now }
  else s

/-- Has the edge or whole local second an armed load waits for come? -/
def gtSetDue (s : State) : Bool :=
  if flag s Reg.tbStatusPpsInValid then s.time.ppsLast.any fun l => decide (s.time.gtSetAt < l)
  else s.time.gtSetAt / 1000000000 < s.time.now / 1000000000

/-- GT_SET_LOAD (R36): the armed seconds become global time, with nanoseconds 0 at the edge or at the
whole second, and the setting is journaled. [DEDUCED, log 39] -/
def gtSetLoad (s : State) : State :=
  if aloft s ∧ flag s Reg.tbStatusGtSetPend ∧ gtSetDue s then
    let secs := get s Reg.gtSetSecLo + get s Reg.gtSetSecHi * 2 ^ 32
    let edge := if flag s Reg.tbStatusPpsInValid then s.time.ppsLast.getD s.time.now
      else s.time.now / 1000000000 * 1000000000
    let target : Int := (secs * 1000000000 + (s.time.now - edge) : Nat)
    let s1 := stepDom s .gt (target - gtNow s) s.time.gt.rate 3
    noteTb s (putFlag s1 Reg.tbStatusGtSetPend false)
  else s

/-! Meanings. -/

/-- ACCEPT_SYNC. -/
def execAcceptSync (dom : Domain) (gm : Nat) (offset rate : Int) (s : State) : Host.Outcome State Fault Refusal :=
  .next (acceptSync s dom gm offset rate)

/-- GRANDMASTER_LOSS. -/
def execGrandmasterLoss (dom : Domain) (s : State) : Host.Outcome State Fault Refusal :=
  .next (grandmasterLoss s dom)

/-- PPS_IN_EDGE. -/
def execPpsInEdge (rising : Bool) (s : State) : Host.Outcome State Fault Refusal := .next (ppsInEdge s rising)

/-- PPS_IN_MISSING. -/
def execPpsInMissing (s : State) : Host.Outcome State Fault Refusal := .next (ppsInMissing s)

/-- PPS_OUT_RISE. -/
def execPpsOutRise (s : State) : Host.Outcome State Fault Refusal := .next (ppsOutRise s)

/-- PPS_OUT_FALL. -/
def execPpsOutFall (s : State) : Host.Outcome State Fault Refusal := .next (ppsOutFall s)

/-- TIME_SNAP. -/
def execTimeSnap (m : Master) (s : State) : Host.Outcome State Fault Refusal :=
  .next (accessWrite s m 0x20000 timeSnapshot)

/-- GT_SET. -/
def execGtSet (m : Master) (s : State) : Host.Outcome State Fault Refusal :=
  .next (accessWrite s m 0x20000 gtSetArm)

/-- GT_SET_LOAD. -/
def execGtSetLoad (s : State) : Host.Outcome State Fault Refusal := .next (gtSetLoad s)

end Sys2Proof.Machine
end

