-- ==== Sys2Proof/Machine/Decide.lean ====
section
/-!
DEFINITION. From the wire to the queues: a frame's arrival, its writing into cells and its tail (R82, R90, R117,
R122, R126, R134), and the decision of a unit (R149, R157, R158).
-/
namespace Sys2Proof.Machine

/-! Arrival (R90, R97, R105, R126, R280). -/

/-- The ingress timestamp of a frame at a port now (R90). [DEDUCED, log 56] -/
def ingressStamp (s : State) (p : Nat) : Nat :=
  if 12 ≤ p ∧ p ≤ 15 then s.time.now + leAt (laneEntry (edges s) (p - 12)) 4 2 else s.time.now

/-- A frame as it comes to a port: into its staging FIFO, or before the SecY of the slot given. [DEDUCED, log 54] -/
def newPacket (s : State) (p : Nat) (f : WireFrame) (sec : Option RxCfg) : Packet :=
  { bytes := f.bytes, rxLen := f.bytes.length + 4, popped := 0, dei := arrivedDei f.bytes, port := p, slot := none,
    stamp := ingressStamp s p, written := 0, tail := 0, come := false, sec := sec, ends := none, hold := none, whole := false, preempt := f.preemptable && preemptActive s p,
    directed := if p = 49 then f.directed.map fun q => q.val else none, mgmtReq := p == 49 && f.mgmt,
    tsReq := p == 49 && f.tsReq, passes := 0, decided := false, decidedAt := 0, safety := false, mgmt := false, marked := false, fixed := false,
    tunnel := none, vid := 0, prio := 0, prov := 0, filter := none, charged := none, pool := 0, poolPort := 0,
    cells := 0, refs := 0, sent := false, slotCounted := false, route := none, routeOff := 0, needEnd := 0,
    avtpEnd := 0, ownMac := false, dropped := false }

/-- A frame entered under the next number. -/
def addPacket (s : State) (pk : Packet) : State :=
  setPacket { s with net.nextUid := s.net.nextUid + 1 } s.net.nextUid pk

/-- A frame whose reception ends: nothing of it is kept but its length and FCS are still to be tested, and why it ends
counts only once they are good (R82). [DEDUCED, log 54] -/
def endingPacket (s : State) (p : Nat) (f : WireFrame) (k : Nat) : Packet :=
  { newPacket s p f none with ends := some k, dropped := true, decided := true }

/-- A frame that no MACsec check holds enters the FIFO, if its reception goes on. -/
def stagePlain (s : State) (p : Nat) (f : WireFrame) : State :=
  let r := receiveFrame s p f.bytes
  match r.1 with
  | none => addPacket r.2 (newPacket s p f none)
  | some k => addPacket r.2 (endingPacket s p f k)

/-- FRAME_ARRIVAL at a port. P48's frames come from its transmit rings only (R339). On a port with RX_EN a frame waits
before the SecY for its tail: reassembly and the tests of R82 come before verification (R94). [DEDUCED, log 53] -/
def frameArrival (s : State) (p : Nat) (f : WireFrame) : State :=
  if !aloft s ∨ !portUp s p ∨ p = 48 then s
  else if f.verify then answerVerify s p
  else if etypeAt f.bytes 12 = 0x8808 then addPacket s (endingPacket s p f 0)
  else if p < 48 ∧ cur s (Reg.macsecCfgRxEn p) = 1 then addPacket s (newPacket s p f (some (rxCfg s (curSlot s) p)))
  else if stagingLimit ≤ stagingBytes s p then countIn s p (Reg.swStagingDrops p)
  else stagePlain s p f

/-! Writing into cells (R117). -/

/-- A frame that outgrows its pool: dropped whole, or ended if its head has left. -/
def overflowed (s : State) (u : Nat) (pk : Packet) : State :=
  tagAll (proveBad (if headLeft s u pk then s else countIn s pk.port (Reg.swOverflowDrops pk.port)) u)

/-- Further cells for a frame that has grown past its cells. [DEDUCED, log 70] -/
def growCells (s : State) (u : Nat) (pk : Packet) (n : Nat) : State :=
  if poolHas s pk n then setPacket (takeCells s pk.pool pk.poolPort n) u { pk with cells := pk.cells + n }
  else overflowed s u pk

/-- Cells that the data of a frame fills once `w` of its bytes are written; the last ones bring the FCS (R116). -/
def cellsAt (pk : Packet) (w : Nat) : Nat := cellsFor (if pk.bytes.length ≤ w then frameLen pk else w)

/-- CELL_WRITE: the next 256 bytes of the oldest frame of a port that is not wholly written. Its first bytes tag
it with the current slot (R60). A frame that has proved bad takes no further cells. -/
def cellWrite (s : State) (p : Nat) : State :=
  match firstPacket s fun pk =>
      pk.port == p && pk.sec.isNone && pk.hold.isNone && pk.ends.isNone && decide (pk.written < pk.bytes.length) with
  | none => s
  | some (u, pk) =>
    let w := min pk.bytes.length (pk.written + 256)
    if pk.dropped then setPacket s u { pk with written := w }
    else match pk.slot with
      | none => tagUnit (setPacket s u { pk with written := w, slot := some (curSlot s) }) (curSlot s)
      | some _ =>
        let x := { pk with written := w }
        let s1 := setPacket s u x
        if pk.pool ≠ 0 ∧ pk.tail ≠ 2 ∧ pk.cells < cellsAt x w then growCells s1 u x (cellsAt x w - pk.cells) else s1

/-! The tail (R82, R122, R123, R134, R180). -/

/-- Size bin of a length: the statistics object that counts it. -/
def sizeBin (n : Nat) : Nat :=
  if n ≤ 64 then 7 else if n ≤ 127 then 8 else if n ≤ 255 then 9 else if n ≤ 511 then 10
  else if n ≤ 1023 then 11 else if n ≤ 1518 then 12 else 13

/-- Group and broadcast destination counted under two objects. -/
def countCast (s : State) (p : Nat) (bs : List Byte) (multi broad : Nat) : State :=
  if bs.take 6 = List.replicate 6 0xFF then mib s p broad 1
  else if isGroupMac bs then mib s p multi 1 else s

/-- Statistics of a frame received well. [PRESUMED, log 57] -/
def countGood (s : State) (pk : Packet) : State :=
  let p := pk.port
  if 48 ≤ p then s
  else countCast (mib (mib (mib s p 0 1) p 1 (pk.rxLen - 18)) p (sizeBin pk.rxLen) 1) p pk.bytes 5 6

/-- A Clause 30 error object of a port raised; P48 and P49 have none. [PRESUMED, log 57] -/
def rxError (s : State) (p i : Nat) : State := if p < 48 then mib s p i 1 else s

/-- A reassembly error, on a port that has a MAC Merge sublayer, counts in ASM_ERRORS whatever the frame's length (R94).
[DEDUCED, log 54] -/
def asmError (s : State) (p : Nat) (asmErr : Bool) : State :=
  if asmErr ∧ preemptCap s p then bump s (Reg.preemptStatusAsmErrors p) else s

/-- What makes a frame bad at its tail, with its counting: none where it is good. A decided frame whose whole
length was not known is tested for R134; what makes it bad counts in the port's error statistics unless its head has left
(R82, R122). [DEDUCED, log 54; PRESUMED, log 57; DEDUCED, log 64] -/
def tailBad (s0 : State) (u : Nat) (pk : Packet) (fcsOk asmErr : Bool) : Option State :=
  let p := pk.port
  let s := asmError s0 p asmErr
  let fcs := fun (st : State) => if headLeft st u pk then st else rxError st p 2
  let c := if pk.decided ∨ pk.passes ≠ 0 then tailFault pk.needEnd pk.avtpEnd pk.bytes.length else 0
  if pk.rxLen < 64 then some (rxError s p 3)
  else if 10240 < pk.rxLen then some (rxError s p 4)
  else if asmErr ∧ preemptCap s0 p then some s
  else if !fcsOk then some (fcs s)
  else if c ≠ 0 then some (fcs (bump s (Reg.malCount (c - 1))))
  else none

/-- Cells reserved beyond a frame's length are returned. -/
def returnSpare (s : State) (u : Nat) (pk : Packet) : State :=
  let n := cellsFor (frameLen pk)
  if pk.pool ≠ 0 ∧ n < pk.cells then
    setPacket (giveCells s pk.pool pk.poolPort (pk.cells - n)) u { pk with cells := n }
  else s

/-- Length of a frame as meters count it: that of R82, without what POP edits have removed since. -/
def meterLen (pk : Packet) : Nat := pk.rxLen - pk.popped

/-- A meter's buckets as they stand now, refilled at the current slot's rates (R184). [DEDUCED, log 66] -/
def meterNow (s : State) (m : Nat) (x : Meter) : Meter :=
  match recOf s (curSlot s) 0x0210 (2 ^ 24 + m) with
  | some b => refill b (some x) s.time.now
  | none => x

/-- The bucket that took a frame's provisional length takes the difference to the true one, off what it holds at this
instant (R180). [DEDUCED, log 66] -/
def correctMeter (s : State) (pk : Packet) : State :=
  match pk.charged with
  | none => s
  | some (m, committed) =>
    match s.tm.meters.find m with
    | none => s
    | some x0 =>
      let x := meterNow s m x0
      let d := ((meterLen pk : Int) - pk.prov) * tokByte
      let y := if committed then { x with c := x.c - d } else { x with e := x.e - d }
      { s with tm.meters := s.tm.meters.set m y }

/-- A frame found longer than its filter's MAX_SDU only now (R182), by the filter it passed. [DEDUCED, log 66] -/
def sduLate (s : State) (pk : Packet) : State :=
  match pk.filter with
  | none => s
  | some (f, b) =>
    let most := leAt b 2 2
    if most ≠ 0 ∧ pk.prov ≤ most ∧ most < meterLen pk then bump (blockFilter s f b) (Reg.sfStateSduLate f) else s

/-- The route of an Ethernet unit that is found good; the frame waits for it no longer. [DEDUCED, log 67] -/
def runRoute (s : State) (u : Nat) (pk : Packet) : State :=
  match pk.route with
  | none => s
  | some r =>
    let s1 := setPacket s u { pk with route := none }
    releaseRef (routeFrame s1 (pk.slot.getD (curSlot s)) r pk.stamp pk.decidedAt pk.routeOff pk.bytes pk.safety) u

/-- The unit of an ingress port that was decided first among those whose route has not run (R210). [DEDUCED, log 67] -/
def nextRoute (s : State) (p : Nat) : Option (Nat × Packet) :=
  minBy (fun e => e.2.decidedAt)
    (s.net.packets.filter fun e => e.2.port == p && e.2.route.isSome && !e.2.dropped && e.2.tail != 2)

/-- Routes of an ingress port's units run in the order of their decisions, up to the first whose tail is to come.
[DEDUCED, log 67] -/
def runRoutes (p : Nat) : Nat → State → State
  | 0, s => s
  | fuel + 1, s =>
    match nextRoute s p with
    | some (u, pk) => if pk.tail = 1 then runRoutes p fuel (runRoute s u pk) else s
    | none => s

/-- The routes of a port's units that may run. -/
def routesDue (s : State) (p : Nat) : State := runRoutes p s.net.packets.length s

/-- Those of every port that has one: for what a link's loss or a discard has let pass. -/
def allRoutesDue (s : State) : State :=
  (s.net.packets.filter fun e => e.2.route.isSome).foldl (fun st e => routesDue st e.2.port) s

/-- The true length of a frame is known: what was charged by another is corrected, and its filter told, whatever has become
of the frame since (R180, R182). [DEDUCED, log 66] -/
def lengthTold (s : State) (pk : Packet) : State := sduLate (correctMeter s pk) pk

/-- A frame of which nothing is left but what its tail was to tell. -/
def forget (s : State) (u : Nat) : State := { s with net.packets := s.net.packets.del u }

/-- A frame's tail is good. -/
def goodTail (s : State) (u : Nat) (pk : Packet) : State :=
  let s0 := countGood s pk
  if pk.dropped then forget (lengthTold s0 pk) u
  else
    let x := { pk with tail := 1, come := true }
    let s1 := setPacket s0 u x
    if !pk.decided then (if pk.passes = 0 then s1 else returnSpare s1 u x)
    else
      routesDue (lengthTold (returnSpare s1 u x) x) pk.port

/-- A frame's tail is bad: one dropped since its decision has its slot moved under R376 all the same.
[DEDUCED, log 64] -/
def badTail (s : State) (u : Nat) (pk : Packet) : State :=
  let s1 := lengthTold (setPacket s u { pk with come := true }) pk
  if pk.dropped then forget (moveWasted s1 u) u
  else if !pk.decided ∧ pk.passes = 0 then freePacket s1 u
  else routesDue (tagAll (proveBad s1 u)) pk.port

/-- The tail of a frame that had proved bad before it: its length is known now, and nothing else of it is told. -/
def lateTail (s : State) (u : Nat) (pk : Packet) : State :=
  let s1 := lengthTold s pk
  if pk.dropped then forget s1 u else setPacket s1 u { pk with come := true }

/-- The tail of a frame whose reception has ended is good (R105, R278, R280). -/
def endedTail (s : State) (u : Nat) (pk : Packet) (k : Nat) : State :=
  forget (countEnd (if k = 0 then s else countGood s pk) pk.port k) u

/-- May a frame's tail come: has all before it been written, or is it one that is not written? -/
def tailReady (pk : Packet) : Bool := pk.sec.isSome || pk.ends.isSome || decide (pk.bytes.length ≤ pk.written)

/-- FRAME_TAIL: of the oldest frame of a port whose tail is to come, once all before it has been written or, before the
SecY, taken in. [DEDUCED, log 54] -/
def frameTail (s : State) (p : Nat) (fcsOk asmErr : Bool) : State :=
  match firstPacket s fun pk => pk.port == p && !pk.come with
  | none => s
  | some (u, pk) =>
    if !tailReady pk then s
    else if pk.tail ≠ 0 then lateTail s u pk
    else match tailBad s u pk fcsOk asmErr with
      | some s1 => badTail s1 u pk
      | none =>
        match pk.ends, pk.sec with
        | some k, _ => endedTail s u pk k
        | none, some cfg => secEntry (countGood s pk) u { pk with come := true } cfg
        | none, none => goodTail s u pk

/-! Buffer errors (R125). -/

/-- An uncorrectable error in a cell of a frame: counted, reported and the frame is dropped or ended. -/
def bufferError (s : State) (u port cell : Nat) : State :=
  tagAll (proveBad (recordFault (bump s Reg.swEccUncorrected) 0x0022 (faultUnit 1 port) cell) u)

/-! Edits (R155). -/

/-- The first tag after SMAC removed, if there is one. -/
def popTag (pk : Packet) : Packet :=
  if etypeAt pk.bytes 12 = 0x8100 ∨ etypeAt pk.bytes 12 = 0x88A8 then
    let cut := fun (n : Nat) => if n ≤ 16 then n else n - 4
    { pk with bytes := pk.bytes.take 12 ++ pk.bytes.drop 16, written := cut pk.written, needEnd := cut pk.needEnd,
              avtpEnd := cut pk.avtpEnd, popped := pk.popped + 4 }
  else pk

/-- The POP edit of an action block. -/
def popTags (action : List Byte) (pk : Packet) : Packet :=
  match bitsAt (u8 action 6) 4 2 with
  | 1 => popTag pk
  | 2 => popTag (popTag pk)
  | _ => pk

/-! The decision of an Ethernet unit (R149). -/

/-- What the classifier has found out about a unit: its header, its VID and priority, its rule and action, and
what containment goes by. -/
structure Classed where
  h : Hdr
  vid : Nat
  prio : Nat
  action : List Byte
  safety : Bool
  fixed : Bool
  tunnel : Option Nat
deriving DecidableEq, Repr

/-- The outcome of classification: dropped, its slot counted as retired or as wasted already and its drop counted, or decided
further. -/
inductive ClassOut where
  | drop (retired : Bool) (s : State)
  | go (c : Classed) (s : State)

/-- The VALID binding whose stream a frame is, if a tethered channel names it (R136, R208). [DEDUCED, log 83] -/
def tunnelOf (s : State) (port : Nat) (h : Hdr) : Option Nat :=
  if h.appKind ≠ 3 then none
  else (List.range 64).find? fun b =>
    let e := bindEntry (edges s) b
    (edges s).bindValid b && u8 e 2 == port && leAt e 8 8 == h.app && !((edges s).bindChans b).isEmpty

/-- The port of a fixed verdict (R135), for an 802.1AS frame on its first pass. -/
def fixedTarget (s : State) (pk : Packet) (h : Hdr) : Option Nat :=
  if h.etype ≠ 0x88F7 ∨ pk.passes ≠ 0 then none
  else if pk.port = 49 then pk.directed
  else if gptpPort s .wc pk.port ∨ gptpPort s .gt pk.port then some 49
  else none

/-- The action block of a fixed verdict: a management frame redirected to one port. -/
def fixedAction (p : Nat) : List Byte :=
  [2, 1] ++ leBytes 2 p ++ zeros 3 ++ [0xFF, 0xFF, 0xFF] ++ zeros 6

/-- A slot whose unit's decision discards it for a shadow mismatch or a Bank T error (R375). -/
def wasteSlot (s : State) (f : Fld) : State := bump (slotWaste s) f

/-- A word of Bank T that a lookup cannot read: counted and reported, or, where a scrub has marked it, already so (R314). -/
def tableBad (s : State) (off : Nat) : State :=
  if (marked s .t).contains (off / 8 * 8) then unmark s .t (off / 8 * 8) else eccError s .t (off / 8 * 8)

/-- The ternary and shadow part of the classification of a unit: its rule, action and whether it is agreed
safety; none where it is dropped in a wasted slot. -/
def matchUnit (s : State) (slot key : Nat) (edge first : Bool) (skey : Option (List Byte)) (unit : Nat)
    (ecc : DecisionEcc) : Option (Nat × List Byte × Bool) × State :=
  let r := lookup s slot (withRanges s slot key) edge
  match ecc with
  | .tableError off => (none, wasteSlot (tableBad s off) Reg.wastedTableEcc)
  | _ =>
    let sh := shadowLookup s slot skey
    if first ∧ (ecc = .shadowError ∨ !shadowAgrees r.2.2 r.2.1 sh) then
      (none, wasteSlot (shadowMismatch s r.1 sh unit) Reg.wastedShadow)
    else (some (r.1, r.2.1, first && r.2.2.isSome), s)

/-- A drop at steps 1 to 3 of R157: the slot is retired. -/
def dropRetired (s : State) : ClassOut := .drop true (slotRetire s)

/-- The action a later fragment takes from its first fragment's rule. -/
def ruleAction (s : State) (slot rule : Nat) : List Byte :=
  match recOf s slot 0x0120 rule with
  | some b => slice b 168 16
  | none => slice (parserOf s slot) 0 16

/-- A unit whose rule is found goes on to the firewall: a first fragment of a connection that is not dropped has its rule
kept for the later ones (R141, R149). -/
def ruleFound (s : State) (pk : Packet) (slot vid prio : Nat) (h : Hdr) (tun : Option Nat) (rule : Nat)
    (action : List Byte) (safety : Bool) : ClassOut :=
  match (if h.first ∧ actVerdict action ≠ 0 then fragInsert s h pk.port slot rule else some s) with
  | none => dropRetired (bump s Reg.fragStatsFragFull)
  | some s1 =>
    let isTun := tun.isSome && (actVerdict action != 0 || rule == 0xFFFF)
    .go ⟨h, vid, prio, action, safety, false, if isTun then tun else none⟩ (slotRetire s1)

/-- Classification of an Ethernet unit by the ternary array and the shadow (R149). -/
def classifyRule (s : State) (pk : Packet) (slot vid prio : Nat) (h : Hdr) (ecc : DecisionEcc) : ClassOut :=
  let key := ethKey h pk.bytes pk.passes pk.port (u8 (parserOf s slot) (88 + pk.port)) vid prio (convLookup s h vid)
  let tun := tunnelOf s pk.port h
  let skey := if pk.passes = 0 ∧ tun.isNone then ethShadowKey pk.bytes pk.port else none
  match matchUnit s slot key false (pk.passes == 0) skey (faultUnit 1 pk.port) ecc with
  | (none, s1) => .drop false s1
  | (some (rule, action, safety), s1) => ruleFound s1 pk slot vid prio h tun rule action safety

/-- Classification of an Ethernet unit that parsed well or is classified all the same. A word of Bank T that a lookup could
not read leaves every unit without its result (R314, R375). -/
def classifyParsed (s : State) (pk : Packet) (slot vid prio : Nat) (h : Hdr) (ecc : DecisionEcc) : ClassOut :=
  match ecc, fixedTarget s pk h with
  | .tableError off, _ => .drop false (wasteSlot (tableBad s off) Reg.wastedTableEcc)
  | _, some q => .go ⟨h, vid, prio, fixedAction q, false, true, none⟩ (slotRetire (bump s Reg.trapCount))
  | _, none =>
    if h.later then
      match fragLookup s h pk.port slot with
      | none => dropRetired (bump s Reg.fragUnmatched)
      | some e => .go ⟨h, vid, prio, ruleAction s slot e.rule, false, false, none⟩ (slotRetire s)
    else classifyRule s pk slot vid prio h ecc

/-- Classification of an Ethernet unit (R149, R157 steps 1 to 4). [DEDUCED, log 61] -/
def classifyFrame (s : State) (pk : Packet) (slot : Nat) (whole : Bool) (ecc : DecisionEcc) : ClassOut :=
  match ingressVlan s slot pk.port pk.bytes with
  | none => dropRetired (countIn s pk.port (Reg.swVlanDrops pk.port))
  | some (vid, prio, _) =>
    let cfg := parserOf s slot
    let rxEn := pk.port < 48 && cmtOf s slot (Reg.macsecCfgRxEn pk.port) == 1
    let h := parseFrame ⟨pk.bytes, whole, cfg, rxEn⟩
    let s1 := if h.mal ≠ 0 then bump s (Reg.malCount (h.mal - 1)) else s
    if h.mal ≠ 0 ∧ !bitAt (leAt cfg 36 4) h.mal then dropRetired s1
    else if h.exh ∧ !bitAt (leAt cfg 32 4) 0 then dropRetired (bump s1 Reg.clsExhExhDrops)
    else classifyParsed (if h.exh then bump s1 Reg.clsExhExhClassified else s1) pk slot vid prio h ecc

/-! The firewall and what follows (R157 steps 5 to 10, R158). -/

/-- A frame whose provisional length, ends and marks are those of its decision. -/
def decidedPacket (s : State) (pk : Packet) (c : Classed) (whole : Bool) (slot : Nat) : Packet :=
  let reserve := if pk.port < 50 then u8 (fwdPort s slot pk.port) 6 else 40
  { pk with
    decided := true, decidedAt := s.time.now, slotCounted := true, safety := c.safety, fixed := c.fixed, tunnel := c.tunnel,
    marked := actMgmt c.action, mgmt := actMgmt c.action || (pk.port == 49 && pk.mgmtReq), tsReq := pk.tsReq || actTs c.action,
    vid := actVid c.action c.vid, prio := actPrio c.action c.prio,
    prov := provLen c.h whole (meterLen pk) reserve, filter := none, charged := none,
    needEnd := if whole then 0 else c.h.ipEnd, avtpEnd := if whole then 0 else c.h.avtpEnd,
    route := if actVerdict c.action = 4 ∧ c.tunnel.isNone then some (leAt c.action 2 2) else none,
    routeOff := if c.h.l4 then c.h.l4Off else avtpOff pk.bytes }

/-- Cells a frame asks for at its decision (R116). -/
def askCells (s : State) (pk : Packet) (whole : Bool) (slot : Nat) : Nat :=
  if whole then cellsFor (frameLen pk) else u8 (fwdPort s slot pk.port) 6

/-- RECIRCULATE: the frame enters the P51 queue with its POP edit made. On its next pass it is of management only by
that pass's verdict (R115). -/
def recirculate (s : State) (u : Nat) (pk : Packet) (c : Classed) (whole : Bool) (slot : Nat) : State :=
  let x := popTags c.action { pk with passes := pk.passes + 1, decided := false, mgmtReq := false }
  let s1 := setPacket s u x
  if 4096 ≤ s1.net.recirc.length then dropPolicy (bump s1 (Reg.swAdmitDrops 51)) u
  else match admitOne s1 u x 51 (askCells s x whole slot) with
    | none => dropPolicy (bump s1 (refusedAt x 51)) u
    | some s2 =>
      let s3 := put { s2 with net.recirc := s2.net.recirc ++ [u] } Reg.recircStatusDepth (s2.net.recirc.length + 1)
      raiseTo s3 Reg.recircStatusHighWater (s3.net.recirc.length)

/-- A tunnel frame goes to P50 and nowhere else (R136); one admitted there counts in TUNNEL_FRAMES. [DEDUCED, log 62] -/
def toEndpoint (s : State) (u : Nat) (pk : Packet) (whole : Bool) (slot : Nat) : State :=
  match admitOne s u pk 50 (askCells s pk whole slot) with
  | none => dropPolicy (bump s (refusedAt pk 50)) u
  | some s1 => bump { s1 with edge.tunnelIn := s1.edge.tunnelIn ++ [u] } Reg.tunnelFrames

/-- Steps 8 to 10 for the targets and copies of a frame: containment at each, policing, admission. The answer is
false where policing drops the frame. -/
def sendFrame (s : State) (u : Nat) (pk : Packet) (c : Classed) (whole : Bool) (slot : Nat)
    (targets : List Nat) (atomic : Bool) (copies : List Nat) : Bool × State :=
  let admits := fun (p : Nat) => admitsPort s p (c.safety || c.fixed) (actMgmt c.action)
  let blocked := targets.filter fun p => !admits p
  let shut := (if atomic then [] else blocked) ++ copies.filter fun p => !admits p
  let s1 := shut.foldl (fun st p => bump st (Reg.contOutDrops p)) s
  let ts := if atomic then targets else targets.filter admits
  let cs := copies.filter admits
  let some1 := !cs.isEmpty || (!ts.isEmpty && !(atomic && !blocked.isEmpty))
  let (res, s2) := if some1 then police s1 u slot (leAt c.action 8 2) pk.prov pk.dei else (.pass false none, s1)
  match res with
  | .drop => (false, freePacket s2 u)
  | .pass yellow ipv =>
    let x := (packetOf s2 u).getD pk
    let leaf := fun (p : Nat) => (p, leafOf s2 slot p x.mgmt (u8 c.action 7) (ipv.getD x.prio))
    let copy := fun (p : Nat) => (p, leafOf s2 slot p x.mgmt (u8 c.action 12) x.prio)
    if ts.isEmpty ∧ cs.isEmpty then (true, dropPolicy s2 u)
    else (true, admitReplicas s2 u x (askCells s x whole slot) yellow atomic blocked (ts.map leaf) (cs.map copy))

/-- A ROUTE unit waits for its tail beside its replicas; a frame that is here whole runs its route at once, unless one of its
port decided before still waits. [DEDUCED, log 67] -/
def holdRoute (s : State) (u : Nat) (pk : Packet) : State :=
  if pk.route.isNone then s
  else
    let x := match packetOf s u with
      | some y => if y.dropped then { pk with refs := 1, pool := 0, cells := 0 } else { y with refs := y.refs + 1 }
      | none => { pk with refs := 1, pool := 0, cells := 0 }
    let s1 := if ((packetOf s u).any fun y => !y.dropped) then setPacket s u x
      else tagUnit (setPacket s u x) (pk.slot.getD (curSlot s))
    routesDue s1 x.port

/-- The firewall, the switch core and admission for a frame that the classifier delivered; the outcome of a tunnel frame
enters at step 6 of R157. [DEDUCED, log 61] -/
def firewall (s : State) (u : Nat) (pk0 : Packet) (c : Classed) (whole : Bool) (slot : Nat) : State :=
  let pk := decidedPacket s pk0 c whole slot
  let s0 := setPacket s u pk
  if actVerdict c.action = 0 ∧ c.tunnel.isNone then freePacket s0 u
  else if !admitsPort s pk.port (c.safety || c.fixed || c.tunnel.isSome) (actMgmt c.action) then
    freePacket (bump s0 (Reg.contInDrops pk.port)) u
  else match (if c.h.later ∨ c.fixed then some s0 else convUpdate s0 slot c.h c.vid c.action) with
    | none => freePacket (bump s0 Reg.convFullConvFull) u
    | some s1 =>
      if bindViolated s1 slot pk.port c.vid pk.bytes then freePacket (bump s1 Reg.swLearnSaBindViol) u
      else
        let s2 := learnFrame s1 slot pk.port pk.passes c.vid pk.bytes
        if c.tunnel.isSome then toEndpoint s2 u pk whole slot
        else match destinations s1 slot pk.port pk.passes pk.vid c.action pk.bytes with
          | .recirc => recirculate s2 u pk c whole slot
          | .drop f =>
            let s3 := freePacket (countIn s2 pk.port f) u
            if f = Reg.swNoDest pk.port then holdRoute s3 u pk else s3
          | .send ts atomic cs =>
            let r := sendFrame s2 u pk c whole slot ts atomic cs
            if r.1 then holdRoute r.2 u pk else r.2

/-- A frame decided. -/
def decideFrame (s : State) (u : Nat) (pk : Packet) (ecc : DecisionEcc) : State :=
  let slot := pk.slot.getD (curSlot s)
  let whole := 48 ≤ pk.port || pk.passes != 0 || pk.whole || decide (pk.bytes.length ≤ pk.written)
  match ecc with
  | .cellError cell =>
    bufferError (setPacket (slotRetire s) u { pk with decided := true, slotCounted := true }) u pk.port cell
  | _ =>
    match classifyFrame s pk slot whole ecc with
    | .drop retired s1 => freePacket (setPacket s1 u { pk with decided := true, slotCounted := retired }) u
    | .go c s1 => firewall s1 u pk c whole slot

/-! The decision of an edge message. -/

/-- A message leaves its receive list with its decision: its cells return. -/
def popMessage (s : State) (n : Nat) (x : EdgeMsg) : State :=
  giveEdge (setRxList s n (((s.edge.rxList.find n).getD []).drop 1)) x.guar x.cells

/-- The firewall for an edge message (R156, R158, R167). -/
def edgeFirewall (s : State) (n : Nat) (x : EdgeMsg) (action : List Byte) (safety : Bool) : State :=
  let v := actVerdict action
  if v = 0 then s
  else if v ≠ 4 then bump s Reg.convNoCreateActionKindDrops
  else if !admitsChan s n safety ∨ x.inPort.any (fun p => !admitsPort s p safety false) then bump s (Reg.contChanDrops n)
  else routeMsg s x.slot (leAt action 2 2) x safety

/-- An edge message decided. -/
def decideMsg (s : State) (n : Nat) (x : EdgeMsg) (ecc : DecisionEcc) : State :=
  let cfg := parserOf s x.slot
  let h := parseEdge x.msg
  let s1 := if h.mal ≠ 0 then bump s (Reg.malCount (h.mal - 1)) else s
  if h.mal ≠ 0 ∧ !bitAt (leAt cfg 36 4) h.mal then slotRetire s1
  else
    let key := edgeKey h x.msg n (u8 cfg (144 + n)) x.secOk
    match matchUnit s1 x.slot key true true (some (edgeShadowKey x.msg n)) (faultUnit 2 n) ecc with
    | (none, s2) => s2
    | (some (_, action, safety), s2) => edgeFirewall (slotRetire s2) n x action safety

/-- The head message of a channel, decided; an uncorrectable error in its cells drops it. -/
def decideChannel (s : State) (n : Nat) (ecc : DecisionEcc) : State :=
  match (s.edge.rxList.find n).getD [] with
  | [] => s
  | x :: _ =>
    if !x.ready then s
    else
      let s1 := popMessage s n x
      let s2 := match ecc with
        | .cellError cell =>
          let t := bump (slotWaste s1) Reg.wastedTail
          recordFault (bump t Reg.swEccUncorrected) 0x0022 (faultUnit 1 50) cell
        | _ => decideMsg s1 n x ecc
      untagUnit s2 x.slot

/-! The four sources of a slot (R22). -/

/-- A packed ACF frame takes its slot: built, and queued on its binding's port and leaf (R225). -/
def decidePacked (s : State) (b : Nat) : State :=
  match (s.edge.packed.find b).getD [] with
  | [] => s
  | (p, seq) :: rest =>
    let e := bindEntry (edges s) b
    let port := u8 e 2
    let s1 := { s with edge.packed := s.edge.packed.put b (if rest.isEmpty then none else some rest) }
    let smac := slice (portEntry (edges s) port) 8 6
    let f := avtpFrame (slice e 24 6) smac (bitAt (leAt e 0 2) 1) (slice e 16 8).reverse seq p.acf
    let pk := edgePacket s1 f p.slot (leAt e 4 2) (u8 e 6) false (some b)
    untagUnit (admitEdgeFrame (slotRetire s1) pk [port] false (u8 e 3)) p.slot

/-- Has a frame's head arrived, so that it may take its slot (R129)? -/
def headIn (pk : Packet) : Bool := pk.slot.isSome && decide (min 256 pk.bytes.length ≤ pk.written)

/-- The head frame of P51, decided afresh: its cells are those of its next admission. -/
def decideRecirc (s : State) (ecc : DecisionEcc) : State :=
  match s.net.recirc with
  | [] => s
  | u :: us =>
    match packetOf s u with
    | none => { s with net.recirc := us }
    | some pk =>
      if pk.tail ≠ 1 then s
      else
        let s1 := put { s with net.recirc := us } Reg.recircStatusDepth us.length
        let s2 := giveCells s1 pk.pool pk.poolPort pk.cells
        let x := { pk with pool := 0, cells := 0, refs := 0 }
        decideFrame (setPacket s2 u x) u x ecc

/-- The oldest undecided frame of a port's staging FIFO. -/
def nextFrame (s : State) (p : Nat) : Option (Nat × Packet) :=
  firstPacket s fun pk => pk.port == p && pk.passes == 0 && !pk.decided && pk.sec.isNone && pk.hold.isNone

/-- Has a source a unit ready for a slot? [DESIGN CHOICE, log 59] -/
def sourceReady (s : State) : UnitSource → Bool
  | .port p => (nextFrame s p).any fun e => headIn e.2
  | .channel n => (((s.edge.rxList.find n.val).getD []).head?).any fun x => x.ready
  | .packed b => !((s.edge.packed.find b.val).getD []).isEmpty
  | .recirc => (s.net.recirc.head?).any fun u => (packetOf s u).any fun pk => pk.tail == 1

/-- The staging FIFO a source's units wait in: P0 to P49's own, or P50's. -/
def stagingOf : UnitSource → Nat
  | .port p => p.val
  | _ => 50

/-- Does a staging FIFO hold a unit that is ready? -/
def stagingReady (s : State) (k : Nat) : Bool :=
  if h : k < 50 then sourceReady s (.port ⟨k, h⟩)
  else (s.edge.rxList.any fun e => (e.2.head?).any fun x => x.ready) || s.edge.packed.any fun e => !e.2.isEmpty

/-- The staging FIFO whose turn it is: the first ready one after the one served last (R22). [DESIGN CHOICE, log 59] -/
def stagingTurn (s : State) : Option Nat :=
  ((List.range 51).map fun i => (s.net.lastServed + 1 + i) % 51).find? (stagingReady s)

/-- Is the next slot reserved for P51, which has a frame ready: every fourth one (R22)? [DESIGN CHOICE, log 59] -/
def slotReserved (s : State) : Bool := get s Reg.slotTotal % 4 == 0 && sourceReady s .recirc

/-- Does the arbiter offer the next slot to a source with a unit ready: P51 in its reserved slots, the staging FIFOs in
turn in all others (R22)? [DESIGN CHOICE, log 59] -/
def sourceOffered (s : State) (src : UnitSource) : Bool :=
  sourceReady s src &&
    (match src with
     | .recirc => slotReserved s
     | _ => !slotReserved s && stagingTurn s == some (stagingOf src))

/-- The source served is noted for the turn of the staging FIFOs. -/
def noteServed (s : State) (src : UnitSource) : State :=
  match src with
  | .recirc => s
  | _ => { s with net.lastServed := stagingOf src }

/-- An error that ECC corrected for a decision is counted (R125, R314). -/
def noteCorrected (s : State) (ecc : DecisionEcc) : State :=
  match ecc with
  | .cellCorrected => bump s Reg.swEccCorrected
  | .tableCorrected => bump s (Reg.bankEccEccCorr 3)
  | _ => s

/-- UNIT_DECISION: the source's unit takes a slot, if the arbiter offers it one. [DESIGN CHOICE, log 59] -/
def unitDecision (s0 : State) (src : UnitSource) (ecc : DecisionEcc) : State :=
  if !aloft s0 ∨ !sourceOffered s0 src then s0
  else
    let s := noteServed s0 src
    match src with
    | .port p => (match nextFrame s p with
      | some (u, pk) => decideFrame (noteCorrected s ecc) u pk ecc
      | none => s)
    | .channel n => decideChannel (noteCorrected s ecc) n ecc
    | .packed b => decidePacked s b
    | .recirc => decideRecirc (noteCorrected s ecc) ecc

/-! Meanings. -/

/-- FRAME_ARRIVAL. -/
def execFrameArrival (p : Fin 50) (f : WireFrame) (s : State) : Host.Outcome State Fault Refusal :=
  .next (frameArrival s p f)

/-- CELL_WRITE. -/
def execCellWrite (p : Fin 52) (s : State) : Host.Outcome State Fault Refusal := .next (cellWrite s p)

/-- FRAME_TAIL. -/
def execFrameTail (p : Fin 52) (fcsOk asmErr : Bool) (s : State) : Host.Outcome State Fault Refusal :=
  .next (frameTail s p fcsOk asmErr)

/-- UNIT_DECISION. -/
def execUnitDecision (src : UnitSource) (ecc : DecisionEcc) (s : State) : Host.Outcome State Fault Refusal :=
  .next (unitDecision s src ecc)

end Sys2Proof.Machine
end

