-- ==== Sys2Proof/Machine/Transmit.lean ====
section
/-!
DEFINITION. Transmission on the ports: a frame as it leaves (R107, R98), selection by gates, shapers and weighted
fair queueing (R187 to R189, R196, R197), and the end of a transmission (R91, R116, R123, R191).
-/
namespace Sys2Proof.Machine

/-! Selection (R189). -/

/-- May a stored or cut-through replica be selected (R122)? -/
def releasable (s : State) (r : Replica) : Bool :=
  (repPacket s r).any fun pk =>
    (pk.tail == 1 && decide (pk.bytes.length ≤ pk.written)) || (r.ct && pk.tail == 0)

/-- Is a service node served by a MAC: the preemptable one, or else the express one (R188, R195)? -/
def nodeServed (s : State) (p node : Nat) (preemptable : Bool) : Bool :=
  bitAt (gateStates s p) node && nodePreemptable s p node == preemptable

/-- The leaves of a node whose head may be selected but for length-aware admission. -/
def nodeHeads (s : State) (p node : Nat) : List (Nat × Replica × Packet) :=
  (List.range 64).filterMap fun q =>
    if leafNode s p q ≠ node ∨ !leafEligible s p q then none
    else match headOf s p q with
      | none => none
      | some r => if releasable s r then (repPacket s r).map fun pk => (q, r, pk) else none

/-- A head that can never fit (R197). -/
def neverFitHead (s : State) (p node : Nat) : Option (Nat × Replica × Packet) :=
  (nodeHeads s p node).find? fun c => neverFits s p node (wireLen s p c.2.2)

/-- A finish tag in the order of tags that wrap at 64 bits, those behind the virtual time before those ahead of it (R187).
[DEDUCED, log 132] -/
def tagOrder (v x : Nat) : Nat := (tagAhead v x + 2 ^ 63) % 2 ^ 64

/-- The head a node offers: leaf 63 first, else the smallest finish tag, the lowest leaf on a tie. -/
def nodePick (s : State) (p node : Nat) : Option (Nat × Replica × Packet) :=
  let cand := (nodeHeads s p node).filter fun c => fits s p node (wireLen s p c.2.2)
  match cand.find? fun c => c.1 == 63 with
  | some c => some c
  | none => minBy (fun c => tagOrder (vtimeOf s p node) (c.2.1.ftag.getD 0)) cand

/-- Service nodes from 7 down to 0. -/
def nodesDown : List Nat := [7, 6, 5, 4, 3, 2, 1, 0]

/-- Is a MAC free to start a frame? The preemptable one while it is not held; the express one once the frame on the
preemptable MAC has stopped or may be interrupted, or has ended where preemption is no longer active. -/
def macFree (s : State) (p : Nat) (preemptable : Bool) : Bool :=
  !s.net.macs.has (2 * p + b2n preemptable) &&
    (if preemptable then preemptActive s p && !macHeld s p
     else if preemptActive s p then mayInterrupt s p else !s.net.macs.has (2 * p + 1))

/-- The head replica taken off its leaf. -/
def popHead (s : State) (p q : Nat) : State := setQueue s p q ((queueOf s p q).drop 1)

/-- A replica that cannot be sent is discarded, and counted. -/
def discardHead (s : State) (p q : Nat) (r : Replica) (f : Fld) : State := releaseRef (bump (popHead s p q) f) r.uid

/-- A replica that egress containment discards: policy, which moves no slot (R376). -/
def containHead (s : State) (p q : Nat) (r : Replica) : State :=
  releasePolicy (bump (popHead s p q) (if r.atomic then Reg.swAtomicLateDrops p else Reg.contOutDrops p)) r.uid

/-- The buckets and the virtual time charged for a selection; the leaf's next head is tagged if it is eligible. -/
def chargeSelection (s : State) (p q : Nat) (r : Replica) (l : Nat) : State :=
  let s1 := chargePort (chargeLeaf s p q l) p l
  if q = 63 then s1
  else
    let f := r.ftag.getD 0
    let k := 8 * p + leafNode s p q
    tagHead p q { s1 with tm.vtime := s1.tm.vtime.set k (laterTag (vtimeOf s p (leafNode s p q)) f),
                          tm.fprev := s1.tm.fprev.set (64 * p + q) f }

/-- A frame starts on a MAC. An express start stops the preemptable MAC. A cut-through replica that starts before
its tail is in counts in CT_FRAMES. [DEDUCED, log 72] -/
def startTx (s : State) (p q : Nat) (preemptable : Bool) (r : Replica) (pk : Packet) (bs : List Byte) (l : Nat)
    (key : Option (Nat × Nat)) : State :=
  let no := (s.net.frameNo.find p).getD 0
  let t : Tx := { rep := r, leaf := q, bytes := bs, charged := l, egress := egressStamp s p,
                  rest := wireNs s p (bs.length + 24), startAt := s.time.now,
                  running := !(preemptable && s.net.macs.has (2 * p)), key := key,
                  overrun := false, stomp := false, early := pk.tail == 0, number := no, frags := 0, sent := 0,
                  cutAt := none }
  let s0 := if preemptable then { s with net.frameNo := s.net.frameNo.put p (if no = 3 then none else some (no + 1)) } else s
  let s1 := { s0 with net.macs := s0.net.macs.set (2 * p + b2n preemptable) t }
  settlePreempt (if r.ct ∧ pk.tail = 0 then bump s1 (Reg.swCtFrames p) else s1) p

/-- A frame selected on P48 is written to its receive ring (R338): one the ring cannot take is dropped.
[DEDUCED, log 73] -/
def toRing (s : State) (q : Nat) (r : Replica) (pk : Packet) (bs : List Byte) (l : Nat) : State :=
  let slot := pk.slot.getD (curSlot s)
  let d := rxDeliver s (rxMap s slot q) bs pk.stamp pk.port slot pk.mgmt
  if d.1 then startTx d.2 48 q false r pk bs l none else releaseRef d.2 r.uid

/-- A head that has been chosen is sent. The answer is false where it was discarded without counting as a
selection. -/
def sendHead (s0 : State) (p q : Nat) (preemptable : Bool) (ecc : EccKind) (r : Replica)
    (pk : Packet) : Bool × State :=
  let s := if ecc == .corrected then bump s0 Reg.swEccCorrected else s0
  let slot := pk.slot.getD (curSlot s)
  if !admitsPort s p (pk.safety || pk.fixed || pk.tunnel.isSome) pk.marked then
    (false, containHead s p q r)
  else if ecc == .uncorrectable then
    let d := draw (popHead s p q) 98304
    (true, bufferError d.2 r.uid pk.port d.1)
  else
    let bs := egressBytes s p pk
    let l := wireLen s p pk
    if !txProtected s slot p pk.bytes then
      let s1 := chargeSelection (popHead s p q) p q r l
      (true, if p = 48 then toRing s1 q r pk bs l else startTx s1 p q preemptable r pk bs l none)
    else if 10240 < bs.length + 4 + txOverhead s slot p pk.bytes then (false, discardHead s p q r (Reg.portTxSaDrops p))
    else match protectFrame s slot p bs with
      | (none, s1) => (false, discardHead s1 p q r (Reg.portTxSaDrops p))
      | (some (x, key, gen), s1) =>
        (true, startTx (chargeSelection (popHead s1 p q) p q r l) p q preemptable r pk x l (some (key, gen)))

/-- Heads dropped and a head selected, until one is sent or none is left. A head that can never fit is dropped
whatever its gate's state (R197). [DEDUCED, log 72] -/
def selectLoop (p : Nat) (preemptable : Bool) (ecc : EccKind) : Nat → State → State
  | 0, s => s
  | fuel + 1, s0 =>
    let s := tagHeads s0 p
    let mine := nodesDown.filter fun n => nodePreemptable s p n == preemptable
    match mine.findSome? fun n => neverFitHead s p n with
    | some (q, r, _) => selectLoop p preemptable ecc fuel (discardHead s p q r (Reg.tmFitNeverFit p))
    | none =>
      match (nodesDown.filter fun n => nodeServed s p n preemptable).findSome? fun n => nodePick s p n with
      | none => s
      | some (q, r, pk) =>
        let x := sendHead s p q preemptable ecc r pk
        if x.1 then x.2 else selectLoop p preemptable ecc fuel x.2

/-- Replicas queued on a port. -/
def portDepth (s : State) (p : Nat) : Nat := ((List.range 64).map fun q => (queueOf s p q).length).sum

/-- FRAME_SELECT: P50 and P51 have no MAC. [DEDUCED, log 72] -/
def frameSelect (s : State) (p : Nat) (mac : MacKind) (ecc : EccKind) : State :=
  let pre := mac == .preemptable
  if 50 ≤ p ∨ !aloft s then s
  else
    let s1 := gateSync s p
    if !portUp s1 p ∨ !macFree s1 p pre ∨ !portEligible s1 p then s1
    else selectLoop p pre ecc (portDepth s1 p + 1) s1

/-! The end of a transmission (R116). -/

/-- Statistics of a frame sent: those of the port and of its leaf. [PRESUMED, log 57] -/
def countSent (s : State) (p q : Nat) (bs : List Byte) : State :=
  let k := (64 * p + q) * 2
  let n := fun (m : SMap Nat) (i d : Nat) => m.set i (((m.find i).getD 0 + d) % 2 ^ 64)
  let s1 := { s with net.leafTx := n (n s.net.leafTx k 1) (k + 1) (bs.length + 4) }
  let s2 := mib (mib s1 p 14 1) p 15 (bs.length - 14)
  if p < 48 then countCast s2 p bs 16 17 else s2

/-- The transmit descriptors that wait for a frame take its first egress timestamp (R339). -/
def stampWaiting (s : State) (u t : Nat) : State :=
  { s with host.rings := s.host.rings.mapVals fun _ r =>
      { r with waiting := r.waiting.map fun w => if w.unit = some u ∧ w.time.isNone then { w with time := some t } else w } }

/-- A frame selected before its tail is charged the difference to the length it has been sent with, a stomped one as
well (R180, R191). -/
def correctShaper (s : State) (p : Nat) (t : Tx) : State :=
  if t.early then
    let d : Int := ((t.bytes.length + 4 + ovhOf s p : Nat) : Int) - t.charged
    chargePort (chargeLeaf s p t.leaf d) p d
  else s

/-- A replica that has been sent. [DEDUCED, log 73] -/
def finishTx (s : State) (p : Nat) (t : Tx) (pk : Packet) : State :=
  let u := t.rep.uid
  let s1 := if t.stomp then s
    else
      let s2 := countSent (stampWaiting (setPacket s u { pk with sent := true }) u t.egress) p t.leaf t.bytes
      if pk.port = 50 then (match pk.tunnel with
        | some b => bump s2 (Reg.bindTxTunnel b)
        | none => s2)
      else s2
  releaseRef (correctShaper s1 p t) u

/-- Does the sender of a frame from P49 get its egress timestamp back: one requested by firmware or by a verdict, or an
802.1AS event message on a gPTP port (R91)? Sync, Pdelay_Req and Pdelay_Resp are the event messages.
[PRESUMED, log 133] -/
def wantsCapture (s : State) (p : Nat) (pk : Packet) : Bool :=
  pk.port == 49 && (pk.tsReq ||
    ((gptpPort s .wc p || gptpPort s .gt p) && etypeAt pk.bytes 12 == 0x88F7 && [0, 2, 3].contains (u8 pk.bytes 14 % 16)))

/-- What leaves at the end of a transmission: the last fragment of a preemptable frame, the frame with the timestamp it
is delivered with, which at P49 is that of its ingress, and the capture its sender gets (R90 to R92). -/
def emitFrame (s : State) (p : Nat) (preemptable : Bool) (t : Tx) (pk : Packet) : State :=
  let s1 := if preemptable then
      emit s (.mpacket p (if t.frags = 0 then .start else .cont) t.number ((t.frags - 1) % 4) (t.bytes.drop t.sent))
    else s
  let s2 := if p = 48 then s1
    else emit s1 (.frame p preemptable t.bytes t.stomp (if p = 49 then pk.stamp else t.egress))
  if p < 48 ∧ !t.stomp ∧ wantsCapture s p pk then emit s2 (.capture p t.egress pk.bytes) else s2

/-- FRAME_TRANSMIT_END: once the line time is over, and the frame's tail is in or its end is stomped. -/
def transmitEnd (s0 : State) (p : Nat) (mac : MacKind) : State :=
  let k := 2 * p + b2n (mac == .preemptable)
  let s := reachCut s0 p
  match s.net.macs.find k with
  | none => s
  | some t =>
    match packetOf s t.rep.uid with
    | none => { s with net.macs := s.net.macs.del k }
    | some pk =>
      if !t.running ∨ s.time.now < t.startAt + t.rest ∨ (pk.tail = 0 ∧ !t.stomp) then s
      else
        let s1 := { s with net.macs := s.net.macs.del k }
        settlePreempt (finishTx (emitFrame s1 p (mac == .preemptable) t pk) p t pk) p

/-! Meanings. -/

/-- FRAME_SELECT. -/
def execFrameSelect (p : Fin 52) (mac : MacKind) (ecc : EccKind) (s : State) : Host.Outcome State Fault Refusal :=
  .next (frameSelect s p mac ecc)

/-- FRAME_TRANSMIT_END. -/
def execFrameTransmitEnd (p : Fin 52) (mac : MacKind) (s : State) : Host.Outcome State Fault Refusal :=
  .next (transmitEnd s p mac)

end Sys2Proof.Machine
end

