-- ==== Sys2Proof/Machine/Reset.lean ====
section
/-!
DEFINITION. What outlives a loss of supply and a device reset (R410 to R414), and the wake events of the
always-on domain (R283, R286, R411).
-/
namespace Sys2Proof.Machine

/-- Slots that an erase or a write cut short leaves unusable (R414): the slot a mailbox command names, or the inactive
one. -/
def cutShort (s : State) : List Bool :=
  match s.img.rom, s.img.op with
  | some (op, b, _), _ => if op ≤ 2 then b :: s.img.spoiled else s.img.spoiled
  | none, some (op, _) => if op ≤ 2 then (!s.boot.slotB) :: s.img.spoiled else s.img.spoiled
  | none, none => s.img.spoiled

/-- Is an entry of the scoresheet being appended: a job of the safety pair that has started and may write? -/
def appendRuns (s : State) : Bool :=
  sheetWritable s && (s.jobs.running.find 0).any fun j => match j.kind with
    | .sbSeal _ _ => true
    | _ => false

/-- The scoresheet after a reset or a loss of supply: an append in hand has not written its entry, and the next one takes the
following position with the same SEQ (R414). [DEDUCED, log 96] -/
def sheetCut (s : State) : SheetSt :=
  { s.sheet with reading := false, next := if appendRuns s then s.sheet.next + 1 else s.sheet.next }

/-- The machine without supply that keeps what flash and fuses hold, with the levels of its pins: firmware slots,
scoresheet, vault blob region, OTP. An erase or a write in hand leaves its slot unusable (R414). -/
def powerOff (s : State) : State :=
  { State.reset with
    pending := s.pending
    time.now := s.time.now
    mem.flashA := s.mem.flashA, mem.flashB := s.mem.flashB
    otp := s.otp
    sheet := sheetCut s
    vault.copies := s.vault.copies, vault.badBlocks := s.vault.badBlocks
    edge.fvSaves := s.edge.fvSaves
    img.spoiled := cutShort s
    host.perstN := s.host.perstN
    cont.pinLow := s.cont.pinLow, cont.fellAt := s.cont.fellAt, cont.roseAt := s.cont.roseAt
    boot.resetPin := s.boot.resetPin, boot.straps := s.boot.straps
    wake.pinsActive := s.wake.pinsActive
    io := { State.reset.io with resp := s.io.resp, out := s.io.out }
    freeCtr := s.freeCtr }

/-- WAKE_CAUSE bits [9:0]. -/
def wakeCauseFlds : List Fld :=
  [Reg.wakeCauseSwMatch, Reg.wakeCauseSwErrcnt, Reg.wakeCauseSwWup, Reg.wakeCauseLin, Reg.wakeCausePin,
   Reg.wakeCauseTc10, Reg.wakeCausePerst, Reg.wakeCauseTimer, Reg.wakeCauseLatched, Reg.wakeCauseRetentionLost]

/-- Fields kept across a device reset (R412). -/
def keptFlds : List Fld :=
  [Reg.vaultStatusTamperLatch, Reg.vaultStatusTamperCause, Reg.fcSafeCode, Reg.fcSafeByEsc, Reg.fcSafeTempo] ++
  wakeCauseFlds ++ [Reg.wakeCauseSource] ++ (List.range 48).map Reg.trainStatusCoefValid

/-- The WAKE globals in force: the current slot's while it is there, else those the always-on domain keeps. -/
def wakeInForce (s : State) : List Byte := if aloft s then wakeGlobals s else s.wake.globals

/-- Is the cold boot in hand a wake from Parked (R279)? -/
def fromParked (s : State) : Bool := s.boot.cause == 6 && get s Reg.wakeCauseFrom == 2

/-- INH_MODE of INH[i] in the WAKE globals in force. [DEDUCED, log 139] -/
def inhMode (s : State) (i : Nat) : Nat := bitsAt (u8 (wakeInForce s) 8) (2 * i) 2

/-- Is INH[i] high (R275, R416)? A cold boot keeps it low up to Aloft, but for a wake from Parked, whose wake latch has
raised it as it does in a wake from Moored. [DEDUCED, log 139] -/
def inhHigh (s : State) (i : Nat) : Bool :=
  inhMode s i != 2 && !s.boot.resetPin &&
  match s.boot.phase with
  | .aloft => true
  | .cutoff => s.wake.latch || (inhMode s i == 1 && !flag s Reg.pwrStatusTarget)
  | .moored => s.wake.latch || inhMode s i == 1
  | .wakeRising => true
  | .wakeCheck => true
  | .wakeTrain => true
  | .parked => s.wake.latch
  | .rising => fromParked s
  | .memInit => fromParked s
  | .imagePass => fromParked s
  | .starting => fromParked s
  | .halted => fromParked s
  | .recovery => fromParked s
  | .inReset => false
  | .off => false

/-- A device reset begins (R410 to R414): everything in progress ends, and the switch die is held in reset with
the rails up. `cause` is the boot cause of the cold boot to come. [DEDUCED, log 100] -/
def deviceReset (s : State) (cause : Nat) : State :=
  let z := powerOff s
  let s1 := { z with
    vault.tamperPower := s.vault.tamperPower, vault.tamperUnreported := s.vault.tamperUnreported
    vault.entropyUnreported := s.vault.entropyUnreported
    fault.toJournal := s.fault.toJournal
    net.partnerSig := s.net.partnerSig, net.trainedAs := s.net.trainedAs
    cont.pinLatched := s.cont.pinLatched
    wake.globals := wakeInForce s, wake.sleepDecoders := s.wake.sleepDecoders
    wake.decoders := s.wake.sleepDecoders, wake.armed := !s.wake.sleepDecoders.isEmpty
    boot.phase := .inReset, boot.phaseAt := s.time.now, boot.cause := cause, boot.thermalHeld := s.boot.thermalHeld }
  keptFlds.foldl (fun st f => put st f (get s f)) (putFlag s1 Reg.fcStatusFaultN true)

/-! Wake events (R283, R286, R411). -/

/-- A wake event recorded in WAKE_CAUSE; SOURCE names the first one. [DEDUCED, log 99] -/
def noteWake (s : State) (f : Fld) (source : Nat) (first : Bool) : State :=
  put (if first then put s Reg.wakeCauseSource (source % 256) else s) f 1

/-- A wake event registers. `moored`, `parked`, `descent` and `reset` say whether the source acts in Moored, in
Parked, during a descent before its point of no return, and while the switch die is held in reset. It aborts a
descent, sets the wake latch from the point of no return until the device has woken, and in reset sets its
WAKE_CAUSE bit and changes nothing else (R411). [DEDUCED, log 99] -/
def registerWake (s : State) (f : Fld) (source : Nat) (moored parked descent reset : Bool) : State :=
  let latchIt := fun (st : State) =>
    { noteWake st f source (!st.wake.latch) with
      wake.latch := true, wake.wokeAt := if st.wake.latch then st.wake.wokeAt else st.time.now }
  match s.boot.phase with
  | .aloft => if descent then requestAbort s 1 (source % 256) else s
  | .cutoff => if moored then latchIt (put s Reg.wakeCauseLatched 1) else s
  | .moored => if moored then latchIt s else s
  | .parked => if parked then latchIt s else s
  | .wakeRising => if moored then latchIt s else s
  | .wakeCheck => if moored then latchIt s else s
  | .wakeTrain => if moored then latchIt s else s
  | .rising => if reset then put s f 1 else s
  | .inReset => if reset then put s f 1 else s
  | _ => s

/-! The states of the pins (R416). -/

/-- The pins of R416's table, in its groups. -/
inductive PinGroup where
  | can | lin | inputs | inh (i : Fin 2) | ethernet | peTx | peWakeN | clkreqN | mspiIntN | ready | ppsOut | faultN | mspiSdo
  | tdo | gpio
deriving DecidableEq, Repr

/-- What a pin does: high impedance; recessive; an input; released; low or high; or what the block that drives it does. -/
inductive PinState where
  | highZ | recessive | input | released | low | high | block
deriving DecidableEq, Repr

/-- The in-reset state of a pin (R416). [DEDUCED, log 106] -/
def pinInReset : PinGroup → PinState
  | .can => .recessive
  | .lin => .recessive
  | .inputs => .input
  | .inh _ => .low
  | .peWakeN => .released
  | .clkreqN => .released
  | .mspiIntN => .released
  | .ready => .low
  | .ppsOut => .low
  | .faultN => .low
  | _ => .highZ

/-- The state of a pin without supply (R416): as in reset, but that CAN drives nothing. -/
def pinUnpowered : PinGroup → PinState
  | .can => .highZ
  | g => pinInReset g

/-- A level as a pin shows it. -/
def pinLevel (high : Bool) : PinState := if high then .high else .low

/-- Has the block behind a pin started? The links and the buses of the edge complex start with forwarding or at the release of
the switch die in a wake, the endpoint and the TAP with the release of the switch die, the SPI port and the general pins with
READY. -/
def pinStarted (s : State) : PinGroup → Bool
  | .ethernet => aloft s || s.boot.phase == .wakeCheck || s.boot.phase == .wakeTrain
  | .peTx => dieRuns s
  | .clkreqN => dieRuns s
  | .tdo => dieRuns s
  | .peWakeN => dieRuns s
  | .inputs => false
  | .inh _ => true
  | _ => aloft s

/-- What drives a pin whose block has started. -/
def pinDriven (s : State) : PinGroup → PinState
  | .inh i => pinLevel (inhHigh s i.val)
  | .peWakeN => if flag s Reg.hbStatusPeWake then .low else .released
  | .ready => pinLevel (flag s Reg.bootStatusReady)
  | .ppsOut => pinLevel s.time.ppsOutHigh
  | .faultN => if flag s Reg.fcStatusFaultN then .low else .released
  | _ => .block

/-- The state of a pin: without supply, or in its in-reset state until its block starts (R416, R436).
[DEDUCED, log 106] -/
def pinOf (s : State) (g : PinGroup) : PinState :=
  if s.boot.phase = .off then pinUnpowered g else if pinStarted s g then pinDriven s g else pinInReset g

end Sys2Proof.Machine
end

