-- ==== Sys2Proof/Machine/Wake.lean ====
section
/-!
DEFINITION. Wake, sleep and descent (chapter 11): the sleep agreement, the phases of descent, aborts, the wake
sources, and the way from a wake event to forwarding.
-/
namespace Sys2Proof.Machine

/-! The sleep agreement (R277). -/

/-- FLAGS byte of a WAKE pin: [0] EN, [1] ACTIVE_HIGH, [2] HOLD. -/
def wakePinCfg (g : List Byte) (i : Nat) : Nat := u8 g (9 + i)

/-- Is a WAKE pin with HOLD at its active level? -/
def pinHolds (s : State) : Bool :=
  (List.range 4).any fun i => bitAt (wakePinCfg (wakeGlobals s) i) 2 && s.wake.pinsActive.contains i

/-- Is a network awake and not suppressed? -/
def netBlocks (s : State) : Bool := (List.range 32).any fun n => netAwake s n && !netSuppressed s n

/-- Castling or a life-cycle change is in progress. -/
def changeRuns (s : State) : Bool := get s Reg.imgStatusPhase != 0 || flag s Reg.lcStatusLcBusy

/-- SAFE_STATE, or an unacknowledged record of CONTAIN or higher. -/
def faultBlocks (s : State) : Bool := flag s Reg.fcStatusSafeState || s.fault.recs.any fun r => decide (2 ≤ r.sev)

/-- PWR_STATUS.BLOCKERS (R277, R297). -/
def blockers (s : State) : Nat :=
  b2n (netBlocks s) + 2 * b2n (pinHolds s) + 4 * b2n (flag s Reg.pwrCtlHostHold) + 8 * b2n (changeRuns s) +
  16 * b2n (faultBlocks s) + 32 * b2n (!bitAt (leAt (wakeGlobals s) 0 2) 0 && !s.wake.requested)

/-- The agreement at a boundary: FORCE skips the network, pin and hold conditions there. The safety pair grants it
unless one of the last two conditions fails. -/
def sleepAgreement (s : State) : State :=
  let force := s.wake.reqForce
  let block := if force then blockers s / 8 else blockers s
  let s0 := { s with wake.reqForce := false }
  if descentPhase s ≠ 0 ∨ block ≠ 0 then s0
  else
    let parked := bitAt (leAt (wakeGlobals s) 0 2) 1 || s.wake.reqParked
    let s1 := putFlag (putFlag (put s0 Reg.pwrStatusPhase 1) Reg.pwrStatusTarget parked) Reg.pwrStatusForced force
    raiseSource (raiseSource { s1 with wake.phaseTempo := tempoNo s, wake.abortFor := none } 3) 17

/-- A write of PWR_CTL: HB, SP and the general cores alone. A request is ignored once a descent has begun.
[DEDUCED, log 101] -/
def pwrCtlWrite (s : State) (m : Master) (w : Nat) : State :=
  if m == .dbg then s
  else
    let s1 := putFlag s Reg.pwrCtlHostHold (bitAt w 3)
    let s2 := if bitAt w 3 then requestAbort s1 3 0 else s1
    if bitAt w 0 ∧ descentPhase s2 = 0 then
      { s2 with wake.requested := true, wake.reqParked := bitAt w 1, wake.reqForce := bitAt w 2 }
    else s2

/-! Phases of descent (R279 to R283). -/

/-- Is an abort to take effect at the boundary in hand: the first at least 2 us after its event (R284)?
[DEDUCED, log 101] -/
def abortDue (s : State) : Bool := s.wake.abortFor.any fun a => decide (a.1 + 2000 ≤ s.time.tempoLocal)

/-- May a phase end now: at a boundary at which no abort takes effect, in this phase? -/
def phaseMay (s : State) (ph : Nat) : Bool := aloft s && atBoundary s && descentPhase s == ph && !abortDue s

/-- Have this many tempos passed in the phase? -/
def phaseSpent (s : State) (n : Nat) : Bool := decide (s.wake.phaseTempo + n ≤ tempoNo s)

/-- The next phase begins. -/
def enterPhase (s : State) (ph : Nat) : State :=
  { put s Reg.pwrStatusPhase ph with wake.phaseTempo := tempoNo s }

/-- DESCENT_DRAIN: ingress closes (R280). -/
def descentDrain (s : State) : State :=
  if phaseMay s 1 ∧ phaseSpent s (leAt (wakeGlobals s) 2 2) then enterPhase s 2 else s

/-- Is every queue empty, and every slot but the current one free? -/
def drained (s : State) : Bool :=
  (s.net.packets.all fun e => e.2.dropped) && s.edge.rxList.isEmpty && s.edge.txq.isEmpty && s.edge.again.isEmpty &&
  s.edge.offered.isEmpty && s.edge.secJobs.isEmpty && s.edge.packers.isEmpty && s.edge.packed.isEmpty &&
  (List.range 4).all fun i => i == curSlot s || slotState s i == 0

/-- A frame discarded as a descent empties the queues: replicas in transmission go on unless `cut`. -/
def discardFrame (cut : Bool) (s : State) (u : Nat) : State :=
  match packetOf s u with
  | none => s
  | some pk =>
    let on := (s.net.macs.filter fun e => e.2.rep.uid == u).length
    if pk.dropped then s
    else if on = 0 ∨ cut then dropPolicy (bump s Reg.descentDiscards) u
    else if on < pk.refs then setPacket (bump s Reg.descentDiscards) u { pk with refs := on, route := none }
    else s

/-- Every frame still held is discarded. -/
def discardFrames (s : State) (cut : Bool) : State :=
  let s1 := { s with net.queues := [], net.recirc := [], edge.tunnelIn := [] }
  let s2 := (s.net.packets.map fun e => e.1).foldl (discardFrame cut) (put s1 Reg.recircStatusDepth 0)
  if cut then { s2 with net.macs := [] } else s2

/-- A message with its cells discarded. -/
def discardMsg (s : State) (q : QMsg) : State := releaseMsg (bump s Reg.descentDiscards) q

/-- Every edge message still held is discarded; a CAN frame in progress completes unless `cut`. -/
def discardEdge (s : State) (cut : Bool) : State :=
  let s1 := s.edge.rxList.foldl (fun (st : State) (e : Nat × List EdgeMsg) =>
    setRxList (e.2.foldl (fun t x => dropReceived t x Reg.descentDiscards) st) e.1 []) s
  let s2 := s1.edge.again.foldl (fun (st : State) (e : Nat × List QMsg) => setAgain (e.2.foldl discardMsg st) e.1 []) s1
  let s3 := s2.edge.txq.foldl (fun (st : State) (e : Nat × List QMsg) => setTxq (e.2.foldl discardMsg st) e.1 []) s2
  let s4 := s3.edge.secJobs.foldl (fun (st : State) (j : SecJob) => dropSecured st j Reg.descentDiscards) s3
  let s5 := s4.edge.packers.foldl (fun (st : State) (e : Nat × Packer) => untagUnit (bump st Reg.descentDiscards) e.2.slot) s4
  let s6 := s5.edge.packed.foldl (fun (st : State) (e : Nat × List (Packer × Nat)) =>
    e.2.foldl (fun t x => untagUnit (bump t Reg.descentDiscards) x.1.slot) st) s5
  let s7 := { s6 with edge.secJobs := [], edge.packers := [], edge.packed := [] }
  if cut then
    let s8 := s7.edge.offered.foldl (fun (st : State) (e : Nat × QMsg) => discardMsg st e.2) s7
    forIdx 8 (fun l st => linDrop st (16 + l)) { s8 with edge.offered := [] }
  else s7

/-- Every unit still held is discarded (R280). -/
def discardHeld (s : State) (cut : Bool) : State := discardEdge (discardFrames s cut) cut

/-- The selective-wake entries of the current slot whose MODE is not off. -/
def decodersNow (s : State) : SMap (List Byte) :=
  (List.range 16).filterMap fun n => match recOf s (curSlot s) 0x0400 (3 * 2 ^ 24 + n) with
    | some b => if u8 b 0 = 0 then none else some (n, b)
    | none => none

/-- Decoders and detectors armed with the WAKE values of the current slot (R281, R295). [DEDUCED, log 102] -/
def armWake (s : State) : State :=
  { s with wake.armed := true, wake.globals := wakeGlobals s, wake.decoders := decodersNow s }

/-- The TC10 sleep request sent on a port. -/
def askTc10 (p : Nat) (s : State) : State :=
  if bitAt (leAt (wakeGlobals s) 16 8) p ∧ t1Port p ∧ linkState s p = 3 then
    emit { s with wake.tc10Asked := p :: s.wake.tc10Asked } (.tc10Sleep p)
  else s

/-- DESCENT_LINKS (R281). [DEDUCED, log 102] -/
def descentLinks (s : State) : State :=
  if phaseMay s 2 ∧ (drained s ∨ phaseSpent s (leAt (wakeGlobals s) 4 2)) then
    let s1 := leaveBuses (discardHeld s false)
    let s2 := forIdx 48 askTc10 { s1 with wake.tc10Asked := [], wake.tc10Asleep := [] }
    enterPhase { armWake s2 with wake.captured := [], wake.decoderErr := [] } 3
  else s

/-- TC10_SLEEP_ACK: the port enters TC10 sleep and is UP no longer. [DEDUCED, log 102] -/
def tc10Ack (s : State) (p : Nat) : State :=
  if descentPhase s = 3 ∧ s.wake.tc10Asked.contains p ∧ !s.wake.tc10Asleep.contains p then
    goDown { s with wake.tc10Asleep := p :: s.wake.tc10Asleep } p 0
  else s

/-- Tempos LINKS lasts at most. -/
def linksBound (s : State) : Nat := divUp 4000000 (period s)

/-- DESCENT_SAVE (R281, R282): ports that have not acknowledged are counted and silenced, as every other port is,
and the save jobs are requested. [DEDUCED, log 102] -/
def descentSave (s : State) : State :=
  let late := s.wake.tc10Asked.filter fun p => !s.wake.tc10Asleep.contains p
  if phaseMay s 3 ∧ (late.isEmpty ∨ phaseSpent s (linksBound s)) then
    let s1 := discardHeld (bumpBy s Reg.pwrNetTc10Noack late.length) true
    let s2 := requestSp s1 .retentionSave
    enterPhase (if flag s Reg.pwrStatusTarget then requestSp s2 .fvSave else s2) 4
  else s

/-- Is a job one that SAVE waits for? -/
def saveJob (k : JobKind) : Bool := k == .retentionSave || k == .fvSave

/-- Are the save jobs complete? -/
def savesDone (s : State) : Bool :=
  !(s.jobs.queue.any fun j => saveJob j.kind) && !(s.jobs.running.any fun e => saveJob e.2.kind)

/-- SAVE_TIMEOUT: the descent is to abort. -/
def saveTimeout (s : State) : State :=
  if aloft s ∧ descentPhase s = 4 ∧ !savesDone s ∧ phaseSpent s (leAt (wakeGlobals s) 6 2) then requestAbort s 4 0 else s

/-! Abort (R284, R294). -/

/-- A frame captured by a decoder is presented as the first message its channel receives. -/
def presentCaptured (s : State) : State :=
  s.wake.captured.foldl (fun (st : State) (e : Nat × BusMsg) =>
    receiveOn st e.1 e.2 (curSlot st) (wcStamp st st.time.now) none) { s with wake.captured := [] }

/-- A port in TC10 sleep is woken. -/
def wakeTc10 (s : State) (p : Nat) : State := startTraining (emit s (.tc10Wake p)) p

/-- The LIN schedules restart at entry 0. -/
def restartLin (s : State) : State := forIdx 8 (fun l st => linDrop st (16 + l)) s

/-- Decoders disarmed, requests to descend in progress forgotten. -/
def disarm (s : State) : State :=
  { s with
    wake.abortFor := none, wake.armed := false, wake.decoders := [], wake.decoderErr := [], wake.tc10Asked := []
    wake.tc10Asleep := [], intc.armed := false }

/-- DESCENT_ABORT: ALOFT again; what was discarded stays discarded. Save jobs that have not started are dropped.
[DEDUCED, log 101] -/
def descentAbort (s : State) : State :=
  match s.wake.abortFor with
  | none => s
  | some (_, cause, source) =>
    if !aloft s ∨ !atBoundary s ∨ !abortDue s ∨ !descending s then s
    else
      let ph := descentPhase s
      let s1 := put (put (put s Reg.abortInfoPhase ph) Reg.abortInfoCause cause) Reg.abortInfoSource source
      let s2 := put (bump s1 Reg.descentsAborts) Reg.pwrStatusPhase 0
      let s3 := { s2 with jobs.queue := s2.jobs.queue.filter fun j => !saveJob j.kind }
      let s4 := if 3 ≤ ph then applyChans (applyAdmins (restartLin (s.wake.tc10Asleep.foldl wakeTc10 s3))) else s3
      presentCaptured (disarm s4)

/-! The point of no return (R283). -/

/-- An outstanding commit ends (R74). -/
def abortCommit (s : State) : State :=
  if get s Reg.commitStatusState = 0 then s else emptySet (commitFail s 10 0 0)

/-- Latches released, and every slot but the current one FREE (R59, R283). -/
def freeSlots (s : State) : State :=
  let s1 := forIdx 16 (fun k st => if st.env.latches.has k then put st (Reg.epochLatchValid k) 0 else st) s
  let s2 := forIdx 4 (fun i st => if i ≠ curSlot st ∧ slotState st i ≠ 0 then dropSlot st i else st)
    { s1 with env.latches := [] }
  showLatched s2

/-- A port whose supply goes. -/
def portDark (p : Nat) (s : State) : State :=
  let s1 := put (put s (Reg.portStatusState p) 0) (Reg.portStatusLink p) 0
  setVerify (put (put s1 (Reg.portStatusSpeed p) 0) (Reg.portStatusPlcaActive p) 0) p (if verifyWanted s p then 1 else 0)

/-- The PCIe link goes down with the endpoint's supply (R272, R291). -/
def hostDark (s : State) : State :=
  let s1 := dropPosted s
  let s2 := put (put (put s1 Reg.hbStatusP48Up 0) Reg.hbStatusBme 0) Reg.hbStatusDstate 0
  let s3 := put (put (put (put s2 Reg.hbStatusDlActive 0) Reg.hbStatusRate 0) Reg.hbStatusWidth 0) Reg.hbStatusAspm 0
  { resetHostIf s3 with
    host.pmeEn := false, host.pmeStatus := false, host.d3cold := false, host.openReads := [], host.retry := []
    host.semWait := [], cnt.dump := [] }

/-- PPS_OUT and PE_WAKE_N take their in-reset states (R416, R436). [DEDUCED, log 102] -/
def pinsDark (s : State) : State :=
  let s1 := releasePeWake s
  { s1 with time.ppsOutHigh := false, time.ppsOutUntil := none }

/-- Jobs that were running go back to the head of the queue; bulk MAC work ends with its cores. [DEDUCED, log 104] -/
def stopCores (s : State) : State :=
  let s1 := s.vault.mcj.foldl (fun (st : State) e => put st (Reg.mcjStatusState e.1) 0) (put s Reg.macStatusSuspended 0)
  { s1 with
    jobs.queue := s1.jobs.running.map (fun e => e.2) ++ s1.jobs.queue, jobs.running := [], jobs.startedAt := [], jobs.budget := []
    vault.mcj := [], vault.suspCores := [], net.probing := none, net.slotUsed := 0 }

/-- What the power-state transition does, the arbiter having accepted CUTOFF. [DEDUCED, log 102] -/
def noReturn (s : State) : State :=
  let s1 := abortCommit (clearConvs (clearFrags (discardHeld (bump s Reg.descentsDescents) true)))
  let s2 := stopCores (pinsDark (hostDark (freeSlots s1)))
  let s3 := forIdx 48 portDark { s2 with
    tm.leafTok := [], tm.portTok := [], tm.meters := [], edge.joined := [], net.verifySent := [], net.verifyAt := [] }
  let s4 := put (putFlag s3 Reg.fcStatusFaultN true) Reg.bootStatusReady 0
  { armWake s4 with
    wake.sleepDecoders := decodersNow s4, wake.latch := false, wake.abortFor := none, wake.cutoffAt := s.time.now
    wake.requested := false, wake.reqParked := false, wake.reqForce := false, wake.excursion := false
    cpu.badWords := s4.cpu.badWords.del 2, mem.bankH := [], boot.phase := .cutoff }

/-- CUTOFF: a wake event, or any other cause to abort, that has registered first refuses it. -/
def cutoff (s : State) : State :=
  if phaseMay s 4 ∧ savesDone s ∧ s.wake.abortFor.isNone then noReturn s else s

/-! Moored and Parked. -/

/-- Whole seconds since the device entered sleep. -/
def asleepSeconds (s : State) : Nat := (s.time.now - s.wake.sleptAt) / 1000000000

/-- A wake from Parked is a cold boot from VMID (R279, R410). An uncorrectable word met in Moored before an excursion shows
in RETENTION_LOST at this wake (R273). [DEDUCED, log 100] -/
def wakeParked (s : State) : State :=
  let s1 := deviceReset s 6
  let s2 := put (put s1 Reg.wakeCauseFrom 2) Reg.asleepTime (asleepSeconds s)
  { (if s.wake.retentionBad then put s2 Reg.wakeCauseRetentionLost 1 else s2) with boot.phase := .rising }

/-- A wake from Moored begins (R293). An uncorrectable error met in Moored discards all retention (R273). -/
def wakeMoored (s : State) : State :=
  let s1 := put (put s Reg.wakeCauseFrom 1) Reg.asleepTime (asleepSeconds s)
  if s.wake.retentionBad then deviceReset (put s1 Reg.wakeCauseRetentionLost 1) 7
  else { put s1 Reg.pwrStatusPhase 5 with boot.phase := .wakeRising, wake.excursion := false }

/-- Parked: what the always-on domain does not keep is lost, retained coefficients with it (R86), and the Parked timer is
armed (R272, R292). -/
def enterParked (s : State) : State :=
  let n := leAt s.wake.globals 40 8
  let z := deviceReset s 6
  { forIdx 48 (fun p st => put st (Reg.trainStatusCoefValid p) 0) z with
    boot.phase := .parked, wake.sleptAt := s.wake.sleptAt, wake.latch := s.wake.latch, wake.wokeAt := s.wake.wokeAt
    wake.parkAt := if n = 0 then none else some (s.time.now + n * 1000000000)
    wake.armed := false, wake.decoders := [], wake.retentionBad := s.wake.retentionBad }

/-- CUTOFF_COMPLETE (R285), at the end of a descent or of an excursion. [DEDUCED, log 103] -/
def cutoffComplete (s : State) : State :=
  let s1 := { s with wake.sleptAt := s.time.now }
  if s.boot.phase = .cutoff then
    if flag s Reg.pwrStatusTarget then
      (if s.wake.latch then wakeParked (enterParked s1) else enterParked s1)
    else
      let s2 := { s1 with boot.phase := .moored }
      if s.wake.latch then wakeMoored { s2 with wake.wokeAt := s.time.now } else s2
  else if s.boot.phase = .moored ∧ s.wake.excursion ∧ !s.wake.latch then enterParked s
  else s

/-- WAKE_LATCH: a registered wake event starts the supplies. -/
def wakeLatch (s : State) : State :=
  if !s.wake.latch then s
  else match s.boot.phase with
    | .moored => wakeMoored s
    | .parked => wakeParked s
    | _ => s

/-- PARK_TIMER (R292). -/
def parkTimer (s : State) : State :=
  if s.boot.phase = .parked ∧ s.wake.parkAt.any (fun t => decide (t ≤ s.time.now)) then
    wakeParked (noteWake s Reg.wakeCauseTimer 0 (!s.wake.latch))
  else s

/-- EXCURSION (R292): after MOORED_LIMIT seconds SAVE is carried out with a Parked target. The device is Parked
once the rails are down again; a wake event before that ends the excursion. [DEDUCED, log 103] -/
def excursion (s : State) : State :=
  let lim := leAt s.wake.globals 48 4
  if s.boot.phase = .moored ∧ lim ≠ 0 ∧ !s.wake.latch ∧ lim ≤ asleepSeconds s then
    { putFlag (saveKeys (fvWrite s)) Reg.pwrStatusTarget true with wake.excursion := true }
  else s

/-- MOORED_SCRUB (R273): a pass over the retained words of Banks S, G and T and of the retention registers; corrected ones
are counted. -/
def mooredScrub (s : State) (errs : List RetError) : State :=
  if s.boot.phase ≠ .moored then s
  else
    let kept := errs.filter fun e => e.bank != some .h
    let s1 := bumpBy s Reg.pwrScrubCorrected (kept.filter fun e => !e.uncorrectable).length
    let s2 := bump s1 Reg.pwrScrubPasses
    if kept.any fun e => e.uncorrectable then { s2 with wake.retentionBad := true } else s2

/-! Wake sources (R286 to R290). -/

/-- Does a WUF decoder's entry match a frame (R287)? -/
def wufMatches (b : List Byte) (m : BusMsg) : Bool :=
  let mask := leAt b 8 4
  m.format == .cc && !m.rtr && m.ext == bitAt (u8 b 1) 0 && (m.id &&& mask) == (leAt b 4 4 &&& mask) &&
  m.payload.length == u8 b 3 &&
  (u8 b 3 == 0 || (List.range (u8 b 3)).any fun i => (u8 m.payload i &&& u8 b (12 + i)) != 0)

/-- Does a frame carry a logged identity (R278)? -/
def carriesIdent (h : NetHit) (m : BusMsg) : Bool :=
  match h.kind with
  | 0 => edgeId m == h.ident
  | 1 => m.id % 256 == h.ident
  | 2 => h.nid < 8 && ((m.payload[h.nid]?).map fun x => x.toNat) == some h.ident
  | _ => false

/-- Do the decoders of a channel reject a frame: asleep, with its network suppressed and a logged identity in it? -/
def decoderRejects (s : State) (ch : Nat) (m : BusMsg) : Bool :=
  !aloft s && (s.wake.suppressed.any fun e =>
    (match networkRec s e.1 with
     | some b => bitAt (leAt b 8 32) ch
     | none => false) && e.2.any fun h => carriesIdent h m)

/-- The armed decoder of a channel: its entry. -/
def decoderOf (s : State) (ch : Nat) : Option (List Byte) := if s.wake.armed then s.wake.decoders.find ch else none

/-- Does a succession of phases (dominant or recessive, with its length in ns) hold the wake-up pattern (R287)? `acc` are
the phases of the pattern so far, newest first: a dominant and a recessive one of at least the filter time each, and
a dominant one once it has lasted that long, all within 1 ms. A shorter phase restarts the pattern.
[DEDUCED, log 140] -/
def wupFound (filt : Nat) : List (Bool × Nat) → List Nat → Bool
  | [], _ => false
  | (dom, d) :: rest, acc =>
    if d < filt then wupFound filt rest []
    else match dom, acc with
      | true, [r, a] => if a + r + filt ≤ 1000000 then true else wupFound filt rest [d]
      | true, _ => wupFound filt rest [d]
      | false, [a] => wupFound filt rest [d, a]
      | false, _ => wupFound filt rest []

/-- SELECTIVE_WAKE (R287). A frame that matched is captured. [DEDUCED, log 99] -/
def selectiveWake (s : State) (ch : Nat) (k : SwKind) : State :=
  match decoderOf s ch with
  | none => s
  | some b =>
    match k with
    | .wup phases => if u8 b 0 = 1 ∧ wupFound (100 * u8 b 2) phases [] then registerWake s Reg.wakeCauseSwWup ch true false true true else s
    | .wuf m =>
      if u8 b 0 = 2 ∧ wufMatches b m ∧ !decoderRejects s ch m then
        let s1 := registerWake s Reg.wakeCauseSwMatch ch true false true true
        if s1.boot.phase = .inReset ∨ s1.boot.phase = .rising ∨ s1.wake.captured.has ch then s1
        else { s1 with wake.captured := s1.wake.captured.set ch m }
      else s
    | .errCount =>
      if u8 b 0 = 2 ∧ 31 < (s.wake.decoderErr.find ch).getD 0 then
        registerWake s Reg.wakeCauseSwErrcnt ch true false true true
      else s

/-- DECODER_FRAME (R287): an error counts up, an error-free frame down. -/
def decoderFrame (s : State) (ch : Nat) (err : Bool) : State :=
  match decoderOf s ch with
  | none => s
  | some b =>
    if u8 b 0 ≠ 2 then s
    else
      let c := (s.wake.decoderErr.find ch).getD 0
      { s with wake.decoderErr := s.wake.decoderErr.set ch (if err then c + 1 else c - 1) }

/-- LIN_WAKE (R288). -/
def linWake (s : State) (l : Nat) : State :=
  if s.wake.armed ∧ bitAt (u8 s.wake.globals 13) l then registerWake s Reg.wakeCauseLin (16 + l) true false true false
  else s

/-- TC10_WAKE (R289): in Moored from ports in TC10_WAKE_IN, during a descent from any port with TC10. -/
def tc10Wake (s : State) (p : Nat) : State :=
  if t1Port p then
    registerWake s Reg.wakeCauseTc10 p (bitAt (leAt s.wake.globals 24 8) p) false true false
  else s

/-- WAKE_PIN (R286): the pin has reached its active level. -/
def wakePin (s : State) (i : Nat) : State :=
  if s.boot.phase = .off then s
  else
    let s1 := if s.wake.pinsActive.contains i then s else { s with wake.pinsActive := i :: s.wake.pinsActive }
    if bitAt (wakePinCfg (wakeInForce s) i) 0 then registerWake s1 Reg.wakeCausePin i true true true true else s1

/-- WAKE_PIN_RELEASE. -/
def wakePinRelease (s : State) (i : Nat) : State :=
  if s.boot.phase = .off then s else { s with wake.pinsActive := s.wake.pinsActive.erase i }

/-- PERST_N_RISE (R286, R407): the endpoint leaves its reset, and the device wakes with PERST_WAKE. -/
def perstRise (s : State) : State :=
  if s.host.perstN then s
  else
    let s1 := { s with host.perstN := true, host.d3cold := false }
    if bitAt (leAt (wakeInForce s) 0 2) 2 then registerWake s1 Reg.wakeCausePerst 0 true false true false else s1

/-! From the release of the switch die to forwarding (R293, R415). -/

/-- Bytes of a code area's part in a bank. [DEDUCED, log 105] -/
def codePart (m : Mem) (base len : Nat) : List Byte := Mem.readBytes m 0 base len

/-- Size of a GC code area in bytes (R387). -/
def gcAreaBytes (s : State) : Nat := (0x800000 - u8 (structOf s 0x0030) 0 * 0x10000) / 2

/-- The WAKE_CHECK tags (R415): the SP code area in use, and seven equal parts of the GC code area in use. Where the
area is no multiple of seven the last part is the longer. [DEDUCED, log 105] -/
def wakeTags (s : State) : List (List Byte) :=
  let a := gcAreaBytes s
  let part := a / 7
  Config.cmac (keyOf s 5) (codePart s.mem.bankS (s.boot.spArea * 0x80000) 0x80000) ::
  (List.range 7).map fun i =>
    Config.cmac (keyOf s 5)
      (codePart s.mem.bankG (s.boot.gcArea * a + i * part) (if i = 6 then a - 6 * part else part))

/-- The retention save is done: the interrupt controller's copy is armed and the tags are kept (R282, R362, R415). -/
def retentionSave (s : State) : State := { s with intc.armed := true, wake.tags := wakeTags s }

/-- What goes out at the release of the switch die on every wake (R289, R291): WUP on the ports in TC10_WAKE_OUT that are
not already active, and PE_WAKE_N with PE_WAKE_OUT. -/
def wakeOutside (s : State) : State :=
  let ports := (bitList (leAt s.wake.globals 32 8) 48).filter fun p => t1Port p && linkState s p != 3
  let s1 := ports.foldl (fun st p => emit st (.tc10Wake p)) s
  if bitAt (leAt s.wake.globals 0 2) 3 then assertPeWake s1 else s1

/-- SWITCH_DIE_RELEASE: ports with ADMIN_EN start, WUP goes out, PE_WAKE_N is asserted. -/
def switchDieRelease (s : State) : State :=
  if s.boot.phase ≠ .wakeRising then s
  else wakeOutside (applyAdmins { s with boot.phase := .wakeCheck })

/-- WAKE_CHECK (R415), which the safety pair makes: while it is held (R304) no check ends. -/
def wakeCheck (s : State) : State :=
  if s.boot.phase ≠ .wakeCheck ∨ s.cpu.spHeld then s
  else if wakeTags s = s.wake.tags then { s with boot.phase := .wakeTrain }
  else deviceReset (put s Reg.wakeCauseRetentionLost 1) 7

/-- A domain that external port configuration makes Karlasin grandmaster of is locked from the start (R31, R452).
[DEDUCED, log 104] -/
def startGm (s : State) (d : Domain) : State :=
  if extPortCfg s d ∧ !extSlave s d ∧ gmCapable s d then becomeGm s d else s

/-- A tamper event or a failure of the entropy source that no running firmware has seen is reported and journaled (R265, R286).
[DEDUCED, log 98] -/
def reportTamper (s : State) : State :=
  let s1 := if s.vault.entropyUnreported then recordFault { s with vault.entropyUnreported := false } 0x0030 0 0 else s
  if s1.vault.tamperUnreported then
    let cause := get s1 Reg.vaultStatusTamperCause
    recordFault (journal { s1 with vault.tamperUnreported := false } 0x0021 (leBytes 1 cause ++ leBytes 1 s1.vault.tamperPower))
      0x0031 0 cause
  else s1

/-- Jobs queued before they were budgeted, whose bound exceeds the whole budget of their core, are rejected (R41, R48).
[DEDUCED, log 120] -/
def rejectLarge (s : State) : State :=
  (s.jobs.queue.filter fun j => tooLarge s j.core j.cost).foldl (fun st j =>
    jobRejected { st with jobs.queue := st.jobs.queue.filter fun x => x.order != j.order } j.kind) s

/-- Forwarding starts, at a boundary (R401, R293): every core has its whole budget (R46), and the key record may be written
(R405). [DEDUCED, log 43; DEDUCED, log 104] -/
def startForwarding (s : State) : State :=
  let s1 := { s with
    boot.phase := .aloft, time.tempoLocal := s.time.now, time.realign := false
    net.slotUsed := 0, jobs.budget := [] }
  let s2 := writeKeys (rejectLarge (startEdge (put s1 Reg.bootStatusReady 1)))
  refreshFaultN (reportTamper (ripcordAtStart (startGm (startGm s2 .wc) .gt)))

/-- A time base stopped while asleep: its domains unlocked, the working clock rounded up to a boundary (R42, R293).
[DEDUCED, log 104] -/
def resumeTime (s : State) : State :=
  let p : Int := period s
  let w := wcNow s
  let w1 := if w % p = 0 then w else w + (p - w % p)
  let s1 := { s with
    time.wc := { s.time.wc with anchorLocal := s.time.now, anchorTime := w1, slew := 0, everLocked := false }
    time.gt := { s.time.gt with everLocked := false }, time.tempoMark := w1 }
  let s2 := putFlag (putFlag s1 Reg.tbStatusWcLocked false) Reg.tbStatusGtLocked false
  let s3 := putFlag (putFlag s2 Reg.tbStatusWcHoldover false) Reg.tbStatusGtHoldover false
  let s4 := putFlag (putFlag s3 Reg.tbStatusWcGm false) Reg.tbStatusGtGm false
  put s4 Reg.tempoNum (tempoNo s + 1)

/-- What was counted in Aloft time only resumes: ages of learned entries, suppressions, episodes (R111, R278).
[DEDUCED, log 104] -/
def resumeAges (s : State) : State :=
  let dt := s.time.now - s.wake.cutoffAt
  let s1 := { s with
    net.learned := s.net.learned.mapVals fun _ e => { e with hitAt := e.hitAt + dt }
    wake.seen := s.wake.seen.mapVals fun _ t => t + dt, wake.awakeSince := [] }
  forIdx 32 (fun n st => if netAwake st n then { st with wake.awakeSince := st.wake.awakeSince.set n st.time.now } else st) s1

/-- A local CAN channel's error counters after a wake: 0, and with them its error state (R415). [DEDUCED, log 104] -/
def clearCan (n : Nat) (s : State) : State :=
  let s1 := put (put s (Reg.canErrTec n) 0) (Reg.canErrRec n) 0
  if chanState s n = 0 then s1 else put s1 (Reg.chStatusState n) 1

/-- FORWARDING_READY (R293, R294, R415): the first boundary after wake. [DEDUCED, log 104] -/
def forwardingReady (s : State) : State :=
  if s.boot.phase ≠ .wakeTrain then s
  else
    let s1 := forIdx 16 clearCan (resumeAges (resumeTime s))
    let s2 := put s1 Reg.pwrStatusPhase 0
    let s3 := if s2.intc.armed then restoreInterrupts s2 else s2
    let s4 := startForwarding { disarm s3 with wake.latch := false }
    presentCaptured (syncLists s4)

/-! Meanings. -/

/-- DESCENT_REQ. -/
def execDescentReq (m : Master) (w : Word) (s : State) : Host.Outcome State Fault Refusal :=
  .next (accessWrite s m 0x010004 fun t => pwrCtlWrite t m (w.toNat ||| 1))

/-- HOST_HOLD. -/
def execHostHold (m : Master) (hold : Bool) (s : State) : Host.Outcome State Fault Refusal :=
  .next (accessWrite s m 0x010004 fun t => pwrCtlWrite t m (8 * b2n hold))

/-- DESCENT_DRAIN. -/
def execDescentDrain (s : State) : Host.Outcome State Fault Refusal := .next (descentDrain s)

/-- DESCENT_LINKS. -/
def execDescentLinks (s : State) : Host.Outcome State Fault Refusal := .next (descentLinks s)

/-- TC10_SLEEP_ACK. -/
def execTc10SleepAck (p : Fin 48) (s : State) : Host.Outcome State Fault Refusal := .next (tc10Ack s p)

/-- DESCENT_SAVE. -/
def execDescentSave (s : State) : Host.Outcome State Fault Refusal := .next (descentSave s)

/-- SAVE_TIMEOUT. -/
def execSaveTimeout (s : State) : Host.Outcome State Fault Refusal := .next (saveTimeout s)

/-- CUTOFF. -/
def execCutoff (s : State) : Host.Outcome State Fault Refusal := .next (cutoff s)

/-- DESCENT_ABORT. -/
def execDescentAbort (s : State) : Host.Outcome State Fault Refusal := .next (descentAbort s)

/-- CUTOFF_COMPLETE. -/
def execCutoffComplete (s : State) : Host.Outcome State Fault Refusal := .next (cutoffComplete s)

/-- SELECTIVE_WAKE. -/
def execSelectiveWake (ch : Fin 16) (kind : SwKind) (s : State) : Host.Outcome State Fault Refusal :=
  .next (selectiveWake s ch kind)

/-- LIN_WAKE. -/
def execLinWake (l : Fin 8) (s : State) : Host.Outcome State Fault Refusal := .next (linWake s l)

/-- WAKE_PIN. -/
def execWakePin (i : Fin 4) (s : State) : Host.Outcome State Fault Refusal := .next (wakePin s i)

/-- WAKE_PIN_RELEASE. -/
def execWakePinRelease (i : Fin 4) (s : State) : Host.Outcome State Fault Refusal := .next (wakePinRelease s i)

/-- TC10_WAKE. -/
def execTc10Wake (p : Fin 48) (s : State) : Host.Outcome State Fault Refusal := .next (tc10Wake s p)

/-- PARK_TIMER. -/
def execParkTimer (s : State) : Host.Outcome State Fault Refusal := .next (parkTimer s)

/-- EXCURSION. -/
def execExcursion (s : State) : Host.Outcome State Fault Refusal := .next (excursion s)

/-- WAKE_LATCH. -/
def execWakeLatch (s : State) : Host.Outcome State Fault Refusal := .next (wakeLatch s)

/-- SWITCH_DIE_RELEASE. -/
def execSwitchDieRelease (s : State) : Host.Outcome State Fault Refusal := .next (switchDieRelease s)

/-- WAKE_CHECK. -/
def execWakeCheck (s : State) : Host.Outcome State Fault Refusal := .next (wakeCheck s)

/-- MOORED_SCRUB. -/
def execMooredScrub (errs : List RetError) (s : State) : Host.Outcome State Fault Refusal := .next (mooredScrub s errs)

/-- DECODER_FRAME. -/
def execDecoderFrame (ch : Fin 16) (err : Bool) (s : State) : Host.Outcome State Fault Refusal :=
  .next (decoderFrame s ch err)

/-- PERST_N_RISE. -/
def execPerstNRise (s : State) : Host.Outcome State Fault Refusal := .next (perstRise s)

end Sys2Proof.Machine
end

