-- ==== Sys2Proof/Machine/Image.lean ====
section
/-!
DEFINITION. Firmware slots (R386 to R391): the preferred slot, the checks of an image, and the copying of its parts
into the code areas.
-/
namespace Sys2Proof.Machine

/-! The preferred slot (R388). -/

/-- N of a slot's PREFER, or 0 when it is not valid. -/
def preferOf (s : State) (b : Bool) : Nat :=
  let x := leNat (slotBytes s b 0xFF0 8)
  let n := x % 2 ^ 32
  if 1 ≤ n ∧ n ≤ 0xFFFFFFFE ∧ x / 2 ^ 32 = 0xFFFFFFFF - n then n else 0

/-- Is slot B the preferred one? -/
def preferredB (s : State) : Bool := decide (preferOf s false < preferOf s true)

/-- The highest valid N of the two slots. -/
def highestPrefer (s : State) : Nat := max (preferOf s false) (preferOf s true)

/-- IMG_PREFER_A and IMG_PREFER_B. -/
def showPrefer (s : State) : State := put (put s Reg.imgPreferA (preferOf s false)) Reg.imgPreferB (preferOf s true)

/-- A slot's flash contents set. -/
def setSlotMem (s : State) (b : Bool) (m : Mem) : State :=
  showPrefer (if b then { s with mem.flashB := m } else { s with mem.flashA := m })

/-- Bytes programmed into a slot. -/
def programSlot (s : State) (b : Bool) (off : Nat) (bs : List Byte) : State :=
  setSlotMem s b (Mem.writeBytes (slotMem s b) 0xFF off bs)

/-- A slot's PREFER programmed with one more than the highest N. [DEDUCED, log 113] -/
def programPrefer (s : State) (b : Bool) : State :=
  let n := highestPrefer s + 1
  programSlot s b 0xFF0 (leBytes 4 n ++ leBytes 4 (0xFFFFFFFF - n))

/-! Checks of an image (R390, R391). -/

/-- MAGIC, FMT_MAJOR, FW_KEY_ID, and FW_LEN, SP_LEN and ENV_OFFSET as R386 has them. -/
def headerOk (h : List Byte) : Bool :=
  leAt h 0 4 == 0x4D574B47 && leAt h 4 2 == 1 && u8 h 6 ≤ 1 &&
  fwLen h % 4096 == 0 && fwLen h ≤ 0x400000 &&
  spLen h % 4096 == 0 && inR (spLen h) 4096 0x80000 && spLen h ≤ fwLen h &&
  envOffset h % 4096 == 0 && 0x1000 + fwLen h ≤ envOffset h

/-- The image bytes of a slot. -/
def imageBytes (s : State) (b : Bool) : List Byte := slotBytes s b 0x1000 (fwLen (slotHeader s b))

/-- Does the image's digest equal FW_DIGEST? -/
def digestOk (s : State) (b : Bool) : Bool :=
  let h := slotHeader s b
  Config.sha256 (h.take 0x20 ++ imageBytes s b) == slice h 0x20 32

/-- Bytes of the GC part. -/
def gcLen (h : List Byte) : Nat := fwLen h - spLen h

/-- The parents a slot's recipes give it in a configuration, through at most `fuel` of them. -/
def parentChain (v : View) : Nat → Nat → List Nat
  | 0, _ => []
  | fuel + 1, i =>
    match v.entry 0x0500 i with
    | some b => if bitAt (u8 b 0) 0 then parentOf b :: parentChain v fuel (parentOf b) else []
    | none => []

/-- Compatibility with the running device. -/
def compatible (s : State) (h : List Byte) (w : View) : Bool :=
  let v := slotView s (curSlot s)
  gcLen h ≤ gcAreaBytes s && w.sect 0x0030 == v.sect 0x0030 && w.sect 0x0040 == v.sect 0x0040 &&
  (List.range 512).all fun i =>
    i == 0 || !slotReady s i || (parentChain w 6 i).isEmpty || parentChain w 6 i == parentChain v 6 i

/-- The checks of R390 over one slot, with or without the compatibility check: what the envelope gives, or the
result code of R400 with the LOAD_RESULT of an envelope that failed. A slot whose erase or write was cut short fails
at a check the manual leaves open. [DEDUCED, log 107] -/
def verifySlot (s : State) (b compat : Bool) : Except (Nat × Option Nat) Loaded :=
  let h := slotHeader s b
  if s.img.spoiled.contains b then
    let c := Config.free s.freeCtr
    .error (6 + c % 4, if c % 4 = 3 then some (1 + c / 4 % 9) else none)
  else if !headerOk h then .error (6, none)
  else if !digestOk s b then .error (7, none)
  else if !Config.fwVerify (u8 h 6) (slice h 0x20 32) (slice h 0x40 64) then .error (8, none)
  else match slotEnvelope s b with
    | .error e => .error (9, some e.1)
    | .ok l => if compat && !compatible s h l.view then .error (10, some 0) else .ok l

/-- The result code of a check of a slot, and ENV_INFO.LOAD_RESULT where the envelope was reached (R57); an INCOMPATIBLE image has
one that is valid (R390). [DEDUCED, log 107; DEDUCED, log 110] -/
def verdict (s : State) (r : Except (Nat × Option Nat) Loaded) : Nat × State :=
  let s1 := { s with freeCtr := s.freeCtr + 1 }
  match r with
  | .ok _ => (1, put s1 Reg.envInfoLoadResult 0)
  | .error (c, some l) => (c, put s1 Reg.envInfoLoadResult l)
  | .error (c, none) => (c, s1)

/-! The code areas (R387). -/

/-- A slot's SP and GC parts copied into the numbered code areas. [DEDUCED, log 107] -/
def copyParts (s : State) (b : Bool) (spArea gcArea : Nat) : State :=
  let h := slotHeader s b
  let sp := slotBytes s b 0x1000 (spLen h)
  let gc := slotBytes s b (0x1000 + spLen h) (gcLen h)
  { s with
    mem.bankS := Mem.writeBytes s.mem.bankS 0 (spArea * 0x80000) sp
    mem.bankG := Mem.writeBytes s.mem.bankG 0 (gcArea * gcAreaBytes s) gc }

end Sys2Proof.Machine
end

