-- ==== Sys2Proof/Machine/Boot.lean ====
section
/-!
DEFINITION. Start-up and resets (chapter 17), and the supply and temperature of chapter 18.
-/
namespace Sys2Proof.Machine

/-! Resets (R410 to R413). -/

/-- A device reset begins, from any state but Off. From states without rails it goes by way of the rails. -/
def beginReset (s : State) (cause : Nat) : State :=
  match s.boot.phase with
  | .off => s
  | .rising => { deviceReset s cause with boot.phase := .rising }
  | .moored => { deviceReset s cause with boot.phase := .rising }
  | .parked => { deviceReset s cause with boot.phase := .rising }
  | .cutoff => { deviceReset s cause with boot.phase := .rising }
  | .wakeRising => { deviceReset s cause with boot.phase := .rising }
  | _ => deviceReset s cause

/-! What is measured (R430, R444). -/

/-- VBAT in 25 mV units shown, with the range since the last read. -/
def showVbat (s : State) (v : Nat) : State :=
  let s1 := put s Reg.supplyStatusVbat v
  put (put s1 Reg.vbatRangeVbatMin (min (get s Reg.vbatRangeVbatMin) (min v 4095)))
    Reg.vbatRangeVbatMax (max (get s Reg.vbatRangeVbatMax) (min v 4095))

/-- VBAT stands at `cv` hundredths of a volt: its reading, which is accurate to 2 per cent and free within that, and the flags of
its range. [DEDUCED, log 108] -/
def vbatReads (s : State) (cv : Nat) : State :=
  let lo := divUp (cv * 98) 250
  let d := draw s (max 1 (cv * 102 / 250 + 1 - lo))
  let low := cv < 900
  let high := 6000 < cv
  let s1 := showVbat d.2 (lo + d.1)
  let s2 := putFlag (putFlag s1 Reg.supplyStatusLowVbat low) Reg.supplyStatusHighVbat high
  let s3 := if low then put s2 Reg.supplyEventsLowSeen 1 else s2
  if high then put s3 Reg.supplyEventsHighSeen 1 else s3

/-- A sensor's reading in 0.25 degree units shown, with its peak. -/
def showTemp (s : State) (i : Nat) (t : Int) : State :=
  let s1 := put s (Reg.tempTemp i) (unsigned 11 t)
  if signed 11 (get s (Reg.tempPeak i)) < t then put s1 (Reg.tempPeak i) (unsigned 11 t) else s1

/-- THERM_WARN holds while any sensor reads 140 degrees or more; THERM_SEEN notes that it has set. [DEDUCED, log 108] -/
def thermReads (s : State) : State :=
  let hot := (List.range 4).any fun k => decide (560 ≤ signed 11 (get s (Reg.tempTemp k)))
  let s1 := putFlag s Reg.supplyStatusThermWarn hot
  if hot ∧ !flag s Reg.supplyStatusThermWarn then put s1 Reg.supplyEventsThermSeen 1 else s1

/-- A sensor's first reading: some temperature from 55 degrees below zero to the trip (R443). [DEDUCED, log 108] -/
def tempReads (i : Nat) (s : State) : State :=
  let d := draw s 880
  let t := unsigned 11 ((d.1 : Int) - 220)
  put (put d.2 (Reg.tempTemp i) t) (Reg.tempPeak i) t

/-- Measured values at the release of the switch die (R444): VBAT anywhere from 6 V to 70 V, at which the device operates,
and the temperatures, with the flags that go with them; the ranges start at these readings. [DEDUCED, log 108] -/
def measureAll (s : State) : State :=
  let d := draw s 6401
  let s1 := vbatReads d.2 (600 + d.1)
  let v := min (get s1 Reg.supplyStatusVbat) 4095
  thermReads (forIdx 4 tempReads (put (put s1 Reg.vbatRangeVbatMin v) Reg.vbatRangeVbatMax v))

/-- Is the cold boot in hand a wake: from Parked, or from Moored with its retention lost (R273, R410)? -/
def fromWake (s : State) : Bool := fromParked s || s.boot.cause == 7

/-- The release of the switch die, with what goes out at every wake: the straps are sampled, and memory initialisation starts
(R289, R291, R401, R404). [DEDUCED, log 106] -/
def releaseDie (s : State) (st : Straps) : State :=
  let s1 := { s with boot.phase := .memInit, boot.phaseAt := s.time.now, boot.straps := st, wake.armed := false }
  let s2 := put (put (measureAll s1) Reg.bootStatusCause s.boot.cause) Reg.bootStatusBootSel st.bootSel
  let s3 := putFlag s2 Reg.bootStatusRecovery (!st.recoveryN)
  if fromWake s then wakeOutside s3 else s3

/-- Nothing holds the switch die in reset any longer. -/
def mayRelease (s : State) : Bool := !s.boot.resetPin && !s.boot.thermalHeld

/-- POWER_ON (R401): VBAT is valid, and the always-on domain and the supplies start. [DEDUCED, log 106] -/
def powerOn (s : State) : State :=
  if s.boot.phase = .off then
    putFlag { s with boot.phase := .rising, boot.phaseAt := s.time.now, boot.cause := 0 } Reg.fcStatusFaultN true
  else s

/-- RAILS_GOOD (R401, R410, R434): the switch die is released unless RESET_N or a thermal trip holds it. After a reset
with the rails up this is the end of its 10 us. -/
def railsGood (s : State) (st : Straps) : State :=
  match s.boot.phase with
  | .rising =>
    if mayRelease s then releaseDie s st
    else { s with boot.phase := .inReset, boot.phaseAt := s.time.now }
  | .inReset => if mayRelease s ∧ s.boot.phaseAt + 10000 ≤ s.time.now then releaseDie s st else s
  | _ => s

/-- RESET_N_ASSERT (R410, R411): the pin has been low for `ns`. Less than 100 ns is ignored; from 100 ns to 1 us the
pulse may or may not act; from 1 us on it does. -/
def resetAssert (s : State) (ns : Nat) : State :=
  let act := fun (st : State) => { beginReset st 1 with boot.resetPin := true }
  if ns < 100 then s
  else if 1000 ≤ ns then act s
  else
    let d := draw s 2
    if d.1 = 1 then act d.2 else d.2

/-- RESET_N_RELEASE (R411): the straps count where this releases the switch die (R404). [DEDUCED, log 106] -/
def resetRelease (s : State) (st : Straps) : State :=
  let s1 := { s with boot.resetPin := false }
  if s.boot.phase = .inReset ∧ s.boot.resetPin ∧ !s.boot.thermalHeld then releaseDie s1 st else s1

/-- May this master ask for a software reset (R413)? -/
def resetMay (s : State) (m : Master) : Bool :=
  match m with
  | .sp => true
  | .gc _ => false
  | .host => true
  | .spi => true
  | .dbg => lifeCycle s == 0 || lifeCycle s == 3

/-- May a master ask for a software reset although the control space does not answer it yet: firmware that runs on the safety
pair, and the debug port in the life-cycle states it has (R413)? [DEDUCED, log 29] -/
def resetEarly (s : State) (m : Master) : Bool :=
  !aloft s && resetMay s m && match m with
    | .sp => firmwareRuns s && masterRuns s .sp
    | .dbg => dieRuns s && s.boot.phase != .recovery
    | _ => false

/-- A write of RESET_REQ. -/
def resetWrite (s : State) (m : Master) (w : Nat) : State :=
  if w % 65536 = 0xB007 ∧ resetMay s m then beginReset s 2 else s

/-- RESET_REQ: by a master that the control space answers, or by one that may ask before it does (R413). -/
def resetReq (s : State) (m : Master) (w : Nat) : State :=
  if resetEarly s m then (if masterHeard s m then noteGrant (answer (resetWrite s m w) m .done) 0x10 m else s)
  else accessWrite s m 0x10 fun t => resetWrite t m w

/-! From the release to the image (R402 to R406). -/

/-- Recovery mode is entered (R397, R398): the mailbox's MB_MAGIC, STATUS ready and ENTRY. [DEDUCED, log 106] -/
def enterRecovery (s : State) (entry : Nat) : State :=
  { s with
    boot.phase := .recovery, boot.phaseAt := s.time.now
    mem.bankH := Mem.writeBytes (Mem.writeBytes [] 0 0 (leBytes 4 0x56434552)) 0 0x10 (leBytes 4 0 ++ leBytes 4 entry)
    img.op := none, img.rom := none, img.romVerified := [] }

/-- The slots of the image passes in order (R404). -/
def passOrder (s : State) : List Bool :=
  match s.boot.straps.bootSel.val with
  | 0 => [preferredB s, !preferredB s]
  | 1 => [false]
  | 2 => [true]
  | _ => [preferredB s]

/-- MEMORY_INIT_DONE: every bank, the cell buffer and the verify hold buffer are zero (R402); a failure halts the
switch die (R403); otherwise ROM enters recovery mode (R397) or starts the first image pass. ROM runs on the safety pair: while
that is held nothing follows (R298, R304). [DEDUCED, log 106] -/
def memoryInitDone (s : State) (fail : MemInitFail) : State :=
  if s.boot.phase ≠ .memInit then s
  else match fail with
    | .corePll => put { s with boot.phase := .halted } Reg.bootStatusHalt 1
    | .memory => put { s with boot.phase := .halted } Reg.bootStatusHalt 2
    | .ok =>
      let s1 := showPrefer { s with mem.bankS := [], mem.bankG := [], mem.bankH := [], mem.bankT := [] }
      if s.cpu.spHeld then s1
      else if s.boot.cause = 4 then enterRecovery s1 3
      else if !s.boot.straps.recoveryN then enterRecovery s1 2
      else if lifeCycle s = 4 then enterRecovery s1 1
      else { s1 with boot.phase := .imagePass, boot.phaseAt := s.time.now, boot.passes := passOrder s1 }

/-! The scoresheet at cold boot (R269). -/

/-- The entries of the newest block, and the one before them. -/
def newestEntries (s : State) : Option (List Byte) × List (List Byte) :=
  match s.sheet.entries.getLast? with
  | none => (none, [])
  | some l =>
    (((s.sheet.entries.filter fun e => decide (e.1 / 512 < l.1 / 512)).getLast?).map fun e => e.2,
     (blockEntries s (l.1 / 512)).map fun e => e.2)

/-- Is an entry valid (R267): does its seal verify, and does it chain to the one before it? A BREAK does not.
[DEDUCED, log 96] -/
def entryOk (s : State) (prev : Option (List Byte)) (e : List Byte) : Bool :=
  sealOk s e && (leAt e 24 2 == 0x72 || prev.all fun p => slice e 96 16 == slice (Config.sha256 p) 0 16)

/-- SEQ of the last valid entry of a list, and whether one fails that no valid BREAK follows: a BREAK tells of those before it.
[DEDUCED, log 96] -/
def walkSheet (s : State) : Option (List Byte) → Nat × Bool → List (List Byte) → Nat × Bool
  | _, acc, [] => acc
  | prev, (q, bad), e :: es =>
    if entryOk s prev e then walkSheet s (some e) (leAt e 0 8, bad && leAt e 24 2 != 0x72) es
    else walkSheet s (some e) (q, true) es

/-- Has the region been rolled back: is its newest entry below the newest anchor, or the anchored one another (R269)? -/
def rolledBack (s : State) : Bool :=
  s.otp.anchors.getLast?.any fun a =>
    decide (s.sheet.nextSeq ≤ a.1) || (sheetFind s a.1).any fun e => Config.sha256 e != a.2

/-- A BREAK entry asked of the safety pair. [DEDUCED, log 96] -/
def askBreak (s : State) (q reason : Nat) : State := requestSp s (.sbSeal 0x0072 (leBytes 8 q ++ leBytes 1 reason))

/-- The check of the newest block and the newest anchor (R269). The BREAK entries are the first that the safety pair appends,
once the flash takes writes (R405): after whatever the region holds, with numbers never used (R266).
[DEDUCED, log 96] -/
def checkSheet (s : State) : State :=
  if !slotReady s 3 then s
  else
    let n := newestEntries s
    let r := walkSheet s n.1 ((n.1.map fun e => leAt e 0 8).getD 0, false) n.2
    let s1 := if r.2 then recordFault (askBreak s r.1 1) 0x0033 0 (r.1 % 2 ^ 32) else s
    if rolledBack s then askBreak s1 (s.sheet.nextSeq - 1) 2 else s1

/-! Accepting an image. -/

/-- The tempo generator's first mark: the last multiple of the period (R41). [DESIGN CHOICE, log 40] -/
def markClock (s : State) : State :=
  let w := wcNow s
  { s with time.tempoMark := w - w % (period s : Int) }

/-- The BOOT entry's body (R267). [DEDUCED, log 109] -/
def bootEntry (s : State) : List Byte :=
  leBytes 4 (get s Reg.identPart * 2 ^ 16 + get s Reg.identStepMajor * 2 ^ 8 + get s Reg.identStepMinor) ++
  leBytes 1 (lifeCycle s) ++ leBytes 1 (b2n s.boot.slotB) ++ leBytes 1 s.boot.cause ++ zeros 1 ++ fwDigest s ++
  leBytes 4 (get s Reg.envId)

/-- The FAULT_ESC entry a held safety pair left to the first boot after it (R368, R412). [DEDUCED, log 109] -/
def keptEscalation (s : State) : State :=
  if s.fault.toJournal then
    requestSp { s with fault.toJournal := false } (.sbSeal 0x0050
      (leBytes 2 (get s Reg.fcSafeCode) ++ leBytes 1 (if flag s Reg.fcSafeByEsc then 2 else 3) ++ leBytes 1 3 ++
        leBytes 8 (get s Reg.fcSafeTempo)))
  else s

/-- The vault blob region as a boot reads it (R239, R256): the blocks `damaged` do not read as they were written, and a
save in one of them is lost. [DEDUCED, log 122] -/
def readBlob (s : State) (damaged : List Nat) : State :=
  let s1 := readKeys s damaged
  { s1 with edge.fvSaves := s1.edge.fvSaves.filter fun e => !damaged.contains e.1 }

/-- An image is accepted: its envelope is in force, the vault and the scoresheet are built, and firmware starts. -/
def acceptImage (s : State) (b : Bool) (l : Loaded) : State :=
  let s1 := loadEnvelope { s with boot.slotB := b, boot.spArea := 0, boot.gcArea := 0 } l b
  let s2 := fvRestore (loadKeys s1 0)
  let s3 := put (putFlag s2 Reg.imgStatusInactiveB (!b)) Reg.imgSerial (leAt (slotHeader s b) 0x10 4)
  let s4 := checkSheet (refreshSheet (loadRipcord (checkCoefs (loadPns s3 (fun _ => true) none))))
  let s5 := keptEscalation (journal s4 0x0001 (bootEntry s4))
  markClock { s5 with boot.phase := .starting, boot.phaseAt := s.time.now, boot.passes := [] }

/-- IMAGE_PASS_DONE (R405, R406): the parts are copied as they are hashed; the image is accepted, or the next pass
follows, or recovery mode. -/
def imagePassDone (s : State) (damaged : List Nat) : State :=
  if s.boot.phase ≠ .imagePass ∨ s.cpu.spHeld then s
  else match s.boot.passes with
    | [] => enterRecovery s 1
    | b :: rest =>
      let r := verifySlot s b false
      let v := verdict (if headerOk (slotHeader s b) then copyParts s b 0 0 else s) r
      let s1 := put v.2 (if b then Reg.bootStatusResultB else Reg.bootStatusResultA) v.1
      match r with
      | .ok l => putFlag (acceptImage (readBlob s1 damaged) b l) Reg.bootStatusFallback (s.boot.straps.bootSel == 0 && rest.isEmpty)
      | .error _ => if rest.isEmpty then enterRecovery s1 1 else { s1 with boot.passes := rest }

/-- CALIBRATION_DONE (R403): what failed stays DISABLED. -/
def calibrationDone (s : State) (ports channels : List Nat) : State :=
  if (s.boot.phase = .memInit ∨ s.boot.phase = .imagePass ∨ s.boot.phase = .starting ∨ s.boot.phase = .recovery) ∧
      !s.boot.calDone then
    let m := ((List.range 48).filter ports.contains).map (fun p => 2 ^ p) |>.sum
    let c := ((List.range 16).filter channels.contains).map (fun n => 2 ^ n) |>.sum
    let s1 := put (put (put s Reg.calFailLo (m % 2 ^ 32)) Reg.calFailHiPortsHi (m / 2 ^ 32)) Reg.calFailHiChannels c
    markClock { s1 with boot.calDone := true }
  else s

/-! Supply and temperature (R430, R443, R444). -/

/-- The battery below 6 V for more than 10 us: Off (R274, R430). -/
def vbatLoss (s : State) : State := if s.boot.phase = .off then s else powerOff s

/-- VBAT_LEVEL_CHANGE: VBAT stands at `cv` hundredths of a volt. The VBAT field is accurate to 2 per cent: its value
is free within that. [DEDUCED, log 108] -/
def vbatLevel (s : State) (cv : Nat) : State :=
  if s.boot.phase = .off then s else vbatReads s cv

/-- THERMAL_WARNING: sensor `i` reads `t`; THERM_WARN holds while any sensor reads 140 degrees or more.
[DEDUCED, log 108] -/
def thermalWarning (s : State) (i : Nat) (t : Int) : State :=
  if s.boot.phase = .off then s else thermReads (showTemp s i t)

/-- THERMAL_TRIP (R443): as RESET_N held low. -/
def thermalTrip (s : State) : State :=
  if s.boot.phase = .off then s else { beginReset s 1 with boot.thermalHeld := true }

/-- THERMAL_TRIP_CLEAR (R443). Where it releases the switch die the straps are sampled (R404): their levels are open here.
[DEDUCED, log 106] -/
def thermalClear (s : State) : State :=
  let s1 := { s with boot.thermalHeld := false }
  if s.boot.phase = .inReset ∧ s.boot.thermalHeld ∧ !s.boot.resetPin then
    let d := draw s1 8
    releaseDie d.2 ⟨⟨d.1 % 4, Nat.mod_lt _ (by decide)⟩, bitAt d.1 2⟩
  else s1

/-! Meanings. -/

/-- POWER_ON. -/
def execPowerOn (s : State) : Host.Outcome State Fault Refusal := .next (powerOn s)

/-- RAILS_GOOD. -/
def execRailsGood (straps : Straps) (s : State) : Host.Outcome State Fault Refusal := .next (railsGood s straps)

/-- MEMORY_INIT_DONE. -/
def execMemoryInitDone (fail : MemInitFail) (s : State) : Host.Outcome State Fault Refusal :=
  .next (memoryInitDone s fail)

/-- IMAGE_PASS_DONE. -/
def execImagePassDone (keyCopies : List (Fin 2)) (saves : List (Fin 64)) (s : State) : Host.Outcome State Fault Refusal :=
  .next (imagePassDone s (keyCopies.map (·.val) ++ saves.map (·.val)))

/-- CALIBRATION_DONE. -/
def execCalibrationDone (ports : List (Fin 48)) (channels : List (Fin 16)) (s : State) :
    Host.Outcome State Fault Refusal :=
  .next (calibrationDone s (ports.map fun p => p.val) (channels.map fun c => c.val))

/-- RESET_N_ASSERT. -/
def execResetNAssert (ns : Nat) (s : State) : Host.Outcome State Fault Refusal := .next (resetAssert s ns)

/-- RESET_N_RELEASE. -/
def execResetNRelease (straps : Straps) (s : State) : Host.Outcome State Fault Refusal := .next (resetRelease s straps)

/-- RESET_REQ. -/
def execResetReq (m : Master) (w : Word) (s : State) : Host.Outcome State Fault Refusal :=
  .next (resetReq s m w.toNat)

/-- VBAT_LOSS. -/
def execVbatLoss (s : State) : Host.Outcome State Fault Refusal := .next (vbatLoss s)

/-- VBAT_LEVEL_CHANGE. -/
def execVbatLevelChange (cv : Nat) (s : State) : Host.Outcome State Fault Refusal := .next (vbatLevel s cv)

/-- THERMAL_WARNING. -/
def execThermalWarning (sensor : Fin 4) (temp : Int) (s : State) : Host.Outcome State Fault Refusal :=
  .next (thermalWarning s sensor temp)

/-- THERMAL_TRIP. -/
def execThermalTrip (s : State) : Host.Outcome State Fault Refusal := .next (thermalTrip s)

/-- THERMAL_TRIP_CLEAR. -/
def execThermalTripClear (s : State) : Host.Outcome State Fault Refusal := .next (thermalClear s)

end Sys2Proof.Machine
end

