-- ==== Sys2Proof/Machine/Castling.lean ====
section
/-!
DEFINITION. Image operations, castling and the recovery mailbox (chapter 16), and life-cycle changes (R263, R264).
-/
namespace Sys2Proof.Machine

/-! Image operations (R389, R390). -/

/-- The bank of the image registers a master uses: HB's serves the PCIe host and the SPI port. -/
def imgBank : Master → Option Nat
  | .sp => some 0
  | .gc c => some (c.val + 1)
  | .host => some 5
  | .spi => some 5
  | .dbg => none

/-- An operation is done with a result. -/
def imgDone (s : State) (r : Nat) : State :=
  put (put { s with img.op := none } Reg.imgStatusState 2) Reg.imgStatusResult r

/-- An operation starts. [DEDUCED, log 110] -/
def imgStart (s : State) (op dst : Nat) (bs : List Byte) : State :=
  put { s with img.op := some (op, dst, bs) } Reg.imgStatusState 1

/-- The slot the running firmware was not loaded from. -/
def inactiveB (s : State) : Bool := !s.boot.slotB

/-- May a range of a slot be programmed: multiples of 256, 256 bytes to 1 MiB, within the slot, and clear of offsets
0xF00 to 0xFFF? -/
def rangeOk256 (dst len : Nat) : Bool :=
  dst % 256 == 0 && len % 256 == 0 && inR len 256 0x100000 && dst + len ≤ 0x3000000 &&
  !(dst < 0x1000 && 0xF00 < dst + len)

/-- Is a range of a slot erased? -/
def isErased (s : State) (b : Bool) (dst len : Nat) : Bool := (slotBytes s b dst len).all (· == 0xFF)

/-- WRITE: the bytes are taken from Bank H as it starts; a word of them that a scrub has marked cannot be read (R314).
[DEDUCED, log 110] -/
def imgWriteGo (s : State) (b : Nat) : State :=
  let dst := get s (Reg.imgDst b)
  let src := get s (Reg.imgSrc b)
  let len := get s (Reg.imgLen b)
  if b = 0 then imgDone s 12
  else if !rangeOk256 dst len ∨ src % 256 ≠ 0 then imgDone s 5
  else if !((regions s).any fun r => r.1 ≤ src && src + len ≤ r.1 + r.2.1 &&
      bitAt r.2.2.2 (if b = 5 then 0 else 2) && bitAt r.2.2.1 2) then imgDone s 12
  else if bankHMarked s src len then imgDone (takeMark s src len) 12
  else if !isErased s (inactiveB s) dst len then imgDone s 4
  else put (imgStart s 2 dst (bankHBytes s src len)) Reg.imgStatusVerified 0

/-- Is CASTLE accepted (R392, R388)? -/
def castleMay (s : State) : Bool :=
  flag s Reg.imgStatusVerified && descentPhase s == 0 && get s Reg.commitStatusState == 0 &&
  !flag s Reg.lcStatusLcBusy && !flag s Reg.fcStatusSafeState && get s Reg.coreCtlHeld == 0 &&
  highestPrefer s < 0xFFFFFFFE

/-- A castling is accepted: SPLIT, its request stamped with T+0. [DEDUCED, log 111] -/
def castleGo (s : State) : State :=
  let s1 := { s with
    env.handover := true, img.castAt := boundaryAfter s 2000, img.loaded := false, img.failDue := none
    img.spReady := false }
  put (put s1 Reg.imgStatusPhase 1) Reg.imgStatusState 1

/-- Phase of the castling (R400). -/
def castPhase (s : State) : Nat := get s Reg.imgStatusPhase

/-- A castling has not reached its flip. -/
def beforeFlip (s : State) : Bool := 1 ≤ castPhase s && castPhase s ≤ 4

/-- ABORT. -/
def imgAbort (s : State) : State :=
  if beforeFlip s then (if s.img.failDue.isSome then s else { s with img.failDue := some 12 })
  else if castPhase s = 0 then imgDone s 12
  else put s Reg.imgStatusResult 12

/-- A write of IMG_CTL with GO (R389). [DEDUCED, log 110] -/
def imgCtl (s : State) (m : Master) (op : Nat) : State :=
  match imgBank m with
  | none => s
  | some b =>
    let busy := get s Reg.imgStatusState = 1 ∧ castPhase s = 0
    if busy ∨ (castPhase s ≠ 0 ∧ op ≠ 5) then (if inR op 1 6 then put s Reg.imgStatusResult 2 else s)
    else match op with
      | 1 => put (imgStart s 1 0 []) Reg.imgStatusVerified 0
      | 2 => imgWriteGo s b
      | 3 => digestStart (imgStart s 3 0 [])
      | 4 => if castleMay s then castleGo s else imgDone s 12
      | 5 => imgAbort s
      | 6 => if b = 0 ∨ b = 5 then put { s with img.recoverDue := true } Reg.imgStatusState 1 else imgDone s 12
      | _ => s

/-- A slot erased whole. -/
def eraseSlot (s : State) (b : Bool) : State :=
  setSlotMem { s with img.spoiled := s.img.spoiled.filter (· ≠ b) } b []

/-- IMG_ERASE_DONE. -/
def imgEraseDone (s : State) : State :=
  match s.img.op with
  | some (1, _, _) => if aloft s then imgDone (eraseSlot s (inactiveB s)) 1 else s
  | _ => s

/-- IMG_WRITE_DONE. -/
def imgWriteDone (s : State) : State :=
  match s.img.op with
  | some (2, dst, bs) => if aloft s then imgDone (programSlot s (inactiveB s) dst bs) 1 else s
  | _ => s

/-- IMG_VERIFY_DONE: once the digest has had its SHA-256 core (R259). -/
def imgVerifyDone (s : State) : State :=
  match s.img.op with
  | some (3, _, _) =>
    if aloft s ∧ digestMay s then
      let v := verdict (digestEnd s) (verifySlot s (inactiveB s) true)
      putFlag (imgDone v.2 v.1) Reg.imgStatusVerified (v.1 == 1)
    else s
  | _ => s

/-! Castling (R392 to R396). -/

/-- Jobs moved to other cores; one that was running goes back to the head of the queue. [DEDUCED, log 111] -/
def moveJobs (s : State) (f : Nat → Nat) : State :=
  let out := s.jobs.running.filter fun e => f e.1 != e.1
  let back := out.map fun e => { e.2 with core := f e.1 }
  { s with
    jobs.queue := back ++ s.jobs.queue.map fun j => { j with core := f j.core }
    jobs.running := s.jobs.running.filter fun e => f e.1 == e.1
    jobs.startedAt := s.jobs.startedAt.filter fun e => f e.1 == e.1 }

/-- SHA-256 of a slot's image as its header gives it. -/
def slotDigest (s : State) (b : Bool) : List Byte := slice (slotHeader s b) 0x20 32

/-- ENV_SERIAL of a slot's envelope, whatever keys have been revoked since it was checked. [DEDUCED, log 111] -/
def slotSerial (s : State) (b : Bool) : Nat :=
  match slotEnvelope { s with otp.vkRevoked := 0 } b with
  | .ok l => l.serial
  | .error _ => 0

/-- The CASTLING entry (R267). -/
def castlingEntry (s : State) (old : Bool) (result : Nat) : State :=
  journal s 0x0003 (leBytes 1 result ++ zeros 3 ++ leBytes 4 (slotSerial s (!old)) ++ (slotDigest s old).take 16 ++
    (slotDigest s (!old)).take 16)

/-- A castling ends: IDLE, commits are admitted again. -/
def castIdle (s : State) (result : Nat) : State :=
  imgDone (put { s with env.handover := false, img.failDue := none, img.loaded := false } Reg.imgStatusPhase 0) result

/-- GC[2] and GC[3] are reset: what they had open at the host and at semaphores is gone. [DEDUCED, log 111] -/
def resetPartners (s : State) : State :=
  { s with
    host.openReads := SMap.keep s.host.openReads fun c _ => decide (c < 2)
    host.retry := SMap.keep s.host.retry fun c _ => decide (c < 2)
    host.semWait := SMap.keep s.host.semWait fun c _ => decide (c < 2) }

/-- What GC[2] and GC[3] were running starts again, but for the preparation of a handover, which is given up.
[DEDUCED, log 111] -/
def stopPartners (s : State) : State :=
  let prep := fun (j : Job) => j.kind == .castlingPrepare
  let back := (s.jobs.running.filter fun e => decide (3 ≤ e.1) && !prep e.2).map fun e => e.2
  { resetPartners s with
    jobs.queue := back ++ s.jobs.queue.filter fun j => !prep j
    jobs.running := s.jobs.running.filter fun e => decide (e.1 < 3)
    jobs.startedAt := s.jobs.startedAt.filter fun e => decide (e.1 < 3) }

/-- The digest a castling is computing is given up. -/
def dropDigest (s : State) : State := if s.vault.mcj.has digestJob then digestEnd s else s

/-- A castling is abandoned (R396): its handover commit is cancelled, and GC[2] and GC[3] are reset; they take jobs from the next
boundary. [DEDUCED, log 111] -/
def abandon (s : State) (result : Nat) : State :=
  let s0 := stopPartners (dropDigest s)
  let s1 := if get s Reg.commitStatusState = 0 then s0 else commitFail s0 9 0 0
  castlingEntry (bump { castIdle s1 result with img.abandonAt := some (tempoNo s) } Reg.imgStatsAbandoned) s.boot.slotB result

/-- T+0 of the castling: the old firmware moves its jobs onto GC[0] and GC[1]; GC[2] and GC[3] are reset, and the digest of the
new image waits for a SHA-256 core. [DEDUCED, log 111] -/
def castLoad (s : State) : State :=
  digestStart (put (resetPartners (moveJobs s fun c => if c = 3 then 1 else if c = 4 then 2 else c)) Reg.imgStatusPhase 2)

/-- CASTLING_LOAD_DONE: both parts are copied into the other code areas, the digest recomputed. -/
def castlingLoadDone (s : State) (digestsOk : Bool) : State :=
  if !aloft s ∨ castPhase s ≠ 2 ∨ s.img.loaded ∨ !digestMay s then s
  else
    let s1 := copyParts (dropDigest s) (inactiveB s) (1 - s.boot.spArea) (1 - s.boot.gcArea)
    if digestsOk ∧ digestOk s (inactiveB s) then { s1 with img.loaded := true }
    else if s.img.failDue.isSome then s1
    else { s1 with img.failDue := some 13 }

/-- New firmware starts on GC[2] and GC[3], and its handover commit takes a free slot or waits. [DEDUCED, log 111] -/
def castPrepare (s : State) : State :=
  let s1 := put (put s Reg.imgStatusPhase 3) Reg.commitStatusLateCancel 0
  let s2 := { s1 with env.commitAt := 0, env.commitOwner := 0, env.waitStart := tempoNo s }
  match freeSlot s2 with
  | some i => commitBegin s2 i
  | none => bump (put s2 Reg.commitStatusState 2) Reg.commitStatsWaits

/-- A channel whose entry changes at the flip stops: what it has queued is discarded (R394). -/
def stopChan (n : Nat) (s : State) : State :=
  let drop := fun (st : State) (q : QMsg) => releaseMsg (bump st (Reg.chQueueDrops n)) q
  let s1 := (againOf s n).foldl drop (setAgain s n [])
  let s2 := (txqOf s1 n).foldl drop (setTxq s1 n [])
  let s3 := match s2.edge.offered.find n with
    | some q => drop { s2 with edge.offered := s2.edge.offered.del n } q
    | none => s2
  linDrop (put { s3 with edge.joined := s3.edge.joined.filter (· ≠ n) } (Reg.chStatusState n) 0) n

/-- A port whose entry changes at the flip is taken to DISABLED. -/
def stopPort (p : Nat) (s : State) : State := if linkState s p = 3 then goDown s p 0 else enterLink (flushPort s p) p 0

/-- The ownership flip (R392, R394): the new envelope's structural sections are in force, and only the ports, lanes and
channels they change pause. The envelope is the one that was checked for the handover commit, with the keys that served then.
[DEDUCED, log 111] -/
def castFlip (s : State) : State :=
  let new := inactiveB s
  match slotEnvelope { s with otp.vkRevoked := s.img.vkSeen } new with
  | .error e => put s Reg.envInfoLoadResult e.1
  | .ok l =>
    let v := slotView s (curSlot s)
    let ports := changedPorts v l.view
    let chans := changedChans v l.view
    let s1 := chans.foldl (fun st n => stopChan n st) (ports.foldl (fun st p => stopPort p st) s)
    let s2 := { s1 with
      env.structural := l.view.str, env.sealed := l.sealed, boot.slotB := new, boot.gcArea := 1 - s.boot.gcArea
      img.castAt := tempoNo s }
    let s3 := checkCoefs (showEnvelope (showStructural s2 l.view) l new)
    let s4 := chans.foldl (fun st n => applyChan n st) (ports.foldl (fun st p => applyAdmin p st) s3)
    let s5 := moveJobs s4 fun c => if c = 1 then 3 else if c = 2 then 4 else c
    let s6 := put (put s5 Reg.imgFlipTempo (tempoNo s % 2 ^ 32)) Reg.imgStatusVerified 0
    let s7 := put (putFlag s6 Reg.imgStatusInactiveB (!new)) Reg.imgSerial (leAt (slotHeader s new) 0x10 4)
    put s7 Reg.imgStatusPhase 5

/-- SP_WINDOW_START: at the boundary after the flip. -/
def spWindowStart (s : State) : State :=
  if aloft s ∧ atBoundary s ∧ castPhase s = 5 ∧ s.img.castAt < tempoNo s then
    put { s with
      cpu.spWindow := true, boot.spArea := 1 - s.boot.spArea, img.windowAt := tempoNo s, img.spReady := false }
      Reg.imgStatusPhase 6
  else s

/-- SP_READY: the window ends at the next boundary. It comes too late from the eighth boundary on (R395).
[DEDUCED, log 111] -/
def spReady (s : State) : State :=
  if aloft s ∧ castPhase s = 6 ∧ !s.cpu.spHeld ∧ tempoNo s < s.img.windowAt + 8 then { s with img.spReady := true } else s

/-- SP_WINDOW_EXPIRY: the safety pair's watchdog counts from the eighth boundary of the window on. -/
def spWindowExpiry (s : State) : State :=
  if aloft s ∧ castPhase s = 6 ∧ !s.img.spReady ∧ s.img.windowAt + 8 ≤ tempoNo s then { s with cpu.spWindow := false }
  else s

/-- A castling completes: PREFER programmed, the CASTLING entry with OK (R395). -/
def castFinish (s : State) : State :=
  let s1 := programPrefer { s with cpu.spWindow := false } s.boot.slotB
  castlingEntry (bump (castIdle s1 1) Reg.imgStatsCastlings) (!s.boot.slotB) 1

/-- CASTLING_TIMEOUT. -/
def castlingTimeout (s : State) : State :=
  if aloft s ∧ beforeFlip s ∧ s.img.castAt + 4096 ≤ tempoNo s ∧ s.img.failDue.isNone then
    if atBoundary s then abandon s 15 else { s with img.failDue := some 15 }
  else s

/-- Bytes of the handover region at the top of Bank G (R387, R393). -/
def handoverBytes (s : State) : Nat := u8 (structOf s 0x0030) 0 * 0x10000

/-- The old firmware writes its carried state into the handover region (R393), once, in the tempo that ends at the flip: state that
does not fit abandons the castling. What it is is the firmware's. [DEDUCED, log 111] -/
def writeCarried (s : State) : State :=
  let bs := Config.carriedState s.freeCtr
  let n := handoverBytes s
  let s1 := { s with freeCtr := s.freeCtr + 1, img.carried := some s.env.t0 }
  if n < bs.length then { s1 with img.failDue := some (s.img.failDue.getD 14) }
  else { s1 with mem.bankG := Mem.writeBytes s.mem.bankG 0 (0x800000 - n) bs }

/-- A job of the old firmware that carries its state over, in the tempo for it. [DEDUCED, log 111] -/
def handoverJob (s : State) : State :=
  if handoverTempo s ∧ s.img.carried ≠ some s.env.t0 ∧ s.img.failDue.isNone then writeCarried s else s

/-- What abandons a castling at a boundary: a failure that is due, or SAFE_STATE. -/
def castFails (s : State) : Option Nat :=
  match s.img.failDue with
  | some r => some r
  | none => if flag s Reg.fcStatusSafeState then some 12 else none

/-- A castling at a boundary, before that boundary's commit: what abandons it. Before the flip its state is carried over, if no
job has done so. -/
def castBefore (s : State) : State :=
  if !beforeFlip s then s
  else match castFails s with
    | some r => abandon s r
    | none =>
      if castPhase s = 4 ∧ get s Reg.commitStatusState = 4 ∧ s.env.t0 ≤ tempoNo s ∧ s.img.carried ≠ some s.env.t0 then
        let s1 := writeCarried s
        if s1.img.failDue.isSome then abandon s1 14 else s1
      else s

/-- A castling at a boundary, after that boundary's commit: the phase that follows. -/
def castAfter (s : State) : State :=
  match castPhase s with
  | 1 => if s.img.castAt ≤ tempoNo s then castLoad s else s
  | 2 => if s.img.loaded then castPrepare s else s
  | 4 => if get s Reg.commitStatusState = 0 then castFlip s else s
  | 6 => if s.img.spReady ∧ !s.cpu.spHeld then castFinish s else s
  | _ => s

/-! The recovery mailbox (R397 to R399). -/

/-- A word of the mailbox. -/
def mbWord (s : State) (off : Nat) : Nat := leNat (bankHBytes s off 4)

/-- A word of the mailbox written. -/
def setMb (s : State) (off v : Nat) : State := setBankH s (Mem.writeBytes s.mem.bankH 0 off (leBytes 4 v))

/-- STATUS written: 1 busy or 2 done, RESULT and the TAG of the command taken. -/
def mbStatus (s : State) (st res tag : Nat) : State := setMb s 0x10 (st + 16 * res + 256 * tag)

/-- TAG of the last command taken. [DESIGN CHOICE, log 112] -/
def mbTag (s : State) : Nat := mbWord s 0x10 / 256

/-- A command taken that goes on in flash. [DEDUCED, log 110] -/
def romStart (s : State) (op : Nat) (b : Bool) (off len tag : Nat) (bs : List Byte) : State :=
  let s1 := { s with
    img.op := some (op, off, bs), img.rom := some (op, b, off, len)
    img.romVerified := if op ≤ 2 then s.img.romVerified.filter (· ≠ b) else s.img.romVerified }
  mbStatus s1 1 0 tag

/-- ROM looks at CMD: it takes an OP from 1 to 4 under a new TAG while no command runs. In SCRAPPED it refuses every
command (R264). ROM runs on the safety pair: while that is held it looks at none (R298, R304).
[DESIGN CHOICE, log 112] -/
def romPoll (s : State) : State :=
  let cmd := mbWord s 4
  let op := cmd % 16
  let b := bitAt cmd 4
  let tag := cmd / 256
  let off := mbWord s 8
  let len := mbWord s 0xC
  if s.boot.phase ≠ .recovery ∨ s.cpu.spHeld ∨ s.img.rom.isSome ∨ !inR op 1 4 ∨ tag = mbTag s then s
  else if lifeCycle s = 4 then mbStatus s 2 12 tag
  else match op with
    | 1 => romStart s 1 b 0 0 tag []
    | 2 =>
      if !rangeOk256 off len then mbStatus s 2 5 tag
      else if !isErased s b off len then mbStatus s 2 4 tag
      else romStart s 2 b off len tag (bankHBytes s 0x100000 len)
    | 3 => romStart s 3 b 0 0 tag []
    | _ => if s.img.romVerified.contains b then beginReset (programPrefer s b) 5 else mbStatus s 2 11 tag

/-- The host writes OFFSET, LEN and then CMD with a new TAG. [DESIGN CHOICE, log 112] -/
def mbCommand (s : State) (op : Nat) (b : Bool) (off len : Nat) : State :=
  if s.boot.phase ≠ .recovery then s
  else
    let tag := (mbTag s + 1) % 2 ^ 24
    romPoll (setMb (setMb (setMb s 8 off) 0xC len) 4 (op + 16 * b2n b + 256 * tag))

/-- RECOVERY_COMMAND_DONE. -/
def recoveryDone (s : State) : State :=
  match s.img.rom with
  | none => s
  | some (op, b, off, _) =>
    if s.boot.phase ≠ .recovery ∨ s.cpu.spHeld then s
    else
      let tag := mbTag s
      let bs := match s.img.op with
        | some x => x.2.2
        | none => []
      let s1 := { s with img.op := none, img.rom := none }
      romPoll (match op with
        | 1 => mbStatus (eraseSlot s1 b) 2 1 tag
        | 2 => mbStatus (programSlot s1 b off bs) 2 1 tag
        | _ =>
          let v := verdict s1 (verifySlot s1 b false)
          let s2 := if v.1 = 1 then { v.2 with img.romVerified := b :: v.2.img.romVerified.filter (· ≠ b) } else v.2
          mbStatus s2 2 v.1 tag)

/-! Life-cycle changes (R263, R264). -/

/-- LC_REQ.RESULT set; source 20 is raised when it changes (R355). [DEDUCED, log 97] -/
def lcResult (s : State) (r : Nat) : State :=
  let s1 := put s Reg.lcReqResult r
  if get s Reg.lcReqResult = r then s1 else raiseSource s1 20

/-- What the table of transitions has for a request (R263): a change, a refusal, or no row, which is no action (R13). In the
castling window of the safety pair every change is refused (R395). [DEDUCED, log 97] -/
def lcStep (s : State) (goal : Nat) : Option Bool :=
  if lifeCycle s = 4 ∨ goal ≤ lifeCycle s ∨ castPhase s = 6 then some false
  else match lifeCycle s, goal with
    | 0, 1 => some (s.otp.rootCust && s.otp.vkProg % 16 != 0)
    | 1, 2 => some true
    | 2, 3 => some true
    | 1, 4 => some true
    | 2, 4 => some true
    | 3, 4 => some true
    | _, _ => none

/-- Does LC_AUTH verify (R264)? -/
def lcAuthOk (s : State) : Bool :=
  slotReady s 6 &&
  slice (Config.cmac (keyOf s 6) (ascii "GK-RETURN" ++ slice Config.uid 0 16 ++ beBytes 8 (s.sheet.nextSeq - 1))) 0 16 ==
    regBytes s 4 Reg.lcAuth

/-- What a change to RETURN or SCRAPPED erases of the blob region. [DEDUCED, log 97] -/
def lcErase (s : State) (goal : Nat) : State :=
  let keys := { s with vault.gen := [], vault.held := [], vault.imported := [], vault.revoked := [], vault.copies := [] }
  if goal = 3 then keys
  else if goal = 4 then { keys with edge.fvSaves := [] }
  else s

/-- A change carried out: the LC_CHANGE entry, the fuse, the wipe, and the life-cycle reset. The entry's result byte
for a change that is made has no value in the manual. [DEDUCED, log 97] -/
def lcChange (s : State) (m : Master) (goal : Nat) : State :=
  let d := draw s 256
  let s1 := sheetAppend d.2 0x0020
    (leBytes 1 (lifeCycle s) ++ leBytes 1 goal ++ leBytes 1 (conflictCode m) ++ leBytes 1 d.1)
  beginReset (wipeSecure (lcErase { s1 with otp.lc := goal } goal)) 3

/-- A change that the safety pair takes up: refused while no entry can be made, tried against LC_AUTH, and carried out.
[DEDUCED, log 97] -/
def lcAct (s : State) (m : Master) (goal : Nat) : State :=
  if !sheetWritable s ∧ goal ≠ 4 then lcResult s 4
  else if goal = 3 ∧ !lcAuthOk s then
    lcResult (journal s 0x0020 (leBytes 1 2 ++ leBytes 1 3 ++ leBytes 1 (conflictCode m) ++ leBytes 1 3)) 3
  else lcChange s m goal

/-- Is the safety pair held, or halted by the debugger? [DEDUCED, log 97] -/
def pairAway (s : State) : Bool := s.cpu.spHeld || s.cpu.halted.contains 0

/-- A write of LC_REQ: from SP, HB, and DBG in MANUFACTURE. A change is a duty of the safety pair (R298): while the pair is
held or halted the request waits under LC_BUSY, and a second one meanwhile has no effect. [DEDUCED, log 97] -/
def lcReqWrite (s : State) (m : Master) (w : Nat) : State :=
  let goal := w % 8
  let may : Bool := match m with
    | .sp => true
    | .host => true
    | .spi => true
    | .dbg => lifeCycle s == 0
    | .gc _ => false
  if !may ∨ !bitAt w 3 ∨ flag s Reg.lcStatusLcBusy then s
  else match lcStep s goal with
    | none => s
    | some false => lcResult s 2
    | some true =>
      if pairAway s then { put s Reg.lcStatusLcBusy 1 with boot.lcPend := some (goal, m) }
      else lcAct s m goal

/-- A request that waited for the safety pair is taken up at the first boundary at which the pair works again,
and judged anew. [DEDUCED, log 97] -/
def lcResume (s : State) : State :=
  match s.boot.lcPend with
  | some (goal, m) =>
    if pairAway s then s
    else
      let s1 := { put s Reg.lcStatusLcBusy 0 with boot.lcPend := none }
      if lcStep s goal = some true then lcAct s1 m goal else lcResult s1 2
  | none => s

/-! Meanings. -/

/-- IMG_ERASE. -/
def execImgErase (m : Master) (s : State) : Host.Outcome State Fault Refusal :=
  .next (accessWrite s m 0x1000 fun t => imgCtl t m 1)

/-- IMG_ERASE_DONE. -/
def execImgEraseDone (s : State) : Host.Outcome State Fault Refusal := .next (imgEraseDone s)

/-- IMG_WRITE. -/
def execImgWrite (m : Master) (s : State) : Host.Outcome State Fault Refusal :=
  .next (accessWrite s m 0x1000 fun t => imgCtl t m 2)

/-- IMG_WRITE_DONE. -/
def execImgWriteDone (s : State) : Host.Outcome State Fault Refusal := .next (imgWriteDone s)

/-- IMG_VERIFY. -/
def execImgVerify (m : Master) (s : State) : Host.Outcome State Fault Refusal :=
  .next (accessWrite s m 0x1000 fun t => imgCtl t m 3)

/-- IMG_VERIFY_DONE. -/
def execImgVerifyDone (s : State) : Host.Outcome State Fault Refusal := .next (imgVerifyDone s)

/-- CASTLE. -/
def execCastle (m : Master) (s : State) : Host.Outcome State Fault Refusal :=
  .next (accessWrite s m 0x1000 fun t => imgCtl t m 4)

/-- CASTLING_LOAD_DONE. -/
def execCastlingLoadDone (digestsOk : Bool) (s : State) : Host.Outcome State Fault Refusal :=
  .next (castlingLoadDone s digestsOk)

/-- SP_WINDOW_START. -/
def execSpWindowStart (s : State) : Host.Outcome State Fault Refusal := .next (spWindowStart s)

/-- SP_READY. -/
def execSpReady (s : State) : Host.Outcome State Fault Refusal := .next (spReady s)

/-- SP_WINDOW_EXPIRY. -/
def execSpWindowExpiry (s : State) : Host.Outcome State Fault Refusal := .next (spWindowExpiry s)

/-- CASTLING_TIMEOUT. -/
def execCastlingTimeout (s : State) : Host.Outcome State Fault Refusal := .next (castlingTimeout s)

/-- IMG_ABORT. -/
def execImgAbort (m : Master) (s : State) : Host.Outcome State Fault Refusal :=
  .next (accessWrite s m 0x1000 fun t => imgCtl t m 5)

/-- IMG_RECOVER. -/
def execImgRecover (m : Master) (s : State) : Host.Outcome State Fault Refusal :=
  .next (accessWrite s m 0x1000 fun t => imgCtl t m 6)

/-- RECOVERY_ERASE. -/
def execRecoveryErase (slotB : Bool) (s : State) : Host.Outcome State Fault Refusal :=
  .next (mbCommand s 1 slotB (mbWord s 8) (mbWord s 0xC))

/-- RECOVERY_WRITE. -/
def execRecoveryWrite (slotB : Bool) (off len : Nat) (s : State) : Host.Outcome State Fault Refusal :=
  .next (mbCommand s 2 slotB off len)

/-- RECOVERY_VERIFY. -/
def execRecoveryVerify (slotB : Bool) (s : State) : Host.Outcome State Fault Refusal :=
  .next (mbCommand s 3 slotB (mbWord s 8) (mbWord s 0xC))

/-- RECOVERY_BOOT. -/
def execRecoveryBoot (slotB : Bool) (s : State) : Host.Outcome State Fault Refusal :=
  .next (mbCommand s 4 slotB (mbWord s 8) (mbWord s 0xC))

/-- RECOVERY_COMMAND_DONE. -/
def execRecoveryCommandDone (s : State) : Host.Outcome State Fault Refusal := .next (recoveryDone s)

/-- LC_REQ. -/
def execLcReq (m : Master) (w : Word) (s : State) : Host.Outcome State Fault Refusal :=
  .next (accessWrite s m 0xC0008 fun t => lcReqWrite t m w.toNat)

end Sys2Proof.Machine
end

