-- ==== Sys2Proof/Machine/HostTx.lean ====
section
/-!
DEFINITION. Transmit rings (R339): fetching by weighted round-robin, the end of a fetch, and completions in
descriptor order.
-/
namespace Sys2Proof.Machine

/-- The descriptor at HEAD. -/
def headDesc (s : State) (r : Nat) : List Byte := ((ringOf s r).descs.find (get s (Reg.ringHeadHead r))).getD []

/-- Does a transmit descriptor keep its rules (R336)? -/
def txDescOk (d : List Byte) : Bool := inR (leAt d 8 2) 60 10236 && leAt d 10 2 < 2 && allZero d 16 16

/-- May a transmit ring be served: enabled, not stopped, with a descriptor posted? -/
def txServable (s : State) (r : Nat) : Bool :=
  flag s (Reg.ringCfgEn r) && !flag s (Reg.ringHeadStopped r) && ringPosted s r != 0

/-- The ring served next, and the frames left of its turn with this one. -/
def txNext (s : State) : Option (Nat × Nat) :=
  if s.host.wrrLeft ≠ 0 ∧ txServable s s.host.wrrRing then some (s.host.wrrRing, s.host.wrrLeft)
  else
    ((List.range 32).map fun i => 32 + (s.host.wrrRing + 1 + i) % 32).find? (txServable s ·) |>.map fun r => (r, txWeight s r)

/-- Has the P48 staging FIFO room for the frame of a descriptor? -/
def txRoom (s : State) (d : List Byte) : Bool := !txDescOk d || stagingBytes s 48 + leAt d 8 2 + 4 ≤ stagingLimit

/-- The fetch of a ring's descriptor and frame goes out, or yields: it is withdrawn, to be retried after 1 us (R331).
[DEDUCED, log 115; DESIGN CHOICE, log 116] -/
def startFetch (s : State) (r left : Nat) (stalled : Bool) : State :=
  let d := headDesc s r
  if !txRoom s d then s
  else if stalled then
    bump { s with host.fetchRetry := some (r, s.time.now) } Reg.brRetriesStalemateRetries
  else
    let h := get s (Reg.ringHeadHead r)
    let s1 := { s with host.fetching := some (r, h), host.wrrRing := r, host.wrrLeft := left - 1 }
    let s2 := sendToHost (drainPosted s1) (.hostRead (get s (Reg.ringDescBase r) + 32 * h) 32)
    if txDescOk d then sendToHost s2 (.hostRead (leAt d 0 8) (leAt d 8 2)) else s2

/-- May a fetch go out: none is in hand, P48 is UP, and its ingress is open? -/
def fetchMay (s : State) : Bool := aloft s && p48Up s && s.host.fetching.isNone && !ingressClosed s

/-- TX_FETCH. While a fetch is withdrawn no other goes out. [DEDUCED, log 115; DESIGN CHOICE, log 116] -/
def txFetch (s : State) (stalled : Bool) : State :=
  if !fetchMay s ∨ s.host.fetchRetry.isSome then s
  else match txNext s with
    | none => s
    | some (r, left) => startFetch s r left stalled

/-- STALEMATE_RETRY of a withdrawn fetch (R331). [DEDUCED, log 115; DESIGN CHOICE, log 116] -/
def fetchAgain (s : State) (stalled : Bool) : State :=
  match s.host.fetchRetry with
  | none => s
  | some (r, t) =>
    if s.time.now < t + 1000 then s
    else
      let s1 := { s with host.fetchRetry := none }
      if fetchMay s1 ∧ txServable s1 r then
        startFetch s1 r (if s1.host.wrrRing = r ∧ s1.host.wrrLeft ≠ 0 then s1.host.wrrLeft else txWeight s1 r) stalled
      else s1

/-- P48 has left UP: every frame queued on its leaves is discarded and counted in P48_LINKDOWN (R16, R324). -/
def leftUp (was : Bool) (s : State) : State := if was && !p48Up s then flushPort s 48 else s

/-- A descriptor consumed, its completion waiting in descriptor order. -/
def txConsume (s : State) (r h : Nat) (d : List Byte) (status : Nat) (unit : Option Nat) : State :=
  let s1 := consume s r
  let x := ringOf s1 r
  let w : TxWait := ⟨h, slice d 12 4, status, none, unit.isNone, unit⟩
  setRing s1 r { x with waiting := x.waiting ++ [w] }

/-- A fetched frame enters P48; a MAC control frame is dropped there (R105). -/
def txFrame (s : State) (r h : Nat) (d bytes : List Byte) : State :=
  let bs := slice bytes 0 (leAt d 8 2)
  let ts := bitAt (leAt d 10 2) 0
  let f : WireFrame := ⟨bs, false, none, false, false, false⟩
  let s1 := bump s (Reg.ringFrames r)
  let status := if ts then 3 else 0
  let x := if etypeAt bs 12 = 0x8808 then (some 0, s1) else receiveFrame s1 48 bs
  match x.1 with
  | none =>
    let uid := if ts then some x.2.net.nextUid else none
    txConsume (addPacket x.2 { newPacket x.2 48 f none with tsReq := ts }) r h d status uid
  | some k => txConsume (countEnd x.2 48 k) r h d status none

/-- TX_FETCH_DONE. A fetch whose ring was disabled or enabled anew meanwhile is discarded. [DEDUCED, log 115] -/
def txFetchDone (s : State) (res : FetchResult) : State :=
  match s.host.fetching with
  | none => s
  | some (r, h) =>
    let s1 := { s with host.fetching := none }
    if !txServable s r ∨ get s (Reg.ringHeadHead r) ≠ h then s1
    else
      let d := headDesc s r
      let stop := fun (st : State) => put (txConsume st r h d 2 none) (Reg.ringHeadStopped r) 1
      match res with
      | .descError => stop s1
      | .frameError => if txDescOk d then stop s1 else bump (txConsume s1 r h d 1 none) (Reg.ringErrBadDesc r)
      | .frame bytes =>
        if txDescOk d then txFrame s1 r h d bytes else bump (txConsume s1 r h d 1 none) (Reg.ringErrBadDesc r)

/-- PHASE of a waiting completion: the ring's, or its inverse when HEAD has wrapped since. -/
def waitPhase (s : State) (r idx : Nat) : Bool := (ringOf s r).phase == decide (idx < get s (Reg.ringHeadHead r))

/-- STATUS and the timestamp of a completion: one that asks for a timestamp waits as NO_TS until a replica has
been sent. [DEDUCED, log 115] -/
def txStatus (w : TxWait) : Nat × Nat :=
  match w.status, w.time with
  | 3, some t => (0, t)
  | st, _ => (st, 0)

/-- TX_COMPLETION: the oldest completion of a ring, once it may be written. -/
def txCompletion (s : State) (r : Nat) : State :=
  let x := ringOf s r
  match x.waiting with
  | [] => s
  | w :: rest =>
    if !p48Up s ∨ !w.ready then s
    else
      let st := txStatus w
      let entry := leBytes 8 st.2 ++ slice w.cookie 0 4 ++ leBytes 2 w.idx ++ leBytes 1 st.1 ++
        leBytes 1 (128 * b2n (waitPhase s r w.idx))
      moderate (writeCpl (setRing s r { x with waiting := rest }) r w.idx entry) r

/-! Meanings. -/

/-- P48_STATE_CHANGE. -/
def execP48StateChange (st : LinkState) (s : State) : Host.Outcome State Fault Refusal :=
  .next (leftUp (p48Up s) (p48StateChange s st))

/-- D3HOT_ENTRY. -/
def execD3hotEntry (pm : PmWrite) (s : State) : Host.Outcome State Fault Refusal :=
  .next (leftUp (p48Up s) (d3hotEntry s pm))

/-- HOST_INTERFACE_RESET. -/
def execHostInterfaceReset (kind : HostResetKind) (s : State) : Host.Outcome State Fault Refusal :=
  .next (leftUp (p48Up s) (hostReset s kind))

/-- STALEMATE_RETRY: of a core's request, or, for 4, of the transmit fetch. -/
def execStalemateRetry (c : Fin 5) (stalled : Bool) (s : State) : Host.Outcome State Fault Refusal :=
  .next (if c.val = 4 then fetchAgain s stalled else stalemateRetry s c stalled)

/-- TX_FETCH. -/
def execTxFetch (stalled : Bool) (s : State) : Host.Outcome State Fault Refusal := .next (txFetch s stalled)

/-- TX_FETCH_DONE. -/
def execTxFetchDone (result : FetchResult) (s : State) : Host.Outcome State Fault Refusal :=
  .next (txFetchDone s result)

/-- TX_COMPLETION. -/
def execTxCompletion (r : Fin 64) (s : State) : Host.Outcome State Fault Refusal := .next (txCompletion s r)

end Sys2Proof.Machine
end

