-- ==== Sys2Proof/Machine/Flags.lean ====
section
/-!
DEFINITION. Status fields that the manual computes from other state: their values at the moment they are read.
-/
namespace Sys2Proof.Machine

/-! Which bank of a banked register a master uses (R78, R261, R334, R360, R400). -/

/-- The bank number of the register at an offset for a master. -/
def regBank (m : Master) (a : Nat) : Nat :=
  if inR a 0x1000 0x1027 then (imgBank m).getD 9
  else if inR a 0x80010 0x80023 then targetOf m
  else if inR a 0xC0180 0xC01BF then (mcjBank m).getD 9
  else if inR a 0x100020 0x10002F then origin m
  else conflictCode m

/-! Views, block by block. -/

/-- A CMT field as the current slot has it (R11, R63), or 0 in a unit that lacks it; a fixed source shows its fixed
routing (R356). -/
def cmtShown (s : State) (f : Fld) : Nat :=
  if inR f.addr 0x82000 0x83FFF ∧ srcFixed ((f.addr - 0x82000) / 4) then
    let n := (f.addr - 0x82000) / 4
    if f = Reg.srcCfgClass n then srcClassReset n
    else if f = Reg.srcCfgTarget n then srcTargetReset n
    else srcVectorReset n
  else if cmtLive s f then cur s f
  else 0

/-- KEY_REVOKED: the SA's key slot is REVOKED. -/
def saRevoked (s : State) (p i : Nat) : Bool :=
  cur s (Reg.saKeyValid p i) == 1 && (slotOf s (cur s (Reg.saKeyKeySlot p i))).any fun v => v.state == 2

/-- Ports: KEY_REVOKED of an SA. -/
def viewPorts (s : State) (f : Fld) : Option Nat :=
  let p := (f.addr - 0x200000) / 0x10000
  let o := f.addr % 0x10000
  if 0x1000 ≤ o ∧ (o - 0x1000) % 0x40 = 0x28 ∧ f.lsb = 2 then some (b2n (saRevoked s p ((o - 0x1000) / 0x40))) else none

/-- Switch core: USED of a port (R119). -/
def viewSwitch (s : State) (f : Fld) : Option Nat :=
  if inR f.addr 0x501000 0x501CFF ∧ (f.addr - 0x501000) % 0x40 = 0x30 then some (portUsed s ((f.addr - 0x501000) / 0x40))
  else none

/-- Entries on the timing wheel (R190). -/
def wheelUsed (s : State) : Nat :=
  (s.tm.leafTok.filter fun e => e.2.wheel.isSome).length + (s.tm.portTok.filter fun e => e.2.wheel.isSome).length

/-- Traffic manager: the wheel, tokens and depths. -/
def viewTm (s : State) (f : Fld) : Option Nat :=
  if f.addr = 0x800000 then some (wheelUsed s)
  else if inR f.addr 0x810000 0x828FFF then
    let p := (f.addr - 0x810000) / 0x800
    let o := (f.addr - 0x810000) % 0x800
    if o = 0x14 then some (tokBytes (portTok s p))
    else if o < 0x100 then none
    else
      let q := (o - 0x100) / 8
      if o % 8 = 0 then some (tokBytes (leafTok s p q))
      else if f.lsb = 0 then some (min 65535 (queueOf s p q).length)
      else some (b2n ((s.tm.leafTok.find (64 * p + q)).any fun b => b.wheel.isSome))
  else none

/-- The vault slot that SLOT_SEL names. -/
def shownSlot (s : State) : Option VSlot := slotAttrs s (get s Reg.slotSel)

/-- The AES cores the work in hand may occupy (R258): 0 to 4 by line work, 5 to 7 by edge work, any by bulk work.
[DESIGN CHOICE, log 119] -/
def coresOpen (s : State) : Nat :=
  if s.vault.mcj.any fun e => !onSha e.2 && mcjState s e.1 == 2 then 255
  else 0x1F * b2n (lineWork s) + 0xE0 * b2n (edgeWork s)

/-- AES cores busy: some of those the work in hand may occupy; which is not stated. [DESIGN CHOICE, log 119] -/
def coresBusy (s : State) : Nat := Config.free s.freeCtr &&& coresOpen s

/-- REMASK_PERIOD in force: 10 without a globals record. -/
def remaskPeriod (s : State) : Nat :=
  match recOf s (curSlot s) 0x0500 0 with
  | some b => u8 b 0
  | none => 10

/-- Vault and MAC cluster: readiness, life cycle, slot inspection (R265, R263, R244). -/
def viewVault (s : State) (f : Fld) : Option Nat :=
  let of := fun (g : VSlot → Nat) => some (((shownSlot s).map g).getD 0)
  if f = Reg.vaultStatusSlotsReady then some (s.vault.slots.filter fun e => e.2.state == 1).length
  else if f = Reg.lcStatusState then some (lifeCycle s)
  else if f = Reg.lcStatusVkProg then some s.otp.vkProg
  else if f = Reg.lcStatusVkRevoked then some s.otp.vkRevoked
  else if f = Reg.lcStatusRootCustProg then some (b2n s.otp.rootCust)
  else if f = Reg.slotStateState then of (·.state)
  else if f = Reg.slotStateLen256 then of fun v => b2n v.len256
  else if f = Reg.slotStateOrigin then of (·.origin)
  else if f = Reg.slotStateDepth then of (·.depth)
  else if f = Reg.slotStateParent then of (·.parent)
  else if f = Reg.slotAttrMasters then of (·.masters)
  else if f = Reg.slotAttrSecure then of fun v => b2n v.secure
  else if f = Reg.slotAttrLc then of (·.lc)
  else if f = Reg.slotAttrUsage then of (·.usage)
  else if f = Reg.slotAttrRevokeBy then of (·.revokeBy)
  else if f = Reg.slotGen then some (genOf s (get s Reg.slotSel))
  else if f = Reg.slotUses then some (get s (usesFld (get s Reg.slotSel)))
  else if f = Reg.remaskStatusPeriod then some (remaskPeriod s)
  else if f = Reg.macStatusCoresBusy then some (coresBusy s)
  else none

/-- Power and wake: blockers and networks (R276 to R278). -/
def viewPower (s : State) (f : Fld) : Option Nat :=
  if f = Reg.pwrStatusBlockers then some (blockers s)
  else if inR f.addr 0x10100 0x1017F then
    let n := (f.addr - 0x10100) / 4
    if f.lsb = 0 then some (b2n (netAwake s n))
    else if f.lsb = 1 then some (b2n (netSuppressed s n))
    else some (min 16777215 (episodeSeconds s n))
  else none

/-- Host bridge: the ledger, semaphores and outbound windows (R334, R332, R351). -/
def viewHost (s : State) (m : Master) (f : Fld) : Option Nat :=
  let org := origin m
  if f.addr = 0x100020 ∧ f.lsb = 0 then some (s.host.ledger.filter fun e => e.origin == org).length
  else if f.addr = 0x100024 then some (((ledgerOldest s org).map fun e => e.addr).getD 0)
  else if f.addr = 0x10002C then some ((ledgerTake s org).1 / 2 ^ f.lsb)
  else if inR f.addr 0x100100 0x10017F ∧ f.lsb = 6 then
    some (b2n (org != 0 && semOwner s ((f.addr - 0x100100) / 4) == org))
  else if inR f.addr 0x100200 0x10027F then
    let b := (recOf s (curSlot s) 0x0700 (2 ^ 24 + (f.addr - 0x100200) / 16)).getD (zeros 16)
    let o := f.addr % 16
    some (if o = 0 then leAt b 0 8 else if o = 8 then leAt b 8 4 else leAt b 12 2)
  else none

/-- The source a target has active in a class: the lowest-numbered one. -/
def activeSource (s : State) (t cls : Nat) : Nat :=
  match s.intc.claimedBy.find? fun e => e.2 == t * 2 + cls with
  | some e => e.1
  | none => 2047

/-- Interrupt controller: a target's status, and what a claim would return (R69). -/
def viewIntc (s : State) (m : Master) (f : Fld) : Option Nat :=
  let t := targetOf m
  if f.addr = 0x80010 then some ((claim s t 0).1 / 2 ^ f.lsb)
  else if f.addr = 0x80018 then some ((claim s t 1).1 / 2 ^ f.lsb)
  else if f.addr ≠ 0x80020 then none
  else if f.lsb = 0 then some (b2n (claimNext s t 0).isSome)
  else if f.lsb = 1 then some (b2n (claimNext s t 1).isSome)
  else if f.lsb = 2 then some (activeSource s t 0)
  else some (activeSource s t 1)

/-- Fault collector: the records (R366). -/
def viewFault (s : State) (f : Fld) : Option Nat :=
  if f = Reg.fcStatusRecords then some s.fault.recs.length
  else if inR f.addr 0xA0100 0xA01FF then
    match s.fault.recs[(f.addr - 0xA0100) / 16]? with
    | none => some 0
    | some r =>
      let o := f.addr % 16
      some (if o = 0 then
          (if f.lsb = 0 then r.code else if f.lsb = 16 then r.sev else if f.lsb = 18 then 1 else r.repeats)
        else if o = 4 then (if f.lsb = 0 then r.unit else r.deadline)
        else if o = 8 then r.tempo % 2 ^ 32
        else r.detail)
  else none

/-- A core's selection record of COUNTERS (R384). -/
def coreRec (s : State) (c : Nat) : List Byte := (recOf s (curSlot s) 0x0600 (2 ^ 24 + c)).getD (zeros 16)

/-- The counters behind the central reader's mirror registers (R382), in their order. -/
def crSources : List Fld :=
  [cntShadowMismatch, cntSelftestPasses, Reg.fcStatsRecorded, Reg.fcStatsEscalations, Reg.keyStatsDenied,
   Reg.keyStatsRevokedAborts, Reg.remaskStatusPasses, Reg.injPasses, Reg.guardViol, Reg.hViol]

/-- The group of a mirror register. -/
def crGroup (i : Nat) : Nat := if i < 2 then 0 else if i < 4 then 1 else if i < 7 then 2 else 3

/-- Counters: mirror registers behind EXPOSE, selections, a freeze pending, a dump being written. -/
def viewCnt (s : State) (m : Master) (f : Fld) : Option Nat :=
  if inR f.addr 0xC00100 0xC00127 then
    if m == .sp || bitAt (get s Reg.crCtlExpose) (crGroup ((f.addr - 0xC00100) / 4)) then none else some 0
  else if f = Reg.snapStatusPending then some (b2n s.cnt.snapAt.isSome)
  else if f = Reg.dumpStatusWriting then some (b2n (!s.cnt.dump.isEmpty))
  else if inR f.addr 0xC01000 0xC014FF then
    let c := (f.addr - 0xC01000) / 0x100
    let o := f.addr % 0x100
    if o = 0x48 then some (leAt (coreRec s c) 0 4) else if o = 0x4C then some (leAt (coreRec s c) 4 4) else none
  else none

/-! Frozen values (R379). -/

/-- RC fields that are no counters: extremes since the last read and values a read takes away. -/
def extremeFlds : List Fld :=
  [Reg.tempoStatsMaxDefer, Reg.commitStatsMaxWait, Reg.bufMin, Reg.recircStatusHighWater, Reg.fragEntriesFragHigh,
   Reg.wheelRounds, Reg.macStatusMaxLineWait, Reg.vbatRangeVbatMin, Reg.vbatRangeVbatMax] ++
  (List.range 4).map Reg.tempPeak

/-- Is a field a counter with an accumulator behind it (R374)? -/
def isCounter (f : Fld) : Bool :=
  f.ty == .rc && !extremeFlds.contains f && !inR f.addr 0x10002C 0x10002F && !inR f.addr 0x80010 0x8001B

/-- Data registers of the table access ports. -/
def tableData (a : Nat) : Bool :=
  inR a 0x500044 0x500053 || inR a 0x600040 0x6000FF || inR a 0x610140 0x6101FF || inR a 0x800040 0x8000DF ||
  inR a 0xB00100 0xB001FF

/-- Blocks whose RO fields are frozen. -/
def frozenBlock (a : Nat) : Bool :=
  inR a 0x20000 0x2FFFF || inR a 0x40000 0x4FFFF || inR a 0x200000 0x4FFFFF || inR a 0x500000 0x5FFFFF ||
  inR a 0x600000 0x6107FF || inR a 0x800000 0x95FFFF || inR a 0xA00000 0xB013FF

/-- The slot counts and the core counters. -/
def countsFld (f : Fld) : Bool :=
  inR f.addr 0xC00020 0xC00047 || (inR f.addr 0xC01000 0xC014FF && f.width == 64)

/-- Is a field in the frozen set? -/
def inFrozenSet (f : Fld) : Bool :=
  isCounter f || countsFld f || (f.ty == .ro && frozenBlock f.addr && !tableData f.addr)

/-- The field FRZ_SEL names, as the master's own bank has it, with the word of it. -/
def frozenSel (s : State) (m : Master) : Option (Fld × Nat) :=
  let a := 4 * get s Reg.frzSelOffset
  (fieldsAt (regBank m a) a).find? fun e => e.1.lsb == get s Reg.frzSelLsb && inFrozenSet e.1

/-- FRZ_STATUS: 0 OK, 1 NOT_IN_SET, 2 NO_FREEZE. -/
def frozenStatus (s : State) (m : Master) : Nat :=
  if !flag s Reg.snapStatusValid then 2 else if (frozenSel s m).isNone then 1 else 0

/-- FRZ_DATA: a counter's accumulator, any other field's value; 0 unless the status is OK. [DEDUCED, log 117] -/
def frozenData (s : State) (m : Master) : Nat :=
  match frozenSel s m with
  | none => 0
  | some (f, k) =>
    if frozenStatus s m ≠ 0 then 0
    else
      let g := if f = Reg.slotUses then usesFld (get s Reg.slotSel) else f
      let v := if isCounter f then (s.cnt.frzAccum.find g.key).getD 0 else (s.cnt.frzRegs.find g.key).getD g.reset
      v / 2 ^ (32 * k)

/-! Any field. -/

/-- The value of a field that is computed, for the master that reads it. -/
def viewOf (s : State) (m : Master) (f : Fld) : Option Nat :=
  let a := f.addr
  if f.ty = .cmt then some (cmtShown s f)
  else if inR a 0x200000 0x4FFFFF then viewPorts s f
  else if inR a 0x500000 0x5FFFFF then viewSwitch s f
  else if inR a 0x800000 0x95FFFF then viewTm s f
  else if inR a 0xC0000 0xC02FF then viewVault s f
  else if inR a 0x10000 0x10183 then viewPower s f
  else if inR a 0x100000 0x101FFF then viewHost s m f
  else if inR a 0x80000 0x81FFF then viewIntc s m f
  else if inR a 0xA0000 0xBFFFF then viewFault s f
  else if f = Reg.sbAnchors then some s.otp.anchors.length
  else if f = Reg.frzData then some (frozenData s m)
  else if f = Reg.frzStatus then some (frozenStatus s m)
  else if inR a 0xC00000 0xC014FF then viewCnt s m f
  else none

/-- The value of a field as a master reads it: a WO field reads 0 (R11). -/
def fieldValue (s : State) (m : Master) (f : Fld) : Nat :=
  if f.ty = .wo then 0 else ((viewOf s m f).getD (get s f)) % 2 ^ f.width

/-- A register's 32 bits from its fields and the word of each that it shows. -/
def wordOf (s : State) (m : Master) (fs : List (Fld × Nat)) : Nat :=
  fs.foldl (fun w e =>
    let v := fieldValue s m e.1
    w + (if e.1.width ≤ 32 then v * 2 ^ e.1.lsb else v / 2 ^ (32 * e.2) % 2 ^ 32)) 0

/-! CMT_PEEK (R69). -/

/-- A register's word with staged CMT values in place of current ones; a reserved offset reads 0. -/
def peekWord (s : State) (m : Master) (a : Nat) : Nat :=
  let staged := fun (f : Fld) =>
    match (if f.ty = .cmt then s.env.staged.find f.key else none) with
    | some v => v
    | none => fieldValue s m f
  (fieldsAt (regBank m a) a).foldl (fun w e =>
    w + (if e.1.width ≤ 32 then staged e.1 * 2 ^ e.1.lsb else staged e.1 / 2 ^ (32 * e.2) % 2 ^ 32)) 0

/-! Fields brought up to date before a read. -/

/-- What is computed only when it is looked at, brought up to now: the gates of a port, a flow gate. -/
def settle (s : State) (a : Nat) : State :=
  if inR a 0x810000 0x828FFF then gateSync s ((a - 0x810000) / 0x800)
  else if inR a 0x940000 0x941FFF then flowSync s ((a - 0x940000) / 8)
  else if inR a 0x10100 0x1017F then netSync s ((a - 0x10100) / 4)
  else s

/-- Every gate brought up to now. -/
def settleAll (s : State) : State :=
  let s1 := forIdx 50 (fun p st => gateSync st p) s
  (recsOf s1 (curSlot s1) 0x0210).foldl (fun st e => if e.1 / 2 ^ 24 = 2 then flowSync st (e.1 % 2 ^ 24) else st) s1

end Sys2Proof.Machine
end

