-- ==== Sys2Proof/Machine/Counters.lean ====
section
/-!
DEFINITION. The freeze, the periodic dumps, the counter page, the central reader and the core counters (chapter 15).
-/
namespace Sys2Proof.Machine

/-! The freeze (R378, R379). -/

/-- The computed fields of the frozen set. -/
def computedFlds : List Fld :=
  [Reg.cmtPeekData, Reg.wheelStatus] ++
  (List.range 48).flatMap (fun p => (List.range 36).map fun i => Reg.saStatKeyRevoked p i) ++
  (List.range 52).map Reg.swUsed ++
  (List.range 50).flatMap (fun p => Reg.tmPortTokens p ::
    (List.range 64).flatMap fun q => [Reg.tmLeafTokens p q, Reg.tmLeafDepth p q, Reg.tmLeafOnWheel p q])

/-- The frozen copy of the register fields: what is stored, and what is computed now. -/
def frozenRegs (s : State) : SMap Nat :=
  computedFlds.foldl (fun (m : SMap Nat) f =>
    let v := if f = Reg.cmtPeekData then peekWord s .sp (4 * get s Reg.cmtPeekAddr) else fieldValue s .sp f
    if v = f.reset then m.del f.key else m.set f.key v) s.regs

/-- A freeze: the whole copy overwritten, and SNAP_TEMPO set to the number of the tempo that ends. [DEDUCED, log 117] -/
def freeze (s0 : State) : State :=
  let s := settleAll s0
  let s1 := { s with cnt.snapAt := none, cnt.frzRegs := frozenRegs s, cnt.frzAccum := s.accum }
  put (put s1 Reg.snapTempoNum (tempoNo s)) Reg.snapStatusValid 1

/-- A request joins one already pending. -/
def snapRequest (s : State) (m : Master) : State :=
  if m == .dbg then s else { s with cnt.snapAt := some (s.cnt.snapAt.getD s.time.now) }

/-- Is a request of an instant served at a boundary now: at least 2 us after it? -/
def requestDue (s : State) (t : Nat) : Bool := decide (t + 2000 ≤ s.time.now)

/-! Records of a dump (R380). -/

/-- Eight bytes of an accumulator or of a slot count. -/
def cnt8 (v : Nat) : List Byte := leBytes 8 v

/-- The pipeline payload. -/
def pipelinePayload (s : State) : List Byte :=
  [Reg.slotTotal, Reg.slotRetired, Reg.slotWasted, Reg.slotFront, Reg.slotBack].flatMap (fun f => cnt8 (get s f)) ++
  [Reg.wastedShadow, Reg.wastedTail, Reg.wastedTableEcc].flatMap fun f => cnt8 (accumOf s f)

/-- A port's statistics: 32 values. Indices 0 to 18 of P48 and P49 read zero but for the transmitted frames and octets.
[DEDUCED, log 117] -/
def portPayload (s : State) (p : Nat) : List Byte :=
  let obj := fun (i : Nat) => if p < 48 ∨ i = 14 ∨ i = 15 then (s.net.mib.find (32 * p + i)).getD 0 else 0
  let ext := fun (f : Fld) => if p < 48 then accumOf s f else 0
  ((List.range 19).map obj ++
    [accumOf s (Reg.swVlanDrops p), accumOf s (Reg.swAdmitDrops p), accumOf s (Reg.swWredDrops p),
     accumOf s (Reg.swCtStomped p), accumOf s (Reg.swCtBadRx p),
     if p = 48 then accumOf s Reg.brP48Linkdown else ext (Reg.portLinkdownDiscards p),
     accumOf s (Reg.contInDrops p), accumOf s (Reg.contOutDrops p), ext (Reg.portRxIcvFail p),
     ext (Reg.portRxNoSa p), ext (Reg.portRxReplay p), ext (Reg.portTxSaDrops p), accumOf s (Reg.swMgmtDrops p)]).flatMap cnt8

/-- A port's leaf block. -/
def leafBlock (s : State) (p : Nat) : List Byte :=
  (List.range 64).flatMap fun q =>
    cnt8 ((s.net.leafTx.find ((64 * p + q) * 2)).getD 0) ++ cnt8 ((s.net.leafTx.find ((64 * p + q) * 2 + 1)).getD 0)

/-- The eight values of a channel; a channel that is not declared reads zero. -/
def chanPayload (s : State) (n : Nat) : List Byte :=
  let sum := fun (fs : List Fld) => cnt8 ((fs.map (accumOf s)).sum % 2 ^ 64)
  if !chanDeclared s n then zeros 64
  else sum [Reg.chRxFrames n] ++ sum [Reg.chTxFrames n] ++ sum [Reg.chBusErrors n] ++
    sum [Reg.chFilterDrops n, Reg.chRateDrops n, Reg.chRxOverrun n, Reg.chAdmin n, Reg.chSecFmtFormatDrops n] ++
    sum [Reg.chQueueDrops n, Reg.chQueueQueueEvict n, Reg.chTxTimeoutDrops n, Reg.chConvertConvertDrops n] ++
    sum [Reg.chSecMacFail n, Reg.chSecFreshFail n, Reg.chSecSecLenDrops n, Reg.chSecSecKeyDrops n] ++
    sum [Reg.chSecFmtSecBlocked n] ++ sum [Reg.contChanDrops n]

/-- A record's header; `seq` is its DUMP_SEQ and `gen` fills bytes 60 to 63, zero in a dump. [DEDUCED, log 117] -/
def recordHeader (s : State) (rec_ recs missed seq kind unit len : Nat) (leaves : Bool) (gen : Nat) : List Byte :=
  let gt := gtNow s
  let valid := flag s Reg.tbStatusGtLocked || flag s Reg.tbStatusGtHoldover
  leBytes 4 0x504D5544 ++ leBytes 2 1 ++ leBytes 2 rec_ ++ leBytes 2 recs ++ leBytes 2 missed ++ leBytes 4 seq ++
  leBytes 8 (tempoNo s) ++ leBytes 4 (get s Reg.epochSeq) ++ leBytes 1 (curSlot s) ++ leBytes 1 kind ++ leBytes 2 unit ++
  leBytes 8 (unsigned 64 gt) ++ leBytes 4 len ++ leBytes 1 (b2n valid + 2 * b2n leaves) ++ zeros 15 ++ leBytes 4 gen

/-- COUNTERS globals of the current slot: DUMP_PERIOD, DUMP_RING and FLAGS; the empty form gives none. -/
def counterGlobals (s : State) : Nat × Nat × Nat :=
  match recOf s (curSlot s) 0x0600 0 with
  | some b => (leAt b 0 2, u8 b 2, u8 b 3)
  | none => (0, 0, 0)

/-- The payloads of a dump with their KIND, UNIT and whether a leaf block is there, in the order written. -/
def dumpPayloads (s : State) (flags : Nat) : List (Nat × Nat × Bool × List Byte) :=
  let leaves := bitAt flags 1
  [(0, 0, false, pipelinePayload s)] ++
  (if bitAt flags 0 then (List.range 50).map fun p =>
    (1, p, leaves, portPayload s p ++ (if leaves then leafBlock s p else [])) else []) ++
  (if bitAt flags 2 then (List.range 16).map fun g =>
    (2, 16 * g, false, (List.range 16).flatMap fun i => chanPayload s (16 * g + i)) else [])

/-- The records of a dump. -/
def dumpRecords (s : State) (flags : Nat) : List (List Byte) :=
  let l := dumpPayloads s flags
  ((List.range l.length).zip l).map fun e =>
    recordHeader s e.1 l.length (min 65535 s.cnt.missed) ((get s Reg.dumpSeq + 1) % 2 ^ 32) e.2.1 e.2.2.1
      e.2.2.2.2.length e.2.2.2.1 0 ++ e.2.2.2.2

/-- Does a ring hold a descriptor large enough for each of these records? -/
def ringHolds (s : State) (r : Nat) (recs : List (List Byte)) : Bool :=
  let n := ringSize s r
  let h := get s (Reg.ringHeadHead r)
  recs.length ≤ ringPosted s r &&
  ((List.range recs.length).zip recs).all fun e =>
    e.2.length ≤ leAt (((ringOf s r).descs.find ((h + e.1) % n)).getD []) 8 2

/-- The counter page refreshed (R381): GEN odd before, even after. -/
def refreshPage (s : State) : State :=
  let gen := (s.cnt.pageGen + 2) % 2 ^ 32
  let body := recordHeader s 0 0 (min 65535 s.cnt.missed) (get s Reg.dumpSeq) 0xFF 0 0 false gen ++ pipelinePayload s
  let m1 := Mem.writeBytes [] 0 0 body
  let m2 := (List.range 50).foldl (fun (m : Mem) p => Mem.writeBytes m 0 (0x100 + 0x100 * p) (portPayload s p)) m1
  let m3 := (List.range 256).foldl (fun (m : Mem) n => Mem.writeBytes m 0 (0x3400 + 0x40 * n) (chanPayload s n)) m2
  { s with cnt.page := m3, cnt.pageGen := gen }

/-! The central reader (R382). -/

/-- The low 32 bits of each accumulator copied, and CR_TEMPO set. -/
def centralCopy (s : State) : State :=
  let s1 := forIdx 10 (fun i st => put st (Reg.crMirror i) (((crSources[i]?).map (accumOf s)).getD 0)) s
  put s1 Reg.crTempo (tempoNo s % 2 ^ 32)

/-- What every capture of R378 or R380 does beside its own. -/
def captured (s : State) : State := centralCopy (refreshPage s)

/-- A copy that SP asks for: each one is made at a boundary of its own time (R382). -/
def copyRequest (s : State) : State := { s with cnt.crAt := s.cnt.crAt ++ [s.time.now] }

/-! At a boundary, first in the order of R44. -/

/-- Does a dump fall due at the boundary that begins tempo `n`, and has not been judged? [DEDUCED, log 117] -/
def dumpDue (s : State) (n : Nat) : Bool :=
  let g := counterGlobals s
  g.1 != 0 && n % g.1 == 0 && s.cnt.dumpAt != some n

/-- A dump that falls due at the boundary that begins tempo `n`: its records are made, or it is skipped whole. -/
def dumpAtBoundary (s : State) (n : Nat) : State :=
  let g := counterGlobals s
  if !dumpDue s n then s
  else
    let s0 := { s with cnt.dumpAt := some n }
    let recs := dumpRecords s0 g.2.2
    if !p48Up s ∨ !flag s (Reg.ringCfgEn g.2.1) ∨ !ringHolds s g.2.1 recs ∨ !s.cnt.dump.isEmpty then
      bump { s0 with cnt.missed := s0.cnt.missed + 1 } Reg.dumpStatusMissed
    else { s0 with cnt.dump := recs, cnt.dumpRing := g.2.1, cnt.dumpMissed := s0.cnt.missed }

/-- Has a dump been captured between two states? -/
def dumpTaken (was now : State) : Bool := was.cnt.dump.isEmpty && !now.cnt.dump.isEmpty

/-- The copies that SP asked for and that are due at this boundary, made by one (R382). [DEDUCED, log 117] -/
def copiesDue (s : State) : State :=
  if s.cnt.crAt.any (requestDue s) then
    { centralCopy s with cnt.crAt := s.cnt.crAt.filter fun t => !requestDue s t }
  else s

/-- The captures at the boundary that begins tempo `n`: one serves a freeze and a dump that coincide (R380). A copy that
SP asked for is made at its own boundary, whatever capture came before (R382). [DEDUCED, log 117] -/
def captures (s : State) (n : Nat) : State :=
  let due := s.cnt.snapAt.any (requestDue s)
  let s1 := if due then freeze s else s
  let s2 := dumpAtBoundary s1 n
  copiesDue (if due ∨ dumpTaken s1 s2 then captured s2 else s2)

/-- A record written through its ring: descriptor, completion with byte 12 set to 0xFF, moderation (R336, R340). -/
def writeRecord (r : Nat) (s : State) (bs : List Byte) : State :=
  let h := get s (Reg.ringHeadHead r)
  let x := ringOf s r
  let entry := zeros 8 ++ leBytes 2 bs.length ++ leBytes 2 h ++ leBytes 1 0xFF ++
    leBytes 1 (128 * b2n x.phase) ++ zeros 2
  let s1 := writeCpl (sendToHost s (.hostWrite (leAt ((x.descs.find h).getD []) 0 8) bs)) r h entry
  moderate (bump (consume s1 r) (Reg.ringFrames r)) r

/-- DUMP_WRITE_DONE: the records and their completions are in host memory. A dump whose ring was closed meanwhile is
not delivered; a dump skipped while this one was written counts in the next one's header. [DEDUCED, log 117] -/
def dumpDone (s : State) : State :=
  if s.cnt.dump.isEmpty then s
  else
    let recs := s.cnt.dump
    let r := s.cnt.dumpRing
    let s1 := { s with cnt.dump := [] }
    if p48Up s ∧ flag s (Reg.ringCfgEn r) ∧ ringHolds s r recs then
      let s2 := recs.foldl (writeRecord r) s1
      put { s2 with cnt.missed := s2.cnt.missed - s2.cnt.dumpMissed } Reg.dumpSeq ((get s Reg.dumpSeq + 1) % 2 ^ 32)
    else bump { s1 with cnt.missed := s1.cnt.missed + 1 } Reg.dumpStatusMissed

/-! Core counters (R383). -/

/-- Does a core's clock run: neither held nor in Moored? The pair is core 0. -/
def coreCounts (s : State) (c : Nat) : Bool :=
  dieRuns s && (if c = 0 then !s.cpu.spHeld else !gcHeld s (c - 1))

/-- Cycles of a core in the nanosecond that begins now: 1.2 GHz for the pair (R299); a general core's clock rate is
not stated. [DESIGN CHOICE, log 118] -/
def coreCycles (s : State) (c : Nat) : Nat × State :=
  if c = 0 then ((s.time.now + 1) * 6 / 5 - s.time.now * 6 / 5, s) else draw s 4

/-- The level of an event that the state decides: a job runs, or the core is halted. [DESIGN CHOICE, log 118] -/
def eventLevel (s : State) (c ev : Nat) : Option Bool :=
  match ev with
  | 0x07 => some (s.jobs.running.has c)
  | 0x0B => some (s.cpu.halted.contains c)
  | _ => none

/-- Is an event one that the model notes as it happens: a bank grant, a deferral, an atomic, a bus error?
[DESIGN CHOICE, log 118] -/
def notedEvent (ev : Nat) : Bool := [0x03, 0x08, 0x0A, 0x0C].contains ev

/-- Cycles that a programmable counter counts in `cyc` cycles, or in EDGE mode rises (R383): none for event 0; of the events that
are firmware's own the manual does not say what happens in a cycle, but that a core with a job is not idle.
[DESIGN CHOICE, log 118] -/
def eventCount (s : State) (c sel cyc : Nat) : Nat × State :=
  let ev := sel % 128
  let k := c * 16 + ev
  if ev = 0 ∨ cyc = 0 then (0, s)
  else if notedEvent ev then ((s.io.pulse.find k).getD 0, s)
  else match eventLevel s c ev with
    | some l => (if sel < 128 then (if l then cyc else 0) else b2n (l && (s.cnt.evLevel.find k).getD 0 == 0), s)
    | none => if ev = 0x09 ∧ s.jobs.running.has c then (0, s) else draw s (cyc + 1)

/-- The signals of a core as they have been sampled: the levels noted, and what happened counted once. -/
def sampled (s : State) (c : Nat) : State :=
  { s with
    cnt.evLevel := [0x07, 0x0B].foldl (fun m ev => m.set (c * 16 + ev) (b2n ((eventLevel s c ev).getD false))) s.cnt.evLevel
    io.pulse := s.io.pulse.filter fun e => e.1 / 16 != c }

/-- A core's counters over one nanosecond. [DESIGN CHOICE, log 1; DESIGN CHOICE, log 118] -/
def coreTick (c : Nat) (s : State) : State :=
  if !coreCounts s c then s
  else
    let cy := coreCycles s c
    let s1 := put cy.2 (Reg.coreCycles c) (get s (Reg.coreCycles c) + cy.1)
    let s2 := forIdx 8 (fun i st =>
      let e := eventCount st c (u8 (coreRec st c) i) cy.1
      put e.2 (Reg.corePmc c i) (get st (Reg.corePmc c i) + e.1)) s1
    if cy.1 = 0 then s2 else sampled s2 c

/-- A commit that changes a counter's selection zeroes it at T+0. -/
def zeroChanged (s : State) (old : Nat) : State :=
  forIdx 5 (fun c st =>
    let was := (recOf st old 0x0600 (2 ^ 24 + c)).getD (zeros 16)
    let now := coreRec st c
    forIdx 8 (fun i t => if u8 was i = u8 now i then t else put t (Reg.corePmc c i) 0) st) s

/-! Meanings. -/

/-- SNAP_CTL_REQ. -/
def execSnapCtlReq (m : Master) (s : State) : Host.Outcome State Fault Refusal :=
  .next (accessWrite s m 0xC00000 fun t => snapRequest t m)

/-- CR_CTL_NOW. -/
def execCrCtlNow (m : Master) (s : State) : Host.Outcome State Fault Refusal :=
  .next (accessWrite s m 0xC00080 fun t => copyRequest t)

/-- DUMP_WRITE_DONE. -/
def execDumpWriteDone (s : State) : Host.Outcome State Fault Refusal := .next (dumpDone s)

end Sys2Proof.Machine
end

