-- ==== Sys2Proof/Machine/Jobs.lean ====
section
/-!
DEFINITION. The per-tempo work budget (R46 to R49, R306), the drain limit of epoch slots (R76), and the Sync messages
that firmware sends (R31).
-/
namespace Sys2Proof.Machine

/-! Jobs. -/

/-- The master that runs on a core. -/
def coreMaster (core : Nat) : Master :=
  match core with
  | 1 => .gc 0
  | 2 => .gc 1
  | 3 => .gc 2
  | 4 => .gc 3
  | _ => .sp

/-- May firmware of a core carry out a job: duties of the safety pair and of the general cluster stay apart (R298)? -/
def jobPlaced (core : Nat) (kind : JobKind) : Bool :=
  match kind with
  | .sbSeal _ _ => core == 0
  | .sbAppend _ _ => core != 0
  | .prepare => core != 0
  | .castlingPrepare => core != 0
  | .attest => core != 0
  | .dump => core != 0
  | .gateCompile => core != 0
  | .keyDerive => core != 0
  | _ => true

/-- JOB_REQUEST (R48). Until forwarding starts no job is budgeted (R41), and firmware asks a core for its own duties only
(R298). -/
def jobRequest (s : State) (core : Nat) (kind : JobKind) (cost : Nat) : State :=
  if !aloft s ∨ !jobPlaced core kind then s
  else if coreBudget s core < cost then answer s (coreMaster core) .jobTooLarge
  else enqueueJob s core kind cost

/-- Ns left before the next boundary. [DEDUCED, log 120] -/
def toBoundary (s : State) : Nat := (nextMark s - wcNow s).toNat

/-- May firmware start a job on its core: while the old firmware has GC[0] and GC[1] alone, GC[2] and GC[3] run the preparation of
the handover and nothing else, and what the new firmware has been given waits (R392, R393)? -/
def jobAwake (s : State) (j : Job) : Bool :=
  j.core < 3 || castPhase s < 2 || 4 < castPhase s || j.kind == .castlingPrepare

/-- Does a core take jobs: not held, and if it was released, since the boundary after that (R306)? The pair takes none in its
castling window, in which it executes no firmware (R395), and GC[2] and GC[3] none until the boundary after an abandon (R396).
[DEDUCED, log 120] -/
def takesJobs (s : State) (core : Nat) : Bool :=
  if core = 0 then !s.cpu.spHeld && castPhase s != 6
  else !gcHeld s (core - 1) && ((s.cpu.heldAt.find (core - 1)).all fun t => decide (t < tempoNo s)) &&
    (core < 3 || s.img.abandonAt.all fun t => decide (t < tempoNo s))

/-- The first job of a core that has not been deferred in this tempo. -/
def nextJob (s : State) (core : Nat) : Option Job :=
  s.jobs.queue.find? fun j => j.core == core && j.deferTempo != some (tempoNo s) && jobAwake s j

/-- The budget left to a core in this tempo: a job that runs on past a boundary has used of it what has passed since
(R47). -/
def budgetLeft (s : State) (core : Nat) : Nat :=
  let left := (s.jobs.budget.find core).getD (coreBudget s core)
  if (s.jobs.startedAt.find core).any fun t => decide (t < s.time.tempoLocal) then left - (s.time.now - s.time.tempoLocal)
  else left

/-- Does a job fit the budget and the time left to its core (R47)? [DEDUCED, log 120] -/
def jobFits (s : State) (j : Job) : Bool := j.cost ≤ budgetLeft s j.core && j.cost ≤ toBoundary s

/-- A job deferred whole to the next tempo. [DEDUCED, log 120] -/
def deferJob (s : State) (j : Job) : State :=
  let k : Job := { j with deferrals := j.deferrals + 1, deferTempo := some (tempoNo s) }
  let s1 := { s with jobs.queue := s.jobs.queue.map fun x => if x.order = j.order then k else x }
  let s2 := raiseTo (bump s1 Reg.tempoStatsOverruns) Reg.tempoStatsMaxDefer (min 255 k.deferrals)
  if coreCounts s j.core then pulse s2 (j.core * 16 + 8) 1 else s2

/-- JOB_START (R47). Jobs of a core halted by the debugger are deferred (R307). While the core runs a job, the next one
is deferred when it no longer fits, and otherwise stays queued behind it. [DEDUCED, log 120] -/
def jobStart (s : State) (core : Nat) : State :=
  if !aloft s ∨ !takesJobs s core then s
  else match nextJob s core with
    | none => s
    | some j =>
      if s.cpu.halted.contains core ∨ !jobFits s j then deferJob s j
      else if s.jobs.running.has core then s
      else
        let left := (s.jobs.budget.find core).getD (coreBudget s core) - j.cost
        { s with
          jobs.queue := s.jobs.queue.filter fun x => x.order != j.order
          jobs.running := s.jobs.running.set core j, jobs.startedAt := s.jobs.startedAt.set core s.time.now
          jobs.budget := s.jobs.budget.set core left }

/-- What a job has done when it ends. An append that a general core made ready is sealed and written by the safety pair,
as a job of its own (R298); while the pair is held no entry can be sealed (R368). [DEDUCED, log 120] -/
def jobEffect (s : State) (k : JobKind) : State :=
  match k with
  | .sbAppend type body => if s.cpu.spHeld then sheetLose s else requestSp s (.sbSeal type body)
  | .sbSeal type body => commitSealed (sheetAppend s type body) type body
  | .prepare => prepEnds s
  | .castlingPrepare => prepEnds s
  | .retentionSave => retentionSave s
  | .fvSave => saveKeys (fvWrite s)
  | .handover => handoverJob s
  | _ => s

/-- Core time charged for a job that ends: within one tempo the time it took, in place of its bound; of a job that ran
past a boundary, what it used of the new tempo. [DEDUCED, log 120] -/
def chargeJob (s : State) (core : Nat) (j : Job) : State :=
  let left := (s.jobs.budget.find core).getD (coreBudget s core)
  let t0 := (s.jobs.startedAt.find core).getD s.time.now
  let now := s.time.now
  let b := if s.time.tempoLocal ≤ t0 then left + j.cost - min j.cost (now - t0) else left - (now - s.time.tempoLocal)
  { s with jobs.budget := s.jobs.budget.set core b }

/-- JOB_COMPLETE (R47). A core that is held or halted completes nothing. -/
def jobComplete (s : State) (core : Nat) : State :=
  match s.jobs.running.find core with
  | none => s
  | some j =>
    if !aloft s ∨ !takesJobs s core ∨ s.cpu.halted.contains core then s
    else
      let s1 := chargeJob (resumeCore s core) core j
      jobEffect { s1 with
        jobs.running := s1.jobs.running.del core, jobs.startedAt := s1.jobs.startedAt.del core } j.kind

/-- Is a job the preparation of a commit? [DESIGN CHOICE, log 46] -/
def prepJob (k : JobKind) : Bool := k == .prepare || k == .castlingPrepare

/-- Is a general core held, or was it released in the tempo that has ended: are its unfinished jobs to go elsewhere (R306)?
[DEDUCED, log 120] -/
def leftOut (s : State) (core : Nat) : Bool :=
  inR core 1 4 && (gcHeld s (core - 1) || (s.cpu.heldAt.find (core - 1)).any fun t => t + 1 == tempoNo s)

/-- The general core that takes the jobs of those left out: the lowest-numbered other one. [DEDUCED, log 120] -/
def otherGc (s : State) : Nat :=
  (([1, 2, 3, 4].find? fun c => !leftOut s c && activeCore s c == c)).getD (activeCore s (someGc s))

/-- The unfinished preparation jobs on cores left out. -/
def prepLeft (s : State) : List Job :=
  (s.jobs.queue.filter fun j => prepJob j.kind && leftOut s j.core) ++
    (s.jobs.running.filter fun e => prepJob e.2.kind && leftOut s e.1).map fun e => e.2

/-- A preparation that was on a core left out starts again, in the place of its first request (R306). -/
def restartPrep (s : State) : State :=
  match prepLeft s with
  | [] => s
  | j :: _ =>
    if get s Reg.commitStatusState ≠ 3 then s
    else
      let s1 := commitBegin { s with
        jobs.queue := s.jobs.queue.filter fun x => !prepJob x.kind
        jobs.running := s.jobs.running.filter fun e => !prepJob e.2.kind } (get s Reg.commitStatusSlot)
      { s1 with jobs.queue := s1.jobs.queue.map fun x =>
          if prepJob x.kind then { x with order := j.order, deferrals := j.deferrals } else x }

/-- Unfinished jobs of cores left out are placed on a remaining one (R306). [DEDUCED, log 120] -/
def moveHeld (s : State) : State :=
  if [1, 2, 3, 4].all fun c => !leftOut s c then s
  else
    let s1 := restartPrep s
    moveJobs s1 fun c => if leftOut s1 c then otherGc s1 else c

/-- Jobs by order of request. -/
def insertJob (j : Job) : List Job → List Job
  | [] => [j]
  | x :: xs => if j.order < x.order then j :: x :: xs else x :: insertJob j xs

/-- The queue at a boundary: deferred jobs, and those moved from another core, ahead of new ones, in the order first
requested (R47, R306). -/
def jobOrder (l : List Job) : List Job := l.foldl (fun acc j => insertJob j acc) []

/-- A tempo ends: no job that still waits fits the time left, so each one not deferred in it is deferred (R47).
[DEDUCED, log 120] -/
def deferWaiting (s : State) : State :=
  (s.jobs.queue.filter fun j => j.deferTempo != some (tempoNo s) && jobAwake s j).foldl deferJob s

/-- Jobs at a boundary: fresh budgets, deferred jobs first (R46, R47). -/
def jobsAtBoundary (s : State) : State :=
  let s1 := moveHeld s
  { s1 with jobs.budget := [], jobs.queue := jobOrder s1.jobs.queue }

/-! The drain limit (R76). -/

/-- A frame of a slot discarded; one being transmitted completes, and no longer counts for the slot: it keeps a number that
stands for none, so that it is not tagged again (R60). [DEDUCED, log 50] -/
def drainFrame (slot : Nat) (s : State) (u : Nat) : State :=
  match packetOf s u with
  | none => s
  | some pk =>
    if pk.dropped ∨ pk.slot ≠ some slot then s
    else
      let on := (s.net.macs.filter fun e => e.2.rep.uid == u).length
      if on = 0 then dropPolicy (bump (unqueue s u) Reg.drainDiscards) u
      else
        let s1 := untagUnit (setPacket (unqueue s u) u { pk with refs := on, slot := some (4 + slot), route := none }) slot
        if on < pk.refs then bump s1 Reg.drainDiscards else s1

/-- Messages of a slot taken from the lists of one kind, and the rest. -/
def drainMsgs (slot : Nat) (s : State) (l : List QMsg) : State × List QMsg :=
  ((l.filter fun q => q.slot == slot).foldl (fun st q => releaseMsg (bump st Reg.drainDiscards) q) s,
   l.filter fun q => q.slot != slot)

/-- Edge messages, secured PDUs and packers of a slot discarded; a message on its bus completes. [DEDUCED, log 50] -/
def drainEdge (slot : Nat) (s : State) : State :=
  let s1 := s.edge.rxList.foldl (fun (st : State) (e : Nat × List EdgeMsg) =>
    let t := (e.2.filter fun x => x.slot == slot).foldl (fun t x => dropReceived t x Reg.drainDiscards) st
    setRxList t e.1 (e.2.filter fun x => x.slot != slot)) s
  let s2 := s1.edge.again.foldl (fun (st : State) (e : Nat × List QMsg) =>
    let r := drainMsgs slot st e.2
    setAgain r.1 e.1 r.2) s1
  let s3 := s2.edge.txq.foldl (fun (st : State) (e : Nat × List QMsg) =>
    let r := drainMsgs slot st e.2
    setTxq r.1 e.1 r.2) s2
  let gone := fun (st : State) => untagUnit (bump st Reg.drainDiscards) slot
  let s4 := s3.edge.secJobs.foldl (fun (st : State) (j : SecJob) =>
    if j.out.slot = slot then dropSecured st j Reg.drainDiscards else st) s3
  let s5 := s4.edge.packers.foldl (fun (st : State) (e : Nat × Packer) => if e.2.slot = slot then gone st else st) s4
  let s6 := s5.edge.packed.foldl (fun (st : State) (e : Nat × List (Packer × Nat)) =>
    e.2.foldl (fun t x => if x.1.slot = slot then gone t else t) st) s5
  let s7 := s6.edge.offered.foldl (fun (st : State) (e : Nat × QMsg) =>
    if e.2.slot = slot then untagUnit st slot else st) s6
  { s7 with
    edge.secJobs := s7.edge.secJobs.filter fun j => j.out.slot != slot
    edge.packers := s7.edge.packers.filter fun e => e.2.slot != slot
    edge.packed := s7.edge.packed.filterMap fun e =>
      let l := e.2.filter fun x => x.1.slot != slot
      if l.isEmpty then none else some (e.1, l)
    edge.offered := s7.edge.offered.mapVals fun _ q => if q.slot = slot then { q with slot := 4 + slot } else q }

/-- DRAIN_LIMIT: units still tagged with the slot are discarded, its latches released, and it frees.
[DEDUCED, log 50] -/
def drainLimit (s : State) (slot : Nat) : State :=
  let lim := cur s Reg.epochCfg
  if aloft s ∧ slotState s slot = 3 ∧ lim ≠ 0 ∧
      ((s.env.drainStart.find slot).any fun t => decide (t + lim ≤ tempoNo s)) then
    let s1 := drainEdge slot ((s.net.packets.map fun e => e.1).foldl (drainFrame slot) s)
    freeNow (releaseLatches (put s1 (Reg.inflightCount slot) 0) slot) slot
  else s

/-! Sync messages (R31). -/

/-- The Sync interval of a domain in ns: 2^LOG_SYNC_INTERVAL seconds. -/
def syncNs (s : State) (d : Domain) : Nat := 1000000000 / 2 ^ (-(signed 8 (u8 (timeBlock s d) 5))).toNat

/-- A gPTP message as a frame, padded to the least length (IEEE 802.1AS-2020, cited by R31). [PRESUMED, log 8] -/
def gptpFrame (src body : List Byte) (len : Nat) (p : Fin 48) (ts : Bool) : WireFrame :=
  ⟨[0x01, 0x80, 0xC2, 0x00, 0x00, 0x0E] ++ slice src 0 6 ++ [0x88, 0xF7] ++ slice body 0 len, false, some p, true, ts, false⟩

/-- May firmware send Sync on a port: in the domain and UP, as its master under external port configuration, as
grandmaster or relay as BMCA has it otherwise? [DEDUCED, log 121] -/
def sendsSync (s : State) (d : Domain) (p : Nat) (asGm : Bool) : Bool :=
  gptpPort s d p && portUp s p && (!extPortCfg s d || extRole s d p == 1) && (!asGm || flag s (gmFld d))

/-- Firmware sends Sync as grandmaster under BMCA, which has selected this device: it becomes grandmaster, where it is
capable of it (R31, R452). [DEDUCED, log 121] -/
def bmcaGm (s : State) (d : Domain) (asGm : Bool) : State :=
  if asGm ∧ !extPortCfg s d ∧ gmCapable s d ∧ !flag s (gmFld d) then becomeGm s d else s

/-- SYNC_INTERVAL: a two-step Sync, whose egress timestamp firmware asks for, and its Follow_Up. [PRESUMED, log 8] -/
def syncInterval (s0 : State) (d : Domain) (p : Fin 48) (asGm : Bool) : State :=
  let s := if aloft s0 ∧ gptpPort s0 d p.val then bmcaGm s0 d asGm else s0
  let k := 48 * domIndex d + p.val
  let due := (s.time.syncSent.find k).all fun t => decide (t + syncNs s d ≤ s.time.now)
  if !aloft s ∨ !sendsSync s d p.val asGm ∨ !due then s
  else
    let s1 := { s with time.syncSent := s.time.syncSent.set k s.time.now }
    let src := (macOf s p.val).1
    let seq := s.time.now / syncNs s d % 65536
    let dom := u8 (structOf s 0x0040) (4 + domIndex d)
    let one := frameArrival s1 49 (gptpFrame src (Config.gptpBody p.val dom seq false s.time.now) 46 p true)
    frameArrival one 49 (gptpFrame src (Config.gptpBody p.val dom seq true s.time.now) 76 p false)

/-! Meanings. -/

/-- JOB_REQUEST. -/
def execJobRequest (core : Fin 5) (kind : JobKind) (cost : Nat) (s : State) : Host.Outcome State Fault Refusal :=
  .next (jobRequest s core.val kind cost)

/-- JOB_START. -/
def execJobStart (core : Fin 5) (s : State) : Host.Outcome State Fault Refusal := .next (jobStart s core.val)

/-- JOB_COMPLETE. -/
def execJobComplete (core : Fin 5) (s : State) : Host.Outcome State Fault Refusal := .next (jobComplete s core.val)

/-- DRAIN_LIMIT. -/
def execDrainLimit (slot : Fin 4) (s : State) : Host.Outcome State Fault Refusal := .next (drainLimit s slot.val)

/-- SYNC_INTERVAL. -/
def execSyncInterval (dom : Domain) (p : Fin 48) (asGm : Bool) (s : State) : Host.Outcome State Fault Refusal :=
  .next (syncInterval s dom p asGm)

end Sys2Proof.Machine
end

