-- ==== Sys2Proof/Machine/Registers.lean ====
section
/-!
DEFINITION. Control-space accesses to any register (R8 to R11, R447), the SPI management port (R345 to R348), the debug
port's accesses (R307, R350) and the memory bank accesses of every master (R316).
-/
namespace Sys2Proof.Machine

/-! The traffic manager's access port (R206). -/

/-- A read through TM_ACC: STATUS 0 OK, 1 STALE, 2 EMPTY, the membership mask and the entry. -/
def tmResult (s : State) (status mask : Nat) (bs : List Byte) : State :=
  let s1 := put (put s Reg.tmAccStatusStatus status) Reg.tmAccStatusMask mask
  put (putWords s1 Reg.tmAccData 40 bs) Reg.tmAccCtlDone 1

/-- Section and INDEX[31:24] of a TABLE code from 0 to 4. [DESIGN CHOICE, log 25] -/
def tmTable (t : Nat) : Option (Nat × Nat) :=
  match t with
  | 0 => some (0x0200, 0)
  | 1 => some (0x0200, 1)
  | 2 => some (0x0210, 0)
  | 3 => some (0x0210, 1)
  | 4 => some (0x0210, 2)
  | _ => none

/-- A gate list of a port, operating or pending: its header, or one of its entries. -/
def tmGateList (s : State) : State :=
  let g := gatesOf s (get s Reg.tmAccCtlIndex)
  let e := get s Reg.tmAccCtlEntry
  match (if get s Reg.tmAccCtlList = 0 then g.oper else g.pend) with
  | none => tmResult s 2 0 []
  | some b =>
    if get s Reg.tmAccCtlTable = 5 then tmResult s 0 0 (slice b 0 32)
    else if e < leAt b 2 2 then tmResult s 0 0 (slice b (32 + 8 * e) 8)
    else tmResult s 2 0 []

/-- READ of TM_ACC_CTL. A reserved TABLE has no entries, and meters and flow gates are held for the current slot and the
one being built only (R203). -/
def tmRead (s : State) (m : Master) : State :=
  let t := get s Reg.tmAccCtlTable
  if t = 5 ∨ t = 6 then tmGateList s
  else match tmTable t with
    | none => tmResult s 2 0 []
    | some (sect, k) =>
      match viewSlot s m (get s Reg.tmAccCtlView) (get s Reg.tmAccCtlSlot) with
      | none => tmResult s 1 0 []
      | some e =>
        let i := k * 2 ^ 24 + get s Reg.tmAccCtlIndex
        if (t = 3 ∨ t = 4) ∧ e ≠ curSlot s ∧ slotState s e ≠ 1 then tmResult s 2 0 []
        else match recOf s e sect i with
        | some b => tmResult s 0 (if t = 2 then membership s (sect * 2 ^ 32 + i) b else 0) b
        | none => tmResult s 2 0 []

/-- A write of TM_ACC_CTL. -/
def tmAccCtl (s : State) (m : Master) (w : Nat) : State :=
  let s1 := put (put s Reg.tmAccCtlTable (bitsAt w 1 3)) Reg.tmAccCtlIndex (bitsAt w 4 13)
  let s2 := put (put s1 Reg.tmAccCtlEntry (bitsAt w 17 8)) Reg.tmAccCtlList (bitsAt w 25 1)
  let s3 := put (put s2 Reg.tmAccCtlView (bitsAt w 26 2)) Reg.tmAccCtlSlot (bitsAt w 28 2)
  if bitAt w 0 then tmRead s3 m else s3

/-! Plain fields (R11). -/

/-- WO fields that keep what is written for a later command: the import shares and tag, the retire hash. -/
def keptWo (a : Nat) : Bool := inR a 0xC0060 0xC00AF || inR a 0xE0110 0xE011F

/-- Word `k` of a field under a written word: RW fields take it, W1C bits clear, the others stay. -/
def writeField (w : Nat) (s : State) (e : Fld × Nat) : State :=
  match e.1.ty with
  | .rw => put s e.1 (if e.1.width ≤ 32 then bitsAt w e.1.lsb e.1.width else setBits (get s e.1) (32 * e.2) 32 w)
  | .w1c => if bitAt w e.1.lsb then put s e.1 0 else s
  | .wo => if keptWo e.1.addr then put s e.1 (bitsAt w e.1.lsb e.1.width) else s
  | _ => s

/-- A write to a register whose fields do nothing but hold what is written. A reserved offset has none (R10).
[DEDUCED, log 35] -/
def plainWrite (s : State) (m : Master) (a w : Nat) : State := (fieldsAt (regBank m a) a).foldl (writeField w) s

/-- The effects of a word's command bits, in ascending order of their bits. [DESIGN CHOICE, log 16] -/
def onBit (w i : Nat) (f : State → State) (s : State) : State := if bitAt w i then f s else s

/-! A halted core's registers (R307, R350). -/

/-- A write by DBG to a halted core's register. While the pair is halted it is entered in the replay log; a 65th write
is refused and the log kept. [DEDUCED, log 26; DESIGN CHOICE, log 27] -/
def coreRegWrite (s : State) (a v : Nat) : State :=
  if s.cpu.halted.isEmpty then s
  else if s.cpu.halted.contains 0 ∧ 64 ≤ s.cpu.replay.length then s
  else
    let s1 := if s.cpu.halted.contains 0 then { s with cpu.replay := s.cpu.replay ++ [(a, v)] } else s
    { s1 with cpu.coreRegs := s1.cpu.coreRegs.set a v }

/-- Is a write of DBG the 65th while the pair is halted? [DEDUCED, log 26] -/
def replayFull (s : State) (m : Master) (a : Nat) : Bool :=
  m == .dbg && inR a 0xF00000 0xF0FFFF && s.cpu.halted.contains 0 && 64 ≤ s.cpu.replay.length

/-- A read by DBG of a halted core's register: what was written, or a value that only the core's program decides.
[DESIGN CHOICE, log 27] -/
def coreRegRead (s : State) (a : Nat) : Nat × State :=
  if s.cpu.halted.isEmpty then (0, s)
  else match s.cpu.coreRegs.find a with
    | some v => (v, s)
    | none =>
      let d := draw s (2 ^ 32)
      (d.1, { d.2 with cpu.coreRegs := d.2.cpu.coreRegs.set a d.1 })

/-! Writes. -/

/-- Descriptors of which nothing is known but their number. [DESIGN CHOICE, log 33] -/
def drawDescs (s : State) (n : Nat) : List (List Byte) × State :=
  (List.range n).foldl (fun (r : List (List Byte) × State) _ =>
    let d := draw r.2 (2 ^ 256)
    (r.1 ++ [leBytes 32 d.1], d.2)) ([], s)

/-- A write to a ring's registers (R353). [DESIGN CHOICE, log 33] -/
def ringRegWrite (s : State) (m : Master) (a w : Nat) : State :=
  let r := (a - 0x101000) / 0x40
  let o := a % 0x40
  if o < 0x10 then (if flag s (Reg.ringCfgEn r) then s else plainWrite s m a w)
  else if o = 0x10 then ringConfig s r w
  else if o = 0x14 then
    let n := ringSize s r
    let d := drawDescs s ((w % n + n - get s (Reg.ringTail r) % n) % n)
    ringTailWrite (if flag s (Reg.ringCfgEn r) then d.2 else s) r w d.1
  else plainWrite s m a w

/-- A write in the switch core, the classifier, containment and the traffic manager. [DESIGN CHOICE, log 16] -/
def pipeWrite (s : State) (m : Master) (a w : Nat) : State :=
  if a = 0x500010 then fdbFlush s w
  else if a = 0x500040 then fdbAccCtl s m w
  else if a = 0x600000 then clsCtl s m w
  else if a = 0x600F00 then onBit w 3 (fun t => put t Reg.shadowStatusSelftestFault 0) s
  else if a = 0x610004 then contActWrite s m w
  else if a = 0x610008 then contRelWrite s m w
  else if a = 0x61000C then contRelReqWrite s w
  else if a = 0x610100 then convCtl s w
  else if a = 0x800008 then tmAccCtl s m w
  else if inR a 0x900000 0x91FFFF ∧ a % 16 = 12 then onBit w 1 (fun t => put t (Reg.sfStateBlocked ((a - 0x900000) / 16)) 0) s
  else if inR a 0x940000 0x941FFF ∧ a % 8 = 4 then onBit w 0 (fun t => flowReopen t ((a - 0x940000) / 8)) s
  else plainWrite s m a w

/-- A write in the edge complex and the ports. [DESIGN CHOICE, log 16] -/
def edgeWrite (s : State) (m : Master) (a w : Nat) : State :=
  if a = 0xB00000 then edgeAccCtl s m w
  else if a = 0xB00300 then eventsClear s m secEventFlds 19 w
  else if inR a 0xA00000 0xAFFFFF ∧ a % 0x1000 = 0x10 then
    eventsClear s m (chEventFlds ((a - 0xA00000) / 0x1000)) (112 + (a - 0xA00000) / 0x1000) w
  else if inR a 0xA00000 0xAFFFFF ∧ a % 0x1000 = 4 then onBit w 1 (fun t => canRecover t ((a - 0xA00000) / 0x1000)) s
  else if inR a 0x200000 0x4FFFFF ∧ a % 0x10000 = 0xC then
    eventsClear s m (portEventFlds ((a - 0x200000) / 0x10000)) (64 + (a - 0x200000) / 0x10000) w
  else plainWrite s m a w

/-- A write in the vault, the MAC cluster and the scoresheet. -/
def vaultWrite (s : State) (m : Master) (a w : Nat) : State :=
  if a = 0xC0008 then lcReqWrite s m w
  else if a = 0xC0034 then revokeWrite s m w
  else if a = 0xC0044 then tamperClear s w
  else if a = 0xC0050 then importWrite s m w
  else if a = 0xC0180 then mcjGo s m w
  else if a = 0xC0210 then attGo s m w
  else if a = 0xE0048 then sheetRead s w
  else if a = 0xE0100 then sheetRetire s m w
  else plainWrite s m a w

/-- A write of SRC_CFG: EN is written where its value changes. -/
def srcCfgWrite (s : State) (m : Master) (a w : Nat) : State :=
  let n := (a - 0x82000) / 4
  if bitAt w 0 = srcEn s n then s else srcCfgEn s m n (bitAt w 0)

/-- A write in the interrupt controller, the fault collector and the counters. -/
def intWrite (s : State) (m : Master) (a w : Nat) : State :=
  if a = 0x80000 then doorbellWrite s m w
  else if a = 0x80014 then complete s (targetOf m) 0 (bitsAt w 0 11)
  else if a = 0x8001C then complete s (targetOf m) 1 (bitsAt w 0 11)
  else if inR a 0x82000 0x83FFF then srcCfgWrite s m a w
  else if a = 0xA0004 then onBit w 5 ovfAckWrite (fcAckWrite s w)
  else if a = 0xC00000 then onBit w 0 (fun t => snapRequest t m) s
  else if a = 0xC00080 then
    put (onBit w 0 copyRequest s) Reg.crCtlExpose (bitsAt w 4 4)
  else if a = 0xE00810 then coreCtlRelease s w
  else plainWrite s m a w

/-- A write in the global block, the time base, the commit block, power and wake, and the host bridge.
[DESIGN CHOICE, log 16] -/
def globalWrite (s : State) (m : Master) (a w : Nat) : State :=
  if a = 0x10 then resetWrite s m w
  else if a = 0x2004 ∧ m == .dbg then s
  else if a = 0x1000 then onBit w 4 (fun t => imgCtl t m (w % 16)) s
  else if a = 0x10004 then pwrCtlWrite s m w
  else if a = 0x10180 then netClrWrite s w
  else if a = 0x20000 then onBit w 1 gtSetArm (onBit w 0 timeSnapshot s)
  else if a = 0x40090 then onBit w 1 (fun t => epochUnlatch t m) (onBit w 0 (fun t => epochLatch t m) s)
  else if inR a 0x100100 0x10017F then
    onBit w 1 (fun t => semRelease t m ((a - 0x100100) / 4)) (onBit w 0 (fun t => semTake t m ((a - 0x100100) / 4)) s)
  else if inR a 0x101000 0x101FFF then ringRegWrite s m a w
  else plainWrite s m a w

/-- What a write that passed every check does, but for staging. [DEDUCED, log 34] -/
def writeEffect (s : State) (m : Master) (a w : Nat) : State :=
  if inR a 0x80000 0xBFFFF ∨ inR a 0xC00000 0xC014FF ∨ inR a 0xE00000 0xE0090F then intWrite s m a w
  else if inR a 0xC0000 0xE0127 then vaultWrite s m a w
  else if inR a 0x200000 0x4FFFFF ∨ inR a 0xA00000 0xB013FF then edgeWrite s m a w
  else if inR a 0x500000 0x95FFFF then pipeWrite s m a w
  else if inR a 0xF00000 0xF0FFFF then (if m == .dbg then coreRegWrite s a w else s)
  else globalWrite s m a w

/-- Does a written word give a CMT field of the register a value other than the one staged, or in force?
[DEDUCED, log 18] -/
def cmtDiffers (s : State) (a w : Nat) : Bool :=
  (fieldsAt 0 a).any fun e => e.1.ty == .cmt && cmtLive s e.1 && bitsAt w e.1.lsb e.1.width != stagedOr s e.1

/-- Registers that mix CMT fields with others: SRC_CFG and CH_CTL. [DEDUCED, log 18] -/
def mixedReg (a : Nat) : Bool := inR a 0x82000 0x83FFF || (inR a 0xA00000 0xAFFFFF && a % 0x1000 == 4)

/-- A write of a staging register, a commit control or a CMT field, judged under R66 and R70. [DEDUCED, log 18] -/
def stagedWrite (s : State) (m : Master) (a w : Nat) : State :=
  if a = 0x40050 then
    let s0 := if w % 16 = 0 then answer s m .done else s
    onBit w 3 (fun t => stagePush t m (bitsAt w 4 2)) (onBit w 2 (fun t => stageDiscard t m)
      (onBit w 1 (fun t => stageRelease t m) (onBit w 0 (fun t => stageClaim t m) s0)))
  else if a = 0x40070 then
    onBit w 1 (fun t => commitCancel t m) (onBit w 0 (fun t => commitReq t m) (if w % 4 = 0 then answer s m .done else s))
  else if a = 0x40058 ∨ a = 0x4005C then stageAccess s m a (stageMay s m) fun t => plainWrite (takeOwnership t m) m a w
  else if mixedReg a then
    let s1 := answer (writeEffect s m a w) m .done
    if cmtDiffers s a w then cmtWrite s1 m a w else s1
  else cmtWrite s m a w

/-- Is a register one of those? [DEDUCED, log 17] -/
def stagedReg (a : Nat) : Bool := a == 0x40050 || a == 0x40070 || a == 0x40058 || a == 0x4005C || hasCmt a

/-- A write to any register, granted (R447): the checks in their order, then the effect. -/
def writePerformed (s : State) (m : Master) (a size w : Nat) : State :=
  if recoverySize s a size then reportWrite s m a 1
  else if a = 0x10 ∧ size = 4 ∧ resetEarly s m then answer (resetWrite s m w) m .done
  else if !writesAnswered s then writeUnanswered s m a
  else match writeRefusal s m a size with
    | some c => refuseWrite s m a c
    | none =>
      if replayFull s m a then answer s m (.dbg 2 0)
      else if stagedReg a then stagedWrite s m a w
      else answer (writeEffect s m a w) m .done

/-- A write to any register by a master, granted and performed (R447, R448). [DESIGN CHOICE, log 142] -/
def registerWrite (s : State) (m : Master) (a size w : Nat) : State :=
  if masterHeard s m then noteGrant (writePerformed s m a size w) a m else s

/-! Reads. -/

/-- What an RC field holds after a read: zero, or the current value where the register's table reloads it.
[DEDUCED, log 23] -/
def reloaded (s : State) (f : Fld) : Nat :=
  if f = Reg.bufMin then sharedFree s
  else if f = Reg.vbatRangeVbatMin ∨ f = Reg.vbatRangeVbatMax then get s Reg.supplyStatusVbat
  else match (List.range 4).find? fun i => f = Reg.tempPeak i with
    | some i => get s (Reg.tempTemp i)
    | none => 0

/-- RC fields of a register cleared by a read of it (R11). [DEDUCED, log 23] -/
def readClears (s : State) (fs : List (Fld × Nat)) : State :=
  fs.foldl (fun st e =>
    if e.1.ty = .rc then
      let f := if e.1 = Reg.slotUses then usesFld (get s Reg.slotSel) else e.1
      put st f (reloaded s e.1)
    else st) s

/-- The number a captured word is kept under, for a master: the PCIe host and the SPI port are the one master HB (R327).
[DEDUCED, log 22] -/
def captureKey (m : Master) (a : Nat) : Nat := conflictCode m * 2 ^ 24 + a

/-- The words that a read of a register captures for later reads by the same master (R9): the high word of a 64-bit
quantity; PPS_IN_SEC_LO captures PPS_IN_NS and PPS_IN_SEC_HI. [DEDUCED, log 22] -/
def capturedBy (s : State) (m : Master) (a : Nat) : List (Nat × Nat) :=
  if a = 0x2002C then [(0x20028, wordOf s m (fieldsAt 0 0x20028)), (0x20030, wordOf s m (fieldsAt 0 0x20030))]
  else if (fieldsAt (regBank m a) a).any fun e => e.1.width == 64 && e.2 == 0 then
    [(a + 4, wordOf s m (fieldsAt (regBank m a) (a + 4)))]
  else []

/-- A register's word for a master, and what reading it does: a word captured earlier is returned once.
[DEDUCED, log 22] -/
def plainRead (s0 : State) (m : Master) (a : Nat) : Nat × State :=
  let s := settle s0 a
  let fs := fieldsAt (regBank m a) a
  let v := wordOf s m fs
  let k := captureKey m a
  let s1 := (capturedBy s m a).foldl (fun (st : State) e =>
    { st with io.capture := st.io.capture.set (captureKey m e.1) e.2 }) (readClears s fs)
  match s.io.capture.find k with
  | some x => (x, { s1 with io.capture := s1.io.capture.del k })
  | none => (v, s1)

/-- A read that passed every check: claims and the ledger act, CMT_PEEK_DATA shows what is staged. [DEDUCED, log 34] -/
def readEffect (s : State) (m : Master) (a : Nat) : Nat × State :=
  if a = 0x80010 then claim s (targetOf m) 0
  else if a = 0x80018 then claim s (targetOf m) 1
  else if a = 0x10002C then ledgerTake s (origin m)
  else if a = Reg.cmtPeekData.addr then (peekWord (settle s (4 * get s Reg.cmtPeekAddr)) m (4 * get s Reg.cmtPeekAddr), s)
  else if m == .dbg ∧ inR a 0xF00000 0xF0FFFF then coreRegRead s a
  else plainRead s m a

/-- A read of any register, granted (R447). -/
def readPerformed (s : State) (m : Master) (a size : Nat) : State :=
  if recoverySize s a size then reportRead s m 1
  else if !readsAnswered s m a then unanswered s m a
  else match readRefusal s m a size with
    | some c => reportRead s m c
    | none =>
      let r := readEffect s m a
      answer r.2 m (.data r.1)

/-- A read of any register by a master, granted and performed (R447, R448). [DEDUCED, log 15; DESIGN CHOICE, log 142] -/
def registerRead (s : State) (m : Master) (a size : Nat) : State :=
  if masterHeard s m then noteGrant (readPerformed s m a size) a m else s

/-- CMT_PEEK (R69): CMT_PEEK_ADDR written, then CMT_PEEK_DATA read. -/
def cmtPeek (s : State) (m : Master) (a : Nat) : State :=
  registerRead (accessWrite s m Reg.cmtPeekAddr.addr fun t => plainWrite t m Reg.cmtPeekAddr.addr a) m
    Reg.cmtPeekData.addr 4

/-! The debug port (R350). -/

/-- A DBG_ACCESS request: the TAP selects DBG_ACCESS where the life-cycle state permits it. One shifted in while the last
is in progress is ignored (R350). -/
def dbgRequest (s : State) (effect : State → State) : State := if dieRuns s ∧ !dbgBusy s then effect (tapSelect s 0x10) else s

/-! The SPI management port (R345 to R348, R408). -/

/-- Does the port take transactions other than STATUS? With MSPI_EN clear it ignores them without a trace (R348).
[DEDUCED, log 30] -/
def spiListens (s : State) : Bool := dieRuns s && (!aloft s || mspiOn s)

/-- A write transaction refused: ledger, LAST_ERR (R346, R408). -/
def spiRefuse (s : State) (a code space : Nat) : State :=
  { ledgerAdd (answer s .spi .done) 2 a code space with host.lastErr := true }

/-- Words of a control-space write, performed one after another at consecutive addresses. -/
def spiWords (s : State) (a : Nat) : List Word → State
  | [] => s
  | w :: ws => spiWords (registerWrite s .spi a 4 w.toNat) (a + 4) ws

/-- SPI_WRITE. A misaligned A is refused as a whole. [DEDUCED, log 31] -/
def spiWrite (s : State) (a : Nat) (ws : List Word) : State :=
  if !spiListens s then s
  else if a % 4 ≠ 0 ∧ aloft s then spiRefuse s a 1 0
  else spiWords s a ws

/-- Is the read of a run of words answered: every word by its phase and its checks? The code otherwise.
[DEDUCED, log 31] -/
def spiReadRefusal (s : State) (a n : Nat) : Option Nat :=
  if a % 4 ≠ 0 then some 1
  else (List.range n).findSome? fun i =>
    if s.boot.phase = .recovery then none
    else if !readsAnswered s .spi (a + 4 * i) then some 1
    else readRefusal s .spi (a + 4 * i) 4

/-- One word of an SPI read; in recovery mode every register but IDENT reads zero (R397). -/
def spiWord (s : State) (a : Nat) : Nat × State :=
  if s.boot.phase = .recovery ∧ a ≠ 0 then (0, s) else readEffect s .spi a

/-- SPI_READ: the sync byte and the words, or the error sync and a code, counted in ERRORS (R347). [DEDUCED, log 31] -/
def spiRead (s : State) (a n : Nat) : State :=
  if !spiListens s then s
  else match spiReadRefusal s a n with
    | some c => reportRead s .spi c
    | none =>
      let r := (List.range n).foldl (fun (r : List Nat × State) i =>
        let x := spiWord r.2 (a + 4 * i)
        (r.1 ++ [x.1], x.2)) ([], s)
      answer r.2 .spi (.words r.1)

/-- A Bank H access of HB by SPI judged: the ledger code of a refusal, with its log (R313, R314, R322). -/
def hbCheck (s : State) (off n : Nat) (write : Bool) (ecc : BankEcc) : Option Nat × State :=
  if !regionOk s .hb .h off n write then (some 3, regionViolation s .hb off write)
  else match hitsMark s .h off n with
    | some w => (some 5, unmark s .h w)
    | none => match ecc with
      | .uncorrectable w => (some 5, eccError s .h (badWord off w))
      | .corrected => (none, bump s (Reg.bankEccEccCorr 2))
      | .clean => (none, s)

/-- What ECC found in the words of a run, as the word at index `i` of the run meets it. -/
def wordEcc (off : Nat) (ecc : BankEcc) (i : Nat) : BankEcc :=
  match ecc with
  | .uncorrectable w => if (off + 4 * i) / 8 = off / 8 + w then .uncorrectable 0 else .clean
  | .corrected => if i = 0 then .corrected else .clean
  | .clean => .clean

/-- Bytes written to Bank H. -/
def hStore (s : State) (off : Nat) (d : List Byte) : State :=
  setBankH s (Mem.writeBytes s.mem.bankH 0 off (d.take (bankBytes .h - off)))

/-- One word of an H_WRITE. Before READY it is refused; in recovery mode the regions do not apply (R398, R408). -/
def hWriteWord (s : State) (off : Nat) (w : Word) (ecc : BankEcc) : State :=
  let d := leBytes 4 w.toNat
  if s.boot.phase = .recovery then answer (hStore s off d) .spi .done
  else if !aloft s then writeUnanswered s .spi off
  else match reach s .spi 0 true with
    | some c => spiRefuse s off c 1
    | none =>
      match hbCheck s off 4 true ecc with
      | (some c, t) => spiRefuse t off c 1
      | (none, t) => answer (hStore t off d) .spi .done

/-- Words of an H_WRITE at consecutive offsets, from index `i`. [DEDUCED, log 31] -/
def hWords (s : State) (off : Nat) (ecc : BankEcc) (i : Nat) : List Word → State
  | [] => s
  | w :: ws => hWords (hWriteWord s (off + 4 * i) w (wordEcc off ecc i)) off ecc (i + 1) ws

/-- The grant of an SPI access to Bank H, while the bank is arbitrated for. -/
def hGrant (s : State) (waiting : List BusMaster) : State := if aloft s then grantBank s .hb .h waiting 1 else s

/-- Is it the turn of an SPI access to Bank H? [DEDUCED, log 124] -/
def hTurn (s : State) (waiting : List BusMaster) : Bool := !aloft s || isNext s .hb .h waiting

/-- H_WRITE. In recovery mode ROM then looks at its mailbox. [DEDUCED, log 31] -/
def hWrite (s : State) (off : Nat) (ws : List Word) (ecc : BankEcc) (waiting : List BusMaster) : State :=
  if !spiListens s ∨ !hTurn s waiting then s
  else if off % 4 ≠ 0 then (if aloft s then spiRefuse s off 1 1 else writeUnanswered s .spi off)
  else romPoll (hWords (hGrant s waiting) off ecc 0 ws)

/-- H_READ: the run is judged as one access. [DEDUCED, log 31] -/
def hRead (s : State) (off n : Nat) (ecc : BankEcc) (waiting : List BusMaster) : State :=
  let vals := fun (t : State) => (List.range n).map fun i => leNat (Mem.readBytes t.mem.bankH 0 (off + 4 * i) 4)
  if !spiListens s ∨ !hTurn s waiting then s
  else if off % 4 ≠ 0 then reportRead s .spi 1
  else if s.boot.phase = .recovery then answer s .spi (.words (vals s))
  else if !aloft s then reportRead s .spi 1
  else match hbCheck (hGrant s waiting) off (4 * n) false ecc with
    | (some c, t) => reportRead t .spi c
    | (none, t) => answer t .spi (.words (vals t))

/-- STATUS: READY, MSPI_INT_N, LAST_ERR, which the read clears, and ROM recovery mode. -/
def spiStatus (s : State) : State :=
  if !dieRuns s then s
  else
    let irq := (claimNext s 6 0).isSome || (claimNext s 6 1).isSome
    answer { s with host.lastErr := false } .spi
      (.data (b2n (aloft s) + 2 * b2n irq + 4 * b2n s.host.lastErr + 8 * b2n (s.boot.phase == .recovery)))

/-- SPI_ABORT (R346): counted; of a write, the whole words received are performed. -/
def spiAbort (s : State) (w : Option SpiWriteOp) (whole : Nat) : State :=
  if !spiListens s then s
  else
    let s1 := match w with
      | none => s
      | some o =>
        let ws := o.words.take whole
        if ws.isEmpty then s else if o.toBankH then hWrite s o.addr ws .clean [] else spiWrite s o.addr ws
    bump s1 Reg.brSpiAborts

/-! Bank accesses (R311 to R317, R322). -/

/-- The general core or the pair, halted, that DBG works through (R311): the pair for Bank S below the secure sub-bank,
a general core for Bank G. [DEDUCED, log 28] -/
def dbgVia (s : State) (b : Bank) (off n : Nat) : Bool :=
  haltAllowed s && off + n ≤ bankBytes b &&
    (match b with
     | .s => s.cpu.halted.contains 0 && off + n ≤ 0x180000
     | .g => s.cpu.halted.any fun c => c != 0
     | _ => false)

/-- A bank access of DBG: each write through the halted pair is entered in the replay log (R307), and a word that ECC
cannot correct gets ERROR (R314). [DEDUCED, log 26; DEDUCED, log 28] -/
def dbgBank (s : State) (b : Bank) (off : Nat) (op : BankOp) (ecc : BankEcc) : State :=
  if !dbgVia s b off (opLen op) then answer s .dbg (.dbg 3 0)
  else match hitsMark s b off (opLen op) with
    | some w => answer (unmark s b w) .dbg (.dbg 3 0)
    | none => match ecc with
      | .uncorrectable w => answer (eccError s b (badWord off w)) .dbg (.dbg 3 0)
      | _ =>
        let s0 := if ecc = .corrected then bump s (Reg.bankEccEccCorr (bankIdx b)) else s
        match op with
        | .read n => answer s0 .dbg (.data (leNat (Mem.readBytes (bankMem s0 b) 0 off n)))
        | .write d =>
          if b == .s ∧ 64 ≤ s.cpu.replay.length then answer s0 .dbg (.dbg 2 0)
          else
            let s1 := if b == .s then { s0 with cpu.replay := s0.cpu.replay ++ [(off, leNat d)] } else s0
            answer (setBank s1 b (Mem.writeBytes (bankMem s1 b) 0 off d)) .dbg .done
        | .cas _ => answer s0 .dbg (.dbg 3 0)
        | .lockedRead _ => answer s0 .dbg (.dbg 3 0)

/-- PAGE_EN of the current slot (R384). -/
def pageEn (s : State) : Bool := bitAt (counterGlobals s).2.2 3

/-- A byte of BAR4 (R322): the MSI-X table of 80 entries of 16 bytes, and the pending bits at 0x2000. -/
def bar4Byte (s : State) (a : Nat) : Byte :=
  if a < 1280 then
    if a % 16 < 12 then ((((s.host.msixTab.find (a / 16)).getD [])[a % 16]?).getD 0)
    else if a % 16 = 12 then BitVec.ofNat 8 (b2n (s.host.msixMask.contains (a / 16))) else 0
  else if inR a 0x2000 0x2009 then
    BitVec.ofNat 8 (((s.host.msixPend.filter fun v => v / 8 == a - 0x2000).map fun v => 2 ^ (v % 8)).sum)
  else 0

/-- A byte of the MSI-X table written: of an entry's control, bit 0 masks its vector. The pending bits are read-only. -/
def setBar4Byte (s : State) (a : Nat) (v : Byte) : State :=
  if 1280 ≤ a then s
  else if a % 16 < 12 then
    let e := slice ((s.host.msixTab.find (a / 16)).getD []) 0 12
    { s with host.msixTab := s.host.msixTab.set (a / 16) (setAt e (a % 16) v) }
  else if a % 16 = 12 then
    let rest := s.host.msixMask.filter fun w => w != a / 16
    { s with host.msixMask := if v.toNat % 2 = 1 then a / 16 :: rest else rest }
  else s

/-- Bytes of BAR4 written from an offset; a pending vector that this unmasks is sent (R340). -/
def bar4Write (s : State) (a : Nat) (d : List Byte) : State :=
  flushVectors (forIdx d.length (fun i st => setBar4Byte st (a + i) ((d[i]?).getD 0)) s)

/-- A host access above Bank H: from offset 0x80_0000 to BAR4 (R322); else to BAR2, where the counter page reads as it was
last refreshed, everything else reads as zero, and writes are refused (R322, R381). -/
def aboveBankH (s : State) (off : Nat) (op : BankOp) : State :=
  match op with
  | .read n =>
    let v := if 0x800000 ≤ off then leNat ((List.range n).map fun i => bar4Byte s (off - 0x800000 + i))
      else if off + n ≤ 0x410000 ∧ pageEn s then leNat (Mem.readBytes s.cnt.page 0 (off - 0x400000) n) else 0
    answer s .host (.data v)
  | .write d =>
    if 0x800000 ≤ off then bar4Write (answer s .host .done) (off - 0x800000) d
    else ledgerAdd (answer s .host .done) 1 off 3 1
  | .cas _ => answer s .host .unsupportedRequest
  | .lockedRead _ => answer s .host .unsupportedRequest

/-- A host access to Bank H in recovery mode, where the regions do not apply (R397, R398). -/
def recoveryBank (s : State) (off : Nat) (op : BankOp) : State :=
  match op with
  | .read n => answer s .host (.data (leNat (Mem.readBytes s.mem.bankH 0 off n)))
  | .write d => romPoll (answer (hStore s off d) .host .done)
  | .cas _ => answer s .host .unsupportedRequest
  | .lockedRead _ => answer s .host .unsupportedRequest

/-- Is it a request that the endpoint never serves (R315, R321)? [DEDUCED, log 32] -/
def neverServed (op : BankOp) : Bool :=
  match op with
  | .cas _ => true
  | .lockedRead _ => true
  | _ => false

/-- BANK_ACCESS, from the master's request on. -/
def bankRequest (s : State) (m : BusMaster) (b : Bank) (off : Nat) (op : BankOp) (ecc : BankEcc)
    (waiting : List BusMaster) : State :=
  match m with
  | .dbg => if dieRuns s ∧ !dbgBusy s then dbgBank s b off op ecc else s
  | .hb =>
    if !endpointOn s then s
    else if neverServed op then answer s .host .unsupportedRequest
    else if s.boot.phase = .recovery then recoveryBank s off op
    else if !aloft s then answer s .host .unsupportedRequest
    else if 0x400000 ≤ off then aboveBankH s off op
    else bankAccess s .hb b off op ecc waiting
  | .sp => if firmwareRuns s ∧ masterRuns s .sp then bankAccess s .sp b off op ecc waiting else s
  | .gc c => if firmwareRuns s ∧ masterRuns s (.gc c) then bankAccess s (.gc c) b off op ecc waiting else s
  | .dma => if aloft s then bankAccess s .dma b off op ecc waiting else s
  | .mc => if aloft s then bankAccess s .mc b off op ecc waiting else s
  | .ec => if aloft s then bankAccess s .ec b off op ecc waiting else s

/-- A host's atomic on Bank H in recovery mode, where the regions do not apply (R315, R398). -/
def recoveryAtomic (s : State) (off n : Nat) (f : Nat → Nat) : State :=
  if off % n ≠ 0 ∨ bankBytes .h < off + n then answer s .host .unsupportedRequest
  else romPoll (performAtomic s .hb .h off n f)

/-- An atomic, from the master's request on (R315). In the phases where the endpoint answers but the device is not
forwarding, a host's atomic gets Unsupported Request (R407), but in recovery mode (R398). [DEDUCED, log 32] -/
def atomicRequest (s : State) (m : BusMaster) (b : Bank) (off : Nat) (wide : Bool) (f : Nat → Nat) (ecc : BankEcc)
    (waiting : List BusMaster) : State :=
  match m with
  | .hb =>
    if !endpointOn s then s
    else if s.boot.phase = .recovery then recoveryAtomic s off (if wide then 8 else 4) f
    else if !aloft s then answer s .host .unsupportedRequest
    else atomic s .hb b off wide f ecc waiting
  | .sp => if firmwareRuns s ∧ masterRuns s .sp then atomic s .sp b off wide f ecc waiting else s
  | .gc c => if firmwareRuns s ∧ masterRuns s (.gc c) then atomic s (.gc c) b off wide f ecc waiting else s
  | _ => if aloft s then atomic s m b off wide f ecc waiting else s

/-! Meanings. -/

/-- REGISTER_WRITE. One of a master that is not the next is not granted: the next one's access is the command to come
(R448). -/
def execRegisterWrite (m : Asking) (addr : Nat) (size : Nat) (v : Word) (s : State) : Host.Outcome State Fault Refusal :=
  .next (if grantedNext s addr m.m m.waiting then registerWrite s m.m addr size v.toNat else s)

/-- REGISTER_READ, granted in the same way (R448). -/
def execRegisterRead (m : Asking) (addr : Nat) (size : Nat) (s : State) : Host.Outcome State Fault Refusal :=
  .next (if grantedNext s addr m.m m.waiting then registerRead s m.m addr size else s)

/-- CMT_PEEK. -/
def execCmtPeek (m : Master) (addr : Nat) (s : State) : Host.Outcome State Fault Refusal := .next (cmtPeek s m addr)

/-- DBG_READ. -/
def execDbgRead (addr : Nat) (s : State) : Host.Outcome State Fault Refusal :=
  .next (dbgRequest s fun t => registerRead t .dbg addr 4)

/-- DBG_WRITE. -/
def execDbgWrite (addr : Nat) (v : Word) (s : State) : Host.Outcome State Fault Refusal :=
  .next (dbgRequest s fun t => registerWrite t .dbg addr 4 v.toNat)

/-- SPI_WRITE. -/
def execSpiWrite (addr : Nat) (words : List Word) (s : State) : Host.Outcome State Fault Refusal :=
  .next (spiWrite s addr words)

/-- SPI_READ. -/
def execSpiRead (addr : Nat) (n : Nat) (s : State) : Host.Outcome State Fault Refusal := .next (spiRead s addr n)

/-- H_WRITE. -/
def execHWrite (off : Nat) (words : Granted (List Word)) (s : State) : Host.Outcome State Fault Refusal :=
  .next (hWrite s off words.arg words.ecc words.waiting)

/-- H_READ. -/
def execHRead (off : Nat) (n : Granted Nat) (s : State) : Host.Outcome State Fault Refusal :=
  .next (hRead s off n.arg n.ecc n.waiting)

/-- STATUS. -/
def execSpiStatus (s : State) : Host.Outcome State Fault Refusal := .next (spiStatus s)

/-- SPI_UNKNOWN_OPCODE: ignored until MSPI_CS_N rises (R345). -/
def execSpiUnknownOpcode (_op : Byte) (s : State) : Host.Outcome State Fault Refusal := .next s

/-- SPI_ABORT. -/
def execSpiAbort (w : Option SpiWriteOp) (whole : Nat) (s : State) : Host.Outcome State Fault Refusal :=
  .next (spiAbort s w whole)

/-- BANK_ACCESS. -/
def execBankAccess (m : BusMaster) (bank : Bank) (off : Nat) (op : BankOp) (ecc : BankEcc) (waiting : List BusMaster)
    (s : State) : Host.Outcome State Fault Refusal := .next (bankRequest s m bank off op ecc waiting)

/-- ATOMIC_ADD: the sum wraps at the word's width. -/
def execAtomicAdd (m : BusMaster) (bank : Bank) (off : Nat) (wide : Bool) (v : Granted (BitVec 64)) (s : State) :
    Host.Outcome State Fault Refusal :=
  .next (atomicRequest s m bank off wide (fun old => old + v.arg.toNat) v.ecc v.waiting)

/-- ATOMIC_SWAP. -/
def execAtomicSwap (m : BusMaster) (bank : Bank) (off : Nat) (wide : Bool) (v : Granted (BitVec 64)) (s : State) :
    Host.Outcome State Fault Refusal :=
  .next (atomicRequest s m bank off wide (fun _ => v.arg.toNat) v.ecc v.waiting)

end Sys2Proof.Machine
end

