-- ==== Sys2Proof/Machine/Boundary.lean ====
section
/-!
DEFINITION. The tempo boundary (R39 to R44): when it falls, and what applies at it in which order.
-/
namespace Sys2Proof.Machine

/-! When a boundary falls. -/

/-- Has that instant come? [DESIGN CHOICE, log 41; DEDUCED, log 42] -/
def boundaryDue (s : State) : Bool :=
  decide (nextMark s ≤ wcNow s) && (!s.time.realign || decide (s.time.tempoLocal + period s ≤ s.time.now))

/-- The next tempo begins: no number is skipped or repeated, and a realignment is counted (R40, R41). -/
def nextTempo (s : State) : State :=
  let s1 := if s.time.realign then bump s Reg.tempoStatsRealign else s
  put { s1 with time.tempoMark := nextMark s, time.tempoLocal := s.time.now, time.realign := false } Reg.tempoNum
    (tempoNo s + 1)

/-! A commit at its T+0 (R72). -/

/-- Does a vault slot hold another key than it did? -/
def refilledIn (was now : State) (i : Nat) : Bool := slotReady now i && slotOf now i != slotOf was i

/-- Ports and channels follow ADMIN_EN, unless a descent has closed them (R281). [DEDUCED, log 44] -/
def followAdmin (s : State) : State :=
  if 3 ≤ descentPhase s then s else applyChans (forIdx 48 applyPreempt (applyAdmins s))

/-- A source that waits for a claim moves to its new target: at the host by the vector it has there, and still in the class of its
last transition to pending (R356). [DEDUCED, log 141] -/
def moveSource (s : State) (n : Nat) : State :=
  if srcTarget s n = 5 then
    deliver { s with intc.pendRoute := s.intc.pendRoute.set n (pendClass s n, srcVector s n) } n
  else deliver s n

/-- Sources that wait for a claim move with their routing at T+0: one that has become the host's sends its event vector
(R356, R359). [DEDUCED, log 141] -/
def moveSources (s was : State) : State :=
  forIdx 2048 (fun n st =>
    if srcState st n = 1 ∧ srcTarget was n ≠ srcTarget st n then moveSource st n else st) s

/-- The armed commit takes effect: the new slot is current, then keys, gates and shapers follow it in the order of
R43. -/
def commitNow (s : State) : State :=
  let old := curSlot s
  let s1 := commitSwitch (tagAll s)
  let s2 := { commitKeys s1 old (curSlot s1) with env.touched := [] }
  let s3 := fvCommit (loadPns s2 (refilledIn s s2) (some old)) old (curSlot s1) (refilledIn s s2)
  let s4 := zeroChanged (loadRipcord (followAdmin (cutRevoked s3))) old
  let sp := if cmtOf s old Reg.ppsCfgPpsInEn = 0 ∧ cur s4 Reg.ppsCfgPpsInEn ≠ 0 then ppsSearch s4 else s4
  let s5 := installChanged sp old s.time.tempoMark
  moveSources (settleAll (remeter old (forIdx 50 (reshapePort old) s5))) s

/-- Is the armed commit due at the boundary that has just been cut? -/
def commitDue (s : State) : Bool := get s Reg.commitStatusState == 4 && decide (s.env.t0 ≤ tempoNo s)

/-! What else a boundary does. -/

/-- DRAIN_AGE of every draining slot. -/
def showDrainAge (s : State) : State :=
  forIdx 4 (fun i st =>
    if slotState st i = 3 then
      put st (Reg.inflightDrainAge i) (min 4095 (tempoNo st - (st.env.drainStart.find i).getD (tempoNo st)))
    else st) s

/-- Work that every boundary starts anew: averages, LIN slots, budgets, deadlines, the lockstep test. -/
def everyTempo (s : State) : State :=
  let s1 := jobsAtBoundary (linFinishAll (allRoutesDue (avgBoundary (showDrainAge s))))
  countDeadlines { s1 with cpu.injected := false } (s1.cpu.spWindow || s1.cpu.halted.contains 0)

/-- The changes of R43 in their order, at the boundary just cut; FAULT_N follows a level that a commit has changed (R369).
[DEDUCED, log 15] -/
def tempoAligned (s : State) : State :=
  let s1 := castBefore (cutRevoked (revokeDue s s.time.now))
  let s2 := if commitDue s1 then refreshFaultN (commitNow s1) else s1
  let s3 := if castPhase s2 = 6 then s2 else releaseDue s2 (tempoNo s2)
  sleepAgreement (lcResume (castAfter s3))

/-- A boundary while the device forwards. A recovery reset that was asked for begins here (R389). -/
def boundary (s : State) : State :=
  let s1 := everyTempo (tempoAligned (nextTempo (deferWaiting (captures s (tempoNo s + 1)))))
  if s1.img.recoverDue then beginReset { s1 with img.recoverDue := false } 4 else s1

/-- READY (R41, R401): the first boundary after calibration and firmware start. [DEDUCED, log 43] -/
def firstBoundary (s : State) : State :=
  let mark := wcNow s - wcNow s % (period s : Int)
  let s1 := startForwarding (captures (put { s with time.tempoMark := mark } Reg.tempoNum 0) 0)
  settleAll (installChanged (applyAdmins s1) 1 mark)

/-- TEMPO_BOUNDARY. [DESIGN CHOICE, log 41] -/
def tempoBoundary (s : State) : State :=
  match s.boot.phase with
  | .aloft => if boundaryDue s then boundary s else s
  | .starting => if !s.cpu.spHeld ∧ s.boot.calDone ∧ s.time.tempoMark + period s ≤ wcNow s then firstBoundary s else s
  | _ => s

/-- DUMP_CAPTURE (R380): the captures of the boundary whose instant has come, where a dump is among them; the boundary itself
finds them made. -/
def dumpCapture (s : State) : State :=
  if aloft s ∧ boundaryDue s ∧ dumpDue s (tempoNo s + 1) then captures s (tempoNo s + 1) else s

/-- The first boundary after wake (R42, R293): what was frozen before is no longer shown (R415), and what waits for a boundary is
captured at this one (R378, R380). -/
def forwardingBoundary (s : State) : State :=
  if s.boot.phase = .wakeTrain then forwardingReady (captures (put s Reg.snapStatusValid 0) (tempoNo s + 1)) else s

/-! Meanings. -/

/-- FORWARDING_READY. -/
def execForwardingReady (s : State) : Host.Outcome State Fault Refusal := .next (forwardingBoundary s)

/-- TEMPO_BOUNDARY. -/
def execTempoBoundary (s : State) : Host.Outcome State Fault Refusal := .next (tempoBoundary s)

/-- DUMP_CAPTURE. -/
def execDumpCapture (s : State) : Host.Outcome State Fault Refusal := .next (dumpCapture s)

end Sys2Proof.Machine
end

