-- ==== Sys2Proof/Machine/Dispatch.lean ====
section
/-!
DEFINITION. One arm per command, each a direct call of its meaning.
-/
namespace Sys2Proof.Machine

def exec (i : Instr) (s : State) : Host.Outcome State Fault Refusal :=
  match i with
  | .tempoBoundary => Sys2Proof.Machine.execTempoBoundary s
  | .jobRequest core kind cost => Sys2Proof.Machine.execJobRequest core kind cost s
  | .jobStart core => Sys2Proof.Machine.execJobStart core s
  | .jobComplete core => Sys2Proof.Machine.execJobComplete core s
  | .acceptSync dom gm offset rate => Sys2Proof.Machine.execAcceptSync dom gm offset rate s
  | .grandmasterLoss dom => Sys2Proof.Machine.execGrandmasterLoss dom s
  | .ppsInEdge rising => Sys2Proof.Machine.execPpsInEdge rising s
  | .ppsInMissing => Sys2Proof.Machine.execPpsInMissing s
  | .ppsOutRise => Sys2Proof.Machine.execPpsOutRise s
  | .ppsOutFall => Sys2Proof.Machine.execPpsOutFall s
  | .timeSnap m => Sys2Proof.Machine.execTimeSnap m s
  | .gtSet m => Sys2Proof.Machine.execGtSet m s
  | .gtSetLoad => Sys2Proof.Machine.execGtSetLoad s
  | .frameArrival p f => Sys2Proof.Machine.execFrameArrival p f s
  | .cellWrite p => Sys2Proof.Machine.execCellWrite p s
  | .macsecIcvCheck p => Sys2Proof.Machine.execMacsecIcvCheck p s
  | .unitDecision src ecc => Sys2Proof.Machine.execUnitDecision src ecc s
  | .frameTail p fcsOk asmErr => Sys2Proof.Machine.execFrameTail p fcsOk asmErr s
  | .frameSelect p mac ecc => Sys2Proof.Machine.execFrameSelect p mac ecc s
  | .frameTransmitEnd p mac => Sys2Proof.Machine.execFrameTransmitEnd p mac s
  | .linkEstablished p signature => Sys2Proof.Machine.execLinkEstablished p signature s
  | .retainedTrainTimeout p => Sys2Proof.Machine.execRetainedTrainTimeout p s
  | .fullTrainTimeout p => Sys2Proof.Machine.execFullTrainTimeout p s
  | .partnerSignatureChange p signature => Sys2Proof.Machine.execPartnerSignatureChange p signature s
  | .linkLoss p => Sys2Proof.Machine.execLinkLoss p s
  | .serdesLinkUp k speed => Sys2Proof.Machine.execSerdesLinkUp k speed s
  | .serdesLinkDown k => Sys2Proof.Machine.execSerdesLinkDown k s
  | .plcaStatusChange p active => Sys2Proof.Machine.execPlcaStatusChange p active s
  | .beaconTimeout p => Sys2Proof.Machine.execBeaconTimeout p s
  | .verifyResponse p => Sys2Proof.Machine.execVerifyResponse p s
  | .verifyTimeout p => Sys2Proof.Machine.execVerifyTimeout p s
  | .portEventsClear m p w => Sys2Proof.Machine.execPortEventsClear m p w s
  | .fdbFlush m w => Sys2Proof.Machine.execFdbFlush m w s
  | .fdbFlushDone => Sys2Proof.Machine.execFdbFlushDone s
  | .fdbAgeing entry => Sys2Proof.Machine.execFdbAgeing entry s
  | .fdbAccRead m w => Sys2Proof.Machine.execFdbAccRead m w s
  | .clsAccRead m w => Sys2Proof.Machine.execClsAccRead m w s
  | .probe m w => Sys2Proof.Machine.execProbe m w s
  | .probeLookup slotFree => Sys2Proof.Machine.execProbeLookup slotFree s
  | .fragExpiry entry => Sys2Proof.Machine.execFragExpiry entry s
  | .shadowSelftest idle flagged => Sys2Proof.Machine.execShadowSelftest idle flagged s
  | .shadowStatusClear m => Sys2Proof.Machine.execShadowStatusClear m s
  | .convExpiry entry => Sys2Proof.Machine.execConvExpiry entry s
  | .convAccRead m w => Sys2Proof.Machine.execConvAccRead m w s
  | .convFlush m w => Sys2Proof.Machine.execConvFlush m w s
  | .convFlushDone => Sys2Proof.Machine.execConvFlushDone s
  | .contAct m w => Sys2Proof.Machine.execContAct m w s
  | .contRelRelease m w => Sys2Proof.Machine.execContRelRelease m w s
  | .contRelDeny m w => Sys2Proof.Machine.execContRelDeny m w s
  | .contRelReq m w => Sys2Proof.Machine.execContRelReq m w s
  | .ripcordNAssert ns => Sys2Proof.Machine.execRipcordNAssert ns s
  | .ripcordNDeassert => Sys2Proof.Machine.execRipcordNDeassert s
  | .ripcordHoldExpiry => Sys2Proof.Machine.execRipcordHoldExpiry s
  | .streamFilterUnblock m f => Sys2Proof.Machine.execStreamFilterUnblock m f s
  | .flowGateReopen m g => Sys2Proof.Machine.execFlowGateReopen m g s
  | .flowGateEntry g => Sys2Proof.Machine.execFlowGateEntry g s
  | .timingWheelFire t => Sys2Proof.Machine.execTimingWheelFire t s
  | .gateEntryChange p => Sys2Proof.Machine.execGateEntryChange p s
  | .macHoldIssue p => Sys2Proof.Machine.execMacHoldIssue p s
  | .gateSwitch p => Sys2Proof.Machine.execGateSwitch p s
  | .canFrameReceive ch msg => Sys2Proof.Machine.execCanFrameReceive ch msg s
  | .secocVerifyDone ch => Sys2Proof.Machine.execSecocVerifyDone ch s
  | .secocGenerateDone => Sys2Proof.Machine.execSecocGenerateDone s
  | .canBusIntegrated ch => Sys2Proof.Machine.execCanBusIntegrated ch s
  | .canArbitration ch => Sys2Proof.Machine.execCanArbitration ch s
  | .canArbitrationLost ch => Sys2Proof.Machine.execCanArbitrationLost ch s
  | .canBusError ch err => Sys2Proof.Machine.execCanBusError ch err s
  | .canTxComplete ch => Sys2Proof.Machine.execCanTxComplete ch s
  | .recover m ch => Sys2Proof.Machine.execRecover m ch s
  | .canRecoveryComplete ch => Sys2Proof.Machine.execCanRecoveryComplete ch s
  | .linSlotStart l => Sys2Proof.Machine.execLinSlotStart l s
  | .linResponse l data csum => Sys2Proof.Machine.execLinResponse l data csum s
  | .linNoResp l => Sys2Proof.Machine.execLinNoResp l s
  | .linReadbackMismatch l => Sys2Proof.Machine.execLinReadbackMismatch l s
  | .txTimeout ch => Sys2Proof.Machine.execTxTimeout ch s
  | .chEventsClear m ch w => Sys2Proof.Machine.execChEventsClear m ch w s
  | .acfTunnelEndpoint => Sys2Proof.Machine.execAcfTunnelEndpoint s
  | .packerOpen b => Sys2Proof.Machine.execPackerOpen b s
  | .packWaitExpiry b => Sys2Proof.Machine.execPackWaitExpiry b s
  | .bridgeLost b => Sys2Proof.Machine.execBridgeLost b s
  | .fvSave blocks => Sys2Proof.Machine.execFvSave blocks s
  | .secEventsClear m w => Sys2Proof.Machine.execSecEventsClear m w s
  | .edgeAccRead m w => Sys2Proof.Machine.execEdgeAccRead m w s
  | .revoke m w => Sys2Proof.Machine.execRevoke m w s
  | .importKey m w => Sys2Proof.Machine.execImportKey m w s
  | .remask => Sys2Proof.Machine.execRemask s
  | .entropyFailure => Sys2Proof.Machine.execEntropyFailure s
  | .mcjGo m w => Sys2Proof.Machine.execMcjGo m w s
  | .mcjSuspend m => Sys2Proof.Machine.execMcjSuspend m s
  | .mcjDone m => Sys2Proof.Machine.execMcjDone m s
  | .attGo m w => Sys2Proof.Machine.execAttGo m w s
  | .attestationDone => Sys2Proof.Machine.execAttestationDone s
  | .lcReq m w => Sys2Proof.Machine.execLcReq m w s
  | .vkRevoke m key => Sys2Proof.Machine.execVkRevoke m key s
  | .tamper cause ns => Sys2Proof.Machine.execTamper cause ns s
  | .tamperClr m w => Sys2Proof.Machine.execTamperClr m w s
  | .sbRetire m w => Sys2Proof.Machine.execSbRetire m w s
  | .sbRead m w => Sys2Proof.Machine.execSbRead m w s
  | .sbReadDone => Sys2Proof.Machine.execSbReadDone s
  | .descentReq m w => Sys2Proof.Machine.execDescentReq m w s
  | .hostHold m hold => Sys2Proof.Machine.execHostHold m hold s
  | .networkIdle n => Sys2Proof.Machine.execNetworkIdle n s
  | .maxAwake n => Sys2Proof.Machine.execMaxAwake n s
  | .netClr m w => Sys2Proof.Machine.execNetClr m w s
  | .descentDrain => Sys2Proof.Machine.execDescentDrain s
  | .descentLinks => Sys2Proof.Machine.execDescentLinks s
  | .tc10SleepAck p => Sys2Proof.Machine.execTc10SleepAck p s
  | .descentSave => Sys2Proof.Machine.execDescentSave s
  | .saveTimeout => Sys2Proof.Machine.execSaveTimeout s
  | .cutoff => Sys2Proof.Machine.execCutoff s
  | .descentAbort => Sys2Proof.Machine.execDescentAbort s
  | .cutoffComplete => Sys2Proof.Machine.execCutoffComplete s
  | .selectiveWake ch kind => Sys2Proof.Machine.execSelectiveWake ch kind s
  | .linWake l => Sys2Proof.Machine.execLinWake l s
  | .wakePin pin => Sys2Proof.Machine.execWakePin pin s
  | .tc10Wake p => Sys2Proof.Machine.execTc10Wake p s
  | .parkTimer => Sys2Proof.Machine.execParkTimer s
  | .excursion => Sys2Proof.Machine.execExcursion s
  | .wakeLatch => Sys2Proof.Machine.execWakeLatch s
  | .switchDieRelease => Sys2Proof.Machine.execSwitchDieRelease s
  | .wakeCheck => Sys2Proof.Machine.execWakeCheck s
  | .forwardingReady => Sys2Proof.Machine.execForwardingReady s
  | .mooredScrub errs => Sys2Proof.Machine.execMooredScrub errs s
  | .vbatLoss => Sys2Proof.Machine.execVbatLoss s
  | .vbatLevelChange cv => Sys2Proof.Machine.execVbatLevelChange cv s
  | .lockstepInjection flagged => Sys2Proof.Machine.execLockstepInjection flagged s
  | .coreMismatch kind => Sys2Proof.Machine.execCoreMismatch kind s
  | .spWatchdog => Sys2Proof.Machine.execSpWatchdog s
  | .gcWatchdog c => Sys2Proof.Machine.execGcWatchdog c s
  | .coreCtlRelease m w => Sys2Proof.Machine.execCoreCtlRelease m w s
  | .bankAccess m bank off op ecc waiting => Sys2Proof.Machine.execBankAccess m bank off op ecc waiting s
  | .atomicAdd m bank off wide v => Sys2Proof.Machine.execAtomicAdd m bank off wide v s
  | .atomicSwap m bank off wide v => Sys2Proof.Machine.execAtomicSwap m bank off wide v s
  | .patrolScrub bank errs => Sys2Proof.Machine.execPatrolScrub bank errs s
  | .dbgPoll => Sys2Proof.Machine.execDbgPoll s
  | .dbgRead addr => Sys2Proof.Machine.execDbgRead addr s
  | .dbgWrite addr v => Sys2Proof.Machine.execDbgWrite addr v s
  | .dbgHalt c => Sys2Proof.Machine.execDbgHalt c s
  | .dbgResume c => Sys2Proof.Machine.execDbgResume c s
  | .dbgStep c => Sys2Proof.Machine.execDbgStep c s
  | .tapReset => Sys2Proof.Machine.execTapReset s
  | .extest => Sys2Proof.Machine.execExtest s
  | .idcode => Sys2Proof.Machine.execIdcode s
  | .samplePreload => Sys2Proof.Machine.execSamplePreload s
  | .bypass => Sys2Proof.Machine.execBypass s
  | .hostInterfaceReset kind => Sys2Proof.Machine.execHostInterfaceReset kind s
  | .perstNRise => Sys2Proof.Machine.execPerstNRise s
  | .p48StateChange st => Sys2Proof.Machine.execP48StateChange st s
  | .d3hotEntry pm => Sys2Proof.Machine.execD3hotEntry pm s
  | .d0Return => Sys2Proof.Machine.execD0Return s
  | .msixEnable => Sys2Proof.Machine.execMsixEnable s
  | .registerWrite m addr size v => Sys2Proof.Machine.execRegisterWrite m addr size v s
  | .cmtWrite m addr v => Sys2Proof.Machine.execCmtWrite m addr v s
  | .stageClaim m => Sys2Proof.Machine.execStageClaim m s
  | .stageRelease m => Sys2Proof.Machine.execStageRelease m s
  | .stageDiscard m => Sys2Proof.Machine.execStageDiscard m s
  | .stagePush m kind => Sys2Proof.Machine.execStagePush m kind s
  | .cmtPeek m addr => Sys2Proof.Machine.execCmtPeek m addr s
  | .commitReq m => Sys2Proof.Machine.execCommitReq m s
  | .commitArm => Sys2Proof.Machine.execCommitArm s
  | .commitCancel m => Sys2Proof.Machine.execCommitCancel m s
  | .epochLatch m => Sys2Proof.Machine.execEpochLatch m s
  | .epochLatchRelease m => Sys2Proof.Machine.execEpochLatchRelease m s
  | .slotFree slot => Sys2Proof.Machine.execSlotFree slot s
  | .drainLimit slot => Sys2Proof.Machine.execDrainLimit slot s
  | .gcOutboundWrite c addr data stalled => Sys2Proof.Machine.execGcOutboundWrite c addr data stalled s
  | .gcOutboundRead c addr len stalled => Sys2Proof.Machine.execGcOutboundRead c addr len stalled s
  | .stalemateRetry c stalled => Sys2Proof.Machine.execStalemateRetry c stalled s
  | .semExclusiveLoad c addr len => Sys2Proof.Machine.execSemExclusiveLoad c addr len s
  | .semExclusiveStore c addr data => Sys2Proof.Machine.execSemExclusiveStore c addr data s
  | .semWaitTimeout c => Sys2Proof.Machine.execSemWaitTimeout c s
  | .semHoldTimeout c => Sys2Proof.Machine.execSemHoldTimeout c s
  | .semTake m sem => Sys2Proof.Machine.execSemTake m sem s
  | .semRelease m sem => Sys2Proof.Machine.execSemRelease m sem s
  | .ledgerRead m => Sys2Proof.Machine.execLedgerRead m s
  | .ringEnable m r w => Sys2Proof.Machine.execRingEnable m r w s
  | .ringTail m r w descs => Sys2Proof.Machine.execRingTail m r w descs s
  | .txFetch stalled => Sys2Proof.Machine.execTxFetch stalled s
  | .txFetchDone result => Sys2Proof.Machine.execTxFetchDone result s
  | .txCompletion r => Sys2Proof.Machine.execTxCompletion r s
  | .modTimer r => Sys2Proof.Machine.execModTimer r s
  | .peWakeRelease => Sys2Proof.Machine.execPeWakeRelease s
  | .spiWrite addr words => Sys2Proof.Machine.execSpiWrite addr words s
  | .spiRead addr n => Sys2Proof.Machine.execSpiRead addr n s
  | .hWrite off words => Sys2Proof.Machine.execHWrite off words s
  | .hRead off n => Sys2Proof.Machine.execHRead off n s
  | .spiStatus => Sys2Proof.Machine.execSpiStatus s
  | .spiUnknownOpcode op => Sys2Proof.Machine.execSpiUnknownOpcode op s
  | .spiAbort w whole => Sys2Proof.Machine.execSpiAbort w whole s
  | .doorbell m w => Sys2Proof.Machine.execDoorbell m w s
  | .claimN m => Sys2Proof.Machine.execClaimN m s
  | .claimF m => Sys2Proof.Machine.execClaimF m s
  | .completeN m w => Sys2Proof.Machine.execCompleteN m w s
  | .completeF m w => Sys2Proof.Machine.execCompleteF m w s
  | .srcCfgEn m n en => Sys2Proof.Machine.execSrcCfgEn m n en s
  | .fcAck m w => Sys2Proof.Machine.execFcAck m w s
  | .ovfAck m => Sys2Proof.Machine.execOvfAck m s
  | .faultEscalation => Sys2Proof.Machine.execFaultEscalation s
  | .snapCtlReq m => Sys2Proof.Machine.execSnapCtlReq m s
  | .dumpCapture => Sys2Proof.Machine.execDumpCapture s
  | .dumpWriteDone => Sys2Proof.Machine.execDumpWriteDone s
  | .crCtlNow m => Sys2Proof.Machine.execCrCtlNow m s
  | .imgErase m => Sys2Proof.Machine.execImgErase m s
  | .imgEraseDone => Sys2Proof.Machine.execImgEraseDone s
  | .imgWrite m => Sys2Proof.Machine.execImgWrite m s
  | .imgWriteDone => Sys2Proof.Machine.execImgWriteDone s
  | .imgVerify m => Sys2Proof.Machine.execImgVerify m s
  | .imgVerifyDone => Sys2Proof.Machine.execImgVerifyDone s
  | .castle m => Sys2Proof.Machine.execCastle m s
  | .castlingLoadDone digestsOk => Sys2Proof.Machine.execCastlingLoadDone digestsOk s
  | .spWindowStart => Sys2Proof.Machine.execSpWindowStart s
  | .spReady => Sys2Proof.Machine.execSpReady s
  | .spWindowExpiry => Sys2Proof.Machine.execSpWindowExpiry s
  | .castlingTimeout => Sys2Proof.Machine.execCastlingTimeout s
  | .imgAbort m => Sys2Proof.Machine.execImgAbort m s
  | .imgRecover m => Sys2Proof.Machine.execImgRecover m s
  | .recoveryErase slotB => Sys2Proof.Machine.execRecoveryErase slotB s
  | .recoveryWrite slotB off len => Sys2Proof.Machine.execRecoveryWrite slotB off len s
  | .recoveryVerify slotB => Sys2Proof.Machine.execRecoveryVerify slotB s
  | .recoveryBoot slotB => Sys2Proof.Machine.execRecoveryBoot slotB s
  | .powerOn => Sys2Proof.Machine.execPowerOn s
  | .railsGood straps => Sys2Proof.Machine.execRailsGood straps s
  | .memoryInitDone fail => Sys2Proof.Machine.execMemoryInitDone fail s
  | .imagePassDone keyCopies saves => Sys2Proof.Machine.execImagePassDone keyCopies saves s
  | .calibrationDone ports channels => Sys2Proof.Machine.execCalibrationDone ports channels s
  | .resetNAssert ns => Sys2Proof.Machine.execResetNAssert ns s
  | .resetNRelease straps => Sys2Proof.Machine.execResetNRelease straps s
  | .resetReq m w => Sys2Proof.Machine.execResetReq m w s
  | .thermalTrip => Sys2Proof.Machine.execThermalTrip s
  | .thermalTripClear => Sys2Proof.Machine.execThermalTripClear s
  | .registerRead m addr size => Sys2Proof.Machine.execRegisterRead m addr size s
  | .thermalWarning sensor temp => Sys2Proof.Machine.execThermalWarning sensor temp s
  | .wakePinRelease pin => Sys2Proof.Machine.execWakePinRelease pin s
  | .outboundReadCompletion c res => Sys2Proof.Machine.execOutboundReadCompletion c res s
  | .aspmL1Entry st => Sys2Proof.Machine.execAspmL1Entry st s
  | .msixVectorUnmask v => Sys2Proof.Machine.execMsixVectorUnmask v s
  | .recoveryCommandDone => Sys2Proof.Machine.execRecoveryCommandDone s
  | .syncInterval dom p asGm => Sys2Proof.Machine.execSyncInterval dom p asGm s
  | .decoderFrame ch err => Sys2Proof.Machine.execDecoderFrame ch err s

end Sys2Proof.Machine
end

