-- ==== Sys2Proof/Machine/Tick.lean ====
section
/-!
DEFINITION. One nanosecond of the local clock with no command waiting: the clock advances, the pipeline cycles that no
unit took are counted (R375), the cores' counters run (R383), and a write leaves the posted buffer (R329).
-/
namespace Sys2Proof.Machine

/-- Is a unit ready for a slot at any source? -/
def anyReady (s : State) : Bool :=
  ((List.finRange 50).any fun p => sourceReady s (.port p)) || ((List.finRange 256).any fun n => sourceReady s (.channel n)) ||
  ((List.finRange 64).any fun b => sourceReady s (.packed b)) || sourceReady s .recirc

/-- Pipeline cycles that end in the nanosecond after `t`, at 750 MHz (chapter 1): three in four of them.
[DESIGN CHOICE, log 60] -/
def cyclesAfter (t : Nat) : Nat := (t + 1) * 3 / 4 - t * 3 / 4

/-- A pipeline cycle: one that a unit has taken is counted already; of the others, one for which a unit was ready is
back-starved and any other front-starved. [DESIGN CHOICE, log 60] -/
def slotCycle (s : State) : State :=
  if 0 < s.net.slotUsed then { s with net.slotUsed := s.net.slotUsed - 1 }
  else if anyReady s then countSlot s Reg.slotBack
  else countSlot s Reg.slotFront

/-- One nanosecond of the local clock. [DESIGN CHOICE, log 1; DESIGN CHOICE, log 40] -/
def tick (s : State) : State :=
  let s1 := forIdx 5 coreTick s
  let s2 := if aloft s ∧ 0 < cyclesAfter s.time.now then slotCycle s1 else s1
  { sendPosted s2 with time.now := s.time.now + 1 }

end Sys2Proof.Machine
end

