-- ==== Sys2Proof/Machine/Step.lean ====
section
/-!
DEFINITION. The step: the command at the front of the queue has its effect with the queue's rest; with no command
waiting one nanosecond passes.
-/
namespace Sys2Proof.Machine

/-- One step of the block. [DESIGN CHOICE, log 1; DESIGN CHOICE, log 123; DESIGN CHOICE, log 142] -/
def step (s : State) : Host.Outcome State Fault Refusal :=
  match s.pending with
  | [] => .next (tick s)
  | c :: rest => exec c { s with pending := rest }

/-- The state with the command that a word spells in front of its queue; no row of the table of operations has bits,
so no word spells one. [DESIGN CHOICE, log 3] -/
def State.withFetchWord (s : State) (nbits w : Nat) : State :=
  match Sys2Proof.decodeTableWord nbits w with
  | some c => { s with pending := c :: s.pending }
  | none => s

end Sys2Proof.Machine
end

