-- ==== Sys2Proof/WellFormed.lean ====
section
/-!
DEFINITION. The operands that a command can bring with it from outside: lengths, ranges and widths of what arrives at
a pin, on a bus or in a register access. Operands that a type already bounds need no check.
-/
namespace Sys2Proof

/-- Is a frame one that a MAC delivers: an Ethernet header at least, and at most 10,240 bytes with its FCS and beyond
(R82 drops longer ones), below the reach of a MAC? -/
def WireFrame.wf (f : WireFrame) : Bool := 14 ≤ f.bytes.length && f.bytes.length < 16384

/-- Identifier range of a bus message (R208): 11 or 29 bits, a CAN XL priority of 11, a LIN frame ID of 6. -/
def BusMsg.idOk (m : BusMsg) : Bool :=
  match m.format with
  | .lin => m.id < 64
  | .xl => m.id < 2 ^ 11
  | _ => if m.ext then m.id < 2 ^ 29 else m.id < 2 ^ 11

/-- Payload lengths of the formats: CAN CC and LIN up to 8 bytes, CAN FD the lengths of its DLC, CAN XL 1 to 2,048. -/
def BusMsg.lenOk (m : BusMsg) : Bool :=
  match m.format with
  | .cc => m.payload.length ≤ 8
  | .fd => [0, 1, 2, 3, 4, 5, 6, 7, 8, 12, 16, 20, 24, 32, 48, 64].contains m.payload.length
  | .xl => 1 ≤ m.payload.length && m.payload.length ≤ 2048
  | .lin => 1 ≤ m.payload.length && m.payload.length ≤ 8

/-- Flags that belong to another format: remote frames are CAN CC, bit-rate switch and error state CAN FD, the SDT,
VCID, AF and SEC fields CAN XL. -/
def BusMsg.flagsOk (m : BusMsg) : Bool :=
  (!m.rtr || (m.format == .cc && m.payload.isEmpty)) && (m.format == .fd || (!m.brs && !m.esi)) &&
  (m.format == .xl || (m.sdt == 0 && m.vcid == 0 && m.af == 0 && !m.sec)) &&
  m.sdt < 256 && m.vcid < 256 && m.af < 2 ^ 32 && (!m.ext || m.format == .cc || m.format == .fd)

/-- A message a bus can carry. -/
def BusMsg.wf (m : BusMsg) : Bool := m.idOk && m.lenOk && m.flagsOk

/-- A scoresheet entry holds at most 64 bytes of body and a 16-bit type (R266). -/
def JobKind.wf : JobKind → Bool
  | .sbAppend type body => type < 2 ^ 16 && body.length ≤ 64
  | .sbSeal type body => type < 2 ^ 16 && body.length ≤ 64
  | _ => true

/-- A control-space offset (R445). -/
def offsetOk (a : Nat) : Bool := a < 2 ^ 24

/-- A control-space word offset. -/
def wordOffsetOk (a : Nat) : Bool := a < 2 ^ 24 && a % 4 == 0

/-- A host address range of an outbound access, which moves 1 to 4,096 bytes and does not leave the address space. -/
def hostRangeOk (addr len : Nat) : Bool := 1 ≤ len && len ≤ 4096 && addr + len ≤ 2 ^ 64

/-- Words of an SPI transaction (R345). -/
def spiCountOk (n : Nat) : Bool := 1 ≤ n && n ≤ 64

/-- Bank offsets reach the end of BAR2 for the host, and of the largest bank for the others; an access moves 1 to 64
bytes (R316, R322). -/
def bankRangeOk (off : Nat) : BankOp → Bool
  | .read n => 1 ≤ n && n ≤ 64 && off + n ≤ 0xC00000
  | .write d => 1 ≤ d.length && d.length ≤ 64 && off + d.length ≤ 0xC00000
  | .cas n => (n == 4 || n == 8) && off + n ≤ 0xC00000
  | .lockedRead n => 1 ≤ n && n ≤ 64 && off + n ≤ 0xC00000

/-- The word an uncorrectable error is met in is one of those an access of `n` bytes from `off` touches (R314). -/
def bankEccOk (off n : Nat) : BankEcc → Bool
  | .uncorrectable w => off / 8 + w ≤ (off + n - 1) / 8
  | _ => true

/-- The masters that wait are others than the one granted, each named once (R317). -/
def waitersOk (m : BusMaster) (waiting : List BusMaster) : Bool := decide waiting.Nodup && !waiting.contains m

/-- The masters that ask beside the one granted are others, each named once (R448). -/
def Asking.wf (a : Asking) : Bool := decide a.waiting.Nodup && !a.waiting.contains a.m

/-- A word a scrub meets lies on its 8-byte boundary (R314). -/
def ScrubError.wf (e : ScrubError) : Bool := e.off % 8 == 0 && e.off < 0xC00000

/-- A word of retention. -/
def RetError.wf (e : RetError) : Bool := e.off % 8 == 0 && e.off < 0xC00000

/-- Is a command's operand such as can come? [DESIGN CHOICE, log 125] -/
def Instr.wf : Instr → Bool
  | .jobRequest _ kind _ => kind.wf
  | .acceptSync _ gm _ _ => gm < 2 ^ 64
  | .frameArrival _ f => f.wf
  | .serdesLinkUp _ speed => speed < 8
  | .canFrameReceive _ msg => msg.wf && msg.format != .lin
  | .linResponse _ data _ => 1 ≤ data.length && data.length ≤ 8
  | .selectiveWake _ (.wuf msg) => msg.wf && msg.format != .lin
  | .mooredScrub errs => errs.all RetError.wf
  | .vbatLevelChange cv => cv ≤ 10000
  | .coreMismatch (.delay stage) => stage < 2 ^ 32
  | .bankAccess m _ off op ecc waiting => bankRangeOk off op && waitersOk m waiting && (match op with
      | .read n => bankEccOk off n ecc
      | .write d => bankEccOk off d.length ecc
      | .cas n => bankEccOk off n ecc
      | .lockedRead n => bankEccOk off n ecc)
  | .atomicAdd m _ off wide v => off < 0xC00000 && (wide || v.arg.toNat < 2 ^ 32) &&
      bankEccOk off (if wide then 8 else 4) v.ecc && waitersOk m v.waiting
  | .atomicSwap m _ off wide v => off < 0xC00000 && (wide || v.arg.toNat < 2 ^ 32) &&
      bankEccOk off (if wide then 8 else 4) v.ecc && waitersOk m v.waiting
  | .patrolScrub bank errs => errs.all fun e => e.wf && e.bank == bank
  | .dbgRead addr => addr < 2 ^ 32
  | .dbgWrite addr _ => addr < 2 ^ 32
  | .registerWrite m addr size _ => m.wf && offsetOk addr && 1 ≤ size && size ≤ 8
  | .registerRead m addr size => m.wf && offsetOk addr && 1 ≤ size && size ≤ 8
  | .cmtWrite _ addr _ => wordOffsetOk addr
  | .cmtPeek _ addr => wordOffsetOk addr
  | .gcOutboundWrite _ addr data _ => hostRangeOk addr data.length
  | .gcOutboundRead _ addr len _ => hostRangeOk addr len
  | .semExclusiveLoad _ addr len => (len.arg == 4 || len.arg == 8) && addr % len.arg == 0 && hostRangeOk addr len.arg
  | .semExclusiveStore _ addr data => (data.arg.length == 4 || data.arg.length == 8) &&
      addr % data.arg.length == 0 && hostRangeOk addr data.arg.length
  | .ringTail _ _ _ descs => descs.all fun d => d.length == 32
  | .txFetchDone (.frame bytes) => 14 ≤ bytes.length && bytes.length < 16384
  | .outboundReadCompletion _ (.data bytes) => 1 ≤ bytes.length && bytes.length ≤ 4096
  | .spiWrite addr words => offsetOk addr && spiCountOk words.length
  | .spiRead addr n => offsetOk addr && spiCountOk n
  | .hWrite off words => offsetOk off && spiCountOk words.arg.length &&
      bankEccOk off (4 * words.arg.length) words.ecc && waitersOk .hb words.waiting
  | .hRead off n => offsetOk off && spiCountOk n.arg && bankEccOk off (4 * n.arg) n.ecc && waitersOk .hb n.waiting
  | .spiUnknownOpcode op => !([0x02, 0x0B, 0x12, 0x1B, 0x05].contains op.toNat)
  | .spiAbort w whole => (match w with
      | some o => offsetOk o.addr && spiCountOk o.words.length && whole ≤ o.words.length
      | none => whole == 0)
  | .recoveryWrite _ off len => off < 2 ^ 32 && len < 2 ^ 32
  | .thermalWarning _ temp => -1024 ≤ temp && temp < 1024
  | .tempoBoundary => true
  | .jobStart _ => true
  | .jobComplete _ => true
  | .grandmasterLoss _ => true
  | .ppsInEdge _ => true
  | .ppsInMissing => true
  | .ppsOutRise => true
  | .ppsOutFall => true
  | .timeSnap _ => true
  | .gtSet _ => true
  | .gtSetLoad => true
  | .cellWrite _ => true
  | .macsecIcvCheck _ => true
  | .unitDecision _ _ => true
  | .frameTail _ _ _ => true
  | .frameSelect _ _ _ => true
  | .frameTransmitEnd _ _ => true
  | .linkEstablished _ _ => true
  | .retainedTrainTimeout _ => true
  | .fullTrainTimeout _ => true
  | .partnerSignatureChange _ _ => true
  | .linkLoss _ => true
  | .serdesLinkDown _ => true
  | .plcaStatusChange _ _ => true
  | .beaconTimeout _ => true
  | .verifyResponse _ => true
  | .verifyTimeout _ => true
  | .portEventsClear _ _ _ => true
  | .fdbFlush _ _ => true
  | .fdbFlushDone => true
  | .fdbAgeing _ => true
  | .fdbAccRead _ _ => true
  | .clsAccRead _ _ => true
  | .probe _ _ => true
  | .probeLookup _ => true
  | .fragExpiry _ => true
  | .shadowSelftest _ _ => true
  | .shadowStatusClear _ => true
  | .convExpiry _ => true
  | .convAccRead _ _ => true
  | .convFlush _ _ => true
  | .convFlushDone => true
  | .contAct _ _ => true
  | .contRelRelease _ _ => true
  | .contRelDeny _ _ => true
  | .contRelReq _ _ => true
  | .ripcordNAssert _ => true
  | .ripcordNDeassert => true
  | .ripcordHoldExpiry => true
  | .streamFilterUnblock _ _ => true
  | .flowGateReopen _ _ => true
  | .flowGateEntry _ => true
  | .timingWheelFire _ => true
  | .gateEntryChange _ => true
  | .macHoldIssue _ => true
  | .gateSwitch _ => true
  | .secocVerifyDone _ => true
  | .secocGenerateDone => true
  | .canBusIntegrated _ => true
  | .canArbitration _ => true
  | .canArbitrationLost _ => true
  | .canBusError _ _ => true
  | .canTxComplete _ => true
  | .recover _ _ => true
  | .canRecoveryComplete _ => true
  | .linSlotStart _ => true
  | .linNoResp _ => true
  | .linReadbackMismatch _ => true
  | .txTimeout _ => true
  | .chEventsClear _ _ _ => true
  | .acfTunnelEndpoint => true
  | .packerOpen _ => true
  | .packWaitExpiry _ => true
  | .bridgeLost _ => true
  | .fvSave _ => true
  | .secEventsClear _ _ => true
  | .edgeAccRead _ _ => true
  | .revoke _ _ => true
  | .importKey _ _ => true
  | .remask => true
  | .entropyFailure => true
  | .mcjGo _ _ => true
  | .mcjSuspend _ => true
  | .mcjDone _ => true
  | .attGo _ _ => true
  | .attestationDone => true
  | .lcReq _ _ => true
  | .vkRevoke _ _ => true
  | .tamper _ _ => true
  | .tamperClr _ _ => true
  | .sbRetire _ _ => true
  | .sbRead _ _ => true
  | .sbReadDone => true
  | .descentReq _ _ => true
  | .hostHold _ _ => true
  | .networkIdle _ => true
  | .maxAwake _ => true
  | .netClr _ _ => true
  | .descentDrain => true
  | .descentLinks => true
  | .tc10SleepAck _ => true
  | .descentSave => true
  | .saveTimeout => true
  | .cutoff => true
  | .descentAbort => true
  | .cutoffComplete => true
  | .selectiveWake _ _ => true
  | .linWake _ => true
  | .wakePin _ => true
  | .tc10Wake _ => true
  | .parkTimer => true
  | .excursion => true
  | .wakeLatch => true
  | .switchDieRelease => true
  | .wakeCheck => true
  | .forwardingReady => true
  | .vbatLoss => true
  | .lockstepInjection _ => true
  | .coreMismatch _ => true
  | .spWatchdog => true
  | .gcWatchdog _ => true
  | .coreCtlRelease _ _ => true
  | .dbgPoll => true
  | .dbgHalt _ => true
  | .dbgResume _ => true
  | .dbgStep _ => true
  | .tapReset => true
  | .extest => true
  | .idcode => true
  | .samplePreload => true
  | .bypass => true
  | .hostInterfaceReset _ => true
  | .perstNRise => true
  | .p48StateChange _ => true
  | .d3hotEntry _ => true
  | .d0Return => true
  | .msixEnable => true
  | .stageClaim _ => true
  | .stageRelease _ => true
  | .stageDiscard _ => true
  | .stagePush _ _ => true
  | .commitReq _ => true
  | .commitArm => true
  | .commitCancel _ => true
  | .epochLatch _ => true
  | .epochLatchRelease _ => true
  | .slotFree _ => true
  | .drainLimit _ => true
  | .stalemateRetry _ _ => true
  | .semWaitTimeout _ => true
  | .semHoldTimeout _ => true
  | .semTake _ _ => true
  | .semRelease _ _ => true
  | .ledgerRead _ => true
  | .ringEnable _ _ _ => true
  | .txFetch _ => true
  | .txFetchDone _ => true
  | .txCompletion _ => true
  | .modTimer _ => true
  | .peWakeRelease => true
  | .spiStatus => true
  | .doorbell _ _ => true
  | .claimN _ => true
  | .claimF _ => true
  | .completeN _ _ => true
  | .completeF _ _ => true
  | .srcCfgEn _ _ _ => true
  | .fcAck _ _ => true
  | .ovfAck _ => true
  | .faultEscalation => true
  | .snapCtlReq _ => true
  | .dumpCapture => true
  | .dumpWriteDone => true
  | .crCtlNow _ => true
  | .imgErase _ => true
  | .imgEraseDone => true
  | .imgWrite _ => true
  | .imgWriteDone => true
  | .imgVerify _ => true
  | .imgVerifyDone => true
  | .castle _ => true
  | .castlingLoadDone _ => true
  | .spWindowStart => true
  | .spReady => true
  | .spWindowExpiry => true
  | .castlingTimeout => true
  | .imgAbort _ => true
  | .imgRecover _ => true
  | .recoveryErase _ => true
  | .recoveryVerify _ => true
  | .recoveryBoot _ => true
  | .powerOn => true
  | .railsGood _ => true
  | .memoryInitDone _ => true
  | .imagePassDone .. => true
  | .calibrationDone _ _ => true
  | .resetNAssert _ => true
  | .resetNRelease _ => true
  | .resetReq _ _ => true
  | .thermalTrip => true
  | .thermalTripClear => true
  | .wakePinRelease _ => true
  | .outboundReadCompletion _ _ => true
  | .aspmL1Entry _ => true
  | .msixVectorUnmask _ => true
  | .recoveryCommandDone => true
  | .syncInterval _ _ _ => true
  | .decoderFrame _ _ => true

end Sys2Proof
end

