-- ==== Sys2Proof/Safety.lean ====
section
/-!
DEFINITION. What counts as a safe run and as a sound state, in the terms the claims use.
-/
namespace Sys2Proof.Machine

/-- A state from which no number of steps meets a fault or a refusal. -/
def NeverStops (s : State) : Prop := ∀ n, ∃ t : State, Sys2Proof.core.run n s = .next t

/-- The memories of the block are in their canonical form: keys strictly rising and no byte equal to its memory's
filler, zero in the banks and 0xFF in flash. [DESIGN CHOICE, log 9] -/
def MemSt.canonical (m : MemSt) : Bool :=
  Mem.wf m.bankS 0 && Mem.wf m.bankG 0 && Mem.wf m.bankH 0 && Mem.wf m.bankT 0 && Mem.wf m.flashA 0xFF &&
  Mem.wf m.flashB 0xFF

/-- The register store is in its canonical form. -/
def regsCanonical (s : State) : Bool := SMap.wf s.regs

/-- A life-cycle transition that R263 lists, or none. -/
def lcAllowed (a b : Nat) : Bool :=
  a == b || (a == 0 && b == 1) || (a == 1 && b == 2) || (a == 2 && b == 3) || (1 ≤ a && a ≤ 3 && b == 4)

/-- Every pipeline cycle is in exactly one class (R377), modulo the width of the registers. -/
def slotsAddUp (s : State) : Prop :=
  (get s Reg.slotRetired + get s Reg.slotWasted + get s Reg.slotFront + get s Reg.slotBack) % 2 ^ 64 =
    get s Reg.slotTotal % 2 ^ 64

/-! The terms the statements are made in. -/

/-- A control-space write by a master to the register at an offset passes every check of R447 and is answered. -/
def accepts (s : State) (m : Master) (a : Nat) : Bool := masterHeard s m && aloft s && (writeRefusal s m a 4).isNone

/-- A control-space read by a master of the register at an offset passes every check of R447 and is answered. -/
def yields (s : State) (m : Master) (a : Nat) : Bool :=
  masterHeard s m && readsAnswered s m a && (readRefusal s m a 4).isNone

/-- The fields that stand alone in their register and hold what a master last wrote there, with nothing else set off by
the write: its own bank's where the register has one for each master. -/
def plainFields (m : Master) : List Fld :=
  [Reg.gtSetSecLo, Reg.gtSetSecHi, Reg.cmtPeekAddr, Reg.slotSel, Reg.imgDst (regBank m 0x1004),
    Reg.imgSrc (regBank m 0x1008), Reg.imgLen (regBank m 0x100C), Reg.mcjSrc (regBank m 0xC0184),
    Reg.mcjLen (regBank m 0xC0188)] ++
  ((List.range 48).map Reg.clsAccData ++ (List.range 4).map Reg.lcAuth ++ (List.range 4).map Reg.attNonce) ++
  ((List.range 8).map Reg.importShare0 ++ (List.range 8).map Reg.importShare1 ++ (List.range 4).map Reg.importTag) ++
  ((List.range 8).map (Reg.mcjTag (regBank m 0xC01A0)) ++ (List.range 4).map Reg.sbRetireHash)

/-- Offsets whose read does more than answer the fields of the register: the two claims, the ledger, CMT_PEEK_DATA and
the core registers behind the debug port. -/
def readActs (m : Master) (a : Nat) : Bool :=
  a == 0x80010 || a == 0x80018 || a == 0x10002C || a == Reg.cmtPeekData.addr || (m == .dbg && inR a 0xF00000 0xF0FFFF)

/-- What CMT_PEEK shows of a CMT field: the value staged for it, or the one in force (R69). -/
def peekedField (s : State) (f : Fld) : Nat := (s.env.staged.find f.key).getD (cmtShown s f % 2 ^ f.width)

/-- A bus master but the debug port issues accesses to the banks now (R306, R307, R316, R407). -/
def issues (s : State) (m : BusMaster) : Bool :=
  aloft s && (match m with
    | .sp => masterRuns s .sp
    | .gc c => masterRuns s (.gc c)
    | .hb => endpointOn s
    | .dbg => false
    | _ => true)

/-- Every register field but those listed reads the same in both states. -/
def regsSame (s t : State) (l : List Fld) : Prop :=
  ∀ g : Fld, (l.all fun f => g.key != f.key) = true → get t g = get s g

/-- What a raised source may change: its own state, and where its event vector goes to the host, the link's ASPM
state, the count of L1 exits and PE_WAKE_N (R341, R343). -/
def raiseFields (n : Nat) : List Fld :=
  [Reg.srcCfgState n, Reg.hbStatusAspm, Reg.brRetriesL1Exits, Reg.hbStatusPeWake]

/-- Firmware was asked for so many jobs of its own: each is queued behind the others, or is rejected as larger than its
core's budget, and then the event of an entry that cannot be appended is counted as lost (R47, R48, R266). -/
def asked (s t : State) (n : Nat) : Prop :=
  t.jobs.order + t.sheet.lost = s.jobs.order + s.sheet.lost + n ∧
  t.jobs = { s.jobs with queue := t.jobs.queue, order := t.jobs.order } ∧ s.jobs.queue <+: t.jobs.queue ∧
  t.jobs.queue.length + s.jobs.order = s.jobs.queue.length + t.jobs.order ∧
  t.sheet = { s.sheet with lost := t.sheet.lost }

/-! What each command may change. -/

/-- The parts a state falls into. -/
inductive Part
  /-- The register store. -/
  | registers
  /-- What saturating counters hold beyond their fields. -/
  | accum
  /-- The clocks, PPS and sync times. -/
  | time
  /-- The background job queue. -/
  | jobs
  /-- The entries and CMT values of the epoch slots. -/
  | policy
  /-- Staging, latches and commits. -/
  | epochs
  /-- The fault records. -/
  | faults
  /-- Claims and levels of the interrupt controller. -/
  | intc
  /-- The host interface: vectors, rings, ledger, semaphore waits. -/
  | host
  /-- Cores, bus grants, debug port and TAP. -/
  | cpu
  /-- The memories S, G, H and T. -/
  | banks
  /-- The firmware slots. -/
  | flash
  /-- Containment. -/
  | cont
  /-- The boot phase and straps. -/
  | boot
  /-- Image operations and castling. -/
  | img
  /-- Key slots and bulk MAC jobs. -/
  | vault
  /-- Life cycle and envelope keys. -/
  | fuses
  /-- The scoresheet anchors in OTP. -/
  | anchors
  /-- The reader and counters of the scoresheet. -/
  | sheet
  /-- The entries the scoresheet holds. -/
  | sheetLog
  /-- Frames, queues, buffers and MACs. -/
  | frames
  /-- Learned entries, conversations and fragments. -/
  | tables
  /-- Link training and verification. -/
  | links
  /-- Gates, meters and shapers. -/
  | tm
  /-- Edge channels, packers and freshness values. -/
  | edge
  /-- Wake events, networks and descent. -/
  | wake
  /-- Snapshots and dumps. -/
  | cnt
  /-- Answers, captures and what is sent. -/
  | io
  /-- The counter of free values. -/
  | draws
deriving DecidableEq, Repr

/-- The epoch state without the policy of the slots. -/
def epochsOf (e : EnvSt) : EnvSt := { e with policy := [], cmt := [] }

/-- The fuses without the scoresheet's anchors. -/
def fusesOf (o : OtpSt) : OtpSt := { o with anchors := [] }

/-- The memories without flash. -/
def banksOf (m : MemSt) : MemSt := { m with flashA := [], flashB := [] }

/-- The scoresheet without its entries. -/
def sheetOf (t : SheetSt) : SheetSt := { t with entries := [] }

/-- The forwarding plane without its tables and its links. -/
def framesOf (n : NetSt) : NetSt :=
  { n with
    learned := [], static := [], convs := [], frags := [], convFlushing := false, probing := none, selftestTempo := none,
    partnerSig := [], trainedAs := [], linkSince := [], verifySent := [], verifyAt := [] }

/-- The learned and static entries, conversations, fragments, the probe in hand and the self-test's tempo. -/
def tablesOf (n : NetSt) : NetSt :=
  { State.reset.net with
    learned := n.learned, static := n.static, convs := n.convs, frags := n.frags, convFlushing := n.convFlushing,
    probing := n.probing, selftestTempo := n.selftestTempo }

/-- What the ports know of their links. -/
def linksOf (n : NetSt) : NetSt :=
  { State.reset.net with
    partnerSig := n.partnerSig, trainedAs := n.trainedAs, linkSince := n.linkSince, verifySent := n.verifySent,
    verifyAt := n.verifyAt }

/-- Between two states nothing has changed but the listed parts. -/
def changesOnly (l : List Part) (s t : State) : Prop :=
  t.pending = s.pending ∧
  (Part.registers ∈ l ∨ t.regs = s.regs) ∧
  (Part.accum ∈ l ∨ t.accum = s.accum) ∧
  (Part.time ∈ l ∨ t.time = s.time) ∧
  (Part.jobs ∈ l ∨ t.jobs = s.jobs) ∧
  (Part.policy ∈ l ∨ t.env.policy = s.env.policy ∧ t.env.cmt = s.env.cmt) ∧
  (Part.epochs ∈ l ∨ epochsOf t.env = epochsOf s.env) ∧
  (Part.faults ∈ l ∨ t.fault = s.fault) ∧
  (Part.intc ∈ l ∨ t.intc = s.intc) ∧
  (Part.host ∈ l ∨ t.host = s.host) ∧
  (Part.cpu ∈ l ∨ t.cpu = s.cpu) ∧
  (Part.banks ∈ l ∨ banksOf t.mem = banksOf s.mem) ∧
  (Part.flash ∈ l ∨ t.mem.flashA = s.mem.flashA ∧ t.mem.flashB = s.mem.flashB) ∧
  (Part.cont ∈ l ∨ t.cont = s.cont) ∧
  (Part.boot ∈ l ∨ t.boot = s.boot) ∧
  (Part.img ∈ l ∨ t.img = s.img) ∧
  (Part.vault ∈ l ∨ t.vault = s.vault) ∧
  (Part.fuses ∈ l ∨ fusesOf t.otp = fusesOf s.otp) ∧
  (Part.anchors ∈ l ∨ t.otp.anchors = s.otp.anchors) ∧
  (Part.sheet ∈ l ∨ sheetOf t.sheet = sheetOf s.sheet) ∧
  (Part.sheetLog ∈ l ∨ t.sheet.entries = s.sheet.entries) ∧
  (Part.frames ∈ l ∨ framesOf t.net = framesOf s.net) ∧
  (Part.tables ∈ l ∨ tablesOf t.net = tablesOf s.net) ∧
  (Part.links ∈ l ∨ linksOf t.net = linksOf s.net) ∧
  (Part.tm ∈ l ∨ t.tm = s.tm) ∧
  (Part.edge ∈ l ∨ t.edge = s.edge) ∧
  (Part.wake ∈ l ∨ t.wake = s.wake) ∧
  (Part.cnt ∈ l ∨ t.cnt = s.cnt) ∧
  (Part.io ∈ l ∨ t.io = s.io) ∧
  (Part.draws ∈ l ∨ t.freeCtr = s.freeCtr)

/-- Every part. -/
def Part.all : List Part :=
  [.registers, .accum, .time, .jobs, .policy, .epochs, .faults, .intc, .host, .cpu, .banks, .flash,
   .cont, .boot, .img, .vault, .fuses, .anchors, .sheet, .sheetLog, .frames, .tables, .links, .tm,
   .edge, .wake, .cnt, .io, .draws]

/-- Every part but the listed ones. -/
def allBut (l : List Part) : List Part := Part.all.filter fun p => !l.contains p

/-- What an access to the control space may change whatever it accesses: the answer, the conflict and violation
counters, and what a guard violation sets off, a fault record with its containment, journal entry and event vector. -/
def accessParts : List Part := [.registers, .accum, .jobs, .faults, .host, .cpu, .cont, .wake, .io]

/-- What a source raised may change: its state, and a vector on its way to the host. -/
def raiseParts : List Part := [.registers, .accum, .host, .io]

/-- The parts a command may change. -/
def partsOf : Instr → List Part
  | .tempoBoundary => allBut []
  | .jobRequest .. => [.jobs, .cpu, .io]
  | .jobStart .. => [.registers, .accum, .jobs, .io]
  | .jobComplete .. => allBut [.time, .policy, .flash, .boot, .fuses, .frames, .tables, .links, .tm, .cnt]
  | .acceptSync .. => raiseParts ++ [.time, .jobs, .intc, .sheet, .frames, .tm]
  | .grandmasterLoss .. => raiseParts ++ [.intc]
  | .ppsInEdge .. => raiseParts ++ [.time, .jobs, .intc, .sheet, .frames, .tm]
  | .ppsInMissing => raiseParts ++ [.time, .intc]
  | .ppsOutRise
  | .ppsOutFall => [.time]
  | .timeSnap .. => accessParts ++ [.intc, .sheet]
  | .gtSet .. => accessParts ++ [.time, .intc, .sheet]
  | .gtSetLoad => raiseParts ++ [.time, .jobs, .intc, .sheet, .frames, .tm]
  | .frameArrival .. => [.registers, .accum, .frames, .wake, .io, .draws]
  | .cellWrite .. => [.registers, .accum, .host, .frames, .edge]
  | .macsecIcvCheck .. => [.registers, .accum, .frames, .wake, .draws]
  | .unitDecision .. => allBut [.time, .policy, .epochs, .flash, .boot, .img, .fuses, .anchors, .sheetLog, .links, .cnt]
  | .frameTail .. => raiseParts ++ [.intc, .frames, .tm, .edge, .wake, .draws]
  | .frameSelect .. => raiseParts ++ [.jobs, .faults, .intc, .cont, .sheet, .frames, .tm, .edge, .wake, .draws]
  | .frameTransmitEnd .. => raiseParts ++ [.time, .frames, .tm]
  | .linkEstablished .. => raiseParts ++ [.intc, .links]
  | .retainedTrainTimeout .. => [.registers, .links]
  | .fullTrainTimeout .. => raiseParts ++ [.intc, .links]
  | .partnerSignatureChange .. => [.registers, .links]
  | .linkLoss .. => raiseParts ++ [.intc, .frames, .links, .edge]
  | .serdesLinkUp .. => raiseParts ++ [.intc, .links]
  | .serdesLinkDown .. => raiseParts ++ [.intc, .frames, .links, .edge]
  | .plcaStatusChange ..
  | .beaconTimeout .. => raiseParts ++ [.intc]
  | .verifyResponse .. => [.registers]
  | .verifyTimeout .. => raiseParts ++ [.intc, .links]
  | .portEventsClear .. => accessParts ++ [.intc, .sheet]
  | .fdbFlush .. => accessParts ++ [.intc, .sheet, .tables]
  | .fdbFlushDone => [.registers]
  | .fdbAgeing .. => [.registers, .tables]
  | .fdbAccRead .. => accessParts ++ [.intc, .sheet]
  | .clsAccRead ..
  | .probe .. => accessParts ++ [.intc, .sheet, .tables]
  | .probeLookup .. => [.registers, .frames, .tables]
  | .fragExpiry .. => [.registers, .accum, .tables]
  | .shadowSelftest .. => raiseParts ++ [.jobs, .faults, .intc, .cont, .sheet, .frames, .tables, .wake]
  | .shadowStatusClear .. => accessParts ++ [.intc, .sheet]
  | .convExpiry .. => [.registers, .accum, .tables]
  | .convAccRead ..
  | .convFlush .. => accessParts ++ [.intc, .sheet, .tables]
  | .convFlushDone => [.registers, .tables]
  | .contAct ..
  | .contRelRelease ..
  | .contRelDeny ..
  | .contRelReq .. => accessParts ++ [.intc, .sheet]
  | .ripcordNAssert .. => [.registers, .accum, .jobs, .cont, .sheet, .draws]
  | .ripcordNDeassert => [.registers, .cont]
  | .ripcordHoldExpiry => [.registers]
  | .streamFilterUnblock .. => accessParts ++ [.intc, .sheet]
  | .flowGateReopen .. => accessParts ++ [.intc, .sheet, .tm]
  | .flowGateEntry .. => [.registers, .tm]
  | .timingWheelFire .. => [.frames, .tm]
  | .gateEntryChange ..
  | .macHoldIssue ..
  | .gateSwitch .. => [.registers, .accum, .frames, .tm, .io]
  | .canFrameReceive .. => raiseParts ++ [.intc, .frames, .edge, .wake, .draws]
  | .secocVerifyDone .. => [.registers, .accum, .frames, .edge]
  | .secocGenerateDone => [.registers, .accum, .host, .frames, .tm, .edge, .draws]
  | .canBusIntegrated .. => [.edge]
  | .canArbitration .. => raiseParts ++ [.intc, .frames, .edge]
  | .canArbitrationLost .. => [.registers, .edge]
  | .canBusError .. => raiseParts ++ [.intc, .edge]
  | .canTxComplete .. => raiseParts ++ [.intc, .frames, .edge]
  | .recover .. => accessParts ++ [.intc, .sheet]
  | .canRecoveryComplete .. => [.registers]
  | .linSlotStart .. => raiseParts ++ [.intc, .frames, .edge]
  | .linResponse .. => [.registers, .accum, .frames, .edge, .wake, .draws]
  | .linNoResp .. => raiseParts ++ [.intc, .edge]
  | .linReadbackMismatch .. => [.registers, .accum, .frames, .edge]
  | .txTimeout .. => raiseParts ++ [.intc, .frames, .edge]
  | .chEventsClear .. => accessParts ++ [.intc, .sheet]
  | .acfTunnelEndpoint => [.registers, .accum, .host, .frames, .edge, .wake, .draws]
  | .packerOpen ..
  | .packWaitExpiry .. => [.registers, .accum, .frames, .edge]
  | .bridgeLost .. => raiseParts ++ [.intc]
  | .fvSave .. => raiseParts ++ [.jobs, .faults, .intc, .cont, .vault, .sheet, .edge, .wake]
  | .secEventsClear ..
  | .edgeAccRead .. => accessParts ++ [.intc, .sheet]
  | .revoke .. => accessParts ++ [.intc, .vault, .sheet]
  | .importKey .. => accessParts ++ [.intc, .vault, .sheet, .draws]
  | .remask => [.registers, .accum, .vault, .draws]
  | .entropyFailure => raiseParts ++ [.jobs, .faults, .intc, .cont, .vault, .sheet, .wake]
  | .mcjGo .. => accessParts ++ [.intc, .vault, .sheet]
  | .mcjSuspend ..
  | .mcjDone .. => accessParts ++ [.intc, .vault, .sheet, .draws]
  | .attGo .. => accessParts ++ [.intc, .sheet]
  | .attestationDone => raiseParts ++ [.intc]
  | .lcReq .. => allBut [.flash]
  | .vkRevoke .. => [.registers, .accum, .jobs, .fuses, .sheet]
  | .tamper .. => accessParts ++ [.intc, .banks, .vault, .sheet, .draws]
  | .tamperClr .. => accessParts ++ [.intc, .vault, .sheet, .draws]
  | .sbRetire .. => accessParts ++ [.intc, .sheet, .sheetLog]
  | .sbRead .. => accessParts ++ [.intc, .sheet]
  | .sbReadDone => [.registers, .sheet]
  | .descentReq ..
  | .hostHold .. => accessParts ++ [.intc, .sheet]
  | .networkIdle .. => [.wake]
  | .maxAwake .. => [.registers, .accum, .jobs, .sheet, .wake]
  | .netClr .. => accessParts ++ [.intc, .sheet]
  | .descentDrain => [.registers, .wake]
  | .descentLinks => raiseParts ++ [.frames, .edge, .wake]
  | .tc10SleepAck .. => raiseParts ++ [.intc, .frames, .links, .edge, .wake]
  | .descentSave => [.registers, .accum, .jobs, .host, .sheet, .frames, .edge, .wake]
  | .saveTimeout => [.wake]
  | .cutoff => allBut [.faults, .flash, .cont, .fuses, .anchors, .sheet, .sheetLog, .draws]
  | .descentAbort => raiseParts ++ [.jobs, .intc, .frames, .links, .edge, .wake, .draws]
  | .cutoffComplete => allBut [.flash, .fuses, .anchors, .sheetLog, .draws]
  | .selectiveWake ..
  | .linWake ..
  | .wakePin ..
  | .tc10Wake .. => [.registers, .wake]
  | .parkTimer => allBut [.flash, .fuses, .anchors, .sheetLog, .draws]
  | .excursion => [.registers, .vault, .edge, .wake]
  | .wakeLatch => allBut [.flash, .fuses, .anchors, .sheetLog, .draws]
  | .switchDieRelease => raiseParts ++ [.intc, .boot, .frames, .links, .edge]
  | .wakeCheck => allBut [.flash, .fuses, .anchors, .sheetLog, .draws]
  | .forwardingReady => allBut [.policy, .epochs, .cpu, .banks, .flash, .img, .fuses, .anchors, .sheetLog, .links]
  | .mooredScrub .. => [.registers, .accum, .wake]
  | .vbatLoss => allBut [.flash, .fuses, .anchors, .sheetLog, .draws]
  | .vbatLevelChange .. => [.registers, .draws]
  | .lockstepInjection ..
  | .coreMismatch ..
  | .spWatchdog => accessParts ++ [.intc, .sheet]
  | .gcWatchdog .. => raiseParts ++ [.jobs, .faults, .intc, .cont, .sheet, .wake]
  | .coreCtlRelease .. => accessParts ++ [.intc, .sheet]
  | .bankAccess ..
  | .atomicAdd ..
  | .atomicSwap .. => allBut [.fuses, .anchors, .sheetLog]
  | .patrolScrub .. => accessParts ++ [.intc, .sheet]
  | .dbgPoll => [.io]
  | .dbgRead .. => raiseParts ++ [.intc, .cpu, .frames, .tm, .wake, .draws]
  | .dbgWrite .. => allBut [.flash]
  | .dbgHalt ..
  | .dbgResume ..
  | .dbgStep .. => [.cpu, .io]
  | .tapReset
  | .extest => [.cpu]
  | .idcode => [.cpu, .io]
  | .samplePreload => [.cpu, .draws]
  | .bypass => [.cpu]
  | .hostInterfaceReset .. => raiseParts ++ [.intc, .frames, .draws]
  | .perstNRise => [.registers, .host, .wake]
  | .p48StateChange ..
  | .d3hotEntry .. => raiseParts ++ [.intc, .frames]
  | .d0Return
  | .msixEnable => raiseParts
  | .registerWrite .. => allBut [.flash]
  | .cmtWrite .. => accessParts ++ [.epochs, .intc, .sheet]
  | .stageClaim ..
  | .stageRelease .. => accessParts ++ [.intc, .sheet]
  | .stageDiscard ..
  | .stagePush .. => accessParts ++ [.epochs, .intc, .sheet]
  | .cmtPeek .. => accessParts ++ [.intc, .sheet, .frames, .tm, .draws]
  | .commitReq .. => allBut [.time, .banks, .flash, .boot, .vault, .fuses, .anchors, .sheetLog, .frames, .links, .tm, .edge, .cnt, .draws]
  | .commitArm => raiseParts ++ [.jobs, .policy, .epochs, .intc, .img, .tables]
  | .commitCancel .. => allBut [.time, .banks, .flash, .boot, .vault, .fuses, .anchors, .sheetLog, .frames, .links, .tm, .edge, .cnt, .draws]
  | .epochLatch ..
  | .epochLatchRelease .. => accessParts ++ [.epochs, .intc, .sheet]
  | .slotFree .. => raiseParts ++ [.jobs, .policy, .epochs, .intc, .cpu, .img, .tables]
  | .drainLimit .. => raiseParts ++ [.jobs, .policy, .epochs, .intc, .cpu, .img, .frames, .tables, .edge]
  | .gcOutboundWrite .. => raiseParts ++ [.intc]
  | .gcOutboundRead ..
  | .stalemateRetry ..
  | .semExclusiveLoad .. => raiseParts
  | .semExclusiveStore .. => raiseParts ++ [.intc, .draws]
  | .semWaitTimeout .. => raiseParts
  | .semHoldTimeout .. => raiseParts ++ [.draws]
  | .semTake .. => accessParts ++ [.intc, .sheet]
  | .semRelease .. => accessParts ++ [.intc, .sheet, .draws]
  | .ledgerRead .. => raiseParts ++ [.cpu]
  | .ringEnable ..
  | .ringTail .. => accessParts ++ [.intc, .sheet]
  | .txFetch .. => raiseParts
  | .txFetchDone .. => [.registers, .accum, .host, .frames, .wake, .draws]
  | .txCompletion ..
  | .modTimer .. => raiseParts
  | .peWakeRelease => [.registers, .host]
  | .spiWrite .. => allBut [.flash]
  | .spiRead .. => raiseParts ++ [.intc, .cpu, .frames, .tm, .wake, .draws]
  | .hWrite .. => allBut [.fuses, .anchors, .sheetLog]
  | .hRead .. => accessParts ++ [.intc, .sheet]
  | .spiStatus => [.host, .cpu, .io]
  | .spiUnknownOpcode .. => []
  | .spiAbort .. => allBut []
  | .doorbell .. => accessParts ++ [.intc, .sheet]
  | .claimN ..
  | .claimF .. => [.registers, .accum, .intc, .cpu, .io]
  | .completeN ..
  | .completeF ..
  | .srcCfgEn ..
  | .fcAck ..
  | .ovfAck .. => accessParts ++ [.intc, .sheet]
  | .faultEscalation => raiseParts ++ [.jobs, .faults, .intc, .cont, .sheet]
  | .snapCtlReq .. => accessParts ++ [.intc, .sheet, .cnt]
  | .dumpCapture => raiseParts ++ [.intc, .frames, .tm, .cnt]
  | .dumpWriteDone => raiseParts ++ [.cnt]
  | .crCtlNow .. => accessParts ++ [.intc, .sheet, .cnt]
  | .imgErase .. => accessParts ++ [.epochs, .intc, .img, .vault, .sheet]
  | .imgEraseDone => [.registers, .flash, .img]
  | .imgWrite .. => accessParts ++ [.epochs, .intc, .img, .vault, .sheet]
  | .imgWriteDone => [.registers, .flash, .img]
  | .imgVerify .. => accessParts ++ [.epochs, .intc, .img, .vault, .sheet]
  | .imgVerifyDone => [.registers, .img, .vault, .draws]
  | .castle .. => accessParts ++ [.epochs, .intc, .img, .vault, .sheet]
  | .castlingLoadDone .. => [.registers, .banks, .img, .vault]
  | .spWindowStart => [.registers, .cpu, .boot, .img]
  | .spReady => [.img]
  | .spWindowExpiry => [.cpu]
  | .castlingTimeout => raiseParts ++ [.jobs, .policy, .epochs, .intc, .img, .vault, .fuses, .sheet, .tables]
  | .imgAbort ..
  | .imgRecover .. => accessParts ++ [.epochs, .intc, .img, .vault, .sheet]
  | .recoveryErase ..
  | .recoveryWrite ..
  | .recoveryVerify ..
  | .recoveryBoot .. => allBut [.fuses, .anchors, .sheetLog]
  | .powerOn => [.registers, .boot]
  | .railsGood .. => [.registers, .host, .boot, .wake, .io, .draws]
  | .memoryInitDone .. => [.registers, .banks, .boot, .img]
  | .imagePassDone .. => allBut [.cpu, .flash, .fuses, .anchors, .sheetLog, .links, .tm, .cnt]
  | .calibrationDone .. => [.registers, .time, .boot]
  | .resetNAssert .. => allBut [.flash, .fuses, .anchors, .sheetLog]
  | .resetNRelease .. => [.registers, .host, .boot, .wake, .io, .draws]
  | .resetReq ..
  | .thermalTrip => allBut [.flash, .fuses, .anchors, .sheetLog, .draws]
  | .thermalTripClear => [.registers, .host, .boot, .wake, .io, .draws]
  | .registerRead .. => raiseParts ++ [.intc, .cpu, .frames, .tm, .wake, .draws]
  | .thermalWarning .. => [.registers]
  | .wakePinRelease .. => [.wake]
  | .outboundReadCompletion .. => [.host, .io]
  | .aspmL1Entry .. => [.registers]
  | .msixVectorUnmask .. => raiseParts
  | .recoveryCommandDone => allBut [.fuses, .anchors, .sheetLog]
  | .syncInterval .. => raiseParts ++ [.time, .intc, .frames, .wake, .draws]
  | .decoderFrame .. => [.wake]

/-- What the passing of a nanosecond may change. -/
def tickParts : List Part := [.registers, .time, .host, .frames, .cnt, .io, .draws]

end Sys2Proof.Machine
end

