-- ==== Sys2Proof/Certificates/Slice0/Obligations.lean ====
section
/-!
DEFINITION. The statements for the provers. `regsSame` and `changesOnly` are the frames; a clause that gives a whole
next state (`t = { s with … }`) gives its frame by that, and `EachCommandChangesItsPartsOnly` the frame of every command.
-/
open Sys2Proof Sys2Proof.Machine

/-- A step runs the command at the front of the queue; with an empty queue one nanosecond passes (R13). Where a
clause rests on the model's own reading or choice: log entry 1. -/
def Obligations.StepRunsTheFrontCommand : Prop :=
  (∀ (c : Instr) (rest : List Instr) (s : State),
    step { s with pending := c :: rest } = exec c { s with pending := rest }) ∧
  (∀ s : State, s.pending = [] → ∃ t, step s = .next t ∧ t.time.now = s.time.now + 1 ∧ t.pending = [] ∧ t.mem = s.mem)

/-- Before power the device is Off, every register reads its Reset value and the queue is empty (R274, R402). Where
a clause rests on the model's own reading or choice: log entries 3, 10, 11. -/
def Obligations.ResetLeavesTheBlockOff : Prop :=
  State.reset.pending = [] ∧ State.reset.boot.phase = .off ∧ (∀ f : Fld, get State.reset f = f.reset) ∧
  get State.reset Reg.identPart = 0x6B25 ∧ State.reset.mem.canonical = true ∧ regsCanonical State.reset = true ∧
  slotsAddUp State.reset ∧ State.reset.otp.lc = 0 ∧ State.reset.otp.vkRevoked = 0

/-- Every command ends in a next state and leaves the queue as it found it; no state ever stops (R13). Where a
clause rests on the model's own reading or choice: log entries 2, 125. -/
def Obligations.EveryCommandCompletes : Prop :=
  (∀ (c : Instr) (s : State), ∃ t, exec c s = .next t ∧ t.pending = s.pending) ∧ (∀ s : State, NeverStops s)

/-- Every step keeps all memories in canonical form (R402). Where a clause rests on the model's own reading or
choice: log entry 9. -/
def Obligations.MemoriesStayCanonical : Prop :=
  ∀ s t : State, s.mem.canonical = true → step s = .next t → t.mem.canonical = true

/-- In every step the life cycle stands or makes a listed transition (R263). -/
def Obligations.LifeCycleMovesForward : Prop :=
  ∀ s t : State, step s = .next t → lcAllowed s.otp.lc t.otp.lc = true

/-- No step takes back the revocation of an envelope verification key (R243). -/
def Obligations.RevokedEnvelopeKeysStayRevoked : Prop :=
  ∀ (s t : State) (i : Nat), step s = .next t → s.otp.vkRevoked.testBit i = true → t.otp.vkRevoked.testBit i = true

/-- Every command leaves every part of the state it is not listed for as it was (R13). Where a clause rests on the
model's own reading or choice: log entry 1. -/
def Obligations.EachCommandChangesItsPartsOnly : Prop :=
  (∀ (c : Instr) (s t : State), exec c s = .next t → changesOnly (partsOf c) s t) ∧
  (∀ s t : State, s.pending = [] → step s = .next t → changesOnly tickParts s t)

/-- Each pipeline cycle enters one class: the classes keep adding up, idle cycles are BACK or FRONT (R375, R376,
R377). Where a clause rests on the model's own reading or choice: log entries 1, 60. -/
def Obligations.PipelineCyclesAddUp : Prop :=
  (∀ s : State, slotsAddUp s → slotsAddUp (tick s)) ∧
  (∀ s : State, aloft s = true → cyclesAfter s.time.now = 1 → s.net.slotUsed = 0 → anyReady (forIdx 5 coreTick s) = true →
    get (tick s) Reg.slotBack = (get s Reg.slotBack + 1) % 2 ^ 64) ∧
  (∀ s : State, aloft s = true → cyclesAfter s.time.now = 1 → s.net.slotUsed = 0 → anyReady (forIdx 5 coreTick s) = false →
    get (tick s) Reg.slotFront = (get s Reg.slotFront + 1) % 2 ^ 64)

/-- An accepted Sync steps or slews its domain; a lost grandmaster leaves it in holdover at its last rate (R33,
R35). Where a clause rests on the model's own reading or choice: log entries 36, 37, 38. -/
def Obligations.TimeDomainsFollowSync : Prop :=
  (∀ (s : State) (d : Domain) (gm : Nat) (offset rate : Int), aloft s = true →
    (extPortCfg s d && !extSlave s d) = false → syncSteps s d gm offset = false →
    ∃ t, exec (.acceptSync d gm offset rate) s = .next t ∧
      domOf t d = { domOf s d with anchorLocal := s.time.now, anchorTime := domNow s d, rate := rate, slew := offset,
                                   everLocked := true, gm := some gm } ∧
      get t (lockedFld d) = 1 ∧ get t (holdoverFld d) = 0 ∧ get t (gmFld d) = 0 ∧
      t = { s with regs := t.regs, accum := t.accum, time := t.time, intc := t.intc, host := t.host, io := t.io }) ∧
  (∀ (s : State) (d : Domain) (gm : Nat) (offset rate : Int), aloft s = true →
    (extPortCfg s d && !extSlave s d) = false → syncSteps s d gm offset = true →
    ∃ t, exec (.acceptSync d gm offset rate) s = .next t ∧
      domOf t d = { domOf s d with anchorLocal := s.time.now, anchorTime := domNow s d + offset, rate := rate, slew := 0,
                                   everLocked := true, gm := some gm } ∧
      get t (lockedFld d) = 1 ∧ get t (holdoverFld d) = 0 ∧ get t (gmFld d) = 0 ∧
      (d = .wc → t.time.realign = true)) ∧
  (∀ (s : State) (d : Domain), flag s (lockedFld d) = true → flag s (gmFld d) = false →
    ∃ t, exec (.grandmasterLoss d) s = .next t ∧ get t (lockedFld d) = 0 ∧ get t (holdoverFld d) = 1 ∧
      t.time = s.time ∧ regsSame s t ([lockedFld d, holdoverFld d] ++ raiseFields 18) ∧
      t = { s with regs := t.regs, accum := t.accum, intc := t.intc, host := t.host, io := t.io }) ∧
  (∀ (s : State) (gm : Nat) (offset rate : Int), aloft s = true →
    (extPortCfg s .gt && !extSlave s .gt) = false → 1000 < offset.natAbs →
    ∃ t, exec (.acceptSync .gt gm offset rate) s = .next t ∧ gtNow t = gtNow s + offset) ∧
  (∀ (s : State) (gm : Nat) (offset rate : Int), aloft s = true →
    (extPortCfg s .gt && !extSlave s .gt) = false → offset.natAbs ≤ 1000 →
    ∃ t, exec (.acceptSync .gt gm offset rate) s = .next t ∧ gtNow t = gtNow s ∧
      ∀ n : Nat, (gtAt t (s.time.now + n) - (gtNow s + n + n * rate / 1000000000)).natAbs ≤
          min (n * 100 / 1000000) offset.natAbs ∧
        (offset.natAbs * 10000 ≤ n → gtAt t (s.time.now + n) = gtNow s + n + n * rate / 1000000000 + offset))

/-- PPS edges become valid in pairs, PPS_OUT marks seconds, TIME_SNAP captures and GT_SET sets time (R32, R36, R37,
R38). Where a clause rests on the model's own reading or choice: log entries 39, 40. -/
def Obligations.PpsAndTimeSetting : Prop :=
  (∀ (s : State) (rising : Bool), aloft s = true → cur s Reg.ppsCfgPpsInEn ≠ 0 →
    (cur s Reg.ppsCfgPpsInEdge = 0 ↔ rising = true) → flag s Reg.tbStatusPpsInValid = false → s.time.ppsCand = none →
    exec (.ppsInEdge rising) s = .next { s with time.ppsCand := some s.time.now }) ∧
  (∀ (s : State) (rising : Bool) (c : Nat), aloft s = true → cur s Reg.ppsCfgPpsInEn ≠ 0 →
    (cur s Reg.ppsCfgPpsInEdge = 0 ↔ rising = true) → flag s Reg.tbStatusPpsInValid = false → s.time.ppsCand = some c →
    ppsInWindow c s.time.now = false →
    exec (.ppsInEdge rising) s = .next { s with time.ppsCand := some s.time.now }) ∧
  (∀ (s : State) (rising : Bool) (c : Nat), aloft s = true → cur s Reg.ppsCfgPpsInEn ≠ 0 →
    (cur s Reg.ppsCfgPpsInEdge = 0 ↔ rising = true) → flag s Reg.tbStatusPpsInValid = false → s.time.ppsCand = some c →
    ppsInWindow c s.time.now = true → flag s Reg.tbStatusGtGm = false →
    ∃ t, exec (.ppsInEdge rising) s = .next t ∧ get t Reg.tbStatusPpsInValid = 1 ∧ t.time.ppsLast = some s.time.now ∧
      get t Reg.ppsInNs = (gtNow s).toNat % 1000000000 ∧
      t = { s with regs := t.regs, accum := t.accum, time := t.time, intc := t.intc, host := t.host, io := t.io }) ∧
  (∀ (s : State) (l : Nat), s.time.ppsLast = some l → flag s Reg.tbStatusPpsInValid = true →
    l + 2000100000 < s.time.now →
    ∃ t, exec .ppsInMissing s = .next t ∧ get t Reg.tbStatusPpsInValid = 0 ∧ t.time.ppsCand = none ∧
      t.time.ppsLast = none ∧ regsSame s t (Reg.tbStatusPpsInValid :: raiseFields 18)) ∧
  (∀ (s : State), ppsOutMay s = true → s.time.ppsOutHigh = false →
    (toSecond (domNow s (ppsOutDomain s))).natAbs ≤ 8 →
    ∃ t, exec .ppsOutRise s = .next t ∧ t.time.ppsOutHigh = true ∧ t = { s with time := t.time }) ∧
  (∀ (s : State), s.time.ppsOutHigh = true → ppsOutMay s = false →
    exec .ppsOutFall s = .next { s with time.ppsOutHigh := false, time.ppsOutUntil := none }) ∧
  (∀ (s : State) (u : Nat), s.time.ppsOutHigh = true → s.time.ppsOutUntil = some u → u ≤ s.time.now →
    exec .ppsOutFall s = .next { s with time.ppsOutHigh := false, time.ppsOutUntil := none }) ∧
  (∀ (s : State) (m : Master), accepts s m 0x20000 = true →
    ∃ t, exec (.timeSnap m) s = .next t ∧ get t Reg.snapLocal = s.time.now % 2 ^ 64 ∧
      get t Reg.snapTempo = tempoNo s % 2 ^ 32 ∧
      get t Reg.snapWcNsNs = (wcNow s).toNat % 1000000000 ∧
      get t Reg.snapWcSecLo = (wcNow s).toNat / 1000000000 % 2 ^ 32 ∧
      get t Reg.snapGtNsNs = (gtNow s).toNat % 1000000000 ∧
      get t Reg.snapGtSecLo = (gtNow s).toNat / 1000000000 % 2 ^ 32 ∧
      regsSame s t [Reg.snapWcNsNs, Reg.snapWcSecLo, Reg.snapWcSecHi, Reg.snapWcNsLocked, Reg.snapGtNsNs,
        Reg.snapGtSecLo, Reg.snapGtSecHi, Reg.snapGtNsLocked, Reg.snapTempo, Reg.snapLocal] ∧
      t = { s with regs := t.regs, cpu := t.cpu, io := t.io }) ∧
  (∀ (s : State) (m : Master), accepts s m 0x20000 = true → flag s Reg.tbStatusGtGm = true →
    flag s Reg.tbStatusGtSetPend = false →
    ∃ t, exec (.gtSet m) s = .next t ∧ get t Reg.tbStatusGtSetPend = 1 ∧ t.time.gtSetAt = s.time.now ∧
      regsSame s t (Reg.tbStatusGtSetPend :: raiseFields 18)) ∧
  (∀ (s : State) (m : Master), accepts s m 0x20000 = true →
    flag s Reg.tbStatusGtGm = false ∨ flag s Reg.tbStatusGtSetPend = true →
    ∃ t, exec (.gtSet m) s = .next t ∧ t = { s with cpu := t.cpu, io := t.io }) ∧
  (∀ (s : State), aloft s = true → flag s Reg.tbStatusGtSetPend = true → flag s Reg.tbStatusPpsInValid = false →
    gtSetDue s = true →
    ∃ t, exec .gtSetLoad s = .next t ∧ get t Reg.tbStatusGtSetPend = 0 ∧
      gtNow t = ((get s Reg.gtSetSecLo + get s Reg.gtSetSecHi * 2 ^ 32) * 1000000000 + s.time.now % 1000000000 : Nat) ∧
      asked s t 1 ∧ regsSame s t ([Reg.tbStatusGtSetPend, Reg.sbStatsLost] ++ raiseFields 18))

/-- Interrupt sources follow their state table; a claim takes the lowest enabled pending source of its class (R357,
R360). -/
def Obligations.SourcesAreRaisedClaimedAndCompleted : Prop :=
  (∀ (s : State) (m : Master) (w : Word), accepts s m 0x80000 = true → doorbellMay s m (bitsAt w.toNat 0 11) = true →
    srcUsed (bitsAt w.toNat 0 11) = true → srcState s (bitsAt w.toNat 0 11) = 0 →
    ∃ t, exec (.doorbell m w) s = .next t ∧ srcState t (bitsAt w.toNat 0 11) = 1 ∧
      regsSame s t (raiseFields (bitsAt w.toNat 0 11))) ∧
  (∀ (s : State) (m : Master) (w : Word), accepts s m 0x80000 = true → doorbellMay s m (bitsAt w.toNat 0 11) = false →
    ∃ t, exec (.doorbell m w) s = .next t ∧
      get t Reg.intRefusedDbRefused = min (2 ^ Reg.intRefusedDbRefused.width - 1) (get s Reg.intRefusedDbRefused + 1) ∧
      regsSame s t [Reg.intRefusedDbRefused] ∧ t = { s with regs := t.regs, accum := t.accum, cpu := t.cpu, io := t.io }) ∧
  (∀ (s : State) (m : Master) (n : Nat), yields s m 0x80010 = true → claimNext s (targetOf m) 0 = some n →
    ∃ t, exec (.claimN m) s = .next t ∧ t.io.resp.find (mcode m) = some (.data (n + 2 ^ 31)) ∧ srcState t n = 2 ∧
      t.intc.claimedBy.find n = some (targetOf m * 2) ∧ regsSame s t [Reg.srcCfgState n] ∧
      t = { s with regs := t.regs, intc := t.intc, cpu := t.cpu, io := t.io }) ∧
  (∀ (s : State) (m : Master) (n : Nat), yields s m 0x80018 = true → claimNext s (targetOf m) 1 = some n →
    ∃ t, exec (.claimF m) s = .next t ∧ t.io.resp.find (mcode m) = some (.data (n + 2 ^ 31)) ∧ srcState t n = 2 ∧
      t.intc.claimedBy.find n = some (targetOf m * 2 + 1) ∧ regsSame s t [Reg.srcCfgState n] ∧
      t = { s with regs := t.regs, intc := t.intc, cpu := t.cpu, io := t.io }) ∧
  (∀ (s : State) (target cls n : Nat), claimNext s target cls = some n →
    n < 2048 ∧ srcUsed n = true ∧ claimable s target cls n = true ∧
    (∀ k, k < n → srcUsed k = true → claimable s target cls k = false)) ∧
  (∀ (s : State) (m : Master), yields s m 0x80010 = true → claimNext s (targetOf m) 0 = none →
    ∃ t, exec (.claimN m) s = .next t ∧ t.io.resp.find (mcode m) = some (.data 0) ∧
      t = { s with cpu := t.cpu, io := t.io }) ∧
  (∀ (s : State) (m : Master) (w : Word), accepts s m 0x80014 = true → srcState s (bitsAt w.toNat 0 11) = 2 →
    s.intc.claimedBy.find (bitsAt w.toNat 0 11) = some (targetOf m * 2) → srcLevel (bitsAt w.toNat 0 11) = false →
    ∃ t, exec (.completeN m w) s = .next t ∧ srcState t (bitsAt w.toNat 0 11) = 0 ∧
      t.intc.claimedBy.find (bitsAt w.toNat 0 11) = none ∧ regsSame s t [Reg.srcCfgState (bitsAt w.toNat 0 11)] ∧
      t = { s with regs := t.regs, intc := t.intc, cpu := t.cpu, io := t.io }) ∧
  (∀ (s : State) (m : Master) (w : Word), accepts s m 0x8001C = true → srcState s (bitsAt w.toNat 0 11) = 2 →
    s.intc.claimedBy.find (bitsAt w.toNat 0 11) = some (targetOf m * 2 + 1) → srcLevel (bitsAt w.toNat 0 11) = false →
    ∃ t, exec (.completeF m w) s = .next t ∧ srcState t (bitsAt w.toNat 0 11) = 0 ∧
      t.intc.claimedBy.find (bitsAt w.toNat 0 11) = none ∧ regsSame s t [Reg.srcCfgState (bitsAt w.toNat 0 11)] ∧
      t = { s with regs := t.regs, intc := t.intc, cpu := t.cpu, io := t.io }) ∧
  (∀ (s : State) (m : Master) (w : Word), accepts s m 0x80014 = true → srcState s (bitsAt w.toNat 0 11) = 3 →
    s.intc.claimedBy.find (bitsAt w.toNat 0 11) = some (targetOf m * 2) → srcLevel (bitsAt w.toNat 0 11) = false →
    ∃ t, exec (.completeN m w) s = .next t ∧ srcState t (bitsAt w.toNat 0 11) = 1 ∧
      regsSame s t (raiseFields (bitsAt w.toNat 0 11))) ∧
  (∀ (s : State) (m : Master) (w : Word), accepts s m 0x80014 = true →
    s.intc.claimedBy.find (bitsAt w.toNat 0 11) ≠ some (targetOf m * 2) →
    ∃ t, exec (.completeN m w) s = .next t ∧
      get t Reg.intStatsCompleteErr = min (2 ^ Reg.intStatsCompleteErr.width - 1) (get s Reg.intStatsCompleteErr + 1) ∧
      regsSame s t [Reg.intStatsCompleteErr] ∧ t = { s with regs := t.regs, accum := t.accum, cpu := t.cpu, io := t.io }) ∧
  (∀ (s : State) (m : Master) (n : Fin 2048) (en : Bool), accepts s m (srcCfgAddr n) = true →
    targetOf m = srcTarget s n → srcFixed n = false →
    ∃ t, exec (.srcCfgEn m n en) s = .next t ∧ get t (Reg.srcCfgEn n) = b2n en ∧
      regsSame s t [Reg.srcCfgEn n, Reg.hbStatusAspm, Reg.brRetriesL1Exits, Reg.hbStatusPeWake] ∧
      t = { s with regs := t.regs, accum := t.accum, host := t.host, cpu := t.cpu, io := t.io }) ∧
  (∀ (s : State) (m : Master) (n : Fin 2048) (en : Bool), accepts s m (srcCfgAddr n) = true →
    targetOf m ≠ srcTarget s n →
    ∃ t, exec (.srcCfgEn m n en) s = .next t ∧
      get t Reg.intRefusedEnRefused = min (2 ^ Reg.intRefusedEnRefused.width - 1) (get s Reg.intRefusedEnRefused + 1) ∧
      regsSame s t [Reg.intRefusedEnRefused]) ∧
  (∀ (s : State) (m : Master) (w : Word), accepts s m 0x80000 = true → doorbellMay s m (bitsAt w.toNat 0 11) = true →
    (srcState s (bitsAt w.toNat 0 11) = 1 ∨ srcState s (bitsAt w.toNat 0 11) = 3) →
    ∃ t, exec (.doorbell m w) s = .next t ∧ srcState t (bitsAt w.toNat 0 11) = srcState s (bitsAt w.toNat 0 11) ∧ t = { s with cpu := t.cpu, io := t.io }) ∧
  (∀ (s : State) (m : Master) (w : Word), accepts s m 0x80000 = true → doorbellMay s m (bitsAt w.toNat 0 11) = true →
    srcUsed (bitsAt w.toNat 0 11) = true → srcState s (bitsAt w.toNat 0 11) = 2 →
    ∃ t, exec (.doorbell m w) s = .next t ∧ srcState t (bitsAt w.toNat 0 11) = 3 ∧ regsSame s t [Reg.srcCfgState (bitsAt w.toNat 0 11)] ∧
      t = { s with regs := t.regs, cpu := t.cpu, io := t.io }) ∧
  (∀ (s : State) (m : Master) (w : Word), accepts s m 0x80000 = true → doorbellMay s m (bitsAt w.toNat 0 11) = true →
    srcUsed (bitsAt w.toNat 0 11) = true → srcState s (bitsAt w.toNat 0 11) = 0 → srcEn s (bitsAt w.toNat 0 11) = false →
    ∃ t, exec (.doorbell m w) s = .next t ∧ srcState t (bitsAt w.toNat 0 11) = 1 ∧ t.io.out = s.io.out ∧ t.host = s.host ∧
      regsSame s t [Reg.srcCfgState (bitsAt w.toNat 0 11)]) ∧
  (∀ (s : State) (m : Master) (w : Word), accepts s m 0x80000 = true → doorbellMay s m (bitsAt w.toNat 0 11) = true →
    srcUsed (bitsAt w.toNat 0 11) = true → srcState s (bitsAt w.toNat 0 11) = 0 → srcEn s (bitsAt w.toNat 0 11) = true → srcTarget s (bitsAt w.toNat 0 11) = 5 → s.host.msixEn = true →
    p48Up s = true → srcVector s (bitsAt w.toNat 0 11) ∉ s.host.msixMask →
    ∃ t, exec (.doorbell m w) s = .next t ∧ srcState t (bitsAt w.toNat 0 11) = 1 ∧ t.io.out = .vector (srcVector s (bitsAt w.toNat 0 11)) :: s.io.out) ∧
  (∀ (s : State) (target cls n : Nat), srcEn s n = false → claimable s target cls n = false) ∧
  (∀ (s : State) (n : Fin 2048), accepts s .host (srcCfgAddr n) = true → srcTarget s n = 5 → srcEn s n = false →
    srcState s n = 1 → s.host.msixEn = true → p48Up s = true → srcVector s n ∉ s.host.msixMask →
    ∃ t, exec (.srcCfgEn .host n true) s = .next t ∧ srcEn t n = true ∧ srcState t n = 1 ∧
      t.io.out = .vector (srcVector s n) :: s.io.out) ∧
  (∀ (s : State) (m : Master) (w : Word), accepts s m 0x80014 = true → srcState s (bitsAt w.toNat 0 11) = 2 →
    s.intc.claimedBy.find (bitsAt w.toNat 0 11) = some (targetOf m * 2) → srcUsed (bitsAt w.toNat 0 11) = true → srcLevel (bitsAt w.toNat 0 11) = true →
    ∃ t, exec (.completeN m w) s = .next t ∧ t.intc.claimedBy.find (bitsAt w.toNat 0 11) = none ∧
      (flag s (Reg.srcCfgLevel (bitsAt w.toNat 0 11)) = true → srcState t (bitsAt w.toNat 0 11) = 1) ∧
      (flag s (Reg.srcCfgLevel (bitsAt w.toNat 0 11)) = false → srcState t (bitsAt w.toNat 0 11) = 0 ∧
        regsSame s t [Reg.srcCfgState (bitsAt w.toNat 0 11), Reg.intStatsSpurious])) ∧
  (∀ (s : State) (m : Master) (w : Word), accepts s m 0x8001C = true → srcState s (bitsAt w.toNat 0 11) = 2 →
    s.intc.claimedBy.find (bitsAt w.toNat 0 11) = some (targetOf m * 2 + 1) → srcUsed (bitsAt w.toNat 0 11) = true → srcLevel (bitsAt w.toNat 0 11) = true →
    ∃ t, exec (.completeF m w) s = .next t ∧ t.intc.claimedBy.find (bitsAt w.toNat 0 11) = none ∧
      (flag s (Reg.srcCfgLevel (bitsAt w.toNat 0 11)) = true → srcState t (bitsAt w.toNat 0 11) = 1) ∧
      (flag s (Reg.srcCfgLevel (bitsAt w.toNat 0 11)) = false → srcState t (bitsAt w.toNat 0 11) = 0 ∧
        regsSame s t [Reg.srcCfgState (bitsAt w.toNat 0 11), Reg.intStatsSpurious])) ∧
  (∀ (s : State) (m : Master) (w : Word), accepts s m 0x8001C = true → srcState s (bitsAt w.toNat 0 11) = 3 →
    s.intc.claimedBy.find (bitsAt w.toNat 0 11) = some (targetOf m * 2 + 1) →
    ∃ t, exec (.completeF m w) s = .next t ∧ srcState t (bitsAt w.toNat 0 11) = 1) ∧
  (∀ (s : State) (m : Master) (w : Word), accepts s m 0x80014 = true → srcState s (bitsAt w.toNat 0 11) = 3 →
    s.intc.claimedBy.find (bitsAt w.toNat 0 11) = some (targetOf m * 2) →
    ∃ t, exec (.completeN m w) s = .next t ∧ srcState t (bitsAt w.toNat 0 11) = 1) ∧
  (∀ (s : State) (m : Master) (w : Word), accepts s m 0x80014 = true → srcState s (bitsAt w.toNat 0 11) < 2 →
    ∃ t, exec (.completeN m w) s = .next t ∧ srcState t (bitsAt w.toNat 0 11) = srcState s (bitsAt w.toNat 0 11) ∧
      get t Reg.intStatsCompleteErr = min (2 ^ Reg.intStatsCompleteErr.width - 1) (get s Reg.intStatsCompleteErr + 1) ∧
      regsSame s t [Reg.intStatsCompleteErr] ∧ t = { s with regs := t.regs, accum := t.accum, cpu := t.cpu, io := t.io }) ∧
  (∀ (s : State) (m : Master) (w : Word), accepts s m 0x8001C = true →
    (srcState s (bitsAt w.toNat 0 11) < 2 ∨ s.intc.claimedBy.find (bitsAt w.toNat 0 11) ≠ some (targetOf m * 2 + 1)) →
    ∃ t, exec (.completeF m w) s = .next t ∧ srcState t (bitsAt w.toNat 0 11) = srcState s (bitsAt w.toNat 0 11) ∧
      get t Reg.intStatsCompleteErr = min (2 ^ Reg.intStatsCompleteErr.width - 1) (get s Reg.intStatsCompleteErr + 1) ∧
      regsSame s t [Reg.intStatsCompleteErr] ∧ t = { s with regs := t.regs, accum := t.accum, cpu := t.cpu, io := t.io }) ∧
  (∀ (s : State) (m : Master), yields s m 0x80018 = true → claimNext s (targetOf m) 1 = none →
    ∃ t, exec (.claimF m) s = .next t ∧ t.io.resp.find (mcode m) = some (.data 0) ∧
      t = { s with cpu := t.cpu, io := t.io })

/-- The rule lookup returns the matching VALID rule of the slot with the highest PRIO, then the lowest INDEX (R139,
R140). Where a clause rests on the model's own reading or choice: log entry 45. -/
def Obligations.RuleLookupPicksTheBestRule : Prop :=
  (∀ (key : Nat) (b : List Byte), ruleHit key b = true ↔
    bitAt (leAt b 162 2) 0 = true ∧ key &&& keyNum (slice b 80 80) = keyNum (slice b 0 80)) ∧
  (∀ (s : State) (slot key i : Nat) (b : List Byte), winner s slot key = some (i, b) →
    (i, b) ∈ recsOf s slot 0x0120 ∧ ruleHit key b = true ∧
    ∀ e ∈ recsOf s slot 0x0120, ruleHit key e.2 = true →
      rulePrio e.2 < rulePrio b ∨ (rulePrio e.2 = rulePrio b ∧ i ≤ e.1)) ∧
  (∀ (s : State) (slot key : Nat), winner s slot key = none → ∀ e ∈ recsOf s slot 0x0120, ruleHit key e.2 = false) ∧
  (∀ (s : State) (slot key i : Nat) (b : List Byte) (edge : Bool), winner s slot key = some (i, b) →
    (lookup s slot key edge).1 = i ∧ (lookup s slot key edge).2.1 = slice b 168 16) ∧
  (∀ (s : State) (slot key : Nat) (edge : Bool), winner s slot key = none →
    (lookup s slot key edge).1 = 0xFFFF ∧
    (lookup s slot key edge).2.1 = slice (parserOf s slot) (if edge then 16 else 0) 16)

/-- FC_ACK removes the record at its index, OVF_ACK clears the overflow fields; neither releases a profile (R366).
Where a clause rests on the model's own reading or choice: log entries 79, 76. -/
def Obligations.FaultAcknowledgement : Prop :=
  (∀ (s : State) (m : Master) (w : Word), accepts s m 0xA0004 = true → s.time.now ≤ s.time.tempoLocal + 24 →
    bitAt w.toNat 4 = true →
    ∃ t, exec (.fcAck m w) s = .next t ∧ t.fault.recs = removeAt s.fault.recs (bitsAt w.toNat 0 4) ∧
      regsSame s t [Reg.fcAckIndex, Reg.fcStatusFaultN] ∧
      t = { s with regs := t.regs, fault := t.fault, cpu := t.cpu, io := t.io }) ∧
  (∀ (s : State) (m : Master), accepts s m 0xA0004 = true → s.time.now ≤ s.time.tempoLocal + 24 →
    ∃ t, exec (.ovfAck m) s = .next t ∧ get t Reg.fcStatusOverflow = 0 ∧ get t Reg.fcStatusMaxSevOvf = 0 ∧
      get t Reg.fcStatusOvfDueSet = 0 ∧ get t Reg.fcOvfDue = 0 ∧ get t Reg.fcOvfCode = 0 ∧ get t Reg.fcOvfTempo = 0 ∧
      t.fault.ovfDue = none ∧
      t.fault.recs = s.fault.recs ∧
      regsSame s t [Reg.fcStatusOverflow, Reg.fcStatusMaxSevOvf, Reg.fcStatusOvfDueSet, Reg.fcOvfDue, Reg.fcOvfCode,
        Reg.fcOvfTempo, Reg.fcStatusFaultN] ∧
      t = { s with regs := t.regs, fault := t.fault, cpu := t.cpu, io := t.io }) ∧
  (∀ (s : State) (m : Master) (w : Word), accepts s m 0xA0004 = true → s.time.tempoLocal + 24 < s.time.now →
    bitAt w.toNat 4 = true →
    ∃ t, exec (.fcAck m w) s = .next t ∧
      t.fault.recs = removeAt (faultEscalation s).fault.recs (bitsAt w.toNat 0 4) ∧
      t.cont = (faultEscalation s).cont ∧ t.env = s.env) ∧
  (∀ (s : State) (m : Master), accepts s m 0xA0004 = true → s.time.tempoLocal + 24 < s.time.now →
    ∃ t, exec (.ovfAck m) s = .next t ∧ get t Reg.fcStatusOverflow = 0 ∧ get t Reg.fcStatusMaxSevOvf = 0 ∧
      get t Reg.fcOvfDue = 0 ∧ get t Reg.fcOvfCode = 0 ∧ get t Reg.fcOvfTempo = 0 ∧ t.fault.ovfDue = none ∧
      t.cont = (faultEscalation s).cont ∧ t.env = s.env) ∧
  (∀ (s : State) (m : Master) (w : Word) (r : FaultRec), accepts s m 0xA0004 = true →
    s.time.now ≤ s.time.tempoLocal + 24 → bitAt w.toNat 4 = true →
    s.fault.recs[bitsAt w.toNat 0 4]? = some r →
    ((removeAt s.fault.recs (bitsAt w.toNat 0 4)).any fun x => x.code == r.code && x.unit == r.unit) = false →
    r.unit < 0xFFFF →
    ∃ t, exec (.fcAck m w) s = .next t ∧ faultDone t (r.code, r.unit) = true ∧
      get t Reg.contStatusActive = get s Reg.contStatusActive ∧ t.cont = s.cont)

/-- An unacknowledged due fault enters SAFE_STATE; event bits clear by a one and their level follows (R361, R367).
Where a clause rests on the model's own reading or choice: log entry 78. -/
def Obligations.FaultsEscalateAndEventsClear : Prop :=
  (∀ (s : State), s.fault.recs.length ≤ 16 → s.fault.recs.any recordDue = true →
    ∃ t, exec .faultEscalation s = .next t ∧ flag t Reg.fcStatusSafeState = true ∧
      t.fault.recs.any recordDue = false ∧ t.fault.recs.length = s.fault.recs.length) ∧
  (∀ (s : State), s.fault.recs.any recordDue = false → overflowDue s = true →
    ∃ t, exec .faultEscalation s = .next t ∧ flag t Reg.fcStatusSafeState = true ∧ t.fault.ovfDue = none ∧
      get t Reg.fcStatusMaxSevOvf = 3 ∧ t.fault.recs = s.fault.recs) ∧
  (∀ (s : State), s.fault.recs.any recordDue = false → overflowDue s = false →
    ∃ t, exec .faultEscalation s = .next t ∧ regsSame s t [Reg.fcStatusFaultN] ∧ t = { s with regs := t.regs }) ∧
  ((∀ (s : State) (m : Master) (p : Fin 48) (w : Word), accepts s m (0x20000C + 0x10000 * p.val) = true →
    ∃ t, exec (.portEventsClear m p w) s = .next t ∧
      (∀ f ∈ portEventFlds p, get t f = if bitAt w.toNat f.lsb then 0 else get s f) ∧
      flag t (Reg.srcCfgLevel (64 + p)) = anySet t (portEventFlds p)) ∧
  (∀ (s : State) (m : Master) (ch : Fin 256) (w : Word), accepts s m (0xA00010 + 0x1000 * ch.val) = true →
    ∃ t, exec (.chEventsClear m ch w) s = .next t ∧
      (∀ f ∈ chEventFlds ch, get t f = if bitAt w.toNat f.lsb then 0 else get s f) ∧
      flag t (Reg.srcCfgLevel (112 + ch)) = anySet t (chEventFlds ch)) ∧
  (∀ (s : State) (m : Master) (w : Word), accepts s m 0xB00300 = true →
    ∃ t, exec (.secEventsClear m w) s = .next t ∧
      (∀ f ∈ secEventFlds, get t f = if bitAt w.toNat f.lsb then 0 else get s f) ∧
      flag t (Reg.srcCfgLevel 19) = anySet t secEventFlds))

/-- Gate lists follow the working clock; stream filters and flow gates reopen; due wheel entries go and tag their
leaf's head (R182, R185, R190, R195, R198, R200). Where a clause rests on the model's own reading or choice: log
entry 71. -/
def Obligations.GatesAndTimingWheels : Prop :=
  (∀ (s : State) (g : Fin 1024), (flowList s g).isEmpty = false →
    ∃ t, exec (.flowGateEntry g) s = .next t ∧ t.tm.flowAt.find g = some (flowEntry s g).2 ∧
      get t (Reg.fgStateEntry g) = (flowEntry s g).1 % 2 ^ (Reg.fgStateEntry g).width ∧
      (s.tm.flowAt.find g ≠ some (flowEntry s g).2 → t.tm.octets.find g = none) ∧
      regsSame s t [Reg.fgStateEntry g, Reg.fgStateIpv g, Reg.fgStateIpvValid g, Reg.fgStateOpen g] ∧
      t = { s with regs := t.regs, tm := t.tm }) ∧
  (∀ (s : State) (m : Master) (g : Fin 1024), accepts s m (0x940004 + 8 * g.val) = true →
    ∃ t, exec (.flowGateReopen m g) s = .next t ∧ get t (Reg.fgStateClosedInvalidRx g) = 0 ∧
      get t (Reg.fgStateClosedOctets g) = 0 ∧
      regsSame s t [Reg.fgStateClosedInvalidRx g, Reg.fgStateClosedOctets g, Reg.fgStateEntry g, Reg.fgStateIpv g,
        Reg.fgStateIpvValid g, Reg.fgStateOpen g] ∧
      t = { s with regs := t.regs, tm := t.tm, cpu := t.cpu, io := t.io }) ∧
  (∀ (s : State) (m : Master) (f : Fin 8192), accepts s m (0x90000C + 16 * f.val) = true →
    ∃ t, exec (.streamFilterUnblock m f) s = .next t ∧ get t (Reg.sfStateBlocked f) = 0 ∧
      regsSame s t [Reg.sfStateBlocked f] ∧ t = { s with regs := t.regs, cpu := t.cpu, io := t.io }) ∧
  ((∀ (s : State) (p : Fin 50) (q : Fin 64) (b : Bucket) (d : Nat), s.tm.leafTok.find (64 * p.val + q.val) = some b →
    b.wheel = some d → d ≤ s.time.now →
    ∃ t, exec (.timingWheelFire (.leaf p q)) s = .next t ∧
      t.tm.leafTok = s.tm.leafTok.set (64 * p.val + q.val) { b with wheel := none } ∧
      (∀ i j, (queueOf t i j).map (fun r => r.uid) = (queueOf s i j).map (fun r => r.uid)) ∧
      (q.val ≠ 63 → leafEligible t p q = true → (headOf t p q).all (fun r => r.ftag.isSome) = true) ∧
      t = { s with
        tm := { s.tm with leafTok := t.tm.leafTok },
        net := { s.net with queues := t.net.queues } }) ∧
  (∀ (s : State) (p : Fin 50) (b : Bucket) (d : Nat), s.tm.portTok.find p.val = some b → b.wheel = some d →
    d ≤ s.time.now →
    exec (.timingWheelFire (.port p)) s =
      .next { s with tm.portTok := s.tm.portTok.set p.val { b with wheel := none } })) ∧
  (∀ (s : State) (p : Fin 50) (b : List Byte), (gatesOf s p).oper = some b → (gatesOf s p).pend = none →
    ∃ t, exec (.gateEntryChange p) s = .next t ∧ (gatesOf t p).oper = some b ∧
      get t (Reg.tmGateOperStates p) = u8 b (32 + 8 * (gateEntry b (wcNow s)).1) ∧
      get t (Reg.tmGateEntry p) = (gateEntry b (wcNow s)).1 % 2 ^ (Reg.tmGateEntry p).width ∧
      t = { s with regs := t.regs, accum := t.accum, net := t.net, tm := t.tm, io := t.io }) ∧
  (∀ (s : State) (p : Fin 50) (x : List Byte), (gatesOf s p).pend = some x → (gatesOf s p).switchAt ≤ wcNow s →
    ∃ t, exec (.gateSwitch p) s = .next t ∧ (gatesOf t p).oper = some x ∧ (gatesOf t p).pend = none ∧
      get t (Reg.tmGateGatesEn p) = 1 ∧ get t (Reg.tmGatePending p) = 0 ∧
      get t (Reg.tmGateOperStates p) = u8 x (32 + 8 * (gateEntry x (wcNow s)).1) ∧
      get t (Reg.tmTxTakeovers p) = min (2 ^ (Reg.tmTxTakeovers p).width - 1) (get s (Reg.tmTxTakeovers p) + 1) ∧
      t = { s with regs := t.regs, accum := t.accum, net := t.net, tm := t.tm, io := t.io }) ∧
  (∀ (s : State) (p : Fin 50) (b : List Byte), (gatesOf (gateSync s p) p).oper = some b →
    (gatesOf (gateSync s p) p).pend = none → preemptActive (gateSync s p) p = true →
    (gateEntry b (wcNow (gateSync s p))).1 < leAt b 2 2 →
    u8 b (32 + 8 * (((gateEntry b (wcNow (gateSync s p))).1 + 1) % leAt b 2 2) + 1) = 1 →
    8 * leAt b (32 + 8 * (gateEntry b (wcNow (gateSync s p))).1 + 4) 4 - (gateEntry b (wcNow (gateSync s p))).2 ≤
      8 * leAt b 16 2 →
    ∃ t, exec (.macHoldIssue p) s = .next t ∧ (gatesOf t p).hold = true ∧
      t = { s with regs := t.regs, accum := t.accum, net := t.net, tm := t.tm, io := t.io }) ∧
  (∀ (s : State) (p : Fin 50) (b : List Byte), (gatesOf (gateSync s p) p).pend = some b →
    preemptActive (gateSync s p) p = true → 0 < leAt b 2 2 → u8 b 33 = 1 →
    ((gatesOf (gateSync s p) p).switchAt - wcNow (gateSync s p)).toNat ≤ 8 * leAt b 16 2 →
    ∃ t, exec (.macHoldIssue p) s = .next t ∧ (gatesOf t p).hold = true ∧
      t = { s with regs := t.regs, accum := t.accum, net := t.net, tm := t.tm, io := t.io })

/-- A lockstep or watchdog failure holds its processor; a passed injection counts; RELEASE frees a core (R302, R304,
R305, R306). Where a clause rests on the model's own reading or choice: log entries 13, 30. -/
def Obligations.LockstepAndWatchdogs : Prop :=
  (∀ (s : State) (b : Fin 384), pairPowered s = true → s.cpu.spHeld = false →
    ∃ t, exec (.coreMismatch (.mismatch b)) s = .next t ∧ t.cpu.spHeld = true ∧
      get t Reg.lockstepStatusMismatch = 1 ∧ get t Reg.mismatchBit = b.val ∧
      get t Reg.mismatchTempo = tempoNo s % 2 ^ Reg.mismatchTempo.width) ∧
  (∀ (s : State), pairPowered s = true → s.cpu.spHeld = false →
    ∃ t, exec (.coreMismatch .comparator) s = .next t ∧ t.cpu.spHeld = true ∧ get t Reg.lockstepStatusCmpFault = 1) ∧
  (∀ (s : State) (n : Nat), pairPowered s = true → s.cpu.spHeld = false →
    ∃ t, exec (.coreMismatch (.delay n)) s = .next t ∧ t.cpu.spHeld = true ∧ get t Reg.lockstepStatusDlyFault = 1) ∧
  (∀ (s : State), pairRuns s = true → spWatched s = true →
    ∃ t, exec .spWatchdog s = .next t ∧ t.cpu.spHeld = true ∧
      get t Reg.mismatchTempo = tempoNo s % 2 ^ Reg.mismatchTempo.width) ∧
  (∀ (s : State), pairRuns s = true → s.cpu.injected = false →
    ∃ t, exec (.lockstepInjection false) s = .next t ∧ t.cpu.spHeld = true ∧ get t Reg.lockstepStatusCmpFault = 1 ∧
      get t Reg.lockstepStatusInjLast = 0) ∧
  (∀ (s : State), pairRuns s = true → s.cpu.injected = false → get s Reg.lockstepStatusInjBit ≤ 383 →
    ∃ t, exec (.lockstepInjection true) s = .next t ∧ t.cpu.injected = true ∧ t.cpu.spHeld = s.cpu.spHeld ∧
      get t Reg.lockstepStatusInjBit = (get s Reg.lockstepStatusInjBit + 1) % 384 ∧
      get t Reg.lockstepStatusInjLast = 1 ∧
      get t Reg.injPasses = min (2 ^ Reg.injPasses.width - 1) (get s Reg.injPasses + 1) ∧
      regsSame s t [Reg.lockstepStatusInjBit, Reg.lockstepStatusInjLast, Reg.injPasses] ∧
      t = { s with regs := t.regs, accum := t.accum, cpu := t.cpu }) ∧
  (∀ (s : State) (c : Fin 4), aloft s = true → gcHeld s c = false → s.cpu.halted.contains (c.val + 1) = false →
    ∃ t, exec (.gcWatchdog c) s = .next t ∧ gcHeld t c = true ∧
      (s.fault.recs.length < 16 → t.fault.recs.any (fun r => r.code == 0x0005 && r.unit == faultUnit 5 c) = true)) ∧
  (∀ (s : State) (m : Master) (w : Word) (c : Fin 4), accepts s m 0xE00810 = true → bitAt w.toNat (4 + c) = true →
    gcHeld s c = true → (s.fault.recs.any fun r => r.code == 0x0005 && r.unit == faultUnit 5 c) = false →
    ∃ t, exec (.coreCtlRelease m w) s = .next t ∧ gcHeld t c = false ∧ regsSame s t [Reg.coreCtlHeld] ∧
      t = { s with regs := t.regs, cpu := t.cpu, io := t.io })

/-- Bank reads return the stored bytes, writes change those bytes only, refused accesses change no memory (R314,
R316). Where a clause rests on the model's own reading or choice: log entries 13, 28, 81, 124. -/
def Obligations.BankAccessAndScrubbing : Prop :=
  (∀ (s : State) (m : BusMaster) (b : Bank) (off n : Nat) (w : List BusMaster), issues s m = true → bankReach m b = true →
    isNext s m b w = true → 0 < n → off + n ≤ bankBytes b → regionOk s m b off n false = true → hitsMark s b off n = none →
    ∃ t, exec (.bankAccess m b off (.read n) .clean w) s = .next t ∧
      t.io.resp.find (busCode m) = some (.data (leNat (Mem.readBytes (bankMem s b) 0 off (openBytes s b off n)))) ∧
      t.cpu.lastBankGrant.find (bankIdx b) = some (busCode m) ∧
      (∀ x, w = [x] → bankReach x b = true →
        get t (Reg.bankConflict (bankIdx b) (busCode x)) =
          min (2 ^ 32 - 1) (get s (Reg.bankConflict (bankIdx b) (busCode x)) + 1)) ∧
      regsSame s t (w.map fun x => Reg.bankConflict (bankIdx b) (busCode x)) ∧
      t = { s with regs := t.regs, accum := t.accum, io := t.io,
                   cpu := { s.cpu with lastBankGrant := t.cpu.lastBankGrant } }) ∧
  (∀ (s : State) (m : BusMaster) (b : Bank) (off : Nat) (d : List Byte) (w : List BusMaster), issues s m = true →
    bankReach m b = true → isNext s m b w = true → 0 < d.length → off + d.length ≤ bankBytes b →
    regionOk s m b off d.length true = true → hitsMark s b off d.length = none →
    ∃ t, exec (.bankAccess m b off (.write d) .clean w) s = .next t ∧
      (∀ i, i < openBytes s b off d.length → (bankMem t b).read 0 (off + i) = (d[i]?).getD 0) ∧
      (∀ a, a < off ∨ off + openBytes s b off d.length ≤ a → (bankMem t b).read 0 a = (bankMem s b).read 0 a) ∧
      (∀ b', b' ≠ b → bankMem t b' = bankMem s b') ∧ t.mem.flashA = s.mem.flashA ∧ t.mem.flashB = s.mem.flashB ∧
      (b ≠ .h → t.vault.mcj = s.vault.mcj) ∧
      regsSame s t (w.map fun x => Reg.bankConflict (bankIdx b) (busCode x)) ∧
      t = { s with regs := t.regs, accum := t.accum, mem := t.mem, io := t.io, freeCtr := t.freeCtr,
                   cpu := { s.cpu with lastBankGrant := t.cpu.lastBankGrant },
                   vault := { s.vault with mcj := t.vault.mcj } }) ∧
  (∀ (s : State) (m : BusMaster) (b : Bank) (off : Nat) (op : BankOp) (ecc : BankEcc) (w : List BusMaster),
    issues s m = true → m ≠ .hb → bankReach m b = false →
    ∃ t, exec (.bankAccess m b off op ecc w) s = .next t ∧ t.io.resp.find (busCode m) = some .busError ∧
      t = { s with io := t.io }) ∧
  (∀ (s : State) (m : BusMaster) (b : Bank) (off : Nat) (op : BankOp) (ecc : BankEcc) (w : List BusMaster),
    issues s m = true → m ≠ .hb → bankReach m b = true → isNext s m b w = true → b ≠ .h → bankBytes b < off + opLen op →
    ∃ t, exec (.bankAccess m b off op ecc w) s = .next t ∧ t.io.resp.find (busCode m) = some .busError ∧
      t.mem = s.mem) ∧
  (∀ (s : State) (m : BusMaster) (off : Nat) (op : BankOp) (ecc : BankEcc) (w : List BusMaster),
    issues s m = true → bankReach m .h = true → isNext s m .h w = true → neverServed op = false →
    (m = .hb → off < 0x400000) → regionOk s m .h off (opLen op) (opWrite op) = false →
    ∃ t, exec (.bankAccess m .h off op ecc w) s = .next t ∧ t.mem = s.mem ∧
      get t Reg.hViol = min (2 ^ Reg.hViol.width - 1) (get s Reg.hViol + 1)) ∧
  (∀ (s : State) (m : BusMaster) (b : Bank) (off k : Nat) (op : BankOp) (ecc : BankEcc) (w : List BusMaster),
    issues s m = true → m ≠ .hb → bankReach m b = true → isNext s m b w = true → off + opLen op ≤ bankBytes b →
    regionOk s m b off (opLen op) (opWrite op) = true → hitsMark s b off (opLen op) = some k →
    ∃ t, exec (.bankAccess m b off op ecc w) s = .next t ∧ t.io.resp.find (busCode m) = some .busError ∧
      marked t b = (marked s b).erase k ∧ t.mem = s.mem) ∧
  (∀ (s : State) (m : BusMaster) (b : Bank) (off k : Nat) (op : BankOp) (w : List BusMaster),
    issues s m = true → m ≠ .hb → bankReach m b = true → isNext s m b w = true → off + opLen op ≤ bankBytes b →
    regionOk s m b off (opLen op) (opWrite op) = true → hitsMark s b off (opLen op) = none →
    ∃ t, exec (.bankAccess m b off op (.uncorrectable k) w) s = .next t ∧
      t.io.resp.find (busCode m) = some .busError ∧ t.mem = s.mem ∧
      get t (Reg.bankEccLastAddr (bankIdx b)) = badWord off k % 2 ^ (Reg.bankEccLastAddr (bankIdx b)).width ∧
      get t (Reg.bankEccEccUncorr (bankIdx b)) =
        min (2 ^ (Reg.bankEccEccUncorr (bankIdx b)).width - 1) (get s (Reg.bankEccEccUncorr (bankIdx b)) + 1)) ∧
  (∀ (s : State) (m : BusMaster) (b : Bank) (off : Nat) (op : BankOp) (ecc : BankEcc) (w : List BusMaster),
    issues s m = true → m ≠ .hb → bankReach m b = true → isNext s m b w = false →
    exec (.bankAccess m b off op ecc w) s = .next s) ∧
  (∀ (s : State) (b : Bank) (off n : Nat) (op : BankOp) (ecc : BankEcc) (w : List BusMaster), endpointOn s = true →
    op = .cas n ∨ op = .lockedRead n →
    ∃ t, exec (.bankAccess .hb b off op ecc w) s = .next t ∧ t.io.resp.find 5 = some .unsupportedRequest ∧
      t = { s with io := t.io }) ∧
  (∀ (s : State) (off n : Nat) (ecc : BankEcc) (w : List BusMaster), issues s .hb = true → 0x410000 ≤ off → off < 0x800000 →
    ∃ t, exec (.bankAccess .hb .h off (.read n) ecc w) s = .next t ∧ t.io.resp.find 5 = some (.data 0) ∧
      t = { s with io := t.io }) ∧
  (∀ (s : State) (v : Nat) (x : Byte) (ecc : BankEcc) (w : List BusMaster), issues s .hb = true → v < 80 →
    ∃ t, exec (.bankAccess .hb .h (0x800000 + 16 * v + 12) (.write [x]) ecc w) s = .next t ∧
      t.host.msixMask.contains v = (x.toNat % 2 == 1)) ∧
  (∀ (s : State) (i : Fin 10) (ecc : BankEcc) (w : List BusMaster), issues s .hb = true →
    ∃ t, exec (.bankAccess .hb .h (0x802000 + i) (.read 1) ecc w) s = .next t ∧
      t.io.resp.find 5 = some (.data
        (((s.host.msixPend.filter fun v => v / 8 == i.val).map fun v => 2 ^ (v % 8)).sum % 256)) ∧
      t = { s with io := t.io }) ∧
  (∀ (s : State) (b : Bank) (off n : Nat) (w : List BusMaster), dieRuns s = true →
    dbgVia s b off n = true → hitsMark s b off n = none →
    ∃ t, exec (.bankAccess .dbg b off (.read n) .clean w) s = .next t ∧ t.cpu.dbgStatus = 0 ∧
      t.cpu.dbgData = leNat (Mem.readBytes (bankMem s b) 0 off n) ∧ t = { s with cpu := t.cpu, io := t.io }) ∧
  (∀ (s : State) (off : Nat) (d : List Byte) (w : List BusMaster), dieRuns s = true →
    dbgVia s .s off d.length = true → hitsMark s .s off d.length = none → s.cpu.replay.length < 64 →
    ∃ t, exec (.bankAccess .dbg .s off (.write d) .clean w) s = .next t ∧ t.cpu.dbgStatus = 0 ∧
      t.cpu.replay = s.cpu.replay ++ [(off, leNat d)] ∧
      t = { s with mem.bankS := Mem.writeBytes s.mem.bankS 0 off d, cpu := t.cpu, io := t.io }) ∧
  (∀ (s : State) (b : Bank), aloft s = true →
    ∃ t, exec (.patrolScrub b []) s = .next t ∧
      get t (Reg.bankScrub (bankIdx b)) =
        min (2 ^ (Reg.bankScrub (bankIdx b)).width - 1) (get s (Reg.bankScrub (bankIdx b)) + 1) ∧
      regsSame s t [Reg.bankScrub (bankIdx b)] ∧ t = { s with regs := t.regs, accum := t.accum }) ∧
  (∀ (s : State) (b : Bank) (off : Nat), aloft s = true →
    ∃ t, exec (.patrolScrub b [⟨b, off, false⟩]) s = .next t ∧
      get t (Reg.bankEccEccCorr (bankIdx b)) =
        min (2 ^ (Reg.bankEccEccCorr (bankIdx b)).width - 1) (get s (Reg.bankEccEccCorr (bankIdx b)) + 1) ∧
      regsSame s t [Reg.bankScrub (bankIdx b), Reg.bankEccEccCorr (bankIdx b)] ∧
      t = { s with regs := t.regs, accum := t.accum }) ∧
  (∀ (s : State) (b : Bank) (off : Nat), aloft s = true →
    ∃ t, exec (.patrolScrub b [⟨b, off, true⟩]) s = .next t ∧ off / 8 * 8 ∈ marked t b ∧ t.mem = s.mem ∧
      get t (Reg.bankEccEccUncorr (bankIdx b)) =
        min (2 ^ (Reg.bankEccEccUncorr (bankIdx b)).width - 1) (get s (Reg.bankEccEccUncorr (bankIdx b)) + 1))

/-- ATOMIC_ADD and ATOMIC_SWAP answer the old word and store sum or operand at its address only (R315). Where a
clause rests on the model's own reading or choice: log entries 32, 124, 94. -/
def Obligations.AtomicsReturnTheOldWord : Prop :=
  (∀ (s : State) (m : BusMaster) (b : Bank) (off : Nat) (wide : Bool) (v : BitVec 64) (w : List BusMaster),
    issues s m = true → atomicReach m b = true → off % (if wide then 8 else 4) = 0 → isNext s m b w = true →
    off + (if wide then 8 else 4) ≤ bankBytes b →
    regionOk s m b off (if wide then 8 else 4) true = true → regionOk s m b off (if wide then 8 else 4) false = true →
    hitsMark s b off (if wide then 8 else 4) = none → wiping s b off = false →
    ∃ t, exec (.atomicAdd m b off wide ⟨v, .clean, w⟩) s = .next t ∧
      t.io.resp.find (busCode m) = some (.data (leNat (Mem.readBytes (bankMem s b) 0 off (if wide then 8 else 4)))) ∧
      leNat (Mem.readBytes (bankMem t b) 0 off (if wide then 8 else 4)) =
        (leNat (Mem.readBytes (bankMem s b) 0 off (if wide then 8 else 4)) + v.toNat) % 2 ^ (8 * (if wide then 8 else 4)) ∧
      (∀ a, a < off ∨ off + (if wide then 8 else 4) ≤ a → (bankMem t b).read 0 a = (bankMem s b).read 0 a) ∧
      (∀ b', b' ≠ b → bankMem t b' = bankMem s b') ∧ t.mem.flashA = s.mem.flashA ∧ t.mem.flashB = s.mem.flashB ∧
      (∀ x, w = [x] → bankReach x b = true →
        get t (Reg.bankConflict (bankIdx b) (busCode x)) =
          min (2 ^ 32 - 1) (get s (Reg.bankConflict (bankIdx b) (busCode x)) + 2)) ∧
      regsSame s t (Reg.bankAtomicOps (bankIdx b) :: w.map fun x => Reg.bankConflict (bankIdx b) (busCode x)) ∧
      (b ≠ .h → t.vault.mcj = s.vault.mcj) ∧
      t = { s with regs := t.regs, accum := t.accum, mem := t.mem, io := t.io, freeCtr := t.freeCtr,
                   cpu := { s.cpu with lastBankGrant := t.cpu.lastBankGrant },
                   vault := { s.vault with mcj := t.vault.mcj } }) ∧
  (∀ (s : State) (m : BusMaster) (b : Bank) (off : Nat) (wide : Bool) (v : BitVec 64) (w : List BusMaster),
    issues s m = true → atomicReach m b = true → off % (if wide then 8 else 4) = 0 → isNext s m b w = true →
    off + (if wide then 8 else 4) ≤ bankBytes b →
    regionOk s m b off (if wide then 8 else 4) true = true → regionOk s m b off (if wide then 8 else 4) false = true →
    hitsMark s b off (if wide then 8 else 4) = none → wiping s b off = false →
    ∃ t, exec (.atomicSwap m b off wide ⟨v, .clean, w⟩) s = .next t ∧
      t.io.resp.find (busCode m) = some (.data (leNat (Mem.readBytes (bankMem s b) 0 off (if wide then 8 else 4)))) ∧
      leNat (Mem.readBytes (bankMem t b) 0 off (if wide then 8 else 4)) =
        v.toNat % 2 ^ (8 * (if wide then 8 else 4)) ∧
      (∀ a, a < off ∨ off + (if wide then 8 else 4) ≤ a → (bankMem t b).read 0 a = (bankMem s b).read 0 a) ∧
      (∀ b', b' ≠ b → bankMem t b' = bankMem s b') ∧ t.mem.flashA = s.mem.flashA ∧ t.mem.flashB = s.mem.flashB ∧
      (∀ x, w = [x] → bankReach x b = true →
        get t (Reg.bankConflict (bankIdx b) (busCode x)) =
          min (2 ^ 32 - 1) (get s (Reg.bankConflict (bankIdx b) (busCode x)) + 2)) ∧
      regsSame s t (Reg.bankAtomicOps (bankIdx b) :: w.map fun x => Reg.bankConflict (bankIdx b) (busCode x)) ∧
      (b ≠ .h → t.vault.mcj = s.vault.mcj) ∧
      t = { s with regs := t.regs, accum := t.accum, mem := t.mem, io := t.io, freeCtr := t.freeCtr,
                   cpu := { s.cpu with lastBankGrant := t.cpu.lastBankGrant },
                   vault := { s.vault with mcj := t.vault.mcj } }) ∧
  (∀ (s : State) (off : Nat) (wide : Bool) (v : BitVec 64) (w : List BusMaster),
    issues s .sp = true → off % (if wide then 8 else 4) = 0 → isNext s .sp .s w = true →
    off + (if wide then 8 else 4) ≤ bankBytes .s → hitsMark s .s off (if wide then 8 else 4) = none →
    wiping s .s off = true →
    ∃ t, exec (.atomicAdd .sp .s off wide ⟨v, .clean, w⟩) s = .next t ∧ t.io.resp.find 0 = some (.data 0) ∧ t.mem = s.mem) ∧
  (∀ (s : State) (m : BusMaster) (b : Bank) (off : Nat) (wide : Bool) (v : BitVec 64) (ecc : BankEcc) (w : List BusMaster),
    issues s m = true → off % (if wide then 8 else 4) ≠ 0 →
    ∃ t, exec (.atomicAdd m b off wide ⟨v, ecc, w⟩) s = .next t ∧ t.io.resp.find (busCode m) = some .busError ∧
      t = { s with io := t.io })

/-- Debug halt, resume and step act where the life cycle permits; TAP instructions select their register (R307,
R349, R350). Where a clause rests on the model's own reading or choice: log entry 29. -/
def Obligations.DebugPortAndTap : Prop :=
  (∀ (s : State) (c : Fin 5), dieRuns s = true → dbgBusy s = false → haltAllowed s = true →
    s.cpu.halted.contains c.val = false →
    ∃ t, exec (.dbgHalt c) s = .next t ∧ t.cpu.halted = c.val :: s.cpu.halted ∧ t.cpu.dbgStatus = 0 ∧
      (c.val = 0 → t.cpu.replay = []) ∧ t = { s with cpu := t.cpu, io := t.io }) ∧
  (∀ (s : State) (c : Fin 5), dieRuns s = true → dbgBusy s = false → haltAllowed s = true →
    s.cpu.halted.contains c.val = true →
    ∃ t, exec (.dbgHalt c) s = .next t ∧ t.cpu.halted = s.cpu.halted ∧ t.cpu.replay = s.cpu.replay ∧
      t.cpu.dbgStatus = 0 ∧ t = { s with cpu := t.cpu, io := t.io }) ∧
  (∀ (s : State) (c : Fin 5), dieRuns s = true → dbgBusy s = false → haltAllowed s = true →
    ∃ t, exec (.dbgResume c) s = .next t ∧ t.cpu.halted = s.cpu.halted.erase c.val ∧ t.cpu.dbgStatus = 0 ∧
      (c.val = 0 → t.cpu.replay = []) ∧ t = { s with cpu := t.cpu, io := t.io }) ∧
  (∀ (s : State) (c : Fin 5), dieRuns s = true → dbgBusy s = false → haltAllowed s = true →
    s.cpu.halted.contains c.val = true →
    ∃ t, exec (.dbgStep c) s = .next t ∧ t.cpu.halted = s.cpu.halted ∧ t.cpu.dbgStatus = 0 ∧
      (c.val = 0 → t.cpu.replay = []) ∧ t = { s with cpu := t.cpu, io := t.io }) ∧
  (∀ (s : State) (c : Fin 5), dieRuns s = true → dbgBusy s = false → haltAllowed s = false →
    (∃ t, exec (.dbgHalt c) s = .next t ∧ t.cpu.halted = s.cpu.halted ∧ t.cpu.dbgStatus = 2 ∧
      t = { s with cpu := t.cpu, io := t.io }) ∧
    (∃ t, exec (.dbgResume c) s = .next t ∧ t.cpu.halted = s.cpu.halted ∧ t.cpu.dbgStatus = 2 ∧
      t = { s with cpu := t.cpu, io := t.io }) ∧
    (∃ t, exec (.dbgStep c) s = .next t ∧ t.cpu.halted = s.cpu.halted ∧ t.cpu.dbgStatus = 2 ∧
      t = { s with cpu := t.cpu, io := t.io })) ∧
  (∀ (s : State), dieRuns s = true → dbgBusy s = false →
    ∃ t, exec .dbgPoll s = .next t ∧
      t.io.resp.find (mcode .dbg) = some (.dbg s.cpu.dbgStatus s.cpu.dbgData) ∧ t = { s with io := t.io }) ∧
  (∀ (s : State), dieRuns s = true → dbgBusy s = true →
    ∃ t, exec .dbgPoll s = .next t ∧ t.io.resp.find (mcode .dbg) = some (.dbg 1 0) ∧
      t = { s with io := t.io }) ∧
  (∀ (s : State) (c : Fin 5), dbgBusy s = true →
    exec (.dbgHalt c) s = .next s ∧ exec (.dbgResume c) s = .next s ∧ exec (.dbgStep c) s = .next s) ∧
  (∀ (s : State) (c : Fin 5), dieRuns s = false →
    exec (.dbgHalt c) s = .next s ∧ exec (.dbgResume c) s = .next s ∧ exec (.dbgStep c) s = .next s ∧
    exec .dbgPoll s = .next s) ∧
  (∀ (s : State), dieRuns s = true → exec .tapReset s = .next { s with cpu.tapInstr := 0x01 }) ∧
  (∀ (s : State), dieRuns s = true → tapAllowed s 0x00 = true → exec .extest s = .next { s with cpu.tapInstr := 0x00 }) ∧
  (∀ (s : State), dieRuns s = true → tapAllowed s 0x02 = true →
    ∃ t, exec .samplePreload s = .next t ∧ t.cpu.tapInstr = 0x02 ∧
      t = { s with cpu := { s.cpu with tapInstr := t.cpu.tapInstr, boundaryScan := t.cpu.boundaryScan }, freeCtr := t.freeCtr }) ∧
  (∀ (s : State), dieRuns s = true → exec .bypass s = .next { s with cpu.tapInstr := 0x3F }) ∧
  (∀ (s : State), dieRuns s = true → ∃ t, exec .idcode s = .next t ∧ t.cpu.tapInstr = 0x01 ∧
    t.io.resp.find 9 = some (.data (get s Reg.identStepMajor % 16 * 2 ^ 28 + get s Reg.identPart * 2 ^ 12 +
      Config.manufacturerId % 2 ^ 11 * 2 + 1)) ∧ t = { s with cpu := t.cpu, io := t.io }) ∧
  (∀ (s : State), dieRuns s = true → tapAllowed s 0x00 = false → exec .extest s = .next { s with cpu.tapInstr := 0x3F }) ∧
  (∀ (s : State), dieRuns s = true → tapAllowed s 0x02 = false →
    exec .samplePreload s = .next { s with cpu.tapInstr := 0x3F }) ∧
  (∀ (s : State), dieRuns s = false → exec .tapReset s = .next s ∧ exec .extest s = .next s ∧
    exec .samplePreload s = .next s ∧ exec .bypass s = .next s ∧ exec .idcode s = .next s)

/-- P48 link and D states show in HB_STATUS; a host interface reset clears the host's state and keeps the ledger
(R323, R324, R341, R342, R344). Where a clause rests on the model's own reading or choice: log entry 114. -/
def Obligations.HostLinkAndPower : Prop :=
  (∀ (s : State) (l : LinkState), endpointOn s = true →
    ∃ t, exec (.p48StateChange l) s = .next t ∧ get t Reg.hbStatusDlActive = b2n l.dlActive ∧
      flag t Reg.hbStatusBme = ((if configServed s then l.bme else flag s Reg.hbStatusBme) && l.dlActive) ∧
      flag t Reg.hbStatusP48Up = (l.dlActive && get s Reg.hbStatusDstate == 0 && flag t Reg.hbStatusBme) ∧
      (p48Up s = true → p48Up t = false → ∀ q < 64, queueOf t 48 q = [])) ∧
  (∀ (s : State) (pm : PmWrite), configServed s = true → get s Reg.hbStatusDstate ≠ 3 →
    ∃ t, exec (.d3hotEntry pm) s = .next t ∧ get t Reg.hbStatusDstate = 3 ∧ flag t Reg.hbStatusP48Up = false ∧
      t.host.fetching = none ∧ t.host.posted = [] ∧ t.host.pmeEn = pm.pmeEn ∧
      t.host.pmeStatus = (s.host.pmeStatus && !pm.clearStatus)) ∧
  (∀ (s : State) (pm : PmWrite), configServed s = true → get s Reg.hbStatusDstate = 3 → p48Up s = false →
    exec (.d3hotEntry pm) s = .next { s with
      host.pmeEn := pm.pmeEn, host.pmeStatus := s.host.pmeStatus && !pm.clearStatus }) ∧
  (∀ (s : State), configServed s = true → get s Reg.hbStatusDstate = 3 →
    ∃ t, exec .d0Return s = .next t ∧ get t Reg.hbStatusDstate = 0 ∧
      (flag t Reg.hbStatusP48Up = true → s.host.msixEn = true →
        ∀ v ∈ s.host.msixPend, v ∉ s.host.msixMask → Out.vector v ∈ t.io.out ∧ v ∉ t.host.msixPend)) ∧
  (∀ (s : State) (st : Fin 4), flag s Reg.hbStatusDlActive = true → st.val ≠ 0 →
    exec (.aspmL1Entry st) s = .next (put s Reg.hbStatusAspm st)) ∧
  (∀ (s : State) (t0 : Nat), s.host.peWakeAt = some t0 → t0 + 1000000000 ≤ s.time.now →
    ∃ t, exec .peWakeRelease s = .next t ∧ get t Reg.hbStatusPeWake = 0 ∧ t.host.peWakeAt = none ∧
      regsSame s t [Reg.hbStatusPeWake]) ∧
  (∀ (s : State) (k : HostResetKind),
    ∃ t, exec (.hostInterfaceReset k) s = .next t ∧ t.host.rings = [] ∧ t.host.msixEn = false ∧
      (s.host.posted = [] → t.host.msixPend = []) ∧ t.host.msixMask = List.range 80 ∧
      (∀ i : Fin 32, semOwner t i ≠ 1) ∧ get t Reg.stageStatusOwner ≠ 1 ∧ get t Reg.hbStatusP48Up = 0 ∧
      (∀ r : Fin 64, get t (Reg.ringCfgEn r) = 0 ∧ get t (Reg.ringHeadHead r) = 0) ∧
      (∀ e ∈ s.host.ledger, e ∈ t.host.ledger) ∧
      t = { s with
        regs := t.regs, accum := t.accum, intc := t.intc, host := t.host, net := t.net, io := t.io, freeCtr := t.freeCtr })

/-- Enabled unmasked vectors are sent; cores reach host memory only through their windows (R328, R329, R331, R340,
R359). Where a clause rests on the model's own reading or choice: log entries 114, 116, 137, 115. -/
def Obligations.VectorsAndOutboundAccesses : Prop :=
  (∀ (s : State) (n : Nat), configServed s = true → p48Up s = true → n < 2048 → srcState s n = 1 → srcEn s n = true →
    srcTarget s n = 5 → pendVector s n ∉ s.host.msixMask →
    ∃ t, exec .msixEnable s = .next t ∧ t.host.msixEn = true ∧ Out.vector (pendVector s n) ∈ t.io.out ∧
      pendVector s n ∉ t.host.msixPend) ∧
  (∀ (s : State) (v : Fin 80), endpointOn s = true → aloft s = true → p48Up s = true → s.host.msixEn = true →
    v.val ∈ s.host.msixPend → v.val ∉ s.host.msixMask.erase v.val →
    ∃ t, exec (.msixVectorUnmask v) s = .next t ∧ Out.vector v.val ∈ t.io.out ∧ v.val ∉ t.host.msixPend ∧
      t.host.msixMask = s.host.msixMask.erase v.val ∧
      t = { s with regs := t.regs, accum := t.accum, host := t.host, io := t.io }) ∧
  (∀ (s : State) (c : Fin 4) (addr : Nat) (d : List Byte) (f : Nat), aloft s = true →
    gcHeld s c = false → findWindow s addr d.length = some f → bitAt f 2 = true → bitAt f 1 = false →
    p48Up s = true →
    ∃ t, exec (.gcOutboundWrite c addr d false) s = .next t ∧
      t.io.out = .hostWrite addr d :: ((s.host.posted.map fun o => .hostWrite o.addr o.data).reverse ++ s.io.out) ∧
      t.host.posted = [] ∧ t.io.resp.find (c.val + 1) = some .done ∧ t = { s with
        regs := t.regs, accum := t.accum, host := { s.host with posted := [] }, io := t.io }) ∧
  (∀ (s : State) (c : Fin 4) (addr : Nat) (d : List Byte) (f : Nat), aloft s = true →
    gcHeld s c = false → findWindow s addr d.length = some f → bitAt f 2 = true → bitAt f 1 = false →
    p48Up s = true → s.host.posted.length < 64 →
    ∃ t, exec (.gcOutboundWrite c addr d true) s = .next t ∧ t.host.posted = s.host.posted ++ [⟨c.val, addr, d⟩] ∧
      t.io.out = s.io.out ∧ t.io.resp.find (c.val + 1) = some .done ∧
      t = { s with host := { s.host with posted := t.host.posted }, io := t.io }) ∧
  (∀ (s : State) (c : Fin 4) (addr : Nat) (d : List Byte) (f : Nat), aloft s = true →
    gcHeld s c = false → findWindow s addr d.length = some f → bitAt f 2 = true → bitAt f 1 = false →
    p48Up s = true → 64 ≤ s.host.posted.length → exec (.gcOutboundWrite c addr d true) s = .next s) ∧
  (∀ (s : State) (c : Fin 4) (addr : Nat) (d : List Byte) (f : Nat) (st : Bool), aloft s = true →
    gcHeld s c = false → findWindow s addr d.length = some f → bitAt f 2 = true → bitAt f 1 = true →
    p48Up s = true →
    ∃ t, exec (.gcOutboundWrite c addr d st) s = .next t ∧ Out.hostWrite addr d ∈ t.io.out ∧
      t.host.openReads.find c.val = some (.ackWrite (lastDw addr d.length)) ∧
      (st = true → t.host.retry.find c.val = some s.time.now)) ∧
  (∀ (s : State) (c : Fin 4) (addr : Nat) (d : List Byte) (st : Bool), aloft s = true → gcHeld s c = false →
    ((findWindow s addr d.length).all fun f => !bitAt f 2) = true →
    ∃ t, exec (.gcOutboundWrite c addr d st) s = .next t ∧
      (s.host.ledger.length < 64 →
        t.host.ledger = s.host.ledger ++ [⟨addr, 7, 3 + c.val, 2, tempoNo s % 2 ^ 16⟩] ∧
        get t Reg.ledgerOvf = get s Reg.ledgerOvf) ∧
      (64 ≤ s.host.ledger.length → t.host.ledger = s.host.ledger ∧
        get t Reg.ledgerOvf = min (2 ^ Reg.ledgerOvf.width - 1) (get s Reg.ledgerOvf + 1)) ∧
      t.host.posted = s.host.posted ∧ t.io.resp.find (c.val + 1) = some .done ∧
      (∀ o ∈ t.io.out, o ∈ s.io.out ∨ (∃ v, o = .vector v) ∨ o = .pme ∨ ∃ g f, o = .coreInterrupt g f)) ∧
  (∀ (s : State) (c : Fin 4) (addr : Nat) (d : List Byte) (f : Nat) (st : Bool), aloft s = true →
    gcHeld s c = false → findWindow s addr d.length = some f → bitAt f 2 = true → p48Up s = false →
    ∃ t, exec (.gcOutboundWrite c addr d st) s = .next t ∧
      (bitAt f 1 = true → t.io.resp.find (c.val + 1) = some .busError ∧ t = { s with io := t.io }) ∧
      (bitAt f 1 = false → t.io.resp.find (c.val + 1) = some .done ∧
        (s.host.ledger.length < 64 →
          t.host.ledger = s.host.ledger ++ [⟨addr, 8, 3 + c.val, 2, tempoNo s % 2 ^ 16⟩]) ∧
        (64 ≤ s.host.ledger.length → t.host.ledger = s.host.ledger ∧
          get t Reg.ledgerOvf = min (2 ^ Reg.ledgerOvf.width - 1) (get s Reg.ledgerOvf + 1))) ∧
      t.host.posted = s.host.posted ∧ t.host.openReads = s.host.openReads) ∧
  (∀ (s : State) (c : Fin 4) (addr len f : Nat), aloft s = true → gcHeld s c = false →
    findWindow s addr len = some f → p48Up s = true →
    ∃ t, exec (.gcOutboundRead c addr len false) s = .next t ∧
      t.io.out = .hostRead addr len :: ((s.host.posted.map fun o => .hostWrite o.addr o.data).reverse ++ s.io.out) ∧
      t.host.openReads.find c.val = some (.read addr len) ∧
      t = { s with regs := t.regs, accum := t.accum, host := t.host, io := t.io }) ∧
  (∀ (s : State) (c : Fin 4) (addr len : Nat) (st : Bool), aloft s = true → gcHeld s c = false →
    findWindow s addr len = none ∨ p48Up s = false →
    ∃ t, exec (.gcOutboundRead c addr len st) s = .next t ∧ t.io.resp.find (c.val + 1) = some .busError ∧
      t = { s with io := t.io }) ∧
  (∀ (s : State) (c : Fin 4) (addr len f : Nat), aloft s = true → gcHeld s c = false →
    findWindow s addr len = some f → p48Up s = true →
    ∃ t, exec (.gcOutboundRead c addr len true) s = .next t ∧
      t.io.out = (s.host.posted.map fun o => .hostWrite o.addr o.data).reverse ++ s.io.out ∧
      t.host.retry.find c.val = some s.time.now) ∧
  (∀ (s : State) (c : Fin 5) (t0 : Nat) (o : OpenRead), c.val < 4 → s.host.retry.find c.val = some t0 →
    s.host.openReads.find c.val = some o → t0 + 1000 ≤ s.time.now →
    ∃ t, exec (.stalemateRetry c false) s = .next t ∧
      t.io.out = .hostRead (openAddr o).1 (openAddr o).2 :: s.io.out ∧
      t.host.retry.find c.val = none ∧ t.host.openReads.find c.val = some o ∧ regsSame s t [Reg.hbStatusAspm] ∧
      t = { s with regs := t.regs, host := t.host, io := t.io }) ∧
  (∀ (s : State) (r t0 : Nat), s.host.fetchRetry = some (r, t0) → t0 + 1000 ≤ s.time.now → fetchMay s = true →
    txServable s r = true → txRoom s (headDesc s r) = true →
    ∃ t, exec (.stalemateRetry 4 false) s = .next t ∧ t.host.fetchRetry = none ∧
      t.host.fetching = some (r, get s (Reg.ringHeadHead r)) ∧
      Out.hostRead (get s (Reg.ringDescBase r) + 32 * get s (Reg.ringHeadHead r)) 32 ∈ t.io.out) ∧
  (∀ (s : State) (c : Fin 4) (addr len : Nat) (b : List Byte),
    (s.host.openReads.find c.val = some (.read addr len) ∨ s.host.openReads.find c.val = some (.exclLoad addr len)) →
    s.host.retry.has c.val = false →
    ∃ t, exec (.outboundReadCompletion c (.data b)) s = .next t ∧ t.io.resp.find (c.val + 1) = some (.data (leNat b)) ∧
      t.host.openReads.find c.val = none ∧ t = { s with host := t.host, io := t.io }) ∧
  (∀ (s : State) (c : Fin 4) (o : OpenRead), s.host.openReads.find c.val = some o → s.host.retry.has c.val = false →
    ∃ t, exec (.outboundReadCompletion c .timeout) s = .next t ∧ t.io.resp.find (c.val + 1) = some .busError ∧
      bitAt t.io.aer 14 = true ∧ t.host.openReads.find c.val = none ∧ t = { s with host := t.host, io := t.io })

/-- A semaphore has one owner at a time; a ledger read returns and removes the reader's oldest entry (R332, R333,
R334). Where a clause rests on the model's own reading or choice: log entries 2, 116, 114. -/
def Obligations.SemaphoresAndLedger : Prop :=
  (∀ (s : State) (c : Fin 4) (addr len f : Nat), aloft s = true → gcHeld s c = false →
    findWindow s addr len = some f → p48Up s = true → semOwner s (semOf addr) = 0 →
    ∃ t, exec (.semExclusiveLoad c addr ⟨len, false⟩) s = .next t ∧ semOwner t (semOf addr) = 3 + c.val ∧
      t.host.semSince.find (semOf addr) = some s.time.now ∧
      t.host.openReads.find c.val = some (.exclLoad addr len) ∧
      t.io.out = .hostRead addr len :: ((s.host.posted.map fun o => .hostWrite o.addr o.data).reverse ++ s.io.out) ∧
      regsSame s t [Reg.semOwner (semOf addr), Reg.hbStatusAspm] ∧
      t = { s with regs := t.regs, accum := t.accum, host := t.host, io := t.io }) ∧
  (∀ (s : State) (c : Fin 4) (addr len f : Nat), aloft s = true → gcHeld s c = false →
    findWindow s addr len = some f → p48Up s = true → semOwner s (semOf addr) = 0 →
    ∃ t, exec (.semExclusiveLoad c addr ⟨len, true⟩) s = .next t ∧ semOwner t (semOf addr) = 3 + c.val ∧
      t.host.openReads.find c.val = some (.exclLoad addr len) ∧ t.host.retry.find c.val = some s.time.now ∧
      t.io.out = (s.host.posted.map fun o => .hostWrite o.addr o.data).reverse ++ s.io.out) ∧
  (∀ (s : State) (c : Fin 4) (addr len f : Nat) (st : Bool), aloft s = true → gcHeld s c = false →
    findWindow s addr len = some f → p48Up s = true → semOwner s (semOf addr) = 3 + c.val →
    ∃ t, exec (.semExclusiveLoad c addr ⟨len, st⟩) s = .next t ∧ semOwner t (semOf addr) = 3 + c.val ∧
      t.host.semSince = s.host.semSince ∧ t.host.openReads.find c.val = some (.exclLoad addr len)) ∧
  (∀ (s : State) (c : Fin 4) (addr len f : Nat) (st : Bool), aloft s = true → gcHeld s c = false →
    findWindow s addr len = some f → p48Up s = true → semOwner s (semOf addr) ≠ 0 →
    semOwner s (semOf addr) ≠ 3 + c.val →
    exec (.semExclusiveLoad c addr ⟨len, st⟩) s =
      .next { s with host.semWait := s.host.semWait.set c.val (addr, len, semOf addr, s.time.now) }) ∧
  (∀ (s : State) (c : Fin 4) (addr : Nat) (d : List Byte) (f : Nat) (st : Bool), aloft s = true → gcHeld s c = false →
    findWindow s addr d.length = some f → bitAt f 2 = true → p48Up s = true →
    semOwner s (semOf addr) = 3 + c.val → s.host.semWait = [] →
    ∃ t, exec (.semExclusiveStore c addr ⟨d, st⟩) s = .next t ∧ semOwner t (semOf addr) = 0 ∧
      Out.hostWrite addr d ∈ t.io.out ∧ t.host.openReads.find c.val = some (.exclStore (lastDw addr d.length)) ∧
      (st = true → t.host.retry.find c.val = some s.time.now)) ∧
  (∀ (s : State) (c : Fin 4) (addr : Nat) (d : List Byte) (f w a l t0 : Nat) (st : Bool), aloft s = true →
    gcHeld s c = false → findWindow s addr d.length = some f → bitAt f 2 = true → p48Up s = true →
    semOwner s (semOf addr) = 3 + c.val → semWaiter s (semOf addr) = some (w, a, l, t0) → w < 4 → w ≠ c.val →
    ∃ t, exec (.semExclusiveStore c addr ⟨d, st⟩) s = .next t ∧ semOwner t (semOf addr) = 3 + w ∧
      t.host.semSince.find (semOf addr) = some s.time.now ∧ t.host.semWait = s.host.semWait.del w ∧
      t.host.openReads.find w = some (.exclLoad a l) ∧ Out.hostWrite addr d ∈ t.io.out ∧
      t.host.openReads.find c.val = some (.exclStore (lastDw addr d.length))) ∧
  (∀ (s : State) (c : Fin 4) (addr : Nat) (d : List Byte) (f : Nat) (st : Bool), aloft s = true → gcHeld s c = false →
    findWindow s addr d.length = some f → bitAt f 2 = true → semOwner s (semOf addr) ≠ 3 + c.val →
    ∃ t, exec (.semExclusiveStore c addr ⟨d, st⟩) s = .next t ∧ t.io.resp.find (c.val + 1) = some .exclFailed ∧
      t = { s with io := t.io }) ∧
  (∀ (s : State) (c : Fin 4) (a l i t0 : Nat) (st : Bool), s.host.semWait.find c.val = some (a, l, i, t0) →
    t0 + 10000 ≤ s.time.now →
    ∃ t, exec (.semWaitTimeout ⟨c, st⟩) s = .next t ∧ t.host.semWait.find c.val = none ∧
      get t Reg.brSemSemWaitFails = min (2 ^ Reg.brSemSemWaitFails.width - 1) (get s Reg.brSemSemWaitFails + 1) ∧
      t.host.openReads.find c.val = some (.exclLoad a l) ∧
      (st = false → Out.hostRead a l ∈ t.io.out ∧ regsSame s t [Reg.brSemSemWaitFails, Reg.hbStatusAspm]) ∧
      (st = true → t.host.retry.find c.val = some s.time.now ∧
        regsSame s t [Reg.brSemSemWaitFails, Reg.brRetriesStalemateRetries])) ∧
  (∀ (s : State) (c : Fin 4) (i : Nat),
    ((List.range 32).find? fun i => semOwner s i == 3 + c.val &&
      (s.host.semSince.find i).all fun t => decide (t + 10000 ≤ s.time.now)) = some i → s.host.semWait = [] →
    ∃ t, exec (.semHoldTimeout c) s = .next t ∧ semOwner t i = 0 ∧
      get t Reg.brSemSemTimeouts = min (2 ^ Reg.brSemSemTimeouts.width - 1) (get s Reg.brSemSemTimeouts + 1) ∧
      regsSame s t [Reg.semOwner i, Reg.brSemSemTimeouts]) ∧
  (∀ (s : State) (c : Fin 4) (i w a l t0 : Nat),
    ((List.range 32).find? fun i => semOwner s i == 3 + c.val &&
      (s.host.semSince.find i).all fun t => decide (t + 10000 ≤ s.time.now)) = some i →
    semWaiter s i = some (w, a, l, t0) → w < 4 →
    ∃ t, exec (.semHoldTimeout c) s = .next t ∧ semOwner t i = 3 + w ∧
      t.host.semSince.find i = some s.time.now ∧ t.host.semWait = s.host.semWait.del w ∧
      t.host.openReads.find w = some (.exclLoad a l) ∧
      get t Reg.brSemSemTimeouts = min (2 ^ Reg.brSemSemTimeouts.width - 1) (get s Reg.brSemSemTimeouts + 1)) ∧
  (∀ (s : State) (m : Master) (i : Fin 32), (m = .host ∨ m = .spi) → accepts s m (0x100100 + 4 * i.val) = true →
    semOwner s i = 0 →
    ∃ t, exec (.semTake m i) s = .next t ∧ semOwner t i = origin m ∧ regsSame s t [Reg.semOwner i] ∧
      t = { s with regs := t.regs, io := t.io }) ∧
  (∀ (s : State) (m : Master) (i : Fin 32), (m = .host ∨ m = .spi) → accepts s m (0x100100 + 4 * i.val) = true →
    semOwner s i = origin m → s.host.semWait = [] →
    ∃ t, exec (.semRelease m i) s = .next t ∧ semOwner t i = 0 ∧ regsSame s t [Reg.semOwner i] ∧
      t = { s with regs := t.regs, io := t.io }) ∧
  (∀ (s : State) (m : Master) (i : Fin 32) (c a l t0 : Nat), (m = .host ∨ m = .spi) →
    accepts s m (0x100100 + 4 * i.val) = true → semOwner s i = origin m → semWaiter s i = some (c, a, l, t0) → c < 4 →
    ∃ t, exec (.semRelease m i) s = .next t ∧ semOwner t i = 3 + c ∧
      t.host.openReads.find c = some (.exclLoad a l) ∧ t.host.semWait = s.host.semWait.del c) ∧
  (∀ (s : State) (m : Master) (e : LedgerEntry), yields s m 0x10002C = true → ledgerOldest s (origin m) = some e →
    ∃ t, exec (.ledgerRead m) s = .next t ∧
      t.io.resp.find (mcode m) =
        some (.data (e.code + e.origin * 2 ^ 4 + e.space * 2 ^ 8 + 2 ^ 10 + e.tempo * 2 ^ 16)) ∧
      t.host.ledger = ledgerRemove (origin m) s.host.ledger ∧
      t.host.ledger.length + 1 = s.host.ledger.length ∧ t = { s with host := t.host, cpu := t.cpu, io := t.io }) ∧
  (∀ (s : State) (m : Master), yields s m 0x10002C = true → ledgerOldest s (origin m) = none →
    ∃ t, exec (.ledgerRead m) s = .next t ∧ t.io.resp.find (mcode m) = some (.data 0) ∧
      t = { s with cpu := t.cpu, io := t.io })

/-- Rings are enabled afresh, tails post descriptors, fetches and completions follow head and order (R337, R339,
R340). Where a clause rests on the model's own reading or choice: log entries 33, 115. -/
def Obligations.RingsAndTheirCompletions : Prop :=
  (∀ (s : State) (m : Master) (r : Fin 64) (w : Word), accepts s m (0x101010 + 0x40 * r.val) = true →
    flag s (Reg.ringCfgEn r) = false → bitAt w.toNat 4 = true →
    ∃ t, exec (.ringEnable m r w) s = .next t ∧ get t (Reg.ringCfgEn r) = 1 ∧ get t (Reg.ringHeadHead r) = 0 ∧
      get t (Reg.ringTail r) = 0 ∧ get t (Reg.ringHeadStopped r) = 0 ∧
      get t (Reg.ringCfgSizeLog2 r) = bitsAt w.toNat 0 4 ∧ ringOf t r = freshRing ∧
      regsSame s t [Reg.ringCfgSizeLog2 r, Reg.ringCfgTs r, Reg.ringCfgEn r, Reg.ringHeadHead r, Reg.ringTail r,
        Reg.ringHeadStopped r] ∧
      t = { s with regs := t.regs, host := t.host, cpu := t.cpu, io := t.io }) ∧
  (∀ (s : State) (m : Master) (r : Fin 64) (w : Word) (ds : List Descriptor),
    accepts s m (0x101014 + 0x40 * r.val) = true → flag s (Reg.ringCfgEn r) = true →
    ∃ t, exec (.ringTail m r w ds) s = .next t ∧ get t (Reg.ringTail r) = bitsAt w.toNat 0 16 ∧
      (ringOf t r).descs = postDescs (ringOf s r).descs (ringSize s r) (get s (Reg.ringTail r) % ringSize s r) ds ∧
      regsSame s t [Reg.ringTail r]) ∧
  (∀ (s : State) (r : Fin 64) (t0 : Nat), (ringOf s r).firstAt = some t0 → get s (Reg.ringModModTimer r) ≠ 0 →
    t0 + min 1000 (get s (Reg.ringModModTimer r)) * 1000 ≤ s.time.now → p48Up s = true → s.host.msixEn = true →
    r.val ∉ s.host.msixMask →
    ∃ t, exec (.modTimer r) s = .next t ∧ t.io.out = .vector r.val :: s.io.out ∧ (ringOf t r).firstAt = none ∧
      (ringOf t r).unsignalled = 0) ∧
  (∀ (s : State) (r left : Nat), aloft s = true → p48Up s = true → s.host.fetching = none → ingressClosed s = false →
    s.host.fetchRetry = none →
    txNext s = some (r, left) → txRoom s (headDesc s r) = true →
    ∃ t, exec (.txFetch false) s = .next t ∧ t.host.fetching = some (r, get s (Reg.ringHeadHead r)) ∧
      t.host.wrrRing = r ∧ t.host.wrrLeft = left - 1 ∧
      Out.hostRead (get s (Reg.ringDescBase r) + 32 * get s (Reg.ringHeadHead r)) 32 ∈ t.io.out ∧
      t = { s with regs := t.regs, accum := t.accum, host := t.host, io := t.io }) ∧
  (∀ (s : State) (r left : Nat), fetchMay s = true → s.host.fetchRetry = none → txNext s = some (r, left) →
    txRoom s (headDesc s r) = true →
    ∃ t, exec (.txFetch true) s = .next t ∧ t.host.fetchRetry = some (r, s.time.now) ∧ t.host.fetching = none ∧
      get t Reg.brRetriesStalemateRetries =
        min (2 ^ Reg.brRetriesStalemateRetries.width - 1) (get s Reg.brRetriesStalemateRetries + 1) ∧
      t = { s with regs := t.regs, accum := t.accum, host := { s.host with fetchRetry := t.host.fetchRetry } }) ∧
  (∀ (s : State) (r h : Nat) (res : FetchResult), r < 64 → s.host.fetching = some (r, h) → txServable s r = true →
    get s (Reg.ringHeadHead r) = h → res = .descError ∨ (res = .frameError ∧ txDescOk (headDesc s r) = true) →
    ∃ t, exec (.txFetchDone res) s = .next t ∧ t.host.fetching = none ∧ get t (Reg.ringHeadStopped r) = 1 ∧
      (ringOf t r).waiting = (ringOf s r).waiting ++ [⟨h, slice (headDesc s r) 12 4, 2, none, true, none⟩] ∧
      regsSame s t [Reg.ringHeadHead r, Reg.ringHeadStopped r]) ∧
  (∀ (s : State) (r h : Nat) (bytes : List Byte), r < 64 → s.host.fetching = some (r, h) → txServable s r = true →
    get s (Reg.ringHeadHead r) = h → txDescOk (headDesc s r) = true →
    etypeAt (slice bytes 0 (leAt (headDesc s r) 8 2)) 12 ≠ 0x8808 → ingressClosed s = false →
    ((keepFilters s).all fun b => !(u8 b 1 == 2 && leAt b 2 2 == 48)) = true →
    ∃ t, exec (.txFetchDone (.frame bytes)) s = .next t ∧ t.host.fetching = none ∧
      (∃ pk, packetOf t s.net.nextUid = some pk ∧ pk.bytes = slice bytes 0 (leAt (headDesc s r) 8 2) ∧ pk.port = 48 ∧
        pk.tail = 0 ∧ pk.decided = false) ∧ t.net.nextUid = s.net.nextUid + 1 ∧
      (bitAt (leAt (headDesc s r) 10 2) 0 = false → (ringOf t r).waiting =
        (ringOf s r).waiting ++ [⟨h, slice (headDesc s r) 12 4, 0, none, true, none⟩]) ∧
      (bitAt (leAt (headDesc s r) 10 2) 0 = true → (ringOf t r).waiting =
        (ringOf s r).waiting ++ [⟨h, slice (headDesc s r) 12 4, 3, none, false, some s.net.nextUid⟩]) ∧
      get t (Reg.ringFrames r) = min (2 ^ (Reg.ringFrames r).width - 1) (get s (Reg.ringFrames r) + 1) ∧
      regsSame s t [Reg.ringFrames r, Reg.ringHeadHead r] ∧
      t = { s with regs := t.regs, accum := t.accum, host := t.host, net := t.net }) ∧
  (∀ (s : State) (r h : Nat) (res : FetchResult), r < 64 → s.host.fetching = some (r, h) → txServable s r = true →
    get s (Reg.ringHeadHead r) = h → txDescOk (headDesc s r) = false → res ≠ .descError →
    ∃ t, exec (.txFetchDone res) s = .next t ∧ t.host.fetching = none ∧
      (ringOf t r).waiting = (ringOf s r).waiting ++ [⟨h, slice (headDesc s r) 12 4, 1, none, true, none⟩] ∧
      get t (Reg.ringErrBadDesc r) = min (2 ^ (Reg.ringErrBadDesc r).width - 1) (get s (Reg.ringErrBadDesc r) + 1) ∧
      regsSame s t [Reg.ringErrBadDesc r, Reg.ringHeadHead r] ∧ t.net = s.net) ∧
  (∀ (s : State) (r h : Nat) (res : FetchResult), s.host.fetching = some (r, h) → txServable s r = false →
    exec (.txFetchDone res) s = .next { s with host.fetching := none }) ∧
  (∀ (s : State) (r : Fin 64) (w : TxWait) (l : List TxWait), (ringOf s r).waiting = w :: l → p48Up s = true →
    w.ready = true →
    ∃ t, exec (.txCompletion r) s = .next t ∧ (ringOf t r).waiting = l ∧
      Out.hostWrite (get s (Reg.ringCplBase r) + 16 * w.idx)
        (leBytes 8 (txStatus w).2 ++ slice w.cookie 0 4 ++ leBytes 2 w.idx ++ leBytes 1 (txStatus w).1 ++
          leBytes 1 (128 * b2n (waitPhase s r w.idx))) ∈ t.io.out)

/-- CMT writes and STAGE_CTL commands act for whoever may stage; others are rejected and counted (R66, R67). Where a
clause rests on the model's own reading or choice: log entries 19, 20, 21, 17. -/
def Obligations.StagingBelongsToItsOwner : Prop :=
  (∀ (s : State) (m : Master) (a : Nat) (v : Word) (f : Fld) (k : Nat), accepts s m a = true → stageMay s m = true →
    (f, k) ∈ fieldsAt 0 a → ((fieldsAt 0 a).map fun e => e.1.key).Nodup → f.ty = .cmt → f.width ≤ 32 →
    cmtLive s f = true →
    ∃ t, exec (.cmtWrite m a v) s = .next t ∧ t.env.staged.find f.key = some (bitsAt v.toNat f.lsb f.width) ∧
      get t Reg.stageStatusOwner = ownerCode m ∧ t.env.cmt = s.env.cmt ∧ t.env.policy = s.env.policy ∧
      regsSame s t [Reg.stageStatusOwner, Reg.stageStatusCmtDirty] ∧
      t = { s with regs := t.regs, env := t.env, cpu := t.cpu, io := t.io }) ∧
  (∀ (s : State) (m : Master) (a : Nat) (v : Word), accepts s m a = true → stageMay s m = false → hasCmt a = true →
    ∃ t, exec (.cmtWrite m a v) s = .next t ∧ t.env = s.env ∧
      get t Reg.stageStatusRejects = min (2 ^ Reg.stageStatusRejects.width - 1) (get s Reg.stageStatusRejects + 1)) ∧
  (∀ (s : State) (m : Master), accepts s m 0x40050 = true → stageMay s m = true →
    ∃ t, exec (.stageClaim m) s = .next t ∧ get t Reg.stageStatusOwner = ownerCode m ∧
      regsSame s t [Reg.stageStatusOwner] ∧ t = { s with regs := t.regs, cpu := t.cpu, io := t.io }) ∧
  (∀ (s : State) (m : Master), accepts s m 0x40050 = true → isOwner s m = true → stageMay s m = true →
    ∃ t, exec (.stageRelease m) s = .next t ∧ get t Reg.stageStatusOwner = 0 ∧ regsSame s t [Reg.stageStatusOwner] ∧
      t = { s with regs := t.regs, cpu := t.cpu, io := t.io }) ∧
  (∀ (s : State) (m : Master), accepts s m 0x40050 = true → isOwner s m = true → stageMay s m = true →
    ∃ t, exec (.stageDiscard m) s = .next t ∧ get t Reg.stageStatusOwner = 0 ∧ t.env.items = [] ∧ t.env.staged = [] ∧
      get t Reg.stageStatusItems = 0 ∧ get t Reg.stageStatusCmtDirty = 0 ∧
      regsSame s t [Reg.stageStatusOwner, Reg.stageStatusItems, Reg.stageStatusCmtDirty] ∧
      t = { s with regs := t.regs, env := t.env, cpu := t.cpu, io := t.io }) ∧
  (∀ (s : State) (m : Master) (kind : Fin 4) (it : StageItem), accepts s m 0x40050 = true → stageMay s m = true →
    pushItem s kind = some it →
    ∃ t, exec (.stagePush m kind) s = .next t ∧ t.env.items = s.env.items ++ [it] ∧
      get t Reg.stageStatusItems = s.env.items.length + 1 ∧ get t Reg.stageStatusOwner = ownerCode m ∧
      regsSame s t [Reg.stageStatusOwner, Reg.stageStatusItems] ∧
      t = { s with regs := t.regs, env := t.env, cpu := t.cpu, io := t.io }) ∧
  (∀ (s : State) (m : Master) (kind : Fin 4), accepts s m 0x40050 = true → pushItem s kind = none →
    ∃ t, exec (.stagePush m kind) s = .next t ∧ t.env = s.env ∧
      get t Reg.stageStatusRejects = min (2 ^ Reg.stageStatusRejects.width - 1) (get s Reg.stageStatusRejects + 1))

/-- COMMIT is refused EMPTY or BUSY, waits for a slot or prepares one; COMMIT_ARM sets its tempo or fails it (R70,
R72, R73). Where a clause rests on the model's own reading or choice: log entries 46, 47, 48, 49, 20. -/
def Obligations.CommitsAreJudgedAndArmed : Prop :=
  (∀ (s : State) (m : Master), accepts s m 0x40070 = true → isOwner s m = true → get s Reg.commitStatusState = 0 →
    s.env.handover = false → s.env.items = [] → s.env.staged = [] →
    ∃ t, exec (.commitReq m) s = .next t ∧ get t Reg.commitStatusResult = 3 ∧
      regsSame s t (Reg.commitStatusResult :: raiseFields 16) ∧ t.env = s.env) ∧
  (∀ (s : State) (m : Master), accepts s m 0x40070 = true → isOwner s m = true → get s Reg.commitStatusState ≠ 0 →
    ∃ t, exec (.commitReq m) s = .next t ∧ get t Reg.commitStatusResult = 2 ∧
      regsSame s t (Reg.commitStatusResult :: raiseFields 16) ∧ t.env = s.env) ∧
  (∀ (s : State) (m : Master), accepts s m 0x40070 = true → isOwner s m = true → get s Reg.commitStatusState = 0 →
    s.env.handover = false → (s.env.items.isEmpty && s.env.staged.isEmpty) = false → freeSlot s = none →
    ∃ t, exec (.commitReq m) s = .next t ∧ get t Reg.commitStatusState = 2 ∧ get t Reg.stageStatusLocked = 1 ∧
      get t Reg.commitStatsWaits = min (2 ^ Reg.commitStatsWaits.width - 1) (get s Reg.commitStatsWaits + 1) ∧
      t.env.items = s.env.items ∧ t.env.policy = s.env.policy ∧ t.env.cmt = s.env.cmt ∧
      regsSame s t [Reg.commitStatusState, Reg.stageStatusLocked, Reg.commitStatusLateCancel, Reg.commitStatsWaits]) ∧
  (∀ (s : State) (m : Master) (i : Nat), accepts s m 0x40070 = true → isOwner s m = true →
    get s Reg.commitStatusState = 0 → s.env.handover = false →
    (s.env.items.isEmpty && s.env.staged.isEmpty) = false → freeSlot s = some i →
    ∃ t, exec (.commitReq m) s = .next t ∧ curSlot t = curSlot s ∧
      (tooLarge s (someGc s) (jobBound s .prepare) = false → get t Reg.commitStatusState = 3 ∧
        get t Reg.commitStatusSlot = i ∧ slotState t i = 1 ∧ get t Reg.stageStatusLocked = 1 ∧
        t.env.items = s.env.items) ∧
      (tooLarge s (someGc s) (jobBound s .prepare) = true → get t Reg.commitStatusState = 0 ∧
        get t Reg.commitStatusResult = 7)) ∧
  (∀ (s : State), get s Reg.commitStatusState = 3 → s.env.prepDone = true → s.env.prepFail = none →
    sheetWritable s = true → s.env.entryDone = true →
    ∃ t, exec .commitArm s = .next t ∧ get t Reg.commitStatusState = 4 ∧
      t.env.t0 = max (boundaryAfter s 2000) s.env.commitAt ∧ t.env.policy = s.env.policy ∧ t.env.cmt = s.env.cmt ∧
      get t Reg.commitT0 = max (boundaryAfter s 2000) s.env.commitAt % 2 ^ 64) ∧
  (∀ (s : State), get s Reg.commitStatusState = 3 → s.env.prepDone = true → s.env.prepFail = none →
    sheetWritable s = true → s.env.entryDone = false → exec .commitArm s = .next s) ∧
  (∀ (s : State), get s Reg.commitStatusState = 3 → s.env.prepDone = true → s.env.prepFail = none →
    sheetWritable s = false →
    ∃ t, exec .commitArm s = .next t ∧ get t Reg.commitStatusState = 0 ∧ get t Reg.commitStatusResult = 8 ∧
      t.env.policy = s.env.policy.keep (fun k _ => k / 2 ^ 48 != get s Reg.commitStatusSlot)) ∧
  (∀ (s : State) (r j d : Nat), get s Reg.commitStatusState = 3 → s.env.prepDone = true →
    s.env.prepFail = some (r, j, d) →
    ∃ t, exec .commitArm s = .next t ∧ get t Reg.commitStatusState = 0 ∧
      get t Reg.commitStatusResult = r % 2 ^ Reg.commitStatusResult.width ∧
      get t Reg.commitStatusItem = j % 2 ^ Reg.commitStatusItem.width ∧
      get t Reg.commitStatusDetail = d % 2 ^ Reg.commitStatusDetail.width ∧
      get t Reg.commitStatsFails = min (2 ^ Reg.commitStatsFails.width - 1) (get s Reg.commitStatsFails + 1) ∧
      (get s Reg.commitStatusSlot < 4 → slotState t (get s Reg.commitStatusSlot) = 0) ∧
      (s.env.handover = false → get t Reg.stageStatusLocked = 0 ∧ get t Reg.stageStatusOwner = 0)) ∧
  (∀ (s : State) (m : Master), accepts s m 0x40070 = true → isOwner s m = true → get s Reg.commitStatusState ≠ 0 →
    s.env.handover = false → (get s Reg.commitStatusState = 4 → wcNow s + 2000 ≤ boundaryTime s s.env.t0) →
    ∃ t, exec (.commitCancel m) s = .next t ∧ get t Reg.commitStatusState = 0 ∧ get t Reg.commitStatusResult = 9 ∧
      (3 ≤ get s Reg.commitStatusState → get s Reg.commitStatusSlot < 4 →
        slotState t (get s Reg.commitStatusSlot) = 0) ∧
      get t Reg.stageStatusLocked = 0 ∧ get t Reg.stageStatusOwner = 0) ∧
  (∀ (s : State) (m : Master), accepts s m 0x40070 = true → isOwner s m = false →
    ∃ t, exec (.commitCancel m) s = .next t ∧ t.env = s.env ∧
      get t Reg.commitStatusState = get s Reg.commitStatusState ∧
      get t Reg.stageStatusRejects = min (2 ^ Reg.stageStatusRejects.width - 1) (get s Reg.stageStatusRejects + 1)) ∧
  (∀ (s : State) (m : Master), accepts s m 0x40070 = true → isOwner s m = true →
    get s Reg.commitStatusState = 0 ∨ s.env.handover = true →
    ∃ t, exec (.commitCancel m) s = .next t ∧ t = { s with cpu := t.cpu, io := t.io }) ∧
  (∀ (s : State) (m : Master), accepts s m 0x40070 = true → isOwner s m = true → get s Reg.commitStatusState = 4 →
    s.env.handover = false → boundaryTime s s.env.t0 < wcNow s + 2000 →
    ∃ t, exec (.commitCancel m) s = .next t ∧ get t Reg.commitStatusLateCancel = 1 ∧
      regsSame s t [Reg.commitStatusLateCancel] ∧ t.env = s.env)

/-- EPOCH_LATCH holds the current slot for its master; SLOT_FREE empties an unused draining slot (R76, R78). Where a
clause rests on the model's own reading or choice: log entry 49. -/
def Obligations.LatchesHoldAndFreeSlots : Prop :=
  (∀ (s : State) (m : Master), accepts s m 0x40090 = true →
    ∃ t, exec (.epochLatch m) s = .next t ∧ t.env.latches.find (conflictCode m) = some (curSlot s) ∧
      get t (Reg.epochLatchSlot (conflictCode m)) = curSlot s % 2 ^ (Reg.epochLatchSlot (conflictCode m)).width ∧
      get t (Reg.epochLatchValid (conflictCode m)) = 1 ∧
      regsSame s t [Reg.epochLatchSlot (conflictCode m), Reg.epochLatchValid (conflictCode m), Reg.epochStatusLatched] ∧
      t = { s with regs := t.regs, env := t.env, cpu := t.cpu, io := t.io }) ∧
  (∀ (s : State) (m : Master), accepts s m 0x40090 = true →
    ∃ t, exec (.epochLatchRelease m) s = .next t ∧ t.env.latches.find (conflictCode m) = none ∧
      get t (Reg.epochLatchValid (conflictCode m)) = 0 ∧
      regsSame s t [Reg.epochLatchValid (conflictCode m), Reg.epochStatusLatched] ∧
      t = { s with regs := t.regs, env := t.env, cpu := t.cpu, io := t.io }) ∧
  (∀ (s : State) (i : Fin 4), slotState s i = 3 → get s (Reg.inflightCount i) = 0 →
    (s.env.latches.any fun e => e.2 == i.val) = false → get s Reg.commitStatusState ≠ 2 →
    ∃ t, exec (.slotFree i) s = .next t ∧ slotState t i = 0 ∧ t.env.drainStart.find i = none ∧
      (∀ sect index, sect < 2 ^ 16 → index < 2 ^ 32 → recOf t i sect index = none) ∧
      (∀ j : Fin 4, j ≠ i → slotState t j = slotState s j)) ∧
  (∀ (s : State) (i : Fin 4), 0 < get s (Reg.inflightCount i) → exec (.slotFree i) s = .next s)

/-- SB_READ shows an entry and its seal, SB_RETIRE removes the oldest block against its hash only (R266, R270).
Where a clause rests on the model's own reading or choice: log entry 95. -/
def Obligations.ScoresheetReadsAndRetires : Prop :=
  (∀ (s : State) (m : Master) (w : Word), accepts s m 0xE0048 = true → bitAt w.toNat 0 = true →
    ∃ t, exec (.sbRead m w) s = .next t ∧ t.sheet.reading = true ∧ get t Reg.sbRdDone = 0 ∧
      regsSame s t [Reg.sbRdDone] ∧ t.sheet.entries = s.sheet.entries ∧
      t = { s with regs := t.regs, sheet := t.sheet, cpu := t.cpu, io := t.io }) ∧
  (∀ (s : State) (e : List Byte), s.sheet.reading = true → sheetFind s (get s Reg.sbRdSeq) = some e →
    ∃ t, exec .sbReadDone s = .next t ∧ get t Reg.sbRdDone = 1 ∧ t.sheet.reading = false ∧
      get t Reg.sbRdStatus = (if sealOk s e then 0 else 3) ∧ (∀ m < 32, get t (Reg.sbRdData m) = leAt e (4 * m) 4) ∧
      regsSame s t (Reg.sbRdDone :: Reg.sbRdStatus :: (List.range 32).map Reg.sbRdData) ∧
      t.sheet.entries = s.sheet.entries ∧ t = { s with regs := t.regs, sheet := t.sheet }) ∧
  (∀ s : State, s.sheet.reading = true → sheetFind s (get s Reg.sbRdSeq) = none →
    ∃ t, exec .sbReadDone s = .next t ∧ get t Reg.sbRdDone = 1 ∧ t.sheet.reading = false ∧
      get t Reg.sbRdStatus = (if get s Reg.sbRdSeq < s.sheet.nextSeq then 1 else 2) ∧
      regsSame s t [Reg.sbRdDone, Reg.sbRdStatus] ∧ t = { s with regs := t.regs, sheet := t.sheet }) ∧
  (∀ (s : State) (m : Master) (w : Word), accepts s m 0xE0100 = true → (m = .sp ∨ m = .host ∨ m = .spi) →
    bitAt w.toNat 8 = true → bitsAt w.toNat 0 8 ≠ s.sheet.oldest / 512 % 256 →
    ∃ t, exec (.sbRetire m w) s = .next t ∧ get t Reg.sbRetireResult = 2 ∧ regsSame s t [Reg.sbRetireResult] ∧
      t = { s with regs := t.regs, cpu := t.cpu, io := t.io }) ∧
  (∀ (s : State) (m : Master) (w : Word), accepts s m 0xE0100 = true → (m = .sp ∨ m = .host ∨ m = .spi) →
    bitAt w.toNat 8 = true → bitsAt w.toNat 0 8 = s.sheet.oldest / 512 % 256 → oldestLast s = none →
    ∃ t, exec (.sbRetire m w) s = .next t ∧ get t Reg.sbRetireResult = 3 ∧ regsSame s t [Reg.sbRetireResult] ∧
      t = { s with regs := t.regs, cpu := t.cpu, io := t.io }) ∧
  (∀ (s : State) (m : Master) (w : Word) (e : List Byte), accepts s m 0xE0100 = true → (m = .sp ∨ m = .host ∨ m = .spi) →
    bitAt w.toNat 8 = true → bitsAt w.toNat 0 8 = s.sheet.oldest / 512 % 256 → oldestLast s = some e →
    ∃ t, exec (.sbRetire m w) s = .next t ∧
      (slice (Config.sha256 e) 0 16 ≠ ((List.range 4).flatMap fun i => leBytes 4 (get s (Reg.sbRetireHash i))) →
        get t Reg.sbRetireResult = 4 ∧ regsSame s t [Reg.sbRetireResult] ∧ t.sheet = s.sheet) ∧
      (slice (Config.sha256 e) 0 16 = ((List.range 4).flatMap fun i => leBytes 4 (get s (Reg.sbRetireHash i))) →
        get t Reg.sbRetireResult = 1 ∧ t.sheet.oldest = s.sheet.oldest / 512 * 512 + 512 ∧ t.sheet.next = s.sheet.next ∧
        t.sheet.nextSeq = s.sheet.nextSeq ∧ (∀ k, t.sheet.entries.find k =
          if s.sheet.oldest / 512 * 512 + 512 ≤ k then s.sheet.entries.find k else none)))

/-- Revocations and imports are judged: refused ones change no key, accepted ones change their slot only (R243,
R251, R252). Where a clause rests on the model's own reading or choice: log entry 93. -/
def Obligations.KeysAreRevokedAndImported : Prop :=
  (∀ (s : State) (m : Master) (w : Word), accepts s m 0xC0034 = true → bitAt w.toNat 9 = true →
    8 ≤ bitsAt w.toNat 0 9 → revokeMay s m (bitsAt w.toNat 0 9) = true → slotReady s (bitsAt w.toNat 0 9) = true →
    (s.vault.revPend.any fun r => r.slot == bitsAt w.toNat 0 9) = false → s.vault.revPend.length < 8 →
    ∃ t, exec (.revoke m w) s = .next t ∧ get t Reg.revokeStatusResult = 1 ∧
      get t Reg.revokeStatusLastSlot = bitsAt w.toNat 0 9 ∧
      get t Reg.revokeStatusPending = s.vault.revPend.length + 1 ∧
      t.vault.revPend = s.vault.revPend ++ [⟨bitsAt w.toNat 0 9, conflictCode m, s.time.now⟩] ∧
      t.vault.slots = s.vault.slots ∧
      regsSame s t ([Reg.revokeStatusResult, Reg.revokeStatusLastSlot, Reg.revokeStatusPending] ++ raiseFields 20)) ∧
  (∀ (s : State) (m : Master) (w : Word), accepts s m 0xC0034 = true → bitAt w.toNat 9 = true →
    (bitsAt w.toNat 0 9 < 8 ∨ revokeMay s m (bitsAt w.toNat 0 9) = false) →
    ∃ t, exec (.revoke m w) s = .next t ∧ get t Reg.revokeStatusResult = 3 ∧ t.vault = s.vault ∧
      regsSame s t ([Reg.revokeStatusResult, Reg.revokeStatusLastSlot] ++ raiseFields 20)) ∧
  (∀ (s : State) (m : Master) (w : Word), accepts s m 0xC0034 = true → bitAt w.toNat 9 = true →
    8 ≤ bitsAt w.toNat 0 9 → revokeMay s m (bitsAt w.toNat 0 9) = true → slotReady s (bitsAt w.toNat 0 9) = true →
    (s.vault.revPend.any fun r => r.slot == bitsAt w.toNat 0 9) = false → 8 ≤ s.vault.revPend.length →
    ∃ t, exec (.revoke m w) s = .next t ∧ get t Reg.revokeStatusResult = 5 ∧ t.vault = s.vault ∧
      regsSame s t ([Reg.revokeStatusResult, Reg.revokeStatusLastSlot] ++ raiseFields 20)) ∧
  (∀ (s : State) (m : Master) (w : Word), accepts s m 0xC0034 = true → bitAt w.toNat 9 = true →
    8 ≤ bitsAt w.toNat 0 9 → revokeMay s m (bitsAt w.toNat 0 9) = true → slotReady s (bitsAt w.toNat 0 9) = false →
    ∃ t, exec (.revoke m w) s = .next t ∧ get t Reg.revokeStatusResult = 4 ∧
      get t Reg.revokeStatusLastSlot = bitsAt w.toNat 0 9 ∧ t.vault = s.vault ∧
      regsSame s t ([Reg.revokeStatusResult, Reg.revokeStatusLastSlot] ++ raiseFields 20)) ∧
  (∀ (s : State) (m : Master) (w : Word), accepts s m 0xC0034 = true → bitAt w.toNat 9 = true →
    8 ≤ bitsAt w.toNat 0 9 → revokeMay s m (bitsAt w.toNat 0 9) = true → slotReady s (bitsAt w.toNat 0 9) = true →
    (s.vault.revPend.any fun r => r.slot == bitsAt w.toNat 0 9) = true →
    ∃ t, exec (.revoke m w) s = .next t ∧ get t Reg.revokeStatusResult = 1 ∧ t.vault = s.vault ∧
      get t Reg.revokeStatusPending = get s Reg.revokeStatusPending ∧
      regsSame s t ([Reg.revokeStatusResult, Reg.revokeStatusLastSlot] ++ raiseFields 20)) ∧
  (∀ (s : State) (m : Master) (k : Fin 4), aloft s = true → masterRuns s .sp = true → (m = .host ∨ m = .spi) →
    (lifeCycle s = 1 ∨ lifeCycle s = 2) → bitAt s.otp.vkProg k = true → bitAt s.otp.vkRevoked k = false →
    ((List.range 4).any fun i => i != k && bitAt s.otp.vkProg i && !bitAt s.otp.vkRevoked i) = true →
    ∃ t, exec (.vkRevoke m k) s = .next t ∧ t.otp.vkRevoked = s.otp.vkRevoked ||| 2 ^ k.val ∧ asked s t 1 ∧
      regsSame s t [Reg.sbStatsLost] ∧ t = { s with
        regs := t.regs, accum := t.accum, otp := { s.otp with vkRevoked := t.otp.vkRevoked }, jobs := t.jobs,
        sheet := t.sheet }) ∧
  (∀ (s : State) (m : Master) (k : Fin 4),
    ((List.range 4).any fun i => i != k && bitAt s.otp.vkProg i && !bitAt s.otp.vkRevoked i) = false →
    exec (.vkRevoke m k) s = .next s) ∧
  (∀ (s : State) (m : Master) (w : Word), accepts s m 0xC0050 = true → bitAt w.toNat 9 = true → m ≠ .dbg →
    ((recipe s (curSlot s) (bitsAt w.toNat 0 9)).all fun b => leAt b 4 2 == 128 || leAt b 4 2 == 256) = true →
    ∃ t, exec (.importKey m w) s = .next t ∧
      (∀ i < 8, get t (Reg.importShare0 i) = 0 ∧ get t (Reg.importShare1 i) = 0) ∧
      (∀ i < 4, get t (Reg.importTag i) = 0) ∧
      get t Reg.importCtlResult = (importJudge s m (bitsAt w.toNat 0 9)).1 ∧
      ((importJudge s m (bitsAt w.toNat 0 9)).1 ≠ 1 → t.vault = s.vault) ∧
      ((importJudge s m (bitsAt w.toNat 0 9)).1 = 1 → slotReady t (bitsAt w.toNat 0 9) = true ∧
        keyOf t (bitsAt w.toNat 0 9) = (importJudge s m (bitsAt w.toNat 0 9)).2 ∧
        genOf t (bitsAt w.toNat 0 9) = genOf s (bitsAt w.toNat 0 9) + 1 ∧
        (∀ i, i ≠ bitsAt w.toNat 0 9 → slotOf t i = slotOf s i)))

/-- Remasking changes no key; a tamper wipes every key; an entropy failure latches its fault (R254, R265). Where a
clause rests on the model's own reading or choice: log entries 5, 98, 136, 120. -/
def Obligations.RemaskingAndTamper : Prop :=
  (∀ (s : State), aloft s = true → flag s Reg.vaultStatusDrbgFault = false →
    ∃ t, exec .remask s = .next t ∧ (∀ i, keyOf t i = keyOf s i) ∧ (∀ i, slotReady t i = slotReady s i) ∧
      t.vault.lastRemask = s.time.now ∧
      get t Reg.remaskStatusPasses = min (2 ^ Reg.remaskStatusPasses.width - 1) (get s Reg.remaskStatusPasses + 1) ∧
      regsSame s t [Reg.remaskStatusPasses] ∧
      t = { s with regs := t.regs, accum := t.accum, vault := t.vault, freeCtr := t.freeCtr }) ∧
  (∀ (s : State), flag s Reg.vaultStatusDrbgFault = true → exec .remask s = .next s) ∧
  (∀ (s : State), aloft s = true →
    ∃ t, exec .entropyFailure s = .next t ∧ flag t Reg.vaultStatusDrbgFault = true ∧ t.vault = s.vault) ∧
  (∀ (s : State), aloft s = false → vaultPowered s = true →
    exec .entropyFailure s = .next { put s Reg.vaultStatusDrbgFault 1 with vault.entropyUnreported := true }) ∧
  (∀ (s : State), aloft s = true → s.fault.recs.length < 16 →
    ∃ t, exec .entropyFailure s = .next t ∧ ∃ r ∈ t.fault.recs, r.code = 0x0030 ∧ r.unit = 0) ∧
  (∀ (s : State) (c : TamperCause) (ns : Nat), s.boot.phase ≠ .off → (c ≠ .pin ∨ 1000 < ns) →
    ∃ t, exec (.tamper c ns) s = .next t ∧ flag t Reg.vaultStatusTamperLatch = true ∧
      bitAt (get t Reg.vaultStatusTamperCause) (tamperBit c) = true ∧ t.vault.slots = [] ∧
      (∀ i, keyOf t i = []) ∧ t.mem.bankG = s.mem.bankG ∧ t.mem.bankH = s.mem.bankH) ∧
  (∀ (s : State) (ns : Nat), ns < 200 → exec (.tamper .pin ns) s = .next s) ∧
  (∀ (s : State) (m : Master) (w : Word), accepts s m 0xC0044 = true → bitAt w.toNat 0 = true →
    flag s Reg.vaultStatusTamperLatch = true →
    ∃ t, exec (.tamperClr m w) s = .next t ∧ get t Reg.vaultStatusTamperLatch = 0 ∧
      get t Reg.vaultStatusTamperCause = 0 ∧ asked s t 1) ∧
  (∀ (s : State) (m : Master) (w : Word), accepts s m 0xC0044 = true → flag s Reg.vaultStatusTamperLatch = false →
    ∃ t, exec (.tamperClr m w) s = .next t ∧ regsSame s t [] ∧ t = { s with regs := t.regs, cpu := t.cpu, io := t.io })

/-- Bulk MAC jobs run, make way, compute and verify for their bank; attestation answers over the head (R259, R261,
R262). Where a clause rests on the model's own reading or choice: log entries 6, 94, 120. -/
def Obligations.MacJobsAndAttestation : Prop :=
  (∀ (s : State) (m : Master) (w : Word) (b : Nat), accepts s m 0xC0180 = true → mcjBank m = some b →
    s.vault.mcj.find b = none → bitAt w.toNat 12 = true →
    mcjSourceOk s b (get s (Reg.mcjSrc b)) (get s (Reg.mcjLen b)) = true →
    keyCheck s (bitsAt w.toNat 3 9) (requester m).1 (requester m).2 (mcjUsage (bitsAt w.toNat 0 3)) = 0 →
    (∀ e ∈ s.vault.mcj, e.1 < 6 ∧ get s (Reg.mcjStatusState e.1) = 2) →
    ∃ t, exec (.mcjGo m w) s = .next t ∧
      t.vault.mcj.find b = some ⟨bitsAt w.toNat 0 3, bitsAt w.toNat 3 9, genOf s (bitsAt w.toNat 3 9),
        get s (Reg.mcjSrc b), get s (Reg.mcjLen b), [], s.time.now⟩ ∧
      (bitsAt w.toNat 0 3 < 3 ∨ shaRunning s < 2 → get t (Reg.mcjStatusState b) = 2) ∧
      (3 ≤ bitsAt w.toNat 0 3 ∧ 2 ≤ shaRunning s → get t (Reg.mcjStatusState b) = 1) ∧
      get t (Reg.mcjStatusResult b) = 0 ∧ get t (Reg.mcjCtlOp b) = bitsAt w.toNat 0 3 ∧
      get t (Reg.mcjCtlSlot b) = bitsAt w.toNat 3 9 ∧
      regsSame s t [Reg.mcjStatusState b, Reg.mcjStatusResult b, Reg.mcjCtlOp b, Reg.mcjCtlSlot b] ∧
      t = { s with regs := t.regs, vault := { s.vault with mcj := t.vault.mcj }, cpu := t.cpu, io := t.io }) ∧
  (∀ (s : State) (m : Master) (w : Word) (b : Nat), accepts s m 0xC0180 = true → mcjBank m = some b →
    s.vault.mcj.find b = none → bitAt w.toNat 12 = true →
    mcjSourceOk s b (get s (Reg.mcjSrc b)) (get s (Reg.mcjLen b)) = true →
    keyCheck s (bitsAt w.toNat 3 9) (requester m).1 (requester m).2 (mcjUsage (bitsAt w.toNat 0 3)) = 2 →
    ∃ t, exec (.mcjGo m w) s = .next t ∧ get t (Reg.mcjStatusState b) = 4 ∧ get t (Reg.mcjStatusResult b) = 2 ∧
      t.vault = s.vault) ∧
  (∀ (s : State) (m : Master) (b : Nat) (j : McjJob), mcjBank m = some b → get s (Reg.mcjStatusState b) = 2 →
    s.vault.mcj.find b = some j → get s Reg.macStatusSuspended < 32 → onSha j = false → mcjYields s b j = true →
    hitsMark s .h j.src j.len = none →
    ∃ t, exec (.mcjSuspend m) s = .next t ∧ get t (Reg.mcjStatusState b) = 3 ∧
      get t Reg.macStatusSuspended = get s Reg.macStatusSuspended + 1 ∧
      (∃ bytes, t.vault.mcj.find b = some { j with read := bytes } ∧ j.read <+: bytes) ∧
      regsSame s t [Reg.mcjStatusState b, Reg.macStatusSuspended, Reg.macSuspends] ∧
      t = { s with
        regs := t.regs, accum := t.accum, vault := { s.vault with mcj := t.vault.mcj }, freeCtr := t.freeCtr }) ∧
  (∀ (s : State) (m : Master) (b : Nat) (j : McjJob), mcjBank m = some b → s.vault.mcj.find b = some j →
    mcjYields s b j = false → exec (.mcjSuspend m) s = .next s) ∧
  (∀ (s : State) (m : Master) (b : Nat) (j : McjJob) (ecc : BankEcc), mcjBank m = some b →
    s.vault.mcj.find b = some j →
    (∀ e ∈ s.vault.mcj, e.1 < 6 ∧ get s (Reg.mcjStatusState e.1) = 2) → get s (Reg.mcjStatusState b) = 2 →
    slotReady s j.slot = true → genOf s j.slot = j.gen → hitsMark s .h j.src j.len = none →
    (ecc = .clean ∨ ecc = .corrected) → j.op = 1 →
    ∃ t, exec (.mcjDone ⟨m, ecc⟩) s = .next t ∧ get t (Reg.mcjStatusState b) = 4 ∧ get t (Reg.mcjStatusResult b) = 0 ∧
      t.vault.mcj.find b = none ∧ (∀ i < 4, get t (Reg.mcjTag b i) =
        leAt (slice (Config.cmac (keyOf s j.slot) (j.read ++
          Mem.readBytes s.mem.bankH 0 (j.src + j.read.length) (j.len - j.read.length))) 0 16) (4 * i) 4)) ∧
  (∀ (s : State) (m : Master) (b : Nat) (j : McjJob) (ecc : BankEcc), mcjBank m = some b →
    s.vault.mcj.find b = some j →
    (∀ e ∈ s.vault.mcj, e.1 < 6 ∧ get s (Reg.mcjStatusState e.1) = 2) → get s (Reg.mcjStatusState b) = 2 →
    slotReady s j.slot = true → genOf s j.slot = j.gen → hitsMark s .h j.src j.len = none →
    (ecc = .clean ∨ ecc = .corrected) → j.op = 2 →
    ∃ t, exec (.mcjDone ⟨m, ecc⟩) s = .next t ∧ get t (Reg.mcjStatusState b) = 4 ∧ t.vault.mcj.find b = none ∧
      get t (Reg.mcjStatusResult b) =
        if (regBytes s 8 (Reg.mcjTag b)).take 16 = slice (Config.cmac (keyOf s j.slot) (j.read ++
          Mem.readBytes s.mem.bankH 0 (j.src + j.read.length) (j.len - j.read.length))) 0 16 then 0 else 1) ∧
  (∀ (s : State) (m : Master) (b : Nat) (j : McjJob) (ecc : BankEcc), mcjBank m = some b →
    s.vault.mcj.find b = some j →
    (∀ e ∈ s.vault.mcj, e.1 < 6 ∧ get s (Reg.mcjStatusState e.1) = 2) → get s (Reg.mcjStatusState b) = 2 →
    (slotReady s j.slot = false ∨ genOf s j.slot ≠ j.gen) → flag s Reg.vaultStatusTamperLatch = false →
    ∃ t, exec (.mcjDone ⟨m, ecc⟩) s = .next t ∧ get t (Reg.mcjStatusState b) = 4 ∧ get t (Reg.mcjStatusResult b) = 2 ∧
      t.vault.mcj.find b = none ∧ (∀ i < 8, get t (Reg.mcjTag b i) = get s (Reg.mcjTag b i)) ∧
      get t Reg.keyStatsRevokedAborts =
        min (2 ^ Reg.keyStatsRevokedAborts.width - 1) (get s Reg.keyStatsRevokedAborts + 1)) ∧
  (∀ (s : State) (m : Master) (b w : Nat) (j : McjJob), mcjBank m = some b → s.vault.mcj.find b = some j →
    (∀ e ∈ s.vault.mcj, e.1 < 6 ∧ get s (Reg.mcjStatusState e.1) = 2) → get s (Reg.mcjStatusState b) = 2 →
    slotReady s j.slot = true → genOf s j.slot = j.gen → j.read.length < j.len → hitsMark s .h j.src j.len = none →
    ∃ t, exec (.mcjDone ⟨m, .uncorrectable w⟩) s = .next t ∧ get t (Reg.mcjStatusState b) = 4 ∧
      t.vault.mcj.find b = none ∧ (∀ i < 8, get t (Reg.mcjTag b i) = get s (Reg.mcjTag b i))) ∧
  (∀ (s : State) (m : Master) (w : Word), accepts s m 0xC0210 = true → (m = .sp ∨ m = .host ∨ m = .spi) →
    bitAt w.toNat 0 = true → get s Reg.attCtlState ≠ 1 → keyCheck s 2 1 true 0 = 0 →
    ∃ t, exec (.attGo m w) s = .next t ∧
      (tooLarge s (someGc s) (jobBound s .attest) = false → get t Reg.attCtlState = 1 ∧
        regsSame s t [Reg.attCtlState] ∧ t.jobs.queue.length = s.jobs.queue.length + 1 ∧
        t = { s with regs := t.regs, jobs := t.jobs, cpu := t.cpu, io := t.io }) ∧
      (tooLarge s (someGc s) (jobBound s .attest) = true → get t Reg.attCtlResult = attTooLarge ∧
        regsSame s t (Reg.attCtlResult :: raiseFields 20) ∧
        t = { s with regs := t.regs, accum := t.accum, intc := t.intc, host := t.host, io := t.io })) ∧
  (∀ (s : State) (m : Master) (w : Word), accepts s m 0xC0210 = true → (m = .sp ∨ m = .host ∨ m = .spi) →
    bitAt w.toNat 0 = true → get s Reg.attCtlState = 1 →
    ∃ t, exec (.attGo m w) s = .next t ∧ get t Reg.attCtlResult = 2 ∧ get t Reg.attCtlState = 1 ∧
      regsSame s t (Reg.attCtlResult :: raiseFields 20) ∧
      t = { s with regs := t.regs, accum := t.accum, intc := t.intc, host := t.host, io := t.io }) ∧
  (∀ (s : State) (m : Master) (w : Word), accepts s m 0xC0210 = true → (m = .sp ∨ m = .host ∨ m = .spi) →
    bitAt w.toNat 0 = true → get s Reg.attCtlState ≠ 1 → keyCheck s 2 1 true 0 ≠ 0 →
    ∃ t, exec (.attGo m w) s = .next t ∧ get t Reg.attCtlState = 2 ∧ get t Reg.attCtlResult = 1 ∧
      ∀ i < 42, get t (Reg.attResp i) = 0) ∧
  (∀ s : State, get s Reg.attCtlState = 1 → attPending s = false → slotReady s 2 = true →
    ∃ t, exec .attestationDone s = .next t ∧ get t Reg.attCtlState = 2 ∧ get t Reg.attCtlResult = 0 ∧
      (∀ i < 42, get t (Reg.attResp i) =
        leAt (attMessage s ++ slice (Config.cmac (keyOf s 2) (attMessage s)) 0 16) (4 * i) 4) ∧
      t.vault = s.vault ∧ t.sheet = s.sheet)

/-- T1 links train retained then full; link changes show state, speed, time and event (R85, R86, R87). Where a
clause rests on the model's own reading or choice: log entry 51. -/
def Obligations.LinksTrainAndChange : Prop :=
  (∀ (s : State) (p : Fin 48) (sig : Nat), t1Port p = true → linkState s p = 2 →
    ∃ t, exec (.linkEstablished p sig) s = .next t ∧ linkState t p = 3 ∧ get t (Reg.portStatusLink p) = 1 ∧
      get t (Reg.portStatusSpeed p) = modeSpeed p (get s (Reg.portModeMode p)) ∧
      get t (Reg.trainStatusTrainTime p) = min 65535 (linkAge s p / 10000) ∧
      get t (Reg.trainStatusLastTrain p) = 2 ∧ get t (Reg.trainStatusCoefValid p) = 1 ∧
      t.net.partnerSig.find p.val = some sig) ∧
  (∀ (s : State) (p : Fin 48) (sig : Nat), t1Port p = true → linkState s p = 1 →
    s.net.partnerSig.find p.val = some sig →
    ∃ t, exec (.linkEstablished p sig) s = .next t ∧ linkState t p = 3 ∧ get t (Reg.portStatusLink p) = 1 ∧
      get t (Reg.trainStatusLastTrain p) = 1 ∧
      get t (Reg.trainStatusCoefValid p) = get s (Reg.trainStatusCoefValid p) ∧
      t.net.partnerSig = s.net.partnerSig) ∧
  (∀ (s : State) (p : Fin 48), linkState s p = 1 → retainedBound p ≤ linkAge s p →
    ∃ t, exec (.retainedTrainTimeout p) s = .next t ∧ linkState t p = 2 ∧ get t (Reg.trainStatusCoefValid p) = 0 ∧
      linkAge t p = 0 ∧ regsSame s t [Reg.portStatusState p, Reg.trainStatusCoefValid p] ∧
      t = { s with regs := t.regs, net := t.net }) ∧
  (∀ (s : State) (p : Fin 48), linkState s p = 1 → linkAge s p < retainedBound p →
    exec (.retainedTrainTimeout p) s = .next s) ∧
  (∀ (s : State) (p : Fin 48), linkState s p = 2 → 100000000 ≤ linkAge s p →
    ∃ t, exec (.fullTrainTimeout p) s = .next t ∧ linkState t p = 2 ∧ linkAge t p = 0 ∧
      get t (Reg.trainStatusTrainFails p) =
        min (2 ^ (Reg.trainStatusTrainFails p).width - 1) (get s (Reg.trainStatusTrainFails p) + 1) ∧
      get t (Reg.portEventsTrainFail p) = 1 ∧ flag t (Reg.srcCfgLevel (64 + p)) = true) ∧
  (∀ (s : State) (p : Fin 48) (sig : Nat), linkState s p = 1 → s.net.partnerSig.find p.val ≠ some sig →
    ∃ t, exec (.partnerSignatureChange p sig) s = .next t ∧ linkState t p = 2 ∧
      get t (Reg.trainStatusCoefValid p) = 0 ∧ linkAge t p = 0 ∧
      regsSame s t [Reg.portStatusState p, Reg.trainStatusCoefValid p] ∧ t = { s with regs := t.regs, net := t.net }) ∧
  (∀ (s : State) (p : Fin 48), t1Port p = true → linkState s p = 3 →
    ∃ t, exec (.linkLoss p) s = .next t ∧ linkState t p = 1 ∧ get t (Reg.portStatusLink p) = 0 ∧
      get t (Reg.portStatusSpeed p) = 0 ∧ get t (Reg.portEventsLinkChange p) = 1) ∧
  (∀ (s : State) (k : Fin 4) (speed v : Nat), aloft s = true → linkState s (12 + k) ≠ 3 →
    cur s (Reg.portCtlAdminEn (12 + k)) ≠ 0 → get s (Reg.portModeMode (12 + k)) ≠ 0 → calPort s (12 + k) = false →
    laneSpeed s k speed = some v →
    ∃ t, exec (.serdesLinkUp k speed) s = .next t ∧ linkState t (12 + k) = 3 ∧
      get t (Reg.portStatusLink (12 + k)) = 1 ∧ get t (Reg.portStatusSpeed (12 + k)) = v % 8 ∧
      get t (Reg.portEventsLinkChange (12 + k)) = 1) ∧
  (∀ (s : State) (k : Fin 4), linkState s (12 + k) = 3 →
    ∃ t, exec (.serdesLinkDown k) s = .next t ∧ linkState t (12 + k) = 0 ∧
      get t (Reg.portStatusLink (12 + k)) = 0 ∧ get t (Reg.portStatusSpeed (12 + k)) = 0 ∧
      get t (Reg.portEventsLinkChange (12 + k)) = 1) ∧
  (∀ (s : State) (p : Fin 48), linkState s p ≠ 3 → exec (.linkLoss p) s = .next s)

/-- PLCA status, preemption verification and partial networks follow their timers and reports (R89, R93, R276,
R278). Where a clause rests on the model's own reading or choice: log entries 58, 120. -/
def Obligations.PortFeaturesFollowTheLink : Prop :=
  (∀ (s : State) (i : Fin 8) (active : Bool), plcaEn s (40 + i) = true → linkState s (40 + i) = 3 →
    flag s (Reg.portStatusPlcaActive (40 + i)) ≠ active →
    ∃ t, exec (.plcaStatusChange i active) s = .next t ∧ flag t (Reg.portStatusPlcaActive (40 + i)) = active ∧
      get t (Reg.portEventsPlca (40 + i)) = 1 ∧ flag t (Reg.srcCfgLevel (104 + i)) = true ∧
      regsSame s t ([Reg.portStatusPlcaActive (40 + i), Reg.portEventsPlca (40 + i), Reg.srcCfgLevel (104 + i)] ++
        raiseFields (104 + i))) ∧
  (∀ (s : State) (i : Fin 8), plcaEn s (40 + i) = true → linkState s (40 + i) = 3 →
    get s (Reg.plcaCfgPlcaId i) ≠ 0 → flag s (Reg.portStatusPlcaActive (40 + i)) = true →
    ∃ t, exec (.beaconTimeout i) s = .next t ∧ flag t (Reg.portStatusPlcaActive (40 + i)) = false ∧
      get t (Reg.portEventsPlca (40 + i)) = 1) ∧
  (∀ (s : State) (i : Fin 8), get s (Reg.plcaCfgPlcaId i) = 0 → exec (.beaconTimeout i) s = .next s) ∧
  (∀ (s : State) (p : Fin 48), get s (Reg.preemptStatusVerifySt p) = 2 → portUp s p = true →
    ∃ t, exec (.verifyResponse p) s = .next t ∧ get t (Reg.preemptStatusVerifySt p) = 3 ∧
      flag t (Reg.preemptStatusActive p) = (preemptCap s p && cur s (Reg.portCtlPreemptEn p) == 1) ∧
      regsSame s t [Reg.preemptStatusVerifySt p, Reg.preemptStatusActive p] ∧ t = { s with regs := t.regs }) ∧
  (∀ (s : State) (p : Fin 48), get s (Reg.preemptStatusVerifySt p) = 2 → portUp s p = true →
    (s.net.verifyAt.find p.val).getD 0 + 1000000 * verifyTime s p ≤ s.time.now →
    (s.net.verifySent.find p.val).getD 0 < 3 →
    ∃ t, exec (.verifyTimeout p) s = .next t ∧
      t.net.verifySent.find p.val = some ((s.net.verifySent.find p.val).getD 0 + 1) ∧
      t.net.verifyAt.find p.val = some s.time.now ∧
      t = { s with
        net := t.net, io.out := if silent s then s.io.out else .mpacket p .verify 0 0 [] :: s.io.out }) ∧
  (∀ (s : State) (p : Fin 48), get s (Reg.preemptStatusVerifySt p) = 2 → portUp s p = true →
    (s.net.verifyAt.find p.val).getD 0 + 1000000 * verifyTime s p ≤ s.time.now →
    3 ≤ (s.net.verifySent.find p.val).getD 0 →
    ∃ t, exec (.verifyTimeout p) s = .next t ∧ get t (Reg.preemptStatusVerifySt p) = 4 ∧
      get t (Reg.portEventsVerifyFail p) = 1 ∧ flag t (Reg.srcCfgLevel (64 + p)) = true) ∧
  (∀ (s : State) (n : Fin 32), netAwake s n = false →
    ∃ t, exec (.networkIdle n) s = .next t ∧ t.wake.hits.find n.val = none ∧ t.wake.awakeSince.find n.val = none ∧
      (∀ k, k ≠ n.val → t.wake.hits.find k = s.wake.hits.find k ∧
        t.wake.suppressed.find k = s.wake.suppressed.find k) ∧ t = { s with wake := t.wake }) ∧
  (∀ (s : State) (n : Fin 32) (b : List Byte), aloft s = true → networkRec s n = some b → netAwake s n = true →
    netSuppressed s n = false → leAt b 4 4 ≠ 0 → leAt b 4 4 ≤ episodeSeconds s n →
    ∃ t, exec (.maxAwake n) s = .next t ∧ netSuppressed t n = true ∧ asked s t 1 ∧
      (∀ l, t.wake.suppressed.find n.val = some l → l.length ≤ 4) ∧ t.wake.hits = s.wake.hits ∧
      regsSame s t [Reg.sbStatsLost] ∧
      t = { s with regs := t.regs, accum := t.accum, wake := t.wake, jobs := t.jobs, sheet := t.sheet }) ∧
  (∀ (s : State) (m : Master) (w : Word), accepts s m 0x010180 = true →
    ∃ t, exec (.netClr m w) s = .next t ∧
      (∀ n, t.wake.suppressed.find n = if bitAt w.toNat n then none else s.wake.suppressed.find n) ∧
      t.regs = s.regs ∧ t = { s with wake := t.wake, cpu := t.cpu, io := t.io })

/-- A held MACsec frame moves its SA only if its ICV verifies; else it is dropped and counted (R97, R123). Where a
clause rests on the model's own reading or choice: log entries 53, 5, 6, 128, 129, 143. -/
def Obligations.MacsecAcceptsWhatVerifies : Prop :=
  (∀ (s : State) (p : Fin 48) (u : Nat) (pk : Packet) (h : RxHold),
    (firstPacket s fun x => x.port == p.val && x.hold.isSome) = some (u, pk) → pk.port = p → pk.hold = some h →
    h.sa < 36 → keyCheck s h.key portRequester true 1 = 0 → genOf s h.key = h.gen →
    (saState s p h.sa h.key).exhausted = false → replayed (saState s p h.sa h.key).pn h.pn h.win = false →
    ∃ t, exec (.macsecIcvCheck p) s = .next t ∧
      (icvGood s h pk.bytes = true →
        (saLive s p h.sa h.key = true →
          get t (Reg.saNextPn p h.sa) = max (get s (Reg.saNextPn p h.sa)) (h.pn + 1) % 2 ^ 64 ∧
          flag t (Reg.saStatExhausted p h.sa) = (h.pn == pnMax h.xpn)) ∧
        (saLive s p h.sa h.key = false → ∀ x, s.net.formerSa.find (formerKey p h.sa h.key) = some x →
          t.net.formerSa.find (formerKey p h.sa h.key) =
            some ⟨max x.pn (h.pn + 1), h.pn == pnMax h.xpn, x.thresh⟩ ∧
          get t (Reg.saNextPn p h.sa) = get s (Reg.saNextPn p h.sa)) ∧
        get t (Reg.saFrames p h.sa) =
          min (2 ^ (Reg.saFrames p h.sa).width - 1) (get s (Reg.saFrames p h.sa) + 1)) ∧
      (icvGood s h pk.bytes = false → t.net.packets.find u = none ∧
        get t (Reg.portRxIcvFail p) = min (2 ^ (Reg.portRxIcvFail p).width - 1) (get s (Reg.portRxIcvFail p) + 1) ∧
        regsSame s t [Reg.portRxIcvFail p, Reg.macStatusMaxLineWait] ∧
        t = { s with regs := t.regs, accum := t.accum, net := t.net, freeCtr := t.freeCtr })) ∧
  (∀ (s : State) (p : Fin 48) (u : Nat) (pk : Packet) (h : RxHold),
    (firstPacket s fun x => x.port == p.val && x.hold.isSome) = some (u, pk) → pk.port = p → pk.hold = some h →
    keyCheck s h.key portRequester true 1 = 0 → genOf s h.key = h.gen →
    ((saState s p h.sa h.key).exhausted = true ∨ replayed (saState s p h.sa h.key).pn h.pn h.win = true) →
    ∃ t, exec (.macsecIcvCheck p) s = .next t ∧ t.net.packets.find u = none ∧
      (icvGood s h pk.bytes = false →
        get t (Reg.portRxIcvFail p) = min (2 ^ (Reg.portRxIcvFail p).width - 1) (get s (Reg.portRxIcvFail p) + 1) ∧
        regsSame s t [Reg.portRxIcvFail p, Reg.macStatusMaxLineWait]) ∧
      (icvGood s h pk.bytes = true → (saState s p h.sa h.key).exhausted = true →
        get t (Reg.portRxNoSa p) = min (2 ^ (Reg.portRxNoSa p).width - 1) (get s (Reg.portRxNoSa p) + 1) ∧
        regsSame s t [Reg.portRxNoSa p, Reg.macStatusMaxLineWait]) ∧
      (icvGood s h pk.bytes = true → (saState s p h.sa h.key).exhausted = false →
        get t (Reg.portRxReplay p) = min (2 ^ (Reg.portRxReplay p).width - 1) (get s (Reg.portRxReplay p) + 1) ∧
        regsSame s t [Reg.portRxReplay p, Reg.macStatusMaxLineWait]) ∧
      t = { s with regs := t.regs, accum := t.accum, net := t.net, freeCtr := t.freeCtr }) ∧
  (∀ (s : State) (p : Fin 48) (u : Nat) (pk : Packet) (h : RxHold),
    (firstPacket s fun x => x.port == p.val && x.hold.isSome) = some (u, pk) → pk.port = p → pk.hold = some h →
    keyCheck s h.key portRequester true 1 = 2 →
    ∃ t, exec (.macsecIcvCheck p) s = .next t ∧ t.net.packets.find u = none ∧
      get t (Reg.portRxNoSa p) = min (2 ^ (Reg.portRxNoSa p).width - 1) (get s (Reg.portRxNoSa p) + 1) ∧
      get t Reg.keyStatsRevokedAborts =
        min (2 ^ Reg.keyStatsRevokedAborts.width - 1) (get s Reg.keyStatsRevokedAborts + 1) ∧
      regsSame s t [Reg.portRxNoSa p, Reg.keyStatsRevokedAborts] ∧
      t = { s with regs := t.regs, accum := t.accum, net := t.net }) ∧
  (∀ (s : State) (p : Fin 48) (u : Nat) (pk : Packet) (cfg : RxCfg) (h : RxHold) (asmErr : Bool),
    (firstPacket s fun x => x.port == p.val && !x.come) = some (u, pk) → pk.tail = 0 → pk.ends = none →
    pk.sec = some cfg → pk.passes = 0 → pk.decided = false → 64 ≤ pk.rxLen → pk.rxLen ≤ 10240 →
    (asmErr && preemptCap s p) = false → rxCheck s cfg p pk.bytes = .hold h →
    ∃ t, exec (.frameTail ⟨p, by omega⟩ true asmErr) s = .next t ∧
      packetOf t u = some { pk with come := true, sec := none, hold := some h, tail := 1 } ∧ regsSame s t [] ∧
      t = { s with net := { s.net with packets := t.net.packets, mib := t.net.mib } })

/-- CLS_ACC reads a record through its view; a probe looks up in a free cycle within 10 us (R78, R154). Where a
clause rests on the model's own reading or choice: log entries 75, 25, 60. -/
def Obligations.ClassifierTablesAndProbes : Prop :=
  (∀ (s : State) (m : Master) (w : Word) (sect e : Nat) (b : List Byte), accepts s m 0x600000 = true →
    bitAt w.toNat 0 = true → bitAt w.toNat 1 = false → bitsAt w.toNat 2 3 ≠ 3 →
    clsSection (bitsAt w.toNat 2 3) = some sect →
    viewSlot s m (bitsAt w.toNat 20 2) (bitsAt w.toNat 22 2) = some e →
    recOf s e sect (bitsAt w.toNat 5 15) = some b →
    ∃ t, exec (.clsAccRead m w) s = .next t ∧ get t Reg.clsAccStatusStatus = 0 ∧ get t Reg.clsAccCtlDone = 1 ∧
      get t Reg.clsAccStatusMask = membership s (sect * 2 ^ 32 + bitsAt w.toNat 5 15) b % 2 ^ Reg.clsAccStatusMask.width ∧
      (∀ i < 48, get t (Reg.clsAccData i) = leAt b (4 * i) 4) ∧
      regsSame s t ([Reg.clsAccCtlTable, Reg.clsAccCtlIndex, Reg.clsAccCtlView, Reg.clsAccCtlSlot, Reg.clsAccCtlDone,
        Reg.clsAccStatusStatus, Reg.clsAccStatusMask] ++ (List.range 48).map Reg.clsAccData) ∧
      t = { s with regs := t.regs, cpu := t.cpu, io := t.io }) ∧
  (∀ (s : State) (m : Master) (w : Word) (sect e : Nat), accepts s m 0x600000 = true →
    bitAt w.toNat 0 = true → bitAt w.toNat 1 = false → bitsAt w.toNat 2 3 ≠ 3 →
    clsSection (bitsAt w.toNat 2 3) = some sect →
    viewSlot s m (bitsAt w.toNat 20 2) (bitsAt w.toNat 22 2) = some e →
    recOf s e sect (bitsAt w.toNat 5 15) = none →
    ∃ t, exec (.clsAccRead m w) s = .next t ∧ get t Reg.clsAccStatusStatus = 2 ∧ get t Reg.clsAccCtlDone = 1) ∧
  (∀ (s : State) (m : Master) (w : Word) (sect : Nat), accepts s m 0x600000 = true →
    bitAt w.toNat 0 = true → bitAt w.toNat 1 = false → bitsAt w.toNat 2 3 ≠ 3 →
    clsSection (bitsAt w.toNat 2 3) = some sect →
    viewSlot s m (bitsAt w.toNat 20 2) (bitsAt w.toNat 22 2) = none →
    ∃ t, exec (.clsAccRead m w) s = .next t ∧ get t Reg.clsAccStatusStatus = 1 ∧ get t Reg.clsAccCtlDone = 1) ∧
  (∀ (s : State) (m : Master) (w : Word) (e : Nat), accepts s m 0x600000 = true →
    bitAt w.toNat 0 = false → bitAt w.toNat 1 = true →
    viewSlot s m (bitsAt w.toNat 20 2) (bitsAt w.toNat 22 2) = some e →
    ∃ t, exec (.probe m w) s = .next t ∧ t.net.probing = some (e, s.time.now) ∧ get t Reg.clsAccCtlDone = 0 ∧
      regsSame s t [Reg.clsAccCtlTable, Reg.clsAccCtlIndex, Reg.clsAccCtlView, Reg.clsAccCtlSlot, Reg.clsAccCtlDone] ∧
      t = { s with regs := t.regs, net := { s.net with probing := t.net.probing }, cpu := t.cpu, io := t.io }) ∧
  (∀ (s : State) (e at_ : Nat), s.net.probing = some (e, at_) → slotState s e ≠ 0 → s.time.now ≤ at_ + 10000 →
    ∃ t, exec (.probeLookup true) s = .next t ∧ t.net.probing = none ∧ get t Reg.clsAccStatusStatus = 0 ∧
      get t Reg.clsAccCtlDone = 1 ∧ get t Reg.clsAccStatusResultRule =
        ((winner s e (beNat (regBytes s 20 Reg.clsAccData))).map fun x => x.1).getD 0xFFFF % 2 ^ 16 ∧
      get t Reg.slotTotal = (get s Reg.slotTotal + 1) % 2 ^ 64 ∧ get t Reg.slotFront = (get s Reg.slotFront + 1) % 2 ^ 64 ∧
      (slotsAddUp s → slotsAddUp t) ∧ t.env = s.env) ∧
  (∀ (s : State) (e at_ : Nat) (free : Bool), s.net.probing = some (e, at_) → slotState s e ≠ 0 →
    at_ + 10000 < s.time.now →
    ∃ t, exec (.probeLookup free) s = .next t ∧ t.net.probing = none ∧ get t Reg.clsAccStatusStatus = 3 ∧
      get t Reg.clsAccCtlDone = 1 ∧
      regsSame s t [Reg.clsAccStatusStatus, Reg.clsAccStatusResultRule, Reg.clsAccCtlDone])

/-- Fragment and conversation entries expire at their limits; the access port reads and flushes them (R143, R165).
Where a clause rests on the model's own reading or choice: log entry 74. -/
def Obligations.FragmentsAndConversations : Prop :=
  (∀ (s : State) (i : Fin 2048) (e : Frag), s.net.frags.find i.val = some e → e.madeAt + 50000000 ≤ s.time.now →
    ∃ t, exec (.fragExpiry i) s = .next t ∧ t.net.frags.find i.val = none ∧
      (∀ k, k ≠ i.val → t.net.frags.find k = s.net.frags.find k) ∧
      get t Reg.fragStatsFragExpired = min (2 ^ Reg.fragStatsFragExpired.width - 1) (get s Reg.fragStatsFragExpired + 1) ∧
      regsSame s t [Reg.fragStatsFragExpired, Reg.fragEntriesFragEntries, Reg.fragEntriesFragHigh] ∧
      t = { s with regs := t.regs, accum := t.accum, net := { s.net with frags := t.net.frags } }) ∧
  (∀ (s : State) (i : Fin 2048) (e : Frag), s.net.frags.find i.val = some e → s.time.now < e.madeAt + 50000000 →
    exec (.fragExpiry i) s = .next s) ∧
  (∀ (s : State) (i : Fin 65536) (c : Conv), s.net.convs.find i.val = some c → s.net.convFlushing = false →
    convTimeout s c * 1000000000 < s.time.now - c.hitAt →
    ∃ t, exec (.convExpiry i) s = .next t ∧ t.net.convs.find i.val = none ∧
      (∀ k, k ≠ i.val → t.net.convs.find k = s.net.convs.find k) ∧
      get t Reg.convExpired = min (2 ^ Reg.convExpired.width - 1) (get s Reg.convExpired + 1) ∧
      regsSame s t [Reg.convExpired, Reg.convUsed] ∧
      t = { s with regs := t.regs, accum := t.accum, net := { s.net with convs := t.net.convs } }) ∧
  (∀ (s : State) (i : Fin 65536) (c : Conv), s.net.convs.find i.val = some c →
    s.time.now - c.hitAt ≤ convTimeout s c * 1000000000 → exec (.convExpiry i) s = .next s) ∧
  (∀ (s : State) (m : Master) (w : Word) (c : Conv), accepts s m 0x610100 = true → bitAt w.toNat 0 = true →
    bitAt w.toNat 1 = false → s.net.convs.find (bitsAt w.toNat 2 16) = some c → s.net.convFlushing = false →
    ∃ t, exec (.convAccRead m w) s = .next t ∧ get t Reg.convAccCtlDone = 1 ∧
      (∀ i < 12, get t (Reg.convAccData i) = leAt (convBytes s c) (4 * i) 4) ∧
      regsSame s t (Reg.convAccCtlIndex :: Reg.convAccCtlDone :: (List.range 12).map Reg.convAccData) ∧
      t = { s with regs := t.regs, cpu := t.cpu, io := t.io }) ∧
  (∀ (s : State) (m : Master) (w : Word), accepts s m 0x610100 = true → bitAt w.toNat 0 = true →
    bitAt w.toNat 1 = false → s.net.convs.find (bitsAt w.toNat 2 16) = none →
    ∃ t, exec (.convAccRead m w) s = .next t ∧ ∀ i < 12, get t (Reg.convAccData i) = 0) ∧
  (∀ (s : State) (m : Master) (w : Word), accepts s m 0x610100 = true → bitAt w.toNat 0 = false →
    bitAt w.toNat 1 = true →
    ∃ t, exec (.convFlush m w) s = .next t ∧ t.net.convFlushing = true ∧ get t Reg.convAccCtlDone = 0 ∧
      t.net.convs = s.net.convs ∧ regsSame s t [Reg.convAccCtlIndex, Reg.convAccCtlDone] ∧
      t = { s with regs := t.regs, net := { s.net with convFlushing := true }, cpu := t.cpu, io := t.io }) ∧
  (∀ (s : State), s.net.convFlushing = true →
    ∃ t, exec .convFlushDone s = .next t ∧ t.net.convs = [] ∧ t.net.convFlushing = false ∧ get t Reg.convUsed = 0 ∧
      get t Reg.convAccCtlDone = 1 ∧ regsSame s t [Reg.convUsed, Reg.convAccCtlDone] ∧
      t = { s with regs := t.regs, net := { s.net with convs := [], convFlushing := false } })

/-- The shadow self-test runs once a tempo and records a fault when it misses (R147). Where a clause rests on the
model's own reading or choice: log entries 13, 60. -/
def Obligations.ShadowSelftestRunsOncePerTempo : Prop :=
  (∀ (s : State) (idle : Bool), aloft s = true → s.net.selftestTempo ≠ some (tempoNo s) →
    ∃ t, exec (.shadowSelftest idle true) s = .next t ∧ get t Reg.shadowStatusSelftestLast = 1 ∧
      t.net.selftestTempo = some (tempoNo s) ∧ t.fault = s.fault ∧ (slotsAddUp s → slotsAddUp t) ∧
      get t Reg.slotTotal = (get s Reg.slotTotal + if idle then 0 else 1) % 2 ^ 64) ∧
  (∀ (s : State) (idle : Bool), aloft s = true → s.net.selftestTempo ≠ some (tempoNo s) → s.fault.recs.length < 16 →
    ∃ t, exec (.shadowSelftest idle false) s = .next t ∧ get t Reg.shadowStatusSelftestLast = 0 ∧
      get t Reg.shadowStatusSelftestFault = 1 ∧ (∃ r ∈ t.fault.recs, r.code = 0x0021 ∧ r.unit = 0) ∧
      (slotsAddUp s → slotsAddUp t)) ∧
  (∀ (s : State) (idle flagged : Bool), s.net.selftestTempo = some (tempoNo s) →
    exec (.shadowSelftest idle flagged) s = .next s) ∧
  (∀ (s : State) (m : Master), accepts s m 0x600F00 = true →
    ∃ t, exec (.shadowStatusClear m) s = .next t ∧ get t Reg.shadowStatusSelftestFault = 0 ∧
      regsSame s t [Reg.shadowStatusSelftestFault] ∧ t = { s with regs := t.regs, cpu := t.cpu, io := t.io })

/-- Profiles are activated by whoever may, released or denied at boundaries, and at once by the ripcord (R169,
R172). Where a clause rests on the model's own reading or choice: log entries 77, 76, 5, 120. -/
def Obligations.ContainmentFollowsItsCauses : Prop :=
  (∀ (s : State) (m : Master) (w : Word) (b : List Byte), accepts s m 0x610004 = true → bitAt w.toNat 3 = true →
    profileRec s (curSlot s) (w.toNat % 8) = some b → actMay s m b = true →
    ∃ t, exec (.contAct m w) s = .next t ∧ profileActive t (w.toNat % 8) = true ∧
      bitAt (get t (Reg.contCauseCause (w.toNat % 8))) (causeBit m) = true ∧
      (profileActive s (w.toNat % 8) = false → t.cont.since.find (w.toNat % 8) = some (tempoNo s)) ∧
      (∀ q < 8, q ≠ w.toNat % 8 → profileActive t q = profileActive s q) ∧
      regsSame s t [Reg.contStatusActive, Reg.contCauseCause (w.toNat % 8), Reg.contCauseActivations (w.toNat % 8),
        Reg.sbStatsLost] ∧
      (profileActive s (w.toNat % 8) = false → asked s t 1) ∧
      t = { s with
        regs := t.regs, accum := t.accum, cont := t.cont, jobs := t.jobs, sheet := t.sheet, cpu := t.cpu, io := t.io }) ∧
  (∀ (s : State) (m : Master) (w : Word) (b : List Byte), accepts s m 0x610004 = true → bitAt w.toNat 3 = true →
    profileRec s (curSlot s) (w.toNat % 8) = some b → actMay s m b = false →
    ∃ t, exec (.contAct m w) s = .next t ∧
      get t Reg.contStatsRefused = min (2 ^ Reg.contStatsRefused.width - 1) (get s Reg.contStatsRefused + 1) ∧
      t.cont = s.cont ∧ regsSame s t [Reg.contStatsRefused]) ∧
  (∀ (s : State) (m : Master) (w : Word), accepts s m 0x610004 = true → bitAt w.toNat 3 = true →
    profileRec s (curSlot s) (w.toNat % 8) = none →
    ∃ t, exec (.contAct m w) s = .next t ∧
      get t Reg.contStatsRefused = min (2 ^ Reg.contStatsRefused.width - 1) (get s Reg.contStatsRefused + 1) ∧
      t.cont = s.cont ∧ regsSame s t [Reg.contStatsRefused]) ∧
  (∀ (s : State) (m : Master) (w : Word), accepts s m 0x610008 = true → w.toNat < 256 →
    ∃ t, exec (.contRelRelease m w) s = .next t ∧
      (m = .sp → ∀ p < 8, bitAt w.toNat p = true → (p, boundaryAfter s 2000) ∈ t.cont.relAt) ∧
      (∀ e ∈ s.cont.relAt, e ∈ t.cont.relAt) ∧
      (∀ e ∈ t.cont.relAt, e ∈ s.cont.relAt ∨
        (m = .sp ∧ e.2 = boundaryAfter s 2000 ∧ e.1 < 8 ∧ bitAt w.toNat e.1 = true)) ∧
      (∀ p < 8, bitAt (get t Reg.contStatusRelPend) p = bitAt (get s Reg.contStatusRelPend) p) ∧
      regsSame s t [Reg.contStatusRelPend] ∧ t = { s with regs := t.regs, cont := { s.cont with relAt := t.cont.relAt }, cpu := t.cpu, io := t.io }) ∧
  (∀ (s : State) (m : Master) (w : Word), accepts s m 0x610008 = true → w.toNat % 256 = 0 → w.toNat < 65536 →
    ∃ t, exec (.contRelDeny m w) s = .next t ∧
      (∀ p < 8, bitAt (get t Reg.contStatusRelPend) p = (bitAt (get s Reg.contStatusRelPend) p && !bitAt w.toNat (8 + p))) ∧
      t.cont.relAt = s.cont.relAt ∧ regsSame s t [Reg.contStatusRelPend] ∧
      t = { s with regs := t.regs, cont := t.cont, cpu := t.cpu, io := t.io }) ∧
  (∀ (s : State) (m : Master) (w : Word), accepts s m 0x61000C = true → w.toNat % 256 ≠ 0 → srcState s 2 = 0 →
    ∃ t, exec (.contRelReq m w) s = .next t ∧
      (∀ p < 8, bitAt (get t Reg.contStatusRelPend) p = (bitAt (get s Reg.contStatusRelPend) p || bitAt w.toNat p)) ∧
      srcState t 2 = 1 ∧ regsSame s t (Reg.contStatusRelPend :: raiseFields 2)) ∧
  (∀ (s : State) (ns : Nat), 700 < ns → aloft s = true → s.cont.pinLow = false →
    ∃ t, exec (.ripcordNAssert ns) s = .next t ∧ profileActive t 0 = true ∧ bitAt (get t (Reg.contCauseCause 0)) 0 = true ∧
      get t Reg.contStatusRipcordIn = 1 ∧ get t Reg.contStatusRipcordHeld = 0 ∧ t.cont.pinLow = true ∧
      t.cont.fellAt = s.time.now - ns ∧ t.env = s.env) ∧
  (∀ (s : State) (ns : Nat), 700 < ns → s.boot.phase = .moored → s.cont.pinLow = false →
    ∃ t, exec (.ripcordNAssert ns) s = .next t ∧ t.cont.pinLatched = true ∧ get t Reg.contStatusRipcordIn = 1 ∧
      t.wake = s.wake ∧ t.boot = s.boot) ∧
  (∀ (s : State) (ns : Nat), ns < 300 → exec (.ripcordNAssert ns) s = .next s) ∧
  (∀ (s : State), s.cont.pinLow = true →
    ∃ t, exec .ripcordNDeassert s = .next t ∧ t.cont.pinLow = false ∧ t.cont.roseAt = s.time.now ∧
      get t Reg.contStatusRipcordHeld = 1 ∧ flag t Reg.contStatusRipcordIn = s.cont.pinLatched ∧
      get t Reg.contStatusActive = get s Reg.contStatusActive ∧
      regsSame s t [Reg.contStatusRipcordHeld, Reg.contStatusRipcordIn] ∧ t = { s with regs := t.regs, cont := t.cont }) ∧
  (∀ (s : State), s.cont.pinLow = false → s.cont.roseAt + 1000000 ≤ s.time.now →
    ∃ t, exec .ripcordHoldExpiry s = .next t ∧ get t Reg.contStatusRipcordHeld = 0 ∧
      regsSame s t [Reg.contStatusRipcordHeld] ∧ t = { s with regs := t.regs }) ∧
  (∀ (s : State), s.time.now < s.cont.roseAt + 1000000 → exec .ripcordHoldExpiry s = .next s)

/-- FDB_FLUSH removes exactly the learned entries it names, ageing those past AGE_TIME; reads show them (R78, R111).
Where a clause rests on the model's own reading or choice: log entries 74, 75. -/
def Obligations.LearnedEntriesFlushAndAge : Prop :=
  (∀ (s : State) (m : Master) (w : Word), accepts s m 0x500010 = true → bitAt w.toNat 0 = true →
    flag s Reg.fdbStatusFlushBusy = false →
    ∃ t, exec (.fdbFlush m w) s = .next t ∧ get t Reg.fdbStatusFlushBusy = 1 ∧
      (∀ x, x ∈ t.net.learned ↔ x ∈ s.net.learned ∧
        ¬ ((bitAt w.toNat 1 = true → x.2.port = bitsAt w.toNat 3 6) ∧
          (bitAt w.toNat 2 = true → x.2.fid = bitsAt w.toNat 12 12))) ∧
      get t Reg.fdbStatusLearned = min 65535 t.net.learned.length ∧ t.net.static = s.net.static ∧
      regsSame s t [Reg.fdbStatusFlushBusy, Reg.fdbStatusLearned] ∧
      t = { s with regs := t.regs, net := { s.net with learned := t.net.learned }, cpu := t.cpu, io := t.io }) ∧
  (∀ s : State,
    ∃ t, exec .fdbFlushDone s = .next t ∧ get t Reg.fdbStatusFlushBusy = 0 ∧ regsSame s t [Reg.fdbStatusFlushBusy] ∧
      t = { s with regs := t.regs }) ∧
  (∀ (s : State) (i : Fin 32768) (e : Learned), aloft s = true → s.net.learned.find i.val = some e →
    get s Reg.swCfgAgeTime ≠ 0 → e.hitAt + get s Reg.swCfgAgeTime * 1000000000 ≤ s.time.now →
    ∃ t, exec (.fdbAgeing i) s = .next t ∧ t.net.learned.find i.val = none ∧
      (∀ k, k ≠ i.val → t.net.learned.find k = s.net.learned.find k) ∧
      get t Reg.fdbStatusLearned = min 65535 t.net.learned.length ∧ regsSame s t [Reg.fdbStatusLearned] ∧
      t = { s with regs := t.regs, net := { s.net with learned := t.net.learned } }) ∧
  (∀ (s : State) (i : Fin 32768), get s Reg.swCfgAgeTime = 0 → exec (.fdbAgeing i) s = .next s) ∧
  (∀ (s : State) (m : Master) (w : Word) (e : Nat) (l : Learned), accepts s m 0x500040 = true →
    bitAt w.toNat 0 = true → viewSlot s m (bitsAt w.toNat 16 2) (bitsAt w.toNat 18 2) = some e →
    s.net.learned.find (bitsAt w.toNat 1 15) = some l → l.fid < 4096 → l.port < 64 →
    ∃ t, exec (.fdbAccRead m w) s = .next t ∧ get t Reg.fdbAccAgeStatus = 0 ∧ get t Reg.fdbAccCtlDone = 1 ∧
      get t Reg.fdbAccMacLo = leAt l.mac 0 4 ∧ get t Reg.fdbAccMacHi = leAt l.mac 4 2 ∧
      get t Reg.fdbAccInfoFid = l.fid ∧ get t Reg.fdbAccInfoDest = l.port ∧ get t Reg.fdbAccInfoValid = 1 ∧
      get t Reg.fdbAccInfoStatic = 0 ∧ t.net = s.net)

/-- A frame enters staging, is written in cells under the current slot and judged at its tail (R117, R123, R126).
Where a clause rests on the model's own reading or choice: log entries 54, 55, 56, 130, 53. -/
def Obligations.FramesArriveAndAreWritten : Prop :=
  (∀ (s : State) (p : Fin 50) (f : WireFrame), aloft s = true → portUp s p = true → p.val ≠ 48 → f.verify = false →
    etypeAt f.bytes 12 ≠ 0x8808 → stagingBytes s p < stagingLimit →
    (48 ≤ p.val ∨ cur s (Reg.macsecCfgRxEn p) = 0) →
    (receiveFrame s p f.bytes).1 = none →
    ∃ t, exec (.frameArrival p f) s = .next t ∧ t.net.nextUid = s.net.nextUid + 1 ∧
      (∃ pk, packetOf t s.net.nextUid = some pk ∧ pk.bytes = f.bytes ∧ pk.port = p ∧ pk.rxLen = f.bytes.length + 4 ∧
        pk.sec = none ∧ pk.dei = arrivedDei f.bytes ∧
        pk.slot = none ∧ pk.written = 0 ∧ pk.tail = 0 ∧ pk.stamp = ingressStamp s p ∧ pk.decided = false ∧
        pk.ends = none ∧ pk.come = false) ∧
      (∀ u, u ≠ s.net.nextUid → packetOf t u = packetOf s u)) ∧
  (∀ (s : State) (p : Fin 50) (f : WireFrame) (k : Nat), aloft s = true → portUp s p = true → p.val ≠ 48 →
    f.verify = false → etypeAt f.bytes 12 ≠ 0x8808 → stagingBytes s p < stagingLimit →
    (48 ≤ p.val ∨ cur s (Reg.macsecCfgRxEn p) = 0) → (receiveFrame s p f.bytes).1 = some k →
    ∃ t, exec (.frameArrival p f) s = .next t ∧ t.net.nextUid = s.net.nextUid + 1 ∧
      (∃ pk, packetOf t s.net.nextUid = some pk ∧ pk.bytes = f.bytes ∧ pk.port = p ∧ pk.ends = some k ∧
        pk.dropped = true ∧ pk.slot = none ∧ pk.come = false) ∧
      (∀ u, u ≠ s.net.nextUid → packetOf t u = packetOf s u)) ∧
  (∀ (s : State) (p : Fin 50) (f : WireFrame), aloft s = true → portUp s p = true → p.val < 48 → f.verify = false →
    etypeAt f.bytes 12 ≠ 0x8808 → cur s (Reg.macsecCfgRxEn p) = 0 → stagingLimit ≤ stagingBytes s p →
    ∃ t, exec (.frameArrival p f) s = .next t ∧ t.net = s.net ∧
      get t (Reg.swStagingDrops p) = min (2 ^ (Reg.swStagingDrops p).width - 1) (get s (Reg.swStagingDrops p) + 1) ∧
      regsSame s t [Reg.swStagingDrops p] ∧ t = { s with regs := t.regs, accum := t.accum }) ∧
  (∀ (s : State) (p : Fin 50) (f : WireFrame), aloft s = true → portUp s p = true → p.val < 48 → f.verify = false →
    etypeAt f.bytes 12 ≠ 0x8808 → cur s (Reg.macsecCfgRxEn p) = 1 →
    ∃ t, exec (.frameArrival p f) s = .next t ∧ t.net.nextUid = s.net.nextUid + 1 ∧
      (∃ pk, packetOf t s.net.nextUid = some pk ∧ pk.bytes = f.bytes ∧ pk.port = p ∧ pk.sec = some (rxCfg s (curSlot s) p) ∧
        pk.written = 0 ∧ pk.tail = 0 ∧ pk.stamp = ingressStamp s p) ∧
      (∀ u, u ≠ s.net.nextUid → packetOf t u = packetOf s u) ∧ t = { s with net := t.net }) ∧
  (∀ (s : State) (p : Fin 50) (f : WireFrame), aloft s = true → portUp s p = true → p.val ≠ 48 → f.verify = false →
    etypeAt f.bytes 12 = 0x8808 →
    ∃ t, exec (.frameArrival p f) s = .next t ∧ t.net.nextUid = s.net.nextUid + 1 ∧
      (∃ pk, packetOf t s.net.nextUid = some pk ∧ pk.bytes = f.bytes ∧ pk.port = p ∧ pk.ends = some 0 ∧
        pk.dropped = true ∧ pk.come = false) ∧
      (∀ u, u ≠ s.net.nextUid → packetOf t u = packetOf s u) ∧ t = { s with net := t.net }) ∧
  (∀ (s : State) (p : Fin 50) (f : WireFrame), aloft s = true → portUp s p = true → p.val ≠ 48 → f.verify = true →
    preemptCap s p = true →
    ∃ t, exec (.frameArrival p f) s = .next t ∧
      t = { s with io.out := if silent s then s.io.out else .mpacket p .response 0 0 [] :: s.io.out }) ∧
  (∀ (s : State) (p : Fin 50) (f : WireFrame), portUp s p = false → exec (.frameArrival p f) s = .next s) ∧
  (∀ (s : State) (p : Fin 52) (u : Nat) (pk : Packet),
    (firstPacket s fun x =>
      x.port == p.val && x.sec.isNone && x.hold.isNone && x.ends.isNone && decide (x.written < x.bytes.length)) =
        some (u, pk) → pk.dropped = false → pk.slot = none → curSlot s < 4 →
    ∃ t, exec (.cellWrite p) s = .next t ∧
      packetOf t u = some { pk with written := min pk.bytes.length (pk.written + 256), slot := some (curSlot s) } ∧
      get t (Reg.inflightCount (curSlot s)) = (get s (Reg.inflightCount (curSlot s)) + 1) % 2 ^ 20 ∧
      (∀ v, v ≠ u → packetOf t v = packetOf s v) ∧ regsSame s t [Reg.inflightCount (curSlot s)] ∧
      t = { s with regs := t.regs, net := { s.net with packets := t.net.packets } }) ∧
  (∀ (s : State) (p : Fin 52) (u : Nat) (pk : Packet) (asmErr : Bool),
    (firstPacket s fun x => x.port == p.val && !x.come) = some (u, pk) → pk.sec = none → pk.ends = none →
    pk.bytes.length ≤ pk.written → pk.tail = 0 → pk.passes = 0 → pk.dropped = false → pk.decided = false →
    64 ≤ pk.rxLen → pk.rxLen ≤ 10240 → (asmErr && preemptCap s p) = false →
    ∃ t, exec (.frameTail p true asmErr) s = .next t ∧ packetOf t u = some { pk with tail := 1, come := true } ∧
      (p.val < 48 →
        (t.net.mib.find (32 * p.val)).getD 0 = ((s.net.mib.find (32 * p.val)).getD 0 + 1) % 2 ^ 64) ∧
      (∀ v, v ≠ u → packetOf t v = packetOf s v) ∧ regsSame s t [] ∧
      t = { s with net := { s.net with packets := t.net.packets, mib := t.net.mib } }) ∧
  (∀ (s : State) (p : Fin 52) (u : Nat) (pk : Packet) (i : Nat) (asmErr : Bool),
    (firstPacket s fun x => x.port == p.val && !x.come) = some (u, pk) → tailReady pk = true → pk.tail = 0 →
    headLeft s u pk = false → pk.passes = 0 → pk.dropped = false → pk.decided = false → pk.slot = some i → i < 4 →
    pk.pool = 0 → 64 ≤ pk.rxLen → pk.rxLen ≤ 10240 → (asmErr && preemptCap s p) = false →
    ∃ t, exec (.frameTail p false asmErr) s = .next t ∧ packetOf t u = none ∧
      get t (Reg.inflightCount i) = (get s (Reg.inflightCount i) - 1) % 2 ^ 20 ∧
      (p.val < 48 →
        (t.net.mib.find (32 * p.val + 2)).getD 0 = ((s.net.mib.find (32 * p.val + 2)).getD 0 + 1) % 2 ^ 64) ∧
      (∀ v, v ≠ u → packetOf t v = packetOf s v)) ∧
  (∀ (s : State) (p : Fin 52) (u : Nat) (pk : Packet) (fcsOk asmErr : Bool),
    (firstPacket s fun x => x.port == p.val && !x.come) = some (u, pk) → pk.bytes.length ≤ pk.written → pk.tail = 0 →
    headLeft s u pk = false → pk.dropped = false → pk.decided = false → pk.passes = 0 → asmErr = true →
    preemptCap s p = true → 64 ≤ pk.rxLen → pk.rxLen ≤ 10240 → pk.slot = none → pk.pool = 0 →
    ∃ t, exec (.frameTail p fcsOk asmErr) s = .next t ∧ packetOf t u = none ∧
      get t (Reg.preemptStatusAsmErrors p) =
        min (2 ^ (Reg.preemptStatusAsmErrors p).width - 1) (get s (Reg.preemptStatusAsmErrors p) + 1)) ∧
  (∀ (s : State) (p : Fin 48) (u : Nat) (pk : Packet) (fcsOk asmErr : Bool),
    (firstPacket s fun x => x.port == p.val && !x.come) = some (u, pk) → tailReady pk = true → pk.tail = 0 →
    pk.ends = some 0 → pk.dropped = true → headLeft s u pk = false →
    (pk.rxLen < 64 ∨ 10240 < pk.rxLen ∨ fcsOk = false) → (asmErr && preemptCap s p) = false →
    ∃ t, exec (.frameTail ⟨p, by omega⟩ fcsOk asmErr) s = .next t ∧ packetOf t u = none ∧
      (t.net.mib.find (32 * p.val + 18)).getD 0 = (s.net.mib.find (32 * p.val + 18)).getD 0 ∧
      (t.net.mib.find (32 * p.val + (if pk.rxLen < 64 then 3 else if 10240 < pk.rxLen then 4 else 2))).getD 0 =
        ((s.net.mib.find (32 * p.val + (if pk.rxLen < 64 then 3 else if 10240 < pk.rxLen then 4 else 2))).getD 0 + 1) %
          2 ^ 64) ∧
  (∀ (s : State) (p : Fin 48) (u : Nat) (pk : Packet) (asmErr : Bool),
    (firstPacket s fun x => x.port == p.val && !x.come) = some (u, pk) → pk.tail = 0 → pk.ends = some 0 →
    tailFault pk.needEnd pk.avtpEnd pk.bytes.length = 0 → 64 ≤ pk.rxLen → pk.rxLen ≤ 10240 →
    (asmErr && preemptCap s p) = false →
    ∃ t, exec (.frameTail ⟨p, by omega⟩ true asmErr) s = .next t ∧ packetOf t u = none ∧
      (t.net.mib.find (32 * p.val + 18)).getD 0 = ((s.net.mib.find (32 * p.val + 18)).getD 0 + 1) % 2 ^ 64 ∧
      (∀ v, v ≠ u → packetOf t v = packetOf s v) ∧ regsSame s t [] ∧
      t = { s with net := { s.net with packets := t.net.packets, mib := t.net.mib } })

/-- A decision takes one pipeline cycle, removes its unit from its source and keeps the classes adding up (R149).
Where a clause rests on the model's own reading or choice: log entries 59, 60, 13. -/
def Obligations.UnitsAreDecided : Prop :=
  (∀ (s : State) (src : UnitSource) (ecc : DecisionEcc), aloft s = true → sourceOffered s src = true →
    ∃ t, exec (.unitDecision src ecc) s = .next t ∧
      get t Reg.slotTotal = (get s Reg.slotTotal + 1) % 2 ^ 64 ∧ (slotsAddUp s → slotsAddUp t)) ∧
  (∀ (s : State) (src : UnitSource) (ecc : DecisionEcc), sourceOffered s src = false →
    exec (.unitDecision src ecc) s = .next s) ∧
  (∀ (s : State) (p : Fin 50) (ecc : DecisionEcc), get s Reg.slotTotal % 4 = 0 → sourceReady s .recirc = true →
    exec (.unitDecision (.port p) ecc) s = .next s) ∧
  (∀ (s : State) (p : Fin 50) (ecc : DecisionEcc), stagingTurn s ≠ some p.val →
    exec (.unitDecision (.port p) ecc) s = .next s) ∧
  (∀ (s : State) (p : Fin 48) (u : Nat) (pk : Packet) (i : Nat), aloft s = true →
    nextFrame s p = some (u, pk) → sourceOffered s (.port ⟨p, by omega⟩) = true → pk.slot = some i → i < 4 → pk.pool = 0 →
    pk.dropped = false → pk.tail ≠ 0 → ingressVlan s i pk.port pk.bytes = none → pk.port = p →
    ∃ t, exec (.unitDecision (.port ⟨p, by omega⟩) .clean) s = .next t ∧ packetOf t u = none ∧
      get t (Reg.swVlanDrops p) = min (2 ^ (Reg.swVlanDrops p).width - 1) (get s (Reg.swVlanDrops p) + 1) ∧
      get t Reg.slotRetired = (get s Reg.slotRetired + 1) % 2 ^ 64 ∧ get t Reg.slotWasted = get s Reg.slotWasted) ∧
  (∀ (s : State) (n : Fin 256) (x : EdgeMsg) (rest : List EdgeMsg) (ecc : DecisionEcc), aloft s = true →
    s.edge.rxList.find n.val = some (x :: rest) → sourceOffered s (.channel n) = true →
    ∃ t, exec (.unitDecision (.channel n) ecc) s = .next t ∧ (t.edge.rxList.find n.val).getD [] = rest) ∧
  (∀ (s : State) (n : Fin 256) (x : EdgeMsg) (rest : List EdgeMsg) (cell : Nat), aloft s = true →
    s.edge.rxList.find n.val = some (x :: rest) → sourceOffered s (.channel n) = true →
    ∃ t, exec (.unitDecision (.channel n) (.cellError cell)) s = .next t ∧
      get t Reg.slotWasted = (get s Reg.slotWasted + 1) % 2 ^ 64 ∧
      get t Reg.wastedTail = min (2 ^ Reg.wastedTail.width - 1) (get s Reg.wastedTail + 1) ∧
      t.edge.txq = s.edge.txq ∧ t.net.queues = s.net.queues)

/-- FRAME_SELECT starts the picked replica on its MAC; FRAME_TRANSMIT_END sends its bytes and frees the MAC (R116,
R189). Where a clause rests on the model's own reading or choice: log entries 72, 54, 126, 133. -/
def Obligations.SelectedFramesAreSent : Prop :=
  (∀ (s : State) (p : Fin 50) (mac : MacKind) (q : Nat) (r : Replica) (pk : Packet), aloft s = true → p.val ≠ 48 →
    portUp (gateSync s p) p = true → macFree (gateSync s p) p (mac == .preemptable) = true →
    portEligible (gateSync s p) p = true →
    ((nodesDown.filter fun n => nodePreemptable (tagHeads (gateSync s p) p) p n == (mac == .preemptable)).findSome? fun n =>
      neverFitHead (tagHeads (gateSync s p) p) p n) = none →
    ((nodesDown.filter fun n => nodeServed (tagHeads (gateSync s p) p) p n (mac == .preemptable)).findSome? fun n =>
      nodePick (tagHeads (gateSync s p) p) p n) = some (q, r, pk) → q < 64 →
    admitsPort (tagHeads (gateSync s p) p) p (pk.safety || pk.fixed || pk.tunnel.isSome) pk.marked = true →
    txProtected (tagHeads (gateSync s p) p) (pk.slot.getD (curSlot (tagHeads (gateSync s p) p))) p pk.bytes = false →
    ∃ t, exec (.frameSelect ⟨p, by omega⟩ mac .clean) s = .next t ∧
      (∃ x, t.net.macs.find (2 * p.val + b2n (mac == .preemptable)) = some x ∧ x.rep = r ∧ x.leaf = q ∧
        x.bytes = egressBytes (tagHeads (gateSync s p) p) p pk ∧ x.charged = wireLen (tagHeads (gateSync s p) p) p pk) ∧
      (queueOf t p q).map (fun y => y.uid) =
        ((queueOf (tagHeads (gateSync s p) p) p q).drop 1).map (fun y => y.uid)) ∧
  (∀ (s : State) (p : Fin 50) (mac : MacKind) (x : Tx) (pk : Packet), p.val ≠ 48 →
    (reachCut s p).net.macs.find (2 * p.val + b2n (mac == .preemptable)) = some x → packetOf s x.rep.uid = some pk →
    x.running = true → x.startAt + x.rest ≤ s.time.now → (pk.tail ≠ 0 ∨ x.stomp = true) →
    ∃ t, exec (.frameTransmitEnd ⟨p, by omega⟩ mac) s = .next t ∧
      t.net.macs.find (2 * p.val + b2n (mac == .preemptable)) = none ∧
      .frame p (mac == .preemptable) x.bytes x.stomp (if p.val = 49 then pk.stamp else x.egress) ∈ t.io.out ∧
      (mac = .preemptable → .mpacket p (if x.frags = 0 then .start else .cont) x.number ((x.frags - 1) % 4)
        (x.bytes.drop x.sent) ∈ t.io.out) ∧
      (p.val < 48 → x.stomp = false → wantsCapture s p pk = true → .capture p x.egress pk.bytes ∈ t.io.out) ∧
      s.io.out <:+ t.io.out) ∧
  (∀ (s : State) (p : Fin 52) (mac : MacKind) (x : Tx),
    (reachCut s p).net.macs.find (2 * p.val + b2n (mac == .preemptable)) = some x →
    (packetOf s x.rep.uid).isSome = true → s.time.now < x.startAt + x.rest →
    exec (.frameTransmitEnd p mac) s = .next (reachCut s p)) ∧
  (∀ (s : State) (p : Fin 48) (x y : Tx) (c : Nat), s.net.macs.find (2 * p.val + 1) = some x →
    s.net.macs.find (2 * p.val) = some y → x.running = true → x.cutAt = some c → c ≤ s.time.now →
    s.time.now < y.startAt + y.rest → (packetOf s y.rep.uid).isSome = true →
    ∃ t, exec (.frameTransmitEnd ⟨p, by omega⟩ .express) s = .next t ∧
      (∃ z, t.net.macs.find (2 * p.val + 1) = some z ∧ z.running = false ∧ z.frags = x.frags + 1 ∧
        z.sent = sentBy s p x c) ∧
      t.io.out = .mpacket p (if x.frags = 0 then .start else .cont) x.number ((x.frags - 1) % 4)
        (slice x.bytes x.sent (sentBy s p x c - x.sent)) :: s.io.out)

/-- CAN controllers join, count errors, go bus-off and recover; messages are offered in order and completed (R213,
R214). Where a clause rests on the model's own reading or choice: log entries 86, 85, 84, 90. -/
def Obligations.CanControllersAndMessages : Prop :=
  (∀ (s : State) (ch : Fin 16), aloft s = true → descentPhase s < 3 → (chanState s ch = 1 ∨ chanState s ch = 2) →
    s.edge.joined.contains ch.val = false →
    ∃ t, exec (.canBusIntegrated ch) s = .next t ∧ t.edge.joined = ch.val :: s.edge.joined ∧ regsSame s t [] ∧
      t = { s with edge := { s.edge with joined := t.edge.joined } }) ∧
  (∀ (s : State) (ch : Fin 16), canOnBus s ch = true →
    ∃ t, exec (.canBusError ch .receive) s = .next t ∧ get t (Reg.canErrRec ch) = min 255 (get s (Reg.canErrRec ch) + 1) ∧
      get t (Reg.canErrTec ch) = min 255 (get s (Reg.canErrTec ch)) ∧
      get t (Reg.chBusErrors ch) = min (2 ^ (Reg.chBusErrors ch).width - 1) (get s (Reg.chBusErrors ch) + 1) ∧
      t.edge = s.edge) ∧
  (∀ (s : State) (ch : Fin 16), canOnBus s ch = true →
    ∃ t, exec (.canBusError ch .receiveDominant) s = .next t ∧
      get t (Reg.canErrRec ch) = min 255 (get s (Reg.canErrRec ch) + 8) ∧ t.edge = s.edge) ∧
  (∀ (s : State) (ch : Fin 16), canOnBus s ch = true →
    ∃ t, exec (.canBusError ch .transmit) s = .next t ∧
      get t (Reg.canErrTec ch) = min 255 (get s (Reg.canErrTec ch) + 8) ∧ t.edge.offered.find ch.val = none ∧
      get t (Reg.chBusErrors ch) = min (2 ^ (Reg.chBusErrors ch).width - 1) (get s (Reg.chBusErrors ch) + 1)) ∧
  (∀ (s : State) (ch : Fin 16) (q : QMsg), canOnBus s ch = true → s.edge.offered.find ch.val = some q →
    (txqOf s ch).length < 64 → s.edge.again.find ch.val = none →
    ∃ t, exec (.canBusError ch .transmit) s = .next t ∧ t.edge.offered.find ch.val = none ∧
      txqOf t ch = insertOrder q true (txqOf s ch) ∧ t.edge.again = s.edge.again) ∧
  (∀ (s : State) (ch : Fin 16), canOnBus s ch = true → 255 < get s (Reg.canErrTec ch) + 8 →
    ∃ t, exec (.canBusError ch .transmit) s = .next t ∧ chanState t ch = (if chanFlag s ch 4 then 4 else 3) ∧
      get t (Reg.chEventsBusOff ch) = 1 ∧ flag t (Reg.srcCfgLevel (112 + ch)) = true ∧
      get t (Reg.canErrBusOffs ch) =
        min (2 ^ (Reg.canErrBusOffs ch).width - 1) (get s (Reg.canErrBusOffs ch) + 1)) ∧
  (∀ (s : State) (m : Master) (ch : Fin 256), accepts s m (0xA00004 + 0x1000 * ch.val) = true → ch.val < 16 →
    chanState s ch = 3 →
    ∃ t, exec (.recover m ch) s = .next t ∧ chanState t ch = 4 ∧ regsSame s t [Reg.chStatusState ch] ∧
      t = { s with regs := t.regs, cpu := t.cpu, io := t.io }) ∧
  (∀ (s : State) (ch : Fin 16), chanState s ch = 4 →
    ∃ t, exec (.canRecoveryComplete ch) s = .next t ∧ chanState t ch = 1 ∧ get t (Reg.canErrTec ch) = 0 ∧
      get t (Reg.canErrRec ch) = 0 ∧
      regsSame s t [Reg.chStatusState ch, Reg.canErrTec ch, Reg.canErrRec ch] ∧ t = { s with regs := t.regs }) ∧
  (∀ (s : State) (ch : Fin 16) (q : QMsg) (rest : List QMsg), canOnBus s ch = true → chanFlag s ch 2 = false →
    s.edge.offered.has ch.val = false → s.edge.again.find ch.val = none →
    s.edge.txq.find ch.val = some (q :: rest) → q.made = none → txTimeout s ch = s → neverStarts s ch q.msg = false →
    mayStart s ch q.msg = true → admitsTarget s ch q.safety = true →
    ∃ t, exec (.canArbitration ch) s = .next t ∧ t.edge.offered.find ch.val = some q ∧ txqOf t ch = rest ∧
      get t (Reg.chStatusTxqDepth ch) = rest.length % 2 ^ (Reg.chStatusTxqDepth ch).width) ∧
  (∀ (s : State) (ch : Fin 16) (q : QMsg), s.edge.offered.find ch.val = some q → (txqOf s ch).length < 64 →
    s.edge.again.find ch.val = none →
    ∃ t, exec (.canArbitrationLost ch) s = .next t ∧ t.edge.offered.find ch.val = none ∧
      txqOf t ch = insertOrder q true (txqOf s ch) ∧
      regsSame s t [Reg.chStatusTxqDepth ch, Reg.chStatusRxlDepth ch] ∧ t = { s with regs := t.regs, edge := t.edge }) ∧
  (∀ (s : State) (ch : Fin 16) (q : QMsg), s.edge.offered.find ch.val = some q →
    ∃ t, exec (.canTxComplete ch) s = .next t ∧ t.edge.offered.find ch.val = none ∧
      .can ch q.msg ∈ t.io.out ∧
      get t (Reg.chTxFrames ch) = min (2 ^ (Reg.chTxFrames ch).width - 1) (get s (Reg.chTxFrames ch) + 1) ∧
      get t (Reg.canErrTec ch) = min 255 (get s (Reg.canErrTec ch) - 1) ∧
      get t (Reg.canErrRec ch) = min 255 (get s (Reg.canErrRec ch)) ∧ t.edge.txq = s.edge.txq) ∧
  (∀ (s : State) (ch : Fin 16) (q : QMsg) (rest : List QMsg), canOnBus s ch = true → chanFlag s ch 2 = false →
    s.edge.offered.has ch.val = false → s.edge.again.find ch.val = none →
    s.edge.txq.find ch.val = some (q :: rest) → q.made.isSome = true →
    (∀ x ∈ rest, orderOf x.msg = orderOf q.msg) → txTimeout s ch = s →
    exec (.canArbitration ch) s = .next s) ∧
  (∀ (s : State) (ch : Fin 16), s.edge.offered.find ch.val = none → exec (.canTxComplete ch) s = .next s)

/-- Received CAN messages are counted; SecOC accepts exactly the PDUs whose MAC verifies (R211, R236, R237). Where a
clause rests on the model's own reading or choice: log entries 90, 5, 6, 86. -/
def Obligations.EdgeMessagesAreVerified : Prop :=
  (∀ (s : State) (ch : Fin 16) (msg : BusMsg), canOnBus s ch = true → msg.format ≠ .lin → kindFits s ch msg = true →
    ∃ t, exec (.canFrameReceive ch msg) s = .next t ∧
      get t (Reg.chRxFrames ch) = min (2 ^ (Reg.chRxFrames ch).width - 1) (get s (Reg.chRxFrames ch) + 1) ∧
      get t (Reg.canErrTec ch) = min 255 (get s (Reg.canErrTec ch)) ∧
      (get s (Reg.canErrRec ch) ≤ 127 → get t (Reg.canErrRec ch) = get s (Reg.canErrRec ch) - 1) ∧
      (127 < get s (Reg.canErrRec ch) → 119 ≤ get t (Reg.canErrRec ch) ∧ get t (Reg.canErrRec ch) ≤ 127)) ∧
  (∀ (s : State) (ch : Fin 16) (msg : BusMsg), canOnBus s ch = true → msg.format = .xl → kindFits s ch msg = true →
    msg.sec = true →
    ∃ t, exec (.canFrameReceive ch msg) s = .next t ∧
      get t (Reg.chSecFmtFormatDrops ch) =
        min (2 ^ (Reg.chSecFmtFormatDrops ch).width - 1) (get s (Reg.chSecFmtFormatDrops ch) + 1) ∧ t.edge = s.edge) ∧
  (∀ (s : State) (ch : Fin 16) (msg : BusMsg), canOnBus s ch = false → exec (.canFrameReceive ch msg) s = .next s) ∧
  (∀ (s : State) (ch : Fin 256) (x : EdgeMsg) (e fv gen : Nat) (b : List Byte), s.edge.rxList.find ch.val = some [x] →
    x.wait = some (e, fv, gen) → x.slot < 4 → recOf s x.slot 0x0310 e = some b → keyServes s b gen 1 = true →
    ∃ t, exec (.secocVerifyDone ch) s = .next t ∧
      (secocMac s b (x.msg.payload.take (leAt b 12 2)) fv =
          slice x.msg.payload (leAt b 12 2 + u8 b 14 / 8) (u8 b 15 / 8) →
        fvOf t e = fv ∧ ∃ y, t.edge.rxList.find ch.val = some [y] ∧ y.ready = true ∧ y.secOk = true) ∧
      (secocMac s b (x.msg.payload.take (leAt b 12 2)) fv ≠
          slice x.msg.payload (leAt b 12 2 + u8 b 14 / 8) (u8 b 15 / 8) →
        t.edge.fv = s.edge.fv ∧ t.edge.rxList.find ch.val = none ∧
        get t (Reg.chSecMacFail ch) = min (2 ^ (Reg.chSecMacFail ch).width - 1) (get s (Reg.chSecMacFail ch) + 1))) ∧
  (∀ (s : State) (ch : Fin 256) (x : EdgeMsg) (e fv gen : Nat) (b : List Byte), s.edge.rxList.find ch.val = some [x] →
    x.wait = some (e, fv, gen) → x.slot < 4 → recOf s x.slot 0x0310 e = some b → keyServes s b gen 1 = false →
    ∃ t, exec (.secocVerifyDone ch) s = .next t ∧ t.edge.fv = s.edge.fv ∧ t.edge.rxList.find ch.val = none ∧
      get t (Reg.chSecSecKeyDrops ch) =
        min (2 ^ (Reg.chSecSecKeyDrops ch).width - 1) (get s (Reg.chSecSecKeyDrops ch) + 1)) ∧
  (∀ (s : State) (j : SecJob) (js : List SecJob) (b : List Byte), s.edge.secJobs = j :: js → j.out.slot < 4 →
    recOf s j.out.slot 0x0310 j.entry = some b → keyServes s b j.gen 0 = false →
    (∀ n ∈ j.targets, placesOf s n j = []) →
    ∃ t, exec .secocGenerateDone s = .next t ∧ t.edge.secJobs = js ∧ t.edge.txq = s.edge.txq ∧
      t.net.queues = s.net.queues ∧
      get t (Reg.inflightCount j.out.slot) = (get s (Reg.inflightCount j.out.slot) - 1) % 2 ^ 20) ∧
  (∀ (s : State) (j : SecJob) (js : List SecJob) (b : List Byte) (n : Nat) (q : QMsg), s.edge.secJobs = j :: js →
    j.targets = [n] → n < 256 → recOf s j.out.slot 0x0310 j.entry = some b → keyServes s b j.gen 0 = false →
    s.edge.again.find n = none → s.edge.txq.find n = some [q] → q.made = some (j.entry, j.fv) →
    ∃ t, exec .secocGenerateDone s = .next t ∧ t.edge.secJobs = js ∧ txqOf t n = [] ∧
      get t (Reg.chSecSecKeyDrops n) =
        min (2 ^ (Reg.chSecSecKeyDrops n).width - 1) (get s (Reg.chSecSecKeyDrops n) + 1)) ∧
  (∀ (s : State) (j : SecJob) (js : List SecJob) (b r : List Byte) (n : Nat) (q : QMsg), s.edge.secJobs = j :: js →
    j.targets = [n] → n < 24 → recOf s j.out.slot 0x0310 j.entry = some b → keyServes s b j.gen 0 = true →
    routeRec s j.out.slot j.out.route = some r → bitAt (leAt r 0 2) 2 = false →
    s.edge.again.find n = none → s.edge.txq.find n = some [q] → q.made = some (j.entry, j.fv) →
    ∃ t, exec .secocGenerateDone s = .next t ∧ t.edge.secJobs = js ∧
      txqOf t n = [{ q with
        msg := outFor s n { j.out.msg with payload := securedPdu s b j.out.msg.payload j.fv }, made := none }])

/-- Tunnels report a silent bridge, packers collect a channel's messages and close; late messages time out (R224,
R225, R227, R234). Where a clause rests on the model's own reading or choice: log entries 87, 82, 85. -/
def Obligations.TunnelsAndPackers : Prop :=
  (∀ (s : State) (b : Fin 64), aloft s = true → (edges s).bindChans b ≠ [] → flag s (Reg.bindLost b) = false →
    (s.edge.heardAt.find b.val).getD 0 + leAt (bindEntry (edges s) b) 32 2 * 1000000 ≤ s.time.now →
    ∃ t, exec (.bridgeLost b) s = .next t ∧ get t (Reg.bindLost b) = 1 ∧
      (∀ n ∈ (edges s).bindChans b, n < 256 → get t (Reg.chStatusBridgeLost n) = 1 ∧
        get t (Reg.chEventsBridgeLost n) = 1 ∧ flag t (Reg.srcCfgLevel (112 + n)) = true) ∧ t.edge = s.edge) ∧
  (∀ (s : State) (b : Fin 64), flag s (Reg.bindLost b) = true → exec (.bridgeLost b) s = .next s) ∧
  (∀ (s : State) (u : Nat) (us : List Nat) (pk : Packet) (b : Nat), s.edge.tunnelIn = u :: us →
    packetOf s u = some pk → pk.tail = 1 → pk.tunnel = some b → b < 64 →
    ∃ t, exec .acfTunnelEndpoint s = .next t ∧ t.edge.tunnelIn = us ∧ t.edge.heardAt.find b = some s.time.now ∧
      t.edge.lastSeq.find b = some (avtpSeq pk.bytes (avtpOff pk.bytes)) ∧ get t (Reg.bindLost b) = 0 ∧
      get t (Reg.bindRxTunnel b) = min (2 ^ (Reg.bindRxTunnel b).width - 1) (get s (Reg.bindRxTunnel b) + 1)) ∧
  (∀ (s : State) (b : Fin 64) (n : Nat) (q : QMsg), packersRun s = true → s.edge.packers.find b.val = none →
    (edges s).bindChans b = [n] → s.edge.txq.find n = some [q] →
    (acfPack q.msg q.stamp (u8 (chanEntry (edges s) n) 15) (bitAt (leAt (bindEntry (edges s) b) 0 2) 2)).length ≤
      acfLimit (bindEntry (edges s) b) →
    admitsTarget s n q.safety = true → q.made = none → s.edge.again.find n = none →
    ∃ t, exec (.packerOpen b) s = .next t ∧ t.edge.packers.find b.val = some ⟨s.time.now, q.slot,
        acfPack q.msg q.stamp (u8 (chanEntry (edges s) n) 15) (bitAt (leAt (bindEntry (edges s) b) 0 2) 2)⟩ ∧
      txqOf t n = []) ∧
  (∀ (s : State) (b : Fin 64) (p : Packer), s.edge.packers.find b.val = some p → bindDepth s b = 0 →
    p.openedAt + u8 (bindEntry (edges s) b) 7 * 1000 ≤ s.time.now →
    ∃ t, exec (.packWaitExpiry b) s = .next t ∧ t.edge.packers.find b.val = none ∧
      t.edge.packed.find b.val = some ((s.edge.packed.find b.val).getD [] ++ [(p, get s (Reg.bindSeqTxSeq b))]) ∧
      get t (Reg.bindSeqTxSeq b) = (get s (Reg.bindSeqTxSeq b) + 1) % 256 ∧
      regsSame s t [Reg.bindSeqTxSeq b] ∧ t = { s with regs := t.regs, edge := t.edge }) ∧
  (∀ (s : State) (ch : Fin 256) (q : QMsg), s.edge.txq.find ch.val = some [q] → txLimit s ch q ≠ 0 →
    q.decidedAt + txLimit s ch q < s.time.now → s.edge.again.find ch.val = none →
    ∃ t, exec (.txTimeout ch) s = .next t ∧ txqOf t ch = [] ∧
      get t (Reg.chTxTimeoutDrops ch) =
        min (2 ^ (Reg.chTxTimeoutDrops ch).width - 1) (get s (Reg.chTxTimeoutDrops ch) + 1) ∧
      get t (Reg.chEventsTxTimeout ch) = 1 ∧ flag t (Reg.srcCfgLevel (112 + ch)) = true)

/-- LIN schedules send headers and judge responses; freshness values are saved and read back (R78, R218, R220,
R239). Where a clause rests on the model's own reading or choice: log entries 92, 75, 122, 134. -/
def Obligations.LinAndFreshness : Prop :=
  (∀ (s : State) (l : Fin 8) (b : List Byte), aloft s = true → atBoundary s = true → descentPhase s < 3 →
    chanState s (16 + l) = 5 → chanBlocked s (16 + l) = false → linRun s (16 + l) = none →
    cur s (Reg.chCtlLinTable (16 + l)) < 15 →
    recOf s (curSlot s) 0x0300 (3 * 2 ^ 24 + 8 * l + cur s (Reg.chCtlLinTable (16 + l))) = some b →
    u8 b 17 % 2 = 1 →
    ∃ t, exec (.linSlotStart l) s = .next t ∧ get t (Reg.chStatusLinRun (16 + l)) =
        cur s (Reg.chCtlLinTable (16 + l)) % 2 ^ (Reg.chStatusLinRun (16 + l)).width ∧
      get t (Reg.chStatusLinSlot (16 + l)) = 0 ∧ t.io.out = .linHeader l (u8 b 16) :: s.io.out ∧
      (linRun t (16 + l)).map (fun r => (r.waiting, r.sentAt, r.endTempo)) =
        some (some (u8 b 16, u8 b 18), s.time.now, tempoNo s + leAt b 20 2)) ∧
  (∀ (s : State) (l : Fin 8) (r : LinRun) (id : Nat) (data : List Byte) (csum : Byte), linRun s (16 + l) = some r →
    r.waiting = some (id, data.length) → s.time.now ≤ r.sentAt + linLimitNs s (16 + l) data.length →
    csum ≠ linCsum (linClassic r id) id data →
    ∃ t, exec (.linResponse l data csum) s = .next t ∧ linRun t (16 + l) = some { r with waiting := none } ∧
      get t (Reg.chLinLinCsumErr (16 + l)) =
        min (2 ^ (Reg.chLinLinCsumErr (16 + l)).width - 1) (get s (Reg.chLinLinCsumErr (16 + l)) + 1)) ∧
  (∀ (s : State) (l : Fin 8) (r : LinRun) (id : Nat) (data : List Byte), linRun s (16 + l) = some r →
    r.waiting = some (id, data.length) → s.time.now ≤ r.sentAt + linLimitNs s (16 + l) data.length →
    ∃ t, exec (.linResponse l data (linCsum (linClassic r id) id data)) s = .next t ∧ linRun t (16 + l) = some { r with waiting := none } ∧
      get t (Reg.chRxFrames (16 + l)) =
        min (2 ^ (Reg.chRxFrames (16 + l)).width - 1) (get s (Reg.chRxFrames (16 + l)) + 1)) ∧
  (∀ (s : State) (l : Fin 8) (r : LinRun) (id len : Nat), linRun s (16 + l) = some r → r.waiting = some (id, len) →
    r.sentAt + linLimitNs s (16 + l) len ≤ s.time.now →
    ∃ t, exec (.linNoResp l) s = .next t ∧ linRun t (16 + l) = some { r with waiting := none } ∧
      get t (Reg.chLinLinNoResp (16 + l)) =
        min (2 ^ (Reg.chLinLinNoResp (16 + l)).width - 1) (get s (Reg.chLinLinNoResp (16 + l)) + 1) ∧
      get t (Reg.chEventsLinNoResp (16 + l)) = 1) ∧
  (∀ (s : State) (l : Fin 8) (r : LinRun) (id : Nat) (data : List Byte), linRun s (16 + l) = some r →
    r.sending = some (id, data, none) → s.time.now < r.sentAt + linFrameNs s (16 + l) data.length →
    ∃ t, exec (.linReadbackMismatch l) s = .next t ∧ linRun t (16 + l) = some { r with sending := none } ∧
      get t (Reg.chBusErrors (16 + l)) =
        min (2 ^ (Reg.chBusErrors (16 + l)).width - 1) (get s (Reg.chBusErrors (16 + l)) + 1) ∧
      t.edge.linLast = s.edge.linLast ∧ t.io = s.io) ∧
  (∀ (s : State) (l : Fin 8) (r : LinRun) (id len : Nat), linRun s (16 + l) = some r → r.sending = none →
    r.waiting = some (id, len) → s.time.now < r.sentAt + linHeaderNs s (16 + l) →
    ∃ t, exec (.linReadbackMismatch l) s = .next t ∧ linRun t (16 + l) = some { r with waiting := none } ∧
      get t (Reg.chBusErrors (16 + l)) =
        min (2 ^ (Reg.chBusErrors (16 + l)).width - 1) (get s (Reg.chBusErrors (16 + l)) + 1) ∧ t.io = s.io) ∧
  (∀ (s : State) (l : Fin 8) (r : LinRun) (id : Nat) (data : List Byte), aloft s = true → atBoundary s = true →
    descentPhase s < 3 → chanState s (16 + l) = 5 → chanBlocked s (16 + l) = false → linRun s (16 + l) = some r →
    r.sending = some (id, data, none) → r.sentAt + linFrameNs s (16 + l) data.length ≤ s.time.now →
    tempoNo s < r.endTempo →
    ∃ t, exec (.linSlotStart l) s = .next t ∧
      t.io.out = .linFrame l id data (linCsum (linClassic r id) id data) :: s.io.out ∧
      t.edge.linLast.find ((16 + l) * 64 + id) = some data ∧ linRun t (16 + l) = some { r with sending := none }) ∧
  (∀ (s : State) (blocks : List (Fin 64)), aloft s = true → s.edge.savedAt + 60000000000 ≤ s.time.now →
    ∃ t, exec (.fvSave blocks) s = .next t ∧ t.edge.savedAt = s.time.now ∧
      t.edge.fv = s.edge.fv ∧ t.edge.blocked = s.edge.blocked) ∧
  (∀ (s : State) (n : Nat), aloft s = true → s.edge.savedAt + 60000000000 ≤ s.time.now →
    s.vault.badBlocks.length ≤ 6 → n = s.edge.fvSaves.foldl (fun a e => max a e.2.counter) 0 + 1 →
    ∃ t, exec (.fvSave []) s = .next t ∧
      t.edge.fvSaves.find (2 + n % 56) = some ⟨n, s.edge.fv, saveSeal (keyOf s 4) n s.edge.fv⟩ ∧
      (∀ k, k ≠ 2 + n % 56 → t.edge.fvSaves.find k = s.edge.fvSaves.find k) ∧ t = { s with edge := t.edge }) ∧
  (∀ (s : State) (blocks : List (Fin 64)), aloft s = true → s.edge.savedAt + 60000000000 ≤ s.time.now →
    blocks.Nodup → (∀ b ∈ blocks, s.vault.badBlocks.contains b.val = false) →
    s.vault.badBlocks.length + blocks.length ≤ 6 →
    ∃ t, exec (.fvSave blocks) s = .next t ∧ regsSame s t [] ∧ (∀ b ∈ blocks, t.vault.badBlocks.contains b.val = true) ∧
      t = { s with edge := t.edge, vault := { s.vault with badBlocks := t.vault.badBlocks } }) ∧
  (∀ (s : State) (b : Fin 64), aloft s = true → s.edge.savedAt + 60000000000 ≤ s.time.now →
    s.vault.badBlocks.contains b.val = false → 6 ≤ s.vault.badBlocks.length → s.fault.recs = [] →
    ∃ t, exec (.fvSave [b]) s = .next t ∧ ∃ r ∈ t.fault.recs, r.code = 0x0032 ∧ r.detail = b.val) ∧
  (∀ (s : State) (blocks : List (Fin 64)), s.time.now < s.edge.savedAt + 60000000000 →
    exec (.fvSave blocks) s = .next s) ∧
  (∀ (s : State) (m : Master) (w : Word) (e : Nat) (b : List Byte), accepts s m 0xB00000 = true →
    bitAt w.toNat 0 = true → bitsAt w.toNat 1 3 = 4 →
    viewSlot s m (bitsAt w.toNat 23 2) (bitsAt w.toNat 25 2) = some e →
    recOf s e 0x0310 (bitsAt w.toNat 4 13) = some b →
    ∃ t, exec (.edgeAccRead m w) s = .next t ∧ get t Reg.edgeAccCtlStatus = 0 ∧ get t Reg.edgeAccCtlDone = 1 ∧
      (∀ i < 64, get t (Reg.edgeAccData i) = leAt (slice b (256 * bitsAt w.toNat 17 6) 256) (4 * i) 4) ∧
      get t Reg.secFv = fvOf s (bitsAt w.toNat 4 13) % 2 ^ 64 ∧
      flag t Reg.secFvBlocked = s.edge.blocked.contains (bitsAt w.toNat 4 13) ∧ t.edge = s.edge) ∧
  (∀ (s : State) (m : Master) (w : Word), accepts s m 0xB00000 = true → bitAt w.toNat 0 = true →
    bitsAt w.toNat 1 3 = 4 → viewSlot s m (bitsAt w.toNat 23 2) (bitsAt w.toNat 25 2) = none →
    ∃ t, exec (.edgeAccRead m w) s = .next t ∧ get t Reg.edgeAccCtlStatus = 1 ∧ get t Reg.edgeAccCtlDone = 1)

/-- A descent is requested, held or aborted, and moves through drain, links, save and cutoff (R277, R279, R280,
R281, R282, R283, R284). Where a clause rests on the model's own reading or choice: log entries 101, 102, 120. -/
def Obligations.DescentsRunThroughTheirPhases : Prop :=
  (∀ (s : State) (m : Master) (w : Word), accepts s m 0x010004 = true → m ≠ .dbg → descentPhase s = 0 →
    bitAt w.toNat 3 = false →
    ∃ t, exec (.descentReq m w) s = .next t ∧ t.wake.requested = true ∧ t.wake.reqParked = bitAt w.toNat 1 ∧
      t.wake.reqForce = bitAt w.toNat 2 ∧ get t Reg.pwrCtlHostHold = 0 ∧ regsSame s t [Reg.pwrCtlHostHold] ∧
      t = { s with regs := t.regs, wake := t.wake, cpu := t.cpu, io := t.io }) ∧
  (∀ (s : State) (m : Master), accepts s m 0x010004 = true → m ≠ .dbg → descentPhase s = 0 →
    ∃ t, exec (.hostHold m true) s = .next t ∧ get t Reg.pwrCtlHostHold = 1 ∧ t.wake = s.wake ∧
      regsSame s t [Reg.pwrCtlHostHold]) ∧
  (∀ (s : State) (m : Master), accepts s m 0x010004 = true → m ≠ .dbg → descending s = true → s.wake.abortFor = none →
    ∃ t, exec (.hostHold m true) s = .next t ∧ get t Reg.pwrCtlHostHold = 1 ∧
      t.wake.abortFor = some (s.time.now, 3, 0)) ∧
  (∀ (s : State) (m : Master), accepts s m 0x010004 = true → m ≠ .dbg →
    ∃ t, exec (.hostHold m false) s = .next t ∧ get t Reg.pwrCtlHostHold = 0 ∧ t.wake = s.wake ∧
      regsSame s t [Reg.pwrCtlHostHold]) ∧
  (∀ s : State, phaseMay s 1 = true → phaseSpent s (leAt (wakeGlobals s) 2 2) = true →
    ∃ t, exec .descentDrain s = .next t ∧ descentPhase t = 2 ∧ t.wake.phaseTempo = tempoNo s ∧
      regsSame s t [Reg.pwrStatusPhase] ∧ t = { s with regs := t.regs, wake := t.wake }) ∧
  (∀ s : State, phaseMay s 2 = true → (drained s = true ∨ phaseSpent s (leAt (wakeGlobals s) 4 2) = true) →
    ∃ t, exec .descentLinks s = .next t ∧ descentPhase t = 3 ∧ t.wake.phaseTempo = tempoNo s ∧ t.wake.armed = true ∧
      t.wake.captured = [] ∧ t.edge.joined = [] ∧ t.net.queues = [] ∧ t.net.recirc = [] ∧ t.env.policy = s.env.policy) ∧
  (∀ (s : State) (p : Fin 48), descentPhase s = 3 → s.wake.tc10Asked.contains p.val = true →
    s.wake.tc10Asleep.contains p.val = false →
    ∃ t, exec (.tc10SleepAck p) s = .next t ∧ t.wake.tc10Asleep = p.val :: s.wake.tc10Asleep ∧ linkState t p = 0 ∧
      get t (Reg.portStatusLink p) = 0) ∧
  (∀ s : State, phaseMay s 3 = true → (s.wake.tc10Asked.all fun p => s.wake.tc10Asleep.contains p) = true →
    ∃ t, exec .descentSave s = .next t ∧ descentPhase t = 4 ∧ t.wake.phaseTempo = tempoNo s ∧ t.net.macs = [] ∧
      t.edge.offered = [] ∧ t.jobs.order = s.jobs.order +
        (if tooLarge s 0 (jobBound s .retentionSave) then 0 else 1) +
        (if flag s Reg.pwrStatusTarget && !tooLarge s 0 (jobBound s .fvSave) then 1 else 0)) ∧
  (∀ s : State, aloft s = true → descentPhase s = 4 → savesDone s = false →
    phaseSpent s (leAt (wakeGlobals s) 6 2) = true → s.wake.abortFor = none →
    ∃ t, exec .saveTimeout s = .next t ∧ t.wake.abortFor = some (s.time.now, 4, 0) ∧ t.regs = s.regs ∧
      t = { s with wake := t.wake }) ∧
  (∀ s : State, phaseMay s 4 = true → savesDone s = true → s.wake.abortFor = none →
    ∃ t, exec .cutoff s = .next t ∧ t.boot.phase = .cutoff ∧ t.mem.bankH = [] ∧ t.wake.armed = true ∧
      t.wake.latch = false ∧ get t Reg.bootStatusReady = 0 ∧ get t Reg.hbStatusP48Up = 0 ∧ t.net.convs = [] ∧
      t.net.frags = [] ∧ t.mem.bankS = s.mem.bankS ∧ t.mem.bankG = s.mem.bankG ∧
      get t Reg.descentsDescents = min (2 ^ Reg.descentsDescents.width - 1) (get s Reg.descentsDescents + 1)) ∧
  (∀ (s : State) (at_ cause source : Nat), aloft s = true → atBoundary s = true → abortDue s = true →
    descending s = true → descentPhase s < 3 → s.wake.abortFor = some (at_, cause, source) → s.wake.captured = [] →
    cause < 8 → source < 256 →
    ∃ t, exec .descentAbort s = .next t ∧ descentPhase t = 0 ∧ get t Reg.abortInfoPhase = descentPhase s ∧
      get t Reg.abortInfoCause = cause ∧ get t Reg.abortInfoSource = source ∧ t.wake.abortFor = none ∧
      t.wake.armed = false ∧
      get t Reg.descentsAborts = min (2 ^ Reg.descentsAborts.width - 1) (get s Reg.descentsAborts + 1) ∧
      regsSame s t [Reg.pwrStatusPhase, Reg.abortInfoPhase, Reg.abortInfoCause, Reg.abortInfoSource, Reg.descentsAborts] ∧
      t.env = s.env ∧ t.net = s.net)

/-- Wake events set the latch and their cause; sleep, wake and excursion change supplies and memories (R273, R277,
R285, R286, R287, R288, R289, R292, R293, R407, R415). Where a clause rests on the model's own reading or
choice: log entries 99, 100, 103, 104, 105, 139, 140, 93, 30. -/
def Obligations.WakingAndSleeping : Prop :=
  (∀ (s : State) (ch : Fin 16) (b : List Byte) (phases : List (Bool × Nat)), s.boot.phase = .moored →
    decoderOf s ch = some b → u8 b 0 = 1 → wupFound (100 * u8 b 2) phases [] = true →
    ∃ t, exec (.selectiveWake ch (.wup phases)) s = .next t ∧ t.wake.latch = true ∧ get t Reg.wakeCauseSwWup = 1 ∧
      (s.wake.latch = false → get t Reg.wakeCauseSource = ch ∧ t.wake.wokeAt = s.time.now) ∧
      regsSame s t [Reg.wakeCauseSwWup, Reg.wakeCauseSource] ∧ t = { s with regs := t.regs, wake := t.wake }) ∧
  (∀ (s : State) (ch : Fin 16) (b : List Byte) (phases : List (Bool × Nat)), decoderOf s ch = some b →
    u8 b 0 = 1 → wupFound (100 * u8 b 2) phases [] = false → exec (.selectiveWake ch (.wup phases)) s = .next s) ∧
  (∀ (s : State) (ch : Fin 16) (b : List Byte) (m : BusMsg), s.boot.phase = .moored → decoderOf s ch = some b →
    u8 b 0 = 2 → wufMatches b m = true → decoderRejects s ch m = false → s.wake.captured.find ch.val = none →
    ∃ t, exec (.selectiveWake ch (.wuf m)) s = .next t ∧ t.wake.latch = true ∧ get t Reg.wakeCauseSwMatch = 1 ∧
      t.wake.captured.find ch.val = some m) ∧
  (∀ (s : State) (ch : Fin 16) (b : List Byte), s.boot.phase = .moored → decoderOf s ch = some b → u8 b 0 = 2 →
    31 < (s.wake.decoderErr.find ch.val).getD 0 →
    ∃ t, exec (.selectiveWake ch .errCount) s = .next t ∧ t.wake.latch = true ∧ get t Reg.wakeCauseSwErrcnt = 1) ∧
  (∀ (s : State) (ch : Fin 16) (b : List Byte) (err : Bool), decoderOf s ch = some b → u8 b 0 = 2 →
    ∃ t, exec (.decoderFrame ch err) s = .next t ∧ t.wake.decoderErr.find ch.val =
        some (if err then (s.wake.decoderErr.find ch.val).getD 0 + 1 else (s.wake.decoderErr.find ch.val).getD 0 - 1) ∧
      t = { s with wake := t.wake }) ∧
  (∀ (s : State) (l : Fin 8), s.boot.phase = .moored → s.wake.armed = true → bitAt (u8 s.wake.globals 13) l = true →
    ∃ t, exec (.linWake l) s = .next t ∧ t.wake.latch = true ∧ get t Reg.wakeCauseLin = 1 ∧
      regsSame s t [Reg.wakeCauseLin, Reg.wakeCauseSource] ∧ t = { s with regs := t.regs, wake := t.wake }) ∧
  (∀ (s : State) (p : Fin 48), s.boot.phase = .moored → t1Port p = true → bitAt (leAt s.wake.globals 24 8) p = true →
    ∃ t, exec (.tc10Wake p) s = .next t ∧ t.wake.latch = true ∧ get t Reg.wakeCauseTc10 = 1 ∧
      regsSame s t [Reg.wakeCauseTc10, Reg.wakeCauseSource] ∧ t = { s with regs := t.regs, wake := t.wake }) ∧
  (∀ (s : State) (i : Fin 4), (s.boot.phase = .moored ∨ s.boot.phase = .parked) →
    bitAt (wakePinCfg s.wake.globals i) 0 = true →
    ∃ t, exec (.wakePin i) s = .next t ∧ t.wake.latch = true ∧ get t Reg.wakeCausePin = 1 ∧
      t.wake.pinsActive.contains i.val = true ∧ (s.wake.latch = false → get t Reg.wakeCauseSource = i) ∧
      regsSame s t [Reg.wakeCausePin, Reg.wakeCauseSource] ∧ t = { s with regs := t.regs, wake := t.wake }) ∧
  (∀ (s : State) (i : Fin 4), s.boot.phase ≠ .off →
    ∃ t, exec (.wakePinRelease i) s = .next t ∧ t.wake.pinsActive = s.wake.pinsActive.erase i.val ∧
      t = { s with wake := t.wake }) ∧
  (∀ s : State, s.boot.phase = .moored → s.host.perstN = false → bitAt (leAt s.wake.globals 0 2) 2 = true →
    ∃ t, exec .perstNRise s = .next t ∧ t.host.perstN = true ∧ t.wake.latch = true ∧ get t Reg.wakeCausePerst = 1) ∧
  (∀ (s : State) (n : Nat), s.boot.phase = .parked → s.wake.parkAt = some n → n ≤ s.time.now →
    ∃ t, exec .parkTimer s = .next t ∧ t.boot.phase = .rising ∧ t.boot.cause = 6 ∧ get t Reg.wakeCauseTimer = 1) ∧
  (∀ s : State, s.boot.phase = .cutoff → flag s Reg.pwrStatusTarget = false → s.wake.latch = false →
    ∃ t, exec .cutoffComplete s = .next t ∧ t.boot.phase = .moored ∧ t.wake.sleptAt = s.time.now ∧ t.regs = s.regs ∧
      t = { s with boot := { s.boot with phase := .moored }, wake := { s.wake with sleptAt := s.time.now } }) ∧
  (∀ s : State, s.boot.phase = .cutoff → flag s Reg.pwrStatusTarget = true → s.wake.latch = false →
    ∃ t, exec .cutoffComplete s = .next t ∧ t.boot.phase = .parked ∧ t.mem.bankS = [] ∧ t.mem.bankG = [] ∧
      t.mem.flashA = s.mem.flashA ∧ t.mem.flashB = s.mem.flashB ∧ t.otp = s.otp ∧ t.env.policy = []) ∧
  (∀ s : State, s.boot.phase = .moored → s.wake.latch = true → s.wake.retentionBad = false →
    ∃ t, exec .wakeLatch s = .next t ∧ t.boot.phase = .wakeRising ∧ descentPhase t = 5 ∧ get t Reg.wakeCauseFrom = 1 ∧
      get t Reg.asleepTime = asleepSeconds s % 2 ^ Reg.asleepTime.width ∧
      regsSame s t [Reg.pwrStatusPhase, Reg.wakeCauseFrom, Reg.asleepTime] ∧
      (∀ i < 2, inhMode s i ≠ 2 → s.boot.resetPin = false → inhHigh t i = true) ∧
      t = { s with regs := t.regs, boot := t.boot, wake := t.wake }) ∧
  (∀ s : State, s.boot.phase = .moored → s.wake.latch = true → s.wake.retentionBad = true →
    ∃ t, exec .wakeLatch s = .next t ∧ t.boot.phase = .inReset ∧ t.boot.cause = 7 ∧
      get t Reg.wakeCauseRetentionLost = 1) ∧
  (∀ s : State, s.boot.phase = .wakeRising →
    ∃ t, exec .switchDieRelease s = .next t ∧ t.boot.phase = .wakeCheck ∧
      (bitAt (leAt s.wake.globals 0 2) 3 = true → get t Reg.hbStatusPeWake = 1 ∧ t.host.peWakeAt = some s.time.now)) ∧
  (∀ s : State, s.boot.phase = .wakeCheck → s.cpu.spHeld = false →
    ∃ t, exec .wakeCheck s = .next t ∧ (wakeTags s = s.wake.tags → t = { s with boot := { s.boot with phase := .wakeTrain } }) ∧
      (wakeTags s ≠ s.wake.tags → t.boot.phase = .inReset ∧ t.boot.cause = 7 ∧ get t Reg.wakeCauseRetentionLost = 1)) ∧
  (∀ s : State, s.boot.phase = .wakeTrain →
    ∃ t, exec .forwardingReady s = .next t ∧ t.boot.phase = .aloft ∧ get t Reg.bootStatusReady = 1 ∧ descentPhase t = 0 ∧
      tempoNo t = (tempoNo s + 1) % 2 ^ 64 ∧ t.wake.latch = false ∧ t.wake.armed = false ∧ t.wake.captured = []) ∧
  (∀ (s : State) (errs : List RetError), s.boot.phase = .moored →
    ∃ t, exec (.mooredScrub errs) s = .next t ∧ get t Reg.pwrScrubCorrected =
        min (2 ^ Reg.pwrScrubCorrected.width - 1) (get s Reg.pwrScrubCorrected +
          (errs.filter fun e => e.bank != some .h && !e.uncorrectable).length) ∧
      get t Reg.pwrScrubPasses = min (2 ^ Reg.pwrScrubPasses.width - 1) (get s Reg.pwrScrubPasses + 1) ∧
      t.wake.retentionBad = (s.wake.retentionBad || errs.any fun e => e.bank != some .h && e.uncorrectable) ∧
      regsSame s t [Reg.pwrScrubCorrected, Reg.pwrScrubPasses] ∧
      t = { s with regs := t.regs, accum := t.accum, wake := t.wake }) ∧
  (∀ s : State, s.boot.phase = .moored → leAt s.wake.globals 48 4 ≠ 0 → s.wake.latch = false →
    leAt s.wake.globals 48 4 ≤ asleepSeconds s →
    ∃ t, exec .excursion s = .next t ∧ t.wake.excursion = true ∧ get t Reg.pwrStatusTarget = 1 ∧
      (s.vault.badBlocks.length ≤ 6 → ∃ b n, t.edge.fvSaves.find b = some ⟨n, s.edge.fv, saveSeal (keyOf s 4) n s.edge.fv⟩) ∧
      t.vault = (saveKeys s).vault ∧ regsSame s t [Reg.pwrStatusTarget] ∧
      t = { s with regs := t.regs, edge := t.edge, vault := t.vault, wake := t.wake })

/-- Power, rails, memory, image pass and calibration bring the device up or into halt or recovery (R401, R402, R403,
R406, R434). Where a clause rests on the model's own reading or choice: log entries 3, 106, 122, 30. -/
def Obligations.StartUpRunsThroughItsPhases : Prop :=
  (∀ s : State, s.boot.phase = .off →
    ∃ t, exec .powerOn s = .next t ∧ t.boot.phase = .rising ∧ t.boot.cause = 0 ∧ get t Reg.fcStatusFaultN = 1 ∧
      regsSame s t [Reg.fcStatusFaultN] ∧ t = { s with regs := t.regs, boot := t.boot }) ∧
  (∀ (s : State) (st : Straps), s.boot.phase = .rising → s.boot.resetPin = false → s.boot.thermalHeld = false →
    ∃ t, exec (.railsGood st) s = .next t ∧ t.boot.phase = .memInit ∧ t.boot.straps = st ∧
      get t Reg.bootStatusBootSel = st.bootSel ∧ get t Reg.bootStatusCause = s.boot.cause % 2 ^ Reg.bootStatusCause.width ∧
      flag t Reg.bootStatusRecovery = !st.recoveryN ∧ t.mem = s.mem ∧ t.otp = s.otp) ∧
  (∀ (s : State) (st : Straps), s.boot.phase = .rising → s.boot.resetPin = true →
    ∃ t, exec (.railsGood st) s = .next t ∧ t.boot.phase = .inReset ∧ t.regs = s.regs) ∧
  (∀ s : State, s.boot.phase = .memInit → s.cpu.spHeld = false → s.boot.cause ≠ 4 → s.boot.straps.recoveryN = true → lifeCycle s ≠ 4 →
    ∃ t, exec (.memoryInitDone .ok) s = .next t ∧ t.boot.phase = .imagePass ∧ t.mem.bankS = [] ∧ t.mem.bankG = [] ∧
      t.mem.bankH = [] ∧ t.mem.bankT = [] ∧ t.mem.flashA = s.mem.flashA ∧ t.mem.flashB = s.mem.flashB ∧
      regsSame s t [Reg.imgPreferA, Reg.imgPreferB]) ∧
  (∀ s : State, s.boot.phase = .memInit → s.cpu.spHeld = false → s.boot.cause ≠ 4 → s.boot.straps.recoveryN = false →
    ∃ t, exec (.memoryInitDone .ok) s = .next t ∧ t.boot.phase = .recovery ∧ mbWord t 0 = 0x56434552 ∧
      mbWord t 0x14 = 2) ∧
  (∀ s : State, s.boot.phase = .memInit →
    ∃ t, exec (.memoryInitDone .memory) s = .next t ∧ t.boot.phase = .halted ∧ get t Reg.bootStatusHalt = 2 ∧
      regsSame s t [Reg.bootStatusHalt] ∧ t = { s with regs := t.regs, boot := { s.boot with phase := .halted } }) ∧
  (∀ (s : State) (b : Bool) (kc : List (Fin 2)) (sv : List (Fin 64)) (rest : List Bool),
    s.boot.phase = .imagePass → s.cpu.spHeld = false → s.boot.passes = b :: rest →
    headerOk (slotHeader s b) = false → s.img.spoiled.contains b = false →
    ∃ t, exec (.imagePassDone kc sv) s = .next t ∧
      get t (if b then Reg.bootStatusResultB else Reg.bootStatusResultA) = 6 ∧
      t.boot.phase = (if rest.isEmpty then .recovery else .imagePass) ∧ (rest ≠ [] → t.boot.passes = rest) ∧
      t.mem.flashA = s.mem.flashA ∧ t.mem.flashB = s.mem.flashB) ∧
  (∀ (s : State) (b : Bool) (kc : List (Fin 2)) (sv : List (Fin 64)) (rest : List Bool),
    s.boot.phase = .imagePass → s.cpu.spHeld = false → s.boot.passes = b :: rest →
    ∃ t, exec (.imagePassDone kc sv) s = .next t ∧
      (∀ l, verifySlot s b false = .ok l → t.boot.phase = .starting ∧ t.boot.slotB = b ∧ t.env.loaded = true ∧
        t.edge.fvSaves = s.edge.fvSaves.filter (fun e => !(kc.map (·.val) ++ sv.map (·.val)).contains e.1) ∧
        ((s.vault.copies.filter fun e => !(kc.map (·.val) ++ sv.map (·.val)).contains e.1 && copyOk e.2) = [] →
          t.vault.imported = []) ∧
        get t (if b then Reg.bootStatusResultB else Reg.bootStatusResultA) = 1)) ∧
  (∀ (s : State) (ports : List (Fin 48)) (channels : List (Fin 16)), s.boot.phase = .starting → s.boot.calDone = false →
    ∃ t, exec (.calibrationDone ports channels) s = .next t ∧ t.boot.calDone = true ∧
      (∀ p : Fin 48, calPort t p = ports.contains p) ∧ (∀ n : Fin 16, calChan t n = channels.contains n) ∧
      regsSame s t [Reg.calFailLo, Reg.calFailHiPortsHi, Reg.calFailHiChannels])

/-- Resets keep fuses, flash, scoresheet and causes; supply loss turns the device off; readings show (R274, R411,
R413, R430, R443). Where a clause rests on the model's own reading or choice: log entries 108, 3, 40. -/
def Obligations.ResetsAndSupply : Prop :=
  (∀ (s : State) (ns : Nat), 1000 ≤ ns → s.boot.phase = .aloft →
    ∃ t, exec (.resetNAssert ns) s = .next t ∧ t.boot.phase = .inReset ∧ t.boot.resetPin = true ∧ t.boot.cause = 1 ∧
      get t Reg.fcStatusFaultN = 1 ∧ t.mem.bankS = [] ∧ t.mem.bankG = [] ∧ t.mem.bankH = [] ∧ t.env.policy = [] ∧
      t.mem.flashA = s.mem.flashA ∧ t.mem.flashB = s.mem.flashB ∧ t.otp = s.otp ∧ t.sheet.entries = s.sheet.entries ∧
      (∀ f ∈ [Reg.vaultStatusTamperLatch, Reg.vaultStatusTamperCause, Reg.fcSafeCode, Reg.fcSafeByEsc, Reg.fcSafeTempo] ++
        wakeCauseFlds, get t f = get s f % 2 ^ f.width)) ∧
  (∀ (s : State) (ns : Nat), ns < 100 → exec (.resetNAssert ns) s = .next s) ∧
  (∀ (s : State) (st : Straps), s.boot.phase = .inReset → s.boot.resetPin = true → s.boot.thermalHeld = false →
    ∃ t, exec (.resetNRelease st) s = .next t ∧ t.boot.phase = .memInit ∧ t.boot.resetPin = false ∧
      t.boot.straps = st ∧ get t Reg.bootStatusCause = s.boot.cause % 2 ^ Reg.bootStatusCause.width) ∧
  (∀ (s : State) (m : Master) (w : Word), accepts s m 0x10 = true → w.toNat % 65536 = 0xB007 → resetMay s m = true →
    ∃ t, exec (.resetReq m w) s = .next t ∧ t.boot.phase = .inReset ∧ t.boot.cause = 2 ∧ t.otp = s.otp) ∧
  (∀ (s : State) (m : Master) (w : Word), accepts s m 0x10 = true → w.toNat % 65536 ≠ 0xB007 →
    ∃ t, exec (.resetReq m w) s = .next t ∧ regsSame s t [] ∧ t.boot = s.boot) ∧
  (∀ s : State, s.boot.phase = .aloft →
    ∃ t, exec .thermalTrip s = .next t ∧ t.boot.phase = .inReset ∧ t.boot.thermalHeld = true ∧ t.boot.cause = 1) ∧
  (∀ s : State, s.boot.phase = .inReset → s.boot.thermalHeld = true → s.boot.resetPin = false →
    ∃ t, exec .thermalTripClear s = .next t ∧ t.boot.phase = .memInit ∧ t.boot.thermalHeld = false) ∧
  (∀ s : State, s.boot.phase ≠ .off →
    ∃ t, exec .vbatLoss s = .next t ∧ t.boot.phase = .off ∧ t.regs = [] ∧ t.otp = s.otp ∧
      t.mem.flashA = s.mem.flashA ∧ t.mem.flashB = s.mem.flashB ∧ t.mem.bankS = [] ∧ t.time.now = s.time.now ∧
      t.vault.slots = []) ∧
  (∀ (s : State) (cv : Nat), s.boot.phase ≠ .off →
    ∃ t, exec (.vbatLevelChange cv) s = .next t ∧ flag t Reg.supplyStatusLowVbat = decide (cv < 900) ∧
      flag t Reg.supplyStatusHighVbat = decide (6000 < cv) ∧ (cv < 900 → get t Reg.supplyEventsLowSeen = 1) ∧
      (6000 < cv → get t Reg.supplyEventsHighSeen = 1) ∧
      regsSame s t [Reg.supplyStatusVbat, Reg.vbatRangeVbatMin, Reg.vbatRangeVbatMax, Reg.supplyStatusLowVbat,
        Reg.supplyStatusHighVbat, Reg.supplyEventsLowSeen, Reg.supplyEventsHighSeen] ∧
      t = { s with regs := t.regs, freeCtr := t.freeCtr }) ∧
  (∀ (s : State) (i : Fin 4) (temp : Int), s.boot.phase ≠ .off → 560 ≤ temp → temp < 1024 →
    flag s Reg.supplyStatusThermWarn = false →
    ∃ t, exec (.thermalWarning i temp) s = .next t ∧ get t (Reg.tempTemp i) = temp.toNat ∧
      get t Reg.supplyStatusThermWarn = 1 ∧ get t Reg.supplyEventsThermSeen = 1 ∧
      regsSame s t [Reg.tempTemp i, Reg.tempPeak i, Reg.supplyStatusThermWarn, Reg.supplyEventsThermSeen] ∧
      t = { s with regs := t.regs })

/-- LC_REQ makes a listed transition with its erasures and reset, or answers why not (R263). Where a clause rests on
the model's own reading or choice: log entries 97, 6, 120. -/
def Obligations.LifeCycleChangesAreJudged : Prop :=
  (∀ (s : State) (m : Master) (w : Word), accepts s m 0xC0008 = true → (m = .sp ∨ m = .host ∨ m = .spi) →
    bitAt w.toNat 3 = true → flag s Reg.lcStatusLcBusy = false → lcStep s (w.toNat % 8) = some false →
    ∃ t, exec (.lcReq m w) s = .next t ∧ get t Reg.lcReqResult = 2 ∧
      regsSame s t (Reg.lcReqResult :: raiseFields 20) ∧ t.otp = s.otp ∧ t.vault = s.vault ∧ t.boot = s.boot) ∧
  (∀ (s : State) (m : Master) (w : Word), accepts s m 0xC0008 = true → (m = .sp ∨ m = .host ∨ m = .spi) →
    bitAt w.toNat 3 = true → pairAway s = false → flag s Reg.lcStatusLcBusy = false → lcStep s (w.toNat % 8) = some true → sheetWritable s = false →
    w.toNat % 8 ≠ 4 →
    ∃ t, exec (.lcReq m w) s = .next t ∧ get t Reg.lcReqResult = 4 ∧ t.otp = s.otp ∧ t.vault = s.vault) ∧
  (∀ (s : State) (m : Master) (w : Word), accepts s m 0xC0008 = true → (m = .sp ∨ m = .host ∨ m = .spi) →
    bitAt w.toNat 3 = true → pairAway s = false → flag s Reg.lcStatusLcBusy = false → lcStep s 4 = some true → w.toNat % 8 = 4 →
    ∃ t, exec (.lcReq m w) s = .next t ∧ t.otp.lc = 4 ∧ t.boot.phase = .inReset ∧ t.boot.cause = 3 ∧
      t.vault.gen = [] ∧ t.vault.held = [] ∧ t.vault.imported = [] ∧ t.vault.revoked = [] ∧ 
      t.vault.copies = [] ∧ t.edge.fvSaves = [] ∧ t.mem.bankS = [] ∧
      t.mem.flashA = s.mem.flashA ∧ t.mem.flashB = s.mem.flashB) ∧
  (∀ (s : State) (m : Master) (w : Word), accepts s m 0xC0008 = true → (m = .sp ∨ m = .host ∨ m = .spi) →
    bitAt w.toNat 3 = true → pairAway s = false → flag s Reg.lcStatusLcBusy = false → sheetWritable s = true → lcStep s (w.toNat % 8) = some true →
    (w.toNat % 8 = 1 ∨ w.toNat % 8 = 2) →
    ∃ t, exec (.lcReq m w) s = .next t ∧ t.otp.lc = w.toNat % 8 ∧ t.boot.phase = .inReset ∧ t.boot.cause = 3 ∧
      t.vault.gen = s.vault.gen ∧ t.vault.held = s.vault.held ∧ t.vault.imported = s.vault.imported ∧
      t.vault.revoked = s.vault.revoked) ∧
  (∀ (s : State) (m : Master) (w : Word), accepts s m 0xC0008 = true → (m = .sp ∨ m = .host ∨ m = .spi) →
    bitAt w.toNat 3 = true → pairAway s = false → flag s Reg.lcStatusLcBusy = false → sheetWritable s = true → lcStep s 3 = some true → w.toNat % 8 = 3 →
    ∃ t, exec (.lcReq m w) s = .next t ∧
      (lcAuthOk s = true → t.otp.lc = 3 ∧ t.boot.phase = .inReset ∧ t.vault.gen = [] ∧ t.vault.held = [] ∧
        t.vault.imported = [] ∧ t.vault.revoked = []) ∧
      (lcAuthOk s = false → get t Reg.lcReqResult = 3 ∧ t.otp = s.otp ∧ t.boot = s.boot ∧ t.vault = s.vault ∧
        asked s t 1)) ∧
  (∀ (s : State) (m : Master) (w : Word), accepts s m 0xC0008 = true → bitAt w.toNat 3 = false →
    ∃ t, exec (.lcReq m w) s = .next t ∧ regsSame s t [] ∧ t.otp = s.otp ∧ t.boot = s.boot) ∧
  (∀ (s : State) (m : Master) (w : Word), accepts s m 0xC0008 = true → (m = .sp ∨ m = .host ∨ m = .spi) →
    bitAt w.toNat 3 = true → flag s Reg.lcStatusLcBusy = false → lcStep s (w.toNat % 8) = none →
    ∃ t, exec (.lcReq m w) s = .next t ∧ t = { s with io := t.io }) ∧
  (∀ (s : State) (m : Master) (w : Word), accepts s m 0xC0008 = true → (m = .host ∨ m = .spi) →
    bitAt w.toNat 3 = true → flag s Reg.lcStatusLcBusy = false → lcStep s (w.toNat % 8) = some true → pairAway s = true →
    ∃ t, exec (.lcReq m w) s = .next t ∧ get t Reg.lcStatusLcBusy = 1 ∧ t.boot.lcPend = some (w.toNat % 8, m) ∧
      regsSame s t [Reg.lcStatusLcBusy] ∧
      t = { s with regs := t.regs, boot := { s.boot with lcPend := t.boot.lcPend }, io := t.io }) ∧
  (∀ (s : State) (m : Master) (w : Word), accepts s m 0xC0008 = true → flag s Reg.lcStatusLcBusy = true → m ≠ .dbg →
    ∃ t, exec (.lcReq m w) s = .next t ∧ t = { s with io := t.io })

/-- Image erase, write and verify act on the inactive slot only and show their result (R389, R390). Where a clause
rests on the model's own reading or choice: log entries 110, 94, 81. -/
def Obligations.ImageOperationsActOnTheInactiveSlot : Prop :=
  (∀ (s : State) (m : Master), accepts s m 0x1000 = true → m ≠ .dbg → get s Reg.imgStatusState = 1 → castPhase s = 0 →
    ∃ t, exec (.imgErase m) s = .next t ∧ get t Reg.imgStatusResult = 2 ∧ regsSame s t [Reg.imgStatusResult] ∧
      t.img = s.img ∧ t.mem = s.mem) ∧
  (∀ (s : State) (m : Master), accepts s m 0x1000 = true → m ≠ .dbg → get s Reg.imgStatusState ≠ 1 → castPhase s = 0 →
    ∃ t, exec (.imgErase m) s = .next t ∧ t.img.op = some (1, 0, []) ∧ get t Reg.imgStatusState = 1 ∧
      get t Reg.imgStatusVerified = 0 ∧ regsSame s t [Reg.imgStatusState, Reg.imgStatusVerified] ∧
      t = { s with regs := t.regs, img := t.img, io := t.io }) ∧
  (∀ (s : State) (n : Nat) (bs : List Byte), aloft s = true → s.img.op = some (1, n, bs) →
    ∃ t, exec .imgEraseDone s = .next t ∧ slotMem t (inactiveB s) = [] ∧ slotMem t s.boot.slotB = slotMem s s.boot.slotB ∧
      t.img.op = none ∧ get t Reg.imgStatusState = 2 ∧ get t Reg.imgStatusResult = 1 ∧
      regsSame s t [Reg.imgStatusState, Reg.imgStatusResult, Reg.imgPreferA, Reg.imgPreferB]) ∧
  (∀ (s : State) (m : Master) (b : Nat), accepts s m 0x1000 = true → imgBank m = some b → b ≠ 0 →
    get s Reg.imgStatusState ≠ 1 → castPhase s = 0 →
    rangeOk256 (get s (Reg.imgDst b)) (get s (Reg.imgLen b)) = false →
    ∃ t, exec (.imgWrite m) s = .next t ∧ get t Reg.imgStatusState = 2 ∧ get t Reg.imgStatusResult = 5 ∧
      regsSame s t [Reg.imgStatusState, Reg.imgStatusResult] ∧ t.mem = s.mem) ∧
  (∀ (s : State) (m : Master) (b : Nat), accepts s m 0x1000 = true → imgBank m = some b → b ≠ 0 →
    get s Reg.imgStatusState ≠ 1 → castPhase s = 0 → get s (Reg.imgSrc b) % 256 = 0 →
    rangeOk256 (get s (Reg.imgDst b)) (get s (Reg.imgLen b)) = true →
    (∃ r ∈ regions s, r.1 ≤ get s (Reg.imgSrc b) ∧ get s (Reg.imgSrc b) + get s (Reg.imgLen b) ≤ r.1 + r.2.1 ∧
      bitAt r.2.2.2 (if b = 5 then 0 else 2) = true ∧ bitAt r.2.2.1 2 = true) →
    bankHMarked s (get s (Reg.imgSrc b)) (get s (Reg.imgLen b)) = false →
    ∃ t, exec (.imgWrite m) s = .next t ∧
      (isErased s (inactiveB s) (get s (Reg.imgDst b)) (get s (Reg.imgLen b)) = false → get t Reg.imgStatusResult = 4 ∧
        t.mem = s.mem) ∧
      (isErased s (inactiveB s) (get s (Reg.imgDst b)) (get s (Reg.imgLen b)) = true →
        t.img.op = some (2, get s (Reg.imgDst b), bankHBytes s (get s (Reg.imgSrc b)) (get s (Reg.imgLen b))) ∧
        get t Reg.imgStatusState = 1 ∧ get t Reg.imgStatusVerified = 0)) ∧
  (∀ (s : State) (dst : Nat) (bs : List Byte), aloft s = true → s.img.op = some (2, dst, bs) →
    ∃ t, exec .imgWriteDone s = .next t ∧ slotMem t (inactiveB s) = Mem.writeBytes (slotMem s (inactiveB s)) 0xFF dst bs ∧
      slotMem t s.boot.slotB = slotMem s s.boot.slotB ∧ t.img.op = none ∧ get t Reg.imgStatusState = 2 ∧
      get t Reg.imgStatusResult = 1 ∧
      regsSame s t [Reg.imgStatusState, Reg.imgStatusResult, Reg.imgPreferA, Reg.imgPreferB]) ∧
  (∀ (s : State) (m : Master), accepts s m 0x1000 = true → m ≠ .dbg → get s Reg.imgStatusState ≠ 1 → castPhase s = 0 →
    ∃ t, exec (.imgVerify m) s = .next t ∧ t.img.op = some (3, 0, []) ∧ get t Reg.imgStatusState = 1 ∧
      t.vault.mcj.has digestJob = true ∧
      t = { s with regs := t.regs, img := t.img, vault := { s.vault with mcj := t.vault.mcj }, io := t.io }) ∧
  (∀ (s : State) (n : Nat) (bs : List Byte), aloft s = true → s.img.op = some (3, n, bs) → digestMay s = true →
    ∃ t, exec .imgVerifyDone s = .next t ∧ t.img.op = none ∧ get t Reg.imgStatusState = 2 ∧ t.mem = s.mem ∧
      (∀ l, verifySlot s (inactiveB s) true = .ok l → get t Reg.imgStatusResult = 1 ∧ get t Reg.imgStatusVerified = 1) ∧
      (∀ c, verifySlot s (inactiveB s) true = .error c → get t Reg.imgStatusResult = c.1 ∧ 6 ≤ c.1 ∧ c.1 ≤ 10 ∧
        get t Reg.imgStatusVerified = 0)) ∧
  (∀ (s : State) (m : Master), accepts s m 0x1000 = true → (m = .sp ∨ m = .host ∨ m = .spi) →
    get s Reg.imgStatusState ≠ 1 → castPhase s = 0 →
    ∃ t, exec (.imgRecover m) s = .next t ∧ t.img.recoverDue = true ∧ get t Reg.imgStatusState = 1 ∧
      regsSame s t [Reg.imgStatusState] ∧ t = { s with regs := t.regs, img := t.img, io := t.io })

/-- Castling starts where it may, loads, switches the safety pair and fails on abort, timeout or bad digest (R392,
R395, R396). Where a clause rests on the model's own reading or choice: log entries 111, 94. -/
def Obligations.CastlingMovesThroughItsPhases : Prop :=
  (∀ (s : State) (m : Master), accepts s m 0x1000 = true → m ≠ .dbg → get s Reg.imgStatusState ≠ 1 → castPhase s = 0 →
    castleMay s = true →
    ∃ t, exec (.castle m) s = .next t ∧ get t Reg.imgStatusPhase = 1 ∧ get t Reg.imgStatusState = 1 ∧
      t.env.handover = true ∧ t.img.castAt = boundaryAfter s 2000 ∧
      regsSame s t [Reg.imgStatusPhase, Reg.imgStatusState] ∧ t.mem = s.mem) ∧
  (∀ (s : State) (m : Master), accepts s m 0x1000 = true → m ≠ .dbg → get s Reg.imgStatusState ≠ 1 → castPhase s = 0 →
    castleMay s = false →
    ∃ t, exec (.castle m) s = .next t ∧ get t Reg.imgStatusResult = 12 ∧
      regsSame s t [Reg.imgStatusState, Reg.imgStatusResult] ∧ t.env = s.env) ∧
  (∀ s : State, aloft s = true → castPhase s = 2 → s.img.loaded = false → s.img.failDue = none → digestMay s = true →
    ∃ t, exec (.castlingLoadDone true) s = .next t ∧ t.regs = (dropDigest s).regs ∧
      t.mem = (copyParts s (inactiveB s) (1 - s.boot.spArea) (1 - s.boot.gcArea)).mem ∧
      (digestOk s (inactiveB s) = true → t.img.loaded = true ∧ t.img.failDue = none) ∧
      (digestOk s (inactiveB s) = false → t.img.loaded = false ∧ t.img.failDue = some 13)) ∧
  (∀ s : State, aloft s = true → castPhase s = 2 → s.img.loaded = false → s.img.failDue = none → digestMay s = true →
    ∃ t, exec (.castlingLoadDone false) s = .next t ∧ t.regs = (dropDigest s).regs ∧ t.img.loaded = false ∧ t.img.failDue = some 13) ∧
  (∀ s : State, aloft s = true → atBoundary s = true → castPhase s = 5 → s.img.castAt < tempoNo s →
    ∃ t, exec .spWindowStart s = .next t ∧ get t Reg.imgStatusPhase = 6 ∧ t.cpu.spWindow = true ∧
      t.boot.spArea = 1 - s.boot.spArea ∧ t.img.windowAt = tempoNo s ∧ regsSame s t [Reg.imgStatusPhase] ∧
      t = { s with regs := t.regs, cpu := t.cpu, boot := t.boot, img := t.img }) ∧
  (∀ s : State, aloft s = true → castPhase s = 6 → s.cpu.spHeld = false → tempoNo s < s.img.windowAt + 8 →
    exec .spReady s = .next { s with img.spReady := true }) ∧
  (∀ s : State, aloft s = true → castPhase s = 6 → s.img.spReady = false → s.img.windowAt + 8 ≤ tempoNo s →
    exec .spWindowExpiry s = .next { s with cpu.spWindow := false }) ∧
  (∀ (s : State) (m : Master), accepts s m 0x1000 = true → m ≠ .dbg → beforeFlip s = true → s.img.failDue = none →
    ∃ t, exec (.imgAbort m) s = .next t ∧ t.img = { s.img with failDue := some 12 } ∧ regsSame s t []) ∧
  (∀ s : State, aloft s = true → beforeFlip s = true → s.img.castAt + 4096 ≤ tempoNo s → s.img.failDue = none →
    atBoundary s = false → exec .castlingTimeout s = .next { s with img.failDue := some 15 }) ∧
  (∀ s : State, aloft s = true → beforeFlip s = true → s.img.castAt + 4096 ≤ tempoNo s → s.img.failDue = none →
    atBoundary s = true →
    ∃ t, exec .castlingTimeout s = .next t ∧ get t Reg.imgStatusPhase = 0 ∧ get t Reg.imgStatusState = 2 ∧
      get t Reg.imgStatusResult = 15 ∧ t.env.handover = false ∧ t.mem = s.mem ∧ t.boot = s.boot ∧
      get t Reg.imgStatsAbandoned = min (2 ^ Reg.imgStatsAbandoned.width - 1) (get s Reg.imgStatsAbandoned + 1))

/-- In recovery mode the mailbox commands act on their slot and answer with state, result and tag (R399). Where a
clause rests on the model's own reading or choice: log entries 112, 113, 30. -/
def Obligations.RecoveryMailboxTakesCommands : Prop :=
  (∀ (s : State) (b : Bool), s.boot.phase = .recovery → s.cpu.spHeld = false → s.img.rom = none → lifeCycle s ≠ 4 →
    ∃ t, exec (.recoveryErase b) s = .next t ∧ (∃ off len, t.img.rom = some (1, b, off, len)) ∧
      mbWord t 0x10 = 1 + 256 * ((mbTag s + 1) % 2 ^ 24) ∧ b ∉ t.img.romVerified ∧ t.regs = s.regs ∧
      t.mem.flashA = s.mem.flashA ∧ t.mem.flashB = s.mem.flashB) ∧
  (∀ (s : State) (b : Bool) (off len : Nat), s.boot.phase = .recovery → s.cpu.spHeld = false → s.img.rom = none → lifeCycle s ≠ 4 →
    off < 2 ^ 32 → len < 2 ^ 32 → rangeOk256 off len = false →
    ∃ t, exec (.recoveryWrite b off len) s = .next t ∧ t.img = s.img ∧
      mbWord t 0x10 = 2 + 16 * 5 + 256 * ((mbTag s + 1) % 2 ^ 24)) ∧
  (∀ (s : State) (b : Bool) (off len : Nat), s.boot.phase = .recovery → s.cpu.spHeld = false → s.img.rom = none → lifeCycle s ≠ 4 →
    rangeOk256 off len = true →
    ∃ t, exec (.recoveryWrite b off len) s = .next t ∧ t.mem.flashA = s.mem.flashA ∧ t.mem.flashB = s.mem.flashB ∧
      (isErased s b off len = true → t.img.rom = some (2, b, off, len) ∧
        t.img.op = some (2, off, bankHBytes s 0x100000 len) ∧
        mbWord t 0x10 = 1 + 256 * ((mbTag s + 1) % 2 ^ 24)) ∧
      (isErased s b off len = false → t.img = s.img ∧
        mbWord t 0x10 = 2 + 16 * 4 + 256 * ((mbTag s + 1) % 2 ^ 24))) ∧
  (∀ (s : State) (b : Bool), s.boot.phase = .recovery → s.cpu.spHeld = false → s.img.rom = none → lifeCycle s ≠ 4 →
    ∃ t, exec (.recoveryVerify b) s = .next t ∧ (∃ off len, t.img.rom = some (3, b, off, len)) ∧
      mbWord t 0x10 = 1 + 256 * ((mbTag s + 1) % 2 ^ 24) ∧ t.img.romVerified = s.img.romVerified) ∧
  (∀ (s : State) (b : Bool), s.boot.phase = .recovery → s.cpu.spHeld = false → s.img.rom = none → lifeCycle s ≠ 4 → b ∈ s.img.romVerified →
    ∃ t, exec (.recoveryBoot b) s = .next t ∧ t.boot.phase = .inReset ∧ t.boot.cause = 5 ∧
      slotMem t b = Mem.writeBytes (slotMem s b) 0xFF 0xFF0
        (leBytes 4 (highestPrefer s + 1) ++ leBytes 4 (0xFFFFFFFF - (highestPrefer s + 1)))) ∧
  (∀ (s : State) (b : Bool), s.boot.phase = .recovery → s.cpu.spHeld = false → s.img.rom = none → lifeCycle s ≠ 4 → b ∉ s.img.romVerified →
    ∃ t, exec (.recoveryBoot b) s = .next t ∧ t.boot = s.boot ∧ t.img = s.img ∧
      mbWord t 0x10 = 2 + 16 * 11 + 256 * ((mbTag s + 1) % 2 ^ 24)) ∧
  (∀ (s : State) (b : Bool) (off len : Nat), s.boot.phase = .recovery → s.cpu.spHeld = false → s.img.rom = some (1, b, off, len) →
    mbWord s 4 / 256 = mbTag s →
    ∃ t, exec .recoveryCommandDone s = .next t ∧ slotMem t b = [] ∧ slotMem t (!b) = slotMem s (!b) ∧
      t.img.rom = none ∧ mbWord t 0x10 = 2 + 16 * 1 + 256 * mbTag s) ∧
  (∀ (s : State) (b : Bool) (off len dst : Nat) (bs : List Byte), s.boot.phase = .recovery → s.cpu.spHeld = false →
    s.img.rom = some (2, b, off, len) → s.img.op = some (2, dst, bs) → mbWord s 4 / 256 = mbTag s →
    ∃ t, exec .recoveryCommandDone s = .next t ∧ slotMem t b = Mem.writeBytes (slotMem s b) 0xFF off bs ∧
      slotMem t (!b) = slotMem s (!b) ∧ t.img.rom = none ∧ mbWord t 0x10 = 2 + 16 * 1 + 256 * mbTag s)

/-- Snapshot and counter-read requests wait for their boundary; dumps are captured, written or counted missed (R378,
R380, R382). Where a clause rests on the model's own reading or choice: log entries 117, 118. -/
def Obligations.FreezesAndDumpsAreCaptured : Prop :=
  (∀ (s : State) (m : Master), accepts s m 0xC00000 = true → m ≠ .dbg →
    ∃ t, exec (.snapCtlReq m) s = .next t ∧ t.cnt = { s.cnt with snapAt := some (s.cnt.snapAt.getD s.time.now) } ∧
      regsSame s t [] ∧ t = { s with cnt := t.cnt, io := t.io }) ∧
  (∀ (s : State) (m : Master), accepts s m 0xC00080 = true →
    ∃ t, exec (.crCtlNow m) s = .next t ∧ t.cnt = { s.cnt with crAt := s.cnt.crAt ++ [s.time.now] } ∧
      regsSame s t [] ∧ t = { s with cnt := t.cnt, io := t.io, cpu := t.cpu }) ∧
  (∀ s : State, aloft s = true → boundaryDue s = true → (counterGlobals s).1 ≠ 0 →
    (tempoNo s + 1) % (counterGlobals s).1 = 0 → s.cnt.dumpAt ≠ some (tempoNo s + 1) →
    (p48Up s = false ∨ flag s (Reg.ringCfgEn (counterGlobals s).2.1) = false ∨ s.cnt.dump ≠ []) →
    ∃ t, exec .dumpCapture s = .next t ∧ t.cnt.missed = s.cnt.missed + 1 ∧ t.cnt.dump = s.cnt.dump ∧
      get t Reg.dumpStatusMissed = min (2 ^ Reg.dumpStatusMissed.width - 1) (get s Reg.dumpStatusMissed + 1) ∧
      (s.cnt.snapAt.any (requestDue s) = false → s.cnt.crAt.any (requestDue s) = false →
        regsSame s t [Reg.dumpStatusMissed])) ∧
  (∀ s u : State, aloft s = true → boundaryDue s = true → (counterGlobals s).1 ≠ 0 →
    (tempoNo s + 1) % (counterGlobals s).1 = 0 → s.cnt.dumpAt ≠ some (tempoNo s + 1) →
    u = (if s.cnt.snapAt.any (requestDue s) then freeze s else s) → p48Up u = true →
    flag u (Reg.ringCfgEn (counterGlobals u).2.1) = true → u.cnt.dump = [] →
    ringHolds u (counterGlobals u).2.1 (dumpRecords u (counterGlobals u).2.2) = true →
    ∃ t, exec .dumpCapture s = .next t ∧ t.cnt.dump = dumpRecords u (counterGlobals u).2.2 ∧
      t.cnt.dumpRing = (counterGlobals u).2.1 ∧ t.cnt.missed = u.cnt.missed ∧ t.cnt.dumpMissed = u.cnt.missed ∧
      t.cnt.pageGen = (u.cnt.pageGen + 2) % 2 ^ 32 ∧ get t Reg.crTempo = tempoNo s % 2 ^ 32 ∧
      t.cnt.crAt = s.cnt.crAt.filter (fun a => !requestDue s a) ∧ t = { u with regs := t.regs, cnt := t.cnt }) ∧
  (∀ s : State, s.cnt.snapAt.any (requestDue s) = true →
    (freeze s).cnt.snapAt = none ∧ get (freeze s) Reg.snapTempoNum = tempoNo s % 2 ^ 64 ∧
    get (freeze s) Reg.snapStatusValid = 1) ∧
  (∀ s : State, s.cnt.dump ≠ [] → (p48Up s = false ∨ flag s (Reg.ringCfgEn s.cnt.dumpRing) = false) →
    ∃ t, exec .dumpWriteDone s = .next t ∧ t.cnt.dump = [] ∧ t.cnt.missed = s.cnt.missed + 1 ∧
      get t Reg.dumpStatusMissed = min (2 ^ Reg.dumpStatusMissed.width - 1) (get s Reg.dumpStatusMissed + 1) ∧
      regsSame s t [Reg.dumpStatusMissed] ∧ t.io = s.io) ∧
  (∀ (s : State) (bs : List Byte), s.cnt.dump = [bs] → p48Up s = true → flag s (Reg.ringCfgEn s.cnt.dumpRing) = true →
    ringHolds s s.cnt.dumpRing [bs] = true →
    ∃ t, exec .dumpWriteDone s = .next t ∧ t.cnt.dump = [] ∧ t.cnt.missed = s.cnt.missed - s.cnt.dumpMissed ∧
      get t Reg.dumpSeq = (get s Reg.dumpSeq + 1) % 2 ^ 32 ∧
      Out.hostWrite (leAt (((ringOf s s.cnt.dumpRing).descs.find (get s (Reg.ringHeadHead s.cnt.dumpRing))).getD []) 0 8)
        bs ∈ t.io.out)

/-- Jobs queue within their core's budget, start or are deferred, and complete; slots drain at their limit (R31,
R47, R48, R76). Where a clause rests on the model's own reading or choice: log entries 120, 50, 121, 46, 8. -/
def Obligations.JobsFitTheWorkBudget : Prop :=
  (∀ (s : State) (core : Fin 5) (kind : JobKind) (cost : Nat), aloft s = true → jobPlaced core kind = true →
    cost ≤ coreBudget s core →
    ∃ t, exec (.jobRequest core kind cost) s = .next t ∧
      t.jobs.queue = s.jobs.queue ++ [⟨activeCore s core, kind, cost, 0, s.jobs.order, none⟩] ∧
      t.jobs.order = s.jobs.order + 1 ∧ t.jobs.running = s.jobs.running ∧ t = { s with jobs := t.jobs }) ∧
  (∀ (s : State) (core : Fin 5) (kind : JobKind) (cost : Nat), aloft s = true → jobPlaced core kind = true →
    coreBudget s core < cost →
    ∃ t, exec (.jobRequest core kind cost) s = .next t ∧
      t.io.resp.find (mcode (coreMaster core)) = some .jobTooLarge ∧ t = { s with io := t.io }) ∧
  (∀ (s : State) (core : Fin 5) (kind : JobKind) (cost : Nat), aloft s = true → jobPlaced core kind = false →
    exec (.jobRequest core kind cost) s = .next s) ∧
  (∀ (s : State) (core : Fin 5) (j : Job), aloft s = true → takesJobs s core = true →
    s.jobs.running.has core = false → nextJob s core = some j → s.cpu.halted.contains core.val = false →
    jobFits s j = true →
    ∃ t, exec (.jobStart core) s = .next t ∧ t.jobs.running.find core = some j ∧
      t.jobs.startedAt.find core = some s.time.now ∧ (∀ x ∈ t.jobs.queue, x ∈ s.jobs.queue ∧ x.order ≠ j.order) ∧
      t.jobs.budget.find core = some ((s.jobs.budget.find core).getD (coreBudget s core) - j.cost) ∧
      t = { s with jobs := t.jobs }) ∧
  (∀ (s : State) (core : Fin 5) (j : Job), aloft s = true → takesJobs s core = true →
    nextJob s core = some j → (s.cpu.halted.contains core.val = true ∨ jobFits s j = false) →
    ∃ t, exec (.jobStart core) s = .next t ∧ t.jobs.running = s.jobs.running ∧
      t.jobs.queue.length = s.jobs.queue.length ∧
      { j with deferrals := j.deferrals + 1, deferTempo := some (tempoNo s) } ∈ t.jobs.queue ∧
      get t Reg.tempoStatsOverruns = min (2 ^ Reg.tempoStatsOverruns.width - 1) (get s Reg.tempoStatsOverruns + 1) ∧
      regsSame s t [Reg.tempoStatsOverruns, Reg.tempoStatsMaxDefer]) ∧
  (∀ (s : State) (core : Fin 5) (j : Job), aloft s = true → takesJobs s core = true →
    nextJob s core = some j → s.cpu.halted.contains core.val = false → jobFits s j = true →
    s.jobs.running.has core = true → exec (.jobStart core) s = .next s) ∧
  (∀ (s : State) (core : Fin 5) (j : Job) (type : Nat) (body : List Byte), aloft s = true →
    takesJobs s core = true → s.jobs.running.find core = some j → s.cpu.halted.contains core.val = false →
    j.kind = .sbSeal type body → sheetWritable s = true → s.sheet.nextSeq ≠ 0 →
    ∃ t, exec (.jobComplete core) s = .next t ∧ t.jobs.running.find core = none ∧
      s.sheet.nextSeq < t.sheet.nextSeq) ∧
  (∀ (s : State) (core : Fin 5) (j : Job) (type : Nat) (body : List Byte), aloft s = true →
    takesJobs s core = true → s.jobs.running.find core = some j → s.cpu.halted.contains core.val = false →
    j.kind = .sbAppend type body → s.cpu.spHeld = false →
    ∃ t, exec (.jobComplete core) s = .next t ∧ t.jobs.running.find core = none ∧
      (tooLarge s 0 (jobBound s (.sbSeal type body)) = false →
        t.jobs.queue = s.jobs.queue ++
          [⟨activeCore s 0, .sbSeal type body, jobBound s (.sbSeal type body), 0, s.jobs.order, none⟩] ∧
        t.sheet = s.sheet) ∧
      (tooLarge s 0 (jobBound s (.sbSeal type body)) = true → t.jobs.queue = s.jobs.queue ∧
        t.sheet = { s.sheet with lost := s.sheet.lost + 1 })) ∧
  (∀ (s : State) (core : Fin 5) (j : Job) (type : Nat) (body : List Byte), aloft s = true →
    takesJobs s core = true → s.jobs.running.find core = some j → s.cpu.halted.contains core.val = false →
    j.kind = .sbAppend type body → s.cpu.spHeld = true →
    ∃ t, exec (.jobComplete core) s = .next t ∧ t.jobs.running.find core = none ∧ t.jobs.queue = s.jobs.queue ∧
      t.sheet = { s.sheet with lost := s.sheet.lost + 1 }) ∧
  (∀ (s : State) (core : Fin 5) (j : Job), aloft s = true → takesJobs s core = true →
    s.jobs.running.find core = some j → s.cpu.halted.contains core.val = false → j.kind = .prepare →
    get s Reg.commitStatusState = 3 → s.vault.suspCores.contains core.val = false → s.env.prepFail = none →
    sheetWritable s = true → itemMarked s = none →
    ∃ t, exec (.jobComplete core) s = .next t ∧ t.jobs.running.find core = none ∧ t.env.prepDone = true ∧
      t.regs = s.regs ∧
      (tooLarge s 0 (jobBound s (.sbSeal 0x0002 (commitEntry s))) = false → t.env.prepFail = none ∧
        t.jobs.queue = s.jobs.queue ++ [⟨activeCore s 0, .sbSeal 0x0002 (commitEntry s),
          jobBound s (.sbSeal 0x0002 (commitEntry s)), 0, s.jobs.order, none⟩]) ∧
      (tooLarge s 0 (jobBound s (.sbSeal 0x0002 (commitEntry s))) = true → t.env.prepFail = some (7, 0, 0) ∧
        t.jobs.queue = s.jobs.queue)) ∧
  (∀ (s : State) (core : Fin 5) (j : Job), aloft s = true → takesJobs s core = true →
    s.jobs.running.find core = some j → s.cpu.halted.contains core.val = false →
    j.kind = .sbSeal 0x0002 (commitEntry s) → get s Reg.commitStatusState = 3 → s.env.prepDone = true →
    ∃ t, exec (.jobComplete core) s = .next t ∧ t.jobs.running.find core = none ∧ t.env.entryDone = true) ∧
  (∀ (s : State) (slot : Fin 4) (t0 : Nat), aloft s = true → slotState s slot = 3 → cur s Reg.epochCfg ≠ 0 →
    s.env.drainStart.find slot = some t0 → t0 + cur s Reg.epochCfg ≤ tempoNo s →
    ∃ u : State, exec (.drainLimit slot) s = .next (freeNow u slot) ∧ get u (Reg.inflightCount slot) = 0 ∧
      (∀ e ∈ u.env.latches, e.2 ≠ slot.val) ∧ (∀ e ∈ u.edge.packers, e.2.slot ≠ slot.val) ∧
      (∀ j ∈ u.edge.secJobs, j.out.slot ≠ slot.val) ∧ u.env.policy = s.env.policy ∧ u.env.cmt = s.env.cmt) ∧
  (∀ (u : State) (slot : Fin 4), get u Reg.commitStatusState ≠ 2 →
    slotState (freeNow u slot) slot = 0 ∧ (∀ e ∈ (freeNow u slot).env.policy, e.1 / 2 ^ 48 ≠ slot.val) ∧
    (∀ e ∈ (freeNow u slot).env.cmt, e.1 % 4 ≠ slot.val)) ∧
  (∀ (s : State) (dom : Domain) (p : Fin 48) (asGm : Bool), aloft s = true →
    (asGm = true → flag s (gmFld dom) = true) → sendsSync s dom p asGm = true →
    (s.time.syncSent.find (48 * domIndex dom + p)).all (fun t0 => decide (t0 + syncNs s dom ≤ s.time.now)) = true →
    ∃ t, exec (.syncInterval dom p asGm) s = .next t ∧
      t.time.syncSent.find (48 * domIndex dom + p) = some s.time.now ∧
      t = frameArrival (frameArrival { s with time.syncSent := t.time.syncSent } 49
          (gptpFrame (macOf s p).1 (Config.gptpBody p (u8 (structOf s 0x0040) (4 + domIndex dom))
            (s.time.now / syncNs s dom % 65536) false s.time.now) 46 p true)) 49
        (gptpFrame (macOf s p).1 (Config.gptpBody p (u8 (structOf s 0x0040) (4 + domIndex dom))
          (s.time.now / syncNs s dom % 65536) true s.time.now) 76 p false)) ∧
  (∀ (s : State) (dom : Domain) (p : Fin 48) (asGm : Bool) (t0 : Nat), aloft s = true →
    (asGm = true → flag s (gmFld dom) = true) → s.time.syncSent.find (48 * domIndex dom + p) = some t0 → s.time.now < t0 + syncNs s dom →
    exec (.syncInterval dom p asGm) s = .next s) ∧
  (∀ (s : State) (dom : Domain) (p : Fin 48), aloft s = true → gptpPort s dom p = true → extPortCfg s dom = false →
    gmCapable s dom = true → flag s (gmFld dom) = false → portUp s p = false →
    ∃ t, exec (.syncInterval dom p true) s = .next t ∧ get t (gmFld dom) = 1 ∧ get t (lockedFld dom) = 1 ∧
      get t (holdoverFld dom) = 0 ∧ (dom = .wc → get t Reg.tbStatusWcOffset = 0) ∧
      regsSame s t ([gmFld dom, lockedFld dom, holdoverFld dom, Reg.tbStatusWcOffset] ++ raiseFields 18) ∧
      domOf t dom = { domOf s dom with everLocked := true, gm := none } ∧
      t = { s with regs := t.regs, accum := t.accum, time := t.time, intc := t.intc, host := t.host, io := t.io })

/-- A tempo begins when the working clock has reached its next mark, and the first boundary asserts READY (R39).
Where a clause rests on the model's own reading or choice: log entries 41, 42, 43, 97. -/
def Obligations.TemposBeginOnTheWorkingClock : Prop :=
  (∀ s : State, aloft s = true → boundaryDue s = true →
    ∃ t, exec .tempoBoundary s = .next t ∧ (t.boot.phase = .aloft → t.time.tempoMark = nextMark s ∧
      t.time.tempoLocal = s.time.now ∧ t.time.realign = false ∧ t.jobs.budget = [])) ∧
  (∀ s : State, aloft s = true → boundaryDue s = true → s.boot.lcPend = none → s.img.recoverDue = false →
    ∃ t, exec .tempoBoundary s = .next t ∧ t.boot.phase = .aloft ∧ t.time.tempoMark = nextMark s ∧
      t.time.tempoLocal = s.time.now ∧ t.time.realign = false ∧ t.time.now = s.time.now ∧ t.jobs.budget = [] ∧
      t.cpu.injected = false ∧ t.otp.lc = s.otp.lc) ∧
  (∀ s : State, aloft s = true → boundaryDue s = true → s.boot.lcPend = none → s.img.recoverDue = true →
    ∃ t, exec .tempoBoundary s = .next t ∧ t.boot.phase = .inReset ∧ t.boot.cause = 4 ∧ t.img.recoverDue = false) ∧
  (∀ s : State, aloft s = true → boundaryDue s = false → exec .tempoBoundary s = .next s) ∧
  (∀ s : State, s.boot.phase = .starting → s.boot.calDone = true → s.cpu.spHeld = false → s.time.tempoMark + period s ≤ wcNow s →
    ∃ t, exec .tempoBoundary s = .next t ∧ t.boot.phase = .aloft ∧ t.time.tempoLocal = s.time.now ∧
      t.time.tempoMark = wcNow s - wcNow s % (period s : Int) ∧ t.mem = s.mem) ∧
  (∀ s : State, s.time.realign = false → nextMark s = s.time.tempoMark + period s) ∧
  (∀ s : State, get (nextTempo s) Reg.tempoNum = (tempoNo s + 1) % 2 ^ 64 ∧
    (s.time.realign = true → get (nextTempo s) Reg.tempoStatsRealign =
      min (2 ^ Reg.tempoStatsRealign.width - 1) (get s Reg.tempoStatsRealign + 1)) ∧
    regsSame s (nextTempo s) [Reg.tempoNum, Reg.tempoStatsRealign])

/-- Register writes and reads act on their fields, misaligned and guarded ones are refused, RC fields clear (R11,
R69, R350, R447). Where a clause rests on the model's own reading or choice: log entries 34, 35, 26, 142, 29,
23. -/
def Obligations.RegisterAccessesHaveTheirEffects : Prop :=
  (∀ (s : State) (k : Asking) (v : Word) (f : Fld), f ∈ plainFields k.m → accepts s k.m f.addr = true →
    grantedNext s f.addr k.m k.waiting = true →
    ∃ t, exec (.registerWrite k f.addr 4 v) s = .next t ∧ get t f = bitsAt v.toNat f.lsb f.width ∧ regsSame s t [f] ∧
      t.io.resp.find (mcode k.m) = some .done ∧ t = { s with regs := t.regs, io := t.io, cpu := t.cpu }) ∧
  (∀ (s : State) (k : Asking) (v : Word) (f : Fld) (h : Fin 2),
    (f = Reg.sbRdSeq ∨ ∃ r : Fin 64, flag s (Reg.ringCfgEn r) = false ∧ (f = Reg.ringDescBase r ∨ f = Reg.ringCplBase r)) →
    accepts s k.m (f.addr + 4 * h) = true → grantedNext s (f.addr + 4 * h) k.m k.waiting = true →
    ∃ t, exec (.registerWrite k (f.addr + 4 * h) 4 v) s = .next t ∧
      get t f = setBits (get s f) (32 * h) 32 v.toNat % 2 ^ 64 ∧ regsSame s t [f] ∧
      t.io.resp.find (mcode k.m) = some .done ∧ t = { s with regs := t.regs, io := t.io, cpu := t.cpu }) ∧
  (∀ (s : State) (k : Asking) (v : Word), accepts s k.m 0xC00010 = true → grantedNext s 0xC00010 k.m k.waiting = true →
    ∃ t, exec (.registerWrite k 0xC00010 4 v) s = .next t ∧ get t Reg.frzSelOffset = bitsAt v.toNat 2 22 ∧
      get t Reg.frzSelLsb = bitsAt v.toNat 24 5 ∧ regsSame s t [Reg.frzSelOffset, Reg.frzSelLsb]) ∧
  (∀ (s : State) (k : Asking) (r : Fin 64) (v : Word), accepts s k.m (Reg.ringModModTimer r).addr = true →
    grantedNext s (Reg.ringModModTimer r).addr k.m k.waiting = true →
    ∃ t, exec (.registerWrite k (Reg.ringModModTimer r).addr 4 v) s = .next t ∧
      get t (Reg.ringModModTimer r) = bitsAt v.toNat 0 10 ∧ get t (Reg.ringModModCount r) = bitsAt v.toNat 16 10 ∧
      regsSame s t [Reg.ringModModTimer r, Reg.ringModModCount r]) ∧
  (∀ (s : State) (k : Asking) (a : Nat) (v : Word), accepts s k.m a = true → grantedNext s a k.m k.waiting = true →
    fieldsAt (regBank k.m a) a ≠ [] → (∀ e ∈ fieldsAt (regBank k.m a) a, e.1.ty = .ro ∨ e.1.ty = .rc) →
    ∃ t, exec (.registerWrite k a 4 v) s = .next t ∧ regsSame s t [] ∧ t.io.resp.find (mcode k.m) = some .done ∧
      t = { s with regs := t.regs, io := t.io, cpu := t.cpu }) ∧
  (∀ (s : State) (k : Asking) (a : Nat) (v : Word), accepts s k.m a = true → grantedNext s a k.m k.waiting = true →
    (a = 0x10008 ∨ a = 0x2004 ∧ k.m ≠ .dbg) →
    ∃ t, exec (.registerWrite k a 4 v) s = .next t ∧
      (∀ e ∈ fieldsAt (regBank k.m a) a, e.1.ty = .w1c →
        get t e.1 = if bitAt v.toNat e.1.lsb then 0 else get s e.1) ∧
      regsSame s t ((fieldsAt (regBank k.m a) a).map (·.1) |>.filter fun f => f.ty = .w1c) ∧
      t = { s with regs := t.regs, io := t.io, cpu := t.cpu }) ∧
  (∀ (s : State) (k : Asking) (a size : Nat) (v : Word), grantedNext s a k.m k.waiting = false →
    exec (.registerWrite k a size v) s = .next s ∧ exec (.registerRead k a size) s = .next s) ∧
  (∀ (s : State) (k : Asking) (a size : Nat) (v : Word), aloft s = true → masterHeard s k.m = true →
    grantedNext s a k.m k.waiting = true → (k.m = .sp ∨ ∃ c, k.m = .gc c) → (size ≠ 4 ∨ a % 4 ≠ 0) →
    ∃ t, exec (.registerWrite k a size v) s = .next t ∧ t.io.resp.find (mcode k.m) = some .busError ∧
      t = { s with io := t.io }) ∧
  (∀ (s : State) (c : Fin 4) (wt : List Master) (v : Word), aloft s = true → masterHeard s (.gc c) = true →
    grantedNext s 0xA0004 (.gc c) wt = true →
    ∃ t, exec (.registerWrite ⟨.gc c, wt⟩ 0xA0004 4 v) s = .next t ∧ t.io.resp.find (c.val + 1) = some .busError ∧
      get t Reg.guardViol = min (2 ^ Reg.guardViol.width - 1) (get s Reg.guardViol + 1) ∧
      get t Reg.guardLastOffset = 0xA0004 / 4 ∧ get t Reg.guardLastMaster = conflictCode (.gc c) ∧
      t.mem = s.mem) ∧
  (∀ (s : State) (k : Asking) (a : Nat), yields s k.m a = true → grantedNext s a k.m k.waiting = true →
    readActs k.m a = false → s.io.capture.find (captureKey k.m a) = none →
    ∃ t, exec (.registerRead k a 4) s = .next t ∧
      t.io.resp.find (mcode k.m) = some (.data (wordOf (settle s a) k.m (fieldsAt (regBank k.m a) a))) ∧
      ((∀ e ∈ fieldsAt (regBank k.m a) a, e.1.ty ≠ .rc) → regsSame (settle s a) t []) ∧
      t = { settle s a with regs := t.regs, io := t.io, cpu := t.cpu }) ∧
  (∀ (s : State) (k : Asking) (a : Nat), yields s k.m a = true → grantedNext s a k.m k.waiting = true →
    a ∈ [0x2008, 0x10010, 0x10018, 0x20018, 0x40088, 0x40094, 0x80004, 0x80008, 0xA0010, 0xC0040, 0xC0104,
      0xE0120, 0x100004, 0x100008, 0x10000C, 0x100010, 0x100020, 0x500008, 0x500018, 0x50001C, 0x500020, 0x500024,
      0x600104, 0x600180, 0x600188, 0x610010, 0x610084, 0x610200, 0xB00308, 0xB0030C, 0xC00048, 0xE00900, 0xE00908] →
    s.io.capture.find (captureKey k.m a) = none →
    ∃ t, exec (.registerRead k a 4) s = .next t ∧
      (∀ e ∈ fieldsAt (regBank k.m a) a, e.1.ty = .rc → get t e.1 = reloaded s e.1 % 2 ^ e.1.width) ∧
      regsSame s t ((fieldsAt (regBank k.m a) a).map (·.1) |>.filter fun f => f.ty = .rc)) ∧
  (∀ (s : State) (k : Asking) (p : Fin 48) (f : Fld), f ∈ [Reg.portTxSaDrops p, Reg.portRxIcvFail p, Reg.portRxNoSa p,
      Reg.portRxReplay p, Reg.portRxUnsupported p, Reg.portLinkdownDiscards p] →
    yields s k.m f.addr = true → grantedNext s f.addr k.m k.waiting = true →
    s.io.capture.find (captureKey k.m f.addr) = none →
    ∃ t, exec (.registerRead k f.addr 4) s = .next t ∧ get t f = 0 ∧ regsSame s t [f]) ∧
  (∀ (s : State) (k : Asking) (a size : Nat), aloft s = true → masterHeard s k.m = true →
    grantedNext s a k.m k.waiting = true → (k.m = .sp ∨ ∃ c, k.m = .gc c) → (size ≠ 4 ∨ a % 4 ≠ 0) →
    ∃ t, exec (.registerRead k a size) s = .next t ∧ t.io.resp.find (mcode k.m) = some .busError ∧
      t = { s with io := t.io }) ∧
  (∀ (s : State) (m : Master) (a : Nat), accepts s m Reg.cmtPeekAddr.addr = true →
    yields s m Reg.cmtPeekData.addr = true → a % 4 = 0 → a < 2 ^ 24 → (a < 0x810000 ∨ 0x942000 ≤ a) →
    (∀ e ∈ fieldsAt (regBank m a) a, e.1.ty = .cmt) →
    ∃ t, exec (.cmtPeek m a) s = .next t ∧
      t.io.resp.find (mcode m) = some (.data ((fieldsAt (regBank m a) a).foldl (fun w e => w +
        (if e.1.width ≤ 32 then peekedField s e.1 * 2 ^ e.1.lsb else peekedField s e.1 / 2 ^ (32 * e.2) % 2 ^ 32)) 0)) ∧
      regsSame s t [Reg.cmtPeekAddr] ∧ t.env = s.env) ∧
  (∀ (s : State) (a : Nat), aloft s = true → dbgBusy s = false → a % 4 = 0 → dbgReach s a false = true →
    readActs .dbg a = false → s.io.capture.find (captureKey .dbg a) = none →
    ∃ t, exec (.dbgRead a) s = .next t ∧ t.cpu.dbgStatus = 0 ∧
      t.cpu.dbgData = wordOf (settle s a) .dbg (fieldsAt (regBank .dbg a) a) ∧
      ((∀ e ∈ fieldsAt (regBank .dbg a) a, e.1.ty ≠ .rc) → regsSame (settle s a) t [])) ∧
  (∀ (s : State) (a : Nat), aloft s = true → dbgBusy s = false → a % 4 = 0 → dbgReach s a false = false →
    ∃ t, exec (.dbgRead a) s = .next t ∧ t.cpu.dbgStatus = 2 ∧ regsSame s t [] ∧ t.mem = s.mem) ∧
  (∀ (s : State) (v : Word) (f : Fld), aloft s = true → dbgBusy s = false → lifeCycle s = 0 → f ∈ plainFields .dbg →
    ∃ t, exec (.dbgWrite f.addr v) s = .next t ∧ get t f = bitsAt v.toNat f.lsb f.width ∧ t.cpu.dbgStatus = 0 ∧
      regsSame s t [f] ∧ t = { s with regs := t.regs, io := t.io, cpu := t.cpu }) ∧
  (∀ (s : State) (a : Nat) (v : Word), aloft s = true → dbgBusy s = false → a % 4 = 0 → dbgReach s a true = false →
    ∃ t, exec (.dbgWrite a v) s = .next t ∧ t.cpu.dbgStatus = 2 ∧ regsSame s t [] ∧ t.mem = s.mem) ∧
  (∀ (s : State) (a : Nat) (v : Word), dieRuns s = false ∨ dbgBusy s = true →
    exec (.dbgRead a) s = .next s ∧ exec (.dbgWrite a v) s = .next s) ∧
  (∀ (s : State) (wt : List Master) (a size : Nat), s.boot.phase = .recovery → grantedNext s a .host wt = true →
    (size ≠ 4 ∨ a % 4 ≠ 0) →
    ∃ t, exec (.registerRead ⟨.host, wt⟩ a size) s = .next t ∧ t.io.resp.find 5 = some .unsupportedRequest ∧
      t = { s with io := t.io }) ∧
  (∀ (s : State) (wt : List Master) (a size : Nat) (v : Word), s.boot.phase = .recovery →
    grantedNext s a .host wt = true → (size ≠ 4 ∨ a % 4 ≠ 0) →
    ∃ t, exec (.registerWrite ⟨.host, wt⟩ a size v) s = .next t ∧ t.io.resp.find 5 = some .unsupportedRequest ∧
      t = { s with io := t.io })

/-- The SPI port writes and reads runs of words, reports its errors, and aborts keep whole words only (R345, R346,
R347). Where a clause rests on the model's own reading or choice: log entries 31, 124, 30. -/
def Obligations.ManagementPortTransfersWords : Prop :=
  (∀ (s : State) (a : Nat) (l : List (Fld × Word)), spiListens s = true → a % 4 = 0 →
    (∀ e ∈ l, e.1 ∈ plainFields .spi ∧ accepts s .spi e.1.addr = true) →
    l.map (fun e => e.1.addr) = (List.range l.length).map (fun i => a + 4 * i) →
    ∃ t, exec (.spiWrite a (l.map fun e => e.2)) s = .next t ∧
      (∀ e ∈ l, get t e.1 = bitsAt e.2.toNat e.1.lsb e.1.width) ∧
      regsSame s t (l.map fun e => e.1) ∧ t = { s with regs := t.regs, io := t.io }) ∧
  (∀ (s : State) (a : Nat) (ws : List Word), spiListens s = true → aloft s = true → a % 4 ≠ 0 →
    ∃ t, exec (.spiWrite a ws) s = .next t ∧ t.host.lastErr = true ∧
      (s.host.ledger.length < 64 → t.host.ledger = s.host.ledger ++ [⟨a, 1, 2, 0, tempoNo s % 2 ^ 16⟩]) ∧
      t.mem = s.mem) ∧
  (∀ (s : State) (a n : Nat), spiListens s = true → aloft s = true → a % 4 = 0 →
    (∀ i ∈ List.range n, yields s .spi (a + 4 * i) = true ∧ readActs .spi (a + 4 * i) = false ∧
      settle s (a + 4 * i) = s ∧ capturedBy s .spi (a + 4 * i) = [] ∧
      s.io.capture.find (captureKey .spi (a + 4 * i)) = none ∧
      (fieldsAt (regBank .spi (a + 4 * i)) (a + 4 * i)).all (fun e => e.1.ty != .rc) = true) →
    ∃ t, exec (.spiRead a n) s = .next t ∧ t.io.resp.find 6 = some (.words ((List.range n).map fun i =>
        wordOf s .spi (fieldsAt (regBank .spi (a + 4 * i)) (a + 4 * i)))) ∧
      regsSame s t [] ∧ t = { s with regs := t.regs, io := t.io }) ∧
  (∀ (s : State) (a n : Nat), spiListens s = true → a % 4 ≠ 0 →
    ∃ t, exec (.spiRead a n) s = .next t ∧ t.io.resp.find 6 = some (.errorSync 1) ∧
      get t Reg.brSpiErrors = min (2 ^ Reg.brSpiErrors.width - 1) (get s Reg.brSpiErrors + 1) ∧
      regsSame s t [Reg.brSpiErrors]) ∧
  (∀ (s : State) (off : Nat) (ws : List Word) (wt : List BusMaster), spiListens s = true → aloft s = true →
    off % 4 = 0 → isNext s .hb .h wt = true → reach s .spi 0 true = none →
    (∀ i ∈ List.range ws.length, (hbCheck s (off + 4 * i) 4 true .clean).1 = none) →
    ∃ t, exec (.hWrite off ⟨ws, .clean, wt⟩) s = .next t ∧
      t.mem = { s.mem with bankH := Mem.writeBytes s.mem.bankH 0 off (ws.flatMap fun w => leBytes 4 w.toNat) } ∧
      regsSame s t (wt.map fun x => Reg.bankConflict 2 (busCode x)) ∧
      t = { s with regs := t.regs, accum := t.accum, mem := t.mem, io := t.io, freeCtr := t.freeCtr,
                   cpu := { s.cpu with lastBankGrant := t.cpu.lastBankGrant },
                   vault := { s.vault with mcj := t.vault.mcj } }) ∧
  (∀ (s : State) (off n : Nat) (wt : List BusMaster), spiListens s = true → aloft s = true → off % 4 = 0 →
    isNext s .hb .h wt = true → (hbCheck s off (4 * n) false .clean).1 = none →
    ∃ t, exec (.hRead off ⟨n, .clean, wt⟩) s = .next t ∧ t.io.resp.find 6 =
        some (.words ((List.range n).map fun i => leNat (Mem.readBytes s.mem.bankH 0 (off + 4 * i) 4))) ∧
      regsSame s t (wt.map fun x => Reg.bankConflict 2 (busCode x)) ∧
      t = { s with regs := t.regs, accum := t.accum, io := t.io,
                   cpu := { s.cpu with lastBankGrant := t.cpu.lastBankGrant } }) ∧
  (∀ (s : State) (off : Nat) (w : Word) (ecc : BankEcc) (wt : List BusMaster), spiListens s = true → aloft s = true →
    off % 4 = 0 → isNext s .hb .h wt = true → reach s .spi 0 true = none → regionOk s .hb .h off 4 true = false →
    ∃ t, exec (.hWrite off ⟨[w], ecc, wt⟩) s = .next t ∧ t.host.lastErr = true ∧ t.mem = s.mem ∧
      get t Reg.hViol = min (2 ^ Reg.hViol.width - 1) (get s Reg.hViol + 1)) ∧
  (∀ s : State, dieRuns s = true →
    ∃ t, exec .spiStatus s = .next t ∧ t.host.lastErr = false ∧
      (∃ v, t.io.resp.find 6 = some (.data v) ∧ bitAt v 0 = aloft s ∧ bitAt v 2 = s.host.lastErr ∧
        bitAt v 3 = (s.boot.phase == .recovery)) ∧
      t = { s with host := t.host, io := t.io }) ∧
  (∀ (s : State) (op : Byte), exec (.spiUnknownOpcode op) s = .next s) ∧
  (∀ (s : State) (whole : Nat), spiListens s = true →
    ∃ t, exec (.spiAbort none whole) s = .next t ∧
      get t Reg.brSpiAborts = min (2 ^ Reg.brSpiAborts.width - 1) (get s Reg.brSpiAborts + 1) ∧
      regsSame s t [Reg.brSpiAborts]) ∧
  (∀ (s : State) (a whole : Nat) (l : List (Fld × Word)), spiListens s = true → a % 4 = 0 →
    (∀ e ∈ l, e.1 ∈ plainFields .spi ∧ accepts s .spi e.1.addr = true) →
    l.map (fun e => e.1.addr) = (List.range l.length).map (fun i => a + 4 * i) →
    ∃ t, exec (.spiAbort (some ⟨false, a, l.map fun e => e.2⟩) whole) s = .next t ∧
      (∀ e ∈ l.take whole, get t e.1 = bitsAt e.2.toNat e.1.lsb e.1.width) ∧
      get t Reg.brSpiAborts = min (2 ^ Reg.brSpiAborts.width - 1) (get s Reg.brSpiAborts + 1) ∧
      regsSame s t (Reg.brSpiAborts :: (l.take whole).map fun e => e.1)) ∧
  (∀ (s : State) (off whole : Nat) (ws : List Word), spiListens s = true → aloft s = true → off % 4 = 0 →
    isNext s .hb .h [] = true → reach s .spi 0 true = none → 0 < whole →
    (∀ i ∈ List.range ws.length, (hbCheck s (off + 4 * i) 4 true .clean).1 = none) →
    ∃ t, exec (.spiAbort (some ⟨true, off, ws⟩) whole) s = .next t ∧
      t.mem = { s.mem with bankH := Mem.writeBytes s.mem.bankH 0 off ((ws.take whole).flatMap fun w => leBytes 4 w.toNat) } ∧
      get t Reg.brSpiAborts = min (2 ^ Reg.brSpiAborts.width - 1) (get s Reg.brSpiAborts + 1) ∧
      regsSame s t [Reg.brSpiAborts])

/-- An accepted Sync steps global time whenever its offset exceeds 1 us, and slews it by at most 100 ppm below
(R35). -/
def Obligations.GlobalTimeStepsOrSlews : Prop :=
  (∀ (s : State) (gm : Nat) (offset rate : Int), aloft s = true →
    (extPortCfg s .gt && !extSlave s .gt) = false → 1000 < offset.natAbs →
    ∃ t, exec (.acceptSync .gt gm offset rate) s = .next t ∧
      ∀ n : Nat, gtAt t (s.time.now + n) = gtNow s + offset + n + n * rate / 1000000000) ∧
  (∀ (s : State) (gm : Nat) (offset rate : Int), aloft s = true →
    (extPortCfg s .gt && !extSlave s .gt) = false → offset.natAbs ≤ 1000 →
    ∃ t, exec (.acceptSync .gt gm offset rate) s = .next t ∧
      ∀ n : Nat, (gtAt t (s.time.now + n) - (gtNow s + n + n * rate / 1000000000)).natAbs * 10000 ≤ n)

/-- Pins without supply and in reset take the states of the table; FAULT_N follows its bit while forwarding (R416).
Where a clause rests on the model's own reading or choice: log entry 106. -/
def Obligations.PinsShowTheTable : Prop :=
  (∀ s : State, s.boot.phase = .off → pinOf s .can = .highZ ∧ pinOf s .lin = .recessive ∧ pinOf s .inputs = .input ∧
    (∀ i, pinOf s (.inh i) = .low) ∧ pinOf s .ethernet = .highZ ∧ pinOf s .peTx = .highZ ∧ pinOf s .peWakeN = .released ∧
    pinOf s .clkreqN = .released ∧ pinOf s .mspiIntN = .released ∧ pinOf s .ready = .low ∧ pinOf s .ppsOut = .low ∧
    pinOf s .faultN = .low ∧ pinOf s .mspiSdo = .highZ ∧ pinOf s .tdo = .highZ ∧ pinOf s .gpio = .highZ) ∧
  (∀ s : State, s.boot.phase = .inReset → pinOf s .can = .recessive ∧ pinOf s .lin = .recessive ∧
    pinOf s .inputs = .input ∧ (∀ i, pinOf s (.inh i) = .low) ∧ pinOf s .ethernet = .highZ ∧ pinOf s .peTx = .highZ ∧ pinOf s .peWakeN = .released ∧
    pinOf s .clkreqN = .released ∧ pinOf s .mspiIntN = .released ∧ pinOf s .ready = .low ∧ pinOf s .ppsOut = .low ∧
    pinOf s .faultN = .low ∧ pinOf s .mspiSdo = .highZ ∧ pinOf s .tdo = .highZ ∧ pinOf s .gpio = .highZ) ∧
  (∀ s : State, s.boot.phase = .aloft → flag s Reg.fcStatusFaultN = true → pinOf s .faultN = .low)
end

