-- ==== Sys2Proof/Laws/Kept.lean ====
section
/-!
SUPPORT. What each operation of the model may change, one lemma an operation: `kept M` is a state without the parts
that M lists, and an operation that changes listed parts only keeps it.
-/
namespace Sys2Proof.Machine

set_option linter.unusedSimpArgs false

/-- A part of the state, out of sight where it is listed. -/
def hide {α : Type} (M : List Part) (p : Part) (a : α) : Option α := if p ∈ M then none else some a

theorem hide_eq {α : Type} {M : List Part} {p : Part} {a b : α} (h : p ∈ M ∨ a = b) : hide M p a = hide M p b := by
  unfold hide
  split
  · rfl
  · rw [h.resolve_left ‹_›]

theorem hide_same {α : Type} {M : List Part} {p : Part} {a b : α} (h : hide M p a = hide M p b) : p ∈ M ∨ a = b := by
  unfold hide at h
  split at h
  · exact .inl ‹_›
  · exact .inr (Option.some.inj h)

/-- A state without the listed parts. -/
structure Rest where
  pending : List Instr
  registers : Option (SMap Nat)
  accum : Option (SMap Nat)
  time : Option TimeSt
  jobs : Option JobSt
  policy : Option (SMap (List Byte) × SMap Nat)
  epochs : Option EnvSt
  faults : Option FaultSt
  intc : Option IntSt
  host : Option HostSt
  cpu : Option CpuSt
  banks : Option MemSt
  flash : Option (Mem × Mem)
  cont : Option ContSt
  boot : Option BootSt
  img : Option ImgSt
  vault : Option VaultSt
  fuses : Option OtpSt
  anchors : Option (List (Nat × List Byte))
  sheet : Option SheetSt
  sheetLog : Option (SMap (List Byte))
  frames : Option NetSt
  tables : Option NetSt
  links : Option NetSt
  tm : Option TmSt
  edge : Option EdgeSt
  wake : Option WakeSt
  cnt : Option CntSt
  io : Option IoSt
  draws : Option Nat

/-- What is left of a state without the listed parts. -/
def kept (M : List Part) (s : State) : Rest :=
  { pending := s.pending
    registers := hide M .registers (s.regs)
    accum := hide M .accum (s.accum)
    time := hide M .time (s.time)
    jobs := hide M .jobs (s.jobs)
    policy := hide M .policy ((s.env.policy, s.env.cmt))
    epochs := hide M .epochs (epochsOf s.env)
    faults := hide M .faults (s.fault)
    intc := hide M .intc (s.intc)
    host := hide M .host (s.host)
    cpu := hide M .cpu (s.cpu)
    banks := hide M .banks (banksOf s.mem)
    flash := hide M .flash ((s.mem.flashA, s.mem.flashB))
    cont := hide M .cont (s.cont)
    boot := hide M .boot (s.boot)
    img := hide M .img (s.img)
    vault := hide M .vault (s.vault)
    fuses := hide M .fuses (fusesOf s.otp)
    anchors := hide M .anchors (s.otp.anchors)
    sheet := hide M .sheet (sheetOf s.sheet)
    sheetLog := hide M .sheetLog (s.sheet.entries)
    frames := hide M .frames (framesOf s.net)
    tables := hide M .tables (tablesOf s.net)
    links := hide M .links (linksOf s.net)
    tm := hide M .tm (s.tm)
    edge := hide M .edge (s.edge)
    wake := hide M .wake (s.wake)
    cnt := hide M .cnt (s.cnt)
    io := hide M .io (s.io)
    draws := hide M .draws (s.freeCtr) }

/-- A part is listed. -/
abbrev Has (M : List Part) (p : Part) : Prop := Fact (p ∈ M)

theorem listed {M : List Part} {p : Part} [h : Has M p] : p ∈ M := h.out

theorem kept_mk {M : List Part} (s : State) (regs : SMap Nat) (accum : SMap Nat) (time : TimeSt) (jobs : JobSt) (env : EnvSt) (fault : FaultSt) (intc : IntSt) (host : HostSt) (cpu : CpuSt) (mem : MemSt) (cont : ContSt) (boot : BootSt) (img : ImgSt) (vault : VaultSt) (otp : OtpSt) (sheet : SheetSt) (net : NetSt) (tm : TmSt) (edge : EdgeSt) (wake : WakeSt) (cnt : CntSt) (io : IoSt) (freeCtr : Nat)
    (hregisters : Part.registers ∈ M ∨ regs = s.regs)
    (haccum : Part.accum ∈ M ∨ accum = s.accum)
    (htime : Part.time ∈ M ∨ time = s.time)
    (hjobs : Part.jobs ∈ M ∨ jobs = s.jobs)
    (hpolicy : Part.policy ∈ M ∨ env.policy = s.env.policy ∧ env.cmt = s.env.cmt)
    (hepochs : Part.epochs ∈ M ∨ env.loaded = s.env.loaded ∧ env.items = s.env.items ∧ env.staged = s.env.staged ∧ env.latches = s.env.latches ∧ env.drainStart = s.env.drainStart ∧ env.commitOwner = s.env.commitOwner ∧ env.commitAt = s.env.commitAt ∧ env.waitStart = s.env.waitStart ∧ env.t0 = s.env.t0 ∧ env.prepFail = s.env.prepFail ∧ env.prepDone = s.env.prepDone ∧ env.entryDone = s.env.entryDone ∧ env.handover = s.env.handover ∧ env.sealed = s.env.sealed ∧ env.structural = s.env.structural ∧ env.touched = s.env.touched)
    (hfaults : Part.faults ∈ M ∨ fault = s.fault)
    (hintc : Part.intc ∈ M ∨ intc = s.intc)
    (hhost : Part.host ∈ M ∨ host = s.host)
    (hcpu : Part.cpu ∈ M ∨ cpu = s.cpu)
    (hbanks : Part.banks ∈ M ∨ mem.bankS = s.mem.bankS ∧ mem.bankG = s.mem.bankG ∧ mem.bankH = s.mem.bankH ∧ mem.bankT = s.mem.bankT)
    (hflash : Part.flash ∈ M ∨ mem.flashA = s.mem.flashA ∧ mem.flashB = s.mem.flashB)
    (hcont : Part.cont ∈ M ∨ cont = s.cont)
    (hboot : Part.boot ∈ M ∨ boot = s.boot)
    (himg : Part.img ∈ M ∨ img = s.img)
    (hvault : Part.vault ∈ M ∨ vault = s.vault)
    (hfuses : Part.fuses ∈ M ∨ otp.lc = s.otp.lc ∧ otp.vkProg = s.otp.vkProg ∧ otp.vkRevoked = s.otp.vkRevoked ∧ otp.rootCust = s.otp.rootCust)
    (hanchors : Part.anchors ∈ M ∨ otp.anchors = s.otp.anchors)
    (hsheet : Part.sheet ∈ M ∨ sheet.oldest = s.sheet.oldest ∧ sheet.next = s.sheet.next ∧ sheet.nextSeq = s.sheet.nextSeq ∧ sheet.headHash = s.sheet.headHash ∧ sheet.lost = s.sheet.lost ∧ sheet.reading = s.sheet.reading)
    (hsheetLog : Part.sheetLog ∈ M ∨ sheet.entries = s.sheet.entries)
    (hframes : Part.frames ∈ M ∨ net.packets = s.net.packets ∧ net.nextUid = s.net.nextUid ∧ net.queues = s.net.queues ∧ net.recirc = s.net.recirc ∧ net.macs = s.net.macs ∧ net.avg = s.net.avg ∧ net.sharedUsed = s.net.sharedUsed ∧ net.mgmtUsed = s.net.mgmtUsed ∧ net.guarUsed = s.net.guarUsed ∧ net.slotUsed = s.net.slotUsed ∧ net.lastServed = s.net.lastServed ∧ net.frameNo = s.net.frameNo ∧ net.formerSa = s.net.formerSa ∧ net.mib = s.net.mib ∧ net.leafTx = s.net.leafTx)
    (htables : Part.tables ∈ M ∨ net.learned = s.net.learned ∧ net.static = s.net.static ∧ net.convs = s.net.convs ∧ net.frags = s.net.frags ∧ net.convFlushing = s.net.convFlushing ∧ net.probing = s.net.probing ∧ net.selftestTempo = s.net.selftestTempo)
    (hlinks : Part.links ∈ M ∨ net.partnerSig = s.net.partnerSig ∧ net.trainedAs = s.net.trainedAs ∧ net.linkSince = s.net.linkSince ∧ net.verifySent = s.net.verifySent ∧ net.verifyAt = s.net.verifyAt)
    (htm : Part.tm ∈ M ∨ tm = s.tm)
    (hedge : Part.edge ∈ M ∨ edge = s.edge)
    (hwake : Part.wake ∈ M ∨ wake = s.wake)
    (hcnt : Part.cnt ∈ M ∨ cnt = s.cnt)
    (hio : Part.io ∈ M ∨ io = s.io)
    (hdraws : Part.draws ∈ M ∨ freeCtr = s.freeCtr)
    : kept M ⟨s.pending, regs, accum, time, jobs, env, fault, intc, host, cpu, mem, cont, boot, img, vault, otp, sheet, net, tm, edge, wake, cnt, io, freeCtr⟩ = kept M s := by
  unfold kept
  dsimp only
  rw [hide_eq hregisters, hide_eq haccum, hide_eq htime, hide_eq hjobs, hide_eq (b := (s.env.policy, s.env.cmt)) (hpolicy.imp id fun h => by simp only [h]), hide_eq (b := epochsOf s.env) (hepochs.imp id fun h => by simp only [epochsOf, h]), hide_eq hfaults, hide_eq hintc, hide_eq hhost, hide_eq hcpu, hide_eq (b := banksOf s.mem) (hbanks.imp id fun h => by simp only [banksOf, h]), hide_eq (b := (s.mem.flashA, s.mem.flashB)) (hflash.imp id fun h => by simp only [h]), hide_eq hcont, hide_eq hboot, hide_eq himg, hide_eq hvault, hide_eq (b := fusesOf s.otp) (hfuses.imp id fun h => by simp only [fusesOf, h]), hide_eq (b := s.otp.anchors) (hanchors.imp id fun h => by simp only [h]), hide_eq (b := sheetOf s.sheet) (hsheet.imp id fun h => by simp only [sheetOf, h]), hide_eq (b := s.sheet.entries) (hsheetLog.imp id fun h => by simp only [h]), hide_eq (b := framesOf s.net) (hframes.imp id fun h => by simp only [framesOf, h]), hide_eq (b := tablesOf s.net) (htables.imp id fun h => by simp only [tablesOf, h]), hide_eq (b := linksOf s.net) (hlinks.imp id fun h => by simp only [linksOf, h]), hide_eq htm, hide_eq hedge, hide_eq hwake, hide_eq hcnt, hide_eq hio, hide_eq hdraws]

theorem kept_ite {M : List Part} (c : Prop) [Decidable c] (a b : State) :
    kept M (if c then a else b) = if c then kept M a else kept M b := by
  split <;> rfl

theorem kept_foldl {M : List Part} {α : Type} (g : State → α → State) (l : List α) (s : State)
    (h : ∀ st x, kept M (g st x) = kept M st) : kept M (l.foldl g s) = kept M s := by
  induction l generalizing s with
  | nil => rfl
  | cons a l ih => rw [List.foldl_cons, ih, h]

theorem kept_forIdx {M : List Part} (n : Nat) (g : Nat → State → State) (s : State)
    (h : ∀ i st, kept M (g i st) = kept M st) : kept M (forIdx n g s) = kept M s := kept_foldl _ _ _ fun st i => h i st

theorem kept_put {M : List Part} [Has M .registers] (s : State) (f : Fld) (v : Nat) : kept M (put s f v) = kept M s
    := by
  unfold put
  simp only [kept_mk, true_or, or_true, and_self, listed]

theorem kept_putFlag {M : List Part} [Has M .registers] (s : State) (f : Fld) (b : Bool) : kept M (putFlag s f b) =
    kept M s := by
  unfold putFlag
  simp only [kept_put]

theorem kept_bumpBy {M : List Part} [Has M .registers] [Has M .accum] (s : State) (f : Fld) (n : Nat) : kept M
    (bumpBy s f n) = kept M s := by
  unfold bumpBy
  simp only [kept_mk, true_or, or_true, and_self, listed, kept_put]

theorem kept_bump {M : List Part} [Has M .registers] [Has M .accum] (s : State) (f : Fld) : kept M (bump s f) = kept
    M s := by
  unfold bump
  simp only [kept_bumpBy]

theorem kept_raiseTo {M : List Part} [Has M .registers] (s : State) (f : Fld) (v : Nat) : kept M (raiseTo s f v) =
    kept M s := by
  unfold raiseTo
  simp only [kept_ite, ite_self, kept_put]

theorem kept_draw {M : List Part} [Has M .draws] (s : State) (bound : Nat) : kept M (draw s bound).2 = kept M s :=
    by
  unfold draw
  simp only [kept_mk, true_or, or_true, and_self, listed]

theorem kept_setSlotState {M : List Part} [Has M .registers] (s : State) (i v : Nat) : kept M (setSlotState s i v) =
    kept M s := by
  unfold setSlotState
  simp only [kept_put]

theorem kept_putCmt {M : List Part} [Has M .policy] (s : State) (slot : Nat) (f : Fld) (v : Nat) : kept M (putCmt s
    slot f v) = kept M s := by
  unfold putCmt
  simp only [kept_mk, true_or, or_true, and_self, listed]

theorem kept_setDom {M : List Part} [Has M .time] (s : State) (d : Domain) (x : DomSt) : kept M (setDom s d x) =
    kept M s := by
  unfold setDom
  (repeat' split) <;> simp only [kept_mk, true_or, or_true, and_self, listed]

theorem kept_emit {M : List Part} [Has M .io] (s : State) (o : Out) : kept M (emit s o) = kept M s := by
  unfold emit
  simp only [kept_mk, true_or, or_true, and_self, listed]

theorem kept_pulse {M : List Part} [Has M .io] (s : State) (n k : Nat) : kept M (pulse s n k) = kept M s := by
  unfold pulse
  simp only [kept_mk, true_or, or_true, and_self, listed, kept_ite, ite_self]

theorem kept_noteBusError {M : List Part} [Has M .io] (s : State) (code : Nat) (r : Resp) : kept M (noteBusError s
    code r) = kept M s := by
  unfold noteBusError
  simp only [kept_ite, ite_self, kept_pulse]

theorem kept_answer {M : List Part} [Has M .cpu] [Has M .io] (s : State) (m : Master) (r : Resp) : kept M (answer s
    m r) = kept M s := by
  unfold answer
  (repeat' split) <;> simp only [kept_mk, true_or, or_true, and_self, listed, kept_noteBusError]

theorem kept_enqueueOn {M : List Part} [Has M .jobs] (s : State) (core : Nat) (kind : JobKind) (cost : Nat) : kept M
    (enqueueOn s core kind cost) = kept M s := by
  unfold enqueueOn
  simp only [kept_mk, true_or, or_true, and_self, listed]

theorem kept_enqueueJob {M : List Part} [Has M .jobs] (s : State) (core : Nat) (kind : JobKind) (cost : Nat) : kept
    M (enqueueJob s core kind cost) = kept M s := by
  unfold enqueueJob
  simp only [kept_enqueueOn]

theorem kept_sheetLose {M : List Part} [Has M .registers] [Has M .accum] [Has M .sheet] (s : State) : kept M
    (sheetLose s) = kept M s := by
  unfold sheetLose
  simp only [kept_mk, true_or, or_true, and_self, listed, kept_bump]

theorem kept_jobRejected {M : List Part} [Has M .registers] [Has M .accum] [Has M .sheet] (s : State) (kind :
    JobKind) : kept M (jobRejected s kind) = kept M s := by
  unfold jobRejected
  (repeat' split) <;> first | with_reducible rfl | (simp only [kept_ite, ite_self, kept_sheetLose]; done) | ((try dsimp only); (repeat' split) <;> first | with_reducible rfl | (simp only [kept_ite, ite_self, kept_sheetLose]; done))

theorem kept_requestOn {M : List Part} [Has M .registers] [Has M .accum] [Has M .jobs] [Has M .sheet] (s : State)
    (core : Nat) (kind : JobKind) : kept M (requestOn s core kind) = kept M s := by
  unfold requestOn
  simp only [kept_ite, ite_self, kept_enqueueJob, kept_jobRejected]

theorem kept_requestGc {M : List Part} [Has M .registers] [Has M .accum] [Has M .jobs] [Has M .sheet] (s : State)
    (kind : JobKind) : kept M (requestGc s kind) = kept M s := by
  unfold requestGc
  simp only [kept_requestOn]

theorem kept_requestSp {M : List Part} [Has M .registers] [Has M .accum] [Has M .jobs] [Has M .sheet] (s : State)
    (kind : JobKind) : kept M (requestSp s kind) = kept M s := by
  unfold requestSp
  simp only [kept_requestOn]

theorem kept_journal {M : List Part} [Has M .registers] [Has M .accum] [Has M .jobs] [Has M .sheet] (s : State)
    (type : Nat) (body : List Byte) : kept M (journal s type body) = kept M s := by
  unfold journal
  simp only [kept_requestGc]

theorem kept_leaveL1 {M : List Part} [Has M .registers] (s : State) : kept M (leaveL1 s) = kept M s := by
  unfold leaveL1
  simp only [kept_ite, ite_self, kept_put]

theorem kept_exitL1 {M : List Part} [Has M .registers] [Has M .accum] (s : State) : kept M (exitL1 s) = kept M s :=
    by
  unfold exitL1
  simp only [kept_ite, ite_self, kept_bump, kept_leaveL1]

theorem kept_assertPeWake {M : List Part} [Has M .registers] [Has M .host] (s : State) : kept M (assertPeWake s) =
    kept M s := by
  unfold assertPeWake
  simp only [kept_mk, true_or, or_true, and_self, listed, kept_put]

theorem kept_vectorDue {M : List Part} [Has M .registers] [Has M .accum] [Has M .host] [Has M .io] (s : State) (v :
    Nat) : kept M (vectorDue s v) = kept M s := by
  unfold vectorDue
  simp only [kept_mk, true_or, or_true, and_self, listed, kept_ite, ite_self, kept_emit, kept_exitL1,
    kept_assertPeWake]

theorem kept_interruptCore {M : List Part} [Has M .io] (s : State) (core cls : Nat) : kept M (interruptCore s core
    cls) = kept M s := by
  unfold interruptCore
  simp only [kept_ite, ite_self, kept_emit]

theorem kept_deliver {M : List Part} [Has M .registers] [Has M .accum] [Has M .host] [Has M .io] (s : State) (n :
    Nat) : kept M (deliver s n) = kept M s := by
  unfold deliver
  simp only [kept_ite, ite_self, kept_vectorDue, kept_interruptCore]

theorem kept_becomePending {M : List Part} [Has M .registers] [Has M .intc] (s : State) (n st : Nat) : kept M
    (becomePending s n st) = kept M s := by
  unfold becomePending
  simp only [kept_mk, true_or, or_true, and_self, listed, kept_ite, ite_self, kept_put]

theorem kept_raiseSource {M : List Part} [Has M .registers] [Has M .accum] [Has M .intc] [Has M .host] [Has M .io]
    (s : State) (n : Nat) : kept M (raiseSource s n) = kept M s := by
  unfold raiseSource
  (repeat' split) <;> simp only [kept_put, kept_deliver, kept_becomePending]

theorem kept_setLevel {M : List Part} [Has M .registers] [Has M .accum] [Has M .intc] [Has M .host] [Has M .io] (s :
    State) (n : Nat) (high : Bool) : kept M (setLevel s n high) = kept M s := by
  unfold setLevel
  simp only [kept_mk, true_or, or_true, and_self, listed, kept_ite, ite_self, kept_putFlag, kept_raiseSource]

theorem kept_noteTb {M : List Part} [Has M .registers] [Has M .accum] [Has M .intc] [Has M .host] [Has M .io]
    (before after : State) : kept M (noteTb before after) = kept M after := by
  unfold noteTb
  split <;> simp only [kept_mk, true_or, or_true, and_self, listed, kept_ite, ite_self, kept_raiseSource]

theorem kept_ledgerAdd {M : List Part} [Has M .registers] [Has M .accum] [Has M .intc] [Has M .host] [Has M .io] (s
    : State) (org addr code space : Nat) : kept M (ledgerAdd s org addr code space) = kept M s := by
  unfold ledgerAdd
  simp only [kept_mk, true_or, or_true, and_self, listed, kept_ite, ite_self, kept_bump, kept_raiseSource]

theorem kept_contActivate {M : List Part} [Has M .registers] [Has M .accum] [Has M .jobs] [Has M .cont] [Has M
    .sheet] (s : State) (p cause master : Nat) : kept M (contActivate s p cause master) = kept M s := by
  unfold contActivate
  simp only [kept_mk, true_or, or_true, and_self, listed, kept_ite, ite_self, kept_put, kept_bump, kept_journal]

theorem kept_requestAbort {M : List Part} [Has M .wake] (s : State) (cause source : Nat) : kept M (requestAbort s
    cause source) = kept M s := by
  unfold requestAbort
  simp only [kept_mk, true_or, or_true, and_self, listed, kept_ite, ite_self]

theorem kept_refreshFaultN {M : List Part} [Has M .registers] (s : State) : kept M (refreshFaultN s) = kept M s :=
    by
  unfold refreshFaultN
  simp only [kept_ite, ite_self, kept_putFlag]

theorem kept_holdFault {M : List Part} [Has M .cont] (s : State) (p code unit : Nat) : kept M (holdFault s p code
    unit) = kept M s := by
  unfold holdFault
  simp only [kept_mk, true_or, or_true, and_self, listed]

theorem kept_enterSafe {M : List Part} [Has M .registers] [Has M .accum] [Has M .jobs] [Has M .faults] [Has M .intc]
    [Has M .host] [Has M .cont] [Has M .sheet] [Has M .io] (s : State) (code : Nat) (byEsc : Bool) (fromSev
    firstTempo : Nat) : kept M (enterSafe s code byEsc fromSev firstTempo) = kept M s := by
  unfold enterSafe
  simp only [kept_mk, true_or, or_true, and_self, listed, kept_ite, ite_self, kept_put, kept_putFlag,
    kept_requestSp, kept_raiseSource, kept_contActivate, kept_holdFault]

theorem kept_faultReact {M : List Part} [Has M .registers] [Has M .accum] [Has M .jobs] [Has M .faults] [Has M
    .intc] [Has M .host] [Has M .cont] [Has M .sheet] [Has M .wake] [Has M .io] (s : State) (code unit sev profile :
    Nat) : kept M (faultReact s code unit sev profile) = kept M s := by
  unfold faultReact
  (repeat' split) <;> simp only [kept_contActivate, kept_requestAbort, kept_holdFault, kept_enterSafe]

theorem kept_recordFault {M : List Part} [Has M .registers] [Has M .accum] [Has M .jobs] [Has M .faults] [Has M
    .intc] [Has M .host] [Has M .cont] [Has M .sheet] [Has M .wake] [Has M .io] (s : State) (code unit detail : Nat)
    : kept M (recordFault s code unit detail) = kept M s := by
  unfold recordFault
  (repeat' split) <;> simp only [kept_mk, true_or, or_true, and_self, listed, kept_ite, ite_self, kept_put,
    kept_bump, kept_raiseSource, kept_refreshFaultN, kept_faultReact]

theorem kept_reportWrite {M : List Part} [Has M .registers] [Has M .accum] [Has M .intc] [Has M .host] [Has M .cpu]
    [Has M .io] (s : State) (m : Master) (a code : Nat) : kept M (reportWrite s m a code) = kept M s := by
  unfold reportWrite
  (repeat' split) <;> simp only [kept_mk, true_or, or_true, and_self, listed, kept_answer, kept_ledgerAdd]

theorem kept_reportRead {M : List Part} [Has M .registers] [Has M .accum] [Has M .cpu] [Has M .io] (s : State) (m :
    Master) (code : Nat) : kept M (reportRead s m code) = kept M s := by
  unfold reportRead
  (repeat' split) <;> simp only [kept_bump, kept_answer]

theorem kept_guardViolation {M : List Part} [Has M .registers] [Has M .accum] [Has M .jobs] [Has M .faults] [Has M
    .intc] [Has M .host] [Has M .cont] [Has M .sheet] [Has M .wake] [Has M .io] (s : State) (m : Master) (a : Nat) :
    kept M (guardViolation s m a) = kept M s := by
  unfold guardViolation
  simp only [kept_put, kept_bump, kept_recordFault]

theorem kept_refuseWrite {M : List Part} [Has M .registers] [Has M .accum] [Has M .jobs] [Has M .faults] [Has M
    .intc] [Has M .host] [Has M .cpu] [Has M .cont] [Has M .sheet] [Has M .wake] [Has M .io] (s : State) (m :
    Master) (a code : Nat) : kept M (refuseWrite s m a code) = kept M s := by
  unfold refuseWrite
  simp only [kept_ite, ite_self, kept_reportWrite, kept_guardViolation]

theorem kept_dbgUnanswered {M : List Part} [Has M .cpu] [Has M .io] (s : State) (a : Nat) (write : Bool) : kept M
    (dbgUnanswered s a write) = kept M s := by
  unfold dbgUnanswered
  simp only [kept_ite, ite_self, kept_answer]

theorem kept_writeUnanswered {M : List Part} [Has M .host] [Has M .cpu] [Has M .io] (s : State) (m : Master) (a :
    Nat) : kept M (writeUnanswered s m a) = kept M s := by
  unfold writeUnanswered
  (repeat' split) <;> simp only [kept_mk, true_or, or_true, and_self, listed, kept_answer, kept_dbgUnanswered]

theorem kept_noteGrant {M : List Part} [Has M .io] (s : State) (a : Nat) (m : Master) : kept M (noteGrant s a m) =
    kept M s := by
  unfold noteGrant
  simp only [kept_mk, true_or, or_true, and_self, listed, kept_ite, ite_self]

theorem kept_performWrite {M : List Part} [Has M .registers] [Has M .accum] [Has M .jobs] [Has M .faults] [Has M
    .intc] [Has M .host] [Has M .cpu] [Has M .cont] [Has M .sheet] [Has M .wake] [Has M .io] (s : State) (m :
    Master) (a : Nat) (effect : State → State) (h : ∀ t, kept M (effect t) = kept M t) : kept M (performWrite s m a
    effect) = kept M s := by
  unfold performWrite
  (repeat' split) <;> simp only [kept_mk, true_or, or_true, and_self, listed, kept_ite, ite_self, kept_answer,
    kept_refuseWrite, kept_writeUnanswered, h]

theorem kept_accessWrite {M : List Part} [Has M .registers] [Has M .accum] [Has M .jobs] [Has M .faults] [Has M
    .intc] [Has M .host] [Has M .cpu] [Has M .cont] [Has M .sheet] [Has M .wake] [Has M .io] (s : State) (m :
    Master) (a : Nat) (effect : State → State) (h : ∀ t, kept M (effect t) = kept M t) : kept M (accessWrite s m a
    effect) = kept M s := by
  unfold accessWrite
  split
  · rw [kept_noteGrant, kept_performWrite _ _ _ _ h]
  · rfl

theorem kept_unanswered {M : List Part} [Has M .registers] [Has M .accum] [Has M .cpu] [Has M .io] (s : State) (m :
    Master) (a : Nat) : kept M (unanswered s m a) = kept M s := by
  unfold unanswered
  (repeat' split) <;> simp only [kept_bump, kept_answer, kept_dbgUnanswered]

theorem kept_performRead {M : List Part} [Has M .registers] [Has M .accum] [Has M .cpu] [Has M .io] (s : State) (m :
    Master) (a : Nat) (effect : State → Nat × State) (h : ∀ t, kept M (effect t).2 = kept M t) : kept M (performRead
    s m a effect) = kept M s := by
  unfold performRead
  dsimp only
  (repeat' split) <;> simp only [kept_mk, true_or, or_true, and_self, listed, kept_ite, ite_self, kept_answer,
    kept_reportRead, kept_unanswered, h]

theorem kept_accessRead {M : List Part} [Has M .registers] [Has M .accum] [Has M .cpu] [Has M .io] (s : State) (m :
    Master) (a : Nat) (effect : State → Nat × State) (h : ∀ t, kept M (effect t).2 = kept M t) : kept M (accessRead
    s m a effect) = kept M s := by
  unfold accessRead
  split
  · rw [kept_noteGrant, kept_performRead _ _ _ _ h]
  · rfl

theorem kept_showPools {M : List Part} [Has M .registers] (s : State) : kept M (showPools s) = kept M s := by
  unfold showPools
  simp only [kept_ite, ite_self, kept_put]

theorem kept_placeOnWheel {M : List Part} [Has M .registers] (s : State) (rate : Nat) (t : Int) : kept M
    (placeOnWheel s rate t).2 = kept M s := by
  unfold placeOnWheel
  dsimp only
  (repeat' split) <;> simp only [kept_raiseTo]

theorem kept_chargeLeaf {M : List Part} [Has M .registers] [Has M .tm] (s : State) (p q : Nat) (bytes : Int) : kept
    M (chargeLeaf s p q bytes) = kept M s := by
  unfold chargeLeaf
  (repeat' split) <;> simp only [kept_mk, true_or, or_true, and_self, listed, kept_ite, ite_self, kept_placeOnWheel]

theorem kept_chargePort {M : List Part} [Has M .registers] [Has M .tm] (s : State) (p : Nat) (bytes : Int) : kept M
    (chargePort s p bytes) = kept M s := by
  unfold chargePort
  (repeat' split) <;> first | with_reducible rfl | (simp only [kept_mk, true_or, or_true, and_self, listed, kept_ite, ite_self, kept_placeOnWheel]; done) | ((try dsimp only); (repeat' split) <;> first | with_reducible rfl | (simp only [kept_mk, true_or, or_true, and_self, listed, kept_ite, ite_self, kept_placeOnWheel]; done))

theorem kept_wheelIfNegative {M : List Part} [Has M .registers] [Has M .tm] (s : State) (p q : Nat) : kept M
    (wheelIfNegative s p q) = kept M s := by
  unfold wheelIfNegative
  (repeat' split) <;> simp only [kept_mk, true_or, or_true, and_self, listed, kept_ite, ite_self, kept_placeOnWheel]

theorem kept_portIfNegative {M : List Part} [Has M .registers] [Has M .tm] (s : State) (p : Nat) : kept M
    (portIfNegative s p) = kept M s := by
  unfold portIfNegative
  (repeat' split) <;> first | with_reducible rfl | (simp only [kept_mk, true_or, or_true, and_self, listed, kept_ite, ite_self, kept_placeOnWheel]; done) | ((try dsimp only); (repeat' split) <;> first | with_reducible rfl | (simp only [kept_mk, true_or, or_true, and_self, listed, kept_ite, ite_self, kept_placeOnWheel]; done))

theorem kept_wheelFire {M : List Part} [Has M .tm] (s : State) (t : WheelTarget) : kept M (wheelFire s t) = kept M s
    := by
  unfold wheelFire
  (repeat' split) <;> simp only [kept_mk, true_or, or_true, and_self, listed]

theorem kept_reshapePort {M : List Part} [Has M .tm] (old : Nat) (p : Nat) (s : State) : kept M (reshapePort old p
    s) = kept M s := by
  unfold reshapePort
  simp only [kept_mk, true_or, or_true, and_self, listed, kept_ite, ite_self, kept_forIdx, implies_true]

theorem kept_remeter {M : List Part} [Has M .tm] (old : Nat) (s : State) : kept M (remeter old s) = kept M s := by
  unfold remeter
  simp only [kept_mk, true_or, or_true, and_self, listed, kept_ite, ite_self, kept_foldl, implies_true]

theorem kept_flowSync {M : List Part} [Has M .registers] [Has M .tm] (s : State) (g : Nat) : kept M (flowSync s g) =
    kept M s := by
  unfold flowSync
  simp only [kept_mk, true_or, or_true, and_self, listed, kept_ite, ite_self, kept_put, kept_putFlag]

theorem kept_flowReopen {M : List Part} [Has M .registers] [Has M .tm] (s : State) (g : Nat) : kept M (flowReopen s
    g) = kept M s := by
  unfold flowReopen
  simp only [kept_put, kept_flowSync]

theorem kept_gateClosesOn {M : List Part} [Has M .registers] [Has M .accum] [Has M .frames] (s : State) (p closed :
    Nat) : kept M (gateClosesOn s p closed) = kept M s := by
  unfold gateClosesOn
  simp only [kept_mk, true_or, or_true, and_self, listed, kept_ite, ite_self, kept_foldl, implies_true, kept_bump]

theorem kept_endFragment {M : List Part} [Has M .frames] [Has M .io] (s : State) (p : Nat) (t : Tx) (c : Nat) : kept
    M (endFragment s p t c) = kept M s := by
  unfold endFragment
  simp only [kept_mk, true_or, or_true, and_self, listed, kept_ite, ite_self, kept_emit]

theorem kept_reachCut {M : List Part} [Has M .frames] [Has M .io] (s : State) (p : Nat) : kept M (reachCut s p) =
    kept M s := by
  unfold reachCut
  (repeat' split) <;> first | with_reducible rfl | (simp only [kept_ite, ite_self, kept_endFragment]; done) | ((try dsimp only); (repeat' split) <;> first | with_reducible rfl | (simp only [kept_ite, ite_self, kept_endFragment]; done))

theorem kept_runPreemptable {M : List Part} [Has M .frames] (s : State) (p : Nat) (t : Tx) : kept M (runPreemptable
    s p t) = kept M s := by
  unfold runPreemptable
  simp only [kept_mk, true_or, or_true, and_self, listed, kept_ite, ite_self]

theorem kept_stopPreemptable {M : List Part} [Has M .frames] [Has M .io] (s : State) (p : Nat) (t : Tx) : kept M
    (stopPreemptable s p t) = kept M s := by
  unfold stopPreemptable
  (repeat' split) <;> first | with_reducible rfl | (simp only [kept_mk, true_or, or_true, and_self, listed, kept_ite, ite_self, kept_endFragment]; done) | ((try dsimp only); (repeat' split) <;> first | with_reducible rfl | (simp only [kept_mk, true_or, or_true, and_self, listed, kept_ite, ite_self, kept_endFragment]; done))

theorem kept_settlePreempt {M : List Part} [Has M .frames] [Has M .io] (s : State) (p : Nat) : kept M (settlePreempt
    s p) = kept M s := by
  unfold settlePreempt
  (repeat' split) <;> first | with_reducible rfl | (simp only [kept_ite, ite_self, kept_reachCut, kept_runPreemptable, kept_stopPreemptable]; done) | ((try dsimp only); (repeat' split) <;> first | with_reducible rfl | (simp only [kept_ite, ite_self, kept_reachCut, kept_runPreemptable, kept_stopPreemptable]; done))

theorem kept_showGates {M : List Part} [Has M .registers] (s : State) (p : Nat) : kept M (showGates s p) = kept M s
    := by
  unfold showGates
  simp only [kept_put, kept_putFlag]

theorem kept_gateOp {M : List Part} [Has M .tm] (s : State) (p : Nat) : kept M (gateOp s p) = kept M s := by
  unfold gateOp
  dsimp only
  (repeat' split) <;> simp only [kept_mk, true_or, or_true, and_self, listed]

theorem kept_gateSync {M : List Part} [Has M .registers] [Has M .accum] [Has M .frames] [Has M .tm] [Has M .io] (s :
    State) (p : Nat) : kept M (gateSync s p) = kept M s := by
  unfold gateSync
  simp only [kept_mk, true_or, or_true, and_self, listed, kept_ite, ite_self, kept_bump, kept_gateClosesOn,
    kept_settlePreempt, kept_showGates, kept_gateOp]

theorem kept_macHoldIssue {M : List Part} [Has M .registers] [Has M .accum] [Has M .frames] [Has M .tm] [Has M .io]
    (s : State) (p : Nat) : kept M (macHoldIssue s p) = kept M s := by
  unfold macHoldIssue
  dsimp only
  (repeat' split) <;> simp only [kept_mk, true_or, or_true, and_self, listed, kept_settlePreempt, kept_showGates,
    kept_gateSync]

theorem kept_installGates {M : List Part} [Has M .registers] [Has M .accum] [Has M .frames] [Has M .tm] [Has M .io]
    (s : State) (p : Nat) (b : Option (List Byte)) (t0 : Int) : kept M (installGates s p b t0) = kept M s := by
  unfold installGates
  (repeat' split) <;> simp only [kept_mk, true_or, or_true, and_self, listed, kept_ite, ite_self, kept_bump,
    kept_settlePreempt, kept_showGates, kept_gateSync]

theorem kept_installChanged {M : List Part} [Has M .registers] [Has M .accum] [Has M .frames] [Has M .tm] [Has M
    .io] (s : State) (old : Nat) (t0 : Int) : kept M (installChanged s old t0) = kept M s := by
  unfold installChanged
  simp only [kept_ite, ite_self, kept_forIdx, implies_true, kept_installGates]

theorem kept_logStep {M : List Part} [Has M .registers] [Has M .accum] [Has M .jobs] [Has M .sheet] (s : State) (d :
    Domain) (cause : Nat) (step : Int) : kept M (logStep s d cause step) = kept M s := by
  unfold logStep
  simp only [kept_ite, ite_self, kept_journal]

theorem kept_syncLists {M : List Part} [Has M .registers] [Has M .accum] [Has M .frames] [Has M .tm] [Has M .io] (s
    : State) : kept M (syncLists s) = kept M s := by
  unfold syncLists
  simp only [kept_foldl, kept_forIdx, implies_true, kept_flowSync, kept_gateSync]

theorem kept_stepDom {M : List Part} [Has M .registers] [Has M .accum] [Has M .time] [Has M .jobs] [Has M .sheet]
    [Has M .frames] [Has M .tm] [Has M .io] (s : State) (d : Domain) (step rate : Int) (cause : Nat) : kept M
    (stepDom s d step rate cause) = kept M s := by
  unfold stepDom
  (repeat' split) <;> simp only [kept_mk, true_or, or_true, and_self, listed, kept_setDom, kept_logStep,
    kept_syncLists]

theorem kept_slewDom {M : List Part} [Has M .time] (s : State) (d : Domain) (offset rate : Int) : kept M (slewDom s
    d offset rate) = kept M s := by
  unfold slewDom
  simp only [kept_setDom]

theorem kept_acceptSync {M : List Part} [Has M .registers] [Has M .accum] [Has M .time] [Has M .jobs] [Has M .intc]
    [Has M .host] [Has M .sheet] [Has M .frames] [Has M .tm] [Has M .io] (s : State) (d : Domain) (gm : Nat) (offset
    rate : Int) : kept M (acceptSync s d gm offset rate) = kept M s := by
  unfold acceptSync
  (repeat' split) <;> simp only [kept_ite, ite_self, kept_put, kept_putFlag, kept_setDom, kept_noteTb, kept_stepDom,
    kept_slewDom]

theorem kept_grandmasterLoss {M : List Part} [Has M .registers] [Has M .accum] [Has M .intc] [Has M .host] [Has M
    .io] (s : State) (d : Domain) : kept M (grandmasterLoss s d) = kept M s := by
  unfold grandmasterLoss
  simp only [kept_ite, ite_self, kept_putFlag, kept_noteTb]

theorem kept_becomeGm {M : List Part} [Has M .registers] [Has M .accum] [Has M .time] [Has M .intc] [Has M .host]
    [Has M .io] (s : State) (d : Domain) : kept M (becomeGm s d) = kept M s := by
  unfold becomeGm
  (repeat' split) <;> simp only [kept_put, kept_putFlag, kept_setDom, kept_noteTb]

theorem kept_disciplineGt {M : List Part} [Has M .registers] [Has M .accum] [Has M .time] [Has M .jobs] [Has M
    .sheet] [Has M .frames] [Has M .tm] [Has M .io] (s : State) : kept M (disciplineGt s) = kept M s := by
  unfold disciplineGt
  simp only [kept_ite, ite_self, kept_stepDom, kept_slewDom]

theorem kept_ppsValidEdge {M : List Part} [Has M .registers] [Has M .accum] [Has M .time] [Has M .jobs] [Has M
    .sheet] [Has M .frames] [Has M .tm] [Has M .io] (s : State) : kept M (ppsValidEdge s) = kept M s := by
  unfold ppsValidEdge
  simp only [kept_mk, true_or, or_true, and_self, listed, kept_put, kept_disciplineGt]

theorem kept_ppsSearch {M : List Part} [Has M .registers] [Has M .accum] [Has M .time] [Has M .intc] [Has M .host]
    [Has M .io] (s : State) : kept M (ppsSearch s) = kept M s := by
  unfold ppsSearch
  simp only [kept_mk, true_or, or_true, and_self, listed, kept_ite, ite_self, kept_putFlag, kept_noteTb]

theorem kept_ppsInEdge {M : List Part} [Has M .registers] [Has M .accum] [Has M .time] [Has M .jobs] [Has M .intc]
    [Has M .host] [Has M .sheet] [Has M .frames] [Has M .tm] [Has M .io] (s : State) (rising : Bool) : kept M
    (ppsInEdge s rising) = kept M s := by
  unfold ppsInEdge
  (repeat' split) <;> simp only [kept_mk, true_or, or_true, and_self, listed, kept_ite, ite_self, kept_putFlag,
    kept_noteTb, kept_ppsValidEdge]

theorem kept_ppsInMissing {M : List Part} [Has M .registers] [Has M .accum] [Has M .time] [Has M .intc] [Has M
    .host] [Has M .io] (s : State) : kept M (ppsInMissing s) = kept M s := by
  unfold ppsInMissing
  (repeat' split) <;> simp only [kept_mk, true_or, or_true, and_self, listed, kept_putFlag, kept_noteTb]

theorem kept_ppsOutRise {M : List Part} [Has M .time] (s : State) : kept M (ppsOutRise s) = kept M s := by
  unfold ppsOutRise
  simp only [kept_mk, true_or, or_true, and_self, listed, kept_ite, ite_self]

theorem kept_ppsOutFall {M : List Part} [Has M .time] (s : State) : kept M (ppsOutFall s) = kept M s := by
  unfold ppsOutFall
  simp only [kept_mk, true_or, or_true, and_self, listed, kept_ite, ite_self]

theorem kept_snapDom {M : List Part} [Has M .registers] (s : State) (ns lo hi lk : Fld) (t : Int) (locked : Bool) :
    kept M (snapDom s ns lo hi lk t locked) = kept M s := by
  unfold snapDom
  simp only [kept_put, kept_putFlag]

theorem kept_timeSnapshot {M : List Part} [Has M .registers] (s : State) : kept M (timeSnapshot s) = kept M s := by
  unfold timeSnapshot
  simp only [kept_put, kept_snapDom]

theorem kept_gtSetArm {M : List Part} [Has M .registers] [Has M .accum] [Has M .time] [Has M .intc] [Has M .host]
    [Has M .io] (s : State) : kept M (gtSetArm s) = kept M s := by
  unfold gtSetArm
  simp only [kept_mk, true_or, or_true, and_self, listed, kept_ite, ite_self, kept_putFlag, kept_noteTb]

theorem kept_gtSetLoad {M : List Part} [Has M .registers] [Has M .accum] [Has M .time] [Has M .jobs] [Has M .intc]
    [Has M .host] [Has M .sheet] [Has M .frames] [Has M .tm] [Has M .io] (s : State) : kept M (gtSetLoad s) = kept M
    s := by
  unfold gtSetLoad
  simp only [kept_ite, ite_self, kept_putFlag, kept_noteTb, kept_stepDom]

theorem kept_doorbellWrite {M : List Part} [Has M .registers] [Has M .accum] [Has M .intc] [Has M .host] [Has M .io]
    (s : State) (m : Master) (w : Nat) : kept M (doorbellWrite s m w) = kept M s := by
  unfold doorbellWrite
  simp only [kept_ite, ite_self, kept_bump, kept_raiseSource]

theorem kept_claim {M : List Part} [Has M .registers] [Has M .intc] (s : State) (t cls : Nat) : kept M (claim s t
    cls).2 = kept M s := by
  unfold claim
  (repeat' split) <;> simp only [kept_mk, true_or, or_true, and_self, listed, kept_put]

theorem kept_takeWaiting {M : List Part} [Has M .io] (s : State) (t : Nat) (done : Option Nat) : kept M (takeWaiting
    s t done) = kept M s := by
  unfold takeWaiting
  simp only [kept_ite, ite_self, kept_interruptCore]

theorem kept_complete {M : List Part} [Has M .registers] [Has M .accum] [Has M .intc] [Has M .host] [Has M .io] (s :
    State) (t cls n : Nat) : kept M (complete s t cls n) = kept M s := by
  unfold complete
  simp only [kept_mk, true_or, or_true, and_self, listed, kept_ite, ite_self, kept_put, kept_bump, kept_deliver,
    kept_becomePending, kept_raiseSource, kept_takeWaiting]

theorem kept_srcCfgEn {M : List Part} [Has M .registers] [Has M .accum] [Has M .host] [Has M .io] (s : State) (m :
    Master) (n : Nat) (en : Bool) : kept M (srcCfgEn s m n en) = kept M s := by
  unfold srcCfgEn
  simp only [kept_ite, ite_self, kept_putFlag, kept_bump, kept_deliver]

theorem kept_noteClear {M : List Part} [Has M .intc] (s : State) (m : Master) (n : Nat) : kept M (noteClear s m n) =
    kept M s := by
  unfold noteClear
  (repeat' split) <;> simp only [kept_mk, true_or, or_true, and_self, listed]

theorem kept_w1c {M : List Part} [Has M .registers] (s : State) (fs : List Fld) (w : Nat) : kept M (w1c s fs w) =
    kept M s := by
  unfold w1c
  simp only [kept_ite, ite_self, kept_foldl, implies_true, kept_put]

theorem kept_eventsClear {M : List Part} [Has M .registers] [Has M .accum] [Has M .intc] [Has M .host] [Has M .io]
    (s : State) (m : Master) (fs : List Fld) (src w : Nat) : kept M (eventsClear s m fs src w) = kept M s := by
  unfold eventsClear
  simp only [kept_setLevel, kept_noteClear, kept_w1c]

theorem kept_portEvent {M : List Part} [Has M .registers] [Has M .accum] [Has M .intc] [Has M .host] [Has M .io] (s
    : State) (p : Nat) (f : Fld) : kept M (portEvent s p f) = kept M s := by
  unfold portEvent
  simp only [kept_put, kept_setLevel]

theorem kept_chEvent {M : List Part} [Has M .registers] [Has M .accum] [Has M .intc] [Has M .host] [Has M .io] (s :
    State) (n : Nat) (f : Fld) : kept M (chEvent s n f) = kept M s := by
  unfold chEvent
  simp only [kept_put, kept_setLevel]

theorem kept_secEvent {M : List Part} [Has M .registers] [Has M .accum] [Has M .intc] [Has M .host] [Has M .io] (s :
    State) (f : Fld) : kept M (secEvent s f) = kept M s := by
  unfold secEvent
  simp only [kept_put, kept_setLevel]

theorem kept_escalateRecord {M : List Part} [Has M .registers] [Has M .accum] [Has M .jobs] [Has M .faults] [Has M
    .intc] [Has M .host] [Has M .cont] [Has M .sheet] [Has M .io] (s : State) : kept M (escalateRecord s) = kept M s
    := by
  unfold escalateRecord
  (repeat' split) <;> simp only [kept_mk, true_or, or_true, and_self, listed, kept_bump, kept_enterSafe]

theorem kept_escalateOverflow {M : List Part} [Has M .registers] [Has M .accum] [Has M .jobs] [Has M .faults] [Has M
    .intc] [Has M .host] [Has M .cont] [Has M .sheet] [Has M .io] (s : State) : kept M (escalateOverflow s) = kept M
    s := by
  unfold escalateOverflow
  simp only [kept_mk, true_or, or_true, and_self, listed, kept_ite, ite_self, kept_put, kept_bump, kept_enterSafe]

theorem kept_faultEscalation {M : List Part} [Has M .registers] [Has M .accum] [Has M .jobs] [Has M .faults] [Has M
    .intc] [Has M .host] [Has M .cont] [Has M .sheet] [Has M .io] (s : State) : kept M (faultEscalation s) = kept M
    s := by
  unfold faultEscalation
  simp only [kept_forIdx, implies_true, kept_refreshFaultN, kept_escalateRecord, kept_escalateOverflow]

theorem kept_escalateOverdue {M : List Part} [Has M .registers] [Has M .accum] [Has M .jobs] [Has M .faults] [Has M
    .intc] [Has M .host] [Has M .cont] [Has M .sheet] [Has M .io] (s : State) : kept M (escalateOverdue s) = kept M
    s := by
  unfold escalateOverdue
  simp only [kept_ite, ite_self, kept_faultEscalation]

theorem kept_settleFaults {M : List Part} [Has M .cont] (s : State) (acked : Nat × Nat → Bool) : kept M
    (settleFaults s acked) = kept M s := by
  unfold settleFaults
  simp only [kept_mk, true_or, or_true, and_self, listed, kept_ite, ite_self]

theorem kept_ackRecord {M : List Part} [Has M .registers] [Has M .faults] [Has M .cont] (s : State) (i : Nat) : kept
    M (ackRecord s i) = kept M s := by
  unfold ackRecord
  (repeat' split) <;> first | with_reducible rfl | (simp only [kept_mk, true_or, or_true, and_self, listed, kept_ite, ite_self, kept_refreshFaultN, kept_settleFaults]; done) | ((try dsimp only); (repeat' split) <;> first | with_reducible rfl | (simp only [kept_mk, true_or, or_true, and_self, listed, kept_ite, ite_self, kept_refreshFaultN, kept_settleFaults]; done))

theorem kept_fcAckWrite {M : List Part} [Has M .registers] [Has M .accum] [Has M .jobs] [Has M .faults] [Has M
    .intc] [Has M .host] [Has M .cont] [Has M .sheet] [Has M .io] (s : State) (w : Nat) : kept M (fcAckWrite s w) =
    kept M s := by
  unfold fcAckWrite
  simp only [kept_ite, ite_self, kept_put, kept_escalateOverdue, kept_ackRecord]

theorem kept_ovfAckWrite {M : List Part} [Has M .registers] [Has M .accum] [Has M .jobs] [Has M .faults] [Has M
    .intc] [Has M .host] [Has M .cont] [Has M .sheet] [Has M .io] (s : State) : kept M (ovfAckWrite s) = kept M s :=
    by
  unfold ovfAckWrite
  simp only [kept_mk, true_or, or_true, and_self, listed, kept_put, kept_refreshFaultN, kept_escalateOverdue,
    kept_settleFaults]

theorem kept_delayOverflow {M : List Part} [Has M .registers] [Has M .faults] (s : State) : kept M (delayOverflow s)
    = kept M s := by
  unfold delayOverflow
  (repeat' split) <;> simp only [kept_mk, true_or, or_true, and_self, listed, kept_ite, ite_self, kept_put]

theorem kept_countDeadlines {M : List Part} [Has M .registers] [Has M .faults] (s : State) (stopped : Bool) : kept M
    (countDeadlines s stopped) = kept M s := by
  unfold countDeadlines
  simp only [kept_mk, true_or, or_true, and_self, listed, kept_ite, ite_self, kept_delayOverflow]

theorem kept_restoreSource {M : List Part} [Has M .registers] [Has M .intc] (n : Nat) (s : State) : kept M
    (restoreSource n s) = kept M s := by
  unfold restoreSource
  simp only [kept_ite, ite_self, kept_put, kept_becomePending]

theorem kept_restoreInterrupts {M : List Part} [Has M .registers] [Has M .intc] (s : State) : kept M
    (restoreInterrupts s) = kept M s := by
  unfold restoreInterrupts
  simp only [kept_mk, true_or, or_true, and_self, listed, kept_forIdx, implies_true, kept_put, kept_restoreSource]

theorem kept_dropSeals {M : List Part} [Has M .registers] [Has M .accum] [Has M .jobs] [Has M .intc] [Has M .host]
    [Has M .sheet] [Has M .io] (s : State) : kept M (dropSeals s) = kept M s := by
  unfold dropSeals
  simp only [kept_mk, true_or, or_true, and_self, listed, kept_ite, ite_self, kept_foldl, kept_forIdx, implies_true,
    kept_put, kept_sheetLose, kept_raiseSource]

theorem kept_fencePair {M : List Part} [Has M .registers] [Has M .accum] [Has M .jobs] [Has M .faults] [Has M .intc]
    [Has M .host] [Has M .cpu] [Has M .cont] [Has M .sheet] [Has M .wake] [Has M .io] (s : State) (code detail :
    Nat) : kept M (fencePair s code detail) = kept M s := by
  unfold fencePair
  simp only [kept_mk, true_or, or_true, and_self, listed, kept_recordFault, kept_dropSeals]

theorem kept_coreMismatch {M : List Part} [Has M .registers] [Has M .accum] [Has M .jobs] [Has M .faults] [Has M
    .intc] [Has M .host] [Has M .cpu] [Has M .cont] [Has M .sheet] [Has M .wake] [Has M .io] (s : State) (k :
    MismatchKind) : kept M (coreMismatch s k) = kept M s := by
  unfold coreMismatch
  (repeat' split) <;> simp only [kept_put, kept_fencePair]

theorem kept_lockstepInjection {M : List Part} [Has M .registers] [Has M .accum] [Has M .jobs] [Has M .faults] [Has
    M .intc] [Has M .host] [Has M .cpu] [Has M .cont] [Has M .sheet] [Has M .wake] [Has M .io] (s : State) (flagged
    : Bool) : kept M (lockstepInjection s flagged) = kept M s := by
  unfold lockstepInjection
  simp only [kept_mk, true_or, or_true, and_self, listed, kept_ite, ite_self, kept_put, kept_bump, kept_fencePair]

theorem kept_spWatchdog {M : List Part} [Has M .registers] [Has M .accum] [Has M .jobs] [Has M .faults] [Has M
    .intc] [Has M .host] [Has M .cpu] [Has M .cont] [Has M .sheet] [Has M .wake] [Has M .io] (s : State) : kept M
    (spWatchdog s) = kept M s := by
  unfold spWatchdog
  simp only [kept_ite, ite_self, kept_put, kept_fencePair]

theorem kept_gcWatchdog {M : List Part} [Has M .registers] [Has M .accum] [Has M .jobs] [Has M .faults] [Has M
    .intc] [Has M .host] [Has M .cont] [Has M .sheet] [Has M .wake] [Has M .io] (s : State) (c : Nat) : kept M
    (gcWatchdog s c) = kept M s := by
  unfold gcWatchdog
  simp only [kept_ite, ite_self, kept_put, kept_recordFault]

theorem kept_releaseCore {M : List Part} [Has M .registers] [Has M .cpu] (c : Nat) (s : State) : kept M (releaseCore
    c s) = kept M s := by
  unfold releaseCore
  simp only [kept_mk, true_or, or_true, and_self, listed, kept_ite, ite_self, kept_put]

theorem kept_coreCtlRelease {M : List Part} [Has M .registers] [Has M .cpu] (s : State) (w : Nat) : kept M
    (coreCtlRelease s w) = kept M s := by
  unfold coreCtlRelease
  simp only [kept_ite, ite_self, kept_forIdx, implies_true, kept_releaseCore]

theorem kept_jobReach {M : List Part} [Has M .vault] [Has M .draws] (b : Nat) (s : State) : kept M (jobReach b s) =
    kept M s := by
  unfold jobReach
  (repeat' split) <;> first | with_reducible rfl | (simp only [kept_mk, true_or, or_true, and_self, listed, kept_ite, ite_self, kept_draw]; done) | ((try dsimp only); (repeat' split) <;> first | with_reducible rfl | (simp only [kept_mk, true_or, or_true, and_self, listed, kept_ite, ite_self, kept_draw]; done))

theorem kept_setBankH {M : List Part} [Has M .banks] [Has M .vault] [Has M .draws] (s : State) (m : Mem) : kept M
    (setBankH s m) = kept M s := by
  unfold setBankH
  simp only [kept_mk, true_or, or_true, and_self, listed, kept_ite, ite_self, kept_foldl, kept_forIdx, implies_true,
    kept_jobReach]

theorem kept_setBank {M : List Part} [Has M .banks] [Has M .vault] [Has M .draws] (s : State) (b : Bank) (m : Mem) :
    kept M (setBank s b m) = kept M s := by
  unfold setBank
  (repeat' split) <;> simp only [kept_mk, true_or, or_true, and_self, listed, kept_setBankH]

theorem kept_wipeSecure {M : List Part} [Has M .cpu] [Has M .banks] (s : State) : kept M (wipeSecure s) = kept M s
    := by
  unfold wipeSecure
  simp only [kept_mk, true_or, or_true, and_self, listed]

theorem kept_answerBus {M : List Part} [Has M .io] (s : State) (m : BusMaster) (r : Resp) : kept M (answerBus s m r)
    = kept M s := by
  unfold answerBus
  simp only [kept_mk, true_or, or_true, and_self, listed, kept_noteBusError]

theorem kept_refuseBank {M : List Part} [Has M .registers] [Has M .accum] [Has M .intc] [Has M .host] [Has M .cpu]
    [Has M .io] (s : State) (m : BusMaster) (off code : Nat) (write : Bool) : kept M (refuseBank s m off code write)
    = kept M s := by
  unfold refuseBank
  (repeat' split) <;> simp only [kept_answer, kept_ledgerAdd, kept_answerBus]

theorem kept_regionViolation {M : List Part} [Has M .registers] [Has M .accum] [Has M .jobs] [Has M .faults] [Has M
    .intc] [Has M .host] [Has M .cont] [Has M .sheet] [Has M .wake] [Has M .io] (s : State) (m : BusMaster) (off :
    Nat) (write : Bool) : kept M (regionViolation s m off write) = kept M s := by
  unfold regionViolation
  simp only [kept_put, kept_putFlag, kept_bump, kept_recordFault]

theorem kept_eccError {M : List Part} [Has M .registers] [Has M .accum] [Has M .jobs] [Has M .faults] [Has M .intc]
    [Has M .host] [Has M .cont] [Has M .sheet] [Has M .wake] [Has M .io] (s : State) (b : Bank) (off : Nat) : kept M
    (eccError s b off) = kept M s := by
  unfold eccError
  simp only [kept_put, kept_bump, kept_recordFault]

theorem kept_unmark {M : List Part} [Has M .cpu] (s : State) (b : Bank) (w : Nat) : kept M (unmark s b w) = kept M s
    := by
  unfold unmark
  simp only [kept_mk, true_or, or_true, and_self, listed]

theorem kept_performBank {M : List Part} [Has M .banks] [Has M .vault] [Has M .io] [Has M .draws] (s : State) (m :
    BusMaster) (b : Bank) (off : Nat) (op : BankOp) : kept M (performBank s m b off op) = kept M s := by
  unfold performBank
  (repeat' split) <;> simp only [kept_setBank, kept_answerBus]

theorem kept_countWaits {M : List Part} [Has M .registers] [Has M .accum] (s : State) (b : Bank) (waiting : List
    BusMaster) (cycles : Nat) : kept M (countWaits s b waiting cycles) = kept M s := by
  unfold countWaits
  simp only [kept_ite, ite_self, kept_foldl, implies_true, kept_bumpBy]

theorem kept_grantBank {M : List Part} [Has M .registers] [Has M .accum] [Has M .cpu] [Has M .io] (s : State) (m :
    BusMaster) (b : Bank) (waiting : List BusMaster) (cycles : Nat) : kept M (grantBank s m b waiting cycles) = kept
    M s := by
  unfold grantBank
  simp only [kept_mk, true_or, or_true, and_self, listed, kept_ite, ite_self, kept_pulse, kept_countWaits]

theorem kept_eccGate {M : List Part} [Has M .registers] [Has M .accum] [Has M .jobs] [Has M .faults] [Has M .intc]
    [Has M .host] [Has M .cpu] [Has M .cont] [Has M .sheet] [Has M .wake] [Has M .io] (s : State) (m : BusMaster) (b
    : Bank) (off n : Nat) (write : Bool) (ecc : BankEcc) (f : State → State) (h : ∀ t, kept M (f t) = kept M t) :
    kept M (eccGate s m b off n write ecc f) = kept M s := by
  unfold eccGate
  (repeat' split) <;> simp only [kept_ite, ite_self, kept_bump, kept_refuseBank, kept_eccError, kept_unmark, h]

theorem kept_bankAccess {M : List Part} [Has M .registers] [Has M .accum] [Has M .jobs] [Has M .faults] [Has M
    .intc] [Has M .host] [Has M .cpu] [Has M .banks] [Has M .cont] [Has M .vault] [Has M .sheet] [Has M .wake] [Has
    M .io] [Has M .draws] (s : State) (m : BusMaster) (b : Bank) (off : Nat) (op : BankOp) (ecc : BankEcc) (waiting
    : List BusMaster) : kept M (bankAccess s m b off op ecc waiting) = kept M s := by
  unfold bankAccess
  dsimp only
  (repeat' split) <;> simp only [kept_answerBus, kept_refuseBank, kept_regionViolation, kept_performBank,
    kept_grantBank, kept_eccGate, implies_true]

theorem kept_performAtomic {M : List Part} [Has M .registers] [Has M .accum] [Has M .banks] [Has M .vault] [Has M
    .io] [Has M .draws] (s : State) (m : BusMaster) (b : Bank) (off n : Nat) (f : Nat → Nat) : kept M (performAtomic
    s m b off n f) = kept M s := by
  unfold performAtomic
  simp only [kept_ite, ite_self, kept_bump, kept_pulse, kept_setBank, kept_answerBus]

theorem kept_refuseAtomic {M : List Part} [Has M .cpu] [Has M .io] (s : State) (m : BusMaster) : kept M
    (refuseAtomic s m) = kept M s := by
  unfold refuseAtomic
  (repeat' split) <;> first | with_reducible rfl | (simp only [kept_ite, ite_self, kept_answer, kept_answerBus]; done) | ((try dsimp only); (repeat' split) <;> first | with_reducible rfl | (simp only [kept_ite, ite_self, kept_answer, kept_answerBus]; done))

theorem kept_atomic {M : List Part} [Has M .registers] [Has M .accum] [Has M .jobs] [Has M .faults] [Has M .intc]
    [Has M .host] [Has M .cpu] [Has M .banks] [Has M .cont] [Has M .vault] [Has M .sheet] [Has M .wake] [Has M .io]
    [Has M .draws] (s : State) (m : BusMaster) (b : Bank) (off : Nat) (wide : Bool) (f : Nat → Nat) (ecc : BankEcc)
    (waiting : List BusMaster) : kept M (atomic s m b off wide f ecc waiting) = kept M s := by
  unfold atomic
  simp only [kept_ite, ite_self, kept_answerBus, kept_refuseBank, kept_regionViolation, kept_grantBank,
    kept_eccGate, kept_performAtomic, kept_refuseAtomic, implies_true]

theorem kept_scrubWord {M : List Part} [Has M .registers] [Has M .accum] [Has M .jobs] [Has M .faults] [Has M .intc]
    [Has M .host] [Has M .cpu] [Has M .cont] [Has M .sheet] [Has M .wake] [Has M .io] (s : State) (e : ScrubError) :
    kept M (scrubWord s e) = kept M s := by
  unfold scrubWord
  simp only [kept_mk, true_or, or_true, and_self, listed, kept_ite, ite_self, kept_bump, kept_eccError]

theorem kept_patrolScrub {M : List Part} [Has M .registers] [Has M .accum] [Has M .jobs] [Has M .faults] [Has M
    .intc] [Has M .host] [Has M .cpu] [Has M .cont] [Has M .sheet] [Has M .wake] [Has M .io] (s : State) (b : Bank)
    (errs : List ScrubError) : kept M (patrolScrub s b errs) = kept M s := by
  unfold patrolScrub
  simp only [kept_ite, ite_self, kept_foldl, implies_true, kept_bump, kept_scrubWord]

theorem kept_tapSelect {M : List Part} [Has M .cpu] (s : State) (i : Nat) : kept M (tapSelect s i) = kept M s := by
  unfold tapSelect
  simp only [kept_mk, true_or, or_true, and_self, listed]

theorem kept_scanPins {M : List Part} [Has M .cpu] [Has M .draws] (s : State) : kept M (scanPins s) = kept M s := by
  unfold scanPins
  simp only [kept_mk, true_or, or_true, and_self, listed, kept_ite, ite_self, kept_draw]

theorem kept_whileTap {M : List Part} (s : State) (f : State → State) (h : ∀ t, kept M (f t) = kept M t) : kept M
    (whileTap s f) = kept M s := by
  unfold whileTap
  split
  · exact h s
  · rfl

theorem kept_dbgOutcome {M : List Part} [Has M .cpu] [Has M .io] (s : State) (status data : Nat) : kept M
    (dbgOutcome s status data) = kept M s := by
  unfold dbgOutcome
  simp only [kept_answer, kept_tapSelect]

theorem kept_dbgHalt {M : List Part} [Has M .cpu] [Has M .io] (s : State) (c : Nat) : kept M (dbgHalt s c) = kept M
    s := by
  unfold dbgHalt
  simp only [kept_mk, true_or, or_true, and_self, listed, kept_ite, ite_self, kept_dbgOutcome]

theorem kept_dbgResume {M : List Part} [Has M .cpu] [Has M .io] (s : State) (c : Nat) : kept M (dbgResume s c) =
    kept M s := by
  unfold dbgResume
  simp only [kept_mk, true_or, or_true, and_self, listed, kept_ite, ite_self, kept_dbgOutcome]

theorem kept_dbgStep {M : List Part} [Has M .cpu] [Has M .io] (s : State) (c : Nat) : kept M (dbgStep s c) = kept M
    s := by
  unfold dbgStep
  simp only [kept_mk, true_or, or_true, and_self, listed, kept_ite, ite_self, kept_dbgOutcome]

theorem kept_dbgPoll {M : List Part} [Has M .io] (s : State) : kept M (dbgPoll s) = kept M s := by
  unfold dbgPoll
  simp only [kept_mk, true_or, or_true, and_self, listed, kept_ite, ite_self]

theorem kept_flushVectors {M : List Part} [Has M .registers] [Has M .accum] [Has M .host] [Has M .io] (s : State) :
    kept M (flushVectors s) = kept M s := by
  unfold flushVectors
  simp only [kept_mk, true_or, or_true, and_self, listed, kept_ite, ite_self, kept_foldl, implies_true, kept_emit,
    kept_exitL1]

theorem kept_refreshP48 {M : List Part} [Has M .registers] (s : State) : kept M (refreshP48 s) = kept M s := by
  unfold refreshP48
  simp only [kept_putFlag]

theorem kept_dropPosted {M : List Part} [Has M .registers] [Has M .accum] [Has M .intc] [Has M .host] [Has M .io] (s
    : State) : kept M (dropPosted s) = kept M s := by
  unfold dropPosted
  simp only [kept_mk, true_or, or_true, and_self, listed, kept_foldl, implies_true, kept_ledgerAdd]

theorem kept_releasePeWake {M : List Part} [Has M .registers] [Has M .host] (s : State) : kept M (releasePeWake s) =
    kept M s := by
  unfold releasePeWake
  simp only [kept_mk, true_or, or_true, and_self, listed, kept_put]

theorem kept_p48StateChange {M : List Part} [Has M .registers] [Has M .accum] [Has M .intc] [Has M .host] [Has M
    .io] (s : State) (l : LinkState) : kept M (p48StateChange s l) = kept M s := by
  unfold p48StateChange
  simp only [kept_ite, ite_self, kept_put, kept_putFlag, kept_flushVectors, kept_refreshP48, kept_dropPosted,
    kept_releasePeWake]

theorem kept_pmWritten {M : List Part} [Has M .host] (s : State) (pm : PmWrite) : kept M (pmWritten s pm) = kept M s
    := by
  unfold pmWritten
  simp only [kept_mk, true_or, or_true, and_self, listed, kept_ite, ite_self]

theorem kept_d3hotEntry {M : List Part} [Has M .registers] [Has M .accum] [Has M .intc] [Has M .host] [Has M .io] (s
    : State) (pm : PmWrite) : kept M (d3hotEntry s pm) = kept M s := by
  unfold d3hotEntry
  simp only [kept_mk, true_or, or_true, and_self, listed, kept_ite, ite_self, kept_put, kept_refreshP48,
    kept_dropPosted, kept_pmWritten]

theorem kept_d0Return {M : List Part} [Has M .registers] [Has M .accum] [Has M .host] [Has M .io] (s : State) : kept
    M (d0Return s) = kept M s := by
  unfold d0Return
  simp only [kept_ite, ite_self, kept_put, kept_flushVectors, kept_refreshP48]

theorem kept_markVector {M : List Part} [Has M .host] (s : State) (v : Nat) : kept M (markVector s v) = kept M s :=
    by
  unfold markVector
  simp only [kept_mk, true_or, or_true, and_self, listed, kept_ite, ite_self]

theorem kept_msixEnable {M : List Part} [Has M .registers] [Has M .accum] [Has M .host] [Has M .io] (s : State) :
    kept M (msixEnable s) = kept M s := by
  unfold msixEnable
  simp only [kept_mk, true_or, or_true, and_self, listed, kept_ite, ite_self, kept_forIdx, implies_true,
    kept_flushVectors, kept_markVector]

theorem kept_msixUnmask {M : List Part} [Has M .registers] [Has M .accum] [Has M .host] [Has M .io] (s : State) (v :
    Nat) : kept M (msixUnmask s v) = kept M s := by
  unfold msixUnmask
  simp only [kept_mk, true_or, or_true, and_self, listed, kept_ite, ite_self, kept_flushVectors]

theorem kept_aspmEntry {M : List Part} [Has M .registers] (s : State) (st : Nat) : kept M (aspmEntry s st) = kept M
    s := by
  unfold aspmEntry
  simp only [kept_ite, ite_self, kept_put]

theorem kept_peWakeTimeout {M : List Part} [Has M .registers] [Has M .host] (s : State) : kept M (peWakeTimeout s) =
    kept M s := by
  unfold peWakeTimeout
  (repeat' split) <;> simp only [kept_releasePeWake]

theorem kept_sendToHost {M : List Part} [Has M .registers] [Has M .io] (s : State) (o : Out) : kept M (sendToHost s
    o) = kept M s := by
  unfold sendToHost
  simp only [kept_ite, ite_self, kept_emit, kept_leaveL1]

theorem kept_openRead {M : List Part} [Has M .registers] [Has M .host] [Has M .io] (s : State) (c : Nat) (o :
    OpenRead) (addr len : Nat) : kept M (openRead s c o addr len) = kept M s := by
  unfold openRead
  simp only [kept_mk, true_or, or_true, and_self, listed, kept_sendToHost]

theorem kept_yieldRequest {M : List Part} [Has M .registers] [Has M .accum] [Has M .host] (s : State) (c : Nat) (o :
    OpenRead) : kept M (yieldRequest s c o) = kept M s := by
  unfold yieldRequest
  simp only [kept_mk, true_or, or_true, and_self, listed, kept_bump]

theorem kept_requestRead {M : List Part} [Has M .registers] [Has M .accum] [Has M .host] [Has M .io] (s : State) (c
    : Nat) (o : OpenRead) (addr len : Nat) (stalled : Bool) : kept M (requestRead s c o addr len stalled) = kept M s
    := by
  unfold requestRead
  simp only [kept_ite, ite_self, kept_openRead, kept_yieldRequest]

theorem kept_drainPosted {M : List Part} [Has M .registers] [Has M .host] [Has M .io] (s : State) : kept M
    (drainPosted s) = kept M s := by
  unfold drainPosted
  simp only [kept_mk, true_or, or_true, and_self, listed, kept_ite, ite_self, kept_foldl, kept_forIdx, implies_true,
    kept_sendToHost]

theorem kept_sendPosted {M : List Part} [Has M .registers] [Has M .host] [Has M .io] (s : State) : kept M
    (sendPosted s) = kept M s := by
  unfold sendPosted
  (repeat' split) <;> first | with_reducible rfl | (simp only [kept_mk, true_or, or_true, and_self, listed, kept_ite, ite_self, kept_sendToHost]; done) | ((try dsimp only); (repeat' split) <;> first | with_reducible rfl | (simp only [kept_mk, true_or, or_true, and_self, listed, kept_ite, ite_self, kept_sendToHost]; done))

theorem kept_semGive {M : List Part} [Has M .registers] [Has M .accum] [Has M .host] [Has M .io] (s : State) (c i
    addr len : Nat) (stalled : Bool) : kept M (semGive s c i addr len stalled) = kept M s := by
  unfold semGive
  (repeat' split) <;> first | with_reducible rfl | (simp only [kept_mk, true_or, or_true, and_self, listed, kept_ite, ite_self, kept_put, kept_requestRead, kept_drainPosted]; done) | ((try dsimp only); (repeat' split) <;> first | with_reducible rfl | (simp only [kept_mk, true_or, or_true, and_self, listed, kept_ite, ite_self, kept_put, kept_requestRead, kept_drainPosted]; done))

theorem kept_semFree {M : List Part} [Has M .registers] [Has M .accum] [Has M .host] [Has M .io] [Has M .draws] (s :
    State) (i : Nat) : kept M (semFree s i) = kept M s := by
  unfold semFree
  dsimp only
  (repeat' split) <;> simp only [kept_mk, true_or, or_true, and_self, listed, kept_put, kept_draw, kept_semGive]

theorem kept_semTake {M : List Part} [Has M .registers] (s : State) (m : Master) (i : Nat) : kept M (semTake s m i)
    = kept M s := by
  unfold semTake
  simp only [kept_ite, ite_self, kept_put]

theorem kept_semRelease {M : List Part} [Has M .registers] [Has M .accum] [Has M .host] [Has M .io] [Has M .draws]
    (s : State) (m : Master) (i : Nat) : kept M (semRelease s m i) = kept M s := by
  unfold semRelease
  simp only [kept_ite, ite_self, kept_semFree]

theorem kept_semFreeAll {M : List Part} [Has M .registers] [Has M .accum] [Has M .host] [Has M .io] [Has M .draws]
    (s : State) (org : Nat) : kept M (semFreeAll s org) = kept M s := by
  unfold semFreeAll
  simp only [kept_ite, ite_self, kept_forIdx, implies_true, kept_semFree]

theorem kept_answerGc {M : List Part} [Has M .io] (s : State) (c : Nat) (r : Resp) : kept M (answerGc s c r) = kept
    M s := by
  unfold answerGc
  simp only [kept_mk, true_or, or_true, and_self, listed, kept_noteBusError]

theorem kept_gcOutboundWrite {M : List Part} [Has M .registers] [Has M .accum] [Has M .intc] [Has M .host] [Has M
    .io] (s : State) (c addr : Nat) (data : List Byte) (stalled : Bool) : kept M (gcOutboundWrite s c addr data
    stalled) = kept M s := by
  unfold gcOutboundWrite
  (repeat' split) <;> simp only [kept_mk, true_or, or_true, and_self, listed, kept_ledgerAdd, kept_sendToHost,
    kept_requestRead, kept_drainPosted, kept_answerGc]

theorem kept_gcOutboundRead {M : List Part} [Has M .registers] [Has M .accum] [Has M .host] [Has M .io] (s : State)
    (c addr len : Nat) (stalled : Bool) : kept M (gcOutboundRead s c addr len stalled) = kept M s := by
  unfold gcOutboundRead
  (repeat' split) <;> simp only [kept_requestRead, kept_drainPosted, kept_answerGc]

theorem kept_stalemateRetry {M : List Part} [Has M .registers] [Has M .accum] [Has M .host] [Has M .io] (s : State)
    (c : Nat) (stalled : Bool) : kept M (stalemateRetry s c stalled) = kept M s := by
  unfold stalemateRetry
  (repeat' split) <;> simp only [kept_mk, true_or, or_true, and_self, listed, kept_requestRead]

theorem kept_readCompletion {M : List Part} [Has M .host] [Has M .io] (s : State) (c : Nat) (res : ReadCompletion) :
    kept M (readCompletion s c res) = kept M s := by
  unfold readCompletion
  (repeat' split) <;> simp only [kept_mk, true_or, or_true, and_self, listed, kept_answerGc]

theorem kept_exclLoad {M : List Part} [Has M .registers] [Has M .accum] [Has M .host] [Has M .io] (s : State) (c
    addr len : Nat) (stalled : Bool) : kept M (exclLoad s c addr len stalled) = kept M s := by
  unfold exclLoad
  (repeat' split) <;> simp only [kept_mk, true_or, or_true, and_self, listed, kept_ite, ite_self, kept_semGive,
    kept_answerGc]

theorem kept_exclStore {M : List Part} [Has M .registers] [Has M .accum] [Has M .intc] [Has M .host] [Has M .io]
    [Has M .draws] (s : State) (c addr : Nat) (data : List Byte) (stalled : Bool) : kept M (exclStore s c addr data
    stalled) = kept M s := by
  unfold exclStore
  (repeat' split) <;> simp only [kept_ledgerAdd, kept_sendToHost, kept_requestRead, kept_drainPosted, kept_semFree,
    kept_answerGc]

theorem kept_semWaitTimeout {M : List Part} [Has M .registers] [Has M .accum] [Has M .host] [Has M .io] (s : State)
    (c : Nat) (stalled : Bool) : kept M (semWaitTimeout s c stalled) = kept M s := by
  unfold semWaitTimeout
  (repeat' split) <;> simp only [kept_mk, true_or, or_true, and_self, listed, kept_bump, kept_requestRead]

theorem kept_semHoldTimeout {M : List Part} [Has M .registers] [Has M .accum] [Has M .host] [Has M .io] [Has M
    .draws] (s : State) (c : Nat) : kept M (semHoldTimeout s c) = kept M s := by
  unfold semHoldTimeout
  (repeat' split) <;> simp only [kept_bump, kept_semFree]

theorem kept_ledgerTake {M : List Part} [Has M .host] (s : State) (org : Nat) : kept M (ledgerTake s org).2 = kept M
    s := by
  unfold ledgerTake
  (repeat' split) <;> simp only [kept_mk, true_or, or_true, and_self, listed]

theorem kept_setRing {M : List Part} [Has M .host] (s : State) (r : Nat) (x : RingSt) : kept M (setRing s r x) =
    kept M s := by
  unfold setRing
  simp only [kept_mk, true_or, or_true, and_self, listed]

theorem kept_ringConfig {M : List Part} [Has M .registers] [Has M .host] (s : State) (r w : Nat) : kept M
    (ringConfig s r w) = kept M s := by
  unfold ringConfig
  simp only [kept_ite, ite_self, kept_put, kept_putFlag, kept_setRing]

theorem kept_ringTailWrite {M : List Part} [Has M .registers] [Has M .host] (s : State) (r w : Nat) (descs : List
    (List Byte)) : kept M (ringTailWrite s r w descs) = kept M s := by
  unfold ringTailWrite
  simp only [kept_ite, ite_self, kept_put, kept_setRing]

theorem kept_ringVector {M : List Part} [Has M .registers] [Has M .accum] [Has M .host] [Has M .io] (s : State) (r :
    Nat) : kept M (ringVector s r) = kept M s := by
  unfold ringVector
  simp only [kept_vectorDue, kept_setRing]

theorem kept_moderate {M : List Part} [Has M .registers] [Has M .accum] [Has M .host] [Has M .io] (s : State) (r :
    Nat) : kept M (moderate s r) = kept M s := by
  unfold moderate
  simp only [kept_ite, ite_self, kept_setRing, kept_ringVector]

theorem kept_modTimer {M : List Part} [Has M .registers] [Has M .accum] [Has M .host] [Has M .io] (s : State) (r :
    Nat) : kept M (modTimer s r) = kept M s := by
  unfold modTimer
  (repeat' split) <;> simp only [kept_ite, ite_self, kept_ringVector]

theorem kept_consume {M : List Part} [Has M .registers] [Has M .host] (s : State) (r : Nat) : kept M (consume s r) =
    kept M s := by
  unfold consume
  simp only [kept_ite, ite_self, kept_put, kept_setRing]

theorem kept_writeCpl {M : List Part} [Has M .registers] [Has M .io] (s : State) (r idx : Nat) (entry : List Byte) :
    kept M (writeCpl s r idx entry) = kept M s := by
  unfold writeCpl
  simp only [kept_sendToHost]

theorem kept_rxDeliver {M : List Part} [Has M .registers] [Has M .accum] [Has M .host] [Has M .io] (s : State) (r :
    Nat) (bytes : List Byte) (time port epoch : Nat) (mgmt : Bool) : kept M (rxDeliver s r bytes time port epoch
    mgmt).2 = kept M s := by
  unfold rxDeliver
  dsimp only
  (repeat' split) <;> simp only [kept_bump, kept_sendToHost, kept_moderate, kept_consume, kept_writeCpl]

theorem kept_endOwnership {M : List Part} [Has M .registers] (s : State) : kept M (endOwnership s) = kept M s := by
  unfold endOwnership
  simp only [kept_put]

theorem kept_resetRange {M : List Part} [Has M .registers] (s : State) (lo hi : Nat) : kept M (resetRange s lo hi) =
    kept M s := by
  unfold resetRange
  simp only [kept_mk, true_or, or_true, and_self, listed]

theorem kept_resetHostIf {M : List Part} [Has M .registers] [Has M .host] (s : State) : kept M (resetHostIf s) =
    kept M s := by
  unfold resetHostIf
  simp only [kept_mk, true_or, or_true, and_self, listed, kept_resetRange]

theorem kept_hostReset {M : List Part} [Has M .registers] [Has M .accum] [Has M .intc] [Has M .host] [Has M .io]
    [Has M .draws] (s : State) (k : HostResetKind) : kept M (hostReset s k) = kept M s := by
  unfold hostReset
  cases k <;> simp only [kept_mk, true_or, or_true, and_self, listed, kept_ite, ite_self, kept_put,
    kept_assertPeWake, kept_dropPosted, kept_releasePeWake, kept_semFreeAll, kept_endOwnership, kept_resetHostIf]
    <;> (repeat' split) <;> simp only [kept_mk, true_or, or_true, and_self, listed, kept_ite, ite_self, kept_put,
    kept_assertPeWake, kept_dropPosted, kept_releasePeWake, kept_semFreeAll, kept_endOwnership, kept_resetHostIf]

theorem kept_countDenied {M : List Part} [Has M .registers] [Has M .accum] (s : State) (code : Nat) : kept M
    (countDenied s code) = kept M s := by
  unfold countDenied
  simp only [kept_ite, ite_self, kept_bump]

theorem kept_countAborted {M : List Part} [Has M .registers] [Has M .accum] (s : State) (chk : Nat) : kept M
    (countAborted s chk) = kept M s := by
  unfold countAborted
  simp only [kept_ite, ite_self, kept_bump, kept_countDenied]

theorem kept_refreshSheet {M : List Part} [Has M .registers] [Has M .accum] [Has M .intc] [Has M .host] [Has M .io]
    (s : State) : kept M (refreshSheet s) = kept M s := by
  unfold refreshSheet
  simp only [kept_ite, ite_self, kept_forIdx, implies_true, kept_put, kept_putFlag, kept_raiseSource]

theorem kept_sheetWrite {M : List Part} [Has M .registers] [Has M .accum] [Has M .jobs] [Has M .faults] [Has M
    .intc] [Has M .host] [Has M .cont] [Has M .sheet] [Has M .sheetLog] [Has M .wake] [Has M .io] (s : State) (type
    : Nat) (body : List Byte) : kept M (sheetWrite s type body) = kept M s := by
  unfold sheetWrite
  simp only [kept_mk, true_or, or_true, and_self, listed, kept_ite, ite_self, kept_bump, kept_recordFault,
    kept_refreshSheet]

theorem kept_sheetAnchor {M : List Part} [Has M .registers] [Has M .accum] [Has M .jobs] [Has M .faults] [Has M
    .intc] [Has M .host] [Has M .cont] [Has M .anchors] [Has M .sheet] [Has M .sheetLog] [Has M .wake] [Has M .io]
    (s : State) : kept M (sheetAnchor s) = kept M s := by
  unfold sheetAnchor
  have h : ∀ l, kept M { s with otp.anchors := l } = kept M s := by intros; simp only [kept_mk, true_or, or_true,
    and_self, listed, kept_ite, ite_self, kept_sheetLose, kept_sheetWrite]
  dsimp only
  (repeat' split) <;> simp only [kept_mk, true_or, or_true, and_self, listed, kept_ite, ite_self, kept_sheetLose,
    kept_sheetWrite, h]

theorem kept_resumeAtAnchor {M : List Part} [Has M .sheet] (s : State) (type : Nat) (body : List Byte) : kept M
    (resumeAtAnchor s type body) = kept M s := by
  unfold resumeAtAnchor
  (repeat' split) <;> first | with_reducible rfl | (simp only [kept_mk, true_or, or_true, and_self, listed, kept_ite, ite_self]; done) | ((try dsimp only); (repeat' split) <;> first | with_reducible rfl | (simp only [kept_mk, true_or, or_true, and_self, listed, kept_ite, ite_self]; done))

theorem kept_sheetAppend {M : List Part} [Has M .registers] [Has M .accum] [Has M .jobs] [Has M .faults] [Has M
    .intc] [Has M .host] [Has M .cont] [Has M .anchors] [Has M .sheet] [Has M .sheetLog] [Has M .wake] [Has M .io]
    (s : State) (type : Nat) (body : List Byte) : kept M (sheetAppend s type body) = kept M s := by
  have h : kept M (sheetAnchor (sheetWrite s type body)) = kept M s := by simp only [kept_sheetAnchor,
    kept_sheetWrite]
  unfold sheetAppend
  generalize sheetAnchor (sheetWrite s type body) = s1 at h
  dsimp only
  split
  · simp only [kept_sheetLose]
  · split <;> simp only [kept_mk, true_or, or_true, and_self, listed, kept_ite, ite_self, kept_sheetLose,
    kept_sheetWrite, kept_sheetAnchor, kept_resumeAtAnchor, h]

theorem kept_sheetRead {M : List Part} [Has M .registers] [Has M .sheet] (s : State) (w : Nat) : kept M (sheetRead s
    w) = kept M s := by
  unfold sheetRead
  simp only [kept_mk, true_or, or_true, and_self, listed, kept_ite, ite_self, kept_put]

theorem kept_sheetReadDone {M : List Part} [Has M .registers] [Has M .sheet] (s : State) : kept M (sheetReadDone s)
    = kept M s := by
  unfold sheetReadDone
  dsimp only
  (repeat' split) <;> simp only [kept_mk, true_or, or_true, and_self, listed, kept_forIdx, implies_true, kept_put]

theorem kept_sheetRetire {M : List Part} [Has M .registers] [Has M .accum] [Has M .jobs] [Has M .intc] [Has M .host]
    [Has M .sheet] [Has M .sheetLog] [Has M .io] (s : State) (m : Master) (w : Nat) : kept M (sheetRetire s m w) =
    kept M s := by
  unfold sheetRetire
  (repeat' split) <;> simp only [kept_mk, true_or, or_true, and_self, listed, kept_ite, ite_self, kept_put,
    kept_journal, kept_refreshSheet]

theorem kept_drbgSeed {M : List Part} [Has M .vault] [Has M .draws] (s : State) (before : List Byte) : kept M
    (drbgSeed s before) = kept M s := by
  unfold drbgSeed
  simp only [kept_mk, true_or, or_true, and_self, listed, kept_ite, ite_self, kept_draw]

theorem kept_drbgNext {M : List Part} [Has M .vault] [Has M .draws] (s : State) : kept M (drbgNext s).2 = kept M s
    := by
  unfold drbgNext
  simp only [kept_mk, true_or, or_true, and_self, listed, kept_ite, ite_self, kept_drbgSeed]

theorem kept_setSlot {M : List Part} [Has M .vault] (s : State) (i : Nat) (v : VSlot) : kept M (setSlot s i v) =
    kept M s := by
  unfold setSlot
  simp only [kept_mk, true_or, or_true, and_self, listed]

theorem kept_installKey {M : List Part} [Has M .vault] [Has M .draws] (s : State) (i : Nat) (v : VSlot) (key : List
    Byte) : kept M (installKey s i v key) = kept M s := by
  unfold installKey
  simp only [kept_ite, ite_self, kept_drbgNext, kept_setSlot]

theorem kept_fillSlot {M : List Part} [Has M .vault] [Has M .draws] (s : State) (i : Nat) (v : VSlot) (key : List
    Byte) (gen : Nat) : kept M (fillSlot s i v key gen) = kept M s := by
  unfold fillSlot
  simp only [kept_mk, true_or, or_true, and_self, listed, kept_ite, ite_self, kept_installKey]

theorem kept_fillFixed {M : List Part} [Has M .vault] [Has M .draws] (s : State) (i gen : Nat) : kept M (fillFixed s
    i gen) = kept M s := by
  unfold fillFixed
  (repeat' split) <;> first | with_reducible rfl | (simp only [kept_ite, ite_self, kept_fillSlot]; done) | ((try dsimp only); (repeat' split) <;> first | with_reducible rfl | (simp only [kept_ite, ite_self, kept_fillSlot]; done))

theorem kept_noteRevoked {M : List Part} [Has M .vault] (s : State) (i : Nat) (on : Bool) : kept M (noteRevoked s i
    on) = kept M s := by
  unfold noteRevoked
  simp only [kept_mk, true_or, or_true, and_self, listed, kept_ite, ite_self]

theorem kept_installRevoked {M : List Part} [Has M .vault] (s : State) (i : Nat) (b : List Byte) (origin depth :
    Nat) : kept M (installRevoked s i b origin depth) = kept M s := by
  unfold installRevoked
  simp only [kept_ite, ite_self, kept_setSlot, kept_noteRevoked]

theorem kept_emptySlot {M : List Part} [Has M .vault] (s : State) (i : Nat) : kept M (emptySlot s i) = kept M s :=
    by
  unfold emptySlot
  simp only [kept_mk, true_or, or_true, and_self, listed, kept_ite, ite_self, kept_noteRevoked]

theorem kept_derive {M : List Part} [Has M .registers] [Has M .accum] [Has M .vault] [Has M .draws] (s : State) (e i
    : Nat) (gen : Nat) : kept M (derive s e i gen) = kept M s := by
  unfold derive
  (repeat' split) <;> simp only [kept_countDenied, kept_fillSlot, kept_noteRevoked, kept_installRevoked,
    kept_emptySlot]

theorem kept_noteImported {M : List Part} [Has M .vault] (s : State) (i : Nat) : kept M (noteImported s i) = kept M
    s := by
  unfold noteImported
  (repeat' split) <;> first | with_reducible rfl | (simp only [kept_mk, true_or, or_true, and_self, listed, kept_ite, ite_self]; done) | ((try dsimp only); (repeat' split) <;> first | with_reducible rfl | (simp only [kept_mk, true_or, or_true, and_self, listed, kept_ite, ite_self]; done))

theorem kept_saveKeys {M : List Part} [Has M .vault] (s : State) : kept M (saveKeys s) = kept M s := by
  unfold saveKeys
  simp only [kept_mk, true_or, or_true, and_self, listed, kept_ite, ite_self]

theorem kept_writeKeys {M : List Part} [Has M .vault] (s : State) : kept M (writeKeys s) = kept M s := by
  unfold writeKeys
  simp only [kept_ite, ite_self, kept_saveKeys]

theorem kept_keysLost {M : List Part} [Has M .vault] (s : State) : kept M (keysLost s) = kept M s := by
  unfold keysLost
  simp only [kept_mk, true_or, or_true, and_self, listed, kept_ite, ite_self, kept_foldl, kept_forIdx, implies_true]

theorem kept_readKeys {M : List Part} [Has M .vault] (s : State) (damaged : List Nat) : kept M (readKeys s damaged)
    = kept M s := by
  unfold readKeys
  (repeat' split) <;> first | with_reducible rfl | (simp only [kept_mk, true_or, or_true, and_self, listed, kept_ite, ite_self, kept_keysLost]; done) | ((try dsimp only); (repeat' split) <;> first | with_reducible rfl | (simp only [kept_mk, true_or, or_true, and_self, listed, kept_ite, ite_self, kept_keysLost]; done))

theorem kept_restoreImport {M : List Part} [Has M .vault] [Has M .draws] (old s : State) (e i gen : Nat) : kept M
    (restoreImport old s e i gen) = kept M s := by
  unfold restoreImport
  (repeat' split) <;> simp only [kept_ite, ite_self, kept_setSlot, kept_fillSlot, kept_noteImported]

theorem kept_restoreKey {M : List Part} [Has M .registers] [Has M .accum] [Has M .vault] [Has M .draws] (s : State)
    (e i gen : Nat) : kept M (restoreKey s e i gen) = kept M s := by
  unfold restoreKey
  (repeat' split) <;> simp only [kept_ite, ite_self, kept_setSlot, kept_derive]

theorem kept_buildKeys {M : List Part} [Has M .registers] [Has M .accum] [Has M .vault] [Has M .draws] (s : State)
    (e : Nat) (g : State → Nat → Nat) : kept M (buildKeys s e g) = kept M s := by
  unfold buildKeys
  dsimp only
  split
  · rw [kept_forIdx _ _ _ (fun i st => by simp only [kept_fillFixed])]; simp only [kept_mk, true_or, or_true,
    and_self, listed, kept_ite, ite_self, kept_foldl, kept_forIdx, implies_true, kept_fillFixed, kept_restoreImport,
    kept_restoreKey]
  · rw [kept_forIdx]
    · rw [kept_foldl, kept_forIdx _ _ _ (fun i st => by simp only [kept_fillFixed])]
      · simp only [kept_mk, true_or, or_true, and_self, listed, kept_ite, ite_self, kept_foldl, kept_forIdx,
        implies_true, kept_fillFixed, kept_restoreImport, kept_restoreKey]
      · intro st x; simp only [kept_restoreImport]
    · intro d st
      rw [kept_foldl]
      intro st x
      split
      · simp only [kept_restoreKey]
      · rfl

theorem kept_loadKeys {M : List Part} [Has M .registers] [Has M .accum] [Has M .vault] [Has M .draws] (s : State) (e
    : Nat) : kept M (loadKeys s e) = kept M s := by
  unfold loadKeys
  simp only [kept_mk, true_or, or_true, and_self, listed, kept_ite, ite_self, kept_buildKeys]

theorem kept_zeroSlot {M : List Part} [Has M .vault] (s : State) (i : Nat) : kept M (zeroSlot s i) = kept M s := by
  unfold zeroSlot
  (repeat' split) <;> simp only [kept_mk, true_or, or_true, and_self, listed, kept_setSlot, kept_noteRevoked]

theorem kept_revokeTree {M : List Part} [Has M .registers] [Has M .accum] [Has M .jobs] [Has M .vault] [Has M
    .sheet] (s : State) (i master : Nat) : kept M (revokeTree s i master) = kept M s := by
  unfold revokeTree
  simp only [kept_foldl, implies_true, kept_journal, kept_zeroSlot]

theorem kept_revokeResult {M : List Part} [Has M .registers] [Has M .accum] [Has M .intc] [Has M .host] [Has M .io]
    (s : State) (r : Nat) : kept M (revokeResult s r) = kept M s := by
  unfold revokeResult
  simp only [kept_ite, ite_self, kept_put, kept_raiseSource]

theorem kept_revokeWrite {M : List Part} [Has M .registers] [Has M .accum] [Has M .intc] [Has M .host] [Has M
    .vault] [Has M .io] (s : State) (m : Master) (w : Nat) : kept M (revokeWrite s m w) = kept M s := by
  unfold revokeWrite
  simp only [kept_mk, true_or, or_true, and_self, listed, kept_ite, ite_self, kept_put, kept_revokeResult]

theorem kept_revokeDue {M : List Part} [Has M .registers] [Has M .accum] [Has M .jobs] [Has M .intc] [Has M .host]
    [Has M .vault] [Has M .sheet] [Has M .io] (s : State) (boundary : Nat) : kept M (revokeDue s boundary) = kept M
    s := by
  unfold revokeDue
  simp only [kept_mk, true_or, or_true, and_self, listed, kept_ite, ite_self, kept_foldl, implies_true, kept_put,
    kept_writeKeys, kept_revokeTree, kept_revokeResult]

theorem kept_reimport {M : List Part} [Has M .vault] (e : Nat) (s : State) (i : Nat) : kept M (reimport e s i) =
    kept M s := by
  unfold reimport
  (repeat' split) <;> first | with_reducible rfl | (simp only [kept_ite, ite_self, kept_installRevoked]; done) | ((try dsimp only); (repeat' split) <;> first | with_reducible rfl | (simp only [kept_ite, ite_self, kept_installRevoked]; done))

theorem kept_commitKeys {M : List Part} [Has M .registers] [Has M .accum] [Has M .jobs] [Has M .vault] [Has M
    .sheet] [Has M .draws] (s : State) (old new : Nat) : kept M (commitKeys s old new) = kept M s := by
  unfold commitKeys
  split
  · rfl
  · extract_lets ol nl gone fresh desc s1 s2 s3
    have h1 : kept M s1 = kept M s := kept_foldl _ _ _ fun _ _ => kept_revokeTree _ _ _
    have h2 : kept M s2 = kept M s1 := kept_foldl _ _ _ fun _ _ => kept_emptySlot _ _
    have h3 : kept M s3 = kept M s2 := kept_foldl _ _ _ fun _ _ => kept_reimport _ _ _
    rw [kept_writeKeys, kept_forIdx]
    · rw [h3, h2, h1]
    · intro d st
      rw [kept_foldl]
      intro st x
      (repeat' split) <;> simp only [kept_mk, true_or, or_true, and_self, listed, kept_ite, ite_self, kept_foldl,
        kept_forIdx, implies_true, kept_journal, kept_emptySlot, kept_derive, kept_writeKeys, kept_revokeTree,
        kept_reimport]

theorem kept_clearImport {M : List Part} [Has M .registers] (s : State) : kept M (clearImport s) = kept M s := by
  unfold clearImport
  simp only [kept_forIdx, implies_true, kept_put]

theorem kept_importWrite {M : List Part} [Has M .registers] [Has M .accum] [Has M .jobs] [Has M .vault] [Has M
    .sheet] [Has M .draws] (s : State) (m : Master) (w : Nat) : kept M (importWrite s m w) = kept M s := by
  unfold importWrite
  dsimp only
  (repeat' split) <;> simp only [kept_put, kept_journal, kept_countDenied, kept_fillSlot, kept_noteRevoked,
    kept_noteImported, kept_writeKeys, kept_clearImport]

theorem kept_remaskSlot {M : List Part} [Has M .vault] [Has M .draws] (s : State) (i : Nat) : kept M (remaskSlot s
    i) = kept M s := by
  unfold remaskSlot
  (repeat' split) <;> simp only [kept_mk, true_or, or_true, and_self, listed, kept_ite, ite_self, kept_drbgNext,
    kept_setSlot]

theorem kept_remask {M : List Part} [Has M .registers] [Has M .accum] [Has M .vault] [Has M .draws] (s : State) :
    kept M (remask s) = kept M s := by
  unfold remask
  simp only [kept_mk, true_or, or_true, and_self, listed, kept_ite, ite_self, kept_foldl, implies_true, kept_bump,
    kept_remaskSlot]

theorem kept_entropyFailure {M : List Part} [Has M .registers] [Has M .accum] [Has M .jobs] [Has M .faults] [Has M
    .intc] [Has M .host] [Has M .cont] [Has M .vault] [Has M .sheet] [Has M .wake] [Has M .io] (s : State) : kept M
    (entropyFailure s) = kept M s := by
  unfold entropyFailure
  simp only [kept_mk, true_or, or_true, and_self, listed, kept_ite, ite_self, kept_put, kept_recordFault]

theorem kept_mcjEnd {M : List Part} [Has M .registers] [Has M .accum] [Has M .intc] [Has M .host] [Has M .io] (s :
    State) (b r : Nat) : kept M (mcjEnd s b r) = kept M s := by
  unfold mcjEnd
  simp only [kept_put, kept_raiseSource]

theorem kept_mcjRun {M : List Part} [Has M .registers] (s : State) (b : Nat) : kept M (mcjRun s b) = kept M s := by
  unfold mcjRun
  simp only [kept_ite, ite_self, kept_put]

theorem kept_mcjServe {M : List Part} [Has M .registers] (s : State) : kept M (mcjServe s) = kept M s := by
  unfold mcjServe
  refine kept_forIdx _ _ _ fun _ st => ?_
  split
  · exact kept_mcjRun _ _
  · rfl

theorem kept_digestStart {M : List Part} [Has M .registers] [Has M .vault] (s : State) : kept M (digestStart s) =
    kept M s := by
  unfold digestStart
  simp only [kept_mk, true_or, or_true, and_self, listed, kept_ite, ite_self, kept_put, kept_mcjServe]

theorem kept_digestEnd {M : List Part} [Has M .registers] [Has M .vault] (s : State) : kept M (digestEnd s) = kept M
    s := by
  unfold digestEnd
  simp only [kept_mk, true_or, or_true, and_self, listed, kept_ite, ite_self, kept_put, kept_mcjServe]

theorem kept_mcjGo {M : List Part} [Has M .registers] [Has M .accum] [Has M .intc] [Has M .host] [Has M .vault] [Has
    M .io] (s : State) (m : Master) (w : Nat) : kept M (mcjGo s m w) = kept M s := by
  unfold mcjGo
  (repeat' split) <;> simp only [kept_mk, true_or, or_true, and_self, listed, kept_ite, ite_self, kept_put,
    kept_countDenied, kept_mcjEnd, kept_mcjServe]

theorem kept_takeContext {M : List Part} [Has M .registers] [Has M .accum] (s : State) : kept M (takeContext s) =
    kept M s := by
  unfold takeContext
  simp only [kept_ite, ite_self, kept_put, kept_bump]

theorem kept_digestSuspend {M : List Part} [Has M .registers] [Has M .accum] (s : State) : kept M (digestSuspend s)
    = kept M s := by
  unfold digestSuspend
  (repeat' split) <;> first | with_reducible rfl | (simp only [kept_ite, ite_self, kept_put, kept_mcjServe, kept_takeContext]; done) | ((try dsimp only); (repeat' split) <;> first | with_reducible rfl | (simp only [kept_ite, ite_self, kept_put, kept_mcjServe, kept_takeContext]; done))

theorem kept_coreSuspend {M : List Part} [Has M .registers] [Has M .accum] [Has M .vault] (s : State) (m : Master) :
    kept M (coreSuspend s m) = kept M s := by
  unfold coreSuspend
  (repeat' split) <;> first | with_reducible rfl | (simp only [kept_mk, true_or, or_true, and_self, listed, kept_ite, ite_self, kept_takeContext, kept_digestSuspend]; done) | ((try dsimp only); (repeat' split) <;> first | with_reducible rfl | (simp only [kept_mk, true_or, or_true, and_self, listed, kept_ite, ite_self, kept_takeContext, kept_digestSuspend]; done))

theorem kept_mcjBroken {M : List Part} [Has M .registers] [Has M .accum] [Has M .intc] [Has M .host] [Has M .vault]
    [Has M .io] [Has M .draws] (s : State) (b : Nat) : kept M (mcjBroken s b) = kept M s := by
  unfold mcjBroken
  simp only [kept_mk, true_or, or_true, and_self, listed, kept_ite, ite_self, kept_draw, kept_mcjEnd, kept_mcjServe]

theorem kept_mcjRead {M : List Part} [Has M .registers] [Has M .accum] [Has M .jobs] [Has M .faults] [Has M .intc]
    [Has M .host] [Has M .cpu] [Has M .cont] [Has M .vault] [Has M .sheet] [Has M .wake] [Has M .io] [Has M .draws]
    (s : State) (b : Nat) (j : McjJob) (upto : Nat) (ecc : BankEcc) (f : State → List Byte → State) (h : ∀ t l, kept
    M (f t l) = kept M t) : kept M (mcjRead s b j upto ecc f) = kept M s := by
  unfold mcjRead
  dsimp only
  (repeat' split) <;> simp only [kept_mk, true_or, or_true, and_self, listed, kept_ite, ite_self, kept_bump,
    kept_eccError, kept_unmark, kept_mcjBroken, h]

theorem kept_mcjPause {M : List Part} [Has M .registers] [Has M .accum] [Has M .vault] (b : Nat) (j : McjJob) (s :
    State) (bytes : List Byte) : kept M (mcjPause b j s bytes) = kept M s := by
  unfold mcjPause
  simp only [kept_mk, true_or, or_true, and_self, listed, kept_ite, ite_self, kept_put, kept_mcjServe,
    kept_takeContext]

theorem kept_mcjSuspend {M : List Part} [Has M .registers] [Has M .accum] [Has M .jobs] [Has M .faults] [Has M
    .intc] [Has M .host] [Has M .cpu] [Has M .cont] [Has M .vault] [Has M .sheet] [Has M .wake] [Has M .io] [Has M
    .draws] (s : State) (m : Master) : kept M (mcjSuspend s m) = kept M s := by
  unfold mcjSuspend
  (repeat' split) <;> simp only [kept_draw, kept_coreSuspend, kept_mcjRead, kept_mcjPause, implies_true]

theorem kept_resumeCore {M : List Part} [Has M .registers] [Has M .vault] (s : State) (c : Nat) : kept M (resumeCore
    s c) = kept M s := by
  unfold resumeCore
  simp only [kept_mk, true_or, or_true, and_self, listed, kept_ite, ite_self, kept_put]

theorem kept_mcjFinish {M : List Part} [Has M .registers] [Has M .accum] [Has M .intc] [Has M .host] [Has M .vault]
    [Has M .io] (b : Nat) (j : McjJob) (s : State) (bytes : List Byte) : kept M (mcjFinish b j s bytes) = kept M s
    := by
  unfold mcjFinish
  simp only [kept_mk, true_or, or_true, and_self, listed, kept_ite, ite_self, kept_foldl, kept_forIdx, implies_true,
    kept_put, kept_bump, kept_mcjEnd, kept_mcjServe]

theorem kept_mcjDone {M : List Part} [Has M .registers] [Has M .accum] [Has M .jobs] [Has M .faults] [Has M .intc]
    [Has M .host] [Has M .cpu] [Has M .cont] [Has M .vault] [Has M .sheet] [Has M .wake] [Has M .io] [Has M .draws]
    (s : State) (m : Master) (ecc : BankEcc) : kept M (mcjDone s m ecc) = kept M s := by
  unfold mcjDone
  (repeat' split) <;> first | with_reducible rfl | (simp only [kept_mk, true_or, or_true, and_self, listed, kept_ite, ite_self, kept_bump, kept_mcjEnd, kept_mcjServe, kept_mcjRead, kept_mcjFinish, implies_true]; done) | ((try dsimp only); (repeat' split) <;> first | with_reducible rfl | (simp only [kept_mk, true_or, or_true, and_self, listed, kept_ite, ite_self, kept_bump, kept_mcjEnd, kept_mcjServe, kept_mcjRead, kept_mcjFinish, implies_true]; done))

theorem kept_attResult {M : List Part} [Has M .registers] [Has M .accum] [Has M .intc] [Has M .host] [Has M .io] (s
    : State) (r : Nat) : kept M (attResult s r) = kept M s := by
  unfold attResult
  simp only [kept_ite, ite_self, kept_put, kept_raiseSource]

theorem kept_attGo {M : List Part} [Has M .registers] [Has M .accum] [Has M .jobs] [Has M .intc] [Has M .host] [Has
    M .sheet] [Has M .io] (s : State) (m : Master) (w : Nat) : kept M (attGo s m w) = kept M s := by
  unfold attGo
  simp only [kept_ite, ite_self, kept_forIdx, implies_true, kept_put, kept_requestGc, kept_attResult]

theorem kept_attestationDone {M : List Part} [Has M .registers] [Has M .accum] [Has M .intc] [Has M .host] [Has M
    .io] (s : State) : kept M (attestationDone s) = kept M s := by
  unfold attestationDone
  simp only [kept_ite, ite_self, kept_forIdx, implies_true, kept_put, kept_bump, kept_attResult]

theorem kept_vkRevoke {M : List Part} [Has M .registers] [Has M .accum] [Has M .jobs] [Has M .fuses] [Has M .sheet]
    (s : State) (m : Master) (k : Nat) : kept M (vkRevoke s m k) = kept M s := by
  unfold vkRevoke
  simp only [kept_mk, true_or, or_true, and_self, listed, kept_ite, ite_self, kept_journal]

theorem kept_tamperActs {M : List Part} [Has M .draws] (s : State) (c : TamperCause) (ns : Nat) : kept M (tamperActs
    s c ns).2 = kept M s := by
  unfold tamperActs
  (repeat' split) <;> simp only [kept_draw]

theorem kept_tamper {M : List Part} [Has M .registers] [Has M .accum] [Has M .jobs] [Has M .faults] [Has M .intc]
    [Has M .host] [Has M .cpu] [Has M .banks] [Has M .cont] [Has M .vault] [Has M .sheet] [Has M .wake] [Has M .io]
    [Has M .draws] (s : State) (c : TamperCause) (ns : Nat) : kept M (tamper s c ns) = kept M s := by
  unfold tamper
  simp only [kept_mk, true_or, or_true, and_self, listed, kept_ite, ite_self, kept_put, kept_recordFault,
    kept_wipeSecure, kept_refreshSheet, kept_tamperActs]

theorem kept_tamperClear {M : List Part} [Has M .registers] [Has M .accum] [Has M .jobs] [Has M .intc] [Has M .host]
    [Has M .vault] [Has M .sheet] [Has M .io] [Has M .draws] (s : State) (w : Nat) : kept M (tamperClear s w) = kept
    M s := by
  unfold tamperClear
  simp only [kept_ite, ite_self, kept_put, kept_journal, kept_refreshSheet, kept_writeKeys, kept_buildKeys]

theorem kept_placeStatic {M : List Part} [Has M .tables] (s : State) (e : Nat × List Byte) : kept M (placeStatic s
    e) = kept M s := by
  unfold placeStatic
  (repeat' split) <;> simp only [kept_mk, true_or, or_true, and_self, listed]

theorem kept_refreshStorage {M : List Part} [Has M .registers] [Has M .tables] (s : State) : kept M (refreshStorage
    s) = kept M s := by
  unfold refreshStorage
  simp only [kept_mk, true_or, or_true, and_self, listed, kept_foldl, implies_true, kept_put, kept_showPools,
    kept_placeStatic]

theorem kept_refreshCurrent {M : List Part} [Has M .registers] (s : State) : kept M (refreshCurrent s) = kept M s :=
    by
  unfold refreshCurrent
  simp only [kept_put, kept_putFlag]

theorem kept_setSlotPolicy {M : List Part} [Has M .policy] (s : State) (slot : Nat) (pol : SMap (List Byte)) : kept
    M (setSlotPolicy s slot pol) = kept M s := by
  unfold setSlotPolicy
  simp only [kept_mk, true_or, or_true, and_self, listed]

theorem kept_setSlotCmt {M : List Part} [Has M .policy] (s : State) (slot : Nat) (l : List (Fld × Nat)) : kept M
    (setSlotCmt s slot l) = kept M s := by
  unfold setSlotCmt
  simp only [kept_mk, true_or, or_true, and_self, listed, kept_foldl, implies_true, kept_putCmt]

theorem kept_dropSlot {M : List Part} [Has M .registers] [Has M .policy] [Has M .epochs] [Has M .tables] (s : State)
    (slot : Nat) : kept M (dropSlot s slot) = kept M s := by
  unfold dropSlot
  simp only [kept_mk, true_or, or_true, and_self, listed, kept_put, kept_setSlotState, kept_refreshStorage]

theorem kept_showStructural {M : List Part} [Has M .registers] (s : State) (v : View) : kept M (showStructural s v)
    = kept M s := by
  unfold showStructural
  simp only [kept_ite, ite_self, kept_forIdx, implies_true, kept_put]

theorem kept_showEnvelope {M : List Part} [Has M .registers] (s : State) (l : Loaded) (slotB : Bool) : kept M
    (showEnvelope s l slotB) = kept M s := by
  unfold showEnvelope
  simp only [kept_forIdx, implies_true, kept_put, kept_putFlag]

theorem kept_routeSources {M : List Part} [Has M .policy] (s : State) (slot : Nat) : kept M (routeSources s slot) =
    kept M s := by
  unfold routeSources
  simp only [kept_ite, ite_self, kept_foldl, kept_forIdx, implies_true, kept_putCmt]

theorem kept_initialEn {M : List Part} [Has M .registers] (s : State) (slot : Nat) : kept M (initialEn s slot) =
    kept M s := by
  unfold initialEn
  rw [kept_forIdx]
  intro i st
  split <;> simp only [kept_mk, true_or, or_true, and_self, listed, kept_ite, ite_self, kept_foldl, kept_forIdx,
    implies_true, kept_put]

theorem kept_loadEnvelope {M : List Part} [Has M .registers] [Has M .policy] [Has M .epochs] [Has M .tables] (s :
    State) (l : Loaded) (slotB : Bool) : kept M (loadEnvelope s l slotB) = kept M s := by
  unfold loadEnvelope
  simp only [kept_mk, true_or, or_true, and_self, listed, kept_put, kept_refreshStorage, kept_refreshCurrent,
    kept_setSlotPolicy, kept_setSlotCmt, kept_showStructural, kept_showEnvelope, kept_routeSources, kept_initialEn]

theorem kept_stageRefused {M : List Part} [Has M .registers] [Has M .accum] [Has M .intc] [Has M .host] [Has M .cpu]
    [Has M .io] (s : State) (m : Master) (a : Nat) : kept M (stageRefused s m a) = kept M s := by
  unfold stageRefused
  simp only [kept_bump, kept_reportWrite]

theorem kept_stageAccess {M : List Part} [Has M .registers] [Has M .accum] [Has M .jobs] [Has M .faults] [Has M
    .intc] [Has M .host] [Has M .cpu] [Has M .cont] [Has M .sheet] [Has M .wake] [Has M .io] (s : State) (m :
    Master) (a : Nat) (may : Bool) (effect : State → State) (h : ∀ t, kept M (effect t) = kept M t) : kept M
    (stageAccess s m a may effect) = kept M s := by
  unfold stageAccess
  (repeat' split) <;> simp only [kept_mk, true_or, or_true, and_self, listed, kept_ite, ite_self, kept_answer,
    kept_refuseWrite, kept_noteGrant, kept_accessWrite, kept_stageRefused, implies_true, h, id, implies_true]

theorem kept_takeOwnership {M : List Part} [Has M .registers] (s : State) (m : Master) : kept M (takeOwnership s m)
    = kept M s := by
  unfold takeOwnership
  simp only [kept_ite, ite_self, kept_put]

theorem kept_stageField {M : List Part} [Has M .epochs] (f : Fld) (k v : Nat) (s : State) : kept M (stageField f k v
    s) = kept M s := by
  unfold stageField
  simp only [kept_mk, true_or, or_true, and_self, listed, kept_ite, ite_self]

theorem kept_stageWrite {M : List Part} [Has M .registers] [Has M .epochs] (s : State) (a v : Nat) : kept M
    (stageWrite s a v) = kept M s := by
  unfold stageWrite
  simp only [kept_foldl, implies_true, kept_putFlag, kept_stageField]

theorem kept_cmtWrite {M : List Part} [Has M .registers] [Has M .accum] [Has M .jobs] [Has M .epochs] [Has M
    .faults] [Has M .intc] [Has M .host] [Has M .cpu] [Has M .cont] [Has M .sheet] [Has M .wake] [Has M .io] (s :
    State) (m : Master) (a v : Nat) : kept M (cmtWrite s m a v) = kept M s := by
  unfold cmtWrite
  simp only [kept_ite, ite_self, kept_stageAccess, kept_takeOwnership, kept_stageWrite, implies_true]

theorem kept_takeMark {M : List Part} [Has M .cpu] (s : State) (off n : Nat) : kept M (takeMark s off n) = kept M s
    := by
  unfold takeMark
  (repeat' split) <;> first | with_reducible rfl | (simp only [kept_ite, ite_self, kept_unmark]; done) | ((try dsimp only); (repeat' split) <;> first | with_reducible rfl | (simp only [kept_ite, ite_self, kept_unmark]; done))

theorem kept_stagePush {M : List Part} [Has M .registers] [Has M .accum] [Has M .jobs] [Has M .epochs] [Has M
    .faults] [Has M .intc] [Has M .host] [Has M .cpu] [Has M .cont] [Has M .sheet] [Has M .wake] [Has M .io] (s :
    State) (m : Master) (kind : Nat) : kept M (stagePush s m kind) = kept M s := by
  unfold stagePush
  extract_lets s1
  have h : kept M s1 = kept M s := by
    refine kept_stageAccess _ _ _ _ _ fun t => ?_
    dsimp only
    (repeat' split) <;> simp only [kept_mk, true_or, or_true, and_self, listed, kept_ite, ite_self, kept_put,
      kept_stageAccess, kept_takeOwnership, kept_takeMark, implies_true]
  clear_value s1
  (repeat' split) <;> simp only [kept_mk, true_or, or_true, and_self, listed, kept_ite, ite_self, kept_put,
    kept_stageAccess, kept_takeOwnership, kept_takeMark, implies_true, h]

theorem kept_emptySet {M : List Part} [Has M .registers] [Has M .epochs] (s : State) : kept M (emptySet s) = kept M
    s := by
  unfold emptySet
  simp only [kept_mk, true_or, or_true, and_self, listed, kept_put]

theorem kept_stageClaim {M : List Part} [Has M .registers] [Has M .accum] [Has M .jobs] [Has M .faults] [Has M
    .intc] [Has M .host] [Has M .cpu] [Has M .cont] [Has M .sheet] [Has M .wake] [Has M .io] (s : State) (m :
    Master) : kept M (stageClaim s m) = kept M s := by
  unfold stageClaim
  simp only [kept_stageAccess, kept_takeOwnership, implies_true]

theorem kept_stageRelease {M : List Part} [Has M .registers] [Has M .accum] [Has M .jobs] [Has M .faults] [Has M
    .intc] [Has M .host] [Has M .cpu] [Has M .cont] [Has M .sheet] [Has M .wake] [Has M .io] (s : State) (m :
    Master) : kept M (stageRelease s m) = kept M s := by
  unfold stageRelease
  simp only [kept_put, kept_stageAccess, implies_true]

theorem kept_stageDiscard {M : List Part} [Has M .registers] [Has M .accum] [Has M .jobs] [Has M .epochs] [Has M
    .faults] [Has M .intc] [Has M .host] [Has M .cpu] [Has M .cont] [Has M .sheet] [Has M .wake] [Has M .io] (s :
    State) (m : Master) : kept M (stageDiscard s m) = kept M s := by
  unfold stageDiscard
  simp only [kept_put, kept_stageAccess, kept_emptySet, implies_true]

theorem kept_commitResult {M : List Part} [Has M .registers] [Has M .accum] [Has M .intc] [Has M .host] [Has M .io]
    (s : State) (r : Nat) : kept M (commitResult s r) = kept M s := by
  unfold commitResult
  simp only [kept_ite, ite_self, kept_put, kept_raiseSource]

theorem kept_commitIdle {M : List Part} [Has M .registers] [Has M .jobs] [Has M .epochs] (s : State) : kept M
    (commitIdle s) = kept M s := by
  unfold commitIdle
  simp only [kept_mk, true_or, or_true, and_self, listed, kept_ite, ite_self, kept_put]

theorem kept_commitFail {M : List Part} [Has M .registers] [Has M .accum] [Has M .jobs] [Has M .policy] [Has M
    .epochs] [Has M .intc] [Has M .host] [Has M .img] [Has M .tables] [Has M .io] (s : State) (result item detail :
    Nat) : kept M (commitFail s result item detail) = kept M s := by
  unfold commitFail
  simp only [kept_mk, true_or, or_true, and_self, listed, kept_ite, ite_self, kept_put, kept_bump, kept_raiseTo,
    kept_dropSlot, kept_commitResult, kept_commitIdle]

theorem kept_applyStaged {M : List Part} [Has M .policy] (s : State) (slot : Nat) : kept M (applyStaged s slot) =
    kept M s := by
  unfold applyStaged
  simp only [kept_mk, true_or, or_true, and_self, listed]

theorem kept_reroute {M : List Part} [Has M .policy] (s : State) (base slot : Nat) : kept M (reroute s base slot) =
    kept M s := by
  unfold reroute
  simp only [kept_ite, ite_self, kept_foldl, kept_forIdx, implies_true, kept_putCmt]

theorem kept_takeMarks {M : List Part} [Has M .cpu] (s : State) (items : List StageItem) : kept M (takeMarks s
    items) = kept M s := by
  unfold takeMarks
  simp only [kept_ite, ite_self, kept_foldl, kept_forIdx, implies_true, kept_takeMark]

theorem kept_commitPrepare {M : List Part} [Has M .registers] [Has M .jobs] [Has M .policy] [Has M .epochs] [Has M
    .cpu] [Has M .tables] (s : State) (slot : Nat) : kept M (commitPrepare s slot) = kept M s := by
  unfold commitPrepare
  dsimp only
  (repeat' split) <;> simp only [kept_mk, true_or, or_true, and_self, listed, kept_put, kept_setSlotState,
    kept_enqueueJob, kept_refreshStorage, kept_setSlotPolicy, kept_applyStaged, kept_reroute, kept_takeMarks]

theorem kept_handoverPrepare {M : List Part} [Has M .registers] [Has M .jobs] [Has M .policy] [Has M .epochs] [Has M
    .img] [Has M .tables] (s : State) (slot : Nat) : kept M (handoverPrepare s slot) = kept M s := by
  unfold handoverPrepare
  dsimp only
  (repeat' split) <;> simp only [kept_mk, true_or, or_true, and_self, listed, kept_ite, ite_self, kept_foldl,
    implies_true, kept_put, kept_setSlotState, kept_putCmt, kept_enqueueOn, kept_refreshStorage, kept_setSlotPolicy,
    kept_reroute]

theorem kept_commitBegin {M : List Part} [Has M .registers] [Has M .accum] [Has M .jobs] [Has M .policy] [Has M
    .epochs] [Has M .intc] [Has M .host] [Has M .cpu] [Has M .img] [Has M .tables] [Has M .io] (s : State) (slot :
    Nat) : kept M (commitBegin s slot) = kept M s := by
  unfold commitBegin
  simp only [kept_ite, ite_self, kept_commitFail, kept_commitPrepare, kept_handoverPrepare]

theorem kept_commitReq {M : List Part} [Has M .registers] [Has M .accum] [Has M .jobs] [Has M .policy] [Has M
    .epochs] [Has M .faults] [Has M .intc] [Has M .host] [Has M .cpu] [Has M .cont] [Has M .img] [Has M .sheet] [Has
    M .tables] [Has M .wake] [Has M .io] (s : State) (m : Master) : kept M (commitReq s m) = kept M s := by
  unfold commitReq
  rw [kept_stageAccess]
  intro t
  dsimp only
  (repeat' split) <;> simp only [kept_mk, true_or, or_true, and_self, listed, kept_ite, ite_self, kept_put,
    kept_bump, kept_stageAccess, kept_commitResult, kept_commitBegin, implies_true]

theorem kept_prepEnds {M : List Part} [Has M .registers] [Has M .accum] [Has M .jobs] [Has M .epochs] [Has M .cpu]
    [Has M .sheet] (s : State) : kept M (prepEnds s) = kept M s := by
  unfold prepEnds
  (repeat' split) <;> first | with_reducible rfl | (simp only [kept_mk, true_or, or_true, and_self, listed, kept_ite, ite_self, kept_requestSp, kept_takeMarks]; done) | ((try dsimp only); (repeat' split) <;> first | with_reducible rfl | (simp only [kept_mk, true_or, or_true, and_self, listed, kept_ite, ite_self, kept_requestSp, kept_takeMarks]; done))

theorem kept_commitSealed {M : List Part} [Has M .epochs] (s : State) (type : Nat) (body : List Byte) : kept M
    (commitSealed s type body) = kept M s := by
  unfold commitSealed
  simp only [kept_mk, true_or, or_true, and_self, listed, kept_ite, ite_self]

theorem kept_commitArm {M : List Part} [Has M .registers] [Has M .accum] [Has M .jobs] [Has M .policy] [Has M
    .epochs] [Has M .intc] [Has M .host] [Has M .img] [Has M .tables] [Has M .io] (s : State) : kept M (commitArm s)
    = kept M s := by
  unfold commitArm
  (repeat' split) <;> simp only [kept_mk, true_or, or_true, and_self, listed, kept_put, kept_commitFail]

theorem kept_commitCancel {M : List Part} [Has M .registers] [Has M .accum] [Has M .jobs] [Has M .policy] [Has M
    .epochs] [Has M .faults] [Has M .intc] [Has M .host] [Has M .cpu] [Has M .cont] [Has M .img] [Has M .sheet] [Has
    M .tables] [Has M .wake] [Has M .io] (s : State) (m : Master) : kept M (commitCancel s m) = kept M s := by
  unfold commitCancel
  simp only [kept_ite, ite_self, kept_put, kept_stageAccess, kept_commitFail, implies_true]

theorem kept_commitSwitch {M : List Part} [Has M .registers] [Has M .accum] [Has M .jobs] [Has M .epochs] [Has M
    .intc] [Has M .host] [Has M .io] (s : State) : kept M (commitSwitch s) = kept M s := by
  unfold commitSwitch
  simp only [kept_mk, true_or, or_true, and_self, listed, kept_ite, ite_self, kept_put, kept_setSlotState,
    kept_refreshCurrent, kept_emptySet, kept_commitResult, kept_commitIdle]

theorem kept_showLatched {M : List Part} [Has M .registers] (s : State) : kept M (showLatched s) = kept M s := by
  unfold showLatched
  simp only [kept_put]

theorem kept_epochLatch {M : List Part} [Has M .registers] [Has M .epochs] (s : State) (m : Master) : kept M
    (epochLatch s m) = kept M s := by
  unfold epochLatch
  simp only [kept_mk, true_or, or_true, and_self, listed, kept_put, kept_showLatched]

theorem kept_epochUnlatch {M : List Part} [Has M .registers] [Has M .epochs] (s : State) (m : Master) : kept M
    (epochUnlatch s m) = kept M s := by
  unfold epochUnlatch
  simp only [kept_mk, true_or, or_true, and_self, listed, kept_put, kept_showLatched]

theorem kept_freeNow {M : List Part} [Has M .registers] [Has M .accum] [Has M .jobs] [Has M .policy] [Has M .epochs]
    [Has M .intc] [Has M .host] [Has M .cpu] [Has M .img] [Has M .tables] [Has M .io] (s : State) (slot : Nat) :
    kept M (freeNow s slot) = kept M s := by
  unfold freeNow
  simp only [kept_mk, true_or, or_true, and_self, listed, kept_ite, ite_self, kept_put, kept_bumpBy, kept_raiseTo,
    kept_dropSlot, kept_commitBegin]

theorem kept_releaseLatches {M : List Part} [Has M .registers] [Has M .epochs] (s : State) (slot : Nat) : kept M
    (releaseLatches s slot) = kept M s := by
  unfold releaseLatches
  simp only [kept_mk, true_or, or_true, and_self, listed, kept_ite, ite_self, kept_foldl, kept_forIdx, implies_true,
    kept_put, kept_showLatched]

theorem kept_slotFree {M : List Part} [Has M .registers] [Has M .accum] [Has M .jobs] [Has M .policy] [Has M
    .epochs] [Has M .intc] [Has M .host] [Has M .cpu] [Has M .img] [Has M .tables] [Has M .io] (s : State) (slot :
    Nat) : kept M (slotFree s slot) = kept M s := by
  unfold slotFree
  simp only [kept_ite, ite_self, kept_freeNow]

theorem kept_count64 {M : List Part} [Has M .registers] (s : State) (f : Fld) : kept M (count64 s f) = kept M s :=
    by
  unfold count64
  simp only [kept_put]

theorem kept_uncount64 {M : List Part} [Has M .registers] (s : State) (f : Fld) : kept M (uncount64 s f) = kept M s
    := by
  unfold uncount64
  simp only [kept_put]

theorem kept_countSlot {M : List Part} [Has M .registers] (s : State) (cls : Fld) : kept M (countSlot s cls) = kept
    M s := by
  unfold countSlot
  simp only [kept_count64]

theorem kept_slotRetire {M : List Part} [Has M .registers] [Has M .frames] (s : State) : kept M (slotRetire s) =
    kept M s := by
  unfold slotRetire
  simp only [kept_mk, true_or, or_true, and_self, listed, kept_countSlot]

theorem kept_slotWaste {M : List Part} [Has M .registers] [Has M .frames] (s : State) : kept M (slotWaste s) = kept
    M s := by
  unfold slotWaste
  simp only [kept_mk, true_or, or_true, and_self, listed, kept_countSlot]

theorem kept_mib {M : List Part} [Has M .frames] (s : State) (p i n : Nat) : kept M (mib s p i n) = kept M s := by
  unfold mib
  simp only [kept_mk, true_or, or_true, and_self, listed]

theorem kept_countIn {M : List Part} [Has M .registers] [Has M .accum] (s : State) (p : Nat) (f : Fld) : kept M
    (countIn s p f) = kept M s := by
  unfold countIn
  simp only [kept_ite, ite_self, kept_bump]

theorem kept_takeCells {M : List Part} [Has M .registers] [Has M .frames] (s : State) (pool port n : Nat) : kept M
    (takeCells s pool port n) = kept M s := by
  unfold takeCells
  (repeat' split) <;> simp only [kept_mk, true_or, or_true, and_self, listed, kept_showPools]

theorem kept_giveCells {M : List Part} [Has M .registers] [Has M .frames] (s : State) (pool port n : Nat) : kept M
    (giveCells s pool port n) = kept M s := by
  unfold giveCells
  (repeat' split) <;> simp only [kept_mk, true_or, or_true, and_self, listed, kept_showPools]

theorem kept_tagUnit {M : List Part} [Has M .registers] (s : State) (slot : Nat) : kept M (tagUnit s slot) = kept M
    s := by
  unfold tagUnit
  simp only [kept_put]

theorem kept_untagUnit {M : List Part} [Has M .registers] (s : State) (slot : Nat) : kept M (untagUnit s slot) =
    kept M s := by
  unfold untagUnit
  simp only [kept_ite, ite_self, kept_put]

theorem kept_setPacket {M : List Part} [Has M .frames] (s : State) (u : Nat) (pk : Packet) : kept M (setPacket s u
    pk) = kept M s := by
  unfold setPacket
  simp only [kept_mk, true_or, or_true, and_self, listed]

theorem kept_cellsFreed {M : List Part} [Has M .host] (s : State) (u : Nat) : kept M (cellsFreed s u) = kept M s :=
    by
  unfold cellsFreed
  simp only [kept_mk, true_or, or_true, and_self, listed]

theorem kept_freePacket {M : List Part} [Has M .registers] [Has M .host] [Has M .frames] (s : State) (u : Nat) :
    kept M (freePacket s u) = kept M s := by
  unfold freePacket
  (repeat' split) <;> simp only [kept_mk, true_or, or_true, and_self, listed, kept_giveCells, kept_untagUnit,
    kept_setPacket, kept_cellsFreed]

theorem kept_dropPolicy {M : List Part} [Has M .registers] [Has M .host] [Has M .frames] (s : State) (u : Nat) :
    kept M (dropPolicy s u) = kept M s := by
  unfold dropPolicy
  (repeat' split) <;> first | with_reducible rfl | (simp only [kept_ite, ite_self, kept_setPacket, kept_freePacket]; done) | ((try dsimp only); (repeat' split) <;> first | with_reducible rfl | (simp only [kept_ite, ite_self, kept_setPacket, kept_freePacket]; done))

theorem kept_releaseRef {M : List Part} [Has M .registers] [Has M .host] [Has M .frames] (s : State) (u : Nat) :
    kept M (releaseRef s u) = kept M s := by
  unfold releaseRef
  (repeat' split) <;> simp only [kept_setPacket, kept_freePacket]

theorem kept_releasePolicy {M : List Part} [Has M .registers] [Has M .host] [Has M .frames] (s : State) (u : Nat) :
    kept M (releasePolicy s u) = kept M s := by
  unfold releasePolicy
  (repeat' split) <;> first | with_reducible rfl | (simp only [kept_ite, ite_self, kept_dropPolicy, kept_releaseRef]; done) | ((try dsimp only); (repeat' split) <;> first | with_reducible rfl | (simp only [kept_ite, ite_self, kept_dropPolicy, kept_releaseRef]; done))

theorem kept_moveWasted {M : List Part} [Has M .registers] [Has M .accum] [Has M .frames] (s : State) (u : Nat) :
    kept M (moveWasted s u) = kept M s := by
  unfold moveWasted
  (repeat' split) <;> simp only [kept_bump, kept_count64, kept_uncount64, kept_setPacket]

theorem kept_setQueue {M : List Part} [Has M .frames] (s : State) (p q : Nat) (l : List Replica) : kept M (setQueue
    s p q l) = kept M s := by
  unfold setQueue
  simp only [kept_mk, true_or, or_true, and_self, listed]

theorem kept_linkDownDrop {M : List Part} [Has M .registers] [Has M .accum] [Has M .host] [Has M .frames] (s :
    State) (p : Nat) (r : Replica) : kept M (linkDownDrop s p r) = kept M s := by
  unfold linkDownDrop
  simp only [kept_bump, kept_releaseRef]

theorem kept_deliveredUp {M : List Part} [Has M .registers] [Has M .host] [Has M .frames] (s : State) (u : Nat) :
    kept M (deliveredUp s u) = kept M s := by
  unfold deliveredUp
  (repeat' split) <;> first | with_reducible rfl | (simp only [kept_ite, ite_self, kept_setPacket, kept_releaseRef]; done) | ((try dsimp only); (repeat' split) <;> first | with_reducible rfl | (simp only [kept_ite, ite_self, kept_setPacket, kept_releaseRef]; done))

theorem kept_flushPort {M : List Part} [Has M .registers] [Has M .accum] [Has M .host] [Has M .frames] (s : State)
    (p : Nat) : kept M (flushPort s p) = kept M s := by
  unfold flushPort
  (repeat' split) <;> first | with_reducible rfl | (simp only [kept_mk, true_or, or_true, and_self, listed, kept_foldl, kept_forIdx, implies_true, kept_setQueue, kept_linkDownDrop, kept_deliveredUp]; done) | ((try dsimp only); (repeat' split) <;> first | with_reducible rfl | (simp only [kept_mk, true_or, or_true, and_self, listed, kept_foldl, kept_forIdx, implies_true, kept_setQueue, kept_linkDownDrop, kept_deliveredUp]; done))

theorem kept_unqueue {M : List Part} [Has M .registers] [Has M .frames] [Has M .edge] (s : State) (u : Nat) : kept M
    (unqueue s u) = kept M s := by
  unfold unqueue
  simp only [kept_mk, true_or, or_true, and_self, listed, kept_put]

theorem kept_stompOn {M : List Part} [Has M .registers] [Has M .accum] [Has M .frames] (s : State) (u missing : Nat)
    : kept M (stompOn s u missing) = kept M s := by
  unfold stompOn
  simp only [kept_mk, true_or, or_true, and_self, listed, kept_ite, ite_self, kept_foldl, implies_true, kept_bump]

theorem kept_proveBad {M : List Part} [Has M .registers] [Has M .accum] [Has M .host] [Has M .frames] [Has M .edge]
    (s : State) (u : Nat) : kept M (proveBad s u) = kept M s := by
  unfold proveBad
  dsimp only
  (repeat' split) <;> simp only [kept_countIn, kept_setPacket, kept_freePacket, kept_moveWasted, kept_unqueue,
    kept_stompOn]

theorem kept_loseFrame {M : List Part} [Has M .registers] [Has M .accum] [Has M .host] [Has M .frames] [Has M .edge]
    (s : State) (u : Nat) (pk : Packet) : kept M (loseFrame s u pk) = kept M s := by
  unfold loseFrame
  simp only [kept_mk, true_or, or_true, and_self, listed, kept_ite, ite_self, kept_mib, kept_setPacket,
    kept_moveWasted, kept_proveBad]

theorem kept_loseIngress {M : List Part} [Has M .registers] [Has M .accum] [Has M .host] [Has M .frames] [Has M
    .edge] (s : State) (p : Nat) : kept M (loseIngress s p) = kept M s := by
  unfold loseIngress
  simp only [kept_ite, ite_self, kept_foldl, implies_true, kept_loseFrame]

theorem kept_netSync {M : List Part} [Has M .wake] (s : State) (n : Nat) : kept M (netSync s n) = kept M s := by
  unfold netSync
  (repeat' split) <;> simp only [kept_mk, true_or, or_true, and_self, listed]

theorem kept_netHit {M : List Part} [Has M .wake] (s : State) (n : Nat) (h : NetHit) : kept M (netHit s n h) = kept
    M s := by
  unfold netHit
  simp only [kept_mk, true_or, or_true, and_self, listed, kept_ite, ite_self, kept_netSync]

theorem kept_noteHits {M : List Part} [Has M .wake] [Has M .draws] (s : State) (source : Nat) (l : List (List Byte ×
    Option Nat)) : kept M (noteHits s source l) = kept M s := by
  unfold noteHits
  rw [kept_foldl]
  intro st x
  dsimp only
  split <;> simp only [kept_mk, true_or, or_true, and_self, listed, kept_ite, ite_self, kept_foldl, kept_forIdx,
    implies_true, kept_draw, kept_netHit]

theorem kept_countEnd {M : List Part} [Has M .registers] [Has M .accum] [Has M .frames] (s : State) (p k : Nat) :
    kept M (countEnd s p k) = kept M s := by
  unfold countEnd
  (repeat' split) <;> first | with_reducible rfl | (simp only [kept_mk, true_or, or_true, and_self, listed, kept_ite, ite_self, kept_bump]; done) | ((try dsimp only); (repeat' split) <;> first | with_reducible rfl | (simp only [kept_mk, true_or, or_true, and_self, listed, kept_ite, ite_self, kept_bump]; done))

theorem kept_receiveUnit {M : List Part} [Has M .wake] [Has M .draws] (s : State) (source : Nat) (l : List (List
    Byte × Option Nat)) : kept M (receiveUnit s source l).2 = kept M s := by
  unfold receiveUnit
  dsimp only
  (repeat' split) <;> simp only [kept_requestAbort, kept_noteHits]

theorem kept_receiveMsg {M : List Part} [Has M .registers] [Has M .accum] [Has M .frames] [Has M .wake] [Has M
    .draws] (s : State) (ch : Nat) (m : BusMsg) : kept M (receiveMsg s ch m).2 = kept M s := by
  unfold receiveMsg
  (repeat' split) <;> first | with_reducible rfl | (simp only [kept_countEnd, kept_receiveUnit]; done) | ((try dsimp only); (repeat' split) <;> first | with_reducible rfl | (simp only [kept_countEnd, kept_receiveUnit]; done))

theorem kept_receiveFrame {M : List Part} [Has M .wake] [Has M .draws] (s : State) (p : Nat) (bs : List Byte) : kept
    M (receiveFrame s p bs).2 = kept M s := by
  unfold receiveFrame
  simp only [kept_receiveUnit]

theorem kept_networkIdle {M : List Part} [Has M .wake] (s : State) (n : Nat) : kept M (networkIdle s n) = kept M s
    := by
  unfold networkIdle
  simp only [kept_netSync]

theorem kept_maxAwake {M : List Part} [Has M .registers] [Has M .accum] [Has M .jobs] [Has M .sheet] [Has M .wake]
    (s : State) (n : Nat) : kept M (maxAwake s n) = kept M s := by
  unfold maxAwake
  (repeat' split) <;> simp only [kept_mk, true_or, or_true, and_self, listed, kept_ite, ite_self, kept_journal]

theorem kept_netClrWrite {M : List Part} [Has M .wake] (s : State) (w : Nat) : kept M (netClrWrite s w) = kept M s
    := by
  unfold netClrWrite
  simp only [kept_mk, true_or, or_true, and_self, listed]

theorem kept_setSa {M : List Part} [Has M .registers] [Has M .frames] (s : State) (p i key : Nat) (x : FormerSa) :
    kept M (setSa s p i key x) = kept M s := by
  unfold setSa
  simp only [kept_mk, true_or, or_true, and_self, listed, kept_ite, ite_self, kept_put, kept_putFlag]

theorem kept_dropHeld {M : List Part} [Has M .registers] [Has M .accum] [Has M .frames] (s : State) (u : Nat) (f :
    Fld) : kept M (dropHeld s u f) = kept M s := by
  unfold dropHeld
  simp only [kept_mk, true_or, or_true, and_self, listed, kept_bump]

theorem kept_enterStaging {M : List Part} [Has M .registers] [Has M .accum] [Has M .frames] [Has M .wake] [Has M
    .draws] (s : State) (u : Nat) (pk : Packet) : kept M (enterStaging s u pk) = kept M s := by
  unfold enterStaging
  (repeat' split) <;> first | with_reducible rfl | (simp only [kept_mk, true_or, or_true, and_self, listed, kept_ite, ite_self, kept_countIn, kept_setPacket, kept_countEnd, kept_receiveFrame]; done) | ((try dsimp only); (repeat' split) <;> first | with_reducible rfl | (simp only [kept_mk, true_or, or_true, and_self, listed, kept_ite, ite_self, kept_countIn, kept_setPacket, kept_countEnd, kept_receiveFrame]; done))

theorem kept_secEntry {M : List Part} [Has M .registers] [Has M .accum] [Has M .frames] [Has M .wake] [Has M .draws]
    (s : State) (u : Nat) (pk : Packet) (cfg : RxCfg) : kept M (secEntry s u pk cfg) = kept M s := by
  unfold secEntry
  (repeat' split) <;> first | with_reducible rfl | (simp only [kept_ite, ite_self, kept_countDenied, kept_setPacket, kept_dropHeld, kept_enterStaging]; done) | ((try dsimp only); (repeat' split) <;> first | with_reducible rfl | (simp only [kept_ite, ite_self, kept_countDenied, kept_setPacket, kept_dropHeld, kept_enterStaging]; done))

theorem kept_acceptHeld {M : List Part} [Has M .registers] [Has M .accum] [Has M .frames] [Has M .wake] [Has M
    .draws] (s : State) (u : Nat) (pk : Packet) (h : RxHold) : kept M (acceptHeld s u pk h) = kept M s := by
  unfold acceptHeld
  simp only [kept_ite, ite_self, kept_bump, kept_setSa, kept_enterStaging]

theorem kept_lineWait {M : List Part} [Has M .registers] [Has M .draws] (s : State) : kept M (lineWait s) = kept M s
    := by
  unfold lineWait
  simp only [kept_raiseTo, kept_draw]

theorem kept_macsecIcvCheck {M : List Part} [Has M .registers] [Has M .accum] [Has M .frames] [Has M .wake] [Has M
    .draws] (s : State) (p : Nat) : kept M (macsecIcvCheck s p) = kept M s := by
  unfold macsecIcvCheck
  (repeat' split) <;> simp only [kept_ite, ite_self, kept_countAborted, kept_dropHeld, kept_acceptHeld, kept_lineWait]

theorem kept_txAdvance {M : List Part} [Has M .registers] [Has M .accum] [Has M .intc] [Has M .host] [Has M .frames]
    [Has M .io] (s : State) (slot p an key : Nat) (sa : FormerSa) (xpn : Bool) : kept M (txAdvance s slot p an key
    sa xpn) = kept M s := by
  unfold txAdvance
  simp only [kept_ite, ite_self, kept_bump, kept_portEvent, kept_setSa]

theorem kept_protectFrame {M : List Part} [Has M .registers] [Has M .accum] [Has M .intc] [Has M .host] [Has M
    .frames] [Has M .io] [Has M .draws] (s : State) (slot p : Nat) (bs : List Byte) : kept M (protectFrame s slot p
    bs).2 = kept M s := by
  unfold protectFrame
  dsimp only
  (repeat' split) <;> simp only [kept_bump, kept_countDenied, kept_lineWait, kept_txAdvance]

theorem kept_keepFormer {M : List Part} [Has M .frames] (o p i : Nat) (s : State) : kept M (keepFormer o p i s) =
    kept M s := by
  unfold keepFormer
  simp only [kept_mk, true_or, or_true, and_self, listed, kept_ite, ite_self]

theorem kept_loadPn {M : List Part} [Has M .registers] [Has M .frames] (refilled : Nat → Bool) (was : Option Nat) (p
    i : Nat) (s0 : State) : kept M (loadPn refilled was p i s0) = kept M s0 := by
  unfold loadPn
  (repeat' split) <;> first | with_reducible rfl | (simp only [kept_ite, ite_self, kept_put, kept_keepFormer]; done) | ((try dsimp only); (repeat' split) <;> first | with_reducible rfl | (simp only [kept_ite, ite_self, kept_put, kept_keepFormer]; done))

theorem kept_loadPns {M : List Part} [Has M .registers] [Has M .frames] (s : State) (refilled : Nat → Bool) (was :
    Option Nat) : kept M (loadPns s refilled was) = kept M s := by
  unfold loadPns
  simp only [kept_ite, ite_self, kept_forIdx, implies_true, kept_loadPn]

theorem kept_cutRevoked {M : List Part} [Has M .registers] [Has M .accum] [Has M .frames] (s : State) : kept M
    (cutRevoked s) = kept M s := by
  unfold cutRevoked
  rw [kept_foldl]
  intro st x
  (repeat' split) <;> simp only [kept_mk, true_or, or_true, and_self, listed, kept_ite, ite_self, kept_foldl,
    kept_forIdx, implies_true, kept_bump, kept_countAborted]

theorem kept_enterLink {M : List Part} [Has M .registers] [Has M .links] (s : State) (p st : Nat) : kept M
    (enterLink s p st) = kept M s := by
  unfold enterLink
  simp only [kept_mk, true_or, or_true, and_self, listed, kept_put]

theorem kept_showPreempt {M : List Part} [Has M .registers] (s : State) (p : Nat) : kept M (showPreempt s p) = kept
    M s := by
  unfold showPreempt
  simp only [kept_putFlag]

theorem kept_setVerify {M : List Part} [Has M .registers] (s : State) (p st : Nat) : kept M (setVerify s p st) =
    kept M s := by
  unfold setVerify
  simp only [kept_put, kept_showPreempt]

theorem kept_sendVerify {M : List Part} [Has M .links] [Has M .io] (s : State) (p n : Nat) : kept M (sendVerify s p
    n) = kept M s := by
  unfold sendVerify
  (repeat' split) <;> first | with_reducible rfl | (simp only [kept_mk, true_or, or_true, and_self, listed, kept_emit]; done) | ((try dsimp only); (repeat' split) <;> first | with_reducible rfl | (simp only [kept_mk, true_or, or_true, and_self, listed, kept_emit]; done))

theorem kept_answerVerify {M : List Part} [Has M .io] (s : State) (p : Nat) : kept M (answerVerify s p) = kept M s
    := by
  unfold answerVerify
  simp only [kept_ite, ite_self, kept_emit]

theorem kept_startVerify {M : List Part} [Has M .registers] [Has M .links] [Has M .io] (s : State) (p : Nat) : kept
    M (startVerify s p) = kept M s := by
  unfold startVerify
  simp only [kept_ite, ite_self, kept_setVerify, kept_sendVerify]

theorem kept_verifyResponse {M : List Part} [Has M .registers] (s : State) (p : Nat) : kept M (verifyResponse s p) =
    kept M s := by
  unfold verifyResponse
  simp only [kept_ite, ite_self, kept_setVerify]

theorem kept_verifyTimeout {M : List Part} [Has M .registers] [Has M .accum] [Has M .intc] [Has M .host] [Has M
    .links] [Has M .io] (s : State) (p : Nat) : kept M (verifyTimeout s p) = kept M s := by
  unfold verifyTimeout
  simp only [kept_ite, ite_self, kept_portEvent, kept_setVerify, kept_sendVerify]

theorem kept_sendBeacon {M : List Part} [Has M .io] (s : State) (p : Nat) : kept M (sendBeacon s p) = kept M s := by
  unfold sendBeacon
  simp only [kept_ite, ite_self, kept_emit]

theorem kept_goUp {M : List Part} [Has M .registers] [Has M .accum] [Has M .intc] [Has M .host] [Has M .links] [Has
    M .io] (s : State) (p speed : Nat) : kept M (goUp s p speed) = kept M s := by
  unfold goUp
  simp only [kept_put, kept_portEvent, kept_enterLink, kept_startVerify, kept_sendBeacon]

theorem kept_plcaDrop {M : List Part} [Has M .registers] [Has M .accum] [Has M .intc] [Has M .host] [Has M .io] (s :
    State) (p : Nat) : kept M (plcaDrop s p) = kept M s := by
  unfold plcaDrop
  simp only [kept_ite, ite_self, kept_put, kept_portEvent]

theorem kept_goDown {M : List Part} [Has M .registers] [Has M .accum] [Has M .intc] [Has M .host] [Has M .frames]
    [Has M .links] [Has M .edge] [Has M .io] (s : State) (p next : Nat) : kept M (goDown s p next) = kept M s := by
  unfold goDown
  simp only [kept_put, kept_portEvent, kept_flushPort, kept_loseIngress, kept_enterLink, kept_setVerify,
    kept_plcaDrop]

theorem kept_startTraining {M : List Part} [Has M .registers] [Has M .links] (s : State) (p : Nat) : kept M
    (startTraining s p) = kept M s := by
  unfold startTraining
  simp only [kept_enterLink, kept_showPreempt]

theorem kept_applyAdmin {M : List Part} [Has M .registers] [Has M .accum] [Has M .intc] [Has M .host] [Has M
    .frames] [Has M .links] [Has M .edge] [Has M .io] (p : Nat) (s : State) : kept M (applyAdmin p s) = kept M s :=
    by
  unfold applyAdmin
  simp only [kept_ite, ite_self, kept_enterLink, kept_goUp, kept_goDown, kept_startTraining]

theorem kept_applyAdmins {M : List Part} [Has M .registers] [Has M .accum] [Has M .intc] [Has M .host] [Has M
    .frames] [Has M .links] [Has M .edge] [Has M .io] (s : State) : kept M (applyAdmins s) = kept M s := by
  unfold applyAdmins
  simp only [kept_forIdx, implies_true, kept_applyAdmin]

theorem kept_applyPreempt {M : List Part} [Has M .registers] [Has M .frames] [Has M .links] [Has M .io] (p : Nat) (s
    : State) : kept M (applyPreempt p s) = kept M s := by
  unfold applyPreempt
  simp only [kept_ite, ite_self, kept_settlePreempt, kept_showPreempt, kept_setVerify, kept_startVerify]

theorem kept_partnerChange {M : List Part} [Has M .registers] [Has M .links] (s : State) (p sig : Nat) : kept M
    (partnerChange s p sig) = kept M s := by
  unfold partnerChange
  simp only [kept_ite, ite_self, kept_put, kept_enterLink]

theorem kept_linkEstablished {M : List Part} [Has M .registers] [Has M .accum] [Has M .intc] [Has M .host] [Has M
    .links] [Has M .io] (s : State) (p sig : Nat) : kept M (linkEstablished s p sig) = kept M s := by
  unfold linkEstablished
  simp only [kept_mk, true_or, or_true, and_self, listed, kept_ite, ite_self, kept_put, kept_goUp, kept_partnerChange]

theorem kept_retainedTimeout {M : List Part} [Has M .registers] [Has M .links] (s : State) (p : Nat) : kept M
    (retainedTimeout s p) = kept M s := by
  unfold retainedTimeout
  simp only [kept_ite, ite_self, kept_put, kept_enterLink]

theorem kept_fullTimeout {M : List Part} [Has M .registers] [Has M .accum] [Has M .intc] [Has M .host] [Has M
    .links] [Has M .io] (s : State) (p : Nat) : kept M (fullTimeout s p) = kept M s := by
  unfold fullTimeout
  simp only [kept_ite, ite_self, kept_bump, kept_portEvent, kept_enterLink]

theorem kept_linkLoss {M : List Part} [Has M .registers] [Has M .accum] [Has M .intc] [Has M .host] [Has M .frames]
    [Has M .links] [Has M .edge] [Has M .io] (s : State) (p : Nat) : kept M (linkLoss s p) = kept M s := by
  unfold linkLoss
  simp only [kept_ite, ite_self, kept_goDown]

theorem kept_laneUp {M : List Part} [Has M .registers] [Has M .accum] [Has M .intc] [Has M .host] [Has M .links]
    [Has M .io] (s : State) (k speed : Nat) : kept M (laneUp s k speed) = kept M s := by
  unfold laneUp
  (repeat' split) <;> simp only [kept_ite, ite_self, kept_goUp]

theorem kept_laneDown {M : List Part} [Has M .registers] [Has M .accum] [Has M .intc] [Has M .host] [Has M .frames]
    [Has M .links] [Has M .edge] [Has M .io] (s : State) (k : Nat) : kept M (laneDown s k) = kept M s := by
  unfold laneDown
  simp only [kept_ite, ite_self, kept_goDown]

theorem kept_plcaStatus {M : List Part} [Has M .registers] [Has M .accum] [Has M .intc] [Has M .host] [Has M .io] (s
    : State) (p : Nat) (active : Bool) : kept M (plcaStatus s p active) = kept M s := by
  unfold plcaStatus
  simp only [kept_ite, ite_self, kept_putFlag, kept_portEvent, kept_sendBeacon]

theorem kept_beaconTimeout {M : List Part} [Has M .registers] [Has M .accum] [Has M .intc] [Has M .host] [Has M .io]
    (s : State) (p : Nat) : kept M (beaconTimeout s p) = kept M s := by
  unfold beaconTimeout
  simp only [kept_ite, ite_self, kept_plcaStatus]

theorem kept_checkCoefs {M : List Part} [Has M .registers] (s : State) : kept M (checkCoefs s) = kept M s := by
  unfold checkCoefs
  simp only [kept_ite, ite_self, kept_forIdx, implies_true, kept_put]

theorem kept_putWords {M : List Part} [Has M .registers] (s : State) (f : Nat → Fld) (n : Nat) (bs : List Byte) :
    kept M (putWords s f n bs) = kept M s := by
  unfold putWords
  simp only [kept_forIdx, implies_true, kept_put]

theorem kept_shadowMismatch {M : List Part} [Has M .registers] [Has M .accum] [Has M .jobs] [Has M .faults] [Has M
    .intc] [Has M .host] [Has M .cont] [Has M .sheet] [Has M .wake] [Has M .io] (s : State) (rule : Nat) (sh :
    Option (Nat × List Byte)) (unit : Nat) : kept M (shadowMismatch s rule sh unit) = kept M s := by
  unfold shadowMismatch
  simp only [kept_bump, kept_recordFault]

theorem kept_showFrags {M : List Part} [Has M .registers] (s : State) : kept M (showFrags s) = kept M s := by
  unfold showFrags
  simp only [kept_put, kept_raiseTo]

theorem kept_fragInsert {M : List Part} [Has M .registers] [Has M .tables] (s : State) (h : Hdr) (port slot rule :
    Nat) {t : State} (hs : fragInsert s h port slot rule = some t) : kept M t = kept M s := by
  simp only [fragInsert] at hs
  repeat' split at hs
  all_goals first | cases hs; simp only [kept_mk, true_or, or_true, and_self, listed, kept_showFrags]; done | (simp only [reduceCtorEq] at hs; done)

theorem kept_fragExpiry {M : List Part} [Has M .registers] [Has M .accum] [Has M .tables] (s : State) (i : Nat) :
    kept M (fragExpiry s i) = kept M s := by
  unfold fragExpiry
  (repeat' split) <;> simp only [kept_mk, true_or, or_true, and_self, listed, kept_bump, kept_showFrags]

theorem kept_clearFrags {M : List Part} [Has M .registers] [Has M .tables] (s : State) : kept M (clearFrags s) =
    kept M s := by
  unfold clearFrags
  simp only [kept_mk, true_or, or_true, and_self, listed, kept_put]

theorem kept_showConvs {M : List Part} [Has M .registers] (s : State) : kept M (showConvs s) = kept M s := by
  unfold showConvs
  simp only [kept_put]

theorem kept_convCreate {M : List Part} [Has M .registers] [Has M .accum] [Has M .tables] (s : State) (slot : Nat)
    (h : Hdr) (vid st cls : Nat) (mark : Option Nat) {t : State} (hs : convCreate s slot h vid st cls mark = some t)
    : kept M t = kept M s := by
  simp only [convCreate] at hs
  repeat' split at hs
  all_goals first | cases hs; simp only [kept_mk, true_or, or_true, and_self, listed, kept_bump, kept_showConvs]; done | (simp only [reduceCtorEq] at hs; done)

theorem kept_convUpdate {M : List Part} [Has M .registers] [Has M .accum] [Has M .tables] (s : State) (slot : Nat)
    (h : Hdr) (vid : Nat) (action : List Byte) {t : State} (hs : convUpdate s slot h vid action = some t) : kept M t
    = kept M s := by
  unfold convUpdate at hs
  dsimp only at hs
  repeat' split at hs
  all_goals first | exact kept_convCreate _ _ _ _ _ _ _ hs | (cases hs; simp only [kept_mk, true_or, or_true, and_self, listed, kept_ite, ite_self, kept_bump, kept_showConvs]; done)

theorem kept_convExpiry {M : List Part} [Has M .registers] [Has M .accum] [Has M .tables] (s : State) (i : Nat) :
    kept M (convExpiry s i) = kept M s := by
  unfold convExpiry
  (repeat' split) <;> simp only [kept_mk, true_or, or_true, and_self, listed, kept_bump, kept_showConvs]

theorem kept_clearConvs {M : List Part} [Has M .registers] [Has M .tables] (s : State) : kept M (clearConvs s) =
    kept M s := by
  unfold clearConvs
  simp only [kept_mk, true_or, or_true, and_self, listed, kept_showConvs]

theorem kept_convCtl {M : List Part} [Has M .registers] [Has M .tables] (s : State) (w : Nat) : kept M (convCtl s w)
    = kept M s := by
  unfold convCtl
  simp only [kept_mk, true_or, or_true, and_self, listed, kept_ite, ite_self, kept_put, kept_putWords]

theorem kept_convFlushDone {M : List Part} [Has M .registers] [Has M .tables] (s : State) : kept M (convFlushDone s)
    = kept M s := by
  unfold convFlushDone
  simp only [kept_mk, true_or, or_true, and_self, listed, kept_ite, ite_self, kept_put, kept_clearConvs]

theorem kept_clsResult {M : List Part} [Has M .registers] (s : State) (status mask : Nat) (bs : List Byte) : kept M
    (clsResult s status mask bs) = kept M s := by
  unfold clsResult
  simp only [kept_put, kept_putWords]

theorem kept_clsRead {M : List Part} [Has M .registers] (s : State) (m : Master) : kept M (clsRead s m) = kept M s
    := by
  unfold clsRead
  dsimp only
  (repeat' split) <;> simp only [kept_clsResult]

theorem kept_probeRequest {M : List Part} [Has M .registers] [Has M .tables] (s : State) (m : Master) : kept M
    (probeRequest s m) = kept M s := by
  unfold probeRequest
  (repeat' split) <;> simp only [kept_mk, true_or, or_true, and_self, listed, kept_put]

theorem kept_clsCtl {M : List Part} [Has M .registers] [Has M .tables] (s : State) (m : Master) (w : Nat) : kept M
    (clsCtl s m w) = kept M s := by
  unfold clsCtl
  simp only [kept_ite, ite_self, kept_put, kept_clsRead, kept_probeRequest]

theorem kept_probeResult {M : List Part} [Has M .registers] [Has M .tables] (s : State) (status rule : Nat) : kept M
    (probeResult s status rule) = kept M s := by
  unfold probeResult
  simp only [kept_mk, true_or, or_true, and_self, listed, kept_put]

theorem kept_probeLookup {M : List Part} [Has M .registers] [Has M .frames] [Has M .tables] (s : State) (slotIsFree
    : Bool) : kept M (probeLookup s slotIsFree) = kept M s := by
  unfold probeLookup
  (repeat' split) <;> simp only [kept_mk, true_or, or_true, and_self, listed, kept_countSlot, kept_probeResult]

theorem kept_shadowSelftest {M : List Part} [Has M .registers] [Has M .accum] [Has M .jobs] [Has M .faults] [Has M
    .intc] [Has M .host] [Has M .cont] [Has M .sheet] [Has M .frames] [Has M .tables] [Has M .wake] [Has M .io] (s :
    State) (idle flagged : Bool) : kept M (shadowSelftest s idle flagged) = kept M s := by
  unfold shadowSelftest
  simp only [kept_mk, true_or, or_true, and_self, listed, kept_ite, ite_self, kept_put, kept_putFlag, kept_bump,
    kept_recordFault, kept_countSlot]

theorem kept_contActWrite {M : List Part} [Has M .registers] [Has M .accum] [Has M .jobs] [Has M .cont] [Has M
    .sheet] (s : State) (m : Master) (w : Nat) : kept M (contActWrite s m w) = kept M s := by
  unfold contActWrite
  (repeat' split) <;> simp only [kept_bump, kept_contActivate]

theorem kept_loadRipcord {M : List Part} [Has M .cont] (s : State) : kept M (loadRipcord s) = kept M s := by
  unfold loadRipcord
  simp only [kept_mk, true_or, or_true, and_self, listed]

theorem kept_showRipcord {M : List Part} [Has M .registers] (s : State) : kept M (showRipcord s) = kept M s := by
  unfold showRipcord
  simp only [kept_putFlag]

theorem kept_ripcordAssert {M : List Part} [Has M .registers] [Has M .accum] [Has M .jobs] [Has M .cont] [Has M
    .sheet] [Has M .draws] (s : State) (ns : Nat) : kept M (ripcordAssert s ns) = kept M s := by
  have h : ∀ (st : State), kept M (if 700 < ns then (true, st) else if ns < 300 then (false, st) else
      ((draw st 2).1 == 1, (draw st 2).2)).2 = kept M st := by
    intro st; (repeat' split) <;> simp only [kept_mk, true_or, or_true, and_self, listed, kept_ite, ite_self,
      kept_put, kept_draw, kept_contActivate, kept_showRipcord]
  unfold ripcordAssert
  dsimp only
  (repeat' split) <;> simp only [kept_mk, true_or, or_true, and_self, listed, kept_ite, ite_self, kept_put,
    kept_draw, kept_contActivate, kept_showRipcord, h]

theorem kept_ripcordDeassert {M : List Part} [Has M .registers] [Has M .cont] (s : State) : kept M (ripcordDeassert
    s) = kept M s := by
  unfold ripcordDeassert
  simp only [kept_mk, true_or, or_true, and_self, listed, kept_ite, ite_self, kept_put, kept_showRipcord]

theorem kept_ripcordExpiry {M : List Part} [Has M .registers] (s : State) : kept M (ripcordExpiry s) = kept M s :=
    by
  unfold ripcordExpiry
  simp only [kept_ite, ite_self, kept_put]

theorem kept_ripcordAtStart {M : List Part} [Has M .registers] [Has M .accum] [Has M .jobs] [Has M .cont] [Has M
    .sheet] (s : State) : kept M (ripcordAtStart s) = kept M s := by
  unfold ripcordAtStart
  simp only [kept_mk, true_or, or_true, and_self, listed, kept_ite, ite_self, kept_contActivate, kept_showRipcord]

theorem kept_contRelWrite {M : List Part} [Has M .registers] [Has M .cont] (s : State) (m : Master) (w : Nat) : kept
    M (contRelWrite s m w) = kept M s := by
  unfold contRelWrite
  simp only [kept_mk, true_or, or_true, and_self, listed, kept_put]

theorem kept_contRelReqWrite {M : List Part} [Has M .registers] [Has M .accum] [Has M .intc] [Has M .host] [Has M
    .io] (s : State) (w : Nat) : kept M (contRelReqWrite s w) = kept M s := by
  unfold contRelReqWrite
  simp only [kept_ite, ite_self, kept_put, kept_raiseSource]

theorem kept_releaseProfile {M : List Part} [Has M .registers] [Has M .accum] [Has M .jobs] [Has M .cont] [Has M
    .sheet] (n : Nat) (s : State) (p : Nat) : kept M (releaseProfile n s p) = kept M s := by
  unfold releaseProfile
  simp only [kept_mk, true_or, or_true, and_self, listed, kept_ite, ite_self, kept_put, kept_bump, kept_journal]

theorem kept_releaseDue {M : List Part} [Has M .registers] [Has M .accum] [Has M .jobs] [Has M .cont] [Has M .sheet]
    (s : State) (n : Nat) : kept M (releaseDue s n) = kept M s := by
  unfold releaseDue
  simp only [kept_foldl, implies_true, kept_releaseProfile]

theorem kept_showLearned {M : List Part} [Has M .registers] (s : State) : kept M (showLearned s) = kept M s := by
  unfold showLearned
  simp only [kept_put]

theorem kept_learnMac {M : List Part} [Has M .registers] [Has M .accum] [Has M .tables] (s : State) (fid : Nat) (mac
    : List Byte) (p : Nat) : kept M (learnMac s fid mac p) = kept M s := by
  unfold learnMac
  dsimp only
  (repeat' split) <;> simp only [kept_mk, true_or, or_true, and_self, listed, kept_bump, kept_showLearned]

theorem kept_learnFrame {M : List Part} [Has M .registers] [Has M .accum] [Has M .tables] (s : State) (slot p passes
    vid : Nat) (bs : List Byte) : kept M (learnFrame s slot p passes vid bs) = kept M s := by
  unfold learnFrame
  (repeat' split) <;> simp only [kept_ite, ite_self, kept_learnMac]

theorem kept_fdbFlush {M : List Part} [Has M .registers] [Has M .tables] (s : State) (w : Nat) : kept M (fdbFlush s
    w) = kept M s := by
  unfold fdbFlush
  simp only [kept_mk, true_or, or_true, and_self, listed, kept_ite, ite_self, kept_put, kept_showLearned]

theorem kept_fdbAgeing {M : List Part} [Has M .registers] [Has M .tables] (s : State) (i : Nat) : kept M (fdbAgeing
    s i) = kept M s := by
  unfold fdbAgeing
  (repeat' split) <;> simp only [kept_mk, true_or, or_true, and_self, listed, kept_ite, ite_self, kept_showLearned]

theorem kept_fdbResult {M : List Part} [Has M .registers] (s : State) (status mask age : Nat) (mac : List Byte)
    (info : Nat) : kept M (fdbResult s status mask age mac info) = kept M s := by
  unfold fdbResult
  simp only [kept_put]

theorem kept_fdbAccCtl {M : List Part} [Has M .registers] (s : State) (m : Master) (w : Nat) : kept M (fdbAccCtl s m
    w) = kept M s := by
  unfold fdbAccCtl
  dsimp only
  (repeat' split) <;> simp only [kept_put, kept_fdbResult]

theorem kept_blockFilter {M : List Part} [Has M .registers] (s : State) (f : Nat) (b : List Byte) : kept M
    (blockFilter s f b) = kept M s := by
  unfold blockFilter
  simp only [kept_ite, ite_self, kept_put]

theorem kept_gatePolice {M : List Part} [Has M .registers] [Has M .tm] [Has M .draws] (s : State) (g l : Nat) : kept
    M (gatePolice s g l).2 = kept M s := by
  unfold gatePolice
  dsimp only
  (repeat' split) <;> simp only [kept_mk, true_or, or_true, and_self, listed, kept_put, kept_draw, kept_flowSync]

theorem kept_meterPolice {M : List Part} [Has M .tm] [Has M .draws] (s : State) (m l : Nat) (yellowIn : Bool) : kept
    M (meterPolice s m l yellowIn).2.2 = kept M s := by
  unfold meterPolice
  (repeat' split) <;> simp only [kept_mk, true_or, or_true, and_self, listed, kept_draw]

theorem kept_noteCharge {M : List Part} [Has M .frames] (s : State) (u : Nat) (passed : Option (Nat × List Byte))
    (charged : Option (Nat × Bool)) : kept M (noteCharge s u passed charged) = kept M s := by
  unfold noteCharge
  (repeat' split) <;> simp only [kept_setPacket]

theorem kept_police {M : List Part} [Has M .registers] [Has M .accum] [Has M .frames] [Has M .tm] [Has M .draws] (s
    : State) (u slot f l : Nat) (yellowIn : Bool) : kept M (police s u slot f l yellowIn).2 = kept M s := by
  unfold police
  dsimp only
  (repeat' split) <;> simp only [kept_bump, kept_blockFilter, kept_gatePolice, kept_meterPolice, kept_noteCharge]

theorem kept_avgStep {M : List Part} [Has M .frames] (s : State) (slot p q : Nat) : kept M (avgStep s slot p q) =
    kept M s := by
  unfold avgStep
  simp only [kept_mk, true_or, or_true, and_self, listed]

theorem kept_avgBoundary {M : List Part} [Has M .frames] (s : State) : kept M (avgBoundary s) = kept M s := by
  unfold avgBoundary
  simp only [kept_foldl, implies_true, kept_avgStep]

theorem kept_wredDrops {M : List Part} [Has M .draws] (s : State) (slot p q : Nat) (yellow : Bool) : kept M
    (wredDrops s slot p q yellow).2 = kept M s := by
  unfold wredDrops
  dsimp only
  (repeat' split) <;> simp only [kept_draw]

theorem kept_tagHead {M : List Part} [Has M .frames] (p q : Nat) (s : State) : kept M (tagHead p q s) = kept M s :=
    by
  unfold tagHead
  (repeat' split) <;> simp only [kept_setQueue]

theorem kept_tagHeads {M : List Part} [Has M .frames] (s : State) (p : Nat) : kept M (tagHeads s p) = kept M s := by
  unfold tagHeads
  simp only [kept_forIdx, implies_true, kept_tagHead]

theorem kept_tagAll {M : List Part} [Has M .frames] (s : State) : kept M (tagAll s) = kept M s := by
  unfold tagAll
  (repeat' split) <;> first | with_reducible rfl | (simp only [kept_ite, ite_self, kept_foldl, kept_forIdx, implies_true, kept_tagHead]; done) | ((try dsimp only); (repeat' split) <;> first | with_reducible rfl | (simp only [kept_ite, ite_self, kept_foldl, kept_forIdx, implies_true, kept_tagHead]; done))

theorem kept_timingWheelFire {M : List Part} [Has M .frames] [Has M .tm] (s : State) (t : WheelTarget) : kept M
    (timingWheelFire s t) = kept M s := by
  unfold timingWheelFire
  (repeat' split) <;> first | with_reducible rfl | (simp only [kept_ite, ite_self, kept_wheelFire, kept_tagHead]; done) | ((try dsimp only); (repeat' split) <;> first | with_reducible rfl | (simp only [kept_ite, ite_self, kept_wheelFire, kept_tagHead]; done))

theorem kept_judge {M : List Part} [Has M .draws] (s : State) (slot p q n : Nat) (mgmt one yellow : Bool) : kept M
    (judge s slot p q n mgmt one yellow).2 = kept M s := by
  unfold judge
  dsimp only
  (repeat' split) <;> simp only [kept_wredDrops]

theorem kept_enqueue {M : List Part} [Has M .registers] [Has M .accum] [Has M .host] [Has M .frames] [Has M .tm] (s
    : State) (slot u p q : Nat) (ct atomic shared : Bool) : kept M (enqueue s slot u p q ct atomic shared) = kept M
    s := by
  unfold enqueue
  simp only [kept_ite, ite_self, kept_wheelIfNegative, kept_portIfNegative, kept_setQueue, kept_linkDownDrop,
    kept_avgStep, kept_tagHead]

theorem kept_admitted {M : List Part} [Has M .frames] (s : State) (u pool port n refs : Nat) : kept M (admitted s u
    pool port n refs) = kept M s := by
  unfold admitted
  (repeat' split) <;> simp only [kept_setPacket]

theorem kept_judgeAll {M : List Part} [Has M .draws] (s : State) (slot n : Nat) (mgmt one yellow : Bool) (l : List (Nat × Nat)) :
    kept M (judgeAll s slot n mgmt one yellow l).2 = kept M s := by
  induction l generalizing s with
  | nil => rfl
  | cons a l ih => simp only [judgeAll, ih, kept_judge]

theorem kept_admitReplicas {M : List Part} [Has M .registers] [Has M .accum] [Has M .host] [Has M .frames] [Has M
    .tm] [Has M .draws] (s : State) (u : Nat) (pk : Packet) (n : Nat) (yellow atomic : Bool) (blocked : List Nat)
    (targets copies : List (Nat × Nat)) : kept M (admitReplicas s u pk n yellow atomic blocked targets copies) =
    kept M s := by
  have hb : ∀ (l : List ((Nat × Nat) × Judged)) (st : State), kept M (l.foldl (fun (st : State) j =>
      bump st (Reg.swAtomicRefused j.1.1)) st) = kept M st := by
    intro l st; rw [kept_foldl]; intro st x; simp only [kept_mk, true_or, or_true, and_self, listed, kept_ite,
      ite_self, kept_foldl, kept_forIdx, implies_true, kept_bump, kept_takeCells, kept_dropPolicy, kept_enqueue,
      kept_admitted]
  unfold admitReplicas
  dsimp only
  split
  · rw [kept_dropPolicy, kept_foldl]
    · (repeat' split) <;> simp only [kept_mk, true_or, or_true, and_self, listed, kept_ite, ite_self, kept_foldl,
      kept_forIdx, implies_true, kept_bump, kept_takeCells, kept_dropPolicy, kept_enqueue, kept_admitted, hb,
      kept_judgeAll]
    · intro st x; split <;> simp only [kept_mk, true_or, or_true, and_self, listed, kept_ite, ite_self, kept_foldl,
      kept_forIdx, implies_true, kept_bump, kept_takeCells, kept_dropPolicy, kept_enqueue, kept_admitted]
  · rw [kept_foldl, kept_admitted, kept_takeCells, kept_foldl]
    · (repeat' split) <;> simp only [kept_mk, true_or, or_true, and_self, listed, kept_ite, ite_self, kept_foldl,
      kept_forIdx, implies_true, kept_bump, kept_takeCells, kept_dropPolicy, kept_enqueue, kept_admitted, hb,
      kept_judgeAll]
    · intro st x; split <;> simp only [kept_mk, true_or, or_true, and_self, listed, kept_ite, ite_self, kept_foldl,
      kept_forIdx, implies_true, kept_bump, kept_takeCells, kept_dropPolicy, kept_enqueue, kept_admitted]
    · intro st x; simp only [kept_mk, true_or, or_true, and_self, listed, kept_ite, ite_self, kept_foldl,
      kept_forIdx, implies_true, kept_bump, kept_takeCells, kept_dropPolicy, kept_enqueue, kept_admitted]

theorem kept_admitOne {M : List Part} [Has M .registers] [Has M .frames] [Has M .draws] (s : State) (u : Nat) (pk :
    Packet) (p n : Nat) {t : State} (hs : admitOne s u pk p n = some t) : kept M t = kept M s := by
  simp only [admitOne] at hs
  repeat' split at hs
  all_goals first | cases hs; simp only [kept_takeCells, kept_admitted]; done | (simp only [reduceCtorEq] at hs; done)

theorem kept_showDepths {M : List Part} [Has M .registers] (s : State) (n : Nat) : kept M (showDepths s n) = kept M
    s := by
  unfold showDepths
  simp only [kept_put]

theorem kept_giveEdge {M : List Part} [Has M .registers] [Has M .frames] (s : State) (guar : Bool) (n : Nat) : kept
    M (giveEdge s guar n) = kept M s := by
  unfold giveEdge
  simp only [kept_giveCells]

theorem kept_takeRate {M : List Part} [Has M .edge] (s : State) (n : Nat) (b : List Byte) {t : State} (hs : takeRate
    s n b = some t) : kept M t = kept M s := by
  simp only [takeRate] at hs
  repeat' split at hs
  all_goals first | cases hs; simp only [kept_mk, true_or, or_true, and_self, listed]; done | (simp only [reduceCtorEq] at hs; done)

theorem kept_dropReceived {M : List Part} [Has M .registers] [Has M .accum] [Has M .frames] (s : State) (x :
    EdgeMsg) (f : Fld) : kept M (dropReceived s x f) = kept M s := by
  unfold dropReceived
  simp only [kept_bump, kept_untagUnit, kept_giveEdge]

theorem kept_setRxList {M : List Part} [Has M .registers] [Has M .edge] (s : State) (n : Nat) (l : List EdgeMsg) :
    kept M (setRxList s n l) = kept M s := by
  unfold setRxList
  simp only [kept_mk, true_or, or_true, and_self, listed, kept_showDepths]

theorem kept_advanceList {M : List Part} [Has M .registers] [Has M .accum] [Has M .frames] (s : State) (done l : List EdgeMsg) : kept M (advanceList s done l).2 = kept M s := by
  induction l generalizing s done with
  | nil => rfl
  | cons x l ih => rw [advanceList]; (repeat' split) <;> simp only [ih, kept_dropReceived, kept_countDenied]

theorem kept_advance {M : List Part} [Has M .registers] [Has M .accum] [Has M .frames] [Has M .edge] (s : State) (n
    : Nat) : kept M (advance s n) = kept M s := by
  unfold advance
  simp only [kept_mk, true_or, or_true, and_self, listed, kept_ite, ite_self, kept_setRxList, kept_advanceList]

theorem kept_takeEdge {M : List Part} [Has M .registers] [Has M .frames] (s : State) (n : Nat) {g : Bool} {t : State} (h : takeEdge s n = some (g, t)) :
    kept M t = kept M s := by
  unfold takeEdge at h
  repeat' split at h
  all_goals cases h <;> simp only [kept_takeCells]

theorem kept_receiveOn {M : List Part} [Has M .registers] [Has M .accum] [Has M .frames] [Has M .edge] [Has M .wake]
    [Has M .draws] (s : State) (n : Nat) (m : BusMsg) (slot stamp : Nat) (inPort : Option Nat) : kept M (receiveOn s
    n m slot stamp inPort) = kept M s := by
  unfold receiveOn
  dsimp only
  split
  · simp only [kept_mk, true_or, or_true, and_self, listed, kept_ite, ite_self, kept_bump, kept_tagUnit,
    kept_receiveMsg, kept_setRxList, kept_advance]
  · split
    · simp only [kept_mk, true_or, or_true, and_self, listed, kept_ite, ite_self, kept_bump, kept_tagUnit,
      kept_receiveMsg, kept_setRxList, kept_advance]
    · split
      · simp only [kept_mk, true_or, or_true, and_self, listed, kept_ite, ite_self, kept_bump, kept_tagUnit,
        kept_receiveMsg, kept_setRxList, kept_advance]
      · split
        · simp only [kept_mk, true_or, or_true, and_self, listed, kept_ite, ite_self, kept_bump, kept_tagUnit,
          kept_receiveMsg, kept_setRxList, kept_advance]
        · split
          · simp only [kept_mk, true_or, or_true, and_self, listed, kept_ite, ite_self, kept_bump, kept_tagUnit,
            kept_receiveMsg, kept_setRxList, kept_advance]
          · rename_i h1
            have := kept_takeRate (M := M) _ _ _ h1
            split
            · simp only [kept_mk, true_or, or_true, and_self, listed, kept_ite, ite_self, kept_bump, kept_tagUnit,
              kept_receiveMsg, kept_setRxList, kept_advance, this]
            · split
              · simp only [kept_mk, true_or, or_true, and_self, listed, kept_ite, ite_self, kept_bump, kept_tagUnit,
                kept_receiveMsg, kept_setRxList, kept_advance, this]
              · rename_i h2
                simp only [kept_mk, true_or, or_true, and_self, listed, kept_ite, ite_self, kept_bump, kept_tagUnit,
                  kept_receiveMsg, kept_setRxList, kept_advance, kept_takeEdge (M := M) _ _ h2, this]

theorem kept_secocVerifyDone {M : List Part} [Has M .registers] [Has M .accum] [Has M .frames] [Has M .edge] (s :
    State) (n : Nat) : kept M (secocVerifyDone s n) = kept M s := by
  unfold secocVerifyDone
  (repeat' split) <;> simp only [kept_mk, true_or, or_true, and_self, listed, kept_ite, ite_self, kept_bump,
    kept_countAborted, kept_dropReceived, kept_setRxList, kept_advance]

theorem kept_setErrors {M : List Part} [Has M .registers] [Has M .accum] [Has M .intc] [Has M .host] [Has M .io] (s
    : State) (n tec rec : Nat) : kept M (setErrors s n tec rec) = kept M s := by
  unfold setErrors
  simp only [kept_ite, ite_self, kept_put, kept_bump, kept_chEvent]

theorem kept_recAfter {M : List Part} [Has M .draws] (s : State) (rec : Nat) : kept M (recAfter s rec).2 = kept M s
    := by
  unfold recAfter
  (repeat' split) <;> simp only [kept_draw]

theorem kept_canReceive {M : List Part} [Has M .registers] [Has M .accum] [Has M .intc] [Has M .host] [Has M
    .frames] [Has M .edge] [Has M .wake] [Has M .io] [Has M .draws] (s : State) (n : Nat) (m : BusMsg) : kept M
    (canReceive s n m) = kept M s := by
  unfold canReceive
  simp only [kept_ite, ite_self, kept_receiveOn, kept_setErrors, kept_recAfter]

theorem kept_tunnelMsg {M : List Part} [Has M .registers] [Has M .accum] [Has M .frames] [Has M .edge] [Has M .wake]
    [Has M .draws] (s : State) (bind slot stamp port : Nat) (b : List Byte) : kept M (tunnelMsg s bind slot stamp
    port b) = kept M s := by
  unfold tunnelMsg
  (repeat' split) <;> simp only [kept_bump, kept_receiveOn]

theorem kept_heard {M : List Part} [Has M .registers] [Has M .edge] (s : State) (b : Nat) : kept M (heard s b) =
    kept M s := by
  unfold heard
  simp only [kept_mk, true_or, or_true, and_self, listed, kept_foldl, implies_true, kept_put]

theorem kept_noteSeq {M : List Part} [Has M .registers] [Has M .accum] [Has M .edge] (s : State) (b seq : Nat) :
    kept M (noteSeq s b seq) = kept M s := by
  unfold noteSeq
  simp only [kept_mk, true_or, or_true, and_self, listed, kept_ite, ite_self, kept_bump]

theorem kept_tunnelWalk {M : List Part} [Has M .registers] [Has M .accum] [Has M .frames] [Has M .edge] [Has M .wake] [Has M .draws] (b slot stamp p fuel : Nat) (s : State) (l : List Byte) :
    kept M (tunnelWalk b slot stamp p fuel s l) = kept M s := by
  induction fuel generalizing s l with
  | zero => rfl
  | succ n ih => rw [tunnelWalk]; (repeat' split) <;> simp only [ih, kept_bump, kept_tunnelMsg]

theorem kept_tunnelEndpoint {M : List Part} [Has M .registers] [Has M .accum] [Has M .host] [Has M .frames] [Has M
    .edge] [Has M .wake] [Has M .draws] (s : State) : kept M (tunnelEndpoint s) = kept M s := by
  have h0 : ∀ (l : List Nat), kept M { s with edge.tunnelIn := l } = kept M s := by intros; simp only [kept_mk,
    true_or, or_true, and_self, listed, kept_ite, ite_self, kept_bump, kept_releaseRef, kept_heard, kept_noteSeq]
  unfold tunnelEndpoint
  dsimp only
  (repeat' split) <;> simp only [kept_mk, true_or, or_true, and_self, listed, kept_ite, ite_self, kept_bump,
    kept_releaseRef, kept_heard, kept_noteSeq, kept_tunnelWalk, h0]

theorem kept_bridgeLost {M : List Part} [Has M .registers] [Has M .accum] [Has M .intc] [Has M .host] [Has M .io] (s
    : State) (b : Nat) : kept M (bridgeLost s b) = kept M s := by
  unfold bridgeLost
  simp only [kept_ite, ite_self, kept_foldl, implies_true, kept_put, kept_chEvent]

theorem kept_setAgain {M : List Part} [Has M .edge] (s : State) (n : Nat) (l : List QMsg) : kept M (setAgain s n l)
    = kept M s := by
  unfold setAgain
  simp only [kept_mk, true_or, or_true, and_self, listed]

theorem kept_setTxq {M : List Part} [Has M .registers] [Has M .edge] (s : State) (n : Nat) (l : List QMsg) : kept M
    (setTxq s n l) = kept M s := by
  unfold setTxq
  simp only [kept_mk, true_or, or_true, and_self, listed, kept_showDepths, kept_setAgain]

theorem kept_takeMsg {M : List Part} [Has M .registers] [Has M .edge] (s : State) (n : Nat) (q : QMsg) : kept M
    (takeMsg s n q) = kept M s := by
  unfold takeMsg
  simp only [kept_ite, ite_self, kept_setAgain, kept_setTxq]

theorem kept_releaseMsg {M : List Part} [Has M .registers] [Has M .frames] (s : State) (q : QMsg) : kept M
    (releaseMsg s q) = kept M s := by
  unfold releaseMsg
  simp only [kept_untagUnit, kept_giveEdge]

theorem kept_dropQueued {M : List Part} [Has M .registers] [Has M .accum] [Has M .frames] [Has M .edge] (s : State)
    (n : Nat) (q : QMsg) (f : Fld) : kept M (dropQueued s n q f) = kept M s := by
  unfold dropQueued
  simp only [kept_bump, kept_takeMsg, kept_releaseMsg]

theorem kept_putBack {M : List Part} [Has M .registers] [Has M .edge] (s : State) (n : Nat) (q : QMsg) : kept M
    (putBack s n q) = kept M s := by
  unfold putBack
  simp only [kept_ite, ite_self, kept_setAgain, kept_setTxq]

theorem kept_putInPlace {M : List Part} [Has M .registers] [Has M .edge] (s : State) (n : Nat) (x y : QMsg) : kept M
    (putInPlace s n x y) = kept M s := by
  unfold putInPlace
  simp only [kept_ite, ite_self, kept_setAgain, kept_setTxq]

theorem kept_enterQueue {M : List Part} [Has M .registers] [Has M .accum] [Has M .frames] [Has M .edge] (s : State)
    (n : Nat) (q : QMsg) (replace : Bool) : kept M (enterQueue s n q replace) = kept M s := by
  unfold enterQueue
  extract_lets l old top k
  clear_value old top k
  split
  · simp only [kept_mk, true_or, or_true, and_self, listed, kept_ite, ite_self, kept_foldl, kept_forIdx,
    implies_true, kept_bump, kept_tagUnit, kept_setTxq, kept_releaseMsg, kept_putInPlace]
  · split
    · simp only [kept_mk, true_or, or_true, and_self, listed, kept_ite, ite_self, kept_foldl, kept_forIdx,
      implies_true, kept_bump, kept_tagUnit, kept_setTxq, kept_releaseMsg, kept_putInPlace]
    · rename_i h
      have := kept_takeEdge (M := M) _ _ h
      dsimp only
      (repeat' split) <;> simp only [kept_mk, true_or, or_true, and_self, listed, kept_ite, ite_self, kept_foldl,
        kept_forIdx, implies_true, kept_bump, kept_tagUnit, kept_setTxq, kept_releaseMsg, kept_putInPlace, this]

theorem kept_txTimeout {M : List Part} [Has M .registers] [Has M .accum] [Has M .intc] [Has M .host] [Has M .frames]
    [Has M .edge] [Has M .io] (s : State) (n : Nat) : kept M (txTimeout s n) = kept M s := by
  unfold txTimeout
  simp only [kept_ite, ite_self, kept_foldl, implies_true, kept_chEvent, kept_dropQueued]

theorem kept_macOf {M : List Part} [Has M .draws] (s : State) (p : Nat) : kept M (macOf s p).2 = kept M s := by
  unfold macOf
  (repeat' split) <;> simp only [kept_draw]

theorem kept_admitEdgeFrame {M : List Part} [Has M .registers] [Has M .accum] [Has M .host] [Has M .frames] [Has M
    .tm] [Has M .draws] (s : State) (pk : Packet) (ports : List Nat) (atomic : Bool) (leaf : Nat) : kept M
    (admitEdgeFrame s pk ports atomic leaf) = kept M s := by
  unfold admitEdgeFrame
  simp only [kept_mk, true_or, or_true, and_self, listed, kept_ite, ite_self, kept_foldl, implies_true, kept_bump,
    kept_tagUnit, kept_setPacket, kept_freePacket, kept_admitReplicas]

theorem kept_closePacker {M : List Part} [Has M .registers] [Has M .edge] (s : State) (b : Nat) : kept M
    (closePacker s b) = kept M s := by
  unfold closePacker
  (repeat' split) <;> simp only [kept_mk, true_or, or_true, and_self, listed, kept_put]

theorem kept_packLoop {M : List Part} [Has M .registers] [Has M .accum] [Has M .frames] [Has M .edge] (b fuel : Nat) (s : State) : kept M (packLoop b fuel s) = kept M s := by
  have h0 : ∀ (st : State) (p : SMap Packer), kept M { st with edge.packers := p } = kept M st := by intros; simp only [kept_mk, true_or, or_true, and_self, listed]
  induction fuel generalizing s with
  | zero => rfl
  | succ n ih =>
    rw [packLoop]; dsimp only
    (repeat' split) <;> simp only [ih, kept_dropQueued, h0, kept_tagUnit, kept_closePacker]

theorem kept_packMore {M : List Part} [Has M .registers] [Has M .accum] [Has M .frames] [Has M .edge] (s : State) (b
    : Nat) : kept M (packMore s b) = kept M s := by
  unfold packMore
  split <;> simp only [kept_packLoop]

theorem kept_packerOpen {M : List Part} [Has M .registers] [Has M .accum] [Has M .frames] [Has M .edge] (s : State)
    (b : Nat) : kept M (packerOpen s b) = kept M s := by
  unfold packerOpen
  simp only [kept_ite, ite_self, kept_packMore]

theorem kept_packWaitExpiry {M : List Part} [Has M .registers] [Has M .accum] [Has M .frames] [Has M .edge] (s :
    State) (b : Nat) : kept M (packWaitExpiry s b) = kept M s := by
  unfold packWaitExpiry
  dsimp only
  (repeat' split) <;> simp only [kept_closePacker, kept_packMore]

theorem kept_afterEnter {M : List Part} [Has M .registers] [Has M .accum] [Has M .frames] [Has M .edge] (s : State)
    (n : Nat) : kept M (afterEnter s n) = kept M s := by
  unfold afterEnter
  simp only [kept_ite, ite_self, kept_packMore]

theorem kept_targetOut {M : List Part} [Has M .registers] [Has M .accum] [Has M .frames] [Has M .edge] (s : State)
    (n : Nat) (q : QMsg) (replace : Bool) : kept M (targetOut s n q replace) = kept M s := by
  unfold targetOut
  simp only [kept_ite, ite_self, kept_bump, kept_enterQueue, kept_afterEnter]

theorem kept_ethOut {M : List Part} [Has M .registers] [Has M .accum] [Has M .host] [Has M .frames] [Has M .tm] [Has
    M .edge] [Has M .draws] (s : State) (r : List Byte) (q : QMsg) : kept M (ethOut s r q) = kept M s := by
  unfold ethOut
  simp only [kept_mk, true_or, or_true, and_self, listed, kept_macOf, kept_admitEdgeFrame]

theorem kept_deliverEth {M : List Part} [Has M .registers] [Has M .accum] [Has M .host] [Has M .frames] [Has M .tm]
    [Has M .edge] [Has M .draws] (s : State) (r : List Byte) (q : QMsg) : kept M (deliverEth s r q) = kept M s := by
  unfold deliverEth
  simp only [kept_ite, ite_self, kept_ethOut]

theorem kept_deliverChans {M : List Part} [Has M .registers] [Has M .accum] [Has M .frames] [Has M .edge] (s :
    State) (r : List Byte) (q : QMsg) (targets : List Nat) : kept M (deliverChans s r q targets) = kept M s := by
  unfold deliverChans
  simp only [kept_ite, ite_self, kept_foldl, kept_forIdx, implies_true, kept_targetOut]

theorem kept_countTargets {M : List Part} [Has M .registers] [Has M .accum] (s : State) (targets : List Nat) (f :
    Nat → Fld) : kept M (countTargets s targets f) = kept M s := by
  unfold countTargets
  simp only [kept_foldl, implies_true, kept_bump]

theorem kept_fvExhausted {M : List Part} [Has M .registers] [Has M .accum] [Has M .intc] [Has M .host] [Has M .edge]
    [Has M .io] (s : State) (e : Nat) : kept M (fvExhausted s e) = kept M s := by
  unfold fvExhausted
  simp only [kept_mk, true_or, or_true, and_self, listed, kept_put, kept_secEvent]

theorem kept_emitOut {M : List Part} [Has M .registers] [Has M .accum] [Has M .intc] [Has M .host] [Has M .frames]
    [Has M .tm] [Has M .edge] [Has M .io] [Has M .draws] (s : State) (r : List Byte) (q : QMsg) (source : Option
    Nat) : kept M (emitOut s r q source) = kept M s := by
  unfold emitOut
  simp only [kept_mk, true_or, or_true, and_self, listed, kept_ite, ite_self, kept_countDenied, kept_tagUnit,
    kept_deliverEth, kept_deliverChans, kept_countTargets, kept_fvExhausted]

theorem kept_fillPlaces {M : List Part} [Has M .registers] [Has M .accum] [Has M .frames] [Has M .edge] (s : State)
    (n : Nat) (j : SecJob) (m : BusMsg) : kept M (fillPlaces s n j m) = kept M s := by
  unfold fillPlaces
  simp only [kept_ite, ite_self, kept_setTxq, kept_afterEnter]

theorem kept_dropPlaces {M : List Part} [Has M .registers] [Has M .accum] [Has M .frames] [Has M .edge] (s : State)
    (n : Nat) (j : SecJob) : kept M (dropPlaces s n j) = kept M s := by
  unfold dropPlaces
  simp only [kept_ite, ite_self, kept_foldl, kept_forIdx, implies_true, kept_dropQueued]

theorem kept_secocGenerateDone {M : List Part} [Has M .registers] [Has M .accum] [Has M .host] [Has M .frames] [Has
    M .tm] [Has M .edge] [Has M .draws] (s : State) : kept M (secocGenerateDone s) = kept M s := by
  unfold secocGenerateDone
  (repeat' split) <;> simp only [kept_mk, true_or, or_true, and_self, listed, kept_ite, ite_self, kept_foldl,
    kept_forIdx, implies_true, kept_bump, kept_countAborted, kept_untagUnit, kept_deliverEth, kept_fillPlaces,
    kept_dropPlaces]

theorem kept_dropSecured {M : List Part} [Has M .registers] [Has M .accum] (s : State) (j : SecJob) (f : Fld) : kept
    M (dropSecured s j f) = kept M s := by
  unfold dropSecured
  simp only [kept_ite, ite_self, kept_bump, kept_untagUnit]

theorem kept_routeMsg {M : List Part} [Has M .registers] [Has M .accum] [Has M .intc] [Has M .host] [Has M .frames]
    [Has M .tm] [Has M .edge] [Has M .io] [Has M .draws] (s : State) (slot route : Nat) (x : EdgeMsg) (safety :
    Bool) : kept M (routeMsg s slot route x safety) = kept M s := by
  unfold routeMsg
  (repeat' split) <;> simp only [kept_emitOut]

theorem kept_routeFrame {M : List Part} [Has M .registers] [Has M .accum] [Has M .intc] [Has M .host] [Has M
    .frames] [Has M .tm] [Has M .edge] [Has M .io] [Has M .draws] (s : State) (slot route stamp decidedAt off : Nat)
    (bs : List Byte) (safety : Bool) : kept M (routeFrame s slot route stamp decidedAt off bs safety) = kept M s :=
    by
  unfold routeFrame
  dsimp only
  (repeat' split) <;> simp only [kept_bump, kept_emitOut]

theorem kept_canPick {M : List Part} [Has M .registers] [Has M .accum] [Has M .intc] [Has M .host] [Has M .frames] [Has M .edge] [Has M .io] (n : Nat) (s : State) (l : List QMsg) : kept M (canPick n s l) = kept M s := by
  have h0 : ∀ (st : State) (p : SMap QMsg), kept M { st with edge.offered := p } = kept M st := by intros; simp only [kept_mk, true_or, or_true, and_self, listed]
  induction l generalizing s with
  | nil => rfl
  | cons q l ih =>
    rw [canPick]; dsimp only
    (repeat' split) <;> simp only [ih, kept_chEvent, kept_releaseMsg, kept_bump, kept_takeMsg, h0]

theorem kept_canArbitration {M : List Part} [Has M .registers] [Has M .accum] [Has M .intc] [Has M .host] [Has M
    .frames] [Has M .edge] [Has M .io] (s : State) (n : Nat) : kept M (canArbitration s n) = kept M s := by
  unfold canArbitration
  split <;> simp only [kept_mk, true_or, or_true, and_self, listed, kept_ite, ite_self, kept_txTimeout, kept_canPick]

theorem kept_takeBack {M : List Part} [Has M .registers] [Has M .edge] (s : State) (n : Nat) : kept M (takeBack s n)
    = kept M s := by
  unfold takeBack
  (repeat' split) <;> first | with_reducible rfl | (simp only [kept_mk, true_or, or_true, and_self, listed, kept_ite, ite_self, kept_putBack]; done) | ((try dsimp only); (repeat' split) <;> first | with_reducible rfl | (simp only [kept_mk, true_or, or_true, and_self, listed, kept_ite, ite_self, kept_putBack]; done))

theorem kept_canLost {M : List Part} [Has M .registers] [Has M .edge] (s : State) (n : Nat) : kept M (canLost s n) =
    kept M s := by
  unfold canLost
  (repeat' split) <;> simp only [kept_takeBack]

theorem kept_canBusError {M : List Part} [Has M .registers] [Has M .accum] [Has M .intc] [Has M .host] [Has M .edge]
    [Has M .io] (s : State) (n : Nat) (e : CanError) : kept M (canBusError s n e) = kept M s := by
  unfold canBusError
  dsimp only
  (repeat' split) <;> simp only [kept_bump, kept_setErrors, kept_takeBack]

theorem kept_canTxComplete {M : List Part} [Has M .registers] [Has M .accum] [Has M .intc] [Has M .host] [Has M
    .frames] [Has M .edge] [Has M .io] (s : State) (n : Nat) : kept M (canTxComplete s n) = kept M s := by
  unfold canTxComplete
  (repeat' split) <;> simp only [kept_mk, true_or, or_true, and_self, listed, kept_bump, kept_emit, kept_setErrors,
    kept_releaseMsg]

theorem kept_canIntegrated {M : List Part} [Has M .edge] (s : State) (n : Nat) : kept M (canIntegrated s n) = kept M
    s := by
  unfold canIntegrated
  simp only [kept_mk, true_or, or_true, and_self, listed, kept_ite, ite_self]

theorem kept_canRecover {M : List Part} [Has M .registers] (s : State) (n : Nat) : kept M (canRecover s n) = kept M
    s := by
  unfold canRecover
  simp only [kept_ite, ite_self, kept_put]

theorem kept_canRecovered {M : List Part} [Has M .registers] (s : State) (n : Nat) : kept M (canRecovered s n) =
    kept M s := by
  unfold canRecovered
  simp only [kept_ite, ite_self, kept_put]

theorem kept_setLin {M : List Part} [Has M .registers] [Has M .edge] (s : State) (n : Nat) (r : Option LinRun) :
    kept M (setLin s n r) = kept M s := by
  unfold setLin
  (repeat' split) <;> simp only [kept_mk, true_or, or_true, and_self, listed, kept_put]

theorem kept_linFinish {M : List Part} [Has M .registers] [Has M .accum] [Has M .frames] [Has M .edge] [Has M .io]
    (s : State) (n : Nat) : kept M (linFinish s n) = kept M s := by
  unfold linFinish
  (repeat' split) <;> simp only [kept_mk, true_or, or_true, and_self, listed, kept_bump, kept_emit, kept_releaseMsg,
    kept_setLin]

theorem kept_linSend {M : List Part} [Has M .registers] [Has M .edge] [Has M .io] (s : State) (n : Nat) (r : LinRun)
    (id : Nat) (data : List Byte) (q : Option QMsg) : kept M (linSend s n r id data q) = kept M s := by
  unfold linSend
  simp only [kept_emit, kept_setLin]

theorem kept_linTake {M : List Part} [Has M .registers] [Has M .accum] [Has M .frames] [Has M .edge] (n id len : Nat) (s : State) (l : List QMsg) : kept M (linTake n id len s l).2 = kept M s := by
  induction l generalizing s with
  | nil => rfl
  | cons q l ih =>
    rw [linTake]
    (repeat' split) <;> simp only [ih, kept_dropQueued, kept_takeMsg]

theorem kept_linSlot {M : List Part} [Has M .registers] [Has M .accum] [Has M .intc] [Has M .host] [Has M .frames]
    [Has M .edge] [Has M .io] (s : State) (n : Nat) (r : LinRun) : kept M (linSlot s n r) = kept M s := by
  unfold linSlot
  dsimp only
  (repeat' split) <;> simp only [kept_mk, true_or, or_true, and_self, listed, kept_ite, ite_self, kept_emit,
    kept_txTimeout, kept_setLin, kept_linSend, kept_linTake]

theorem kept_linSlotStart {M : List Part} [Has M .registers] [Has M .accum] [Has M .intc] [Has M .host] [Has M
    .frames] [Has M .edge] [Has M .io] (s : State) (n : Nat) : kept M (linSlotStart s n) = kept M s := by
  unfold linSlotStart
  dsimp only
  (repeat' split) <;> simp only [kept_setLin, kept_linFinish, kept_linSlot]

theorem kept_linStop {M : List Part} [Has M .registers] [Has M .edge] (s : State) (n : Nat) (r : LinRun) : kept M
    (linStop s n r) = kept M s := by
  unfold linStop
  simp only [kept_setLin]

theorem kept_linResponse {M : List Part} [Has M .registers] [Has M .accum] [Has M .frames] [Has M .edge] [Has M
    .wake] [Has M .draws] (s : State) (n : Nat) (data : List Byte) (csum : Byte) : kept M (linResponse s n data
    csum) = kept M s := by
  unfold linResponse
  (repeat' split) <;> simp only [kept_bump, kept_receiveOn, kept_linStop]

theorem kept_linNoResp {M : List Part} [Has M .registers] [Has M .accum] [Has M .intc] [Has M .host] [Has M .edge]
    [Has M .io] (s : State) (n : Nat) : kept M (linNoResp s n) = kept M s := by
  unfold linNoResp
  (repeat' split) <;> simp only [kept_bump, kept_chEvent, kept_linStop]

theorem kept_linMismatch {M : List Part} [Has M .registers] [Has M .accum] [Has M .frames] [Has M .edge] (s : State)
    (n : Nat) : kept M (linMismatch s n) = kept M s := by
  unfold linMismatch
  (repeat' split) <;> simp only [kept_bump, kept_releaseMsg, kept_setLin]

theorem kept_linFinishAll {M : List Part} [Has M .registers] [Has M .accum] [Has M .frames] [Has M .edge] [Has M
    .io] (s : State) : kept M (linFinishAll s) = kept M s := by
  unfold linFinishAll
  simp only [kept_forIdx, implies_true, kept_linFinish]

theorem kept_linDrop {M : List Part} [Has M .registers] [Has M .frames] [Has M .edge] (s : State) (n : Nat) : kept M
    (linDrop s n) = kept M s := by
  unfold linDrop
  (repeat' split) <;> simp only [kept_releaseMsg, kept_setLin]

theorem kept_applyChan {M : List Part} [Has M .registers] [Has M .frames] [Has M .edge] (n : Nat) (s : State) : kept
    M (applyChan n s) = kept M s := by
  unfold applyChan
  simp only [kept_mk, true_or, or_true, and_self, listed, kept_ite, ite_self, kept_put, kept_linDrop]

theorem kept_applyChans {M : List Part} [Has M .registers] [Has M .frames] [Has M .edge] (s : State) : kept M
    (applyChans s) = kept M s := by
  unfold applyChans
  simp only [kept_forIdx, implies_true, kept_applyChan]

theorem kept_startEdge {M : List Part} [Has M .registers] [Has M .frames] [Has M .edge] (s : State) : kept M
    (startEdge s) = kept M s := by
  unfold startEdge
  simp only [kept_mk, true_or, or_true, and_self, listed, kept_applyChans]

theorem kept_leaveBuses {M : List Part} [Has M .edge] (s : State) : kept M (leaveBuses s) = kept M s := by
  unfold leaveBuses
  simp only [kept_mk, true_or, or_true, and_self, listed]

theorem kept_fvCommit {M : List Part} [Has M .edge] (s : State) (old new : Nat) (refilled : Nat → Bool) : kept M
    (fvCommit s old new refilled) = kept M s := by
  unfold fvCommit
  rw [kept_foldl]
  intro st x
  (repeat' split) <;> first | rfl | simp only [kept_mk, true_or, or_true, and_self, listed, kept_ite, ite_self, kept_foldl, kept_forIdx, implies_true]

theorem kept_fvBlock {M : List Part} [Has M .edge] [Has M .draws] (s : State) (e : Nat) : kept M (fvBlock s e) =
    kept M s := by
  unfold fvBlock
  simp only [kept_mk, true_or, or_true, and_self, listed, kept_draw]

theorem kept_fvRestore {M : List Part} [Has M .registers] [Has M .accum] [Has M .intc] [Has M .host] [Has M .edge]
    [Has M .io] [Has M .draws] (s : State) : kept M (fvRestore s) = kept M s := by
  unfold fvRestore
  (repeat' split) <;> simp only [kept_mk, true_or, or_true, and_self, listed, kept_ite, ite_self, kept_foldl,
    implies_true, kept_secEvent, kept_fvBlock]

theorem kept_fvWrite {M : List Part} [Has M .edge] (s : State) : kept M (fvWrite s) = kept M s := by
  unfold fvWrite
  (repeat' split) <;> first | with_reducible rfl | (simp only [kept_mk, true_or, or_true, and_self, listed, kept_ite, ite_self, kept_foldl, kept_forIdx, implies_true]; done) | ((try dsimp only); (repeat' split) <;> first | with_reducible rfl | (simp only [kept_mk, true_or, or_true, and_self, listed, kept_ite, ite_self, kept_foldl, kept_forIdx, implies_true]; done))

theorem kept_blockFailed {M : List Part} [Has M .registers] [Has M .accum] [Has M .jobs] [Has M .faults] [Has M
    .intc] [Has M .host] [Has M .cont] [Has M .vault] [Has M .sheet] [Has M .wake] [Has M .io] (s : State) (b : Nat)
    : kept M (blockFailed s b) = kept M s := by
  unfold blockFailed
  simp only [kept_mk, true_or, or_true, and_self, listed, kept_ite, ite_self, kept_recordFault]

theorem kept_fvSave {M : List Part} [Has M .registers] [Has M .accum] [Has M .jobs] [Has M .faults] [Has M .intc]
    [Has M .host] [Has M .cont] [Has M .vault] [Has M .sheet] [Has M .edge] [Has M .wake] [Has M .io] (s : State)
    (blocks : List Nat) : kept M (fvSave s blocks) = kept M s := by
  unfold fvSave
  simp only [kept_ite, ite_self, kept_foldl, kept_forIdx, implies_true, kept_fvWrite, kept_blockFailed]

theorem kept_edgeAccResult {M : List Part} [Has M .registers] (s : State) (status : Nat) (bs : List Byte) : kept M
    (edgeAccResult s status bs) = kept M s := by
  unfold edgeAccResult
  simp only [kept_put, kept_putWords]

theorem kept_edgeRead {M : List Part} [Has M .registers] (s : State) (m : Master) : kept M (edgeRead s m) = kept M s
    := by
  unfold edgeRead
  dsimp only
  (repeat' split) <;> simp only [kept_put, kept_putFlag, kept_edgeAccResult]

theorem kept_edgeAccCtl {M : List Part} [Has M .registers] (s : State) (m : Master) (w : Nat) : kept M (edgeAccCtl s
    m w) = kept M s := by
  unfold edgeAccCtl
  (repeat' split) <;> simp only [kept_put, kept_edgeRead]

theorem kept_addPacket {M : List Part} [Has M .frames] (s : State) (pk : Packet) : kept M (addPacket s pk) = kept M
    s := by
  unfold addPacket
  simp only [kept_mk, true_or, or_true, and_self, listed, kept_setPacket]

theorem kept_stagePlain {M : List Part} [Has M .frames] [Has M .wake] [Has M .draws] (s : State) (p : Nat) (f :
    WireFrame) : kept M (stagePlain s p f) = kept M s := by
  unfold stagePlain
  (repeat' split) <;> first | with_reducible rfl | (simp only [kept_ite, ite_self, kept_receiveFrame, kept_addPacket]; done) | ((try dsimp only); (repeat' split) <;> first | with_reducible rfl | (simp only [kept_ite, ite_self, kept_receiveFrame, kept_addPacket]; done))

theorem kept_frameArrival {M : List Part} [Has M .registers] [Has M .accum] [Has M .frames] [Has M .wake] [Has M
    .io] [Has M .draws] (s : State) (p : Nat) (f : WireFrame) : kept M (frameArrival s p f) = kept M s := by
  unfold frameArrival
  (repeat' split) <;> simp only [kept_countIn, kept_answerVerify, kept_addPacket, kept_stagePlain]

theorem kept_overflowed {M : List Part} [Has M .registers] [Has M .accum] [Has M .host] [Has M .frames] [Has M
    .edge] (s : State) (u : Nat) (pk : Packet) : kept M (overflowed s u pk) = kept M s := by
  unfold overflowed
  simp only [kept_ite, ite_self, kept_countIn, kept_proveBad, kept_tagAll]

theorem kept_growCells {M : List Part} [Has M .registers] [Has M .accum] [Has M .host] [Has M .frames] [Has M .edge]
    (s : State) (u : Nat) (pk : Packet) (n : Nat) : kept M (growCells s u pk n) = kept M s := by
  unfold growCells
  simp only [kept_ite, ite_self, kept_takeCells, kept_setPacket, kept_overflowed]

theorem kept_cellWrite {M : List Part} [Has M .registers] [Has M .accum] [Has M .host] [Has M .frames] [Has M .edge]
    (s : State) (p : Nat) : kept M (cellWrite s p) = kept M s := by
  unfold cellWrite
  (repeat' split) <;> simp only [kept_ite, ite_self, kept_tagUnit, kept_setPacket, kept_growCells]

theorem kept_countCast {M : List Part} [Has M .frames] (s : State) (p : Nat) (bs : List Byte) (multi broad : Nat) :
    kept M (countCast s p bs multi broad) = kept M s := by
  unfold countCast
  simp only [kept_ite, ite_self, kept_mib]

theorem kept_countGood {M : List Part} [Has M .frames] (s : State) (pk : Packet) : kept M (countGood s pk) = kept M
    s := by
  unfold countGood
  simp only [kept_ite, ite_self, kept_mib, kept_countCast]

theorem kept_rxError {M : List Part} [Has M .frames] (s : State) (p i : Nat) : kept M (rxError s p i) = kept M s :=
    by
  unfold rxError
  simp only [kept_ite, ite_self, kept_mib]

theorem kept_asmError {M : List Part} [Has M .registers] [Has M .accum] (s : State) (p : Nat) (asmErr : Bool) : kept
    M (asmError s p asmErr) = kept M s := by
  unfold asmError
  simp only [kept_ite, ite_self, kept_bump]

theorem kept_tailBad {M : List Part} [Has M .registers] [Has M .accum] [Has M .frames] (s0 : State) (u : Nat) (pk :
    Packet) (fcsOk asmErr : Bool) {t : State} (hs : tailBad s0 u pk fcsOk asmErr = some t) : kept M t = kept M s0 :=
    by
  simp only [tailBad] at hs
  repeat' split at hs
  all_goals first | cases hs; simp only [kept_bump, kept_rxError, kept_asmError]; done | (simp only [reduceCtorEq] at hs; done)

theorem kept_returnSpare {M : List Part} [Has M .registers] [Has M .frames] (s : State) (u : Nat) (pk : Packet) :
    kept M (returnSpare s u pk) = kept M s := by
  unfold returnSpare
  simp only [kept_ite, ite_self, kept_giveCells, kept_setPacket]

theorem kept_correctMeter {M : List Part} [Has M .tm] (s : State) (pk : Packet) : kept M (correctMeter s pk) = kept
    M s := by
  unfold correctMeter
  (repeat' split) <;> simp only [kept_mk, true_or, or_true, and_self, listed]

theorem kept_sduLate {M : List Part} [Has M .registers] [Has M .accum] (s : State) (pk : Packet) : kept M (sduLate s
    pk) = kept M s := by
  unfold sduLate
  (repeat' split) <;> simp only [kept_ite, ite_self, kept_bump, kept_blockFilter]

theorem kept_runRoute {M : List Part} [Has M .registers] [Has M .accum] [Has M .intc] [Has M .host] [Has M .frames]
    [Has M .tm] [Has M .edge] [Has M .io] [Has M .draws] (s : State) (u : Nat) (pk : Packet) : kept M (runRoute s u
    pk) = kept M s := by
  unfold runRoute
  (repeat' split) <;> simp only [kept_setPacket, kept_releaseRef, kept_routeFrame]

theorem kept_runRoutes {M : List Part} [Has M .registers] [Has M .accum] [Has M .intc] [Has M .host] [Has M .frames] [Has M .tm] [Has M .edge] [Has M .io] [Has M .draws] (p fuel : Nat) (s : State) : kept M (runRoutes p fuel s) = kept M s := by
  induction fuel generalizing s with
  | zero => rfl
  | succ n ih => rw [runRoutes]; (repeat' split) <;> simp only [ih, kept_runRoute]

theorem kept_routesDue {M : List Part} [Has M .registers] [Has M .accum] [Has M .intc] [Has M .host] [Has M .frames]
    [Has M .tm] [Has M .edge] [Has M .io] [Has M .draws] (s : State) (p : Nat) : kept M (routesDue s p) = kept M s
    := by
  unfold routesDue
  rw [kept_runRoutes]

theorem kept_allRoutesDue {M : List Part} [Has M .registers] [Has M .accum] [Has M .intc] [Has M .host] [Has M
    .frames] [Has M .tm] [Has M .edge] [Has M .io] [Has M .draws] (s : State) : kept M (allRoutesDue s) = kept M s
    := by
  unfold allRoutesDue
  simp only [kept_ite, ite_self, kept_foldl, kept_forIdx, implies_true, kept_routesDue]

theorem kept_lengthTold {M : List Part} [Has M .registers] [Has M .accum] [Has M .tm] (s : State) (pk : Packet) :
    kept M (lengthTold s pk) = kept M s := by
  unfold lengthTold
  simp only [kept_ite, ite_self, kept_correctMeter, kept_sduLate]

theorem kept_forget {M : List Part} [Has M .frames] (s : State) (u : Nat) : kept M (forget s u) = kept M s := by
  unfold forget
  simp only [kept_mk, true_or, or_true, and_self, listed, kept_ite, ite_self]

theorem kept_goodTail {M : List Part} [Has M .registers] [Has M .accum] [Has M .intc] [Has M .host] [Has M .frames]
    [Has M .tm] [Has M .edge] [Has M .io] [Has M .draws] (s : State) (u : Nat) (pk : Packet) : kept M (goodTail s u
    pk) = kept M s := by
  unfold goodTail
  dsimp only
  (repeat' split) <;> simp only [kept_setPacket, kept_countGood, kept_returnSpare, kept_routesDue, kept_lengthTold,
    kept_forget]

theorem kept_badTail {M : List Part} [Has M .registers] [Has M .accum] [Has M .intc] [Has M .host] [Has M .frames]
    [Has M .tm] [Has M .edge] [Has M .io] [Has M .draws] (s : State) (u : Nat) (pk : Packet) : kept M (badTail s u
    pk) = kept M s := by
  unfold badTail
  simp only [kept_ite, ite_self, kept_setPacket, kept_freePacket, kept_moveWasted, kept_proveBad, kept_tagAll,
    kept_routesDue, kept_lengthTold, kept_forget]

theorem kept_lateTail {M : List Part} [Has M .registers] [Has M .accum] [Has M .frames] [Has M .tm] (s : State) (u :
    Nat) (pk : Packet) : kept M (lateTail s u pk) = kept M s := by
  unfold lateTail
  simp only [kept_ite, ite_self, kept_setPacket, kept_lengthTold, kept_forget]

theorem kept_endedTail {M : List Part} [Has M .registers] [Has M .accum] [Has M .frames] (s : State) (u : Nat) (pk :
    Packet) (k : Nat) : kept M (endedTail s u pk k) = kept M s := by
  unfold endedTail
  simp only [kept_ite, ite_self, kept_countEnd, kept_countGood, kept_forget]

theorem kept_frameTail {M : List Part} [Has M .registers] [Has M .accum] [Has M .intc] [Has M .host] [Has M .frames]
    [Has M .tm] [Has M .edge] [Has M .wake] [Has M .io] [Has M .draws] (s : State) (p : Nat) (fcsOk asmErr : Bool) :
    kept M (frameTail s p fcsOk asmErr) = kept M s := by
  unfold frameTail
  split
  · rfl
  · split
    · rfl
    · split
      · simp only [kept_mk, true_or, or_true, and_self, listed, kept_ite, ite_self, kept_secEntry, kept_countGood,
        kept_goodTail, kept_badTail, kept_lateTail, kept_endedTail]
      · split
        · rename_i h
          rw [kept_badTail, kept_tailBad _ _ _ _ _ h]
        · split <;> simp only [kept_mk, true_or, or_true, and_self, listed, kept_ite, ite_self, kept_secEntry,
          kept_countGood, kept_goodTail, kept_badTail, kept_lateTail, kept_endedTail]

theorem kept_bufferError {M : List Part} [Has M .registers] [Has M .accum] [Has M .jobs] [Has M .faults] [Has M
    .intc] [Has M .host] [Has M .cont] [Has M .sheet] [Has M .frames] [Has M .edge] [Has M .wake] [Has M .io] (s :
    State) (u port cell : Nat) : kept M (bufferError s u port cell) = kept M s := by
  unfold bufferError
  simp only [kept_bump, kept_recordFault, kept_proveBad, kept_tagAll]

theorem kept_wasteSlot {M : List Part} [Has M .registers] [Has M .accum] [Has M .frames] (s : State) (f : Fld) :
    kept M (wasteSlot s f) = kept M s := by
  unfold wasteSlot
  simp only [kept_bump, kept_slotWaste]

theorem kept_tableBad {M : List Part} [Has M .registers] [Has M .accum] [Has M .jobs] [Has M .faults] [Has M .intc]
    [Has M .host] [Has M .cpu] [Has M .cont] [Has M .sheet] [Has M .wake] [Has M .io] (s : State) (off : Nat) : kept
    M (tableBad s off) = kept M s := by
  unfold tableBad
  simp only [kept_ite, ite_self, kept_eccError, kept_unmark]

theorem kept_matchUnit {M : List Part} [Has M .registers] [Has M .accum] [Has M .jobs] [Has M .faults] [Has M .intc]
    [Has M .host] [Has M .cpu] [Has M .cont] [Has M .sheet] [Has M .frames] [Has M .wake] [Has M .io] (s : State)
    (slot key : Nat) (edge first : Bool) (skey : Option (List Byte)) (unit : Nat) (ecc : DecisionEcc) : kept M
    (matchUnit s slot key edge first skey unit ecc).2 = kept M s := by
  unfold matchUnit
  dsimp only
  (repeat' split) <;> simp only [kept_shadowMismatch, kept_wasteSlot, kept_tableBad]

theorem kept_recirculate {M : List Part} [Has M .registers] [Has M .accum] [Has M .host] [Has M .frames] [Has M
    .draws] (s : State) (u : Nat) (pk : Packet) (c : Classed) (whole : Bool) (slot : Nat) : kept M (recirculate s u
    pk c whole slot) = kept M s := by
  have h0 : ∀ (st : State) (l : List Nat), kept M { st with net.recirc := l } = kept M st := by intros; simp only
    [kept_mk, true_or, or_true, and_self, listed, kept_ite, ite_self, kept_put, kept_bump, kept_raiseTo,
    kept_setPacket, kept_dropPolicy]
  unfold recirculate
  dsimp only
  split
  · simp only [kept_mk, true_or, or_true, and_self, listed, kept_ite, ite_self, kept_put, kept_bump, kept_raiseTo,
    kept_setPacket, kept_dropPolicy]
  · split
    · simp only [kept_mk, true_or, or_true, and_self, listed, kept_ite, ite_self, kept_put, kept_bump, kept_raiseTo,
      kept_setPacket, kept_dropPolicy]
    · rename_i h
      simp only [kept_mk, true_or, or_true, and_self, listed, kept_ite, ite_self, kept_put, kept_bump, kept_raiseTo,
        kept_setPacket, kept_dropPolicy, h0, kept_admitOne _ _ _ _ _ h]

theorem kept_toEndpoint {M : List Part} [Has M .registers] [Has M .accum] [Has M .host] [Has M .frames] [Has M
    .edge] [Has M .draws] (s : State) (u : Nat) (pk : Packet) (whole : Bool) (slot : Nat) : kept M (toEndpoint s u
    pk whole slot) = kept M s := by
  have h0 : ∀ (st : State) (l : List Nat), kept M { st with edge.tunnelIn := l } = kept M st := by intros; simp only
    [kept_mk, true_or, or_true, and_self, listed, kept_ite, ite_self, kept_bump, kept_dropPolicy]
  unfold toEndpoint
  split
  · simp only [kept_mk, true_or, or_true, and_self, listed, kept_ite, ite_self, kept_bump, kept_dropPolicy]
  · rename_i h
    simp only [kept_mk, true_or, or_true, and_self, listed, kept_ite, ite_self, kept_bump, kept_dropPolicy, h0,
      kept_admitOne _ _ _ _ _ h]

theorem kept_sendFrame {M : List Part} [Has M .registers] [Has M .accum] [Has M .host] [Has M .frames] [Has M .tm]
    [Has M .draws] (s : State) (u : Nat) (pk : Packet) (c : Classed) (whole : Bool) (slot : Nat) (targets : List
    Nat) (atomic : Bool) (copies : List Nat) : kept M (sendFrame s u pk c whole slot targets atomic copies).2 = kept
    M s := by
  unfold sendFrame
  dsimp only
  (repeat' split) <;> simp only [kept_foldl, implies_true, kept_bump, kept_freePacket, kept_dropPolicy, kept_police,
    kept_admitReplicas]

theorem kept_holdRoute {M : List Part} [Has M .registers] [Has M .accum] [Has M .intc] [Has M .host] [Has M .frames]
    [Has M .tm] [Has M .edge] [Has M .io] [Has M .draws] (s : State) (u : Nat) (pk : Packet) : kept M (holdRoute s u
    pk) = kept M s := by
  unfold holdRoute
  simp only [kept_ite, ite_self, kept_tagUnit, kept_setPacket, kept_routesDue]

theorem kept_firewall {M : List Part} [Has M .registers] [Has M .accum] [Has M .jobs] [Has M .faults] [Has M .intc]
    [Has M .host] [Has M .cpu] [Has M .banks] [Has M .cont] [Has M .vault] [Has M .sheet] [Has M .frames] [Has M
    .tables] [Has M .tm] [Has M .edge] [Has M .wake] [Has M .io] [Has M .draws] (s : State) (u : Nat) (pk0 : Packet)
    (c : Classed) (whole : Bool) (slot : Nat) : kept M (firewall s u pk0 c whole slot) = kept M s := by
  unfold firewall
  dsimp only
  split
  · simp only [kept_mk, true_or, or_true, and_self, listed, kept_ite, ite_self, kept_bump, kept_atomic,
    kept_countIn, kept_setPacket, kept_freePacket, kept_learnFrame, kept_recirculate, kept_toEndpoint,
    kept_sendFrame, kept_holdRoute]
  · split
    · simp only [kept_mk, true_or, or_true, and_self, listed, kept_ite, ite_self, kept_bump, kept_atomic,
      kept_countIn, kept_setPacket, kept_freePacket, kept_learnFrame, kept_recirculate, kept_toEndpoint,
      kept_sendFrame, kept_holdRoute]
    · split
      · simp only [kept_mk, true_or, or_true, and_self, listed, kept_ite, ite_self, kept_bump, kept_atomic,
        kept_countIn, kept_setPacket, kept_freePacket, kept_learnFrame, kept_recirculate, kept_toEndpoint,
        kept_sendFrame, kept_holdRoute]
      · rename_i s1 h
        have hs : kept M s1 = kept M s := by
          split at h
          · cases h; simp only [kept_mk, true_or, or_true, and_self, listed, kept_ite, ite_self, kept_bump,
            kept_atomic, kept_countIn, kept_setPacket, kept_freePacket, kept_learnFrame, kept_recirculate,
            kept_toEndpoint, kept_sendFrame, kept_holdRoute]
          · rw [kept_convUpdate _ _ _ _ _ h, kept_setPacket]
        (repeat' split) <;> simp only [kept_mk, true_or, or_true, and_self, listed, kept_ite, ite_self, kept_bump,
          kept_atomic, kept_countIn, kept_setPacket, kept_freePacket, kept_learnFrame, kept_recirculate,
          kept_toEndpoint, kept_sendFrame, kept_holdRoute, hs]

/-- The state a classification leaves. -/
def keptOut : ClassOut → State
  | .drop _ s => s
  | .go _ s => s

theorem keptOut_drop (r : Bool) (s : State) : keptOut (.drop r s) = s := rfl

theorem keptOut_go (c : Classed) (s : State) : keptOut (.go c s) = s := rfl

theorem kept_dropRetired {M : List Part} [Has M .registers] [Has M .frames] (s : State) : kept M (keptOut (dropRetired s)) = kept M s := kept_slotRetire s

theorem kept_ruleFound {M : List Part} [Has M .registers] [Has M .accum] [Has M .frames] [Has M .tables] (s : State) (pk : Packet) (slot vid prio : Nat) (h : Hdr) (tun : Option Nat) (rule : Nat)
    (action : List Byte) (safety : Bool) :
    kept M (keptOut (ruleFound s pk slot vid prio h tun rule action safety)) = kept M s := by
  unfold ruleFound
  split
  · simp only [kept_dropRetired, kept_bump]
  · rename_i s0 hf
    have h0 : kept M s0 = kept M s := by
      split at hf
      · exact kept_fragInsert _ _ _ _ _ hf
      · cases hf; rfl
    simp only [keptOut_drop, keptOut_go, kept_slotRetire, h0]

theorem kept_classifyRule {M : List Part} [Has M .registers] [Has M .accum] [Has M .jobs] [Has M .faults] [Has M .intc] [Has M .host] [Has M .cpu] [Has M .cont] [Has M .sheet] [Has M .frames] [Has M .tables] [Has M .wake] [Has M .io] (s : State) (pk : Packet) (slot vid prio : Nat) (h : Hdr) (ecc : DecisionEcc) :
    kept M (keptOut (classifyRule s pk slot vid prio h ecc)) = kept M s := by
  unfold classifyRule
  dsimp only
  split
  all_goals
    rename_i hm
    have h2 := congrArg (fun z => kept M z.2) hm
    simp only [kept_matchUnit] at h2
    simp only [keptOut_drop, keptOut_go, kept_ruleFound, ← h2]

theorem kept_classifyParsed {M : List Part} [Has M .registers] [Has M .accum] [Has M .jobs] [Has M .faults] [Has M .intc] [Has M .host] [Has M .cpu] [Has M .cont] [Has M .sheet] [Has M .frames] [Has M .tables] [Has M .wake] [Has M .io] (s : State) (pk : Packet) (slot vid prio : Nat) (h : Hdr) (ecc : DecisionEcc) :
    kept M (keptOut (classifyParsed s pk slot vid prio h ecc)) = kept M s := by
  unfold classifyParsed
  (repeat' split) <;> simp only [keptOut_drop, keptOut_go, kept_dropRetired, kept_classifyRule, kept_slotRetire, kept_wasteSlot,
    kept_tableBad, kept_bump]

theorem kept_classifyFrame {M : List Part} [Has M .registers] [Has M .accum] [Has M .jobs] [Has M .faults] [Has M .intc] [Has M .host] [Has M .cpu] [Has M .cont] [Has M .sheet] [Has M .frames] [Has M .tables] [Has M .wake] [Has M .io] (s : State) (pk : Packet) (slot : Nat) (whole : Bool) (ecc : DecisionEcc) :
    kept M (keptOut (classifyFrame s pk slot whole ecc)) = kept M s := by
  unfold classifyFrame
  dsimp only
  (repeat' split) <;> simp only [kept_dropRetired, kept_countIn, kept_bump, kept_classifyParsed]

theorem kept_decideFrame {M : List Part} [Has M .registers] [Has M .accum] [Has M .jobs] [Has M .faults] [Has M
    .intc] [Has M .host] [Has M .cpu] [Has M .banks] [Has M .cont] [Has M .vault] [Has M .sheet] [Has M .frames]
    [Has M .tables] [Has M .tm] [Has M .edge] [Has M .wake] [Has M .io] [Has M .draws] (s : State) (u : Nat) (pk :
    Packet) (ecc : DecisionEcc) : kept M (decideFrame s u pk ecc) = kept M s := by
  unfold decideFrame
  dsimp only
  split
  · simp only [kept_mk, true_or, or_true, and_self, listed, kept_ite, ite_self, kept_slotRetire, kept_setPacket,
    kept_freePacket, kept_bufferError, kept_firewall]
  · split
    all_goals
      rename_i h
      have h2 : _ = kept M s := (congrArg (fun z => kept M (keptOut z)) h).symm.trans (kept_classifyFrame _ _ _ _ _)
      simp only [keptOut_drop, keptOut_go] at h2
      simp only [kept_mk, true_or, or_true, and_self, listed, kept_ite, ite_self, kept_slotRetire, kept_setPacket,
        kept_freePacket, kept_bufferError, kept_firewall, h2]

theorem kept_popMessage {M : List Part} [Has M .registers] [Has M .frames] [Has M .edge] (s : State) (n : Nat) (x :
    EdgeMsg) : kept M (popMessage s n x) = kept M s := by
  unfold popMessage
  simp only [kept_giveEdge, kept_setRxList]

theorem kept_edgeFirewall {M : List Part} [Has M .registers] [Has M .accum] [Has M .intc] [Has M .host] [Has M
    .frames] [Has M .tm] [Has M .edge] [Has M .io] [Has M .draws] (s : State) (n : Nat) (x : EdgeMsg) (action : List
    Byte) (safety : Bool) : kept M (edgeFirewall s n x action safety) = kept M s := by
  unfold edgeFirewall
  simp only [kept_ite, ite_self, kept_bump, kept_routeMsg]

theorem kept_decideMsg {M : List Part} [Has M .registers] [Has M .accum] [Has M .jobs] [Has M .faults] [Has M .intc]
    [Has M .host] [Has M .cpu] [Has M .cont] [Has M .sheet] [Has M .frames] [Has M .tm] [Has M .edge] [Has M .wake]
    [Has M .io] [Has M .draws] (s : State) (n : Nat) (x : EdgeMsg) (ecc : DecisionEcc) : kept M (decideMsg s n x
    ecc) = kept M s := by
  unfold decideMsg
  dsimp only
  have h1 : kept M (if (parseEdge x.msg).mal ≠ 0 then bump s (Reg.malCount ((parseEdge x.msg).mal - 1)) else s) =
    kept M s := by
    split <;> simp only [kept_mk, true_or, or_true, and_self, listed, kept_ite, ite_self, kept_bump,
      kept_slotRetire, kept_matchUnit, kept_edgeFirewall]
  split
  · simp only [kept_mk, true_or, or_true, and_self, listed, kept_ite, ite_self, kept_bump, kept_slotRetire,
    kept_matchUnit, kept_edgeFirewall, h1]
  · split
    all_goals
      rename_i h
      have h2 := congrArg (fun z => kept M z.2) h
      simp only [kept_mk, true_or, or_true, and_self, listed, kept_ite, ite_self, kept_bump, kept_slotRetire,
        kept_matchUnit, kept_edgeFirewall, h1] at h2
      simp only [kept_mk, true_or, or_true, and_self, listed, kept_ite, ite_self, kept_bump, kept_slotRetire,
        kept_matchUnit, kept_edgeFirewall, h2]

theorem kept_decideChannel {M : List Part} [Has M .registers] [Has M .accum] [Has M .jobs] [Has M .faults] [Has M
    .intc] [Has M .host] [Has M .cpu] [Has M .cont] [Has M .sheet] [Has M .frames] [Has M .tm] [Has M .edge] [Has M
    .wake] [Has M .io] [Has M .draws] (s : State) (n : Nat) (ecc : DecisionEcc) : kept M (decideChannel s n ecc) =
    kept M s := by
  unfold decideChannel
  (repeat' split) <;> simp only [kept_bump, kept_recordFault, kept_slotWaste, kept_untagUnit, kept_popMessage,
    kept_decideMsg]

theorem kept_decidePacked {M : List Part} [Has M .registers] [Has M .accum] [Has M .host] [Has M .frames] [Has M
    .tm] [Has M .edge] [Has M .draws] (s : State) (b : Nat) : kept M (decidePacked s b) = kept M s := by
  unfold decidePacked
  (repeat' split) <;> simp only [kept_mk, true_or, or_true, and_self, listed, kept_slotRetire, kept_untagUnit,
    kept_admitEdgeFrame]

theorem kept_decideRecirc {M : List Part} [Has M .registers] [Has M .accum] [Has M .jobs] [Has M .faults] [Has M
    .intc] [Has M .host] [Has M .cpu] [Has M .banks] [Has M .cont] [Has M .vault] [Has M .sheet] [Has M .frames]
    [Has M .tables] [Has M .tm] [Has M .edge] [Has M .wake] [Has M .io] [Has M .draws] (s : State) (ecc :
    DecisionEcc) : kept M (decideRecirc s ecc) = kept M s := by
  unfold decideRecirc
  (repeat' split) <;> simp only [kept_mk, true_or, or_true, and_self, listed, kept_put, kept_giveCells,
    kept_setPacket, kept_decideFrame]

theorem kept_noteServed {M : List Part} [Has M .frames] (s : State) (src : UnitSource) : kept M (noteServed s src) =
    kept M s := by
  unfold noteServed
  (repeat' split) <;> first | with_reducible rfl | (simp only [kept_mk, true_or, or_true, and_self, listed, kept_ite, ite_self]; done) | ((try dsimp only); (repeat' split) <;> first | with_reducible rfl | (simp only [kept_mk, true_or, or_true, and_self, listed, kept_ite, ite_self]; done))

theorem kept_noteCorrected {M : List Part} [Has M .registers] [Has M .accum] (s : State) (ecc : DecisionEcc) : kept
    M (noteCorrected s ecc) = kept M s := by
  unfold noteCorrected
  (repeat' split) <;> first | rfl | simp only [kept_bump]

theorem kept_unitDecision {M : List Part} [Has M .registers] [Has M .accum] [Has M .jobs] [Has M .faults] [Has M
    .intc] [Has M .host] [Has M .cpu] [Has M .banks] [Has M .cont] [Has M .vault] [Has M .sheet] [Has M .frames]
    [Has M .tables] [Has M .tm] [Has M .edge] [Has M .wake] [Has M .io] [Has M .draws] (s0 : State) (src :
    UnitSource) (ecc : DecisionEcc) : kept M (unitDecision s0 src ecc) = kept M s0 := by
  unfold unitDecision
  (repeat' split) <;> first | with_reducible rfl | (simp only [kept_ite, ite_self, kept_decideFrame, kept_decideChannel, kept_decidePacked, kept_decideRecirc, kept_noteServed, kept_noteCorrected]; done) | ((try dsimp only); (repeat' split) <;> first | with_reducible rfl | (simp only [kept_ite, ite_self, kept_decideFrame, kept_decideChannel, kept_decidePacked, kept_decideRecirc, kept_noteServed, kept_noteCorrected]; done))

theorem kept_popHead {M : List Part} [Has M .frames] (s : State) (p q : Nat) : kept M (popHead s p q) = kept M s :=
    by
  unfold popHead
  simp only [kept_setQueue]

theorem kept_discardHead {M : List Part} [Has M .registers] [Has M .accum] [Has M .host] [Has M .frames] (s : State)
    (p q : Nat) (r : Replica) (f : Fld) : kept M (discardHead s p q r f) = kept M s := by
  unfold discardHead
  simp only [kept_bump, kept_releaseRef, kept_popHead]

theorem kept_containHead {M : List Part} [Has M .registers] [Has M .accum] [Has M .host] [Has M .frames] (s : State)
    (p q : Nat) (r : Replica) : kept M (containHead s p q r) = kept M s := by
  unfold containHead
  simp only [kept_ite, ite_self, kept_bump, kept_releasePolicy, kept_popHead]

theorem kept_chargeSelection {M : List Part} [Has M .registers] [Has M .frames] [Has M .tm] (s : State) (p q : Nat)
    (r : Replica) (l : Nat) : kept M (chargeSelection s p q r l) = kept M s := by
  unfold chargeSelection
  simp only [kept_mk, true_or, or_true, and_self, listed, kept_ite, ite_self, kept_chargeLeaf, kept_chargePort,
    kept_tagHead]

theorem kept_startTx {M : List Part} [Has M .registers] [Has M .accum] [Has M .frames] [Has M .io] (s : State) (p q
    : Nat) (preemptable : Bool) (r : Replica) (pk : Packet) (bs : List Byte) (l : Nat) (key : Option (Nat × Nat)) :
    kept M (startTx s p q preemptable r pk bs l key) = kept M s := by
  unfold startTx
  simp only [kept_mk, true_or, or_true, and_self, listed, kept_ite, ite_self, kept_bump, kept_settlePreempt]

theorem kept_toRing {M : List Part} [Has M .registers] [Has M .accum] [Has M .host] [Has M .frames] [Has M .io] (s :
    State) (q : Nat) (r : Replica) (pk : Packet) (bs : List Byte) (l : Nat) : kept M (toRing s q r pk bs l) = kept M
    s := by
  unfold toRing
  simp only [kept_ite, ite_self, kept_rxDeliver, kept_releaseRef, kept_startTx]

theorem kept_sendHead {M : List Part} [Has M .registers] [Has M .accum] [Has M .jobs] [Has M .faults] [Has M .intc]
    [Has M .host] [Has M .cont] [Has M .sheet] [Has M .frames] [Has M .tm] [Has M .edge] [Has M .wake] [Has M .io]
    [Has M .draws] (s0 : State) (p q : Nat) (preemptable : Bool) (ecc : EccKind) (r : Replica) (pk : Packet) : kept
    M (sendHead s0 p q preemptable ecc r pk).2 = kept M s0 := by
  unfold sendHead
  dsimp only
  (repeat' split) <;> try simp only [kept_mk, true_or, or_true, and_self, listed, kept_ite, ite_self, kept_bump,
    kept_draw, kept_protectFrame, kept_bufferError, kept_popHead, kept_discardHead, kept_containHead,
    kept_chargeSelection, kept_startTx, kept_toRing]
  all_goals
    rename_i h
    have h2 := congrArg (fun z => kept M z.2) h
    simp only [kept_mk, true_or, or_true, and_self, listed, kept_ite, ite_self, kept_bump, kept_draw,
      kept_protectFrame, kept_bufferError, kept_popHead, kept_discardHead, kept_containHead, kept_chargeSelection,
      kept_startTx, kept_toRing] at h2
    simp only [kept_mk, true_or, or_true, and_self, listed, kept_ite, ite_self, kept_bump, kept_draw,
      kept_protectFrame, kept_bufferError, kept_popHead, kept_discardHead, kept_containHead, kept_chargeSelection,
      kept_startTx, kept_toRing, h2]

theorem kept_selectLoop {M : List Part} [Has M .registers] [Has M .accum] [Has M .jobs] [Has M .faults] [Has M .intc] [Has M .host] [Has M .cont] [Has M .sheet] [Has M .frames] [Has M .tm] [Has M .edge] [Has M .wake] [Has M .io] [Has M .draws] (p : Nat) (pre : Bool) (ecc : EccKind) (fuel : Nat) (s : State) :
    kept M (selectLoop p pre ecc fuel s) = kept M s := by
  induction fuel generalizing s with
  | zero => rfl
  | succ n ih =>
    rw [selectLoop]; dsimp only
    (repeat' split) <;> simp only [ih, kept_discardHead, kept_tagHeads, kept_sendHead]

theorem kept_frameSelect {M : List Part} [Has M .registers] [Has M .accum] [Has M .jobs] [Has M .faults] [Has M
    .intc] [Has M .host] [Has M .cont] [Has M .sheet] [Has M .frames] [Has M .tm] [Has M .edge] [Has M .wake] [Has M
    .io] [Has M .draws] (s : State) (p : Nat) (mac : MacKind) (ecc : EccKind) : kept M (frameSelect s p mac ecc) =
    kept M s := by
  unfold frameSelect
  dsimp only
  (repeat' split) <;> simp only [kept_mk, true_or, or_true, and_self, listed, kept_ite, ite_self, kept_gateSync,
    kept_selectLoop]

theorem kept_countSent {M : List Part} [Has M .frames] (s : State) (p q : Nat) (bs : List Byte) : kept M (countSent
    s p q bs) = kept M s := by
  unfold countSent
  simp only [kept_mk, true_or, or_true, and_self, listed, kept_ite, ite_self, kept_mib, kept_countCast]

theorem kept_stampWaiting {M : List Part} [Has M .time] [Has M .host] (s : State) (u t : Nat) : kept M (stampWaiting
    s u t) = kept M s := by
  unfold stampWaiting
  simp only [kept_mk, true_or, or_true, and_self, listed]

theorem kept_correctShaper {M : List Part} [Has M .registers] [Has M .tm] (s : State) (p : Nat) (t : Tx) : kept M
    (correctShaper s p t) = kept M s := by
  unfold correctShaper
  simp only [kept_ite, ite_self, kept_chargeLeaf, kept_chargePort]

theorem kept_finishTx {M : List Part} [Has M .registers] [Has M .accum] [Has M .time] [Has M .host] [Has M .frames]
    [Has M .tm] (s : State) (p : Nat) (t : Tx) (pk : Packet) : kept M (finishTx s p t pk) = kept M s := by
  unfold finishTx
  (repeat' split) <;> simp only [kept_bump, kept_setPacket, kept_releaseRef, kept_countSent, kept_stampWaiting,
    kept_correctShaper]

theorem kept_emitFrame {M : List Part} [Has M .io] (s : State) (p : Nat) (preemptable : Bool) (t : Tx) (pk : Packet)
    : kept M (emitFrame s p preemptable t pk) = kept M s := by
  unfold emitFrame
  simp only [kept_ite, ite_self, kept_emit]

theorem kept_transmitEnd {M : List Part} [Has M .registers] [Has M .accum] [Has M .time] [Has M .host] [Has M
    .frames] [Has M .tm] [Has M .io] (s0 : State) (p : Nat) (mac : MacKind) : kept M (transmitEnd s0 p mac) = kept M
    s0 := by
  unfold transmitEnd
  dsimp only
  (repeat' split) <;> simp only [kept_mk, true_or, or_true, and_self, listed, kept_reachCut, kept_settlePreempt,
    kept_finishTx, kept_emitFrame]

theorem kept_powerOff {M : List Part} [Has M .registers] [Has M .accum] [Has M .time] [Has M .jobs] [Has M .policy]
    [Has M .epochs] [Has M .faults] [Has M .intc] [Has M .host] [Has M .cpu] [Has M .banks] [Has M .cont] [Has M
    .boot] [Has M .img] [Has M .vault] [Has M .sheet] [Has M .frames] [Has M .tables] [Has M .links] [Has M .tm]
    [Has M .edge] [Has M .wake] [Has M .cnt] [Has M .io] (s : State) : kept M (powerOff s) = kept M s := by
  have h : (sheetCut s).entries = s.sheet.entries := rfl
  unfold powerOff
  simp only [kept_mk, true_or, or_true, and_self, listed, kept_ite, ite_self, h]

theorem kept_deviceReset {M : List Part} [Has M .registers] [Has M .accum] [Has M .time] [Has M .jobs] [Has M
    .policy] [Has M .epochs] [Has M .faults] [Has M .intc] [Has M .host] [Has M .cpu] [Has M .banks] [Has M .cont]
    [Has M .boot] [Has M .img] [Has M .vault] [Has M .sheet] [Has M .frames] [Has M .tables] [Has M .links] [Has M
    .tm] [Has M .edge] [Has M .wake] [Has M .cnt] [Has M .io] (s : State) (cause : Nat) : kept M (deviceReset s
    cause) = kept M s := by
  unfold deviceReset
  simp only [kept_mk, true_or, or_true, and_self, listed, kept_foldl, implies_true, kept_put, kept_putFlag,
    kept_powerOff]

theorem kept_noteWake {M : List Part} [Has M .registers] (s : State) (f : Fld) (source : Nat) (first : Bool) : kept
    M (noteWake s f source first) = kept M s := by
  unfold noteWake
  simp only [kept_ite, ite_self, kept_put]

theorem kept_registerWake {M : List Part} [Has M .registers] [Has M .wake] (s : State) (f : Fld) (source : Nat)
    (moored parked descent reset : Bool) : kept M (registerWake s f source moored parked descent reset) = kept M s
    := by
  unfold registerWake
  (repeat' split) <;> simp only [kept_mk, true_or, or_true, and_self, listed, kept_put, kept_requestAbort,
    kept_noteWake]

theorem kept_sleepAgreement {M : List Part} [Has M .registers] [Has M .accum] [Has M .intc] [Has M .host] [Has M
    .wake] [Has M .io] (s : State) : kept M (sleepAgreement s) = kept M s := by
  unfold sleepAgreement
  simp only [kept_mk, true_or, or_true, and_self, listed, kept_ite, ite_self, kept_put, kept_putFlag,
    kept_raiseSource]

theorem kept_pwrCtlWrite {M : List Part} [Has M .registers] [Has M .wake] (s : State) (m : Master) (w : Nat) : kept
    M (pwrCtlWrite s m w) = kept M s := by
  unfold pwrCtlWrite
  simp only [kept_mk, true_or, or_true, and_self, listed, kept_ite, ite_self, kept_putFlag, kept_requestAbort]

theorem kept_enterPhase {M : List Part} [Has M .registers] [Has M .wake] (s : State) (ph : Nat) : kept M (enterPhase
    s ph) = kept M s := by
  unfold enterPhase
  simp only [kept_mk, true_or, or_true, and_self, listed, kept_put]

theorem kept_descentDrain {M : List Part} [Has M .registers] [Has M .wake] (s : State) : kept M (descentDrain s) =
    kept M s := by
  unfold descentDrain
  simp only [kept_ite, ite_self, kept_enterPhase]

theorem kept_discardFrame {M : List Part} [Has M .registers] [Has M .accum] [Has M .host] [Has M .frames] (cut :
    Bool) (s : State) (u : Nat) : kept M (discardFrame cut s u) = kept M s := by
  unfold discardFrame
  (repeat' split) <;> simp only [kept_ite, ite_self, kept_bump, kept_setPacket, kept_dropPolicy]

theorem kept_discardFrames {M : List Part} [Has M .registers] [Has M .accum] [Has M .host] [Has M .frames] [Has M
    .edge] (s : State) (cut : Bool) : kept M (discardFrames s cut) = kept M s := by
  unfold discardFrames
  simp only [kept_mk, true_or, or_true, and_self, listed, kept_ite, ite_self, kept_foldl, implies_true, kept_put,
    kept_discardFrame]

theorem kept_discardMsg {M : List Part} [Has M .registers] [Has M .accum] [Has M .frames] (s : State) (q : QMsg) :
    kept M (discardMsg s q) = kept M s := by
  unfold discardMsg
  simp only [kept_bump, kept_releaseMsg]

theorem kept_discardEdge {M : List Part} [Has M .registers] [Has M .accum] [Has M .frames] [Has M .edge] (s : State)
    (cut : Bool) : kept M (discardEdge s cut) = kept M s := by
  unfold discardEdge
  simp only [kept_mk, true_or, or_true, and_self, listed, kept_ite, ite_self, kept_foldl, kept_forIdx, implies_true,
    kept_bump, kept_untagUnit, kept_dropReceived, kept_setRxList, kept_setAgain, kept_setTxq, kept_dropSecured,
    kept_linDrop, kept_discardMsg]

theorem kept_discardHeld {M : List Part} [Has M .registers] [Has M .accum] [Has M .host] [Has M .frames] [Has M
    .edge] (s : State) (cut : Bool) : kept M (discardHeld s cut) = kept M s := by
  unfold discardHeld
  simp only [kept_discardFrames, kept_discardEdge]

theorem kept_armWake {M : List Part} [Has M .wake] (s : State) : kept M (armWake s) = kept M s := by
  unfold armWake
  simp only [kept_mk, true_or, or_true, and_self, listed]

theorem kept_askTc10 {M : List Part} [Has M .wake] [Has M .io] (p : Nat) (s : State) : kept M (askTc10 p s) = kept M
    s := by
  unfold askTc10
  simp only [kept_mk, true_or, or_true, and_self, listed, kept_ite, ite_self, kept_emit]

theorem kept_descentLinks {M : List Part} [Has M .registers] [Has M .accum] [Has M .host] [Has M .frames] [Has M
    .edge] [Has M .wake] [Has M .io] (s : State) : kept M (descentLinks s) = kept M s := by
  unfold descentLinks
  simp only [kept_mk, true_or, or_true, and_self, listed, kept_ite, ite_self, kept_forIdx, implies_true,
    kept_leaveBuses, kept_enterPhase, kept_discardHeld, kept_armWake, kept_askTc10]

theorem kept_tc10Ack {M : List Part} [Has M .registers] [Has M .accum] [Has M .intc] [Has M .host] [Has M .frames]
    [Has M .links] [Has M .edge] [Has M .wake] [Has M .io] (s : State) (p : Nat) : kept M (tc10Ack s p) = kept M s
    := by
  unfold tc10Ack
  simp only [kept_mk, true_or, or_true, and_self, listed, kept_ite, ite_self, kept_goDown]

theorem kept_descentSave {M : List Part} [Has M .registers] [Has M .accum] [Has M .jobs] [Has M .host] [Has M
    .sheet] [Has M .frames] [Has M .edge] [Has M .wake] (s : State) : kept M (descentSave s) = kept M s := by
  unfold descentSave
  simp only [kept_ite, ite_self, kept_bumpBy, kept_requestSp, kept_enterPhase, kept_discardHeld]

theorem kept_saveTimeout {M : List Part} [Has M .wake] (s : State) : kept M (saveTimeout s) = kept M s := by
  unfold saveTimeout
  simp only [kept_ite, ite_self, kept_requestAbort]

theorem kept_presentCaptured {M : List Part} [Has M .registers] [Has M .accum] [Has M .frames] [Has M .edge] [Has M
    .wake] [Has M .draws] (s : State) : kept M (presentCaptured s) = kept M s := by
  unfold presentCaptured
  simp only [kept_mk, true_or, or_true, and_self, listed, kept_foldl, implies_true, kept_receiveOn]

theorem kept_wakeTc10 {M : List Part} [Has M .registers] [Has M .links] [Has M .io] (s : State) (p : Nat) : kept M
    (wakeTc10 s p) = kept M s := by
  unfold wakeTc10
  simp only [kept_emit, kept_startTraining]

theorem kept_restartLin {M : List Part} [Has M .registers] [Has M .frames] [Has M .edge] (s : State) : kept M
    (restartLin s) = kept M s := by
  unfold restartLin
  simp only [kept_forIdx, implies_true, kept_linDrop]

theorem kept_disarm {M : List Part} [Has M .intc] [Has M .wake] (s : State) : kept M (disarm s) = kept M s := by
  unfold disarm
  simp only [kept_mk, true_or, or_true, and_self, listed]

theorem kept_descentAbort {M : List Part} [Has M .registers] [Has M .accum] [Has M .jobs] [Has M .intc] [Has M
    .host] [Has M .frames] [Has M .links] [Has M .edge] [Has M .wake] [Has M .io] [Has M .draws] (s : State) : kept
    M (descentAbort s) = kept M s := by
  unfold descentAbort
  (repeat' split) <;> simp only [kept_mk, true_or, or_true, and_self, listed, kept_ite, ite_self, kept_foldl,
    implies_true, kept_put, kept_bump, kept_applyAdmins, kept_applyChans, kept_presentCaptured, kept_wakeTc10,
    kept_restartLin, kept_disarm]

theorem kept_abortCommit {M : List Part} [Has M .registers] [Has M .accum] [Has M .jobs] [Has M .policy] [Has M
    .epochs] [Has M .intc] [Has M .host] [Has M .img] [Has M .tables] [Has M .io] (s : State) : kept M (abortCommit
    s) = kept M s := by
  unfold abortCommit
  simp only [kept_ite, ite_self, kept_emptySet, kept_commitFail]

theorem kept_freeSlots {M : List Part} [Has M .registers] [Has M .policy] [Has M .epochs] [Has M .tables] (s :
    State) : kept M (freeSlots s) = kept M s := by
  unfold freeSlots
  simp only [kept_mk, true_or, or_true, and_self, listed, kept_ite, ite_self, kept_forIdx, implies_true, kept_put,
    kept_dropSlot, kept_showLatched]

theorem kept_portDark {M : List Part} [Has M .registers] (p : Nat) (s : State) : kept M (portDark p s) = kept M s :=
    by
  unfold portDark
  simp only [kept_put, kept_setVerify]

theorem kept_hostDark {M : List Part} [Has M .registers] [Has M .accum] [Has M .intc] [Has M .host] [Has M .cnt]
    [Has M .io] (s : State) : kept M (hostDark s) = kept M s := by
  unfold hostDark
  simp only [kept_mk, true_or, or_true, and_self, listed, kept_put, kept_dropPosted, kept_resetHostIf]

theorem kept_pinsDark {M : List Part} [Has M .registers] [Has M .time] [Has M .host] (s : State) : kept M (pinsDark
    s) = kept M s := by
  unfold pinsDark
  simp only [kept_mk, true_or, or_true, and_self, listed, kept_ite, ite_self, kept_releasePeWake]

theorem kept_stopCores {M : List Part} [Has M .registers] [Has M .jobs] [Has M .vault] [Has M .frames] [Has M
    .tables] (s : State) : kept M (stopCores s) = kept M s := by
  unfold stopCores
  simp only [kept_mk, true_or, or_true, and_self, listed, kept_foldl, kept_forIdx, implies_true, kept_put]

theorem kept_noReturn {M : List Part} [Has M .registers] [Has M .accum] [Has M .time] [Has M .jobs] [Has M .policy]
    [Has M .epochs] [Has M .intc] [Has M .host] [Has M .cpu] [Has M .banks] [Has M .boot] [Has M .img] [Has M
    .vault] [Has M .frames] [Has M .tables] [Has M .links] [Has M .tm] [Has M .edge] [Has M .wake] [Has M .cnt] [Has
    M .io] (s : State) : kept M (noReturn s) = kept M s := by
  unfold noReturn
  simp only [kept_mk, true_or, or_true, and_self, listed, kept_forIdx, implies_true, kept_put, kept_putFlag,
    kept_bump, kept_clearFrags, kept_clearConvs, kept_discardHeld, kept_armWake, kept_abortCommit, kept_freeSlots,
    kept_portDark, kept_hostDark, kept_pinsDark, kept_stopCores]

theorem kept_cutoff {M : List Part} [Has M .registers] [Has M .accum] [Has M .time] [Has M .jobs] [Has M .policy]
    [Has M .epochs] [Has M .intc] [Has M .host] [Has M .cpu] [Has M .banks] [Has M .boot] [Has M .img] [Has M
    .vault] [Has M .frames] [Has M .tables] [Has M .links] [Has M .tm] [Has M .edge] [Has M .wake] [Has M .cnt] [Has
    M .io] (s : State) : kept M (cutoff s) = kept M s := by
  unfold cutoff
  simp only [kept_ite, ite_self, kept_noReturn]

theorem kept_wakeParked {M : List Part} [Has M .registers] [Has M .accum] [Has M .time] [Has M .jobs] [Has M
    .policy] [Has M .epochs] [Has M .faults] [Has M .intc] [Has M .host] [Has M .cpu] [Has M .banks] [Has M .cont]
    [Has M .boot] [Has M .img] [Has M .vault] [Has M .sheet] [Has M .frames] [Has M .tables] [Has M .links] [Has M
    .tm] [Has M .edge] [Has M .wake] [Has M .cnt] [Has M .io] (s : State) : kept M (wakeParked s) = kept M s := by
  unfold wakeParked
  (repeat' split) <;> first | with_reducible rfl | (simp only [kept_mk, true_or, or_true, and_self, listed, kept_ite, ite_self, kept_put, kept_deviceReset]; done) | ((try dsimp only); (repeat' split) <;> first | with_reducible rfl | (simp only [kept_mk, true_or, or_true, and_self, listed, kept_ite, ite_self, kept_put, kept_deviceReset]; done))

theorem kept_wakeMoored {M : List Part} [Has M .registers] [Has M .accum] [Has M .time] [Has M .jobs] [Has M
    .policy] [Has M .epochs] [Has M .faults] [Has M .intc] [Has M .host] [Has M .cpu] [Has M .banks] [Has M .cont]
    [Has M .boot] [Has M .img] [Has M .vault] [Has M .sheet] [Has M .frames] [Has M .tables] [Has M .links] [Has M
    .tm] [Has M .edge] [Has M .wake] [Has M .cnt] [Has M .io] (s : State) : kept M (wakeMoored s) = kept M s := by
  unfold wakeMoored
  simp only [kept_mk, true_or, or_true, and_self, listed, kept_ite, ite_self, kept_put, kept_deviceReset]

theorem kept_enterParked {M : List Part} [Has M .registers] [Has M .accum] [Has M .time] [Has M .jobs] [Has M
    .policy] [Has M .epochs] [Has M .faults] [Has M .intc] [Has M .host] [Has M .cpu] [Has M .banks] [Has M .cont]
    [Has M .boot] [Has M .img] [Has M .vault] [Has M .sheet] [Has M .frames] [Has M .tables] [Has M .links] [Has M
    .tm] [Has M .edge] [Has M .wake] [Has M .cnt] [Has M .io] (s : State) : kept M (enterParked s) = kept M s := by
  unfold enterParked
  simp only [kept_mk, true_or, or_true, and_self, listed, kept_foldl, kept_forIdx, implies_true, kept_put,
    kept_deviceReset]

theorem kept_cutoffComplete {M : List Part} [Has M .registers] [Has M .accum] [Has M .time] [Has M .jobs] [Has M
    .policy] [Has M .epochs] [Has M .faults] [Has M .intc] [Has M .host] [Has M .cpu] [Has M .banks] [Has M .cont]
    [Has M .boot] [Has M .img] [Has M .vault] [Has M .sheet] [Has M .frames] [Has M .tables] [Has M .links] [Has M
    .tm] [Has M .edge] [Has M .wake] [Has M .cnt] [Has M .io] (s : State) : kept M (cutoffComplete s) = kept M s :=
    by
  unfold cutoffComplete
  simp only [kept_mk, true_or, or_true, and_self, listed, kept_ite, ite_self, kept_wakeParked, kept_wakeMoored,
    kept_enterParked]

theorem kept_wakeLatch {M : List Part} [Has M .registers] [Has M .accum] [Has M .time] [Has M .jobs] [Has M .policy]
    [Has M .epochs] [Has M .faults] [Has M .intc] [Has M .host] [Has M .cpu] [Has M .banks] [Has M .cont] [Has M
    .boot] [Has M .img] [Has M .vault] [Has M .sheet] [Has M .frames] [Has M .tables] [Has M .links] [Has M .tm]
    [Has M .edge] [Has M .wake] [Has M .cnt] [Has M .io] (s : State) : kept M (wakeLatch s) = kept M s := by
  unfold wakeLatch
  (repeat' split) <;> simp only [kept_wakeParked, kept_wakeMoored]

theorem kept_parkTimer {M : List Part} [Has M .registers] [Has M .accum] [Has M .time] [Has M .jobs] [Has M .policy]
    [Has M .epochs] [Has M .faults] [Has M .intc] [Has M .host] [Has M .cpu] [Has M .banks] [Has M .cont] [Has M
    .boot] [Has M .img] [Has M .vault] [Has M .sheet] [Has M .frames] [Has M .tables] [Has M .links] [Has M .tm]
    [Has M .edge] [Has M .wake] [Has M .cnt] [Has M .io] (s : State) : kept M (parkTimer s) = kept M s := by
  unfold parkTimer
  simp only [kept_ite, ite_self, kept_noteWake, kept_wakeParked]

theorem kept_excursion {M : List Part} [Has M .registers] [Has M .vault] [Has M .edge] [Has M .wake] (s : State) :
    kept M (excursion s) = kept M s := by
  unfold excursion
  simp only [kept_mk, true_or, or_true, and_self, listed, kept_ite, ite_self, kept_putFlag, kept_saveKeys,
    kept_fvWrite]

theorem kept_mooredScrub {M : List Part} [Has M .registers] [Has M .accum] [Has M .wake] (s : State) (errs : List
    RetError) : kept M (mooredScrub s errs) = kept M s := by
  unfold mooredScrub
  simp only [kept_mk, true_or, or_true, and_self, listed, kept_ite, ite_self, kept_bumpBy, kept_bump]

theorem kept_selectiveWake {M : List Part} [Has M .registers] [Has M .wake] (s : State) (ch : Nat) (k : SwKind) :
    kept M (selectiveWake s ch k) = kept M s := by
  unfold selectiveWake
  (repeat' split) <;> simp only [kept_mk, true_or, or_true, and_self, listed, kept_ite, ite_self, kept_registerWake]

theorem kept_decoderFrame {M : List Part} [Has M .wake] (s : State) (ch : Nat) (err : Bool) : kept M (decoderFrame s
    ch err) = kept M s := by
  unfold decoderFrame
  (repeat' split) <;> simp only [kept_mk, true_or, or_true, and_self, listed]

theorem kept_linWake {M : List Part} [Has M .registers] [Has M .wake] (s : State) (l : Nat) : kept M (linWake s l) =
    kept M s := by
  unfold linWake
  simp only [kept_ite, ite_self, kept_registerWake]

theorem kept_tc10Wake {M : List Part} [Has M .registers] [Has M .wake] (s : State) (p : Nat) : kept M (tc10Wake s p)
    = kept M s := by
  unfold tc10Wake
  simp only [kept_ite, ite_self, kept_registerWake]

theorem kept_wakePin {M : List Part} [Has M .registers] [Has M .wake] (s : State) (i : Nat) : kept M (wakePin s i) =
    kept M s := by
  unfold wakePin
  simp only [kept_mk, true_or, or_true, and_self, listed, kept_ite, ite_self, kept_registerWake]

theorem kept_wakePinRelease {M : List Part} [Has M .wake] (s : State) (i : Nat) : kept M (wakePinRelease s i) = kept
    M s := by
  unfold wakePinRelease
  simp only [kept_mk, true_or, or_true, and_self, listed, kept_ite, ite_self]

theorem kept_perstRise {M : List Part} [Has M .registers] [Has M .host] [Has M .wake] (s : State) : kept M
    (perstRise s) = kept M s := by
  unfold perstRise
  simp only [kept_mk, true_or, or_true, and_self, listed, kept_ite, ite_self, kept_registerWake]

theorem kept_retentionSave {M : List Part} [Has M .intc] [Has M .wake] (s : State) : kept M (retentionSave s) = kept
    M s := by
  unfold retentionSave
  simp only [kept_mk, true_or, or_true, and_self, listed]

theorem kept_wakeOutside {M : List Part} [Has M .registers] [Has M .host] [Has M .io] (s : State) : kept M
    (wakeOutside s) = kept M s := by
  unfold wakeOutside
  simp only [kept_ite, ite_self, kept_foldl, kept_forIdx, implies_true, kept_emit, kept_assertPeWake]

theorem kept_switchDieRelease {M : List Part} [Has M .registers] [Has M .accum] [Has M .intc] [Has M .host] [Has M
    .boot] [Has M .frames] [Has M .links] [Has M .edge] [Has M .io] (s : State) : kept M (switchDieRelease s) = kept
    M s := by
  unfold switchDieRelease
  simp only [kept_mk, true_or, or_true, and_self, listed, kept_ite, ite_self, kept_applyAdmins, kept_wakeOutside]

theorem kept_wakeCheck {M : List Part} [Has M .registers] [Has M .accum] [Has M .time] [Has M .jobs] [Has M .policy]
    [Has M .epochs] [Has M .faults] [Has M .intc] [Has M .host] [Has M .cpu] [Has M .banks] [Has M .cont] [Has M
    .boot] [Has M .img] [Has M .vault] [Has M .sheet] [Has M .frames] [Has M .tables] [Has M .links] [Has M .tm]
    [Has M .edge] [Has M .wake] [Has M .cnt] [Has M .io] (s : State) : kept M (wakeCheck s) = kept M s := by
  unfold wakeCheck
  simp only [kept_mk, true_or, or_true, and_self, listed, kept_ite, ite_self, kept_put, kept_deviceReset]

theorem kept_startGm {M : List Part} [Has M .registers] [Has M .accum] [Has M .time] [Has M .intc] [Has M .host]
    [Has M .io] (s : State) (d : Domain) : kept M (startGm s d) = kept M s := by
  unfold startGm
  simp only [kept_ite, ite_self, kept_becomeGm]

theorem kept_reportTamper {M : List Part} [Has M .registers] [Has M .accum] [Has M .jobs] [Has M .faults] [Has M
    .intc] [Has M .host] [Has M .cont] [Has M .vault] [Has M .sheet] [Has M .wake] [Has M .io] (s : State) : kept M
    (reportTamper s) = kept M s := by
  unfold reportTamper
  simp only [kept_mk, true_or, or_true, and_self, listed, kept_ite, ite_self, kept_journal, kept_recordFault]

theorem kept_rejectLarge {M : List Part} [Has M .registers] [Has M .accum] [Has M .jobs] [Has M .sheet] (s : State)
    : kept M (rejectLarge s) = kept M s := by
  unfold rejectLarge
  simp only [kept_mk, true_or, or_true, and_self, listed, kept_ite, ite_self, kept_foldl, kept_forIdx, implies_true,
    kept_jobRejected]

theorem kept_startForwarding {M : List Part} [Has M .registers] [Has M .accum] [Has M .time] [Has M .jobs] [Has M
    .faults] [Has M .intc] [Has M .host] [Has M .cont] [Has M .boot] [Has M .vault] [Has M .sheet] [Has M .frames]
    [Has M .edge] [Has M .wake] [Has M .io] (s : State) : kept M (startForwarding s) = kept M s := by
  unfold startForwarding
  simp only [kept_mk, true_or, or_true, and_self, listed, kept_put, kept_refreshFaultN, kept_writeKeys,
    kept_ripcordAtStart, kept_startEdge, kept_startGm, kept_reportTamper, kept_rejectLarge]

theorem kept_resumeTime {M : List Part} [Has M .registers] [Has M .time] (s : State) : kept M (resumeTime s) = kept
    M s := by
  unfold resumeTime
  simp only [kept_mk, true_or, or_true, and_self, listed, kept_put, kept_putFlag]

theorem kept_resumeAges {M : List Part} [Has M .tables] [Has M .wake] (s : State) : kept M (resumeAges s) = kept M s
    := by
  unfold resumeAges
  simp only [kept_mk, true_or, or_true, and_self, listed, kept_ite, ite_self, kept_forIdx, implies_true]

theorem kept_clearCan {M : List Part} [Has M .registers] (n : Nat) (s : State) : kept M (clearCan n s) = kept M s :=
    by
  unfold clearCan
  simp only [kept_ite, ite_self, kept_put]

theorem kept_forwardingReady {M : List Part} [Has M .registers] [Has M .accum] [Has M .time] [Has M .jobs] [Has M
    .faults] [Has M .intc] [Has M .host] [Has M .cont] [Has M .boot] [Has M .vault] [Has M .sheet] [Has M .frames]
    [Has M .tables] [Has M .tm] [Has M .edge] [Has M .wake] [Has M .io] [Has M .draws] (s : State) : kept M
    (forwardingReady s) = kept M s := by
  unfold forwardingReady
  simp only [kept_mk, true_or, or_true, and_self, listed, kept_ite, ite_self, kept_forIdx, implies_true, kept_put,
    kept_syncLists, kept_restoreInterrupts, kept_presentCaptured, kept_disarm, kept_startForwarding,
    kept_resumeTime, kept_resumeAges, kept_clearCan]

theorem kept_showPrefer {M : List Part} [Has M .registers] (s : State) : kept M (showPrefer s) = kept M s := by
  unfold showPrefer
  simp only [kept_put]

theorem kept_setSlotMem {M : List Part} [Has M .registers] [Has M .flash] (s : State) (b : Bool) (m : Mem) : kept M
    (setSlotMem s b m) = kept M s := by
  unfold setSlotMem
  simp only [kept_mk, true_or, or_true, and_self, listed, kept_ite, ite_self, kept_showPrefer]

theorem kept_programSlot {M : List Part} [Has M .registers] [Has M .flash] (s : State) (b : Bool) (off : Nat) (bs :
    List Byte) : kept M (programSlot s b off bs) = kept M s := by
  unfold programSlot
  simp only [kept_setSlotMem]

theorem kept_programPrefer {M : List Part} [Has M .registers] [Has M .flash] (s : State) (b : Bool) : kept M
    (programPrefer s b) = kept M s := by
  unfold programPrefer
  simp only [kept_programSlot]

theorem kept_verdict {M : List Part} [Has M .registers] [Has M .draws] (s : State) (r : Except (Nat × Option Nat)
    Loaded) : kept M (verdict s r).2 = kept M s := by
  unfold verdict
  (repeat' split) <;> simp only [kept_mk, true_or, or_true, and_self, listed, kept_put]

theorem kept_copyParts {M : List Part} [Has M .banks] (s : State) (b : Bool) (spArea gcArea : Nat) : kept M
    (copyParts s b spArea gcArea) = kept M s := by
  unfold copyParts
  simp only [kept_mk, true_or, or_true, and_self, listed]

theorem kept_beginReset {M : List Part} [Has M .registers] [Has M .accum] [Has M .time] [Has M .jobs] [Has M
    .policy] [Has M .epochs] [Has M .faults] [Has M .intc] [Has M .host] [Has M .cpu] [Has M .banks] [Has M .cont]
    [Has M .boot] [Has M .img] [Has M .vault] [Has M .sheet] [Has M .frames] [Has M .tables] [Has M .links] [Has M
    .tm] [Has M .edge] [Has M .wake] [Has M .cnt] [Has M .io] (s : State) (cause : Nat) : kept M (beginReset s
    cause) = kept M s := by
  unfold beginReset
  (repeat' split) <;> simp only [kept_mk, true_or, or_true, and_self, listed, kept_deviceReset]

theorem kept_showVbat {M : List Part} [Has M .registers] (s : State) (v : Nat) : kept M (showVbat s v) = kept M s :=
    by
  unfold showVbat
  simp only [kept_put]

theorem kept_vbatReads {M : List Part} [Has M .registers] [Has M .draws] (s : State) (cv : Nat) : kept M (vbatReads
    s cv) = kept M s := by
  unfold vbatReads
  simp only [kept_ite, ite_self, kept_put, kept_putFlag, kept_draw, kept_showVbat]

theorem kept_showTemp {M : List Part} [Has M .registers] (s : State) (i : Nat) (t : Int) : kept M (showTemp s i t) =
    kept M s := by
  unfold showTemp
  simp only [kept_ite, ite_self, kept_put]

theorem kept_thermReads {M : List Part} [Has M .registers] (s : State) : kept M (thermReads s) = kept M s := by
  unfold thermReads
  simp only [kept_ite, ite_self, kept_put, kept_putFlag]

theorem kept_tempReads {M : List Part} [Has M .registers] [Has M .draws] (i : Nat) (s : State) : kept M (tempReads i
    s) = kept M s := by
  unfold tempReads
  simp only [kept_ite, ite_self, kept_put, kept_draw]

theorem kept_measureAll {M : List Part} [Has M .registers] [Has M .draws] (s : State) : kept M (measureAll s) = kept
    M s := by
  unfold measureAll
  simp only [kept_forIdx, implies_true, kept_put, kept_draw, kept_vbatReads, kept_thermReads, kept_tempReads]

theorem kept_releaseDie {M : List Part} [Has M .registers] [Has M .host] [Has M .boot] [Has M .wake] [Has M .io]
    [Has M .draws] (s : State) (st : Straps) : kept M (releaseDie s st) = kept M s := by
  unfold releaseDie
  (repeat' split) <;> first | with_reducible rfl | (simp only [kept_mk, true_or, or_true, and_self, listed, kept_ite, ite_self, kept_put, kept_putFlag, kept_wakeOutside, kept_measureAll]; done) | ((try dsimp only); (repeat' split) <;> first | with_reducible rfl | (simp only [kept_mk, true_or, or_true, and_self, listed, kept_ite, ite_self, kept_put, kept_putFlag, kept_wakeOutside, kept_measureAll]; done))

theorem kept_powerOn {M : List Part} [Has M .registers] [Has M .boot] (s : State) : kept M (powerOn s) = kept M s :=
    by
  unfold powerOn
  simp only [kept_mk, true_or, or_true, and_self, listed, kept_ite, ite_self, kept_putFlag]

theorem kept_railsGood {M : List Part} [Has M .registers] [Has M .host] [Has M .boot] [Has M .wake] [Has M .io] [Has
    M .draws] (s : State) (st : Straps) : kept M (railsGood s st) = kept M s := by
  unfold railsGood
  (repeat' split) <;> simp only [kept_mk, true_or, or_true, and_self, listed, kept_releaseDie]

theorem kept_resetAssert {M : List Part} [Has M .registers] [Has M .accum] [Has M .time] [Has M .jobs] [Has M
    .policy] [Has M .epochs] [Has M .faults] [Has M .intc] [Has M .host] [Has M .cpu] [Has M .banks] [Has M .cont]
    [Has M .boot] [Has M .img] [Has M .vault] [Has M .sheet] [Has M .frames] [Has M .tables] [Has M .links] [Has M
    .tm] [Has M .edge] [Has M .wake] [Has M .cnt] [Has M .io] [Has M .draws] (s : State) (ns : Nat) : kept M
    (resetAssert s ns) = kept M s := by
  unfold resetAssert
  simp only [kept_mk, true_or, or_true, and_self, listed, kept_ite, ite_self, kept_draw, kept_beginReset]

theorem kept_resetRelease {M : List Part} [Has M .registers] [Has M .host] [Has M .boot] [Has M .wake] [Has M .io]
    [Has M .draws] (s : State) (st : Straps) : kept M (resetRelease s st) = kept M s := by
  unfold resetRelease
  simp only [kept_mk, true_or, or_true, and_self, listed, kept_ite, ite_self, kept_releaseDie]

theorem kept_resetWrite {M : List Part} [Has M .registers] [Has M .accum] [Has M .time] [Has M .jobs] [Has M
    .policy] [Has M .epochs] [Has M .faults] [Has M .intc] [Has M .host] [Has M .cpu] [Has M .banks] [Has M .cont]
    [Has M .boot] [Has M .img] [Has M .vault] [Has M .sheet] [Has M .frames] [Has M .tables] [Has M .links] [Has M
    .tm] [Has M .edge] [Has M .wake] [Has M .cnt] [Has M .io] (s : State) (m : Master) (w : Nat) : kept M
    (resetWrite s m w) = kept M s := by
  unfold resetWrite
  simp only [kept_ite, ite_self, kept_beginReset]

theorem kept_resetReq {M : List Part} [Has M .registers] [Has M .accum] [Has M .time] [Has M .jobs] [Has M .policy]
    [Has M .epochs] [Has M .faults] [Has M .intc] [Has M .host] [Has M .cpu] [Has M .banks] [Has M .cont] [Has M
    .boot] [Has M .img] [Has M .vault] [Has M .sheet] [Has M .frames] [Has M .tables] [Has M .links] [Has M .tm]
    [Has M .edge] [Has M .wake] [Has M .cnt] [Has M .io] (s : State) (m : Master) (w : Nat) : kept M (resetReq s m
    w) = kept M s := by
  unfold resetReq
  simp only [kept_ite, ite_self, kept_answer, kept_noteGrant, kept_accessWrite, kept_resetWrite, implies_true]

theorem kept_enterRecovery {M : List Part} [Has M .banks] [Has M .boot] [Has M .img] (s : State) (entry : Nat) :
    kept M (enterRecovery s entry) = kept M s := by
  unfold enterRecovery
  simp only [kept_mk, true_or, or_true, and_self, listed]

theorem kept_memoryInitDone {M : List Part} [Has M .registers] [Has M .banks] [Has M .boot] [Has M .img] (s : State)
    (fail : MemInitFail) : kept M (memoryInitDone s fail) = kept M s := by
  unfold memoryInitDone
  (repeat' split) <;> simp only [kept_mk, true_or, or_true, and_self, listed, kept_put, kept_showPrefer,
    kept_enterRecovery]

theorem kept_askBreak {M : List Part} [Has M .registers] [Has M .accum] [Has M .jobs] [Has M .sheet] (s : State) (q
    reason : Nat) : kept M (askBreak s q reason) = kept M s := by
  unfold askBreak
  simp only [kept_ite, ite_self, kept_requestSp]

theorem kept_checkSheet {M : List Part} [Has M .registers] [Has M .accum] [Has M .jobs] [Has M .faults] [Has M
    .intc] [Has M .host] [Has M .cont] [Has M .sheet] [Has M .wake] [Has M .io] (s : State) : kept M (checkSheet s)
    = kept M s := by
  unfold checkSheet
  (repeat' split) <;> simp only [kept_ite, ite_self, kept_recordFault, kept_askBreak]

theorem kept_markClock {M : List Part} [Has M .time] (s : State) : kept M (markClock s) = kept M s := by
  unfold markClock
  simp only [kept_mk, true_or, or_true, and_self, listed]

theorem kept_keptEscalation {M : List Part} [Has M .registers] [Has M .accum] [Has M .jobs] [Has M .faults] [Has M
    .sheet] (s : State) : kept M (keptEscalation s) = kept M s := by
  unfold keptEscalation
  simp only [kept_mk, true_or, or_true, and_self, listed, kept_ite, ite_self, kept_requestSp]

theorem kept_readBlob {M : List Part} [Has M .vault] [Has M .edge] (s : State) (damaged : List Nat) : kept M
    (readBlob s damaged) = kept M s := by
  unfold readBlob
  simp only [kept_mk, true_or, or_true, and_self, listed, kept_ite, ite_self, kept_readKeys]

theorem kept_acceptImage {M : List Part} [Has M .registers] [Has M .accum] [Has M .time] [Has M .jobs] [Has M
    .policy] [Has M .epochs] [Has M .faults] [Has M .intc] [Has M .host] [Has M .cont] [Has M .boot] [Has M .vault]
    [Has M .sheet] [Has M .frames] [Has M .tables] [Has M .edge] [Has M .wake] [Has M .io] [Has M .draws] (s :
    State) (b : Bool) (l : Loaded) : kept M (acceptImage s b l) = kept M s := by
  unfold acceptImage
  simp only [kept_mk, true_or, or_true, and_self, listed, kept_put, kept_putFlag, kept_journal, kept_refreshSheet,
    kept_loadKeys, kept_loadEnvelope, kept_loadPns, kept_checkCoefs, kept_loadRipcord, kept_fvRestore,
    kept_checkSheet, kept_markClock, kept_keptEscalation]

theorem kept_imagePassDone {M : List Part} [Has M .registers] [Has M .accum] [Has M .time] [Has M .jobs] [Has M
    .policy] [Has M .epochs] [Has M .faults] [Has M .intc] [Has M .host] [Has M .banks] [Has M .cont] [Has M .boot]
    [Has M .img] [Has M .vault] [Has M .sheet] [Has M .frames] [Has M .tables] [Has M .edge] [Has M .wake] [Has M
    .io] [Has M .draws] (s : State) (damaged : List Nat) : kept M (imagePassDone s damaged) = kept M s := by
  unfold imagePassDone
  dsimp only
  (repeat' split) <;> simp only [kept_mk, true_or, or_true, and_self, listed, kept_put, kept_putFlag, kept_verdict,
    kept_copyParts, kept_enterRecovery, kept_readBlob, kept_acceptImage]

theorem kept_calibrationDone {M : List Part} [Has M .registers] [Has M .time] [Has M .boot] (s : State) (ports
    channels : List Nat) : kept M (calibrationDone s ports channels) = kept M s := by
  unfold calibrationDone
  simp only [kept_mk, true_or, or_true, and_self, listed, kept_ite, ite_self, kept_put, kept_markClock]

theorem kept_vbatLoss {M : List Part} [Has M .registers] [Has M .accum] [Has M .time] [Has M .jobs] [Has M .policy]
    [Has M .epochs] [Has M .faults] [Has M .intc] [Has M .host] [Has M .cpu] [Has M .banks] [Has M .cont] [Has M
    .boot] [Has M .img] [Has M .vault] [Has M .sheet] [Has M .frames] [Has M .tables] [Has M .links] [Has M .tm]
    [Has M .edge] [Has M .wake] [Has M .cnt] [Has M .io] (s : State) : kept M (vbatLoss s) = kept M s := by
  unfold vbatLoss
  simp only [kept_ite, ite_self, kept_powerOff]

theorem kept_vbatLevel {M : List Part} [Has M .registers] [Has M .draws] (s : State) (cv : Nat) : kept M (vbatLevel
    s cv) = kept M s := by
  unfold vbatLevel
  simp only [kept_ite, ite_self, kept_vbatReads]

theorem kept_thermalWarning {M : List Part} [Has M .registers] (s : State) (i : Nat) (t : Int) : kept M
    (thermalWarning s i t) = kept M s := by
  unfold thermalWarning
  simp only [kept_ite, ite_self, kept_showTemp, kept_thermReads]

theorem kept_thermalTrip {M : List Part} [Has M .registers] [Has M .accum] [Has M .time] [Has M .jobs] [Has M
    .policy] [Has M .epochs] [Has M .faults] [Has M .intc] [Has M .host] [Has M .cpu] [Has M .banks] [Has M .cont]
    [Has M .boot] [Has M .img] [Has M .vault] [Has M .sheet] [Has M .frames] [Has M .tables] [Has M .links] [Has M
    .tm] [Has M .edge] [Has M .wake] [Has M .cnt] [Has M .io] (s : State) : kept M (thermalTrip s) = kept M s := by
  unfold thermalTrip
  simp only [kept_mk, true_or, or_true, and_self, listed, kept_ite, ite_self, kept_beginReset]

theorem kept_thermalClear {M : List Part} [Has M .registers] [Has M .host] [Has M .boot] [Has M .wake] [Has M .io]
    [Has M .draws] (s : State) : kept M (thermalClear s) = kept M s := by
  unfold thermalClear
  simp only [kept_mk, true_or, or_true, and_self, listed, kept_ite, ite_self, kept_draw, kept_releaseDie]

theorem kept_imgDone {M : List Part} [Has M .registers] [Has M .img] (s : State) (r : Nat) : kept M (imgDone s r) =
    kept M s := by
  unfold imgDone
  simp only [kept_mk, true_or, or_true, and_self, listed, kept_put]

theorem kept_imgStart {M : List Part} [Has M .registers] [Has M .img] (s : State) (op dst : Nat) (bs : List Byte) :
    kept M (imgStart s op dst bs) = kept M s := by
  unfold imgStart
  simp only [kept_mk, true_or, or_true, and_self, listed, kept_put]

theorem kept_imgWriteGo {M : List Part} [Has M .registers] [Has M .cpu] [Has M .img] (s : State) (b : Nat) : kept M
    (imgWriteGo s b) = kept M s := by
  unfold imgWriteGo
  simp only [kept_ite, ite_self, kept_put, kept_takeMark, kept_imgDone, kept_imgStart]

theorem kept_castleGo {M : List Part} [Has M .registers] [Has M .epochs] [Has M .img] (s : State) : kept M (castleGo
    s) = kept M s := by
  unfold castleGo
  simp only [kept_mk, true_or, or_true, and_self, listed, kept_put]

theorem kept_imgAbort {M : List Part} [Has M .registers] [Has M .img] (s : State) : kept M (imgAbort s) = kept M s
    := by
  unfold imgAbort
  simp only [kept_mk, true_or, or_true, and_self, listed, kept_ite, ite_self, kept_put, kept_imgDone]

theorem kept_imgCtl {M : List Part} [Has M .registers] [Has M .epochs] [Has M .cpu] [Has M .img] [Has M .vault] (s :
    State) (m : Master) (op : Nat) : kept M (imgCtl s m op) = kept M s := by
  unfold imgCtl
  dsimp only
  (repeat' split) <;> simp only [kept_mk, true_or, or_true, and_self, listed, kept_put, kept_digestStart,
    kept_imgDone, kept_imgStart, kept_imgWriteGo, kept_castleGo, kept_imgAbort]

theorem kept_eraseSlot {M : List Part} [Has M .registers] [Has M .flash] [Has M .img] (s : State) (b : Bool) : kept
    M (eraseSlot s b) = kept M s := by
  unfold eraseSlot
  simp only [kept_mk, true_or, or_true, and_self, listed, kept_setSlotMem]

theorem kept_imgEraseDone {M : List Part} [Has M .registers] [Has M .flash] [Has M .img] (s : State) : kept M
    (imgEraseDone s) = kept M s := by
  unfold imgEraseDone
  (repeat' split) <;> simp only [kept_imgDone, kept_eraseSlot]

theorem kept_imgWriteDone {M : List Part} [Has M .registers] [Has M .flash] [Has M .img] (s : State) : kept M
    (imgWriteDone s) = kept M s := by
  unfold imgWriteDone
  (repeat' split) <;> simp only [kept_programSlot, kept_imgDone]

theorem kept_imgVerifyDone {M : List Part} [Has M .registers] [Has M .img] [Has M .vault] [Has M .draws] (s : State)
    : kept M (imgVerifyDone s) = kept M s := by
  unfold imgVerifyDone
  (repeat' split) <;> simp only [kept_putFlag, kept_digestEnd, kept_verdict, kept_imgDone]

theorem kept_moveJobs {M : List Part} [Has M .jobs] (s : State) (f : Nat → Nat) : kept M (moveJobs s f) = kept M s
    := by
  unfold moveJobs
  simp only [kept_mk, true_or, or_true, and_self, listed]

theorem kept_castlingEntry {M : List Part} [Has M .registers] [Has M .accum] [Has M .jobs] [Has M .fuses] [Has M
    .sheet] (s : State) (old : Bool) (result : Nat) : kept M (castlingEntry s old result) = kept M s := by
  unfold castlingEntry
  simp only [kept_journal]

theorem kept_castIdle {M : List Part} [Has M .registers] [Has M .epochs] [Has M .img] (s : State) (result : Nat) :
    kept M (castIdle s result) = kept M s := by
  unfold castIdle
  simp only [kept_mk, true_or, or_true, and_self, listed, kept_put, kept_imgDone]

theorem kept_resetPartners {M : List Part} [Has M .host] (s : State) : kept M (resetPartners s) = kept M s := by
  unfold resetPartners
  simp only [kept_mk, true_or, or_true, and_self, listed, kept_ite, ite_self]

theorem kept_stopPartners {M : List Part} [Has M .jobs] [Has M .host] (s : State) : kept M (stopPartners s) = kept M
    s := by
  unfold stopPartners
  simp only [kept_mk, true_or, or_true, and_self, listed, kept_ite, ite_self, kept_resetPartners]

theorem kept_dropDigest {M : List Part} [Has M .registers] [Has M .vault] (s : State) : kept M (dropDigest s) = kept
    M s := by
  unfold dropDigest
  simp only [kept_ite, ite_self, kept_digestEnd]

theorem kept_abandon {M : List Part} [Has M .registers] [Has M .accum] [Has M .jobs] [Has M .policy] [Has M .epochs]
    [Has M .intc] [Has M .host] [Has M .img] [Has M .vault] [Has M .fuses] [Has M .sheet] [Has M .tables] [Has M
    .io] (s : State) (result : Nat) : kept M (abandon s result) = kept M s := by
  unfold abandon
  simp only [kept_mk, true_or, or_true, and_self, listed, kept_ite, ite_self, kept_bump, kept_commitFail,
    kept_castlingEntry, kept_castIdle, kept_stopPartners, kept_dropDigest]

theorem kept_castLoad {M : List Part} [Has M .registers] [Has M .jobs] [Has M .host] [Has M .vault] (s : State) :
    kept M (castLoad s) = kept M s := by
  unfold castLoad
  simp only [kept_put, kept_digestStart, kept_moveJobs, kept_resetPartners]

theorem kept_castlingLoadDone {M : List Part} [Has M .registers] [Has M .banks] [Has M .img] [Has M .vault] (s :
    State) (digestsOk : Bool) : kept M (castlingLoadDone s digestsOk) = kept M s := by
  unfold castlingLoadDone
  simp only [kept_mk, true_or, or_true, and_self, listed, kept_ite, ite_self, kept_copyParts, kept_dropDigest]

theorem kept_castPrepare {M : List Part} [Has M .registers] [Has M .accum] [Has M .jobs] [Has M .policy] [Has M
    .epochs] [Has M .intc] [Has M .host] [Has M .cpu] [Has M .img] [Has M .tables] [Has M .io] (s : State) : kept M
    (castPrepare s) = kept M s := by
  unfold castPrepare
  dsimp only
  (repeat' split) <;> simp only [kept_mk, true_or, or_true, and_self, listed, kept_put, kept_bump, kept_commitBegin]

theorem kept_stopChan {M : List Part} [Has M .registers] [Has M .accum] [Has M .frames] [Has M .edge] (n : Nat) (s :
    State) : kept M (stopChan n s) = kept M s := by
  unfold stopChan
  dsimp only
  (repeat' split) <;> simp only [kept_mk, true_or, or_true, and_self, listed, kept_foldl, implies_true, kept_put,
    kept_bump, kept_setAgain, kept_setTxq, kept_releaseMsg, kept_linDrop]

theorem kept_stopPort {M : List Part} [Has M .registers] [Has M .accum] [Has M .intc] [Has M .host] [Has M .frames]
    [Has M .links] [Has M .edge] [Has M .io] (p : Nat) (s : State) : kept M (stopPort p s) = kept M s := by
  unfold stopPort
  simp only [kept_ite, ite_self, kept_flushPort, kept_enterLink, kept_goDown]

theorem kept_castFlip {M : List Part} [Has M .registers] [Has M .accum] [Has M .jobs] [Has M .epochs] [Has M .intc]
    [Has M .host] [Has M .boot] [Has M .img] [Has M .fuses] [Has M .frames] [Has M .links] [Has M .edge] [Has M .io]
    (s : State) : kept M (castFlip s) = kept M s := by
  unfold castFlip
  dsimp only
  (repeat' split) <;> simp only [kept_mk, true_or, or_true, and_self, listed, kept_foldl, implies_true, kept_put,
    kept_putFlag, kept_showStructural, kept_showEnvelope, kept_applyAdmin, kept_checkCoefs, kept_applyChan,
    kept_moveJobs, kept_stopChan, kept_stopPort]

theorem kept_spWindowStart {M : List Part} [Has M .registers] [Has M .cpu] [Has M .boot] [Has M .img] (s : State) :
    kept M (spWindowStart s) = kept M s := by
  unfold spWindowStart
  simp only [kept_mk, true_or, or_true, and_self, listed, kept_ite, ite_self, kept_put]

theorem kept_spReady {M : List Part} [Has M .img] (s : State) : kept M (spReady s) = kept M s := by
  unfold spReady
  simp only [kept_mk, true_or, or_true, and_self, listed, kept_ite, ite_self]

theorem kept_spWindowExpiry {M : List Part} [Has M .cpu] (s : State) : kept M (spWindowExpiry s) = kept M s := by
  unfold spWindowExpiry
  simp only [kept_mk, true_or, or_true, and_self, listed, kept_ite, ite_self]

theorem kept_castFinish {M : List Part} [Has M .registers] [Has M .accum] [Has M .jobs] [Has M .epochs] [Has M .cpu]
    [Has M .flash] [Has M .img] [Has M .fuses] [Has M .sheet] (s : State) : kept M (castFinish s) = kept M s := by
  unfold castFinish
  simp only [kept_mk, true_or, or_true, and_self, listed, kept_bump, kept_programPrefer, kept_castlingEntry,
    kept_castIdle]

theorem kept_castlingTimeout {M : List Part} [Has M .registers] [Has M .accum] [Has M .jobs] [Has M .policy] [Has M
    .epochs] [Has M .intc] [Has M .host] [Has M .img] [Has M .vault] [Has M .fuses] [Has M .sheet] [Has M .tables]
    [Has M .io] (s : State) : kept M (castlingTimeout s) = kept M s := by
  unfold castlingTimeout
  simp only [kept_mk, true_or, or_true, and_self, listed, kept_ite, ite_self, kept_abandon]

theorem kept_writeCarried {M : List Part} [Has M .banks] [Has M .img] [Has M .draws] (s : State) : kept M
    (writeCarried s) = kept M s := by
  unfold writeCarried
  simp only [kept_mk, true_or, or_true, and_self, listed, kept_ite, ite_self]

theorem kept_handoverJob {M : List Part} [Has M .banks] [Has M .img] [Has M .draws] (s : State) : kept M
    (handoverJob s) = kept M s := by
  unfold handoverJob
  simp only [kept_ite, ite_self, kept_writeCarried]

theorem kept_castBefore {M : List Part} [Has M .registers] [Has M .accum] [Has M .jobs] [Has M .policy] [Has M
    .epochs] [Has M .intc] [Has M .host] [Has M .banks] [Has M .img] [Has M .vault] [Has M .fuses] [Has M .sheet]
    [Has M .tables] [Has M .io] [Has M .draws] (s : State) : kept M (castBefore s) = kept M s := by
  unfold castBefore
  (repeat' split) <;> first | with_reducible rfl | (simp only [kept_abandon, kept_writeCarried]; done) | ((try dsimp only); (repeat' split) <;> first | with_reducible rfl | (simp only [kept_abandon, kept_writeCarried]; done))

theorem kept_castAfter {M : List Part} [Has M .registers] [Has M .accum] [Has M .jobs] [Has M .policy] [Has M
    .epochs] [Has M .intc] [Has M .host] [Has M .cpu] [Has M .flash] [Has M .boot] [Has M .img] [Has M .vault] [Has
    M .fuses] [Has M .sheet] [Has M .frames] [Has M .tables] [Has M .links] [Has M .edge] [Has M .io] (s : State) :
    kept M (castAfter s) = kept M s := by
  unfold castAfter
  (repeat' split) <;> simp only [kept_castLoad, kept_castPrepare, kept_castFlip, kept_castFinish]

theorem kept_setMb {M : List Part} [Has M .banks] [Has M .vault] [Has M .draws] (s : State) (off v : Nat) : kept M
    (setMb s off v) = kept M s := by
  unfold setMb
  simp only [kept_setBankH]

theorem kept_mbStatus {M : List Part} [Has M .banks] [Has M .vault] [Has M .draws] (s : State) (st res tag : Nat) :
    kept M (mbStatus s st res tag) = kept M s := by
  unfold mbStatus
  simp only [kept_setMb]

theorem kept_romStart {M : List Part} [Has M .banks] [Has M .img] [Has M .vault] [Has M .draws] (s : State) (op :
    Nat) (b : Bool) (off len tag : Nat) (bs : List Byte) : kept M (romStart s op b off len tag bs) = kept M s := by
  unfold romStart
  simp only [kept_mk, true_or, or_true, and_self, listed, kept_mbStatus]

theorem kept_romPoll {M : List Part} [Has M .registers] [Has M .accum] [Has M .time] [Has M .jobs] [Has M .policy]
    [Has M .epochs] [Has M .faults] [Has M .intc] [Has M .host] [Has M .cpu] [Has M .banks] [Has M .flash] [Has M
    .cont] [Has M .boot] [Has M .img] [Has M .vault] [Has M .sheet] [Has M .frames] [Has M .tables] [Has M .links]
    [Has M .tm] [Has M .edge] [Has M .wake] [Has M .cnt] [Has M .io] [Has M .draws] (s : State) : kept M (romPoll s)
    = kept M s := by
  unfold romPoll
  dsimp only
  (repeat' split) <;> simp only [kept_programPrefer, kept_beginReset, kept_mbStatus, kept_romStart]

theorem kept_mbCommand {M : List Part} [Has M .registers] [Has M .accum] [Has M .time] [Has M .jobs] [Has M .policy]
    [Has M .epochs] [Has M .faults] [Has M .intc] [Has M .host] [Has M .cpu] [Has M .banks] [Has M .flash] [Has M
    .cont] [Has M .boot] [Has M .img] [Has M .vault] [Has M .sheet] [Has M .frames] [Has M .tables] [Has M .links]
    [Has M .tm] [Has M .edge] [Has M .wake] [Has M .cnt] [Has M .io] [Has M .draws] (s : State) (op : Nat) (b :
    Bool) (off len : Nat) : kept M (mbCommand s op b off len) = kept M s := by
  unfold mbCommand
  simp only [kept_ite, ite_self, kept_setMb, kept_romPoll]

theorem kept_recoveryDone {M : List Part} [Has M .registers] [Has M .accum] [Has M .time] [Has M .jobs] [Has M
    .policy] [Has M .epochs] [Has M .faults] [Has M .intc] [Has M .host] [Has M .cpu] [Has M .banks] [Has M .flash]
    [Has M .cont] [Has M .boot] [Has M .img] [Has M .vault] [Has M .sheet] [Has M .frames] [Has M .tables] [Has M
    .links] [Has M .tm] [Has M .edge] [Has M .wake] [Has M .cnt] [Has M .io] [Has M .draws] (s : State) : kept M
    (recoveryDone s) = kept M s := by
  unfold recoveryDone
  (repeat' split) <;> simp only [kept_mk, true_or, or_true, and_self, listed, kept_ite, ite_self, kept_programSlot,
    kept_verdict, kept_eraseSlot, kept_mbStatus, kept_romPoll]

theorem kept_lcResult {M : List Part} [Has M .registers] [Has M .accum] [Has M .intc] [Has M .host] [Has M .io] (s :
    State) (r : Nat) : kept M (lcResult s r) = kept M s := by
  unfold lcResult
  simp only [kept_ite, ite_self, kept_put, kept_raiseSource]

theorem kept_lcErase {M : List Part} [Has M .vault] [Has M .edge] (s : State) (goal : Nat) : kept M (lcErase s goal)
    = kept M s := by
  unfold lcErase
  simp only [kept_mk, true_or, or_true, and_self, listed, kept_ite, ite_self]

theorem kept_lcChange {M : List Part} [Has M .registers] [Has M .accum] [Has M .time] [Has M .jobs] [Has M .policy]
    [Has M .epochs] [Has M .faults] [Has M .intc] [Has M .host] [Has M .cpu] [Has M .banks] [Has M .cont] [Has M
    .boot] [Has M .img] [Has M .vault] [Has M .fuses] [Has M .anchors] [Has M .sheet] [Has M .sheetLog] [Has M
    .frames] [Has M .tables] [Has M .links] [Has M .tm] [Has M .edge] [Has M .wake] [Has M .cnt] [Has M .io] [Has M
    .draws] (s : State) (m : Master) (goal : Nat) : kept M (lcChange s m goal) = kept M s := by
  unfold lcChange
  simp only [kept_mk, true_or, or_true, and_self, listed, kept_draw, kept_wipeSecure, kept_sheetAppend,
    kept_beginReset, kept_lcErase]

theorem kept_lcAct {M : List Part} [Has M .registers] [Has M .accum] [Has M .time] [Has M .jobs] [Has M .policy]
    [Has M .epochs] [Has M .faults] [Has M .intc] [Has M .host] [Has M .cpu] [Has M .banks] [Has M .cont] [Has M
    .boot] [Has M .img] [Has M .vault] [Has M .fuses] [Has M .anchors] [Has M .sheet] [Has M .sheetLog] [Has M
    .frames] [Has M .tables] [Has M .links] [Has M .tm] [Has M .edge] [Has M .wake] [Has M .cnt] [Has M .io] [Has M
    .draws] (s : State) (m : Master) (goal : Nat) : kept M (lcAct s m goal) = kept M s := by
  unfold lcAct
  simp only [kept_ite, ite_self, kept_journal, kept_lcResult, kept_lcChange]

theorem kept_lcReqWrite {M : List Part} [Has M .registers] [Has M .accum] [Has M .time] [Has M .jobs] [Has M
    .policy] [Has M .epochs] [Has M .faults] [Has M .intc] [Has M .host] [Has M .cpu] [Has M .banks] [Has M .cont]
    [Has M .boot] [Has M .img] [Has M .vault] [Has M .fuses] [Has M .anchors] [Has M .sheet] [Has M .sheetLog] [Has
    M .frames] [Has M .tables] [Has M .links] [Has M .tm] [Has M .edge] [Has M .wake] [Has M .cnt] [Has M .io] [Has
    M .draws] (s : State) (m : Master) (w : Nat) : kept M (lcReqWrite s m w) = kept M s := by
  unfold lcReqWrite
  (repeat' split) <;> first | with_reducible rfl | (simp only [kept_mk, true_or, or_true, and_self, listed, kept_ite, ite_self, kept_put, kept_lcResult, kept_lcAct]; done) | ((try dsimp only); (repeat' split) <;> first | with_reducible rfl | (simp only [kept_mk, true_or, or_true, and_self, listed, kept_ite, ite_self, kept_put, kept_lcResult, kept_lcAct]; done))

theorem kept_lcResume {M : List Part} [Has M .registers] [Has M .accum] [Has M .time] [Has M .jobs] [Has M .policy]
    [Has M .epochs] [Has M .faults] [Has M .intc] [Has M .host] [Has M .cpu] [Has M .banks] [Has M .cont] [Has M
    .boot] [Has M .img] [Has M .vault] [Has M .fuses] [Has M .anchors] [Has M .sheet] [Has M .sheetLog] [Has M
    .frames] [Has M .tables] [Has M .links] [Has M .tm] [Has M .edge] [Has M .wake] [Has M .cnt] [Has M .io] [Has M
    .draws] (s : State) : kept M (lcResume s) = kept M s := by
  unfold lcResume
  (repeat' split) <;> first | with_reducible rfl | (simp only [kept_mk, true_or, or_true, and_self, listed, kept_ite, ite_self, kept_put, kept_lcResult, kept_lcAct]; done) | ((try dsimp only); (repeat' split) <;> first | with_reducible rfl | (simp only [kept_mk, true_or, or_true, and_self, listed, kept_ite, ite_self, kept_put, kept_lcResult, kept_lcAct]; done))

theorem kept_startFetch {M : List Part} [Has M .registers] [Has M .accum] [Has M .host] [Has M .io] (s : State) (r
    left : Nat) (stalled : Bool) : kept M (startFetch s r left stalled) = kept M s := by
  unfold startFetch
  simp only [kept_mk, true_or, or_true, and_self, listed, kept_ite, ite_self, kept_bump, kept_sendToHost,
    kept_drainPosted]

theorem kept_txFetch {M : List Part} [Has M .registers] [Has M .accum] [Has M .host] [Has M .io] (s : State)
    (stalled : Bool) : kept M (txFetch s stalled) = kept M s := by
  unfold txFetch
  (repeat' split) <;> simp only [kept_ite, ite_self, kept_startFetch]

theorem kept_fetchAgain {M : List Part} [Has M .registers] [Has M .accum] [Has M .host] [Has M .io] (s : State)
    (stalled : Bool) : kept M (fetchAgain s stalled) = kept M s := by
  unfold fetchAgain
  (repeat' split) <;> first | with_reducible rfl | (simp only [kept_mk, true_or, or_true, and_self, listed, kept_ite, ite_self, kept_startFetch]; done) | ((try dsimp only); (repeat' split) <;> first | with_reducible rfl | (simp only [kept_mk, true_or, or_true, and_self, listed, kept_ite, ite_self, kept_startFetch]; done))

theorem kept_leftUp {M : List Part} [Has M .registers] [Has M .accum] [Has M .host] [Has M .frames] (was : Bool) (s
    : State) : kept M (leftUp was s) = kept M s := by
  unfold leftUp
  simp only [kept_ite, ite_self, kept_flushPort]

theorem kept_txConsume {M : List Part} [Has M .registers] [Has M .host] (s : State) (r h : Nat) (d : List Byte)
    (status : Nat) (unit : Option Nat) : kept M (txConsume s r h d status unit) = kept M s := by
  unfold txConsume
  simp only [kept_setRing, kept_consume]

theorem kept_txFrame {M : List Part} [Has M .registers] [Has M .accum] [Has M .host] [Has M .frames] [Has M .wake]
    [Has M .draws] (s : State) (r h : Nat) (d bytes : List Byte) : kept M (txFrame s r h d bytes) = kept M s := by
  unfold txFrame
  (repeat' split) <;> first | with_reducible rfl | (simp only [kept_ite, ite_self, kept_bump, kept_countEnd, kept_receiveFrame, kept_addPacket, kept_txConsume]; done) | ((try dsimp only); (repeat' split) <;> first | with_reducible rfl | (simp only [kept_ite, ite_self, kept_bump, kept_countEnd, kept_receiveFrame, kept_addPacket, kept_txConsume]; done))

theorem kept_txFetchDone {M : List Part} [Has M .registers] [Has M .accum] [Has M .host] [Has M .frames] [Has M
    .wake] [Has M .draws] (s : State) (res : FetchResult) : kept M (txFetchDone s res) = kept M s := by
  unfold txFetchDone
  (repeat' split) <;> simp only [kept_mk, true_or, or_true, and_self, listed, kept_ite, ite_self, kept_put,
    kept_bump, kept_txConsume, kept_txFrame]

theorem kept_txCompletion {M : List Part} [Has M .registers] [Has M .accum] [Has M .host] [Has M .io] (s : State) (r
    : Nat) : kept M (txCompletion s r) = kept M s := by
  unfold txCompletion
  dsimp only
  (repeat' split) <;> simp only [kept_setRing, kept_moderate, kept_writeCpl]

theorem kept_settle {M : List Part} [Has M .registers] [Has M .accum] [Has M .frames] [Has M .tm] [Has M .wake] [Has
    M .io] (s : State) (a : Nat) : kept M (settle s a) = kept M s := by
  unfold settle
  simp only [kept_ite, ite_self, kept_flowSync, kept_gateSync, kept_netSync]

theorem kept_settleAll {M : List Part} [Has M .registers] [Has M .accum] [Has M .frames] [Has M .tm] [Has M .io] (s
    : State) : kept M (settleAll s) = kept M s := by
  unfold settleAll
  simp only [kept_ite, ite_self, kept_foldl, kept_forIdx, implies_true, kept_flowSync, kept_gateSync]

theorem kept_freeze {M : List Part} [Has M .registers] [Has M .accum] [Has M .intc] [Has M .host] [Has M .frames]
    [Has M .tm] [Has M .cnt] [Has M .io] (s0 : State) : kept M (freeze s0) = kept M s0 := by
  unfold freeze
  simp only [kept_mk, true_or, or_true, and_self, listed, kept_put, kept_settleAll]

theorem kept_snapRequest {M : List Part} [Has M .cnt] (s : State) (m : Master) : kept M (snapRequest s m) = kept M s
    := by
  unfold snapRequest
  simp only [kept_mk, true_or, or_true, and_self, listed, kept_ite, ite_self]

theorem kept_refreshPage {M : List Part} [Has M .cnt] (s : State) : kept M (refreshPage s) = kept M s := by
  unfold refreshPage
  simp only [kept_mk, true_or, or_true, and_self, listed]

theorem kept_centralCopy {M : List Part} [Has M .registers] (s : State) : kept M (centralCopy s) = kept M s := by
  unfold centralCopy
  simp only [kept_forIdx, implies_true, kept_put]

theorem kept_captured {M : List Part} [Has M .registers] [Has M .cnt] (s : State) : kept M (captured s) = kept M s
    := by
  unfold captured
  simp only [kept_refreshPage, kept_centralCopy]

theorem kept_copyRequest {M : List Part} [Has M .cnt] (s : State) : kept M (copyRequest s) = kept M s := by
  unfold copyRequest
  simp only [kept_mk, true_or, or_true, and_self, listed, kept_ite, ite_self]

theorem kept_dumpAtBoundary {M : List Part} [Has M .registers] [Has M .accum] [Has M .cnt] (s : State) (n : Nat) :
    kept M (dumpAtBoundary s n) = kept M s := by
  unfold dumpAtBoundary
  simp only [kept_mk, true_or, or_true, and_self, listed, kept_ite, ite_self, kept_bump]

theorem kept_copiesDue {M : List Part} [Has M .registers] [Has M .cnt] (s : State) : kept M (copiesDue s) = kept M s
    := by
  unfold copiesDue
  simp only [kept_mk, true_or, or_true, and_self, listed, kept_ite, ite_self, kept_centralCopy]

theorem kept_captures {M : List Part} [Has M .registers] [Has M .accum] [Has M .intc] [Has M .host] [Has M .frames]
    [Has M .tm] [Has M .cnt] [Has M .io] (s : State) (n : Nat) : kept M (captures s n) = kept M s := by
  unfold captures
  simp only [kept_ite, ite_self, kept_freeze, kept_captured, kept_dumpAtBoundary, kept_copiesDue]

theorem kept_writeRecord {M : List Part} [Has M .registers] [Has M .accum] [Has M .host] [Has M .io] (r : Nat) (s :
    State) (bs : List Byte) : kept M (writeRecord r s bs) = kept M s := by
  unfold writeRecord
  simp only [kept_bump, kept_sendToHost, kept_moderate, kept_consume, kept_writeCpl]

theorem kept_dumpDone {M : List Part} [Has M .registers] [Has M .accum] [Has M .host] [Has M .cnt] [Has M .io] (s :
    State) : kept M (dumpDone s) = kept M s := by
  unfold dumpDone
  simp only [kept_mk, true_or, or_true, and_self, listed, kept_ite, ite_self, kept_foldl, implies_true, kept_put,
    kept_bump, kept_writeRecord]

theorem kept_coreCycles {M : List Part} [Has M .draws] (s : State) (c : Nat) : kept M (coreCycles s c).2 = kept M s
    := by
  unfold coreCycles
  (repeat' split) <;> simp only [kept_draw]

theorem kept_eventCount {M : List Part} [Has M .draws] (s : State) (c sel cyc : Nat) : kept M (eventCount s c sel
    cyc).2 = kept M s := by
  unfold eventCount
  (repeat' split) <;> first | with_reducible rfl | (simp only [kept_draw]; done) | ((try dsimp only); (repeat' split) <;> first | with_reducible rfl | (simp only [kept_draw]; done))

theorem kept_sampled {M : List Part} [Has M .cnt] [Has M .io] (s : State) (c : Nat) : kept M (sampled s c) = kept M
    s := by
  unfold sampled
  simp only [kept_mk, true_or, or_true, and_self, listed, kept_ite, ite_self, kept_foldl, kept_forIdx, implies_true]

theorem kept_coreTick {M : List Part} [Has M .registers] [Has M .cnt] [Has M .io] [Has M .draws] (c : Nat) (s :
    State) : kept M (coreTick c s) = kept M s := by
  unfold coreTick
  simp only [kept_ite, ite_self, kept_forIdx, implies_true, kept_put, kept_coreCycles, kept_eventCount, kept_sampled]

theorem kept_zeroChanged {M : List Part} [Has M .registers] (s : State) (old : Nat) : kept M (zeroChanged s old) =
    kept M s := by
  unfold zeroChanged
  simp only [kept_ite, ite_self, kept_forIdx, implies_true, kept_put]

theorem kept_jobRequest {M : List Part} [Has M .jobs] [Has M .cpu] [Has M .io] (s : State) (core : Nat) (kind :
    JobKind) (cost : Nat) : kept M (jobRequest s core kind cost) = kept M s := by
  unfold jobRequest
  simp only [kept_ite, ite_self, kept_answer, kept_enqueueJob]

theorem kept_deferJob {M : List Part} [Has M .registers] [Has M .accum] [Has M .jobs] [Has M .io] (s : State) (j :
    Job) : kept M (deferJob s j) = kept M s := by
  unfold deferJob
  (repeat' split) <;> first | with_reducible rfl | (simp only [kept_mk, true_or, or_true, and_self, listed, kept_bump, kept_raiseTo, kept_pulse]; done) | ((try dsimp only); (repeat' split) <;> first | with_reducible rfl | (simp only [kept_mk, true_or, or_true, and_self, listed, kept_bump, kept_raiseTo, kept_pulse]; done))

theorem kept_jobStart {M : List Part} [Has M .registers] [Has M .accum] [Has M .jobs] [Has M .io] (s : State) (core
    : Nat) : kept M (jobStart s core) = kept M s := by
  unfold jobStart
  (repeat' split) <;> simp only [kept_mk, true_or, or_true, and_self, listed, kept_deferJob]

theorem kept_jobEffect {M : List Part} [Has M .registers] [Has M .accum] [Has M .jobs] [Has M .epochs] [Has M
    .faults] [Has M .intc] [Has M .host] [Has M .cpu] [Has M .banks] [Has M .cont] [Has M .img] [Has M .vault] [Has
    M .anchors] [Has M .sheet] [Has M .sheetLog] [Has M .edge] [Has M .wake] [Has M .io] [Has M .draws] (s : State)
    (k : JobKind) : kept M (jobEffect s k) = kept M s := by
  unfold jobEffect
  (repeat' split) <;> simp only [kept_sheetLose, kept_requestSp, kept_sheetAppend, kept_saveKeys, kept_prepEnds,
    kept_commitSealed, kept_fvWrite, kept_retentionSave, kept_handoverJob]

theorem kept_chargeJob {M : List Part} [Has M .jobs] (s : State) (core : Nat) (j : Job) : kept M (chargeJob s core
    j) = kept M s := by
  unfold chargeJob
  simp only [kept_mk, true_or, or_true, and_self, listed]

theorem kept_jobComplete {M : List Part} [Has M .registers] [Has M .accum] [Has M .jobs] [Has M .epochs] [Has M
    .faults] [Has M .intc] [Has M .host] [Has M .cpu] [Has M .banks] [Has M .cont] [Has M .img] [Has M .vault] [Has
    M .anchors] [Has M .sheet] [Has M .sheetLog] [Has M .edge] [Has M .wake] [Has M .io] [Has M .draws] (s : State)
    (core : Nat) : kept M (jobComplete s core) = kept M s := by
  unfold jobComplete
  (repeat' split) <;> simp only [kept_mk, true_or, or_true, and_self, listed, kept_resumeCore, kept_jobEffect,
    kept_chargeJob]

theorem kept_restartPrep {M : List Part} [Has M .registers] [Has M .accum] [Has M .jobs] [Has M .policy] [Has M
    .epochs] [Has M .intc] [Has M .host] [Has M .cpu] [Has M .img] [Has M .tables] [Has M .io] (s : State) : kept M
    (restartPrep s) = kept M s := by
  unfold restartPrep
  (repeat' split) <;> first | with_reducible rfl | (simp only [kept_mk, true_or, or_true, and_self, listed, kept_ite, ite_self, kept_commitBegin]; done) | ((try dsimp only); (repeat' split) <;> first | with_reducible rfl | (simp only [kept_mk, true_or, or_true, and_self, listed, kept_ite, ite_self, kept_commitBegin]; done))

theorem kept_moveHeld {M : List Part} [Has M .registers] [Has M .accum] [Has M .jobs] [Has M .policy] [Has M
    .epochs] [Has M .intc] [Has M .host] [Has M .cpu] [Has M .img] [Has M .tables] [Has M .io] (s : State) : kept M
    (moveHeld s) = kept M s := by
  unfold moveHeld
  simp only [kept_ite, ite_self, kept_moveJobs, kept_restartPrep]

theorem kept_deferWaiting {M : List Part} [Has M .registers] [Has M .accum] [Has M .jobs] [Has M .io] (s : State) :
    kept M (deferWaiting s) = kept M s := by
  unfold deferWaiting
  simp only [kept_ite, ite_self, kept_foldl, kept_forIdx, implies_true, kept_deferJob]

theorem kept_jobsAtBoundary {M : List Part} [Has M .registers] [Has M .accum] [Has M .jobs] [Has M .policy] [Has M
    .epochs] [Has M .intc] [Has M .host] [Has M .cpu] [Has M .img] [Has M .tables] [Has M .io] (s : State) : kept M
    (jobsAtBoundary s) = kept M s := by
  unfold jobsAtBoundary
  simp only [kept_mk, true_or, or_true, and_self, listed, kept_moveHeld]

theorem kept_drainFrame {M : List Part} [Has M .registers] [Has M .accum] [Has M .host] [Has M .frames] [Has M
    .edge] (slot : Nat) (s : State) (u : Nat) : kept M (drainFrame slot s u) = kept M s := by
  unfold drainFrame
  (repeat' split) <;> simp only [kept_ite, ite_self, kept_bump, kept_untagUnit, kept_setPacket, kept_dropPolicy,
    kept_unqueue]

theorem kept_drainMsgs {M : List Part} [Has M .registers] [Has M .accum] [Has M .frames] (slot : Nat) (s : State) (l
    : List QMsg) : kept M (drainMsgs slot s l).1 = kept M s := by
  unfold drainMsgs
  simp only [kept_foldl, implies_true, kept_bump, kept_releaseMsg]

theorem kept_drainEdge {M : List Part} [Has M .registers] [Has M .accum] [Has M .frames] [Has M .edge] (slot : Nat)
    (s : State) : kept M (drainEdge slot s) = kept M s := by
  unfold drainEdge
  simp only [kept_mk, true_or, or_true, and_self, listed, kept_ite, ite_self, kept_foldl, implies_true, kept_bump,
    kept_untagUnit, kept_dropReceived, kept_setRxList, kept_setAgain, kept_setTxq, kept_dropSecured, kept_drainMsgs]

theorem kept_drainLimit {M : List Part} [Has M .registers] [Has M .accum] [Has M .jobs] [Has M .policy] [Has M
    .epochs] [Has M .intc] [Has M .host] [Has M .cpu] [Has M .img] [Has M .frames] [Has M .tables] [Has M .edge]
    [Has M .io] (s : State) (slot : Nat) : kept M (drainLimit s slot) = kept M s := by
  unfold drainLimit
  simp only [kept_ite, ite_self, kept_foldl, implies_true, kept_put, kept_freeNow, kept_releaseLatches,
    kept_drainFrame, kept_drainEdge]

theorem kept_bmcaGm {M : List Part} [Has M .registers] [Has M .accum] [Has M .time] [Has M .intc] [Has M .host] [Has
    M .io] (s : State) (d : Domain) (asGm : Bool) : kept M (bmcaGm s d asGm) = kept M s := by
  unfold bmcaGm
  simp only [kept_ite, ite_self, kept_becomeGm]

theorem kept_syncInterval {M : List Part} [Has M .registers] [Has M .accum] [Has M .time] [Has M .intc] [Has M
    .host] [Has M .frames] [Has M .wake] [Has M .io] [Has M .draws] (s0 : State) (d : Domain) (p : Fin 48) (asGm :
    Bool) : kept M (syncInterval s0 d p asGm) = kept M s0 := by
  unfold syncInterval
  simp only [kept_mk, true_or, or_true, and_self, listed, kept_ite, ite_self, kept_frameArrival, kept_bmcaGm]

theorem kept_tmResult {M : List Part} [Has M .registers] (s : State) (status mask : Nat) (bs : List Byte) : kept M
    (tmResult s status mask bs) = kept M s := by
  unfold tmResult
  simp only [kept_put, kept_putWords]

theorem kept_tmGateList {M : List Part} [Has M .registers] (s : State) : kept M (tmGateList s) = kept M s := by
  unfold tmGateList
  dsimp only
  (repeat' split) <;> simp only [kept_tmResult]

theorem kept_tmRead {M : List Part} [Has M .registers] (s : State) (m : Master) : kept M (tmRead s m) = kept M s :=
    by
  unfold tmRead
  dsimp only
  (repeat' split) <;> simp only [kept_tmResult, kept_tmGateList]

theorem kept_tmAccCtl {M : List Part} [Has M .registers] (s : State) (m : Master) (w : Nat) : kept M (tmAccCtl s m
    w) = kept M s := by
  unfold tmAccCtl
  simp only [kept_ite, ite_self, kept_put, kept_tmRead]

theorem kept_writeField {M : List Part} [Has M .registers] (w : Nat) (s : State) (e : Fld × Nat) : kept M
    (writeField w s e) = kept M s := by
  unfold writeField
  (repeat' split) <;> simp only [kept_put]

theorem kept_plainWrite {M : List Part} [Has M .registers] (s : State) (m : Master) (a w : Nat) : kept M (plainWrite
    s m a w) = kept M s := by
  unfold plainWrite
  simp only [kept_foldl, implies_true, kept_writeField]

theorem kept_onBit {M : List Part} (w i : Nat) (f : State → State) (s : State) (h : ∀ t, kept M (f t) = kept M t) :
    kept M (onBit w i f s) = kept M s := by
  unfold onBit
  split <;> simp only [h]

theorem kept_coreRegWrite {M : List Part} [Has M .cpu] (s : State) (a v : Nat) : kept M (coreRegWrite s a v) = kept
    M s := by
  unfold coreRegWrite
  simp only [kept_mk, true_or, or_true, and_self, listed, kept_ite, ite_self]

theorem kept_coreRegRead {M : List Part} [Has M .cpu] [Has M .draws] (s : State) (a : Nat) : kept M (coreRegRead s
    a).2 = kept M s := by
  unfold coreRegRead
  (repeat' split) <;> simp only [kept_mk, true_or, or_true, and_self, listed, kept_draw]

theorem kept_drawDescs {M : List Part} [Has M .draws] (s : State) (n : Nat) : kept M (drawDescs s n).2 = kept M s := by
  unfold drawDescs
  have h : ∀ (l : List Nat) (r : List (List Byte) × State), kept M (l.foldl (fun (r : List (List Byte) × State) _ =>
      let d := draw r.2 (2 ^ 256)
      (r.1 ++ [leBytes 32 d.1], d.2)) r).2 = kept M r.2 := by
    intro l
    induction l with
    | nil => intro r; rfl
    | cons a l ih => intro r; rw [List.foldl_cons, ih]; simp only [kept_draw]
  rw [h]

theorem kept_ringRegWrite {M : List Part} [Has M .registers] [Has M .host] [Has M .draws] (s : State) (m : Master)
    (a w : Nat) : kept M (ringRegWrite s m a w) = kept M s := by
  unfold ringRegWrite
  dsimp only
  (repeat' split) <;> simp only [kept_mk, true_or, or_true, and_self, listed, kept_ite, ite_self, kept_ringConfig,
    kept_ringTailWrite, kept_plainWrite, kept_drawDescs]

theorem kept_pipeWrite {M : List Part} [Has M .registers] [Has M .accum] [Has M .jobs] [Has M .intc] [Has M .host]
    [Has M .cont] [Has M .sheet] [Has M .tables] [Has M .tm] [Has M .io] (s : State) (m : Master) (a w : Nat) : kept
    M (pipeWrite s m a w) = kept M s := by
  unfold pipeWrite
  simp only [kept_ite, ite_self, kept_put, kept_flowReopen, kept_convCtl, kept_clsCtl, kept_contActWrite,
    kept_contRelWrite, kept_contRelReqWrite, kept_fdbFlush, kept_fdbAccCtl, kept_tmAccCtl, kept_plainWrite,
    kept_onBit, implies_true]

theorem kept_edgeWrite {M : List Part} [Has M .registers] [Has M .accum] [Has M .intc] [Has M .host] [Has M .io] (s
    : State) (m : Master) (a w : Nat) : kept M (edgeWrite s m a w) = kept M s := by
  unfold edgeWrite
  simp only [kept_ite, ite_self, kept_eventsClear, kept_canRecover, kept_edgeAccCtl, kept_plainWrite, kept_onBit,
    implies_true]

theorem kept_vaultWrite {M : List Part} [Has M .registers] [Has M .accum] [Has M .time] [Has M .jobs] [Has M
    .policy] [Has M .epochs] [Has M .faults] [Has M .intc] [Has M .host] [Has M .cpu] [Has M .banks] [Has M .cont]
    [Has M .boot] [Has M .img] [Has M .vault] [Has M .fuses] [Has M .anchors] [Has M .sheet] [Has M .sheetLog] [Has
    M .frames] [Has M .tables] [Has M .links] [Has M .tm] [Has M .edge] [Has M .wake] [Has M .cnt] [Has M .io] [Has
    M .draws] (s : State) (m : Master) (a w : Nat) : kept M (vaultWrite s m a w) = kept M s := by
  unfold vaultWrite
  simp only [kept_ite, ite_self, kept_sheetRead, kept_sheetRetire, kept_revokeWrite, kept_importWrite, kept_mcjGo,
    kept_attGo, kept_tamperClear, kept_lcReqWrite, kept_plainWrite]

theorem kept_srcCfgWrite {M : List Part} [Has M .registers] [Has M .accum] [Has M .host] [Has M .io] (s : State) (m
    : Master) (a w : Nat) : kept M (srcCfgWrite s m a w) = kept M s := by
  unfold srcCfgWrite
  simp only [kept_ite, ite_self, kept_srcCfgEn]

theorem kept_intWrite {M : List Part} [Has M .registers] [Has M .accum] [Has M .jobs] [Has M .faults] [Has M .intc]
    [Has M .host] [Has M .cpu] [Has M .cont] [Has M .sheet] [Has M .cnt] [Has M .io] (s : State) (m : Master) (a w :
    Nat) : kept M (intWrite s m a w) = kept M s := by
  unfold intWrite
  (repeat' split) <;> first | (simp only [kept_mk, true_or, or_true, and_self, listed, kept_ite, ite_self, kept_put, kept_doorbellWrite, kept_complete, kept_fcAckWrite, kept_ovfAckWrite, kept_coreCtlRelease, kept_snapRequest, kept_copyRequest, kept_plainWrite, kept_onBit, kept_srcCfgWrite, implies_true]; done) | (rw [kept_put]; exact kept_onBit _ _ _ _ (fun t => rfl))

theorem kept_globalWrite {M : List Part} [Has M .registers] [Has M .accum] [Has M .time] [Has M .jobs] [Has M
    .policy] [Has M .epochs] [Has M .faults] [Has M .intc] [Has M .host] [Has M .cpu] [Has M .banks] [Has M .cont]
    [Has M .boot] [Has M .img] [Has M .vault] [Has M .sheet] [Has M .frames] [Has M .tables] [Has M .links] [Has M
    .tm] [Has M .edge] [Has M .wake] [Has M .cnt] [Has M .io] [Has M .draws] (s : State) (m : Master) (a w : Nat) :
    kept M (globalWrite s m a w) = kept M s := by
  unfold globalWrite
  simp only [kept_ite, ite_self, kept_timeSnapshot, kept_gtSetArm, kept_semTake, kept_semRelease, kept_epochLatch,
    kept_epochUnlatch, kept_netClrWrite, kept_pwrCtlWrite, kept_resetWrite, kept_imgCtl, kept_plainWrite,
    kept_onBit, kept_ringRegWrite, implies_true]

theorem kept_writeEffect {M : List Part} [Has M .registers] [Has M .accum] [Has M .time] [Has M .jobs] [Has M
    .policy] [Has M .epochs] [Has M .faults] [Has M .intc] [Has M .host] [Has M .cpu] [Has M .banks] [Has M .cont]
    [Has M .boot] [Has M .img] [Has M .vault] [Has M .fuses] [Has M .anchors] [Has M .sheet] [Has M .sheetLog] [Has
    M .frames] [Has M .tables] [Has M .links] [Has M .tm] [Has M .edge] [Has M .wake] [Has M .cnt] [Has M .io] [Has
    M .draws] (s : State) (m : Master) (a w : Nat) : kept M (writeEffect s m a w) = kept M s := by
  unfold writeEffect
  simp only [kept_ite, ite_self, kept_coreRegWrite, kept_pipeWrite, kept_edgeWrite, kept_vaultWrite, kept_intWrite,
    kept_globalWrite]

theorem kept_stagedWrite {M : List Part} [Has M .registers] [Has M .accum] [Has M .time] [Has M .jobs] [Has M
    .policy] [Has M .epochs] [Has M .faults] [Has M .intc] [Has M .host] [Has M .cpu] [Has M .banks] [Has M .cont]
    [Has M .boot] [Has M .img] [Has M .vault] [Has M .fuses] [Has M .anchors] [Has M .sheet] [Has M .sheetLog] [Has
    M .frames] [Has M .tables] [Has M .links] [Has M .tm] [Has M .edge] [Has M .wake] [Has M .cnt] [Has M .io] [Has
    M .draws] (s : State) (m : Master) (a w : Nat) : kept M (stagedWrite s m a w) = kept M s := by
  unfold stagedWrite
  simp only [kept_ite, ite_self, kept_answer, kept_stageAccess, kept_takeOwnership, kept_cmtWrite, kept_stagePush,
    kept_stageClaim, kept_stageRelease, kept_stageDiscard, kept_commitReq, kept_commitCancel, kept_plainWrite,
    kept_onBit, kept_writeEffect, implies_true]

theorem kept_writePerformed {M : List Part} [Has M .registers] [Has M .accum] [Has M .time] [Has M .jobs] [Has M
    .policy] [Has M .epochs] [Has M .faults] [Has M .intc] [Has M .host] [Has M .cpu] [Has M .banks] [Has M .cont]
    [Has M .boot] [Has M .img] [Has M .vault] [Has M .fuses] [Has M .anchors] [Has M .sheet] [Has M .sheetLog] [Has
    M .frames] [Has M .tables] [Has M .links] [Has M .tm] [Has M .edge] [Has M .wake] [Has M .cnt] [Has M .io] [Has
    M .draws] (s : State) (m : Master) (a size w : Nat) : kept M (writePerformed s m a size w) = kept M s := by
  unfold writePerformed
  (repeat' split) <;> first | with_reducible rfl | (simp only [kept_ite, ite_self, kept_answer, kept_reportWrite, kept_refuseWrite, kept_writeUnanswered, kept_resetWrite, kept_writeEffect, kept_stagedWrite]; done) | ((try dsimp only); (repeat' split) <;> first | with_reducible rfl | (simp only [kept_ite, ite_self, kept_answer, kept_reportWrite, kept_refuseWrite, kept_writeUnanswered, kept_resetWrite, kept_writeEffect, kept_stagedWrite]; done))

theorem kept_registerWrite {M : List Part} [Has M .registers] [Has M .accum] [Has M .time] [Has M .jobs] [Has M
    .policy] [Has M .epochs] [Has M .faults] [Has M .intc] [Has M .host] [Has M .cpu] [Has M .banks] [Has M .cont]
    [Has M .boot] [Has M .img] [Has M .vault] [Has M .fuses] [Has M .anchors] [Has M .sheet] [Has M .sheetLog] [Has
    M .frames] [Has M .tables] [Has M .links] [Has M .tm] [Has M .edge] [Has M .wake] [Has M .cnt] [Has M .io] [Has
    M .draws] (s : State) (m : Master) (a size w : Nat) : kept M (registerWrite s m a size w) = kept M s := by
  unfold registerWrite
  (repeat' split) <;> simp only [kept_ite, ite_self, kept_noteGrant, kept_writePerformed, id]

theorem kept_readClears {M : List Part} [Has M .registers] (s : State) (fs : List (Fld × Nat)) : kept M (readClears
    s fs) = kept M s := by
  unfold readClears
  simp only [kept_ite, ite_self, kept_foldl, implies_true, kept_put]

theorem kept_plainRead {M : List Part} [Has M .registers] [Has M .accum] [Has M .intc] [Has M .host] [Has M .frames]
    [Has M .tm] [Has M .wake] [Has M .io] (s0 : State) (m : Master) (a : Nat) : kept M (plainRead s0 m a).2 = kept M
    s0 := by
  have h0 : ∀ (st : State) (l : SMap Nat), kept M { st with io.capture := l } = kept M st := by intros; simp only
    [kept_mk, true_or, or_true, and_self, listed, kept_ite, ite_self, kept_foldl, kept_forIdx, implies_true,
    kept_settle, kept_readClears]
  unfold plainRead
  dsimp only
  split <;> simp only [kept_mk, true_or, or_true, and_self, listed, kept_ite, ite_self, kept_foldl, kept_forIdx,
    implies_true, kept_settle, kept_readClears, h0]

theorem kept_readEffect {M : List Part} [Has M .registers] [Has M .accum] [Has M .intc] [Has M .host] [Has M .cpu]
    [Has M .frames] [Has M .tm] [Has M .wake] [Has M .io] [Has M .draws] (s : State) (m : Master) (a : Nat) : kept M
    (readEffect s m a).2 = kept M s := by
  unfold readEffect
  (repeat' split) <;> simp only [kept_claim, kept_ledgerTake, kept_coreRegRead, kept_plainRead]

theorem kept_readPerformed {M : List Part} [Has M .registers] [Has M .accum] [Has M .intc] [Has M .host] [Has M
    .cpu] [Has M .frames] [Has M .tm] [Has M .wake] [Has M .io] [Has M .draws] (s : State) (m : Master) (a size :
    Nat) : kept M (readPerformed s m a size) = kept M s := by
  unfold readPerformed
  (repeat' split) <;> first | with_reducible rfl | (simp only [kept_ite, ite_self, kept_answer, kept_reportRead, kept_unanswered, kept_readEffect]; done) | ((try dsimp only); (repeat' split) <;> first | with_reducible rfl | (simp only [kept_ite, ite_self, kept_answer, kept_reportRead, kept_unanswered, kept_readEffect]; done))

theorem kept_registerRead {M : List Part} [Has M .registers] [Has M .accum] [Has M .intc] [Has M .host] [Has M .cpu]
    [Has M .frames] [Has M .tm] [Has M .wake] [Has M .io] [Has M .draws] (s : State) (m : Master) (a size : Nat) :
    kept M (registerRead s m a size) = kept M s := by
  unfold registerRead
  (repeat' split) <;> simp only [kept_noteGrant, kept_readPerformed]

theorem kept_cmtPeek {M : List Part} [Has M .registers] [Has M .accum] [Has M .jobs] [Has M .faults] [Has M .intc]
    [Has M .host] [Has M .cpu] [Has M .cont] [Has M .sheet] [Has M .frames] [Has M .tm] [Has M .wake] [Has M .io]
    [Has M .draws] (s : State) (m : Master) (a : Nat) : kept M (cmtPeek s m a) = kept M s := by
  unfold cmtPeek
  simp only [kept_accessWrite, kept_plainWrite, kept_registerRead, implies_true]

theorem kept_dbgRequest {M : List Part} [Has M .cpu] (s : State) (effect : State → State) (h : ∀ t, kept M (effect
    t) = kept M t) : kept M (dbgRequest s effect) = kept M s := by
  unfold dbgRequest
  split
  · rw [h, kept_tapSelect]
  · rfl

theorem kept_spiRefuse {M : List Part} [Has M .registers] [Has M .accum] [Has M .intc] [Has M .host] [Has M .cpu]
    [Has M .io] (s : State) (a code space : Nat) : kept M (spiRefuse s a code space) = kept M s := by
  unfold spiRefuse
  simp only [kept_mk, true_or, or_true, and_self, listed, kept_answer, kept_ledgerAdd]

theorem kept_spiWords {M : List Part} [Has M .registers] [Has M .accum] [Has M .time] [Has M .jobs] [Has M .policy] [Has M .epochs] [Has M .faults] [Has M .intc] [Has M .host] [Has M .cpu] [Has M .banks] [Has M .cont] [Has M .boot] [Has M .img] [Has M .vault] [Has M .fuses] [Has M .anchors] [Has M .sheet] [Has M .sheetLog] [Has M .frames] [Has M .tables] [Has M .links] [Has M .tm] [Has M .edge] [Has M .wake] [Has M .cnt] [Has M .io] [Has M .draws] (s : State) (a : Nat) (l : List Word) : kept M (spiWords s a l) = kept M s := by
  induction l generalizing s a with
  | nil => rfl
  | cons w l ih => rw [spiWords, ih, kept_registerWrite]

theorem kept_spiWrite {M : List Part} [Has M .registers] [Has M .accum] [Has M .time] [Has M .jobs] [Has M .policy]
    [Has M .epochs] [Has M .faults] [Has M .intc] [Has M .host] [Has M .cpu] [Has M .banks] [Has M .cont] [Has M
    .boot] [Has M .img] [Has M .vault] [Has M .fuses] [Has M .anchors] [Has M .sheet] [Has M .sheetLog] [Has M
    .frames] [Has M .tables] [Has M .links] [Has M .tm] [Has M .edge] [Has M .wake] [Has M .cnt] [Has M .io] [Has M
    .draws] (s : State) (a : Nat) (ws : List Word) : kept M (spiWrite s a ws) = kept M s := by
  unfold spiWrite
  (repeat' split) <;> simp only [kept_ite, ite_self, kept_spiRefuse, kept_spiWords]

theorem kept_spiWord {M : List Part} [Has M .registers] [Has M .accum] [Has M .intc] [Has M .host] [Has M .cpu] [Has
    M .frames] [Has M .tm] [Has M .wake] [Has M .io] [Has M .draws] (s : State) (a : Nat) : kept M (spiWord s a).2 =
    kept M s := by
  unfold spiWord
  (repeat' split) <;> simp only [kept_readEffect]

theorem kept_spiRead {M : List Part} [Has M .registers] [Has M .accum] [Has M .intc] [Has M .host] [Has M .cpu] [Has
    M .frames] [Has M .tm] [Has M .wake] [Has M .io] [Has M .draws] (s : State) (a n : Nat) : kept M (spiRead s a n)
    = kept M s := by
  have h : ∀ (l : List Nat) (r : List Nat × State), kept M (l.foldl (fun (r : List Nat × State) i =>
        let x := spiWord r.2 (a + 4 * i)
        (r.1 ++ [x.1], x.2)) r).2 = kept M r.2 := by
    intro l
    induction l with
    | nil => intro r; rfl
    | cons b l ih => intro r; rw [List.foldl_cons, ih]; simp only [kept_spiWord]
  unfold spiRead
  dsimp only
  (repeat' split) <;> simp only [kept_mk, true_or, or_true, and_self, listed, kept_ite, ite_self, kept_foldl,
    kept_forIdx, implies_true, kept_answer, kept_reportRead, kept_spiWord, h]

theorem kept_hbCheck {M : List Part} [Has M .registers] [Has M .accum] [Has M .jobs] [Has M .faults] [Has M .intc]
    [Has M .host] [Has M .cpu] [Has M .cont] [Has M .sheet] [Has M .wake] [Has M .io] (s : State) (off n : Nat)
    (write : Bool) (ecc : BankEcc) : kept M (hbCheck s off n write ecc).2 = kept M s := by
  unfold hbCheck
  (repeat' split) <;> first | with_reducible rfl | (simp only [kept_ite, ite_self, kept_bump, kept_regionViolation, kept_eccError, kept_unmark]; done) | ((try dsimp only); (repeat' split) <;> first | with_reducible rfl | (simp only [kept_ite, ite_self, kept_bump, kept_regionViolation, kept_eccError, kept_unmark]; done))

theorem kept_hStore {M : List Part} [Has M .banks] [Has M .vault] [Has M .draws] (s : State) (off : Nat) (d : List
    Byte) : kept M (hStore s off d) = kept M s := by
  unfold hStore
  simp only [kept_setBankH]

theorem kept_hWriteWord {M : List Part} [Has M .registers] [Has M .accum] [Has M .jobs] [Has M .faults] [Has M
    .intc] [Has M .host] [Has M .cpu] [Has M .banks] [Has M .cont] [Has M .vault] [Has M .sheet] [Has M .wake] [Has
    M .io] [Has M .draws] (s : State) (off : Nat) (w : Word) (ecc : BankEcc) : kept M (hWriteWord s off w ecc) =
    kept M s := by
  unfold hWriteWord
  dsimp only
  (repeat' split) <;> try simp only [kept_mk, true_or, or_true, and_self, listed, kept_ite, ite_self, kept_answer,
    kept_writeUnanswered, kept_spiRefuse, kept_hbCheck, kept_hStore]
  all_goals
    rename_i h
    have h2 := congrArg (fun z => kept M z.2) h
    simp only [kept_mk, true_or, or_true, and_self, listed, kept_ite, ite_self, kept_answer, kept_writeUnanswered,
      kept_spiRefuse, kept_hbCheck, kept_hStore] at h2
    simp only [kept_mk, true_or, or_true, and_self, listed, kept_ite, ite_self, kept_answer, kept_writeUnanswered,
      kept_spiRefuse, kept_hbCheck, kept_hStore, h2]

theorem kept_hGrant {M : List Part} [Has M .registers] [Has M .accum] [Has M .cpu] [Has M .io] (s : State) (waiting
    : List BusMaster) : kept M (hGrant s waiting) = kept M s := by
  unfold hGrant
  simp only [kept_ite, ite_self, kept_grantBank]

theorem kept_hWords {M : List Part} [Has M .registers] [Has M .accum] [Has M .jobs] [Has M .faults] [Has M .intc] [Has M .host] [Has M .cpu] [Has M .banks] [Has M .cont] [Has M .vault] [Has M .sheet] [Has M .wake] [Has M .io] [Has M .draws] (s : State) (off : Nat) (ecc : BankEcc) (i : Nat) (l : List Word) :
    kept M (hWords s off ecc i l) = kept M s := by
  induction l generalizing s i with
  | nil => rfl
  | cons w l ih => rw [hWords, ih, kept_hWriteWord]

theorem kept_hWrite {M : List Part} [Has M .registers] [Has M .accum] [Has M .time] [Has M .jobs] [Has M .policy]
    [Has M .epochs] [Has M .faults] [Has M .intc] [Has M .host] [Has M .cpu] [Has M .banks] [Has M .flash] [Has M
    .cont] [Has M .boot] [Has M .img] [Has M .vault] [Has M .sheet] [Has M .frames] [Has M .tables] [Has M .links]
    [Has M .tm] [Has M .edge] [Has M .wake] [Has M .cnt] [Has M .io] [Has M .draws] (s : State) (off : Nat) (ws :
    List Word) (ecc : BankEcc) (waiting : List BusMaster) : kept M (hWrite s off ws ecc waiting) = kept M s := by
  unfold hWrite
  (repeat' split) <;> simp only [kept_mk, true_or, or_true, and_self, listed, kept_ite, ite_self,
    kept_writeUnanswered, kept_romPoll, kept_spiRefuse, kept_hGrant, kept_hWords]

theorem kept_hRead {M : List Part} [Has M .registers] [Has M .accum] [Has M .jobs] [Has M .faults] [Has M .intc]
    [Has M .host] [Has M .cpu] [Has M .cont] [Has M .sheet] [Has M .wake] [Has M .io] (s : State) (off n : Nat) (ecc
    : BankEcc) (waiting : List BusMaster) : kept M (hRead s off n ecc waiting) = kept M s := by
  unfold hRead
  dsimp only
  (repeat' split) <;> try simp only [kept_mk, true_or, or_true, and_self, listed, kept_ite, ite_self, kept_answer,
    kept_reportRead, kept_hbCheck, kept_hGrant]
  all_goals
    rename_i h
    have h2 := congrArg (fun z => kept M z.2) h
    simp only [kept_mk, true_or, or_true, and_self, listed, kept_ite, ite_self, kept_answer, kept_reportRead,
      kept_hbCheck, kept_hGrant] at h2
    simp only [kept_mk, true_or, or_true, and_self, listed, kept_ite, ite_self, kept_answer, kept_reportRead,
      kept_hbCheck, kept_hGrant, h2]

theorem kept_spiStatus {M : List Part} [Has M .host] [Has M .cpu] [Has M .io] (s : State) : kept M (spiStatus s) =
    kept M s := by
  unfold spiStatus
  simp only [kept_mk, true_or, or_true, and_self, listed, kept_ite, ite_self, kept_answer]

theorem kept_spiAbort {M : List Part} [Has M .registers] [Has M .accum] [Has M .time] [Has M .jobs] [Has M .policy]
    [Has M .epochs] [Has M .faults] [Has M .intc] [Has M .host] [Has M .cpu] [Has M .banks] [Has M .flash] [Has M
    .cont] [Has M .boot] [Has M .img] [Has M .vault] [Has M .fuses] [Has M .anchors] [Has M .sheet] [Has M
    .sheetLog] [Has M .frames] [Has M .tables] [Has M .links] [Has M .tm] [Has M .edge] [Has M .wake] [Has M .cnt]
    [Has M .io] [Has M .draws] (s : State) (w : Option SpiWriteOp) (whole : Nat) : kept M (spiAbort s w whole) =
    kept M s := by
  unfold spiAbort
  dsimp only
  (repeat' split) <;> simp only [kept_ite, ite_self, kept_bump, kept_spiWrite, kept_hWrite]

theorem kept_dbgBank {M : List Part} [Has M .registers] [Has M .accum] [Has M .jobs] [Has M .faults] [Has M .intc]
    [Has M .host] [Has M .cpu] [Has M .banks] [Has M .cont] [Has M .vault] [Has M .sheet] [Has M .wake] [Has M .io]
    [Has M .draws] (s : State) (b : Bank) (off : Nat) (op : BankOp) (ecc : BankEcc) : kept M (dbgBank s b off op
    ecc) = kept M s := by
  unfold dbgBank
  (repeat' split) <;> simp only [kept_mk, true_or, or_true, and_self, listed, kept_bump, kept_answer, kept_setBank,
    kept_eccError, kept_unmark]

theorem kept_setBar4Byte {M : List Part} [Has M .host] (s : State) (a : Nat) (v : Byte) : kept M (setBar4Byte s a v)
    = kept M s := by
  unfold setBar4Byte
  simp only [kept_mk, true_or, or_true, and_self, listed, kept_ite, ite_self]

theorem kept_bar4Write {M : List Part} [Has M .registers] [Has M .accum] [Has M .host] [Has M .io] (s : State) (a :
    Nat) (d : List Byte) : kept M (bar4Write s a d) = kept M s := by
  unfold bar4Write
  simp only [kept_ite, ite_self, kept_foldl, kept_forIdx, implies_true, kept_flushVectors, kept_setBar4Byte]

theorem kept_aboveBankH {M : List Part} [Has M .registers] [Has M .accum] [Has M .intc] [Has M .host] [Has M .cpu]
    [Has M .io] (s : State) (off : Nat) (op : BankOp) : kept M (aboveBankH s off op) = kept M s := by
  unfold aboveBankH
  (repeat' split) <;> simp only [kept_answer, kept_ledgerAdd, kept_bar4Write]

theorem kept_recoveryBank {M : List Part} [Has M .registers] [Has M .accum] [Has M .time] [Has M .jobs] [Has M
    .policy] [Has M .epochs] [Has M .faults] [Has M .intc] [Has M .host] [Has M .cpu] [Has M .banks] [Has M .flash]
    [Has M .cont] [Has M .boot] [Has M .img] [Has M .vault] [Has M .sheet] [Has M .frames] [Has M .tables] [Has M
    .links] [Has M .tm] [Has M .edge] [Has M .wake] [Has M .cnt] [Has M .io] [Has M .draws] (s : State) (off : Nat)
    (op : BankOp) : kept M (recoveryBank s off op) = kept M s := by
  unfold recoveryBank
  (repeat' split) <;> simp only [kept_answer, kept_romPoll, kept_hStore]

theorem kept_bankRequest {M : List Part} [Has M .registers] [Has M .accum] [Has M .time] [Has M .jobs] [Has M
    .policy] [Has M .epochs] [Has M .faults] [Has M .intc] [Has M .host] [Has M .cpu] [Has M .banks] [Has M .flash]
    [Has M .cont] [Has M .boot] [Has M .img] [Has M .vault] [Has M .sheet] [Has M .frames] [Has M .tables] [Has M
    .links] [Has M .tm] [Has M .edge] [Has M .wake] [Has M .cnt] [Has M .io] [Has M .draws] (s : State) (m :
    BusMaster) (b : Bank) (off : Nat) (op : BankOp) (ecc : BankEcc) (waiting : List BusMaster) : kept M (bankRequest
    s m b off op ecc waiting) = kept M s := by
  unfold bankRequest
  (repeat' split) <;> simp only [kept_answer, kept_bankAccess, kept_dbgBank, kept_aboveBankH, kept_recoveryBank]

theorem kept_recoveryAtomic {M : List Part} [Has M .registers] [Has M .accum] [Has M .time] [Has M .jobs] [Has M
    .policy] [Has M .epochs] [Has M .faults] [Has M .intc] [Has M .host] [Has M .cpu] [Has M .banks] [Has M .flash]
    [Has M .cont] [Has M .boot] [Has M .img] [Has M .vault] [Has M .sheet] [Has M .frames] [Has M .tables] [Has M
    .links] [Has M .tm] [Has M .edge] [Has M .wake] [Has M .cnt] [Has M .io] [Has M .draws] (s : State) (off n :
    Nat) (f : Nat → Nat) : kept M (recoveryAtomic s off n f) = kept M s := by
  unfold recoveryAtomic
  simp only [kept_ite, ite_self, kept_answer, kept_performAtomic, kept_romPoll]

theorem kept_atomicRequest {M : List Part} [Has M .registers] [Has M .accum] [Has M .time] [Has M .jobs] [Has M
    .policy] [Has M .epochs] [Has M .faults] [Has M .intc] [Has M .host] [Has M .cpu] [Has M .banks] [Has M .flash]
    [Has M .cont] [Has M .boot] [Has M .img] [Has M .vault] [Has M .sheet] [Has M .frames] [Has M .tables] [Has M
    .links] [Has M .tm] [Has M .edge] [Has M .wake] [Has M .cnt] [Has M .io] [Has M .draws] (s : State) (m :
    BusMaster) (b : Bank) (off : Nat) (wide : Bool) (f : Nat → Nat) (ecc : BankEcc) (waiting : List BusMaster) :
    kept M (atomicRequest s m b off wide f ecc waiting) = kept M s := by
  unfold atomicRequest
  (repeat' split) <;> simp only [kept_mk, true_or, or_true, and_self, listed, kept_ite, ite_self, kept_answer,
    kept_atomic, kept_recoveryAtomic]

theorem kept_nextTempo {M : List Part} [Has M .registers] [Has M .accum] [Has M .time] (s : State) : kept M
    (nextTempo s) = kept M s := by
  unfold nextTempo
  simp only [kept_mk, true_or, or_true, and_self, listed, kept_ite, ite_self, kept_put, kept_bump]

theorem kept_followAdmin {M : List Part} [Has M .registers] [Has M .accum] [Has M .intc] [Has M .host] [Has M
    .frames] [Has M .links] [Has M .edge] [Has M .io] (s : State) : kept M (followAdmin s) = kept M s := by
  unfold followAdmin
  simp only [kept_ite, ite_self, kept_forIdx, implies_true, kept_applyAdmins, kept_applyPreempt, kept_applyChans]

theorem kept_moveSource {M : List Part} [Has M .registers] [Has M .accum] [Has M .intc] [Has M .host] [Has M .io] (s
    : State) (n : Nat) : kept M (moveSource s n) = kept M s := by
  unfold moveSource
  simp only [kept_mk, true_or, or_true, and_self, listed, kept_ite, ite_self, kept_deliver]

theorem kept_moveSources {M : List Part} [Has M .registers] [Has M .accum] [Has M .intc] [Has M .host] [Has M .io]
    (s was : State) : kept M (moveSources s was) = kept M s := by
  unfold moveSources
  simp only [kept_ite, ite_self, kept_foldl, kept_forIdx, implies_true, kept_moveSource]

theorem kept_commitNow {M : List Part} [Has M .registers] [Has M .accum] [Has M .time] [Has M .jobs] [Has M .epochs]
    [Has M .intc] [Has M .host] [Has M .cont] [Has M .vault] [Has M .sheet] [Has M .frames] [Has M .links] [Has M
    .tm] [Has M .edge] [Has M .io] [Has M .draws] (s : State) : kept M (commitNow s) = kept M s := by
  unfold commitNow
  (repeat' split) <;> first | with_reducible rfl | (simp only [kept_mk, true_or, or_true, and_self, listed, kept_ite, ite_self, kept_foldl, kept_forIdx, implies_true, kept_reshapePort, kept_remeter, kept_installChanged, kept_ppsSearch, kept_commitKeys, kept_commitSwitch, kept_loadPns, kept_cutRevoked, kept_loadRipcord, kept_tagAll, kept_fvCommit, kept_settleAll, kept_zeroChanged, kept_followAdmin, kept_moveSources]; done) | ((try dsimp only); (repeat' split) <;> first | with_reducible rfl | (simp only [kept_mk, true_or, or_true, and_self, listed, kept_ite, ite_self, kept_foldl, kept_forIdx, implies_true, kept_reshapePort, kept_remeter, kept_installChanged, kept_ppsSearch, kept_commitKeys, kept_commitSwitch, kept_loadPns, kept_cutRevoked, kept_loadRipcord, kept_tagAll, kept_fvCommit, kept_settleAll, kept_zeroChanged, kept_followAdmin, kept_moveSources]; done))

theorem kept_showDrainAge {M : List Part} [Has M .registers] (s : State) : kept M (showDrainAge s) = kept M s := by
  unfold showDrainAge
  simp only [kept_ite, ite_self, kept_forIdx, implies_true, kept_put]

theorem kept_everyTempo {M : List Part} [Has M .registers] [Has M .accum] [Has M .jobs] [Has M .policy] [Has M
    .epochs] [Has M .faults] [Has M .intc] [Has M .host] [Has M .cpu] [Has M .img] [Has M .frames] [Has M .tables]
    [Has M .tm] [Has M .edge] [Has M .io] [Has M .draws] (s : State) : kept M (everyTempo s) = kept M s := by
  unfold everyTempo
  simp only [kept_mk, true_or, or_true, and_self, listed, kept_countDeadlines, kept_avgBoundary, kept_linFinishAll,
    kept_allRoutesDue, kept_jobsAtBoundary, kept_showDrainAge]

theorem kept_tempoAligned {M : List Part} [Has M .registers] [Has M .accum] [Has M .time] [Has M .jobs] [Has M
    .policy] [Has M .epochs] [Has M .faults] [Has M .intc] [Has M .host] [Has M .cpu] [Has M .banks] [Has M .flash]
    [Has M .cont] [Has M .boot] [Has M .img] [Has M .vault] [Has M .fuses] [Has M .anchors] [Has M .sheet] [Has M
    .sheetLog] [Has M .frames] [Has M .tables] [Has M .links] [Has M .tm] [Has M .edge] [Has M .wake] [Has M .cnt]
    [Has M .io] [Has M .draws] (s : State) : kept M (tempoAligned s) = kept M s := by
  unfold tempoAligned
  simp only [kept_ite, ite_self, kept_refreshFaultN, kept_revokeDue, kept_cutRevoked, kept_releaseDue,
    kept_sleepAgreement, kept_castBefore, kept_castAfter, kept_lcResume, kept_commitNow]

theorem kept_boundary {M : List Part} [Has M .registers] [Has M .accum] [Has M .time] [Has M .jobs] [Has M .policy]
    [Has M .epochs] [Has M .faults] [Has M .intc] [Has M .host] [Has M .cpu] [Has M .banks] [Has M .flash] [Has M
    .cont] [Has M .boot] [Has M .img] [Has M .vault] [Has M .fuses] [Has M .anchors] [Has M .sheet] [Has M
    .sheetLog] [Has M .frames] [Has M .tables] [Has M .links] [Has M .tm] [Has M .edge] [Has M .wake] [Has M .cnt]
    [Has M .io] [Has M .draws] (s : State) : kept M (boundary s) = kept M s := by
  unfold boundary
  simp only [kept_mk, true_or, or_true, and_self, listed, kept_ite, ite_self, kept_beginReset, kept_captures,
    kept_deferWaiting, kept_nextTempo, kept_everyTempo, kept_tempoAligned]

theorem kept_firstBoundary {M : List Part} [Has M .registers] [Has M .accum] [Has M .time] [Has M .jobs] [Has M
    .faults] [Has M .intc] [Has M .host] [Has M .cont] [Has M .boot] [Has M .vault] [Has M .sheet] [Has M .frames]
    [Has M .links] [Has M .tm] [Has M .edge] [Has M .wake] [Has M .cnt] [Has M .io] (s : State) : kept M
    (firstBoundary s) = kept M s := by
  unfold firstBoundary
  simp only [kept_mk, true_or, or_true, and_self, listed, kept_put, kept_installChanged, kept_applyAdmins,
    kept_startForwarding, kept_settleAll, kept_captures]

theorem kept_tempoBoundary {M : List Part} [Has M .registers] [Has M .accum] [Has M .time] [Has M .jobs] [Has M
    .policy] [Has M .epochs] [Has M .faults] [Has M .intc] [Has M .host] [Has M .cpu] [Has M .banks] [Has M .flash]
    [Has M .cont] [Has M .boot] [Has M .img] [Has M .vault] [Has M .fuses] [Has M .anchors] [Has M .sheet] [Has M
    .sheetLog] [Has M .frames] [Has M .tables] [Has M .links] [Has M .tm] [Has M .edge] [Has M .wake] [Has M .cnt]
    [Has M .io] [Has M .draws] (s : State) : kept M (tempoBoundary s) = kept M s := by
  unfold tempoBoundary
  (repeat' split) <;> simp only [kept_boundary, kept_firstBoundary]

theorem kept_dumpCapture {M : List Part} [Has M .registers] [Has M .accum] [Has M .intc] [Has M .host] [Has M
    .frames] [Has M .tm] [Has M .cnt] [Has M .io] (s : State) : kept M (dumpCapture s) = kept M s := by
  unfold dumpCapture
  simp only [kept_ite, ite_self, kept_captures]

theorem kept_forwardingBoundary {M : List Part} [Has M .registers] [Has M .accum] [Has M .time] [Has M .jobs] [Has M
    .faults] [Has M .intc] [Has M .host] [Has M .cont] [Has M .boot] [Has M .vault] [Has M .sheet] [Has M .frames]
    [Has M .tables] [Has M .tm] [Has M .edge] [Has M .wake] [Has M .cnt] [Has M .io] [Has M .draws] (s : State) :
    kept M (forwardingBoundary s) = kept M s := by
  unfold forwardingBoundary
  simp only [kept_ite, ite_self, kept_put, kept_forwardingReady, kept_captures]

theorem kept_slotCycle {M : List Part} [Has M .registers] [Has M .frames] (s : State) : kept M (slotCycle s) = kept
    M s := by
  unfold slotCycle
  simp only [kept_mk, true_or, or_true, and_self, listed, kept_ite, ite_self, kept_countSlot]

theorem kept_tick {M : List Part} [Has M .registers] [Has M .time] [Has M .host] [Has M .frames] [Has M .cnt] [Has M
    .io] [Has M .draws] (s : State) : kept M (tick s) = kept M s := by
  unfold tick
  simp only [kept_mk, true_or, or_true, and_self, listed, kept_ite, ite_self, kept_forIdx, implies_true,
    kept_sendPosted, kept_coreTick, kept_slotCycle]

end Sys2Proof.Machine
end

