-- ==== Sys2Proof/Laws/State.lean ====
section
/-!
SUPPORT. Small laws of the state: sparse tables and memories read back what was written and keep their canonical form,
a register field reads back what was put, and each named operation leaves alone every part of the state it does not
name. Later proofs cite these and unfold no record update.
-/
namespace Sys2Proof.Machine

/-! Sparse tables. -/

@[simp] theorem SMap.find_nil {α : Type} (j : Nat) : SMap.find ([] : SMap α) j = none := rfl

theorem SMap.find_cons {α : Type} (k : Nat) (v : α) (m : SMap α) (j : Nat) :
    SMap.find ((k, v) :: m) j = if j = k then some v else SMap.find m j := rfl

@[simp] theorem SMap.find_set_same {α : Type} (m : SMap α) (j : Nat) (v : α) : (SMap.set m j v).find j = some v := by
  induction m with
  | nil => simp [SMap.set, SMap.find]
  | cons e m ih =>
    obtain ⟨k, w⟩ := e
    unfold SMap.set
    split
    · simp [SMap.find]
    · split
      · simp [SMap.find]
      · rw [SMap.find_cons, if_neg ‹_›, ih]

@[simp] theorem SMap.find_set_ne {α : Type} (m : SMap α) (j k : Nat) (v : α) (h : k ≠ j) :
    (SMap.set m j v).find k = m.find k := by
  induction m with
  | nil => simp [SMap.set, SMap.find, h]
  | cons e m ih =>
    obtain ⟨i, w⟩ := e
    unfold SMap.set
    split
    · simp [SMap.find, h]
    · split
      · subst_vars; simp [SMap.find, h]
      · rw [SMap.find_cons, SMap.find_cons, ih]

theorem SMap.del_cons {α : Type} (k : Nat) (v : α) (m : SMap α) (j : Nat) :
    SMap.del ((k, v) :: m) j = if k = j then SMap.del m j else (k, v) :: SMap.del m j := by
  unfold SMap.del
  by_cases h : k = j <;> simp [h]

@[simp] theorem SMap.find_del_same {α : Type} (m : SMap α) (j : Nat) : (SMap.del m j).find j = none := by
  induction m with
  | nil => rfl
  | cons e m ih =>
    obtain ⟨k, w⟩ := e
    rw [SMap.del_cons]
    split
    · exact ih
    · rw [SMap.find_cons, if_neg (by omega), ih]

@[simp] theorem SMap.find_del_ne {α : Type} (m : SMap α) (j k : Nat) (h : k ≠ j) : (SMap.del m j).find k = m.find k := by
  induction m with
  | nil => rfl
  | cons e m ih =>
    obtain ⟨i, w⟩ := e
    rw [SMap.del_cons]
    split
    · subst_vars; rw [SMap.find_cons, if_neg h, ih]
    · rw [SMap.find_cons, SMap.find_cons, ih]

theorem SMap.wf_iff {α : Type} (m : SMap α) : m.wf = true ↔ m.Pairwise fun a b => a.1 < b.1 := by
  simp [SMap.wf]

theorem SMap.mem_set {α : Type} (m : SMap α) (j : Nat) (v : α) (e : Nat × α) (h : e ∈ SMap.set m j v) :
    e = (j, v) ∨ e ∈ m := by
  induction m with
  | nil => simpa [SMap.set] using h
  | cons a m ih =>
    obtain ⟨k, w⟩ := a
    unfold SMap.set at h
    split at h
    · simpa using h
    · split at h
      · rcases List.mem_cons.1 h with h | h
        · exact .inl h
        · exact .inr (List.mem_cons_of_mem _ h)
      · rcases List.mem_cons.1 h with h | h
        · exact .inr (h ▸ List.mem_cons_self)
        · rcases ih h with h | h
          · exact .inl h
          · exact .inr (List.mem_cons_of_mem _ h)

/-- Setting an entry keeps the canonical form. -/
theorem SMap.wf_set {α : Type} (m : SMap α) (j : Nat) (v : α) (h : m.wf = true) : (SMap.set m j v).wf = true := by
  rw [SMap.wf_iff] at *
  induction m with
  | nil => simp [SMap.set]
  | cons a m ih =>
    obtain ⟨k, w⟩ := a
    obtain ⟨h1, h2⟩ := List.pairwise_cons.1 h
    unfold SMap.set
    split
    · refine List.pairwise_cons.2 ⟨fun e he => ?_, h⟩
      rcases List.mem_cons.1 he with he | he
      · rw [he]; assumption
      · have := h1 e he; simp only at this ⊢; omega
    · split
      · subst_vars; exact List.pairwise_cons.2 ⟨h1, h2⟩
      · refine List.pairwise_cons.2 ⟨fun e he => ?_, ih h2⟩
        rcases SMap.mem_set _ _ _ _ he with he | he
        · rw [he]; simp only; omega
        · exact h1 e he

/-- Dropping entries keeps the canonical form. -/
theorem SMap.wf_filter {α : Type} (m : SMap α) (p : Nat × α → Bool) (h : m.wf = true) : SMap.wf (m.filter p) = true := by
  rw [SMap.wf_iff] at *
  exact h.filter p

theorem SMap.wf_del {α : Type} (m : SMap α) (j : Nat) (h : m.wf = true) : (SMap.del m j).wf = true := SMap.wf_filter _ _ h

theorem SMap.wf_keep {α : Type} (m : SMap α) (p : Nat → α → Bool) (h : m.wf = true) : (SMap.keep m p).wf = true :=
  SMap.wf_filter _ _ h

/-! Byte memories. -/

/-- A read after a write: the byte written at its address, every other byte as before. -/
theorem Mem.read_write (m : Mem) (d : Byte) (a : Nat) (v : Byte) (b : Nat) :
    (Mem.write m d a v).read d b = if b = a then v else m.read d b := by
  unfold Mem.write Mem.read
  by_cases h : b = a
  · subst h; split <;> simp_all
  · split <;> simp [h]

/-- A byte written keeps a memory in canonical form. -/
theorem Mem.wf_write (m : Mem) (d : Byte) (a : Nat) (v : Byte) (h : Mem.wf m d = true) : Mem.wf (Mem.write m d a v) d = true := by
  simp only [Mem.wf, Bool.and_eq_true, List.all_eq_true] at *
  unfold Mem.write
  split
  · refine ⟨SMap.wf_del _ _ h.1, fun e he => h.2 e ?_⟩
    exact List.mem_of_mem_filter he
  · refine ⟨SMap.wf_set _ _ _ h.1, fun e he => ?_⟩
    rcases SMap.mem_set _ _ _ _ he with he | he
    · subst he; simpa using ‹_›
    · exact h.2 e he

/-- Bytes written keep a memory in canonical form. -/
theorem Mem.wf_writeBytes (m : Mem) (d : Byte) (a : Nat) (l : List Byte) (h : Mem.wf m d = true) :
    Mem.wf (Mem.writeBytes m d a l) d = true := by
  induction l generalizing m a with
  | nil => exact h
  | cons b l ih => exact ih _ _ (Mem.wf_write _ _ _ _ h)

theorem Mem.wf_keep (m : Mem) (d : Byte) (p : Nat → Byte → Bool) (h : Mem.wf m d = true) :
    Mem.wf (SMap.keep m p) d = true := by
  simp only [Mem.wf, Bool.and_eq_true, List.all_eq_true] at *
  exact ⟨SMap.wf_keep _ _ h.1, fun e he => h.2 e (List.mem_of_mem_filter he)⟩

/-- A byte outside the bytes written is as before. -/
theorem Mem.read_writeBytes_out (m : Mem) (d : Byte) (a : Nat) (l : List Byte) (b : Nat) (h : b < a ∨ a + l.length ≤ b) :
    (Mem.writeBytes m d a l).read d b = m.read d b := by
  induction l generalizing m a with
  | nil => rfl
  | cons x l ih =>
    rw [Mem.writeBytes, ih _ _ (by simp only [List.length_cons] at h; omega), Mem.read_write, if_neg]
    simp only [List.length_cons] at h; omega

/-- A byte among the bytes written is the one written there. -/
theorem Mem.read_writeBytes_in (m : Mem) (d : Byte) (a : Nat) (l : List Byte) (i : Nat) (h : i < l.length) :
    (Mem.writeBytes m d a l).read d (a + i) = l[i] := by
  induction l generalizing m a i with
  | nil => simp at h
  | cons x l ih =>
    rw [Mem.writeBytes]
    cases i with
    | zero => rw [Mem.read_writeBytes_out _ _ _ _ _ (by omega), Mem.read_write]; simp
    | succ i =>
      have := ih (Mem.write m d a x) (a + 1) i (by simpa using h)
      simpa [Nat.add_assoc, Nat.add_comm 1 i] using this

/-! Register fields. -/

/-- A field reads back the value put, cut to its width (R12). -/
@[simp] theorem get_put_same (s : State) (f : Fld) (v : Nat) : get (put s f v) f = v % 2 ^ f.width := by
  unfold get put putRegs
  split <;> simp_all

/-- Another field reads as before. -/
theorem get_put_ne (s : State) (f g : Fld) (v : Nat) (h : g.key ≠ f.key) : get (put s f v) g = get s g := by
  unfold get put putRegs
  split <;> simp [h]

theorem regs_wf_put (s : State) (f : Fld) (v : Nat) (h : SMap.wf s.regs = true) : SMap.wf (put s f v).regs = true := by
  unfold put putRegs
  dsimp only
  split
  · exact SMap.wf_del _ _ h
  · exact SMap.wf_set _ _ _ h

/-- Two states whose register stores are the same read the same in every field. -/
theorem get_congr (s t : State) (f : Fld) (h : s.regs = t.regs) : get s f = get t f := by
  unfold get; rw [h]

@[simp] theorem get_putFlag_same (s : State) (f : Fld) (b : Bool) : get (putFlag s f b) f = b2n b % 2 ^ f.width :=
  get_put_same _ _ _

theorem get_putFlag_ne (s : State) (f g : Fld) (b : Bool) (h : g.key ≠ f.key) : get (putFlag s f b) g = get s g :=
  get_put_ne _ _ _ _ h

/-- A counter saturates at its width (R374). -/
theorem get_bumpBy_same (s : State) (f : Fld) (n : Nat) :
    get (bumpBy s f n) f = min (2 ^ f.width - 1) (get s f + n) := by
  have h : 0 < 2 ^ f.width := Nat.two_pow_pos _
  show get (put s f _) f = _
  rw [get_put_same, Nat.mod_eq_of_lt (by omega)]

theorem get_bumpBy_ne (s : State) (f g : Fld) (n : Nat) (h : g.key ≠ f.key) : get (bumpBy s f n) g = get s g :=
  get_put_ne _ _ _ _ h

theorem get_bump_same (s : State) (f : Fld) : get (bump s f) f = min (2 ^ f.width - 1) (get s f + 1) :=
  get_bumpBy_same _ _ _

theorem get_bump_ne (s : State) (f g : Fld) (h : g.key ≠ f.key) : get (bump s f) g = get s g := get_bumpBy_ne _ _ _ _ h

/-- A CMT field's value in a slot reads back what was put (R63). -/
theorem cmtOf_putCmt_same (s : State) (i : Nat) (f : Fld) (v : Nat) : cmtOf (putCmt s i f v) i f = v % 2 ^ f.width := by
  unfold cmtOf putCmt
  dsimp only
  split <;> simp_all

/-- A free value is below its bound. -/
theorem draw_lt (s : State) (n : Nat) (h : 0 < n) : (draw s n).1 < n := Nat.mod_lt _ h

/-- Two states are equal when every part is. -/
theorem State.eq_of_parts {s t : State} (h0 : s.pending = t.pending) (h1 : s.regs = t.regs) (h2 : s.accum =
    t.accum) (h3 : s.time = t.time) (h4 : s.jobs = t.jobs) (h5 : s.env = t.env) (h6 : s.fault = t.fault) (h7 :
    s.intc = t.intc) (h8 : s.host = t.host) (h9 : s.cpu = t.cpu) (h10 : s.mem = t.mem) (h11 : s.cont = t.cont)
    (h12 : s.boot = t.boot) (h13 : s.img = t.img) (h14 : s.vault = t.vault) (h15 : s.otp = t.otp) (h16 :
    s.sheet = t.sheet) (h17 : s.net = t.net) (h18 : s.tm = t.tm) (h19 : s.edge = t.edge) (h20 : s.wake =
    t.wake) (h21 : s.cnt = t.cnt) (h22 : s.io = t.io) (h23 : s.freeCtr = t.freeCtr) : s = t := by
  cases s; cases t; simp only at *; subst_vars; rfl

/-! What each operation leaves alone. -/

@[simp] theorem put_pending (s : State) (f : Fld) (v : Nat) : (put s f v).pending = s.pending := rfl
@[simp] theorem put_accum (s : State) (f : Fld) (v : Nat) : (put s f v).accum = s.accum := rfl
@[simp] theorem put_time (s : State) (f : Fld) (v : Nat) : (put s f v).time = s.time := rfl
@[simp] theorem put_jobs (s : State) (f : Fld) (v : Nat) : (put s f v).jobs = s.jobs := rfl
@[simp] theorem put_env (s : State) (f : Fld) (v : Nat) : (put s f v).env = s.env := rfl
@[simp] theorem put_fault (s : State) (f : Fld) (v : Nat) : (put s f v).fault = s.fault := rfl
@[simp] theorem put_intc (s : State) (f : Fld) (v : Nat) : (put s f v).intc = s.intc := rfl
@[simp] theorem put_host (s : State) (f : Fld) (v : Nat) : (put s f v).host = s.host := rfl
@[simp] theorem put_cpu (s : State) (f : Fld) (v : Nat) : (put s f v).cpu = s.cpu := rfl
@[simp] theorem put_mem (s : State) (f : Fld) (v : Nat) : (put s f v).mem = s.mem := rfl
@[simp] theorem put_cont (s : State) (f : Fld) (v : Nat) : (put s f v).cont = s.cont := rfl
@[simp] theorem put_boot (s : State) (f : Fld) (v : Nat) : (put s f v).boot = s.boot := rfl
@[simp] theorem put_img (s : State) (f : Fld) (v : Nat) : (put s f v).img = s.img := rfl
@[simp] theorem put_vault (s : State) (f : Fld) (v : Nat) : (put s f v).vault = s.vault := rfl
@[simp] theorem put_otp (s : State) (f : Fld) (v : Nat) : (put s f v).otp = s.otp := rfl
@[simp] theorem put_sheet (s : State) (f : Fld) (v : Nat) : (put s f v).sheet = s.sheet := rfl
@[simp] theorem put_net (s : State) (f : Fld) (v : Nat) : (put s f v).net = s.net := rfl
@[simp] theorem put_tm (s : State) (f : Fld) (v : Nat) : (put s f v).tm = s.tm := rfl
@[simp] theorem put_edge (s : State) (f : Fld) (v : Nat) : (put s f v).edge = s.edge := rfl
@[simp] theorem put_wake (s : State) (f : Fld) (v : Nat) : (put s f v).wake = s.wake := rfl
@[simp] theorem put_cnt (s : State) (f : Fld) (v : Nat) : (put s f v).cnt = s.cnt := rfl
@[simp] theorem put_io (s : State) (f : Fld) (v : Nat) : (put s f v).io = s.io := rfl
@[simp] theorem put_freeCtr (s : State) (f : Fld) (v : Nat) : (put s f v).freeCtr = s.freeCtr := rfl

@[simp] theorem putFlag_pending (s : State) (f : Fld) (b : Bool) : (putFlag s f b).pending = s.pending := rfl
@[simp] theorem putFlag_accum (s : State) (f : Fld) (b : Bool) : (putFlag s f b).accum = s.accum := rfl
@[simp] theorem putFlag_time (s : State) (f : Fld) (b : Bool) : (putFlag s f b).time = s.time := rfl
@[simp] theorem putFlag_jobs (s : State) (f : Fld) (b : Bool) : (putFlag s f b).jobs = s.jobs := rfl
@[simp] theorem putFlag_env (s : State) (f : Fld) (b : Bool) : (putFlag s f b).env = s.env := rfl
@[simp] theorem putFlag_fault (s : State) (f : Fld) (b : Bool) : (putFlag s f b).fault = s.fault := rfl
@[simp] theorem putFlag_intc (s : State) (f : Fld) (b : Bool) : (putFlag s f b).intc = s.intc := rfl
@[simp] theorem putFlag_host (s : State) (f : Fld) (b : Bool) : (putFlag s f b).host = s.host := rfl
@[simp] theorem putFlag_cpu (s : State) (f : Fld) (b : Bool) : (putFlag s f b).cpu = s.cpu := rfl
@[simp] theorem putFlag_mem (s : State) (f : Fld) (b : Bool) : (putFlag s f b).mem = s.mem := rfl
@[simp] theorem putFlag_cont (s : State) (f : Fld) (b : Bool) : (putFlag s f b).cont = s.cont := rfl
@[simp] theorem putFlag_boot (s : State) (f : Fld) (b : Bool) : (putFlag s f b).boot = s.boot := rfl
@[simp] theorem putFlag_img (s : State) (f : Fld) (b : Bool) : (putFlag s f b).img = s.img := rfl
@[simp] theorem putFlag_vault (s : State) (f : Fld) (b : Bool) : (putFlag s f b).vault = s.vault := rfl
@[simp] theorem putFlag_otp (s : State) (f : Fld) (b : Bool) : (putFlag s f b).otp = s.otp := rfl
@[simp] theorem putFlag_sheet (s : State) (f : Fld) (b : Bool) : (putFlag s f b).sheet = s.sheet := rfl
@[simp] theorem putFlag_net (s : State) (f : Fld) (b : Bool) : (putFlag s f b).net = s.net := rfl
@[simp] theorem putFlag_tm (s : State) (f : Fld) (b : Bool) : (putFlag s f b).tm = s.tm := rfl
@[simp] theorem putFlag_edge (s : State) (f : Fld) (b : Bool) : (putFlag s f b).edge = s.edge := rfl
@[simp] theorem putFlag_wake (s : State) (f : Fld) (b : Bool) : (putFlag s f b).wake = s.wake := rfl
@[simp] theorem putFlag_cnt (s : State) (f : Fld) (b : Bool) : (putFlag s f b).cnt = s.cnt := rfl
@[simp] theorem putFlag_io (s : State) (f : Fld) (b : Bool) : (putFlag s f b).io = s.io := rfl
@[simp] theorem putFlag_freeCtr (s : State) (f : Fld) (b : Bool) : (putFlag s f b).freeCtr = s.freeCtr := rfl

@[simp] theorem bumpBy_pending (s : State) (f : Fld) (n : Nat) : (bumpBy s f n).pending = s.pending := rfl
@[simp] theorem bumpBy_time (s : State) (f : Fld) (n : Nat) : (bumpBy s f n).time = s.time := rfl
@[simp] theorem bumpBy_jobs (s : State) (f : Fld) (n : Nat) : (bumpBy s f n).jobs = s.jobs := rfl
@[simp] theorem bumpBy_env (s : State) (f : Fld) (n : Nat) : (bumpBy s f n).env = s.env := rfl
@[simp] theorem bumpBy_fault (s : State) (f : Fld) (n : Nat) : (bumpBy s f n).fault = s.fault := rfl
@[simp] theorem bumpBy_intc (s : State) (f : Fld) (n : Nat) : (bumpBy s f n).intc = s.intc := rfl
@[simp] theorem bumpBy_host (s : State) (f : Fld) (n : Nat) : (bumpBy s f n).host = s.host := rfl
@[simp] theorem bumpBy_cpu (s : State) (f : Fld) (n : Nat) : (bumpBy s f n).cpu = s.cpu := rfl
@[simp] theorem bumpBy_mem (s : State) (f : Fld) (n : Nat) : (bumpBy s f n).mem = s.mem := rfl
@[simp] theorem bumpBy_cont (s : State) (f : Fld) (n : Nat) : (bumpBy s f n).cont = s.cont := rfl
@[simp] theorem bumpBy_boot (s : State) (f : Fld) (n : Nat) : (bumpBy s f n).boot = s.boot := rfl
@[simp] theorem bumpBy_img (s : State) (f : Fld) (n : Nat) : (bumpBy s f n).img = s.img := rfl
@[simp] theorem bumpBy_vault (s : State) (f : Fld) (n : Nat) : (bumpBy s f n).vault = s.vault := rfl
@[simp] theorem bumpBy_otp (s : State) (f : Fld) (n : Nat) : (bumpBy s f n).otp = s.otp := rfl
@[simp] theorem bumpBy_sheet (s : State) (f : Fld) (n : Nat) : (bumpBy s f n).sheet = s.sheet := rfl
@[simp] theorem bumpBy_net (s : State) (f : Fld) (n : Nat) : (bumpBy s f n).net = s.net := rfl
@[simp] theorem bumpBy_tm (s : State) (f : Fld) (n : Nat) : (bumpBy s f n).tm = s.tm := rfl
@[simp] theorem bumpBy_edge (s : State) (f : Fld) (n : Nat) : (bumpBy s f n).edge = s.edge := rfl
@[simp] theorem bumpBy_wake (s : State) (f : Fld) (n : Nat) : (bumpBy s f n).wake = s.wake := rfl
@[simp] theorem bumpBy_cnt (s : State) (f : Fld) (n : Nat) : (bumpBy s f n).cnt = s.cnt := rfl
@[simp] theorem bumpBy_io (s : State) (f : Fld) (n : Nat) : (bumpBy s f n).io = s.io := rfl
@[simp] theorem bumpBy_freeCtr (s : State) (f : Fld) (n : Nat) : (bumpBy s f n).freeCtr = s.freeCtr := rfl

@[simp] theorem bump_pending (s : State) (f : Fld) : (bump s f).pending = s.pending := rfl
@[simp] theorem bump_time (s : State) (f : Fld) : (bump s f).time = s.time := rfl
@[simp] theorem bump_jobs (s : State) (f : Fld) : (bump s f).jobs = s.jobs := rfl
@[simp] theorem bump_env (s : State) (f : Fld) : (bump s f).env = s.env := rfl
@[simp] theorem bump_fault (s : State) (f : Fld) : (bump s f).fault = s.fault := rfl
@[simp] theorem bump_intc (s : State) (f : Fld) : (bump s f).intc = s.intc := rfl
@[simp] theorem bump_host (s : State) (f : Fld) : (bump s f).host = s.host := rfl
@[simp] theorem bump_cpu (s : State) (f : Fld) : (bump s f).cpu = s.cpu := rfl
@[simp] theorem bump_mem (s : State) (f : Fld) : (bump s f).mem = s.mem := rfl
@[simp] theorem bump_cont (s : State) (f : Fld) : (bump s f).cont = s.cont := rfl
@[simp] theorem bump_boot (s : State) (f : Fld) : (bump s f).boot = s.boot := rfl
@[simp] theorem bump_img (s : State) (f : Fld) : (bump s f).img = s.img := rfl
@[simp] theorem bump_vault (s : State) (f : Fld) : (bump s f).vault = s.vault := rfl
@[simp] theorem bump_otp (s : State) (f : Fld) : (bump s f).otp = s.otp := rfl
@[simp] theorem bump_sheet (s : State) (f : Fld) : (bump s f).sheet = s.sheet := rfl
@[simp] theorem bump_net (s : State) (f : Fld) : (bump s f).net = s.net := rfl
@[simp] theorem bump_tm (s : State) (f : Fld) : (bump s f).tm = s.tm := rfl
@[simp] theorem bump_edge (s : State) (f : Fld) : (bump s f).edge = s.edge := rfl
@[simp] theorem bump_wake (s : State) (f : Fld) : (bump s f).wake = s.wake := rfl
@[simp] theorem bump_cnt (s : State) (f : Fld) : (bump s f).cnt = s.cnt := rfl
@[simp] theorem bump_io (s : State) (f : Fld) : (bump s f).io = s.io := rfl
@[simp] theorem bump_freeCtr (s : State) (f : Fld) : (bump s f).freeCtr = s.freeCtr := rfl

@[simp] theorem draw_pending (s : State) (bound : Nat) : (draw s bound).2.pending = s.pending := rfl
@[simp] theorem draw_regs (s : State) (bound : Nat) : (draw s bound).2.regs = s.regs := rfl
@[simp] theorem draw_accum (s : State) (bound : Nat) : (draw s bound).2.accum = s.accum := rfl
@[simp] theorem draw_time (s : State) (bound : Nat) : (draw s bound).2.time = s.time := rfl
@[simp] theorem draw_jobs (s : State) (bound : Nat) : (draw s bound).2.jobs = s.jobs := rfl
@[simp] theorem draw_env (s : State) (bound : Nat) : (draw s bound).2.env = s.env := rfl
@[simp] theorem draw_fault (s : State) (bound : Nat) : (draw s bound).2.fault = s.fault := rfl
@[simp] theorem draw_intc (s : State) (bound : Nat) : (draw s bound).2.intc = s.intc := rfl
@[simp] theorem draw_host (s : State) (bound : Nat) : (draw s bound).2.host = s.host := rfl
@[simp] theorem draw_cpu (s : State) (bound : Nat) : (draw s bound).2.cpu = s.cpu := rfl
@[simp] theorem draw_mem (s : State) (bound : Nat) : (draw s bound).2.mem = s.mem := rfl
@[simp] theorem draw_cont (s : State) (bound : Nat) : (draw s bound).2.cont = s.cont := rfl
@[simp] theorem draw_boot (s : State) (bound : Nat) : (draw s bound).2.boot = s.boot := rfl
@[simp] theorem draw_img (s : State) (bound : Nat) : (draw s bound).2.img = s.img := rfl
@[simp] theorem draw_vault (s : State) (bound : Nat) : (draw s bound).2.vault = s.vault := rfl
@[simp] theorem draw_otp (s : State) (bound : Nat) : (draw s bound).2.otp = s.otp := rfl
@[simp] theorem draw_sheet (s : State) (bound : Nat) : (draw s bound).2.sheet = s.sheet := rfl
@[simp] theorem draw_net (s : State) (bound : Nat) : (draw s bound).2.net = s.net := rfl
@[simp] theorem draw_tm (s : State) (bound : Nat) : (draw s bound).2.tm = s.tm := rfl
@[simp] theorem draw_edge (s : State) (bound : Nat) : (draw s bound).2.edge = s.edge := rfl
@[simp] theorem draw_wake (s : State) (bound : Nat) : (draw s bound).2.wake = s.wake := rfl
@[simp] theorem draw_cnt (s : State) (bound : Nat) : (draw s bound).2.cnt = s.cnt := rfl
@[simp] theorem draw_io (s : State) (bound : Nat) : (draw s bound).2.io = s.io := rfl

@[simp] theorem setSlotState_pending (s : State) (i v : Nat) : (setSlotState s i v).pending = s.pending := rfl
@[simp] theorem setSlotState_accum (s : State) (i v : Nat) : (setSlotState s i v).accum = s.accum := rfl
@[simp] theorem setSlotState_time (s : State) (i v : Nat) : (setSlotState s i v).time = s.time := rfl
@[simp] theorem setSlotState_jobs (s : State) (i v : Nat) : (setSlotState s i v).jobs = s.jobs := rfl
@[simp] theorem setSlotState_env (s : State) (i v : Nat) : (setSlotState s i v).env = s.env := rfl
@[simp] theorem setSlotState_fault (s : State) (i v : Nat) : (setSlotState s i v).fault = s.fault := rfl
@[simp] theorem setSlotState_intc (s : State) (i v : Nat) : (setSlotState s i v).intc = s.intc := rfl
@[simp] theorem setSlotState_host (s : State) (i v : Nat) : (setSlotState s i v).host = s.host := rfl
@[simp] theorem setSlotState_cpu (s : State) (i v : Nat) : (setSlotState s i v).cpu = s.cpu := rfl
@[simp] theorem setSlotState_mem (s : State) (i v : Nat) : (setSlotState s i v).mem = s.mem := rfl
@[simp] theorem setSlotState_cont (s : State) (i v : Nat) : (setSlotState s i v).cont = s.cont := rfl
@[simp] theorem setSlotState_boot (s : State) (i v : Nat) : (setSlotState s i v).boot = s.boot := rfl
@[simp] theorem setSlotState_img (s : State) (i v : Nat) : (setSlotState s i v).img = s.img := rfl
@[simp] theorem setSlotState_vault (s : State) (i v : Nat) : (setSlotState s i v).vault = s.vault := rfl
@[simp] theorem setSlotState_otp (s : State) (i v : Nat) : (setSlotState s i v).otp = s.otp := rfl
@[simp] theorem setSlotState_sheet (s : State) (i v : Nat) : (setSlotState s i v).sheet = s.sheet := rfl
@[simp] theorem setSlotState_net (s : State) (i v : Nat) : (setSlotState s i v).net = s.net := rfl
@[simp] theorem setSlotState_tm (s : State) (i v : Nat) : (setSlotState s i v).tm = s.tm := rfl
@[simp] theorem setSlotState_edge (s : State) (i v : Nat) : (setSlotState s i v).edge = s.edge := rfl
@[simp] theorem setSlotState_wake (s : State) (i v : Nat) : (setSlotState s i v).wake = s.wake := rfl
@[simp] theorem setSlotState_cnt (s : State) (i v : Nat) : (setSlotState s i v).cnt = s.cnt := rfl
@[simp] theorem setSlotState_io (s : State) (i v : Nat) : (setSlotState s i v).io = s.io := rfl
@[simp] theorem setSlotState_freeCtr (s : State) (i v : Nat) : (setSlotState s i v).freeCtr = s.freeCtr := rfl

@[simp] theorem putCmt_pending (s : State) (slot : Nat) (f : Fld) (v : Nat) : (putCmt s slot f v).pending = s.pending := rfl
@[simp] theorem putCmt_regs (s : State) (slot : Nat) (f : Fld) (v : Nat) : (putCmt s slot f v).regs = s.regs := rfl
@[simp] theorem putCmt_accum (s : State) (slot : Nat) (f : Fld) (v : Nat) : (putCmt s slot f v).accum = s.accum := rfl
@[simp] theorem putCmt_time (s : State) (slot : Nat) (f : Fld) (v : Nat) : (putCmt s slot f v).time = s.time := rfl
@[simp] theorem putCmt_jobs (s : State) (slot : Nat) (f : Fld) (v : Nat) : (putCmt s slot f v).jobs = s.jobs := rfl
@[simp] theorem putCmt_fault (s : State) (slot : Nat) (f : Fld) (v : Nat) : (putCmt s slot f v).fault = s.fault := rfl
@[simp] theorem putCmt_intc (s : State) (slot : Nat) (f : Fld) (v : Nat) : (putCmt s slot f v).intc = s.intc := rfl
@[simp] theorem putCmt_host (s : State) (slot : Nat) (f : Fld) (v : Nat) : (putCmt s slot f v).host = s.host := rfl
@[simp] theorem putCmt_cpu (s : State) (slot : Nat) (f : Fld) (v : Nat) : (putCmt s slot f v).cpu = s.cpu := rfl
@[simp] theorem putCmt_mem (s : State) (slot : Nat) (f : Fld) (v : Nat) : (putCmt s slot f v).mem = s.mem := rfl
@[simp] theorem putCmt_cont (s : State) (slot : Nat) (f : Fld) (v : Nat) : (putCmt s slot f v).cont = s.cont := rfl
@[simp] theorem putCmt_boot (s : State) (slot : Nat) (f : Fld) (v : Nat) : (putCmt s slot f v).boot = s.boot := rfl
@[simp] theorem putCmt_img (s : State) (slot : Nat) (f : Fld) (v : Nat) : (putCmt s slot f v).img = s.img := rfl
@[simp] theorem putCmt_vault (s : State) (slot : Nat) (f : Fld) (v : Nat) : (putCmt s slot f v).vault = s.vault := rfl
@[simp] theorem putCmt_otp (s : State) (slot : Nat) (f : Fld) (v : Nat) : (putCmt s slot f v).otp = s.otp := rfl
@[simp] theorem putCmt_sheet (s : State) (slot : Nat) (f : Fld) (v : Nat) : (putCmt s slot f v).sheet = s.sheet := rfl
@[simp] theorem putCmt_net (s : State) (slot : Nat) (f : Fld) (v : Nat) : (putCmt s slot f v).net = s.net := rfl
@[simp] theorem putCmt_tm (s : State) (slot : Nat) (f : Fld) (v : Nat) : (putCmt s slot f v).tm = s.tm := rfl
@[simp] theorem putCmt_edge (s : State) (slot : Nat) (f : Fld) (v : Nat) : (putCmt s slot f v).edge = s.edge := rfl
@[simp] theorem putCmt_wake (s : State) (slot : Nat) (f : Fld) (v : Nat) : (putCmt s slot f v).wake = s.wake := rfl
@[simp] theorem putCmt_cnt (s : State) (slot : Nat) (f : Fld) (v : Nat) : (putCmt s slot f v).cnt = s.cnt := rfl
@[simp] theorem putCmt_io (s : State) (slot : Nat) (f : Fld) (v : Nat) : (putCmt s slot f v).io = s.io := rfl
@[simp] theorem putCmt_freeCtr (s : State) (slot : Nat) (f : Fld) (v : Nat) : (putCmt s slot f v).freeCtr = s.freeCtr := rfl

@[simp] theorem setDom_pending (s : State) (d : Domain) (x : DomSt) : (setDom s d x).pending = s.pending := by cases d <;> rfl
@[simp] theorem setDom_regs (s : State) (d : Domain) (x : DomSt) : (setDom s d x).regs = s.regs := by cases d <;> rfl
@[simp] theorem setDom_accum (s : State) (d : Domain) (x : DomSt) : (setDom s d x).accum = s.accum := by cases d <;> rfl
@[simp] theorem setDom_jobs (s : State) (d : Domain) (x : DomSt) : (setDom s d x).jobs = s.jobs := by cases d <;> rfl
@[simp] theorem setDom_env (s : State) (d : Domain) (x : DomSt) : (setDom s d x).env = s.env := by cases d <;> rfl
@[simp] theorem setDom_fault (s : State) (d : Domain) (x : DomSt) : (setDom s d x).fault = s.fault := by cases d <;> rfl
@[simp] theorem setDom_intc (s : State) (d : Domain) (x : DomSt) : (setDom s d x).intc = s.intc := by cases d <;> rfl
@[simp] theorem setDom_host (s : State) (d : Domain) (x : DomSt) : (setDom s d x).host = s.host := by cases d <;> rfl
@[simp] theorem setDom_cpu (s : State) (d : Domain) (x : DomSt) : (setDom s d x).cpu = s.cpu := by cases d <;> rfl
@[simp] theorem setDom_mem (s : State) (d : Domain) (x : DomSt) : (setDom s d x).mem = s.mem := by cases d <;> rfl
@[simp] theorem setDom_cont (s : State) (d : Domain) (x : DomSt) : (setDom s d x).cont = s.cont := by cases d <;> rfl
@[simp] theorem setDom_boot (s : State) (d : Domain) (x : DomSt) : (setDom s d x).boot = s.boot := by cases d <;> rfl
@[simp] theorem setDom_img (s : State) (d : Domain) (x : DomSt) : (setDom s d x).img = s.img := by cases d <;> rfl
@[simp] theorem setDom_vault (s : State) (d : Domain) (x : DomSt) : (setDom s d x).vault = s.vault := by cases d <;> rfl
@[simp] theorem setDom_otp (s : State) (d : Domain) (x : DomSt) : (setDom s d x).otp = s.otp := by cases d <;> rfl
@[simp] theorem setDom_sheet (s : State) (d : Domain) (x : DomSt) : (setDom s d x).sheet = s.sheet := by cases d <;> rfl
@[simp] theorem setDom_net (s : State) (d : Domain) (x : DomSt) : (setDom s d x).net = s.net := by cases d <;> rfl
@[simp] theorem setDom_tm (s : State) (d : Domain) (x : DomSt) : (setDom s d x).tm = s.tm := by cases d <;> rfl
@[simp] theorem setDom_edge (s : State) (d : Domain) (x : DomSt) : (setDom s d x).edge = s.edge := by cases d <;> rfl
@[simp] theorem setDom_wake (s : State) (d : Domain) (x : DomSt) : (setDom s d x).wake = s.wake := by cases d <;> rfl
@[simp] theorem setDom_cnt (s : State) (d : Domain) (x : DomSt) : (setDom s d x).cnt = s.cnt := by cases d <;> rfl
@[simp] theorem setDom_io (s : State) (d : Domain) (x : DomSt) : (setDom s d x).io = s.io := by cases d <;> rfl
@[simp] theorem setDom_freeCtr (s : State) (d : Domain) (x : DomSt) : (setDom s d x).freeCtr = s.freeCtr := by cases d <;> rfl

@[simp] theorem emit_pending (s : State) (o : Out) : (emit s o).pending = s.pending := rfl
@[simp] theorem emit_regs (s : State) (o : Out) : (emit s o).regs = s.regs := rfl
@[simp] theorem emit_accum (s : State) (o : Out) : (emit s o).accum = s.accum := rfl
@[simp] theorem emit_time (s : State) (o : Out) : (emit s o).time = s.time := rfl
@[simp] theorem emit_jobs (s : State) (o : Out) : (emit s o).jobs = s.jobs := rfl
@[simp] theorem emit_env (s : State) (o : Out) : (emit s o).env = s.env := rfl
@[simp] theorem emit_fault (s : State) (o : Out) : (emit s o).fault = s.fault := rfl
@[simp] theorem emit_intc (s : State) (o : Out) : (emit s o).intc = s.intc := rfl
@[simp] theorem emit_host (s : State) (o : Out) : (emit s o).host = s.host := rfl
@[simp] theorem emit_cpu (s : State) (o : Out) : (emit s o).cpu = s.cpu := rfl
@[simp] theorem emit_mem (s : State) (o : Out) : (emit s o).mem = s.mem := rfl
@[simp] theorem emit_cont (s : State) (o : Out) : (emit s o).cont = s.cont := rfl
@[simp] theorem emit_boot (s : State) (o : Out) : (emit s o).boot = s.boot := rfl
@[simp] theorem emit_img (s : State) (o : Out) : (emit s o).img = s.img := rfl
@[simp] theorem emit_vault (s : State) (o : Out) : (emit s o).vault = s.vault := rfl
@[simp] theorem emit_otp (s : State) (o : Out) : (emit s o).otp = s.otp := rfl
@[simp] theorem emit_sheet (s : State) (o : Out) : (emit s o).sheet = s.sheet := rfl
@[simp] theorem emit_net (s : State) (o : Out) : (emit s o).net = s.net := rfl
@[simp] theorem emit_tm (s : State) (o : Out) : (emit s o).tm = s.tm := rfl
@[simp] theorem emit_edge (s : State) (o : Out) : (emit s o).edge = s.edge := rfl
@[simp] theorem emit_wake (s : State) (o : Out) : (emit s o).wake = s.wake := rfl
@[simp] theorem emit_cnt (s : State) (o : Out) : (emit s o).cnt = s.cnt := rfl
@[simp] theorem emit_freeCtr (s : State) (o : Out) : (emit s o).freeCtr = s.freeCtr := rfl

@[simp] theorem answer_pending (s : State) (m : Master) (r : Resp) : (answer s m r).pending = s.pending := by
  unfold answer noteBusError pulse; dsimp only
  (repeat' split) <;> rfl
@[simp] theorem answer_regs (s : State) (m : Master) (r : Resp) : (answer s m r).regs = s.regs := by
  unfold answer noteBusError pulse; dsimp only
  (repeat' split) <;> rfl
@[simp] theorem answer_accum (s : State) (m : Master) (r : Resp) : (answer s m r).accum = s.accum := by
  unfold answer noteBusError pulse; dsimp only
  (repeat' split) <;> rfl
@[simp] theorem answer_time (s : State) (m : Master) (r : Resp) : (answer s m r).time = s.time := by
  unfold answer noteBusError pulse; dsimp only
  (repeat' split) <;> rfl
@[simp] theorem answer_jobs (s : State) (m : Master) (r : Resp) : (answer s m r).jobs = s.jobs := by
  unfold answer noteBusError pulse; dsimp only
  (repeat' split) <;> rfl
@[simp] theorem answer_env (s : State) (m : Master) (r : Resp) : (answer s m r).env = s.env := by
  unfold answer noteBusError pulse; dsimp only
  (repeat' split) <;> rfl
@[simp] theorem answer_fault (s : State) (m : Master) (r : Resp) : (answer s m r).fault = s.fault := by
  unfold answer noteBusError pulse; dsimp only
  (repeat' split) <;> rfl
@[simp] theorem answer_intc (s : State) (m : Master) (r : Resp) : (answer s m r).intc = s.intc := by
  unfold answer noteBusError pulse; dsimp only
  (repeat' split) <;> rfl
@[simp] theorem answer_host (s : State) (m : Master) (r : Resp) : (answer s m r).host = s.host := by
  unfold answer noteBusError pulse; dsimp only
  (repeat' split) <;> rfl
@[simp] theorem answer_mem (s : State) (m : Master) (r : Resp) : (answer s m r).mem = s.mem := by
  unfold answer noteBusError pulse; dsimp only
  (repeat' split) <;> rfl
@[simp] theorem answer_cont (s : State) (m : Master) (r : Resp) : (answer s m r).cont = s.cont := by
  unfold answer noteBusError pulse; dsimp only
  (repeat' split) <;> rfl
@[simp] theorem answer_boot (s : State) (m : Master) (r : Resp) : (answer s m r).boot = s.boot := by
  unfold answer noteBusError pulse; dsimp only
  (repeat' split) <;> rfl
@[simp] theorem answer_img (s : State) (m : Master) (r : Resp) : (answer s m r).img = s.img := by
  unfold answer noteBusError pulse; dsimp only
  (repeat' split) <;> rfl
@[simp] theorem answer_vault (s : State) (m : Master) (r : Resp) : (answer s m r).vault = s.vault := by
  unfold answer noteBusError pulse; dsimp only
  (repeat' split) <;> rfl
@[simp] theorem answer_otp (s : State) (m : Master) (r : Resp) : (answer s m r).otp = s.otp := by
  unfold answer noteBusError pulse; dsimp only
  (repeat' split) <;> rfl
@[simp] theorem answer_sheet (s : State) (m : Master) (r : Resp) : (answer s m r).sheet = s.sheet := by
  unfold answer noteBusError pulse; dsimp only
  (repeat' split) <;> rfl
@[simp] theorem answer_net (s : State) (m : Master) (r : Resp) : (answer s m r).net = s.net := by
  unfold answer noteBusError pulse; dsimp only
  (repeat' split) <;> rfl
@[simp] theorem answer_tm (s : State) (m : Master) (r : Resp) : (answer s m r).tm = s.tm := by
  unfold answer noteBusError pulse; dsimp only
  (repeat' split) <;> rfl
@[simp] theorem answer_edge (s : State) (m : Master) (r : Resp) : (answer s m r).edge = s.edge := by
  unfold answer noteBusError pulse; dsimp only
  (repeat' split) <;> rfl
@[simp] theorem answer_wake (s : State) (m : Master) (r : Resp) : (answer s m r).wake = s.wake := by
  unfold answer noteBusError pulse; dsimp only
  (repeat' split) <;> rfl
@[simp] theorem answer_cnt (s : State) (m : Master) (r : Resp) : (answer s m r).cnt = s.cnt := by
  unfold answer noteBusError pulse; dsimp only
  (repeat' split) <;> rfl
@[simp] theorem answer_freeCtr (s : State) (m : Master) (r : Resp) : (answer s m r).freeCtr = s.freeCtr := by
  unfold answer noteBusError pulse; dsimp only
  (repeat' split) <;> rfl

@[simp] theorem enqueueOn_pending (s : State) (core : Nat) (kind : JobKind) (cost : Nat) : (enqueueOn s core kind cost).pending = s.pending := rfl
@[simp] theorem enqueueOn_regs (s : State) (core : Nat) (kind : JobKind) (cost : Nat) : (enqueueOn s core kind cost).regs = s.regs := rfl
@[simp] theorem enqueueOn_accum (s : State) (core : Nat) (kind : JobKind) (cost : Nat) : (enqueueOn s core kind cost).accum = s.accum := rfl
@[simp] theorem enqueueOn_time (s : State) (core : Nat) (kind : JobKind) (cost : Nat) : (enqueueOn s core kind cost).time = s.time := rfl
@[simp] theorem enqueueOn_env (s : State) (core : Nat) (kind : JobKind) (cost : Nat) : (enqueueOn s core kind cost).env = s.env := rfl
@[simp] theorem enqueueOn_fault (s : State) (core : Nat) (kind : JobKind) (cost : Nat) : (enqueueOn s core kind cost).fault = s.fault := rfl
@[simp] theorem enqueueOn_intc (s : State) (core : Nat) (kind : JobKind) (cost : Nat) : (enqueueOn s core kind cost).intc = s.intc := rfl
@[simp] theorem enqueueOn_host (s : State) (core : Nat) (kind : JobKind) (cost : Nat) : (enqueueOn s core kind cost).host = s.host := rfl
@[simp] theorem enqueueOn_cpu (s : State) (core : Nat) (kind : JobKind) (cost : Nat) : (enqueueOn s core kind cost).cpu = s.cpu := rfl
@[simp] theorem enqueueOn_mem (s : State) (core : Nat) (kind : JobKind) (cost : Nat) : (enqueueOn s core kind cost).mem = s.mem := rfl
@[simp] theorem enqueueOn_cont (s : State) (core : Nat) (kind : JobKind) (cost : Nat) : (enqueueOn s core kind cost).cont = s.cont := rfl
@[simp] theorem enqueueOn_boot (s : State) (core : Nat) (kind : JobKind) (cost : Nat) : (enqueueOn s core kind cost).boot = s.boot := rfl
@[simp] theorem enqueueOn_img (s : State) (core : Nat) (kind : JobKind) (cost : Nat) : (enqueueOn s core kind cost).img = s.img := rfl
@[simp] theorem enqueueOn_vault (s : State) (core : Nat) (kind : JobKind) (cost : Nat) : (enqueueOn s core kind cost).vault = s.vault := rfl
@[simp] theorem enqueueOn_otp (s : State) (core : Nat) (kind : JobKind) (cost : Nat) : (enqueueOn s core kind cost).otp = s.otp := rfl
@[simp] theorem enqueueOn_sheet (s : State) (core : Nat) (kind : JobKind) (cost : Nat) : (enqueueOn s core kind cost).sheet = s.sheet := rfl
@[simp] theorem enqueueOn_net (s : State) (core : Nat) (kind : JobKind) (cost : Nat) : (enqueueOn s core kind cost).net = s.net := rfl
@[simp] theorem enqueueOn_tm (s : State) (core : Nat) (kind : JobKind) (cost : Nat) : (enqueueOn s core kind cost).tm = s.tm := rfl
@[simp] theorem enqueueOn_edge (s : State) (core : Nat) (kind : JobKind) (cost : Nat) : (enqueueOn s core kind cost).edge = s.edge := rfl
@[simp] theorem enqueueOn_wake (s : State) (core : Nat) (kind : JobKind) (cost : Nat) : (enqueueOn s core kind cost).wake = s.wake := rfl
@[simp] theorem enqueueOn_cnt (s : State) (core : Nat) (kind : JobKind) (cost : Nat) : (enqueueOn s core kind cost).cnt = s.cnt := rfl
@[simp] theorem enqueueOn_io (s : State) (core : Nat) (kind : JobKind) (cost : Nat) : (enqueueOn s core kind cost).io = s.io := rfl
@[simp] theorem enqueueOn_freeCtr (s : State) (core : Nat) (kind : JobKind) (cost : Nat) : (enqueueOn s core kind cost).freeCtr = s.freeCtr := rfl

@[simp] theorem enqueueJob_pending (s : State) (core : Nat) (kind : JobKind) (cost : Nat) : (enqueueJob s core kind cost).pending = s.pending := rfl
@[simp] theorem enqueueJob_regs (s : State) (core : Nat) (kind : JobKind) (cost : Nat) : (enqueueJob s core kind cost).regs = s.regs := rfl
@[simp] theorem enqueueJob_accum (s : State) (core : Nat) (kind : JobKind) (cost : Nat) : (enqueueJob s core kind cost).accum = s.accum := rfl
@[simp] theorem enqueueJob_time (s : State) (core : Nat) (kind : JobKind) (cost : Nat) : (enqueueJob s core kind cost).time = s.time := rfl
@[simp] theorem enqueueJob_env (s : State) (core : Nat) (kind : JobKind) (cost : Nat) : (enqueueJob s core kind cost).env = s.env := rfl
@[simp] theorem enqueueJob_fault (s : State) (core : Nat) (kind : JobKind) (cost : Nat) : (enqueueJob s core kind cost).fault = s.fault := rfl
@[simp] theorem enqueueJob_intc (s : State) (core : Nat) (kind : JobKind) (cost : Nat) : (enqueueJob s core kind cost).intc = s.intc := rfl
@[simp] theorem enqueueJob_host (s : State) (core : Nat) (kind : JobKind) (cost : Nat) : (enqueueJob s core kind cost).host = s.host := rfl
@[simp] theorem enqueueJob_cpu (s : State) (core : Nat) (kind : JobKind) (cost : Nat) : (enqueueJob s core kind cost).cpu = s.cpu := rfl
@[simp] theorem enqueueJob_mem (s : State) (core : Nat) (kind : JobKind) (cost : Nat) : (enqueueJob s core kind cost).mem = s.mem := rfl
@[simp] theorem enqueueJob_cont (s : State) (core : Nat) (kind : JobKind) (cost : Nat) : (enqueueJob s core kind cost).cont = s.cont := rfl
@[simp] theorem enqueueJob_boot (s : State) (core : Nat) (kind : JobKind) (cost : Nat) : (enqueueJob s core kind cost).boot = s.boot := rfl
@[simp] theorem enqueueJob_img (s : State) (core : Nat) (kind : JobKind) (cost : Nat) : (enqueueJob s core kind cost).img = s.img := rfl
@[simp] theorem enqueueJob_vault (s : State) (core : Nat) (kind : JobKind) (cost : Nat) : (enqueueJob s core kind cost).vault = s.vault := rfl
@[simp] theorem enqueueJob_otp (s : State) (core : Nat) (kind : JobKind) (cost : Nat) : (enqueueJob s core kind cost).otp = s.otp := rfl
@[simp] theorem enqueueJob_sheet (s : State) (core : Nat) (kind : JobKind) (cost : Nat) : (enqueueJob s core kind cost).sheet = s.sheet := rfl
@[simp] theorem enqueueJob_net (s : State) (core : Nat) (kind : JobKind) (cost : Nat) : (enqueueJob s core kind cost).net = s.net := rfl
@[simp] theorem enqueueJob_tm (s : State) (core : Nat) (kind : JobKind) (cost : Nat) : (enqueueJob s core kind cost).tm = s.tm := rfl
@[simp] theorem enqueueJob_edge (s : State) (core : Nat) (kind : JobKind) (cost : Nat) : (enqueueJob s core kind cost).edge = s.edge := rfl
@[simp] theorem enqueueJob_wake (s : State) (core : Nat) (kind : JobKind) (cost : Nat) : (enqueueJob s core kind cost).wake = s.wake := rfl
@[simp] theorem enqueueJob_cnt (s : State) (core : Nat) (kind : JobKind) (cost : Nat) : (enqueueJob s core kind cost).cnt = s.cnt := rfl
@[simp] theorem enqueueJob_io (s : State) (core : Nat) (kind : JobKind) (cost : Nat) : (enqueueJob s core kind cost).io = s.io := rfl
@[simp] theorem enqueueJob_freeCtr (s : State) (core : Nat) (kind : JobKind) (cost : Nat) : (enqueueJob s core kind cost).freeCtr = s.freeCtr := rfl

@[simp] theorem assertPeWake_pending (s : State) : (assertPeWake s).pending = s.pending := rfl
@[simp] theorem assertPeWake_accum (s : State) : (assertPeWake s).accum = s.accum := rfl
@[simp] theorem assertPeWake_time (s : State) : (assertPeWake s).time = s.time := rfl
@[simp] theorem assertPeWake_jobs (s : State) : (assertPeWake s).jobs = s.jobs := rfl
@[simp] theorem assertPeWake_env (s : State) : (assertPeWake s).env = s.env := rfl
@[simp] theorem assertPeWake_fault (s : State) : (assertPeWake s).fault = s.fault := rfl
@[simp] theorem assertPeWake_intc (s : State) : (assertPeWake s).intc = s.intc := rfl
@[simp] theorem assertPeWake_cpu (s : State) : (assertPeWake s).cpu = s.cpu := rfl
@[simp] theorem assertPeWake_mem (s : State) : (assertPeWake s).mem = s.mem := rfl
@[simp] theorem assertPeWake_cont (s : State) : (assertPeWake s).cont = s.cont := rfl
@[simp] theorem assertPeWake_boot (s : State) : (assertPeWake s).boot = s.boot := rfl
@[simp] theorem assertPeWake_img (s : State) : (assertPeWake s).img = s.img := rfl
@[simp] theorem assertPeWake_vault (s : State) : (assertPeWake s).vault = s.vault := rfl
@[simp] theorem assertPeWake_otp (s : State) : (assertPeWake s).otp = s.otp := rfl
@[simp] theorem assertPeWake_sheet (s : State) : (assertPeWake s).sheet = s.sheet := rfl
@[simp] theorem assertPeWake_net (s : State) : (assertPeWake s).net = s.net := rfl
@[simp] theorem assertPeWake_tm (s : State) : (assertPeWake s).tm = s.tm := rfl
@[simp] theorem assertPeWake_edge (s : State) : (assertPeWake s).edge = s.edge := rfl
@[simp] theorem assertPeWake_wake (s : State) : (assertPeWake s).wake = s.wake := rfl
@[simp] theorem assertPeWake_cnt (s : State) : (assertPeWake s).cnt = s.cnt := rfl
@[simp] theorem assertPeWake_io (s : State) : (assertPeWake s).io = s.io := rfl
@[simp] theorem assertPeWake_freeCtr (s : State) : (assertPeWake s).freeCtr = s.freeCtr := rfl

@[simp] theorem holdFault_pending (s : State) (p code unit : Nat) : (holdFault s p code unit).pending = s.pending := rfl
@[simp] theorem holdFault_regs (s : State) (p code unit : Nat) : (holdFault s p code unit).regs = s.regs := rfl
@[simp] theorem holdFault_accum (s : State) (p code unit : Nat) : (holdFault s p code unit).accum = s.accum := rfl
@[simp] theorem holdFault_time (s : State) (p code unit : Nat) : (holdFault s p code unit).time = s.time := rfl
@[simp] theorem holdFault_jobs (s : State) (p code unit : Nat) : (holdFault s p code unit).jobs = s.jobs := rfl
@[simp] theorem holdFault_env (s : State) (p code unit : Nat) : (holdFault s p code unit).env = s.env := rfl
@[simp] theorem holdFault_fault (s : State) (p code unit : Nat) : (holdFault s p code unit).fault = s.fault := rfl
@[simp] theorem holdFault_intc (s : State) (p code unit : Nat) : (holdFault s p code unit).intc = s.intc := rfl
@[simp] theorem holdFault_host (s : State) (p code unit : Nat) : (holdFault s p code unit).host = s.host := rfl
@[simp] theorem holdFault_cpu (s : State) (p code unit : Nat) : (holdFault s p code unit).cpu = s.cpu := rfl
@[simp] theorem holdFault_mem (s : State) (p code unit : Nat) : (holdFault s p code unit).mem = s.mem := rfl
@[simp] theorem holdFault_boot (s : State) (p code unit : Nat) : (holdFault s p code unit).boot = s.boot := rfl
@[simp] theorem holdFault_img (s : State) (p code unit : Nat) : (holdFault s p code unit).img = s.img := rfl
@[simp] theorem holdFault_vault (s : State) (p code unit : Nat) : (holdFault s p code unit).vault = s.vault := rfl
@[simp] theorem holdFault_otp (s : State) (p code unit : Nat) : (holdFault s p code unit).otp = s.otp := rfl
@[simp] theorem holdFault_sheet (s : State) (p code unit : Nat) : (holdFault s p code unit).sheet = s.sheet := rfl
@[simp] theorem holdFault_net (s : State) (p code unit : Nat) : (holdFault s p code unit).net = s.net := rfl
@[simp] theorem holdFault_tm (s : State) (p code unit : Nat) : (holdFault s p code unit).tm = s.tm := rfl
@[simp] theorem holdFault_edge (s : State) (p code unit : Nat) : (holdFault s p code unit).edge = s.edge := rfl
@[simp] theorem holdFault_wake (s : State) (p code unit : Nat) : (holdFault s p code unit).wake = s.wake := rfl
@[simp] theorem holdFault_cnt (s : State) (p code unit : Nat) : (holdFault s p code unit).cnt = s.cnt := rfl
@[simp] theorem holdFault_io (s : State) (p code unit : Nat) : (holdFault s p code unit).io = s.io := rfl
@[simp] theorem holdFault_freeCtr (s : State) (p code unit : Nat) : (holdFault s p code unit).freeCtr = s.freeCtr := rfl

@[simp] theorem becomePending_pending (s : State) (n st : Nat) : (becomePending s n st).pending = s.pending := rfl
@[simp] theorem becomePending_accum (s : State) (n st : Nat) : (becomePending s n st).accum = s.accum := rfl
@[simp] theorem becomePending_time (s : State) (n st : Nat) : (becomePending s n st).time = s.time := rfl
@[simp] theorem becomePending_jobs (s : State) (n st : Nat) : (becomePending s n st).jobs = s.jobs := rfl
@[simp] theorem becomePending_env (s : State) (n st : Nat) : (becomePending s n st).env = s.env := rfl
@[simp] theorem becomePending_fault (s : State) (n st : Nat) : (becomePending s n st).fault = s.fault := rfl
@[simp] theorem becomePending_host (s : State) (n st : Nat) : (becomePending s n st).host = s.host := rfl
@[simp] theorem becomePending_cpu (s : State) (n st : Nat) : (becomePending s n st).cpu = s.cpu := rfl
@[simp] theorem becomePending_mem (s : State) (n st : Nat) : (becomePending s n st).mem = s.mem := rfl
@[simp] theorem becomePending_cont (s : State) (n st : Nat) : (becomePending s n st).cont = s.cont := rfl
@[simp] theorem becomePending_boot (s : State) (n st : Nat) : (becomePending s n st).boot = s.boot := rfl
@[simp] theorem becomePending_img (s : State) (n st : Nat) : (becomePending s n st).img = s.img := rfl
@[simp] theorem becomePending_vault (s : State) (n st : Nat) : (becomePending s n st).vault = s.vault := rfl
@[simp] theorem becomePending_otp (s : State) (n st : Nat) : (becomePending s n st).otp = s.otp := rfl
@[simp] theorem becomePending_sheet (s : State) (n st : Nat) : (becomePending s n st).sheet = s.sheet := rfl
@[simp] theorem becomePending_net (s : State) (n st : Nat) : (becomePending s n st).net = s.net := rfl
@[simp] theorem becomePending_tm (s : State) (n st : Nat) : (becomePending s n st).tm = s.tm := rfl
@[simp] theorem becomePending_edge (s : State) (n st : Nat) : (becomePending s n st).edge = s.edge := rfl
@[simp] theorem becomePending_wake (s : State) (n st : Nat) : (becomePending s n st).wake = s.wake := rfl
@[simp] theorem becomePending_cnt (s : State) (n st : Nat) : (becomePending s n st).cnt = s.cnt := rfl
@[simp] theorem becomePending_io (s : State) (n st : Nat) : (becomePending s n st).io = s.io := rfl
@[simp] theorem becomePending_freeCtr (s : State) (n st : Nat) : (becomePending s n st).freeCtr = s.freeCtr := rfl

@[simp] theorem noteGrant_pending (s : State) (a : Nat) (m : Master) : (noteGrant s a m).pending = s.pending := rfl
@[simp] theorem noteGrant_regs (s : State) (a : Nat) (m : Master) : (noteGrant s a m).regs = s.regs := rfl
@[simp] theorem noteGrant_accum (s : State) (a : Nat) (m : Master) : (noteGrant s a m).accum = s.accum := rfl
@[simp] theorem noteGrant_time (s : State) (a : Nat) (m : Master) : (noteGrant s a m).time = s.time := rfl
@[simp] theorem noteGrant_jobs (s : State) (a : Nat) (m : Master) : (noteGrant s a m).jobs = s.jobs := rfl
@[simp] theorem noteGrant_env (s : State) (a : Nat) (m : Master) : (noteGrant s a m).env = s.env := rfl
@[simp] theorem noteGrant_fault (s : State) (a : Nat) (m : Master) : (noteGrant s a m).fault = s.fault := rfl
@[simp] theorem noteGrant_intc (s : State) (a : Nat) (m : Master) : (noteGrant s a m).intc = s.intc := rfl
@[simp] theorem noteGrant_host (s : State) (a : Nat) (m : Master) : (noteGrant s a m).host = s.host := rfl
@[simp] theorem noteGrant_cpu (s : State) (a : Nat) (m : Master) : (noteGrant s a m).cpu = s.cpu := rfl
@[simp] theorem noteGrant_mem (s : State) (a : Nat) (m : Master) : (noteGrant s a m).mem = s.mem := rfl
@[simp] theorem noteGrant_cont (s : State) (a : Nat) (m : Master) : (noteGrant s a m).cont = s.cont := rfl
@[simp] theorem noteGrant_boot (s : State) (a : Nat) (m : Master) : (noteGrant s a m).boot = s.boot := rfl
@[simp] theorem noteGrant_img (s : State) (a : Nat) (m : Master) : (noteGrant s a m).img = s.img := rfl
@[simp] theorem noteGrant_vault (s : State) (a : Nat) (m : Master) : (noteGrant s a m).vault = s.vault := rfl
@[simp] theorem noteGrant_otp (s : State) (a : Nat) (m : Master) : (noteGrant s a m).otp = s.otp := rfl
@[simp] theorem noteGrant_sheet (s : State) (a : Nat) (m : Master) : (noteGrant s a m).sheet = s.sheet := rfl
@[simp] theorem noteGrant_net (s : State) (a : Nat) (m : Master) : (noteGrant s a m).net = s.net := rfl
@[simp] theorem noteGrant_tm (s : State) (a : Nat) (m : Master) : (noteGrant s a m).tm = s.tm := rfl
@[simp] theorem noteGrant_edge (s : State) (a : Nat) (m : Master) : (noteGrant s a m).edge = s.edge := rfl
@[simp] theorem noteGrant_wake (s : State) (a : Nat) (m : Master) : (noteGrant s a m).wake = s.wake := rfl
@[simp] theorem noteGrant_cnt (s : State) (a : Nat) (m : Master) : (noteGrant s a m).cnt = s.cnt := rfl
@[simp] theorem noteGrant_freeCtr (s : State) (a : Nat) (m : Master) : (noteGrant s a m).freeCtr = s.freeCtr := rfl

@[simp] theorem pulse_pending (s : State) (n k : Nat) : (pulse s n k).pending = s.pending := by
  unfold pulse
  (repeat' split) <;> simp
@[simp] theorem pulse_regs (s : State) (n k : Nat) : (pulse s n k).regs = s.regs := by
  unfold pulse
  (repeat' split) <;> simp
@[simp] theorem pulse_accum (s : State) (n k : Nat) : (pulse s n k).accum = s.accum := by
  unfold pulse
  (repeat' split) <;> simp
@[simp] theorem pulse_time (s : State) (n k : Nat) : (pulse s n k).time = s.time := by
  unfold pulse
  (repeat' split) <;> simp
@[simp] theorem pulse_jobs (s : State) (n k : Nat) : (pulse s n k).jobs = s.jobs := by
  unfold pulse
  (repeat' split) <;> simp
@[simp] theorem pulse_env (s : State) (n k : Nat) : (pulse s n k).env = s.env := by
  unfold pulse
  (repeat' split) <;> simp
@[simp] theorem pulse_fault (s : State) (n k : Nat) : (pulse s n k).fault = s.fault := by
  unfold pulse
  (repeat' split) <;> simp
@[simp] theorem pulse_intc (s : State) (n k : Nat) : (pulse s n k).intc = s.intc := by
  unfold pulse
  (repeat' split) <;> simp
@[simp] theorem pulse_host (s : State) (n k : Nat) : (pulse s n k).host = s.host := by
  unfold pulse
  (repeat' split) <;> simp
@[simp] theorem pulse_cpu (s : State) (n k : Nat) : (pulse s n k).cpu = s.cpu := by
  unfold pulse
  (repeat' split) <;> simp
@[simp] theorem pulse_mem (s : State) (n k : Nat) : (pulse s n k).mem = s.mem := by
  unfold pulse
  (repeat' split) <;> simp
@[simp] theorem pulse_cont (s : State) (n k : Nat) : (pulse s n k).cont = s.cont := by
  unfold pulse
  (repeat' split) <;> simp
@[simp] theorem pulse_boot (s : State) (n k : Nat) : (pulse s n k).boot = s.boot := by
  unfold pulse
  (repeat' split) <;> simp
@[simp] theorem pulse_img (s : State) (n k : Nat) : (pulse s n k).img = s.img := by
  unfold pulse
  (repeat' split) <;> simp
@[simp] theorem pulse_vault (s : State) (n k : Nat) : (pulse s n k).vault = s.vault := by
  unfold pulse
  (repeat' split) <;> simp
@[simp] theorem pulse_otp (s : State) (n k : Nat) : (pulse s n k).otp = s.otp := by
  unfold pulse
  (repeat' split) <;> simp
@[simp] theorem pulse_sheet (s : State) (n k : Nat) : (pulse s n k).sheet = s.sheet := by
  unfold pulse
  (repeat' split) <;> simp
@[simp] theorem pulse_net (s : State) (n k : Nat) : (pulse s n k).net = s.net := by
  unfold pulse
  (repeat' split) <;> simp
@[simp] theorem pulse_tm (s : State) (n k : Nat) : (pulse s n k).tm = s.tm := by
  unfold pulse
  (repeat' split) <;> simp
@[simp] theorem pulse_edge (s : State) (n k : Nat) : (pulse s n k).edge = s.edge := by
  unfold pulse
  (repeat' split) <;> simp
@[simp] theorem pulse_wake (s : State) (n k : Nat) : (pulse s n k).wake = s.wake := by
  unfold pulse
  (repeat' split) <;> simp
@[simp] theorem pulse_cnt (s : State) (n k : Nat) : (pulse s n k).cnt = s.cnt := by
  unfold pulse
  (repeat' split) <;> simp
@[simp] theorem pulse_freeCtr (s : State) (n k : Nat) : (pulse s n k).freeCtr = s.freeCtr := by
  unfold pulse
  (repeat' split) <;> simp

@[simp] theorem noteBusError_pending (s : State) (code : Nat) (r : Resp) : (noteBusError s code r).pending = s.pending := by
  unfold noteBusError
  (repeat' split) <;> simp
@[simp] theorem noteBusError_regs (s : State) (code : Nat) (r : Resp) : (noteBusError s code r).regs = s.regs := by
  unfold noteBusError
  (repeat' split) <;> simp
@[simp] theorem noteBusError_accum (s : State) (code : Nat) (r : Resp) : (noteBusError s code r).accum = s.accum := by
  unfold noteBusError
  (repeat' split) <;> simp
@[simp] theorem noteBusError_time (s : State) (code : Nat) (r : Resp) : (noteBusError s code r).time = s.time := by
  unfold noteBusError
  (repeat' split) <;> simp
@[simp] theorem noteBusError_jobs (s : State) (code : Nat) (r : Resp) : (noteBusError s code r).jobs = s.jobs := by
  unfold noteBusError
  (repeat' split) <;> simp
@[simp] theorem noteBusError_env (s : State) (code : Nat) (r : Resp) : (noteBusError s code r).env = s.env := by
  unfold noteBusError
  (repeat' split) <;> simp
@[simp] theorem noteBusError_fault (s : State) (code : Nat) (r : Resp) : (noteBusError s code r).fault = s.fault := by
  unfold noteBusError
  (repeat' split) <;> simp
@[simp] theorem noteBusError_intc (s : State) (code : Nat) (r : Resp) : (noteBusError s code r).intc = s.intc := by
  unfold noteBusError
  (repeat' split) <;> simp
@[simp] theorem noteBusError_host (s : State) (code : Nat) (r : Resp) : (noteBusError s code r).host = s.host := by
  unfold noteBusError
  (repeat' split) <;> simp
@[simp] theorem noteBusError_cpu (s : State) (code : Nat) (r : Resp) : (noteBusError s code r).cpu = s.cpu := by
  unfold noteBusError
  (repeat' split) <;> simp
@[simp] theorem noteBusError_mem (s : State) (code : Nat) (r : Resp) : (noteBusError s code r).mem = s.mem := by
  unfold noteBusError
  (repeat' split) <;> simp
@[simp] theorem noteBusError_cont (s : State) (code : Nat) (r : Resp) : (noteBusError s code r).cont = s.cont := by
  unfold noteBusError
  (repeat' split) <;> simp
@[simp] theorem noteBusError_boot (s : State) (code : Nat) (r : Resp) : (noteBusError s code r).boot = s.boot := by
  unfold noteBusError
  (repeat' split) <;> simp
@[simp] theorem noteBusError_img (s : State) (code : Nat) (r : Resp) : (noteBusError s code r).img = s.img := by
  unfold noteBusError
  (repeat' split) <;> simp
@[simp] theorem noteBusError_vault (s : State) (code : Nat) (r : Resp) : (noteBusError s code r).vault = s.vault := by
  unfold noteBusError
  (repeat' split) <;> simp
@[simp] theorem noteBusError_otp (s : State) (code : Nat) (r : Resp) : (noteBusError s code r).otp = s.otp := by
  unfold noteBusError
  (repeat' split) <;> simp
@[simp] theorem noteBusError_sheet (s : State) (code : Nat) (r : Resp) : (noteBusError s code r).sheet = s.sheet := by
  unfold noteBusError
  (repeat' split) <;> simp
@[simp] theorem noteBusError_net (s : State) (code : Nat) (r : Resp) : (noteBusError s code r).net = s.net := by
  unfold noteBusError
  (repeat' split) <;> simp
@[simp] theorem noteBusError_tm (s : State) (code : Nat) (r : Resp) : (noteBusError s code r).tm = s.tm := by
  unfold noteBusError
  (repeat' split) <;> simp
@[simp] theorem noteBusError_edge (s : State) (code : Nat) (r : Resp) : (noteBusError s code r).edge = s.edge := by
  unfold noteBusError
  (repeat' split) <;> simp
@[simp] theorem noteBusError_wake (s : State) (code : Nat) (r : Resp) : (noteBusError s code r).wake = s.wake := by
  unfold noteBusError
  (repeat' split) <;> simp
@[simp] theorem noteBusError_cnt (s : State) (code : Nat) (r : Resp) : (noteBusError s code r).cnt = s.cnt := by
  unfold noteBusError
  (repeat' split) <;> simp
@[simp] theorem noteBusError_freeCtr (s : State) (code : Nat) (r : Resp) : (noteBusError s code r).freeCtr = s.freeCtr := by
  unfold noteBusError
  (repeat' split) <;> simp

@[simp] theorem sheetLose_pending (s : State) : (sheetLose s).pending = s.pending := by
  unfold sheetLose
  (repeat' split) <;> simp
@[simp] theorem sheetLose_time (s : State) : (sheetLose s).time = s.time := by
  unfold sheetLose
  (repeat' split) <;> simp
@[simp] theorem sheetLose_jobs (s : State) : (sheetLose s).jobs = s.jobs := by
  unfold sheetLose
  (repeat' split) <;> simp
@[simp] theorem sheetLose_env (s : State) : (sheetLose s).env = s.env := by
  unfold sheetLose
  (repeat' split) <;> simp
@[simp] theorem sheetLose_fault (s : State) : (sheetLose s).fault = s.fault := by
  unfold sheetLose
  (repeat' split) <;> simp
@[simp] theorem sheetLose_intc (s : State) : (sheetLose s).intc = s.intc := by
  unfold sheetLose
  (repeat' split) <;> simp
@[simp] theorem sheetLose_host (s : State) : (sheetLose s).host = s.host := by
  unfold sheetLose
  (repeat' split) <;> simp
@[simp] theorem sheetLose_cpu (s : State) : (sheetLose s).cpu = s.cpu := by
  unfold sheetLose
  (repeat' split) <;> simp
@[simp] theorem sheetLose_mem (s : State) : (sheetLose s).mem = s.mem := by
  unfold sheetLose
  (repeat' split) <;> simp
@[simp] theorem sheetLose_cont (s : State) : (sheetLose s).cont = s.cont := by
  unfold sheetLose
  (repeat' split) <;> simp
@[simp] theorem sheetLose_boot (s : State) : (sheetLose s).boot = s.boot := by
  unfold sheetLose
  (repeat' split) <;> simp
@[simp] theorem sheetLose_img (s : State) : (sheetLose s).img = s.img := by
  unfold sheetLose
  (repeat' split) <;> simp
@[simp] theorem sheetLose_vault (s : State) : (sheetLose s).vault = s.vault := by
  unfold sheetLose
  (repeat' split) <;> simp
@[simp] theorem sheetLose_otp (s : State) : (sheetLose s).otp = s.otp := by
  unfold sheetLose
  (repeat' split) <;> simp
@[simp] theorem sheetLose_net (s : State) : (sheetLose s).net = s.net := by
  unfold sheetLose
  (repeat' split) <;> simp
@[simp] theorem sheetLose_tm (s : State) : (sheetLose s).tm = s.tm := by
  unfold sheetLose
  (repeat' split) <;> simp
@[simp] theorem sheetLose_edge (s : State) : (sheetLose s).edge = s.edge := by
  unfold sheetLose
  (repeat' split) <;> simp
@[simp] theorem sheetLose_wake (s : State) : (sheetLose s).wake = s.wake := by
  unfold sheetLose
  (repeat' split) <;> simp
@[simp] theorem sheetLose_cnt (s : State) : (sheetLose s).cnt = s.cnt := by
  unfold sheetLose
  (repeat' split) <;> simp
@[simp] theorem sheetLose_io (s : State) : (sheetLose s).io = s.io := by
  unfold sheetLose
  (repeat' split) <;> simp
@[simp] theorem sheetLose_freeCtr (s : State) : (sheetLose s).freeCtr = s.freeCtr := by
  unfold sheetLose
  (repeat' split) <;> simp

@[simp] theorem jobRejected_pending (s : State) (kind : JobKind) : (jobRejected s kind).pending = s.pending := by
  unfold jobRejected
  (repeat' split) <;> simp
@[simp] theorem jobRejected_time (s : State) (kind : JobKind) : (jobRejected s kind).time = s.time := by
  unfold jobRejected
  (repeat' split) <;> simp
@[simp] theorem jobRejected_jobs (s : State) (kind : JobKind) : (jobRejected s kind).jobs = s.jobs := by
  unfold jobRejected
  (repeat' split) <;> simp
@[simp] theorem jobRejected_env (s : State) (kind : JobKind) : (jobRejected s kind).env = s.env := by
  unfold jobRejected
  (repeat' split) <;> simp
@[simp] theorem jobRejected_fault (s : State) (kind : JobKind) : (jobRejected s kind).fault = s.fault := by
  unfold jobRejected
  (repeat' split) <;> simp
@[simp] theorem jobRejected_intc (s : State) (kind : JobKind) : (jobRejected s kind).intc = s.intc := by
  unfold jobRejected
  (repeat' split) <;> simp
@[simp] theorem jobRejected_host (s : State) (kind : JobKind) : (jobRejected s kind).host = s.host := by
  unfold jobRejected
  (repeat' split) <;> simp
@[simp] theorem jobRejected_cpu (s : State) (kind : JobKind) : (jobRejected s kind).cpu = s.cpu := by
  unfold jobRejected
  (repeat' split) <;> simp
@[simp] theorem jobRejected_mem (s : State) (kind : JobKind) : (jobRejected s kind).mem = s.mem := by
  unfold jobRejected
  (repeat' split) <;> simp
@[simp] theorem jobRejected_cont (s : State) (kind : JobKind) : (jobRejected s kind).cont = s.cont := by
  unfold jobRejected
  (repeat' split) <;> simp
@[simp] theorem jobRejected_boot (s : State) (kind : JobKind) : (jobRejected s kind).boot = s.boot := by
  unfold jobRejected
  (repeat' split) <;> simp
@[simp] theorem jobRejected_img (s : State) (kind : JobKind) : (jobRejected s kind).img = s.img := by
  unfold jobRejected
  (repeat' split) <;> simp
@[simp] theorem jobRejected_vault (s : State) (kind : JobKind) : (jobRejected s kind).vault = s.vault := by
  unfold jobRejected
  (repeat' split) <;> simp
@[simp] theorem jobRejected_otp (s : State) (kind : JobKind) : (jobRejected s kind).otp = s.otp := by
  unfold jobRejected
  (repeat' split) <;> simp
@[simp] theorem jobRejected_net (s : State) (kind : JobKind) : (jobRejected s kind).net = s.net := by
  unfold jobRejected
  (repeat' split) <;> simp
@[simp] theorem jobRejected_tm (s : State) (kind : JobKind) : (jobRejected s kind).tm = s.tm := by
  unfold jobRejected
  (repeat' split) <;> simp
@[simp] theorem jobRejected_edge (s : State) (kind : JobKind) : (jobRejected s kind).edge = s.edge := by
  unfold jobRejected
  (repeat' split) <;> simp
@[simp] theorem jobRejected_wake (s : State) (kind : JobKind) : (jobRejected s kind).wake = s.wake := by
  unfold jobRejected
  (repeat' split) <;> simp
@[simp] theorem jobRejected_cnt (s : State) (kind : JobKind) : (jobRejected s kind).cnt = s.cnt := by
  unfold jobRejected
  (repeat' split) <;> simp
@[simp] theorem jobRejected_io (s : State) (kind : JobKind) : (jobRejected s kind).io = s.io := by
  unfold jobRejected
  (repeat' split) <;> simp
@[simp] theorem jobRejected_freeCtr (s : State) (kind : JobKind) : (jobRejected s kind).freeCtr = s.freeCtr := by
  unfold jobRejected
  (repeat' split) <;> simp

@[simp] theorem requestOn_pending (s : State) (core : Nat) (kind : JobKind) : (requestOn s core kind).pending = s.pending := by
  unfold requestOn
  (repeat' split) <;> simp
@[simp] theorem requestOn_time (s : State) (core : Nat) (kind : JobKind) : (requestOn s core kind).time = s.time := by
  unfold requestOn
  (repeat' split) <;> simp
@[simp] theorem requestOn_env (s : State) (core : Nat) (kind : JobKind) : (requestOn s core kind).env = s.env := by
  unfold requestOn
  (repeat' split) <;> simp
@[simp] theorem requestOn_fault (s : State) (core : Nat) (kind : JobKind) : (requestOn s core kind).fault = s.fault := by
  unfold requestOn
  (repeat' split) <;> simp
@[simp] theorem requestOn_intc (s : State) (core : Nat) (kind : JobKind) : (requestOn s core kind).intc = s.intc := by
  unfold requestOn
  (repeat' split) <;> simp
@[simp] theorem requestOn_host (s : State) (core : Nat) (kind : JobKind) : (requestOn s core kind).host = s.host := by
  unfold requestOn
  (repeat' split) <;> simp
@[simp] theorem requestOn_cpu (s : State) (core : Nat) (kind : JobKind) : (requestOn s core kind).cpu = s.cpu := by
  unfold requestOn
  (repeat' split) <;> simp
@[simp] theorem requestOn_mem (s : State) (core : Nat) (kind : JobKind) : (requestOn s core kind).mem = s.mem := by
  unfold requestOn
  (repeat' split) <;> simp
@[simp] theorem requestOn_cont (s : State) (core : Nat) (kind : JobKind) : (requestOn s core kind).cont = s.cont := by
  unfold requestOn
  (repeat' split) <;> simp
@[simp] theorem requestOn_boot (s : State) (core : Nat) (kind : JobKind) : (requestOn s core kind).boot = s.boot := by
  unfold requestOn
  (repeat' split) <;> simp
@[simp] theorem requestOn_img (s : State) (core : Nat) (kind : JobKind) : (requestOn s core kind).img = s.img := by
  unfold requestOn
  (repeat' split) <;> simp
@[simp] theorem requestOn_vault (s : State) (core : Nat) (kind : JobKind) : (requestOn s core kind).vault = s.vault := by
  unfold requestOn
  (repeat' split) <;> simp
@[simp] theorem requestOn_otp (s : State) (core : Nat) (kind : JobKind) : (requestOn s core kind).otp = s.otp := by
  unfold requestOn
  (repeat' split) <;> simp
@[simp] theorem requestOn_net (s : State) (core : Nat) (kind : JobKind) : (requestOn s core kind).net = s.net := by
  unfold requestOn
  (repeat' split) <;> simp
@[simp] theorem requestOn_tm (s : State) (core : Nat) (kind : JobKind) : (requestOn s core kind).tm = s.tm := by
  unfold requestOn
  (repeat' split) <;> simp
@[simp] theorem requestOn_edge (s : State) (core : Nat) (kind : JobKind) : (requestOn s core kind).edge = s.edge := by
  unfold requestOn
  (repeat' split) <;> simp
@[simp] theorem requestOn_wake (s : State) (core : Nat) (kind : JobKind) : (requestOn s core kind).wake = s.wake := by
  unfold requestOn
  (repeat' split) <;> simp
@[simp] theorem requestOn_cnt (s : State) (core : Nat) (kind : JobKind) : (requestOn s core kind).cnt = s.cnt := by
  unfold requestOn
  (repeat' split) <;> simp
@[simp] theorem requestOn_io (s : State) (core : Nat) (kind : JobKind) : (requestOn s core kind).io = s.io := by
  unfold requestOn
  (repeat' split) <;> simp
@[simp] theorem requestOn_freeCtr (s : State) (core : Nat) (kind : JobKind) : (requestOn s core kind).freeCtr = s.freeCtr := by
  unfold requestOn
  (repeat' split) <;> simp

@[simp] theorem requestGc_pending (s : State) (kind : JobKind) : (requestGc s kind).pending = s.pending := by
  unfold requestGc
  (repeat' split) <;> simp
@[simp] theorem requestGc_time (s : State) (kind : JobKind) : (requestGc s kind).time = s.time := by
  unfold requestGc
  (repeat' split) <;> simp
@[simp] theorem requestGc_env (s : State) (kind : JobKind) : (requestGc s kind).env = s.env := by
  unfold requestGc
  (repeat' split) <;> simp
@[simp] theorem requestGc_fault (s : State) (kind : JobKind) : (requestGc s kind).fault = s.fault := by
  unfold requestGc
  (repeat' split) <;> simp
@[simp] theorem requestGc_intc (s : State) (kind : JobKind) : (requestGc s kind).intc = s.intc := by
  unfold requestGc
  (repeat' split) <;> simp
@[simp] theorem requestGc_host (s : State) (kind : JobKind) : (requestGc s kind).host = s.host := by
  unfold requestGc
  (repeat' split) <;> simp
@[simp] theorem requestGc_cpu (s : State) (kind : JobKind) : (requestGc s kind).cpu = s.cpu := by
  unfold requestGc
  (repeat' split) <;> simp
@[simp] theorem requestGc_mem (s : State) (kind : JobKind) : (requestGc s kind).mem = s.mem := by
  unfold requestGc
  (repeat' split) <;> simp
@[simp] theorem requestGc_cont (s : State) (kind : JobKind) : (requestGc s kind).cont = s.cont := by
  unfold requestGc
  (repeat' split) <;> simp
@[simp] theorem requestGc_boot (s : State) (kind : JobKind) : (requestGc s kind).boot = s.boot := by
  unfold requestGc
  (repeat' split) <;> simp
@[simp] theorem requestGc_img (s : State) (kind : JobKind) : (requestGc s kind).img = s.img := by
  unfold requestGc
  (repeat' split) <;> simp
@[simp] theorem requestGc_vault (s : State) (kind : JobKind) : (requestGc s kind).vault = s.vault := by
  unfold requestGc
  (repeat' split) <;> simp
@[simp] theorem requestGc_otp (s : State) (kind : JobKind) : (requestGc s kind).otp = s.otp := by
  unfold requestGc
  (repeat' split) <;> simp
@[simp] theorem requestGc_net (s : State) (kind : JobKind) : (requestGc s kind).net = s.net := by
  unfold requestGc
  (repeat' split) <;> simp
@[simp] theorem requestGc_tm (s : State) (kind : JobKind) : (requestGc s kind).tm = s.tm := by
  unfold requestGc
  (repeat' split) <;> simp
@[simp] theorem requestGc_edge (s : State) (kind : JobKind) : (requestGc s kind).edge = s.edge := by
  unfold requestGc
  (repeat' split) <;> simp
@[simp] theorem requestGc_wake (s : State) (kind : JobKind) : (requestGc s kind).wake = s.wake := by
  unfold requestGc
  (repeat' split) <;> simp
@[simp] theorem requestGc_cnt (s : State) (kind : JobKind) : (requestGc s kind).cnt = s.cnt := by
  unfold requestGc
  (repeat' split) <;> simp
@[simp] theorem requestGc_io (s : State) (kind : JobKind) : (requestGc s kind).io = s.io := by
  unfold requestGc
  (repeat' split) <;> simp
@[simp] theorem requestGc_freeCtr (s : State) (kind : JobKind) : (requestGc s kind).freeCtr = s.freeCtr := by
  unfold requestGc
  (repeat' split) <;> simp

@[simp] theorem requestSp_pending (s : State) (kind : JobKind) : (requestSp s kind).pending = s.pending := by
  unfold requestSp
  (repeat' split) <;> simp
@[simp] theorem requestSp_time (s : State) (kind : JobKind) : (requestSp s kind).time = s.time := by
  unfold requestSp
  (repeat' split) <;> simp
@[simp] theorem requestSp_env (s : State) (kind : JobKind) : (requestSp s kind).env = s.env := by
  unfold requestSp
  (repeat' split) <;> simp
@[simp] theorem requestSp_fault (s : State) (kind : JobKind) : (requestSp s kind).fault = s.fault := by
  unfold requestSp
  (repeat' split) <;> simp
@[simp] theorem requestSp_intc (s : State) (kind : JobKind) : (requestSp s kind).intc = s.intc := by
  unfold requestSp
  (repeat' split) <;> simp
@[simp] theorem requestSp_host (s : State) (kind : JobKind) : (requestSp s kind).host = s.host := by
  unfold requestSp
  (repeat' split) <;> simp
@[simp] theorem requestSp_cpu (s : State) (kind : JobKind) : (requestSp s kind).cpu = s.cpu := by
  unfold requestSp
  (repeat' split) <;> simp
@[simp] theorem requestSp_mem (s : State) (kind : JobKind) : (requestSp s kind).mem = s.mem := by
  unfold requestSp
  (repeat' split) <;> simp
@[simp] theorem requestSp_cont (s : State) (kind : JobKind) : (requestSp s kind).cont = s.cont := by
  unfold requestSp
  (repeat' split) <;> simp
@[simp] theorem requestSp_boot (s : State) (kind : JobKind) : (requestSp s kind).boot = s.boot := by
  unfold requestSp
  (repeat' split) <;> simp
@[simp] theorem requestSp_img (s : State) (kind : JobKind) : (requestSp s kind).img = s.img := by
  unfold requestSp
  (repeat' split) <;> simp
@[simp] theorem requestSp_vault (s : State) (kind : JobKind) : (requestSp s kind).vault = s.vault := by
  unfold requestSp
  (repeat' split) <;> simp
@[simp] theorem requestSp_otp (s : State) (kind : JobKind) : (requestSp s kind).otp = s.otp := by
  unfold requestSp
  (repeat' split) <;> simp
@[simp] theorem requestSp_net (s : State) (kind : JobKind) : (requestSp s kind).net = s.net := by
  unfold requestSp
  (repeat' split) <;> simp
@[simp] theorem requestSp_tm (s : State) (kind : JobKind) : (requestSp s kind).tm = s.tm := by
  unfold requestSp
  (repeat' split) <;> simp
@[simp] theorem requestSp_edge (s : State) (kind : JobKind) : (requestSp s kind).edge = s.edge := by
  unfold requestSp
  (repeat' split) <;> simp
@[simp] theorem requestSp_wake (s : State) (kind : JobKind) : (requestSp s kind).wake = s.wake := by
  unfold requestSp
  (repeat' split) <;> simp
@[simp] theorem requestSp_cnt (s : State) (kind : JobKind) : (requestSp s kind).cnt = s.cnt := by
  unfold requestSp
  (repeat' split) <;> simp
@[simp] theorem requestSp_io (s : State) (kind : JobKind) : (requestSp s kind).io = s.io := by
  unfold requestSp
  (repeat' split) <;> simp
@[simp] theorem requestSp_freeCtr (s : State) (kind : JobKind) : (requestSp s kind).freeCtr = s.freeCtr := by
  unfold requestSp
  (repeat' split) <;> simp

@[simp] theorem journal_pending (s : State) (type : Nat) (body : List Byte) : (journal s type body).pending = s.pending := by
  unfold journal
  (repeat' split) <;> simp
@[simp] theorem journal_time (s : State) (type : Nat) (body : List Byte) : (journal s type body).time = s.time := by
  unfold journal
  (repeat' split) <;> simp
@[simp] theorem journal_env (s : State) (type : Nat) (body : List Byte) : (journal s type body).env = s.env := by
  unfold journal
  (repeat' split) <;> simp
@[simp] theorem journal_fault (s : State) (type : Nat) (body : List Byte) : (journal s type body).fault = s.fault := by
  unfold journal
  (repeat' split) <;> simp
@[simp] theorem journal_intc (s : State) (type : Nat) (body : List Byte) : (journal s type body).intc = s.intc := by
  unfold journal
  (repeat' split) <;> simp
@[simp] theorem journal_host (s : State) (type : Nat) (body : List Byte) : (journal s type body).host = s.host := by
  unfold journal
  (repeat' split) <;> simp
@[simp] theorem journal_cpu (s : State) (type : Nat) (body : List Byte) : (journal s type body).cpu = s.cpu := by
  unfold journal
  (repeat' split) <;> simp
@[simp] theorem journal_mem (s : State) (type : Nat) (body : List Byte) : (journal s type body).mem = s.mem := by
  unfold journal
  (repeat' split) <;> simp
@[simp] theorem journal_cont (s : State) (type : Nat) (body : List Byte) : (journal s type body).cont = s.cont := by
  unfold journal
  (repeat' split) <;> simp
@[simp] theorem journal_boot (s : State) (type : Nat) (body : List Byte) : (journal s type body).boot = s.boot := by
  unfold journal
  (repeat' split) <;> simp
@[simp] theorem journal_img (s : State) (type : Nat) (body : List Byte) : (journal s type body).img = s.img := by
  unfold journal
  (repeat' split) <;> simp
@[simp] theorem journal_vault (s : State) (type : Nat) (body : List Byte) : (journal s type body).vault = s.vault := by
  unfold journal
  (repeat' split) <;> simp
@[simp] theorem journal_otp (s : State) (type : Nat) (body : List Byte) : (journal s type body).otp = s.otp := by
  unfold journal
  (repeat' split) <;> simp
@[simp] theorem journal_net (s : State) (type : Nat) (body : List Byte) : (journal s type body).net = s.net := by
  unfold journal
  (repeat' split) <;> simp
@[simp] theorem journal_tm (s : State) (type : Nat) (body : List Byte) : (journal s type body).tm = s.tm := by
  unfold journal
  (repeat' split) <;> simp
@[simp] theorem journal_edge (s : State) (type : Nat) (body : List Byte) : (journal s type body).edge = s.edge := by
  unfold journal
  (repeat' split) <;> simp
@[simp] theorem journal_wake (s : State) (type : Nat) (body : List Byte) : (journal s type body).wake = s.wake := by
  unfold journal
  (repeat' split) <;> simp
@[simp] theorem journal_cnt (s : State) (type : Nat) (body : List Byte) : (journal s type body).cnt = s.cnt := by
  unfold journal
  (repeat' split) <;> simp
@[simp] theorem journal_io (s : State) (type : Nat) (body : List Byte) : (journal s type body).io = s.io := by
  unfold journal
  (repeat' split) <;> simp
@[simp] theorem journal_freeCtr (s : State) (type : Nat) (body : List Byte) : (journal s type body).freeCtr = s.freeCtr := by
  unfold journal
  (repeat' split) <;> simp

@[simp] theorem raiseTo_pending (s : State) (f : Fld) (v : Nat) : (raiseTo s f v).pending = s.pending := by
  unfold raiseTo
  (repeat' split) <;> simp
@[simp] theorem raiseTo_accum (s : State) (f : Fld) (v : Nat) : (raiseTo s f v).accum = s.accum := by
  unfold raiseTo
  (repeat' split) <;> simp
@[simp] theorem raiseTo_time (s : State) (f : Fld) (v : Nat) : (raiseTo s f v).time = s.time := by
  unfold raiseTo
  (repeat' split) <;> simp
@[simp] theorem raiseTo_jobs (s : State) (f : Fld) (v : Nat) : (raiseTo s f v).jobs = s.jobs := by
  unfold raiseTo
  (repeat' split) <;> simp
@[simp] theorem raiseTo_env (s : State) (f : Fld) (v : Nat) : (raiseTo s f v).env = s.env := by
  unfold raiseTo
  (repeat' split) <;> simp
@[simp] theorem raiseTo_fault (s : State) (f : Fld) (v : Nat) : (raiseTo s f v).fault = s.fault := by
  unfold raiseTo
  (repeat' split) <;> simp
@[simp] theorem raiseTo_intc (s : State) (f : Fld) (v : Nat) : (raiseTo s f v).intc = s.intc := by
  unfold raiseTo
  (repeat' split) <;> simp
@[simp] theorem raiseTo_host (s : State) (f : Fld) (v : Nat) : (raiseTo s f v).host = s.host := by
  unfold raiseTo
  (repeat' split) <;> simp
@[simp] theorem raiseTo_cpu (s : State) (f : Fld) (v : Nat) : (raiseTo s f v).cpu = s.cpu := by
  unfold raiseTo
  (repeat' split) <;> simp
@[simp] theorem raiseTo_mem (s : State) (f : Fld) (v : Nat) : (raiseTo s f v).mem = s.mem := by
  unfold raiseTo
  (repeat' split) <;> simp
@[simp] theorem raiseTo_cont (s : State) (f : Fld) (v : Nat) : (raiseTo s f v).cont = s.cont := by
  unfold raiseTo
  (repeat' split) <;> simp
@[simp] theorem raiseTo_boot (s : State) (f : Fld) (v : Nat) : (raiseTo s f v).boot = s.boot := by
  unfold raiseTo
  (repeat' split) <;> simp
@[simp] theorem raiseTo_img (s : State) (f : Fld) (v : Nat) : (raiseTo s f v).img = s.img := by
  unfold raiseTo
  (repeat' split) <;> simp
@[simp] theorem raiseTo_vault (s : State) (f : Fld) (v : Nat) : (raiseTo s f v).vault = s.vault := by
  unfold raiseTo
  (repeat' split) <;> simp
@[simp] theorem raiseTo_otp (s : State) (f : Fld) (v : Nat) : (raiseTo s f v).otp = s.otp := by
  unfold raiseTo
  (repeat' split) <;> simp
@[simp] theorem raiseTo_sheet (s : State) (f : Fld) (v : Nat) : (raiseTo s f v).sheet = s.sheet := by
  unfold raiseTo
  (repeat' split) <;> simp
@[simp] theorem raiseTo_net (s : State) (f : Fld) (v : Nat) : (raiseTo s f v).net = s.net := by
  unfold raiseTo
  (repeat' split) <;> simp
@[simp] theorem raiseTo_tm (s : State) (f : Fld) (v : Nat) : (raiseTo s f v).tm = s.tm := by
  unfold raiseTo
  (repeat' split) <;> simp
@[simp] theorem raiseTo_edge (s : State) (f : Fld) (v : Nat) : (raiseTo s f v).edge = s.edge := by
  unfold raiseTo
  (repeat' split) <;> simp
@[simp] theorem raiseTo_wake (s : State) (f : Fld) (v : Nat) : (raiseTo s f v).wake = s.wake := by
  unfold raiseTo
  (repeat' split) <;> simp
@[simp] theorem raiseTo_cnt (s : State) (f : Fld) (v : Nat) : (raiseTo s f v).cnt = s.cnt := by
  unfold raiseTo
  (repeat' split) <;> simp
@[simp] theorem raiseTo_io (s : State) (f : Fld) (v : Nat) : (raiseTo s f v).io = s.io := by
  unfold raiseTo
  (repeat' split) <;> simp
@[simp] theorem raiseTo_freeCtr (s : State) (f : Fld) (v : Nat) : (raiseTo s f v).freeCtr = s.freeCtr := by
  unfold raiseTo
  (repeat' split) <;> simp

@[simp] theorem leaveL1_pending (s : State) : (leaveL1 s).pending = s.pending := by
  unfold leaveL1
  (repeat' split) <;> simp
@[simp] theorem leaveL1_accum (s : State) : (leaveL1 s).accum = s.accum := by
  unfold leaveL1
  (repeat' split) <;> simp
@[simp] theorem leaveL1_time (s : State) : (leaveL1 s).time = s.time := by
  unfold leaveL1
  (repeat' split) <;> simp
@[simp] theorem leaveL1_jobs (s : State) : (leaveL1 s).jobs = s.jobs := by
  unfold leaveL1
  (repeat' split) <;> simp
@[simp] theorem leaveL1_env (s : State) : (leaveL1 s).env = s.env := by
  unfold leaveL1
  (repeat' split) <;> simp
@[simp] theorem leaveL1_fault (s : State) : (leaveL1 s).fault = s.fault := by
  unfold leaveL1
  (repeat' split) <;> simp
@[simp] theorem leaveL1_intc (s : State) : (leaveL1 s).intc = s.intc := by
  unfold leaveL1
  (repeat' split) <;> simp
@[simp] theorem leaveL1_host (s : State) : (leaveL1 s).host = s.host := by
  unfold leaveL1
  (repeat' split) <;> simp
@[simp] theorem leaveL1_cpu (s : State) : (leaveL1 s).cpu = s.cpu := by
  unfold leaveL1
  (repeat' split) <;> simp
@[simp] theorem leaveL1_mem (s : State) : (leaveL1 s).mem = s.mem := by
  unfold leaveL1
  (repeat' split) <;> simp
@[simp] theorem leaveL1_cont (s : State) : (leaveL1 s).cont = s.cont := by
  unfold leaveL1
  (repeat' split) <;> simp
@[simp] theorem leaveL1_boot (s : State) : (leaveL1 s).boot = s.boot := by
  unfold leaveL1
  (repeat' split) <;> simp
@[simp] theorem leaveL1_img (s : State) : (leaveL1 s).img = s.img := by
  unfold leaveL1
  (repeat' split) <;> simp
@[simp] theorem leaveL1_vault (s : State) : (leaveL1 s).vault = s.vault := by
  unfold leaveL1
  (repeat' split) <;> simp
@[simp] theorem leaveL1_otp (s : State) : (leaveL1 s).otp = s.otp := by
  unfold leaveL1
  (repeat' split) <;> simp
@[simp] theorem leaveL1_sheet (s : State) : (leaveL1 s).sheet = s.sheet := by
  unfold leaveL1
  (repeat' split) <;> simp
@[simp] theorem leaveL1_net (s : State) : (leaveL1 s).net = s.net := by
  unfold leaveL1
  (repeat' split) <;> simp
@[simp] theorem leaveL1_tm (s : State) : (leaveL1 s).tm = s.tm := by
  unfold leaveL1
  (repeat' split) <;> simp
@[simp] theorem leaveL1_edge (s : State) : (leaveL1 s).edge = s.edge := by
  unfold leaveL1
  (repeat' split) <;> simp
@[simp] theorem leaveL1_wake (s : State) : (leaveL1 s).wake = s.wake := by
  unfold leaveL1
  (repeat' split) <;> simp
@[simp] theorem leaveL1_cnt (s : State) : (leaveL1 s).cnt = s.cnt := by
  unfold leaveL1
  (repeat' split) <;> simp
@[simp] theorem leaveL1_io (s : State) : (leaveL1 s).io = s.io := by
  unfold leaveL1
  (repeat' split) <;> simp
@[simp] theorem leaveL1_freeCtr (s : State) : (leaveL1 s).freeCtr = s.freeCtr := by
  unfold leaveL1
  (repeat' split) <;> simp

@[simp] theorem exitL1_pending (s : State) : (exitL1 s).pending = s.pending := by
  unfold exitL1
  (repeat' split) <;> simp
@[simp] theorem exitL1_time (s : State) : (exitL1 s).time = s.time := by
  unfold exitL1
  (repeat' split) <;> simp
@[simp] theorem exitL1_jobs (s : State) : (exitL1 s).jobs = s.jobs := by
  unfold exitL1
  (repeat' split) <;> simp
@[simp] theorem exitL1_env (s : State) : (exitL1 s).env = s.env := by
  unfold exitL1
  (repeat' split) <;> simp
@[simp] theorem exitL1_fault (s : State) : (exitL1 s).fault = s.fault := by
  unfold exitL1
  (repeat' split) <;> simp
@[simp] theorem exitL1_intc (s : State) : (exitL1 s).intc = s.intc := by
  unfold exitL1
  (repeat' split) <;> simp
@[simp] theorem exitL1_host (s : State) : (exitL1 s).host = s.host := by
  unfold exitL1
  (repeat' split) <;> simp
@[simp] theorem exitL1_cpu (s : State) : (exitL1 s).cpu = s.cpu := by
  unfold exitL1
  (repeat' split) <;> simp
@[simp] theorem exitL1_mem (s : State) : (exitL1 s).mem = s.mem := by
  unfold exitL1
  (repeat' split) <;> simp
@[simp] theorem exitL1_cont (s : State) : (exitL1 s).cont = s.cont := by
  unfold exitL1
  (repeat' split) <;> simp
@[simp] theorem exitL1_boot (s : State) : (exitL1 s).boot = s.boot := by
  unfold exitL1
  (repeat' split) <;> simp
@[simp] theorem exitL1_img (s : State) : (exitL1 s).img = s.img := by
  unfold exitL1
  (repeat' split) <;> simp
@[simp] theorem exitL1_vault (s : State) : (exitL1 s).vault = s.vault := by
  unfold exitL1
  (repeat' split) <;> simp
@[simp] theorem exitL1_otp (s : State) : (exitL1 s).otp = s.otp := by
  unfold exitL1
  (repeat' split) <;> simp
@[simp] theorem exitL1_sheet (s : State) : (exitL1 s).sheet = s.sheet := by
  unfold exitL1
  (repeat' split) <;> simp
@[simp] theorem exitL1_net (s : State) : (exitL1 s).net = s.net := by
  unfold exitL1
  (repeat' split) <;> simp
@[simp] theorem exitL1_tm (s : State) : (exitL1 s).tm = s.tm := by
  unfold exitL1
  (repeat' split) <;> simp
@[simp] theorem exitL1_edge (s : State) : (exitL1 s).edge = s.edge := by
  unfold exitL1
  (repeat' split) <;> simp
@[simp] theorem exitL1_wake (s : State) : (exitL1 s).wake = s.wake := by
  unfold exitL1
  (repeat' split) <;> simp
@[simp] theorem exitL1_cnt (s : State) : (exitL1 s).cnt = s.cnt := by
  unfold exitL1
  (repeat' split) <;> simp
@[simp] theorem exitL1_io (s : State) : (exitL1 s).io = s.io := by
  unfold exitL1
  (repeat' split) <;> simp
@[simp] theorem exitL1_freeCtr (s : State) : (exitL1 s).freeCtr = s.freeCtr := by
  unfold exitL1
  (repeat' split) <;> simp

@[simp] theorem vectorDue_pending (s : State) (v : Nat) : (vectorDue s v).pending = s.pending := by
  unfold vectorDue
  dsimp only
  (repeat' split) <;> simp
@[simp] theorem vectorDue_time (s : State) (v : Nat) : (vectorDue s v).time = s.time := by
  unfold vectorDue
  dsimp only
  (repeat' split) <;> simp
@[simp] theorem vectorDue_jobs (s : State) (v : Nat) : (vectorDue s v).jobs = s.jobs := by
  unfold vectorDue
  dsimp only
  (repeat' split) <;> simp
@[simp] theorem vectorDue_env (s : State) (v : Nat) : (vectorDue s v).env = s.env := by
  unfold vectorDue
  dsimp only
  (repeat' split) <;> simp
@[simp] theorem vectorDue_fault (s : State) (v : Nat) : (vectorDue s v).fault = s.fault := by
  unfold vectorDue
  dsimp only
  (repeat' split) <;> simp
@[simp] theorem vectorDue_intc (s : State) (v : Nat) : (vectorDue s v).intc = s.intc := by
  unfold vectorDue
  dsimp only
  (repeat' split) <;> simp
@[simp] theorem vectorDue_cpu (s : State) (v : Nat) : (vectorDue s v).cpu = s.cpu := by
  unfold vectorDue
  dsimp only
  (repeat' split) <;> simp
@[simp] theorem vectorDue_mem (s : State) (v : Nat) : (vectorDue s v).mem = s.mem := by
  unfold vectorDue
  dsimp only
  (repeat' split) <;> simp
@[simp] theorem vectorDue_cont (s : State) (v : Nat) : (vectorDue s v).cont = s.cont := by
  unfold vectorDue
  dsimp only
  (repeat' split) <;> simp
@[simp] theorem vectorDue_boot (s : State) (v : Nat) : (vectorDue s v).boot = s.boot := by
  unfold vectorDue
  dsimp only
  (repeat' split) <;> simp
@[simp] theorem vectorDue_img (s : State) (v : Nat) : (vectorDue s v).img = s.img := by
  unfold vectorDue
  dsimp only
  (repeat' split) <;> simp
@[simp] theorem vectorDue_vault (s : State) (v : Nat) : (vectorDue s v).vault = s.vault := by
  unfold vectorDue
  dsimp only
  (repeat' split) <;> simp
@[simp] theorem vectorDue_otp (s : State) (v : Nat) : (vectorDue s v).otp = s.otp := by
  unfold vectorDue
  dsimp only
  (repeat' split) <;> simp
@[simp] theorem vectorDue_sheet (s : State) (v : Nat) : (vectorDue s v).sheet = s.sheet := by
  unfold vectorDue
  dsimp only
  (repeat' split) <;> simp
@[simp] theorem vectorDue_net (s : State) (v : Nat) : (vectorDue s v).net = s.net := by
  unfold vectorDue
  dsimp only
  (repeat' split) <;> simp
@[simp] theorem vectorDue_tm (s : State) (v : Nat) : (vectorDue s v).tm = s.tm := by
  unfold vectorDue
  dsimp only
  (repeat' split) <;> simp
@[simp] theorem vectorDue_edge (s : State) (v : Nat) : (vectorDue s v).edge = s.edge := by
  unfold vectorDue
  dsimp only
  (repeat' split) <;> simp
@[simp] theorem vectorDue_wake (s : State) (v : Nat) : (vectorDue s v).wake = s.wake := by
  unfold vectorDue
  dsimp only
  (repeat' split) <;> simp
@[simp] theorem vectorDue_cnt (s : State) (v : Nat) : (vectorDue s v).cnt = s.cnt := by
  unfold vectorDue
  dsimp only
  (repeat' split) <;> simp
@[simp] theorem vectorDue_freeCtr (s : State) (v : Nat) : (vectorDue s v).freeCtr = s.freeCtr := by
  unfold vectorDue
  dsimp only
  (repeat' split) <;> simp

@[simp] theorem interruptCore_pending (s : State) (core cls : Nat) : (interruptCore s core cls).pending = s.pending := by
  unfold interruptCore
  (repeat' split) <;> simp
@[simp] theorem interruptCore_regs (s : State) (core cls : Nat) : (interruptCore s core cls).regs = s.regs := by
  unfold interruptCore
  (repeat' split) <;> simp
@[simp] theorem interruptCore_accum (s : State) (core cls : Nat) : (interruptCore s core cls).accum = s.accum := by
  unfold interruptCore
  (repeat' split) <;> simp
@[simp] theorem interruptCore_time (s : State) (core cls : Nat) : (interruptCore s core cls).time = s.time := by
  unfold interruptCore
  (repeat' split) <;> simp
@[simp] theorem interruptCore_jobs (s : State) (core cls : Nat) : (interruptCore s core cls).jobs = s.jobs := by
  unfold interruptCore
  (repeat' split) <;> simp
@[simp] theorem interruptCore_env (s : State) (core cls : Nat) : (interruptCore s core cls).env = s.env := by
  unfold interruptCore
  (repeat' split) <;> simp
@[simp] theorem interruptCore_fault (s : State) (core cls : Nat) : (interruptCore s core cls).fault = s.fault := by
  unfold interruptCore
  (repeat' split) <;> simp
@[simp] theorem interruptCore_intc (s : State) (core cls : Nat) : (interruptCore s core cls).intc = s.intc := by
  unfold interruptCore
  (repeat' split) <;> simp
@[simp] theorem interruptCore_host (s : State) (core cls : Nat) : (interruptCore s core cls).host = s.host := by
  unfold interruptCore
  (repeat' split) <;> simp
@[simp] theorem interruptCore_cpu (s : State) (core cls : Nat) : (interruptCore s core cls).cpu = s.cpu := by
  unfold interruptCore
  (repeat' split) <;> simp
@[simp] theorem interruptCore_mem (s : State) (core cls : Nat) : (interruptCore s core cls).mem = s.mem := by
  unfold interruptCore
  (repeat' split) <;> simp
@[simp] theorem interruptCore_cont (s : State) (core cls : Nat) : (interruptCore s core cls).cont = s.cont := by
  unfold interruptCore
  (repeat' split) <;> simp
@[simp] theorem interruptCore_boot (s : State) (core cls : Nat) : (interruptCore s core cls).boot = s.boot := by
  unfold interruptCore
  (repeat' split) <;> simp
@[simp] theorem interruptCore_img (s : State) (core cls : Nat) : (interruptCore s core cls).img = s.img := by
  unfold interruptCore
  (repeat' split) <;> simp
@[simp] theorem interruptCore_vault (s : State) (core cls : Nat) : (interruptCore s core cls).vault = s.vault := by
  unfold interruptCore
  (repeat' split) <;> simp
@[simp] theorem interruptCore_otp (s : State) (core cls : Nat) : (interruptCore s core cls).otp = s.otp := by
  unfold interruptCore
  (repeat' split) <;> simp
@[simp] theorem interruptCore_sheet (s : State) (core cls : Nat) : (interruptCore s core cls).sheet = s.sheet := by
  unfold interruptCore
  (repeat' split) <;> simp
@[simp] theorem interruptCore_net (s : State) (core cls : Nat) : (interruptCore s core cls).net = s.net := by
  unfold interruptCore
  (repeat' split) <;> simp
@[simp] theorem interruptCore_tm (s : State) (core cls : Nat) : (interruptCore s core cls).tm = s.tm := by
  unfold interruptCore
  (repeat' split) <;> simp
@[simp] theorem interruptCore_edge (s : State) (core cls : Nat) : (interruptCore s core cls).edge = s.edge := by
  unfold interruptCore
  (repeat' split) <;> simp
@[simp] theorem interruptCore_wake (s : State) (core cls : Nat) : (interruptCore s core cls).wake = s.wake := by
  unfold interruptCore
  (repeat' split) <;> simp
@[simp] theorem interruptCore_cnt (s : State) (core cls : Nat) : (interruptCore s core cls).cnt = s.cnt := by
  unfold interruptCore
  (repeat' split) <;> simp
@[simp] theorem interruptCore_freeCtr (s : State) (core cls : Nat) : (interruptCore s core cls).freeCtr = s.freeCtr := by
  unfold interruptCore
  (repeat' split) <;> simp

@[simp] theorem deliver_pending (s : State) (n : Nat) : (deliver s n).pending = s.pending := by
  unfold deliver
  (repeat' split) <;> simp
@[simp] theorem deliver_time (s : State) (n : Nat) : (deliver s n).time = s.time := by
  unfold deliver
  (repeat' split) <;> simp
@[simp] theorem deliver_jobs (s : State) (n : Nat) : (deliver s n).jobs = s.jobs := by
  unfold deliver
  (repeat' split) <;> simp
@[simp] theorem deliver_env (s : State) (n : Nat) : (deliver s n).env = s.env := by
  unfold deliver
  (repeat' split) <;> simp
@[simp] theorem deliver_fault (s : State) (n : Nat) : (deliver s n).fault = s.fault := by
  unfold deliver
  (repeat' split) <;> simp
@[simp] theorem deliver_intc (s : State) (n : Nat) : (deliver s n).intc = s.intc := by
  unfold deliver
  (repeat' split) <;> simp
@[simp] theorem deliver_cpu (s : State) (n : Nat) : (deliver s n).cpu = s.cpu := by
  unfold deliver
  (repeat' split) <;> simp
@[simp] theorem deliver_mem (s : State) (n : Nat) : (deliver s n).mem = s.mem := by
  unfold deliver
  (repeat' split) <;> simp
@[simp] theorem deliver_cont (s : State) (n : Nat) : (deliver s n).cont = s.cont := by
  unfold deliver
  (repeat' split) <;> simp
@[simp] theorem deliver_boot (s : State) (n : Nat) : (deliver s n).boot = s.boot := by
  unfold deliver
  (repeat' split) <;> simp
@[simp] theorem deliver_img (s : State) (n : Nat) : (deliver s n).img = s.img := by
  unfold deliver
  (repeat' split) <;> simp
@[simp] theorem deliver_vault (s : State) (n : Nat) : (deliver s n).vault = s.vault := by
  unfold deliver
  (repeat' split) <;> simp
@[simp] theorem deliver_otp (s : State) (n : Nat) : (deliver s n).otp = s.otp := by
  unfold deliver
  (repeat' split) <;> simp
@[simp] theorem deliver_sheet (s : State) (n : Nat) : (deliver s n).sheet = s.sheet := by
  unfold deliver
  (repeat' split) <;> simp
@[simp] theorem deliver_net (s : State) (n : Nat) : (deliver s n).net = s.net := by
  unfold deliver
  (repeat' split) <;> simp
@[simp] theorem deliver_tm (s : State) (n : Nat) : (deliver s n).tm = s.tm := by
  unfold deliver
  (repeat' split) <;> simp
@[simp] theorem deliver_edge (s : State) (n : Nat) : (deliver s n).edge = s.edge := by
  unfold deliver
  (repeat' split) <;> simp
@[simp] theorem deliver_wake (s : State) (n : Nat) : (deliver s n).wake = s.wake := by
  unfold deliver
  (repeat' split) <;> simp
@[simp] theorem deliver_cnt (s : State) (n : Nat) : (deliver s n).cnt = s.cnt := by
  unfold deliver
  (repeat' split) <;> simp
@[simp] theorem deliver_freeCtr (s : State) (n : Nat) : (deliver s n).freeCtr = s.freeCtr := by
  unfold deliver
  (repeat' split) <;> simp

@[simp] theorem raiseSource_pending (s : State) (n : Nat) : (raiseSource s n).pending = s.pending := by
  unfold raiseSource
  (repeat' split) <;> simp
@[simp] theorem raiseSource_time (s : State) (n : Nat) : (raiseSource s n).time = s.time := by
  unfold raiseSource
  (repeat' split) <;> simp
@[simp] theorem raiseSource_jobs (s : State) (n : Nat) : (raiseSource s n).jobs = s.jobs := by
  unfold raiseSource
  (repeat' split) <;> simp
@[simp] theorem raiseSource_env (s : State) (n : Nat) : (raiseSource s n).env = s.env := by
  unfold raiseSource
  (repeat' split) <;> simp
@[simp] theorem raiseSource_fault (s : State) (n : Nat) : (raiseSource s n).fault = s.fault := by
  unfold raiseSource
  (repeat' split) <;> simp
@[simp] theorem raiseSource_cpu (s : State) (n : Nat) : (raiseSource s n).cpu = s.cpu := by
  unfold raiseSource
  (repeat' split) <;> simp
@[simp] theorem raiseSource_mem (s : State) (n : Nat) : (raiseSource s n).mem = s.mem := by
  unfold raiseSource
  (repeat' split) <;> simp
@[simp] theorem raiseSource_cont (s : State) (n : Nat) : (raiseSource s n).cont = s.cont := by
  unfold raiseSource
  (repeat' split) <;> simp
@[simp] theorem raiseSource_boot (s : State) (n : Nat) : (raiseSource s n).boot = s.boot := by
  unfold raiseSource
  (repeat' split) <;> simp
@[simp] theorem raiseSource_img (s : State) (n : Nat) : (raiseSource s n).img = s.img := by
  unfold raiseSource
  (repeat' split) <;> simp
@[simp] theorem raiseSource_vault (s : State) (n : Nat) : (raiseSource s n).vault = s.vault := by
  unfold raiseSource
  (repeat' split) <;> simp
@[simp] theorem raiseSource_otp (s : State) (n : Nat) : (raiseSource s n).otp = s.otp := by
  unfold raiseSource
  (repeat' split) <;> simp
@[simp] theorem raiseSource_sheet (s : State) (n : Nat) : (raiseSource s n).sheet = s.sheet := by
  unfold raiseSource
  (repeat' split) <;> simp
@[simp] theorem raiseSource_net (s : State) (n : Nat) : (raiseSource s n).net = s.net := by
  unfold raiseSource
  (repeat' split) <;> simp
@[simp] theorem raiseSource_tm (s : State) (n : Nat) : (raiseSource s n).tm = s.tm := by
  unfold raiseSource
  (repeat' split) <;> simp
@[simp] theorem raiseSource_edge (s : State) (n : Nat) : (raiseSource s n).edge = s.edge := by
  unfold raiseSource
  (repeat' split) <;> simp
@[simp] theorem raiseSource_wake (s : State) (n : Nat) : (raiseSource s n).wake = s.wake := by
  unfold raiseSource
  (repeat' split) <;> simp
@[simp] theorem raiseSource_cnt (s : State) (n : Nat) : (raiseSource s n).cnt = s.cnt := by
  unfold raiseSource
  (repeat' split) <;> simp
@[simp] theorem raiseSource_freeCtr (s : State) (n : Nat) : (raiseSource s n).freeCtr = s.freeCtr := by
  unfold raiseSource
  (repeat' split) <;> simp

@[simp] theorem setLevel_pending (s : State) (n : Nat) (high : Bool) : (setLevel s n high).pending = s.pending := by
  unfold setLevel
  dsimp only
  (repeat' split) <;> simp
@[simp] theorem setLevel_time (s : State) (n : Nat) (high : Bool) : (setLevel s n high).time = s.time := by
  unfold setLevel
  dsimp only
  (repeat' split) <;> simp
@[simp] theorem setLevel_jobs (s : State) (n : Nat) (high : Bool) : (setLevel s n high).jobs = s.jobs := by
  unfold setLevel
  dsimp only
  (repeat' split) <;> simp
@[simp] theorem setLevel_env (s : State) (n : Nat) (high : Bool) : (setLevel s n high).env = s.env := by
  unfold setLevel
  dsimp only
  (repeat' split) <;> simp
@[simp] theorem setLevel_fault (s : State) (n : Nat) (high : Bool) : (setLevel s n high).fault = s.fault := by
  unfold setLevel
  dsimp only
  (repeat' split) <;> simp
@[simp] theorem setLevel_cpu (s : State) (n : Nat) (high : Bool) : (setLevel s n high).cpu = s.cpu := by
  unfold setLevel
  dsimp only
  (repeat' split) <;> simp
@[simp] theorem setLevel_mem (s : State) (n : Nat) (high : Bool) : (setLevel s n high).mem = s.mem := by
  unfold setLevel
  dsimp only
  (repeat' split) <;> simp
@[simp] theorem setLevel_cont (s : State) (n : Nat) (high : Bool) : (setLevel s n high).cont = s.cont := by
  unfold setLevel
  dsimp only
  (repeat' split) <;> simp
@[simp] theorem setLevel_boot (s : State) (n : Nat) (high : Bool) : (setLevel s n high).boot = s.boot := by
  unfold setLevel
  dsimp only
  (repeat' split) <;> simp
@[simp] theorem setLevel_img (s : State) (n : Nat) (high : Bool) : (setLevel s n high).img = s.img := by
  unfold setLevel
  dsimp only
  (repeat' split) <;> simp
@[simp] theorem setLevel_vault (s : State) (n : Nat) (high : Bool) : (setLevel s n high).vault = s.vault := by
  unfold setLevel
  dsimp only
  (repeat' split) <;> simp
@[simp] theorem setLevel_otp (s : State) (n : Nat) (high : Bool) : (setLevel s n high).otp = s.otp := by
  unfold setLevel
  dsimp only
  (repeat' split) <;> simp
@[simp] theorem setLevel_sheet (s : State) (n : Nat) (high : Bool) : (setLevel s n high).sheet = s.sheet := by
  unfold setLevel
  dsimp only
  (repeat' split) <;> simp
@[simp] theorem setLevel_net (s : State) (n : Nat) (high : Bool) : (setLevel s n high).net = s.net := by
  unfold setLevel
  dsimp only
  (repeat' split) <;> simp
@[simp] theorem setLevel_tm (s : State) (n : Nat) (high : Bool) : (setLevel s n high).tm = s.tm := by
  unfold setLevel
  dsimp only
  (repeat' split) <;> simp
@[simp] theorem setLevel_edge (s : State) (n : Nat) (high : Bool) : (setLevel s n high).edge = s.edge := by
  unfold setLevel
  dsimp only
  (repeat' split) <;> simp
@[simp] theorem setLevel_wake (s : State) (n : Nat) (high : Bool) : (setLevel s n high).wake = s.wake := by
  unfold setLevel
  dsimp only
  (repeat' split) <;> simp
@[simp] theorem setLevel_cnt (s : State) (n : Nat) (high : Bool) : (setLevel s n high).cnt = s.cnt := by
  unfold setLevel
  dsimp only
  (repeat' split) <;> simp
@[simp] theorem setLevel_freeCtr (s : State) (n : Nat) (high : Bool) : (setLevel s n high).freeCtr = s.freeCtr := by
  unfold setLevel
  dsimp only
  (repeat' split) <;> simp

@[simp] theorem noteTb_pending (before after : State) : (noteTb before after).pending = after.pending := by
  unfold noteTb
  (repeat' split) <;> simp
@[simp] theorem noteTb_time (before after : State) : (noteTb before after).time = after.time := by
  unfold noteTb
  (repeat' split) <;> simp
@[simp] theorem noteTb_jobs (before after : State) : (noteTb before after).jobs = after.jobs := by
  unfold noteTb
  (repeat' split) <;> simp
@[simp] theorem noteTb_env (before after : State) : (noteTb before after).env = after.env := by
  unfold noteTb
  (repeat' split) <;> simp
@[simp] theorem noteTb_fault (before after : State) : (noteTb before after).fault = after.fault := by
  unfold noteTb
  (repeat' split) <;> simp
@[simp] theorem noteTb_cpu (before after : State) : (noteTb before after).cpu = after.cpu := by
  unfold noteTb
  (repeat' split) <;> simp
@[simp] theorem noteTb_mem (before after : State) : (noteTb before after).mem = after.mem := by
  unfold noteTb
  (repeat' split) <;> simp
@[simp] theorem noteTb_cont (before after : State) : (noteTb before after).cont = after.cont := by
  unfold noteTb
  (repeat' split) <;> simp
@[simp] theorem noteTb_boot (before after : State) : (noteTb before after).boot = after.boot := by
  unfold noteTb
  (repeat' split) <;> simp
@[simp] theorem noteTb_img (before after : State) : (noteTb before after).img = after.img := by
  unfold noteTb
  (repeat' split) <;> simp
@[simp] theorem noteTb_vault (before after : State) : (noteTb before after).vault = after.vault := by
  unfold noteTb
  (repeat' split) <;> simp
@[simp] theorem noteTb_otp (before after : State) : (noteTb before after).otp = after.otp := by
  unfold noteTb
  (repeat' split) <;> simp
@[simp] theorem noteTb_sheet (before after : State) : (noteTb before after).sheet = after.sheet := by
  unfold noteTb
  (repeat' split) <;> simp
@[simp] theorem noteTb_net (before after : State) : (noteTb before after).net = after.net := by
  unfold noteTb
  (repeat' split) <;> simp
@[simp] theorem noteTb_tm (before after : State) : (noteTb before after).tm = after.tm := by
  unfold noteTb
  (repeat' split) <;> simp
@[simp] theorem noteTb_edge (before after : State) : (noteTb before after).edge = after.edge := by
  unfold noteTb
  (repeat' split) <;> simp
@[simp] theorem noteTb_wake (before after : State) : (noteTb before after).wake = after.wake := by
  unfold noteTb
  (repeat' split) <;> simp
@[simp] theorem noteTb_cnt (before after : State) : (noteTb before after).cnt = after.cnt := by
  unfold noteTb
  (repeat' split) <;> simp
@[simp] theorem noteTb_freeCtr (before after : State) : (noteTb before after).freeCtr = after.freeCtr := by
  unfold noteTb
  (repeat' split) <;> simp

@[simp] theorem ledgerAdd_pending (s : State) (org addr code space : Nat) : (ledgerAdd s org addr code space).pending = s.pending := by
  unfold ledgerAdd
  dsimp only
  (repeat' split) <;> simp
@[simp] theorem ledgerAdd_time (s : State) (org addr code space : Nat) : (ledgerAdd s org addr code space).time = s.time := by
  unfold ledgerAdd
  dsimp only
  (repeat' split) <;> simp
@[simp] theorem ledgerAdd_jobs (s : State) (org addr code space : Nat) : (ledgerAdd s org addr code space).jobs = s.jobs := by
  unfold ledgerAdd
  dsimp only
  (repeat' split) <;> simp
@[simp] theorem ledgerAdd_env (s : State) (org addr code space : Nat) : (ledgerAdd s org addr code space).env = s.env := by
  unfold ledgerAdd
  dsimp only
  (repeat' split) <;> simp
@[simp] theorem ledgerAdd_fault (s : State) (org addr code space : Nat) : (ledgerAdd s org addr code space).fault = s.fault := by
  unfold ledgerAdd
  dsimp only
  (repeat' split) <;> simp
@[simp] theorem ledgerAdd_cpu (s : State) (org addr code space : Nat) : (ledgerAdd s org addr code space).cpu = s.cpu := by
  unfold ledgerAdd
  dsimp only
  (repeat' split) <;> simp
@[simp] theorem ledgerAdd_mem (s : State) (org addr code space : Nat) : (ledgerAdd s org addr code space).mem = s.mem := by
  unfold ledgerAdd
  dsimp only
  (repeat' split) <;> simp
@[simp] theorem ledgerAdd_cont (s : State) (org addr code space : Nat) : (ledgerAdd s org addr code space).cont = s.cont := by
  unfold ledgerAdd
  dsimp only
  (repeat' split) <;> simp
@[simp] theorem ledgerAdd_boot (s : State) (org addr code space : Nat) : (ledgerAdd s org addr code space).boot = s.boot := by
  unfold ledgerAdd
  dsimp only
  (repeat' split) <;> simp
@[simp] theorem ledgerAdd_img (s : State) (org addr code space : Nat) : (ledgerAdd s org addr code space).img = s.img := by
  unfold ledgerAdd
  dsimp only
  (repeat' split) <;> simp
@[simp] theorem ledgerAdd_vault (s : State) (org addr code space : Nat) : (ledgerAdd s org addr code space).vault = s.vault := by
  unfold ledgerAdd
  dsimp only
  (repeat' split) <;> simp
@[simp] theorem ledgerAdd_otp (s : State) (org addr code space : Nat) : (ledgerAdd s org addr code space).otp = s.otp := by
  unfold ledgerAdd
  dsimp only
  (repeat' split) <;> simp
@[simp] theorem ledgerAdd_sheet (s : State) (org addr code space : Nat) : (ledgerAdd s org addr code space).sheet = s.sheet := by
  unfold ledgerAdd
  dsimp only
  (repeat' split) <;> simp
@[simp] theorem ledgerAdd_net (s : State) (org addr code space : Nat) : (ledgerAdd s org addr code space).net = s.net := by
  unfold ledgerAdd
  dsimp only
  (repeat' split) <;> simp
@[simp] theorem ledgerAdd_tm (s : State) (org addr code space : Nat) : (ledgerAdd s org addr code space).tm = s.tm := by
  unfold ledgerAdd
  dsimp only
  (repeat' split) <;> simp
@[simp] theorem ledgerAdd_edge (s : State) (org addr code space : Nat) : (ledgerAdd s org addr code space).edge = s.edge := by
  unfold ledgerAdd
  dsimp only
  (repeat' split) <;> simp
@[simp] theorem ledgerAdd_wake (s : State) (org addr code space : Nat) : (ledgerAdd s org addr code space).wake = s.wake := by
  unfold ledgerAdd
  dsimp only
  (repeat' split) <;> simp
@[simp] theorem ledgerAdd_cnt (s : State) (org addr code space : Nat) : (ledgerAdd s org addr code space).cnt = s.cnt := by
  unfold ledgerAdd
  dsimp only
  (repeat' split) <;> simp
@[simp] theorem ledgerAdd_freeCtr (s : State) (org addr code space : Nat) : (ledgerAdd s org addr code space).freeCtr = s.freeCtr := by
  unfold ledgerAdd
  dsimp only
  (repeat' split) <;> simp

@[simp] theorem contActivate_pending (s : State) (p cause master : Nat) : (contActivate s p cause master).pending = s.pending := by
  unfold contActivate
  dsimp only
  (repeat' split) <;> simp
@[simp] theorem contActivate_time (s : State) (p cause master : Nat) : (contActivate s p cause master).time = s.time := by
  unfold contActivate
  dsimp only
  (repeat' split) <;> simp
@[simp] theorem contActivate_env (s : State) (p cause master : Nat) : (contActivate s p cause master).env = s.env := by
  unfold contActivate
  dsimp only
  (repeat' split) <;> simp
@[simp] theorem contActivate_fault (s : State) (p cause master : Nat) : (contActivate s p cause master).fault = s.fault := by
  unfold contActivate
  dsimp only
  (repeat' split) <;> simp
@[simp] theorem contActivate_intc (s : State) (p cause master : Nat) : (contActivate s p cause master).intc = s.intc := by
  unfold contActivate
  dsimp only
  (repeat' split) <;> simp
@[simp] theorem contActivate_host (s : State) (p cause master : Nat) : (contActivate s p cause master).host = s.host := by
  unfold contActivate
  dsimp only
  (repeat' split) <;> simp
@[simp] theorem contActivate_cpu (s : State) (p cause master : Nat) : (contActivate s p cause master).cpu = s.cpu := by
  unfold contActivate
  dsimp only
  (repeat' split) <;> simp
@[simp] theorem contActivate_mem (s : State) (p cause master : Nat) : (contActivate s p cause master).mem = s.mem := by
  unfold contActivate
  dsimp only
  (repeat' split) <;> simp
@[simp] theorem contActivate_boot (s : State) (p cause master : Nat) : (contActivate s p cause master).boot = s.boot := by
  unfold contActivate
  dsimp only
  (repeat' split) <;> simp
@[simp] theorem contActivate_img (s : State) (p cause master : Nat) : (contActivate s p cause master).img = s.img := by
  unfold contActivate
  dsimp only
  (repeat' split) <;> simp
@[simp] theorem contActivate_vault (s : State) (p cause master : Nat) : (contActivate s p cause master).vault = s.vault := by
  unfold contActivate
  dsimp only
  (repeat' split) <;> simp
@[simp] theorem contActivate_otp (s : State) (p cause master : Nat) : (contActivate s p cause master).otp = s.otp := by
  unfold contActivate
  dsimp only
  (repeat' split) <;> simp
@[simp] theorem contActivate_net (s : State) (p cause master : Nat) : (contActivate s p cause master).net = s.net := by
  unfold contActivate
  dsimp only
  (repeat' split) <;> simp
@[simp] theorem contActivate_tm (s : State) (p cause master : Nat) : (contActivate s p cause master).tm = s.tm := by
  unfold contActivate
  dsimp only
  (repeat' split) <;> simp
@[simp] theorem contActivate_edge (s : State) (p cause master : Nat) : (contActivate s p cause master).edge = s.edge := by
  unfold contActivate
  dsimp only
  (repeat' split) <;> simp
@[simp] theorem contActivate_wake (s : State) (p cause master : Nat) : (contActivate s p cause master).wake = s.wake := by
  unfold contActivate
  dsimp only
  (repeat' split) <;> simp
@[simp] theorem contActivate_cnt (s : State) (p cause master : Nat) : (contActivate s p cause master).cnt = s.cnt := by
  unfold contActivate
  dsimp only
  (repeat' split) <;> simp
@[simp] theorem contActivate_io (s : State) (p cause master : Nat) : (contActivate s p cause master).io = s.io := by
  unfold contActivate
  dsimp only
  (repeat' split) <;> simp
@[simp] theorem contActivate_freeCtr (s : State) (p cause master : Nat) : (contActivate s p cause master).freeCtr = s.freeCtr := by
  unfold contActivate
  dsimp only
  (repeat' split) <;> simp

@[simp] theorem requestAbort_pending (s : State) (cause source : Nat) : (requestAbort s cause source).pending = s.pending := by
  unfold requestAbort
  (repeat' split) <;> simp
@[simp] theorem requestAbort_regs (s : State) (cause source : Nat) : (requestAbort s cause source).regs = s.regs := by
  unfold requestAbort
  (repeat' split) <;> simp
@[simp] theorem requestAbort_accum (s : State) (cause source : Nat) : (requestAbort s cause source).accum = s.accum := by
  unfold requestAbort
  (repeat' split) <;> simp
@[simp] theorem requestAbort_time (s : State) (cause source : Nat) : (requestAbort s cause source).time = s.time := by
  unfold requestAbort
  (repeat' split) <;> simp
@[simp] theorem requestAbort_jobs (s : State) (cause source : Nat) : (requestAbort s cause source).jobs = s.jobs := by
  unfold requestAbort
  (repeat' split) <;> simp
@[simp] theorem requestAbort_env (s : State) (cause source : Nat) : (requestAbort s cause source).env = s.env := by
  unfold requestAbort
  (repeat' split) <;> simp
@[simp] theorem requestAbort_fault (s : State) (cause source : Nat) : (requestAbort s cause source).fault = s.fault := by
  unfold requestAbort
  (repeat' split) <;> simp
@[simp] theorem requestAbort_intc (s : State) (cause source : Nat) : (requestAbort s cause source).intc = s.intc := by
  unfold requestAbort
  (repeat' split) <;> simp
@[simp] theorem requestAbort_host (s : State) (cause source : Nat) : (requestAbort s cause source).host = s.host := by
  unfold requestAbort
  (repeat' split) <;> simp
@[simp] theorem requestAbort_cpu (s : State) (cause source : Nat) : (requestAbort s cause source).cpu = s.cpu := by
  unfold requestAbort
  (repeat' split) <;> simp
@[simp] theorem requestAbort_mem (s : State) (cause source : Nat) : (requestAbort s cause source).mem = s.mem := by
  unfold requestAbort
  (repeat' split) <;> simp
@[simp] theorem requestAbort_cont (s : State) (cause source : Nat) : (requestAbort s cause source).cont = s.cont := by
  unfold requestAbort
  (repeat' split) <;> simp
@[simp] theorem requestAbort_boot (s : State) (cause source : Nat) : (requestAbort s cause source).boot = s.boot := by
  unfold requestAbort
  (repeat' split) <;> simp
@[simp] theorem requestAbort_img (s : State) (cause source : Nat) : (requestAbort s cause source).img = s.img := by
  unfold requestAbort
  (repeat' split) <;> simp
@[simp] theorem requestAbort_vault (s : State) (cause source : Nat) : (requestAbort s cause source).vault = s.vault := by
  unfold requestAbort
  (repeat' split) <;> simp
@[simp] theorem requestAbort_otp (s : State) (cause source : Nat) : (requestAbort s cause source).otp = s.otp := by
  unfold requestAbort
  (repeat' split) <;> simp
@[simp] theorem requestAbort_sheet (s : State) (cause source : Nat) : (requestAbort s cause source).sheet = s.sheet := by
  unfold requestAbort
  (repeat' split) <;> simp
@[simp] theorem requestAbort_net (s : State) (cause source : Nat) : (requestAbort s cause source).net = s.net := by
  unfold requestAbort
  (repeat' split) <;> simp
@[simp] theorem requestAbort_tm (s : State) (cause source : Nat) : (requestAbort s cause source).tm = s.tm := by
  unfold requestAbort
  (repeat' split) <;> simp
@[simp] theorem requestAbort_edge (s : State) (cause source : Nat) : (requestAbort s cause source).edge = s.edge := by
  unfold requestAbort
  (repeat' split) <;> simp
@[simp] theorem requestAbort_cnt (s : State) (cause source : Nat) : (requestAbort s cause source).cnt = s.cnt := by
  unfold requestAbort
  (repeat' split) <;> simp
@[simp] theorem requestAbort_io (s : State) (cause source : Nat) : (requestAbort s cause source).io = s.io := by
  unfold requestAbort
  (repeat' split) <;> simp
@[simp] theorem requestAbort_freeCtr (s : State) (cause source : Nat) : (requestAbort s cause source).freeCtr = s.freeCtr := by
  unfold requestAbort
  (repeat' split) <;> simp

@[simp] theorem refreshFaultN_pending (s : State) : (refreshFaultN s).pending = s.pending := by
  unfold refreshFaultN
  dsimp only
  (repeat' split) <;> simp
@[simp] theorem refreshFaultN_accum (s : State) : (refreshFaultN s).accum = s.accum := by
  unfold refreshFaultN
  dsimp only
  (repeat' split) <;> simp
@[simp] theorem refreshFaultN_time (s : State) : (refreshFaultN s).time = s.time := by
  unfold refreshFaultN
  dsimp only
  (repeat' split) <;> simp
@[simp] theorem refreshFaultN_jobs (s : State) : (refreshFaultN s).jobs = s.jobs := by
  unfold refreshFaultN
  dsimp only
  (repeat' split) <;> simp
@[simp] theorem refreshFaultN_env (s : State) : (refreshFaultN s).env = s.env := by
  unfold refreshFaultN
  dsimp only
  (repeat' split) <;> simp
@[simp] theorem refreshFaultN_fault (s : State) : (refreshFaultN s).fault = s.fault := by
  unfold refreshFaultN
  dsimp only
  (repeat' split) <;> simp
@[simp] theorem refreshFaultN_intc (s : State) : (refreshFaultN s).intc = s.intc := by
  unfold refreshFaultN
  dsimp only
  (repeat' split) <;> simp
@[simp] theorem refreshFaultN_host (s : State) : (refreshFaultN s).host = s.host := by
  unfold refreshFaultN
  dsimp only
  (repeat' split) <;> simp
@[simp] theorem refreshFaultN_cpu (s : State) : (refreshFaultN s).cpu = s.cpu := by
  unfold refreshFaultN
  dsimp only
  (repeat' split) <;> simp
@[simp] theorem refreshFaultN_mem (s : State) : (refreshFaultN s).mem = s.mem := by
  unfold refreshFaultN
  dsimp only
  (repeat' split) <;> simp
@[simp] theorem refreshFaultN_cont (s : State) : (refreshFaultN s).cont = s.cont := by
  unfold refreshFaultN
  dsimp only
  (repeat' split) <;> simp
@[simp] theorem refreshFaultN_boot (s : State) : (refreshFaultN s).boot = s.boot := by
  unfold refreshFaultN
  dsimp only
  (repeat' split) <;> simp
@[simp] theorem refreshFaultN_img (s : State) : (refreshFaultN s).img = s.img := by
  unfold refreshFaultN
  dsimp only
  (repeat' split) <;> simp
@[simp] theorem refreshFaultN_vault (s : State) : (refreshFaultN s).vault = s.vault := by
  unfold refreshFaultN
  dsimp only
  (repeat' split) <;> simp
@[simp] theorem refreshFaultN_otp (s : State) : (refreshFaultN s).otp = s.otp := by
  unfold refreshFaultN
  dsimp only
  (repeat' split) <;> simp
@[simp] theorem refreshFaultN_sheet (s : State) : (refreshFaultN s).sheet = s.sheet := by
  unfold refreshFaultN
  dsimp only
  (repeat' split) <;> simp
@[simp] theorem refreshFaultN_net (s : State) : (refreshFaultN s).net = s.net := by
  unfold refreshFaultN
  dsimp only
  (repeat' split) <;> simp
@[simp] theorem refreshFaultN_tm (s : State) : (refreshFaultN s).tm = s.tm := by
  unfold refreshFaultN
  dsimp only
  (repeat' split) <;> simp
@[simp] theorem refreshFaultN_edge (s : State) : (refreshFaultN s).edge = s.edge := by
  unfold refreshFaultN
  dsimp only
  (repeat' split) <;> simp
@[simp] theorem refreshFaultN_wake (s : State) : (refreshFaultN s).wake = s.wake := by
  unfold refreshFaultN
  dsimp only
  (repeat' split) <;> simp
@[simp] theorem refreshFaultN_cnt (s : State) : (refreshFaultN s).cnt = s.cnt := by
  unfold refreshFaultN
  dsimp only
  (repeat' split) <;> simp
@[simp] theorem refreshFaultN_io (s : State) : (refreshFaultN s).io = s.io := by
  unfold refreshFaultN
  dsimp only
  (repeat' split) <;> simp
@[simp] theorem refreshFaultN_freeCtr (s : State) : (refreshFaultN s).freeCtr = s.freeCtr := by
  unfold refreshFaultN
  dsimp only
  (repeat' split) <;> simp

@[simp] theorem enterSafe_pending (s : State) (code : Nat) (byEsc : Bool) (fromSev firstTempo : Nat) : (enterSafe s code byEsc fromSev firstTempo).pending = s.pending := by
  unfold enterSafe
  dsimp only
  (repeat' split) <;> simp
@[simp] theorem enterSafe_time (s : State) (code : Nat) (byEsc : Bool) (fromSev firstTempo : Nat) : (enterSafe s code byEsc fromSev firstTempo).time = s.time := by
  unfold enterSafe
  dsimp only
  (repeat' split) <;> simp
@[simp] theorem enterSafe_env (s : State) (code : Nat) (byEsc : Bool) (fromSev firstTempo : Nat) : (enterSafe s code byEsc fromSev firstTempo).env = s.env := by
  unfold enterSafe
  dsimp only
  (repeat' split) <;> simp
@[simp] theorem enterSafe_cpu (s : State) (code : Nat) (byEsc : Bool) (fromSev firstTempo : Nat) : (enterSafe s code byEsc fromSev firstTempo).cpu = s.cpu := by
  unfold enterSafe
  dsimp only
  (repeat' split) <;> simp
@[simp] theorem enterSafe_mem (s : State) (code : Nat) (byEsc : Bool) (fromSev firstTempo : Nat) : (enterSafe s code byEsc fromSev firstTempo).mem = s.mem := by
  unfold enterSafe
  dsimp only
  (repeat' split) <;> simp
@[simp] theorem enterSafe_boot (s : State) (code : Nat) (byEsc : Bool) (fromSev firstTempo : Nat) : (enterSafe s code byEsc fromSev firstTempo).boot = s.boot := by
  unfold enterSafe
  dsimp only
  (repeat' split) <;> simp
@[simp] theorem enterSafe_img (s : State) (code : Nat) (byEsc : Bool) (fromSev firstTempo : Nat) : (enterSafe s code byEsc fromSev firstTempo).img = s.img := by
  unfold enterSafe
  dsimp only
  (repeat' split) <;> simp
@[simp] theorem enterSafe_vault (s : State) (code : Nat) (byEsc : Bool) (fromSev firstTempo : Nat) : (enterSafe s code byEsc fromSev firstTempo).vault = s.vault := by
  unfold enterSafe
  dsimp only
  (repeat' split) <;> simp
@[simp] theorem enterSafe_otp (s : State) (code : Nat) (byEsc : Bool) (fromSev firstTempo : Nat) : (enterSafe s code byEsc fromSev firstTempo).otp = s.otp := by
  unfold enterSafe
  dsimp only
  (repeat' split) <;> simp
@[simp] theorem enterSafe_net (s : State) (code : Nat) (byEsc : Bool) (fromSev firstTempo : Nat) : (enterSafe s code byEsc fromSev firstTempo).net = s.net := by
  unfold enterSafe
  dsimp only
  (repeat' split) <;> simp
@[simp] theorem enterSafe_tm (s : State) (code : Nat) (byEsc : Bool) (fromSev firstTempo : Nat) : (enterSafe s code byEsc fromSev firstTempo).tm = s.tm := by
  unfold enterSafe
  dsimp only
  (repeat' split) <;> simp
@[simp] theorem enterSafe_edge (s : State) (code : Nat) (byEsc : Bool) (fromSev firstTempo : Nat) : (enterSafe s code byEsc fromSev firstTempo).edge = s.edge := by
  unfold enterSafe
  dsimp only
  (repeat' split) <;> simp
@[simp] theorem enterSafe_wake (s : State) (code : Nat) (byEsc : Bool) (fromSev firstTempo : Nat) : (enterSafe s code byEsc fromSev firstTempo).wake = s.wake := by
  unfold enterSafe
  dsimp only
  (repeat' split) <;> simp
@[simp] theorem enterSafe_cnt (s : State) (code : Nat) (byEsc : Bool) (fromSev firstTempo : Nat) : (enterSafe s code byEsc fromSev firstTempo).cnt = s.cnt := by
  unfold enterSafe
  dsimp only
  (repeat' split) <;> simp
@[simp] theorem enterSafe_freeCtr (s : State) (code : Nat) (byEsc : Bool) (fromSev firstTempo : Nat) : (enterSafe s code byEsc fromSev firstTempo).freeCtr = s.freeCtr := by
  unfold enterSafe
  dsimp only
  (repeat' split) <;> simp

@[simp] theorem faultReact_pending (s : State) (code unit sev profile : Nat) : (faultReact s code unit sev profile).pending = s.pending := by
  unfold faultReact
  dsimp only
  (repeat' split) <;> simp
@[simp] theorem faultReact_time (s : State) (code unit sev profile : Nat) : (faultReact s code unit sev profile).time = s.time := by
  unfold faultReact
  dsimp only
  (repeat' split) <;> simp
@[simp] theorem faultReact_env (s : State) (code unit sev profile : Nat) : (faultReact s code unit sev profile).env = s.env := by
  unfold faultReact
  dsimp only
  (repeat' split) <;> simp
@[simp] theorem faultReact_cpu (s : State) (code unit sev profile : Nat) : (faultReact s code unit sev profile).cpu = s.cpu := by
  unfold faultReact
  dsimp only
  (repeat' split) <;> simp
@[simp] theorem faultReact_mem (s : State) (code unit sev profile : Nat) : (faultReact s code unit sev profile).mem = s.mem := by
  unfold faultReact
  dsimp only
  (repeat' split) <;> simp
@[simp] theorem faultReact_boot (s : State) (code unit sev profile : Nat) : (faultReact s code unit sev profile).boot = s.boot := by
  unfold faultReact
  dsimp only
  (repeat' split) <;> simp
@[simp] theorem faultReact_img (s : State) (code unit sev profile : Nat) : (faultReact s code unit sev profile).img = s.img := by
  unfold faultReact
  dsimp only
  (repeat' split) <;> simp
@[simp] theorem faultReact_vault (s : State) (code unit sev profile : Nat) : (faultReact s code unit sev profile).vault = s.vault := by
  unfold faultReact
  dsimp only
  (repeat' split) <;> simp
@[simp] theorem faultReact_otp (s : State) (code unit sev profile : Nat) : (faultReact s code unit sev profile).otp = s.otp := by
  unfold faultReact
  dsimp only
  (repeat' split) <;> simp
@[simp] theorem faultReact_net (s : State) (code unit sev profile : Nat) : (faultReact s code unit sev profile).net = s.net := by
  unfold faultReact
  dsimp only
  (repeat' split) <;> simp
@[simp] theorem faultReact_tm (s : State) (code unit sev profile : Nat) : (faultReact s code unit sev profile).tm = s.tm := by
  unfold faultReact
  dsimp only
  (repeat' split) <;> simp
@[simp] theorem faultReact_edge (s : State) (code unit sev profile : Nat) : (faultReact s code unit sev profile).edge = s.edge := by
  unfold faultReact
  dsimp only
  (repeat' split) <;> simp
@[simp] theorem faultReact_cnt (s : State) (code unit sev profile : Nat) : (faultReact s code unit sev profile).cnt = s.cnt := by
  unfold faultReact
  dsimp only
  (repeat' split) <;> simp
@[simp] theorem faultReact_freeCtr (s : State) (code unit sev profile : Nat) : (faultReact s code unit sev profile).freeCtr = s.freeCtr := by
  unfold faultReact
  dsimp only
  (repeat' split) <;> simp

@[simp] theorem recordFault_pending (s : State) (code unit detail : Nat) : (recordFault s code unit detail).pending = s.pending := by
  unfold recordFault
  dsimp only
  (repeat' split) <;> simp
@[simp] theorem recordFault_time (s : State) (code unit detail : Nat) : (recordFault s code unit detail).time = s.time := by
  unfold recordFault
  dsimp only
  (repeat' split) <;> simp
@[simp] theorem recordFault_env (s : State) (code unit detail : Nat) : (recordFault s code unit detail).env = s.env := by
  unfold recordFault
  dsimp only
  (repeat' split) <;> simp
@[simp] theorem recordFault_cpu (s : State) (code unit detail : Nat) : (recordFault s code unit detail).cpu = s.cpu := by
  unfold recordFault
  dsimp only
  (repeat' split) <;> simp
@[simp] theorem recordFault_mem (s : State) (code unit detail : Nat) : (recordFault s code unit detail).mem = s.mem := by
  unfold recordFault
  dsimp only
  (repeat' split) <;> simp
@[simp] theorem recordFault_boot (s : State) (code unit detail : Nat) : (recordFault s code unit detail).boot = s.boot := by
  unfold recordFault
  dsimp only
  (repeat' split) <;> simp
@[simp] theorem recordFault_img (s : State) (code unit detail : Nat) : (recordFault s code unit detail).img = s.img := by
  unfold recordFault
  dsimp only
  (repeat' split) <;> simp
@[simp] theorem recordFault_vault (s : State) (code unit detail : Nat) : (recordFault s code unit detail).vault = s.vault := by
  unfold recordFault
  dsimp only
  (repeat' split) <;> simp
@[simp] theorem recordFault_otp (s : State) (code unit detail : Nat) : (recordFault s code unit detail).otp = s.otp := by
  unfold recordFault
  dsimp only
  (repeat' split) <;> simp
@[simp] theorem recordFault_net (s : State) (code unit detail : Nat) : (recordFault s code unit detail).net = s.net := by
  unfold recordFault
  dsimp only
  (repeat' split) <;> simp
@[simp] theorem recordFault_tm (s : State) (code unit detail : Nat) : (recordFault s code unit detail).tm = s.tm := by
  unfold recordFault
  dsimp only
  (repeat' split) <;> simp
@[simp] theorem recordFault_edge (s : State) (code unit detail : Nat) : (recordFault s code unit detail).edge = s.edge := by
  unfold recordFault
  dsimp only
  (repeat' split) <;> simp
@[simp] theorem recordFault_cnt (s : State) (code unit detail : Nat) : (recordFault s code unit detail).cnt = s.cnt := by
  unfold recordFault
  dsimp only
  (repeat' split) <;> simp
@[simp] theorem recordFault_freeCtr (s : State) (code unit detail : Nat) : (recordFault s code unit detail).freeCtr = s.freeCtr := by
  unfold recordFault
  dsimp only
  (repeat' split) <;> simp

end Sys2Proof.Machine
end

