-- ==== Sys2Proof/Laws/Ops.lean ====
section
/-!
SUPPORT. What each shared operation can do, said once: an accepted access, a raised source, a counter, a journal
request.
-/
namespace Sys2Proof.Machine

/-- An accepted write has its effect and is answered. -/
theorem accessWrite_accepted (s : State) (m : Master) (a : Nat) (effect : State → State) (h : accepts s m a = true) :
    accessWrite s m a effect = noteGrant (answer (effect s) m .done) a m := by
  simp only [accepts, Bool.and_eq_true, Option.isNone_iff_eq_none] at h
  unfold accessWrite performWrite
  simp [h.1.1, h.1.2, h.2, writesAnswered]

/-- An accepted read is answered with the value its effect gives. -/
theorem accessRead_accepted (s : State) (m : Master) (a : Nat) (effect : State → Nat × State)
    (h : yields s m a = true) : accessRead s m a effect = noteGrant (answer (effect s).2 m (.data (effect s).1)) a m := by
  simp only [yields, Bool.and_eq_true, Option.isNone_iff_eq_none] at h
  unfold accessRead performRead
  simp [h.1.1, h.1.2, h.2]

@[simp] theorem get_answer (s : State) (m : Master) (r : Resp) (f : Fld) : get (answer s m r) f = get s f :=
  get_congr _ _ _ (answer_regs s m r)

@[simp] theorem get_emit (s : State) (o : Out) (f : Fld) : get (emit s o) f = get s f := rfl

/-- A job asked for leaves every field but the count of events lost. -/
theorem get_requestOn_ne (s : State) (c : Nat) (k : JobKind) (f : Fld) (h : f.key ≠ Reg.sbStatsLost.key) :
    get (requestOn s c k) f = get s f := by
  unfold requestOn jobRejected sheetLose
  split
  · split
    · exact get_bump_ne _ _ _ h
    · exact get_bump_ne _ _ _ h
    · rfl
  · rfl

/-- A journaled event leaves every field but the count of events lost. -/
theorem get_journal_ne (s : State) (t : Nat) (b : List Byte) (f : Fld) (h : f.key ≠ Reg.sbStatsLost.key) :
    get (journal s t b) f = get s f := get_requestOn_ne _ _ _ _ h

theorem get_exitL1_ne (s : State) (g : Fld) (h1 : g.key ≠ Reg.hbStatusAspm.key) (h2 : g.key ≠ Reg.brRetriesL1Exits.key) :
    get (exitL1 s) g = get s g := by
  unfold exitL1 leaveL1
  split
  · rfl
  · rw [get_bump_ne _ _ _ h2, get_put_ne _ _ _ _ h1]

/-- An interrupt passed to a core leaves every field. -/
theorem get_interruptCore (s : State) (core cls : Nat) (g : Fld) : get (interruptCore s core cls) g = get s g := by
  unfold interruptCore
  split
  · exact get_emit _ _ _
  · rfl

theorem get_assertPeWake_ne (s : State) (g : Fld) (h : g.key ≠ Reg.hbStatusPeWake.key) :
    get (assertPeWake s) g = get s g :=
  (get_congr (assertPeWake s) (put s Reg.hbStatusPeWake 1) g rfl).trans (get_put_ne _ _ _ _ h)

theorem get_vectorDue_ne (s : State) (v : Nat) (g : Fld) (h1 : g.key ≠ Reg.hbStatusAspm.key)
    (h2 : g.key ≠ Reg.brRetriesL1Exits.key) (h3 : g.key ≠ Reg.hbStatusPeWake.key) :
    get (vectorDue s v) g = get s g := by
  unfold vectorDue
  dsimp only
  split
  · rfl
  · split
    · rw [get_emit, get_exitL1_ne _ _ h1 h2]
    · split
      · split
        · rw [get_assertPeWake_ne _ _ h3]; rfl
        · rfl
      · split <;> rfl

theorem get_deliver_ne (s : State) (n : Nat) (g : Fld) (h1 : g.key ≠ Reg.hbStatusAspm.key)
    (h2 : g.key ≠ Reg.brRetriesL1Exits.key) (h3 : g.key ≠ Reg.hbStatusPeWake.key) : get (deliver s n) g = get s g := by
  unfold deliver
  split
  · rfl
  · split
    · exact get_vectorDue_ne _ _ _ h1 h2 h3
    · split
      · exact get_interruptCore _ _ _ _
      · rfl

/-- A source that becomes pending changes its own state field alone. -/
theorem get_becomePending_ne (s : State) (n st : Nat) (g : Fld) (h : g.key ≠ (Reg.srcCfgState n).key) :
    get (becomePending s n st) g = get s g :=
  (get_congr (becomePending s n st) (put s (Reg.srcCfgState n) st) g rfl).trans (get_put_ne _ _ _ _ h)

/-- What a raised source leaves alone. -/
theorem get_raiseSource_ne (s : State) (n : Nat) (g : Fld) (h : ((raiseFields n).all fun f => g.key != f.key) = true) :
    get (raiseSource s n) g = get s g := by
  simp only [raiseFields, List.all_cons, List.all_nil, Bool.and_true, Bool.and_eq_true, bne_iff_ne] at h
  obtain ⟨h0, h1, h2, h3⟩ := h
  unfold raiseSource
  split
  · rfl
  · split
    · rw [get_deliver_ne _ _ _ h1 h2 h3, get_becomePending_ne _ _ _ _ h0]
    · rw [get_put_ne _ _ _ _ h0]
    · rfl

theorem get_noteTb_ne (a b : State) (g : Fld) (h : ((raiseFields 18).all fun f => g.key != f.key) = true) :
    get (noteTb a b) g = get b g := by
  unfold noteTb
  split
  · rfl
  · exact get_raiseSource_ne _ _ _ h

/-! Register frames. -/

theorem bitsAt_lt (v l w : Nat) : bitsAt v l w < 2 ^ w := Nat.mod_lt _ (Nat.two_pow_pos _)

theorem keys_of_all {l : List Fld} {g f : Fld} (h : (l.all fun f => g.key != f.key) = true) (hf : f ∈ l) :
    g.key ≠ f.key := by
  simpa using List.all_eq_true.1 h f hf

theorem regsSame.refl (s : State) (l : List Fld) : regsSame s s l := fun _ _ => rfl

theorem regsSame.mono {s t : State} {l k : List Fld} (h : regsSame s t l) (hk : ∀ f ∈ l, f ∈ k) : regsSame s t k :=
  fun g hg => h g (List.all_eq_true.2 fun f hf => List.all_eq_true.1 hg f (hk f hf))

theorem regsSame.put {s t : State} {l : List Fld} {f : Fld} (h : regsSame s t l) (hf : f ∈ l) (v : Nat) :
    regsSame s (put t f v) l :=
  fun g hg => (get_put_ne _ _ _ _ (keys_of_all hg hf)).trans (h g hg)

theorem regsSame.putFlag {s t : State} {l : List Fld} {f : Fld} (h : regsSame s t l) (hf : f ∈ l) (b : Bool) :
    regsSame s (putFlag t f b) l := h.put hf _

theorem regsSame.bump {s t : State} {l : List Fld} {f : Fld} (h : regsSame s t l) (hf : f ∈ l) :
    regsSame s (bump t f) l :=
  fun g hg => (get_bump_ne _ _ _ (keys_of_all hg hf)).trans (h g hg)

theorem regsSame.answer {s t : State} {l : List Fld} (h : regsSame s t l) (m : Master) (r : Resp) :
    regsSame s (answer t m r) l :=
  fun g hg => (get_answer _ _ _ _).trans (h g hg)

theorem regsSame.raise {s t : State} {l : List Fld} (h : regsSame s t l) (n : Nat) (hn : ∀ f ∈ raiseFields n, f ∈ l) :
    regsSame s (raiseSource t n) l :=
  fun g hg => (get_raiseSource_ne _ _ _ (List.all_eq_true.2 fun f hf => List.all_eq_true.1 hg f (hn f hf))).trans (h g hg)

theorem regsSame.congr {s t u : State} {l : List Fld} (h : regsSame s t l) (hu : u.regs = t.regs) : regsSame s u l :=
  fun g hg => (get_congr _ _ _ hu).trans (h g hg)

/-- The state of an inactive source that is raised (R357). -/
theorem srcState_raiseSource (s : State) (n : Nat) (h : n < 2048) (hu : srcUsed n = true) (h0 : srcState s n = 0) :
    srcState (raiseSource s n) n = 1 := by
  have k1 : (Reg.srcCfgState n).key ≠ Reg.hbStatusAspm.key := by
    simp [Fld.key, Reg.srcCfgState, Reg.hbStatusAspm]; omega
  have k2 : (Reg.srcCfgState n).key ≠ Reg.brRetriesL1Exits.key := by
    simp [Fld.key, Reg.srcCfgState, Reg.brRetriesL1Exits]; omega
  have k3 : (Reg.srcCfgState n).key ≠ Reg.hbStatusPeWake.key := by
    simp [Fld.key, Reg.srcCfgState, Reg.hbStatusPeWake]; omega
  unfold raiseSource
  simp only [hu, h0, Bool.not_true, Bool.false_eq_true, if_false]
  unfold srcState
  have hb : get (becomePending s n 1) (Reg.srcCfgState n) = get (put s (Reg.srcCfgState n) 1) (Reg.srcCfgState n) :=
    get_congr _ _ _ rfl
  rw [get_deliver_ne _ _ _ k1 k2 k3, hb, get_put_same]
  simp [Reg.srcCfgState]

end Sys2Proof.Machine
end

