-- ==== Sys2Proof/Laws/Parts.lean ====
section
/-!
SUPPORT. What each command and the passing of time may change, from the lemmas about their operations.
-/
namespace Sys2Proof.Machine

theorem changesOnly_of_kept {M : List Part} {s t : State} (h : kept M t = kept M s) : changesOnly M s t := by
  unfold kept at h
  injection h with hPend hRegisters hAccum hTime hJobs hPolicy hEpochs hFaults hIntc hHost hCpu hBanks hFlash hCont hBoot hImg hVault hFuses hAnchors hSheet hSheetLog hFrames hTables hLinks hTm hEdge hWake hCnt hIo hDraws
  refine ⟨hPend, hide_same hRegisters, hide_same hAccum, hide_same hTime, hide_same hJobs, (hide_same hPolicy).imp id fun h => ⟨(Prod.mk.inj h).1, (Prod.mk.inj h).2⟩, hide_same hEpochs, hide_same hFaults, hide_same hIntc, hide_same hHost, hide_same hCpu, hide_same hBanks, (hide_same hFlash).imp id fun h => ⟨(Prod.mk.inj h).1, (Prod.mk.inj h).2⟩, hide_same hCont, hide_same hBoot, hide_same hImg, hide_same hVault, hide_same hFuses, hide_same hAnchors, hide_same hSheet, hide_same hSheetLog, hide_same hFrames, hide_same hTables, hide_same hLinks, hide_same hTm, hide_same hEdge, hide_same hWake, hide_same hCnt, hide_same hIo, hide_same hDraws⟩

/-- A part that a literal list holds. -/
theorem has_of {M : List Part} {p : Part} (h : M.contains p = true) : Has M p := ⟨List.contains_iff_mem.mp h⟩

theorem changes_tick (s : State) : changesOnly tickParts s (tick s) :=
  changesOnly_of_kept (@kept_tick tickParts (has_of rfl) (has_of rfl) (has_of rfl) (has_of rfl) (has_of rfl) (has_of rfl) (has_of rfl) s)

theorem changes_tempoBoundary {s t : State}
    (h : exec .tempoBoundary s = .next t) : changesOnly (partsOf .tempoBoundary) s t := by
  cases h
  refine changesOnly_of_kept (@kept_tempoBoundary _ ?_ ?_ ?_ ?_ ?_ ?_ ?_ ?_ ?_ ?_ ?_ ?_ ?_ ?_ ?_ ?_ ?_ ?_ ?_ ?_ ?_
    ?_ ?_ ?_ ?_ ?_ ?_ ?_ ?_ _) <;> exact has_of rfl

theorem changes_jobRequest (core : Fin 5) (kind : JobKind) (cost : Nat) {s t : State}
    (h : exec (.jobRequest core kind cost) s = .next t) : changesOnly (partsOf (.jobRequest core kind cost)) s t := by
  cases h
  exact changesOnly_of_kept (@kept_jobRequest _ (has_of rfl) (has_of rfl) (has_of rfl) _ _ _ _)

theorem changes_jobStart (core : Fin 5) {s t : State}
    (h : exec (.jobStart core) s = .next t) : changesOnly (partsOf (.jobStart core)) s t := by
  cases h
  exact changesOnly_of_kept (@kept_jobStart _ (has_of rfl) (has_of rfl) (has_of rfl) (has_of rfl) _ _)

theorem changes_jobComplete (core : Fin 5) {s t : State}
    (h : exec (.jobComplete core) s = .next t) : changesOnly (partsOf (.jobComplete core)) s t := by
  cases h
  refine changesOnly_of_kept (@kept_jobComplete _ ?_ ?_ ?_ ?_ ?_ ?_ ?_ ?_ ?_ ?_ ?_ ?_ ?_ ?_ ?_ ?_ ?_ ?_ ?_ _ _) <;>
    exact has_of rfl

theorem changes_acceptSync (dom : Domain) (gm : Nat) (offset : Int) (rate : Int) {s t : State}
    (h : exec (.acceptSync dom gm offset rate) s = .next t) : changesOnly (partsOf (.acceptSync dom gm offset rate)) s t := by
  cases h
  refine changesOnly_of_kept (@kept_acceptSync _ ?_ ?_ ?_ ?_ ?_ ?_ ?_ ?_ ?_ ?_ _ _ _ _ _) <;> exact has_of rfl

theorem changes_grandmasterLoss (dom : Domain) {s t : State}
    (h : exec (.grandmasterLoss dom) s = .next t) : changesOnly (partsOf (.grandmasterLoss dom)) s t := by
  cases h
  refine changesOnly_of_kept (@kept_grandmasterLoss _ ?_ ?_ ?_ ?_ ?_ _ _) <;> exact has_of rfl

theorem changes_ppsInEdge (rising : Bool) {s t : State}
    (h : exec (.ppsInEdge rising) s = .next t) : changesOnly (partsOf (.ppsInEdge rising)) s t := by
  cases h
  refine changesOnly_of_kept (@kept_ppsInEdge _ ?_ ?_ ?_ ?_ ?_ ?_ ?_ ?_ ?_ ?_ _ _) <;> exact has_of rfl

theorem changes_ppsInMissing {s t : State}
    (h : exec .ppsInMissing s = .next t) : changesOnly (partsOf .ppsInMissing) s t := by
  cases h
  refine changesOnly_of_kept (@kept_ppsInMissing _ ?_ ?_ ?_ ?_ ?_ ?_ _) <;> exact has_of rfl

theorem changes_ppsOutRise {s t : State}
    (h : exec .ppsOutRise s = .next t) : changesOnly (partsOf .ppsOutRise) s t := by
  cases h
  exact changesOnly_of_kept (@kept_ppsOutRise _ (has_of rfl) _)

theorem changes_ppsOutFall {s t : State}
    (h : exec .ppsOutFall s = .next t) : changesOnly (partsOf .ppsOutFall) s t := by
  cases h
  exact changesOnly_of_kept (@kept_ppsOutFall _ (has_of rfl) _)

theorem changes_timeSnap (m : Master) {s t : State}
    (h : exec (.timeSnap m) s = .next t) : changesOnly (partsOf (.timeSnap m)) s t := by
  cases h
  obtain ⟨_, _, _, _, _, _, _, _, _, _, _⟩ : Has (partsOf (.timeSnap m)) .registers ∧ Has (partsOf (.timeSnap m))
     .accum ∧ Has (partsOf (.timeSnap m)) .jobs ∧ Has (partsOf (.timeSnap m)) .faults ∧ Has (partsOf (.timeSnap m))
     .intc ∧ Has (partsOf (.timeSnap m)) .host ∧ Has (partsOf (.timeSnap m)) .cpu ∧ Has (partsOf (.timeSnap m))
     .cont ∧ Has (partsOf (.timeSnap m)) .sheet ∧ Has (partsOf (.timeSnap m)) .wake ∧ Has (partsOf (.timeSnap m))
     .io := by
    (repeat' apply And.intro) <;> exact has_of rfl
  refine changesOnly_of_kept ?_
  simp only [kept_accessWrite, kept_timeSnapshot, implies_true]

theorem changes_gtSet (m : Master) {s t : State}
    (h : exec (.gtSet m) s = .next t) : changesOnly (partsOf (.gtSet m)) s t := by
  cases h
  obtain ⟨_, _, _, _, _, _, _, _, _, _, _, _⟩ : Has (partsOf (.gtSet m)) .registers ∧ Has (partsOf (.gtSet m))
     .accum ∧ Has (partsOf (.gtSet m)) .time ∧ Has (partsOf (.gtSet m)) .jobs ∧ Has (partsOf (.gtSet m)) .faults ∧
     Has (partsOf (.gtSet m)) .intc ∧ Has (partsOf (.gtSet m)) .host ∧ Has (partsOf (.gtSet m)) .cpu ∧ Has (partsOf
     (.gtSet m)) .cont ∧ Has (partsOf (.gtSet m)) .sheet ∧ Has (partsOf (.gtSet m)) .wake ∧ Has (partsOf (.gtSet m))
     .io := by
    (repeat' apply And.intro) <;> exact has_of rfl
  refine changesOnly_of_kept ?_
  simp only [kept_accessWrite, kept_gtSetArm, implies_true]

theorem changes_gtSetLoad {s t : State}
    (h : exec .gtSetLoad s = .next t) : changesOnly (partsOf .gtSetLoad) s t := by
  cases h
  refine changesOnly_of_kept (@kept_gtSetLoad _ ?_ ?_ ?_ ?_ ?_ ?_ ?_ ?_ ?_ ?_ _) <;> exact has_of rfl

theorem changes_frameArrival (p : Fin 50) (f : WireFrame) {s t : State}
    (h : exec (.frameArrival p f) s = .next t) : changesOnly (partsOf (.frameArrival p f)) s t := by
  cases h
  refine changesOnly_of_kept (@kept_frameArrival _ ?_ ?_ ?_ ?_ ?_ ?_ _ _ _) <;> exact has_of rfl

theorem changes_cellWrite (p : Fin 52) {s t : State}
    (h : exec (.cellWrite p) s = .next t) : changesOnly (partsOf (.cellWrite p)) s t := by
  cases h
  refine changesOnly_of_kept (@kept_cellWrite _ ?_ ?_ ?_ ?_ ?_ _ _) <;> exact has_of rfl

theorem changes_macsecIcvCheck (p : Fin 48) {s t : State}
    (h : exec (.macsecIcvCheck p) s = .next t) : changesOnly (partsOf (.macsecIcvCheck p)) s t := by
  cases h
  refine changesOnly_of_kept (@kept_macsecIcvCheck _ ?_ ?_ ?_ ?_ ?_ _ _) <;> exact has_of rfl

theorem changes_unitDecision (src : UnitSource) (ecc : DecisionEcc) {s t : State}
    (h : exec (.unitDecision src ecc) s = .next t) : changesOnly (partsOf (.unitDecision src ecc)) s t := by
  cases h
  refine changesOnly_of_kept (@kept_unitDecision _ ?_ ?_ ?_ ?_ ?_ ?_ ?_ ?_ ?_ ?_ ?_ ?_ ?_ ?_ ?_ ?_ ?_ ?_ _ _ _) <;>
    exact has_of rfl

theorem changes_frameTail (p : Fin 52) (fcsOk : Bool) (asmErr : Bool) {s t : State}
    (h : exec (.frameTail p fcsOk asmErr) s = .next t) : changesOnly (partsOf (.frameTail p fcsOk asmErr)) s t := by
  cases h
  refine changesOnly_of_kept (@kept_frameTail _ ?_ ?_ ?_ ?_ ?_ ?_ ?_ ?_ ?_ ?_ _ _ _ _) <;> exact has_of rfl

theorem changes_frameSelect (p : Fin 52) (mac : MacKind) (ecc : EccKind) {s t : State}
    (h : exec (.frameSelect p mac ecc) s = .next t) : changesOnly (partsOf (.frameSelect p mac ecc)) s t := by
  cases h
  refine changesOnly_of_kept (@kept_frameSelect _ ?_ ?_ ?_ ?_ ?_ ?_ ?_ ?_ ?_ ?_ ?_ ?_ ?_ ?_ _ _ _ _) <;> exact
    has_of rfl

theorem changes_frameTransmitEnd (p : Fin 52) (mac : MacKind) {s t : State}
    (h : exec (.frameTransmitEnd p mac) s = .next t) : changesOnly (partsOf (.frameTransmitEnd p mac)) s t := by
  cases h
  refine changesOnly_of_kept (@kept_transmitEnd _ ?_ ?_ ?_ ?_ ?_ ?_ ?_ _ _ _) <;> exact has_of rfl

theorem changes_linkEstablished (p : Fin 48) (signature : Nat) {s t : State}
    (h : exec (.linkEstablished p signature) s = .next t) : changesOnly (partsOf (.linkEstablished p signature)) s t := by
  cases h
  refine changesOnly_of_kept (@kept_linkEstablished _ ?_ ?_ ?_ ?_ ?_ ?_ _ _ _) <;> exact has_of rfl

theorem changes_retainedTrainTimeout (p : Fin 48) {s t : State}
    (h : exec (.retainedTrainTimeout p) s = .next t) : changesOnly (partsOf (.retainedTrainTimeout p)) s t := by
  cases h
  exact changesOnly_of_kept (@kept_retainedTimeout _ (has_of rfl) (has_of rfl) _ _)

theorem changes_fullTrainTimeout (p : Fin 48) {s t : State}
    (h : exec (.fullTrainTimeout p) s = .next t) : changesOnly (partsOf (.fullTrainTimeout p)) s t := by
  cases h
  refine changesOnly_of_kept (@kept_fullTimeout _ ?_ ?_ ?_ ?_ ?_ ?_ _ _) <;> exact has_of rfl

theorem changes_partnerSignatureChange (p : Fin 48) (signature : Nat) {s t : State}
    (h : exec (.partnerSignatureChange p signature) s = .next t) : changesOnly (partsOf (.partnerSignatureChange p signature)) s t := by
  cases h
  exact changesOnly_of_kept (@kept_partnerChange _ (has_of rfl) (has_of rfl) _ _ _)

theorem changes_linkLoss (p : Fin 48) {s t : State}
    (h : exec (.linkLoss p) s = .next t) : changesOnly (partsOf (.linkLoss p)) s t := by
  cases h
  refine changesOnly_of_kept (@kept_linkLoss _ ?_ ?_ ?_ ?_ ?_ ?_ ?_ ?_ _ _) <;> exact has_of rfl

theorem changes_serdesLinkUp (k : Fin 4) (speed : Nat) {s t : State}
    (h : exec (.serdesLinkUp k speed) s = .next t) : changesOnly (partsOf (.serdesLinkUp k speed)) s t := by
  cases h
  refine changesOnly_of_kept (@kept_laneUp _ ?_ ?_ ?_ ?_ ?_ ?_ _ _ _) <;> exact has_of rfl

theorem changes_serdesLinkDown (k : Fin 4) {s t : State}
    (h : exec (.serdesLinkDown k) s = .next t) : changesOnly (partsOf (.serdesLinkDown k)) s t := by
  cases h
  refine changesOnly_of_kept (@kept_laneDown _ ?_ ?_ ?_ ?_ ?_ ?_ ?_ ?_ _ _) <;> exact has_of rfl

theorem changes_plcaStatusChange (p : Fin 8) (active : Bool) {s t : State}
    (h : exec (.plcaStatusChange p active) s = .next t) : changesOnly (partsOf (.plcaStatusChange p active)) s t := by
  cases h
  refine changesOnly_of_kept (@kept_plcaStatus _ ?_ ?_ ?_ ?_ ?_ _ _ _) <;> exact has_of rfl

theorem changes_beaconTimeout (p : Fin 8) {s t : State}
    (h : exec (.beaconTimeout p) s = .next t) : changesOnly (partsOf (.beaconTimeout p)) s t := by
  cases h
  refine changesOnly_of_kept (@kept_beaconTimeout _ ?_ ?_ ?_ ?_ ?_ _ _) <;> exact has_of rfl

theorem changes_verifyResponse (p : Fin 48) {s t : State}
    (h : exec (.verifyResponse p) s = .next t) : changesOnly (partsOf (.verifyResponse p)) s t := by
  cases h
  exact changesOnly_of_kept (@kept_verifyResponse _ (has_of rfl) _ _)

theorem changes_verifyTimeout (p : Fin 48) {s t : State}
    (h : exec (.verifyTimeout p) s = .next t) : changesOnly (partsOf (.verifyTimeout p)) s t := by
  cases h
  refine changesOnly_of_kept (@kept_verifyTimeout _ ?_ ?_ ?_ ?_ ?_ ?_ _ _) <;> exact has_of rfl

theorem changes_portEventsClear (m : Master) (p : Fin 48) (w : Word) {s t : State}
    (h : exec (.portEventsClear m p w) s = .next t) : changesOnly (partsOf (.portEventsClear m p w)) s t := by
  cases h
  obtain ⟨_, _, _, _, _, _, _, _, _, _, _⟩ : Has (partsOf (.portEventsClear m p w)) .registers ∧ Has (partsOf
     (.portEventsClear m p w)) .accum ∧ Has (partsOf (.portEventsClear m p w)) .jobs ∧ Has (partsOf
     (.portEventsClear m p w)) .faults ∧ Has (partsOf (.portEventsClear m p w)) .intc ∧ Has (partsOf
     (.portEventsClear m p w)) .host ∧ Has (partsOf (.portEventsClear m p w)) .cpu ∧ Has (partsOf (.portEventsClear
     m p w)) .cont ∧ Has (partsOf (.portEventsClear m p w)) .sheet ∧ Has (partsOf (.portEventsClear m p w)) .wake ∧
     Has (partsOf (.portEventsClear m p w)) .io := by
    (repeat' apply And.intro) <;> exact has_of rfl
  refine changesOnly_of_kept ?_
  simp only [kept_accessWrite, kept_eventsClear, implies_true]

theorem changes_fdbFlush (m : Master) (w : Word) {s t : State}
    (h : exec (.fdbFlush m w) s = .next t) : changesOnly (partsOf (.fdbFlush m w)) s t := by
  cases h
  obtain ⟨_, _, _, _, _, _, _, _, _, _, _, _⟩ : Has (partsOf (.fdbFlush m w)) .registers ∧ Has (partsOf (.fdbFlush m
     w)) .accum ∧ Has (partsOf (.fdbFlush m w)) .jobs ∧ Has (partsOf (.fdbFlush m w)) .faults ∧ Has (partsOf
     (.fdbFlush m w)) .intc ∧ Has (partsOf (.fdbFlush m w)) .host ∧ Has (partsOf (.fdbFlush m w)) .cpu ∧ Has
     (partsOf (.fdbFlush m w)) .cont ∧ Has (partsOf (.fdbFlush m w)) .sheet ∧ Has (partsOf (.fdbFlush m w)) .tables
     ∧ Has (partsOf (.fdbFlush m w)) .wake ∧ Has (partsOf (.fdbFlush m w)) .io := by
    (repeat' apply And.intro) <;> exact has_of rfl
  refine changesOnly_of_kept ?_
  simp only [kept_accessWrite, kept_fdbFlush, implies_true]

theorem changes_fdbFlushDone {s t : State}
    (h : exec .fdbFlushDone s = .next t) : changesOnly (partsOf .fdbFlushDone) s t := by
  cases h
  exact changesOnly_of_kept (@kept_put _ (has_of rfl) _ _ _)

theorem changes_fdbAgeing (entry : Fin 32768) {s t : State}
    (h : exec (.fdbAgeing entry) s = .next t) : changesOnly (partsOf (.fdbAgeing entry)) s t := by
  cases h
  exact changesOnly_of_kept (@kept_fdbAgeing _ (has_of rfl) (has_of rfl) _ _)

theorem changes_fdbAccRead (m : Master) (w : Word) {s t : State}
    (h : exec (.fdbAccRead m w) s = .next t) : changesOnly (partsOf (.fdbAccRead m w)) s t := by
  cases h
  obtain ⟨_, _, _, _, _, _, _, _, _, _, _⟩ : Has (partsOf (.fdbAccRead m w)) .registers ∧ Has (partsOf (.fdbAccRead
     m w)) .accum ∧ Has (partsOf (.fdbAccRead m w)) .jobs ∧ Has (partsOf (.fdbAccRead m w)) .faults ∧ Has (partsOf
     (.fdbAccRead m w)) .intc ∧ Has (partsOf (.fdbAccRead m w)) .host ∧ Has (partsOf (.fdbAccRead m w)) .cpu ∧ Has
     (partsOf (.fdbAccRead m w)) .cont ∧ Has (partsOf (.fdbAccRead m w)) .sheet ∧ Has (partsOf (.fdbAccRead m w))
     .wake ∧ Has (partsOf (.fdbAccRead m w)) .io := by
    (repeat' apply And.intro) <;> exact has_of rfl
  refine changesOnly_of_kept ?_
  simp only [kept_accessWrite, kept_fdbAccCtl, implies_true]

theorem changes_clsAccRead (m : Master) (w : Word) {s t : State}
    (h : exec (.clsAccRead m w) s = .next t) : changesOnly (partsOf (.clsAccRead m w)) s t := by
  cases h
  obtain ⟨_, _, _, _, _, _, _, _, _, _, _, _⟩ : Has (partsOf (.clsAccRead m w)) .registers ∧ Has (partsOf
     (.clsAccRead m w)) .accum ∧ Has (partsOf (.clsAccRead m w)) .jobs ∧ Has (partsOf (.clsAccRead m w)) .faults ∧
     Has (partsOf (.clsAccRead m w)) .intc ∧ Has (partsOf (.clsAccRead m w)) .host ∧ Has (partsOf (.clsAccRead m w))
     .cpu ∧ Has (partsOf (.clsAccRead m w)) .cont ∧ Has (partsOf (.clsAccRead m w)) .sheet ∧ Has (partsOf
     (.clsAccRead m w)) .tables ∧ Has (partsOf (.clsAccRead m w)) .wake ∧ Has (partsOf (.clsAccRead m w)) .io := by
    (repeat' apply And.intro) <;> exact has_of rfl
  refine changesOnly_of_kept ?_
  simp only [kept_accessWrite, kept_clsCtl, implies_true]

theorem changes_probe (m : Master) (w : Word) {s t : State}
    (h : exec (.probe m w) s = .next t) : changesOnly (partsOf (.probe m w)) s t := by
  cases h
  obtain ⟨_, _, _, _, _, _, _, _, _, _, _, _⟩ : Has (partsOf (.probe m w)) .registers ∧ Has (partsOf (.probe m w))
     .accum ∧ Has (partsOf (.probe m w)) .jobs ∧ Has (partsOf (.probe m w)) .faults ∧ Has (partsOf (.probe m w))
     .intc ∧ Has (partsOf (.probe m w)) .host ∧ Has (partsOf (.probe m w)) .cpu ∧ Has (partsOf (.probe m w)) .cont ∧
     Has (partsOf (.probe m w)) .sheet ∧ Has (partsOf (.probe m w)) .tables ∧ Has (partsOf (.probe m w)) .wake ∧ Has
     (partsOf (.probe m w)) .io := by
    (repeat' apply And.intro) <;> exact has_of rfl
  refine changesOnly_of_kept ?_
  simp only [kept_accessWrite, kept_clsCtl, implies_true]

theorem changes_probeLookup (slotFree : Bool) {s t : State}
    (h : exec (.probeLookup slotFree) s = .next t) : changesOnly (partsOf (.probeLookup slotFree)) s t := by
  cases h
  exact changesOnly_of_kept (@kept_probeLookup _ (has_of rfl) (has_of rfl) (has_of rfl) _ _)

theorem changes_fragExpiry (entry : Fin 2048) {s t : State}
    (h : exec (.fragExpiry entry) s = .next t) : changesOnly (partsOf (.fragExpiry entry)) s t := by
  cases h
  exact changesOnly_of_kept (@kept_fragExpiry _ (has_of rfl) (has_of rfl) (has_of rfl) _ _)

theorem changes_shadowSelftest (idle : Bool) (flagged : Bool) {s t : State}
    (h : exec (.shadowSelftest idle flagged) s = .next t) : changesOnly (partsOf (.shadowSelftest idle flagged)) s t := by
  cases h
  refine changesOnly_of_kept (@kept_shadowSelftest _ ?_ ?_ ?_ ?_ ?_ ?_ ?_ ?_ ?_ ?_ ?_ ?_ _ _ _) <;> exact has_of rfl

theorem changes_shadowStatusClear (m : Master) {s t : State}
    (h : exec (.shadowStatusClear m) s = .next t) : changesOnly (partsOf (.shadowStatusClear m)) s t := by
  cases h
  obtain ⟨_, _, _, _, _, _, _, _, _, _, _⟩ : Has (partsOf (.shadowStatusClear m)) .registers ∧ Has (partsOf
     (.shadowStatusClear m)) .accum ∧ Has (partsOf (.shadowStatusClear m)) .jobs ∧ Has (partsOf (.shadowStatusClear
     m)) .faults ∧ Has (partsOf (.shadowStatusClear m)) .intc ∧ Has (partsOf (.shadowStatusClear m)) .host ∧ Has
     (partsOf (.shadowStatusClear m)) .cpu ∧ Has (partsOf (.shadowStatusClear m)) .cont ∧ Has (partsOf
     (.shadowStatusClear m)) .sheet ∧ Has (partsOf (.shadowStatusClear m)) .wake ∧ Has (partsOf (.shadowStatusClear
     m)) .io := by
    (repeat' apply And.intro) <;> exact has_of rfl
  refine changesOnly_of_kept ?_
  simp only [kept_put, kept_accessWrite, implies_true]

theorem changes_convExpiry (entry : Fin 65536) {s t : State}
    (h : exec (.convExpiry entry) s = .next t) : changesOnly (partsOf (.convExpiry entry)) s t := by
  cases h
  exact changesOnly_of_kept (@kept_convExpiry _ (has_of rfl) (has_of rfl) (has_of rfl) _ _)

theorem changes_convAccRead (m : Master) (w : Word) {s t : State}
    (h : exec (.convAccRead m w) s = .next t) : changesOnly (partsOf (.convAccRead m w)) s t := by
  cases h
  obtain ⟨_, _, _, _, _, _, _, _, _, _, _, _⟩ : Has (partsOf (.convAccRead m w)) .registers ∧ Has (partsOf
     (.convAccRead m w)) .accum ∧ Has (partsOf (.convAccRead m w)) .jobs ∧ Has (partsOf (.convAccRead m w)) .faults
     ∧ Has (partsOf (.convAccRead m w)) .intc ∧ Has (partsOf (.convAccRead m w)) .host ∧ Has (partsOf (.convAccRead
     m w)) .cpu ∧ Has (partsOf (.convAccRead m w)) .cont ∧ Has (partsOf (.convAccRead m w)) .sheet ∧ Has (partsOf
     (.convAccRead m w)) .tables ∧ Has (partsOf (.convAccRead m w)) .wake ∧ Has (partsOf (.convAccRead m w)) .io :=
     by
    (repeat' apply And.intro) <;> exact has_of rfl
  refine changesOnly_of_kept ?_
  simp only [kept_accessWrite, kept_convCtl, implies_true]

theorem changes_convFlush (m : Master) (w : Word) {s t : State}
    (h : exec (.convFlush m w) s = .next t) : changesOnly (partsOf (.convFlush m w)) s t := by
  cases h
  obtain ⟨_, _, _, _, _, _, _, _, _, _, _, _⟩ : Has (partsOf (.convFlush m w)) .registers ∧ Has (partsOf (.convFlush
     m w)) .accum ∧ Has (partsOf (.convFlush m w)) .jobs ∧ Has (partsOf (.convFlush m w)) .faults ∧ Has (partsOf
     (.convFlush m w)) .intc ∧ Has (partsOf (.convFlush m w)) .host ∧ Has (partsOf (.convFlush m w)) .cpu ∧ Has
     (partsOf (.convFlush m w)) .cont ∧ Has (partsOf (.convFlush m w)) .sheet ∧ Has (partsOf (.convFlush m w))
     .tables ∧ Has (partsOf (.convFlush m w)) .wake ∧ Has (partsOf (.convFlush m w)) .io := by
    (repeat' apply And.intro) <;> exact has_of rfl
  refine changesOnly_of_kept ?_
  simp only [kept_accessWrite, kept_convCtl, implies_true]

theorem changes_convFlushDone {s t : State}
    (h : exec .convFlushDone s = .next t) : changesOnly (partsOf .convFlushDone) s t := by
  cases h
  exact changesOnly_of_kept (@kept_convFlushDone _ (has_of rfl) (has_of rfl) _)

theorem changes_contAct (m : Master) (w : Word) {s t : State}
    (h : exec (.contAct m w) s = .next t) : changesOnly (partsOf (.contAct m w)) s t := by
  cases h
  obtain ⟨_, _, _, _, _, _, _, _, _, _, _⟩ : Has (partsOf (.contAct m w)) .registers ∧ Has (partsOf (.contAct m w))
     .accum ∧ Has (partsOf (.contAct m w)) .jobs ∧ Has (partsOf (.contAct m w)) .faults ∧ Has (partsOf (.contAct m
     w)) .intc ∧ Has (partsOf (.contAct m w)) .host ∧ Has (partsOf (.contAct m w)) .cpu ∧ Has (partsOf (.contAct m
     w)) .cont ∧ Has (partsOf (.contAct m w)) .sheet ∧ Has (partsOf (.contAct m w)) .wake ∧ Has (partsOf (.contAct m
     w)) .io := by
    (repeat' apply And.intro) <;> exact has_of rfl
  refine changesOnly_of_kept ?_
  simp only [kept_accessWrite, kept_contActWrite, implies_true]

theorem changes_contRelRelease (m : Master) (w : Word) {s t : State}
    (h : exec (.contRelRelease m w) s = .next t) : changesOnly (partsOf (.contRelRelease m w)) s t := by
  cases h
  obtain ⟨_, _, _, _, _, _, _, _, _, _, _⟩ : Has (partsOf (.contRelRelease m w)) .registers ∧ Has (partsOf
     (.contRelRelease m w)) .accum ∧ Has (partsOf (.contRelRelease m w)) .jobs ∧ Has (partsOf (.contRelRelease m w))
     .faults ∧ Has (partsOf (.contRelRelease m w)) .intc ∧ Has (partsOf (.contRelRelease m w)) .host ∧ Has (partsOf
     (.contRelRelease m w)) .cpu ∧ Has (partsOf (.contRelRelease m w)) .cont ∧ Has (partsOf (.contRelRelease m w))
     .sheet ∧ Has (partsOf (.contRelRelease m w)) .wake ∧ Has (partsOf (.contRelRelease m w)) .io := by
    (repeat' apply And.intro) <;> exact has_of rfl
  refine changesOnly_of_kept ?_
  simp only [kept_accessWrite, kept_contRelWrite, implies_true]

theorem changes_contRelDeny (m : Master) (w : Word) {s t : State}
    (h : exec (.contRelDeny m w) s = .next t) : changesOnly (partsOf (.contRelDeny m w)) s t := by
  cases h
  obtain ⟨_, _, _, _, _, _, _, _, _, _, _⟩ : Has (partsOf (.contRelDeny m w)) .registers ∧ Has (partsOf
     (.contRelDeny m w)) .accum ∧ Has (partsOf (.contRelDeny m w)) .jobs ∧ Has (partsOf (.contRelDeny m w)) .faults
     ∧ Has (partsOf (.contRelDeny m w)) .intc ∧ Has (partsOf (.contRelDeny m w)) .host ∧ Has (partsOf (.contRelDeny
     m w)) .cpu ∧ Has (partsOf (.contRelDeny m w)) .cont ∧ Has (partsOf (.contRelDeny m w)) .sheet ∧ Has (partsOf
     (.contRelDeny m w)) .wake ∧ Has (partsOf (.contRelDeny m w)) .io := by
    (repeat' apply And.intro) <;> exact has_of rfl
  refine changesOnly_of_kept ?_
  simp only [kept_accessWrite, kept_contRelWrite, implies_true]

theorem changes_contRelReq (m : Master) (w : Word) {s t : State}
    (h : exec (.contRelReq m w) s = .next t) : changesOnly (partsOf (.contRelReq m w)) s t := by
  cases h
  obtain ⟨_, _, _, _, _, _, _, _, _, _, _⟩ : Has (partsOf (.contRelReq m w)) .registers ∧ Has (partsOf (.contRelReq
     m w)) .accum ∧ Has (partsOf (.contRelReq m w)) .jobs ∧ Has (partsOf (.contRelReq m w)) .faults ∧ Has (partsOf
     (.contRelReq m w)) .intc ∧ Has (partsOf (.contRelReq m w)) .host ∧ Has (partsOf (.contRelReq m w)) .cpu ∧ Has
     (partsOf (.contRelReq m w)) .cont ∧ Has (partsOf (.contRelReq m w)) .sheet ∧ Has (partsOf (.contRelReq m w))
     .wake ∧ Has (partsOf (.contRelReq m w)) .io := by
    (repeat' apply And.intro) <;> exact has_of rfl
  refine changesOnly_of_kept ?_
  simp only [kept_accessWrite, kept_contRelReqWrite, implies_true]

theorem changes_ripcordNAssert (ns : Nat) {s t : State}
    (h : exec (.ripcordNAssert ns) s = .next t) : changesOnly (partsOf (.ripcordNAssert ns)) s t := by
  cases h
  refine changesOnly_of_kept (@kept_ripcordAssert _ ?_ ?_ ?_ ?_ ?_ ?_ _ _) <;> exact has_of rfl

theorem changes_ripcordNDeassert {s t : State}
    (h : exec .ripcordNDeassert s = .next t) : changesOnly (partsOf .ripcordNDeassert) s t := by
  cases h
  exact changesOnly_of_kept (@kept_ripcordDeassert _ (has_of rfl) (has_of rfl) _)

theorem changes_ripcordHoldExpiry {s t : State}
    (h : exec .ripcordHoldExpiry s = .next t) : changesOnly (partsOf .ripcordHoldExpiry) s t := by
  cases h
  exact changesOnly_of_kept (@kept_ripcordExpiry _ (has_of rfl) _)

theorem changes_streamFilterUnblock (m : Master) (f : Fin 8192) {s t : State}
    (h : exec (.streamFilterUnblock m f) s = .next t) : changesOnly (partsOf (.streamFilterUnblock m f)) s t := by
  cases h
  obtain ⟨_, _, _, _, _, _, _, _, _, _, _⟩ : Has (partsOf (.streamFilterUnblock m f)) .registers ∧ Has (partsOf
     (.streamFilterUnblock m f)) .accum ∧ Has (partsOf (.streamFilterUnblock m f)) .jobs ∧ Has (partsOf
     (.streamFilterUnblock m f)) .faults ∧ Has (partsOf (.streamFilterUnblock m f)) .intc ∧ Has (partsOf
     (.streamFilterUnblock m f)) .host ∧ Has (partsOf (.streamFilterUnblock m f)) .cpu ∧ Has (partsOf
     (.streamFilterUnblock m f)) .cont ∧ Has (partsOf (.streamFilterUnblock m f)) .sheet ∧ Has (partsOf
     (.streamFilterUnblock m f)) .wake ∧ Has (partsOf (.streamFilterUnblock m f)) .io := by
    (repeat' apply And.intro) <;> exact has_of rfl
  refine changesOnly_of_kept ?_
  simp only [kept_put, kept_accessWrite, implies_true]

theorem changes_flowGateReopen (m : Master) (g : Fin 1024) {s t : State}
    (h : exec (.flowGateReopen m g) s = .next t) : changesOnly (partsOf (.flowGateReopen m g)) s t := by
  cases h
  obtain ⟨_, _, _, _, _, _, _, _, _, _, _, _⟩ : Has (partsOf (.flowGateReopen m g)) .registers ∧ Has (partsOf
     (.flowGateReopen m g)) .accum ∧ Has (partsOf (.flowGateReopen m g)) .jobs ∧ Has (partsOf (.flowGateReopen m g))
     .faults ∧ Has (partsOf (.flowGateReopen m g)) .intc ∧ Has (partsOf (.flowGateReopen m g)) .host ∧ Has (partsOf
     (.flowGateReopen m g)) .cpu ∧ Has (partsOf (.flowGateReopen m g)) .cont ∧ Has (partsOf (.flowGateReopen m g))
     .sheet ∧ Has (partsOf (.flowGateReopen m g)) .tm ∧ Has (partsOf (.flowGateReopen m g)) .wake ∧ Has (partsOf
     (.flowGateReopen m g)) .io := by
    (repeat' apply And.intro) <;> exact has_of rfl
  refine changesOnly_of_kept ?_
  simp only [kept_accessWrite, kept_flowReopen, implies_true]

theorem changes_flowGateEntry (g : Fin 1024) {s t : State}
    (h : exec (.flowGateEntry g) s = .next t) : changesOnly (partsOf (.flowGateEntry g)) s t := by
  cases h
  exact changesOnly_of_kept (@kept_flowSync _ (has_of rfl) (has_of rfl) _ _)

theorem changes_timingWheelFire (x : WheelTarget) {s t : State}
    (h : exec (.timingWheelFire x) s = .next t) : changesOnly (partsOf (.timingWheelFire x)) s t := by
  cases h
  exact changesOnly_of_kept (@kept_timingWheelFire _ (has_of rfl) (has_of rfl) _ _)

theorem changes_gateEntryChange (p : Fin 50) {s t : State}
    (h : exec (.gateEntryChange p) s = .next t) : changesOnly (partsOf (.gateEntryChange p)) s t := by
  cases h
  refine changesOnly_of_kept (@kept_gateSync _ ?_ ?_ ?_ ?_ ?_ _ _) <;> exact has_of rfl

theorem changes_macHoldIssue (p : Fin 50) {s t : State}
    (h : exec (.macHoldIssue p) s = .next t) : changesOnly (partsOf (.macHoldIssue p)) s t := by
  cases h
  refine changesOnly_of_kept (@kept_macHoldIssue _ ?_ ?_ ?_ ?_ ?_ _ _) <;> exact has_of rfl

theorem changes_gateSwitch (p : Fin 50) {s t : State}
    (h : exec (.gateSwitch p) s = .next t) : changesOnly (partsOf (.gateSwitch p)) s t := by
  cases h
  refine changesOnly_of_kept (@kept_gateSync _ ?_ ?_ ?_ ?_ ?_ _ _) <;> exact has_of rfl

theorem changes_canFrameReceive (ch : Fin 16) (msg : BusMsg) {s t : State}
    (h : exec (.canFrameReceive ch msg) s = .next t) : changesOnly (partsOf (.canFrameReceive ch msg)) s t := by
  cases h
  refine changesOnly_of_kept (@kept_canReceive _ ?_ ?_ ?_ ?_ ?_ ?_ ?_ ?_ ?_ _ _ _) <;> exact has_of rfl

theorem changes_secocVerifyDone (ch : Fin 256) {s t : State}
    (h : exec (.secocVerifyDone ch) s = .next t) : changesOnly (partsOf (.secocVerifyDone ch)) s t := by
  cases h
  refine changesOnly_of_kept (@kept_secocVerifyDone _ ?_ ?_ ?_ ?_ _ _) <;> exact has_of rfl

theorem changes_secocGenerateDone {s t : State}
    (h : exec .secocGenerateDone s = .next t) : changesOnly (partsOf .secocGenerateDone) s t := by
  cases h
  refine changesOnly_of_kept (@kept_secocGenerateDone _ ?_ ?_ ?_ ?_ ?_ ?_ ?_ _) <;> exact has_of rfl

theorem changes_canBusIntegrated (ch : Fin 16) {s t : State}
    (h : exec (.canBusIntegrated ch) s = .next t) : changesOnly (partsOf (.canBusIntegrated ch)) s t := by
  cases h
  exact changesOnly_of_kept (@kept_canIntegrated _ (has_of rfl) _ _)

theorem changes_canArbitration (ch : Fin 16) {s t : State}
    (h : exec (.canArbitration ch) s = .next t) : changesOnly (partsOf (.canArbitration ch)) s t := by
  cases h
  refine changesOnly_of_kept (@kept_canArbitration _ ?_ ?_ ?_ ?_ ?_ ?_ ?_ _ _) <;> exact has_of rfl

theorem changes_canArbitrationLost (ch : Fin 16) {s t : State}
    (h : exec (.canArbitrationLost ch) s = .next t) : changesOnly (partsOf (.canArbitrationLost ch)) s t := by
  cases h
  exact changesOnly_of_kept (@kept_canLost _ (has_of rfl) (has_of rfl) _ _)

theorem changes_canBusError (ch : Fin 16) (err : CanError) {s t : State}
    (h : exec (.canBusError ch err) s = .next t) : changesOnly (partsOf (.canBusError ch err)) s t := by
  cases h
  refine changesOnly_of_kept (@kept_canBusError _ ?_ ?_ ?_ ?_ ?_ ?_ _ _ _) <;> exact has_of rfl

theorem changes_canTxComplete (ch : Fin 16) {s t : State}
    (h : exec (.canTxComplete ch) s = .next t) : changesOnly (partsOf (.canTxComplete ch)) s t := by
  cases h
  refine changesOnly_of_kept (@kept_canTxComplete _ ?_ ?_ ?_ ?_ ?_ ?_ ?_ _ _) <;> exact has_of rfl

theorem changes_recover (m : Master) (ch : Fin 256) {s t : State}
    (h : exec (.recover m ch) s = .next t) : changesOnly (partsOf (.recover m ch)) s t := by
  cases h
  obtain ⟨_, _, _, _, _, _, _, _, _, _, _⟩ : Has (partsOf (.recover m ch)) .registers ∧ Has (partsOf (.recover m
     ch)) .accum ∧ Has (partsOf (.recover m ch)) .jobs ∧ Has (partsOf (.recover m ch)) .faults ∧ Has (partsOf
     (.recover m ch)) .intc ∧ Has (partsOf (.recover m ch)) .host ∧ Has (partsOf (.recover m ch)) .cpu ∧ Has
     (partsOf (.recover m ch)) .cont ∧ Has (partsOf (.recover m ch)) .sheet ∧ Has (partsOf (.recover m ch)) .wake ∧
     Has (partsOf (.recover m ch)) .io := by
    (repeat' apply And.intro) <;> exact has_of rfl
  refine changesOnly_of_kept ?_
  simp only [kept_accessWrite, kept_canRecover, implies_true]

theorem changes_canRecoveryComplete (ch : Fin 16) {s t : State}
    (h : exec (.canRecoveryComplete ch) s = .next t) : changesOnly (partsOf (.canRecoveryComplete ch)) s t := by
  cases h
  exact changesOnly_of_kept (@kept_canRecovered _ (has_of rfl) _ _)

theorem changes_linSlotStart (l : Fin 8) {s t : State}
    (h : exec (.linSlotStart l) s = .next t) : changesOnly (partsOf (.linSlotStart l)) s t := by
  cases h
  refine changesOnly_of_kept (@kept_linSlotStart _ ?_ ?_ ?_ ?_ ?_ ?_ ?_ _ _) <;> exact has_of rfl

theorem changes_linResponse (l : Fin 8) (data : List Byte) (csum : Byte) {s t : State}
    (h : exec (.linResponse l data csum) s = .next t) : changesOnly (partsOf (.linResponse l data csum)) s t := by
  cases h
  refine changesOnly_of_kept (@kept_linResponse _ ?_ ?_ ?_ ?_ ?_ ?_ _ _ _ _) <;> exact has_of rfl

theorem changes_linNoResp (l : Fin 8) {s t : State}
    (h : exec (.linNoResp l) s = .next t) : changesOnly (partsOf (.linNoResp l)) s t := by
  cases h
  refine changesOnly_of_kept (@kept_linNoResp _ ?_ ?_ ?_ ?_ ?_ ?_ _ _) <;> exact has_of rfl

theorem changes_linReadbackMismatch (l : Fin 8) {s t : State}
    (h : exec (.linReadbackMismatch l) s = .next t) : changesOnly (partsOf (.linReadbackMismatch l)) s t := by
  cases h
  exact changesOnly_of_kept (@kept_linMismatch _ (has_of rfl) (has_of rfl) (has_of rfl) (has_of rfl) _ _)

theorem changes_txTimeout (ch : Fin 256) {s t : State}
    (h : exec (.txTimeout ch) s = .next t) : changesOnly (partsOf (.txTimeout ch)) s t := by
  cases h
  refine changesOnly_of_kept (@kept_txTimeout _ ?_ ?_ ?_ ?_ ?_ ?_ ?_ _ _) <;> exact has_of rfl

theorem changes_chEventsClear (m : Master) (ch : Fin 256) (w : Word) {s t : State}
    (h : exec (.chEventsClear m ch w) s = .next t) : changesOnly (partsOf (.chEventsClear m ch w)) s t := by
  cases h
  obtain ⟨_, _, _, _, _, _, _, _, _, _, _⟩ : Has (partsOf (.chEventsClear m ch w)) .registers ∧ Has (partsOf
     (.chEventsClear m ch w)) .accum ∧ Has (partsOf (.chEventsClear m ch w)) .jobs ∧ Has (partsOf (.chEventsClear m
     ch w)) .faults ∧ Has (partsOf (.chEventsClear m ch w)) .intc ∧ Has (partsOf (.chEventsClear m ch w)) .host ∧
     Has (partsOf (.chEventsClear m ch w)) .cpu ∧ Has (partsOf (.chEventsClear m ch w)) .cont ∧ Has (partsOf
     (.chEventsClear m ch w)) .sheet ∧ Has (partsOf (.chEventsClear m ch w)) .wake ∧ Has (partsOf (.chEventsClear m
     ch w)) .io := by
    (repeat' apply And.intro) <;> exact has_of rfl
  refine changesOnly_of_kept ?_
  simp only [kept_accessWrite, kept_eventsClear, implies_true]

theorem changes_acfTunnelEndpoint {s t : State}
    (h : exec .acfTunnelEndpoint s = .next t) : changesOnly (partsOf .acfTunnelEndpoint) s t := by
  cases h
  refine changesOnly_of_kept (@kept_tunnelEndpoint _ ?_ ?_ ?_ ?_ ?_ ?_ ?_ _) <;> exact has_of rfl

theorem changes_packerOpen (b : Fin 64) {s t : State}
    (h : exec (.packerOpen b) s = .next t) : changesOnly (partsOf (.packerOpen b)) s t := by
  cases h
  exact changesOnly_of_kept (@kept_packerOpen _ (has_of rfl) (has_of rfl) (has_of rfl) (has_of rfl) _ _)

theorem changes_packWaitExpiry (b : Fin 64) {s t : State}
    (h : exec (.packWaitExpiry b) s = .next t) : changesOnly (partsOf (.packWaitExpiry b)) s t := by
  cases h
  refine changesOnly_of_kept (@kept_packWaitExpiry _ ?_ ?_ ?_ ?_ _ _) <;> exact has_of rfl

theorem changes_bridgeLost (b : Fin 64) {s t : State}
    (h : exec (.bridgeLost b) s = .next t) : changesOnly (partsOf (.bridgeLost b)) s t := by
  cases h
  refine changesOnly_of_kept (@kept_bridgeLost _ ?_ ?_ ?_ ?_ ?_ _ _) <;> exact has_of rfl

theorem changes_fvSave (blocks : List (Fin 64)) {s t : State}
    (h : exec (.fvSave blocks) s = .next t) : changesOnly (partsOf (.fvSave blocks)) s t := by
  cases h
  refine changesOnly_of_kept (@kept_fvSave _ ?_ ?_ ?_ ?_ ?_ ?_ ?_ ?_ ?_ ?_ ?_ ?_ _ _) <;> exact has_of rfl

theorem changes_secEventsClear (m : Master) (w : Word) {s t : State}
    (h : exec (.secEventsClear m w) s = .next t) : changesOnly (partsOf (.secEventsClear m w)) s t := by
  cases h
  obtain ⟨_, _, _, _, _, _, _, _, _, _, _⟩ : Has (partsOf (.secEventsClear m w)) .registers ∧ Has (partsOf
     (.secEventsClear m w)) .accum ∧ Has (partsOf (.secEventsClear m w)) .jobs ∧ Has (partsOf (.secEventsClear m w))
     .faults ∧ Has (partsOf (.secEventsClear m w)) .intc ∧ Has (partsOf (.secEventsClear m w)) .host ∧ Has (partsOf
     (.secEventsClear m w)) .cpu ∧ Has (partsOf (.secEventsClear m w)) .cont ∧ Has (partsOf (.secEventsClear m w))
     .sheet ∧ Has (partsOf (.secEventsClear m w)) .wake ∧ Has (partsOf (.secEventsClear m w)) .io := by
    (repeat' apply And.intro) <;> exact has_of rfl
  refine changesOnly_of_kept ?_
  simp only [kept_accessWrite, kept_eventsClear, implies_true]

theorem changes_edgeAccRead (m : Master) (w : Word) {s t : State}
    (h : exec (.edgeAccRead m w) s = .next t) : changesOnly (partsOf (.edgeAccRead m w)) s t := by
  cases h
  obtain ⟨_, _, _, _, _, _, _, _, _, _, _⟩ : Has (partsOf (.edgeAccRead m w)) .registers ∧ Has (partsOf
     (.edgeAccRead m w)) .accum ∧ Has (partsOf (.edgeAccRead m w)) .jobs ∧ Has (partsOf (.edgeAccRead m w)) .faults
     ∧ Has (partsOf (.edgeAccRead m w)) .intc ∧ Has (partsOf (.edgeAccRead m w)) .host ∧ Has (partsOf (.edgeAccRead
     m w)) .cpu ∧ Has (partsOf (.edgeAccRead m w)) .cont ∧ Has (partsOf (.edgeAccRead m w)) .sheet ∧ Has (partsOf
     (.edgeAccRead m w)) .wake ∧ Has (partsOf (.edgeAccRead m w)) .io := by
    (repeat' apply And.intro) <;> exact has_of rfl
  refine changesOnly_of_kept ?_
  simp only [kept_accessWrite, kept_edgeAccCtl, implies_true]

theorem changes_revoke (m : Master) (w : Word) {s t : State}
    (h : exec (.revoke m w) s = .next t) : changesOnly (partsOf (.revoke m w)) s t := by
  cases h
  obtain ⟨_, _, _, _, _, _, _, _, _, _, _, _⟩ : Has (partsOf (.revoke m w)) .registers ∧ Has (partsOf (.revoke m w))
     .accum ∧ Has (partsOf (.revoke m w)) .jobs ∧ Has (partsOf (.revoke m w)) .faults ∧ Has (partsOf (.revoke m w))
     .intc ∧ Has (partsOf (.revoke m w)) .host ∧ Has (partsOf (.revoke m w)) .cpu ∧ Has (partsOf (.revoke m w))
     .cont ∧ Has (partsOf (.revoke m w)) .vault ∧ Has (partsOf (.revoke m w)) .sheet ∧ Has (partsOf (.revoke m w))
     .wake ∧ Has (partsOf (.revoke m w)) .io := by
    (repeat' apply And.intro) <;> exact has_of rfl
  refine changesOnly_of_kept ?_
  simp only [kept_accessWrite, kept_revokeWrite, implies_true]

theorem changes_importKey (m : Master) (w : Word) {s t : State}
    (h : exec (.importKey m w) s = .next t) : changesOnly (partsOf (.importKey m w)) s t := by
  cases h
  obtain ⟨_, _, _, _, _, _, _, _, _, _, _, _, _⟩ : Has (partsOf (.importKey m w)) .registers ∧ Has (partsOf
     (.importKey m w)) .accum ∧ Has (partsOf (.importKey m w)) .jobs ∧ Has (partsOf (.importKey m w)) .faults ∧ Has
     (partsOf (.importKey m w)) .intc ∧ Has (partsOf (.importKey m w)) .host ∧ Has (partsOf (.importKey m w)) .cpu ∧
     Has (partsOf (.importKey m w)) .cont ∧ Has (partsOf (.importKey m w)) .vault ∧ Has (partsOf (.importKey m w))
     .sheet ∧ Has (partsOf (.importKey m w)) .wake ∧ Has (partsOf (.importKey m w)) .io ∧ Has (partsOf (.importKey m
     w)) .draws := by
    (repeat' apply And.intro) <;> exact has_of rfl
  refine changesOnly_of_kept ?_
  simp only [kept_accessWrite, kept_importWrite, implies_true]

theorem changes_remask {s t : State}
    (h : exec .remask s = .next t) : changesOnly (partsOf .remask) s t := by
  cases h
  exact changesOnly_of_kept (@kept_remask _ (has_of rfl) (has_of rfl) (has_of rfl) (has_of rfl) _)

theorem changes_entropyFailure {s t : State}
    (h : exec .entropyFailure s = .next t) : changesOnly (partsOf .entropyFailure) s t := by
  cases h
  refine changesOnly_of_kept (@kept_entropyFailure _ ?_ ?_ ?_ ?_ ?_ ?_ ?_ ?_ ?_ ?_ ?_ _) <;> exact has_of rfl

theorem changes_mcjGo (m : Master) (w : Word) {s t : State}
    (h : exec (.mcjGo m w) s = .next t) : changesOnly (partsOf (.mcjGo m w)) s t := by
  cases h
  obtain ⟨_, _, _, _, _, _, _, _, _, _, _, _⟩ : Has (partsOf (.mcjGo m w)) .registers ∧ Has (partsOf (.mcjGo m w))
     .accum ∧ Has (partsOf (.mcjGo m w)) .jobs ∧ Has (partsOf (.mcjGo m w)) .faults ∧ Has (partsOf (.mcjGo m w))
     .intc ∧ Has (partsOf (.mcjGo m w)) .host ∧ Has (partsOf (.mcjGo m w)) .cpu ∧ Has (partsOf (.mcjGo m w)) .cont ∧
     Has (partsOf (.mcjGo m w)) .vault ∧ Has (partsOf (.mcjGo m w)) .sheet ∧ Has (partsOf (.mcjGo m w)) .wake ∧ Has
     (partsOf (.mcjGo m w)) .io := by
    (repeat' apply And.intro) <;> exact has_of rfl
  refine changesOnly_of_kept ?_
  simp only [kept_accessWrite, kept_mcjGo, implies_true]

theorem changes_mcjSuspend (m : Master) {s t : State}
    (h : exec (.mcjSuspend m) s = .next t) : changesOnly (partsOf (.mcjSuspend m)) s t := by
  cases h
  refine changesOnly_of_kept (@kept_mcjSuspend _ ?_ ?_ ?_ ?_ ?_ ?_ ?_ ?_ ?_ ?_ ?_ ?_ ?_ _ _) <;> exact has_of rfl

theorem changes_mcjDone (m : Checked Master) {s t : State}
    (h : exec (.mcjDone m) s = .next t) : changesOnly (partsOf (.mcjDone m)) s t := by
  cases h
  refine changesOnly_of_kept (@kept_mcjDone _ ?_ ?_ ?_ ?_ ?_ ?_ ?_ ?_ ?_ ?_ ?_ ?_ ?_ _ _ _) <;> exact has_of rfl

theorem changes_attGo (m : Master) (w : Word) {s t : State}
    (h : exec (.attGo m w) s = .next t) : changesOnly (partsOf (.attGo m w)) s t := by
  cases h
  obtain ⟨_, _, _, _, _, _, _, _, _, _, _⟩ : Has (partsOf (.attGo m w)) .registers ∧ Has (partsOf (.attGo m w))
     .accum ∧ Has (partsOf (.attGo m w)) .jobs ∧ Has (partsOf (.attGo m w)) .faults ∧ Has (partsOf (.attGo m w))
     .intc ∧ Has (partsOf (.attGo m w)) .host ∧ Has (partsOf (.attGo m w)) .cpu ∧ Has (partsOf (.attGo m w)) .cont ∧
     Has (partsOf (.attGo m w)) .sheet ∧ Has (partsOf (.attGo m w)) .wake ∧ Has (partsOf (.attGo m w)) .io := by
    (repeat' apply And.intro) <;> exact has_of rfl
  refine changesOnly_of_kept ?_
  simp only [kept_accessWrite, kept_attGo, implies_true]

theorem changes_attestationDone {s t : State}
    (h : exec .attestationDone s = .next t) : changesOnly (partsOf .attestationDone) s t := by
  cases h
  refine changesOnly_of_kept (@kept_attestationDone _ ?_ ?_ ?_ ?_ ?_ _) <;> exact has_of rfl

theorem changes_lcReq (m : Master) (w : Word) {s t : State}
    (h : exec (.lcReq m w) s = .next t) : changesOnly (partsOf (.lcReq m w)) s t := by
  cases h
  obtain ⟨_, _, _, _, _, _, _, _, _, _, _, _, _, _, _, _, _, _, _, _, _, _, _, _, _, _, _, _⟩ : Has (partsOf (.lcReq
     m w)) .registers ∧ Has (partsOf (.lcReq m w)) .accum ∧ Has (partsOf (.lcReq m w)) .time ∧ Has (partsOf (.lcReq
     m w)) .jobs ∧ Has (partsOf (.lcReq m w)) .policy ∧ Has (partsOf (.lcReq m w)) .epochs ∧ Has (partsOf (.lcReq m
     w)) .faults ∧ Has (partsOf (.lcReq m w)) .intc ∧ Has (partsOf (.lcReq m w)) .host ∧ Has (partsOf (.lcReq m w))
     .cpu ∧ Has (partsOf (.lcReq m w)) .banks ∧ Has (partsOf (.lcReq m w)) .cont ∧ Has (partsOf (.lcReq m w)) .boot
     ∧ Has (partsOf (.lcReq m w)) .img ∧ Has (partsOf (.lcReq m w)) .vault ∧ Has (partsOf (.lcReq m w)) .fuses ∧ Has
     (partsOf (.lcReq m w)) .anchors ∧ Has (partsOf (.lcReq m w)) .sheet ∧ Has (partsOf (.lcReq m w)) .sheetLog ∧
     Has (partsOf (.lcReq m w)) .frames ∧ Has (partsOf (.lcReq m w)) .tables ∧ Has (partsOf (.lcReq m w)) .links ∧
     Has (partsOf (.lcReq m w)) .tm ∧ Has (partsOf (.lcReq m w)) .edge ∧ Has (partsOf (.lcReq m w)) .wake ∧ Has
     (partsOf (.lcReq m w)) .cnt ∧ Has (partsOf (.lcReq m w)) .io ∧ Has (partsOf (.lcReq m w)) .draws := by
    (repeat' apply And.intro) <;> exact has_of rfl
  refine changesOnly_of_kept ?_
  simp only [kept_accessWrite, kept_lcReqWrite, implies_true]

theorem changes_vkRevoke (m : Master) (key : Fin 4) {s t : State}
    (h : exec (.vkRevoke m key) s = .next t) : changesOnly (partsOf (.vkRevoke m key)) s t := by
  cases h
  refine changesOnly_of_kept (@kept_vkRevoke _ ?_ ?_ ?_ ?_ ?_ _ _ _) <;> exact has_of rfl

theorem changes_tamper (cause : TamperCause) (ns : Nat) {s t : State}
    (h : exec (.tamper cause ns) s = .next t) : changesOnly (partsOf (.tamper cause ns)) s t := by
  cases h
  refine changesOnly_of_kept (@kept_tamper _ ?_ ?_ ?_ ?_ ?_ ?_ ?_ ?_ ?_ ?_ ?_ ?_ ?_ ?_ _ _ _) <;> exact has_of rfl

theorem changes_tamperClr (m : Master) (w : Word) {s t : State}
    (h : exec (.tamperClr m w) s = .next t) : changesOnly (partsOf (.tamperClr m w)) s t := by
  cases h
  obtain ⟨_, _, _, _, _, _, _, _, _, _, _, _, _⟩ : Has (partsOf (.tamperClr m w)) .registers ∧ Has (partsOf
     (.tamperClr m w)) .accum ∧ Has (partsOf (.tamperClr m w)) .jobs ∧ Has (partsOf (.tamperClr m w)) .faults ∧ Has
     (partsOf (.tamperClr m w)) .intc ∧ Has (partsOf (.tamperClr m w)) .host ∧ Has (partsOf (.tamperClr m w)) .cpu ∧
     Has (partsOf (.tamperClr m w)) .cont ∧ Has (partsOf (.tamperClr m w)) .vault ∧ Has (partsOf (.tamperClr m w))
     .sheet ∧ Has (partsOf (.tamperClr m w)) .wake ∧ Has (partsOf (.tamperClr m w)) .io ∧ Has (partsOf (.tamperClr m
     w)) .draws := by
    (repeat' apply And.intro) <;> exact has_of rfl
  refine changesOnly_of_kept ?_
  simp only [kept_accessWrite, kept_tamperClear, implies_true]

theorem changes_sbRetire (m : Master) (w : Word) {s t : State}
    (h : exec (.sbRetire m w) s = .next t) : changesOnly (partsOf (.sbRetire m w)) s t := by
  cases h
  obtain ⟨_, _, _, _, _, _, _, _, _, _, _, _⟩ : Has (partsOf (.sbRetire m w)) .registers ∧ Has (partsOf (.sbRetire m
     w)) .accum ∧ Has (partsOf (.sbRetire m w)) .jobs ∧ Has (partsOf (.sbRetire m w)) .faults ∧ Has (partsOf
     (.sbRetire m w)) .intc ∧ Has (partsOf (.sbRetire m w)) .host ∧ Has (partsOf (.sbRetire m w)) .cpu ∧ Has
     (partsOf (.sbRetire m w)) .cont ∧ Has (partsOf (.sbRetire m w)) .sheet ∧ Has (partsOf (.sbRetire m w))
     .sheetLog ∧ Has (partsOf (.sbRetire m w)) .wake ∧ Has (partsOf (.sbRetire m w)) .io := by
    (repeat' apply And.intro) <;> exact has_of rfl
  refine changesOnly_of_kept ?_
  simp only [kept_accessWrite, kept_sheetRetire, implies_true]

theorem changes_sbRead (m : Master) (w : Word) {s t : State}
    (h : exec (.sbRead m w) s = .next t) : changesOnly (partsOf (.sbRead m w)) s t := by
  cases h
  obtain ⟨_, _, _, _, _, _, _, _, _, _, _⟩ : Has (partsOf (.sbRead m w)) .registers ∧ Has (partsOf (.sbRead m w))
     .accum ∧ Has (partsOf (.sbRead m w)) .jobs ∧ Has (partsOf (.sbRead m w)) .faults ∧ Has (partsOf (.sbRead m w))
     .intc ∧ Has (partsOf (.sbRead m w)) .host ∧ Has (partsOf (.sbRead m w)) .cpu ∧ Has (partsOf (.sbRead m w))
     .cont ∧ Has (partsOf (.sbRead m w)) .sheet ∧ Has (partsOf (.sbRead m w)) .wake ∧ Has (partsOf (.sbRead m w))
     .io := by
    (repeat' apply And.intro) <;> exact has_of rfl
  refine changesOnly_of_kept ?_
  simp only [kept_accessWrite, kept_sheetRead, implies_true]

theorem changes_sbReadDone {s t : State}
    (h : exec .sbReadDone s = .next t) : changesOnly (partsOf .sbReadDone) s t := by
  cases h
  exact changesOnly_of_kept (@kept_sheetReadDone _ (has_of rfl) (has_of rfl) _)

theorem changes_descentReq (m : Master) (w : Word) {s t : State}
    (h : exec (.descentReq m w) s = .next t) : changesOnly (partsOf (.descentReq m w)) s t := by
  cases h
  obtain ⟨_, _, _, _, _, _, _, _, _, _, _⟩ : Has (partsOf (.descentReq m w)) .registers ∧ Has (partsOf (.descentReq
     m w)) .accum ∧ Has (partsOf (.descentReq m w)) .jobs ∧ Has (partsOf (.descentReq m w)) .faults ∧ Has (partsOf
     (.descentReq m w)) .intc ∧ Has (partsOf (.descentReq m w)) .host ∧ Has (partsOf (.descentReq m w)) .cpu ∧ Has
     (partsOf (.descentReq m w)) .cont ∧ Has (partsOf (.descentReq m w)) .sheet ∧ Has (partsOf (.descentReq m w))
     .wake ∧ Has (partsOf (.descentReq m w)) .io := by
    (repeat' apply And.intro) <;> exact has_of rfl
  refine changesOnly_of_kept ?_
  simp only [kept_accessWrite, kept_pwrCtlWrite, implies_true]

theorem changes_hostHold (m : Master) (hold : Bool) {s t : State}
    (h : exec (.hostHold m hold) s = .next t) : changesOnly (partsOf (.hostHold m hold)) s t := by
  cases h
  obtain ⟨_, _, _, _, _, _, _, _, _, _, _⟩ : Has (partsOf (.hostHold m hold)) .registers ∧ Has (partsOf (.hostHold m
     hold)) .accum ∧ Has (partsOf (.hostHold m hold)) .jobs ∧ Has (partsOf (.hostHold m hold)) .faults ∧ Has
     (partsOf (.hostHold m hold)) .intc ∧ Has (partsOf (.hostHold m hold)) .host ∧ Has (partsOf (.hostHold m hold))
     .cpu ∧ Has (partsOf (.hostHold m hold)) .cont ∧ Has (partsOf (.hostHold m hold)) .sheet ∧ Has (partsOf
     (.hostHold m hold)) .wake ∧ Has (partsOf (.hostHold m hold)) .io := by
    (repeat' apply And.intro) <;> exact has_of rfl
  refine changesOnly_of_kept ?_
  simp only [kept_accessWrite, kept_pwrCtlWrite, implies_true]

theorem changes_networkIdle (n : Fin 32) {s t : State}
    (h : exec (.networkIdle n) s = .next t) : changesOnly (partsOf (.networkIdle n)) s t := by
  cases h
  exact changesOnly_of_kept (@kept_networkIdle _ (has_of rfl) _ _)

theorem changes_maxAwake (n : Fin 32) {s t : State}
    (h : exec (.maxAwake n) s = .next t) : changesOnly (partsOf (.maxAwake n)) s t := by
  cases h
  refine changesOnly_of_kept (@kept_maxAwake _ ?_ ?_ ?_ ?_ ?_ _ _) <;> exact has_of rfl

theorem changes_netClr (m : Master) (w : Word) {s t : State}
    (h : exec (.netClr m w) s = .next t) : changesOnly (partsOf (.netClr m w)) s t := by
  cases h
  obtain ⟨_, _, _, _, _, _, _, _, _, _, _⟩ : Has (partsOf (.netClr m w)) .registers ∧ Has (partsOf (.netClr m w))
     .accum ∧ Has (partsOf (.netClr m w)) .jobs ∧ Has (partsOf (.netClr m w)) .faults ∧ Has (partsOf (.netClr m w))
     .intc ∧ Has (partsOf (.netClr m w)) .host ∧ Has (partsOf (.netClr m w)) .cpu ∧ Has (partsOf (.netClr m w))
     .cont ∧ Has (partsOf (.netClr m w)) .sheet ∧ Has (partsOf (.netClr m w)) .wake ∧ Has (partsOf (.netClr m w))
     .io := by
    (repeat' apply And.intro) <;> exact has_of rfl
  refine changesOnly_of_kept ?_
  simp only [kept_accessWrite, kept_netClrWrite, implies_true]

theorem changes_descentDrain {s t : State}
    (h : exec .descentDrain s = .next t) : changesOnly (partsOf .descentDrain) s t := by
  cases h
  exact changesOnly_of_kept (@kept_descentDrain _ (has_of rfl) (has_of rfl) _)

theorem changes_descentLinks {s t : State}
    (h : exec .descentLinks s = .next t) : changesOnly (partsOf .descentLinks) s t := by
  cases h
  refine changesOnly_of_kept (@kept_descentLinks _ ?_ ?_ ?_ ?_ ?_ ?_ ?_ _) <;> exact has_of rfl

theorem changes_tc10SleepAck (p : Fin 48) {s t : State}
    (h : exec (.tc10SleepAck p) s = .next t) : changesOnly (partsOf (.tc10SleepAck p)) s t := by
  cases h
  refine changesOnly_of_kept (@kept_tc10Ack _ ?_ ?_ ?_ ?_ ?_ ?_ ?_ ?_ ?_ _ _) <;> exact has_of rfl

theorem changes_descentSave {s t : State}
    (h : exec .descentSave s = .next t) : changesOnly (partsOf .descentSave) s t := by
  cases h
  refine changesOnly_of_kept (@kept_descentSave _ ?_ ?_ ?_ ?_ ?_ ?_ ?_ ?_ _) <;> exact has_of rfl

theorem changes_saveTimeout {s t : State}
    (h : exec .saveTimeout s = .next t) : changesOnly (partsOf .saveTimeout) s t := by
  cases h
  exact changesOnly_of_kept (@kept_saveTimeout _ (has_of rfl) _)

theorem changes_cutoff {s t : State}
    (h : exec .cutoff s = .next t) : changesOnly (partsOf .cutoff) s t := by
  cases h
  refine changesOnly_of_kept (@kept_cutoff _ ?_ ?_ ?_ ?_ ?_ ?_ ?_ ?_ ?_ ?_ ?_ ?_ ?_ ?_ ?_ ?_ ?_ ?_ ?_ ?_ ?_ _) <;>
    exact has_of rfl

theorem changes_descentAbort {s t : State}
    (h : exec .descentAbort s = .next t) : changesOnly (partsOf .descentAbort) s t := by
  cases h
  refine changesOnly_of_kept (@kept_descentAbort _ ?_ ?_ ?_ ?_ ?_ ?_ ?_ ?_ ?_ ?_ ?_ _) <;> exact has_of rfl

theorem changes_cutoffComplete {s t : State}
    (h : exec .cutoffComplete s = .next t) : changesOnly (partsOf .cutoffComplete) s t := by
  cases h
  refine changesOnly_of_kept (@kept_cutoffComplete _ ?_ ?_ ?_ ?_ ?_ ?_ ?_ ?_ ?_ ?_ ?_ ?_ ?_ ?_ ?_ ?_ ?_ ?_ ?_ ?_ ?_
    ?_ ?_ ?_ _) <;> exact has_of rfl

theorem changes_selectiveWake (ch : Fin 16) (kind : SwKind) {s t : State}
    (h : exec (.selectiveWake ch kind) s = .next t) : changesOnly (partsOf (.selectiveWake ch kind)) s t := by
  cases h
  exact changesOnly_of_kept (@kept_selectiveWake _ (has_of rfl) (has_of rfl) _ _ _)

theorem changes_linWake (l : Fin 8) {s t : State}
    (h : exec (.linWake l) s = .next t) : changesOnly (partsOf (.linWake l)) s t := by
  cases h
  exact changesOnly_of_kept (@kept_linWake _ (has_of rfl) (has_of rfl) _ _)

theorem changes_wakePin (pin : Fin 4) {s t : State}
    (h : exec (.wakePin pin) s = .next t) : changesOnly (partsOf (.wakePin pin)) s t := by
  cases h
  exact changesOnly_of_kept (@kept_wakePin _ (has_of rfl) (has_of rfl) _ _)

theorem changes_tc10Wake (p : Fin 48) {s t : State}
    (h : exec (.tc10Wake p) s = .next t) : changesOnly (partsOf (.tc10Wake p)) s t := by
  cases h
  exact changesOnly_of_kept (@kept_tc10Wake _ (has_of rfl) (has_of rfl) _ _)

theorem changes_parkTimer {s t : State}
    (h : exec .parkTimer s = .next t) : changesOnly (partsOf .parkTimer) s t := by
  cases h
  refine changesOnly_of_kept (@kept_parkTimer _ ?_ ?_ ?_ ?_ ?_ ?_ ?_ ?_ ?_ ?_ ?_ ?_ ?_ ?_ ?_ ?_ ?_ ?_ ?_ ?_ ?_ ?_ ?_
    ?_ _) <;> exact has_of rfl

theorem changes_excursion {s t : State}
    (h : exec .excursion s = .next t) : changesOnly (partsOf .excursion) s t := by
  cases h
  exact changesOnly_of_kept (@kept_excursion _ (has_of rfl) (has_of rfl) (has_of rfl) (has_of rfl) _)

theorem changes_wakeLatch {s t : State}
    (h : exec .wakeLatch s = .next t) : changesOnly (partsOf .wakeLatch) s t := by
  cases h
  refine changesOnly_of_kept (@kept_wakeLatch _ ?_ ?_ ?_ ?_ ?_ ?_ ?_ ?_ ?_ ?_ ?_ ?_ ?_ ?_ ?_ ?_ ?_ ?_ ?_ ?_ ?_ ?_ ?_
    ?_ _) <;> exact has_of rfl

theorem changes_switchDieRelease {s t : State}
    (h : exec .switchDieRelease s = .next t) : changesOnly (partsOf .switchDieRelease) s t := by
  cases h
  refine changesOnly_of_kept (@kept_switchDieRelease _ ?_ ?_ ?_ ?_ ?_ ?_ ?_ ?_ ?_ _) <;> exact has_of rfl

theorem changes_wakeCheck {s t : State}
    (h : exec .wakeCheck s = .next t) : changesOnly (partsOf .wakeCheck) s t := by
  cases h
  refine changesOnly_of_kept (@kept_wakeCheck _ ?_ ?_ ?_ ?_ ?_ ?_ ?_ ?_ ?_ ?_ ?_ ?_ ?_ ?_ ?_ ?_ ?_ ?_ ?_ ?_ ?_ ?_ ?_
    ?_ _) <;> exact has_of rfl

theorem changes_forwardingReady {s t : State}
    (h : exec .forwardingReady s = .next t) : changesOnly (partsOf .forwardingReady) s t := by
  cases h
  refine changesOnly_of_kept (@kept_forwardingBoundary _ ?_ ?_ ?_ ?_ ?_ ?_ ?_ ?_ ?_ ?_ ?_ ?_ ?_ ?_ ?_ ?_ ?_ ?_ ?_ _)
    <;> exact has_of rfl

theorem changes_mooredScrub (errs : List RetError) {s t : State}
    (h : exec (.mooredScrub errs) s = .next t) : changesOnly (partsOf (.mooredScrub errs)) s t := by
  cases h
  exact changesOnly_of_kept (@kept_mooredScrub _ (has_of rfl) (has_of rfl) (has_of rfl) _ _)

theorem changes_vbatLoss {s t : State}
    (h : exec .vbatLoss s = .next t) : changesOnly (partsOf .vbatLoss) s t := by
  cases h
  refine changesOnly_of_kept (@kept_vbatLoss _ ?_ ?_ ?_ ?_ ?_ ?_ ?_ ?_ ?_ ?_ ?_ ?_ ?_ ?_ ?_ ?_ ?_ ?_ ?_ ?_ ?_ ?_ ?_
    ?_ _) <;> exact has_of rfl

theorem changes_vbatLevelChange (cv : Nat) {s t : State}
    (h : exec (.vbatLevelChange cv) s = .next t) : changesOnly (partsOf (.vbatLevelChange cv)) s t := by
  cases h
  exact changesOnly_of_kept (@kept_vbatLevel _ (has_of rfl) (has_of rfl) _ _)

theorem changes_lockstepInjection (flagged : Bool) {s t : State}
    (h : exec (.lockstepInjection flagged) s = .next t) : changesOnly (partsOf (.lockstepInjection flagged)) s t := by
  cases h
  refine changesOnly_of_kept (@kept_lockstepInjection _ ?_ ?_ ?_ ?_ ?_ ?_ ?_ ?_ ?_ ?_ ?_ _ _) <;> exact has_of rfl

theorem changes_coreMismatch (kind : MismatchKind) {s t : State}
    (h : exec (.coreMismatch kind) s = .next t) : changesOnly (partsOf (.coreMismatch kind)) s t := by
  cases h
  refine changesOnly_of_kept (@kept_coreMismatch _ ?_ ?_ ?_ ?_ ?_ ?_ ?_ ?_ ?_ ?_ ?_ _ _) <;> exact has_of rfl

theorem changes_spWatchdog {s t : State}
    (h : exec .spWatchdog s = .next t) : changesOnly (partsOf .spWatchdog) s t := by
  cases h
  refine changesOnly_of_kept (@kept_spWatchdog _ ?_ ?_ ?_ ?_ ?_ ?_ ?_ ?_ ?_ ?_ ?_ _) <;> exact has_of rfl

theorem changes_gcWatchdog (c : Fin 4) {s t : State}
    (h : exec (.gcWatchdog c) s = .next t) : changesOnly (partsOf (.gcWatchdog c)) s t := by
  cases h
  refine changesOnly_of_kept (@kept_gcWatchdog _ ?_ ?_ ?_ ?_ ?_ ?_ ?_ ?_ ?_ ?_ _ _) <;> exact has_of rfl

theorem changes_coreCtlRelease (m : Master) (w : Word) {s t : State}
    (h : exec (.coreCtlRelease m w) s = .next t) : changesOnly (partsOf (.coreCtlRelease m w)) s t := by
  cases h
  obtain ⟨_, _, _, _, _, _, _, _, _, _, _⟩ : Has (partsOf (.coreCtlRelease m w)) .registers ∧ Has (partsOf
     (.coreCtlRelease m w)) .accum ∧ Has (partsOf (.coreCtlRelease m w)) .jobs ∧ Has (partsOf (.coreCtlRelease m w))
     .faults ∧ Has (partsOf (.coreCtlRelease m w)) .intc ∧ Has (partsOf (.coreCtlRelease m w)) .host ∧ Has (partsOf
     (.coreCtlRelease m w)) .cpu ∧ Has (partsOf (.coreCtlRelease m w)) .cont ∧ Has (partsOf (.coreCtlRelease m w))
     .sheet ∧ Has (partsOf (.coreCtlRelease m w)) .wake ∧ Has (partsOf (.coreCtlRelease m w)) .io := by
    (repeat' apply And.intro) <;> exact has_of rfl
  refine changesOnly_of_kept ?_
  simp only [kept_accessWrite, kept_coreCtlRelease, implies_true]

theorem changes_bankAccess (m : BusMaster) (bank : Bank) (off : Nat) (op : BankOp) (ecc : BankEcc) (waiting : List BusMaster) {s t : State}
    (h : exec (.bankAccess m bank off op ecc waiting) s = .next t) : changesOnly (partsOf (.bankAccess m bank off op ecc waiting)) s t := by
  cases h
  refine changesOnly_of_kept (@kept_bankRequest _ ?_ ?_ ?_ ?_ ?_ ?_ ?_ ?_ ?_ ?_ ?_ ?_ ?_ ?_ ?_ ?_ ?_ ?_ ?_ ?_ ?_ ?_
    ?_ ?_ ?_ ?_ _ _ _ _ _ _ _) <;> exact has_of rfl

theorem changes_atomicAdd (m : BusMaster) (bank : Bank) (off : Nat) (wide : Bool) (v : Granted (BitVec 64)) {s t : State}
    (h : exec (.atomicAdd m bank off wide v) s = .next t) : changesOnly (partsOf (.atomicAdd m bank off wide v)) s t := by
  cases h
  refine changesOnly_of_kept (@kept_atomicRequest _ ?_ ?_ ?_ ?_ ?_ ?_ ?_ ?_ ?_ ?_ ?_ ?_ ?_ ?_ ?_ ?_ ?_ ?_ ?_ ?_ ?_
    ?_ ?_ ?_ ?_ ?_ _ _ _ _ _ _ _ _) <;> exact has_of rfl

theorem changes_atomicSwap (m : BusMaster) (bank : Bank) (off : Nat) (wide : Bool) (v : Granted (BitVec 64)) {s t : State}
    (h : exec (.atomicSwap m bank off wide v) s = .next t) : changesOnly (partsOf (.atomicSwap m bank off wide v)) s t := by
  cases h
  refine changesOnly_of_kept (@kept_atomicRequest _ ?_ ?_ ?_ ?_ ?_ ?_ ?_ ?_ ?_ ?_ ?_ ?_ ?_ ?_ ?_ ?_ ?_ ?_ ?_ ?_ ?_
    ?_ ?_ ?_ ?_ ?_ _ _ _ _ _ _ _ _) <;> exact has_of rfl

theorem changes_patrolScrub (bank : Bank) (errs : List ScrubError) {s t : State}
    (h : exec (.patrolScrub bank errs) s = .next t) : changesOnly (partsOf (.patrolScrub bank errs)) s t := by
  cases h
  refine changesOnly_of_kept (@kept_patrolScrub _ ?_ ?_ ?_ ?_ ?_ ?_ ?_ ?_ ?_ ?_ ?_ _ _ _) <;> exact has_of rfl

theorem changes_dbgPoll {s t : State}
    (h : exec .dbgPoll s = .next t) : changesOnly (partsOf .dbgPoll) s t := by
  cases h
  have _ : Has (partsOf .dbgPoll) .io := by
    exact has_of rfl
  refine changesOnly_of_kept (kept_whileTap _ _ fun t => ?_)
  simp only [kept_dbgPoll, kept_mk, listed, true_or, or_true, and_self, kept_ite, ite_self]

theorem changes_dbgRead (addr : Nat) {s t : State}
    (h : exec (.dbgRead addr) s = .next t) : changesOnly (partsOf (.dbgRead addr)) s t := by
  cases h
  obtain ⟨_, _, _, _, _, _, _, _, _, _⟩ : Has (partsOf (.dbgRead addr)) .registers ∧ Has (partsOf (.dbgRead addr))
     .accum ∧ Has (partsOf (.dbgRead addr)) .intc ∧ Has (partsOf (.dbgRead addr)) .host ∧ Has (partsOf (.dbgRead
     addr)) .cpu ∧ Has (partsOf (.dbgRead addr)) .frames ∧ Has (partsOf (.dbgRead addr)) .tm ∧ Has (partsOf
     (.dbgRead addr)) .wake ∧ Has (partsOf (.dbgRead addr)) .io ∧ Has (partsOf (.dbgRead addr)) .draws := by
    (repeat' apply And.intro) <;> exact has_of rfl
  refine changesOnly_of_kept ?_
  simp only [kept_registerRead, kept_dbgRequest, implies_true]

theorem changes_dbgWrite (addr : Nat) (v : Word) {s t : State}
    (h : exec (.dbgWrite addr v) s = .next t) : changesOnly (partsOf (.dbgWrite addr v)) s t := by
  cases h
  obtain ⟨_, _, _, _, _, _, _, _, _, _, _, _, _, _, _, _, _, _, _, _, _, _, _, _, _, _, _, _⟩ : Has (partsOf
     (.dbgWrite addr v)) .registers ∧ Has (partsOf (.dbgWrite addr v)) .accum ∧ Has (partsOf (.dbgWrite addr v))
     .time ∧ Has (partsOf (.dbgWrite addr v)) .jobs ∧ Has (partsOf (.dbgWrite addr v)) .policy ∧ Has (partsOf
     (.dbgWrite addr v)) .epochs ∧ Has (partsOf (.dbgWrite addr v)) .faults ∧ Has (partsOf (.dbgWrite addr v)) .intc
     ∧ Has (partsOf (.dbgWrite addr v)) .host ∧ Has (partsOf (.dbgWrite addr v)) .cpu ∧ Has (partsOf (.dbgWrite addr
     v)) .banks ∧ Has (partsOf (.dbgWrite addr v)) .cont ∧ Has (partsOf (.dbgWrite addr v)) .boot ∧ Has (partsOf
     (.dbgWrite addr v)) .img ∧ Has (partsOf (.dbgWrite addr v)) .vault ∧ Has (partsOf (.dbgWrite addr v)) .fuses ∧
     Has (partsOf (.dbgWrite addr v)) .anchors ∧ Has (partsOf (.dbgWrite addr v)) .sheet ∧ Has (partsOf (.dbgWrite
     addr v)) .sheetLog ∧ Has (partsOf (.dbgWrite addr v)) .frames ∧ Has (partsOf (.dbgWrite addr v)) .tables ∧ Has
     (partsOf (.dbgWrite addr v)) .links ∧ Has (partsOf (.dbgWrite addr v)) .tm ∧ Has (partsOf (.dbgWrite addr v))
     .edge ∧ Has (partsOf (.dbgWrite addr v)) .wake ∧ Has (partsOf (.dbgWrite addr v)) .cnt ∧ Has (partsOf
     (.dbgWrite addr v)) .io ∧ Has (partsOf (.dbgWrite addr v)) .draws := by
    (repeat' apply And.intro) <;> exact has_of rfl
  refine changesOnly_of_kept ?_
  simp only [kept_registerWrite, kept_dbgRequest, implies_true]

theorem changes_dbgHalt (c : Fin 5) {s t : State}
    (h : exec (.dbgHalt c) s = .next t) : changesOnly (partsOf (.dbgHalt c)) s t := by
  cases h
  exact changesOnly_of_kept (@kept_dbgHalt _ (has_of rfl) (has_of rfl) _ _)

theorem changes_dbgResume (c : Fin 5) {s t : State}
    (h : exec (.dbgResume c) s = .next t) : changesOnly (partsOf (.dbgResume c)) s t := by
  cases h
  exact changesOnly_of_kept (@kept_dbgResume _ (has_of rfl) (has_of rfl) _ _)

theorem changes_dbgStep (c : Fin 5) {s t : State}
    (h : exec (.dbgStep c) s = .next t) : changesOnly (partsOf (.dbgStep c)) s t := by
  cases h
  exact changesOnly_of_kept (@kept_dbgStep _ (has_of rfl) (has_of rfl) _ _)

theorem changes_tapReset {s t : State}
    (h : exec .tapReset s = .next t) : changesOnly (partsOf .tapReset) s t := by
  cases h
  have _ : Has (partsOf .tapReset) .cpu := by
    exact has_of rfl
  refine changesOnly_of_kept (kept_whileTap _ _ fun t => ?_)
  simp only [kept_mk, listed, true_or, or_true, and_self, kept_ite, ite_self]

theorem changes_extest {s t : State}
    (h : exec .extest s = .next t) : changesOnly (partsOf .extest) s t := by
  cases h
  have _ : Has (partsOf .extest) .cpu := by
    exact has_of rfl
  refine changesOnly_of_kept (kept_whileTap _ _ fun t => ?_)
  simp only [kept_tapSelect, kept_mk, listed, true_or, or_true, and_self, kept_ite, ite_self]

theorem changes_idcode {s t : State}
    (h : exec .idcode s = .next t) : changesOnly (partsOf .idcode) s t := by
  cases h
  obtain ⟨_, _⟩ : Has (partsOf .idcode) .cpu ∧ Has (partsOf .idcode) .io := by
    (repeat' apply And.intro) <;> exact has_of rfl
  refine changesOnly_of_kept (kept_whileTap _ _ fun t => ?_)
  simp only [kept_answerBus, kept_tapSelect, kept_mk, listed, true_or, or_true, and_self, kept_ite, ite_self]

theorem changes_samplePreload {s t : State}
    (h : exec .samplePreload s = .next t) : changesOnly (partsOf .samplePreload) s t := by
  cases h
  obtain ⟨_, _⟩ : Has (partsOf .samplePreload) .cpu ∧ Has (partsOf .samplePreload) .draws := by
    (repeat' apply And.intro) <;> exact has_of rfl
  refine changesOnly_of_kept (kept_whileTap _ _ fun t => ?_)
  simp only [kept_tapSelect, kept_scanPins, kept_mk, listed, true_or, or_true, and_self, kept_ite, ite_self]

theorem changes_bypass {s t : State}
    (h : exec .bypass s = .next t) : changesOnly (partsOf .bypass) s t := by
  cases h
  have _ : Has (partsOf .bypass) .cpu := by
    exact has_of rfl
  refine changesOnly_of_kept (kept_whileTap _ _ fun t => ?_)
  simp only [kept_tapSelect, kept_mk, listed, true_or, or_true, and_self, kept_ite, ite_self]

theorem changes_hostInterfaceReset (kind : HostResetKind) {s t : State}
    (h : exec (.hostInterfaceReset kind) s = .next t) : changesOnly (partsOf (.hostInterfaceReset kind)) s t := by
  cases h
  obtain ⟨_, _, _, _, _, _, _⟩ : Has (partsOf (.hostInterfaceReset kind)) .registers ∧ Has (partsOf
     (.hostInterfaceReset kind)) .accum ∧ Has (partsOf (.hostInterfaceReset kind)) .intc ∧ Has (partsOf
     (.hostInterfaceReset kind)) .host ∧ Has (partsOf (.hostInterfaceReset kind)) .frames ∧ Has (partsOf
     (.hostInterfaceReset kind)) .io ∧ Has (partsOf (.hostInterfaceReset kind)) .draws := by
    (repeat' apply And.intro) <;> exact has_of rfl
  refine changesOnly_of_kept ?_
  simp only [kept_hostReset, kept_leftUp, kept_ite, ite_self]

theorem changes_perstNRise {s t : State}
    (h : exec .perstNRise s = .next t) : changesOnly (partsOf .perstNRise) s t := by
  cases h
  exact changesOnly_of_kept (@kept_perstRise _ (has_of rfl) (has_of rfl) (has_of rfl) _)

theorem changes_p48StateChange (st : LinkState) {s t : State}
    (h : exec (.p48StateChange st) s = .next t) : changesOnly (partsOf (.p48StateChange st)) s t := by
  cases h
  obtain ⟨_, _, _, _, _, _⟩ : Has (partsOf (.p48StateChange st)) .registers ∧ Has (partsOf (.p48StateChange st))
     .accum ∧ Has (partsOf (.p48StateChange st)) .intc ∧ Has (partsOf (.p48StateChange st)) .host ∧ Has (partsOf
     (.p48StateChange st)) .frames ∧ Has (partsOf (.p48StateChange st)) .io := by
    (repeat' apply And.intro) <;> exact has_of rfl
  refine changesOnly_of_kept ?_
  simp only [kept_p48StateChange, kept_leftUp, kept_ite, ite_self]

theorem changes_d3hotEntry (pm : PmWrite) {s t : State}
    (h : exec (.d3hotEntry pm) s = .next t) : changesOnly (partsOf (.d3hotEntry pm)) s t := by
  cases h
  obtain ⟨_, _, _, _, _, _⟩ : Has (partsOf (.d3hotEntry pm)) .registers ∧ Has (partsOf (.d3hotEntry pm)) .accum ∧
     Has (partsOf (.d3hotEntry pm)) .intc ∧ Has (partsOf (.d3hotEntry pm)) .host ∧ Has (partsOf (.d3hotEntry pm))
     .frames ∧ Has (partsOf (.d3hotEntry pm)) .io := by
    (repeat' apply And.intro) <;> exact has_of rfl
  refine changesOnly_of_kept ?_
  simp only [kept_d3hotEntry, kept_leftUp, kept_ite, ite_self]

theorem changes_d0Return {s t : State}
    (h : exec .d0Return s = .next t) : changesOnly (partsOf .d0Return) s t := by
  cases h
  exact changesOnly_of_kept (@kept_d0Return _ (has_of rfl) (has_of rfl) (has_of rfl) (has_of rfl) _)

theorem changes_msixEnable {s t : State}
    (h : exec .msixEnable s = .next t) : changesOnly (partsOf .msixEnable) s t := by
  cases h
  exact changesOnly_of_kept (@kept_msixEnable _ (has_of rfl) (has_of rfl) (has_of rfl) (has_of rfl) _)

theorem changes_registerWrite (m : Asking) (addr : Nat) (size : Nat) (v : Word) {s t : State}
    (h : exec (.registerWrite m addr size v) s = .next t) : changesOnly (partsOf (.registerWrite m addr size v)) s t := by
  cases h
  obtain ⟨_, _, _, _, _, _, _, _, _, _, _, _, _, _, _, _, _, _, _, _, _, _, _, _, _, _, _, _⟩ : Has (partsOf
     (.registerWrite m addr size v)) .registers ∧ Has (partsOf (.registerWrite m addr size v)) .accum ∧ Has (partsOf
     (.registerWrite m addr size v)) .time ∧ Has (partsOf (.registerWrite m addr size v)) .jobs ∧ Has (partsOf
     (.registerWrite m addr size v)) .policy ∧ Has (partsOf (.registerWrite m addr size v)) .epochs ∧ Has (partsOf
     (.registerWrite m addr size v)) .faults ∧ Has (partsOf (.registerWrite m addr size v)) .intc ∧ Has (partsOf
     (.registerWrite m addr size v)) .host ∧ Has (partsOf (.registerWrite m addr size v)) .cpu ∧ Has (partsOf
     (.registerWrite m addr size v)) .banks ∧ Has (partsOf (.registerWrite m addr size v)) .cont ∧ Has (partsOf
     (.registerWrite m addr size v)) .boot ∧ Has (partsOf (.registerWrite m addr size v)) .img ∧ Has (partsOf
     (.registerWrite m addr size v)) .vault ∧ Has (partsOf (.registerWrite m addr size v)) .fuses ∧ Has (partsOf
     (.registerWrite m addr size v)) .anchors ∧ Has (partsOf (.registerWrite m addr size v)) .sheet ∧ Has (partsOf
     (.registerWrite m addr size v)) .sheetLog ∧ Has (partsOf (.registerWrite m addr size v)) .frames ∧ Has (partsOf
     (.registerWrite m addr size v)) .tables ∧ Has (partsOf (.registerWrite m addr size v)) .links ∧ Has (partsOf
     (.registerWrite m addr size v)) .tm ∧ Has (partsOf (.registerWrite m addr size v)) .edge ∧ Has (partsOf
     (.registerWrite m addr size v)) .wake ∧ Has (partsOf (.registerWrite m addr size v)) .cnt ∧ Has (partsOf
     (.registerWrite m addr size v)) .io ∧ Has (partsOf (.registerWrite m addr size v)) .draws := by
    (repeat' apply And.intro) <;> exact has_of rfl
  refine changesOnly_of_kept ?_
  simp only [kept_registerWrite, kept_ite, ite_self]

theorem changes_cmtWrite (m : Master) (addr : Nat) (v : Word) {s t : State}
    (h : exec (.cmtWrite m addr v) s = .next t) : changesOnly (partsOf (.cmtWrite m addr v)) s t := by
  cases h
  refine changesOnly_of_kept (@kept_cmtWrite _ ?_ ?_ ?_ ?_ ?_ ?_ ?_ ?_ ?_ ?_ ?_ ?_ _ _ _ _) <;> exact has_of rfl

theorem changes_stageClaim (m : Master) {s t : State}
    (h : exec (.stageClaim m) s = .next t) : changesOnly (partsOf (.stageClaim m)) s t := by
  cases h
  refine changesOnly_of_kept (@kept_stageClaim _ ?_ ?_ ?_ ?_ ?_ ?_ ?_ ?_ ?_ ?_ ?_ _ _) <;> exact has_of rfl

theorem changes_stageRelease (m : Master) {s t : State}
    (h : exec (.stageRelease m) s = .next t) : changesOnly (partsOf (.stageRelease m)) s t := by
  cases h
  refine changesOnly_of_kept (@kept_stageRelease _ ?_ ?_ ?_ ?_ ?_ ?_ ?_ ?_ ?_ ?_ ?_ _ _) <;> exact has_of rfl

theorem changes_stageDiscard (m : Master) {s t : State}
    (h : exec (.stageDiscard m) s = .next t) : changesOnly (partsOf (.stageDiscard m)) s t := by
  cases h
  refine changesOnly_of_kept (@kept_stageDiscard _ ?_ ?_ ?_ ?_ ?_ ?_ ?_ ?_ ?_ ?_ ?_ ?_ _ _) <;> exact has_of rfl

theorem changes_stagePush (m : Master) (kind : Fin 4) {s t : State}
    (h : exec (.stagePush m kind) s = .next t) : changesOnly (partsOf (.stagePush m kind)) s t := by
  cases h
  refine changesOnly_of_kept (@kept_stagePush _ ?_ ?_ ?_ ?_ ?_ ?_ ?_ ?_ ?_ ?_ ?_ ?_ _ _ _) <;> exact has_of rfl

theorem changes_cmtPeek (m : Master) (addr : Nat) {s t : State}
    (h : exec (.cmtPeek m addr) s = .next t) : changesOnly (partsOf (.cmtPeek m addr)) s t := by
  cases h
  refine changesOnly_of_kept (@kept_cmtPeek _ ?_ ?_ ?_ ?_ ?_ ?_ ?_ ?_ ?_ ?_ ?_ ?_ ?_ ?_ _ _ _) <;> exact has_of rfl

theorem changes_commitReq (m : Master) {s t : State}
    (h : exec (.commitReq m) s = .next t) : changesOnly (partsOf (.commitReq m)) s t := by
  cases h
  refine changesOnly_of_kept (@kept_commitReq _ ?_ ?_ ?_ ?_ ?_ ?_ ?_ ?_ ?_ ?_ ?_ ?_ ?_ ?_ ?_ _ _) <;> exact has_of rfl

theorem changes_commitArm {s t : State}
    (h : exec .commitArm s = .next t) : changesOnly (partsOf .commitArm) s t := by
  cases h
  refine changesOnly_of_kept (@kept_commitArm _ ?_ ?_ ?_ ?_ ?_ ?_ ?_ ?_ ?_ ?_ _) <;> exact has_of rfl

theorem changes_commitCancel (m : Master) {s t : State}
    (h : exec (.commitCancel m) s = .next t) : changesOnly (partsOf (.commitCancel m)) s t := by
  cases h
  refine changesOnly_of_kept (@kept_commitCancel _ ?_ ?_ ?_ ?_ ?_ ?_ ?_ ?_ ?_ ?_ ?_ ?_ ?_ ?_ ?_ _ _) <;> exact
    has_of rfl

theorem changes_epochLatch (m : Master) {s t : State}
    (h : exec (.epochLatch m) s = .next t) : changesOnly (partsOf (.epochLatch m)) s t := by
  cases h
  obtain ⟨_, _, _, _, _, _, _, _, _, _, _, _⟩ : Has (partsOf (.epochLatch m)) .registers ∧ Has (partsOf (.epochLatch
     m)) .accum ∧ Has (partsOf (.epochLatch m)) .jobs ∧ Has (partsOf (.epochLatch m)) .epochs ∧ Has (partsOf
     (.epochLatch m)) .faults ∧ Has (partsOf (.epochLatch m)) .intc ∧ Has (partsOf (.epochLatch m)) .host ∧ Has
     (partsOf (.epochLatch m)) .cpu ∧ Has (partsOf (.epochLatch m)) .cont ∧ Has (partsOf (.epochLatch m)) .sheet ∧
     Has (partsOf (.epochLatch m)) .wake ∧ Has (partsOf (.epochLatch m)) .io := by
    (repeat' apply And.intro) <;> exact has_of rfl
  refine changesOnly_of_kept ?_
  simp only [kept_accessWrite, kept_epochLatch, implies_true]

theorem changes_epochLatchRelease (m : Master) {s t : State}
    (h : exec (.epochLatchRelease m) s = .next t) : changesOnly (partsOf (.epochLatchRelease m)) s t := by
  cases h
  obtain ⟨_, _, _, _, _, _, _, _, _, _, _, _⟩ : Has (partsOf (.epochLatchRelease m)) .registers ∧ Has (partsOf
     (.epochLatchRelease m)) .accum ∧ Has (partsOf (.epochLatchRelease m)) .jobs ∧ Has (partsOf (.epochLatchRelease
     m)) .epochs ∧ Has (partsOf (.epochLatchRelease m)) .faults ∧ Has (partsOf (.epochLatchRelease m)) .intc ∧ Has
     (partsOf (.epochLatchRelease m)) .host ∧ Has (partsOf (.epochLatchRelease m)) .cpu ∧ Has (partsOf
     (.epochLatchRelease m)) .cont ∧ Has (partsOf (.epochLatchRelease m)) .sheet ∧ Has (partsOf (.epochLatchRelease
     m)) .wake ∧ Has (partsOf (.epochLatchRelease m)) .io := by
    (repeat' apply And.intro) <;> exact has_of rfl
  refine changesOnly_of_kept ?_
  simp only [kept_accessWrite, kept_epochUnlatch, implies_true]

theorem changes_slotFree (slot : Fin 4) {s t : State}
    (h : exec (.slotFree slot) s = .next t) : changesOnly (partsOf (.slotFree slot)) s t := by
  cases h
  refine changesOnly_of_kept (@kept_slotFree _ ?_ ?_ ?_ ?_ ?_ ?_ ?_ ?_ ?_ ?_ ?_ _ _) <;> exact has_of rfl

theorem changes_drainLimit (slot : Fin 4) {s t : State}
    (h : exec (.drainLimit slot) s = .next t) : changesOnly (partsOf (.drainLimit slot)) s t := by
  cases h
  refine changesOnly_of_kept (@kept_drainLimit _ ?_ ?_ ?_ ?_ ?_ ?_ ?_ ?_ ?_ ?_ ?_ ?_ ?_ _ _) <;> exact has_of rfl

theorem changes_gcOutboundWrite (c : Fin 4) (addr : Nat) (data : List Byte) (stalled : Bool) {s t : State}
    (h : exec (.gcOutboundWrite c addr data stalled) s = .next t) : changesOnly (partsOf (.gcOutboundWrite c addr data stalled)) s t := by
  cases h
  refine changesOnly_of_kept (@kept_gcOutboundWrite _ ?_ ?_ ?_ ?_ ?_ _ _ _ _ _) <;> exact has_of rfl

theorem changes_gcOutboundRead (c : Fin 4) (addr len : Nat) (stalled : Bool) {s t : State}
    (h : exec (.gcOutboundRead c addr len stalled) s = .next t) : changesOnly (partsOf (.gcOutboundRead c addr len stalled)) s t := by
  cases h
  refine changesOnly_of_kept (@kept_gcOutboundRead _ ?_ ?_ ?_ ?_ _ _ _ _ _) <;> exact has_of rfl

theorem changes_stalemateRetry (c : Fin 5) (stalled : Bool) {s t : State}
    (h : exec (.stalemateRetry c stalled) s = .next t) : changesOnly (partsOf (.stalemateRetry c stalled)) s t := by
  cases h
  obtain ⟨_, _, _, _⟩ : Has (partsOf (.stalemateRetry c stalled)) .registers ∧ Has (partsOf (.stalemateRetry c
     stalled)) .accum ∧ Has (partsOf (.stalemateRetry c stalled)) .host ∧ Has (partsOf (.stalemateRetry c stalled))
     .io := by
    (repeat' apply And.intro) <;> exact has_of rfl
  refine changesOnly_of_kept ?_
  simp only [kept_stalemateRetry, kept_fetchAgain, kept_ite, ite_self]

theorem changes_semExclusiveLoad (c : Fin 4) (addr : Nat) (len : Yielding Nat) {s t : State}
    (h : exec (.semExclusiveLoad c addr len) s = .next t) : changesOnly (partsOf (.semExclusiveLoad c addr len)) s t := by
  cases h
  refine changesOnly_of_kept (@kept_exclLoad _ ?_ ?_ ?_ ?_ _ _ _ _ _) <;> exact has_of rfl

theorem changes_semExclusiveStore (c : Fin 4) (addr : Nat) (data : Yielding (List Byte)) {s t : State}
    (h : exec (.semExclusiveStore c addr data) s = .next t) : changesOnly (partsOf (.semExclusiveStore c addr data)) s t := by
  cases h
  refine changesOnly_of_kept (@kept_exclStore _ ?_ ?_ ?_ ?_ ?_ ?_ _ _ _ _ _) <;> exact has_of rfl

theorem changes_semWaitTimeout (c : Yielding (Fin 4)) {s t : State}
    (h : exec (.semWaitTimeout c) s = .next t) : changesOnly (partsOf (.semWaitTimeout c)) s t := by
  cases h
  refine changesOnly_of_kept (@kept_semWaitTimeout _ ?_ ?_ ?_ ?_ _ _ _) <;> exact has_of rfl

theorem changes_semHoldTimeout (c : Fin 4) {s t : State}
    (h : exec (.semHoldTimeout c) s = .next t) : changesOnly (partsOf (.semHoldTimeout c)) s t := by
  cases h
  refine changesOnly_of_kept (@kept_semHoldTimeout _ ?_ ?_ ?_ ?_ ?_ _ _) <;> exact has_of rfl

theorem changes_semTake (m : Master) (sem : Fin 32) {s t : State}
    (h : exec (.semTake m sem) s = .next t) : changesOnly (partsOf (.semTake m sem)) s t := by
  cases h
  obtain ⟨_, _, _, _, _, _, _, _, _, _, _⟩ : Has (partsOf (.semTake m sem)) .registers ∧ Has (partsOf (.semTake m
     sem)) .accum ∧ Has (partsOf (.semTake m sem)) .jobs ∧ Has (partsOf (.semTake m sem)) .faults ∧ Has (partsOf
     (.semTake m sem)) .intc ∧ Has (partsOf (.semTake m sem)) .host ∧ Has (partsOf (.semTake m sem)) .cpu ∧ Has
     (partsOf (.semTake m sem)) .cont ∧ Has (partsOf (.semTake m sem)) .sheet ∧ Has (partsOf (.semTake m sem)) .wake
     ∧ Has (partsOf (.semTake m sem)) .io := by
    (repeat' apply And.intro) <;> exact has_of rfl
  refine changesOnly_of_kept ?_
  simp only [kept_accessWrite, kept_semTake, implies_true]

theorem changes_semRelease (m : Master) (sem : Fin 32) {s t : State}
    (h : exec (.semRelease m sem) s = .next t) : changesOnly (partsOf (.semRelease m sem)) s t := by
  cases h
  obtain ⟨_, _, _, _, _, _, _, _, _, _, _, _⟩ : Has (partsOf (.semRelease m sem)) .registers ∧ Has (partsOf
     (.semRelease m sem)) .accum ∧ Has (partsOf (.semRelease m sem)) .jobs ∧ Has (partsOf (.semRelease m sem))
     .faults ∧ Has (partsOf (.semRelease m sem)) .intc ∧ Has (partsOf (.semRelease m sem)) .host ∧ Has (partsOf
     (.semRelease m sem)) .cpu ∧ Has (partsOf (.semRelease m sem)) .cont ∧ Has (partsOf (.semRelease m sem)) .sheet
     ∧ Has (partsOf (.semRelease m sem)) .wake ∧ Has (partsOf (.semRelease m sem)) .io ∧ Has (partsOf (.semRelease m
     sem)) .draws := by
    (repeat' apply And.intro) <;> exact has_of rfl
  refine changesOnly_of_kept ?_
  simp only [kept_accessWrite, kept_semRelease, implies_true]

theorem changes_ledgerRead (m : Master) {s t : State}
    (h : exec (.ledgerRead m) s = .next t) : changesOnly (partsOf (.ledgerRead m)) s t := by
  cases h
  obtain ⟨_, _, _, _, _⟩ : Has (partsOf (.ledgerRead m)) .registers ∧ Has (partsOf (.ledgerRead m)) .accum ∧ Has
     (partsOf (.ledgerRead m)) .host ∧ Has (partsOf (.ledgerRead m)) .cpu ∧ Has (partsOf (.ledgerRead m)) .io := by
    (repeat' apply And.intro) <;> exact has_of rfl
  refine changesOnly_of_kept ?_
  simp only [kept_accessRead, kept_ledgerTake, implies_true]

theorem changes_ringEnable (m : Master) (r : Fin 64) (w : Word) {s t : State}
    (h : exec (.ringEnable m r w) s = .next t) : changesOnly (partsOf (.ringEnable m r w)) s t := by
  cases h
  obtain ⟨_, _, _, _, _, _, _, _, _, _, _⟩ : Has (partsOf (.ringEnable m r w)) .registers ∧ Has (partsOf
     (.ringEnable m r w)) .accum ∧ Has (partsOf (.ringEnable m r w)) .jobs ∧ Has (partsOf (.ringEnable m r w))
     .faults ∧ Has (partsOf (.ringEnable m r w)) .intc ∧ Has (partsOf (.ringEnable m r w)) .host ∧ Has (partsOf
     (.ringEnable m r w)) .cpu ∧ Has (partsOf (.ringEnable m r w)) .cont ∧ Has (partsOf (.ringEnable m r w)) .sheet
     ∧ Has (partsOf (.ringEnable m r w)) .wake ∧ Has (partsOf (.ringEnable m r w)) .io := by
    (repeat' apply And.intro) <;> exact has_of rfl
  refine changesOnly_of_kept ?_
  simp only [kept_accessWrite, kept_ringConfig, implies_true]

theorem changes_ringTail (m : Master) (r : Fin 64) (w : Word) (descs : List Descriptor) {s t : State}
    (h : exec (.ringTail m r w descs) s = .next t) : changesOnly (partsOf (.ringTail m r w descs)) s t := by
  cases h
  obtain ⟨_, _, _, _, _, _, _, _, _, _, _⟩ : Has (partsOf (.ringTail m r w descs)) .registers ∧ Has (partsOf
     (.ringTail m r w descs)) .accum ∧ Has (partsOf (.ringTail m r w descs)) .jobs ∧ Has (partsOf (.ringTail m r w
     descs)) .faults ∧ Has (partsOf (.ringTail m r w descs)) .intc ∧ Has (partsOf (.ringTail m r w descs)) .host ∧
     Has (partsOf (.ringTail m r w descs)) .cpu ∧ Has (partsOf (.ringTail m r w descs)) .cont ∧ Has (partsOf
     (.ringTail m r w descs)) .sheet ∧ Has (partsOf (.ringTail m r w descs)) .wake ∧ Has (partsOf (.ringTail m r w
     descs)) .io := by
    (repeat' apply And.intro) <;> exact has_of rfl
  refine changesOnly_of_kept ?_
  simp only [kept_accessWrite, kept_ringTailWrite, implies_true]

theorem changes_txFetch (stalled : Bool) {s t : State}
    (h : exec (.txFetch stalled) s = .next t) : changesOnly (partsOf (.txFetch stalled)) s t := by
  cases h
  exact changesOnly_of_kept (@kept_txFetch _ (has_of rfl) (has_of rfl) (has_of rfl) (has_of rfl) _ _)

theorem changes_txFetchDone (result : FetchResult) {s t : State}
    (h : exec (.txFetchDone result) s = .next t) : changesOnly (partsOf (.txFetchDone result)) s t := by
  cases h
  refine changesOnly_of_kept (@kept_txFetchDone _ ?_ ?_ ?_ ?_ ?_ ?_ _ _) <;> exact has_of rfl

theorem changes_txCompletion (r : Fin 64) {s t : State}
    (h : exec (.txCompletion r) s = .next t) : changesOnly (partsOf (.txCompletion r)) s t := by
  cases h
  exact changesOnly_of_kept (@kept_txCompletion _ (has_of rfl) (has_of rfl) (has_of rfl) (has_of rfl) _ _)

theorem changes_modTimer (r : Fin 64) {s t : State}
    (h : exec (.modTimer r) s = .next t) : changesOnly (partsOf (.modTimer r)) s t := by
  cases h
  exact changesOnly_of_kept (@kept_modTimer _ (has_of rfl) (has_of rfl) (has_of rfl) (has_of rfl) _ _)

theorem changes_peWakeRelease {s t : State}
    (h : exec .peWakeRelease s = .next t) : changesOnly (partsOf .peWakeRelease) s t := by
  cases h
  exact changesOnly_of_kept (@kept_peWakeTimeout _ (has_of rfl) (has_of rfl) _)

theorem changes_spiWrite (addr : Nat) (words : List Word) {s t : State}
    (h : exec (.spiWrite addr words) s = .next t) : changesOnly (partsOf (.spiWrite addr words)) s t := by
  cases h
  refine changesOnly_of_kept (@kept_spiWrite _ ?_ ?_ ?_ ?_ ?_ ?_ ?_ ?_ ?_ ?_ ?_ ?_ ?_ ?_ ?_ ?_ ?_ ?_ ?_ ?_ ?_ ?_ ?_
    ?_ ?_ ?_ ?_ ?_ _ _ _) <;> exact has_of rfl

theorem changes_spiRead (addr : Nat) (n : Nat) {s t : State}
    (h : exec (.spiRead addr n) s = .next t) : changesOnly (partsOf (.spiRead addr n)) s t := by
  cases h
  refine changesOnly_of_kept (@kept_spiRead _ ?_ ?_ ?_ ?_ ?_ ?_ ?_ ?_ ?_ ?_ _ _ _) <;> exact has_of rfl

theorem changes_hWrite (off : Nat) (words : Granted (List Word)) {s t : State}
    (h : exec (.hWrite off words) s = .next t) : changesOnly (partsOf (.hWrite off words)) s t := by
  cases h
  refine changesOnly_of_kept (@kept_hWrite _ ?_ ?_ ?_ ?_ ?_ ?_ ?_ ?_ ?_ ?_ ?_ ?_ ?_ ?_ ?_ ?_ ?_ ?_ ?_ ?_ ?_ ?_ ?_ ?_
    ?_ ?_ _ _ _ _ _) <;> exact has_of rfl

theorem changes_hRead (off : Nat) (n : Granted Nat) {s t : State}
    (h : exec (.hRead off n) s = .next t) : changesOnly (partsOf (.hRead off n)) s t := by
  cases h
  refine changesOnly_of_kept (@kept_hRead _ ?_ ?_ ?_ ?_ ?_ ?_ ?_ ?_ ?_ ?_ ?_ _ _ _ _ _) <;> exact has_of rfl

theorem changes_spiStatus {s t : State}
    (h : exec .spiStatus s = .next t) : changesOnly (partsOf .spiStatus) s t := by
  cases h
  exact changesOnly_of_kept (@kept_spiStatus _ (has_of rfl) (has_of rfl) (has_of rfl) _)

theorem changes_spiUnknownOpcode (op : Byte) {s t : State}
    (h : exec (.spiUnknownOpcode op) s = .next t) : changesOnly (partsOf (.spiUnknownOpcode op)) s t := by
  cases h
  exact changesOnly_of_kept rfl

theorem changes_spiAbort (w : Option SpiWriteOp) (whole : Nat) {s t : State}
    (h : exec (.spiAbort w whole) s = .next t) : changesOnly (partsOf (.spiAbort w whole)) s t := by
  cases h
  refine changesOnly_of_kept (@kept_spiAbort _ ?_ ?_ ?_ ?_ ?_ ?_ ?_ ?_ ?_ ?_ ?_ ?_ ?_ ?_ ?_ ?_ ?_ ?_ ?_ ?_ ?_ ?_ ?_
    ?_ ?_ ?_ ?_ ?_ ?_ _ _ _) <;> exact has_of rfl

theorem changes_doorbell (m : Master) (w : Word) {s t : State}
    (h : exec (.doorbell m w) s = .next t) : changesOnly (partsOf (.doorbell m w)) s t := by
  cases h
  obtain ⟨_, _, _, _, _, _, _, _, _, _, _⟩ : Has (partsOf (.doorbell m w)) .registers ∧ Has (partsOf (.doorbell m
     w)) .accum ∧ Has (partsOf (.doorbell m w)) .jobs ∧ Has (partsOf (.doorbell m w)) .faults ∧ Has (partsOf
     (.doorbell m w)) .intc ∧ Has (partsOf (.doorbell m w)) .host ∧ Has (partsOf (.doorbell m w)) .cpu ∧ Has
     (partsOf (.doorbell m w)) .cont ∧ Has (partsOf (.doorbell m w)) .sheet ∧ Has (partsOf (.doorbell m w)) .wake ∧
     Has (partsOf (.doorbell m w)) .io := by
    (repeat' apply And.intro) <;> exact has_of rfl
  refine changesOnly_of_kept ?_
  simp only [kept_accessWrite, kept_doorbellWrite, implies_true]

theorem changes_claimN (m : Master) {s t : State}
    (h : exec (.claimN m) s = .next t) : changesOnly (partsOf (.claimN m)) s t := by
  cases h
  obtain ⟨_, _, _, _, _⟩ : Has (partsOf (.claimN m)) .registers ∧ Has (partsOf (.claimN m)) .accum ∧ Has (partsOf
     (.claimN m)) .intc ∧ Has (partsOf (.claimN m)) .cpu ∧ Has (partsOf (.claimN m)) .io := by
    (repeat' apply And.intro) <;> exact has_of rfl
  refine changesOnly_of_kept ?_
  simp only [kept_accessRead, kept_claim, implies_true]

theorem changes_claimF (m : Master) {s t : State}
    (h : exec (.claimF m) s = .next t) : changesOnly (partsOf (.claimF m)) s t := by
  cases h
  obtain ⟨_, _, _, _, _⟩ : Has (partsOf (.claimF m)) .registers ∧ Has (partsOf (.claimF m)) .accum ∧ Has (partsOf
     (.claimF m)) .intc ∧ Has (partsOf (.claimF m)) .cpu ∧ Has (partsOf (.claimF m)) .io := by
    (repeat' apply And.intro) <;> exact has_of rfl
  refine changesOnly_of_kept ?_
  simp only [kept_accessRead, kept_claim, implies_true]

theorem changes_completeN (m : Master) (w : Word) {s t : State}
    (h : exec (.completeN m w) s = .next t) : changesOnly (partsOf (.completeN m w)) s t := by
  cases h
  obtain ⟨_, _, _, _, _, _, _, _, _, _, _⟩ : Has (partsOf (.completeN m w)) .registers ∧ Has (partsOf (.completeN m
     w)) .accum ∧ Has (partsOf (.completeN m w)) .jobs ∧ Has (partsOf (.completeN m w)) .faults ∧ Has (partsOf
     (.completeN m w)) .intc ∧ Has (partsOf (.completeN m w)) .host ∧ Has (partsOf (.completeN m w)) .cpu ∧ Has
     (partsOf (.completeN m w)) .cont ∧ Has (partsOf (.completeN m w)) .sheet ∧ Has (partsOf (.completeN m w)) .wake
     ∧ Has (partsOf (.completeN m w)) .io := by
    (repeat' apply And.intro) <;> exact has_of rfl
  refine changesOnly_of_kept ?_
  simp only [kept_accessWrite, kept_complete, implies_true]

theorem changes_completeF (m : Master) (w : Word) {s t : State}
    (h : exec (.completeF m w) s = .next t) : changesOnly (partsOf (.completeF m w)) s t := by
  cases h
  obtain ⟨_, _, _, _, _, _, _, _, _, _, _⟩ : Has (partsOf (.completeF m w)) .registers ∧ Has (partsOf (.completeF m
     w)) .accum ∧ Has (partsOf (.completeF m w)) .jobs ∧ Has (partsOf (.completeF m w)) .faults ∧ Has (partsOf
     (.completeF m w)) .intc ∧ Has (partsOf (.completeF m w)) .host ∧ Has (partsOf (.completeF m w)) .cpu ∧ Has
     (partsOf (.completeF m w)) .cont ∧ Has (partsOf (.completeF m w)) .sheet ∧ Has (partsOf (.completeF m w)) .wake
     ∧ Has (partsOf (.completeF m w)) .io := by
    (repeat' apply And.intro) <;> exact has_of rfl
  refine changesOnly_of_kept ?_
  simp only [kept_accessWrite, kept_complete, implies_true]

theorem changes_srcCfgEn (m : Master) (n : Fin 2048) (en : Bool) {s t : State}
    (h : exec (.srcCfgEn m n en) s = .next t) : changesOnly (partsOf (.srcCfgEn m n en)) s t := by
  cases h
  obtain ⟨_, _, _, _, _, _, _, _, _, _, _⟩ : Has (partsOf (.srcCfgEn m n en)) .registers ∧ Has (partsOf (.srcCfgEn m
     n en)) .accum ∧ Has (partsOf (.srcCfgEn m n en)) .jobs ∧ Has (partsOf (.srcCfgEn m n en)) .faults ∧ Has
     (partsOf (.srcCfgEn m n en)) .intc ∧ Has (partsOf (.srcCfgEn m n en)) .host ∧ Has (partsOf (.srcCfgEn m n en))
     .cpu ∧ Has (partsOf (.srcCfgEn m n en)) .cont ∧ Has (partsOf (.srcCfgEn m n en)) .sheet ∧ Has (partsOf
     (.srcCfgEn m n en)) .wake ∧ Has (partsOf (.srcCfgEn m n en)) .io := by
    (repeat' apply And.intro) <;> exact has_of rfl
  refine changesOnly_of_kept ?_
  simp only [kept_accessWrite, kept_srcCfgEn, implies_true]

theorem changes_fcAck (m : Master) (w : Word) {s t : State}
    (h : exec (.fcAck m w) s = .next t) : changesOnly (partsOf (.fcAck m w)) s t := by
  cases h
  obtain ⟨_, _, _, _, _, _, _, _, _, _, _⟩ : Has (partsOf (.fcAck m w)) .registers ∧ Has (partsOf (.fcAck m w))
     .accum ∧ Has (partsOf (.fcAck m w)) .jobs ∧ Has (partsOf (.fcAck m w)) .faults ∧ Has (partsOf (.fcAck m w))
     .intc ∧ Has (partsOf (.fcAck m w)) .host ∧ Has (partsOf (.fcAck m w)) .cpu ∧ Has (partsOf (.fcAck m w)) .cont ∧
     Has (partsOf (.fcAck m w)) .sheet ∧ Has (partsOf (.fcAck m w)) .wake ∧ Has (partsOf (.fcAck m w)) .io := by
    (repeat' apply And.intro) <;> exact has_of rfl
  refine changesOnly_of_kept ?_
  simp only [kept_accessWrite, kept_fcAckWrite, implies_true]

theorem changes_ovfAck (m : Master) {s t : State}
    (h : exec (.ovfAck m) s = .next t) : changesOnly (partsOf (.ovfAck m)) s t := by
  cases h
  obtain ⟨_, _, _, _, _, _, _, _, _, _, _⟩ : Has (partsOf (.ovfAck m)) .registers ∧ Has (partsOf (.ovfAck m)) .accum
     ∧ Has (partsOf (.ovfAck m)) .jobs ∧ Has (partsOf (.ovfAck m)) .faults ∧ Has (partsOf (.ovfAck m)) .intc ∧ Has
     (partsOf (.ovfAck m)) .host ∧ Has (partsOf (.ovfAck m)) .cpu ∧ Has (partsOf (.ovfAck m)) .cont ∧ Has (partsOf
     (.ovfAck m)) .sheet ∧ Has (partsOf (.ovfAck m)) .wake ∧ Has (partsOf (.ovfAck m)) .io := by
    (repeat' apply And.intro) <;> exact has_of rfl
  refine changesOnly_of_kept ?_
  simp only [kept_accessWrite, kept_ovfAckWrite, implies_true]

theorem changes_faultEscalation {s t : State}
    (h : exec .faultEscalation s = .next t) : changesOnly (partsOf .faultEscalation) s t := by
  obtain rfl : Sys2Proof.Machine.faultEscalation s = t := Host.Outcome.next.inj h
  refine changesOnly_of_kept (@kept_faultEscalation _ ?_ ?_ ?_ ?_ ?_ ?_ ?_ ?_ ?_ _) <;> exact has_of rfl

theorem changes_snapCtlReq (m : Master) {s t : State}
    (h : exec (.snapCtlReq m) s = .next t) : changesOnly (partsOf (.snapCtlReq m)) s t := by
  cases h
  obtain ⟨_, _, _, _, _, _, _, _, _, _, _, _⟩ : Has (partsOf (.snapCtlReq m)) .registers ∧ Has (partsOf (.snapCtlReq
     m)) .accum ∧ Has (partsOf (.snapCtlReq m)) .jobs ∧ Has (partsOf (.snapCtlReq m)) .faults ∧ Has (partsOf
     (.snapCtlReq m)) .intc ∧ Has (partsOf (.snapCtlReq m)) .host ∧ Has (partsOf (.snapCtlReq m)) .cpu ∧ Has
     (partsOf (.snapCtlReq m)) .cont ∧ Has (partsOf (.snapCtlReq m)) .sheet ∧ Has (partsOf (.snapCtlReq m)) .wake ∧
     Has (partsOf (.snapCtlReq m)) .cnt ∧ Has (partsOf (.snapCtlReq m)) .io := by
    (repeat' apply And.intro) <;> exact has_of rfl
  refine changesOnly_of_kept ?_
  simp only [kept_accessWrite, kept_snapRequest, implies_true]

theorem changes_dumpCapture {s t : State}
    (h : exec .dumpCapture s = .next t) : changesOnly (partsOf .dumpCapture) s t := by
  cases h
  refine changesOnly_of_kept (@kept_dumpCapture _ ?_ ?_ ?_ ?_ ?_ ?_ ?_ ?_ _) <;> exact has_of rfl

theorem changes_dumpWriteDone {s t : State}
    (h : exec .dumpWriteDone s = .next t) : changesOnly (partsOf .dumpWriteDone) s t := by
  cases h
  refine changesOnly_of_kept (@kept_dumpDone _ ?_ ?_ ?_ ?_ ?_ _) <;> exact has_of rfl

theorem changes_crCtlNow (m : Master) {s t : State}
    (h : exec (.crCtlNow m) s = .next t) : changesOnly (partsOf (.crCtlNow m)) s t := by
  cases h
  obtain ⟨_, _, _, _, _, _, _, _, _, _, _, _⟩ : Has (partsOf (.crCtlNow m)) .registers ∧ Has (partsOf (.crCtlNow m))
     .accum ∧ Has (partsOf (.crCtlNow m)) .jobs ∧ Has (partsOf (.crCtlNow m)) .faults ∧ Has (partsOf (.crCtlNow m))
     .intc ∧ Has (partsOf (.crCtlNow m)) .host ∧ Has (partsOf (.crCtlNow m)) .cpu ∧ Has (partsOf (.crCtlNow m))
     .cont ∧ Has (partsOf (.crCtlNow m)) .sheet ∧ Has (partsOf (.crCtlNow m)) .wake ∧ Has (partsOf (.crCtlNow m))
     .cnt ∧ Has (partsOf (.crCtlNow m)) .io := by
    (repeat' apply And.intro) <;> exact has_of rfl
  refine changesOnly_of_kept ?_
  simp only [kept_accessWrite, kept_copyRequest, implies_true]

theorem changes_imgErase (m : Master) {s t : State}
    (h : exec (.imgErase m) s = .next t) : changesOnly (partsOf (.imgErase m)) s t := by
  cases h
  obtain ⟨_, _, _, _, _, _, _, _, _, _, _, _, _, _⟩ : Has (partsOf (.imgErase m)) .registers ∧ Has (partsOf
     (.imgErase m)) .accum ∧ Has (partsOf (.imgErase m)) .jobs ∧ Has (partsOf (.imgErase m)) .epochs ∧ Has (partsOf
     (.imgErase m)) .faults ∧ Has (partsOf (.imgErase m)) .intc ∧ Has (partsOf (.imgErase m)) .host ∧ Has (partsOf
     (.imgErase m)) .cpu ∧ Has (partsOf (.imgErase m)) .cont ∧ Has (partsOf (.imgErase m)) .img ∧ Has (partsOf
     (.imgErase m)) .vault ∧ Has (partsOf (.imgErase m)) .sheet ∧ Has (partsOf (.imgErase m)) .wake ∧ Has (partsOf
     (.imgErase m)) .io := by
    (repeat' apply And.intro) <;> exact has_of rfl
  refine changesOnly_of_kept ?_
  simp only [kept_accessWrite, kept_imgCtl, implies_true]

theorem changes_imgEraseDone {s t : State}
    (h : exec .imgEraseDone s = .next t) : changesOnly (partsOf .imgEraseDone) s t := by
  cases h
  exact changesOnly_of_kept (@kept_imgEraseDone _ (has_of rfl) (has_of rfl) (has_of rfl) _)

theorem changes_imgWrite (m : Master) {s t : State}
    (h : exec (.imgWrite m) s = .next t) : changesOnly (partsOf (.imgWrite m)) s t := by
  cases h
  obtain ⟨_, _, _, _, _, _, _, _, _, _, _, _, _, _⟩ : Has (partsOf (.imgWrite m)) .registers ∧ Has (partsOf
     (.imgWrite m)) .accum ∧ Has (partsOf (.imgWrite m)) .jobs ∧ Has (partsOf (.imgWrite m)) .epochs ∧ Has (partsOf
     (.imgWrite m)) .faults ∧ Has (partsOf (.imgWrite m)) .intc ∧ Has (partsOf (.imgWrite m)) .host ∧ Has (partsOf
     (.imgWrite m)) .cpu ∧ Has (partsOf (.imgWrite m)) .cont ∧ Has (partsOf (.imgWrite m)) .img ∧ Has (partsOf
     (.imgWrite m)) .vault ∧ Has (partsOf (.imgWrite m)) .sheet ∧ Has (partsOf (.imgWrite m)) .wake ∧ Has (partsOf
     (.imgWrite m)) .io := by
    (repeat' apply And.intro) <;> exact has_of rfl
  refine changesOnly_of_kept ?_
  simp only [kept_accessWrite, kept_imgCtl, implies_true]

theorem changes_imgWriteDone {s t : State}
    (h : exec .imgWriteDone s = .next t) : changesOnly (partsOf .imgWriteDone) s t := by
  cases h
  exact changesOnly_of_kept (@kept_imgWriteDone _ (has_of rfl) (has_of rfl) (has_of rfl) _)

theorem changes_imgVerify (m : Master) {s t : State}
    (h : exec (.imgVerify m) s = .next t) : changesOnly (partsOf (.imgVerify m)) s t := by
  cases h
  obtain ⟨_, _, _, _, _, _, _, _, _, _, _, _, _, _⟩ : Has (partsOf (.imgVerify m)) .registers ∧ Has (partsOf
     (.imgVerify m)) .accum ∧ Has (partsOf (.imgVerify m)) .jobs ∧ Has (partsOf (.imgVerify m)) .epochs ∧ Has
     (partsOf (.imgVerify m)) .faults ∧ Has (partsOf (.imgVerify m)) .intc ∧ Has (partsOf (.imgVerify m)) .host ∧
     Has (partsOf (.imgVerify m)) .cpu ∧ Has (partsOf (.imgVerify m)) .cont ∧ Has (partsOf (.imgVerify m)) .img ∧
     Has (partsOf (.imgVerify m)) .vault ∧ Has (partsOf (.imgVerify m)) .sheet ∧ Has (partsOf (.imgVerify m)) .wake
     ∧ Has (partsOf (.imgVerify m)) .io := by
    (repeat' apply And.intro) <;> exact has_of rfl
  refine changesOnly_of_kept ?_
  simp only [kept_accessWrite, kept_imgCtl, implies_true]

theorem changes_imgVerifyDone {s t : State}
    (h : exec .imgVerifyDone s = .next t) : changesOnly (partsOf .imgVerifyDone) s t := by
  cases h
  exact changesOnly_of_kept (@kept_imgVerifyDone _ (has_of rfl) (has_of rfl) (has_of rfl) (has_of rfl) _)

theorem changes_castle (m : Master) {s t : State}
    (h : exec (.castle m) s = .next t) : changesOnly (partsOf (.castle m)) s t := by
  cases h
  obtain ⟨_, _, _, _, _, _, _, _, _, _, _, _, _, _⟩ : Has (partsOf (.castle m)) .registers ∧ Has (partsOf (.castle
     m)) .accum ∧ Has (partsOf (.castle m)) .jobs ∧ Has (partsOf (.castle m)) .epochs ∧ Has (partsOf (.castle m))
     .faults ∧ Has (partsOf (.castle m)) .intc ∧ Has (partsOf (.castle m)) .host ∧ Has (partsOf (.castle m)) .cpu ∧
     Has (partsOf (.castle m)) .cont ∧ Has (partsOf (.castle m)) .img ∧ Has (partsOf (.castle m)) .vault ∧ Has
     (partsOf (.castle m)) .sheet ∧ Has (partsOf (.castle m)) .wake ∧ Has (partsOf (.castle m)) .io := by
    (repeat' apply And.intro) <;> exact has_of rfl
  refine changesOnly_of_kept ?_
  simp only [kept_accessWrite, kept_imgCtl, implies_true]

theorem changes_castlingLoadDone (digestsOk : Bool) {s t : State}
    (h : exec (.castlingLoadDone digestsOk) s = .next t) : changesOnly (partsOf (.castlingLoadDone digestsOk)) s t := by
  cases h
  refine changesOnly_of_kept (@kept_castlingLoadDone _ ?_ ?_ ?_ ?_ _ _) <;> exact has_of rfl

theorem changes_spWindowStart {s t : State}
    (h : exec .spWindowStart s = .next t) : changesOnly (partsOf .spWindowStart) s t := by
  cases h
  exact changesOnly_of_kept (@kept_spWindowStart _ (has_of rfl) (has_of rfl) (has_of rfl) (has_of rfl) _)

theorem changes_spReady {s t : State}
    (h : exec .spReady s = .next t) : changesOnly (partsOf .spReady) s t := by
  cases h
  exact changesOnly_of_kept (@kept_spReady _ (has_of rfl) _)

theorem changes_spWindowExpiry {s t : State}
    (h : exec .spWindowExpiry s = .next t) : changesOnly (partsOf .spWindowExpiry) s t := by
  cases h
  exact changesOnly_of_kept (@kept_spWindowExpiry _ (has_of rfl) _)

theorem changes_castlingTimeout {s t : State}
    (h : exec .castlingTimeout s = .next t) : changesOnly (partsOf .castlingTimeout) s t := by
  cases h
  refine changesOnly_of_kept (@kept_castlingTimeout _ ?_ ?_ ?_ ?_ ?_ ?_ ?_ ?_ ?_ ?_ ?_ ?_ ?_ _) <;> exact has_of rfl

theorem changes_imgAbort (m : Master) {s t : State}
    (h : exec (.imgAbort m) s = .next t) : changesOnly (partsOf (.imgAbort m)) s t := by
  cases h
  obtain ⟨_, _, _, _, _, _, _, _, _, _, _, _, _, _⟩ : Has (partsOf (.imgAbort m)) .registers ∧ Has (partsOf
     (.imgAbort m)) .accum ∧ Has (partsOf (.imgAbort m)) .jobs ∧ Has (partsOf (.imgAbort m)) .epochs ∧ Has (partsOf
     (.imgAbort m)) .faults ∧ Has (partsOf (.imgAbort m)) .intc ∧ Has (partsOf (.imgAbort m)) .host ∧ Has (partsOf
     (.imgAbort m)) .cpu ∧ Has (partsOf (.imgAbort m)) .cont ∧ Has (partsOf (.imgAbort m)) .img ∧ Has (partsOf
     (.imgAbort m)) .vault ∧ Has (partsOf (.imgAbort m)) .sheet ∧ Has (partsOf (.imgAbort m)) .wake ∧ Has (partsOf
     (.imgAbort m)) .io := by
    (repeat' apply And.intro) <;> exact has_of rfl
  refine changesOnly_of_kept ?_
  simp only [kept_accessWrite, kept_imgCtl, implies_true]

theorem changes_imgRecover (m : Master) {s t : State}
    (h : exec (.imgRecover m) s = .next t) : changesOnly (partsOf (.imgRecover m)) s t := by
  cases h
  obtain ⟨_, _, _, _, _, _, _, _, _, _, _, _, _, _⟩ : Has (partsOf (.imgRecover m)) .registers ∧ Has (partsOf
     (.imgRecover m)) .accum ∧ Has (partsOf (.imgRecover m)) .jobs ∧ Has (partsOf (.imgRecover m)) .epochs ∧ Has
     (partsOf (.imgRecover m)) .faults ∧ Has (partsOf (.imgRecover m)) .intc ∧ Has (partsOf (.imgRecover m)) .host ∧
     Has (partsOf (.imgRecover m)) .cpu ∧ Has (partsOf (.imgRecover m)) .cont ∧ Has (partsOf (.imgRecover m)) .img ∧
     Has (partsOf (.imgRecover m)) .vault ∧ Has (partsOf (.imgRecover m)) .sheet ∧ Has (partsOf (.imgRecover m))
     .wake ∧ Has (partsOf (.imgRecover m)) .io := by
    (repeat' apply And.intro) <;> exact has_of rfl
  refine changesOnly_of_kept ?_
  simp only [kept_accessWrite, kept_imgCtl, implies_true]

theorem changes_recoveryErase (slotB : Bool) {s t : State}
    (h : exec (.recoveryErase slotB) s = .next t) : changesOnly (partsOf (.recoveryErase slotB)) s t := by
  cases h
  refine changesOnly_of_kept (@kept_mbCommand _ ?_ ?_ ?_ ?_ ?_ ?_ ?_ ?_ ?_ ?_ ?_ ?_ ?_ ?_ ?_ ?_ ?_ ?_ ?_ ?_ ?_ ?_ ?_
    ?_ ?_ ?_ _ _ _ _ _) <;> exact has_of rfl

theorem changes_recoveryWrite (slotB : Bool) (off : Nat) (len : Nat) {s t : State}
    (h : exec (.recoveryWrite slotB off len) s = .next t) : changesOnly (partsOf (.recoveryWrite slotB off len)) s t := by
  cases h
  refine changesOnly_of_kept (@kept_mbCommand _ ?_ ?_ ?_ ?_ ?_ ?_ ?_ ?_ ?_ ?_ ?_ ?_ ?_ ?_ ?_ ?_ ?_ ?_ ?_ ?_ ?_ ?_ ?_
    ?_ ?_ ?_ _ _ _ _ _) <;> exact has_of rfl

theorem changes_recoveryVerify (slotB : Bool) {s t : State}
    (h : exec (.recoveryVerify slotB) s = .next t) : changesOnly (partsOf (.recoveryVerify slotB)) s t := by
  cases h
  refine changesOnly_of_kept (@kept_mbCommand _ ?_ ?_ ?_ ?_ ?_ ?_ ?_ ?_ ?_ ?_ ?_ ?_ ?_ ?_ ?_ ?_ ?_ ?_ ?_ ?_ ?_ ?_ ?_
    ?_ ?_ ?_ _ _ _ _ _) <;> exact has_of rfl

theorem changes_recoveryBoot (slotB : Bool) {s t : State}
    (h : exec (.recoveryBoot slotB) s = .next t) : changesOnly (partsOf (.recoveryBoot slotB)) s t := by
  cases h
  refine changesOnly_of_kept (@kept_mbCommand _ ?_ ?_ ?_ ?_ ?_ ?_ ?_ ?_ ?_ ?_ ?_ ?_ ?_ ?_ ?_ ?_ ?_ ?_ ?_ ?_ ?_ ?_ ?_
    ?_ ?_ ?_ _ _ _ _ _) <;> exact has_of rfl

theorem changes_powerOn {s t : State}
    (h : exec .powerOn s = .next t) : changesOnly (partsOf .powerOn) s t := by
  cases h
  exact changesOnly_of_kept (@kept_powerOn _ (has_of rfl) (has_of rfl) _)

theorem changes_railsGood (straps : Straps) {s t : State}
    (h : exec (.railsGood straps) s = .next t) : changesOnly (partsOf (.railsGood straps)) s t := by
  cases h
  refine changesOnly_of_kept (@kept_railsGood _ ?_ ?_ ?_ ?_ ?_ ?_ _ _) <;> exact has_of rfl

theorem changes_memoryInitDone (fail : MemInitFail) {s t : State}
    (h : exec (.memoryInitDone fail) s = .next t) : changesOnly (partsOf (.memoryInitDone fail)) s t := by
  cases h
  refine changesOnly_of_kept (@kept_memoryInitDone _ ?_ ?_ ?_ ?_ _ _) <;> exact has_of rfl

theorem changes_imagePassDone (keyCopies : List (Fin 2)) (saves : List (Fin 64)) {s t : State}
    (h : exec (.imagePassDone keyCopies saves) s = .next t) : changesOnly (partsOf (.imagePassDone keyCopies saves)) s t := by
  cases h
  refine changesOnly_of_kept (@kept_imagePassDone _ ?_ ?_ ?_ ?_ ?_ ?_ ?_ ?_ ?_ ?_ ?_ ?_ ?_ ?_ ?_ ?_ ?_ ?_ ?_ ?_ ?_ _
    _) <;> exact has_of rfl

theorem changes_calibrationDone (ports : List (Fin 48)) (channels : List (Fin 16)) {s t : State}
    (h : exec (.calibrationDone ports channels) s = .next t) : changesOnly (partsOf (.calibrationDone ports channels)) s t := by
  cases h
  exact changesOnly_of_kept (@kept_calibrationDone _ (has_of rfl) (has_of rfl) (has_of rfl) _ _ _)

theorem changes_resetNAssert (ns : Nat) {s t : State}
    (h : exec (.resetNAssert ns) s = .next t) : changesOnly (partsOf (.resetNAssert ns)) s t := by
  cases h
  refine changesOnly_of_kept (@kept_resetAssert _ ?_ ?_ ?_ ?_ ?_ ?_ ?_ ?_ ?_ ?_ ?_ ?_ ?_ ?_ ?_ ?_ ?_ ?_ ?_ ?_ ?_ ?_
    ?_ ?_ ?_ _ _) <;> exact has_of rfl

theorem changes_resetNRelease (straps : Straps) {s t : State}
    (h : exec (.resetNRelease straps) s = .next t) : changesOnly (partsOf (.resetNRelease straps)) s t := by
  cases h
  refine changesOnly_of_kept (@kept_resetRelease _ ?_ ?_ ?_ ?_ ?_ ?_ _ _) <;> exact has_of rfl

theorem changes_resetReq (m : Master) (w : Word) {s t : State}
    (h : exec (.resetReq m w) s = .next t) : changesOnly (partsOf (.resetReq m w)) s t := by
  cases h
  refine changesOnly_of_kept (@kept_resetReq _ ?_ ?_ ?_ ?_ ?_ ?_ ?_ ?_ ?_ ?_ ?_ ?_ ?_ ?_ ?_ ?_ ?_ ?_ ?_ ?_ ?_ ?_ ?_
    ?_ _ _ _) <;> exact has_of rfl

theorem changes_thermalTrip {s t : State}
    (h : exec .thermalTrip s = .next t) : changesOnly (partsOf .thermalTrip) s t := by
  cases h
  refine changesOnly_of_kept (@kept_thermalTrip _ ?_ ?_ ?_ ?_ ?_ ?_ ?_ ?_ ?_ ?_ ?_ ?_ ?_ ?_ ?_ ?_ ?_ ?_ ?_ ?_ ?_ ?_
    ?_ ?_ _) <;> exact has_of rfl

theorem changes_thermalTripClear {s t : State}
    (h : exec .thermalTripClear s = .next t) : changesOnly (partsOf .thermalTripClear) s t := by
  cases h
  refine changesOnly_of_kept (@kept_thermalClear _ ?_ ?_ ?_ ?_ ?_ ?_ _) <;> exact has_of rfl

theorem changes_registerRead (m : Asking) (addr : Nat) (size : Nat) {s t : State}
    (h : exec (.registerRead m addr size) s = .next t) : changesOnly (partsOf (.registerRead m addr size)) s t := by
  cases h
  obtain ⟨_, _, _, _, _, _, _, _, _, _⟩ : Has (partsOf (.registerRead m addr size)) .registers ∧ Has (partsOf
     (.registerRead m addr size)) .accum ∧ Has (partsOf (.registerRead m addr size)) .intc ∧ Has (partsOf
     (.registerRead m addr size)) .host ∧ Has (partsOf (.registerRead m addr size)) .cpu ∧ Has (partsOf
     (.registerRead m addr size)) .frames ∧ Has (partsOf (.registerRead m addr size)) .tm ∧ Has (partsOf
     (.registerRead m addr size)) .wake ∧ Has (partsOf (.registerRead m addr size)) .io ∧ Has (partsOf
     (.registerRead m addr size)) .draws := by
    (repeat' apply And.intro) <;> exact has_of rfl
  refine changesOnly_of_kept ?_
  simp only [kept_registerRead, kept_ite, ite_self]

theorem changes_thermalWarning (sensor : Fin 4) (temp : Int) {s t : State}
    (h : exec (.thermalWarning sensor temp) s = .next t) : changesOnly (partsOf (.thermalWarning sensor temp)) s t := by
  cases h
  exact changesOnly_of_kept (@kept_thermalWarning _ (has_of rfl) _ _ _)

theorem changes_wakePinRelease (pin : Fin 4) {s t : State}
    (h : exec (.wakePinRelease pin) s = .next t) : changesOnly (partsOf (.wakePinRelease pin)) s t := by
  cases h
  exact changesOnly_of_kept (@kept_wakePinRelease _ (has_of rfl) _ _)

theorem changes_outboundReadCompletion (c : Fin 4) (res : ReadCompletion) {s t : State}
    (h : exec (.outboundReadCompletion c res) s = .next t) : changesOnly (partsOf (.outboundReadCompletion c res)) s t := by
  cases h
  exact changesOnly_of_kept (@kept_readCompletion _ (has_of rfl) (has_of rfl) _ _ _)

theorem changes_aspmL1Entry (st : Fin 4) {s t : State}
    (h : exec (.aspmL1Entry st) s = .next t) : changesOnly (partsOf (.aspmL1Entry st)) s t := by
  cases h
  exact changesOnly_of_kept (@kept_aspmEntry _ (has_of rfl) _ _)

theorem changes_msixVectorUnmask (v : Fin 80) {s t : State}
    (h : exec (.msixVectorUnmask v) s = .next t) : changesOnly (partsOf (.msixVectorUnmask v)) s t := by
  cases h
  exact changesOnly_of_kept (@kept_msixUnmask _ (has_of rfl) (has_of rfl) (has_of rfl) (has_of rfl) _ _)

theorem changes_recoveryCommandDone {s t : State}
    (h : exec .recoveryCommandDone s = .next t) : changesOnly (partsOf .recoveryCommandDone) s t := by
  cases h
  refine changesOnly_of_kept (@kept_recoveryDone _ ?_ ?_ ?_ ?_ ?_ ?_ ?_ ?_ ?_ ?_ ?_ ?_ ?_ ?_ ?_ ?_ ?_ ?_ ?_ ?_ ?_ ?_
    ?_ ?_ ?_ ?_ _) <;> exact has_of rfl

theorem changes_syncInterval (dom : Domain) (p : Fin 48) (asGm : Bool) {s t : State}
    (h : exec (.syncInterval dom p asGm) s = .next t) : changesOnly (partsOf (.syncInterval dom p asGm)) s t := by
  cases h
  refine changesOnly_of_kept (@kept_syncInterval _ ?_ ?_ ?_ ?_ ?_ ?_ ?_ ?_ ?_ _ _ _ _) <;> exact has_of rfl

theorem changes_decoderFrame (ch : Fin 16) (err : Bool) {s t : State}
    (h : exec (.decoderFrame ch err) s = .next t) : changesOnly (partsOf (.decoderFrame ch err)) s t := by
  cases h
  exact changesOnly_of_kept (@kept_decoderFrame _ (has_of rfl) _ _ _)

end Sys2Proof.Machine
end

