-- ==== Sys2Proof/Tests/Slice0.lean ====
section
/-!
SUPPORT. Tests: the checks of well-formedness refuse an ill-formed term each, and for every obligation with hypotheses
a concrete state and operands that meet the hypotheses of each of its clauses.
-/
open Sys2Proof Sys2Proof.Machine
namespace Sys2Proof.Tests

set_option Elab.async false
set_option linter.unusedVariables false

/-- A device that forwards, with the PCIe link at rest. -/
def up : State :=
  { State.reset with boot.phase := .aloft, host.perstN := true, time.now := 10000000000, freeCtr := 5 }

/-- The same with P48 up. -/
def linked : State := putFlag (putFlag { up with host.msixEn := true } Reg.hbStatusDlActive true) Reg.hbStatusP48Up true

/-- A state with a policy record. -/
def withRec (s : State) (slot sect i : Nat) (b : List Byte) : State :=
  { s with env.policy := s.env.policy.set (recKey slot sect i) b }

/-- A state with a structural section. -/
def withStruct (s : State) (code : Nat) (b : List Byte) : State :=
  { s with env.structural := s.env.structural.set code b }

/-- Zero bytes but for those listed in ascending order, from a position on. -/
def bytesFrom (n at_ : Nat) : List (Nat × Nat) → List Byte
  | [] => zeros (n - at_)
  | (i, v) :: l => zeros (i - at_) ++ BitVec.ofNat 8 v :: bytesFrom n (i + 1) l

/-- Zero bytes but for those listed. -/
def bytesWith (n : Nat) (l : List (Nat × Nat)) : List Byte := bytesFrom n 0 l

/-- A state whose vault slot holds a key that every master may use. -/
def withKey (s : State) (i : Nat) : State :=
  { s with vault.slots := s.vault.slots.set i ⟨1, [1], [2], 0, 1, 0, false, 31, false, 31, 255, 3⟩ }

/-- A state in which the core GC1 owns the staging set. -/
def owned (s : State) : State := put s Reg.stageStatusOwner (ownerCode (.gc 1))

/-- A frame of zero bytes, whole, received on a port in slot 0. -/
def frameOn (p n : Nat) : Packet :=
  { bytes := zeros n, rxLen := n + 4, popped := 0, dei := false, port := p, slot := some 0, stamp := 7, written := n,
    tail := 1, come := true, ends := none, sec := none, hold := none, whole := true, preempt := false, directed := none, mgmtReq := false, tsReq := false, passes := 0, decided := false,
    decidedAt := 0, safety := false, mgmt := false, marked := false, fixed := false, tunnel := none, vid := 5, prio := 0, prov := 0,
    filter := none, charged := none, pool := 0, poolPort := 0, cells := 0, refs := 0, sent := false,
    slotCounted := false, route := none, routeOff := 0, needEnd := 0, avtpEnd := 0, ownMac := false,
    dropped := false }

/-- A frame held for its ICV check under vault slot 9. -/
def held : RxHold := ⟨4, 5, 9, 0, zeros 12, none, false, 8, 20⟩

/-- A conversation of UDP. -/
def conv0 : Conv := ⟨4, 5, 17, zeros 6, zeros 6, true, 6, 0, none, 0, 0⟩

/-- A frame of port 3 with all cells written and decided, admitted to no pool, one replica on leaf 2 of port 4. -/
def queued : State :=
  put { up with net.packets := [(9, { frameOn 3 100 with decided := true, refs := 1 })], net.nextUid := 10,
                net.queues := [(64 * 4 + 2, [⟨9, false, false, false, some 0⟩])] } (Reg.portStatusLink 4) 1

/-- A frame of 100 bytes as it comes from the wire, and one in transmission from leaf 2 for a line time. -/
def frame0 : WireFrame := ⟨zeros 100, false, none, false, false, false⟩
def tx0 (rest : Nat) : Tx :=
  ⟨⟨9, false, false, false, none⟩, 2, zeros 100, 124, 3, rest, 6, true, none, false, false, false, 0, 0, 0, none⟩

/-- A message of channel 3 that may be presented. -/
def shown : EdgeMsg := ⟨⟨.cc, 5, false, false, false, false, 0, 0, 0, false, [1, 2]⟩, 3, 0, 7, false, none, 1, false, true, none⟩

/-- A structural EDGES section with the bytes listed of channels and of bindings. -/
def withEdges (s : State) (ch bd : List (Nat × Nat)) : State :=
  withStruct s 0x0020 (bytesWith 4096 ch ++ bytesWith 144 bd)

/-- CAN channel 3, at 500 kbit/s with FD and XL, on its bus. -/
def onBus : State :=
  put { withStruct up 0x0020 (bytesWith 64 [(49, 1), (50, 3), (52, 0x20), (53, 0xA1), (54, 7)]) with
        edge.joined := [3] } (Reg.chStatusState 3) 1

/-- A classical CAN message and an output of it. -/
def msg0 : BusMsg := ⟨.cc, 5, false, false, false, false, 0, 0, 0, false, [1, 2]⟩
def out0 : QMsg := ⟨msg0, 0, 7, 9, 0, false, 1, false, none⟩

/-- A SecOC entry under vault slot 9: two authentic bytes, one byte of freshness value, one of the tag. -/
def secoc (flags : Nat) : List Byte :=
  bytesWith 48 [(0, flags), (4, 9), (12, 2), (14, 8), (15, 8), (18, 1), (24, 9), (28, 4)]

/-- A message of channel 3 that waits for its tag under SecOC entry 6. -/
def waits : EdgeMsg := ⟨{ msg0 with payload := [1, 2, 3, 4] }, 3, 0, 7, false, none, 1, false, false, some (6, 3, 0)⟩

/-- A LIN schedule of one slot, and its run awaiting two bytes of frame 5 since `at_`. -/
def table0 : List Byte := bytesWith 32 [(0, 1), (16, 5), (17, 1), (18, 2), (20, 1)]
def run0 (at_ : Nat) : LinRun := ⟨1, table0, 0, 9, at_, some (5, 2), none⟩

/-- A boundary in a phase of descent, 100 tempos after its start. -/
def descent (ph : Nat) : State :=
  put (put { up with time.tempoLocal := 10000000000 } Reg.tempoNum 100) Reg.pwrStatusPhase ph

/-- A device asleep, its decoder of channel 3 armed in a MODE, every wake source enabled. -/
def asleep (ph : Phase) (mode : Nat) : State :=
  { up with boot.phase := ph, wake.armed := true, wake.decoders := [(3, bytesWith 32 [(0, mode), (3, 2), (4, 5), (8, 255), (12, 255)])],
            wake.globals := bytesWith 64 [(0, 15), (9, 1), (10, 1), (13, 255), (24, 255), (48, 5)] }

/-- A state in boot-ROM recovery mode, tag 7 taken last. -/
def rescue : State := { up with boot.phase := .recovery, mem.bankH := [(5, 7), (17, 7)] }

/-- A message that has waited on channel 3 beyond its timeout. -/
def late : State :=
  withRec { onBus with edge.txq := [(3, [out0])] } 0 0x0300 3 (bytesWith 96 [(0, 1), (10, 1)])

/-- A CAN message that no check refuses, changed below to meet each. -/
theorem test_wellFormedAccepted :
    (Instr.canFrameReceive 3 msg0).wf = true ∧ (Instr.registerWrite ⟨.sp, []⟩ 0x1004 4 1).wf = true ∧
    (Instr.frameArrival 3 ⟨zeros 60, false, none, false, false, false⟩).wf = true ∧
    (Instr.bankAccess .sp .h 0 (.read 4) .clean [.mc]).wf = true ∧
    (Instr.spiAbort (some ⟨false, 0x1004, [1, 2]⟩) 1).wf = true := by decide

/-- Frames, messages and what channels bring: a short frame, identifiers, lengths and flags of another format, a LIN
frame on a CAN channel, LIN data and a wake-up message of a wrong length, an SERDES speed and a grandmaster too wide. -/
theorem test_illFormedTraffic :
    (Instr.frameArrival 3 ⟨zeros 13, false, none, false, false, false⟩).wf = false ∧
    (Instr.canFrameReceive 3 { msg0 with id := 2048 }).wf = false ∧
    (Instr.canFrameReceive 3 { msg0 with payload := zeros 9 }).wf = false ∧
    (Instr.canFrameReceive 3 { msg0 with rtr := true }).wf = false ∧
    (Instr.canFrameReceive 3 { msg0 with brs := true }).wf = false ∧
    (Instr.canFrameReceive 3 { msg0 with sdt := 1 }).wf = false ∧
    (Instr.canFrameReceive 3 { msg0 with format := .lin }).wf = false ∧
    (Instr.linResponse 3 [] 0).wf = false ∧
    (Instr.selectiveWake 3 (.wuf { msg0 with payload := zeros 9 })).wf = false ∧
    (Instr.serdesLinkUp 1 8).wf = false ∧ (Instr.acceptSync .wc (2 ^ 64) 0 0).wf = false := by decide

/-- Accesses: offsets, sizes and lengths out of their ranges, a master that waits for itself, a narrow atomic with a
wide operand, an exclusive access that is not aligned, a descriptor of the wrong length. -/
theorem test_illFormedAccesses :
    (Instr.registerWrite ⟨.sp, []⟩ (2 ^ 24) 4 1).wf = false ∧ (Instr.registerRead ⟨.sp, []⟩ 0 0).wf = false ∧
    (Instr.cmtWrite .sp 2 0).wf = false ∧ (Instr.cmtPeek .sp 3).wf = false ∧
    (Instr.dbgRead (2 ^ 32)).wf = false ∧ (Instr.dbgWrite (2 ^ 32) 0).wf = false ∧
    (Instr.bankAccess .sp .h 0 (.read 65) .clean []).wf = false ∧
    (Instr.bankAccess .sp .h 0 (.write []) .clean []).wf = false ∧
    (Instr.bankAccess .sp .h 0 (.read 4) .clean [.sp]).wf = false ∧
    (Instr.atomicAdd .sp .h 0 false ⟨BitVec.ofNat 64 (2 ^ 32), .clean, []⟩).wf = false ∧
    (Instr.atomicSwap .sp .h 0xC00000 true ⟨0, .clean, []⟩).wf = false ∧
    (Instr.atomicSwap .sp .s 0 true ⟨0, .uncorrectable 1, []⟩).wf = false ∧
    (Instr.patrolScrub .s [⟨.g, 0, false⟩]).wf = false ∧ (Instr.mooredScrub [⟨some .s, 4, false⟩]).wf = false ∧
    (Instr.gcOutboundWrite 0 0 [] false).wf = false ∧ (Instr.gcOutboundRead 0 0 4097 false).wf = false ∧
    (Instr.semExclusiveLoad 0 2 ⟨4, false⟩).wf = false ∧ (Instr.semExclusiveStore 0 0 ⟨[1], false⟩).wf = false ∧
    (Instr.ringTail .sp 0 0 [[1]]).wf = false ∧ (Instr.txFetchDone (.frame [])).wf = false ∧
    (Instr.outboundReadCompletion 0 (.data [])).wf = false := by decide

/-- The management port, jobs, supplies and recovery: runs of no word, an opcode that is one of R345, more whole words
than were sent, a body too long, readings and ranges no command brings. -/
theorem test_illFormedRest :
    (Instr.spiWrite 0 []).wf = false ∧ (Instr.spiRead 0 65).wf = false ∧ (Instr.hWrite (2 ^ 24) ⟨[0], .clean, []⟩).wf = false ∧
    (Instr.hRead 0 ⟨0, .clean, []⟩).wf = false ∧ (Instr.spiUnknownOpcode 0x0B).wf = false ∧ (Instr.spiAbort none 1).wf = false ∧
    (Instr.spiAbort (some ⟨false, 0, [1]⟩) 2).wf = false ∧
    (Instr.jobRequest 0 (.sbAppend 1 (zeros 65)) 1).wf = false ∧ (Instr.vbatLevelChange 10001).wf = false ∧
    (Instr.thermalWarning 0 1024).wf = false ∧ (Instr.coreMismatch (.delay (2 ^ 32))).wf = false ∧
    (Instr.recoveryWrite false (2 ^ 32) 0).wf = false := by decide

/-- Channel 24 bound to bridge 2, with one output waiting. -/
def packing : State :=
  { withEdges up [(384, 24), (385, 1), (398, 2), (399, 1)] [(96, 1), (126, 0xE8), (127, 3)] with
    edge.txq := [(24, [out0])] }

theorem u8_slice (l : List Byte) (o n k : Nat) (h : k < n) : u8 (slice l o n) k = u8 l (o + k) := by
  simp [u8, slice, h]

theorem zero_after (n m p i : Nat) (a b c d : Byte) (r : List Byte) (h : i < p) :
    ((zeros n ++ a :: b :: (zeros m ++ c :: d :: zeros p)) ++ r)[n + (m + (i + 2) + 2)]? = some 0 := by
  rw [List.getElem?_append_left (by simp [zeros]; omega), List.getElem?_append_right (by simp [zeros])]
  simp only [zeros, List.length_replicate, Nat.add_sub_cancel_left, List.getElem?_cons_succ]
  rw [List.getElem?_append_right (by simp)]
  simp [h]

/-- No channel of `packing` above 24 is declared. -/
theorem packing_quiet (k : Nat) (h : k < 231) : (edges packing).declared (k + 25) = false := by
  have e : (edges packing).sect 0x0020 = (zeros 384 ++ 24#8 :: 1#8 :: (zeros 12 ++ 2#8 :: 1#8 :: zeros 3696)) ++
      bytesWith 144 [(96, 1), (126, 0xE8), (127, 3)] := by rfl
  have h0 : ((edges packing).sect 0x0020)[16 * (k + 25) + 1]? = some 0 := by
    rw [e, show 16 * (k + 25) + 1 = 384 + (12 + (16 * k + 1 + 2) + 2) from by omega]
    exact zero_after _ _ _ _ _ _ _ _ _ (by omega)
  have h1 : (edges packing).chanKind (k + 25) = 0 := by
    unfold View.chanKind chanEntry
    rw [u8_slice _ _ _ _ (by omega)]
    unfold u8
    rw [h0]
    rfl
  unfold View.declared
  rw [h1]
  exact Bool.and_false _

/-- Only channel 24 names bridge 2. -/
theorem packing_binds : (edges packing).bindChans 2 = [24] := by
  have h0 : ((edges packing).declared (0 + 24) && u8 (chanEntry (edges packing) (0 + 24)) 14 == 2) = true := by
    decide +kernel
  unfold View.bindChans
  generalize hv : edges packing = v at h0
  have hq : ∀ k, k < 231 → v.declared (k + 25) = false := hv ▸ packing_quiet
  rw [show (232 : Nat) = 231 + 1 from rfl, List.range_succ_eq_map, List.filterMap_cons, h0]
  simp only [if_true, Nat.zero_add, List.cons.injEq, true_and]
  rw [List.filterMap_eq_nil_iff]
  simp only [List.mem_map, List.mem_range, forall_exists_index, and_imp]
  rintro _ k hk rfl
  rw [show k.succ + 24 = k + 25 from by omega, hq k hk]
  rfl

/-- The hypotheses of every clause of StepRunsTheFrontCommand are met. -/
theorem test_StepRunsTheFrontCommand :
  (∃ s : State, s.pending = []) :=
  ⟨up, rfl⟩

/-- The hypotheses of every clause of MemoriesStayCanonical are met. -/
theorem test_MemoriesStayCanonical :
  (∃ s t : State, s.mem.canonical = true ∧ step s = .next t) :=
  ⟨up, tick up, by decide +kernel, rfl⟩

/-- The hypotheses of every clause of LifeCycleMovesForward are met. -/
theorem test_LifeCycleMovesForward :
  (∃ s t : State, step s = .next t) :=
  ⟨up, tick up, rfl⟩

/-- The hypotheses of every clause of RevokedEnvelopeKeysStayRevoked are met. -/
theorem test_RevokedEnvelopeKeysStayRevoked :
  (∃ (s t : State) (i : Nat), step s = .next t ∧ s.otp.vkRevoked.testBit i = true) :=
  ⟨{ up with otp.vkRevoked := 2 }, tick { up with otp.vkRevoked := 2 }, 1, rfl, by decide⟩

/-- The hypotheses of every clause of EachCommandChangesItsPartsOnly are met. -/
theorem test_EachCommandChangesItsPartsOnly :
  (∃ (c : Instr) (s t : State), exec c s = .next t) ∧
  (∃ s t : State, s.pending = [] ∧ step s = .next t) :=
  ⟨⟨.fvSave [], up, fvSave up [], rfl⟩,
   ⟨up, tick up, rfl, rfl⟩⟩

/-- The hypotheses of every clause of PipelineCyclesAddUp are met. -/
theorem test_PipelineCyclesAddUp :
  (∃ s : State, slotsAddUp s) ∧
  (∃ s : State, aloft s = true ∧ cyclesAfter s.time.now = 1 ∧ s.net.slotUsed = 0 ∧
    anyReady (forIdx 5 coreTick s) = true) ∧
  (∃ s : State, aloft s = true ∧ cyclesAfter s.time.now = 1 ∧ s.net.slotUsed = 0 ∧
    anyReady (forIdx 5 coreTick s) = false) :=
  ⟨⟨up, by unfold slotsAddUp; decide +kernel⟩,
    ⟨put { up with
      cpu.spHeld := true, cpu.halted := [0, 1, 2, 3, 4], edge.rxList := [(3, [shown])], time.now := 10000000001 }
      Reg.coreCtlHeld 15, by decide +kernel⟩,
    ⟨put { up with
      cpu.spHeld := true, cpu.halted := [0, 1, 2, 3, 4], time.now := 10000000001 } Reg.coreCtlHeld 15,
      by decide +kernel⟩⟩

/-- The hypotheses of every clause of TimeDomainsFollowSync are met. -/
theorem test_TimeDomainsFollowSync :
  (∃ (s : State) (d : Domain) (gm : Nat) (offset : Int) (rate : Int),
    aloft s = true ∧ (extPortCfg s d && !extSlave s d) = false ∧ syncSteps s d gm offset = false) ∧
  (∃ (s : State) (d : Domain) (gm : Nat) (offset : Int) (rate : Int),
    aloft s = true ∧ (extPortCfg s d && !extSlave s d) = false ∧ syncSteps s d gm offset = true) ∧
  (∃ (s : State) (d : Domain),
    flag s (lockedFld d) = true ∧ flag s (gmFld d) = false) ∧
  (∃ (s : State) (gm : Nat) (offset : Int) (rate : Int),
    aloft s = true ∧ (extPortCfg s .gt && !extSlave s .gt) = false ∧ 1000 < offset.natAbs) ∧
  (∃ (s : State) (gm : Nat) (offset : Int) (rate : Int),
    aloft s = true ∧ (extPortCfg s .gt && !extSlave s .gt) = false ∧ offset.natAbs ≤ 1000) :=
  ⟨⟨{ up with time.wc.everLocked := true, time.wc.gm := some 7 }, .wc, 7, 40, 12, by decide +kernel⟩,
   ⟨up, .wc, 7, 4000, 12, by decide +kernel⟩,
   ⟨putFlag up (lockedFld .gt) true, .gt, by decide +kernel⟩,
   ⟨up, 7, 4000, 12, by decide +kernel⟩,
   ⟨up, 7, 400, 12, by decide +kernel⟩⟩

/-- The hypotheses of every clause of PpsAndTimeSetting, PpsEdgesAndPulses, are met. -/
theorem test_PpsEdgesAndPulses :
  (∃ (s : State) (rising : Bool),
    aloft s = true ∧ cur s Reg.ppsCfgPpsInEn ≠ 0 ∧ (cur s Reg.ppsCfgPpsInEdge = 0 ↔ rising = true) ∧ flag s
      Reg.tbStatusPpsInValid = false ∧ s.time.ppsCand = none) ∧
  (∃ (s : State) (rising : Bool) (c : Nat),
    aloft s = true ∧ cur s Reg.ppsCfgPpsInEn ≠ 0 ∧ (cur s Reg.ppsCfgPpsInEdge = 0 ↔ rising = true) ∧ flag s
      Reg.tbStatusPpsInValid = false ∧ s.time.ppsCand = some c ∧ ppsInWindow c s.time.now = false) ∧
  (∃ (s : State) (rising : Bool) (c : Nat),
    aloft s = true ∧ cur s Reg.ppsCfgPpsInEn ≠ 0 ∧ (cur s Reg.ppsCfgPpsInEdge = 0 ↔ rising = true) ∧ flag s
      Reg.tbStatusPpsInValid = false ∧ s.time.ppsCand = some c ∧ ppsInWindow c s.time.now = true ∧ flag s
      Reg.tbStatusGtGm = false) ∧
  (∃ (s : State) (l : Nat),
    s.time.ppsLast = some l ∧ flag s Reg.tbStatusPpsInValid = true ∧ l + 2000100000 < s.time.now) ∧
  (∃ (s : State),
    ppsOutMay s = true ∧ s.time.ppsOutHigh = false ∧ (toSecond (domNow s (ppsOutDomain s))).natAbs ≤ 8) ∧
  (∃ (s : State),
    s.time.ppsOutHigh = true ∧ ppsOutMay s = false) ∧
  (∃ (s : State) (u : Nat),
    s.time.ppsOutHigh = true ∧ s.time.ppsOutUntil = some u ∧ u ≤ s.time.now) :=
  ⟨⟨putCmt up 0 Reg.ppsCfgPpsInEn 1, true, by decide +kernel⟩,
   ⟨{ putCmt up 0 Reg.ppsCfgPpsInEn 1 with time.ppsCand := some 5 }, true, 5, by decide +kernel⟩,
   ⟨{ putCmt up 0 Reg.ppsCfgPpsInEn 1 with time.ppsCand := some 9000000000 }, true, 9000000000, by decide +kernel⟩,
   ⟨{ putFlag up Reg.tbStatusPpsInValid true with time.ppsLast := some 5 }, 5, by decide +kernel⟩,
    ⟨{ putFlag (putCmt up 0 Reg.ppsCfgPpsOutEn 1) Reg.tbStatusWcLocked true with
      time.now := 10000000005 }, by decide +kernel⟩,
   ⟨{ up with time.ppsOutHigh := true }, by decide +kernel⟩,
   ⟨{ up with time.ppsOutHigh := true, time.ppsOutUntil := some 9 }, 9, by decide +kernel⟩⟩

/-- The hypotheses of every clause of PpsAndTimeSetting, TimeSnapshotAndSetting, are met. -/
theorem test_TimeSnapshotAndSetting :
  (∃ (s : State) (m : Master),
    accepts s m 0x20000 = true) ∧
  (∃ (s : State) (m : Master),
    accepts s m 0x20000 = true ∧ flag s Reg.tbStatusGtGm = true ∧ flag s Reg.tbStatusGtSetPend = false) ∧
  (∃ (s : State) (m : Master),
    accepts s m 0x20000 = true ∧ (flag s Reg.tbStatusGtGm = false ∨ flag s Reg.tbStatusGtSetPend = true)) ∧
  (∃ (s : State),
    aloft s = true ∧ flag s Reg.tbStatusGtSetPend = true ∧ flag s Reg.tbStatusPpsInValid = false ∧ gtSetDue s = true) :=
  ⟨⟨up, .sp, by decide +kernel⟩,
   ⟨putFlag up Reg.tbStatusGtGm true, .sp, by decide +kernel⟩,
   ⟨up, .sp, by decide +kernel⟩,
   ⟨putFlag { up with time.gtSetAt := 5 } Reg.tbStatusGtSetPend true, by decide +kernel⟩⟩

/-- The hypotheses of every clause of SourcesAreRaisedClaimedAndCompleted, DoorbellRaisesOrCounts, are met. -/
theorem test_DoorbellRaisesOrCounts :
  (∃ (s : State) (m : Master) (w : Word),
    accepts s m 0x80000 = true ∧ doorbellMay s m (bitsAt w.toNat 0 11) = true ∧ srcUsed (bitsAt w.toNat 0 11) = true
      ∧ srcState s (bitsAt w.toNat 0 11) = 0) ∧
  (∃ (s : State) (m : Master) (w : Word),
    accepts s m 0x80000 = true ∧ doorbellMay s m (bitsAt w.toNat 0 11) = false) :=
  ⟨⟨up, .sp, 1030, by decide +kernel⟩,
   ⟨up, .sp, 5, by decide +kernel⟩⟩

/-- The hypotheses of every clause of SourcesAreRaisedClaimedAndCompleted, ClaimTakesLowest, are met. -/
theorem test_ClaimTakesLowest :
  (∃ (s : State) (m : Master) (n : Nat),
    yields s m 0x80010 = true ∧ claimNext s (targetOf m) 0 = some n) ∧
  (∃ (s : State) (m : Master) (n : Nat),
    yields s m 0x80018 = true ∧ claimNext s (targetOf m) 1 = some n) ∧
  (∃ (s : State) (target : Nat) (cls : Nat) (n : Nat),
    claimNext s target cls = some n) ∧
  (∃ (s : State) (m : Master),
    yields s m 0x80010 = true ∧ claimNext s (targetOf m) 0 = none) :=
      ⟨⟨putCmt (putFlag (put up (Reg.srcCfgState 1030) 1) (Reg.srcCfgEn 1030) true) 0 (Reg.srcCfgTarget 1030) 2, .gc 1,
      1030, by decide +kernel⟩,
    ⟨putCmt (putCmt (putFlag (put up (Reg.srcCfgState 1030) 1) (Reg.srcCfgEn 1030) true) 0 (Reg.srcCfgTarget 1030) 2)
      0 (Reg.srcCfgClass 1030) 1, .gc 1, 1030, by decide +kernel⟩,
    ⟨putCmt (putFlag (put up (Reg.srcCfgState 1030) 1) (Reg.srcCfgEn 1030) true) 0 (Reg.srcCfgTarget 1030) 2, 2, 0,
      1030, by decide +kernel⟩,
   ⟨up, .gc 1, by decide +kernel⟩⟩

/-- The hypotheses of every clause of SourcesAreRaisedClaimedAndCompleted, CompletionOfSource, are met. -/
theorem test_CompletionOfSource :
  (∃ (s : State) (m : Master) (w : Word),
    accepts s m 0x80014 = true ∧ srcState s (bitsAt w.toNat 0 11) = 2 ∧ s.intc.claimedBy.find (bitsAt w.toNat 0 11) =
      some (targetOf m * 2) ∧ srcLevel (bitsAt w.toNat 0 11) = false) ∧
  (∃ (s : State) (m : Master) (w : Word),
    accepts s m 0x8001C = true ∧ srcState s (bitsAt w.toNat 0 11) = 2 ∧ s.intc.claimedBy.find (bitsAt w.toNat 0 11) =
      some (targetOf m * 2 + 1) ∧ srcLevel (bitsAt w.toNat 0 11) = false) ∧
  (∃ (s : State) (m : Master) (w : Word),
    accepts s m 0x80014 = true ∧ srcState s (bitsAt w.toNat 0 11) = 3 ∧ s.intc.claimedBy.find (bitsAt w.toNat 0 11) =
      some (targetOf m * 2) ∧ srcLevel (bitsAt w.toNat 0 11) = false) ∧
  (∃ (s : State) (m : Master) (w : Word),
    accepts s m 0x80014 = true ∧ s.intc.claimedBy.find (bitsAt w.toNat 0 11) ≠ some (targetOf m * 2)) :=
  ⟨⟨{ put up (Reg.srcCfgState 1030) 2 with intc.claimedBy := [(1030, 4)] }, .gc 1, 1030, by decide +kernel⟩,
   ⟨{ put up (Reg.srcCfgState 1030) 2 with intc.claimedBy := [(1030, 5)] }, .gc 1, 1030, by decide +kernel⟩,
   ⟨{ put up (Reg.srcCfgState 1030) 3 with intc.claimedBy := [(1030, 4)] }, .gc 1, 1030, by decide +kernel⟩,
   ⟨up, .gc 1, 1030, by decide +kernel⟩⟩

/-- The hypotheses of every clause of SourcesAreRaisedClaimedAndCompleted, SourceEnableByItsTarget, are met. -/
theorem test_SourceEnableByItsTarget :
  (∃ (s : State) (m : Master) (n : Fin 2048) (en : Bool),
    accepts s m (srcCfgAddr n) = true ∧ targetOf m = srcTarget s n ∧ srcFixed n = false) ∧
  (∃ (s : State) (m : Master) (n : Fin 2048) (en : Bool),
    accepts s m (srcCfgAddr n) = true ∧ targetOf m ≠ srcTarget s n) :=
  ⟨⟨putCmt up 0 (Reg.srcCfgTarget 1030) 2, .gc 1, 1030, true, by decide +kernel⟩,
   ⟨putCmt up 0 (Reg.srcCfgTarget 1030) 2, .gc 2, 1030, true, by decide +kernel⟩⟩

/-- The hypotheses of every clause of SourcesAreRaisedClaimedAndCompleted, SourcesFollowTheirStates, are met. -/
theorem test_SourcesFollowTheirStates :
  (∃ (s : State) (m : Master) (w : Word),
    accepts s m 0x80000 = true ∧ doorbellMay s m (bitsAt w.toNat 0 11) = true ∧ (srcState s (bitsAt w.toNat 0 11) = 1
      ∨ srcState s (bitsAt w.toNat 0 11) = 3)) ∧
  (∃ (s : State) (m : Master) (w : Word),
    accepts s m 0x80000 = true ∧ doorbellMay s m (bitsAt w.toNat 0 11) = true ∧ srcUsed (bitsAt w.toNat 0 11) = true
      ∧ srcState s (bitsAt w.toNat 0 11) = 2) ∧
  (∃ (s : State) (m : Master) (w : Word),
    accepts s m 0x80000 = true ∧ doorbellMay s m (bitsAt w.toNat 0 11) = true ∧ srcUsed (bitsAt w.toNat 0 11) = true
      ∧ srcState s (bitsAt w.toNat 0 11) = 0 ∧ srcEn s (bitsAt w.toNat 0 11) = false) ∧
  (∃ (s : State) (m : Master) (w : Word),
    accepts s m 0x80000 = true ∧ doorbellMay s m (bitsAt w.toNat 0 11) = true ∧ srcUsed (bitsAt w.toNat 0 11) = true
      ∧ srcState s (bitsAt w.toNat 0 11) = 0 ∧ srcEn s (bitsAt w.toNat 0 11) = true ∧ srcTarget s (bitsAt w.toNat 0
      11) = 5 ∧ s.host.msixEn = true ∧ p48Up s = true ∧ srcVector s (bitsAt w.toNat 0 11) ∉ s.host.msixMask) ∧
  (∃ (s : State) (target : Nat) (cls : Nat) (n : Nat),
    srcEn s n = false) ∧
  (∃ (s : State) (n : Fin 2048),
    accepts s .host (srcCfgAddr n) = true ∧ srcTarget s n = 5 ∧ srcEn s n = false ∧ srcState s n = 1 ∧ s.host.msixEn
      = true ∧ p48Up s = true ∧ srcVector s n ∉ s.host.msixMask) ∧
  (∃ (s : State) (m : Master) (w : Word),
    accepts s m 0x80014 = true ∧ srcState s (bitsAt w.toNat 0 11) = 2 ∧ s.intc.claimedBy.find (bitsAt w.toNat 0 11) =
      some (targetOf m * 2) ∧ srcUsed (bitsAt w.toNat 0 11) = true ∧ srcLevel (bitsAt w.toNat 0 11) = true) ∧
  (∃ (s : State) (m : Master) (w : Word),
    accepts s m 0x8001C = true ∧ srcState s (bitsAt w.toNat 0 11) = 2 ∧ s.intc.claimedBy.find (bitsAt w.toNat 0 11) =
      some (targetOf m * 2 + 1) ∧ srcUsed (bitsAt w.toNat 0 11) = true ∧ srcLevel (bitsAt w.toNat 0 11) = true) ∧
  (∃ (s : State) (m : Master) (w : Word),
    accepts s m 0x8001C = true ∧ srcState s (bitsAt w.toNat 0 11) = 3 ∧ s.intc.claimedBy.find (bitsAt w.toNat 0 11) =
      some (targetOf m * 2 + 1)) ∧
  (∃ (s : State) (m : Master) (w : Word),
    accepts s m 0x80014 = true ∧ srcState s (bitsAt w.toNat 0 11) = 3 ∧ s.intc.claimedBy.find (bitsAt w.toNat 0 11) =
      some (targetOf m * 2)) ∧
  (∃ (s : State) (m : Master) (w : Word),
    accepts s m 0x80014 = true ∧ srcState s (bitsAt w.toNat 0 11) < 2) ∧
  (∃ (s : State) (m : Master) (w : Word),
    accepts s m 0x8001C = true ∧ (srcState s (bitsAt w.toNat 0 11) < 2 ∨ s.intc.claimedBy.find (bitsAt w.toNat 0 11)
      ≠ some (targetOf m * 2 + 1))) ∧
  (∃ (s : State) (m : Master),
    yields s m 0x80018 = true ∧ claimNext s (targetOf m) 1 = none) :=
  ⟨⟨put up (Reg.srcCfgState 1030) 3, .sp, 1030, by decide +kernel⟩,
   ⟨put up (Reg.srcCfgState 1030) 2, .sp, 1030, by decide +kernel⟩,
   ⟨putFlag up (Reg.srcCfgEn 1030) false, .sp, 1030, by decide +kernel⟩,
    ⟨{ putCmt (putFlag linked (Reg.srcCfgEn 1030) true) 0 (Reg.srcCfgTarget 1030) 5 with
      host.msixMask := [] }, .sp, 1030, by decide +kernel⟩,
   ⟨putFlag up (Reg.srcCfgEn 1030) false, 2, 0, 1030, by decide +kernel⟩,
    
      ⟨{ put (putCmt (putFlag linked (Reg.srcCfgEn 1030) false) 0 (Reg.srcCfgTarget 1030) 5) (Reg.srcCfgState 1030) 1 with
      host.msixMask := [] }, 1030, by decide +kernel⟩,
   ⟨{ put up (Reg.srcCfgState 70) 2 with intc.claimedBy := [(70, 4)] }, .gc 1, 70, by decide +kernel⟩,
    ⟨{ putFlag (put up (Reg.srcCfgState 70) 2) (Reg.srcCfgLevel 70) true with
      intc.claimedBy := [(70, 5)] }, .gc 1, 70, by decide +kernel⟩,
   ⟨{ put up (Reg.srcCfgState 1030) 3 with intc.claimedBy := [(1030, 5)] }, .gc 1, 1030, by decide +kernel⟩,
   ⟨{ put up (Reg.srcCfgState 1030) 3 with intc.claimedBy := [(1030, 4)] }, .gc 1, 1030, by decide +kernel⟩,
   ⟨up, .gc 1, 1030, by decide +kernel⟩,
   ⟨up, .gc 1, 1030, by decide +kernel⟩,
   ⟨up, .gc 1, by decide +kernel⟩⟩

/-- The hypotheses of every clause of RuleLookupPicksTheBestRule are met. -/
theorem test_RuleLookupPicksTheBestRule :
  (∃ (s : State) (slot : Nat) (key : Nat) (i : Nat) (b : List Byte),
    winner s slot key = some (i, b) ∧ (i, b) ∈ recsOf s slot 0x0120 ∧ ruleHit key b = true ∧ ∀ e ∈ recsOf s slot
      0x0120, ruleHit key e.2 = true) ∧
  (∃ (s : State) (slot : Nat) (key : Nat),
    winner s slot key = none) ∧
  (∃ (s : State) (slot : Nat) (key : Nat) (i : Nat) (b : List Byte) (edge : Bool),
    winner s slot key = some (i, b)) ∧
  (∃ (s : State) (slot : Nat) (key : Nat) (edge : Bool),
    winner s slot key = none) :=
  ⟨⟨withRec up 0 0x0120 3 (bytesWith 192 [(162, 1)]), 0, 0, 3, bytesWith 192 [(162, 1)], by decide +kernel⟩,
   ⟨up, 0, 0, by decide +kernel⟩,
   ⟨withRec up 0 0x0120 3 (bytesWith 192 [(162, 1)]), 0, 0, 3, bytesWith 192 [(162, 1)], false, by decide +kernel⟩,
   ⟨up, 0, 0, true, by decide +kernel⟩⟩

/-- The hypotheses of every clause of FaultAcknowledgement are met. -/
theorem test_FaultAcknowledgement :
  (∃ (s : State) (m : Master) (w : Word),
    accepts s m 0xA0004 = true ∧ s.time.now ≤ s.time.tempoLocal + 24 ∧ bitAt w.toNat 4 = true) ∧
  (∃ (s : State) (m : Master),
    accepts s m 0xA0004 = true ∧ s.time.now ≤ s.time.tempoLocal + 24) ∧
  (∃ (s : State) (m : Master) (w : Word),
    accepts s m 0xA0004 = true ∧ s.time.tempoLocal + 24 < s.time.now ∧ bitAt w.toNat 4 = true) ∧
  (∃ (s : State) (m : Master),
    accepts s m 0xA0004 = true ∧ s.time.tempoLocal + 24 < s.time.now) ∧
  (∃ (s : State) (m : Master) (w : Word) (r : FaultRec),
    accepts s m 0xA0004 = true ∧ s.time.now ≤ s.time.tempoLocal + 24 ∧ bitAt w.toNat 4 = true ∧ s.fault.recs[bitsAt
      w.toNat 0 4]? = some r ∧ ((removeAt s.fault.recs (bitsAt w.toNat 0 4)).any fun x => x.code == r.code && x.unit
      == r.unit) = false ∧ r.unit < 0xFFFF) :=
  ⟨⟨{ up with time.tempoLocal := 10000000000, fault.recs := [⟨5, 2, 0, 0, 0, 0, 3, 0⟩] }, .sp, 16, by decide +kernel⟩,
   ⟨{ put up Reg.fcStatusOverflow 1 with time.tempoLocal := 10000000000 }, .sp, by decide +kernel⟩,
   ⟨{ up with time.tempoLocal := 0, fault.recs := [⟨5, 2, 0, 0, 0, 0, 3, 0⟩] }, .sp, 16, by decide +kernel⟩,
   ⟨{ put up Reg.fcStatusOverflow 1 with time.tempoLocal := 0 }, .sp, by decide +kernel⟩,
    ⟨{ up with
      time.tempoLocal := 10000000000, fault.recs := [⟨5, 2, 0, 0, 0, 0, 3, 0⟩] }, .sp, 16, ⟨5, 2, 0, 0, 0, 0, 3, 0⟩,
      by decide +kernel⟩⟩

/-- The hypotheses of every clause of FaultsEscalateAndEventsClear, UnacknowledgedFaultEscalates, are met. -/
theorem test_UnacknowledgedFaultEscalates :
  (∃ (s : State),
    s.fault.recs.length ≤ 16 ∧ s.fault.recs.any recordDue = true) ∧
  (∃ (s : State),
    s.fault.recs.any recordDue = false ∧ overflowDue s = true) ∧
  (∃ (s : State),
    s.fault.recs.any recordDue = false ∧ overflowDue s = false) :=
  ⟨⟨{ up with fault.recs := [⟨5, 2, 0, 0, 0, 0, 0, 0⟩] }, by decide +kernel⟩,
   ⟨{ up with fault.ovfDue := some 0 }, by decide +kernel⟩,
   ⟨up, by decide +kernel⟩⟩

/-- The hypotheses of every clause of FaultsEscalateAndEventsClear, EventBitsClearByWritingOne, are met. -/
theorem test_EventBitsClearByWritingOne :
  (∃ (s : State) (m : Master) (p : Fin 48) (w : Word),
    accepts s m (0x20000C + 0x10000 * p.val) = true) ∧
  (∃ (s : State) (m : Master) (ch : Fin 256) (w : Word),
    accepts s m (0xA00010 + 0x1000 * ch.val) = true) ∧
  (∃ (s : State) (m : Master) (w : Word),
    accepts s m 0xB00300 = true) :=
  ⟨⟨put up (Reg.portEventsLinkChange 3) 1, .host, 3, 1, by decide +kernel⟩,
   ⟨put up (Reg.chEventsBusOff 9) 1, .host, 9, 1, by decide +kernel⟩,
   ⟨put up Reg.secEventsFvExhausted 1, .gc 0, 3, by decide +kernel⟩⟩

/-- The hypotheses of every clause of GatesAndTimingWheels, FlowGatesAndFilters, are met. -/
theorem test_FlowGatesAndFilters :
  (∃ (s : State) (g : Fin 1024),
    (flowList s g).isEmpty = false) ∧
  (∃ (s : State) (m : Master) (g : Fin 1024),
    accepts s m (0x940004 + 8 * g.val) = true) ∧
  (∃ (s : State) (m : Master) (f : Fin 8192),
    accepts s m (0x90000C + 16 * f.val) = true) :=
      ⟨⟨withRec up 0 0x0210 (2 * 2 ^ 24 + 3) (bytesWith 64 [(2, 2), (8, 200), (32, 1), (36, 100), (48, 0), (52, 100)]),
      3, by decide +kernel⟩,
   ⟨put up (Reg.fgStateClosedOctets 3) 1, .gc 0, 3, by decide +kernel⟩,
   ⟨put up (Reg.sfStateBlocked 30) 1, .gc 0, 30, by decide +kernel⟩⟩

/-- The hypotheses of every clause of GatesAndTimingWheels, WheelEntryFires, are met. -/
theorem test_WheelEntryFires :
  (∃ (s : State) (p : Fin 50) (q : Fin 64) (b : Bucket) (d : Nat),
    s.tm.leafTok.find (64 * p.val + q.val) = some b ∧ b.wheel = some d ∧ d ≤ s.time.now) ∧
  (∃ (s : State) (p : Fin 50) (b : Bucket) (d : Nat),
    s.tm.portTok.find p.val = some b ∧ b.wheel = some d ∧ d ≤ s.time.now) :=
  ⟨⟨{ up with tm.leafTok := [(65, ⟨5, 0, some 9⟩)] }, 1, 1, ⟨5, 0, some 9⟩, 9, by decide +kernel⟩,
   ⟨{ up with tm.portTok := [(1, ⟨5, 0, some 9⟩)] }, 1, ⟨5, 0, some 9⟩, 9, by decide +kernel⟩⟩

/-- The hypotheses of every clause of GatesAndTimingWheels, GateListsFollowWorkingClock, are met. -/
theorem test_GateListsFollowWorkingClock :
  (∃ (s : State) (p : Fin 50) (b : List Byte),
    (gatesOf s p).oper = some b ∧ (gatesOf s p).pend = none) ∧
  (∃ (s : State) (p : Fin 50) (x : List Byte),
    (gatesOf s p).pend = some x ∧ (gatesOf s p).switchAt ≤ wcNow s) ∧
  (∃ (s : State) (p : Fin 50) (b : List Byte),
    (gatesOf (gateSync s p) p).oper = some b ∧ (gatesOf (gateSync s p) p).pend = none ∧ preemptActive (gateSync s p)
      p = true ∧ (gateEntry b (wcNow (gateSync s p))).1 < leAt b 2 2 ∧ u8 b (32 + 8 * (((gateEntry b (wcNow (gateSync
      s p))).1 + 1) % leAt b 2 2) + 1) = 1 ∧ 8 * leAt b (32 + 8 * (gateEntry b (wcNow (gateSync s p))).1 + 4) 4 -
      (gateEntry b (wcNow (gateSync s p))).2 ≤ 8 * leAt b 16 2) ∧
  (∃ (s : State) (p : Fin 50) (b : List Byte),
    (gatesOf (gateSync s p) p).pend = some b ∧ preemptActive (gateSync s p) p = true ∧ 0 < leAt b 2 2 ∧ u8 b 33 = 1 ∧
      ((gatesOf (gateSync s p) p).switchAt - wcNow (gateSync s p)).toNat ≤ 8 * leAt b 16 2) :=
      ⟨⟨{ up with
      tm.gates := [(3, ⟨some (bytesWith 48 [(2, 2), (8, 200), (32, 1), (36, 100), (40, 3), (44, 100)]), none, 0,
      false⟩)] }, 3, bytesWith 48 [(2, 2), (8, 200), (32, 1), (36, 100), (40, 3), (44, 100)], by decide +kernel⟩,
    ⟨{ up with
      tm.gates := [(3, ⟨none, some (bytesWith 48 [(2, 2), (8, 200), (32, 1), (36, 100), (40, 3), (44, 100)]), 50,
      false⟩)] }, 3, bytesWith 48 [(2, 2), (8, 200), (32, 1), (36, 100), (40, 3), (44, 100)], by decide +kernel⟩,
    
      ⟨{ put (put (putCmt (putCmt up 0 (Reg.portCtlPreemptEn 20) 1) 0 (Reg.preemptCfgVerifyDis 20) 1) (Reg.portModePreemptCap 20) 1) (Reg.portStatusLink 20) 1 with
      tm.gates := [(20, ⟨some (bytesWith 48 [(2, 2), (8, 200), (16, 200), (32, 1), (36, 100), (40, 3), (41, 1), (44,
      100)]), none, 0, false⟩)] }, 20, bytesWith 48 [(2, 2), (8, 200), (16, 200), (32, 1), (36, 100), (40, 3), (41,
      1), (44, 100)], by decide +kernel⟩,
    
      ⟨{ put (put (putCmt (putCmt up 0 (Reg.portCtlPreemptEn 20) 1) 0 (Reg.preemptCfgVerifyDis 20) 1) (Reg.portModePreemptCap 20) 1) (Reg.portStatusLink 20) 1 with
      tm.gates := [(20, ⟨none, some (bytesWith 48 [(2, 2), (16, 200), (33, 1), (36, 100), (44, 100)]), 10000000050,
      false⟩)] }, 20, bytesWith 48 [(2, 2), (16, 200), (33, 1), (36, 100), (44, 100)], by decide +kernel⟩⟩

/-- The hypotheses of every clause of LockstepAndWatchdogs, LockstepFaultHoldsThePair, are met. -/
theorem test_LockstepFaultHoldsThePair :
  (∃ (s : State) (b : Fin 384),
    pairPowered s = true ∧ s.cpu.spHeld = false) ∧
  (∃ (s : State),
    pairPowered s = true ∧ s.cpu.spHeld = false) ∧
  (∃ (s : State) (n : Nat),
    pairPowered s = true ∧ s.cpu.spHeld = false) ∧
  (∃ (s : State),
    pairRuns s = true ∧ spWatched s = true) ∧
  (∃ (s : State),
    pairRuns s = true ∧ s.cpu.injected = false) :=
  ⟨⟨up, 7, by decide +kernel⟩,
   ⟨up, by decide +kernel⟩,
   ⟨up, 4, by decide +kernel⟩,
   ⟨up, by decide +kernel⟩,
   ⟨up, by decide +kernel⟩⟩

/-- The hypotheses of every clause of LockstepAndWatchdogs, InjectionTestCounts, are met. -/
theorem test_InjectionTestCounts :
  (∃ (s : State),
    pairRuns s = true ∧ s.cpu.injected = false ∧ get s Reg.lockstepStatusInjBit ≤ 383) :=
  ⟨up, by decide +kernel⟩

/-- The hypotheses of every clause of LockstepAndWatchdogs, WatchdogHoldsAndReleaseFreesACore, are met. -/
theorem test_WatchdogHoldsAndReleaseFreesACore :
  (∃ (s : State) (c : Fin 4),
    aloft s = true ∧ gcHeld s c = false ∧ s.cpu.halted.contains (c.val + 1) = false) ∧
  (∃ (s : State) (m : Master) (w : Word) (c : Fin 4),
    accepts s m 0xE00810 = true ∧ bitAt w.toNat (4 + c) = true ∧ gcHeld s c = true ∧ (s.fault.recs.any fun r =>
      r.code == 0x0005 && r.unit == faultUnit 5 c) = false) :=
  ⟨⟨up, 2, by decide +kernel⟩,
   ⟨put up Reg.coreCtlHeld 4, .sp, 64, 2, by decide +kernel⟩⟩

/-- The hypotheses of every clause of BankAccessAndScrubbing, BankAccessReadsAndWrites, are met. -/
theorem test_BankAccessReadsAndWrites :
  (∃ (s : State) (m : BusMaster) (b : Bank) (off : Nat) (n : Nat) (w : List BusMaster),
    issues s m = true ∧ bankReach m b = true ∧ isNext s m b w = true ∧ 0 < n ∧ off + n ≤ bankBytes b ∧ regionOk s m b
      off n false = true ∧ hitsMark s b off n = none) ∧
  (∃ (s : State) (m : BusMaster) (b : Bank) (off : Nat) (d : List Byte) (w : List BusMaster),
    issues s m = true ∧ bankReach m b = true ∧ isNext s m b w = true ∧ 0 < d.length ∧ off + d.length ≤ bankBytes b ∧
      regionOk s m b off d.length true = true ∧ hitsMark s b off d.length = none) ∧
  (∃ (s : State) (m : BusMaster) (b : Bank) (off : Nat) (op : BankOp) (ecc : BankEcc) (w : List BusMaster),
    issues s m = true ∧ m ≠ .hb ∧ bankReach m b = false) ∧
  (∃ (s : State) (m : BusMaster) (b : Bank) (off : Nat) (op : BankOp) (ecc : BankEcc) (w : List BusMaster),
    issues s m = true ∧ m ≠ .hb ∧ bankReach m b = true ∧ isNext s m b w = true ∧ b ≠ .h ∧ bankBytes b < off + opLen
      op) ∧
  (∃ (s : State) (m : BusMaster) (off : Nat) (op : BankOp) (ecc : BankEcc) (w : List BusMaster),
    issues s m = true ∧ bankReach m .h = true ∧ isNext s m .h w = true ∧ neverServed op = false ∧ (m = .hb → off <
      0x400000) ∧ regionOk s m .h off (opLen op) (opWrite op) = false) ∧
  (∃ (s : State) (m : BusMaster) (b : Bank) (off : Nat) (k : Nat) (op : BankOp) (ecc : BankEcc) (w : List BusMaster),
    issues s m = true ∧ m ≠ .hb ∧ bankReach m b = true ∧ isNext s m b w = true ∧ off + opLen op ≤ bankBytes b ∧
      regionOk s m b off (opLen op) (opWrite op) = true ∧ hitsMark s b off (opLen op) = some k) ∧
  (∃ (s : State) (m : BusMaster) (b : Bank) (off : Nat) (k : Nat) (op : BankOp) (w : List BusMaster),
    issues s m = true ∧ m ≠ .hb ∧ bankReach m b = true ∧ isNext s m b w = true ∧ off + opLen op ≤ bankBytes b ∧
      regionOk s m b off (opLen op) (opWrite op) = true ∧ hitsMark s b off (opLen op) = none) ∧
  (∃ (s : State) (m : BusMaster) (b : Bank) (off : Nat) (op : BankOp) (ecc : BankEcc) (w : List BusMaster),
    issues s m = true ∧ m ≠ .hb ∧ bankReach m b = true ∧ isNext s m b w = false) ∧
  (∃ (s : State) (b : Bank) (off : Nat) (n : Nat) (op : BankOp) (ecc : BankEcc) (w : List BusMaster),
    endpointOn s = true ∧ (op = .cas n ∨ op = .lockedRead n)) ∧
  (∃ (s : State) (off : Nat) (n : Nat) (ecc : BankEcc) (w : List BusMaster),
    issues s .hb = true ∧ 0x410000 ≤ off ∧ off < 0x800000) ∧
  (∃ (s : State) (v : Nat) (x : Byte) (ecc : BankEcc) (w : List BusMaster),
    issues s .hb = true ∧ v < 80) ∧
  (∃ (s : State) (i : Fin 10) (ecc : BankEcc) (w : List BusMaster),
    issues s .hb = true) ∧
  (∃ (s : State) (b : Bank) (off : Nat) (n : Nat) (w : List BusMaster),
    dieRuns s = true ∧ dbgVia s b off n = true ∧ hitsMark s b off n = none) ∧
  (∃ (s : State) (off : Nat) (d : List Byte) (w : List BusMaster),
    dieRuns s = true ∧ dbgVia s .s off d.length = true ∧ hitsMark s .s off d.length = none ∧ s.cpu.replay.length < 64) :=
      ⟨⟨{ withStruct up 0x0030 (bytesWith 160 [(1, 1), (34, 16), (36, 255), (37, 255)]) with
      mem.bankH := [(65, 7)] }, .gc 1, .h, 64, 4, [.dma], by decide +kernel⟩,
    ⟨withStruct up 0x0030 (bytesWith 160 [(1, 1), (34, 16), (36, 255), (37, 255)]), .gc 1, .h, 64, [1, 0, 3], [.dma],
      by decide +kernel⟩,
   ⟨up, .gc 1, .s, 8, .read 4, .clean, [], by decide +kernel⟩,
   ⟨up, .gc 1, .g, 0x1000000, .read 4, .clean, [], by decide +kernel⟩,
   ⟨up, .gc 1, 8, .read 4, .clean, [], by decide +kernel⟩,
   ⟨{ up with cpu.badWords := [(1, [8])] }, .gc 1, .g, 8, 8, .read 4, .clean, [], by decide +kernel⟩,
   ⟨up, .gc 1, .g, 12, 1, .read 8, [], by decide +kernel⟩,
   ⟨up, .gc 1, .h, 8, .read 4, .clean, [.gc 0], by decide +kernel⟩,
   ⟨up, .h, 8, 4, .cas 4, .clean, [], by decide +kernel⟩,
   ⟨up, 0x410000, 4, .clean, [], by decide +kernel⟩,
   ⟨{ up with host.msixMask := [79] }, 79, 2, .clean, [], by decide +kernel⟩,
   ⟨{ up with host.msixPend := [9, 10] }, 1, .clean, [], by decide +kernel⟩,
   ⟨{ up with cpu.halted := [2], mem.bankG := [(8, 3)] }, .g, 8, 4, [], by decide +kernel⟩,
   ⟨{ up with cpu.halted := [0] }, 8, [1, 2], [], by decide +kernel⟩⟩

/-- The hypotheses of every clause of BankAccessAndScrubbing, ScrubCountsAndMarks, are met. -/
theorem test_ScrubCountsAndMarks :
  (∃ (s : State) (b : Bank),
    aloft s = true) ∧
  (∃ (s : State) (b : Bank) (off : Nat),
    aloft s = true) ∧
  (∃ (s : State) (b : Bank) (off : Nat),
    aloft s = true) :=
  ⟨⟨up, .h, by decide +kernel⟩,
   ⟨up, .h, 16, by decide +kernel⟩,
   ⟨up, .h, 20, by decide +kernel⟩⟩

/-- The hypotheses of every clause of AtomicsReturnTheOldWord are met. -/
theorem test_AtomicsReturnTheOldWord :
  (∃ (s : State) (m : BusMaster) (b : Bank) (off : Nat) (wide : Bool) (v : BitVec 64) (w : List BusMaster),
    issues s m = true ∧ atomicReach m b = true ∧ off % (if wide then 8 else 4) = 0 ∧ isNext s m b w = true ∧ off +
      (if wide then 8 else 4) ≤ bankBytes b ∧ regionOk s m b off (if wide then 8 else 4) true = true ∧ regionOk s m b
      off (if wide then 8 else 4) false = true ∧ hitsMark s b off (if wide then 8 else 4) = none ∧ wiping s b off =
      false) ∧
  (∃ (s : State) (m : BusMaster) (b : Bank) (off : Nat) (wide : Bool) (v : BitVec 64) (w : List BusMaster),
    issues s m = true ∧ atomicReach m b = true ∧ off % (if wide then 8 else 4) = 0 ∧ isNext s m b w = true ∧ off +
      (if wide then 8 else 4) ≤ bankBytes b ∧ regionOk s m b off (if wide then 8 else 4) true = true ∧ regionOk s m b
      off (if wide then 8 else 4) false = true ∧ hitsMark s b off (if wide then 8 else 4) = none ∧ wiping s b off =
      false) ∧
  (∃ (s : State) (off : Nat) (wide : Bool) (v : BitVec 64) (w : List BusMaster),
    issues s .sp = true ∧ off % (if wide then 8 else 4) = 0 ∧ isNext s .sp .s w = true ∧ off + (if wide then 8 else
      4) ≤ bankBytes .s ∧ hitsMark s .s off (if wide then 8 else 4) = none ∧ wiping s .s off = true) ∧
    (∃ (s : State) (m : BusMaster) (b : Bank) (off : Nat) (wide : Bool) (v : BitVec 64) (ecc : BankEcc) (w : List
      BusMaster),
    issues s m = true ∧ off % (if wide then 8 else 4) ≠ 0) :=
      ⟨⟨{ withStruct up 0x0030 (bytesWith 160 [(1, 1), (34, 16), (36, 255), (37, 255)]) with
      mem.bankH := [(64, 3)] }, .gc 1, .h, 64, false, 9, [.dma], by decide +kernel⟩,
    ⟨{ withStruct up 0x0030 (bytesWith 160 [(1, 1), (34, 16), (36, 255), (37, 255)]) with
      mem.bankH := [(64, 3)] }, .gc 1, .h, 64, true, 9, [.dma], by decide +kernel⟩,
    ⟨{ up with
      cpu.wipeUntil := 20000000000, mem.bankS := [(0x180000, 3)] }, 0x180000, false, 9, [], by decide +kernel⟩,
   ⟨up, .gc 1, .g, 9, true, 9, .clean, [], by decide +kernel⟩⟩

/-- The hypotheses of every clause of DebugPortAndTap, DebugPortControl, are met. -/
theorem test_DebugPortControl :
  (∃ (s : State) (c : Fin 5),
    dieRuns s = true ∧ dbgBusy s = false ∧ haltAllowed s = true ∧ s.cpu.halted.contains c.val = false) ∧
  (∃ (s : State) (c : Fin 5),
    dieRuns s = true ∧ dbgBusy s = false ∧ haltAllowed s = true ∧ s.cpu.halted.contains c.val = true) ∧
  (∃ (s : State) (c : Fin 5),
    dieRuns s = true ∧ dbgBusy s = false ∧ haltAllowed s = true) ∧
  (∃ (s : State) (c : Fin 5),
    dieRuns s = true ∧ dbgBusy s = false ∧ haltAllowed s = true ∧ s.cpu.halted.contains c.val = true) ∧
  (∃ (s : State) (c : Fin 5),
    dieRuns s = true ∧ dbgBusy s = false ∧ haltAllowed s = false) ∧
  (∃ (s : State),
    dieRuns s = true ∧ dbgBusy s = false) ∧
  (∃ (s : State),
    dieRuns s = true ∧ dbgBusy s = true) ∧
  (∃ (s : State) (c : Fin 5),
    dbgBusy s = true) ∧
  (∃ (s : State) (c : Fin 5),
    dieRuns s = false) :=
  ⟨⟨up, 0, by decide +kernel⟩,
   ⟨{ up with cpu.halted := [2, 0] }, 0, by decide +kernel⟩,
   ⟨{ up with cpu.halted := [2, 0] }, 0, by decide +kernel⟩,
   ⟨{ up with cpu.halted := [2, 0] }, 0, by decide +kernel⟩,
   ⟨{ up with otp.lc := 2 }, 0, by decide +kernel⟩,
   ⟨{ up with cpu.dbgStatus := 3 }, by decide +kernel⟩,
    ⟨{ up with
      cpu.dbgAt := some 5, time.now := 0 }, by decide +kernel, decide_eq_true (Nat.lt_of_lt_of_le (by decide : 0 < 5)
      (Nat.le_add_right 5 _))⟩,
    ⟨{ up with
      cpu.dbgAt := some 5, time.now := 0 }, 2, decide_eq_true (Nat.lt_of_lt_of_le (by decide : 0 < 5)
      (Nat.le_add_right 5 _))⟩,
   ⟨State.reset, 2, by decide +kernel⟩⟩

/-- The hypotheses of every clause of DebugPortAndTap, TapInstructionsSelectRegisters, are met. -/
theorem test_TapInstructionsSelectRegisters :
  (∃ (s : State),
    dieRuns s = true) ∧
  (∃ (s : State),
    dieRuns s = true ∧ tapAllowed s 0x00 = true) ∧
  (∃ (s : State),
    dieRuns s = true ∧ tapAllowed s 0x02 = true) ∧
  (∃ (s : State),
    dieRuns s = true) ∧
  (∃ (s : State),
    dieRuns s = true) ∧
  (∃ (s : State),
    dieRuns s = true ∧ tapAllowed s 0x00 = false) ∧
  (∃ (s : State),
    dieRuns s = true ∧ tapAllowed s 0x02 = false) ∧
  (∃ (s : State),
    dieRuns s = false) :=
  ⟨⟨{ up with cpu.tapInstr := 2 }, by decide +kernel⟩,
   ⟨up, by decide +kernel⟩,
   ⟨up, by decide +kernel⟩,
   ⟨up, by decide +kernel⟩,
   ⟨up, by decide +kernel⟩,
   ⟨{ up with otp.lc := 2 }, by decide +kernel⟩,
   ⟨{ up with otp.lc := 4 }, by decide +kernel⟩,
   ⟨State.reset, by decide +kernel⟩⟩

/-- The hypotheses of every clause of HostLinkAndPower, HostLinkAndPowerStates, are met. -/
theorem test_HostLinkAndPowerStates :
  (∃ (s : State) (l : LinkState),
    endpointOn s = true) ∧
  (∃ (s : State) (pm : PmWrite),
    configServed s = true ∧ get s Reg.hbStatusDstate ≠ 3) ∧
  (∃ (s : State) (pm : PmWrite),
    configServed s = true ∧ get s Reg.hbStatusDstate = 3 ∧ p48Up s = false) ∧
  (∃ (s : State),
    configServed s = true ∧ get s Reg.hbStatusDstate = 3) ∧
  (∃ (s : State) (st : Fin 4),
    flag s Reg.hbStatusDlActive = true ∧ st.val ≠ 0) ∧
  (∃ (s : State) (t0 : Nat),
    s.host.peWakeAt = some t0 ∧ t0 + 1000000000 ≤ s.time.now) :=
  ⟨⟨up, ⟨true, 4, 4, true⟩, by decide +kernel⟩,
   ⟨{ linked with host.pmeStatus := true }, ⟨true, false⟩, by decide +kernel⟩,
   ⟨put { up with host.pmeStatus := true } Reg.hbStatusDstate 3, ⟨true, true⟩, by decide +kernel⟩,
    ⟨put (putFlag { up with
      host.msixEn := true, host.msixMask := [], host.msixPend := [3] } Reg.hbStatusDlActive true) Reg.hbStatusDstate
      3, by decide +kernel⟩,
   ⟨linked, 2, by decide +kernel⟩,
   ⟨{ put up Reg.hbStatusPeWake 1 with host.peWakeAt := some 5 }, 5, by decide +kernel⟩⟩

/-- The hypotheses of every clause of VectorsAndOutboundAccesses, MsixVectorsAreSent, are met. -/
theorem test_MsixVectorsAreSent :
  (∃ (s : State) (n : Nat),
    configServed s = true ∧ p48Up s = true ∧ n < 2048 ∧ srcState s n = 1 ∧ srcEn s n = true ∧ srcTarget s n = 5 ∧
      pendVector s n ∉ s.host.msixMask) ∧
  (∃ (s : State) (v : Fin 80),
    endpointOn s = true ∧ aloft s = true ∧ p48Up s = true ∧ s.host.msixEn = true ∧ v.val ∈ s.host.msixPend ∧ v.val ∉
      s.host.msixMask.erase v.val) :=
      ⟨⟨putCmt (putFlag (put { linked with
      host.msixEn := false, host.msixMask := [] } (Reg.srcCfgState 1030) 1) (Reg.srcCfgEn 1030) true) 0
      (Reg.srcCfgTarget 1030) 5, 1030, by decide +kernel⟩,
   ⟨{ linked with host.msixPend := [3, 4], host.msixMask := [3, 4] }, 3, by decide +kernel⟩⟩

/-- The hypotheses of every clause of VectorsAndOutboundAccesses, OutboundAccessesOfCores, are met. -/
theorem test_OutboundAccessesOfCores :
  (∃ (s : State) (c : Fin 4) (addr : Nat) (d : List Byte) (f : Nat),
    aloft s = true ∧ gcHeld s c = false ∧ findWindow s addr d.length = some f ∧ bitAt f 2 = true ∧ bitAt f 1 = false
      ∧ p48Up s = true) ∧
  (∃ (s : State) (c : Fin 4) (addr : Nat) (d : List Byte) (f : Nat),
    aloft s = true ∧ gcHeld s c = false ∧ findWindow s addr d.length = some f ∧ bitAt f 2 = true ∧ bitAt f 1 = false
      ∧ p48Up s = true ∧ s.host.posted.length < 64) ∧
  (∃ (s : State) (c : Fin 4) (addr : Nat) (d : List Byte) (f : Nat),
    aloft s = true ∧ gcHeld s c = false ∧ findWindow s addr d.length = some f ∧ bitAt f 2 = true ∧ bitAt f 1 = false
      ∧ p48Up s = true ∧ 64 ≤ s.host.posted.length) ∧
  (∃ (s : State) (c : Fin 4) (addr : Nat) (d : List Byte) (f : Nat) (st : Bool),
    aloft s = true ∧ gcHeld s c = false ∧ findWindow s addr d.length = some f ∧ bitAt f 2 = true ∧ bitAt f 1 = true ∧
      p48Up s = true) ∧
  (∃ (s : State) (c : Fin 4) (addr : Nat) (d : List Byte) (st : Bool),
    aloft s = true ∧ gcHeld s c = false ∧ ((findWindow s addr d.length).all fun f => !bitAt f 2) = true) ∧
  (∃ (s : State) (c : Fin 4) (addr : Nat) (d : List Byte) (f : Nat) (st : Bool),
    aloft s = true ∧ gcHeld s c = false ∧ findWindow s addr d.length = some f ∧ bitAt f 2 = true ∧ p48Up s = false) ∧
  (∃ (s : State) (c : Fin 4) (addr : Nat) (len : Nat) (f : Nat),
    aloft s = true ∧ gcHeld s c = false ∧ findWindow s addr len = some f ∧ p48Up s = true) ∧
  (∃ (s : State) (c : Fin 4) (addr : Nat) (len : Nat) (st : Bool),
    aloft s = true ∧ gcHeld s c = false ∧ (findWindow s addr len = none ∨ p48Up s = false)) ∧
  (∃ (s : State) (c : Fin 4) (addr : Nat) (len : Nat) (f : Nat),
    aloft s = true ∧ gcHeld s c = false ∧ findWindow s addr len = some f ∧ p48Up s = true) ∧
  (∃ (s : State) (c : Fin 5) (t0 : Nat) (o : OpenRead),
    c.val < 4 ∧ s.host.retry.find c.val = some t0 ∧ s.host.openReads.find c.val = some o ∧ t0 + 1000 ≤ s.time.now) ∧
  (∃ (s : State) (r : Nat) (t0 : Nat),
    s.host.fetchRetry = some (r, t0) ∧ t0 + 1000 ≤ s.time.now ∧ fetchMay s = true ∧ txServable s r = true ∧ txRoom s
      (headDesc s r) = true) ∧
  (∃ (s : State) (c : Fin 4) (addr : Nat) (len : Nat) (b : List Byte),
    (s.host.openReads.find c.val = some (.read addr len) ∨ s.host.openReads.find c.val = some (.exclLoad addr len)) ∧
      s.host.retry.has c.val = false) ∧
  (∃ (s : State) (c : Fin 4) (o : OpenRead),
    s.host.openReads.find c.val = some o ∧ s.host.retry.has c.val = false) :=
      ⟨⟨withRec ({ linked with
      host.posted := [⟨2, 5, [6]⟩] }) 0 0x0700 (2 ^ 24) (bytesWith 16 [(8, 1), (12, 5)]), 1, 16, [1, 2], 5,
      by decide +kernel⟩,
    ⟨withRec ({ linked with
      host.posted := [⟨2, 5, [6]⟩] }) 0 0x0700 (2 ^ 24) (bytesWith 16 [(8, 1), (12, 5)]), 1, 16, [1, 2], 5,
      by decide +kernel⟩,
    ⟨withRec { linked with
      host.posted := List.replicate 64 ⟨2, 5, [6]⟩ } 0 0x0700 (2 ^ 24) (bytesWith 16 [(8, 1), (12, 5)]), 1, 16, [1,
      2], 5, by decide +kernel⟩,
   ⟨withRec linked 0 0x0700 (2 ^ 24) (bytesWith 16 [(8, 1), (12, 7)]), 1, 16, [1, 2], 7, true, by decide +kernel⟩,
   ⟨up, 1, 16, [1, 2], false, by decide +kernel⟩,
   ⟨withRec up 0 0x0700 (2 ^ 24) (bytesWith 16 [(8, 1), (12, 5)]), 1, 16, [1, 2], 5, true, by decide +kernel⟩,
   ⟨withRec linked 0 0x0700 (2 ^ 24) (bytesWith 16 [(8, 1), (12, 5)]), 1, 16, 4, 5, by decide +kernel⟩,
   ⟨up, 1, 16, 4, false, by decide +kernel⟩,
    ⟨withRec ({ linked with
      host.posted := [⟨2, 5, [6]⟩] }) 0 0x0700 (2 ^ 24) (bytesWith 16 [(8, 1), (12, 5)]), 1, 16, 4, 5,
      by decide +kernel⟩,
   ⟨{ linked with host.retry := [(1, 5)], host.openReads := [(1, .read 16 4)] }, 1, 5, .read 16 4, by decide +kernel⟩,
    ⟨put (putFlag { linked with
      host.fetchRetry := some (33, 5), host.rings := [(33, ⟨true, 0, none, [(0, bytesWith 32 [(8, 64), (12, 1)])],
      []⟩)] } (Reg.ringCfgEn 33) true) (Reg.ringTail 33) 1, 33, 5, by decide +kernel⟩,
   ⟨{ linked with host.openReads := [(1, .read 16 4)] }, 1, 16, 4, [1, 2, 3, 4], by decide +kernel⟩,
   ⟨{ linked with host.openReads := [(1, .read 16 4)] }, 1, .read 16 4, by decide +kernel⟩⟩

/-- The hypotheses of every clause of SemaphoresAndLedger, SemaphoresHaveOneOwner, are met. -/
theorem test_SemaphoresHaveOneOwner :
  (∃ (s : State) (c : Fin 4) (addr : Nat) (len : Nat) (f : Nat),
    aloft s = true ∧ gcHeld s c = false ∧ findWindow s addr len = some f ∧ p48Up s = true ∧ semOwner s (semOf addr) =
      0) ∧
  (∃ (s : State) (c : Fin 4) (addr : Nat) (len : Nat) (f : Nat),
    aloft s = true ∧ gcHeld s c = false ∧ findWindow s addr len = some f ∧ p48Up s = true ∧ semOwner s (semOf addr) =
      0) ∧
  (∃ (s : State) (c : Fin 4) (addr : Nat) (len : Nat) (f : Nat) (st : Bool),
    aloft s = true ∧ gcHeld s c = false ∧ findWindow s addr len = some f ∧ p48Up s = true ∧ semOwner s (semOf addr) =
      3 + c.val) ∧
  (∃ (s : State) (c : Fin 4) (addr : Nat) (len : Nat) (f : Nat) (st : Bool),
    aloft s = true ∧ gcHeld s c = false ∧ findWindow s addr len = some f ∧ p48Up s = true ∧ semOwner s (semOf addr) ≠
      0 ∧ semOwner s (semOf addr) ≠ 3 + c.val) ∧
  (∃ (s : State) (c : Fin 4) (addr : Nat) (d : List Byte) (f : Nat) (st : Bool),
    aloft s = true ∧ gcHeld s c = false ∧ findWindow s addr d.length = some f ∧ bitAt f 2 = true ∧ p48Up s = true ∧
      semOwner s (semOf addr) = 3 + c.val ∧ s.host.semWait = []) ∧
    (∃ (s : State) (c : Fin 4) (addr : Nat) (d : List Byte) (f : Nat) (w : Nat) (a : Nat) (l : Nat) (t0 : Nat) (st :
      Bool),
    aloft s = true ∧ gcHeld s c = false ∧ findWindow s addr d.length = some f ∧ bitAt f 2 = true ∧ p48Up s = true ∧
      semOwner s (semOf addr) = 3 + c.val ∧ semWaiter s (semOf addr) = some (w, a, l, t0) ∧ w < 4 ∧ w ≠ c.val) ∧
  (∃ (s : State) (c : Fin 4) (addr : Nat) (d : List Byte) (f : Nat) (st : Bool),
    aloft s = true ∧ gcHeld s c = false ∧ findWindow s addr d.length = some f ∧ bitAt f 2 = true ∧ semOwner s (semOf
      addr) ≠ 3 + c.val) ∧
  (∃ (s : State) (c : Fin 4) (a : Nat) (l : Nat) (i : Nat) (t0 : Nat) (st : Bool),
    s.host.semWait.find c.val = some (a, l, i, t0) ∧ t0 + 10000 ≤ s.time.now) ∧
  (∃ (s : State) (c : Fin 4) (i : Nat),
    ((List.range 32).find? fun i => semOwner s i == 3 + c.val && (s.host.semSince.find i).all fun t => decide (t +
      10000 ≤ s.time.now)) = some i ∧ s.host.semWait = []) ∧
  (∃ (s : State) (c : Fin 4) (i : Nat) (w : Nat) (a : Nat) (l : Nat) (t0 : Nat),
    ((List.range 32).find? fun i => semOwner s i == 3 + c.val && (s.host.semSince.find i).all fun t => decide (t +
      10000 ≤ s.time.now)) = some i ∧ semWaiter s i = some (w, a, l, t0) ∧ w < 4) ∧
  (∃ (s : State) (m : Master) (i : Fin 32),
    (m = .host ∨ m = .spi) ∧ accepts s m (0x100100 + 4 * i.val) = true ∧ semOwner s i = 0) ∧
  (∃ (s : State) (m : Master) (i : Fin 32),
    (m = .host ∨ m = .spi) ∧ accepts s m (0x100100 + 4 * i.val) = true ∧ semOwner s i = origin m ∧ s.host.semWait =
      []) ∧
  (∃ (s : State) (m : Master) (i : Fin 32) (c : Nat) (a : Nat) (l : Nat) (t0 : Nat),
    (m = .host ∨ m = .spi) ∧ accepts s m (0x100100 + 4 * i.val) = true ∧ semOwner s i = origin m ∧ semWaiter s i =
      some (c, a, l, t0) ∧ c < 4) :=
  ⟨⟨withRec linked 0 0x0700 (2 ^ 24) (bytesWith 16 [(8, 1), (12, 5)]), 1, 64, 4, 5, by decide +kernel⟩,
   ⟨withRec linked 0 0x0700 (2 ^ 24) (bytesWith 16 [(8, 1), (12, 5)]), 1, 64, 4, 5, by decide +kernel⟩,
    ⟨put (withRec linked 0 0x0700 (2 ^ 24) (bytesWith 16 [(8, 1), (12, 5)])) (Reg.semOwner 1) 4, 1, 64, 4, 5, true,
      by decide +kernel⟩,
    ⟨put (withRec linked 0 0x0700 (2 ^ 24) (bytesWith 16 [(8, 1), (12, 5)])) (Reg.semOwner 1) 1, 1, 64, 4, 5, false,
      by decide +kernel⟩,
    ⟨put (withRec linked 0 0x0700 (2 ^ 24) (bytesWith 16 [(8, 1), (12, 5)])) (Reg.semOwner 1) 4, 1, 64, [7], 5, true,
      by decide +kernel⟩,
    ⟨put (withRec { linked with
      host.semWait := [(2, (64, 4, 1, 5))] } 0 0x0700 (2 ^ 24) (bytesWith 16 [(8, 1), (12, 5)])) (Reg.semOwner 1) 4,
      1, 64, [7], 5, 2, 64, 4, 5, true, by decide +kernel⟩,
   ⟨withRec linked 0 0x0700 (2 ^ 24) (bytesWith 16 [(8, 1), (12, 5)]), 1, 64, [7], 5, false, by decide +kernel⟩,
   ⟨{ up with host.semWait := [(1, (64, 4, 1, 5))] }, 1, 64, 4, 1, 5, false, by decide +kernel⟩,
   ⟨put { up with host.semSince := [(9, 5)] } (Reg.semOwner 9) 4, 1, 9, by decide +kernel⟩,
    ⟨put { up with
      host.semSince := [(9, 5)], host.semWait := [(2, (64, 4, 9, 5))] } (Reg.semOwner 9) 4, 1, 9, 2, 64, 4, 5,
      by decide +kernel⟩,
   ⟨up, .spi, 9, by decide +kernel⟩,
   ⟨put up (Reg.semOwner 9) 1, .host, 9, by decide +kernel⟩,
    ⟨put { linked with
      host.semWait := [(1, (64, 4, 9, 5))] } (Reg.semOwner 9) 1, .host, 9, 1, 64, 4, 5, by decide +kernel⟩⟩

/-- The hypotheses of every clause of SemaphoresAndLedger, LedgerReturnsOldestEntry, are met. -/
theorem test_LedgerReturnsOldestEntry :
  (∃ (s : State) (m : Master) (e : LedgerEntry),
    yields s m 0x10002C = true ∧ ledgerOldest s (origin m) = some e) ∧
  (∃ (s : State) (m : Master),
    yields s m 0x10002C = true ∧ ledgerOldest s (origin m) = none) :=
  ⟨⟨{ up with host.ledger := [⟨1, 2, 2, 0, 0⟩, ⟨9, 3, 1, 0, 7⟩] }, .host, ⟨9, 3, 1, 0, 7⟩, by decide +kernel⟩,
   ⟨up, .host, by decide +kernel⟩⟩

/-- The hypotheses of every clause of RingsAndTheirCompletions are met. -/
theorem test_RingsAndTheirCompletions :
  (∃ (s : State) (m : Master) (r : Fin 64) (w : Word),
    accepts s m (0x101010 + 0x40 * r.val) = true ∧ flag s (Reg.ringCfgEn r) = false ∧ bitAt w.toNat 4 = true) ∧
  (∃ (s : State) (m : Master) (r : Fin 64) (w : Word) (ds : List Descriptor),
    accepts s m (0x101014 + 0x40 * r.val) = true ∧ flag s (Reg.ringCfgEn r) = true) ∧
  (∃ (s : State) (r : Fin 64) (t0 : Nat),
    (ringOf s r).firstAt = some t0 ∧ get s (Reg.ringModModTimer r) ≠ 0 ∧ t0 + min 1000 (get s (Reg.ringModModTimer
      r)) * 1000 ≤ s.time.now ∧ p48Up s = true ∧ s.host.msixEn = true ∧ r.val ∉ s.host.msixMask) ∧
  (∃ (s : State) (r : Nat) (left : Nat),
    aloft s = true ∧ p48Up s = true ∧ s.host.fetching = none ∧ ingressClosed s = false ∧ s.host.fetchRetry = none ∧
      txNext s = some (r, left) ∧ txRoom s (headDesc s r) = true) ∧
  (∃ (s : State) (r : Nat) (left : Nat),
    fetchMay s = true ∧ s.host.fetchRetry = none ∧ txNext s = some (r, left) ∧ txRoom s (headDesc s r) = true) ∧
  (∃ (s : State) (r : Nat) (h : Nat) (res : FetchResult),
    r < 64 ∧ s.host.fetching = some (r, h) ∧ txServable s r = true ∧ get s (Reg.ringHeadHead r) = h ∧ (res =
      .descError ∨ (res = .frameError ∧ txDescOk (headDesc s r) = true))) ∧
  (∃ (s : State) (r : Nat) (h : Nat) (bytes : List Byte),
    r < 64 ∧ s.host.fetching = some (r, h) ∧ txServable s r = true ∧ get s (Reg.ringHeadHead r) = h ∧ txDescOk
      (headDesc s r) = true ∧ etypeAt (slice bytes 0 (leAt (headDesc s r) 8 2)) 12 ≠ 0x8808 ∧ ingressClosed s = false
      ∧ ((keepFilters s).all fun b => !(u8 b 1 == 2 && leAt b 2 2 == 48)) = true) ∧
  (∃ (s : State) (r : Nat) (h : Nat) (res : FetchResult),
    r < 64 ∧ s.host.fetching = some (r, h) ∧ txServable s r = true ∧ get s (Reg.ringHeadHead r) = h ∧ txDescOk
      (headDesc s r) = false ∧ res ≠ .descError) ∧
  (∃ (s : State) (r : Nat) (h : Nat) (res : FetchResult),
    s.host.fetching = some (r, h) ∧ txServable s r = false) ∧
  (∃ (s : State) (r : Fin 64) (w : TxWait) (l : List TxWait),
    (ringOf s r).waiting = w :: l ∧ p48Up s = true ∧ w.ready = true) :=
  ⟨⟨up, .host, 33, 0x15, by decide +kernel⟩,
   ⟨putFlag up (Reg.ringCfgEn 33) true, .host, 33, 1, [bytesWith 32 [(8, 64), (12, 1)]], by decide +kernel⟩,
    ⟨put { linked with
      host.msixMask := [], host.rings := [(3, ⟨true, 1, some 5, [], []⟩)] } (Reg.ringModModTimer 3) 8, 3, 5,
      by decide +kernel⟩,
    ⟨put (putFlag { linked with
      host.rings := [(33, ⟨true, 0, none, [(0, bytesWith 32 [(8, 64), (12, 1)])], []⟩)] } (Reg.ringCfgEn 33) true)
      (Reg.ringTail 33) 1, 33, 1, by decide +kernel⟩,
    ⟨put (putFlag { linked with
      host.rings := [(33, ⟨true, 0, none, [(0, bytesWith 32 [(8, 64), (12, 1)])], []⟩)] } (Reg.ringCfgEn 33) true)
      (Reg.ringTail 33) 1, 33, 1, by decide +kernel⟩,
    ⟨put (putFlag { linked with
      host.fetching := some (33, 0), host.rings := [(33, ⟨true, 0, none, [(0, bytesWith 32 [(8, 64), (12, 1)])],
      []⟩)] } (Reg.ringCfgEn 33) true) (Reg.ringTail 33) 1, 33, 0, .frameError, by decide +kernel⟩,
    ⟨put (putFlag { linked with
      host.fetching := some (33, 0), host.rings := [(33, ⟨true, 0, none, [(0, bytesWith 32 [(8, 64), (12, 1)])],
      []⟩)] } (Reg.ringCfgEn 33) true) (Reg.ringTail 33) 1, 33, 0, zeros 64, by decide +kernel⟩,
    ⟨put (putFlag { linked with
      host.fetching := some (33, 0), host.rings := [(33, ⟨true, 0, none, [(0, bytesWith 32 [(12, 1)])], []⟩)] }
      (Reg.ringCfgEn 33) true) (Reg.ringTail 33) 1, 33, 0, .frame (zeros 64), by decide +kernel⟩,
   ⟨{ linked with host.fetching := some (33, 0) }, 33, 0, .descError, by decide +kernel⟩,
    ⟨{ linked with
      host.rings := [(33, ⟨true, 0, none, [], [⟨0, [1, 2, 3, 4], 2, none, true, none⟩]⟩)] }, 33, ⟨0, [1, 2, 3, 4], 2,
      none, true, none⟩, [], by decide +kernel⟩⟩

/-- The hypotheses of every clause of StagingBelongsToItsOwner are met. -/
theorem test_StagingBelongsToItsOwner :
  (∃ (s : State) (m : Master) (a : Nat) (v : Word) (f : Fld) (k : Nat),
    accepts s m a = true ∧ stageMay s m = true ∧ (f, k) ∈ fieldsAt 0 a ∧ ((fieldsAt 0 a).map fun e => e.1.key).Nodup
      ∧ f.ty = .cmt ∧ f.width ≤ 32 ∧ cmtLive s f = true) ∧
  (∃ (s : State) (m : Master) (a : Nat) (v : Word),
    accepts s m a = true ∧ stageMay s m = false ∧ hasCmt a = true) ∧
  (∃ (s : State) (m : Master),
    accepts s m 0x40050 = true ∧ stageMay s m = true) ∧
  (∃ (s : State) (m : Master),
    accepts s m 0x40050 = true ∧ isOwner s m = true ∧ stageMay s m = true) ∧
  (∃ (s : State) (m : Master),
    accepts s m 0x40050 = true ∧ isOwner s m = true ∧ stageMay s m = true) ∧
  (∃ (s : State) (m : Master) (kind : Fin 4) (it : StageItem),
    accepts s m 0x40050 = true ∧ stageMay s m = true ∧ pushItem s kind = some it) ∧
  (∃ (s : State) (m : Master) (kind : Fin 4),
    accepts s m 0x40050 = true ∧ pushItem s kind = none) :=
  ⟨⟨up, .gc 1, (Reg.portCtlAdminEn 3).addr, 1, Reg.portCtlAdminEn 3, 0, by decide +kernel⟩,
   ⟨put up Reg.stageStatusOwner 1, .gc 2, (Reg.portCtlAdminEn 3).addr, 1, by decide +kernel⟩,
   ⟨up, .gc 2, by decide +kernel⟩,
   ⟨owned up, .gc 1, by decide +kernel⟩,
   ⟨owned up, .gc 1, by decide +kernel⟩,
    ⟨put (withRec up 0 0x0700 0 (bytesWith 112 [(5, 16)])) Reg.stageLen 64, .gc 1, 1, ⟨1, 0, 64, crc32 (zeros 64)⟩,
      by decide +kernel⟩,
   ⟨up, .sp, 0, by decide +kernel⟩⟩

/-- The hypotheses of every clause of CommitsAreJudgedAndArmed, CommitRequestJudged, are met. -/
theorem test_CommitRequestJudged :
  (∃ (s : State) (m : Master),
    accepts s m 0x40070 = true ∧ isOwner s m = true ∧ get s Reg.commitStatusState = 0 ∧ s.env.handover = false ∧
      s.env.items = [] ∧ s.env.staged = []) ∧
  (∃ (s : State) (m : Master),
    accepts s m 0x40070 = true ∧ isOwner s m = true ∧ get s Reg.commitStatusState ≠ 0) ∧
  (∃ (s : State) (m : Master),
    accepts s m 0x40070 = true ∧ isOwner s m = true ∧ get s Reg.commitStatusState = 0 ∧ s.env.handover = false ∧
      (s.env.items.isEmpty && s.env.staged.isEmpty) = false ∧ freeSlot s = none) ∧
  (∃ (s : State) (m : Master) (i : Nat),
    accepts s m 0x40070 = true ∧ isOwner s m = true ∧ get s Reg.commitStatusState = 0 ∧ s.env.handover = false ∧
      (s.env.items.isEmpty && s.env.staged.isEmpty) = false ∧ freeSlot s = some i) :=
  ⟨⟨owned up, .gc 1, by decide +kernel⟩,
   ⟨put (owned up) Reg.commitStatusState 4, .gc 1, by decide +kernel⟩,
   ⟨put { owned up with env.staged := [(5, 1)] } Reg.epochStatusSlotSt 0xFF, .gc 1, by decide +kernel⟩,
   ⟨{ owned up with env.staged := [(5, 1)] }, .gc 1, 0, by decide +kernel⟩⟩

/-- The hypotheses of every clause of CommitsAreJudgedAndArmed, CommitArmsOrFails, are met. -/
theorem test_CommitArmsOrFails :
  (∃ (s : State),
    get s Reg.commitStatusState = 3 ∧ s.env.prepDone = true ∧ s.env.prepFail = none ∧ sheetWritable s = true ∧
      s.env.entryDone = true) ∧
  (∃ (s : State),
    get s Reg.commitStatusState = 3 ∧ s.env.prepDone = true ∧ s.env.prepFail = none ∧ sheetWritable s = true ∧
      s.env.entryDone = false) ∧
  (∃ (s : State),
    get s Reg.commitStatusState = 3 ∧ s.env.prepDone = true ∧ s.env.prepFail = none ∧ sheetWritable s = false) ∧
  (∃ (s : State) (r : Nat) (j : Nat) (d : Nat),
    get s Reg.commitStatusState = 3 ∧ s.env.prepDone = true ∧ s.env.prepFail = some (r, j, d)) ∧
  (∃ (s : State) (m : Master),
    accepts s m 0x40070 = true ∧ isOwner s m = true ∧ get s Reg.commitStatusState ≠ 0 ∧ s.env.handover = false ∧ (get
      s Reg.commitStatusState = 4 → wcNow s + 2000 ≤ boundaryTime s s.env.t0)) ∧
  (∃ (s : State) (m : Master),
    accepts s m 0x40070 = true ∧ isOwner s m = false) ∧
  (∃ (s : State) (m : Master),
    accepts s m 0x40070 = true ∧ isOwner s m = true ∧ (get s Reg.commitStatusState = 0 ∨ s.env.handover = true)) ∧
  (∃ (s : State) (m : Master),
    accepts s m 0x40070 = true ∧ isOwner s m = true ∧ get s Reg.commitStatusState = 4 ∧ s.env.handover = false ∧
      boundaryTime s s.env.t0 < wcNow s + 2000) :=
  ⟨⟨withKey (put { up with env.prepDone := true, env.entryDone := true } Reg.commitStatusState 3) 3, by decide +kernel⟩,
   ⟨withKey (put { up with env.prepDone := true } Reg.commitStatusState 3) 3, by decide +kernel⟩,
   ⟨put (withRec { up with env.prepDone := true } 0 0x0700 3 [1]) Reg.commitStatusState 3, by decide +kernel⟩,
    ⟨put { up with
      env.prepDone := true, env.prepFail := some (6, 5, 4) } Reg.commitStatusState 3, 6, 5, 4, by decide +kernel⟩,
   ⟨put (owned up) Reg.commitStatusState 2, .gc 1, by decide +kernel⟩,
   ⟨put up Reg.commitStatusState 3, .gc 1, by decide +kernel⟩,
   ⟨put { owned up with env.handover := true } Reg.commitStatusState 3, .gc 1, by decide +kernel⟩,
   ⟨put (owned up) Reg.commitStatusState 4, .gc 1, by decide +kernel⟩⟩

/-- The hypotheses of every clause of LatchesHoldAndFreeSlots are met. -/
theorem test_LatchesHoldAndFreeSlots :
  (∃ (s : State) (m : Master),
    accepts s m 0x40090 = true) ∧
  (∃ (s : State) (m : Master),
    accepts s m 0x40090 = true) ∧
  (∃ (s : State) (i : Fin 4),
    slotState s i = 3 ∧ get s (Reg.inflightCount i) = 0 ∧ (s.env.latches.any fun e => e.2 == i.val) = false ∧ get s
      Reg.commitStatusState ≠ 2) ∧
  (∃ (s : State) (i : Fin 4),
    0 < get s (Reg.inflightCount i)) :=
  ⟨⟨up, .gc 1, by decide +kernel⟩,
   ⟨{ up with env.latches := [(2, 1)] }, .gc 1, by decide +kernel⟩,
   ⟨put (withRec up 1 0x0700 3 [1]) Reg.epochStatusSlotSt 12, 1, by decide +kernel⟩,
   ⟨put up (Reg.inflightCount 1) 5, 1, by decide +kernel⟩⟩

/-- The hypotheses of every clause of ScoresheetReadsAndRetires, ScoresheetEntriesAreRead, are met. -/
theorem test_ScoresheetEntriesAreRead :
  (∃ (s : State) (m : Master) (w : Word),
    accepts s m 0xE0048 = true ∧ bitAt w.toNat 0 = true) ∧
  (∃ (s : State) (e : List Byte),
    s.sheet.reading = true ∧ sheetFind s (get s Reg.sbRdSeq) = some e) ∧
  (∃ (s : State),
    s.sheet.reading = true ∧ sheetFind s (get s Reg.sbRdSeq) = none) :=
  ⟨⟨up, .gc 1, 1, by decide +kernel⟩,
   ⟨{ up with sheet.reading := true, sheet.entries := [(0, zeros 128)] }, zeros 128, by decide +kernel⟩,
   ⟨{ up with sheet.reading := true }, by decide +kernel⟩⟩

/-- The hypotheses of every clause of ScoresheetReadsAndRetires, BlocksRetireOldestFirst, are met. -/
theorem test_BlocksRetireOldestFirst :
  (∃ (s : State) (m : Master) (w : Word),
    accepts s m 0xE0100 = true ∧ (m = .sp ∨ m = .host ∨ m = .spi) ∧ bitAt w.toNat 8 = true ∧ bitsAt w.toNat 0 8 ≠
      s.sheet.oldest / 512 % 256) ∧
  (∃ (s : State) (m : Master) (w : Word),
    accepts s m 0xE0100 = true ∧ (m = .sp ∨ m = .host ∨ m = .spi) ∧ bitAt w.toNat 8 = true ∧ bitsAt w.toNat 0 8 =
      s.sheet.oldest / 512 % 256 ∧ oldestLast s = none) ∧
  (∃ (s : State) (m : Master) (w : Word) (e : List Byte),
    accepts s m 0xE0100 = true ∧ (m = .sp ∨ m = .host ∨ m = .spi) ∧ bitAt w.toNat 8 = true ∧ bitsAt w.toNat 0 8 =
      s.sheet.oldest / 512 % 256 ∧ oldestLast s = some e) :=
  ⟨⟨up, .sp, 0x103, by decide +kernel⟩,
   ⟨{ up with sheet.next := 5 }, .sp, 0x100, by decide +kernel⟩,
   ⟨{ up with sheet.next := 1000, sheet.entries := [(511, zeros 128)] }, .sp, 0x100, zeros 128, by decide +kernel⟩⟩

/-- The hypotheses of every clause of KeysAreRevokedAndImported, RevocationsAreJudged, are met. -/
theorem test_RevocationsAreJudged :
  (∃ (s : State) (m : Master) (w : Word),
    accepts s m 0xC0034 = true ∧ bitAt w.toNat 9 = true ∧ 8 ≤ bitsAt w.toNat 0 9 ∧ revokeMay s m (bitsAt w.toNat 0 9)
      = true ∧ slotReady s (bitsAt w.toNat 0 9) = true ∧ (s.vault.revPend.any fun r => r.slot == bitsAt w.toNat 0 9)
      = false ∧ s.vault.revPend.length < 8) ∧
  (∃ (s : State) (m : Master) (w : Word),
    accepts s m 0xC0034 = true ∧ bitAt w.toNat 9 = true ∧ (bitsAt w.toNat 0 9 < 8 ∨ revokeMay s m (bitsAt w.toNat 0
      9) = false)) ∧
  (∃ (s : State) (m : Master) (w : Word),
    accepts s m 0xC0034 = true ∧ bitAt w.toNat 9 = true ∧ 8 ≤ bitsAt w.toNat 0 9 ∧ revokeMay s m (bitsAt w.toNat 0 9)
      = true ∧ slotReady s (bitsAt w.toNat 0 9) = true ∧ (s.vault.revPend.any fun r => r.slot == bitsAt w.toNat 0 9)
      = false ∧ 8 ≤ s.vault.revPend.length) ∧
  (∃ (s : State) (m : Master) (w : Word),
    accepts s m 0xC0034 = true ∧ bitAt w.toNat 9 = true ∧ 8 ≤ bitsAt w.toNat 0 9 ∧ revokeMay s m (bitsAt w.toNat 0 9)
      = true ∧ slotReady s (bitsAt w.toNat 0 9) = false) ∧
  (∃ (s : State) (m : Master) (w : Word),
    accepts s m 0xC0034 = true ∧ bitAt w.toNat 9 = true ∧ 8 ≤ bitsAt w.toNat 0 9 ∧ revokeMay s m (bitsAt w.toNat 0 9)
      = true ∧ slotReady s (bitsAt w.toNat 0 9) = true ∧ (s.vault.revPend.any fun r => r.slot == bitsAt w.toNat 0 9)
      = true) ∧
  (∃ (s : State) (m : Master) (k : Fin 4),
    aloft s = true ∧ masterRuns s .sp = true ∧ (m = .host ∨ m = .spi) ∧ (lifeCycle s = 1 ∨ lifeCycle s = 2) ∧ bitAt
      s.otp.vkProg k = true ∧ bitAt s.otp.vkRevoked k = false ∧ ((List.range 4).any fun i => i != k && bitAt
      s.otp.vkProg i && !bitAt s.otp.vkRevoked i) = true) ∧
  (∃ (s : State) (m : Master) (k : Fin 4),
    ((List.range 4).any fun i => i != k && bitAt s.otp.vkProg i && !bitAt s.otp.vkRevoked i) = false) :=
  ⟨⟨withKey up 9, .sp, 0x209, by decide +kernel⟩,
   ⟨withKey up 9, .sp, 0x203, by decide +kernel⟩,
   ⟨{ withKey up 9 with vault.revPend := List.replicate 8 ⟨20, 0, 0⟩ }, .gc 1, 0x209, by decide +kernel⟩,
   ⟨up, .sp, 0x209, by decide +kernel⟩,
   ⟨{ withKey up 9 with vault.revPend := [⟨9, 0, 0⟩] }, .sp, 0x209, by decide +kernel⟩,
   ⟨{ up with otp.lc := 1 }, .host, 2, by decide +kernel⟩,
   ⟨{ up with otp.vkRevoked := 11 }, .host, 2, by decide +kernel⟩⟩

/-- The hypotheses of every clause of KeysAreRevokedAndImported, ImportedKeysAreJudged, are met. -/
theorem test_ImportedKeysAreJudged :
  (∃ (s : State) (m : Master) (w : Word),
    accepts s m 0xC0050 = true ∧ bitAt w.toNat 9 = true ∧ m ≠ .dbg ∧ ((recipe s (curSlot s) (bitsAt w.toNat 0 9)).all
      fun b => leAt b 4 2 == 128 || leAt b 4 2 == 256) = true) :=
  ⟨withKey (withRec up 0 0x0500 9 (bytesWith 32 [(4, 128), (6, 31)])) 20, .host, 0x209, by decide +kernel⟩

/-- The hypotheses of every clause of RemaskingAndTamper, RemaskingKeepsKeys, are met. -/
theorem test_RemaskingKeepsKeys :
  (∃ (s : State),
    aloft s = true ∧ flag s Reg.vaultStatusDrbgFault = false) ∧
  (∃ (s : State),
    flag s Reg.vaultStatusDrbgFault = true) ∧
  (∃ (s : State),
    aloft s = true) ∧
  (∃ (s : State),
    aloft s = false ∧ vaultPowered s = true) ∧
  (∃ (s : State),
    aloft s = true ∧ s.fault.recs.length < 16) :=
  ⟨⟨withKey up 9, by decide +kernel⟩,
   ⟨put up Reg.vaultStatusDrbgFault 1, by decide +kernel⟩,
   ⟨up, by decide +kernel⟩,
   ⟨{ up with boot.phase := .starting }, by decide +kernel⟩,
   ⟨up, by decide +kernel⟩⟩

/-- The hypotheses of every clause of RemaskingAndTamper, TamperWipesTheVault, are met. -/
theorem test_TamperWipesTheVault :
  (∃ (s : State) (c : TamperCause) (ns : Nat),
    s.boot.phase ≠ .off ∧ (c ≠ .pin ∨ 1000 < ns)) ∧
  (∃ (s : State) (ns : Nat),
    ns < 200) ∧
  (∃ (s : State) (m : Master) (w : Word),
    accepts s m 0xC0044 = true ∧ bitAt w.toNat 0 = true ∧ flag s Reg.vaultStatusTamperLatch = true) ∧
  (∃ (s : State) (m : Master) (w : Word),
    accepts s m 0xC0044 = true ∧ flag s Reg.vaultStatusTamperLatch = false) :=
  ⟨⟨withKey up 9, .pin, 2000, by decide +kernel⟩,
   ⟨up, 199, by decide +kernel⟩,
   ⟨put up Reg.vaultStatusTamperLatch 1, .sp, 1, by decide +kernel⟩,
   ⟨up, .sp, 1, by decide +kernel⟩⟩

/-- The hypotheses of every clause of MacJobsAndAttestation, BulkMacJobs, are met. -/
theorem test_BulkMacJobs :
  (∃ (s : State) (m : Master) (w : Word) (b : Nat),
    accepts s m 0xC0180 = true ∧ mcjBank m = some b ∧ s.vault.mcj.find b = none ∧ bitAt w.toNat 12 = true ∧
      mcjSourceOk s b (get s (Reg.mcjSrc b)) (get s (Reg.mcjLen b)) = true ∧ keyCheck s (bitsAt w.toNat 3 9)
      (requester m).1 (requester m).2 (mcjUsage (bitsAt w.toNat 0 3)) = 0 ∧ (∀ e ∈ s.vault.mcj, e.1 < 6 ∧ get s
      (Reg.mcjStatusState e.1) = 2)) ∧
  (∃ (s : State) (m : Master) (w : Word) (b : Nat),
    accepts s m 0xC0180 = true ∧ mcjBank m = some b ∧ s.vault.mcj.find b = none ∧ bitAt w.toNat 12 = true ∧
      mcjSourceOk s b (get s (Reg.mcjSrc b)) (get s (Reg.mcjLen b)) = true ∧ keyCheck s (bitsAt w.toNat 3 9)
      (requester m).1 (requester m).2 (mcjUsage (bitsAt w.toNat 0 3)) = 2) ∧
  (∃ (s : State) (m : Master) (b : Nat) (j : McjJob),
    mcjBank m = some b ∧ get s (Reg.mcjStatusState b) = 2 ∧ s.vault.mcj.find b = some j ∧ get s
      Reg.macStatusSuspended < 32 ∧ onSha j = false ∧ mcjYields s b j = true ∧ hitsMark s .h j.src j.len = none) ∧
  (∃ (s : State) (m : Master) (b : Nat) (j : McjJob),
    mcjBank m = some b ∧ s.vault.mcj.find b = some j ∧ mcjYields s b j = false) ∧
  (∃ (s : State) (m : Master) (b : Nat) (j : McjJob) (ecc : BankEcc),
    mcjBank m = some b ∧ s.vault.mcj.find b = some j ∧ (∀ e ∈ s.vault.mcj, e.1 < 6 ∧ get s (Reg.mcjStatusState e.1) =
      2) ∧ get s (Reg.mcjStatusState b) = 2 ∧ slotReady s j.slot = true ∧ genOf s j.slot = j.gen ∧ hitsMark s .h
      j.src j.len = none ∧ (ecc = .clean ∨ ecc = .corrected) ∧ j.op = 1) ∧
  (∃ (s : State) (m : Master) (b : Nat) (j : McjJob) (ecc : BankEcc),
    mcjBank m = some b ∧ s.vault.mcj.find b = some j ∧ (∀ e ∈ s.vault.mcj, e.1 < 6 ∧ get s (Reg.mcjStatusState e.1) =
      2) ∧ get s (Reg.mcjStatusState b) = 2 ∧ slotReady s j.slot = true ∧ genOf s j.slot = j.gen ∧ hitsMark s .h
      j.src j.len = none ∧ (ecc = .clean ∨ ecc = .corrected) ∧ j.op = 2) ∧
  (∃ (s : State) (m : Master) (b : Nat) (j : McjJob) (ecc : BankEcc),
    mcjBank m = some b ∧ s.vault.mcj.find b = some j ∧ (∀ e ∈ s.vault.mcj, e.1 < 6 ∧ get s (Reg.mcjStatusState e.1) =
      2) ∧ get s (Reg.mcjStatusState b) = 2 ∧ (slotReady s j.slot = false ∨ genOf s j.slot ≠ j.gen) ∧ flag s
      Reg.vaultStatusTamperLatch = false) ∧
  (∃ (s : State) (m : Master) (b : Nat) (w : Nat) (j : McjJob),
    mcjBank m = some b ∧ s.vault.mcj.find b = some j ∧ (∀ e ∈ s.vault.mcj, e.1 < 6 ∧ get s (Reg.mcjStatusState e.1) =
      2) ∧ get s (Reg.mcjStatusState b) = 2 ∧ slotReady s j.slot = true ∧ genOf s j.slot = j.gen ∧ j.read.length <
      j.len ∧ hitsMark s .h j.src j.len = none) :=
      ⟨⟨put (withKey (withStruct up 0x0030 (bytesWith 160 [(1, 1), (34, 16), (36, 255), (37, 255)])) 9) (Reg.mcjLen 2)
      64, .gc 1, 0x1049, 2, by decide +kernel⟩,
    ⟨put { up with
      vault.slots := [(9, ⟨2, [1], [2], 0, 1, 0, false, 31, false, 31, 7, 3⟩)], env.structural := [(0x0030, bytesWith
      160 [(1, 1), (34, 16), (36, 255), (37, 255)])] } (Reg.mcjLen 2) 64, .gc 1, 0x1049, 2, by decide +kernel⟩,
    ⟨put { up with
      vault.mcj := [(2, ⟨1, 9, 0, 0, 64, [], 0⟩)], net.packets := [(9, { frameOn 3 64 with hold := some held })] }
      (Reg.mcjStatusState 2) 2, .gc 1, 2, ⟨1, 9, 0, 0, 64, [], 0⟩, by decide +kernel⟩,
    ⟨put (withKey { up with
      vault.mcj := [(2, ⟨1, 9, 0, 0, 64, [], 0⟩)] } 9) (Reg.mcjStatusState 2) 2, .gc 1, 2, ⟨1, 9, 0, 0, 64, [], 0⟩,
      by decide +kernel⟩,
    ⟨put (withKey { up with
      vault.mcj := [(2, ⟨1, 9, 0, 0, 64, [], 0⟩)] } 9) (Reg.mcjStatusState 2) 2, .gc 1, 2, ⟨1, 9, 0, 0, 64, [], 0⟩,
      .clean, by decide +kernel⟩,
    ⟨put (withKey { up with
      vault.mcj := [(2, ⟨2, 9, 0, 0, 64, [], 0⟩)] } 9) (Reg.mcjStatusState 2) 2, .gc 1, 2, ⟨2, 9, 0, 0, 64, [], 0⟩,
      .clean, by decide +kernel⟩,
    ⟨put { up with
      vault.mcj := [(2, ⟨2, 9, 0, 0, 64, [], 0⟩)] } (Reg.mcjStatusState 2) 2, .gc 1, 2, ⟨2, 9, 0, 0, 64, [], 0⟩,
      .clean, by decide +kernel⟩,
    ⟨put (withKey { up with
      vault.mcj := [(2, ⟨2, 9, 0, 0, 64, [], 0⟩)] } 9) (Reg.mcjStatusState 2) 2, .gc 1, 2, 8, ⟨2, 9, 0, 0, 64, [],
      0⟩, by decide +kernel⟩⟩

/-- The hypotheses of every clause of MacJobsAndAttestation, AttestationAnswers, are met. -/
theorem test_AttestationAnswers :
  (∃ (s : State) (m : Master) (w : Word),
    accepts s m 0xC0210 = true ∧ (m = .sp ∨ m = .host ∨ m = .spi) ∧ bitAt w.toNat 0 = true ∧ get s Reg.attCtlState ≠
      1 ∧ keyCheck s 2 1 true 0 = 0) ∧
  (∃ (s : State) (m : Master) (w : Word),
    accepts s m 0xC0210 = true ∧ (m = .sp ∨ m = .host ∨ m = .spi) ∧ bitAt w.toNat 0 = true ∧ get s Reg.attCtlState =
      1) ∧
  (∃ (s : State) (m : Master) (w : Word),
    accepts s m 0xC0210 = true ∧ (m = .sp ∨ m = .host ∨ m = .spi) ∧ bitAt w.toNat 0 = true ∧ get s Reg.attCtlState ≠
      1 ∧ keyCheck s 2 1 true 0 ≠ 0) ∧
  (∃ (s : State),
    get s Reg.attCtlState = 1 ∧ attPending s = false ∧ slotReady s 2 = true) :=
  ⟨⟨withKey up 2, .sp, 1, by decide +kernel⟩,
   ⟨put up Reg.attCtlState 1, .sp, 1, by decide +kernel⟩,
   ⟨up, .sp, 1, by decide +kernel⟩,
   ⟨withKey (put up Reg.attCtlState 1) 2, by decide +kernel⟩⟩

/-- The hypotheses of every clause of LinksTrainAndChange, TrainingMovesTheLink, are met. -/
theorem test_TrainingMovesTheLink :
  (∃ (s : State) (p : Fin 48) (sig : Nat),
    t1Port p = true ∧ linkState s p = 2) ∧
  (∃ (s : State) (p : Fin 48) (sig : Nat),
    t1Port p = true ∧ linkState s p = 1 ∧ s.net.partnerSig.find p.val = some sig) ∧
  (∃ (s : State) (p : Fin 48),
    linkState s p = 1 ∧ retainedBound p ≤ linkAge s p) ∧
  (∃ (s : State) (p : Fin 48),
    linkState s p = 1 ∧ linkAge s p < retainedBound p) ∧
  (∃ (s : State) (p : Fin 48),
    linkState s p = 2 ∧ 100000000 ≤ linkAge s p) ∧
  (∃ (s : State) (p : Fin 48) (sig : Nat),
    linkState s p = 1 ∧ s.net.partnerSig.find p.val ≠ some sig) :=
  ⟨⟨put up (Reg.portStatusState 3) 2, 3, 77, by decide +kernel⟩,
   ⟨put { up with net.partnerSig := [(3, 77)] } (Reg.portStatusState 3) 1, 3, 77, by decide +kernel⟩,
   ⟨put up (Reg.portStatusState 3) 1, 3, by decide +kernel⟩,
   ⟨put { up with net.linkSince := [(3, 9999999999)] } (Reg.portStatusState 3) 1, 3, by decide +kernel⟩,
   ⟨put up (Reg.portStatusState 3) 2, 3, by decide +kernel⟩,
   ⟨put up (Reg.portStatusState 3) 1, 3, 77, by decide +kernel⟩⟩

/-- The hypotheses of every clause of LinksTrainAndChange, LinksGoUpAndDown, are met. -/
theorem test_LinksGoUpAndDown :
  (∃ (s : State) (p : Fin 48),
    t1Port p = true ∧ linkState s p = 3) ∧
  (∃ (s : State) (k : Fin 4) (speed : Nat) (v : Nat),
    aloft s = true ∧ linkState s (12 + k) ≠ 3 ∧ cur s (Reg.portCtlAdminEn (12 + k)) ≠ 0 ∧ get s (Reg.portModeMode (12
      + k)) ≠ 0 ∧ calPort s (12 + k) = false ∧ laneSpeed s k speed = some v) ∧
  (∃ (s : State) (k : Fin 4),
    linkState s (12 + k) = 3) ∧
  (∃ (s : State) (p : Fin 48),
    linkState s p ≠ 3) :=
  ⟨⟨put (put up (Reg.portStatusState 3) 3) (Reg.portStatusLink 3) 1, 3, by decide +kernel⟩,
    ⟨putCmt (put (withStruct up 0x0011 (bytesWith 64 [(0, 1), (16, 1), (32, 1)])) (Reg.portModeMode 14) 1) 0
      (Reg.portCtlAdminEn 14) 1, 2, 6, 7, by decide +kernel⟩,
   ⟨put (put up (Reg.portStatusState 14) 3) (Reg.portStatusLink 14) 1, 2, by decide +kernel⟩,
   ⟨up, 3, by decide +kernel⟩⟩

/-- The hypotheses of every clause of PortFeaturesFollowTheLink, PlcaStatusIsReported, are met. -/
theorem test_PlcaStatusIsReported :
  (∃ (s : State) (i : Fin 8) (active : Bool),
    plcaEn s (40 + i) = true ∧ linkState s (40 + i) = 3 ∧ flag s (Reg.portStatusPlcaActive (40 + i)) ≠ active) ∧
  (∃ (s : State) (i : Fin 8),
    plcaEn s (40 + i) = true ∧ linkState s (40 + i) = 3 ∧ get s (Reg.plcaCfgPlcaId i) ≠ 0 ∧ flag s
      (Reg.portStatusPlcaActive (40 + i)) = true) ∧
  (∃ (s : State) (i : Fin 8),
    get s (Reg.plcaCfgPlcaId i) = 0) :=
      ⟨⟨put (withStruct up 0x0010 (bytesWith 2304 [(1922, 2), (1970, 2)])) (Reg.portStatusState 41) 3, 1, true,
      by decide +kernel⟩,
    ⟨put (put (put (withStruct up 0x0010 (bytesWith 2304 [(1970, 2)])) (Reg.portStatusState 41) 3)
      (Reg.portStatusPlcaActive 41) 1) (Reg.plcaCfgPlcaId 1) 2, 1, by decide +kernel⟩,
   ⟨up, 1, by decide +kernel⟩⟩

/-- The hypotheses of every clause of PortFeaturesFollowTheLink, PreemptionIsVerified, are met. -/
theorem test_PreemptionIsVerified :
  (∃ (s : State) (p : Fin 48),
    get s (Reg.preemptStatusVerifySt p) = 2 ∧ portUp s p = true) ∧
  (∃ (s : State) (p : Fin 48),
    get s (Reg.preemptStatusVerifySt p) = 2 ∧ portUp s p = true ∧ (s.net.verifyAt.find p.val).getD 0 + 1000000 *
      verifyTime s p ≤ s.time.now ∧ (s.net.verifySent.find p.val).getD 0 < 3) ∧
  (∃ (s : State) (p : Fin 48),
    get s (Reg.preemptStatusVerifySt p) = 2 ∧ portUp s p = true ∧ (s.net.verifyAt.find p.val).getD 0 + 1000000 *
      verifyTime s p ≤ s.time.now ∧ 3 ≤ (s.net.verifySent.find p.val).getD 0) :=
  ⟨⟨put (put up (Reg.portStatusLink 20) 1) (Reg.preemptStatusVerifySt 20) 2, 20, by decide +kernel⟩,
   ⟨put (put up (Reg.portStatusLink 20) 1) (Reg.preemptStatusVerifySt 20) 2, 20, by decide +kernel⟩,
    ⟨{ put (put up (Reg.portStatusLink 20) 1) (Reg.preemptStatusVerifySt 20) 2 with
      net.verifySent := [(20, 3)] }, 20, by decide +kernel⟩⟩

/-- The hypotheses of every clause of PortFeaturesFollowTheLink, NetworksFallIdleAndAreSuppressed, are met. -/
theorem test_NetworksFallIdleAndAreSuppressed :
  (∃ (s : State) (n : Fin 32),
    netAwake s n = false) ∧
  (∃ (s : State) (n : Fin 32) (b : List Byte),
    aloft s = true ∧ networkRec s n = some b ∧ netAwake s n = true ∧ netSuppressed s n = false ∧ leAt b 4 4 ≠ 0 ∧
      leAt b 4 4 ≤ episodeSeconds s n) ∧
  (∃ (s : State) (m : Master) (w : Word),
    accepts s m 0x010180 = true) :=
  ⟨⟨{ up with wake.hits := [(3, [⟨1, 2, 3, 4, 5⟩]), (4, [])] }, 3, by decide +kernel⟩,
    ⟨{ withRec up 0 0x0400 (2 ^ 24 + 3) (bytesWith 32 [(0, 1), (3, 4), (4, 1)]) with
      wake.hits := [(3, [⟨1, 2, 3, 4, 9999999999⟩])], wake.awakeSince := [(3, 5)] }, 3, bytesWith 32 [(0, 1), (3, 4),
      (4, 1)], by decide +kernel⟩,
   ⟨{ up with wake.suppressed := [(0, []), (3, [])] }, .sp, 8, by decide +kernel⟩⟩

/-- The hypotheses of every clause of MacsecAcceptsWhatVerifies are met. -/
theorem test_MacsecAcceptsWhatVerifies :
  (∃ (s : State) (p : Fin 48) (u : Nat) (pk : Packet) (h : RxHold),
    (firstPacket s fun x => x.port == p.val && x.hold.isSome) = some (u, pk) ∧ pk.port = p ∧ pk.hold = some h ∧ h.sa
      < 36 ∧ keyCheck s h.key portRequester true 1 = 0 ∧ genOf s h.key = h.gen ∧ (saState s p h.sa h.key).exhausted =
      false ∧ replayed (saState s p h.sa h.key).pn h.pn h.win = false) ∧
  (∃ (s : State) (p : Fin 48) (u : Nat) (pk : Packet) (h : RxHold),
    (firstPacket s fun x => x.port == p.val && x.hold.isSome) = some (u, pk) ∧ pk.port = p ∧ pk.hold = some h ∧
      keyCheck s h.key portRequester true 1 = 0 ∧ genOf s h.key = h.gen ∧ ((saState s p h.sa h.key).exhausted = true
      ∨ replayed (saState s p h.sa h.key).pn h.pn h.win = true)) ∧
  (∃ (s : State) (p : Fin 48) (u : Nat) (pk : Packet) (h : RxHold),
    (firstPacket s fun x => x.port == p.val && x.hold.isSome) = some (u, pk) ∧ pk.port = p ∧ pk.hold = some h ∧
      keyCheck s h.key portRequester true 1 = 2) ∧
  (∃ (s : State) (p : Fin 48) (u : Nat) (pk : Packet) (cfg : RxCfg) (h : RxHold) (asmErr : Bool),
    (firstPacket s fun x => x.port == p.val && !x.come) = some (u, pk) ∧ pk.tail = 0 ∧ pk.ends = none ∧ pk.sec = some
      cfg ∧ pk.passes = 0 ∧ pk.decided = false ∧ 64 ≤ pk.rxLen ∧ pk.rxLen ≤ 10240 ∧ (asmErr && preemptCap s p) =
      false ∧ rxCheck s cfg p pk.bytes = .hold h) :=
      ⟨⟨withKey { up with
      net.packets := [(9, { frameOn 3 64 with hold := some held })] } 9, 3, 9, { frameOn 3 64 with
      hold := some held }, held, by decide +kernel⟩,
    ⟨withKey (put { up with
      net.packets := [(9, { frameOn 3 64 with hold := some held })] } (Reg.saStatExhausted 3 4) 1) 9, 3, 9,
      { frameOn 3 64 with
      hold := some held }, held, by decide +kernel⟩,
    ⟨{ up with
      net.packets := [(9, { frameOn 3 64 with hold := some held })], vault.slots := [(9, ⟨2, [], [], 0, 1, 0, false,
      31, false, 31, 7, 3⟩)] }, 3, 9, { frameOn 3 64 with
      hold := some held }, held, by decide +kernel⟩,
    ⟨withKey { up with
      net.packets := [(9,
      { frameOn 3 64 with bytes := bytesWith 60 [(12, 0x88), (13, 0xE5), (14, 0x20), (15, 20), (19, 9)], rxLen := 64, written := 0, tail := 0, come := false, sec := some ⟨false, 0, some 0, [(0, 0, [⟨true, 9, 0, 0⟩])]⟩, slot := none })]
      } 9, 3, 9, { frameOn 3 64 with
      bytes := bytesWith 60 [(12, 0x88), (13, 0xE5), (14, 0x20), (15, 20), (19, 9)], rxLen := 64, written := 0, tail
      := 0, come := false, sec := some ⟨false, 0, some 0, [(0, 0, [⟨true, 9, 0, 0⟩])]⟩, slot := none }, ⟨false, 0,
      some 0, [(0, 0, [⟨true, 9, 0, 0⟩])]⟩, ⟨4, 9, 9, 0, zeros 11 ++ [9], some 0, false, 16, 20⟩, false,
      by decide +kernel⟩⟩

/-- The hypotheses of every clause of ClassifierTablesAndProbes, ClassifierTablesAreRead, are met. -/
theorem test_ClassifierTablesAreRead :
  (∃ (s : State) (m : Master) (w : Word) (sect : Nat) (e : Nat) (b : List Byte),
    accepts s m 0x600000 = true ∧ bitAt w.toNat 0 = true ∧ bitAt w.toNat 1 = false ∧ bitsAt w.toNat 2 3 ≠ 3 ∧
      clsSection (bitsAt w.toNat 2 3) = some sect ∧ viewSlot s m (bitsAt w.toNat 20 2) (bitsAt w.toNat 22 2) = some e
      ∧ recOf s e sect (bitsAt w.toNat 5 15) = some b) ∧
  (∃ (s : State) (m : Master) (w : Word) (sect : Nat) (e : Nat),
    accepts s m 0x600000 = true ∧ bitAt w.toNat 0 = true ∧ bitAt w.toNat 1 = false ∧ bitsAt w.toNat 2 3 ≠ 3 ∧
      clsSection (bitsAt w.toNat 2 3) = some sect ∧ viewSlot s m (bitsAt w.toNat 20 2) (bitsAt w.toNat 22 2) = some e
      ∧ recOf s e sect (bitsAt w.toNat 5 15) = none) ∧
  (∃ (s : State) (m : Master) (w : Word) (sect : Nat),
    accepts s m 0x600000 = true ∧ bitAt w.toNat 0 = true ∧ bitAt w.toNat 1 = false ∧ bitsAt w.toNat 2 3 ≠ 3 ∧
      clsSection (bitsAt w.toNat 2 3) = some sect ∧ viewSlot s m (bitsAt w.toNat 20 2) (bitsAt w.toNat 22 2) = none) :=
      ⟨⟨withRec up 0 0x0120 3 (bytesWith 192 [(0, 5), (6, 1)]), .sp, 0x61, 0x0120, 0, bytesWith 192 [(0, 5), (6, 1)],
      by decide +kernel⟩,
   ⟨up, .sp, 0x61, 0x0120, 0, by decide +kernel⟩,
   ⟨up, .sp, 0x500061, 0x0120, by decide +kernel⟩⟩

/-- The hypotheses of every clause of ClassifierTablesAndProbes, ProbesUseFreeSlots, are met. -/
theorem test_ProbesUseFreeSlots :
  (∃ (s : State) (m : Master) (w : Word) (e : Nat),
    accepts s m 0x600000 = true ∧ bitAt w.toNat 0 = false ∧ bitAt w.toNat 1 = true ∧ viewSlot s m (bitsAt w.toNat 20
      2) (bitsAt w.toNat 22 2) = some e) ∧
  (∃ (s : State) (e : Nat) (at_ : Nat),
    s.net.probing = some (e, at_) ∧ slotState s e ≠ 0 ∧ s.time.now ≤ at_ + 10000) ∧
  (∃ (s : State) (e : Nat) (at_ : Nat) (free : Bool),
    s.net.probing = some (e, at_) ∧ slotState s e ≠ 0 ∧ at_ + 10000 < s.time.now) :=
  ⟨⟨up, .sp, 2, 0, by decide +kernel⟩,
   ⟨put { up with net.probing := some (0, 9999999999) } Reg.epochStatusSlotSt 2, 0, 9999999999, by decide +kernel⟩,
   ⟨put { up with net.probing := some (0, 5) } Reg.epochStatusSlotSt 2, 0, 5, true, by decide +kernel⟩⟩

/-- The hypotheses of every clause of FragmentsAndConversations, FragmentsAndConversationsExpire, are met. -/
theorem test_FragmentsAndConversationsExpire :
  (∃ (s : State) (i : Fin 2048) (e : Frag),
    s.net.frags.find i.val = some e ∧ e.madeAt + 50000000 ≤ s.time.now) ∧
  (∃ (s : State) (i : Fin 2048) (e : Frag),
    s.net.frags.find i.val = some e ∧ s.time.now < e.madeAt + 50000000) ∧
  (∃ (s : State) (i : Fin 65536) (c : Conv),
    s.net.convs.find i.val = some c ∧ s.net.convFlushing = false ∧ convTimeout s c * 1000000000 < s.time.now -
      c.hitAt) ∧
  (∃ (s : State) (i : Fin 65536) (c : Conv),
    s.net.convs.find i.val = some c ∧ s.time.now - c.hitAt ≤ convTimeout s c * 1000000000) :=
      ⟨⟨{ up with
      net.frags := [(3, ⟨false, [], [], 17, 1, 2, 0, 5, 6, 7, 100⟩), (4, ⟨false, [], [], 17, 1, 2, 0, 5, 6, 7, 100⟩)]
      }, 3, ⟨false, [], [], 17, 1, 2, 0, 5, 6, 7, 100⟩, by decide +kernel⟩,
    ⟨{ up with
      net.frags := [(3, ⟨false, [], [], 17, 1, 2, 0, 5, 6, 7, 9999999999⟩)] }, 3, ⟨false, [], [], 17, 1, 2, 0, 5, 6,
      7, 9999999999⟩, by decide +kernel⟩,
   ⟨{ up with time.now := 10 ^ 15, net.convs := [(3, conv0), (4, conv0)] }, 3, conv0, by decide +kernel⟩,
   ⟨{ up with time.now := 0, net.convs := [(3, conv0), (4, conv0)] }, 3, conv0, by decide +kernel⟩⟩

/-- The hypotheses of every clause of FragmentsAndConversations, ConversationAccessPort, are met. -/
theorem test_ConversationAccessPort :
  (∃ (s : State) (m : Master) (w : Word) (c : Conv),
    accepts s m 0x610100 = true ∧ bitAt w.toNat 0 = true ∧ bitAt w.toNat 1 = false ∧ s.net.convs.find (bitsAt w.toNat
      2 16) = some c ∧ s.net.convFlushing = false) ∧
  (∃ (s : State) (m : Master) (w : Word),
    accepts s m 0x610100 = true ∧ bitAt w.toNat 0 = true ∧ bitAt w.toNat 1 = false ∧ s.net.convs.find (bitsAt w.toNat
      2 16) = none) ∧
  (∃ (s : State) (m : Master) (w : Word),
    accepts s m 0x610100 = true ∧ bitAt w.toNat 0 = false ∧ bitAt w.toNat 1 = true) ∧
  (∃ (s : State),
    s.net.convFlushing = true) :=
  ⟨⟨{ up with net.convs := [(3, conv0), (4, conv0)] }, .sp, 13, conv0, by decide +kernel⟩,
   ⟨up, .sp, 13, by decide +kernel⟩,
   ⟨{ up with net.convs := [(3, conv0)] }, .sp, 2, by decide +kernel⟩,
   ⟨{ up with net.convs := [(3, conv0)], net.convFlushing := true }, by decide +kernel⟩⟩

/-- The hypotheses of every clause of ShadowSelftestRunsOncePerTempo are met. -/
theorem test_ShadowSelftestRunsOncePerTempo :
  (∃ (s : State) (idle : Bool),
    aloft s = true ∧ s.net.selftestTempo ≠ some (tempoNo s)) ∧
  (∃ (s : State) (idle : Bool),
    aloft s = true ∧ s.net.selftestTempo ≠ some (tempoNo s) ∧ s.fault.recs.length < 16) ∧
  (∃ (s : State) (idle : Bool) (flagged : Bool),
    s.net.selftestTempo = some (tempoNo s)) ∧
  (∃ (s : State) (m : Master),
    accepts s m 0x600F00 = true) :=
  ⟨⟨up, false, by decide +kernel⟩,
   ⟨up, false, by decide +kernel⟩,
   ⟨{ up with net.selftestTempo := some 0 }, false, false, by decide +kernel⟩,
   ⟨put up Reg.shadowStatusSelftestFault 1, .sp, by decide +kernel⟩⟩

/-- The hypotheses of every clause of ContainmentFollowsItsCauses, ContainmentIsActivated, are met. -/
theorem test_ContainmentIsActivated :
  (∃ (s : State) (m : Master) (w : Word) (b : List Byte),
    accepts s m 0x610004 = true ∧ bitAt w.toNat 3 = true ∧ profileRec s (curSlot s) (w.toNat % 8) = some b ∧ actMay s
      m b = true) ∧
  (∃ (s : State) (m : Master) (w : Word) (b : List Byte),
    accepts s m 0x610004 = true ∧ bitAt w.toNat 3 = true ∧ profileRec s (curSlot s) (w.toNat % 8) = some b ∧ actMay s
      m b = false) ∧
  (∃ (s : State) (m : Master) (w : Word),
    accepts s m 0x610004 = true ∧ bitAt w.toNat 3 = true ∧ profileRec s (curSlot s) (w.toNat % 8) = none) :=
      ⟨⟨withRec up 0 0x0150 2 (bytesWith 96 [(0, 1), (1, 255)]), .gc 1, 10, bytesWith 96 [(0, 1), (1, 255)],
      by decide +kernel⟩,
    ⟨withRec up 0 0x0150 2 (bytesWith 96 [(0, 1), (1, 1)]), .gc 1, 10, bytesWith 96 [(0, 1), (1, 1)],
      by decide +kernel⟩,
   ⟨up, .gc 1, 10, by decide +kernel⟩⟩

/-- The hypotheses of every clause of ContainmentFollowsItsCauses, ContainmentReleaseIsAskedFor, are met. -/
theorem test_ContainmentReleaseIsAskedFor :
  (∃ (s : State) (m : Master) (w : Word),
    accepts s m 0x610008 = true ∧ w.toNat < 256) ∧
  (∃ (s : State) (m : Master) (w : Word),
    accepts s m 0x610008 = true ∧ w.toNat % 256 = 0 ∧ w.toNat < 65536) ∧
  (∃ (s : State) (m : Master) (w : Word),
    accepts s m 0x61000C = true ∧ w.toNat % 256 ≠ 0 ∧ srcState s 2 = 0) :=
  ⟨⟨put { up with cont.relAt := [(1, 5)] } Reg.contStatusRelPend 3, .sp, 3, by decide +kernel⟩,
   ⟨put up Reg.contStatusRelPend 3, .sp, 0x200, by decide +kernel⟩,
   ⟨up, .host, 6, by decide +kernel⟩⟩

/-- The hypotheses of every clause of ContainmentFollowsItsCauses, RipcordActsAtOnce, are met. -/
theorem test_RipcordActsAtOnce :
  (∃ (s : State) (ns : Nat),
    700 < ns ∧ aloft s = true ∧ s.cont.pinLow = false) ∧
  (∃ (s : State) (ns : Nat),
    700 < ns ∧ s.boot.phase = .moored ∧ s.cont.pinLow = false) ∧
  (∃ (s : State) (ns : Nat),
    ns < 300) ∧
  (∃ (s : State),
    s.cont.pinLow = true) ∧
  (∃ (s : State),
    s.cont.pinLow = false ∧ s.cont.roseAt + 1000000 ≤ s.time.now) ∧
  (∃ (s : State),
    s.time.now < s.cont.roseAt + 1000000) :=
  ⟨⟨up, 800, by decide +kernel⟩,
   ⟨{ up with boot.phase := .moored }, 800, by decide +kernel⟩,
   ⟨up, 200, by decide +kernel⟩,
   ⟨{ up with cont.pinLow := true }, by decide +kernel⟩,
   ⟨up, by decide +kernel⟩,
   ⟨{ up with cont.roseAt := 9999999999 }, by decide +kernel⟩⟩

/-- The hypotheses of every clause of LearnedEntriesFlushAndAge are met. -/
theorem test_LearnedEntriesFlushAndAge :
  (∃ (s : State) (m : Master) (w : Word),
    accepts s m 0x500010 = true ∧ bitAt w.toNat 0 = true ∧ flag s Reg.fdbStatusFlushBusy = false) ∧
  (∃ (s : State) (i : Fin 32768) (e : Learned),
    aloft s = true ∧ s.net.learned.find i.val = some e ∧ get s Reg.swCfgAgeTime ≠ 0 ∧ e.hitAt + get s
      Reg.swCfgAgeTime * 1000000000 ≤ s.time.now) ∧
  (∃ (s : State) (i : Fin 32768),
    get s Reg.swCfgAgeTime = 0) ∧
  (∃ (s : State) (m : Master) (w : Word) (e : Nat) (l : Learned),
    accepts s m 0x500040 = true ∧ bitAt w.toNat 0 = true ∧ viewSlot s m (bitsAt w.toNat 16 2) (bitsAt w.toNat 18 2) =
      some e ∧ s.net.learned.find (bitsAt w.toNat 1 15) = some l ∧ l.fid < 4096 ∧ l.port < 64) :=
  ⟨⟨{ up with net.learned := [(3, ⟨5, zeros 6, 2, 0⟩), (4, ⟨5, zeros 6, 7, 0⟩)] }, .sp, 19, by decide +kernel⟩,
    ⟨put { up with
      net.learned := [(3, ⟨5, zeros 6, 2, 0⟩), (4, ⟨5, zeros 6, 7, 0⟩)] } Reg.swCfgAgeTime 1, 3, ⟨5, zeros 6, 2, 0⟩,
      by decide +kernel⟩,
   ⟨put up Reg.swCfgAgeTime 0, 3, by decide +kernel⟩,
    ⟨{ up with
      net.learned := [(3, ⟨5, [1, 2, 3, 4, 5, 6], 2, 0⟩)] }, .sp, 7, 0, ⟨5, [1, 2, 3, 4, 5, 6], 2, 0⟩,
      by decide +kernel⟩⟩

/-- The hypotheses of every clause of FramesArriveAndAreWritten, FramesArriveInStaging, are met. -/
theorem test_FramesArriveInStaging :
  (∃ (s : State) (p : Fin 50) (f : WireFrame),
    aloft s = true ∧ portUp s p = true ∧ p.val ≠ 48 ∧ f.verify = false ∧ etypeAt f.bytes 12 ≠ 0x8808 ∧ stagingBytes s
      p < stagingLimit ∧ (48 ≤ p.val ∨ cur s (Reg.macsecCfgRxEn p) = 0) ∧ (receiveFrame s p f.bytes).1 = none) ∧
  (∃ (s : State) (p : Fin 50) (f : WireFrame) (k : Nat),
    aloft s = true ∧ portUp s p = true ∧ p.val ≠ 48 ∧ f.verify = false ∧ etypeAt f.bytes 12 ≠ 0x8808 ∧ stagingBytes s
      p < stagingLimit ∧ (48 ≤ p.val ∨ cur s (Reg.macsecCfgRxEn p) = 0) ∧ (receiveFrame s p f.bytes).1 = some k) ∧
  (∃ (s : State) (p : Fin 50) (f : WireFrame),
    aloft s = true ∧ portUp s p = true ∧ p.val < 48 ∧ f.verify = false ∧ etypeAt f.bytes 12 ≠ 0x8808 ∧ cur s
      (Reg.macsecCfgRxEn p) = 0 ∧ stagingLimit ≤ stagingBytes s p) ∧
  (∃ (s : State) (p : Fin 50) (f : WireFrame),
    aloft s = true ∧ portUp s p = true ∧ p.val < 48 ∧ f.verify = false ∧ etypeAt f.bytes 12 ≠ 0x8808 ∧ cur s
      (Reg.macsecCfgRxEn p) = 1) ∧
  (∃ (s : State) (p : Fin 50) (f : WireFrame),
    aloft s = true ∧ portUp s p = true ∧ p.val ≠ 48 ∧ f.verify = false ∧ etypeAt f.bytes 12 = 0x8808) ∧
  (∃ (s : State) (p : Fin 50) (f : WireFrame),
    aloft s = true ∧ portUp s p = true ∧ p.val ≠ 48 ∧ f.verify = true ∧ preemptCap s p = true) ∧
  (∃ (s : State) (p : Fin 50) (f : WireFrame),
    portUp s p = false) :=
  ⟨⟨put up (Reg.portStatusLink 3) 1, 3, frame0, by decide +kernel⟩,
   ⟨put (put up (Reg.portStatusLink 3) 1) Reg.pwrStatusPhase 3, 3, frame0, 2, by decide +kernel⟩,
    ⟨put { up with
      net.packets := [(9, { frameOn 3 20480 with written := 0, slot := none })] } (Reg.portStatusLink 3) 1, 3,
      frame0, by decide +kernel⟩,
   ⟨putCmt (put up (Reg.portStatusLink 3) 1) 0 (Reg.macsecCfgRxEn 3) 1, 3, frame0, by decide +kernel⟩,
    ⟨put up (Reg.portStatusLink 3) 1, 3, { frame0 with
      bytes := bytesWith 60 [(12, 0x88), (13, 8)] }, by decide +kernel⟩,
    ⟨put (put up (Reg.portStatusLink 20) 1) (Reg.portModePreemptCap 20) 1, 20, { frame0 with
      verify := true }, by decide +kernel⟩,
   ⟨up, 3, frame0, by decide +kernel⟩⟩

/-- The hypotheses of every clause of FramesArriveAndAreWritten, CellsAreWrittenAndTailsJudged, are met. -/
theorem test_CellsAreWrittenAndTailsJudged :
  (∃ (s : State) (p : Fin 52) (u : Nat) (pk : Packet),
    (firstPacket s fun x => x.port == p.val && x.sec.isNone && x.hold.isNone && x.ends.isNone && decide (x.written <
      x.bytes.length)) = some (u, pk) ∧ pk.dropped = false ∧ pk.slot = none ∧ curSlot s < 4) ∧
  (∃ (s : State) (p : Fin 52) (u : Nat) (pk : Packet) (asmErr : Bool),
    (firstPacket s fun x => x.port == p.val && !x.come) = some (u, pk) ∧ pk.sec = none ∧ pk.ends = none ∧
      pk.bytes.length ≤ pk.written ∧ pk.tail = 0 ∧ pk.passes = 0 ∧ pk.dropped = false ∧ pk.decided = false ∧ 64 ≤
      pk.rxLen ∧ pk.rxLen ≤ 10240 ∧ (asmErr && preemptCap s p) = false) ∧
  (∃ (s : State) (p : Fin 52) (u : Nat) (pk : Packet) (i : Nat) (asmErr : Bool),
    (firstPacket s fun x => x.port == p.val && !x.come) = some (u, pk) ∧ tailReady pk = true ∧ pk.tail = 0 ∧ headLeft
      s u pk = false ∧ pk.passes = 0 ∧ pk.dropped = false ∧ pk.decided = false ∧ pk.slot = some i ∧ i < 4 ∧ pk.pool =
      0 ∧ 64 ≤ pk.rxLen ∧ pk.rxLen ≤ 10240 ∧ (asmErr && preemptCap s p) = false) ∧
  (∃ (s : State) (p : Fin 52) (u : Nat) (pk : Packet) (fcsOk : Bool) (asmErr : Bool),
    (firstPacket s fun x => x.port == p.val && !x.come) = some (u, pk) ∧ pk.bytes.length ≤ pk.written ∧ pk.tail = 0 ∧
      headLeft s u pk = false ∧ pk.dropped = false ∧ pk.decided = false ∧ pk.passes = 0 ∧ asmErr = true ∧ preemptCap
      s p = true ∧ 64 ≤ pk.rxLen ∧ pk.rxLen ≤ 10240 ∧ pk.slot = none ∧ pk.pool = 0) ∧
  (∃ (s : State) (p : Fin 48) (u : Nat) (pk : Packet) (fcsOk : Bool) (asmErr : Bool),
    (firstPacket s fun x => x.port == p.val && !x.come) = some (u, pk) ∧ tailReady pk = true ∧ pk.tail = 0 ∧ pk.ends
      = some 0 ∧ pk.dropped = true ∧ headLeft s u pk = false ∧ (pk.rxLen < 64 ∨ 10240 < pk.rxLen ∨ fcsOk = false) ∧
      (asmErr && preemptCap s p) = false) ∧
  (∃ (s : State) (p : Fin 48) (u : Nat) (pk : Packet) (asmErr : Bool),
    (firstPacket s fun x => x.port == p.val && !x.come) = some (u, pk) ∧ pk.tail = 0 ∧ pk.ends = some 0 ∧ tailFault
      pk.needEnd pk.avtpEnd pk.bytes.length = 0 ∧ 64 ≤ pk.rxLen ∧ pk.rxLen ≤ 10240 ∧ (asmErr && preemptCap s p) =
      false) :=
      ⟨⟨{ up with
      net.packets := [(9, { frameOn 3 300 with written := 0, slot := none, tail := 0, come := false })] }, 3, 9,
      { frameOn 3 300 with
      written := 0, slot := none, tail := 0, come := false }, by decide +kernel⟩,
    ⟨{ up with
      net.packets := [(9, { frameOn 3 300 with tail := 0, come := false })] }, 3, 9, { frameOn 3 300 with
      tail := 0, come := false }, false, by decide +kernel⟩,
    ⟨put { up with
      net.packets := [(9, { frameOn 3 300 with tail := 0, come := false })] } (Reg.inflightCount 0) 1, 3, 9,
      { frameOn 3 300 with
      tail := 0, come := false }, 0, false, by decide +kernel⟩,
    ⟨put { up with
      net.packets := [(9, { frameOn 20 300 with tail := 0, come := false, slot := none })] } (Reg.portModePreemptCap
      20) 1, 20, 9, { frameOn 20 300 with
      tail := 0, come := false, slot := none }, true, true, by decide +kernel⟩,
    ⟨{ up with
      net.packets := [(9,
      { frameOn 3 300 with tail := 0, come := false, ends := some 0, dropped := true, decided := true, written := 0, slot := none })]
      }, 3, 9, { frameOn 3 300 with
      tail := 0, come := false, ends := some 0, dropped := true, decided := true, written := 0, slot := none },
      false, false, by decide +kernel⟩,
    ⟨{ up with
      net.packets := [(9,
      { frameOn 3 300 with tail := 0, come := false, ends := some 0, dropped := true, decided := true, written := 0, slot := none })]
      }, 3, 9, { frameOn 3 300 with
      tail := 0, come := false, ends := some 0, dropped := true, decided := true, written := 0, slot := none },
      false, by decide +kernel⟩⟩

/-- The hypotheses of every clause of UnitsAreDecided, DecisionsUseOneSlot, are met. -/
theorem test_DecisionsUseOneSlot :
  (∃ (s : State) (src : UnitSource) (ecc : DecisionEcc),
    aloft s = true ∧ sourceOffered s src = true) ∧
  (∃ (s : State) (src : UnitSource) (ecc : DecisionEcc),
    sourceOffered s src = false) ∧
  (∃ (s : State) (p : Fin 50) (ecc : DecisionEcc),
    get s Reg.slotTotal % 4 = 0 ∧ sourceReady s .recirc = true) ∧
  (∃ (s : State) (p : Fin 50) (ecc : DecisionEcc),
    stagingTurn s ≠ some p.val) :=
  ⟨⟨{ up with edge.rxList := [(3, [shown])] }, .channel 3, .clean, by decide +kernel⟩,
   ⟨up, .channel 3, .clean, by decide +kernel⟩,
   ⟨{ up with net.packets := [(9, frameOn 3 100)], net.recirc := [9] }, 5, .clean, by decide +kernel⟩,
   ⟨up, 5, .clean, by decide +kernel⟩⟩

/-- The hypotheses of every clause of UnitsAreDecided, UnitsLeaveTheirSources, are met. -/
theorem test_UnitsLeaveTheirSources :
  (∃ (s : State) (p : Fin 48) (u : Nat) (pk : Packet) (i : Nat),
    aloft s = true ∧ nextFrame s p = some (u, pk) ∧ sourceOffered s (.port ⟨p, by omega⟩) = true ∧ pk.slot = some i ∧
      i < 4 ∧ pk.pool = 0 ∧ pk.dropped = false ∧ pk.tail ≠ 0 ∧ ingressVlan s i pk.port pk.bytes = none ∧ pk.port = p)
      ∧
  (∃ (s : State) (n : Fin 256) (x : EdgeMsg) (rest : List EdgeMsg) (ecc : DecisionEcc),
    aloft s = true ∧ s.edge.rxList.find n.val = some (x :: rest) ∧ sourceOffered s (.channel n) = true) ∧
  (∃ (s : State) (n : Fin 256) (x : EdgeMsg) (rest : List EdgeMsg) (cell : Nat),
    aloft s = true ∧ s.edge.rxList.find n.val = some (x :: rest) ∧ sourceOffered s (.channel n) = true) :=
  ⟨⟨{ up with net.packets := [(9, frameOn 3 100)] }, 3, 9, frameOn 3 100, 0, by decide +kernel⟩,
   ⟨{ up with edge.rxList := [(3, [shown, shown])] }, 3, shown, [shown], .clean, by decide +kernel⟩,
   ⟨{ up with edge.rxList := [(3, [shown, shown])] }, 3, shown, [shown], 5, by decide +kernel⟩⟩

/-- The hypotheses of every clause of SelectedFramesAreSent are met. -/
theorem test_SelectedFramesAreSent :
  (∃ (s : State) (p : Fin 50) (mac : MacKind) (q : Nat) (r : Replica) (pk : Packet),
    aloft s = true ∧ p.val ≠ 48 ∧ portUp (gateSync s p) p = true ∧ macFree (gateSync s p) p (mac == .preemptable) =
      true ∧ portEligible (gateSync s p) p = true ∧ ((nodesDown.filter fun n => nodePreemptable (tagHeads (gateSync s
      p) p) p n == (mac == .preemptable)).findSome? fun n => neverFitHead (tagHeads (gateSync s p) p) p n) = none ∧
      ((nodesDown.filter fun n => nodeServed (tagHeads (gateSync s p) p) p n (mac == .preemptable)).findSome? fun n
      => nodePick (tagHeads (gateSync s p) p) p n) = some (q, r, pk) ∧ q < 64 ∧ admitsPort (tagHeads (gateSync s p)
      p) p (pk.safety || pk.fixed || pk.tunnel.isSome) pk.marked = true ∧ txProtected (tagHeads (gateSync s p) p)
      (pk.slot.getD (curSlot (tagHeads (gateSync s p) p))) p pk.bytes = false) ∧
  (∃ (s : State) (p : Fin 50) (mac : MacKind) (x : Tx) (pk : Packet),
    p.val ≠ 48 ∧ (reachCut s p).net.macs.find (2 * p.val + b2n (mac == .preemptable)) = some x ∧ packetOf s x.rep.uid
      = some pk ∧ x.running = true ∧ x.startAt + x.rest ≤ s.time.now ∧ (pk.tail ≠ 0 ∨ x.stomp = true)) ∧
  (∃ (s : State) (p : Fin 52) (mac : MacKind) (x : Tx),
    (reachCut s p).net.macs.find (2 * p.val + b2n (mac == .preemptable)) = some x ∧ (packetOf s x.rep.uid).isSome =
      true ∧ s.time.now < x.startAt + x.rest) ∧
  (∃ (s : State) (p : Fin 48) (x : Tx) (y : Tx) (c : Nat),
    s.net.macs.find (2 * p.val + 1) = some x ∧ s.net.macs.find (2 * p.val) = some y ∧ x.running = true ∧ x.cutAt =
      some c ∧ c ≤ s.time.now ∧ s.time.now < y.startAt + y.rest ∧ (packetOf s y.rep.uid).isSome = true) :=
      ⟨⟨queued, 4, .express, 2, ⟨9, false, false, false, some 0⟩, { frameOn 3 100 with
      decided := true, refs := 1 }, by decide +kernel⟩,
    ⟨{ queued with
      net.macs := [(8, tx0 6)] }, 4, .express, tx0 6, { frameOn 3 100 with
      decided := true, refs := 1 }, by decide +kernel⟩,
   ⟨{ queued with net.macs := [(8, tx0 9999999999)] }, 4, .express, tx0 9999999999, by decide +kernel⟩,
    ⟨{ queued with
      net.macs := [(8, tx0 9999999999), (9, { tx0 5 with cutAt := some 9 })] }, 4, { tx0 5 with
      cutAt := some 9 }, tx0 9999999999, 9, by decide +kernel⟩⟩

/-- The hypotheses of every clause of CanControllersAndMessages, CanControllersFollowTheBus, are met. -/
theorem test_CanControllersFollowTheBus :
  (∃ (s : State) (ch : Fin 16),
    aloft s = true ∧ descentPhase s < 3 ∧ (chanState s ch = 1 ∨ chanState s ch = 2) ∧ s.edge.joined.contains ch.val =
      false) ∧
  (∃ (s : State) (ch : Fin 16),
    canOnBus s ch = true) ∧
  (∃ (s : State) (ch : Fin 16),
    canOnBus s ch = true) ∧
  (∃ (s : State) (ch : Fin 16),
    canOnBus s ch = true) ∧
  (∃ (s : State) (ch : Fin 16) (q : QMsg),
    canOnBus s ch = true ∧ s.edge.offered.find ch.val = some q ∧ (txqOf s ch).length < 64 ∧ s.edge.again.find ch.val
      = none) ∧
  (∃ (s : State) (ch : Fin 16),
    canOnBus s ch = true ∧ 255 < get s (Reg.canErrTec ch) + 8) ∧
  (∃ (s : State) (m : Master) (ch : Fin 256),
    accepts s m (0xA00004 + 0x1000 * ch.val) = true ∧ ch.val < 16 ∧ chanState s ch = 3) ∧
  (∃ (s : State) (ch : Fin 16),
    chanState s ch = 4) :=
  ⟨⟨put up (Reg.chStatusState 3) 1, 3, by decide +kernel⟩,
   ⟨put onBus (Reg.canErrRec 3) 90, 3, by decide +kernel⟩,
   ⟨put onBus (Reg.canErrRec 3) 90, 3, by decide +kernel⟩,
   ⟨{ onBus with edge.offered := [(3, out0)] }, 3, by decide +kernel⟩,
   ⟨{ onBus with edge.offered := [(3, out0)] }, 3, out0, by decide +kernel⟩,
   ⟨put onBus (Reg.canErrTec 3) 248, 3, by decide +kernel⟩,
   ⟨put up (Reg.chStatusState 3) 3, .sp, 3, by decide +kernel⟩,
   ⟨put (put up (Reg.chStatusState 3) 4) (Reg.canErrTec 3) 200, 3, by decide +kernel⟩⟩

/-- The hypotheses of every clause of CanControllersAndMessages, CanMessagesAreSentInOrder, are met. -/
theorem test_CanMessagesAreSentInOrder :
  (∃ (s : State) (ch : Fin 16) (q : QMsg) (rest : List QMsg),
    canOnBus s ch = true ∧ chanFlag s ch 2 = false ∧ s.edge.offered.has ch.val = false ∧ s.edge.again.find ch.val =
      none ∧ s.edge.txq.find ch.val = some (q :: rest) ∧ q.made = none ∧ txTimeout s ch = s ∧ neverStarts s ch q.msg
      = false ∧ mayStart s ch q.msg = true ∧ admitsTarget s ch q.safety = true) ∧
  (∃ (s : State) (ch : Fin 16) (q : QMsg),
    s.edge.offered.find ch.val = some q ∧ (txqOf s ch).length < 64 ∧ s.edge.again.find ch.val = none) ∧
  (∃ (s : State) (ch : Fin 16) (q : QMsg),
    s.edge.offered.find ch.val = some q) ∧
  (∃ (s : State) (ch : Fin 16) (q : QMsg) (rest : List QMsg),
    canOnBus s ch = true ∧ chanFlag s ch 2 = false ∧ s.edge.offered.has ch.val = false ∧ s.edge.again.find ch.val =
      none ∧ s.edge.txq.find ch.val = some (q :: rest) ∧ q.made.isSome = true ∧ (∀ x ∈ rest, orderOf x.msg = orderOf
      q.msg) ∧ txTimeout s ch = s) ∧
  (∃ (s : State) (ch : Fin 16),
    s.edge.offered.find ch.val = none) :=
  ⟨⟨{ onBus with edge.txq := [(3, [out0, out0])] }, 3, out0, [out0], by decide +kernel⟩,
   ⟨{ onBus with edge.offered := [(3, out0)], edge.txq := [(3, [out0, out0])] }, 3, out0, by decide +kernel⟩,
   ⟨{ onBus with edge.offered := [(3, out0)] }, 3, out0, by decide +kernel⟩,
    ⟨{ onBus with
      edge.txq := [(3, [{ out0 with made := some (6, 3) }, out0])] }, 3, { out0 with
      made := some (6, 3) }, [out0], by decide +kernel⟩,
   ⟨onBus, 3, by decide +kernel⟩⟩

/-- The hypotheses of every clause of EdgeMessagesAreVerified, ReceivedMessagesAreCounted, are met. -/
theorem test_ReceivedMessagesAreCounted :
  (∃ (s : State) (ch : Fin 16) (msg : BusMsg),
    canOnBus s ch = true ∧ msg.format ≠ .lin ∧ kindFits s ch msg = true) ∧
  (∃ (s : State) (ch : Fin 16) (msg : BusMsg),
    canOnBus s ch = true ∧ msg.format = .xl ∧ kindFits s ch msg = true ∧ msg.sec = true) ∧
  (∃ (s : State) (ch : Fin 16) (msg : BusMsg),
    canOnBus s ch = false) :=
  ⟨⟨put onBus (Reg.canErrRec 3) 130, 3, msg0, by decide +kernel⟩,
   ⟨onBus, 3, { msg0 with format := .xl, sec := true }, by decide +kernel⟩,
   ⟨up, 3, msg0, by decide +kernel⟩⟩

/-- The hypotheses of every clause of EdgeMessagesAreVerified, SecuredMessagesVerify, are met. -/
theorem test_SecuredMessagesVerify :
  (∃ (s : State) (ch : Fin 256) (x : EdgeMsg) (e : Nat) (fv : Nat) (gen : Nat) (b : List Byte),
    s.edge.rxList.find ch.val = some [x] ∧ x.wait = some (e, fv, gen) ∧ x.slot < 4 ∧ recOf s x.slot 0x0310 e = some b
      ∧ keyServes s b gen 1 = true) ∧
  (∃ (s : State) (ch : Fin 256) (x : EdgeMsg) (e : Nat) (fv : Nat) (gen : Nat) (b : List Byte),
    s.edge.rxList.find ch.val = some [x] ∧ x.wait = some (e, fv, gen) ∧ x.slot < 4 ∧ recOf s x.slot 0x0310 e = some b
      ∧ keyServes s b gen 1 = false) ∧
  (∃ (s : State) (j : SecJob) (js : List SecJob) (b : List Byte),
    s.edge.secJobs = j :: js ∧ j.out.slot < 4 ∧ recOf s j.out.slot 0x0310 j.entry = some b ∧ keyServes s b j.gen 0 =
      false ∧ (∀ n ∈ j.targets, placesOf s n j = [])) ∧
  (∃ (s : State) (j : SecJob) (js : List SecJob) (b : List Byte) (n : Nat) (q : QMsg),
    s.edge.secJobs = j :: js ∧ j.targets = [n] ∧ n < 256 ∧ recOf s j.out.slot 0x0310 j.entry = some b ∧ keyServes s b
      j.gen 0 = false ∧ s.edge.again.find n = none ∧ s.edge.txq.find n = some [q] ∧ q.made = some (j.entry, j.fv)) ∧
  (∃ (s : State) (j : SecJob) (js : List SecJob) (b : List Byte) (r : List Byte) (n : Nat) (q : QMsg),
    s.edge.secJobs = j :: js ∧ j.targets = [n] ∧ n < 24 ∧ recOf s j.out.slot 0x0310 j.entry = some b ∧ keyServes s b
      j.gen 0 = true ∧ routeRec s j.out.slot j.out.route = some r ∧ bitAt (leAt r 0 2) 2 = false ∧ s.edge.again.find
      n = none ∧ s.edge.txq.find n = some [q] ∧ q.made = some (j.entry, j.fv)) :=
      ⟨⟨withKey (withRec { onBus with
      edge.rxList := [(3, [waits])] } 0 0x0310 6 (secoc 1)) 9, 3, waits, 6, 3, 0, secoc 1, by decide +kernel⟩,
    ⟨withRec { onBus with
      edge.rxList := [(3, [waits])] } 0 0x0310 6 (secoc 1), 3, waits, 6, 3, 0, secoc 1, by decide +kernel⟩,
    ⟨withRec { onBus with
      edge.secJobs := [⟨6, 3, 0, out0, [3]⟩] } 0 0x0310 6 (secoc 3), ⟨6, 3, 0, out0, [3]⟩, [], secoc 3,
      by decide +kernel⟩,
    ⟨withRec { onBus with
      edge.secJobs := [⟨6, 3, 0, out0, [3]⟩], edge.txq := [(3, [{ out0 with made := some (6, 3) }])] } 0 0x0310 6
      (secoc 3), ⟨6, 3, 0, out0, [3]⟩, [], secoc 3, 3, { out0 with
      made := some (6, 3) }, by decide +kernel⟩,
    ⟨withRec (withKey (withRec { onBus with
      edge.secJobs := [⟨6, 3, 0, out0, [3]⟩], edge.txq := [(3, [{ out0 with made := some (6, 3) }])] } 0 0x0310 6
      (secoc 3)) 9) 0 0x0300 (2 ^ 24) (bytesWith 64 [(0, 1)]), ⟨6, 3, 0, out0, [3]⟩, [], secoc 3, bytesWith 64 [(0,
      1)], 3, { out0 with
      made := some (6, 3) }, by decide +kernel⟩⟩

/-- The hypotheses of every clause of TunnelsAndPackers, TunnelsAreWatched, are met. -/
theorem test_TunnelsAreWatched :
  (∃ (s : State) (b : Fin 64),
    aloft s = true ∧ (edges s).bindChans b ≠ [] ∧ flag s (Reg.bindLost b) = false ∧ (s.edge.heardAt.find b.val).getD
      0 + leAt (bindEntry (edges s) b) 32 2 * 1000000 ≤ s.time.now) ∧
  (∃ (s : State) (b : Fin 64),
    flag s (Reg.bindLost b) = true) ∧
  (∃ (s : State) (u : Nat) (us : List Nat) (pk : Packet) (b : Nat),
    s.edge.tunnelIn = u :: us ∧ packetOf s u = some pk ∧ pk.tail = 1 ∧ pk.tunnel = some b ∧ b < 64) :=
  ⟨⟨withEdges up [(384, 24), (385, 1), (398, 2), (399, 1)] [(96, 1), (128, 1)], 2, by decide +kernel⟩,
   ⟨put up (Reg.bindLost 2) 1, 2, by decide +kernel⟩,
    ⟨{ withEdges up [(384, 24), (385, 1), (398, 2), (399, 1)] [(96, 1), (128, 1)] with
      edge.tunnelIn := [9], net.packets := [(9, { frameOn 3 100 with tunnel := some 2, refs := 1 })] }, 9, [],
      { frameOn 3 100 with
      tunnel := some 2, refs := 1 }, 2, by decide +kernel⟩⟩

/-- The hypotheses of every clause of TunnelsAndPackers, PackersFillAndClose, are met. -/
theorem test_PackersFillAndClose :
  (∃ (s : State) (b : Fin 64) (n : Nat) (q : QMsg),
    packersRun s = true ∧ s.edge.packers.find b.val = none ∧ (edges s).bindChans b = [n] ∧ s.edge.txq.find n = some
      [q] ∧ (acfPack q.msg q.stamp (u8 (chanEntry (edges s) n) 15) (bitAt (leAt (bindEntry (edges s) b) 0 2)
      2)).length ≤ acfLimit (bindEntry (edges s) b) ∧ admitsTarget s n q.safety = true ∧ q.made = none ∧
      s.edge.again.find n = none) ∧
  (∃ (s : State) (b : Fin 64) (p : Packer),
    s.edge.packers.find b.val = some p ∧ bindDepth s b = 0 ∧ p.openedAt + u8 (bindEntry (edges s) b) 7 * 1000 ≤
      s.time.now) ∧
  (∃ (s : State) (ch : Fin 256) (q : QMsg),
    s.edge.txq.find ch.val = some [q] ∧ txLimit s ch q ≠ 0 ∧ q.decidedAt + txLimit s ch q < s.time.now ∧
      s.edge.again.find ch.val = none) :=
      ⟨⟨packing, 2, 24, out0, by decide +kernel, by decide +kernel, packing_binds, by decide +kernel,
      by decide +kernel, by decide +kernel⟩,
   ⟨{ up with edge.packers := [(2, ⟨0, 0, [1]⟩)] }, 2, ⟨0, 0, [1]⟩, by decide +kernel⟩,
   ⟨late, 3, out0, by decide +kernel⟩⟩

/-- The hypotheses of every clause of LinAndFreshness, LinSchedulesRun, are met. -/
theorem test_LinSchedulesRun :
  (∃ (s : State) (l : Fin 8) (b : List Byte),
    aloft s = true ∧ atBoundary s = true ∧ descentPhase s < 3 ∧ chanState s (16 + l) = 5 ∧ chanBlocked s (16 + l) =
      false ∧ linRun s (16 + l) = none ∧ cur s (Reg.chCtlLinTable (16 + l)) < 15 ∧ recOf s (curSlot s) 0x0300 (3 * 2
      ^ 24 + 8 * l + cur s (Reg.chCtlLinTable (16 + l))) = some b ∧ u8 b 17 % 2 = 1) ∧
  (∃ (s : State) (l : Fin 8) (r : LinRun) (id : Nat) (data : List Byte) (csum : Byte),
    linRun s (16 + l) = some r ∧ r.waiting = some (id, data.length) ∧ s.time.now ≤ r.sentAt + linLimitNs s (16 + l)
      data.length ∧ csum ≠ linCsum (linClassic r id) id data) ∧
  (∃ (s : State) (l : Fin 8) (r : LinRun) (id : Nat) (data : List Byte),
    linRun s (16 + l) = some r ∧ r.waiting = some (id, data.length) ∧ s.time.now ≤ r.sentAt + linLimitNs s (16 + l)
      data.length) ∧
  (∃ (s : State) (l : Fin 8) (r : LinRun) (id : Nat) (len : Nat),
    linRun s (16 + l) = some r ∧ r.waiting = some (id, len) ∧ r.sentAt + linLimitNs s (16 + l) len ≤ s.time.now) ∧
  (∃ (s : State) (l : Fin 8) (r : LinRun) (id : Nat) (data : List Byte),
    linRun s (16 + l) = some r ∧ r.sending = some (id, data, none) ∧ s.time.now < r.sentAt + linFrameNs s (16 + l)
      data.length) ∧
  (∃ (s : State) (l : Fin 8) (r : LinRun) (id : Nat) (len : Nat),
    linRun s (16 + l) = some r ∧ r.sending = none ∧ r.waiting = some (id, len) ∧ s.time.now < r.sentAt + linHeaderNs
      s (16 + l)) ∧
  (∃ (s : State) (l : Fin 8) (r : LinRun) (id : Nat) (data : List Byte),
    aloft s = true ∧ atBoundary s = true ∧ descentPhase s < 3 ∧ chanState s (16 + l) = 5 ∧ chanBlocked s (16 + l) =
      false ∧ linRun s (16 + l) = some r ∧ r.sending = some (id, data, none) ∧ r.sentAt + linFrameNs s (16 + l)
      data.length ≤ s.time.now ∧ tempoNo s < r.endTempo) :=
      ⟨⟨put (putCmt (withRec { up with
      time.tempoLocal := 10000000000 } 0 0x0300 (3 * 2 ^ 24 + 17) table0) 0 (Reg.chCtlLinTable 18) 1)
      (Reg.chStatusState 18) 5, 2, table0, by decide +kernel⟩,
   ⟨{ up with edge.lin := [(18, run0 10000000000)] }, 2, run0 10000000000, 5, [1, 2], 0, by decide +kernel⟩,
   ⟨{ up with edge.lin := [(18, run0 10000000000)] }, 2, run0 10000000000, 5, [1, 2], by decide +kernel⟩,
   ⟨{ up with edge.lin := [(18, run0 5)] }, 2, run0 5, 5, 2, by decide +kernel⟩,
    ⟨{ up with
      edge.lin := [(18, { run0 20000000000 with sending := some (5, [1, 2], none) })] }, 2, { run0 20000000000 with
      sending := some (5, [1, 2], none) }, 5, [1, 2], by decide +kernel⟩,
   ⟨{ up with edge.lin := [(18, run0 20000000000)] }, 2, run0 20000000000, 5, 2, by decide +kernel⟩,
    ⟨put { up with
      time.tempoLocal := 10000000000, edge.lin := [(18,
      { run0 5 with waiting := none, sending := some (5, [1, 2], none) })] } (Reg.chStatusState 18) 5, 2,
      { run0 5 with
      waiting := none, sending := some (5, [1, 2], none) }, 5, [1, 2], by decide +kernel⟩⟩

/-- The hypotheses of every clause of LinAndFreshness, FreshnessValuesAreSaved, are met. -/
theorem test_FreshnessValuesAreSaved :
  (∃ (s : State) (blocks : List (Fin 64)),
    aloft s = true ∧ s.edge.savedAt + 60000000000 ≤ s.time.now) ∧
  (∃ (s : State) (n : Nat),
    aloft s = true ∧ s.edge.savedAt + 60000000000 ≤ s.time.now ∧ s.vault.badBlocks.length ≤ 6 ∧ n =
      s.edge.fvSaves.foldl (fun a e => max a e.2.counter) 0 + 1) ∧
  (∃ (s : State) (blocks : List (Fin 64)),
    aloft s = true ∧ s.edge.savedAt + 60000000000 ≤ s.time.now ∧ blocks.Nodup ∧ (∀ b ∈ blocks,
      s.vault.badBlocks.contains b.val = false) ∧ s.vault.badBlocks.length + blocks.length ≤ 6) ∧
  (∃ (s : State) (b : Fin 64),
    aloft s = true ∧ s.edge.savedAt + 60000000000 ≤ s.time.now ∧ s.vault.badBlocks.contains b.val = false ∧ 6 ≤
      s.vault.badBlocks.length ∧ s.fault.recs = []) ∧
  (∃ (s : State) (blocks : List (Fin 64)),
    s.time.now < s.edge.savedAt + 60000000000) ∧
  (∃ (s : State) (m : Master) (w : Word) (e : Nat) (b : List Byte),
    accepts s m 0xB00000 = true ∧ bitAt w.toNat 0 = true ∧ bitsAt w.toNat 1 3 = 4 ∧ viewSlot s m (bitsAt w.toNat 23
      2) (bitsAt w.toNat 25 2) = some e ∧ recOf s e 0x0310 (bitsAt w.toNat 4 13) = some b) ∧
  (∃ (s : State) (m : Master) (w : Word),
    accepts s m 0xB00000 = true ∧ bitAt w.toNat 0 = true ∧ bitsAt w.toNat 1 3 = 4 ∧ viewSlot s m (bitsAt w.toNat 23
      2) (bitsAt w.toNat 25 2) = none) :=
  ⟨⟨{ up with time.now := 10 ^ 11, edge.fv := [(6, 5)] }, [1], by decide +kernel⟩,
   ⟨{ up with time.now := 10 ^ 11, edge.fv := [(6, 5)] }, 1, by decide +kernel⟩,
   ⟨{ up with time.now := 10 ^ 11, edge.fv := [(6, 5)] }, [1, 2], by decide +kernel⟩,
   ⟨{ up with time.now := 10 ^ 11, vault.badBlocks := [2, 3, 4, 5, 6, 7] }, 9, by decide +kernel⟩,
   ⟨up, [1], by decide +kernel⟩,
   ⟨withRec { up with edge.fv := [(6, 5)] } 0 0x0310 6 (secoc 3), .sp, 0x69, 0, secoc 3, by decide +kernel⟩,
   ⟨up, .sp, 0x2800069, by decide +kernel⟩⟩

/-- The hypotheses of every clause of DescentsRunThroughTheirPhases, DescentIsRequestedAndHeld, are met. -/
theorem test_DescentIsRequestedAndHeld :
  (∃ (s : State) (m : Master) (w : Word),
    accepts s m 0x010004 = true ∧ m ≠ .dbg ∧ descentPhase s = 0 ∧ bitAt w.toNat 3 = false) ∧
  (∃ (s : State) (m : Master),
    accepts s m 0x010004 = true ∧ m ≠ .dbg ∧ descentPhase s = 0) ∧
  (∃ (s : State) (m : Master),
    accepts s m 0x010004 = true ∧ m ≠ .dbg ∧ descending s = true ∧ s.wake.abortFor = none) ∧
  (∃ (s : State) (m : Master),
    accepts s m 0x010004 = true ∧ m ≠ .dbg) :=
  ⟨⟨put up Reg.pwrCtlHostHold 1, .sp, 7, by decide +kernel⟩,
   ⟨up, .sp, by decide +kernel⟩,
   ⟨descent 1, .host, by decide +kernel⟩,
   ⟨put up Reg.pwrCtlHostHold 1, .spi, by decide +kernel⟩⟩

/-- The hypotheses of every clause of DescentsRunThroughTheirPhases, DescentMovesThroughItsPhases, are met. -/
theorem test_DescentMovesThroughItsPhases :
  (∃ (s : State),
    phaseMay s 1 = true ∧ phaseSpent s (leAt (wakeGlobals s) 2 2) = true) ∧
  (∃ (s : State),
    phaseMay s 2 = true ∧ (drained s = true ∨ phaseSpent s (leAt (wakeGlobals s) 4 2) = true)) ∧
  (∃ (s : State) (p : Fin 48),
    descentPhase s = 3 ∧ s.wake.tc10Asked.contains p.val = true ∧ s.wake.tc10Asleep.contains p.val = false) ∧
  (∃ (s : State),
    phaseMay s 3 = true ∧ (s.wake.tc10Asked.all fun p => s.wake.tc10Asleep.contains p) = true) ∧
  (∃ (s : State),
    aloft s = true ∧ descentPhase s = 4 ∧ savesDone s = false ∧ phaseSpent s (leAt (wakeGlobals s) 6 2) = true ∧
      s.wake.abortFor = none) ∧
  (∃ (s : State),
    phaseMay s 4 = true ∧ savesDone s = true ∧ s.wake.abortFor = none) ∧
  (∃ (s : State) (at_ : Nat) (cause : Nat) (source : Nat),
    aloft s = true ∧ atBoundary s = true ∧ abortDue s = true ∧ descending s = true ∧ descentPhase s < 3 ∧
      s.wake.abortFor = some (at_, cause, source) ∧ s.wake.captured = [] ∧ cause < 8 ∧ source < 256) :=
  ⟨⟨descent 1, by decide +kernel⟩,
   ⟨{ descent 2 with net.queues := [(5, [])] }, by decide +kernel⟩,
    ⟨{ put (put (descent 3) (Reg.portStatusState 3) 3) (Reg.portStatusLink 3) 1 with
      wake.tc10Asked := [3] }, 3, by decide +kernel⟩,
   ⟨{ descent 3 with wake.tc10Asked := [3], wake.tc10Asleep := [3] }, by decide +kernel⟩,
   ⟨{ descent 4 with jobs.queue := [⟨0, .retentionSave, 5, 0, 0, none⟩] }, by decide +kernel⟩,
   ⟨descent 4, by decide +kernel⟩,
   ⟨{ descent 2 with wake.abortFor := some (5, 3, 0) }, 5, 3, 0, by decide +kernel⟩⟩

/-- The hypotheses of every clause of WakingAndSleeping, WakeEventsRegister, are met. -/
theorem test_WakeEventsRegister :
  (∃ (s : State) (ch : Fin 16) (b : List Byte) (phases : List (Bool × Nat)),
    s.boot.phase = .moored ∧ decoderOf s ch = some b ∧ u8 b 0 = 1 ∧ wupFound (100 * u8 b 2) phases [] = true) ∧
  (∃ (s : State) (ch : Fin 16) (b : List Byte) (phases : List (Bool × Nat)),
    decoderOf s ch = some b ∧ u8 b 0 = 1 ∧ wupFound (100 * u8 b 2) phases [] = false) ∧
  (∃ (s : State) (ch : Fin 16) (b : List Byte) (m : BusMsg),
    s.boot.phase = .moored ∧ decoderOf s ch = some b ∧ u8 b 0 = 2 ∧ wufMatches b m = true ∧ decoderRejects s ch m =
      false ∧ s.wake.captured.find ch.val = none) ∧
  (∃ (s : State) (ch : Fin 16) (b : List Byte),
    s.boot.phase = .moored ∧ decoderOf s ch = some b ∧ u8 b 0 = 2 ∧ 31 < (s.wake.decoderErr.find ch.val).getD 0) ∧
  (∃ (s : State) (ch : Fin 16) (b : List Byte) (err : Bool),
    decoderOf s ch = some b ∧ u8 b 0 = 2) ∧
  (∃ (s : State) (l : Fin 8),
    s.boot.phase = .moored ∧ s.wake.armed = true ∧ bitAt (u8 s.wake.globals 13) l = true) ∧
  (∃ (s : State) (p : Fin 48),
    s.boot.phase = .moored ∧ t1Port p = true ∧ bitAt (leAt s.wake.globals 24 8) p = true) ∧
  (∃ (s : State) (i : Fin 4),
    (s.boot.phase = .moored ∨ s.boot.phase = .parked) ∧ bitAt (wakePinCfg s.wake.globals i) 0 = true) ∧
  (∃ (s : State) (i : Fin 4),
    s.boot.phase ≠ .off) ∧
  (∃ (s : State),
    s.boot.phase = .moored ∧ s.host.perstN = false ∧ bitAt (leAt s.wake.globals 0 2) 2 = true) ∧
  (∃ (s : State) (n : Nat),
    s.boot.phase = .parked ∧ s.wake.parkAt = some n ∧ n ≤ s.time.now) :=
      ⟨⟨asleep .moored 1, 3, bytesWith 32 [(0, 1), (3, 2), (4, 5), (8, 255), (12, 255)], [(true, 1000), (false, 2000),
      (true, 3000)], by decide +kernel⟩,
    ⟨asleep .moored 1, 3, bytesWith 32 [(0, 1), (3, 2), (4, 5), (8, 255), (12, 255)], [(true, 1000), (false, 2000)],
      by decide +kernel⟩,
   ⟨asleep .moored 2, 3, bytesWith 32 [(0, 2), (3, 2), (4, 5), (8, 255), (12, 255)], msg0, by decide +kernel⟩,
    ⟨{ asleep .moored 2 with
      wake.decoderErr := [(3, 32)] }, 3, bytesWith 32 [(0, 2), (3, 2), (4, 5), (8, 255), (12, 255)],
      by decide +kernel⟩,
   ⟨asleep .moored 2, 3, bytesWith 32 [(0, 2), (3, 2), (4, 5), (8, 255), (12, 255)], true, by decide +kernel⟩,
   ⟨asleep .moored 2, 3, by decide +kernel⟩,
   ⟨asleep .moored 2, 3, by decide +kernel⟩,
   ⟨asleep .parked 2, 1, by decide +kernel⟩,
   ⟨{ asleep .moored 2 with wake.pinsActive := [1] }, 1, by decide +kernel⟩,
   ⟨{ asleep .moored 2 with host.perstN := false }, by decide +kernel⟩,
   ⟨{ asleep .parked 0 with wake.parkAt := some 7 }, 7, by decide +kernel⟩⟩

/-- The hypotheses of every clause of WakingAndSleeping, SleepAndWakeOfSupplies, are met. -/
theorem test_SleepAndWakeOfSupplies :
  (∃ (s : State),
    s.boot.phase = .cutoff ∧ flag s Reg.pwrStatusTarget = false ∧ s.wake.latch = false) ∧
  (∃ (s : State),
    s.boot.phase = .cutoff ∧ flag s Reg.pwrStatusTarget = true ∧ s.wake.latch = false) ∧
  (∃ (s : State),
    s.boot.phase = .moored ∧ s.wake.latch = true ∧ s.wake.retentionBad = false) ∧
  (∃ (s : State),
    s.boot.phase = .moored ∧ s.wake.latch = true ∧ s.wake.retentionBad = true) ∧
  (∃ (s : State),
    s.boot.phase = .wakeRising) ∧
  (∃ (s : State),
    s.boot.phase = .wakeCheck ∧ s.cpu.spHeld = false) ∧
  (∃ (s : State),
    s.boot.phase = .wakeTrain) ∧
  (∃ (s : State) (errs : List RetError),
    s.boot.phase = .moored) ∧
  (∃ (s : State),
    s.boot.phase = .moored ∧ leAt s.wake.globals 48 4 ≠ 0 ∧ s.wake.latch = false ∧ leAt s.wake.globals 48 4 ≤
      asleepSeconds s) :=
  ⟨⟨asleep .cutoff 0, by decide +kernel⟩,
   ⟨put { asleep .cutoff 0 with mem.bankS := [(5, 1)] } Reg.pwrStatusTarget 1, by decide +kernel⟩,
   ⟨{ asleep .moored 0 with wake.latch := true }, by decide +kernel⟩,
   ⟨{ asleep .moored 0 with wake.latch := true, wake.retentionBad := true }, by decide +kernel⟩,
   ⟨asleep .wakeRising 0, by decide +kernel⟩,
   ⟨asleep .wakeCheck 0, by decide +kernel⟩,
   ⟨asleep .wakeTrain 0, by decide +kernel⟩,
   ⟨asleep .moored 0, [], by decide +kernel⟩,
   ⟨asleep .moored 0, by decide +kernel⟩⟩

/-- The hypotheses of every clause of StartUpRunsThroughItsPhases are met. -/
theorem test_StartUpRunsThroughItsPhases :
  (∃ (s : State),
    s.boot.phase = .off) ∧
  (∃ (s : State) (st : Straps),
    s.boot.phase = .rising ∧ s.boot.resetPin = false ∧ s.boot.thermalHeld = false) ∧
  (∃ (s : State) (st : Straps),
    s.boot.phase = .rising ∧ s.boot.resetPin = true) ∧
  (∃ (s : State),
    s.boot.phase = .memInit ∧ s.cpu.spHeld = false ∧ s.boot.cause ≠ 4 ∧ s.boot.straps.recoveryN = true ∧ lifeCycle s
      ≠ 4) ∧
  (∃ (s : State),
    s.boot.phase = .memInit ∧ s.cpu.spHeld = false ∧ s.boot.cause ≠ 4 ∧ s.boot.straps.recoveryN = false) ∧
  (∃ (s : State),
    s.boot.phase = .memInit) ∧
  (∃ (s : State) (b : Bool) (kc : List (Fin 2)) (sv : List (Fin 64)) (rest : List Bool),
    s.boot.phase = .imagePass ∧ s.cpu.spHeld = false ∧ s.boot.passes = b :: rest ∧ headerOk (slotHeader s b) = false
      ∧ s.img.spoiled.contains b = false) ∧
  (∃ (s : State) (b : Bool) (kc : List (Fin 2)) (sv : List (Fin 64)) (rest : List Bool),
    s.boot.phase = .imagePass ∧ s.cpu.spHeld = false ∧ s.boot.passes = b :: rest) ∧
  (∃ (s : State) (ports : List (Fin 48)) (channels : List (Fin 16)),
    s.boot.phase = .starting ∧ s.boot.calDone = false) :=
  ⟨⟨State.reset, by decide +kernel⟩,
   ⟨{ up with boot.phase := .rising }, ⟨1, true⟩, by decide +kernel⟩,
   ⟨{ up with boot.phase := .rising, boot.resetPin := true }, ⟨1, true⟩, by decide +kernel⟩,
   ⟨{ up with boot.phase := .memInit, boot.straps := ⟨1, true⟩, mem.bankS := [(5, 1)] }, by decide +kernel⟩,
   ⟨{ up with boot.phase := .memInit, boot.straps := ⟨1, false⟩ }, by decide +kernel⟩,
   ⟨{ up with boot.phase := .memInit }, by decide +kernel⟩,
   ⟨{ up with boot.phase := .imagePass, boot.passes := [false, true] }, false, [], [], [true], by decide +kernel⟩,
   ⟨{ up with boot.phase := .imagePass, boot.passes := [false, true] }, false, [1], [3], [true], by decide +kernel⟩,
   ⟨{ up with boot.phase := .starting }, [3], [5], by decide +kernel⟩⟩

/-- The hypotheses of every clause of ResetsAndSupply, ResetsBeginAndEnd, are met. -/
theorem test_ResetsBeginAndEnd :
  (∃ (s : State) (ns : Nat),
    1000 ≤ ns ∧ s.boot.phase = .aloft) ∧
  (∃ (s : State) (ns : Nat),
    ns < 100) ∧
  (∃ (s : State) (st : Straps),
    s.boot.phase = .inReset ∧ s.boot.resetPin = true ∧ s.boot.thermalHeld = false) ∧
  (∃ (s : State) (m : Master) (w : Word),
    accepts s m 0x10 = true ∧ w.toNat % 65536 = 0xB007 ∧ resetMay s m = true) ∧
  (∃ (s : State) (m : Master) (w : Word),
    accepts s m 0x10 = true ∧ w.toNat % 65536 ≠ 0xB007) ∧
  (∃ (s : State),
    s.boot.phase = .aloft) ∧
  (∃ (s : State),
    s.boot.phase = .inReset ∧ s.boot.thermalHeld = true ∧ s.boot.resetPin = false) ∧
  (∃ (s : State),
    s.boot.phase ≠ .off) :=
  ⟨⟨up, 1000, by decide +kernel⟩,
   ⟨up, 99, by decide +kernel⟩,
   ⟨{ up with boot.phase := .inReset, boot.resetPin := true }, ⟨2, true⟩, by decide +kernel⟩,
   ⟨up, .host, 0xB007, by decide +kernel⟩,
   ⟨up, .sp, 5, by decide +kernel⟩,
   ⟨up, by decide +kernel⟩,
   ⟨{ up with boot.phase := .inReset, boot.thermalHeld := true }, by decide +kernel⟩,
   ⟨withKey { up with mem.bankS := [(5, 1)] } 9, by decide +kernel⟩⟩

/-- The hypotheses of every clause of ResetsAndSupply, SupplyAndTemperatureAreShown, are met. -/
theorem test_SupplyAndTemperatureAreShown :
  (∃ (s : State) (cv : Nat),
    s.boot.phase ≠ .off) ∧
  (∃ (s : State) (i : Fin 4) (temp : Int),
    s.boot.phase ≠ .off ∧ 560 ≤ temp ∧ temp < 1024 ∧ flag s Reg.supplyStatusThermWarn = false) :=
  ⟨⟨up, 899, by decide +kernel⟩,
   ⟨up, 1, 560, by decide +kernel⟩⟩

/-- The hypotheses of every clause of LifeCycleChangesAreJudged are met. -/
theorem test_LifeCycleChangesAreJudged :
  (∃ (s : State) (m : Master) (w : Word),
    accepts s m 0xC0008 = true ∧ (m = .sp ∨ m = .host ∨ m = .spi) ∧ bitAt w.toNat 3 = true ∧ flag s
      Reg.lcStatusLcBusy = false ∧ lcStep s (w.toNat % 8) = some false) ∧
  (∃ (s : State) (m : Master) (w : Word),
    accepts s m 0xC0008 = true ∧ (m = .sp ∨ m = .host ∨ m = .spi) ∧ bitAt w.toNat 3 = true ∧ pairAway s = false ∧
      flag s Reg.lcStatusLcBusy = false ∧ lcStep s (w.toNat % 8) = some true ∧ sheetWritable s = false ∧ w.toNat % 8
      ≠ 4) ∧
  (∃ (s : State) (m : Master) (w : Word),
    accepts s m 0xC0008 = true ∧ (m = .sp ∨ m = .host ∨ m = .spi) ∧ bitAt w.toNat 3 = true ∧ pairAway s = false ∧
      flag s Reg.lcStatusLcBusy = false ∧ lcStep s 4 = some true ∧ w.toNat % 8 = 4) ∧
  (∃ (s : State) (m : Master) (w : Word),
    accepts s m 0xC0008 = true ∧ (m = .sp ∨ m = .host ∨ m = .spi) ∧ bitAt w.toNat 3 = true ∧ pairAway s = false ∧
      flag s Reg.lcStatusLcBusy = false ∧ sheetWritable s = true ∧ lcStep s (w.toNat % 8) = some true ∧ (w.toNat % 8
      = 1 ∨ w.toNat % 8 = 2)) ∧
  (∃ (s : State) (m : Master) (w : Word),
    accepts s m 0xC0008 = true ∧ (m = .sp ∨ m = .host ∨ m = .spi) ∧ bitAt w.toNat 3 = true ∧ pairAway s = false ∧
      flag s Reg.lcStatusLcBusy = false ∧ sheetWritable s = true ∧ lcStep s 3 = some true ∧ w.toNat % 8 = 3) ∧
  (∃ (s : State) (m : Master) (w : Word),
    accepts s m 0xC0008 = true ∧ bitAt w.toNat 3 = false) ∧
  (∃ (s : State) (m : Master) (w : Word),
    accepts s m 0xC0008 = true ∧ (m = .sp ∨ m = .host ∨ m = .spi) ∧ bitAt w.toNat 3 = true ∧ flag s
      Reg.lcStatusLcBusy = false ∧ lcStep s (w.toNat % 8) = none) ∧
  (∃ (s : State) (m : Master) (w : Word),
    accepts s m 0xC0008 = true ∧ (m = .host ∨ m = .spi) ∧ bitAt w.toNat 3 = true ∧ flag s Reg.lcStatusLcBusy = false
      ∧ lcStep s (w.toNat % 8) = some true ∧ pairAway s = true) ∧
  (∃ (s : State) (m : Master) (w : Word),
    accepts s m 0xC0008 = true ∧ flag s Reg.lcStatusLcBusy = true ∧ m ≠ .dbg) :=
  ⟨⟨up, .sp, 8, by decide +kernel⟩,
   ⟨up, .sp, 9, by decide +kernel⟩,
   ⟨{ up with otp.lc := 2 }, .host, 12, by decide +kernel⟩,
   ⟨withKey up 3, .sp, 9, by decide +kernel⟩,
   ⟨withKey { up with otp.lc := 2 } 3, .sp, 11, by decide +kernel⟩,
   ⟨up, .sp, 1, by decide +kernel⟩,
   ⟨up, .sp, 10, by decide +kernel⟩,
   ⟨{ up with otp.lc := 1, cpu.spHeld := true }, .host, 10, by decide +kernel⟩,
   ⟨put up Reg.lcStatusLcBusy 1, .sp, 9, by decide +kernel⟩⟩

/-- The hypotheses of every clause of ImageOperationsActOnTheInactiveSlot are met. -/
theorem test_ImageOperationsActOnTheInactiveSlot :
  (∃ (s : State) (m : Master),
    accepts s m 0x1000 = true ∧ m ≠ .dbg ∧ get s Reg.imgStatusState = 1 ∧ castPhase s = 0) ∧
  (∃ (s : State) (m : Master),
    accepts s m 0x1000 = true ∧ m ≠ .dbg ∧ get s Reg.imgStatusState ≠ 1 ∧ castPhase s = 0) ∧
  (∃ (s : State) (n : Nat) (bs : List Byte),
    aloft s = true ∧ s.img.op = some (1, n, bs)) ∧
  (∃ (s : State) (m : Master) (b : Nat),
    accepts s m 0x1000 = true ∧ imgBank m = some b ∧ b ≠ 0 ∧ get s Reg.imgStatusState ≠ 1 ∧ castPhase s = 0 ∧
      rangeOk256 (get s (Reg.imgDst b)) (get s (Reg.imgLen b)) = false) ∧
  (∃ (s : State) (m : Master) (b : Nat),
    accepts s m 0x1000 = true ∧ imgBank m = some b ∧ b ≠ 0 ∧ get s Reg.imgStatusState ≠ 1 ∧ castPhase s = 0 ∧ get s
      (Reg.imgSrc b) % 256 = 0 ∧ rangeOk256 (get s (Reg.imgDst b)) (get s (Reg.imgLen b)) = true ∧ (∃ r ∈ regions s,
      r.1 ≤ get s (Reg.imgSrc b) ∧ get s (Reg.imgSrc b) + get s (Reg.imgLen b) ≤ r.1 + r.2.1 ∧ bitAt r.2.2.2 (if b =
      5 then 0 else 2) = true ∧ bitAt r.2.2.1 2 = true) ∧ bankHMarked s (get s (Reg.imgSrc b)) (get s (Reg.imgLen b))
      = false) ∧
  (∃ (s : State) (dst : Nat) (bs : List Byte),
    aloft s = true ∧ s.img.op = some (2, dst, bs)) ∧
  (∃ (s : State) (m : Master),
    accepts s m 0x1000 = true ∧ m ≠ .dbg ∧ get s Reg.imgStatusState ≠ 1 ∧ castPhase s = 0) ∧
  (∃ (s : State) (n : Nat) (bs : List Byte),
    aloft s = true ∧ s.img.op = some (3, n, bs) ∧ digestMay s = true) ∧
  (∃ (s : State) (m : Master),
    accepts s m 0x1000 = true ∧ (m = .sp ∨ m = .host ∨ m = .spi) ∧ get s Reg.imgStatusState ≠ 1 ∧ castPhase s = 0) :=
  ⟨⟨put up Reg.imgStatusState 1, .sp, by decide +kernel⟩,
   ⟨put up Reg.imgStatusVerified 1, .sp, by decide +kernel⟩,
   ⟨{ up with img.op := some (1, 0, []), mem.flashB := [(5, 1)] }, 0, [], by decide +kernel⟩,
   ⟨up, .gc 1, 2, by decide +kernel⟩,
    ⟨put (put (withStruct up 0x0030 (bytesWith 160 [(1, 1), (34, 16), (36, 255), (37, 255)])) (Reg.imgLen 2) 256)
      (Reg.imgDst 2) 0x2000, .gc 1, 2, by decide +kernel⟩,
   ⟨{ up with img.op := some (2, 0x2000, [1, 2]) }, 0x2000, [1, 2], by decide +kernel⟩,
   ⟨up, .host, by decide +kernel⟩,
   ⟨{ up with img.op := some (3, 0, []) }, 0, [], by decide +kernel⟩,
   ⟨up, .host, by decide +kernel⟩⟩

/-- The hypotheses of every clause of CastlingMovesThroughItsPhases are met. -/
theorem test_CastlingMovesThroughItsPhases :
  (∃ (s : State) (m : Master),
    accepts s m 0x1000 = true ∧ m ≠ .dbg ∧ get s Reg.imgStatusState ≠ 1 ∧ castPhase s = 0 ∧ castleMay s = true) ∧
  (∃ (s : State) (m : Master),
    accepts s m 0x1000 = true ∧ m ≠ .dbg ∧ get s Reg.imgStatusState ≠ 1 ∧ castPhase s = 0 ∧ castleMay s = false) ∧
  (∃ (s : State),
    aloft s = true ∧ castPhase s = 2 ∧ s.img.loaded = false ∧ s.img.failDue = none ∧ digestMay s = true) ∧
  (∃ (s : State),
    aloft s = true ∧ castPhase s = 2 ∧ s.img.loaded = false ∧ s.img.failDue = none ∧ digestMay s = true) ∧
  (∃ (s : State),
    aloft s = true ∧ atBoundary s = true ∧ castPhase s = 5 ∧ s.img.castAt < tempoNo s) ∧
  (∃ (s : State),
    aloft s = true ∧ castPhase s = 6 ∧ s.cpu.spHeld = false ∧ tempoNo s < s.img.windowAt + 8) ∧
  (∃ (s : State),
    aloft s = true ∧ castPhase s = 6 ∧ s.img.spReady = false ∧ s.img.windowAt + 8 ≤ tempoNo s) ∧
  (∃ (s : State) (m : Master),
    accepts s m 0x1000 = true ∧ m ≠ .dbg ∧ beforeFlip s = true ∧ s.img.failDue = none) ∧
  (∃ (s : State),
    aloft s = true ∧ beforeFlip s = true ∧ s.img.castAt + 4096 ≤ tempoNo s ∧ s.img.failDue = none ∧ atBoundary s =
      false) ∧
  (∃ (s : State),
    aloft s = true ∧ beforeFlip s = true ∧ s.img.castAt + 4096 ≤ tempoNo s ∧ s.img.failDue = none ∧ atBoundary s =
      true) :=
  ⟨⟨put up Reg.imgStatusVerified 1, .host, by decide +kernel⟩,
   ⟨up, .host, by decide +kernel⟩,
   ⟨put up Reg.imgStatusPhase 2, by decide +kernel⟩,
   ⟨put up Reg.imgStatusPhase 2, by decide +kernel⟩,
   ⟨put (put { up with time.tempoLocal := 10000000000 } Reg.imgStatusPhase 5) Reg.tempoNum 3, by decide +kernel⟩,
   ⟨put up Reg.imgStatusPhase 6, by decide +kernel⟩,
   ⟨put (put up Reg.imgStatusPhase 6) Reg.tempoNum 8, by decide +kernel⟩,
   ⟨put up Reg.imgStatusPhase 3, .gc 1, by decide +kernel⟩,
   ⟨put (put up Reg.imgStatusPhase 3) Reg.tempoNum 5000, by decide +kernel⟩,
    ⟨put (put { up with
      time.tempoLocal := 10000000000, env.handover := true } Reg.imgStatusPhase 3) Reg.tempoNum 5000,
      by decide +kernel⟩⟩

/-- The hypotheses of every clause of RecoveryMailboxTakesCommands are met. -/
theorem test_RecoveryMailboxTakesCommands :
  (∃ (s : State) (b : Bool),
    s.boot.phase = .recovery ∧ s.cpu.spHeld = false ∧ s.img.rom = none ∧ lifeCycle s ≠ 4) ∧
  (∃ (s : State) (b : Bool) (off : Nat) (len : Nat),
    s.boot.phase = .recovery ∧ s.cpu.spHeld = false ∧ s.img.rom = none ∧ lifeCycle s ≠ 4 ∧ off < 2 ^ 32 ∧ len < 2 ^
      32 ∧ rangeOk256 off len = false) ∧
  (∃ (s : State) (b : Bool) (off : Nat) (len : Nat),
    s.boot.phase = .recovery ∧ s.cpu.spHeld = false ∧ s.img.rom = none ∧ lifeCycle s ≠ 4 ∧ rangeOk256 off len = true)
      ∧
  (∃ (s : State) (b : Bool),
    s.boot.phase = .recovery ∧ s.cpu.spHeld = false ∧ s.img.rom = none ∧ lifeCycle s ≠ 4) ∧
  (∃ (s : State) (b : Bool),
    s.boot.phase = .recovery ∧ s.cpu.spHeld = false ∧ s.img.rom = none ∧ lifeCycle s ≠ 4 ∧ b ∈ s.img.romVerified) ∧
  (∃ (s : State) (b : Bool),
    s.boot.phase = .recovery ∧ s.cpu.spHeld = false ∧ s.img.rom = none ∧ lifeCycle s ≠ 4 ∧ b ∉ s.img.romVerified) ∧
  (∃ (s : State) (b : Bool) (off : Nat) (len : Nat),
    s.boot.phase = .recovery ∧ s.cpu.spHeld = false ∧ s.img.rom = some (1, b, off, len) ∧ mbWord s 4 / 256 = mbTag s)
      ∧
  (∃ (s : State) (b : Bool) (off : Nat) (len : Nat) (dst : Nat) (bs : List Byte),
    s.boot.phase = .recovery ∧ s.cpu.spHeld = false ∧ s.img.rom = some (2, b, off, len) ∧ s.img.op = some (2, dst,
      bs) ∧ mbWord s 4 / 256 = mbTag s) :=
  ⟨⟨{ rescue with img.romVerified := [true] }, true, by decide +kernel⟩,
   ⟨rescue, true, 5, 256, by decide +kernel⟩,
   ⟨rescue, true, 0x2000, 256, by decide +kernel⟩,
   ⟨rescue, true, by decide +kernel⟩,
   ⟨{ rescue with img.romVerified := [true] }, true, by decide +kernel⟩,
   ⟨rescue, true, by decide +kernel⟩,
   ⟨{ rescue with img.rom := some (1, true, 0, 0), mem.flashB := [(5, 1)] }, true, 0, 0, by decide +kernel⟩,
    ⟨{ rescue with
      img.rom := some (2, true, 0x2000, 2), img.op := some (2, 0x2000, [1, 2]) }, true, 0x2000, 2, 0x2000, [1, 2],
      by decide +kernel⟩⟩

/-- The hypotheses of every clause of FreezesAndDumpsAreCaptured are met. -/
theorem test_FreezesAndDumpsAreCaptured :
  (∃ (s : State) (m : Master),
    accepts s m 0xC00000 = true ∧ m ≠ .dbg) ∧
  (∃ (s : State) (m : Master),
    accepts s m 0xC00080 = true) ∧
  (∃ (s : State),
    aloft s = true ∧ boundaryDue s = true ∧ (counterGlobals s).1 ≠ 0 ∧ (tempoNo s + 1) % (counterGlobals s).1 = 0 ∧
      s.cnt.dumpAt ≠ some (tempoNo s + 1) ∧ (p48Up s = false ∨ flag s (Reg.ringCfgEn (counterGlobals s).2.1) = false
      ∨ s.cnt.dump ≠ [])) ∧
  (∃ (s : State) (u : State),
    aloft s = true ∧ boundaryDue s = true ∧ (counterGlobals s).1 ≠ 0 ∧ (tempoNo s + 1) % (counterGlobals s).1 = 0 ∧
      s.cnt.dumpAt ≠ some (tempoNo s + 1) ∧ u = (if s.cnt.snapAt.any (requestDue s) then freeze s else s) ∧ p48Up u =
      true ∧ flag u (Reg.ringCfgEn (counterGlobals u).2.1) = true ∧ u.cnt.dump = [] ∧ ringHolds u (counterGlobals
      u).2.1 (dumpRecords u (counterGlobals u).2.2) = true) ∧
  (∃ (s : State),
    s.cnt.snapAt.any (requestDue s) = true) ∧
  (∃ (s : State),
    s.cnt.dump ≠ [] ∧ (p48Up s = false ∨ flag s (Reg.ringCfgEn s.cnt.dumpRing) = false)) ∧
  (∃ (s : State) (bs : List Byte),
    s.cnt.dump = [bs] ∧ p48Up s = true ∧ flag s (Reg.ringCfgEn s.cnt.dumpRing) = true ∧ ringHolds s s.cnt.dumpRing
      [bs] = true) :=
  ⟨⟨{ up with cnt.snapAt := some 5 }, .host, by decide +kernel⟩,
   ⟨up, .sp, by decide +kernel⟩,
   ⟨withRec up 0 0x0600 0 (bytesWith 16 [(0, 1), (2, 3)]), by decide +kernel⟩,
    ⟨put (put (put { withRec linked 0 0x0600 0 (bytesWith 16 [(0, 1), (2, 3)]) with
      host.rings := [(3, ⟨true, 0, none, [(0, bytesWith 32 [(9, 16)])], []⟩)] } (Reg.ringCfgEn 3) 1) (Reg.ringTail 3)
      1) (Reg.ringCfgSizeLog2 3) 4, put (put (put { withRec linked 0 0x0600 0 (bytesWith 16 [(0, 1), (2, 3)]) with
      host.rings := [(3, ⟨true, 0, none, [(0, bytesWith 32 [(9, 16)])], []⟩)] } (Reg.ringCfgEn 3) 1) (Reg.ringTail 3)
      1) (Reg.ringCfgSizeLog2 3) 4, by decide +kernel⟩,
   ⟨{ up with cnt.snapAt := some 5 }, by decide +kernel⟩,
   ⟨{ up with cnt.dump := [[1]] }, by decide +kernel⟩,
    ⟨put (put (put { linked with
      cnt.dump := [zeros 10], cnt.dumpRing := 3, host.rings := [(3, ⟨true, 0, none, [(0, bytesWith 32 [(9, 16)])],
      []⟩)] } (Reg.ringCfgEn 3) 1) (Reg.ringTail 3) 1) (Reg.ringCfgSizeLog2 3) 4, zeros 10, by decide +kernel⟩⟩

/-- The hypotheses of every clause of JobsFitTheWorkBudget are met. -/
theorem test_JobsFitTheWorkBudget :
  (∃ (s : State) (core : Fin 5) (kind : JobKind) (cost : Nat),
    aloft s = true ∧ jobPlaced core kind = true ∧ cost ≤ coreBudget s core) ∧
  (∃ (s : State) (core : Fin 5) (kind : JobKind) (cost : Nat),
    aloft s = true ∧ jobPlaced core kind = true ∧ coreBudget s core < cost) ∧
  (∃ (s : State) (core : Fin 5) (kind : JobKind) (cost : Nat),
    aloft s = true ∧ jobPlaced core kind = false) ∧
  (∃ (s : State) (core : Fin 5) (j : Job),
    aloft s = true ∧ takesJobs s core = true ∧ s.jobs.running.has core = false ∧ nextJob s core = some j ∧
      s.cpu.halted.contains core.val = false ∧ jobFits s j = true) ∧
  (∃ (s : State) (core : Fin 5) (j : Job),
    aloft s = true ∧ takesJobs s core = true ∧ nextJob s core = some j ∧ (s.cpu.halted.contains core.val = true ∨
      jobFits s j = false)) ∧
  (∃ (s : State) (core : Fin 5) (j : Job),
    aloft s = true ∧ takesJobs s core = true ∧ nextJob s core = some j ∧ s.cpu.halted.contains core.val = false ∧
      jobFits s j = true ∧ s.jobs.running.has core = true) ∧
  (∃ (s : State) (core : Fin 5) (j : Job) (type : Nat) (body : List Byte),
    aloft s = true ∧ takesJobs s core = true ∧ s.jobs.running.find core = some j ∧ s.cpu.halted.contains core.val =
      false ∧ j.kind = .sbSeal type body ∧ sheetWritable s = true ∧ s.sheet.nextSeq ≠ 0) ∧
  (∃ (s : State) (core : Fin 5) (j : Job) (type : Nat) (body : List Byte),
    aloft s = true ∧ takesJobs s core = true ∧ s.jobs.running.find core = some j ∧ s.cpu.halted.contains core.val =
      false ∧ j.kind = .sbAppend type body ∧ s.cpu.spHeld = false) ∧
  (∃ (s : State) (core : Fin 5) (j : Job) (type : Nat) (body : List Byte),
    aloft s = true ∧ takesJobs s core = true ∧ s.jobs.running.find core = some j ∧ s.cpu.halted.contains core.val =
      false ∧ j.kind = .sbAppend type body ∧ s.cpu.spHeld = true) ∧
  (∃ (s : State) (core : Fin 5) (j : Job),
    aloft s = true ∧ takesJobs s core = true ∧ s.jobs.running.find core = some j ∧ s.cpu.halted.contains core.val =
      false ∧ j.kind = .prepare ∧ get s Reg.commitStatusState = 3 ∧ s.vault.suspCores.contains core.val = false ∧
      s.env.prepFail = none ∧ sheetWritable s = true ∧ itemMarked s = none) ∧
  (∃ (s : State) (core : Fin 5) (j : Job),
    aloft s = true ∧ takesJobs s core = true ∧ s.jobs.running.find core = some j ∧ s.cpu.halted.contains core.val =
      false ∧ j.kind = .sbSeal 0x0002 (commitEntry s) ∧ get s Reg.commitStatusState = 3 ∧ s.env.prepDone = true) ∧
  (∃ (s : State) (slot : Fin 4) (t0 : Nat),
    aloft s = true ∧ slotState s slot = 3 ∧ cur s Reg.epochCfg ≠ 0 ∧ s.env.drainStart.find slot = some t0 ∧ t0 + cur
      s Reg.epochCfg ≤ tempoNo s) ∧
  (∃ (u : State) (slot : Fin 4),
    get u Reg.commitStatusState ≠ 2) ∧
  (∃ (s : State) (dom : Domain) (p : Fin 48) (asGm : Bool),
    aloft s = true ∧ (asGm = true → flag s (gmFld dom) = true) ∧ sendsSync s dom p asGm = true ∧
      (s.time.syncSent.find (48 * domIndex dom + p)).all (fun t0 => decide (t0 + syncNs s dom ≤ s.time.now)) = true)
      ∧
  (∃ (s : State) (dom : Domain) (p : Fin 48) (asGm : Bool) (t0 : Nat),
    aloft s = true ∧ (asGm = true → flag s (gmFld dom) = true) ∧ s.time.syncSent.find (48 * domIndex dom + p) = some
      t0 ∧ s.time.now < t0 + syncNs s dom) ∧
  (∃ (s : State) (dom : Domain) (p : Fin 48),
    aloft s = true ∧ gptpPort s dom p = true ∧ extPortCfg s dom = false ∧ gmCapable s dom = true ∧ flag s (gmFld dom)
      = false ∧ portUp s p = false) :=
  ⟨⟨up, 3, .retentionSave, 0, by decide +kernel⟩,
   ⟨up, 3, .retentionSave, 10 ^ 9, by decide +kernel⟩,
   ⟨up, 3, .sbSeal 5 [], 0, by decide +kernel⟩,
    ⟨{ up with
      jobs.queue := [⟨3, .retentionSave, 0, 0, 7, none⟩, ⟨3, .fvSave, 0, 0, 8, none⟩], jobs.order := 9 }, 3, ⟨3,
      .retentionSave, 0, 0, 7, none⟩, by decide +kernel⟩,
    ⟨{ up with
      jobs.queue := [⟨3, .retentionSave, 10 ^ 9, 0, 7, none⟩, ⟨3, .fvSave, 0, 0, 8, none⟩], jobs.order := 9 }, 3, ⟨3,
      .retentionSave, 10 ^ 9, 0, 7, none⟩, by decide +kernel⟩,
    ⟨{ up with
      jobs.running := [(3, ⟨3, .retentionSave, 0, 0, 5, none⟩)], jobs.queue := [⟨3, .retentionSave, 0, 0, 7, none⟩],
      jobs.order := 9 }, 3, ⟨3, .retentionSave, 0, 0, 7, none⟩, by decide +kernel⟩,
    ⟨withKey { up with
      jobs.running := [(0, ⟨0, .sbSeal 5 [], 0, 0, 7, none⟩)], sheet.nextSeq := 1 } 3, 0, ⟨0, .sbSeal 5 [], 0, 0, 7,
      none⟩, 5, [], by decide +kernel⟩,
    ⟨withKey { up with
      jobs.running := [(3, ⟨3, .sbAppend 5 [], 0, 0, 7, none⟩)], sheet.nextSeq := 1 } 3, 3, ⟨3, .sbAppend 5 [], 0, 0,
      7, none⟩, 5, [], by decide +kernel⟩,
    ⟨withKey { up with
      jobs.running := [(3, ⟨3, .sbAppend 5 [], 0, 0, 7, none⟩)], sheet.nextSeq := 1, cpu.spHeld := true } 3, 3, ⟨3,
      .sbAppend 5 [], 0, 0, 7, none⟩, 5, [], by decide +kernel⟩,
    ⟨put (withKey { up with
      jobs.running := [(3, ⟨3, .prepare, 0, 0, 7, none⟩)], sheet.nextSeq := 1 } 3) Reg.commitStatusState 3, 3, ⟨3,
      .prepare, 0, 0, 7, none⟩, by decide +kernel⟩,
    ⟨put { withKey { up with env.prepDone := true, sheet.nextSeq := 1 } 3 with
      jobs.running := [(0, ⟨0, .sbSeal 2 (commitEntry (put (withKey
      { up with env.prepDone := true, sheet.nextSeq := 1 } 3) Reg.commitStatusState 3)), 0, 0, 7, none⟩)] }
      Reg.commitStatusState 3, 0, ⟨0, .sbSeal 2 (commitEntry (put (withKey { up with
      env.prepDone := true, sheet.nextSeq := 1 } 3) Reg.commitStatusState 3)), 0, 0, 7, none⟩, by decide +kernel,
      by decide +kernel, by rfl, by decide +kernel, by rfl, by decide +kernel, by decide +kernel⟩,
    ⟨put (put (putCmt { up with
      env.drainStart := [(1, 5)], env.latches := [(2, 1)] } 0 Reg.epochCfg 9) Reg.epochStatusSlotSt 12) Reg.tempoNum
      20, 1, 5, by decide +kernel⟩,
   ⟨{ up with env.cmt := [(5, 1), (6, 1)] }, 1, by decide +kernel⟩,
    ⟨put (withStruct { up with
      time.syncSent := [(3, 5)] } 0x0040 (bytesWith 128 [(89, 1)])) (Reg.portStatusLink 3) 1, .wc, 3, false,
      by decide +kernel⟩,
   ⟨{ up with time.syncSent := [(3, 9999999999)] }, .wc, 3, false, 9999999999, by decide +kernel⟩,
   ⟨withStruct up 0x0040 (bytesWith 128 [(16, 1), (89, 1)]), .wc, 3, by decide +kernel⟩⟩

/-- The hypotheses of every clause of TemposBeginOnTheWorkingClock are met. -/
theorem test_TemposBeginOnTheWorkingClock :
  (∃ (s : State),
    aloft s = true ∧ boundaryDue s = true) ∧
  (∃ (s : State),
    aloft s = true ∧ boundaryDue s = true ∧ s.boot.lcPend = none ∧ s.img.recoverDue = false) ∧
  (∃ (s : State),
    aloft s = true ∧ boundaryDue s = true ∧ s.boot.lcPend = none ∧ s.img.recoverDue = true) ∧
  (∃ (s : State),
    aloft s = true ∧ boundaryDue s = false) ∧
  (∃ (s : State),
    s.boot.phase = .starting ∧ s.boot.calDone = true ∧ s.cpu.spHeld = false ∧ s.time.tempoMark + period s ≤ wcNow s) ∧
  (∃ (s : State),
    s.time.realign = false) :=
  ⟨⟨up, by decide +kernel⟩,
   ⟨up, by decide +kernel⟩,
   ⟨{ up with img.recoverDue := true }, by decide +kernel⟩,
   ⟨{ up with time.now := 5 }, by decide +kernel⟩,
   ⟨{ up with boot.phase := .starting, boot.calDone := true }, by decide +kernel⟩,
   ⟨up, by decide +kernel⟩⟩

/-- The hypotheses of every clause of RegisterAccessesHaveTheirEffects are met. -/
theorem test_RegisterAccessesHaveTheirEffects :
  (∃ (s : State) (k : Asking) (v : Word) (f : Fld),
    f ∈ plainFields k.m ∧ accepts s k.m f.addr = true ∧ grantedNext s f.addr k.m k.waiting = true) ∧
  (∃ (s : State) (k : Asking) (v : Word) (f : Fld) (h : Fin 2),
    (f = Reg.sbRdSeq ∨ ∃ r : Fin 64, flag s (Reg.ringCfgEn r) = false ∧ (f = Reg.ringDescBase r ∨ f = Reg.ringCplBase
      r)) ∧ accepts s k.m (f.addr + 4 * h) = true ∧ grantedNext s (f.addr + 4 * h) k.m k.waiting = true) ∧
  (∃ (s : State) (k : Asking) (v : Word),
    accepts s k.m 0xC00010 = true ∧ grantedNext s 0xC00010 k.m k.waiting = true) ∧
  (∃ (s : State) (k : Asking) (r : Fin 64) (v : Word),
    accepts s k.m (Reg.ringModModTimer r).addr = true ∧ grantedNext s (Reg.ringModModTimer r).addr k.m k.waiting =
      true) ∧
  (∃ (s : State) (k : Asking) (a : Nat) (v : Word),
    accepts s k.m a = true ∧ grantedNext s a k.m k.waiting = true ∧ fieldsAt (regBank k.m a) a ≠ [] ∧ (∀ e ∈ fieldsAt
      (regBank k.m a) a, e.1.ty = .ro ∨ e.1.ty = .rc)) ∧
  (∃ (s : State) (k : Asking) (a : Nat) (v : Word),
    accepts s k.m a = true ∧ grantedNext s a k.m k.waiting = true ∧ (a = 0x10008 ∨ a = 0x2004 ∧ k.m ≠ .dbg)) ∧
  (∃ (s : State) (k : Asking) (a : Nat) (size : Nat) (v : Word),
    grantedNext s a k.m k.waiting = false) ∧
  (∃ (s : State) (k : Asking) (a : Nat) (size : Nat) (v : Word),
    aloft s = true ∧ masterHeard s k.m = true ∧ grantedNext s a k.m k.waiting = true ∧ (k.m = .sp ∨ ∃ c, k.m = .gc c)
      ∧ (size ≠ 4 ∨ a % 4 ≠ 0)) ∧
  (∃ (s : State) (c : Fin 4) (wt : List Master) (v : Word),
    aloft s = true ∧ masterHeard s (.gc c) = true ∧ grantedNext s 0xA0004 (.gc c) wt = true) ∧
  (∃ (s : State) (k : Asking) (a : Nat),
    yields s k.m a = true ∧ grantedNext s a k.m k.waiting = true ∧ readActs k.m a = false ∧ s.io.capture.find
      (captureKey k.m a) = none) ∧
  (∃ (s : State) (k : Asking) (a : Nat),
    yields s k.m a = true ∧ grantedNext s a k.m k.waiting = true ∧ a ∈ [0x2008, 0x10010, 0x10018, 0x20018, 0x40088,
      0x40094, 0x80004, 0x80008, 0xA0010, 0xC0040, 0xC0104, 0xE0120, 0x100004, 0x100008, 0x10000C, 0x100010,
      0x100020, 0x500008, 0x500018, 0x50001C, 0x500020, 0x500024, 0x600104, 0x600180, 0x600188, 0x610010, 0x610084,
      0x610200, 0xB00308, 0xB0030C, 0xC00048, 0xE00900, 0xE00908] ∧ s.io.capture.find (captureKey k.m a) = none) ∧
  (∃ (s : State) (k : Asking) (p : Fin 48) (f : Fld),
    f ∈ [Reg.portTxSaDrops p, Reg.portRxIcvFail p, Reg.portRxNoSa p, Reg.portRxReplay p, Reg.portRxUnsupported p,
      Reg.portLinkdownDiscards p] ∧ yields s k.m f.addr = true ∧ grantedNext s f.addr k.m k.waiting = true ∧
      s.io.capture.find (captureKey k.m f.addr) = none) ∧
  (∃ (s : State) (k : Asking) (a : Nat) (size : Nat),
    aloft s = true ∧ masterHeard s k.m = true ∧ grantedNext s a k.m k.waiting = true ∧ (k.m = .sp ∨ ∃ c, k.m = .gc c)
      ∧ (size ≠ 4 ∨ a % 4 ≠ 0)) ∧
  (∃ (s : State) (m : Master) (a : Nat),
    accepts s m Reg.cmtPeekAddr.addr = true ∧ yields s m Reg.cmtPeekData.addr = true ∧ a % 4 = 0 ∧ a < 2 ^ 24 ∧ (a <
      0x810000 ∨ 0x942000 ≤ a) ∧ (∀ e ∈ fieldsAt (regBank m a) a, e.1.ty = .cmt)) ∧
  (∃ (s : State) (a : Nat),
    aloft s = true ∧ dbgBusy s = false ∧ a % 4 = 0 ∧ dbgReach s a false = true ∧ readActs .dbg a = false ∧
      s.io.capture.find (captureKey .dbg a) = none) ∧
  (∃ (s : State) (a : Nat),
    aloft s = true ∧ dbgBusy s = false ∧ a % 4 = 0 ∧ dbgReach s a false = false) ∧
  (∃ (s : State) (v : Word) (f : Fld),
    aloft s = true ∧ dbgBusy s = false ∧ lifeCycle s = 0 ∧ f ∈ plainFields .dbg) ∧
  (∃ (s : State) (a : Nat) (v : Word),
    aloft s = true ∧ dbgBusy s = false ∧ a % 4 = 0 ∧ dbgReach s a true = false) ∧
  (∃ (s : State) (a : Nat) (v : Word),
    (dieRuns s = false ∨ dbgBusy s = true)) ∧
  (∃ (s : State) (wt : List Master) (a : Nat) (size : Nat),
    s.boot.phase = .recovery ∧ grantedNext s a .host wt = true ∧ (size ≠ 4 ∨ a % 4 ≠ 0)) ∧
  (∃ (s : State) (wt : List Master) (a : Nat) (size : Nat) (v : Word),
    s.boot.phase = .recovery ∧ grantedNext s a .host wt = true ∧ (size ≠ 4 ∨ a % 4 ≠ 0)) :=
  ⟨⟨up, ⟨.sp, [.gc 1]⟩, 0xFFFFFFFF, Reg.imgDst 0, by decide +kernel⟩,
   ⟨up, ⟨.host, []⟩, 0xFFFFFFFF, Reg.ringCplBase 3, 1, by decide +kernel⟩,
   ⟨up, ⟨.sp, []⟩, 0xFFFFFFFF, by decide +kernel⟩,
   ⟨up, ⟨.host, []⟩, 63, 0xFFFFFFFF, by decide +kernel⟩,
   ⟨put up Reg.brSpiAborts 3, ⟨.gc 2, []⟩, 0x100010, 0xFFFFFFFF, by decide +kernel⟩,
   ⟨put up Reg.supplyEventsHighSeen 1, ⟨.sp, []⟩, 0x2004, 2, by decide +kernel⟩,
   ⟨{ up with io.granted := [(0, 0), (1, 0)] }, ⟨.sp, [.gc 0]⟩, 0x1004, 4, 5, by decide +kernel⟩,
   ⟨up, ⟨.sp, []⟩, 0x1004, 2, 5, by decide +kernel⟩,
   ⟨up, 2, [], 5, by decide +kernel⟩,
   ⟨up, ⟨.gc 1, [.host]⟩, 0x200000, by decide +kernel⟩,
   ⟨put (put up Reg.brSpiAborts 3) Reg.brSpiErrors 4, ⟨.sp, []⟩, 0x100010, by decide +kernel⟩,
   ⟨put up (Reg.portRxReplay 47) 3, ⟨.sp, []⟩, 47, Reg.portRxReplay 47, by decide +kernel⟩,
   ⟨up, ⟨.sp, []⟩, 0x1002, 4, by decide +kernel⟩,
   ⟨{ up with env.staged := [((Reg.replayWin 3).key, 77)] }, .sp, 0x230030, by decide +kernel⟩,
   ⟨put up (Reg.imgDst 9) 5, 0x1004, by decide +kernel⟩,
   ⟨{ up with otp.lc := 2 }, 0xC0020, by decide +kernel⟩,
   ⟨up, 0xFFFFFFFF, Reg.slotSel, by decide +kernel⟩,
   ⟨{ up with otp.lc := 2 }, 0xC0020, 5, by decide +kernel⟩,
   ⟨State.reset, 0xC0020, 5, by decide +kernel⟩,
   ⟨rescue, [], 6, 4, by decide +kernel⟩,
   ⟨rescue, [], 4, 2, 1, by decide +kernel⟩⟩

/-- The hypotheses of every clause of ManagementPortTransfersWords are met. -/
theorem test_ManagementPortTransfersWords :
  (∃ (s : State) (a : Nat) (l : List (Fld × Word)),
    spiListens s = true ∧ a % 4 = 0 ∧ (∀ e ∈ l, e.1 ∈ plainFields .spi ∧ accepts s .spi e.1.addr = true) ∧ l.map (fun
      e => e.1.addr) = (List.range l.length).map (fun i => a + 4 * i)) ∧
  (∃ (s : State) (a : Nat) (ws : List Word),
    spiListens s = true ∧ aloft s = true ∧ a % 4 ≠ 0) ∧
  (∃ (s : State) (a : Nat) (n : Nat),
    spiListens s = true ∧ aloft s = true ∧ a % 4 = 0 ∧ (∀ i ∈ List.range n, yields s .spi (a + 4 * i) = true ∧
      readActs .spi (a + 4 * i) = false ∧ settle s (a + 4 * i) = s ∧ capturedBy s .spi (a + 4 * i) = [] ∧
      s.io.capture.find (captureKey .spi (a + 4 * i)) = none ∧ (fieldsAt (regBank .spi (a + 4 * i)) (a + 4 * i)).all
      (fun e => e.1.ty != .rc) = true)) ∧
  (∃ (s : State) (a : Nat) (n : Nat),
    spiListens s = true ∧ a % 4 ≠ 0) ∧
  (∃ (s : State) (off : Nat) (ws : List Word) (wt : List BusMaster),
    spiListens s = true ∧ aloft s = true ∧ off % 4 = 0 ∧ isNext s .hb .h wt = true ∧ reach s .spi 0 true = none ∧ (∀
      i ∈ List.range ws.length, (hbCheck s (off + 4 * i) 4 true .clean).1 = none)) ∧
  (∃ (s : State) (off : Nat) (n : Nat) (wt : List BusMaster),
    spiListens s = true ∧ aloft s = true ∧ off % 4 = 0 ∧ isNext s .hb .h wt = true ∧ (hbCheck s off (4 * n) false
      .clean).1 = none) ∧
  (∃ (s : State) (off : Nat) (w : Word) (ecc : BankEcc) (wt : List BusMaster),
    spiListens s = true ∧ aloft s = true ∧ off % 4 = 0 ∧ isNext s .hb .h wt = true ∧ reach s .spi 0 true = none ∧
      regionOk s .hb .h off 4 true = false) ∧
  (∃ (s : State),
    dieRuns s = true) ∧
  (∃ (s : State) (whole : Nat),
    spiListens s = true) ∧
  (∃ (s : State) (a : Nat) (whole : Nat) (l : List (Fld × Word)),
    spiListens s = true ∧ a % 4 = 0 ∧ (∀ e ∈ l, e.1 ∈ plainFields .spi ∧ accepts s .spi e.1.addr = true) ∧ l.map (fun
      e => e.1.addr) = (List.range l.length).map (fun i => a + 4 * i)) ∧
  (∃ (s : State) (off : Nat) (whole : Nat) (ws : List Word),
    spiListens s = true ∧ aloft s = true ∧ off % 4 = 0 ∧ isNext s .hb .h [] = true ∧ reach s .spi 0 true = none ∧ 0 <
      whole ∧ (∀ i ∈ List.range ws.length, (hbCheck s (off + 4 * i) 4 true .clean).1 = none)) :=
  ⟨⟨up, 0x1004, [(Reg.imgDst 5, 0x5FFFFFF), (Reg.imgSrc 5, 7), (Reg.imgLen 5, 9)], by decide +kernel⟩,
   ⟨up, 6, [1], by decide +kernel⟩,
   ⟨up, 0, 3, by decide +kernel⟩,
   ⟨up, 6, 2, by decide +kernel⟩,
    ⟨withStruct up 0x0030 (bytesWith 160 [(1, 1), (34, 16), (36, 255), (37, 255)]), 64, [7, 8], [.dma],
      by decide +kernel⟩,
    ⟨{ withStruct up 0x0030 (bytesWith 160 [(1, 1), (34, 16), (36, 255), (37, 255)]) with
      mem.bankH := [(65, 7)] }, 64, 3, [.dma], by decide +kernel⟩,
   ⟨up, 64, 7, .clean, [], by decide +kernel⟩,
   ⟨{ up with host.lastErr := true }, by decide +kernel⟩,
   ⟨up, 2, by decide +kernel⟩,
   ⟨up, 0x1004, 2, [(Reg.imgDst 5, 0x5FFFFFF), (Reg.imgSrc 5, 7), (Reg.imgLen 5, 9)], by decide +kernel⟩,
   ⟨withStruct up 0x0030 (bytesWith 160 [(1, 1), (34, 16), (36, 255), (37, 255)]), 64, 1, [7, 8], by decide +kernel⟩⟩

end Sys2Proof.Tests
end

section
/-!
The scope of a step: what any command and the passing of time leave alone, that no state ever stops, and what a step is.
-/
namespace Sys2Proof.Machine

/-! Steps. -/

theorem step_front (c : Instr) (rest : List Instr) (s : State) :
    step { s with pending := c :: rest } = exec c { s with pending := rest } := rfl

theorem step_idle {s : State} (h : s.pending = []) : step s = .next (tick s) := by
  unfold step
  rw [h]

theorem step_busy {s : State} {c : Instr} {rest : List Instr} (h : s.pending = c :: rest) :
    step s = exec c { s with pending := rest } := by
  unfold step
  rw [h]

/-! Frames. -/

/-- A change that lists neither the banks nor flash keeps every memory. -/
theorem changesOnly.mem_eq {l : List Part} {s t : State} (h : changesOnly l s t) (hb : Part.banks ∉ l)
    (hf : Part.flash ∉ l) : t.mem = s.mem := by
  obtain ⟨-, -, -, -, -, -, -, -, -, -, -, hbanks, hflash, -⟩ := h
  obtain ⟨hA, hB⟩ := hflash.resolve_left hf
  have hrest := hbanks.resolve_left hb
  cases ht : t.mem
  cases hs : s.mem
  simp_all [banksOf]

/-- The frame of every command, each by the lemma about it in Laws/Parts. -/
theorem changesOnly_exec (c : Instr) {s t : State} (h : exec c s = .next t) : changesOnly (partsOf c) s t :=
  match c with
  | .tempoBoundary => changes_tempoBoundary h
  | .jobRequest .. => changes_jobRequest _ _ _ h
  | .jobStart .. => changes_jobStart _ h
  | .jobComplete .. => changes_jobComplete _ h
  | .acceptSync .. => changes_acceptSync _ _ _ _ h
  | .grandmasterLoss .. => changes_grandmasterLoss _ h
  | .ppsInEdge .. => changes_ppsInEdge _ h
  | .ppsInMissing => changes_ppsInMissing h
  | .ppsOutRise => changes_ppsOutRise h
  | .ppsOutFall => changes_ppsOutFall h
  | .timeSnap .. => changes_timeSnap _ h
  | .gtSet .. => changes_gtSet _ h
  | .gtSetLoad => changes_gtSetLoad h
  | .frameArrival .. => changes_frameArrival _ _ h
  | .cellWrite .. => changes_cellWrite _ h
  | .macsecIcvCheck .. => changes_macsecIcvCheck _ h
  | .unitDecision .. => changes_unitDecision _ _ h
  | .frameTail .. => changes_frameTail _ _ _ h
  | .frameSelect .. => changes_frameSelect _ _ _ h
  | .frameTransmitEnd .. => changes_frameTransmitEnd _ _ h
  | .linkEstablished .. => changes_linkEstablished _ _ h
  | .retainedTrainTimeout .. => changes_retainedTrainTimeout _ h
  | .fullTrainTimeout .. => changes_fullTrainTimeout _ h
  | .partnerSignatureChange .. => changes_partnerSignatureChange _ _ h
  | .linkLoss .. => changes_linkLoss _ h
  | .serdesLinkUp .. => changes_serdesLinkUp _ _ h
  | .serdesLinkDown .. => changes_serdesLinkDown _ h
  | .plcaStatusChange .. => changes_plcaStatusChange _ _ h
  | .beaconTimeout .. => changes_beaconTimeout _ h
  | .verifyResponse .. => changes_verifyResponse _ h
  | .verifyTimeout .. => changes_verifyTimeout _ h
  | .portEventsClear .. => changes_portEventsClear _ _ _ h
  | .fdbFlush .. => changes_fdbFlush _ _ h
  | .fdbFlushDone => changes_fdbFlushDone h
  | .fdbAgeing .. => changes_fdbAgeing _ h
  | .fdbAccRead .. => changes_fdbAccRead _ _ h
  | .clsAccRead .. => changes_clsAccRead _ _ h
  | .probe .. => changes_probe _ _ h
  | .probeLookup .. => changes_probeLookup _ h
  | .fragExpiry .. => changes_fragExpiry _ h
  | .shadowSelftest .. => changes_shadowSelftest _ _ h
  | .shadowStatusClear .. => changes_shadowStatusClear _ h
  | .convExpiry .. => changes_convExpiry _ h
  | .convAccRead .. => changes_convAccRead _ _ h
  | .convFlush .. => changes_convFlush _ _ h
  | .convFlushDone => changes_convFlushDone h
  | .contAct .. => changes_contAct _ _ h
  | .contRelRelease .. => changes_contRelRelease _ _ h
  | .contRelDeny .. => changes_contRelDeny _ _ h
  | .contRelReq .. => changes_contRelReq _ _ h
  | .ripcordNAssert .. => changes_ripcordNAssert _ h
  | .ripcordNDeassert => changes_ripcordNDeassert h
  | .ripcordHoldExpiry => changes_ripcordHoldExpiry h
  | .streamFilterUnblock .. => changes_streamFilterUnblock _ _ h
  | .flowGateReopen .. => changes_flowGateReopen _ _ h
  | .flowGateEntry .. => changes_flowGateEntry _ h
  | .timingWheelFire .. => changes_timingWheelFire _ h
  | .gateEntryChange .. => changes_gateEntryChange _ h
  | .macHoldIssue .. => changes_macHoldIssue _ h
  | .gateSwitch .. => changes_gateSwitch _ h
  | .canFrameReceive .. => changes_canFrameReceive _ _ h
  | .secocVerifyDone .. => changes_secocVerifyDone _ h
  | .secocGenerateDone => changes_secocGenerateDone h
  | .canBusIntegrated .. => changes_canBusIntegrated _ h
  | .canArbitration .. => changes_canArbitration _ h
  | .canArbitrationLost .. => changes_canArbitrationLost _ h
  | .canBusError .. => changes_canBusError _ _ h
  | .canTxComplete .. => changes_canTxComplete _ h
  | .recover .. => changes_recover _ _ h
  | .canRecoveryComplete .. => changes_canRecoveryComplete _ h
  | .linSlotStart .. => changes_linSlotStart _ h
  | .linResponse .. => changes_linResponse _ _ _ h
  | .linNoResp .. => changes_linNoResp _ h
  | .linReadbackMismatch .. => changes_linReadbackMismatch _ h
  | .txTimeout .. => changes_txTimeout _ h
  | .chEventsClear .. => changes_chEventsClear _ _ _ h
  | .acfTunnelEndpoint => changes_acfTunnelEndpoint h
  | .packerOpen .. => changes_packerOpen _ h
  | .packWaitExpiry .. => changes_packWaitExpiry _ h
  | .bridgeLost .. => changes_bridgeLost _ h
  | .fvSave .. => changes_fvSave _ h
  | .secEventsClear .. => changes_secEventsClear _ _ h
  | .edgeAccRead .. => changes_edgeAccRead _ _ h
  | .revoke .. => changes_revoke _ _ h
  | .importKey .. => changes_importKey _ _ h
  | .remask => changes_remask h
  | .entropyFailure => changes_entropyFailure h
  | .mcjGo .. => changes_mcjGo _ _ h
  | .mcjSuspend .. => changes_mcjSuspend _ h
  | .mcjDone .. => changes_mcjDone _ h
  | .attGo .. => changes_attGo _ _ h
  | .attestationDone => changes_attestationDone h
  | .lcReq .. => changes_lcReq _ _ h
  | .vkRevoke .. => changes_vkRevoke _ _ h
  | .tamper .. => changes_tamper _ _ h
  | .tamperClr .. => changes_tamperClr _ _ h
  | .sbRetire .. => changes_sbRetire _ _ h
  | .sbRead .. => changes_sbRead _ _ h
  | .sbReadDone => changes_sbReadDone h
  | .descentReq .. => changes_descentReq _ _ h
  | .hostHold .. => changes_hostHold _ _ h
  | .networkIdle .. => changes_networkIdle _ h
  | .maxAwake .. => changes_maxAwake _ h
  | .netClr .. => changes_netClr _ _ h
  | .descentDrain => changes_descentDrain h
  | .descentLinks => changes_descentLinks h
  | .tc10SleepAck .. => changes_tc10SleepAck _ h
  | .descentSave => changes_descentSave h
  | .saveTimeout => changes_saveTimeout h
  | .cutoff => changes_cutoff h
  | .descentAbort => changes_descentAbort h
  | .cutoffComplete => changes_cutoffComplete h
  | .selectiveWake .. => changes_selectiveWake _ _ h
  | .linWake .. => changes_linWake _ h
  | .wakePin .. => changes_wakePin _ h
  | .tc10Wake .. => changes_tc10Wake _ h
  | .parkTimer => changes_parkTimer h
  | .excursion => changes_excursion h
  | .wakeLatch => changes_wakeLatch h
  | .switchDieRelease => changes_switchDieRelease h
  | .wakeCheck => changes_wakeCheck h
  | .forwardingReady => changes_forwardingReady h
  | .mooredScrub .. => changes_mooredScrub _ h
  | .vbatLoss => changes_vbatLoss h
  | .vbatLevelChange .. => changes_vbatLevelChange _ h
  | .lockstepInjection .. => changes_lockstepInjection _ h
  | .coreMismatch .. => changes_coreMismatch _ h
  | .spWatchdog => changes_spWatchdog h
  | .gcWatchdog .. => changes_gcWatchdog _ h
  | .coreCtlRelease .. => changes_coreCtlRelease _ _ h
  | .bankAccess .. => changes_bankAccess _ _ _ _ _ _ h
  | .atomicAdd .. => changes_atomicAdd _ _ _ _ _ h
  | .atomicSwap .. => changes_atomicSwap _ _ _ _ _ h
  | .patrolScrub .. => changes_patrolScrub _ _ h
  | .dbgPoll => changes_dbgPoll h
  | .dbgRead .. => changes_dbgRead _ h
  | .dbgWrite .. => changes_dbgWrite _ _ h
  | .dbgHalt .. => changes_dbgHalt _ h
  | .dbgResume .. => changes_dbgResume _ h
  | .dbgStep .. => changes_dbgStep _ h
  | .tapReset => changes_tapReset h
  | .extest => changes_extest h
  | .idcode => changes_idcode h
  | .samplePreload => changes_samplePreload h
  | .bypass => changes_bypass h
  | .hostInterfaceReset .. => changes_hostInterfaceReset _ h
  | .perstNRise => changes_perstNRise h
  | .p48StateChange .. => changes_p48StateChange _ h
  | .d3hotEntry .. => changes_d3hotEntry _ h
  | .d0Return => changes_d0Return h
  | .msixEnable => changes_msixEnable h
  | .registerWrite .. => changes_registerWrite _ _ _ _ h
  | .cmtWrite .. => changes_cmtWrite _ _ _ h
  | .stageClaim .. => changes_stageClaim _ h
  | .stageRelease .. => changes_stageRelease _ h
  | .stageDiscard .. => changes_stageDiscard _ h
  | .stagePush .. => changes_stagePush _ _ h
  | .cmtPeek .. => changes_cmtPeek _ _ h
  | .commitReq .. => changes_commitReq _ h
  | .commitArm => changes_commitArm h
  | .commitCancel .. => changes_commitCancel _ h
  | .epochLatch .. => changes_epochLatch _ h
  | .epochLatchRelease .. => changes_epochLatchRelease _ h
  | .slotFree .. => changes_slotFree _ h
  | .drainLimit .. => changes_drainLimit _ h
  | .gcOutboundWrite .. => changes_gcOutboundWrite _ _ _ _ h
  | .gcOutboundRead .. => changes_gcOutboundRead _ _ _ _ h
  | .stalemateRetry .. => changes_stalemateRetry _ _ h
  | .semExclusiveLoad .. => changes_semExclusiveLoad _ _ _ h
  | .semExclusiveStore .. => changes_semExclusiveStore _ _ _ h
  | .semWaitTimeout .. => changes_semWaitTimeout _ h
  | .semHoldTimeout .. => changes_semHoldTimeout _ h
  | .semTake .. => changes_semTake _ _ h
  | .semRelease .. => changes_semRelease _ _ h
  | .ledgerRead .. => changes_ledgerRead _ h
  | .ringEnable .. => changes_ringEnable _ _ _ h
  | .ringTail .. => changes_ringTail _ _ _ _ h
  | .txFetch .. => changes_txFetch _ h
  | .txFetchDone .. => changes_txFetchDone _ h
  | .txCompletion .. => changes_txCompletion _ h
  | .modTimer .. => changes_modTimer _ h
  | .peWakeRelease => changes_peWakeRelease h
  | .spiWrite .. => changes_spiWrite _ _ h
  | .spiRead .. => changes_spiRead _ _ h
  | .hWrite .. => changes_hWrite _ _ h
  | .hRead .. => changes_hRead _ _ h
  | .spiStatus => changes_spiStatus h
  | .spiUnknownOpcode .. => changes_spiUnknownOpcode _ h
  | .spiAbort .. => changes_spiAbort _ _ h
  | .doorbell .. => changes_doorbell _ _ h
  | .claimN .. => changes_claimN _ h
  | .claimF .. => changes_claimF _ h
  | .completeN .. => changes_completeN _ _ h
  | .completeF .. => changes_completeF _ _ h
  | .srcCfgEn .. => changes_srcCfgEn _ _ _ h
  | .fcAck .. => changes_fcAck _ _ h
  | .ovfAck .. => changes_ovfAck _ h
  | .faultEscalation => changes_faultEscalation h
  | .snapCtlReq .. => changes_snapCtlReq _ h
  | .dumpCapture => changes_dumpCapture h
  | .dumpWriteDone => changes_dumpWriteDone h
  | .crCtlNow .. => changes_crCtlNow _ h
  | .imgErase .. => changes_imgErase _ h
  | .imgEraseDone => changes_imgEraseDone h
  | .imgWrite .. => changes_imgWrite _ h
  | .imgWriteDone => changes_imgWriteDone h
  | .imgVerify .. => changes_imgVerify _ h
  | .imgVerifyDone => changes_imgVerifyDone h
  | .castle .. => changes_castle _ h
  | .castlingLoadDone .. => changes_castlingLoadDone _ h
  | .spWindowStart => changes_spWindowStart h
  | .spReady => changes_spReady h
  | .spWindowExpiry => changes_spWindowExpiry h
  | .castlingTimeout => changes_castlingTimeout h
  | .imgAbort .. => changes_imgAbort _ h
  | .imgRecover .. => changes_imgRecover _ h
  | .recoveryErase .. => changes_recoveryErase _ h
  | .recoveryWrite .. => changes_recoveryWrite _ _ _ h
  | .recoveryVerify .. => changes_recoveryVerify _ h
  | .recoveryBoot .. => changes_recoveryBoot _ h
  | .powerOn => changes_powerOn h
  | .railsGood .. => changes_railsGood _ h
  | .memoryInitDone .. => changes_memoryInitDone _ h
  | .imagePassDone .. => changes_imagePassDone _ _ h
  | .calibrationDone .. => changes_calibrationDone _ _ h
  | .resetNAssert .. => changes_resetNAssert _ h
  | .resetNRelease .. => changes_resetNRelease _ h
  | .resetReq .. => changes_resetReq _ _ h
  | .thermalTrip => changes_thermalTrip h
  | .thermalTripClear => changes_thermalTripClear h
  | .registerRead .. => changes_registerRead _ _ _ h
  | .thermalWarning .. => changes_thermalWarning _ _ h
  | .wakePinRelease .. => changes_wakePinRelease _ h
  | .outboundReadCompletion .. => changes_outboundReadCompletion _ _ h
  | .aspmL1Entry .. => changes_aspmL1Entry _ h
  | .msixVectorUnmask .. => changes_msixVectorUnmask _ h
  | .recoveryCommandDone => changes_recoveryCommandDone h
  | .syncInterval .. => changes_syncInterval _ _ _ h
  | .decoderFrame .. => changes_decoderFrame _ _ h

/-! Outcomes. -/

/-- Every command's meaning answers a next state: a trigger that is not fulfilled leaves the state, and none stops. -/
theorem exec_answers (c : Instr) (s : State) : ∃ t, exec c s = .next t := by
  cases c <;> exact ⟨_, rfl⟩

theorem step_answers (s : State) : ∃ t, step s = .next t := by
  cases h : s.pending with
  | nil => exact ⟨_, step_idle h⟩
  | cons c rest => rw [step_busy h]; exact exec_answers _ _

theorem core_run_succ {s t : State} (n : Nat) (h : step s = .next t) :
    Sys2Proof.core.run (n + 1) s = Sys2Proof.core.run n t := by
  have hcore : Sys2Proof.core.step s = .next t := h
  simp only [Host.Core.run, hcore]

theorem neverStops (s : State) : NeverStops s := by
  intro n
  induction n generalizing s with
  | zero => exact ⟨s, rfl⟩
  | succ n ih =>
    obtain ⟨t, ht⟩ := step_answers s
    obtain ⟨u, hu⟩ := ih t
    exact ⟨u, (core_run_succ n ht).trans hu⟩

/-- Settles O1. -/
theorem stepRunsTheFrontCommand : Obligations.StepRunsTheFrontCommand := by
  refine ⟨step_front, fun s h => ⟨tick s, step_idle h, rfl, ?_, ?_⟩⟩
  · rw [(changes_tick s).1, h]
  · exact (changes_tick s).mem_eq (by decide) (by decide)

/-- Settles O3: the queue is part of every command's frame. -/
theorem everyCommandCompletes : Obligations.EveryCommandCompletes := by
  refine ⟨fun c s => ?_, neverStops⟩
  obtain ⟨t, ht⟩ := exec_answers c s
  exact ⟨t, ht, (changesOnly_exec c ht).1⟩

/-- Settles O7. -/
theorem eachCommandChangesItsPartsOnly : Obligations.EachCommandChangesItsPartsOnly := by
  refine ⟨fun c _ _ h => changesOnly_exec c h, fun s t hq h => ?_⟩
  rw [step_idle hq] at h
  obtain rfl := Host.Outcome.next.inj h
  exact changes_tick s

end Sys2Proof.Machine
end

section
/-!
The write of FC_ACK by a general core (R309, R310). Its guard violation is a fault like any other: where a record of it
is held already, the record's reaction runs again (R363), with the profile the record names. The statement asks for no
bound of that number, and CONT_CAUSE of a profile far outside the eight there are lies on GUARD_VIOL.
-/
namespace Sys2Proof.Machine

/-! What an activation leaves in CONT_CAUSE. -/

/-- Two fields of one key and one reset value are one field to a read. -/
theorem get_eq_of_key {f g : Fld} (hkey : f.key = g.key) (hreset : f.reset = g.reset) (s : State) : get s f = get s g := by
  unfold get
  rw [hkey, hreset]

theorem profileActive_none {s : State} (h : get s Reg.contStatusActive = 0) (p : Nat) : profileActive s p = false := by
  rw [profileActive, bitAt, h, Nat.zero_testBit]

/-- A profile that becomes active holds its first cause alone (R169). -/
theorem get_contActivate_cause {s : State} {p : Nat} (hidle : profileActive s p = false) (cause master : Nat)
    (hlost : (Reg.contCauseCause p).key ≠ Reg.sbStatsLost.key) :
    get (contActivate s p cause master) (Reg.contCauseCause p) = 2 ^ cause % 2 ^ 5 := by
  have hcause (u : State) : get (put u (Reg.contCauseCause p) (0 ||| 2 ^ cause)) (Reg.contCauseCause p) = 2 ^ cause % 2 ^ 5 := by
    rw [get_put_same, Nat.zero_or]
    rfl
  simp only [contActivate, hidle, Bool.false_eq_true, false_and, if_false]
  rw [get_journal_ne _ _ _ _ hlost, hcause]

/-! What recording a fault again does. -/

@[simp] theorem get_noteGrant (s : State) (a : Nat) (m : Master) (f : Fld) : get (noteGrant s a m) f = get s f := rfl

@[simp] theorem get_holdFault (s : State) (p code unit : Nat) (f : Fld) : get (holdFault s p code unit) f = get s f := rfl

@[simp] theorem get_requestAbort (s : State) (cause source : Nat) (f : Fld) :
    get (requestAbort s cause source) f = get s f := get_congr _ _ _ (requestAbort_regs s cause source)

theorem get_refreshFaultN_ne (s : State) (f : Fld) (h : f.key ≠ Reg.fcStatusFaultN.key) :
    get (refreshFaultN s) f = get s f := by
  unfold refreshFaultN
  split
  · rfl
  · exact get_putFlag_ne _ _ _ _ h

/-- The reaction to a fault of CONTAIN activates its profile, where that is not active, with the cause fault. -/
theorem get_faultReact_contain {s : State} {p : Nat} (hp : p ≠ 0xFF) (hidle : profileActive s p = false) (code unit : Nat)
    (hlost : (Reg.contCauseCause p).key ≠ Reg.sbStatsLost.key) :
    get (faultReact s code unit 2 p) (Reg.contCauseCause p) = 2 := by
  have hidle' : profileActive (requestAbort s 5 0) p = false := by
    unfold profileActive
    rwa [get_requestAbort]
  simp only [faultReact, if_neg hp, get_holdFault]
  exact get_contActivate_cause hidle' 1 0xFF hlost

/-- A held fault recorded again reacts as its record says. -/
theorem recordFault_held {s : State} {code unit : Nat} {r : FaultRec}
    (h : s.fault.recs.find? (fun r => r.code = code ∧ r.unit = unit) = some r) (detail : Nat) :
    recordFault s code unit detail =
      refreshFaultN (faultReact { s with fault.recs := repeatRecord code unit s.fault.recs } code unit r.sev r.profile) := by
  unfold recordFault
  rw [h]

/-! The write refused. -/

theorem recoverySize_of_aloft {s : State} (h : aloft s = true) (a size : Nat) : recoverySize s a size = false := by
  simp only [aloft, beq_iff_eq] at h
  simp [recoverySize, h]

theorem resetEarly_of_aloft {s : State} (h : aloft s = true) (m : Master) : resetEarly s m = false := by
  simp [resetEarly, h]

/-- A write that a check refuses, of a master that the control space answers. -/
theorem registerWrite_refused {s : State} {m : Master} {a size c : Nat} (hheard : masterHeard s m = true)
    (haloft : aloft s = true) (hc : writeRefusal s m a size = some c) (w : Nat) :
    registerWrite s m a size w = noteGrant (refuseWrite s m a c) a m := by
  simp [registerWrite, writePerformed, hheard, recoverySize_of_aloft haloft, resetEarly_of_aloft haloft, writesAnswered,
    haloft, hc]

/-! The state. -/

/-- The guard violation of core 0, held at severity CONTAIN with a profile's number. -/
def strayRecord (p : Nat) : FaultRec := ⟨0x0014, 2, faultUnit 3 1, 0, 0, 0, 0, p⟩

/-- A device aloft that holds this record alone. -/
def strayState (p : Nat) : State := { State.reset with boot.phase := .aloft, fault.recs := [strayRecord p] }

theorem masterHeard_stray (p : Nat) : masterHeard (strayState p) (.gc 0) = true := by
  have h : masterHeard (strayState 0) (.gc 0) = true := by decide +kernel
  exact h

theorem writeRefusal_stray (p : Nat) : writeRefusal (strayState p) (.gc 0) 0xA0004 4 = some 2 := rfl

/-- CONT_CAUSE of profile 0x1FC238, at 0x610020 and four bytes a profile, is at the address of GUARD_VIOL. -/
theorem exists_stray : ∃ p, (Reg.contCauseCause p).key = Reg.guardViol.key := ⟨0x1FC238, by decide⟩

/-- With such a profile the refused write of FC_ACK leaves the cause fault in GUARD_VIOL, where its count of 1 is due. -/
theorem guardViol_of_stray {p : Nat} (hkey : (Reg.contCauseCause p).key = Reg.guardViol.key) (w : Nat) :
    get (registerWrite (strayState p) (.gc 0) 0xA0004 4 w) Reg.guardViol = 2 := by
  have hp : p ≠ 0xFF := by
    rintro rfl
    exact absurd hkey (by decide)
  have hlost : (Reg.contCauseCause p).key ≠ Reg.sbStatsLost.key := hkey ▸ by decide
  have hviolation : get (guardViolation (strayState p) (.gc 0) 0xA0004) Reg.guardViol = 2 := by
    rw [guardViolation, recordFault_held (r := strayRecord p) rfl, get_refreshFaultN_ne _ _ (by decide),
      ← get_eq_of_key hkey rfl]
    exact get_faultReact_contain hp (profileActive_none rfl p) _ _ hlost
  rw [registerWrite_refused (masterHeard_stray p) rfl (writeRefusal_stray p), get_noteGrant]
  exact (get_answer _ _ _ _).trans hviolation

/-- Refutes O57: a general core's write of FC_ACK need not raise GUARD_VIOL by one. A held record of the same violation
with severity CONTAIN and profile 0x1FC238 has the profile's cause written over the count. -/
theorem not_registerAccessesHaveTheirEffects : ¬ Obligations.RegisterAccessesHaveTheirEffects := by
  unfold Obligations.RegisterAccessesHaveTheirEffects
  intro h
  obtain ⟨-, -, -, -, -, -, -, -, hguard, -⟩ := h
  obtain ⟨p, hkey⟩ := exists_stray
  obtain ⟨t, ht, -, hcount, -⟩ := hguard (strayState p) 0 [] 0 rfl (masterHeard_stray p) rfl
  have hwrite : t = registerWrite (strayState p) (.gc 0) 0xA0004 4 (0 : Word).toNat := (Host.Outcome.next.inj ht).symm
  rw [hwrite, guardViol_of_stray hkey] at hcount
  have hdue : get (strayState p) Reg.guardViol = 0 := rfl
  rw [hdue] at hcount
  exact absurd hcount (by decide)

end Sys2Proof.Machine
end

section
/-!
The time domains (R33 to R35). A domain reads its anchor's time at the anchor and from there the rate and the slew; an
accepted Sync sets a new anchor, and the gate lists that follow a stepped working clock write registers of the traffic
manager alone, whose addresses lie above those of the time base.
-/
namespace Sys2Proof.Machine

/-! Parts that a change leaves alone. -/

theorem changesOnly.regs_eq {l : List Part} {s t : State} (h : changesOnly l s t) (hl : Part.registers ∉ l) :
    t.regs = s.regs := by
  obtain ⟨-, hregs, -⟩ := h
  exact hregs.resolve_left hl

theorem changesOnly.time_eq {l : List Part} {s t : State} (h : changesOnly l s t) (hl : Part.time ∉ l) :
    t.time = s.time := by
  obtain ⟨-, -, -, htime, -⟩ := h
  exact htime.resolve_left hl

/-! Registers below the traffic manager's. -/

/-- Every field below the registers of the traffic manager reads the same in both states. -/
def lowSame (s t : State) : Prop := ∀ f : Fld, f.key < 0x810000 * 32 → get t f = get s f

theorem lowSame.refl (s : State) : lowSame s s := fun _ _ => rfl

theorem lowSame.trans {s t u : State} (h : lowSame s t) (k : lowSame t u) : lowSame s u :=
  fun f hf => (k f hf).trans (h f hf)

theorem lowSame.of_regs {s t : State} (h : t.regs = s.regs) : lowSame s t := fun _ _ => get_congr _ _ _ h

theorem lowSame.put {s t : State} (h : lowSame s t) {f : Fld} (hf : 0x810000 * 32 ≤ f.key) (v : Nat) :
    lowSame s (put t f v) :=
  fun g hg => (get_put_ne _ _ _ _ (by omega)).trans (h g hg)

theorem lowSame.putFlag {s t : State} (h : lowSame s t) {f : Fld} (hf : 0x810000 * 32 ≤ f.key) (b : Bool) :
    lowSame s (putFlag t f b) := h.put hf _

theorem lowSame.bump {s t : State} (h : lowSame s t) {f : Fld} (hf : 0x810000 * 32 ≤ f.key) : lowSame s (bump t f) :=
  fun g hg => (get_bump_ne _ _ _ (by omega)).trans (h g hg)

theorem lowSame_foldl {α : Type} (g : State → α → State) (hg : ∀ s x, lowSame s (g s x)) (l : List α) (s : State) :
    lowSame s (l.foldl g s) := by
  induction l generalizing s with
  | nil => exact .refl s
  | cons x l ih => exact (hg s x).trans (ih _)

theorem lowSame_forIdx (n : Nat) (g : Nat → State → State) (hg : ∀ i s, lowSame s (g i s)) (s : State) :
    lowSame s (forIdx n g s) := lowSame_foldl _ (fun s i => hg i s) _ s

/-! Gates and flow gates. -/

theorem lowSame_flowSync (s : State) (g : Nat) : lowSame s (flowSync s g) := by
  have hkey (f : Fld) (hf : f ∈ [Reg.fgStateEntry g, Reg.fgStateIpv g, Reg.fgStateIpvValid g, Reg.fgStateOpen g]) :
      0x810000 * 32 ≤ f.key := by
    simp only [List.mem_cons, List.not_mem_nil, or_false] at hf
    rcases hf with rfl | rfl | rfl | rfl <;> simp only [Fld.key, Reg.fgStateEntry, Reg.fgStateIpv, Reg.fgStateIpvValid,
      Reg.fgStateOpen] <;> omega
  unfold flowSync
  dsimp only
  split
  · exact .refl s
  · refine (((lowSame.of_regs ?_).put (hkey _ (by simp)) _).put (hkey _ (by simp)) _).putFlag (hkey _ (by simp)) _
      |>.putFlag (hkey _ (by simp)) _
    split <;> rfl

theorem lowSame_showGates (s : State) (p : Nat) : lowSame s (showGates s p) := by
  have hkey (f : Fld) (hf : f ∈ [Reg.tmGateGatesEn p, Reg.tmGatePending p, Reg.tmSwitchAt p, Reg.tmGateOperStates p,
      Reg.tmGateEntry p, Reg.tmGateHeld p]) : 0x810000 * 32 ≤ f.key := by
    simp only [List.mem_cons, List.not_mem_nil, or_false] at hf
    rcases hf with rfl | rfl | rfl | rfl | rfl | rfl <;> simp only [Fld.key, Reg.tmGateGatesEn, Reg.tmGatePending,
      Reg.tmSwitchAt, Reg.tmGateOperStates, Reg.tmGateEntry, Reg.tmGateHeld] <;> omega
  unfold showGates
  refine ((((lowSame.refl s).putFlag (hkey _ (by simp)) _).putFlag (hkey _ (by simp)) _).put (hkey _ (by simp)) _
    |>.put (hkey _ (by simp)) _ |>.put (hkey _ (by simp)) _ |>.putFlag (hkey _ (by simp)) _)

theorem lowSame_gateClosesOn (s : State) (p closed : Nat) : lowSame s (gateClosesOn s p closed) := by
  refine lowSame_foldl _ (fun st e => ?_) _ _
  split
  · refine (lowSame.of_regs rfl).bump ?_
    simp only [Fld.key, Reg.tmTxTxOverrun]
    omega
  · exact .refl st

theorem settlePreempt_regs (s : State) (p : Nat) : (settlePreempt s p).regs = s.regs :=
  (changesOnly_of_kept (@kept_settlePreempt [.frames, .io] (has_of rfl) (has_of rfl) s p)).regs_eq (by decide)

theorem gateOp_regs (s : State) (p : Nat) : (gateOp s p).regs = s.regs :=
  (changesOnly_of_kept (@kept_gateOp [.tm] (has_of rfl) s p)).regs_eq (by decide)

/-- The list that takes over is counted above. -/
theorem lowSame_takeover (s : State) (p : Nat) (g : Gates) (due : Bool) : lowSame s
    (if due then bump { s with tm.gates := s.tm.gates.set p g } (Reg.tmTxTakeovers p) else s) := by
  split
  · refine (lowSame.of_regs rfl).bump ?_
    simp only [Fld.key, Reg.tmTxTakeovers]
    omega
  · exact .refl s

theorem lowSame_gateSync (s : State) (p : Nat) : lowSame s (gateSync s p) := by
  have hop (u : State) (new : Bool) : lowSame u (if new then gateOp u p else u) := by
    split
    · exact .of_regs (gateOp_regs u p)
    · exact .refl u
  unfold gateSync
  dsimp only
  split
  · exact .refl s
  · refine lowSame.trans ?_ (lowSame_showGates _ p)
    refine lowSame.trans ?_ (.of_regs (settlePreempt_regs _ p))
    refine lowSame.trans ?_ (hop _ _)
    exact (lowSame_takeover s p _ _).trans (lowSame_gateClosesOn _ p _)

theorem lowSame_syncLists (s : State) : lowSame s (syncLists s) :=
  (lowSame_forIdx _ _ (fun p st => lowSame_gateSync st p) s).trans (lowSame_foldl _ lowSame_flowSync _ _)

theorem syncLists_time (s : State) : (syncLists s).time = s.time :=
  (changesOnly_of_kept (@kept_syncLists [.registers, .accum, .frames, .tm, .io] (has_of rfl) (has_of rfl) (has_of rfl)
    (has_of rfl) (has_of rfl) s)).time_eq (by decide)

/-! A domain's time. -/

@[simp] theorem domOf_setDom (s : State) (d : Domain) (x : DomSt) : domOf (setDom s d x) d = x := by
  cases d <;> rfl

theorem domOf_of_time {s t : State} (h : t.time = s.time) (d : Domain) : domOf t d = domOf s d := by
  cases d <;> simp only [domOf, h]

theorem clampInt_zero {m : Int} (h : 0 ≤ m) : clampInt (-m) m 0 = 0 := by
  unfold clampInt
  split_ifs <;> omega

theorem clampInt_none (x : Int) : clampInt 0 0 x = 0 := by
  unfold clampInt
  split_ifs <;> omega

/-- What of an offset has been slewed away is within both the limit and the offset, and all of it once the limit
reaches it. -/
theorem clampInt_natAbs {m : Nat} (x : Int) :
    (clampInt (-m) m x).natAbs ≤ min m x.natAbs ∧ (x.natAbs ≤ m → clampInt (-m) m x = x) := by
  unfold clampInt
  split_ifs <;> omega

/-- A domain's time some ns after its anchor. -/
theorem domAt_after (x : DomSt) (ppm n : Nat) : domAt x ppm (x.anchorLocal + n) = x.anchorTime + n +
    n * x.rate / 1000000000 + clampInt (-(n * ppm / 1000000 : Nat)) (n * ppm / 1000000 : Nat) x.slew := by
  have hpast : ((x.anchorLocal + n : Nat) : Int) - x.anchorLocal = n := by omega
  have hnonneg : ¬ (n : Int) < 0 := by omega
  simp only [domAt, hpast, hnonneg, if_false]
  norm_cast

/-! Steps. -/

@[simp] theorem logStep_time (s : State) (d : Domain) (cause : Nat) (step : Int) :
    (logStep s d cause step).time = s.time := by
  unfold logStep
  split
  · exact journal_time _ _ _
  · rfl

theorem get_logStep_ne (s : State) (d : Domain) (cause : Nat) (step : Int) {f : Fld}
    (h : f.key ≠ Reg.sbStatsLost.key) : get (logStep s d cause step) f = get s f := by
  unfold logStep
  split
  · exact get_journal_ne _ _ _ _ h
  · rfl

/-- A step takes the new anchor, with nothing left to slew (R34, R35). -/
theorem domOf_stepDom (s : State) (d : Domain) (step rate : Int) (cause : Nat) : domOf (stepDom s d step rate cause) d =
    { domOf s d with anchorLocal := s.time.now, anchorTime := domNow s d + step, rate := rate, slew := 0 } := by
  cases d with
  | wc =>
    refine (domOf_of_time (logStep_time _ _ _ _) _).trans ((domOf_of_time (syncLists_time _) _).trans ?_)
    rfl
  | gt =>
    refine (domOf_of_time (logStep_time _ _ _ _) _).trans ?_
    rfl

/-- A stepped working clock has the tempo generator realign (R40). -/
theorem stepDom_wc_realign (s : State) (step rate : Int) (cause : Nat) :
    (stepDom s .wc step rate cause).time.realign = true := by
  unfold stepDom
  dsimp only
  rw [logStep_time, syncLists_time]

/-- A step changes registers of the traffic manager, and the count of events lost. -/
theorem get_stepDom_low (s : State) (d : Domain) (step rate : Int) (cause : Nat) {f : Fld}
    (hf : f.key < 0x810000 * 32) (hlost : f.key ≠ Reg.sbStatsLost.key) :
    get (stepDom s d step rate cause) f = get s f := by
  cases d with
  | wc => exact (get_logStep_ne _ _ _ _ hlost).trans (lowSame_syncLists _ f hf)
  | gt => exact get_logStep_ne _ _ _ _ hlost

/-! An accepted Sync. -/

/-- The bits of a domain that has accepted a Sync: locked, neither in holdover nor grandmaster. -/
def lockDom (s : State) (d : Domain) : State :=
  putFlag (putFlag (putFlag s (holdoverFld d) false) (gmFld d) false) (lockedFld d) true

/-- A domain that has been locked, to a grandmaster. -/
def followGm (s : State) (d : Domain) (gm : Nat) : State :=
  setDom s d { domOf s d with everLocked := true, gm := some gm }

/-- The offset that TB_STATUS shows of the working clock. -/
def showOffset (s : State) (d : Domain) (v : Nat) : State :=
  match d with
  | .wc => put s Reg.tbStatusWcOffset v
  | .gt => s

@[simp] theorem showOffset_time (s : State) (d : Domain) (v : Nat) : (showOffset s d v).time = s.time := by
  cases d <;> rfl

theorem get_showOffset_ne (s : State) (d : Domain) (v : Nat) {f : Fld} (h : f.key ≠ Reg.tbStatusWcOffset.key) :
    get (showOffset s d v) f = get s f := by
  cases d
  · exact get_put_ne _ _ _ _ h
  · rfl

theorem acceptSync_slews {s : State} {d : Domain} {gm : Nat} {offset rate : Int} (haloft : aloft s = true)
    (hext : (extPortCfg s d && !extSlave s d) = false) (hslew : syncSteps s d gm offset = false) :
    acceptSync s d gm offset rate = noteTb s (showOffset (followGm (slewDom (lockDom s d) d offset rate) d gm) d
      (unsigned 16 (clampInt (-32767) 32767 offset))) := by
  unfold acceptSync
  rw [if_neg (by simpa [haloft] using hext)]
  cases d <;> simp only [hslew] <;> rfl

theorem acceptSync_steps {s : State} {d : Domain} {gm : Nat} {offset rate : Int} (haloft : aloft s = true)
    (hext : (extPortCfg s d && !extSlave s d) = false) (hstep : syncSteps s d gm offset = true) :
    acceptSync s d gm offset rate = noteTb s (showOffset
      (followGm (stepDom (lockDom s d) d offset rate (syncCause (domOf s d) gm)) d gm) d 0) := by
  unfold acceptSync
  rw [if_neg (by simpa [haloft] using hext)]
  cases d <;> simp only [hstep] <;> rfl

/-- The fields that show how a domain follows its grandmaster. -/
def tbBits (d : Domain) : List Fld := [lockedFld d, holdoverFld d, gmFld d]

theorem tbBits_apart (d : Domain) : ∀ f ∈ tbBits d, f.key < 0x810000 * 32 ∧ f.key ≠ Reg.sbStatsLost.key ∧
    f.key ≠ Reg.tbStatusWcOffset.key ∧ ((raiseFields 18).all fun g => f.key != g.key) = true := by
  cases d <;> decide

theorem get_lockDom (s : State) (d : Domain) : get (lockDom s d) (lockedFld d) = 1 ∧
    get (lockDom s d) (holdoverFld d) = 0 ∧ get (lockDom s d) (gmFld d) = 0 := by
  have hheld : (holdoverFld d).key ≠ (gmFld d).key ∧ (holdoverFld d).key ≠ (lockedFld d).key ∧
      (gmFld d).key ≠ (lockedFld d).key := by cases d <;> decide
  obtain ⟨hhg, hhl, hgl⟩ := hheld
  unfold lockDom
  refine ⟨?_, ?_, ?_⟩
  · rw [get_putFlag_same]
    cases d <;> rfl
  · rw [get_putFlag_ne _ _ _ _ hhl, get_putFlag_ne _ _ _ _ hhg, get_putFlag_same]
    cases d <;> rfl
  · rw [get_putFlag_ne _ _ _ _ hgl, get_putFlag_same]
    cases d <;> rfl

/-- What shows the domain afterwards leaves the bits that the Sync has set. -/
theorem get_tbBits_of_sync {s u v : State} {d : Domain} (gm offset : Nat) (hu : ∀ f ∈ tbBits d, get v f = get u f) :
    ∀ f ∈ tbBits d, get (noteTb s (showOffset (followGm v d gm) d offset)) f = get u f := by
  intro f hf
  obtain ⟨-, -, hoffset, hraise⟩ := tbBits_apart d f hf
  rw [get_noteTb_ne _ _ _ hraise, get_showOffset_ne _ _ _ hoffset, ← hu f hf]
  exact get_congr _ _ _ (setDom_regs _ _ _)

theorem get_acceptSync_locked {s v : State} {d : Domain} (gm offset : Nat)
    (hv : ∀ f ∈ tbBits d, get v f = get (lockDom s d) f) :
    get (noteTb s (showOffset (followGm v d gm) d offset)) (lockedFld d) = 1 ∧
    get (noteTb s (showOffset (followGm v d gm) d offset)) (holdoverFld d) = 0 ∧
    get (noteTb s (showOffset (followGm v d gm) d offset)) (gmFld d) = 0 := by
  have hget := get_tbBits_of_sync (s := s) gm offset hv
  rw [hget _ (by simp [tbBits]), hget _ (by simp [tbBits]), hget _ (by simp [tbBits])]
  exact get_lockDom s d

/-- The domain afterwards: the one the step or the slew has set, locked to the grandmaster. -/
theorem domOf_of_sync (s v : State) (d : Domain) (gm offset : Nat) :
    domOf (noteTb s (showOffset (followGm v d gm) d offset)) d = { domOf v d with everLocked := true, gm := some gm } :=
  (domOf_of_time (noteTb_time _ _) d).trans ((domOf_of_time (showOffset_time _ _ _) d).trans (domOf_setDom _ _ _))

theorem domOf_acceptSync_slews {s : State} {d : Domain} {gm : Nat} {offset rate : Int} (haloft : aloft s = true)
    (hext : (extPortCfg s d && !extSlave s d) = false) (hslew : syncSteps s d gm offset = false) :
    domOf (acceptSync s d gm offset rate) d =
      { domOf s d with anchorLocal := s.time.now, anchorTime := domNow s d, rate := rate, slew := offset,
                       everLocked := true, gm := some gm } := by
  rw [acceptSync_slews haloft hext hslew, domOf_of_sync, slewDom, domOf_setDom]
  rfl

theorem domOf_acceptSync_steps {s : State} {d : Domain} {gm : Nat} {offset rate : Int} (haloft : aloft s = true)
    (hext : (extPortCfg s d && !extSlave s d) = false) (hstep : syncSteps s d gm offset = true) :
    domOf (acceptSync s d gm offset rate) d =
      { domOf s d with anchorLocal := s.time.now, anchorTime := domNow s d + offset, rate := rate, slew := 0,
                       everLocked := true, gm := some gm } := by
  rw [acceptSync_steps haloft hext hstep, domOf_of_sync, domOf_stepDom]
  rfl

/-! Global time afterwards. -/

theorem gtAt_anchor {t : State} {a n : Nat} (h : t.time.gt.anchorLocal = a) : gtAt t (a + n) =
    t.time.gt.anchorTime + n + n * t.time.gt.rate / 1000000000 +
      clampInt (-(n * 100 / 1000000 : Nat)) (n * 100 / 1000000 : Nat) t.time.gt.slew := by
  subst h
  exact domAt_after _ _ _

theorem gtNow_of_now {t : State} {a : Nat} (h : t.time.now = a) : gtNow t = gtAt t (a + 0) := by
  subst h
  rfl

/-- Global time at and after an accepted Sync whose offset steps it (R35). -/
theorem gtAt_acceptSync_steps {s : State} {gm : Nat} {offset rate : Int} (haloft : aloft s = true)
    (hext : (extPortCfg s .gt && !extSlave s .gt) = false) (hfar : 1000 < offset.natAbs) (n : Nat) :
    gtAt (acceptSync s .gt gm offset rate) (s.time.now + n) = gtNow s + offset + n + n * rate / 1000000000 := by
  have hgt : (acceptSync s .gt gm offset rate).time.gt = _ :=
    domOf_acceptSync_steps haloft hext (d := .gt) (decide_eq_true hfar)
  rw [gtAt_anchor (by rw [hgt]), hgt]
  have hnone : clampInt (-(n * 100 / 1000000 : Nat)) (n * 100 / 1000000 : Nat) 0 = 0 := clampInt_zero (by omega)
  rw [hnone, Int.add_zero]
  rfl

/-- Global time at and after an accepted Sync whose offset it slews. -/
theorem gtAt_acceptSync_slews {s : State} {gm : Nat} {offset rate : Int} (haloft : aloft s = true)
    (hext : (extPortCfg s .gt && !extSlave s .gt) = false) (hnear : offset.natAbs ≤ 1000) (n : Nat) :
    gtAt (acceptSync s .gt gm offset rate) (s.time.now + n) = gtNow s + n + n * rate / 1000000000 +
      clampInt (-(n * 100 / 1000000 : Nat)) (n * 100 / 1000000 : Nat) offset := by
  have hgt : (acceptSync s .gt gm offset rate).time.gt = _ :=
    domOf_acceptSync_slews haloft hext (d := .gt) (decide_eq_false (by omega))
  rw [gtAt_anchor (by rw [hgt]), hgt]
  rfl

/-- What of the offset has been slewed n ns after the Sync: at most 100 ppm of n, at most the offset, and all of it in
the end. -/
theorem gtAt_slew_bounds {s : State} {gm : Nat} {offset rate : Int} (haloft : aloft s = true)
    (hext : (extPortCfg s .gt && !extSlave s .gt) = false) (hnear : offset.natAbs ≤ 1000) (n : Nat) :
    (gtAt (acceptSync s .gt gm offset rate) (s.time.now + n) - (gtNow s + n + n * rate / 1000000000)).natAbs ≤
        min (n * 100 / 1000000) offset.natAbs ∧
      (offset.natAbs * 10000 ≤ n → gtAt (acceptSync s .gt gm offset rate) (s.time.now + n) =
        gtNow s + n + n * rate / 1000000000 + offset) := by
  obtain ⟨hbound, hreach⟩ := clampInt_natAbs (m := n * 100 / 1000000) offset
  rw [gtAt_acceptSync_slews haloft hext hnear, add_sub_cancel_left]
  exact ⟨hbound, fun hn => by rw [hreach (by omega)]⟩

/-- Settles O59, by the new anchor: a step adds the offset there, a slew adds at most 100 ppm of the time passed. -/
theorem globalTimeStepsOrSlews : Obligations.GlobalTimeStepsOrSlews := by
  unfold Obligations.GlobalTimeStepsOrSlews
  refine ⟨fun s gm offset rate haloft hext hfar => ⟨_, rfl, gtAt_acceptSync_steps haloft hext hfar⟩,
    fun s gm offset rate haloft hext hnear => ⟨_, rfl, fun n => ?_⟩⟩
  obtain ⟨hbound, -⟩ := gtAt_slew_bounds (gm := gm) (rate := rate) haloft hext hnear n
  omega

/-! The instant and the frames. -/

/-- A source raised for TB_STATUS changes registers, counters, and what takes an interrupt to a core or to the host. -/
theorem noteTb_frame (s u : State) : noteTb s u = { u with
    regs := (noteTb s u).regs, accum := (noteTb s u).accum, intc := (noteTb s u).intc, host := (noteTb s u).host
    io := (noteTb s u).io } := by
  apply State.eq_of_parts <;> simp

theorem acceptSync_slews_frame {s : State} {d : Domain} {gm : Nat} {offset rate : Int} (haloft : aloft s = true)
    (hext : (extPortCfg s d && !extSlave s d) = false) (hslew : syncSteps s d gm offset = false) :
    acceptSync s d gm offset rate = { s with
      regs := (acceptSync s d gm offset rate).regs, accum := (acceptSync s d gm offset rate).accum
      time := (acceptSync s d gm offset rate).time, intc := (acceptSync s d gm offset rate).intc
      host := (acceptSync s d gm offset rate).host, io := (acceptSync s d gm offset rate).io } := by
  rw [acceptSync_slews haloft hext hslew]
  refine (noteTb_frame _ _).trans ?_
  rw [noteTb_time]
  cases d <;> rfl

theorem stepDom_gt_now (s : State) (step rate : Int) (cause : Nat) :
    (stepDom s .gt step rate cause).time.now = s.time.now := by
  unfold stepDom
  rw [logStep_time]
  rfl

theorem gtNow_acceptSync_steps {s : State} {gm : Nat} {offset rate : Int} (haloft : aloft s = true)
    (hext : (extPortCfg s .gt && !extSlave s .gt) = false) (hfar : 1000 < offset.natAbs) :
    gtNow (acceptSync s .gt gm offset rate) = gtNow s + offset := by
  have hnow : (acceptSync s .gt gm offset rate).time.now = s.time.now := by
    rw [acceptSync_steps haloft hext (decide_eq_true hfar), noteTb_time]
    exact stepDom_gt_now _ _ _ _
  rw [gtNow_of_now hnow, gtAt_acceptSync_steps haloft hext hfar]
  simp

theorem gtNow_acceptSync_slews {s : State} {gm : Nat} {offset rate : Int} (haloft : aloft s = true)
    (hext : (extPortCfg s .gt && !extSlave s .gt) = false) (hnear : offset.natAbs ≤ 1000) :
    gtNow (acceptSync s .gt gm offset rate) = gtNow s := by
  have hnow : (acceptSync s .gt gm offset rate).time.now = s.time.now := by
    rw [acceptSync_slews haloft hext (decide_eq_false (by omega)), noteTb_time]
    rfl
  rw [gtNow_of_now hnow, gtAt_acceptSync_slews haloft hext hnear]
  simp [clampInt_none]

theorem acceptSync_wc_realign {s : State} {gm : Nat} {offset rate : Int} (haloft : aloft s = true)
    (hext : (extPortCfg s .wc && !extSlave s .wc) = false) (hstep : syncSteps s .wc gm offset = true) :
    (acceptSync s .wc gm offset rate).time.realign = true := by
  rw [acceptSync_steps haloft hext hstep, noteTb_time]
  exact stepDom_wc_realign _ _ _ _

/-! A lost grandmaster. -/

/-- The bits of a domain in holdover (R33). -/
def holdDom (s : State) (d : Domain) : State := putFlag (putFlag s (lockedFld d) false) (holdoverFld d) true

theorem grandmasterLoss_locked {s : State} {d : Domain} (hlocked : flag s (lockedFld d) = true)
    (hgm : flag s (gmFld d) = false) : grandmasterLoss s d = noteTb s (holdDom s d) := by
  simp only [grandmasterLoss, hlocked, hgm, Bool.not_false, and_self, if_true]
  rfl

theorem get_holdDom (s : State) (d : Domain) :
    get (holdDom s d) (lockedFld d) = 0 ∧ get (holdDom s d) (holdoverFld d) = 1 := by
  have hapart : (lockedFld d).key ≠ (holdoverFld d).key := by cases d <;> decide
  unfold holdDom
  refine ⟨?_, ?_⟩
  · rw [get_putFlag_ne _ _ _ _ hapart, get_putFlag_same]
    cases d <;> rfl
  · rw [get_putFlag_same]
    cases d <;> rfl

theorem regsSame.noteTb {s u : State} {l : List Fld} (h : regsSame s u l) (a : State)
    (hl : ∀ f ∈ raiseFields 18, f ∈ l) : regsSame s (noteTb a u) l :=
  fun g hg => (get_noteTb_ne _ _ _ (List.all_eq_true.2 fun f hf => List.all_eq_true.1 hg f (hl f hf))).trans (h g hg)

/-- The loss of a grandmaster shows in the domain's bits alone. -/
theorem holdDom_regsSame (s : State) (d : Domain) :
    regsSame s (noteTb s (holdDom s d)) ([lockedFld d, holdoverFld d] ++ raiseFields 18) := by
  refine regsSame.noteTb ?_ s fun f hf => List.mem_append_right _ hf
  exact ((regsSame.refl s _).putFlag (by simp) _).putFlag (by simp) _

theorem get_noteTb_holdDom (s : State) (d : Domain) : get (noteTb s (holdDom s d)) (lockedFld d) = 0 ∧
    get (noteTb s (holdDom s d)) (holdoverFld d) = 1 := by
  obtain ⟨-, -, -, hlocked⟩ := tbBits_apart d (lockedFld d) (by simp [tbBits])
  obtain ⟨-, -, -, hholdover⟩ := tbBits_apart d (holdoverFld d) (by simp [tbBits])
  rw [get_noteTb_ne _ _ _ hlocked, get_noteTb_ne _ _ _ hholdover]
  exact get_holdDom s d

/-- Settles O9: clause by clause, from the new anchor of a slew or a step and from the bits of holdover. -/
theorem timeDomainsFollowSync : Obligations.TimeDomainsFollowSync := by
  unfold Obligations.TimeDomainsFollowSync
  refine ⟨fun s d gm offset rate haloft hext hslew => ?_, fun s d gm offset rate haloft hext hstep => ?_,
    fun s d hlocked hgm => ?_, fun s gm offset rate haloft hext hfar => ?_, fun s gm offset rate haloft hext hnear => ?_⟩
  case refine_1 =>
    have hbits : get (acceptSync s d gm offset rate) (lockedFld d) = 1 ∧
        get (acceptSync s d gm offset rate) (holdoverFld d) = 0 ∧ get (acceptSync s d gm offset rate) (gmFld d) = 0 := by
      rw [acceptSync_slews haloft hext hslew]
      exact get_acceptSync_locked gm _ fun f _ => get_congr _ _ _ (setDom_regs _ _ _)
    obtain ⟨hlocked, hholdover, hgm⟩ := hbits
    exact ⟨_, rfl, domOf_acceptSync_slews haloft hext hslew, hlocked, hholdover, hgm,
      acceptSync_slews_frame haloft hext hslew⟩
  case refine_2 =>
    have hbits : get (acceptSync s d gm offset rate) (lockedFld d) = 1 ∧
        get (acceptSync s d gm offset rate) (holdoverFld d) = 0 ∧ get (acceptSync s d gm offset rate) (gmFld d) = 0 := by
      rw [acceptSync_steps haloft hext hstep]
      refine get_acceptSync_locked gm _ fun f hf => ?_
      obtain ⟨hlow, hlost, -⟩ := tbBits_apart d f hf
      exact get_stepDom_low _ _ _ _ _ hlow hlost
    obtain ⟨hlocked, hholdover, hgm⟩ := hbits
    refine ⟨_, rfl, domOf_acceptSync_steps haloft hext hstep, hlocked, hholdover, hgm, ?_⟩
    rintro rfl
    exact acceptSync_wc_realign haloft hext hstep
  case refine_3 =>
    refine ⟨_, rfl, ?_⟩
    obtain ⟨hunlocked, hheld⟩ := get_noteTb_holdDom s d
    rw [grandmasterLoss_locked hlocked hgm]
    exact ⟨hunlocked, hheld, noteTb_time _ _, holdDom_regsSame s d, noteTb_frame s (holdDom s d)⟩
  case refine_4 => exact ⟨_, rfl, gtNow_acceptSync_steps haloft hext hfar⟩
  case refine_5 =>
    exact ⟨_, rfl, gtNow_acceptSync_slews haloft hext hnear, gtAt_slew_bounds haloft hext hnear⟩

end Sys2Proof.Machine
end

section
/-!
PPS_IN, PPS_OUT, time snapshots and the setting of global time (R32, R36 to R38).
-/
namespace Sys2Proof.Machine

/-! Accepted accesses. -/

/-- What an answered access leaves is its effect, beside the answer. -/
theorem answered_frame (u : State) (m : Master) (r : Resp) (a : Nat) : noteGrant (answer u m r) a m = { u with
    cpu := (noteGrant (answer u m r) a m).cpu, io := (noteGrant (answer u m r) a m).io } := by
  apply State.eq_of_parts <;> simp

@[simp] theorem get_answered (u : State) (m : Master) (r : Resp) (a : Nat) (f : Fld) :
    get (noteGrant (answer u m r) a m) f = get u f :=
  get_answer u m r f

theorem regsSame_answered {s u : State} {l : List Fld} (h : regsSame s u l) (m : Master) (r : Resp) (a : Nat) :
    regsSame s (noteGrant (answer u m r) a m) l :=
  fun g hg => (get_answered _ _ _ _ _).trans (h g hg)

/-! Edges at PPS_IN. -/

section
variable {s : State} {rising : Bool} (haloft : aloft s = true) (hen : cur s Reg.ppsCfgPpsInEn ≠ 0)
  (hedge : cur s Reg.ppsCfgPpsInEdge = 0 ↔ rising = true) (hsearch : flag s Reg.tbStatusPpsInValid = false)
include haloft hen hedge hsearch

theorem ppsInEdge_first (hcand : s.time.ppsCand = none) :
    ppsInEdge s rising = { s with time.ppsCand := some s.time.now } := by
  simp [ppsInEdge, haloft, hen, hedge, hsearch, hcand]

theorem ppsInEdge_outside {c : Nat} (hcand : s.time.ppsCand = some c) (hout : ppsInWindow c s.time.now = false) :
    ppsInEdge s rising = { s with time.ppsCand := some s.time.now } := by
  simp [ppsInEdge, haloft, hen, hedge, hsearch, hcand, hout]

theorem ppsInEdge_inside {c : Nat} (hcand : s.time.ppsCand = some c) (hin : ppsInWindow c s.time.now = true) :
    ppsInEdge s rising = noteTb s (ppsValidEdge (putFlag s Reg.tbStatusPpsInValid true)) := by
  simp [ppsInEdge, haloft, hen, hedge, hsearch, hcand, hin]

end

/-- The registers that show a valid edge. -/
def showEdge (s : State) : State :=
  put (put (put s Reg.ppsInNs ((gtNow s).toNat % 1000000000)) Reg.ppsInSecLo ((gtNow s).toNat / 1000000000))
    Reg.ppsInSecHi ((gtNow s).toNat / 1000000000 / 2 ^ 32)

/-- A valid edge disciplines no time of which Karlasin is not grandmaster. -/
theorem ppsValidEdge_slave {s : State} (hgm : flag s Reg.tbStatusGtGm = false) :
    ppsValidEdge s = { showEdge s with time.ppsLast := some s.time.now, time.ppsCand := none } := by
  have hgm' : flag { showEdge s with time.ppsLast := some s.time.now, time.ppsCand := none } Reg.tbStatusGtGm = false := by
    rw [← hgm]
    show (get (showEdge s) Reg.tbStatusGtGm != 0) = _
    simp (disch := decide) only [showEdge, get_put_ne]
    rfl
  exact if_neg (hgm' ▸ Bool.false_ne_true)

theorem get_showEdge_ns (s : State) : get (showEdge s) Reg.ppsInNs = (gtNow s).toNat % 1000000000 := by
  simp (disch := decide) only [showEdge, get_put_ne, get_put_same]
  exact Nat.mod_eq_of_lt ((Nat.mod_lt _ (by decide)).trans (by decide))

theorem get_showEdge_valid (s : State) : get (showEdge s) Reg.tbStatusPpsInValid = get s Reg.tbStatusPpsInValid := by
  simp (disch := decide) only [showEdge, get_put_ne]

/-- The state that a pair of edges leaves, before its event. -/
def ppsValid (s : State) : State :=
  { showEdge (putFlag s Reg.tbStatusPpsInValid true) with time.ppsLast := some s.time.now, time.ppsCand := none }

theorem get_ppsValid (s : State) : get (noteTb s (ppsValid s)) Reg.tbStatusPpsInValid = 1 ∧
    get (noteTb s (ppsValid s)) Reg.ppsInNs = (gtNow s).toNat % 1000000000 := by
  have hget (f : Fld) : get (ppsValid s) f = get (showEdge (putFlag s Reg.tbStatusPpsInValid true)) f := get_congr _ _ _ rfl
  rw [get_noteTb_ne _ _ _ (by decide), get_noteTb_ne _ _ _ (by decide), hget, hget]
  refine ⟨?_, get_showEdge_ns _⟩
  rw [get_showEdge_valid, get_putFlag_same]
  rfl

/-- PPS_IN that has been lost (R37). -/
def ppsLost (s : State) : State :=
  { putFlag s Reg.tbStatusPpsInValid false with time.ppsCand := none, time.ppsLast := none }

theorem ppsInMissing_late {s : State} {l : Nat} (hlast : s.time.ppsLast = some l)
    (hvalid : flag s Reg.tbStatusPpsInValid = true) (hlate : l + 2000100000 < s.time.now) :
    ppsInMissing s = noteTb s (ppsLost s) := by
  simp only [ppsInMissing, hlast, hvalid, hlate, and_self, if_true]
  rfl

theorem ppsLost_regsSame (s : State) : regsSame s (noteTb s (ppsLost s)) (Reg.tbStatusPpsInValid :: raiseFields 18) := by
  refine regsSame.noteTb ?_ s fun f hf => List.mem_cons_of_mem _ hf
  exact ((regsSame.refl s _).putFlag List.mem_cons_self false).congr rfl

theorem get_ppsLost (s : State) : get (noteTb s (ppsLost s)) Reg.tbStatusPpsInValid = 0 := by
  rw [get_noteTb_ne _ _ _ (by decide)]
  exact get_putFlag_same s Reg.tbStatusPpsInValid false

/-! Snapshots. -/

theorem regsSame.snapDom {s t : State} {l : List Fld} {ns lo hi lk : Fld} (h : regsSame s t l)
    (hl : ∀ f ∈ [ns, lo, hi, lk], f ∈ l) (g : Int) (locked : Bool) : regsSame s (snapDom t ns lo hi lk g locked) l := by
  have hns := hl ns (by simp)
  have hlo := hl lo (by simp)
  have hhi := hl hi (by simp)
  have hlk := hl lk (by simp)
  exact (((h.put hns _).put hlo _).put hhi _).putFlag hlk _

/-- The fields of the snapshot (R32). -/
def snapFlds : List Fld :=
  [Reg.snapWcNsNs, Reg.snapWcSecLo, Reg.snapWcSecHi, Reg.snapWcNsLocked, Reg.snapGtNsNs, Reg.snapGtSecLo, Reg.snapGtSecHi,
    Reg.snapGtNsLocked, Reg.snapTempo, Reg.snapLocal]

theorem timeSnapshot_regsSame (s : State) : regsSame s (timeSnapshot s) snapFlds := by
  have hwc : regsSame s _ snapFlds := (regsSame.refl s snapFlds).snapDom (ns := Reg.snapWcNsNs) (lo := Reg.snapWcSecLo)
    (hi := Reg.snapWcSecHi) (lk := Reg.snapWcNsLocked) (by decide) (wcNow s) (flag s Reg.tbStatusWcLocked)
  have hgt := hwc.snapDom (ns := Reg.snapGtNsNs) (lo := Reg.snapGtSecLo)
    (hi := Reg.snapGtSecHi) (lk := Reg.snapGtNsLocked) (by decide) (gtNow s) (flag s Reg.tbStatusGtLocked)
  exact (hgt.put (by decide) _).put (by decide) _

theorem timeSnapshot_answered_frame (s : State) (m : Master) (r : Resp) (a : Nat) :
    noteGrant (answer (timeSnapshot s) m r) a m = { s with
      regs := (noteGrant (answer (timeSnapshot s) m r) a m).regs
      cpu := (noteGrant (answer (timeSnapshot s) m r) a m).cpu
      io := (noteGrant (answer (timeSnapshot s) m r) a m).io } := by
  apply State.eq_of_parts <;> simp [timeSnapshot, snapDom]

theorem ns_mod_width (n : Nat) : n % 1000000000 % 2 ^ 30 = n % 1000000000 :=
  Nat.mod_eq_of_lt ((Nat.mod_lt _ (by decide)).trans (by decide))

/-- What a snapshot shows of the working clock. -/
theorem get_timeSnapshot_wc (s : State) :
    get (timeSnapshot s) Reg.snapWcNsNs = (wcNow s).toNat % 1000000000 ∧
    get (timeSnapshot s) Reg.snapWcSecLo = (wcNow s).toNat / 1000000000 % 2 ^ 32 := by
  simp (disch := decide) only [timeSnapshot, snapDom, get_putFlag_ne, get_put_ne, get_put_same]
  exact ⟨ns_mod_width _, rfl⟩

/-- What a snapshot shows of global time. -/
theorem get_timeSnapshot_gt (s : State) :
    get (timeSnapshot s) Reg.snapGtNsNs = (gtNow s).toNat % 1000000000 ∧
    get (timeSnapshot s) Reg.snapGtSecLo = (gtNow s).toNat / 1000000000 % 2 ^ 32 := by
  simp (disch := decide) only [timeSnapshot, snapDom, get_putFlag_ne, get_put_ne, get_put_same]
  exact ⟨ns_mod_width _, rfl⟩

/-- What a snapshot shows of the local clock and the tempo. -/
theorem get_timeSnapshot_local (s : State) : get (timeSnapshot s) Reg.snapLocal = s.time.now % 2 ^ 64 ∧
    get (timeSnapshot s) Reg.snapTempo = tempoNo s % 2 ^ 32 := by
  simp (disch := decide) only [timeSnapshot, get_put_ne, get_put_same]
  exact ⟨rfl, rfl⟩

/-! Setting of global time. -/

/-- A setting that waits for its second. -/
def gtArmed (s : State) : State := { putFlag s Reg.tbStatusGtSetPend true with time.gtSetAt := s.time.now }

theorem gtSetArm_free {s : State} (hgm : flag s Reg.tbStatusGtGm = true) (hfree : flag s Reg.tbStatusGtSetPend = false) :
    gtSetArm s = noteTb s (gtArmed s) := by
  simp only [gtSetArm, hgm, hfree, Bool.not_false, and_self, if_true]
  rfl

theorem gtSetArm_ignored {s : State} (h : flag s Reg.tbStatusGtGm = false ∨ flag s Reg.tbStatusGtSetPend = true) :
    gtSetArm s = s := by
  unfold gtSetArm
  rcases h with h | h <;> simp [h]

theorem get_gtArmed (s : State) : get (noteTb s (gtArmed s)) Reg.tbStatusGtSetPend = 1 := by
  rw [get_noteTb_ne _ _ _ (by decide)]
  exact get_putFlag_same s Reg.tbStatusGtSetPend true

theorem gtArmed_regsSame (s : State) : regsSame s (noteTb s (gtArmed s)) (Reg.tbStatusGtSetPend :: raiseFields 18) := by
  refine regsSame.noteTb ?_ s fun f hf => List.mem_cons_of_mem _ hf
  exact ((regsSame.refl s _).putFlag List.mem_cons_self true).congr rfl

/-- An entry asked for is queued, or counted as lost where no budget holds it (R48, R266). -/
theorem asked_journal (s : State) (type : Nat) (body : List Byte) : asked s (journal s type body) 1 := by
  unfold journal requestGc requestOn
  split
  · exact ⟨by simp only [jobRejected, sheetLose, bump_jobs]; omega, rfl, ⟨[], List.append_nil _⟩, rfl, rfl⟩
  · refine ⟨?_, rfl, ⟨_, rfl⟩, ?_, rfl⟩
    · simp only [enqueueJob, enqueueOn]
      omega
    · simp only [enqueueJob, enqueueOn, List.length_append, List.length_singleton]
      omega

theorem asked.congr {s s' t t' : State} {n : Nat} (h : asked s t n) (hsj : s'.jobs = s.jobs) (hss : s'.sheet = s.sheet)
    (htj : t'.jobs = t.jobs) (hts : t'.sheet = t.sheet) : asked s' t' n := by
  unfold asked
  rwa [hsj, hss, htj, hts]

/-- Global time at a new anchor, before the step is journaled. -/
def gtStepped (s : State) (step rate : Int) : State :=
  setDom s .gt { domOf s .gt with anchorLocal := s.time.now, anchorTime := domNow s .gt + step, rate := rate, slew := 0 }

/-- A setting is always journaled (R36). -/
theorem stepDom_gt_set (s : State) (step rate : Int) :
    ∃ body, stepDom s .gt step rate 3 = journal (gtStepped s step rate) 0x0040 body := ⟨_, if_pos (.inr rfl)⟩

/-- The time an armed setting loads at a whole local second (R36). -/
def gtTarget (s : State) : Nat :=
  (get s Reg.gtSetSecLo + get s Reg.gtSetSecHi * 2 ^ 32) * 1000000000 + s.time.now % 1000000000

/-- Global time set, and no setting waiting any more. -/
def gtLoaded (s : State) : State :=
  putFlag (stepDom s .gt (gtTarget s - gtNow s) s.time.gt.rate 3) Reg.tbStatusGtSetPend false

theorem gtSetLoad_due {s : State} (haloft : aloft s = true) (hpend : flag s Reg.tbStatusGtSetPend = true)
    (hpps : flag s Reg.tbStatusPpsInValid = false) (hdue : gtSetDue s = true) :
    gtSetLoad s = noteTb s (gtLoaded s) := by
  have hns : s.time.now - s.time.now / 1000000000 * 1000000000 = s.time.now % 1000000000 := by omega
  simp only [gtSetLoad, haloft, hpend, hpps, hdue, and_self, if_true, Bool.false_eq_true, if_false, hns]
  rfl

theorem gtLoaded_asked (s : State) : asked s (noteTb s (gtLoaded s)) 1 := by
  obtain ⟨body, hbody⟩ := stepDom_gt_set s (gtTarget s - gtNow s) s.time.gt.rate
  have hasked := asked_journal (gtStepped s (gtTarget s - gtNow s) s.time.gt.rate) 0x0040 body
  refine hasked.congr rfl rfl ?_ ?_
  · rw [noteTb_jobs, gtLoaded, putFlag_jobs, hbody]
  · rw [noteTb_sheet, gtLoaded, putFlag_sheet, hbody]

theorem gtLoaded_regsSame (s : State) : regsSame s (noteTb s (gtLoaded s))
    ([Reg.tbStatusGtSetPend, Reg.sbStatsLost] ++ raiseFields 18) := by
  refine regsSame.noteTb ?_ s fun f hf => List.mem_append_right _ hf
  refine regsSame.putFlag ?_ (by simp) _
  intro g hg
  exact get_logStep_ne _ _ _ _ (keys_of_all hg (by simp))

theorem get_gtLoaded (s : State) : get (noteTb s (gtLoaded s)) Reg.tbStatusGtSetPend = 0 := by
  rw [get_noteTb_ne _ _ _ (by decide)]
  exact get_putFlag_same _ Reg.tbStatusGtSetPend false

theorem gtNow_gtLoaded (s : State) : gtNow (noteTb s (gtLoaded s)) = gtTarget s := by
  have htime : (noteTb s (gtLoaded s)).time = (stepDom s .gt (gtTarget s - gtNow s) s.time.gt.rate 3).time :=
    noteTb_time _ _
  have hgt : (noteTb s (gtLoaded s)).time.gt = _ := (domOf_of_time htime .gt).trans (domOf_stepDom _ _ _ _ _)
  have hnow : (noteTb s (gtLoaded s)).time.now = s.time.now := (congrArg TimeSt.now htime).trans (stepDom_gt_now _ _ _ _)
  have hbefore : domNow s .gt = gtNow s := rfl
  rw [gtNow_of_now hnow, gtAt_anchor (by rw [hgt]), hgt]
  simp [clampInt_none, hbefore]

/-! PPS_OUT. -/

theorem ppsOutRise_due {s : State} (hmay : ppsOutMay s = true) (hlow : s.time.ppsOutHigh = false)
    (hnear : (toSecond (domNow s (ppsOutDomain s))).natAbs ≤ 8) : (ppsOutRise s).time.ppsOutHigh = true ∧
    ppsOutRise s = { s with time := (ppsOutRise s).time } := by
  have hrise : ppsOutMay s ∧ !s.time.ppsOutHigh ∧ (toSecond (domNow s (ppsOutDomain s))).natAbs ≤ 8 :=
    ⟨hmay, by simp [hlow], hnear⟩
  unfold ppsOutRise
  rw [if_pos hrise]
  exact ⟨rfl, rfl⟩

/-- PPS_OUT falls where it no longer may be high, or its pulse has ended. -/
theorem ppsOutFall_ends {s : State} (hhigh : s.time.ppsOutHigh = true)
    (hend : ppsOutMay s = false ∨ (s.time.ppsOutUntil.all fun u => decide (u ≤ s.time.now)) = true) :
    ppsOutFall s = { s with time.ppsOutHigh := false, time.ppsOutUntil := none } := by
  unfold ppsOutFall
  rw [if_pos ⟨hhigh, hend.imp (by simp [·]) id⟩]

/-- Settles O10, clause by clause: the edges of PPS_IN, PPS_OUT, TIME_SNAP and GT_SET. -/
theorem ppsAndTimeSetting : Obligations.PpsAndTimeSetting := by
  unfold Obligations.PpsAndTimeSetting
  refine ⟨fun s rising haloft hen hedge hsearch hcand => ?_, fun s rising c haloft hen hedge hsearch hcand hout => ?_,
    fun s rising c haloft hen hedge hsearch hcand hin hgm => ?_, fun s l hlast hvalid hlate => ?_,
    fun s hmay hlow hnear => ?_, fun s hhigh hmay => ?_, fun s u hhigh huntil hpast => ?_, fun s m hacc => ?_,
    fun s m hacc hgm hfree => ?_, fun s m hacc hbusy => ?_, fun s haloft hpend hpps hdue => ?_⟩
  case refine_1 => exact congrArg Host.Outcome.next (ppsInEdge_first haloft hen hedge hsearch hcand)
  case refine_2 => exact congrArg Host.Outcome.next (ppsInEdge_outside haloft hen hedge hsearch hcand hout)
  case refine_3 =>
    have hedgeIn : ppsInEdge s rising = noteTb s (ppsValid s) := by
      rw [ppsInEdge_inside haloft hen hedge hsearch hcand hin, ppsValidEdge_slave]
      · rfl
      · rw [← hgm, flag, get_putFlag_ne _ _ _ _ (by decide)]
        rfl
    obtain ⟨hvalid, hns⟩ := get_ppsValid s
    refine ⟨_, congrArg Host.Outcome.next hedgeIn, hvalid, ?_, hns, ?_⟩
    · rw [noteTb_time]
      rfl
    · refine (noteTb_frame _ _).trans ?_
      rw [noteTb_time]
      rfl
  case refine_4 =>
    refine ⟨_, congrArg Host.Outcome.next (ppsInMissing_late hlast hvalid hlate), get_ppsLost s, ?_, ?_,
      ppsLost_regsSame s⟩
    · rw [noteTb_time]
      rfl
    · rw [noteTb_time]
      rfl
  case refine_5 => exact ⟨_, rfl, ppsOutRise_due hmay hlow hnear⟩
  case refine_6 => exact congrArg Host.Outcome.next (ppsOutFall_ends hhigh (.inl hmay))
  case refine_7 => exact congrArg Host.Outcome.next (ppsOutFall_ends hhigh (.inr (by simp [huntil, hpast])))
  case refine_8 =>
    obtain ⟨hwcNs, hwcSec⟩ := get_timeSnapshot_wc s
    obtain ⟨hgtNs, hgtSec⟩ := get_timeSnapshot_gt s
    obtain ⟨hlocal, htempo⟩ := get_timeSnapshot_local s
    refine ⟨_, congrArg Host.Outcome.next (accessWrite_accepted s m 0x20000 timeSnapshot hacc), ?_⟩
    simp only [get_answered]
    exact ⟨hlocal, htempo, hwcNs, hwcSec, hgtNs, hgtSec, regsSame_answered (timeSnapshot_regsSame s) _ _ _,
      timeSnapshot_answered_frame s _ _ _⟩
  case refine_9 =>
    refine ⟨_, congrArg Host.Outcome.next (accessWrite_accepted s m 0x20000 gtSetArm hacc), ?_⟩
    rw [gtSetArm_free hgm hfree, get_answered]
    refine ⟨get_gtArmed s, ?_, regsSame_answered (gtArmed_regsSame s) _ _ _⟩
    simp [gtArmed]
  case refine_10 =>
    refine ⟨_, congrArg Host.Outcome.next (accessWrite_accepted s m 0x20000 gtSetArm hacc), ?_⟩
    rw [gtSetArm_ignored hbusy]
    exact answered_frame _ _ _ _
  case refine_11 =>
    exact ⟨_, congrArg Host.Outcome.next (gtSetLoad_due haloft hpend hpps hdue), get_gtLoaded s, gtNow_gtLoaded s,
      gtLoaded_asked s, gtLoaded_regsSame s⟩

end Sys2Proof.Machine
end

section
/-!
A completed seal (R47, R267). A BREAK of reason 2 has the numbers resume above the newest anchor (R269), also where the
head stands beyond it already: its entry then takes the head back, and the statement asks of every seal that it moves on.
-/
namespace Sys2Proof.Machine

/-! What leaves the scoresheet's head where it is. -/

@[simp] theorem foldl_put_sheet (fs : Nat → Fld) (vs : Nat → Nat) (l : List Nat) (s : State) :
    (l.foldl (fun st i => put st (fs i) (vs i)) s).sheet = s.sheet := by
  induction l generalizing s with
  | nil => rfl
  | cons i l ih => exact ih _

@[simp] theorem refreshSheet_sheet (s : State) : (refreshSheet s).sheet = s.sheet := by
  refine (apply_ite State.sheet _ _ _).trans ?_
  simp only [forIdx, raiseSource_sheet, put_sheet, putFlag_sheet, foldl_put_sheet, ite_self]

@[simp] theorem commitSealed_sheet (s : State) (type : Nat) (body : List Byte) :
    (commitSealed s type body).sheet = s.sheet := by
  unfold commitSealed
  split <;> rfl

/-! The head after an append. -/

/-- An entry that does not fill the sheet takes the next number. -/
theorem sheetWrite_nextSeq {s : State} (hroom : s.sheet.next + 1 < s.sheet.oldest + 131072) (type : Nat)
    (body : List Byte) : (sheetWrite s type body).sheet.nextSeq = s.sheet.nextSeq + 1 := by
  have hfill : ¬ s.sheet.oldest + 131072 ≤ s.sheet.next + 1 := by omega
  unfold sheetWrite
  dsimp only
  split <;> simp [hfill]

/-- Where the newest number is no anchor's, none is added (R268). -/
theorem sheetAnchor_of_between {s : State} (h : (s.sheet.nextSeq - 1) % 2 ^ 20 ≠ 0) : sheetAnchor s = s := by
  simp only [sheetAnchor, h, false_and, and_false, if_false]

/-- A BREAK of reason 2 resumes above the newest anchor (R269). -/
theorem resumeAtAnchor_break {s : State} {a : Nat × List Byte} (hanchor : s.otp.anchors.getLast? = some a)
    {body : List Byte} (hreason : u8 body 8 = 2) :
    resumeAtAnchor s 0x0072 body = { s with sheet.nextSeq := a.1 + 1, sheet.headHash := a.2 } := by
  simp [resumeAtAnchor, hreason, hanchor]

/-- The number that follows the entry of a BREAK of reason 2. -/
theorem sheetAppend_break_nextSeq {s : State} {a : Nat × List Byte} (hwritable : sheetWritable s = true)
    (hstarted : s.sheet.nextSeq ≠ 0) (hroom : s.sheet.next + 1 < s.sheet.oldest + 131072)
    (hanchor : s.otp.anchors.getLast? = some a) (hbetween : (a.1 + 1) % 2 ^ 20 ≠ 0) {body : List Byte}
    (hreason : u8 body 8 = 2) : (sheetAppend s 0x0072 body).sheet.nextSeq = a.1 + 2 := by
  have hwrite : (sheetWrite (resumeAtAnchor s 0x0072 body) 0x0072 body).sheet.nextSeq = a.1 + 2 := by
    rw [resumeAtAnchor_break hanchor hreason]
    exact sheetWrite_nextSeq (s := { s with sheet.nextSeq := a.1 + 1, sheet.headHash := a.2 }) hroom _ _
  have hkeep := sheetAnchor_of_between (s := sheetWrite (resumeAtAnchor s 0x0072 body) 0x0072 body)
    (by rw [hwrite]; exact hbetween)
  simp [sheetAppend, hwritable, hstarted, hkeep, hwrite]

/-! The state. -/

/-- The body of a BREAK of reason 2. -/
def breakBody : List Byte := zeros 8 ++ [2]

/-- The seal of that BREAK, as the safety pair runs it. -/
def breakJob : Job := ⟨0, .sbSeal 0x0072 breakBody, 0, 0, 0, none⟩

/-- A device aloft whose key of the scoresheet is there, with an anchor at SEQ 2^20, two entries after it and the BREAK's
seal on the safety pair. -/
def headBeyondAnchor : State :=
  { State.reset with
    boot.phase := .aloft, jobs.running := [(0, breakJob)], otp.anchors := [(2 ^ 20, [])], sheet.nextSeq := 2 ^ 20 + 3
    vault.slots := [(3, ⟨1, [], [], 0, 0, 0, true, 0, false, 0, 0, 0⟩)] }

/-- The seal's completion takes the head from 2^20 + 3 back to 2^20 + 2. -/
theorem jobComplete_headBeyondAnchor_nextSeq :
    (jobComplete headBeyondAnchor 0).sheet.nextSeq = 2 ^ 20 + 2 := by
  have hcomplete : jobComplete headBeyondAnchor 0 =
      commitSealed (sheetAppend { chargeJob headBeyondAnchor 0 breakJob with
        jobs.running := [], jobs.startedAt := [] } 0x0072 breakBody) 0x0072 breakBody := rfl
  rw [hcomplete, commitSealed_sheet]
  exact sheetAppend_break_nextSeq (a := (2 ^ 20, [])) rfl (by decide) (by decide) rfl (by decide) rfl

/-- Refutes O55: a completed seal need not move the scoresheet's head on. A BREAK of reason 2 on a head beyond the newest
anchor takes it back. -/
theorem not_jobsFitTheWorkBudget : ¬ Obligations.JobsFitTheWorkBudget := by
  unfold Obligations.JobsFitTheWorkBudget
  intro h
  obtain ⟨-, -, -, -, -, -, hseal, -⟩ := h
  obtain ⟨t, ht, -, hhead⟩ := hseal headBeyondAnchor 0 breakJob 0x0072 breakBody rfl rfl rfl rfl rfl rfl (by decide)
  obtain rfl : jobComplete headBeyondAnchor 0 = t := Host.Outcome.next.inj ht
  rw [jobComplete_headBeyondAnchor_nextSeq] at hhead
  exact absurd hhead (by decide)

end Sys2Proof.Machine
end

section
/-!
Tempo boundaries (R39 to R44). Everything a boundary does beside cutting the tempo leaves its course alone: where the
device stands, what waits for a boundary, and the instants of the tempo in progress.
-/
namespace Sys2Proof.Machine

/-! The course of the tempo. -/

/-- Where the device stands and what waits for a boundary, the life cycle, and the instants of the tempo in progress. -/
structure Course where
  phase : Phase
  lcPend : Option (Nat × Master)
  recoverDue : Bool
  lc : Nat
  now : Nat
  start : Nat
  mark : Int
  realign : Bool

def courseOf (s : State) : Course :=
  ⟨s.boot.phase, s.boot.lcPend, s.img.recoverDue, s.otp.lc, s.time.now, s.time.tempoLocal, s.time.tempoMark,
    s.time.realign⟩

section
variable {s : State} {c : Course} (h : courseOf s = c)
include h

theorem phase_of_course : s.boot.phase = c.phase := by rw [← h]; rfl

theorem lcPend_of_course : s.boot.lcPend = c.lcPend := by rw [← h]; rfl

theorem recoverDue_of_course : s.img.recoverDue = c.recoverDue := by rw [← h]; rfl

theorem lc_of_course : s.otp.lc = c.lc := by rw [← h]; rfl

theorem now_of_course : s.time.now = c.now := by rw [← h]; rfl

theorem start_of_course : s.time.tempoLocal = c.start := by rw [← h]; rfl

theorem mark_of_course : s.time.tempoMark = c.mark := by rw [← h]; rfl

theorem realign_of_course : s.time.realign = c.realign := by rw [← h]; rfl

end

/-- The parts that hold the course. -/
def courseParts : List Part := [.time, .boot, .img, .fuses]

theorem changesOnly.boot_eq {l : List Part} {s t : State} (h : changesOnly l s t) (hl : Part.boot ∉ l) :
    t.boot = s.boot := by
  obtain ⟨-, -, -, -, -, -, -, -, -, -, -, -, -, -, hboot, -⟩ := h
  exact hboot.resolve_left hl

theorem changesOnly.img_eq {l : List Part} {s t : State} (h : changesOnly l s t) (hl : Part.img ∉ l) : t.img = s.img := by
  obtain ⟨-, -, -, -, -, -, -, -, -, -, -, -, -, -, -, himg, -⟩ := h
  exact himg.resolve_left hl

theorem changesOnly.lc_eq {l : List Part} {s t : State} (h : changesOnly l s t) (hl : Part.fuses ∉ l) :
    t.otp.lc = s.otp.lc := by
  obtain ⟨-, -, -, -, -, -, -, -, -, -, -, -, -, -, -, -, -, hfuses, -⟩ := h
  have hlc : (fusesOf t.otp).lc = (fusesOf s.otp).lc := congrArg OtpSt.lc (hfuses.resolve_left hl)
  exact hlc

/-- What keeps every list of parts without those of the course keeps the course. -/
theorem courseOf_of_kept {s t : State} (h : ∀ M : List Part, [Has M .registers] → [Has M .accum] → [Has M .jobs] →
    [Has M .policy] → [Has M .epochs] → [Has M .faults] → [Has M .intc] → [Has M .host] → [Has M .cpu] → [Has M .banks] →
    [Has M .flash] → [Has M .cont] → [Has M .vault] → [Has M .anchors] → [Has M .sheet] → [Has M .sheetLog] →
    [Has M .frames] → [Has M .tables] → [Has M .links] → [Has M .tm] → [Has M .edge] → [Has M .wake] → [Has M .cnt] →
    [Has M .io] → [Has M .draws] → kept M t = kept M s) : courseOf t = courseOf s := by
  have hkept : kept (allBut courseParts) t = kept (allBut courseParts) s := by
    refine @h _ ?_ ?_ ?_ ?_ ?_ ?_ ?_ ?_ ?_ ?_ ?_ ?_ ?_ ?_ ?_ ?_ ?_ ?_ ?_ ?_ ?_ ?_ ?_ ?_ ?_ <;> exact has_of rfl
  have hchanges := changesOnly_of_kept hkept
  unfold courseOf
  rw [hchanges.boot_eq (by decide), hchanges.img_eq (by decide), hchanges.lc_eq (by decide), hchanges.time_eq (by decide)]

/-- A state with other parts changed, or with other fields of the course's parts. -/
theorem courseOf_mk (s : State) (regs : SMap Nat) (accum : SMap Nat) (time : TimeSt) (jobs : JobSt) (env : EnvSt)
    (fault : FaultSt) (intc : IntSt) (host : HostSt) (cpu : CpuSt) (mem : MemSt) (cont : ContSt) (boot : BootSt)
    (img : ImgSt) (vault : VaultSt) (otp : OtpSt) (sheet : SheetSt) (net : NetSt) (tm : TmSt) (edge : EdgeSt)
    (wake : WakeSt) (cnt : CntSt) (io : IoSt) (freeCtr : Nat)
    (htime : time.now = s.time.now ∧ time.tempoLocal = s.time.tempoLocal ∧ time.tempoMark = s.time.tempoMark ∧
      time.realign = s.time.realign)
    (hboot : boot.phase = s.boot.phase ∧ boot.lcPend = s.boot.lcPend) (himg : img.recoverDue = s.img.recoverDue)
    (hlc : otp.lc = s.otp.lc) : courseOf ⟨s.pending, regs, accum, time, jobs, env, fault, intc, host, cpu, mem, cont, boot,
      img, vault, otp, sheet, net, tm, edge, wake, cnt, io, freeCtr⟩ = courseOf s := by
  obtain ⟨hnow, hstart, hmark, hrealign⟩ := htime
  obtain ⟨hphase, hpend⟩ := hboot
  simp only [courseOf, hnow, hstart, hmark, hrealign, hphase, hpend, himg, hlc]

theorem courseOf_ite (c : Prop) [Decidable c] (a b : State) :
    courseOf (if c then a else b) = if c then courseOf a else courseOf b := apply_ite courseOf _ _ _

theorem courseOf_foldl {α : Type} (g : State → α → State) (h : ∀ s x, courseOf (g s x) = courseOf s) (l : List α)
    (s : State) : courseOf (l.foldl g s) = courseOf s := by
  induction l generalizing s with
  | nil => rfl
  | cons x l ih => exact (ih _).trans (h s x)

/-! Registers, counters and jobs. -/

theorem courseOf_put (s : State) (f : Fld) (v : Nat) : courseOf (put s f v) = courseOf s := rfl

theorem courseOf_putFlag (s : State) (f : Fld) (b : Bool) : courseOf (putFlag s f b) = courseOf s := rfl

theorem courseOf_bump (s : State) (f : Fld) : courseOf (bump s f) = courseOf s := rfl

theorem courseOf_putCmt (s : State) (i : Nat) (f : Fld) (v : Nat) : courseOf (putCmt s i f v) = courseOf s := rfl

theorem courseOf_setSlotState (s : State) (i v : Nat) : courseOf (setSlotState s i v) = courseOf s := rfl

theorem courseOf_raiseTo (s : State) (f : Fld) (v : Nat) : courseOf (raiseTo s f v) = courseOf s :=
  courseOf_of_kept fun _ => kept_raiseTo _ _ _

theorem courseOf_noteTb (s u : State) : courseOf (noteTb s u) = courseOf u := courseOf_of_kept fun _ => kept_noteTb _ _

theorem courseOf_journal (s : State) (type : Nat) (body : List Byte) : courseOf (journal s type body) = courseOf s :=
  courseOf_of_kept fun _ => kept_journal _ _ _

theorem courseOf_enqueueOn (s : State) (core : Nat) (kind : JobKind) (cost : Nat) :
    courseOf (enqueueOn s core kind cost) = courseOf s := rfl

theorem courseOf_moveJobs (s : State) (f : Nat → Nat) : courseOf (moveJobs s f) = courseOf s := rfl

/-! Commits. -/

theorem courseOf_reroute (s : State) (a b : Nat) : courseOf (reroute s a b) = courseOf s :=
  courseOf_of_kept fun _ => kept_reroute _ _ _

theorem courseOf_setSlotPolicy (s : State) (slot : Nat) (l : SMap (List Byte)) :
    courseOf (setSlotPolicy s slot l) = courseOf s := courseOf_of_kept fun _ => kept_setSlotPolicy _ _ _

theorem courseOf_refreshStorage (s : State) : courseOf (refreshStorage s) = courseOf s :=
  courseOf_of_kept fun _ => kept_refreshStorage _

theorem courseOf_commitPrepare (s : State) (slot : Nat) : courseOf (commitPrepare s slot) = courseOf s :=
  courseOf_of_kept fun _ => kept_commitPrepare _ _

theorem courseOf_handoverPrepare (s : State) (slot : Nat) : courseOf (handoverPrepare s slot) = courseOf s := by
  unfold handoverPrepare
  dsimp only
  (repeat' split) <;> simp only [courseOf_mk, and_self, courseOf_enqueueOn, courseOf_put, courseOf_setSlotState,
    courseOf_setSlotPolicy, courseOf_reroute, courseOf_refreshStorage, courseOf_putCmt, courseOf_foldl, courseOf_ite,
    ite_self, implies_true]

theorem courseOf_dropSlot (s : State) (slot : Nat) : courseOf (dropSlot s slot) = courseOf s :=
  courseOf_of_kept fun _ => kept_dropSlot _ _

theorem courseOf_commitResult (s : State) (r : Nat) : courseOf (commitResult s r) = courseOf s :=
  courseOf_of_kept fun _ => kept_commitResult _ _

theorem courseOf_commitIdle (s : State) : courseOf (commitIdle s) = courseOf s :=
  courseOf_of_kept fun _ => kept_commitIdle _

theorem courseOf_commitFail (s : State) (result item detail : Nat) :
    courseOf (commitFail s result item detail) = courseOf s := by
  simp only [commitFail, courseOf_ite, courseOf_mk, and_self, courseOf_commitResult, courseOf_bump, courseOf_commitIdle,
    courseOf_put, courseOf_dropSlot, courseOf_raiseTo, ite_self]

theorem courseOf_commitBegin (s : State) (slot : Nat) : courseOf (commitBegin s slot) = courseOf s := by
  simp only [commitBegin, courseOf_ite, courseOf_commitFail, courseOf_handoverPrepare, courseOf_commitPrepare, ite_self]

/-! Castling. -/

theorem courseOf_castIdle (s : State) (r : Nat) : courseOf (castIdle s r) = courseOf s := rfl

theorem courseOf_castlingEntry (s : State) (old : Bool) (r : Nat) : courseOf (castlingEntry s old r) = courseOf s :=
  courseOf_journal _ _ _

theorem courseOf_stopPartners (s : State) : courseOf (stopPartners s) = courseOf s := rfl

theorem courseOf_dropDigest (s : State) : courseOf (dropDigest s) = courseOf s := courseOf_of_kept fun _ => kept_dropDigest _

theorem courseOf_abandon (s : State) (r : Nat) : courseOf (abandon s r) = courseOf s := by
  simp only [abandon, courseOf_castlingEntry, courseOf_bump, courseOf_mk, and_self, courseOf_castIdle, courseOf_ite,
    courseOf_commitFail, courseOf_stopPartners, courseOf_dropDigest, ite_self]

theorem courseOf_writeCarried (s : State) : courseOf (writeCarried s) = courseOf s := by
  simp only [writeCarried, courseOf_ite, courseOf_mk, and_self, ite_self]

theorem courseOf_castBefore (s : State) : courseOf (castBefore s) = courseOf s := by
  unfold castBefore
  split
  · rfl
  · split
    · exact courseOf_abandon _ _
    · simp only [courseOf_ite, courseOf_abandon, courseOf_writeCarried, ite_self]

theorem courseOf_castLoad (s : State) : courseOf (castLoad s) = courseOf s := courseOf_of_kept fun _ => kept_castLoad _

theorem courseOf_castPrepare (s : State) : courseOf (castPrepare s) = courseOf s := by
  unfold castPrepare
  dsimp only
  split
  · exact courseOf_commitBegin _ _
  · rfl

theorem courseOf_programPrefer (s : State) (b : Bool) : courseOf (programPrefer s b) = courseOf s :=
  courseOf_of_kept fun _ => kept_programPrefer _ _

theorem courseOf_castFinish (s : State) : courseOf (castFinish s) = courseOf s := by
  simp only [castFinish, courseOf_castlingEntry, courseOf_bump, courseOf_castIdle, courseOf_programPrefer, courseOf_mk,
    and_self]

theorem courseOf_stopChan (n : Nat) (s : State) : courseOf (stopChan n s) = courseOf s :=
  courseOf_of_kept fun _ => kept_stopChan _ _

theorem courseOf_stopPort (p : Nat) (s : State) : courseOf (stopPort p s) = courseOf s :=
  courseOf_of_kept fun _ => kept_stopPort _ _

theorem courseOf_applyChan (n : Nat) (s : State) : courseOf (applyChan n s) = courseOf s :=
  courseOf_of_kept fun _ => kept_applyChan _ _

theorem courseOf_applyAdmin (p : Nat) (s : State) : courseOf (applyAdmin p s) = courseOf s :=
  courseOf_of_kept fun _ => kept_applyAdmin _ _

theorem courseOf_showNew (s : State) (l : Loaded) (slotB : Bool) :
    courseOf (checkCoefs (showEnvelope (showStructural s l.view) l slotB)) = courseOf s :=
  courseOf_of_kept (by intros; simp only [kept_checkCoefs, kept_showEnvelope, kept_showStructural])

theorem courseOf_castFlip (s : State) : courseOf (castFlip s) = courseOf s := by
  unfold castFlip
  dsimp only
  split
  · rfl
  · simp only [courseOf_put, courseOf_putFlag, courseOf_moveJobs, courseOf_foldl, courseOf_applyChan, courseOf_applyAdmin,
      courseOf_showNew, courseOf_mk, and_self, courseOf_stopChan, courseOf_stopPort, implies_true]

theorem courseOf_castAfter (s : State) : courseOf (castAfter s) = courseOf s := by
  unfold castAfter
  split <;> simp only [courseOf_ite, courseOf_castLoad, courseOf_castPrepare, courseOf_castFlip, courseOf_castFinish,
    ite_self]

/-! The commit at its T+0. -/

theorem courseOf_ppsSearch (s : State) : courseOf (ppsSearch s) = courseOf s := courseOf_noteTb _ _

theorem courseOf_commitSwitch (s : State) : courseOf (commitSwitch (tagAll s)) = courseOf s :=
  courseOf_of_kept (by intros; simp only [kept_commitSwitch, kept_tagAll])

theorem courseOf_commitKeys (s : State) (old new : Nat) : courseOf (commitKeys s old new) = courseOf s :=
  courseOf_of_kept fun _ => kept_commitKeys _ _ _

theorem courseOf_loadPns (s : State) (p : Nat → Bool) (was : Option Nat) : courseOf (loadPns s p was) = courseOf s :=
  courseOf_of_kept fun _ => kept_loadPns _ _ _

theorem courseOf_fvCommit (s : State) (old new : Nat) (p : Nat → Bool) : courseOf (fvCommit s old new p) = courseOf s :=
  courseOf_of_kept fun _ => kept_fvCommit _ _ _ _

theorem courseOf_commitPorts (s : State) (old : Nat) :
    courseOf (zeroChanged (loadRipcord (followAdmin (cutRevoked s))) old) = courseOf s :=
  courseOf_of_kept (by intros; simp only [kept_zeroChanged, kept_loadRipcord, kept_followAdmin, kept_cutRevoked])

theorem courseOf_commitGates (s was : State) (old : Nat) (mark : Int) : courseOf (moveSources (settleAll (remeter old
    (forIdx 50 (reshapePort old) (installChanged s old mark)))) was) = courseOf s :=
  courseOf_of_kept (by
    intros
    simp only [kept_moveSources, kept_settleAll, kept_remeter, kept_forIdx, kept_reshapePort, kept_installChanged,
      implies_true])

theorem courseOf_commitNow (s : State) : courseOf (commitNow s) = courseOf s := by
  simp only [commitNow, courseOf_commitGates, courseOf_ite, courseOf_ppsSearch, courseOf_commitPorts, courseOf_fvCommit,
    courseOf_loadPns, courseOf_mk, and_self, courseOf_commitKeys, courseOf_commitSwitch, ite_self]

/-! The boundary. -/

theorem courseOf_revokeDue (s : State) (at_ : Nat) : courseOf (revokeDue s at_) = courseOf s :=
  courseOf_of_kept fun _ => kept_revokeDue _ _

theorem courseOf_cutRevoked (s : State) : courseOf (cutRevoked s) = courseOf s := courseOf_of_kept fun _ => kept_cutRevoked _

theorem courseOf_refreshFaultN (s : State) : courseOf (refreshFaultN s) = courseOf s :=
  courseOf_of_kept fun _ => kept_refreshFaultN _

theorem courseOf_releaseDue (s : State) (n : Nat) : courseOf (releaseDue s n) = courseOf s :=
  courseOf_of_kept fun _ => kept_releaseDue _ _

theorem courseOf_sleepAgreement (s : State) : courseOf (sleepAgreement s) = courseOf s :=
  courseOf_of_kept fun _ => kept_sleepAgreement _

/-- The changes of R43 before the one of the life cycle. -/
def alignedBefore (s : State) : State :=
  let s1 := castBefore (cutRevoked (revokeDue s s.time.now))
  let s2 := if commitDue s1 then refreshFaultN (commitNow s1) else s1
  castAfter (if castPhase s2 = 6 then s2 else releaseDue s2 (tempoNo s2))

theorem tempoAligned_eq (s : State) : tempoAligned s = sleepAgreement (lcResume (alignedBefore s)) := rfl

theorem courseOf_alignedBefore (s : State) : courseOf (alignedBefore s) = courseOf s := by
  simp only [alignedBefore, courseOf_castAfter, courseOf_ite, courseOf_releaseDue, courseOf_refreshFaultN,
    courseOf_commitNow, courseOf_castBefore, courseOf_cutRevoked, courseOf_revokeDue, ite_self]

theorem courseOf_restartPrep (s : State) : courseOf (restartPrep s) = courseOf s := by
  unfold restartPrep
  split
  · rfl
  · simp only [courseOf_ite, courseOf_mk, and_self, courseOf_commitBegin, ite_self]

theorem courseOf_jobsAtBoundary (s : State) : courseOf (jobsAtBoundary s) = courseOf s := by
  simp only [jobsAtBoundary, moveHeld, courseOf_mk, and_self, courseOf_ite, courseOf_moveJobs, courseOf_restartPrep,
    ite_self]

theorem courseOf_countDeadlines (s : State) (stopped : Bool) : courseOf (countDeadlines s stopped) = courseOf s :=
  courseOf_of_kept fun _ => kept_countDeadlines _ _

theorem courseOf_everyTempo (s : State) : courseOf (everyTempo s) = courseOf s := by
  have hbefore : courseOf (linFinishAll (allRoutesDue (avgBoundary (showDrainAge s)))) = courseOf s :=
    courseOf_of_kept (by
      intros
      simp only [kept_linFinishAll, kept_allRoutesDue, kept_avgBoundary, kept_showDrainAge])
  simp only [everyTempo, courseOf_countDeadlines, courseOf_mk, and_self, courseOf_jobsAtBoundary, hbefore]

/-! The cut of the tempo. -/

theorem lowSame_settleAll (s : State) : lowSame s (settleAll s) := by
  refine (lowSame_forIdx 50 _ (fun p st => lowSame_gateSync st p) s).trans (lowSame_foldl _ (fun st e => ?_) _ _)
  split
  · exact lowSame_flowSync _ _
  · exact .refl st

theorem lowSame_freeze (s : State) : lowSame s (freeze s) := by
  unfold freeze
  dsimp only
  refine lowSame.put (lowSame.put (lowSame.trans (lowSame_settleAll s) (.of_regs ?_)) ?_ _) ?_ _
  · with_reducible rfl
  · decide
  · decide

theorem lowSame_dumpAtBoundary (s : State) (n : Nat) : lowSame s (dumpAtBoundary s n) := by
  unfold dumpAtBoundary
  dsimp only
  split
  · exact .refl s
  · split
    · exact (lowSame.of_regs rfl).bump (by decide)
    · exact .of_regs rfl

theorem lowSame_centralCopy (s : State) : lowSame s (centralCopy s) := by
  refine (lowSame_forIdx 10 _ (fun i st => (lowSame.refl st).put ?_ _) s).put (by decide) _
  simp only [Fld.key, Reg.crMirror]
  omega

/-- What a boundary captures lies in registers above the traffic manager's. -/
theorem lowSame_captures (s : State) (n : Nat) : lowSame s (captures s n) := by
  have hfreeze : lowSame s (if s.cnt.snapAt.any (requestDue s) then freeze s else s) := by
    split
    · exact lowSame_freeze s
    · exact .refl s
  have hcaptured (c : Prop) [Decidable c] (u : State) : lowSame u (if c then captured u else u) := by
    split
    · exact (lowSame.of_regs rfl).trans (lowSame_centralCopy _)
    · exact .refl u
  have hcopies (u : State) : lowSame u (copiesDue u) := by
    unfold copiesDue
    split
    · exact (lowSame_centralCopy u).trans (.of_regs rfl)
    · exact .refl u
  exact ((hfreeze.trans (lowSame_dumpAtBoundary _ n)).trans (hcaptured _ _)).trans (hcopies _)

theorem get_deferJob_ne (s : State) (j : Job) {f : Fld} (hover : f.key ≠ Reg.tempoStatsOverruns.key)
    (hmax : f.key ≠ Reg.tempoStatsMaxDefer.key) : get (deferJob s j) f = get s f := by
  have hraise (u : State) (v : Nat) : get (raiseTo u Reg.tempoStatsMaxDefer v) f = get u f := by
    unfold raiseTo
    split
    · exact get_put_ne _ _ _ _ hmax
    · rfl
  have hcount (v : Nat) (u : State) (hu : get u f = get s f) :
      get (raiseTo (bump u Reg.tempoStatsOverruns) Reg.tempoStatsMaxDefer v) f = get s f :=
    (hraise _ v).trans ((get_bump_ne _ _ _ hover).trans hu)
  unfold deferJob
  dsimp only
  split
  · exact (get_congr _ _ _ (pulse_regs _ _ _)).trans (hcount _ _ (get_congr _ _ _ rfl))
  · exact hcount _ _ (get_congr _ _ _ rfl)

theorem get_deferWaiting_ne (s : State) {f : Fld} (hover : f.key ≠ Reg.tempoStatsOverruns.key)
    (hmax : f.key ≠ Reg.tempoStatsMaxDefer.key) : get (deferWaiting s) f = get s f := by
  unfold deferWaiting
  generalize s.jobs.queue.filter _ = l
  induction l generalizing s with
  | nil => rfl
  | cons j l ih => exact (ih _).trans (get_deferJob_ne s j hover hmax)

/-- What happens before the tempo ends: captures, and the deferral of jobs that still wait. -/
def tempoEnd (s : State) : State := deferWaiting (captures s (tempoNo s + 1))

theorem tempoEnd_time (s : State) : (tempoEnd s).time = s.time := by
  have hdefer (u : State) : (deferWaiting u).time = u.time :=
    (changesOnly_of_kept (@kept_deferWaiting [.registers, .accum, .jobs, .io] (has_of rfl) (has_of rfl) (has_of rfl)
      (has_of rfl) u)).time_eq (by decide)
  have hcaptures (n : Nat) : (captures s n).time = s.time := by
    refine (changesOnly_of_kept (@kept_captures [.registers, .accum, .intc, .host, .frames, .tm, .cnt, .io] ?_ ?_ ?_ ?_ ?_
      ?_ ?_ ?_ s n)).time_eq (by decide) <;> exact has_of rfl
  exact (hdefer _).trans (hcaptures _)

theorem courseOf_tempoEnd (s : State) : courseOf (tempoEnd s) = courseOf s :=
  courseOf_of_kept (by intros; simp only [tempoEnd, kept_deferWaiting, kept_captures])

theorem nextMark_congr {s t : State} (htime : t.time = s.time) (hk : get t Reg.tempoCfgK = get s Reg.tempoCfgK) :
    nextMark t = nextMark s := by
  simp only [nextMark, period, htime, hk]

theorem nextMark_tempoEnd (s : State) : nextMark (tempoEnd s) = nextMark s := by
  refine nextMark_congr (tempoEnd_time s) ?_
  exact (get_deferWaiting_ne _ (by decide) (by decide)).trans (lowSame_captures s _ _ (by decide))

/-- The next tempo starts now, at its mark (R39). -/
theorem courseOf_nextTempo (s : State) : courseOf (nextTempo s) =
    { courseOf s with start := s.time.now, mark := nextMark s, realign := false } := by
  unfold nextTempo
  dsimp only
  split <;> rfl

theorem courseOf_cut (s : State) : courseOf (nextTempo (tempoEnd s)) =
    { courseOf s with start := s.time.now, mark := nextMark s, realign := false } := by
  rw [courseOf_nextTempo, courseOf_tempoEnd, nextMark_tempoEnd, tempoEnd_time]

/-- Each boundary adds one to TEMPO_NUM (R41). -/
theorem get_nextTempo_num (s : State) : get (nextTempo s) Reg.tempoNum = (tempoNo s + 1) % 2 ^ 64 := get_put_same _ _ _

/-- A realignment is counted (R40). -/
theorem get_nextTempo_realign {s : State} (h : s.time.realign = true) : get (nextTempo s) Reg.tempoStatsRealign =
    min (2 ^ Reg.tempoStatsRealign.width - 1) (get s Reg.tempoStatsRealign + 1) := by
  unfold nextTempo
  simp only [h, if_true]
  rw [get_put_ne _ _ _ _ (by decide)]
  exact get_bump_same _ _

theorem nextTempo_regsSame (s : State) : regsSame s (nextTempo s) [Reg.tempoNum, Reg.tempoStatsRealign] := by
  unfold nextTempo
  refine regsSame.put (regsSame.congr (t := if s.time.realign then bump s Reg.tempoStatsRealign else s) ?_ rfl) (by simp) _
  split
  · exact (regsSame.refl s _).bump (by simp)
  · exact .refl s _

/-! Resets. -/

theorem deviceReset_boot (s : State) (cause : Nat) : (deviceReset s cause).boot.phase = .inReset ∧
    (deviceReset s cause).boot.cause = cause ∧ (deviceReset s cause).img.recoverDue = false := by
  have hput (l : List Fld) (u : State) : (l.foldl (fun st f => put st f (get s f)) u).boot = u.boot ∧
      (l.foldl (fun st f => put st f (get s f)) u).img = u.img := by
    induction l generalizing u with
    | nil => exact ⟨rfl, rfl⟩
    | cons f l ih => exact ih _
  unfold deviceReset
  dsimp only
  rw [(hput _ _).1, (hput _ _).2]
  exact ⟨rfl, rfl, rfl⟩

theorem beginReset_of_aloft {s : State} (h : s.boot.phase = .aloft) (cause : Nat) :
    beginReset s cause = deviceReset s cause := by
  simp only [beginReset, h]

/-- No reset leaves the device forwarding. -/
theorem beginReset_phase (s : State) (cause : Nat) : (beginReset s cause).boot.phase ≠ .aloft := by
  have hreset : (deviceReset s cause).boot.phase ≠ .aloft := by
    rw [(deviceReset_boot s cause).1]
    decide
  unfold beginReset
  split
  case h_1 hoff => simp [hoff]
  case h_7 => exact hreset
  all_goals exact nofun

/-! The life cycle at a boundary. -/

theorem lcResult_time (s : State) (r : Nat) : (lcResult s r).time = s.time := by
  unfold lcResult
  split
  · rfl
  · exact raiseSource_time _ _

/-- A life-cycle change that is carried out resets the device, and one that is refused is no new instant (R263). -/
theorem lcAct_time (s : State) (m : Master) (goal : Nat) :
    (lcAct s m goal).boot.phase ≠ .aloft ∨ (lcAct s m goal).time = s.time := by
  unfold lcAct
  split
  · exact .inr (lcResult_time _ _)
  · split
    · exact .inr ((lcResult_time _ _).trans (journal_time _ _ _))
    · exact .inl (beginReset_phase _ _)

/-- Where the device still forwards, a pending life-cycle change leaves the instants of the tempo alone. -/
theorem lcResume_time (s : State) : (lcResume s).boot.phase ≠ .aloft ∨ (lcResume s).time = s.time := by
  unfold lcResume
  split
  · split
    · exact .inr rfl
    · dsimp only
      split
      · exact (lcAct_time _ _ _).imp_right fun h => h.trans rfl
      · exact .inr (lcResult_time _ _)
  · exact .inr rfl

theorem lcResume_none {s : State} (h : s.boot.lcPend = none) : lcResume s = s := by
  simp only [lcResume, h]

/-! The boundary. -/

/-- The boundary before a recovery reset that begins at it. -/
def boundaryWork (s : State) : State := everyTempo (tempoAligned (nextTempo (tempoEnd s)))

theorem boundary_forwards {s : State} (h : (boundaryWork s).img.recoverDue = false) : boundary s = boundaryWork s :=
  if_neg (h ▸ Bool.false_ne_true)

theorem boundary_recovers {s : State} (h : (boundaryWork s).img.recoverDue = true) :
    boundary s = beginReset { boundaryWork s with img.recoverDue := false } 4 := if_pos h

theorem phase_of_aloft {s : State} (h : aloft s = true) : s.boot.phase = .aloft := by
  simpa [aloft] using h

theorem tempoBoundary_due {s : State} (haloft : aloft s = true) (hdue : boundaryDue s = true) :
    tempoBoundary s = boundary s := by
  simp only [tempoBoundary, phase_of_aloft haloft, hdue, if_true]

theorem tempoBoundary_early {s : State} (haloft : aloft s = true) (hearly : boundaryDue s = false) :
    tempoBoundary s = s := by
  simp only [tempoBoundary, phase_of_aloft haloft, hearly, Bool.false_eq_true, if_false]

/-- Budgets are fresh, and no injection is left, whatever the deadlines do (R46). -/
theorem everyTempo_fresh (s : State) : (everyTempo s).jobs.budget = [] ∧ (everyTempo s).cpu.injected = false := by
  have hcount (u : State) (b : Bool) : (countDeadlines u b).jobs = u.jobs ∧ (countDeadlines u b).cpu = u.cpu := by
    unfold countDeadlines delayOverflow
    split
    · split <;> exact ⟨rfl, rfl⟩
    · exact ⟨rfl, rfl⟩
  unfold everyTempo
  dsimp only
  rw [(hcount _ _).1, (hcount _ _).2]
  exact ⟨rfl, rfl⟩

/-- The course after the work of a boundary is the one that the life cycle leaves. -/
theorem courseOf_boundaryWork (s : State) :
    courseOf (boundaryWork s) = courseOf (lcResume (alignedBefore (nextTempo (tempoEnd s)))) := by
  rw [boundaryWork, courseOf_everyTempo, tempoAligned_eq, courseOf_sleepAgreement]

/-- With no life-cycle change pending it is that of the cut. -/
theorem courseOf_boundaryWork_steady {s : State} (hpend : s.boot.lcPend = none) : courseOf (boundaryWork s) =
    { courseOf s with start := s.time.now, mark := nextMark s, realign := false } := by
  have hbefore := (courseOf_alignedBefore (nextTempo (tempoEnd s))).trans (courseOf_cut s)
  have hnone : (alignedBefore (nextTempo (tempoEnd s))).boot.lcPend = none := (lcPend_of_course hbefore).trans hpend
  rw [courseOf_boundaryWork, lcResume_none hnone, hbefore]

/-- Where the device still forwards after the life cycle's change, the instants are those of before it. -/
theorem instants_of_lcResume {s x : State} {c : Course} (hcourse : courseOf s = courseOf (lcResume x))
    (hbefore : courseOf x = c) (haloft : s.boot.phase = .aloft) :
    s.time.tempoMark = c.mark ∧ s.time.tempoLocal = c.start ∧ s.time.realign = c.realign := by
  have hphase : (lcResume x).boot.phase = .aloft := (phase_of_course hcourse).symm.trans haloft
  have htime := (lcResume_time x).resolve_left (· hphase)
  rw [mark_of_course hcourse, start_of_course hcourse, realign_of_course hcourse, ← hbefore]
  simp only [courseOf, htime, and_self]

/-- Where the device still forwards after the work of a boundary, the tempo has been cut. -/
theorem boundaryWork_instants {s : State} (haloft : (boundaryWork s).boot.phase = .aloft) :
    (boundaryWork s).time.tempoMark = nextMark s ∧ (boundaryWork s).time.tempoLocal = s.time.now ∧
      (boundaryWork s).time.realign = false :=
  instants_of_lcResume (courseOf_boundaryWork s) ((courseOf_alignedBefore _).trans (courseOf_cut s)) haloft

/-- A boundary after which the device still forwards has cut the tempo and given fresh budgets. -/
theorem boundary_instants {s : State} (haloft : (boundary s).boot.phase = .aloft) :
    (boundary s).time.tempoMark = nextMark s ∧ (boundary s).time.tempoLocal = s.time.now ∧
      (boundary s).time.realign = false ∧ (boundary s).jobs.budget = [] := by
  cases hrecover : (boundaryWork s).img.recoverDue with
  | true =>
    rw [boundary_recovers hrecover] at haloft
    exact absurd haloft (beginReset_phase _ _)
  | false =>
    rw [boundary_forwards hrecover] at haloft ⊢
    obtain ⟨hmark, hstart, hrealign⟩ := boundaryWork_instants haloft
    exact ⟨hmark, hstart, hrealign, (everyTempo_fresh _).1⟩

/-! The first boundary. -/

theorem courseOf_becomeGm (s : State) (d : Domain) : courseOf (becomeGm s d) = courseOf s := by
  cases d <;> exact courseOf_noteTb _ _

theorem courseOf_startGm (s : State) (d : Domain) : courseOf (startGm s d) = courseOf s := by
  simp only [startGm, courseOf_ite, courseOf_becomeGm, ite_self]

/-- Forwarding starts with a tempo of its own (R41, R401). -/
theorem courseOf_startForwarding (s : State) : courseOf (startForwarding s) =
    { courseOf s with phase := .aloft, start := s.time.now, realign := false } := by
  have hafter (u : State) : courseOf (refreshFaultN (reportTamper (ripcordAtStart u))) = courseOf u :=
    courseOf_of_kept (by intros; simp only [kept_refreshFaultN, kept_reportTamper, kept_ripcordAtStart])
  have hbefore (u : State) : courseOf (writeKeys (rejectLarge (startEdge u))) = courseOf u :=
    courseOf_of_kept (by intros; simp only [kept_writeKeys, kept_rejectLarge, kept_startEdge])
  simp only [startForwarding, hafter, courseOf_startGm, hbefore]
  rfl

theorem courseOf_firstBoundary (s : State) : courseOf (firstBoundary s) = { courseOf s with
    phase := .aloft, start := s.time.now, mark := wcNow s - wcNow s % (period s : Int), realign := false } := by
  have hgates (u : State) (mark : Int) : courseOf (settleAll (installChanged (applyAdmins u) 1 mark)) = courseOf u :=
    courseOf_of_kept (by intros; simp only [kept_settleAll, kept_installChanged, kept_applyAdmins])
  have hcaptures (u : State) : courseOf (captures u 0) = courseOf u := courseOf_of_kept fun _ => kept_captures _ _
  have hnow (u : State) : (captures u 0).time.now = u.time.now := now_of_course (hcaptures u)
  simp only [firstBoundary, hgates, courseOf_startForwarding, hcaptures, hnow]
  rfl

theorem firstBoundary_mem (s : State) : (firstBoundary s).mem = s.mem := by
  refine (changesOnly_of_kept (@kept_firstBoundary (allBut [.banks, .flash]) ?_ ?_ ?_ ?_ ?_ ?_ ?_ ?_ ?_ ?_ ?_ ?_ ?_ ?_ ?_
    ?_ ?_ ?_ s)).mem_eq (by decide) (by decide) <;> exact has_of rfl

theorem tempoBoundary_first {s : State} (hstarting : s.boot.phase = .starting) (hcal : s.boot.calDone = true)
    (hheld : s.cpu.spHeld = false) (hperiod : s.time.tempoMark + period s ≤ wcNow s) :
    tempoBoundary s = firstBoundary s := by
  simp only [tempoBoundary, hstarting, hcal, hheld, hperiod, Bool.not_false, and_self, if_true]

/-- Settles O56: the work of a boundary leaves the course that the cut of the tempo has set, unless a life-cycle change
or a recovery resets the device. -/
theorem temposBeginOnTheWorkingClock : Obligations.TemposBeginOnTheWorkingClock := by
  unfold Obligations.TemposBeginOnTheWorkingClock
  refine ⟨fun s haloft hdue => ?_, fun s haloft hdue hpend hrecover => ?_, fun s haloft hdue hpend hrecover => ?_,
    fun s haloft hearly => ?_, fun s hstarting hcal hheld hperiod => ?_, fun s hrealign => ?_, fun s => ?_⟩
  case refine_1 =>
    exact ⟨_, congrArg Host.Outcome.next (tempoBoundary_due haloft hdue), boundary_instants⟩
  case refine_2 =>
    have hcourse := courseOf_boundaryWork_steady hpend
    have hwork := boundary_forwards ((recoverDue_of_course hcourse).trans hrecover)
    have hphase : (boundaryWork s).boot.phase = .aloft :=
      (phase_of_course hcourse).trans (phase_of_aloft haloft)
    obtain ⟨hmark, hstart, hrealign⟩ := boundaryWork_instants hphase
    obtain ⟨hbudget, hinjected⟩ := everyTempo_fresh (tempoAligned (nextTempo (tempoEnd s)))
    exact ⟨_, congrArg Host.Outcome.next ((tempoBoundary_due haloft hdue).trans hwork), hphase, hmark, hstart, hrealign,
      now_of_course hcourse, hbudget, hinjected, lc_of_course hcourse⟩
  case refine_3 =>
    have hcourse := courseOf_boundaryWork_steady hpend
    have hwork := boundary_recovers ((recoverDue_of_course hcourse).trans hrecover)
    have hphase : (boundaryWork s).boot.phase = .aloft :=
      (phase_of_course hcourse).trans (phase_of_aloft haloft)
    have hreset := beginReset_of_aloft (s := { boundaryWork s with img.recoverDue := false }) hphase 4
    exact ⟨_, congrArg Host.Outcome.next ((tempoBoundary_due haloft hdue).trans (hwork.trans hreset)),
      deviceReset_boot _ 4⟩
  case refine_4 => exact congrArg Host.Outcome.next (tempoBoundary_early haloft hearly)
  case refine_5 =>
    have hcourse := courseOf_firstBoundary s
    exact ⟨_, congrArg Host.Outcome.next (tempoBoundary_first hstarting hcal hheld hperiod), phase_of_course hcourse,
      start_of_course hcourse, mark_of_course hcourse, firstBoundary_mem s⟩
  case refine_6 => simp [nextMark, hrealign]
  case refine_7 => exact ⟨get_nextTempo_num s, get_nextTempo_realign, nextTempo_regsSame s⟩

end Sys2Proof.Machine
end

section
/-!
The staging set (R66, R67): whoever may stage takes ownership and stages or pushes, and what R66 refuses is counted and
reported.
-/
namespace Sys2Proof.Machine

/-! Accesses under R66. -/

/-- An accepted write to the staging set has its effect or is refused. -/
theorem stageAccess_accepted {s : State} {m : Master} {a : Nat} (h : accepts s m a = true) (may : Bool)
    (effect : State → State) : stageAccess s m a may effect =
      noteGrant (if may then answer (effect s) m .done else stageRefused s m a) a m := by
  simp only [accepts, Bool.and_eq_true, Option.isNone_iff_eq_none] at h
  obtain ⟨⟨hheard, haloft⟩, hrefusal⟩ := h
  simp [stageAccess, writesAnswered, hheard, haloft, hrefusal]

theorem get_ledgerAdd_ne (s : State) (org addr code space : Nat) {f : Fld} (hovf : f.key ≠ Reg.ledgerOvf.key)
    (hraise : ((raiseFields (ledgerSource org)).all fun g => f.key != g.key) = true) :
    get (ledgerAdd s org addr code space) f = get s f := by
  unfold ledgerAdd
  dsimp only
  split
  · rfl
  · rw [get_raiseSource_ne _ _ _ hraise]
    split
    · rfl
    · exact get_bump_ne _ _ _ hovf

/-- The report of a write that R66 refuses leaves the count of refusals. -/
theorem get_reportWrite_rejects (s : State) (m : Master) (a code : Nat) :
    get (reportWrite s m a code) Reg.stageStatusRejects = get s Reg.stageStatusRejects := by
  cases m with
  | host => exact (get_ledgerAdd_ne _ _ _ _ _ (by decide) (by decide)).trans (get_answer _ _ _ _)
  | spi => exact (get_ledgerAdd_ne _ _ _ _ _ (by decide) (by decide)).trans (get_answer _ _ _ _)
  | sp => exact get_answer _ _ _ _
  | gc => exact get_answer _ _ _ _
  | dbg => exact get_answer _ _ _ _

theorem reportWrite_env (s : State) (m : Master) (a code : Nat) : (reportWrite s m a code).env = s.env := by
  cases m <;> simp [reportWrite]

/-- What R66 refuses is counted and changes no staging. -/
theorem stageRefused_counts (s : State) (m : Master) (a b : Nat) :
    (noteGrant (stageRefused s m a) b m).env = s.env ∧
    get (noteGrant (stageRefused s m a) b m) Reg.stageStatusRejects =
      min (2 ^ Reg.stageStatusRejects.width - 1) (get s Reg.stageStatusRejects + 1) := by
  refine ⟨?_, ?_⟩
  · rw [noteGrant_env, stageRefused, reportWrite_env, bump_env]
  · rw [get_noteGrant, stageRefused, get_reportWrite_rejects, get_bump_same]

/-! Ownership. -/

theorem owner_of_stageMay {s : State} {m : Master} (h : stageMay s m = true) :
    get s Reg.stageStatusOwner = 0 ∨ get s Reg.stageStatusOwner = ownerCode m := by
  simp only [stageMay, Bool.and_eq_true, Bool.or_eq_true, beq_iff_eq] at h
  exact h.1.2

/-- Taking ownership changes registers alone. -/
theorem takeOwnership_frame (s : State) (m : Master) :
    takeOwnership s m = { s with regs := (takeOwnership s m).regs } := by
  unfold takeOwnership
  split <;> rfl

theorem regsSame.takeOwnership {s t : State} {l : List Fld} (h : regsSame s t l) (hl : Reg.stageStatusOwner ∈ l)
    (m : Master) : regsSame s (takeOwnership t m) l := by
  unfold Machine.takeOwnership
  split
  · exact h.put hl _
  · exact h

/-- Whoever may stage is the owner afterwards. -/
theorem get_takeOwnership {s : State} {m : Master} (h : stageMay s m = true) :
    get (takeOwnership s m) Reg.stageStatusOwner = ownerCode m := by
  have hcode : ownerCode m % 2 ^ Reg.stageStatusOwner.width = ownerCode m := by cases m <;> rfl
  unfold takeOwnership
  split
  · rw [get_put_same, hcode]
  · exact (owner_of_stageMay h).resolve_left ‹_›

/-! CMT fields staged. -/

/-- Whether a CMT field is there is a matter of the structural sections. -/
theorem cmtLive_congr {s t : State} (h : t.env.structural = s.env.structural) (f : Fld) : cmtLive t f = cmtLive s f := by
  simp only [cmtLive, portEntry, View.sect, slotView, h]

/-- Staging a field changes staged values alone. -/
theorem stageField_frame (f : Fld) (k v : Nat) (s : State) :
    ∃ staged, stageField f k v s = { s with env.staged := staged } := by
  unfold stageField
  split <;> exact ⟨_, rfl⟩

theorem find_stageField_ne (f g : Fld) (k v : Nat) (s : State) (h : g.key ≠ f.key) :
    (stageField f k v s).env.staged.find g.key = s.env.staged.find g.key := by
  unfold stageField
  split
  · exact SMap.find_set_ne _ _ _ _ h
  · rfl

theorem find_stageField_same {f : Fld} {s : State} (hty : f.ty = .cmt) (hwidth : f.width ≤ 32) (hlive : cmtLive s f = true)
    (k v : Nat) : (stageField f k v s).env.staged.find f.key = some (bitsAt v f.lsb f.width) := by
  simp [stageField, hty, hwidth, hlive, Nat.mod_eq_of_lt (bitsAt_lt v f.lsb f.width)]

/-- The fields of a register staged one after the other. -/
def stageFields (l : List (Fld × Nat)) (v : Nat) (s : State) : State :=
  l.foldl (fun st e => stageField e.1 e.2 v st) s

theorem stageFields_cons (e : Fld × Nat) (l : List (Fld × Nat)) (v : Nat) (s : State) :
    stageFields (e :: l) v s = stageFields l v (stageField e.1 e.2 v s) := rfl

theorem stageFields_frame (l : List (Fld × Nat)) (v : Nat) (s : State) :
    ∃ staged, stageFields l v s = { s with env.staged := staged } := by
  induction l generalizing s with
  | nil => exact ⟨_, rfl⟩
  | cons e l ih =>
    obtain ⟨first, hfirst⟩ := stageField_frame e.1 e.2 v s
    obtain ⟨staged, hrest⟩ := ih (stageField e.1 e.2 v s)
    exact ⟨staged, by rw [stageFields_cons, hrest, hfirst]⟩

theorem find_stageFields_notMem {f : Fld} {l : List (Fld × Nat)} (h : f.key ∉ l.map fun e => e.1.key) (v : Nat)
    (s : State) : (stageFields l v s).env.staged.find f.key = s.env.staged.find f.key := by
  induction l generalizing s with
  | nil => rfl
  | cons e l ih =>
    rw [List.map_cons, List.mem_cons, not_or] at h
    obtain ⟨hhead, htail⟩ := h
    exact (ih htail _).trans (find_stageField_ne _ _ _ _ _ hhead)

/-- Each field of a register is staged with its bits of the value written. -/
theorem find_stageFields {f : Fld} {k : Nat} {l : List (Fld × Nat)} {s : State} (hmem : (f, k) ∈ l)
    (hnodup : (l.map fun e => e.1.key).Nodup) (hty : f.ty = .cmt) (hwidth : f.width ≤ 32) (hlive : cmtLive s f = true)
    (v : Nat) : (stageFields l v s).env.staged.find f.key = some (bitsAt v f.lsb f.width) := by
  induction l generalizing s with
  | nil => simp at hmem
  | cons e l ih =>
    obtain ⟨hhead, htail⟩ := List.nodup_cons.1 hnodup
    rcases List.mem_cons.1 hmem with rfl | hmem
    · exact (find_stageFields_notMem hhead v _).trans (find_stageField_same hty hwidth hlive k v)
    · obtain ⟨staged, hfirst⟩ := stageField_frame e.1 e.2 v s
      have hstructural : (stageField e.1 e.2 v s).env.structural = s.env.structural := by rw [hfirst]
      exact ih hmem htail ((cmtLive_congr hstructural f).trans hlive)

/-- A staged write shows in CMT_DIRTY, beside the values it stages. -/
theorem stageWrite_eq (s : State) (a v : Nat) : stageWrite s a v =
    putFlag (stageFields (fieldsAt 0 a) v s) Reg.stageStatusCmtDirty
      (!(stageFields (fieldsAt 0 a) v s).env.staged.isEmpty) := rfl

theorem stageFields_regs (l : List (Fld × Nat)) (v : Nat) (s : State) : (stageFields l v s).regs = s.regs := by
  obtain ⟨staged, h⟩ := stageFields_frame l v s
  rw [h]

/-- A CMT write that is admitted changes registers and staged values alone. -/
theorem stageWrite_frame (s : State) (m : Master) (a v : Nat) :
    ∃ regs staged, stageWrite (takeOwnership s m) a v = { s with regs := regs, env.staged := staged } := by
  obtain ⟨staged, h⟩ := stageFields_frame (fieldsAt 0 a) v (takeOwnership s m)
  rw [stageWrite_eq, h, takeOwnership_frame]
  exact ⟨_, _, rfl⟩

theorem stageWrite_regsSame (s : State) (m : Master) (a v : Nat) : regsSame s (stageWrite (takeOwnership s m) a v)
    [Reg.stageStatusOwner, Reg.stageStatusCmtDirty] := by
  have howner := (regsSame.refl s [Reg.stageStatusOwner, Reg.stageStatusCmtDirty]).takeOwnership (by simp) m
  exact (howner.congr (stageFields_regs _ _ _)).putFlag (by simp) _

theorem get_stageWrite_owner {s : State} {m : Master} (h : stageMay s m = true) (a v : Nat) :
    get (stageWrite (takeOwnership s m) a v) Reg.stageStatusOwner = ownerCode m := by
  rw [stageWrite_eq, get_putFlag_ne _ _ _ _ (by decide), get_congr _ _ _ (stageFields_regs _ _ _), get_takeOwnership h]

theorem hasCmt_of_mem {f : Fld} {k a : Nat} (hmem : (f, k) ∈ fieldsAt 0 a) (hty : f.ty = .cmt) : hasCmt a = true :=
  List.any_eq_true.2 ⟨(f, k), hmem, by simp [hty]⟩

theorem cmtWrite_accepted {s : State} {m : Master} {a : Nat} (hacc : accepts s m a = true) (hcmt : hasCmt a = true)
    (v : Nat) : cmtWrite s m a v = noteGrant
      (if stageMay s m then answer (stageWrite (takeOwnership s m) a v) m .done else stageRefused s m a) a m := by
  rw [cmtWrite, if_pos hcmt, stageAccess_accepted hacc]

/-! Items pushed. -/

/-- An item registered for its owner. -/
def pushed (s : State) (m : Master) (it : StageItem) : State :=
  put { takeOwnership s m with env.items := (takeOwnership s m).env.items ++ [it] } Reg.stageStatusItems
    ((takeOwnership s m).env.items.length + 1)

/-- What a push has found can be pushed: fewer than 64 items are there, and no word of its range is marked. -/
theorem pushItem_some {s : State} {kind : Nat} {it : StageItem} (h : pushItem s kind = some it) :
    s.env.items.length < 64 ∧ ∃ off n, pushRange s kind = some (off, n) ∧ hitsMark s .h off n = none := by
  unfold pushItem at h
  split at h
  case h_1 off n hrange =>
    refine ⟨?_, off, n, hrange, ?_⟩
    · unfold pushRange at hrange
      dsimp only at hrange
      split at hrange
      · split at hrange
        · obtain ⟨-, hroom, -⟩ := ‹_ ∧ _ ∧ _›
          exact hroom
        · cases hrange
      · cases hrange
    · split at h
      · cases h
      · next hclear => simpa [bankHMarked] using hclear
  case h_2 => cases h

theorem hitsMark_congr {s t : State} (h : t.cpu.badWords = s.cpu.badWords) (b : Bank) (off n : Nat) :
    hitsMark t b off n = hitsMark s b off n := by
  simp only [hitsMark, marked, h]

theorem answer_badWords (s : State) (m : Master) (r : Resp) : (answer s m r).cpu.badWords = s.cpu.badWords := by
  cases m <;> simp [answer]

theorem takeMark_clean {s : State} {off n : Nat} (h : hitsMark s .h off n = none) : takeMark s off n = s := by
  simp only [takeMark, h]

theorem pushed_frame (s : State) (m : Master) (it : StageItem) :
    pushed s m it = { s with regs := (pushed s m it).regs, env.items := s.env.items ++ [it] } := by
  rw [pushed, takeOwnership_frame]
  rfl

/-- A push that is admitted: the words of its item are not marked. -/
theorem stagePush_registers {s : State} {m : Master} {kind : Nat} {it : StageItem} (hacc : accepts s m 0x40050 = true)
    (hmay : stageMay s m = true) (hit : pushItem s kind = some it) :
    stagePush s m kind = noteGrant (answer (pushed s m it) m .done) 0x40050 m := by
  obtain ⟨-, off, n, hrange, hclean⟩ := pushItem_some hit
  have hmark : takeMark (noteGrant (answer (pushed s m it) m .done) 0x40050 m) off n =
      noteGrant (answer (pushed s m it) m .done) 0x40050 m := by
    refine takeMark_clean ((hitsMark_congr ?_ _ _ _).trans hclean)
    rw [noteGrant_cpu, answer_badWords, pushed_frame]
  unfold stagePush
  rw [stageAccess_accepted hacc]
  simp only [hmay, hit, hrange, Option.isSome_some, Bool.and_self, if_true]
  split
  · exact hmark
  · rfl

/-- A push of an item that cannot be pushed is refused; the mark that stood in its way may be taken. -/
theorem stagePush_refused {s : State} {m : Master} {kind : Nat} (hacc : accepts s m 0x40050 = true)
    (hit : pushItem s kind = none) : ∃ cpu, stagePush s m kind =
      { noteGrant (stageRefused s m 0x40050) 0x40050 m with cpu := cpu } := by
  unfold stagePush
  rw [stageAccess_accepted hacc]
  simp only [hit, Option.isSome_none, Bool.and_false, Bool.false_eq_true, if_false]
  split
  · split
    · unfold takeMark
      split
      · exact ⟨_, rfl⟩
      · exact ⟨_, rfl⟩
    · exact ⟨_, rfl⟩
  · exact ⟨_, rfl⟩

theorem pushed_regsSame (s : State) (m : Master) (it : StageItem) :
    regsSame s (pushed s m it) [Reg.stageStatusOwner, Reg.stageStatusItems] := by
  have howner := (regsSame.refl s [Reg.stageStatusOwner, Reg.stageStatusItems]).takeOwnership (by simp) m
  exact (howner.congr rfl).put (by simp) _

theorem get_pushed_owner {s : State} {m : Master} (h : stageMay s m = true) (it : StageItem) :
    get (pushed s m it) Reg.stageStatusOwner = ownerCode m :=
  (get_put_ne _ _ _ _ (by decide)).trans (get_takeOwnership h)

theorem get_pushed_items {s : State} (h : s.env.items.length < 64) (m : Master) (it : StageItem) :
    get (pushed s m it) Reg.stageStatusItems = s.env.items.length + 1 := by
  rw [pushed, get_put_same, takeOwnership_frame]
  exact Nat.mod_eq_of_lt (Nat.lt_of_le_of_lt h (by decide))

/-! Release and discard. -/

/-- The set emptied and given up. -/
def discarded (s : State) : State := put (emptySet s) Reg.stageStatusOwner 0

theorem get_discarded (s : State) : get (discarded s) Reg.stageStatusOwner = 0 ∧
    get (discarded s) Reg.stageStatusItems = 0 ∧ get (discarded s) Reg.stageStatusCmtDirty = 0 := by
  simp (disch := decide) [discarded, emptySet, get_put_ne]

theorem discarded_regsSame (s : State) : regsSame s (discarded s)
    [Reg.stageStatusOwner, Reg.stageStatusItems, Reg.stageStatusCmtDirty] := by
  have hempty : regsSame s { s with env.items := [], env.staged := [] }
      [Reg.stageStatusOwner, Reg.stageStatusItems, Reg.stageStatusCmtDirty] := .congr (.refl s _) rfl
  exact ((hempty.put (by simp) _).put (by simp) _).put (by simp) _

/-- Settles O24, clause by clause: each access under R66 has its effect and its answer, or is refused and counted. -/
theorem stagingBelongsToItsOwner : Obligations.StagingBelongsToItsOwner := by
  unfold Obligations.StagingBelongsToItsOwner
  refine ⟨fun s m a v f k hacc hmay hmem hnodup hty hwidth hlive => ?_, fun s m a v hacc hmay hcmt => ?_,
    fun s m hacc hmay => ?_, fun s m hacc howner hmay => ?_, fun s m hacc howner hmay => ?_,
    fun s m kind it hacc hmay hit => ?_, fun s m kind hacc hit => ?_⟩
  case refine_1 =>
    have hwrite := cmtWrite_accepted hacc (hasCmt_of_mem hmem hty) v.toNat
    rw [if_pos hmay] at hwrite
    obtain ⟨regs, staged, hframe⟩ := stageWrite_frame s m a v.toNat
    have hlive' : cmtLive (takeOwnership s m) f = true := (cmtLive_congr (by rw [takeOwnership_frame]) f).trans hlive
    refine ⟨_, congrArg Host.Outcome.next hwrite, ?_, ?_, ?_, ?_,
      regsSame_answered (stageWrite_regsSame s m a v.toNat) _ _ _, ?_⟩
    · rw [noteGrant_env, answer_env]
      exact find_stageFields hmem hnodup hty hwidth hlive' _
    · rw [get_answered, get_stageWrite_owner hmay]
    · rw [noteGrant_env, answer_env, hframe]
    · rw [noteGrant_env, answer_env, hframe]
    · rw [hframe]
      apply State.eq_of_parts <;> simp
  case refine_2 =>
    have hwrite := cmtWrite_accepted hacc hcmt v.toNat
    rw [hmay, if_neg Bool.false_ne_true] at hwrite
    exact ⟨_, congrArg Host.Outcome.next hwrite, stageRefused_counts s m a a⟩
  case refine_3 =>
    have hclaim : stageClaim s m = noteGrant (answer (takeOwnership s m) m .done) 0x40050 m := by
      rw [stageClaim, stageAccess_accepted hacc, hmay, Bool.true_or, if_pos rfl]
    refine ⟨_, congrArg Host.Outcome.next hclaim, ?_,
      regsSame_answered ((regsSame.refl s _).takeOwnership (by simp) m) _ _ _, ?_⟩
    · rw [get_answered, get_takeOwnership hmay]
    · rw [takeOwnership_frame]
      apply State.eq_of_parts <;> simp
  case refine_4 =>
    have hrelease : stageRelease s m = noteGrant (answer (put s Reg.stageStatusOwner 0) m .done) 0x40050 m := by
      rw [stageRelease, stageAccess_accepted hacc, howner, hmay, Bool.and_self, if_pos rfl]
    refine ⟨_, congrArg Host.Outcome.next hrelease, ?_, regsSame_answered ((regsSame.refl s _).put (by simp) 0) _ _ _, ?_⟩
    · rw [get_answered, get_put_same]
      rfl
    · apply State.eq_of_parts <;> simp
  case refine_5 =>
    have hdiscard : stageDiscard s m = noteGrant (answer (discarded s) m .done) 0x40050 m := by
      rw [stageDiscard, stageAccess_accepted hacc, howner, hmay, Bool.and_self, if_pos rfl]
      rfl
    obtain ⟨hfree, hitems, hdirty⟩ := get_discarded s
    have henv : (discarded s).env = { s.env with items := [], staged := [] } := rfl
    refine ⟨_, congrArg Host.Outcome.next hdiscard, ?_⟩
    simp only [get_answered, noteGrant_env, answer_env, henv]
    refine ⟨hfree, trivial, trivial, hitems, hdirty, regsSame_answered (discarded_regsSame s) _ _ _, ?_⟩
    apply State.eq_of_parts <;> simp [discarded, emptySet]
  case refine_6 =>
    obtain ⟨hroom, -⟩ := pushItem_some hit
    refine ⟨_, congrArg Host.Outcome.next (stagePush_registers hacc hmay hit), ?_, ?_, ?_,
      regsSame_answered (pushed_regsSame s m it) _ _ _, ?_⟩
    · rw [noteGrant_env, answer_env, pushed_frame]
    · rw [get_answered, get_pushed_items hroom]
    · rw [get_answered, get_pushed_owner hmay]
    · rw [pushed_frame]
      apply State.eq_of_parts <;> simp
  case refine_7 =>
    obtain ⟨cpu, hpush⟩ := stagePush_refused hacc hit
    exact ⟨_, congrArg Host.Outcome.next hpush, stageRefused_counts s m 0x40050 0x40050⟩

end Sys2Proof.Machine
end

section
/-!
A commit cancelled (R73). COMMIT_STATUS.STATE holds three bits and names five states; of the numbers beyond them
COMMIT_CANCEL ends the commit as of one that holds no slot, and the statement asks for the slot's return from 3 on.
-/
namespace Sys2Proof.Machine

/-- A device aloft whose host owns the staging set, with slot 0 current and a commit of state 5 that names slot 0. -/
def strayCommit : State :=
  { State.reset with
    boot.phase := .aloft
    regs := [(Reg.epochStatusSlotSt.key, 2), (Reg.stageStatusOwner.key, ownerCode .host), (Reg.commitStatusState.key, 5)] }

theorem accepts_strayCommit : accepts strayCommit .host 0x40070 = true := by decide +kernel

/-- The cancel leaves slot 0 current. -/
theorem slotState_cancelled : slotState (commitCancel strayCommit .host) 0 = 2 := by decide +kernel

/-- Refutes O25: COMMIT_CANCEL need not free the slot of a commit whose state is 3 or more. It frees that of states 3 and
4, and STATE can hold 5. -/
theorem not_commitsAreJudgedAndArmed : ¬ Obligations.CommitsAreJudgedAndArmed := by
  unfold Obligations.CommitsAreJudgedAndArmed
  intro h
  obtain ⟨-, -, -, -, -, -, -, -, hcancel, -⟩ := h
  have hstate : get strayCommit Reg.commitStatusState = 5 := rfl
  have hslot : get strayCommit Reg.commitStatusSlot = 0 := rfl
  obtain ⟨t, ht, -, -, hfree, -⟩ := hcancel strayCommit .host accepts_strayCommit rfl (by rw [hstate]; decide) rfl
    (by rw [hstate]; decide)
  obtain rfl : commitCancel strayCommit .host = t := Host.Outcome.next.inj ht
  rw [hstate, hslot] at hfree
  have hfreed := hfree (by decide) (by decide)
  rw [slotState_cancelled] at hfreed
  exact absurd hfreed (by decide)

end Sys2Proof.Machine
end

section
/-!
Latches and the freeing of slots (R76, R78): what a slot's return to FREE does to the states of the slots, to the policy
and to the registers that count storage.
-/
namespace Sys2Proof.Machine

/-! Bit fields. -/

/-- A number with a field replaced, from the bits above, in and below the field. -/
theorem setBits_eq (v l w x : Nat) : setBits v l w x = 2 ^ l * (2 ^ w * (v / 2 ^ l / 2 ^ w) + x % 2 ^ w) + v % 2 ^ l := by
  have hv : v = v / 2 ^ l % 2 ^ w * 2 ^ l + (2 ^ l * (2 ^ w * (v / 2 ^ l / 2 ^ w)) + v % 2 ^ l) := by
    conv_lhs => rw [← Nat.div_add_mod v (2 ^ l), ← Nat.div_add_mod (v / 2 ^ l) (2 ^ w)]
    ring
  have hclear : v - v / 2 ^ l % 2 ^ w * 2 ^ l = 2 ^ l * (2 ^ w * (v / 2 ^ l / 2 ^ w)) + v % 2 ^ l :=
    Nat.sub_eq_of_eq_add' hv
  rw [setBits, bitsAt, Nat.shiftRight_eq_div_pow, hclear]
  ring

theorem testBit_setBits (v l w x i : Nat) : (setBits v l w x).testBit i =
    if i < l then v.testBit i else if i < l + w then x.testBit (i - l) else v.testBit i := by
  rw [setBits_eq, Nat.testBit_two_pow_mul_add _ (Nat.mod_lt _ (Nat.two_pow_pos _)),
    Nat.testBit_two_pow_mul_add _ (Nat.mod_lt _ (Nat.two_pow_pos _))]
  simp only [Nat.testBit_mod_two_pow, Nat.testBit_div_two_pow]
  split
  · simp [*]
  · have hin : i - l < w ↔ i < l + w := by omega
    simp only [hin]
    split
    · simp [*]
    · congr 1
      omega

theorem testBit_bitsAt (v l w i : Nat) : (bitsAt v l w).testBit i = (decide (i < w) && v.testBit (l + i)) := by
  rw [bitsAt, Nat.testBit_mod_two_pow, Nat.testBit_shiftRight]

theorem bitsAt_setBits_same (v l w x : Nat) : bitsAt (setBits v l w x) l w = x % 2 ^ w := by
  refine Nat.eq_of_testBit_eq fun i => ?_
  rw [testBit_bitsAt, testBit_setBits, Nat.testBit_mod_two_pow]
  by_cases h : i < w <;> simp [h]

/-- A field keeps its bits when another is replaced. -/
theorem bitsAt_setBits_apart {l w k : Nat} (h : l + w ≤ k ∨ k + w ≤ l) (v x : Nat) :
    bitsAt (setBits v k w x) l w = bitsAt v l w := by
  refine Nat.eq_of_testBit_eq fun i => ?_
  rw [testBit_bitsAt, testBit_bitsAt, testBit_setBits]
  by_cases hi : i < w
  · rcases h with h | h
    · rw [if_pos (by omega)]
    · rw [if_neg (by omega), if_neg (by omega)]
  · simp [hi]

/-- A field reads the same in a number cut above it. -/
theorem bitsAt_mod_two_pow {l w n : Nat} (h : l + w ≤ n) (v : Nat) : bitsAt (v % 2 ^ n) l w = bitsAt v l w := by
  refine Nat.eq_of_testBit_eq fun i => ?_
  rw [testBit_bitsAt, testBit_bitsAt, Nat.testBit_mod_two_pow]
  by_cases hi : i < w
  · simp [show l + i < n by omega]
  · simp [hi]

/-! States of slots. -/

theorem slotState_congr {s t : State} (h : get t Reg.epochStatusSlotSt = get s Reg.epochStatusSlotSt) (i : Nat) :
    slotState t i = slotState s i := by
  simp only [slotState, h]

/-- SLOT_ST after a slot's state is set, for each of the four slots. -/
theorem slotState_setSlotState {j : Nat} (hj : j < 4) (s : State) (i v : Nat) :
    slotState (setSlotState s i v) j = if j = i then v % 2 ^ 2 else slotState s j := by
  have hwidth : 2 * j + 2 ≤ Reg.epochStatusSlotSt.width := by
    show 2 * j + 2 ≤ 8
    omega
  rw [slotState, setSlotState, get_put_same, bitsAt_mod_two_pow hwidth]
  split
  · subst_vars
    exact bitsAt_setBits_same _ _ _ _
  · exact bitsAt_setBits_apart (by omega) _ _

/-! Tables cut down. -/

/-- What a table has dropped is not found in it. -/
theorem SMap.find_keep_dropped {α : Type} {p : Nat → α → Bool} {k : Nat} (h : ∀ v, p k v = false) (m : SMap α) :
    (SMap.keep m p).find k = none := by
  induction m with
  | nil => rfl
  | cons e m ih =>
    obtain ⟨j, v⟩ := e
    have hcons : SMap.keep ((j, v) :: m) p = if p j v then (j, v) :: SMap.keep m p else SMap.keep m p :=
      List.filter_cons
    rw [hcons]
    split
    · have hne : k ≠ j := by
        rintro rfl
        simp_all
      rw [SMap.find_cons, if_neg hne, ih]
    · exact ih

/-- The number of a policy record names its slot. -/
theorem recKey_slot {slot sect index : Nat} (hsect : sect < 2 ^ 16) (hindex : index < 2 ^ 32) :
    recKey slot sect index / 2 ^ 48 = slot := by
  unfold recKey
  omega

/-! Storage. -/

/-- The registers that count storage (R64, R114). -/
def storageFlds : List Fld :=
  [Reg.fdbStatusStatic, Reg.fdbStatusLearned, Reg.clsUsedRulesUsed, Reg.clsUsedRangesUsed, Reg.streamsUsed, Reg.bufShared,
    Reg.bufMgmt, Reg.bufMin]

/-- The static entries of the live slots in their ways (R108). -/
def placedStorage (s : State) : State :=
  let stored := storedOf 0x10002 (liveEntries s)
  let held := SMap.keep s.net.static fun _ e => stored.contains e
  (stored.filter fun e => !(held.map fun e => e.2).contains e).foldl placeStatic { s with net.static := held }

/-- The entries of the live slots counted. -/
def countedStorage (s : State) : State :=
  let live := liveEntries s
  let shown := put (put (placedStorage s) Reg.fdbStatusStatic (storedOf 0x10002 live).length) Reg.fdbStatusLearned
    (min 65535 (placedStorage s).net.learned.length)
  put (put (put shown Reg.clsUsedRulesUsed (storedOf 0x12000 live).length) Reg.clsUsedRangesUsed
    (storedOf 0x12100 live).length) Reg.streamsUsed (storedOf 0x14000 live).length

theorem refreshStorage_eq (s : State) : refreshStorage s = showPools (countedStorage s) := rfl

theorem placeStatics_frame (l : List (Nat × List Byte)) (s : State) :
    ∃ net, l.foldl placeStatic s = { s with net := net } := by
  induction l generalizing s with
  | nil => exact ⟨_, rfl⟩
  | cons e l ih =>
    have hfirst : ∃ net, placeStatic s e = { s with net := net } := by
      unfold placeStatic
      split <;> exact ⟨_, rfl⟩
    obtain ⟨net, hnet⟩ := hfirst
    obtain ⟨rest, hrest⟩ := ih (placeStatic s e)
    exact ⟨rest, by rw [List.foldl_cons, hrest, hnet]⟩

/-- Static entries are placed among the tables of the forwarding plane. -/
theorem placedStorage_frame (s : State) : ∃ net, placedStorage s = { s with net := net } := by
  obtain ⟨net, hnet⟩ := placeStatics_frame _ { s with net.static := _ }
  exact ⟨net, hnet⟩

theorem showPools_env (s : State) : (showPools s).env = s.env := by
  unfold showPools
  dsimp only
  split <;> rfl

theorem regsSame.showPools {s t : State} {l : List Fld} (h : regsSame s t l)
    (hl : ∀ f ∈ [Reg.bufShared, Reg.bufMgmt, Reg.bufMin], f ∈ l) : regsSame s (showPools t) l := by
  have hfree := (h.put (hl Reg.bufShared (by simp)) (sharedFree t)).put (hl Reg.bufMgmt (by simp)) (mgmtFree t)
  unfold Machine.showPools
  dsimp only
  split
  · exact hfree.put (hl Reg.bufMin (by simp)) _
  · exact hfree

theorem refreshStorage_env (s : State) : (refreshStorage s).env = s.env := by
  obtain ⟨net, hplaced⟩ := placedStorage_frame s
  rw [refreshStorage_eq, showPools_env, countedStorage, hplaced]
  rfl

theorem refreshStorage_regsSame (s : State) : regsSame s (refreshStorage s) storageFlds := by
  obtain ⟨net, hplaced⟩ := placedStorage_frame s
  have hkeep : regsSame s (placedStorage s) storageFlds := (regsSame.refl s _).congr (by rw [hplaced])
  have hcounted : regsSame s (countedStorage s) storageFlds :=
    ((((hkeep.put (by decide) _).put (by decide) _).put (by decide) _).put (by decide) _).put (by decide) _
  exact hcounted.showPools (by decide)

/-! A slot dropped. -/

/-- A slot free, with what it held gone, before the storage of the others is counted. -/
def emptiedSlot (s : State) (slot : Nat) : State :=
  let freed := setSlotState s slot 0
  put { freed with
    env.policy := SMap.keep s.env.policy fun k _ => k / 2 ^ 48 != slot
    env.cmt := SMap.keep s.env.cmt fun k _ => k % 4 != slot
    env.drainStart := s.env.drainStart.del slot } (Reg.inflightDrainAge slot) 0

theorem dropSlot_eq (s : State) (slot : Nat) : dropSlot s slot = refreshStorage (emptiedSlot s slot) := rfl

theorem dropSlot_env (s : State) (slot : Nat) : (dropSlot s slot).env = { s.env with
    policy := SMap.keep s.env.policy fun k _ => k / 2 ^ 48 != slot
    cmt := SMap.keep s.env.cmt fun k _ => k % 4 != slot
    drainStart := s.env.drainStart.del slot } := by
  rw [dropSlot_eq, refreshStorage_env]
  rfl

theorem dropSlot_regsSame (s : State) (slot : Nat) :
    regsSame s (dropSlot s slot) ([Reg.epochStatusSlotSt, Reg.inflightDrainAge slot] ++ storageFlds) := by
  have hemptied : regsSame s (emptiedSlot s slot) [Reg.epochStatusSlotSt, Reg.inflightDrainAge slot] :=
    (((regsSame.refl s _).put (f := Reg.epochStatusSlotSt) (by simp) _).congr rfl).put (by simp) _
  intro g hg
  rw [List.all_append, Bool.and_eq_true] at hg
  exact (refreshStorage_regsSame _ g hg.2).trans (hemptied g hg.1)

/-- Of the states of the slots a drop changes that of its own. -/
theorem slotState_dropSlot {j : Nat} (hj : j < 4) (s : State) (slot : Nat) :
    slotState (dropSlot s slot) j = if j = slot then 0 else slotState s j := by
  have hage : Reg.epochStatusSlotSt.key ≠ (Reg.inflightDrainAge slot).key := by
    simp only [Fld.key, Reg.epochStatusSlotSt, Reg.inflightDrainAge]
    omega
  have hst : get (dropSlot s slot) Reg.epochStatusSlotSt = get (setSlotState s slot 0) Reg.epochStatusSlotSt :=
    (refreshStorage_regsSame _ _ (by decide)).trans (get_put_ne _ _ _ _ hage)
  rw [slotState_congr hst, slotState_setSlotState hj, Nat.zero_mod]

theorem recOf_dropSlot (s : State) (slot : Nat) {sect index : Nat} (hsect : sect < 2 ^ 16) (hindex : index < 2 ^ 32) :
    recOf (dropSlot s slot) slot sect index = none := by
  have hkey : (recKey slot sect index / 2 ^ 48 != slot) = false := by
    rw [recKey_slot hsect hindex, bne_self_eq_false]
  rw [recOf, dropSlot_env]
  exact SMap.find_keep_dropped (p := fun k _ => k / 2 ^ 48 != slot) (fun _ => hkey) s.env.policy

/-! A slot freed. -/

/-- The fragments that record a slot gone from their table (R143). -/
def withoutFrags (s : State) (slot : Nat) : State :=
  let gone := s.net.frags.filter fun e => e.2.slot == slot
  let left := bumpBy { s with net.frags := SMap.keep s.net.frags fun _ f => f.slot != slot } Reg.fragStatsFragExpired
    gone.length
  put left Reg.fragEntriesFragEntries left.net.frags.length

theorem withoutFrags_regsSame (s : State) (slot : Nat) :
    regsSame s (withoutFrags s slot) [Reg.fragStatsFragExpired, Reg.fragEntriesFragEntries] := by
  intro g hg
  have hexpired := keys_of_all hg (f := Reg.fragStatsFragExpired) (by simp)
  have hentries := keys_of_all hg (f := Reg.fragEntriesFragEntries) (by simp)
  exact (get_put_ne _ _ _ _ hentries).trans (get_bumpBy_ne _ _ _ _ hexpired)

/-- A draining slot that nothing uses is dropped, where no commit waits for it. -/
theorem slotFree_drops {s : State} {slot : Nat} (hdraining : slotState s slot = 3)
    (hunits : get s (Reg.inflightCount slot) = 0) (hlatches : (s.env.latches.any fun e => e.2 == slot) = false)
    (hcommit : get s Reg.commitStatusState ≠ 2) : slotFree s slot = dropSlot (withoutFrags s slot) slot := by
  have hage : Reg.commitStatusState.key ≠ (Reg.inflightDrainAge slot).key := by
    simp only [Fld.key, Reg.commitStatusState, Reg.inflightDrainAge]
    omega
  have hapart : (([Reg.epochStatusSlotSt, Reg.inflightDrainAge slot] ++ storageFlds).all fun f =>
      Reg.commitStatusState.key != f.key) = true := by
    have hslot : ([Reg.epochStatusSlotSt, Reg.inflightDrainAge slot].all fun f =>
        Reg.commitStatusState.key != f.key) = true := by
      simp only [List.all_cons, List.all_nil, bne_iff_ne.2 hage, Bool.and_true]
      decide
    rw [List.all_append, hslot, Bool.true_and]
    decide
  have hstate : get (dropSlot (withoutFrags s slot) slot) Reg.commitStatusState ≠ 2 := by
    rwa [dropSlot_regsSame _ _ _ hapart, withoutFrags_regsSame _ _ _ (by decide)]
  have hfree : slotState s slot = 3 ∧ get s (Reg.inflightCount slot) = 0 ∧
      !(s.env.latches.any fun e => e.2 == slot) := ⟨hdraining, hunits, by rw [hlatches]; rfl⟩
  rw [slotFree, if_pos hfree]
  exact if_neg hstate

/-! Latches. -/

/-- The fields of a master's latch lie apart, and apart from EPOCH_STATUS.LATCHED. -/
theorem latchFlds_apart (k : Nat) : (Reg.epochLatchSlot k).key ≠ (Reg.epochLatchValid k).key ∧
    (Reg.epochLatchSlot k).key ≠ Reg.epochStatusLatched.key ∧
    (Reg.epochLatchValid k).key ≠ Reg.epochStatusLatched.key := by
  simp only [Fld.key, Reg.epochLatchSlot, Reg.epochLatchValid, Reg.epochStatusLatched]
  omega

theorem get_epochLatch (s : State) (m : Master) :
    get (epochLatch s m) (Reg.epochLatchSlot (conflictCode m)) =
      curSlot s % 2 ^ (Reg.epochLatchSlot (conflictCode m)).width ∧
    get (epochLatch s m) (Reg.epochLatchValid (conflictCode m)) = 1 := by
  obtain ⟨hvalid, hslot, hshown⟩ := latchFlds_apart (conflictCode m)
  simp only [epochLatch, showLatched]
  rw [get_put_ne _ _ _ _ hslot, get_put_ne _ _ _ _ hshown, get_put_ne _ _ _ _ hvalid, get_put_same, get_put_same]
  exact ⟨rfl, rfl⟩

theorem epochLatch_regsSame (s : State) (m : Master) : regsSame s (epochLatch s m)
    [Reg.epochLatchSlot (conflictCode m), Reg.epochLatchValid (conflictCode m), Reg.epochStatusLatched] :=
  ((((regsSame.refl s _).congr rfl).put (by simp) _).put (by simp) _).put (by simp) _

theorem get_epochUnlatch (s : State) (m : Master) :
    get (epochUnlatch s m) (Reg.epochLatchValid (conflictCode m)) = 0 := by
  obtain ⟨-, -, hshown⟩ := latchFlds_apart (conflictCode m)
  simp only [epochUnlatch, showLatched]
  rw [get_put_ne _ _ _ _ hshown, get_put_same]
  rfl

theorem epochUnlatch_regsSame (s : State) (m : Master) : regsSame s (epochUnlatch s m)
    [Reg.epochLatchValid (conflictCode m), Reg.epochStatusLatched] :=
  (((regsSame.refl s _).congr rfl).put (by simp) _).put (by simp) _

/-- Settles O26: the rule for a drop gives the freeing of a slot, and the two latch writes their fields. -/
theorem latchesHoldAndFreeSlots : Obligations.LatchesHoldAndFreeSlots := by
  unfold Obligations.LatchesHoldAndFreeSlots
  refine ⟨fun s m hacc => ?_, fun s m hacc => ?_, fun s i hdraining hunits hlatches hcommit => ?_, fun s i hunits => ?_⟩
  case refine_1 =>
    obtain ⟨hslot, hvalid⟩ := get_epochLatch s m
    refine ⟨_, congrArg Host.Outcome.next (accessWrite_accepted s m 0x40090 (epochLatch · m) hacc), ?_⟩
    simp only [get_answered]
    refine ⟨?_, hslot, hvalid, regsSame_answered (epochLatch_regsSame s m) _ _ _, ?_⟩
    · rw [noteGrant_env, answer_env]
      exact SMap.find_set_same _ _ _
    · apply State.eq_of_parts <;> simp [epochLatch, showLatched]
  case refine_2 =>
    refine ⟨_, congrArg Host.Outcome.next (accessWrite_accepted s m 0x40090 (epochUnlatch · m) hacc), ?_⟩
    simp only [get_answered]
    refine ⟨?_, get_epochUnlatch s m, regsSame_answered (epochUnlatch_regsSame s m) _ _ _, ?_⟩
    · rw [noteGrant_env, answer_env]
      exact SMap.find_del_same _ _
    · apply State.eq_of_parts <;> simp [epochUnlatch, showLatched]
  case refine_3 =>
    have hstates (j : Fin 4) := slotState_dropSlot j.isLt (withoutFrags s i) i
    refine ⟨_, congrArg Host.Outcome.next (slotFree_drops hdraining hunits hlatches hcommit), ?_, ?_,
      fun sect index hsect hindex => recOf_dropSlot _ _ hsect hindex, fun j hj => ?_⟩
    · rw [hstates, if_pos rfl]
    · rw [dropSlot_env]
      exact SMap.find_del_same _ _
    · rw [hstates, if_neg (fun h => hj (Fin.ext h))]
      exact slotState_congr (withoutFrags_regsSame _ _ _ (by decide)) _
  case refine_4 =>
    refine congrArg Host.Outcome.next (if_neg fun h => ?_)
    obtain ⟨-, hnone, -⟩ := h
    omega

end Sys2Proof.Machine
end

section
/-!
The classifier's access port (R78, R154): what a write of CLS_ACC_CTL shows of the record it names, and what a probe's
lookup leaves.
-/
namespace Sys2Proof.Machine

/-! Runs of registers. -/

theorem forIdx_succ {σ : Type} (n : Nat) (f : Nat → σ → σ) (s : σ) : forIdx (n + 1) f s = f n (forIdx n f s) := by
  simp only [forIdx, List.range_succ, List.foldl_append, List.foldl_cons, List.foldl_nil]

theorem putWords_succ (s : State) (f : Nat → Fld) (n : Nat) (bs : List Byte) :
    putWords s f (n + 1) bs = put (putWords s f n bs) (f n) (leAt bs (4 * n) 4) := forIdx_succ _ _ _

theorem get_putWords_ne {g : Fld} {f : Nat → Fld} {n : Nat} (h : ∀ i < n, g.key ≠ (f i).key) (s : State)
    (bs : List Byte) : get (putWords s f n bs) g = get s g := by
  induction n with
  | zero => rfl
  | succ n ih =>
    rw [putWords_succ, get_put_ne _ _ _ _ (h n (Nat.lt_succ_self n))]
    exact ih fun i hi => h i (Nat.lt_succ_of_lt hi)

/-- Each of the registers holds its word. -/
theorem get_putWords_same {f : Nat → Fld} {n : Nat} (hapart : ∀ i j, (f i).key = (f j).key → i = j) (s : State)
    (bs : List Byte) {i : Nat} (hi : i < n) :
    get (putWords s f n bs) (f i) = leAt bs (4 * i) 4 % 2 ^ (f i).width := by
  induction n with
  | zero => omega
  | succ n ih =>
    rw [putWords_succ]
    by_cases hlast : i = n
    · rw [hlast, get_put_same]
    · rw [get_put_ne _ _ _ _ fun hkey => hlast (hapart _ _ hkey)]
      exact ih (by omega)

theorem regsSame.putWords {s t : State} {l : List Fld} (h : regsSame s t l) {f : Nat → Fld} {n : Nat}
    (hf : ∀ i < n, f i ∈ l) (bs : List Byte) : regsSame s (putWords t f n bs) l :=
  fun g hg => (get_putWords_ne (fun i hi => keys_of_all hg (hf i hi)) t bs).trans (h g hg)

theorem putWords_frame (s : State) (f : Nat → Fld) (n : Nat) (bs : List Byte) :
    putWords s f n bs = { s with regs := (putWords s f n bs).regs } := by
  induction n with
  | zero => rfl
  | succ n ih =>
    rw [putWords_succ, ih]
    rfl

theorem leNat_lt (bs : List Byte) : leNat bs < 2 ^ (8 * bs.length) := by
  induction bs with
  | nil => decide
  | cons b bs ih =>
    have hb : b.toNat < 2 ^ 8 := b.isLt
    have hlength : 2 ^ (8 * (b :: bs).length) = 2 ^ 8 * 2 ^ (8 * bs.length) := by
      rw [List.length_cons, ← pow_add]
      congr 1
      omega
    rw [leNat, hlength]
    omega

theorem leAt_lt (bs : List Byte) (o n : Nat) : leAt bs o n < 2 ^ (8 * n) := by
  have hlength : (slice bs o n).length = n := by simp [slice]
  have hbound := leNat_lt (slice bs o n)
  rwa [hlength] at hbound

/-! Views. -/

/-- A view names its slot by the latches, the current slot and the states of the slots. -/
theorem viewSlot_congr {s t : State} (henv : t.env = s.env)
    (hstates : get t Reg.epochStatusSlotSt = get s Reg.epochStatusSlotSt)
    (hcur : get t Reg.epochStatusCur = get s Reg.epochStatusCur) (m : Master) (view slot : Nat) :
    viewSlot t m view slot = viewSlot s m view slot := by
  unfold viewSlot slotState curSlot
  rw [henv, hstates, hcur]

theorem membership_congr {s t : State} (henv : t.env = s.env)
    (hstates : get t Reg.epochStatusSlotSt = get s Reg.epochStatusSlotSt) (key : Nat) (body : List Byte) :
    membership t key body = membership s key body := by
  simp only [membership, slotState, henv, hstates]

theorem recOf_congr {s t : State} (henv : t.env = s.env) (slot sect index : Nat) :
    recOf t slot sect index = recOf s slot sect index := by
  simp only [recOf, henv]

/-! CLS_ACC_CTL. -/

/-- The fields of CLS_ACC_CTL that a write sets. -/
def clsCtlFlds : List Fld := [Reg.clsAccCtlTable, Reg.clsAccCtlIndex, Reg.clsAccCtlView, Reg.clsAccCtlSlot]

/-- CLS_ACC_CTL written, before it acts. -/
def clsNamed (s : State) (w : Nat) : State :=
  put (put (put (put s Reg.clsAccCtlTable (bitsAt w 2 3)) Reg.clsAccCtlIndex (bitsAt w 5 15)) Reg.clsAccCtlView
    (bitsAt w 20 2)) Reg.clsAccCtlSlot (bitsAt w 22 2)

theorem clsNamed_regsSame (s : State) (w : Nat) : regsSame s (clsNamed s w) clsCtlFlds :=
  ((((regsSame.refl s _).put (by decide) _).put (by decide) _).put (by decide) _).put (by decide) _

theorem get_clsNamed (s : State) (w : Nat) : get (clsNamed s w) Reg.clsAccCtlTable = bitsAt w 2 3 ∧
    get (clsNamed s w) Reg.clsAccCtlIndex = bitsAt w 5 15 ∧ get (clsNamed s w) Reg.clsAccCtlView = bitsAt w 20 2 ∧
    get (clsNamed s w) Reg.clsAccCtlSlot = bitsAt w 22 2 := by
  have hcut (l n : Nat) : bitsAt w l n % 2 ^ n = bitsAt w l n := Nat.mod_eq_of_lt (bitsAt_lt _ _ _)
  simp (disch := decide) only [clsNamed, get_put_ne, get_put_same]
  exact ⟨hcut _ _, hcut _ _, hcut _ _, hcut _ _⟩

/-- What a table read answers for a view: STATUS, the membership mask and the record's bytes. -/
def clsAnswer (s : State) (sect index : Nat) (view : Option Nat) : Nat × Nat × List Byte :=
  match view with
  | none => (1, 0, [])
  | some e =>
    match recOf s e sect index with
    | some b => (0, membership s (sect * 2 ^ 32 + index) b, b)
    | none => (2, 0, [])

/-- A read of a table that holds a section's records shows the answer of its view. -/
theorem clsCtl_reads {s : State} {m : Master} {w sect : Nat} (hread : bitAt w 0 = true) (hprobe : bitAt w 1 = false)
    (htable : bitsAt w 2 3 ≠ 3) (hsect : clsSection (bitsAt w 2 3) = some sect) {a : Nat × Nat × List Byte}
    (ha : clsAnswer s sect (bitsAt w 5 15) (viewSlot s m (bitsAt w 20 2) (bitsAt w 22 2)) = a) :
    clsCtl s m w = clsResult (clsNamed s w) a.1 a.2.1 a.2.2 := by
  obtain ⟨htab, hidx, hview, hslot⟩ := get_clsNamed s w
  have hnamed : clsCtl s m w = clsRead (clsNamed s w) m := by
    simp only [clsCtl, hread, hprobe, if_true, Bool.false_eq_true, if_false]
    rfl
  have henv : (clsNamed s w).env = s.env := rfl
  have hstates := clsNamed_regsSame s w Reg.epochStatusSlotSt (by decide)
  have hcur := clsNamed_regsSame s w Reg.epochStatusCur (by decide)
  rw [hnamed, ← ha]
  unfold clsRead clsAnswer
  simp only [htab, hidx, hview, hslot, htable, if_false, hsect, viewSlot_congr henv hstates hcur]
  cases viewSlot s m (bitsAt w 20 2) (bitsAt w 22 2) with
  | none => rfl
  | some e =>
    simp only [recOf_congr henv, membership_congr henv hstates]
    cases recOf s e sect (bitsAt w 5 15) <;> rfl

/-! Results of table reads. -/

theorem clsAccData_apart (i j : Nat) (h : (Reg.clsAccData i).key = (Reg.clsAccData j).key) : i = j := by
  simp only [Fld.key, Reg.clsAccData] at h
  omega

theorem clsAccData_above {f : Fld} (hf : f.key < 0x600040 * 32) (i : Nat) : f.key ≠ (Reg.clsAccData i).key := by
  simp only [Fld.key, Reg.clsAccData] at hf ⊢
  omega

theorem get_clsResult (s : State) (status mask : Nat) (bs : List Byte) :
    get (clsResult s status mask bs) Reg.clsAccStatusStatus = status % 2 ^ 4 ∧
    get (clsResult s status mask bs) Reg.clsAccCtlDone = 1 ∧
    get (clsResult s status mask bs) Reg.clsAccStatusMask = mask % 2 ^ Reg.clsAccStatusMask.width := by
  have hwords (f : Fld) (hf : f.key < 0x600040 * 32) (u : State) :
      get (putWords u Reg.clsAccData 48 bs) f = get u f :=
    get_putWords_ne (fun i _ => clsAccData_above hf i) u bs
  simp only [clsResult]
  refine ⟨?_, get_put_same _ _ _, ?_⟩
  · rw [get_put_ne _ _ _ _ (by decide), hwords _ (by decide), get_put_ne _ _ _ _ (by decide), get_put_same]
    rfl
  · rw [get_put_ne _ _ _ _ (by decide), hwords _ (by decide), get_put_same]

theorem get_clsResult_data (s : State) (status mask : Nat) (bs : List Byte) {i : Nat} (hi : i < 48) :
    get (clsResult s status mask bs) (Reg.clsAccData i) = leAt bs (4 * i) 4 := by
  have hdone : (Reg.clsAccData i).key ≠ Reg.clsAccCtlDone.key := (clsAccData_above (by decide) i).symm
  rw [clsResult, get_put_ne _ _ _ _ hdone, get_putWords_same clsAccData_apart _ _ hi]
  exact Nat.mod_eq_of_lt (leAt_lt _ _ _)

theorem regsSame.clsResult {s t : State} {l : List Fld} (h : regsSame s t l)
    (hl : ∀ f ∈ [Reg.clsAccStatusStatus, Reg.clsAccStatusMask, Reg.clsAccCtlDone], f ∈ l)
    (hdata : ∀ i < 48, Reg.clsAccData i ∈ l) (status mask : Nat) (bs : List Byte) :
    regsSame s (clsResult t status mask bs) l := by
  have hstatus := (h.put (hl Reg.clsAccStatusStatus (by simp)) status).put (hl Reg.clsAccStatusMask (by simp)) mask
  exact (hstatus.putWords hdata bs).put (hl Reg.clsAccCtlDone (by simp)) 1

theorem clsResult_frame (s : State) (status mask : Nat) (bs : List Byte) :
    clsResult s status mask bs = { s with regs := (clsResult s status mask bs).regs } := by
  rw [clsResult, putWords_frame]
  rfl

/-- A table read that is accepted. -/
theorem clsAccRead_accepted {s : State} {m : Master} {w : Word} {sect : Nat} (hacc : accepts s m 0x600000 = true)
    (hread : bitAt w.toNat 0 = true) (hprobe : bitAt w.toNat 1 = false) (htable : bitsAt w.toNat 2 3 ≠ 3)
    (hsect : clsSection (bitsAt w.toNat 2 3) = some sect) {a : Nat × Nat × List Byte}
    (ha : clsAnswer s sect (bitsAt w.toNat 5 15) (viewSlot s m (bitsAt w.toNat 20 2) (bitsAt w.toNat 22 2)) = a) :
    exec (.clsAccRead m w) s = .next
      (noteGrant (answer (clsResult (clsNamed s w.toNat) a.1 a.2.1 a.2.2) m .done) 0x600000 m) := by
  have haccess := accessWrite_accepted s m 0x600000 (clsCtl · m w.toNat) hacc
  rw [clsCtl_reads hread hprobe htable hsect ha] at haccess
  exact congrArg Host.Outcome.next haccess

/-! Probes. -/

/-- A probe that waits for a pipeline cycle. -/
def probeWaits (s : State) (w e : Nat) : State :=
  put { clsNamed s w with net.probing := some (e, s.time.now) } Reg.clsAccCtlDone 0

theorem clsCtl_probes {s : State} {m : Master} {w e : Nat} (hread : bitAt w 0 = false) (hprobe : bitAt w 1 = true)
    (he : viewSlot s m (bitsAt w 20 2) (bitsAt w 22 2) = some e) : clsCtl s m w = probeWaits s w e := by
  obtain ⟨-, -, hview, hslot⟩ := get_clsNamed s w
  have hnamed : clsCtl s m w = probeRequest (clsNamed s w) m := by
    simp only [clsCtl, hread, hprobe, if_true, Bool.false_eq_true, if_false]
    rfl
  have henv : (clsNamed s w).env = s.env := rfl
  have hstates := clsNamed_regsSame s w Reg.epochStatusSlotSt (by decide)
  have hcur := clsNamed_regsSame s w Reg.epochStatusCur (by decide)
  rw [hnamed, probeRequest, hview, hslot, viewSlot_congr henv hstates hcur, he]
  rfl

theorem probeWaits_regsSame (s : State) (w e : Nat) :
    regsSame s (probeWaits s w e) (clsCtlFlds ++ [Reg.clsAccCtlDone]) := by
  have hnamed : regsSame s (clsNamed s w) (clsCtlFlds ++ [Reg.clsAccCtlDone]) :=
    (clsNamed_regsSame s w).mono fun _ hf => List.mem_append_left _ hf
  exact (hnamed.congr rfl).put (by simp) _

theorem get_probeResult (s : State) (status rule : Nat) :
    get (probeResult s status rule) Reg.clsAccStatusStatus = status % 2 ^ 4 ∧
    get (probeResult s status rule) Reg.clsAccCtlDone = 1 ∧
    get (probeResult s status rule) Reg.clsAccStatusResultRule = rule % 2 ^ 16 := by
  simp (disch := decide) only [probeResult, get_put_ne, get_put_same]
  exact ⟨rfl, rfl, rfl⟩

theorem probeResult_regsSame (s : State) (status rule : Nat) : regsSame s (probeResult s status rule)
    [Reg.clsAccStatusStatus, Reg.clsAccStatusResultRule, Reg.clsAccCtlDone] :=
  ((((regsSame.refl s _).congr rfl).put (by simp) _).put (by simp) _).put (by simp) _

/-- The pipeline cycle that a probe takes, counted as front-starved (R154, R375). -/
def probeCycle (s : State) : State := { countSlot s Reg.slotFront with net.slotUsed := s.net.slotUsed + 1 }

/-- A probe that finds its cycle within 10 us. -/
theorem probeLookup_finds {s : State} {e at_ : Nat} (hprobing : s.net.probing = some (e, at_)) (hslot : slotState s e ≠ 0)
    (hsoon : s.time.now ≤ at_ + 10000) : probeLookup s true = probeResult (probeCycle s) 0
      (((winner s e (beNat (regBytes s 20 Reg.clsAccData))).map fun x => x.1).getD 0xFFFF) := by
  simp only [probeLookup, hprobing, hslot, if_false, if_neg (Nat.not_lt.2 hsoon), Bool.not_true, Bool.false_eq_true]
  rfl

theorem probeLookup_late {s : State} {e at_ : Nat} (hprobing : s.net.probing = some (e, at_)) (hslot : slotState s e ≠ 0)
    (hlate : at_ + 10000 < s.time.now) (free : Bool) : probeLookup s free = probeResult s 3 0xFFFF := by
  simp only [probeLookup, hprobing, hslot, if_false, hlate, if_true]

/-- The counts of cycles after a probe's cycle. -/
theorem get_probeCycle (s : State) : get (probeCycle s) Reg.slotTotal = (get s Reg.slotTotal + 1) % 2 ^ 64 ∧
    get (probeCycle s) Reg.slotFront = (get s Reg.slotFront + 1) % 2 ^ 64 ∧
    get (probeCycle s) Reg.slotRetired = get s Reg.slotRetired ∧
    get (probeCycle s) Reg.slotWasted = get s Reg.slotWasted ∧ get (probeCycle s) Reg.slotBack = get s Reg.slotBack := by
  have hget (f : Fld) : get (probeCycle s) f = get (countSlot s Reg.slotFront) f := get_congr _ _ _ rfl
  simp only [hget]
  simp (disch := decide) only [countSlot, count64, get_put_ne, get_put_same]
  exact ⟨rfl, rfl, trivial, trivial, trivial⟩

theorem slotsAddUp_of_front {s t : State} (hadd : slotsAddUp s)
    (htotal : get t Reg.slotTotal = (get s Reg.slotTotal + 1) % 2 ^ 64)
    (hfront : get t Reg.slotFront = (get s Reg.slotFront + 1) % 2 ^ 64)
    (hretired : get t Reg.slotRetired = get s Reg.slotRetired) (hwasted : get t Reg.slotWasted = get s Reg.slotWasted)
    (hback : get t Reg.slotBack = get s Reg.slotBack) : slotsAddUp t := by
  simp only [slotsAddUp, htotal, hfront, hretired, hwasted, hback] at hadd ⊢
  omega

/-- Settles O34: what a view answers is shown word by word, and a probe's lookup adds its cycle to the counts. -/
theorem classifierTablesAndProbes : Obligations.ClassifierTablesAndProbes := by
  unfold Obligations.ClassifierTablesAndProbes
  refine ⟨fun s m w sect e b hacc hread hprobe htable hsect hview hrec => ?_,
    fun s m w sect e hacc hread hprobe htable hsect hview hrec => ?_,
    fun s m w sect hacc hread hprobe htable hsect hview => ?_, fun s m w e hacc hread hprobe hview => ?_,
    fun s e at_ hprobing hslot hsoon => ?_, fun s e at_ free hprobing hslot hlate => ?_⟩
  case refine_1 =>
    have hexec := clsAccRead_accepted hacc hread hprobe htable hsect 
      (a := (0, membership s (sect * 2 ^ 32 + bitsAt w.toNat 5 15) b, b)) (by simp only [clsAnswer, hview, hrec])
    obtain ⟨hstatus, hdone, hmask⟩ := get_clsResult (clsNamed s w.toNat) 0
      (membership s (sect * 2 ^ 32 + bitsAt w.toNat 5 15) b) b
    refine ⟨_, hexec, ?_⟩
    simp only [get_answered]
    refine ⟨hstatus, hdone, hmask, fun i hi => get_clsResult_data _ _ _ _ hi, regsSame_answered ?_ _ _ _, ?_⟩
    · refine ((clsNamed_regsSame s w.toNat).mono (by simp [clsCtlFlds])).clsResult (by simp) (fun i hi => ?_) _ _ _
      exact List.mem_append_right _ (List.mem_map_of_mem (List.mem_range.2 hi))
    · rw [clsResult_frame]
      apply State.eq_of_parts <;> simp [clsNamed]
  case refine_2 =>
    have hexec := clsAccRead_accepted hacc hread hprobe htable hsect (a := (2, 0, []))
      (by simp only [clsAnswer, hview, hrec])
    obtain ⟨hstatus, hdone, -⟩ := get_clsResult (clsNamed s w.toNat) 2 0 []
    refine ⟨_, hexec, ?_⟩
    simp only [get_answered]
    exact ⟨hstatus, hdone⟩
  case refine_3 =>
    have hexec := clsAccRead_accepted hacc hread hprobe htable hsect (a := (1, 0, [])) (by simp only [clsAnswer, hview])
    obtain ⟨hstatus, hdone, -⟩ := get_clsResult (clsNamed s w.toNat) 1 0 []
    refine ⟨_, hexec, ?_⟩
    simp only [get_answered]
    exact ⟨hstatus, hdone⟩
  case refine_4 =>
    have haccess := accessWrite_accepted s m 0x600000 (clsCtl · m w.toNat) hacc
    rw [clsCtl_probes hread hprobe hview] at haccess
    refine ⟨_, congrArg Host.Outcome.next haccess, ?_⟩
    simp only [get_answered]
    refine ⟨?_, get_put_same _ _ _, regsSame_answered (probeWaits_regsSame s w.toNat e) _ _ _, ?_⟩
    · rw [noteGrant_net, answer_net]
      rfl
    · apply State.eq_of_parts <;> simp [probeWaits, clsNamed]
  case refine_5 =>
    obtain ⟨htotal, hfront, hretired, hwasted, hback⟩ := get_probeCycle s
    obtain ⟨hstatus, hdone, hrule⟩ := get_probeResult (probeCycle s) 0
      (((winner s e (beNat (regBytes s 20 Reg.clsAccData))).map fun x => x.1).getD 0xFFFF)
    have hkept := probeResult_regsSame (probeCycle s) 0
      (((winner s e (beNat (regBytes s 20 Reg.clsAccData))).map fun x => x.1).getD 0xFFFF)
    rw [← hkept _ (by decide)] at htotal hfront hretired hwasted hback
    exact ⟨_, congrArg Host.Outcome.next (probeLookup_finds hprobing hslot hsoon), rfl, hstatus, hdone, hrule, htotal,
      hfront, fun hadd => slotsAddUp_of_front hadd htotal hfront hretired hwasted hback, rfl⟩
  case refine_6 =>
    obtain ⟨hstatus, hdone, -⟩ := get_probeResult s 3 0xFFFF
    exact ⟨_, congrArg Host.Outcome.next (probeLookup_late hprobing hslot hlate free), rfl, hstatus, hdone,
      probeResult_regsSame s 3 0xFFFF⟩

end Sys2Proof.Machine
end

section
/-!
Learned entries (R78, R111): the entries that FDB_FLUSH names go, ageing takes one not hit for AGE_TIME, and FDB_ACC shows
an entry under any view.
-/
namespace Sys2Proof.Machine

/-! The count shown. -/

theorem get_showLearned (s : State) : get (showLearned s) Reg.fdbStatusLearned = min 65535 s.net.learned.length := by
  rw [showLearned, get_put_same]
  exact Nat.mod_eq_of_lt (Nat.lt_of_le_of_lt (Nat.min_le_left _ _) (by decide))

/-! Flushing. -/

/-- The entries that FDB_CTL names by port and FID (R111). -/
def flushHits (w : Nat) (e : Learned) : Bool :=
  (!bitAt w 1 || e.port == bitsAt w 3 6) && (!bitAt w 2 || e.fid == bitsAt w 12 12)

theorem flushHits_iff (w : Nat) (e : Learned) : flushHits w e = true ↔
    (bitAt w 1 = true → e.port = bitsAt w 3 6) ∧ (bitAt w 2 = true → e.fid = bitsAt w 12 12) := by
  simp only [flushHits, Bool.and_eq_true, Bool.or_eq_true, Bool.not_eq_true', beq_iff_eq, ← Bool.not_eq_true,
    ← imp_iff_not_or]

/-- A flush in progress: the entries it names are gone. -/
def flushing (s : State) (w : Nat) : State :=
  put { s with net.learned := SMap.keep s.net.learned fun _ e => !flushHits w e } Reg.fdbStatusFlushBusy 1

theorem fdbFlush_starts {s : State} {w : Nat} (hflush : bitAt w 0 = true) (hidle : flag s Reg.fdbStatusFlushBusy = false) :
    fdbFlush s w = showLearned (flushing s w) := by
  unfold fdbFlush
  rw [if_neg (by simp [hflush, hidle])]
  rfl

/-- Exactly the entries that the flush does not name are left. -/
theorem mem_flushing (s : State) (w : Nat) (x : Nat × Learned) : x ∈ (flushing s w).net.learned ↔
    x ∈ s.net.learned ∧
      ¬ ((bitAt w 1 = true → x.2.port = bitsAt w 3 6) ∧ (bitAt w 2 = true → x.2.fid = bitsAt w 12 12)) := by
  rw [← flushHits_iff, Bool.not_eq_true, ← Bool.not_eq_true']
  exact List.mem_filter (p := fun e : Nat × Learned => !flushHits w e.2)

/-! Ageing. -/

/-- One learned entry gone. -/
def aged (s : State) (i : Nat) : State := { s with net.learned := s.net.learned.del i }

theorem fdbAgeing_removes {s : State} {i : Nat} {e : Learned} (haloft : aloft s = true)
    (he : s.net.learned.find i = some e) (hage : get s Reg.swCfgAgeTime ≠ 0)
    (hold : e.hitAt + get s Reg.swCfgAgeTime * 1000000000 ≤ s.time.now) :
    fdbAgeing s i = showLearned (aged s i) := by
  simp only [fdbAgeing, he, if_pos (And.intro haloft (And.intro hage hold))]
  rfl

theorem fdbAgeing_off {s : State} (h : get s Reg.swCfgAgeTime = 0) (i : Nat) : fdbAgeing s i = s := by
  unfold fdbAgeing
  dsimp only
  split
  · rw [if_neg fun hdue => hdue.2.1 h]
  · rfl

/-! Entries read. -/

/-- FDB_ACC_CTL written, before it reads. -/
def fdbNamed (s : State) (w : Nat) : State :=
  put (put (put s Reg.fdbAccCtlIndex (bitsAt w 1 15)) Reg.fdbAccCtlView (bitsAt w 16 2)) Reg.fdbAccCtlSlot (bitsAt w 18 2)

theorem fdbNamed_regsSame (s : State) (w : Nat) :
    regsSame s (fdbNamed s w) [Reg.fdbAccCtlIndex, Reg.fdbAccCtlView, Reg.fdbAccCtlSlot] :=
  (((regsSame.refl s _).put (by decide) _).put (by decide) _).put (by decide) _

/-- FDB_ACC_INFO of a learned entry. -/
def learnedInfo (l : Learned) : Nat := l.fid + 2 ^ 12 + 2 ^ 16 * l.port

/-- Seconds since a learned entry was hit, as FDB_ACC_AGE shows them. -/
def learnedAge (s : State) (l : Learned) : Nat := min (2 ^ 20 - 1) ((s.time.now - l.hitAt) / 1000000000)

/-- A learned entry reads alike in every view that has a slot. -/
theorem fdbAccCtl_learned {s : State} {m : Master} {w e : Nat} {l : Learned} (hread : bitAt w 0 = true)
    (he : viewSlot s m (bitsAt w 16 2) (bitsAt w 18 2) = some e) (hl : s.net.learned.find (bitsAt w 1 15) = some l) :
    fdbAccCtl s m w = fdbResult (fdbNamed s w) 0 0 (learnedAge s l) l.mac (learnedInfo l) := by
  have hview : viewSlot (fdbNamed s w) m (bitsAt w 16 2) (bitsAt w 18 2) = some e := by
    have hstates := fdbNamed_regsSame s w Reg.epochStatusSlotSt (by decide)
    have hcur := fdbNamed_regsSame s w Reg.epochStatusCur (by decide)
    have henv : (fdbNamed s w).env = s.env := rfl
    rw [viewSlot_congr henv hstates hcur, he]
  have hlearned : (fdbNamed s w).net.learned.find (bitsAt w 1 15) = some l := hl
  unfold fdbAccCtl
  simp only [hread, Bool.not_true, Bool.false_eq_true, if_false]
  simp only [fdbNamed] at hview hlearned
  simp only [hview, hlearned]
  rfl

/-- The fields of FDB_ACC_INFO of a learned entry whose FID and port lie within theirs. -/
theorem learnedInfo_fields {l : Learned} (hfid : l.fid < 4096) (hport : l.port < 64) :
    bitsAt (learnedInfo l) 0 12 = l.fid ∧ bitsAt (learnedInfo l) 12 1 = 1 ∧ bitsAt (learnedInfo l) 13 1 = 0 ∧
    bitsAt (learnedInfo l) 16 15 = l.port := by
  simp only [bitsAt, Nat.shiftRight_eq_div_pow, learnedInfo]
  omega

theorem get_fdbResult (s : State) (status mask age : Nat) (mac : List Byte) (info : Nat) :
    get (fdbResult s status mask age mac info) Reg.fdbAccAgeStatus = status % 2 ^ 4 ∧
    get (fdbResult s status mask age mac info) Reg.fdbAccCtlDone = 1 ∧
    get (fdbResult s status mask age mac info) Reg.fdbAccMacLo = leAt mac 0 4 ∧
    get (fdbResult s status mask age mac info) Reg.fdbAccMacHi = leAt mac 4 2 ∧
    get (fdbResult s status mask age mac info) Reg.fdbAccInfoFid = bitsAt info 0 12 ∧
    get (fdbResult s status mask age mac info) Reg.fdbAccInfoDest = bitsAt info 16 15 ∧
    get (fdbResult s status mask age mac info) Reg.fdbAccInfoValid = bitsAt info 12 1 ∧
    get (fdbResult s status mask age mac info) Reg.fdbAccInfoStatic = bitsAt info 13 1 := by
  have hcut (lsb n : Nat) : bitsAt info lsb n % 2 ^ n = bitsAt info lsb n := Nat.mod_eq_of_lt (bitsAt_lt _ _ _)
  simp (disch := decide) only [fdbResult, get_put_ne, get_put_same]
  exact ⟨rfl, rfl, Nat.mod_eq_of_lt (leAt_lt _ _ _), Nat.mod_eq_of_lt (leAt_lt _ _ _), hcut _ _, hcut _ _, hcut _ _,
    hcut _ _⟩

theorem fdbResult_net (s : State) (status mask age : Nat) (mac : List Byte) (info : Nat) :
    (fdbResult s status mask age mac info).net = s.net := by
  simp only [fdbResult, put_net]

/-- Settles O38, clause by clause: what a flush and ageing leave of the learned entries, and the entry shown. -/
theorem learnedEntriesFlushAndAge : Obligations.LearnedEntriesFlushAndAge := by
  unfold Obligations.LearnedEntriesFlushAndAge
  refine ⟨fun s m w hacc hflush hidle => ?_, fun s => ?_, fun s i e haloft he hage hold => ?_, fun s i hage => ?_,
    fun s m w e l hacc hread he hl hfid hport => ?_⟩
  case refine_1 =>
    have haccess := accessWrite_accepted s m 0x500010 (fdbFlush · w.toNat) hacc
    rw [fdbFlush_starts hflush hidle] at haccess
    have hbusy : get (showLearned (flushing s w.toNat)) Reg.fdbStatusFlushBusy = 1 :=
      (get_put_ne _ _ _ _ (by decide)).trans (get_put_same _ _ _)
    have hsame : regsSame s (showLearned (flushing s w.toNat)) [Reg.fdbStatusFlushBusy, Reg.fdbStatusLearned] :=
      (((regsSame.refl s _).congr rfl).put (by simp) _).put (by simp) _
    refine ⟨_, congrArg Host.Outcome.next haccess, ?_⟩
    simp only [get_answered, noteGrant_net, answer_net]
    refine ⟨hbusy, mem_flushing s w.toNat, get_showLearned _, rfl, regsSame_answered hsame _ _ _, ?_⟩
    apply State.eq_of_parts <;> simp [showLearned, flushing]
  case refine_2 =>
    exact ⟨_, rfl, get_put_same _ _ _, (regsSame.refl s _).put (by simp) _, rfl⟩
  case refine_3 =>
    have hsame : regsSame s (showLearned (aged s i)) [Reg.fdbStatusLearned] :=
      ((regsSame.refl s _).congr rfl).put (by simp) _
    refine ⟨_, congrArg Host.Outcome.next (fdbAgeing_removes haloft he hage hold), ?_, fun k hk => ?_,
      get_showLearned _, hsame, rfl⟩
    · exact SMap.find_del_same s.net.learned i
    · exact SMap.find_del_ne s.net.learned i k hk
  case refine_4 => exact congrArg Host.Outcome.next (fdbAgeing_off hage i)
  case refine_5 =>
    have haccess := accessWrite_accepted s m 0x500040 (fdbAccCtl · m w.toNat) hacc
    rw [fdbAccCtl_learned hread he hl] at haccess
    obtain ⟨hstatus, hdone, hlo, hhi, hshown, hdest, hvalid, hstatic⟩ :=
      get_fdbResult (fdbNamed s w.toNat) 0 0 (learnedAge s l) l.mac (learnedInfo l)
    obtain ⟨hinfoFid, hinfoValid, hinfoStatic, hinfoDest⟩ := learnedInfo_fields hfid hport
    refine ⟨_, congrArg Host.Outcome.next haccess, ?_⟩
    simp only [get_answered, noteGrant_net, answer_net, fdbResult_net]
    exact ⟨hstatus, hdone, hlo, hhi, hshown.trans hinfoFid, hdest.trans hinfoDest, hvalid.trans hinfoValid,
      hstatic.trans hinfoStatic, rfl⟩

end Sys2Proof.Machine
end

section
/-!
Frames received on a LIN channel (R211, R218). A frame received takes the number of the current slot and is counted among
that slot's units in flight. The statement bounds no number: EPOCH_STATUS.CUR beyond the four slots puts that count on
another register.
-/
namespace Sys2Proof.Machine

/-- The number of a slot whose INFLIGHT, four bytes a slot, lies on RX_FRAMES of the first LIN channel. -/
def straySlot : Nat := ((Reg.chRxFrames 16).addr - (Reg.inflightCount 0).addr) / 4

/-- A schedule that awaits a response of no bytes to frame 0. -/
def awaitedRun : LinRun := ⟨0, [], 0, 0, 0, some (0, 0), none⟩

/-- A device with that slot as the current one, whose first LIN channel runs this schedule. -/
def strayLin : State :=
  { State.reset with regs := [(Reg.epochStatusCur.key, straySlot)], edge.lin := [(16, awaitedRun)] }

/-- The one response counts twice in RX_FRAMES: as a frame received, and as a unit in flight. -/
theorem rxFrames_of_stray :
    get (linResponse strayLin 16 [] (linCsum (linClassic awaitedRun 0) 0 [])) (Reg.chRxFrames 16) = 2 := by
  decide +kernel

/-- Refutes O45: a response in time need not raise RX_FRAMES by one. Under a current slot beyond the four there are, its
tag raises the counter again. -/
theorem not_linAndFreshness : ¬ Obligations.LinAndFreshness := by
  unfold Obligations.LinAndFreshness
  intro h
  obtain ⟨-, -, hresponse, -⟩ := h
  obtain ⟨t, ht, -, hframes⟩ := hresponse strayLin 0 awaitedRun 0 [] rfl rfl (Nat.zero_le _)
  obtain rfl : linResponse strayLin 16 [] (linCsum (linClassic awaitedRun 0) 0 []) = t := Host.Outcome.next.inj ht
  have hdue : get (linResponse strayLin 16 [] (linCsum (linClassic awaitedRun 0) 0 [])) (Reg.chRxFrames 16) =
      min (2 ^ (Reg.chRxFrames 16).width - 1) (get strayLin (Reg.chRxFrames 16) + 1) := hframes
  have hbefore : get strayLin (Reg.chRxFrames 16) = 0 := rfl
  rw [rxFrames_of_stray, hbefore] at hdue
  exact absurd hdue (by decide)

end Sys2Proof.Machine
end

section
/-!
The speed of a lane that comes up (R81, R84, R87). PORT_STATUS.SPEED holds four bits. A SERDES entry whose SPEED field is 7,
beyond the 5 that R84 allows, brings its lane up with the code 8, which the field holds and the statement cuts to three bits.
-/
namespace Sys2Proof.Machine

/-- A device aloft whose P12 is enabled and down, with its lane in USXGMII without INBAND_AN and with the SPEED field 7. -/
def strayLane : State :=
  { State.reset with
    boot.phase := .aloft
    regs := [((Reg.portModeMode 12).key, 1)]
    env.structural := [(0x0011, [3, 0, 7 * 8])]
    env.cmt := [(slotKey 0 (Reg.portCtlAdminEn 12), 1)] }

theorem laneSpeed_strayLane : laneSpeed strayLane 0 0 = some 8 := by decide +kernel

/-- The lane comes up with the speed code 8. -/
theorem speed_of_strayLane : get (laneUp strayLane 0 0) (Reg.portStatusSpeed 12) = 8 := by decide +kernel

/-- Refutes O31: SPEED of a lane that comes up need not be its speed code's lowest three bits. It is the code's lowest four,
and a SERDES entry can give the code 8. -/
theorem not_linksTrainAndChange : ¬ Obligations.LinksTrainAndChange := by
  unfold Obligations.LinksTrainAndChange
  intro h
  obtain ⟨-, -, -, -, -, -, -, hlaneUp, -⟩ := h
  have hdown : linkState strayLane 12 = 0 := rfl
  have henabled : cur strayLane (Reg.portCtlAdminEn 12) = 1 := rfl
  have hmode : get strayLane (Reg.portModeMode 12) = 1 := rfl
  obtain ⟨t, ht, -, -, hspeed, -⟩ := hlaneUp strayLane 0 0 8 rfl (ne_of_eq_of_ne hdown (by decide))
    (ne_of_eq_of_ne henabled (by decide)) (ne_of_eq_of_ne hmode (by decide)) (by decide +kernel) laneSpeed_strayLane
  obtain rfl : laneUp strayLane 0 0 = t := Host.Outcome.next.inj ht
  have hcut : get (laneUp strayLane 0 0) (Reg.portStatusSpeed 12) = 8 % 8 := hspeed
  rw [speed_of_strayLane] at hcut
  exact absurd hcut (by decide)

end Sys2Proof.Machine
end

section
/-!
Port events and their level source, PLCA status, verification of preemption and partial networks (R89, R93, R276, R278).
-/
namespace Sys2Proof.Machine

/-! Fields of the ports' registers. -/

/-- A field of the registers of P0 to P47, from PORT_MODE of P0 on and below the buffer's. -/
def portKey (f : Fld) : Prop := 0x200000 * 32 ≤ f.key ∧ f.key < 0x500000 * 32

/-- The fields of a port that events, PLCA status and verification write. -/
def portFlds (p : Nat) : List Fld :=
  portEventFlds p ++ [Reg.portStatusPlcaActive p, Reg.preemptStatusVerifySt p, Reg.preemptStatusActive p]

theorem portKey_of_mem {p : Nat} (hp : p < 48) {f : Fld} (hf : f ∈ portFlds p) : portKey f := by
  simp only [portFlds, portEventFlds, List.cons_append, List.nil_append, List.mem_cons, List.not_mem_nil, or_false] at hf
  rcases hf with rfl | rfl | rfl | rfl | rfl | rfl | rfl | rfl | rfl <;>
    simp only [portKey, Fld.key, Reg.portEventsLinkChange, Reg.portEventsTrainFail, Reg.portEventsPlca,
      Reg.portEventsVerifyFail, Reg.portEventsPnThresh, Reg.portEventsPnExhausted, Reg.portStatusPlcaActive,
      Reg.preemptStatusVerifySt, Reg.preemptStatusActive] <;> omega

/-! Levels and events. -/

/-- What a rising level may change: the level, and what its source's raising may. -/
def levelFields (n : Nat) : List Fld := Reg.srcCfgLevel n :: raiseFields n

theorem regsSame_setLevel {s t : State} {l : List Fld} (h : regsSame s t l) {n : Nat} (hn : ∀ f ∈ levelFields n, f ∈ l)
    (high : Bool) : regsSame s (setLevel t n high) l := by
  have hlevel : regsSame s (putFlag t (Reg.srcCfgLevel n) high) l := h.putFlag (hn _ List.mem_cons_self) high
  unfold setLevel
  dsimp only
  split
  · exact hlevel.raise n fun f hf => hn f (List.mem_cons_of_mem _ hf)
  · split
    · exact hlevel.congr rfl
    · exact hlevel

theorem regsSame_portEvent {s t : State} {l : List Fld} (h : regsSame s t l) {p : Nat} {f : Fld} (hf : f ∈ l)
    (hp : ∀ f ∈ levelFields (64 + p), f ∈ l) : regsSame s (portEvent t p f) l := regsSame_setLevel (h.put hf 1) hp true

theorem levelFields_apart {n : Nat} (hn : n < 2048) {g : Fld} (hg : portKey g) :
    ((levelFields n).all fun f => g.key != f.key) = true := by
  obtain ⟨hlow, -⟩ := hg
  simp only [levelFields, raiseFields, List.all_cons, List.all_nil, Bool.and_true, Bool.and_eq_true, bne_iff_ne]
  simp only [Fld.key, Reg.srcCfgLevel, Reg.srcCfgState, Reg.hbStatusAspm, Reg.brRetriesL1Exits, Reg.hbStatusPeWake] at *
  omega

/-- A level that is high shows in SRC_CFG, whatever its source's raising changes. -/
theorem flag_setLevel_high {n : Nat} (hn : n < 2048) (s : State) : flag (setLevel s n true) (Reg.srcCfgLevel n) = true := by
  have hapart : ((raiseFields n).all fun f => (Reg.srcCfgLevel n).key != f.key) = true := by
    simp only [raiseFields, List.all_cons, List.all_nil, Bool.and_true, Bool.and_eq_true, bne_iff_ne, Fld.key,
      Reg.srcCfgLevel, Reg.srcCfgState, Reg.hbStatusAspm, Reg.brRetriesL1Exits, Reg.hbStatusPeWake]
    omega
  have hput : get (putFlag s (Reg.srcCfgLevel n) true) (Reg.srcCfgLevel n) = 1 := get_putFlag_same _ _ _
  have hlevel : get (setLevel s n true) (Reg.srcCfgLevel n) = 1 := by
    unfold setLevel
    simp only [Bool.not_true, Bool.false_eq_true, false_and, if_false, true_and]
    split
    · rw [get_raiseSource_ne _ _ _ hapart, hput]
    · exact hput
  simp [flag, hlevel]

theorem flag_portEvent_level {p : Nat} (hp : p < 48) (s : State) (f : Fld) :
    flag (portEvent s p f) (Reg.srcCfgLevel (64 + p)) = true := flag_setLevel_high (by omega) _

/-- An event leaves the ports' registers but for its own field. -/
theorem get_portEvent {p : Nat} (hp : p < 48) (s : State) (f : Fld) {g : Fld} (hg : portKey g) :
    get (portEvent s p f) g = get (put s f 1) g :=
  regsSame_setLevel (regsSame.refl _ _) (fun _ hf => hf) true g (levelFields_apart (by omega) hg)

theorem get_portEvent_same {p : Nat} (hp : p < 48) (s : State) {f : Fld} (hf : f ∈ portEventFlds p) :
    get (portEvent s p f) f = 1 := by
  rw [get_portEvent hp s f (portKey_of_mem hp (List.mem_append_left _ hf)), get_put_same]
  simp only [portEventFlds, List.mem_cons, List.not_mem_nil, or_false] at hf
  rcases hf with rfl | rfl | rfl | rfl | rfl | rfl <;> rfl

/-! PLCA status. -/

/-- PLCA status shown, with its event. -/
def plcaShown (s : State) (p : Nat) (active : Bool) : State :=
  portEvent (putFlag s (Reg.portStatusPlcaActive p) active) p (Reg.portEventsPlca p)

theorem sendBeacon_regs (s : State) (p : Nat) : (sendBeacon s p).regs = s.regs := by
  unfold sendBeacon
  split <;> rfl

/-- A change of status shows and raises its event; a BEACON that leaves changes no register. -/
theorem plcaStatus_regs {s : State} {p : Nat} {active : Bool} (hen : plcaEn s p = true) (hup : linkState s p = 3)
    (hchange : flag s (Reg.portStatusPlcaActive p) ≠ active) :
    (plcaStatus s p active).regs = (plcaShown s p active).regs := by
  unfold plcaStatus
  rw [if_pos ⟨hen, hup, hchange⟩]
  dsimp only
  split
  · exact sendBeacon_regs _ _
  · rfl

theorem plcaShown_regsSame (s : State) (p : Nat) (active : Bool) : regsSame s (plcaShown s p active)
    ([Reg.portStatusPlcaActive p, Reg.portEventsPlca p, Reg.srcCfgLevel (64 + p)] ++ raiseFields (64 + p)) := by
  unfold plcaShown
  refine regsSame_portEvent ((regsSame.refl s _).putFlag ?_ active) ?_ fun f hf => ?_
  · simp
  · simp
  · exact List.mem_cons_of_mem _ (List.mem_cons_of_mem _ hf)

/-- What a change of PLCA status leaves in PORT_STATUS, PORT_EVENTS and the port's level. -/
theorem get_plcaStatus {s : State} {p : Nat} {active : Bool} (hp : p < 48) (hen : plcaEn s p = true)
    (hup : linkState s p = 3) (hchange : flag s (Reg.portStatusPlcaActive p) ≠ active) :
    flag (plcaStatus s p active) (Reg.portStatusPlcaActive p) = active ∧
      get (plcaStatus s p active) (Reg.portEventsPlca p) = 1 ∧
      flag (plcaStatus s p active) (Reg.srcCfgLevel (64 + p)) = true := by
  have hregs := plcaStatus_regs hen hup hchange
  have hkey : (Reg.portStatusPlcaActive p).key ≠ (Reg.portEventsPlca p).key := by
    simp only [Fld.key, Reg.portStatusPlcaActive, Reg.portEventsPlca]
    omega
  have hactive : get (plcaShown s p active) (Reg.portStatusPlcaActive p) = b2n active % 2 ^ 1 := by
    rw [plcaShown, get_portEvent hp _ _ (portKey_of_mem hp (by simp [portFlds])), get_put_ne _ _ _ _ hkey]
    exact get_putFlag_same _ _ _
  refine ⟨?_, ?_, ?_⟩
  · rw [flag, get_congr _ _ _ hregs, hactive]
    cases active <;> rfl
  · rw [get_congr _ _ _ hregs]
    exact get_portEvent_same hp _ (by simp [portEventFlds])
  · rw [flag, get_congr _ _ _ hregs]
    exact flag_portEvent_level hp _ _

/-- A follower that hears no BEACON is a change of status to inactive (R89). -/
theorem beaconTimeout_follower {s : State} {i : Nat} (h : get s (Reg.plcaCfgPlcaId i) ≠ 0) :
    beaconTimeout s (40 + i) = plcaStatus s (40 + i) false := by
  rw [beaconTimeout, Nat.add_sub_cancel_left, if_neg h]

theorem beaconTimeout_coordinator {s : State} {i : Nat} (h : get s (Reg.plcaCfgPlcaId i) = 0) :
    beaconTimeout s (40 + i) = s := by
  rw [beaconTimeout, Nat.add_sub_cancel_left, if_pos h]

/-! Verification of preemption. -/

theorem setVerify_regsSame (s : State) (p st : Nat) :
    regsSame s (setVerify s p st) [Reg.preemptStatusVerifySt p, Reg.preemptStatusActive p] :=
  ((regsSame.refl s _).put List.mem_cons_self st).putFlag (List.mem_cons_of_mem _ List.mem_cons_self) _

theorem get_setVerify (s : State) (p st : Nat) : get (setVerify s p st) (Reg.preemptStatusVerifySt p) = st % 2 ^ 3 := by
  have hkey : (Reg.preemptStatusVerifySt p).key ≠ (Reg.preemptStatusActive p).key := by
    simp only [Fld.key, Reg.preemptStatusVerifySt, Reg.preemptStatusActive]
    omega
  exact (get_putFlag_ne _ _ _ _ hkey).trans (get_put_same _ _ _)

/-- On a port that is UP preemption is active once verified, where the port has it and it is enabled (R93). -/
theorem preemptActive_verified {s : State} {p : Nat} (hp : p < 48) (hup : portUp s p = true) :
    preemptActive (put s (Reg.preemptStatusVerifySt p) 3) p = (preemptCap s p && cur s (Reg.portCtlPreemptEn p) == 1) := by
  have hcap : get (put s (Reg.preemptStatusVerifySt p) 3) (Reg.portModePreemptCap p) = get s (Reg.portModePreemptCap p) := by
    refine get_put_ne _ _ _ _ ?_
    simp only [Fld.key, Reg.preemptStatusVerifySt, Reg.portModePreemptCap]
    omega
  have hlink : get (put s (Reg.preemptStatusVerifySt p) 3) (Reg.portStatusLink p) = get s (Reg.portStatusLink p) := by
    refine get_put_ne _ _ _ _ ?_
    simp only [Fld.key, Reg.preemptStatusVerifySt, Reg.portStatusLink]
    omega
  have hslot : get (put s (Reg.preemptStatusVerifySt p) 3) Reg.epochStatusCur = get s Reg.epochStatusCur := by
    refine get_put_ne _ _ _ _ ?_
    simp only [Fld.key, Reg.preemptStatusVerifySt, Reg.epochStatusCur]
    omega
  have hverified : get (put s (Reg.preemptStatusVerifySt p) 3) (Reg.preemptStatusVerifySt p) = 3 := get_put_same _ _ _
  simp only [portUp, hp, if_true] at hup
  simp only [preemptActive, preemptCap, portUp, cur, curSlot, cmtOf, hp, if_true, flag, put_env, hcap, hlink, hslot,
    hverified]
  simp only [flag] at hup
  simp [hup]

theorem flag_setVerify_verified {s : State} {p : Nat} (hp : p < 48) (hup : portUp s p = true) :
    flag (setVerify s p 3) (Reg.preemptStatusActive p) = (preemptCap s p && cur s (Reg.portCtlPreemptEn p) == 1) := by
  rw [← preemptActive_verified hp hup, flag, setVerify, showPreempt, get_putFlag_same]
  cases preemptActive (put s (Reg.preemptStatusVerifySt p) 3) p <;> rfl

theorem sendVerify_sent (s : State) (p n : Nat) : (sendVerify s p n).net.verifySent.find p = some n ∧
    (sendVerify s p n).net.verifyAt.find p = some s.time.now := by
  unfold sendVerify
  dsimp only
  split <;> exact ⟨SMap.find_set_same _ _ _, SMap.find_set_same _ _ _⟩

/-- A verify mPacket leaves a port that is not silenced; besides, its number and its time are noted. -/
theorem sendVerify_frame (s : State) (p n : Nat) : sendVerify s p n = { s with
    net := (sendVerify s p n).net, io.out := if silent s then s.io.out else .mpacket p .verify 0 0 [] :: s.io.out } := by
  unfold sendVerify
  dsimp only
  split <;> rfl

section
variable {s : State} {p : Nat} (hst : get s (Reg.preemptStatusVerifySt p) = 2) (hup : portUp s p = true)
include hst hup

theorem verifyResponse_passes : verifyResponse s p = setVerify s p 3 := if_pos ⟨hst, hup⟩

/-- A verify timeout that is due: another try, or failure after the third. -/
theorem verifyTimeout_due (hdue : (s.net.verifyAt.find p).getD 0 + 1000000 * verifyTime s p ≤ s.time.now) :
    verifyTimeout s p = if (s.net.verifySent.find p).getD 0 < 3 then sendVerify s p ((s.net.verifySent.find p).getD 0 + 1)
      else portEvent (setVerify s p 4) p (Reg.portEventsVerifyFail p) := by
  unfold verifyTimeout
  refine if_neg ?_
  simp only [hst, hup, ne_eq, not_true, Bool.not_true, Bool.false_eq_true, false_or, Nat.not_lt]
  exact hdue

end

theorem get_verifyFailed {p : Nat} (hp : p < 48) (s : State) :
    get (portEvent (setVerify s p 4) p (Reg.portEventsVerifyFail p)) (Reg.preemptStatusVerifySt p) = 4 := by
  have hkey : (Reg.preemptStatusVerifySt p).key ≠ (Reg.portEventsVerifyFail p).key := by
    simp only [Fld.key, Reg.preemptStatusVerifySt, Reg.portEventsVerifyFail]
    omega
  rw [get_portEvent hp _ _ (portKey_of_mem hp (by simp [portFlds])), get_put_ne _ _ _ _ hkey, get_setVerify]
  rfl

/-! Partial networks. -/

/-- What is left of a table is found in it as it was. -/
theorem SMap.find_keep_kept {α : Type} {p : Nat → α → Bool} {k : Nat} (h : ∀ v, p k v = true) (m : SMap α) :
    (SMap.keep m p).find k = m.find k := by
  induction m with
  | nil => rfl
  | cons e m ih =>
    obtain ⟨j, v⟩ := e
    have hcons : SMap.keep ((j, v) :: m) p = if p j v then (j, v) :: SMap.keep m p else SMap.keep m p :=
      List.filter_cons
    rw [hcons, SMap.find_cons]
    by_cases hk : k = j
    · subst hk
      rw [if_pos (h v), if_pos rfl, SMap.find_cons, if_pos rfl]
    · rw [if_neg hk, ← ih]
      split
      · rw [SMap.find_cons, if_neg hk]
      · rfl

theorem netSync_frame (s : State) (n : Nat) : netSync s n = { s with wake := (netSync s n).wake } := by
  unfold netSync
  dsimp only
  repeat' split
  all_goals rfl

/-- A network that is not awake has no matches and no episode any more (R276). -/
theorem netSync_idle {s : State} {n : Nat} (h : netAwake s n = false) :
    (netSync s n).wake.hits = s.wake.hits.del n ∧ (netSync s n).wake.awakeSince = s.wake.awakeSince.del n := by
  unfold netSync
  simp only [h, Bool.false_eq_true, if_false]
  split
  · exact ⟨rfl, rfl⟩
  · split <;> exact ⟨rfl, rfl⟩

/-- At most the network's own suppression ends with time (R278). -/
theorem netSync_suppressed (s : State) (n : Nat) : (netSync s n).wake.suppressed = s.wake.suppressed ∨
    (netSync s n).wake.suppressed = s.wake.suppressed.del n := by
  unfold netSync
  cases networkRec s n with
  | none => exact .inr (by split <;> rfl)
  | some b =>
    dsimp only
    by_cases h : aloft s = true ∧ (s.wake.seen.find n).getD 0 + nmTimeout b < s.time.now
    · rw [if_pos h]
      exact .inr (by split <;> rfl)
    · rw [if_neg h]
      exact .inl (by split <;> rfl)

theorem find_netSync_suppressed (s : State) {n k : Nat} (hk : k ≠ n) :
    (netSync s n).wake.suppressed.find k = s.wake.suppressed.find k := by
  rcases netSync_suppressed s n with h | h <;> rw [h]
  exact SMap.find_del_ne _ _ _ hk

/-- The identities an episode's entry logs and its suppression keeps: the four most recent (R278). -/
def keptIdents (s : State) (n : Nat) (b : List Byte) : List NetHit :=
  ((distinctHits (((s.wake.hits.find n).getD []).filter fun h => decide (s.time.now ≤ h.hitAt + nmTimeout b))).take 4).map
    fun e => e.1

theorem keptIdents_length (s : State) (n : Nat) (b : List Byte) : (keptIdents s n b).length ≤ 4 := by
  simp only [keptIdents, List.length_map, List.length_take]
  omega

/-- A network suppressed with its identities. -/
def suppress (s : State) (n : Nat) (l : List NetHit) : State := { s with wake.suppressed := s.wake.suppressed.set n l }

/-- An episode at its limit suppresses its network, and its entry is asked for (R278). -/
theorem maxAwake_due {s : State} {n : Nat} {b : List Byte} (haloft : aloft s = true) (hrec : networkRec s n = some b)
    (hawake : netAwake s n = true) (hfree : netSuppressed s n = false) (hlim : leAt b 4 4 ≠ 0)
    (hlong : leAt b 4 4 ≤ episodeSeconds s n) :
    ∃ body, maxAwake s n = journal (suppress s n (keptIdents s n b)) 0x0060 body := by
  refine ⟨maxAwakeEntry n (episodeSeconds s n) (distinctHits (((s.wake.hits.find n).getD []).filter fun h =>
    decide (s.time.now ≤ h.hitAt + nmTimeout b))), ?_⟩
  unfold maxAwake
  simp only [hrec, haloft, hawake, hfree, hlim, Nat.not_lt.2 hlong, Bool.not_true, Bool.false_eq_true, or_self, if_false]
  rfl

/-- An entry asked for changes the queue of jobs, or counts as lost. -/
theorem journal_frame (s : State) (type : Nat) (body : List Byte) : journal s type body = { s with
    regs := (journal s type body).regs, accum := (journal s type body).accum, jobs := (journal s type body).jobs,
    sheet := (journal s type body).sheet } := by
  apply State.eq_of_parts <;> simp

theorem journal_regsSame (s : State) (type : Nat) (body : List Byte) : regsSame s (journal s type body) [Reg.sbStatsLost] :=
  fun g hg => get_journal_ne s type body g (keys_of_all hg List.mem_cons_self)

/-- NET_CLR lifts the suppressions of the networks it names and no other (R278). -/
theorem find_netClrWrite (s : State) (w n : Nat) : (netClrWrite s w).wake.suppressed.find n =
    if bitAt w n then none else s.wake.suppressed.find n := by
  have hkeep : (netClrWrite s w).wake.suppressed = SMap.keep s.wake.suppressed fun k _ => !bitAt w k := rfl
  rw [hkeep]
  by_cases h : bitAt w n = true
  · rw [if_pos h]
    exact SMap.find_keep_dropped (fun _ => by simp only [h, Bool.not_true]) _
  · rw [if_neg h]
    exact SMap.find_keep_kept (fun _ => by simp only [h, Bool.not_false]) _

/-- Settles O32: PLCA status and its event, the three tries of verification, and the ends of episodes and suppressions. -/
theorem portFeaturesFollowTheLink : Obligations.PortFeaturesFollowTheLink := by
  unfold Obligations.PortFeaturesFollowTheLink
  refine ⟨?_, ?_, ?_, ?_, ?_, ?_, ?_, ?_, ?_⟩
  · intro s i active hen hup hchange
    obtain ⟨hactive, hevent, hlevel⟩ := get_plcaStatus (by omega) hen hup hchange
    have hsource : 64 + (40 + i.val) = 104 + i.val := by omega
    have hsame := (plcaShown_regsSame s (40 + i) active).congr (plcaStatus_regs hen hup hchange)
    rw [hsource] at hlevel hsame
    exact ⟨_, rfl, hactive, hevent, hlevel, hsame⟩
  · intro s i hen hup hid hactive
    obtain ⟨hfallen, hevent, -⟩ := get_plcaStatus (active := false) (by omega) hen hup (by simp [hactive])
    exact ⟨_, congrArg Host.Outcome.next (beaconTimeout_follower hid), hfallen, hevent⟩
  · intro s i hid
    exact congrArg Host.Outcome.next (beaconTimeout_coordinator hid)
  · intro s p hst hup
    exact ⟨_, congrArg Host.Outcome.next (verifyResponse_passes hst hup), get_setVerify s p 3,
      flag_setVerify_verified p.isLt hup, setVerify_regsSame s p 3, rfl⟩
  · intro s p hst hup hdue htries
    obtain ⟨hsent, hat⟩ := sendVerify_sent s p ((s.net.verifySent.find p).getD 0 + 1)
    exact ⟨_, congrArg Host.Outcome.next ((verifyTimeout_due hst hup hdue).trans (if_pos htries)), hsent, hat,
      sendVerify_frame _ _ _⟩
  · intro s p hst hup hdue htries
    exact ⟨_, congrArg Host.Outcome.next ((verifyTimeout_due hst hup hdue).trans (if_neg (Nat.not_lt.2 htries))),
      get_verifyFailed p.isLt s, get_portEvent_same p.isLt _ (by simp [portEventFlds]), flag_portEvent_level p.isLt _ _⟩
  · intro s n hidle
    obtain ⟨hhits, hsince⟩ := netSync_idle hidle
    refine ⟨_, rfl, ?_, ?_, ?_, netSync_frame s n⟩
    · exact (congrArg (SMap.find · _) hhits).trans (SMap.find_del_same _ _)
    · exact (congrArg (SMap.find · _) hsince).trans (SMap.find_del_same _ _)
    · intro k hk
      exact ⟨(congrArg (SMap.find · _) hhits).trans (SMap.find_del_ne _ _ _ hk), find_netSync_suppressed s hk⟩
  · intro s n b haloft hrec hawake hfree hlim hlong
    obtain ⟨body, hdue⟩ := maxAwake_due haloft hrec hawake hfree hlim hlong
    have hasked := asked_journal (suppress s n (keptIdents s n b)) 0x0060 body
    have hsame := journal_regsSame (suppress s n (keptIdents s n b)) 0x0060 body
    have hwake := journal_wake (suppress s n (keptIdents s n b)) 0x0060 body
    have hkept : (journal (suppress s n (keptIdents s n b)) 0x0060 body).wake.suppressed.find n.val =
        some (keptIdents s n b) := by
      rw [hwake]
      exact SMap.find_set_same _ _ _
    refine ⟨_, congrArg Host.Outcome.next hdue, ?_, hasked.congr rfl rfl rfl rfl, ?_,
      (congrArg WakeSt.hits hwake).trans rfl, hsame, ?_⟩
    · rw [netSuppressed, SMap.has, hkept]
      rfl
    · intro l hl
      rw [hkept] at hl
      obtain rfl := Option.some.inj hl
      exact keptIdents_length s n b
    · apply State.eq_of_parts <;> simp [suppress]
  · intro s m w hacc
    have hdone := accessWrite_accepted s m _ (fun t => netClrWrite t w.toNat) hacc
    refine ⟨_, congrArg Host.Outcome.next hdone, fun n => ?_, ?_, ?_⟩
    · simp only [noteGrant_wake, answer_wake]
      exact find_netClrWrite s w.toNat n
    · simp only [noteGrant_regs, answer_regs]
      rfl
    · apply State.eq_of_parts <;> simp [netClrWrite]

end Sys2Proof.Machine
end

section
/-!
The ICV check of a held MACsec frame, and the way of a frame into the verify hold buffer (R97, R123).
-/
namespace Sys2Proof.Machine

/-! Parts that a change leaves alone. -/

/-- A change that lists no part of the forwarding plane keeps all of it. -/
theorem changesOnly.net_eq {l : List Part} {s t : State} (h : changesOnly l s t) (hf : Part.frames ∉ l)
    (ht : Part.tables ∉ l) (hl : Part.links ∉ l) : t.net = s.net := by
  obtain ⟨-, -, -, -, -, -, -, -, -, -, -, -, -, -, -, -, -, -, -, -, -, hframes, htables, hlinks, -⟩ := h
  have hframes := hframes.resolve_left hf
  have htables := htables.resolve_left ht
  have hlinks := hlinks.resolve_left hl
  cases hnt : t.net
  cases hns : s.net
  simp_all [framesOf, tablesOf, linksOf]

/-- Reception judges a frame by the wake bookkeeping and by free draws alone. -/
theorem receiveFrame_changes (s : State) (p : Nat) (bs : List Byte) :
    changesOnly [.wake, .draws] s (receiveFrame s p bs).2 :=
  changesOnly_of_kept (@kept_receiveFrame [.wake, .draws] (has_of rfl) (has_of rfl) s p bs)

/-! Fields of secure associations. -/

/-- The fields of an SA that reception writes. -/
def saFlds (p i : Nat) : List Fld := [Reg.saNextPn p i, Reg.saStatExhausted p i, Reg.saStatThreshHit p i, Reg.saFrames p i]

theorem portKey_saFlds {p i : Nat} (hp : p < 48) (hi : i < 36) : ∀ f ∈ saFlds p i, portKey f := by
  simp only [saFlds, List.forall_mem_cons, portKey, Fld.key, Reg.saNextPn, Reg.saStatExhausted, Reg.saStatThreshHit,
    Reg.saFrames]
  refine ⟨?_, ?_, ?_, ?_, fun _ h => absurd h List.not_mem_nil⟩ <;> omega

/-- The fields of an SA lie apart. -/
theorem saFlds_apart (p i : Nat) : (Reg.saNextPn p i).key ≠ (Reg.saStatExhausted p i).key ∧
    (Reg.saNextPn p i).key ≠ (Reg.saStatThreshHit p i).key ∧ (Reg.saNextPn p i).key ≠ (Reg.saFrames p i).key ∧
    (Reg.saStatExhausted p i).key ≠ (Reg.saStatThreshHit p i).key ∧
    (Reg.saStatExhausted p i).key ≠ (Reg.saFrames p i).key ∧
    (Reg.saStatThreshHit p i).key ≠ (Reg.saFrames p i).key := by
  simp only [Fld.key, Reg.saNextPn, Reg.saStatExhausted, Reg.saStatThreshHit, Reg.saFrames]
  omega

/-! The wait for an AES core. -/

theorem lineWait_frame (s : State) : ∃ r c, lineWait s = { s with regs := r, freeCtr := c } := by
  unfold lineWait raiseTo
  dsimp only
  split <;> exact ⟨_, _, rfl⟩

theorem lineWait_env_net (s : State) : (lineWait s).env = s.env ∧ (lineWait s).net = s.net := by
  obtain ⟨r, c, hwait⟩ := lineWait_frame s
  exact ⟨hwait ▸ rfl, hwait ▸ rfl⟩

theorem lineWait_regsSame (s : State) : regsSame s (lineWait s) [Reg.macStatusMaxLineWait] := by
  have hdraw : regsSame s (draw s 13).2 [Reg.macStatusMaxLineWait] := (regsSame.refl s _).congr rfl
  unfold lineWait raiseTo
  dsimp only
  split
  · exact hdraw.put List.mem_cons_self _
  · exact hdraw

theorem get_lineWait (s : State) {f : Fld} (h : f.key ≠ Reg.macStatusMaxLineWait.key) : get (lineWait s) f = get s f :=
  lineWait_regsSame s f (by simp [h])

theorem get_lineWait_sa {p i : Nat} (hp : p < 48) (hi : i < 36) (s : State) {f : Fld} (hf : f ∈ saFlds p i) :
    get (lineWait s) f = get s f := by
  obtain ⟨hlow, -⟩ := portKey_saFlds hp hi f hf
  refine get_lineWait s ?_
  simp only [Fld.key, Reg.macStatusMaxLineWait] at *
  omega

/-! A held frame dropped. -/

theorem get_dropHeld (s : State) (u : Nat) (f : Fld) : get (dropHeld s u f) f = min (2 ^ f.width - 1) (get s f + 1) :=
  get_bump_same _ _

theorem find_dropHeld (s : State) (u : Nat) (f : Fld) : (dropHeld s u f).net.packets.find u = none := SMap.find_del_same _ _

theorem regsSame_dropHeld {s t : State} {l : List Fld} (h : regsSame s t l) (u : Nat) {f : Fld} (hf : f ∈ l) :
    regsSame s (dropHeld t u f) l :=
  (h.congr (u := { t with net.packets := t.net.packets.del u }) rfl).bump hf

/-- A held frame dropped under a counter once its line block has served it. -/
def refusedHeld (s : State) (u : Nat) (f : Fld) : State := dropHeld (lineWait s) u f

/-- What a refused frame leaves: its counter has counted, MAX_LINE_WAIT may have risen, and it is gone. -/
theorem refusedHeld_leaves (s : State) (u : Nat) {f : Fld} (h : f.key ≠ Reg.macStatusMaxLineWait.key) :
    (refusedHeld s u f).net.packets.find u = none ∧ get (refusedHeld s u f) f = min (2 ^ f.width - 1) (get s f + 1) ∧
      regsSame s (refusedHeld s u f) [f, Reg.macStatusMaxLineWait] := by
  refine ⟨find_dropHeld _ _ _, ?_, ?_⟩
  · rw [refusedHeld, get_dropHeld, get_lineWait s h]
  · exact regsSame_dropHeld ((lineWait_regsSame s).mono fun _ hg => List.mem_cons_of_mem _ hg) u List.mem_cons_self

theorem refusedHeld_frame (s : State) (u : Nat) (f : Fld) : refusedHeld s u f = { s with
    regs := (refusedHeld s u f).regs, accum := (refusedHeld s u f).accum, net := (refusedHeld s u f).net,
    freeCtr := (refusedHeld s u f).freeCtr } := by
  obtain ⟨r, c, hwait⟩ := lineWait_frame s
  unfold refusedHeld
  rw [hwait]
  rfl

/-! An SA's state. -/

theorem saState_lineWait {p i : Nat} (hp : p < 48) (hi : i < 36) (s : State) (key : Nat) :
    saLive (lineWait s) p i key = saLive s p i key ∧ saState (lineWait s) p i key = saState s p i key := by
  have hslot : curSlot (lineWait s) = curSlot s := get_lineWait s (by decide)
  obtain ⟨henv, hnet⟩ := lineWait_env_net s
  have hlive : saLive (lineWait s) p i key = saLive s p i key := by
    simp only [saLive, cur, cmtOf, hslot, henv]
  have hregs : saRegs (lineWait s) p i = saRegs s p i := by
    simp only [saRegs, flag, get_lineWait_sa hp hi s (f := Reg.saNextPn p i) (by simp [saFlds]),
      get_lineWait_sa hp hi s (f := Reg.saStatExhausted p i) (by simp [saFlds]),
      get_lineWait_sa hp hi s (f := Reg.saStatThreshHit p i) (by simp [saFlds])]
  exact ⟨hlive, by simp only [saState, hlive, hregs, hnet]⟩

/-- An SA's next PN and its bits in its registers. -/
def saShown (s : State) (p i : Nat) (x : FormerSa) : State :=
  putFlag (putFlag (put s (Reg.saNextPn p i) x.pn) (Reg.saStatExhausted p i) x.exhausted) (Reg.saStatThreshHit p i) x.thresh

theorem setSa_live {s : State} {p i key : Nat} (h : saLive s p i key = true) (x : FormerSa) :
    setSa s p i key x = saShown s p i x := if_pos (.inl h)

theorem setSa_former {s : State} {p i key : Nat} (hlive : saLive s p i key = false) {y : FormerSa}
    (hformer : s.net.formerSa.find (formerKey p i key) = some y) (x : FormerSa) :
    setSa s p i key x = { s with net.formerSa := s.net.formerSa.set (formerKey p i key) x } :=
  if_neg (by simp [hlive, SMap.has, hformer])

theorem get_saShown (s : State) (p i : Nat) (x : FormerSa) :
    get (saShown s p i x) (Reg.saNextPn p i) = x.pn % 2 ^ 64 ∧
      flag (saShown s p i x) (Reg.saStatExhausted p i) = x.exhausted := by
  obtain ⟨hexh, hthresh, -, hbits, -, -⟩ := saFlds_apart p i
  refine ⟨?_, ?_⟩
  · rw [saShown, get_putFlag_ne _ _ _ _ hthresh, get_putFlag_ne _ _ _ _ hexh, get_put_same]
    rfl
  · rw [saShown, flag, get_putFlag_ne _ _ _ _ hbits, get_putFlag_same]
    cases x.exhausted <;> rfl

/-- FRAMES of an SA does not move with its next PN. -/
theorem get_setSa_frames (s : State) (p i key : Nat) (x : FormerSa) :
    get (setSa s p i key x) (Reg.saFrames p i) = get s (Reg.saFrames p i) := by
  obtain ⟨-, -, hpn, -, hexh, hthresh⟩ := saFlds_apart p i
  unfold setSa
  split
  · rw [get_putFlag_ne _ _ _ _ hthresh.symm, get_putFlag_ne _ _ _ _ hexh.symm, get_put_ne _ _ _ _ hpn.symm]
  · rfl

/-! The way into the staging FIFO. -/

/-- The counters of what ends on its way into a port's staging FIFO. -/
def stagingFlds (p : Nat) : List Fld := [Reg.swStagingDrops p, Reg.pwrNetNmSuppressed, Reg.descentDiscards]

theorem countEnd_regsSame (s : State) (p k : Nat) :
    regsSame s (countEnd s p k) [Reg.pwrNetNmSuppressed, Reg.descentDiscards] := by
  unfold countEnd
  split
  · exact (regsSame.refl s _).congr rfl
  · exact (regsSame.refl s _).bump (by simp)
  · exact (regsSame.refl s _).bump (by simp)

theorem countEnd_formerSa (s : State) (p k : Nat) : (countEnd s p k).net.formerSa = s.net.formerSa := by
  unfold countEnd
  split <;> rfl

theorem countIn_net (s : State) (p : Nat) (f : Fld) : (countIn s p f).net = s.net := by
  unfold countIn
  dsimp only
  split <;> rfl

theorem regsSame_countIn {s t : State} {l : List Fld} (h : regsSame s t l) (p : Nat) {f : Fld} (hf : f ∈ l) :
    regsSame s (countIn t p f) l := by
  unfold countIn
  dsimp only
  split
  · exact h
  · exact h.bump hf

/-- What a frame on its way into the staging FIFO changes of the registers and of the former SAs. -/
theorem enterStaging_leaves (s : State) (u : Nat) (pk : Packet) :
    regsSame s (enterStaging s u pk) (stagingFlds pk.port) ∧ (enterStaging s u pk).net.formerSa = s.net.formerSa := by
  have hchanges := receiveFrame_changes s pk.port pk.bytes
  have hregs := hchanges.regs_eq (by decide)
  have hnet := hchanges.net_eq (by decide) (by decide) (by decide)
  unfold enterStaging
  dsimp only
  split
  · have hnet := countIn_net s pk.port (Reg.swStagingDrops pk.port)
    have hformer := congrArg NetSt.formerSa hnet
    exact ⟨(regsSame_countIn (regsSame.refl s _) pk.port List.mem_cons_self).congr rfl, hformer⟩
  · have hsame : regsSame s (receiveFrame s pk.port pk.bytes).2 (stagingFlds pk.port) := (regsSame.refl s _).congr hregs
    have hformer := congrArg NetSt.formerSa hnet
    split
    next => exact ⟨hsame.congr rfl, hformer⟩
    next k _ =>
      have hend : regsSame _ (countEnd (receiveFrame s pk.port pk.bytes).2 pk.port k) (stagingFlds pk.port) :=
        (countEnd_regsSame _ _ _).mono fun _ hf => List.mem_cons_of_mem _ hf
      exact ⟨fun g hg => (hend g hg).trans (hsame g hg), (countEnd_formerSa _ _ _).trans hformer⟩

/-- A frame that enters the staging FIFO leaves the ports' registers. -/
theorem get_enterStaging {p : Nat} (hp : p < 48) (s : State) (u : Nat) {pk : Packet} (hport : pk.port = p) {f : Fld}
    (hf : portKey f) : get (enterStaging s u pk) f = get s f := by
  obtain ⟨hlow, hhigh⟩ := hf
  refine (enterStaging_leaves s u pk).1 f ?_
  rw [hport]
  simp only [stagingFlds, List.all_cons, List.all_nil, Bool.and_true, Bool.and_eq_true, bne_iff_ne]
  simp only [Fld.key, Reg.swStagingDrops, Reg.pwrNetNmSuppressed, Reg.descentDiscards] at *
  omega

/-! An accepted frame. -/

/-- An SA's state once it has accepted a held frame (R97). -/
def movedSa (sa : FormerSa) (h : RxHold) : FormerSa :=
  { sa with pn := max sa.pn (h.pn + 1), exhausted := sa.exhausted || h.pn == pnMax h.xpn }

/-- An SA moved past a held frame, which counts for the SA and for its key. -/
def countedHeld (s : State) (p : Nat) (h : RxHold) : State :=
  bump (bump (setSa s p h.sa h.key (movedSa (saState s p h.sa h.key) h)) (Reg.saFrames p h.sa)) (usesFld h.key)

theorem acceptHeld_eq (s : State) (u : Nat) (pk : Packet) (h : RxHold) : acceptHeld s u pk h =
    enterStaging (countedHeld s pk.port h) u { pk with bytes := stripTag h pk.bytes } := rfl

/-- A key's count of uses is none of the ports' registers. -/
theorem get_bump_uses (s : State) (key : Nat) {f : Fld} (hf : portKey f) : get (bump s (usesFld key)) f = get s f := by
  obtain ⟨-, hhigh⟩ := hf
  refine get_bump_ne _ _ _ ?_
  simp only [Fld.key, usesFld, Reg.slotUses] at *
  omega

section
variable {s : State} {p u : Nat} {pk : Packet} {h : RxHold}

/-- The registers of an accepted frame's SA are those of its move and of its count. -/
theorem get_accepted (hp : p < 48) (hport : pk.port = p) {f : Fld} (hf : portKey f) :
    get (acceptHeld s u pk h) f =
      get (bump (setSa s p h.sa h.key (movedSa (saState s p h.sa h.key) h)) (Reg.saFrames p h.sa)) f := by
  rw [acceptHeld_eq, get_enterStaging hp _ u (pk := { pk with bytes := stripTag h pk.bytes }) hport hf, hport, countedHeld,
    get_bump_uses _ _ hf]

variable (hp : p < 48) (hsa : h.sa < 36) (hport : pk.port = p)
include hp hsa hport

theorem get_accepted_frames : get (acceptHeld s u pk h) (Reg.saFrames p h.sa) =
    min (2 ^ (Reg.saFrames p h.sa).width - 1) (get s (Reg.saFrames p h.sa) + 1) := by
  rw [get_accepted hp hport (portKey_saFlds hp hsa _ (by simp [saFlds])), get_bump_same, get_setSa_frames]

theorem get_accepted_pn : get (acceptHeld s u pk h) (Reg.saNextPn p h.sa) =
    get (setSa s p h.sa h.key (movedSa (saState s p h.sa h.key) h)) (Reg.saNextPn p h.sa) := by
  obtain ⟨-, -, hframes, -⟩ := saFlds_apart p h.sa
  rw [get_accepted hp hport (portKey_saFlds hp hsa _ (by simp [saFlds])), get_bump_ne _ _ _ hframes]

theorem flag_accepted_exhausted : flag (acceptHeld s u pk h) (Reg.saStatExhausted p h.sa) =
    flag (setSa s p h.sa h.key (movedSa (saState s p h.sa h.key) h)) (Reg.saStatExhausted p h.sa) := by
  obtain ⟨-, -, -, -, hframes, -⟩ := saFlds_apart p h.sa
  rw [flag, get_accepted hp hport (portKey_saFlds hp hsa _ (by simp [saFlds])), get_bump_ne _ _ _ hframes]
  rfl

/-- The SA of the current slot moves in its registers (R97). -/
theorem accepted_live (hfresh : (saState s p h.sa h.key).exhausted = false) (hlive : saLive s p h.sa h.key = true) :
    get (acceptHeld s u pk h) (Reg.saNextPn p h.sa) = max (get s (Reg.saNextPn p h.sa)) (h.pn + 1) % 2 ^ 64 ∧
      flag (acceptHeld s u pk h) (Reg.saStatExhausted p h.sa) = (h.pn == pnMax h.xpn) := by
  obtain ⟨hpn, hexh⟩ := get_saShown s p h.sa (movedSa (saState s p h.sa h.key) h)
  have hregs : saState s p h.sa h.key = saRegs s p h.sa := if_pos hlive
  refine ⟨?_, ?_⟩
  · rw [get_accepted_pn hp hsa hport, setSa_live hlive, hpn, hregs]
    rfl
  · rw [flag_accepted_exhausted hp hsa hport, setSa_live hlive, hexh, movedSa, hfresh, Bool.false_or]

/-- A former SA moves where it is kept, and its registers stay. [DESIGN CHOICE, log 128] -/
theorem accepted_former (hfresh : (saState s p h.sa h.key).exhausted = false) (hlive : saLive s p h.sa h.key = false)
    {x : FormerSa} (hformer : s.net.formerSa.find (formerKey p h.sa h.key) = some x) :
    (acceptHeld s u pk h).net.formerSa.find (formerKey p h.sa h.key) =
        some ⟨max x.pn (h.pn + 1), h.pn == pnMax h.xpn, x.thresh⟩ ∧
      get (acceptHeld s u pk h) (Reg.saNextPn p h.sa) = get s (Reg.saNextPn p h.sa) := by
  have hkept : saState s p h.sa h.key = x := by simp [saState, hlive, hformer]
  have hmoved : movedSa x h = ⟨max x.pn (h.pn + 1), h.pn == pnMax h.xpn, x.thresh⟩ := by
    rw [hkept] at hfresh
    simp [movedSa, hfresh]
  refine ⟨?_, ?_⟩
  · rw [acceptHeld_eq, (enterStaging_leaves _ _ _).2, hport, countedHeld, bump_net, bump_net, setSa_former hlive hformer,
      hkept, hmoved]
    exact SMap.find_set_same _ _ _
  · rw [get_accepted_pn hp hsa hport, setSa_former hlive hformer]
    rfl

end

/-! The check. -/

section
variable {s : State} {p u : Nat} {pk : Packet} {h : RxHold}
  (hfirst : (firstPacket s fun x => x.port == p && x.hold.isSome) = some (u, pk)) (hhold : pk.hold = some h)
include hfirst hhold

/-- The key of the oldest held frame serves no longer (R102). -/
theorem macsecIcvCheck_keyless (hkey : keyCheck s h.key portRequester true 1 ≠ 0) : macsecIcvCheck s p =
    dropHeld (countAborted s (keyCheck s h.key portRequester true 1)) u (Reg.portRxNoSa p) := by
  unfold macsecIcvCheck
  simp only [hfirst, hhold]
  exact if_pos (.inl hkey)

/-- Under a usable key the ICV comes first, then the SA's exhaustion, then its replay check (R97). -/
theorem macsecIcvCheck_keyed (hkey : keyCheck s h.key portRequester true 1 = 0) (hgen : genOf s h.key = h.gen) :
    macsecIcvCheck s p =
      if icvGood s h pk.bytes = false then refusedHeld s u (Reg.portRxIcvFail p)
      else if (saState s p h.sa h.key).exhausted = true then refusedHeld s u (Reg.portRxNoSa p)
      else if replayed (saState s p h.sa h.key).pn h.pn h.win = true then refusedHeld s u (Reg.portRxReplay p)
      else acceptHeld (lineWait s) u pk h := by
  unfold macsecIcvCheck
  simp only [hfirst, hhold, hkey, hgen, ne_eq, not_true, or_self, if_false, Bool.not_eq_true']
  rfl

end

/-- The counters a refused frame may count in are not MAX_LINE_WAIT. -/
theorem dropFlds_apart (p : Nat) : (Reg.portRxIcvFail p).key ≠ Reg.macStatusMaxLineWait.key ∧
    (Reg.portRxNoSa p).key ≠ Reg.macStatusMaxLineWait.key ∧
    (Reg.portRxReplay p).key ≠ Reg.macStatusMaxLineWait.key := by
  simp only [Fld.key, Reg.portRxIcvFail, Reg.portRxNoSa, Reg.portRxReplay, Reg.macStatusMaxLineWait]
  omega

/-- What is left of a held frame whose key was revoked: two counts (R102, R253). -/
theorem get_revokedDrop (s : State) (u p : Nat) :
    get (dropHeld (countAborted s 2) u (Reg.portRxNoSa p)) (Reg.portRxNoSa p) =
        min (2 ^ (Reg.portRxNoSa p).width - 1) (get s (Reg.portRxNoSa p) + 1) ∧
      get (dropHeld (countAborted s 2) u (Reg.portRxNoSa p)) Reg.keyStatsRevokedAborts =
        min (2 ^ Reg.keyStatsRevokedAborts.width - 1) (get s Reg.keyStatsRevokedAborts + 1) ∧
      regsSame s (dropHeld (countAborted s 2) u (Reg.portRxNoSa p)) [Reg.portRxNoSa p, Reg.keyStatsRevokedAborts] := by
  have hapart : (Reg.portRxNoSa p).key ≠ Reg.keyStatsRevokedAborts.key := by
    simp only [Fld.key, Reg.portRxNoSa, Reg.keyStatsRevokedAborts]
    omega
  have habort : countAborted s 2 = bump s Reg.keyStatsRevokedAborts := rfl
  refine ⟨?_, ?_, ?_⟩
  · rw [get_dropHeld, habort, get_bump_ne _ _ _ hapart]
  · exact (get_bump_ne _ _ _ hapart.symm).trans (get_bump_same _ _)
  · exact regsSame_dropHeld ((regsSame.refl s _).bump (List.mem_cons_of_mem _ List.mem_cons_self)) u List.mem_cons_self

/-! The tail before the SecY. -/

/-- A state in which other statistics have been counted. -/
def withMib (s : State) (m : SMap Nat) : State := { s with net := { s.net with mib := m } }

theorem mib_withMib (s : State) (m : SMap Nat) (p i n : Nat) : ∃ m', mib (withMib s m) p i n = withMib s m' := ⟨_, rfl⟩

theorem countCast_withMib (s : State) (m : SMap Nat) (p : Nat) (bs : List Byte) (multi broad : Nat) :
    ∃ m', countCast (withMib s m) p bs multi broad = withMib s m' := by
  unfold countCast
  split
  · exact mib_withMib _ _ _ _ _
  · split
    · exact mib_withMib _ _ _ _ _
    · exact ⟨m, rfl⟩

/-- A good frame counts in the statistics alone. -/
theorem countGood_withMib (s : State) (pk : Packet) : ∃ m, countGood s pk = withMib s m := by
  unfold countGood
  dsimp only
  split
  · exact ⟨s.net.mib, rfl⟩
  · obtain ⟨m, hm⟩ : ∃ m, mib (mib (mib s pk.port 0 1) pk.port 1 (pk.rxLen - 18)) pk.port (sizeBin pk.rxLen) 1 =
        withMib s m := ⟨_, rfl⟩
    rw [hm]
    exact countCast_withMib _ _ _ _ _ _

/-- The checks before the MAC cluster do not look at statistics. -/
theorem rxCheck_countGood (s : State) (pk : Packet) (cfg : RxCfg) (p : Nat) (bs : List Byte) :
    rxCheck (countGood s pk) cfg p bs = rxCheck s cfg p bs := by
  obtain ⟨m, hm⟩ := countGood_withMib s pk
  rw [hm]
  rfl

/-- A tail is good: the length is in bounds, the FCS matches and no reassembly error cuts the frame (R82, R94). -/
theorem tailBad_none {s : State} {u : Nat} {pk : Packet} {asmErr : Bool} (hpasses : pk.passes = 0)
    (hundecided : pk.decided = false) (hmin : 64 ≤ pk.rxLen) (hmax : pk.rxLen ≤ 10240)
    (hasm : (asmErr && preemptCap s pk.port) = false) : tailBad s u pk true asmErr = none := by
  have hwhole : ¬(asmErr = true ∧ preemptCap s pk.port = true) := by simpa using hasm
  simp [tailBad, hpasses, hundecided, Nat.not_lt.2 hmin, Nat.not_lt.2 hmax, hwhole]

/-- A good tail brings a frame before the SecY of its port. -/
theorem frameTail_sec {s : State} {p u : Nat} {pk : Packet} {cfg : RxCfg} {asmErr : Bool}
    (hfirst : (firstPacket s fun x => x.port == p && !x.come) = some (u, pk)) (hsec : pk.sec = some cfg)
    (hends : pk.ends = none) (htail : pk.tail = 0) (hgood : tailBad s u pk true asmErr = none) :
    frameTail s p true asmErr = secEntry (countGood s pk) u { pk with come := true } cfg := by
  unfold frameTail
  simp [hfirst, hsec, hends, htail, hgood, tailReady]

/-- Settles O33: the outcomes of the ICV check one by one, and the way into the verify hold buffer. -/
theorem macsecAcceptsWhatVerifies : Obligations.MacsecAcceptsWhatVerifies := by
  unfold Obligations.MacsecAcceptsWhatVerifies
  refine ⟨?_, ?_, ?_, ?_⟩
  · intro s p u pk h hfirst hport hhold hsa hkey hgen hfresh hnew
    have hcheck := macsecIcvCheck_keyed hfirst hhold hkey hgen
    obtain ⟨hlive, hstate⟩ := saState_lineWait p.isLt hsa s h.key
    obtain ⟨-, hnet⟩ := lineWait_env_net s
    have hpn := get_lineWait_sa p.isLt hsa s (f := Reg.saNextPn p h.sa) (by simp [saFlds])
    have hframes := get_lineWait_sa p.isLt hsa s (f := Reg.saFrames p h.sa) (by simp [saFlds])
    refine ⟨_, rfl, fun hgood => ?_, fun hbad => ?_⟩
    · rw [hcheck, if_neg (by simp [hgood]), if_neg (by simp [hfresh]), if_neg (by simp [hnew])]
      rw [← hstate] at hfresh
      rw [← hlive, ← hpn, ← hframes]
      exact ⟨accepted_live p.isLt hsa hport hfresh, fun hformer x hx => accepted_former p.isLt hsa hport hfresh hformer
        (by rwa [hnet]), get_accepted_frames p.isLt hsa hport⟩
    · obtain ⟨hgone, hcount, hsame⟩ := refusedHeld_leaves s u (dropFlds_apart p).1
      rw [hcheck, if_pos hbad]
      exact ⟨hgone, hcount, hsame, refusedHeld_frame _ _ _⟩
  · intro s p u pk h hfirst hport hhold hkey hgen hrefused
    obtain ⟨hicv, hnoSa, hreplay⟩ := dropFlds_apart p
    have hcheck := macsecIcvCheck_keyed hfirst hhold hkey hgen
    refine ⟨_, rfl, ?_⟩
    rw [hcheck]
    by_cases hgood : icvGood s h pk.bytes = false
    · obtain ⟨hgone, hcount, hsame⟩ := refusedHeld_leaves s u hicv
      rw [if_pos hgood]
      exact ⟨hgone, fun _ => ⟨hcount, hsame⟩, by simp [hgood], by simp [hgood], refusedHeld_frame _ _ _⟩
    · rw [if_neg hgood]
      by_cases hexh : (saState s p h.sa h.key).exhausted = true
      · obtain ⟨hgone, hcount, hsame⟩ := refusedHeld_leaves s u hnoSa
        rw [if_pos hexh]
        exact ⟨hgone, fun hbad => absurd hbad hgood, fun _ _ => ⟨hcount, hsame⟩, by simp [hexh],
          refusedHeld_frame _ _ _⟩
      · obtain ⟨hgone, hcount, hsame⟩ := refusedHeld_leaves s u hreplay
        rw [if_neg hexh, if_pos (hrefused.resolve_left hexh)]
        exact ⟨hgone, fun hbad => absurd hbad hgood, fun _ hex => absurd hex hexh, fun _ _ => ⟨hcount, hsame⟩,
          refusedHeld_frame _ _ _⟩
  · intro s p u pk h hfirst hport hhold hkey
    have hcheck := macsecIcvCheck_keyless hfirst hhold (by simp [hkey])
    rw [hkey] at hcheck
    obtain ⟨hnoSa, haborts, hsame⟩ := get_revokedDrop s u p
    exact ⟨_, congrArg Host.Outcome.next hcheck, find_dropHeld _ _ _, hnoSa, haborts, hsame, rfl⟩
  · intro s p u pk cfg h asmErr hfirst htail hends hsec hpasses hundecided hmin hmax hasm hcheck
    have hport : pk.port = p := by
      have hfound := List.find?_some hfirst
      simp only [Bool.and_eq_true, beq_iff_eq] at hfound
      exact hfound.1
    have htailed := frameTail_sec hfirst hsec hends htail
      (tailBad_none hpasses hundecided hmin hmax (by rwa [hport]))
    have hheld : secEntry (countGood s pk) u { pk with come := true } cfg =
        setPacket (countGood s pk) u { pk with come := true, sec := none, hold := some h, tail := 1 } := by
      unfold secEntry
      simp only [rxCheck_countGood, hport, hcheck]
    obtain ⟨m, hm⟩ := countGood_withMib s pk
    have hdone := htailed.trans hheld
    rw [hm] at hdone
    exact ⟨_, congrArg Host.Outcome.next hdone, SMap.find_set_same _ _ _, fun _ _ => rfl, rfl⟩

end Sys2Proof.Machine
end

section
/-!
Frames on their way into the cell buffer: their arrival at a port, their writing into cells and their tails (R82, R90, R117,
R123, R126). A tail that proves bad before the decision frees what the frame held, so the registers it may move are those of
the pools, the in-flight count of its slot and, for its filter, the stream filters'.
-/
namespace Sys2Proof.Machine

/-! Port statistics. -/

/-- An object of the statistics of a port. -/
def statOf (s : State) (p i : Nat) : Nat := (s.net.mib.find (32 * p + i)).getD 0

theorem statOf_of_mib {s t : State} (h : t.net.mib = s.net.mib) (p i : Nat) : statOf t p i = statOf s p i :=
  congrArg (fun m => (SMap.find m (32 * p + i)).getD 0) h

@[simp] theorem statOf_mib_same (s : State) (p i n : Nat) : statOf (mib s p i n) p i = (statOf s p i + n) % 2 ^ 64 :=
  congrArg (Option.getD · 0) (SMap.find_set_same _ _ _)

theorem statOf_mib_ne (s : State) (p n : Nat) {i j : Nat} (h : j ≠ i) : statOf (mib s p i n) p j = statOf s p j :=
  congrArg (Option.getD · 0) (SMap.find_set_ne _ _ _ _ (by omega))

theorem statOf_countCast (s : State) (p : Nat) (bs : List Byte) {multi broad i : Nat} (hm : i ≠ multi) (hb : i ≠ broad) :
    statOf (countCast s p bs multi broad) p i = statOf s p i := by
  unfold countCast
  split
  · exact statOf_mib_ne _ _ _ hb
  · split
    · exact statOf_mib_ne _ _ _ hm
    · rfl

theorem sizeBin_pos (n : Nat) : 0 < sizeBin n := by
  unfold sizeBin
  repeat' split
  all_goals decide

/-- A frame received well counts once among the frames of its port. -/
theorem statOf_countGood {s : State} {pk : Packet} (hp : pk.port < 48) :
    statOf (countGood s pk) pk.port 0 = (statOf s pk.port 0 + 1) % 2 ^ 64 := by
  have hbin : 0 ≠ sizeBin pk.rxLen := (sizeBin_pos _).ne
  unfold countGood
  dsimp only
  rw [if_neg (by omega), statOf_countCast _ _ _ (by decide) (by decide), statOf_mib_ne _ _ _ hbin,
    statOf_mib_ne _ _ _ (by decide), statOf_mib_same]

/-! Frames under their numbers. -/

@[simp] theorem packetOf_setPacket_same (s : State) (u : Nat) (pk : Packet) : packetOf (setPacket s u pk) u = some pk :=
  SMap.find_set_same _ _ _

theorem packetOf_setPacket_ne (s : State) (pk : Packet) {u v : Nat} (h : v ≠ u) :
    packetOf (setPacket s u pk) v = packetOf s v := SMap.find_set_ne _ _ _ _ h

theorem packetOf_of_net {s t : State} (h : t.net = s.net) (u : Nat) : packetOf t u = packetOf s u := by
  rw [packetOf, packetOf, h]

theorem firstPacket_port {s : State} {p u : Nat} {pk : Packet}
    (h : (firstPacket s fun x => x.port == p && !x.come) = some (u, pk)) : pk.port = p := by
  have hfound := List.find?_some h
  simp only [Bool.and_eq_true, beq_iff_eq] at hfound
  exact hfound.1

/-- A frame added takes the next number and no other frame's. -/
theorem addPacket_enters {s r : State} (hnet : r.net = s.net) (pk : Packet) :
    (addPacket r pk).net.nextUid = s.net.nextUid + 1 ∧ packetOf (addPacket r pk) s.net.nextUid = some pk ∧
      ∀ u, u ≠ s.net.nextUid → packetOf (addPacket r pk) u = packetOf s u := by
  rw [← hnet]
  exact ⟨rfl, packetOf_setPacket_same _ _ _,
    fun u hu => (packetOf_setPacket_ne _ _ hu).trans (packetOf_of_net (t := r) hnet u)⟩

/-! Arrival. -/

section
variable {s : State} {p : Nat} {f : WireFrame} (haloft : aloft s = true) (hup : portUp s p = true) (hp : p ≠ 48)
include haloft hup hp

theorem frameArrival_verify (hverify : f.verify = true) : frameArrival s p f = answerVerify s p := by
  simp [frameArrival, haloft, hup, hp, hverify]

theorem frameArrival_control (hverify : f.verify = false) (hcontrol : etypeAt f.bytes 12 = 0x8808) :
    frameArrival s p f = addPacket s (endingPacket s p f 0) := by
  simp [frameArrival, haloft, hup, hp, hverify, hcontrol]

theorem frameArrival_secured (hverify : f.verify = false) (hplain : etypeAt f.bytes 12 ≠ 0x8808) (hext : p < 48)
    (hsec : cur s (Reg.macsecCfgRxEn p) = 1) :
    frameArrival s p f = addPacket s (newPacket s p f (some (rxCfg s (curSlot s) p))) := by
  simp [frameArrival, haloft, hup, hp, hverify, hplain, hext, hsec]

/-- A frame no MACsec check holds comes to its port's staging FIFO. -/
theorem frameArrival_unsecured (hverify : f.verify = false) (hplain : etypeAt f.bytes 12 ≠ 0x8808)
    (hsec : 48 ≤ p ∨ cur s (Reg.macsecCfgRxEn p) = 0) : frameArrival s p f =
      if stagingLimit ≤ stagingBytes s p then countIn s p (Reg.swStagingDrops p) else stagePlain s p f := by
  have hopen : ¬(p < 48 ∧ cur s (Reg.macsecCfgRxEn p) = 1) := by omega
  simp [frameArrival, haloft, hup, hp, hverify, hplain, hopen]

end

theorem frameArrival_down {s : State} {p : Nat} (f : WireFrame) (h : portUp s p = false) : frameArrival s p f = s :=
  if_pos (by simp [h])

theorem receiveFrame_net (s : State) (p : Nat) (bs : List Byte) : (receiveFrame s p bs).2.net = s.net :=
  (receiveFrame_changes s p bs).net_eq (by decide) (by decide) (by decide)

/-- A frame whose reception goes on enters the FIFO as a new packet. -/
theorem stagePlain_enters {s : State} {p : Nat} {f : WireFrame} (h : (receiveFrame s p f.bytes).1 = none) :
    stagePlain s p f = addPacket (receiveFrame s p f.bytes).2 (newPacket s p f none) := by
  simp only [stagePlain, h]

/-- A frame whose reception ends is kept for its tail alone. -/
theorem stagePlain_ends {s : State} {p : Nat} {f : WireFrame} {k : Nat} (h : (receiveFrame s p f.bytes).1 = some k) :
    stagePlain s p f = addPacket (receiveFrame s p f.bytes).2 (endingPacket s p f k) := by
  simp only [stagePlain, h]

theorem countIn_external {p : Nat} (hp : p < 48) (s : State) (f : Fld) : countIn s p f = bump s f :=
  if_neg (by omega)

/-! Writing into cells. -/

/-- The first bytes of a frame tag it with the current slot (R60). -/
theorem cellWrite_first {s : State} {p u : Nat} {pk : Packet}
    (hfirst : (firstPacket s fun x => x.port == p && x.sec.isNone && x.hold.isNone && x.ends.isNone &&
      decide (x.written < x.bytes.length)) = some (u, pk)) (hkept : pk.dropped = false) (hslot : pk.slot = none) :
    cellWrite s p = tagUnit (setPacket s u
      { pk with written := min pk.bytes.length (pk.written + 256), slot := some (curSlot s) }) (curSlot s) := by
  simp [cellWrite, hfirst, hkept, hslot]

theorem get_tagUnit_same (s : State) (i : Nat) :
    get (tagUnit s i) (Reg.inflightCount i) = (get s (Reg.inflightCount i) + 1) % 2 ^ 20 := get_put_same _ _ _

theorem regsSame_tagUnit (s : State) (i : Nat) : regsSame s (tagUnit s i) [Reg.inflightCount i] :=
  (regsSame.refl s _).put List.mem_cons_self _

/-! What a tail counts, and what it makes of the frame (R82, R94). -/

/-- The error object that a frame counts in: one too short, too long or with a false FCS. -/
def errorObject (len : Nat) : Nat := if len < 64 then 3 else if 10240 < len then 4 else 2

theorem errorObject_lt (len : Nat) : errorObject len < 18 := by
  unfold errorObject
  repeat' split
  all_goals decide

theorem asmError_none {s : State} {p : Nat} {asmErr : Bool} (h : (asmErr && preemptCap s p) = false) :
    asmError s p asmErr = s := if_neg (by simpa using h)

theorem asmError_some {s : State} {p : Nat} (h : preemptCap s p = true) :
    asmError s p true = bump s (Reg.preemptStatusAsmErrors p) := if_pos ⟨rfl, h⟩

section
variable {s : State} {u : Nat} {pk : Packet} {fcsOk asmErr : Bool}

/-- A frame of a bad length or FCS counts in the error object of its kind, if its head has not left. -/
theorem tailBad_counted (hasm : (asmErr && preemptCap s pk.port) = false) (hhead : headLeft s u pk = false)
    (hbad : pk.rxLen < 64 ∨ 10240 < pk.rxLen ∨ fcsOk = false) :
    tailBad s u pk fcsOk asmErr = some (rxError s pk.port (errorObject pk.rxLen)) := by
  have hwhole : ¬(asmErr = true ∧ preemptCap s pk.port = true) := by simpa using hasm
  unfold tailBad errorObject
  simp only [asmError_none hasm, hwhole, if_false]
  by_cases hmin : pk.rxLen < 64
  · simp only [hmin, if_true]
  · by_cases hmax : 10240 < pk.rxLen
    · simp only [hmin, hmax, if_false, if_true]
    · have hfcs : fcsOk = false := (hbad.resolve_left hmin).resolve_left hmax
      simp [hmin, hmax, hfcs, hhead]

/-- A frame cut by a reassembly error counts in ASM_ERRORS alone. -/
theorem tailBad_cut (hcap : preemptCap s pk.port = true) (hmin : 64 ≤ pk.rxLen) (hmax : pk.rxLen ≤ 10240) :
    tailBad s u pk fcsOk true = some (bump s (Reg.preemptStatusAsmErrors pk.port)) := by
  simp [tailBad, hcap, asmError_some hcap, Nat.not_lt.2 hmin, Nat.not_lt.2 hmax]

/-- A frame of which nothing faulty was waited for is good by its length and FCS. -/
theorem tailBad_unfaulted (hfault : tailFault pk.needEnd pk.avtpEnd pk.bytes.length = 0) (hmin : 64 ≤ pk.rxLen)
    (hmax : pk.rxLen ≤ 10240) (hasm : (asmErr && preemptCap s pk.port) = false) : tailBad s u pk true asmErr = none := by
  have hwhole : ¬(asmErr = true ∧ preemptCap s pk.port = true) := by simpa using hasm
  simp [tailBad, hfault, Nat.not_lt.2 hmin, Nat.not_lt.2 hmax, hwhole]

variable {p : Nat} (hfirst : (firstPacket s fun x => x.port == p && !x.come) = some (u, pk)) (htail : pk.tail = 0)
include hfirst htail

theorem frameTail_bad {t : State} (hready : tailReady pk = true) (hbad : tailBad s u pk fcsOk asmErr = some t) :
    frameTail s p fcsOk asmErr = badTail t u pk := by
  simp [frameTail, hfirst, hready, htail, hbad]

theorem frameTail_good (hready : tailReady pk = true) (hends : pk.ends = none) (hsec : pk.sec = none)
    (hgood : tailBad s u pk fcsOk asmErr = none) : frameTail s p fcsOk asmErr = goodTail s u pk := by
  simp [frameTail, hfirst, hready, htail, hgood, hends, hsec]

theorem frameTail_ended {k : Nat} (hends : pk.ends = some k) (hgood : tailBad s u pk fcsOk asmErr = none) :
    frameTail s p fcsOk asmErr = endedTail s u pk k := by
  simp [frameTail, tailReady, hfirst, htail, hgood, hends]

end

theorem tailReady_of_written {pk : Packet} (h : pk.bytes.length ≤ pk.written) : tailReady pk = true := by
  simp [tailReady, h]

/-- A good tail before the decision marks the frame good. -/
theorem goodTail_undecided (s : State) (u : Nat) {pk : Packet} (hkept : pk.dropped = false)
    (hundecided : pk.decided = false) (hpasses : pk.passes = 0) :
    goodTail s u pk = setPacket (countGood s pk) u { pk with tail := 1, come := true } := by
  simp [goodTail, hkept, hundecided, hpasses]

/-! A frame told its length (R180, R182). -/

theorem lengthTold_net (s : State) (pk : Packet) : (lengthTold s pk).net = s.net :=
  (changesOnly_of_kept (@kept_lengthTold [.registers, .accum, .tm] (has_of rfl) (has_of rfl) (has_of rfl) s pk)).net_eq
    (by decide) (by decide) (by decide)

theorem correctMeter_regs (s : State) (pk : Packet) : (correctMeter s pk).regs = s.regs :=
  (changesOnly_of_kept (@kept_correctMeter [.tm] (has_of rfl) s pk)).regs_eq (by decide)

theorem lowSame_sduLate (s : State) (pk : Packet) : lowSame s (sduLate s pk) := by
  unfold sduLate blockFilter
  split
  · exact .refl _
  next f _ _ =>
    have hblocked : 0x810000 * 32 ≤ (Reg.sfStateBlocked f).key := by
      simp only [Fld.key, Reg.sfStateBlocked]
      omega
    have hlate : 0x810000 * 32 ≤ (Reg.sfStateSduLate f).key := by
      simp only [Fld.key, Reg.sfStateSduLate]
      omega
    dsimp only
    split
    · refine lowSame.bump ?_ hlate
      split
      · exact (lowSame.refl s).put hblocked 1
      · exact .refl s
    · exact .refl s

/-- The true length of a frame moves registers of the stream filters alone. -/
theorem lowSame_lengthTold (s : State) (pk : Packet) : lowSame s (lengthTold s pk) :=
  (lowSame.of_regs (correctMeter_regs s pk)).trans (lowSame_sduLate _ pk)

/-- A frame whose tail has come, told its length. -/
def toldTail (s : State) (u : Nat) (pk : Packet) : State := lengthTold (setPacket s u { pk with come := true }) pk

theorem toldTail_net (s : State) (u : Nat) (pk : Packet) :
    (toldTail s u pk).net = (setPacket s u { pk with come := true }).net := lengthTold_net _ _

theorem toldTail_mib (s : State) (u : Nat) (pk : Packet) : (toldTail s u pk).net.mib = s.net.mib := by
  rw [toldTail_net]
  rfl

theorem packetOf_toldTail_same (s : State) (u : Nat) (pk : Packet) :
    packetOf (toldTail s u pk) u = some { pk with come := true } :=
  (packetOf_of_net (toldTail_net s u pk) u).trans (packetOf_setPacket_same _ _ _)

theorem packetOf_toldTail_ne (s : State) (pk : Packet) {u v : Nat} (h : v ≠ u) :
    packetOf (toldTail s u pk) v = packetOf s v :=
  (packetOf_of_net (toldTail_net s u pk) v).trans (packetOf_setPacket_ne _ _ h)

theorem lowSame_toldTail (s : State) (u : Nat) (pk : Packet) : lowSame s (toldTail s u pk) :=
  (lowSame.of_regs (t := setPacket s u { pk with come := true }) rfl).trans (lowSame_lengthTold _ pk)

theorem badTail_undecided (s : State) (u : Nat) {pk : Packet} (hkept : pk.dropped = false)
    (hundecided : pk.decided = false) (hpasses : pk.passes = 0) :
    badTail s u pk = freePacket (toldTail s u pk) u := by
  simp [badTail, toldTail, hkept, hundecided, hpasses]

theorem badTail_dropped (s : State) (u : Nat) {pk : Packet} (hdropped : pk.dropped = true) :
    badTail s u pk = forget (moveWasted (toldTail s u pk) u) u := by
  simp [badTail, toldTail, hdropped]

theorem moveWasted_mib (s : State) (u : Nat) : (moveWasted s u).net.mib = s.net.mib := by
  unfold moveWasted count64 uncount64
  split
  · rfl
  · split
    · dsimp only
      rw [bump_net, put_net, put_net]
      rfl
    · rfl

/-- Nothing is left of a frame that had been dropped, and its bad tail counts no more than its error. -/
theorem badTail_dropped_leaves (s : State) (u : Nat) {pk : Packet} (hdropped : pk.dropped = true) :
    packetOf (badTail s u pk) u = none ∧ (badTail s u pk).net.mib = s.net.mib := by
  rw [badTail_dropped s u hdropped]
  exact ⟨SMap.find_del_same _ _, (moveWasted_mib _ _).trans (toldTail_mib s u pk)⟩

/-! A frame freed (R75, R116). -/

theorem showPools_net (s : State) : (showPools s).net = s.net :=
  (changesOnly_of_kept (@kept_showPools [.registers] (has_of rfl) s)).net_eq (by decide) (by decide) (by decide)

/-- The registers of the pools. -/
def poolFlds : List Fld := [Reg.bufShared, Reg.bufMgmt, Reg.bufMin]

theorem get_showPools (s : State) {f : Fld} (h : (poolFlds.all fun g => f.key != g.key) = true) :
    get (showPools s) f = get s f := (regsSame.refl s poolFlds).showPools (fun _ hg => hg) f h

/-- The pools shown, and the unit of a slot, if it has one, no longer in flight. -/
def uncounted (s : State) (slot : Option Nat) : State :=
  match slot with
  | some i => untagUnit (showPools s) i
  | none => showPools s

theorem untagUnit_net (s : State) (i : Nat) : (untagUnit s i).net = s.net :=
  (changesOnly_of_kept (@kept_untagUnit [.registers] (has_of rfl) s i)).net_eq (by decide) (by decide) (by decide)

theorem uncounted_net (s : State) (slot : Option Nat) : (uncounted s slot).net = s.net := by
  cases slot with
  | some i => exact (untagUnit_net _ i).trans (showPools_net s)
  | none => exact showPools_net s

theorem get_uncounted_inflight (s : State) {i : Nat} (hi : i < 4) :
    get (uncounted s (some i)) (Reg.inflightCount i) = (get s (Reg.inflightCount i) - 1) % 2 ^ 20 := by
  have hpools : (poolFlds.all fun g => (Reg.inflightCount i).key != g.key) = true := by
    simp only [poolFlds, List.all_cons, List.all_nil, Bool.and_true, Bool.and_eq_true, bne_iff_ne, Fld.key,
      Reg.inflightCount, Reg.bufShared, Reg.bufMgmt, Reg.bufMin]
    omega
  rw [uncounted, untagUnit, if_pos hi, get_put_same, get_showPools s hpools]
  rfl

section
variable {s : State} {u : Nat} {pk : Packet} (h : packetOf s u = some pk) (hkept : pk.dropped = false)
  (hcome : pk.come = true) (hpool : pk.pool = 0)
include h hkept hcome hpool

/-- A frame whose tail has come and that no pool has taken leaves nothing but its slot's count. -/
theorem freePacket_come : freePacket s u = cellsFreed (forget (uncounted s pk.slot) u) u := by
  simp only [freePacket, h, hkept, hcome, hpool, giveCells, Bool.false_eq_true, if_false, if_true, uncounted]
  cases pk.slot <;> rfl

theorem packetOf_freePacket_same : packetOf (freePacket s u) u = none := by
  rw [freePacket_come h hkept hcome hpool]
  exact SMap.find_del_same _ _

theorem packetOf_freePacket_ne {v : Nat} (hv : v ≠ u) : packetOf (freePacket s u) v = packetOf s v := by
  rw [freePacket_come h hkept hcome hpool]
  exact (SMap.find_del_ne _ _ _ hv).trans (packetOf_of_net (uncounted_net s pk.slot) v)

theorem freePacket_mib : (freePacket s u).net.mib = s.net.mib := by
  rw [freePacket_come h hkept hcome hpool, ← uncounted_net s pk.slot]
  rfl

theorem get_freePacket (f : Fld) : get (freePacket s u) f = get (uncounted s pk.slot) f := by
  rw [freePacket_come h hkept hcome hpool]
  rfl

end

section
variable (s : State) (u : Nat) {pk : Packet} (hkept : pk.dropped = false) (hundecided : pk.decided = false)
  (hpasses : pk.passes = 0) (hpool : pk.pool = 0)
include hkept hundecided hpasses hpool

/-- A bad tail before the decision removes its frame and touches neither another one nor the statistics. -/
theorem badTail_undecided_leaves : packetOf (badTail s u pk) u = none ∧
    (∀ v, v ≠ u → packetOf (badTail s u pk) v = packetOf s v) ∧ (badTail s u pk).net.mib = s.net.mib := by
  have hheld := packetOf_toldTail_same s u pk
  rw [badTail_undecided s u hkept hundecided hpasses]
  exact ⟨packetOf_freePacket_same hheld hkept rfl hpool,
    fun v hv => (packetOf_freePacket_ne hheld hkept rfl hpool hv).trans (packetOf_toldTail_ne s pk hv),
    (freePacket_mib hheld hkept rfl hpool).trans (toldTail_mib s u pk)⟩

theorem get_badTail_undecided (f : Fld) : get (badTail s u pk) f = get (uncounted (toldTail s u pk) pk.slot) f := by
  rw [badTail_undecided s u hkept hundecided hpasses]
  exact get_freePacket (packetOf_toldTail_same s u pk) hkept rfl hpool f

theorem get_badTail_inflight {i : Nat} (hslot : pk.slot = some i) (hi : i < 4) :
    get (badTail s u pk) (Reg.inflightCount i) = (get s (Reg.inflightCount i) - 1) % 2 ^ 20 := by
  have hlow : (Reg.inflightCount i).key < 0x810000 * 32 := by
    simp only [Fld.key, Reg.inflightCount]
    omega
  rw [get_badTail_undecided s u hkept hundecided hpasses hpool, hslot, get_uncounted_inflight _ hi,
    lowSame_toldTail s u pk _ hlow]

/-- A bad tail of a frame that no cell has been written of does not move a port's count of reassembly errors itself. -/
theorem get_badTail_asmErrors (hslot : pk.slot = none) {p : Nat} (hp : p < 52) :
    get (badTail s u pk) (Reg.preemptStatusAsmErrors p) = get s (Reg.preemptStatusAsmErrors p) := by
  have hlow : (Reg.preemptStatusAsmErrors p).key < 0x810000 * 32 := by
    simp only [Fld.key, Reg.preemptStatusAsmErrors]
    omega
  have hpools : (poolFlds.all fun g => (Reg.preemptStatusAsmErrors p).key != g.key) = true := by
    simp only [poolFlds, List.all_cons, List.all_nil, Bool.and_true, Bool.and_eq_true, bne_iff_ne, Fld.key,
      Reg.preemptStatusAsmErrors, Reg.bufShared, Reg.bufMgmt, Reg.bufMin]
    omega
  rw [get_badTail_undecided s u hkept hundecided hpasses hpool, hslot]
  exact (get_showPools _ hpools).trans (lowSame_toldTail s u pk _ hlow)

end

/-- What an error of a port's own frame counts. -/
theorem statOf_rxError {p : Nat} (hp : p < 48) (s : State) (i : Nat) :
    statOf (rxError s p i) p i = (statOf s p i + 1) % 2 ^ 64 ∧ ∀ j, j ≠ i → statOf (rxError s p i) p j = statOf s p j := by
  rw [rxError, if_pos hp]
  exact ⟨statOf_mib_same _ _ _ _, fun j hj => statOf_mib_ne _ _ _ hj⟩

theorem rxError_packetOf (s : State) (p i v : Nat) : packetOf (rxError s p i) v = packetOf s v := by
  unfold rxError
  split <;> rfl

theorem get_rxError (s : State) (p i : Nat) (f : Fld) : get (rxError s p i) f = get s f := by
  unfold rxError
  split <;> rfl

/-- Settles O39: every way of a frame's arrival, its first bytes in a cell, and every outcome of its tail. -/
theorem framesArriveAndAreWritten : Obligations.FramesArriveAndAreWritten := by
  unfold Obligations.FramesArriveAndAreWritten
  refine ⟨?_, ?_, ?_, ?_, ?_, ?_, ?_, ?_, ?_, ?_, ?_, ?_, ?_⟩
  · intro s p f haloft hup hp hverify hplain hroom hsec hgoes
    have harrival := frameArrival_unsecured haloft hup hp hverify hplain hsec
    rw [if_neg (by omega), stagePlain_enters hgoes] at harrival
    obtain ⟨hnum, hnew, hold⟩ := addPacket_enters (receiveFrame_net s p f.bytes) (newPacket s p f none)
    exact ⟨_, congrArg Host.Outcome.next harrival, hnum,
      ⟨_, hnew, rfl, rfl, rfl, rfl, rfl, rfl, rfl, rfl, rfl, rfl, rfl, rfl⟩, hold⟩
  · intro s p f k haloft hup hp hverify hplain hroom hsec hends
    have harrival := frameArrival_unsecured haloft hup hp hverify hplain hsec
    rw [if_neg (by omega), stagePlain_ends hends] at harrival
    obtain ⟨hnum, hnew, hold⟩ := addPacket_enters (receiveFrame_net s p f.bytes) (endingPacket s p f k)
    exact ⟨_, congrArg Host.Outcome.next harrival, hnum, ⟨_, hnew, rfl, rfl, rfl, rfl, rfl, rfl⟩, hold⟩
  · intro s p f haloft hup hext hverify hplain hsec hfull
    have harrival := frameArrival_unsecured haloft hup (by omega) hverify hplain (.inr hsec)
    rw [if_pos hfull, countIn_external hext] at harrival
    exact ⟨_, congrArg Host.Outcome.next harrival, rfl, get_bump_same _ _,
      (regsSame.refl s _).bump List.mem_cons_self, rfl⟩
  · intro s p f haloft hup hext hverify hplain hsec
    have harrival := frameArrival_secured haloft hup (by omega) hverify hplain hext hsec
    obtain ⟨hnum, hnew, hold⟩ := addPacket_enters (rfl : s.net = s.net) (newPacket s p f (some (rxCfg s (curSlot s) p)))
    exact ⟨_, congrArg Host.Outcome.next harrival, hnum, ⟨_, hnew, rfl, rfl, rfl, rfl, rfl, rfl⟩, hold, rfl⟩
  · intro s p f haloft hup hp hverify hcontrol
    have harrival := frameArrival_control haloft hup hp hverify hcontrol
    obtain ⟨hnum, hnew, hold⟩ := addPacket_enters (rfl : s.net = s.net) (endingPacket s p f 0)
    exact ⟨_, congrArg Host.Outcome.next harrival, hnum, ⟨_, hnew, rfl, rfl, rfl, rfl, rfl⟩, hold, rfl⟩
  · intro s p f haloft hup hp hverify hcap
    refine ⟨_, congrArg Host.Outcome.next (frameArrival_verify haloft hup hp hverify), ?_⟩
    cases hsilent : silent s <;> simp [answerVerify, hcap, hup, hsilent, emit]
  · exact fun s p f hdown => congrArg Host.Outcome.next (frameArrival_down f hdown)
  · intro s p u pk hfirst hkept hslot hcur
    exact ⟨_, congrArg Host.Outcome.next (cellWrite_first hfirst hkept hslot), packetOf_setPacket_same _ _ _,
      get_tagUnit_same _ _, fun v hv => packetOf_setPacket_ne _ _ hv, regsSame_tagUnit _ _, rfl⟩
  · intro s p u pk asmErr hfirst hsec hends hwritten htail hpasses hkept hundecided hmin hmax hasm
    have hport := firstPacket_port hfirst
    have htailed := frameTail_good hfirst htail (tailReady_of_written hwritten) hends hsec
      (tailBad_none hpasses hundecided hmin hmax (by rwa [hport]))
    rw [goodTail_undecided s u hkept hundecided hpasses] at htailed
    refine ⟨_, congrArg Host.Outcome.next htailed, packetOf_setPacket_same _ _ _, fun hext => ?_, ?_⟩
    · rw [← hport] at hext ⊢
      exact statOf_countGood hext
    · obtain ⟨m, hm⟩ := countGood_withMib s pk
      rw [hm]
      exact ⟨fun v hv => packetOf_setPacket_ne _ _ hv, regsSame.refl s [], rfl⟩
  · intro s p u pk i asmErr hfirst hready htail hhead hpasses hkept hundecided hslot hi hpool hmin hmax hasm
    have hport := firstPacket_port hfirst
    have hbad := tailBad_counted (fcsOk := false) (by rwa [hport]) hhead (.inr (.inr rfl))
    have hobject : errorObject pk.rxLen = 2 := by simp [errorObject, Nat.not_lt.2 hmin, Nat.not_lt.2 hmax]
    rw [hobject, hport] at hbad
    obtain ⟨hgone, hothers, hmib⟩ := badTail_undecided_leaves (rxError s p 2) u hkept hundecided hpasses hpool
    refine ⟨_, congrArg Host.Outcome.next (frameTail_bad hfirst htail hready hbad), hgone, ?_, fun hext => ?_,
      fun v hv => (hothers v hv).trans (rxError_packetOf _ _ _ _)⟩
    · rw [get_badTail_inflight _ u hkept hundecided hpasses hpool hslot hi, get_rxError]
    · exact (statOf_of_mib hmib _ _).trans (statOf_rxError hext s 2).1
  · intro s p u pk fcsOk asmErr hfirst hwritten htail hhead hkept hundecided hpasses hasm hcap hmin hmax hslot hpool
    subst hasm
    have hport := firstPacket_port hfirst
    have hbad := tailBad_cut (u := u) (fcsOk := fcsOk) (by rwa [hport]) hmin hmax
    rw [hport] at hbad
    obtain ⟨hgone, -, -⟩ := badTail_undecided_leaves (bump s (Reg.preemptStatusAsmErrors p)) u hkept hundecided hpasses hpool
    refine ⟨_, congrArg Host.Outcome.next (frameTail_bad hfirst htail (tailReady_of_written hwritten) hbad), hgone, ?_⟩
    rw [get_badTail_asmErrors _ u hkept hundecided hpasses hpool hslot p.isLt, get_bump_same]
  · intro s p u pk fcsOk asmErr hfirst hready htail hends hdropped hhead hfaulty hasm
    have hport := firstPacket_port hfirst
    have hbad := tailBad_counted (by rwa [hport]) hhead hfaulty
    rw [hport] at hbad
    obtain ⟨hgone, hmib⟩ := badTail_dropped_leaves (rxError s p (errorObject pk.rxLen)) u hdropped
    obtain ⟨hcounted, hothers⟩ := statOf_rxError p.isLt s (errorObject pk.rxLen)
    exact ⟨_, congrArg Host.Outcome.next (frameTail_bad hfirst htail hready hbad), hgone,
      (statOf_of_mib hmib _ _).trans (hothers 18 (errorObject_lt _).ne'), (statOf_of_mib hmib _ _).trans hcounted⟩
  · intro s p u pk asmErr hfirst htail hends hfault hmin hmax hasm
    have hport := firstPacket_port hfirst
    have hgood := tailBad_unfaulted (u := u) hfault hmin hmax (by rwa [hport])
    have hended : endedTail s u pk 0 = forget (mib s p 18 1) u := congrArg (fun q => forget (mib s q 18 1) u) hport
    exact ⟨_, congrArg Host.Outcome.next ((frameTail_ended hfirst htail hends hgood).trans hended),
      SMap.find_del_same _ _, statOf_mib_same s p 18 1, fun v hv => SMap.find_del_ne _ _ _ hv, regsSame.refl s [], rfl⟩

end Sys2Proof.Machine
end

section
/-!
Frames on the MACs of a port: a picked replica starts and its leaf moves on (R189), and the end of a transmission sends what
is left of its frame (R91, R116). What happens to the preemptable MAC meanwhile (R188, R196) ends fragments and moves
instants, but never another MAC, and never the frame it carries.
-/
namespace Sys2Proof.Machine

/-! The preemptable MAC. -/

/-- A MAC carries a replica of a leaf, with the bytes and the charge it was selected with. -/
def onMac (s : State) (k : Nat) (r : Replica) (q : Nat) (bs : List Byte) (l : Nat) : Prop :=
  ∃ x, s.net.macs.find k = some x ∧ x.rep = r ∧ x.leaf = q ∧ x.bytes = bs ∧ x.charged = l

/-- A move of the preemptable MAC of a port: it may put something out, and it keeps the frame it carries. -/
structure MacMove (p : Nat) (s t : State) : Prop where
  frame : ∃ m l, t = { s with net.macs := m, io.out := l }
  out : s.io.out <:+ t.io.out
  others : ∀ k, k ≠ 2 * p + 1 → t.net.macs.find k = s.net.macs.find k
  carried : ∀ r q bs l, onMac s (2 * p + 1) r q bs l → onMac t (2 * p + 1) r q bs l

theorem MacMove.refl (p : Nat) (s : State) : MacMove p s s where
  frame := ⟨_, _, rfl⟩
  out := List.suffix_refl _
  others _ _ := rfl
  carried _ _ _ _ h := h

theorem MacMove.trans {p : Nat} {s t u : State} (h : MacMove p s t) (k : MacMove p t u) : MacMove p s u where
  frame := by
    obtain ⟨m, l, rfl⟩ := h.frame
    obtain ⟨m', l', rfl⟩ := k.frame
    exact ⟨m', l', rfl⟩
  out := h.out.trans k.out
  others j hj := (k.others j hj).trans (h.others j hj)
  carried r q bs l hon := k.carried r q bs l (h.carried r q bs l hon)

theorem MacMove.emit {p : Nat} {s t : State} (h : MacMove p s t) (o : Out) : MacMove p s (emit t o) where
  frame := by
    obtain ⟨m, l, rfl⟩ := h.frame
    exact ⟨m, o :: l, rfl⟩
  out := h.out.trans (List.suffix_cons _ _)
  others := h.others
  carried := h.carried

/-- The transmission on the preemptable MAC goes over to another stage. -/
theorem macMove_set {p : Nat} {s : State} {x y : Tx} (hx : s.net.macs.find (2 * p + 1) = some x)
    (hsame : y.rep = x.rep ∧ y.leaf = x.leaf ∧ y.bytes = x.bytes ∧ y.charged = x.charged) :
    MacMove p s { s with net.macs := s.net.macs.set (2 * p + 1) y } where
  frame := ⟨_, _, rfl⟩
  out := List.suffix_refl _
  others _ hk := SMap.find_set_ne _ _ _ _ hk
  carried r q bs l hon := by
    obtain ⟨z, hz, hframe⟩ := hon
    obtain rfl : x = z := Option.some.inj (hx.symm.trans hz)
    obtain ⟨hrep, hleaf, hbytes, hcharged⟩ := hsame
    exact ⟨y, SMap.find_set_same _ _ _, by rwa [hrep, hleaf, hbytes, hcharged]⟩

section
variable {s : State} {p : Nat}

theorem macMove_endFragment {x : Tx} (hx : s.net.macs.find (2 * p + 1) = some x) (c : Nat) :
    MacMove p s (endFragment s p x c) := by
  refine (macMove_set hx ?_).emit _
  exact ⟨rfl, rfl, rfl, rfl⟩

theorem macMove_runPreemptable {x : Tx} (hx : s.net.macs.find (2 * p + 1) = some x) :
    MacMove p s (runPreemptable s p x) := by
  refine macMove_set hx ?_
  cases x.running <;> exact ⟨rfl, rfl, rfl, rfl⟩

theorem macMove_stopPreemptable {x : Tx} (hx : s.net.macs.find (2 * p + 1) = some x) :
    MacMove p s (stopPreemptable s p x) := by
  unfold stopPreemptable
  split
  · exact .refl p s
  · split
    next c _ =>
      split
      · exact macMove_endFragment hx c
      · exact macMove_set hx ⟨rfl, rfl, rfl, rfl⟩
    · exact .refl p s

/-- A fragment that is due ends. -/
theorem reachCut_due {x : Tx} {c : Nat} (hx : s.net.macs.find (2 * p + 1) = some x) (hcut : x.cutAt = some c)
    (hruns : x.running = true) (hdue : c ≤ s.time.now) : reachCut s p = endFragment s p x c := by
  simp [reachCut, hx, hcut, hruns, hdue]

theorem reachCut_quiet (h : s.net.macs.find (2 * p + 1) = none) : reachCut s p = s := by
  simp only [reachCut, h]

theorem macMove_reachCut (s : State) (p : Nat) : MacMove p s (reachCut s p) := by
  unfold reachCut
  split
  next x hx =>
    split
    next c _ =>
      split
      · exact macMove_endFragment hx c
      · exact .refl p s
    · exact .refl p s
  · exact .refl p s

theorem settlePreempt_quiet (h : s.net.macs.find (2 * p + 1) = none) : settlePreempt s p = s := by
  simp only [settlePreempt, reachCut_quiet h, h]

theorem macMove_settlePreempt (s : State) (p : Nat) : MacMove p s (settlePreempt s p) := by
  refine (macMove_reachCut s p).trans ?_
  unfold settlePreempt
  dsimp only
  split
  · exact .refl p _
  next x hx =>
    split
    · exact macMove_stopPreemptable hx
    · exact macMove_runPreemptable hx

/-- Either MAC of a port carries its frame on. -/
theorem onMac_settlePreempt {pre : Bool} {r : Replica} {q l : Nat} {bs : List Byte}
    (h : onMac s (2 * p + b2n pre) r q bs l) : onMac (settlePreempt s p) (2 * p + b2n pre) r q bs l := by
  have hmove := macMove_settlePreempt s p
  cases pre with
  | false =>
    obtain ⟨x, hx, hframe⟩ := h
    exact ⟨x, (hmove.others _ (by simp [b2n])).trans hx, hframe⟩
  | true => exact hmove.carried r q bs l h

/-- Either MAC of a port stays free. -/
theorem settlePreempt_free (pre : Bool) (h : s.net.macs.find (2 * p + b2n pre) = none) :
    (settlePreempt s p).net.macs.find (2 * p + b2n pre) = none := by
  cases pre with
  | false => exact ((macMove_settlePreempt s p).others _ (by simp [b2n])).trans h
  | true => exact (congrArg (fun t : State => t.net.macs.find _) (settlePreempt_quiet h)).trans h

end

theorem MacMove.packetOf_eq {p : Nat} {s t : State} (h : MacMove p s t) (u : Nat) : packetOf t u = packetOf s u := by
  obtain ⟨m, l, rfl⟩ := h.frame
  rfl

theorem MacMove.time_eq {p : Nat} {s t : State} (h : MacMove p s t) : t.time = s.time := by
  obtain ⟨m, l, rfl⟩ := h.frame
  rfl

theorem MacMove.queueOf_eq {p : Nat} {s t : State} (h : MacMove p s t) (i q : Nat) : queueOf t i q = queueOf s i q := by
  obtain ⟨m, l, rfl⟩ := h.frame
  rfl

/-! The start of a frame. -/

theorem chargeLeaf_net (s : State) (p q : Nat) (n : Int) : (chargeLeaf s p q n).net = s.net :=
  (changesOnly_of_kept (@kept_chargeLeaf [.registers, .tm] (has_of rfl) (has_of rfl) s p q n)).net_eq (by decide)
    (by decide) (by decide)

theorem chargePort_net (s : State) (p : Nat) (n : Int) : (chargePort s p n).net = s.net :=
  (changesOnly_of_kept (@kept_chargePort [.registers, .tm] (has_of rfl) (has_of rfl) s p n)).net_eq (by decide)
    (by decide) (by decide)

theorem queueOf_of_net {s t : State} (h : t.net = s.net) (p q : Nat) : queueOf t p q = queueOf s p q := by
  rw [queueOf, queueOf, h]

@[simp] theorem queueOf_setQueue_same (s : State) (p q : Nat) (l : List Replica) : queueOf (setQueue s p q l) p q = l := by
  cases l with
  | nil => exact congrArg (Option.getD · []) (SMap.find_del_same _ _)
  | cons r l => exact congrArg (Option.getD · []) (SMap.find_set_same _ _ _)

/-- The frames of a leaf, in the order of their replicas. -/
def leafUids (s : State) (p q : Nat) : List Nat := (queueOf s p q).map fun r => r.uid

theorem leafUids_of_queue {s t : State} {p q : Nat} (h : queueOf t p q = queueOf s p q) :
    leafUids t p q = leafUids s p q := by
  rw [leafUids, leafUids, h]

/-- A finish tag changes no frame of its leaf. -/
theorem leafUids_tagHead (s : State) (p q : Nat) : leafUids (tagHead p q s) p q = leafUids s p q := by
  unfold tagHead
  split
  · rfl
  next r rs hq =>
    split
    · rfl
    · simp only [leafUids, queueOf_setQueue_same, hq, List.map_cons]

theorem leafUids_chargeSelection (s : State) (p q : Nat) (r : Replica) (l : Nat) :
    leafUids (chargeSelection s p q r l) p q = leafUids s p q := by
  have hcharged : leafUids (chargePort (chargeLeaf s p q l) p l) p q = leafUids s p q :=
    leafUids_of_queue (queueOf_of_net ((chargePort_net _ _ _).trans (chargeLeaf_net _ _ _ _)) p q)
  unfold chargeSelection
  generalize chargePort (chargeLeaf s p q l) p l = charged at hcharged ⊢
  dsimp only
  split
  · exact hcharged
  · exact (leafUids_tagHead _ p q).trans hcharged

theorem bumpIf_net (s : State) (f : Fld) (c : Prop) [Decidable c] : (if c then bump s f else s).net = s.net := by
  split
  · exact bump_net s f
  · rfl

section
variable (s : State) (p q : Nat) (pre : Bool) (r : Replica) (pk : Packet) (bs : List Byte) (l : Nat)
  (key : Option (Nat × Nat))

/-- A frame that starts is on its MAC as it was picked. -/
theorem onMac_startTx : onMac (startTx s p q pre r pk bs l key) (2 * p + b2n pre) r q bs l := by
  refine onMac_settlePreempt ?_
  rw [onMac, bumpIf_net]
  exact ⟨_, SMap.find_set_same _ _ _, rfl, rfl, rfl, rfl⟩

theorem queueOf_startTx (i j : Nat) : queueOf (startTx s p q pre r pk bs l key) i j = queueOf s i j := by
  refine ((macMove_settlePreempt _ p).queueOf_eq i j).trans ?_
  rw [queueOf, bumpIf_net]
  cases pre <;> rfl

end

/-- A head that is sent unprotected. -/
def plainStart (s : State) (p q : Nat) (pre : Bool) (r : Replica) (pk : Packet) : State :=
  startTx (chargeSelection (popHead s p q) p q r (wireLen s p pk)) p q pre r pk (egressBytes s p pk) (wireLen s p pk) none

theorem sendHead_plain {s : State} {p q : Nat} {pre : Bool} {r : Replica} {pk : Packet} (hp : p ≠ 48)
    (hadmits : admitsPort s p (pk.safety || pk.fixed || pk.tunnel.isSome) pk.marked = true)
    (hplain : txProtected s (pk.slot.getD (curSlot s)) p pk.bytes = false) :
    sendHead s p q pre .clean r pk = (true, plainStart s p q pre r pk) := by
  have hclean : (EccKind.clean == EccKind.corrected) = false ∧ (EccKind.clean == EccKind.uncorrectable) = false := by
    decide
  simp [sendHead, hclean, hp, hadmits, hplain, plainStart]

/-- The leaf of a head that is sent moves on to its next replica. -/
theorem leafUids_plainStart (s : State) (p q : Nat) (pre : Bool) (r : Replica) (pk : Packet) :
    leafUids (plainStart s p q pre r pk) p q = ((queueOf s p q).drop 1).map fun r => r.uid := by
  refine (leafUids_of_queue (queueOf_startTx _ p q pre r pk _ _ _ p q)).trans ?_
  rw [leafUids_chargeSelection, leafUids, popHead, queueOf_setQueue_same]

/-- A selection that picks a head which can be sent at once sends it. -/
theorem frameSelect_sends {s t : State} {p q : Nat} {mac : MacKind} {ecc : EccKind} {r : Replica} {pk : Packet} (hp : p < 50)
    (haloft : aloft s = true) (hup : portUp (gateSync s p) p = true)
    (hfree : macFree (gateSync s p) p (mac == .preemptable) = true) (heligible : portEligible (gateSync s p) p = true)
    (hfit : ((nodesDown.filter fun n => nodePreemptable (tagHeads (gateSync s p) p) p n == (mac == .preemptable)).findSome?
      fun n => neverFitHead (tagHeads (gateSync s p) p) p n) = none)
    (hpick : ((nodesDown.filter fun n => nodeServed (tagHeads (gateSync s p) p) p n (mac == .preemptable)).findSome?
      fun n => nodePick (tagHeads (gateSync s p) p) p n) = some (q, r, pk))
    (hsend : sendHead (tagHeads (gateSync s p) p) p q (mac == .preemptable) ecc r pk = (true, t)) :
    frameSelect s p mac ecc = t := by
  have hport : ¬(50 ≤ p ∨ (!aloft s) = true) := by simp [haloft]; omega
  unfold frameSelect
  simp only [hport, hup, hfree, heligible, selectLoop, hfit, hpick, hsend, if_false, if_true, Bool.not_true,
    Bool.false_eq_true, or_self]

/-! The end of a transmission. -/

theorem changesOnly.io_eq {l : List Part} {s t : State} (h : changesOnly l s t) (hl : Part.io ∉ l) : t.io = s.io := by
  obtain ⟨-, -, -, -, -, -, -, -, -, -, -, -, -, -, -, -, -, -, -, -, -, -, -, -, -, -, -, -, hio, -⟩ := h
  exact hio.resolve_left hl

/-- The state in which a port's MAC is free again, and what it has sent has left. -/
def sentState (s : State) (p : Nat) (pre : Bool) (x : Tx) (pk : Packet) : State :=
  finishTx (emitFrame { reachCut s p with net.macs := (reachCut s p).net.macs.del (2 * p + b2n pre) } p pre x pk) p x pk

section
variable {s : State} {p : Nat} {mac : MacKind} {x : Tx}
  (hx : (reachCut s p).net.macs.find (2 * p + b2n (mac == .preemptable)) = some x)
include hx

/-- Before the time of its last bit a frame stays on its MAC. -/
theorem transmitEnd_early (hpk : (packetOf s x.rep.uid).isSome = true) (hearly : s.time.now < x.startAt + x.rest) :
    transmitEnd s p mac = reachCut s p := by
  obtain ⟨pk, hpk⟩ := Option.isSome_iff_exists.1 hpk
  have hmove := macMove_reachCut s p
  simp [transmitEnd, hx, hmove.packetOf_eq, hmove.time_eq, hpk, hearly]

theorem transmitEnd_due {pk : Packet} (hpk : packetOf s x.rep.uid = some pk) (hruns : x.running = true)
    (hdue : x.startAt + x.rest ≤ s.time.now) (htail : pk.tail ≠ 0 ∨ x.stomp = true) :
    transmitEnd s p mac = settlePreempt (sentState s p (mac == .preemptable) x pk) p := by
  have hmove := macMove_reachCut s p
  have hover : ¬((!x.running) = true ∨ s.time.now < x.startAt + x.rest ∨ pk.tail = 0 ∧ (!x.stomp) = true) := by
    rcases htail with htail | hstomp
    · simp [hruns, htail]; omega
    · simp [hruns, hstomp]; omega
  simp only [transmitEnd, hx, hmove.packetOf_eq, hmove.time_eq, hpk, hover, if_false, sentState]

end

theorem finishTx_io (s : State) (p : Nat) (x : Tx) (pk : Packet) : (finishTx s p x pk).io = s.io :=
  (changesOnly_of_kept (@kept_finishTx [.registers, .accum, .time, .host, .frames, .tm] (has_of rfl) (has_of rfl)
    (has_of rfl) (has_of rfl) (has_of rfl) (has_of rfl) s p x pk)).io_eq (by decide)

theorem correctShaper_net (s : State) (p : Nat) (x : Tx) : (correctShaper s p x).net = s.net :=
  (changesOnly_of_kept (@kept_correctShaper [.registers, .tm] (has_of rfl) (has_of rfl) s p x)).net_eq (by decide)
    (by decide) (by decide)

theorem giveCells_macs (s : State) (pool port n : Nat) : (giveCells s pool port n).net.macs = s.net.macs := by
  unfold giveCells
  rw [showPools_net]
  split <;> rfl

/-- A frame freed leaves what is on the MACs there. -/
theorem freePacket_macs (s : State) (u : Nat) : (freePacket s u).net.macs = s.net.macs := by
  unfold freePacket
  split
  · rfl
  next pk _ =>
    split
    · split <;> rfl
    · have huntag : (match pk.slot with
          | some i => untagUnit (giveCells s pk.pool pk.poolPort pk.cells) i
          | none => giveCells s pk.pool pk.poolPort pk.cells).net.macs = s.net.macs := by
        cases pk.slot with
        | some i => exact (congrArg NetSt.macs (untagUnit_net _ i)).trans (giveCells_macs _ _ _ _)
        | none => exact giveCells_macs _ _ _ _
      rw [← huntag]
      dsimp only
      split <;> rfl

theorem releaseRef_macs (s : State) (u : Nat) : (releaseRef s u).net.macs = s.net.macs := by
  unfold releaseRef
  split
  · rfl
  · split
    · exact freePacket_macs s u
    · rfl

theorem countSent_macs (s : State) (p q : Nat) (bs : List Byte) : (countSent s p q bs).net.macs = s.net.macs := by
  unfold countSent countCast
  dsimp only
  repeat' split
  all_goals rfl

theorem finishTx_macs (s : State) (p : Nat) (x : Tx) (pk : Packet) : (finishTx s p x pk).net.macs = s.net.macs := by
  unfold finishTx
  dsimp only
  rw [releaseRef_macs, correctShaper_net]
  split
  · rfl
  · split
    · split
      · rw [bump_net]
        exact countSent_macs _ _ _ _
      · exact countSent_macs _ _ _ _
    · exact countSent_macs _ _ _ _

theorem emitFrame_net (s : State) (p : Nat) (pre : Bool) (x : Tx) (pk : Packet) : (emitFrame s p pre x pk).net = s.net :=
  (changesOnly_of_kept (@kept_emitFrame [.io] (has_of rfl) s p pre x pk)).net_eq (by decide) (by decide) (by decide)

/-- The last fragment of a frame, if it is sent on the preemptable MAC. -/
def lastFragment (p : Nat) (pre : Bool) (x : Tx) : List Out :=
  if pre then [.mpacket p (if x.frags = 0 then .start else .cont) x.number ((x.frags - 1) % 4) (x.bytes.drop x.sent)]
  else []

/-- The capture that the sender of a frame gets, if it asked for one and the frame is whole. -/
def captureOf (s : State) (p : Nat) (x : Tx) (pk : Packet) : List Out :=
  if p < 48 ∧ !x.stomp ∧ wantsCapture s p pk then [.capture p x.egress pk.bytes] else []

/-- What leaves with a frame that has been sent, on every port but P48, latest first (R90 to R92). -/
theorem emitFrame_out (s : State) {p : Nat} (pre : Bool) (x : Tx) (pk : Packet) (hp : p ≠ 48) :
    (emitFrame s p pre x pk).io.out = captureOf s p x pk ++
      .frame p pre x.bytes x.stomp (if p = 49 then pk.stamp else x.egress) :: (lastFragment p pre x ++ s.io.out) := by
  unfold emitFrame captureOf
  simp only [hp, if_false]
  cases pre <;> split <;> rfl

section
variable (s : State) (p : Nat) (pre : Bool) (x : Tx) (pk : Packet)

theorem sentState_free : (sentState s p pre x pk).net.macs.find (2 * p + b2n pre) = none := by
  rw [sentState, finishTx_macs, emitFrame_net]
  exact SMap.find_del_same _ _

theorem sentState_out (hp : p ≠ 48) : (sentState s p pre x pk).io.out = captureOf s p x pk ++
    .frame p pre x.bytes x.stomp (if p = 49 then pk.stamp else x.egress) ::
      (lastFragment p pre x ++ (reachCut s p).io.out) := by
  obtain ⟨m, l, hcut⟩ := (macMove_reachCut s p).frame
  rw [sentState, finishTx_io, emitFrame_out _ pre x pk hp, hcut]
  rfl

end

/-- Settles O41: a selection by its picked head, the end of a transmission by its time, and a fragment that ends first. -/
theorem selectedFramesAreSent : Obligations.SelectedFramesAreSent := by
  unfold Obligations.SelectedFramesAreSent
  refine ⟨?_, ?_, ?_, ?_⟩
  · intro s p mac q r pk haloft hp hup hfree heligible hfit hpick _ hadmits hplain
    have hselect := frameSelect_sends (ecc := .clean) p.isLt haloft hup hfree heligible hfit hpick
      (sendHead_plain hp hadmits hplain)
    exact ⟨_, congrArg Host.Outcome.next hselect, onMac_startTx _ _ _ _ _ _ _ _ _, leafUids_plainStart _ _ _ _ _ _⟩
  · intro s p mac x pk hp hx hpk hruns hdue htail
    have hmove := macMove_settlePreempt (sentState s p (mac == .preemptable) x pk) p
    have hsent := sentState_out s p (mac == .preemptable) x pk hp
    refine ⟨_, congrArg Host.Outcome.next (transmitEnd_due hx hpk hruns hdue htail),
      settlePreempt_free _ (sentState_free s p _ x pk), hmove.out.subset ?_, fun hmac => hmove.out.subset ?_,
      fun hext hclean hwants => hmove.out.subset ?_, List.IsSuffix.trans ?_ hmove.out⟩
    · simp [hsent]
    · rw [hsent]
      simp [lastFragment, hmac]
    · simp [hsent, captureOf, hext, hclean, hwants]
    · rw [hsent, ← List.cons_append, ← List.append_assoc]
      exact (macMove_reachCut s p).out.trans (List.suffix_append _ _)
  · exact fun s p mac x hx hpk hearly => congrArg Host.Outcome.next (transmitEnd_early hx hpk hearly)
  · intro s p x y c hx hy hruns hcut hdue hearly hpk
    have hends := reachCut_due hx hcut hruns hdue
    have hkeeps : (reachCut s p).net.macs.find (2 * p.val + b2n (MacKind.express == .preemptable)) = some y :=
      ((macMove_reachCut s p).others _ (by simp [b2n])).trans hy
    have hstays := transmitEnd_early (mac := .express) hkeeps hpk hearly
    exact ⟨_, congrArg Host.Outcome.next (hstays.trans hends), ⟨_, SMap.find_set_same _ _ _, rfl, rfl, rfl⟩, rfl⟩

end Sys2Proof.Machine
end

section
/-!
The rule lookup (R139, R140): the rules of a slot in the order of their PRIO and INDEX, and the best of those that match.
-/
namespace Sys2Proof.Machine

/-- A rule that another does not precede: of a higher PRIO, or of the same PRIO and no higher INDEX (R140). -/
def outranks (x e : Nat × List Byte) : Prop :=
  rulePrio e.2 < rulePrio x.2 ∨ (rulePrio e.2 = rulePrio x.2 ∧ x.1 ≤ e.1)

theorem outranks_refl (x : Nat × List Byte) : outranks x x := .inr ⟨rfl, Nat.le_refl _⟩

theorem outranks_trans {x y z : Nat × List Byte} (hxy : outranks x y) (hyz : outranks y z) : outranks x z := by
  unfold outranks at *
  omega

/-- Does a rule take the place of the best one before it? -/
def supplants (e x : Nat × List Byte) : Bool :=
  rulePrio x.2 < rulePrio e.2 || (rulePrio x.2 == rulePrio e.2 && decide (e.1 < x.1))

theorem outranks_of_supplants {e x : Nat × List Byte} (h : supplants e x = true) : outranks e x := by
  simp only [supplants, Bool.or_eq_true, Bool.and_eq_true, decide_eq_true_eq, beq_iff_eq] at h
  unfold outranks
  omega

theorem outranks_of_not_supplants {e x : Nat × List Byte} (h : ¬ supplants e x = true) : outranks x e := by
  simp only [supplants, Bool.or_eq_true, Bool.and_eq_true, decide_eq_true_eq, beq_iff_eq] at h
  unfold outranks
  omega

/-- The best rule after one more is looked at. -/
def takeBetter (key : Nat) (best : Option (Nat × List Byte)) (e : Nat × List Byte) : Option (Nat × List Byte) :=
  if ruleHit key e.2 && best.all (supplants e) then some e else best

theorem winner_eq (s : State) (slot key : Nat) :
    winner s slot key = (recsOf s slot 0x0120).foldl (takeBetter key) none := rfl

/-- The best rule of a list for a key: one of the list that matches and that no other match precedes, or none where no
rule matches. -/
structure BestRule (key : Nat) (l : List (Nat × List Byte)) (best : Option (Nat × List Byte)) : Prop where
  mem : ∀ x, best = some x → x ∈ l
  hit : ∀ x, best = some x → ruleHit key x.2 = true
  top : ∀ x, best = some x → ∀ e ∈ l, ruleHit key e.2 = true → outranks x e
  misses : best = none → ∀ e ∈ l, ruleHit key e.2 = false

theorem bestRule_nil (key : Nat) : BestRule key [] none := ⟨by simp, by simp, by simp, by simp⟩

/-- A match that takes the place of the best rule before it is the best of both. -/
theorem BestRule.replaced {key : Nat} {l : List (Nat × List Byte)} {best : Option (Nat × List Byte)}
    {e : Nat × List Byte} (h : BestRule key l best) (hit : ruleHit key e.2 = true)
    (hbest : ∀ x, best = some x → supplants e x = true) : BestRule key (l ++ [e]) (some e) := by
  refine ⟨fun x hx => ?_, fun x hx => ?_, fun x hx y hy hyhit => ?_, fun hnone => by simp at hnone⟩
  all_goals obtain rfl := Option.some.inj hx
  · simp
  · exact hit
  · rcases List.mem_append.1 hy with hy | hy
    · cases hb : best with
      | none => exact absurd hyhit (by simp [h.misses hb y hy])
      | some x => exact outranks_trans (outranks_of_supplants (hbest x hb)) (h.top x hb y hy hyhit)
    · rw [List.mem_singleton.1 hy]
      exact outranks_refl _

/-- A rule that does not match, or that the best one before it outranks, changes nothing. -/
theorem BestRule.kept {key : Nat} {l : List (Nat × List Byte)} {best : Option (Nat × List Byte)}
    {e : Nat × List Byte} (h : BestRule key l best)
    (hbehind : ruleHit key e.2 = true → ∃ x, best = some x ∧ outranks x e) : BestRule key (l ++ [e]) best := by
  refine ⟨fun x hx => List.mem_append_left _ (h.mem x hx), h.hit, fun x hx y hy hyhit => ?_, fun hnone y hy => ?_⟩
  · rcases List.mem_append.1 hy with hy | hy
    · exact h.top x hx y hy hyhit
    · obtain rfl := List.mem_singleton.1 hy
      obtain ⟨z, hz, hout⟩ := hbehind hyhit
      obtain rfl : x = z := Option.some.inj (hx.symm.trans hz)
      exact hout
  · rcases List.mem_append.1 hy with hy | hy
    · exact h.misses hnone y hy
    · obtain rfl := List.mem_singleton.1 hy
      refine Bool.eq_false_iff.2 fun hyhit => ?_
      obtain ⟨z, hz, -⟩ := hbehind hyhit
      exact absurd (hnone.symm.trans hz) (by simp)

theorem BestRule.takeBetter {key : Nat} {l : List (Nat × List Byte)} {best : Option (Nat × List Byte)}
    (h : BestRule key l best) (e : Nat × List Byte) : BestRule key (l ++ [e]) (takeBetter key best e) := by
  unfold Machine.takeBetter
  split
  next hbetter =>
    obtain ⟨hit, hall⟩ := Bool.and_eq_true_iff.1 hbetter
    exact h.replaced hit fun x hx => by simpa [hx] using hall
  next hworse =>
    refine h.kept fun hit => ?_
    cases hb : best with
    | none => simp [hit, hb] at hworse
    | some x => exact ⟨x, rfl, outranks_of_not_supplants (by simpa [hit, hb] using hworse)⟩

theorem bestRule_foldl (key : Nat) (l : List (Nat × List Byte)) : BestRule key l (l.foldl (takeBetter key) none) := by
  induction l using List.reverseRecOn with
  | nil => exact bestRule_nil key
  | append_singleton l e ih =>
    rw [List.foldl_concat]
    exact ih.takeBetter e

/-- The winner of a slot is the best of its rules. -/
theorem bestRule_winner (s : State) (slot key : Nat) : BestRule key (recsOf s slot 0x0120) (winner s slot key) :=
  winner_eq s slot key ▸ bestRule_foldl key _

theorem ruleHit_iff (key : Nat) (b : List Byte) : ruleHit key b = true ↔
    bitAt (leAt b 162 2) 0 = true ∧ key &&& keyNum (slice b 80 80) = keyNum (slice b 0 80) := by
  rw [ruleHit, Bool.and_eq_true, beq_iff_eq]

theorem lookup_winner {s : State} {slot key i : Nat} {b : List Byte} (h : winner s slot key = some (i, b)) (edge : Bool) :
    (lookup s slot key edge).1 = i ∧ (lookup s slot key edge).2.1 = slice b 168 16 := by
  simp only [lookup, h, and_self]

theorem lookup_default {s : State} {slot key : Nat} (h : winner s slot key = none) (edge : Bool) :
    (lookup s slot key edge).1 = 0xFFFF ∧
    (lookup s slot key edge).2.1 = slice (parserOf s slot) (if edge then 16 else 0) 16 := by
  simp only [lookup, h, and_self]

/-- Settles O12: the lookup's pass over a slot's rules keeps the best one it has met. -/
theorem ruleLookupPicksTheBestRule : Obligations.RuleLookupPicksTheBestRule := by
  unfold Obligations.RuleLookupPicksTheBestRule
  refine ⟨ruleHit_iff, fun s slot key i b hwin => ?_, fun s slot key hnone => ?_,
    fun s slot key i b edge hwin => lookup_winner hwin edge, fun s slot key edge hnone => lookup_default hnone edge⟩
  · have hbest := bestRule_winner s slot key
    exact ⟨hbest.mem _ hwin, hbest.hit _ hwin, hbest.top _ hwin⟩
  · exact (bestRule_winner s slot key).misses hnone

end Sys2Proof.Machine
end

section
/-!
Fragments and conversations (R143, R165): an entry that expires goes alone and is counted, and CONV_ACC shows an entry's
words or empties the table.
-/
namespace Sys2Proof.Machine

/-! Fragments. -/

theorem regsSame.raiseTo {s t : State} {l : List Fld} {f : Fld} (h : regsSame s t l) (hf : f ∈ l) (v : Nat) :
    regsSame s (raiseTo t f v) l := by
  unfold Machine.raiseTo
  split
  · exact h.put hf _
  · exact h

theorem showFrags_regsSame (s : State) :
    regsSame s (showFrags s) [Reg.fragEntriesFragEntries, Reg.fragEntriesFragHigh] :=
  ((regsSame.refl s _).put (by simp) _).raiseTo (by simp) _

theorem showFrags_frame (s : State) : showFrags s = { s with regs := (showFrags s).regs } := by
  apply State.eq_of_parts <;> simp [showFrags]

/-- A fragment entry gone and counted, before the number of entries is shown. -/
def fragGone (s : State) (i : Nat) : State :=
  bump { s with net.frags := s.net.frags.del i } Reg.fragStatsFragExpired

theorem fragExpiry_due {s : State} {i : Nat} {e : Frag} (he : s.net.frags.find i = some e)
    (hold : e.madeAt + 50000000 ≤ s.time.now) : fragExpiry s i = showFrags (fragGone s i) := by
  simp only [fragExpiry, he, if_pos hold, fragGone]

theorem fragExpiry_early {s : State} {i : Nat} {e : Frag} (he : s.net.frags.find i = some e)
    (hyoung : s.time.now < e.madeAt + 50000000) : fragExpiry s i = s := by
  simp only [fragExpiry, he, if_neg (Nat.not_le.2 hyoung)]

theorem fragExpired_net (s : State) (i : Nat) :
    (showFrags (fragGone s i)).net = { s.net with frags := s.net.frags.del i } := by
  rw [showFrags_frame]
  rfl

/-! Conversations. -/

/-- A conversation gone and counted, before the number of entries is shown. -/
def convGone (s : State) (i : Nat) : State := bump { s with net.convs := s.net.convs.del i } Reg.convExpired

theorem convExpiry_due {s : State} {i : Nat} {c : Conv} (hc : s.net.convs.find i = some c)
    (hopen : s.net.convFlushing = false) (hidle : convTimeout s c * 1000000000 < s.time.now - c.hitAt) :
    convExpiry s i = showConvs (convGone s i) := by
  simp only [convExpiry, hc, hopen, Bool.not_false, true_and, if_pos hidle, convGone]

theorem convExpiry_early {s : State} {i : Nat} {c : Conv} (hc : s.net.convs.find i = some c)
    (hsoon : s.time.now - c.hitAt ≤ convTimeout s c * 1000000000) : convExpiry s i = s := by
  simp only [convExpiry, hc, if_neg fun h : _ ∧ _ => Nat.not_lt.2 hsoon h.2]

/-! CONV_ACC. -/

/-- CONV_ACC_CTL written, before it acts. -/
def convNamed (s : State) (w : Nat) : State := put s Reg.convAccCtlIndex (bitsAt w 2 16)

/-- A read's words in CONV_ACC_DATA, and DONE unless a flush is in hand. -/
def convShown (s : State) (w : Nat) (bs : List Byte) : State :=
  put (putWords (convNamed s w) Reg.convAccData 12 bs) Reg.convAccCtlDone (b2n (!s.net.convFlushing))

theorem convCtl_reads {s : State} {w : Nat} (hread : bitAt w 0 = true) (hflush : bitAt w 1 = false) :
    convCtl s w = convShown s w (((s.net.convs.find (bitsAt w 2 16)).map (convBytes s)).getD []) := by
  simp only [convCtl, hread, hflush, if_true, Bool.false_eq_true, if_false]
  rfl

theorem convAccData_apart (i j : Nat) (h : (Reg.convAccData i).key = (Reg.convAccData j).key) : i = j := by
  simp only [Fld.key, Reg.convAccData] at h
  omega

theorem convAccData_above {f : Fld} (hf : f.key < 0x610140 * 32) (i : Nat) : (Reg.convAccData i).key ≠ f.key := by
  simp only [Fld.key, Reg.convAccData] at hf ⊢
  omega

/-- CONV_ACC_DATA shows the words read. -/
theorem get_convShown_data (s : State) (w : Nat) (bs : List Byte) {i : Nat} (hi : i < 12) :
    get (convShown s w bs) (Reg.convAccData i) = leAt bs (4 * i) 4 := by
  rw [convShown, get_put_ne _ _ _ _ (convAccData_above (by decide) i), get_putWords_same convAccData_apart _ _ hi]
  exact Nat.mod_eq_of_lt (leAt_lt _ _ _)

theorem get_convShown_done {s : State} (hopen : s.net.convFlushing = false) (w : Nat) (bs : List Byte) :
    get (convShown s w bs) Reg.convAccCtlDone = 1 := by
  rw [convShown, get_put_same, hopen]
  rfl

theorem convShown_regsSame (s : State) (w : Nat) (bs : List Byte) : regsSame s (convShown s w bs)
    (Reg.convAccCtlIndex :: Reg.convAccCtlDone :: (List.range 12).map Reg.convAccData) := by
  refine (((regsSame.refl s _).put (by simp) _).putWords (fun i hi => ?_) bs).put (by simp) _
  exact List.mem_cons_of_mem _ (List.mem_cons_of_mem _ (List.mem_map_of_mem (List.mem_range.2 hi)))

theorem convShown_frame (s : State) (w : Nat) (bs : List Byte) :
    convShown s w bs = { s with regs := (convShown s w bs).regs } := by
  rw [convShown, putWords_frame]
  rfl

theorem leNat_zeros (n : Nat) : leNat (List.replicate n 0) = 0 := by
  induction n with
  | zero => rfl
  | succ n ih => rw [List.replicate_succ, leNat, ih]; rfl

/-- A word beyond the bytes there are is zero. -/
theorem leAt_nil (o n : Nat) : leAt [] o n = 0 := by
  have hzeros : slice [] o n = List.replicate n 0 := by simp [slice]
  rw [leAt, hzeros, leNat_zeros]

/-- A flush in hand. -/
def convFlushStarted (s : State) (w : Nat) : State :=
  put { convNamed s w with net.convFlushing := true } Reg.convAccCtlDone 0

theorem convCtl_flushes {s : State} {w : Nat} (hread : bitAt w 0 = false) (hflush : bitAt w 1 = true) :
    convCtl s w = convFlushStarted s w := by
  simp only [convCtl, hread, hflush, if_true, Bool.false_eq_true, if_false]
  rfl

theorem convFlushStarted_regsSame (s : State) (w : Nat) :
    regsSame s (convFlushStarted s w) [Reg.convAccCtlIndex, Reg.convAccCtlDone] :=
  (((regsSame.refl s _).put (by simp) _).congr rfl).put (by simp) _

/-- A flush done: the table is empty. -/
def convFlushed (s : State) : State :=
  put (put { s with net := { s.net with convs := [], convFlushing := false } } Reg.convUsed 0) Reg.convAccCtlDone 1

theorem convFlushDone_flushing {s : State} (h : s.net.convFlushing = true) : convFlushDone s = convFlushed s := by
  simp only [convFlushDone, h, if_true]
  rfl

theorem convFlushed_regsSame (s : State) : regsSame s (convFlushed s) [Reg.convUsed, Reg.convAccCtlDone] :=
  (((regsSame.refl s _).congr rfl).put (by simp) _).put (by simp) _

/-- Settles O35, clause by clause: what an expiry removes, and what an access to CONV_ACC shows or empties. -/
theorem fragmentsAndConversations : Obligations.FragmentsAndConversations := by
  unfold Obligations.FragmentsAndConversations
  refine ⟨fun s i e he hold => ?_, fun s i e he hyoung => congrArg Host.Outcome.next (fragExpiry_early he hyoung),
    fun s i c hc hopen hidle => ?_, fun s i c hc hsoon => congrArg Host.Outcome.next (convExpiry_early hc hsoon),
    fun s m w c hacc hread hflush hc hopen => ?_, fun s m w hacc hread hflush hc => ?_,
    fun s m w hacc hread hflush => ?_, fun s hflush => ?_⟩
  case refine_1 =>
    have hshown := showFrags_regsSame (fragGone s i)
    have hgone : regsSame s (fragGone s i)
        [Reg.fragStatsFragExpired, Reg.fragEntriesFragEntries, Reg.fragEntriesFragHigh] :=
      ((regsSame.refl s _).congr rfl).bump (by simp)
    have hcount : get (fragGone s i) Reg.fragStatsFragExpired =
      min (2 ^ Reg.fragStatsFragExpired.width - 1) (get s Reg.fragStatsFragExpired + 1) := get_bump_same _ _
    refine ⟨_, congrArg Host.Outcome.next (fragExpiry_due he hold), ?_, fun k hk => ?_,
      (hshown _ (by decide)).trans hcount, ?_, ?_⟩
    · rw [fragExpired_net]
      exact SMap.find_del_same _ _
    · rw [fragExpired_net]
      exact SMap.find_del_ne _ _ _ hk
    · exact (hgone.put (by simp) _).raiseTo (by simp) _
    · rw [showFrags_frame]
      rfl
  case refine_2 =>
    have hused : get (showConvs (convGone s i)) Reg.convExpired = get (convGone s i) Reg.convExpired :=
      get_put_ne _ _ _ _ (by decide)
    have hsame : regsSame s (showConvs (convGone s i)) [Reg.convExpired, Reg.convUsed] :=
      (((regsSame.refl s _).congr rfl).bump (by simp)).put (by simp) _
    exact ⟨_, congrArg Host.Outcome.next (convExpiry_due hc hopen hidle), SMap.find_del_same _ _,
      fun k hk => SMap.find_del_ne _ _ _ hk, hused.trans (get_bump_same _ _), hsame, rfl⟩
  case refine_3 =>
    have haccess := accessWrite_accepted s m 0x610100 (convCtl · w.toNat) hacc
    rw [convCtl_reads hread hflush, hc] at haccess
    refine ⟨_, congrArg Host.Outcome.next haccess, ?_⟩
    simp only [get_answered]
    refine ⟨get_convShown_done hopen _ _, fun i hi => get_convShown_data _ _ _ hi,
      regsSame_answered (convShown_regsSame _ _ _) _ _ _, ?_⟩
    rw [convShown_frame]
    apply State.eq_of_parts <;> simp
  case refine_4 =>
    have haccess := accessWrite_accepted s m 0x610100 (convCtl · w.toNat) hacc
    rw [convCtl_reads hread hflush, hc] at haccess
    refine ⟨_, congrArg Host.Outcome.next haccess, fun i hi => ?_⟩
    rw [get_answered]
    exact (get_convShown_data _ _ _ hi).trans (leAt_nil _ _)
  case refine_5 =>
    have haccess := accessWrite_accepted s m 0x610100 (convCtl · w.toNat) hacc
    rw [convCtl_flushes hread hflush] at haccess
    refine ⟨_, congrArg Host.Outcome.next haccess, ?_⟩
    simp only [get_answered, noteGrant_net, answer_net]
    refine ⟨rfl, get_put_same _ _ _, rfl, regsSame_answered (convFlushStarted_regsSame _ _) _ _ _, ?_⟩
    apply State.eq_of_parts <;> simp [convFlushStarted, convNamed]
  case refine_6 =>
    have hused : get (convFlushed s) Reg.convUsed = 0 := (get_put_ne _ _ _ _ (by decide)).trans (get_put_same _ _ _)
    exact ⟨_, congrArg Host.Outcome.next (convFlushDone_flushing hflush), rfl, rfl, hused, get_put_same _ _ _,
      convFlushed_regsSame s, rfl⟩

end Sys2Proof.Machine
end

section
/-!
The shadow self-test (R147) and the count of pipeline cycles. SLOT_TOTAL holds 64 bits. A self-test in an idle cycle takes
none of its own and leaves the count, which the statement, for a state of any kind, asks to be cut to 64 bits.
-/
namespace Sys2Proof.Machine

/-- A flagged self-test in an idle cycle leaves SLOT_TOTAL. -/
theorem slotTotal_shadowSelftest_idle {s : State} (haloft : aloft s = true)
    (hdue : s.net.selftestTempo ≠ some (tempoNo s)) :
    get (shadowSelftest s true true) Reg.slotTotal = get s Reg.slotTotal := by
  have hruns : shadowSelftest s true true = bump (putFlag { s with net.selftestTempo := some (tempoNo s) }
      Reg.shadowStatusSelftestLast true) cntSelftestPasses := by
    simp only [shadowSelftest, haloft, hdue, Bool.not_true, Bool.false_eq_true, or_self, if_false, if_true]
  rw [hruns, get_bump_ne _ _ _ (by decide), get_putFlag_ne _ _ _ _ (by decide)]
  rfl

/-- A device aloft whose SLOT_TOTAL holds 2^64, which its 64 bits cannot. -/
def strayTotal : State := { State.reset with boot.phase := .aloft, regs := [(Reg.slotTotal.key, 2 ^ 64)] }

/-- Refutes O36: after a self-test in an idle cycle SLOT_TOTAL need not be what it was modulo 2^64. Where the state holds
2^64 there, it stays. -/
theorem not_shadowSelftestRunsOncePerTempo : ¬ Obligations.ShadowSelftestRunsOncePerTempo := by
  unfold Obligations.ShadowSelftestRunsOncePerTempo
  intro h
  obtain ⟨hflagged, -⟩ := h
  have hdue : strayTotal.net.selftestTempo ≠ some (tempoNo strayTotal) := by simp [strayTotal, State.reset]
  obtain ⟨t, ht, -, -, -, -, htotal⟩ := hflagged strayTotal true rfl hdue
  obtain rfl : shadowSelftest strayTotal true true = t := Host.Outcome.next.inj ht
  have hbefore : get strayTotal Reg.slotTotal = 2 ^ 64 := rfl
  rw [slotTotal_shadowSelftest_idle rfl hdue, hbefore] at htotal
  exact absurd htotal (by decide)

end Sys2Proof.Machine
end

section
/-!
The decision of a frame outside its port's VLANs (R149, R157). A frame that is dropped while some of it is still to come
stays, marked as dropped, until that has been absorbed (R116). The statement asks for its number to be free at once and
requires only that its tail is judged, which says nothing of what is still to come.
-/
namespace Sys2Proof.Machine

/-- An undecided frame of P0 in slot 0, written whole, whose tail is judged good and not yet recorded as come. -/
def unfinishedFrame : Packet :=
  { newPacket State.reset 0 ⟨zeros 60, false, none, false, false, false⟩ none with
    slot := some 0, written := 60, tail := 1 }

/-- A device aloft without VLANs that holds this frame alone. -/
def strayDrop : State := { State.reset with boot.phase := .aloft, net.packets := [(0, unfinishedFrame)] }

theorem sourceOffered_strayDrop : sourceOffered strayDrop (.port 0) = true := by decide +kernel

theorem ingressVlan_strayDrop : ingressVlan strayDrop 0 unfinishedFrame.port unfinishedFrame.bytes = none := by
  decide +kernel

/-- The frame is dropped and stays under its number. -/
theorem packetOf_decided_strayDrop :
    (packetOf (unitDecision strayDrop (.port 0) .clean) 0).map (fun pk => pk.dropped) = some true := by
  decide +kernel

/-- Refutes O40: a frame outside its port's VLANs need not be gone with its decision. One whose tail is judged and that
has not come whole is dropped and stays for what is still to come of it. -/
theorem not_unitsAreDecided : ¬ Obligations.UnitsAreDecided := by
  unfold Obligations.UnitsAreDecided
  intro h
  obtain ⟨-, -, -, -, hvlan, -⟩ := h
  obtain ⟨t, ht, hgone, -⟩ := hvlan strayDrop 0 0 unfinishedFrame 0 rfl rfl sourceOffered_strayDrop rfl (by decide) rfl
    rfl (by decide) ingressVlan_strayDrop rfl
  obtain rfl : unitDecision strayDrop (.port 0) .clean = t := Host.Outcome.next.inj ht
  have hstays := packetOf_decided_strayDrop
  rw [hgone] at hstays
  exact absurd hstays (by decide)

end Sys2Proof.Machine
end

section
/-!
Containment (R166 to R172). CONT_STATUS lies below CONT_CAUSE, so an activation's cause and count fall on no field up to
CONT_STATUS, whatever the profile's number.
-/
namespace Sys2Proof.Machine

/-! Bits. -/

theorem bitAt_mod_two_pow {n i : Nat} (hi : i < n) (v : Nat) : bitAt (v % 2 ^ n) i = bitAt v i := by
  simp [bitAt, Nat.testBit_mod_two_pow, hi]

theorem bitAt_get_put {f : Fld} {i : Nat} (hi : i < f.width) (s : State) (v : Nat) :
    bitAt (get (put s f v) f) i = bitAt v i := by
  rw [get_put_same, bitAt_mod_two_pow hi]

/-- A number without the bits it shares with another. -/
theorem testBit_sub_and (a b i : Nat) : (a - (a &&& b)).testBit i = (a.testBit i && !b.testBit i) := by
  induction i generalizing a b with
  | zero =>
    have hle : a &&& b ≤ a := Nat.and_le_left
    have hlow : (a &&& b) % 2 = 1 ↔ a % 2 = 1 ∧ b % 2 = 1 := Nat.and_mod_two_eq_one
    have hdiff : (a - (a &&& b)) % 2 = 1 ↔ a % 2 = 1 ∧ ¬ b % 2 = 1 := by omega
    simp only [Nat.testBit_zero, hdiff, Bool.decide_and, decide_not]
  | succ i ih =>
    have hle : a &&& b ≤ a := Nat.and_le_left
    have hlow : (a &&& b) % 2 = 1 ↔ a % 2 = 1 ∧ b % 2 = 1 := Nat.and_mod_two_eq_one
    have hhalf : (a - (a &&& b)) / 2 = a / 2 - (a / 2 &&& b / 2) := by
      rw [← Nat.and_div_two]
      omega
    simp only [Nat.testBit_add_one, hhalf]
    exact ih _ _

theorem mem_bitList (v n i : Nat) : i ∈ bitList v n ↔ i < n ∧ bitAt v i = true := by
  simp [bitList, bitAt]

/-! Activation. -/

/-- The fields up to CONT_STATUS are not among the fields of CONT_CAUSE. -/
theorem key_ne_of_low {f : Fld} (hf : f.key < 0x610004 * 32) (p : Nat) :
    f.key ≠ (Reg.contCauseCause p).key ∧ f.key ≠ (Reg.contCauseActivations p).key := by
  simp only [Fld.key, Reg.contCauseCause, Reg.contCauseActivations] at hf ⊢
  omega

/-- The profile active and counted, before its cause is shown. -/
def activated (s : State) (p : Nat) : State :=
  if profileActive s p then bump s (Reg.contCauseActivations p)
  else
    let counted := bump s (Reg.contCauseActivations p)
    { put counted Reg.contStatusActive (get counted Reg.contStatusActive ||| 2 ^ p) with
      cont.since := counted.cont.since.set p (tempoNo counted)
      cont.kept := counted.cont.kept.put p (profileRec counted (curSlot counted) p) }

/-- The causes of a profile once it has gained one: an idle profile starts afresh. -/
def causesWith (s : State) (p cause : Nat) : Nat :=
  (if profileActive s p then get (activated s p) (Reg.contCauseCause p) else 0) ||| 2 ^ cause

/-- The profile active, counted and with its cause, before the entry is asked for. -/
def caused (s : State) (p cause : Nat) : State :=
  put (activated s p) (Reg.contCauseCause p) (causesWith s p cause)

/-- An activation is journaled unless the profile was active with the cause. -/
theorem contActivate_eq (s : State) (p cause master : Nat) : contActivate s p cause master =
    if profileActive s p ∧ bitAt (get s (Reg.contCauseCause p)) cause then caused s p cause
    else journal (caused s p cause) 0x0030 (leBytes 1 p ++ leBytes 1 cause ++ leBytes 1 master) := rfl

theorem activated_idle {s : State} {p : Nat} (hidle : profileActive s p = false) :
    get (activated s p) Reg.contStatusActive = (get s Reg.contStatusActive ||| 2 ^ p) % 2 ^ 8 ∧
    (activated s p).cont.since = s.cont.since.set p (tempoNo s) := by
  have hcounted {f : Fld} (hf : f.key < 0x610004 * 32) : get (bump s (Reg.contCauseActivations p)) f = get s f :=
    get_bump_ne _ _ _ (key_ne_of_low hf p).2
  simp only [activated, hidle, Bool.false_eq_true, if_false, tempoNo, hcounted (f := Reg.tempoNum) (by decide),
    hcounted (f := Reg.contStatusActive) (by decide)]
  exact ⟨get_put_same _ _ _, rfl⟩

theorem activated_active {s : State} {p : Nat} (hactive : profileActive s p = true) :
    activated s p = bump s (Reg.contCauseActivations p) := if_pos hactive

theorem activated_regsSame (s : State) (p : Nat) :
    regsSame s (activated s p) [Reg.contStatusActive, Reg.contCauseActivations p] := by
  have hcounted := (regsSame.refl s [Reg.contStatusActive, Reg.contCauseActivations p]).bump
    (f := Reg.contCauseActivations p) (by simp)
  unfold activated
  split
  · exact hcounted
  · exact (hcounted.put (by simp) _).congr rfl

theorem activated_cont (s : State) (p : Nat) : (activated s p).cont =
    { s.cont with since := (activated s p).cont.since, kept := (activated s p).cont.kept } := by
  unfold activated
  split <;> rfl

theorem caused_jobs_sheet (s : State) (p cause : Nat) :
    (caused s p cause).jobs = s.jobs ∧ (caused s p cause).sheet = s.sheet := by
  unfold caused activated
  split <;> exact ⟨rfl, rfl⟩

section
variable (s : State) (p cause master : Nat)

theorem get_contActivate {f : Fld} (hf : f.key ≠ Reg.sbStatsLost.key) :
    get (contActivate s p cause master) f = get (caused s p cause) f := by
  rw [contActivate_eq]
  split
  · rfl
  · exact get_journal_ne _ _ _ _ hf

theorem contActivate_cont : (contActivate s p cause master).cont =
    { s.cont with since := (activated s p).cont.since, kept := (activated s p).cont.kept } := by
  rw [← activated_cont, contActivate_eq]
  split
  · rfl
  · exact journal_cont _ _ _

theorem contActivate_regsSame : regsSame s (contActivate s p cause master)
    [Reg.contStatusActive, Reg.contCauseCause p, Reg.contCauseActivations p, Reg.sbStatsLost] := by
  have hcaused : regsSame s (caused s p cause)
      [Reg.contStatusActive, Reg.contCauseCause p, Reg.contCauseActivations p, Reg.sbStatsLost] :=
    ((activated_regsSame s p).mono (by simp)).put (by simp) _
  intro g hg
  rw [get_contActivate s p cause master (keys_of_all hg (by simp)), hcaused g hg]

/-- The activated profile is active, and of the others those that were. -/
theorem profileActive_contActivate {q : Nat} (hq : q < 8) :
    profileActive (contActivate s p cause master) q = (decide (p = q) || profileActive s q) := by
  have hcaused : get (caused s p cause) Reg.contStatusActive = get (activated s p) Reg.contStatusActive :=
    get_put_ne _ _ _ _ (key_ne_of_low (by decide) p).1
  rw [profileActive, get_contActivate s p cause master (by decide), hcaused]
  cases hwas : profileActive s p with
  | true =>
    rw [activated_active hwas, get_bump_ne _ _ _ (key_ne_of_low (by decide) p).2]
    by_cases hpq : p = q
    · simpa [← hpq, profileActive] using hwas
    · simp [hpq, profileActive]
  | false =>
    rw [(activated_idle hwas).1, bitAt_mod_two_pow hq]
    simp [profileActive, bitAt, Nat.testBit_two_pow, Bool.or_comm]

/-- The cause is among the profile's. -/
theorem bitAt_contActivate_cause (hcause : cause < 5) :
    bitAt (get (contActivate s p cause master) (Reg.contCauseCause p)) cause = true := by
  rw [get_contActivate s p cause master (key_ne_of_low (f := Reg.sbStatsLost) (by decide) p).1.symm, caused,
    bitAt_get_put (f := Reg.contCauseCause p) hcause]
  simp [causesWith, bitAt]

variable {s p}

theorem since_contActivate (hidle : profileActive s p = false) :
    (contActivate s p cause master).cont.since.find p = some (tempoNo s) := by
  rw [contActivate_cont, (activated_idle hidle).2]
  exact SMap.find_set_same _ _ _

/-- A profile that becomes active has an entry asked for (R171). -/
theorem asked_contActivate (hidle : profileActive s p = false) : asked s (contActivate s p cause master) 1 := by
  obtain ⟨hjobs, hsheet⟩ := caused_jobs_sheet s p cause
  rw [contActivate_eq, if_neg (by simp [hidle])]
  exact (asked_journal _ _ _).congr hjobs.symm hsheet.symm rfl rfl

end

/-! A write of CONT_ACT. -/

theorem profileActive_answered (u : State) (m : Master) (r : Resp) (a p : Nat) :
    profileActive (noteGrant (answer u m r) a m) p = profileActive u p := congrArg (bitAt · p) (get_answered _ _ _ _ _)

theorem causeBit_lt (m : Master) : causeBit m < 5 := by
  cases m <;> simp [causeBit]

theorem contActWrite_activates {s : State} {m : Master} {w : Nat} {b : List Byte} (hgo : bitAt w 3 = true)
    (hrec : profileRec s (curSlot s) (w % 8) = some b) (hmay : actMay s m b = true) :
    contActWrite s m w = contActivate s (w % 8) (causeBit m) (conflictCode m) := by
  simp [contActWrite, hgo, hrec, hmay]

theorem contActWrite_refused {s : State} {m : Master} {w : Nat} (hgo : bitAt w 3 = true)
    (hmay : ∀ b, profileRec s (curSlot s) (w % 8) = some b → actMay s m b = false) :
    contActWrite s m w = bump s Reg.contStatsRefused := by
  unfold contActWrite
  rw [hgo]
  cases hrec : profileRec s (curSlot s) (w % 8) with
  | none => rfl
  | some b => simp [hmay b hrec]

/-- A refused CONT_ACT is counted and nothing else. -/
theorem contAct_refused {s : State} {m : Master} {w : Word} (hacc : accepts s m 0x610004 = true)
    (hgo : bitAt w.toNat 3 = true)
    (hmay : ∀ b, profileRec s (curSlot s) (w.toNat % 8) = some b → actMay s m b = false) :
    ∃ t, exec (.contAct m w) s = .next t ∧
      get t Reg.contStatsRefused = min (2 ^ Reg.contStatsRefused.width - 1) (get s Reg.contStatsRefused + 1) ∧
      t.cont = s.cont ∧ regsSame s t [Reg.contStatsRefused] := by
  have haccess := accessWrite_accepted s m 0x610004 (contActWrite · m w.toNat) hacc
  rw [contActWrite_refused hgo hmay] at haccess
  refine ⟨_, congrArg Host.Outcome.next haccess, ?_, ?_, regsSame_answered ?_ _ _ _⟩
  · rw [get_answered, get_bump_same]
  · simp
  · exact (regsSame.refl s _).bump (by simp)

/-! Release. -/

section
variable (s : State) (m : Master) (w : Nat)

/-- The releases asked for: those from before, and by the safety pair those the word names. -/
theorem mem_relAt_contRelWrite (e : Nat × Nat) : e ∈ (contRelWrite s m w).cont.relAt ↔ e ∈ s.cont.relAt ∨
    (m = .sp ∧ e.2 = boundaryAfter s 2000 ∧ e.1 < 8 ∧ bitAt w e.1 = true) := by
  have hnamed (p n : Nat) : (p, n) ∈ (bitList (w % 256) 8).map (fun p => (p, boundaryAfter s 2000)) ↔
      n = boundaryAfter s 2000 ∧ p < 8 ∧ bitAt w p = true := by
    simp only [List.mem_map, mem_bitList, Prod.mk.injEq]
    constructor
    · rintro ⟨q, ⟨hq, hbit⟩, rfl, rfl⟩
      exact ⟨rfl, hq, (bitAt_mod_two_pow (n := 8) hq w).symm.trans hbit⟩
    · rintro ⟨rfl, hp, hbit⟩
      exact ⟨p, ⟨hp, (bitAt_mod_two_pow (n := 8) hp w).trans hbit⟩, rfl, rfl⟩
  obtain ⟨p, n⟩ := e
  by_cases hm : m = .sp
  · simp only [contRelWrite, hm, put_cont, beq_self_eq_true, if_true, List.mem_append, List.mem_filter, hnamed]
    by_cases hold : (p, n) ∈ s.cont.relAt <;> simp [hold]
  · simp [contRelWrite, hm]

theorem relPend_contRelWrite {p : Nat} (hp : p < 8) : bitAt (get (contRelWrite s m w) Reg.contStatusRelPend) p =
    (bitAt (get s Reg.contStatusRelPend) p && !bitAt w (8 + p)) := by
  have hdeny : (w / 256 % 256).testBit p = w.testBit (8 + p) := by
    rw [Nat.add_comm, Nat.testBit_add]
    exact bitAt_mod_two_pow (n := 8) hp _
  rw [contRelWrite, bitAt_get_put (f := Reg.contStatusRelPend) hp, bitAt, testBit_sub_and, hdeny]
  rfl

theorem contRelWrite_regsSame : regsSame s (contRelWrite s m w) [Reg.contStatusRelPend] :=
  ((regsSame.refl s _).congr rfl).put (by simp) _

end

/-- A word without release bits asks for none. -/
theorem contRelWrite_denies {w : Nat} (h : w % 256 = 0) (s : State) (m : Master) :
    (contRelWrite s m w).cont.relAt = s.cont.relAt := by
  have hnone : bitList (w % 256) 8 = [] := by rw [h]; rfl
  simp [contRelWrite, hnone]

/-- A request shown, before its source is raised. -/
def relAsked (s : State) (w : Nat) : State :=
  put s Reg.contStatusRelPend (get s Reg.contStatusRelPend ||| w % 256)

theorem contRelReqWrite_raises {w : Nat} (h : w % 256 ≠ 0) (s : State) :
    contRelReqWrite s w = raiseSource (relAsked s w) 2 := if_neg h

theorem relPend_relAsked (s : State) (w : Nat) {p : Nat} (hp : p < 8) :
    bitAt (get (relAsked s w) Reg.contStatusRelPend) p = (bitAt (get s Reg.contStatusRelPend) p || bitAt w p) := by
  have hnamed : (w % 256).testBit p = w.testBit p := bitAt_mod_two_pow (n := 8) hp w
  rw [relAsked, bitAt_get_put (f := Reg.contStatusRelPend) hp, bitAt, Nat.testBit_or, hnamed]
  rfl

/-! RIPCORD_N. -/

/-- The pin low, its hold ended, before the assertion acts. -/
def pinFell (s : State) (ns : Nat) : State :=
  put { s with cont.pinLow := true, cont.fellAt := s.time.now - ns } Reg.contStatusRipcordHeld 0

/-- The pin high again, its hold begun. -/
def pinRose (s : State) : State :=
  put { s with cont.pinLow := false, cont.roseAt := s.time.now } Reg.contStatusRipcordHeld 1

theorem get_showRipcord_ne (s : State) {f : Fld} (hf : f.key ≠ Reg.contStatusRipcordIn.key) :
    get (showRipcord s) f = get s f := get_putFlag_ne _ _ _ _ hf

theorem get_showRipcord_in (s : State) :
    get (showRipcord s) Reg.contStatusRipcordIn = b2n (s.cont.pinLow || s.cont.pinLatched) := by
  rw [showRipcord, get_putFlag_same]
  cases s.cont.pinLow || s.cont.pinLatched <;> rfl

section
variable {s : State} {ns : Nat}

/-- A long pulse of an idle pin with supply acts. -/
theorem ripcordAssert_acts (hlong : 700 < ns) (hhigh : s.cont.pinLow = false) (hsupply : s.boot.phase ≠ .off) :
    ripcordAssert s ns = showRipcord
      (if aloft s then contActivate (pinFell s ns) 0 0 0xFF else { pinFell s ns with cont.pinLatched := true }) := by
  simp only [ripcordAssert, if_pos hlong, hhigh, beq_eq_false_iff_ne.2 hsupply]
  rfl

theorem ripcordAssert_short (hshort : ns < 300) : ripcordAssert s ns = s := by
  simp [ripcordAssert, if_neg (show ¬ 700 < ns by omega), if_pos hshort]

theorem ripcordDeassert_low (hlow : s.cont.pinLow = true) : ripcordDeassert s = showRipcord (pinRose s) := by
  simp only [ripcordDeassert, hlow, Bool.not_true, Bool.false_eq_true, if_false]
  rfl

theorem ripcordExpiry_due (hhigh : s.cont.pinLow = false) (hdue : s.cont.roseAt + 1000000 ≤ s.time.now) :
    ripcordExpiry s = put s Reg.contStatusRipcordHeld 0 := by
  simp [ripcordExpiry, ripcordHigh, hhigh, hdue]

theorem ripcordExpiry_early (hearly : s.time.now < s.cont.roseAt + 1000000) : ripcordExpiry s = s := by
  simp [ripcordExpiry, ripcordHigh, Nat.not_le.2 hearly]

end

/-- Settles O37, clause by clause: activation by a master, its refusal, release and denial, and the ripcord. -/
theorem containmentFollowsItsCauses : Obligations.ContainmentFollowsItsCauses := by
  unfold Obligations.ContainmentFollowsItsCauses
  refine ⟨fun s m w b hacc hgo hrec hmay => ?_,
    fun s m w b hacc hgo hrec hmay => contAct_refused hacc hgo fun c hc => ?_,
    fun s m w hacc hgo hnone => contAct_refused hacc hgo fun c hc => ?_,
    fun s m w hacc hw => ?_, fun s m w hacc hlow _ => ?_, fun s m w hacc hlow hidle => ?_,
    fun s ns hlong haloft hhigh => ?_, fun s ns hlong hmoored hhigh => ?_,
    fun s ns hshort => congrArg Host.Outcome.next (ripcordAssert_short hshort),
    fun s hlow => ?_, fun s hhigh hdue => ?_, fun s hearly => congrArg Host.Outcome.next (ripcordExpiry_early hearly)⟩
  case refine_1 =>
    have haccess := accessWrite_accepted s m 0x610004 (contActWrite · m w.toNat) hacc
    rw [contActWrite_activates hgo hrec hmay] at haccess
    have hprofile : w.toNat % 8 < 8 := Nat.mod_lt _ (by decide)
    refine ⟨_, congrArg Host.Outcome.next haccess, ?_⟩
    simp only [get_answered, profileActive_answered, noteGrant_cont, answer_cont]
    refine ⟨?_, bitAt_contActivate_cause _ _ _ _ (causeBit_lt m), since_contActivate _ _, fun q hq hne => ?_,
      regsSame_answered (contActivate_regsSame _ _ _ _) _ _ _, fun hidle => ?_, ?_⟩
    · simp [profileActive_contActivate _ _ _ _ hprofile]
    · simp [profileActive_contActivate _ _ _ _ hq, hne.symm]
    · exact (asked_contActivate (causeBit m) (conflictCode m) hidle).congr rfl rfl (by simp) (by simp)
    · apply State.eq_of_parts <;> simp
  case refine_2 =>
    obtain rfl : b = c := Option.some.inj (hrec.symm.trans hc)
    exact hmay
  case refine_3 =>
    rw [hnone] at hc
    contradiction
  case refine_4 =>
    have haccess := accessWrite_accepted s m 0x610008 (contRelWrite · m w.toNat) hacc
    refine ⟨_, congrArg Host.Outcome.next haccess, ?_⟩
    simp only [get_answered, noteGrant_cont, answer_cont]
    have hrel := mem_relAt_contRelWrite s m w.toNat
    refine ⟨fun hm p hp hbit => (hrel (p, boundaryAfter s 2000)).2 (.inr ⟨hm, rfl, hp, hbit⟩),
      fun e he => (hrel e).2 (.inl he), fun e he => (hrel e).1 he, fun p hp => ?_,
      regsSame_answered (contRelWrite_regsSame _ _ _) _ _ _, ?_⟩
    · have hhigh : 2 ^ 8 ≤ 2 ^ (8 + p) := Nat.pow_le_pow_right Nat.zero_lt_two (Nat.le_add_right 8 p)
      have hdeny : bitAt w.toNat (8 + p) = false := Nat.testBit_lt_two_pow (Nat.lt_of_lt_of_le hw hhigh)
      simp [relPend_contRelWrite _ _ _ hp, hdeny]
    · apply State.eq_of_parts <;> simp [contRelWrite]
  case refine_5 =>
    have haccess := accessWrite_accepted s m 0x610008 (contRelWrite · m w.toNat) hacc
    refine ⟨_, congrArg Host.Outcome.next haccess, ?_⟩
    simp only [get_answered, noteGrant_cont, answer_cont]
    refine ⟨fun p hp => relPend_contRelWrite _ _ _ hp, contRelWrite_denies hlow s m,
      regsSame_answered (contRelWrite_regsSame _ _ _) _ _ _, ?_⟩
    apply State.eq_of_parts <;> simp [contRelWrite]
  case refine_6 =>
    have haccess := accessWrite_accepted s m 0x61000C (contRelReqWrite · w.toNat) hacc
    rw [contRelReqWrite_raises hlow] at haccess
    have hidle' : srcState (relAsked s w.toNat) 2 = 0 := (get_put_ne _ _ _ _ (by decide)).trans hidle
    have hasked : regsSame s (relAsked s w.toNat) (Reg.contStatusRelPend :: raiseFields 2) :=
      (regsSame.refl s _).put (by simp) _
    refine ⟨_, congrArg Host.Outcome.next haccess, fun p hp => ?_, ?_, regsSame_answered ?_ _ _ _⟩
    · rw [get_answered, get_raiseSource_ne _ _ _ (by decide), relPend_relAsked _ _ hp]
    · exact (get_answered _ _ _ _ _).trans (srcState_raiseSource _ 2 (by decide) (by decide) hidle')
    · exact hasked.raise 2 fun f hf => List.mem_cons_of_mem _ hf
  case refine_7 =>
    have hsupply : s.boot.phase ≠ .off := by simp [phase_of_aloft haloft]
    have hact := ripcordAssert_acts hlong hhigh hsupply
    rw [if_pos haloft] at hact
    have hcont := contActivate_cont (pinFell s ns) 0 0 0xFF
    have hpin : (contActivate (pinFell s ns) 0 0 0xFF).cont.pinLow = true := by rw [hcont]; rfl
    have hfell : (contActivate (pinFell s ns) 0 0 0xFF).cont.fellAt = s.time.now - ns := by rw [hcont]; rfl
    have hheld : get (contActivate (pinFell s ns) 0 0 0xFF) Reg.contStatusRipcordHeld = 0 :=
      (contActivate_regsSame _ _ _ _ _ (by decide)).trans (get_put_same _ _ _)
    refine ⟨_, congrArg Host.Outcome.next hact, ?_, ?_, ?_, ?_, hpin, hfell, contActivate_env _ _ _ _⟩
    · rw [profileActive, get_showRipcord_ne _ (by decide)]
      exact profileActive_contActivate _ 0 0 _ (by decide)
    · rw [get_showRipcord_ne _ (by decide)]
      exact bitAt_contActivate_cause _ 0 0 _ (by decide)
    · rw [get_showRipcord_in, hpin]
      rfl
    · rw [get_showRipcord_ne _ (by decide), hheld]
  case refine_8 =>
    have hact := ripcordAssert_acts hlong hhigh (by simp [hmoored])
    rw [if_neg (by simp [aloft, hmoored])] at hact
    refine ⟨_, congrArg Host.Outcome.next hact, rfl, ?_, rfl, rfl⟩
    exact get_showRipcord_in { pinFell s ns with cont.pinLatched := true }
  case refine_9 =>
    refine ⟨_, congrArg Host.Outcome.next (ripcordDeassert_low hlow), rfl, rfl, ?_, ?_, ?_, ?_, rfl⟩
    · exact (get_showRipcord_ne _ (by decide)).trans (get_put_same _ _ _)
    · have hshown : get (showRipcord (pinRose s)) Reg.contStatusRipcordIn = b2n s.cont.pinLatched := get_showRipcord_in _
      rw [flag, hshown]
      cases s.cont.pinLatched <;> rfl
    · exact (get_showRipcord_ne _ (by decide)).trans (get_put_ne _ _ _ _ (by decide))
    · exact (((regsSame.refl s _).congr rfl).put (by simp) _).putFlag (by simp) _
  case refine_10 =>
    exact ⟨_, congrArg Host.Outcome.next (ripcordExpiry_due hhigh hdue), get_put_same _ _ _,
      (regsSame.refl s _).put (by simp) _, rfl⟩

end Sys2Proof.Machine
end

section
/-!
Gate lists, flow gates and the timing wheel (R182, R185, R190, R195, R198, R200). A port's gates are followed in three
steps: the pending list takes over where its instant has come, the closing gates and the entry's operation act, and the
registers show the lists in force. The middle step changes no list and counts no takeover, so what is shown is the
list the first step left.
-/
namespace Sys2Proof.Machine

/-! Flow gates. -/

/-- A flow gate at the interval in force, its octet count begun anew where the interval is a new one. -/
def flowMoved (s : State) (g : Nat) : State :=
  if s.tm.flowAt.find g = some (flowEntry s g).2 then s
  else { s with tm.flowAt := s.tm.flowAt.set g (flowEntry s g).2, tm.octets := s.tm.octets.del g }

theorem flowMoved_at (s : State) (g : Nat) : (flowMoved s g).tm.flowAt.find g = some (flowEntry s g).2 := by
  unfold flowMoved
  split
  · assumption
  · exact SMap.find_set_same _ _ _

theorem flowMoved_octets {s : State} {g : Nat} (hnew : s.tm.flowAt.find g ≠ some (flowEntry s g).2) :
    (flowMoved s g).tm.octets.find g = none := by
  rw [flowMoved, if_neg hnew]
  exact SMap.find_del_same _ _

theorem flowMoved_frame (s : State) (g : Nat) : flowMoved s g = { s with tm := (flowMoved s g).tm } := by
  unfold flowMoved
  split <;> rfl

/-- The fields that show a flow gate's entry. -/
def flowFlds (g : Nat) : List Fld := [Reg.fgStateEntry g, Reg.fgStateIpv g, Reg.fgStateIpvValid g, Reg.fgStateOpen g]

/-- A flow gate with a list shows the entry it has moved to. -/
theorem flowSync_moves {s : State} {g : Nat} (hlist : (flowList s g).isEmpty = false) : ∃ ipv valid opens,
    flowSync s g = putFlag (putFlag (put (put (flowMoved s g) (Reg.fgStateEntry g) (flowEntry s g).1)
      (Reg.fgStateIpv g) ipv) (Reg.fgStateIpvValid g) valid) (Reg.fgStateOpen g) opens := by
  simp only [flowSync, hlist, Bool.false_eq_true, if_false]
  exact ⟨_, _, _, rfl⟩

theorem flowSync_none {s : State} {g : Nat} (hlist : (flowList s g).isEmpty = true) : flowSync s g = s := by
  simp only [flowSync, hlist, if_true]

theorem flowSync_tm {s : State} {g : Nat} (hlist : (flowList s g).isEmpty = false) :
    (flowSync s g).tm = (flowMoved s g).tm := by
  obtain ⟨ipv, valid, opens, hsync⟩ := flowSync_moves hlist
  rw [hsync]
  rfl

theorem get_flowSync_entry {s : State} {g : Nat} (hlist : (flowList s g).isEmpty = false) :
    get (flowSync s g) (Reg.fgStateEntry g) = (flowEntry s g).1 % 2 ^ (Reg.fgStateEntry g).width := by
  obtain ⟨ipv, valid, opens, hsync⟩ := flowSync_moves hlist
  have hipv : (Reg.fgStateEntry g).key ≠ (Reg.fgStateIpv g).key := by simp [Fld.key, Reg.fgStateEntry, Reg.fgStateIpv]
  have hvalid : (Reg.fgStateEntry g).key ≠ (Reg.fgStateIpvValid g).key := by
    simp [Fld.key, Reg.fgStateEntry, Reg.fgStateIpvValid]
  have hopen : (Reg.fgStateEntry g).key ≠ (Reg.fgStateOpen g).key := by
    simp [Fld.key, Reg.fgStateEntry, Reg.fgStateOpen]
  rw [hsync, get_putFlag_ne _ _ _ _ hopen, get_putFlag_ne _ _ _ _ hvalid, get_put_ne _ _ _ _ hipv, get_put_same]

theorem flowSync_regsSame (s : State) (g : Nat) : regsSame s (flowSync s g) (flowFlds g) := by
  cases hlist : (flowList s g).isEmpty with
  | true => rw [flowSync_none hlist]; exact .refl s _
  | false =>
    obtain ⟨ipv, valid, opens, hsync⟩ := flowSync_moves hlist
    have hmoved : regsSame s (flowMoved s g) (flowFlds g) :=
      (regsSame.refl s _).congr (by rw [flowMoved_frame])
    rw [hsync]
    exact (((hmoved.put (by simp [flowFlds]) _).put (by simp [flowFlds]) _).putFlag (by simp [flowFlds]) _).putFlag
      (by simp [flowFlds]) _

theorem flowSync_frame (s : State) (g : Nat) :
    flowSync s g = { s with regs := (flowSync s g).regs, tm := (flowSync s g).tm } := by
  cases hlist : (flowList s g).isEmpty with
  | true => rw [flowSync_none hlist]
  | false =>
    obtain ⟨ipv, valid, opens, hsync⟩ := flowSync_moves hlist
    rw [hsync, flowMoved_frame]
    rfl

/-- A flow gate with neither sticky close, before it follows its list. -/
def flowCleared (s : State) (g : Nat) : State :=
  put (put s (Reg.fgStateClosedInvalidRx g) 0) (Reg.fgStateClosedOctets g) 0

theorem get_flowReopen_invalidRx (s : State) (g : Nat) : get (flowReopen s g) (Reg.fgStateClosedInvalidRx g) = 0 := by
  have hsync := flowSync_regsSame (flowCleared s g) g (Reg.fgStateClosedInvalidRx g) (by
    simp [flowFlds, Fld.key, Reg.fgStateClosedInvalidRx, Reg.fgStateEntry, Reg.fgStateIpv, Reg.fgStateIpvValid,
      Reg.fgStateOpen])
  have hoctets : (Reg.fgStateClosedInvalidRx g).key ≠ (Reg.fgStateClosedOctets g).key := by
    simp [Fld.key, Reg.fgStateClosedInvalidRx, Reg.fgStateClosedOctets]
  refine hsync.trans ?_
  rw [flowCleared, get_put_ne _ _ _ _ hoctets, get_put_same, Nat.zero_mod]

theorem get_flowReopen_octets (s : State) (g : Nat) : get (flowReopen s g) (Reg.fgStateClosedOctets g) = 0 := by
  have hsync := flowSync_regsSame (flowCleared s g) g (Reg.fgStateClosedOctets g) (by
    simp [flowFlds, Fld.key, Reg.fgStateClosedOctets, Reg.fgStateEntry, Reg.fgStateIpv, Reg.fgStateIpvValid,
      Reg.fgStateOpen])
  exact hsync.trans (get_put_same _ _ _)

theorem flowReopen_regsSame (s : State) (g : Nat) : regsSame s (flowReopen s g)
    (Reg.fgStateClosedInvalidRx g :: Reg.fgStateClosedOctets g :: flowFlds g) := by
  have hcleared : regsSame s (flowCleared s g)
      (Reg.fgStateClosedInvalidRx g :: Reg.fgStateClosedOctets g :: flowFlds g) :=
    ((regsSame.refl s _).put (by simp) _).put (by simp) _
  have hsync : regsSame (flowCleared s g) (flowReopen s g)
      (Reg.fgStateClosedInvalidRx g :: Reg.fgStateClosedOctets g :: flowFlds g) :=
    (flowSync_regsSame _ g).mono fun f hf => List.mem_cons_of_mem _ (List.mem_cons_of_mem _ hf)
  exact fun f hf => (hsync f hf).trans (hcleared f hf)

theorem flowReopen_frame (s : State) (g : Nat) :
    flowReopen s g = { s with regs := (flowReopen s g).regs, tm := (flowReopen s g).tm } :=
  flowSync_frame (flowCleared s g) g

/-! The timing wheel. -/

theorem queueOf_setQueue_ne (s : State) {p q i j : Nat} (h : 64 * i + j ≠ 64 * p + q) (l : List Replica) :
    queueOf (setQueue s p q l) i j = queueOf s i j := by
  cases l with
  | nil => exact congrArg (Option.getD · []) (SMap.find_del_ne _ _ _ h)
  | cons r l => exact congrArg (Option.getD · []) (SMap.find_set_ne _ _ _ _ h)

/-- A leaf's head either keeps what it has, or is given a finish tag. -/
theorem tagHead_cases (p q : Nat) (s : State) : tagHead p q s = s ∨
    ∃ r rs x, queueOf s p q = r :: rs ∧ tagHead p q s = setQueue s p q ({ r with ftag := some x } :: rs) := by
  unfold tagHead
  split
  · exact .inl rfl
  next r rs hq =>
    split
    · exact .inl rfl
    · exact .inr ⟨r, rs, _, hq, rfl⟩

theorem tagHead_frame (p q : Nat) (s : State) :
    tagHead p q s = { s with net := { s.net with queues := (tagHead p q s).net.queues } } := by
  obtain h | ⟨r, rs, x, -, h⟩ := tagHead_cases p q s
  · rw [h]
  · rw [h, setQueue]

/-- A finish tag changes no frame of any leaf. -/
theorem leafUids_tagHead_at (p q : Nat) (s : State) (i j : Nat) : leafUids (tagHead p q s) i j = leafUids s i j := by
  by_cases hleaf : 64 * i + j = 64 * p + q
  · have hsame (u : State) : leafUids u i j = leafUids u p q := by rw [leafUids, leafUids, queueOf, queueOf, hleaf]
    rw [hsame, hsame, leafUids_tagHead]
  · obtain h | ⟨r, rs, x, -, h⟩ := tagHead_cases p q s
    · rw [h]
    · rw [h]
      exact leafUids_of_queue (queueOf_setQueue_ne s hleaf _)

/-- The head of an eligible leaf has a finish tag once heads are tagged (R187). -/
theorem headOf_tagHead {p q : Nat} {s : State} (hq : q ≠ 63) (heligible : leafEligible s p q = true) :
    (headOf (tagHead p q s) p q).all (fun r => r.ftag.isSome) = true := by
  unfold tagHead
  split
  next hnil => rw [headOf, hnil]; rfl
  next r rs hcons =>
    split
    next hskip =>
      have htag : r.ftag.isSome = true := by simpa [hq, heligible] using hskip
      simp [headOf, hcons, htag]
    · simp [headOf]

theorem leafEligible_tagHead (p q : Nat) (s : State) : leafEligible (tagHead p q s) p q = leafEligible s p q := by
  rw [tagHead_frame]
  rfl

theorem wheelFire_leaf {s : State} {p : Fin 50} {q : Fin 64} {b : Bucket} {d : Nat}
    (hb : s.tm.leafTok.find (64 * p.val + q.val) = some b) (hd : b.wheel = some d) (hdue : d ≤ s.time.now) :
    wheelFire s (.leaf p q) =
      { s with tm.leafTok := s.tm.leafTok.set (64 * p.val + q.val) { b with wheel := none } } := by
  simp [wheelFire, hb, hd, hdue]

theorem wheelFire_port {s : State} {p : Fin 50} {b : Bucket} {d : Nat}
    (hb : s.tm.portTok.find p.val = some b) (hd : b.wheel = some d) (hdue : d ≤ s.time.now) :
    wheelFire s (.port p) = { s with tm.portTok := s.tm.portTok.set p.val { b with wheel := none } } := by
  simp [wheelFire, hb, hd, hdue]

/-! What following a gate list leaves alone. -/

/-- Nothing differs but registers, counters, frames, the traffic manager and what is sent. -/
def GateFrame (s t : State) : Prop :=
  ∃ regs accum net tm io, t = { s with regs := regs, accum := accum, net := net, tm := tm, io := io }

theorem GateFrame.refl (s : State) : GateFrame s s := ⟨_, _, _, _, _, rfl⟩

theorem GateFrame.trans {s t u : State} (h : GateFrame s t) (k : GateFrame t u) : GateFrame s u := by
  obtain ⟨_, _, _, _, _, rfl⟩ := h
  obtain ⟨_, _, _, _, _, rfl⟩ := k
  exact ⟨_, _, _, _, _, rfl⟩

theorem GateFrame.eq {s t : State} (h : GateFrame s t) :
    t = { s with regs := t.regs, accum := t.accum, net := t.net, tm := t.tm, io := t.io } := by
  obtain ⟨_, _, _, _, _, rfl⟩ := h
  rfl

theorem GateFrame.wcNow_eq {s t : State} (h : GateFrame s t) : wcNow t = wcNow s := by
  obtain ⟨_, _, _, _, _, rfl⟩ := h
  rfl

/-- A port's lists and its count of takeovers stay. -/
structure KeepsLists (p : Nat) (s t : State) : Prop where
  frame : GateFrame s t
  oper : (gatesOf t p).oper = (gatesOf s p).oper
  pend : (gatesOf t p).pend = (gatesOf s p).pend
  count : get t (Reg.tmTxTakeovers p) = get s (Reg.tmTxTakeovers p)

theorem KeepsLists.refl (p : Nat) (s : State) : KeepsLists p s s := ⟨.refl s, rfl, rfl, rfl⟩

theorem KeepsLists.trans {p : Nat} {s t u : State} (h : KeepsLists p s t) (k : KeepsLists p t u) : KeepsLists p s u :=
  ⟨h.frame.trans k.frame, k.oper.trans h.oper, k.pend.trans h.pend, k.count.trans h.count⟩

theorem gatesOf_set (s : State) (p : Nat) (x : Gates) :
    gatesOf { s with tm.gates := s.tm.gates.set p x } p = x := by
  simp [gatesOf]

theorem keepsLists_gateClosesOn (s : State) (p closed : Nat) : KeepsLists p s (gateClosesOn s p closed) := by
  have hkey : (Reg.tmTxTakeovers p).key ≠ (Reg.tmTxTxOverrun p).key := by
    simp [Fld.key, Reg.tmTxTakeovers, Reg.tmTxTxOverrun]
  unfold gateClosesOn
  refine List.foldlRecOn (motive := KeepsLists p s) _ _ (.refl p s) fun u hu e _ => ?_
  split
  · exact hu.trans ⟨⟨_, _, _, _, _, rfl⟩, rfl, rfl, get_bump_ne _ _ _ hkey⟩
  · exact hu

theorem keepsLists_gateOp (s : State) (p : Nat) : KeepsLists p s (gateOp s p) := by
  have hhold (b : Bool) : KeepsLists p s { s with tm.gates := s.tm.gates.set p { gatesOf s p with hold := b } } :=
    ⟨⟨_, _, _, _, _, rfl⟩, by rw [gatesOf_set], by rw [gatesOf_set], rfl⟩
  unfold gateOp
  dsimp only
  split
  · exact hhold false
  · split
    · exact .refl p s
    · exact hhold _

theorem settlePreempt_tm (s : State) (p : Nat) : (settlePreempt s p).tm = s.tm := by
  obtain ⟨m, l, h⟩ := (macMove_settlePreempt s p).frame
  rw [h]

theorem keepsLists_settlePreempt (s : State) (p : Nat) : KeepsLists p s (settlePreempt s p) := by
  obtain ⟨m, l, h⟩ := (macMove_settlePreempt s p).frame
  rw [h]
  exact ⟨⟨_, _, _, _, _, rfl⟩, rfl, rfl, rfl⟩

/-! The registers of the gates. -/

theorem showGates_frame (s : State) (p : Nat) : GateFrame s (showGates s p) := ⟨_, _, _, _, _, rfl⟩

theorem gatesOf_showGates (s : State) (p i : Nat) : gatesOf (showGates s p) i = gatesOf s i := rfl

theorem gateStates_oper {s : State} {p : Nat} {b : List Byte} (h : (gatesOf s p).oper = some b) :
    gateStates s p = u8 b (32 + 8 * (gateEntry b (wcNow s)).1) := by
  simp [gateStates, h]

theorem get_showGates_en (s : State) (p : Nat) :
    get (showGates s p) (Reg.tmGateGatesEn p) = b2n (gatesOf s p).oper.isSome := by
  have hrest : regsSame (putFlag s (Reg.tmGateGatesEn p) (gatesOf s p).oper.isSome) (showGates s p)
      [Reg.tmGatePending p, Reg.tmSwitchAt p, Reg.tmGateOperStates p, Reg.tmGateEntry p, Reg.tmGateHeld p] :=
    (((((regsSame.refl _ _).putFlag (by simp) _).put (by simp) _).put (by simp) _).put (by simp) _).putFlag (by simp) _
  refine (hrest _ ?_).trans ?_
  · simp [Fld.key, Reg.tmGateGatesEn, Reg.tmGatePending, Reg.tmSwitchAt, Reg.tmGateOperStates, Reg.tmGateEntry,
      Reg.tmGateHeld]
  · rw [get_putFlag_same]
    cases (gatesOf s p).oper <;> rfl

theorem get_showGates_pending (s : State) (p : Nat) :
    get (showGates s p) (Reg.tmGatePending p) = b2n (gatesOf s p).pend.isSome := by
  have hrest : regsSame (putFlag (putFlag s (Reg.tmGateGatesEn p) (gatesOf s p).oper.isSome) (Reg.tmGatePending p)
      (gatesOf s p).pend.isSome) (showGates s p)
      [Reg.tmSwitchAt p, Reg.tmGateOperStates p, Reg.tmGateEntry p, Reg.tmGateHeld p] :=
    ((((regsSame.refl _ _).put (by simp) _).put (by simp) _).put (by simp) _).putFlag (by simp) _
  refine (hrest _ ?_).trans ?_
  · simp [Fld.key, Reg.tmGatePending, Reg.tmSwitchAt, Reg.tmGateOperStates, Reg.tmGateEntry, Reg.tmGateHeld]
    omega
  · rw [get_putFlag_same]
    cases (gatesOf s p).pend <;> rfl

theorem get_showGates_takeovers (s : State) (p : Nat) :
    get (showGates s p) (Reg.tmTxTakeovers p) = get s (Reg.tmTxTakeovers p) := by
  have hshown : regsSame s (showGates s p) [Reg.tmGateGatesEn p, Reg.tmGatePending p, Reg.tmSwitchAt p,
      Reg.tmGateOperStates p, Reg.tmGateEntry p, Reg.tmGateHeld p] :=
    ((((((regsSame.refl s _).putFlag (by simp) _).putFlag (by simp) _).put (by simp) _).put (by simp) _).put
      (by simp) _).putFlag (by simp) _
  refine hshown _ ?_
  simp [Fld.key, Reg.tmTxTakeovers, Reg.tmGateGatesEn, Reg.tmGatePending, Reg.tmSwitchAt, Reg.tmGateOperStates,
    Reg.tmGateEntry, Reg.tmGateHeld]
  omega

theorem get_showGates_states {s : State} {p : Nat} {b : List Byte} (h : (gatesOf s p).oper = some b) :
    get (showGates s p) (Reg.tmGateOperStates p) = u8 b (32 + 8 * (gateEntry b (wcNow s)).1) := by
  have hentry : (Reg.tmGateOperStates p).key ≠ (Reg.tmGateEntry p).key := by
    simp [Fld.key, Reg.tmGateOperStates, Reg.tmGateEntry]
  have hheld : (Reg.tmGateOperStates p).key ≠ (Reg.tmGateHeld p).key := by
    simp [Fld.key, Reg.tmGateOperStates, Reg.tmGateHeld]
  rw [showGates, get_putFlag_ne _ _ _ _ hheld, get_put_ne _ _ _ _ hentry, get_put_same, gateStates_oper h]
  exact Nat.mod_eq_of_lt (BitVec.isLt _)

theorem get_showGates_entry {s : State} {p : Nat} {b : List Byte} (h : (gatesOf s p).oper = some b) :
    get (showGates s p) (Reg.tmGateEntry p) = (gateEntry b (wcNow s)).1 % 2 ^ (Reg.tmGateEntry p).width := by
  have hheld : (Reg.tmGateEntry p).key ≠ (Reg.tmGateHeld p).key := by simp [Fld.key, Reg.tmGateEntry, Reg.tmGateHeld]
  rw [showGates, get_putFlag_ne _ _ _ _ hheld, get_put_same, h]

/-! Gate lists in force. -/

/-- The instant of a pending list has come. -/
def takeoverDue (s : State) (p : Nat) : Bool := (gatesOf s p).pend.isSome && decide ((gatesOf s p).switchAt ≤ wcNow s)

/-- The pending list is the operative one, and the takeover counts. -/
def takenOver (s : State) (p : Nat) : State :=
  bump { s with tm.gates := s.tm.gates.set p { gatesOf s p with oper := (gatesOf s p).pend, pend := none } }
    (Reg.tmTxTakeovers p)

/-- The lists of a port acted on: frames whose gate closes, the operation of a new entry, the preemptable MAC. -/
def gatesActed (s : State) (p closed : Nat) (new : Bool) : State :=
  settlePreempt (if new then gateOp (gateClosesOn s p closed) p else gateClosesOn s p closed) p

theorem keepsLists_gatesActed (s : State) (p closed : Nat) (new : Bool) :
    KeepsLists p s (gatesActed s p closed new) := by
  refine .trans ?_ (keepsLists_settlePreempt _ p)
  have hclosed := keepsLists_gateClosesOn s p closed
  cases new with
  | false => exact hclosed
  | true => exact hclosed.trans (keepsLists_gateOp _ p)

section
variable {s : State} {p : Nat}

theorem gateSync_idle (hdue : takeoverDue s p = false) (hoper : (gatesOf s p).oper = none) : gateSync s p = s := by
  unfold takeoverDue at hdue
  simp only [gateSync, hdue, hoper, Option.isNone_none, Bool.not_false, and_self, if_true]

theorem gateSync_runs {b : List Byte} (hdue : takeoverDue s p = false) (hoper : (gatesOf s p).oper = some b) :
    ∃ closed new, gateSync s p = showGates (gatesActed s p closed new) p := by
  unfold takeoverDue at hdue
  simp only [gateSync, hdue, hoper, Option.isNone_some, Bool.false_eq_true, false_and, if_false]
  exact ⟨_, _, rfl⟩

theorem gateSync_takesOver (hdue : takeoverDue s p = true) :
    ∃ closed new, gateSync s p = showGates (gatesActed (takenOver s p) p closed new) p := by
  unfold takeoverDue at hdue
  simp only [gateSync, hdue, Bool.not_true, Bool.false_eq_true, and_false, if_false, if_true]
  exact ⟨_, _, rfl⟩

theorem gatesOf_takenOver : gatesOf (takenOver s p) p = { gatesOf s p with oper := (gatesOf s p).pend, pend := none } :=
  gatesOf_set s p _

theorem takenOver_frame : GateFrame s (takenOver s p) := ⟨_, _, _, _, _, rfl⟩

end

theorem gateSync_frame (s : State) (p : Nat) : GateFrame s (gateSync s p) := by
  cases hdue : takeoverDue s p with
  | true =>
    obtain ⟨closed, new, hsync⟩ := gateSync_takesOver hdue
    rw [hsync]
    exact (takenOver_frame.trans (keepsLists_gatesActed _ p closed new).frame).trans (showGates_frame _ p)
  | false =>
    cases hoper : (gatesOf s p).oper with
    | none => rw [gateSync_idle hdue hoper]; exact .refl s
    | some b =>
      obtain ⟨closed, new, hsync⟩ := gateSync_runs hdue hoper
      rw [hsync]
      exact (keepsLists_gatesActed s p closed new).frame.trans (showGates_frame _ p)

/-! Holds (R200). -/

theorem holdAhead_of_head {adv lim ahead : Nat} {l : List (Nat × Nat)} (hpos : 0 < l.length) (hop : l[0].1 = 1)
    (hadv : ahead ≤ adv) (hlim : ahead < lim) : holdAhead adv lim ahead l = true := by
  cases l with
  | nil => simp at hpos
  | cons e l => simp_all [holdAhead]

theorem length_gateOps (b : List Byte) : (gateOps b).length = leAt b 2 2 := by simp [gateOps]

theorem gateOps_op {b : List Byte} {i : Nat} (hi : i < (gateOps b).length) :
    ((gateOps b)[i]).1 = u8 b (32 + 8 * i + 1) := by simp [gateOps]

/-- A hold is due where the entry after the one in force has OP 1 and begins within the advance. -/
theorem holdDue_oper {s : State} {p : Nat} {b : List Byte} (hoper : (gatesOf s p).oper = some b)
    (hpend : (gatesOf s p).pend = none) (hentry : (gateEntry b (wcNow s)).1 < leAt b 2 2)
    (hop : u8 b (32 + 8 * (((gateEntry b (wcNow s)).1 + 1) % leAt b 2 2) + 1) = 1)
    (hleft : 8 * leAt b (32 + 8 * (gateEntry b (wcNow s)).1 + 4) 4 - (gateEntry b (wcNow s)).2 ≤ 8 * leAt b 16 2) :
    holdDue s p = true := by
  generalize he : gateEntry b (wcNow s) = e at hentry hop hleft
  have hlen := length_gateOps b
  have hrot : (gateOps b).drop (e.1 + 1) ++ (gateOps b).take (e.1 + 1) = (gateOps b).rotate (e.1 + 1) :=
    (List.rotate_eq_drop_append_take (by omega)).symm
  have hpos : 0 < ((gateOps b).rotate (e.1 + 1)).length := by rw [List.length_rotate]; omega
  have hnext : (((gateOps b).rotate (e.1 + 1))[0]).1 = 1 := by
    rw [List.getElem_rotate, gateOps_op, hlen, Nat.zero_add, hop]
  have hahead : holdAhead (holdAdv b) (8 * leAt b (32 + 8 * e.1 + 4) 4 - e.2 + holdAdv b + 1)
      (8 * leAt b (32 + 8 * e.1 + 4) 4 - e.2) ((gateOps b).rotate (e.1 + 1)) = true :=
    holdAhead_of_head hpos hnext hleft (by omega)
  simp [holdDue, hoper, hpend, he, hrot, hahead]

/-- A hold is due where the pending list begins with OP 1 within its advance. -/
theorem holdDue_pend {s : State} {p : Nat} {b : List Byte} (hpend : (gatesOf s p).pend = some b)
    (hsome : 0 < leAt b 2 2) (hop : u8 b 33 = 1)
    (hsoon : ((gatesOf s p).switchAt - wcNow s).toNat ≤ 8 * leAt b 16 2) : holdDue s p = true := by
  have hpos : 0 < (gateOps b).length := by rwa [length_gateOps]
  have hahead : holdAhead (holdAdv b) (holdAdv b + 1) ((gatesOf s p).switchAt - wcNow s).toNat (gateOps b) = true :=
    holdAhead_of_head hpos ((gateOps_op hpos).trans hop) hsoon (Nat.lt_succ_of_le hsoon)
  simp [holdDue, hpend, hahead]

/-- A port with its hold issued. -/
def holdIssued (s : State) (p : Nat) : State :=
  { s with tm.gates := s.tm.gates.set p { gatesOf s p with hold := true } }

section
variable {s : State} {p : Nat} (hactive : preemptActive (gateSync s p) p = true)
  (hdue : holdDue (gateSync s p) p = true)
include hactive hdue

theorem macHoldIssue_due : macHoldIssue s p = showGates (settlePreempt (holdIssued (gateSync s p) p) p) p := by
  simp only [macHoldIssue, hactive, hdue, and_self, if_true]
  rfl

theorem macHoldIssue_hold : (gatesOf (macHoldIssue s p) p).hold = true := by
  have hheld : (gatesOf (holdIssued (gateSync s p) p) p).hold = true := by rw [holdIssued, gatesOf_set]
  rwa [macHoldIssue_due hactive hdue, gatesOf_showGates, gatesOf, settlePreempt_tm]

theorem macHoldIssue_frame : GateFrame s (macHoldIssue s p) := by
  rw [macHoldIssue_due hactive hdue]
  have hissued : GateFrame (gateSync s p) (holdIssued (gateSync s p) p) := ⟨_, _, _, _, _, rfl⟩
  exact (((gateSync_frame s p).trans hissued).trans (keepsLists_settlePreempt _ p).frame).trans (showGates_frame _ p)

end

/-- Settles O15, clause by clause: flow gates and filters, the wheel, and the gate lists of a port. -/
theorem gatesAndTimingWheels : Obligations.GatesAndTimingWheels := by
  unfold Obligations.GatesAndTimingWheels
  refine ⟨fun s g hlist => ?_, fun s m g hacc => ?_, fun s m f hacc => ?_,
    ⟨fun s p q b d hb hd hdue => ?_, fun s p b d hb hd hdue => congrArg Host.Outcome.next (wheelFire_port hb hd hdue)⟩,
    fun s p b hoper hpend => ?_, fun s p x hpend hdue => ?_,
    fun s p b hoper hpend hactive hentry hop hleft => ?_, fun s p b hpend hactive hsome hop hsoon => ?_⟩
  case refine_1 =>
    have htm := flowSync_tm hlist
    refine ⟨_, rfl, ?_, get_flowSync_entry hlist, fun hnew => ?_, flowSync_regsSame s g, flowSync_frame s g⟩
    · rw [htm, flowMoved_at]
    · rw [htm, flowMoved_octets hnew]
  case refine_2 =>
    have haccess := accessWrite_accepted s m (0x940004 + 8 * g.val) (flowReopen · g) hacc
    refine ⟨_, congrArg Host.Outcome.next haccess, ?_⟩
    simp only [get_answered]
    refine ⟨get_flowReopen_invalidRx s g, get_flowReopen_octets s g,
      regsSame_answered (flowReopen_regsSame s g) _ _ _, ?_⟩
    rw [flowReopen_frame]
    apply State.eq_of_parts <;> simp
  case refine_3 =>
    have haccess := accessWrite_accepted s m (0x90000C + 16 * f.val) (put · (Reg.sfStateBlocked f) 0) hacc
    refine ⟨_, congrArg Host.Outcome.next haccess, ?_⟩
    simp only [get_answered]
    refine ⟨get_put_same _ _ _, regsSame_answered ((regsSame.refl s _).put (by simp) _) _ _ _, ?_⟩
    apply State.eq_of_parts <;> simp
  case refine_4 =>
    have hfire : timingWheelFire s (.leaf p q) = tagHead p q (wheelFire s (.leaf p q)) := rfl
    rw [wheelFire_leaf hb hd hdue] at hfire
    refine ⟨_, congrArg Host.Outcome.next hfire, ?_, leafUids_tagHead_at p q _, fun hq heligible => ?_, ?_⟩
    · rw [tagHead_frame]
    · exact headOf_tagHead hq ((leafEligible_tagHead _ _ _).symm.trans heligible)
    · rw [tagHead_frame]
  case refine_5 =>
    have hwait : takeoverDue s p = false := by simp [takeoverDue, hpend]
    obtain ⟨closed, new, hsync⟩ := gateSync_runs hwait hoper
    have hacted := keepsLists_gatesActed s p closed new
    have hin := hacted.oper.trans hoper
    have hnow := hacted.frame.wcNow_eq
    refine ⟨_, congrArg Host.Outcome.next hsync, hin, ?_, ?_, (hacted.frame.trans (showGates_frame _ p)).eq⟩
    · rw [get_showGates_states hin, hnow]
    · rw [get_showGates_entry hin, hnow]
  case refine_6 =>
    have hcome : takeoverDue s p = true := by simp [takeoverDue, hpend, hdue]
    obtain ⟨closed, new, hsync⟩ := gateSync_takesOver hcome
    have hacted := keepsLists_gatesActed (takenOver s p) p closed new
    have hframe := takenOver_frame.trans hacted.frame
    have hin : (gatesOf (gatesActed (takenOver s p) p closed new) p).oper = some x := by
      rw [hacted.oper, gatesOf_takenOver, hpend]
    have hout : (gatesOf (gatesActed (takenOver s p) p closed new) p).pend = none := by
      rw [hacted.pend, gatesOf_takenOver]
    refine ⟨_, congrArg Host.Outcome.next hsync, hin, hout, ?_, ?_, ?_, ?_, (hframe.trans (showGates_frame _ p)).eq⟩
    · rw [get_showGates_en, hin]; rfl
    · rw [get_showGates_pending, hout]; rfl
    · rw [get_showGates_states hin, hframe.wcNow_eq]
    · rw [get_showGates_takeovers, hacted.count]
      exact get_bump_same _ _
  case refine_7 =>
    have hissue := holdDue_oper hoper hpend hentry hop hleft
    exact ⟨_, rfl, macHoldIssue_hold hactive hissue, (macHoldIssue_frame hactive hissue).eq⟩
  case refine_8 =>
    have hissue := holdDue_pend hpend hsome hop hsoon
    exact ⟨_, rfl, macHoldIssue_hold hactive hissue, (macHoldIssue_frame hactive hissue).eq⟩

end Sys2Proof.Machine
end

section
/-!
Local CAN controllers and the messages they send (R213, R214, R232). A controller's errors move its counters first and its
state after them; what else they may move, the level of its channel's source and what that sets off, lies below the registers
of the channels. A message that returns to a queue nothing waits beside enters it at its place.
-/
namespace Sys2Proof.Machine

/-! Registers from the channels' on. -/

/-- Every field from the registers of the channels on reads the same in both states. -/
def edgeSame (s t : State) : Prop := ∀ f : Fld, 0xA00000 * 32 ≤ f.key → get t f = get s f

theorem edgeSame.trans {s t u : State} (h : edgeSame s t) (k : edgeSame t u) : edgeSame s u :=
  fun f hf => (k f hf).trans (h f hf)

theorem edgeSame_of_regsSame {s t : State} {l : List Fld} (h : regsSame s t l) (hl : ∀ g ∈ l, g.key < 0xA00000 * 32) :
    edgeSame s t := by
  refine fun f hf => h f (List.all_eq_true.2 fun g hg => bne_iff_ne.2 ?_)
  have hlow := hl g hg
  omega

theorem levelFields_low {n : Nat} (hn : n < 2048) : ∀ g ∈ levelFields n, g.key < 0xA00000 * 32 := by
  simp only [levelFields, raiseFields, List.forall_mem_cons, Fld.key, Reg.srcCfgLevel, Reg.srcCfgState, Reg.hbStatusAspm,
    Reg.brRetriesL1Exits, Reg.hbStatusPeWake]
  refine ⟨?_, ?_, ?_, ?_, ?_, fun _ h => absurd h List.not_mem_nil⟩ <;> omega

theorem edgeSame_setLevel {n : Nat} (hn : n < 2048) (s : State) (high : Bool) : edgeSame s (setLevel s n high) :=
  edgeSame_of_regsSame (regsSame_setLevel (.refl s _) (fun _ h => h) high) (levelFields_low hn)

theorem edgeSame_giveCells (s : State) (pool port n : Nat) : edgeSame s (giveCells s pool port n) := by
  have hpools {t : State} (h : t.regs = s.regs) : edgeSame s (showPools t) :=
    edgeSame_of_regsSame (l := poolFlds) (((regsSame.refl s _).congr h).showPools fun _ hg => hg) (by decide)
  unfold giveCells
  split <;> exact hpools rfl

theorem edgeSame_untagUnit (s : State) (slot : Nat) : edgeSame s (untagUnit s slot) := by
  unfold untagUnit
  split
  · refine edgeSame_of_regsSame ((regsSame.refl s [Reg.inflightCount slot]).put List.mem_cons_self _) fun g hg => ?_
    rw [List.mem_singleton.1 hg]
    simp only [Fld.key, Reg.inflightCount]
    omega
  · exact fun _ _ => rfl

theorem edgeSame_releaseMsg (s : State) (q : QMsg) : edgeSame s (releaseMsg s q) :=
  (edgeSame_giveCells s _ _ _).trans (edgeSame_untagUnit _ _)

/-! Events of a channel. -/

/-- An event leaves the channels' registers but for its own field. -/
theorem get_chEvent {n : Nat} (hn : n < 256) (s : State) (f : Fld) {g : Fld} (hg : 0xA00000 * 32 ≤ g.key) :
    get (chEvent s n f) g = get (put s f 1) g := edgeSame_setLevel (by omega) _ true g hg

theorem flag_chEvent_level {n : Nat} (hn : n < 256) (s : State) (f : Fld) :
    flag (chEvent s n f) (Reg.srcCfgLevel (112 + n)) = true := flag_setLevel_high (by omega) _

theorem chEvent_edge (s : State) (n : Nat) (f : Fld) : (chEvent s n f).edge = s.edge := setLevel_edge _ _ _

/-! What has left the device stays so. -/

theorem out_vectorDue (s : State) (v : Nat) : s.io.out <:+ (vectorDue s v).io.out := by
  unfold vectorDue
  dsimp only
  split
  · exact List.suffix_refl _
  · split
    · exact (exitL1_io s) ▸ List.suffix_cons _ _
    · split
      · split <;> exact List.suffix_refl _
      · split
        · exact List.suffix_cons _ _
        · exact List.suffix_refl _

theorem out_raiseSource (s : State) (n : Nat) : s.io.out <:+ (raiseSource s n).io.out := by
  have hdeliver (t : State) : t.io.out <:+ (deliver t n).io.out := by
    unfold deliver interruptCore
    split
    · exact List.suffix_refl _
    · split
      · exact out_vectorDue _ _
      · split
        · split
          · exact List.suffix_cons _ _
          · exact List.suffix_refl _
        · exact List.suffix_refl _
  unfold raiseSource
  split
  · exact List.suffix_refl _
  · split
    · exact hdeliver (becomePending s n 1)
    · exact List.suffix_refl _
    · exact List.suffix_refl _

theorem out_chEvent (s : State) (n : Nat) (f : Fld) : s.io.out <:+ (chEvent s n f).io.out := by
  unfold chEvent setLevel
  dsimp only
  split
  · exact out_raiseSource (putFlag (put s f 1) (Reg.srcCfgLevel (112 + n)) true) (112 + n)
  · split <;> exact List.suffix_refl _

/-! Error counters and error states. -/

/-- TEC and REC as errors leave them, before the error state that follows. -/
def errorCounts (s : State) (n tec rec : Nat) : State :=
  put (put s (Reg.canErrTec n) (min 255 tec)) (Reg.canErrRec n) (min 255 rec)

/-- The fields of a channel that a change of its error state moves. -/
def errorStateFlds (n : Nat) : List Fld :=
  [Reg.chStatusState n, Reg.chEventsBusOff n, Reg.chEventsErrPassive n, Reg.canErrBusOffs n]

/-- A controller off its bus or in recovery, with its event and its count. -/
def offBus (s : State) (n st : Nat) : State :=
  bump (chEvent (put s (Reg.chStatusState n) st) n (Reg.chEventsBusOff n)) (Reg.canErrBusOffs n)

/-- What the counters make of the error state: bus-off, a change between active and passive, or nothing. -/
theorem setErrors_cases (s : State) (n tec rec : Nat) :
    (∃ st, setErrors s n tec rec = offBus (errorCounts s n tec rec) n st) ∨
    setErrors s n tec rec =
      chEvent (put (errorCounts s n tec rec) (Reg.chStatusState n) 2) n (Reg.chEventsErrPassive n) ∨
    setErrors s n tec rec = put (errorCounts s n tec rec) (Reg.chStatusState n) 1 ∨
    setErrors s n tec rec = errorCounts s n tec rec := by
  unfold setErrors
  dsimp only
  split
  · exact .inl ⟨_, rfl⟩
  · split
    · exact .inr (.inl rfl)
    · split
      · exact .inr (.inr (.inl rfl))
      · exact .inr (.inr (.inr rfl))

/-- A TEC above 255 takes a controller off its bus, or into recovery where that is enabled (R213). -/
theorem setErrors_busOff {s : State} {n tec : Nat} (hst : chanState s n = 1 ∨ chanState s n = 2) (htec : 255 < tec)
    (rec : Nat) : setErrors s n tec rec = offBus (errorCounts s n tec rec) n (if chanFlag s n 4 then 4 else 3) :=
  if_pos ⟨hst, htec⟩

theorem setErrors_edge (s : State) (n tec rec : Nat) : (setErrors s n tec rec).edge = s.edge := by
  obtain ⟨st, h⟩ | h | h | h := setErrors_cases s n tec rec
  · rw [h, offBus, bump_edge, chEvent_edge]; rfl
  · rw [h, chEvent_edge]; rfl
  · rw [h]; rfl
  · rw [h]; rfl

theorem out_setErrors (s : State) (n tec rec : Nat) : s.io.out <:+ (setErrors s n tec rec).io.out := by
  obtain ⟨st, h⟩ | h | h | h := setErrors_cases s n tec rec
  · rw [h, offBus, bump_io]
    exact out_chEvent (put (errorCounts s n tec rec) _ _) _ _
  · rw [h]
    exact out_chEvent (put (errorCounts s n tec rec) _ _) _ _
  · rw [h]; exact List.suffix_refl _
  · rw [h]; exact List.suffix_refl _

section
variable {n : Nat} (hn : n < 256)
include hn

/-- The error state that follows moves no other field of the channels. -/
theorem get_setErrors (s : State) (tec rec : Nat) {f : Fld} (hf : 0xA00000 * 32 ≤ f.key)
    (hapart : ((errorStateFlds n).all fun g => f.key != g.key) = true) :
    get (setErrors s n tec rec) f = get (errorCounts s n tec rec) f := by
  simp only [errorStateFlds, List.all_cons, List.all_nil, Bool.and_true, Bool.and_eq_true, bne_iff_ne] at hapart
  obtain ⟨hstate, hoff, hpassive, hoffs⟩ := hapart
  obtain ⟨st, h⟩ | h | h | h := setErrors_cases s n tec rec
  · rw [h, offBus, get_bump_ne _ _ _ hoffs, get_chEvent hn _ _ hf, get_put_ne _ _ _ _ hoff, get_put_ne _ _ _ _ hstate]
  · rw [h, get_chEvent hn _ _ hf, get_put_ne _ _ _ _ hpassive, get_put_ne _ _ _ _ hstate]
  · rw [h, get_put_ne _ _ _ _ hstate]
  · rw [h]

theorem get_setErrors_tec (s : State) (tec rec : Nat) :
    get (setErrors s n tec rec) (Reg.canErrTec n) = min 255 tec := by
  have hrec : (Reg.canErrTec n).key ≠ (Reg.canErrRec n).key := by simp [Fld.key, Reg.canErrTec, Reg.canErrRec]
  rw [get_setErrors hn, errorCounts, get_put_ne _ _ _ _ hrec, get_put_same]
  · exact Nat.mod_eq_of_lt (Nat.lt_of_le_of_lt (Nat.min_le_left _ _) (show 255 < 2 ^ 8 by decide))
  · simp only [Fld.key, Reg.canErrTec]; omega
  · simp [errorStateFlds, Fld.key, Reg.canErrTec, Reg.chStatusState, Reg.chEventsBusOff, Reg.chEventsErrPassive,
      Reg.canErrBusOffs]
    omega

theorem get_setErrors_rec (s : State) (tec rec : Nat) :
    get (setErrors s n tec rec) (Reg.canErrRec n) = min 255 rec := by
  rw [get_setErrors hn, errorCounts, get_put_same]
  · exact Nat.mod_eq_of_lt (Nat.lt_of_le_of_lt (Nat.min_le_left _ _) (show 255 < 2 ^ 8 by decide))
  · simp only [Fld.key, Reg.canErrRec]; omega
  · simp [errorStateFlds, Fld.key, Reg.canErrRec, Reg.chStatusState, Reg.chEventsBusOff, Reg.chEventsErrPassive,
      Reg.canErrBusOffs]
    omega

/-- The counters of errors on the bus and of messages sent are none that errors move themselves. -/
theorem get_setErrors_count (s : State) (tec rec : Nat) {f : Fld} (hf : f ∈ [Reg.chBusErrors n, Reg.chTxFrames n]) :
    get (setErrors s n tec rec) f = get s f := by
  have hkey : (0xA00040 + 0x1000 * n) * 32 ≤ f.key ∧ f.key < (0xA00080 + 0x1000 * n) * 32 := by
    simp only [List.mem_cons, List.not_mem_nil, or_false] at hf
    obtain rfl | rfl := hf <;> simp only [Fld.key, Reg.chBusErrors, Reg.chTxFrames] <;> omega
  obtain ⟨hlow, hhigh⟩ := hkey
  rw [get_setErrors hn _ _ _ (by omega), errorCounts, get_put_ne, get_put_ne]
  · simp only [Fld.key, Reg.canErrTec] at *; omega
  · simp only [Fld.key, Reg.canErrRec] at *; omega
  · simp only [errorStateFlds, List.all_cons, List.all_nil, Bool.and_true, Bool.and_eq_true, bne_iff_ne]
    simp only [Fld.key, Reg.chStatusState, Reg.chEventsBusOff, Reg.chEventsErrPassive, Reg.canErrBusOffs] at *
    omega

/-- A controller off its bus shows its state, its event with its level, and one more bus-off. -/
theorem offBus_shown (s : State) {st : Nat} (hst : st < 8) : chanState (offBus s n st) n = st ∧
    get (offBus s n st) (Reg.chEventsBusOff n) = 1 ∧ flag (offBus s n st) (Reg.srcCfgLevel (112 + n)) = true ∧
    get (offBus s n st) (Reg.canErrBusOffs n) =
      min (2 ^ (Reg.canErrBusOffs n).width - 1) (get s (Reg.canErrBusOffs n) + 1) := by
  have hapart : (Reg.chStatusState n).key ≠ (Reg.chEventsBusOff n).key ∧
      (Reg.chStatusState n).key ≠ (Reg.canErrBusOffs n).key ∧ (Reg.chEventsBusOff n).key ≠ (Reg.canErrBusOffs n).key ∧
      (Reg.srcCfgLevel (112 + n)).key ≠ (Reg.canErrBusOffs n).key ∧ 0xA00000 * 32 ≤ (Reg.chStatusState n).key ∧
      0xA00000 * 32 ≤ (Reg.chEventsBusOff n).key ∧ 0xA00000 * 32 ≤ (Reg.canErrBusOffs n).key := by
    simp only [Fld.key, Reg.chStatusState, Reg.chEventsBusOff, Reg.canErrBusOffs, Reg.srcCfgLevel]
    omega
  obtain ⟨hse, hso, heo, hlo, hs, he, ho⟩ := hapart
  refine ⟨?_, ?_, ?_, ?_⟩
  · rw [chanState, offBus, get_bump_ne _ _ _ hso, get_chEvent hn _ _ hs, get_put_ne _ _ _ _ hse, get_put_same]
    exact Nat.mod_eq_of_lt hst
  · rw [offBus, get_bump_ne _ _ _ heo, get_chEvent hn _ _ he]
    exact get_put_same _ _ _
  · rw [flag, offBus, get_bump_ne _ _ _ hlo]
    exact flag_chEvent_level hn _ _
  · rw [offBus, get_bump_same, get_chEvent hn _ _ ho, get_put_ne _ _ _ _ heo.symm, get_put_ne _ _ _ _ hso.symm]

end

/-! Transmit queues. -/

theorem SMap.del_of_find_none {α : Type} {m : SMap α} {j : Nat} (h : m.find j = none) : m.del j = m := by
  induction m with
  | nil => rfl
  | cons e m ih =>
    obtain ⟨k, v⟩ := e
    have hkey : j ≠ k := fun hjk => by simp [SMap.find_cons, hjk] at h
    rw [SMap.find_cons, if_neg hkey] at h
    rw [SMap.del_cons, if_neg hkey.symm, ih h]

theorem SMap.find_put_same {α : Type} (m : SMap α) (j : Nat) (o : Option α) : (m.put j o).find j = o := by
  cases o with
  | none => exact SMap.find_del_same m j
  | some v => exact SMap.find_set_same m j v

theorem getD_heldList (l : List QMsg) : (heldList l).getD [] = l := by cases l <;> rfl

/-- The depths a channel shows. -/
def depthFlds (n : Nat) : List Fld := [Reg.chStatusTxqDepth n, Reg.chStatusRxlDepth n]

theorem setTxq_regsSame (s : State) (n : Nat) (l : List QMsg) : regsSame s (setTxq s n l) (depthFlds n) :=
  (((regsSame.refl s _).congr rfl).put (by simp [depthFlds]) _).put (by simp [depthFlds]) _

section
variable {s : State} {n : Nat} (hagain : s.edge.again.find n = none)
include hagain

theorem againOf_none : againOf s n = [] := by rw [againOf, hagain]; rfl

/-- With nothing waiting beside it, a queue is what it is set to. -/
theorem setTxq_alone (l : List QMsg) :
    setTxq s n l = showDepths { s with edge.txq := s.edge.txq.put n (heldList l) } n := by
  have hsame : s.edge.again.put n none = s.edge.again := SMap.del_of_find_none hagain
  simp only [setTxq, againOf_none hagain, returnTo, setAgain, heldList, List.isEmpty_nil, if_true, hsame]

theorem txqOf_setTxq (l : List QMsg) : txqOf (setTxq s n l) n = l := by
  rw [setTxq_alone hagain]
  exact (congrArg (Option.getD · []) (SMap.find_put_same _ _ _)).trans (getD_heldList l)

theorem setTxq_again (l : List QMsg) : (setTxq s n l).edge.again = s.edge.again := by
  rw [setTxq_alone hagain]
  rfl

theorem get_setTxq_depth (l : List QMsg) :
    get (setTxq s n l) (Reg.chStatusTxqDepth n) = l.length % 2 ^ (Reg.chStatusTxqDepth n).width := by
  have hdepth : get (setTxq s n l) (Reg.chStatusTxqDepth n) =
      (txqOf (setTxq s n l) n).length % 2 ^ (Reg.chStatusTxqDepth n).width := get_put_same _ _ _
  rw [hdepth, txqOf_setTxq hagain]

/-- A message leaves a queue that nothing waits beside. -/
theorem takeMsg_queued (q : QMsg) : takeMsg s n q = setTxq s n ((txqOf s n).erase q) := by
  simp [takeMsg, againOf_none hagain]

end

/-! A message back from its bus. -/

/-- A channel with nothing on offer to its bus. -/
def offerless (s : State) (n : Nat) : State := { s with edge.offered := s.edge.offered.del n }

theorem takeBack_none {s : State} {n : Nat} (h : s.edge.offered.find n = none) : takeBack s n = s := by
  rw [takeBack, h]

theorem takeBack_some {s : State} {n : Nat} {q : QMsg} (h : s.edge.offered.find n = some q) :
    takeBack s n = putBack (offerless s n) n q := by
  rw [takeBack, h]
  rfl

theorem putBack_room {s : State} {n : Nat} (h : (txqOf s n).length < 64) (q : QMsg) :
    putBack s n q = setTxq s n (insertOrder q true (txqOf s n)) := if_pos h

theorem putBack_offered (s : State) (n : Nat) (q : QMsg) : (putBack s n q).edge.offered = s.edge.offered := by
  unfold putBack
  split <;> rfl

theorem putBack_regsSame (s : State) (n : Nat) (q : QMsg) : regsSame s (putBack s n q) (depthFlds n) := by
  unfold putBack
  split
  · exact setTxq_regsSame _ _ _
  · exact (regsSame.refl s _).congr rfl

theorem putBack_frame (s : State) (n : Nat) (q : QMsg) :
    putBack s n q = { s with regs := (putBack s n q).regs, edge := (putBack s n q).edge } := by
  unfold putBack
  split <;> rfl

theorem takeBack_offered (s : State) (n : Nat) : (takeBack s n).edge.offered.find n = none := by
  cases h : s.edge.offered.find n with
  | none => rw [takeBack_none h, h]
  | some q =>
    rw [takeBack_some h, putBack_offered]
    exact SMap.find_del_same _ _

theorem takeBack_regsSame (s : State) (n : Nat) : regsSame s (takeBack s n) (depthFlds n) := by
  cases h : s.edge.offered.find n with
  | none => rw [takeBack_none h]; exact .refl s _
  | some q =>
    rw [takeBack_some h]
    exact putBack_regsSame (offerless s n) n q

theorem takeBack_frame (s : State) (n : Nat) :
    takeBack s n = { s with regs := (takeBack s n).regs, edge := (takeBack s n).edge } := by
  cases h : s.edge.offered.find n with
  | none => rw [takeBack_none h]
  | some q => rw [takeBack_some h, putBack_frame, offerless]

/-- A message comes back to its place in its channel's queue (R214). -/
theorem takeBack_returns {s : State} {n : Nat} {q : QMsg} (hq : s.edge.offered.find n = some q)
    (hroom : (txqOf s n).length < 64) (hagain : s.edge.again.find n = none) :
    txqOf (takeBack s n) n = insertOrder q true (txqOf s n) ∧ (takeBack s n).edge.again = s.edge.again := by
  have hback : takeBack s n = setTxq (offerless s n) n (insertOrder q true (txqOf s n)) :=
    (takeBack_some hq).trans (putBack_room (s := offerless s n) hroom q)
  rw [hback]
  exact ⟨txqOf_setTxq (s := offerless s n) hagain _, setTxq_again (s := offerless s n) hagain _⟩

/-! Errors on the bus. -/

/-- A channel whose transmission met an error, before its counters move: the error counts and the message comes back. -/
def hitBack (s : State) (n : Nat) : State := takeBack (bump s (Reg.chBusErrors n)) n

section
variable {s : State} {n : Nat} (hon : canOnBus s n = true)
include hon

theorem chanState_of_onBus : chanState s n = 1 ∨ chanState s n = 2 := by
  simp only [canOnBus, Bool.and_eq_true, Bool.or_eq_true, beq_iff_eq] at hon
  exact hon.2

theorem canBusError_receive : canBusError s n .receive =
    setErrors (bump s (Reg.chBusErrors n)) n (get s (Reg.canErrTec n)) (get s (Reg.canErrRec n) + 1) := by
  simp [canBusError, hon]

theorem canBusError_dominant : canBusError s n .receiveDominant =
    setErrors (bump s (Reg.chBusErrors n)) n (get s (Reg.canErrTec n)) (get s (Reg.canErrRec n) + 8) := by
  simp [canBusError, hon]

theorem canBusError_transmit : canBusError s n .transmit = setErrors (hitBack s n) n (get s (Reg.canErrTec n) + 8)
    (get s (Reg.canErrRec n)) := by
  simp [canBusError, hon, hitBack]

end

/-- The depths of a channel are none of the fields that its errors move or count. -/
theorem get_hitBack {s : State} {n : Nat} {f : Fld}
    (hf : f ∈ [Reg.chBusErrors n, Reg.chStatusState n, Reg.canErrBusOffs n]) :
    get (hitBack s n) f = get (bump s (Reg.chBusErrors n)) f := by
  refine takeBack_regsSame _ n f ?_
  simp only [List.mem_cons, List.not_mem_nil, or_false] at hf
  obtain rfl | rfl | rfl := hf <;>
    simp [depthFlds, Fld.key, Reg.chBusErrors, Reg.chStatusState, Reg.canErrBusOffs, Reg.chStatusTxqDepth,
      Reg.chStatusRxlDepth]
  all_goals omega

/-- The flags of a channel are read from the structural sections alone. -/
theorem chanFlag_of_env {s t : State} (h : t.env = s.env) (n i : Nat) : chanFlag t n i = chanFlag s n i := by
  simp only [chanFlag, View.chanFlags, chanEntry, View.sect, edges, slotView, h]

/-- What an error state that follows a transmit error starts from (R213). -/
theorem hitBack_state (s : State) (n : Nat) : chanState (hitBack s n) n = chanState s n ∧
    chanFlag (hitBack s n) n 4 = chanFlag s n 4 ∧
    get (hitBack s n) (Reg.canErrBusOffs n) = get s (Reg.canErrBusOffs n) := by
  have hapart : (Reg.chStatusState n).key ≠ (Reg.chBusErrors n).key ∧
      (Reg.canErrBusOffs n).key ≠ (Reg.chBusErrors n).key := by
    simp only [Fld.key, Reg.chStatusState, Reg.chBusErrors, Reg.canErrBusOffs]
    omega
  obtain ⟨hstate, hoffs⟩ := hapart
  refine ⟨?_, chanFlag_of_env ?_ n 4, ?_⟩
  · exact (get_hitBack (by simp)).trans (get_bump_ne _ _ _ hstate)
  · rw [hitBack, takeBack_frame]
    rfl
  · exact (get_hitBack (by simp)).trans (get_bump_ne _ _ _ hoffs)

/-! Messages offered to a bus. -/

theorem offerable_made_none {q : QMsg} (h : q.made = none) (qs : List QMsg) :
    offerable [] (q :: qs) = q :: offerable [] qs := by simp [offerable, h]

/-- Nothing is offered of an ORDER that is held. -/
theorem offerable_held {held : List Nat} {l : List QMsg} (h : ∀ x ∈ l, orderOf x.msg ∈ held) : offerable held l = [] := by
  induction l generalizing held with
  | nil => rfl
  | cons q qs ih =>
    obtain ⟨hq, hqs⟩ := List.forall_mem_cons.1 h
    rw [offerable]
    split
    · exact ih fun x hx => List.mem_cons_of_mem _ (hqs x hx)
    · rw [if_pos (List.contains_iff_mem.2 hq)]
      exact ih hqs

/-- A free engine picks from what its queue may offer. -/
theorem canArbitration_free {s : State} {n : Nat} (hon : canOnBus s n = true) (htalks : chanFlag s n 2 = false)
    (hfree : s.edge.offered.has n = false) (hagain : s.edge.again.find n = none) (htime : txTimeout s n = s) :
    canArbitration s n = canPick n s (offerable [] (txqOf s n)) := by
  simp [canArbitration, hon, htalks, hfree, htime, againOf_none hagain]

/-- The first message that may start is put on offer. -/
theorem canPick_first {s : State} {n : Nat} {q : QMsg} (hfits : neverStarts s n q.msg = false)
    (hstarts : mayStart s n q.msg = true) (hadmits : admitsTarget s n q.safety = true) (qs : List QMsg) :
    canPick n s (q :: qs) =
      { takeMsg s n q with edge.offered := (takeMsg s n q).edge.offered.set n q } := by
  simp [canPick, hfits, hstarts, hadmits]

/-! A message sent. -/

theorem changesOnly.edge_eq {l : List Part} {s t : State} (h : changesOnly l s t) (hl : Part.edge ∉ l) :
    t.edge = s.edge := by
  obtain ⟨-, -, -, -, -, -, -, -, -, -, -, -, -, -, -, -, -, -, -, -, -, -, -, -, -, hedge, -⟩ := h
  exact hedge.resolve_left hl

theorem releaseMsg_edge (s : State) (q : QMsg) : (releaseMsg s q).edge = s.edge :=
  (changesOnly_of_kept (@kept_releaseMsg [.registers, .frames] (has_of rfl) (has_of rfl) s q)).edge_eq (by decide)

/-- A message sent: it is off the bus, counted, released and out, and the error counters are still to move. -/
def sentMsg (s : State) (n : Nat) (q : QMsg) : State :=
  emit (releaseMsg (bump (offerless s n) (Reg.chTxFrames n)) q) (.can n q.msg)

theorem canTxComplete_sent {s : State} {n : Nat} {q : QMsg} (h : s.edge.offered.find n = some q) :
    canTxComplete s n = setErrors (sentMsg s n q) n (get s (Reg.canErrTec n) - 1) (get s (Reg.canErrRec n)) := by
  rw [canTxComplete, h]
  rfl

theorem canTxComplete_none {s : State} {n : Nat} (h : s.edge.offered.find n = none) : canTxComplete s n = s := by
  rw [canTxComplete, h]

theorem sentMsg_edge (s : State) (n : Nat) (q : QMsg) : (sentMsg s n q).edge = (offerless s n).edge :=
  releaseMsg_edge _ _

theorem get_sentMsg_frames (s : State) (n : Nat) (q : QMsg) : get (sentMsg s n q) (Reg.chTxFrames n) =
    min (2 ^ (Reg.chTxFrames n).width - 1) (get s (Reg.chTxFrames n) + 1) := by
  have hedge : 0xA00000 * 32 ≤ (Reg.chTxFrames n).key := by simp only [Fld.key, Reg.chTxFrames]; omega
  exact (edgeSame_releaseMsg _ q _ hedge).trans (get_bump_same _ _)

/-! Recovery. -/

theorem canRecover_off {s : State} {n : Nat} (hn : n < 16) (hst : chanState s n = 3) :
    canRecover s n = put s (Reg.chStatusState n) 4 := if_pos ⟨hn, hst⟩

/-- A controller back on its bus, with both counters 0. -/
def recovered (s : State) (n : Nat) : State :=
  put (put (put s (Reg.chStatusState n) 1) (Reg.canErrTec n) 0) (Reg.canErrRec n) 0

theorem recovered_shown (s : State) (n : Nat) : chanState (recovered s n) n = 1 ∧
    get (recovered s n) (Reg.canErrTec n) = 0 ∧ get (recovered s n) (Reg.canErrRec n) = 0 := by
  have hapart : (Reg.chStatusState n).key ≠ (Reg.canErrTec n).key ∧ (Reg.chStatusState n).key ≠ (Reg.canErrRec n).key ∧
      (Reg.canErrTec n).key ≠ (Reg.canErrRec n).key := by
    simp only [Fld.key, Reg.chStatusState, Reg.canErrTec, Reg.canErrRec]
    omega
  obtain ⟨hst, hsr, htr⟩ := hapart
  refine ⟨?_, ?_, ?_⟩
  · rw [chanState, recovered, get_put_ne _ _ _ _ hsr, get_put_ne _ _ _ _ hst]
    exact get_put_same _ _ _
  · rw [recovered, get_put_ne _ _ _ _ htr]
    exact (get_put_same _ _ _).trans (Nat.zero_mod _)
  · exact (get_put_same _ _ _).trans (Nat.zero_mod _)

/-- Settles O42, clause by clause: a controller on its bus, its errors and its recovery, and the way of a message from its
queue to the bus and back or out. -/
theorem canControllersAndMessages : Obligations.CanControllersAndMessages := by
  unfold Obligations.CanControllersAndMessages
  refine ⟨fun s ch haloft hphase hst hapart => ?_, fun s ch hon => ?_, fun s ch hon => ?_, fun s ch hon => ?_,
    fun s ch q hon hq hroom hagain => ?_, fun s ch hon htec => ?_, fun s m ch hacc hch hst => ?_, fun s ch hst => ?_,
    fun s ch q rest hon htalks hfree hagain hqueue hmade htime hfits hstarts hadmits => ?_,
    fun s ch q hq hroom hagain => ?_, fun s ch q hq => ?_,
    fun s ch q rest hon htalks hfree hagain hqueue hmade horder htime => ?_,
    fun s ch hnone => congrArg Host.Outcome.next (canTxComplete_none hnone)⟩
  case refine_1 =>
    have hjoins : canIntegrated s ch = { s with edge.joined := ch.val :: s.edge.joined } :=
      if_pos ⟨haloft, hphase, hst, by simpa using hapart⟩
    exact ⟨_, congrArg Host.Outcome.next hjoins, rfl, (regsSame.refl s _).congr rfl, rfl⟩
  case refine_2 =>
    have hch : ch.val < 256 := by omega
    refine ⟨_, congrArg Host.Outcome.next (canBusError_receive hon), get_setErrors_rec hch _ _ _,
      get_setErrors_tec hch _ _ _, ?_, setErrors_edge _ _ _ _⟩
    rw [get_setErrors_count hch _ _ _ (by simp), get_bump_same]
  case refine_3 =>
    have hch : ch.val < 256 := by omega
    exact ⟨_, congrArg Host.Outcome.next (canBusError_dominant hon), get_setErrors_rec hch _ _ _,
      setErrors_edge _ _ _ _⟩
  case refine_4 =>
    have hch : ch.val < 256 := by omega
    refine ⟨_, congrArg Host.Outcome.next (canBusError_transmit hon), get_setErrors_tec hch _ _ _, ?_, ?_⟩
    · rw [setErrors_edge]
      exact takeBack_offered _ _
    · rw [get_setErrors_count hch _ _ _ (by simp)]
      exact (get_hitBack (by simp)).trans (get_bump_same _ _)
  case refine_5 =>
    obtain ⟨hqueue, hbeside⟩ := takeBack_returns (s := bump s (Reg.chBusErrors ch)) hq hroom hagain
    refine ⟨_, congrArg Host.Outcome.next (canBusError_transmit hon), ?_, ?_, ?_⟩
    · rw [setErrors_edge]
      exact takeBack_offered _ _
    · rw [txqOf, setErrors_edge]
      exact hqueue
    · rw [setErrors_edge]
      exact hbeside
  case refine_6 =>
    have hch : ch.val < 256 := by omega
    obtain ⟨hstate, hflag, hoffs⟩ := hitBack_state s ch
    have hoff := setErrors_busOff (s := hitBack s ch) (by rw [hstate]; exact chanState_of_onBus hon) htec
      (get s (Reg.canErrRec ch))
    have hcount : get (errorCounts (hitBack s ch) ch (get s (Reg.canErrTec ch) + 8) (get s (Reg.canErrRec ch)))
        (Reg.canErrBusOffs ch) = get s (Reg.canErrBusOffs ch) := by
      rw [errorCounts, get_put_ne _ _ _ _ (by simp [Fld.key, Reg.canErrBusOffs, Reg.canErrRec]),
        get_put_ne _ _ _ _ (by simp [Fld.key, Reg.canErrBusOffs, Reg.canErrTec]), hoffs]
    rw [hflag] at hoff
    refine ⟨_, congrArg Host.Outcome.next ((canBusError_transmit hon).trans hoff), ?_⟩
    rw [← hcount]
    exact offBus_shown hch _ (by split <;> decide)
  case refine_7 =>
    have haccess := accessWrite_accepted s m (0xA00004 + 0x1000 * ch.val) (canRecover · ch) hacc
    rw [canRecover_off hch hst] at haccess
    refine ⟨_, congrArg Host.Outcome.next haccess, ?_, ?_, ?_⟩
    · exact (get_answered _ _ _ _ _).trans (get_put_same _ _ _)
    · exact regsSame_answered ((regsSame.refl s _).put List.mem_cons_self _) _ _ _
    · apply State.eq_of_parts <;> simp
  case refine_8 =>
    have hback : canRecovered s ch = recovered s ch := if_pos hst
    obtain ⟨hstate, htec, hrec⟩ := recovered_shown s ch
    exact ⟨_, congrArg Host.Outcome.next hback, hstate, htec, hrec,
      (((regsSame.refl s _).put (by simp) _).put (by simp) _).put (by simp) _, rfl⟩
  case refine_9 =>
    have hlist : txqOf s ch = q :: rest := by rw [txqOf, hqueue]; rfl
    have htake : takeMsg s ch q = setTxq s ch rest := by rw [takeMsg_queued hagain, hlist, List.erase_cons_head]
    have hoffers := canArbitration_free hon htalks hfree hagain htime
    rw [hlist, offerable_made_none hmade, canPick_first hfits hstarts hadmits, htake] at hoffers
    exact ⟨_, congrArg Host.Outcome.next hoffers, SMap.find_set_same _ _ _, txqOf_setTxq hagain rest,
      get_setTxq_depth hagain rest⟩
  case refine_10 =>
    obtain ⟨hqueue, -⟩ := takeBack_returns hq hroom hagain
    exact ⟨_, rfl, takeBack_offered _ _, hqueue, takeBack_regsSame _ _, takeBack_frame _ _⟩
  case refine_11 =>
    have hch : ch.val < 256 := by omega
    have hedge := (setErrors_edge (sentMsg s ch q) ch (get s (Reg.canErrTec ch) - 1) (get s (Reg.canErrRec ch))).trans
      (sentMsg_edge s ch q)
    refine ⟨_, congrArg Host.Outcome.next (canTxComplete_sent hq), ?_, ?_, ?_, get_setErrors_tec hch _ _ _,
      get_setErrors_rec hch _ _ _, ?_⟩
    · rw [hedge]
      exact SMap.find_del_same _ _
    · exact (out_setErrors _ _ _ _).subset List.mem_cons_self
    · rw [get_setErrors_count hch _ _ _ (by simp), get_sentMsg_frames]
    · rw [hedge]
      rfl
  case refine_12 =>
    have hlist : txqOf s ch = q :: rest := by rw [txqOf, hqueue]; rfl
    have hnothing : offerable [] (q :: rest) = [] := by
      rw [offerable, if_pos hmade]
      exact offerable_held fun x hx => by simp [horder x hx]
    have hidle := canArbitration_free hon htalks hfree hagain htime
    rw [hlist, hnothing] at hidle
    exact congrArg Host.Outcome.next hidle

end Sys2Proof.Machine
end

section
/-!
Messages received on a CAN channel (R211, R213). A message received takes the number of the current slot and is counted among
that slot's units in flight. The statement bounds no number: EPOCH_STATUS.CUR beyond the four slots puts that count on
RX_FRAMES of a channel, as it does for a LIN channel.
-/
namespace Sys2Proof.Machine

/-- The number of a slot whose INFLIGHT lies on RX_FRAMES of the first CAN channel. -/
def strayCanSlot : Nat := ((Reg.chRxFrames 0).addr - (Reg.inflightCount 0).addr) / 4

/-- A device with that slot as the current one, whose first channel is on its CAN bus. -/
def strayCan : State :=
  { State.reset with
    boot.phase := .aloft
    regs := putRegs [(Reg.epochStatusCur.key, strayCanSlot)] (Reg.chStatusState 0) 1
    env.structural := [(0x0020, [0, 1])]
    edge.joined := [0] }

/-- A classical CAN message without data. -/
def emptyMsg : BusMsg := ⟨.cc, 0, false, false, false, false, 0, 0, 0, false, []⟩

theorem canOnBus_strayCan : canOnBus strayCan 0 = true := by decide +kernel
theorem kindFits_strayCan : kindFits strayCan 0 emptyMsg = true := by decide +kernel

/-- The one message counts twice in RX_FRAMES: as a message received, and as a unit in flight. -/
theorem rxFrames_of_strayCan : get (canReceive strayCan 0 emptyMsg) (Reg.chRxFrames 0) = 2 := by decide +kernel

/-- Refutes O43: a message received need not raise RX_FRAMES by one. Under a current slot beyond the four there are, its tag
raises the counter again. -/
theorem not_edgeMessagesAreVerified : ¬ Obligations.EdgeMessagesAreVerified := by
  unfold Obligations.EdgeMessagesAreVerified
  intro h
  obtain ⟨hreceive, -⟩ := h
  obtain ⟨t, ht, hframes, -⟩ := hreceive strayCan 0 emptyMsg canOnBus_strayCan (by decide) kindFits_strayCan
  obtain rfl : canReceive strayCan 0 emptyMsg = t := Host.Outcome.next.inj ht
  have hdue : get (canReceive strayCan 0 emptyMsg) (Reg.chRxFrames 0) =
      min (2 ^ (Reg.chRxFrames 0).width - 1) (get strayCan (Reg.chRxFrames 0) + 1) := hframes
  have hbefore : get strayCan (Reg.chRxFrames 0) = 0 := rfl
  rw [rxFrames_of_strayCan, hbefore] at hdue
  exact absurd hdue (by decide)

end Sys2Proof.Machine
end

section
/-!
Tunnel frames at P50 (R211, R224). A message that a tunnel frame brings is counted among the units in flight of the frame's
slot. The statement bounds no number: a frame tagged with a slot beyond the four puts that count on RX_TUNNEL of its binding.
-/
namespace Sys2Proof.Machine

/-- The number of a slot whose INFLIGHT lies on RX_TUNNEL of the first binding. -/
def strayTunnelSlot : Nat := ((Reg.bindRxTunnel 0).addr - (Reg.inflightCount 0).addr) / 4

/-- An AVTP frame of ACF messages, NTSCF, with one brief CAN message without data for bus 0. -/
def tunnelBytes : List Byte :=
  zeros 12 ++ [0x22, 0xF0, 0x82, 0x80, 8, 0] ++ zeros 8 ++ [0x04, 0x02, 0, 0, 0, 0, 0, 0]

/-- That frame at P50, whole and good, of the first binding and of that slot. -/
def strayTunnelFrame : Packet :=
  { newPacket State.reset 0 ⟨tunnelBytes, false, none, false, false, false⟩ none with
    tunnel := some 0, slot := some strayTunnelSlot, tail := 1 }

/-- A device that holds the frame. -/
def strayTunnel : State :=
  { State.reset with
    env.structural := [(0x0020, zeros 385 ++ [1])]
    env.cmt := [(slotKey strayTunnelSlot (Reg.chCtlAdminEn 24), 1)]
    net.packets := [(0, strayTunnelFrame)]
    edge.tunnelIn := [0] }

/-- The one frame counts twice in RX_TUNNEL: as a tunnel frame taken, and by its message as a unit in flight. -/
theorem rxTunnel_of_strayTunnel : get (tunnelEndpoint strayTunnel) (Reg.bindRxTunnel 0) = 2 := by decide +kernel

/-- Refutes O44: a tunnelled frame taken need not raise RX_TUNNEL by one. Where its slot is beyond the four there are, the
tag of its message raises the counter again. -/
theorem not_tunnelsAndPackers : ¬ Obligations.TunnelsAndPackers := by
  unfold Obligations.TunnelsAndPackers
  intro h
  obtain ⟨-, -, hendpoint, -⟩ := h
  obtain ⟨t, ht, -, -, -, -, hframes⟩ := hendpoint strayTunnel 0 [] strayTunnelFrame 0 rfl rfl rfl rfl (by decide)
  obtain rfl : tunnelEndpoint strayTunnel = t := Host.Outcome.next.inj ht
  have hbefore : get strayTunnel (Reg.bindRxTunnel 0) = 0 := rfl
  rw [rxTunnel_of_strayTunnel, hbefore] at hframes
  exact absurd hframes (by decide)

end Sys2Proof.Machine
end

section
/-!
The fuses (R243, R263). A command that does not list the fuses keeps them; of those that list them, a life-cycle change alone
moves the life cycle, once, since it resets the device, and VK_REVOKE alone sets a revoked bit.
-/
namespace Sys2Proof.Machine

/-! What the fuses hold. -/

/-- The fuses of a state without the scoresheet's anchors. -/
def fusesIn (s : State) : OtpSt := fusesOf s.otp

theorem lc_of_fusesIn {s t : State} (h : fusesIn t = fusesIn s) : t.otp.lc = s.otp.lc := by
  have hlc : (fusesIn t).lc = (fusesIn s).lc := congrArg OtpSt.lc h
  exact hlc

theorem vkRevoked_of_fusesIn {s t : State} (h : fusesIn t = fusesIn s) : t.otp.vkRevoked = s.otp.vkRevoked := by
  have hvk : (fusesIn t).vkRevoked = (fusesIn s).vkRevoked := congrArg OtpSt.vkRevoked h
  exact hvk

theorem changesOnly.fuses_eq {l : List Part} {s t : State} (h : changesOnly l s t) (hl : Part.fuses ∉ l) :
    fusesIn t = fusesIn s := by
  obtain ⟨-, -, -, -, -, -, -, -, -, -, -, -, -, -, -, -, -, hfuses, -⟩ := h
  exact hfuses.resolve_left hl

/-- What keeps every list of parts without the fuses keeps the fuses. -/
theorem fusesIn_of_kept {s t : State} (h : ∀ M : List Part, [Has M .registers] → [Has M .accum] → [Has M .time] →
    [Has M .jobs] → [Has M .policy] → [Has M .epochs] → [Has M .faults] → [Has M .intc] → [Has M .host] → [Has M .cpu] →
    [Has M .banks] → [Has M .flash] → [Has M .cont] → [Has M .boot] → [Has M .img] → [Has M .vault] → [Has M .anchors] →
    [Has M .sheet] → [Has M .sheetLog] → [Has M .frames] → [Has M .tables] → [Has M .links] → [Has M .tm] →
    [Has M .edge] → [Has M .wake] → [Has M .cnt] → [Has M .io] → [Has M .draws] → kept M t = kept M s) :
    fusesIn t = fusesIn s := by
  have hkept : kept (allBut [.fuses]) t = kept (allBut [.fuses]) s := by
    refine @h _ ?_ ?_ ?_ ?_ ?_ ?_ ?_ ?_ ?_ ?_ ?_ ?_ ?_ ?_ ?_ ?_ ?_ ?_ ?_ ?_ ?_ ?_ ?_ ?_ ?_ ?_ ?_ ?_ <;> exact has_of rfl
  exact (changesOnly_of_kept hkept).fuses_eq (by decide)

theorem fusesIn_ite (c : Prop) [Decidable c] (a b : State) :
    fusesIn (if c then a else b) = if c then fusesIn a else fusesIn b := apply_ite fusesIn _ _ _

/-! How the fuses may move. -/

/-- The life cycle stands or makes a listed transition, and no revocation is taken back. -/
def FusesForward (s t : State) : Prop :=
  lcAllowed s.otp.lc t.otp.lc = true ∧ ∀ i, s.otp.vkRevoked.testBit i = true → t.otp.vkRevoked.testBit i = true

theorem lcAllowed_refl (a : Nat) : lcAllowed a a = true := by simp [lcAllowed]

theorem FusesForward.of_same {s t : State} (h : fusesIn t = fusesIn s) : FusesForward s t := by
  refine ⟨?_, fun i hi => ?_⟩
  · rw [lc_of_fusesIn h]
    exact lcAllowed_refl _
  · rwa [vkRevoked_of_fusesIn h]

theorem FusesForward.congr {s t u v : State} (h : FusesForward s t) (hs : fusesIn u = fusesIn s)
    (ht : fusesIn v = fusesIn t) : FusesForward u v := by
  unfold FusesForward at h ⊢
  rwa [lc_of_fusesIn hs, lc_of_fusesIn ht, vkRevoked_of_fusesIn hs, vkRevoked_of_fusesIn ht]

/-- The fuse of the life cycle programmed as the table lists it. -/
theorem FusesForward.of_program {s t : State} {goal : Nat} (h : fusesIn t = { fusesIn s with lc := goal })
    (hgoal : lcAllowed s.otp.lc goal = true) : FusesForward s t := by
  have hlc : (fusesIn t).lc = goal := by rw [h]
  have hvk : (fusesIn t).vkRevoked = (fusesIn s).vkRevoked := by rw [h]
  refine ⟨?_, fun i hi => ?_⟩
  · exact hlc.symm ▸ hgoal
  · exact hvk.symm ▸ hi

/-- The fuses stay, or they move forward and the device forwards no longer. -/
def FusesMoveOnce (s t : State) : Prop := fusesIn t = fusesIn s ∨ FusesForward s t ∧ aloft t = false

theorem FusesMoveOnce.forward {s t : State} (h : FusesMoveOnce s t) : FusesForward s t :=
  h.elim .of_same And.left

/-- The fuses stay before and after a move, and so does the phase after it. -/
theorem FusesMoveOnce.congr {s t u v : State} (h : FusesMoveOnce s t) (hs : fusesIn u = fusesIn s)
    (ht : fusesIn v = fusesIn t) (hboot : aloft v = aloft t) : FusesMoveOnce u v := by
  rcases h with hsame | ⟨hforward, hdown⟩
  · exact .inl (ht.trans (hsame.trans hs.symm))
  · exact .inr ⟨hforward.congr hs ht, hboot.trans hdown⟩

/-! Castling beside the fuses. -/

theorem fusesIn_castlingEntry (s : State) (old : Bool) (r : Nat) : fusesIn (castlingEntry s old r) = fusesIn s :=
  fusesIn_of_kept fun _ => kept_journal _ _ _

theorem fusesIn_abandon (s : State) (r : Nat) : fusesIn (abandon s r) = fusesIn s := by
  refine (fusesIn_castlingEntry _ _ _).trans (fusesIn_of_kept ?_)
  intros
  simp only [kept_bump, kept_mk, true_or, or_true, and_self, listed, kept_castIdle, kept_ite, kept_commitFail,
    kept_stopPartners, kept_dropDigest, ite_self]

theorem fusesIn_castBefore (s : State) : fusesIn (castBefore s) = fusesIn s := by
  have hwrite (u : State) : fusesIn (writeCarried u) = fusesIn u := fusesIn_of_kept fun _ => kept_writeCarried _
  unfold castBefore
  split
  · rfl
  · split
    · exact fusesIn_abandon _ _
    · simp only [fusesIn_ite, fusesIn_abandon, hwrite, ite_self]

/-- The flip looks its envelope up with the keys that served when it was checked, and leaves the fuses. -/
theorem fusesIn_castFlip (s : State) : fusesIn (castFlip s) = fusesIn s := by
  refine fusesIn_of_kept ?_
  intros
  unfold castFlip
  dsimp only
  split <;> simp only [kept_mk, true_or, or_true, and_self, listed, kept_put, kept_putFlag, kept_moveJobs, kept_foldl,
    kept_applyChan, kept_applyAdmin, kept_checkCoefs, kept_showEnvelope, kept_showStructural, kept_stopChan,
    kept_stopPort, implies_true]

theorem fusesIn_castFinish (s : State) : fusesIn (castFinish s) = fusesIn s := by
  refine (fusesIn_castlingEntry _ _ _).trans (fusesIn_of_kept ?_)
  intros
  simp only [kept_bump, kept_castIdle, kept_programPrefer, kept_mk, true_or, or_true, and_self, listed]

theorem fusesIn_castAfter (s : State) : fusesIn (castAfter s) = fusesIn s := by
  have hload (u : State) : fusesIn (castLoad u) = fusesIn u := fusesIn_of_kept fun _ => kept_castLoad _
  have hprepare (u : State) : fusesIn (castPrepare u) = fusesIn u := fusesIn_of_kept fun _ => kept_castPrepare _
  unfold castAfter
  split <;> simp only [fusesIn_ite, hload, hprepare, fusesIn_castFlip, fusesIn_castFinish, ite_self]

theorem fusesIn_castlingTimeout (s : State) : fusesIn (castlingTimeout s) = fusesIn s := by
  unfold castlingTimeout
  simp only [fusesIn_ite, fusesIn_abandon]
  split
  · exact ite_self _
  · rfl

/-! Life-cycle changes. -/

theorem fusesIn_beginReset (s : State) (cause : Nat) : fusesIn (beginReset s cause) = fusesIn s :=
  fusesIn_of_kept fun _ => kept_beginReset _ _

theorem fusesIn_lcResult (s : State) (r : Nat) : fusesIn (lcResult s r) = fusesIn s :=
  fusesIn_of_kept fun _ => kept_lcResult _ _

theorem aloft_of_boot {s t : State} (h : t.boot = s.boot) : aloft t = aloft s := by unfold aloft; rw [h]

theorem aloft_beginReset (s : State) (cause : Nat) : aloft (beginReset s cause) = false :=
  beq_eq_false_iff_ne.2 (beginReset_phase s cause)

/-- A change programs the fuse of the life cycle, and no other. -/
theorem fusesIn_lcChange (s : State) (m : Master) (goal : Nat) :
    fusesIn (lcChange s m goal) = { fusesIn s with lc := goal } := by
  have happend (u : State) (type : Nat) (body : List Byte) : fusesIn (sheetAppend u type body) = fusesIn u :=
    fusesIn_of_kept fun _ => kept_sheetAppend _ _ _
  have herase (u : State) : fusesIn (wipeSecure (lcErase u goal)) = fusesIn u :=
    fusesIn_of_kept (by intros; simp only [kept_wipeSecure, kept_lcErase])
  have hprogram (u : State) : fusesIn { u with otp.lc := goal } = { fusesIn u with lc := goal } := rfl
  unfold lcChange
  dsimp only
  rw [fusesIn_beginReset, herase, hprogram, happend]
  rfl

/-- The table of transitions makes listed ones only (R263). -/
theorem lcAllowed_of_lcStep {s : State} {goal : Nat} (h : lcStep s goal = some true) :
    lcAllowed s.otp.lc goal = true := by
  unfold lcStep lifeCycle at h
  unfold lcAllowed
  split at h
  · cases h
  · split at h <;> simp_all

theorem lcAct_movesOnce {s : State} {goal : Nat} (h : lcAllowed s.otp.lc goal = true) (m : Master) :
    FusesMoveOnce s (lcAct s m goal) := by
  unfold lcAct
  split
  · exact .inl (fusesIn_lcResult _ _)
  · split
    · exact .inl ((fusesIn_lcResult _ _).trans (fusesIn_of_kept fun _ => kept_journal _ _ _))
    · exact .inr ⟨.of_program (fusesIn_lcChange s m goal) h, aloft_beginReset _ _⟩

/-- What a request that may be made comes to. -/
def lcTaken (s : State) (m : Master) (goal : Nat) : State :=
  match lcStep s goal with
  | none => s
  | some false => lcResult s 2
  | some true =>
    if pairAway s then { put s Reg.lcStatusLcBusy 1 with boot.lcPend := some (goal, m) } else lcAct s m goal

theorem lcReqWrite_cases (s : State) (m : Master) (w : Nat) :
    lcReqWrite s m w = s ∨ lcReqWrite s m w = lcTaken s m (w % 8) := ite_eq_or_eq _ _ _

theorem lcTaken_movesOnce (s : State) (m : Master) (goal : Nat) : FusesMoveOnce s (lcTaken s m goal) := by
  unfold lcTaken
  split
  · exact .inl rfl
  · exact .inl (fusesIn_lcResult _ _)
  · split
    · exact .inl rfl
    · exact lcAct_movesOnce (lcAllowed_of_lcStep ‹_›) m

theorem lcReqWrite_movesOnce (s : State) (m : Master) (w : Nat) : FusesMoveOnce s (lcReqWrite s m w) := by
  rcases lcReqWrite_cases s m w with h | h
  · exact .inl (congrArg fusesIn h)
  · rw [h]
    exact lcTaken_movesOnce s m _

/-- A request that has waited is judged anew when it is taken up. -/
theorem lcResume_forward (s : State) : FusesForward s (lcResume s) := by
  unfold lcResume
  split
  · split
    · exact .of_same rfl
    · dsimp only
      split
      · exact (lcAct_movesOnce (s := { put s Reg.lcStatusLcBusy 0 with boot.lcPend := none })
          (lcAllowed_of_lcStep (s := s) ‹_›) _).forward.congr rfl rfl
      · exact .of_same (fusesIn_lcResult _ _)
  · exact .of_same rfl

/-! A boundary. -/

theorem fusesIn_alignedBefore (s : State) : fusesIn (alignedBefore s) = fusesIn s := by
  have hcommit (u : State) : fusesIn (refreshFaultN (commitNow u)) = fusesIn u :=
    fusesIn_of_kept (by intros; simp only [kept_refreshFaultN, kept_commitNow])
  have hrelease (u : State) (n : Nat) : fusesIn (releaseDue u n) = fusesIn u :=
    fusesIn_of_kept fun _ => kept_releaseDue _ _
  have hrevoke (u : State) (n : Nat) : fusesIn (cutRevoked (revokeDue u n)) = fusesIn u :=
    fusesIn_of_kept (by intros; simp only [kept_cutRevoked, kept_revokeDue])
  simp only [alignedBefore, fusesIn_castAfter, fusesIn_ite, hrelease, hcommit, fusesIn_castBefore, hrevoke, ite_self]

theorem boundaryWork_forward (s : State) : FusesForward s (boundaryWork s) := by
  have hcut : fusesIn (nextTempo (tempoEnd s)) = fusesIn s :=
    fusesIn_of_kept (by intros; simp only [tempoEnd, kept_nextTempo, kept_deferWaiting, kept_captures])
  have hafter (u : State) : fusesIn (everyTempo (sleepAgreement u)) = fusesIn u :=
    fusesIn_of_kept (by intros; simp only [kept_everyTempo, kept_sleepAgreement])
  rw [boundaryWork, tempoAligned_eq]
  exact (lcResume_forward _).congr ((fusesIn_alignedBefore _).trans hcut).symm (hafter _)

theorem tempoBoundary_forward (s : State) : FusesForward s (tempoBoundary s) := by
  have hboundary : FusesForward s (boundary s) := by
    cases hrecover : (boundaryWork s).img.recoverDue with
    | true =>
      rw [boundary_recovers hrecover]
      exact (boundaryWork_forward s).congr rfl ((fusesIn_beginReset _ _).trans rfl)
    | false =>
      rw [boundary_forwards hrecover]
      exact boundaryWork_forward s
  unfold tempoBoundary
  split
  · split
    · exact hboundary
    · exact .of_same rfl
  · split
    · exact .of_same (fusesIn_of_kept fun _ => kept_firstBoundary _)
    · exact .of_same rfl
  · exact .of_same rfl

/-! Writes to any register. -/

/-- LC_REQ alone is a register whose write moves the fuses. -/
theorem fusesIn_writeEffect {a : Nat} (ha : a ≠ 0xC0008) (s : State) (m : Master) (w : Nat) :
    fusesIn (writeEffect s m a w) = fusesIn s := by
  refine fusesIn_of_kept ?_
  intros
  simp only [writeEffect, vaultWrite, if_neg ha, kept_ite, ite_self, kept_coreRegWrite, kept_pipeWrite, kept_edgeWrite,
    kept_intWrite, kept_globalWrite, kept_sheetRead, kept_sheetRetire, kept_revokeWrite, kept_importWrite, kept_mcjGo,
    kept_attGo, kept_tamperClear, kept_plainWrite]

theorem writeEffect_lcReq (s : State) (m : Master) (w : Nat) : writeEffect s m 0xC0008 w = lcReqWrite s m w := rfl

theorem writeEffect_movesOnce (s : State) (m : Master) (a w : Nat) : FusesMoveOnce s (writeEffect s m a w) := by
  by_cases ha : a = 0xC0008
  · subst ha
    exact lcReqWrite_movesOnce s m w
  · exact .inl (fusesIn_writeEffect ha s m w)

theorem stagedReg_lcReq : stagedReg 0xC0008 = false := by decide +kernel

theorem fusesIn_stagedWrite {a : Nat} (ha : stagedReg a = true) (s : State) (m : Master) (w : Nat) :
    fusesIn (stagedWrite s m a w) = fusesIn s := by
  have hne : a ≠ 0xC0008 := by
    rintro rfl
    exact absurd ha (by rw [stagedReg_lcReq]; decide)
  have hanswer (u : State) : fusesIn (answer u m .done) = fusesIn u := fusesIn_of_kept fun _ => kept_answer _ _ _
  have hcmt (u : State) : fusesIn (cmtWrite u m a w) = fusesIn u := fusesIn_of_kept fun _ => kept_cmtWrite _ _ _ _
  unfold stagedWrite
  split
  · refine fusesIn_of_kept ?_
    intros
    simp only [kept_ite, ite_self, kept_answer, kept_stagePush, kept_stageClaim, kept_stageRelease, kept_stageDiscard,
      kept_onBit, implies_true]
  · split
    · refine fusesIn_of_kept ?_
      intros
      simp only [kept_ite, ite_self, kept_answer, kept_commitReq, kept_commitCancel, kept_onBit, implies_true]
    · split
      · refine fusesIn_of_kept ?_
        intros
        simp only [kept_stageAccess, kept_takeOwnership, kept_plainWrite, implies_true]
      · simp only [fusesIn_ite, hcmt, hanswer, fusesIn_writeEffect hne, ite_self]

/-- A write that the control space does not answer leaves the fuses, and the device as far from forwarding as it is. -/
theorem registerWrite_unanswered {s : State} (h : aloft s = false) (m : Master) (a size w : Nat) :
    fusesIn (registerWrite s m a size w) = fusesIn s ∧ aloft (registerWrite s m a size w) = false := by
  have hreport : aloft (reportWrite s m a 1) = false := by
    refine (aloft_of_boot ?_).trans h
    exact (changesOnly_of_kept (@kept_reportWrite (allBut [.boot]) (has_of rfl) (has_of rfl) (has_of rfl) (has_of rfl)
      (has_of rfl) (has_of rfl) s m a 1)).boot_eq (by decide)
  have hunanswered : aloft (writeUnanswered s m a) = false := by
    refine (aloft_of_boot ?_).trans h
    exact (changesOnly_of_kept (@kept_writeUnanswered (allBut [.boot]) (has_of rfl) (has_of rfl) (has_of rfl)
      s m a)).boot_eq (by decide)
  have hreset : aloft (answer (resetWrite s m w) m .done) = false := by
    refine (aloft_of_boot (answer_boot _ _ _)).trans ?_
    unfold resetWrite
    split
    · exact aloft_beginReset _ _
    · exact h
  have hperformed : fusesIn (writePerformed s m a size w) = fusesIn s ∧ aloft (writePerformed s m a size w) = false := by
    unfold writePerformed
    simp only [writesAnswered, h, Bool.not_false, if_true]
    split
    · exact ⟨fusesIn_of_kept fun _ => kept_reportWrite _ _ _ _, hreport⟩
    · split
      · exact ⟨fusesIn_of_kept (by intros; simp only [kept_answer, kept_resetWrite]), hreset⟩
      · exact ⟨fusesIn_of_kept fun _ => kept_writeUnanswered _ _ _, hunanswered⟩
  unfold registerWrite
  split
  · exact hperformed
  · exact ⟨rfl, h⟩

theorem writePerformed_movesOnce {s : State} (h : aloft s = true) (m : Master) (a size w : Nat) :
    FusesMoveOnce s (writePerformed s m a size w) := by
  unfold writePerformed
  simp only [recoverySize_of_aloft h, resetEarly_of_aloft h, writesAnswered, h, Bool.not_true, Bool.false_eq_true,
    and_false, if_false]
  split
  · exact .inl (fusesIn_of_kept fun _ => kept_refuseWrite _ _ _ _)
  · split
    · exact .inl (fusesIn_of_kept fun _ => kept_answer _ _ _)
    · split
      · exact .inl (fusesIn_stagedWrite ‹_› s m w)
      · exact (writeEffect_movesOnce s m a w).congr rfl (fusesIn_of_kept fun _ => kept_answer _ _ _)
          (aloft_of_boot (answer_boot _ _ _))

theorem registerWrite_movesOnce (s : State) (m : Master) (a size w : Nat) :
    FusesMoveOnce s (registerWrite s m a size w) := by
  cases h : aloft s with
  | false => exact .inl (registerWrite_unanswered h m a size w).1
  | true =>
    unfold registerWrite
    split
    · exact (writePerformed_movesOnce h m a size w).congr rfl rfl rfl
    · exact .inl rfl

theorem spiWords_unanswered {s : State} (h : aloft s = false) (a : Nat) (ws : List Word) :
    fusesIn (spiWords s a ws) = fusesIn s ∧ aloft (spiWords s a ws) = false := by
  induction ws generalizing s a with
  | nil => exact ⟨rfl, h⟩
  | cons w ws ih =>
    obtain ⟨hfuses, hdown⟩ := registerWrite_unanswered h .spi a 4 w.toNat
    obtain ⟨hrest, hend⟩ := ih hdown (a + 4)
    exact ⟨hrest.trans hfuses, hend⟩

/-- The change that one word makes is the last of its transaction: it resets the device. -/
theorem spiWords_movesOnce (s : State) (a : Nat) (ws : List Word) : FusesMoveOnce s (spiWords s a ws) := by
  induction ws generalizing s a with
  | nil => exact .inl rfl
  | cons w ws ih =>
    rcases registerWrite_movesOnce s .spi a 4 w.toNat with hsame | ⟨hforward, hdown⟩
    · exact (ih _ (a + 4)).congr hsame.symm rfl rfl
    · obtain ⟨hrest, hend⟩ := spiWords_unanswered hdown (a + 4) ws
      exact .inr ⟨hforward.congr rfl hrest, hend⟩

theorem spiWrite_movesOnce (s : State) (a : Nat) (ws : List Word) : FusesMoveOnce s (spiWrite s a ws) := by
  unfold spiWrite
  split
  · exact .inl rfl
  · split
    · exact .inl (fusesIn_of_kept fun _ => kept_spiRefuse _ _ _ _)
    · exact spiWords_movesOnce s a ws

theorem spiAbort_forward (s : State) (o : Option SpiWriteOp) (whole : Nat) : FusesForward s (spiAbort s o whole) := by
  have hbump (u : State) : fusesIn (bump u Reg.brSpiAborts) = fusesIn u := rfl
  unfold spiAbort
  split
  · exact .of_same rfl
  · cases o with
    | none => exact .of_same rfl
    | some o =>
      dsimp only
      split
      · exact .of_same rfl
      · split
        · exact .of_same ((hbump _).trans (fusesIn_of_kept fun _ => kept_hWrite _ _ _ _ _))
        · exact (spiWrite_movesOnce s _ _).forward.congr rfl (hbump _)

theorem dbgRequest_write_forward (s : State) (a w : Nat) :
    FusesForward s (dbgRequest s fun t => registerWrite t .dbg a 4 w) := by
  unfold dbgRequest
  split
  · exact (registerWrite_movesOnce _ _ _ _ _).forward.congr (fusesIn_of_kept fun _ => (kept_tapSelect _ _).symm) rfl
  · exact .of_same rfl

/-! Envelope keys. -/

/-- VK_REVOKE adds a bit to the revoked ones. -/
theorem vkRevoke_forward (s : State) (m : Master) (k : Nat) : FusesForward s (vkRevoke s m k) := by
  unfold vkRevoke
  dsimp only
  split
  · refine FusesForward.congr (s := s) (t := { s with otp.vkRevoked := s.otp.vkRevoked ||| 2 ^ k }) ⟨?_, fun i hi => ?_⟩
      rfl (fusesIn_of_kept fun _ => kept_journal _ _ _)
    · exact lcAllowed_refl _
    · simp only [Nat.testBit_or, hi, Bool.true_or]
  · exact .of_same rfl

/-! Every step. -/

theorem accessWrite_lcReq_forward (s : State) (m : Master) (w : Nat) :
    FusesForward s (accessWrite s m 0xC0008 fun t => lcReqWrite t m w) := by
  unfold accessWrite performWrite
  split
  · split
    · exact .of_same (fusesIn_of_kept (by intros; simp only [kept_noteGrant, kept_writeUnanswered]))
    · split
      · exact .of_same (fusesIn_of_kept (by intros; simp only [kept_noteGrant, kept_refuseWrite]))
      · exact (lcReqWrite_movesOnce s m w).forward.congr rfl
          (fusesIn_of_kept (by intros; simp only [kept_noteGrant, kept_answer]))
  · exact .of_same rfl

theorem exec_fusesForward (c : Instr) {s t : State} (h : exec c s = .next t) : FusesForward s t := by
  by_cases hlisted : (partsOf c).contains Part.fuses = true
  · cases c
    case tempoBoundary =>
      obtain rfl := Host.Outcome.next.inj h
      exact tempoBoundary_forward s
    case lcReq m w =>
      obtain rfl := Host.Outcome.next.inj h
      exact accessWrite_lcReq_forward s m w.toNat
    case vkRevoke m k =>
      obtain rfl := Host.Outcome.next.inj h
      exact vkRevoke_forward s m k
    case dbgWrite a w =>
      obtain rfl := Host.Outcome.next.inj h
      exact dbgRequest_write_forward s a w.toNat
    case registerWrite m a size w =>
      obtain rfl := Host.Outcome.next.inj h
      split
      · exact (registerWrite_movesOnce _ _ _ _ _).forward
      · exact .of_same rfl
    case spiWrite a ws =>
      obtain rfl := Host.Outcome.next.inj h
      exact (spiWrite_movesOnce s a ws).forward
    case spiAbort o whole =>
      obtain rfl := Host.Outcome.next.inj h
      exact spiAbort_forward s o whole
    case castlingTimeout =>
      obtain rfl := Host.Outcome.next.inj h
      exact .of_same (fusesIn_castlingTimeout s)
    all_goals exact (Bool.false_ne_true hlisted).elim
  · exact .of_same ((changesOnly_exec c h).fuses_eq fun hmem => hlisted (List.contains_iff_mem.2 hmem))

theorem step_fusesForward {s t : State} (h : step s = .next t) : FusesForward s t := by
  cases hq : s.pending with
  | nil =>
    rw [step_idle hq] at h
    obtain rfl := Host.Outcome.next.inj h
    exact .of_same ((changes_tick s).fuses_eq (by decide))
  | cons c rest =>
    rw [step_busy hq] at h
    exact (exec_fusesForward c h).congr rfl rfl

/-- Settles O5: a life-cycle change makes one listed transition and resets the device, and nothing else programs that
fuse. -/
theorem lifeCycleMovesForward : Obligations.LifeCycleMovesForward := by
  intro s t h
  exact (step_fusesForward h).1

/-- Settles O6: VK_REVOKE alone programs these fuses, and it sets bits. -/
theorem revokedEnvelopeKeysStayRevoked : Obligations.RevokedEnvelopeKeysStayRevoked := by
  intro s t i h hi
  exact (step_fusesForward h).2 i hi

end Sys2Proof.Machine
end

section
/-!
A life-cycle change keeps no key record where firmware holds it (R263, R410). The reset that ends a change leaves of the vault
what flash holds, the copies of the key record (R256): the generations that firmware worked with are gone until the cold boot
reads them back, and the statement asks for them in the state of the reset itself.
-/
namespace Sys2Proof.Machine

/-! A request taken up. -/

theorem lcReqWrite_taken {s : State} {m : Master} {w : Nat} (hmay : m = .sp ∨ m = .host ∨ m = .spi)
    (hgo : bitAt w 3 = true) (hfree : flag s Reg.lcStatusLcBusy = false) : lcReqWrite s m w = lcTaken s m (w % 8) := by
  rcases hmay with rfl | rfl | rfl <;> exact if_neg (by simp [hgo, hfree])

theorem lcTaken_acts {s : State} {goal : Nat} (hstep : lcStep s goal = some true) (hpair : pairAway s = false)
    (m : Master) : lcTaken s m goal = lcAct s m goal := by
  simp only [lcTaken, hstep, hpair, Bool.false_eq_true, if_false]

theorem lcAct_changes {s : State} {goal : Nat} (hwritable : sheetWritable s = true) (hgoal : goal ≠ 3) (m : Master) :
    lcAct s m goal = lcChange s m goal := by
  simp [lcAct, hwritable, hgoal]

/-! The reset that ends it. -/

/-- A device reset leaves no generations but those of the copies in flash. -/
theorem deviceReset_gen (s : State) (cause : Nat) : (deviceReset s cause).vault.gen = [] := by
  have hput (l : List Fld) (u : State) : (l.foldl (fun st f => put st f (get s f)) u).vault = u.vault := by
    induction l generalizing u with
    | nil => rfl
    | cons f l ih => exact ih _
  unfold deviceReset
  dsimp only
  rw [hput]
  rfl

theorem lcChange_gen {s : State} (haloft : aloft s = true) (m : Master) (goal : Nat) :
    (lcChange s m goal).vault.gen = [] := by
  have happend (u : State) (type : Nat) (body : List Byte) : (sheetAppend u type body).boot = u.boot := by
    refine (changesOnly_of_kept (@kept_sheetAppend (allBut [.boot]) ?_ ?_ ?_ ?_ ?_ ?_ ?_ ?_ ?_ ?_ ?_ ?_ u type
      body)).boot_eq (by decide) <;> exact has_of rfl
  have herase (u : State) : (wipeSecure (lcErase u goal)).boot = u.boot :=
    (changesOnly_of_kept (M := [.cpu, .banks, .vault, .edge]) (by
      rw [@kept_wipeSecure _ (has_of rfl) (has_of rfl), @kept_lcErase _ (has_of rfl) (has_of rfl)])).boot_eq (by decide)
  unfold lcChange
  dsimp only
  rw [beginReset_of_aloft]
  · exact deviceReset_gen _ _
  · rw [herase]
    exact (congrArg BootSt.phase (happend _ _ _)).trans (phase_of_aloft haloft)

/-! The state. -/

/-- A device aloft in PROVISIONED that holds the key of the scoresheet, with slot 8 at generation 1. -/
def provisioned : State :=
  { State.reset with
    boot.phase := .aloft, otp.lc := 1, vault.slots := [(3, ⟨1, [], [], 0, 0, 0, true, 0, false, 0, 0, 0⟩)]
    vault.gen := [(8, 1)] }

theorem accepts_provisioned : accepts provisioned .sp 0xC0008 = true := by decide +kernel

/-- GO with FIELD as its target. -/
def toField : Word := 0xA

/-- Refutes O50: after a change to FIELD the generations need not be those of before. The reset has emptied the record that
firmware held. -/
theorem not_lifeCycleChangesAreJudged : ¬ Obligations.LifeCycleChangesAreJudged := by
  unfold Obligations.LifeCycleChangesAreJudged
  intro h
  obtain ⟨-, -, -, hmade, -⟩ := h
  obtain ⟨t, ht, -, -, -, hgen, -⟩ := hmade provisioned .sp toField accepts_provisioned (.inl rfl) rfl rfl rfl rfl rfl
    (.inr rfl)
  have hwrite : lcReqWrite provisioned .sp toField.toNat = lcChange provisioned .sp 2 := by
    rw [lcReqWrite_taken (.inl rfl) rfl rfl]
    exact (lcTaken_acts rfl rfl _).trans (lcAct_changes rfl (by decide) _)
  have hexec := accessWrite_accepted provisioned .sp 0xC0008 (fun u => lcReqWrite u .sp toField.toNat) accepts_provisioned
  have hnone : t.vault.gen = [] := by
    rw [← Host.Outcome.next.inj ht, hexec, hwrite, noteGrant_vault, answer_vault]
    exact lcChange_gen rfl _ _
  rw [hnone] at hgen
  exact absurd hgen (by decide)

end Sys2Proof.Machine
end

section
/-!
A bulk MAC job that meets a bad word (R261, R314). The uncorrectable error is a fault like any other: where a record of it is
held already, the record's reaction runs again (R363), with the profile the record names. The statement asks for no bound of
that number, and CONT_CAUSE of a profile far outside the eight there are lies on the tag registers of a bank.
-/
namespace Sys2Proof.Machine

/-! What the end of a job leaves. -/

/-- With no job that waits for a core, none is taken up. -/
theorem mcjServe_idle {s : State} (h : mcjNext s = none) : mcjServe s = s := by
  have hturn (l : List Nat) :
      l.foldl (fun st _ => match mcjNext st with | some e => mcjRun st e.1 | none => st) s = s := by
    induction l with
    | nil => rfl
    | cons _ l ih => rw [List.foldl_cons, h, ih]
  exact hturn (List.range 6)

section
variable {f : Fld} (hsuspended : f.key ≠ Reg.macStatusSuspended.key)
  (hstate : ∀ b, f.key ≠ (Reg.mcjStatusState b).key)
include hsuspended hstate

theorem get_mcjServe_ne (s : State) : get (mcjServe s) f = get s f := by
  have hrun (u : State) (b : Nat) : get (mcjRun u b) f = get u f := by
    unfold mcjRun
    dsimp only
    split
    · rw [get_put_ne _ _ _ _ (hstate b), get_put_ne _ _ _ _ hsuspended]
    · exact get_put_ne _ _ _ _ (hstate b)
  unfold mcjServe forIdx
  generalize List.range 6 = l
  induction l generalizing s with
  | nil => rfl
  | cons _ l ih =>
    rw [List.foldl_cons, ih]
    dsimp only
    split
    · exact hrun _ _
    · rfl

/-- A job whose source is bad ends with its state and its result, and its tag as it stands. -/
theorem get_mcjBroken_ne (s : State) {b : Nat} (hresult : f.key ≠ (Reg.mcjStatusResult b).key)
    (hraise : ((raiseFields (if b = 5 then 30 else 30 + b)).all fun g => f.key != g.key) = true) :
    get (mcjBroken s b) f = get s f := by
  unfold mcjBroken mcjEnd
  dsimp only
  rw [get_mcjServe_ne hsuspended hstate, get_raiseSource_ne _ _ _ hraise, get_put_ne _ _ _ _ hresult,
    get_put_ne _ _ _ _ (hstate b)]
  rfl

end

/-- A job with source still to read meets a word that ECC cannot correct. -/
theorem mcjDone_bad {s : State} {m : Master} {b w : Nat} {j : McjJob} (hbank : mcjBank m = some b)
    (hjob : s.vault.mcj.find b = some j) (hnext : mcjNext s = none) (hruns : mcjState s b = 2)
    (hready : slotReady s j.slot = true) (hgen : genOf s j.slot = j.gen) (hleft : j.len - j.read.length ≠ 0)
    (hclean : hitsMark s .h (j.src + j.read.length) (j.len - j.read.length) = none) :
    mcjDone s m (.uncorrectable w) = mcjBroken (eccError s .h (badWord (j.src + j.read.length) w)) b := by
  simp [mcjDone, mcjRead, hbank, hjob, mcjServe_idle hnext, hruns, hready, hgen, hleft, hclean]

/-! The state. -/

/-- The profile whose CONT_CAUSE is at the address of the first tag word of the first general core's bank. -/
def strayProfile : Nat := ((Reg.mcjTag 1 0).bank * 2 ^ 24 + (Reg.mcjTag 1 0).addr - (Reg.contCauseCause 0).addr) / 4

theorem key_strayProfile : (Reg.contCauseCause strayProfile).key = (Reg.mcjTag 1 0).key := by decide

/-- The ECC fault of Bank H, held at severity CONTAIN with that profile. -/
def eccRecord : FaultRec := ⟨0x0012, 2, faultUnit 4 2, 0, 0, 0, 0, strayProfile⟩

/-- A CMAC of the first general core over the first 16 bytes of Bank H, none of them read. -/
def unreadJob : McjJob := ⟨1, 8, 0, 0, 16, [], 0⟩

/-- That job running, under a key that is ready, with that record held. -/
def strayMac : State :=
  { State.reset with
    regs := [((Reg.mcjStatusState 1).key, 2)], fault.recs := [eccRecord], vault.mcj := [(1, unreadJob)]
    vault.slots := [(8, ⟨1, [], [], 2, 1, 0, true, 2, false, 31, 1, 0⟩)] }

/-- The fault recorded again leaves its cause in the tag. -/
theorem mcjTag_of_strayMac : get (eccError strayMac .h 0) (Reg.mcjTag 1 0) = 2 := by
  have hlost : (Reg.contCauseCause strayProfile).key ≠ Reg.sbStatsLost.key := key_strayProfile ▸ by decide
  rw [eccError, recordFault_held (r := eccRecord) rfl, get_refreshFaultN_ne _ _ (by decide),
    ← get_eq_of_key key_strayProfile rfl]
  exact get_faultReact_contain (by decide) (profileActive_none rfl _) _ _ hlost

/-- Refutes O30: a job that ends at a word ECC cannot correct need not leave the tag. A held record of that fault with
severity CONTAIN and a stray profile has the profile's cause written over it. -/
theorem not_macJobsAndAttestation : ¬ Obligations.MacJobsAndAttestation := by
  unfold Obligations.MacJobsAndAttestation
  intro h
  obtain ⟨-, -, -, -, -, -, -, hbad, -⟩ := h
  obtain ⟨t, ht, -, -, htag⟩ := hbad strayMac (.gc 0) 1 0 unreadJob rfl rfl (by decide) rfl rfl rfl (by decide) rfl
  have hdone : mcjDone strayMac (.gc 0) (.uncorrectable 0) = mcjBroken (eccError strayMac .h 0) 1 :=
    mcjDone_bad (w := 0) (j := unreadJob) rfl rfl rfl rfl rfl rfl (by decide) rfl
  have hstate (b : Nat) : (Reg.mcjTag 1 0).key ≠ (Reg.mcjStatusState b).key := by
    simp only [Fld.key, Reg.mcjTag, Reg.mcjStatusState]
    omega
  have hafter : get t (Reg.mcjTag 1 0) = 2 := by
    rw [← Host.Outcome.next.inj ht]
    refine (congrArg (fun u => get u (Reg.mcjTag 1 0)) hdone).trans ?_
    exact (get_mcjBroken_ne (by decide) hstate _ (by decide) (by decide)).trans mcjTag_of_strayMac
  rw [htag 0 (by decide)] at hafter
  exact absurd hafter (by decide)

end Sys2Proof.Machine
end

section
/-!
The scoresheet's reader, and the retiring of its oldest block (R266, R270).
-/
namespace Sys2Proof.Machine

/-! The reader. -/

/-- A read asked for. -/
def readStarted (s : State) : State := { put s Reg.sbRdDone 0 with sheet.reading := true }

theorem sheetRead_starts {s : State} {w : Nat} (h : bitAt w 0 = true) : sheetRead s w = readStarted s := if_pos h

/-- A read at its end, before its status is shown. -/
def readEnded (s : State) : State := put { s with sheet.reading := false } Reg.sbRdDone 1

theorem sheetReadDone_found {s : State} {e : List Byte} (hread : s.sheet.reading = true)
    (hfind : sheetFind s (get s Reg.sbRdSeq) = some e) : sheetReadDone s =
      put (putWords (readEnded s) Reg.sbRdData 32 e) Reg.sbRdStatus (if sealOk s e then 0 else 3) := by
  simp only [sheetReadDone, hread, hfind, Bool.not_true, Bool.false_eq_true, if_false]
  rfl

theorem sheetReadDone_absent {s : State} (hread : s.sheet.reading = true)
    (hfind : sheetFind s (get s Reg.sbRdSeq) = none) : sheetReadDone s =
      put (readEnded s) Reg.sbRdStatus (if get s Reg.sbRdSeq < s.sheet.nextSeq then 1 else 2) := by
  simp only [sheetReadDone, hread, hfind, Bool.not_true, Bool.false_eq_true, if_false]
  rfl

theorem sbRdData_apart (i j : Nat) (h : (Reg.sbRdData i).key = (Reg.sbRdData j).key) : i = j := by
  simp only [Fld.key, Reg.sbRdData] at h
  omega

/-- The data words lie above the reader's control register. -/
theorem sbRdData_above {f : Fld} (hf : f.key < 0xE0080 * 32) (i : Nat) : f.key ≠ (Reg.sbRdData i).key := by
  simp only [Fld.key, Reg.sbRdData]
  simp only [Fld.key] at hf
  omega

def sheetReadFlds : List Fld := Reg.sbRdDone :: Reg.sbRdStatus :: (List.range 32).map Reg.sbRdData

theorem sbRdData_mem {i : Nat} (hi : i < 32) : Reg.sbRdData i ∈ sheetReadFlds :=
  List.mem_cons_of_mem _ (List.mem_cons_of_mem _ (List.mem_map_of_mem (List.mem_range.2 hi)))

section
variable (s : State) (e : List Byte)

theorem get_entryShown_done (v : Nat) :
    get (put (putWords (readEnded s) Reg.sbRdData 32 e) Reg.sbRdStatus v) Reg.sbRdDone = 1 := by
  rw [get_put_ne _ _ _ _ (by decide), get_putWords_ne fun i _ => sbRdData_above (by decide) i]
  exact get_put_same _ _ _

theorem get_entryShown_data (v : Nat) {i : Nat} (hi : i < 32) :
    get (put (putWords (readEnded s) Reg.sbRdData 32 e) Reg.sbRdStatus v) (Reg.sbRdData i) = leAt e (4 * i) 4 := by
  rw [get_put_ne _ _ _ _ (sbRdData_above (by decide) i).symm, get_putWords_same sbRdData_apart _ _ hi]
  exact Nat.mod_eq_of_lt (leAt_lt _ _ _)

/-- A status of the reader fits its three bits. -/
theorem get_entryShown_status {v : Nat} (hv : v < 8) :
    get (put (putWords (readEnded s) Reg.sbRdData 32 e) Reg.sbRdStatus v) Reg.sbRdStatus = v := by
  rw [get_put_same]
  exact Nat.mod_eq_of_lt hv

theorem entryShown_sheet (v : Nat) :
    (put (putWords (readEnded s) Reg.sbRdData 32 e) Reg.sbRdStatus v).sheet = { s.sheet with reading := false } := by
  rw [put_sheet, putWords_frame]
  rfl

theorem entryShown_frame (v : Nat) :
    put (putWords (readEnded s) Reg.sbRdData 32 e) Reg.sbRdStatus v =
      { s with
        regs := (put (putWords (readEnded s) Reg.sbRdData 32 e) Reg.sbRdStatus v).regs
        sheet := (put (putWords (readEnded s) Reg.sbRdData 32 e) Reg.sbRdStatus v).sheet } := by
  rw [putWords_frame]
  rfl

theorem entryShown_regsSame (v : Nat) :
    regsSame s (put (putWords (readEnded s) Reg.sbRdData 32 e) Reg.sbRdStatus v) sheetReadFlds :=
  regsSame.put (regsSame.putWords (((regsSame.refl s _).congr rfl).put List.mem_cons_self 1)
    (fun _ hi => sbRdData_mem hi) e) (List.mem_cons_of_mem _ List.mem_cons_self) v

end

/-! The retiring of a block. -/

/-- RETIRE_HASH as its registers hold it. -/
def retireHash (s : State) : List Byte := (List.range 4).flatMap fun i => leBytes 4 (get s (Reg.sbRetireHash i))

/-- The sheet without its oldest block. -/
def oldestGone (s : State) : State :=
  { s with
    sheet.entries := SMap.keep s.sheet.entries fun k _ => decide (s.sheet.oldest / 512 * 512 + 512 ≤ k)
    sheet.oldest := s.sheet.oldest / 512 * 512 + 512 }

/-- A block retired, before the retirement is journaled. -/
def blockRetired (s : State) : State := put (refreshSheet (oldestGone s)) Reg.sbRetireResult 1

section
variable {s : State} {m : Master} {w : Nat} (hmay : m = .sp ∨ m = .host ∨ m = .spi) (hgo : bitAt w 8 = true)
include hmay hgo

theorem sheetRetire_judged : sheetRetire s m w =
    if bitsAt w 0 8 ≠ s.sheet.oldest / 512 % 256 then put s Reg.sbRetireResult 2
    else match oldestLast s with
      | none => put s Reg.sbRetireResult 3
      | some e =>
        if slice (Config.sha256 e) 0 16 ≠ retireHash s then put s Reg.sbRetireResult 4
        else journal (blockRetired s) 0x0070 (leBytes 1 (bitsAt w 0 8) ++ zeros 7 ++ leBytes 8 (firstSeq s) ++
          leBytes 8 (leAt e 0 8) ++ slice (Config.sha256 e) 0 32) := by
  rcases hmay with rfl | rfl | rfl <;> exact if_neg (by simp [hgo])

theorem sheetRetire_other (hblock : bitsAt w 0 8 ≠ s.sheet.oldest / 512 % 256) :
    sheetRetire s m w = put s Reg.sbRetireResult 2 := by
  rw [sheetRetire_judged hmay hgo, if_pos hblock]

theorem sheetRetire_notFull (hblock : bitsAt w 0 8 = s.sheet.oldest / 512 % 256) (hlast : oldestLast s = none) :
    sheetRetire s m w = put s Reg.sbRetireResult 3 := by
  rw [sheetRetire_judged hmay hgo, if_neg (not_not_intro hblock), hlast]

theorem sheetRetire_mismatch {e : List Byte} (hblock : bitsAt w 0 8 = s.sheet.oldest / 512 % 256)
    (hlast : oldestLast s = some e) (hhash : slice (Config.sha256 e) 0 16 ≠ retireHash s) :
    sheetRetire s m w = put s Reg.sbRetireResult 4 := by
  rw [sheetRetire_judged hmay hgo, if_neg (not_not_intro hblock), hlast]
  exact if_pos hhash

theorem sheetRetire_retires {e : List Byte} (hblock : bitsAt w 0 8 = s.sheet.oldest / 512 % 256)
    (hlast : oldestLast s = some e) (hhash : slice (Config.sha256 e) 0 16 = retireHash s) :
    ∃ body, sheetRetire s m w = journal (blockRetired s) 0x0070 body := by
  refine ⟨leBytes 1 (bitsAt w 0 8) ++ zeros 7 ++ leBytes 8 (firstSeq s) ++ leBytes 8 (leAt e 0 8) ++
    slice (Config.sha256 e) 0 32, ?_⟩
  rw [sheetRetire_judged hmay hgo, if_neg (not_not_intro hblock), hlast]
  exact if_neg (not_not_intro hhash)

end

theorem blockRetired_sheet (s : State) : (blockRetired s).sheet = (oldestGone s).sheet := by
  rw [blockRetired, put_sheet, refreshSheet_sheet]

theorem find_oldestGone (s : State) (k : Nat) : (oldestGone s).sheet.entries.find k =
    if s.sheet.oldest / 512 * 512 + 512 ≤ k then s.sheet.entries.find k else none := by
  split
  · exact SMap.find_keep_kept (p := fun k _ => decide (s.sheet.oldest / 512 * 512 + 512 ≤ k))
      (fun _ => decide_eq_true ‹_›) _
  · exact SMap.find_keep_dropped (p := fun k _ => decide (s.sheet.oldest / 512 * 512 + 512 ≤ k))
      (fun _ => decide_eq_false ‹_›) _

/-- The journal of an event leaves the sheet but for its count of events lost. -/
theorem journal_sheet_eq (s : State) (type : Nat) (body : List Byte) :
    (journal s type body).sheet = { s.sheet with lost := (journal s type body).sheet.lost } :=
  (asked_journal s type body).2.2.2.2

/-- An access that shows a refusal's result alone. -/
theorem retire_refused {s : State} {m : Master} {w : Word} {r : Nat} (hacc : accepts s m 0xE0100 = true)
    (hretire : sheetRetire s m w.toNat = put s Reg.sbRetireResult r) (hr : r < 8) :
    ∃ t, exec (.sbRetire m w) s = .next t ∧ get t Reg.sbRetireResult = r ∧ regsSame s t [Reg.sbRetireResult] ∧
      t = { s with regs := t.regs, cpu := t.cpu, io := t.io } := by
  have haccess := accessWrite_accepted s m 0xE0100 (fun u => sheetRetire u m w.toNat) hacc
  rw [hretire] at haccess
  refine ⟨_, congrArg Host.Outcome.next haccess, ?_, regsSame_answered ((regsSame.refl s _).put (by simp) _) _ _ _, ?_⟩
  · rw [get_answered, get_put_same]
    exact Nat.mod_eq_of_lt hr
  · apply State.eq_of_parts <;> simp

/-- Settles O27, clause by clause: a read asked for and its two ends, and every result of a retire. -/
theorem scoresheetReadsAndRetires : Obligations.ScoresheetReadsAndRetires := by
  unfold Obligations.ScoresheetReadsAndRetires
  refine ⟨fun s m w hacc hgo => ?_, fun s e hread hfind => ?_, fun s hread hfind => ?_,
    fun s m w hacc hmay hgo hblock => ?_, fun s m w hacc hmay hgo hblock hlast => ?_,
    fun s m w e hacc hmay hgo hblock hlast => ?_⟩
  case refine_1 =>
    have haccess := accessWrite_accepted s m 0xE0048 (sheetRead · w.toNat) hacc
    rw [sheetRead_starts hgo] at haccess
    have hsame : regsSame s (readStarted s) [Reg.sbRdDone] := 
      ((regsSame.refl s _).put (f := Reg.sbRdDone) List.mem_cons_self 0).congr rfl
    have hdone : get (readStarted s) Reg.sbRdDone = 0 := get_put_same s Reg.sbRdDone 0
    refine ⟨_, congrArg Host.Outcome.next haccess, ?_, ?_, regsSame_answered hsame _ _ _, ?_, ?_⟩
    · rw [noteGrant_sheet, answer_sheet]
      rfl
    · rw [get_answered, hdone]
    · rw [noteGrant_sheet, answer_sheet]
      rfl
    · apply State.eq_of_parts <;> simp [readStarted]
  case refine_2 =>
    have hstatus : (if sealOk s e then 0 else 3) < 8 := by split <;> decide
    exact ⟨_, congrArg Host.Outcome.next (sheetReadDone_found hread hfind), get_entryShown_done _ _ _,
      congrArg SheetSt.reading (entryShown_sheet _ _ _), get_entryShown_status _ _ hstatus,
      fun i hi => get_entryShown_data _ _ _ hi, entryShown_regsSame _ _ _,
      (congrArg SheetSt.entries (entryShown_sheet _ _ _)).trans rfl, entryShown_frame _ _ _⟩
  case refine_3 =>
    refine ⟨_, congrArg Host.Outcome.next (sheetReadDone_absent hread hfind), ?_, rfl, ?_, ?_, rfl⟩
    · rw [get_put_ne _ _ _ _ (by decide)]
      exact get_put_same _ _ _
    · rw [get_put_same]
      split <;> rfl
    · exact (((regsSame.refl s _).congr rfl).put (by simp) 1).put (by simp) _
  case refine_4 => exact retire_refused hacc (sheetRetire_other hmay hgo hblock) (by decide)
  case refine_5 => exact retire_refused hacc (sheetRetire_notFull hmay hgo hblock hlast) (by decide)
  case refine_6 =>
    by_cases hhash : slice (Config.sha256 e) 0 16 = retireHash s
    · obtain ⟨body, hretire⟩ := sheetRetire_retires hmay hgo hblock hlast hhash
      have haccess := accessWrite_accepted s m 0xE0100 (fun u => sheetRetire u m w.toNat) hacc
      rw [hretire] at haccess
      refine ⟨_, congrArg Host.Outcome.next haccess, fun hne => absurd hhash hne, fun _ => ?_⟩
      rw [get_answered, noteGrant_sheet, answer_sheet, journal_sheet_eq, blockRetired_sheet,
        get_journal_ne _ _ _ _ (by decide)]
      exact ⟨get_put_same _ _ _, rfl, rfl, rfl, find_oldestGone s⟩
    · obtain ⟨t, ht, hresult, hsame, hframe⟩ :=
        retire_refused hacc (sheetRetire_mismatch hmay hgo hblock hlast hhash) (by decide)
      exact ⟨t, ht, fun _ => ⟨hresult, hsame, by rw [hframe]⟩, fun heq => absurd heq hhash⟩

end Sys2Proof.Machine
end

section
/-!
The vault's byte strings, draws and slots, and the judgement of revocations and imports (R243, R251, R252).
-/
namespace Sys2Proof.Machine

/-! Byte strings XORed. -/

theorem xorBytes_eq_zipWith : ∀ as bs : List Byte, xorBytes as bs = List.zipWith (· ^^^ ·) as bs
  | [], _ => rfl
  | _ :: _, [] => rfl
  | a :: as, b :: bs => congrArg (List.cons (a ^^^ b)) (xorBytes_eq_zipWith as bs)

@[simp] theorem length_xorBytes (as bs : List Byte) : (xorBytes as bs).length = min as.length bs.length := by
  rw [xorBytes_eq_zipWith, List.length_zipWith]

@[simp] theorem length_slice (bs : List Byte) (o n : Nat) : (slice bs o n).length = n := by
  simp [slice]

theorem getElem_xorBytes {as bs : List Byte} {i : Nat} (h : i < (xorBytes as bs).length)
    (ha : i < as.length) (hb : i < bs.length) : (xorBytes as bs)[i] = as[i] ^^^ bs[i] := by
  simp [xorBytes_eq_zipWith]

theorem getElem_slice {bs : List Byte} {n i : Nat} (h : i < (slice bs 0 n).length) :
    (slice bs 0 n)[i] = (bs[i]?).getD 0 := by
  simp [slice]

/-- What a mask hides it also shows again. -/
theorem xorBytes_twice {as bs : List Byte} (h : as.length ≤ bs.length) : xorBytes (xorBytes as bs) bs = as := by
  refine List.ext_getElem (by simp [h]) fun i hi hi' => ?_
  rw [getElem_xorBytes hi (by simp; omega) (by omega), getElem_xorBytes (by simp; omega) (by omega) (by omega)]
  simp

/-- Two shares under one mask hold what they held without it. -/
theorem xorBytes_masked (as bs mask : List Byte) :
    xorBytes (xorBytes as (slice mask 0 as.length)) (xorBytes bs (slice mask 0 bs.length)) = xorBytes as bs := by
  refine List.ext_getElem (by simp) fun i hi hi' => ?_
  simp only [length_xorBytes] at hi'
  rw [getElem_xorBytes hi (by simp; omega) (by simp; omega), getElem_xorBytes (by simp; omega) (by omega) (by simp; omega),
    getElem_xorBytes (by simp; omega) (by omega) (by simp; omega), getElem_xorBytes (by simp; omega) (by omega) (by omega),
    getElem_slice, getElem_slice]
  rw [BitVec.xor_comm bs[i], BitVec.xor_assoc, ← BitVec.xor_assoc (mask[i]?.getD 0), BitVec.xor_self, BitVec.zero_xor]

/-- A key no longer than what a slot holds is stored whole. -/
theorem take_slice {bs : List Byte} {n : Nat} (h : bs.length ≤ n) : (slice bs 0 n).take bs.length = bs := by
  refine List.ext_getElem (by simp [h]) fun i hi hi' => ?_
  rw [List.getElem_take, getElem_slice, List.getElem?_eq_getElem hi']
  rfl

theorem length_regBytes (s : State) (n : Nat) (f : Nat → Fld) : (regBytes s n f).length = 4 * n := by
  simp [regBytes, leBytes, Nat.mul_comm]

/-! Draws and slots. -/

@[simp] theorem length_drbgNext (s : State) : (drbgNext s).1.length = 32 := length_slice _ _ _

/-- A seeding changes the generator and the count of free draws alone. -/
theorem drbgSeed_frame (s : State) (before : List Byte) :
    ∃ g n, drbgSeed s before = { s with vault := { s.vault with drbg := g }, freeCtr := n } := by
  unfold drbgSeed
  generalize 2 ^ 512 = bound
  exact ⟨_, _, rfl⟩

/-- A draw changes the generator and the count of free draws alone. -/
theorem drbgNext_frame (s : State) :
    ∃ g n, (drbgNext s).2 = { s with vault := { s.vault with drbg := g }, freeCtr := n } := by
  unfold drbgNext
  split_ifs
  · obtain ⟨g, n, h⟩ := drbgSeed_frame s []
    rw [h]
    exact ⟨_, _, rfl⟩
  · obtain ⟨g, n, h⟩ := drbgSeed_frame s (1 :: beBytes 55 s.vault.drbg.v)
    rw [h]
    exact ⟨_, _, rfl⟩
  · exact ⟨_, _, rfl⟩

@[simp] theorem drbgNext_slots (s : State) : (drbgNext s).2.vault.slots = s.vault.slots := by
  obtain ⟨g, n, h⟩ := drbgNext_frame s
  rw [h]

@[simp] theorem drbgNext_gen (s : State) : (drbgNext s).2.vault.gen = s.vault.gen := by
  obtain ⟨g, n, h⟩ := drbgNext_frame s
  rw [h]

theorem slotOf_setSlot (s : State) (i : Nat) (v : VSlot) (j : Nat) :
    slotOf (setSlot s i v) j = if j = i then some v else slotOf s j := by
  split
  · subst j
    exact SMap.find_set_same _ _ _
  · exact SMap.find_set_ne _ _ _ _ ‹_›

theorem slotOf_congr {s t : State} (h : t.vault.slots = s.vault.slots) (i : Nat) : slotOf t i = slotOf s i :=
  congrArg (SMap.find · i) h

theorem genOf_congr {s t : State} (h : t.vault.gen = s.vault.gen) (i : Nat) : genOf t i = genOf s i :=
  congrArg (fun g => (SMap.find g i).getD 0) h

theorem keyOf_of_slot {s : State} {i : Nat} {v : VSlot} (h : slotOf s i = some v) :
    keyOf s i = (xorBytes v.shareA v.shareB).take (if v.len256 then 32 else 16) := by
  rw [keyOf, h]

theorem slotReady_of_slot {s : State} {i : Nat} {v : VSlot} (h : slotOf s i = some v) :
    slotReady s i = (v.state == 1) := by
  rw [slotReady, h]
  rfl

/-! REVOKE. -/

section
variable (s : State) (r : Nat)

@[simp] theorem revokeResult_vault : (revokeResult s r).vault = s.vault := by
  unfold revokeResult
  split <;> simp

theorem get_revokeResult_same (hr : r < 8) : get (revokeResult s r) Reg.revokeStatusResult = r := by
  have hput : get (put s Reg.revokeStatusResult r) Reg.revokeStatusResult = r :=
    (get_put_same _ _ _).trans (Nat.mod_eq_of_lt hr)
  unfold revokeResult
  split
  · exact hput
  · rw [get_raiseSource_ne _ _ _ (by decide), hput]

theorem get_revokeResult_ne {f : Fld} (hf : f.key ≠ Reg.revokeStatusResult.key)
    (hraise : ((raiseFields 20).all fun g => f.key != g.key) = true) : get (revokeResult s r) f = get s f := by
  unfold revokeResult
  split
  · exact get_put_ne _ _ _ _ hf
  · rw [get_raiseSource_ne _ _ _ hraise, get_put_ne _ _ _ _ hf]

end

theorem revokeResult_regsSame {s t : State} {l : List Fld} (h : regsSame s t l) (hl : Reg.revokeStatusResult ∈ l)
    (hraise : ∀ f ∈ raiseFields 20, f ∈ l) (r : Nat) : regsSame s (revokeResult t r) l := by
  unfold revokeResult
  split
  · exact h.put hl r
  · exact (h.put hl r).raise 20 hraise

/-- The registers a REVOKE that is not queued may change. -/
def revokeFields : List Fld := [Reg.revokeStatusResult, Reg.revokeStatusLastSlot] ++ raiseFields 20

/-- A REVOKE that shows its slot and its result, and queues nothing. -/
theorem revoke_shown {s : State} {m : Master} {w : Word} {r : Nat} (hacc : accepts s m 0xC0034 = true)
    (hrevoke : revokeWrite s m w.toNat = revokeResult (put s Reg.revokeStatusLastSlot (bitsAt w.toNat 0 9)) r)
    (hr : r < 8) : ∃ t, exec (.revoke m w) s = .next t ∧ get t Reg.revokeStatusResult = r ∧
      get t Reg.revokeStatusLastSlot = bitsAt w.toNat 0 9 ∧ t.vault = s.vault ∧
      get t Reg.revokeStatusPending = get s Reg.revokeStatusPending ∧ regsSame s t revokeFields := by
  have haccess := accessWrite_accepted s m 0xC0034 (fun u => revokeWrite u m w.toNat) hacc
  rw [hrevoke] at haccess
  have hslot : regsSame s (put s Reg.revokeStatusLastSlot (bitsAt w.toNat 0 9)) revokeFields :=
    (regsSame.refl s _).put (by simp [revokeFields]) _
  refine ⟨_, congrArg Host.Outcome.next haccess, ?_, ?_, ?_, ?_, regsSame_answered
    (revokeResult_regsSame hslot (by simp [revokeFields]) (fun f hf => List.mem_append_right _ hf) r) _ _ _⟩
  · rw [get_answered, get_revokeResult_same _ _ hr]
  · rw [get_answered, get_revokeResult_ne _ _ (by decide) (by decide), get_put_same]
    exact Nat.mod_eq_of_lt (bitsAt_lt _ _ _)
  · rw [noteGrant_vault, answer_vault, revokeResult_vault, put_vault]
  · rw [get_answered, get_revokeResult_ne _ _ (by decide) (by decide), get_put_ne _ _ _ _ (by decide)]

/-- A revocation accepted: its slot shown and the request queued. -/
def revokeQueued (s : State) (m : Master) (i : Nat) : State :=
  put { put s Reg.revokeStatusLastSlot i with vault.revPend := s.vault.revPend ++ [⟨i, conflictCode m, s.time.now⟩] }
    Reg.revokeStatusPending (s.vault.revPend.length + 1)

section
variable {s : State} {m : Master} {w : Nat} (hgo : bitAt w 9 = true)
include hgo

theorem revokeWrite_denied (hdenied : bitsAt w 0 9 < 8 ∨ revokeMay s m (bitsAt w 0 9) = false) :
    revokeWrite s m w = revokeResult (put s Reg.revokeStatusLastSlot (bitsAt w 0 9)) 3 := by
  have hif : bitsAt w 0 9 < 8 ∨ (!revokeMay s m (bitsAt w 0 9)) = true := by simpa using hdenied
  simp only [revokeWrite, hgo, Bool.not_true, Bool.false_eq_true, if_false]
  exact if_pos hif

variable (hslot : 8 ≤ bitsAt w 0 9) (hmay : revokeMay s m (bitsAt w 0 9) = true)
include hslot hmay

/-- What a master that may revoke is answered. -/
theorem revokeWrite_allowed : revokeWrite s m w =
    if slotReady s (bitsAt w 0 9) = false then revokeResult (put s Reg.revokeStatusLastSlot (bitsAt w 0 9)) 4
    else if (s.vault.revPend.any fun r => r.slot == bitsAt w 0 9) = true then
      revokeResult (put s Reg.revokeStatusLastSlot (bitsAt w 0 9)) 1
    else if 8 ≤ s.vault.revPend.length then revokeResult (put s Reg.revokeStatusLastSlot (bitsAt w 0 9)) 5
    else revokeResult (revokeQueued s m (bitsAt w 0 9)) 1 := by
  have hallowed : ¬(bitsAt w 0 9 < 8 ∨ revokeMay s m (bitsAt w 0 9) = false) := by simp [hmay, hslot]
  simp only [revokeWrite, hgo, Bool.not_true, Bool.false_eq_true, if_false, Bool.not_eq_true']
  exact if_neg hallowed

theorem revokeWrite_empty (hready : slotReady s (bitsAt w 0 9) = false) :
    revokeWrite s m w = revokeResult (put s Reg.revokeStatusLastSlot (bitsAt w 0 9)) 4 := by
  rw [revokeWrite_allowed hgo hslot hmay, if_pos hready]

variable (hready : slotReady s (bitsAt w 0 9) = true)
include hready

theorem revokeWrite_merged (hpend : (s.vault.revPend.any fun r => r.slot == bitsAt w 0 9) = true) :
    revokeWrite s m w = revokeResult (put s Reg.revokeStatusLastSlot (bitsAt w 0 9)) 1 := by
  rw [revokeWrite_allowed hgo hslot hmay, if_neg (by simp [hready]), if_pos hpend]

variable (hpend : (s.vault.revPend.any fun r => r.slot == bitsAt w 0 9) = false)
include hpend

theorem revokeWrite_busy (hfull : 8 ≤ s.vault.revPend.length) :
    revokeWrite s m w = revokeResult (put s Reg.revokeStatusLastSlot (bitsAt w 0 9)) 5 := by
  rw [revokeWrite_allowed hgo hslot hmay, if_neg (by simp [hready]), if_neg (by simp [hpend]), if_pos hfull]

theorem revokeWrite_queued (hroom : s.vault.revPend.length < 8) :
    revokeWrite s m w = revokeResult (revokeQueued s m (bitsAt w 0 9)) 1 := by
  rw [revokeWrite_allowed hgo hslot hmay, if_neg (by simp [hready]), if_neg (by simp [hpend]),
    if_neg (Nat.not_le.2 hroom)]

end

/-! VK_REVOKE. -/

/-- The fuse of an envelope verification key burnt. -/
def vkBurnt (s : State) (k : Nat) : State := { s with otp.vkRevoked := s.otp.vkRevoked ||| 2 ^ k }

theorem vkRevoke_burns {s : State} {m : Master} {k : Nat} (haloft : aloft s = true) (hruns : masterRuns s .sp = true)
    (hmay : m = .host ∨ m = .spi) (hlc : lifeCycle s = 1 ∨ lifeCycle s = 2) (hprog : bitAt s.otp.vkProg k = true)
    (hrev : bitAt s.otp.vkRevoked k = false)
    (hleft : ((List.range 4).any fun i => i != k && bitAt s.otp.vkProg i && !bitAt s.otp.vkRevoked i) = true) :
    vkRevoke s m k = journal (vkBurnt s k) 0x0013 (leBytes 1 k) :=
  if_pos ⟨haloft, hruns, hmay, hlc, hprog, by rw [hrev]; rfl, hleft⟩

theorem vkRevoke_last {s : State} (m : Master) {k : Nat}
    (hleft : ((List.range 4).any fun i => i != k && bitAt s.otp.vkProg i && !bitAt s.otp.vkRevoked i) = false) :
    vkRevoke s m k = s :=
  if_neg fun ⟨_, _, _, _, _, _, h⟩ => absurd h (by rw [hleft]; exact Bool.false_ne_true)

end Sys2Proof.Machine
end

section
/-!
An import (R251), and the obligation over revocations and imports.
-/
namespace Sys2Proof.Machine

/-! Registers written to zero. -/

theorem get_put_zero {s : State} {f g : Fld} (hreset : f.reset = 0) (h : get s f = 0 ∨ f.key = g.key) :
    get (put s g 0) f = 0 := by
  by_cases hkey : f.key = g.key
  · rw [get, put, putRegs, hkey]
    split
    · rw [SMap.find_del_same, Option.getD_none, hreset]
    · rw [SMap.find_set_same, Option.getD_some, Nat.zero_mod]
  · rw [get_put_ne _ _ _ _ hkey]
    exact h.resolve_right hkey

/-- A register cleared by one of the steps and left at zero by the others is zero after them. -/
theorem get_forIdx_zero {f : Fld} {g : Nat → State → State} {n i : Nat} (hclear : ∀ st, get (g i st) f = 0)
    (hkeep : ∀ j st, get st f = 0 → get (g j st) f = 0) (hi : i < n) (s : State) : get (forIdx n g s) f = 0 := by
  induction n with
  | zero => exact absurd hi (Nat.not_lt_zero _)
  | succ n ih =>
    rw [forIdx_succ]
    rcases Nat.lt_succ_iff_lt_or_eq.1 hi with h | rfl
    · exact hkeep _ _ (ih h)
    · exact hclear _

theorem get_forIdx_keeps_zero {f : Fld} {g : Nat → State → State} (hkeep : ∀ j st, get st f = 0 → get (g j st) f = 0)
    (n : Nat) {s : State} (hs : get s f = 0) : get (forIdx n g s) f = 0 := by
  induction n with
  | zero => exact hs
  | succ n ih =>
    rw [forIdx_succ]
    exact hkeep _ _ ih

theorem forIdx_vault {g : Nat → State → State} (hg : ∀ j st, (g j st).vault = st.vault) (n : Nat) (s : State) :
    (forIdx n g s).vault = s.vault := by
  induction n with
  | zero => rfl
  | succ n ih => rw [forIdx_succ, hg, ih]

/-- A share pair of IMPORT written to zero. -/
def clearShare (i : Nat) (s : State) : State := put (put s (Reg.importShare0 i) 0) (Reg.importShare1 i) 0

/-- A tag word of IMPORT written to zero. -/
def clearTag (i : Nat) (s : State) : State := put s (Reg.importTag i) 0

theorem clearImport_eq (s : State) : clearImport s = forIdx 4 clearTag (forIdx 8 clearShare s) := rfl

theorem clearShare_zero {f : Fld} {i : Nat} {s : State} (hreset : f.reset = 0)
    (h : get s f = 0 ∨ f.key = (Reg.importShare0 i).key ∨ f.key = (Reg.importShare1 i).key) :
    get (clearShare i s) f = 0 := by
  rcases h with h | h | h
  · exact get_put_zero hreset (.inl (get_put_zero hreset (.inl h)))
  · exact get_put_zero hreset (.inl (get_put_zero hreset (.inr h)))
  · exact get_put_zero hreset (.inr h)

theorem get_clearImport_share0 (s : State) {i : Nat} (hi : i < 8) : get (clearImport s) (Reg.importShare0 i) = 0 :=
  get_forIdx_keeps_zero (fun _ _ h => get_put_zero rfl (.inl h)) 4
    (get_forIdx_zero (fun _ => clearShare_zero rfl (.inr (.inl rfl))) (fun _ _ h => clearShare_zero rfl (.inl h)) hi s)

theorem get_clearImport_share1 (s : State) {i : Nat} (hi : i < 8) : get (clearImport s) (Reg.importShare1 i) = 0 :=
  get_forIdx_keeps_zero (fun _ _ h => get_put_zero rfl (.inl h)) 4
    (get_forIdx_zero (fun _ => clearShare_zero rfl (.inr (.inr rfl))) (fun _ _ h => clearShare_zero rfl (.inl h)) hi s)

theorem get_clearImport_tag (s : State) {i : Nat} (hi : i < 4) : get (clearImport s) (Reg.importTag i) = 0 :=
  get_forIdx_zero (fun _ => get_put_zero rfl (.inr rfl)) (fun _ _ h => get_put_zero rfl (.inl h)) hi _

theorem clearImport_vault (s : State) : (clearImport s).vault = s.vault :=
  (forIdx_vault (g := clearTag) (fun _ _ => rfl) _ _).trans (forIdx_vault (g := clearShare) (fun _ _ => rfl) _ _)

/-! A slot filled and noted. -/

theorem slotOf_fillSlot (s : State) (i : Nat) (v : VSlot) (key : List Byte) (gen j : Nat) :
    slotOf (fillSlot s i v key gen) j = if j = i then
      some { v with state := 1, shareA := xorBytes (slice key 0 32) (drbgNext s).1, shareB := (drbgNext s).1 }
    else slotOf s j := by
  have hinstall : slotOf (fillSlot s i v key gen) j = slotOf (installKey s i v key) j := slotOf_congr rfl j
  rw [hinstall, installKey, slotOf_setSlot, slotOf_congr (drbgNext_slots s)]

theorem genOf_fillSlot (s : State) (i : Nat) (v : VSlot) (key : List Byte) (gen : Nat) :
    genOf (fillSlot s i v key gen) i = gen :=
  congrArg (Option.getD · 0) (SMap.find_set_same _ _ _)

theorem fillSlot_regs (s : State) (i : Nat) (v : VSlot) (key : List Byte) (gen : Nat) :
    (fillSlot s i v key gen).regs = s.regs := by
  obtain ⟨g, n, h⟩ := drbgNext_frame s
  simp [fillSlot, installKey, setSlot, h]

section
variable (s : State) (i : Nat)

theorem noteImported_frame : ∃ m, noteImported s i = { s with vault := { s.vault with imported := m } } := by
  unfold noteImported
  split
  · exact ⟨_, rfl⟩
  · exact ⟨_, rfl⟩

theorem writeKeys_frame : ∃ c, writeKeys s = { s with vault := { s.vault with copies := c } } := by
  unfold writeKeys
  simp only
  split
  · exact ⟨_, rfl⟩
  · exact ⟨_, rfl⟩

/-- The notes of an imported slot change neither its slots nor its generations. -/
theorem importNoted_frame : ∃ vault, writeKeys (noteImported (noteRevoked s i false) i) = { s with vault := vault } ∧
    vault.slots = s.vault.slots ∧ vault.gen = s.vault.gen := by
  obtain ⟨m, himported⟩ := noteImported_frame (noteRevoked s i false) i
  obtain ⟨c, hkeys⟩ := writeKeys_frame (noteImported (noteRevoked s i false) i)
  rw [hkeys, himported]
  exact ⟨_, rfl, rfl, rfl⟩

/-- A slot filled with an imported key and noted. -/
def importStored (v : VSlot) (key : List Byte) (gen : Nat) : State :=
  writeKeys (noteImported (noteRevoked (fillSlot s i v key gen) i false) i)

variable (v : VSlot) (key : List Byte) (gen : Nat)

theorem importStored_regs : (importStored s i v key gen).regs = s.regs := by
  obtain ⟨vault, h, -, -⟩ := importNoted_frame (fillSlot s i v key gen) i
  rw [importStored, h]
  exact fillSlot_regs s i v key gen

theorem slotOf_importStored (j : Nat) :
    slotOf (importStored s i v key gen) j = slotOf (fillSlot s i v key gen) j := by
  obtain ⟨vault, h, hslots, -⟩ := importNoted_frame (fillSlot s i v key gen) i
  exact slotOf_congr (by rw [importStored, h, hslots]) j

theorem genOf_importStored : genOf (importStored s i v key gen) i = gen := by
  obtain ⟨vault, h, -, hgen⟩ := importNoted_frame (fillSlot s i v key gen) i
  rw [genOf_congr (s := fillSlot s i v key gen) (by rw [importStored, h, hgen]), genOf_fillSlot]

end

/-! The judgement. -/

/-- The import's key as its share registers hold it. -/
def importKeyBytes (s : State) (b : List Byte) : List Byte :=
  (xorBytes (regBytes s 8 Reg.importShare0) (regBytes s 8 Reg.importShare1)).take (leAt b 4 2 / 8)

theorem importJudge_lt (s : State) (m : Master) (i : Nat) : (importJudge s m i).1 < 16 := by
  unfold importJudge
  split
  · exact (by decide : 3 < 16)
  · simp only
    split_ifs <;> simp

/-- An import is accepted under its recipe, with the key the shares hold. -/
theorem importJudge_accepted {s : State} {m : Master} {i : Nat} (h : (importJudge s m i).1 = 1) :
    ∃ b, recipe s (curSlot s) i = some b ∧ (importJudge s m i).2 = importKeyBytes s b := by
  cases hb : recipe s (curSlot s) i with
  | none => simp [importJudge, hb] at h
  | some b =>
    refine ⟨b, rfl, ?_⟩
    simp only [importJudge, hb] at h ⊢
    split_ifs at h ⊢ <;> trivial

/-- The state of an import that is judged, its result shown. -/
def importShown (s : State) (m : Master) (i : Nat) : State :=
  put (clearImport (if importAsksParent s m i then
    countDenied s (keyCheck s (((recipe s (curSlot s) i).map parentOf).getD 0) (requester m).1 (requester m).2 1) else s))
    Reg.importCtlResult (importJudge s m i).1

/-- The slot an import fills, by its recipe. -/
def importSlot (s : State) (m : Master) (i : Nat) (b : List Byte) : VSlot :=
  recipeAttrs b 3 (depthOf (importShown s m i) (curSlot (importShown s m i)) 6 i)

theorem importShown_vault (s : State) (m : Master) (i : Nat) : (importShown s m i).vault = s.vault := by
  unfold importShown countDenied
  rw [put_vault, clearImport_vault]
  split_ifs <;> rfl

section
variable {s : State} {m : Master} {w : Nat} (hgo : bitAt w 9 = true) (hm : m ≠ .dbg)
include hgo hm

theorem importWrite_refused (h : (importJudge s m (bitsAt w 0 9)).1 ≠ 1) :
    ∃ body, importWrite s m w = journal (importShown s m (bitsAt w 0 9)) 0x0012 body := by
  refine ⟨leBytes 2 (bitsAt w 0 9) ++ leBytes 2 (genOf (importShown s m (bitsAt w 0 9)) (bitsAt w 0 9)) ++
    leBytes 1 (conflictCode m) ++ leBytes 1 (importJudge s m (bitsAt w 0 9)).1, ?_⟩
  unfold importWrite
  rw [if_neg (by simp [hgo, hm])]
  simp only [if_neg h]
  rfl

theorem importWrite_accepted {b : List Byte} (h : (importJudge s m (bitsAt w 0 9)).1 = 1)
    (hb : recipe s (curSlot s) (bitsAt w 0 9) = some b) :
    ∃ body, importWrite s m w = journal (importStored (importShown s m (bitsAt w 0 9)) (bitsAt w 0 9)
      (importSlot s m (bitsAt w 0 9) b) (importJudge s m (bitsAt w 0 9)).2 (genOf s (bitsAt w 0 9) + 1)) 0x0012 body := by
  unfold importWrite
  rw [if_neg (by simp [hgo, hm])]
  simp only [if_pos h, hb, importStored, importSlot, importShown]
  exact ⟨_, rfl⟩

end

end Sys2Proof.Machine
end

section
/-!
The obligation over revocations and imports (R243, R251, R252).
-/
namespace Sys2Proof.Machine

/-! What an import shows. -/

/-- The registers of an import lie below the one that counts events lost and apart from its result. -/
theorem importWords_apart (i : Nat) (hi : i < 8) :
    ((Reg.importShare0 i).key ≠ Reg.importCtlResult.key ∧ (Reg.importShare0 i).key ≠ Reg.sbStatsLost.key) ∧
    ((Reg.importShare1 i).key ≠ Reg.importCtlResult.key ∧ (Reg.importShare1 i).key ≠ Reg.sbStatsLost.key) ∧
    (Reg.importTag i).key ≠ Reg.importCtlResult.key ∧ (Reg.importTag i).key ≠ Reg.sbStatsLost.key := by
  simp only [Fld.key, Reg.importShare0, Reg.importShare1, Reg.importTag, Reg.importCtlResult, Reg.sbStatsLost]
  omega

section
variable (s : State) (m : Master) (i : Nat)

theorem get_importShown_result : get (importShown s m i) Reg.importCtlResult = (importJudge s m i).1 :=
  (get_put_same _ _ _).trans (Nat.mod_eq_of_lt (importJudge_lt s m i))

theorem get_importShown_shares {k : Nat} (hk : k < 8) : get (importShown s m i) (Reg.importShare0 k) = 0 ∧
    get (importShown s m i) (Reg.importShare1 k) = 0 := by
  obtain ⟨⟨h0, -⟩, ⟨h1, -⟩, -⟩ := importWords_apart k hk
  exact ⟨(get_put_ne _ _ _ _ h0).trans (get_clearImport_share0 _ hk),
    (get_put_ne _ _ _ _ h1).trans (get_clearImport_share1 _ hk)⟩

theorem get_importShown_tag {k : Nat} (hk : k < 4) : get (importShown s m i) (Reg.importTag k) = 0 := by
  obtain ⟨-, -, h, -⟩ := importWords_apart k (by omega)
  exact (get_put_ne _ _ _ _ h).trans (get_clearImport_tag _ hk)

end

/-! What an accepted import stores. -/

/-- A slot that holds a key of its own length shows that key. -/
theorem keyOf_importStored (s : State) (i : Nat) (v : VSlot) (key : List Byte) (gen : Nat)
    (hlen : key.length = if v.len256 then 32 else 16) : keyOf (importStored s i v key gen) i = key := by
  have hslot := slotOf_importStored s i v key gen i
  rw [slotOf_fillSlot, if_pos rfl] at hslot
  have hle : key.length ≤ 32 := by rw [hlen]; split <;> decide
  rw [keyOf_of_slot hslot, xorBytes_twice (by simp), ← hlen, take_slice hle]

theorem slotReady_importStored (s : State) (i : Nat) (v : VSlot) (key : List Byte) (gen : Nat) :
    slotReady (importStored s i v key gen) i = true := by
  have hslot := slotOf_importStored s i v key gen i
  rw [slotOf_fillSlot, if_pos rfl] at hslot
  exact slotReady_of_slot hslot

theorem slotOf_importStored_ne (s : State) {i j : Nat} (v : VSlot) (key : List Byte) (gen : Nat) (h : j ≠ i) :
    slotOf (importStored s i v key gen) j = slotOf s j := by
  rw [slotOf_importStored, slotOf_fillSlot, if_neg h]

/-- The key of a recipe of 128 or 256 bits has the length its slot tells. -/
theorem length_importKeyBytes (s : State) (m : Master) (i : Nat) {b : List Byte}
    (hlen : (leAt b 4 2 == 128 || leAt b 4 2 == 256) = true) :
    (importKeyBytes s b).length = if (importSlot s m i b).len256 then 32 else 16 := by
  have hlen256 : (importSlot s m i b).len256 = (leAt b 4 2 == 256) := rfl
  rw [hlen256, importKeyBytes, List.length_take, length_xorBytes, length_regBytes, length_regBytes]
  rcases Bool.or_eq_true_iff.1 hlen with h | h
  · rw [beq_iff_eq.1 h]
    rfl
  · rw [beq_iff_eq.1 h]
    rfl

/-! The obligation's clauses. -/

theorem revoke_queues {s : State} {m : Master} {w : Word} (hacc : accepts s m 0xC0034 = true)
    (hgo : bitAt w.toNat 9 = true) (hslot : 8 ≤ bitsAt w.toNat 0 9) (hmay : revokeMay s m (bitsAt w.toNat 0 9) = true)
    (hready : slotReady s (bitsAt w.toNat 0 9) = true)
    (hpend : (s.vault.revPend.any fun r => r.slot == bitsAt w.toNat 0 9) = false)
    (hroom : s.vault.revPend.length < 8) :
    ∃ t, exec (.revoke m w) s = .next t ∧ get t Reg.revokeStatusResult = 1 ∧
      get t Reg.revokeStatusLastSlot = bitsAt w.toNat 0 9 ∧
      get t Reg.revokeStatusPending = s.vault.revPend.length + 1 ∧
      t.vault = (revokeQueued s m (bitsAt w.toNat 0 9)).vault ∧
      regsSame s t ([Reg.revokeStatusResult, Reg.revokeStatusLastSlot, Reg.revokeStatusPending] ++ raiseFields 20) := by
  have haccess := accessWrite_accepted s m 0xC0034 (fun u => revokeWrite u m w.toNat) hacc
  rw [revokeWrite_queued hgo hslot hmay hready hpend hroom] at haccess
  have hqueued : regsSame s (revokeQueued s m (bitsAt w.toNat 0 9))
      ([Reg.revokeStatusResult, Reg.revokeStatusLastSlot, Reg.revokeStatusPending] ++ raiseFields 20) := by
    have hshown := (regsSame.refl s ([Reg.revokeStatusResult, Reg.revokeStatusLastSlot, Reg.revokeStatusPending] ++
      raiseFields 20)).put (f := Reg.revokeStatusLastSlot) (by simp) (bitsAt w.toNat 0 9)
    exact (hshown.congr rfl).put (by simp) _
  refine ⟨_, congrArg Host.Outcome.next haccess, ?_, ?_, ?_, ?_, regsSame_answered
    (revokeResult_regsSame hqueued (by simp) (fun f hf => List.mem_append_right _ hf) 1) _ _ _⟩
  · rw [get_answered, get_revokeResult_same _ _ (by decide)]
  · rw [get_answered, get_revokeResult_ne _ _ (by decide) (by decide), revokeQueued, get_put_ne _ _ _ _ (by decide)]
    exact (get_put_same _ _ _).trans (Nat.mod_eq_of_lt (bitsAt_lt _ _ _))
  · rw [get_answered, get_revokeResult_ne _ _ (by decide) (by decide), revokeQueued, get_put_same]
    exact Nat.mod_eq_of_lt (Nat.lt_trans (Nat.succ_lt_succ hroom) (by decide))
  · rw [noteGrant_vault, answer_vault, revokeResult_vault]

theorem vkRevoke_shown (s : State) (k : Nat) :
    asked s (journal (vkBurnt s k) 0x0013 (leBytes 1 k)) 1 ∧
      regsSame s (journal (vkBurnt s k) 0x0013 (leBytes 1 k)) [Reg.sbStatsLost] := by
  refine ⟨(asked_journal (vkBurnt s k) 0x0013 (leBytes 1 k)).congr rfl rfl rfl rfl, ?_⟩
  exact journal_regsSame (vkBurnt s k) 0x0013 (leBytes 1 k)

/-- What an import leaves once it is journaled: its registers, and the vault as it was or with its slot filled. -/
theorem importWrite_ends {s : State} {m : Master} {w : Nat} (hgo : bitAt w 9 = true) (hm : m ≠ .dbg) :
    ∃ u body, importWrite s m w = journal u 0x0012 body ∧ u.regs = (importShown s m (bitsAt w 0 9)).regs ∧
      ((importJudge s m (bitsAt w 0 9)).1 ≠ 1 → u.vault = s.vault) ∧
      ((importJudge s m (bitsAt w 0 9)).1 = 1 → ∃ b, recipe s (curSlot s) (bitsAt w 0 9) = some b ∧
        (importJudge s m (bitsAt w 0 9)).2 = importKeyBytes s b ∧
        u = importStored (importShown s m (bitsAt w 0 9)) (bitsAt w 0 9) (importSlot s m (bitsAt w 0 9) b)
          (importJudge s m (bitsAt w 0 9)).2 (genOf s (bitsAt w 0 9) + 1)) := by
  by_cases hjudge : (importJudge s m (bitsAt w 0 9)).1 = 1
  · obtain ⟨b, hb, hkey⟩ := importJudge_accepted hjudge
    obtain ⟨body, hwrite⟩ := importWrite_accepted hgo hm hjudge hb
    exact ⟨_, body, hwrite, importStored_regs _ _ _ _ _, fun h => absurd hjudge h, fun _ => ⟨b, hb, hkey, rfl⟩⟩
  · obtain ⟨body, hwrite⟩ := importWrite_refused hgo hm hjudge
    exact ⟨_, body, hwrite, rfl, fun _ => importShown_vault _ _ _, fun h => absurd h hjudge⟩

/-- Settles O28, clause by clause: the five answers of REVOKE, the fuse of an envelope key, and an import. -/
theorem keysAreRevokedAndImported : Obligations.KeysAreRevokedAndImported := by
  unfold Obligations.KeysAreRevokedAndImported
  refine ⟨fun s m w hacc hgo hslot hmay hready hpend hroom => ?_, fun s m w hacc hgo hdenied => ?_,
    fun s m w hacc hgo hslot hmay hready hpend hfull => ?_, fun s m w hacc hgo hslot hmay hready => ?_,
    fun s m w hacc hgo hslot hmay hready hpend => ?_,
    fun s m k haloft hruns hmay hlc hprog hrev hleft => ?_, fun s m k hleft => ?_, fun s m w hacc hgo hm hlen => ?_⟩
  case refine_1 =>
    obtain ⟨t, ht, hresult, hlast, hpending, hvault, hsame⟩ := revoke_queues hacc hgo hslot hmay hready hpend hroom
    exact ⟨t, ht, hresult, hlast, hpending, by rw [hvault]; rfl, by rw [hvault]; rfl, hsame⟩
  case refine_2 =>
    obtain ⟨t, ht, hresult, -, hvault, -, hsame⟩ := revoke_shown hacc (revokeWrite_denied hgo hdenied) (by decide)
    exact ⟨t, ht, hresult, hvault, hsame⟩
  case refine_3 =>
    obtain ⟨t, ht, hresult, -, hvault, -, hsame⟩ :=
      revoke_shown hacc (revokeWrite_busy hgo hslot hmay hready hpend hfull) (by decide)
    exact ⟨t, ht, hresult, hvault, hsame⟩
  case refine_4 =>
    obtain ⟨t, ht, hresult, hlast, hvault, -, hsame⟩ :=
      revoke_shown hacc (revokeWrite_empty hgo hslot hmay hready) (by decide)
    exact ⟨t, ht, hresult, hlast, hvault, hsame⟩
  case refine_5 =>
    obtain ⟨t, ht, hresult, -, hvault, hpending, hsame⟩ :=
      revoke_shown hacc (revokeWrite_merged hgo hslot hmay hready hpend) (by decide)
    exact ⟨t, ht, hresult, hvault, hpending, hsame⟩
  case refine_6 =>
    have hburns := vkRevoke_burns haloft hruns hmay hlc hprog hrev hleft
    obtain ⟨hasked, hsame⟩ := vkRevoke_shown s k
    refine ⟨_, congrArg Host.Outcome.next hburns, ?_, hasked, hsame, ?_⟩
    · rw [journal_otp]
      rfl
    · apply State.eq_of_parts <;> simp [vkBurnt]
  case refine_7 => exact congrArg Host.Outcome.next (vkRevoke_last m hleft)
  case refine_8 =>
    obtain ⟨u, body, hwrite, hregs, hrefused, haccepted⟩ := importWrite_ends (s := s) hgo hm
    have haccess := accessWrite_accepted s m 0xC0050 (fun v => importWrite v m w.toNat) hacc
    rw [hwrite] at haccess
    have hget (f : Fld) (hf : f.key ≠ Reg.sbStatsLost.key) :
        get (noteGrant (answer (journal u 0x0012 body) m .done) 0xC0050 m) f =
          get (importShown s m (bitsAt w.toNat 0 9)) f := by
      rw [get_answered, get_journal_ne _ _ _ _ hf]
      exact get_congr _ _ _ hregs
    have hvault : (noteGrant (answer (journal u 0x0012 body) m .done) 0xC0050 m).vault = u.vault := by
      rw [noteGrant_vault, answer_vault, journal_vault]
    refine ⟨_, congrArg Host.Outcome.next haccess, fun i hi => ?_, fun i hi => ?_, ?_, fun h => ?_, fun h => ?_⟩
    · obtain ⟨⟨-, h0⟩, ⟨-, h1⟩, -⟩ := importWords_apart i hi
      rw [hget _ h0, hget _ h1]
      exact get_importShown_shares _ _ _ hi
    · obtain ⟨-, -, -, h⟩ := importWords_apart i (by omega)
      rw [hget _ h, get_importShown_tag _ _ _ hi]
    · rw [hget _ (by decide), get_importShown_result]
    · rw [hvault, hrefused h]
    · obtain ⟨b, hb, hkey, rfl⟩ := haccepted h
      rw [hb, Option.all_some] at hlen
      have hslots := congrArg VaultSt.slots hvault
      refine ⟨?_, ?_, ?_, fun i hi => ?_⟩
      · rw [slotReady, slotOf_congr hslots]
        exact slotReady_importStored _ _ _ _ _
      · rw [keyOf, slotOf_congr hslots]
        refine keyOf_importStored _ _ _ _ _ ?_
        rw [hkey]
        exact length_importKeyBytes s m _ hlen
      · rw [genOf_congr (congrArg VaultSt.gen hvault), genOf_importStored]
      · rw [slotOf_congr hslots, slotOf_importStored_ne _ _ _ _ hi]
        exact slotOf_congr (congrArg VaultSt.slots (importShown_vault _ _ _)) i

end Sys2Proof.Machine
end

section
/-!
What reaches VAULT_STATUS and what a fault leaves there: no fault's record or reaction, no building of keys and no journal
entry writes a field of that word.
-/
namespace Sys2Proof.Machine

/-! VAULT_STATUS kept. -/

/-- Every field of the word VAULT_STATUS reads the same in both states. -/
def vaultWordSame (s t : State) : Prop := ∀ f : Fld, f.key / 32 = 0xC0000 → get t f = get s f

section
variable {s t u : State}

theorem vaultWordSame.refl (s : State) : vaultWordSame s s := fun _ _ => rfl

theorem vaultWordSame.trans (h : vaultWordSame s t) (k : vaultWordSame t u) : vaultWordSame s u :=
  fun f hf => (k f hf).trans (h f hf)

theorem vaultWordSame.of_regs (h : t.regs = s.regs) : vaultWordSame s t := fun _ _ => get_congr _ _ _ h

/-- A frame whose fields all lie in other words. -/
theorem vaultWordSame.of_regsSame {l : List Fld} (h : regsSame s t l) (hl : ∀ f ∈ l, f.key / 32 ≠ 0xC0000) :
    vaultWordSame s t := fun g hg => h g (List.all_eq_true.2 fun f hf => by
  have hne : g.key ≠ f.key := fun heq => hl f hf (heq ▸ hg)
  simpa using hne)

theorem vaultWordSame.put (h : vaultWordSame s t) {f : Fld} (hf : f.key / 32 ≠ 0xC0000) (v : Nat) :
    vaultWordSame s (put t f v) :=
  fun g hg => (get_put_ne _ _ _ _ fun heq => hf (heq ▸ hg)).trans (h g hg)

theorem vaultWordSame.bump (h : vaultWordSame s t) {f : Fld} (hf : f.key / 32 ≠ 0xC0000) : vaultWordSame s (bump t f) :=
  fun g hg => (get_bump_ne _ _ _ fun heq => hf (heq ▸ hg)).trans (h g hg)

theorem vaultWordSame.raise (h : vaultWordSame s t) {n : Nat} (hn : ∀ f ∈ raiseFields n, f.key / 32 ≠ 0xC0000) :
    vaultWordSame s (raiseSource t n) :=
  h.trans (.of_regsSame ((regsSame.refl t _).raise n fun _ h => h) hn)

end

theorem vaultWordSame_foldl {α : Type} (g : State → α → State) (hg : ∀ s x, vaultWordSame s (g s x)) (l : List α)
    (s : State) : vaultWordSame s (l.foldl g s) := by
  induction l generalizing s with
  | nil => exact .refl s
  | cons x l ih => exact (hg s x).trans (ih _)

theorem vaultWordSame_forIdx (n : Nat) (g : Nat → State → State) (hg : ∀ i s, vaultWordSame s (g i s)) (s : State) :
    vaultWordSame s (forIdx n g s) := vaultWordSame_foldl _ (fun s i => hg i s) _ s

theorem vaultWordSame_requestOn (s : State) (c : Nat) (k : JobKind) : vaultWordSame s (requestOn s c k) :=
  fun g hg => get_requestOn_ne s c k g fun heq => absurd (heq ▸ hg) (by decide)

theorem vaultWordSame_journal (s : State) (type : Nat) (body : List Byte) : vaultWordSame s (journal s type body) :=
  vaultWordSame_requestOn _ _ _

/-! A fault. -/

theorem vaultWordSame_contActivate (s : State) (p cause master : Nat) : vaultWordSame s (contActivate s p cause master) := by
  refine .of_regsSame (contActivate_regsSame s p cause master) fun f hf => ?_
  simp only [List.mem_cons, List.not_mem_nil, or_false] at hf
  rcases hf with rfl | rfl | rfl | rfl <;>
    simp only [Fld.key, Reg.contStatusActive, Reg.contCauseCause, Reg.contCauseActivations, Reg.sbStatsLost] <;> omega

/-- SAFE_STATE entered, its registers shown and its profile active, before its entry is asked for. -/
def safeShown (s : State) (code : Nat) (byEsc : Bool) : State :=
  put (put (put (putFlag (put s Reg.fcSafeCode code) Reg.fcSafeByEsc byEsc) Reg.fcSafeTempo (tempoNo s % 2 ^ 32))
    Reg.fcStatusSafeState 1) Reg.fcStatusFaultN 1

theorem vaultWordSame_safeShown (s : State) (code : Nat) (byEsc : Bool) : vaultWordSame s (safeShown s code byEsc) :=
  ((((((vaultWordSame.refl s).put (by decide) _).put (by decide) _).put (by decide) _).put (by decide) _).put
    (by decide) _)

/-- The profile of SAFE_STATE held by its fault. -/
def safeHeld (s : State) (code : Nat) : State :=
  holdFault (raiseSource (contActivate s (faultGlobals s).1 1 0xFF) 9) (faultGlobals s).1 code 0xFFFF

theorem vaultWordSame_safeHeld (s : State) (code : Nat) : vaultWordSame s (safeHeld s code) :=
  (vaultWordSame_contActivate s _ _ _).raise (n := 9) (by decide)

theorem safeHeld_recs (s : State) (code : Nat) : (safeHeld s code).fault.recs = s.fault.recs := by simp [safeHeld]

/-- How SAFE_STATE is entered: held again, or shown, held and journaled, or noted to be journaled. -/
theorem enterSafe_eq (s : State) (code : Nat) (byEsc : Bool) (fromSev firstTempo : Nat) :
    enterSafe s code byEsc fromSev firstTempo =
      if flag s Reg.fcStatusSafeState then holdFault (contActivate s (faultGlobals s).1 1 0xFF) (faultGlobals s).1 code 0xFFFF
      else if (safeHeld (safeShown s code byEsc) code).cpu.spHeld then
        { safeHeld (safeShown s code byEsc) code with fault.toJournal := true }
      else requestSp (safeHeld (safeShown s code byEsc) code) (.sbSeal 0x0050
        (leBytes 2 code ++ leBytes 1 fromSev ++ leBytes 1 3 ++ leBytes 8 firstTempo)) := rfl

theorem vaultWordSame_enterSafe (s : State) (code : Nat) (byEsc : Bool) (fromSev firstTempo : Nat) :
    vaultWordSame s (enterSafe s code byEsc fromSev firstTempo) := by
  have hheld := (vaultWordSame_safeShown s code byEsc).trans (vaultWordSame_safeHeld _ code)
  rw [enterSafe_eq]
  split_ifs
  · exact vaultWordSame_contActivate s _ _ _
  · exact hheld
  · exact hheld.trans (vaultWordSame_requestOn _ _ _)

theorem enterSafe_recs (s : State) (code : Nat) (byEsc : Bool) (fromSev firstTempo : Nat) :
    (enterSafe s code byEsc fromSev firstTempo).fault.recs = s.fault.recs := by
  have hheld : (safeHeld (safeShown s code byEsc) code).fault.recs = s.fault.recs := safeHeld_recs _ _
  rw [enterSafe_eq]
  split_ifs
  · rw [holdFault_fault, contActivate_fault]
  · exact hheld
  · rw [requestSp_fault, hheld]

section
variable (s : State) (code unit sev profile : Nat)

theorem vaultWordSame_faultReact : vaultWordSame s (faultReact s code unit sev profile) := by
  have habort : vaultWordSame s (requestAbort s 5 0) := .of_regs (requestAbort_regs s 5 0)
  unfold faultReact
  split
  · dsimp only
    split_ifs
    · exact habort
    · exact habort.trans (vaultWordSame_contActivate _ _ _ _)
  · exact habort.trans (vaultWordSame_enterSafe _ _ _ _ _)
  · exact .refl s

theorem faultReact_recs : (faultReact s code unit sev profile).fault.recs = s.fault.recs := by
  unfold faultReact
  split
  · dsimp only
    split_ifs
    · rw [requestAbort_fault]
    · rw [holdFault_fault, contActivate_fault, requestAbort_fault]
  · rw [enterSafe_recs, requestAbort_fault]
  · rfl

end

theorem vaultWordSame_refreshFaultN (s : State) : vaultWordSame s (refreshFaultN s) :=
  fun f hf => get_refreshFaultN_ne s f fun heq => absurd (heq ▸ hf) (by decide)

/-- A fault that is not held yet, recorded as its policy says. -/
def faultAdded (s : State) (code unit detail : Nat) : State :=
  bump { s with fault.recs := s.fault.recs ++ [⟨code, (faultPolicy s code).1, unit, tempoNo s, detail % 2 ^ 32, 0,
    if (faultPolicy s code).1 = 2 then (faultPolicy s code).2.2 else 0, (faultPolicy s code).2.1⟩] } Reg.fcStatsRecorded

/-- A fault without room among the records, counted. -/
def faultCounted (s : State) (code : Nat) : State :=
  let counted := put s Reg.fcStatusOverflow (min 65535 (get s Reg.fcStatusOverflow + 1))
  put counted Reg.fcStatusMaxSevOvf (max (faultPolicy s code).1 (get counted Reg.fcStatusMaxSevOvf))

/-- The overflow whose deadline is the soonest, shown. -/
def overflowShown (s u : State) (code : Nat) : State :=
  let named := put (put u Reg.fcOvfCode code) Reg.fcOvfTempo (tempoNo s % 2 ^ 32)
  { put (put named Reg.fcOvfDue ((tempoNo s + (faultPolicy s code).2.2) % 2 ^ 32)) Reg.fcStatusOvfDueSet 1 with
    fault.ovfDue := some (tempoNo s + (faultPolicy s code).2.2), fault.ovfTempo := tempoNo s }

/-- A fault without room among the records. -/
def faultOverflowed (s : State) (code : Nat) : State :=
  if (faultPolicy s code).1 = 2 ∧ ovfSooner (faultCounted s code) (tempoNo s + (faultPolicy s code).2.2) then
    overflowShown s (faultCounted s code) code
  else faultCounted s code

/-- A fault that is not held is recorded or overflows, raises its two sources, and its reaction is applied (R363, R365). -/
theorem recordFault_new {s : State} {code unit : Nat}
    (h : s.fault.recs.find? (fun r => r.code = code ∧ r.unit = unit) = none) (detail : Nat) :
    recordFault s code unit detail = refreshFaultN (faultReact
      (raiseSource (raiseSource (if s.fault.recs.length < 16 then faultAdded s code unit detail
        else faultOverflowed s code) 0) 8)
      code (if s.fault.recs.length < 16 then unit else unit + 65536) (faultPolicy s code).1 (faultPolicy s code).2.1) := by
  unfold recordFault
  rw [h]
  rfl

theorem vaultWordSame_overflowShown (s u : State) (code : Nat) : vaultWordSame u (overflowShown s u code) := by
  have hshown (a b c d : Nat) : vaultWordSame u (put (put (put (put u Reg.fcOvfCode a) Reg.fcOvfTempo b) Reg.fcOvfDue c)
      Reg.fcStatusOvfDueSet d) :=
    ((((vaultWordSame.refl u).put (by decide) _).put (by decide) _).put (by decide) _).put (by decide) _
  exact (hshown code (tempoNo s % 2 ^ 32) ((tempoNo s + (faultPolicy s code).2.2) % 2 ^ 32) 1).trans (.of_regs rfl)

theorem vaultWordSame_faultOverflowed (s : State) (code : Nat) : vaultWordSame s (faultOverflowed s code) := by
  have hcounted : vaultWordSame s (faultCounted s code) := ((vaultWordSame.refl s).put (by decide) _).put (by decide) _
  unfold faultOverflowed
  split
  · exact hcounted.trans (vaultWordSame_overflowShown _ _ _)
  · exact hcounted

theorem vaultWordSame_faultAdded (s : State) (code unit detail : Nat) :
    vaultWordSame s (faultAdded s code unit detail) :=
  vaultWordSame.bump (vaultWordSame.of_regs rfl) (by decide)

theorem vaultWordSame_recordFault (s : State) (code unit detail : Nat) :
    vaultWordSame s (recordFault s code unit detail) := by
  cases hfind : s.fault.recs.find? (fun r => r.code = code ∧ r.unit = unit) with
  | some r =>
    have hrepeated : vaultWordSame s { s with fault.recs := repeatRecord code unit s.fault.recs } := .of_regs rfl
    rw [recordFault_held hfind]
    exact (hrepeated.trans (vaultWordSame_faultReact _ _ _ _ _)).trans (vaultWordSame_refreshFaultN _)
  | none =>
    have hnoted : vaultWordSame s (if s.fault.recs.length < 16 then faultAdded s code unit detail
        else faultOverflowed s code) := by
      split
      · exact vaultWordSame_faultAdded _ _ _ _
      · exact vaultWordSame_faultOverflowed _ _
    rw [recordFault_new hfind]
    exact (((hnoted.raise (n := 0) (by decide)).raise (n := 8) (by decide)).trans
      (vaultWordSame_faultReact _ _ _ _ _)).trans (vaultWordSame_refreshFaultN _)

/-- A fault with room among the records is among them once it is recorded. -/
theorem exists_rec_recordFault {s : State} (hroom : s.fault.recs.length < 16) (code unit detail : Nat) :
    ∃ r ∈ (recordFault s code unit detail).fault.recs, r.code = code ∧ r.unit = unit := by
  cases hfind : s.fault.recs.find? (fun r => r.code = code ∧ r.unit = unit) with
  | some r =>
    have hnames : r.code = code ∧ r.unit = unit := by simpa using List.find?_some hfind
    rw [recordFault_held hfind, refreshFaultN_fault, faultReact_recs]
    exact ⟨_, List.mem_map_of_mem (List.mem_of_find?_eq_some hfind), by simp [hnames]⟩
  | none =>
    rw [recordFault_new hfind, refreshFaultN_fault, faultReact_recs, raiseSource_fault, raiseSource_fault, if_pos hroom]
    exact ⟨_, List.mem_append_right _ List.mem_cons_self, rfl, rfl⟩

/-! Keys built. -/

theorem vaultWordSame_countDenied (s : State) (code : Nat) : vaultWordSame s (countDenied s code) := by
  unfold countDenied
  split
  · exact (vaultWordSame.refl s).bump (by decide)
  · exact .refl s

/-- Work on the vault alone. -/
theorem vaultWordSame_of_kept {s t : State}
    (h : kept [.vault, .draws] t = kept [.vault, .draws] s) : vaultWordSame s t :=
  .of_regs ((changesOnly_of_kept h).regs_eq (by decide))

theorem vaultWordSame_derive (s : State) (e i gen : Nat) : vaultWordSame s (derive s e i gen) := by
  have hempty (u : State) : vaultWordSame u (emptySlot u i) :=
    vaultWordSame_of_kept (@kept_emptySlot _ (has_of rfl) u i)
  unfold derive
  cases recipe s e i with
  | none => exact .refl s
  | some b =>
    dsimp only
    split
    · exact .refl s
    · cases slotOf s (parentOf b) with
      | none => exact hempty s
      | some v =>
        dsimp only
        split_ifs
        · exact vaultWordSame_of_kept (@kept_installRevoked _ (has_of rfl) _ _ _ _ _)
        · exact (vaultWordSame_countDenied s 3).trans (hempty _)
        · exact hempty s
        · exact .of_regs (fillSlot_regs s i (recipeAttrs b 2 (depthOf s e 6 i)) (recipeKey s b gen) gen)

theorem vaultWordSame_restoreKey (s : State) (e i gen : Nat) : vaultWordSame s (restoreKey s e i gen) := by
  unfold restoreKey
  cases recipe s e i with
  | none => exact .refl s
  | some b =>
    dsimp only
    split_ifs
    · exact .of_regs rfl
    · exact vaultWordSame_derive _ _ _ _

theorem vaultWordSame_buildKeys (s : State) (e : Nat) (g : State → Nat → Nat) : vaultWordSame s (buildKeys s e g) := by
  have hfixed (u : State) : vaultWordSame u (forIdx 7 (fun i st => fillFixed st i (g st i)) u) :=
    vaultWordSame_forIdx _ _ (fun i st => vaultWordSame_of_kept (@kept_fillFixed _ (has_of rfl) (has_of rfl) _ _ _)) u
  have hemptied : vaultWordSame s { s with vault.slots := [] } := .of_regs rfl
  unfold buildKeys
  dsimp only
  split_ifs
  · exact hemptied.trans (hfixed _)
  · refine ((hemptied.trans (hfixed _)).trans (vaultWordSame_foldl _ (fun st i => ?_) _ _)).trans
      (vaultWordSame_forIdx _ _ (fun d st => vaultWordSame_foldl _ (fun st' i => ?_) _ _) _)
    · exact vaultWordSame_of_kept (@kept_restoreImport _ (has_of rfl) (has_of rfl) _ _ _ _ _)
    · split_ifs
      · exact vaultWordSame_restoreKey _ _ _ _
      · exact .refl st'

theorem vaultWordSame_writeKeys (s : State) : vaultWordSame s (writeKeys s) := by
  obtain ⟨c, h⟩ := writeKeys_frame s
  rw [h]
  exact .of_regs rfl

/-- The status bits of the sheet's registers brought up to date. -/
def sheetBitsShown (s : State) : State :=
  let room := putFlag (putFlag s Reg.sbStatusReadOnlyFull (s.sheet.oldest + 131072 ≤ s.sheet.next))
    Reg.sbStatusReadOnlyKey (!slotReady s 3)
  putFlag (putFlag room Reg.sbStatusWritable (sheetWritable room)) Reg.sbStatusAnchorsExh (256 ≤ s.otp.anchors.length)

/-- A state with the blocks, the fill and the head of a sheet shown. -/
def sheetHeadShown (s u : State) (last : Nat) : State :=
  let blocks := put (put u Reg.sbStatusOldest (s.sheet.oldest / 512 % 256)) Reg.sbStatusNewest (last / 512 % 256)
  let fill := put blocks Reg.sbStatusFill (blockEntries s (last / 512)).length
  put (forIdx 8 (fun m st => put st (Reg.sbHead m) (leAt s.sheet.headHash (4 * m) 4))
    (put fill Reg.sbHeadSeq (s.sheet.nextSeq - 1))) Reg.sbFirst (firstSeq s)

/-- The sheet's registers brought up to date. -/
def sheetShown (s : State) : State :=
  sheetHeadShown s (sheetBitsShown s) (if s.sheet.next = 0 then 0 else s.sheet.next - 1)

/-- The four bits whose change raises the source of the sheet. -/
def sheetBits (s : State) : Bool × Bool × Bool × Bool :=
  (flag s Reg.sbStatusWritable, flag s Reg.sbStatusReadOnlyFull, flag s Reg.sbStatusReadOnlyKey,
    flag s Reg.sbStatusAnchorsExh)

theorem refreshSheet_eq (s : State) : refreshSheet s =
    if sheetBits s = sheetBits (sheetShown s) then sheetShown s else raiseSource (sheetShown s) 21 := rfl

theorem vaultWordSame_sheetBitsShown (s : State) : vaultWordSame s (sheetBitsShown s) :=
  ((((vaultWordSame.refl s).put (by decide) _).put (by decide) _).put (by decide) _).put (by decide) _

theorem vaultWordSame_sheetHeadShown (s u : State) (last : Nat) : vaultWordSame u (sheetHeadShown s u last) := by
  have hfill : ∀ a b c d, vaultWordSame u (put (put (put (put u Reg.sbStatusOldest a) Reg.sbStatusNewest b)
      Reg.sbStatusFill c) Reg.sbHeadSeq d) := fun _ _ _ _ =>
    ((((vaultWordSame.refl u).put (by decide) _).put (by decide) _).put (by decide) _).put (by decide) _
  refine ((hfill _ _ _ _).trans (vaultWordSame_forIdx 8 _ (fun m st => (vaultWordSame.refl st).put ?_ _) _)).put
    (by decide) _
  simp only [Fld.key, Reg.sbHead]
  omega

theorem vaultWordSame_refreshSheet (s : State) : vaultWordSame s (refreshSheet s) := by
  have hshown : vaultWordSame s (sheetShown s) :=
    (vaultWordSame_sheetBitsShown s).trans (vaultWordSame_sheetHeadShown s _ _)
  rw [refreshSheet_eq]
  split
  · exact hshown
  · exact hshown.raise (n := 21) (by decide)

end Sys2Proof.Machine
end

section
/-!
Remasking, tamper events and a failure of the entropy source (R254, R265).
-/
namespace Sys2Proof.Machine

/-! Remasking. -/

/-- The slots re-masked: draws alone besides, and every key and its readiness as they were. -/
def remasked (s t : State) : Prop :=
  (∃ slots g n, t = { s with vault := { s.vault with slots := slots, drbg := g }, freeCtr := n }) ∧
    ∀ i, keyOf t i = keyOf s i ∧ slotReady t i = slotReady s i

theorem remasked.refl (s : State) : remasked s s := ⟨⟨_, _, _, rfl⟩, fun _ => ⟨rfl, rfl⟩⟩

theorem remasked.trans {s t u : State} (h : remasked s t) (k : remasked t u) : remasked s u := by
  obtain ⟨⟨_, _, _, rfl⟩, hkeys⟩ := h
  obtain ⟨⟨_, _, _, rfl⟩, hkeys'⟩ := k
  exact ⟨⟨_, _, _, rfl⟩, fun i => ⟨(hkeys' i).1.trans (hkeys i).1, (hkeys' i).2.trans (hkeys i).2⟩⟩

/-- A READY slot under a new mask. -/
def maskedSlot (v : VSlot) (mask : List Byte) : VSlot :=
  { v with shareA := xorBytes v.shareA (slice mask 0 v.shareA.length)
           shareB := xorBytes v.shareB (slice mask 0 v.shareB.length) }

theorem remasked_maskedSlot {s : State} {i : Nat} {v : VSlot} (h : slotOf s i = some v) :
    remasked s (setSlot (drbgNext s).2 i (maskedSlot v (drbgNext s).1)) := by
  refine ⟨?_, fun j => ?_⟩
  · obtain ⟨g, n, hdraw⟩ := drbgNext_frame s
    rw [hdraw]
    exact ⟨_, _, _, rfl⟩
  · have hslot := slotOf_setSlot (drbgNext s).2 i (maskedSlot v (drbgNext s).1) j
    by_cases hj : j = i
    · subst hj
      rw [if_pos rfl] at hslot
      rw [keyOf_of_slot hslot, keyOf_of_slot h, slotReady_of_slot hslot, slotReady_of_slot h]
      exact ⟨congrArg (List.take _) (xorBytes_masked _ _ _), rfl⟩
    · rw [if_neg hj, slotOf_congr (drbgNext_slots s)] at hslot
      rw [keyOf, keyOf, slotReady, slotReady, hslot]
      exact ⟨rfl, rfl⟩

theorem remasked_remaskSlot (s : State) (i : Nat) : remasked s (remaskSlot s i) := by
  unfold remaskSlot
  cases h : slotOf s i with
  | none => exact .refl s
  | some v =>
    dsimp only
    split
    · exact remasked_maskedSlot h
    · exact .refl s

theorem remasked_foldl (l : List Nat) (s : State) : remasked s (l.foldl remaskSlot s) := by
  induction l generalizing s with
  | nil => exact .refl s
  | cons i l ih => exact (remasked_remaskSlot s i).trans (ih _)

/-- Every slot re-masked, and the pass counted. -/
def remaskPass (s : State) : State :=
  bump { (s.vault.slots.map fun e => e.1).foldl remaskSlot s with vault.lastRemask := s.time.now }
    Reg.remaskStatusPasses

theorem remask_passes {s : State} (haloft : aloft s = true) (hdrbg : flag s Reg.vaultStatusDrbgFault = false) :
    remask s = remaskPass s := if_pos ⟨.inl haloft, by rw [hdrbg]; rfl⟩

theorem remask_failed {s : State} (hdrbg : flag s Reg.vaultStatusDrbgFault = true) : remask s = s :=
  if_neg fun ⟨_, h⟩ => by simp [hdrbg] at h

/-! The entropy source. -/

theorem flag_of_get {s : State} {f : Fld} (h : get s f = 1) : flag s f = true := by
  rw [flag, h]
  rfl

/-- A fault recorded leaves a field of VAULT_STATUS that was set before it. -/
theorem get_recordFault_put {u : State} {f : Fld} (hf : f.key / 32 = 0xC0000) (v code unit detail : Nat) :
    get (recordFault (put u f v) code unit detail) f = v % 2 ^ f.width :=
  (vaultWordSame_recordFault _ _ _ _ f hf).trans (get_put_same _ _ _)

/-! Tamper. -/

/-- The vault wiped by a tamper event, its latch and its cause shown. -/
def tamperWiped (s : State) (c : TamperCause) : State :=
  let shown := put (put s Reg.vaultStatusTamperLatch 1) Reg.vaultStatusTamperCause
    (get s Reg.vaultStatusTamperCause ||| 2 ^ tamperBit c)
  wipeSecure { shown with vault.slots := [], vault.tamperPower := powerCode s }

theorem tamperActs_certain (s : State) {c : TamperCause} {ns : Nat} (h : c ≠ .pin ∨ 1000 < ns) :
    tamperActs s c ns = (true, s) := by
  cases c with
  | pin =>
    have hns : 1000 < ns := h.resolve_left (fun hne => hne rfl)
    rw [tamperActs, if_neg (by omega), if_pos hns]
  | voltage => rfl
  | clock => rfl

theorem tamper_certain {s : State} {c : TamperCause} {ns : Nat} (hon : s.boot.phase ≠ .off) (h : c ≠ .pin ∨ 1000 < ns) :
    tamper s c ns = if aloft s then
      recordFault (refreshSheet (tamperWiped s c)) 0x0031 0 (get (tamperWiped s c) Reg.vaultStatusTamperCause)
    else { tamperWiped s c with vault.tamperUnreported := true } := by
  rw [tamper, if_neg hon, tamperActs_certain s h]
  rfl

theorem tamper_short (s : State) {ns : Nat} (h : ns < 200) : tamper s .pin ns = s := by
  have hacts : tamperActs s .pin ns = (false, s) := if_pos h
  rw [tamper, hacts]
  exact ite_self s

section
variable (s : State) (c : TamperCause)

theorem get_tamperWiped_latch : get (tamperWiped s c) Reg.vaultStatusTamperLatch = 1 :=
  (get_put_ne _ _ _ _ (by decide)).trans (get_put_same _ _ _)

theorem bitAt_tamperWiped_cause : bitAt (get (tamperWiped s c) Reg.vaultStatusTamperCause) (tamperBit c) = true := by
  have hbit : tamperBit c < Reg.vaultStatusTamperCause.width := by cases c <;> decide
  refine (bitAt_get_put hbit (put s Reg.vaultStatusTamperLatch 1)
    (get s Reg.vaultStatusTamperCause ||| 2 ^ tamperBit c)).trans ?_
  rw [bitAt, Nat.testBit_or, Nat.testBit_two_pow_self, Bool.or_true]

end

/-- The sheet's registers brought up to date change registers and the host's view alone. -/
theorem changes_refreshSheet (s : State) : changesOnly [.registers, .accum, .intc, .host, .io] s (refreshSheet s) :=
  changesOnly_of_kept (@kept_refreshSheet _ (has_of rfl) (has_of rfl) (has_of rfl) (has_of rfl) (has_of rfl) s)

theorem changesOnly.vault_eq {l : List Part} {s t : State} (h : changesOnly l s t) (hl : Part.vault ∉ l) :
    t.vault = s.vault := by
  obtain ⟨-, -, -, -, -, -, -, -, -, -, -, -, -, -, -, -, hvault, -⟩ := h
  exact hvault.resolve_left hl

theorem changesOnly.jobs_eq {l : List Part} {s t : State} (h : changesOnly l s t) (hl : Part.jobs ∉ l) :
    t.jobs = s.jobs := by
  obtain ⟨-, -, -, -, hjobs, -⟩ := h
  exact hjobs.resolve_left hl

theorem changesOnly.sheet_eq {l : List Part} {s t : State} (h : changesOnly l s t) (hl : Part.sheet ∉ l)
    (hlog : Part.sheetLog ∉ l) : t.sheet = s.sheet := by
  obtain ⟨-, -, -, -, -, -, -, -, -, -, -, -, -, -, -, -, -, -, -, hsheet, hentries, -⟩ := h
  calc t.sheet = { sheetOf t.sheet with entries := t.sheet.entries } := rfl
    _ = { sheetOf s.sheet with entries := s.sheet.entries } := by rw [hsheet.resolve_left hl, hentries.resolve_left hlog]
    _ = s.sheet := rfl

/-- A tamper event leaves the vault's word, its slots and Banks G and H as the wipe left them. -/
theorem tamper_leaves {s : State} {c : TamperCause} {ns : Nat} (hon : s.boot.phase ≠ .off) (h : c ≠ .pin ∨ 1000 < ns) :
    vaultWordSame (tamperWiped s c) (tamper s c ns) ∧ (tamper s c ns).vault.slots = [] ∧
      (tamper s c ns).mem = (tamperWiped s c).mem := by
  rw [tamper_certain hon h]
  split
  · have hsheet := changes_refreshSheet (tamperWiped s c)
    refine ⟨(vaultWordSame_refreshSheet _).trans (vaultWordSame_recordFault _ _ _ _), ?_, ?_⟩
    · rw [recordFault_vault, hsheet.vault_eq (by decide)]
      rfl
    · rw [recordFault_mem, hsheet.mem_eq (by decide) (by decide)]
  · exact ⟨.of_regs rfl, rfl, rfl⟩

/-! TAMPER_CLR. -/

/-- The vault built anew after a tamper event. -/
def tamperRebuilt (s : State) : State :=
  let cleared := put (put s Reg.vaultStatusTamperLatch 0) Reg.vaultStatusTamperCause 0
  refreshSheet (writeKeys (buildKeys cleared (curSlot cleared) nextGen))

theorem tamperClear_latched {s : State} {w : Nat} (hgo : bitAt w 0 = true)
    (hlatch : flag s Reg.vaultStatusTamperLatch = true) :
    tamperClear s w = journal (tamperRebuilt s) 0x0021
      (leBytes 1 (get s Reg.vaultStatusTamperCause) ++ leBytes 1 s.vault.tamperPower) := by
  rw [tamperClear, if_neg (by simp [hgo, hlatch])]
  rfl

theorem tamperClear_idle {s : State} (hlatch : flag s Reg.vaultStatusTamperLatch = false) (w : Nat) :
    tamperClear s w = s := if_pos (.inr (by rw [hlatch]; rfl))

theorem tamperRebuilt_word (s : State) : get (tamperRebuilt s) Reg.vaultStatusTamperLatch = 0 ∧
    get (tamperRebuilt s) Reg.vaultStatusTamperCause = 0 := by
  have hword : vaultWordSame (put (put s Reg.vaultStatusTamperLatch 0) Reg.vaultStatusTamperCause 0)
      (tamperRebuilt s) :=
    ((vaultWordSame_buildKeys _ _ _).trans (vaultWordSame_writeKeys _)).trans (vaultWordSame_refreshSheet _)
  refine ⟨(hword _ (by decide)).trans ?_, (hword _ (by decide)).trans (get_put_same _ _ _)⟩
  exact (get_put_ne _ _ _ _ (by decide)).trans (get_put_same _ _ _)

theorem tamperRebuilt_jobs (s : State) : (tamperRebuilt s).jobs = s.jobs ∧ (tamperRebuilt s).sheet = s.sheet := by
  have hrebuilt : changesOnly [.registers, .accum, .intc, .host, .io, .vault, .draws] s (tamperRebuilt s) := by
    apply changesOnly_of_kept
    unfold tamperRebuilt
    rw [@kept_refreshSheet _ (has_of rfl) (has_of rfl) (has_of rfl) (has_of rfl) (has_of rfl), @kept_writeKeys _ (has_of rfl),
      @kept_buildKeys _ (has_of rfl) (has_of rfl) (has_of rfl) (has_of rfl), @kept_put _ (has_of rfl),
      @kept_put _ (has_of rfl)]
  exact ⟨hrebuilt.jobs_eq (by decide), hrebuilt.sheet_eq (by decide) (by decide)⟩

/-- Settles O29, clause by clause: a remask, an entropy failure, a tamper event and its clearing. -/
theorem remaskingAndTamper : Obligations.RemaskingAndTamper := by
  unfold Obligations.RemaskingAndTamper
  refine ⟨fun s haloft hdrbg => ?_, fun s hdrbg => ?_, fun s haloft => ?_, fun s hnot hpower => ?_,
    fun s haloft hroom => ?_, fun s c ns hon hacts => ?_, fun s ns hns => ?_, fun s m w hacc hgo hlatch => ?_,
    fun s m w hacc hlatch => ?_⟩
  case refine_1 =>
    obtain ⟨⟨slots, g, n, hframe⟩, hkeys⟩ := remasked_foldl (s.vault.slots.map fun e => e.1) s
    have hregs : ((s.vault.slots.map fun e => e.1).foldl remaskSlot s).regs = s.regs := by rw [hframe]
    refine ⟨_, congrArg Host.Outcome.next (remask_passes haloft hdrbg), fun i => (hkeys i).1, fun i => (hkeys i).2, rfl,
      ?_, ((regsSame.refl s _).congr hregs).bump List.mem_cons_self, ?_⟩
    · exact (get_bump_same _ _).trans
        (congrArg (fun n => min (2 ^ Reg.remaskStatusPasses.width - 1) (n + 1)) (get_congr _ s _ hregs))
    · rw [remaskPass, hframe]
      rfl
  case refine_2 => exact congrArg Host.Outcome.next (remask_failed hdrbg)
  case refine_3 =>
    have hfails : entropyFailure s = recordFault (put s Reg.vaultStatusDrbgFault 1) 0x0030 0 0 := if_pos haloft
    refine ⟨_, congrArg Host.Outcome.next hfails, flag_of_get (get_recordFault_put (by decide) _ _ _ _), ?_⟩
    rw [recordFault_vault, put_vault]
  case refine_4 =>
    have hfails : entropyFailure s = { put s Reg.vaultStatusDrbgFault 1 with vault.entropyUnreported := true } :=
      (if_neg (by simp [hnot])).trans (if_pos hpower)
    exact congrArg Host.Outcome.next hfails
  case refine_5 =>
    have hfails : entropyFailure s = recordFault (put s Reg.vaultStatusDrbgFault 1) 0x0030 0 0 := if_pos haloft
    exact ⟨_, congrArg Host.Outcome.next hfails,
      exists_rec_recordFault (s := put s Reg.vaultStatusDrbgFault 1) hroom 0x0030 0 0⟩
  case refine_6 =>
    obtain ⟨hword, hslots, hmem⟩ := tamper_leaves (s := s) hon hacts
    refine ⟨tamper s c ns, rfl, ?_, ?_, hslots, fun i => ?_, ?_, ?_⟩
    · exact flag_of_get ((hword _ (by decide)).trans (get_tamperWiped_latch s c))
    · rw [hword _ (by decide), bitAt_tamperWiped_cause]
    · rw [keyOf, slotOf, hslots]
      rfl
    · rw [hmem]
      rfl
    · rw [hmem]
      rfl
  case refine_7 => exact congrArg Host.Outcome.next (tamper_short s hns)
  case refine_8 =>
    have haccess := accessWrite_accepted s m 0xC0044 (tamperClear · w.toNat) hacc
    rw [tamperClear_latched hgo hlatch] at haccess
    obtain ⟨hlatch', hcause⟩ := tamperRebuilt_word s
    obtain ⟨hjobs, hsheet⟩ := tamperRebuilt_jobs s
    have hasked := asked_journal (tamperRebuilt s) 0x0021
      (leBytes 1 (get s Reg.vaultStatusTamperCause) ++ leBytes 1 s.vault.tamperPower)
    refine ⟨_, congrArg Host.Outcome.next haccess, ?_, ?_, hasked.congr hjobs.symm hsheet.symm ?_ ?_⟩
    · rw [get_answered, get_journal_ne _ _ _ _ (by decide), hlatch']
    · rw [get_answered, get_journal_ne _ _ _ _ (by decide), hcause]
    · rw [noteGrant_jobs, answer_jobs]
    · rw [noteGrant_sheet, answer_sheet]
  case refine_9 =>
    have haccess := accessWrite_accepted s m 0xC0044 (tamperClear · w.toNat) hacc
    rw [tamperClear_idle hlatch] at haccess
    refine ⟨_, congrArg Host.Outcome.next haccess, regsSame_answered (regsSame.refl s []) _ _ _, ?_⟩
    apply State.eq_of_parts <;> simp

end Sys2Proof.Machine
end

section
/-!
The state before power: every field at its Reset value, nothing listed and nothing revoked.
-/
namespace Sys2Proof.Machine

/-- Settles O2: the reset state lists no register, so each field reads its Reset value, and the rest is read off it. -/
theorem resetLeavesTheBlockOff : Obligations.ResetLeavesTheBlockOff := by
  unfold Obligations.ResetLeavesTheBlockOff
  have hreset (f : Fld) : get State.reset f = f.reset := rfl
  refine ⟨rfl, rfl, hreset, hreset _, by decide, by decide, ?_, rfl, rfl⟩
  simp only [slotsAddUp, hreset]
  decide

end Sys2Proof.Machine
end

section
/-!
Resets and supply (R274, R411, R413, R430, R443): what a device reset keeps and what it clears, the release of the switch die,
and the readings of VBAT and temperature.
-/
namespace Sys2Proof.Machine

/-! Fields put one after another. -/

/-- The fields of a list put to given values, one after another. -/
def putFlds (v : Fld → Nat) (l : List Fld) (s : State) : State := l.foldl (fun st f => put st f (v f)) s

theorem putFlds_frame (v : Fld → Nat) (l : List Fld) (s : State) : putFlds v l s = { s with regs := (putFlds v l s).regs } := by
  induction l generalizing s with
  | nil => rfl
  | cons f l ih => exact ih (put s f (v f))

theorem get_putFlds_notMem {v : Fld → Nat} {l : List Fld} {g : Fld} (h : ∀ f ∈ l, g.key ≠ f.key) (s : State) :
    get (putFlds v l s) g = get s g := by
  induction l generalizing s with
  | nil => rfl
  | cons f l ih =>
    rw [List.forall_mem_cons] at h
    exact (ih h.2 _).trans (get_put_ne _ _ _ _ h.1)

theorem get_putFlds_mem {v : Fld → Nat} {l : List Fld} (hapart : (l.map Fld.key).Nodup) {g : Fld} (hg : g ∈ l) (s : State) :
    get (putFlds v l s) g = v g % 2 ^ g.width := by
  induction l generalizing s with
  | nil => cases hg
  | cons f l ih =>
    rw [List.map_cons, List.nodup_cons] at hapart
    rcases List.mem_cons.1 hg with rfl | hl
    · have hrest : ∀ f ∈ l, g.key ≠ f.key := fun f hf heq =>
        hapart.1 (List.mem_map.2 ⟨f, hf, heq.symm⟩)
      exact (get_putFlds_notMem hrest _).trans (get_put_same _ _ _)
    · exact ih hapart.2 hl _

/-! A device reset. -/

theorem keptFlds_apart : (keptFlds.map Fld.key).Nodup := by decide +kernel

/-- What a device reset does, its registers apart: supply gone, but for what the always-on domain keeps. -/
theorem deviceReset_frame (s : State) (cause : Nat) : deviceReset s cause = { powerOff s with
    regs := (deviceReset s cause).regs
    vault := { (powerOff s).vault with
      tamperPower := s.vault.tamperPower, tamperUnreported := s.vault.tamperUnreported
      entropyUnreported := s.vault.entropyUnreported }
    fault := { (powerOff s).fault with toJournal := s.fault.toJournal }
    net := { (powerOff s).net with partnerSig := s.net.partnerSig, trainedAs := s.net.trainedAs }
    cont := { (powerOff s).cont with pinLatched := s.cont.pinLatched }
    wake := { (powerOff s).wake with
      globals := wakeInForce s, sleepDecoders := s.wake.sleepDecoders, decoders := s.wake.sleepDecoders
      armed := !s.wake.sleepDecoders.isEmpty }
    boot := { (powerOff s).boot with
      phase := .inReset, phaseAt := s.time.now, cause := cause, thermalHeld := s.boot.thermalHeld } } :=
  putFlds_frame (get s) keptFlds _

/-- Policy and banks go in a device reset; fuses, the scoresheet's entries and flash stay (R411, R412). -/
theorem deviceReset_keeps (s : State) (cause : Nat) : (deviceReset s cause).env.policy = [] ∧
    (deviceReset s cause).otp = s.otp ∧ (deviceReset s cause).sheet.entries = s.sheet.entries ∧
    (deviceReset s cause).mem.bankS = [] ∧ (deviceReset s cause).mem.bankG = [] ∧ (deviceReset s cause).mem.bankH = [] ∧
    (deviceReset s cause).mem.flashA = s.mem.flashA ∧ (deviceReset s cause).mem.flashB = s.mem.flashB := by
  rw [deviceReset_frame]
  exact ⟨rfl, rfl, rfl, rfl, rfl, rfl, rfl, rfl⟩

/-- A field that outlives a device reset keeps its value (R412). -/
theorem get_deviceReset_kept {f : Fld} (hf : f ∈ keptFlds) (s : State) (cause : Nat) :
    get (deviceReset s cause) f = get s f % 2 ^ f.width :=
  get_putFlds_mem (v := get s) keptFlds_apart hf _

/-- FAULT_N is asserted by a device reset (R416). -/
theorem get_deviceReset_faultN (s : State) (cause : Nat) : get (deviceReset s cause) Reg.fcStatusFaultN = 1 :=
  (get_putFlds_notMem (v := get s) (by decide +kernel) _).trans (get_putFlag_same _ _ _)

/-! The release of the switch die. -/

/-- What a wake sends out shows in PE_WAKE_N alone, and leaves where the device stands. -/
theorem wakeOutside_leaves (s : State) : regsSame s (wakeOutside s) [Reg.hbStatusPeWake] ∧ (wakeOutside s).boot = s.boot := by
  have hsent (l : List Nat) (u : State) : (l.foldl (fun st p => emit st (.tc10Wake p)) u).regs = u.regs ∧
      (l.foldl (fun st p => emit st (.tc10Wake p)) u).boot = u.boot := by
    induction l generalizing u with
    | nil => exact ⟨rfl, rfl⟩
    | cons p l ih => exact ih _
  obtain ⟨hregs, hboot⟩ := hsent ((bitList (leAt s.wake.globals 32 8) 48).filter fun p => t1Port p && linkState s p != 3) s
  have hsame := (regsSame.refl s [Reg.hbStatusPeWake]).congr hregs
  unfold wakeOutside
  dsimp only
  split
  · exact ⟨(hsame.put List.mem_cons_self 1).congr rfl, hboot⟩
  · exact ⟨hsame, hboot⟩

/-- The measurements at the release leave where the device stands. -/
theorem measureAll_boot (s : State) : (measureAll s).boot = s.boot :=
  (changesOnly_of_kept (@kept_measureAll [.registers, .draws] (has_of rfl) (has_of rfl) s)).boot_eq (by decide)

/-- The release of the switch die starts memory initialisation, with the straps sampled and the boot's cause shown. -/
theorem releaseDie_shown (s : State) (st : Straps) :
    (releaseDie s st).boot = { s.boot with phase := .memInit, phaseAt := s.time.now, straps := st } ∧
      get (releaseDie s st) Reg.bootStatusCause = s.boot.cause % 2 ^ Reg.bootStatusCause.width := by
  have hcause (u : State) (b : Nat) (r : Bool) :
      get (putFlag (put (put u Reg.bootStatusCause s.boot.cause) Reg.bootStatusBootSel b) Reg.bootStatusRecovery r)
        Reg.bootStatusCause = s.boot.cause % 2 ^ Reg.bootStatusCause.width :=
    (get_putFlag_ne _ _ _ _ (by decide)).trans ((get_put_ne _ _ _ _ (by decide)).trans (get_put_same _ _ _))
  unfold releaseDie
  dsimp only
  split
  · obtain ⟨hregs, hboot⟩ := wakeOutside_leaves (putFlag (put (put (measureAll { s with
      boot := { s.boot with phase := .memInit, phaseAt := s.time.now, straps := st }, wake := { s.wake with armed := false } })
      Reg.bootStatusCause s.boot.cause) Reg.bootStatusBootSel st.bootSel) Reg.bootStatusRecovery (!st.recoveryN))
    exact ⟨hboot.trans (measureAll_boot _), (hregs _ (by decide)).trans (hcause _ _ _)⟩
  · exact ⟨measureAll_boot _, hcause _ _ _⟩

/-! Readings. -/

/-- The fields a reading of VBAT shows. -/
def vbatFlds : List Fld :=
  [Reg.supplyStatusVbat, Reg.vbatRangeVbatMin, Reg.vbatRangeVbatMax, Reg.supplyStatusLowVbat,
    Reg.supplyStatusHighVbat, Reg.supplyEventsLowSeen, Reg.supplyEventsHighSeen]

section
variable (s : State) (cv : Nat)

/-- A reading of VBAT changes the registers and the counter of free values alone. -/
theorem vbatReads_frame : vbatReads s cv = { s with regs := (vbatReads s cv).regs, freeCtr := (vbatReads s cv).freeCtr } := by
  unfold vbatReads
  dsimp only
  split_ifs <;> rfl

theorem vbatReads_regsSame : regsSame s (vbatReads s cv) vbatFlds := by
  have hshown (u : State) (v : Nat) (hu : u.regs = s.regs) : regsSame s (putFlag (putFlag (showVbat u v)
      Reg.supplyStatusLowVbat (cv < 900)) Reg.supplyStatusHighVbat (6000 < cv)) vbatFlds :=
    ((((((regsSame.refl s _).congr hu).put (by simp [vbatFlds]) _).put (by simp [vbatFlds]) _).put (by simp [vbatFlds]) _).putFlag
      (by simp [vbatFlds]) _).putFlag (by simp [vbatFlds]) _
  unfold vbatReads
  dsimp only
  split_ifs
  · exact ((hshown _ _ rfl).put (by simp [vbatFlds]) _).put (by simp [vbatFlds]) _
  · exact (hshown _ _ rfl).put (by simp [vbatFlds]) _
  · exact (hshown _ _ rfl).put (by simp [vbatFlds]) _
  · exact hshown _ _ rfl

/-- The reading of VBAT with its flags, before the seen bits. -/
def vbatShown (s : State) (cv : Nat) : State :=
  let lo := divUp (cv * 98) 250
  let d := draw s (max 1 (cv * 102 / 250 + 1 - lo))
  putFlag (putFlag (showVbat d.2 (lo + d.1)) Reg.supplyStatusLowVbat (cv < 900)) Reg.supplyStatusHighVbat (6000 < cv)

/-- The seen bits of VBAT set for its level. -/
def vbatSeen (s : State) (cv : Nat) : State :=
  let low := if cv < 900 then put s Reg.supplyEventsLowSeen 1 else s
  if 6000 < cv then put low Reg.supplyEventsHighSeen 1 else low

theorem vbatReads_eq : vbatReads s cv = vbatSeen (vbatShown s cv) cv := by
  simp only [vbatReads, vbatSeen, vbatShown]

theorem get_vbatSeen_ne {f : Fld} (hlow : f.key ≠ Reg.supplyEventsLowSeen.key) (hhigh : f.key ≠ Reg.supplyEventsHighSeen.key) :
    get (vbatSeen s cv) f = get s f := by
  unfold vbatSeen
  dsimp only
  split_ifs <;> simp only [get_put_ne _ _ _ _ hlow, get_put_ne _ _ _ _ hhigh]

theorem get_vbatSeen_low (h : cv < 900) : get (vbatSeen s cv) Reg.supplyEventsLowSeen = 1 := by
  have hhigh : ¬ 6000 < cv := by omega
  simp only [vbatSeen, if_pos h, if_neg hhigh]
  exact get_put_same _ _ _

theorem get_vbatSeen_high (h : 6000 < cv) : get (vbatSeen s cv) Reg.supplyEventsHighSeen = 1 := by
  simp only [vbatSeen, if_pos h]
  exact get_put_same _ _ _

theorem flag_putFlag_same (u : State) {f : Fld} (hwidth : f.width = 1) (b : Bool) : flag (putFlag u f b) f = b := by
  rw [flag, get_putFlag_same, hwidth]
  cases b <;> rfl

/-- The flags of VBAT's range show its level. -/
theorem flag_vbatReads : flag (vbatReads s cv) Reg.supplyStatusLowVbat = decide (cv < 900) ∧
    flag (vbatReads s cv) Reg.supplyStatusHighVbat = decide (6000 < cv) := by
  rw [vbatReads_eq]
  constructor
  · rw [flag, get_vbatSeen_ne _ _ (by decide) (by decide), vbatShown, get_putFlag_ne _ _ _ _ (by decide)]
    exact flag_putFlag_same _ rfl _
  · rw [flag, get_vbatSeen_ne _ _ (by decide) (by decide)]
    exact flag_putFlag_same _ rfl _

end

/-- A temperature from the warning up to the sensor's limit reads as it is. -/
theorem reading_of_hot {temp : Int} (hhot : 560 ≤ temp) (hlimit : temp < 1024) :
    unsigned 11 temp = temp.toNat ∧ signed 11 temp.toNat = temp := by
  unfold unsigned signed
  split_ifs <;> omega

section
variable {s : State} {i : Nat} {temp : Int}

/-- A sensor's reading shows in its own field. -/
theorem get_showTemp : get (showTemp s i temp) (Reg.tempTemp i) = unsigned 11 temp % 2 ^ 11 := by
  have hapart : (Reg.tempTemp i).key ≠ (Reg.tempPeak i).key := by
    simp only [Fld.key, Reg.tempTemp, Reg.tempPeak]
    omega
  unfold showTemp
  dsimp only
  split_ifs
  · exact (get_put_ne _ _ _ _ hapart).trans (get_put_same _ _ _)
  · exact get_put_same _ _ _

theorem showTemp_regsSame : regsSame s (showTemp s i temp) [Reg.tempTemp i, Reg.tempPeak i] := by
  have hshown := (regsSame.refl s [Reg.tempTemp i, Reg.tempPeak i]).put List.mem_cons_self (unsigned 11 temp)
  unfold showTemp
  dsimp only
  split_ifs
  · exact hshown.put (by simp) _
  · exact hshown

theorem showTemp_frame : showTemp s i temp = { s with regs := (showTemp s i temp).regs } := by
  unfold showTemp
  dsimp only
  split_ifs <;> rfl

end

theorem tempFlds_apart : ∀ i : Fin 4,
    (Reg.tempTemp i).key ≠ Reg.supplyStatusThermWarn.key ∧ (Reg.tempTemp i).key ≠ Reg.supplyEventsThermSeen.key ∧
      ([Reg.tempTemp i, Reg.tempPeak i].all fun f => Reg.supplyStatusThermWarn.key != f.key) = true := by decide

/-- A hot sensor sets THERM_WARN, and THERM_SEEN with it where the warning is new. -/
theorem thermReads_hot {s : State} {i : Nat} (hi : i < 4) (hhot : 560 ≤ signed 11 (get s (Reg.tempTemp i)))
    (hnew : flag s Reg.supplyStatusThermWarn = false) :
    thermReads s = put (putFlag s Reg.supplyStatusThermWarn true) Reg.supplyEventsThermSeen 1 := by
  have hany : ((List.range 4).any fun k => decide (560 ≤ signed 11 (get s (Reg.tempTemp k)))) = true :=
    List.any_eq_true.2 ⟨i, List.mem_range.2 hi, decide_eq_true hhot⟩
  unfold thermReads
  rw [hany, hnew]
  rfl

/-! What ends a supply or a reset. -/

theorem resetAssert_long {s : State} {ns : Nat} (hlong : 1000 ≤ ns) (haloft : s.boot.phase = .aloft) :
    resetAssert s ns = { deviceReset s 1 with boot.resetPin := true } := by
  have hnot : ¬ ns < 100 := by omega
  simp only [resetAssert, if_neg hnot, if_pos hlong, beginReset_of_aloft haloft]

theorem thermalTrip_aloft {s : State} (haloft : s.boot.phase = .aloft) :
    thermalTrip s = { deviceReset s 1 with boot.thermalHeld := true } := by
  rw [thermalTrip, if_neg (by rw [haloft]; decide), beginReset_of_aloft haloft]

/-- A write of RESET_REQ that is accepted is performed (R413). -/
theorem resetReq_accepted {s : State} {m : Master} {w : Nat} (h : accepts s m 0x10 = true) :
    resetReq s m w = noteGrant (answer (resetWrite s m w) m .done) 0x10 m := by
  have haloft : aloft s = true := by
    rw [accepts, Bool.and_eq_true, Bool.and_eq_true] at h
    exact h.1.2
  rw [resetReq, resetEarly_of_aloft haloft, if_neg Bool.false_ne_true]
  exact accessWrite_accepted _ _ _ _ h

/-- Settles O49, clause by clause: RESET_N, RESET_REQ, a thermal trip, the loss of VBAT and the readings. -/
theorem resetsAndSupply : Obligations.ResetsAndSupply := by
  unfold Obligations.ResetsAndSupply
  refine ⟨fun s ns hlong haloft => ?_, fun s ns hshort => ?_, fun s st hphase hpin hheld => ?_,
    fun s m w hacc hkey hmay => ?_, fun s m w hacc hkey => ?_, fun s haloft => ?_, fun s hphase hheld hpin => ?_,
    fun s hon => ?_, fun s cv hon => ?_, fun s i temp hon hhot hlimit hnew => ?_⟩
  case refine_1 =>
    have hsticky : ∀ f ∈ [Reg.vaultStatusTamperLatch, Reg.vaultStatusTamperCause, Reg.fcSafeCode, Reg.fcSafeByEsc,
        Reg.fcSafeTempo] ++ wakeCauseFlds, get (deviceReset s 1) f = get s f % 2 ^ f.width := fun f hf =>
      get_deviceReset_kept (List.mem_append_left _ (List.mem_append_left _ hf)) s 1
    have hfaultN := get_deviceReset_faultN s 1
    obtain ⟨hphase, hcause, -⟩ := deviceReset_boot s 1
    obtain ⟨hpolicy, hotp, hentries, hS, hG, hH, hA, hB⟩ := deviceReset_keeps s 1
    refine ⟨_, congrArg Host.Outcome.next (resetAssert_long hlong haloft), ?_⟩
    generalize deviceReset s 1 = u at *
    exact ⟨hphase, rfl, hcause, hfaultN, hS, hG, hH, hpolicy, hA, hB, hotp, hentries, hsticky⟩
  case refine_2 => exact congrArg Host.Outcome.next (if_pos hshort)
  case refine_3 =>
    have hrelease : resetRelease s st = releaseDie { s with boot.resetPin := false } st :=
      if_pos ⟨hphase, hpin, by rw [hheld]; rfl⟩
    obtain ⟨hboot, hcause⟩ := releaseDie_shown { s with boot.resetPin := false } st
    exact ⟨_, congrArg Host.Outcome.next hrelease, by rw [hboot], by rw [hboot], by rw [hboot], hcause⟩
  case refine_4 =>
    have haloft : s.boot.phase = .aloft := by
      rw [accepts, Bool.and_eq_true, Bool.and_eq_true] at hacc
      exact phase_of_aloft hacc.1.2
    have hreset : resetWrite s m w.toNat = deviceReset s 2 :=
      (if_pos ⟨hkey, hmay⟩).trans (beginReset_of_aloft haloft 2)
    refine ⟨_, congrArg Host.Outcome.next (resetReq_accepted hacc), ?_⟩
    rw [hreset, noteGrant_boot, answer_boot, noteGrant_otp, answer_otp]
    exact ⟨(deviceReset_boot s 2).1, (deviceReset_boot s 2).2.1, (deviceReset_keeps s 2).2.1⟩
  case refine_5 =>
    have hnone : resetWrite s m w.toNat = s := if_neg fun h => hkey h.1
    refine ⟨_, congrArg Host.Outcome.next (resetReq_accepted hacc), ?_⟩
    rw [hnone, noteGrant_boot, answer_boot]
    exact ⟨regsSame_answered (regsSame.refl s []) _ _ _, rfl⟩
  case refine_6 =>
    exact ⟨_, congrArg Host.Outcome.next (thermalTrip_aloft haloft), (deviceReset_boot s 1).1, rfl, (deviceReset_boot s 1).2.1⟩
  case refine_7 =>
    have hclear : ∃ st u, thermalClear s = releaseDie u st ∧ u.boot = { s.boot with thermalHeld := false } :=
      ⟨_, _, if_pos ⟨hphase, hheld, by rw [hpin]; rfl⟩, rfl⟩
    obtain ⟨st, u, hrelease, hu⟩ := hclear
    obtain ⟨hboot, -⟩ := releaseDie_shown u st
    exact ⟨_, congrArg Host.Outcome.next hrelease, by rw [hboot], by rw [hboot, hu]⟩
  case refine_8 =>
    exact ⟨powerOff s, congrArg Host.Outcome.next (if_neg hon), rfl, rfl, rfl, rfl, rfl, rfl, rfl, rfl⟩
  case refine_9 =>
    obtain ⟨hlow, hhigh⟩ := flag_vbatReads s cv
    refine ⟨_, congrArg Host.Outcome.next (if_neg hon), hlow, hhigh, fun h => ?_, fun h => ?_, vbatReads_regsSame s cv,
      vbatReads_frame s cv⟩
    · rw [vbatReads_eq]
      exact get_vbatSeen_low _ _ h
    · rw [vbatReads_eq]
      exact get_vbatSeen_high _ _ h
  case refine_10 =>
    obtain ⟨hwarnApart, hseenApart, hothers⟩ := tempFlds_apart i
    obtain ⟨hreads, hsigned⟩ := reading_of_hot hhot hlimit
    have htemp : get (showTemp s i temp) (Reg.tempTemp i) = temp.toNat := by
      rw [get_showTemp, hreads]
      omega
    have hwarm : flag (showTemp s i temp) Reg.supplyStatusThermWarn = false := by
      rw [flag, showTemp_regsSame _ hothers]
      exact hnew
    have hsets := thermReads_hot i.isLt (by rw [htemp, hsigned]; exact hhot) hwarm
    refine ⟨_, congrArg Host.Outcome.next ((if_neg hon).trans hsets), ?_, ?_, get_put_same _ _ _, ?_, ?_⟩
    · rw [get_put_ne _ _ _ _ hseenApart, get_putFlag_ne _ _ _ _ hwarnApart, htemp]
    · exact (get_put_ne _ _ _ _ (by decide)).trans (get_putFlag_same _ _ _)
    · exact ((showTemp_regsSame.mono (by simp)).putFlag (by simp) _).put (by simp) _
    · rw [showTemp_frame]
      rfl

end Sys2Proof.Machine
end

section
/-!
What a descent and a wake leave of the pace of the device: the tempo's number and period, the budget of the safety pair, the
phase and target of descent, READY and the count of descents. No frame or message discarded, no slot freed and no message
received writes one of them.
-/
namespace Sys2Proof.Machine

/-! Listed fields kept. -/

/-- The listed fields read the same in both states. -/
def fldsSame (l : List Fld) (s t : State) : Prop := ∀ g ∈ l, get t g = get s g

/-- A field apart from those of a list. -/
abbrev apartFrom (l : List Fld) (f : Fld) : Prop := ∀ g ∈ l, g.key ≠ f.key

section
variable {l : List Fld} {s t u : State}

theorem fldsSame.refl (l : List Fld) (s : State) : fldsSame l s s := fun _ _ => rfl

theorem fldsSame.trans (h : fldsSame l s t) (k : fldsSame l t u) : fldsSame l s u := fun g hg => (k g hg).trans (h g hg)

theorem fldsSame.of_regs (h : t.regs = s.regs) : fldsSame l s t := fun _ _ => get_congr _ _ _ h

theorem fldsSame.congr (h : fldsSame l s t) (hu : u.regs = t.regs) : fldsSame l s u := h.trans (.of_regs hu)

theorem fldsSame.of_regsSame {k : List Fld} (h : regsSame s t k) (hk : ∀ f ∈ k, apartFrom l f) : fldsSame l s t :=
  fun g hg => h g (List.all_eq_true.2 fun f hf => bne_iff_ne.2 (hk f hf g hg))

theorem fldsSame.put (h : fldsSame l s t) {f : Fld} (hf : apartFrom l f) (v : Nat) : fldsSame l s (put t f v) :=
  fun g hg => (get_put_ne _ _ _ _ (hf g hg)).trans (h g hg)

theorem fldsSame.putFlag (h : fldsSame l s t) {f : Fld} (hf : apartFrom l f) (b : Bool) : fldsSame l s (putFlag t f b) :=
  h.put hf _

theorem fldsSame.bumpBy (h : fldsSame l s t) {f : Fld} (hf : apartFrom l f) (n : Nat) : fldsSame l s (bumpBy t f n) :=
  fun g hg => (get_bumpBy_ne _ _ _ _ (hf g hg)).trans (h g hg)

theorem fldsSame.bump (h : fldsSame l s t) {f : Fld} (hf : apartFrom l f) : fldsSame l s (bump t f) := h.bumpBy hf 1

end

theorem fldsSame_foldl {l : List Fld} {α : Type} (g : State → α → State) (hg : ∀ s x, fldsSame l s (g s x)) (xs : List α)
    (s : State) : fldsSame l s (xs.foldl g s) := by
  induction xs generalizing s with
  | nil => exact .refl l s
  | cons x xs ih => exact (hg s x).trans (ih _)

theorem fldsSame_forIdx {l : List Fld} (n : Nat) (g : Nat → State → State) (hg : ∀ i s, fldsSame l s (g i s)) (s : State) :
    fldsSame l s (forIdx n g s) := fldsSame_foldl _ (fun s i => hg i s) _ s

/-! The pace kept. -/

/-- The fields that pace the device. -/
def paceFlds : List Fld :=
  [Reg.tempoNum, Reg.tempoCfgK, Reg.tempoBudgetSpFrac, Reg.pwrStatusPhase, Reg.pwrStatusTarget, Reg.bootStatusReady,
    Reg.descentsDescents]

/-- The fields that pace the device read the same in both states. -/
abbrev paceSame (s t : State) : Prop := fldsSame paceFlds s t

/-- A field apart from those that pace the device. -/
abbrev offPace (f : Fld) : Prop := apartFrom paceFlds f

theorem offPace_of_high {f : Fld} (h : 0x40000 * 32 ≤ f.key) : offPace f := by
  have hlow : ∀ g ∈ paceFlds, g.key < 0x40000 * 32 := by decide
  exact fun g hg heq => absurd (hlow g hg) (by omega)

theorem paceSame_of_lowSame {s t : State} (h : lowSame s t) : paceSame s t := by
  have hlow : ∀ g ∈ paceFlds, g.key < 0x810000 * 32 := by decide
  exact fun g hg => h g (hlow g hg)

theorem paceSame_raiseSource (s : State) (n : Nat) : paceSame s (raiseSource s n) := by
  refine .of_regsSame ((regsSame.refl s _).raise n fun _ h => h) ?_
  simp only [raiseFields, List.forall_mem_cons]
  refine ⟨offPace_of_high ?_, by decide, by decide, by decide, fun _ h => absurd h List.not_mem_nil⟩
  simp only [Fld.key, Reg.srcCfgState]
  omega

/-! Buffers and counts of units. -/

theorem paceSame_showPools (s : State) : paceSame s (showPools s) :=
  .of_regsSame (k := poolFlds) ((regsSame.refl s _).showPools fun _ h => h) (by decide)

theorem paceSame_giveCells (s : State) (pool port n : Nat) : paceSame s (giveCells s pool port n) := by
  have hpools {t : State} (h : t.regs = s.regs) : paceSame s (showPools t) :=
    (fldsSame.of_regs h).trans (paceSame_showPools t)
  unfold giveCells
  split <;> exact hpools rfl

theorem offPace_inflight (i : Nat) : offPace (Reg.inflightCount i) :=
  offPace_of_high (by simp only [Fld.key, Reg.inflightCount]; omega)

theorem paceSame_untagUnit (s : State) (slot : Nat) : paceSame s (untagUnit s slot) := by
  unfold untagUnit
  split
  · exact (fldsSame.refl paceFlds s).put (offPace_inflight slot) _
  · exact .refl _ s

/-! What is discarded (R280). -/

/-- What discarding leaves: the pace, and of the frames the queues, the recirculation queue and the MACs. -/
structure Discarded (s t : State) : Prop where
  pace : paceSame s t
  queues : t.net.queues = s.net.queues
  recirc : t.net.recirc = s.net.recirc
  macs : t.net.macs = s.net.macs

section
variable {s t u : State}

theorem Discarded.refl (s : State) : Discarded s s := ⟨.refl _ s, rfl, rfl, rfl⟩

theorem Discarded.trans (h : Discarded s t) (k : Discarded t u) : Discarded s u :=
  ⟨h.pace.trans k.pace, k.queues.trans h.queues, k.recirc.trans h.recirc, k.macs.trans h.macs⟩

theorem Discarded.of_net (h : paceSame s t) (hnet : t.net = s.net) : Discarded s t :=
  ⟨h, by rw [hnet], by rw [hnet], by rw [hnet]⟩

theorem Discarded.bump (h : Discarded s t) {f : Fld} (hf : offPace f) : Discarded s (bump t f) :=
  h.trans (.of_net ((fldsSame.refl paceFlds t).bump hf) rfl)

end

theorem discarded_foldl {α : Type} (g : State → α → State) (hg : ∀ s x, Discarded s (g s x)) (l : List α) (s : State) :
    Discarded s (l.foldl g s) := by
  induction l generalizing s with
  | nil => exact .refl s
  | cons x l ih => exact (hg s x).trans (ih _)

theorem discarded_giveCells (s : State) (pool port n : Nat) : Discarded s (giveCells s pool port n) := by
  refine ⟨paceSame_giveCells s pool port n, ?_, ?_, ?_⟩ <;> unfold giveCells <;> rw [showPools_net] <;> split <;> rfl

theorem discarded_untagUnit (s : State) (slot : Nat) : Discarded s (untagUnit s slot) :=
  .of_net (paceSame_untagUnit s slot) (untagUnit_net s slot)

theorem discarded_releaseMsg (s : State) (q : QMsg) : Discarded s (releaseMsg s q) :=
  (discarded_giveCells s _ _ _).trans (discarded_untagUnit _ _)

theorem discarded_setPacket (s : State) (u : Nat) (pk : Packet) : Discarded s (setPacket s u pk) :=
  ⟨.of_regs rfl, rfl, rfl, rfl⟩

theorem discarded_freePacket (s : State) (u : Nat) : Discarded s (freePacket s u) := by
  have hgone (t : State) : Discarded t (forget t u) := ⟨.of_regs rfl, rfl, rfl, rfl⟩
  have hfreed (t : State) : Discarded t (cellsFreed t u) := ⟨.of_regs rfl, rfl, rfl, rfl⟩
  unfold freePacket
  split
  · exact .refl s
  next pk _ =>
    split
    · split
      · exact hgone s
      · exact .refl s
    · extract_lets s1 s2 net s3
      have h1 : Discarded s s1 := discarded_giveCells s _ _ _
      have h2 : Discarded s1 s2 := by
        dsimp only [s2]
        split
        · exact discarded_untagUnit s1 _
        · exact .refl s1
      have h3 : Discarded s2 s3 := by
        dsimp only [s3]
        split
        · exact hgone s2
        · exact discarded_setPacket s2 u _
      exact ((h1.trans h2).trans h3).trans (hfreed s3)

theorem discarded_dropPolicy (s : State) (u : Nat) : Discarded s (dropPolicy s u) := by
  unfold dropPolicy
  split
  · exact .refl s
  · exact (discarded_setPacket s u _).trans (discarded_freePacket _ u)

theorem offPace_discards : offPace Reg.descentDiscards := by decide

theorem discarded_discardFrame (cut : Bool) (s : State) (u : Nat) : Discarded s (discardFrame cut s u) := by
  have hcounted := (Discarded.refl s).bump offPace_discards
  unfold discardFrame
  split
  · exact .refl s
  · dsimp only
    split_ifs
    · exact .refl s
    · exact hcounted.trans (discarded_dropPolicy _ u)
    · exact hcounted.trans (discarded_setPacket _ u _)
    · exact .refl s

theorem offPace_chDepths (n : Nat) : ∀ f ∈ depthFlds n, offPace f := by
  simp only [depthFlds, List.forall_mem_cons]
  refine ⟨offPace_of_high ?_, offPace_of_high ?_, fun _ h => absurd h List.not_mem_nil⟩ <;>
    simp only [Fld.key, Reg.chStatusTxqDepth, Reg.chStatusRxlDepth] <;> omega

theorem discarded_showDepths (s : State) (n : Nat) : Discarded s (showDepths s n) :=
  .of_net (((fldsSame.refl paceFlds s).put (offPace_chDepths n (Reg.chStatusRxlDepth n) (by simp [depthFlds])) _).put
    (offPace_chDepths n (Reg.chStatusTxqDepth n) (by simp [depthFlds])) _) rfl

theorem discarded_setRxList (s : State) (n : Nat) (l : List EdgeMsg) : Discarded s (setRxList s n l) :=
  Discarded.trans (t := { s with edge.rxList := s.edge.rxList.put n (if l.isEmpty then none else some l) })
    ⟨.of_regs rfl, rfl, rfl, rfl⟩ (discarded_showDepths _ n)

theorem discarded_setTxq (s : State) (n : Nat) (l : List QMsg) : Discarded s (setTxq s n l) :=
  Discarded.trans (t := setAgain { s with edge.txq := s.edge.txq.put n (heldList (returnTo (againOf s n) l).2) } n
    (returnTo (againOf s n) l).1) ⟨.of_regs rfl, rfl, rfl, rfl⟩ (discarded_showDepths _ n)

theorem discarded_setAgain (s : State) (n : Nat) (l : List QMsg) : Discarded s (setAgain s n l) :=
  ⟨.of_regs rfl, rfl, rfl, rfl⟩

theorem discarded_dropReceived (s : State) (x : EdgeMsg) {f : Fld} (hf : offPace f) : Discarded s (dropReceived s x f) :=
  (((Discarded.refl s).bump hf).trans (discarded_giveCells _ _ _ _)).trans (discarded_untagUnit _ _)

theorem discarded_dropSecured (s : State) (j : SecJob) {f : Fld} (hf : offPace f) : Discarded s (dropSecured s j f) := by
  unfold dropSecured
  dsimp only
  refine Discarded.trans ?_ (discarded_untagUnit _ _)
  split
  · exact (Discarded.refl s).bump hf
  · exact .refl s

theorem discarded_discardMsg (s : State) (q : QMsg) : Discarded s (discardMsg s q) :=
  ((Discarded.refl s).bump offPace_discards).trans (discarded_releaseMsg _ q)

theorem discarded_setLin_none (s : State) (n : Nat) : Discarded s (setLin s n none) := by
  refine .of_net ((fldsSame.put (.of_regs rfl) (offPace_of_high ?_) _).put (offPace_of_high ?_) _) rfl <;>
    simp only [Fld.key, Reg.chStatusLinRun, Reg.chStatusLinSlot] <;> omega

theorem discarded_linDrop (s : State) (n : Nat) : Discarded s (linDrop s n) := by
  unfold linDrop
  split
  · exact .refl s
  · dsimp only
    split
    · exact (discarded_setLin_none s n).trans (discarded_releaseMsg _ _)
    · exact discarded_setLin_none s n

theorem discarded_untagged (s : State) (slot : Nat) : Discarded s (untagUnit (bump s Reg.descentDiscards) slot) :=
  ((Discarded.refl s).bump offPace_discards).trans (discarded_untagUnit _ slot)

theorem discarded_withEdge (s : State) (e : EdgeSt) : Discarded s { s with edge := e } := ⟨.of_regs rfl, rfl, rfl, rfl⟩

theorem discarded_restartLin (s : State) : Discarded s (restartLin s) :=
  discarded_foldl _ (fun st _ => discarded_linDrop st _) _ s

/-- A LIN channel dropped leaves the messages offered to the CAN buses. -/
theorem linDrop_offered (s : State) (n : Nat) : (linDrop s n).edge.offered = s.edge.offered := by
  have hnone : (setLin s n none).edge.offered = s.edge.offered := rfl
  unfold linDrop
  split
  · rfl
  · dsimp only
    split
    · rw [releaseMsg_edge, hnone]
    · exact hnone

theorem restartLin_offered (s : State) : (restartLin s).edge.offered = s.edge.offered := by
  have hdrops (l : List Nat) (u : State) :
      (l.foldl (fun st i => linDrop st (16 + i)) u).edge.offered = u.edge.offered := by
    induction l generalizing u with
    | nil => rfl
    | cons i l ih => exact (ih _).trans (linDrop_offered u _)
  exact hdrops _ s

theorem discarded_discardEdge (s : State) (cut : Bool) : Discarded s (discardEdge s cut) := by
  unfold discardEdge
  extract_lets s1 s2 s3 s4 s5 s6 edge s7 s8
  have h1 : Discarded s s1 := discarded_foldl _ (fun st e =>
    (discarded_foldl _ (fun t x => discarded_dropReceived t x offPace_discards) _ st).trans (discarded_setRxList _ _ _)) _ s
  have h2 : Discarded s1 s2 := discarded_foldl _ (fun st e =>
    (discarded_foldl _ discarded_discardMsg _ st).trans (discarded_setAgain _ _ _)) _ s1
  have h3 : Discarded s2 s3 := discarded_foldl _ (fun st e =>
    (discarded_foldl _ discarded_discardMsg _ st).trans (discarded_setTxq _ _ _)) _ s2
  have h4 : Discarded s3 s4 := discarded_foldl _ (fun st j => discarded_dropSecured st j offPace_discards) _ s3
  have h5 : Discarded s4 s5 := discarded_foldl _ (fun st e => discarded_untagged st _) _ s4
  have h6 : Discarded s5 s6 := discarded_foldl _ (fun st e => discarded_foldl _ (fun t x => discarded_untagged t _) _ st) _ s5
  have h7 : Discarded s6 s7 := discarded_withEdge s6 _
  have h8 : Discarded s7 s8 := discarded_foldl _ (fun st e => discarded_discardMsg st _) _ s7
  have hemptied := (((((h1.trans h2).trans h3).trans h4).trans h5).trans h6).trans h7
  split
  · exact ((hemptied.trans h8).trans (discarded_withEdge s8 _)).trans (discarded_restartLin _)
  · exact hemptied

/-- Where edge messages are cut, none is offered to a CAN bus any longer (R281). -/
theorem discardEdge_offered (s : State) : (discardEdge s true).edge.offered = [] := by
  unfold discardEdge
  extract_lets s1 s2 s3 s4 s5 s6 edge s7 s8
  rw [if_pos rfl]
  clear_value s8
  exact restartLin_offered { s8 with edge.offered := [] }

theorem discarded_frames (s : State) (cut : Bool) (l : List Nat) : Discarded s (l.foldl (discardFrame cut) s) :=
  discarded_foldl _ (discarded_discardFrame cut) l s

theorem paceSame_discardFrames (s : State) (cut : Bool) : paceSame s (discardFrames s cut) := by
  have hdepth : offPace Reg.recircStatusDepth := by decide
  have hframes : paceSame s (((s.net.packets.map fun e => e.1).foldl (discardFrame cut) (put { s with
      net.queues := [], net.recirc := [], edge.tunnelIn := [] } Reg.recircStatusDepth 0))) :=
    (fldsSame.put (.of_regs rfl) hdepth 0).trans (discarded_frames _ cut _).pace
  unfold discardFrames
  dsimp only
  split
  · exact hframes.congr rfl
  · exact hframes

/-- What is left of the frames once all are discarded: no queue, no recirculation, and no MAC where they are cut. -/
theorem discardFrames_net (s : State) (cut : Bool) : (discardFrames s cut).net.queues = [] ∧
    (discardFrames s cut).net.recirc = [] ∧ (cut = true → (discardFrames s cut).net.macs = []) := by
  obtain ⟨-, hqueues, hrecirc, -⟩ := discarded_frames (put { s with
      net.queues := [], net.recirc := [], edge.tunnelIn := [] } Reg.recircStatusDepth 0) cut (s.net.packets.map fun e => e.1)
  unfold discardFrames
  dsimp only
  split
  · exact ⟨hqueues, hrecirc, fun _ => rfl⟩
  · exact ⟨hqueues, hrecirc, fun h => absurd h ‹_›⟩

section
variable (s : State) (cut : Bool)

theorem paceSame_discardHeld : paceSame s (discardHeld s cut) :=
  (paceSame_discardFrames s cut).trans (discarded_discardEdge _ cut).pace

theorem discardHeld_net : (discardHeld s cut).net.queues = [] ∧ (discardHeld s cut).net.recirc = [] ∧
    (cut = true → (discardHeld s cut).net.macs = []) := by
  obtain ⟨hqueues, hrecirc, hmacs⟩ := discardFrames_net s cut
  obtain ⟨-, hq, hr, hm⟩ := discarded_discardEdge (discardFrames s cut) cut
  exact ⟨hq.trans hqueues, hr.trans hrecirc, fun h => hm.trans (hmacs h)⟩

end

end Sys2Proof.Machine
end

section
/-!
Descent (R277, R279 to R284): requests and holds, the phases from drain to cutoff, and aborts.
-/
namespace Sys2Proof.Machine

theorem changesOnly.wake_eq {l : List Part} {s t : State} (h : changesOnly l s t) (hl : Part.wake ∉ l) : t.wake = s.wake := by
  obtain ⟨-, -, -, -, -, -, -, -, -, -, -, -, -, -, -, -, -, -, -, -, -, -, -, -, -, -, hwake, -⟩ := h
  exact hwake.resolve_left hl

theorem changesOnly.policy_eq {l : List Part} {s t : State} (h : changesOnly l s t) (hl : Part.policy ∉ l) :
    t.env.policy = s.env.policy := by
  obtain ⟨-, -, -, -, -, hpolicy, -⟩ := h
  exact (hpolicy.resolve_left hl).1

/-! PWR_CTL (R277, R279). -/

section
variable {s : State} {m : Master} {w : Nat} (hm : m ≠ .dbg) (hhold : bitAt w 3 = false)
include hm

/-- A write of PWR_CTL that holds: HOST_HOLD is set, and a descent in progress is to abort. -/
theorem pwrCtlWrite_holds (hreq : bitAt w 0 = false) (hhold : bitAt w 3 = true) :
    pwrCtlWrite s m w = requestAbort (putFlag s Reg.pwrCtlHostHold true) 3 0 := by
  have hdbg : (m == Master.dbg) = false := by simpa using hm
  simp [pwrCtlWrite, hdbg, hhold, hreq]

include hhold

/-- A write of PWR_CTL that neither holds nor requests clears HOST_HOLD alone. -/
theorem pwrCtlWrite_releases (hreq : bitAt w 0 = false) : pwrCtlWrite s m w = putFlag s Reg.pwrCtlHostHold false := by
  have hdbg : (m == Master.dbg) = false := by simpa using hm
  simp [pwrCtlWrite, hdbg, hhold, hreq]

/-- A request before a descent is recorded with its target and force, and clears HOST_HOLD. -/
theorem pwrCtlWrite_requests (hphase : descentPhase s = 0) (hreq : bitAt w 0 = true) : pwrCtlWrite s m w =
    { putFlag s Reg.pwrCtlHostHold false with
      wake.requested := true, wake.reqParked := bitAt w 1, wake.reqForce := bitAt w 2 } := by
  have hdbg : (m == Master.dbg) = false := by simpa using hm
  have hstill : descentPhase (putFlag s Reg.pwrCtlHostHold false) = 0 := (get_putFlag_ne _ _ _ _ (by decide)).trans hphase
  simp [pwrCtlWrite, hdbg, hhold, hreq, hstill]

end

theorem descending_false {s : State} (h : descentPhase s = 0) : descending s = false := by
  simp [descending, h]

theorem descending_congr {s t : State} (h : descentPhase t = descentPhase s) : descending t = descending s := by
  rw [descending, descending, h]

theorem requestAbort_idle {s : State} (h : descending s = false) (cause source : Nat) : requestAbort s cause source = s :=
  if_neg fun hd => by simp [h] at hd

theorem requestAbort_first {s : State} (h : descending s = true) (hnone : s.wake.abortFor = none) (cause source : Nat) :
    requestAbort s cause source = { s with wake.abortFor := some (s.time.now, cause, source) } :=
  if_pos ⟨h, by rw [hnone]; rfl⟩

/-! Drain and links (R280, R281). -/

theorem descentPhase_enterPhase (s : State) {ph : Nat} (hph : ph < 8) : descentPhase (enterPhase s ph) = ph :=
  (get_put_same s Reg.pwrStatusPhase ph).trans (Nat.mod_eq_of_lt hph)

theorem enterPhase_phaseTempo (s : State) (ph : Nat) : (enterPhase s ph).wake.phaseTempo = tempoNo s := rfl

theorem tempoNo_of_pace {s t : State} (h : paceSame s t) : tempoNo t = tempoNo s := h _ (by decide)

/-- The buses left, everything held discarded, and the TC10 ports asked to sleep. -/
def linksClosed (s : State) : State :=
  forIdx 48 askTc10 { leaveBuses (discardHeld s false) with wake.tc10Asked := [], wake.tc10Asleep := [] }

theorem descentLinks_begins {s : State} (hmay : phaseMay s 2 = true)
    (hend : drained s = true ∨ phaseSpent s (leAt (wakeGlobals s) 4 2) = true) : descentLinks s =
      enterPhase { armWake (linksClosed s) with wake.captured := [], wake.decoderErr := [] } 3 :=
  if_pos ⟨hmay, hend⟩

/-- Asking ports to sleep changes what is asked and sent alone. -/
theorem changes_askTc10 (s : State) : changesOnly [.wake, .io] s (forIdx 48 askTc10 s) :=
  changesOnly_of_kept (kept_forIdx _ _ _ fun i st => @kept_askTc10 _ (has_of rfl) (has_of rfl) i st)

theorem linksClosed_leaves (s : State) : paceSame s (linksClosed s) ∧ (linksClosed s).edge.joined = [] ∧
    (linksClosed s).net.queues = [] ∧ (linksClosed s).net.recirc = [] ∧ (linksClosed s).env.policy = s.env.policy := by
  obtain ⟨hqueues, hrecirc, -⟩ := discardHeld_net s false
  have hheld : changesOnly [.registers, .accum, .host, .frames, .edge] s (discardHeld s false) :=
    changesOnly_of_kept (@kept_discardHeld _ (has_of rfl) (has_of rfl) (has_of rfl) (has_of rfl) (has_of rfl) s false)
  have hpace := paceSame_discardHeld s false
  have hpolicy := hheld.policy_eq (by decide)
  unfold linksClosed
  generalize discardHeld s false = u at *
  have hasked := changes_askTc10 { leaveBuses u with wake.tc10Asked := [], wake.tc10Asleep := [] }
  have hnet := hasked.net_eq (by decide) (by decide) (by decide)
  refine ⟨?_, ?_, ?_, ?_, ?_⟩
  · exact hpace.congr (hasked.regs_eq (by decide))
  · exact congrArg EdgeSt.joined (hasked.edge_eq (by decide))
  · exact (congrArg NetSt.queues hnet).trans hqueues
  · exact (congrArg NetSt.recirc hnet).trans hrecirc
  · exact (hasked.policy_eq (by decide)).trans hpolicy

/-! TC10 (R281). -/

/-- An event of a port leaves the state of its link and its LINK bit. -/
theorem portEvent_link {p : Nat} (hp : p < 48) (s : State) {f : Fld}
    (hf : f = Reg.portEventsPlca p ∨ f = Reg.portEventsLinkChange p) :
    fldsSame [Reg.portStatusState p, Reg.portStatusLink p] s (portEvent s p f) := by
  have hkeys : apartFrom [Reg.portStatusState p, Reg.portStatusLink p] f := by
    rcases hf with rfl | rfl <;> simp only [apartFrom, List.forall_mem_cons, Fld.key, Reg.portEventsPlca,
      Reg.portEventsLinkChange, Reg.portStatusState, Reg.portStatusLink] <;>
      exact ⟨by omega, by omega, fun _ h => absurd h List.not_mem_nil⟩
  have hports : ∀ g ∈ [Reg.portStatusState p, Reg.portStatusLink p], portKey g := by
    simp only [List.forall_mem_cons, portKey, Fld.key, Reg.portStatusState, Reg.portStatusLink]
    exact ⟨by omega, by omega, fun _ h => absurd h List.not_mem_nil⟩
  exact fun g hg => (get_portEvent hp s f (hports g hg)).trans (get_put_ne _ _ _ _ (hkeys g hg))

/-- A fall of PLCA status leaves them too. -/
theorem plcaDrop_link {p : Nat} (hp : p < 48) (s : State) :
    fldsSame [Reg.portStatusState p, Reg.portStatusLink p] s (plcaDrop s p) := by
  have hplca : apartFrom [Reg.portStatusState p, Reg.portStatusLink p] (Reg.portStatusPlcaActive p) := by
    simp only [apartFrom, List.forall_mem_cons, Fld.key, Reg.portStatusState, Reg.portStatusLink, Reg.portStatusPlcaActive]
    exact ⟨by omega, by omega, fun _ h => absurd h List.not_mem_nil⟩
  unfold plcaDrop
  split
  · exact ((fldsSame.refl _ s).put hplca 0).trans (portEvent_link hp _ (.inl rfl))
  · exact .refl _ s

/-- The link of a port shown down, in its next state. -/
def linkShownDown (s : State) (p next : Nat) : State :=
  put (put (enterLink s p next) (Reg.portStatusLink p) 0) (Reg.portStatusSpeed p) 0

theorem linkShownDown_shows (s : State) (p : Nat) {next : Nat} (hnext : next < 4) :
    get (linkShownDown s p next) (Reg.portStatusState p) = next ∧ get (linkShownDown s p next) (Reg.portStatusLink p) = 0 := by
  have hapart : (Reg.portStatusState p).key ≠ (Reg.portStatusLink p).key ∧
      (Reg.portStatusState p).key ≠ (Reg.portStatusSpeed p).key ∧ (Reg.portStatusLink p).key ≠ (Reg.portStatusSpeed p).key := by
    simp only [Fld.key, Reg.portStatusState, Reg.portStatusLink, Reg.portStatusSpeed]
    omega
  obtain ⟨hlink, hspeed, hlinkSpeed⟩ := hapart
  constructor
  · rw [linkShownDown, get_put_ne _ _ _ _ hspeed, get_put_ne _ _ _ _ hlink]
    exact (get_put_same s (Reg.portStatusState p) next).trans (Nat.mod_eq_of_lt hnext)
  · exact (get_put_ne _ _ _ _ hlinkSpeed).trans (get_put_same _ _ _)

theorem goDown_eq (s : State) (p next : Nat) : goDown s p next =
    setVerify (portEvent (plcaDrop (linkShownDown (loseIngress (flushPort s p) p) p next) p) p (Reg.portEventsLinkChange p)) p
      (if verifyWanted s p then 1 else 0) := rfl

/-- A port that goes down shows its next link state and no link (R88). -/
theorem goDown_link {p : Nat} (hp : p < 48) (s : State) {next : Nat} (hnext : next < 4) : linkState (goDown s p next) p = next ∧
    get (goDown s p next) (Reg.portStatusLink p) = 0 := by
  have hverify : ∀ f ∈ [Reg.preemptStatusVerifySt p, Reg.preemptStatusActive p],
      apartFrom [Reg.portStatusState p, Reg.portStatusLink p] f := by
    simp only [apartFrom, List.forall_mem_cons, Fld.key, Reg.preemptStatusVerifySt, Reg.preemptStatusActive,
      Reg.portStatusState, Reg.portStatusLink]
    exact ⟨⟨by omega, by omega, fun _ h => absurd h List.not_mem_nil⟩, ⟨by omega, by omega, fun _ h => absurd h List.not_mem_nil⟩,
      fun _ h => absurd h List.not_mem_nil⟩
  obtain ⟨hstate, hlink⟩ := linkShownDown_shows (loseIngress (flushPort s p) p) p hnext
  have hlast := ((plcaDrop_link hp (linkShownDown (loseIngress (flushPort s p) p) p next)).trans
    (portEvent_link hp _ (.inr rfl))).trans (.of_regsSame (setVerify_regsSame _ p (if verifyWanted s p then 1 else 0)) hverify)
  rw [linkState, goDown_eq]
  exact ⟨(hlast _ List.mem_cons_self).trans hstate, (hlast _ (List.mem_cons_of_mem _ List.mem_cons_self)).trans hlink⟩

theorem goDown_wake (s : State) (p next : Nat) : (goDown s p next).wake = s.wake :=
  (changesOnly_of_kept (@kept_goDown [.registers, .accum, .intc, .host, .frames, .links, .edge, .io] (has_of rfl)
    (has_of rfl) (has_of rfl) (has_of rfl) (has_of rfl) (has_of rfl) (has_of rfl) (has_of rfl) s p next)).wake_eq (by decide)

end Sys2Proof.Machine
end

section
/-!
SAVE, the point of no return and the abort of a descent (R282 to R284).
-/
namespace Sys2Proof.Machine

/-! SAVE (R282). -/

theorem tooLarge_congr {s t : State} (hboot : t.boot = s.boot) (hpace : paceSame s t) (cost : Nat) :
    tooLarge t 0 cost = tooLarge s 0 cost := by
  have hfrac : get t Reg.tempoBudgetSpFrac = get s Reg.tempoBudgetSpFrac := hpace _ (by decide)
  have hk : get t Reg.tempoCfgK = get s Reg.tempoCfgK := hpace _ (by decide)
  simp only [tooLarge, coreBudget, period, aloft_of_boot hboot, hfrac, hk, ↓reduceIte]

/-- A job asked of a core is queued, or rejected as too large for it (R48). -/
theorem requestOn_order (s : State) (core : Nat) (kind : JobKind) : (requestOn s core kind).jobs.order =
    s.jobs.order + if tooLarge s core (jobBound s kind) then 0 else 1 := by
  unfold requestOn
  split
  · rw [jobRejected_jobs]
    rfl
  · rfl

theorem paceSame_requestOn (s : State) (core : Nat) (kind : JobKind) : paceSame s (requestOn s core kind) :=
  fun g hg => get_requestOn_ne _ _ _ _ ((by decide : offPace Reg.sbStatsLost) g hg)

/-- The frames and messages left are cut, and those ports counted that never acknowledged. -/
def savePrepared (s : State) (late : Nat) : State := discardHeld (bumpBy s Reg.pwrNetTc10Noack late) true

/-- The save jobs asked of the safety pair. -/
def savesAsked (s : State) (parked : Bool) : State :=
  if parked then requestSp (requestSp s .retentionSave) .fvSave else requestSp s .retentionSave

theorem descentSave_begins {s : State} (hmay : phaseMay s 3 = true)
    (hasleep : (s.wake.tc10Asked.all fun p => s.wake.tc10Asleep.contains p) = true) :
    descentSave s = enterPhase (savesAsked (savePrepared s 0) (flag s Reg.pwrStatusTarget)) 4 := by
  have hlate : (s.wake.tc10Asked.filter fun p => !s.wake.tc10Asleep.contains p) = [] :=
    List.filter_eq_nil_iff.2 fun p hp => by
      rw [List.all_eq_true.1 hasleep p hp]
      decide
  unfold descentSave
  rw [hlate]
  exact if_pos ⟨hmay, .inl rfl⟩

theorem savesAsked_order {s : State} (parked : Bool) : (savesAsked s parked).jobs.order = s.jobs.order +
    (if tooLarge s 0 (jobBound s .retentionSave) then 0 else 1) +
    (if parked && !tooLarge s 0 (jobBound s .fvSave) then 1 else 0) := by
  cases parked with
  | false => exact requestOn_order s 0 .retentionSave
  | true =>
    have hlarge : tooLarge (requestSp s .retentionSave) 0 (jobBound s .fvSave) = tooLarge s 0 (jobBound s .fvSave) :=
      tooLarge_congr (requestOn_boot s 0 .retentionSave) (paceSame_requestOn s 0 .retentionSave) _
    have hfirst := requestOn_order s 0 .retentionSave
    have hsecond := requestOn_order (requestSp s .retentionSave) 0 .fvSave
    rw [show jobBound (requestSp s .retentionSave) .fvSave = jobBound s .fvSave from rfl, hlarge] at hsecond
    refine hsecond.trans ?_
    rw [requestSp, hfirst, Bool.true_and]
    cases tooLarge s 0 (jobBound s .fvSave) <;> rfl

theorem savesAsked_leaves (s : State) (parked : Bool) : paceSame s (savesAsked s parked) ∧
    (savesAsked s parked).net = s.net ∧ (savesAsked s parked).edge = s.edge := by
  have hfirst := paceSame_requestOn s 0 .retentionSave
  cases parked with
  | false => exact ⟨hfirst, requestOn_net _ _ _, requestOn_edge _ _ _⟩
  | true => exact ⟨hfirst.trans (paceSame_requestOn _ 0 .fvSave), (requestOn_net _ _ _).trans (requestOn_net _ _ _),
      (requestOn_edge _ _ _).trans (requestOn_edge _ _ _)⟩

theorem discardHeld_offered (s : State) : (discardHeld s true).edge.offered = [] := by
  rw [discardHeld]
  exact discardEdge_offered _

/-- What cutting all that is held leaves: the pace, jobs and where the device stands; no MAC sends and none is offered. -/
theorem savePrepared_leaves (s : State) (late : Nat) : paceSame s (savePrepared s late) ∧
    (savePrepared s late).net.macs = [] ∧ (savePrepared s late).edge.offered = [] ∧
    (savePrepared s late).jobs = s.jobs ∧ (savePrepared s late).boot = s.boot := by
  have hcounted : paceSame s (bumpBy s Reg.pwrNetTc10Noack late) := (fldsSame.refl _ s).bumpBy (by decide) late
  unfold savePrepared
  rw [← bumpBy_jobs s Reg.pwrNetTc10Noack late, ← bumpBy_boot s Reg.pwrNetTc10Noack late]
  generalize bumpBy s Reg.pwrNetTc10Noack late = u at *
  have hheld : changesOnly [.registers, .accum, .host, .frames, .edge] u (discardHeld u true) :=
    changesOnly_of_kept (@kept_discardHeld _ (has_of rfl) (has_of rfl) (has_of rfl) (has_of rfl) (has_of rfl) u true)
  exact ⟨hcounted.trans (paceSame_discardHeld u true), (discardHeld_net u true).2.2 rfl, discardHeld_offered u,
    hheld.jobs_eq (by decide), hheld.boot_eq (by decide)⟩

/-! The point of no return (R283): registers that stay. -/

/-- What the supplies that go leave to be read: the count of descents, and whether the PCIe link is up. -/
def darkFlds : List Fld := [Reg.descentsDescents, Reg.hbStatusP48Up]

theorem offDark_of_port {f : Fld} (h : 0x200000 * 32 ≤ f.key) : apartFrom darkFlds f := by
  have hlow : ∀ g ∈ darkFlds, g.key < 0x200000 * 32 := by decide
  exact fun g hg heq => absurd (hlow g hg) (by omega)

/-- The registers of bulk MAC work with none in hand. -/
def macsShownIdle (s : State) : State :=
  s.vault.mcj.foldl (fun (st : State) e => put st (Reg.mcjStatusState e.1) 0) (put s Reg.macStatusSuspended 0)

theorem stopCores_regs (s : State) : (stopCores s).regs = (macsShownIdle s).regs := rfl

theorem darkSame_stopCores (s : State) : fldsSame darkFlds s (stopCores s) := by
  have hstate (b : Nat) : apartFrom darkFlds (Reg.mcjStatusState b) := by
    simp only [apartFrom, darkFlds, List.forall_mem_cons, Fld.key, Reg.mcjStatusState, Reg.descentsDescents, Reg.hbStatusP48Up]
    exact ⟨by omega, by omega, fun _ h => absurd h List.not_mem_nil⟩
  have hsuspended : fldsSame darkFlds s (put s Reg.macStatusSuspended 0) := (fldsSame.refl _ s).put (by decide) 0
  have hidle : fldsSame darkFlds s (macsShownIdle s) := hsuspended.trans (fldsSame_foldl _ (fun st e => by
    exact (fldsSame.refl darkFlds st).put (hstate e.1) 0) _ _)
  exact hidle.congr (stopCores_regs s)

theorem darkSame_portDark (p : Nat) (s : State) : fldsSame darkFlds s (portDark p s) := by
  have hport : ∀ f ∈ [Reg.portStatusState p, Reg.portStatusLink p, Reg.portStatusSpeed p, Reg.portStatusPlcaActive p,
      Reg.preemptStatusVerifySt p, Reg.preemptStatusActive p], apartFrom darkFlds f := by
    intro f hf
    refine offDark_of_port ?_
    simp only [List.mem_cons, List.not_mem_nil, or_false] at hf
    rcases hf with rfl | rfl | rfl | rfl | rfl | rfl <;> simp only [Fld.key, Reg.portStatusState, Reg.portStatusLink,
      Reg.portStatusSpeed, Reg.portStatusPlcaActive, Reg.preemptStatusVerifySt, Reg.preemptStatusActive] <;> omega
  have hlink := ((fldsSame.refl darkFlds s).put (hport (Reg.portStatusState p) (by simp)) 0).put
    (hport (Reg.portStatusLink p) (by simp)) 0
  have hspeed := (hlink.put (hport (Reg.portStatusSpeed p) (by simp)) 0).put (hport (Reg.portStatusPlcaActive p) (by simp)) 0
  have hverify (u : State) (st : Nat) : fldsSame darkFlds u (setVerify u p st) :=
    .of_regsSame (setVerify_regsSame u p st) fun f hf => hport f (by
      simp only [List.mem_cons, List.not_mem_nil, or_false] at hf ⊢
      tauto)
  unfold portDark
  exact hspeed.trans (hverify _ _)

/-- Fields reset by range are those whose address lies in it. -/
theorem get_resetRange {s : State} {lo hi : Nat} {f : Fld} (h : f.key / 32 % 2 ^ 24 < lo ∨ hi ≤ f.key / 32 % 2 ^ 24) :
    get (resetRange s lo hi) f = get s f := by
  have hkeep : (!(decide (lo ≤ f.key / 32 % 2 ^ 24) && decide (f.key / 32 % 2 ^ 24 < hi))) = true := by
    simp only [Bool.not_eq_true', Bool.and_eq_false_iff, decide_eq_false_iff_not]
    omega
  exact congrArg (fun o => o.getD f.reset) (SMap.find_keep_kept (k := f.key)
    (p := fun k _ => !(decide (lo ≤ k / 32 % 2 ^ 24) && decide (k / 32 % 2 ^ 24 < hi))) (fun _ => hkeep) s.regs)

theorem get_ledgerAdd_low (s : State) (org addr code space : Nat) {f : Fld} (hf : f ∈ paceFlds) :
    get (ledgerAdd s org addr code space) f = get s f := by
  unfold ledgerAdd
  split
  · rfl
  · dsimp only
    refine (paceSame_raiseSource _ _ f hf).trans ?_
    split
    · rfl
    · exact get_bump_ne _ _ _ ((by decide : offPace Reg.ledgerOvf) f hf)

theorem paceSame_dropPosted (s : State) : paceSame s (dropPosted s) :=
  (fldsSame_foldl _ (fun st _ _ hf => get_ledgerAdd_low st _ _ _ _ hf) _ s).congr rfl

/-- The endpoint's registers with its link down. -/
def endpointShownDown (s : State) : State :=
  put (put (put (put (put (put (put s Reg.hbStatusP48Up 0) Reg.hbStatusBme 0) Reg.hbStatusDstate 0) Reg.hbStatusDlActive 0)
    Reg.hbStatusRate 0) Reg.hbStatusWidth 0) Reg.hbStatusAspm 0

/-- The link of P48 goes with the endpoint's supply, and the count of descents stays. -/
theorem get_hostDark (s : State) : get (hostDark s) Reg.descentsDescents = get s Reg.descentsDescents ∧
    get (hostDark s) Reg.hbStatusP48Up = 0 := by
  have hregs : (hostDark s).regs = (resetRange (endpointShownDown (dropPosted s)) 0x101000 0x102000).regs := rfl
  have hshown : get (endpointShownDown (dropPosted s)) Reg.hbStatusP48Up = 0 := by
    have hput : get (put (dropPosted s) Reg.hbStatusP48Up 0) Reg.hbStatusP48Up = 0 := get_put_same _ _ _
    have hrest : fldsSame [Reg.hbStatusP48Up] (put (dropPosted s) Reg.hbStatusP48Up 0) (endpointShownDown (dropPosted s)) :=
      ((((((fldsSame.refl _ _).put (by decide) 0).put (by decide) 0).put (by decide) 0).put (by decide) 0).put
        (by decide) 0).put (by decide) 0
    exact (hrest _ (by decide)).trans hput
  have hcount : fldsSame [Reg.descentsDescents] (dropPosted s) (endpointShownDown (dropPosted s)) :=
    (((((((fldsSame.refl _ _).put (by decide) 0).put (by decide) 0).put (by decide) 0).put (by decide) 0).put
      (by decide) 0).put (by decide) 0).put (by decide) 0
  constructor
  · rw [get_congr _ _ _ hregs, get_resetRange (by decide), hcount _ (by decide), paceSame_dropPosted s _ (by decide)]
  · rw [get_congr _ _ _ hregs, get_resetRange (by decide), hshown]

/-! The point of no return: conversations, fragments and slots. -/

/-- What freeing slots leaves: the pace, conversations and fragments. -/
structure SlotsFreed (s t : State) : Prop where
  pace : paceSame s t
  convs : t.net.convs = s.net.convs
  frags : t.net.frags = s.net.frags

section
variable {s t u : State}

theorem SlotsFreed.refl (s : State) : SlotsFreed s s := ⟨.refl _ s, rfl, rfl⟩

theorem SlotsFreed.trans (h : SlotsFreed s t) (k : SlotsFreed t u) : SlotsFreed s u :=
  ⟨h.pace.trans k.pace, k.convs.trans h.convs, k.frags.trans h.frags⟩

theorem SlotsFreed.of_net (h : paceSame s t) (hnet : t.net = s.net) : SlotsFreed s t := ⟨h, by rw [hnet], by rw [hnet]⟩

theorem slotsFreed_withEnv (s : State) (e : EnvSt) : SlotsFreed s { s with env := e } := ⟨.of_regs rfl, rfl, rfl⟩

theorem SlotsFreed.put (h : SlotsFreed s t) {f : Fld} (hf : offPace f) (v : Nat) : SlotsFreed s (put t f v) :=
  ⟨h.pace.put hf v, h.convs, h.frags⟩

end

/-- Static entries placed leave conversations and fragments. -/
theorem placeStatics_tables (l : List (Nat × List Byte)) (s : State) : (l.foldl placeStatic s).net.convs = s.net.convs ∧
    (l.foldl placeStatic s).net.frags = s.net.frags := by
  induction l generalizing s with
  | nil => exact ⟨rfl, rfl⟩
  | cons e l ih =>
    have hfirst : (placeStatic s e).net.convs = s.net.convs ∧ (placeStatic s e).net.frags = s.net.frags := by
      unfold placeStatic
      split <;> exact ⟨rfl, rfl⟩
    exact ⟨(ih _).1.trans hfirst.1, (ih _).2.trans hfirst.2⟩

theorem slotsFreed_dropSlot (s : State) (slot : Nat) : SlotsFreed s (dropSlot s slot) := by
  have hage : offPace (Reg.inflightDrainAge slot) := offPace_of_high (by simp only [Fld.key, Reg.inflightDrainAge]; omega)
  have hflds : ∀ f ∈ [Reg.epochStatusSlotSt, Reg.inflightDrainAge slot] ++ storageFlds, offPace f := by
    have hstorage : ∀ f ∈ storageFlds, offPace f := by decide
    simp only [List.cons_append, List.nil_append, List.forall_mem_cons]
    exact ⟨by decide, hage, hstorage⟩
  have hstored (u : State) : (refreshStorage u).net.convs = u.net.convs ∧ (refreshStorage u).net.frags = u.net.frags := by
    rw [refreshStorage_eq, showPools_net]
    exact placeStatics_tables _ _
  rw [dropSlot_eq] at *
  exact ⟨.of_regsSame (dropSlot_regsSame s slot) hflds, (hstored _).1, (hstored _).2⟩

theorem slotsFreed_raiseTo {s t : State} (h : SlotsFreed s t) {f : Fld} (hf : offPace f) (v : Nat) :
    SlotsFreed s (raiseTo t f v) := by
  unfold raiseTo
  split
  · exact h.put hf _
  · exact h

theorem slotsFreed_raiseSource (s : State) (n : Nat) : SlotsFreed s (raiseSource s n) :=
  .of_net (paceSame_raiseSource s n) (raiseSource_net s n)

theorem slotsFreed_commitIdle (s : State) : SlotsFreed s (commitIdle s) := by
  have hidle : SlotsFreed s (put s Reg.commitStatusState 0) := (SlotsFreed.refl s).put (by decide) 0
  unfold commitIdle
  dsimp only
  split
  · exact ⟨hidle.pace.congr rfl, hidle.convs, hidle.frags⟩
  · have hlocked := (hidle.put (f := Reg.stageStatusLocked) (by decide) 0).put (f := Reg.stageStatusOwner) (by decide) 0
    exact ⟨hlocked.pace.congr rfl, hlocked.convs, hlocked.frags⟩

theorem slotsFreed_commitResult (s : State) (r : Nat) : SlotsFreed s (commitResult s r) := by
  have hshown : SlotsFreed s (put s Reg.commitStatusResult r) := (SlotsFreed.refl s).put (by decide) r
  unfold commitResult
  dsimp only
  split
  · exact hshown
  · exact hshown.trans (slotsFreed_raiseSource _ 16)

theorem slotsFreed_commitFail (s : State) (result item detail : Nat) : SlotsFreed s (commitFail s result item detail) := by
  unfold commitFail
  extract_lets st s1 s2 s3
  have h1 : SlotsFreed s s1 := by
    dsimp only [s1]
    split
    · exact slotsFreed_dropSlot s _
    · split
      · exact slotsFreed_raiseTo (.refl s) (by decide) _
      · exact .refl s
  have h2 : SlotsFreed s s2 := (h1.put (by decide) item).put (by decide) detail
  have hcounted : SlotsFreed s (bump (commitIdle s2) Reg.commitStatsFails) :=
    let hidle := h2.trans (slotsFreed_commitIdle s2)
    ⟨hidle.pace.bump (by decide), hidle.convs, hidle.frags⟩
  have h3 : SlotsFreed s s3 := hcounted.trans (slotsFreed_commitResult _ result)
  split
  · exact ⟨h3.pace.congr rfl, h3.convs, h3.frags⟩
  · exact h3

theorem slotsFreed_abortCommit (s : State) : SlotsFreed s (abortCommit s) := by
  unfold abortCommit
  split
  · exact .refl s
  · have hfail := slotsFreed_commitFail s 10 0 0
    have hempty (u : State) : SlotsFreed u (emptySet u) :=
      ⟨((fldsSame.of_regs rfl).put (by decide) 0).put (by decide) 0, rfl, rfl⟩
    exact hfail.trans (hempty _)

theorem slotsFreed_forIdx (n : Nat) (g : Nat → State → State) (hg : ∀ i s, SlotsFreed s (g i s)) (s : State) :
    SlotsFreed s (forIdx n g s) := by
  have hfold (l : List Nat) (u : State) : SlotsFreed u (l.foldl (fun st i => g i st) u) := by
    induction l generalizing u with
    | nil => exact .refl u
    | cons i l ih => exact (hg i u).trans (ih _)
  exact hfold _ s

/-- Every latch cleared. -/
def latchesCleared (s : State) : State :=
  { forIdx 16 (fun k st => if st.env.latches.has k then put st (Reg.epochLatchValid k) 0 else st) s with env.latches := [] }

/-- Every slot but the current one dropped. -/
def othersDropped (s : State) : State :=
  forIdx 4 (fun i st => if i ≠ curSlot st ∧ slotState st i ≠ 0 then dropSlot st i else st) s

theorem freeSlots_eq (s : State) : freeSlots s = showLatched (othersDropped (latchesCleared s)) := rfl

theorem slotsFreed_freeSlots (s : State) : SlotsFreed s (freeSlots s) := by
  have hvalid (k : Nat) : offPace (Reg.epochLatchValid k) := offPace_of_high (by simp only [Fld.key, Reg.epochLatchValid]; omega)
  have hcleared : SlotsFreed s (latchesCleared s) := by
    have hfields := slotsFreed_forIdx 16 (fun k st => if st.env.latches.has k then put st (Reg.epochLatchValid k) 0 else st)
      (fun k st => by
        split
        · exact (SlotsFreed.refl st).put (hvalid k) 0
        · exact .refl st) s
    exact hfields.trans (slotsFreed_withEnv _ _)
  have hdropped (u : State) : SlotsFreed u (othersDropped u) := slotsFreed_forIdx 4 _ (fun i st => by
    split
    · exact slotsFreed_dropSlot st i
    · exact .refl st) u
  have hshown (u : State) : SlotsFreed u (showLatched u) := (SlotsFreed.refl u).put (f := Reg.epochStatusLatched) (by decide) _
  rw [freeSlots_eq]
  exact (hcleared.trans (hdropped _)).trans (hshown _)

/-! The point of no return, stage by stage. -/

/-- What is held discarded, conversations and fragments gone, and an outstanding commit ended. -/
def trafficEnded (s : State) : State := abortCommit (clearConvs (clearFrags (discardHeld (bump s Reg.descentsDescents) true)))

/-- Slots freed, and the endpoint, the pins and the cores without supply. -/
def suppliesEnded (s : State) : State := stopCores (pinsDark (hostDark (freeSlots s)))

/-- Trade, meters, joined buses and verifications gone. -/
def tradeEnded (s : State) : State :=
  { s with tm.leafTok := [], tm.portTok := [], tm.meters := [], edge.joined := [], net.verifySent := [], net.verifyAt := [] }

/-- The ports without supply. -/
def portsEnded (s : State) : State := forIdx 48 portDark (tradeEnded s)

/-- FAULT_N asserted and READY fallen. -/
def readyFallen (s : State) : State := put (putFlag s Reg.fcStatusFaultN true) Reg.bootStatusReady 0

/-- The cutoff itself, at an instant: decoders armed, requests forgotten and Bank H gone. -/
def cutOffAt (s : State) (now : Nat) : State :=
  { armWake s with
    wake.sleepDecoders := decodersNow s, wake.latch := false, wake.abortFor := none, wake.cutoffAt := now
    wake.requested := false, wake.reqParked := false, wake.reqForce := false, wake.excursion := false
    cpu.badWords := s.cpu.badWords.del 2, mem.bankH := [], boot.phase := .cutoff }

theorem noReturn_eq (s : State) :
    noReturn s = cutOffAt (readyFallen (portsEnded (suppliesEnded (trafficEnded s)))) s.time.now := by
  unfold noReturn
  extract_lets s1 s2 net tm edge s3 s4
  have h3 : portsEnded s2 = s3 := by
    unfold portsEnded tradeEnded
    dsimp only [s3, net, tm, edge]
  rw [show suppliesEnded (trafficEnded s) = s2 from rfl, h3]
  clear_value s3
  rfl

theorem trafficEnded_leaves (s : State) : get (trafficEnded s) Reg.descentsDescents =
      min (2 ^ Reg.descentsDescents.width - 1) (get s Reg.descentsDescents + 1) ∧
    (trafficEnded s).net.convs = [] ∧ (trafficEnded s).net.frags = [] := by
  have hcounted := get_bump_same s Reg.descentsDescents
  unfold trafficEnded
  generalize bump s Reg.descentsDescents = u at *
  have hheld := paceSame_discardHeld u true
  generalize discardHeld u true = v at *
  have hfollowed : paceSame v (clearFrags v) :=
    (fldsSame.of_regs (t := { v with net.frags := [] }) rfl).put (f := Reg.fragEntriesFragEntries) (by decide) 0
  have hcleared : paceSame v (clearConvs (clearFrags v)) :=
    hfollowed.trans ((fldsSame.of_regs (t := { clearFrags v with net.convs := [] }) rfl).put (f := Reg.convUsed) (by decide) _)
  obtain ⟨hpace, hconvs, hfrags⟩ := slotsFreed_abortCommit (clearConvs (clearFrags v))
  exact ⟨(((hheld.trans hcleared).trans hpace) _ (by decide)).trans hcounted, hconvs, hfrags⟩

theorem stopCores_tables (s : State) : (stopCores s).net.convs = s.net.convs ∧ (stopCores s).net.frags = s.net.frags := by
  have hidle : changesOnly [.registers] s (macsShownIdle s) := changesOnly_of_kept
    ((kept_foldl _ _ _ fun st e => @kept_put _ (has_of rfl) st _ 0).trans (@kept_put _ (has_of rfl) s _ 0))
  have hnet := hidle.net_eq (by decide) (by decide) (by decide)
  have hconvs : (stopCores s).net.convs = (macsShownIdle s).net.convs := rfl
  have hfrags : (stopCores s).net.frags = (macsShownIdle s).net.frags := rfl
  rw [hconvs, hfrags, hnet]
  exact ⟨rfl, rfl⟩

theorem pinsDark_leaves (s : State) : fldsSame darkFlds s (pinsDark s) ∧ (pinsDark s).net = s.net :=
  ⟨((fldsSame.refl _ s).put (f := Reg.hbStatusPeWake) (by decide) 0).congr rfl, rfl⟩

theorem suppliesEnded_leaves (s : State) : get (suppliesEnded s) Reg.descentsDescents = get s Reg.descentsDescents ∧
    get (suppliesEnded s) Reg.hbStatusP48Up = 0 ∧ (suppliesEnded s).net.convs = s.net.convs ∧
    (suppliesEnded s).net.frags = s.net.frags := by
  obtain ⟨hpace, hconvs, hfrags⟩ := slotsFreed_freeSlots s
  have hcount : get (freeSlots s) Reg.descentsDescents = get s Reg.descentsDescents := hpace _ (by decide)
  unfold suppliesEnded
  generalize freeSlots s = u at *
  obtain ⟨hdescents, hup⟩ := get_hostDark u
  have hnet : (hostDark u).net = u.net := (changesOnly_of_kept (@kept_hostDark [.registers, .accum, .intc, .host, .cnt, .io]
    (has_of rfl) (has_of rfl) (has_of rfl) (has_of rfl) (has_of rfl) (has_of rfl) u)).net_eq (by decide) (by decide) (by decide)
  generalize hostDark u = v at *
  obtain ⟨hpins, hpinsNet⟩ := pinsDark_leaves v
  obtain ⟨hcoreConvs, hcoreFrags⟩ := stopCores_tables (pinsDark v)
  have hdark := hpins.trans (darkSame_stopCores (pinsDark v))
  refine ⟨(hdark _ (by decide)).trans (hdescents.trans hcount), (hdark _ (by decide)).trans hup, ?_, ?_⟩
  · rw [hcoreConvs, hpinsNet, hnet, hconvs]
  · rw [hcoreFrags, hpinsNet, hnet, hfrags]

theorem changes_portsDark (s : State) : changesOnly [.registers] s (forIdx 48 portDark s) :=
  changesOnly_of_kept (kept_forIdx 48 portDark s fun p st => @kept_portDark _ (has_of rfl) p st)

theorem portsEnded_leaves (s : State) : fldsSame darkFlds s (portsEnded s) ∧ (portsEnded s).net.convs = s.net.convs ∧
    (portsEnded s).net.frags = s.net.frags ∧ (portsEnded s).mem = s.mem := by
  have hregs : (tradeEnded s).regs = s.regs := rfl
  have hconvs : (tradeEnded s).net.convs = s.net.convs := rfl
  have hfrags : (tradeEnded s).net.frags = s.net.frags := rfl
  have hmem : (tradeEnded s).mem = s.mem := rfl
  unfold portsEnded
  generalize tradeEnded s = u at *
  have hdark := changes_portsDark u
  rw [hdark.net_eq (by decide) (by decide) (by decide), hdark.mem_eq (by decide) (by decide)]
  exact ⟨(fldsSame.of_regs hregs).trans (fldsSame_forIdx 48 portDark darkSame_portDark u), hconvs, hfrags, hmem⟩

theorem readyFallen_leaves (s : State) : fldsSame darkFlds s (readyFallen s) ∧ get (readyFallen s) Reg.bootStatusReady = 0 :=
  ⟨((fldsSame.refl _ s).putFlag (by decide) true).put (by decide) 0, get_put_same _ _ _⟩

theorem kept_trafficEnded {M : List Part} [Has M .registers] [Has M .accum] [Has M .jobs] [Has M .policy] [Has M .epochs]
    [Has M .intc] [Has M .host] [Has M .img] [Has M .frames] [Has M .tables] [Has M .edge] [Has M .io] (s : State) :
    kept M (trafficEnded s) = kept M s := by
  unfold trafficEnded
  simp only [kept_abortCommit, kept_clearConvs, kept_clearFrags, kept_discardHeld, kept_bump]

theorem kept_suppliesEnded {M : List Part} [Has M .registers] [Has M .accum] [Has M .time] [Has M .jobs] [Has M .policy]
    [Has M .epochs] [Has M .intc] [Has M .host] [Has M .vault] [Has M .frames] [Has M .tables] [Has M .cnt] [Has M .io]
    (s : State) : kept M (suppliesEnded s) = kept M s := by
  unfold suppliesEnded
  simp only [kept_stopCores, kept_pinsDark, kept_hostDark, kept_freeSlots]

theorem trafficEnded_mem (s : State) : (trafficEnded s).mem = s.mem :=
  (changesOnly_of_kept (@kept_trafficEnded [.registers, .accum, .jobs, .policy, .epochs, .intc, .host, .img, .frames,
    .tables, .edge, .io] (has_of rfl) (has_of rfl) (has_of rfl) (has_of rfl) (has_of rfl) (has_of rfl) (has_of rfl)
    (has_of rfl) (has_of rfl) (has_of rfl) (has_of rfl) (has_of rfl) s)).mem_eq (by decide) (by decide)

theorem suppliesEnded_mem (s : State) : (suppliesEnded s).mem = s.mem :=
  (changesOnly_of_kept (@kept_suppliesEnded [.registers, .accum, .time, .jobs, .policy, .epochs, .intc, .host, .vault,
    .frames, .tables, .cnt, .io] (has_of rfl) (has_of rfl) (has_of rfl) (has_of rfl) (has_of rfl) (has_of rfl) (has_of rfl)
    (has_of rfl) (has_of rfl) (has_of rfl) (has_of rfl) (has_of rfl) (has_of rfl) s)).mem_eq (by decide) (by decide)

/-- What the state at the cutoff itself has lost and kept, the cutoff apart. -/
theorem cutoff_stages_leave (s : State) :
    let t := readyFallen (portsEnded (suppliesEnded (trafficEnded s)))
    get t Reg.bootStatusReady = 0 ∧ get t Reg.hbStatusP48Up = 0 ∧ t.net.convs = [] ∧ t.net.frags = [] ∧ t.mem = s.mem ∧
      get t Reg.descentsDescents = min (2 ^ Reg.descentsDescents.width - 1) (get s Reg.descentsDescents + 1) := by
  obtain ⟨hcount, hconvs, hfrags⟩ := trafficEnded_leaves s
  have hmem := trafficEnded_mem s
  generalize trafficEnded s = u at *
  obtain ⟨hdescents, hup, hsConvs, hsFrags⟩ := suppliesEnded_leaves u
  have hsMem := suppliesEnded_mem u
  generalize suppliesEnded u = v at *
  obtain ⟨hports, hpConvs, hpFrags, hpMem⟩ := portsEnded_leaves v
  generalize portsEnded v = w at *
  obtain ⟨hready, hnot⟩ := readyFallen_leaves w
  have hdark := hports.trans hready
  exact ⟨hnot, (hdark _ (by decide)).trans hup, hpConvs.trans (hsConvs.trans hconvs), hpFrags.trans (hsFrags.trans hfrags),
    hpMem.trans (hsMem.trans hmem), (hdark _ (by decide)).trans (hdescents.trans hcount)⟩

end Sys2Proof.Machine
end

section
/-!
O46: the descent's requests and holds, its phases and its abort, put together.
-/
namespace Sys2Proof.Machine

/-! Words written to PWR_CTL. -/

/-- Setting bit 0 sets it and leaves the others. -/
theorem bitAt_or_one (v : Nat) : bitAt (v ||| 1) 0 = true ∧ ∀ i, i ≠ 0 → bitAt (v ||| 1) i = bitAt v i := by
  refine ⟨by simp [bitAt], fun i hi => ?_⟩
  rw [bitAt, bitAt, Nat.testBit_or, Nat.testBit_one_eq_true_iff_self_eq_zero.not.2 hi |> Bool.eq_false_iff.2, Bool.or_false]

theorem bitAt_hold (hold : Bool) : bitAt (8 * b2n hold) 0 = false ∧ bitAt (8 * b2n hold) 3 = hold := by
  cases hold <;> decide

/-! The abort of a descent before LINKS (R284). -/

/-- ABORT_INFO and the count of aborts as an abort shows them, ALOFT again. -/
def abortShown (s : State) (cause source : Nat) : State :=
  put (bump (put (put (put s Reg.abortInfoPhase (descentPhase s)) Reg.abortInfoCause cause) Reg.abortInfoSource source)
    Reg.descentsAborts) Reg.pwrStatusPhase 0

/-- Save jobs that have not started are dropped. -/
def savesDropped (s : State) : State := { s with jobs.queue := s.jobs.queue.filter fun j => !saveJob j.kind }

theorem descentAbort_early {s : State} {at_ cause source : Nat} (haloft : aloft s = true) (hboundary : atBoundary s = true)
    (hdue : abortDue s = true) (hdescending : descending s = true) (hearly : descentPhase s < 3)
    (habort : s.wake.abortFor = some (at_, cause, source)) (hnone : s.wake.captured = []) :
    descentAbort s = { disarm (savesDropped (abortShown s cause source)) with wake.captured := [] } := by
  have hgo : ¬((!aloft s) = true ∨ (!atBoundary s) = true ∨ (!abortDue s) = true ∨ (!descending s) = true) := by
    simp only [haloft, hboundary, hdue, hdescending, Bool.not_true, Bool.false_eq_true, or_self, not_false_eq_true]
  have hcaptured : (disarm (savesDropped (abortShown s cause source))).wake.captured = [] := hnone
  unfold descentAbort
  rw [habort]
  dsimp only
  rw [if_neg hgo, if_neg (by omega : ¬3 ≤ descentPhase s)]
  change presentCaptured (disarm (savesDropped (abortShown s cause source))) = _
  generalize disarm (savesDropped (abortShown s cause source)) = u at *
  unfold presentCaptured
  rw [hcaptured]
  rfl

theorem abortShown_regsSame (s : State) (cause source : Nat) : regsSame s (abortShown s cause source)
    [Reg.pwrStatusPhase, Reg.abortInfoPhase, Reg.abortInfoCause, Reg.abortInfoSource, Reg.descentsAborts] :=
  (((((regsSame.refl s _).put (by simp) _).put (by simp) cause).put (by simp) source).bump (by simp)).put (by simp) 0

theorem abortShown_shows (s : State) {cause source : Nat} (hearly : descentPhase s < 3)
    (hcause : cause < 8) (hsource : source < 256) :
    descentPhase (abortShown s cause source) = 0 ∧ get (abortShown s cause source) Reg.abortInfoPhase = descentPhase s ∧
    get (abortShown s cause source) Reg.abortInfoCause = cause ∧ get (abortShown s cause source) Reg.abortInfoSource = source ∧
    get (abortShown s cause source) Reg.descentsAborts =
      min (2 ^ Reg.descentsAborts.width - 1) (get s Reg.descentsAborts + 1) := by
  unfold abortShown
  refine ⟨get_put_same _ _ _, ?_, ?_, ?_, ?_⟩
  · exact ((((((fldsSame.refl [Reg.abortInfoPhase] _).put (by decide) cause).put (by decide) source).bump (by decide)).put
      (by decide) 0) _ (by decide)).trans ((get_put_same _ _ _).trans (Nat.mod_eq_of_lt (by exact hearly.trans (by decide))))
  · exact (((((fldsSame.refl [Reg.abortInfoCause] _).put (by decide) source).bump (by decide)).put (by decide) 0)
      _ (by decide)).trans ((get_put_same _ _ _).trans (Nat.mod_eq_of_lt (by exact hcause.trans (by decide))))
  · exact ((((fldsSame.refl [Reg.abortInfoSource] _).bump (by decide)).put (by decide) 0) _ (by decide)).trans
      ((get_put_same _ _ _).trans (Nat.mod_eq_of_lt (by exact hsource)))
  · have hbefore : fldsSame [Reg.descentsAborts] s _ := (((fldsSame.refl [Reg.descentsAborts] s).put
      (f := Reg.abortInfoPhase) (by decide) (descentPhase s)).put (f := Reg.abortInfoCause) (by decide) cause).put
      (f := Reg.abortInfoSource) (by decide) source
    rw [get_put_ne _ _ _ _ (by decide), get_bump_same, hbefore _ (by decide)]

/-- What the whole of such an abort shows and leaves. -/
theorem abortEnded_shows (s : State) {cause source : Nat} (hearly : descentPhase s < 3) (hcause : cause < 8)
    (hsource : source < 256) :
    let t := { disarm (savesDropped (abortShown s cause source)) with wake.captured := [] }
    descentPhase t = 0 ∧ get t Reg.abortInfoPhase = descentPhase s ∧ get t Reg.abortInfoCause = cause ∧
    get t Reg.abortInfoSource = source ∧ t.wake.abortFor = none ∧ t.wake.armed = false ∧
    get t Reg.descentsAborts = min (2 ^ Reg.descentsAborts.width - 1) (get s Reg.descentsAborts + 1) ∧
    regsSame s t [Reg.pwrStatusPhase, Reg.abortInfoPhase, Reg.abortInfoCause, Reg.abortInfoSource, Reg.descentsAborts] ∧
    t.env = s.env ∧ t.net = s.net := by
  obtain ⟨hphase, hwas, hfor, hby, hcount⟩ := abortShown_shows s hearly hcause hsource
  have hregs := abortShown_regsSame s cause source
  have henv : (abortShown s cause source).env = s.env := rfl
  have hnet : (abortShown s cause source).net = s.net := rfl
  generalize abortShown s cause source = u at *
  exact ⟨hphase, hwas, hfor, hby, rfl, rfl, hcount, hregs.congr rfl, henv, hnet⟩

/-! SAVE and the cutoff as they leave the state. -/

/-- What the save jobs cost is fixed (R282). -/
theorem jobBound_saves (s t : State) : jobBound t .retentionSave = jobBound s .retentionSave ∧
    jobBound t .fvSave = jobBound s .fvSave := ⟨rfl, rfl⟩

/-- SAVE once entered: nothing sends, and the jobs asked that fit a budget are queued (R282). -/
theorem save_entered (s : State) :
    let t := enterPhase (savesAsked (savePrepared s 0) (flag s Reg.pwrStatusTarget)) 4
    descentPhase t = 4 ∧ t.wake.phaseTempo = tempoNo s ∧ t.net.macs = [] ∧ t.edge.offered = [] ∧
    t.jobs.order = s.jobs.order + (if tooLarge s 0 (jobBound s .retentionSave) then 0 else 1) +
      (if flag s Reg.pwrStatusTarget && !tooLarge s 0 (jobBound s .fvSave) then 1 else 0) := by
  obtain ⟨hheld, hmacs, hoffered, hjobs, hboot⟩ := savePrepared_leaves s 0
  have hlarge := tooLarge_congr hboot hheld
  have hbound := jobBound_saves s (savePrepared s 0)
  obtain ⟨hsaved, hnet, hedge⟩ := savesAsked_leaves (savePrepared s 0) (flag s Reg.pwrStatusTarget)
  have horder := savesAsked_order (s := savePrepared s 0) (flag s Reg.pwrStatusTarget)
  rw [hbound.1, hbound.2, hlarge, hlarge, hjobs] at horder
  have hpace := hheld.trans hsaved
  have hsent := (congrArg NetSt.macs hnet).trans hmacs
  have hoffers := (congrArg EdgeSt.offered hedge).trans hoffered
  clear hheld hmacs hoffered hjobs hboot hlarge hbound hsaved hnet hedge
  generalize savesAsked (savePrepared s 0) (flag s Reg.pwrStatusTarget) = u at *
  exact ⟨descentPhase_enterPhase u (by decide), (enterPhase_phaseTempo u 4).trans (tempoNo_of_pace hpace), hsent, hoffers, horder⟩

/-- The point of no return: what is gone, what is armed and what Banks S and G keep (R283). -/
theorem noReturn_leaves (s : State) : (noReturn s).boot.phase = .cutoff ∧ (noReturn s).mem.bankH = [] ∧
    (noReturn s).wake.armed = true ∧ (noReturn s).wake.latch = false ∧ get (noReturn s) Reg.bootStatusReady = 0 ∧
    get (noReturn s) Reg.hbStatusP48Up = 0 ∧ (noReturn s).net.convs = [] ∧ (noReturn s).net.frags = [] ∧
    (noReturn s).mem.bankS = s.mem.bankS ∧ (noReturn s).mem.bankG = s.mem.bankG ∧
    get (noReturn s) Reg.descentsDescents = min (2 ^ Reg.descentsDescents.width - 1) (get s Reg.descentsDescents + 1) := by
  obtain ⟨hready, hup, hconvs, hfrags, hmem, hcount⟩ := cutoff_stages_leave s
  have hbankS := congrArg MemSt.bankS hmem
  have hbankG := congrArg MemSt.bankG hmem
  rw [noReturn_eq]
  generalize readyFallen (portsEnded (suppliesEnded (trafficEnded s))) = u at *
  exact ⟨rfl, rfl, rfl, rfl, hready, hup, hconvs, hfrags, hbankS, hbankG, hcount⟩

/-- Settles O46, phase by phase: each command's operation on its enabled branch, and what that operation leaves. -/
theorem descentsRunThroughTheirPhases : Obligations.DescentsRunThroughTheirPhases := by
  unfold Obligations.DescentsRunThroughTheirPhases
  refine ⟨?_, ?_, ?_, ?_, ?_, ?_, ?_, ?_, ?_, ?_, ?_⟩
  · intro s m w hacc hm hphase hhold
    obtain ⟨hreq, hrest⟩ := bitAt_or_one w.toNat
    have hop := pwrCtlWrite_requests (w := w.toNat ||| 1) hm ((hrest 3 (by decide)).trans hhold) hphase hreq
    refine ⟨_, congrArg Host.Outcome.next (accessWrite_accepted s m 0x010004 _ hacc), ?_⟩
    rw [hop, hrest 1 (by decide), hrest 2 (by decide)]
    refine ⟨by simp, by simp, by simp, ?_, regsSame_answered ?_ _ _ _, ?_⟩
    · rw [get_answered]
      exact get_putFlag_same s Reg.pwrCtlHostHold false
    · exact ((regsSame.refl s _).putFlag (f := Reg.pwrCtlHostHold) (by simp) false).congr rfl
    · apply State.eq_of_parts <;> simp [putFlag, put]
  · intro s m hacc hm hphase
    obtain ⟨hreq, hhold⟩ := bitAt_hold true
    have hstill : descentPhase (putFlag s Reg.pwrCtlHostHold true) = 0 := (get_putFlag_ne _ _ _ _ (by decide)).trans hphase
    have hop := (pwrCtlWrite_holds (s := s) hm hreq hhold).trans (requestAbort_idle (descending_false hstill) 3 0)
    refine ⟨_, congrArg Host.Outcome.next (accessWrite_accepted s m 0x010004 _ hacc), ?_⟩
    rw [hop, get_answered]
    refine ⟨get_putFlag_same s Reg.pwrCtlHostHold true, by simp [putFlag, put], regsSame_answered ?_ _ _ _⟩
    exact (regsSame.refl s _).putFlag (f := Reg.pwrCtlHostHold) (by simp) true
  · intro s m hacc hm hdescending hnone
    obtain ⟨hreq, hhold⟩ := bitAt_hold true
    have hstill : descentPhase (putFlag s Reg.pwrCtlHostHold true) = descentPhase s := get_putFlag_ne _ _ _ _ (by decide)
    have hop := (pwrCtlWrite_holds (s := s) hm hreq hhold).trans
      (requestAbort_first ((descending_congr hstill).trans hdescending) hnone 3 0)
    refine ⟨_, congrArg Host.Outcome.next (accessWrite_accepted s m 0x010004 _ hacc), ?_⟩
    rw [hop, get_answered]
    exact ⟨get_putFlag_same s Reg.pwrCtlHostHold true, by simp [putFlag, put]⟩
  · intro s m hacc hm
    obtain ⟨hreq, hhold⟩ := bitAt_hold false
    refine ⟨_, congrArg Host.Outcome.next (accessWrite_accepted s m 0x010004 _ hacc), ?_⟩
    rw [pwrCtlWrite_releases hm hhold hreq, get_answered]
    refine ⟨get_putFlag_same s Reg.pwrCtlHostHold false, by simp [putFlag, put], regsSame_answered ?_ _ _ _⟩
    exact (regsSame.refl s _).putFlag (f := Reg.pwrCtlHostHold) (by simp) false
  · intro s hmay hspent
    refine ⟨_, congrArg Host.Outcome.next (if_pos ⟨hmay, hspent⟩), descentPhase_enterPhase s (by decide),
      enterPhase_phaseTempo s 2, ?_, rfl⟩
    exact ((regsSame.refl s _).put (f := Reg.pwrStatusPhase) (by simp) 2).congr rfl
  · intro s hmay hend
    obtain ⟨hpace, hjoined, hqueues, hrecirc, hpolicy⟩ := linksClosed_leaves s
    refine ⟨_, congrArg Host.Outcome.next (descentLinks_begins hmay hend), ?_⟩
    generalize linksClosed s = u at *
    exact ⟨descentPhase_enterPhase _ (by decide), tempoNo_of_pace hpace, rfl, rfl, hjoined, hqueues, hrecirc, hpolicy⟩
  · intro s p hphase hasked hawake
    obtain ⟨hstate, hlink⟩ := goDown_link p.isLt { s with wake.tc10Asleep := p.val :: s.wake.tc10Asleep } (next := 0) (by decide)
    refine ⟨_, congrArg Host.Outcome.next (if_pos ⟨hphase, hasked, by rw [hawake]; rfl⟩), ?_, hstate, hlink⟩
    rw [goDown_wake]
  · intro s hmay hasleep
    exact ⟨_, congrArg Host.Outcome.next (descentSave_begins hmay hasleep), save_entered s⟩
  · intro s haloft hphase hpending hspent hnone
    have hdescending : descending s = true := by simp [descending, hphase]
    have hop : saveTimeout s = { s with wake.abortFor := some (s.time.now, 4, 0) } :=
      (if_pos ⟨haloft, hphase, by rw [hpending]; rfl, hspent⟩).trans (requestAbort_first hdescending hnone 4 0)
    exact ⟨_, congrArg Host.Outcome.next hop, rfl, rfl, rfl⟩
  · intro s hmay hsaved hnone
    exact ⟨_, congrArg Host.Outcome.next (if_pos ⟨hmay, hsaved, by rw [hnone]; rfl⟩), noReturn_leaves s⟩
  · intro s at_ cause source haloft hboundary hdue hdescending hearly habort hnone hcause hsource
    exact ⟨_, congrArg Host.Outcome.next (descentAbort_early haloft hboundary hdue hdescending hearly habort hnone),
      abortEnded_shows s hearly hcause hsource⟩

end Sys2Proof.Machine
end

section
/-!
Wake events (R286 to R289): the latch, WAKE_CAUSE and what each source adds.
-/
namespace Sys2Proof.Machine

/-- A wake event recorded, with the latch set and the instant of the first kept. -/
def wakeLatched (s : State) (f : Fld) (source : Nat) : State :=
  { noteWake s f source (!s.wake.latch) with
    wake.latch := true, wake.wokeAt := if s.wake.latch then s.wake.wokeAt else s.time.now }

section
variable {s : State} {f : Fld} {source : Nat} {parked descent reset : Bool}

theorem registerWake_moored (h : s.boot.phase = .moored) :
    registerWake s f source true parked descent reset = wakeLatched s f source := by
  unfold registerWake
  rw [h]
  rfl

theorem registerWake_parked (h : s.boot.phase = .parked) :
    registerWake s f source true true descent reset = wakeLatched s f source := by
  unfold registerWake
  rw [h]
  rfl

/-- The bits of WAKE_CAUSE are one wide and apart from SOURCE. -/
theorem wakeCauseFlds_single : ∀ g ∈ wakeCauseFlds, g.width = 1 ∧ Reg.wakeCauseSource.key ≠ g.key := by decide

theorem get_noteWake (hf : f ∈ wakeCauseFlds) (first : Bool) : get (noteWake s f source first) f = 1 := by
  rw [noteWake, get_put_same, (wakeCauseFlds_single f hf).1]
  rfl

theorem get_noteWake_source (hf : f ∈ wakeCauseFlds) (hsource : source < 256) :
    get (noteWake s f source true) Reg.wakeCauseSource = source := by
  rw [noteWake, get_put_ne _ _ _ _ (wakeCauseFlds_single f hf).2, if_pos rfl, get_put_same, Nat.mod_eq_of_lt hsource]
  exact Nat.mod_eq_of_lt hsource

theorem noteWake_regsSame (s : State) (f : Fld) (source : Nat) (first : Bool) :
    regsSame s (noteWake s f source first) [f, Reg.wakeCauseSource] := by
  unfold noteWake
  split
  · exact ((regsSame.refl s _).put (by simp) _).put (by simp) 1
  · exact (regsSame.refl s _).put (by simp) 1

theorem noteWake_frame (s : State) (f : Fld) (source : Nat) (first : Bool) :
    noteWake s f source first = { s with regs := (noteWake s f source first).regs } := by
  unfold noteWake
  split <;> rfl

/-- What the first wake event shows besides its bit: its source and its instant. -/
theorem wakeLatched_first (hf : f ∈ wakeCauseFlds) (hsource : source < 256) (hlatch : s.wake.latch = false) :
    get (wakeLatched s f source) Reg.wakeCauseSource = source ∧ (wakeLatched s f source).wake.wokeAt = s.time.now := by
  have hnoted := get_noteWake_source (s := s) hf hsource
  have hwoke : (wakeLatched s f source).wake.wokeAt = if s.wake.latch then s.wake.wokeAt else s.time.now := rfl
  have hregs : (wakeLatched s f source).regs = (noteWake s f source (!s.wake.latch)).regs := rfl
  rw [hlatch] at hwoke hregs
  exact ⟨(get_congr _ _ _ hregs).trans hnoted, hwoke⟩

/-- A wake event that latches sets its bit of WAKE_CAUSE and changes SOURCE and the record of wakes alone. -/
theorem wakeLatched_sets (hf : f ∈ wakeCauseFlds) : (wakeLatched s f source).wake.latch = true ∧
    get (wakeLatched s f source) f = 1 ∧ regsSame s (wakeLatched s f source) [f, Reg.wakeCauseSource] ∧
    wakeLatched s f source = { s with regs := (wakeLatched s f source).regs, wake := (wakeLatched s f source).wake } := by
  have hnoted := get_noteWake (s := s) (source := source) hf (!s.wake.latch)
  have hsame := noteWake_regsSame s f source (!s.wake.latch)
  have hframe := noteWake_frame s f source (!s.wake.latch)
  unfold wakeLatched
  generalize noteWake s f source (!s.wake.latch) = u at *
  refine ⟨rfl, hnoted, hsame.congr rfl, ?_⟩
  rw [hframe]

/-- Of what the always-on domain holds the latch and its instant alone change. -/
theorem wakeLatched_wake : (wakeLatched s f source).wake = { s.wake with
    latch := true, wokeAt := if s.wake.latch then s.wake.wokeAt else s.time.now } := by
  have hframe := noteWake_frame s f source (!s.wake.latch)
  unfold wakeLatched
  rw [hframe]

theorem wakeLatched_boot : (wakeLatched s f source).boot = s.boot := by
  have hframe := noteWake_frame s f source (!s.wake.latch)
  unfold wakeLatched
  rw [hframe]

end

theorem aloft_false {s : State} (h : s.boot.phase ≠ .aloft) : aloft s = false := by
  cases hp : s.boot.phase <;> simp_all [aloft]

/-- Asleep, the WAKE globals are those the always-on domain keeps. -/
theorem wakeInForce_asleep {s : State} (h : s.boot.phase ≠ .aloft) : wakeInForce s = s.wake.globals := by
  rw [wakeInForce, aloft_false h]
  rfl

/-! Decoders (R287). -/

/-- A decoder of mode 1 is deaf to less than the wake-up pattern. -/
theorem selectiveWake_noPattern {s : State} {ch : Nat} {b : List Byte} (hentry : decoderOf s ch = some b)
    {phases : List (Bool × Nat)} (hnone : wupFound (100 * u8 b 2) phases [] = false) :
    selectiveWake s ch (.wup phases) = s := by
  unfold selectiveWake
  rw [hentry]
  exact if_neg fun h => by simp [hnone] at h

section
variable {s : State} {ch : Nat} {b : List Byte} (hmoored : s.boot.phase = .moored) (hentry : decoderOf s ch = some b)

include hmoored hentry

theorem selectiveWake_pattern (hmode : u8 b 0 = 1) {phases : List (Bool × Nat)}
    (hfound : wupFound (100 * u8 b 2) phases [] = true) :
    selectiveWake s ch (.wup phases) = wakeLatched s Reg.wakeCauseSwWup ch := by
  unfold selectiveWake
  rw [hentry]
  exact (if_pos ⟨hmode, hfound⟩).trans (registerWake_moored hmoored)

/-- A frame that matches, the channel's first since the decoders were armed, is captured. -/
theorem selectiveWake_frame (hmode : u8 b 0 = 2) {m : BusMsg} (hmatch : wufMatches b m = true)
    (hheard : decoderRejects s ch m = false) (hfirst : s.wake.captured.find ch = none) :
    selectiveWake s ch (.wuf m) = { wakeLatched s Reg.wakeCauseSwMatch ch with
      wake.captured := (wakeLatched s Reg.wakeCauseSwMatch ch).wake.captured.set ch m } := by
  have hstill : (wakeLatched s Reg.wakeCauseSwMatch ch).boot.phase = .moored := by rw [wakeLatched_boot, hmoored]
  have hkept : (wakeLatched s Reg.wakeCauseSwMatch ch).wake.captured = s.wake.captured := by rw [wakeLatched_wake]
  unfold selectiveWake
  rw [hentry]
  dsimp only
  rw [if_pos ⟨hmode, hmatch, by rw [hheard]; rfl⟩, registerWake_moored hmoored, if_neg]
  rw [hstill, hkept, SMap.has, hfirst]
  decide

theorem selectiveWake_errors (hmode : u8 b 0 = 2) (herrors : 31 < (s.wake.decoderErr.find ch).getD 0) :
    selectiveWake s ch .errCount = wakeLatched s Reg.wakeCauseSwErrcnt ch := by
  unfold selectiveWake
  rw [hentry]
  exact (if_pos ⟨hmode, herrors⟩).trans (registerWake_moored hmoored)

end

/-- An error counts up on the channel's decoder of mode 2, a frame without one down. -/
theorem decoderFrame_counts {s : State} {ch : Nat} {b : List Byte} (hentry : decoderOf s ch = some b) (hmode : u8 b 0 = 2)
    (err : Bool) : decoderFrame s ch err = { s with
      wake.decoderErr := s.wake.decoderErr.set ch
        (if err then (s.wake.decoderErr.find ch).getD 0 + 1 else (s.wake.decoderErr.find ch).getD 0 - 1) } := by
  unfold decoderFrame
  rw [hentry]
  exact if_neg fun h => h hmode

/-! LIN, TC10, WAKE pins and PERST_N. -/

theorem linWake_armed {s : State} {l : Nat} (hmoored : s.boot.phase = .moored) (harmed : s.wake.armed = true)
    (hbit : bitAt (u8 s.wake.globals 13) l = true) : linWake s l = wakeLatched s Reg.wakeCauseLin (16 + l) :=
  (if_pos ⟨harmed, hbit⟩).trans (registerWake_moored hmoored)

theorem tc10Wake_allowed {s : State} {p : Nat} (hmoored : s.boot.phase = .moored) (ht1 : t1Port p = true)
    (hbit : bitAt (leAt s.wake.globals 24 8) p = true) : tc10Wake s p = wakeLatched s Reg.wakeCauseTc10 p := by
  rw [tc10Wake, if_pos ht1, hbit]
  exact registerWake_moored hmoored

/-- A pin recorded at its active level. -/
def pinActive (s : State) (i : Nat) : State :=
  if s.wake.pinsActive.contains i then s else { s with wake.pinsActive := i :: s.wake.pinsActive }

theorem pinActive_records (s : State) (i : Nat) : (pinActive s i).wake.pinsActive.contains i = true ∧
    (pinActive s i).wake.latch = s.wake.latch ∧ (pinActive s i).boot = s.boot ∧
    pinActive s i = { s with wake := (pinActive s i).wake } := by
  unfold pinActive
  split
  · exact ⟨‹_›, rfl, rfl, rfl⟩
  · exact ⟨by simp, rfl, rfl, rfl⟩

theorem wakePin_enabled {s : State} {i : Nat} (hasleep : s.boot.phase = .moored ∨ s.boot.phase = .parked)
    (hbit : bitAt (wakePinCfg s.wake.globals i) 0 = true) :
    wakePin s i = wakeLatched (pinActive s i) Reg.wakeCausePin i := by
  obtain ⟨-, -, hboot, -⟩ := pinActive_records s i
  have hphase := congrArg BootSt.phase hboot
  have hoff : s.boot.phase ≠ .off := by rcases hasleep with h | h <;> simp [h]
  have haloft : s.boot.phase ≠ .aloft := by rcases hasleep with h | h <;> simp [h]
  unfold wakePin
  rw [if_neg hoff, wakeInForce_asleep haloft]
  dsimp only
  rw [if_pos hbit]
  rcases hasleep with h | h
  · exact registerWake_moored (hphase.trans h)
  · exact registerWake_parked (hphase.trans h)

theorem perstRise_wakes {s : State} (hmoored : s.boot.phase = .moored) (hlow : s.host.perstN = false)
    (hbit : bitAt (leAt s.wake.globals 0 2) 2 = true) :
    perstRise s = wakeLatched { s with host.perstN := true, host.d3cold := false } Reg.wakeCausePerst 0 := by
  unfold perstRise
  rw [hlow, wakeInForce_asleep (by rw [hmoored]; decide)]
  exact (if_pos hbit).trans (registerWake_moored hmoored)

end Sys2Proof.Machine
end

section
/-!
Moored, Parked and the way back (R273, R285, R292, R293, R415), up to the check before training.
-/
namespace Sys2Proof.Machine

/-! Wakes from Parked and from Moored. -/

/-- A wake from Parked is a cold boot of cause 6 that keeps the bits of WAKE_CAUSE (R279, R410). -/
theorem wakeParked_leaves (s : State) : (wakeParked s).boot.phase = .rising ∧ (wakeParked s).boot.cause = 6 ∧
    get (wakeParked s) Reg.wakeCauseTimer = get s Reg.wakeCauseTimer % 2 := by
  obtain ⟨-, hcause, -⟩ := deviceReset_boot s 6
  have htimer : get (deviceReset s 6) Reg.wakeCauseTimer = get s Reg.wakeCauseTimer % 2 :=
    get_deviceReset_kept (by decide) s 6
  unfold wakeParked
  generalize deviceReset s 6 = u at *
  have hshown : fldsSame [Reg.wakeCauseTimer] u (put (put u Reg.wakeCauseFrom 2) Reg.asleepTime (asleepSeconds s)) :=
    ((fldsSame.refl _ u).put (f := Reg.wakeCauseFrom) (by decide) 2).put (f := Reg.asleepTime) (by decide) _
  dsimp only
  split
  · exact ⟨rfl, hcause, ((hshown.put (f := Reg.wakeCauseRetentionLost) (by decide) 1) _ (by decide)).trans htimer⟩
  · exact ⟨rfl, hcause, (hshown _ (by decide)).trans htimer⟩

theorem parkTimer_due {s : State} {n : Nat} (hparked : s.boot.phase = .parked) (hat : s.wake.parkAt = some n)
    (hdue : n ≤ s.time.now) : parkTimer s = wakeParked (noteWake s Reg.wakeCauseTimer 0 (!s.wake.latch)) :=
  if_pos ⟨hparked, by rw [hat]; exact decide_eq_true hdue⟩

/-- Retained coefficients forgotten (R86). -/
def coefsLost (s : State) (n : Nat) : State := forIdx n (fun p st => put st (Reg.trainStatusCoefValid p) 0) s

theorem coefsLost_frame (s : State) (n : Nat) : coefsLost s n = { s with regs := (coefsLost s n).regs } := by
  induction n with
  | zero => rfl
  | succ n ih =>
    rw [coefsLost, forIdx_succ]
    exact congrArg (fun t : State => put t (Reg.trainStatusCoefValid n) 0) ih

/-- Parked, as the device enters it: a reset, but for the wake latch and the timer. -/
theorem enterParked_eq (s : State) : enterParked s = { coefsLost (deviceReset s 6) 48 with
    boot.phase := .parked, wake.sleptAt := s.wake.sleptAt, wake.latch := s.wake.latch, wake.wokeAt := s.wake.wokeAt
    wake.parkAt := if leAt s.wake.globals 40 8 = 0 then none else some (s.time.now + leAt s.wake.globals 40 8 * 1000000000)
    wake.armed := false, wake.decoders := [], wake.retentionBad := s.wake.retentionBad } := rfl

/-- Parked, only fuses and flash are left of memory and policy (R285). -/
theorem enterParked_leaves (s : State) : (enterParked s).boot.phase = .parked ∧ (enterParked s).mem.bankS = [] ∧
    (enterParked s).mem.bankG = [] ∧ (enterParked s).mem.flashA = s.mem.flashA ∧ (enterParked s).mem.flashB = s.mem.flashB ∧
    (enterParked s).otp = s.otp ∧ (enterParked s).env.policy = [] := by
  obtain ⟨hpolicy, hotp, -, hbankS, hbankG, -, hflashA, hflashB⟩ := deviceReset_keeps s 6
  rw [enterParked_eq]
  generalize deviceReset s 6 = u at *
  rw [coefsLost_frame]
  exact ⟨rfl, hbankS, hbankG, hflashA, hflashB, hotp, hpolicy⟩

/-- A cutoff that ends with retention is Moored, and one without it Parked, unless a wake event has registered since. -/
theorem cutoffComplete_moored {s : State} (hphase : s.boot.phase = .cutoff) (htarget : flag s Reg.pwrStatusTarget = false)
    (hlatch : s.wake.latch = false) :
    cutoffComplete s = { s with boot.phase := .moored, wake.sleptAt := s.time.now } := by
  have htarget' : ¬flag s Reg.pwrStatusTarget = true := by simp [htarget]
  have hlatch' : ¬s.wake.latch = true := by simp [hlatch]
  unfold cutoffComplete
  rw [if_pos hphase]
  dsimp only
  exact (if_neg htarget').trans (if_neg hlatch')

theorem cutoffComplete_parked {s : State} (hphase : s.boot.phase = .cutoff) (htarget : flag s Reg.pwrStatusTarget = true)
    (hlatch : s.wake.latch = false) : cutoffComplete s = enterParked { s with wake.sleptAt := s.time.now } := by
  have hlatch' : ¬s.wake.latch = true := by simp [hlatch]
  unfold cutoffComplete
  rw [if_pos hphase]
  dsimp only
  exact (if_pos htarget).trans (if_neg hlatch')

/-- The registers of a wake from Moored: whence, and for how long the device slept. -/
def mooredWakeShown (s : State) : State := put (put s Reg.wakeCauseFrom 1) Reg.asleepTime (asleepSeconds s)

theorem wakeLatch_moored {s : State} (hmoored : s.boot.phase = .moored) (hlatch : s.wake.latch = true) :
    wakeLatch s = wakeMoored s := by
  unfold wakeLatch
  rw [hlatch, hmoored]
  rfl

theorem wakeMoored_rises {s : State} (hgood : s.wake.retentionBad = false) : wakeMoored s =
    { put (mooredWakeShown s) Reg.pwrStatusPhase 5 with boot.phase := .wakeRising, wake.excursion := false } := by
  unfold wakeMoored
  exact if_neg (by simp [hgood])

/-- Retention met broken makes the wake a cold boot of cause 7 that says so (R273, R293). -/
theorem wakeMoored_lost {s : State} (hbad : s.wake.retentionBad = true) :
    wakeMoored s = deviceReset (put (mooredWakeShown s) Reg.wakeCauseRetentionLost 1) 7 := by
  unfold wakeMoored
  exact if_pos hbad

theorem retentionReset_leaves (s : State) :
    (deviceReset (put s Reg.wakeCauseRetentionLost 1) 7).boot.phase = .inReset ∧
    (deviceReset (put s Reg.wakeCauseRetentionLost 1) 7).boot.cause = 7 ∧
    get (deviceReset (put s Reg.wakeCauseRetentionLost 1) 7) Reg.wakeCauseRetentionLost = 1 := by
  obtain ⟨hphase, hcause, -⟩ := deviceReset_boot (put s Reg.wakeCauseRetentionLost 1) 7
  refine ⟨hphase, hcause, ?_⟩
  rw [get_deviceReset_kept (by decide), get_put_same]
  rfl

/-! The release of the switch die and the check. -/

/-- Bringing ports in line with ADMIN_EN leaves where the device stands, its time and what the always-on domain keeps. -/
theorem changes_applyAdmins (s : State) :
    changesOnly [.registers, .accum, .intc, .host, .frames, .links, .edge, .io] s (applyAdmins s) :=
  changesOnly_of_kept (@kept_applyAdmins _ (has_of rfl) (has_of rfl) (has_of rfl) (has_of rfl) (has_of rfl) (has_of rfl)
    (has_of rfl) (has_of rfl) s)

/-- With PE_WAKE_OUT the wake asserts PE_WAKE_N (R291). -/
theorem wakeOutside_asserts {s : State} (h : bitAt (leAt s.wake.globals 0 2) 3 = true) :
    get (wakeOutside s) Reg.hbStatusPeWake = 1 ∧ (wakeOutside s).host.peWakeAt = some s.time.now := by
  have hsent (l : List Nat) (u : State) : (l.foldl (fun st p => emit st (.tc10Wake p)) u).time.now = u.time.now := by
    induction l generalizing u with
    | nil => rfl
    | cons p l ih => exact ih _
  have hasserted (u : State) : get (assertPeWake u) Reg.hbStatusPeWake = 1 ∧ (assertPeWake u).host.peWakeAt = some u.time.now :=
    ⟨get_put_same u Reg.hbStatusPeWake 1, rfl⟩
  unfold wakeOutside
  dsimp only
  rw [if_pos h]
  exact ⟨(hasserted _).1, (hasserted _).2.trans (congrArg some (hsent _ s))⟩

theorem switchDieRelease_leaves {s : State} (hphase : s.boot.phase = .wakeRising) :
    (switchDieRelease s).boot.phase = .wakeCheck ∧ (bitAt (leAt s.wake.globals 0 2) 3 = true →
      get (switchDieRelease s) Reg.hbStatusPeWake = 1 ∧ (switchDieRelease s).host.peWakeAt = some s.time.now) := by
  have hop : switchDieRelease s = wakeOutside (applyAdmins { s with boot.phase := .wakeCheck }) := if_neg (by simp [hphase])
  have hports := changes_applyAdmins { s with boot.phase := .wakeCheck }
  have hboot := hports.boot_eq (by decide)
  have hwake := hports.wake_eq (by decide)
  have htime := hports.time_eq (by decide)
  rw [hop]
  generalize applyAdmins { s with boot.phase := .wakeCheck } = u at *
  refine ⟨(congrArg BootSt.phase ((wakeOutside_leaves u).2.trans hboot)), fun hout => ?_⟩
  have hglobals : u.wake.globals = s.wake.globals := congrArg WakeSt.globals hwake
  have hnow : u.time.now = s.time.now := congrArg TimeSt.now htime
  obtain ⟨hpin, hat⟩ := wakeOutside_asserts (s := u) (by rw [hglobals]; exact hout)
  exact ⟨hpin, hat.trans (by rw [hnow])⟩

/-! Moored: scrubbing and the excursion. -/

/-- What a pass of scrubbing counts (R273). -/
def scrubCounted (s : State) (errs : List RetError) : State :=
  bump (bumpBy s Reg.pwrScrubCorrected (errs.filter fun e => e.bank != some .h && !e.uncorrectable).length) Reg.pwrScrubPasses

theorem mooredScrub_eq {s : State} (hmoored : s.boot.phase = .moored) (errs : List RetError) : mooredScrub s errs =
    { scrubCounted s errs with
      wake.retentionBad := s.wake.retentionBad || errs.any fun e => e.bank != some .h && e.uncorrectable } := by
  have hcorrected : (errs.filter fun e => e.bank != some .h).filter (fun e => !e.uncorrectable) =
      errs.filter fun e => e.bank != some .h && !e.uncorrectable := by
    rw [List.filter_filter]
    exact List.filter_congr fun e _ => Bool.and_comm _ _
  have hlost : (errs.filter fun e => e.bank != some .h).any (fun e => e.uncorrectable) =
      errs.any fun e => e.bank != some .h && e.uncorrectable := List.any_filter
  unfold mooredScrub
  rw [if_neg (not_not.2 hmoored)]
  dsimp only
  rw [hcorrected, hlost]
  cases errs.any fun e => e.bank != some .h && e.uncorrectable with
  | true => rw [Bool.or_true]; rfl
  | false => rw [Bool.or_false]; rfl

theorem scrubCounted_shows (s : State) (errs : List RetError) :
    get (scrubCounted s errs) Reg.pwrScrubCorrected = min (2 ^ Reg.pwrScrubCorrected.width - 1)
      (get s Reg.pwrScrubCorrected + (errs.filter fun e => e.bank != some .h && !e.uncorrectable).length) ∧
    get (scrubCounted s errs) Reg.pwrScrubPasses = min (2 ^ Reg.pwrScrubPasses.width - 1) (get s Reg.pwrScrubPasses + 1) ∧
    regsSame s (scrubCounted s errs) [Reg.pwrScrubCorrected, Reg.pwrScrubPasses] := by
  unfold scrubCounted
  refine ⟨?_, ?_, fun g hg => ?_⟩
  · rw [get_bump_ne _ _ _ (by decide), get_bumpBy_same]
  · rw [get_bump_same, get_bumpBy_ne _ _ _ _ (by decide)]
  · simp only [List.all_cons, List.all_nil, Bool.and_true, Bool.and_eq_true, bne_iff_ne] at hg
    rw [get_bump_ne _ _ _ hg.2, get_bumpBy_ne _ _ _ _ hg.1]

/-- Of the blocks for freshness values at least 56 still program while no more than six have failed (R256). -/
theorem fvBlocks_spared {s : State} (h : s.vault.badBlocks.length ≤ 6) : (fvBlocks s).length = 56 := by
  unfold fvBlocks
  rw [show s.vault.badBlocks.length - 6 = 0 by omega]
  rfl

/-- The freshness values are in a block that programs, with a counter and a seal (R256). -/
theorem fvWrite_saves {s : State} (h : s.vault.badBlocks.length ≤ 6) :
    ∃ b n, (fvWrite s).edge.fvSaves.find b = some ⟨n, s.edge.fv, saveSeal (keyOf s 4) n s.edge.fv⟩ := by
  have hspared := fvBlocks_spared h
  have hblock (n : Nat) : ∃ b, (fvBlocks s)[n % (fvBlocks s).length]? = some b :=
    ⟨_, List.getElem?_eq_getElem (Nat.mod_lt n (by omega))⟩
  unfold fvWrite
  extract_lets n bs s1
  obtain ⟨b, hb⟩ := hblock n
  refine ⟨b, n, ?_⟩
  rw [hb]
  exact SMap.find_set_same _ _ _

/-- Saving freshness values changes the edge's part alone. -/
theorem fvWrite_frame (s : State) : fvWrite s = { s with edge := (fvWrite s).edge } := by
  unfold fvWrite
  dsimp only
  split <;> rfl

/-- What an excursion saves: the freshness values and the key record. -/
def excursionSaved (s : State) : State := saveKeys (fvWrite s)

theorem excursionSaved_frame (s : State) : (excursionSaved s).vault = (saveKeys s).vault ∧
    (excursionSaved s).edge = (fvWrite s).edge ∧
    excursionSaved s = { s with edge := (excursionSaved s).edge, vault := (excursionSaved s).vault } := by
  have hframe := fvWrite_frame s
  unfold excursionSaved
  generalize (fvWrite s).edge = e at *
  rw [hframe]
  exact ⟨rfl, rfl, rfl⟩

theorem excursion_eq {s : State} (hmoored : s.boot.phase = .moored) (hlimit : leAt s.wake.globals 48 4 ≠ 0)
    (hlatch : s.wake.latch = false) (hdue : leAt s.wake.globals 48 4 ≤ asleepSeconds s) : excursion s =
    { putFlag (excursionSaved s) Reg.pwrStatusTarget true with wake.excursion := true } :=
  if_pos ⟨hmoored, hlimit, by rw [hlatch]; rfl, hdue⟩

end Sys2Proof.Machine
end

section
/-!
Forwarding starts (R293, R401): what its faults, channels, grandmasters and messages leave of the pace and of the wake.
-/
namespace Sys2Proof.Machine

/-- Where the device stands and what a wake has latched, armed and captured. -/
structure WakeHeld where
  phase : Phase
  latch : Bool
  armed : Bool
  captured : SMap BusMsg

def wakeHeld (s : State) : WakeHeld := ⟨s.boot.phase, s.wake.latch, s.wake.armed, s.wake.captured⟩

/-- What work that neither paces nor wakes the device leaves. -/
structure Onward (s t : State) : Prop where
  pace : paceSame s t
  held : wakeHeld t = wakeHeld s

section
variable {s t u : State}

theorem Onward.refl (s : State) : Onward s s := ⟨.refl _ s, rfl⟩

theorem Onward.trans (h : Onward s t) (k : Onward t u) : Onward s u := ⟨h.pace.trans k.pace, k.held.trans h.held⟩

theorem Onward.of_regs (h : t.regs = s.regs) (hheld : wakeHeld t = wakeHeld s) : Onward s t := ⟨.of_regs h, hheld⟩

theorem Onward.of_parts (h : paceSame s t) (hboot : t.boot = s.boot) (hwake : t.wake = s.wake) : Onward s t :=
  ⟨h, by simp only [wakeHeld, hboot, hwake]⟩

theorem Onward.of_changes {l : List Part} (h : paceSame s t) (hl : changesOnly l s t) (hboot : Part.boot ∉ l)
    (hwake : Part.wake ∉ l) : Onward s t := .of_parts h (hl.boot_eq hboot) (hl.wake_eq hwake)

theorem Onward.put (h : Onward s t) {f : Fld} (hf : offPace f) (v : Nat) : Onward s (put t f v) := ⟨h.pace.put hf v, h.held⟩

theorem Onward.putFlag (h : Onward s t) {f : Fld} (hf : offPace f) (b : Bool) : Onward s (putFlag t f b) := h.put hf _

theorem Onward.bump (h : Onward s t) {f : Fld} (hf : offPace f) : Onward s (bump t f) := ⟨h.pace.bump hf, h.held⟩

theorem Onward.raise (h : Onward s t) (n : Nat) : Onward s (raiseSource t n) :=
  h.trans (.of_parts (paceSame_raiseSource t n) (raiseSource_boot t n) (raiseSource_wake t n))

end

theorem onward_foldl {α : Type} (g : State → α → State) (hg : ∀ s x, Onward s (g s x)) (l : List α) (s : State) :
    Onward s (l.foldl g s) := by
  induction l generalizing s with
  | nil => exact .refl s
  | cons x l ih => exact (hg s x).trans (ih _)

theorem onward_forIdx (n : Nat) (g : Nat → State → State) (hg : ∀ i s, Onward s (g i s)) (s : State) :
    Onward s (forIdx n g s) := onward_foldl _ (fun s i => hg i s) _ s

/-! Faults and entries. -/

theorem onward_requestOn (s : State) (core : Nat) (kind : JobKind) : Onward s (requestOn s core kind) :=
  .of_parts (paceSame_requestOn s core kind) (requestOn_boot s core kind) (requestOn_wake s core kind)

theorem onward_journal (s : State) (type : Nat) (body : List Byte) : Onward s (journal s type body) := onward_requestOn s _ _

theorem onward_contActivate (s : State) (p cause master : Nat) : Onward s (contActivate s p cause master) := by
  refine .of_parts (.of_regsSame (contActivate_regsSame s p cause master) ?_) (contActivate_boot s p cause master)
    (contActivate_wake s p cause master)
  simp only [List.forall_mem_cons]
  refine ⟨by decide, offPace_of_high ?_, offPace_of_high ?_, by decide, fun _ h => absurd h List.not_mem_nil⟩ <;>
    simp only [Fld.key, Reg.contCauseCause, Reg.contCauseActivations] <;> omega

/-- An event to abort for is no more than noted. -/
theorem onward_requestAbort (s : State) (cause source : Nat) : Onward s (requestAbort s cause source) := by
  unfold requestAbort
  split
  · exact .of_regs rfl rfl
  · exact .refl s

theorem onward_holdFault (s : State) (p code unit : Nat) : Onward s (holdFault s p code unit) := .of_regs rfl rfl

theorem onward_safeShown (s : State) (code : Nat) (byEsc : Bool) : Onward s (safeShown s code byEsc) :=
  ((((((Onward.refl s).put (by decide) _).putFlag (by decide) _).put (by decide) _).put (by decide) _).put (by decide) _)

theorem onward_safeHeld (s : State) (code : Nat) : Onward s (safeHeld s code) :=
  ((onward_contActivate s _ _ _).raise 9).trans (onward_holdFault _ _ _ _)

theorem onward_enterSafe (s : State) (code : Nat) (byEsc : Bool) (fromSev firstTempo : Nat) :
    Onward s (enterSafe s code byEsc fromSev firstTempo) := by
  have hheld := (onward_safeShown s code byEsc).trans (onward_safeHeld _ code)
  rw [enterSafe_eq]
  split_ifs
  · exact (onward_contActivate s _ _ _).trans (onward_holdFault _ _ _ _)
  · exact hheld.trans (.of_regs rfl rfl)
  · exact hheld.trans (onward_requestOn _ _ _)

theorem onward_faultReact (s : State) (code unit sev profile : Nat) : Onward s (faultReact s code unit sev profile) := by
  have habort := onward_requestAbort s 5 0
  unfold faultReact
  split
  · dsimp only
    split_ifs
    · exact habort
    · exact (habort.trans (onward_contActivate _ _ _ _)).trans (onward_holdFault _ _ _ _)
  · exact habort.trans (onward_enterSafe _ _ _ _ _)
  · exact .refl s

theorem onward_refreshFaultN (s : State) : Onward s (refreshFaultN s) :=
  .of_parts (fun f hf => get_refreshFaultN_ne s f ((by decide : offPace Reg.fcStatusFaultN) f hf)) (refreshFaultN_boot s)
    (refreshFaultN_wake s)

theorem onward_overflowShown (s u : State) (code : Nat) : Onward u (overflowShown s u code) := by
  have hshown (a b c d : Nat) : Onward u (put (put (put (put u Reg.fcOvfCode a) Reg.fcOvfTempo b) Reg.fcOvfDue c)
      Reg.fcStatusOvfDueSet d) :=
    ((((Onward.refl u).put (by decide) _).put (by decide) _).put (by decide) _).put (by decide) _
  exact (hshown code (tempoNo s % 2 ^ 32) ((tempoNo s + (faultPolicy s code).2.2) % 2 ^ 32) 1).trans (.of_regs rfl rfl)

theorem onward_faultOverflowed (s : State) (code : Nat) : Onward s (faultOverflowed s code) := by
  have hcounted : Onward s (faultCounted s code) := ((Onward.refl s).put (by decide) _).put (by decide) _
  unfold faultOverflowed
  split
  · exact hcounted.trans (onward_overflowShown _ _ _)
  · exact hcounted

theorem onward_withFault (s : State) (x : FaultSt) : Onward s { s with fault := x } := .of_regs rfl rfl

theorem onward_faultAdded (s : State) (code unit detail : Nat) : Onward s (faultAdded s code unit detail) :=
  (onward_withFault s _).bump (by decide)

theorem onward_recordFault (s : State) (code unit detail : Nat) : Onward s (recordFault s code unit detail) := by
  cases hfind : s.fault.recs.find? (fun r => r.code = code ∧ r.unit = unit) with
  | some r =>
    rw [recordFault_held hfind]
    exact ((onward_withFault s _).trans (onward_faultReact _ _ _ _ _)).trans (onward_refreshFaultN _)
  | none =>
    have hnoted : Onward s (if s.fault.recs.length < 16 then faultAdded s code unit detail
        else faultOverflowed s code) := by
      split
      · exact onward_faultAdded _ _ _ _
      · exact onward_faultOverflowed _ _
    rw [recordFault_new hfind]
    exact (((hnoted.raise 0).raise 8).trans (onward_faultReact _ _ _ _ _)).trans (onward_refreshFaultN _)

theorem onward_withVault (s : State) (x : VaultSt) : Onward s { s with vault := x } := .of_regs rfl rfl

theorem onward_reportTamper (s : State) : Onward s (reportTamper s) := by
  unfold reportTamper
  extract_lets vault s1
  have h1 : Onward s s1 := by
    dsimp only [s1]
    split
    · exact (onward_withVault s _).trans (onward_recordFault _ _ _ _)
    · exact .refl s
  clear_value s1
  split
  · exact ((h1.trans (onward_withVault s1 _)).trans (onward_journal _ _ _)).trans (onward_recordFault _ _ _ _)
  · exact h1

/-! Channels, grandmasters, the ripcord and jobs. -/

theorem onward_jobRejected (s : State) (kind : JobKind) : Onward s (jobRejected s kind) := by
  have hlost : Onward s (bump s Reg.sbStatsLost) := (Onward.refl s).bump (by decide)
  unfold jobRejected
  split
  · exact hlost.trans (.of_regs rfl rfl)
  · exact hlost.trans (.of_regs rfl rfl)
  · exact .refl s

theorem onward_withJobs (s : State) (x : JobSt) : Onward s { s with jobs := x } := .of_regs rfl rfl

theorem onward_rejectLarge (s : State) : Onward s (rejectLarge s) :=
  onward_foldl _ (fun st _ => (onward_withJobs st _).trans (onward_jobRejected _ _)) _ s

theorem onward_writeKeys (s : State) : Onward s (writeKeys s) := by
  unfold writeKeys
  dsimp only
  split
  · exact .refl s
  · exact .of_regs rfl rfl

theorem onward_linDrop (s : State) (n : Nat) : Onward s (linDrop s n) :=
  .of_changes (discarded_linDrop s n).pace
    (changesOnly_of_kept (@kept_linDrop [.registers, .frames, .edge] (has_of rfl) (has_of rfl) (has_of rfl) s n))
    (by decide) (by decide)

theorem onward_withEdge (s : State) (x : EdgeSt) : Onward s { s with edge := x } := .of_regs rfl rfl

theorem offPace_channel (n : Nat) : ∀ f ∈ [Reg.chStatusState n, Reg.canErrTec n, Reg.canErrRec n], offPace f := by
  simp only [List.forall_mem_cons]
  refine ⟨offPace_of_high ?_, offPace_of_high ?_, offPace_of_high ?_, fun _ h => absurd h List.not_mem_nil⟩ <;>
    simp only [Fld.key, Reg.chStatusState, Reg.canErrTec, Reg.canErrRec] <;> omega

theorem onward_applyChan (n : Nat) (s : State) : Onward s (applyChan n s) := by
  obtain ⟨hstate, htec, hrec, -⟩ := List.forall_mem_cons.1 (offPace_channel n) |>.imp_right fun h =>
    (List.forall_mem_cons.1 h).imp_right List.forall_mem_cons.1
  unfold applyChan
  dsimp only
  split_ifs
  · exact (((Onward.refl s).put hstate 1).put htec 0).put hrec 0
  · exact (Onward.refl s).put hstate 5
  · exact ((onward_withEdge s _).put hstate 0).trans (onward_linDrop _ n)
  · exact .refl s

theorem onward_applyChans (s : State) : Onward s (applyChans s) := onward_forIdx 256 applyChan onward_applyChan s

theorem onward_startEdge (s : State) : Onward s (startEdge s) := by
  unfold startEdge
  exact (onward_withEdge s _).trans (onward_applyChans _)

theorem onward_clearCan (n : Nat) (s : State) : Onward s (clearCan n s) := by
  obtain ⟨hstate, htec, hrec, -⟩ := List.forall_mem_cons.1 (offPace_channel n) |>.imp_right fun h =>
    (List.forall_mem_cons.1 h).imp_right List.forall_mem_cons.1
  have hcleared := ((Onward.refl s).put htec 0).put hrec 0
  unfold clearCan
  dsimp only
  split
  · exact hcleared
  · exact hcleared.put hstate 1

theorem onward_setDom (s : State) (d : Domain) (x : DomSt) : Onward s (setDom s d x) := by
  cases d <;> exact .of_regs rfl rfl

theorem onward_noteTb (s u : State) : Onward u (noteTb s u) := by
  unfold noteTb
  split
  · exact .refl u
  · exact (Onward.refl u).raise 18

theorem onward_becomeGm (s : State) (d : Domain) : Onward s (becomeGm s d) := by
  have hfields : offPace (gmFld d) ∧ offPace (lockedFld d) ∧ offPace (holdoverFld d) := by cases d <;> decide
  obtain ⟨hgm, hlocked, hholdover⟩ := hfields
  unfold becomeGm
  extract_lets s1 x s2 s3
  have h1 : Onward s s1 := (((Onward.refl s).putFlag hgm true).putFlag hlocked true).putFlag hholdover false
  have h2 : Onward s s2 := h1.trans (onward_setDom _ _ _)
  have h3 : Onward s s3 := by
    cases d with
    | wc => exact h2.put (f := Reg.tbStatusWcOffset) (by decide) 0
    | gt => exact h2
  exact h3.trans (onward_noteTb s s3)

theorem onward_startGm (s : State) (d : Domain) : Onward s (startGm s d) := by
  unfold startGm
  split
  · exact onward_becomeGm s d
  · exact .refl s

theorem onward_ripcordAtStart (s : State) : Onward s (ripcordAtStart s) := by
  have hactive := onward_contActivate s 0 0 0xFF
  unfold ripcordAtStart
  split
  · generalize contActivate s 0 0 0xFF = u at *
    have hreleased : Onward u { u with cont.pinLatched := false } := .of_regs rfl rfl
    exact (hactive.trans hreleased).putFlag (f := Reg.contStatusRipcordIn) (by decide) _
  · exact .refl s

theorem onward_restoreSource (n : Nat) (s : State) : Onward s (restoreSource n s) := by
  have hstate : offPace (Reg.srcCfgState n) := offPace_of_high (by simp only [Fld.key, Reg.srcCfgState]; omega)
  have hpending : Onward s (becomePending s n 1) := .of_parts (fun f hf => get_becomePending_ne s n 1 f (hstate f hf))
    (becomePending_boot s n 1) (becomePending_wake s n 1)
  unfold restoreSource
  extract_lets st s1
  have h1 : Onward s s1 := by
    dsimp only [s1]
    split
    · exact hpending.put (by decide) _
    · exact .refl s
  clear_value s1
  split_ifs
  · exact .refl s
  · exact h1.put hstate 0
  · exact h1

theorem onward_withIntc (s : State) (x : IntSt) : Onward s { s with intc := x } := .of_regs rfl rfl

theorem onward_restoreSources (s : State) : Onward s (forIdx 2048 restoreSource s) :=
  onward_forIdx 2048 restoreSource onward_restoreSource s

theorem onward_restoreInterrupts (s : State) : Onward s (restoreInterrupts s) := by
  have hcleared (x : IntSt) : Onward s (put { s with intc := x } Reg.intRestoreRepended 0) :=
    (onward_withIntc s x).put (by decide) 0
  unfold restoreInterrupts
  dsimp only
  exact ((hcleared _).trans (onward_restoreSources _)).put (by decide) 1

end Sys2Proof.Machine
end

section
/-!
The first boundary after a wake (R42, R293, R415): captured frames presented, and the whole of FORWARDING_READY.
-/
namespace Sys2Proof.Machine

/-! Networks hit (R278). -/

theorem onward_netSync (s : State) (n : Nat) : Onward s (netSync s n) := by
  unfold netSync
  dsimp only
  split <;> split_ifs <;> exact .of_regs rfl rfl

theorem onward_netHit (s : State) (n : Nat) (h : NetHit) : Onward s (netHit s n h) := by
  have hsynced := onward_netSync s n
  unfold netHit
  generalize netSync s n = u at *
  dsimp only
  split <;> exact hsynced.trans (.of_regs rfl rfl)

theorem onward_draw (s : State) (bound : Nat) : Onward s (draw s bound).2 := .of_regs rfl rfl

theorem onward_noteHits (s : State) (source : Nat) (l : List (List Byte × Option Nat)) : Onward s (noteHits s source l) :=
  onward_foldl _ (fun st e => by
    obtain ⟨b, ident⟩ := e
    cases ident with
    | some i => exact onward_netHit st _ _
    | none => exact (onward_draw st (2 ^ 32)).trans (onward_netHit _ _ _)) l s

theorem onward_receiveUnit (s : State) (source : Nat) (l : List (List Byte × Option Nat)) :
    Onward s (receiveUnit s source l).2 := by
  unfold receiveUnit
  extract_lets hit s1 s2
  have h1 : Onward s s1 := onward_noteHits s source hit
  clear_value s1
  have h2 : Onward s s2 := by
    dsimp only [s2]
    split
    · exact h1
    · exact h1.trans (onward_requestAbort _ _ _)
  clear_value s2
  split_ifs
  · exact h1
  · exact h2
  · exact h2

theorem onward_countEnd (s : State) (p k : Nat) : Onward s (countEnd s p k) := by
  unfold countEnd
  split
  · exact .of_regs rfl rfl
  · exact (Onward.refl s).bump (by decide)
  · exact (Onward.refl s).bump (by decide)

theorem onward_receiveMsg (s : State) (ch : Nat) (m : BusMsg) : Onward s (receiveMsg s ch m).2 := by
  unfold receiveMsg
  extract_lets r
  have hunit : Onward s r.2 := onward_receiveUnit s ch _
  clear_value r
  split
  · exact hunit
  · exact hunit.trans (onward_countEnd _ _ _)

/-! Messages received (R176, R183). -/

theorem onward_takeRate {s t : State} {n : Nat} {b : List Byte} (h : takeRate s n b = some t) : Onward s t := by
  unfold takeRate at h
  dsimp only at h
  repeat' split at h
  all_goals cases h
  · exact .refl s
  all_goals exact .of_regs rfl rfl

theorem onward_takeCells (s : State) (pool port n : Nat) : Onward s (takeCells s pool port n) := by
  have hpools {t : State} (h : t.regs = s.regs) : paceSame s (showPools t) := (fldsSame.of_regs h).trans (paceSame_showPools t)
  have hpace : paceSame s (takeCells s pool port n) := by
    unfold takeCells
    split <;> exact hpools rfl
  exact .of_changes hpace (changesOnly_of_kept (@kept_takeCells [.registers, .frames] (has_of rfl) (has_of rfl) s pool port n))
    (by decide) (by decide)

theorem onward_takeEdge {s t : State} {n : Nat} {g : Bool} (h : takeEdge s n = some (g, t)) : Onward s t := by
  unfold takeEdge at h
  split_ifs at h <;> cases h <;> exact onward_takeCells s _ _ _

theorem onward_tagUnit (s : State) (slot : Nat) : Onward s (tagUnit s slot) := (Onward.refl s).put (offPace_inflight slot) _

theorem onward_setRxList (s : State) (n : Nat) (l : List EdgeMsg) : Onward s (setRxList s n l) :=
  .of_changes (discarded_setRxList s n l).pace
    (changesOnly_of_kept (@kept_setRxList [.registers, .edge] (has_of rfl) (has_of rfl) s n l)) (by decide) (by decide)

theorem onward_countDenied (s : State) (code : Nat) : Onward s (countDenied s code) := by
  unfold countDenied
  split
  · exact (Onward.refl s).bump (by decide)
  · exact .refl s

theorem onward_dropReceived (s : State) (x : EdgeMsg) {f : Fld} (hf : offPace f) : Onward s (dropReceived s x f) :=
  .of_changes (discarded_dropReceived s x hf).pace
    (changesOnly_of_kept (@kept_dropReceived [.registers, .accum, .frames] (has_of rfl) (has_of rfl) (has_of rfl) s x f))
    (by decide) (by decide)

/-- What a verification that is refused counts is of the channel. -/
theorem offPace_verifyStart {s : State} {e : Nat} {b : List Byte} {m : BusMsg} {ch : Nat} {f : Fld} {chk : Nat}
    (h : verifyStart s e b m ch = .error (f, chk)) : offPace f := by
  unfold verifyStart at h
  dsimp only at h
  split_ifs at h <;> cases h <;> refine offPace_of_high ?_ <;>
    simp only [Fld.key, Reg.chSecSecLenDrops, Reg.chSecSecKeyDrops, Reg.chSecFreshFail] <;> omega

theorem offPace_rxJudge {s : State} {x : EdgeMsg} {f : Fld} {chk : Nat} (h : rxJudge s x = .drop f chk) : offPace f := by
  unfold rxJudge at h
  split at h
  · cases h
  · split at h
    next heq =>
      cases h
      exact offPace_verifyStart heq
    · cases h

theorem onward_advanceList (l : List EdgeMsg) (s : State) (done : List EdgeMsg) : Onward s (advanceList s done l).2 := by
  induction l generalizing s done with
  | nil => exact .refl s
  | cons x xs ih =>
    unfold advanceList
    split_ifs
    · exact ih s _
    · exact .refl s
    · split
      · exact ih s _
      next f chk hdrop =>
        exact ((onward_countDenied s chk).trans (onward_dropReceived _ x (offPace_rxJudge hdrop))).trans (ih _ _)
      · exact .refl s

theorem onward_advance (s : State) (n : Nat) : Onward s (advance s n) :=
  (onward_advanceList _ s []).trans (onward_setRxList _ n _)

theorem offPace_received (n : Nat) : ∀ f ∈ [Reg.chRxFrames n, Reg.chSecFmtFormatDrops n, Reg.chAdmin n, Reg.chFilterDrops n,
    Reg.chRateDrops n, Reg.chRxOverrun n], offPace f := by
  intro f hf
  refine offPace_of_high ?_
  simp only [List.mem_cons, List.not_mem_nil, or_false] at hf
  rcases hf with rfl | rfl | rfl | rfl | rfl | rfl <;> simp only [Fld.key, Reg.chRxFrames, Reg.chSecFmtFormatDrops,
    Reg.chAdmin, Reg.chFilterDrops, Reg.chRateDrops, Reg.chRxOverrun] <;> omega

theorem onward_receiveOn (s : State) (n : Nat) (m : BusMsg) (slot stamp : Nat) (inPort : Option Nat) :
    Onward s (receiveOn s n m slot stamp inPort) := by
  have hflds := offPace_received n
  have hover : offPace (Reg.chRxOverrun n) := hflds _ (by simp)
  have hfilter : offPace (Reg.chFilterDrops n) := hflds _ (by simp)
  have hrate : offPace (Reg.chRateDrops n) := hflds _ (by simp)
  unfold receiveOn
  extract_lets s1 r b
  have h1 : Onward s s1 := (Onward.refl s).bump (hflds (Reg.chRxFrames n) (by simp))
  have hmsg : Onward s r.2 := h1.trans (onward_receiveMsg s1 n m)
  clear_value r b
  split_ifs
  · exact h1.bump (hflds (Reg.chSecFmtFormatDrops n) (by simp))
  · exact h1.bump (hflds (Reg.chAdmin n) (by simp))
  · exact hmsg
  · exact hmsg.bump hfilter
  · split
    · exact hmsg.bump hrate
    next s2 htake =>
      have h2 : Onward s s2 := hmsg.trans (onward_takeRate htake)
      dsimp only
      split_ifs
      · exact h2.bump hover
      · split
        · exact (h2.bump hover).bump (by decide)
        next g s3 hcells =>
          exact (((h2.trans (onward_takeEdge hcells)).trans (onward_tagUnit s3 slot)).trans
            (onward_setRxList _ n _)).trans (onward_advance _ n)

/-- Captured frames presented: none is captured any longer (R294). -/
theorem onward_presentCaptured (s : State) : Onward { s with wake.captured := [] } (presentCaptured s) :=
  onward_foldl _ (fun st (e : Nat × BusMsg) => onward_receiveOn st e.1 e.2 _ _ none) _ _

/-! Time and ages resume (R42, R111, R278). -/

/-- The working clock rounded up to a boundary, and both domains unlocked, the tempo's number apart. -/
def timeResumed (s : State) (t : TimeSt) : State :=
  putFlag (putFlag (putFlag (putFlag (putFlag (putFlag { s with time := t } Reg.tbStatusWcLocked false)
    Reg.tbStatusGtLocked false) Reg.tbStatusWcHoldover false) Reg.tbStatusGtHoldover false) Reg.tbStatusWcGm false)
    Reg.tbStatusGtGm false

theorem resumeTime_eq (s : State) : ∃ t, resumeTime s = put (timeResumed s t) Reg.tempoNum (tempoNo s + 1) := ⟨_, rfl⟩

theorem resumeTime_tempo (s : State) : tempoNo (resumeTime s) = (tempoNo s + 1) % 2 ^ 64 := by
  obtain ⟨t, ht⟩ := resumeTime_eq s
  rw [tempoNo, ht]
  exact get_put_same _ _ _

theorem onward_resumeAges (s : State) : Onward s (resumeAges s) := by
  have hshifted (n : NetSt) (seen awake : SMap Nat) :
      Onward s { s with net := n, wake.seen := seen, wake.awakeSince := awake } := .of_regs rfl rfl
  have hepisode (st : State) (awake : SMap Nat) : Onward st { st with wake.awakeSince := awake } := .of_regs rfl rfl
  unfold resumeAges
  refine (hshifted _ _ _).trans (onward_forIdx 32 _ (fun n st => ?_) _)
  split
  · exact hepisode st _
  · exact .refl st

theorem onward_clearCans (s : State) : Onward s (forIdx 16 clearCan s) := onward_forIdx 16 clearCan onward_clearCan s

/-! Forwarding (R293, R401). -/

/-- READY shown, and what every core may use. -/
def readyShown (s : State) : State :=
  put { s with
    boot.phase := .aloft, time.tempoLocal := s.time.now, time.realign := false
    net.slotUsed := 0, jobs.budget := [] } Reg.bootStatusReady 1

theorem readyShown_leaves (s : State) : get (readyShown s) Reg.bootStatusReady = 1 ∧ tempoNo (readyShown s) = tempoNo s ∧
    descentPhase (readyShown s) = descentPhase s ∧
    wakeHeld (readyShown s) = ⟨.aloft, s.wake.latch, s.wake.armed, s.wake.captured⟩ :=
  ⟨get_put_same _ Reg.bootStatusReady 1, get_put_ne _ Reg.bootStatusReady Reg.tempoNum 1 (by decide),
    get_put_ne _ Reg.bootStatusReady Reg.pwrStatusPhase 1 (by decide), rfl⟩

theorem onward_startForwarding (s : State) : Onward (readyShown s) (startForwarding s) := by
  have hop : startForwarding s = refreshFaultN (reportTamper (ripcordAtStart (startGm (startGm
      (writeKeys (rejectLarge (startEdge (readyShown s)))) .wc) .gt))) := rfl
  rw [hop]
  generalize readyShown s = u
  have hkeys := ((onward_startEdge u).trans (onward_rejectLarge _)).trans (onward_writeKeys _)
  have hgm := (hkeys.trans (onward_startGm _ .wc)).trans (onward_startGm _ .gt)
  exact ((hgm.trans (onward_ripcordAtStart _)).trans (onward_reportTamper _)).trans (onward_refreshFaultN _)

theorem onward_syncLists (s : State) : Onward s (syncLists s) :=
  .of_changes (paceSame_of_lowSame (lowSame_syncLists s))
    (changesOnly_of_kept (@kept_syncLists [.registers, .accum, .frames, .tm, .io] (has_of rfl) (has_of rfl) (has_of rfl)
      (has_of rfl) (has_of rfl) s)) (by decide) (by decide)

/-- The state in which forwarding starts: time, ages and CAN counters resumed, phase 0, and interrupts restored. -/
def resumed (s : State) : State :=
  let cleared := put (forIdx 16 clearCan (resumeAges (resumeTime s))) Reg.pwrStatusPhase 0
  if cleared.intc.armed then restoreInterrupts cleared else cleared

theorem resumed_leaves (s : State) : tempoNo (resumed s) = (tempoNo s + 1) % 2 ^ 64 ∧ descentPhase (resumed s) = 0 := by
  have htempo := resumeTime_tempo s
  have hcans := (onward_resumeAges (resumeTime s)).trans (onward_clearCans _)
  unfold resumed
  generalize forIdx 16 clearCan (resumeAges (resumeTime s)) = u at *
  generalize resumeTime s = v at *
  have hnumber : tempoNo (put u Reg.pwrStatusPhase 0) = (tempoNo s + 1) % 2 ^ 64 :=
    (get_put_ne u Reg.pwrStatusPhase Reg.tempoNum 0 (by decide)).trans ((tempoNo_of_pace hcans.pace).trans htempo)
  have hphase : descentPhase (put u Reg.pwrStatusPhase 0) = 0 := get_put_same u Reg.pwrStatusPhase 0
  dsimp only
  split
  · obtain ⟨hpace, -⟩ := onward_restoreInterrupts (put u Reg.pwrStatusPhase 0)
    exact ⟨(tempoNo_of_pace hpace).trans hnumber, (hpace _ (by decide)).trans hphase⟩
  · exact ⟨hnumber, hphase⟩

/-- Decoders disarmed and the wake latch cleared. -/
def unlatched (s : State) : State := { disarm s with wake.latch := false }

theorem unlatched_leaves (s : State) : tempoNo (unlatched s) = tempoNo s ∧ descentPhase (unlatched s) = descentPhase s ∧
    wakeHeld (unlatched s) = ⟨s.boot.phase, false, false, s.wake.captured⟩ := ⟨rfl, rfl, rfl⟩

theorem forwardingReady_eq {s : State} (hphase : s.boot.phase = .wakeTrain) :
    forwardingReady s = presentCaptured (syncLists (startForwarding (unlatched (resumed s)))) := by
  unfold forwardingReady
  rw [if_neg (not_not.2 hphase)]
  extract_lets cleared s2 s3 s4
  have hresumed : resumed s = s3 := by unfold resumed; dsimp only [s3, s2, cleared]
  rw [hresumed]
  clear_value s3
  rfl

/-- Forwarding started and its gate lists taken up, from a state unlatched. -/
theorem onward_forwarding (s : State) : Onward (readyShown s) (syncLists (startForwarding s)) :=
  (onward_startForwarding s).trans (onward_syncLists _)

/-- Captured frames presented from an unlatched state that forwards. -/
theorem presentCaptured_leaves {u w : State} (h : Onward (readyShown (unlatched u)) w) :
    wakeHeld (presentCaptured w) = ⟨.aloft, false, false, []⟩ ∧ get (presentCaptured w) Reg.bootStatusReady = 1 ∧
    descentPhase (presentCaptured w) = descentPhase u ∧ tempoNo (presentCaptured w) = tempoNo u := by
  obtain ⟨hsame, hphases, hunlatched⟩ := unlatched_leaves u
  obtain ⟨hready, hnumber, hstill, hheld⟩ := readyShown_leaves (unlatched u)
  obtain ⟨hstarted, hforwards⟩ := h
  obtain ⟨hpace, hlast⟩ := onward_presentCaptured w
  have hnone : paceSame w { w with wake.captured := [] } := .of_regs rfl
  have hw := (hstarted.trans hnone).trans hpace
  have hbefore := hforwards.trans hheld
  refine ⟨?_, (hw _ (by decide)).trans hready, (hw _ (by decide)).trans (hstill.trans hphases),
    (tempoNo_of_pace hw).trans (hnumber.trans hsame)⟩
  simp only [wakeHeld, WakeHeld.mk.injEq] at hbefore hunlatched
  obtain ⟨haloft, hlatch, harmed, -⟩ := hbefore
  obtain ⟨-, hnotLatched, hnotArmed, -⟩ := hunlatched
  rw [hlast]
  simp only [wakeHeld, haloft, hlatch, harmed, hnotLatched, hnotArmed]

/-- The first boundary after a wake: Aloft and READY at the next tempo, with nothing latched, armed or captured. -/
theorem forwardingReady_leaves {s : State} (hphase : s.boot.phase = .wakeTrain) :
    wakeHeld (forwardingReady s) = ⟨.aloft, false, false, []⟩ ∧ get (forwardingReady s) Reg.bootStatusReady = 1 ∧
    descentPhase (forwardingReady s) = 0 ∧ tempoNo (forwardingReady s) = (tempoNo s + 1) % 2 ^ 64 := by
  obtain ⟨htempo, hzero⟩ := resumed_leaves s
  obtain ⟨hheld, hready, hstill, hnumber⟩ := presentCaptured_leaves (onward_forwarding (unlatched (resumed s)))
  rw [forwardingReady_eq hphase]
  exact ⟨hheld, hready, hstill.trans hzero, hnumber.trans htempo⟩

/-- What is captured or no longer shown at that boundary before forwarding starts leaves its place in the wake. -/
theorem onward_boundaryCaptures (s : State) (n : Nat) : Onward s (captures (put s Reg.snapStatusValid 0) n) := by
  have hhidden : Onward s (put s Reg.snapStatusValid 0) := (Onward.refl s).put (by decide) 0
  exact hhidden.trans (.of_changes (paceSame_of_lowSame (lowSame_captures _ n))
    (changesOnly_of_kept (@kept_captures [.registers, .accum, .intc, .host, .frames, .tm, .cnt, .io] (has_of rfl)
      (has_of rfl) (has_of rfl) (has_of rfl) (has_of rfl) (has_of rfl) (has_of rfl) (has_of rfl) _ n)) (by decide) (by decide))

theorem forwardingBoundary_leaves {s : State} (hphase : s.boot.phase = .wakeTrain) :
    wakeHeld (forwardingBoundary s) = ⟨.aloft, false, false, []⟩ ∧ get (forwardingBoundary s) Reg.bootStatusReady = 1 ∧
    descentPhase (forwardingBoundary s) = 0 ∧ tempoNo (forwardingBoundary s) = (tempoNo s + 1) % 2 ^ 64 := by
  obtain ⟨hpace, hheld⟩ := onward_boundaryCaptures s (tempoNo s + 1)
  have hop : forwardingBoundary s = forwardingReady (captures (put s Reg.snapStatusValid 0) (tempoNo s + 1)) := if_pos hphase
  rw [hop]
  generalize captures (put s Reg.snapStatusValid 0) (tempoNo s + 1) = u at *
  have hstill : u.boot.phase = .wakeTrain := (congrArg WakeHeld.phase hheld).trans hphase
  have hnumber : tempoNo u = tempoNo s := tempoNo_of_pace hpace
  rw [← hnumber]
  exact forwardingReady_leaves hstill

end Sys2Proof.Machine
end

section
/-!
O47: wake sources, sleep, wake and excursion put together.
-/
namespace Sys2Proof.Machine

/-- What the rise of a wake from Moored shows (R293). -/
theorem wakeMoored_leaves {s : State} (hmoored : s.boot.phase = .moored) (hgood : s.wake.retentionBad = false) :
    (wakeMoored s).boot.phase = .wakeRising ∧ descentPhase (wakeMoored s) = 5 ∧ get (wakeMoored s) Reg.wakeCauseFrom = 1 ∧
    get (wakeMoored s) Reg.asleepTime = asleepSeconds s % 2 ^ Reg.asleepTime.width ∧
    regsSame s (wakeMoored s) [Reg.pwrStatusPhase, Reg.wakeCauseFrom, Reg.asleepTime] ∧
    (∀ i < 2, inhMode s i ≠ 2 → s.boot.resetPin = false → inhHigh (wakeMoored s) i = true) ∧
    wakeMoored s = { s with regs := (wakeMoored s).regs, boot := (wakeMoored s).boot, wake := (wakeMoored s).wake } := by
  have hglobals : wakeInForce s = s.wake.globals := wakeInForce_asleep (by rw [hmoored]; decide)
  rw [wakeMoored_rises hgood]
  refine ⟨rfl, get_put_same (mooredWakeShown s) Reg.pwrStatusPhase 5, ?_, ?_, ?_, ?_, rfl⟩
  · exact (get_put_ne (mooredWakeShown s) Reg.pwrStatusPhase _ 5 (by decide)).trans
      ((get_put_ne _ Reg.asleepTime _ _ (by decide)).trans (get_put_same s Reg.wakeCauseFrom 1))
  · exact (get_put_ne (mooredWakeShown s) Reg.pwrStatusPhase _ 5 (by decide)).trans (get_put_same _ Reg.asleepTime _)
  · exact ((((regsSame.refl s _).put (f := Reg.wakeCauseFrom) (by simp) 1).put (f := Reg.asleepTime) (by simp) _).put
      (f := Reg.pwrStatusPhase) (by simp) 5).congr rfl
  · intro i _ hmode hpin
    have hmode' : (bitsAt (u8 s.wake.globals 8) (2 * i) 2 != 2) = true := by
      rw [inhMode, hglobals] at hmode
      exact bne_iff_ne.2 hmode
    have hout : inhHigh { put (mooredWakeShown s) Reg.pwrStatusPhase 5 with
        boot.phase := .wakeRising, wake.excursion := false } i =
        (bitsAt (u8 s.wake.globals 8) (2 * i) 2 != 2 && !s.boot.resetPin && true) := rfl
    rw [hout, hmode', hpin]
    rfl

/-- What the excursion shows and leaves (R292). -/
theorem excursion_leaves {s : State} (hmoored : s.boot.phase = .moored) (hlimit : leAt s.wake.globals 48 4 ≠ 0)
    (hlatch : s.wake.latch = false) (hdue : leAt s.wake.globals 48 4 ≤ asleepSeconds s) :
    (excursion s).wake.excursion = true ∧ get (excursion s) Reg.pwrStatusTarget = 1 ∧
    (excursion s).edge = (fvWrite s).edge ∧ (excursion s).vault = (saveKeys s).vault ∧
    regsSame s (excursion s) [Reg.pwrStatusTarget] ∧ excursion s = { s with
      regs := (excursion s).regs, edge := (excursion s).edge, vault := (excursion s).vault, wake := (excursion s).wake } := by
  obtain ⟨hvault, hedge, hframe⟩ := excursionSaved_frame s
  have hregs := congrArg State.regs hframe
  rw [excursion_eq hmoored hlimit hlatch hdue]
  generalize excursionSaved s = u at *
  refine ⟨rfl, get_putFlag_same u Reg.pwrStatusTarget true, hedge, hvault, ?_, ?_⟩
  · exact ((((regsSame.refl s [Reg.pwrStatusTarget]).congr hregs).putFlag List.mem_cons_self true)).congr rfl
  · rw [hframe]
    rfl

/-- The check of a wake: tags that differ make it a cold boot (R415). -/
theorem wakeCheck_differs {s : State} (hphase : s.boot.phase = .wakeCheck) (hheld : s.cpu.spHeld = false)
    (hdiffer : wakeTags s ≠ s.wake.tags) : wakeCheck s = deviceReset (put s Reg.wakeCauseRetentionLost 1) 7 := by
  unfold wakeCheck
  rw [if_neg (by simp [hphase, hheld]), if_neg hdiffer]

theorem wakeCheck_agrees {s : State} (hphase : s.boot.phase = .wakeCheck) (hheld : s.cpu.spHeld = false)
    (hagree : wakeTags s = s.wake.tags) : wakeCheck s = { s with boot.phase := .wakeTrain } := by
  unfold wakeCheck
  rw [if_neg (by simp [hphase, hheld]), if_pos hagree]

/-- Settles O47, command by command: each operation on its enabled branch, and what that operation leaves. -/
theorem wakingAndSleeping : Obligations.WakingAndSleeping := by
  unfold Obligations.WakingAndSleeping
  refine ⟨?_, ?_, ?_, ?_, ?_, ?_, ?_, ?_, ?_, ?_, ?_, ?_, ?_, ?_, ?_, ?_, ?_, ?_, ?_, ?_⟩
  · intro s ch b phases hmoored hentry hmode hfound
    obtain ⟨hlatch, hbit, hregs, hframe⟩ := wakeLatched_sets (s := s) (f := Reg.wakeCauseSwWup) (source := ch) (by decide)
    exact ⟨_, congrArg Host.Outcome.next (selectiveWake_pattern hmoored hentry hmode hfound), hlatch, hbit,
      wakeLatched_first (by decide) (by omega), hregs, hframe⟩
  · intro s ch b phases hentry _ hnone
    exact congrArg Host.Outcome.next (selectiveWake_noPattern hentry hnone)
  · intro s ch b m hmoored hentry hmode hmatch hheard hfirst
    obtain ⟨hlatch, hbit, -, -⟩ := wakeLatched_sets (s := s) (f := Reg.wakeCauseSwMatch) (source := ch) (by decide)
    exact ⟨_, congrArg Host.Outcome.next (selectiveWake_frame hmoored hentry hmode hmatch hheard hfirst), hlatch, hbit,
      SMap.find_set_same _ _ _⟩
  · intro s ch b hmoored hentry hmode herrors
    obtain ⟨hlatch, hbit, -, -⟩ := wakeLatched_sets (s := s) (f := Reg.wakeCauseSwErrcnt) (source := ch) (by decide)
    exact ⟨_, congrArg Host.Outcome.next (selectiveWake_errors hmoored hentry hmode herrors), hlatch, hbit⟩
  · intro s ch b err hentry hmode
    exact ⟨_, congrArg Host.Outcome.next (decoderFrame_counts hentry hmode err), SMap.find_set_same _ _ _, rfl⟩
  · intro s l hmoored harmed hbit
    exact ⟨_, congrArg Host.Outcome.next (linWake_armed hmoored harmed hbit), wakeLatched_sets (by decide)⟩
  · intro s p hmoored ht1 hbit
    exact ⟨_, congrArg Host.Outcome.next (tc10Wake_allowed hmoored ht1 hbit), wakeLatched_sets (by decide)⟩
  · intro s i hasleep hbit
    obtain ⟨hactive, hlatch, -, hpin⟩ := pinActive_records s i
    refine ⟨_, congrArg Host.Outcome.next (wakePin_enabled hasleep hbit), ?_⟩
    have htime := congrArg State.time hpin
    have hregs := congrArg State.regs hpin
    generalize pinActive s i = u at *
    obtain ⟨hset, hcause, hsame, hframe⟩ := wakeLatched_sets (s := u) (f := Reg.wakeCausePin) (source := i) (by decide)
    refine ⟨hset, hcause, ?_, fun hnot => ?_, ?_, ?_⟩
    · rw [wakeLatched_wake]
      exact hactive
    · exact (wakeLatched_first (by decide) (by omega) (hlatch.trans hnot)).1
    · exact fun g hg => (hsame g hg).trans (get_congr _ _ _ hregs)
    · rw [hframe, hpin]
  · intro s i hon
    exact ⟨_, congrArg Host.Outcome.next (if_neg hon), rfl, rfl⟩
  · intro s hmoored hlow hbit
    obtain ⟨hset, hcause, -, hframe⟩ := wakeLatched_sets (s := { s with host.perstN := true, host.d3cold := false })
      (f := Reg.wakeCausePerst) (source := 0) (by decide)
    refine ⟨_, congrArg Host.Outcome.next (perstRise_wakes hmoored hlow hbit), ?_, hset, hcause⟩
    rw [hframe]
  · intro s n hparked hat hdue
    obtain ⟨hphase, hcause, htimer⟩ := wakeParked_leaves (noteWake s Reg.wakeCauseTimer 0 (!s.wake.latch))
    refine ⟨_, congrArg Host.Outcome.next (parkTimer_due hparked hat hdue), hphase, hcause, ?_⟩
    rw [htimer, get_noteWake (by decide)]
  · intro s hphase htarget hlatch
    exact ⟨_, congrArg Host.Outcome.next (cutoffComplete_moored hphase htarget hlatch), rfl, rfl, rfl, rfl⟩
  · intro s hphase htarget hlatch
    exact ⟨_, congrArg Host.Outcome.next (cutoffComplete_parked hphase htarget hlatch),
      enterParked_leaves { s with wake.sleptAt := s.time.now }⟩
  · intro s hmoored hlatch hgood
    exact ⟨_, congrArg Host.Outcome.next (wakeLatch_moored hmoored hlatch), wakeMoored_leaves hmoored hgood⟩
  · intro s hmoored hlatch hbad
    exact ⟨_, congrArg Host.Outcome.next ((wakeLatch_moored hmoored hlatch).trans (wakeMoored_lost hbad)),
      retentionReset_leaves (mooredWakeShown s)⟩
  · exact fun s hphase => ⟨_, rfl, switchDieRelease_leaves hphase⟩
  · intro s hphase hheld
    refine ⟨_, rfl, wakeCheck_agrees hphase hheld, fun hdiffer => ?_⟩
    rw [wakeCheck_differs hphase hheld hdiffer]
    exact retentionReset_leaves s
  · intro s hphase
    obtain ⟨hheld, hready, hstill, hnumber⟩ := forwardingBoundary_leaves hphase
    refine ⟨_, rfl, ?_⟩
    simp only [wakeHeld, WakeHeld.mk.injEq] at hheld
    obtain ⟨haloft, hlatch, harmed, hcaptured⟩ := hheld
    exact ⟨haloft, hready, hstill, hnumber, hlatch, harmed, hcaptured⟩
  · intro s errs hmoored
    obtain ⟨hcorrected, hpasses, hregs⟩ := scrubCounted_shows s errs
    exact ⟨_, congrArg Host.Outcome.next (mooredScrub_eq hmoored errs), hcorrected, hpasses, rfl, hregs.congr rfl, rfl⟩
  · intro s hmoored hlimit hlatch hdue
    obtain ⟨hrises, htarget, hedge, hvault, hregs, hframe⟩ := excursion_leaves hmoored hlimit hlatch hdue
    refine ⟨_, rfl, hrises, htarget, fun hspare => ?_, hvault, hregs, hframe⟩
    rw [hedge]
    exact fvWrite_saves hspare

end Sys2Proof.Machine
end

section
/-!
The memories' canonical form (R402). A command that lists neither the banks nor flash keeps every memory; each operation
that does write one writes bytes over a canonical memory, clears it, or drops bytes of it, and the rest of what a command
does leaves the memories it finds.
-/
namespace Sys2Proof.Machine

/-! Canonical memories. -/

/-- The memories of a state are in their canonical form. -/
def MemSound (s : State) : Prop := s.mem.canonical = true

theorem canonical_iff (m : MemSt) : m.canonical = true ↔
    (Mem.wf m.bankS 0 = true ∧ Mem.wf m.bankG 0 = true ∧ Mem.wf m.bankH 0 = true ∧ Mem.wf m.bankT 0 = true) ∧
      Mem.wf m.flashA 0xFF = true ∧ Mem.wf m.flashB 0xFF = true := by
  simp only [MemSt.canonical, Bool.and_eq_true, and_assoc]

theorem MemSound.congr {s t : State} (h : MemSound s) (hmem : t.mem = s.mem) : MemSound t := by
  unfold MemSound at h ⊢
  rwa [hmem]

/-- What keeps every list of parts without the memories keeps the memories. -/
theorem mem_of_kept {s t : State} (h : ∀ M : List Part, [Has M .registers] → [Has M .accum] → [Has M .time] →
    [Has M .jobs] → [Has M .policy] → [Has M .epochs] → [Has M .faults] → [Has M .intc] → [Has M .host] → [Has M .cpu] →
    [Has M .cont] → [Has M .boot] → [Has M .img] → [Has M .vault] → [Has M .fuses] → [Has M .anchors] →
    [Has M .sheet] → [Has M .sheetLog] → [Has M .frames] → [Has M .tables] → [Has M .links] → [Has M .tm] →
    [Has M .edge] → [Has M .wake] → [Has M .cnt] → [Has M .io] → [Has M .draws] → kept M t = kept M s) :
    t.mem = s.mem := by
  have hkept : kept (allBut [.banks, .flash]) t = kept (allBut [.banks, .flash]) s := by
    refine @h _ ?_ ?_ ?_ ?_ ?_ ?_ ?_ ?_ ?_ ?_ ?_ ?_ ?_ ?_ ?_ ?_ ?_ ?_ ?_ ?_ ?_ ?_ ?_ ?_ ?_ ?_ ?_ <;> exact has_of rfl
  exact (changesOnly_of_kept hkept).mem_eq (by decide) (by decide)

theorem MemSound.of_kept {s t : State} (hs : MemSound s) (h : ∀ M : List Part, [Has M .registers] → [Has M .accum] →
    [Has M .time] → [Has M .jobs] → [Has M .policy] → [Has M .epochs] → [Has M .faults] → [Has M .intc] →
    [Has M .host] → [Has M .cpu] → [Has M .cont] → [Has M .boot] → [Has M .img] → [Has M .vault] → [Has M .fuses] →
    [Has M .anchors] → [Has M .sheet] → [Has M .sheetLog] → [Has M .frames] → [Has M .tables] → [Has M .links] →
    [Has M .tm] → [Has M .edge] → [Has M .wake] → [Has M .cnt] → [Has M .io] → [Has M .draws] →
    kept M t = kept M s) : MemSound t :=
  hs.congr (mem_of_kept h)

theorem memSound_foldl {α : Type} {g : State → α → State} (hg : ∀ s x, MemSound s → MemSound (g s x)) (l : List α)
    {s : State} (hs : MemSound s) : MemSound (l.foldl g s) := by
  induction l generalizing s with
  | nil => exact hs
  | cons x l ih => exact ih (hg s x hs)

/-! Banks. -/

theorem wf_bankMem {s : State} (hs : MemSound s) (b : Bank) : Mem.wf (bankMem s b) 0 = true := by
  obtain ⟨⟨hS, hG, hH, hT⟩, -⟩ := (canonical_iff _).1 hs
  cases b
  · exact hS
  · exact hG
  · exact hH
  · exact hT

theorem setBankH_mem (s : State) (m : Mem) : (setBankH s m).mem = { s.mem with bankH := m } := by
  have hjobs : (forIdx 6 jobReach s).mem = s.mem :=
    mem_of_kept (by intros; simp only [kept_forIdx, kept_jobReach, implies_true])
  exact congrArg (fun x : MemSt => { x with bankH := m }) hjobs

theorem MemSound.setBank {s : State} (hs : MemSound s) (b : Bank) {m : Mem} (hm : Mem.wf m 0 = true) :
    MemSound (setBank s b m) := by
  obtain ⟨⟨hS, hG, hH, hT⟩, hflash⟩ := (canonical_iff _).1 hs
  cases b
  case s => exact (canonical_iff _).2 ⟨⟨hm, hG, hH, hT⟩, hflash⟩
  case g => exact (canonical_iff _).2 ⟨⟨hS, hm, hH, hT⟩, hflash⟩
  case h =>
    refine (canonical_iff _).2 ?_
    rw [show (Machine.setBank s .h m).mem = _ from setBankH_mem s m]
    exact ⟨⟨hS, hG, hm, hT⟩, hflash⟩
  case t => exact (canonical_iff _).2 ⟨⟨hS, hG, hH, hm⟩, hflash⟩

theorem MemSound.writeBank {s : State} (hs : MemSound s) (b : Bank) (a : Nat) (l : List Byte) :
    MemSound (Machine.setBank s b (Mem.writeBytes (bankMem s b) 0 a l)) :=
  hs.setBank b (Mem.wf_writeBytes _ _ _ _ (wf_bankMem hs b))

theorem MemSound.wipeSecure {s : State} (hs : MemSound s) : MemSound (wipeSecure s) := by
  obtain ⟨⟨hS, hbanks⟩, hflash⟩ := (canonical_iff _).1 hs
  exact (canonical_iff _).2 ⟨⟨Mem.wf_keep s.mem.bankS 0 (fun a _ => decide (a < 0x180000)) hS, hbanks⟩, hflash⟩

theorem MemSound.performBank {s : State} (hs : MemSound s) (m : BusMaster) (b : Bank) (off : Nat) (op : BankOp) :
    MemSound (performBank s m b off op) := by
  cases op with
  | read n => exact hs.of_kept fun _ => kept_answerBus _ _ _
  | write d => exact (hs.writeBank b off _).of_kept fun _ => kept_answerBus _ _ _
  | cas n => exact hs.of_kept fun _ => kept_answerBus _ _ _
  | lockedRead n => exact hs.of_kept fun _ => kept_answerBus _ _ _

theorem MemSound.performAtomic {s : State} (hs : MemSound s) (m : BusMaster) (b : Bank) (off n : Nat)
    (f : Nat → Nat) : MemSound (performAtomic s m b off n f) := by
  have hstored (old : Nat) : MemSound (if wiping s b off then s
      else Machine.setBank s b (Mem.writeBytes (bankMem s b) 0 off (leBytes n (f old % 2 ^ (8 * n))))) := by
    split
    · exact hs
    · exact hs.writeBank b off _
  unfold Machine.performAtomic
  dsimp only
  exact (hstored (if wiping s b off then 0 else leNat (Mem.readBytes (bankMem s b) 0 off n))).of_kept
    (by intros; simp only [kept_bump, kept_pulse, kept_answerBus])

theorem MemSound.grantBank {s : State} (hs : MemSound s) (m : BusMaster) (b : Bank) (w : List BusMaster) (n : Nat) :
    MemSound (grantBank s m b w n) :=
  hs.of_kept fun _ => kept_grantBank _ _ _ _ _

theorem MemSound.refuseRegion {s : State} (hs : MemSound s) (m : BusMaster) (off : Nat) (w v : Bool) :
    MemSound (refuseBank (regionViolation s m off w) m off 3 v) :=
  hs.of_kept (by intros; simp only [kept_refuseBank, kept_regionViolation])

/-- An access past the error check finds the memories as they were. -/
theorem MemSound.eccGate {s : State} (hs : MemSound s) {f : State → State} (hf : ∀ t, MemSound t → MemSound (f t))
    (m : BusMaster) (b : Bank) (off n : Nat) (w : Bool) (ecc : BankEcc) : MemSound (eccGate s m b off n w ecc f) := by
  unfold Machine.eccGate
  split
  · exact hs.of_kept (by intros; simp only [kept_refuseBank, kept_unmark])
  · split
    · exact hs.of_kept (by intros; simp only [kept_refuseBank, kept_eccError])
    · exact hf _ (hs.of_kept fun _ => kept_bump _ _)
    · exact hf _ hs

theorem MemSound.bankAccess {s : State} (hs : MemSound s) (m : BusMaster) (b : Bank) (off : Nat) (op : BankOp)
    (ecc : BankEcc) (w : List BusMaster) : MemSound (bankAccess s m b off op ecc w) := by
  have hg := hs.grantBank m b w 1
  unfold Machine.bankAccess
  dsimp only
  split
  · exact hs.of_kept fun _ => kept_answerBus _ _ _
  · split
    · exact hs
    · split
      · exact hg.of_kept fun _ => kept_answerBus _ _ _
      · split
        · exact hg.refuseRegion m off _ _
        · exact hg.eccGate (fun t ht => ht.performBank m b off op) m b off _ _ ecc

theorem MemSound.atomic {s : State} (hs : MemSound s) (m : BusMaster) (b : Bank) (off : Nat) (wide : Bool)
    (f : Nat → Nat) (ecc : BankEcc) (w : List BusMaster) : MemSound (atomic s m b off wide f ecc w) := by
  have hg := hs.grantBank m b w 2
  unfold Machine.atomic
  dsimp only
  generalize (if wide then 8 else 4) = n
  split
  · exact hs.of_kept fun _ => kept_refuseAtomic _ _
  · split
    · exact hs
    · split
      · exact hg.of_kept fun _ => kept_answerBus _ _ _
      · split
        · exact hg.refuseRegion m off _ _
        · exact hg.eccGate (fun t ht => ht.performAtomic m b off _ f) m b off _ _ ecc

theorem MemSound.tamper {s : State} (hs : MemSound s) (c : TamperCause) (ns : Nat) : MemSound (tamper s c ns) := by
  have ha : MemSound (tamperActs s c ns).2 := hs.of_kept fun _ => kept_tamperActs _ _ _
  unfold Machine.tamper
  dsimp only
  split
  · exact hs
  · split
    · exact ha
    · refine MemSound.of_kept (s := Machine.wipeSecure { put (put (tamperActs s c ns).2 Reg.vaultStatusTamperLatch 1)
        Reg.vaultStatusTamperCause (get (tamperActs s c ns).2 Reg.vaultStatusTamperCause ||| 2 ^ tamperBit c) with
        vault.slots := [], vault.tamperPower := powerCode s }) (ha.congr rfl).wipeSecure ?_
      intros
      simp only [kept_ite, ite_self, kept_recordFault, kept_refreshSheet, kept_mk, true_or, or_true, and_self, listed]

/-! Decisions. -/

theorem firewall_mem (s : State) (u : Nat) (pk : Packet) (c : Classed) (whole : Bool) (slot : Nat) :
    (firewall s u pk c whole slot).mem = s.mem := by
  refine mem_of_kept fun M => ?_
  intros
  unfold firewall
  dsimp only
  split
  · simp only [kept_freePacket, kept_setPacket]
  · split
    · simp only [kept_freePacket, kept_bump, kept_setPacket]
    · split
      · simp only [kept_freePacket, kept_bump, kept_setPacket]
      · rename_i s1 hconv
        have hs1 : kept M s1 = kept M s := by
          split at hconv
          · cases hconv
            exact kept_setPacket _ _ _
          · exact (kept_convUpdate _ _ _ _ _ hconv).trans (kept_setPacket _ _ _)
        (repeat' split) <;> simp only [kept_bump, kept_countIn, kept_freePacket, kept_learnFrame, kept_recirculate,
          kept_toEndpoint, kept_sendFrame, kept_holdRoute, hs1]

theorem decideFrame_mem (s : State) (u : Nat) (pk : Packet) (ecc : DecisionEcc) :
    (decideFrame s u pk ecc).mem = s.mem := by
  have hclass (slot : Nat) (whole : Bool) : (keptOut (classifyFrame s pk slot whole ecc)).mem = s.mem :=
    mem_of_kept fun _ => kept_classifyFrame _ _ _ _ _
  unfold decideFrame
  dsimp only
  split
  · exact mem_of_kept (by intros; simp only [kept_bufferError, kept_setPacket, kept_slotRetire])
  · split
    · rename_i retired s1 hout
      refine Eq.trans (mem_of_kept ?_) ((congrArg (fun z => (keptOut z).mem) hout).symm.trans (hclass _ _))
      intros
      simp only [kept_freePacket, kept_setPacket, keptOut_drop]
    · rename_i x s1 hout
      exact (firewall_mem _ _ _ _ _ _).trans
        ((congrArg (fun z => (keptOut z).mem) hout).symm.trans (hclass _ _))

theorem decideRecirc_mem (s : State) (ecc : DecisionEcc) : (decideRecirc s ecc).mem = s.mem := by
  unfold decideRecirc
  split
  · rfl
  · split
    · rfl
    · dsimp only
      split
      · rfl
      · refine (decideFrame_mem _ _ _ _).trans (mem_of_kept ?_)
        intros
        simp only [kept_setPacket, kept_giveCells, kept_put, kept_mk, true_or, or_true, and_self, listed]

theorem noteServed_mem (s : State) (src : UnitSource) : (noteServed s src).mem = s.mem := by
  cases src <;> rfl

theorem unitDecision_mem (s : State) (src : UnitSource) (ecc : DecisionEcc) : (unitDecision s src ecc).mem = s.mem := by
  have hnote (u : State) : (noteCorrected u ecc).mem = u.mem := mem_of_kept fun _ => kept_noteCorrected _ _
  unfold unitDecision
  dsimp only
  split
  · rfl
  · cases src with
    | port p =>
      dsimp only
      split
      · exact (decideFrame_mem _ _ _ _).trans ((hnote _).trans (noteServed_mem _ _))
      · exact noteServed_mem _ _
    | channel n =>
      exact (mem_of_kept fun _ => kept_decideChannel _ _ _).trans ((hnote _).trans (noteServed_mem _ _))
    | packed b => exact (mem_of_kept fun _ => kept_decidePacked _ _).trans (noteServed_mem _ _)
    | recirc => exact (decideRecirc_mem _ _).trans ((hnote _).trans (noteServed_mem _ _))

/-! Resets and sleep. -/

theorem MemSound.deviceReset {s : State} (hs : MemSound s) (cause : Nat) : MemSound (deviceReset s cause) := by
  obtain ⟨-, hflash⟩ := (canonical_iff _).1 hs
  have hoff : MemSound (powerOff s) := (canonical_iff _).2 ⟨⟨rfl, rfl, rfl, rfl⟩, hflash⟩
  unfold Machine.deviceReset
  exact hoff.congr (mem_of_kept (by intros; simp only [kept_foldl, kept_put, kept_putFlag, implies_true, kept_mk,
    true_or, or_true, and_self, listed]))

theorem MemSound.powerOff {s : State} (hs : MemSound s) : MemSound (powerOff s) := by
  obtain ⟨-, hflash⟩ := (canonical_iff _).1 hs
  exact (canonical_iff _).2 ⟨⟨rfl, rfl, rfl, rfl⟩, hflash⟩

theorem MemSound.beginReset {s : State} (hs : MemSound s) (cause : Nat) : MemSound (beginReset s cause) := by
  have hd := hs.deviceReset cause
  have hphase (u : State) (hu : MemSound u) (p : Phase) : MemSound { u with boot.phase := p } := hu
  unfold Machine.beginReset
  split
  · exact hs
  · exact hphase _ hd _
  · exact hphase _ hd _
  · exact hphase _ hd _
  · exact hphase _ hd _
  · exact hphase _ hd _
  · exact hd

end Sys2Proof.Machine
end

section
/-!
The memories' canonical form (R402): sleep and start-up, firmware slots, castling, the recovery mailbox, writes to
registers and to Bank H, boundaries, and every step.
-/
namespace Sys2Proof.Machine

/-! Sleep. -/

theorem noReturn_mem (s : State) : (noReturn s).mem = { s.mem with bankH := [] } := by
  obtain ⟨-, -, -, -, hmem, -⟩ := cutoff_stages_leave s
  rw [noReturn_eq]
  generalize readyFallen (portsEnded (suppliesEnded (trafficEnded s))) = u at *
  have harm : (armWake u).mem = u.mem := mem_of_kept fun _ => kept_armWake _
  exact congrArg (fun x : MemSt => { x with bankH := [] }) (harm.trans hmem)

theorem MemSound.cutoff {s : State} (hs : MemSound s) : MemSound (cutoff s) := by
  obtain ⟨⟨hS, hG, -, hT⟩, hflash⟩ := (canonical_iff _).1 hs
  unfold Machine.cutoff
  split
  · refine (canonical_iff _).2 ?_
    rw [noReturn_mem]
    exact ⟨⟨hS, hG, rfl, hT⟩, hflash⟩
  · exact hs

theorem MemSound.wakeParked {s : State} (hs : MemSound s) : MemSound (wakeParked s) := by
  have hd := hs.deviceReset 6
  unfold Machine.wakeParked
  dsimp only
  generalize Machine.deviceReset s 6 = u at hd ⊢
  split
  · exact hd
  · exact hd

theorem MemSound.wakeMoored {s : State} (hs : MemSound s) : MemSound (wakeMoored s) := by
  unfold Machine.wakeMoored
  dsimp only
  split
  · exact MemSound.deviceReset (s := put (put (put s Reg.wakeCauseFrom 1) Reg.asleepTime (asleepSeconds s))
      Reg.wakeCauseRetentionLost 1) hs 7
  · exact hs

theorem MemSound.enterParked {s : State} (hs : MemSound s) : MemSound (enterParked s) := by
  refine (hs.deviceReset 6).of_kept ?_
  intros
  simp only [enterParked_eq, coefsLost, kept_mk, kept_forIdx, kept_put, implies_true, true_or, or_true, and_self, listed]

theorem MemSound.cutoffComplete {s : State} (hs : MemSound s) : MemSound (cutoffComplete s) := by
  have hslept : MemSound (Machine.enterParked { s with wake.sleptAt := s.time.now }) := MemSound.enterParked hs
  unfold Machine.cutoffComplete
  dsimp only
  split
  · split
    · split
      · exact hslept.wakeParked
      · exact hslept
    · split
      · exact MemSound.wakeMoored hs
      · exact hs
  · split
    · exact hs.enterParked
    · exact hs

theorem MemSound.wakeLatch {s : State} (hs : MemSound s) : MemSound (wakeLatch s) := by
  unfold Machine.wakeLatch
  split
  · exact hs
  · split
    · exact hs.wakeMoored
    · exact hs.wakeParked
    · exact hs

theorem MemSound.parkTimer {s : State} (hs : MemSound s) : MemSound (parkTimer s) := by
  unfold Machine.parkTimer
  split
  · exact (hs.of_kept fun _ => kept_noteWake _ _ _ _).wakeParked
  · exact hs

theorem MemSound.wakeCheck {s : State} (hs : MemSound s) : MemSound (wakeCheck s) := by
  unfold Machine.wakeCheck
  split
  · exact hs
  · split
    · exact hs
    · exact MemSound.deviceReset (s := put s Reg.wakeCauseRetentionLost 1) hs 7

/-! Resets. -/

theorem MemSound.vbatLoss {s : State} (hs : MemSound s) : MemSound (vbatLoss s) := by
  unfold Machine.vbatLoss
  split
  · exact hs
  · exact hs.powerOff

theorem MemSound.thermalTrip {s : State} (hs : MemSound s) : MemSound (thermalTrip s) := by
  unfold Machine.thermalTrip
  split
  · exact hs
  · exact hs.beginReset 1

theorem MemSound.resetAssert {s : State} (hs : MemSound s) (ns : Nat) : MemSound (resetAssert s ns) := by
  unfold Machine.resetAssert
  dsimp only
  split
  · exact hs
  · split
    · exact hs.beginReset 1
    · split
      · exact MemSound.beginReset (s := (draw s 2).2) hs 1
      · exact hs

theorem MemSound.resetWrite {s : State} (hs : MemSound s) (m : Master) (w : Nat) : MemSound (resetWrite s m w) := by
  unfold Machine.resetWrite
  split
  · exact hs.beginReset 2
  · exact hs

/-- A write to the control space leaves canonical memories where its effect does. -/
theorem MemSound.accessWrite {s : State} (hs : MemSound s) {effect : State → State}
    (heffect : MemSound (effect s)) (m : Master) (a : Nat) : MemSound (accessWrite s m a effect) := by
  unfold Machine.accessWrite performWrite
  split
  · split
    · exact hs.of_kept (by intros; simp only [kept_noteGrant, kept_writeUnanswered])
    · split
      · exact hs.of_kept (by intros; simp only [kept_noteGrant, kept_refuseWrite])
      · exact heffect.of_kept (by intros; simp only [kept_noteGrant, kept_answer])
  · exact hs

theorem MemSound.resetReq {s : State} (hs : MemSound s) (m : Master) (w : Nat) : MemSound (resetReq s m w) := by
  have hw := hs.resetWrite m w
  unfold Machine.resetReq
  split
  · split
    · exact hw.of_kept (by intros; simp only [kept_noteGrant, kept_answer])
    · exact hs
  · exact hs.accessWrite hw m 0x10

/-! Firmware slots. -/

theorem wf_slotMem {s : State} (hs : MemSound s) (b : Bool) : Mem.wf (slotMem s b) 0xFF = true := by
  obtain ⟨-, hA, hB⟩ := (canonical_iff _).1 hs
  cases b
  · exact hA
  · exact hB

theorem MemSound.setSlotMem {s : State} (hs : MemSound s) (b : Bool) {m : Mem} (hm : Mem.wf m 0xFF = true) :
    MemSound (setSlotMem s b m) := by
  obtain ⟨hbanks, hA, hB⟩ := (canonical_iff _).1 hs
  cases b
  · exact (canonical_iff _).2 ⟨hbanks, hm, hB⟩
  · exact (canonical_iff _).2 ⟨hbanks, hA, hm⟩

theorem MemSound.programSlot {s : State} (hs : MemSound s) (b : Bool) (off : Nat) (bs : List Byte) :
    MemSound (programSlot s b off bs) :=
  hs.setSlotMem b (Mem.wf_writeBytes _ _ _ _ (wf_slotMem hs b))

theorem MemSound.programPrefer {s : State} (hs : MemSound s) (b : Bool) : MemSound (programPrefer s b) :=
  hs.programSlot b _ _

theorem MemSound.eraseSlot {s : State} (hs : MemSound s) (b : Bool) : MemSound (eraseSlot s b) :=
  MemSound.setSlotMem (s := { s with img.spoiled := s.img.spoiled.filter (· ≠ b) }) hs b rfl

theorem MemSound.imgEraseDone {s : State} (hs : MemSound s) : MemSound (imgEraseDone s) := by
  unfold Machine.imgEraseDone
  split
  · split
    · exact (hs.eraseSlot _).of_kept fun _ => kept_imgDone _ _
    · exact hs
  · exact hs

theorem MemSound.imgWriteDone {s : State} (hs : MemSound s) : MemSound (imgWriteDone s) := by
  unfold Machine.imgWriteDone
  split
  · split
    · exact (hs.programSlot _ _ _).of_kept fun _ => kept_imgDone _ _
    · exact hs
  · exact hs

/-! Code areas and start-up. -/

theorem MemSound.copyParts {s : State} (hs : MemSound s) (b : Bool) (sp gc : Nat) : MemSound (copyParts s b sp gc) := by
  obtain ⟨⟨hS, hG, hbanks⟩, hflash⟩ := (canonical_iff _).1 hs
  unfold Machine.copyParts
  exact (canonical_iff _).2 ⟨⟨Mem.wf_writeBytes _ _ _ _ hS, Mem.wf_writeBytes _ _ _ _ hG, hbanks⟩, hflash⟩

theorem MemSound.enterRecovery {s : State} (hs : MemSound s) (entry : Nat) : MemSound (enterRecovery s entry) := by
  obtain ⟨⟨hS, hG, -, hT⟩, hflash⟩ := (canonical_iff _).1 hs
  exact (canonical_iff _).2
    ⟨⟨hS, hG, Mem.wf_writeBytes _ _ _ _ (Mem.wf_writeBytes _ _ _ _ rfl), hT⟩, hflash⟩

theorem MemSound.memoryInitDone {s : State} (hs : MemSound s) (fail : MemInitFail) :
    MemSound (memoryInitDone s fail) := by
  obtain ⟨-, hflash⟩ := (canonical_iff _).1 hs
  have hclear : MemSound (showPrefer { s with mem.bankS := [], mem.bankG := [], mem.bankH := [], mem.bankT := [] }) :=
    (canonical_iff _).2 ⟨⟨rfl, rfl, rfl, rfl⟩, hflash⟩
  unfold Machine.memoryInitDone
  dsimp only
  generalize showPrefer { s with mem.bankS := [], mem.bankG := [], mem.bankH := [], mem.bankT := [] } = u at hclear ⊢
  split
  · exact hs
  · split
    · exact hs
    · exact hs
    · split
      · exact hclear
      · split
        · exact hclear.enterRecovery 3
        · split
          · exact hclear.enterRecovery 2
          · split
            · exact hclear.enterRecovery 1
            · exact hclear

theorem verdict_mem (s : State) (r : Except (Nat × Option Nat) Loaded) : (verdict s r).2.mem = s.mem := by
  unfold verdict
  dsimp only
  split <;> rfl

theorem MemSound.imagePassDone {s : State} (hs : MemSound s) (damaged : List Nat) :
    MemSound (imagePassDone s damaged) := by
  unfold Machine.imagePassDone
  dsimp only
  split
  · exact hs
  · split
    · exact hs.enterRecovery 1
    · rename_i b rest _
      have hcopied : MemSound (if headerOk (slotHeader s b) then Machine.copyParts s b 0 0 else s) := by
        split
        · exact hs.copyParts b 0 0
        · exact hs
      have hjudged : MemSound (put (verdict (if headerOk (slotHeader s b) then Machine.copyParts s b 0 0 else s)
          (verifySlot s b false)).2 (if b then Reg.bootStatusResultB else Reg.bootStatusResultA)
          (verdict (if headerOk (slotHeader s b) then Machine.copyParts s b 0 0 else s) (verifySlot s b false)).1) :=
        hcopied.congr (verdict_mem _ _)
      generalize put (verdict _ _).2 _ _ = u at hjudged ⊢
      split
      · exact hjudged.of_kept (by intros; simp only [kept_putFlag, kept_acceptImage, kept_readBlob])
      · split
        · exact hjudged.enterRecovery 1
        · exact hjudged

/-! Castling. -/

theorem MemSound.castlingLoadDone {s : State} (hs : MemSound s) (ok : Bool) : MemSound (castlingLoadDone s ok) := by
  have hcopied := MemSound.copyParts (hs.of_kept fun _ => kept_dropDigest s) (inactiveB s) (1 - s.boot.spArea)
    (1 - s.boot.gcArea)
  unfold Machine.castlingLoadDone
  dsimp only
  generalize Machine.copyParts (dropDigest s) (inactiveB s) (1 - s.boot.spArea) (1 - s.boot.gcArea) = u at hcopied ⊢
  split
  · exact hs
  · split
    · exact hcopied
    · split
      · exact hcopied
      · exact hcopied

theorem MemSound.castFinish {s : State} (hs : MemSound s) : MemSound (castFinish s) :=
  (MemSound.programPrefer (s := { s with cpu.spWindow := false }) hs s.boot.slotB).of_kept
    (by intros; simp only [Machine.castFinish, kept_castlingEntry, kept_bump, kept_castIdle])

theorem MemSound.writeCarried {s : State} (hs : MemSound s) : MemSound (writeCarried s) := by
  obtain ⟨⟨hS, hG, hbanks⟩, hflash⟩ := (canonical_iff _).1 hs
  unfold Machine.writeCarried
  dsimp only
  split
  · exact hs
  · exact (canonical_iff _).2 ⟨⟨hS, Mem.wf_writeBytes _ _ _ _ hG, hbanks⟩, hflash⟩

theorem MemSound.handoverJob {s : State} (hs : MemSound s) : MemSound (handoverJob s) := by
  unfold Machine.handoverJob
  split
  · exact hs.writeCarried
  · exact hs

theorem MemSound.castBefore {s : State} (hs : MemSound s) : MemSound (castBefore s) := by
  unfold Machine.castBefore
  dsimp only
  split
  · exact hs
  · split
    · exact hs.of_kept fun _ => kept_abandon _ _
    · split
      · split
        · exact hs.writeCarried.of_kept fun _ => kept_abandon _ _
        · exact hs.writeCarried
      · exact hs

theorem MemSound.castAfter {s : State} (hs : MemSound s) : MemSound (castAfter s) := by
  unfold Machine.castAfter
  split
  · split
    · exact hs.of_kept fun _ => kept_castLoad _
    · exact hs
  · split
    · exact hs.of_kept fun _ => kept_castPrepare _
    · exact hs
  · split
    · exact hs.of_kept fun _ => kept_castFlip _
    · exact hs
  · split
    · exact hs.castFinish
    · exact hs
  · exact hs

/-! The recovery mailbox. -/

theorem MemSound.writeH {s : State} (hs : MemSound s) (a : Nat) (l : List Byte) :
    MemSound (setBankH s (Mem.writeBytes s.mem.bankH 0 a l)) := hs.writeBank .h a l

theorem MemSound.mbStatus {s : State} (hs : MemSound s) (st res tag : Nat) : MemSound (mbStatus s st res tag) :=
  hs.writeH 0x10 _

theorem MemSound.romStart {s : State} (hs : MemSound s) (op : Nat) (b : Bool) (off len tag : Nat) (bs : List Byte) :
    MemSound (romStart s op b off len tag bs) :=
  MemSound.mbStatus (s := { s with
    img.op := some (op, off, bs), img.rom := some (op, b, off, len)
    img.romVerified := if op ≤ 2 then s.img.romVerified.filter (· ≠ b) else s.img.romVerified }) hs 1 0 tag

theorem MemSound.romPoll {s : State} (hs : MemSound s) : MemSound (romPoll s) := by
  unfold Machine.romPoll
  dsimp only
  split
  · exact hs
  · split
    · exact hs.mbStatus 2 12 _
    · split
      · exact hs.romStart _ _ _ _ _ _
      · split
        · exact hs.mbStatus 2 5 _
        · split
          · exact hs.mbStatus 2 4 _
          · exact hs.romStart _ _ _ _ _ _
      · exact hs.romStart _ _ _ _ _ _
      · split
        · exact (hs.programPrefer _).beginReset 5
        · exact hs.mbStatus 2 11 _

theorem MemSound.mbCommand {s : State} (hs : MemSound s) (op : Nat) (b : Bool) (off len : Nat) :
    MemSound (mbCommand s op b off len) := by
  unfold Machine.mbCommand
  split
  · exact hs
  · exact (((hs.writeH 8 _).writeH 0xC _).writeH 4 _).romPoll

theorem MemSound.recoveryDone {s : State} (hs : MemSound s) : MemSound (recoveryDone s) := by
  have hidle : MemSound { s with img.op := none, img.rom := none } := hs
  unfold Machine.recoveryDone
  dsimp only
  split
  · exact hs
  · split
    · exact hs
    · refine MemSound.romPoll ?_
      split
      · exact (hidle.eraseSlot _).mbStatus 2 1 _
      · exact (hidle.programSlot _ _ _).mbStatus 2 1 _
      · refine MemSound.mbStatus ?_ 2 _ _
        split
        · exact hidle.congr (verdict_mem _ _)
        · exact hidle.congr (verdict_mem _ _)

/-! Life-cycle changes and jobs. -/

theorem MemSound.lcChange {s : State} (hs : MemSound s) (m : Master) (goal : Nat) : MemSound (lcChange s m goal) := by
  unfold Machine.lcChange
  dsimp only
  refine (MemSound.wipeSecure ?_).beginReset 3
  exact hs.of_kept (by intros; simp only [kept_lcErase, kept_sheetAppend, kept_draw, kept_mk, true_or, or_true, and_self,
    listed])

theorem MemSound.lcAct {s : State} (hs : MemSound s) (m : Master) (goal : Nat) : MemSound (lcAct s m goal) := by
  unfold Machine.lcAct
  split
  · exact hs.of_kept fun _ => kept_lcResult _ _
  · split
    · exact hs.of_kept (by intros; simp only [kept_lcResult, kept_journal])
    · exact hs.lcChange m goal

theorem MemSound.lcTaken {s : State} (hs : MemSound s) (m : Master) (goal : Nat) : MemSound (lcTaken s m goal) := by
  unfold Machine.lcTaken
  split
  · exact hs
  · exact hs.of_kept fun _ => kept_lcResult _ _
  · split
    · exact hs
    · exact hs.lcAct m goal

theorem MemSound.lcReqWrite {s : State} (hs : MemSound s) (m : Master) (w : Nat) : MemSound (lcReqWrite s m w) := by
  rcases lcReqWrite_cases s m w with h | h
  · rwa [h]
  · rw [h]
    exact hs.lcTaken m _

theorem MemSound.lcResume {s : State} (hs : MemSound s) : MemSound (lcResume s) := by
  unfold Machine.lcResume
  dsimp only
  split
  · rename_i goal m _
    have hfree : MemSound { put s Reg.lcStatusLcBusy 0 with boot.lcPend := none } := hs
    split
    · exact hs
    · split
      · exact hfree.lcAct m goal
      · exact hfree.of_kept fun _ => kept_lcResult _ _
  · exact hs

theorem MemSound.jobEffect {s : State} (hs : MemSound s) (k : JobKind) : MemSound (jobEffect s k) := by
  unfold Machine.jobEffect
  split
  · split
    · exact hs.of_kept fun _ => kept_sheetLose _
    · exact hs.of_kept fun _ => kept_requestSp _ _
  · exact hs.of_kept (by intros; simp only [kept_commitSealed, kept_sheetAppend])
  · exact hs.of_kept fun _ => kept_prepEnds _
  · exact hs.of_kept fun _ => kept_prepEnds _
  · exact hs
  · exact hs.of_kept (by intros; simp only [kept_saveKeys, kept_fvWrite])
  · exact hs.handoverJob
  · exact hs

theorem MemSound.jobComplete {s : State} (hs : MemSound s) (core : Nat) : MemSound (jobComplete s core) := by
  have hcharged (j : Job) : MemSound (chargeJob (resumeCore s core) core j) :=
    hs.of_kept (by intros; simp only [kept_chargeJob, kept_resumeCore])
  unfold Machine.jobComplete
  split
  · exact hs
  · split
    · exact hs
    · rename_i j _ _
      have hj := hcharged j
      dsimp only
      generalize chargeJob (resumeCore s core) core j = u at hj ⊢
      exact MemSound.jobEffect (s := { u with
        jobs.running := u.jobs.running.del core, jobs.startedAt := u.jobs.startedAt.del core }) hj _

/-! Writes to any register. -/

theorem MemSound.writeEffect {s : State} (hs : MemSound s) (m : Master) (a w : Nat) : MemSound (writeEffect s m a w) := by
  by_cases hreset : a = 0x10
  · subst hreset
    exact hs.resetWrite m w
  · by_cases hlc : a = 0xC0008
    · subst hlc
      exact hs.lcReqWrite m w
    · refine hs.of_kept ?_
      intros
      simp only [Machine.writeEffect, vaultWrite, globalWrite, if_neg hreset, if_neg hlc, kept_ite, ite_self,
        kept_coreRegWrite, kept_pipeWrite, kept_edgeWrite, kept_intWrite, kept_sheetRead, kept_sheetRetire,
        kept_revokeWrite, kept_importWrite, kept_mcjGo, kept_attGo, kept_tamperClear, kept_plainWrite, kept_onBit,
        kept_imgCtl, kept_pwrCtlWrite, kept_netClrWrite, kept_gtSetArm, kept_timeSnapshot, kept_epochUnlatch,
        kept_epochLatch, kept_semRelease, kept_semTake, kept_ringRegWrite, implies_true]

theorem MemSound.stagedWrite {s : State} (hs : MemSound s) (m : Master) (a w : Nat) : MemSound (stagedWrite s m a w) := by
  have hwritten := (hs.writeEffect m a w).of_kept fun _ => kept_answer _ m .done
  unfold Machine.stagedWrite
  dsimp only
  split
  · refine hs.of_kept ?_
    intros
    simp only [kept_ite, ite_self, kept_answer, kept_stagePush, kept_stageClaim, kept_stageRelease, kept_stageDiscard,
      kept_onBit, implies_true]
  · split
    · refine hs.of_kept ?_
      intros
      simp only [kept_ite, ite_self, kept_answer, kept_commitReq, kept_commitCancel, kept_onBit, implies_true]
    · split
      · refine hs.of_kept ?_
        intros
        simp only [kept_stageAccess, kept_takeOwnership, kept_plainWrite, implies_true]
      · split
        · split
          · exact hwritten.of_kept fun _ => kept_cmtWrite _ _ _ _
          · exact hwritten
        · exact hs.of_kept fun _ => kept_cmtWrite _ _ _ _

theorem MemSound.writePerformed {s : State} (hs : MemSound s) (m : Master) (a size w : Nat) :
    MemSound (writePerformed s m a size w) := by
  unfold Machine.writePerformed
  split
  · exact hs.of_kept fun _ => kept_reportWrite _ _ _ _
  · split
    · exact (hs.resetWrite m w).of_kept fun _ => kept_answer _ _ _
    · split
      · exact hs.of_kept fun _ => kept_writeUnanswered _ _ _
      · split
        · exact hs.of_kept fun _ => kept_refuseWrite _ _ _ _
        · split
          · exact hs.of_kept fun _ => kept_answer _ _ _
          · split
            · exact hs.stagedWrite m a w
            · exact (hs.writeEffect m a w).of_kept fun _ => kept_answer _ _ _

theorem MemSound.registerWrite {s : State} (hs : MemSound s) (m : Master) (a size w : Nat) :
    MemSound (registerWrite s m a size w) := by
  unfold Machine.registerWrite
  split
  · exact hs.writePerformed m a size w
  · exact hs

theorem MemSound.spiWords {s : State} (hs : MemSound s) (a : Nat) (ws : List Word) : MemSound (spiWords s a ws) := by
  induction ws generalizing s a with
  | nil => exact hs
  | cons w ws ih => exact ih (hs.registerWrite .spi a 4 w.toNat) (a + 4)

theorem MemSound.spiWrite {s : State} (hs : MemSound s) (a : Nat) (ws : List Word) : MemSound (spiWrite s a ws) := by
  unfold Machine.spiWrite
  split
  · exact hs
  · split
    · exact hs.of_kept fun _ => kept_spiRefuse _ _ _ _
    · exact hs.spiWords a ws

/-! Writes to Bank H from outside. -/

theorem MemSound.hStore {s : State} (hs : MemSound s) (off : Nat) (d : List Byte) : MemSound (hStore s off d) :=
  hs.writeH off _

theorem MemSound.hWriteWord {s : State} (hs : MemSound s) (off : Nat) (w : Word) (ecc : BankEcc) :
    MemSound (hWriteWord s off w ecc) := by
  have hcheck : MemSound (hbCheck s off 4 true ecc).2 := hs.of_kept fun _ => kept_hbCheck _ _ _ _ _
  unfold Machine.hWriteWord
  dsimp only
  split
  · exact (hs.hStore off _).of_kept fun _ => kept_answer _ _ _
  · split
    · exact hs.of_kept fun _ => kept_writeUnanswered _ _ _
    · split
      · exact hs.of_kept fun _ => kept_spiRefuse _ _ _ _
      · split
        · rename_i c t hout
          rw [hout] at hcheck
          exact hcheck.of_kept fun _ => kept_spiRefuse _ _ _ _
        · rename_i t hout
          rw [hout] at hcheck
          exact (MemSound.hStore hcheck off _).of_kept fun _ => kept_answer _ _ _

theorem MemSound.hWords {s : State} (hs : MemSound s) (off : Nat) (ecc : BankEcc) (i : Nat) (ws : List Word) :
    MemSound (hWords s off ecc i ws) := by
  induction ws generalizing s i with
  | nil => exact hs
  | cons w ws ih => exact ih (hs.hWriteWord _ w _) (i + 1)

theorem MemSound.hWrite {s : State} (hs : MemSound s) (off : Nat) (ws : List Word) (ecc : BankEcc)
    (wt : List BusMaster) : MemSound (hWrite s off ws ecc wt) := by
  unfold Machine.hWrite
  split
  · exact hs
  · split
    · split
      · exact hs.of_kept fun _ => kept_spiRefuse _ _ _ _
      · exact hs.of_kept fun _ => kept_writeUnanswered _ _ _
    · exact (MemSound.hWords (hs.of_kept fun _ => kept_hGrant _ _) off ecc 0 ws).romPoll

theorem MemSound.spiAbort {s : State} (hs : MemSound s) (o : Option SpiWriteOp) (whole : Nat) :
    MemSound (spiAbort s o whole) := by
  unfold Machine.spiAbort
  split
  · exact hs
  · cases o with
    | none => exact hs
    | some o =>
      dsimp only
      split
      · exact hs
      · split
        · exact hs.hWrite _ _ _ _
        · exact hs.spiWrite _ _

theorem MemSound.recoveryBank {s : State} (hs : MemSound s) (off : Nat) (op : BankOp) :
    MemSound (recoveryBank s off op) := by
  cases op with
  | read n => exact hs.of_kept fun _ => kept_answer _ _ _
  | write d => exact MemSound.romPoll ((hs.hStore off d).of_kept fun _ => kept_answer _ _ _)
  | cas n => exact hs.of_kept fun _ => kept_answer _ _ _
  | lockedRead n => exact hs.of_kept fun _ => kept_answer _ _ _

/-- The debug port's access past its checks. -/
theorem MemSound.dbgBank {s : State} (hs : MemSound s) (b : Bank) (off : Nat) (op : BankOp) (ecc : BankEcc) :
    MemSound (dbgBank s b off op ecc) := by
  have hcorrected : MemSound (if ecc = .corrected then bump s (Reg.bankEccEccCorr (bankIdx b)) else s) := by
    split
    · exact hs
    · exact hs
  unfold Machine.dbgBank
  dsimp only
  split
  · exact hs.of_kept fun _ => kept_answer _ _ _
  · split
    · exact hs.of_kept (by intros; simp only [kept_answer, kept_unmark])
    · split
      · exact hs.of_kept (by intros; simp only [kept_answer, kept_eccError])
      · generalize (if ecc = .corrected then bump s (Reg.bankEccEccCorr (bankIdx b)) else s) = s0 at *
        split
        · exact hcorrected.of_kept fun _ => kept_answer _ _ _
        · split
          · exact hcorrected.of_kept fun _ => kept_answer _ _ _
          · refine MemSound.of_kept (MemSound.writeBank ?_ b off _) fun _ => kept_answer _ _ _
            split
            · exact hcorrected
            · exact hcorrected
        · exact hcorrected.of_kept fun _ => kept_answer _ _ _
        · exact hcorrected.of_kept fun _ => kept_answer _ _ _

theorem MemSound.bankRequest {s : State} (hs : MemSound s) (m : BusMaster) (b : Bank) (off : Nat) (op : BankOp)
    (ecc : BankEcc) (w : List BusMaster) : MemSound (bankRequest s m b off op ecc w) := by
  have hbank := hs.bankAccess m b off op ecc w
  unfold Machine.bankRequest
  cases m with
  | dbg => dsimp only; split; exacts [hs.dbgBank b off op ecc, hs]
  | hb =>
    dsimp only
    split
    · exact hs
    · split
      · exact hs.of_kept fun _ => kept_answer _ _ _
      · split
        · exact hs.recoveryBank off op
        · split
          · exact hs.of_kept fun _ => kept_answer _ _ _
          · split
            · exact hs.of_kept fun _ => kept_aboveBankH _ _ _
            · exact hbank
  | _ => dsimp only; split; exacts [hbank, hs]

theorem MemSound.recoveryAtomic {s : State} (hs : MemSound s) (off n : Nat) (f : Nat → Nat) :
    MemSound (recoveryAtomic s off n f) := by
  unfold Machine.recoveryAtomic
  split
  · exact hs.of_kept fun _ => kept_answer _ _ _
  · exact (hs.performAtomic .hb .h off n f).romPoll

theorem MemSound.atomicRequest {s : State} (hs : MemSound s) (m : BusMaster) (b : Bank) (off : Nat) (wide : Bool)
    (f : Nat → Nat) (ecc : BankEcc) (w : List BusMaster) : MemSound (atomicRequest s m b off wide f ecc w) := by
  have hatomic := hs.atomic m b off wide f ecc w
  unfold Machine.atomicRequest
  cases m with
  | hb =>
    dsimp only
    split
    · exact hs
    · split
      · exact hs.recoveryAtomic off _ f
      · split
        · exact hs.of_kept fun _ => kept_answer _ _ _
        · exact hatomic
  | _ => dsimp only; split; exacts [hatomic, hs]

/-! Boundaries. -/

theorem MemSound.alignedBefore {s : State} (hs : MemSound s) : MemSound (alignedBefore s) := by
  have hcast : MemSound (Machine.castBefore (cutRevoked (revokeDue s s.time.now))) :=
    MemSound.castBefore (hs.of_kept (by intros; simp only [kept_cutRevoked, kept_revokeDue]))
  unfold Machine.alignedBefore
  dsimp only
  exact MemSound.castAfter (hcast.of_kept (by intros; simp only [kept_ite, ite_self, kept_refreshFaultN, kept_commitNow,
    kept_releaseDue]))

theorem MemSound.tempoAligned {s : State} (hs : MemSound s) : MemSound (tempoAligned s) := by
  rw [tempoAligned_eq]
  exact hs.alignedBefore.lcResume.of_kept fun _ => kept_sleepAgreement _

theorem MemSound.boundaryWork {s : State} (hs : MemSound s) : MemSound (boundaryWork s) := by
  have hcut : MemSound (nextTempo (tempoEnd s)) :=
    hs.of_kept (by intros; simp only [tempoEnd, kept_nextTempo, kept_deferWaiting, kept_captures])
  exact hcut.tempoAligned.of_kept fun _ => kept_everyTempo _

theorem MemSound.boundary {s : State} (hs : MemSound s) : MemSound (boundary s) := by
  have hwork := hs.boundaryWork
  cases hrecover : (Machine.boundaryWork s).img.recoverDue with
  | false => rwa [boundary_forwards hrecover]
  | true =>
    rw [boundary_recovers hrecover]
    exact MemSound.beginReset (s := { Machine.boundaryWork s with img.recoverDue := false }) hwork 4

theorem MemSound.tempoBoundary {s : State} (hs : MemSound s) : MemSound (tempoBoundary s) := by
  unfold Machine.tempoBoundary
  split
  · split
    · exact hs.boundary
    · exact hs
  · split
    · exact hs.congr (firstBoundary_mem s)
    · exact hs
  · exact hs

/-! Every step. -/

theorem MemSound.dbgWrite {s : State} (hs : MemSound s) (a w : Nat) :
    MemSound (dbgRequest s fun t => Machine.registerWrite t .dbg a 4 w) := by
  unfold dbgRequest
  split
  · exact MemSound.registerWrite (hs.of_kept fun _ => kept_tapSelect _ _) .dbg a 4 w
  · exact hs

/-- The banks and flash. -/
def Part.isMemory : Part → Bool
  | .banks => true
  | .flash => true
  | _ => false

theorem mem_eq_of_unlisted {c : Instr} (hc : (partsOf c).any Part.isMemory = false) {s t : State}
    (h : exec c s = .next t) : t.mem = s.mem :=
  (changesOnly_exec c h).mem_eq (fun hb => Bool.false_ne_true (hc.symm.trans (List.any_eq_true.2 ⟨_, hb, rfl⟩)))
    (fun hf => Bool.false_ne_true (hc.symm.trans (List.any_eq_true.2 ⟨_, hf, rfl⟩)))

/-- A command that lists a memory leaves the memories canonical. -/
theorem MemSound.exec_listed {c : Instr} (hlisted : (partsOf c).any Part.isMemory = true) {s : State}
    (hs : MemSound s) : ∃ t, exec c s = .next t ∧ MemSound t := by
  cases c
  case tempoBoundary => exact ⟨_, rfl, hs.tempoBoundary⟩
  case jobComplete core => exact ⟨_, rfl, hs.jobComplete core.val⟩
  case unitDecision src ecc => exact ⟨_, rfl, hs.congr (unitDecision_mem s src ecc)⟩
  case lcReq m w =>
    exact ⟨_, rfl, hs.accessWrite (effect := fun st => Machine.lcReqWrite st m w.toNat) (hs.lcReqWrite m w.toNat) m 0xC0008⟩
  case tamper cause ns => exact ⟨_, rfl, hs.tamper cause ns⟩
  case cutoff => exact ⟨_, rfl, hs.cutoff⟩
  case cutoffComplete => exact ⟨_, rfl, hs.cutoffComplete⟩
  case parkTimer => exact ⟨_, rfl, hs.parkTimer⟩
  case wakeLatch => exact ⟨_, rfl, hs.wakeLatch⟩
  case wakeCheck => exact ⟨_, rfl, hs.wakeCheck⟩
  case vbatLoss => exact ⟨_, rfl, hs.vbatLoss⟩
  case bankAccess m b off op ecc w => exact ⟨_, rfl, hs.bankRequest m b off op ecc w⟩
  case atomicAdd m b off wide v => exact ⟨_, rfl, hs.atomicRequest m b off wide _ v.ecc v.waiting⟩
  case atomicSwap m b off wide v => exact ⟨_, rfl, hs.atomicRequest m b off wide _ v.ecc v.waiting⟩
  case dbgWrite a w => exact ⟨_, rfl, hs.dbgWrite a w.toNat⟩
  case registerWrite m a size w =>
    refine ⟨_, rfl, ?_⟩
    split
    · exact hs.registerWrite m.m a size w.toNat
    · exact hs
  case spiWrite a ws => exact ⟨_, rfl, hs.spiWrite a ws⟩
  case hWrite off ws => exact ⟨_, rfl, hs.hWrite off ws.arg ws.ecc ws.waiting⟩
  case spiAbort o whole => exact ⟨_, rfl, hs.spiAbort o whole⟩
  case imgEraseDone => exact ⟨_, rfl, hs.imgEraseDone⟩
  case imgWriteDone => exact ⟨_, rfl, hs.imgWriteDone⟩
  case castlingLoadDone ok => exact ⟨_, rfl, hs.castlingLoadDone ok⟩
  case recoveryErase b => exact ⟨_, rfl, hs.mbCommand 1 b _ _⟩
  case recoveryWrite b off len => exact ⟨_, rfl, hs.mbCommand 2 b off len⟩
  case recoveryVerify b => exact ⟨_, rfl, hs.mbCommand 3 b _ _⟩
  case recoveryBoot b => exact ⟨_, rfl, hs.mbCommand 4 b _ _⟩
  case memoryInitDone fail => exact ⟨_, rfl, hs.memoryInitDone fail⟩
  case imagePassDone kc sv => exact ⟨_, rfl, hs.imagePassDone _⟩
  case resetNAssert ns => exact ⟨_, rfl, hs.resetAssert ns⟩
  case resetReq m w => exact ⟨_, rfl, hs.resetReq m w.toNat⟩
  case thermalTrip => exact ⟨_, rfl, hs.thermalTrip⟩
  case recoveryCommandDone => exact ⟨_, rfl, hs.recoveryDone⟩
  all_goals exact (Bool.false_ne_true hlisted).elim

theorem MemSound.exec {c : Instr} {s t : State} (hs : MemSound s) (h : exec c s = .next t) : MemSound t := by
  cases hc : (partsOf c).any Part.isMemory with
  | false => exact hs.congr (mem_eq_of_unlisted hc h)
  | true =>
    obtain ⟨u, hu, hsound⟩ := hs.exec_listed hc
    obtain rfl := Host.Outcome.next.inj (hu.symm.trans h)
    exact hsound

/-- Settles O4: every operation that writes a memory writes bytes over a canonical one, clears it or drops bytes of it. -/
theorem memoriesStayCanonical : Obligations.MemoriesStayCanonical := by
  intro s t hs h
  cases hq : s.pending with
  | nil =>
    rw [step_idle hq] at h
    obtain rfl := Host.Outcome.next.inj h
    exact MemSound.congr hs ((changes_tick s).mem_eq (by decide) (by decide))
  | cons c rest =>
    rw [step_busy hq] at h
    exact MemSound.exec (s := { s with pending := rest }) hs h

end Sys2Proof.Machine
end

section
/-!
Pipeline slots (R375 to R377). The passing of a nanosecond counts a cycle that no unit took in SLOT_TOTAL and in one class;
the cores' counters and what leaves the posted buffer are apart from those registers.
-/
namespace Sys2Proof.Machine

/-- SLOT_TOTAL and the four classes. -/
def slotFlds : List Fld := [Reg.slotTotal, Reg.slotRetired, Reg.slotWasted, Reg.slotFront, Reg.slotBack]

theorem slotsAddUp_congr {s t : State} (h : fldsSame slotFlds s t) : slotsAddUp t ↔ slotsAddUp s := by
  have hmem : ∀ f ∈ slotFlds, get t f = get s f := h
  simp only [slotFlds, List.forall_mem_cons] at hmem
  obtain ⟨htotal, hretired, hwasted, hfront, hback, -⟩ := hmem
  unfold slotsAddUp
  rw [htotal, hretired, hwasted, hfront, hback]

/-! A cycle counted. -/

theorem slotsAddUp_countFront {s : State} (h : slotsAddUp s) : slotsAddUp (countSlot s Reg.slotFront) := by
  obtain ⟨htotal, hfront, hretired, hwasted, hback⟩ := get_probeCycle s
  exact slotsAddUp_of_front (t := probeCycle s) h htotal hfront hretired hwasted hback

theorem get_countBack (s : State) : get (countSlot s Reg.slotBack) Reg.slotTotal = (get s Reg.slotTotal + 1) % 2 ^ 64 ∧
    get (countSlot s Reg.slotBack) Reg.slotBack = (get s Reg.slotBack + 1) % 2 ^ 64 ∧
    get (countSlot s Reg.slotBack) Reg.slotRetired = get s Reg.slotRetired ∧
    get (countSlot s Reg.slotBack) Reg.slotWasted = get s Reg.slotWasted ∧
    get (countSlot s Reg.slotBack) Reg.slotFront = get s Reg.slotFront := by
  simp (disch := decide) only [countSlot, count64, get_put_ne, get_put_same]
  exact ⟨rfl, rfl, trivial, trivial, trivial⟩

theorem slotsAddUp_countBack {s : State} (h : slotsAddUp s) : slotsAddUp (countSlot s Reg.slotBack) := by
  obtain ⟨htotal, hback, hretired, hwasted, hfront⟩ := get_countBack s
  simp only [slotsAddUp, htotal, hback, hretired, hwasted, hfront] at h ⊢
  omega

theorem slotsAddUp_slotCycle {s : State} (h : slotsAddUp s) : slotsAddUp (slotCycle s) := by
  unfold slotCycle
  split
  · exact h
  · split
    · exact slotsAddUp_countBack h
    · exact slotsAddUp_countFront h

/-! What a nanosecond does beside. -/

theorem slotsSame_draw (s : State) (n : Nat) : fldsSame slotFlds s (draw s n).2 := .of_regs rfl

theorem slotsSame_coreCycles (s : State) (c : Nat) : fldsSame slotFlds s (coreCycles s c).2 := by
  unfold coreCycles
  split
  · exact .refl _ s
  · exact slotsSame_draw s 4

theorem slotsSame_eventCount (s : State) (c sel cyc : Nat) : fldsSame slotFlds s (eventCount s c sel cyc).2 := by
  unfold eventCount
  dsimp only
  split
  · exact .refl _ s
  · split
    · exact .refl _ s
    · split
      · exact .refl _ s
      · split
        · exact .refl _ s
        · exact slotsSame_draw s _

/-- The counters of the cores lie above the counts of cycles. -/
theorem coreCounters_apart (c i : Nat) :
    apartFrom slotFlds (Reg.coreCycles c) ∧ apartFrom slotFlds (Reg.corePmc c i) := by
  constructor <;> intro g hg <;> simp only [slotFlds, List.mem_cons, List.not_mem_nil, or_false] at hg <;>
    rcases hg with rfl | rfl | rfl | rfl | rfl <;>
    simp only [Fld.key, Reg.slotTotal, Reg.slotRetired, Reg.slotWasted, Reg.slotFront, Reg.slotBack, Reg.coreCycles,
      Reg.corePmc] <;> omega

theorem slotsSame_coreTick (c : Nat) (s : State) : fldsSame slotFlds s (coreTick c s) := by
  have hsampled (u : State) : (sampled u c).regs = u.regs := rfl
  have hcycles : fldsSame slotFlds s
      (put (coreCycles s c).2 (Reg.coreCycles c) (get s (Reg.coreCycles c) + (coreCycles s c).1)) :=
    (slotsSame_coreCycles s c).put (coreCounters_apart c 0).1 _
  have hcounted := hcycles.trans (fldsSame_forIdx 8 (fun i st =>
    put (eventCount st c (u8 (coreRec st c) i) (coreCycles s c).1).2 (Reg.corePmc c i)
      (get st (Reg.corePmc c i) + (eventCount st c (u8 (coreRec st c) i) (coreCycles s c).1).1))
    (fun i st => (slotsSame_eventCount st c _ _).put (coreCounters_apart c i).2 _) _)
  unfold coreTick
  dsimp only
  split
  · exact .refl _ s
  · split
    · exact hcounted
    · exact hcounted.congr (hsampled _)

theorem slotsSame_coreTicks (s : State) : fldsSame slotFlds s (forIdx 5 coreTick s) :=
  fldsSame_forIdx 5 _ slotsSame_coreTick s

theorem slotsSame_sendPosted (s : State) : fldsSame slotFlds s (sendPosted s) := by
  unfold sendPosted
  split
  · exact .refl _ s
  · split
    · unfold sendToHost leaveL1
      split
      · exact .of_regs rfl
      · exact fldsSame.congr (.put (.of_regs rfl) (f := Reg.hbStatusAspm) (by decide) 0) rfl
    · exact .refl _ s

theorem tick_counts (s : State) : fldsSame slotFlds
    (if aloft s ∧ 0 < cyclesAfter s.time.now then slotCycle (forIdx 5 coreTick s) else forIdx 5 coreTick s) (tick s) := by
  unfold tick
  exact (slotsSame_sendPosted _).congr rfl

theorem coreTicks_net (s : State) : (forIdx 5 coreTick s).net = s.net :=
  (changesOnly_of_kept (@kept_forIdx [.registers, .cnt, .io, .draws] 5 coreTick s fun c st =>
    @kept_coreTick _ (has_of rfl) (has_of rfl) (has_of rfl) (has_of rfl) c st)).net_eq (by decide) (by decide) (by decide)

/-! A free cycle. -/

section
variable {s : State}

theorem tick_free (haloft : aloft s = true) (hcycle : cyclesAfter s.time.now = 1) (hfree : s.net.slotUsed = 0) :
    fldsSame slotFlds (if anyReady (forIdx 5 coreTick s) then countSlot (forIdx 5 coreTick s) Reg.slotBack
      else countSlot (forIdx 5 coreTick s) Reg.slotFront) (tick s) := by
  have hcounts := tick_counts s
  rw [if_pos ⟨haloft, by omega⟩, slotCycle, coreTicks_net, hfree, if_neg (Nat.lt_irrefl 0)] at hcounts
  exact hcounts

theorem tick_back (haloft : aloft s = true) (hcycle : cyclesAfter s.time.now = 1) (hfree : s.net.slotUsed = 0)
    (hready : anyReady (forIdx 5 coreTick s) = true) :
    get (tick s) Reg.slotBack = (get s Reg.slotBack + 1) % 2 ^ 64 := by
  have hcounts := tick_free haloft hcycle hfree
  rw [if_pos hready] at hcounts
  rw [hcounts _ (by decide), (get_countBack _).2.1, slotsSame_coreTicks s _ (by decide)]

theorem tick_front (haloft : aloft s = true) (hcycle : cyclesAfter s.time.now = 1) (hfree : s.net.slotUsed = 0)
    (hready : anyReady (forIdx 5 coreTick s) = false) :
    get (tick s) Reg.slotFront = (get s Reg.slotFront + 1) % 2 ^ 64 := by
  have hcounts := tick_free haloft hcycle hfree
  rw [if_neg (by simp [hready])] at hcounts
  obtain ⟨-, hfront, -⟩ := get_probeCycle (forIdx 5 coreTick s)
  exact (hcounts _ (by decide)).trans (hfront.trans (by rw [slotsSame_coreTicks s _ (by decide)]))

end

/-- Settles O8: a cycle raises SLOT_TOTAL and one class, and nothing else that passes with time touches those counts. -/
theorem pipelineCyclesAddUp : Obligations.PipelineCyclesAddUp := by
  refine ⟨fun s h => ?_, fun _ => tick_back, fun _ => tick_front⟩
  rw [slotsAddUp_congr (tick_counts s)]
  have hcores := (slotsAddUp_congr (slotsSame_coreTicks s)).2 h
  split
  · exact slotsAddUp_slotCycle hcores
  · exact hcores

end Sys2Proof.Machine
end

section
/-! The pins of the table without supply, in reset and while forwarding (R416). -/
namespace Sys2Proof.Machine

theorem pinOf_off {s : State} (h : s.boot.phase = .off) (g : PinGroup) : pinOf s g = pinUnpowered g := if_pos h

theorem inhHigh_inReset {s : State} (h : s.boot.phase = .inReset) (i : Nat) : inhHigh s i = false := by
  simp only [inhHigh, h, Bool.and_false]

/-- In reset a block has started only where its pins are those of INH, and these are low. -/
theorem pinOf_inReset {s : State} (h : s.boot.phase = .inReset) (g : PinGroup) : pinOf s g = pinInReset g := by
  have haloft : aloft s = false := aloft_false (by rw [h]; decide)
  have hdie : dieRuns s = false := by simp only [dieRuns, h]
  have hoff : s.boot.phase ≠ .off := by rw [h]; decide
  unfold pinOf
  rw [if_neg hoff]
  cases g with
  | inh i => simp only [pinStarted, if_true, pinDriven, inhHigh_inReset h, pinLevel, pinInReset, Bool.false_eq_true, if_false]
  | ethernet => simp [pinStarted, haloft, h]
  | _ => simp only [pinStarted, haloft, hdie, Bool.false_eq_true, if_false]

theorem pinOf_faultN {s : State} (h : s.boot.phase = .aloft) (hfault : flag s Reg.fcStatusFaultN = true) :
    pinOf s .faultN = .low := by
  have hoff : s.boot.phase ≠ .off := by rw [h]; decide
  have haloft : aloft s = true := by simp only [aloft, h, beq_self_eq_true]
  unfold pinOf
  rw [if_neg hoff]
  simp only [pinStarted, haloft, if_true, pinDriven, hfault]

/-- Settles O60: pins show the columns of the table, and FAULT_N its bit. -/
theorem pinsShowTheTable : Obligations.PinsShowTheTable := by
  refine ⟨fun s h => ?_, fun s h => ?_, fun s => pinOf_faultN⟩
  · simp only [pinOf_off h, pinUnpowered, pinInReset, implies_true, and_self]
  · simp only [pinOf_inReset h, pinInReset, implies_true, and_self]

end Sys2Proof.Machine
end

section
/-!
FC_ACK and the profiles' fault causes (R172, R366). The acknowledgement of a record withdraws its fault from every profile
that holds it as an open cause; the statement asks that nothing but the registers, the fault collector and the access's own
bookkeeping changes.
-/
namespace Sys2Proof.Machine

/-- A fault record that holds profile 0, acknowledged by no one yet. -/
def openRecord : FaultRec := ⟨0x0005, 2, 0, 0, 0, 0, 4, 0⟩

/-- A device aloft that holds this record, its fault an open cause of profile 0. -/
def openFault : State :=
  { State.reset with
    boot.phase := .aloft, fault.recs := [openRecord], cont.faultOpen := [(0, [(openRecord.code, openRecord.unit)])] }

/-- FC_ACK with GO and INDEX 0. -/
def ackFirst : Word := 0x10

theorem accepts_openFault : accepts openFault .sp 0xA0004 = true := by decide +kernel

/-- The acknowledged fault is no open cause of profile 0 any longer. -/
theorem faultOpen_acknowledged {t : State} (h : exec (.fcAck .sp ackFirst) openFault = .next t) :
    t.cont.faultOpen = [(0, [])] := by
  have hack : t = accessWrite openFault .sp 0xA0004 fun st => fcAckWrite st ackFirst.toNat := (Host.Outcome.next.inj h).symm
  rw [hack, accessWrite_accepted _ _ _ _ accepts_openFault, answered_frame]
  rfl

/-- Refutes O13: FC_ACK of a record whose fault profile 0 holds as an open cause takes the fault from that profile's causes,
which the first clause's frame does not allow to change. -/
theorem not_faultAcknowledgement : ¬ Obligations.FaultAcknowledgement := by
  unfold Obligations.FaultAcknowledgement
  intro h
  obtain ⟨hack, -⟩ := h
  obtain ⟨t, ht, -, -, hframe⟩ := hack openFault .sp ackFirst accepts_openFault (by decide) (by decide)
  have hkept : t.cont.faultOpen = openFault.cont.faultOpen := by rw [hframe]
  rw [faultOpen_acknowledged ht] at hkept
  exact absurd hkept (by decide)

end Sys2Proof.Machine
end

section
/-!
Enabling a pending source of the host (R356, R359). The vector sent is that of the source's last transition to pending, which
is not the committed one where a commit came between.
-/
namespace Sys2Proof.Machine

/-- A device aloft with MSI-X enabled and no vector masked, where source 16, not enabled, became pending under vector `v`. -/
def pendingUnder (v : Nat) : State :=
  { put (put (put State.reset Reg.hbStatusP48Up 1) (Reg.srcCfgState 16) 1) (Reg.srcCfgEn 16) 0 with
    boot.phase := .aloft, host.msixEn := true, host.msixMask := [], intc.pendRoute := [(16, (0, v))] }

theorem accepts_pendingUnder (v : Nat) : accepts (pendingUnder v) .host (srcCfgAddr 16) = true := by
  have h : accepts (pendingUnder 0) .host (srcCfgAddr 16) = true := by decide +kernel
  exact h

theorem srcVector_pendingUnder (v : Nat) : srcVector (pendingUnder v) 16 = 66 := by
  have h : srcVector (pendingUnder 0) 16 = 66 := by decide +kernel
  exact h

/-- The vector sent is the one it became pending under. -/
theorem out_pendingUnder {t : State} (h : exec (.srcCfgEn .host 16 true) (pendingUnder 67) = .next t) :
    t.io.out = [.vector 67] := by
  have hset : t = accessWrite (pendingUnder 67) .host (srcCfgAddr 16) fun st => srcCfgEn st .host 16 true :=
    (Host.Outcome.next.inj h).symm
  rw [hset, accessWrite_accepted _ _ _ _ (accepts_pendingUnder 67)]
  decide +kernel

/-- Refutes O11: a pending source of the host that is enabled sends the vector it became pending under, 67 here, and the
vector committed for it is 66. -/
theorem not_sourcesAreRaisedClaimedAndCompleted : ¬ Obligations.SourcesAreRaisedClaimedAndCompleted := by
  unfold Obligations.SourcesAreRaisedClaimedAndCompleted
  intro h
  obtain ⟨-, -, -, -, -, -, -, -, -, -, -, -, -, -, -, -, -, henable, -⟩ := h
  obtain ⟨t, ht, -, -, hout⟩ := henable (pendingUnder 67) 16 (accepts_pendingUnder 67) (by decide +kernel) (by decide +kernel)
    (by decide +kernel) rfl (by decide +kernel) List.not_mem_nil
  have hsent := (out_pendingUnder ht).symm.trans hout
  rw [show ((16 : Fin 2048) : Nat) = 16 from rfl, srcVector_pendingUnder] at hsent
  exact absurd hsent (by decide)

end Sys2Proof.Machine
end

section
/-!
Escalation of faults at their deadlines (R367) and the clearing of event bits (R361).
-/
namespace Sys2Proof.Machine

/-! Entering SAFE_STATE. -/

/-- The fields of FC_STATUS that escalation shows. -/
def escalationFlds : List Fld := [Reg.fcStatusSafeState, Reg.fcStatusMaxSevOvf]

theorem fldsSame_contActivate_escalation (s : State) (p cause master : Nat) :
    fldsSame escalationFlds s (contActivate s p cause master) := by
  refine .of_regsSame (contActivate_regsSame s p cause master) fun f hf g hg => ?_
  simp only [escalationFlds, List.mem_cons, List.not_mem_nil, or_false] at hf hg
  rcases hf with rfl | rfl | rfl | rfl <;> rcases hg with rfl | rfl <;>
    simp only [Fld.key, Reg.contStatusActive, Reg.contCauseCause, Reg.contCauseActivations, Reg.sbStatsLost,
      Reg.fcStatusSafeState, Reg.fcStatusMaxSevOvf] <;> omega

theorem fldsSame_safeHeld (s : State) (code : Nat) : fldsSame escalationFlds s (safeHeld s code) :=
  (fldsSame_contActivate_escalation s _ 1 0xFF).trans
    (.of_regsSame ((regsSame.refl _ _).raise 9 fun _ hf => hf) (by decide))

theorem fldsSame_requestSp (s : State) (k : JobKind) : fldsSame escalationFlds s (requestSp s k) :=
  fun g hg => get_requestOn_ne s 0 k g (by revert g hg; decide)

theorem flag_safeShown (s : State) (code : Nat) (byEsc : Bool) :
    flag (safeShown s code byEsc) Reg.fcStatusSafeState = true := by
  rw [flag, safeShown, get_put_ne _ _ _ _ (by decide), get_put_same]
  rfl

theorem flag_enterSafe (s : State) (code : Nat) (byEsc : Bool) (fromSev firstTempo : Nat) :
    flag (enterSafe s code byEsc fromSev firstTempo) Reg.fcStatusSafeState = true := by
  have hheld : get (safeHeld (safeShown s code byEsc) code) Reg.fcStatusSafeState =
      get (safeShown s code byEsc) Reg.fcStatusSafeState := fldsSame_safeHeld _ _ _ (by decide)
  rw [enterSafe_eq]
  split_ifs with hsafe
  · rwa [flag, get_holdFault, fldsSame_contActivate_escalation _ _ _ _ _ (by decide)]
  · exact (congrArg (· != 0) hheld).trans (flag_safeShown s code byEsc)
  · rw [flag, fldsSame_requestSp _ _ _ (by decide), hheld]
    exact flag_safeShown s code byEsc

theorem get_enterSafe_maxSevOvf (s : State) (code : Nat) (byEsc : Bool) (fromSev firstTempo : Nat) :
    get (enterSafe s code byEsc fromSev firstTempo) Reg.fcStatusMaxSevOvf = get s Reg.fcStatusMaxSevOvf := by
  have hshown : get (safeShown s code byEsc) Reg.fcStatusMaxSevOvf = get s Reg.fcStatusMaxSevOvf := by
    simp only [safeShown]
    rw [get_put_ne _ _ _ _ (by decide), get_put_ne _ _ _ _ (by decide), get_put_ne _ _ _ _ (by decide),
      get_putFlag_ne _ _ _ _ (by decide), get_put_ne _ _ _ _ (by decide)]
  have hheld := (fldsSame_safeHeld (safeShown s code byEsc) code Reg.fcStatusMaxSevOvf (by decide)).trans hshown
  rw [enterSafe_eq]
  split_ifs
  · rw [get_holdFault, fldsSame_contActivate_escalation _ _ _ _ _ (by decide)]
  · exact hheld
  · exact (fldsSame_requestSp _ _ _ (by decide)).trans hheld

theorem enterSafe_ovfDue (s : State) (code : Nat) (byEsc : Bool) (fromSev firstTempo : Nat) :
    (enterSafe s code byEsc fromSev firstTempo).fault.ovfDue = s.fault.ovfDue := by
  have hheld : (safeHeld (safeShown s code byEsc) code).fault.ovfDue = s.fault.ovfDue := by
    simp [safeHeld, safeShown]
  rw [enterSafe_eq]
  split_ifs
  · rw [holdFault_fault, contActivate_fault]
  · exact hheld
  · rw [requestSp_fault, hheld]

/-! Records at their deadline. -/

/-- A record as the escalation of one leaves it: the one escalated at severity SAFE_STATE. -/
def escalated (r x : FaultRec) : FaultRec := if x.code = r.code ∧ x.unit = r.unit then { x with sev := 3 } else x

theorem recordDue_escalated (r x : FaultRec) (h : recordDue (escalated r x) = true) : recordDue x = true := by
  unfold escalated at h
  split at h
  · exact absurd h (by simp [recordDue])
  · exact h

theorem recordDue_escalated_self (r : FaultRec) : recordDue (escalated r r) = false := by simp [escalated, recordDue]

/-- How many records are due. -/
def dueCount (s : State) : Nat := s.fault.recs.countP recordDue

theorem countP_escalated_le (r : FaultRec) (l : List FaultRec) :
    (l.map (escalated r)).countP recordDue ≤ l.countP recordDue := by
  rw [List.countP_map]
  exact List.countP_mono_left fun x _ hx => recordDue_escalated r x hx

theorem countP_escalated_lt {r : FaultRec} {l : List FaultRec} (hr : r ∈ l) (hdue : recordDue r = true) :
    (l.map (escalated r)).countP recordDue < l.countP recordDue := by
  obtain ⟨before, after, rfl⟩ := List.append_of_mem hr
  have hbefore := countP_escalated_le r before
  have hafter := countP_escalated_le r after
  simp only [List.map_append, List.map_cons, List.countP_append, List.countP_cons, recordDue_escalated_self, hdue]
  simp only [if_true, Bool.false_eq_true, if_false]
  omega

theorem escalateRecord_none {s : State} (h : s.fault.recs.find? recordDue = none) : escalateRecord s = s := by
  simp only [escalateRecord, h]

theorem escalateRecord_some {s : State} {r : FaultRec} (h : s.fault.recs.find? recordDue = some r) :
    escalateRecord s = bump (enterSafe { s with fault.recs := s.fault.recs.map (escalated r) } r.code true 2 r.tempo)
      Reg.fcStatsEscalations := by
  simp only [escalateRecord, h]
  rfl

theorem escalateRecord_recs {s : State} {r : FaultRec} (h : s.fault.recs.find? recordDue = some r) :
    (escalateRecord s).fault.recs = s.fault.recs.map (escalated r) := by
  rw [escalateRecord_some h]
  exact enterSafe_recs _ _ _ _ _

/-- One escalation loses no record and leaves one record less due. -/
theorem dueCount_escalateRecord (s : State) :
    (escalateRecord s).fault.recs.length = s.fault.recs.length ∧ dueCount (escalateRecord s) ≤ dueCount s - 1 := by
  cases h : s.fault.recs.find? recordDue with
  | none =>
    have hnone : dueCount s = 0 := List.countP_eq_zero.2 (List.find?_eq_none.1 h)
    rw [escalateRecord_none h, hnone]
    exact ⟨rfl, Nat.le_refl _⟩
  | some r =>
    have hlt := countP_escalated_lt (List.mem_of_find?_eq_some h) (List.find?_some h)
    rw [dueCount, escalateRecord_recs h, dueCount]
    exact ⟨List.length_map _, Nat.le_sub_one_of_lt hlt⟩

/-- Escalation of one record after another. -/
abbrev escalateRecords (s : State) (n : Nat) : State := forIdx n (fun _ st => escalateRecord st) s

theorem dueCount_escalateRecords (s : State) (n : Nat) :
    (escalateRecords s n).fault.recs.length = s.fault.recs.length ∧ dueCount (escalateRecords s n) ≤ dueCount s - n := by
  induction n with
  | zero => exact ⟨rfl, Nat.le_refl _⟩
  | succ n ih =>
    obtain ⟨hlength, hcount⟩ := ih
    have hsucc : escalateRecords s (n + 1) = escalateRecord (escalateRecords s n) := forIdx_succ _ _ _
    obtain ⟨hlength', hcount'⟩ := dueCount_escalateRecord (escalateRecords s n)
    rw [hsucc]
    exact ⟨hlength'.trans hlength, by omega⟩

theorem flag_escalateRecord {s : State} (h : flag s Reg.fcStatusSafeState = true) :
    flag (escalateRecord s) Reg.fcStatusSafeState = true := by
  cases hfind : s.fault.recs.find? recordDue with
  | none => rwa [escalateRecord_none hfind]
  | some r =>
    rw [escalateRecord_some hfind, flag, get_bump_ne _ _ _ (by decide)]
    exact flag_enterSafe _ _ _ _ _

theorem flag_escalateRecords {s : State} (h : s.fault.recs.any recordDue = true) (n : Nat) :
    flag (escalateRecords s (n + 1)) Reg.fcStatusSafeState = true := by
  induction n with
  | zero =>
    obtain ⟨r, hr⟩ := Option.isSome_iff_exists.1 (List.find?_isSome.2 (List.any_eq_true.1 h))
    have hone : escalateRecords s 1 = escalateRecord s := rfl
    rw [hone, escalateRecord_some hr, flag, get_bump_ne _ _ _ (by decide)]
    exact flag_enterSafe _ _ _ _ _
  | succ n ih =>
    rw [escalateRecords, forIdx_succ]
    exact flag_escalateRecord ih

theorem escalateRecords_none {s : State} (h : s.fault.recs.any recordDue = false) (n : Nat) : escalateRecords s n = s := by
  have hnone : s.fault.recs.find? recordDue = none := List.find?_eq_none.2 (List.any_eq_false.1 h)
  induction n with
  | zero => rfl
  | succ n ih => rw [escalateRecords, forIdx_succ, ← escalateRecords, ih, escalateRecord_none hnone]

/-! The overflow at its deadline. -/

theorem escalateOverflow_idle {s : State} (h : overflowDue s = false) : escalateOverflow s = s := by
  rw [escalateOverflow, if_neg (by simp [h])]

theorem escalateOverflow_due {s : State} (h : overflowDue s = true) :
    flag (escalateOverflow s) Reg.fcStatusSafeState = true ∧ (escalateOverflow s).fault.ovfDue = none ∧
      get (escalateOverflow s) Reg.fcStatusMaxSevOvf = 3 := by
  rw [escalateOverflow, if_pos h]
  refine ⟨?_, ?_, ?_⟩
  · rw [flag, get_bump_ne _ _ _ (by decide)]
    exact flag_enterSafe _ _ _ _ _
  · exact enterSafe_ovfDue _ _ _ _ _
  · rw [get_bump_ne _ _ _ (by decide), get_enterSafe_maxSevOvf, get_put_same]
    rfl

theorem escalateOverflow_recs (s : State) : (escalateOverflow s).fault.recs = s.fault.recs := by
  cases h : overflowDue s with
  | false => rw [escalateOverflow_idle h]
  | true =>
    rw [escalateOverflow, if_pos h]
    exact enterSafe_recs _ _ _ _ _

theorem flag_escalateOverflow {s : State} (h : flag s Reg.fcStatusSafeState = true) :
    flag (escalateOverflow s) Reg.fcStatusSafeState = true := by
  cases hdue : overflowDue s with
  | false => rwa [escalateOverflow_idle hdue]
  | true => exact (escalateOverflow_due hdue).1

/-! FAULT_N. -/

theorem refreshFaultN_frame (s : State) : refreshFaultN s = { s with regs := (refreshFaultN s).regs } := by
  unfold refreshFaultN
  split <;> rfl

theorem refreshFaultN_regsSame (s : State) : regsSame s (refreshFaultN s) [Reg.fcStatusFaultN] :=
  fun g hg => get_refreshFaultN_ne s g (keys_of_all hg List.mem_cons_self)

/-! Escalation. -/

theorem faultEscalation_record {s : State} (hroom : s.fault.recs.length ≤ 16) (hdue : s.fault.recs.any recordDue = true) :
    flag (faultEscalation s) Reg.fcStatusSafeState = true ∧ (faultEscalation s).fault.recs.any recordDue = false ∧
      (faultEscalation s).fault.recs.length = s.fault.recs.length := by
  obtain ⟨hlength, hcount⟩ := dueCount_escalateRecords s 16
  have hle : dueCount s ≤ s.fault.recs.length := List.countP_le_length
  have hnone : dueCount (escalateRecords s 16) = 0 := by omega
  have hrecs : (faultEscalation s).fault.recs = (escalateRecords s 16).fault.recs := by
    rw [faultEscalation, refreshFaultN_fault, escalateOverflow_recs]
  refine ⟨?_, ?_, by rw [hrecs, hlength]⟩
  · rw [flag, faultEscalation, get_refreshFaultN_ne _ _ (by decide)]
    exact flag_escalateOverflow (flag_escalateRecords hdue 15)
  · rw [hrecs]
    exact List.any_eq_false.2 (List.countP_eq_zero.1 hnone)

theorem faultEscalation_overflow {s : State} (hrecs : s.fault.recs.any recordDue = false) (hdue : overflowDue s = true) :
    flag (faultEscalation s) Reg.fcStatusSafeState = true ∧ (faultEscalation s).fault.ovfDue = none ∧
      get (faultEscalation s) Reg.fcStatusMaxSevOvf = 3 ∧ (faultEscalation s).fault.recs = s.fault.recs := by
  obtain ⟨hsafe, hnone, hmax⟩ := escalateOverflow_due hdue
  have hesc : faultEscalation s = refreshFaultN (escalateOverflow s) :=
    congrArg (fun u => refreshFaultN (escalateOverflow u)) (escalateRecords_none hrecs 16)
  rw [hesc, flag, get_refreshFaultN_ne _ _ (by decide), get_refreshFaultN_ne _ _ (by decide), refreshFaultN_fault]
  exact ⟨hsafe, hnone, hmax, escalateOverflow_recs s⟩

theorem faultEscalation_idle {s : State} (hrecs : s.fault.recs.any recordDue = false) (hdue : overflowDue s = false) :
    faultEscalation s = refreshFaultN s :=
  (congrArg (fun u => refreshFaultN (escalateOverflow u)) (escalateRecords_none hrecs 16)).trans
    (congrArg refreshFaultN (escalateOverflow_idle hdue))

/-! Event bits. -/

theorem w1c_cons (s : State) (f : Fld) (fs : List Fld) (w : Nat) :
    w1c s (f :: fs) w = w1c (if bitAt w f.lsb then put s f 0 else s) fs w := rfl

theorem get_w1c_ne {fs : List Fld} {g : Fld} (h : ∀ f ∈ fs, g.key ≠ f.key) (s : State) (w : Nat) :
    get (w1c s fs w) g = get s g := by
  induction fs generalizing s with
  | nil => rfl
  | cons f fs ih =>
    obtain ⟨hhead, htail⟩ := List.forall_mem_cons.1 h
    rw [w1c_cons, ih htail]
    split
    · exact get_put_ne _ _ _ _ hhead
    · rfl

theorem get_w1c_mem {fs : List Fld} (hapart : (fs.map Fld.key).Nodup) {g : Fld} (hg : g ∈ fs) (s : State) (w : Nat) :
    get (w1c s fs w) g = if bitAt w g.lsb then 0 else get s g := by
  induction fs generalizing s with
  | nil => cases hg
  | cons f fs ih =>
    rw [List.map_cons, List.nodup_cons] at hapart
    obtain ⟨hnew, hrest⟩ := hapart
    rcases List.mem_cons.1 hg with rfl | hmem
    · have hothers : ∀ f ∈ fs, g.key ≠ f.key := fun f hf heq => by
        rw [heq] at hnew
        exact hnew (List.mem_map_of_mem hf)
      rw [w1c_cons, get_w1c_ne hothers]
      split
      · rw [get_put_same, Nat.zero_mod]
      · rfl
    · have hne : g.key ≠ f.key := fun heq => hnew (heq ▸ List.mem_map_of_mem hmem)
      rw [w1c_cons, ih hrest hmem]
      split
      · rfl
      · split
        · exact get_put_ne _ _ _ _ hne
        · rfl

theorem get_noteClear (s : State) (m : Master) (n : Nat) (f : Fld) : get (noteClear s m n) f = get s f := by
  unfold noteClear
  split
  · split <;> rfl
  · rfl

/-- A level is as it was set, whatever its source's raising changes. -/
theorem flag_setLevel {n : Nat} (hn : n < 2048) (s : State) (high : Bool) :
    flag (setLevel s n high) (Reg.srcCfgLevel n) = high := by
  cases high with
  | true => exact flag_setLevel_high hn s
  | false =>
    have hput : flag (putFlag s (Reg.srcCfgLevel n) false) (Reg.srcCfgLevel n) = false := flag_putFlag_same _ rfl _
    unfold setLevel
    simp only [Bool.false_eq_true, false_and, if_false]
    split <;> exact hput

/-- Event fields that are apart from one another and from what their level source's raising may change. -/
structure EventFlds (fs : List Fld) (src : Nat) : Prop where
  nodup : (fs.map Fld.key).Nodup
  apart : ∀ f ∈ fs, ((levelFields src).all fun g => f.key != g.key) = true
  known : src < 2048

theorem eventsClear_shows {fs : List Fld} {src : Nat} (h : EventFlds fs src) (s : State) (m : Master) (w : Nat) :
    (∀ f ∈ fs, get (eventsClear s m fs src w) f = if bitAt w f.lsb then 0 else get s f) ∧
      flag (eventsClear s m fs src w) (Reg.srcCfgLevel src) = anySet (eventsClear s m fs src w) fs := by
  have hkept (f : Fld) (hf : f ∈ fs) :
      get (eventsClear s m fs src w) f = get (w1c (noteClear s m src) fs w) f :=
    regsSame_setLevel (.refl _ _) (fun _ hg => hg) _ f (h.apart f hf)
  refine ⟨fun f hf => ?_, ?_⟩
  · rw [hkept f hf, get_w1c_mem h.nodup hf, get_noteClear]
  · have hlevel : flag (eventsClear s m fs src w) (Reg.srcCfgLevel src) = anySet (w1c (noteClear s m src) fs w) fs :=
      flag_setLevel h.known _ _
    rw [hlevel, anySet, anySet, Bool.eq_iff_iff, List.any_eq_true, List.any_eq_true]
    exact exists_congr fun f => and_congr_right fun hf => by rw [flag, flag, hkept f hf]

theorem eventFlds_port {p : Nat} (hp : p < 48) : EventFlds (portEventFlds p) (64 + p) where
  nodup := by
    simp [portEventFlds, Fld.key, Reg.portEventsLinkChange, Reg.portEventsTrainFail, Reg.portEventsPlca,
      Reg.portEventsVerifyFail, Reg.portEventsPnThresh, Reg.portEventsPnExhausted]
  apart f hf := levelFields_apart (by omega) (portKey_of_mem hp (List.mem_append_left _ hf))
  known := by omega

theorem eventFlds_channel {n : Nat} (hn : n < 256) : EventFlds (chEventFlds n) (112 + n) where
  nodup := by
    simp [chEventFlds, Fld.key, Reg.chEventsBusOff, Reg.chEventsErrPassive, Reg.chEventsBridgeLost,
      Reg.chEventsLinNoResp, Reg.chEventsTxTimeout, Reg.chEventsNeverFit]
  apart f hf := by
    suffices hhigh : 0xA00000 * 32 ≤ f.key from List.all_eq_true.2 fun g hg =>
      bne_iff_ne.2 (Nat.ne_of_gt (Nat.lt_of_lt_of_le (levelFields_low (by omega) g hg) hhigh))
    simp only [chEventFlds, List.mem_cons, List.not_mem_nil, or_false] at hf
    rcases hf with rfl | rfl | rfl | rfl | rfl | rfl <;>
      simp only [Fld.key, Reg.chEventsBusOff, Reg.chEventsErrPassive, Reg.chEventsBridgeLost,
        Reg.chEventsLinNoResp, Reg.chEventsTxTimeout, Reg.chEventsNeverFit] <;> omega
  known := by omega

theorem eventFlds_security : EventFlds secEventFlds 19 where
  nodup := by decide
  apart := by decide
  known := by decide

/-- An accepted write that clears events shows what it leaves. -/
theorem eventsClear_answered {fs : List Fld} {src : Nat} (h : EventFlds fs src) {s : State} {m : Master} {a : Nat}
    (hacc : accepts s m a = true) (w : Nat) :
    (∀ f ∈ fs, get (accessWrite s m a fun st => eventsClear st m fs src w) f = if bitAt w f.lsb then 0 else get s f) ∧
      flag (accessWrite s m a fun st => eventsClear st m fs src w) (Reg.srcCfgLevel src) =
        anySet (accessWrite s m a fun st => eventsClear st m fs src w) fs := by
  obtain ⟨hbits, hlevel⟩ := eventsClear_shows h s m w
  have hget (f : Fld) : get (accessWrite s m a fun st => eventsClear st m fs src w) f = get (eventsClear s m fs src w) f := by
    rw [accessWrite_accepted _ _ _ _ hacc, get_answered]
  exact ⟨fun f hf => (hget f).trans (hbits f hf), by simpa only [flag, anySet, hget] using hlevel⟩

/-- Settles O14: each escalation of a record leaves one less due, SAFE_STATE entered stays entered, and event bits clear
one by one before their level is set anew. -/
theorem faultsEscalateAndEventsClear : Obligations.FaultsEscalateAndEventsClear := by
  unfold Obligations.FaultsEscalateAndEventsClear
  refine ⟨fun s hroom hdue => ⟨_, rfl, faultEscalation_record hroom hdue⟩,
    fun s hrecs hdue => ⟨_, rfl, faultEscalation_overflow hrecs hdue⟩, fun s hrecs hdue => ?_,
    fun s m p w hacc => ⟨_, rfl, eventsClear_answered (eventFlds_port p.isLt) hacc w.toNat⟩,
    fun s m n w hacc => ⟨_, rfl, eventsClear_answered (eventFlds_channel n.isLt) hacc w.toNat⟩,
    fun s m w hacc => ⟨_, rfl, eventsClear_answered eventFlds_security hacc w.toNat⟩⟩
  have hesc : exec .faultEscalation s = .next (refreshFaultN s) :=
    congrArg Host.Outcome.next (faultEscalation_idle hrecs hdue)
  exact ⟨_, hesc, refreshFaultN_regsSame s, refreshFaultN_frame s⟩

end Sys2Proof.Machine
end

section
/-!
A fault of the pair's lockstep (R304). It is a fault like any other: where a record of it is held already, the record's
reaction runs again (R363), with the profile the record names. The statement asks for no bound of that number, and
CONT_CAUSE of a profile far outside the eight there are lies on MISMATCH_BIT.
-/
namespace Sys2Proof.Machine

/-- A profile whose CONT_CAUSE is at the address of a field whose first bit is bit 0. -/
def strayOf (f : Fld) : Nat := (f.bank * 2 ^ 24 + f.addr - (Reg.contCauseCause 0).addr) / 4

/-- A device aloft that holds a fault at severity CONTAIN with the stray profile of a field. -/
def strayHeld (f : Fld) (code unit : Nat) : State :=
  { State.reset with boot.phase := .aloft, fault.recs := [⟨code, 2, unit, 0, 0, 0, 0, strayOf f⟩] }

/-- A held fault recorded again leaves its cause in the field that its stray profile's CONT_CAUSE lies on. -/
theorem get_recordFault_stray {s : State} {f : Fld} {code unit : Nat} {r : FaultRec}
    (hheld : s.fault.recs.find? (fun x => x.code = code ∧ x.unit = unit) = some r) (hsev : r.sev = 2)
    (hprofile : r.profile = strayOf f) (hidle : get s Reg.contStatusActive = 0)
    (hkey : (Reg.contCauseCause (strayOf f)).key = f.key) (hreset : f.reset = 0) (hnone : strayOf f ≠ 0xFF)
    (hlost : f.key ≠ Reg.sbStatsLost.key) (hfaultN : f.key ≠ Reg.fcStatusFaultN.key) (detail : Nat) :
    get (recordFault s code unit detail) f = 2 := by
  rw [recordFault_held hheld, get_refreshFaultN_ne _ _ hfaultN, ← get_eq_of_key hkey hreset.symm, hsev, hprofile]
  have hidle' : get { s with fault.recs := repeatRecord code unit s.fault.recs } Reg.contStatusActive = 0 := hidle
  exact get_faultReact_contain hnone (profileActive_none hidle' _) _ _ (by rwa [hkey])

theorem coreMismatch_mismatch {s : State} (hpower : pairPowered s = true) (hfree : s.cpu.spHeld = false) (b : Fin 384) :
    coreMismatch s (.mismatch b) = fencePair (put (put (put s Reg.mismatchTempo (tempoNo s)) Reg.lockstepStatusMismatch 1)
      Reg.mismatchBit b.val) 0x0001 b.val := by
  simp [coreMismatch, hpower, hfree]

/-- The mismatch of bit 0, met where its fault is held with a stray profile, leaves the profile's cause in MISMATCH_BIT. -/
theorem mismatchBit_stray :
    get (coreMismatch (strayHeld Reg.mismatchBit 0x0001 0) (.mismatch 0)) Reg.mismatchBit = 2 := by
  rw [coreMismatch_mismatch rfl rfl]
  exact get_recordFault_stray (r := ⟨0x0001, 2, 0, 0, 0, 0, 0, strayOf Reg.mismatchBit⟩) (by decide +kernel) rfl rfl
    (by decide +kernel) (by decide) rfl (by decide) (by decide) (by decide) _

/-- Refutes O16: a mismatch of bit 0 need not show 0 in MISMATCH_BIT. A held record of that fault with severity CONTAIN and
a stray profile has the profile's cause, 2, written over it. -/
theorem not_lockstepAndWatchdogs : ¬ Obligations.LockstepAndWatchdogs := by
  unfold Obligations.LockstepAndWatchdogs
  intro h
  obtain ⟨hmismatch, -⟩ := h
  obtain ⟨t, ht, -, -, hbit, -⟩ := hmismatch (strayHeld Reg.mismatchBit 0x0001 0) 0 rfl rfl
  rw [← Host.Outcome.next.inj ht] at hbit
  exact absurd (mismatchBit_stray.symm.trans hbit) (by decide)

end Sys2Proof.Machine
end

section
/-!
Bank accesses of the debug port and runs of the SPI port to Bank H (R311, R313, R346, R350): what the statements about them
leave open.
-/
namespace Sys2Proof.Machine

/-! A request of the debug port while the last one is in progress. -/

/-- A device aloft with GC[0] halted, whose last request of the debug port ended REFUSED and, by its time, is in progress
still, however long one takes. -/
def busyPort : State :=
  { State.reset with boot.phase := .aloft, cpu.halted := [1], cpu.dbgStatus := 2, cpu.dbgAt := some 1 }

theorem dbgBusy_busyPort : dbgBusy busyPort = true := by simp [dbgBusy, busyPort, State.reset]

/-- A bank access shifted in while the port is busy has no effect. -/
theorem bankRequest_busy {s : State} (h : dbgBusy s = true) (b : Bank) (off : Nat) (op : BankOp) (ecc : BankEcc)
    (w : List BusMaster) : bankRequest s .dbg b off op ecc w = s := by
  simp [bankRequest, h]

/-- Refutes O17: a read of Bank G by the debug port is ignored while the port's last request is in progress, which the
clause does not exclude, and the status stays that of the last request. -/
theorem not_bankAccessAndScrubbing : ¬ Obligations.BankAccessAndScrubbing := by
  unfold Obligations.BankAccessAndScrubbing
  intro h
  obtain ⟨-, -, -, -, -, -, -, -, -, -, -, -, hread, -⟩ := h
  obtain ⟨t, ht, hstatus, -⟩ := hread busyPort .g 0 0 [] rfl (by decide) rfl
  have hsame : t = busyPort := (Host.Outcome.next.inj ht).symm.trans (bankRequest_busy dbgBusy_busyPort .g 0 (.read 0) .clean [])
  rw [hsame] at hstatus
  exact absurd hstatus (by decide)

/-! A region that reaches past Bank H. -/

/-- A BANKS structure of one region, of 64 KiB from the end of Bank H, that the host may write. -/
def pastBank : List Byte := [0, 1] ++ List.replicate 30 0 ++ [0x40, 0, 1, 0, 0, 1] ++ List.replicate 10 0

/-- A device aloft with this structure. -/
def pastRegion : State := { State.reset with boot.phase := .aloft, env.structural := [(0x0030, pastBank)] }

/-- The first word behind Bank H, written. -/
def wordPast : SpiWriteOp := ⟨true, 0x400000, [1]⟩

theorem bankH_pastRegion {t : State} (h : exec (.hWrite wordPast.addr ⟨wordPast.words, .clean, []⟩) pastRegion = .next t) :
    t.mem.bankH = [] := by
  rw [← Host.Outcome.next.inj h]
  decide +kernel

/-- Refutes O58: a region may reach past the end of Bank H, and of a word written there no byte is stored. -/
theorem not_managementPortTransfersWords : ¬ Obligations.ManagementPortTransfersWords := by
  unfold Obligations.ManagementPortTransfersWords
  intro h
  obtain ⟨-, -, -, -, hwrite, -⟩ := h
  obtain ⟨t, ht, hmem, -⟩ := hwrite pastRegion wordPast.addr wordPast.words [] rfl rfl rfl rfl (by decide +kernel)
    (by decide +kernel)
  have hstored := congrArg MemSt.bankH hmem
  rw [bankH_pastRegion ht] at hstored
  exact absurd hstored (by decide +kernel)

end Sys2Proof.Machine
end

section
/-!
Entry to D3hot (R329, R342). The posted writes that it discards enter the ledger, and the ledger's source may itself ask
for a PM_PME.
-/
namespace Sys2Proof.Machine

/-- A device aloft whose endpoint is on in D0, with one posted write that its buffer says core 4 made: the source of that
number's ledger entries, 30, is the host's. -/
def strayPosted : State :=
  { State.reset with boot.phase := .aloft, host.perstN := true, host.posted := [⟨4, 0, []⟩] }

/-- D3hot with PME enabled and PME_Status left alone. -/
def wakeEnabled : PmWrite := ⟨true, false⟩

theorem pmeStatus_strayPosted {t : State} (h : exec (.d3hotEntry wakeEnabled) strayPosted = .next t) :
    t.host.pmeStatus = true := by
  rw [← Host.Outcome.next.inj h]
  decide +kernel

/-- Refutes O20: entry to D3hot may set PME_Status. The discard of a posted write raises its ledger's source, and where the
host is that source's target the function, in D3hot with PME enabled, sends PM_PME. -/
theorem not_hostLinkAndPower : ¬ Obligations.HostLinkAndPower := by
  unfold Obligations.HostLinkAndPower
  intro h
  obtain ⟨-, hentry, -⟩ := h
  obtain ⟨t, ht, -, -, -, -, -, hstatus⟩ := hentry strayPosted wakeEnabled (by decide +kernel) (by decide +kernel)
  rw [pmeStatus_strayPosted ht] at hstatus
  exact absurd hstatus (by decide +kernel)

end Sys2Proof.Machine
end

section
/-!
The debug port's core control and the test access port (R307, R349, R350).
-/
namespace Sys2Proof.Machine

/-! The outcome of a request. -/

/-- The outcome of a DBG_ACCESS request changes the port's state alone. -/
theorem dbgOutcome_shows (u : State) (st d : Nat) :
    (dbgOutcome u st d).cpu.halted = u.cpu.halted ∧ (dbgOutcome u st d).cpu.replay = u.cpu.replay ∧
      (dbgOutcome u st d).cpu.dbgStatus = st ∧
      dbgOutcome u st d = { u with cpu := (dbgOutcome u st d).cpu, io := (dbgOutcome u st d).io } := by
  simp [dbgOutcome, tapSelect, answer, noteBusError, dbgResult]

section
variable {s : State} {c : Nat} (hdie : dieRuns s = true) (hfree : dbgBusy s = false)
include hdie hfree

/-! Halting permitted. -/

theorem dbgHalt_running (hmay : haltAllowed s = true) (hruns : s.cpu.halted.contains c = false) :
    (dbgHalt s c).cpu.halted = c :: s.cpu.halted ∧ (dbgHalt s c).cpu.dbgStatus = 0 ∧
      (c = 0 → (dbgHalt s c).cpu.replay = []) ∧
      dbgHalt s c = { s with cpu := (dbgHalt s c).cpu, io := (dbgHalt s c).io } := by
  have hhalt : dbgHalt s c = dbgOutcome (if c = 0 then
      { s with cpu.halted := c :: s.cpu.halted, cpu.coreRegs := [], cpu.replay := [] }
      else { s with cpu.halted := c :: s.cpu.halted, cpu.coreRegs := [] }) 0 0 := by
    unfold dbgHalt
    simp only [hdie, hfree, hmay, hruns, Bool.not_true, Bool.false_eq_true, or_self, if_false]
  rw [hhalt]
  by_cases hc : c = 0
  · rw [if_pos hc]
    obtain ⟨hhalted, hreplay, hstatus, hframe⟩ := dbgOutcome_shows
      { s with cpu.halted := c :: s.cpu.halted, cpu.coreRegs := [], cpu.replay := [] } 0 0
    exact ⟨hhalted, hstatus, fun _ => hreplay, hframe⟩
  · rw [if_neg hc]
    obtain ⟨hhalted, -, hstatus, hframe⟩ := dbgOutcome_shows
      { s with cpu.halted := c :: s.cpu.halted, cpu.coreRegs := [] } 0 0
    exact ⟨hhalted, hstatus, fun h => absurd h hc, hframe⟩

theorem dbgHalt_halted (hmay : haltAllowed s = true) (hhalted : s.cpu.halted.contains c = true) :
    dbgHalt s c = dbgOutcome s 0 0 := by
  unfold dbgHalt
  simp only [hdie, hfree, hmay, hhalted, Bool.not_true, Bool.false_eq_true, or_self, if_false, if_true]

theorem dbgResume_shows (hmay : haltAllowed s = true) :
    (dbgResume s c).cpu.halted = s.cpu.halted.erase c ∧ (dbgResume s c).cpu.dbgStatus = 0 ∧
      (c = 0 → (dbgResume s c).cpu.replay = []) ∧
      dbgResume s c = { s with cpu := (dbgResume s c).cpu, io := (dbgResume s c).io } := by
  have hresume : dbgResume s c = dbgOutcome (if c = 0 then
      { s with cpu.halted := s.cpu.halted.erase c, cpu.replay := [] } else { s with cpu.halted := s.cpu.halted.erase c })
      0 0 := by
    unfold dbgResume
    simp only [hdie, hfree, hmay, Bool.not_true, Bool.false_eq_true, or_self, if_false]
  rw [hresume]
  by_cases hc : c = 0
  · rw [if_pos hc]
    obtain ⟨hhalted, hreplay, hstatus, hframe⟩ := dbgOutcome_shows
      { s with cpu.halted := s.cpu.halted.erase c, cpu.replay := [] } 0 0
    exact ⟨hhalted, hstatus, fun _ => hreplay, hframe⟩
  · rw [if_neg hc]
    obtain ⟨hhalted, -, hstatus, hframe⟩ := dbgOutcome_shows { s with cpu.halted := s.cpu.halted.erase c } 0 0
    exact ⟨hhalted, hstatus, fun h => absurd h hc, hframe⟩

theorem dbgStep_shows (hmay : haltAllowed s = true) (hhalted : s.cpu.halted.contains c = true) :
    (dbgStep s c).cpu.halted = s.cpu.halted ∧ (dbgStep s c).cpu.dbgStatus = 0 ∧
      (c = 0 → (dbgStep s c).cpu.replay = []) ∧
      dbgStep s c = { s with cpu := (dbgStep s c).cpu, io := (dbgStep s c).io } := by
  have hstep : dbgStep s c = dbgOutcome (if c = 0 then { s with cpu.replay := [], cpu.coreRegs := [] }
      else { s with cpu.coreRegs := [] }) 0 0 := by
    unfold dbgStep
    simp only [hdie, hfree, hmay, hhalted, Bool.not_true, Bool.false_eq_true, or_self, if_false]
  rw [hstep]
  by_cases hc : c = 0
  · rw [if_pos hc]
    obtain ⟨hsame, hreplay, hstatus, hframe⟩ := dbgOutcome_shows { s with cpu.replay := [], cpu.coreRegs := [] } 0 0
    exact ⟨hsame, hstatus, fun _ => hreplay, hframe⟩
  · rw [if_neg hc]
    obtain ⟨hsame, -, hstatus, hframe⟩ := dbgOutcome_shows { s with cpu.coreRegs := [] } 0 0
    exact ⟨hsame, hstatus, fun h => absurd h hc, hframe⟩

/-! Halting refused. -/

theorem dbgControl_refused (hmay : haltAllowed s = false) :
    dbgHalt s c = dbgOutcome s 2 0 ∧ dbgResume s c = dbgOutcome s 2 0 ∧ dbgStep s c = dbgOutcome s 2 0 := by
  unfold dbgHalt dbgResume dbgStep
  simp only [hdie, hfree, hmay, Bool.not_true, Bool.not_false, Bool.false_eq_true, or_self, if_false, if_true, and_self]

end

/-- While a request is in progress, or without the die running, core control has no effect. -/
theorem dbgControl_ignored {s : State} (h : dieRuns s = false ∨ dbgBusy s = true) (c : Nat) :
    dbgHalt s c = s ∧ dbgResume s c = s ∧ dbgStep s c = s := by
  have hcond : (!dieRuns s) = true ∨ dbgBusy s = true := h.imp_left fun hdie => by rw [hdie]; rfl
  exact ⟨if_pos hcond, if_pos hcond, if_pos hcond⟩

theorem dbgPoll_shows (s : State) :
    (dbgPoll s).io.resp.find (mcode .dbg) =
        some (if dbgBusy s then .dbg 1 0 else .dbg s.cpu.dbgStatus s.cpu.dbgData) ∧
      dbgPoll s = { s with io := (dbgPoll s).io } := ⟨SMap.find_set_same _ _ _, rfl⟩

/-! The test access port. -/

theorem whileTap_running {s : State} (h : dieRuns s = true) (f : State → State) : whileTap s f = f s := if_pos h

theorem whileTap_off {s : State} (h : dieRuns s = false) (f : State → State) : whileTap s f = s := by
  simp [whileTap, h]

theorem tapSelect_allowed {s : State} {i : Nat} (h : tapAllowed s i = true) : tapSelect s i = { s with cpu.tapInstr := i } := by
  simp [tapSelect, h]

theorem tapSelect_refused {s : State} {i : Nat} (h : tapAllowed s i = false) :
    tapSelect s i = { s with cpu.tapInstr := 0x3F } := by
  simp [tapSelect, h]

/-- IDCODE is permitted in every life-cycle state. -/
theorem tapAllowed_idcode (s : State) : tapAllowed s 0x01 = true := by
  unfold tapAllowed
  split <;> rfl

theorem tapSelect_bypass (s : State) : tapSelect s 0x3F = { s with cpu.tapInstr := 0x3F } := by simp [tapSelect]

theorem answerBus_data (s : State) (m : BusMaster) (v : Nat) :
    answerBus s m (.data v) = { s with io.resp := s.io.resp.set (busCode m) (.data v) } := by
  simp [answerBus, noteBusError]

/-- Settles O19: each request is judged by the port's state and the life cycle, and its outcome changes the port alone. -/
theorem debugPortAndTap : Obligations.DebugPortAndTap := by
  unfold Obligations.DebugPortAndTap
  refine ⟨?halt, ?halted, ?resume, ?step, ?refused, ?poll, ?busy, ?ignored, ?off, ?reset, ?extest, ?sample, ?bypass, ?idcode,
    ?extestRefused, ?sampleRefused, ?tapOff⟩
  case halt =>
    intro s c hdie hfree hmay hruns
    exact ⟨_, rfl, dbgHalt_running hdie hfree hmay hruns⟩
  case halted =>
    intro s c hdie hfree hmay hhalted
    exact ⟨_, congrArg Host.Outcome.next (dbgHalt_halted hdie hfree hmay hhalted), dbgOutcome_shows s 0 0⟩
  case resume =>
    intro s c hdie hfree hmay
    exact ⟨_, rfl, dbgResume_shows hdie hfree hmay⟩
  case step =>
    intro s c hdie hfree hmay hhalted
    exact ⟨_, rfl, dbgStep_shows hdie hfree hmay hhalted⟩
  case refused =>
    intro s c hdie hfree hmay
    obtain ⟨hhalt, hresume, hstep⟩ := dbgControl_refused (c := c.val) hdie hfree hmay
    obtain ⟨hhalted, -, hstatus, hframe⟩ := dbgOutcome_shows s 2 0
    exact ⟨⟨_, congrArg Host.Outcome.next hhalt, hhalted, hstatus, hframe⟩,
      ⟨_, congrArg Host.Outcome.next hresume, hhalted, hstatus, hframe⟩,
      ⟨_, congrArg Host.Outcome.next hstep, hhalted, hstatus, hframe⟩⟩
  case poll =>
    intro s hdie hfree
    refine ⟨_, congrArg Host.Outcome.next (whileTap_running hdie dbgPoll), ?_, (dbgPoll_shows s).2⟩
    simpa [hfree] using (dbgPoll_shows s).1
  case busy =>
    intro s hdie hbusy
    refine ⟨_, congrArg Host.Outcome.next (whileTap_running hdie dbgPoll), ?_, (dbgPoll_shows s).2⟩
    simpa [hbusy] using (dbgPoll_shows s).1
  case ignored =>
    intro s c hbusy
    obtain ⟨hhalt, hresume, hstep⟩ := dbgControl_ignored (s := s) (.inr hbusy) c.val
    exact ⟨congrArg Host.Outcome.next hhalt, congrArg Host.Outcome.next hresume, congrArg Host.Outcome.next hstep⟩
  case off =>
    intro s c hoff
    obtain ⟨hhalt, hresume, hstep⟩ := dbgControl_ignored (s := s) (.inl hoff) c.val
    exact ⟨congrArg Host.Outcome.next hhalt, congrArg Host.Outcome.next hresume, congrArg Host.Outcome.next hstep,
      congrArg Host.Outcome.next (whileTap_off hoff _)⟩
  case reset => exact fun s hdie => congrArg Host.Outcome.next (whileTap_running hdie _)
  case extest =>
    intro s hdie hmay
    exact congrArg Host.Outcome.next ((whileTap_running hdie _).trans (tapSelect_allowed hmay))
  case sample =>
    intro s hdie hmay
    refine ⟨_, congrArg Host.Outcome.next ((whileTap_running hdie _).trans (if_pos hmay)), ?_, ?_⟩ <;>
      rw [tapSelect_allowed hmay] <;> rfl
  case bypass => exact fun s hdie => congrArg Host.Outcome.next ((whileTap_running hdie _).trans (tapSelect_bypass s))
  case idcode =>
    intro s hdie
    refine ⟨_, congrArg Host.Outcome.next (whileTap_running hdie _), ?_⟩
    rw [tapSelect_allowed (tapAllowed_idcode s), answerBus_data]
    exact ⟨rfl, SMap.find_set_same _ _ _, rfl⟩
  case extestRefused =>
    intro s hdie hmay
    exact congrArg Host.Outcome.next ((whileTap_running hdie _).trans (tapSelect_refused hmay))
  case sampleRefused =>
    intro s hdie hmay
    refine congrArg Host.Outcome.next ((whileTap_running hdie _).trans ?_)
    rw [if_neg (by rw [hmay]; exact Bool.false_ne_true), tapSelect_refused hmay]
  case tapOff =>
    intro s hoff
    exact ⟨congrArg Host.Outcome.next (whileTap_off hoff _), congrArg Host.Outcome.next (whileTap_off hoff _),
      congrArg Host.Outcome.next (whileTap_off hoff _), congrArg Host.Outcome.next (whileTap_off hoff _),
      congrArg Host.Outcome.next (whileTap_off hoff _)⟩

end Sys2Proof.Machine
end

section
/-!
What goes out to the host: requests, posted writes and vectors (R328, R329, R340, R341, R359), and what the raising of a
source leaves alone of the host bridge.
-/
namespace Sys2Proof.Machine

/-! Requests sent. -/

/-- The outputs of a list, the newest first, have gone out, and the link may have left L1 for it. -/
def Sent (l : List Out) (s t : State) : Prop :=
  regsSame s t [Reg.hbStatusAspm] ∧ ∃ r, t = { s with regs := r, io.out := l ++ s.io.out }

theorem Sent.refl (s : State) : Sent [] s s := ⟨.refl s _, s.regs, rfl⟩

theorem Sent.trans {l k : List Out} {s t u : State} (h : Sent l s t) (hk : Sent k t u) : Sent (k ++ l) s u := by
  obtain ⟨hregs, r, rfl⟩ := h
  obtain ⟨hregs', r', rfl⟩ := hk
  exact ⟨fun g hg => (hregs' g hg).trans (hregs g hg), r', by rw [List.append_assoc]⟩

theorem regsSame_leaveL1 (s : State) : regsSame s (leaveL1 s) [Reg.hbStatusAspm] := by
  unfold leaveL1
  split
  · exact .refl s _
  · exact (regsSame.refl s _).put List.mem_cons_self 0

theorem leaveL1_eq (s : State) : leaveL1 s = { s with regs := (leaveL1 s).regs } := by
  unfold leaveL1
  split <;> rfl

theorem sent_sendToHost (s : State) (o : Out) : Sent [o] s (sendToHost s o) := by
  refine ⟨regsSame_leaveL1 s, (leaveL1 s).regs, ?_⟩
  rw [sendToHost, leaveL1_eq]
  rfl

/-- The writes of a buffer as they go out. -/
def postedOuts (l : List Outbound) : List Out := (l.map fun o => Out.hostWrite o.addr o.data).reverse

theorem sent_foldl_posted (l : List Outbound) (s : State) :
    Sent (postedOuts l) s (l.foldl (fun st o => sendToHost st (.hostWrite o.addr o.data)) s) := by
  induction l generalizing s with
  | nil => exact .refl s
  | cons o l ih =>
    have hout : postedOuts (o :: l) = postedOuts l ++ [.hostWrite o.addr o.data] := by simp [postedOuts]
    rw [hout]
    exact (sent_sendToHost s _).trans (ih _)

theorem sent_drainPosted {s : State} (hup : p48Up s = true) :
    Sent (postedOuts s.host.posted) { s with host.posted := [] } (drainPosted s) := by
  unfold drainPosted
  split
  case isTrue h =>
    have hnone : s.host.posted = [] := by simpa [hup] using h
    have hsame : { s with host.posted := [] } = s := by rw [← hnone]
    rw [hnone, hsame]
    exact .refl s
  case isFalse => exact sent_foldl_posted _ _

theorem sent_openRead (s : State) (c : Nat) (o : OpenRead) (addr len : Nat) :
    Sent [.hostRead addr len] { s with host.openReads := s.host.openReads.set c o } (openRead s c o addr len) :=
  sent_sendToHost _ _

theorem regsSame_yieldRequest (s : State) (c : Nat) (o : OpenRead) :
    regsSame s (yieldRequest s c o) [Reg.brRetriesStalemateRetries] := by
  have hset : regsSame s { s with host.retry := s.host.retry.set c s.time.now, host.openReads := s.host.openReads.set c o }
      [Reg.brRetriesStalemateRetries] := .refl s _
  exact hset.bump List.mem_cons_self

/-- What a request leaves of the bridge, sent or withdrawn: it is open, and the time of a withdrawal noted. -/
theorem requestRead_host (s : State) (c : Nat) (o : OpenRead) (addr len : Nat) (st : Bool) :
    (requestRead s c o addr len st).host = { s.host with
      openReads := s.host.openReads.set c o
      retry := if st then s.host.retry.set c s.time.now else s.host.retry } := by
  cases st with
  | true => rfl
  | false =>
    obtain ⟨-, r, h⟩ := sent_openRead s c o addr len
    rw [requestRead, if_neg Bool.false_ne_true, h]
    rfl

theorem requestRead_out (s : State) (c : Nat) (o : OpenRead) (addr len : Nat) (st : Bool) :
    (requestRead s c o addr len st).io.out = (if st then [] else [.hostRead addr len]) ++ s.io.out := by
  cases st with
  | true => rfl
  | false =>
    obtain ⟨-, r, h⟩ := sent_openRead s c o addr len
    rw [requestRead, if_neg Bool.false_ne_true, h]
    rfl

/-- The fields a request may change. -/
def requestFlds : List Fld := [Reg.hbStatusAspm, Reg.brRetriesStalemateRetries]

theorem requestRead_regsSame (s : State) (c : Nat) (o : OpenRead) (addr len : Nat) (st : Bool) :
    regsSame s (requestRead s c o addr len st) requestFlds := by
  cases st with
  | true => exact (regsSame_yieldRequest s c o).mono (by simp [requestFlds])
  | false => exact (sent_openRead s c o addr len).1.mono (by simp [requestFlds])

/-! Vectors sent. -/

theorem foldl_emit_vectors (l : List Nat) (s : State) :
    l.foldl (fun st v => emit st (.vector v)) s = { s with io.out := (l.map Out.vector).reverse ++ s.io.out } := by
  induction l generalizing s with
  | nil => rfl
  | cons v l ih =>
    rw [List.foldl_cons, ih]
    simp [emit]

theorem exitL1_eq (s : State) : exitL1 s = { s with regs := (exitL1 s).regs, accum := (exitL1 s).accum } := by
  apply State.eq_of_parts <;> simp

/-- Of the pending vectors those not masked go out, and the masked ones stay pending. -/
theorem flushVectors_up {s : State} (hup : p48Up s = true) (hen : s.host.msixEn = true) :
    ∃ r a, flushVectors s = { s with
      regs := r, accum := a, host.msixPend := s.host.msixPend.filter fun v => s.host.msixMask.contains v
      io.out := ((s.host.msixPend.filter fun v => !s.host.msixMask.contains v).map Out.vector).reverse ++ s.io.out } := by
  unfold flushVectors
  simp only [hup, hen, and_self, if_true, foldl_emit_vectors]
  split
  · exact ⟨s.regs, s.accum, rfl⟩
  · exact ⟨_, _, by rw [exitL1_eq]⟩

theorem flushVectors_sends {s : State} (hup : p48Up s = true) (hen : s.host.msixEn = true) {v : Nat}
    (hpend : v ∈ s.host.msixPend) (hfree : v ∉ s.host.msixMask) :
    Out.vector v ∈ (flushVectors s).io.out ∧ v ∉ (flushVectors s).host.msixPend := by
  obtain ⟨r, a, h⟩ := flushVectors_up hup hen
  rw [h]
  simp [hpend, hfree]

theorem vectorDue_sends {s : State} (hup : p48Up s = true) (hen : s.host.msixEn = true) {v : Nat}
    (hfree : v ∉ s.host.msixMask) : vectorDue s v = emit (exitL1 s) (.vector v) := by
  simp [vectorDue, hup, hen, hfree]

/-! What the raising of a source leaves alone. -/

/-- What an interrupt may leave of the host bridge and of the outputs: vectors pending or sent, PM_PME, PE_WAKE_N, cores
interrupted. -/
structure Notified (s t : State) : Prop where
  host : t.host = { s.host with
    msixPend := t.host.msixPend, pmeStatus := t.host.pmeStatus, peWakeAt := t.host.peWakeAt }
  io : t.io = { s.io with out := t.io.out }
  out : ∀ o ∈ t.io.out, o ∈ s.io.out ∨ (∃ v, o = .vector v) ∨ o = .pme ∨ ∃ g f, o = .coreInterrupt g f

theorem Notified.refl (s : State) : Notified s s := ⟨rfl, rfl, fun _ ho => .inl ho⟩

theorem Notified.congr {s t u : State} (h : Notified s t) (hhost : u.host = t.host) (hio : u.io = t.io) : Notified s u := by
  refine ⟨?_, ?_, ?_⟩
  · rw [hhost]
    exact h.host
  · rw [hio]
    exact h.io
  · rw [hio]
    exact h.out

theorem notified_vectorDue (s : State) (v : Nat) : Notified s (vectorDue s v) := by
  unfold vectorDue
  dsimp only
  split
  · exact ⟨rfl, rfl, fun _ ho => .inl ho⟩
  · split
    · refine ⟨?_, ?_, ?_⟩
      · rw [emit_host, exitL1_host]
      · simp [emit]
      · intro o ho
        simp only [emit, exitL1_io, List.mem_cons] at ho
        exact ho.elim (fun h => .inr (.inl ⟨v, h⟩)) .inl
    · split
      · split
        · exact ⟨rfl, rfl, fun _ ho => .inl ho⟩
        · exact ⟨rfl, rfl, fun _ ho => .inl ho⟩
      · split
        · exact ⟨rfl, rfl, fun o ho => (List.mem_cons.1 ho).elim (fun h => .inr (.inr (.inl h))) .inl⟩
        · exact ⟨rfl, rfl, fun _ ho => .inl ho⟩

theorem notified_interruptCore (s : State) (core cls : Nat) : Notified s (interruptCore s core cls) := by
  unfold interruptCore
  split
  · exact ⟨rfl, rfl, fun o ho => (List.mem_cons.1 ho).elim (fun h => .inr (.inr (.inr ⟨_, _, h⟩))) .inl⟩
  · exact .refl s

theorem notified_deliver (s : State) (n : Nat) : Notified s (deliver s n) := by
  unfold deliver
  split
  · exact .refl s
  · split
    · exact notified_vectorDue _ _
    · split
      · exact notified_interruptCore _ _ _
      · exact .refl s

theorem notified_raiseSource (s : State) (n : Nat) : Notified s (raiseSource s n) := by
  have hdeliver := notified_deliver (becomePending s n 1) n
  unfold raiseSource
  split
  · exact .refl s
  · split
    · exact ⟨hdeliver.host, hdeliver.io, hdeliver.out⟩
    · exact ⟨rfl, rfl, fun _ ho => .inl ho⟩
    · exact .refl s

/-! The ledger. -/

/-- An entry of the ledger, or its overflow counted, beside what the raising of its source leaves. -/
theorem ledgerAdd_shows {s : State} (haloft : aloft s = true) {org : Nat} (horg : org ≤ 6) (addr code space : Nat) :
    (ledgerAdd s org addr code space).io = { s.io with out := (ledgerAdd s org addr code space).io.out } ∧
      (∀ o ∈ (ledgerAdd s org addr code space).io.out,
        o ∈ s.io.out ∨ (∃ v, o = .vector v) ∨ o = .pme ∨ ∃ g f, o = .coreInterrupt g f) ∧
      (ledgerAdd s org addr code space).host.posted = s.host.posted ∧
      (ledgerAdd s org addr code space).host.openReads = s.host.openReads ∧
      (s.host.ledger.length < 64 →
        (ledgerAdd s org addr code space).host.ledger = s.host.ledger ++ [⟨addr, code, org, space, tempoNo s % 2 ^ 16⟩] ∧
        get (ledgerAdd s org addr code space) Reg.ledgerOvf = get s Reg.ledgerOvf) ∧
      (64 ≤ s.host.ledger.length → (ledgerAdd s org addr code space).host.ledger = s.host.ledger ∧
        get (ledgerAdd s org addr code space) Reg.ledgerOvf =
          min (2 ^ Reg.ledgerOvf.width - 1) (get s Reg.ledgerOvf + 1)) := by
  have hraise (u : State) : get (raiseSource u (ledgerSource org)) Reg.ledgerOvf = get u Reg.ledgerOvf := by
    refine get_raiseSource_ne _ _ _ ?_
    interval_cases org <;> decide
  unfold ledgerAdd
  simp only [haloft, Bool.not_true, Bool.false_eq_true, if_false]
  split
  case isTrue hroom =>
    obtain ⟨hhost, hio, hout⟩ := notified_raiseSource
      { s with host.ledger := s.host.ledger ++ [⟨addr, code, org, space, tempoNo s % 2 ^ 16⟩] } (ledgerSource org)
    refine ⟨hio, hout, by rw [hhost], by rw [hhost], fun _ => ⟨by rw [hhost], hraise _⟩, fun h => absurd h (by omega)⟩
  case isFalse hfull =>
    obtain ⟨hhost, hio, hout⟩ := notified_raiseSource (bump s Reg.ledgerOvf) (ledgerSource org)
    exact ⟨hio, hout, by rw [hhost]; rfl, by rw [hhost]; rfl, fun h => absurd h hfull,
      fun _ => ⟨by rw [hhost]; rfl, (hraise _).trans (get_bump_same _ _)⟩⟩

/-! Answers to a general core. -/

theorem answerGc_data (s : State) (c v : Nat) :
    answerGc s c (.data v) = { s with io.resp := s.io.resp.set (c + 1) (.data v) } := by
  simp [answerGc, noteBusError]

theorem answerGc_done (s : State) (c : Nat) : answerGc s c .done = { s with io.resp := s.io.resp.set (c + 1) .done } := by
  simp [answerGc, noteBusError]

theorem answerGc_exclFailed (s : State) (c : Nat) :
    answerGc s c .exclFailed = { s with io.resp := s.io.resp.set (c + 1) .exclFailed } := by
  simp [answerGc, noteBusError]

/-- A bus error is answered, and counted as an event of its core. -/
theorem answerGc_busError (s : State) (c : Nat) :
    ∃ p, answerGc s c .busError = { s with io.resp := s.io.resp.set (c + 1) .busError, io.pulse := p } := by
  simp only [answerGc, noteBusError, if_true, pulse]
  split
  · exact ⟨_, rfl⟩
  · exact ⟨s.io.pulse, rfl⟩

end Sys2Proof.Machine
end

section
/-!
Vectors and the outbound accesses of the general cores (R328 to R331, R340, R359).
-/
namespace Sys2Proof.Machine

/-! MSIX_ENABLE. -/

/-- A source that is pending for the host has its vector's pending bit set. -/
def markSource (n : Nat) (st : State) : State :=
  if srcState st n = 1 ∧ srcEn st n ∧ srcTarget st n = 5 then markVector st (pendVector st n) else st

theorem msixEnable_served {s : State} (h : configServed s = true) :
    msixEnable s = flushVectors (forIdx 2048 markSource { s with host.msixEn := true }) := by
  unfold msixEnable
  rw [if_neg (by simp [h])]
  generalize 2048 = k
  rfl

theorem markSource_pends (s : State) (l : List Nat) (n : Nat) :
    ∃ k, markSource n { s with host.msixPend := l } = { s with host.msixPend := k } ∧ (∀ v ∈ l, v ∈ k) ∧
      (srcState s n = 1 → srcEn s n = true → srcTarget s n = 5 → pendVector s n ∈ k) := by
  have hstate : srcState { s with host.msixPend := l } n = srcState s n := rfl
  have hen : srcEn { s with host.msixPend := l } n = srcEn s n := rfl
  have htarget : srcTarget { s with host.msixPend := l } n = srcTarget s n := rfl
  unfold markSource
  rw [hstate, hen, htarget]
  split
  · refine ⟨_, rfl, fun v hv => ?_, fun _ _ _ => ?_⟩
    · dsimp only
      split
      · exact hv
      · exact List.mem_cons_of_mem _ hv
    · change pendVector s n ∈ if l.contains (pendVector s n) then l else pendVector s n :: l
      split
      next h => exact List.contains_iff_mem.1 h
      next => exact List.mem_cons_self
  · next h => exact ⟨l, rfl, fun _ hv => hv, fun h1 h2 h3 => absurd ⟨h1, h2, h3⟩ h⟩

/-- Every source below a bound that is pending for the host has its vector's pending bit set, and nothing else changes. -/
theorem markSources_pends (s : State) (n : Nat) :
    ∃ k, forIdx n markSource s = { s with host.msixPend := k } ∧
      ∀ i < n, srcState s i = 1 → srcEn s i = true → srcTarget s i = 5 → pendVector s i ∈ k := by
  induction n with
  | zero => exact ⟨s.host.msixPend, rfl, fun i hi => absurd hi (Nat.not_lt_zero i)⟩
  | succ n ih =>
    obtain ⟨l, hl, hmarked⟩ := ih
    obtain ⟨k, hk, hkept, hnew⟩ := markSource_pends s l n
    refine ⟨k, by rw [forIdx_succ, hl, hk], fun i hi h1 h2 h3 => ?_⟩
    rcases Nat.lt_succ_iff_lt_or_eq.1 hi with hlt | rfl
    · exact hkept _ (hmarked i hlt h1 h2 h3)
    · exact hnew h1 h2 h3

theorem msixEnable_sends {s : State} {n : Nat} (hserved : configServed s = true) (hup : p48Up s = true) (hn : n < 2048)
    (hstate : srcState s n = 1) (hen : srcEn s n = true) (htarget : srcTarget s n = 5)
    (hfree : pendVector s n ∉ s.host.msixMask) :
    (msixEnable s).host.msixEn = true ∧ Out.vector (pendVector s n) ∈ (msixEnable s).io.out ∧
      pendVector s n ∉ (msixEnable s).host.msixPend := by
  obtain ⟨k, hk, hmarked⟩ := markSources_pends { s with host.msixEn := true } 2048
  rw [msixEnable_served hserved, hk]
  have hsends := flushVectors_sends (s := { s with host.msixEn := true, host.msixPend := k }) hup rfl
    (hmarked n hn hstate hen htarget) hfree
  obtain ⟨r, a, h⟩ := flushVectors_up (s := { s with host.msixEn := true, host.msixPend := k }) hup rfl
  exact ⟨by rw [h], hsends⟩

theorem msixUnmask_on {s : State} (hon : endpointOn s = true) (haloft : aloft s = true) (v : Nat) :
    msixUnmask s v = flushVectors { s with host.msixMask := s.host.msixMask.erase v } := by
  simp [msixUnmask, hon, haloft]

/-! Writes of a core. -/

section
variable {s : State} {c addr f : Nat} {d : List Byte} (haloft : aloft s = true) (hfree : gcHeld s c = false)
include haloft hfree

theorem gcOutboundWrite_posted (hwin : findWindow s addr d.length = some f) (hwrite : bitAt f 2 = true)
    (hack : bitAt f 1 = false) (hup : p48Up s = true) :
    gcOutboundWrite s c addr d false = sendToHost (answerGc (drainPosted s) c .done) (.hostWrite addr d) := by
  simp [gcOutboundWrite, haloft, hfree, hwin, hwrite, hack, hup]

theorem gcOutboundWrite_waits (hwin : findWindow s addr d.length = some f) (hwrite : bitAt f 2 = true)
    (hack : bitAt f 1 = false) (hup : p48Up s = true) : gcOutboundWrite s c addr d true =
      if 64 ≤ s.host.posted.length then s
      else answerGc { s with host.posted := s.host.posted ++ [⟨c, addr, d⟩] } c .done := by
  simp [gcOutboundWrite, haloft, hfree, hwin, hwrite, hack, hup]

theorem gcOutboundWrite_acknowledged (hwin : findWindow s addr d.length = some f) (hwrite : bitAt f 2 = true)
    (hack : bitAt f 1 = true) (hup : p48Up s = true) (st : Bool) : gcOutboundWrite s c addr d st =
      requestRead (sendToHost (drainPosted s) (.hostWrite addr d)) c (.ackWrite (lastDw addr d.length))
        (lastDw addr d.length) 0 st := by
  simp [gcOutboundWrite, haloft, hfree, hwin, hwrite, hack, hup]

theorem gcOutboundWrite_outside (hwin : ((findWindow s addr d.length).all fun f => !bitAt f 2) = true) (st : Bool) :
    gcOutboundWrite s c addr d st = ledgerAdd (answerGc s c .done) (3 + c) addr 7 2 := by
  cases h : findWindow s addr d.length with
  | none => simp [gcOutboundWrite, haloft, hfree, h]
  | some f =>
    have hwrite : bitAt f 2 = false := by simpa [h] using hwin
    simp [gcOutboundWrite, haloft, hfree, h, hwrite]

theorem gcOutboundWrite_down (hwin : findWindow s addr d.length = some f) (hwrite : bitAt f 2 = true)
    (hup : p48Up s = false) (st : Bool) : gcOutboundWrite s c addr d st =
      if bitAt f 1 then answerGc s c .busError else ledgerAdd (answerGc s c .done) (3 + c) addr 8 2 := by
  simp [gcOutboundWrite, haloft, hfree, hwin, hwrite, hup]

theorem gcOutboundRead_inside {len : Nat} (hwin : findWindow s addr len = some f) (hup : p48Up s = true) (st : Bool) :
    gcOutboundRead s c addr len st = requestRead (drainPosted s) c (.read addr len) addr len st := by
  simp [gcOutboundRead, haloft, hfree, hwin, hup]

theorem gcOutboundRead_outside {len : Nat} (hout : findWindow s addr len = none ∨ p48Up s = false) (st : Bool) :
    gcOutboundRead s c addr len st = answerGc s c .busError := by
  cases hwin : findWindow s addr len with
  | none => simp [gcOutboundRead, haloft, hfree, hwin]
  | some f =>
    have hup : p48Up s = false := by simpa [hwin] using hout
    simp [gcOutboundRead, haloft, hfree, hwin, hup]

end

/-- A write refused into the ledger, answered as done. -/
theorem ledgerAnswered_shows {s : State} (haloft : aloft s = true) (c : Fin 4) (addr code : Nat) :
    (ledgerAdd (answerGc s c .done) (3 + c) addr code 2).io.resp.find (c.val + 1) = some .done ∧
      (∀ o ∈ (ledgerAdd (answerGc s c .done) (3 + c) addr code 2).io.out,
        o ∈ s.io.out ∨ (∃ v, o = .vector v) ∨ o = .pme ∨ ∃ g f, o = .coreInterrupt g f) ∧
      (ledgerAdd (answerGc s c .done) (3 + c) addr code 2).host.posted = s.host.posted ∧
      (ledgerAdd (answerGc s c .done) (3 + c) addr code 2).host.openReads = s.host.openReads ∧
      (s.host.ledger.length < 64 →
        (ledgerAdd (answerGc s c .done) (3 + c) addr code 2).host.ledger =
          s.host.ledger ++ [⟨addr, code, 3 + c, 2, tempoNo s % 2 ^ 16⟩] ∧
        get (ledgerAdd (answerGc s c .done) (3 + c) addr code 2) Reg.ledgerOvf = get s Reg.ledgerOvf) ∧
      (64 ≤ s.host.ledger.length →
        (ledgerAdd (answerGc s c .done) (3 + c) addr code 2).host.ledger = s.host.ledger ∧
        get (ledgerAdd (answerGc s c .done) (3 + c) addr code 2) Reg.ledgerOvf =
          min (2 ^ Reg.ledgerOvf.width - 1) (get s Reg.ledgerOvf + 1)) := by
  rw [answerGc_done]
  obtain ⟨hio, hrest⟩ := ledgerAdd_shows (s := { s with io.resp := s.io.resp.set (c + 1) .done }) haloft
    (org := 3 + c) (by omega) addr code 2
  refine ⟨?_, hrest⟩
  rw [hio]
  exact SMap.find_set_same _ _ _

/-! Retries and completions. -/

theorem stalemateRetry_due {s : State} {c t0 : Nat} {o : OpenRead} (hretry : s.host.retry.find c = some t0)
    (hopen : s.host.openReads.find c = some o) (hdue : t0 + 1000 ≤ s.time.now) (st : Bool) :
    stalemateRetry s c st =
      requestRead { s with host.retry := s.host.retry.del c } c o (openAddr o).1 (openAddr o).2 st := by
  simp [stalemateRetry, hretry, hopen, Nat.not_lt.2 hdue]

/-- What a fetch that goes out leaves: the ring's turn, the fetch in hand and its requests, after the posted writes. -/
theorem startFetch_sent {s : State} {r : Nat} (left : Nat) (hroom : txRoom s (headDesc s r) = true)
    (hup : p48Up s = true) :
    ∃ l, Out.hostRead (get s (Reg.ringDescBase r) + 32 * get s (Reg.ringHeadHead r)) 32 ∈ l ∧
      Sent l { s with
        host.fetching := some (r, get s (Reg.ringHeadHead r)), host.wrrRing := r, host.wrrLeft := left - 1
        host.posted := [] } (startFetch s r left false) := by
  have hdrain := sent_drainPosted (s := { s with
    host.fetching := some (r, get s (Reg.ringHeadHead r)), host.wrrRing := r, host.wrrLeft := left - 1 }) hup
  have hdesc := hdrain.trans (sent_sendToHost _
    (.hostRead (get s (Reg.ringDescBase r) + 32 * get s (Reg.ringHeadHead r)) 32))
  unfold startFetch
  simp only [hroom, Bool.not_true, Bool.false_eq_true, if_false]
  split
  · exact ⟨_, by simp, hdesc.trans (sent_sendToHost _ _)⟩
  · exact ⟨_, by simp, hdesc⟩

theorem fetchAgain_due {s : State} {r t0 : Nat} (hretry : s.host.fetchRetry = some (r, t0))
    (hdue : t0 + 1000 ≤ s.time.now) (hmay : fetchMay s = true) (hserved : txServable s r = true) (st : Bool) :
    ∃ left, fetchAgain s st = startFetch { s with host.fetchRetry := none } r left st := by
  have hmay' : fetchMay { s with host.fetchRetry := none } = true := hmay
  have hserved' : txServable { s with host.fetchRetry := none } r = true := hserved
  refine ⟨if s.host.wrrRing = r ∧ s.host.wrrLeft ≠ 0 then s.host.wrrLeft
    else txWeight { s with host.fetchRetry := none } r, ?_⟩
  simp only [fetchAgain, hretry, Nat.not_lt.2 hdue, hmay', hserved', and_self, if_true, if_false]

section
variable {s : State} {c : Nat} {o : OpenRead} (hopen : s.host.openReads.find c = some o)
  (hsent : s.host.retry.has c = false)
include hopen hsent

theorem readCompletion_data {b : List Byte} (hread : (∃ a l, o = .read a l) ∨ ∃ a l, o = .exclLoad a l) :
    readCompletion s c (.data b) =
      answerGc { s with host.openReads := s.host.openReads.del c } c (.data (leNat b)) := by
  rcases hread with ⟨a, l, rfl⟩ | ⟨a, l, rfl⟩ <;> simp [readCompletion, hopen, hsent]

theorem readCompletion_timeout : readCompletion s c .timeout =
    answerGc { s with host.openReads := s.host.openReads.del c, io.aer := s.io.aer ||| 2 ^ 14 } c .busError := by
  simp [readCompletion, hopen, hsent]

end

/-- Settles O21: each access takes the branch of its window, of P48 and of the yield, and what goes out follows the posted
writes. -/
theorem vectorsAndOutboundAccesses : Obligations.VectorsAndOutboundAccesses := by
  unfold Obligations.VectorsAndOutboundAccesses
  refine ⟨?enable, ?unmask, ?posted, ?waits, ?full, ?acknowledged, ?outside, ?down, ?read, ?readOutside, ?readYields, ?retry,
    ?fetch, ?completed, ?timeout⟩
  case enable =>
    intro s n hserved hup hn hstate hen htarget hfree
    exact ⟨_, rfl, msixEnable_sends hserved hup hn hstate hen htarget hfree⟩
  case unmask =>
    intro s v hon haloft hup hen hpend hfree
    refine ⟨_, congrArg Host.Outcome.next (msixUnmask_on hon haloft v), ?_⟩
    have hsends := flushVectors_sends (s := { s with host.msixMask := s.host.msixMask.erase v }) hup hen hpend hfree
    obtain ⟨r, a, h⟩ := flushVectors_up (s := { s with host.msixMask := s.host.msixMask.erase v }) hup hen
    exact ⟨hsends.1, hsends.2, by rw [h], by rw [h]⟩
  case posted =>
    intro s c addr d f haloft hfree hwin hwrite hack hup
    refine ⟨_, congrArg Host.Outcome.next (gcOutboundWrite_posted haloft hfree hwin hwrite hack hup), ?_⟩
    obtain ⟨-, r, hdrain⟩ := sent_drainPosted hup
    obtain ⟨-, r', hsend⟩ := sent_sendToHost (answerGc (drainPosted s) c .done) (.hostWrite addr d)
    rw [hsend, answerGc_done, hdrain]
    exact ⟨rfl, rfl, SMap.find_set_same _ _ _, rfl⟩
  case waits =>
    intro s c addr d f haloft hfree hwin hwrite hack hup hroom
    refine ⟨_, congrArg Host.Outcome.next ((gcOutboundWrite_waits haloft hfree hwin hwrite hack hup).trans
      (if_neg (Nat.not_le.2 hroom))), ?_⟩
    rw [answerGc_done]
    exact ⟨rfl, rfl, SMap.find_set_same _ _ _, rfl⟩
  case full =>
    intro s c addr d f haloft hfree hwin hwrite hack hup hfull
    exact congrArg Host.Outcome.next ((gcOutboundWrite_waits haloft hfree hwin hwrite hack hup).trans (if_pos hfull))
  case acknowledged =>
    intro s c addr d f st haloft hfree hwin hwrite hack hup
    refine ⟨_, congrArg Host.Outcome.next (gcOutboundWrite_acknowledged haloft hfree hwin hwrite hack hup st), ?_⟩
    obtain ⟨-, r, hdrain⟩ := sent_drainPosted hup
    obtain ⟨-, r', hsend⟩ := sent_sendToHost (drainPosted s) (.hostWrite addr d)
    rw [requestRead_out, requestRead_host, hsend, hdrain]
    refine ⟨by simp, SMap.find_set_same _ _ _, fun hst => ?_⟩
    rw [hst]
    exact SMap.find_set_same _ _ _
  case outside =>
    intro s c addr d st haloft hfree hwin
    refine ⟨_, congrArg Host.Outcome.next (gcOutboundWrite_outside haloft hfree hwin st), ?_⟩
    obtain ⟨hresp, hout, hposted, -, hroom, hfull⟩ := ledgerAnswered_shows haloft c addr 7
    exact ⟨hroom, hfull, hposted, hresp, hout⟩
  case down =>
    intro s c addr d f st haloft hfree hwin hwrite hup
    refine ⟨_, congrArg Host.Outcome.next (gcOutboundWrite_down haloft hfree hwin hwrite hup st), ?_⟩
    cases hack : bitAt f 1 with
    | true =>
      obtain ⟨p, hp⟩ := answerGc_busError s c
      rw [if_pos rfl, hp]
      exact ⟨fun _ => ⟨SMap.find_set_same _ _ _, rfl⟩, fun h => absurd h (by decide), rfl, rfl⟩
    | false =>
      obtain ⟨hresp, -, hposted, hopen, hroom, hfull⟩ := ledgerAnswered_shows haloft c addr 8
      rw [if_neg Bool.false_ne_true]
      exact ⟨fun h => absurd h (by decide), fun _ => ⟨hresp, fun h => (hroom h).1, hfull⟩, hposted, hopen⟩
  case read =>
    intro s c addr len f haloft hfree hwin hup
    refine ⟨_, congrArg Host.Outcome.next (gcOutboundRead_inside haloft hfree hwin hup false), ?_⟩
    obtain ⟨-, r, hdrain⟩ := sent_drainPosted hup
    obtain ⟨-, r', hopen⟩ := sent_openRead (drainPosted s) c (.read addr len) addr len
    rw [requestRead, if_neg Bool.false_ne_true, hopen, hdrain]
    exact ⟨rfl, SMap.find_set_same _ _ _, rfl⟩
  case readOutside =>
    intro s c addr len st haloft hfree hout
    refine ⟨_, congrArg Host.Outcome.next (gcOutboundRead_outside haloft hfree hout st), ?_⟩
    obtain ⟨p, hp⟩ := answerGc_busError s c
    rw [hp]
    exact ⟨SMap.find_set_same _ _ _, rfl⟩
  case readYields =>
    intro s c addr len f haloft hfree hwin hup
    refine ⟨_, congrArg Host.Outcome.next (gcOutboundRead_inside haloft hfree hwin hup true), ?_⟩
    obtain ⟨-, r, hdrain⟩ := sent_drainPosted hup
    rw [requestRead_out, requestRead_host, hdrain]
    exact ⟨rfl, SMap.find_set_same _ _ _⟩
  case retry =>
    intro s c t0 o hc hretry hopen hdue
    refine ⟨_, congrArg Host.Outcome.next ((if_neg (by omega)).trans (stalemateRetry_due hretry hopen hdue false)), ?_⟩
    obtain ⟨hregs, r, h⟩ := sent_openRead { s with host.retry := s.host.retry.del c } c o (openAddr o).1 (openAddr o).2
    rw [requestRead, if_neg Bool.false_ne_true]
    rw [h] at hregs ⊢
    exact ⟨rfl, SMap.find_del_same _ _, SMap.find_set_same _ _ _, hregs, rfl⟩
  case fetch =>
    intro s r t0 hretry hdue hmay hserved hroom
    obtain ⟨left, hagain⟩ := fetchAgain_due hretry hdue hmay hserved false
    refine ⟨_, congrArg Host.Outcome.next ((if_pos rfl).trans hagain), ?_⟩
    have hup : p48Up s = true := by
      simp only [fetchMay, Bool.and_eq_true] at hmay
      exact hmay.1.1.2
    obtain ⟨l, hdesc, -, g, h⟩ := startFetch_sent (s := { s with host.fetchRetry := none }) left hroom hup
    rw [h]
    exact ⟨rfl, rfl, List.mem_append_left _ hdesc⟩
  case completed =>
    intro s c addr len b hopen hsent
    obtain ⟨o, ho, hread⟩ : ∃ o, s.host.openReads.find c.val = some o ∧
        ((∃ a l, o = .read a l) ∨ ∃ a l, o = .exclLoad a l) :=
      hopen.elim (fun h => ⟨_, h, .inl ⟨_, _, rfl⟩⟩) fun h => ⟨_, h, .inr ⟨_, _, rfl⟩⟩
    refine ⟨_, congrArg Host.Outcome.next (readCompletion_data ho hsent hread), ?_⟩
    rw [answerGc_data]
    exact ⟨SMap.find_set_same _ _ _, SMap.find_del_same _ _, rfl⟩
  case timeout =>
    intro s c o hopen hsent
    refine ⟨_, congrArg Host.Outcome.next (readCompletion_timeout hopen hsent), ?_⟩
    obtain ⟨p, hp⟩ := answerGc_busError
      { s with host.openReads := s.host.openReads.del c, io.aer := s.io.aer ||| 2 ^ 14 } c
    rw [hp]
    refine ⟨SMap.find_set_same _ _ _, ?_, SMap.find_del_same _ _, rfl⟩
    rw [bitAt, Nat.testBit_or, Nat.testBit_two_pow_self, Bool.or_true]

end Sys2Proof.Machine
end

section
/-!
Semaphores and the reading of the ledger (R332 to R334).
-/
namespace Sys2Proof.Machine

/-! The owner's field. -/

theorem semOf_lt (addr : Nat) : semOf addr < 32 := bitsAt_lt addr 6 5

/-- A semaphore's owner is apart from what a request changes, from P48_UP and from the counts of timeouts. -/
theorem semOwner_apart {i : Nat} (hi : i < 32) :
    ∀ f ∈ requestFlds ++ [Reg.hbStatusP48Up, Reg.brSemSemWaitFails, Reg.brSemSemTimeouts],
      (Reg.semOwner i).key ≠ f.key := by
  intro f hf
  simp only [requestFlds, List.cons_append, List.nil_append, List.mem_cons, List.not_mem_nil, or_false] at hf
  rcases hf with rfl | rfl | rfl | rfl | rfl <;>
    simp only [Fld.key, Reg.semOwner, Reg.hbStatusAspm, Reg.brRetriesStalemateRetries, Reg.hbStatusP48Up,
      Reg.brSemSemWaitFails, Reg.brSemSemTimeouts] <;> omega

theorem p48Up_put_semOwner {i : Nat} (hi : i < 32) (s : State) (v : Nat) : p48Up (put s (Reg.semOwner i) v) = p48Up s := by
  rw [p48Up, flag, get_put_ne _ _ _ _ (semOwner_apart hi _ (by simp)).symm]
  rfl

theorem semOwner_put {i v : Nat} (hv : v < 16) (s : State) : semOwner (put s (Reg.semOwner i) v) i = v := by
  rw [semOwner, get_put_same]
  exact Nat.mod_eq_of_lt hv

theorem semOwner_of_regsSame {s t : State} {i : Nat} (hi : i < 32) (h : regsSame s t requestFlds) :
    semOwner t i = semOwner s i :=
  h _ (List.all_eq_true.2 fun f hf => bne_iff_ne.2 (semOwner_apart hi f (List.mem_append_left _ hf)))

/-! A semaphore given. -/

/-- Posted writes that could go are sent; whether P48 is UP or not nothing else changes. -/
theorem drainPosted_sent (s : State) : ∃ l p, Sent l { s with host.posted := p } (drainPosted s) := by
  cases hup : p48Up s with
  | true => exact ⟨_, _, sent_drainPosted hup⟩
  | false =>
    have hsame : drainPosted s = s := if_pos (.inr (by simp [hup]))
    rw [hsame]
    exact ⟨[], s.host.posted, .refl s⟩

/-- A semaphore taken by a core, its exclusive load still to go out. -/
def semTaken (s : State) (c i : Nat) : State :=
  { put s (Reg.semOwner i) (3 + c) with host.semSince := s.host.semSince.set i s.time.now }

theorem semGive_free {s : State} {c i : Nat} (h : semOwner s i = 0) (addr len : Nat) (st : Bool) :
    semGive s c i addr len st = requestRead (drainPosted (semTaken s c i)) c (.exclLoad addr len) addr len st := by
  rw [semGive, if_neg (by omega)]
  rfl

theorem semGive_held {s : State} {c i : Nat} (h : semOwner s i = 3 + c) (addr len : Nat) (st : Bool) :
    semGive s c i addr len st = requestRead (drainPosted s) c (.exclLoad addr len) addr len st := by
  rw [semGive, if_pos h]

/-- What a request leaves after the posted writes that could go. -/
theorem requestDrained_shows (s : State) (c : Nat) (o : OpenRead) (addr len : Nat) (st : Bool) :
    (requestRead (drainPosted s) c o addr len st).host.semSince = s.host.semSince ∧
      (requestRead (drainPosted s) c o addr len st).host.semWait = s.host.semWait ∧
      (requestRead (drainPosted s) c o addr len st).host.openReads = s.host.openReads.set c o ∧
      (st = true → (requestRead (drainPosted s) c o addr len st).host.retry.find c = some s.time.now) ∧
      (∀ x ∈ s.io.out, x ∈ (requestRead (drainPosted s) c o addr len st).io.out) ∧
      regsSame s (requestRead (drainPosted s) c o addr len st) requestFlds := by
  obtain ⟨l, p, hregs, r, hdrain⟩ := drainPosted_sent s
  refine ⟨?_, ?_, ?_, fun hst => ?_, fun x hx => ?_, ?_⟩
  · rw [requestRead_host, hdrain]
  · rw [requestRead_host, hdrain]
  · rw [requestRead_host, hdrain]
  · rw [requestRead_host, hdrain, hst]
    exact SMap.find_set_same _ _ _
  · rw [requestRead_out, hdrain]
    exact List.mem_append_right _ (List.mem_append_right _ hx)
  · intro g hg
    rw [requestRead_regsSame _ _ _ _ _ _ g hg]
    exact hregs g (List.all_eq_true.2 fun f hf => List.all_eq_true.1 hg f (by
      rw [List.mem_singleton.1 hf]
      exact List.mem_cons_self))

/-- A free semaphore is given: its owner and time are noted and the load is open. -/
theorem semGive_shows {s : State} {c i : Nat} (hi : i < 32) (hc : c < 4) (h : semOwner s i = 0) (addr len : Nat)
    (st : Bool) :
    semOwner (semGive s c i addr len st) i = 3 + c ∧
      (semGive s c i addr len st).host.semSince.find i = some s.time.now ∧
      (semGive s c i addr len st).host.semWait = s.host.semWait ∧
      (semGive s c i addr len st).host.openReads = s.host.openReads.set c (.exclLoad addr len) ∧
      (st = true → (semGive s c i addr len st).host.retry.find c = some s.time.now) ∧
      (∀ x ∈ s.io.out, x ∈ (semGive s c i addr len st).io.out) ∧
      regsSame s (semGive s c i addr len st) (Reg.semOwner i :: requestFlds) := by
  obtain ⟨hsince, hwait, hopen, hretry, hout, hregs⟩ := requestDrained_shows (semTaken s c i) c (.exclLoad addr len) addr len st
  rw [semGive_free h]
  refine ⟨(semOwner_of_regsSame hi hregs).trans (semOwner_put (by omega) s), ?_, hwait, hopen, hretry, hout, ?_⟩
  · rw [hsince]
    exact SMap.find_set_same _ _ _
  · intro g hg
    rw [List.all_cons, Bool.and_eq_true, bne_iff_ne] at hg
    rw [hregs g hg.2]
    exact get_put_ne _ _ _ _ hg.1

/-! A semaphore freed. -/

theorem semWaiter_of_wait {s t : State} (h : t.host.semWait = s.host.semWait) (i : Nat) : semWaiter t i = semWaiter s i := by
  rw [semWaiter, semWaiter, h]

theorem semFree_idle {s : State} (h : s.host.semWait = []) (i : Nat) : semFree s i = put s (Reg.semOwner i) 0 := by
  have hnone : semWaiter (put s (Reg.semOwner i) 0) i = none := by
    rw [semWaiter]
    change (match minBy (fun e => e.2.2.2.2) (s.host.semWait.filter fun e => e.2.2.2.1 == i) with
      | some (c, a, l, _, t) => some (c, a, l, t)
      | none => none) = none
    rw [h]
    rfl
  rw [semFree, hnone]

/-- A semaphore freed with no owner yet, its longest waiting load taken from the waiting ones. -/
def semHanded (s : State) (w i : Nat) : State :=
  { put s (Reg.semOwner i) 0 with host.semWait := s.host.semWait.del w, freeCtr := s.freeCtr + 1 }

theorem semFree_waiter {s : State} {i w a l t0 : Nat} (h : semWaiter s i = some (w, a, l, t0)) :
    ∃ b, semFree s i = semGive (semHanded s w i) w i a l b := by
  have hwaiter : semWaiter (put s (Reg.semOwner i) 0) i = some (w, a, l, t0) := (semWaiter_of_wait rfl i).trans h
  refine ⟨(draw { put s (Reg.semOwner i) 0 with host.semWait := s.host.semWait.del w } 2).1 == 1, ?_⟩
  rw [semFree, hwaiter]
  rfl

/-- A semaphore freed goes to the core that waited first. -/
theorem semFree_shows {s : State} {i w a l t0 : Nat} (hi : i < 32) (hw : w < 4)
    (h : semWaiter s i = some (w, a, l, t0)) :
    semOwner (semFree s i) i = 3 + w ∧ (semFree s i).host.semSince.find i = some s.time.now ∧
      (semFree s i).host.semWait = s.host.semWait.del w ∧
      (semFree s i).host.openReads = s.host.openReads.set w (.exclLoad a l) ∧
      (∀ x ∈ s.io.out, x ∈ (semFree s i).io.out) ∧ regsSame s (semFree s i) (Reg.semOwner i :: requestFlds) := by
  obtain ⟨b, hfree⟩ := semFree_waiter h
  have hzero : semOwner (semHanded s w i) i = 0 := semOwner_put (v := 0) (by decide) s
  have hput : ∀ g, get (semHanded s w i) g = get (put s (Reg.semOwner i) 0) g := fun _ => rfl
  obtain ⟨howner, hsince, hwait, hopen, -, hout, hregs⟩ :=
    semGive_shows (s := semHanded s w i) hi hw hzero a l b
  rw [hfree]
  refine ⟨howner, hsince, hwait, hopen, hout, fun g hg => ?_⟩
  rw [hregs g hg, hput]
  exact get_put_ne _ _ _ _ (keys_of_all hg List.mem_cons_self)

/-! Exclusive loads and stores. -/

section
variable {s : State} {c addr f : Nat} (haloft : aloft s = true) (hfree : gcHeld s c = false)
include haloft hfree

theorem exclLoad_gives {len : Nat} (hwin : findWindow s addr len = some f) (hup : p48Up s = true)
    (h : semOwner s (semOf addr) = 0 ∨ semOwner s (semOf addr) = 3 + c) (st : Bool) :
    exclLoad s c addr len st = semGive s c (semOf addr) addr len st := by
  simp [exclLoad, haloft, hfree, hwin, hup, h]

theorem exclLoad_waits {len : Nat} (hwin : findWindow s addr len = some f) (hup : p48Up s = true)
    (hzero : semOwner s (semOf addr) ≠ 0) (hother : semOwner s (semOf addr) ≠ 3 + c) (st : Bool) :
    exclLoad s c addr len st =
      { s with host.semWait := s.host.semWait.set c (addr, len, semOf addr, s.time.now) } := by
  simp [exclLoad, haloft, hfree, hwin, hup, hzero, hother]

variable {d : List Byte} (hwin : findWindow s addr d.length = some f) (hwrite : bitAt f 2 = true)
include hwin hwrite

theorem exclStore_fails (hother : semOwner s (semOf addr) ≠ 3 + c) (st : Bool) :
    exclStore s c addr d st = answerGc s c .exclFailed := by
  simp [exclStore, haloft, hfree, hwin, hwrite, hother]

theorem exclStore_writes (hup : p48Up s = true) (hown : semOwner s (semOf addr) = 3 + c) (st : Bool) :
    exclStore s c addr d st = semFree (requestRead (sendToHost (drainPosted s) (.hostWrite addr d)) c
      (.exclStore (lastDw addr d.length)) (lastDw addr d.length) 0 st) (semOf addr) := by
  simp [exclStore, haloft, hfree, hwin, hwrite, hup, hown]

end

/-- A write and its closing read, after the posted writes, leave the semaphores and those that wait for them. -/
theorem writeAndClose_shows {s : State} (hup : p48Up s = true) (addr : Nat) (d : List Byte) (c : Nat) (o : OpenRead)
    (dw : Nat) (st : Bool) :
    (requestRead (sendToHost (drainPosted s) (.hostWrite addr d)) c o dw 0 st).host.semWait = s.host.semWait ∧
      (requestRead (sendToHost (drainPosted s) (.hostWrite addr d)) c o dw 0 st).host.openReads =
        s.host.openReads.set c o ∧
      (st = true →
        (requestRead (sendToHost (drainPosted s) (.hostWrite addr d)) c o dw 0 st).host.retry.find c =
          some s.time.now) ∧
      (requestRead (sendToHost (drainPosted s) (.hostWrite addr d)) c o dw 0 st).time = s.time ∧
      Out.hostWrite addr d ∈ (requestRead (sendToHost (drainPosted s) (.hostWrite addr d)) c o dw 0 st).io.out := by
  obtain ⟨-, r, hdrain⟩ := sent_drainPosted hup
  obtain ⟨-, r', hsend⟩ := sent_sendToHost (drainPosted s) (.hostWrite addr d)
  have htime (u : State) : (requestRead u c o dw 0 st).time = u.time := by
    cases st with
    | true => rfl
    | false =>
      obtain ⟨-, q, hq⟩ := sent_openRead u c o dw 0
      rw [requestRead, if_neg Bool.false_ne_true, hq]
  rw [requestRead_host, requestRead_out, htime, hsend, hdrain]
  refine ⟨rfl, rfl, fun hst => ?_, rfl, by simp⟩
  rw [hst]
  exact SMap.find_set_same _ _ _

/-! Waits and holds that end. -/

theorem semWaitTimeout_due {s : State} {c a l i t0 : Nat} (h : s.host.semWait.find c = some (a, l, i, t0))
    (hdue : t0 + 10000 ≤ s.time.now) (st : Bool) : semWaitTimeout s c st =
      bump (requestRead { s with host.semWait := s.host.semWait.del c } c (.exclLoad a l) a l st)
        Reg.brSemSemWaitFails := by
  simp [semWaitTimeout, h, Nat.not_lt.2 hdue]

theorem semHoldTimeout_due {s : State} {c i : Nat}
    (h : ((List.range 32).find? fun i => semOwner s i == 3 + c &&
      (s.host.semSince.find i).all fun t => decide (t + 10000 ≤ s.time.now)) = some i) :
    semHoldTimeout s c = bump (semFree s i) Reg.brSemSemTimeouts ∧ i < 32 := by
  refine ⟨?_, List.mem_range.1 (List.mem_of_find?_eq_some h)⟩
  rw [semHoldTimeout, h]

/-! Accesses of the host and of the SPI port. -/

/-- An accepted access leaves the processors' state, but one of the debug port. -/
theorem answered_undebugged {m : Master} (hm : m ≠ .dbg) (u : State) (a : Nat) :
    noteGrant (answer u m .done) a m = { u with io := (noteGrant (answer u m .done) a m).io } := by
  cases m with
  | dbg => exact absurd rfl hm
  | _ => simp [noteGrant, answer, noteBusError]

theorem answered_bridge {m : Master} (hm : m = .host ∨ m = .spi) (u : State) (a : Nat) :
    noteGrant (answer u m .done) a m = { u with io := (noteGrant (answer u m .done) a m).io } :=
  answered_undebugged (by rintro rfl; simp at hm) u a

theorem origin_bridge {m : Master} (hm : m = .host ∨ m = .spi) : origin m ≠ 0 ∧ origin m < 16 := by
  rcases hm with rfl | rfl <;> decide

theorem semTake_free {s : State} {m : Master} (hm : m = .host ∨ m = .spi) {i : Nat} (h : semOwner s i = 0) :
    semTake s m i = put s (Reg.semOwner i) (origin m) := if_pos ⟨hm, h⟩

theorem semRelease_own {s : State} {m : Master} (hm : m = .host ∨ m = .spi) {i : Nat} (h : semOwner s i = origin m) :
    semRelease s m i = semFree s i := if_pos ⟨(origin_bridge hm).1, h⟩

/-! The ledger. -/

theorem ledgerRemove_length {org : Nat} {l : List LedgerEntry} (h : (l.find? fun e => e.origin == org).isSome = true) :
    (ledgerRemove org l).length + 1 = l.length := by
  induction l with
  | nil => exact absurd h (by simp)
  | cons e l ih =>
    rw [ledgerRemove]
    split
    · rfl
    next hother =>
      rw [List.find?_cons_of_neg (by simpa using hother)] at h
      rw [List.length_cons, ih h, List.length_cons]

theorem ledgerTake_some {s : State} {org : Nat} {e : LedgerEntry} (h : ledgerOldest s org = some e) : ledgerTake s org =
    (e.code + e.origin * 2 ^ 4 + e.space * 2 ^ 8 + 2 ^ 10 + e.tempo * 2 ^ 16,
      { s with host.ledger := ledgerRemove org s.host.ledger }) := by
  rw [ledgerTake, h]

theorem ledgerTake_none {s : State} {org : Nat} (h : ledgerOldest s org = none) : ledgerTake s org = (0, s) := by
  rw [ledgerTake, h]

theorem answered_resp (u : State) (m : Master) (v a : Nat) :
    (noteGrant (answer u m (.data v)) a m).io.resp.find (mcode m) = some (.data v) := by
  cases m <;> simp [noteGrant, answer, noteBusError]

/-- Settles O22: a semaphore is given by one operation, to its asker or, when it is freed, to the core that waited first. -/
theorem semaphoresAndLedger : Obligations.SemaphoresAndLedger := by
  unfold Obligations.SemaphoresAndLedger
  refine ⟨?load, ?loadYields, ?loadAgain, ?loadWaits, ?store, ?storeHands, ?storeFails, ?waitEnds, ?holdEnds, ?holdHands,
    ?take, ?release, ?releaseHands, ?entry, ?none⟩
  case load =>
    intro s c addr len f haloft hfree hwin hup hzero
    refine ⟨_, congrArg Host.Outcome.next (exclLoad_gives haloft hfree hwin hup (.inl hzero) false), ?_⟩
    obtain ⟨howner, hsince, -, hopen, -⟩ := semGive_shows (semOf_lt addr) c.isLt hzero addr len false
    refine ⟨howner, hsince, by rw [hopen]; exact SMap.find_set_same _ _ _, ?_⟩
    obtain ⟨hregs, r, hdrain⟩ := sent_drainPosted (s := semTaken s c (semOf addr))
      ((p48Up_put_semOwner (semOf_lt addr) s _).trans hup)
    obtain ⟨hregs', r', hread⟩ := sent_openRead (drainPosted (semTaken s c (semOf addr))) c (.exclLoad addr len) addr len
    rw [semGive_free hzero, requestRead, if_neg Bool.false_ne_true]
    refine ⟨?_, fun g hg => ?_, ?_⟩
    · rw [hread, hdrain]
      rfl
    · rw [List.all_cons, Bool.and_eq_true, bne_iff_ne] at hg
      exact (hregs' g hg.2).trans ((hregs g hg.2).trans (get_put_ne _ _ _ _ hg.1))
    · rw [hread, hdrain]
      rfl
  case loadYields =>
    intro s c addr len f haloft hfree hwin hup hzero
    refine ⟨_, congrArg Host.Outcome.next (exclLoad_gives haloft hfree hwin hup (.inl hzero) true), ?_⟩
    obtain ⟨howner, -, -, hopen, hretry, -⟩ := semGive_shows (semOf_lt addr) c.isLt hzero addr len true
    refine ⟨howner, by rw [hopen]; exact SMap.find_set_same _ _ _, hretry rfl, ?_⟩
    obtain ⟨-, r, hdrain⟩ := sent_drainPosted (s := semTaken s c (semOf addr))
      ((p48Up_put_semOwner (semOf_lt addr) s _).trans hup)
    rw [semGive_free hzero, requestRead_out, hdrain]
    rfl
  case loadAgain =>
    intro s c addr len f st haloft hfree hwin hup hown
    refine ⟨_, congrArg Host.Outcome.next ((exclLoad_gives haloft hfree hwin hup (.inr hown) st).trans
      (semGive_held hown addr len st)), ?_⟩
    obtain ⟨hsince, -, hopen, -, -, hregs⟩ := requestDrained_shows s c (.exclLoad addr len) addr len st
    exact ⟨(semOwner_of_regsSame (semOf_lt addr) hregs).trans hown, hsince, by rw [hopen]; exact SMap.find_set_same _ _ _⟩
  case loadWaits =>
    intro s c addr len f st haloft hfree hwin hup hzero hother
    exact congrArg Host.Outcome.next (exclLoad_waits haloft hfree hwin hup hzero hother st)
  case store =>
    intro s c addr d f st haloft hfree hwin hwrite hup hown hnone
    obtain ⟨hwait, hopen, hretry, -, hout⟩ := writeAndClose_shows hup addr d c.val
      (.exclStore (lastDw addr d.length)) (lastDw addr d.length) st
    refine ⟨_, congrArg Host.Outcome.next ((exclStore_writes haloft hfree hwin hwrite hup hown st).trans
      (semFree_idle (hwait.trans hnone) _)), ?_⟩
    refine ⟨semOwner_put (by decide) _, hout, ?_, hretry⟩
    refine (congrArg (SMap.find · c.val) hopen).trans ?_
    exact SMap.find_set_same _ _ _
  case storeHands =>
    intro s c addr d f w a l t0 st haloft hfree hwin hwrite hup hown hwaiter hw hwc
    obtain ⟨hwait, hopen, -, htime, hout⟩ := writeAndClose_shows hup addr d c.val
      (.exclStore (lastDw addr d.length)) (lastDw addr d.length) st
    refine ⟨_, congrArg Host.Outcome.next (exclStore_writes haloft hfree hwin hwrite hup hown st), ?_⟩
    obtain ⟨howner, hsince, hleft, hopens, houts, -⟩ := semFree_shows (semOf_lt addr) hw
      ((semWaiter_of_wait hwait _).trans hwaiter)
    refine ⟨howner, by rw [hsince, htime], by rw [hleft, hwait], ?_, houts _ hout, ?_⟩
    · rw [hopens]
      exact SMap.find_set_same _ _ _
    · rw [hopens, SMap.find_set_ne _ _ _ _ hwc.symm, hopen]
      exact SMap.find_set_same _ _ _
  case storeFails =>
    intro s c addr d f st haloft hfree hwin hwrite hother
    refine ⟨_, congrArg Host.Outcome.next (exclStore_fails haloft hfree hwin hwrite hother st), ?_⟩
    rw [answerGc_exclFailed]
    exact ⟨SMap.find_set_same _ _ _, rfl⟩
  case waitEnds =>
    intro s c a l i t0 st hwait hdue
    refine ⟨_, congrArg Host.Outcome.next (semWaitTimeout_due hwait hdue st), ?_⟩
    have hregs := requestRead_regsSame { s with host.semWait := s.host.semWait.del c.val } c.val (.exclLoad a l) a l st
    have hhost := requestRead_host { s with host.semWait := s.host.semWait.del c.val } c.val (.exclLoad a l) a l st
    have hout := requestRead_out { s with host.semWait := s.host.semWait.del c.val } c.val (.exclLoad a l) a l st
    have hbump (u : State) : (bump u Reg.brSemSemWaitFails).host = u.host := rfl
    have hio (u : State) : (bump u Reg.brSemSemWaitFails).io = u.io := rfl
    rw [hbump, hhost, hio, hout]
    refine ⟨SMap.find_del_same _ _, ?_, SMap.find_set_same _ _ _, fun hst => ?_, fun hst => ?_⟩
    · rw [get_bump_same, hregs _ (by decide)]
      rfl
    · have hsent := (sent_openRead { s with host.semWait := s.host.semWait.del c.val } c.val (.exclLoad a l) a l).1
      subst hst
      exact ⟨List.mem_cons_self, (hsent.mono (by simp)).bump (by simp)⟩
    · have hyield := regsSame_yieldRequest { s with host.semWait := s.host.semWait.del c.val } c.val (.exclLoad a l)
      subst hst
      exact ⟨SMap.find_set_same _ _ _, (hyield.mono (by simp)).bump (by simp)⟩
  case holdEnds =>
    intro s c i hheld hnone
    obtain ⟨hends, hi⟩ := semHoldTimeout_due hheld
    refine ⟨_, congrArg Host.Outcome.next (hends.trans (congrArg (bump · Reg.brSemSemTimeouts) (semFree_idle hnone i))), ?_⟩
    have hapart := semOwner_apart hi Reg.brSemSemTimeouts (by simp)
    refine ⟨?_, ?_, ((regsSame.refl s _).put (by simp) 0).bump (by simp)⟩
    · rw [semOwner, get_bump_ne _ _ _ hapart]
      exact semOwner_put (by decide) s
    · rw [get_bump_same, get_put_ne _ _ _ _ hapart.symm]
  case holdHands =>
    intro s c i w a l t0 hheld hwaiter hw
    obtain ⟨hends, hi⟩ := semHoldTimeout_due hheld
    refine ⟨_, congrArg Host.Outcome.next hends, ?_⟩
    obtain ⟨howner, hsince, hleft, hopens, -, hregs⟩ := semFree_shows hi hw hwaiter
    have hapart := semOwner_apart hi Reg.brSemSemTimeouts (by simp)
    refine ⟨?_, hsince, hleft, ?_, ?_⟩
    · rw [semOwner, get_bump_ne _ _ _ hapart]
      exact howner
    · refine (congrArg (SMap.find · w) hopens).trans ?_
      exact SMap.find_set_same _ _ _
    · rw [get_bump_same, hregs _ ?_]
      rw [List.all_cons, Bool.and_eq_true, bne_iff_ne]
      exact ⟨hapart.symm, by decide⟩
  case take =>
    intro s m i hm hacc hzero
    refine ⟨_, congrArg Host.Outcome.next (accessWrite_accepted _ _ _ _ hacc), ?_⟩
    rw [semTake_free hm hzero]
    refine ⟨?_, regsSame_answered ((regsSame.refl s _).put List.mem_cons_self _) _ _ _, ?_⟩
    · rw [semOwner, get_answered]
      exact semOwner_put (origin_bridge hm).2 s
    · rw [answered_bridge hm]
      rfl
  case release =>
    intro s m i hm hacc hown hnone
    refine ⟨_, congrArg Host.Outcome.next (accessWrite_accepted _ _ _ _ hacc), ?_⟩
    rw [semRelease_own hm hown, semFree_idle hnone]
    refine ⟨?_, regsSame_answered ((regsSame.refl s _).put List.mem_cons_self _) _ _ _, ?_⟩
    · rw [semOwner, get_answered]
      exact semOwner_put (by decide) s
    · rw [answered_bridge hm]
      rfl
  case releaseHands =>
    intro s m i c a l t0 hm hacc hown hwaiter hc
    refine ⟨_, congrArg Host.Outcome.next (accessWrite_accepted _ _ _ _ hacc), ?_⟩
    rw [semRelease_own hm hown]
    obtain ⟨howner, -, hleft, hopens, -⟩ := semFree_shows i.isLt hc hwaiter
    refine ⟨?_, ?_, ?_⟩
    · rw [semOwner, get_answered]
      exact howner
    · rw [answered_frame]
      refine (congrArg (SMap.find · c) hopens).trans ?_
      exact SMap.find_set_same _ _ _
    · rw [answered_frame]
      exact hleft
  case entry =>
    intro s m e hyields holdest
    refine ⟨_, congrArg Host.Outcome.next (accessRead_accepted _ _ _ _ hyields), ?_⟩
    have hsome : (s.host.ledger.find? fun e => e.origin == origin m).isSome = true := Option.isSome_of_eq_some holdest
    rw [ledgerTake_some holdest]
    refine ⟨answered_resp _ _ _ _, ?_, ?_, ?_⟩
    · rw [answered_frame]
    · rw [answered_frame]
      exact ledgerRemove_length hsome
    · rw [answered_frame]
  case none =>
    intro s m hyields holdest
    refine ⟨_, congrArg Host.Outcome.next (accessRead_accepted _ _ _ _ hyields), ?_⟩
    rw [ledgerTake_none holdest]
    exact ⟨answered_resp _ _ _ _, answered_frame _ _ _ _⟩

end Sys2Proof.Machine
end

section
/-!
The rings of the host and their completions (R336, R337, R339, R340).
-/
namespace Sys2Proof.Machine

/-! A ring's state. -/

@[simp] theorem ringOf_setRing (s : State) (r : Nat) (x : RingSt) : ringOf (setRing s r x) r = x := by
  rw [ringOf, setRing]
  exact congrArg (·.getD freshRing) (SMap.find_set_same _ _ _)

theorem ringOf_of_rings {s t : State} (h : t.host.rings = s.host.rings) (r : Nat) : ringOf t r = ringOf s r := by
  rw [ringOf, ringOf, h]

/-- The fields that enabling a ring writes. -/
def ringEnableFlds (r : Nat) : List Fld :=
  [Reg.ringCfgSizeLog2 r, Reg.ringCfgTs r, Reg.ringCfgEn r, Reg.ringHeadHead r, Reg.ringTail r, Reg.ringHeadStopped r]

/-- A ring's fields are told apart by their keys. -/
theorem ringEnableFlds_nodup (r : Nat) : ((ringEnableFlds r).map Fld.key).Nodup := by
  simp [ringEnableFlds, Fld.key, Reg.ringCfgSizeLog2, Reg.ringCfgTs, Reg.ringCfgEn, Reg.ringHeadHead, Reg.ringTail,
    Reg.ringHeadStopped]
  omega

theorem ringConfig_enable {s : State} {r w : Nat} (hoff : flag s (Reg.ringCfgEn r) = false) (hon : bitAt w 4 = true) :
    ringConfig s r w = setRing (put (put (put (putFlag (putFlag (put s (Reg.ringCfgSizeLog2 r) (bitsAt w 0 4))
      (Reg.ringCfgTs r) (bitAt w 5)) (Reg.ringCfgEn r) true) (Reg.ringHeadHead r) 0) (Reg.ringTail r) 0)
      (Reg.ringHeadStopped r) 0) r freshRing := by
  simp [ringConfig, hoff, hon]

theorem ringConfig_shows {s : State} {r w : Nat} (hoff : flag s (Reg.ringCfgEn r) = false) (hon : bitAt w 4 = true) :
    get (ringConfig s r w) (Reg.ringCfgEn r) = 1 ∧ get (ringConfig s r w) (Reg.ringHeadHead r) = 0 ∧
      get (ringConfig s r w) (Reg.ringTail r) = 0 ∧ get (ringConfig s r w) (Reg.ringHeadStopped r) = 0 ∧
      get (ringConfig s r w) (Reg.ringCfgSizeLog2 r) = bitsAt w 0 4 ∧ ringOf (ringConfig s r w) r = freshRing ∧
      regsSame s (ringConfig s r w) (ringEnableFlds r) ∧
      ∃ g, ringConfig s r w = setRing { s with regs := g } r freshRing := by
  have hdistinct := ringEnableFlds_nodup r
  simp only [ringEnableFlds, List.map_cons, List.map_nil, List.nodup_cons, List.mem_cons, not_or, ← ne_eq] at hdistinct
  have hsize : bitsAt w 0 4 % 2 ^ (Reg.ringCfgSizeLog2 r).width = bitsAt w 0 4 := Nat.mod_eq_of_lt (bitsAt_lt _ _ _)
  have hset (t : State) (x : RingSt) (f : Fld) : get (setRing t r x) f = get t f := rfl
  rw [ringConfig_enable hoff hon]
  refine ⟨?_, ?_, ?_, ?_, ?_, ringOf_setRing _ _ _, ?_, _, rfl⟩
  case refine_6 =>
    have hput := ((((((regsSame.refl s (ringEnableFlds r)).put (f := Reg.ringCfgSizeLog2 r) (by simp [ringEnableFlds]) (bitsAt w 0 4)).putFlag
      (f := Reg.ringCfgTs r) (by simp [ringEnableFlds]) (bitAt w 5)).putFlag
      (f := Reg.ringCfgEn r) (by simp [ringEnableFlds]) true).put
      (f := Reg.ringHeadHead r) (by simp [ringEnableFlds]) 0).put
      (f := Reg.ringTail r) (by simp [ringEnableFlds]) 0).put (f := Reg.ringHeadStopped r) (by simp [ringEnableFlds]) 0
    exact hput.congr rfl
  all_goals simp [hset, get_put_ne, get_putFlag_ne, hdistinct, hsize]
  rfl

/-! An entry consumed. -/

theorem consume_eq (s : State) (r : Nat) :
    ∃ v ph, consume s r = setRing (put s (Reg.ringHeadHead r) v) r { ringOf s r with phase := ph } ∨
      consume s r = put s (Reg.ringHeadHead r) v := by
  unfold consume
  dsimp only
  split
  · exact ⟨0, _, .inl rfl⟩
  · exact ⟨_, true, .inr rfl⟩

/-- The completion of a consumed descriptor waits last; HEAD and the ring's own state are all that changes. -/
theorem txConsume_shows (s : State) (r h : Nat) (d : List Byte) (status : Nat) (unit : Option Nat) :
    (ringOf (txConsume s r h d status unit) r).waiting =
        (ringOf s r).waiting ++ [⟨h, slice d 12 4, status, none, unit.isNone, unit⟩] ∧
      regsSame s (txConsume s r h d status unit) [Reg.ringHeadHead r] ∧
      ∃ g R, txConsume s r h d status unit = { s with regs := g, host.rings := R } := by
  have hhead (v : Nat) : regsSame s (put s (Reg.ringHeadHead r) v) [Reg.ringHeadHead r] :=
    (regsSame.refl s _).put List.mem_cons_self v
  have hput (v : Nat) : ringOf (put s (Reg.ringHeadHead r) v) r = ringOf s r := ringOf_of_rings rfl r
  unfold txConsume
  dsimp only
  obtain ⟨v, ph, hturn | hstep⟩ := consume_eq s r
  · rw [hturn, ringOf_setRing, ringOf_setRing]
    exact ⟨rfl, hhead v, _, _, rfl⟩
  · rw [hstep, ringOf_setRing, hput]
    exact ⟨rfl, hhead v, _, _, rfl⟩

/-! The end of a fetch (R339). -/

/-- No keep-awake filter of a port: reception lets every frame on, and finds nothing. -/
theorem receiveFrame_unfiltered {s : State} {p : Nat}
    (hnone : ((keepFilters s).all fun b => !(u8 b 1 == 2 && leAt b 2 2 == p)) = true) (hopen : ingressClosed s = false)
    (bs : List Byte) : receiveFrame s p bs = (none, s) := by
  have hfilters : (keepFilters s).filter (fun b => u8 b 1 == 2 && leAt b 2 2 == p) = [] := by
    refine List.filter_eq_nil_iff.2 fun b hb => ?_
    simpa [← not_and_or] using List.all_eq_true.1 hnone b hb
  simp [receiveFrame, hfilters, receiveUnit, noteHits, hopen]

theorem get_bump_ringFrames {f : Fld} (hbelow : f.key < 0x101000 * 32) (s : State) (r : Nat) :
    get (bump s (Reg.ringFrames r)) f = get s f := by
  refine get_bump_ne _ _ _ (Nat.ne_of_lt (hbelow.trans_le ?_))
  simp [Fld.key, Reg.ringFrames]
  omega

theorem ingressClosed_bump_ringFrames (s : State) (r : Nat) :
    ingressClosed (bump s (Reg.ringFrames r)) = ingressClosed s := by
  rw [ingressClosed, ingressClosed, descentPhase, descentPhase, get_bump_ringFrames (by decide)]

theorem keepFilters_bump_ringFrames (s : State) (r : Nat) : keepFilters (bump s (Reg.ringFrames r)) = keepFilters s := by
  have hslot : curSlot (bump s (Reg.ringFrames r)) = curSlot s := get_bump_ringFrames (by decide) s r
  rw [keepFilters, keepFilters, hslot]
  rfl

theorem get_addPacket (s : State) (pk : Packet) (f : Fld) : get (addPacket s pk) f = get s f := rfl

/-- A fetched frame as it enters P48: it waits for a time stamp where its descriptor asks for one. -/
def fetchedPacket (s : State) (d bytes : List Byte) : Packet :=
  { newPacket s 48 ⟨slice bytes 0 (leAt d 8 2), false, none, false, false, false⟩ none with
    tsReq := bitAt (leAt d 10 2) 0 }

theorem txFrame_enters {s : State} {d bytes : List Byte} (r h : Nat)
    (hplain : etypeAt (slice bytes 0 (leAt d 8 2)) 12 ≠ 0x8808) (hopen : ingressClosed s = false)
    (hnone : ((keepFilters s).all fun b => !(u8 b 1 == 2 && leAt b 2 2 == 48)) = true) :
    txFrame s r h d bytes = txConsume (addPacket (bump s (Reg.ringFrames r)) (fetchedPacket (bump s (Reg.ringFrames r)) d bytes))
      r h d (if bitAt (leAt d 10 2) 0 then 3 else 0) (if bitAt (leAt d 10 2) 0 then some s.net.nextUid else none) := by
  have hfree : receiveFrame (bump s (Reg.ringFrames r)) 48 (slice bytes 0 (leAt d 8 2)) = (none, bump s (Reg.ringFrames r)) :=
    receiveFrame_unfiltered (by rw [keepFilters_bump_ringFrames]; exact hnone) (by rw [ingressClosed_bump_ringFrames]; exact hopen) _
  unfold txFrame
  dsimp only
  rw [if_neg hplain, hfree]
  rfl

section
variable {s : State} {r h : Nat} (hfetching : s.host.fetching = some (r, h))
include hfetching

theorem txFetchDone_dropped (hserved : txServable s r = false) (res : FetchResult) :
    txFetchDone s res = { s with host.fetching := none } := by
  simp [txFetchDone, hfetching, hserved]

variable (hserved : txServable s r = true) (hhead : get s (Reg.ringHeadHead r) = h)
include hserved hhead

/-- A fetch that failed stops its ring, whose completion waits with status 2. -/
theorem txFetchDone_stops {res : FetchResult}
    (hres : res = .descError ∨ (res = .frameError ∧ txDescOk (headDesc s r) = true)) : txFetchDone s res =
      put (txConsume { s with host.fetching := none } r h (headDesc s r) 2 none) (Reg.ringHeadStopped r) 1 := by
  rcases hres with rfl | ⟨rfl, hok⟩
  · simp [txFetchDone, hfetching, hserved, hhead]
  · simp [txFetchDone, hfetching, hserved, hhead, hok]

theorem txFetchDone_frame (hok : txDescOk (headDesc s r) = true) (bytes : List Byte) : txFetchDone s (.frame bytes) =
    txFrame { s with host.fetching := none } r h (headDesc s r) bytes := by
  simp [txFetchDone, hfetching, hserved, hhead, hok]

theorem txFetchDone_badDesc (hbad : txDescOk (headDesc s r) = false) {res : FetchResult} (hres : res ≠ .descError) :
    txFetchDone s res =
      bump (txConsume { s with host.fetching := none } r h (headDesc s r) 1 none) (Reg.ringErrBadDesc r) := by
  cases res with
  | descError => exact absurd rfl hres
  | frame bytes => simp [txFetchDone, hfetching, hserved, hhead, hbad]
  | frameError => simp [txFetchDone, hfetching, hserved, hhead, hbad]

end

/-! The registers of a ring apart from HEAD. -/

theorem stopped_ne_head (r : Nat) : (Reg.ringHeadStopped r).key ≠ (Reg.ringHeadHead r).key := by
  simp [Fld.key, Reg.ringHeadStopped, Reg.ringHeadHead]

theorem frames_ne_head (r : Nat) : (Reg.ringFrames r).key ≠ (Reg.ringHeadHead r).key := by
  simp [Fld.key, Reg.ringFrames, Reg.ringHeadHead]

theorem badDesc_ne_head (r : Nat) : (Reg.ringErrBadDesc r).key ≠ (Reg.ringHeadHead r).key := by
  simp [Fld.key, Reg.ringErrBadDesc, Reg.ringHeadHead]
  omega

theorem all_ne_of_ne {g f : Fld} (h : g.key ≠ f.key) : ([f].all fun f => g.key != f.key) = true := by simpa using h

/-! Moderation. -/

theorem rings_vectorDue (s : State) (v : Nat) : (vectorDue s v).host.rings = s.host.rings := by
  rw [(notified_vectorDue s v).host]

theorem io_setRing (s : State) (r : Nat) (x : RingSt) : (setRing s r x).io = s.io := rfl

/-- Moderation counts in its ring, and the ring's vector may fall due. -/
theorem moderate_eq (s : State) (r : Nat) : ∃ t x, t.io = s.io ∧ x.waiting = (ringOf s r).waiting ∧
    (moderate s r = setRing t r x ∨ moderate s r = vectorDue (setRing t r x) r) := by
  unfold moderate
  dsimp only
  split
  · refine ⟨_, _, io_setRing s r _, ?_, .inr rfl⟩
    rw [ringOf_setRing]
  · exact ⟨s, { ringOf s r with unsignalled := (ringOf s r).unsignalled + 1, firstAt := some ((ringOf s r).firstAt.getD s.time.now) },
      rfl, rfl, .inl rfl⟩

/-- Moderation takes back no output and no waiting completion. -/
theorem moderate_keeps (s : State) (r : Nat) :
    s.io.out <:+ (moderate s r).io.out ∧ (ringOf (moderate s r) r).waiting = (ringOf s r).waiting := by
  obtain ⟨t, x, hio, hwaiting, hplain | hdue⟩ := moderate_eq s r
  · rw [hplain, ringOf_setRing, io_setRing, hio]
    exact ⟨List.suffix_refl _, hwaiting⟩
  · rw [hdue, ringOf_of_rings (rings_vectorDue _ _), ringOf_setRing, ← hio]
    exact ⟨out_vectorDue (setRing t r x) r, hwaiting⟩

theorem modTimer_due {s : State} {r t0 : Nat} (hfirst : (ringOf s r).firstAt = some t0)
    (htimer : get s (Reg.ringModModTimer r) ≠ 0)
    (hdue : t0 + min 1000 (get s (Reg.ringModModTimer r)) * 1000 ≤ s.time.now) : modTimer s r = ringVector s r := by
  have hset : min 1000 (get s (Reg.ringModModTimer r)) ≠ 0 := by omega
  simp [modTimer, hfirst, hset, hdue]

/-- The entry of a completion. -/
def completionEntry (s : State) (r : Nat) (w : TxWait) : List Byte :=
  leBytes 8 (txStatus w).2 ++ slice w.cookie 0 4 ++ leBytes 2 w.idx ++ leBytes 1 (txStatus w).1 ++
    leBytes 1 (128 * b2n (waitPhase s r w.idx))

theorem txCompletion_written {s : State} {r : Nat} {w : TxWait} {l : List TxWait} (hwaits : (ringOf s r).waiting = w :: l)
    (hup : p48Up s = true) (hready : w.ready = true) : txCompletion s r =
      moderate (writeCpl (setRing s r { ringOf s r with waiting := l }) r w.idx (completionEntry s r w)) r := by
  simp [txCompletion, hwaits, hup, hready, completionEntry]

theorem writeCpl_shows (s : State) (r idx : Nat) (entry : List Byte) :
    (writeCpl s r idx entry).host = s.host ∧
      Out.hostWrite (get s (Reg.ringCplBase r) + 16 * idx) entry ∈ (writeCpl s r idx entry).io.out := by
  obtain ⟨-, g, hsent⟩ := sent_sendToHost s (.hostWrite (get s (Reg.ringCplBase r) + 16 * idx) entry)
  rw [writeCpl, hsent]
  exact ⟨rfl, by simp⟩

/-- A completion that may be written leaves the ring and goes out. -/
theorem txCompletion_shows {s : State} {r : Nat} {w : TxWait} {l : List TxWait} (hwaits : (ringOf s r).waiting = w :: l)
    (hup : p48Up s = true) (hready : w.ready = true) : (ringOf (txCompletion s r) r).waiting = l ∧
      Out.hostWrite (get s (Reg.ringCplBase r) + 16 * w.idx) (completionEntry s r w) ∈ (txCompletion s r).io.out := by
  obtain ⟨hhost, hout⟩ := writeCpl_shows (setRing s r { ringOf s r with waiting := l }) r w.idx (completionEntry s r w)
  obtain ⟨hkept, hwaiting⟩ :=
    moderate_keeps (writeCpl (setRing s r { ringOf s r with waiting := l }) r w.idx (completionEntry s r w)) r
  rw [txCompletion_written hwaits hup hready]
  refine ⟨?_, hkept.mem hout⟩
  rw [hwaiting, ringOf_of_rings (congrArg HostSt.rings hhost), ringOf_setRing]

/-- Settles O23: each ring command takes its branch, and a consumed descriptor's completion waits last in its ring. -/
theorem ringsAndTheirCompletions : Obligations.RingsAndTheirCompletions := by
  unfold Obligations.RingsAndTheirCompletions
  refine ⟨?enable, ?tail, ?timer, ?fetch, ?yields, ?stops, ?frame, ?badDesc, ?dropped, ?completion⟩
  case enable =>
    intro s m r w hacc hoff hon
    obtain ⟨hen, hhead, htail, hstop, hsize, hring, hregs, g, hshape⟩ := ringConfig_shows hoff hon
    refine ⟨_, congrArg Host.Outcome.next (accessWrite_accepted s m _ (ringConfig · r w.toNat) hacc), ?_⟩
    simp only [get_answered]
    refine ⟨hen, hhead, htail, hstop, hsize, ?_, regsSame_answered hregs _ _ _, ?_⟩
    · rw [answered_frame]
      exact hring
    · rw [answered_frame, hshape]
      rfl
  case tail =>
    intro s m r w ds hacc hen
    have hposted : ringTailWrite s r w.toNat ds = put (setRing s r { ringOf s r with
        descs := postDescs (ringOf s r).descs (ringSize s r) (get s (Reg.ringTail r) % ringSize s r) ds })
        (Reg.ringTail r) (bitsAt w.toNat 0 16) := by
      simp [ringTailWrite, hen]
    refine ⟨_, congrArg Host.Outcome.next (accessWrite_accepted s m _ (ringTailWrite · r w.toNat ds) hacc), ?_⟩
    rw [get_answered, hposted]
    refine ⟨?_, ?_, regsSame_answered ?_ _ _ _⟩
    · exact (get_put_same _ _ _).trans (Nat.mod_eq_of_lt (bitsAt_lt _ _ _))
    · rw [answered_frame]
      exact congrArg RingSt.descs (ringOf_setRing s r _)
    · exact ((regsSame.refl s _).congr (u := setRing s r _) rfl).put List.mem_cons_self _
  case timer =>
    intro s r t0 hfirst htimer hdue hup hen hfree
    refine ⟨_, congrArg Host.Outcome.next ((modTimer_due hfirst htimer hdue).trans (vectorDue_sends
      (s := setRing s r { ringOf s r with unsignalled := 0, firstAt := none }) hup hen hfree)), ?_⟩
    rw [exitL1_eq]
    refine ⟨rfl, ?_, ?_⟩
    · exact congrArg RingSt.firstAt (ringOf_setRing s r _)
    · exact congrArg RingSt.unsignalled (ringOf_setRing s r _)
  case fetch =>
    intro s r left haloft hup hnone hopen hretry hnext hroom
    have hgoes : txFetch s false = startFetch s r left false := by
      simp [txFetch, fetchMay, haloft, hup, hnone, hopen, hretry, hnext]
    refine ⟨_, congrArg Host.Outcome.next hgoes, ?_⟩
    obtain ⟨l, hdesc, -, g, hsent⟩ := startFetch_sent left hroom hup
    rw [hsent]
    exact ⟨rfl, rfl, rfl, List.mem_append_left _ hdesc, rfl⟩
  case yields =>
    intro s r left hmay hretry hnext hroom
    have hyields : txFetch s true = bump { s with host.fetchRetry := some (r, s.time.now) } Reg.brRetriesStalemateRetries := by
      simp [txFetch, hmay, hretry, hnext, startFetch, hroom]
    refine ⟨_, congrArg Host.Outcome.next hyields, rfl, ?_, get_bump_same _ _, rfl⟩
    simp only [fetchMay, Bool.and_eq_true, Option.isNone_iff_eq_none] at hmay
    exact hmay.1.2
  case stops =>
    intro s r h res hr hfetching hserved hhead hres
    refine ⟨_, congrArg Host.Outcome.next (txFetchDone_stops hfetching hserved hhead hres), ?_⟩
    obtain ⟨hwaiting, hregs, g, R, hshape⟩ := txConsume_shows { s with host.fetching := none } r h (headDesc s r) 2 none
    refine ⟨?_, get_put_same _ _ _, ?_, (hregs.mono (by simp)).put (by simp) 1⟩
    · rw [put_host, hshape]
    · rw [ringOf_of_rings (congrArg HostSt.rings (put_host _ _ _)), hwaiting]
      rfl
  case frame =>
    intro s r h bytes hr hfetching hserved hhead hok hplain hopen hnone
    refine ⟨_, congrArg Host.Outcome.next ((txFetchDone_frame hfetching hserved hhead hok bytes).trans
      (txFrame_enters (s := { s with host.fetching := none }) r h hplain hopen hnone)), ?_⟩
    obtain ⟨huid, hpacket, -⟩ := addPacket_enters (s := s) (r := bump { s with host.fetching := none } (Reg.ringFrames r)) rfl
      (fetchedPacket (bump { s with host.fetching := none } (Reg.ringFrames r)) (headDesc s r) bytes)
    obtain ⟨hwaiting, hregs, g, R, hshape⟩ := txConsume_shows
      (addPacket (bump { s with host.fetching := none } (Reg.ringFrames r))
        (fetchedPacket (bump { s with host.fetching := none } (Reg.ringFrames r)) (headDesc s r) bytes)) r h (headDesc s r)
      (if bitAt (leAt (headDesc s r) 10 2) 0 then 3 else 0)
      (if bitAt (leAt (headDesc s r) 10 2) 0 then some s.net.nextUid else none)
    refine ⟨?_, ⟨fetchedPacket (bump { s with host.fetching := none } (Reg.ringFrames r)) (headDesc s r) bytes, ?_, rfl, rfl,
      rfl, rfl⟩, ?_, fun hstamp => ?_, fun hstamp => ?_, ?_, ?_, ?_⟩
    · rw [hshape]
      rfl
    · rw [hshape]
      exact hpacket
    · rw [hshape]
      exact huid
    · rw [hstamp] at hwaiting ⊢
      exact hwaiting
    · rw [hstamp] at hwaiting ⊢
      exact hwaiting
    · rw [hregs _ (all_ne_of_ne (frames_ne_head r)), get_addPacket, get_bump_same]
      rfl
    · intro f hf
      have hframes := keys_of_all hf (f := Reg.ringFrames r) (by simp)
      have hhead := keys_of_all hf (f := Reg.ringHeadHead r) (by simp)
      rw [hregs f (all_ne_of_ne hhead), get_addPacket, get_bump_ne _ _ _ hframes]
      rfl
    · rw [hshape]
      rfl
  case badDesc =>
    intro s r h res hr hfetching hserved hhead hbad hres
    refine ⟨_, congrArg Host.Outcome.next (txFetchDone_badDesc hfetching hserved hhead hbad hres), ?_⟩
    obtain ⟨hwaiting, hregs, g, R, hshape⟩ := txConsume_shows { s with host.fetching := none } r h (headDesc s r) 1 none
    refine ⟨?_, ?_, ?_, (hregs.mono (by simp)).bump (by simp), ?_⟩
    · rw [bump_host, hshape]
    · rw [ringOf_of_rings (congrArg HostSt.rings (bump_host _ _)), hwaiting]
      rfl
    · rw [get_bump_same, hregs _ (all_ne_of_ne (badDesc_ne_head r))]
      rfl
    · rw [bump_net, hshape]
  case dropped =>
    intro s r h res hfetching hserved
    exact congrArg Host.Outcome.next (txFetchDone_dropped hfetching hserved res)
  case completion =>
    intro s r w l hwaits hup hready
    exact ⟨_, rfl, txCompletion_shows hwaits hup hready⟩

end Sys2Proof.Machine
end

section
/-!
Image operations (R389, R390), and the digest among the bulk jobs (R258, R259).
-/
namespace Sys2Proof.Machine

/-! The flash of a slot. -/

/-- The flash of a slot replaced; PREFER as shown follows it. -/
def slotFlash (s : State) (b : Bool) (m : Mem) : State :=
  if b then { s with mem.flashB := m } else { s with mem.flashA := m }

theorem setSlotMem_eq (s : State) (b : Bool) (m : Mem) :
    setSlotMem s b m = put (put (slotFlash s b m) Reg.imgPreferA (preferOf (slotFlash s b m) false)) Reg.imgPreferB
      (preferOf (slotFlash s b m) true) := rfl

@[simp] theorem slotMem_setSlotMem_same (s : State) (b : Bool) (m : Mem) : slotMem (setSlotMem s b m) b = m := by
  rw [setSlotMem_eq, slotMem, put_mem, put_mem]
  cases b <;> rfl

@[simp] theorem slotMem_setSlotMem_not (s : State) (b : Bool) (m : Mem) :
    slotMem (setSlotMem s b m) (!b) = slotMem s (!b) := by
  rw [setSlotMem_eq, slotMem, put_mem, put_mem]
  cases b <;> rfl

theorem regsSame_setSlotMem (s : State) (b : Bool) (m : Mem) :
    regsSame s (setSlotMem s b m) [Reg.imgPreferA, Reg.imgPreferB] := by
  have hflash : regsSame s (slotFlash s b m) [Reg.imgPreferA, Reg.imgPreferB] := by
    cases b <;> exact .refl s _
  rw [setSlotMem_eq]
  exact (hflash.put List.mem_cons_self _).put (by simp) _

/-! Operations that start and end. -/

theorem get_imgDone_state (s : State) (r : Nat) : get (imgDone s r) Reg.imgStatusState = 2 := by
  rw [imgDone, get_put_ne _ _ _ _ (by decide)]
  exact get_put_same _ _ _

theorem get_imgDone_result {r : Nat} (hr : r < 16) (s : State) : get (imgDone s r) Reg.imgStatusResult = r :=
  (get_put_same _ _ _).trans (Nat.mod_eq_of_lt hr)

theorem regsSame_imgDone (s : State) (r : Nat) : regsSame s (imgDone s r) [Reg.imgStatusState, Reg.imgStatusResult] := by
  have hop : regsSame s { s with img.op := none } [Reg.imgStatusState, Reg.imgStatusResult] := .refl s _
  exact (hop.put List.mem_cons_self 2).put (by simp) r

theorem regsSame_imgStart (s : State) (op dst : Nat) (bs : List Byte) :
    regsSame s (imgStart s op dst bs) [Reg.imgStatusState] := by
  have hop : regsSame s { s with img.op := some (op, dst, bs) } [Reg.imgStatusState] := .refl s _
  exact hop.put List.mem_cons_self 1

theorem slotMem_imgDone (s : State) (r : Nat) (b : Bool) : slotMem (imgDone s r) b = slotMem s b := rfl

theorem exists_imgBank {m : Master} (hm : m ≠ .dbg) : ∃ b, imgBank m = some b := by
  cases m with
  | dbg => exact absurd rfl hm
  | _ => exact ⟨_, rfl⟩

section
variable {s : State} {m : Master}

theorem imgCtl_busy (hm : m ≠ .dbg) (hstate : get s Reg.imgStatusState = 1) (hphase : castPhase s = 0) {op : Nat}
    (hop : inR op 1 6 = true) : imgCtl s m op = put s Reg.imgStatusResult 2 := by
  obtain ⟨b, hb⟩ := exists_imgBank hm
  simp [imgCtl, hb, hstate, hphase, hop]

variable {b : Nat} (hb : imgBank m = some b) (hstate : get s Reg.imgStatusState ≠ 1) (hphase : castPhase s = 0)
include hb hstate hphase

theorem imgCtl_erase : imgCtl s m 1 = put (imgStart s 1 0 []) Reg.imgStatusVerified 0 := by
  simp [imgCtl, hb, hstate, hphase]

theorem imgCtl_write : imgCtl s m 2 = imgWriteGo s b := by simp [imgCtl, hb, hstate, hphase]

theorem imgCtl_verify : imgCtl s m 3 = digestStart (imgStart s 3 0 []) := by simp [imgCtl, hb, hstate, hphase]

theorem imgCtl_castle : imgCtl s m 4 = if castleMay s then castleGo s else imgDone s 12 := by
  simp [imgCtl, hb, hstate, hphase]

theorem imgCtl_recover (hbank : b = 0 ∨ b = 5) :
    imgCtl s m 6 = put { s with img.recoverDue := true } Reg.imgStatusState 1 := by
  simp [imgCtl, hb, hstate, hphase, hbank]

end

/-- A range that may be programmed but is not erased answers 4, an erased one is written from Bank H. -/
theorem imgWriteGo_range {s : State} {b : Nat} (hb : b ≠ 0) (hsrc : get s (Reg.imgSrc b) % 256 = 0)
    (hrange : rangeOk256 (get s (Reg.imgDst b)) (get s (Reg.imgLen b)) = true)
    (hregion : ∃ r ∈ regions s, r.1 ≤ get s (Reg.imgSrc b) ∧ get s (Reg.imgSrc b) + get s (Reg.imgLen b) ≤ r.1 + r.2.1 ∧
      bitAt r.2.2.2 (if b = 5 then 0 else 2) = true ∧ bitAt r.2.2.1 2 = true)
    (hmark : bankHMarked s (get s (Reg.imgSrc b)) (get s (Reg.imgLen b)) = false) : imgWriteGo s b =
      if isErased s (inactiveB s) (get s (Reg.imgDst b)) (get s (Reg.imgLen b)) then
        put (imgStart s 2 (get s (Reg.imgDst b)) (bankHBytes s (get s (Reg.imgSrc b)) (get s (Reg.imgLen b))))
          Reg.imgStatusVerified 0
      else imgDone s 4 := by
  have hany : ((regions s).any fun r => r.1 ≤ get s (Reg.imgSrc b) &&
      get s (Reg.imgSrc b) + get s (Reg.imgLen b) ≤ r.1 + r.2.1 && bitAt r.2.2.2 (if b = 5 then 0 else 2) &&
      bitAt r.2.2.1 2) = true := by
    obtain ⟨r, hr, hlo, hhi, hmaster, hperm⟩ := hregion
    exact List.any_eq_true.2 ⟨r, hr, by simp [hlo, hhi, hmaster, hperm]⟩
  unfold imgWriteGo
  dsimp only
  rw [if_neg hb, if_neg (by simp [hrange, hsrc]), if_neg (by simp [hany]), if_neg (by simp [hmark])]
  cases isErased s (inactiveB s) (get s (Reg.imgDst b)) (get s (Reg.imgLen b)) <;> rfl

theorem slotMem_inUse (s : State) (m : Mem) {u : State} :
    slotMem (setSlotMem u (inactiveB s) m) s.boot.slotB = slotMem u s.boot.slotB := by
  have hother : s.boot.slotB = !inactiveB s := (Bool.not_not _).symm
  rw [hother, slotMem_setSlotMem_not]

/-- The fields an operation that has replaced a slot may have changed. -/
theorem regsSame_slotDone {s t : State} (h : regsSame s t [Reg.imgPreferA, Reg.imgPreferB]) {r : Nat} :
    regsSame s (imgDone t r) [Reg.imgStatusState, Reg.imgStatusResult, Reg.imgPreferA, Reg.imgPreferB] :=
  fun f hf => by
    simp only [List.all_cons, Bool.and_eq_true] at hf
    obtain ⟨hstate, hresult, hprefer⟩ := hf
    rw [regsSame_imgDone t r f (by simp only [List.all_cons, hstate, hresult]; rfl), h f (by simpa using hprefer)]

/-! The digest's job. -/

theorem mcjRun_eq (s : State) (b : Nat) : ∃ g, mcjRun s b = { s with regs := g } := by
  unfold mcjRun
  dsimp only
  split <;> exact ⟨_, rfl⟩

theorem mcjServe_eq (s : State) : ∃ g, mcjServe s = { s with regs := g } := by
  unfold mcjServe forIdx
  generalize List.range 6 = l
  induction l generalizing s with
  | nil => exact ⟨s.regs, rfl⟩
  | cons _ l ih =>
    rw [List.foldl_cons]
    dsimp only
    split
    case h_1 e _ =>
      obtain ⟨g, hg⟩ := mcjRun_eq s e.1
      rw [hg]
      exact ih _
    case h_2 => exact ih s

theorem digestStart_eq (s : State) : ∃ g j, digestStart s = { s with
    regs := g, vault.mcj := s.vault.mcj.set digestJob j } := by
  obtain ⟨g, hg⟩ := mcjServe_eq (put { s with vault.mcj := s.vault.mcj.set digestJob ⟨7, 0, 0, 0, 0, [], s.time.now⟩ }
    (Reg.mcjStatusState digestJob) 1)
  exact ⟨g, _, hg⟩

theorem digestEnd_eq (s : State) : ∃ g, digestEnd s = { s with regs := g, vault.mcj := s.vault.mcj.del digestJob } := by
  unfold digestEnd
  dsimp only
  split
  · obtain ⟨g, hg⟩ := mcjServe_eq _
    exact ⟨g, hg⟩
  · obtain ⟨g, hg⟩ := mcjServe_eq _
    exact ⟨g, hg⟩

section
variable {f : Fld} (hsuspended : f.key ≠ Reg.macStatusSuspended.key) (hstate : ∀ b, f.key ≠ (Reg.mcjStatusState b).key)
include hsuspended hstate

theorem get_digestStart (s : State) : get (digestStart s) f = get s f := by
  rw [digestStart, get_mcjServe_ne hsuspended hstate, get_put_ne _ _ _ _ (hstate _)]
  rfl

theorem get_digestEnd (s : State) : get (digestEnd s) f = get s f := by
  unfold digestEnd
  dsimp only
  rw [get_mcjServe_ne hsuspended hstate, get_put_ne _ _ _ _ (hstate _)]
  split
  · exact get_put_ne _ _ _ _ hsuspended
  · rfl

end

/-- The image registers are none of the jobs'. -/
theorem img_ne_mcjState {f : Fld} (hf : f.key / 32 % 2 ^ 24 ≠ 0xc018c) (b : Nat) :
    f.key ≠ (Reg.mcjStatusState b).key := by
  rintro h
  refine hf ?_
  rw [h]
  simp [Fld.key, Reg.mcjStatusState]

/-! Verification. -/

/-- What a slot fails on is one of the results 6 to 10 (R389). -/
theorem verifySlot_error {s : State} {b compat : Bool} {c : Nat × Option Nat} (h : verifySlot s b compat = .error c) :
    6 ≤ c.1 ∧ c.1 ≤ 10 := by
  have hcode {n : Nat} {l : Option Nat} (hn : 6 ≤ n ∧ n ≤ 10) (he : Except.error (n, l) = (.error c : Except _ Loaded)) :
      6 ≤ c.1 ∧ c.1 ≤ 10 := by
    cases he
    exact hn
  unfold verifySlot at h
  dsimp only at h
  split at h
  · exact hcode (by omega) h
  · split at h
    · exact hcode (by decide) h
    · split at h
      · exact hcode (by decide) h
      · split at h
        · exact hcode (by decide) h
        · split at h
          · exact hcode (by decide) h
          · split at h
            · exact hcode (by decide) h
            · exact absurd h (by simp)

/-- What a verdict leaves: the result, LOAD_RESULT and a free draw. -/
theorem verdict_eq (s : State) (r : Except (Nat × Option Nat) Loaded) : ∃ n g, verdict s r = (n,
    { s with regs := g, freeCtr := s.freeCtr + 1 }) ∧ (∀ l, r = .ok l → n = 1) ∧ (∀ c, r = .error c → n = c.1) := by
  match r with
  | .ok l => exact ⟨1, _, rfl, fun _ _ => rfl, fun _ h => (nomatch h)⟩
  | .error (c, some l) => exact ⟨c, _, rfl, fun _ h => (nomatch h), fun _ h => congrArg Prod.fst (Except.error.inj h)⟩
  | .error (c, none) => exact ⟨c, _, rfl, fun _ h => (nomatch h), fun _ h => congrArg Prod.fst (Except.error.inj h)⟩

/-- Settles O51: an operation starts where none runs, and its end touches the inactive slot alone. -/
theorem imageOperationsActOnTheInactiveSlot : Obligations.ImageOperationsActOnTheInactiveSlot := by
  unfold Obligations.ImageOperationsActOnTheInactiveSlot
  refine ⟨?busy, ?erase, ?erased, ?badRange, ?write, ?written, ?verify, ?verified, ?recover⟩
  case busy =>
    intro s m hacc hm hstate hphase
    refine ⟨_, congrArg Host.Outcome.next (accessWrite_accepted s m _ (imgCtl · m 1) hacc), ?_⟩
    rw [imgCtl_busy hm hstate hphase (by decide)]
    refine ⟨?_, regsSame_answered ((regsSame.refl s _).put List.mem_cons_self 2) _ _ _, ?_, ?_⟩
    · rw [get_answered]
      exact get_put_same _ _ _
    · rw [answered_frame, put_img]
    · rw [answered_frame, put_mem]
  case erase =>
    intro s m hacc hm hstate hphase
    obtain ⟨b, hb⟩ := exists_imgBank hm
    refine ⟨_, congrArg Host.Outcome.next (accessWrite_accepted s m _ (imgCtl · m 1) hacc), ?_⟩
    rw [imgCtl_erase hb hstate hphase]
    refine ⟨?_, ?_, ?_, regsSame_answered ?_ _ _ _, ?_⟩
    · rw [answered_frame, put_img]
      rfl
    · rw [get_answered, get_put_ne _ _ _ _ (by decide)]
      exact get_put_same _ _ _
    · rw [get_answered]
      exact get_put_same _ _ _
    · exact ((regsSame_imgStart s 1 0 []).mono (by simp)).put (by simp) 0
    · rw [answered_undebugged hm]
      rfl
  case erased =>
    intro s n bs haloft hop
    have hdone : imgEraseDone s = imgDone (eraseSlot s (inactiveB s)) 1 := by
      simp [imgEraseDone, hop, haloft]
    refine ⟨_, congrArg Host.Outcome.next hdone, ?_, ?_, rfl, get_imgDone_state _ _, get_imgDone_result (by decide) _, ?_⟩
    · rw [slotMem_imgDone, eraseSlot, slotMem_setSlotMem_same]
    · rw [slotMem_imgDone, eraseSlot, slotMem_inUse]
      rfl
    · have hspoiled : regsSame s { s with img.spoiled := s.img.spoiled.filter (· ≠ inactiveB s) }
          [Reg.imgPreferA, Reg.imgPreferB] := .refl s _
      exact regsSame_slotDone fun f hf => (regsSame_setSlotMem _ (inactiveB s) [] f hf).trans (hspoiled f hf)
  case badRange =>
    intro s m b hacc hb hb0 hstate hphase hrange
    have hrefused : imgCtl s m 2 = imgDone s 5 := by
      simp [imgCtl_write hb hstate hphase, imgWriteGo, hb0, hrange]
    refine ⟨_, congrArg Host.Outcome.next (accessWrite_accepted s m _ (imgCtl · m 2) hacc), ?_⟩
    rw [hrefused, get_answered, get_answered]
    refine ⟨get_imgDone_state _ _, get_imgDone_result (by decide) _, regsSame_answered (regsSame_imgDone s 5) _ _ _, ?_⟩
    rw [answered_frame]
    rfl
  case write =>
    intro s m b hacc hb hb0 hstate hphase hsrc hrange hregion hmark
    refine ⟨_, congrArg Host.Outcome.next (accessWrite_accepted s m _ (imgCtl · m 2) hacc), ?_⟩
    rw [imgCtl_write hb hstate hphase, imgWriteGo_range hb0 hsrc hrange hregion hmark]
    refine ⟨fun herased => ?_, fun herased => ?_⟩
    · rw [herased, if_neg Bool.false_ne_true, get_answered, answered_frame]
      exact ⟨get_imgDone_result (by decide) s, rfl⟩
    · rw [herased, if_pos rfl, get_answered, get_answered, answered_frame]
      refine ⟨rfl, ?_, get_put_same _ _ _⟩
      rw [get_put_ne _ _ _ _ (by decide)]
      exact get_put_same _ _ _
  case written =>
    intro s dst bs haloft hop
    have hdone : imgWriteDone s = imgDone (programSlot s (inactiveB s) dst bs) 1 := by
      simp [imgWriteDone, hop, haloft]
    refine ⟨_, congrArg Host.Outcome.next hdone, ?_, ?_, rfl, get_imgDone_state _ _, get_imgDone_result (by decide) _, ?_⟩
    · rw [slotMem_imgDone, programSlot, slotMem_setSlotMem_same]
    · rw [slotMem_imgDone, programSlot, slotMem_inUse]
    · exact regsSame_slotDone (regsSame_setSlotMem s (inactiveB s) _)
  case verify =>
    intro s m hacc hm hstate hphase
    obtain ⟨b, hb⟩ := exists_imgBank hm
    obtain ⟨g, j, hdigest⟩ := digestStart_eq (imgStart s 3 0 [])
    have hget : get (digestStart (imgStart s 3 0 [])) Reg.imgStatusState = 1 := by
      rw [get_digestStart (by decide) (img_ne_mcjState (by decide))]
      exact get_put_same _ _ _
    refine ⟨_, congrArg Host.Outcome.next (accessWrite_accepted s m _ (imgCtl · m 3) hacc), ?_⟩
    rw [imgCtl_verify hb hstate hphase]
    refine ⟨?_, ?_, ?_, ?_⟩
    · rw [answered_frame, hdigest]
      rfl
    · rw [get_answered, hget]
    · rw [answered_frame, hdigest]
      exact congrArg Option.isSome (SMap.find_set_same _ _ _)
    · rw [answered_undebugged hm, hdigest]
      rfl
  case verified =>
    intro s n bs haloft hop hmay
    obtain ⟨r, g, hverdict, hok, herror⟩ := verdict_eq (digestEnd s) (verifySlot s (inactiveB s) true)
    obtain ⟨g', hend⟩ := digestEnd_eq s
    have hdone : imgVerifyDone s = putFlag (imgDone { digestEnd s with regs := g, freeCtr := (digestEnd s).freeCtr + 1 } r)
        Reg.imgStatusVerified (r == 1) := by
      simp [imgVerifyDone, hop, haloft, hmay, hverdict]
    refine ⟨_, congrArg Host.Outcome.next hdone, rfl, ?_, ?_, fun l hl => ?_, fun c hc => ?_⟩
    · rw [get_putFlag_ne _ _ _ _ (by decide), get_imgDone_state]
    · rw [hend]
      rfl
    · rw [get_putFlag_ne _ _ _ _ (by decide), get_putFlag_same, hok l hl]
      exact ⟨get_imgDone_result (by decide) _, rfl⟩
    · have hbounds := verifySlot_error hc
      have hfails : (c.1 == 1) = false := by
        rw [beq_eq_false_iff_ne]
        omega
      rw [get_putFlag_ne _ _ _ _ (by decide), get_putFlag_same, herror c hc, hfails]
      exact ⟨get_imgDone_result (by omega) _, hbounds.1, hbounds.2, rfl⟩
  case recover =>
    intro s m hacc hm hstate hphase
    have hbank : ∃ b, imgBank m = some b ∧ (b = 0 ∨ b = 5) := by
      rcases hm with rfl | rfl | rfl
      · exact ⟨0, rfl, .inl rfl⟩
      · exact ⟨5, rfl, .inr rfl⟩
      · exact ⟨5, rfl, .inr rfl⟩
    obtain ⟨b, hb, hbank⟩ := hbank
    have hset : regsSame s { s with img.recoverDue := true } [Reg.imgStatusState] := .refl s _
    refine ⟨_, congrArg Host.Outcome.next (accessWrite_accepted s m _ (imgCtl · m 6) hacc), ?_⟩
    rw [imgCtl_recover hb hstate hphase hbank]
    refine ⟨?_, ?_, regsSame_answered (hset.put List.mem_cons_self 1) _ _ _, ?_⟩
    · rw [answered_frame]
      rfl
    · rw [get_answered]
      exact get_put_same _ _ _
    · rw [answered_undebugged (by rintro rfl; simp at hm)]
      rfl

end Sys2Proof.Machine
end

section
/-!
Castling (R392, R395, R396).
-/
namespace Sys2Proof.Machine

/-! Registers below 0x2000, the image registers among them. -/

def imgSame (s t : State) : Prop := ∀ f : Fld, f.key < 0x2000 * 32 → get t f = get s f

theorem imgSame.trans {s t u : State} (h : imgSame s t) (k : imgSame t u) : imgSame s u :=
  fun f hf => (k f hf).trans (h f hf)

theorem imgSame.of_regs {s t : State} (h : t.regs = s.regs) : imgSame s t := fun f _ => get_congr _ _ f h

theorem imgSame.of_regsSame {s t : State} {l : List Fld} (h : regsSame s t l) (hl : ∀ f ∈ l, 0x2000 * 32 ≤ f.key) :
    imgSame s t := fun f hf => h f <| List.all_eq_true.2 fun g hg => by
  have hg := hl g hg
  simp only [bne_iff_ne, ne_eq]
  omega

theorem imgSame.put {s t : State} (h : imgSame s t) {f : Fld} (hf : 0x2000 * 32 ≤ f.key) (v : Nat) :
    imgSame s (put t f v) := fun g hg => (get_put_ne _ _ _ _ (by omega)).trans (h g hg)

theorem imgSame.bump {s t : State} (h : imgSame s t) {f : Fld} (hf : 0x2000 * 32 ≤ f.key) :
    imgSame s (bump t f) := fun g hg => (get_bump_ne _ _ _ (by omega)).trans (h g hg)

theorem imgSame_raiseTo {s t : State} (h : imgSame s t) {f : Fld} (hf : 0x2000 * 32 ≤ f.key) (v : Nat) :
    imgSame s (raiseTo t f v) := by
  unfold raiseTo
  split
  · exact h.put hf _
  · exact h

theorem imgSame_dropSlot (s : State) (slot : Nat) : imgSame s (dropSlot s slot) := by
  refine .of_regsSame (dropSlot_regsSame s slot) ?_
  have hage : 0x2000 * 32 ≤ (Reg.inflightDrainAge slot).key := by
    simp only [Fld.key, Reg.inflightDrainAge]
    omega
  have hstorage : ∀ f ∈ storageFlds, 0x2000 * 32 ≤ f.key := by decide
  simp only [List.cons_append, List.nil_append, List.forall_mem_cons]
  exact ⟨by decide, hage, hstorage⟩

theorem imgSame_commitIdle (s : State) : imgSame s (commitIdle s) := by
  have hidle : imgSame s (put s Reg.commitStatusState 0) := imgSame.put (.of_regs rfl) (by decide) 0
  unfold commitIdle
  dsimp only
  split
  · exact hidle.trans (.of_regs rfl)
  · exact ((hidle.put (f := Reg.stageStatusLocked) (by decide) 0).put (f := Reg.stageStatusOwner) (by decide) 0).trans
      (.of_regs rfl)

theorem imgSame_commitResult (s : State) (r : Nat) : imgSame s (commitResult s r) := by
  have hshown : imgSame s (put s Reg.commitStatusResult r) := imgSame.put (.of_regs rfl) (by decide) r
  unfold commitResult
  dsimp only
  split
  · exact hshown
  · refine hshown.trans fun f hf => get_raiseSource_ne _ _ _ (List.all_eq_true.2 fun g hg => ?_)
    have hraise : ∀ g ∈ raiseFields 16, 0x2000 * 32 ≤ g.key := by decide
    have hg := hraise g hg
    simp only [bne_iff_ne, ne_eq]
    omega

theorem imgSame_commitFail (s : State) (result item detail : Nat) : imgSame s (commitFail s result item detail) := by
  unfold commitFail
  extract_lets st s1 s2 s3
  have h1 : imgSame s s1 := by
    dsimp only [s1]
    split
    · exact imgSame_dropSlot s _
    · split
      · exact imgSame_raiseTo (.of_regs rfl) (by decide) _
      · exact .of_regs rfl
  have h2 : imgSame s s2 := (h1.put (by decide) item).put (by decide) detail
  have hcounted : imgSame s (bump (commitIdle s2) Reg.commitStatsFails) :=
    (h2.trans (imgSame_commitIdle s2)).bump (by decide)
  have h3 : imgSame s s3 := hcounted.trans (imgSame_commitResult _ result)
  split
  · exact h3.trans (.of_regs rfl)
  · exact h3

theorem mcjState_high (b : Nat) : 0x2000 * 32 ≤ (Reg.mcjStatusState b).key := by
  simp only [Fld.key, Reg.mcjStatusState]
  omega

theorem dropDigest_eq (s : State) : ∃ g k, dropDigest s = { s with regs := g, vault.mcj := k } := by
  unfold dropDigest
  split
  · obtain ⟨g, h⟩ := digestEnd_eq s
    exact ⟨g, _, h⟩
  · exact ⟨s.regs, s.vault.mcj, rfl⟩

theorem imgSame_dropDigest (s : State) : imgSame s (dropDigest s) := by
  unfold dropDigest
  split
  · exact fun f hf => get_digestEnd (by have : 0x2000 * 32 ≤ Reg.macStatusSuspended.key := by decide
                                        omega) (fun b => by have := mcjState_high b; omega) s
  · exact .of_regs rfl

/-! The end of a castling that is abandoned. -/

/-- The state in which an abandoned castling ends: its digest, its jobs and its commit given up. -/
def givenUp (s : State) : State :=
  if get s Reg.commitStatusState = 0 then stopPartners (dropDigest s)
  else commitFail (stopPartners (dropDigest s)) 9 0 0

theorem imgSame_givenUp (s : State) : imgSame s (givenUp s) := by
  have hstopped : imgSame s (stopPartners (dropDigest s)) := (imgSame_dropDigest s).trans (.of_regs rfl)
  unfold givenUp
  split
  · exact hstopped
  · exact hstopped.trans (imgSame_commitFail _ 9 0 0)

theorem abandon_eq (s : State) (r : Nat) : abandon s r = castlingEntry (bump { castIdle (givenUp s) r with
    img.abandonAt := some (tempoNo s) } Reg.imgStatsAbandoned) s.boot.slotB r := rfl

theorem castlingEntry_eq (s : State) (old : Bool) (r : Nat) : ∃ body, castlingEntry s old r = journal s 0x0003 body :=
  ⟨_, rfl⟩

theorem get_castIdle (s : State) {r : Nat} (hr : r < 16) :
    get (castIdle s r) Reg.imgStatusPhase = 0 ∧ get (castIdle s r) Reg.imgStatusState = 2 ∧
      get (castIdle s r) Reg.imgStatusResult = r := by
  refine ⟨?_, get_imgDone_state _ _, get_imgDone_result hr _⟩
  rw [castIdle, regsSame_imgDone _ _ _ (by decide)]
  exact get_put_same _ _ _

theorem get_castIdle_abandoned (s : State) (r : Nat) :
    get (castIdle s r) Reg.imgStatsAbandoned = get s Reg.imgStatsAbandoned := by
  rw [castIdle, regsSame_imgDone _ _ _ (by decide), get_put_ne _ _ _ _ (by decide)]
  rfl

theorem castIdle_handover (s : State) (r : Nat) : (castIdle s r).env.handover = false := rfl

/-- What the end of a castling may change. -/
def abandonParts : List Part :=
  [.registers, .accum, .jobs, .policy, .epochs, .intc, .host, .img, .vault, .fuses, .sheet, .tables, .io]

theorem abandon_changes (s : State) (r : Nat) : changesOnly abandonParts s (abandon s r) :=
  changesOnly_of_kept (@kept_abandon abandonParts (has_of rfl) (has_of rfl) (has_of rfl) (has_of rfl) (has_of rfl)
    (has_of rfl) (has_of rfl) (has_of rfl) (has_of rfl) (has_of rfl) (has_of rfl) (has_of rfl) (has_of rfl) s r)

/-- An abandoned castling is idle, shows why, and counts; the memories and the start-up stand. -/
theorem abandon_shows (s : State) {r : Nat} (hr : r < 16) :
    get (abandon s r) Reg.imgStatusPhase = 0 ∧ get (abandon s r) Reg.imgStatusState = 2 ∧
      get (abandon s r) Reg.imgStatusResult = r ∧ (abandon s r).env.handover = false ∧ (abandon s r).mem = s.mem ∧
      (abandon s r).boot = s.boot ∧ get (abandon s r) Reg.imgStatsAbandoned =
        min (2 ^ Reg.imgStatsAbandoned.width - 1) (get s Reg.imgStatsAbandoned + 1) := by
  have hchanges := abandon_changes s r
  have hmem := hchanges.mem_eq (by decide) (by decide)
  have hboot := hchanges.boot_eq (by decide)
  obtain ⟨body, hentry⟩ := castlingEntry_eq (bump { castIdle (givenUp s) r with
    img.abandonAt := some (tempoNo s) } Reg.imgStatsAbandoned) s.boot.slotB r
  have hget (f : Fld) (hf : f.key ≠ Reg.sbStatsLost.key) : get (abandon s r) f =
      get (bump { castIdle (givenUp s) r with img.abandonAt := some (tempoNo s) } Reg.imgStatsAbandoned) f := by
    rw [abandon_eq, hentry]
    exact journal_regsSame _ _ _ f (all_ne_of_ne hf)
  have hidle (f : Fld) (hf : f.key ≠ Reg.sbStatsLost.key) (hcount : f.key ≠ Reg.imgStatsAbandoned.key) :
      get (abandon s r) f = get (castIdle (givenUp s) r) f := (hget f hf).trans (get_bump_ne _ _ _ hcount)
  obtain ⟨hphase, hstate, hresult⟩ := get_castIdle (givenUp s) hr
  refine ⟨?_, ?_, ?_, ?_, hmem, hboot, ?_⟩
  · rw [hidle _ (by decide) (by decide), hphase]
  · rw [hidle _ (by decide) (by decide), hstate]
  · rw [hidle _ (by decide) (by decide), hresult]
  · rw [abandon_eq, hentry, journal_env]
    exact castIdle_handover _ r
  · have habandoned : get (castIdle (givenUp s) r) Reg.imgStatsAbandoned = get s Reg.imgStatsAbandoned :=
      (get_castIdle_abandoned _ r).trans (imgSame_givenUp s _ (by decide))
    rw [hget _ (by decide), get_bump_same, ← habandoned]
    rfl

/-! The steps of a castling. -/

theorem get_castleGo (s : State) :
    get (castleGo s) Reg.imgStatusPhase = 1 ∧ get (castleGo s) Reg.imgStatusState = 1 := by
  refine ⟨?_, get_put_same _ _ _⟩
  rw [castleGo, get_put_ne _ _ _ _ (by decide)]
  exact get_put_same _ _ _

theorem castleGo_eq (s : State) : castleGo s = put (put { s with
    env.handover := true, img.castAt := boundaryAfter s 2000, img.loaded := false, img.failDue := none
    img.spReady := false } Reg.imgStatusPhase 1) Reg.imgStatusState 1 := rfl

theorem regsSame_castleGo (s : State) : regsSame s (castleGo s) [Reg.imgStatusPhase, Reg.imgStatusState] := by
  have hset : regsSame s { s with
      env.handover := true, img.castAt := boundaryAfter s 2000, img.loaded := false, img.failDue := none
      img.spReady := false } [Reg.imgStatusPhase, Reg.imgStatusState] := .refl s _
  exact (hset.put List.mem_cons_self 1).put (by simp) 1

/-- Where a part is copied to does not depend on the digest that has been given up. -/
theorem copyParts_dropDigest (s : State) (b : Bool) (sp gc : Nat) :
    (copyParts (dropDigest s) b sp gc).mem = (copyParts s b sp gc).mem ∧
      (copyParts (dropDigest s) b sp gc).regs = (dropDigest s).regs ∧ (copyParts (dropDigest s) b sp gc).img = s.img := by
  obtain ⟨g, k, h⟩ := dropDigest_eq s
  rw [h]
  exact ⟨rfl, rfl, rfl⟩

theorem castlingLoadDone_loads {s : State} (haloft : aloft s = true) (hphase : castPhase s = 2)
    (hloaded : s.img.loaded = false) (hdue : s.img.failDue = none) (hmay : digestMay s = true) (ok : Bool) :
    castlingLoadDone s ok =
      if ok ∧ digestOk s (inactiveB s) then
        { copyParts (dropDigest s) (inactiveB s) (1 - s.boot.spArea) (1 - s.boot.gcArea) with img.loaded := true }
      else
        { copyParts (dropDigest s) (inactiveB s) (1 - s.boot.spArea) (1 - s.boot.gcArea) with img.failDue := some 13 } := by
  unfold castlingLoadDone
  rw [if_neg (by simp [haloft, hphase, hloaded, hmay])]
  dsimp only
  rw [if_neg (c := s.img.failDue.isSome = true) (by simp [hdue])]

theorem imgCtl_abort {s : State} {m : Master} (hm : m ≠ .dbg) (hflip : beforeFlip s = true) (hdue : s.img.failDue = none) :
    imgCtl s m 5 = { s with img.failDue := some 12 } := by
  obtain ⟨b, hb⟩ := exists_imgBank hm
  have hphase : castPhase s ≠ 0 := by
    simp only [beforeFlip, Bool.and_eq_true, decide_eq_true_eq] at hflip
    omega
  simp [imgCtl, hb, hphase, imgAbort, hflip, hdue]

/-- Settles O52: each command of a castling acts in its phase; a castling given up leaves memories and start-up as they are. -/
theorem castlingMovesThroughItsPhases : Obligations.CastlingMovesThroughItsPhases := by
  unfold Obligations.CastlingMovesThroughItsPhases
  refine ⟨?castle, ?refused, ?loaded, ?unloaded, ?window, ?ready, ?expiry, ?abort, ?timeout, ?abandoned⟩
  case castle =>
    intro s m hacc hm hstate hphase hmay
    obtain ⟨b, hb⟩ := exists_imgBank hm
    refine ⟨_, congrArg Host.Outcome.next (accessWrite_accepted s m _ (imgCtl · m 4) hacc), ?_⟩
    rw [imgCtl_castle hb hstate hphase, if_pos hmay, get_answered, get_answered]
    refine ⟨(get_castleGo s).1, (get_castleGo s).2, ?_, ?_, regsSame_answered (regsSame_castleGo s) _ _ _, ?_⟩
    all_goals
      rw [answered_frame]
      rfl
  case refused =>
    intro s m hacc hm hstate hphase hmay
    obtain ⟨b, hb⟩ := exists_imgBank hm
    refine ⟨_, congrArg Host.Outcome.next (accessWrite_accepted s m _ (imgCtl · m 4) hacc), ?_⟩
    rw [imgCtl_castle hb hstate hphase, if_neg (by simp [hmay]), get_answered]
    refine ⟨get_imgDone_result (by decide) s, regsSame_answered (regsSame_imgDone s 12) _ _ _, ?_⟩
    rw [answered_frame]
    rfl
  case loaded =>
    intro s haloft hphase hloaded hdue hmay
    obtain ⟨hmem, hregs, himg⟩ := copyParts_dropDigest s (inactiveB s) (1 - s.boot.spArea) (1 - s.boot.gcArea)
    refine ⟨_, congrArg Host.Outcome.next (castlingLoadDone_loads haloft hphase hloaded hdue hmay true), ?_⟩
    generalize copyParts (dropDigest s) (inactiveB s) (1 - s.boot.spArea) (1 - s.boot.gcArea) = u at hmem hregs himg ⊢
    cases hdigest : digestOk s (inactiveB s) with
    | true =>
      rw [if_pos ⟨rfl, rfl⟩]
      exact ⟨hregs, hmem, fun _ => ⟨rfl, (congrArg ImgSt.failDue himg).trans hdue⟩, fun h => absurd h (by decide)⟩
    | false =>
      rw [if_neg (by simp)]
      exact ⟨hregs, hmem, fun h => absurd h (by decide), fun _ => ⟨(congrArg ImgSt.loaded himg).trans hloaded, rfl⟩⟩
  case unloaded =>
    intro s haloft hphase hloaded hdue hmay
    obtain ⟨-, hregs, himg⟩ := copyParts_dropDigest s (inactiveB s) (1 - s.boot.spArea) (1 - s.boot.gcArea)
    refine ⟨_, congrArg Host.Outcome.next (castlingLoadDone_loads haloft hphase hloaded hdue hmay false), ?_⟩
    generalize copyParts (dropDigest s) (inactiveB s) (1 - s.boot.spArea) (1 - s.boot.gcArea) = u at hregs himg ⊢
    rw [if_neg (by simp)]
    exact ⟨hregs, (congrArg ImgSt.loaded himg).trans hloaded, rfl⟩
  case window =>
    intro s haloft hboundary hphase hafter
    refine ⟨_, congrArg Host.Outcome.next (if_pos ⟨haloft, hboundary, hphase, hafter⟩), get_put_same _ _ _, rfl, rfl, rfl, ?_, rfl⟩
    have hset : regsSame s { s with
        cpu.spWindow := true, boot.spArea := 1 - s.boot.spArea, img.windowAt := tempoNo s, img.spReady := false }
        [Reg.imgStatusPhase] := .refl s _
    exact hset.put List.mem_cons_self 6
  case ready =>
    intro s haloft hphase hheld hearly
    exact congrArg Host.Outcome.next (if_pos ⟨haloft, hphase, by simp [hheld], hearly⟩)
  case expiry =>
    intro s haloft hphase hready hlate
    exact congrArg Host.Outcome.next (if_pos ⟨haloft, hphase, by simp [hready], hlate⟩)
  case abort =>
    intro s m hacc hm hflip hdue
    have hset : regsSame s { s with img.failDue := some 12 } [] := .refl s _
    refine ⟨_, congrArg Host.Outcome.next (accessWrite_accepted s m _ (imgCtl · m 5) hacc), ?_⟩
    rw [imgCtl_abort hm hflip hdue]
    refine ⟨?_, regsSame_answered hset _ _ _⟩
    rw [answered_frame]
  case timeout =>
    intro s haloft hflip hlate hdue hboundary
    exact congrArg Host.Outcome.next ((if_pos ⟨haloft, hflip, hlate, by simp [hdue]⟩).trans (if_neg (by simp [hboundary])))
  case abandoned =>
    intro s haloft hflip hlate hdue hboundary
    exact ⟨_, congrArg Host.Outcome.next ((if_pos ⟨haloft, hflip, hlate, by simp [hdue]⟩).trans (if_pos hboundary)),
      abandon_shows s (by decide)⟩

end Sys2Proof.Machine
end

section
/-!
The recovery mailbox (R397 to R399).
-/
namespace Sys2Proof.Machine

/-! Words in memory. -/

theorem length_leBytes (n v : Nat) : (leBytes n v).length = n := by
  induction n generalizing v with
  | zero => rfl
  | succ n ih => rw [leBytes, List.length_cons, ih]

theorem leNat_leBytes {n v : Nat} (h : v < 256 ^ n) : leNat (leBytes n v) = v := by
  induction n generalizing v with
  | zero =>
    rw [Nat.pow_zero, Nat.lt_one_iff] at h
    rw [h]
    rfl
  | succ n ih =>
    have hrest : v / 256 < 256 ^ n := Nat.div_lt_of_lt_mul (by rwa [Nat.pow_succ, Nat.mul_comm] at h)
    rw [leBytes, leNat, ih hrest, BitVec.toNat_ofNat]
    omega

theorem Mem.readBytes_writeBytes_same (m : Mem) (d : Byte) (a : Nat) (l : List Byte) :
    Mem.readBytes (Mem.writeBytes m d a l) d a l.length = l := by
  refine List.ext_getElem (by simp [Mem.readBytes]) fun i hi hl => ?_
  simp only [Mem.readBytes, List.getElem_map, List.getElem_range]
  exact Mem.read_writeBytes_in m d a l i hl

theorem Mem.readBytes_writeBytes_out (m : Mem) (d : Byte) {a b n : Nat} {l : List Byte}
    (h : b + n ≤ a ∨ a + l.length ≤ b) : Mem.readBytes (Mem.writeBytes m d a l) d b n = Mem.readBytes m d b n := by
  refine List.map_congr_left fun i hi => Mem.read_writeBytes_out m d a l (b + i) ?_
  have hi := List.mem_range.1 hi
  omega

/-! Bank H, and the words of the mailbox. -/

theorem jobReach_eq (b : Nat) (s : State) : ∃ k c, jobReach b s = { s with vault.mcj := k, freeCtr := c } := by
  unfold jobReach
  split
  · split
    · exact ⟨_, _, rfl⟩
    · exact ⟨_, _, rfl⟩
  · exact ⟨_, _, rfl⟩

theorem jobsReach_eq (n : Nat) (s : State) :
    ∃ k c, forIdx n jobReach s = { s with vault.mcj := k, freeCtr := c } := by
  induction n with
  | zero => exact ⟨_, _, rfl⟩
  | succ n ih =>
    obtain ⟨k, c, h⟩ := ih
    obtain ⟨k', c', h'⟩ := jobReach_eq n { s with vault.mcj := k, freeCtr := c }
    exact ⟨k', c', by rw [forIdx_succ, h, h']⟩

/-- Bank H holds other bytes; the bulk jobs that read it have read on, and nothing else differs. -/
def BankHSet (s t : State) (m : Mem) : Prop := ∃ k c, t = { s with vault.mcj := k, freeCtr := c, mem.bankH := m }

theorem bankHSet_setBankH (s : State) (m : Mem) : BankHSet s (setBankH s m) m := by
  obtain ⟨k, c, h⟩ := jobsReach_eq 6 s
  exact ⟨k, c, by rw [setBankH, h]⟩

theorem BankHSet.trans {s t u : State} {m k : Mem} (h : BankHSet s t m) (hu : BankHSet t u k) : BankHSet s u k := by
  obtain ⟨_, _, rfl⟩ := h
  obtain ⟨k', c', rfl⟩ := hu
  exact ⟨k', c', rfl⟩

theorem bankHSet_setMb (s : State) (off v : Nat) :
    BankHSet s (setMb s off v) (Mem.writeBytes s.mem.bankH 0 off (leBytes 4 v)) := bankHSet_setBankH _ _

theorem BankHSet.bankH {s t : State} {m : Mem} (h : BankHSet s t m) : t.mem.bankH = m := by
  obtain ⟨_, _, rfl⟩ := h
  rfl

theorem mbWord_setMb_same {v : Nat} (hv : v < 2 ^ 32) (s : State) (off : Nat) : mbWord (setMb s off v) off = v := by
  have hread := Mem.readBytes_writeBytes_same s.mem.bankH 0 off (leBytes 4 v)
  rw [length_leBytes] at hread
  rw [mbWord, bankHBytes, (bankHSet_setMb s off v).bankH, hread]
  exact leNat_leBytes hv

theorem bankHBytes_setMb {off a n : Nat} (h : a + n ≤ off ∨ off + 4 ≤ a) (s : State) (v : Nat) :
    bankHBytes (setMb s off v) a n = bankHBytes s a n := by
  rw [bankHBytes, (bankHSet_setMb s off v).bankH]
  exact Mem.readBytes_writeBytes_out _ _ (by rwa [length_leBytes])

theorem mbWord_setMb_ne {off a : Nat} (h : a + 4 ≤ off ∨ off + 4 ≤ a) (s : State) (v : Nat) :
    mbWord (setMb s off v) a = mbWord s a := congrArg leNat (bankHBytes_setMb h s v)

theorem mbWord_lt (s : State) (off : Nat) : mbWord s off < 2 ^ 32 := by
  have hlength : (bankHBytes s off 4).length = 4 := by simp [bankHBytes, Mem.readBytes]
  have hlt := leNat_lt (bankHBytes s off 4)
  rwa [hlength] at hlt

theorem mbTag_lt (s : State) : mbTag s < 2 ^ 24 := by
  have hlt := mbWord_lt s 0x10
  unfold mbTag
  omega

theorem mbWord_mbStatus {st res tag : Nat} (hst : st < 16) (hres : res < 16) (htag : tag < 2 ^ 24) (s : State) :
    mbWord (mbStatus s st res tag) 0x10 = st + 16 * res + 256 * tag := mbWord_setMb_same (by omega) _ _

theorem mbWord_mbStatus_cmd (s : State) (st res tag : Nat) : mbWord (mbStatus s st res tag) 4 = mbWord s 4 :=
  mbWord_setMb_ne (by omega) _ _

theorem BankHSet.slotMem {s t : State} {m : Mem} (h : BankHSet s t m) (b : Bool) : slotMem t b = slotMem s b := by
  obtain ⟨_, _, rfl⟩ := h
  rfl

theorem BankHSet.img {s t : State} {m : Mem} (h : BankHSet s t m) : t.img = s.img := by
  obtain ⟨_, _, rfl⟩ := h
  rfl

theorem BankHSet.boot {s t : State} {m : Mem} (h : BankHSet s t m) : t.boot = s.boot := by
  obtain ⟨_, _, rfl⟩ := h
  rfl

theorem BankHSet.regs {s t : State} {m : Mem} (h : BankHSet s t m) : t.regs = s.regs := by
  obtain ⟨_, _, rfl⟩ := h
  rfl

/-! A command told. -/

/-- CMD as the host writes it, with the next tag. -/
def mbCmd (s : State) (op : Nat) (b : Bool) : Nat := op + 16 * b2n b + 256 * ((mbTag s + 1) % 2 ^ 24)

/-- The mailbox with a command in it. -/
def mbTold (s : State) (op : Nat) (b : Bool) (off len : Nat) : State :=
  setMb (setMb (setMb s 8 off) 0xC len) 4 (mbCmd s op b)

theorem mbCommand_told {s : State} (hphase : s.boot.phase = .recovery) (op : Nat) (b : Bool) (off len : Nat) :
    mbCommand s op b off len = romPoll (mbTold s op b off len) := by
  rw [mbCommand, if_neg (by simp [hphase])]
  rfl

theorem mbTold_eq (s : State) (op : Nat) (b : Bool) (off len : Nat) : ∃ m, BankHSet s (mbTold s op b off len) m :=
  ⟨_, ((bankHSet_setMb s 8 off).trans (bankHSet_setMb _ 0xC len)).trans (bankHSet_setMb _ 4 _)⟩

theorem mbCmd_lt {op : Nat} (hop : op < 16) (s : State) (b : Bool) : mbCmd s op b < 2 ^ 32 := by
  have htag : (mbTag s + 1) % 2 ^ 24 < 2 ^ 24 := Nat.mod_lt _ (by decide)
  have hb : b2n b ≤ 1 := by cases b <;> decide
  unfold mbCmd
  omega

theorem mbTold_words {op off len : Nat} (hop : op < 16) (hoff : off < 2 ^ 32) (hlen : len < 2 ^ 32) (s : State) (b : Bool) :
    mbWord (mbTold s op b off len) 4 = mbCmd s op b ∧ mbWord (mbTold s op b off len) 8 = off ∧
      mbWord (mbTold s op b off len) 0xC = len ∧ mbTag (mbTold s op b off len) = mbTag s := by
  refine ⟨mbWord_setMb_same (mbCmd_lt hop s b) _ _, ?_, ?_, ?_⟩
  · rw [mbTold, mbWord_setMb_ne (by omega), mbWord_setMb_ne (by omega), mbWord_setMb_same hoff]
  · rw [mbTold, mbWord_setMb_ne (by omega), mbWord_setMb_same hlen]
  · rw [mbTag, mbTag, mbTold, mbWord_setMb_ne (by omega), mbWord_setMb_ne (by omega), mbWord_setMb_ne (by omega)]

theorem bankHBytes_mbTold {a : Nat} (ha : 0x10 ≤ a) (s : State) (op : Nat) (b : Bool) (off len n : Nat) :
    bankHBytes (mbTold s op b off len) a n = bankHBytes s a n := by
  rw [mbTold, bankHBytes_setMb (by omega), bankHBytes_setMb (by omega), bankHBytes_setMb (by omega)]

/-- What ROM reads in CMD. -/
theorem mbCmd_fields {op : Nat} (hop : op < 16) (s : State) (b : Bool) :
    mbCmd s op b % 16 = op ∧ bitAt (mbCmd s op b) 4 = b ∧ mbCmd s op b / 256 = (mbTag s + 1) % 2 ^ 24 := by
  have hb : b2n b ≤ 1 := by cases b <;> decide
  refine ⟨?_, ?_, ?_⟩
  · unfold mbCmd
    omega
  · have hbit : mbCmd s op b / 2 ^ 4 % 2 = b2n b := by
      unfold mbCmd
      omega
    rw [bitAt, Nat.testBit_eq_decide_div_mod_eq, hbit]
    cases b <;> rfl
  · unfold mbCmd
    omega

theorem next_tag_ne (s : State) : (mbTag s + 1) % 2 ^ 24 ≠ mbTag s := by
  have hlt := mbTag_lt s
  omega

section
variable {s : State} (hphase : s.boot.phase = .recovery) (hheld : s.cpu.spHeld = false) (hrom : s.img.rom = none)
  (hlc : lifeCycle s ≠ 4)
include hphase hheld hrom hlc

/-- ROM takes up what is told it. -/
theorem mbCommand_taken {op off len : Nat} (hop : inR op 1 4 = true) (hoff : off < 2 ^ 32) (hlen : len < 2 ^ 32) (b : Bool) :
    mbCommand s op b off len =
      match op with
      | 1 => romStart (mbTold s op b off len) 1 b 0 0 ((mbTag s + 1) % 2 ^ 24) []
      | 2 =>
        if !rangeOk256 off len then mbStatus (mbTold s op b off len) 2 5 ((mbTag s + 1) % 2 ^ 24)
        else if !isErased (mbTold s op b off len) b off len then
          mbStatus (mbTold s op b off len) 2 4 ((mbTag s + 1) % 2 ^ 24)
        else romStart (mbTold s op b off len) 2 b off len ((mbTag s + 1) % 2 ^ 24)
          (bankHBytes (mbTold s op b off len) 0x100000 len)
      | 3 => romStart (mbTold s op b off len) 3 b 0 0 ((mbTag s + 1) % 2 ^ 24) []
      | _ =>
        if (mbTold s op b off len).img.romVerified.contains b then beginReset (programPrefer (mbTold s op b off len) b) 5
        else mbStatus (mbTold s op b off len) 2 11 ((mbTag s + 1) % 2 ^ 24) := by
  have hop16 : op < 16 := by
    simp only [inR, Bool.and_eq_true, decide_eq_true_eq] at hop
    omega
  obtain ⟨hcmd, hoffWord, hlenWord, htag⟩ := mbTold_words hop16 hoff hlen s b
  obtain ⟨hopField, hbField, htagField⟩ := mbCmd_fields hop16 s b
  obtain ⟨m, k, c, htold⟩ := mbTold_eq s op b off len
  have hidle : ¬((mbTold s op b off len).boot.phase ≠ .recovery ∨ (mbTold s op b off len).cpu.spHeld = true ∨
      (mbTold s op b off len).img.rom.isSome = true ∨ (!inR op 1 4) = true ∨
      (mbTag s + 1) % 2 ^ 24 = mbTag (mbTold s op b off len)) := by
    have hnew := next_tag_ne s
    rw [htag, htold]
    simpa [hphase, hheld, hrom, hop] using hnew
  have hlife : lifeCycle (mbTold s op b off len) ≠ 4 := by
    rw [htold]
    exact hlc
  rw [mbCommand_told hphase, romPoll]
  simp only [hcmd, hopField, hbField, htagField, hoffWord, hlenWord]
  rw [if_neg hidle, if_neg hlife] <;> rfl

end

/-! Commands that start and end. -/

/-- What a command leaves that goes on in flash. -/
structure RomTaken (s t : State) (op : Nat) (b : Bool) (off len tag : Nat) (bs : List Byte) : Prop where
  word : mbWord t 0x10 = 1 + 256 * tag
  rom : t.img.rom = some (op, b, off, len)
  job : t.img.op = some (op, off, bs)
  verified : t.img.romVerified = if op ≤ 2 then s.img.romVerified.filter (· ≠ b) else s.img.romVerified
  regs : t.regs = s.regs
  slots : ∀ b, slotMem t b = slotMem s b

theorem romTaken_romStart {tag : Nat} (htag : tag < 2 ^ 24) (s : State) (op : Nat) (b : Bool) (off len : Nat)
    (bs : List Byte) : RomTaken s (romStart s op b off len tag bs) op b off len tag bs := by
  have hset := bankHSet_setMb { s with
    img.op := some (op, off, bs), img.rom := some (op, b, off, len)
    img.romVerified := if op ≤ 2 then s.img.romVerified.filter (· ≠ b) else s.img.romVerified } 0x10 (1 + 16 * 0 + 256 * tag)
  have hword := mbWord_mbStatus (st := 1) (res := 0) (by decide) (by decide) htag { s with
    img.op := some (op, off, bs), img.rom := some (op, b, off, len)
    img.romVerified := if op ≤ 2 then s.img.romVerified.filter (· ≠ b) else s.img.romVerified }
  exact ⟨hword, congrArg ImgSt.rom hset.img, congrArg ImgSt.op hset.img, congrArg ImgSt.romVerified hset.img, hset.regs,
    hset.slotMem⟩

/-- ROM does nothing where CMD holds the tag of the last command. -/
theorem romPoll_idle {s : State} (h : mbWord s 4 / 256 = mbTag s) : romPoll s = s := by
  unfold romPoll
  dsimp only
  exact if_pos (.inr (.inr (.inr (.inr h))))

/-- A command that is done is shown, and no other is taken up under its tag. -/
theorem romPoll_done {s : State} {res tag : Nat} (hres : res < 16) (htag : tag < 2 ^ 24) (h : mbWord s 4 / 256 = tag) :
    romPoll (mbStatus s 2 res tag) = mbStatus s 2 res tag ∧
      mbWord (mbStatus s 2 res tag) 0x10 = 2 + 16 * res + 256 * tag := by
  have hword := mbWord_mbStatus (st := 2) (by decide) hres htag s
  refine ⟨romPoll_idle ?_, hword⟩
  rw [mbWord_mbStatus_cmd, h, mbTag, hword]
  omega

section
variable {s : State} {b : Bool} {off len : Nat} (hphase : s.boot.phase = .recovery) (hheld : s.cpu.spHeld = false)
include hphase hheld

theorem recoveryDone_erase (hrom : s.img.rom = some (1, b, off, len)) : recoveryDone s =
    romPoll (mbStatus (eraseSlot { s with img.op := none, img.rom := none } b) 2 1 (mbTag s)) := by
  simp [recoveryDone, hrom, hphase, hheld]

theorem recoveryDone_write {dst : Nat} {bs : List Byte} (hrom : s.img.rom = some (2, b, off, len))
    (hop : s.img.op = some (2, dst, bs)) : recoveryDone s =
      romPoll (mbStatus (programSlot { s with img.op := none, img.rom := none } b off bs) 2 1 (mbTag s)) := by
  simp [recoveryDone, hrom, hop, hphase, hheld]

end

theorem setSlotMem_bankH (s : State) (b : Bool) (m : Mem) : (setSlotMem s b m).mem.bankH = s.mem.bankH := by
  rw [setSlotMem_eq, put_mem, put_mem]
  cases b <;> rfl

theorem setSlotMem_img (s : State) (b : Bool) (m : Mem) : (setSlotMem s b m).img = s.img := by
  rw [setSlotMem_eq, put_img, put_img]
  cases b <;> rfl

theorem mbWord_of_bankH {s t : State} (h : t.mem.bankH = s.mem.bankH) (off : Nat) : mbWord t off = mbWord s off := by
  rw [mbWord, mbWord, bankHBytes, bankHBytes, h]

/-- A slot replaced by a command that is done: it holds the new bytes, and the mailbox shows the command's end. -/
theorem slotCommand_done {s : State} (htag : mbWord s 4 / 256 = mbTag s) {u : State} (hbank : u.mem.bankH = s.mem.bankH)
    (hrom : u.img.rom = none) (hslots : ∀ b, slotMem u b = slotMem s b) (b : Bool) (m : Mem) :
    slotMem (romPoll (mbStatus (setSlotMem u b m) 2 1 (mbTag s))) b = m ∧
      slotMem (romPoll (mbStatus (setSlotMem u b m) 2 1 (mbTag s))) (!b) = slotMem s (!b) ∧
      (romPoll (mbStatus (setSlotMem u b m) 2 1 (mbTag s))).img.rom = none ∧
      mbWord (romPoll (mbStatus (setSlotMem u b m) 2 1 (mbTag s))) 0x10 = 2 + 16 * 1 + 256 * mbTag s := by
  have hcmd : mbWord (setSlotMem u b m) 4 / 256 = mbTag s := by
    rw [mbWord_of_bankH ((setSlotMem_bankH u b m).trans hbank), htag]
  obtain ⟨hidle, hword⟩ := romPoll_done (s := setSlotMem u b m) (res := 1) (by decide) (mbTag_lt s) hcmd
  have hset := bankHSet_setMb (setSlotMem u b m) 0x10 (2 + 16 * 1 + 256 * mbTag s)
  rw [hidle]
  refine ⟨?_, ?_, ?_, hword⟩
  · exact (hset.slotMem b).trans (slotMem_setSlotMem_same u b m)
  · exact (hset.slotMem (!b)).trans ((slotMem_setSlotMem_not u b m).trans (hslots _))
  · obtain ⟨k, c, h⟩ := hset
    rw [mbStatus, h]
    exact (congrArg ImgSt.rom (setSlotMem_img u b m)).trans hrom

theorem rangeOk256_lt {off len : Nat} (h : rangeOk256 off len = true) : off < 2 ^ 32 ∧ len < 2 ^ 32 := by
  simp only [rangeOk256, Bool.and_eq_true, decide_eq_true_eq] at h
  omega

theorem slotBytes_of_slotMem {s t : State} {b : Bool} (h : slotMem t b = slotMem s b) (off n : Nat) :
    slotBytes t b off n = slotBytes s b off n := by
  rw [slotBytes, slotBytes, h]

theorem highestPrefer_of_slotMem {s t : State} (h : ∀ b, slotMem t b = slotMem s b) :
    highestPrefer t = highestPrefer s := by
  simp only [highestPrefer, preferOf, slotBytes_of_slotMem (h _)]

theorem beginReset_of_recovery {s : State} (h : s.boot.phase = .recovery) (cause : Nat) :
    beginReset s cause = deviceReset s cause := by
  rw [beginReset, h]

theorem slotMem_deviceReset (s : State) (cause : Nat) (b : Bool) : slotMem (deviceReset s cause) b = slotMem s b := by
  obtain ⟨-, -, -, -, -, -, hA, hB⟩ := deviceReset_keeps s cause
  cases b with
  | false => exact hA
  | true => exact hB

/-- A verified slot is preferred before the reset that starts it. -/
theorem preferredReset_shows {s u : State} (hphase : u.boot.phase = .recovery) (hslots : ∀ b, slotMem u b = slotMem s b)
    (b : Bool) (cause : Nat) :
    (beginReset (programPrefer u b) cause).boot.phase = .inReset ∧ (beginReset (programPrefer u b) cause).boot.cause = cause ∧
      slotMem (beginReset (programPrefer u b) cause) b = Mem.writeBytes (slotMem s b) 0xFF 0xFF0
        (leBytes 4 (highestPrefer s + 1) ++ leBytes 4 (0xFFFFFFFF - (highestPrefer s + 1))) := by
  have hboot : (programPrefer u b).boot = u.boot := by
    rw [programPrefer, programSlot, setSlotMem_eq, put_boot, put_boot]
    cases b <;> rfl
  obtain ⟨hreset, hcause, -⟩ := deviceReset_boot (programPrefer u b) cause
  rw [beginReset_of_recovery (by rw [hboot, hphase])]
  refine ⟨hreset, hcause, ?_⟩
  rw [slotMem_deviceReset, programPrefer, programSlot, slotMem_setSlotMem_same, hslots, highestPrefer_of_slotMem hslots]

/-- Settles O53: ROM takes each command told it under a new tag, and shows its end under the same. -/
theorem recoveryMailboxTakesCommands : Obligations.RecoveryMailboxTakesCommands := by
  unfold Obligations.RecoveryMailboxTakesCommands
  have hnext (s : State) : (mbTag s + 1) % 2 ^ 24 < 2 ^ 24 := Nat.mod_lt _ (by decide)
  refine ⟨?erase, ?badRange, ?write, ?verify, ?boot, ?unverified, ?erased, ?written⟩
  case erase =>
    intro s b hphase hheld hrom hlc
    have hcommand := mbCommand_taken hphase hheld hrom hlc (op := 1) (by decide) (mbWord_lt s 8) (mbWord_lt s 0xC) b
    obtain ⟨m, htold⟩ := mbTold_eq s 1 b (mbWord s 8) (mbWord s 0xC)
    have htaken := romTaken_romStart (hnext s) (mbTold s 1 b (mbWord s 8) (mbWord s 0xC)) 1 b 0 0 []
    have hgone : b ∉ (romStart (mbTold s 1 b (mbWord s 8) (mbWord s 0xC)) 1 b 0 0
        ((mbTag s + 1) % 2 ^ 24) []).img.romVerified := by
      rw [htaken.verified]
      exact fun h => absurd (List.of_mem_filter h) (by simp)
    exact ⟨_, congrArg Host.Outcome.next hcommand, ⟨0, 0, htaken.rom⟩, htaken.word, hgone, htaken.regs.trans htold.regs,
      (htaken.slots false).trans (htold.slotMem false), (htaken.slots true).trans (htold.slotMem true)⟩
  case badRange =>
    intro s b off len hphase hheld hrom hlc hoff hlen hrange
    obtain ⟨m, htold⟩ := mbTold_eq s 2 b off len
    refine ⟨_, congrArg Host.Outcome.next (mbCommand_taken hphase hheld hrom hlc (by decide) hoff hlen b), ?_⟩
    simp only [hrange, Bool.not_false, if_true]
    exact ⟨(bankHSet_setMb _ _ _).img.trans htold.img, mbWord_mbStatus (by decide) (by decide) (hnext s) _⟩
  case write =>
    intro s b off len hphase hheld hrom hlc hrange
    obtain ⟨hoff, hlen⟩ := rangeOk256_lt hrange
    obtain ⟨m, htold⟩ := mbTold_eq s 2 b off len
    have herased : isErased (mbTold s 2 b off len) b off len = isErased s b off len :=
      congrArg (List.all · (· == 0xFF)) (slotBytes_of_slotMem (htold.slotMem b) off len)
    have hbytes := bankHBytes_mbTold (a := 0x100000) (by decide) s 2 b off len len
    refine ⟨_, congrArg Host.Outcome.next (mbCommand_taken hphase hheld hrom hlc (by decide) hoff hlen b), ?_⟩
    simp only [hrange, herased, hbytes, Bool.not_true, Bool.false_eq_true, if_false]
    cases hcase : isErased s b off len with
    | true =>
      have htaken := romTaken_romStart (hnext s) (mbTold s 2 b off len) 2 b off len (bankHBytes s 0x100000 len)
      simp only [Bool.not_true, Bool.false_eq_true, if_false]
      exact ⟨(htaken.slots false).trans (htold.slotMem false), (htaken.slots true).trans (htold.slotMem true),
        fun _ => ⟨htaken.rom, htaken.job, htaken.word⟩, fun h => absurd h (by decide)⟩
    | false =>
      have hset := bankHSet_setMb (mbTold s 2 b off len) 0x10 (2 + 16 * 4 + 256 * ((mbTag s + 1) % 2 ^ 24))
      simp only [Bool.not_false, if_true]
      exact ⟨(hset.slotMem false).trans (htold.slotMem false), (hset.slotMem true).trans (htold.slotMem true),
        fun h => absurd h (by decide), fun _ => ⟨hset.img.trans htold.img,
          mbWord_mbStatus (by decide) (by decide) (hnext s) _⟩⟩
  case verify =>
    intro s b hphase hheld hrom hlc
    have hcommand := mbCommand_taken hphase hheld hrom hlc (op := 3) (by decide) (mbWord_lt s 8) (mbWord_lt s 0xC) b
    obtain ⟨m, htold⟩ := mbTold_eq s 3 b (mbWord s 8) (mbWord s 0xC)
    have htaken := romTaken_romStart (hnext s) (mbTold s 3 b (mbWord s 8) (mbWord s 0xC)) 3 b 0 0 []
    exact ⟨_, congrArg Host.Outcome.next hcommand, ⟨0, 0, htaken.rom⟩, htaken.word,
      htaken.verified.trans (congrArg ImgSt.romVerified htold.img)⟩
  case boot =>
    intro s b hphase hheld hrom hlc hverified
    obtain ⟨m, htold⟩ := mbTold_eq s 4 b (mbWord s 8) (mbWord s 0xC)
    have hlisted : (mbTold s 4 b (mbWord s 8) (mbWord s 0xC)).img.romVerified.contains b = true := by
      rw [htold.img]
      simpa using hverified
    refine ⟨_, congrArg Host.Outcome.next
      (mbCommand_taken hphase hheld hrom hlc (by decide) (mbWord_lt s 8) (mbWord_lt s 0xC) b), ?_⟩
    simp only [hlisted, if_true]
    exact preferredReset_shows (by rw [htold.boot, hphase]) htold.slotMem b 5
  case unverified =>
    intro s b hphase hheld hrom hlc hverified
    obtain ⟨m, htold⟩ := mbTold_eq s 4 b (mbWord s 8) (mbWord s 0xC)
    have hset := bankHSet_setMb (mbTold s 4 b (mbWord s 8) (mbWord s 0xC)) 0x10
      (2 + 16 * 11 + 256 * ((mbTag s + 1) % 2 ^ 24))
    have hnone : (mbTold s 4 b (mbWord s 8) (mbWord s 0xC)).img.romVerified.contains b = false := by
      rw [htold.img]
      simpa using hverified
    refine ⟨_, congrArg Host.Outcome.next
      (mbCommand_taken hphase hheld hrom hlc (by decide) (mbWord_lt s 8) (mbWord_lt s 0xC) b), ?_⟩
    simp only [hnone, Bool.false_eq_true, if_false]
    exact ⟨hset.boot.trans htold.boot, hset.img.trans htold.img, mbWord_mbStatus (by decide) (by decide) (hnext s) _⟩
  case erased =>
    intro s b off len hphase hheld hrom htag
    refine ⟨_, congrArg Host.Outcome.next (recoveryDone_erase hphase hheld hrom), ?_⟩
    rw [eraseSlot]
    refine slotCommand_done htag ?_ ?_ (fun b => ?_) b []
    all_goals rfl
  case written =>
    intro s b off len dst bs hphase hheld hrom hop htag
    refine ⟨_, congrArg Host.Outcome.next (recoveryDone_write hphase hheld hrom hop), ?_⟩
    have hsame : slotMem { s with img.op := none, img.rom := none } b = slotMem s b := rfl
    rw [programSlot, hsame]
    refine slotCommand_done htag ?_ ?_ (fun b => ?_) b _
    all_goals rfl

end Sys2Proof.Machine
end

section
/-!
Freezes, dumps and the central reader (R378, R380, R382).
-/
namespace Sys2Proof.Machine

/-! What a freeze leaves of the count of missed dumps. -/

/-- A field is not the count of missed dumps. -/
theorem apartFrom_missed {f : Fld} (h : f.key ≠ Reg.dumpStatusMissed.key) : apartFrom [Reg.dumpStatusMissed] f := by
  simpa [apartFrom] using h.symm

theorem missedSame_showGates (s : State) (p : Nat) : fldsSame [Reg.dumpStatusMissed] s (showGates s p) := by
  have hapart : ∀ f ∈ [Reg.tmGateGatesEn p, Reg.tmGatePending p, Reg.tmSwitchAt p, Reg.tmGateOperStates p,
      Reg.tmGateEntry p, Reg.tmGateHeld p], apartFrom [Reg.dumpStatusMissed] f := by
    simp only [List.forall_mem_cons, Fld.key, apartFrom, Reg.tmGateGatesEn, Reg.tmGatePending, Reg.tmSwitchAt,
      Reg.tmGateOperStates, Reg.tmGateEntry, Reg.tmGateHeld, Reg.dumpStatusMissed]
    simp
    omega
  unfold showGates
  refine ((((fldsSame.refl _ s).putFlag (hapart _ (by simp)) _).putFlag (hapart _ (by simp)) _).put (hapart _ (by simp)) _
    |>.put (hapart _ (by simp)) _ |>.put (hapart _ (by simp)) _ |>.putFlag (hapart _ (by simp)) _)

theorem missedSame_gateClosesOn (s : State) (p closed : Nat) :
    fldsSame [Reg.dumpStatusMissed] s (gateClosesOn s p closed) := by
  refine fldsSame_foldl _ (fun st e => ?_) _ _
  split
  · refine (fldsSame.of_regs rfl).bump (apartFrom_missed ?_)
    simp only [Fld.key, Reg.tmTxTxOverrun, Reg.dumpStatusMissed]
    omega
  · exact .refl _ st

theorem missedSame_takeover (s : State) (p : Nat) (g : Gates) (due : Bool) : fldsSame [Reg.dumpStatusMissed] s
    (if due then bump { s with tm.gates := s.tm.gates.set p g } (Reg.tmTxTakeovers p) else s) := by
  split
  · refine (fldsSame.of_regs rfl).bump (apartFrom_missed ?_)
    simp only [Fld.key, Reg.tmTxTakeovers, Reg.dumpStatusMissed]
    omega
  · exact .refl _ s

theorem missedSame_gateSync (s : State) (p : Nat) : fldsSame [Reg.dumpStatusMissed] s (gateSync s p) := by
  have hop (u : State) (new : Bool) : fldsSame [Reg.dumpStatusMissed] u (if new then gateOp u p else u) := by
    split
    · exact .of_regs (gateOp_regs u p)
    · exact .refl _ u
  unfold gateSync
  dsimp only
  split
  · exact .refl _ s
  · refine fldsSame.trans ?_ (missedSame_showGates _ p)
    refine fldsSame.trans ?_ (.of_regs (settlePreempt_regs _ p))
    refine fldsSame.trans ?_ (hop _ _)
    exact (missedSame_takeover s p _ _).trans (missedSame_gateClosesOn _ p _)

theorem missedSame_flowSync (s : State) (g : Nat) : fldsSame [Reg.dumpStatusMissed] s (flowSync s g) := by
  have hapart : ∀ f ∈ [Reg.fgStateEntry g, Reg.fgStateIpv g, Reg.fgStateIpvValid g, Reg.fgStateOpen g],
      apartFrom [Reg.dumpStatusMissed] f := by
    simp only [List.forall_mem_cons, Fld.key, apartFrom, Reg.fgStateEntry, Reg.fgStateIpv, Reg.fgStateIpvValid,
      Reg.fgStateOpen, Reg.dumpStatusMissed]
    simp
    omega
  unfold flowSync
  dsimp only
  split
  · exact .refl _ s
  · refine (((fldsSame.of_regs ?_).put (hapart _ (by simp)) _).put (hapart _ (by simp)) _).putFlag (hapart _ (by simp)) _
      |>.putFlag (hapart _ (by simp)) _
    split <;> rfl

theorem missedSame_settleAll (s : State) : fldsSame [Reg.dumpStatusMissed] s (settleAll s) := by
  refine (fldsSame_forIdx 50 _ (fun p st => missedSame_gateSync st p) s).trans (fldsSame_foldl _ (fun st e => ?_) _ _)
  split
  · exact missedSame_flowSync _ _
  · exact .refl _ st

/-- The frozen copy of a freeze. -/
def frozenCnt (s : State) : CntSt := { (settleAll s).cnt with
  snapAt := none, frzRegs := frozenRegs (settleAll s), frzAccum := (settleAll s).accum }

theorem freeze_eq (s : State) : freeze s =
    put (put { settleAll s with cnt := frozenCnt s } Reg.snapTempoNum (tempoNo (settleAll s))) Reg.snapStatusValid 1 := by
  unfold freeze frozenCnt
  dsimp only

theorem missedSame_freeze (s : State) : fldsSame [Reg.dumpStatusMissed] s (freeze s) := by
  have hsettled : fldsSame [Reg.dumpStatusMissed] s { settleAll s with cnt := frozenCnt s } := by
    refine (missedSame_settleAll s).congr ?_
    with_reducible rfl
  rw [freeze_eq]
  exact (hsettled.put (apartFrom_missed (by decide)) _).put (apartFrom_missed (by decide)) 1

theorem missedSame_centralCopy (s : State) : fldsSame [Reg.dumpStatusMissed] s (centralCopy s) := by
  refine (fldsSame_forIdx 10 _ (fun i st => (fldsSame.refl _ st).put (apartFrom_missed ?_) _) s).put
    (apartFrom_missed (by decide)) _
  simp only [Fld.key, Reg.crMirror, Reg.dumpStatusMissed]
  omega

/-! What a freeze and a copy leave. -/

theorem settleAll_changes (s : State) : changesOnly [.registers, .accum, .frames, .tm, .io] s (settleAll s) :=
  changesOnly_of_kept (@kept_settleAll [.registers, .accum, .frames, .tm, .io] (has_of rfl) (has_of rfl) (has_of rfl)
    (has_of rfl) (has_of rfl) s)

theorem changesOnly.cnt_eq {l : List Part} {s t : State} (h : changesOnly l s t) (hl : Part.cnt ∉ l) : t.cnt = s.cnt := by
  obtain ⟨-, -, -, -, -, -, -, -, -, -, -, -, -, -, -, -, -, -, -, -, -, -, -, -, -, -, -, hcnt, -⟩ := h
  exact hcnt.resolve_left hl

theorem freeze_cnt (s : State) : (freeze s).cnt = frozenCnt s := by
  rw [freeze_eq, put_cnt, put_cnt]

theorem frozenCnt_eq (s : State) : frozenCnt s = { s.cnt with
    snapAt := none, frzRegs := frozenRegs (settleAll s), frzAccum := (settleAll s).accum } := by
  rw [frozenCnt, (settleAll_changes s).cnt_eq (by decide)]

theorem freeze_time (s : State) : (freeze s).time = s.time := by
  rw [freeze_eq, put_time, put_time]
  dsimp only
  exact (settleAll_changes s).time_eq (by decide)

theorem freeze_policy (s : State) : (freeze s).env.policy = s.env.policy := by
  rw [freeze_eq, put_env, put_env]
  dsimp only
  exact (settleAll_changes s).policy_eq (by decide)

theorem tempoNo_of_lowSame {s t : State} (h : lowSame s t) : tempoNo t = tempoNo s := h _ (by decide)

theorem curSlot_of_lowSame {s t : State} (h : lowSame s t) : curSlot t = curSlot s := h _ (by decide)

theorem counterGlobals_of_lowSame {s t : State} (h : lowSame s t) (hpolicy : t.env.policy = s.env.policy) :
    counterGlobals t = counterGlobals s := by
  rw [counterGlobals, counterGlobals, curSlot_of_lowSame h, recOf, recOf, hpolicy]

theorem flag_of_lowSame {s t : State} (h : lowSame s t) {f : Fld} (hf : f.key < 0x810000 * 32) : flag t f = flag s f := by
  rw [flag, flag, h f hf]

theorem ringCfgEn_low {r : Nat} (hr : r < 256) : (Reg.ringCfgEn r).key < 0x810000 * 32 := by
  simp only [Fld.key, Reg.ringCfgEn]
  omega

theorem counterGlobals_ring_lt (s : State) : (counterGlobals s).2.1 < 256 := by
  unfold counterGlobals
  split
  · exact BitVec.isLt _
  · decide

/-! What a capture leaves of the state it is made in. -/

/-- The state whose dump is judged: frozen, where a freeze is due. -/
def frozenIfDue (s : State) : State := if s.cnt.snapAt.any (requestDue s) then freeze s else s

theorem lowSame_frozenIfDue (s : State) : lowSame s (frozenIfDue s) := by
  unfold frozenIfDue
  split
  · exact lowSame_freeze s
  · exact .refl s

theorem missedSame_frozenIfDue (s : State) : fldsSame [Reg.dumpStatusMissed] s (frozenIfDue s) := by
  unfold frozenIfDue
  split
  · exact missedSame_freeze s
  · exact .refl _ s

theorem frozenIfDue_shows (s : State) : (frozenIfDue s).time = s.time ∧ (frozenIfDue s).env.policy = s.env.policy ∧
    ∃ a r c, (frozenIfDue s).cnt = { s.cnt with snapAt := a, frzRegs := r, frzAccum := c } := by
  unfold frozenIfDue
  split
  · exact ⟨freeze_time s, freeze_policy s, none, frozenRegs (settleAll s), (settleAll s).accum,
      (freeze_cnt s).trans (frozenCnt_eq s)⟩
  · exact ⟨rfl, rfl, s.cnt.snapAt, s.cnt.frzRegs, s.cnt.frzAccum, rfl⟩

theorem dumpDue_frozenIfDue (s : State) (n : Nat) : dumpDue (frozenIfDue s) n = dumpDue s n := by
  obtain ⟨-, hpolicy, a, r, c, hcnt⟩ := frozenIfDue_shows s
  rw [dumpDue, dumpDue, counterGlobals_of_lowSame (lowSame_frozenIfDue s) hpolicy, hcnt]

/-- A loop whose turns change the registers alone. -/
theorem forIdx_regs {g : Nat → State → State} (hg : ∀ i st, ∃ r, g i st = { st with regs := r }) (n : Nat) (s : State) :
    ∃ r, forIdx n g s = { s with regs := r } := by
  induction n with
  | zero => exact ⟨s.regs, rfl⟩
  | succ n ih =>
    obtain ⟨r, h⟩ := ih
    obtain ⟨r', h'⟩ := hg n { s with regs := r }
    exact ⟨r', by rw [forIdx_succ, h, h']⟩

theorem centralCopy_eq (s : State) : ∃ r, centralCopy s = { s with regs := r } := by
  obtain ⟨r, h⟩ := forIdx_regs
    (g := fun i st => put st (Reg.crMirror i) (((crSources[i]?).map (accumOf s)).getD 0)) (fun _ _ => ⟨_, rfl⟩) 10 s
  rw [centralCopy, h]
  exact ⟨_, rfl⟩

theorem get_centralCopy_tempo (s : State) : get (centralCopy s) Reg.crTempo = tempoNo s % 2 ^ 32 := by
  rw [centralCopy, get_put_same]
  exact Nat.mod_mod _ _

/-- A capture leaves the registers and the page. -/
theorem captured_eq (s : State) : ∃ r p, captured s = { s with
    regs := r, cnt.page := p, cnt.pageGen := (s.cnt.pageGen + 2) % 2 ^ 32 } := by
  obtain ⟨r, h⟩ := centralCopy_eq (refreshPage s)
  exact ⟨r, _, h⟩

theorem missedSame_captured (s : State) : fldsSame [Reg.dumpStatusMissed] s (captured s) :=
  (fldsSame.of_regs (t := refreshPage s) rfl).trans (missedSame_centralCopy _)

theorem lowSame_captured (s : State) : lowSame s (captured s) :=
  (lowSame.of_regs (t := refreshPage s) rfl).trans (lowSame_centralCopy _)

theorem copiesDue_eq (s : State) : ∃ r, copiesDue s = { s with
    regs := r, cnt.crAt := s.cnt.crAt.filter fun a => !requestDue s a } := by
  unfold copiesDue
  split
  · obtain ⟨r, h⟩ := centralCopy_eq s
    rw [h]
    exact ⟨r, rfl⟩
  · next hnone =>
    have hall : (s.cnt.crAt.filter fun a => !requestDue s a) = s.cnt.crAt := by
      refine List.filter_eq_self.2 fun a ha => ?_
      simpa using fun h => hnone (List.any_eq_true.2 ⟨a, ha, h⟩)
    exact ⟨s.regs, by rw [hall]⟩

theorem missedSame_copiesDue (s : State) : fldsSame [Reg.dumpStatusMissed] s (copiesDue s) := by
  unfold copiesDue
  split
  · exact (missedSame_centralCopy s).congr rfl
  · exact .refl _ s

theorem copiesDue_none {s : State} (h : s.cnt.crAt.any (requestDue s) = false) : copiesDue s = s := if_neg (by simp [h])

/-- A copy after a capture shows the same tempo. -/
theorem get_copiesDue_tempo {s : State} {v : Nat} (hshown : get s Reg.crTempo = v) (htempo : tempoNo s % 2 ^ 32 = v) :
    get (copiesDue s) Reg.crTempo = v := by
  unfold copiesDue
  split
  · rw [get_congr _ (centralCopy s) _ (by dsimp only), get_centralCopy_tempo, htempo]
  · exact hshown

/-! A dump at a boundary. -/

theorem dumpAtBoundary_skips {s : State} {n : Nat} (hdue : dumpDue s n = true)
    (hbad : p48Up s = false ∨ flag s (Reg.ringCfgEn (counterGlobals s).2.1) = false ∨ s.cnt.dump ≠ []) :
    dumpAtBoundary s n = bump { s with cnt.dumpAt := some n, cnt.missed := s.cnt.missed + 1 } Reg.dumpStatusMissed := by
  unfold dumpAtBoundary
  dsimp only
  rw [if_neg (by simp [hdue]), if_pos]
  rcases hbad with hup | hring | hdump
  · simp [hup]
  · simp [hring]
  · simp [hdump]

theorem map_zip_range_ne_nil {α β : Type} {l : List α} (h : l ≠ []) (f : Nat × α → β) :
    ((List.range l.length).zip l).map f ≠ [] := by
  cases l with
  | nil => exact absurd rfl h
  | cons x l => simp [List.range_succ_eq_map]

theorem dumpRecords_ne_nil (s : State) (flags : Nat) : dumpRecords s flags ≠ [] := by
  have hpayloads : dumpPayloads s flags ≠ [] := by
    unfold dumpPayloads
    rw [List.append_assoc]
    exact List.cons_ne_nil _ _
  exact map_zip_range_ne_nil hpayloads _

theorem dumpAtBoundary_captures {s : State} {n : Nat} (hdue : dumpDue s n = true) (hup : p48Up s = true)
    (hring : flag s (Reg.ringCfgEn (counterGlobals s).2.1) = true) (hdump : s.cnt.dump = [])
    (hholds : ringHolds s (counterGlobals s).2.1 (dumpRecords s (counterGlobals s).2.2) = true) :
    dumpAtBoundary s n = { s with
      cnt.dumpAt := some n, cnt.dump := dumpRecords s (counterGlobals s).2.2, cnt.dumpRing := (counterGlobals s).2.1
      cnt.dumpMissed := s.cnt.missed } := by
  have hsame (flags : Nat) : dumpRecords { s with cnt.dumpAt := some n } flags = dumpRecords s flags := rfl
  unfold dumpAtBoundary
  dsimp only
  rw [hsame, if_neg (by simp [hdue]), if_neg (by simp [hup, hring, hdump, hholds])]

theorem captures_eq (s : State) (n : Nat) : captures s n = copiesDue
    (if s.cnt.snapAt.any (requestDue s) ∨ dumpTaken (frozenIfDue s) (dumpAtBoundary (frozenIfDue s) n) then
      captured (dumpAtBoundary (frozenIfDue s) n) else dumpAtBoundary (frozenIfDue s) n) := rfl

/-! Captures. -/

/-- The copies of a boundary keep what is counted and captured. -/
theorem copies_keep (c : Prop) [Decidable c] (u : State) :
    (copiesDue (if c then captured u else u)).cnt.missed = u.cnt.missed ∧
      (copiesDue (if c then captured u else u)).cnt.dump = u.cnt.dump ∧
      get (copiesDue (if c then captured u else u)) Reg.dumpStatusMissed = get u Reg.dumpStatusMissed := by
  have hcopied (w : State) : (copiesDue w).cnt.missed = w.cnt.missed ∧ (copiesDue w).cnt.dump = w.cnt.dump ∧
      get (copiesDue w) Reg.dumpStatusMissed = get w Reg.dumpStatusMissed := by
    have hmissed := missedSame_copiesDue w _ List.mem_cons_self
    obtain ⟨r, h⟩ := copiesDue_eq w
    rw [hmissed, h]
    exact ⟨rfl, rfl, rfl⟩
  split
  · obtain ⟨hmissed, hdump, hshown⟩ := hcopied (captured u)
    have hsame := missedSame_captured u _ List.mem_cons_self
    obtain ⟨r, p, h⟩ := captured_eq u
    rw [hmissed, hdump, hshown, hsame, h]
    exact ⟨rfl, rfl, rfl⟩
  · exact hcopied u

/-- A boundary's dump that cannot be captured is missed, whatever else is captured there. -/
theorem captures_missed {s : State} {n : Nat} (hdue : dumpDue s n = true)
    (hbad : p48Up s = false ∨ flag s (Reg.ringCfgEn (counterGlobals s).2.1) = false ∨ s.cnt.dump ≠ []) :
    (captures s n).cnt.missed = s.cnt.missed + 1 ∧ (captures s n).cnt.dump = s.cnt.dump ∧
      get (captures s n) Reg.dumpStatusMissed =
        min (2 ^ Reg.dumpStatusMissed.width - 1) (get s Reg.dumpStatusMissed + 1) := by
  obtain ⟨-, hpolicy, a, r, c, hcnt⟩ := frozenIfDue_shows s
  have hlow := lowSame_frozenIfDue s
  have hdump : (frozenIfDue s).cnt.dump = s.cnt.dump := by rw [hcnt]
  have hmissed : (frozenIfDue s).cnt.missed = s.cnt.missed := by rw [hcnt]
  have hshown := missedSame_frozenIfDue s _ List.mem_cons_self
  have hbad' : p48Up (frozenIfDue s) = false ∨
      flag (frozenIfDue s) (Reg.ringCfgEn (counterGlobals (frozenIfDue s)).2.1) = false ∨
      (frozenIfDue s).cnt.dump ≠ [] := by
    rw [counterGlobals_of_lowSame hlow hpolicy, flag_of_lowSame hlow (ringCfgEn_low (counterGlobals_ring_lt s)),
      p48Up, flag_of_lowSame hlow (by decide), hdump]
    exact hbad
  rw [captures_eq, dumpAtBoundary_skips ((dumpDue_frozenIfDue s n).trans hdue) hbad']
  obtain ⟨hcount, hkept, hcounted⟩ := copies_keep (s.cnt.snapAt.any (requestDue s) = true ∨
    dumpTaken (frozenIfDue s) (bump { frozenIfDue s with
      cnt.dumpAt := some n, cnt.missed := (frozenIfDue s).cnt.missed + 1 } Reg.dumpStatusMissed) = true)
    (bump { frozenIfDue s with
      cnt.dumpAt := some n, cnt.missed := (frozenIfDue s).cnt.missed + 1 } Reg.dumpStatusMissed)
  refine ⟨hcount.trans ?_, hkept.trans ?_, hcounted.trans ?_⟩
  · rw [bump_cnt, ← hmissed]
  · rw [bump_cnt, ← hdump]
  · rw [get_bump_same, ← hshown]
    rfl

/-- With no freeze and no copy due, a missed dump shows in its count alone. -/
theorem captures_missed_alone {s : State} {n : Nat} (hdue : dumpDue s n = true)
    (hbad : p48Up s = false ∨ flag s (Reg.ringCfgEn (counterGlobals s).2.1) = false ∨ s.cnt.dump ≠ [])
    (hsnap : s.cnt.snapAt.any (requestDue s) = false) (hcopy : s.cnt.crAt.any (requestDue s) = false) :
    captures s n =
      bump { s with cnt.dumpAt := some n, cnt.missed := s.cnt.missed + 1 } Reg.dumpStatusMissed := by
  have hthawed : frozenIfDue s = s := if_neg (by simp [hsnap])
  have hnone : dumpTaken s (bump { s with cnt.dumpAt := some n, cnt.missed := s.cnt.missed + 1 } Reg.dumpStatusMissed) =
      false := by
    simp [dumpTaken]
  rw [captures_eq, hthawed, dumpAtBoundary_skips hdue hbad, if_neg (by simp [hsnap, hnone])]
  exact copiesDue_none hcopy

/-- A dump in hand at a boundary: its records, and their ring. -/
def dumpedState (u : State) (n : Nat) : State := { u with
  cnt.dumpAt := some n, cnt.dump := dumpRecords u (counterGlobals u).2.2, cnt.dumpRing := (counterGlobals u).2.1
  cnt.dumpMissed := u.cnt.missed }

theorem dumpTaken_dumpedState {u : State} (hdump : u.cnt.dump = []) (n : Nat) : dumpTaken u (dumpedState u n) = true := by
  have hrecords : (dumpRecords u (counterGlobals u).2.2).isEmpty = false := by
    simpa using dumpRecords_ne_nil u (counterGlobals u).2.2
  rw [dumpTaken, hdump]
  exact congrArg Bool.not hrecords

/-- A boundary's dump that can be captured is, with the page and the central reader's copy. -/
theorem captures_captured {s u : State} {n : Nat} (hdue : dumpDue s n = true) (hu : u = frozenIfDue s)
    (hup : p48Up u = true) (hring : flag u (Reg.ringCfgEn (counterGlobals u).2.1) = true) (hdump : u.cnt.dump = [])
    (hholds : ringHolds u (counterGlobals u).2.1 (dumpRecords u (counterGlobals u).2.2) = true) :
    captures s n = copiesDue (captured (dumpedState u n)) := by
  subst hu
  have hdue' := (dumpDue_frozenIfDue s n).trans hdue
  have htaken : dumpAtBoundary (frozenIfDue s) n = dumpedState (frozenIfDue s) n :=
    dumpAtBoundary_captures hdue' hup hring hdump hholds
  rw [captures_eq, htaken, if_pos (.inr (dumpTaken_dumpedState hdump n))]

theorem capturedCopies_eq (u : State) (n : Nat) : ∃ r p, copiesDue (captured (dumpedState u n)) = { dumpedState u n with
    regs := r, cnt.page := p, cnt.pageGen := (u.cnt.pageGen + 2) % 2 ^ 32
    cnt.crAt := u.cnt.crAt.filter fun a => !requestDue u a } := by
  obtain ⟨r, p, hcaptured⟩ := captured_eq (dumpedState u n)
  obtain ⟨r', hcopies⟩ := copiesDue_eq (captured (dumpedState u n))
  refine ⟨r', p, ?_⟩
  rw [hcopies, hcaptured]
  rfl

theorem get_capturedCopies_tempo (u : State) (n : Nat) :
    get (copiesDue (captured (dumpedState u n))) Reg.crTempo = tempoNo u % 2 ^ 32 := by
  have hdumped : tempoNo (dumpedState u n) = tempoNo u := rfl
  have hpaged : tempoNo (refreshPage (dumpedState u n)) = tempoNo (dumpedState u n) := rfl
  refine get_copiesDue_tempo ?_ ?_
  · rw [captured, get_centralCopy_tempo, hpaged, hdumped]
  · rw [tempoNo_of_lowSame (lowSame_captured _), hdumped]

theorem dumpCapture_due {s : State} (haloft : aloft s = true) (hboundary : boundaryDue s = true)
    (hdue : dumpDue s (tempoNo s + 1) = true) : dumpCapture s = captures s (tempoNo s + 1) :=
  if_pos ⟨haloft, hboundary, hdue⟩

/-- A record written has gone out, and the counters' own state stands. -/
theorem writeRecord_shows (r : Nat) (s : State) (bs : List Byte) : (writeRecord r s bs).cnt = s.cnt ∧
    Out.hostWrite (leAt (((ringOf s r).descs.find (get s (Reg.ringHeadHead r))).getD []) 0 8) bs ∈
      (writeRecord r s bs).io.out := by
  have hchanges : changesOnly [.registers, .accum, .host, .io] s (writeRecord r s bs) :=
    changesOnly_of_kept (@kept_writeRecord [.registers, .accum, .host, .io] (has_of rfl) (has_of rfl) (has_of rfl)
      (has_of rfl) r s bs)
  refine ⟨hchanges.cnt_eq (by decide), ?_⟩
  unfold writeRecord
  extract_lets h x entry s1
  have hsent : Out.hostWrite (leAt ((x.descs.find h).getD []) 0 8) bs ∈ s1.io.out := by
    obtain ⟨-, g, hframe⟩ := sent_sendToHost s (.hostWrite (leAt ((x.descs.find h).getD []) 0 8) bs)
    obtain ⟨-, g', hcompletion⟩ := sent_sendToHost (sendToHost s (.hostWrite (leAt ((x.descs.find h).getD []) 0 8) bs))
      (.hostWrite (get (sendToHost s (.hostWrite (leAt ((x.descs.find h).getD []) 0 8) bs)) (Reg.ringCplBase r) + 16 * h)
        entry)
    have hs1 : s1.io.out = _ := congrArg (fun u => u.io.out) hcompletion
    rw [hs1, hframe]
    exact List.mem_cons_of_mem _ List.mem_cons_self
  have hconsume : (consume s1 r).io = s1.io := by
    obtain ⟨v, ph, h | h⟩ := consume_eq s1 r <;> rw [h] <;> rfl
  refine (moderate_keeps _ r).1.mem ?_
  rw [bump_io, hconsume]
  exact hsent

/-- Settles O54: a request is noted, and the boundary's captures leave all but the registers they show and the counters' own. -/
theorem freezesAndDumpsAreCaptured : Obligations.FreezesAndDumpsAreCaptured := by
  unfold Obligations.FreezesAndDumpsAreCaptured
  refine ⟨?snap, ?copy, ?missed, ?captured, ?freeze, ?dropped, ?written⟩
  case snap =>
    intro s m hacc hm
    have hnoted : snapRequest s m = { s with cnt.snapAt := some (s.cnt.snapAt.getD s.time.now) } := by
      simp [snapRequest, hm]
    refine ⟨_, congrArg Host.Outcome.next (accessWrite_accepted s m _ (snapRequest · m) hacc), ?_⟩
    rw [hnoted, answered_undebugged hm]
    exact ⟨rfl, .refl s [], rfl⟩
  case copy =>
    intro s m hacc
    refine ⟨_, congrArg Host.Outcome.next (accessWrite_accepted s m _ (copyRequest ·) hacc), ?_⟩
    have hsame : regsSame s (copyRequest s) [] := .refl s []
    refine ⟨?_, regsSame_answered hsame _ _ _, ?_⟩
    · rw [answered_frame]
      rfl
    · rw [answered_frame]
      rfl
  case missed =>
    intro s haloft hboundary hperiod hmod hnew hbad
    have hdue : dumpDue s (tempoNo s + 1) = true := by simp [dumpDue, hperiod, hmod, hnew]
    obtain ⟨hcount, hdump, hshown⟩ := captures_missed hdue hbad
    refine ⟨_, congrArg Host.Outcome.next (dumpCapture_due haloft hboundary hdue), hcount, hdump, hshown, fun hsnap hcopy => ?_⟩
    have hset : regsSame s { s with cnt.dumpAt := some (tempoNo s + 1), cnt.missed := s.cnt.missed + 1 }
        [Reg.dumpStatusMissed] := .refl s _
    rw [captures_missed_alone hdue hbad hsnap hcopy]
    exact hset.bump List.mem_cons_self
  case captured =>
    intro s u haloft hboundary hperiod hmod hnew hu hup hring hdump hholds
    have hdue : dumpDue s (tempoNo s + 1) = true := by simp [dumpDue, hperiod, hmod, hnew]
    have htempo : tempoNo u = tempoNo s := by
      rw [hu]
      exact tempoNo_of_lowSame (lowSame_frozenIfDue s)
    have hshown := get_capturedCopies_tempo u (tempoNo s + 1)
    obtain ⟨htime, -, a, r, c, hcnt⟩ := frozenIfDue_shows s
    have hcopies : (u.cnt.crAt.filter fun a => !requestDue u a) = s.cnt.crAt.filter fun a => !requestDue s a := by
      have hu' : u = frozenIfDue s := hu
      rw [hu', hcnt]
      simp only [requestDue, htime]
    obtain ⟨r, p, hcaptured⟩ := capturedCopies_eq u (tempoNo s + 1)
    refine ⟨_, congrArg Host.Outcome.next ((dumpCapture_due haloft hboundary hdue).trans
      (captures_captured hdue hu hup hring hdump hholds)), ?_⟩
    rw [hshown, htempo, hcaptured, hcopies]
    exact ⟨rfl, rfl, rfl, rfl, rfl, rfl, rfl, rfl⟩
  case freeze =>
    intro s hdue
    refine ⟨?_, ?_, ?_⟩
    · rw [freeze_cnt, frozenCnt_eq]
    · rw [freeze_eq, get_put_ne _ _ _ _ (by decide), get_put_same, tempoNo_of_lowSame (lowSame_settleAll s)]
      rfl
    · rw [freeze_eq]
      exact get_put_same _ _ _
  case dropped =>
    intro s hdump hbad
    have hlost : dumpDone s = bump { s with cnt.dump := [], cnt.missed := s.cnt.missed + 1 } Reg.dumpStatusMissed := by
      unfold dumpDone
      dsimp only
      rw [if_neg (by simpa using hdump), if_neg]
      rintro ⟨hup, hring, -⟩
      exact hbad.elim (fun h => absurd hup (by simp [h])) fun h => absurd hring (by simp [h])
    have hset : regsSame s { s with cnt.dump := [], cnt.missed := s.cnt.missed + 1 } [Reg.dumpStatusMissed] := .refl s _
    exact ⟨_, congrArg Host.Outcome.next hlost, rfl, rfl, get_bump_same _ _, hset.bump List.mem_cons_self, rfl⟩
  case written =>
    intro s bs hdump hup hring hholds
    have hwritten : dumpDone s = put { writeRecord s.cnt.dumpRing { s with cnt.dump := [] } bs with
        cnt.missed := (writeRecord s.cnt.dumpRing { s with cnt.dump := [] } bs).cnt.missed -
          (writeRecord s.cnt.dumpRing { s with cnt.dump := [] } bs).cnt.dumpMissed }
        Reg.dumpSeq ((get s Reg.dumpSeq + 1) % 2 ^ 32) := by
      simp [dumpDone, hdump, hup, hring, hholds]
    obtain ⟨hcnt, hout⟩ := writeRecord_shows s.cnt.dumpRing { s with cnt.dump := [] } bs
    refine ⟨_, congrArg Host.Outcome.next hwritten, ?_⟩
    generalize writeRecord s.cnt.dumpRing { s with cnt.dump := [] } bs = u at hcnt hout ⊢
    have hempty : u.cnt.dump = [] := by rw [hcnt]
    rw [put_cnt, put_io, get_put_same]
    refine ⟨hempty, ?_, Nat.mod_mod _ _, hout⟩
    rw [hcnt]

end Sys2Proof.Machine
end

section
/-!
The start-up up to the image pass, and calibration (R401, R402, R403, R434).
-/
namespace Sys2Proof.Machine

/-! Calibration's failure bits. -/

/-- The bits below `n` of the numbers a list holds. -/
def failBits (l : List Nat) (n : Nat) : Nat := ((List.range n).filter l.contains).map (fun p => 2 ^ p) |>.sum

theorem testBit_failBits (l : List Nat) (n p : Nat) : (failBits l n).testBit p = (decide (p < n) && l.contains p) := by
  have hsorted : ((List.range n).filter l.contains).SortedLT :=
    ((List.sortedLT_range n).pairwise.sublist List.filter_sublist).sortedLT
  rw [Bool.eq_iff_iff, failBits, ← Nat.mem_bitIndices, Nat.bitIndices_sum_map_two_pow hsorted, List.mem_filter, List.mem_range,
    Bool.and_eq_true, decide_eq_true_iff]

theorem failBits_lt (l : List Nat) (n : Nat) : failBits l n < 2 ^ n := Nat.lt_pow_two_of_testBit _ fun p hp => by
  rw [testBit_failBits, decide_eq_false (by omega), Bool.false_and]

/-- The registers that show which ports and channels failed. -/
def calFailed (s : State) (ports channels : List Nat) : State :=
  put (put (put s Reg.calFailLo (failBits ports 48 % 2 ^ 32)) Reg.calFailHiPortsHi (failBits ports 48 / 2 ^ 32))
    Reg.calFailHiChannels (failBits channels 16)

theorem calPort_calFailed (s : State) (ports channels : List Nat) {p : Nat} (hp : p < 48) :
    calPort (calFailed s ports channels) p = ports.contains p := by
  have hlo : get (calFailed s ports channels) Reg.calFailLo = failBits ports 48 % 2 ^ 32 := by
    rw [calFailed, get_put_ne _ _ _ _ (by decide), get_put_ne _ _ _ _ (by decide), get_put_same]
    exact Nat.mod_mod _ _
  have hhi : get (calFailed s ports channels) Reg.calFailHiPortsHi = failBits ports 48 / 2 ^ 32 := by
    rw [calFailed, get_put_ne _ _ _ _ (by decide), get_put_same]
    exact Nat.mod_eq_of_lt (Nat.div_lt_of_lt_mul (failBits_lt ports 48))
  rw [calPort, hlo, hhi, Nat.mul_comm, Nat.mod_add_div, bitAt, testBit_failBits, decide_eq_true hp, Bool.true_and]

theorem calChan_calFailed (s : State) (ports channels : List Nat) {n : Nat} (hn : n < 16) :
    calChan (calFailed s ports channels) n = channels.contains n := by
  have hshown : get (calFailed s ports channels) Reg.calFailHiChannels = failBits channels 16 := by
    rw [calFailed, get_put_same]
    exact Nat.mod_eq_of_lt (failBits_lt channels 16)
  rw [calChan, hshown, bitAt, testBit_failBits, decide_eq_true hn, Bool.true_and, Bool.true_and]

theorem contains_map_val {m : Nat} (l : List (Fin m)) (p : Fin m) : (l.map fun q => q.val).contains p.val = l.contains p := by
  rw [Bool.eq_iff_iff, List.contains_iff_mem, List.contains_iff_mem]
  exact List.mem_map_of_injective Fin.val_injective

theorem calibrationDone_starting {s : State} (hphase : s.boot.phase = .starting) (hcal : s.boot.calDone = false)
    (ports channels : List Nat) : calibrationDone s ports channels =
      markClock { calFailed s ports channels with boot := { s.boot with calDone := true } } :=
  if_pos ⟨.inr (.inr (.inl hphase)), by rw [hcal]; rfl⟩

/-! The release of the die at good rails. -/

theorem changesOnly.otp_eq {l : List Part} {s t : State} (h : changesOnly l s t) (hl : Part.fuses ∉ l)
    (hanchors : Part.anchors ∉ l) : t.otp = s.otp := by
  obtain ⟨-, -, -, -, -, -, -, -, -, -, -, -, -, -, -, -, -, hfuses, hkept, -⟩ := h
  calc t.otp = { fusesOf t.otp with anchors := t.otp.anchors } := rfl
    _ = { fusesOf s.otp with anchors := s.otp.anchors } := by rw [hfuses.resolve_left hl, hkept.resolve_left hanchors]
    _ = s.otp := rfl

theorem releaseDie_changes (s : State) (st : Straps) :
    changesOnly [.registers, .host, .boot, .wake, .io, .draws] s (releaseDie s st) :=
  changesOnly_of_kept (@kept_releaseDie _ (has_of rfl) (has_of rfl) (has_of rfl) (has_of rfl) (has_of rfl) (has_of rfl) s st)

/-- The release shows the strapped boot slot and whether recovery is strapped. -/
theorem releaseDie_straps (s : State) (st : Straps) : get (releaseDie s st) Reg.bootStatusBootSel = st.bootSel ∧
    flag (releaseDie s st) Reg.bootStatusRecovery = !st.recoveryN := by
  have hshown (u : State) (c : Nat) :
      get (putFlag (put (put u Reg.bootStatusCause c) Reg.bootStatusBootSel st.bootSel) Reg.bootStatusRecovery
        (!st.recoveryN)) Reg.bootStatusBootSel = st.bootSel ∧
      flag (putFlag (put (put u Reg.bootStatusCause c) Reg.bootStatusBootSel st.bootSel) Reg.bootStatusRecovery
        (!st.recoveryN)) Reg.bootStatusRecovery = !st.recoveryN := by
    refine ⟨?_, flag_putFlag_same _ rfl _⟩
    rw [get_putFlag_ne _ _ _ _ (by decide), get_put_same]
    exact Nat.mod_eq_of_lt st.bootSel.isLt
  unfold releaseDie
  dsimp only
  split
  · obtain ⟨hregs, -⟩ := wakeOutside_leaves (putFlag (put (put (measureAll { s with
      boot := { s.boot with phase := .memInit, phaseAt := s.time.now, straps := st }, wake := { s.wake with armed := false } })
      Reg.bootStatusCause s.boot.cause) Reg.bootStatusBootSel st.bootSel) Reg.bootStatusRecovery (!st.recoveryN))
    obtain ⟨hsel, hrec⟩ := hshown (measureAll { s with
      boot := { s.boot with phase := .memInit, phaseAt := s.time.now, straps := st }, wake := { s.wake with armed := false } })
      s.boot.cause
    refine ⟨(hregs _ (by decide)).trans hsel, ?_⟩
    rw [flag, hregs _ (by decide)]
    exact hrec
  · exact hshown _ _

/-! Memory cleared. -/

/-- The RAMs cleared. -/
def ramCleared (s : State) : State :=
  { s with mem := { s.mem with bankS := [], bankG := [], bankH := [], bankT := [] } }

theorem regsSame_showPrefer (s : State) : regsSame s (showPrefer (ramCleared s)) [Reg.imgPreferA, Reg.imgPreferB] :=
  (((regsSame.refl s _).congr rfl : regsSame s (ramCleared s) _).put (by simp) _).put (by simp) _

theorem showPrefer_mem (s : State) : (showPrefer s).mem = s.mem := by
  rw [showPrefer, put_mem, put_mem]

/-- Good memory is cleared and leads to the image pass. -/
theorem memoryInitDone_passes {s : State} (hphase : s.boot.phase = .memInit) (hheld : s.cpu.spHeld = false)
    (hcause : s.boot.cause ≠ 4) (hstrap : s.boot.straps.recoveryN = true) (hlc : lifeCycle s ≠ 4) :
    memoryInitDone s .ok = { showPrefer (ramCleared s) with
      boot := { s.boot with phase := .imagePass, phaseAt := s.time.now, passes := passOrder (showPrefer (ramCleared s)) } } :=
  (if_neg (by simp [hphase])).trans ((if_neg (by simp [hheld])).trans ((if_neg hcause).trans
    ((if_neg (by simp [hstrap])).trans (if_neg hlc))))

/-! The mailbox at the entry into recovery mode. -/

/-- The mailbox at the entry that the straps ask for. -/
theorem mbWord_enterRecovery (s : State) :
    mbWord (enterRecovery s 2) 0 = 0x56434552 ∧ mbWord (enterRecovery s 2) 0x14 = 2 := by
  change leNat (Mem.readBytes (Mem.writeBytes (Mem.writeBytes [] 0 0 (leBytes 4 0x56434552)) 0 0x10
      (leBytes 4 0 ++ leBytes 4 2)) 0 0 4) = 0x56434552 ∧
    leNat (Mem.readBytes (Mem.writeBytes (Mem.writeBytes [] 0 0 (leBytes 4 0x56434552)) 0 0x10
      (leBytes 4 0 ++ leBytes 4 2)) 0 0x14 4) = 2
  decide

end Sys2Proof.Machine
end

section
/-!
Registers below 0x2000 in an image's acceptance: BOOT_STATUS keeps the verdict while envelope, keys, freshness values and the
scoresheet are taken up (R402, R403).
-/
namespace Sys2Proof.Machine

/-! The operations that many parts share. -/

theorem imgSame.refl (s : State) : imgSame s s := fun _ _ => rfl

theorem imgSame_foldl {α : Type} (g : State → α → State) (hg : ∀ s x, imgSame s (g s x)) (l : List α) (s : State) :
    imgSame s (l.foldl g s) := by
  induction l generalizing s with
  | nil => exact .refl s
  | cons x l ih => exact (hg s x).trans (ih _)

theorem imgSame_forIdx (n : Nat) (g : Nat → State → State) (hg : ∀ i s, imgSame s (g i s)) (s : State) :
    imgSame s (forIdx n g s) := imgSame_foldl _ (fun s i => hg i s) _ s

/-- A change of parts that are no registers. -/
theorem imgSame.of_changes {s t : State} {l : List Part} (h : changesOnly l s t) (hl : Part.registers ∉ l) : imgSame s t :=
  .of_regs (h.regs_eq hl)

theorem levelFields_high (n : Nat) : ∀ f ∈ levelFields n, 0x2000 * 32 ≤ f.key := by
  simp only [levelFields, raiseFields, List.forall_mem_cons, Fld.key, Reg.srcCfgLevel, Reg.srcCfgState]
  refine ⟨by omega, by omega, by decide, by decide, by decide, fun _ h => absurd h List.not_mem_nil⟩

theorem imgSame.raise {s t : State} (h : imgSame s t) (n : Nat) : imgSame s (raiseSource t n) :=
  h.trans (.of_regsSame ((regsSame.refl t (levelFields n)).raise n fun _ hf => List.mem_cons_of_mem _ hf) (levelFields_high n))

theorem imgSame.setLevel {s t : State} (h : imgSame s t) (n : Nat) (high : Bool) : imgSame s (setLevel t n high) :=
  h.trans (.of_regsSame (regsSame_setLevel (.refl t (levelFields n)) (fun _ hf => hf) high) (levelFields_high n))

theorem imgSame_requestOn (s : State) (c : Nat) (k : JobKind) : imgSame s (requestOn s c k) :=
  fun g hg => get_requestOn_ne s c k g fun heq => absurd (heq ▸ hg) (by decide)

theorem imgSame_journal (s : State) (type : Nat) (body : List Byte) : imgSame s (journal s type body) :=
  imgSame_requestOn _ _ _

/-! A fault. -/

theorem imgSame_contActivate (s : State) (p cause master : Nat) : imgSame s (contActivate s p cause master) := by
  refine .of_regsSame (contActivate_regsSame s p cause master) ?_
  simp only [List.forall_mem_cons, Fld.key, Reg.contCauseCause, Reg.contCauseActivations]
  refine ⟨by decide, by omega, by omega, by decide, fun _ h => absurd h List.not_mem_nil⟩

theorem imgSame_enterSafe (s : State) (code : Nat) (byEsc : Bool) (fromSev firstTempo : Nat) :
    imgSame s (enterSafe s code byEsc fromSev firstTempo) := by
  have hshown : imgSame s (safeShown s code byEsc) :=
    ((((imgSame.refl s).put (by decide) _).put (by decide) _).put (by decide) _).put (by decide) _ |>.put (by decide) _
  have hheld : imgSame s (safeHeld (safeShown s code byEsc) code) :=
    (hshown.trans (imgSame_contActivate _ _ _ _)).raise 9
  rw [enterSafe_eq]
  split_ifs
  · exact imgSame_contActivate s _ _ _
  · exact hheld
  · exact hheld.trans (imgSame_requestOn _ _ _)

theorem imgSame_faultReact (s : State) (code unit sev profile : Nat) : imgSame s (faultReact s code unit sev profile) := by
  have habort : imgSame s (requestAbort s 5 0) := .of_regs (requestAbort_regs s 5 0)
  unfold faultReact
  split
  · dsimp only
    split_ifs
    · exact habort
    · exact habort.trans (imgSame_contActivate _ _ _ _)
  · exact habort.trans (imgSame_enterSafe _ _ _ _ _)
  · exact .refl s

theorem imgSame_overflowShown (s u : State) (code : Nat) : imgSame u (overflowShown s u code) := by
  have hshown (a b c d : Nat) : imgSame u (put (put (put (put u Reg.fcOvfCode a) Reg.fcOvfTempo b) Reg.fcOvfDue c)
      Reg.fcStatusOvfDueSet d) :=
    ((((imgSame.refl u).put (by decide) _).put (by decide) _).put (by decide) _).put (by decide) _
  exact (hshown code (tempoNo s % 2 ^ 32) ((tempoNo s + (faultPolicy s code).2.2) % 2 ^ 32) 1).trans (.of_regs rfl)

/-- A fault noted among the records, or as an overflow. -/
theorem imgSame_faultNoted (s : State) (code unit detail : Nat) :
    imgSame s (if s.fault.recs.length < 16 then faultAdded s code unit detail else faultOverflowed s code) := by
  have hcounted : imgSame s (faultCounted s code) := ((imgSame.refl s).put (by decide) _).put (by decide) _
  split
  · exact (imgSame.of_regs rfl).bump (by decide)
  · unfold faultOverflowed
    split
    · exact hcounted.trans (imgSame_overflowShown _ _ _)
    · exact hcounted

theorem imgSame_recordFault (s : State) (code unit detail : Nat) : imgSame s (recordFault s code unit detail) := by
  have hpin (u : State) : imgSame u (refreshFaultN u) :=
    fun f hf => get_refreshFaultN_ne u f fun heq => absurd (heq ▸ hf) (by decide)
  cases hfind : s.fault.recs.find? (fun r => r.code = code ∧ r.unit = unit) with
  | some r =>
    have hrepeated : imgSame s { s with fault.recs := repeatRecord code unit s.fault.recs } := .of_regs rfl
    rw [recordFault_held hfind]
    exact (hrepeated.trans (imgSame_faultReact _ _ _ _ _)).trans (hpin _)
  | none =>
    rw [recordFault_new hfind]
    exact ((((imgSame_faultNoted s code unit detail).raise 0).raise 8).trans (imgSame_faultReact _ _ _ _ _)).trans (hpin _)

/-! The envelope. -/

theorem imgSame_showEnvelope (s : State) (l : Loaded) (slotB : Bool) : imgSame s (showEnvelope s l slotB) := by
  refine imgSame.trans ((((((imgSame.refl s).put (by decide) _).put (by decide) _).put (by decide) _).put (by decide) _).put
    (by decide) _) (imgSame_forIdx 8 _ (fun m st => (imgSame.refl st).put ?_ _) _)
  simp only [Fld.key, Reg.envDigest]
  omega

/-- The fields that show a port's entry. -/
def portEntryFlds (p : Nat) : List Fld :=
  [Reg.portModeMode p, Reg.portModeLeader p, Reg.portModePreemptCap p, Reg.portModeMacsecCap p, Reg.plcaCfgPlcaId (p - 40),
    Reg.plcaCfgPlcaCount (p - 40), Reg.plcaCfgPlcaTo (p - 40), Reg.plcaCfgBurstCnt (p - 40), Reg.plcaBurstTmr (p - 40)]

theorem portEntryFlds_high (p : Nat) : ∀ f ∈ portEntryFlds p, 0x2000 * 32 ≤ f.key := by
  simp only [portEntryFlds, List.forall_mem_cons, Fld.key, Reg.portModeMode, Reg.portModeLeader, Reg.portModePreemptCap,
    Reg.portModeMacsecCap, Reg.plcaCfgPlcaId, Reg.plcaCfgPlcaCount, Reg.plcaCfgPlcaTo, Reg.plcaCfgBurstCnt, Reg.plcaBurstTmr]
  exact ⟨by omega, by omega, by omega, by omega, by omega, by omega, by omega, by omega, by omega,
    fun _ h => absurd h List.not_mem_nil⟩

/-- The fields that show a channel's entry. -/
def chanEntryFlds (n : Nat) : List Fld := [Reg.chInfoKind n, Reg.chInfoFlags n, Reg.chInfoBind n, Reg.chInfoBusId n]

theorem chanEntryFlds_high (n : Nat) : ∀ f ∈ chanEntryFlds n, 0x2000 * 32 ≤ f.key := by
  simp only [chanEntryFlds, List.forall_mem_cons, Fld.key, Reg.chInfoKind, Reg.chInfoFlags, Reg.chInfoBind, Reg.chInfoBusId]
  exact ⟨by omega, by omega, by omega, by omega, fun _ h => absurd h List.not_mem_nil⟩

theorem imgSame_showStructural (s : State) (v : View) : imgSame s (showStructural s v) := by
  refine (imgSame.trans (((((((imgSame.refl s).put (by decide) _).put (by decide) _).put (by decide) _).put (by decide) _).put
    (by decide) _).put (by decide) _ |>.put (by decide) _) (imgSame_forIdx 48 _ (fun p st => ?_) _)).trans
    (imgSame_forIdx 256 _ (fun n st => ?_) _)
  · have hhigh {f : Fld} (hf : f ∈ portEntryFlds p) := portEntryFlds_high p f hf
    have hmode (a b c d : Nat) : imgSame st (put (put (put (put st (Reg.portModeMode p) a) (Reg.portModeLeader p) b)
        (Reg.portModePreemptCap p) c) (Reg.portModeMacsecCap p) d) :=
      ((((imgSame.refl st).put (hhigh (by simp [portEntryFlds])) _).put (hhigh (by simp [portEntryFlds])) _).put
        (hhigh (by simp [portEntryFlds])) _).put (hhigh (by simp [portEntryFlds])) _
    dsimp only
    split
    · exact (((((hmode _ _ _ _).put (hhigh (by simp [portEntryFlds])) _).put (hhigh (by simp [portEntryFlds])) _).put
        (hhigh (by simp [portEntryFlds])) _).put (hhigh (by simp [portEntryFlds])) _).put (hhigh (by simp [portEntryFlds])) _
    · exact hmode _ _ _ _
  · have hhigh {f : Fld} (hf : f ∈ chanEntryFlds n) := chanEntryFlds_high n f hf
    have hkind (a b : Nat) : imgSame st (put (put st (Reg.chInfoKind n) a) (Reg.chInfoFlags n) b) :=
      ((imgSame.refl st).put (hhigh (by simp [chanEntryFlds])) _).put (hhigh (by simp [chanEntryFlds])) _
    dsimp only
    split
    · exact ((hkind _ _).put (hhigh (by simp [chanEntryFlds])) _).put (hhigh (by simp [chanEntryFlds])) _
    · exact hkind _ _

theorem imgSame_initialEn (s : State) (slot : Nat) : imgSame s (initialEn s slot) := by
  refine imgSame_forIdx _ _ (fun n st => ?_) s
  split
  · exact (imgSame.refl st).put (by simp only [Fld.key, Reg.srcCfgEn]; omega) _
  · exact .refl st

theorem imgSame_refreshCurrent (s : State) : imgSame s (refreshCurrent s) :=
  ((((imgSame.refl s).put (by decide) _).put (by decide) _).put (by decide) _).put (by decide) _

theorem imgSame_refreshStorage (s : State) : imgSame s (refreshStorage s) :=
  .of_regsSame (refreshStorage_regsSame s) (by decide)

/-- The slots emptied for an envelope, with the epoch's registers as at a boot. -/
def envelopeTaken (s : State) (l : Loaded) : State :=
  put (put (put { s with
    env := { s.env with structural := l.view.str, sealed := l.sealed, policy := [], cmt := [], loaded := true,
                        items := [], staged := [], latches := [], drainStart := [] },
    net := { s.net with static := [] } } Reg.epochStatusCur 0) Reg.epochStatusSlotSt 2) Reg.epochSeq 0

/-- The envelope's entries, CMT values and routes in slot 0. -/
def envelopePlaced (s : State) (l : Loaded) : State :=
  routeSources (setSlotCmt (setSlotPolicy (envelopeTaken s l) 0 l.view.pol) 0 (initialCmt l.view)) 0

theorem loadEnvelope_eq (s : State) (l : Loaded) (slotB : Bool) : loadEnvelope s l slotB =
    refreshCurrent (refreshStorage (showEnvelope (showStructural (initialEn (envelopePlaced s l) 0) l.view) l slotB)) := rfl

theorem changes_envelopePlaced (s : State) (l : Loaded) : changesOnly [.policy] (envelopeTaken s l) (envelopePlaced s l) := by
  refine changesOnly_of_kept ?_
  rw [envelopePlaced, @kept_routeSources _ (has_of rfl), @kept_setSlotCmt _ (has_of rfl), @kept_setSlotPolicy _ (has_of rfl)]

theorem imgSame_loadEnvelope (s : State) (l : Loaded) (slotB : Bool) : imgSame s (loadEnvelope s l slotB) := by
  have htaken : imgSame s (envelopeTaken s l) :=
    (((imgSame.of_regs rfl).put (by decide) _).put (by decide) _).put (by decide) _
  rw [loadEnvelope_eq]
  exact (((((htaken.trans (.of_changes (changes_envelopePlaced s l) (by decide))).trans (imgSame_initialEn _ _)).trans
    (imgSame_showStructural _ _)).trans (imgSame_showEnvelope _ _ _)).trans (imgSame_refreshStorage _)).trans
    (imgSame_refreshCurrent _)

/-- Once the envelope is in place, only registers and tables follow. -/
theorem changes_envelopeShown (s : State) (l : Loaded) (slotB : Bool) :
    changesOnly [.registers, .tables] (envelopePlaced s l) (loadEnvelope s l slotB) := by
  refine changesOnly_of_kept ?_
  rw [loadEnvelope_eq, @kept_refreshCurrent _ (has_of rfl), @kept_refreshStorage _ (has_of rfl) (has_of rfl),
    @kept_showEnvelope _ (has_of rfl), @kept_showStructural _ (has_of rfl), @kept_initialEn _ (has_of rfl)]

/-! The keys. -/

theorem imgSame_derive (s : State) (e i gen : Nat) : imgSame s (derive s e i gen) := by
  have hempty (u : State) : imgSame u (emptySlot u i) :=
    .of_changes (changesOnly_of_kept (@kept_emptySlot [.vault] (has_of rfl) u i)) (by decide)
  unfold derive
  cases recipe s e i with
  | none => exact .refl s
  | some b =>
    dsimp only
    split
    · exact .refl s
    · cases slotOf s (parentOf b) with
      | none => exact hempty s
      | some v =>
        dsimp only
        split_ifs
        · exact .of_changes (changesOnly_of_kept (@kept_installRevoked [.vault] (has_of rfl) _ _ _ _ _)) (by decide)
        · refine imgSame.trans ?_ (hempty _)
          exact (imgSame.refl s).bump (by decide)
        · exact hempty s
        · exact .of_regs (fillSlot_regs s i (recipeAttrs b 2 (depthOf s e 6 i)) (recipeKey s b gen) gen)

theorem imgSame_restoreKey (s : State) (e i gen : Nat) : imgSame s (restoreKey s e i gen) := by
  unfold restoreKey
  cases recipe s e i with
  | none => exact .refl s
  | some b =>
    dsimp only
    split_ifs
    · exact .of_regs rfl
    · exact imgSame_derive _ _ _ _

theorem imgSame_buildKeys (s : State) (e : Nat) (g : State → Nat → Nat) : imgSame s (buildKeys s e g) := by
  have hfixed (u : State) : imgSame u (forIdx 7 (fun i st => fillFixed st i (g st i)) u) :=
    imgSame_forIdx _ _ (fun i st => .of_changes
      (changesOnly_of_kept (@kept_fillFixed [.vault, .draws] (has_of rfl) (has_of rfl) st i (g st i))) (by decide)) u
  have hemptied : imgSame s { s with vault.slots := [] } := .of_regs rfl
  unfold buildKeys
  dsimp only
  split_ifs
  · exact hemptied.trans (hfixed _)
  · refine ((hemptied.trans (hfixed _)).trans (imgSame_foldl _ (fun st i => ?_) _ _)).trans
      (imgSame_forIdx _ _ (fun d st => imgSame_foldl _ (fun st' i => ?_) _ _) _)
    · exact .of_changes (changesOnly_of_kept
        (@kept_restoreImport [.vault, .draws] (has_of rfl) (has_of rfl) s st e i (g st i))) (by decide)
    · split_ifs
      · exact imgSame_restoreKey _ _ _ _
      · exact .refl st'

theorem imgSame_loadKeys (s : State) (e : Nat) : imgSame s (loadKeys s e) := by
  unfold loadKeys
  split
  · exact .of_regs rfl
  · exact imgSame_buildKeys _ _ _

/-! Freshness values, packet numbers and coefficients. -/

theorem imgSame_fvBlock (s : State) (e : Nat) : imgSame s (fvBlock s e) := .of_regs rfl

/-- One freshness value taken up from a save, or blocked where the save is behind its limit. -/
def fvTaken (s : State) (e : Nat × List Byte) : State :=
  if leAt e.2 16 8 < fvOf s e.1 + leAt e.2 28 4 then fvBlock s e.1
  else { s with edge.fv := s.edge.fv.set e.1 (fvOf s e.1 + leAt e.2 28 4) }

/-- The freshness values that a channel of the current envelope generates. -/
def fvGens (s : State) : List (Nat × List Byte) :=
  (recsOf s (curSlot s) 0x0310).filter fun e => leAt e.2 0 2 % 4 == 3

/-- The state before any freshness value is taken up. -/
def fvFresh (s : State) (m : SMap Nat) : State := { s with edge := { s.edge with fv := m, blocked := [] } }

theorem fvRestore_none {s : State} (h : newestFv s = none) : fvRestore s =
    secEvent ((fvGens s).foldl (fun st e => fvBlock st e.1) (fvFresh s [])) Reg.secEventsRestoreFail := by
  rw [fvRestore, h]
  rfl

theorem fvRestore_some {s : State} {m : SMap Nat} (h : newestFv s = some m) :
    fvRestore s = (fvGens s).foldl fvTaken (fvFresh s m) := by
  rw [fvRestore, h]
  rfl

theorem imgSame_fvTaken (s : State) (e : Nat × List Byte) : imgSame s (fvTaken s e) := by
  unfold fvTaken
  split
  · exact imgSame_fvBlock _ _
  · exact .of_regs rfl

theorem imgSame_fvRestore (s : State) : imgSame s (fvRestore s) := by
  have hfresh (m : SMap Nat) : imgSame s (fvFresh s m) := .of_regs rfl
  cases h : newestFv s with
  | none =>
    rw [fvRestore_none h, secEvent]
    have hblocked := (hfresh []).trans (imgSame_foldl (fun st e => fvBlock st e.1) (fun st e => imgSame_fvBlock st e.1)
      (fvGens s) (fvFresh s []))
    have hhigh : 0x2000 * 32 ≤ Reg.secEventsRestoreFail.key := by decide
    exact (hblocked.put hhigh 1).setLevel 19 true
  | some m =>
    rw [fvRestore_some h]
    exact (hfresh m).trans (imgSame_foldl _ imgSame_fvTaken _ _)

theorem imgSame_checkCoefs (s : State) : imgSame s (checkCoefs s) := by
  refine imgSame_forIdx _ _ (fun p st => ?_) s
  split
  · exact (imgSame.refl st).put (by simp only [Fld.key, Reg.trainStatusCoefValid]; omega) _
  · exact .refl st

/-- At a boot no former association is kept, so a packet number changes its own registers alone. -/
theorem imgSame_loadPn (refilled : Nat → Bool) (p i : Nat) (s : State) : imgSame s (loadPn refilled none p i s) := by
  have hstat : 0x2000 * 32 ≤ (Reg.saStatExhausted p i).key := by
    simp only [Fld.key, Reg.saStatExhausted]
    omega
  have hnext : 0x2000 * 32 ≤ (Reg.saNextPn p i).key := by
    simp only [Fld.key, Reg.saNextPn]
    omega
  have hhit : 0x2000 * 32 ≤ (Reg.saStatThreshHit p i).key := by
    simp only [Fld.key, Reg.saStatThreshHit]
    omega
  unfold loadPn
  dsimp only
  split_ifs
  · exact (imgSame.refl s).put hstat _
  · exact .refl s
  · exact (((imgSame.refl s).put hnext _).put hstat _).put hhit _

theorem imgSame_loadPns (s : State) (refilled : Nat → Bool) : imgSame s (loadPns s refilled none) := by
  refine imgSame_forIdx _ _ (fun p st => ?_) s
  split
  · exact imgSame_forIdx _ _ (fun i u => imgSame_loadPn _ p i u) st
  · exact .refl st

/-! The scoresheet. -/

theorem imgSame_refreshSheet (s : State) : imgSame s (refreshSheet s) := by
  have hbits : imgSame s (sheetBitsShown s) :=
    ((((imgSame.refl s).put (by decide) _).put (by decide) _).put (by decide) _).put (by decide) _
  have hhead (u : State) (last : Nat) : imgSame u (sheetHeadShown s u last) := by
    have hfill (a b c d : Nat) : imgSame u (put (put (put (put u Reg.sbStatusOldest a) Reg.sbStatusNewest b)
        Reg.sbStatusFill c) Reg.sbHeadSeq d) :=
      ((((imgSame.refl u).put (by decide) _).put (by decide) _).put (by decide) _).put (by decide) _
    refine ((hfill _ _ _ _).trans (imgSame_forIdx 8 _ (fun m st => (imgSame.refl st).put ?_ _) _)).put (by decide) _
    simp only [Fld.key, Reg.sbHead]
    omega
  have hshown : imgSame s (sheetShown s) := hbits.trans (hhead _ _)
  rw [refreshSheet_eq]
  split
  · exact hshown
  · exact hshown.raise 21

theorem imgSame_checkSheet (s : State) : imgSame s (checkSheet s) := by
  unfold checkSheet
  split
  · exact .refl s
  · extract_lets n r s1
    have hwalked : imgSame s s1 := by
      dsimp only [s1]
      split
      · exact (imgSame_requestOn s 0 _).trans (imgSame_recordFault _ _ _ _)
      · exact .refl s
    clear_value s1
    split
    · exact hwalked.trans (imgSame_requestOn _ _ _)
    · exact hwalked

theorem imgSame_keptEscalation (s : State) : imgSame s (keptEscalation s) := by
  unfold keptEscalation
  split
  · exact (imgSame.of_regs rfl).trans (imgSame_requestOn _ _ _)
  · exact .refl s

end Sys2Proof.Machine
end

section
/-!
What an accepted image brings with it: the slot, the envelope, the saves of freshness values and the imported keys (R402, R403,
R406).
-/
namespace Sys2Proof.Machine

/-! The parts an image's acceptance reaches. -/

theorem changesOnly.loaded_eq {l : List Part} {s t : State} (h : changesOnly l s t) (hl : Part.epochs ∉ l) :
    t.env.loaded = s.env.loaded := by
  obtain ⟨-, -, -, -, -, -, hepochs, -⟩ := h
  have hloaded : (epochsOf t.env).loaded = (epochsOf s.env).loaded := congrArg EnvSt.loaded (hepochs.resolve_left hl)
  exact hloaded

theorem loadEnvelope_leaves (s : State) (l : Loaded) (slotB : Bool) : (loadEnvelope s l slotB).env.loaded = true ∧
    (loadEnvelope s l slotB).boot = s.boot ∧ (loadEnvelope s l slotB).vault = s.vault ∧
    (loadEnvelope s l slotB).edge = s.edge := by
  have hplaced := changes_envelopePlaced s l
  have hshown := changes_envelopeShown s l slotB
  exact ⟨(hshown.loaded_eq (by decide)).trans (hplaced.loaded_eq (by decide)),
    (hshown.boot_eq (by decide)).trans (hplaced.boot_eq (by decide)),
    (hshown.vault_eq (by decide)).trans (hplaced.vault_eq (by decide)),
    (hshown.edge_eq (by decide)).trans (hplaced.edge_eq (by decide))⟩

/-! Imported keys. -/

/-- Where no key is imported, none is afterwards. -/
def noneImported (s t : State) : Prop := s.vault.imported = [] → t.vault.imported = []

theorem noneImported.of_eq {s t : State} (h : t.vault.imported = s.vault.imported) : noneImported s t := fun hs => h.trans hs

theorem noneImported.trans {s t u : State} (h : noneImported s t) (k : noneImported t u) : noneImported s u := k ∘ h

theorem noneImported_foldl {α : Type} (g : State → α → State) (hg : ∀ s x, noneImported s (g s x)) (l : List α) (s : State) :
    noneImported s (l.foldl g s) := by
  induction l generalizing s with
  | nil => exact id
  | cons x l ih => exact (hg s x).trans (ih _)

theorem noneImported_forIdx (n : Nat) (g : Nat → State → State) (hg : ∀ i s, noneImported s (g i s)) (s : State) :
    noneImported s (forIdx n g s) := noneImported_foldl _ (fun s i => hg i s) _ s

theorem fillSlot_imported (s : State) (i : Nat) (v : VSlot) (key : List Byte) (gen : Nat) :
    (fillSlot s i v key gen).vault.imported = s.vault.imported := by
  obtain ⟨g, n, h⟩ := drbgNext_frame s
  simp [fillSlot, installKey, setSlot, h]

theorem noneImported_fillFixed (s : State) (i gen : Nat) : noneImported s (fillFixed s i gen) := by
  unfold fillFixed
  split
  · split_ifs
    · exact id
    · exact .of_eq (fillSlot_imported _ _ _ _ _)
  · exact id

theorem noneImported_restoreImport {old : State} (hold : old.vault.imported = []) (s : State) (e i gen : Nat) :
    noneImported s (restoreImport old s e i gen) := by
  have hnone : old.vault.imported.find i = none := by
    rw [hold]
    rfl
  unfold restoreImport
  cases recipe s e i with
  | none => exact id
  | some b =>
    dsimp only
    split
    · exact id
    · split
      · exact .of_eq rfl
      · rw [hnone]
        exact id

theorem noneImported_derive (s : State) (e i gen : Nat) : noneImported s (derive s e i gen) := by
  unfold derive
  cases recipe s e i with
  | none => exact id
  | some b =>
    dsimp only
    split
    · exact id
    · cases slotOf s (parentOf b) with
      | none => exact .of_eq rfl
      | some v =>
        dsimp only
        split_ifs
        · exact .of_eq rfl
        · exact .of_eq rfl
        · exact .of_eq rfl
        · exact .of_eq (fillSlot_imported s i (recipeAttrs b 2 (depthOf s e 6 i)) (recipeKey s b gen) gen)

theorem noneImported_restoreKey (s : State) (e i gen : Nat) : noneImported s (restoreKey s e i gen) := by
  unfold restoreKey
  cases recipe s e i with
  | none => exact id
  | some b =>
    dsimp only
    split_ifs
    · exact .of_eq rfl
    · exact noneImported_derive _ _ _ _

theorem noneImported_loadKeys (s : State) (e : Nat) : noneImported s (loadKeys s e) := by
  intro hs
  have hemptied : noneImported s { s with vault.slots := [] } := .of_eq rfl
  have hfixed (u : State) : noneImported u (forIdx 7 (fun i st => fillFixed st i (genOf st i)) u) :=
    noneImported_forIdx _ _ (fun i st => noneImported_fillFixed st i _) u
  unfold loadKeys buildKeys
  dsimp only
  split_ifs
  · exact hemptied hs
  · exact hfixed _ (hemptied hs)
  · refine noneImported_forIdx _ _ (fun d st => noneImported_foldl _ (fun u i => ?_) _ _) _
      (noneImported_foldl _ (fun st i => noneImported_restoreImport hs st e i _) _ _ (hfixed _ (hemptied hs)))
    split_ifs
    · exact noneImported_restoreKey _ _ _ _
    · exact id

/-- No copy of the key record that verifies, and no key is imported. -/
theorem readKeys_imported {s : State} {damaged : List Nat}
    (h : (s.vault.copies.filter fun e => !damaged.contains e.1 && copyOk e.2) = []) :
    (readKeys s damaged).vault.imported = [] := by
  unfold readKeys
  rw [h]
  rfl

theorem changes_loadKeys (s : State) (e : Nat) : changesOnly [.registers, .accum, .vault, .draws] s (loadKeys s e) :=
  changesOnly_of_kept (@kept_loadKeys _ (has_of rfl) (has_of rfl) (has_of rfl) (has_of rfl) s e)

/-! Saves of freshness values. -/

theorem foldl_fvSaves {α : Type} (g : State → α → State) (hg : ∀ s x, (g s x).edge.fvSaves = s.edge.fvSaves) (l : List α)
    (s : State) : (l.foldl g s).edge.fvSaves = s.edge.fvSaves := by
  induction l generalizing s with
  | nil => rfl
  | cons x l ih => exact (ih _).trans (hg s x)

/-- Freshness values are taken up from the saves, which stay. -/
theorem fvRestore_fvSaves (s : State) : (fvRestore s).edge.fvSaves = s.edge.fvSaves := by
  cases h : newestFv s with
  | none =>
    rw [fvRestore_none h, secEvent, setLevel_edge]
    exact foldl_fvSaves (fun st e => fvBlock st e.1) (fun _ _ => rfl) (fvGens s) (fvFresh s [])
  | some m =>
    rw [fvRestore_some h]
    refine foldl_fvSaves fvTaken (fun st e => ?_) (fvGens s) (fvFresh s m)
    unfold fvTaken
    split <;> rfl

theorem changes_fvRestore (s : State) :
    changesOnly [.registers, .accum, .intc, .host, .edge, .io, .draws] s (fvRestore s) :=
  changesOnly_of_kept (@kept_fvRestore _ (has_of rfl) (has_of rfl) (has_of rfl) (has_of rfl) (has_of rfl) (has_of rfl)
    (has_of rfl) s)

/-! What follows the freshness values. -/

/-- Packet numbers, containment, the scoresheet and the entry of the boot, after an image's slot and serial are shown. -/
def bootRecorded (s : State) (b : Bool) (serial : Nat) : State :=
  let shown := put (putFlag s Reg.imgStatusInactiveB (!b)) Reg.imgSerial serial
  let sheet := checkSheet (refreshSheet (loadRipcord (checkCoefs (loadPns shown (fun _ => true) none))))
  keptEscalation (journal sheet 0x0001 (bootEntry sheet))

/-- The parts that the record of a boot reaches. -/
def bootRecordParts : List Part :=
  [.registers, .accum, .jobs, .faults, .intc, .host, .cont, .sheet, .frames, .wake, .io]

theorem changes_bootRecorded (s : State) (b : Bool) (serial : Nat) : changesOnly bootRecordParts s (bootRecorded s b serial) := by
  refine changesOnly_of_kept ?_
  unfold bootRecorded
  dsimp only
  rw [@kept_keptEscalation _ (has_of rfl) (has_of rfl) (has_of rfl) (has_of rfl) (has_of rfl),
    @kept_journal _ (has_of rfl) (has_of rfl) (has_of rfl) (has_of rfl),
    @kept_checkSheet _ (has_of rfl) (has_of rfl) (has_of rfl) (has_of rfl) (has_of rfl) (has_of rfl) (has_of rfl) (has_of rfl)
      (has_of rfl) (has_of rfl),
    @kept_refreshSheet _ (has_of rfl) (has_of rfl) (has_of rfl) (has_of rfl) (has_of rfl), @kept_loadRipcord _ (has_of rfl),
    @kept_checkCoefs _ (has_of rfl), @kept_loadPns _ (has_of rfl) (has_of rfl), @kept_put _ (has_of rfl),
    @kept_putFlag _ (has_of rfl)]

/-- Of the low registers, the record of a boot shows the slot and the serial alone. -/
theorem get_bootRecorded (s : State) (b : Bool) (serial : Nat) {f : Fld} (hlow : f.key < 0x2000 * 32)
    (hslot : f.key ≠ Reg.imgStatusInactiveB.key) (hserial : f.key ≠ Reg.imgSerial.key) :
    get (bootRecorded s b serial) f = get s f := by
  have hshown : get (put (putFlag s Reg.imgStatusInactiveB (!b)) Reg.imgSerial serial) f = get s f :=
    (get_put_ne _ _ _ _ hserial).trans (get_putFlag_ne _ _ _ _ hslot)
  have hripcord (u : State) : imgSame u (loadRipcord u) := .of_regs rfl
  unfold bootRecorded
  dsimp only
  exact (((((((imgSame_loadPns _ _).trans (imgSame_checkCoefs _)).trans (hripcord _)).trans (imgSame_refreshSheet _)).trans
    (imgSame_checkSheet _)).trans (imgSame_journal _ _ _)).trans (imgSame_keptEscalation _) f hlow).trans hshown

/-- An image accepted, before the clock is marked. -/
def imageTaken (s : State) (b : Bool) (l : Loaded) : State :=
  bootRecorded (fvRestore (loadKeys (loadEnvelope { s with boot := { s.boot with slotB := b, spArea := 0, gcArea := 0 } } l b) 0))
    b (leAt (slotHeader s b) 0x10 4)

theorem acceptImage_eq (s : State) (b : Bool) (l : Loaded) : acceptImage s b l = markClock { imageTaken s b l with
    boot := { (imageTaken s b l).boot with phase := .starting, phaseAt := s.time.now, passes := [] } } := by
  unfold acceptImage imageTaken bootRecorded
  dsimp only

theorem markClock_eq (s : State) : ∃ time, markClock s = { s with time := time } := ⟨_, rfl⟩

/-- What an image taken up leaves of the slot, the envelope, the saves and the imported keys. -/
theorem imageTaken_leaves (s : State) (b : Bool) (l : Loaded) : (imageTaken s b l).boot.slotB = b ∧
    (imageTaken s b l).env.loaded = true ∧ (imageTaken s b l).edge.fvSaves = s.edge.fvSaves ∧
    noneImported s (imageTaken s b l) := by
  unfold imageTaken
  generalize hs0 : ({ s with boot := { s.boot with slotB := b, spArea := 0, gcArea := 0 } } : State) = s0
  obtain ⟨hloaded, hboot, hvault, hedge⟩ := loadEnvelope_leaves s0 l b
  generalize loadEnvelope s0 l b = s1 at hloaded hboot hvault hedge
  have hkeys := changes_loadKeys s1 0
  have himports := noneImported_loadKeys s1 0
  have hfv := changes_fvRestore (loadKeys s1 0)
  have hsaves := fvRestore_fvSaves (loadKeys s1 0)
  generalize fvRestore (loadKeys s1 0) = s2 at hfv hsaves
  generalize loadKeys s1 0 = keyed at hkeys himports hfv hsaves
  have hrecorded := changes_bootRecorded s2 b (leAt (slotHeader s b) 0x10 4)
  generalize bootRecorded s2 b (leAt (slotHeader s b) 0x10 4) = s3 at hrecorded
  refine ⟨?_, ?_, ?_, fun himported => ?_⟩
  · rw [hrecorded.boot_eq (by decide), hfv.boot_eq (by decide), hkeys.boot_eq (by decide), hboot, ← hs0]
  · rw [hrecorded.loaded_eq (by decide), hfv.loaded_eq (by decide), hkeys.loaded_eq (by decide), hloaded]
  · rw [hrecorded.edge_eq (by decide), hsaves, hkeys.edge_eq (by decide), hedge, ← hs0]
  · rw [hrecorded.vault_eq (by decide), hfv.vault_eq (by decide)]
    refine himports ?_
    rw [hvault, ← hs0]
    exact himported

theorem get_imageTaken (s : State) (b : Bool) (l : Loaded) {f : Fld} (hlow : f.key < 0x2000 * 32)
    (hslot : f.key ≠ Reg.imgStatusInactiveB.key) (hserial : f.key ≠ Reg.imgSerial.key) :
    get (imageTaken s b l) f = get s f := by
  have hslotB : imgSame s { s with boot := { s.boot with slotB := b, spArea := 0, gcArea := 0 } } := .of_regs rfl
  have htaken := ((hslotB.trans (imgSame_loadEnvelope _ l b)).trans (imgSame_loadKeys _ 0)).trans (imgSame_fvRestore _)
  exact (get_bootRecorded _ _ _ hlow hslot hserial).trans (htaken f hlow)

/-! The image pass. -/

/-- The field that shows a slot's verdict. -/
def resultFld (b : Bool) : Fld := if b then Reg.bootStatusResultB else Reg.bootStatusResultA

theorem get_put_resultFld {v : Nat} (hv : v < 16) (s : State) (b : Bool) : get (put s (resultFld b) v) (resultFld b) = v := by
  rw [get_put_same]
  cases b <;> exact Nat.mod_eq_of_lt hv

/-- A slot without a header shows 6, and the other slot is tried, or recovery mode entered. -/
theorem imagePassDone_badHeader {s : State} {b : Bool} {rest : List Bool} (hphase : s.boot.phase = .imagePass)
    (hheld : s.cpu.spHeld = false) (hpasses : s.boot.passes = b :: rest) (hheader : headerOk (slotHeader s b) = false)
    (hspoiled : s.img.spoiled.contains b = false) (damaged : List Nat) :
    imagePassDone s damaged =
      let judged := put { s with freeCtr := s.freeCtr + 1 } (resultFld b) 6
      if rest.isEmpty then enterRecovery judged 1 else { judged with boot := { s.boot with passes := rest } } := by
  have hverify : verifySlot s b false = .error (6, none) := by
    rw [verifySlot, hspoiled, hheader]
    rfl
  rw [imagePassDone, if_neg (by simp [hphase, hheld]), hpasses]
  simp only [hverify, hheader, verdict]
  rfl

/-- The verdict 1 shown for a slot whose image verifies, its parts copied. -/
def imagePassed (s : State) (b : Bool) : State :=
  let copied := if headerOk (slotHeader s b) then copyParts s b 0 0 else s
  put (put { copied with freeCtr := copied.freeCtr + 1 } Reg.envInfoLoadResult 0) (resultFld b) 1

theorem imagePassed_leaves (s : State) (b : Bool) :
    (imagePassed s b).vault = s.vault ∧ (imagePassed s b).edge = s.edge := by
  have hcopy := changesOnly_of_kept (@kept_copyParts [.banks] (has_of rfl) s b 0 0)
  simp only [imagePassed, put_vault, put_edge]
  split
  · exact ⟨hcopy.vault_eq (by decide), hcopy.edge_eq (by decide)⟩
  · exact ⟨rfl, rfl⟩

theorem imagePassDone_accepts {s : State} {b : Bool} {rest : List Bool} {l : Loaded} (hphase : s.boot.phase = .imagePass)
    (hheld : s.cpu.spHeld = false) (hpasses : s.boot.passes = b :: rest) (hverify : verifySlot s b false = .ok l)
    (damaged : List Nat) : imagePassDone s damaged = putFlag (acceptImage (readBlob (imagePassed s b) damaged) b l)
      Reg.bootStatusFallback (s.boot.straps.bootSel == 0 && rest.isEmpty) := by
  rw [imagePassDone, if_neg (by simp [hphase, hheld]), hpasses]
  simp only [hverify, verdict]
  rfl

/-- What the reading of the key record and the saves leaves. -/
theorem readBlob_leaves (s : State) (damaged : List Nat) : (readBlob s damaged).regs = s.regs ∧
    (readBlob s damaged).edge.fvSaves = s.edge.fvSaves.filter (fun e => !damaged.contains e.1) ∧
    ((s.vault.copies.filter fun e => !damaged.contains e.1 && copyOk e.2) = [] →
      (readBlob s damaged).vault.imported = []) := by
  have hkeys := changesOnly_of_kept (@kept_readKeys [.vault] (has_of rfl) s damaged)
  refine ⟨hkeys.regs_eq (by decide), ?_, fun h => readKeys_imported h⟩
  rw [readBlob, hkeys.edge_eq (by decide)]

/-- An image that verifies starts from its slot and shows its verdict. -/
theorem imagePassDone_starts {s : State} {b : Bool} {rest : List Bool} {l : Loaded} (hphase : s.boot.phase = .imagePass)
    (hheld : s.cpu.spHeld = false) (hpasses : s.boot.passes = b :: rest) (hverify : verifySlot s b false = .ok l)
    (damaged : List Nat) :
    (imagePassDone s damaged).boot.phase = .starting ∧ (imagePassDone s damaged).boot.slotB = b ∧
      (imagePassDone s damaged).env.loaded = true ∧
      (imagePassDone s damaged).edge.fvSaves = s.edge.fvSaves.filter (fun e => !damaged.contains e.1) ∧
      ((s.vault.copies.filter fun e => !damaged.contains e.1 && copyOk e.2) = [] →
        (imagePassDone s damaged).vault.imported = []) ∧
      get (imagePassDone s damaged) (resultFld b) = 1 := by
  rw [imagePassDone_accepts hphase hheld hpasses hverify]
  have hresult : get (imagePassed s b) (resultFld b) = 1 := get_put_resultFld (by decide) _ _
  obtain ⟨hvault, hedge⟩ := imagePassed_leaves s b
  generalize imagePassed s b = u at hresult hvault hedge
  obtain ⟨hregs, hsaves, himported⟩ := readBlob_leaves u damaged
  rw [hvault] at himported
  rw [hedge] at hsaves
  generalize readBlob u damaged = v at hregs hsaves himported
  obtain ⟨hslotB, hloaded, htaken, hnone⟩ := imageTaken_leaves v b l
  have hkept : get (imageTaken v b l) (resultFld b) = 1 := by
    rw [get_imageTaken v b l (by cases b <;> decide) (by cases b <;> decide) (by cases b <;> decide), get_congr v u _ hregs,
      hresult]
  rw [acceptImage_eq]
  generalize imageTaken v b l = w at hslotB hloaded htaken hnone hkept
  obtain ⟨time, hclock⟩ := markClock_eq { w with
    boot := { w.boot with phase := .starting, phaseAt := v.time.now, passes := [] } }
  rw [hclock]
  refine ⟨rfl, hslotB, hloaded, htaken.trans hsaves, fun h => hnone (himported h), ?_⟩
  rw [get_putFlag_ne _ _ _ _ (by cases b <;> decide), ← hkept]
  exact get_congr _ _ _ rfl

end Sys2Proof.Machine
end

section
/-!
Start-up (R401, R402, R403, R406, R434).
-/
namespace Sys2Proof.Machine

/-- Settles O48: the image pass keeps its verdict through all that an accepted image brings with it. -/
theorem startUpRunsThroughItsPhases : Obligations.StartUpRunsThroughItsPhases := by
  unfold Obligations.StartUpRunsThroughItsPhases
  refine ⟨?powerOn, ?railsGood, ?inReset, ?memory, ?strapped, ?memoryFails, ?badHeader, ?accepted, ?calibrated⟩
  case powerOn =>
    intro s hphase
    exact ⟨_, congrArg Host.Outcome.next (if_pos hphase), rfl, rfl, get_putFlag_same _ _ _,
      ((regsSame.refl s _).congr rfl).putFlag List.mem_cons_self _, rfl⟩
  case railsGood =>
    intro s st hphase hpin hthermal
    have hgood : railsGood s st = releaseDie s st := by
      rw [railsGood, hphase]
      exact if_pos (by simp [mayRelease, hpin, hthermal])
    obtain ⟨hboot, hcause⟩ := releaseDie_shown s st
    obtain ⟨hsel, hrecovery⟩ := releaseDie_straps s st
    have hchanges := releaseDie_changes s st
    refine ⟨_, congrArg Host.Outcome.next hgood, ?_, ?_, hsel, hcause, hrecovery,
      hchanges.mem_eq (by decide) (by decide), hchanges.otp_eq (by decide) (by decide)⟩
    · rw [hboot]
    · rw [hboot]
  case inReset =>
    intro s st hphase hpin
    have hheld : railsGood s st = { s with boot.phase := .inReset, boot.phaseAt := s.time.now } := by
      rw [railsGood, hphase]
      exact if_neg (by simp [mayRelease, hpin])
    exact ⟨_, congrArg Host.Outcome.next hheld, rfl, rfl⟩
  case memory =>
    intro s hphase hheld hcause hstrap hlc
    have hdone := memoryInitDone_passes hphase hheld hcause hstrap hlc
    have hsame := regsSame_showPrefer s
    have hmem := showPrefer_mem (ramCleared s)
    generalize showPrefer (ramCleared s) = u at hdone hsame hmem
    exact ⟨_, congrArg Host.Outcome.next hdone, rfl, by rw [hmem]; rfl, by rw [hmem]; rfl, by rw [hmem]; rfl, by rw [hmem]; rfl,
      by rw [hmem]; rfl, by rw [hmem]; rfl, hsame.congr rfl⟩
  case strapped =>
    intro s hphase hheld hcause hstrap
    have hdone : memoryInitDone s .ok = enterRecovery _ 2 := (if_neg (by simp [hphase])).trans
      ((if_neg (by simp [hheld])).trans ((if_neg hcause).trans (if_pos (by simp [hstrap]))))
    exact ⟨_, congrArg Host.Outcome.next hdone, rfl, mbWord_enterRecovery _⟩
  case memoryFails =>
    intro s hphase
    exact ⟨_, congrArg Host.Outcome.next (if_neg (by simp [hphase])), rfl, get_put_same _ _ _,
      ((regsSame.refl s _).congr rfl).put List.mem_cons_self _, rfl⟩
  case badHeader =>
    intro s b kc sv rest hphase hheld hpasses hheader hspoiled
    have hdone := imagePassDone_badHeader hphase hheld hpasses hheader hspoiled (kc.map (·.val) ++ sv.map (·.val))
    have hresult := get_put_resultFld (v := 6) (by decide) { s with freeCtr := s.freeCtr + 1 } b
    refine ⟨_, congrArg Host.Outcome.next hdone, ?_⟩
    cases rest with
    | nil => exact ⟨hresult, rfl, fun h => absurd rfl h, rfl, rfl⟩
    | cons c rest => exact ⟨hresult, hphase, fun _ => rfl, rfl, rfl⟩
  case accepted =>
    intro s b kc sv rest hphase hheld hpasses
    exact ⟨_, rfl, fun l hverify => imagePassDone_starts hphase hheld hpasses hverify _⟩
  case calibrated =>
    intro s ports channels hphase hcal
    have hdone := calibrationDone_starting hphase hcal (ports.map fun p => p.val) (channels.map fun c => c.val)
    have hshown : ∀ (u : State) (f : Fld), get (markClock { u with boot := { s.boot with calDone := true } }) f = get u f :=
      fun _ _ => rfl
    refine ⟨_, congrArg Host.Outcome.next hdone, rfl, fun p => ?_, fun n => ?_, ?_⟩
    · rw [calPort, hshown, hshown, ← contains_map_val, ← calPort_calFailed s _ (channels.map fun c => c.val) p.isLt]
      rfl
    · rw [calChan, hshown, ← contains_map_val, ← calChan_calFailed s (ports.map fun p => p.val) _ n.isLt]
      rfl
    · exact ((((regsSame.refl s _).put (by simp) _).put (by simp) _).put (by simp) _).congr rfl

end Sys2Proof.Machine
end
